-- ==== Sys2Proof/Word.lean ====
section
/-!
DEFINITION. The word types: 32-bit register words (R396) and bytes.
-/

namespace Sys2Proof

/-- A register of R396. -/
abbrev Word := BitVec 32

/-- A byte of a sheaf, a grain, an image or an Umauf frame. -/
abbrev Byte := BitVec 8

end Sys2Proof
end

