-- ==== Sys2Proof/Syntax.lean ====
section
/-!
DEFINITION. The commands and events of the module: one constructor of `Instr` per row of the operation table,
in the table's order. The table gives its rows no operand fields; the operands are what the rule of each row
names: the die, tile, channel or port it happens at, what the outside world supplies with it (a pin edge's time,
a converter's code, a register value), and the instant where the rule depends on one. Times are absolute and do
not wrap: `t` of an edge is a tap-time (R55), `at` is in T_ref, a pin stamp is in ticks.
-/

namespace Sys2Proof

/-- The two concentrators (R7). -/
inductive Conc where
  | a | b
  deriving DecidableEq, Repr

/-- The two Umauf ports (R368). Port n carries time domain n (R233). -/
inductive Um where
  | um0 | um1
  deriving DecidableEq, Repr

/-- The pins of a pair A and B: TRIG_A, TRIG_B, GATE_A, GATE_B, ILK_A, ILK_B. -/
inductive Pin where
  | a | b
  deriving DecidableEq, Repr

/-- The trailing AUTH_SEQ and TAG64 of a privileged command (R379). -/
structure Auth where
  seq : BitVec 32
  tag : BitVec 64
  deriving DecidableEq, Repr

/-- The header of an Umauf command (R377) with the port it arrived on, the authentication words of a
privileged one, and the module time in T_ref at which it arrived. -/
structure UHdr where
  port : Um
  dest : BitVec 4
  addr : BitVec 12
  tag : Byte
  len : Nat
  master : Byte
  /-- bits [15:0], reserved, as they were sent -/
  reserved : BitVec 16 := 0
  auth : Option Auth
  at_ : Nat
  deriving DecidableEq, Repr

/-- One write of a peal (R378: PAGE 16, OFFSET 16, VALUE 32). -/
structure PWrite where
  page : BitVec 16
  off : BitVec 16
  value : Word
  deriving DecidableEq, Repr

/-- A superframe marker's content (R369) as a port receives it, and what the port's recovered reference has gained on the active
domain's since the last frame boundary, in 2^-20 tick (R233). -/
structure Marker where
  treeId : BitVec 16
  partId : Byte
  frame : BitVec 4
  timeValid : Bool
  time : BitVec 48
  master : Byte
  crcOk : Bool
  gained : Int
  deriving DecidableEq, Repr

/-- What a decoder delivers on a read (R321). -/
inductive EccRead where
  | clean
  /-- corrected, with the bit or symbol corrected; `again`: the verify read corrects it again (R333) -/
  | corrected (bit : Nat) (again : Bool)
  | uncorrectable
  deriving DecidableEq, Repr

/-- What the decoders deliver over the words of an operation, by address: a word not listed is clean (R321). -/
abbrev Reads := List (Nat × EccRead)

def Reads.at_ (l : Reads) (addr : Nat) : EccRead := ((l.find? (fun x => x.1 == addr)).map (·.2)).getD .clean

/-- What the decoders deliver as a grain is dealt: words of the sheaf queue by word address, and units of the replay group. -/
structure GrainReads where
  queue : Reads := []
  units : Reads := []
  deriving DecidableEq, Repr

/-- What the decoders deliver to a glean: units of the shadow group, and records of tiles' extents on the die, by
tile × 256 + record. -/
structure GleanReads where
  units : Reads := []
  onDie : Reads := []
  deriving DecidableEq, Repr

/-- A tile, and what the decoder delivers over the records of its extent on the die, by record. -/
structure TileReads where
  tile : Fin 16
  reads : Reads := []
  deriving DecidableEq, Repr

/-- What a frame boundary finds: how far the standby domain's reference has gained on the active one since the last, in 2^-20 tick
(R233), and what the decoders deliver of the staged entries that a swap at this boundary reads, by channel (R321). -/
structure BoundaryEnv where
  drift : Int
  stagingA : Reads := []
  stagingB : Reads := []
  deriving DecidableEq, Repr

/-- What a tile's power-up finds (R323, R458, R471): whether its checkers pass, what the decoder delivers of the MRAM words it is
loaded from, by address, and whether the class K image among them can be read. -/
structure TileStart where
  ok : Bool
  mram : Reads := []
  classKOk : Bool := true
  deriving DecidableEq, Repr

/-- What the power-up of a tile group finds (R471): the tiles whose checkers fail, and the MRAM words as for a tile. -/
structure GroupStart where
  failing : BitVec 16
  mram : Reads := []
  classKOk : Bool := true
  deriving DecidableEq, Repr

/-- What a concentrator's start finds: which of its checkers pass, by their number in ST_DETAIL (R340), and the rest as for a
tile. -/
structure ConcStart where
  pass : BitVec 24
  mram : Reads := []
  classKOk : Bool := true
  deriving DecidableEq, Repr

/-- The dies and converters of R465 and R466. -/
inductive Die where
  | tile (t : Fin 16)
  | conc (c : Conc)
  | stack (c : Conc)
  | belfry
  | bus
  deriving DecidableEq, Repr

/-- A die that passes a limit while a block read is in progress, after some of its registers have been read (R414, R466). -/
structure PartWay where
  after : Nat
  die : Die
  current : Bool
  deriving DecidableEq, Repr

/-- What a block read meets: what the decoders deliver of the words it reads, by offset, and a die that stops part-way. -/
structure BlockEnv where
  reads : Reads := []
  stops : Option PartWay := none
  deriving DecidableEq, Repr

/-- A concentrator, and what the decoder delivers over the units in its write buffers, by place in their order. -/
structure ConcReads where
  conc : Conc
  reads : Reads := []
  deriving DecidableEq, Repr

/-- A class of DRAM requests at a module time (R295). -/
structure ClassAt where
  cls : Nat
  at_ : Nat
  deriving DecidableEq, Repr

/-- A region of an integrity page at a module time (R326). -/
structure RegionAt where
  region : Nat
  at_ : Nat
  deriving DecidableEq, Repr

/-- A scrub read as its decoder delivers it, and whether the normal writer wrote the word again before the scrubber could
(R331). -/
structure ScrubRead where
  read : EccRead
  rewritten : Bool
  deriving DecidableEq, Repr

/-- A lane at a module time. -/
structure LaneAt where
  lane : Fin 64
  at_ : Nat
  deriving DecidableEq, Repr

/-- Bits that a lane's serialiser sends in test, and the places among them at which one arrives wrong at the checker (R360). -/
structure TestBits where
  bits : Nat
  errs : List Nat
  deriving DecidableEq, Repr

/-- A lane and the bits of its test. -/
structure LaneBits where
  lane : Fin 64
  run : TestBits
  deriving DecidableEq, Repr

/-- What a tile's line reports of itself (R56, R57, R78): its last phase error, and the largest and the least magnitude it has had
over the T_ref in question, in 1/16 tap; where tap 32 lies off half a period, in taps; and the loop control value. -/
structure LineReport where
  err : Byte
  bound : Nat
  least : Nat
  tap32 : Int
  ctrl : BitVec 12
  deriving DecidableEq, Repr

/-- A tile's line and its report. -/
structure TileLine where
  tile : Fin 16
  report : LineReport
  deriving DecidableEq, Repr

/-- The tap-time at which a channel's signal passes a level of the discriminator, and where it then stands (R29): the
preamplifier's output at gain ×1 in microvolts above the baseline, positive for positive charge. -/
structure Crossing where
  tap : Nat
  signal : Int
  deriving DecidableEq, Repr

/-- The concentrator's port at which a token is taken, and how many of the token's words it has acknowledged now: all of them,
or some (R101). -/
structure TokenPort where
  conc : Conc
  words : Nat
  deriving DecidableEq, Repr

/-- The two pages with a scrubber of their own and a bucket table (R330): a concentrator's DINTG page or INTG. -/
inductive IntPage where
  | dintg (c : Conc)
  | intg
  deriving DecidableEq, Repr

/-- What the code of an image in trial does after its release (R455): it migrates the settings and sets TRIAL_RUN, it
reports that it cannot, or neither. -/
inductive TrialStart where
  | runs | reports | silent
  deriving DecidableEq, Repr

/-- The findings that the silicon supplies to START_SEQUENCE: checker results, a concentrator's by their number in ST_DETAIL
(R323, R340); whether the words of the current images, of the previous class C image where it is taken instead, and of the class
K sections can be read, and what the decoder corrects
of them and of the other MRAM words it loads, by address (R321, R458); whether the committed settings can be read (R458); the
trial's start (R455); and the board straps (R352). -/
structure StartEnv where
  belfryOk : Bool
  concA : BitVec 24
  concB : BitVec 24
  classCOk : Bool
  prevCOk : Bool := true
  classKOk : Bool
  classKLoads : Bool
  settingsOk : Bool
  mram : Reads := []
  trial : TrialStart
  boardId : BitVec 6
  deriving DecidableEq, Repr

/-- What a WIRE_BREAK finds for 20 µs (R428): a pin at a voltage in nV, or the excitation driver at 10 mA. -/
inductive BreakCause where
  | pinAt (pin : Fin 16) (nv : Int)
  | currentLimit
  deriving DecidableEq, Repr

/-- What an edge of TCK finds (R491): the levels of TRST_N and of the pins that nothing else in the model gives (TRIG_A, TRIG_B,
the straps, and where each interlock output stands in its waveform while it drives one), and how many upstream UI have passed, for
each port, since 2048 T_ref after the sync word of the frame that granted its last burst. -/
structure TestPins where
  trst : Bool
  trigA : Bool
  trigB : Bool
  ilkA : Bool
  ilkB : Bool
  boardId : BitVec 6
  ui0 : Nat
  ui1 : Nat
  deriving DecidableEq, Repr

/-- The commands and events, one per row of the operation table, in its order. -/
inductive Instr where
  | frameBoundary (slips : List (Fin 16 × BitVec 48)) (drift : BoundaryEnv)
  | leadingEdge (chan : BitVec 16) (t : Crossing)
  | trailingEdge (chan : BitVec 16) (t : Crossing) (took : Nat)
  | holdoffExpiry (chan : BitVec 16) (t : Nat) (took : Nat)
  | totSaturation (chan : BitVec 16) (t : Nat) (took : Nat)
  | adcConversionDone (chan : BitVec 16) (code : Byte) (took : Nat) (read : EccRead)
  | gateApply (tile : Fin 16)
  | stuckTimerExpiry (chan : BitVec 16) (t : Nat)
  | smaskClear (h : UHdr) (chan : BitVec 16)
  | blankingEnd (chan : BitVec 16) (t : Nat)
  | injectionLaunch (tile block : Fin 16)
  | injBlindExpiry (chan : BitVec 16) (t : Nat)
  | injFire (h : UHdr) (tile block : Fin 16) (value : Word)
  | idleExpiry (page : BitVec 16)
  | ceilWrite (h : UHdr) (page : BitVec 16) (value : Word)
  | tilePowerRemoval (tile : Fin 16)
  | tilePowerUp (tile : Fin 16) (start : TileStart)
  | tileResume (tile : Fin 16)
  | dllLock (tile : TileLine)
  | dllUnlock (tile : TileLine)
  | dllRelock (h : UHdr) (tile : Fin 16) (value : Word)
  | promotionDecision (chan : BitVec 16) (t : Nat) (took : Nat)
  | emitFrameClosed (tile : Fin 16)
  | portCut (tile : Fin 16) (port : Conc)
  | lateWordAck (tile : Fin 16) (port : Conc)
  | correctRecord (conc : Conc) (tile : Fin 16) (read : Reads) (port : EccRead) (queued : Bool)
  | frameClosedToken (conc : TokenPort) (tile : Fin 16)
  | resumeToken (conc : TokenPort) (tile : Fin 16)
  | sideItem (conc : Conc) (tile : Fin 16) (read : EccRead) (port : EccRead)
  | horizonExpiry (conc : Conc) (tile : Fin 16)
  | sheafForm (conc : Conc)
  | extentTimeout (conc : Conc) (tile : TileReads)
  | govRaiseStep (conc : Conc) (fill : Nat)
  | govLowerStep (conc : Conc) (fill : Nat)
  | corrStageWrite (h : UHdr) (conc : Conc) (off : BitVec 16) (value : Word)
  | stageClr (h : UHdr) (conc : Conc)
  | shadowDiscard (h : UHdr) (page : BitVec 16)
  | dealGrain (conc : Conc) (reads : GrainReads) (at_ : Nat)
  | trigPinEdge (pin : Pin) (rising : Bool) (stamp : Nat)
  | timedTrigger (h : UHdr) (coarse : BitVec 48) (fine : BitVec 12) (glean : Bool) (level : BitVec 3)
      (pre post : BitVec 20) (path : BitVec 16)
  | triggerDelivery
  | gatePinChange (pin : Pin) (high : Bool) (stamp : Nat)
  | gateEdgeAccept (pin : Pin) (at_ : Nat)
  | timedGate (h : UHdr) (open_ : BitVec 48) (openTap : BitVec 6) (close : BitVec 48) (closeTap : BitVec 6)
  | gleanSheafForm (conc : Conc) (reads : GleanReads) (at_ : Nat)
  | resendGo (h : UHdr) (value : Word)
  | resend (h : UHdr) (first : BitVec 32) (count : BitVec 16)
  | resendSheaf (conc : Conc) (reads : Reads) (at_ : Nat)
  | loWordRead (h : UHdr) (page off : BitVec 16)
  | turnAccumEnd
  | engineStage
  | swapGo (h : UHdr) (value : Word)
  | swapCommit
  | swapBoundary
  | restoringSwapRequest (conc : Conc) (chan : BitVec 16)
  | epochInitWrite (h : UHdr) (value : Word)
  | superframeMarker (port : Um) (marker : Marker) (at_ : Nat) (sub : BitVec 16)
  | acqTimeout
  | cdrUnlock (port : Um)
  | markerMissing (port : Um)
  | domainSwitch (h : UHdr) (target : Bool) (s : BitVec 32)
  | swCtrlGo (h : UHdr) (value : Word)
  | domainSwitchBoundary
  | slewStart (h : UHdr) (domain : Um) (count : Word)
  | slewDone (domain : Um)
  | spliceSlewStart (h : UHdr) (count : Word)
  | spliceSlewEnd
  | timeSnap (h : UHdr)
  | crosslinkMessage (conc : Conc)
  | leaseLapse (at_ : Nat)
  | guardEnd (at_ : Nat)
  | stick (h : UHdr) (op : BitVec 2) (target : Bool)
  | stickCmdWrite (h : UHdr) (value : Word)
  | takeStart (conc : Conc)
  | laneExitIdle (conc : Conc) (lane : LaneAt)
  | rejoin (conc : Conc) (start : ConcStart) (boardId : BitVec 6)
  | joinSheafChoose
  | agePromotion (conc : Conc) (shadow : Bool) (cls : ClassAt)
  | pageIdleClose (conc : Conc) (chan bank : Fin 16)
  | demandWindow (conc : Conc) (replayBytes shadowBytes : Nat)
  | freqChangeDone (conc : ConcReads)
  | refreshDue (conc : Conc) (chan bank : Fin 16)
  | postponedRefresh (conc : Conc) (chan bank : Fin 16)
  | tempSample (conc : Conc) (temp : Int)
  | retrainDue (conc : Conc) (chan : Fin 16) (setting : Option (BitVec 24))
  | channelRetire (conc : Conc) (chan : Fin 16)
  | dramFreeze (conc : Conc) (parity : Bool) (cmd cls : BitVec 3) (chan bank : Fin 16) (row : BitVec 16)
      (unit : BitVec 6) (synd : Word)
  | freezeReleaseWrite (h : UHdr) (conc : Conc)
  | freezeRelease (h : UHdr) (conc : Conc)
  | hostRead (h : UHdr) (conc : Conc)
  | hostReadDone (conc : Conc) (read : EccRead)
  | bucketLeak (page : IntPage) (region : RegionAt)
  | threshWrite (h : UHdr) (page : IntPage) (region : Nat) (value : Word)
  | tmrRefresh (die : Die) (regs : List (BitVec 28))
  | scrubGo (h : UHdr) (page : IntPage)
  | scrubAbort (h : UHdr) (page : IntPage)
  | scrubWord (page : IntPage) (read : ScrubRead) (at_ : Nat)
  | fwScrubSlot (page : IntPage) (mem : BitVec 5)
  | faultClr (h : UHdr) (page : IntPage)
  | maskLoad
  | laneFault (conc : Conc) (lane : Fin 64) (pllLost : Bool)
  | laneTestWrite (h : UHdr) (conc : Conc) (lane : Fin 64) (value : Word)
  | injOne (h : UHdr) (conc : Conc) (lane : Fin 64)
  | checkerLock (conc : Conc) (lane : LaneBits)
  | checkerLockLost (conc : Conc) (lane : Fin 64) (bits : Nat) (errs : List Nat)
  | downstreamFrame (port : Um) (sync : BitVec 32) (word0 word1 : List Byte) (at_ : Nat) (ecc : List Reads)
  | upstreamBurst (port : Um)
  | discoveryAnswer (port : Um)
  | discoveryRetry (port : Um)
  | registrationLoss (port : Um)
  | register (h : UHdr) (serial : BitVec 64) (addr : BitVec 12) (eqd : BitVec 16)
  | deregister (h : UHdr)
  | read (h : UHdr) (page off : BitVec 16) (ecc : EccRead)
  | write (h : UHdr) (page off : BitVec 16) (value : Word)
  | blockRead (h : UHdr) (page off : BitVec 16) (count : Byte) (ecc : BlockEnv)
  | unlock (h : UHdr) (page frames : BitVec 16)
  | lock (h : UHdr) (page : BitVec 16)
  | authWrite (h : UHdr) (page off : BitVec 16) (value : Word)
  | unlockExpiry (page : BitVec 16)
  | pealBegin (h : UHdr) (epoch : BitVec 16) (count : Byte) (s : BitVec 32)
  | pealWrite (h : UHdr) (index : Byte) (writes : List PWrite)
  | pealEnd (h : UHdr) (count : Byte) (crc : BitVec 32)
  | pealAssemblyTimeout (port : Um)
  | pealCommit
  | pealApply
  | mixedClr (h : UHdr)
  | evtEnableWrite (h : UHdr) (page off : BitVec 16) (value : Word)
  | counterOvfClear (h : UHdr) (page : BitVec 16) (value : Word)
  | cntClr (h : UHdr) (page off : BitVec 16) (value : Word)
  | regWriteOther (h : UHdr) (page off : BitVec 16) (value : Word)
  | monxStart (h : UHdr) (value : Word)
  | monxStop (h : UHdr) (value : Word)
  | visitSwitchDone
  | conversionResult (pos neg sine ref : Int) (ovr : Bool) (at_ : Nat)
  | urgentDue (entry : Fin 32)
  | wireBreak (cause : BreakCause) (at_ : Nat)
  | breakClear (h : UHdr) (value : Word)
  | ilkHoldExpiry (out : Pin) (at_ : Nat)
  | imgBegin (h : UHdr) (cls : Bool) (header : List Byte)
  | imgData (h : UHdr) (off : BitVec 32) (words : List Word)
  | imgEnd (h : UHdr) (cls : Bool)
  | imgCancel (h : UHdr) (cls : Bool)
  | imgRestart (h : UHdr)
  | imgCommit (h : UHdr) (cls : Bool) (version : BitVec 32)
  | imgReject (h : UHdr) (cls : Bool)
  | transferTimeout
  | trialTimeout
  | coreRestart
  | powerGood
  | powerFail (under : Bool)
  | startSequence (env : StartEnv)
  | tileGroupPower (group : Fin 4) (start : GroupStart)
  | ready (ms : BitVec 20)
  | converterFault (die : Die)
  | convFaultClear (h : UHdr) (value : Word)
  | overLimit (die : Die) (current : Bool)
  | overLimitRecover (die : Die)
  | resetAssert
  | resetRelease
  | concHoldWrite (h : UHdr) (value : Word)
  | cleanerLock
  | laneFaultEnd (conc : Conc) (lane : Fin 64)
  | extOkChange (ok : Bool)
  | deadlineCopyExpiry (conc : Conc) (at_ : Nat)
  | testClockEdge (rising tms tdi : Bool) (pins : TestPins)
  | testLogicReset
  deriving DecidableEq, Repr

end Sys2Proof
end

