-- ==== Sys2Proof/Machine/RegMap.lean ====
section
/-!
DEFINITION. The register map: page kinds (R397), block types (R401), every register and field of every page
with its place, access type (R6), reset value and storage limit, as the register tables of the chapters list
them (R49, R52, R77, R78, R106, R108, R135, R137, R140, R197, R199, R225, R226, R251, R252, R254, R255, R282,
R284, R314, R316, R339-R341, R343, R364, R366, R392, R394, R399, R400, R415, R440, R442, R444, R460, R477).
Field references are named after the manual's PAGE.REGISTER.FIELD notation.
-/

namespace Sys2Proof.Machine

/-- Access types of R6. -/
inductive Access where
  | ro | rw | rw1c | wo | wp | rwl | rws
  deriving DecidableEq, Repr

/-- How the value stored by a write is limited or substituted (R405). -/
inductive Limit where
  /-- stored as written -/
  | none
  /-- values outside are stored as the nearer limit -/
  | clamp (lo hi : Nat)
  /-- the value 0b11 is stored as 0b00 -/
  | map3to0
  /-- a 20-bit two's complement value limited to plus or minus 2^18 (R246) -/
  | signed18
  deriving DecidableEq, Repr

/-- One field of a register: bits [hi:lo], access type and storage limit. Bits in no field are reserved (R5). -/
structure FieldDef where
  hi : Nat
  lo : Nat
  acc : Access
  lim : Limit
  deriving DecidableEq, Repr

/-- A register, or an array of `count` registers `stride` bytes apart, from offset `base`. -/
structure RegDef where
  base : Nat
  count : Nat
  stride : Nat
  reset : Nat
  fields : List FieldDef
  deriving DecidableEq, Repr

/-- A field's place: byte offset of its register (entry 0 of an array) and its bits. -/
structure FieldRef where
  off : Nat
  hi : Nat
  lo : Nat
  deriving DecidableEq, Repr

/-- The kinds of page of R397. -/
inductive PageKind where
  | mod | pwr | time | timeD | um | stick | jrnl | monx | madc | ilk | fwu | intg | trig | cals | merge | corr | sheaf | glean | dram | dtrain | dintg | lanes | step | lane | tile | tdc | afe | ports | block
  deriving DecidableEq, Repr

namespace Reg.HDR
def PAGE_ID : FieldRef := ⟨0x000, 31, 0⟩
def PAGE_ID_PAGE : FieldRef := ⟨0x000, 31, 16⟩
def PAGE_ID_TYPE : FieldRef := ⟨0x000, 15, 8⟩
def PAGE_ID_INSTANCE : FieldRef := ⟨0x000, 7, 0⟩
def PAGE_REV : FieldRef := ⟨0x004, 31, 0⟩
def PAGE_REV_HDR_REV : FieldRef := ⟨0x004, 31, 24⟩
def PAGE_REV_STEPPING : FieldRef := ⟨0x004, 23, 16⟩
def PAGE_REV_LAYOUT : FieldRef := ⟨0x004, 15, 0⟩
def STATUS : FieldRef := ⟨0x008, 31, 0⟩
def STATUS_PRESENT : FieldRef := ⟨0x008, 31, 31⟩
def STATUS_UNLOCKED : FieldRef := ⟨0x008, 30, 30⟩
def STATUS_SHADOW : FieldRef := ⟨0x008, 29, 29⟩
def STATUS_ERR : FieldRef := ⟨0x008, 28, 28⟩
def CTRL : FieldRef := ⟨0x00C, 31, 0⟩
def CTRL_EVT_ON : FieldRef := ⟨0x00C, 0, 0⟩
def PWR_STATE : FieldRef := ⟨0x010, 31, 0⟩
def PWR_STATE_IDLE_US : FieldRef := ⟨0x010, 27, 16⟩
def PWR_STATE_STATE : FieldRef := ⟨0x010, 9, 8⟩
def PWR_STATE_CEIL : FieldRef := ⟨0x010, 1, 0⟩
def ERR_SUMMARY : FieldRef := ⟨0x014, 31, 0⟩
def ERR_SUMMARY_LOCK_WR : FieldRef := ⟨0x014, 2, 2⟩
def ERR_SUMMARY_OVF : FieldRef := ⟨0x014, 1, 1⟩
def ERR_SUMMARY_EVT : FieldRef := ⟨0x014, 0, 0⟩
def EVT_ENABLE : FieldRef := ⟨0x018, 31, 0⟩
def EVT_PENDING : FieldRef := ⟨0x01C, 31, 0⟩
def COUNTER_OVF : FieldRef := ⟨0x020, 31, 0⟩
def JOURNAL_SEQ : FieldRef := ⟨0x024, 31, 0⟩
def SHADOW_CTRL : FieldRef := ⟨0x028, 31, 0⟩
def SHADOW_CTRL_PENDING : FieldRef := ⟨0x028, 31, 31⟩
def SHADOW_CTRL_COMMITTED : FieldRef := ⟨0x028, 30, 30⟩
def SHADOW_CTRL_DISCARD : FieldRef := ⟨0x028, 0, 0⟩
end Reg.HDR

namespace Reg.MOD
def SERIAL_LO : FieldRef := ⟨0x040, 31, 0⟩
def SERIAL_HI : FieldRef := ⟨0x044, 31, 0⟩
def HW_TYPE : FieldRef := ⟨0x048, 31, 0⟩
def HW_TYPE_TYPE : FieldRef := ⟨0x048, 31, 16⟩
def HW_TYPE_STEPPING : FieldRef := ⟨0x048, 15, 8⟩
def DIES : FieldRef := ⟨0x04C, 31, 0⟩
def DIES_BELFRY : FieldRef := ⟨0x04C, 20, 20⟩
def DIES_STACK_B : FieldRef := ⟨0x04C, 19, 19⟩
def DIES_STACK_A : FieldRef := ⟨0x04C, 18, 18⟩
def DIES_CONC_B : FieldRef := ⟨0x04C, 17, 17⟩
def DIES_CONC_A : FieldRef := ⟨0x04C, 16, 16⟩
def DIES_TILE : FieldRef := ⟨0x04C, 15, 0⟩
def LOCK_REJ_CNT : FieldRef := ⟨0x050, 31, 0⟩
def ADDR_ERR_CNT : FieldRef := ⟨0x054, 31, 0⟩
def OFF_REJ_CNT : FieldRef := ⟨0x058, 31, 0⟩
def CNT_CLR : FieldRef := ⟨0x05C, 31, 0⟩
def CNT_CLR_ALL : FieldRef := ⟨0x05C, 0, 0⟩
end Reg.MOD

namespace Reg.PWR
def STARTUP : FieldRef := ⟨0x040, 31, 0⟩
def STARTUP_STEP : FieldRef := ⟨0x040, 31, 28⟩
def STARTUP_CAUSE : FieldRef := ⟨0x040, 27, 24⟩
def READY_MS : FieldRef := ⟨0x044, 31, 0⟩
def READY_MS_MS : FieldRef := ⟨0x044, 19, 0⟩
def GROUP_CTRL : FieldRef := ⟨0x048, 31, 0⟩
def GROUP_CTRL_SPACING_MS : FieldRef := ⟨0x048, 7, 0⟩
def PG : FieldRef := ⟨0x04C, 31, 0⟩
def PG_BUS : FieldRef := ⟨0x04C, 21, 21⟩
def PG_BELFRY : FieldRef := ⟨0x04C, 20, 20⟩
def PG_STACK_B : FieldRef := ⟨0x04C, 19, 19⟩
def PG_STACK_A : FieldRef := ⟨0x04C, 18, 18⟩
def PG_CONC_B : FieldRef := ⟨0x04C, 17, 17⟩
def PG_CONC_A : FieldRef := ⟨0x04C, 16, 16⟩
def PG_TILE : FieldRef := ⟨0x04C, 15, 0⟩
def CONV_FAULT : FieldRef := ⟨0x050, 31, 0⟩
def CONV_FAULT_BUS : FieldRef := ⟨0x050, 21, 21⟩
def CONV_FAULT_BELFRY : FieldRef := ⟨0x050, 20, 20⟩
def CONV_FAULT_STACK_B : FieldRef := ⟨0x050, 19, 19⟩
def CONV_FAULT_STACK_A : FieldRef := ⟨0x050, 18, 18⟩
def CONV_FAULT_CONC_B : FieldRef := ⟨0x050, 17, 17⟩
def CONV_FAULT_CONC_A : FieldRef := ⟨0x050, 16, 16⟩
def CONV_FAULT_TILE : FieldRef := ⟨0x050, 15, 0⟩
def CONC_HOLD : FieldRef := ⟨0x054, 31, 0⟩
def CONC_HOLD_HOLD_B : FieldRef := ⟨0x054, 1, 1⟩
def CONC_HOLD_HOLD_A : FieldRef := ⟨0x054, 0, 0⟩
def UVLO_CNT : FieldRef := ⟨0x058, 31, 0⟩
def OT_CNT : FieldRef := ⟨0x05C, 31, 0⟩
def FAULT_CNT : FieldRef := ⟨0x060, 31, 0⟩
def CNT_CLR : FieldRef := ⟨0x064, 31, 0⟩
def CNT_CLR_ALL : FieldRef := ⟨0x064, 0, 0⟩
end Reg.PWR

namespace Reg.TIME
def CTRL : FieldRef := ⟨0x040, 31, 0⟩
def CTRL_AUTO_SW : FieldRef := ⟨0x040, 16, 16⟩
def CTRL_ACQ_TIMEOUT : FieldRef := ⟨0x040, 15, 8⟩
def CTRL_CLEAN_BW : FieldRef := ⟨0x040, 1, 0⟩
def TSTAT : FieldRef := ⟨0x044, 31, 0⟩
def TSTAT_ACQ : FieldRef := ⟨0x044, 31, 31⟩
def TSTAT_HOLDOVER : FieldRef := ⟨0x044, 30, 30⟩
def TSTAT_CLEAN_LOCK : FieldRef := ⟨0x044, 29, 29⟩
def TSTAT_SW_PENDING : FieldRef := ⟨0x044, 28, 28⟩
def TSTAT_ACTIVE : FieldRef := ⟨0x044, 8, 8⟩
def TSTAT_TQ : FieldRef := ⟨0x044, 3, 0⟩
def EPOCH_INIT : FieldRef := ⟨0x048, 31, 0⟩
def EPOCH_INIT_FROZEN : FieldRef := ⟨0x048, 16, 16⟩
def EPOCH_INIT_EPOCH : FieldRef := ⟨0x048, 15, 0⟩
def EPOCH : FieldRef := ⟨0x04C, 31, 0⟩
def EPOCH_EPOCH : FieldRef := ⟨0x04C, 15, 0⟩
def SW_CTRL : FieldRef := ⟨0x050, 31, 0⟩
def SW_CTRL_GO : FieldRef := ⟨0x050, 31, 31⟩
def SW_CTRL_TARGET : FieldRef := ⟨0x050, 0, 0⟩
def SW_AT : FieldRef := ⟨0x054, 31, 0⟩
def SPLICE_LO : FieldRef := ⟨0x058, 31, 0⟩
def SPLICE_HI : FieldRef := ⟨0x05C, 31, 0⟩
def SPLICE_HI_HI : FieldRef := ⟨0x05C, 15, 0⟩
def SPL_RATE : FieldRef := ⟨0x060, 31, 0⟩
def SPL_RATE_RATE : FieldRef := ⟨0x060, 19, 0⟩
def SPL_COUNT : FieldRef := ⟨0x064, 31, 0⟩
def AGE_RATE : FieldRef := ⟨0x068, 31, 0⟩
def AGE_RATE_RATE : FieldRef := ⟨0x068, 23, 0⟩
def HOLD_ELAPSED : FieldRef := ⟨0x06C, 31, 0⟩
def CLEAN_STAT : FieldRef := ⟨0x070, 31, 0⟩
def CLEAN_STAT_LOCK : FieldRef := ⟨0x070, 31, 31⟩
def CLEAN_STAT_INPUT : FieldRef := ⟨0x070, 30, 30⟩
def CLEAN_STAT_CTRL_VAL : FieldRef := ⟨0x070, 11, 0⟩
def SNAP : FieldRef := ⟨0x074, 31, 0⟩
def SNAP_GO : FieldRef := ⟨0x074, 0, 0⟩
def SNAP_EPOCH : FieldRef := ⟨0x078, 31, 0⟩
def SNAP_EPOCH_EPOCH : FieldRef := ⟨0x078, 15, 0⟩
def SNAP_COARSE_HI : FieldRef := ⟨0x07C, 31, 0⟩
def SNAP_COARSE_HI_COARSE : FieldRef := ⟨0x07C, 15, 0⟩
def SNAP_COARSE_LO : FieldRef := ⟨0x080, 31, 0⟩
def SNAP_FINE : FieldRef := ⟨0x084, 31, 0⟩
def SNAP_FINE_FINE : FieldRef := ⟨0x084, 31, 20⟩
def SNAP_FINE_FRAC : FieldRef := ⟨0x084, 19, 0⟩
def SW_CNT : FieldRef := ⟨0x088, 31, 0⟩
def AUTO_SW_CNT : FieldRef := ⟨0x08C, 31, 0⟩
def SW_REJ_CNT : FieldRef := ⟨0x090, 31, 0⟩
def HOLD_CNT : FieldRef := ⟨0x094, 31, 0⟩
def CNT_CLR : FieldRef := ⟨0x098, 31, 0⟩
def CNT_CLR_ALL : FieldRef := ⟨0x098, 0, 0⟩
end Reg.TIME

namespace Reg.TIMED
def INC_LO : FieldRef := ⟨0x040, 31, 0⟩
def INC_HI : FieldRef := ⟨0x044, 31, 0⟩
def INC_HI_INC : FieldRef := ⟨0x044, 7, 0⟩
def SLEW_INC_LO : FieldRef := ⟨0x048, 31, 0⟩
def SLEW_INC_HI : FieldRef := ⟨0x04C, 31, 0⟩
def SLEW_INC_HI_INC : FieldRef := ⟨0x04C, 7, 0⟩
def SLEW_CNT : FieldRef := ⟨0x050, 31, 0⟩
def DELAY : FieldRef := ⟨0x054, 31, 0⟩
def DSTAT : FieldRef := ⟨0x058, 31, 0⟩
def DSTAT_PORT_LOCK : FieldRef := ⟨0x058, 31, 31⟩
def DSTAT_ACQUIRED : FieldRef := ⟨0x058, 30, 30⟩
def DSTAT_SLEWING : FieldRef := ⟨0x058, 29, 29⟩
def DSTAT_AGEING : FieldRef := ⟨0x058, 28, 28⟩
def MARK_ERR : FieldRef := ⟨0x05C, 31, 0⟩
def ACC_EPOCH : FieldRef := ⟨0x060, 31, 0⟩
def ACC_EPOCH_EPOCH : FieldRef := ⟨0x060, 15, 0⟩
def ACC_COARSE_HI : FieldRef := ⟨0x064, 31, 0⟩
def ACC_COARSE_HI_COARSE : FieldRef := ⟨0x064, 15, 0⟩
def ACC_COARSE_LO : FieldRef := ⟨0x068, 31, 0⟩
def ACC_FINE : FieldRef := ⟨0x06C, 31, 0⟩
def ACC_FINE_FINE : FieldRef := ⟨0x06C, 31, 20⟩
def ACC_FINE_FRAC : FieldRef := ⟨0x06C, 19, 0⟩
def LOSS_CNT : FieldRef := ⟨0x070, 31, 0⟩
def MARK_BAD_CNT : FieldRef := ⟨0x074, 31, 0⟩
def CNT_CLR : FieldRef := ⟨0x078, 31, 0⟩
def CNT_CLR_ALL : FieldRef := ⟨0x078, 0, 0⟩
end Reg.TIMED

namespace Reg.UM
def TREE : FieldRef := ⟨0x040, 31, 0⟩
def TREE_FIXED : FieldRef := ⟨0x040, 31, 31⟩
def TREE_PART_ID : FieldRef := ⟨0x040, 23, 16⟩
def TREE_TREE_ID : FieldRef := ⟨0x040, 15, 0⟩
def ADDR : FieldRef := ⟨0x044, 31, 0⟩
def ADDR_REG : FieldRef := ⟨0x044, 31, 31⟩
def ADDR_ADDR : FieldRef := ⟨0x044, 11, 0⟩
def DISC : FieldRef := ⟨0x048, 31, 0⟩
def DISC_BO_MAX : FieldRef := ⟨0x048, 11, 8⟩
def DISC_BO_MIN : FieldRef := ⟨0x048, 3, 0⟩
def EQD : FieldRef := ⟨0x04C, 31, 0⟩
def EQD_UI : FieldRef := ⟨0x04C, 15, 0⟩
def PSTAT : FieldRef := ⟨0x050, 31, 0⟩
def PSTAT_LOCK : FieldRef := ⟨0x050, 31, 31⟩
def PSTAT_SYNC : FieldRef := ⟨0x050, 30, 30⟩
def PSTAT_DSTATE : FieldRef := ⟨0x050, 29, 28⟩
def PSTAT_BO : FieldRef := ⟨0x050, 27, 24⟩
def TRUST : FieldRef := ⟨0x054, 31, 0⟩
def TRUST_EN : FieldRef := ⟨0x054, 31, 31⟩
def TRUST_MASTER : FieldRef := ⟨0x054, 7, 0⟩
def FEC_CE_CNT : FieldRef := ⟨0x074, 31, 0⟩
def FEC_UE_CNT : FieldRef := ⟨0x078, 31, 0⟩
def CRC_CNT : FieldRef := ⟨0x07C, 31, 0⟩
def FOREIGN_CNT : FieldRef := ⟨0x080, 31, 0⟩
def UNTRUST_CNT : FieldRef := ⟨0x084, 31, 0⟩
def AUTH_FAIL_CNT : FieldRef := ⟨0x088, 31, 0⟩
def DISC_TRY_CNT : FieldRef := ⟨0x08C, 31, 0⟩
def GRANT_BAD_CNT : FieldRef := ⟨0x090, 31, 0⟩
def CMD_CNT : FieldRef := ⟨0x094, 31, 0⟩
def CNT_CLR : FieldRef := ⟨0x098, 31, 0⟩
def CNT_CLR_ALL : FieldRef := ⟨0x098, 0, 0⟩
end Reg.UM

namespace Reg.STICK
def CTRL : FieldRef := ⟨0x040, 31, 0⟩
def CTRL_MIRROR : FieldRef := ⟨0x040, 1, 1⟩
def CTRL_AUTO : FieldRef := ⟨0x040, 0, 0⟩
def LEASE : FieldRef := ⟨0x044, 31, 0⟩
def LEASE_US : FieldRef := ⟨0x044, 19, 0⟩
def CMD : FieldRef := ⟨0x048, 31, 0⟩
def CMD_GO : FieldRef := ⟨0x048, 31, 31⟩
def CMD_TARGET : FieldRef := ⟨0x048, 4, 4⟩
def CMD_OP : FieldRef := ⟨0x048, 1, 0⟩
def STAT : FieldRef := ⟨0x04C, 31, 0⟩
def STAT_STATE : FieldRef := ⟨0x04C, 31, 30⟩
def STAT_HOLDER : FieldRef := ⟨0x04C, 29, 29⟩
def STAT_TOLL_B : FieldRef := ⟨0x04C, 3, 3⟩
def STAT_TOLL_A : FieldRef := ⟨0x04C, 2, 2⟩
def STAT_ELIG_B : FieldRef := ⟨0x04C, 1, 1⟩
def STAT_ELIG_A : FieldRef := ⟨0x04C, 0, 0⟩
def DEADLINE_LO : FieldRef := ⟨0x050, 31, 0⟩
def DEADLINE_HI : FieldRef := ⟨0x054, 31, 0⟩
def DEADLINE_HI_COARSE : FieldRef := ⟨0x054, 15, 0⟩
def LAST_LAPSE : FieldRef := ⟨0x058, 31, 0⟩
def GRANT_CNT : FieldRef := ⟨0x05C, 31, 0⟩
def REVOKE_CNT : FieldRef := ⟨0x060, 31, 0⟩
def LAPSE_CNT : FieldRef := ⟨0x064, 31, 0⟩
def AUTO_CNT : FieldRef := ⟨0x068, 31, 0⟩
def REFUSE_CNT : FieldRef := ⟨0x06C, 31, 0⟩
def CNT_CLR : FieldRef := ⟨0x070, 31, 0⟩
def CNT_CLR_ALL : FieldRef := ⟨0x070, 0, 0⟩
end Reg.STICK

namespace Reg.JRNL
def HEAD : FieldRef := ⟨0x040, 31, 0⟩
def TAIL : FieldRef := ⟨0x044, 31, 0⟩
def MIRROR_TAIL : FieldRef := ⟨0x048, 31, 0⟩
def SEL : FieldRef := ⟨0x04C, 31, 0⟩
def PEAL_STAT : FieldRef := ⟨0x050, 31, 0⟩
def PEAL_STAT_STATE : FieldRef := ⟨0x050, 31, 30⟩
def PEAL_STAT_MIXED : FieldRef := ⟨0x050, 29, 29⟩
def PEAL_STAT_LAST_RESULT : FieldRef := ⟨0x050, 23, 16⟩
def PEAL_STAT_EPOCH : FieldRef := ⟨0x050, 15, 0⟩
def PEAL_AT : FieldRef := ⟨0x054, 31, 0⟩
def PEAL_CTRL : FieldRef := ⟨0x058, 31, 0⟩
def PEAL_CTRL_MIXED_CLR : FieldRef := ⟨0x058, 0, 0⟩
def AUTH_SEQ : FieldRef := ⟨0x05C, 31, 0⟩
def PEAL_CNT : FieldRef := ⟨0x060, 31, 0⟩
def PEAL_FAIL_CNT : FieldRef := ⟨0x064, 31, 0⟩
def CNT_CLR : FieldRef := ⟨0x068, 31, 0⟩
def CNT_CLR_ALL : FieldRef := ⟨0x068, 0, 0⟩
def ENTRY : FieldRef := ⟨0x800, 31, 0⟩
end Reg.JRNL

namespace Reg.MONX
def CM_WIN : FieldRef := ⟨0x040, 31, 0⟩
def CM_WIN_HI : FieldRef := ⟨0x040, 15, 8⟩
def CM_WIN_LO : FieldRef := ⟨0x040, 7, 0⟩
def BREAK : FieldRef := ⟨0x044, 31, 0⟩
def PIN_OUT : FieldRef := ⟨0x048, 31, 0⟩
def PIN_OUT_PIN : FieldRef := ⟨0x048, 15, 0⟩
def BREAK_CNT : FieldRef := ⟨0x04C, 31, 0⟩
def ILIM_CNT : FieldRef := ⟨0x050, 31, 0⟩
def CNT_CLR : FieldRef := ⟨0x054, 31, 0⟩
def CNT_CLR_ALL : FieldRef := ⟨0x054, 0, 0⟩
def XP : FieldRef := ⟨0x100, 31, 0⟩
def XP_REARM : FieldRef := ⟨0x100, 31, 31⟩
def XP_POS : FieldRef := ⟨0x100, 30, 24⟩
def XP_NEG : FieldRef := ⟨0x100, 20, 16⟩
def XP_EXC_PIN : FieldRef := ⟨0x100, 12, 8⟩
def XP_BIAS_PIN : FieldRef := ⟨0x100, 4, 0⟩
def EXC : FieldRef := ⟨0x180, 31, 0⟩
def EXC_MODE : FieldRef := ⟨0x180, 31, 30⟩
def EXC_LEVEL : FieldRef := ⟨0x180, 23, 16⟩
def EXC_FREQ : FieldRef := ⟨0x180, 14, 8⟩
def EXC_PHASE : FieldRef := ⟨0x180, 7, 0⟩
end Reg.MONX

namespace Reg.MADC
def SEQ_CTRL : FieldRef := ⟨0x040, 31, 0⟩
def SEQ_CTRL_RUNNING : FieldRef := ⟨0x040, 31, 31⟩
def SEQ_CTRL_STOP : FieldRef := ⟨0x040, 17, 17⟩
def SEQ_CTRL_START : FieldRef := ⟨0x040, 16, 16⟩
def SEQ_CTRL_REPEAT : FieldRef := ⟨0x040, 8, 8⟩
def SEQ_CTRL_LAST : FieldRef := ⟨0x040, 4, 0⟩
def SEQ_STAT : FieldRef := ⟨0x044, 31, 0⟩
def SEQ_STAT_BUSY : FieldRef := ⟨0x044, 31, 31⟩
def SEQ_STAT_URGENT : FieldRef := ⟨0x044, 30, 30⟩
def SEQ_STAT_ENTRY : FieldRef := ⟨0x044, 20, 16⟩
def SEQ_STAT_PASS : FieldRef := ⟨0x044, 15, 0⟩
def REF_STAT : FieldRef := ⟨0x048, 31, 0⟩
def REF_STAT_EXT_OK : FieldRef := ⟨0x048, 1, 1⟩
def REF_STAT_INT_OK : FieldRef := ⟨0x048, 0, 0⟩
def TDAC : FieldRef := ⟨0x04C, 31, 0⟩
def TDAC_CODE : FieldRef := ⟨0x04C, 11, 0⟩
def ABORT_CNT : FieldRef := ⟨0x050, 31, 0⟩
def STALE_CNT : FieldRef := ⟨0x054, 31, 0⟩
def OVR_CNT : FieldRef := ⟨0x058, 31, 0⟩
def FAULT_CNT : FieldRef := ⟨0x05C, 31, 0⟩
def CNT_CLR : FieldRef := ⟨0x060, 31, 0⟩
def CNT_CLR_ALL : FieldRef := ⟨0x060, 0, 0⟩
def CONV : FieldRef := ⟨0x100, 31, 0⟩
def CONV_EN : FieldRef := ⟨0x100, 31, 31⟩
def CONV_TEST : FieldRef := ⟨0x100, 30, 30⟩
def CONV_RATE : FieldRef := ⟨0x100, 27, 24⟩
def CONV_GAIN : FieldRef := ⟨0x100, 18, 16⟩
def CONV_REF : FieldRef := ⟨0x100, 13, 12⟩
def CONV_NCONV : FieldRef := ⟨0x100, 3, 0⟩
def RESULT : FieldRef := ⟨0x180, 31, 0⟩
def RESULT_VALUE : FieldRef := ⟨0x180, 31, 8⟩
def RESULT_FAULT : FieldRef := ⟨0x180, 7, 7⟩
def RESULT_STALE : FieldRef := ⟨0x180, 6, 6⟩
def RESULT_OVR : FieldRef := ⟨0x180, 5, 5⟩
def RESULT_TESTED : FieldRef := ⟨0x180, 4, 4⟩
def RESULT_COUNT : FieldRef := ⟨0x180, 3, 0⟩
end Reg.MADC

namespace Reg.ILK
def A_CTRL : FieldRef := ⟨0x040, 31, 0⟩
def A_CTRL_EN : FieldRef := ⟨0x040, 31, 31⟩
def A_CTRL_MODE : FieldRef := ⟨0x040, 30, 30⟩
def A_CTRL_COMB : FieldRef := ⟨0x040, 29, 28⟩
def A_CTRL_HOLD : FieldRef := ⟨0x040, 27, 20⟩
def A_CTRL_SRC1 : FieldRef := ⟨0x040, 19, 15⟩
def A_CTRL_SRC0 : FieldRef := ⟨0x040, 14, 10⟩
def A_CTRL_PERIOD : FieldRef := ⟨0x040, 7, 0⟩
def A_LO : FieldRef := ⟨0x044, 31, 0⟩
def A_LO_VALUE : FieldRef := ⟨0x044, 23, 0⟩
def A_HI : FieldRef := ⟨0x048, 31, 0⟩
def A_HI_VALUE : FieldRef := ⟨0x048, 23, 0⟩
def B_CTRL : FieldRef := ⟨0x04C, 31, 0⟩
def B_CTRL_EN : FieldRef := ⟨0x04C, 31, 31⟩
def B_CTRL_MODE : FieldRef := ⟨0x04C, 30, 30⟩
def B_CTRL_COMB : FieldRef := ⟨0x04C, 29, 28⟩
def B_CTRL_HOLD : FieldRef := ⟨0x04C, 27, 20⟩
def B_CTRL_SRC1 : FieldRef := ⟨0x04C, 19, 15⟩
def B_CTRL_SRC0 : FieldRef := ⟨0x04C, 14, 10⟩
def B_CTRL_PERIOD : FieldRef := ⟨0x04C, 7, 0⟩
def B_LO : FieldRef := ⟨0x050, 31, 0⟩
def B_LO_VALUE : FieldRef := ⟨0x050, 23, 0⟩
def B_HI : FieldRef := ⟨0x054, 31, 0⟩
def B_HI_VALUE : FieldRef := ⟨0x054, 23, 0⟩
def STAT : FieldRef := ⟨0x058, 31, 0⟩
def STAT_A_STATE : FieldRef := ⟨0x058, 31, 30⟩
def STAT_B_STATE : FieldRef := ⟨0x058, 29, 28⟩
def STAT_A_CAUSE : FieldRef := ⟨0x058, 23, 20⟩
def STAT_B_CAUSE : FieldRef := ⟨0x058, 19, 16⟩
def A_OUT : FieldRef := ⟨0x05C, 31, 0⟩
def A_OUT_K : FieldRef := ⟨0x05C, 11, 0⟩
def B_OUT : FieldRef := ⟨0x060, 31, 0⟩
def B_OUT_K : FieldRef := ⟨0x060, 11, 0⟩
def A_FAULT_CNT : FieldRef := ⟨0x064, 31, 0⟩
def B_FAULT_CNT : FieldRef := ⟨0x068, 31, 0⟩
def CNT_CLR : FieldRef := ⟨0x06C, 31, 0⟩
def CNT_CLR_ALL : FieldRef := ⟨0x06C, 0, 0⟩
end Reg.ILK

namespace Reg.FWU
def STAT : FieldRef := ⟨0x040, 31, 0⟩
def STAT_C_STATE : FieldRef := ⟨0x040, 31, 30⟩
def STAT_K_STATE : FieldRef := ⟨0x040, 29, 28⟩
def STAT_XFER : FieldRef := ⟨0x040, 27, 27⟩
def STAT_XFER_CLASS : FieldRef := ⟨0x040, 26, 26⟩
def STAT_K_BAD : FieldRef := ⟨0x040, 25, 25⟩
def STAT_SET_BAD : FieldRef := ⟨0x040, 24, 24⟩
def STAT_STARTS : FieldRef := ⟨0x040, 21, 20⟩
def STAT_TRIAL_RUN : FieldRef := ⟨0x040, 19, 19⟩
def XFER_LEN : FieldRef := ⟨0x044, 31, 0⟩
def XFER_LEN_BYTES : FieldRef := ⟨0x044, 22, 0⟩
def XFER_RCVD : FieldRef := ⟨0x048, 31, 0⟩
def XFER_RCVD_BYTES : FieldRef := ⟨0x048, 22, 0⟩
def C_CUR_VER : FieldRef := ⟨0x04C, 31, 0⟩
def C_PREV_VER : FieldRef := ⟨0x050, 31, 0⟩
def C_STG_VER : FieldRef := ⟨0x054, 31, 0⟩
def K_CUR_VER : FieldRef := ⟨0x058, 31, 0⟩
def K_PREV_VER : FieldRef := ⟨0x05C, 31, 0⟩
def K_STG_VER : FieldRef := ⟨0x060, 31, 0⟩
def MIN_VER : FieldRef := ⟨0x064, 31, 0⟩
def SCHEMA : FieldRef := ⟨0x068, 31, 0⟩
def SCHEMA_OLD : FieldRef := ⟨0x068, 31, 16⟩
def SCHEMA_NEW : FieldRef := ⟨0x068, 15, 0⟩
def LAST_ERR : FieldRef := ⟨0x06C, 31, 0⟩
def LAST_ERR_CMD : FieldRef := ⟨0x06C, 31, 24⟩
def LAST_ERR_RESULT : FieldRef := ⟨0x06C, 23, 16⟩
def LAST_ERR_DETAIL : FieldRef := ⟨0x06C, 7, 0⟩
def LAST_FAIL_VER : FieldRef := ⟨0x070, 31, 0⟩
def LAST_FAIL : FieldRef := ⟨0x074, 31, 0⟩
def LAST_FAIL_VALID : FieldRef := ⟨0x074, 31, 31⟩
def LAST_FAIL_CLASS : FieldRef := ⟨0x074, 30, 30⟩
def LAST_FAIL_CAUSE : FieldRef := ⟨0x074, 7, 0⟩
def XFER_CNT : FieldRef := ⟨0x078, 31, 0⟩
def REJ_CNT : FieldRef := ⟨0x07C, 31, 0⟩
def TRIAL_FAIL_CNT : FieldRef := ⟨0x080, 31, 0⟩
def CNT_CLR : FieldRef := ⟨0x084, 31, 0⟩
def CNT_CLR_ALL : FieldRef := ⟨0x084, 0, 0⟩
end Reg.FWU

namespace Reg.INTG
def CTRL : FieldRef := ⟨0x040, 31, 0⟩
def CTRL_FW_SCRUB : FieldRef := ⟨0x040, 31, 31⟩
def CTRL_TMR_US : FieldRef := ⟨0x040, 27, 16⟩
def CTRL_STICKY_MS : FieldRef := ⟨0x040, 15, 0⟩
def SCRUB_MEM : FieldRef := ⟨0x044, 31, 0⟩
def SCRUB_MEM_MEM : FieldRef := ⟨0x044, 4, 0⟩
def SCRUB_FIRST : FieldRef := ⟨0x048, 31, 0⟩
def SCRUB_FIRST_ADDR : FieldRef := ⟨0x048, 28, 0⟩
def SCRUB_LAST : FieldRef := ⟨0x04C, 31, 0⟩
def SCRUB_LAST_ADDR : FieldRef := ⟨0x04C, 28, 0⟩
def SCRUB_CTRL : FieldRef := ⟨0x050, 31, 0⟩
def SCRUB_CTRL_BUSY : FieldRef := ⟨0x050, 31, 31⟩
def SCRUB_CTRL_DONE : FieldRef := ⟨0x050, 30, 30⟩
def SCRUB_CTRL_ABORTED : FieldRef := ⟨0x050, 29, 29⟩
def SCRUB_CTRL_REJ : FieldRef := ⟨0x050, 28, 28⟩
def SCRUB_CTRL_ABORT : FieldRef := ⟨0x050, 1, 1⟩
def SCRUB_CTRL_GO : FieldRef := ⟨0x050, 0, 0⟩
def SCRUB_WORDS : FieldRef := ⟨0x054, 31, 0⟩
def SCRUB_CORR : FieldRef := ⟨0x058, 31, 0⟩
def SCRUB_UE : FieldRef := ⟨0x05C, 31, 0⟩
def SCRUB_FIRST_FAIL : FieldRef := ⟨0x060, 31, 0⟩
def SCRUB_FIRST_FAIL_VALID : FieldRef := ⟨0x060, 31, 31⟩
def SCRUB_FIRST_FAIL_ADDR : FieldRef := ⟨0x060, 28, 0⟩
def SCRUB_LAST_FAIL : FieldRef := ⟨0x064, 31, 0⟩
def SCRUB_LAST_FAIL_VALID : FieldRef := ⟨0x064, 31, 31⟩
def SCRUB_LAST_FAIL_ADDR : FieldRef := ⟨0x064, 28, 0⟩
def SCRUB_STICKY : FieldRef := ⟨0x068, 31, 0⟩
def SCRUB_STICKY_COUNT : FieldRef := ⟨0x068, 6, 0⟩
def REMAP_STAT : FieldRef := ⟨0x06C, 31, 0⟩
def REMAP_STAT_FAULTS : FieldRef := ⟨0x06C, 30, 24⟩
def REMAP_STAT_BAD : FieldRef := ⟨0x06C, 21, 16⟩
def REMAP_STAT_USED : FieldRef := ⟨0x06C, 5, 0⟩
def FAULT_LOST_CNT : FieldRef := ⟨0x070, 31, 0⟩
def POISON_CNT : FieldRef := ⟨0x074, 31, 0⟩
def FAULT_CLR : FieldRef := ⟨0x080, 31, 0⟩
def FAULT_CLR_CLR : FieldRef := ⟨0x080, 0, 0⟩
def CNT_CLR : FieldRef := ⟨0x084, 31, 0⟩
def CNT_CLR_ALL : FieldRef := ⟨0x084, 0, 0⟩
def REMAP : FieldRef := ⟨0x600, 31, 0⟩
def REMAP_USED : FieldRef := ⟨0x600, 31, 31⟩
def REMAP_BAD : FieldRef := ⟨0x600, 30, 30⟩
def REMAP_ADDR : FieldRef := ⟨0x600, 17, 0⟩
def BKT_LEAK : FieldRef := ⟨0x100, 31, 0⟩
def BKT_LEAK_US : FieldRef := ⟨0x100, 23, 0⟩
def BKT : FieldRef := ⟨0x104, 31, 0⟩
def BKT_THRESH : FieldRef := ⟨0x104, 31, 16⟩
def BKT_LEVEL : FieldRef := ⟨0x104, 15, 0⟩
def CE_CNT : FieldRef := ⟨0x108, 31, 0⟩
def UE_CNT : FieldRef := ⟨0x10C, 31, 0⟩
def FAULT0 : FieldRef := ⟨0x400, 31, 0⟩
def FAULT0_ADDR : FieldRef := ⟨0x400, 28, 0⟩
def FAULT1 : FieldRef := ⟨0x404, 31, 0⟩
def FAULT1_VALID : FieldRef := ⟨0x404, 31, 31⟩
def FAULT1_REMAPPED : FieldRef := ⟨0x404, 30, 30⟩
def FAULT1_BIT : FieldRef := ⟨0x404, 29, 24⟩
def FAULT1_REGION : FieldRef := ⟨0x404, 23, 18⟩
def FAULT1_SPARE : FieldRef := ⟨0x404, 17, 13⟩
def FAULT1_HITS : FieldRef := ⟨0x404, 7, 0⟩
def ST_STAT : FieldRef := ⟨0x078, 31, 0⟩
def ST_STAT_DONE : FieldRef := ⟨0x078, 31, 31⟩
def ST_STAT_BELFRY : FieldRef := ⟨0x078, 18, 18⟩
def ST_STAT_CONC_B : FieldRef := ⟨0x078, 17, 17⟩
def ST_STAT_CONC_A : FieldRef := ⟨0x078, 16, 16⟩
def ST_STAT_TILE : FieldRef := ⟨0x078, 15, 0⟩
def ST_CTRL : FieldRef := ⟨0x07C, 31, 0⟩
def ST_CTRL_TILE_OVR : FieldRef := ⟨0x07C, 15, 0⟩
end Reg.INTG

namespace Reg.TRIG
def TRIG_CTRL : FieldRef := ⟨0x040, 31, 0⟩
def TRIG_CTRL_B_GLEAN : FieldRef := ⟨0x040, 9, 9⟩
def TRIG_CTRL_A_GLEAN : FieldRef := ⟨0x040, 8, 8⟩
def TRIG_CTRL_B_EDGE : FieldRef := ⟨0x040, 5, 5⟩
def TRIG_CTRL_A_EDGE : FieldRef := ⟨0x040, 4, 4⟩
def TRIG_CTRL_B_EN : FieldRef := ⟨0x040, 1, 1⟩
def TRIG_CTRL_A_EN : FieldRef := ⟨0x040, 0, 0⟩
def PIN_OFS : FieldRef := ⟨0x044, 31, 0⟩
def PIN_OFS_OFS : FieldRef := ⟨0x044, 19, 0⟩
def A_PRE : FieldRef := ⟨0x054, 31, 0⟩
def A_PRE_T_REF : FieldRef := ⟨0x054, 19, 0⟩
def A_POST : FieldRef := ⟨0x058, 31, 0⟩
def A_POST_T_REF : FieldRef := ⟨0x058, 19, 0⟩
def A_REGION : FieldRef := ⟨0x05C, 31, 0⟩
def A_REGION_LEVEL : FieldRef := ⟨0x05C, 18, 16⟩
def A_REGION_PATH : FieldRef := ⟨0x05C, 15, 0⟩
def B_PRE : FieldRef := ⟨0x060, 31, 0⟩
def B_PRE_T_REF : FieldRef := ⟨0x060, 19, 0⟩
def B_POST : FieldRef := ⟨0x064, 31, 0⟩
def B_POST_T_REF : FieldRef := ⟨0x064, 19, 0⟩
def B_REGION : FieldRef := ⟨0x068, 31, 0⟩
def B_REGION_LEVEL : FieldRef := ⟨0x068, 18, 16⟩
def B_REGION_PATH : FieldRef := ⟨0x068, 15, 0⟩
def GATE_CTRL : FieldRef := ⟨0x06C, 31, 0⟩
def GATE_CTRL_MIN_T : FieldRef := ⟨0x06C, 13, 8⟩
def GATE_CTRL_B_POL : FieldRef := ⟨0x06C, 5, 5⟩
def GATE_CTRL_A_POL : FieldRef := ⟨0x06C, 4, 4⟩
def GATE_CTRL_MARK_TIMED : FieldRef := ⟨0x06C, 2, 2⟩
def GATE_CTRL_MARK_B : FieldRef := ⟨0x06C, 1, 1⟩
def GATE_CTRL_MARK_A : FieldRef := ⟨0x06C, 0, 0⟩
def GATE_STATUS : FieldRef := ⟨0x070, 31, 0⟩
def GATE_STATUS_QUEUED : FieldRef := ⟨0x070, 7, 4⟩
def GATE_STATUS_TIMED_OPEN : FieldRef := ⟨0x070, 2, 2⟩
def GATE_STATUS_B_OPEN : FieldRef := ⟨0x070, 1, 1⟩
def GATE_STATUS_A_OPEN : FieldRef := ⟨0x070, 0, 0⟩
def TRIG_NEXT : FieldRef := ⟨0x074, 31, 0⟩
def TRIG_NEXT_NUM : FieldRef := ⟨0x074, 23, 0⟩
def RESEND_FIRST : FieldRef := ⟨0x078, 31, 0⟩
def RESEND_CTRL : FieldRef := ⟨0x07C, 31, 0⟩
def RESEND_CTRL_GO : FieldRef := ⟨0x07C, 16, 16⟩
def RESEND_CTRL_COUNT : FieldRef := ⟨0x07C, 15, 0⟩
def A_CNT : FieldRef := ⟨0x080, 31, 0⟩
def B_CNT : FieldRef := ⟨0x084, 31, 0⟩
def CMD_CNT : FieldRef := ⟨0x088, 31, 0⟩
def CLOSE_CNT : FieldRef := ⟨0x08C, 31, 0⟩
def OVER_CNT : FieldRef := ⟨0x090, 31, 0⟩
def TCMD_REJ_CNT : FieldRef := ⟨0x094, 31, 0⟩
def GLITCH_CNT : FieldRef := ⟨0x098, 31, 0⟩
def GCMD_REJ_CNT : FieldRef := ⟨0x09C, 31, 0⟩
def MARK_OVER_CNT : FieldRef := ⟨0x0A0, 31, 0⟩
def CNT_CLR : FieldRef := ⟨0x0A4, 31, 0⟩
def CNT_CLR_ALL : FieldRef := ⟨0x0A4, 0, 0⟩
end Reg.TRIG

namespace Reg.CALS
def CTRL : FieldRef := ⟨0x040, 31, 0⟩
def CTRL_HIST_CONC : FieldRef := ⟨0x040, 9, 8⟩
def CTRL_CD_SHADOW : FieldRef := ⟨0x040, 6, 6⟩
def CTRL_CD_STREAM : FieldRef := ⟨0x040, 5, 5⟩
def CTRL_HOLD : FieldRef := ⟨0x040, 4, 4⟩
def CTRL_AUTO_SWAP : FieldRef := ⟨0x040, 3, 3⟩
def CTRL_FIT_EN : FieldRef := ⟨0x040, 2, 2⟩
def CTRL_CD_EN : FieldRef := ⟨0x040, 1, 1⟩
def CTRL_RING_EN : FieldRef := ⟨0x040, 0, 0⟩
def RING : FieldRef := ⟨0x044, 31, 0⟩
def RING_STEP_LOG : FieldRef := ⟨0x044, 20, 16⟩
def RING_NLEV : FieldRef := ⟨0x044, 13, 12⟩
def RING_SLOT_COARSE : FieldRef := ⟨0x044, 11, 0⟩
def LEVEL : FieldRef := ⟨0x048, 31, 0⟩
def LEVEL_LEVEL : FieldRef := ⟨0x048, 9, 0⟩
def CD_HITS : FieldRef := ⟨0x058, 31, 0⟩
def CD_HITS_HITS : FieldRef := ⟨0x058, 23, 0⟩
def CD_TIMEOUT : FieldRef := ⟨0x05C, 31, 0⟩
def CD_TIMEOUT_SEC : FieldRef := ⟨0x05C, 7, 0⟩
def FIT_LIM : FieldRef := ⟨0x060, 31, 0⟩
def FIT_LIM_INJ_MIN : FieldRef := ⟨0x060, 31, 24⟩
def FIT_LIM_LEV_MIN : FieldRef := ⟨0x060, 23, 16⟩
def FIT_LIM_RMS_LIM : FieldRef := ⟨0x060, 15, 0⟩
def CAL_REF : FieldRef := ⟨0x064, 31, 0⟩
def CAL_REF_REF : FieldRef := ⟨0x064, 23, 0⟩
def SWAP_CTRL : FieldRef := ⟨0x068, 31, 0⟩
def SWAP_CTRL_GO : FieldRef := ⟨0x068, 31, 31⟩
def SWAP_CTRL_TILE : FieldRef := ⟨0x068, 11, 8⟩
def SWAP_CTRL_DELAY : FieldRef := ⟨0x068, 6, 0⟩
def SWAP_STAT : FieldRef := ⟨0x06C, 31, 0⟩
def SWAP_STAT_PENDING : FieldRef := ⟨0x06C, 31, 31⟩
def SWAP_STAT_COMMITTED : FieldRef := ⟨0x06C, 30, 30⟩
def SWAP_STAT_BY_HOST : FieldRef := ⟨0x06C, 29, 29⟩
def SWAP_STAT_READY : FieldRef := ⟨0x06C, 28, 28⟩
def SWAP_STAT_WARM : FieldRef := ⟨0x06C, 27, 27⟩
def SWAP_STAT_WAIT : FieldRef := ⟨0x06C, 26, 26⟩
def SWAP_STAT_TILE : FieldRef := ⟨0x06C, 19, 16⟩
def SWAP_AT : FieldRef := ⟨0x070, 31, 0⟩
def SWAP_CNT : FieldRef := ⟨0x074, 31, 0⟩
def ABORT_CNT : FieldRef := ⟨0x078, 31, 0⟩
def SKIP_CNT : FieldRef := ⟨0x07C, 31, 0⟩
def MISS_CNT : FieldRef := ⟨0x080, 31, 0⟩
def REJ_CNT : FieldRef := ⟨0x084, 31, 0⟩
def BAD_CNT : FieldRef := ⟨0x088, 31, 0⟩
def BAD_CNT_COUNT : FieldRef := ⟨0x088, 16, 0⟩
def SEL : FieldRef := ⟨0x08C, 31, 0⟩
def SEL_DEAD_BLOCK : FieldRef := ⟨0x08C, 23, 16⟩
def SEL_HIST_CHAN : FieldRef := ⟨0x08C, 15, 0⟩
def CDEAD_TOT_LO : FieldRef := ⟨0x090, 31, 0⟩
def CDEAD_TOT_HI : FieldRef := ⟨0x094, 31, 0⟩
def CNT_CLR : FieldRef := ⟨0x098, 31, 0⟩
def CNT_CLR_CDEAD : FieldRef := ⟨0x098, 1, 1⟩
def CNT_CLR_ALL : FieldRef := ⟨0x098, 0, 0⟩
def HIST : FieldRef := ⟨0x400, 31, 0⟩
def HIST_BIN_HI : FieldRef := ⟨0x400, 31, 16⟩
def HIST_BIN_LO : FieldRef := ⟨0x400, 15, 0⟩
def TAPHIST : FieldRef := ⟨0x600, 31, 0⟩
def CDEAD : FieldRef := ⟨0x800, 31, 0⟩
def CH_CAL : FieldRef := ⟨0xC00, 31, 0⟩
def CH_CAL_BAD : FieldRef := ⟨0xC00, 31, 31⟩
def CH_CAL_FAILS : FieldRef := ⟨0xC00, 30, 28⟩
def CH_CAL_FIT_EPOCH : FieldRef := ⟨0xC00, 15, 0⟩
end Reg.CALS

namespace Reg.MERGE
def HORIZON : FieldRef := ⟨0x040, 31, 0⟩
def HORIZON_FRAMES : FieldRef := ⟨0x040, 6, 0⟩
def PRESENT : FieldRef := ⟨0x044, 31, 0⟩
def PRESENT_BEHIND : FieldRef := ⟨0x044, 31, 16⟩
def PRESENT_MASK : FieldRef := ⟨0x044, 15, 0⟩
def LAST_SHEAF : FieldRef := ⟨0x048, 31, 0⟩
def LAG : FieldRef := ⟨0x04C, 31, 0⟩
def LAG_FRAMES : FieldRef := ⟨0x04C, 6, 0⟩
def LATE_CNT : FieldRef := ⟨0x050, 31, 0⟩
def HORIZON_CNT : FieldRef := ⟨0x054, 31, 0⟩
def RESUME_CNT : FieldRef := ⟨0x058, 31, 0⟩
def GOV_CTRL : FieldRef := ⟨0x05C, 31, 0⟩
def GOV_CTRL_CEIL : FieldRef := ⟨0x05C, 28, 24⟩
def GOV_CTRL_FLOOR : FieldRef := ⟨0x05C, 20, 16⟩
def GOV_CTRL_DOWN_MS : FieldRef := ⟨0x05C, 11, 8⟩
def GOV_CTRL_ENABLE : FieldRef := ⟨0x05C, 0, 0⟩
def GOV_STAT : FieldRef := ⟨0x060, 31, 0⟩
def GOV_STAT_FAST : FieldRef := ⟨0x060, 8, 8⟩
def GOV_STAT_RAIL : FieldRef := ⟨0x060, 4, 0⟩
def SUMM_CTRL : FieldRef := ⟨0x064, 31, 0⟩
def SUMM_CTRL_K : FieldRef := ⟨0x064, 20, 16⟩
def SUMM_CTRL_ENABLE : FieldRef := ⟨0x064, 0, 0⟩
def CNT_CLR : FieldRef := ⟨0x068, 31, 0⟩
def CNT_CLR_ALL : FieldRef := ⟨0x068, 0, 0⟩
def TILE_LATE : FieldRef := ⟨0x080, 31, 0⟩
def SUMM_REGION : FieldRef := ⟨0x0C0, 31, 0⟩
def SUMM_REGION_EN : FieldRef := ⟨0x0C0, 31, 31⟩
def SUMM_REGION_LEVEL : FieldRef := ⟨0x0C0, 8, 8⟩
def SUMM_REGION_TILE : FieldRef := ⟨0x0C0, 7, 4⟩
def SUMM_REGION_BLOCK : FieldRef := ⟨0x0C0, 3, 0⟩
end Reg.MERGE

namespace Reg.CORR
def CORR_SEL : FieldRef := ⟨0x040, 31, 0⟩
def CORR_SEL_VIEW : FieldRef := ⟨0x040, 16, 16⟩
def CORR_SEL_GROUP : FieldRef := ⟨0x040, 9, 0⟩
def STAGE_STATUS : FieldRef := ⟨0x044, 31, 0⟩
def STAGE_STATUS_FULL : FieldRef := ⟨0x044, 31, 31⟩
def STAGE_STATUS_COUNT : FieldRef := ⟨0x044, 12, 0⟩
def STAGE_CLR : FieldRef := ⟨0x048, 31, 0⟩
def STAGE_CLR_CLR : FieldRef := ⟨0x048, 0, 0⟩
def SWAP_EPOCH : FieldRef := ⟨0x04C, 31, 0⟩
def SWAP_EPOCH_EPOCH : FieldRef := ⟨0x04C, 15, 0⟩
def UNCORR_CNT : FieldRef := ⟨0x050, 31, 0⟩
def CLAMP_CNT : FieldRef := ⟨0x054, 31, 0⟩
def STAGE_REJ_CNT : FieldRef := ⟨0x058, 31, 0⟩
def ENTRY : FieldRef := ⟨0x400, 31, 0⟩
end Reg.CORR

namespace Reg.SHEAF
def SPILL_CTRL : FieldRef := ⟨0x040, 31, 0⟩
def SPILL_CTRL_RESUME_PCT : FieldRef := ⟨0x040, 22, 16⟩
def SPILL_CTRL_ENTER_KB : FieldRef := ⟨0x040, 11, 0⟩
def SPILL_STAT : FieldRef := ⟨0x044, 31, 0⟩
def SPILL_STAT_MODE : FieldRef := ⟨0x044, 1, 0⟩
def BACKLOG : FieldRef := ⟨0x048, 31, 0⟩
def BACKLOG_KIB : FieldRef := ⟨0x048, 23, 0⟩
def NEXT_SEND : FieldRef := ⟨0x04C, 31, 0⟩
def SHEAF_CNT : FieldRef := ⟨0x050, 31, 0⟩
def SPILL_CNT : FieldRef := ⟨0x054, 31, 0⟩
def DROP_FRAMES : FieldRef := ⟨0x058, 31, 0⟩
def LATENCY_MAX : FieldRef := ⟨0x05C, 31, 0⟩
def LATENCY_MAX_FRAMES : FieldRef := ⟨0x05C, 15, 0⟩
def CNT_CLR : FieldRef := ⟨0x060, 31, 0⟩
def CNT_CLR_ALL : FieldRef := ⟨0x060, 0, 0⟩
end Reg.SHEAF

namespace Reg.GLEAN
def GLEAN_CTRL : FieldRef := ⟨0x040, 31, 0⟩
def GLEAN_CTRL_ENABLE : FieldRef := ⟨0x040, 0, 0⟩
def QUEUE_STAT : FieldRef := ⟨0x044, 31, 0⟩
def QUEUE_STAT_PEAK : FieldRef := ⟨0x044, 22, 16⟩
def QUEUE_STAT_OUTSTANDING : FieldRef := ⟨0x044, 6, 0⟩
def ACTIVE : FieldRef := ⟨0x048, 31, 0⟩
def ACTIVE_BUSY : FieldRef := ⟨0x048, 31, 31⟩
def ACTIVE_TRIG_NUM : FieldRef := ⟨0x048, 23, 0⟩
def GLEAN_CNT : FieldRef := ⟨0x04C, 31, 0⟩
def REFUSED_CNT : FieldRef := ⟨0x050, 31, 0⟩
def SHORT_CNT : FieldRef := ⟨0x054, 31, 0⟩
def RESEND_SKIP_CNT : FieldRef := ⟨0x058, 31, 0⟩
def RESEND_REJ_CNT : FieldRef := ⟨0x05C, 31, 0⟩
def RESEND_STAT : FieldRef := ⟨0x060, 31, 0⟩
def RESEND_STAT_QUEUED : FieldRef := ⟨0x060, 20, 16⟩
def RESEND_STAT_BUSY : FieldRef := ⟨0x060, 0, 0⟩
def CNT_CLR : FieldRef := ⟨0x064, 31, 0⟩
def CNT_CLR_ACC : FieldRef := ⟨0x064, 1, 1⟩
def CNT_CLR_ALL : FieldRef := ⟨0x064, 0, 0⟩
def DEAD_CAP_LO : FieldRef := ⟨0x068, 31, 0⟩
def DEAD_CAP_HI : FieldRef := ⟨0x06C, 31, 0⟩
def DEAD_GLEAN_LO : FieldRef := ⟨0x070, 31, 0⟩
def DEAD_GLEAN_HI : FieldRef := ⟨0x074, 31, 0⟩
def FRAMES_LO : FieldRef := ⟨0x078, 31, 0⟩
def FRAMES_HI : FieldRef := ⟨0x07C, 31, 0⟩
end Reg.GLEAN

namespace Reg.DRAM
def CTRL : FieldRef := ⟨0x040, 31, 0⟩
def CTRL_DOWN_MS : FieldRef := ⟨0x040, 23, 16⟩
def CTRL_PAGE_IDLE : FieldRef := ⟨0x040, 15, 8⟩
def CTRL_FREQ_PIN : FieldRef := ⟨0x040, 5, 4⟩
def CTRL_FREEZE_UE : FieldRef := ⟨0x040, 0, 0⟩
def AGE : FieldRef := ⟨0x044, 31, 0⟩
def AGE_AGE5 : FieldRef := ⟨0x044, 23, 16⟩
def AGE_AGE4 : FieldRef := ⟨0x044, 15, 8⟩
def AGE_AGE3 : FieldRef := ⟨0x044, 7, 0⟩
def REF_CTRL : FieldRef := ⟨0x048, 31, 0⟩
def REF_CTRL_HOT_C : FieldRef := ⟨0x048, 23, 16⟩
def REF_CTRL_COOL_C : FieldRef := ⟨0x048, 15, 8⟩
def REF_CTRL_HOT_POSTPONE : FieldRef := ⟨0x048, 7, 4⟩
def REF_CTRL_POSTPONE : FieldRef := ⟨0x048, 3, 0⟩
def STAT : FieldRef := ⟨0x04C, 31, 0⟩
def STAT_FROZEN : FieldRef := ⟨0x04C, 31, 31⟩
def STAT_CHANGING : FieldRef := ⟨0x04C, 30, 30⟩
def STAT_FREQ : FieldRef := ⟨0x04C, 29, 28⟩
def STAT_HOT : FieldRef := ⟨0x04C, 27, 27⟩
def TEMP : FieldRef := ⟨0x050, 31, 0⟩
def TEMP_TEMP : FieldRef := ⟨0x050, 9, 0⟩
def RETIRED : FieldRef := ⟨0x054, 31, 0⟩
def RETIRED_R_RET : FieldRef := ⟨0x054, 31, 31⟩
def RETIRED_R_CHAN : FieldRef := ⟨0x054, 27, 24⟩
def RETIRED_S_RET : FieldRef := ⟨0x054, 23, 23⟩
def RETIRED_S_CHAN : FieldRef := ⟨0x054, 19, 16⟩
def REPLAY_CAP : FieldRef := ⟨0x058, 31, 0⟩
def REPLAY_CAP_MIB : FieldRef := ⟨0x058, 15, 0⟩
def SHADOW_CAP : FieldRef := ⟨0x05C, 31, 0⟩
def SHADOW_CAP_MIB : FieldRef := ⟨0x05C, 15, 0⟩
def REPLAY_VALID : FieldRef := ⟨0x060, 31, 0⟩
def REPLAY_OLDEST : FieldRef := ⟨0x064, 31, 0⟩
def SHADOW_VALID : FieldRef := ⟨0x068, 31, 0⟩
def SHADOW_OLDEST : FieldRef := ⟨0x06C, 31, 0⟩
def WBUF : FieldRef := ⟨0x070, 31, 0⟩
def WBUF_S_KIB : FieldRef := ⟨0x070, 26, 16⟩
def WBUF_R_KIB : FieldRef := ⟨0x070, 10, 0⟩
def WBUF_PEAK : FieldRef := ⟨0x074, 31, 0⟩
def WBUF_PEAK_S_KIB : FieldRef := ⟨0x074, 26, 16⟩
def WBUF_PEAK_R_KIB : FieldRef := ⟨0x074, 10, 0⟩
def FREQ_CNT : FieldRef := ⟨0x078, 31, 0⟩
def REF_URGENT_CNT : FieldRef := ⟨0x07C, 31, 0⟩
def HOT_CNT : FieldRef := ⟨0x080, 31, 0⟩
def PROMO_CNT : FieldRef := ⟨0x084, 31, 0⟩
def FREEZE_CNT : FieldRef := ⟨0x088, 31, 0⟩
def UE_POISON_CNT : FieldRef := ⟨0x08C, 31, 0⟩
def RETIRE_SKIP_CNT : FieldRef := ⟨0x090, 31, 0⟩
def CNT_CLR : FieldRef := ⟨0x094, 31, 0⟩
def CNT_CLR_ALL : FieldRef := ⟨0x094, 0, 0⟩
def FREEZE_CTRL : FieldRef := ⟨0x098, 31, 0⟩
def FREEZE_CTRL_RELEASE : FieldRef := ⟨0x098, 0, 0⟩
def FRZ_CAUSE : FieldRef := ⟨0x09C, 31, 0⟩
def FRZ_CAUSE_CAUSE : FieldRef := ⟨0x09C, 31, 30⟩
def FRZ_CAUSE_CLASS : FieldRef := ⟨0x09C, 29, 27⟩
def FRZ_CAUSE_CMD : FieldRef := ⟨0x09C, 26, 24⟩
def FRZ_CAUSE_CHANNEL : FieldRef := ⟨0x09C, 19, 16⟩
def FRZ_CAUSE_BANK : FieldRef := ⟨0x09C, 11, 8⟩
def FRZ_ADDR : FieldRef := ⟨0x0A0, 31, 0⟩
def FRZ_ADDR_ROW : FieldRef := ⟨0x0A0, 31, 16⟩
def FRZ_ADDR_UNIT : FieldRef := ⟨0x0A0, 5, 0⟩
def FRZ_SYND : FieldRef := ⟨0x0A4, 31, 0⟩
def FRZ_SHEAF : FieldRef := ⟨0x0A8, 31, 0⟩
def HOST_ADDR : FieldRef := ⟨0x0AC, 31, 0⟩
def HOST_ADDR_GROUP : FieldRef := ⟨0x0AC, 31, 31⟩
def HOST_ADDR_UNIT : FieldRef := ⟨0x0AC, 28, 0⟩
def HOST_CTRL : FieldRef := ⟨0x0B0, 31, 0⟩
def HOST_CTRL_BUSY : FieldRef := ⟨0x0B0, 31, 31⟩
def HOST_CTRL_POISON : FieldRef := ⟨0x0B0, 30, 30⟩
def HOST_CTRL_READ : FieldRef := ⟨0x0B0, 0, 0⟩
def HOST_DATA : FieldRef := ⟨0x0B4, 31, 0⟩
end Reg.DRAM

namespace Reg.DTRAIN
def TR_CTRL : FieldRef := ⟨0x040, 31, 0⟩
def TR_CTRL_RETIRE_EN : FieldRef := ⟨0x040, 16, 16⟩
def TR_CTRL_TEMP_STEP : FieldRef := ⟨0x040, 11, 8⟩
def TR_CTRL_RETRAIN_MS : FieldRef := ⟨0x040, 7, 0⟩
def TRAIN_STAT : FieldRef := ⟨0x044, 31, 0⟩
def TRAIN_STAT_BUSY : FieldRef := ⟨0x044, 31, 31⟩
def TRAIN_STAT_CHAN : FieldRef := ⟨0x044, 19, 16⟩
def TRAIN_STAT_DEGRADED : FieldRef := ⟨0x044, 15, 0⟩
def TRAIN_CNT : FieldRef := ⟨0x048, 31, 0⟩
def TRAIN_FAIL_CNT : FieldRef := ⟨0x04C, 31, 0⟩
def CNT_CLR : FieldRef := ⟨0x050, 31, 0⟩
def CNT_CLR_ALL : FieldRef := ⟨0x050, 0, 0⟩
def CH_TRAIN : FieldRef := ⟨0x080, 31, 0⟩
def CH_TRAIN_DEGRADED : FieldRef := ⟨0x080, 31, 31⟩
def CH_TRAIN_RETIRED : FieldRef := ⟨0x080, 30, 30⟩
def CH_TRAIN_RD_DLY : FieldRef := ⟨0x080, 23, 16⟩
def CH_TRAIN_WR_DLY : FieldRef := ⟨0x080, 15, 8⟩
def CH_TRAIN_VREF : FieldRef := ⟨0x080, 7, 0⟩
def TSET_F0 : FieldRef := ⟨0x100, 31, 0⟩
def TSET_F1 : FieldRef := ⟨0x140, 31, 0⟩
def TSET_F2 : FieldRef := ⟨0x180, 31, 0⟩
end Reg.DTRAIN

namespace Reg.DINTG
def CTRL : FieldRef := ⟨0x040, 31, 0⟩
def CTRL_STICKY_MS : FieldRef := ⟨0x040, 15, 0⟩
def SCRUB_MEM : FieldRef := ⟨0x044, 31, 0⟩
def SCRUB_MEM_MEM : FieldRef := ⟨0x044, 1, 0⟩
def SCRUB_FIRST : FieldRef := ⟨0x048, 31, 0⟩
def SCRUB_FIRST_ADDR : FieldRef := ⟨0x048, 28, 0⟩
def SCRUB_LAST : FieldRef := ⟨0x04C, 31, 0⟩
def SCRUB_LAST_ADDR : FieldRef := ⟨0x04C, 28, 0⟩
def SCRUB_CTRL : FieldRef := ⟨0x050, 31, 0⟩
def SCRUB_CTRL_BUSY : FieldRef := ⟨0x050, 31, 31⟩
def SCRUB_CTRL_DONE : FieldRef := ⟨0x050, 30, 30⟩
def SCRUB_CTRL_ABORTED : FieldRef := ⟨0x050, 29, 29⟩
def SCRUB_CTRL_REJ : FieldRef := ⟨0x050, 28, 28⟩
def SCRUB_CTRL_ABORT : FieldRef := ⟨0x050, 1, 1⟩
def SCRUB_CTRL_GO : FieldRef := ⟨0x050, 0, 0⟩
def SCRUB_WORDS : FieldRef := ⟨0x054, 31, 0⟩
def SCRUB_CORR : FieldRef := ⟨0x058, 31, 0⟩
def SCRUB_UE : FieldRef := ⟨0x05C, 31, 0⟩
def SCRUB_FIRST_FAIL : FieldRef := ⟨0x060, 31, 0⟩
def SCRUB_FIRST_FAIL_VALID : FieldRef := ⟨0x060, 31, 31⟩
def SCRUB_FIRST_FAIL_ADDR : FieldRef := ⟨0x060, 28, 0⟩
def SCRUB_LAST_FAIL : FieldRef := ⟨0x064, 31, 0⟩
def SCRUB_LAST_FAIL_VALID : FieldRef := ⟨0x064, 31, 31⟩
def SCRUB_LAST_FAIL_ADDR : FieldRef := ⟨0x064, 28, 0⟩
def SCRUB_STICKY : FieldRef := ⟨0x068, 31, 0⟩
def SCRUB_STICKY_COUNT : FieldRef := ⟨0x068, 6, 0⟩
def REMAP_STAT : FieldRef := ⟨0x06C, 31, 0⟩
def REMAP_STAT_FAULTS : FieldRef := ⟨0x06C, 30, 24⟩
def REMAP_STAT_BAD : FieldRef := ⟨0x06C, 21, 16⟩
def REMAP_STAT_USED : FieldRef := ⟨0x06C, 5, 0⟩
def FAULT_LOST_CNT : FieldRef := ⟨0x070, 31, 0⟩
def POISON_CNT : FieldRef := ⟨0x074, 31, 0⟩
def ST_DETAIL : FieldRef := ⟨0x078, 31, 0⟩
def ST_DETAIL_DONE : FieldRef := ⟨0x078, 31, 31⟩
def ST_DETAIL_PASS : FieldRef := ⟨0x078, 23, 0⟩
def FAULT_CLR : FieldRef := ⟨0x07C, 31, 0⟩
def FAULT_CLR_CLR : FieldRef := ⟨0x07C, 0, 0⟩
def CNT_CLR : FieldRef := ⟨0x080, 31, 0⟩
def CNT_CLR_ALL : FieldRef := ⟨0x080, 0, 0⟩
def REMAP : FieldRef := ⟨0x600, 31, 0⟩
def REMAP_USED : FieldRef := ⟨0x600, 31, 31⟩
def REMAP_BAD : FieldRef := ⟨0x600, 30, 30⟩
def REMAP_ADDR : FieldRef := ⟨0x600, 17, 0⟩
def BKT_LEAK : FieldRef := ⟨0x100, 31, 0⟩
def BKT_LEAK_US : FieldRef := ⟨0x100, 23, 0⟩
def BKT : FieldRef := ⟨0x104, 31, 0⟩
def BKT_THRESH : FieldRef := ⟨0x104, 31, 16⟩
def BKT_LEVEL : FieldRef := ⟨0x104, 15, 0⟩
def CE_CNT : FieldRef := ⟨0x108, 31, 0⟩
def UE_CNT : FieldRef := ⟨0x10C, 31, 0⟩
def FAULT0 : FieldRef := ⟨0x400, 31, 0⟩
def FAULT0_ADDR : FieldRef := ⟨0x400, 28, 0⟩
def FAULT1 : FieldRef := ⟨0x404, 31, 0⟩
def FAULT1_VALID : FieldRef := ⟨0x404, 31, 31⟩
def FAULT1_REMAPPED : FieldRef := ⟨0x404, 30, 30⟩
def FAULT1_BIT : FieldRef := ⟨0x404, 29, 24⟩
def FAULT1_REGION : FieldRef := ⟨0x404, 23, 18⟩
def FAULT1_SPARE : FieldRef := ⟨0x404, 17, 13⟩
def FAULT1_HITS : FieldRef := ⟨0x404, 7, 0⟩
end Reg.DINTG

namespace Reg.LANES
def MASK_LO : FieldRef := ⟨0x040, 31, 0⟩
def MASK_HI : FieldRef := ⟨0x044, 31, 0⟩
def ACT_LO : FieldRef := ⟨0x048, 31, 0⟩
def ACT_HI : FieldRef := ⟨0x04C, 31, 0⟩
def CTRL : FieldRef := ⟨0x050, 31, 0⟩
def CTRL_FEC_EN : FieldRef := ⟨0x050, 0, 0⟩
def STAT : FieldRef := ⟨0x054, 31, 0⟩
def STAT_DRIVING : FieldRef := ⟨0x054, 31, 31⟩
def STAT_TABLE_DEFAULT : FieldRef := ⟨0x054, 30, 30⟩
def STAT_BOARD_ID : FieldRef := ⟨0x054, 5, 0⟩
def READY_LO : FieldRef := ⟨0x058, 31, 0⟩
def READY_HI : FieldRef := ⟨0x05C, 31, 0⟩
def FAULT_LO : FieldRef := ⟨0x060, 31, 0⟩
def FAULT_HI : FieldRef := ⟨0x064, 31, 0⟩
def SENT_LO : FieldRef := ⟨0x068, 31, 0⟩
def SENT_HI : FieldRef := ⟨0x06C, 31, 0⟩
def EXIT_CNT : FieldRef := ⟨0x070, 31, 0⟩
def FAULT_CNT : FieldRef := ⟨0x074, 31, 0⟩
def CNT_CLR : FieldRef := ⟨0x078, 31, 0⟩
def CNT_CLR_ALL : FieldRef := ⟨0x078, 0, 0⟩
end Reg.LANES

namespace Reg.STEP
def STEP_CTRL : FieldRef := ⟨0x040, 31, 0⟩
def STEP_CTRL_PARTNER_LIM : FieldRef := ⟨0x040, 15, 8⟩
def STEP_CTRL_RECOVER : FieldRef := ⟨0x040, 7, 0⟩
def STEP_STAT : FieldRef := ⟨0x044, 31, 0⟩
def STEP_STAT_PAIR : FieldRef := ⟨0x044, 31, 30⟩
def STEP_STAT_HOLDER : FieldRef := ⟨0x044, 29, 29⟩
def STEP_STAT_ELIGIBLE : FieldRef := ⟨0x044, 28, 28⟩
def STEP_STAT_H_MERGE : FieldRef := ⟨0x044, 27, 27⟩
def STEP_STAT_H_FREEZE : FieldRef := ⟨0x044, 26, 26⟩
def STEP_STAT_H_LANES : FieldRef := ⟨0x044, 25, 25⟩
def JOIN_AT : FieldRef := ⟨0x048, 31, 0⟩
def VALID_FROM : FieldRef := ⟨0x04C, 31, 0⟩
def TAKE_START : FieldRef := ⟨0x050, 31, 0⟩
def DIV_FIRST : FieldRef := ⟨0x054, 31, 0⟩
def DIGEST_SHEAF : FieldRef := ⟨0x058, 31, 0⟩
def OWN_DIG_LO : FieldRef := ⟨0x05C, 31, 0⟩
def OWN_DIG_HI : FieldRef := ⟨0x060, 31, 0⟩
def PART_DIG_LO : FieldRef := ⟨0x064, 31, 0⟩
def PART_DIG_HI : FieldRef := ⟨0x068, 31, 0⟩
def DIV_CNT : FieldRef := ⟨0x06C, 31, 0⟩
def DIV_EP_CNT : FieldRef := ⟨0x070, 31, 0⟩
def TOLL_MISS_CNT : FieldRef := ⟨0x074, 31, 0⟩
def PARTNER_LOST_CNT : FieldRef := ⟨0x078, 31, 0⟩
def CNT_CLR : FieldRef := ⟨0x07C, 31, 0⟩
def CNT_CLR_ALL : FieldRef := ⟨0x07C, 0, 0⟩
end Reg.STEP

namespace Reg.LANE
def LANE_STAT : FieldRef := ⟨0x040, 31, 0⟩
def LANE_STAT_STATE : FieldRef := ⟨0x040, 31, 29⟩
def LANE_STAT_READY : FieldRef := ⟨0x040, 28, 28⟩
def LANE_STAT_PLL_LOCK : FieldRef := ⟨0x040, 27, 27⟩
def LANE_STAT_FAULT : FieldRef := ⟨0x040, 26, 26⟩
def LANE_STAT_IN_MASK : FieldRef := ⟨0x040, 25, 25⟩
def EQ : FieldRef := ⟨0x044, 31, 0⟩
def EQ_EN : FieldRef := ⟨0x044, 31, 31⟩
def EQ_SWING : FieldRef := ⟨0x044, 27, 24⟩
def EQ_MAIN : FieldRef := ⟨0x044, 21, 16⟩
def EQ_POST : FieldRef := ⟨0x044, 12, 8⟩
def EQ_PRE : FieldRef := ⟨0x044, 3, 0⟩
def EQ_OVR : FieldRef := ⟨0x048, 31, 0⟩
def EQ_OVR_EN : FieldRef := ⟨0x048, 31, 31⟩
def EQ_OVR_SWING : FieldRef := ⟨0x048, 27, 24⟩
def EQ_OVR_MAIN : FieldRef := ⟨0x048, 21, 16⟩
def EQ_OVR_POST : FieldRef := ⟨0x048, 12, 8⟩
def EQ_OVR_PRE : FieldRef := ⟨0x048, 3, 0⟩
def TEST : FieldRef := ⟨0x04C, 31, 0⟩
def TEST_INJ_LOG : FieldRef := ⟨0x04C, 20, 16⟩
def TEST_INJ_ONE : FieldRef := ⟨0x04C, 9, 9⟩
def TEST_INJ_PER : FieldRef := ⟨0x04C, 8, 8⟩
def TEST_PATTERN : FieldRef := ⟨0x04C, 5, 4⟩
def TEST_LOOPBACK : FieldRef := ⟨0x04C, 2, 2⟩
def TEST_CHK_EN : FieldRef := ⟨0x04C, 1, 1⟩
def TEST_GEN_EN : FieldRef := ⟨0x04C, 0, 0⟩
def CHK_STAT : FieldRef := ⟨0x050, 31, 0⟩
def CHK_STAT_LOCKED : FieldRef := ⟨0x050, 31, 31⟩
def BITS_LO : FieldRef := ⟨0x054, 31, 0⟩
def BITS_HI : FieldRef := ⟨0x058, 31, 0⟩
def ERR_CNT : FieldRef := ⟨0x05C, 31, 0⟩
def LOCK_LOST_CNT : FieldRef := ⟨0x060, 31, 0⟩
def TEST_REJ_CNT : FieldRef := ⟨0x064, 31, 0⟩
def CNT_CLR : FieldRef := ⟨0x068, 31, 0⟩
def CNT_CLR_ALL : FieldRef := ⟨0x068, 0, 0⟩
end Reg.LANE

namespace Reg.TILE
def WINNOW : FieldRef := ⟨0x040, 31, 0⟩
def WINNOW_PROMOTE_EN : FieldRef := ⟨0x040, 16, 16⟩
def WINNOW_WINDOW : FieldRef := ⟨0x040, 7, 0⟩
def LAST_FRAME : FieldRef := ⟨0x044, 31, 0⟩
def CHAFF_MASKED : FieldRef := ⟨0x048, 31, 0⟩
def CHAFF_STUCK : FieldRef := ⟨0x04C, 31, 0⟩
def CHAFF_GATEHIGH : FieldRef := ⟨0x050, 31, 0⟩
def CELLQ_CNT : FieldRef := ⟨0x054, 31, 0⟩
def STREAM_CNT : FieldRef := ⟨0x058, 31, 0⟩
def SHADOW_CNT : FieldRef := ⟨0x05C, 31, 0⟩
def PROMOTE_CNT : FieldRef := ⟨0x060, 31, 0⟩
def CALIB_CNT : FieldRef := ⟨0x064, 31, 0⟩
def CNT_CLR : FieldRef := ⟨0x068, 31, 0⟩
def CNT_CLR_ALL : FieldRef := ⟨0x068, 0, 0⟩
end Reg.TILE

namespace Reg.TDC
def DLL_CTRL : FieldRef := ⟨0x040, 31, 0⟩
def DLL_CTRL_RELOCK : FieldRef := ⟨0x040, 8, 8⟩
def DLL_CTRL_LOCK_WIN : FieldRef := ⟨0x040, 7, 4⟩
def DLL_CTRL_ENABLE : FieldRef := ⟨0x040, 0, 0⟩
def LOCK_STATUS : FieldRef := ⟨0x044, 31, 0⟩
def LOCK_STATUS_LOCKED : FieldRef := ⟨0x044, 31, 31⟩
def LOCK_STATUS_ABSENT : FieldRef := ⟨0x044, 30, 30⟩
def LOCK_STATUS_PHASE_ERR : FieldRef := ⟨0x044, 23, 16⟩
def LOCK_STATUS_SAT : FieldRef := ⟨0x044, 12, 12⟩
def LOCK_STATUS_CTRL_VAL : FieldRef := ⟨0x044, 11, 0⟩
def DLL_BIAS : FieldRef := ⟨0x048, 31, 0⟩
def DLL_BIAS_TRIM : FieldRef := ⟨0x048, 15, 0⟩
def NOM_MAP : FieldRef := ⟨0x04C, 31, 0⟩
def NOM_MAP_OFS : FieldRef := ⟨0x04C, 30, 16⟩
def NOM_MAP_GAIN : FieldRef := ⟨0x04C, 15, 0⟩
def FAULT_CNT : FieldRef := ⟨0x050, 31, 0⟩
def FAULT_CNT_UNLOCK_CNT : FieldRef := ⟨0x050, 31, 16⟩
def FAULT_CNT_SLIP_CNT : FieldRef := ⟨0x050, 15, 0⟩
def CLAMP_CNT : FieldRef := ⟨0x054, 31, 0⟩
def TAC_SEL : FieldRef := ⟨0x058, 31, 0⟩
def TAC_SEL_BLOCK : FieldRef := ⟨0x058, 3, 0⟩
def TAP_POS : FieldRef := ⟨0x100, 31, 0⟩
def TAP_POS_POS : FieldRef := ⟨0x100, 15, 0⟩
def TAC_MAP : FieldRef := ⟨0x400, 31, 0⟩
def TAC_MAP_VALID : FieldRef := ⟨0x400, 31, 31⟩
def TAC_MAP_OFS : FieldRef := ⟨0x400, 30, 16⟩
def TAC_MAP_GAIN : FieldRef := ⟨0x400, 15, 0⟩
def BUSY_CNT : FieldRef := ⟨0xC00, 31, 0⟩
def BUSY_CNT_COUNT : FieldRef := ⟨0xC00, 15, 0⟩
end Reg.TDC

namespace Reg.AFE
def GATE_CTRL : FieldRef := ⟨0x040, 31, 0⟩
def GATE_CTRL_SRC : FieldRef := ⟨0x040, 1, 0⟩
def GATE_DELAY : FieldRef := ⟨0x044, 31, 0⟩
def GATE_DELAY_COARSE : FieldRef := ⟨0x044, 17, 6⟩
def GATE_DELAY_TAP : FieldRef := ⟨0x044, 5, 0⟩
def GATE_STATUS : FieldRef := ⟨0x048, 31, 0⟩
def GATE_STATUS_OPEN : FieldRef := ⟨0x048, 0, 0⟩
def LEAK_COMP : FieldRef := ⟨0x04C, 31, 0⟩
def LEAK_COMP_ENABLE : FieldRef := ⟨0x04C, 0, 0⟩
def BIAS : FieldRef := ⟨0x050, 31, 0⟩
end Reg.AFE

namespace Reg.PORTS
def PORT_CTRL : FieldRef := ⟨0x040, 31, 0⟩
def PORT_CTRL_LAG_LIM : FieldRef := ⟨0x040, 22, 16⟩
def PORT_CTRL_SHADOW_HWM : FieldRef := ⟨0x040, 15, 0⟩
def PSTAT : FieldRef := ⟨0x080, 31, 0⟩
def PSTAT_STATE : FieldRef := ⟨0x080, 31, 30⟩
def PSTAT_FILL : FieldRef := ⟨0x080, 16, 0⟩
def PEAK : FieldRef := ⟨0x084, 31, 0⟩
def PEAK_PEAK : FieldRef := ⟨0x084, 16, 0⟩
def CAP_STREAM_CNT : FieldRef := ⟨0x088, 31, 0⟩
def CAP_SHADOW_CNT : FieldRef := ⟨0x08C, 31, 0⟩
def SIDE_DROP_CNT : FieldRef := ⟨0x090, 31, 0⟩
def CUT_CNT : FieldRef := ⟨0x094, 31, 0⟩
def CUT_DISCARD_CNT : FieldRef := ⟨0x098, 31, 0⟩
def LAST_TOKEN : FieldRef := ⟨0x09C, 31, 0⟩
def PORT_CLR : FieldRef := ⟨0x0A0, 31, 0⟩
def PORT_CLR_CLR : FieldRef := ⟨0x0A0, 0, 0⟩
end Reg.PORTS

namespace Reg.BLOCK
def BLK_AFE : FieldRef := ⟨0x040, 31, 0⟩
def BLK_AFE_HYST : FieldRef := ⟨0x040, 19, 16⟩
def BLK_AFE_HOLDOFF : FieldRef := ⟨0x040, 13, 8⟩
def BLK_AFE_TRIM_LSB : FieldRef := ⟨0x040, 5, 4⟩
def BLK_AFE_GAIN : FieldRef := ⟨0x040, 2, 1⟩
def BLK_AFE_POL : FieldRef := ⟨0x040, 0, 0⟩
def BLK_THR : FieldRef := ⟨0x044, 31, 0⟩
def BLK_THR_THR_DAC : FieldRef := ⟨0x044, 9, 0⟩
def STUCK_LIM : FieldRef := ⟨0x048, 31, 0⟩
def STUCK_LIM_LIMIT_US : FieldRef := ⟨0x048, 19, 0⟩
def INJ_DAC : FieldRef := ⟨0x04C, 31, 0⟩
def INJ_DAC_LEVEL : FieldRef := ⟨0x04C, 9, 0⟩
def INJ_CTRL : FieldRef := ⟨0x050, 31, 0⟩
def INJ_CTRL_BUSY : FieldRef := ⟨0x050, 31, 31⟩
def INJ_CTRL_MODE : FieldRef := ⟨0x050, 17, 17⟩
def INJ_CTRL_FIRE : FieldRef := ⟨0x050, 16, 16⟩
def INJ_CTRL_CELLS : FieldRef := ⟨0x050, 15, 0⟩
def INJ_TIME : FieldRef := ⟨0x054, 31, 0⟩
def INJ_TIME_COARSE : FieldRef := ⟨0x054, 17, 6⟩
def INJ_TIME_TAP : FieldRef := ⟨0x054, 5, 0⟩
def CNT_CLR : FieldRef := ⟨0x058, 31, 0⟩
def CNT_CLR_CELL : FieldRef := ⟨0x058, 15, 0⟩
def CH_CFG : FieldRef := ⟨0x400, 31, 0⟩
def CH_CFG_TOT_CUT : FieldRef := ⟨0x400, 31, 26⟩
def CH_CFG_HO_OVR : FieldRef := ⟨0x400, 25, 20⟩
def CH_CFG_HO_OVR_EN : FieldRef := ⟨0x400, 19, 19⟩
def CH_CFG_GAIN_OVR : FieldRef := ⟨0x400, 18, 17⟩
def CH_CFG_GAIN_OVR_EN : FieldRef := ⟨0x400, 16, 16⟩
def CH_CFG_INJ_EN : FieldRef := ⟨0x400, 14, 14⟩
def CH_CFG_SHADOW_ONLY : FieldRef := ⟨0x400, 13, 13⟩
def CH_CFG_MASK : FieldRef := ⟨0x400, 12, 12⟩
def CH_CFG_TRIM : FieldRef := ⟨0x400, 5, 0⟩
def CH_CNT : FieldRef := ⟨0x800, 31, 0⟩
def CH_CNT_PILEUP_CNT : FieldRef := ⟨0x800, 31, 16⟩
def CH_CNT_GATEHIGH_CNT : FieldRef := ⟨0x800, 15, 0⟩
def CH_STAT : FieldRef := ⟨0xC00, 31, 0⟩
def CH_STAT_SMASK : FieldRef := ⟨0xC00, 31, 31⟩
def CH_STAT_HIGH : FieldRef := ⟨0xC00, 30, 30⟩
def CH_STAT_BLANKED : FieldRef := ⟨0xC00, 29, 29⟩
end Reg.BLOCK

/-- Registers of the common header of every page. -/
def regs_hdr : List RegDef := [
  ⟨0x000, 1, 4, 0x00000000, [⟨31, 16, .ro, .none⟩, ⟨15, 8, .ro, .none⟩, ⟨7, 0, .ro, .none⟩]⟩,
  ⟨0x004, 1, 4, 0x01C00001, [⟨31, 24, .ro, .none⟩, ⟨23, 16, .ro, .none⟩, ⟨15, 0, .ro, .none⟩]⟩,
  ⟨0x008, 1, 4, 0x00000000, [⟨31, 31, .ro, .none⟩, ⟨30, 30, .ro, .none⟩, ⟨29, 29, .ro, .none⟩, ⟨28, 28, .ro, .none⟩]⟩,
  ⟨0x00C, 1, 4, 0x00000001, [⟨0, 0, .rw, .none⟩]⟩,
  ⟨0x010, 1, 4, 0x00100000, [⟨27, 16, .rw, (.clamp 1 4095)⟩, ⟨9, 8, .ro, .none⟩, ⟨1, 0, .rw, .none⟩]⟩,
  ⟨0x014, 1, 4, 0x00000000, [⟨2, 2, .rw1c, .none⟩, ⟨1, 1, .ro, .none⟩, ⟨0, 0, .ro, .none⟩]⟩,
  ⟨0x018, 1, 4, 0x00000000, [⟨31, 0, .rw, .none⟩]⟩,
  ⟨0x01C, 1, 4, 0x00000000, [⟨31, 0, .rw1c, .none⟩]⟩,
  ⟨0x020, 1, 4, 0x00000000, [⟨31, 0, .rw1c, .none⟩]⟩,
  ⟨0x024, 1, 4, 0x00000000, [⟨31, 0, .ro, .none⟩]⟩,
  ⟨0x028, 1, 4, 0x00000000, [⟨31, 31, .ro, .none⟩, ⟨30, 30, .ro, .none⟩, ⟨0, 0, .wp, .none⟩]⟩]

/-- Registers of the MOD page. -/
def regs_mod : List RegDef := [
  ⟨0x040, 1, 4, 0x00000000, [⟨31, 0, .ro, .none⟩]⟩,
  ⟨0x044, 1, 4, 0x00000000, [⟨31, 0, .ro, .none⟩]⟩,
  ⟨0x048, 1, 4, 0x4065C000, [⟨31, 16, .ro, .none⟩, ⟨15, 8, .ro, .none⟩]⟩,
  ⟨0x04C, 1, 4, 0x00000000, [⟨20, 20, .ro, .none⟩, ⟨19, 19, .ro, .none⟩, ⟨18, 18, .ro, .none⟩, ⟨17, 17, .ro, .none⟩, ⟨16, 16, .ro, .none⟩, ⟨15, 0, .ro, .none⟩]⟩,
  ⟨0x050, 1, 4, 0x00000000, [⟨31, 0, .ro, .none⟩]⟩,
  ⟨0x054, 1, 4, 0x00000000, [⟨31, 0, .ro, .none⟩]⟩,
  ⟨0x058, 1, 4, 0x00000000, [⟨31, 0, .ro, .none⟩]⟩,
  ⟨0x05C, 1, 4, 0x00000000, [⟨0, 0, .wp, .none⟩]⟩]

/-- Registers of the PWR page. -/
def regs_pwr : List RegDef := [
  ⟨0x040, 1, 4, 0x10000000, [⟨31, 28, .ro, .none⟩, ⟨27, 24, .ro, .none⟩]⟩,
  ⟨0x044, 1, 4, 0x00000000, [⟨19, 0, .ro, .none⟩]⟩,
  ⟨0x048, 1, 4, 0x00000005, [⟨7, 0, .rw, (.clamp 1 255)⟩]⟩,
  ⟨0x04C, 1, 4, 0x00000000, [⟨21, 21, .ro, .none⟩, ⟨20, 20, .ro, .none⟩, ⟨19, 19, .ro, .none⟩, ⟨18, 18, .ro, .none⟩, ⟨17, 17, .ro, .none⟩, ⟨16, 16, .ro, .none⟩, ⟨15, 0, .ro, .none⟩]⟩,
  ⟨0x050, 1, 4, 0x00000000, [⟨21, 21, .rw1c, .none⟩, ⟨20, 20, .rw1c, .none⟩, ⟨19, 19, .rw1c, .none⟩, ⟨18, 18, .rw1c, .none⟩, ⟨17, 17, .rw1c, .none⟩, ⟨16, 16, .rw1c, .none⟩, ⟨15, 0, .rw1c, .none⟩]⟩,
  ⟨0x054, 1, 4, 0x00000000, [⟨1, 1, .rwl, .none⟩, ⟨0, 0, .rwl, .none⟩]⟩,
  ⟨0x058, 1, 4, 0x00000000, [⟨31, 0, .ro, .none⟩]⟩,
  ⟨0x05C, 1, 4, 0x00000000, [⟨31, 0, .ro, .none⟩]⟩,
  ⟨0x060, 1, 4, 0x00000000, [⟨31, 0, .ro, .none⟩]⟩,
  ⟨0x064, 1, 4, 0x00000000, [⟨0, 0, .wp, .none⟩]⟩]

/-- Registers of the TIME page. -/
def regs_time : List RegDef := [
  ⟨0x040, 1, 4, 0x00010A01, [⟨16, 16, .rw, .none⟩, ⟨15, 8, .rw, .none⟩, ⟨1, 0, .rw, (.clamp 0 2)⟩]⟩,
  ⟨0x044, 1, 4, 0x00000003, [⟨31, 31, .ro, .none⟩, ⟨30, 30, .ro, .none⟩, ⟨29, 29, .ro, .none⟩, ⟨28, 28, .ro, .none⟩, ⟨8, 8, .ro, .none⟩, ⟨3, 0, .ro, .none⟩]⟩,
  ⟨0x048, 1, 4, 0x00000000, [⟨16, 16, .ro, .none⟩, ⟨15, 0, .rw, .none⟩]⟩,
  ⟨0x04C, 1, 4, 0x00000000, [⟨15, 0, .ro, .none⟩]⟩,
  ⟨0x050, 1, 4, 0x00000000, [⟨31, 31, .rwl, .none⟩, ⟨0, 0, .rwl, .none⟩]⟩,
  ⟨0x054, 1, 4, 0x00000000, [⟨31, 0, .rwl, .none⟩]⟩,
  ⟨0x058, 1, 4, 0x00000000, [⟨31, 0, .ro, .none⟩]⟩,
  ⟨0x05C, 1, 4, 0x00000000, [⟨15, 0, .ro, .none⟩]⟩,
  ⟨0x060, 1, 4, 0x00000000, [⟨19, 0, .rw, .signed18⟩]⟩,
  ⟨0x064, 1, 4, 0x00000000, [⟨31, 0, .rw, .none⟩]⟩,
  ⟨0x068, 1, 4, 0x00000000, [⟨23, 0, .rw, .none⟩]⟩,
  ⟨0x06C, 1, 4, 0x00000000, [⟨31, 0, .ro, .none⟩]⟩,
  ⟨0x070, 1, 4, 0x00000000, [⟨31, 31, .ro, .none⟩, ⟨30, 30, .ro, .none⟩, ⟨11, 0, .ro, .none⟩]⟩,
  ⟨0x074, 1, 4, 0x00000000, [⟨0, 0, .wp, .none⟩]⟩,
  ⟨0x078, 1, 4, 0x00000000, [⟨15, 0, .ro, .none⟩]⟩,
  ⟨0x07C, 1, 4, 0x00000000, [⟨15, 0, .ro, .none⟩]⟩,
  ⟨0x080, 1, 4, 0x00000000, [⟨31, 0, .ro, .none⟩]⟩,
  ⟨0x084, 1, 4, 0x00000000, [⟨31, 20, .ro, .none⟩, ⟨19, 0, .ro, .none⟩]⟩,
  ⟨0x088, 1, 4, 0x00000000, [⟨31, 0, .ro, .none⟩]⟩,
  ⟨0x08C, 1, 4, 0x00000000, [⟨31, 0, .ro, .none⟩]⟩,
  ⟨0x090, 1, 4, 0x00000000, [⟨31, 0, .ro, .none⟩]⟩,
  ⟨0x094, 1, 4, 0x00000000, [⟨31, 0, .ro, .none⟩]⟩,
  ⟨0x098, 1, 4, 0x00000000, [⟨0, 0, .wp, .none⟩]⟩]

/-- Registers of the TIMED pages. -/
def regs_timeD : List RegDef := [
  ⟨0x040, 1, 4, 0x00000000, [⟨31, 0, .rw, .none⟩]⟩,
  ⟨0x044, 1, 4, 0x00000001, [⟨7, 0, .rw, .none⟩]⟩,
  ⟨0x048, 1, 4, 0x00000000, [⟨31, 0, .rw, .none⟩]⟩,
  ⟨0x04C, 1, 4, 0x00000001, [⟨7, 0, .rw, .none⟩]⟩,
  ⟨0x050, 1, 4, 0x00000000, [⟨31, 0, .rw, .none⟩]⟩,
  ⟨0x054, 1, 4, 0x00000000, [⟨31, 0, .rw, .none⟩]⟩,
  ⟨0x058, 1, 4, 0x00000000, [⟨31, 31, .ro, .none⟩, ⟨30, 30, .ro, .none⟩, ⟨29, 29, .ro, .none⟩, ⟨28, 28, .ro, .none⟩]⟩,
  ⟨0x05C, 1, 4, 0x00000000, [⟨31, 0, .ro, .none⟩]⟩,
  ⟨0x060, 1, 4, 0x00000000, [⟨15, 0, .ro, .none⟩]⟩,
  ⟨0x064, 1, 4, 0x00000000, [⟨15, 0, .ro, .none⟩]⟩,
  ⟨0x068, 1, 4, 0x00000000, [⟨31, 0, .ro, .none⟩]⟩,
  ⟨0x06C, 1, 4, 0x00000000, [⟨31, 20, .ro, .none⟩, ⟨19, 0, .ro, .none⟩]⟩,
  ⟨0x070, 1, 4, 0x00000000, [⟨31, 0, .ro, .none⟩]⟩,
  ⟨0x074, 1, 4, 0x00000000, [⟨31, 0, .ro, .none⟩]⟩,
  ⟨0x078, 1, 4, 0x00000000, [⟨0, 0, .wp, .none⟩]⟩]

/-- Registers of the UM pages. -/
def regs_um : List RegDef := [
  ⟨0x040, 1, 4, 0x00000000, [⟨31, 31, .rwl, .none⟩, ⟨23, 16, .rwl, .none⟩, ⟨15, 0, .rwl, .none⟩]⟩,
  ⟨0x044, 1, 4, 0x00000000, [⟨31, 31, .ro, .none⟩, ⟨11, 0, .ro, .none⟩]⟩,
  ⟨0x048, 1, 4, 0x00000802, [⟨11, 8, .rw, (.clamp 0 8)⟩, ⟨3, 0, .rw, (.clamp 0 8)⟩]⟩,
  ⟨0x04C, 1, 4, 0x00000000, [⟨15, 0, .ro, .none⟩]⟩,
  ⟨0x050, 1, 4, 0x00000000, [⟨31, 31, .ro, .none⟩, ⟨30, 30, .ro, .none⟩, ⟨29, 28, .ro, .none⟩, ⟨27, 24, .ro, .none⟩]⟩,
  ⟨0x054, 8, 4, 0x00000000, [⟨31, 31, .rwl, .none⟩, ⟨7, 0, .rwl, .none⟩]⟩,
  ⟨0x074, 1, 4, 0x00000000, [⟨31, 0, .ro, .none⟩]⟩,
  ⟨0x078, 1, 4, 0x00000000, [⟨31, 0, .ro, .none⟩]⟩,
  ⟨0x07C, 1, 4, 0x00000000, [⟨31, 0, .ro, .none⟩]⟩,
  ⟨0x080, 1, 4, 0x00000000, [⟨31, 0, .ro, .none⟩]⟩,
  ⟨0x084, 1, 4, 0x00000000, [⟨31, 0, .ro, .none⟩]⟩,
  ⟨0x088, 1, 4, 0x00000000, [⟨31, 0, .ro, .none⟩]⟩,
  ⟨0x08C, 1, 4, 0x00000000, [⟨31, 0, .ro, .none⟩]⟩,
  ⟨0x090, 1, 4, 0x00000000, [⟨31, 0, .ro, .none⟩]⟩,
  ⟨0x094, 1, 4, 0x00000000, [⟨31, 0, .ro, .none⟩]⟩,
  ⟨0x098, 1, 4, 0x00000000, [⟨0, 0, .wp, .none⟩]⟩]

/-- Registers of the STICK page. -/
def regs_stick : List RegDef := [
  ⟨0x040, 1, 4, 0x00000003, [⟨1, 1, .rwl, .none⟩, ⟨0, 0, .rwl, .none⟩]⟩,
  ⟨0x044, 1, 4, 0x00002710, [⟨19, 0, .rwl, (.clamp 1000 1000000)⟩]⟩,
  ⟨0x048, 1, 4, 0x00000000, [⟨31, 31, .rwl, .none⟩, ⟨4, 4, .rwl, .none⟩, ⟨1, 0, .rwl, .none⟩]⟩,
  ⟨0x04C, 1, 4, 0x00000000, [⟨31, 30, .ro, .none⟩, ⟨29, 29, .ro, .none⟩, ⟨3, 3, .ro, .none⟩, ⟨2, 2, .ro, .none⟩, ⟨1, 1, .ro, .none⟩, ⟨0, 0, .ro, .none⟩]⟩,
  ⟨0x050, 1, 4, 0x00000000, [⟨31, 0, .ro, .none⟩]⟩,
  ⟨0x054, 1, 4, 0x00000000, [⟨15, 0, .ro, .none⟩]⟩,
  ⟨0x058, 1, 4, 0x00000000, [⟨31, 0, .ro, .none⟩]⟩,
  ⟨0x05C, 1, 4, 0x00000000, [⟨31, 0, .ro, .none⟩]⟩,
  ⟨0x060, 1, 4, 0x00000000, [⟨31, 0, .ro, .none⟩]⟩,
  ⟨0x064, 1, 4, 0x00000000, [⟨31, 0, .ro, .none⟩]⟩,
  ⟨0x068, 1, 4, 0x00000000, [⟨31, 0, .ro, .none⟩]⟩,
  ⟨0x06C, 1, 4, 0x00000000, [⟨31, 0, .ro, .none⟩]⟩,
  ⟨0x070, 1, 4, 0x00000000, [⟨0, 0, .wp, .none⟩]⟩]

/-- Registers of the JRNL page. -/
def regs_jrnl : List RegDef := [
  ⟨0x040, 1, 4, 0x00000000, [⟨31, 0, .ro, .none⟩]⟩,
  ⟨0x044, 1, 4, 0x00000000, [⟨31, 0, .ro, .none⟩]⟩,
  ⟨0x048, 1, 4, 0x00000000, [⟨31, 0, .ro, .none⟩]⟩,
  ⟨0x04C, 1, 4, 0x00000000, [⟨31, 0, .rw, .none⟩]⟩,
  ⟨0x050, 1, 4, 0x20000000, [⟨31, 30, .ro, .none⟩, ⟨29, 29, .ro, .none⟩, ⟨23, 16, .ro, .none⟩, ⟨15, 0, .ro, .none⟩]⟩,
  ⟨0x054, 1, 4, 0x00000000, [⟨31, 0, .ro, .none⟩]⟩,
  ⟨0x058, 1, 4, 0x00000000, [⟨0, 0, .wp, .none⟩]⟩,
  ⟨0x05C, 1, 4, 0x00000000, [⟨31, 0, .ro, .none⟩]⟩,
  ⟨0x060, 1, 4, 0x00000000, [⟨31, 0, .ro, .none⟩]⟩,
  ⟨0x064, 1, 4, 0x00000000, [⟨31, 0, .ro, .none⟩]⟩,
  ⟨0x068, 1, 4, 0x00000000, [⟨0, 0, .wp, .none⟩]⟩,
  ⟨0x800, 512, 4, 0x00000000, [⟨31, 0, .ro, .none⟩]⟩]

/-- Registers of the MONX page. -/
def regs_monx : List RegDef := [
  ⟨0x040, 1, 4, 0x00008C05, [⟨15, 8, .rw, .none⟩, ⟨7, 0, .rw, .none⟩]⟩,
  ⟨0x044, 1, 4, 0x00000000, [⟨31, 0, .rw1c, .none⟩]⟩,
  ⟨0x048, 1, 4, 0x00000000, [⟨15, 0, .ro, .none⟩]⟩,
  ⟨0x04C, 1, 4, 0x00000000, [⟨31, 0, .ro, .none⟩]⟩,
  ⟨0x050, 1, 4, 0x00000000, [⟨31, 0, .ro, .none⟩]⟩,
  ⟨0x054, 1, 4, 0x00000000, [⟨0, 0, .wp, .none⟩]⟩,
  ⟨0x100, 32, 4, 0x51101F1F, [⟨31, 31, .rw, .none⟩, ⟨30, 24, .rw, .none⟩, ⟨20, 16, .rw, .none⟩, ⟨12, 8, .rw, .none⟩, ⟨4, 0, .rw, .none⟩]⟩,
  ⟨0x180, 32, 4, 0x00000A00, [⟨31, 30, .rw, .none⟩, ⟨23, 16, .rw, .none⟩, ⟨14, 8, .rw, (.clamp 10 100)⟩, ⟨7, 0, .rw, .none⟩]⟩]

/-- Registers of the MADC page. -/
def regs_madc : List RegDef := [
  ⟨0x040, 1, 4, 0x0000011F, [⟨31, 31, .ro, .none⟩, ⟨17, 17, .wp, .none⟩, ⟨16, 16, .wp, .none⟩, ⟨8, 8, .rw, .none⟩, ⟨4, 0, .rw, .none⟩]⟩,
  ⟨0x044, 1, 4, 0x00000000, [⟨31, 31, .ro, .none⟩, ⟨30, 30, .ro, .none⟩, ⟨20, 16, .ro, .none⟩, ⟨15, 0, .ro, .none⟩]⟩,
  ⟨0x048, 1, 4, 0x00000000, [⟨1, 1, .ro, .none⟩, ⟨0, 0, .ro, .none⟩]⟩,
  ⟨0x04C, 1, 4, 0x00000000, [⟨11, 0, .rw, .none⟩]⟩,
  ⟨0x050, 1, 4, 0x00000000, [⟨31, 0, .ro, .none⟩]⟩,
  ⟨0x054, 1, 4, 0x00000000, [⟨31, 0, .ro, .none⟩]⟩,
  ⟨0x058, 1, 4, 0x00000000, [⟨31, 0, .ro, .none⟩]⟩,
  ⟨0x05C, 1, 4, 0x00000000, [⟨31, 0, .ro, .none⟩]⟩,
  ⟨0x060, 1, 4, 0x00000000, [⟨0, 0, .wp, .none⟩]⟩,
  ⟨0x100, 32, 4, 0x00000002, [⟨31, 31, .rw, .none⟩, ⟨30, 30, .rw, .none⟩, ⟨27, 24, .rw, .none⟩, ⟨18, 16, .rw, .none⟩, ⟨13, 12, .rw, .map3to0⟩, ⟨3, 0, .rw, .none⟩]⟩,
  ⟨0x180, 32, 4, 0x00000000, [⟨31, 8, .ro, .none⟩, ⟨7, 7, .ro, .none⟩, ⟨6, 6, .ro, .none⟩, ⟨5, 5, .ro, .none⟩, ⟨4, 4, .ro, .none⟩, ⟨3, 0, .ro, .none⟩]⟩]

/-- Registers of the ILK page. -/
def regs_ilk : List RegDef := [
  ⟨0x040, 1, 4, 0x06400064, [⟨31, 31, .rwl, .none⟩, ⟨30, 30, .rwl, .none⟩, ⟨29, 28, .rwl, .map3to0⟩, ⟨27, 20, .rwl, (.clamp 1 100)⟩, ⟨19, 15, .rwl, .none⟩, ⟨14, 10, .rwl, .none⟩, ⟨7, 0, .rwl, (.clamp 1 255)⟩]⟩,
  ⟨0x044, 1, 4, 0x00000000, [⟨23, 0, .rwl, .none⟩]⟩,
  ⟨0x048, 1, 4, 0x007FFFFF, [⟨23, 0, .rwl, .none⟩]⟩,
  ⟨0x04C, 1, 4, 0x06400064, [⟨31, 31, .rwl, .none⟩, ⟨30, 30, .rwl, .none⟩, ⟨29, 28, .rwl, .map3to0⟩, ⟨27, 20, .rwl, (.clamp 1 100)⟩, ⟨19, 15, .rwl, .none⟩, ⟨14, 10, .rwl, .none⟩, ⟨7, 0, .rwl, (.clamp 1 255)⟩]⟩,
  ⟨0x050, 1, 4, 0x00000000, [⟨23, 0, .rwl, .none⟩]⟩,
  ⟨0x054, 1, 4, 0x007FFFFF, [⟨23, 0, .rwl, .none⟩]⟩,
  ⟨0x058, 1, 4, 0x00110000, [⟨31, 30, .ro, .none⟩, ⟨29, 28, .ro, .none⟩, ⟨23, 20, .ro, .none⟩, ⟨19, 16, .ro, .none⟩]⟩,
  ⟨0x05C, 1, 4, 0x00000000, [⟨11, 0, .ro, .none⟩]⟩,
  ⟨0x060, 1, 4, 0x00000000, [⟨11, 0, .ro, .none⟩]⟩,
  ⟨0x064, 1, 4, 0x00000000, [⟨31, 0, .ro, .none⟩]⟩,
  ⟨0x068, 1, 4, 0x00000000, [⟨31, 0, .ro, .none⟩]⟩,
  ⟨0x06C, 1, 4, 0x00000000, [⟨0, 0, .wp, .none⟩]⟩]

/-- Registers of the FWU page. -/
def regs_fwu : List RegDef := [
  ⟨0x040, 1, 4, 0x00000000, [⟨31, 30, .ro, .none⟩, ⟨29, 28, .ro, .none⟩, ⟨27, 27, .ro, .none⟩, ⟨26, 26, .ro, .none⟩, ⟨25, 25, .ro, .none⟩, ⟨24, 24, .ro, .none⟩, ⟨21, 20, .ro, .none⟩, ⟨19, 19, .ro, .none⟩]⟩,
  ⟨0x044, 1, 4, 0x00000000, [⟨22, 0, .ro, .none⟩]⟩,
  ⟨0x048, 1, 4, 0x00000000, [⟨22, 0, .ro, .none⟩]⟩,
  ⟨0x04C, 1, 4, 0x00000000, [⟨31, 0, .ro, .none⟩]⟩,
  ⟨0x050, 1, 4, 0x00000000, [⟨31, 0, .ro, .none⟩]⟩,
  ⟨0x054, 1, 4, 0x00000000, [⟨31, 0, .ro, .none⟩]⟩,
  ⟨0x058, 1, 4, 0x00000000, [⟨31, 0, .ro, .none⟩]⟩,
  ⟨0x05C, 1, 4, 0x00000000, [⟨31, 0, .ro, .none⟩]⟩,
  ⟨0x060, 1, 4, 0x00000000, [⟨31, 0, .ro, .none⟩]⟩,
  ⟨0x064, 1, 4, 0x00000000, [⟨31, 0, .ro, .none⟩]⟩,
  ⟨0x068, 1, 4, 0x00000000, [⟨31, 16, .ro, .none⟩, ⟨15, 0, .ro, .none⟩]⟩,
  ⟨0x06C, 1, 4, 0x00000000, [⟨31, 24, .ro, .none⟩, ⟨23, 16, .ro, .none⟩, ⟨7, 0, .ro, .none⟩]⟩,
  ⟨0x070, 1, 4, 0x00000000, [⟨31, 0, .ro, .none⟩]⟩,
  ⟨0x074, 1, 4, 0x00000000, [⟨31, 31, .ro, .none⟩, ⟨30, 30, .ro, .none⟩, ⟨7, 0, .ro, .none⟩]⟩,
  ⟨0x078, 1, 4, 0x00000000, [⟨31, 0, .ro, .none⟩]⟩,
  ⟨0x07C, 1, 4, 0x00000000, [⟨31, 0, .ro, .none⟩]⟩,
  ⟨0x080, 1, 4, 0x00000000, [⟨31, 0, .ro, .none⟩]⟩,
  ⟨0x084, 1, 4, 0x00000000, [⟨0, 0, .wp, .none⟩]⟩]

/-- Registers of the INTG page. -/
def regs_intg : List RegDef := [
  ⟨0x040, 1, 4, 0x83E803E8, [⟨31, 31, .rw, .none⟩, ⟨27, 16, .rw, (.clamp 16 4095)⟩, ⟨15, 0, .rw, (.clamp 1 65535)⟩]⟩,
  ⟨0x044, 1, 4, 0x00000000, [⟨4, 0, .rw, .none⟩]⟩,
  ⟨0x048, 1, 4, 0x00000000, [⟨28, 0, .rw, .none⟩]⟩,
  ⟨0x04C, 1, 4, 0x00000000, [⟨28, 0, .rw, .none⟩]⟩,
  ⟨0x050, 1, 4, 0x00000000, [⟨31, 31, .ro, .none⟩, ⟨30, 30, .ro, .none⟩, ⟨29, 29, .ro, .none⟩, ⟨28, 28, .ro, .none⟩, ⟨1, 1, .wp, .none⟩, ⟨0, 0, .wp, .none⟩]⟩,
  ⟨0x054, 1, 4, 0x00000000, [⟨31, 0, .ro, .none⟩]⟩,
  ⟨0x058, 1, 4, 0x00000000, [⟨31, 0, .ro, .none⟩]⟩,
  ⟨0x05C, 1, 4, 0x00000000, [⟨31, 0, .ro, .none⟩]⟩,
  ⟨0x060, 1, 4, 0x00000000, [⟨31, 31, .ro, .none⟩, ⟨28, 0, .ro, .none⟩]⟩,
  ⟨0x064, 1, 4, 0x00000000, [⟨31, 31, .ro, .none⟩, ⟨28, 0, .ro, .none⟩]⟩,
  ⟨0x068, 1, 4, 0x00000000, [⟨6, 0, .ro, .none⟩]⟩,
  ⟨0x06C, 1, 4, 0x00000000, [⟨30, 24, .ro, .none⟩, ⟨21, 16, .ro, .none⟩, ⟨5, 0, .ro, .none⟩]⟩,
  ⟨0x070, 1, 4, 0x00000000, [⟨31, 0, .ro, .none⟩]⟩,
  ⟨0x074, 1, 4, 0x00000000, [⟨31, 0, .ro, .none⟩]⟩,
  ⟨0x080, 1, 4, 0x00000000, [⟨0, 0, .wp, .none⟩]⟩,
  ⟨0x084, 1, 4, 0x00000000, [⟨0, 0, .wp, .none⟩]⟩,
  ⟨0x600, 32, 4, 0x00000000, [⟨31, 31, .ro, .none⟩, ⟨30, 30, .ro, .none⟩, ⟨17, 0, .ro, .none⟩]⟩,
  ⟨0x100, 36, 16, 0x00000000, [⟨23, 0, .rw, (.clamp 1 10000000)⟩]⟩,
  ⟨0x104, 36, 16, 0x00000000, [⟨31, 16, .rw, .none⟩, ⟨15, 0, .ro, .none⟩]⟩,
  ⟨0x108, 36, 16, 0x00000000, [⟨31, 0, .ro, .none⟩]⟩,
  ⟨0x10C, 36, 16, 0x00000000, [⟨31, 0, .ro, .none⟩]⟩,
  ⟨0x400, 64, 8, 0x00000000, [⟨28, 0, .ro, .none⟩]⟩,
  ⟨0x404, 64, 8, 0x00000000, [⟨31, 31, .ro, .none⟩, ⟨30, 30, .ro, .none⟩, ⟨29, 24, .ro, .none⟩, ⟨23, 18, .ro, .none⟩, ⟨17, 13, .ro, .none⟩, ⟨7, 0, .ro, .none⟩]⟩,
  ⟨0x078, 1, 4, 0x00000000, [⟨31, 31, .ro, .none⟩, ⟨18, 18, .ro, .none⟩, ⟨17, 17, .ro, .none⟩, ⟨16, 16, .ro, .none⟩, ⟨15, 0, .ro, .none⟩]⟩,
  ⟨0x07C, 1, 4, 0x00000000, [⟨15, 0, .rw, .none⟩]⟩]

/-- Registers of the TRIG page. -/
def regs_trig : List RegDef := [
  ⟨0x040, 1, 4, 0x00000000, [⟨9, 9, .rw, .none⟩, ⟨8, 8, .rw, .none⟩, ⟨5, 5, .rw, .none⟩, ⟨4, 4, .rw, .none⟩, ⟨1, 1, .rw, .none⟩, ⟨0, 0, .rw, .none⟩]⟩,
  ⟨0x044, 4, 4, 0x00000000, [⟨19, 0, .rw, .none⟩]⟩,
  ⟨0x054, 1, 4, 0x00000000, [⟨19, 0, .rw, (.clamp 0 640000)⟩]⟩,
  ⟨0x058, 1, 4, 0x00000000, [⟨19, 0, .rw, (.clamp 0 640000)⟩]⟩,
  ⟨0x05C, 1, 4, 0x00040000, [⟨18, 16, .rw, (.clamp 0 4)⟩, ⟨15, 0, .rw, .none⟩]⟩,
  ⟨0x060, 1, 4, 0x00000000, [⟨19, 0, .rw, (.clamp 0 640000)⟩]⟩,
  ⟨0x064, 1, 4, 0x00000000, [⟨19, 0, .rw, (.clamp 0 640000)⟩]⟩,
  ⟨0x068, 1, 4, 0x00040000, [⟨18, 16, .rw, (.clamp 0 4)⟩, ⟨15, 0, .rw, .none⟩]⟩,
  ⟨0x06C, 1, 4, 0x00000807, [⟨13, 8, .rw, (.clamp 1 63)⟩, ⟨5, 5, .rw, .none⟩, ⟨4, 4, .rw, .none⟩, ⟨2, 2, .rw, .none⟩, ⟨1, 1, .rw, .none⟩, ⟨0, 0, .rw, .none⟩]⟩,
  ⟨0x070, 1, 4, 0x00000003, [⟨7, 4, .ro, .none⟩, ⟨2, 2, .ro, .none⟩, ⟨1, 1, .ro, .none⟩, ⟨0, 0, .ro, .none⟩]⟩,
  ⟨0x074, 1, 4, 0x00000000, [⟨23, 0, .ro, .none⟩]⟩,
  ⟨0x078, 1, 4, 0x00000000, [⟨31, 0, .rw, .none⟩]⟩,
  ⟨0x07C, 1, 4, 0x00000000, [⟨16, 16, .wp, .none⟩, ⟨15, 0, .rw, .none⟩]⟩,
  ⟨0x080, 1, 4, 0x00000000, [⟨31, 0, .ro, .none⟩]⟩,
  ⟨0x084, 1, 4, 0x00000000, [⟨31, 0, .ro, .none⟩]⟩,
  ⟨0x088, 1, 4, 0x00000000, [⟨31, 0, .ro, .none⟩]⟩,
  ⟨0x08C, 1, 4, 0x00000000, [⟨31, 0, .ro, .none⟩]⟩,
  ⟨0x090, 1, 4, 0x00000000, [⟨31, 0, .ro, .none⟩]⟩,
  ⟨0x094, 1, 4, 0x00000000, [⟨31, 0, .ro, .none⟩]⟩,
  ⟨0x098, 1, 4, 0x00000000, [⟨31, 0, .ro, .none⟩]⟩,
  ⟨0x09C, 1, 4, 0x00000000, [⟨31, 0, .ro, .none⟩]⟩,
  ⟨0x0A0, 1, 4, 0x00000000, [⟨31, 0, .ro, .none⟩]⟩,
  ⟨0x0A4, 1, 4, 0x00000000, [⟨0, 0, .wp, .none⟩]⟩]

/-- Registers of the CALS page. -/
def regs_cals : List RegDef := [
  ⟨0x040, 1, 4, 0x0000006F, [⟨9, 8, .rw, .map3to0⟩, ⟨6, 6, .rw, .none⟩, ⟨5, 5, .rw, .none⟩, ⟨4, 4, .rw, .none⟩, ⟨3, 3, .rw, .none⟩, ⟨2, 2, .rw, .none⟩, ⟨1, 1, .rw, .none⟩, ⟨0, 0, .rw, .none⟩]⟩,
  ⟨0x044, 1, 4, 0x00082400, [⟨20, 16, .rw, (.clamp 4 16)⟩, ⟨13, 12, .rw, (.clamp 0 2)⟩, ⟨11, 0, .rw, (.clamp 0 3840)⟩]⟩,
  ⟨0x048, 4, 4, 0x00000000, [⟨9, 0, .rw, .none⟩]⟩,
  ⟨0x058, 1, 4, 0x00010000, [⟨23, 0, .rw, (.clamp 4096 16777215)⟩]⟩,
  ⟨0x05C, 1, 4, 0x0000000A, [⟨7, 0, .rw, (.clamp 1 255)⟩]⟩,
  ⟨0x060, 1, 4, 0x400800D0, [⟨31, 24, .rw, .none⟩, ⟨23, 16, .rw, .none⟩, ⟨15, 0, .rw, .none⟩]⟩,
  ⟨0x064, 1, 4, 0x00000000, [⟨23, 0, .rwl, .none⟩]⟩,
  ⟨0x068, 1, 4, 0x00000004, [⟨31, 31, .wp, .none⟩, ⟨11, 8, .rw, .none⟩, ⟨6, 0, .rw, (.clamp 4 64)⟩]⟩,
  ⟨0x06C, 1, 4, 0x00000000, [⟨31, 31, .ro, .none⟩, ⟨30, 30, .ro, .none⟩, ⟨29, 29, .ro, .none⟩, ⟨28, 28, .ro, .none⟩, ⟨27, 27, .ro, .none⟩, ⟨26, 26, .ro, .none⟩, ⟨19, 16, .ro, .none⟩]⟩,
  ⟨0x070, 1, 4, 0x00000000, [⟨31, 0, .ro, .none⟩]⟩,
  ⟨0x074, 1, 4, 0x00000000, [⟨31, 0, .ro, .none⟩]⟩,
  ⟨0x078, 1, 4, 0x00000000, [⟨31, 0, .ro, .none⟩]⟩,
  ⟨0x07C, 1, 4, 0x00000000, [⟨31, 0, .ro, .none⟩]⟩,
  ⟨0x080, 1, 4, 0x00000000, [⟨31, 0, .ro, .none⟩]⟩,
  ⟨0x084, 1, 4, 0x00000000, [⟨31, 0, .ro, .none⟩]⟩,
  ⟨0x088, 1, 4, 0x00000000, [⟨16, 0, .ro, .none⟩]⟩,
  ⟨0x08C, 1, 4, 0x00000000, [⟨23, 16, .rw, .none⟩, ⟨15, 0, .rw, .none⟩]⟩,
  ⟨0x090, 1, 4, 0x00000000, [⟨31, 0, .ro, .none⟩]⟩,
  ⟨0x094, 1, 4, 0x00000000, [⟨31, 0, .ro, .none⟩]⟩,
  ⟨0x098, 1, 4, 0x00000000, [⟨1, 1, .wp, .none⟩, ⟨0, 0, .wp, .none⟩]⟩,
  ⟨0x400, 128, 4, 0x00000000, [⟨31, 16, .ro, .none⟩, ⟨15, 0, .ro, .none⟩]⟩,
  ⟨0x600, 64, 4, 0x00000000, [⟨31, 0, .ro, .none⟩]⟩,
  ⟨0x800, 256, 4, 0x00000000, [⟨31, 0, .ro, .none⟩]⟩,
  ⟨0xC00, 256, 4, 0x00000000, [⟨31, 31, .rw1c, .none⟩, ⟨30, 28, .ro, .none⟩, ⟨15, 0, .ro, .none⟩]⟩]

/-- Registers of the MERGE page. -/
def regs_merge : List RegDef := [
  ⟨0x040, 1, 4, 0x00000004, [⟨6, 0, .rw, (.clamp 1 64)⟩]⟩,
  ⟨0x044, 1, 4, 0x00000000, [⟨31, 16, .ro, .none⟩, ⟨15, 0, .ro, .none⟩]⟩,
  ⟨0x048, 1, 4, 0x00000000, [⟨31, 0, .ro, .none⟩]⟩,
  ⟨0x04C, 1, 4, 0x00000000, [⟨6, 0, .ro, .none⟩]⟩,
  ⟨0x050, 1, 4, 0x00000000, [⟨31, 0, .ro, .none⟩]⟩,
  ⟨0x054, 1, 4, 0x00000000, [⟨31, 0, .ro, .none⟩]⟩,
  ⟨0x058, 1, 4, 0x00000000, [⟨31, 0, .ro, .none⟩]⟩,
  ⟨0x05C, 1, 4, 0x19000101, [⟨28, 24, .rw, (.clamp 0 25)⟩, ⟨20, 16, .rw, (.clamp 0 25)⟩, ⟨11, 8, .rw, (.clamp 1 15)⟩, ⟨0, 0, .rw, .none⟩]⟩,
  ⟨0x060, 1, 4, 0x00000019, [⟨8, 8, .ro, .none⟩, ⟨4, 0, .ro, .none⟩]⟩,
  ⟨0x064, 1, 4, 0x00080000, [⟨20, 16, .rw, (.clamp 4 16)⟩, ⟨0, 0, .rw, .none⟩]⟩,
  ⟨0x068, 1, 4, 0x00000000, [⟨0, 0, .wp, .none⟩]⟩,
  ⟨0x080, 16, 4, 0x00000000, [⟨31, 0, .ro, .none⟩]⟩,
  ⟨0x0C0, 16, 4, 0x00000000, [⟨31, 31, .rw, .none⟩, ⟨8, 8, .rw, .none⟩, ⟨7, 4, .rw, .none⟩, ⟨3, 0, .rw, .none⟩]⟩]

/-- Registers of the CORR page. -/
def regs_corr : List RegDef := [
  ⟨0x040, 1, 4, 0x00000000, [⟨16, 16, .rw, .none⟩, ⟨9, 0, .rw, .none⟩]⟩,
  ⟨0x044, 1, 4, 0x00000000, [⟨31, 31, .ro, .none⟩, ⟨12, 0, .ro, .none⟩]⟩,
  ⟨0x048, 1, 4, 0x00000000, [⟨0, 0, .wp, .none⟩]⟩,
  ⟨0x04C, 1, 4, 0x00000000, [⟨15, 0, .ro, .none⟩]⟩,
  ⟨0x050, 1, 4, 0x00000000, [⟨31, 0, .ro, .none⟩]⟩,
  ⟨0x054, 1, 4, 0x00000000, [⟨31, 0, .ro, .none⟩]⟩,
  ⟨0x058, 1, 4, 0x00000000, [⟨31, 0, .ro, .none⟩]⟩,
  ⟨0x400, 256, 4, 0x00000000, [⟨31, 0, .rws, .none⟩]⟩]

/-- Registers of the SHEAF page. -/
def regs_sheaf : List RegDef := [
  ⟨0x040, 1, 4, 0x004B0600, [⟨22, 16, .rw, (.clamp 50 95)⟩, ⟨11, 0, .rw, (.clamp 256 2048)⟩]⟩,
  ⟨0x044, 1, 4, 0x00000000, [⟨1, 0, .ro, .none⟩]⟩,
  ⟨0x048, 1, 4, 0x00000000, [⟨23, 0, .ro, .none⟩]⟩,
  ⟨0x04C, 1, 4, 0x00000000, [⟨31, 0, .ro, .none⟩]⟩,
  ⟨0x050, 1, 4, 0x00000000, [⟨31, 0, .ro, .none⟩]⟩,
  ⟨0x054, 1, 4, 0x00000000, [⟨31, 0, .ro, .none⟩]⟩,
  ⟨0x058, 1, 4, 0x00000000, [⟨31, 0, .ro, .none⟩]⟩,
  ⟨0x05C, 1, 4, 0x00000000, [⟨15, 0, .ro, .none⟩]⟩,
  ⟨0x060, 1, 4, 0x00000000, [⟨0, 0, .wp, .none⟩]⟩]

/-- Registers of the GLEAN page. -/
def regs_glean : List RegDef := [
  ⟨0x040, 1, 4, 0x00000001, [⟨0, 0, .rw, .none⟩]⟩,
  ⟨0x044, 1, 4, 0x00000000, [⟨22, 16, .ro, .none⟩, ⟨6, 0, .ro, .none⟩]⟩,
  ⟨0x048, 1, 4, 0x00000000, [⟨31, 31, .ro, .none⟩, ⟨23, 0, .ro, .none⟩]⟩,
  ⟨0x04C, 1, 4, 0x00000000, [⟨31, 0, .ro, .none⟩]⟩,
  ⟨0x050, 1, 4, 0x00000000, [⟨31, 0, .ro, .none⟩]⟩,
  ⟨0x054, 1, 4, 0x00000000, [⟨31, 0, .ro, .none⟩]⟩,
  ⟨0x058, 1, 4, 0x00000000, [⟨31, 0, .ro, .none⟩]⟩,
  ⟨0x05C, 1, 4, 0x00000000, [⟨31, 0, .ro, .none⟩]⟩,
  ⟨0x060, 1, 4, 0x00000000, [⟨20, 16, .ro, .none⟩, ⟨0, 0, .ro, .none⟩]⟩,
  ⟨0x064, 1, 4, 0x00000000, [⟨1, 1, .wp, .none⟩, ⟨0, 0, .wp, .none⟩]⟩,
  ⟨0x068, 1, 4, 0x00000000, [⟨31, 0, .ro, .none⟩]⟩,
  ⟨0x06C, 1, 4, 0x00000000, [⟨31, 0, .ro, .none⟩]⟩,
  ⟨0x070, 1, 4, 0x00000000, [⟨31, 0, .ro, .none⟩]⟩,
  ⟨0x074, 1, 4, 0x00000000, [⟨31, 0, .ro, .none⟩]⟩,
  ⟨0x078, 1, 4, 0x00000000, [⟨31, 0, .ro, .none⟩]⟩,
  ⟨0x07C, 1, 4, 0x00000000, [⟨31, 0, .ro, .none⟩]⟩]

/-- Registers of the DRAM page. -/
def regs_dram : List RegDef := [
  ⟨0x040, 1, 4, 0x00641001, [⟨23, 16, .rw, (.clamp 1 255)⟩, ⟨15, 8, .rw, .none⟩, ⟨5, 4, .rw, .none⟩, ⟨0, 0, .rw, .none⟩]⟩,
  ⟨0x044, 1, 4, 0x00101010, [⟨23, 16, .rw, .none⟩, ⟨15, 8, .rw, .none⟩, ⟨7, 0, .rw, .none⟩]⟩,
  ⟨0x048, 1, 4, 0x00555348, [⟨23, 16, .rw, (.clamp 60 85)⟩, ⟨15, 8, .rw, .none⟩, ⟨7, 4, .rw, (.clamp 0 8)⟩, ⟨3, 0, .rw, (.clamp 0 8)⟩]⟩,
  ⟨0x04C, 1, 4, 0x00000000, [⟨31, 31, .ro, .none⟩, ⟨30, 30, .ro, .none⟩, ⟨29, 28, .ro, .none⟩, ⟨27, 27, .ro, .none⟩]⟩,
  ⟨0x050, 1, 4, 0x00000000, [⟨9, 0, .ro, .none⟩]⟩,
  ⟨0x054, 1, 4, 0x00000000, [⟨31, 31, .ro, .none⟩, ⟨27, 24, .ro, .none⟩, ⟨23, 23, .ro, .none⟩, ⟨19, 16, .ro, .none⟩]⟩,
  ⟨0x058, 1, 4, 0x00003BE0, [⟨15, 0, .ro, .none⟩]⟩,
  ⟨0x05C, 1, 4, 0x000023F0, [⟨15, 0, .ro, .none⟩]⟩,
  ⟨0x060, 1, 4, 0x00000000, [⟨31, 0, .ro, .none⟩]⟩,
  ⟨0x064, 1, 4, 0x00000000, [⟨31, 0, .ro, .none⟩]⟩,
  ⟨0x068, 1, 4, 0x00000000, [⟨31, 0, .ro, .none⟩]⟩,
  ⟨0x06C, 1, 4, 0x00000000, [⟨31, 0, .ro, .none⟩]⟩,
  ⟨0x070, 1, 4, 0x00000000, [⟨26, 16, .ro, .none⟩, ⟨10, 0, .ro, .none⟩]⟩,
  ⟨0x074, 1, 4, 0x00000000, [⟨26, 16, .ro, .none⟩, ⟨10, 0, .ro, .none⟩]⟩,
  ⟨0x078, 1, 4, 0x00000000, [⟨31, 0, .ro, .none⟩]⟩,
  ⟨0x07C, 1, 4, 0x00000000, [⟨31, 0, .ro, .none⟩]⟩,
  ⟨0x080, 1, 4, 0x00000000, [⟨31, 0, .ro, .none⟩]⟩,
  ⟨0x084, 1, 4, 0x00000000, [⟨31, 0, .ro, .none⟩]⟩,
  ⟨0x088, 1, 4, 0x00000000, [⟨31, 0, .ro, .none⟩]⟩,
  ⟨0x08C, 1, 4, 0x00000000, [⟨31, 0, .ro, .none⟩]⟩,
  ⟨0x090, 1, 4, 0x00000000, [⟨31, 0, .ro, .none⟩]⟩,
  ⟨0x094, 1, 4, 0x00000000, [⟨0, 0, .wp, .none⟩]⟩,
  ⟨0x098, 1, 4, 0x00000000, [⟨0, 0, .wp, .none⟩]⟩,
  ⟨0x09C, 1, 4, 0x00000000, [⟨31, 30, .ro, .none⟩, ⟨29, 27, .ro, .none⟩, ⟨26, 24, .ro, .none⟩, ⟨19, 16, .ro, .none⟩, ⟨11, 8, .ro, .none⟩]⟩,
  ⟨0x0A0, 1, 4, 0x00000000, [⟨31, 16, .ro, .none⟩, ⟨5, 0, .ro, .none⟩]⟩,
  ⟨0x0A4, 1, 4, 0x00000000, [⟨31, 0, .ro, .none⟩]⟩,
  ⟨0x0A8, 1, 4, 0x00000000, [⟨31, 0, .ro, .none⟩]⟩,
  ⟨0x0AC, 1, 4, 0x00000000, [⟨31, 31, .rw, .none⟩, ⟨28, 0, .rw, .none⟩]⟩,
  ⟨0x0B0, 1, 4, 0x00000000, [⟨31, 31, .ro, .none⟩, ⟨30, 30, .ro, .none⟩, ⟨0, 0, .wp, .none⟩]⟩,
  ⟨0x0B4, 8, 4, 0x00000000, [⟨31, 0, .ro, .none⟩]⟩]

/-- Registers of the DTRAIN page. -/
def regs_dtrain : List RegDef := [
  ⟨0x040, 1, 4, 0x00010564, [⟨16, 16, .rw, .none⟩, ⟨11, 8, .rw, (.clamp 1 15)⟩, ⟨7, 0, .rw, .none⟩]⟩,
  ⟨0x044, 1, 4, 0x00000000, [⟨31, 31, .ro, .none⟩, ⟨19, 16, .ro, .none⟩, ⟨15, 0, .ro, .none⟩]⟩,
  ⟨0x048, 1, 4, 0x00000000, [⟨31, 0, .ro, .none⟩]⟩,
  ⟨0x04C, 1, 4, 0x00000000, [⟨31, 0, .ro, .none⟩]⟩,
  ⟨0x050, 1, 4, 0x00000000, [⟨0, 0, .wp, .none⟩]⟩,
  ⟨0x080, 16, 4, 0x00000000, [⟨31, 31, .ro, .none⟩, ⟨30, 30, .ro, .none⟩, ⟨23, 16, .ro, .none⟩, ⟨15, 8, .ro, .none⟩, ⟨7, 0, .ro, .none⟩]⟩,
  ⟨0x100, 16, 4, 0x00000000, [⟨31, 0, .rwl, .none⟩]⟩,
  ⟨0x140, 16, 4, 0x00000000, [⟨31, 0, .rwl, .none⟩]⟩,
  ⟨0x180, 16, 4, 0x00000000, [⟨31, 0, .rwl, .none⟩]⟩]

/-- Registers of the DINTG page. -/
def regs_dintg : List RegDef := [
  ⟨0x040, 1, 4, 0x000003E8, [⟨15, 0, .rw, (.clamp 1 65535)⟩]⟩,
  ⟨0x044, 1, 4, 0x00000000, [⟨1, 0, .rw, .none⟩]⟩,
  ⟨0x048, 1, 4, 0x00000000, [⟨28, 0, .rw, .none⟩]⟩,
  ⟨0x04C, 1, 4, 0x00000000, [⟨28, 0, .rw, .none⟩]⟩,
  ⟨0x050, 1, 4, 0x00000000, [⟨31, 31, .ro, .none⟩, ⟨30, 30, .ro, .none⟩, ⟨29, 29, .ro, .none⟩, ⟨28, 28, .ro, .none⟩, ⟨1, 1, .wp, .none⟩, ⟨0, 0, .wp, .none⟩]⟩,
  ⟨0x054, 1, 4, 0x00000000, [⟨31, 0, .ro, .none⟩]⟩,
  ⟨0x058, 1, 4, 0x00000000, [⟨31, 0, .ro, .none⟩]⟩,
  ⟨0x05C, 1, 4, 0x00000000, [⟨31, 0, .ro, .none⟩]⟩,
  ⟨0x060, 1, 4, 0x00000000, [⟨31, 31, .ro, .none⟩, ⟨28, 0, .ro, .none⟩]⟩,
  ⟨0x064, 1, 4, 0x00000000, [⟨31, 31, .ro, .none⟩, ⟨28, 0, .ro, .none⟩]⟩,
  ⟨0x068, 1, 4, 0x00000000, [⟨6, 0, .ro, .none⟩]⟩,
  ⟨0x06C, 1, 4, 0x00000000, [⟨30, 24, .ro, .none⟩, ⟨21, 16, .ro, .none⟩, ⟨5, 0, .ro, .none⟩]⟩,
  ⟨0x070, 1, 4, 0x00000000, [⟨31, 0, .ro, .none⟩]⟩,
  ⟨0x074, 1, 4, 0x00000000, [⟨31, 0, .ro, .none⟩]⟩,
  ⟨0x078, 1, 4, 0x00000000, [⟨31, 31, .ro, .none⟩, ⟨23, 0, .ro, .none⟩]⟩,
  ⟨0x07C, 1, 4, 0x00000000, [⟨0, 0, .wp, .none⟩]⟩,
  ⟨0x080, 1, 4, 0x00000000, [⟨0, 0, .wp, .none⟩]⟩,
  ⟨0x600, 32, 4, 0x00000000, [⟨31, 31, .ro, .none⟩, ⟨30, 30, .ro, .none⟩, ⟨17, 0, .ro, .none⟩]⟩,
  ⟨0x100, 7, 16, 0x00000000, [⟨23, 0, .rw, (.clamp 1 10000000)⟩]⟩,
  ⟨0x180, 16, 16, 0x00000000, [⟨23, 0, .rw, (.clamp 1 10000000)⟩]⟩,
  ⟨0x104, 7, 16, 0x00000000, [⟨31, 16, .rw, .none⟩, ⟨15, 0, .ro, .none⟩]⟩,
  ⟨0x184, 16, 16, 0x00000000, [⟨31, 16, .rw, .none⟩, ⟨15, 0, .ro, .none⟩]⟩,
  ⟨0x108, 7, 16, 0x00000000, [⟨31, 0, .ro, .none⟩]⟩,
  ⟨0x188, 16, 16, 0x00000000, [⟨31, 0, .ro, .none⟩]⟩,
  ⟨0x10C, 7, 16, 0x00000000, [⟨31, 0, .ro, .none⟩]⟩,
  ⟨0x18C, 16, 16, 0x00000000, [⟨31, 0, .ro, .none⟩]⟩,
  ⟨0x400, 64, 8, 0x00000000, [⟨28, 0, .ro, .none⟩]⟩,
  ⟨0x404, 64, 8, 0x00000000, [⟨31, 31, .ro, .none⟩, ⟨30, 30, .ro, .none⟩, ⟨29, 24, .ro, .none⟩, ⟨23, 18, .ro, .none⟩, ⟨17, 13, .ro, .none⟩, ⟨7, 0, .ro, .none⟩]⟩]

/-- Registers of the LANES page. -/
def regs_lanes : List RegDef := [
  ⟨0x040, 1, 4, 0xFFFFFFFF, [⟨31, 0, .rw, .none⟩]⟩,
  ⟨0x044, 1, 4, 0xFFFFFFFF, [⟨31, 0, .rw, .none⟩]⟩,
  ⟨0x048, 1, 4, 0xFFFFFFFF, [⟨31, 0, .ro, .none⟩]⟩,
  ⟨0x04C, 1, 4, 0xFFFFFFFF, [⟨31, 0, .ro, .none⟩]⟩,
  ⟨0x050, 1, 4, 0x00000001, [⟨0, 0, .rw, .none⟩]⟩,
  ⟨0x054, 1, 4, 0x00000000, [⟨31, 31, .ro, .none⟩, ⟨30, 30, .ro, .none⟩, ⟨5, 0, .ro, .none⟩]⟩,
  ⟨0x058, 1, 4, 0x00000000, [⟨31, 0, .ro, .none⟩]⟩,
  ⟨0x05C, 1, 4, 0x00000000, [⟨31, 0, .ro, .none⟩]⟩,
  ⟨0x060, 1, 4, 0x00000000, [⟨31, 0, .ro, .none⟩]⟩,
  ⟨0x064, 1, 4, 0x00000000, [⟨31, 0, .ro, .none⟩]⟩,
  ⟨0x068, 1, 4, 0x00000000, [⟨31, 0, .ro, .none⟩]⟩,
  ⟨0x06C, 1, 4, 0x00000000, [⟨31, 0, .ro, .none⟩]⟩,
  ⟨0x070, 1, 4, 0x00000000, [⟨31, 0, .ro, .none⟩]⟩,
  ⟨0x074, 1, 4, 0x00000000, [⟨31, 0, .ro, .none⟩]⟩,
  ⟨0x078, 1, 4, 0x00000000, [⟨0, 0, .wp, .none⟩]⟩]

/-- Registers of the STEP page. -/
def regs_step : List RegDef := [
  ⟨0x040, 1, 4, 0x00001010, [⟨15, 8, .rw, (.clamp 4 255)⟩, ⟨7, 0, .rw, (.clamp 1 255)⟩]⟩,
  ⟨0x044, 1, 4, 0x00000000, [⟨31, 30, .ro, .none⟩, ⟨29, 29, .ro, .none⟩, ⟨28, 28, .ro, .none⟩, ⟨27, 27, .ro, .none⟩, ⟨26, 26, .ro, .none⟩, ⟨25, 25, .ro, .none⟩]⟩,
  ⟨0x048, 1, 4, 0x00000000, [⟨31, 0, .ro, .none⟩]⟩,
  ⟨0x04C, 1, 4, 0x00000000, [⟨31, 0, .ro, .none⟩]⟩,
  ⟨0x050, 1, 4, 0x00000000, [⟨31, 0, .ro, .none⟩]⟩,
  ⟨0x054, 1, 4, 0x00000000, [⟨31, 0, .ro, .none⟩]⟩,
  ⟨0x058, 1, 4, 0x00000000, [⟨31, 0, .ro, .none⟩]⟩,
  ⟨0x05C, 1, 4, 0x00000000, [⟨31, 0, .ro, .none⟩]⟩,
  ⟨0x060, 1, 4, 0x00000000, [⟨31, 0, .ro, .none⟩]⟩,
  ⟨0x064, 1, 4, 0x00000000, [⟨31, 0, .ro, .none⟩]⟩,
  ⟨0x068, 1, 4, 0x00000000, [⟨31, 0, .ro, .none⟩]⟩,
  ⟨0x06C, 1, 4, 0x00000000, [⟨31, 0, .ro, .none⟩]⟩,
  ⟨0x070, 1, 4, 0x00000000, [⟨31, 0, .ro, .none⟩]⟩,
  ⟨0x074, 1, 4, 0x00000000, [⟨31, 0, .ro, .none⟩]⟩,
  ⟨0x078, 1, 4, 0x00000000, [⟨31, 0, .ro, .none⟩]⟩,
  ⟨0x07C, 1, 4, 0x00000000, [⟨0, 0, .wp, .none⟩]⟩]

/-- Registers of the LANE pages. -/
def regs_lane : List RegDef := [
  ⟨0x040, 1, 4, 0x00000000, [⟨31, 29, .ro, .none⟩, ⟨28, 28, .ro, .none⟩, ⟨27, 27, .ro, .none⟩, ⟨26, 26, .ro, .none⟩, ⟨25, 25, .ro, .none⟩]⟩,
  ⟨0x044, 1, 4, 0x00000000, [⟨31, 31, .ro, .none⟩, ⟨27, 24, .ro, .none⟩, ⟨21, 16, .ro, .none⟩, ⟨12, 8, .ro, .none⟩, ⟨3, 0, .ro, .none⟩]⟩,
  ⟨0x048, 1, 4, 0x00000000, [⟨31, 31, .rw, .none⟩, ⟨27, 24, .rw, .none⟩, ⟨21, 16, .rw, .none⟩, ⟨12, 8, .rw, .none⟩, ⟨3, 0, .rw, .none⟩]⟩,
  ⟨0x04C, 1, 4, 0x00000000, [⟨20, 16, .rw, (.clamp 10 31)⟩, ⟨9, 9, .wp, .none⟩, ⟨8, 8, .rw, .none⟩, ⟨5, 4, .rw, (.clamp 0 2)⟩, ⟨2, 2, .rw, .none⟩, ⟨1, 1, .rw, .none⟩, ⟨0, 0, .rw, .none⟩]⟩,
  ⟨0x050, 1, 4, 0x00000000, [⟨31, 31, .ro, .none⟩]⟩,
  ⟨0x054, 1, 4, 0x00000000, [⟨31, 0, .ro, .none⟩]⟩,
  ⟨0x058, 1, 4, 0x00000000, [⟨31, 0, .ro, .none⟩]⟩,
  ⟨0x05C, 1, 4, 0x00000000, [⟨31, 0, .ro, .none⟩]⟩,
  ⟨0x060, 1, 4, 0x00000000, [⟨31, 0, .ro, .none⟩]⟩,
  ⟨0x064, 1, 4, 0x00000000, [⟨31, 0, .ro, .none⟩]⟩,
  ⟨0x068, 1, 4, 0x00000000, [⟨0, 0, .wp, .none⟩]⟩]

/-- Registers of the TILE page. -/
def regs_tile : List RegDef := [
  ⟨0x040, 1, 4, 0x00000008, [⟨16, 16, .rw, .none⟩, ⟨7, 0, .rw, .none⟩]⟩,
  ⟨0x044, 1, 4, 0x00000000, [⟨31, 0, .ro, .none⟩]⟩,
  ⟨0x048, 1, 4, 0x00000000, [⟨31, 0, .ro, .none⟩]⟩,
  ⟨0x04C, 1, 4, 0x00000000, [⟨31, 0, .ro, .none⟩]⟩,
  ⟨0x050, 1, 4, 0x00000000, [⟨31, 0, .ro, .none⟩]⟩,
  ⟨0x054, 1, 4, 0x00000000, [⟨31, 0, .ro, .none⟩]⟩,
  ⟨0x058, 1, 4, 0x00000000, [⟨31, 0, .ro, .none⟩]⟩,
  ⟨0x05C, 1, 4, 0x00000000, [⟨31, 0, .ro, .none⟩]⟩,
  ⟨0x060, 1, 4, 0x00000000, [⟨31, 0, .ro, .none⟩]⟩,
  ⟨0x064, 1, 4, 0x00000000, [⟨31, 0, .ro, .none⟩]⟩,
  ⟨0x068, 1, 4, 0x00000000, [⟨0, 0, .wp, .none⟩]⟩]

/-- Registers of the TDC page. -/
def regs_tdc : List RegDef := [
  ⟨0x040, 1, 4, 0x00000041, [⟨8, 8, .wp, .none⟩, ⟨7, 4, .rw, (.clamp 1 15)⟩, ⟨0, 0, .rw, .none⟩]⟩,
  ⟨0x044, 1, 4, 0x00000000, [⟨31, 31, .ro, .none⟩, ⟨30, 30, .ro, .none⟩, ⟨23, 16, .ro, .none⟩, ⟨12, 12, .ro, .none⟩, ⟨11, 0, .ro, .none⟩]⟩,
  ⟨0x048, 1, 4, 0x00000000, [⟨15, 0, .rwl, .none⟩]⟩,
  ⟨0x04C, 1, 4, 0x2CCD6666, [⟨30, 16, .rw, .none⟩, ⟨15, 0, .rw, .none⟩]⟩,
  ⟨0x050, 1, 4, 0x00000000, [⟨31, 16, .ro, .none⟩, ⟨15, 0, .ro, .none⟩]⟩,
  ⟨0x054, 1, 4, 0x00000000, [⟨31, 0, .ro, .none⟩]⟩,
  ⟨0x058, 1, 4, 0x00000000, [⟨3, 0, .rw, .none⟩]⟩,
  ⟨0x100, 64, 4, 0x00000000, [⟨15, 0, .rws, .none⟩]⟩,
  ⟨0x400, 256, 4, 0x00000000, [⟨31, 31, .rws, .none⟩, ⟨30, 16, .rws, .none⟩, ⟨15, 0, .rws, .none⟩]⟩,
  ⟨0xC00, 256, 4, 0x00000000, [⟨15, 0, .ro, .none⟩]⟩]

/-- Registers of the AFE page. -/
def regs_afe : List RegDef := [
  ⟨0x040, 1, 4, 0x00000000, [⟨1, 0, .rw, .none⟩]⟩,
  ⟨0x044, 1, 4, 0x00001800, [⟨17, 6, .rw, .none⟩, ⟨5, 0, .rw, .none⟩]⟩,
  ⟨0x048, 1, 4, 0x00000001, [⟨0, 0, .ro, .none⟩]⟩,
  ⟨0x04C, 1, 4, 0x00000001, [⟨0, 0, .rw, .none⟩]⟩,
  ⟨0x050, 12, 4, 0x00000000, [⟨31, 0, .rwl, .none⟩]⟩]

/-- Registers of the PORTS page. -/
def regs_ports : List RegDef := [
  ⟨0x040, 1, 4, 0x0004C000, [⟨22, 16, .rw, (.clamp 1 64)⟩, ⟨15, 0, .rw, .none⟩]⟩,
  ⟨0x080, 2, 64, 0x00000000, [⟨31, 30, .ro, .none⟩, ⟨16, 0, .ro, .none⟩]⟩,
  ⟨0x084, 2, 64, 0x00000000, [⟨16, 0, .ro, .none⟩]⟩,
  ⟨0x088, 2, 64, 0x00000000, [⟨31, 0, .ro, .none⟩]⟩,
  ⟨0x08C, 2, 64, 0x00000000, [⟨31, 0, .ro, .none⟩]⟩,
  ⟨0x090, 2, 64, 0x00000000, [⟨31, 0, .ro, .none⟩]⟩,
  ⟨0x094, 2, 64, 0x00000000, [⟨31, 0, .ro, .none⟩]⟩,
  ⟨0x098, 2, 64, 0x00000000, [⟨31, 0, .ro, .none⟩]⟩,
  ⟨0x09C, 2, 64, 0x00000000, [⟨31, 0, .ro, .none⟩]⟩,
  ⟨0x0A0, 2, 64, 0x00000000, [⟨0, 0, .wp, .none⟩]⟩]

/-- Registers of the BLOCK pages. -/
def regs_block : List RegDef := [
  ⟨0x040, 1, 4, 0x00020726, [⟨19, 16, .rw, .none⟩, ⟨13, 8, .rw, .none⟩, ⟨5, 4, .rw, .none⟩, ⟨2, 1, .rw, .none⟩, ⟨0, 0, .rw, .none⟩]⟩,
  ⟨0x044, 1, 4, 0x000003FF, [⟨9, 0, .rw, .none⟩]⟩,
  ⟨0x048, 1, 4, 0x00002710, [⟨19, 0, .rw, (.clamp 1 1000000)⟩]⟩,
  ⟨0x04C, 1, 4, 0x00000000, [⟨9, 0, .rw, .none⟩]⟩,
  ⟨0x050, 1, 4, 0x00000000, [⟨31, 31, .ro, .none⟩, ⟨17, 17, .rw, .none⟩, ⟨16, 16, .wp, .none⟩, ⟨15, 0, .rw, .none⟩]⟩,
  ⟨0x054, 1, 4, 0x00000000, [⟨17, 6, .rw, .none⟩, ⟨5, 0, .rw, .none⟩]⟩,
  ⟨0x058, 1, 4, 0x00000000, [⟨15, 0, .wp, .none⟩]⟩,
  ⟨0x400, 256, 4, 0x00004000, [⟨31, 26, .rw, .none⟩, ⟨25, 20, .rw, .none⟩, ⟨19, 19, .rw, .none⟩, ⟨18, 17, .rw, .none⟩, ⟨16, 16, .rw, .none⟩, ⟨14, 14, .rw, .none⟩, ⟨13, 13, .rw, .none⟩, ⟨12, 12, .rw, .none⟩, ⟨5, 0, .rw, .none⟩]⟩,
  ⟨0x800, 256, 4, 0x00000000, [⟨31, 16, .ro, .none⟩, ⟨15, 0, .ro, .none⟩]⟩,
  ⟨0xC00, 256, 4, 0x00000000, [⟨31, 31, .rw1c, .none⟩, ⟨30, 30, .ro, .none⟩, ⟨29, 29, .ro, .none⟩]⟩]

/-- The registers of a page kind after its common header (R397). -/
def kindRegs : PageKind → List RegDef
  | .mod => regs_mod | .pwr => regs_pwr | .time => regs_time | .timeD => regs_timeD | .um => regs_um
  | .stick => regs_stick | .jrnl => regs_jrnl | .monx => regs_monx | .madc => regs_madc | .ilk => regs_ilk
  | .fwu => regs_fwu | .intg => regs_intg | .trig => regs_trig | .cals => regs_cals | .merge => regs_merge
  | .corr => regs_corr | .sheaf => regs_sheaf | .glean => regs_glean | .dram => regs_dram | .dtrain => regs_dtrain
  | .dintg => regs_dintg | .lanes => regs_lanes | .step => regs_step | .lane => regs_lane | .tile => regs_tile
  | .tdc => regs_tdc | .afe => regs_afe | .ports => regs_ports | .block => regs_block

/-- PAGE_ID.TYPE of R401. -/
def pageType : PageKind → Nat
  | .mod => 0x01 | .pwr => 0x02 | .time => 0x03 | .timeD => 0x04 | .um => 0x05 | .stick => 0x06 | .jrnl => 0x07
  | .monx => 0x08 | .madc => 0x09 | .ilk => 0x0A | .fwu => 0x0B | .intg => 0x0C | .trig => 0x0D | .cals => 0x0E
  | .merge => 0x20 | .corr => 0x21 | .sheaf => 0x22 | .glean => 0x23 | .dram => 0x24 | .dtrain => 0x25
  | .dintg => 0x26 | .lanes => 0x27 | .step => 0x28 | .lane => 0x29 | .tile => 0x40 | .tdc => 0x41 | .afe => 0x42
  | .ports => 0x43 | .block => 0x44

/-- The pages 0x0000-0x000F of the belfry, in order (R397). -/
def belfryKinds : List PageKind :=
  [.mod, .pwr, .time, .timeD, .timeD, .um, .um, .stick, .jrnl, .monx, .madc, .ilk, .fwu, .intg, .trig, .cals]

/-- The pages 0x0n00-0x0n08 of a concentrator, in order (R397). -/
def concKinds : List PageKind := [.merge, .corr, .sheaf, .glean, .dram, .dtrain, .dintg, .lanes, .step]

/-- The page at the low byte of a concentrator's page number. -/
def concPageKind (lo : Nat) : Option PageKind :=
  if lo < 9 then concKinds[lo]? else if 0x10 ≤ lo ∧ lo < 0x50 then some .lane else none

/-- The page at the low byte of a tile's page number, also of an alias page (R408). -/
def tilePageKind (lo : Nat) : Option PageKind :=
  if lo = 0 then some .tile else if lo = 1 then some .tdc else if lo = 2 then some .afe
  else if lo = 3 then some .ports else if 0x10 ≤ lo ∧ lo < 0x20 then some .block else none

/-- The pages of R397 and no others; the broadcast alias is not a page of its own. -/
def pageKind (p : Nat) : Option PageKind :=
  if p < 0x10 then belfryKinds[p]?
  else if p / 256 = 1 ∨ p / 256 = 2 then concPageKind (p % 256)
  else if p / 4096 = 1 then tilePageKind (p % 256)
  else none

/-- The alias pages 0x2000-0x20FF (R397). An alias of a page no tile has is absent. -/
def aliasKind (p : Nat) : Option PageKind :=
  if p / 256 = 0x20 then tilePageKind (p % 256) else none

/-- INSTANCE of R401. -/
def pageInstance (k : PageKind) (p : Nat) : Nat :=
  match k with
  | .block => p % 16
  | .lane => p % 256 - 16
  | .timeD => p - 3
  | .um => p - 5
  | _ => 0

/-- The primary pages of R402. -/
def primaryKind : PageKind → Bool
  | .mod | .merge | .tile | .block => true
  | _ => false

/-- Does `d` hold a register at offset `off`? -/
def RegDef.covers (d : RegDef) (off : Nat) : Bool :=
  d.base ≤ off && off < d.base + d.count * d.stride && (off - d.base) % d.stride == 0

/-- The register at a byte offset of a page, header included; none at a reserved offset (R398, R399). -/
def regDefAt (k : PageKind) (off : Nat) : Option RegDef :=
  if off < 0x40 then regs_hdr.find? (·.covers off) else (kindRegs k).find? (·.covers off)

/-- The bucket resets of R341 and R343: LEAK_US and THRESH of region r. -/
def bucketReset (k : PageKind) (r : Nat) : Nat × Nat :=
  match k with
  | .intg => if r = 0 then (10000000, 4) else (1000000, 16)
  | _ => if 8 ≤ r then (100000, 64) else if r = 7 then (0, 0) else (1000000, 16)

/-- The reset value of a register (R49, R52, … ; the special ones of R77, R199, R341, R343, R400-R402). Where the
manual writes "per unit" or "persisted" the tables hold 0 (assumption 7). -/
def regResetAt (p : Nat) (k : PageKind) (off : Nat) : Nat :=
  if off = 0 then p * 65536 + pageType k * 256 + pageInstance k p
  else if off = 0x010 then 0x00100000 + (if primaryKind k && k != .tile then 3 else 0)
  else match k with
    | .tdc => if 0x100 ≤ off ∧ off < 0x200 then 0x200 * ((off - 0x100) / 4) else ((regDefAt k off).map (·.reset)).getD 0
    | .cals =>
      if off = 0x048 then 0x64 else if off = 0x04C then 0xC8 else if off = 0x050 then 0x190
      else if off = 0x054 then 0x320 else ((regDefAt k off).map (·.reset)).getD 0
    | .dintg | .intg =>
      if 0x100 ≤ off ∧ off < 0x340 ∧ (regDefAt k off).isSome then
        (if off % 16 = 0 then (bucketReset k ((off - 0x100) / 16)).1
         else if off % 16 = 4 then (bucketReset k ((off - 0x100) / 16)).2 * 65536 else 0)
      else ((regDefAt k off).map (·.reset)).getD 0
    | _ => ((regDefAt k off).map (·.reset)).getD 0

/-- The key of a register in the register file: its address PAGE:OFFSET of R396. -/
def regKey (page off : Nat) : Nat := page * 4096 + off

/-- What a register holds at reset. -/
def regReset (key : Nat) : Word :=
  match pageKind (key / 4096) with
  | some k => BitVec.ofNat 32 (regResetAt (key / 4096) k (key % 4096))
  | none => 0

end Sys2Proof.Machine
end

