-- ==== Sys2Proof/Machine/Operands.lean ====
section
/-!
DEFINITION. Bit fields, byte strings, signed readings, the stored values of written registers (R405), and the checks of the manual's codes: CRC-16 (R96),
CRC-32C (R159), CRC-8 (R162) and CRC-64 (R260).
-/

namespace Sys2Proof.Machine

/-- Bits [hi:lo] of a number. -/
def bitsOf (hi lo n : Nat) : Nat := n / 2 ^ lo % 2 ^ (hi - lo + 1)

/-- A field of a register word (R4). -/
def fieldGet (f : FieldRef) (w : Word) : Nat := bitsOf f.hi f.lo w.toNat

/-- The mask of bits [hi:lo]. -/
def maskOf (hi lo : Nat) : Word := BitVec.ofNat 32 ((2 ^ (hi - lo + 1) - 1) * 2 ^ lo)

/-- A register word with a field replaced. -/
def fieldPut (f : FieldRef) (v : Nat) (w : Word) : Word :=
  (w &&& ~~~(maskOf f.hi f.lo)) ||| (BitVec.ofNat 32 (v * 2 ^ f.lo) &&& maskOf f.hi f.lo)

/-- Entry i of an array of registers `stride` bytes apart. -/
def FieldRef.nth (f : FieldRef) (i : Nat) (stride : Nat := 4) : FieldRef := { f with off := f.off + i * stride }

/-- An n-bit number read as two's complement. -/
def signedOf (n v : Nat) : Int := if v % 2 ^ n < 2 ^ (n - 1) then (v % 2 ^ n : Nat) else (v % 2 ^ n : Nat) - (2 : Int) ^ n

/-- An integer as an n-bit two's complement number. -/
def unsignedOf (n : Nat) (v : Int) : Nat := (v % (2 : Int) ^ n).toNat

/-- The value nearest to v within lo and hi. -/
def clampNat (lo hi v : Nat) : Nat := if v < lo then lo else if hi < v then hi else v

/-- The value nearest to v within lo and hi. -/
def clampInt (lo hi v : Int) : Int := if v < lo then lo else if hi < v then hi else v

/-- The n bits of v, most significant first. -/
def toBits : Nat → Nat → List Bool
  | 0, _ => []
  | n + 1, v => v.testBit n :: toBits n v

/-- The number a list of bits writes, most significant first. -/
def ofBits (l : List Bool) : Nat := l.foldl (fun a b => 2 * a + b.toNat) 0

/-- The n bytes of v, most significant first. -/
def toBytes : Nat → Nat → List Byte
  | 0, _ => []
  | n + 1, v => BitVec.ofNat 8 (v / 256 ^ n) :: toBytes n v

/-- The number a list of bytes writes, most significant first. -/
def ofBytes (l : List Byte) : Nat := l.foldl (fun a b => 256 * a + b.toNat) 0

/-- The bytes of words, each most significant byte first. -/
def wordsBytes (l : List Word) : List Byte := l.flatMap (fun w => toBytes 4 w.toNat)

/-- The 32-bit words of a byte string, most significant byte first; the last is filled with zero bytes. -/
def bytesWords : Nat → List Byte → List Word
  | 0, _ => []
  | n + 1, l => BitVec.ofNat 32 (ofBytes ((l ++ [0, 0, 0, 0]).take 4)) :: bytesWords n (l.drop 4)

/-- Pads a bit string with zeros to whole bytes and reads its bytes. -/
def bitsToBytes : Nat → List Bool → List Byte
  | 0, _ => []
  | n + 1, l => BitVec.ofNat 8 (ofBits ((l ++ List.replicate 8 false).take 8)) :: bitsToBytes n (l.drop 8)

/-- The bits of a byte string, most significant first. -/
def bytesBits (l : List Byte) : List Bool := l.flatMap (fun b => toBits 8 b.toNat)

/-- One bit of CRC-16 with polynomial 0x1021, no reflection (R96). -/
def crc16Bit (c : BitVec 16) (b : Bool) : BitVec 16 :=
  if (c.msb != b) then (c <<< 1) ^^^ 0x1021 else c <<< 1

/-- CRC-16 of R96 over a bit string, from a running value. -/
def crc16Bits (c : BitVec 16) (l : List Bool) : BitVec 16 := l.foldl crc16Bit c

/-- CRC-16 of R96 over a byte string: initial value 0xFFFF, no final inversion. -/
def crc16 (l : List Byte) : BitVec 16 := crc16Bits 0xFFFF (bytesBits l)

/-- One byte of CRC-32C, reflected polynomial 0x82F63B78. -/
def crc32cByte (c : BitVec 32) (b : Byte) : BitVec 32 :=
  (List.range 8).foldl (fun c _ => if c.getLsbD 0 then (c >>> 1) ^^^ 0x82F63B78 else c >>> 1)
    (c ^^^ BitVec.ofNat 32 b.toNat)

/-- CRC-32C of R159. -/
def crc32c (l : List Byte) : BitVec 32 := ~~~(l.foldl crc32cByte 0xFFFFFFFF)

/-- One byte of CRC-8 with polynomial 0x07 (R163). -/
def crc8Byte (c : BitVec 8) (b : Byte) : BitVec 8 :=
  (List.range 8).foldl (fun c _ => if c.msb then (c <<< 1) ^^^ 0x07 else c <<< 1) (c ^^^ b)

/-- CRC-8 of R163. -/
def crc8 (l : List Byte) : BitVec 8 := l.foldl crc8Byte 0

/-- One byte of the digest of R259. -/
def crc64Byte (c : BitVec 64) (b : Byte) : BitVec 64 :=
  (List.range 8).foldl (fun c _ => if c.msb then (c <<< 1) ^^^ 0x42F0E1EBA9EA3693 else c <<< 1)
    (c ^^^ BitVec.ofNat 64 (b.toNat * 2 ^ 56))

/-- The digest of R259. -/
def crc64 (l : List Byte) : BitVec 64 := ~~~(l.foldl crc64Byte 0xFFFFFFFFFFFFFFFF)

/-- Fields given as (width, value), packed most significant first. -/
def packFields (l : List (Nat × Nat)) : Nat := l.foldl (fun a f => a * 2 ^ f.1 + f.2 % 2 ^ f.1) 0

/-- A byte string cut into n units of 32 bytes, the last filled with zero bytes. -/
def bytesUnits : Nat → List Byte → List (BitVec 256)
  | 0, _ => []
  | n + 1, l => BitVec.ofNat 256 (ofBytes ((l ++ List.replicate 32 0).take 32)) :: bytesUnits n (l.drop 32)

/-- The bits of the fields of some types. -/
def RegDef.mask (d : RegDef) (p : Access → Bool) : Word :=
  d.fields.foldl (fun m f => if p f.acc then m ||| maskOf f.hi f.lo else m) 0

/-! ### Stored values (R405) -/

/-- A field value as its description limits or substitutes it. -/
def Limit.apply (l : Limit) (v : Nat) : Nat :=
  match l with
  | .none => v
  | .clamp lo hi => clampNat lo hi v
  | .map3to0 => if v = 3 then 0 else v
  | .signed18 => unsignedOf 20 (clampInt (-262144) 262144 (signedOf 20 v))

/-- A word with the fields of the chosen types taken, limited, from a written value. -/
def RegDef.take (d : RegDef) (p : Access → Bool) (old v : Word) : Word :=
  d.fields.foldl (fun w f =>
    if p f.acc then fieldPut ⟨0, f.hi, f.lo⟩ (f.lim.apply (fieldGet ⟨0, f.hi, f.lo⟩ v)) w else w) old

/-- INC and SLEW_INC of R236 from their two words, as the write of the upper completes the pair. -/
def limitInc (lo hi : Word) : Nat := clampNat 0xFFFC0000 0x100040000 (hi.toNat % 256 * 2 ^ 32 + lo.toNat)

/-- The bits of EVT_ENABLE and EVT_PENDING that a page's chapter assigns; the others are reserved (R400, R416, and R51, R79,
R107, R109, R136, R139, R141, R198, R200, R227, R253, R256, R283, R285, R315, R317, R342, R344, R365, R367, R393, R395, R441,
R443, R445, R461, R478). -/
def eventMask : PageKind → Word
  | .block => 0x1
  | .corr | .lane | .monx => 0x3
  | .sheaf | .glean | .jrnl | .madc | .dtrain | .lanes => 0x7
  | .mod | .pwr | .timeD | .um | .stick | .ilk | .trig | .merge | .tdc => 0xF
  | .cals | .step => 0x1F
  | .dram => 0x3F
  | .time | .fwu => 0x7F
  | .ports => 0x707
  | .dintg => 0x1FFFFFFF
  | .intg => 0x3F0FFFFF
  | .tile | .afe => 0

/-- Limits that concern several fields: PATH nibbles below LEVEL (R187), CD_STREAM and CD_SHADOW (R225), COOL_C and
HOT_POSTPONE (R301, R302), BO_MAX (R392), the GO fields that read 0 (R242, R270), and the reserved event bits (R5, R400). -/
def fixWord (k : PageKind) (off : Nat) (w : Word) : Word :=
  if off = 0x018 then w &&& eventMask k
  else
  let g (f : FieldRef) : Nat := fieldGet f w
  match k with
  | .cals => if off = 0x040 ∧ g Reg.CALS.CTRL_CD_STREAM = 0 ∧ g Reg.CALS.CTRL_CD_SHADOW = 0 then w ||| 0x60 else w
  | .trig => if off = 0x05C ∨ off = 0x068 then
      fieldPut Reg.TRIG.A_REGION_PATH
        (g Reg.TRIG.A_REGION_PATH / 16 ^ g Reg.TRIG.A_REGION_LEVEL * 16 ^ g Reg.TRIG.A_REGION_LEVEL) w else w
  | .dram => if off = 0x048 then
      let hot := g Reg.DRAM.REF_CTRL_HOT_C
      let w := if hot ≤ g Reg.DRAM.REF_CTRL_COOL_C then fieldPut Reg.DRAM.REF_CTRL_COOL_C (hot - 1) w else w
      if g Reg.DRAM.REF_CTRL_POSTPONE < g Reg.DRAM.REF_CTRL_HOT_POSTPONE then
        fieldPut Reg.DRAM.REF_CTRL_HOT_POSTPONE (g Reg.DRAM.REF_CTRL_POSTPONE) w else w
    else w
  | .um => if off = 0x048 ∧ g Reg.UM.DISC_BO_MAX < g Reg.UM.DISC_BO_MIN then
      fieldPut Reg.UM.DISC_BO_MAX (g Reg.UM.DISC_BO_MIN) w else w
  | .time => if off = 0x050 then w &&& 0x7FFFFFFF else w
  | .stick => if off = 0x048 then w &&& 0x7FFFFFFF else w
  | _ => w

end Sys2Proof.Machine
end

