-- ==== Sys2Proof/Machine/Codes.lean ====
section
/-!
DEFINITION. The codes and digests that the manual names: arithmetic in GF(2^8), RS(36,32) (R319), RS(254,238) and the PRBS15
scrambler of downstream frames (R368), AES-128-CMAC of RFC 4493 (R379) and SHA-512 (R446, R452).
-/

namespace Sys2Proof.Machine

/-! ### GF(2^8) -/

/-- x times the field's generator, for a field polynomial below x^8. -/
def gfDouble (poly a : Nat) : Nat := if 128 ≤ a then Nat.xor (a * 2 - 256) poly else a * 2

/-- A product in GF(2^8), the bits of `b` taken from the lowest. -/
def gfTimes (poly : Nat) : Nat → Nat → Nat → Nat
  | 0, _, _ => 0
  | n + 1, a, b => Nat.xor (if b % 2 = 1 then a else 0) (gfTimes poly n (gfDouble poly a) (b / 2))

/-- A power. -/
def gfPow (poly a : Nat) : Nat → Nat
  | 0 => 1
  | n + 1 => gfTimes poly 8 a (gfPow poly a n)

/-- a^254, the inverse of a nonzero a. -/
def gfInv (poly a : Nat) : Nat :=
  let sq (x : Nat) : Nat := gfTimes poly 8 x x
  let step (x : Nat) : Nat := gfTimes poly 8 (sq x) a
  sq (step (step (step (step (step (step a))))))

/-- The field of R319 and R368: polynomial 0x11D. -/
def gfMulD (a b : Nat) : Nat := gfTimes 0x1D 8 a b
def gfExpD (n : Nat) : Nat := gfPow 0x1D 2 n

/-- The generator of a code with roots α^0 to α^(k−1), highest power first, without its leading 1. -/
def rsGenD (k : Nat) : List Nat :=
  ((List.range k).foldl (fun (g : List Nat) i =>
    List.zipWith Nat.xor (g ++ [0]) (0 :: g.map (gfMulD (gfExpD i)))) [1]).drop 1

/-- The check bytes that a code with generator `gen` appends to a message. -/
def rsCheckD (gen : List Nat) (l : List Byte) : List Byte :=
  (l.foldl (fun (st : List Nat) b =>
    let f := Nat.xor b.toNat (st.headD 0)
    List.zipWith Nat.xor (st.drop 1 ++ [0]) (gen.map (gfMulD f))) (gen.map (fun _ => 0))).map (BitVec.ofNat 8)

/-- The four check bytes of RS(36,32), roots α^0 to α^3 (R319). -/
def rsCheck (l : List Byte) : List Byte := rsCheckD (rsGenD 4) l

/-! ### Decoding of RS(254,238) (R368) -/

/-- The value at x of a polynomial, lowest coefficient first. -/
def gfEval (p : List Nat) (x : Nat) : Nat := p.foldr (fun c a => Nat.xor c (gfMulD a x)) 0

/-- The 16 syndromes of a received word, first byte first. -/
def syndromes (l : List Byte) : List Nat :=
  (List.range 16).map (fun j => l.foldl (fun a b => Nat.xor (gfMulD a (gfExpD j)) b.toNat) 0)

/-- The state of Berlekamp and Massey's search for the error locator: it, the locator before its last change of length, that
change's discrepancy, the length, and the steps since. -/
structure Locator where
  now : List Nat
  old : List Nat
  disc : Nat
  len : Nat
  gap : Nat
  deriving DecidableEq, Repr

/-- One step of the search, for syndrome n. -/
def Locator.step (s : List Nat) (k : Locator) (n : Nat) : Locator :=
  let d := ((List.range (k.len + 1)).map (fun i => gfMulD (k.now.getD i 0) (s.getD (n - i) 0))).foldl Nat.xor 0
  if d = 0 then { k with gap := k.gap + 1 }
  else
    let f := gfMulD d (gfInv 0x1D k.disc)
    let sub := List.replicate k.gap 0 ++ k.old.map (gfMulD f)
    let new := (List.range (max k.now.length sub.length)).map (fun i => Nat.xor (k.now.getD i 0) (sub.getD i 0))
    if 2 * k.len ≤ n then { now := new, old := k.now, disc := d, len := n + 1 - k.len, gap := 1 }
    else { k with now := new, gap := k.gap + 1 }

/-- The error locator of syndromes. -/
def locator (s : List Nat) : Locator :=
  (List.range 16).foldl (Locator.step s) { now := [1], old := [1], disc := 1, len := 0, gap := 1 }

/-- The error at a place whose locator is α^p, by Forney's formula for roots from α^0 on. -/
def errorAt (s loc : List Nat) (p : Nat) : Nat :=
  let x := gfExpD p
  let xi := gfInv 0x1D x
  let omega := (List.range 16).map (fun i => ((List.range (i + 1)).map (fun j =>
    gfMulD (loc.getD j 0) (s.getD (i - j) 0))).foldl Nat.xor 0)
  let odd := (List.range loc.length).map (fun i => if i % 2 = 1 then gfMulD (loc.getD i 0) (gfPow 0x1D xi (i - 1)) else 0)
  gfMulD x (gfMulD (gfEval omega xi) (gfInv 0x1D (odd.foldl Nat.xor 0)))

/-- A received codeword as the decoder delivers it (R368): its 238 payload bytes and the number of bytes it corrected; none where
no codeword lies within 8 bytes of it. -/
def decode254 (l : List Byte) : Option (List Byte × Nat) :=
  let s := syndromes l
  if s.all (· == 0) then some (l.take 238, 0)
  else
    let k := locator s
    let bad := (List.range l.length).filter (fun i => gfEval k.now (gfInv 0x1D (gfExpD (l.length - 1 - i))) == 0)
    let fixed := l.zipIdx.map (fun x => if bad.contains x.2 then
      x.1 ^^^ BitVec.ofNat 8 (errorAt s k.now (l.length - 1 - x.2)) else x.1)
    if k.len ≤ 8 ∧ bad.length = k.len ∧ (syndromes fixed).all (· == 0) = true then some (fixed.take 238, bad.length) else none

/-- n bits of the PRBS15 sequence x^15 + x^14 + 1 whose last bits are those of `reg`, the newest in bit 0. -/
def prbs15 : Nat → Nat → List Bool
  | 0, _ => []
  | n + 1, reg =>
    let b := reg.testBit 14 != reg.testBit 13
    b :: prbs15 n ((2 * reg + b.toNat) % 2 ^ 15)

/-- The sequence over n bytes: its first bits are those of the seed, all ones (R368; DEDUCED, log 71). -/
def scramble15 (n : Nat) : List Byte := bitsToBytes n (List.replicate 15 true ++ prbs15 (8 * n) (2 ^ 15 - 1))

/-! ### AES-128 and its CMAC (R379) -/

/-- The substitution of a byte: its inverse in the field with x^8 + x^4 + x^3 + x + 1, through the affine map. -/
def aesSub (a : Nat) : Nat :=
  let b := gfInv 0x1B a
  let rot (n : Nat) : Nat := b * 2 ^ n % 256 + b / 2 ^ (8 - n)
  [rot 1, rot 2, rot 3, rot 4, 0x63].foldl Nat.xor b

/-- The next round key of four words of four bytes; `rc` is the round constant. -/
def aesNextKey (k : List Nat) (rc : Nat) : List Nat :=
  let w (i : Nat) : List Nat := (k.drop (4 * i)).take 4
  let t := List.zipWith Nat.xor (((w 3).drop 1 ++ (w 3).take 1).map aesSub) [rc, 0, 0, 0]
  let a := List.zipWith Nat.xor (w 0) t
  let b := List.zipWith Nat.xor (w 1) a
  let c := List.zipWith Nat.xor (w 2) b
  a ++ b ++ c ++ List.zipWith Nat.xor (w 3) c

/-- Rows of the state, by columns, shifted; and one column mixed. -/
def aesShift (l : List Nat) : List Nat := (List.range 16).map (fun i => l.getD (i % 4 + 4 * ((i / 4 + i % 4) % 4)) 0)
def aesMixAt (l : List Nat) (i : Nat) : Nat :=
  let x (j : Nat) : Nat := l.getD (i / 4 * 4 + (i + j) % 4) 0
  [Nat.xor (gfDouble 0x1B (x 1)) (x 1), x 2, x 3].foldl Nat.xor (gfDouble 0x1B (x 0))

/-- The rounds that remain of a block, each with its round constant; the last mixes no columns. -/
def aesRounds : List Nat → List Nat → List Nat → List Nat
  | [], _, st => st
  | rc :: r, key, st =>
    let key := aesNextKey key rc
    let st := aesShift (st.map aesSub)
    aesRounds r key (List.zipWith Nat.xor (if r.isEmpty then st else (List.range 16).map (aesMixAt st)) key)

/-- AES-128 of a block of 16 bytes. -/
def aes128 (key block : List Nat) : List Nat :=
  aesRounds ((List.range 10).map (gfPow 0x1B 2)) key (List.zipWith Nat.xor block key)

/-- A block doubled in GF(2^128), as RFC 4493 derives its subkeys. -/
def cmacDouble (l : List Nat) : List Nat :=
  let n := l.foldl (fun a b => 256 * a + b) 0
  let m := if n < 2 ^ 127 then 2 * n else Nat.xor (2 * n - 2 ^ 128) 0x87
  (toBytes 16 m).map (·.toNat)

/-- The chain over the message's blocks; the last one, padded where it is short, takes its subkey. -/
def cmacChain (key k1 : List Nat) : Nat → List Nat → List Nat → List Nat
  | 0, _, acc => acc
  | n + 1, l, acc =>
    if 16 < l.length then cmacChain key k1 n (l.drop 16) (aes128 key (List.zipWith Nat.xor acc (l.take 16)))
    else
      let last := if l.length = 16 then List.zipWith Nat.xor l k1
        else List.zipWith Nat.xor ((l ++ 0x80 :: List.replicate 15 0).take 16) (cmacDouble k1)
      aes128 key (List.zipWith Nat.xor acc last)

/-- The AES-128-CMAC of RFC 4493. -/
def aesCmac (key msg : List Byte) : List Nat :=
  let k := key.map (·.toNat)
  cmacChain k (cmacDouble (aes128 k (List.replicate 16 0))) (msg.length + 1) (msg.map (·.toNat)) (List.replicate 16 0)

/-- TAG64 of R379: the first 64 bits of the CMAC. -/
@[irreducible] def cmac64 (key msg : List Byte) : BitVec 64 :=
  BitVec.ofNat 64 (((aesCmac key msg).take 8).foldl (fun a b => 256 * a + b) 0)

/-! ### SHA-512 (R446, R452) -/

/-- The first n primes from k on, found by trial within some steps. -/
def primesFrom : Nat → Nat → Nat → List Nat
  | 0, _, _ => []
  | f + 1, n, k =>
    if n = 0 then []
    else if (List.range (k - 2)).all (fun i => k % (i + 2) != 0) then k :: primesFrom f (n - 1) (k + 1)
    else primesFrom f n (k + 1)

/-- The greatest number whose r-th power is at most v, from its bits below bit n. -/
def rootBelow (r v : Nat) : Nat → Nat → Nat
  | 0, a => a
  | n + 1, a => rootBelow r v n (if (a + 2 ^ n) ^ r ≤ v then a + 2 ^ n else a)

/-- The first 64 bits of the fractional part of a prime's r-th root. -/
def rootWord (r p : Nat) : BitVec 64 := BitVec.ofNat 64 (rootBelow r (p * 2 ^ (64 * r)) 70 0)

/-- The initial digest, and the round constants. -/
def shaStart : List (BitVec 64) := (primesFrom 420 8 2).map (rootWord 2)
def shaRound : List (BitVec 64) := (primesFrom 420 80 2).map (rootWord 3)

/-- The message schedule, newest word first, extended by n words. -/
def shaSchedule : Nat → List (BitVec 64) → List (BitVec 64)
  | 0, w => w
  | n + 1, w =>
    let x := w.getD 14 0
    let y := w.getD 1 0
    let a := x.rotateRight 1 ^^^ x.rotateRight 8 ^^^ (x >>> 7)
    let b := y.rotateRight 19 ^^^ y.rotateRight 61 ^^^ (y >>> 6)
    shaSchedule n ((w.getD 15 0 + a + w.getD 6 0 + b) :: w)

/-- One round over the eight working words. -/
def shaStep (s : List (BitVec 64)) (kw : BitVec 64) : List (BitVec 64) :=
  let g (i : Nat) : BitVec 64 := s.getD i 0
  let e := g 4
  let a := g 0
  let t := g 7 + (e.rotateRight 14 ^^^ e.rotateRight 18 ^^^ e.rotateRight 41) + ((e &&& g 5) ^^^ (~~~e &&& g 6)) + kw
  let u := (a.rotateRight 28 ^^^ a.rotateRight 34 ^^^ a.rotateRight 39) + ((a &&& g 1) ^^^ (a &&& g 2) ^^^ (g 1 &&& g 2))
  [t + u, a, g 1, g 2, g 3 + t, e, g 5, g 6]

/-- A digest carried over one block of 16 words. -/
def shaBlock (h block : List (BitVec 64)) : List (BitVec 64) :=
  let w := (shaSchedule 64 block.reverse).reverse
  List.zipWith (· + ·) h ((List.zipWith (· + ·) shaRound w).foldl shaStep h)

/-- The 64-bit words of a byte string. -/
def words64 : Nat → List Byte → List (BitVec 64)
  | 0, _ => []
  | n + 1, l => BitVec.ofNat 64 (ofBytes (l.take 8)) :: words64 n (l.drop 8)

/-- A digest carried over n blocks. -/
def shaBlocks : Nat → List (BitVec 64) → List (BitVec 64) → List (BitVec 64)
  | 0, _, h => h
  | n + 1, w, h => shaBlocks n (w.drop 16) (shaBlock h (w.take 16))

/-- SHA-512. -/
@[irreducible] def sha512 (l : List Byte) : BitVec 512 :=
  let n := (l.length + 17 + 127) / 128
  let m := l ++ 0x80 :: List.replicate (128 * n - l.length - 17) 0 ++ toBytes 16 (8 * l.length)
  (shaBlocks n (words64 (16 * n) m) shaStart).foldl (fun a w => a <<< 64 ||| w.setWidth 512) 0

end Sys2Proof.Machine
end

