-- ==== Sys2Proof/Config.lean ====
section
/-!
DEFINITION. What the manual leaves to each unit or leaves open: opaque constants, of which no proof can see a
value, and the fixed numbers of the module.
-/

namespace Sys2Proof.Config

/-- A value the manual leaves undefined; its argument is the count of free values drawn (assumption 3). -/
opaque freeValue : Nat → Nat

/-- The authentication key installed at production (R379); no register reveals it (assumption 4). -/
opaque deliveredKey : BitVec 128

/-- The sections of a class K image body (R446): whether table and section CRCs pass, whether a section of the
authentication key type is present, that key, and the lane table of a board type (assumption 5). -/
opaque sectionsOk : List Byte → Bool
opaque hasKey : List Byte → Bool
opaque keyOf : List Byte → BitVec 128
opaque laneTable : List Byte → Nat → Option (List (BitVec 32))

/-- Ed25519 verification of R446 over header bytes, with the signature that the header carries (assumption 4). -/
opaque signatureOk : List Byte → Bool

/-- The words a class K image writes into registers: section contents by page and offset (assumption 5). -/
opaque classKWords : List Byte → List (Nat × Nat × Word)

/-- The monitor sensor calibration of a class K image (R418, R446): the figure in the unit of R418 for what an internal source
measures (assumption 5). -/
opaque sensorCal : List Byte → Nat → Int → Int

/-- The settings-schema migrations of a class K image (R446, R455): from one schema to another, the word that a setting's
register takes, by its address and its word (assumption 5). -/
opaque migration : List Byte → Nat → Nat → Nat → Word → Word

/-- The belfry's noise source (R375), drawn with the count of draws so far; the answer is below its bound only
after reduction by the caller. -/
opaque noise : Nat → Nat

/-- Words of the management core's memory, which the manual does not give (assumption 8). -/
opaque coreWords : Nat

/-- A channel's injection path delay from a class K image, in ticks (R211; assumption 5). -/
opaque skew : List Byte → Nat → Rat

/-- The seed tables of a class K image (R222; assumption 5): correction entry and TAC map entry of a channel,
and P[k] of a tile in 1/8 tick. -/
opaque seedCorr : List Byte → Nat → BitVec 128
opaque seedTac : List Byte → Nat → BitVec 32
opaque seedTap : List Byte → Nat → Nat → Nat

end Sys2Proof.Config
end

