-- ==== Sys2Proof/Machine/Maps.lean ====
section
/-!
DEFINITION. Sparse maps with natural-number keys: lists of pairs with strictly rising keys. A map with a
default (`mapPutD`) lists no entry that equals the default, so that equal contents are equal data.
-/

namespace Sys2Proof.Machine

/-- The entry at `k`. -/
def mapFind {α : Type} (k : Nat) : List (Nat × α) → Option α
  | [] => none
  | (j, v) :: r => if k = j then some v else mapFind k r

/-- The entry at `k`, or what an unlisted key reads as. -/
def mapGetD {α : Type} (d : α) (k : Nat) (m : List (Nat × α)) : α := (mapFind k m).getD d

/-- The map with `k` holding `v`. -/
def mapPut {α : Type} (k : Nat) (v : α) : List (Nat × α) → List (Nat × α)
  | [] => [(k, v)]
  | (j, w) :: r =>
    if k = j then (k, v) :: r else if k < j then (k, v) :: (j, w) :: r else (j, w) :: mapPut k v r

/-- The map without `k`. -/
def mapDel {α : Type} (k : Nat) (m : List (Nat × α)) : List (Nat × α) := m.filter (fun e => e.1 != k)

/-- The map with `k` holding `v`; writing what an unlisted key reads as removes the entry. -/
def mapPutD {α : Type} [DecidableEq α] (d : α) (k : Nat) (v : α) (m : List (Nat × α)) : List (Nat × α) :=
  if v = d then mapDel k m else mapPut k v m

/-- The keys rise strictly. -/
def mapWf {α : Type} : List (Nat × α) → Bool
  | [] => true
  | [_] => true
  | (a, _) :: (b, w) :: r => a < b && mapWf ((b, w) :: r)

/-- A map with a default in canonical form: rising keys, and no entry that an unlisted key would read as. -/
def mapCanon {α : Type} [DecidableEq α] (d : Nat → α) (m : List (Nat × α)) : Bool :=
  mapWf m && m.all (fun e => decide (e.2 ≠ d e.1))

end Sys2Proof.Machine
end

