-- ==== Sys2Proof/Machine/State.lean ====
section
/-!
DEFINITION. The state of the module as plain data, its faults and refusals, and the state after reset.
-/

namespace Sys2Proof.Machine

/-- The reasons an instruction can end the machine. The manual gives every command and event of the table an
effect, so the model has no fault of its own. -/
inductive Fault where
  /-- raised by no meaning (safe: it never occurs); kept so that the type is inhabited -/
  | none
  deriving DecidableEq, Repr

/-- The reasons an instruction has no meaning in the model. -/
inductive Refusal where
  /-- raised by an arm of `exec` that has no meaning yet (safe: the run stops) -/
  | notModelled (mnemonic : String)
  deriving DecidableEq, Repr

/-! ### Channels (The Channel Front End, Picosecond Time Measurement) -/

/-- A recorded hit that has not passed to read-out (R32, R65), with the settings in force in the frame of its
leading edge (R69, R86). -/
structure Hit where
  /-- leading-edge tap-time (R55) -/
  lead : Nat
  /-- the capacitor it took (R61) -/
  cap : Bool
  /-- the hold-off in taps, n + 1 (R30) -/
  hold : Nat
  /-- hold-off expired (R32) -/
  holdDone : Bool
  /-- ADC code once converted (R65) -/
  code : Option Nat
  /-- ToT code once the trailing edge is measured or the ToT has saturated (R71, R72) -/
  tot : Option Nat
  /-- flags [3] and [2] of R83 -/
  sat : Bool
  pile : Bool
  /-- calibration hit (R44) with the launch tap-time of its injection -/
  cal : Option Nat
  /-- GEN, CH_CFG.TOT_CUT, CH_CFG.SHADOW_ONLY, WINNOW.WINDOW and WINNOW.PROMOTE_EN of its frame -/
  gen : Bool
  cut : Nat
  shadowOnly : Bool
  window : Nat
  promote : Bool
  /-- A, B in 2^-16 tick; whether they are NOM_MAP; P[k], P[k+1], P[k+2] in 2^-16 tick -/
  mapA : Nat
  mapB : Nat
  nominal : Bool
  /-- A and B of NOM_MAP in its frame, which serve where the map cannot be read (R69, R328) -/
  nomA : Nat
  nomB : Nat
  p0 : Nat
  p1 : Nat
  p2 : Nat
  deriving DecidableEq, Repr

/-- An injection in progress on a channel (R44): its launch tap-time, and the end of the blind time of the hit it
produced, once known (`none` while the output has not fallen). -/
structure Inject where
  launch : Nat
  /-- the charge deposited, in 0.02 fC, positive where it is positive charge (R42) -/
  charge : Int
  hit : Bool
  fallen : Bool
  deriving DecidableEq, Repr

/-- A channel's state that no register holds. CH_STAT and CH_CNT are registers. -/
structure Chan where
  /-- high since before it was armed: rearms at the fall (R36, R40, R47) -/
  rearm : Bool := false
  /-- start of the running stuck timer (R39) -/
  stuckFrom : Option Nat := none
  /-- end of the hold-off of the last recorded hit, tap-time (R30) -/
  holdEnd : Nat := 0
  /-- end of blanking in tap-time (R47) -/
  blankEnd : Nat := 0
  /-- the capacitor used last (R61) -/
  lastCap : Bool := true
  /-- recorded hits not yet passed, oldest first -/
  hits : List Hit := []
  inj : Option Inject := none
  deriving DecidableEq, Repr

/-! ### Tiles and ports (Tile Read-Out and Winnowing) -/

/-- A hit that has passed to read-out with its tile record (R83), its frame and side item (R99). -/
structure Passed where
  chan : Nat
  lead : Nat
  word : BitVec 52
  side : BitVec 32
  window : Nat
  promote : Bool
  shadowOnly : Bool
  deriving DecidableEq, Repr

/-- The chaff of one tile frame (R91). -/
structure FrameChaff where
  masked : Nat := 0
  stuck : Nat := 0
  gateHigh : Nat := 0
  deriving DecidableEq, Repr

/-- The counts of one frame on one port (R95): records sent, refused records, the T_ref periods of refused stream
records, and the CRC. -/
structure PortFrame where
  records : Nat := 0
  capStream : Nat := 0
  capShadow : Nat := 0
  refused : List Nat := []
  crc : BitVec 16 := 0xFFFF
  deriving DecidableEq, Repr

/-- An item in a port's elastic buffer: a tile record with its frame, or a token of R95 or R104 with its frame. -/
inductive PortItem where
  | hit (r : BitVec 52) (frame : Nat)
  | closed (words : List (BitVec 52)) (frame : Nat)
  | resume (words : List (BitVec 52)) (frame : Nat)
  deriving DecidableEq, Repr

/-- One output port of a tile (R97-R104). PSTAT, PEAK and the counts are registers. -/
structure Port where
  items : List PortItem := []
  /-- words of the token at the head of the buffer that have been acknowledged -/
  words : Nat := 0
  side : List (BitVec 32) := []
  frames : List (Nat × PortFrame) := []
  /-- a word was acknowledged in the frame in progress -/
  acked : Bool := false
  /-- the run of whole frames of R101 -/
  lag : Nat := 0
  cut : Bool := false
  /-- the word in transfer at a cut (R103), while it is not acknowledged -/
  late : Option (BitVec 52) := none
  /-- the late word has been acknowledged: the port resumes at the next boundary -/
  lateAcked : Bool := false
  /-- reasons [45:42] of the resume token the port owes (R104) -/
  owes : Nat := 0
  /-- the oldest frame whose frame-closed token was not delivered -/
  oldest : Nat := 0
  /-- the frame at which the port resumed last: items of earlier frames are discarded (R102, R103) -/
  since : Nat := 0
  /-- records discarded by a cut since the last frame-closed token delivered -/
  discarded : Nat := 0
  deriving DecidableEq, Repr

/-- A gate change waiting to be applied by a tile: source (R33), tap-time and new state. -/
structure GateEdge where
  src : Nat
  tap : Nat
  isOpen : Bool
  /-- a change of GATE_CTRL.SRC has already evaluated the source at this time (R37) -/
  seen : Bool := false
  deriving DecidableEq, Repr

/-- How far a tile's power is (R19, R41, R471): what no PWR_STATE field says. -/
inductive TilePower where
  /-- no power: content lost -/
  | off
  /-- falling to OFF: powered until its LEAVE tokens are delivered or its ports cut (R19) -/
  | leaving
  | on
  deriving DecidableEq, Repr

/-- A tile's state that no register holds. -/
structure Tile where
  power : TilePower := .off
  /-- held in KEEP by a failed checker (R324) -/
  testHeld : Bool := false
  /-- the coarse count of reference edges, as it stood at the last frame boundary (R54) -/
  count : BitVec 48 := 0
  /-- the line acquires lock, having started from the shortest delay (R56) -/
  acquiring : Bool := true
  /-- the next boundary reloads the count and is no comparison (R59, R60) -/
  reload : Bool := false
  /-- absent: no frame, no token (R19, R59) -/
  absent : Bool := true
  /-- recording has stopped within the frame (R59) -/
  halted : Bool := true
  /-- front end settled after LISTEN entry (R41) -/
  settled : Bool := false
  /-- REASON bits [45:43] gathered during the absence (R104) -/
  reasons : Nat := 0
  /-- the next frame to close, and the frame closed with LEAVE after which the tile is absent -/
  nextClose : Nat := 0
  leaveAt : Option Nat := none
  /-- swap parity (R217) -/
  parity : Bool := false
  chaff : List (Nat × FrameChaff) := []
  /-- candidates waiting for their promotion decision (R90), and the stream hits passed, as (channel, lead) -/
  cands : List Passed := []
  streams : List (Nat × Nat) := []
  /-- decided records that wait in each cell's queue for the tile collector (R81), oldest first, each with the tap-time of its
  leading edge, by cell in tile -/
  cellq : List (Nat × List (BitVec 52 × Nat)) := []
  /-- gate state per source 1-3 (R33), and the changes to come -/
  gateNow : List (Nat × Bool) := [(1, true), (2, true)]
  gateNext : List GateEdge := []
  portA : Port := {}
  portB : Port := {}
  deriving DecidableEq, Repr


/-! ### Concentrators: correction, merge, sheaves (chapters 5-7, 11) -/

/-- What a frame-closed token says (R95). -/
structure TokenInfo where
  records : Nat
  masked : Nat
  stuck : Nat
  gateHigh : Nat
  capStream : Nat
  capShadow : Nat
  capSpan : Nat
  sat : Bool
  leave : Bool
  deriving DecidableEq, Repr

/-- A resume record waiting for the first sheaf in which its tile is present (R122). -/
structure Resumed where
  frame : Nat
  reason : Nat
  missed : Nat
  discarded : Nat
  deriving DecidableEq, Repr

/-- A shadow extent on the die, not yet written (R291): its place in allocation order, the frame of its first
record, the frame in which that arrived, and its records, oldest first. -/
structure Extent where
  alloc : Nat
  first : Nat
  arrived : Nat
  recs : List (BitVec 56)
  deriving DecidableEq, Repr

/-- A tile's shadow records of one frame in the shadow ring (R292): the allocation number of the extent that holds the
first, its place in that extent, and their number. -/
structure ShadowSpan where
  alloc : Nat
  place : Nat
  count : Nat
  deriving DecidableEq, Repr

/-- A concentrator's receiving state for one tile (R118-R123). BEHIND is a register. -/
structure Rx where
  /-- present from this frame on, where the tile has resumed -/
  since : Option Nat := none
  /-- the frame whose token carried LEAVE (R123) -/
  left : Option Nat := none
  tokens : List (Nat × TokenInfo) := []
  recs : List (Nat × List (BitVec 56)) := []
  /-- shadow records of frames not yet formed, each with the frame in which it arrived (R119, R291) -/
  shadow : List (Nat × List (BitVec 56 × Nat)) := []
  resumed : List Resumed := []
  /-- the tile's swap parity as the concentrator keeps it (R217, R223) -/
  parity : Bool := false
  ext : Option Extent := none
  deriving DecidableEq, Repr

/-- A trigger delivered by the belfry (R176): its time in ticks since epoch 0 and its glean request. -/
structure Trigger where
  num : Nat
  source : Nat
  time : Nat
  glean : Bool
  level : Nat
  path : Nat
  pre : Nat
  post : Nat
  deriving DecidableEq, Repr

/-- A gate mark (R182): source, direction and time in ticks. -/
structure GateMark where
  source : Nat
  isOpen : Bool
  time : Nat
  deriving DecidableEq, Repr

/-- A domain switch as its record gives it (R154). -/
structure DSwitch where
  target : Bool
  auto : Bool
  offset : Int
  deriving DecidableEq, Repr

/-- What the belfry's frame sync and delivery say of a frame: header values (R144) and, once delivered, its triggers
and gate marks (R176, R178, R182). -/
structure FrameInfo where
  pealEpoch : Nat
  domain : Bool
  tq : Nat
  mixed : Bool
  dswitch : Option DSwitch
  delivered : Bool
  triggers : List Trigger
  marks : List GateMark
  deriving DecidableEq, Repr

/-- A frame sheaf formed: where its bytes begin in the replay ring, counted in units written since the fill, and
what later sheaves need of it. -/
structure SheafMeta where
  frame : Nat
  pos : Nat
  words : Nat
  presence : Nat
  pealEpoch : Nat
  domain : Bool
  tq : Nat
  mixed : Bool
  dead : Nat
  /-- the lowest allocation number among the extents holding its shadow records -/
  extent : Option Nat
  deriving DecidableEq, Repr

/-- A sheaf whose grains are being dealt: its frame, the bytes not yet dealt and the next GRAIN. -/
structure Dealing where
  frame : Nat
  bytes : List Byte
  grain : Nat
  /-- a word of the sheaf queue could not be read: the rest comes from the replay partition (R328) -/
  reread : Bool := false
  deriving DecidableEq, Repr

/-- A glean sheaf formed and waiting to be dealt. -/
structure GleanSheaf where
  frame : Nat
  bytes : List Byte
  /-- the glean's trigger number where it is the glean's last sheaf -/
  ends : Option Nat
  deriving DecidableEq, Repr

/-- An outstanding glean (R189-R192). -/
structure Glean where
  trig : Trigger
  refused : Bool
  /-- all its sheaves are formed; it is outstanding until the last grain is dealt -/
  formed : Bool
  /-- the frame of its next sheaf, below 0 where the window begins before time 0 -/
  nextFrame : Int
  part : Nat
  hits : Nat
  delivered : Nat
  overwritten : Nat
  /-- the frame in which it was accepted (R278) -/
  accepted : Nat
  /-- since when its next read has waited (R294), module time -/
  since : Nat := 0
  deriving DecidableEq, Repr

/-- A re-send request being served: the next sheaf number and how many remain (R193, R194), and since when it has waited. -/
structure Resend where
  next : Nat
  left : Nat
  started : Bool
  since : Nat := 0
  deriving DecidableEq, Repr

/-- The accumulators of a summary region (R125): the first frame of the interval, and (channel, N, Σfine). -/
structure Summary where
  start : Nat
  sums : List (Nat × Nat × Nat)
  deriving DecidableEq, Repr

/-- A calibration record captured before correction (R210): CHAN as a channel index, v, T, tile flags, frame. -/
structure Capture where
  chan : Nat
  tif : Nat
  tot : Nat
  flags : Nat
  frame : Nat
  deriving DecidableEq, Repr

/-- The run state of a concentrator (R260, R277). -/
inductive RunState where
  | reset | loading | joining | running | frozen
  deriving DecidableEq, Repr

/-- A cross-link message (R260). -/
structure CrossMsg where
  frame : Nat
  digest : Option (BitVec 64)
  mode : Nat
  nextSend : Nat
  gleans : Nat
  /-- of these, the outstanding ones accepted before the join sheaf (R278) -/
  oldGleans : Nat
  run : RunState
  deriving DecidableEq, Repr

/-- A lane's transmitter (R346-R350): the module time of the first UI after its training burst, its scrambler, blocks sent since
then, grains in the run of data blocks (0 behind an idle block, 1024 where an idle block must come first), alignment blocks
sent, and the FEC setting it left electrical idle with (R351). -/
structure LaneTx where
  start : Nat := 0
  scrambler : BitVec 58 := 0
  blocks : Nat := 0
  run : Nat := 1024
  acnt : Nat := 0
  fec : Bool := false
  /-- message bits of the codeword begun (R349), first bit first -/
  pend : List Bool := []
  deriving DecidableEq, Repr

/-- A lane's test (R359-R361): the generator's last bits and the bits it has sent, an inversion by INJ_ONE that is due, the
checker's last bits, how many it has loaded and how many agreed since, and while it is locked the bits counted since and the
places of the wrong ones among the last 1024. -/
structure LaneTest where
  gen : Nat := 0
  sent : Nat := 0
  injOne : Bool := false
  chk : Nat := 0
  loaded : Nat := 0
  agree : Nat := 0
  seen : Nat := 0
  wrong : List Nat := []
  deriving DecidableEq, Repr

/-- The reads that can wait in a group (R294): spill, glean and re-send reads, scrub reads and host access. -/
inductive DramReq where
  | spill | glean | resend | scrub | host
  deriving DecidableEq, Repr

/-- The units whose writes wait in the groups' write buffers, in order, each with its group (R300), refreshes postponed and open
rows by channel × 16 + bank (R296, R302), windows below the lowering limit (R298), and when and at what temperature each
channel was trained last (R305). -/
structure DramSt where
  buffered : List (Bool × Nat) := []
  postponed : List (Nat × Nat) := []
  openRows : List (Nat × Nat) := []
  lowWindows : Nat := 0
  /-- the point a change in progress goes to (R297) -/
  target : Nat := 0
  trained : List (Nat × (Nat × Int)) := []
  /-- channels whose retirement condition was met while frozen (R311) -/
  retireDue : List Nat := []
  /-- the timing set loaded (R297, R318), and the settings stored by point × 16 + channel (R304) -/
  timing : List Word := []
  settings : List (Nat × Nat) := []
  /-- the point of a change that waits for a retraining (R297, R313) -/
  waits : Option Nat := none
  /-- reads promoted by age, with the class that each has reached and the module time of it (R295) -/
  promo : List (DramReq × Nat × Nat) := []
  deriving DecidableEq, Repr

/-- A DRAM host read in progress (R312): its group and unit, and since when it has waited. -/
structure HostRead where
  shadow : Bool
  unit : Nat
  since : Nat := 0
  deriving DecidableEq, Repr

/-- A concentrator's state that no register holds. -/
structure ConcSt where
  run : RunState := .reset
  /-- while loading: the memories are filled and the pages loaded (R277) -/
  loaded : Bool := false
  /-- the next frame whose sheaf it forms -/
  nextForm : Nat := 0
  rx : Vector Rx 16 := Vector.replicate 16 {}
  /-- late chaff for the trailer of the oldest sheaf not yet formed (R121) -/
  late : Nat := 0
  /-- correction entries in force, those replaced at recent boundaries, newest boundary first (R116), staged ones, and
  poisoned words (R328), by channel × 4 + word -/
  corr : List (Nat × BitVec 128) := []
  corrOld : List (Nat × List (Nat × BitVec 128)) := []
  corrStaged : List (Nat × BitVec 128) := []
  corrPoison : List Nat := []
  /-- staged entries found uncorrectable (R328) -/
  stagedBad : List Nat := []
  /-- frame sheaves formed, newest first -/
  metas : List SheafMeta := []
  summ : List (Nat × Summary) := []
  /-- the stack by physical 32-byte unit (R286, R287); unlisted units hold zeros (R325); poisoned units (R329) -/
  dram : List (Nat × BitVec 256) := []
  poison : List Nat := []
  /-- the retired channel of each group, as MRAM records it for the life of the unit (R308) -/
  retR : Option Nat := none
  retS : Option Nat := none
  mc : DramSt := {}
  /-- units written in the replay ring since the fill, and extents allocated -/
  wpos : Nat := 0
  extents : Nat := 0
  /-- the first frame in the valid part of each group (REPLAY_VALID, SHADOW_VALID) -/
  validR : Nat := 0
  validS : Nat := 0
  /-- on-die sheaf queue (R129), the stream sheaf being dealt, the next stream sheaf, unsent bytes -/
  queue : List (Nat × List Byte) := []
  stream : Option Dealing := none
  sendNext : Nat := 0
  unsent : Nat := 0
  /-- since when the next stream sheaf of spill has waited to be read (R294) -/
  spillSince : Nat := 0
  gleans : List Glean := []
  gleanQ : List GleanSheaf := []
  gleanCur : Option (Dealing × Option Nat) := none
  resends : List Resend := []
  resendCur : Option Dealing := none
  /-- grains dealt since the last glean and re-send grain, or since one became ready (R165) -/
  gleanAge : Nat := 0
  resendAge : Nat := 0
  /-- lane of the grain dealt last (R166), and the mask being dealt over (R167) -/
  lastLane : Nat := 63
  dealMask : BitVec 64 := BitVec.allOnes 64
  /-- a mask that has been delivered and waits for MASK_LOAD (R357) -/
  maskDue : Option (BitVec 64) := none
  /-- the grain driven last and its lane, and the blocks that its lane sent since the grain before, up to its own last: idle and
  alignment blocks among them (R346-R350) -/
  outGrain : Option (Nat × List Byte) := none
  outBlocks : List (BitVec 66) := []
  /-- the codewords that these completed (R349), first bit most significant -/
  outWords : List (BitVec 5280) := []
  tx : List (Nat × LaneTx) := []
  tests : List (Nat × LaneTest) := []
  /-- it has started sending since its grant, and the stream grain that it sends first is still to be dealt (R274) -/
  sending : Bool := false
  firstDue : Bool := false
  /-- own messages and partner messages not yet compared (R260), the inbox, and the next sheaf of which the partner's
  message is awaited (R262) -/
  own : List CrossMsg := []
  inbox : List CrossMsg := []
  partner : List CrossMsg := []
  partnerNext : Nat := 0
  /-- consecutive matching digests (R261), and the join sheaf while it or its partner joins (R277) -/
  matches_ : Nat := 0
  joinAt : Option Nat := none
  /-- its copy of the lease deadline in T_ref (R268) -/
  deadline : Option Nat := none
  /-- it tolled at the boundary before the last (R267) -/
  tolledBefore : Bool := false
  host : Option HostRead := none
  /-- calibration records captured and not yet paired with a side item (R210) -/
  captured : List Capture := []
  /-- the histogram store: code bins by channel × 256 + code, tap bins (R201, R203) -/
  hist : List (Nat × Nat) := []
  tapHist : List (Nat × Nat) := []
  deriving DecidableEq, Repr

/-! ### Triggers, gates and time (chapters 7 and 9) -/

/-- A timed trigger pending in the belfry (R175): its time in the active domain's time, in ticks. -/
structure TimedTrig where
  time : Int
  glean : Bool
  level : Nat
  pre : Nat
  post : Nat
  path : Nat
  deriving DecidableEq, Repr

/-- A timed gate window queued (R181): open and close in the active domain's time, in taps; the module tap-times it
was sent to the tiles with, once sent. -/
structure GateWindow where
  opens : Int
  closes : Int
  sent : Option (Nat × Nat)
  deriving DecidableEq, Repr

/-- A gate pin: the level accepted, the level on the pin, and the first crossing of a change that has not held for
MIN_T yet, in ticks (R179). -/
structure GatePin where
  level : Bool := true
  raw : Bool := true
  since : Option Nat := none
  deriving DecidableEq, Repr

/-- Trigger and gate state of the belfry that no register holds. -/
structure TrigSt where
  /-- the last accepted edge of TRIG_A and TRIG_B, in ticks -/
  lastA : Option Nat := none
  lastB : Option Nat := none
  /-- pin triggers not yet delivered: source and time in ticks -/
  pins : List (Nat × Nat) := []
  timed : List TimedTrig := []
  /-- timed triggers whose frame has ended, with their module time -/
  due : List (Nat × TimedTrig) := []
  /-- the next frame whose triggers are to be delivered -/
  nextFrame : Nat := 0
  windows : List GateWindow := []
  /-- opens and closes of the windows sent, in taps, whose frame has not ended (R182) -/
  edges : List (Nat × Bool) := []
  marks : List GateMark := []
  gateA : GatePin := {}
  gateB : GatePin := {}
  /-- re-send requests to deliver at the next boundary: first sheaf number and count -/
  resends : List (Nat × Nat) := []
  deriving DecidableEq, Repr

/-- Lock counting of an Umauf port (R232): its clock recovery, good markers in a row, bad ones in a row, the time that the
last superframe's marker carried or would have carried. -/
structure PortLock where
  cdr : Bool := false
  good : Nat := 0
  bad : Nat := 0
  last : Option Nat := none
  deriving DecidableEq, Repr

/-- A domain switch accepted or scheduled (R242, R243): target, boundary frame, automatic. -/
structure PendSwitch where
  target : Bool
  frame : Nat
  auto : Bool
  deriving DecidableEq, Repr

/-- The timing core's state that no register holds. ACC_0, ACC_1 and SPLICE are in 2^-20 tick, epochs included. -/
structure TimeSt where
  acc0 : Int := 0
  acc1 : Int := 0
  splice : Int := 0
  lock0 : PortLock := {}
  lock1 : PortLock := {}
  pendSwitch : Option PendSwitch := none
  /-- an automatic switch whose range conditions failed is checked again at every boundary (R243) -/
  recheck : Bool := false
  /-- a splice slew runs (R246) -/
  splRun : Bool := false
  /-- module time at which holdover was entered (R247) -/
  holdFrom : Option Nat := none
  /-- frames began by timeout, and the active domain has not brought SPLICE below 1 tick since acquiring (R239) -/
  byTimeout : Bool := false
  /-- the first frame -/
  first : Nat := 0
  /-- the HI words latched by reads of their LO words (R186), by register address -/
  latched : List (Nat × Word) := []
  /-- LO words of INC and SLEW_INC written since their HI word (R236), by register address, with the value that stays in
  force until it is written -/
  lo : List (Nat × Word) := []
  deriving DecidableEq, Repr

/-- A stick command accepted and not yet answered for good (R270): a STICK command or a write of CMD.GO. -/
structure StickCmd where
  op : Nat
  target : Bool
  /-- it came by a write of CMD, which has been answered -/
  isWrite : Bool
  /-- PORT of R388, the master, and the tag of its answer -/
  port : Nat
  master : Nat
  tag : Byte
  digest : Nat
  time : Nat
  deriving DecidableEq, Repr

/-- The arbiter's state that no register holds (R265-R272): the lease deadline in T_ref, the end of GUARD, the grant
that targets GUARD's end, whether GUARD ends in NONE without automatic grant, the former holder, and the commands
accepted for the next boundary. -/
structure StickSt where
  deadline : Nat := 0
  guardEnd : Nat := 0
  target : Option StickCmd := none
  noAuto : Bool := false
  former : Conc := .a
  cmds : List StickCmd := []
  deriving DecidableEq, Repr

/-- A scrub pass in progress (R330): memory, next and last word, and since when the next has waited. -/
structure ScrubRun where
  mem : Nat
  next : Nat
  last : Nat
  since : Nat := 0
  deriving DecidableEq, Repr

/-- A scrub write-back remembered (R333): page, region, address, time in T_ref. -/
structure WriteBack where
  page : Nat
  region : Nat
  addr : Nat
  time : Nat
  deriving DecidableEq, Repr

/-- Data integrity's further state: when each region's bucket leaked last, by page × 64 + region (R326), the poisoned words of
MRAM (R329), and the concentrators whose self-test failed at their last reset (R324). -/
structure IntegSt where
  leaks : List (Nat × Nat) := []
  mramPoison : List Nat := []
  failed : List Conc := []
  deriving DecidableEq, Repr

/-! ### Calibration (chapter 8) -/

/-- The sums the engine keeps for a channel since the last swap of its tile (R211); `levels` counts by level index. -/
structure CalSums where
  n : Nat := 0
  u : Rat := 0
  t : Rat := 0
  uu : Rat := 0
  ut : Rat := 0
  tt : Rat := 0
  res : Rat := 0
  ures : Rat := 0
  tres : Rat := 0
  resres : Rat := 0
  d : Rat := 0
  levels : List (Nat × Nat) := []
  deriving DecidableEq, Repr

/-- An injection launched and not yet judged (R220): channel, launch tap-time, and the leading tap-time and hold-off of its
hit once that has passed. -/
structure Launch where
  chan : Nat
  launch : Nat
  hit : Option (Nat × Nat)
  deriving DecidableEq, Repr

/-- The engine's results for a tile (R204-R213): tap positions where refitted, TAC map entries, correction entries, the
channels whose fits were accepted. -/
structure CalResult where
  tile : Fin 16
  taps : List (Nat × Nat)
  tac : List (Nat × Word)
  corr : List (Nat × BitVec 128)
  accepted : List Nat
  deriving DecidableEq, Repr

/-- A swap requested and not yet in effect (R215). -/
structure PendingSwap where
  tile : Fin 16
  frame : Nat
  byHost : Bool
  restoring : Bool
  committed : Bool
  /-- its tile installs nothing (R215) -/
  quiet : Bool
  deriving DecidableEq, Repr

/-- The calibration engine. The tile in turn is SWAP_STAT.TILE. -/
structure CalSt where
  /-- a turn accumulates, and the module time at which it began (R202-R204) -/
  turnOn : Bool := false
  turnFrom : Nat := 0
  /-- results of ended turns that wait for staging (R214, R216), oldest first, and those that are staged -/
  results : List CalResult := []
  staged : Option CalResult := none
  swap : Option PendingSwap := none
  sums : List (Nat × CalSums) := []
  launches : List Launch := []
  cdead : List (Nat × Nat) := []
  chCal : List (Nat × Word) := []
  /-- tiles still to be swapped in warm-up (R222) -/
  warm : List (Fin 16) := []
  /-- blocks with a FIRE pending, by page, and the frame it launches in (R45) -/
  fires : List (Nat × Nat) := []
  /-- former values of RING, newest first, each with the frame from which it was replaced (R208, R211) -/
  ringOld : List (Nat × Word) := []
  deriving DecidableEq, Repr

/-! ### The environmental monitor (chapter 16) -/

/-- An excitation as applied (R420, R433): mode, level, frequency, phase and pin; fields that a mode does not use are 0. -/
structure Excitation where
  mode : Nat := 0
  level : Nat := 0
  freq : Nat := 0
  phase : Nat := 0
  pin : Nat := 0
  deriving DecidableEq, Repr

/-- A visit of an entry (R431): its settings as taken at its beginning (R434); whether the switching still runs;
conversion periods still without result, results still to deliver, periods whose results are STALE (R433); and whether its
reference failed in the period in progress. -/
structure Visit where
  entry : Nat
  urgent : Bool
  xp : Word
  conv : Word
  exc : Word
  switching : Bool
  flush : Nat
  left : Nat
  aged : Nat
  refLost : Bool
  deriving DecidableEq, Repr

/-- A source of an interlock output (R435, R436): its latest valid value, and the time of that or, before the first, of
its becoming the source. -/
structure IlkSource where
  entry : Nat
  value : Option Int
  since : Nat
  deriving DecidableEq, Repr

/-- The monitor's state that no register holds: the visit in progress, the next entry of the pass, an aborted entry that
restarts, due urgent entries, the settings of the last visit and its excitation, the periods since the last change that were
still to be STALE as that visit ended (R433), the XP, CONV and EXC words that each entry took last (R434), entries whose EXC or
CONV have been written since the last boundary, and the outputs' sources, none while disabled. -/
structure MonSt where
  visit : Option Visit := none
  next : Nat := 0
  aborted : Option Nat := none
  due : List Nat := []
  /-- POS, NEG, GAIN, RATE and REF of the last visit -/
  last : Option (Nat × Nat × Nat × Nat × Nat) := none
  applied : Excitation := {}
  aged : Nat := 0
  taken : List (Nat × Word × Word × Word) := []
  touched : List Nat := []
  ilkA : Option (List IlkSource) := none
  ilkB : Option (List IlkSource) := none
  deriving DecidableEq, Repr

/-! ### Umauf and the journal (chapters 14 and 15) -/

/-- A journal entry (R388) with its time in T_ref. -/
structure JEntry where
  seq : Nat
  time : Nat
  port : Nat
  master : Nat
  code : Nat
  result : Nat
  page : Nat
  off : Nat
  digest : Nat
  aux : Nat
  poison : Bool
  deriving DecidableEq, Repr

/-- A result fragment queued on a port (R373), or the place of one whose result is not known yet (R374). -/
structure Frag where
  tag : Byte
  frag : Nat
  last : Bool
  words : List Word
  held : Bool := false
  deriving DecidableEq, Repr

/-- A peal being assembled, pending or committed (R382-R385): writes as (INDEX, write); the activation frame; acceptance
of its PEAL_BEGIN or PEAL_END; units that reached commitment staged. -/
structure Peal where
  port : Um
  master : Byte
  epoch : Nat
  count : Nat
  frame : Nat
  writes : List (Nat × PWrite)
  time : Nat
  deriving DecidableEq, Repr

/-- An Umauf port's state that no register holds. -/
structure UmSt where
  results : List Frag := []
  /-- a REGISTER waits for its status message (R376) -/
  statusDue : Bool := false
  /-- result blocks sent since the last event block (R374) -/
  sinceEvent : Nat := 0
  /-- grants for the burst slots to come: discovery or not, START, and how many blocks (R371) -/
  granted : List (Bool × Nat × Nat) := []
  /-- discovery grants still to let pass; `none` after the answer (R375) -/
  skip : Option Nat := none
  /-- module time of the discovery answer -/
  answered : Option Nat := none
  /-- module time since which lock has been lost -/
  lostFrom : Option Nat := none
  /-- the last burst sent (R372): its blocks, 32 data bytes and 4 check bytes each, and its start in upstream UI from
  2048 T_ref after the sync word of the frame with its grant -/
  burst : List (List Byte) := []
  burstFrom : Nat := 0
  asm : Option Peal := none
  deriving DecidableEq, Repr

/-! ### Images, power and the test port (chapters 17-19) -/

/-- An image in a slot (R447, R448): its 160 header bytes and its body. -/
structure Image where
  header : List Byte
  body : List Byte
  deriving DecidableEq, Repr

/-- A transfer in progress (R450, R451): its class, K or C, the image as received, and the time of its last command. -/
structure Transfer where
  isK : Bool
  image : Image
  last : Nat
  deriving DecidableEq, Repr

/-- A copy of the persisted settings (R447, R455): registers, recorded staged values and window writes, JOURNAL_SEQ by page,
the peal epoch, and the schema. -/
structure Settings where
  regs : List (Nat × Word)
  staged : List (Nat × Word)
  tac : List (Nat × Word)
  corr : List (Nat × BitVec 128)
  jseq : List (Nat × Nat)
  epoch : Nat
  schema : Nat
  deriving DecidableEq, Repr

/-- The steps of R454 that the copy record lists: the current image copied to the previous slot, the staged image to the current
slot, and the staged slot emptied. -/
inductive CopyStep where
  | previous | current | emptied
  deriving DecidableEq, Repr

/-- What MRAM holds of images (R447): the three slots of each class, the classes in trial and the starts, a trial that
failed and waits for the next start, the committed settings while a class C trial runs on a copy of its own, the
authentication key where a commit replaced it, the copy record with the class copied last (R454), and a transfer in progress.
The calibration tables are in MRAM too. -/
structure FwuSt where
  cCur : Option Image := none
  cPrev : Option Image := none
  cStg : Option Image := none
  kCur : Option Image := none
  kPrev : Option Image := none
  kStg : Option Image := none
  trial : List Bool := []
  starts : Nat := 0
  failed : Option (Bool × Nat) := none
  committed : Option Settings := none
  schema : Nat := 1
  /-- the schema with which the tables of each tile in MRAM were written (R222) -/
  tables : List (Nat × Nat) := []
  authKey : Option (BitVec 128) := none
  copied : Option (Bool × List CopyStep) := none
  xfer : Option Transfer := none
  deriving DecidableEq, Repr

/-- Whether the module runs: no input power, stopped by the belfry's temperature (R466), held by RESET_N (R474), at step 1
of R470, or past it. -/
inductive ModPower where
  | off | hot | held | starting | on
  deriving DecidableEq, Repr

/-- Power as no register holds it: RESET_N is low; the cause of the next start; the last stop was an undervoltage, or a
fault of the bus or of the belfry's converter; the rails of the concentrators; the dies that wait to recover (R466); tile groups
powered (R471); a restart that waits until so many results have left a port (R449). -/
structure PowSt where
  mode : ModPower := .starting
  resetLow : Bool := false
  cause : Nat := 0
  uvlo : Bool := false
  busFault : Bool := false
  belfryFault : Bool := false
  railA : Bool := false
  railB : Bool := false
  hot : List Die := []
  groups : Nat := 0
  restartOn : Option (Um × Nat) := none
  deriving DecidableEq, Repr

/-- The controller states of IEEE 1149.1. -/
inductive TapState where
  | testLogicReset | runTest | selectDr | captureDr | shiftDr | exit1Dr | pauseDr | exit2Dr | updateDr
  | selectIr | captureIr | shiftIr | exit1Ir | pauseIr | exit2Ir | updateIr
  deriving DecidableEq, Repr

/-- The test port (R491): controller, instruction, instruction shift register, the bypass bit, the boundary shift register
with cell 0 least significant, its update latches, and TDO while it is driven. -/
structure TapSt where
  state : TapState := .testLogicReset
  ir : BitVec 4 := 0xF
  irShift : BitVec 4 := 0
  bypass : Bool := false
  shift : BitVec 17 := 0
  latch : BitVec 17 := 0
  tdo : Option Bool := none
  deriving DecidableEq, Repr

/-- A register write accepted that acts at the next boundary (R404): its 1s written to WP, WO and RW1C fields or to
SW_CTRL.GO, and the channel that a window of CALS served, or the sheaf number that SW_AT held, when it was written. -/
structure PendWrite where
  page : Nat
  off : Nat
  value : Word
  chan : Nat
  deriving DecidableEq, Repr

/-- The module. -/
structure State where
  /-- module time in T_ref since epoch 0, not wrapping (R226, R227); `frame` is the data frame in progress -/
  now : Nat
  frame : Nat
  /-- frames are running (R231) -/
  running : Bool
  /-- every register at its stored value, keyed by its address; an unlisted one holds its reset value -/
  regs : List (Nat × Word)
  /-- the value in force of registers whose stored value waits for the next boundary (R404, R405) -/
  stale : List (Nat × Word)
  pendW : List PendWrite
  /-- pages queued for event frames, and whether each has been sent on UM0 and on UM1 (R374) -/
  eventQ : List (Nat × Bool × Bool)
  chans : List (Nat × Chan)
  tiles : Vector Tile 16
  /-- TAC_MAP of every channel in force, and staged (R77, R70); the entries poisoned in their store (R328) -/
  tac : List (Nat × Word)
  tacStaged : List (Nat × Word)
  tacPoison : List Nat
  /-- staged values of other RWS registers, by register address (R406) -/
  rwsStaged : List (Nat × Word)

  /-- the concentrators, and what the belfry has told them of the frames not yet formed by both -/
  concA : ConcSt
  concB : ConcSt
  frames : List (Nat × FrameInfo)
  trig : TrigSt
  time : TimeSt
  /-- the address of each region's previous corrected read (R326), by page × 64 + region -/
  lastCorr : List (Nat × Nat)
  /-- the scrub passes in progress by page, and the last 256 write-backs of each scrubber, newest first -/
  scrubs : List (Nat × ScrubRun)
  writeBacks : List WriteBack
  integ : IntegSt
  stick : StickSt
  cal : CalSt
  mon : MonSt
  fwu : FwuSt
  pow : PowSt
  tap : TapSt
  um0 : UmSt
  um1 : UmSt
  /-- the pending or committed peal (R383) -/
  peal : Option Peal
  /-- frames from which MIXED is set (R386), not yet begun -/
  mixedFrom : List Nat
  /-- unlock windows: page and the frame whose boundary ends it (R407) -/
  unlocks : List (Nat × Nat)
  /-- the journal, newest first (R387, R389) -/
  journal : List JEntry
  /-- the belfry's record of persisted settings: RW and RWL values of every page by register address (R409) -/
  saved : List (Nat × Word)
  /-- RWS values recorded for tiles that are OFF, and CORR window writes since the last swap (R277, R409) -/
  savedStaged : List (Nat × Word)
  savedTac : List (Nat × Word)
  /-- JOURNAL_SEQ by page, kept with the settings (R390), and the peal epoch -/
  jseq : List (Nat × Nat)
  savedEpoch : Nat
  savedCorr : List (Nat × BitVec 128)
  /-- the tables in force as MRAM holds them (R219): correction entries, TAC maps, tap positions by tile × 64 + k -/
  mramCorr : List (Nat × BitVec 128)
  mramTac : List (Nat × Word)
  mramTap : List (Nat × Nat)
  /-- how many free values have been drawn (the model's own field) -/
  freeCount : Nat
  /-- the commands waiting, first in first out -/
  pending : List Instr
  deriving DecidableEq, Repr

/-- The header of the images that the model's unit begins with: VERSION 1, SCHEMA 1 and the DIGEST of an empty body, the rest zero
(assumption 9). -/
def factoryHeader : List Byte :=
  List.replicate 19 0 ++ [1, 0, 1] ++ List.replicate 6 0 ++ (
    [0xCF, 0x83, 0xE1, 0x35, 0x7E, 0xEF, 0xB8, 0xBD, 0xF1, 0x54, 0x28, 0x50, 0xD6, 0x6D, 0x80, 0x07] ++
    [0xD6, 0x20, 0xE4, 0x05, 0x0B, 0x57, 0x15, 0xDC, 0x83, 0xF4, 0xA9, 0x21, 0xD3, 0x6C, 0xE9, 0xCE] ++
    [0x47, 0xD0, 0xD1, 0x3C, 0x5D, 0x85, 0xF2, 0xB0, 0xFF, 0x83, 0x18, 0xD2, 0x87, 0x7E, 0xEC, 0x2F] ++
    [0x63, 0xB9, 0x31, 0xBD, 0x47, 0x41, 0x7A, 0x81, 0xA5, 0x38, 0x32, 0x7A, 0xF9, 0x27, 0xDA, 0x3E]) ++
  List.replicate 68 0

/-- The image that the unit is delivered with, of either class; a class K image of no sections (assumption 9). -/
def Image.factory : Image := { header := factoryHeader, body := [] }

/-- The module right after reset: at step 1 of R470, every register at its reset value, every memory empty. -/
def State.reset : State where
  now := 0
  frame := 0
  running := false
  regs := []
  stale := []
  pendW := []
  eventQ := []
  chans := []
  tiles := Vector.replicate 16 {}
  tac := []
  tacStaged := []
  tacPoison := []
  rwsStaged := []
  concA := {}
  concB := {}
  frames := []
  trig := {}
  time := {}
  lastCorr := []
  scrubs := []
  writeBacks := []
  integ := {}
  stick := {}
  cal := {}
  mon := {}
  fwu := { cCur := some Image.factory, kCur := some Image.factory }
  pow := {}
  tap := {}
  um0 := {}
  um1 := {}
  peal := none
  mixedFrom := []
  unlocks := []
  journal := []
  saved := []
  savedStaged := []
  savedTac := []
  jseq := []
  savedEpoch := 0
  savedCorr := []
  mramCorr := []
  mramTac := []
  mramTap := []
  freeCount := 0
  pending := []

end Sys2Proof.Machine
end

