-- ==== Sys2Proof/Machine/Flags.lean ====
section
/-!
DEFINITION. The register file: stored values, values in force, hardware writes of fields, counters with their
COUNTER_OVF bits (R336), event bits and the event queue (R374, R403).
-/

namespace Sys2Proof.Machine

/-- The stored value of a register. -/
def State.rd (s : State) (page off : Nat) : Word := mapGetD (regReset (regKey page off)) (regKey page off) s.regs

/-- The register file with a register's stored value replaced. -/
def regsPut (regs : List (Nat × Word)) (page off : Nat) (v : Word) : List (Nat × Word) :=
  mapPutD (regReset (regKey page off)) (regKey page off) v regs

/-- The state with a register's stored value replaced; the value in force follows. -/
def State.wr (s : State) (page off : Nat) (v : Word) : State := { s with regs := regsPut s.regs page off v }

/-- The value in force of a register: a write stands in the register from acceptance (R405) and acts from the
boundary at which it takes effect (R404). -/
def State.live (s : State) (page off : Nat) : Word := (mapFind (regKey page off) s.stale).getD (s.rd page off)

/-- A field in force. -/
def State.fld (s : State) (page : Nat) (f : FieldRef) : Nat := fieldGet f (s.live page f.off)

/-- A field's stored value. -/
def State.stored (s : State) (page : Nat) (f : FieldRef) : Nat := fieldGet f (s.rd page f.off)

/-- A one-bit field in force. -/
def State.flag (s : State) (page : Nat) (f : FieldRef) : Bool := s.fld page f != 0

/-- The hardware writes a field: in the stored value, and in the value in force where a write is waiting. -/
def State.put (s : State) (page : Nat) (f : FieldRef) (v : Nat) : State :=
  { s with
    regs := regsPut s.regs page f.off (fieldPut f v (s.rd page f.off))
    stale := match mapFind (regKey page f.off) s.stale with
      | some w => mapPut (regKey page f.off) (fieldPut f v w) s.stale
      | none => s.stale }

/-- The hardware writes a one-bit field. -/
def State.putB (s : State) (page : Nat) (f : FieldRef) (b : Bool) : State := s.put page f b.toNat

/-- Sets a bit of COUNTER_OVF. -/
def State.overflow (s : State) (page bit : Nat) : State :=
  s.wr page Reg.HDR.COUNTER_OVF.off (s.rd page Reg.HDR.COUNTER_OVF.off ||| BitVec.ofNat 32 (2 ^ bit))

/-- Adds n to a saturating counter; a count that would pass its maximum stays there and sets its COUNTER_OVF bit
(R336). -/
def State.bump (s : State) (page : Nat) (f : FieldRef) (bit : Nat) (n : Nat := 1) : State :=
  if s.stored page f + n < 2 ^ (f.hi - f.lo + 1) then s.put page f (s.stored page f + n)
  else (s.put page f (2 ^ (f.hi - f.lo + 1) - 1)).overflow page bit

/-- A 64-bit saturating counter held as a LO and a HI word (R186). -/
def State.bump64 (s : State) (page : Nat) (lo hi : FieldRef) (bit n : Nat) : State :=
  let v := s.stored page hi * 2 ^ 32 + s.stored page lo + n
  if v < 2 ^ 64 then (s.put page lo (v % 2 ^ 32)).put page hi (v / 2 ^ 32)
  else ((s.put page lo (2 ^ 32 - 1)).put page hi (2 ^ 32 - 1)).overflow page bit

/-- Adds n to a wrapping value (R337). -/
def State.bumpWrap (s : State) (page : Nat) (f : FieldRef) (n : Nat := 1) : State :=
  s.put page f (s.stored page f + n)

/-- Raises a peak or level field to at least v (R337). -/
def State.peak (s : State) (page : Nat) (f : FieldRef) (v : Nat) : State :=
  if s.stored page f < v then s.put page f (min v (2 ^ (f.hi - f.lo + 1) - 1)) else s

/-- Queues a page for an event frame; a page holds at most one place (R374), and is queued only while its
CTRL.EVT_ON is 1 (R403). -/
def State.queueEvent (s : State) (page : Nat) : State :=
  if s.flag page Reg.HDR.CTRL_EVT_ON && !s.eventQ.any (fun e => e.1 == page) then
    { s with eventQ := s.eventQ ++ [(page, false, false)] } else s

/-- Sets an event bit; its rise while the enable bit is 1 queues the page (R374). -/
def State.event (s : State) (page bit : Nat) : State :=
  if (s.rd page Reg.HDR.EVT_PENDING.off).getLsbD bit then s
  else
    let t := s.wr page Reg.HDR.EVT_PENDING.off (s.rd page Reg.HDR.EVT_PENDING.off ||| BitVec.ofNat 32 (2 ^ bit))
    if (s.live page Reg.HDR.EVT_ENABLE.off).getLsbD bit then t.queueEvent page else t

/-- Sets an event bit where a condition holds. -/
def State.eventIf (s : State) (c : Bool) (page bit : Nat) : State := if c then s.event page bit else s

end Sys2Proof.Machine
end

