-- ==== Sys2Proof/Machine/Ops.lean ====
section
/-!
DEFINITION. Page numbers (R397), accessors of the units' state, time and sheaf arithmetic (R3, R228), the tillers'
power states (R16-R18, R402) and free values.
-/

namespace Sys2Proof

/-- The other of two, and the number of each. -/
def Conc.other : Conc → Conc | .a => .b | .b => .a
def Conc.idx : Conc → Nat | .a => 0 | .b => 1
def Um.other : Um → Um | .um0 => .um1 | .um1 => .um0
def Um.idx : Um → Nat | .um0 => 0 | .um1 => 1
def Um.isOne : Um → Bool | .um0 => false | .um1 => true
def Pin.idx : Pin → Nat | .a => 0 | .b => 1

end Sys2Proof

namespace Sys2Proof.Machine

/-! ### Pages -/

def pgMOD : Nat := 0x0000
def pgPWR : Nat := 0x0001
def pgTIME : Nat := 0x0002
def pgSTICK : Nat := 0x0007
def pgJRNL : Nat := 0x0008
def pgMONX : Nat := 0x0009
def pgMADC : Nat := 0x000A
def pgILK : Nat := 0x000B
def pgFWU : Nat := 0x000C
def pgINTG : Nat := 0x000D
def pgTRIG : Nat := 0x000E
def pgCALS : Nat := 0x000F
/-- TIME_D0 or TIME_D1, and UM0 or UM1. -/
def pgTIMED (u : Um) : Nat := match u with | .um0 => 3 | .um1 => 4
def pgUM (u : Um) : Nat := match u with | .um0 => 5 | .um1 => 6
/-- The first page of a concentrator. -/
def pgConc (c : Conc) : Nat := match c with | .a => 0x100 | .b => 0x200
def pgMERGE (c : Conc) : Nat := pgConc c
def pgCORR (c : Conc) : Nat := pgConc c + 1
def pgSHEAF (c : Conc) : Nat := pgConc c + 2
def pgGLEAN (c : Conc) : Nat := pgConc c + 3
def pgDRAM (c : Conc) : Nat := pgConc c + 4
def pgDTRAIN (c : Conc) : Nat := pgConc c + 5
def pgDINTG (c : Conc) : Nat := pgConc c + 6
def pgLANES (c : Conc) : Nat := pgConc c + 7
def pgSTEP (c : Conc) : Nat := pgConc c + 8
def pgLANE (c : Conc) (l : Nat) : Nat := pgConc c + 0x10 + l
def pgTILE (t : Nat) : Nat := 0x1000 + 0x100 * t
def pgTDC (t : Nat) : Nat := pgTILE t + 1
def pgAFE (t : Nat) : Nat := pgTILE t + 2
def pgPORTS (t : Nat) : Nat := pgTILE t + 3
def pgBLOCK (t b : Nat) : Nat := pgTILE t + 0x10 + b
/-- The concentrators, the Umauf ports, the tiles. -/
def concs : List Conc := [.a, .b]
def ums : List Um := [.um0, .um1]
def allTiles : List (Fin 16) := List.finRange 16

/-! ### Channel indices (R10, R12) -/

/-- Tile, block, cell, and channel-in-tile of a channel index. -/
def chTile (chan : Nat) : Fin 16 := ⟨chan / 4096 % 16, Nat.mod_lt _ (by decide)⟩
def chBlock (chan : Nat) : Nat := chan / 256 % 16
def chCell (chan : Nat) : Nat := chan / 16 % 16
def chInTile (chan : Nat) : Nat := chan % 4096
/-- The block page of a channel, and the cell among the 256 of its tile. -/
def chPage (chan : Nat) : Nat := pgBLOCK (chan / 4096 % 16) (chBlock chan)
def cellInTile (chan : Nat) : Nat := chan / 16 % 256

/-! ### Units -/

def State.chan (s : State) (c : Nat) : Chan := mapGetD {} c s.chans
def State.setChan (s : State) (c : Nat) (v : Chan) : State := { s with chans := mapPutD {} c v s.chans }
def State.tile (s : State) (t : Fin 16) : Tile := s.tiles[t]
def State.setTile (s : State) (t : Fin 16) (v : Tile) : State := { s with tiles := s.tiles.set t v }
def Tile.port (t : Tile) : Conc → Port | .a => t.portA | .b => t.portB
def Tile.setPort (t : Tile) (c : Conc) (p : Port) : Tile :=
  match c with | .a => { t with portA := p } | .b => { t with portB := p }
def State.port (s : State) (t : Fin 16) (c : Conc) : Port := (s.tile t).port c
def State.setPort (s : State) (t : Fin 16) (c : Conc) (p : Port) : State := s.setTile t ((s.tile t).setPort c p)

def State.conc (s : State) : Conc → ConcSt | .a => s.concA | .b => s.concB
def State.setConc (s : State) (c : Conc) (v : ConcSt) : State :=
  match c with | .a => { s with concA := v } | .b => { s with concB := v }
def State.rx (s : State) (c : Conc) (t : Fin 16) : Rx := (s.conc c).rx[t]
def State.setRx (s : State) (c : Conc) (t : Fin 16) (r : Rx) : State :=
  s.setConc c { s.conc c with rx := (s.conc c).rx.set t r }

/-- Applies a function for each element of a list in turn. -/
def State.each {α : Type} (l : List α) (f : State → α → State) (s : State) : State := l.foldl f s

/-! ### Time -/

/-- T_ref of a frame, taps of a T_ref, ticks of a T_ref (R2). -/
def frameTref : Nat := 4096
def trefTaps : Nat := 64
def trefTicks : Nat := 4096
/-- T_ref in a microsecond and in a millisecond: 640 MHz. -/
def usTref : Nat := 640
def msTref : Nat := 640000

/-- The frame that a tap-time, and that a time in T_ref, lies in. -/
def frameOfTap (t : Nat) : Nat := t / (trefTaps * frameTref)
def frameOfTref (t : Nat) : Nat := t / frameTref
/-- The sheaf number of a frame (R3), its starting coarse time and its epoch (R227). -/
def sheafOf (f : Nat) : Nat := f % 2 ^ 32
def frameCoarse (f : Nat) : Nat := f * frameTref % 2 ^ 48
def epochOf (tref : Nat) : Nat := tref / 2 ^ 48 % 2 ^ 16
def coarseOf (tref : Nat) : Nat := tref % 2 ^ 48

/-- The difference a − b of two n-bit values by R228: below 2^(n−1) positive, otherwise negative. -/
def signedDiff (n a b : Nat) : Int := signedOf n (unsignedOf n ((a : Int) - (b : Int)))

/-- The frame nearest to `f` that has the 32-bit sheaf number `x` (R228); it may lie before the first of all. -/
def sheafNear (f x : Nat) : Int := (f : Int) + signedDiff 32 x (sheafOf f)
/-- The same, for a sheaf that does not lie before frame 0. -/
def frameOfSheaf (f x : Nat) : Nat := (sheafNear f x).toNat

/-- The time in T_ref nearest to `t` that has the 48-bit coarse count `c` (R228, R229). -/
def trefOfCoarse (t : Int) (c : Nat) : Int := t + signedDiff 48 c (unsignedOf 48 t)

/-- Module time moves forward to `t`. -/
def State.advance (s : State) (t : Nat) : State := { s with now := max s.now t }

/-! ### Power states (R16-R18, R402) -/

/-- PWR_STATE.STATE and CEIL of a primary page: 0 OFF, 1 KEEP, 2 LISTEN, 3 RUN. -/
def State.pwr (s : State) (page : Nat) : Nat := s.stored page Reg.HDR.PWR_STATE_STATE
def State.ceil (s : State) (page : Nat) : Nat := s.fld page Reg.HDR.PWR_STATE_CEIL

/-- The primary page of the tiller that owns a page (R402): belfry pages belong to the module. -/
def ownerPage (page : Nat) : Nat :=
  if page < 0x100 then pgMOD
  else if page < 0x200 then pgMERGE .a
  else if page < 0x300 then pgMERGE .b
  else if page % 256 < 0x10 then page / 256 * 256 else page

/-- The primary page of the parent of a tiller (R18). -/
def parentPage (page : Nat) : Option Nat :=
  if page = pgMOD then none
  else if page < 0x1000 then some pgMOD
  else if page % 256 = 0 then some pgMOD else some (page / 256 * 256)

/-- The ceiling that a tiller's own and its ancestors' ceilings leave it (R17, R18). -/
def State.effCeil (s : State) (page : Nat) : Nat :=
  match parentPage page with
  | none => s.ceil page
  | some p => match parentPage p with
    | none => min (s.ceil page) (s.ceil p)
    | some q => min (s.ceil page) (min (s.ceil p) (s.ceil q))

/-- A tiller in LISTEN moves to RUN with its first work, as its ceiling allows (R17). -/
def State.wake (s : State) (page : Nat) : State :=
  if s.pwr page = 2 ∧ s.effCeil page = 3 then s.put page Reg.HDR.PWR_STATE_STATE 3 else s

/-- The start-up step (R470). -/
def State.step470 (s : State) : Nat := s.stored pgPWR Reg.PWR.STARTUP_STEP

/-- The tables that MRAM holds of a tile serve it (R222, R472): calibration warm-up has begun, and has dealt with the tile. -/
def State.tablesServe (s : State) (t : Nat) : Bool := decide (11 ≤ s.step470) && !s.cal.warm.any (fun x => x.val == t)

/-! ### Free values -/

/-- Draws a value the manual leaves open: an uninterpreted number, fresh at every draw (assumption 3). -/
def State.draw (s : State) : Nat × State :=
  (Config.freeValue s.freeCount, { s with freeCount := s.freeCount + 1 })

end Sys2Proof.Machine
end

