-- ==== Sys2Proof/Machine/Integrity.lean ====
section
/-!
DEFINITION. Corrected and uncorrectable reads: error counts, leaky buckets (R326, R327), poison counts (R329), and
the registers' bits for them (R342, R344). `page` is a concentrator's DINTG page or the INTG page.
-/

namespace Sys2Proof.Machine

/-- A list without repeats takes an element. -/
def insertNew {α : Type} [BEq α] (x : α) (l : List α) : List α := if l.contains x then l else x :: l

/-- A register of a region's bucket, 16 bytes per region (R340). -/
def regionReg (f : FieldRef) (r : Nat) : FieldRef := f.nth r 16

/-- The COUNTER_OVF and EVT_PENDING bit of a region: its own on a DINTG page and below region 4 of INTG, and
4 + t for both regions of tile t (R342, R344). -/
def regionBit (page r : Nat) : Nat := if page = pgINTG then (if r < 4 then r else 4 + (r - 4) % 16) else r

/-- The level rises or THRESH falls: the bucket passes where the level now stands above the threshold and did not
(R327). -/
def State.bucketPass (s : State) (page r : Nat) (before : Bool) : State :=
  s.eventIf (!before && decide (s.fld page (regionReg Reg.DINTG.BKT_THRESH r) <
    s.stored page (regionReg Reg.DINTG.BKT_LEVEL r))) page (regionBit page r)

/-- The bucket of a region stands passed (R327). -/
def State.bucketPassed (s : State) (page r : Nat) : Bool :=
  decide (s.fld page (regionReg Reg.DINTG.BKT_THRESH r) < s.stored page (regionReg Reg.DINTG.BKT_LEVEL r))

/-! ### Sticky words and spares (R333, R334) -/

/-- Fault entry n of a page, and the entry a sticky word already has (R333). -/
def State.faultHolds (s : State) (page r addr n : Nat) : Bool :=
  s.flag page (Reg.DINTG.FAULT1_VALID.nth n 8) && decide (s.stored page (Reg.DINTG.FAULT0_ADDR.nth n 8) = addr) &&
    decide (s.stored page (Reg.DINTG.FAULT1_REGION.nth n 8) = r)
def State.findFault (s : State) (page r addr : Nat) : Option Nat :=
  (List.range 64).find? (fun n => s.faultHolds page r addr n)
def State.freeFault (s : State) (page : Nat) : Option Nat :=
  (List.range 64).find? (fun n => !s.flag page (Reg.DINTG.FAULT1_VALID.nth n 8))
def State.freeSpare (s : State) (page : Nat) : Option Nat :=
  (List.range 32).find? (fun k => !s.flag page (Reg.DINTG.REMAP_USED.nth k) && !s.flag page (Reg.DINTG.REMAP_BAD.nth k))
/-- The spare that serves an address. -/
def State.spareOf (s : State) (page addr : Nat) : Option Nat :=
  (List.range 32).find? (fun k => s.flag page (Reg.DINTG.REMAP_USED.nth k) &&
    decide (s.stored page (Reg.DINTG.REMAP_ADDR.nth k) = addr))

/-- REMAP_STAT: entries and spares in use (R340). -/
def State.showRemap (s : State) (page : Nat) : State :=
  let n := ((List.range 64).filter (fun n => s.flag page (Reg.DINTG.FAULT1_VALID.nth n 8))).length
  let b := ((List.range 32).filter (fun k => s.flag page (Reg.DINTG.REMAP_BAD.nth k))).length
  let u := ((List.range 32).filter (fun k => s.flag page (Reg.DINTG.REMAP_USED.nth k))).length
  ((s.put page Reg.DINTG.REMAP_STAT_FAULTS n).put page Reg.DINTG.REMAP_STAT_BAD b).put page Reg.DINTG.REMAP_STAT_USED u

/-- Only a correction table and the journal SRAM have spares (R334). -/
def remappable (page r : Nat) : Bool := if page = pgINTG then r == 1 else r == 0

/-- A sticky word is directed to a free spare; the spare it had is marked bad. Answers the new spare (R334). -/
def State.remapWord (s : State) (page r addr : Nat) : Option Nat × State :=
  if !remappable page r then (none, s)
  else
    match s.freeSpare page with
    | none => (none, s.event page 27)
    | some k =>
      let s := match s.spareOf page addr with
        | some j => (s.putB page (Reg.DINTG.REMAP_USED.nth j) false).putB page (Reg.DINTG.REMAP_BAD.nth j) true
        | none => s
      (some k, (s.put page (Reg.DINTG.REMAP_ADDR.nth k) addr).putB page (Reg.DINTG.REMAP_USED.nth k) true)

/-- Writes what a fault entry says of its spare. -/
def State.faultSpare (s : State) (page n : Nat) : Option Nat → State
  | some k => (s.putB page (Reg.DINTG.FAULT1_REMAPPED.nth n 8) true).put page (Reg.DINTG.FAULT1_SPARE.nth n 8) k
  | none => s

/-- A new fault entry (R333). -/
def State.newFault (s : State) (page r addr bit n : Nat) : State :=
  let s := (s.put page (Reg.DINTG.FAULT0_ADDR.nth n 8) addr).putB page (Reg.DINTG.FAULT1_VALID.nth n 8) true
  let s := (s.put page (Reg.DINTG.FAULT1_BIT.nth n 8) bit).put page (Reg.DINTG.FAULT1_REGION.nth n 8) r
  let s := (s.put page (Reg.DINTG.FAULT1_HITS.nth n 8) 1).event page 25
  if s.flag page Reg.DINTG.SCRUB_CTRL_BUSY then s.put page Reg.DINTG.SCRUB_STICKY_COUNT
    (min 64 (s.stored page Reg.DINTG.SCRUB_STICKY_COUNT + 1)) else s

/-- COUNTER_OVF bits of FAULT_LOST_CNT and POISON_CNT (R342, R344). -/
def lostBit (page : Nat) : Nat := if page = pgINTG then 20 else 24
def poisonBit (page : Nat) : Nat := if page = pgINTG then 21 else 25

/-- A word of a region is found sticky (R333, R334). -/
def State.markSticky (s : State) (page r addr bit : Nat) : State :=
  let (k, s) := s.remapWord page r addr
  (match s.findFault page r addr with
  | some n => (s.put page (Reg.DINTG.FAULT1_HITS.nth n 8)
      (min 255 (s.stored page (Reg.DINTG.FAULT1_HITS.nth n 8) + 1))).faultSpare page n k
  | none => match s.freeFault page with
    | some n => (s.newFault page r addr bit n).faultSpare page n k
    | none => s.bump page Reg.DINTG.FAULT_LOST_CNT (lostBit page)).showRemap page

/-- A word of a region was written back by the scrubber within STICKY_MS (R333). -/
def State.recentWriteBack (s : State) (page r addr : Nat) : Bool :=
  s.writeBacks.any (fun w => w.page == page && w.region == r && w.addr == addr &&
    decide (s.now ≤ w.time + s.fld page Reg.DINTG.CTRL_STICKY_MS * msTref))

/-! ### Reads -/

/-- The count and the bucket of a corrected read (R326): CE_CNT, and LEVEL unless the address repeats the region's
previous one. -/
def State.countCorrected (s : State) (page r addr : Nat) : State :=
  let s := s.bump page (regionReg Reg.DINTG.CE_CNT r) (regionBit page r)
  let key := page * 64 + r
  if mapFind key s.lastCorr = some addr then s
  else
    let before := s.bucketPassed page r
    let lv := s.stored page (regionReg Reg.DINTG.BKT_LEVEL r)
    let s := { s with lastCorr := mapPut key addr s.lastCorr }
    (s.put page (regionReg Reg.DINTG.BKT_LEVEL r) (min 65535 (lv + 1))).bucketPass page r before

/-- A corrected read at an address of a region (R326); soon after a write-back it shows the word sticky (R333). -/
def State.correctedRead (s : State) (page r addr bit : Nat) : State :=
  let s := s.countCorrected page r addr
  if s.recentWriteBack page r addr then s.markSticky page r addr bit else s

/-- An uncorrectable read in a region (R328): UE_CNT. -/
def State.uncorrectableRead (s : State) (page r : Nat) : State :=
  s.bump page (regionReg Reg.DINTG.UE_CNT r) (regionBit page r)

/-- A location is poisoned (R329): POISON_CNT and the POISON event of its page. -/
def State.poisoned (s : State) (page : Nat) : State :=
  (s.bump page Reg.DINTG.POISON_CNT (poisonBit page)).event page 26

/-- A TAC map entry is poisoned (R328). -/
def State.poisonTac (s : State) (chan : Nat) : State :=
  ({ s with tacPoison := insertNew chan s.tacPoison } : State).poisoned pgINTG

/-- The counts of a read as its decoder delivers it (R321, R328). -/
def State.countRead (s : State) (page r addr : Nat) : EccRead → State
  | .clean => s
  | .corrected bit _ => s.correctedRead page r addr bit
  | .uncorrectable => s.uncorrectableRead page r

/-- Words of MRAM are read; what an uncorrectable one leads to is its reader's (R328). -/
def State.readMram (s : State) (l : Reads) : State := s.each l (fun s x => s.countRead pgINTG 0 x.1 x.2)

/-- A word of MRAM is poisoned (R329). -/
def State.poisonMram (s : State) (addr : Nat) : State :=
  ({ s with integ := { s.integ with mramPoison := insertNew addr s.integ.mramPoison } } : State).poisoned pgINTG

/-! ### The self-test (R323, R324) -/

/-- All checkers of a concentrator pass: ST_DETAIL has no bit 7 (R340). -/
def checkersPass (pass : BitVec 24) : Bool := pass &&& 0xFFFF7F == 0xFFFF7F

/-- The checkers of a concentrator have been run; a failure keeps it in reset until its next reset (R323, R324, R340, R342,
R343). -/
def State.concChecked (s : State) (c : Conc) (pass : BitVec 24) : State :=
  let p := pgDINTG c
  let ok := checkersPass pass
  let s := (s.putB p Reg.DINTG.ST_DETAIL_DONE true).put p Reg.DINTG.ST_DETAIL_PASS (pass &&& 0xFFFF7F).toNat
  let s := s.putB pgINTG (match c with | .a => Reg.INTG.ST_STAT_CONC_A | .b => Reg.INTG.ST_STAT_CONC_B) ok
  if ok then s
  else (({ s with integ := { s.integ with failed := insertNew c s.integ.failed } } : State).event pgINTG 28).event p 28

/-- A reset of a concentrator ends what its last self-test found: the test runs again (R324). -/
def State.forgetFailure (s : State) (c : Conc) : State :=
  { s with integ := { s.integ with failed := s.integ.failed.filter (· != c) } }

end Sys2Proof.Machine
end

