-- ==== Sys2Proof/Machine/Journal.lean ====
section
/-!
DEFINITION. The journal (R387-R390, R500): its entries, the sequence numbers, the newest 4096 of which the SRAM and the
newest 256 of which MRAM hold.
-/

namespace Sys2Proof.Machine

/-- Result codes of R380. -/
def resOK : Nat := 0x00
def resREFUSED : Nat := 0x01
def resBAD_ADDR : Nat := 0x02
def resLOCKED : Nat := 0x03
def resAUTH_FAIL : Nat := 0x04
def resSTALE_SEQ : Nat := 0x05
def resMALFORMED : Nat := 0x06
def resBUSY : Nat := 0x07
def resPAST : Nat := 0x08
def resEPOCH : Nat := 0x09
def resABORTED : Nat := 0x0A
def resPOISONED : Nat := 0x0B
def resNOT_ALLOWED : Nat := 0x0C
def resUNKNOWN : Nat := 0x0D
def resDUPLICATE : Nat := 0x0E
def resRANGE : Nat := 0x0F

/-- The DIGEST of a written value (R388). -/
def digestOf (v : Word) : Nat := (crc16 (toBytes 4 v.toNat)).toNat

/-- HEAD, TAIL and MIRROR_TAIL (R394): the newest entry held in SRAM, the oldest, and the oldest in MRAM. -/
def State.showJournal (s : State) : State :=
  match s.journal with
  | [] => s
  | e :: _ =>
    let oldest (n : Nat) : Nat := ((s.journal.take n).getLast?.map (·.seq)).getD e.seq
    ((s.put pgJRNL Reg.JRNL.HEAD e.seq).put pgJRNL Reg.JRNL.TAIL (oldest 4096)).put pgJRNL Reg.JRNL.MIRROR_TAIL (oldest 256)

/-- Appends an entry under the next sequence number (R387, R389); answers that number. -/
def State.append (s : State) (e : JEntry) : Nat × State :=
  let n := (s.stored pgJRNL Reg.JRNL.HEAD + 1) % 2 ^ 32
  (n, ({ s with journal := ({ e with seq := n, poison := false } :: s.journal).take 4096 } : State).showJournal)

/-- An event of the belfry (R387, R388): PORT 0b10, MASTER 0, its time now. -/
def State.journalEvent (s : State) (code result page off digest aux : Nat) : State :=
  (s.append { seq := 0, time := s.now, port := 2, master := 0, code := code, result := result, page := page, off := off,
              digest := digest, aux := aux, poison := false }).2

/-- JOURNAL_SEQ of a page takes the SEQ of the entry that changed it (R390). -/
def State.noteChange (s : State) (page seq : Nat) : State := { s with jseq := mapPut page seq s.jseq }

/-- A journal entry's words (R388). -/
def JEntry.word (e : JEntry) : Nat → Nat
  | 0 => e.seq
  | 1 => e.time % 2 ^ 32
  | 2 => coarseOf e.time / 2 ^ 32 * 2 ^ 16 + epochOf e.time
  | 3 => packFields [(2, e.port), (6, 0), (8, e.master), (8, e.code), (8, if e.poison then resPOISONED else e.result)]
  | 4 => packFields [(16, e.page), (4, 0), (12, e.off)]
  | 5 => packFields [(16, e.digest), (16, e.aux)]
  | 6 => packFields [(1, 1), (1, e.poison.toNat), (30, 0)]
  | _ => 0

/-- The entry held with a sequence number. -/
def State.entryOf (s : State) (seq : Nat) : Option JEntry := s.journal.find? (fun e => e.seq == seq)

/-- The entry that occupies a place of the journal SRAM is poisoned (R328). -/
def State.poisonJournal (s : State) (place : Nat) : State :=
  { s with journal := s.journal.map (fun e => if e.seq % 4096 = place then { e with poison := true } else e) }

/-! ### Results (R373, R380) -/

def State.um (s : State) : Um → UmSt | .um0 => s.um0 | .um1 => s.um1
def State.setUm (s : State) (u : Um) (v : UmSt) : State :=
  match u with | .um0 => { s with um0 := v } | .um1 => { s with um1 := v }

/-- Words in groups of seven, as fragments after the first carry them. -/
def chunk7 : Nat → List Word → List (List Word)
  | 0, _ => []
  | n + 1, l => if l.isEmpty then [] else l.take 7 :: chunk7 n (l.drop 7)

/-- The fragments of a result message (R373): RESULT, CODE, the journal sequence number and five words of data in the
first; seven words in each later one. -/
def resultFrags (tag : Byte) (code result seq : Nat) (data : List Word) : List Frag :=
  let first := [BitVec.ofNat 32 (packFields [(8, result), (8, code), (16, 0)]), BitVec.ofNat 32 seq] ++ data.take 5
  let rest := chunk7 data.length (data.drop 5)
  let all := first :: rest
  all.zipIdx.map (fun x => { tag := tag, frag := x.2, last := x.2 + 1 == all.length, words := x.1 })

/-- A result that is not known yet keeps its command's place in the queue of a port, and takes it once it is known (R374). -/
def State.holdAnswer (s : State) (u : Um) (tag : Byte) : State :=
  s.setUm u { s.um u with results := (s.um u).results ++ [{ tag := tag, frag := 0, last := true, words := [], held := true }] }
def State.answerHeld (s : State) (u : Um) (tag : Byte) (code result seq : Nat) : State :=
  let l := (s.um u).results
  let i := l.findIdx (fun f => f.held && f.tag == tag)
  s.setUm u { s.um u with results := l.take i ++ resultFrags tag code result seq [] ++ l.drop (i + 1) }

/-- A result message joins the queue of a port (R374). -/
def State.answer (s : State) (u : Um) (tag : Byte) (code result seq : Nat) (data : List Word) : State :=
  s.setUm u { s.um u with results := (s.um u).results ++ resultFrags tag code result seq data }

end Sys2Proof.Machine
end

