-- ==== Sys2Proof/Machine/Boot.lean ====
section
/-!
DEFINITION. What survives a stop of the module, and the return to step 1 of R470 (R447, R464, R474, R484); images as their
headers give them (R448); the failure of a trial (R455) and the restart of the management core (R328).
-/

namespace Sys2Proof.Machine

/-! ### Images -/

/-- Bytes a to b of an image header as a number (R448). -/
def Image.num (i : Image) (a b : Nat) : Nat := ofBytes ((i.header.drop a).take (b + 1 - a))
def Image.version (i : Image) : Nat := i.num 16 19
def Image.schema (i : Image) : Nat := i.num 20 21
def Image.length (i : Image) : Nat := i.num 24 27
def Image.digest (i : Image) : List Byte := (i.header.drop 28).take 64
/-- FLAGS: KEY, bit 6, and BIND, bit 7. -/
def Image.key (i : Image) : Bool := (i.num 5 5).testBit 6
def Image.bind (i : Image) : Bool := (i.num 5 5).testBit 7

/-- The body's digest is that of the header (R452, R454). -/
def Image.digestOk (i : Image) : Bool := toBytes 64 (sha512 i.body).toNat == i.digest

/-- The sections of a class K body pass their CRCs; an empty body has none (R446, R452, R454). -/
def Image.sectionsPass (i : Image) : Bool := i.body.isEmpty || Config.sectionsOk i.body

/-- The unit's serial number, and the binding check of an image (R450, R454). -/
def State.serial (s : State) : Nat := s.stored pgMOD Reg.MOD.SERIAL_HI * 2 ^ 32 + s.stored pgMOD Reg.MOD.SERIAL_LO
def State.boundHere (s : State) (i : Image) : Bool := !i.bind || decide (i.num 8 15 = s.serial)

/-- The version registers show; 0 where the slot is empty (R460). -/
def slotVersion (i : Option Image) : Nat := (i.map Image.version).getD 0

/-- The body of the class K image that is loaded; none while it is bad (R458). -/
def State.kBody (s : State) : List Byte :=
  if s.flag pgFWU Reg.FWU.STAT_K_BAD then [] else (s.fwu.kCur.map (·.body)).getD []

/-- The words that an image loads into registers; the factory image's body lists none (assumption 9). -/
def kWords (body : List Byte) : List (Nat × Nat × Word) := if body.isEmpty then [] else Config.classKWords body

/-- What a register holds of a word loaded into it: reserved bits stay 0 (R5), and fields are limited (R405). -/
def loadedWord (page off : Nat) (v : Word) : Word :=
  match pageKind page with
  | some k => match regDefAt k off with
    | some d => fixWord k off (d.take (fun _ => true) 0 v)
    | none => 0
  | none => 0

/-- The registers that a class K image loads: tile bias trims, DLL bias trims, timing sets, CAL_REF and AGE_RATE (R446). -/
def classKReg (page off : Nat) : Bool :=
  match pageKind page with
  | some .afe => decide (0x050 ≤ off) && decide (off ≤ 0x07C)
  | some .tdc => off == Reg.TDC.DLL_BIAS_TRIM.off
  | some .dtrain => decide (0x100 ≤ off) && decide (off ≤ 0x1BC)
  | some .cals => off == Reg.CALS.CAL_REF_REF.off
  | some .time => off == Reg.TIME.AGE_RATE_RATE.off
  | _ => false

/-- The class K words of a range of pages are loaded (R53, R80, R211, R247, R318). -/
def State.loadClassK (s : State) (lo hi : Nat) : State :=
  s.each ((kWords s.kBody).filter (fun w => decide (lo ≤ w.1) && decide (w.1 < hi) && classKReg w.1 w.2.1))
    (fun s w => s.wr w.1 w.2.1 (loadedWord w.1 w.2.1 w.2.2))

/-- The lane table of a board type (R352). -/
def State.laneTable (s : State) (board : Nat) : Option (List Word) :=
  if s.kBody.isEmpty then none else Config.laneTable s.kBody board

/-! ### The FWU page (R460) -/

/-- C_STATE and K_STATE of a class: idle, staged, trial. -/
def FwuSt.classState (f : FwuSt) (isK : Bool) : Nat :=
  if f.trial.contains isK then 2 else if (if isK then f.kStg else f.cStg).isSome then 1 else 0

/-- The FWU registers follow the slots. Recovery, C_STATE 0b11, stands until the next start (R457). -/
def State.showFwu (s : State) : State :=
  let f := s.fwu
  let p := pgFWU
  let s := if s.stored p Reg.FWU.STAT_C_STATE = 3 then s else s.put p Reg.FWU.STAT_C_STATE (f.classState false)
  let s := s.put p Reg.FWU.STAT_K_STATE (f.classState true)
  let s := (s.putB p Reg.FWU.STAT_XFER f.xfer.isSome).putB p Reg.FWU.STAT_XFER_CLASS ((f.xfer.map (·.isK)).getD false)
  let s := s.put p Reg.FWU.STAT_STARTS (if f.trial.isEmpty then 0 else f.starts)
  let s := ((s.put p Reg.FWU.C_CUR_VER (slotVersion f.cCur)).put p Reg.FWU.C_PREV_VER (slotVersion f.cPrev)).put p
    Reg.FWU.C_STG_VER (slotVersion f.cStg)
  let s := ((s.put p Reg.FWU.K_CUR_VER (slotVersion f.kCur)).put p Reg.FWU.K_PREV_VER (slotVersion f.kPrev)).put p
    Reg.FWU.K_STG_VER (slotVersion f.kStg)
  let s := s.put p Reg.FWU.SCHEMA_OLD ((f.committed.map (·.schema)).getD f.schema)
  s.put p Reg.FWU.SCHEMA_NEW (if f.committed.isSome && s.flag p Reg.FWU.STAT_TRIAL_RUN then f.schema else 0)

/-! ### Settings copies (R447, R455) -/

/-- The settings now in force as a copy, and the settings of a copy. -/
def State.settings (s : State) : Settings :=
  { regs := s.saved, staged := s.savedStaged, tac := s.savedTac, corr := s.savedCorr, jseq := s.jseq, epoch := s.savedEpoch,
    schema := s.fwu.schema }
def State.withSettings (s : State) (c : Settings) : State :=
  { s with saved := c.regs, savedStaged := c.staged, savedTac := c.tac, savedCorr := c.corr, jseq := c.jseq,
           savedEpoch := c.epoch, fwu := { s.fwu with schema := c.schema } }

/-! ### Stops -/

/-- Registers that MRAM keeps (R335, R447, R460, R477), with the unit's own: the fault and remap tables of three pages,
MIN_VER, LAST_FAIL_VER, LAST_FAIL, AUTH_SEQ, UVLO_CNT and the serial number. -/
def persistentReg (key : Nat) : Bool :=
  let p := key / 4096
  let o := key % 4096
  ((p == pgINTG || p == pgDINTG .a || p == pgDINTG .b) && decide (0x400 ≤ o)) ||
    (p == pgFWU && (o == 0x064 || o == 0x070 || o == 0x074)) || (p == pgJRNL && o == 0x05C) ||
    (p == pgPWR && o == 0x058) || (p == pgMOD && (o == 0x040 || o == 0x044 || o == 0x048))

/-- The module stops or is reset: all but MRAM returns to its reset state, and the next start begins at step 1; of the journal the
copies in MRAM remain, which no mark of the SRAM touches (R389). The commands that wait are not part of it. An unfinished
transfer's slot is erased at the next start (R459, R476). -/
def State.boot (s : State) (p : PowSt) : State :=
  { State.reset with
    regs := s.regs.filter (fun e => persistentReg e.1)
    concA := { retR := s.concA.retR, retS := s.concA.retS }
    concB := { retR := s.concB.retR, retS := s.concB.retS }
    journal := (s.journal.take 256).map (fun e => { e with poison := false })
    integ := { mramPoison := s.integ.mramPoison }
    saved := s.saved
    savedStaged := s.savedStaged
    savedTac := s.savedTac
    jseq := s.jseq
    savedEpoch := s.savedEpoch
    savedCorr := s.savedCorr
    mramCorr := s.mramCorr
    mramTac := s.mramTac
    mramTap := s.mramTap
    fwu := { s.fwu with xfer := none }
    pow := p
    tap := if p.mode = .off ∨ p.mode = .hot then {} else s.tap
    freeCount := s.freeCount
    pending := s.pending }

/-- The module restarts from step 1 without losing power (R449, R455): cause 0x2 or 0x3. -/
def State.restart (s : State) (cause : Nat) : State :=
  s.boot { mode := .starting, resetLow := s.pow.resetLow, cause := cause }

/-- The rails of the belfry are up: START_SEQUENCE may run or the module runs. -/
def State.powered (s : State) : Bool := s.pow.mode == .starting || s.pow.mode == .on

/-- The trial of a class fails with a cause, the first one standing (R455): the module restarts, and the start that follows restores
its previous image. -/
def State.failTrial (s : State) (isK : Bool) (cause : Nat) : State :=
  if s.fwu.trial.contains isK then
    (if s.fwu.failed.isSome then s else { s with fwu := { s.fwu with failed := some (isK, cause) } } : State).restart 3
  else s

/-- The class whose trial a cause ends that names neither: class C where it is in trial (DESIGN CHOICE, log 70: with both in trial
the manual does not say which of them such a cause fails). -/
def FwuSt.judged (f : FwuSt) : Bool := !f.trial.contains false

/-- The management core restarts from its current image (R328), which is journaled as a start; in a trial it fails it
(R455). -/
def State.restartCore (s : State) : State :=
  let s := (s.event pgINTG 29).journalEvent 0xF0 resOK 0 0 0 0
  s.failTrial s.fwu.judged 3

/-- The class K image cannot be read where it is to be loaded (R455, R458): its trial fails, or it is bad from now on and loads
nothing. -/
def State.classKUnread (s : State) : State :=
  if s.fwu.trial.contains true then s.failTrial true 6
  else if s.flag pgFWU Reg.FWU.STAT_K_BAD then s
  else (s.putB pgFWU Reg.FWU.STAT_K_BAD true).event pgFWU 5

end Sys2Proof.Machine
end

