-- ==== Sys2Proof/Machine/Stack.lean ====
section
/-!
DEFINITION. The DRAM stack as the two groups address it: the interleave over the live channels (R286, R287), units
and poison (R329), open pages (R296) and the write buffers (R300).
-/

namespace Sys2Proof.Machine

/-! ### A glean's window (R185, R190) -/

/-- A glean's window in T_ref (R185), which may begin before time 0, and the number of frames it overlaps. -/
def Glean.lo (g : Glean) : Int := (g.trig.time / 4096 : Nat) - (g.trig.pre : Int)
def Glean.hi (g : Glean) : Nat := g.trig.time / 4096 + g.trig.post
def Glean.parts (g : Glean) : Nat :=
  if g.refused then 1 else ((frameOfTref g.hi : Int) - g.lo / 4096 + 1).toNat
/-- The frame whose sheaf makes it ready (R190). -/
def Glean.needs (g : Glean) : Nat := frameOfTref (if g.refused then g.trig.time / 4096 else g.hi)

/-! ### Channels and units -/

/-- The live channels of a group in ascending order (R286, R306, R308). -/
def ConcSt.liveChans (c : ConcSt) (shadow : Bool) : List Nat :=
  if shadow then ((List.range 6).map (· + 10)).filter (fun k => c.retS != some k)
  else (List.range 10).filter (fun k => c.retR != some k)

/-- The channel of a unit of a group, and the place of its block on it (R287). -/
def ConcSt.place (c : ConcSt) (shadow : Bool) (unit : Nat) : Nat × Nat :=
  let l := c.liveChans shadow
  (l.getD (unit / 8 % l.length) 0, unit / 8 / l.length)

/-- The key of a physical unit: channel, block on the channel, unit within the block. -/
def physKey (chan blk sub : Nat) : Nat := chan * 2 ^ 26 + blk * 8 + sub % 8
def ConcSt.unitKey (c : ConcSt) (shadow : Bool) (unit : Nat) : Nat :=
  physKey (c.place shadow unit).1 (c.place shadow unit).2 unit
/-- The channel of a physical key. -/
def keyChan (key : Nat) : Nat := key / 2 ^ 26

/-- Bank, row and unit within the page of a block on a channel: blocks rotate over the 16 banks, eight to a row of
2 KiB (R286, R287). -/
def bankOf (blk : Nat) : Nat := blk % 16
def rowOf (blk : Nat) : Nat := blk / 128
def pageUnit (blk unit : Nat) : Nat := blk / 16 % 8 * 8 + unit % 8

/-- An access leaves its bank's page open (R296). -/
def ConcSt.openPage (c : ConcSt) (shadow : Bool) (unit : Nat) : ConcSt :=
  let p := c.place shadow unit
  { c with mc := { c.mc with openRows := mapPut (p.1 * 16 + bankOf p.2) (rowOf p.2) c.mc.openRows } }

/-- A unit of a group: poisoned, or its data (R329). -/
def ConcSt.isPoison (c : ConcSt) (shadow : Bool) (unit : Nat) : Bool := c.poison.contains (c.unitKey shadow unit)
def ConcSt.getU (c : ConcSt) (shadow : Bool) (unit : Nat) : BitVec 256 := mapGetD 0 (c.unitKey shadow unit) c.dram

/-- A unit written by its normal writer (R329). -/
def ConcSt.putU (c : ConcSt) (shadow : Bool) (unit : Nat) (v : BitVec 256) : ConcSt :=
  let k := c.unitKey shadow unit
  { c with dram := mapPutD 0 k v c.dram, poison := c.poison.filter (· != k) }

/-- A unit written as poison (R329). -/
def ConcSt.poisonU (c : ConcSt) (shadow : Bool) (unit : Nat) : ConcSt :=
  let k := c.unitKey shadow unit
  { c with dram := mapDel k c.dram, poison := if c.poison.contains k then c.poison else k :: c.poison }

/-- The DINTG region of a unit of a group (R341). -/
def ConcSt.unitRegion (c : ConcSt) (shadow : Bool) (unit : Nat) : Nat := 8 + (c.place shadow unit).1

/-- Units of a group's data area (R287); the caps are in MiB. -/
def State.replayUnits (s : State) (c : Conc) : Nat := s.stored (pgDRAM c) Reg.DRAM.REPLAY_CAP_MIB * 32768
def State.shadowExtents (s : State) (c : Conc) : Nat := s.stored (pgDRAM c) Reg.DRAM.SHADOW_CAP_MIB * 512
def replayBase : Nat := 1048576
def replayDirCopy : Nat := 524288
def shadowBase : Nat := 524288

/-- Units of a group's address space, directories included. -/
def State.groupUnits (s : State) (c : Conc) (shadow : Bool) : Nat :=
  if shadow then shadowBase + s.shadowExtents c * 64 else replayBase + s.replayUnits c

/-! ### Self-refresh (R468) -/

/-- The stack takes commands: its concentrator is in LISTEN or RUN. In KEEP it holds the stack in self-refresh (R468). -/
def State.stackAwake (s : State) (c : Conc) : Bool := decide (2 ≤ s.pwr (pgMERGE c))

/-- The stack enters self-refresh as step 2 of a change does (R297): its pages close, and it leaves with no refresh postponed
(DEDUCED, log 65). -/
def State.stackSleeps (s : State) (c : Conc) : State :=
  let cs := s.conc c
  s.setConc c { cs with mc := { cs.mc with openRows := [], postponed := [], lowWindows := 0 } }

/-! ### Write buffers (R300) -/

/-- No commands are issued: a change of the frequency point runs (R297). -/
def State.dramBusy (s : State) (c : Conc) : Bool := s.flag (pgDRAM c) Reg.DRAM.STAT_CHANGING
def State.dramFrozen (s : State) (c : Conc) : Bool := s.flag (pgDRAM c) Reg.DRAM.STAT_FROZEN

/-- Bytes that wait in a group's buffer. -/
def DramSt.wbuf (m : DramSt) (shadow : Bool) : Nat := 32 * (m.buffered.filter (fun x => x.1 == shadow)).length

/-- Shows the buffers' fill in KiB (R314). -/
def State.showWbuf (s : State) (c : Conc) : State :=
  let m := (s.conc c).mc
  let kib (b : Nat) : Nat := min 1024 ((b + 1023) / 1024)
  let s := (s.put (pgDRAM c) Reg.DRAM.WBUF_R_KIB (kib (m.wbuf false))).put (pgDRAM c) Reg.DRAM.WBUF_S_KIB (kib (m.wbuf true))
  (s.peak (pgDRAM c) Reg.DRAM.WBUF_PEAK_R_KIB (kib (m.wbuf false))).peak (pgDRAM c) Reg.DRAM.WBUF_PEAK_S_KIB
    (kib (m.wbuf true))

/-- The units just written are issued to their group and leave their pages open (R296); while no command is issued they wait in
the group's buffer (R300). -/
def State.issueWrites (s : State) (c : Conc) (shadow : Bool) (units : List Nat) : State :=
  let cs := s.conc c
  if s.dramBusy c then
    (s.setConc c { cs with mc := { cs.mc with buffered := cs.mc.buffered ++ units.map (fun u => (shadow, u)) } }).showWbuf c
  else s.setConc c (units.foldl (fun cs u => cs.openPage shadow u) cs)

/-- A group's buffer is full: its writers wait. -/
def State.wbufFull (s : State) (c : Conc) (shadow : Bool) : Bool := decide (2 ^ 20 ≤ (s.conc c).mc.wbuf shadow)

end Sys2Proof.Machine
end

