-- ==== Sys2Proof/Machine/Dead.lean ====
section
/-!
DEFINITION. The stick holder, and the calibration dead time of injections (R220): launches are judged in the concentrator
whose captures the engine reads (R201).
-/

namespace Sys2Proof.Machine

/-- The stick holder (R272), and the concentrator whose histograms and captures the engine reads (R201): Concentrator A where the
holder is selected and there is none (DESIGN CHOICE, log 60). -/
def State.holder (s : State) : Option Conc :=
  if s.stored pgSTICK Reg.STICK.STAT_STATE = 1 then
    some (if s.stored pgSTICK Reg.STICK.STAT_HOLDER = 1 then .b else .a) else none
def State.histConc (s : State) : Conc :=
  let h := s.fld pgCALS Reg.CALS.CTRL_HIST_CONC
  if h = 1 then .a else if h = 2 then .b else s.holder.getD .a

/-! ### Calibration dead time (R220) -/

/-- Adds dead time in T_ref to a channel and to the total. -/
def State.addCalDead (s : State) (chan n : Nat) : State :=
  let v := mapGetD 0 chan s.cal.cdead + n
  let s := { s with cal := { s.cal with cdead := mapPutD 0 chan (min v (2 ^ 32 - 1)) s.cal.cdead } }
  let s := if v < 2 ^ 32 then s else s.overflow pgCALS 6
  s.bump64 pgCALS Reg.CALS.CDEAD_TOT_LO Reg.CALS.CDEAD_TOT_HI 5 n

/-- An injection without captured record: 32 T_ref and MISS_CNT. -/
def State.calMissed (s : State) (chan : Nat) : State :=
  (s.addCalDead chan 32).bump pgCALS Reg.CALS.MISS_CNT 3

/-- Forgets launches. -/
def State.dropLaunches (s : State) (p : Launch → Bool) : State :=
  { s with cal := { s.cal with launches := s.cal.launches.filter (fun l => !p l) } }

/-- Launches for which no captured record will come. -/
def State.missLaunches (s : State) (p : Launch → Bool) : State :=
  (s.dropLaunches p).each (s.cal.launches.filter p) (fun s l => s.calMissed l.chan)

/-- The calibration hit of a launch passes to read-out: its leading tap-time and hold-off. -/
def State.launchHit (s : State) (chan launch lead hold : Nat) : State :=
  { s with cal := { s.cal with launches := s.cal.launches.map (fun l =>
    if l.chan = chan ∧ l.launch = launch then { l with hit := some (lead, hold) } else l) } }

/-- A calibration record is captured (R210): the dead time of its launch. -/
def State.launchCaptured (s : State) (chan tot : Nat) : State :=
  match s.cal.launches.find? (fun l => l.chan == chan && l.hit.isSome) with
  | some l =>
    let h := l.hit.getD (0, 0)
    (s.dropLaunches (· == l)).addCalDead chan (((h.1 - l.launch) + 4 * (tot + 1) + h.2 + 63) / 64)
  | none => s

/-- The frame at whose end a launch's calibration hit can no longer come. -/
def Launch.frame (l : Launch) : Nat :=
  match l.hit with
  | some h => frameOfTap h.1
  | none => frameOfTap (l.launch + 32 * 64)

/-- While the concentrator that the engine reads does not merge, no record of a launch of an ended frame is captured (R220). -/
def State.launchesUnread (s : State) (f : Nat) : State :=
  if (s.conc s.histConc).run == .running || (s.conc s.histConc).run == .joining then s
  else s.missLaunches (fun l => decide (l.frame < f))

/-- A tile's stream on the port of the concentrator that the engine reads has passed the end of frame n: records of
launches up to there have been refused or discarded. -/
def State.launchesClosed (s : State) (c : Conc) (t : Fin 16) (n : Nat) : State :=
  if c = s.histConc then s.missLaunches (fun l => l.chan / 4096 == t.val && decide (l.frame ≤ n)) else s

/-- The blind interval of a launch ended without a leading edge (R44). -/
def State.launchBlind (s : State) (chan launch : Nat) : State :=
  s.missLaunches (fun l => l.chan == chan && l.launch == launch)

end Sys2Proof.Machine
end

