-- ==== Sys2Proof/Machine/Channel.lean ====
section
/-!
DEFINITION. The channel front end and time measurement (R23-R80): edges, hold-off, gate, masking, the stuck timer,
injection, capture, conversion, and the passing of hits to read-out with their classification (R81-R92).
-/

namespace Sys2Proof.Machine

/-! ### Settings of a channel -/

/-- The register of a channel in a window of its block page (R49). -/
def chReg (f : FieldRef) (chan : Nat) : FieldRef := f.nth (chan % 256)
def State.chFld (s : State) (chan : Nat) (f : FieldRef) : Nat := s.fld (chPage chan) (chReg f chan)
def State.chFlag (s : State) (chan : Nat) (f : FieldRef) : Bool := s.chFld chan f != 0
def State.putCh (s : State) (chan : Nat) (f : FieldRef) (b : Bool) : State := s.putB (chPage chan) (chReg f chan) b

/-- The hold-off of a channel in taps (R30). -/
def State.holdTaps (s : State) (chan : Nat) : Nat :=
  (if s.chFlag chan Reg.BLOCK.CH_CFG_HO_OVR_EN then s.chFld chan Reg.BLOCK.CH_CFG_HO_OVR
   else s.fld (chPage chan) Reg.BLOCK.BLK_AFE_HOLDOFF) + 1

/-! ### The discriminator (R23, R24, R28, R29, R42) -/

/-- BLK_AFE.POL: positive charge gives the positive excursion at the discriminator (R23). -/
def State.positive (s : State) (chan : Nat) : Bool := s.flag (chPage chan) Reg.BLOCK.BLK_AFE_POL

/-- A channel's gain, ×1 to ×8 (R24). -/
def State.gain (s : State) (chan : Nat) : Nat :=
  2 ^ (if s.chFlag chan Reg.BLOCK.CH_CFG_GAIN_OVR_EN then s.chFld chan Reg.BLOCK.CH_CFG_GAIN_OVR
       else s.fld (chPage chan) Reg.BLOCK.BLK_AFE_GAIN)

/-- V_th in microvolts, 0 where the formula of R28 is negative. -/
def State.threshold (s : State) (chan : Nat) : Nat :=
  (500 * (s.fld (chPage chan) Reg.BLOCK.BLK_THR_THR_DAC : Int) +
    250 * 2 ^ s.fld (chPage chan) Reg.BLOCK.BLK_AFE_TRIM_LSB * signedOf 6 (s.chFld chan Reg.BLOCK.CH_CFG_TRIM)).toNat

/-- The release level V_th − H in microvolts, 0 where that is negative (R29). -/
def State.release (s : State) (chan : Nat) : Nat :=
  s.threshold chan - 1000 * s.fld (chPage chan) Reg.BLOCK.BLK_AFE_HYST

/-- What the discriminator sees of a signal: `v` is the preamplifier's output at gain ×1 in microvolts above the baseline,
positive for positive charge (R23, R24). -/
def State.excursion (s : State) (chan : Nat) (v : Int) : Int := s.gain chan * (if s.positive chan then v else -v)

/-- The charge that an injection deposits, in units of 0.02 fC, with the polarity of the block (R23, R42). -/
def State.injCharge (s : State) (chan : Nat) : Int :=
  let q : Int := s.fld (chPage chan) Reg.BLOCK.INJ_DAC_LEVEL
  if s.positive chan then q else -q

/-- The front end is on: the tile and the block are in LISTEN or RUN (R16). -/
def State.frontEndOn (s : State) (chan : Nat) : Bool :=
  decide (2 ≤ s.pwr (pgTILE (chTile chan))) && decide (2 ≤ s.pwr (chPage chan))

/-- The tile records edges: it is neither absent nor stopped by a timing fault (R41, R59, R60). -/
def State.recording (s : State) (chan : Nat) : Bool := !(s.tile (chTile chan)).absent && !(s.tile (chTile chan)).halted

def State.isMasked (s : State) (chan : Nat) : Bool := s.chFlag chan Reg.BLOCK.CH_CFG_MASK
def State.isSelfMasked (s : State) (chan : Nat) : Bool := s.chFlag chan Reg.BLOCK.CH_STAT_SMASK
def State.isHigh (s : State) (chan : Nat) : Bool := s.chFlag chan Reg.BLOCK.CH_STAT_HIGH
def State.isBlanked (s : State) (chan : Nat) : Bool := s.chFlag chan Reg.BLOCK.CH_STAT_BLANKED

/-! ### Gate (R33-R37) -/

/-- The state of a gate source of a tile at a tap-time: what has been applied, then the changes up to that time. -/
def Tile.gateAt (tl : Tile) (src tap : Nat) : Bool :=
  tl.gateNext.foldl (fun o e => if e.src = src ∧ e.tap ≤ tap then e.isOpen else o) (mapGetD false src tl.gateNow)

/-- The gate of a tile at a tap-time under the source in force (R33, R35). -/
def State.gateOpen (s : State) (t : Fin 16) (tap : Nat) : Bool :=
  let src := s.fld (pgAFE t) Reg.AFE.GATE_CTRL_SRC
  src == 0 || (s.tile t).gateAt src tap

/-! ### Chaff (R91) -/

/-- Adds to the chaff of a frame of a tile. -/
def Tile.addChaff (tl : Tile) (frame : Nat) (g : FrameChaff → FrameChaff) : Tile :=
  { tl with chaff := mapPut frame (g (mapGetD {} frame tl.chaff)) tl.chaff }

def State.chaffMasked (s : State) (t : Fin 16) (frame : Nat) : State :=
  (s.setTile t ((s.tile t).addChaff frame (fun c => { c with masked := c.masked + 1 }))).bump (pgTILE t)
    Reg.TILE.CHAFF_MASKED 0
def State.chaffStuck (s : State) (t : Fin 16) (frame : Nat) : State :=
  (s.setTile t ((s.tile t).addChaff frame (fun c => { c with stuck := c.stuck + 1 }))).bump (pgTILE t)
    Reg.TILE.CHAFF_STUCK 1
def State.chaffGateHigh (s : State) (t : Fin 16) (frame : Nat) : State :=
  (s.setTile t ((s.tile t).addChaff frame (fun c => { c with gateHigh := c.gateHigh + 1 }))).bump (pgTILE t)
    Reg.TILE.CHAFF_GATEHIGH 2

/-- PILEUP_CNT and GATEHIGH_CNT of a channel, with the bits of R51. -/
def State.bumpPileup (s : State) (chan : Nat) : State :=
  s.bump (chPage chan) (chReg Reg.BLOCK.CH_CNT_PILEUP_CNT chan) (16 + chCell chan)
def State.bumpGateHigh (s : State) (chan : Nat) : State :=
  s.bump (chPage chan) (chReg Reg.BLOCK.CH_CNT_GATEHIGH_CNT chan) (chCell chan)

/-! ### Conversion (R66, R67) -/

/-- P[k] of a tile in force, in 2^-16 tick; P[64] is 4096 ticks and P[65] lies P[1] after it. -/
def State.tapPos (s : State) (t : Fin 16) (k : Nat) : Nat :=
  let p (j : Nat) := s.fld (pgTDC t) (Reg.TDC.TAP_POS_POS.nth j) * 8192
  if k < 64 then p k else 4096 * 65536 + (if k = 64 then 0 else p (k - 64))

/-- A channel's TAC map in force: A and B in 2^-16 tick, and whether they are NOM_MAP's (R66, R328). -/
def State.tacOf (s : State) (chan : Nat) : Nat × Nat × Bool :=
  let e := mapGetD (0 : Word) chan s.tac
  let t := chTile chan
  if e.getLsbD 31 && !s.tacPoison.contains chan then
    (fieldGet Reg.TDC.TAC_MAP_OFS e * 256, fieldGet Reg.TDC.TAC_MAP_GAIN e, false)
  else (s.fld (pgTDC t) Reg.TDC.NOM_MAP_OFS * 256, s.fld (pgTDC t) Reg.TDC.NOM_MAP_GAIN, true)

/-- The span of R66 in 2^-16 tick: A + B × D limited to the interval around the latched tap; whether it was limited. -/
def spanOf (a b p0 p1 p2 code : Nat) : Int × Bool :=
  let s : Int := (a + b * code : Nat)
  let lo : Int := (p2 : Int) - p1 - 16 * 65536
  let hi : Int := (p2 : Int) - p0 + 16 * 65536
  (clampInt lo hi s, decide (s < lo ∨ hi < s))

/-- fine = floor(P[k+2] − s + 0.5) of R66, in ticks. -/
def fineOf (p2 : Nat) (span : Int) : Int := ((p2 : Int) - span + 32768) / 65536

/-- v of R67, and whether it was set to a limit. -/
def tifOf (c : Nat) (fine : Int) : Nat × Bool :=
  let v : Int := 4096 * (c : Int) + fine
  ((clampInt 0 16777215 v).toNat, decide (v < 0 ∨ 16777215 < v))

/-- The tile record of R83. -/
def tileRecord (type chanInTile tif tot flags : Nat) : BitVec 52 :=
  BitVec.ofNat 52 (type * 2 ^ 50 + chanInTile * 2 ^ 38 + tif * 2 ^ 14 + tot * 2 ^ 4 + flags)

/-- The side item of R99. -/
def sideItem (kind : Nat) (gen : Bool) (chanInTile tap code : Nat) : BitVec 32 :=
  BitVec.ofNat 32 (kind * 2 ^ 30 + gen.toNat * 2 ^ 29 + chanInTile * 2 ^ 14 + tap * 2 ^ 8 + code)

/-! ### Ports (R97, R98, R100) -/

/-- TYPE of a tile record: 1 stream, 2 calibration, 3 shadow, 0 token word (R83). -/
def recType (r : BitVec 52) : Nat := bitsOf 51 50 r.toNat
def recChan (r : BitVec 52) : Nat := bitsOf 49 38 r.toNat
def recTif (r : BitVec 52) : Nat := bitsOf 37 14 r.toNat
def recTot (r : BitVec 52) : Nat := bitsOf 13 4 r.toNat
def recFlags (r : BitVec 52) : Nat := bitsOf 3 0 r.toNat
/-- A record with its TYPE replaced. -/
def recSetType (r : BitVec 52) (ty : Nat) : BitVec 52 := BitVec.ofNat 52 (ty * 2 ^ 50 + r.toNat % 2 ^ 50)

/-- The registers of port p lie 0x40 × p further (R108). -/
def portReg (f : FieldRef) (c : Conc) : FieldRef := f.nth c.idx 0x40

/-- Changes the counts of a frame on a port. -/
def Port.onFrame (p : Port) (frame : Nat) (g : PortFrame → PortFrame) : Port :=
  { p with frames := mapPut frame (g (mapGetD {} frame p.frames)) p.frames }

/-- A record refused for a port: capacity chaff of its frame, with its T_ref period where it is no shadow record. -/
def PortFrame.refuse (f : PortFrame) (r : BitVec 52) (tref : Nat) : PortFrame :=
  if recType r = 3 then { f with capShadow := f.capShadow + 1 }
  else { f with capStream := f.capStream + 1,
                refused := if f.refused.contains tref then f.refused else tref :: f.refused }

/-- Counts a refused record of a port (R98, R109). -/
def State.countRefused (s : State) (t : Fin 16) (c : Conc) (r : BitVec 52) : State :=
  if recType r = 3 then s.bump (pgPORTS t) (portReg Reg.PORTS.CAP_SHADOW_CNT c) (8 * c.idx + 1)
  else s.bump (pgPORTS t) (portReg Reg.PORTS.CAP_STREAM_CNT c) (8 * c.idx)

/-- A record refused by a port: its counts and the CAP event. -/
def State.refuseRecord (s : State) (t : Fin 16) (c : Conc) (r : BitVec 52) (frame tref : Nat) : State :=
  ((s.setPort t c ((s.port t c).onFrame frame (·.refuse r tref))).countRefused t c r).event (pgPORTS t) (8 * c.idx + 2)

/-- Offers a record to a port (R98, R102). DESIGN CHOICE (log 58): a record of a frame that was cut, decided after the port
has resumed, is discarded and counted as one offered during the cut. -/
def State.offerRecord (s : State) (t : Fin 16) (c : Conc) (r : BitVec 52) (frame tref : Nat) : State :=
  let p := s.port t c
  let fill := s.stored (pgPORTS t) (portReg Reg.PORTS.PSTAT_FILL c)
  if p.cut || decide (frame < p.since) then
    (s.setPort t c { p with discarded := p.discarded + 1 }).bump (pgPORTS t) (portReg Reg.PORTS.CUT_DISCARD_CNT c)
      (8 * c.idx + 4)
  else if fill < (if recType r = 3 then min 65536 (s.fld (pgPORTS t) Reg.PORTS.PORT_CTRL_SHADOW_HWM) else 65536) then
    ((s.setPort t c ({ p with items := p.items ++ [PortItem.hit r frame] }.onFrame frame (fun f =>
        { f with records := f.records + 1, crc := crc16Bits f.crc (toBits 52 r.toNat) }))).put (pgPORTS t)
      (portReg Reg.PORTS.PSTAT_FILL c) (fill + 1)).peak (pgPORTS t) (portReg Reg.PORTS.PEAK_PEAK c) (fill + 1)
  else s.refuseRecord t c r frame tref

/-- Offers the side item of a hit of a frame to a port (R100, R102): calibration items while there is space, physics items
below 768. -/
def State.offerSide (s : State) (t : Fin 16) (c : Conc) (i : BitVec 32) (frame : Nat) : State :=
  let p := s.port t c
  if p.cut || decide (frame < p.since) then s
  else if p.side.length < (if bitsOf 31 30 i.toNat = 2 then 1024 else 768) then
    s.setPort t c { p with side := p.side ++ [i] }
  else s.bump (pgPORTS t) (portReg Reg.PORTS.SIDE_DROP_CNT c) (8 * c.idx + 2)

/-- Decided records that wait in a cell's queue; it holds 16 (R81). -/
def Tile.waiting (tl : Tile) (cell : Nat) : List (BitVec 52 × Nat) := mapGetD [] cell tl.cellq
def Tile.setWaiting (tl : Tile) (cell : Nat) (q : List (BitVec 52 × Nat)) : Tile :=
  { tl with cellq := mapPutD [] cell q tl.cellq }

/-- A record that leaves its cell queue enters both port buffers at the same moment (R81, R97). -/
def State.acceptRecord (s : State) (t : Fin 16) (x : BitVec 52 × Nat) : State :=
  (s.offerRecord t .a x.1 (frameOfTap x.2) (x.2 / trefTaps)).offerRecord t .b x.1 (frameOfTap x.2) (x.2 / trefTaps)

/-- The tile collector accepts the `n` oldest records of a cell's queue (R81, R94). -/
def State.collectCell (s : State) (t : Fin 16) (cell n : Nat) : State :=
  let q := (s.tile t).waiting cell
  (s.setTile t ((s.tile t).setWaiting cell (q.drop n))).each (q.take n) (fun s x => s.acceptRecord t x)

/-- The tile collector has accepted `took` records of a channel's cell since the last command that says so (R81, log 17). -/
def State.collect (s : State) (chan took : Nat) : State := s.collectCell (chTile chan) (cellInTile chan) took

/-- The tile collector accepts every record that waits in a tile, cell by cell (log 17). -/
def State.collectAll (s : State) (t : Fin 16) : State :=
  s.each (s.tile t).cellq (fun s e => s.collectCell t e.1 e.2.length)

/-- A decided record enters its cell queue; a full one refuses it, which is capacity chaff on both ports (R81, R91). Its side
item is offered in either case (R99). -/
def State.sendRecord (s : State) (t : Fin 16) (r : BitVec 52) (side : BitVec 32) (lead : Nat) : State :=
  let frame := frameOfTap lead
  let tref := lead / trefTaps
  let q := (s.tile t).waiting (recChan r / 16)
  let s := if q.length < 16 then s.setTile t ((s.tile t).setWaiting (recChan r / 16) (q ++ [(r, lead)]))
    else ((s.bump (pgTILE t) Reg.TILE.CELLQ_CNT 3).refuseRecord t .a r frame tref).refuseRecord t .b r frame tref
  (s.offerSide t .a side frame).offerSide t .b side frame

/-! ### Passing to read-out (R32, R65) and winnowing (R85-R90) -/

/-- A hit is ready: hold-off expired, ToT known, converted (R32, R65). -/
def Hit.ready (h : Hit) : Bool := h.holdDone && h.tot.isSome && h.code.isSome

/-- A hit's time-in-frame from its code (R66, R67), and whether its span and whether its v were limited. -/
def Hit.time (h : Hit) (code : Nat) : Nat × Bool × Bool :=
  let sp := spanOf h.mapA h.mapB h.p0 h.p1 h.p2 code
  let v := tifOf (h.lead / 64 % 4096) (fineOf h.p2 sp.1)
  (v.1, sp.2, v.2)

/-- A converted hit passes to read-out: it is classified (R85) and, unless it is a candidate for promotion, sent. -/
def State.passHit (s : State) (chan : Nat) (h : Hit) : State :=
  let t := chTile chan
  let code := h.code.getD 0
  let tot := h.tot.getD 0
  let v := h.time code
  let flags := 8 * h.sat.toNat + 4 * h.pile.toNat + (h.nominal || v.2.1 || v.2.2).toNat
  let word (ty : Nat) := tileRecord ty (chInTile chan) v.1 tot flags
  let side (kind : Nat) := sideItem kind h.gen (chInTile chan) (h.lead % 64) code
  if h.cal.isSome then
    ((s.launchHit chan (h.cal.getD 0) h.lead h.hold).bump (pgTILE t) Reg.TILE.CALIB_CNT 7).sendRecord t (word 2)
      (side 2) h.lead
  else if h.shadowOnly then
    (s.bump (pgTILE t) Reg.TILE.SHADOW_CNT 5).sendRecord t (word 3) (side 3) h.lead
  else if h.cut ≤ tot then
    ((s.setTile t { s.tile t with streams := (s.tile t).streams ++ [(chan, h.lead)] }).bump (pgTILE t)
      Reg.TILE.STREAM_CNT 4).sendRecord t (word 1) (side 1) h.lead
  else s.setTile t { s.tile t with cands := (s.tile t).cands ++
    [{ chan := chan, lead := h.lead, word := word 3, side := side 3, window := h.window, promote := h.promote,
       shadowOnly := false }] }

/-- The hits of a channel that are ready pass, oldest first, the collector having taken `took` records of the cell. -/
def State.passReady (s : State) (chan took : Nat) : State :=
  let c := s.chan chan
  ((s.collect chan took).setChan chan { c with hits := c.hits.filter (!·.ready) }).each (c.hits.filter (·.ready))
    (fun s h => s.passHit chan h)

/-- A stream hit of another channel of the cell within W of the candidate (R88, R89). -/
def Tile.promoted (tl : Tile) (p : Passed) : Bool :=
  p.promote && tl.streams.any (fun x => x.1 != p.chan && x.1 / 16 == p.chan / 16 &&
    decide ((x.2 - p.lead) + (p.lead - x.2) ≤ p.window))

/-- The winnower decides a candidate (R88-R90). -/
def State.decideCand (s : State) (t : Fin 16) (p : Passed) : State :=
  if (s.tile t).promoted p then
    (s.bump (pgTILE t) Reg.TILE.PROMOTE_CNT 6).sendRecord t (recSetType p.word 1 ||| 2)
      (BitVec.ofNat 32 (2 ^ 30 + p.side.toNat % 2 ^ 30)) p.lead
  else (s.bump (pgTILE t) Reg.TILE.SHADOW_CNT 5).sendRecord t p.word p.side p.lead

/-- When a candidate is due: L + W + 64 × 160 (R90). -/
def Passed.due (p : Passed) : Nat := p.lead + p.window + 64 * 160

/-! ### Edges -/

/-- What becomes of a leading edge. -/
inductive EdgeFate where
  /-- inside the gate at a self-masked, or at a masked or blanked channel: chaff (R38, R39, R47) -/
  | stuckChaff | maskedChaff
  /-- not recorded and not counted (R35, R37, R44, R59) -/
  | ignored
  /-- within hold-off (R31), or with both capacitors busy (R64) -/
  | pileUp (busy : Bool)
  /-- recorded; for a calibration hit, with its launch (R44) -/
  | recorded (cal : Option Nat)
  deriving DecidableEq, Repr

/-- Capacitors busy: those of hits not yet converted (R61). -/
def Chan.busy (c : Chan) : Nat := (c.hits.filter (fun h => h.code.isNone)).length

/-- The fate of an edge that is not suppressed by masks or injection: hold-off first (R31), then the gate unless it
is a calibration hit (R35, R44), then the capacitors (R64). -/
def plainFate (c : Chan) (t : Nat) (gate : Bool) (cal : Option Nat) : EdgeFate :=
  if t < c.holdEnd then .pileUp false
  else if !gate && cal.isNone then .ignored
  else if 2 ≤ c.busy then .pileUp true
  else .recorded cal

/-- The fate of a leading edge at tap-time t (R31, R35, R38, R39, R44, R47, R59, R64). Two points are the model's choices
(DESIGN CHOICE, log 15): the first edge within 32 T_ref of a launch that meets both capacitors busy (R64) is pile-up, and a
later one within the 32 T_ref is then the calibration hit; and an injection into a blanked channel, which R43 does not
forbid, makes no calibration hit while the blanking lasts: its edge is masked chaff (R47). -/
def State.edgeFate (s : State) (chan t : Nat) : EdgeFate :=
  let gate := s.gateOpen (chTile chan) t
  let c := s.chan chan
  if s.isSelfMasked chan then (if gate then .stuckChaff else .ignored)
  else if s.isMasked chan || s.isBlanked chan then (if gate then .maskedChaff else .ignored)
  else if !s.recording chan then .ignored
  else match c.inj with
    | some i =>
      if !i.hit then
        (if t < i.launch + 32 * 64 then plainFate c t gate (some i.launch) else plainFate c t gate none)
      else if !i.fallen || t < c.holdEnd then .ignored else plainFate c t gate none
    | none => plainFate c t gate none

/-- The capacitor a recorded edge takes (R61): a free one; of two free ones that not used last. -/
def Chan.freeCap (c : Chan) : Bool :=
  match c.hits.find? (fun h => h.code.isNone) with
  | some h => !h.cap
  | none => !c.lastCap

/-- The hit a recorded leading edge starts, with the settings in force in its frame (R69, R86). -/
def State.newHit (s : State) (chan t : Nat) (cal : Option Nat) : Hit :=
  let tl := chTile chan
  let k := t % 64
  let m := s.tacOf chan
  { lead := t, cap := (s.chan chan).freeCap, hold := s.holdTaps chan, holdDone := false, code := none, tot := none,
    sat := false, pile := false, cal := cal, gen := (s.tile tl).parity,
    cut := s.chFld chan Reg.BLOCK.CH_CFG_TOT_CUT, shadowOnly := s.chFlag chan Reg.BLOCK.CH_CFG_SHADOW_ONLY,
    window := s.fld (pgTILE tl) Reg.TILE.WINNOW_WINDOW, promote := s.flag (pgTILE tl) Reg.TILE.WINNOW_PROMOTE_EN,
    mapA := m.1, mapB := m.2.1, nominal := m.2.2,
    nomA := s.fld (pgTDC tl) Reg.TDC.NOM_MAP_OFS * 256, nomB := s.fld (pgTDC tl) Reg.TDC.NOM_MAP_GAIN,
    p0 := s.tapPos tl k, p1 := s.tapPos tl (k + 1), p2 := s.tapPos tl (k + 2) }

/-- Records a leading edge: the hit, its capacitor and its hold-off (R30, R61). -/
def State.recordEdge (s : State) (chan t : Nat) (cal : Option Nat) : State :=
  let c := s.chan chan
  let h := s.newHit chan t cal
  s.setChan chan { c with
    hits := c.hits ++ [h], holdEnd := t + h.hold, lastCap := h.cap,
    inj := match c.inj with
      | some i => if cal.isSome then some { i with hit := true } else none
      | none => none }

/-- The pile-up flag of the channel's most recently recorded hit (R31). -/
def Chan.flagPile (c : Chan) : Chan :=
  { c with hits := c.hits.dropLast ++ (c.hits.getLast?.map (fun h => { h with pile := true })).toList }

/-- A refused edge: pile-up flag, PILEUP_CNT, and BUSY_CNT where the capacitors were busy (R31, R64). -/
def State.refuseEdge (s : State) (chan : Nat) (busy : Bool) : State :=
  let s := (s.setChan chan (s.chan chan).flagPile).bumpPileup chan
  if busy then s.bump (pgTDC (chTile chan)) (Reg.TDC.BUSY_CNT_COUNT.nth (cellInTile chan)) 3 else s

/-- The tillers of a channel's path move to RUN with its work (R17). -/
def State.wakePath (s : State) (chan : Nat) : State :=
  let t := chTile chan
  ((s.wake pgMOD).wake (pgTILE t)).wake (chPage chan)

/-- The output rises: HIGH, and the stuck timer of an unmasked channel starts (R39). -/
def State.riseOutput (s : State) (chan t : Nat) : State :=
  let s := (s.putCh chan Reg.BLOCK.CH_STAT_HIGH true).wakePath chan
  if s.isMasked chan || s.isSelfMasked chan then s
  else s.setChan chan { s.chan chan with stuckFrom := some t }

/-- Acts on a leading edge as its fate says. -/
def State.actEdge (s : State) (chan t : Nat) : EdgeFate → State
  | .stuckChaff => s.chaffStuck (chTile chan) (frameOfTap t)
  | .maskedChaff => s.chaffMasked (chTile chan) (frameOfTap t)
  | .ignored => s
  | .pileUp busy => s.refuseEdge chan busy
  | .recorded cal => s.recordEdge chan t cal

/-- LEADING_EDGE: the signal of a channel has risen to `v` at tap-time t, and the discriminator output rises where that lies
above V_th (R29). With the front end off, or the output already high, there is no edge. -/
def State.leadingEdge (s : State) (chan t : Nat) (v : Int) : State :=
  if s.frontEndOn chan && !s.isHigh chan && decide ((s.threshold chan : Int) < s.excursion chan v) then
    ((s.advance (t / 64)).riseOutput chan t).actEdge chan t (s.edgeFate chan t)
  else s

/-- The ToT of a hit whose trailing edge is sampled at t (R71-R73); one not sampled by L + 4095 has saturated. -/
def Hit.trail (h : Hit) (t : Nat) : Hit :=
  if h.tot.isSome then h
  else if t < h.lead + 4096 then { h with tot := some ((t - h.lead) / 4) } else { h with tot := some 1023, sat := true }

/-- TRAILING_EDGE: the signal has fallen to `v` at tap-time t, and the output falls where that lies below the release level
(R29); it is the trailing edge of the hit that waits for one (R31). -/
def State.trailingEdge (s : State) (chan t : Nat) (v : Int) (took : Nat) : State :=
  if s.frontEndOn chan && s.isHigh chan && decide (s.excursion chan v < s.release chan) then
    let s := (s.advance (t / 64)).putCh chan Reg.BLOCK.CH_STAT_HIGH false
    let c := s.chan chan
    (s.setChan chan { c with rearm := false, stuckFrom := none, hits := c.hits.map (·.trail t),
                             inj := c.inj.map (fun i => { i with fallen := i.hit }) }).passReady chan took
  else s

/-- HOLDOFF_EXPIRY: the hold-off of every hit that ends by tap-time t has expired (R32). -/
def State.holdoffExpiry (s : State) (chan t took : Nat) : State :=
  let c := s.chan chan
  ((s.advance (t / 64)).setChan chan { c with
    hits := c.hits.map (fun h => if h.lead + h.hold ≤ t then { h with holdDone := true } else h) }).passReady chan took

/-- TOT_SATURATION: a hit without trailing edge saturates at the start of tap L + 4096 (R72). -/
def State.totSaturation (s : State) (chan t took : Nat) : State :=
  let c := s.chan chan
  ((s.advance (t / 64)).setChan chan { c with
    hits := c.hits.map (fun h => if h.tot.isNone ∧ h.lead + 4096 ≤ t then { h with tot := some 1023, sat := true } else h)
    }).passReady chan took

/-- Gives its code to the oldest unconverted hit. -/
def convertOldest (code : Nat) : List Hit → List Hit
  | [] => []
  | h :: r => if h.code.isNone then { h with code := some code } :: r else h :: convertOldest code r

/-- The TAC map entry of a conversion that could not be read: NOM_MAP serves, as it was in the hit's frame (R68, R69,
R328). -/
def nominalOldest : List Hit → List Hit
  | [] => []
  | h :: r => if h.code.isNone then { h with mapA := h.nomA, mapB := h.nomB, nominal := true } :: r
              else h :: nominalOldest r

/-- The leading edges of the hits whose capacitors wait, oldest first: charging stopped two tap edges later (R61, R62). -/
def Chan.stops (c : Chan) : List Nat := (c.hits.filter (·.code.isNone)).map (·.lead)

/-- The cell's ADC converts a capacitor of this channel next: none of the cell's 32 stopped charging earlier (R62). Which of
coincident stops comes first is the arbiter's choice. -/
def State.convertsNext (s : State) (chan : Nat) : Bool :=
  match (s.chan chan).stops with
  | [] => false
  | l :: _ => (List.range 16).all (fun i => (s.chan (chan / 16 * 16 + i)).stops.all (fun m => decide (l ≤ m)))

/-- How often R66 and R67 limit the hit that a conversion completes (R68). -/
def clampsOf (code : Nat) (l : List Hit) : Nat :=
  match l.find? (·.code.isNone) with
  | some h => (h.time code).2.1.toNat + (h.time code).2.2.toNat
  | none => 0

/-- ADC_CONVERSION_DONE: the cell's ADC has converted the channel's oldest waiting capacitor, where that is the cell's next
(R62), and limits of its time count (R68); `read` is what the tile's TAC map store delivers. -/
def State.adcDone (s : State) (chan : Nat) (code : Byte) (took : Nat) (read : EccRead) : State :=
  if s.convertsNext chan then
    let t := chTile chan
    let c := s.chan chan
    let bad := decide (read = .uncorrectable)
    let hits := if bad then nominalOldest c.hits else c.hits
    let s := s.countRead pgINTG (4 + t.val) (chInTile chan) read
    let s := if bad then s.poisonTac chan else s
    let s := s.bump (pgTDC t) Reg.TDC.CLAMP_CNT 2 (clampsOf code.toNat hits)
    (s.setChan chan { c with hits := convertOldest code.toNat hits }).passReady chan took
  else s

/-- PROMOTION_DECISION: the candidates of a channel that are due at tap-time t are decided (R90). -/
def State.promotionDecision (s : State) (chan t took : Nat) : State :=
  let tl := chTile chan
  let due := (s.tile tl).cands.filter (fun p => p.chan == chan && decide (p.due ≤ t))
  let s := (s.advance (t / 64)).collect chan took
  (s.setTile tl { s.tile tl with
    cands := (s.tile tl).cands.filter (fun p => !(p.chan == chan && decide (p.due ≤ t))) }).each due
      (fun s p => s.decideCand tl p)

/-! ### Gate changes -/

/-- The gate of a tile opens while an output is high: R36, for every armed channel. -/
def State.gateHighChan (s : State) (frame : Nat) (chan : Nat) : State :=
  if s.isHigh chan && s.frontEndOn chan && !s.isMasked chan && !s.isSelfMasked chan && !s.isBlanked chan then
    ((s.setChan chan { s.chan chan with rearm := true }).bumpGateHigh chan).chaffGateHigh (chTile chan) frame
  else s

/-- Channels of a tile with state of their own. -/
def State.tileChans (s : State) (t : Fin 16) : List Nat := (s.chans.map (·.1)).filter (fun c => c / 4096 == t.val)

/-- The channel of a CH_STAT word that stands in the register file, where it says that the output is high. -/
def highChan (e : Nat × Word) : Option Nat :=
  if pageKind (e.1 / 4096) = some .block ∧ 0xC00 ≤ e.1 % 4096 ∧ e.2.getLsbD 30 = true then
    some (e.1 / 4096 / 256 % 16 * 4096 + e.1 / 4096 % 16 * 256 + (e.1 % 4096 - 0xC00) / 4) else none

/-- The front end of a channel goes off (R16, R41): its output and injection are gone, its stuck timer is reset, and hits not
yet converted are lost (R76). A converted hit that still waits for its trailing edge saturates (DESIGN CHOICE, log 16). -/
def State.disarm (s : State) (chan : Nat) : State :=
  let c := s.chan chan
  (s.setChan chan { c with hits := c.hits.filter (·.code.isSome), stuckFrom := none, inj := none, rearm := false }).putCh chan
    Reg.BLOCK.CH_STAT_HIGH false

/-- The front end goes off in the channels that a property holds of. -/
def State.disarmAll (s : State) (p : Nat → Bool) : State :=
  s.each (((s.chans.map (·.1)) ++ s.regs.filterMap highChan).filter p) (·.disarm ·)

/-- R36 over the channels of a tile. -/
def State.gateHigh (s : State) (t : Fin 16) (tap : Nat) : State := s.each (s.tileChans t) (·.gateHighChan (frameOfTap tap))

/-- GATE_APPLY: the tile applies its earliest waiting gate change (R34); where it opens the gate of the source in
force, R36 applies. -/
def State.gateApply (s : State) (t : Fin 16) : State :=
  match (s.tile t).gateNext with
  | [] => s
  | e :: r =>
    let was := s.gateOpen t (e.tap - 1)
    let s := (s.advance (e.tap / 64)).setTile t { s.tile t with
      gateNext := r, gateNow := mapPut e.src e.isOpen (s.tile t).gateNow }
    if e.src = s.fld (pgAFE t) Reg.AFE.GATE_CTRL_SRC then
      let s := s.putB (pgAFE t) Reg.AFE.GATE_STATUS_OPEN e.isOpen
      if e.isOpen && !was && !e.seen then s.gateHigh t e.tap else s
    else s

/-- Adds a gate change to those waiting, in time order. -/
def insertGate (e : GateEdge) : List GateEdge → List GateEdge
  | [] => [e]
  | f :: r => if e.tap < f.tap then e :: f :: r else f :: insertGate e r

/-- A change of GATE_CTRL.SRC at a boundary (R37): the new source's state is evaluated, changes that fall on the boundary
included, and R36 applies once where it is open. -/
def State.gateSourceChanged (s : State) (t : Fin 16) (tap : Nat) : State :=
  let o := s.gateOpen t tap
  let s := s.putB (pgAFE t) Reg.AFE.GATE_STATUS_OPEN o
  let s := s.setTile t { s.tile t with
    gateNext := (s.tile t).gateNext.map (fun e => { e with seen := e.seen || decide (e.tap ≤ tap) }) }
  if o then s.gateHigh t tap else s

/-! ### Stuck inputs, self-masks and blanking -/

/-- STUCK_LIM.LIMIT_US of a channel's block, in taps. -/
def State.stuckTaps (s : State) (chan : Nat) : Nat :=
  s.fld (chPage chan) Reg.BLOCK.STUCK_LIM_LIMIT_US * usTref * 64

/-- A channel masks itself (R39). -/
def State.selfMask (s : State) (chan : Nat) : State :=
  ((s.setChan chan { s.chan chan with stuckFrom := none }).putCh chan Reg.BLOCK.CH_STAT_SMASK true).event (chPage chan) 0

/-- STUCK_TIMER_EXPIRY at tap-time t: the timer of a channel that stayed high has passed its limit (R39). -/
def State.stuckExpiry (s : State) (chan t : Nat) : State :=
  match (s.chan chan).stuckFrom with
  | some u =>
    if s.isHigh chan && s.frontEndOn chan && decide (u + s.stuckTaps chan ≤ t) then
      (s.advance (t / 64)).selfMask chan
    else s
  | none => s

/-- A self-mask is cleared at a boundary (R40): the timer restarts where the output is high, and no edge is recorded
until it falls. -/
def State.clearSelfMask (s : State) (chan tap : Nat) : State :=
  if s.isSelfMasked chan then
    let s := s.putCh chan Reg.BLOCK.CH_STAT_SMASK false
    if s.isHigh chan then
      s.setChan chan { s.chan chan with rearm := true, stuckFrom := if s.isMasked chan then none else some tap }
    else s
  else s

/-- Blanks a channel for 2048 T_ref from tap-time tap (R47). -/
def State.blank (s : State) (chan tap : Nat) : State :=
  (s.setChan chan { s.chan chan with blankEnd := tap + 2048 * 64 }).putCh chan Reg.BLOCK.CH_STAT_BLANKED true

/-- BLANKING_END at tap-time t (R47): a channel whose output is high rearms when it falls. -/
def State.blankingEnd (s : State) (chan t : Nat) : State :=
  if s.isBlanked chan && decide ((s.chan chan).blankEnd ≤ t) then
    ((s.advance (t / 64)).putCh chan Reg.BLOCK.CH_STAT_BLANKED false).setChan chan
      { s.chan chan with blankEnd := 0, rearm := s.isHigh chan }
  else s

/-! ### Injection -/

/-- R43: an injection is launched into a channel with INJ_EN that is not masked, self-masked, high or in hold-off. -/
def State.canInject (s : State) (chan tap : Nat) : Bool :=
  s.frontEndOn chan && s.chFlag chan Reg.BLOCK.CH_CFG_INJ_EN && !s.isMasked chan && !s.isSelfMasked chan && !s.isHigh chan &&
    decide ((s.chan chan).holdEnd ≤ tap)

/-- Launches an injection into a channel: it deposits its charge (R42), and the channel is blind from here (R44). -/
def State.launch (s : State) (chan tap : Nat) : State :=
  s.setChan chan { s.chan chan with inj := some { launch := tap, charge := s.injCharge chan, hit := false, fallen := false } }

/-- The blind interval of a launch ends without a hit at tap-time t (R44). -/
def State.blindOver (s : State) (chan t : Nat) : Bool :=
  match (s.chan chan).inj with
  | some i => !i.hit && decide (i.launch + 32 * 64 ≤ t)
  | none => false

/-- Forgets an injection. -/
def State.endInject (s : State) (chan : Nat) : State := s.setChan chan { s.chan chan with inj := none }

end Sys2Proof.Machine
end

