-- ==== Sys2Proof/Machine/Tile.lean ====
section
/-!
DEFINITION. Tile frames and tokens (R93-R96), port cuts and resumption (R101-R104), timing faults (R56-R60), the
tile's share of a frame boundary, and the tillers' idle and ceiling rules (R16-R19, R41).
-/

namespace Sys2Proof.Machine

/-! ### Tokens -/

/-- A count limited to its field, and whether it has reached the field's maximum (R95, R96, R158). -/
def satField (bits n : Nat) : Nat × Bool := (min n (2 ^ bits - 1), decide (2 ^ bits - 1 ≤ n))

/-- The four words of a frame-closed token (R95). -/
def closedWords (frame : Nat) (ch : FrameChaff) (pf : PortFrame) (leave : Bool) : List (BitVec 52) :=
  let rec_ := satField 16 pf.records
  let mk := satField 15 ch.masked
  let st := satField 15 ch.stuck
  let gh := satField 15 ch.gateHigh
  let cs := satField 15 pf.capStream
  let cw := satField 15 pf.capShadow
  let sat := rec_.2 || mk.2 || st.2 || gh.2 || cs.2 || cw.2
  [BitVec.ofNat 52 (1 * 2 ^ 46 + sheafOf frame),
   BitVec.ofNat 52 (15 * 2 ^ 46 + rec_.1 * 2 ^ 30 + mk.1 * 2 ^ 15 + st.1),
   BitVec.ofNat 52 (15 * 2 ^ 46 + gh.1 * 2 ^ 31 + cs.1 * 2 ^ 16 + cw.1 * 2 + sat.toNat),
   BitVec.ofNat 52 (15 * 2 ^ 46 + min pf.refused.length 4096 * 2 ^ 33 + leave.toNat * 2 ^ 32 + pf.crc.toNat)]

/-- The three words of a resume token (R104). -/
def resumeWords (frame reason missed discarded : Nat) : List (BitVec 52) :=
  [BitVec.ofNat 52 (2 * 2 ^ 46 + sheafOf frame),
   BitVec.ofNat 52 (15 * 2 ^ 46 + reason % 16 * 2 ^ 42 + min missed (2 ^ 40 - 1)),
   BitVec.ofNat 52 (15 * 2 ^ 46 + min discarded (2 ^ 32 - 1))]

/-- PSTAT.STATE of a port (R108): cut, tile absent or running. -/
def State.showPort (s : State) (t : Fin 16) (c : Conc) : State :=
  s.put (pgPORTS t) (portReg Reg.PORTS.PSTAT_STATE c)
    (if (s.port t c).cut then 1 else if (s.tile t).absent then 2 else 0)

/-- The frame-closed token of frame n enters a port, or is discarded by a cut (R98, R102). -/
def State.offerToken (s : State) (t : Fin 16) (c : Conc) (n : Nat) (leave : Bool) : State :=
  let p := s.port t c
  let ch := mapGetD {} n (s.tile t).chaff
  let q := { p with frames := mapDel n p.frames }
  if p.cut || decide (n < p.since) then s.setPort t c q
  else s.setPort t c { q with
    items := p.items ++ [PortItem.closed (closedWords n ch (mapGetD {} n p.frames) leave) n] }

/-- Every hit whose C lies in frame n has passed and been decided (R93). -/
def State.frameDecided (s : State) (t : Fin 16) (n : Nat) : Bool :=
  (s.tileChans t).all (fun c => (s.chan c).hits.all (fun h => frameOfTap h.lead != n)) &&
    (s.tile t).cands.all (fun p => frameOfTap p.lead != n)

/-- The tile may close frame n: the frame has ended, it is the tile's next, and the tile is present in it (R93). -/
def State.canClose (s : State) (t : Fin 16) (n : Nat) : Bool :=
  (s.tile t).nextClose == n && decide (n < s.frame) && s.frameDecided t n &&
    (!(s.tile t).absent || (s.tile t).leaveAt.isSome)

/-- EMIT_FRAME_CLOSED: the tile closes its next frame on both ports (R93), after the records that wait in its cell queues, so
that every record of the frame precedes its token (R94); the last frame before an absence carries LEAVE. -/
def State.emitClosed (s : State) (t : Fin 16) : State :=
  let n := (s.tile t).nextClose
  if s.canClose t n then
    let leave := (s.tile t).leaveAt == some n
    let s := ((s.collectAll t).offerToken t .a n leave).offerToken t .b n leave
    (s.setTile t { s.tile t with
      nextClose := n + 1, chaff := mapDel n (s.tile t).chaff,
      leaveAt := if leave then none else (s.tile t).leaveAt }).put (pgTILE t) Reg.TILE.LAST_FRAME (sheafOf n)
  else s

/-! ### Cut and resume -/

/-- The words of an item; a record is one word (R83, R95, R104). -/
def PortItem.words : PortItem → List (BitVec 52)
  | .hit r _ => [r]
  | .closed ws _ => ws
  | .resume ws _ => ws

/-- The word of an item that is in transfer where `k` words of it have been acknowledged (R103). -/
def PortItem.word (k : Nat) (i : PortItem) : BitVec 52 := i.words.getD (min k (i.words.length - 1)) 0

def PortItem.isHit : PortItem → Bool
  | .hit _ _ => true
  | _ => false

/-- PORT_CUT: at the boundary at which the run of R101 has reached LAG_LIM the port is cut; everything held but the word in
transfer is discarded, the rest of a token some words of which are acknowledged included (R103); a record in transfer stays held
until it is acknowledged. -/
def State.portCut (s : State) (t : Fin 16) (c : Conc) : State :=
  let p := s.port t c
  if !p.cut && decide (s.now = s.frame * frameTref) && !p.acked &&
      decide (s.fld (pgPORTS t) Reg.PORTS.PORT_CTRL_LAG_LIM ≤ p.lag) && !p.items.isEmpty then
    let n := (p.items.tail.filter PortItem.isHit).length
    let s := s.setPort t c { p with
      items := [], words := 0, side := [], cut := true, lag := 0, late := p.items.head?.map (PortItem.word p.words),
      lateAcked := false, discarded := p.discarded + n }
    let held := (match p.items.head? with | some i => i.isHit | none => false).toNat
    ((((s.put (pgPORTS t) (portReg Reg.PORTS.PSTAT_FILL c) held).bump (pgPORTS t) (portReg Reg.PORTS.CUT_CNT c)
      (8 * c.idx + 3)).bump (pgPORTS t) (portReg Reg.PORTS.CUT_DISCARD_CNT c) (8 * c.idx + 4) n).showPort t c).event
      (pgPORTS t) (8 * c.idx)
  else s

/-- A port's share of the boundary that begins frame f: the run of R101, the end of a cut (R103), and the resume
token it owes (R104). Two points are the model's choices (DESIGN CHOICE, log 42): records and tokens are the items to send of
R101, side items are none; and MISSED and DISCARDED of a resume token are those of the moment at which it is queued. A third
(DESIGN CHOICE, log 57): the reasons of a resume token that a cut discards undelivered are not repeated by the next one. -/
def State.portBoundary (s : State) (t : Fin 16) (f : Nat) (c : Conc) : State :=
  let p := s.port t c
  let lag := if !p.cut && !p.items.isEmpty && !p.acked then p.lag + 1 else 0
  let back := p.cut && p.lateAcked
  let cut := p.cut && !p.lateAcked
  let owes := if back then Nat.lor p.owes 1 else p.owes
  let send := owes != 0 && !cut && !(s.tile t).absent
  let q := { p with
    lag := lag, acked := false, cut := cut, late := if back then none else p.late, lateAcked := false,
    since := if back then f else p.since, owes := if send then 0 else owes,
    items := if send then p.items ++ [PortItem.resume (resumeWords f owes (f - p.oldest) p.discarded) f] else p.items }
  ((s.setPort t c q).showPort t c).eventIf back (pgPORTS t) (8 * c.idx + 1)

/-- Some words of the token at the head of a port's buffer have been acknowledged, `n` in all (R101). -/
def State.ackWords (s : State) (t : Fin 16) (c : Conc) (n : Nat) : State :=
  let p := s.port t c
  if p.words < n then s.setPort t c { p with words := n, acked := true } else s

/-- An item is acknowledged on a port: it leaves the buffer; a delivered frame-closed token moves LAST_TOKEN on
(R104, R108). -/
def State.ackItem (s : State) (t : Fin 16) (c : Conc) : State :=
  let p := s.port t c
  match p.items with
  | [] => s
  | .hit _ _ :: r =>
    (s.setPort t c { p with items := r, acked := true }).put (pgPORTS t) (portReg Reg.PORTS.PSTAT_FILL c)
      (s.stored (pgPORTS t) (portReg Reg.PORTS.PSTAT_FILL c) - 1)
  | .closed _ n :: r =>
    (s.setPort t c { p with items := r, words := 0, acked := true, oldest := n + 1, discarded := 0 }).put (pgPORTS t)
      (portReg Reg.PORTS.LAST_TOKEN c) (sheafOf n)
  | .resume _ _ :: r => s.setPort t c { p with items := r, words := 0, acked := true }

/-! ### Timing faults (R54-R60) -/

/-- The unpassed hits of a tile's channels are discarded (R59). -/
def State.dropHits (s : State) (t : Fin 16) : State :=
  s.each (s.tileChans t) (fun s c => s.setChan c { s.chan c with hits := [] })

/-- The pending candidates of a tile are decided at once (R105). -/
def State.decideAll (s : State) (t : Fin 16) : State :=
  (s.setTile t { s.tile t with cands := [] }).each (s.tile t).cands (fun s p => s.decideCand t p)

/-- A tile stops in frame f as R59 lays down: recording stops, unpassed hits are discarded, the frame is closed with LEAVE and
the tile is absent from the next one, for the given reasons of R104. -/
def State.stopRecording (s : State) (t : Fin 16) (f reasons : Nat) : State :=
  let s := (s.dropHits t).decideAll t
  let tl := s.tile t
  s.setTile t { tl with
    halted := true, reasons := Nat.lor tl.reasons reasons,
    leaveAt := if tl.absent then tl.leaveAt else some (tl.leaveAt.getD f) }

/-- A timing fault in frame f (R59). A tile that is absent already is now absent through it too, as ABSENT says (R60). -/
def State.timingFault (s : State) (t : Fin 16) (f : Nat) : State :=
  let s := s.stopRecording t f 4
  if (s.tile t).absent then s.putB (pgTDC t) Reg.TDC.LOCK_STATUS_ABSENT true else s

/-- The line runs (R58). -/
def State.lineRuns (s : State) (t : Fin 16) : Bool :=
  s.flag (pgTDC t) Reg.TDC.DLL_CTRL_ENABLE && decide (2 ≤ s.pwr (pgTILE t))

/-- LOCK_STATUS shows what the line reports of itself (R78). -/
def State.showLine (s : State) (t : Fin 16) (r : LineReport) : State :=
  ((s.put (pgTDC t) Reg.TDC.LOCK_STATUS_PHASE_ERR r.err.toNat).put (pgTDC t) Reg.TDC.LOCK_STATUS_CTRL_VAL r.ctrl.toNat).putB
    (pgTDC t) Reg.TDC.LOCK_STATUS_SAT (decide (r.ctrl.toNat = 0 ∨ r.ctrl.toNat = 4095))

/-- The phase error has stayed within ±LOCK_WIN (R57). -/
def State.inWindow (s : State) (t : Fin 16) (r : LineReport) : Bool :=
  decide (r.bound ≤ s.fld (pgTDC t) Reg.TDC.DLL_CTRL_LOCK_WIN)

/-- DLL_LOCK: the end of 4096 T_ref of a line that runs (R57, R58). It locks where the phase error stayed within the window and,
while it acquires, tap 32 falls within ±4 taps of half a period; an acquisition that fails that check goes on from the shortest
delay (R56). -/
def State.dllLock (s : State) (t : Fin 16) (r : LineReport) : State :=
  if s.lineRuns t then
    let s := s.showLine t r
    if s.inWindow t r && (!(s.tile t).acquiring || decide (-4 ≤ r.tap32 ∧ r.tap32 ≤ 4)) then
      (s.setTile t { s.tile t with acquiring := false }).putB (pgTDC t) Reg.TDC.LOCK_STATUS_LOCKED true
    else s
  else s

/-- LOCKED falls in LISTEN or RUN: a timing fault (R59). DESIGN CHOICE (log 55): a fall through phase error starts no new
acquisition, so LOCKED rises again without the check at tap 32. -/
def State.lockLost (s : State) (t : Fin 16) : State :=
  (((s.putB (pgTDC t) Reg.TDC.LOCK_STATUS_LOCKED false).timingFault t s.frame).bump (pgTDC t)
    Reg.TDC.FAULT_CNT_UNLOCK_CNT 0).event (pgTDC t) 0

/-- The phase error has lain outside ±LOCK_WIN in every T_ref reported (R57). -/
def State.outOfWindow (s : State) (t : Fin 16) (r : LineReport) : Bool :=
  decide (s.fld (pgTDC t) Reg.TDC.DLL_CTRL_LOCK_WIN < r.least)

/-- DLL_UNLOCK: the end of 4 consecutive T_ref; LOCKED falls where the phase error lay outside the window in each (R57). -/
def State.dllUnlock (s : State) (t : Fin 16) (r : LineReport) : State :=
  if s.lineRuns t then
    let s := s.showLine t r
    if s.flag (pgTDC t) Reg.TDC.LOCK_STATUS_LOCKED && s.outOfWindow t r then s.lockLost t else s
  else s

/-- A coarse slip found at the boundary that begins frame f (R59). -/
def State.coarseSlip (s : State) (t : Fin 16) (f : Nat) : State :=
  let s := s.timingFault t f
  ((s.setTile t { s.tile t with reload := true }).bump (pgTDC t) Reg.TDC.FAULT_CNT_SLIP_CNT 1).event
    (pgTDC t) 1

/-- The tile resumes with frame f (R19, R41, R60): both ports owe a resume token with the reasons gathered. After OFF both
concentrators' record of its parity is 0 from frame f on (R223). -/
def State.resumeTile (s : State) (t : Fin 16) (f : Nat) : State :=
  let tl := s.tile t
  let owe (p : Port) : Port := { p with owes := Nat.lor p.owes tl.reasons }
  let s := s.setTile t { tl with
    absent := false, halted := false, nextClose := f, leaveAt := none, reasons := 0, chaff := [], cands := [],
    streams := [], portA := { owe tl.portA with frames := [] }, portB := { owe tl.portB with frames := [] } }
  let s := if Nat.testBit tl.reasons 3 then s.each concs (fun s c => s.setRx c t { s.rx c t with parity := false }) else s
  (s.putB (pgTDC t) Reg.TDC.LOCK_STATUS_ABSENT false).eventIf (Nat.testBit tl.reasons 2) (pgTDC t) 3

/-- The coarse count at the boundary that begins frame f (R54): what the frame sync carries where it is reloaded, otherwise 4096
reference edges on from the last boundary, and `gained` edges more. DESIGN CHOICE (log 56): it advances in KEEP too, where it is
compared with nothing. -/
def Tile.countAt (tl : Tile) (f : Nat) (gained : BitVec 48) : BitVec 48 :=
  if tl.reload then BitVec.ofNat 48 (frameCoarse f) else tl.count + 4096 + gained

/-- A write of a peal sets the ceiling of a tile or of the module below LISTEN; the alias page stands for every tile (R408). -/
def lowersCeil (w : PWrite) (t : Fin 16) : Bool :=
  w.off.toNat == 0x010 && (w.page.toNat == pgTILE t || w.page.toNat == pgMOD || w.page.toNat == 0x2000) &&
    decide (fieldGet Reg.HDR.PWR_STATE_CEIL w.value < 2)

/-- The peal committed to the boundary that begins frame f sets a ceiling below LISTEN for the tile (R19, R385). -/
def State.pealLowers (s : State) (t : Fin 16) (f : Nat) : Bool :=
  match s.peal with
  | some p => s.stored pgJRNL Reg.JRNL.PEAL_STAT_STATE == 3 && p.frame == f && p.writes.any (fun e => lowersCeil e.2 t)
  | none => false

/-- The tile's ceilings let it be in LISTEN or RUN in frame f (R17, R19). -/
def State.mayListen (s : State) (t : Fin 16) (f : Nat) : Bool :=
  !(s.tile t).testHeld && decide (2 ≤ s.effCeil (pgTILE t)) && !s.pealLowers t f

/-! ### Tile power (R16-R19, R41) -/

/-- The state of a tiller follows its ceilings: below LISTEN it takes the ceiling; with a ceiling of LISTEN or RUN it
is at least in LISTEN (R17, R18). -/
def nextPower (now ceil : Nat) : Nat := if ceil < 2 then ceil else if ceil = 2 then 2 else max now 2

/-- Registers of a range of pages return to their reset values, and the pages are locked (R407). -/
def State.resetPages (s : State) (lo hi : Nat) : State :=
  let keep (e : Nat × Word) : Bool := !(decide (lo ≤ e.1 / 4096) && decide (e.1 / 4096 < hi))
  { s with regs := s.regs.filter keep, stale := s.stale.filter keep, rwsStaged := s.rwsStaged.filter keep,
           eventQ := s.eventQ.filter (fun p => !(decide (lo ≤ p.1) && decide (p.1 < hi))),
           unlocks := s.unlocks.filter (fun u => !(decide (lo ≤ u.1) && decide (u.1 < hi))),
           pendW := s.pendW.filter (fun w => !(decide (lo ≤ w.page) && decide (w.page < hi))) }

/-- A block goes OFF (R16): its configuration is lost, its page back at reset but for the ceiling that the host set, and its
channels with it. DESIGN CHOICE (log 43): nothing is loaded when the block returns. -/
def State.blockOff (s : State) (t : Fin 16) (b : Nat) : State :=
  let p := pgBLOCK t b
  let ceil := s.stored p Reg.HDR.PWR_STATE_CEIL
  let s := (s.resetPages p (p + 1)).put p Reg.HDR.PWR_STATE_CEIL ceil
  { s with chans := s.chans.filter (fun e => !(e.1 / 256 == t.val * 16 + b)) }

/-- A block takes a power state: its channels' front ends go off below LISTEN, and in OFF its configuration is lost (R16), with
the tile's own where the tile falls to OFF (R19). -/
def State.blockTo (s : State) (t : Fin 16) (b st : Nat) : State :=
  let now := s.pwr (pgBLOCK t b)
  let s := if st < 2 ∧ 2 ≤ now then s.disarmAll (fun c => c / 256 == t.val * 16 + b) else s
  let s := if st = 0 ∧ 1 ≤ now ∧ 1 ≤ s.pwr (pgTILE t) then s.blockOff t b else s
  s.put (pgBLOCK t b) Reg.HDR.PWR_STATE_STATE st

/-- The tile's blocks follow it (R18). -/
def State.followBlocks (s : State) (t : Fin 16) : State :=
  s.each (List.range 16) (fun s b =>
    s.blockTo t b (nextPower (s.pwr (pgBLOCK t b)) (min (s.pwr (pgTILE t)) (s.ceil (pgBLOCK t b)))))

/-- A tile falls to KEEP or OFF at the boundary that begins frame f (R19, R41): its front end and its line stop, frame f − 1 is
closed with LEAVE, or the next frame to close where f − 1 is closed already. -/
def State.tileFalls (s : State) (t : Fin 16) (f st : Nat) : State :=
  let s := s.disarmAll (fun c => c / 4096 == t.val)
  let tl := s.tile t
  let s := s.setTile t { tl with
    halted := true, settled := false, acquiring := true, reasons := Nat.lor tl.reasons (if st = 0 then 10 else 2),
    leaveAt := if tl.absent then tl.leaveAt else some (max (f - 1) tl.nextClose), absent := true,
    power := if st = 0 then .leaving else tl.power }
  (s.putB (pgTDC t) Reg.TDC.LOCK_STATUS_LOCKED false).put (pgTILE t) Reg.HDR.PWR_STATE_STATE st

/-- A tile's state follows its ceilings at the boundary that begins frame f. A powered tile rises or falls here; a
tile without power rises only through TILE_POWER_UP; one held by a failed checker stays in KEEP (R324). -/
def State.followTile (s : State) (t : Fin 16) (f : Nat) : State :=
  let tl := s.tile t
  let c := if tl.testHeld then min 1 (s.effCeil (pgTILE t)) else s.effCeil (pgTILE t)
  let now := s.pwr (pgTILE t)
  let nx := nextPower now c
  if tl.power = .on then
    (if nx < 2 ∧ nx < now then s.tileFalls t f nx
     else s.put (pgTILE t) Reg.HDR.PWR_STATE_STATE nx).followBlocks t
  else s

/-- An absent tile that has closed its last frame may resume with frame f (R41, R60). -/
def State.mayResume (s : State) (t : Fin 16) (f : Nat) : Bool :=
  (s.tile t).absent && (s.tile t).leaveAt.isNone && (s.tile t).settled && s.mayListen t f &&
    s.flag (pgTDC t) Reg.TDC.LOCK_STATUS_LOCKED

/-- A tile whose last frame has ended is absent (R19, R59). -/
def State.tileLeaves (s : State) (t : Fin 16) (f : Nat) : State :=
  let tl := s.tile t
  match tl.leaveAt with
  | some n =>
    if n < f then
      (s.setTile t { tl with absent := true }).putB (pgTDC t) Reg.TDC.LOCK_STATUS_ABSENT (Nat.testBit tl.reasons 2)
    else s
  | none => s

/-- A tile at the boundary that begins frame f. It compares its count with the frame sync's, a reload being no comparison (R54,
R60), follows its ceilings (R19), leaves or resumes; then its ports begin the frame, so that one resume token tells of a cut and
an absence that overlap (R105). -/
def State.tileBoundary (s : State) (t : Fin 16) (f : Nat) (gained : BitVec 48) : State :=
  let tl := s.tile t
  let count := tl.countAt f gained
  let compares := decide (2 ≤ s.pwr (pgTILE t)) && !tl.reload
  let slips := compares && decide (count.toNat ≠ frameCoarse f)
  let s := s.setTile t { tl with
    count := count, reload := false, streams := tl.streams.filter (fun x => decide (f * 262144 < x.2 + 65536)) }
  let s := (if slips then s.coarseSlip t f else s).followTile t f
  let s := if compares && !slips && s.mayResume t f then s.resumeTile t f else s.tileLeaves t f
  (s.portBoundary t f .a).portBoundary t f .b

/-- TILE_RESUME: the front end has settled after LISTEN entry and the line has locked (R41); the tile resumes at the
next boundary whose comparison matches. -/
def State.tileResume (s : State) (t : Fin 16) : State :=
  if decide (2 ≤ s.pwr (pgTILE t)) && s.flag (pgTDC t) Reg.TDC.LOCK_STATUS_LOCKED && (s.tile t).absent then
    s.setTile t { s.tile t with settled := true }
  else s

/-- A port has delivered its LEAVE token or been cut (R19). -/
def Port.drained (p : Port) : Bool := p.cut || p.items.isEmpty

/-- A tile's content is lost (R41): its pages but for the ceiling the belfry holds, its channels, maps and buffers. -/
def State.tileLost (s : State) (t : Fin 16) (power : TilePower) : State :=
  let ceil := s.stored (pgTILE t) Reg.HDR.PWR_STATE_CEIL
  let inTile (k : Nat) : Bool := k / 4096 == t.val
  let s := (s.resetPages (pgTILE t) (pgTILE t + 0x100)).put (pgTILE t) Reg.HDR.PWR_STATE_CEIL ceil
  let tl := s.tile t
  let fresh (p : Port) : Port := { oldest := p.oldest, owes := Nat.lor p.owes p.cut.toNat }
  { s with
    chans := s.chans.filter (fun e => !inTile e.1), tac := s.tac.filter (fun e => !inTile e.1),
    tacStaged := s.tacStaged.filter (fun e => !inTile e.1), tacPoison := s.tacPoison.filter (fun k => !inTile k),
    tiles := s.tiles.set t { power := power, reasons := Nat.lor tl.reasons 8, gateNow := tl.gateNow,
                             gateNext := tl.gateNext, portA := fresh tl.portA, portB := fresh tl.portB } }

/-- TILE_POWER_REMOVAL: a tile falling to OFF loses power once each port is drained (R19, R41). -/
def State.tilePowerRemoval (s : State) (t : Fin 16) : State :=
  let tl := s.tile t
  if tl.power = .leaving && tl.leaveAt.isNone && tl.portA.drained && tl.portB.drained then s.tileLost t .off else s

/-! ### Idle (R17) -/

/-- No hit, injection or side-channel work is pending in a tile (R17, log 39). -/
def State.tileIdle (s : State) (t : Fin 16) : Bool :=
  (s.tileChans t).all (fun c => (s.chan c).hits.isEmpty && (s.chan c).inj.isNone) && (s.tile t).cands.isEmpty &&
    (s.tile t).cellq.isEmpty && [Conc.a, Conc.b].all (fun c => (s.port t c).items.isEmpty && (s.port t c).side.isEmpty)

/-- No hit or side-channel work is pending in a concentrator: its ports' tiles are idle, and it holds no records of frames to
form, shadow records to write, sheaves to deal, calibration records to pair, gleans or re-send requests. -/
def State.mergeIdle (s : State) (c : Conc) : Bool :=
  let cs := s.conc c
  allTiles.all (fun t => s.tileIdle t && (s.rx c t).recs.all (·.2.isEmpty) && (s.rx c t).shadow.all (·.2.isEmpty)) &&
    cs.captured.isEmpty && cs.queue.isEmpty && cs.stream.isNone && decide (cs.nextForm ≤ cs.sendNext) && cs.gleans.isEmpty &&
    cs.resends.isEmpty && cs.resendCur.isNone

/-- No hit or injection is pending in a block: none in its channels, none undecided and none in its cells' queues. -/
def State.blockIdle (s : State) (t : Fin 16) (b : Nat) : Bool :=
  (s.tileChans t).all (fun c => c / 256 % 16 != b || ((s.chan c).hits.isEmpty && (s.chan c).inj.isNone)) &&
    (s.tile t).cands.all (fun p => p.chan / 256 % 16 != b) && (s.tile t).cellq.all (fun e => e.1 / 16 != b)

/-- No work is pending in the tiller of a primary page, nor in those under it. -/
def State.pageIdle (s : State) (page : Nat) : Bool :=
  if page / 4096 = 1 then
    let t := chTile (page / 256 * 4096)
    if page % 256 = 0 then s.tileIdle t
    else s.blockIdle t (page % 16)
  else if page = pgMERGE .a then s.mergeIdle .a
  else if page = pgMERGE .b then s.mergeIdle .b
  else s.mergeIdle .a && s.mergeIdle .b

/-- The primary pages of the tillers under a tiller (R18, R402). -/
def childPages (page : Nat) : List Nat :=
  let blocks (t : Nat) : List Nat := (List.range 16).map (pgBLOCK t)
  if page = pgMOD then concs.map pgMERGE ++ allTiles.flatMap (fun t => pgTILE t :: blocks t)
  else if page / 4096 = 1 ∧ page % 256 = 0 then blocks (page / 256 % 16) else []

/-- A tiller in RUN is in LISTEN. -/
def State.toListen (s : State) (page : Nat) : State :=
  if s.pwr page = 3 then s.put page Reg.HDR.PWR_STATE_STATE 2 else s

/-- IDLE_EXPIRY: a tiller in RUN without pending work for IDLE_US returns to LISTEN (R17), and with it, whatever their own idle
intervals, those under it, which may not stand higher (R18; DESIGN CHOICE, log 44). -/
def State.idleExpiry (s : State) (page : Nat) : State :=
  if s.pwr page = 3 && s.pageIdle page then (page :: childPages page).foldl (·.toListen ·) s else s

end Sys2Proof.Machine
end

