-- ==== Sys2Proof/Machine/Merge.lean ====
section
/-!
DEFINITION. Correction (R110-R117), the receipt of tile streams and the merge (R118-R124), averaged summaries
(R125-R127), sheaf formation (R142-R160), the replay partition and the shadow ring as formation writes them
(R287-R293), spill and dropped frames (R129-R131).
-/

namespace Sys2Proof.Machine

/-! ### Correction -/

/-- A field [hi:lo] of a correction entry (R110). -/
def entryFld (e : BitVec 128) (hi lo : Nat) : Nat := bitsOf hi lo e.toNat
def entryValid (e : BitVec 128) : Bool := e.getLsbD 127
/-- Walk in 1/256 tick: w256 of R112. -/
def walk256 (e : BitVec 128) (tot : Nat) : Int :=
  let den := max 1 (4 * tot + entryFld e 37 30)
  16 * ((64 * entryFld e 55 38 / den : Nat) : Int) + signedOf 12 (entryFld e 29 18) * tot
/-- vc of R112 before limiting. -/
def correctTime (e : BitVec 128) (v tot : Nat) : Int :=
  (256 * (v : Int) - (16 * signedOf 24 (entryFld e 95 72) + walk256 e tot) + 128) / 256
/-- totc of R112 before limiting. -/
def correctTot (e : BitVec 128) (tot : Nat) (saturated : Bool) : Int :=
  if saturated then 1023
  else (65536 * (tot : Int) + 32768 + walk256 e tot - 256 * signedOf 16 (entryFld e 71 56)) / 65536

/-- The 56-bit record of R114 and R147. -/
def record56 (type chan time tot flags : Nat) : BitVec 56 :=
  BitVec.ofNat 56 (packFields [(2, type), (16, chan), (24, time), (10, tot), (4, flags)])

/-- How many of the limits of R113 apply. -/
def limitsOf (vc totc : Int) : Nat :=
  (decide (vc < 0 ∨ 16777215 < vc)).toNat + (decide (totc < 0 ∨ 1023 < totc)).toNat

/-- A corrected record (R112-R114) with the number of limits applied; an invalid entry passes v and T unchanged. -/
def correctRecord (e : BitVec 128) (valid : Bool) (t : Fin 16) (r : BitVec 52) : BitVec 56 × Nat :=
  let v := recTif r
  let tot := recTot r
  let f := recFlags r
  let chan := t.val * 4096 + recChan r
  if valid then
    let vc := correctTime e v tot
    let tc := correctTot e tot (f.testBit 3)
    let n := limitsOf vc tc
    (record56 (recType r) chan (clampInt 0 16777215 vc).toNat (clampInt 0 1023 tc).toNat
      (Nat.lor f (decide (0 < n)).toNat), n)
  else (record56 (recType r) chan v tot (Nat.lor f 1), 0)

/-- Some word of a channel's entry is poisoned (R328). -/
def ConcSt.entryPoisoned (c : ConcSt) (chan : Nat) : Bool := c.corrPoison.any (fun w => w / 4 == chan)

/-- The entry of a channel in force for a frame (R115, R116), and whether it is applied (R110, R328). -/
def ConcSt.entry (c : ConcSt) (chan frame : Nat) : BitVec 128 :=
  c.corrOld.foldl (fun e x => if frame < x.1 then (mapFind chan x.2).getD e else e) (mapGetD 0 chan c.corr)
def ConcSt.entryApplied (c : ConcSt) (chan frame : Nat) : Bool :=
  entryValid (c.entry chan frame) && (!c.entryPoisoned chan || c.corrOld.any (fun x =>
    decide (frame < x.1) && (mapFind chan x.2).isSome))

/-! ### Shadow extents (R291) -/

/-- The index of an extent in the shadow ring. -/
def extentIndex (n alloc : Nat) : Nat := alloc % n

/-- The four records of unit u of an extent (R291). -/
def extentUnit (recs : List (BitVec 56)) (u : Nat) : BitVec 256 :=
  let r (i : Nat) : Nat := (recs.getD (4 * (u - 1) + i) 0).toNat
  BitVec.ofNat 256 (packFields [(56, r 0), (56, r 1), (56, r 2), (56, r 3), (32, 0)])

/-- An extent's header unit (R291). -/
def extentHeader (next : Nat) (t : Fin 16) (e : Extent) : BitVec 256 :=
  BitVec.ofNat 256 (packFields [(32, next), (4, t.val), (16, sheafOf e.first % 65536), (8, e.recs.length)] * 2 ^ 196)

/-- Writes an extent and allocates the tile's next (R291). -/
def State.writeExtent (s : State) (c : Conc) (t : Fin 16) (e : Extent) : State :=
  let n := s.shadowExtents c
  let cs := s.conc c
  let base := shadowBase + extentIndex n e.alloc * 64
  let cs := (List.range ((e.recs.length + 3) / 4)).foldl (fun cs i => cs.putU true (base + 1 + i) (extentUnit e.recs (1 + i)))
    (cs.putU true base (extentHeader (extentIndex n cs.extents) t e))
  let s := (s.setConc c { cs with extents := cs.extents + 1 }).issueWrites c true
    ((List.range (1 + (e.recs.length + 3) / 4)).map (base + ·))
  s.setRx c t { s.rx c t with ext := some { alloc := cs.extents, first := 0, arrived := 0, recs := [] } }

/-- The tile's open extent, allocated if it has none. -/
def State.openExtent (s : State) (c : Conc) (t : Fin 16) : Extent × State :=
  match (s.rx c t).ext with
  | some e => (e, s)
  | none =>
    let cs := s.conc c
    let e : Extent := { alloc := cs.extents, first := 0, arrived := 0, recs := [] }
    (e, (s.setConc c { cs with extents := cs.extents + 1 }).setRx c t { s.rx c t with ext := some e })

/-- Appends a shadow record of frame n, which arrived in frame `arrived`, to its tile's extents (R291). -/
def State.appendShadow (s : State) (c : Conc) (t : Fin 16) (n : Nat) (r : BitVec 56) (arrived : Nat) : State :=
  let (e, s) := s.openExtent c t
  let e := if e.recs.isEmpty then { e with first := n, arrived := arrived } else e
  let e := { e with recs := e.recs ++ [r] }
  let s := s.setRx c t { s.rx c t with ext := some e }
  if 252 ≤ e.recs.length then s.writeExtent c t e else s

/-- A tile's shadow records of frame n enter the ring as its sheaf is formed: those of a tile that turns behind never do (R119,
R291). Where the first of them stands (R292). DESIGN CHOICE (log 45): until then they wait on the die. -/
def State.appendShadows (s : State) (c : Conc) (t : Fin 16) (n : Nat) : Option ShadowSpan × State :=
  match mapGetD [] n (s.rx c t).shadow with
  | [] => (none, s)
  | l =>
    let (e, s) := s.openExtent c t
    (some { alloc := e.alloc, place := e.recs.length, count := l.length },
     s.each l (fun s x => s.appendShadow c t n x.1 x.2))

/-! ### Receiving (R118-R123) -/

/-- Merge and correction run (R22, R277): the concentrator forms sheaves. -/
def ConcSt.merging (c : ConcSt) : Bool := c.run == .running || c.run == .joining

/-- Whether tile t is behind (R119): the register is the only home. -/
def State.behind (s : State) (c : Conc) (t : Fin 16) : Bool :=
  (s.stored (pgMERGE c) Reg.MERGE.PRESENT_BEHIND).testBit t.val
def State.setBehind (s : State) (c : Conc) (t : Fin 16) (b : Bool) : State :=
  s.putB (pgMERGE c) ⟨Reg.MERGE.PRESENT.off, 16 + t.val, 16 + t.val⟩ b

/-- n late records of tile t (R119, R121, R122): counters, event, and the trailer of the oldest unformed sheaf. -/
def State.countLate (s : State) (c : Conc) (t : Fin 16) (n : Nat) : State :=
  if n = 0 then s
  else
    let s := ((s.bump (pgMERGE c) (Reg.MERGE.TILE_LATE.nth t.val) (16 + t.val) n).bump (pgMERGE c)
      Reg.MERGE.LATE_CNT 0 n).event (pgMERGE c) 2
    s.setConc c { s.conc c with late := (s.conc c).late + n }

/-- Adds a record to those of a frame. -/
def addAt {α : Type} (f : Nat) (x : α) (m : List (Nat × List α)) : List (Nat × List α) :=
  mapPut f (mapGetD [] f m ++ [x]) m

/-- A corrected record enters the records that wait for the merge or for the shadow ring, or is late (R119, R121). -/
def State.routeRecord (s : State) (c : Conc) (t : Fin 16) (frame : Nat) (ty : Nat) (r : BitVec 56) : State :=
  if frame < (s.conc c).nextForm then s.countLate c t 1
  else
    let x := s.rx c t
    if ty = 3 then s.setRx c t { x with
      shadow := addAt frame (BitVec.ofNat 56 (r.toNat % 2 ^ 54 + 2 ^ 54) &&& ~~~2, s.frame) x.shadow }
    else s.setRx c t { x with recs := addAt frame r x.recs }

/-- An uncorrectable read poisons a word of the correction table, four words to an entry (R328). -/
def State.poisonEntry (s : State) (c : Conc) (word : Nat) : State :=
  (s.setConc c { s.conc c with corrPoison := insertNew word (s.conc c).corrPoison }).poisoned (pgDINTG c)

/-- The four words of a channel's entry are read from the correction table: what each delivers, by word (R321, R328). -/
def State.readEntry (s : State) (c : Conc) (chan : Nat) (l : Reads) : State :=
  s.each (List.range 4) (fun s w =>
    let a := 4 * chan + w
    let s := s.countRead (pgDINTG c) 0 a (l.at_ w)
    if l.at_ w = .uncorrectable then s.poisonEntry c a else s)

/-- A calibration record is captured (R210); in the concentrator that the engine reads, it is its launch's (R220). -/
def State.capture (s : State) (c : Conc) (k : Capture) : State :=
  let s := if c = s.histConc then s.launchCaptured k.chan k.tot else s
  s.setConc c { s.conc c with captured := (s.conc c).captured ++ [k] }

/-- The concentrator takes the record at the head of a tile's port, reads the channel's entry, captures a
calibration record (R210), corrects and routes it. -/
def State.takeRecord (s : State) (c : Conc) (t : Fin 16) (read : Reads) (r : BitVec 52) (frame : Nat) : State :=
  let chan := t.val * 4096 + recChan r
  let s := ((s.ackItem t c).wake pgMOD).wake (pgMERGE c)
  let s := s.readEntry c chan read
  let k : Capture := { chan := chan, tif := recTif r, tot := recTot r, flags := recFlags r, frame := frame }
  let s := if recType r = 2 then s.capture c k else s
  let valid := (s.conc c).entryApplied chan frame
  let x := correctRecord ((s.conc c).entry chan frame) valid t r
  let s := s.bump (pgCORR c) Reg.CORR.UNCORR_CNT 0 (!valid).toNat
  let s := s.bump (pgCORR c) Reg.CORR.CLAMP_CNT 1 x.2
  s.routeRecord c t frame (recType r) x.1

/-- Reads in a region whose words the manual does not lay out: the address is a free value. -/
def State.countAnywhere (s : State) (page r : Nat) : EccRead → State
  | .clean => s
  | e => let (a, s) := s.draw; s.countRead page r a e

/-- A record as its tile's port buffer, or with `queued` the concentrator's correction queue, delivers it (R328). -/
def State.readPort (s : State) (c : Conc) (t : Fin 16) (port : EccRead) (queued : Bool) : State :=
  if queued then s.countAnywhere (pgDINTG c) 3 port else s.countAnywhere pgINTG (4 + t.val) port

/-- CORRECT_RECORD: a shadow record waits on its port while the shadow write buffer is full (R300); one that cannot be
read on its way is discarded (R328). -/
def State.correctRecordCmd (s : State) (c : Conc) (t : Fin 16) (read : Reads) (port : EccRead) (queued : Bool) : State :=
  match (s.port t c).items with
  | .hit r frame :: _ =>
    if (s.conc c).merging then
      (if recType r = 3 && s.wbufFull c true then s.event (pgDRAM c) 5
       else
        let s := s.readPort c t port queued
        if port = .uncorrectable then s.ackItem t c else s.takeRecord c t read r frame)
    else s
  | _ => s

/-- The content of a frame-closed token's words (R95). -/
def tokenInfo (ws : List (BitVec 52)) : TokenInfo :=
  let w (i : Nat) : Nat := (ws.getD i 0).toNat
  { records := bitsOf 45 30 (w 1), masked := bitsOf 29 15 (w 1), stuck := bitsOf 14 0 (w 1),
    gateHigh := bitsOf 45 31 (w 2), capStream := bitsOf 30 16 (w 2), capShadow := bitsOf 15 1 (w 2),
    sat := (w 2).testBit 0, capSpan := bitsOf 45 33 (w 3), leave := (w 3).testBit 32 }

/-- A frame-closed token for frame n (R119-R121, R123): a late one is discarded; one for an unformed frame ends the
behind state. -/
def State.takeToken (s : State) (c : Conc) (t : Fin 16) (ws : List (BitVec 52)) (n : Nat) : State :=
  let s := (s.ackItem t c).launchesClosed c t n
  if n < (s.conc c).nextForm then s
  else
    let x := s.rx c t
    let i := tokenInfo ws
    (s.setRx c t { x with
      tokens := mapPut n i x.tokens, left := if i.leave then some n else x.left,
      since := if s.behind c t then some n else x.since }).setBehind c t false

/-- FRAME_CLOSED_TOKEN: `k` words of the token at the head of a tile's port are acknowledged; with the last it is taken. -/
def State.closedTokenCmd (s : State) (c : Conc) (t : Fin 16) (k : Nat) : State :=
  match (s.port t c).items with
  | .closed ws n :: _ =>
    if !(s.conc c).merging then s else if k < ws.length then s.ackWords t c k else s.takeToken c t ws n
  | _ => s

/-- A resume token of frame f (R122); one of a port cut while the concentrator was away marks presence from the
join sheaf and forms no resume record (R277). -/
def State.takeResume (s : State) (c : Conc) (t : Fin 16) (ws : List (BitVec 52)) (f : Nat) : State :=
  let s := ((s.ackItem t c).launchesClosed c t (f - 1)).bump (pgMERGE c) Reg.MERGE.RESUME_CNT 2
  let w1 := (ws.getD 1 0).toNat
  let r : Resumed := { frame := f, reason := bitsOf 45 42 w1, missed := bitsOf 39 0 w1,
                       discarded := bitsOf 31 0 (ws.getD 2 0).toNat }
  let x := s.rx c t
  let late := decide (f < (s.conc c).nextForm)
  let joins := s.stored (pgSTEP c) Reg.STEP.VALID_FROM == sheafOf f && r.reason.testBit 0
  let s := s.setRx c t { x with since := some f, left := none, resumed := if joins then x.resumed else x.resumed ++ [r] }
  let s := if late then (s.setBehind c t true).eventIf (!s.behind c t) (pgMERGE c) 0 else s
  if r.discarded = 0 || joins then s
  else ((s.bump (pgMERGE c) (Reg.MERGE.TILE_LATE.nth t.val) (16 + t.val) r.discarded).bump (pgMERGE c)
    Reg.MERGE.LATE_CNT 0 r.discarded).event (pgMERGE c) 2

/-- RESUME_TOKEN: `k` words of the token at the head of a tile's port are acknowledged; with the last it is taken. -/
def State.resumeTokenCmd (s : State) (c : Conc) (t : Fin 16) (k : Nat) : State :=
  match (s.port t c).items with
  | .resume ws f :: _ =>
    if !(s.conc c).merging then s else if k < ws.length then s.ackWords t c k else s.takeResume c t ws f
  | _ => s

/-- LATE_WORD_ACK: the word in transfer at a cut is acknowledged (R103); a record is late chaff, a token word is
discarded (R122). -/
def State.lateWordAck (s : State) (t : Fin 16) (c : Conc) : State :=
  let p := s.port t c
  match p.late with
  | some w =>
    let s := (s.setPort t c { p with lateAcked := true, late := none }).put (pgPORTS t) (portReg Reg.PORTS.PSTAT_FILL c) 0
    if recType w = 0 || !(s.conc c).merging then s else s.countLate c t 1
  | none => s

/-- Tile t is waited for at frame n (R118): present, not left, not behind, its token not delivered. -/
def State.waitsFor (s : State) (c : Conc) (t : Fin 16) (n : Nat) : Bool :=
  let x := s.rx c t
  (match x.since with | some f => decide (f ≤ n) | none => false) &&
  (match x.left with | some m => decide (n ≤ m) | none => true) &&
  !s.behind c t && (mapFind n x.tokens).isNone

/-- HORIZON_EXPIRY: the horizon of the frame being waited for has passed for tile t, which turns behind (R118,
R119). -/
def State.horizonExpiry (s : State) (c : Conc) (t : Fin 16) : State :=
  let n := (s.conc c).nextForm
  if (s.conc c).merging && s.waitsFor c t n && decide (n + s.fld (pgMERGE c) Reg.MERGE.HORIZON_FRAMES < s.frame) then
    ((s.setBehind c t true).bump (pgMERGE c) Reg.MERGE.HORIZON_CNT 1).event (pgMERGE c) 0
  else s

/-! ### Words of a sheaf (R142-R158) -/

/-- A first or continuation control word (R148). -/
def ctrlWord (sub payload : Nat) : BitVec 56 := BitVec.ofNat 56 (sub % 64 * 2 ^ 48 + payload % 2 ^ 48)

/-- The coarse count and fine part of a time in ticks. -/
def coarseTicks (t : Nat) : Nat := t / 4096 % 2 ^ 48
def fineTicks (t : Nat) : Nat := t % 4096

/-- Rimshot (R150). -/
def rimshotWords (g : Trigger) (dead : Nat) : List (BitVec 56) :=
  [ctrlWord 1 (packFields [(4, g.source), (1, g.glean.toNat), (19, 0), (24, g.num)]),
   ctrlWord 0x3F (coarseTicks g.time),
   ctrlWord 0x3F (packFields [(12, fineTicks g.time), (36, dead)])]

/-- Gate mark (R151). -/
def markWords (m : GateMark) : List (BitVec 56) :=
  [ctrlWord 2 (packFields [(2, m.source), (1, m.isOpen.toNat), (33, 0), (12, fineTicks m.time)]),
   ctrlWord 0x3F (coarseTicks m.time)]

/-- Domain-switch record (R154). -/
def dswitchWords (d : DSwitch) : List (BitVec 56) :=
  [ctrlWord 7 (packFields [(1, (!d.target).toNat), (1, d.target.toNat), (1, d.auto.toNat), (45, 0)]),
   ctrlWord 0x3F (unsignedOf 48 d.offset)]

/-- Resume record (R155). -/
def resumeRecord (t : Fin 16) (r : Resumed) : List (BitVec 56) :=
  [ctrlWord 8 (packFields [(4, t.val), (4, r.reason), (40, r.missed)]), ctrlWord 0x3F (packFields [(16, 0), (32, r.discarded)])]

/-- Dead-time mark (R156, R184). -/
def deadMark (dropped : Nat) : BitVec 56 :=
  ctrlWord 9 (packFields [(4, 1), (13, 4096), (31, min dropped (2 ^ 31 - 1))])

/-- Poisoned-span word (R157). -/
def poisonWord (source : Nat) (whole : Bool) (unit : Nat) : BitVec 56 :=
  ctrlWord 0x0A (packFields [(2, source), (1, whole.toNat), (16, 0), (29, unit)])

/-- Places a timed group of words before the first of a later or equal time. -/
def placeWords (t : Nat) (ws : List (BitVec 56)) : List (Nat × List (BitVec 56)) → List (Nat × List (BitVec 56))
  | [] => [(t, ws)]
  | (u, vs) :: r => if t ≤ u then (t, ws) :: (u, vs) :: r else (u, vs) :: placeWords t ws r

/-- Gate marks and rimshots in order of time, a mark before a rimshot of equal time (R124); both lists are in order
already. -/
def mergeMarks (ms : List GateMark) (gs : List (Trigger × Nat)) : List (BitVec 56) :=
  (ms.foldr (fun m l => placeWords m.time (markWords m) l) (gs.map (fun g => (g.1.time, rimshotWords g.1 g.2)))).flatMap
    (·.2)

/-- A sheaf's header fields (R144). -/
structure Header where
  kind : Nat
  frame : Nat
  pealEpoch : Nat
  presence : Nat
  words : Nat
  domain : Bool
  resume : Bool
  dswitch : Bool
  mixed : Bool
  drop : Bool
  poison : Bool
  tq : Nat
  gleanTrig : Nat
  gleanPart : Nat
  records : Nat
  deriving DecidableEq, Repr

/-- The 32 header bytes (R144). -/
def Header.bytes (h : Header) : List Byte :=
  toBytes 32 (packFields
    [(8, h.kind), (8, 1), (32, sheafOf h.frame), (48, frameCoarse h.frame), (16, epochOf (h.frame * frameTref)),
     (16, h.pealEpoch), (16, h.presence), (24, h.words), (1, h.domain.toNat), (1, h.resume.toNat), (1, h.dswitch.toNat),
     (1, h.mixed.toNat), (1, h.drop.toNat), (1, h.poison.toNat), (2, 0), (4, h.tq), (4, 0), (24, h.gleanTrig),
     (16, h.gleanPart), (24, h.records), (8, 0)])

/-- A sheaf's trailer counts (R158). -/
structure Trailer where
  capacity : Nat := 0
  late : Nat := 0
  masked : Nat := 0
  stuck : Nat := 0
  gateHigh : Nat := 0
  sat : Bool := false
  dead : Nat := 0
  deriving DecidableEq, Repr

/-- The 16 trailer bytes with the CRC of R159. -/
def Trailer.bytes (t : Trailer) (crc : BitVec 32) : List Byte :=
  let c := satField 20 t.capacity
  let l := satField 16 t.late
  let m := satField 15 t.masked
  let k := satField 15 t.stuck
  let g := satField 15 t.gateHigh
  toBytes 16 (packFields
    [(20, c.1), (16, l.1), (15, m.1), (15, k.1), (15, g.1), (1, (t.sat || c.2 || l.2 || m.2 || k.2 || g.2).toNat), (1, 0),
     (13, t.dead), (32, crc.toNat)])

/-- The bytes of a body (R142). -/
def bodyBytes (ws : List (BitVec 56)) : List Byte := ws.flatMap (fun w => toBytes 7 w.toNat)

/-- A whole sheaf (R142, R159). -/
def sheafBytes (h : Header) (body : List (BitVec 56)) (t : Trailer) : List Byte :=
  let front := h.bytes ++ bodyBytes body
  front ++ t.bytes (crc32c front)

/-- Is a word a hit or calibration record, or a control record's first word (R146, R148)? -/
def startsRecord (w : BitVec 56) : Bool := !(bitsOf 55 54 w.toNat == 0 && bitsOf 53 48 w.toNat == 0x3F)

/-! ### Summaries (R125-R127, R153) -/

/-- The channels of an enabled summary region r: first channel index and count; none where it is disabled. -/
def State.summRegion (s : State) (c : Conc) (r : Nat) : Option (Nat × Nat) :=
  let f (x : FieldRef) := s.fld (pgMERGE c) (x.nth r)
  if s.flag (pgMERGE c) Reg.MERGE.SUMM_CTRL_ENABLE && f Reg.MERGE.SUMM_REGION_EN != 0 then
    some (if f Reg.MERGE.SUMM_REGION_LEVEL = 1 then (f Reg.MERGE.SUMM_REGION_TILE * 4096, 4096)
          else (f Reg.MERGE.SUMM_REGION_TILE * 4096 + f Reg.MERGE.SUMM_REGION_BLOCK * 256, 256))
  else none

/-- COUNT, SAT and PHASE of a channel (R126). -/
def summWord (n sum : Nat) : BitVec 56 :=
  ctrlWord 0x3F (packFields [(5, 0), (1, (decide (16777215 < n)).toNat), (24, min n 16777215),
    (18, if n = 0 then 0 else 64 * sum / n)])

/-- The summary record of an interval (R153). -/
def State.summRecord (s : State) (c : Conc) (r : Nat) (base count : Nat) (a : Summary) : List (BitVec 56) :=
  let f (x : FieldRef) := s.fld (pgMERGE c) (x.nth r)
  let tile := decide (count = 4096)
  ctrlWord (if tile then 6 else 5) (packFields [(4, r), (4, f Reg.MERGE.SUMM_REGION_TILE),
      (4, if tile then 0 else f Reg.MERGE.SUMM_REGION_BLOCK), (5, s.fld (pgMERGE c) Reg.MERGE.SUMM_CTRL_K), (3, 0),
      (28, sheafOf a.start / 16)])
    :: (List.range count).map (fun i =>
      let x := mapGetD ((0, 0) : Nat × Nat) (base + i) a.sums
      summWord x.1 x.2)

/-- Frames of an interval (R126). -/
def State.summLength (s : State) (c : Conc) : Nat := 2 ^ s.fld (pgMERGE c) Reg.MERGE.SUMM_CTRL_K

/-- The summary records that go into sheaf n, in ascending region index (R124, R126). -/
def State.summDue (s : State) (c : Conc) (n : Nat) : List (BitVec 56) :=
  (List.range 16).flatMap (fun r =>
    match s.summRegion c r, mapFind r (s.conc c).summ with
    | some (base, count), some a => if a.start + s.summLength c ≤ n then s.summRecord c r base count a else []
    | _, _ => [])

/-- Adds the hits of a sheaf to a summary (R125). -/
def Summary.add (a : Summary) (base count : Nat) (hits : List (BitVec 56)) : Summary :=
  hits.foldl (fun a w =>
    let chan := bitsOf 53 38 w.toNat
    if bitsOf 55 54 w.toNat = 1 ∧ base ≤ chan ∧ chan < base + count then
      let x := mapGetD ((0, 0) : Nat × Nat) chan a.sums
      { a with sums := mapPut chan (x.1 + 1, x.2 + bitsOf 25 14 w.toNat) a.sums }
    else a) a

/-- The summaries after sheaf n with the given hits (R125, R126): an interval begins at every multiple of 2^K. -/
def State.summNext (s : State) (c : Conc) (n : Nat) (hits : List (BitVec 56)) : List (Nat × Summary) :=
  (List.range 16).foldl (fun m r =>
    match s.summRegion c r with
    | none => mapDel r m
    | some (base, count) =>
      let a : Option Summary := if n % s.summLength c = 0 then some { start := n, sums := [] } else mapFind r m
      match a with
      | some a => mapPut r (a.add base count hits) m
      | none => m) (s.conc c).summ

/-! ### The stack as formation writes it (R287-R292) -/

/-- Units that n bytes take. -/
def unitsOf (n : Nat) : Nat := (n + 31) / 32

/-- The unit of the replay group that ring position p occupies. -/
def ringUnit (size p : Nat) : Nat := replayBase + p % size

/-- Writes units at successive ring positions. -/
def ConcSt.putRing (size : Nat) : Nat → List (BitVec 256) → ConcSt → ConcSt
  | _, [], c => c
  | p, u :: us, c => ConcSt.putRing size (p + 1) us (c.putU false (ringUnit size p) u)

/-- A replay directory entry (R288). -/
def dirEntry (frame start words : Nat) : Nat :=
  packFields [(48, frameCoarse frame), (16, epochOf (frame * frameTref)), (29, start), (24, words), (11, 0)]

/-- Puts a 16-byte part into a unit: part 0 in the upper half. -/
def putHalf (u : BitVec 256) (i v : Nat) : BitVec 256 :=
  if i % 2 = 0 then BitVec.ofNat 256 (v * 2 ^ 128 + u.toNat % 2 ^ 128)
  else BitVec.ofNat 256 (u.toNat / 2 ^ 128 * 2 ^ 128 + v)

/-- Writes the directory entry of a frame into both copies (R288). -/
def ConcSt.putDir (c : ConcSt) (frame v : Nat) : ConcSt :=
  let i := frame % 2 ^ 20
  let c := c.putU false (i / 2) (putHalf (c.getU false (i / 2)) i v)
  c.putU false (replayDirCopy + i / 2) (putHalf (c.getU false (replayDirCopy + i / 2)) i v)

/-- A tile's part of frame n's directory entry (R292), `ring` being the number of extents in the ring. -/
def dirPart (n ring : Nat) (span : Option ShadowSpan) (present : Bool) : Nat :=
  match span with
  | some x => packFields [(32, extentIndex ring x.alloc), (6, 1 + x.place / 4), (2, x.place % 4), (24, x.count),
      (32, sheafOf n), (1, present.toNat), (31, 0)]
  | none => packFields [(32, 0), (6, 0), (2, 0), (24, 0), (32, sheafOf n), (1, present.toNat), (31, 0)]

/-- Writes a tile's shadow records of frame n and its part of the frame's directory entry; answers the extent of the first. -/
def State.writeShadow (s : State) (c : Conc) (n : Nat) (t : Fin 16) (present : Bool) : Option Nat × State :=
  let (span, s) := s.appendShadows c t n
  let unit := n % 65536 * 8 + t.val / 2
  let cs := s.conc c
  (span.map (·.alloc),
   (s.setConc c (cs.putU true unit (putHalf (cs.getU true unit) t.val (dirPart n (s.shadowExtents c) span present)))).issueWrites
     c true (if t.val % 2 = 0 then [unit] else []))

/-- An extent on the die as its decoder delivers it (R328): a record that cannot be read is discarded. DESIGN CHOICE (log 67): its
place in the extent stays empty and holds 0, which is no record of R147, so that the directory's places stand. -/
def Extent.asRead (e : Extent) (bad : Nat → Bool) : Extent :=
  { e with recs := (List.range e.recs.length).map (fun i => if bad i then 0 else e.recs.getD i 0) }

/-- EXTENT_TIMEOUT: an extent not full is written 64 frames after its first record (R291), read from the die for it. -/
def State.extentTimeout (s : State) (c : Conc) (t : Fin 16) (reads : Reads) : State :=
  match (s.rx c t).ext with
  | some e =>
    if !e.recs.isEmpty && decide (e.arrived + 64 ≤ s.frame) then
      (s.each (List.range e.recs.length) (fun s i => s.countRead (pgDINTG c) 3 (t.val * 256 + i) (reads.at_ i))).writeExtent c t
        (e.asRead (fun i => reads.at_ i == .uncorrectable))
    else s
  | none => s

/-! ### Forming (R118, R124, R129-R131, R183-R186) -/

/-- May sheaf n be formed (R118, R178)? Its frame has ended, its delivery is in, and no tile is waited for. -/
def State.canForm (s : State) (c : Conc) (n : Nat) : Bool :=
  (s.conc c).merging && decide (n < s.frame) &&
    (match mapFind n s.frames with | some i => i.delivered | none => false) &&
    allTiles.all (fun t => !s.waitsFor c t n)

/-- Tile t is present in sheaf n: its token was delivered (R119). -/
def State.inSheaf (s : State) (c : Conc) (n : Nat) (t : Fin 16) : Bool := (mapFind n (s.rx c t).tokens).isSome
def State.presence (s : State) (c : Conc) (n : Nat) : Nat :=
  (allTiles.map (fun t => if s.inSheaf c n t then 2 ^ t.val else 0)).sum
def State.sumTokens (s : State) (c : Conc) (n : Nat) (f : TokenInfo → Nat) : Nat :=
  (allTiles.map (fun t => ((mapFind n (s.rx c t).tokens).map f).getD 0)).sum

/-- The resume records that sheaf n carries (R122, R124), by tile. -/
def State.resumesOf (s : State) (c : Conc) (n : Nat) : List (Fin 16 × Resumed) :=
  allTiles.flatMap (fun t =>
    if s.inSheaf c n t then ((s.rx c t).resumed.filter (fun r => decide (r.frame ≤ n))).map (fun r => (t, r)) else [])

/-- The hit and calibration records of sheaf n: by tile, then in arrival order (R20, R124). -/
def State.recordsOf (s : State) (c : Conc) (n : Nat) : List (BitVec 56) :=
  allTiles.flatMap (fun t => if s.inSheaf c n t then mapGetD [] n (s.rx c t).recs else [])

/-- Records delivered for n by tiles not in the sheaf: late (R119). -/
def State.lateOf (s : State) (c : Conc) (n : Nat) (t : Fin 16) : Nat :=
  if s.inSheaf c n t then 0 else (mapGetD [] n (s.rx c t).recs).length + (mapGetD [] n (s.rx c t).shadow).length

/-- DEAD of a frame's trailer (R183). -/
def State.deadOf (s : State) (c : Conc) (n : Nat) (drop : Bool) : Nat :=
  if drop then 4096 else min 4096 (s.sumTokens c n (·.capSpan))

/-- DEAD of a rimshot (R185): the trailers from the frame of t_c − PRE to that of t_c. -/
def State.rimshotDead (s : State) (c : Conc) (n dead : Nat) (g : Trigger) : Nat :=
  let first := frameOfTref (g.time / 4096 - g.pre)
  dead + ((s.conc c).metas.filter (fun m => decide (first ≤ m.frame) && decide (m.frame < n))).foldl (fun a m => a + m.dead) 0

/-- Control records of sheaf n in the order of R124. -/
def State.controlOf (s : State) (c : Conc) (n : Nat) (i : FrameInfo) (drop : Bool) : List (BitVec 56) :=
  let dead := s.deadOf c n drop
  (i.dswitch.map dswitchWords).getD [] ++
  (s.resumesOf c n).flatMap (fun x => resumeRecord x.1 x.2) ++
  (if drop then [deadMark (s.recordsOf c n).length] else []) ++
  mergeMarks i.marks (i.triggers.map (fun g => (g, s.rimshotDead c n dead g))) ++
  s.summDue c n

/-- The bytes of sheaf n, with or without its records (R131). -/
def State.formBytes (s : State) (c : Conc) (n : Nat) (i : FrameInfo) (late : Nat) (drop : Bool) : List Byte × Nat :=
  let recs := s.recordsOf c n
  let body := s.controlOf c n i drop ++ (if drop then [] else recs)
  let h : Header :=
    { kind := 1, frame := n, pealEpoch := i.pealEpoch, presence := s.presence c n, words := body.length,
      domain := i.domain, resume := !(s.resumesOf c n).isEmpty, dswitch := i.dswitch.isSome, mixed := i.mixed,
      drop := drop, poison := false, tq := i.tq, gleanTrig := 0, gleanPart := 0,
      records := (body.filter startsRecord).length }
  let t : Trailer :=
    { capacity := s.sumTokens c n (fun k => k.capStream + k.capShadow) + (if drop then recs.length else 0),
      late := late, masked := s.sumTokens c n (·.masked), stuck := s.sumTokens c n (·.stuck),
      gateHigh := s.sumTokens c n (·.gateHigh), sat := decide (0 < s.sumTokens c n (·.sat.toNat)),
      dead := s.deadOf c n drop }
  (sheafBytes h body t, body.length)

/-- The oldest frame sheaf formed and not sent: the one being dealt, or the next to send. -/
def ConcSt.oldestUnsent (c : ConcSt) : Nat := (c.stream.map (·.frame)).getD c.sendNext

/-- Writing a sheaf of `len` units as frame n would overwrite a sheaf not yet sent (R129, R289). -/
def State.wouldOverwrite (s : State) (c : Conc) (n len : Nat) : Bool :=
  let cs := s.conc c
  match cs.metas.find? (fun m => m.frame == cs.oldestUnsent) with
  | some m => decide (m.pos + s.replayUnits c < cs.wpos + len) || decide (m.frame + 2 ^ 20 ≤ n)
  | none => false

/-- Spill is entered from direct mode (R130): counter, event, and the on-die queue is discarded. -/
def State.enterSpill (s : State) (c : Conc) (mode : Nat) : State :=
  let s := if s.stored (pgSHEAF c) Reg.SHEAF.SPILL_STAT_MODE = 0 then
      ((s.bump (pgSHEAF c) Reg.SHEAF.SPILL_CNT 1).event (pgSHEAF c) 0).setConc c { s.conc c with
        queue := [], spillSince := s.now }
    else s
  (s.put (pgSHEAF c) Reg.SHEAF.SPILL_STAT_MODE mode).eventIf (mode == 2) (pgSHEAF c) 1

/-- Bytes of the on-die queue not yet sent (R129). -/
def ConcSt.queuedBytes (c : ConcSt) : Nat := (c.queue.map (fun q => q.2.length)).sum + ((c.stream.map (·.bytes.length)).getD 0)

/-- The output mode after deciding on sheaf n of `len` bytes (R129): drop, spill or as it is. -/
def State.decideMode (s : State) (c : Conc) (n len : Nat) : State :=
  let mode := s.stored (pgSHEAF c) Reg.SHEAF.SPILL_STAT_MODE
  if mode != 2 && s.wouldOverwrite c n (unitsOf len) then s.enterSpill c 2
  else if mode = 0 ∧ s.fld (pgSHEAF c) Reg.SHEAF.SPILL_CTRL_ENTER_KB * 1024 < (s.conc c).queuedBytes + len then
    s.enterSpill c 1
  else s

/-- MERGE.LAG (R135). -/
def State.showLag (s : State) (c : Conc) : State :=
  s.put (pgMERGE c) Reg.MERGE.LAG_FRAMES (min 65 (s.frame - (s.conc c).nextForm))

/-- Writes the sheaf of frame n into the replay ring and its directory (R288), and moves REPLAY_OLDEST on (R289). -/
def State.writeReplay (s : State) (c : Conc) (n : Nat) (bytes : List Byte) (m : SheafMeta) : State :=
  let size := s.replayUnits c
  let cs := s.conc c
  let us := bytesUnits (unitsOf bytes.length) bytes
  let cs := ((cs.putRing size cs.wpos us).putDir n (dirEntry n (ringUnit size cs.wpos) m.words))
  let metas := (m :: cs.metas).take (2 ^ 20)
  let wpos := cs.wpos + us.length
  let held := metas.filter (fun x => decide (wpos ≤ x.pos + size) && decide (cs.validR ≤ x.frame))
  let s := (s.setConc c { cs with wpos := wpos, metas := metas }).issueWrites c false
    ((List.range us.length).map (fun i => ringUnit size (cs.wpos + i)) ++ [n % 2 ^ 20 / 2, replayDirCopy + n % 2 ^ 20 / 2])
  s.put (pgDRAM c) Reg.DRAM.REPLAY_OLDEST (sheafOf ((held.getLast?.map (·.frame)).getD (max n cs.validR)))

/-- Shadow data of frame n for every tile (R291, R292). -/
def State.writeShadows (s : State) (c : Conc) (n : Nat) (present : Fin 16 → Bool) : Option Nat × State :=
  allTiles.foldl (fun x t =>
    let y := x.2.writeShadow c n t (present t)
    ((match x.1, y.1 with | some a, some b => some (min a b) | some a, none => some a | none, b => b), y.2)) (none, s)

/-- Frame m's shadow data is not overwritten (R293): its directory entry and the extents of its records stand, and it
does not lie before SHADOW_VALID. `n` is the newest frame formed. -/
def State.shadowHeld (s : State) (c : Conc) (n : Nat) (m : SheafMeta) : Bool :=
  let cs := s.conc c
  decide (cs.validS ≤ m.frame) && decide (n < m.frame + 65536) &&
    (match m.extent with | some a => decide (cs.extents ≤ a + s.shadowExtents c) | none => true)

/-- SHADOW_OLDEST (R314). -/
def State.showShadow (s : State) (c : Conc) (n : Nat) : State :=
  s.put (pgDRAM c) Reg.DRAM.SHADOW_OLDEST
    (sheafOf ((((s.conc c).metas.takeWhile (s.shadowHeld c n)).getLast?.map (·.frame)).getD (max n (s.conc c).validS)))

/-- What is kept of frame n for tile t is dropped once its sheaf is formed. -/
def Rx.formed (x : Rx) (n : Nat) (present : Bool) : Rx :=
  { x with tokens := mapDel n x.tokens, recs := mapDel n x.recs, shadow := mapDel n x.shadow,
           resumed := if present then x.resumed.filter (fun r => decide (n < r.frame)) else x.resumed }

/-- The late records of frame n are counted for its own trailer (R119). -/
def State.countFrameLate (s : State) (c : Conc) (n : Nat) : State :=
  s.each allTiles (fun s t =>
    let k := s.lateOf c n t
    (s.setRx c t { s.rx c t with
      shadow := if s.inSheaf c n t then (s.rx c t).shadow else mapDel n (s.rx c t).shadow,
      recs := if s.inSheaf c n t then (s.rx c t).recs else mapDel n (s.rx c t).recs }).countLate c t k)

/-- The registers that follow the forming of sheaf n. -/
def State.formRegs (s : State) (c : Conc) (n presence dead resumes : Nat) (drop : Bool) : State :=
  let s := (s.put (pgMERGE c) Reg.MERGE.LAST_SHEAF (sheafOf n)).put (pgMERGE c) Reg.MERGE.PRESENT_MASK presence
  let s := s.eventIf (decide (0 < resumes)) (pgMERGE c) 1
  let s := (s.bump (pgSHEAF c) Reg.SHEAF.SHEAF_CNT 0).bump (pgSHEAF c) Reg.SHEAF.DROP_FRAMES 2 drop.toNat
  let s := (s.bump64 (pgGLEAN c) Reg.GLEAN.DEAD_CAP_LO Reg.GLEAN.DEAD_CAP_HI 5 dead).bump64 (pgGLEAN c)
    Reg.GLEAN.FRAMES_LO Reg.GLEAN.FRAMES_HI 7 1
  s.showLag c

/-- Bytes formed and not sent (R129, R140): those of the sheaves not sent, but for what has been dealt of the one being dealt. -/
def ConcSt.backlog (cs : ConcSt) : Nat := cs.unsent - ((cs.stream.map (fun d => d.grain * 248)).getD 0)

/-- BACKLOG, NEXT_SEND and LATENCY_MAX (R140). Two points are the model's choices (DESIGN CHOICE, log 46): BACKLOG.KIB is rounded
down to whole KiB, and NEXT_SEND shows the sheaf being dealt until its last grain. -/
def State.showBacklog (s : State) (c : Conc) : State :=
  let cs := s.conc c
  let ahead := cs.nextForm - 1 - cs.oldestUnsent
  let s := (s.put (pgSHEAF c) Reg.SHEAF.BACKLOG_KIB (min (2 ^ 24 - 1) (cs.backlog / 1024))).put (pgSHEAF c)
    Reg.SHEAF.NEXT_SEND (sheafOf cs.sendNext)
  let s := s.peak (pgSHEAF c) Reg.SHEAF.LATENCY_MAX_FRAMES ahead
  if 65535 < ahead then s.overflow (pgSHEAF c) 3 else s

/-- The returns of R129, as the backlog stands: to direct with its event (R141), and from drop to spill. -/
def State.modeReturn (s : State) (c : Conc) : State :=
  let cs := s.conc c
  let mode := s.stored (pgSHEAF c) Reg.SHEAF.SPILL_STAT_MODE
  if mode = 0 then s
  else if cs.nextForm ≤ cs.sendNext ∧ cs.stream = none then
    (s.put (pgSHEAF c) Reg.SHEAF.SPILL_STAT_MODE 0).event (pgSHEAF c) 2
  else if mode = 2 ∧ cs.backlog * 100 < s.fld (pgSHEAF c) Reg.SHEAF.SPILL_CTRL_RESUME_PCT * (s.replayUnits c * 32) then
    s.put (pgSHEAF c) Reg.SHEAF.SPILL_STAT_MODE 1
  else s

/-- The cross-link message of sheaf n (R260). -/
def State.crossMsg (s : State) (c : Conc) (n : Nat) (d : Option (BitVec 64)) : CrossMsg :=
  { frame := n, digest := d, mode := s.stored (pgSHEAF c) Reg.SHEAF.SPILL_STAT_MODE,
    nextSend := sheafOf (s.conc c).sendNext, gleans := ((s.conc c).gleans.filter (!·.refused)).length,
    oldGleans := ((s.conc c).gleans.filter (fun g => !g.refused &&
      (match (s.conc c).joinAt with | some j => decide (g.accepted < j) | none => false))).length,
    run := (s.conc c).run }

/-- Sends a message to the partner. -/
def State.sendCross (s : State) (c : Conc) (m : CrossMsg) : State :=
  let o := s.conc c.other
  if o.run = .reset then s else s.setConc c.other { o with inbox := o.inbox ++ [m] }

/-- The pair state (R263): 0 SOLO, 1 JOINING, 2 IN_STEP, 3 DIVERGED. -/
def State.pair (s : State) (c : Conc) : Nat := s.stored (pgSTEP c) Reg.STEP.STEP_STAT_PAIR
def State.tollBit (s : State) : Conc → Bool
  | .a => s.flag pgSTICK Reg.STICK.STAT_TOLL_A
  | .b => s.flag pgSTICK Reg.STICK.STAT_TOLL_B
def tollReg : Conc → FieldRef | .a => Reg.STICK.STAT_TOLL_A | .b => Reg.STICK.STAT_TOLL_B
def eligReg : Conc → FieldRef | .a => Reg.STICK.STAT_ELIG_A | .b => Reg.STICK.STAT_ELIG_B

/-- Eligible: tolls at the last two boundaries and not JOINING (R267). -/
def State.eligible (s : State) (c : Conc) : Bool := s.tollBit c && (s.conc c).tolledBefore && s.pair c != 1

/-- Shows eligibility in both places. -/
def State.showElig (s : State) (c : Conc) : State :=
  (s.putB pgSTICK (eligReg c) (s.eligible c)).putB (pgSTEP c) Reg.STEP.STEP_STAT_ELIGIBLE (s.eligible c)

/-- PAIR takes a value, and eligibility follows. -/
def State.setPair (s : State) (c : Conc) (v : Nat) : State := (s.put (pgSTEP c) Reg.STEP.STEP_STAT_PAIR v).showElig c

/-- A concentrator marks its partner lost and turns SOLO (R262); a joiner is then running alone (R278), one that is still loaded joins alone at its J. -/
def State.partnerLost (s : State) (c : Conc) : State :=
  if s.pair c = 0 then s
  else
    let cs := s.conc c
    let s := (((s.setPair c 0).bump (pgSTEP c) Reg.STEP.PARTNER_LOST_CNT 3).event (pgSTEP c) 2)
    s.setConc c { cs with own := [], partner := [], matches_ := 0, joinAt := if cs.run = .loading then cs.joinAt else none,
                          run := if cs.run = .joining then .running else cs.run }

/-- The partner's message for a sheaf PARTNER_LIM before n has not arrived (R262). -/
def State.partnerLate (s : State) (c : Conc) (n : Nat) : Bool :=
  decide ((s.conc c).partnerNext + s.fld (pgSTEP c) Reg.STEP.STEP_CTRL_PARTNER_LIM ≤ n)

/-- Forms sheaf n (R118-R131, R183, R288, R292): its bytes, the replay partition and shadow ring, the digest and
message, the output queue, and the counters. -/
def State.formSheaf (s : State) (c : Conc) (n : Nat) (i : FrameInfo) : State :=
  let s := s.countFrameLate c n
  let resumes := s.resumesOf c n
  let late := (s.conc c).late + (resumes.map (fun x => x.2.discarded)).sum
  let full := s.formBytes c n i late false
  let s := s.decideMode c n full.1.length
  let drop := decide (s.stored (pgSHEAF c) Reg.SHEAF.SPILL_STAT_MODE = 2)
  let (bytes, words) := if drop then s.formBytes c n i late true else full
  let dead := s.deadOf c n drop
  let presence := s.presence c n
  let hits := if drop then [] else s.recordsOf c n
  let summ := s.summNext c n hits
  let present := fun t => s.inSheaf c n t
  let (ext, s) := s.writeShadows c n present
  let s := s.writeReplay c n bytes
    { frame := n, pos := (s.conc c).wpos, words := words, presence := presence, pealEpoch := i.pealEpoch,
      domain := i.domain, tq := i.tq, mixed := i.mixed, dead := dead, extent := ext }
  let s := s.each allTiles (fun s t => s.setRx c t ((s.rx c t).formed n (present t)))
  let direct := decide (s.stored (pgSHEAF c) Reg.SHEAF.SPILL_STAT_MODE = 0)
  let cs := s.conc c
  let s := s.setConc c { cs with
    nextForm := n + 1, late := 0, summ := summ,
    spillSince := if cs.sendNext = n then s.now else cs.spillSince,
    gleans := cs.gleans.map (fun g => if g.needs = n then { g with since := s.now } else g),
    unsent := if cs.sendNext ≤ n then cs.unsent + bytes.length else cs.unsent,
    queue := if direct && decide (cs.sendNext ≤ n) then cs.queue ++ [(n, bytes)] else cs.queue }
  let s := ((s.formRegs c n presence dead resumes.length drop).showShadow c n).showBacklog c
  let m := s.crossMsg c n (some (crc64 bytes))
  let s := if s.pair c = 0 then s else s.setConc c { s.conc c with own := (s.conc c).own ++ [m] }
  let s := s.sendCross c m
  if s.partnerLate c n then s.partnerLost c else s

/-- SHEAF_FORM: forms the concentrator's next sheaf where R118 and R178 allow it; formation waits while the replay
write buffer is full (R300). -/
def State.formNext (s : State) (c : Conc) : State :=
  let n := (s.conc c).nextForm
  match mapFind n s.frames with
  | some i =>
    if s.canForm c n then (if s.wbufFull c false then s.event (pgDRAM c) 5 else s.formSheaf c n i) else s
  | none => s

/-! ### The voltage governor (R133) -/

/-- The lowest and the highest rail (R133). -/
def State.govLimits (s : State) (c : Conc) : Nat × Nat :=
  let fl := min 25 (s.fld (pgMERGE c) Reg.MERGE.GOV_CTRL_FLOOR)
  (fl, max fl (min 25 (s.fld (pgMERGE c) Reg.MERGE.GOV_CTRL_CEIL)))

/-- The rail within the limits in force, at the ceiling while ENABLE is 0. -/
def State.govSettle (s : State) (c : Conc) : State :=
  let (lo, hi) := s.govLimits c
  if s.flag (pgMERGE c) Reg.MERGE.GOV_CTRL_ENABLE then
    s.put (pgMERGE c) Reg.MERGE.GOV_STAT_RAIL (clampNat lo hi (s.stored (pgMERGE c) Reg.MERGE.GOV_STAT_RAIL))
  else (s.putB (pgMERGE c) Reg.MERGE.GOV_STAT_FAST false).put (pgMERGE c) Reg.MERGE.GOV_STAT_RAIL hi

/-- The on-die sheaf queue of 2 MiB is over half full (R129, R133). -/
def ConcSt.queueOverHalf (cs : ConcSt) : Bool := decide (2 ^ 20 < cs.queuedBytes)

/-- GOV_RAISE_STEP: one step while a queue is over half full, to the ceiling while a port correction queue is over
seven-eighths. `fill` is the fullest port correction queue in sixteenths. -/
def State.govRaise (s : State) (c : Conc) (fill : Nat) : State :=
  let fast := decide (14 < fill)
  let rail := s.stored (pgMERGE c) Reg.MERGE.GOV_STAT_RAIL
  if s.flag (pgMERGE c) Reg.MERGE.GOV_CTRL_ENABLE then
    let s := s.eventIf (fast && !s.flag (pgMERGE c) Reg.MERGE.GOV_STAT_FAST) (pgMERGE c) 3
    let s := s.putB (pgMERGE c) Reg.MERGE.GOV_STAT_FAST fast
    (s.put (pgMERGE c) Reg.MERGE.GOV_STAT_RAIL
      (if fast then (s.govLimits c).2 else if decide (8 < fill) || (s.conc c).queueOverHalf then min 25 (rail + 1) else rail)).govSettle c
  else s.govSettle c

/-- GOV_LOWER_STEP: one step after DOWN_MS with every queue below one-eighth; `fill` is the highest that any of them has
reached, in sixteenths. -/
def State.govLower (s : State) (c : Conc) (fill : Nat) : State :=
  let rail := s.stored (pgMERGE c) Reg.MERGE.GOV_STAT_RAIL
  if s.flag (pgMERGE c) Reg.MERGE.GOV_CTRL_ENABLE then
    ((s.putB (pgMERGE c) Reg.MERGE.GOV_STAT_FAST false).put (pgMERGE c) Reg.MERGE.GOV_STAT_RAIL
      (if fill < 2 then rail - 1 else rail)).govSettle c
  else s.govSettle c

end Sys2Proof.Machine
end

