-- ==== Sys2Proof/Machine/Rates.lean ====
section
/-!
DEFINITION. The two domains' increments, slews and the splice (R233-R237, R246), and where they stand at a T_ref of the frame in
progress.
-/

namespace Sys2Proof.Machine

/-! ### Domains and ports -/

def TimeSt.acc (t : TimeSt) : Um → Int | .um0 => t.acc0 | .um1 => t.acc1
def TimeSt.setAcc (t : TimeSt) (u : Um) (v : Int) : TimeSt :=
  match u with | .um0 => { t with acc0 := v } | .um1 => { t with acc1 := v }
def TimeSt.lock (t : TimeSt) : Um → PortLock | .um0 => t.lock0 | .um1 => t.lock1
def TimeSt.setLock (t : TimeSt) (u : Um) (v : PortLock) : TimeSt :=
  match u with | .um0 => { t with lock0 := v } | .um1 => { t with lock1 := v }

/-- A domain's number as a port. -/
def umOf (b : Bool) : Um := if b then .um1 else .um0

/-- The active domain; the lock of a port; a domain has acquired. -/
def State.active (s : State) : Um := umOf (s.stored pgTIME Reg.TIME.TSTAT_ACTIVE == 1)
def State.portLocked (s : State) (u : Um) : Bool := s.stored (pgTIMED u) Reg.TIMED.DSTAT_PORT_LOCK == 1
def State.acquired (s : State) (u : Um) : Bool := s.stored (pgTIMED u) Reg.TIMED.DSTAT_ACQUIRED == 1

/-- 2^-20 tick in a T_ref and in a frame. -/
def trefUnits : Int := 2 ^ 32
def frameUnits : Int := 2 ^ 44

/-- T_ref of the frame in progress that have passed. -/
def State.frameAge (s : State) : Nat := min frameTref (s.now - s.frame * frameTref)

/-! ### Increments and slews (R236, R237) -/

/-- INC and SLEW_INC in force. -/
def State.inc (s : State) (u : Um) : Int :=
  (s.fld (pgTIMED u) Reg.TIMED.INC_HI_INC * 2 ^ 32 + s.fld (pgTIMED u) Reg.TIMED.INC_LO : Nat)
def State.slewInc (s : State) (u : Um) : Int :=
  (s.fld (pgTIMED u) Reg.TIMED.SLEW_INC_HI_INC * 2 ^ 32 + s.fld (pgTIMED u) Reg.TIMED.SLEW_INC_LO : Nat)
/-- Periods that a running slew had left at the last boundary. -/
def State.slewLeft (s : State) (u : Um) : Nat :=
  if s.flag (pgTIMED u) Reg.TIMED.DSTAT_SLEWING then s.fld (pgTIMED u) Reg.TIMED.SLEW_CNT else 0

/-- The ageing adjustment of a domain, over 86 400 000 × 2^40 (R247). -/
def State.ageing (s : State) (u : Um) : Int :=
  if s.portLocked u then 0
  else signedOf 24 (s.fld pgTIME Reg.TIME.AGE_RATE_RATE) * (s.stored pgTIME Reg.TIME.HOLD_ELAPSED : Int)
def ageUnit : Int := 86400000 * 2 ^ 40

/-- What the standby domain gains while the active one gains `total` in k T_ref since the last boundary: its increment in use,
with its ageing, for each period of the active one (R233, R247). What its own reference gains beside that is not counted. -/
def State.standbyGain (s : State) (total : Int) (k : Nat) : Int :=
  let a := s.active
  let o := a.other
  let kA : Int := (min k (s.slewLeft a) : Nat)
  let kO : Int := (min k (s.slewLeft o) : Nat)
  let ageA := ageUnit + s.ageing a
  let dA := s.slewInc a - s.inc a
  let dO := s.slewInc o - s.inc o
  (ageUnit + s.ageing o) * (s.inc o * (total * ageUnit - dA * kA * ageA) + dO * kO * ageA * s.inc a) /
    (ageUnit * ageA * s.inc a)

/-- What the standby domain gains by k periods of a domain's slew (R233, R237, R247). -/
def State.slewGain (s : State) (u : Um) (k : Nat) : Int :=
  let d := (s.slewInc u - s.inc u) * (k : Int) * (ageUnit + s.ageing s.active.other)
  if u = s.active.other then d / ageUnit else -(s.inc s.active.other * d / (ageUnit * s.inc s.active))

/-! ### The splice (R236, R246) -/

/-- The splice rate, clipped with the active domain's increment to 2^19 in all (R236). -/
def State.splRate (s : State) : Int :=
  let r := signedOf 20 (s.fld pgTIME Reg.TIME.SPL_RATE_RATE)
  let i := (if 0 < s.slewLeft s.active then s.slewInc s.active else s.inc s.active) - trefUnits
  clampInt (i - 2 ^ 19) (i + 2 ^ 19) r

/-- Periods until a splice slew at rate r brings SPLICE to 0; none where it moves away from 0. -/
def spliceZero (splice r : Int) : Option Nat :=
  if splice = 0 ∨ r = 0 ∨ (0 < splice ↔ 0 < r) then none else some ((splice.natAbs + r.natAbs - 1) / r.natAbs)

/-- Periods that a running splice slew has still to run, as of the last boundary. -/
def State.spliceRuns (s : State) : Nat :=
  if s.time.splRun then
    let left := s.fld pgTIME Reg.TIME.SPL_COUNT
    match spliceZero s.time.splice s.splRate with
    | some z => min z left
    | none => left
  else 0

/-- SPLICE k T_ref after the last boundary (R246). -/
def State.spliceAfter (s : State) (k : Nat) : Int :=
  let n := min k s.spliceRuns
  if spliceZero s.time.splice s.splRate = some n then 0 else s.time.splice + s.splRate * (n : Int)

/-- SPLICE now. -/
def State.spliceNow (s : State) : Int := s.spliceAfter s.frameAge

/-- What a countdown register reads within a frame (R237, R252): the periods remaining, unless a write of it waits. -/
def State.countdown (s : State) (page : Nat) (f : FieldRef) (runs : Nat) : Word :=
  if (mapFind (regKey page f.off) s.stale).isSome || runs = 0 then s.rd page f.off
  else BitVec.ofNat 32 (s.stored page f - min s.frameAge runs)

/-- The two SPLICE words (R252): 48 bits in 2^-12 tick, rounded towards minus infinity. -/
def spliceWord (splice : Int) (hi : Bool) : Nat :=
  let v := unsignedOf 48 (splice / 256)
  if hi then v / 2 ^ 32 else v % 2 ^ 32

/-- A word of a time page that moves within the frame. -/
def State.timeWord (s : State) (page off : Nat) : Option Word :=
  if !s.running then none
  else if page = pgTIME then
    (if off = Reg.TIME.SPLICE_LO.off then some (BitVec.ofNat 32 (spliceWord s.spliceNow false))
     else if off = Reg.TIME.SPLICE_HI_HI.off then some (BitVec.ofNat 32 (spliceWord s.spliceNow true))
     else if off = Reg.TIME.SPL_COUNT.off then
       some (if s.spliceRuns ≤ s.frameAge ∧ s.time.splRun = true ∧ (mapFind (regKey page off) s.stale).isNone = true then 0
         else s.countdown page Reg.TIME.SPL_COUNT s.spliceRuns)
     else none)
  else if off = Reg.TIMED.SLEW_CNT.off then
    some (s.countdown page Reg.TIMED.SLEW_CNT (s.slewLeft (umOf (page == pgTIMED .um1))))
  else none

end Sys2Proof.Machine
end

