-- ==== Sys2Proof/Machine/Regs.lean ====
section
/-!
DEFINITION. Register access (R398-R412): which register an address names, what a read returns, how a write is stored,
staged, recorded or refused. What the written 1s of pulse fields do stands with the frame boundary (R404) or with the
commands that act at once (R499).
-/

namespace Sys2Proof.Machine

/-! ### Kinds of field -/

/-- A field of these types can be written. -/
def Access.writable : Access → Bool
  | .ro => false
  | _ => true
def Access.isPulse : Access → Bool
  | .wp | .wo | .rw1c => true
  | _ => false
def Access.isSetting : Access → Bool
  | .rw | .rwl => true
  | _ => false

/-- The register of an address; IDLE_US and CEIL can be written in primary pages only (R402), and TAP_POS[0] not at
all. -/
def regAt (page off : Nat) : Option RegDef :=
  match pageKind page with
  | some k =>
    if off % 4 ≠ 0 ∨ 4096 ≤ off then none
    else if off = 0x010 && !primaryKind k then
      (regDefAt k off).map (fun d => { d with fields := d.fields.map (fun f => { f with acc := .ro }) })
    else if k = .tdc ∧ off = 0x100 then some ⟨0x100, 1, 4, 0, [⟨15, 0, .ro, .none⟩]⟩
    else regDefAt k off
  | none => none

/-- A register in which some field can be written (R405). -/
def RegDef.canWrite (d : RegDef) : Bool := d.fields.any (·.acc.writable)
def RegDef.hasRwl (d : RegDef) : Bool := d.fields.any (fun f => f.acc == .rwl)
def RegDef.hasRws (d : RegDef) : Bool := d.fields.any (fun f => f.acc == .rws)
/-- A page holds RWL fields (R407). -/
def pageHasRwl (page : Nat) : Bool :=
  match pageKind page with
  | some k => (kindRegs k).any (·.hasRwl)
  | none => false

/-! ### Registers that act at once -/

/-- Fields stored at once and in force at once (R499): the window selectors, the DRAM host address and the scrub
ranges. -/
def immediateReg (k : PageKind) (off : Nat) : Bool :=
  match k with
  | .corr => off == 0x040
  | .tdc => off == 0x058
  | .cals => off == 0x08C
  | .jrnl => off == 0x04C
  | .dram => off == 0x0AC
  | .dintg | .intg => off == 0x044 || off == 0x048 || off == 0x04C
  | _ => false

/-- Pulse fields that act at acceptance (R499), and the re-send request that the next boundary delivers (R193). -/
def immediatePulse (k : PageKind) (off : Nat) : Bool :=
  off == 0x028 ||
  match k with
  | .corr => off == 0x048
  | .cals => off == 0x068
  | .dram => off == 0x0B0
  | .dintg | .intg => off == 0x050
  | .block => off == 0x050
  | .trig => off == 0x07C
  | _ => false

/-- Registers whose write acts although it changes nothing: the summary settings (R127), bucket thresholds (R327) and the
counts that start a slew (R237, R246), the lane mask, whose delivery it is (R357), an entry's excitation and reference (R433), and
EVT_ON (R403). -/
def actsUnchanged (k : PageKind) (off : Nat) : Bool :=
  off == Reg.HDR.CTRL.off || match k with
  | .lanes => off == Reg.LANES.MASK_LO.off || off == Reg.LANES.MASK_HI.off
  | .monx => decide (0x180 ≤ off) && decide (off < 0x200)
  | .madc => decide (0x100 ≤ off) && decide (off < 0x180)
  | .merge => off == 0x064 || decide (0x0C0 ≤ off)
  | .time => off == Reg.TIME.SPL_COUNT.off
  | .timeD => off == Reg.TIMED.SLEW_CNT.off
  | .dintg | .intg => decide (0x100 ≤ off) && decide (off < 0x340)
  | _ => false

/-! ### Dies that answer (R409) -/

/-- The concentrator and the tile of a page. -/
def concOf (page : Nat) : Conc := if page / 256 = 1 then .a else .b
def isConcPage (page : Nat) : Bool := page / 256 == 1 || page / 256 == 2
def tileOf (page : Nat) : Fin 16 := chTile (page / 256 * 4096)
def isTilePage (page : Nat) : Bool := page / 4096 == 1

/-- The belfry answers for the die of a page: a tile that is OFF, a concentrator in reset. -/
def State.dieOff (s : State) (page : Nat) : Bool :=
  if isTilePage page then s.pwr (pgTILE (tileOf page)) == 0
  else if isConcPage page then (s.conc (concOf page)).run == .reset
  else false

/-- A stored setting, from the belfry's record where the die cannot answer. -/
def State.setting (s : State) (page : Nat) (f : FieldRef) : Nat :=
  if s.dieOff page then fieldGet f ((mapFind (regKey page f.off) s.saved).getD (s.rd page f.off)) else s.stored page f

/-! ### Windows -/

/-- The channel of a word of the CORR window, of the TAC map window, and of the windows of one channel a word in CALS. -/
def State.corrChan (s : State) (page off : Nat) : Nat :=
  s.setting page Reg.CORR.CORR_SEL_GROUP * 64 + (off - 0x400) / 16
def State.tacChan (s : State) (page off : Nat) : Nat :=
  (tileOf page).val * 4096 + s.setting page Reg.TDC.TAC_SEL_BLOCK * 256 + (off - 0x400) / 4
def State.calChan (s : State) (off : Nat) : Nat := s.stored pgCALS Reg.CALS.SEL_DEAD_BLOCK * 256 + off % 0x400 / 4

/-- Word w of a 128-bit entry (R138), and the entry with it replaced; SET_EPOCH, bits [15:0], and the reserved bits
[17:16] ignore writes (R5, R110). -/
def entryWord (e : BitVec 128) (w : Nat) : Word := BitVec.ofNat 32 (e.toNat / 2 ^ (32 * w))
def entryPut (e : BitVec 128) (w : Nat) (v : Word) : BitVec 128 :=
  let m : BitVec 128 := BitVec.ofNat 128 ((if w = 0 then 0xFFFC0000 else 0xFFFFFFFF) * 2 ^ (32 * w))
  (e &&& ~~~m) ||| (BitVec.ofNat 128 (v.toNat * 2 ^ (32 * w)) &&& m)

/-- An entry with bits [hi:lo] replaced. -/
def entrySet (e : BitVec 128) (hi lo v : Nat) : BitVec 128 :=
  let m : BitVec 128 := BitVec.ofNat 128 ((2 ^ (hi - lo + 1) - 1) * 2 ^ lo)
  (e &&& ~~~m) ||| (BitVec.ofNat 128 (v * 2 ^ lo) &&& m)

/-- The entry of a channel as its table holds it: a poisoned word holds zeros (R329). -/
def ConcSt.entryHeld (cs : ConcSt) (chan : Nat) : BitVec 128 :=
  (List.range 4).foldl (fun e w => if cs.corrPoison.contains (4 * chan + w) then entrySet e (32 * w + 31) (32 * w) 0 else e)
    (mapGetD 0 chan cs.corr)

/-- The entry of a channel as the staging store holds it, or the one in force where none is staged (R137, R138). -/
def ConcSt.entryStaged (cs : ConcSt) (chan : Nat) : BitVec 128 :=
  if cs.stagedBad.contains chan then 0 else (mapFind chan cs.corrStaged).getD (cs.entryHeld chan)

/-- A word of the CORR window (R137, R138): the entry in force, or with VIEW 1 the staged one. -/
def State.corrWord (s : State) (page off : Nat) : Word :=
  let cs := s.conc (concOf page)
  let c := s.corrChan page off
  entryWord (if s.stored page Reg.CORR.CORR_SEL_VIEW = 1 then cs.entryStaged c else cs.entryHeld c) (off / 4 % 4)

/-! ### Staging (R214, R215) -/

/-- The second condition of R214 (R264). -/
def State.swapAdmitted (s : State) : Bool :=
  (s.pair .a == 2 && s.pair .b == 2) || concs.any (fun c => s.pair c == 0 && (s.conc c).run == .running &&
    ((s.conc c.other).run == .reset || (s.conc c.other).run == .frozen))

/-- The conditions of R214 for staging results. -/
def State.mayStage (s : State) : Bool :=
  concs.all (fun c => !(s.conc c).merging || (s.conc c).corrStaged.isEmpty) && s.swapAdmitted && s.peal.isNone &&
    !s.flag pgCALS Reg.CALS.CTRL_HOLD

/-- A word of a window, computed from what stands behind it; SWAP_STAT.WAIT reads 1 while a condition of R214 fails, and time
moves within a frame. -/
def State.windowWord (s : State) (k : PageKind) (page off : Nat) : Option Word :=
  let hist (m : List (Nat × Nat)) (i : Nat) : Nat := mapGetD 0 i m
  match k with
  | .corr => if 0x400 ≤ off then some (s.corrWord page off) else none
  | .tdc => if 0x400 ≤ off ∧ off < 0x800 then
      some (if s.tacPoison.contains (s.tacChan page off) then 0 else mapGetD 0 (s.tacChan page off) s.tac) else none
  | .jrnl =>
    if 0x800 ≤ off then
      some (match s.entryOf ((s.stored pgJRNL Reg.JRNL.SEL + (off - 0x800) / 32) % 2 ^ 32) with
        | some e => BitVec.ofNat 32 (e.word (off / 4 % 8))
        | none => 0)
    else none
  | .cals =>
    let h := s.conc s.histConc
    let ch := s.stored pgCALS Reg.CALS.SEL_HIST_CHAN
    if off = Reg.CALS.SWAP_STAT_WAIT.off then
      some (fieldPut Reg.CALS.SWAP_STAT_WAIT (s.running && !s.mayStage).toNat (s.rd page off))
    else if 0xC00 ≤ off then some (mapGetD 0 (s.calChan off) s.cal.chCal)
    else if 0x800 ≤ off then some (BitVec.ofNat 32 (mapGetD 0 (s.calChan off) s.cal.cdead))
    else if 0x600 ≤ off ∧ off < 0x700 then
      some (BitVec.ofNat 32 (hist h.tapHist (ch / 4096 * 64 + (off - 0x600) / 4)))
    else if 0x400 ≤ off ∧ off < 0x600 then
      let i := 2 * ((off - 0x400) / 4)
      some (BitVec.ofNat 32 (hist h.hist (ch * 256 + i + 1) * 65536 + hist h.hist (ch * 256 + i)))
    else none
  | .time | .timeD => s.timeWord page off
  | _ => none

/-! ### Reads (R398-R400, R409, R412) -/

/-- RWL fields of a page are writable over Umauf now (R407). -/
def State.unlocked (s : State) (page : Nat) : Bool := s.unlocks.any (fun u => u.1 == page && decide (s.frame < u.2))

/-- Staged RWS values are held for a page (R406). -/
def State.shadowPending (s : State) (page : Nat) : Bool :=
  if isConcPage page then page % 256 == 1 && !(s.conc (concOf page)).corrStaged.isEmpty
  else if isTilePage page && page % 256 == 1 then
    s.tacStaged.any (fun e => e.1 / 4096 == (tileOf page).val) || s.rwsStaged.any (fun e => e.1 / 4096 == page)
  else false

/-! ### Targets of a write (R258, R408) -/

/-- Writes that MIRROR does not copy: the STEP page, and EQ_OVR, TEST and CNT_CLR of a lane (R258, R366). -/
def unmirrored (page off : Nat) : Bool :=
  page % 256 == 8 || (decide (0x10 ≤ page % 256) && (off == 0x048 || off == 0x04C || off == 0x068))

/-- The same page of the other concentrator. -/
def otherConcPage (page : Nat) : Nat := if page / 256 = 1 then page + 256 else page - 256

/-- The pages a write reaches: first the one whose result answers it. -/
def State.writePages (s : State) (page off : Nat) : List Nat :=
  if isConcPage page then
    (if s.flag pgSTICK Reg.STICK.CTRL_MIRROR && !unmirrored page off then [page, otherConcPage page] else [page])
  else if page / 256 = 0x20 then allTiles.map (fun t => pgTILE t + page % 256)
  else [page]

/-- The page whose registers an alias page has: tile 0's. -/
def targetPage (page : Nat) : Nat := if page / 256 = 0x20 then pgTILE 0 + page % 256 else page

/-! ### What the header shows (R399-R402) -/

/-- The swap or peal that installs the staged values of a page has committed (R400). -/
def State.shadowCommitted (s : State) (page : Nat) : Bool :=
  (isConcPage page && page % 256 == 1 || isTilePage page && page % 256 == 1) &&
  ((match s.cal.swap with
    | some w => w.committed && (isConcPage page || tileOf page == w.tile)
    | none => false) ||
   (s.stored pgJRNL Reg.JRNL.PEAL_STAT_STATE == 3 &&
    (match s.peal with | some p => p.writes.any (fun w => (s.writePages w.2.page.toNat w.2.off.toNat).contains page) | none => false)))

/-- ERR_SUMMARY (R400). -/
def State.errWord (s : State) (page : Nat) : Word :=
  let pend := s.rd page Reg.HDR.EVT_PENDING.off &&& s.rd page Reg.HDR.EVT_ENABLE.off
  (s.rd page Reg.HDR.ERR_SUMMARY.off &&& 4) ||| (if s.rd page Reg.HDR.COUNTER_OVF.off = 0 then 0 else 2) |||
    (if pend = 0 then 0 else 1)

/-- PWR_STATE as a page shows it (R402): its owner's ceiling and state; belfry pages but MOD show RUN. -/
def State.pwrWord (s : State) (k : PageKind) (page : Nat) : Word :=
  let own := ownerPage page
  let base := (mapFind (regKey page 0x010) s.saved).getD (s.rd page 0x010)
  let w := if primaryKind k then (if s.dieOff page then base else s.rd page 0x010) else s.rd page 0x010
  let w := fieldPut Reg.HDR.PWR_STATE_CEIL (s.stored own Reg.HDR.PWR_STATE_CEIL) w
  fieldPut Reg.HDR.PWR_STATE_STATE (if page < 0x10 ∧ page ≠ 0 then 3 else s.pwr own) w

/-- A header register as read. -/
def State.headerWord (s : State) (k : PageKind) (page off : Nat) : Word :=
  if off = 0x008 then
    BitVec.ofNat 32 (packFields [(1, (!s.dieOff page).toNat), (1, (s.unlocked page).toNat), (1, (s.shadowPending page).toNat),
      (1, (decide (s.errWord page ≠ 0)).toNat), (28, 0)])
  else if off = 0x010 then s.pwrWord k page
  else if off = 0x014 then s.errWord page
  else if off = 0x024 then BitVec.ofNat 32 (mapGetD 0 page s.jseq)
  else if off = 0x028 then
    BitVec.ofNat 32 (packFields [(1, (s.shadowPending page).toNat), (1, (s.shadowCommitted page).toNat), (30, 0)])
  else s.rd page off

/-- What a register reads as where its die answers; reserved offsets read 0. -/
def State.readReg (s : State) (page off : Nat) : Word :=
  match pageKind page with
  | none => 0
  | some k =>
    if (regAt page off).isNone then 0
    else if off < 0x40 then s.headerWord k page off
    else match mapFind (regKey page off) s.time.latched with
      | some w => w
      | none => (s.windowWord k page off).getD (s.rd page off)

/-- The HI word that a read of a LO word latches (R186). -/
def hiWord (k : PageKind) (off : Nat) : Option Nat :=
  let pair : Bool := match k with
    | .glean => off == 0x068 || off == 0x070 || off == 0x078
    | .cals => off == 0x090
    | .time => off == 0x058
    | .stick => off == 0x050
    | .step => off == 0x05C || off == 0x064
    | .lanes => off == 0x068
    | .lane => off == 0x054
    | _ => false
  if pair then some (off + 4) else none

/-- The latching of R186: a LO word latches its HI word, and the read of the HI word returns and spends it. -/
def State.latchRead (s : State) (page off : Nat) : State :=
  match (pageKind page).bind (fun k => (hiWord k off).map (fun h => (h, (s.windowWord k page h).getD (s.rd page h)))) with
  | some h => { s with time := { s.time with latched := mapPut (regKey page h.1) h.2 s.time.latched } }
  | none => { s with time := { s.time with latched := mapDel (regKey page off) s.time.latched } }

/-- Registers that the belfry answers for a die that cannot (R409). -/
def answeredOff (off : Nat) : Bool := off == 0x000 || off == 0x004 || off == 0x008 || off == 0x010

/-- One read: its value, whether R409 refuses it, and the latching. -/
def State.readOne (s : State) (page off : Nat) : Word × Bool × State :=
  if s.dieOff page && !answeredOff off then (0, true, s) else (s.readReg page off, false, s.latchRead page off)

/-! ### Writes (R405-R410) -/

/-- The code of a write that R409 refuses; it is answered REFUSED and counted. -/
def resOFF : Nat := 0x101

/-- SHADOW_CTRL.PENDING and STAGE_STATUS.COUNT follow the staging store (R137). -/
def State.showStaged (s : State) (c : Conc) : State :=
  s.put (pgCORR c) Reg.CORR.STAGE_STATUS_COUNT (s.conc c).corrStaged.length

/-- An entry of this channel would be the 4097th staged (R116). -/
def ConcSt.stageFull (cs : ConcSt) (chan : Nat) : Bool :=
  (mapFind chan cs.corrStaged).isNone && decide (4096 ≤ cs.corrStaged.length)

/-- Stages an entry, whoever does; the 4097th is refused, counted, and sets FULL (R116). -/
def State.stageEntry (s : State) (c : Conc) (chan : Nat) (e : BitVec 128) : State :=
  let cs := s.conc c
  if cs.stageFull chan then
    ((s.bump (pgCORR c) Reg.CORR.STAGE_REJ_CNT 2).putB (pgCORR c) Reg.CORR.STAGE_STATUS_FULL true).event (pgCORR c) 1
  else (s.setConc c { cs with
    corrStaged := mapPut chan e cs.corrStaged, stagedBad := cs.stagedBad.filter (· != chan) }).showStaged c

/-- A write to the CORR window stages the entry, or is refused as the 4097th (R116, R138). -/
def State.stageCorr (s : State) (c : Conc) (chan w : Nat) (v : Word) : Nat × State :=
  let cs := s.conc c
  (if cs.stageFull chan then resREFUSED else resOK,
   s.stageEntry c chan (entryPut (cs.entryStaged chan) w v))

/-- The belfry's record of a register's settings (R409); SET_BAD lasts until the settings are rewritten (R458). -/
def State.record (s : State) (page off : Nat) (d : RegDef) : State :=
  let m := d.mask Access.isSetting
  if m = 0 ∨ (page = pgPWR ∧ off = Reg.PWR.CONC_HOLD.off) then s
  else
    let s := if s.flag pgFWU Reg.FWU.STAT_SET_BAD then s.putB pgFWU Reg.FWU.STAT_SET_BAD false else s
    { s with saved := mapPut (regKey page off) (s.rd page off &&& m) s.saved }

/-- A register's setting fields take new stored values; the value in force stays till the next boundary (R404, R405),
but for the registers of R499. -/
def State.store (s : State) (k : PageKind) (page off : Nat) (new : Word) : State :=
  if immediateReg k off || (new == s.rd page off && !actsUnchanged k off) then s.wr page off new
  else
    let key := regKey page off
    let old := s.live page off
    { s.wr page off new with stale := if (mapFind key s.stale).isSome then s.stale else mapPut key old s.stale }

/-- A write of the lower word of INC or SLEW_INC: what was stored stays in force until the upper word is written (R236). -/
def State.storeLo (s : State) (page off : Nat) (new : Word) : State :=
  let key := regKey page off
  let s' := if (mapFind key s.time.lo).isSome then s
    else { s with time := { s.time with lo := mapPut key (s.rd page off) s.time.lo } }
  s'.store .timeD page off new

/-- The upper word of INC or SLEW_INC completes the pair, which is limited as a whole (R236). -/
def State.storeInc (s : State) (page off : Nat) (v : Word) : State :=
  let n := limitInc (s.rd page (off - 4)) v
  let keep (o : Nat) (m : List (Nat × Word)) : List (Nat × Word) :=
    if (mapFind (regKey page o) m).isSome then m else mapPut (regKey page o) (s.live page o) m
  let st := keep off (keep (off - 4) s.stale)
  { (s.wr page (off - 4) (BitVec.ofNat 32 n)).wr page off (BitVec.ofNat 32 (n / 2 ^ 32)) with
    stale := st, time := { s.time with lo := mapDel (regKey page (off - 4)) s.time.lo } }

/-- A register's setting fields are stored: INC and SLEW_INC in pairs, the others by themselves. -/
def State.storeSetting (s : State) (k : PageKind) (page off : Nat) (new v : Word) : State :=
  if k = .timeD ∧ (off = 0x044 ∨ off = 0x04C) then s.storeInc page off v
  else if k = .timeD ∧ (off = 0x040 ∨ off = 0x048) then s.storeLo page off new
  else s.store k page off new

/-- A write that would leave both concentrators held is refused as a whole (R475). -/
def holdsBoth (k : PageKind) (off : Nat) (w : Word) : Bool :=
  k == .pwr && off == Reg.PWR.CONC_HOLD.off && fieldGet Reg.PWR.CONC_HOLD_HOLD_A w == 1 &&
    fieldGet Reg.PWR.CONC_HOLD_HOLD_B w == 1

/-- A write that starts a test on a lane in the written mask or the mask in effect (R358). -/
def State.testRefused (s : State) (k : PageKind) (page off : Nat) (v : Word) : Bool :=
  let l := page % 256 - 16
  let has (lo hi : FieldRef) : Bool :=
    (s.stored (pgLANES (concOf page)) (if l < 32 then lo else hi)).testBit (l % 32)
  k == .lane && off == 0x04C && v &&& 7 != 0 &&
    (has Reg.LANES.MASK_LO Reg.LANES.MASK_HI || has Reg.LANES.ACT_LO Reg.LANES.ACT_HI)

/-- The written 1s of a register that wait for the boundary, and what goes with them: SW_CTRL.GO with its TARGET, and SW_AT as
it stands (R242); in CALS the channel that the window serves. -/
def writtenOnes (k : PageKind) (off : Nat) (d : RegDef) (v : Word) (shut : Bool) : Word :=
  (v &&& d.mask Access.isPulse) |||
    (if k = .time ∧ off = 0x050 ∧ v.getLsbD 31 = true ∧ shut = false then v &&& 0x80000001 else 0)
def State.writtenWith (s : State) (k : PageKind) (off : Nat) : Nat :=
  if k = .time then s.stored pgTIME Reg.TIME.SW_AT else s.calChan off

/-- The same for a die that does not answer, by the mask on record (R358, R409). -/
def State.testRefusedOff (s : State) (k : PageKind) (page off : Nat) (v : Word) : Bool :=
  let l := page % 256 - 16
  let key := regKey (pgLANES (concOf page)) (if l < 32 then Reg.LANES.MASK_LO.off else Reg.LANES.MASK_HI.off)
  k == .lane && off == 0x04C && v &&& 7 != 0 && ((mapFind key s.saved).getD 0xFFFFFFFF).getLsbD (l % 32)

/-- The setting and pulse fields of a register written where its die answers (R405, R407). -/
def State.writePlain (s : State) (k : PageKind) (page off : Nat) (d : RegDef) (v : Word) (rwl : Bool) : Nat × State :=
  let shut := d.hasRwl && !rwl && !s.unlocked page
  let new := fixWord k off (d.take (fun a => a == .rw || (a == .rwl && !shut)) (s.rd page off) v)
  if holdsBoth k off new then (resREFUSED, s)
  else if k = .time ∧ off = 0x048 ∧ s.flag pgTIME Reg.TIME.EPOCH_INIT_FROZEN = true then (resOK, s.event pgTIME 6)
  else if s.testRefused k page off v then (resOK, s.bump page Reg.LANE.TEST_REJ_CNT 2)
  else
    let s := s.storeSetting k page off new v
    let s := s.record page off d
    let ones := writtenOnes k off d v shut
    let s := if ones = 0 ∨ immediatePulse k off = true then s
      else { s with pendW := s.pendW ++ [{ page := page, off := off, value := ones, chan := s.writtenWith k off }] }
    if shut then (resLOCKED, s.wr page 0x014 (s.rd page 0x014 ||| 4)) else (resOK, s)

/-- A write to one page whose die answers. -/
def State.writeLive (s : State) (k : PageKind) (page off : Nat) (d : RegDef) (v : Word) (rwl : Bool) : Nat × State :=
  if k = .corr ∧ 0x400 ≤ off then s.stageCorr (concOf page) (s.corrChan page off) (off / 4 % 4) v
  else if k = .tdc ∧ 0x400 ≤ off ∧ off < 0x800 then
    (resOK, { s with tacStaged := mapPut (s.tacChan page off) v s.tacStaged })
  else if k = .tdc ∧ 0x100 ≤ off ∧ off < 0x200 then
    (resOK, { s with rwsStaged := mapPut (regKey page off) (v &&& 0xFFFF) s.rwsStaged })
  else s.writePlain k page off d v rwl

/-- A write to a page whose die cannot answer enters the belfry's record; a written pulse is refused (R409). -/
def State.writeOff (s : State) (k : PageKind) (page off : Nat) (d : RegDef) (v : Word) (rwl : Bool) : Nat × State :=
  let shut := d.hasRwl && !rwl && !s.unlocked page
  let key := regKey page off
  let base := (mapFind key s.saved).getD (s.rd page off)
  let s :=
    if k = .corr ∧ 0x400 ≤ off then
      let c := s.corrChan page off
      let e := entryPut ((mapFind c s.savedCorr).getD (mapGetD 0 c s.mramCorr)) (off / 4 % 4) v
      { s with savedCorr := mapPut c e s.savedCorr }
    else if k = .tdc ∧ 0x400 ≤ off ∧ off < 0x800 then { s with savedTac := mapPut (s.tacChan page off) v s.savedTac }
    else if k = .tdc ∧ 0x100 ≤ off ∧ off < 0x200 then { s with savedStaged := mapPut key (v &&& 0xFFFF) s.savedStaged }
    else
      let m := d.mask (fun a => a == .rw || (a == .rwl && !shut))
      let new := fixWord k off (d.take (fun a => a == .rw || (a == .rwl && !shut)) base v)
      if m = 0 ∨ s.testRefusedOff k page off v = true then s else { s with saved := mapPut key (new &&& d.mask Access.isSetting) s.saved }
  if v &&& d.mask Access.isPulse ≠ 0 then (resOFF, s) else if shut then (resLOCKED, s) else (resOK, s)

/-- The ceiling of a primary page takes effect whether its die answers or not (R402, R409). -/
def State.writeOnePage (s : State) (page off : Nat) (v : Word) (rwl : Bool) : Nat × State :=
  match pageKind page, regAt page off with
  | some k, some d =>
    if !d.canWrite then (resBAD_ADDR, s)
    else if s.dieOff page && !(off == 0x010) then s.writeOff k page off d v rwl
    else s.writeLive k page off d v rwl
  | _, _ => (resBAD_ADDR, s)

/-! ### Results of a write (R258, R408) -/

/-- The result of several pages: the alias answers REFUSED or LOCKED where any tile does (R408, R410); a mirrored write
answers for the page addressed. -/
def joinResult (alias_ : Bool) (l : List Nat) : Nat :=
  if alias_ then (l.find? (· != resOK)).getD resOK else l.headD resBAD_ADDR

/-- LOCK_REJ_CNT, ADDR_ERR_CNT and OFF_REJ_CNT with their events (R398, R407, R409, R416). -/
def State.countResult (s : State) (r : Nat) : State :=
  if r = resLOCKED then (s.bump pgMOD Reg.MOD.LOCK_REJ_CNT 0).event pgMOD 0
  else if r = resBAD_ADDR then (s.bump pgMOD Reg.MOD.ADDR_ERR_CNT 1).event pgMOD 1
  else if r = resOFF then (s.bump pgMOD Reg.MOD.OFF_REJ_CNT 2).event pgMOD 2
  else s

/-! ### Changes of a page (R390) -/

/-- A write of a register with this value and result changes configuration values of its page (R390); one that R231 or R358 ignores
changes none. -/
def State.changesPage (s : State) (page off : Nat) (v : Word) (r : Nat) (rwl : Bool) : Bool :=
  let ignored := (page == pgTIME && off == 0x048 && s.flag pgTIME Reg.TIME.EPOCH_INIT_FROZEN) ||
    (match pageKind page with
      | some k => if s.dieOff page then s.testRefusedOff k page off v else s.testRefused k page off v
      | none => false)
  match regAt page off with
  | some d => !ignored && (r == resOK || r == resLOCKED || r == resOFF) &&
      d.mask (fun a => a == .rw || a == .rws || (a == .rwl && (rwl || s.unlocked page))) != 0
  | none => false

/-- JOURNAL_SEQ of the pages that a journaled write changed: pages with their results. -/
def State.noteWrites (s : State) (l : List (Nat × Nat)) (off : Nat) (v : Word) (n : Nat) (rwl : Bool) : State :=
  s.each l (fun s x => if s.changesPage x.1 off v x.2 rwl then s.noteChange x.1 n else s)

/-! ### Locks (R407) -/

/-- Pages that an UNLOCK or LOCK acts on. -/
def State.lockPages (s : State) (page : Nat) : List Nat :=
  if isConcPage page && s.flag pgSTICK Reg.STICK.CTRL_MIRROR then [page, otherConcPage page]
  else if page / 256 = 0x20 then allTiles.map (fun t => pgTILE t + page % 256)
  else [page]

/-- An accepted UNLOCK (R407): until the boundary FRAMES frames after the first boundary that follows. -/
def State.unlockPage (s : State) (page frames : Nat) : State :=
  if pageHasRwl page then
    { s with unlocks := s.unlocks.filter (fun u => u.1 != page) ++ [(page, s.frame + 1 + frames)] } else s

/-- A page is locked. -/
def State.lockPage (s : State) (page : Nat) : State := { s with unlocks := s.unlocks.filter (fun u => u.1 != page) }

/-- STAGE_CLR empties a concentrator's staging store (R137). -/
def State.stageClr (s : State) (c : Conc) : State :=
  ((s.setConc c { s.conc c with corrStaged := [], stagedBad := [] }).putB (pgCORR c) Reg.CORR.STAGE_STATUS_FULL
    false).showStaged c

/-- DISCARD drops the staged values of a page, in the CORR page as STAGE_CLR; once what installs them has committed it is
ignored (R406). -/
def State.discardStaged (s : State) (page : Nat) : State :=
  if s.shadowCommitted page then s
  else if isConcPage page then (if page % 256 = 1 then s.stageClr (concOf page) else s)
  else if isTilePage page && page % 256 == 1 then
    { s with tacStaged := s.tacStaged.filter (fun e => e.1 / 4096 != (tileOf page).val),
             rwsStaged := s.rwsStaged.filter (fun e => e.1 / 4096 != page) }
  else s

end Sys2Proof.Machine
end

