-- ==== Sys2Proof/Machine/Swap.lean ====
section
/-!
DEFINITION. Turns of the calibration engine, and the swap that is requested and not yet in effect: when the pair admits it, and its
withdrawal (R202, R214-R216).
-/

namespace Sys2Proof.Machine

/-! ### Turns (R201-R204) -/

/-- The tile in turn. -/
def State.turnTile (s : State) : Fin 16 := ⟨s.stored pgCALS Reg.CALS.SWAP_STAT_TILE % 16, Nat.mod_lt _ (by decide)⟩

/-- A concentrator's histograms and captures are empty. -/
def State.clearHist (s : State) (c : Conc) (captures : Bool) : State :=
  s.setConc c { s.conc c with hist := [], tapHist := [], captured := if captures then [] else (s.conc c).captured }

/-- The current turn restarts with empty histograms (R227, R328). -/
def State.restartTurn (s : State) (captures : Bool) : State :=
  let s := s.each concs (fun s c => s.clearHist c captures)
  { s with cal := { s.cal with turnFrom := s.now } }

/-- A tile is due a turn: in LISTEN or RUN and present (R202). -/
def State.turnable (s : State) (t : Fin 16) : Bool := decide (2 ≤ s.pwr (pgTILE t)) && !(s.tile t).absent

/-- The tiles from `first` on, in ascending order, wrapping. -/
def tilesFrom (first : Nat) : List (Fin 16) := (List.range 16).map (fun i => ⟨(first + i) % 16, Nat.mod_lt _ (by decide)⟩)

/-- A turn begins for the first tile from `first` on that is not skipped (R202, R203). -/
def State.beginTurn (s : State) (first : Nat) : State :=
  match (tilesFrom first).find? s.turnable with
  | some t =>
    let s := s.restartTurn false
    ({ s with cal := { s.cal with turnOn := true } } : State).put pgCALS Reg.CALS.SWAP_STAT_TILE t.val
  | none => { s with cal := { s.cal with turnOn := false } }

/-- SWAP_STAT follows the pending swap. -/
def State.showSwap (s : State) : State :=
  let w := s.cal.swap
  ((s.putB pgCALS Reg.CALS.SWAP_STAT_PENDING w.isSome).putB pgCALS Reg.CALS.SWAP_STAT_COMMITTED
    ((w.map (·.committed)).getD false)).putB pgCALS Reg.CALS.SWAP_STAT_BY_HOST ((w.map (·.byHost)).getD false)

/-! ### Commit and withdrawal (R215, R216) -/

/-- The swap's journal entry (R219, R500): applied or withdrawn, with the epoch it installs or would have. -/
def State.journalSwap (s : State) (t : Fin 16) (result epoch : Nat) : Nat × State :=
  s.append { seq := 0, time := s.now, port := 2, master := 0, code := 0xE0, result := result, page := pgTDC t, off := 0,
             digest := epoch % 65536, aux := t.val, poison := false }

/-- The peal epoch in force. -/
def State.epochNow (s : State) : Nat := s.stored pgJRNL Reg.JRNL.PEAL_STAT_EPOCH

/-- The turn whose results a swap carried is over: the next tile's begins (R202). -/
def State.nextTurn (s : State) (t : Fin 16) : State :=
  if !s.cal.turnOn && s.turnTile == t then s.beginTurn (t.val + 1) else s

/-- A swap not yet committed is withdrawn (R216): staged values are discarded, and the engine keeps its results. The discard
clears STAGE_STATUS.FULL, as STAGE_CLR does (DESIGN CHOICE, log 46), and the next turn begins at once, in the middle of a frame
too (DESIGN CHOICE, log 61). -/
def State.withdrawSwap (s : State) : State :=
  match s.cal.swap with
  | some w =>
    if w.committed then s
    else
      let s := (s.discardStaged (pgTDC w.tile)).each concs (fun s c => s.discardStaged (pgCORR c))
      let back := s.cal.staged.toList
      let s := { s with cal := { s.cal with swap := none, results := back ++ s.cal.results, staged := none } }
      let s := (((s.bump pgCALS Reg.CALS.ABORT_CNT 1).event pgCALS 1).showSwap).putB pgCALS Reg.CALS.SWAP_STAT_READY false
      let s := (s.journalSwap w.tile resABORTED (s.epochNow + 1)).2
      if back.isEmpty then s else s.nextTurn w.tile
  | none => s

/-- A swap that is no restoring swap is withdrawn when the pair is no longer admitted (R216). -/
def State.checkSwap (s : State) : State :=
  match s.cal.swap with
  | some w => if !w.committed && !w.restoring && !s.swapAdmitted then s.withdrawSwap else s
  | none => s

end Sys2Proof.Machine
end

