-- ==== Sys2Proof/Machine/Dram.lean ====
section
/-!
DEFINITION. The lookback memory controller: demand reads and freeze (R309, R310), refresh and temperature (R301-R303),
frequency points (R297, R298), training and retirement (R304-R308), release (R311), host access (R312), class
promotion (R295) and page closing (R296).
-/

namespace Sys2Proof.Machine

/-! ### Requests that wait, by class (R294, R295) -/

/-- The engine's next glean (R190): the one in progress, else the one that became ready first. -/
def ConcSt.nextGlean (c : ConcSt) : Option Glean :=
  let ready := c.gleans.filter (fun g => !g.formed && decide (g.needs < c.nextForm))
  match ready.find? (fun g => decide (0 < g.part)) with
  | some g => some g
  | none => ready.foldl (fun (b : Option Glean) g =>
      match b with | some h => if g.needs < h.needs then some g else some h | none => some g) none

/-- The mask in effect as a 64-bit word. -/
def State.actMask (s : State) (c : Conc) : BitVec 64 :=
  BitVec.ofNat 64 (s.stored (pgLANES c) Reg.LANES.ACT_HI * 2 ^ 32 + s.stored (pgLANES c) Reg.LANES.ACT_LO)

/-- The class of a kind of read (R294). -/
def DramReq.cls : DramReq → Nat
  | .spill | .glean => 3
  | .resend => 4
  | .scrub | .host => 5

/-- The kinds of read, in the order in which a promotion looks for one. -/
def DramReq.all : List DramReq := [.spill, .glean, .resend, .scrub, .host]

/-- A read of this kind waits in a group: the next stream sheaf of spill, a glean's frame, a re-send's sheaf, a scrub word, the
host's unit. -/
def State.waiting (s : State) (c : Conc) (shadow : Bool) (r : DramReq) : Bool :=
  let cs := s.conc c
  match r with
  | .spill => !shadow && cs.merging && (cs.stream.any (·.reread) ||
      (s.stored (pgSHEAF c) Reg.SHEAF.SPILL_STAT_MODE != 0 && cs.stream.isNone && decide (cs.sendNext < cs.nextForm) &&
        s.actMask c != 0))
  | .glean => shadow && cs.merging && cs.nextGlean.any (fun g => !g.refused)
  | .resend => !shadow && cs.merging && cs.resendCur.isNone && !cs.resends.isEmpty
  | .scrub => (mapFind (pgDINTG c) s.scrubs).any (fun x => x.mem == (if shadow then 2 else 1))
  | .host => cs.host.any (fun h => h.shadow == shadow)

/-- The class that a read has reached, and its place among the promoted ones: the last promoted stands at the head (R295). -/
def DramSt.clsOf (m : DramSt) (r : DramReq) : Nat := ((m.promo.find? (fun x => x.1 == r)).map (·.2.1)).getD r.cls
def DramSt.place (m : DramSt) (r : DramReq) : Nat := m.promo.findIdx (fun x => x.1 == r)

/-- Since when the read of a kind that waits has done so: its age (R294). -/
def State.waitsSince (s : State) (c : Conc) (r : DramReq) : Nat :=
  let cs := s.conc c
  match r with
  | .spill => cs.spillSince
  | .glean => (cs.nextGlean.map (·.since)).getD 0
  | .resend => (cs.resends.head?.map (·.since)).getD 0
  | .scrub => ((mapFind (pgDINTG c) s.scrubs).map (·.since)).getD 0
  | .host => (cs.host.map (·.since)).getD 0

/-- Of two reads of one group the first stands before the second, or neither before the other (R294, R295): by class, in a class
those promoted, the last promoted first, then by age. -/
def State.before (s : State) (c : Conc) (r x : DramReq) : Bool :=
  let m := (s.conc c).mc
  decide (m.clsOf r < m.clsOf x) || (m.clsOf r == m.clsOf x &&
    (decide (m.place r < m.place x) || (m.place r == m.place x && decide (s.waitsSince c r ≤ s.waitsSince c x))))

/-- A read is next in its group: none that waits stands before it. Class 1 is issued at once and a write of class 2 as it comes;
during a change, when writes wait, no read is served (R297, R300). -/
def State.servesNow (s : State) (c : Conc) (shadow : Bool) (r : DramReq) : Bool :=
  DramReq.all.all (fun x => x == r || !s.waiting c shadow x || s.before c r x)

/-- A read has been served: the next of its kind waits in its own class. -/
def State.served (s : State) (c : Conc) (r : DramReq) : State :=
  let cs := s.conc c
  s.setConc c { cs with mc := { cs.mc with promo := cs.mc.promo.filter (fun x => x.1 != r) } }

/-- The age limit of a class (R295). -/
def State.ageLimit (s : State) (c : Conc) (cls : Nat) : Nat :=
  if cls = 3 then s.fld (pgDRAM c) Reg.DRAM.AGE_AGE3
  else if cls = 4 then s.fld (pgDRAM c) Reg.DRAM.AGE_AGE4
  else if cls = 5 then s.fld (pgDRAM c) Reg.DRAM.AGE_AGE5 else 0

/-- Since when the wait of a read counts against the limit of its class (R295): its arrival, or its last promotion. -/
def State.agesFrom (s : State) (c : Conc) (r : DramReq) : Nat :=
  max (s.waitsSince c r) ((((s.conc c).mc.promo.find? (fun x => x.1 == r)).map (·.2.2)).getD 0)

/-- The read of a class that has waited beyond the class's limit at module time t, the longest of them (R295). -/
def State.overAge (s : State) (c : Conc) (shadow : Bool) (cls t : Nat) : Option DramReq :=
  (DramReq.all.filter (fun r => s.waiting c shadow r && (s.conc c).mc.clsOf r == cls &&
      decide (s.agesFrom c r + 80 * s.ageLimit c cls < t))).foldl
    (fun b r => match b with | some x => if s.agesFrom c r < s.agesFrom c x then some r else some x | none => some r) none

/-- AGE_PROMOTION: a read of class 3 to 5 that has waited longer than its limit moves to the head of the next higher class. -/
def State.agePromotion (s : State) (c : Conc) (shadow : Bool) (cls at_ : Nat) : State :=
  let s := s.advance at_
  let cs := s.conc c
  if s.ageLimit c cls = 0 then s
  else match s.overAge c shadow cls s.now with
    | some r =>
      let promo := (r, cls - 1, s.now) :: cs.mc.promo.filter (fun x => x.1 != r)
      (s.setConc c { cs with mc := { cs.mc with promo := promo } }).bump (pgDRAM c) Reg.DRAM.PROMO_CNT 3
    | none => s

/-! ### Scrub passes that end early (R330) -/

/-- The running pass of a page ends with ABORTED set. -/
def State.abortScrub (s : State) (page : Nat) : State :=
  if (mapFind page s.scrubs).isSome then
    (({ s with scrubs := mapDel page s.scrubs }).putB page Reg.DINTG.SCRUB_CTRL_BUSY false).putB page
      Reg.DINTG.SCRUB_CTRL_ABORTED true
  else s

/-- The pass of a concentrator's page reads a group: memory 1 is the replay group, 2 the shadow group (R340). -/
def State.abortScrubOf (s : State) (c : Conc) (mem : Nat) : State :=
  match mapFind (pgDINTG c) s.scrubs with
  | some r => if r.mem = mem then s.abortScrub (pgDINTG c) else s
  | none => s

/-! ### Freeze (R309, R310) -/

/-- What the snapshot holds of the failing command. -/
structure FreezeCause where
  cause : Nat
  cmd : Nat
  cls : Nat
  chan : Nat
  bank : Nat
  row : Nat
  unit : Nat
  synd : Nat
  deriving DecidableEq, Repr

/-- The snapshot registers (R310, R314). -/
def State.snapshot (s : State) (c : Conc) (x : FreezeCause) : State :=
  let p := pgDRAM c
  let s := ((s.put p Reg.DRAM.FRZ_CAUSE_CAUSE x.cause).put p Reg.DRAM.FRZ_CAUSE_CLASS x.cls).put p
    Reg.DRAM.FRZ_CAUSE_CMD x.cmd
  let s := (s.put p Reg.DRAM.FRZ_CAUSE_CHANNEL x.chan).put p Reg.DRAM.FRZ_CAUSE_BANK x.bank
  let s := ((s.put p Reg.DRAM.FRZ_ADDR_ROW x.row).put p Reg.DRAM.FRZ_ADDR_UNIT x.unit).put p Reg.DRAM.FRZ_SYND x.synd
  s.put p Reg.DRAM.FRZ_SHEAF (sheafOf (s.conc c).nextForm)

/-- The controller freezes: snapshot, FROZEN, event and count; merge and correction stop; the partner is told
(R260); a scrub pass ends (R330); a swap may be withdrawn (R216). A frozen controller stays as it is. -/
def State.freeze (s : State) (c : Conc) (x : FreezeCause) : State :=
  if s.dramFrozen c then s
  else
    let p := pgDRAM c
    let s := ((s.snapshot c x).putB p Reg.DRAM.STAT_FROZEN true).event p 0
    let s := (s.bump p Reg.DRAM.FREEZE_CNT 4).abortScrub (pgDINTG c)
    let s := s.setConc c { s.conc c with run := .frozen }
    (s.sendCross c (s.crossMsg c (s.conc c).nextForm none)).checkSwap

/-- An uncorrectable demand read of a unit (R309): the controller freezes while FREEZE_UE is 1, and poisons the unit
otherwise. A poisoned unit that an upset has struck counts too, and never freezes (R329, R338). The syndrome is free. -/
def State.demandError (s : State) (c : Conc) (shadow : Bool) (unit cls : Nat) : State :=
  let cs := s.conc c
  let pl := cs.place shadow unit
  let s := s.uncorrectableRead (pgDINTG c) (cs.unitRegion shadow unit)
  if cs.isPoison shadow unit then s
  else
    if s.flag (pgDRAM c) Reg.DRAM.CTRL_FREEZE_UE then
      let (x, s) := s.draw
      s.freeze c { cause := 2, cmd := 1, cls := cls, chan := pl.1, bank := bankOf pl.2, row := rowOf pl.2,
                   unit := pageUnit pl.2 unit, synd := x }
    else
      (((s.setConc c ((s.conc c).poisonU shadow unit)).poisoned (pgDINTG c)).bump (pgDRAM c) Reg.DRAM.UE_POISON_CNT 5).event
        (pgDRAM c) 4

/-- A demand read as its decoder delivers it (R309, R321). -/
def State.demandRead (s : State) (c : Conc) (shadow : Bool) (unit cls : Nat) (read : EccRead) : State :=
  let s := s.setConc c ((s.conc c).openPage shadow unit)
  match read with
  | .clean => s
  | .corrected bit _ => s.correctedRead (pgDINTG c) ((s.conc c).unitRegion shadow unit) unit bit
  | .uncorrectable => s.demandError c shadow unit cls

/-- The unit at a place of a channel is poisoned. -/
def ConcSt.poisonAt (cs : ConcSt) (chan bank row unit : Nat) : Bool :=
  cs.poison.contains (physKey chan (row * 128 + unit / 8 * 16 + bank) unit)

/-- DRAM_FREEZE: a command/address parity error, or the uncorrectable demand read of R309 while FREEZE_UE is 1; one of a unit
already poisoned never freezes. -/
def State.dramFreeze (s : State) (c : Conc) (parity : Bool) (cmd cls chan bank row unit synd : Nat) : State :=
  if parity then
    s.freeze c { cause := 1, cmd := cmd, cls := cls, chan := chan, bank := bank, row := row, unit := unit, synd := 0 }
  else if s.flag (pgDRAM c) Reg.DRAM.CTRL_FREEZE_UE && !(s.conc c).poisonAt chan bank row unit then
    (if s.dramFrozen c then s else s.uncorrectableRead (pgDINTG c) (8 + chan)).freeze c
      { cause := 2, cmd := cmd, cls := cls, chan := chan, bank := bank, row := row, unit := unit, synd := synd }
  else s

/-- Units of a group read one after another, as their decoders deliver them, until one freezes the controller. -/
def State.readUnits (s : State) (c : Conc) (shadow : Bool) (cls : Nat) (reads : Reads) (units : List Nat) : State :=
  s.each units (fun s u => if s.dramFrozen c then s else s.demandRead c shadow u cls (reads.at_ u))

/-- A read of a replay directory unit (R290): copy 0, and copy 1 where copy 0 cannot be read. Copy 0 that fails while copy 1 is
good is counted and poisoned (DESIGN CHOICE, log 51); a failure in both copies is an uncorrectable demand read (R309). -/
def State.dirRead (s : State) (c : Conc) (dir cls : Nat) (reads : Reads) : State :=
  let cs := s.conc c
  let copy := replayDirCopy + dir
  if cs.isPoison false dir then s.demandRead c false copy cls (reads.at_ copy)
  else if reads.at_ dir = .uncorrectable then
    (if cs.isPoison false copy then s.demandRead c false dir cls .uncorrectable
     else
      let s := (s.setConc c (cs.openPage false dir)).uncorrectableRead (pgDINTG c) (cs.unitRegion false dir)
      ((s.setConc c ((s.conc c).poisonU false dir)).poisoned (pgDINTG c)).demandRead c false copy cls (reads.at_ copy))
  else s.demandRead c false dir cls (reads.at_ dir)

/-- A read of a sheaf of `n` units in the replay partition as its decoders deliver it: its directory entry, then its units
(R288, R290). -/
def State.sheafRead (s : State) (c : Conc) (frame pos n cls : Nat) (reads : Reads) : State :=
  (s.dirRead c (frame % 2 ^ 20 / 2) cls reads).readUnits c false cls reads
    ((List.range n).map (fun k => replayBase + (pos + k) % s.replayUnits c))

/-! ### Refresh (R301-R303) -/

/-- The postponement limit (R302). -/
def State.refreshLimit (s : State) (c : Conc) : Nat :=
  if s.flag (pgDRAM c) Reg.DRAM.STAT_HOT then s.fld (pgDRAM c) Reg.DRAM.REF_CTRL_HOT_POSTPONE
  else s.fld (pgDRAM c) Reg.DRAM.REF_CTRL_POSTPONE

/-- A bank's postponed count. -/
def DramSt.count (m : DramSt) (bank : Nat) : Nat := mapGetD 0 bank m.postponed
def DramSt.setCount (m : DramSt) (bank n : Nat) : DramSt := { m with postponed := mapPutD 0 bank n m.postponed }
/-- A refresh or the idle timer closes a bank's page (R296). -/
def DramSt.closePage (m : DramSt) (bank : Nat) : DramSt := { m with openRows := mapDel bank m.openRows }

def State.setMc (s : State) (c : Conc) (m : DramSt) : State := s.setConc c { s.conc c with mc := m }

/-- A channel belongs to a group's live channels. -/
def ConcSt.isLive (cs : ConcSt) (chan : Nat) : Bool := (cs.liveChans (decide (10 ≤ chan))).contains chan

/-- REFRESH_DUE: a bank's refresh falls due (R302); one that would pass the limit is issued refresh-urgent. A frozen
controller issues it at once (R310). -/
def State.refreshDue (s : State) (c : Conc) (chan bank : Nat) : State :=
  let m := (s.conc c).mc
  let b := chan * 16 + bank
  if !(s.conc c).isLive chan || s.dramBusy c then s
  else if s.dramFrozen c then s.setMc c (m.closePage b)
  else if m.count b < s.refreshLimit c then s.setMc c (m.setCount b (m.count b + 1))
  else (s.setMc c (m.closePage b)).bump (pgDRAM c) Reg.DRAM.REF_URGENT_CNT 1

/-- POSTPONED_REFRESH: a postponed refresh is issued in an idle moment of its bank (R302). -/
def State.postponedRefresh (s : State) (c : Conc) (chan bank : Nat) : State :=
  let m := (s.conc c).mc
  let b := chan * 16 + bank
  if 0 < m.count b ∧ (s.conc c).isLive chan ∧ ¬ s.dramFrozen c ∧ ¬ s.dramBusy c then s.setMc c ((m.closePage b).setCount b (m.count b - 1)) else s

/-- PAGE_IDLE_CLOSE: a bank idle for PAGE_IDLE × 4 ns is closed; 0 disables the timer (R296). A frozen controller and a retired
channel take no such command (R308, R310). -/
def State.pageIdleClose (s : State) (c : Conc) (chan bank : Nat) : State :=
  if s.fld (pgDRAM c) Reg.DRAM.CTRL_PAGE_IDLE = 0 ∨ s.dramFrozen c ∨ s.dramBusy c ∨ ¬ (s.conc c).isLive chan then s
  else s.setMc c ((s.conc c).mc.closePage (chan * 16 + bank))

/-- The excess of every bank over a limit (R303). -/
def DramSt.excess (m : DramSt) (lim : Nat) : Nat := (m.postponed.map (fun e => e.2 - lim)).sum
/-- The excess is issued: those banks' pages close (R296). -/
def DramSt.cap (m : DramSt) (lim : Nat) : DramSt :=
  { m with openRows := m.openRows.filter (fun e => decide (m.count e.1 ≤ lim)), postponed := (m.postponed.map (fun e => (e.1, min e.2 lim))).filter (fun e => e.2 != 0) }

/-- The stack turns hot (R303): the excess over HOT_POSTPONE is issued refresh-urgent at once. -/
def State.turnHot (s : State) (c : Conc) : State :=
  let lim := s.fld (pgDRAM c) Reg.DRAM.REF_CTRL_HOT_POSTPONE
  let n := (s.conc c).mc.excess lim
  ((((s.setMc c ((s.conc c).mc.cap lim)).putB (pgDRAM c) Reg.DRAM.STAT_HOT true).event (pgDRAM c) 1).bump (pgDRAM c)
    Reg.DRAM.HOT_CNT 2).bump (pgDRAM c) Reg.DRAM.REF_URGENT_CNT 1 n

/-- The temperature sampled last, in quarters of a degree, against the thresholds (R301). -/
def State.applyTemp (s : State) (c : Conc) : State :=
  let t := signedOf 10 (s.stored (pgDRAM c) Reg.DRAM.TEMP_TEMP)
  let hot := s.flag (pgDRAM c) Reg.DRAM.STAT_HOT
  if !hot && decide ((4 * s.fld (pgDRAM c) Reg.DRAM.REF_CTRL_HOT_C : Nat) ≤ t) then s.turnHot c
  else if hot && decide (t < (4 * s.fld (pgDRAM c) Reg.DRAM.REF_CTRL_COOL_C : Nat)) then
    (s.putB (pgDRAM c) Reg.DRAM.STAT_HOT false).event (pgDRAM c) 2
  else s

/-- TEMP_SAMPLE: the die temperature in quarters of a degree (R301, R303); during a frequency change it is applied at
the change's end (R313), but at once by a frozen controller, whose change is suspended (R310). -/
def State.tempSample (s : State) (c : Conc) (temp : Int) : State :=
  let s := s.put (pgDRAM c) Reg.DRAM.TEMP_TEMP (unsignedOf 10 temp)
  if s.dramBusy c && !s.dramFrozen c then s else s.applyTemp c

/-! ### Frequency points (R297, R298) -/

/-- MT/s at a point. -/
def pointRate (p : Nat) : Nat := if p = 0 then 6400 else if p = 1 then 4000 else 2000
/-- Bytes a group can carry in a window of 100 µs at a point (R298). -/
def State.windowBytes (s : State) (c : Conc) (shadow : Bool) (p : Nat) : Nat :=
  ((s.conc c).liveChans shadow).length * 8 * pointRate p * 100

/-- The present point. -/
def State.point (s : State) (c : Conc) : Nat := s.stored (pgDRAM c) Reg.DRAM.STAT_FREQ

/-- A channel is due for retraining (R305). -/
def State.retrainIsDue (s : State) (c : Conc) (chan : Nat) : Bool :=
  let x := mapGetD ((0, 0) : Nat × Int) chan (s.conc c).mc.trained
  let ms := s.fld (pgDTRAIN c) Reg.DTRAIN.TR_CTRL_RETRAIN_MS
  let t := signedOf 10 (s.stored (pgDRAM c) Reg.DRAM.TEMP_TEMP)
  (decide (ms ≠ 0) && decide (x.1 + ms * msTref ≤ s.now)) ||
    decide (4 * s.fld (pgDTRAIN c) Reg.DTRAIN.TR_CTRL_TEMP_STEP ≤ (t - x.2).natAbs)

/-- The live channels of both groups. -/
def ConcSt.allLive (cs : ConcSt) : List Nat := cs.liveChans false ++ cs.liveChans true

/-- A retraining is pending. -/
def State.retrainPending (s : State) (c : Conc) : Bool := (s.conc c).allLive.any (s.retrainIsDue c)

/-- A change to a point begins, unless the controller is frozen or changing; while a retraining is pending it waits (R297,
R313). TRAIN_STAT.BUSY reads 1 throughout, step 4 being a training (DESIGN CHOICE, log 66). -/
def State.startChange (s : State) (c : Conc) (p : Nat) : State :=
  if s.dramFrozen c || s.dramBusy c || s.point c == p then s
  else if s.retrainPending c then s.setMc c { (s.conc c).mc with waits := some p }
  else ((s.setMc c { (s.conc c).mc with target := p, openRows := [], lowWindows := 0, waits := none }).putB (pgDRAM c)
    Reg.DRAM.STAT_CHANGING true).putB (pgDTRAIN c) Reg.DTRAIN.TRAIN_STAT_BUSY true

/-- DEMAND_WINDOW: at the end of a window with the bytes requested in each group (R298). -/
def State.demandWindow (s : State) (c : Conc) (rb sb : Nat) : State :=
  let p := s.point c
  let m := (s.conc c).mc
  if s.fld (pgDRAM c) Reg.DRAM.CTRL_FREQ_PIN ≠ 0 ∨ s.dramFrozen c ∨ s.dramBusy c then s.setMc c { m with lowWindows := 0 }
  else if p ≠ 0 ∧ (s.windowBytes c false p < 2 * rb ∨ s.windowBytes c true p < 2 * sb) then s.startChange c 0
  else if p < 2 ∧ 4 * rb < s.windowBytes c false (p + 1) ∧ 4 * sb < s.windowBytes c true (p + 1) then
    (if 10 * s.fld (pgDRAM c) Reg.DRAM.CTRL_DOWN_MS ≤ m.lowWindows + 1 then s.startChange c (p + 1)
     else s.setMc c { m with lowWindows := m.lowWindows + 1 })
  else s.setMc c { m with lowWindows := 0 }

/-- A pinned point is taken, and automatic choice stops (R298): no change that it chose still waits, and no window counts. -/
def State.pinPoint (s : State) (c : Conc) : State :=
  let pin := s.fld (pgDRAM c) Reg.DRAM.CTRL_FREQ_PIN
  if pin = 0 then s
  else (s.setMc c { (s.conc c).mc with waits := none, lowWindows := 0 }).startChange c (pin - 1)

/-- The settings of a channel (R316). -/
def State.setTrain (s : State) (c : Conc) (chan v : Nat) : State :=
  let p := pgDTRAIN c
  ((s.put p (Reg.DTRAIN.CH_TRAIN_RD_DLY.nth chan) (bitsOf 23 16 v)).put p (Reg.DTRAIN.CH_TRAIN_WR_DLY.nth chan)
    (bitsOf 15 8 v)).put p (Reg.DTRAIN.CH_TRAIN_VREF.nth chan) (bitsOf 7 0 v)

/-- A training of a channel is over: its time and temperature are kept (R305) and it counts. -/
def State.trained (s : State) (c : Conc) (chan : Nat) : State :=
  let t := signedOf 10 (s.stored (pgDRAM c) Reg.DRAM.TEMP_TEMP)
  ((s.setMc c { (s.conc c).mc with trained := mapPut chan (s.now, t) (s.conc c).mc.trained }).put (pgDTRAIN c)
    Reg.DTRAIN.TRAIN_STAT_CHAN chan).bump (pgDTRAIN c) Reg.DTRAIN.TRAIN_CNT 0

/-- A channel takes the settings `v` found at a point, which are stored (R304). -/
def State.setPoint (s : State) (c : Conc) (p chan v : Nat) : State :=
  (s.setMc c { (s.conc c).mc with settings := mapPut (p * 16 + chan) v (s.conc c).mc.settings }).setTrain c chan v

/-- The timing set of a point, as DTRAIN holds it (R297, R316). -/
def tsetReg (p : Nat) : FieldRef := if p = 0 then Reg.DTRAIN.TSET_F0 else if p = 1 then Reg.DTRAIN.TSET_F1 else Reg.DTRAIN.TSET_F2
def State.timingSet (s : State) (c : Conc) (p : Nat) : List Word :=
  (List.range 16).map (fun i => s.live (pgDTRAIN c) ((tsetReg p).nth i).off)

/-- DEGRADED of a channel, in both places (R316). -/
def State.setDegraded (s : State) (c : Conc) (chan : Nat) (b : Bool) : State :=
  (s.putB (pgDTRAIN c) (Reg.DTRAIN.CH_TRAIN_DEGRADED.nth chan) b).putB (pgDTRAIN c)
    ⟨Reg.DTRAIN.TRAIN_STAT.off, chan, chan⟩ b

/-- A training of a channel that finds no passing setting (R305): it is degraded. -/
def State.trainFailed (s : State) (c : Conc) (chan : Nat) : State :=
  (((s.setDegraded c chan true).event (pgDTRAIN c) 0).bump (pgDTRAIN c) Reg.DTRAIN.TRAIN_FAIL_CNT 1).trained c chan

/-- Full training of every live channel at a point, whose timing set is loaded (R297, R304). The settings found are free, and so is
whether there is a passing one (bit 24 of what is drawn): where there is none, the channel takes the settings that it has stored
for the point and is degraded, as after a retraining (DESIGN CHOICE, log 66). -/
def State.trainAll (s : State) (c : Conc) (p : Nat) : State :=
  (s.setMc c { (s.conc c).mc with timing := s.timingSet c p }).each (s.conc c).allLive (fun s k =>
    let (v, s) := s.draw
    if v.testBit 24 then (s.setTrain c k (mapGetD 0 (p * 16 + k) (s.conc c).mc.settings)).trainFailed c k
    else (s.setPoint c p k (v % 2 ^ 24)).trained c k)

/-- The training of a start, at F2, F1 and F0 (R304); the stack starts at F0 (R298). -/
def State.trainStart (s : State) (c : Conc) : State :=
  ([2, 1, 0].foldl (fun s p => s.trainAll c p) s).put (pgDRAM c) Reg.DRAM.STAT_FREQ 0

/-- A unit leaves a write buffer for its group, as the buffer's decoder delivers it: one that cannot be read is written as poison
(R300, R328). -/
def State.bufferedUnit (s : State) (c : Conc) (shadow : Bool) (unit place : Nat) (read : EccRead) : State :=
  let s := (s.setConc c ((s.conc c).openPage shadow unit)).countRead (pgDINTG c) 5 place read
  if read = .uncorrectable then (s.setConc c ((s.conc c).poisonU shadow unit)).poisoned (pgDINTG c) else s

/-- The writes that waited are issued in their order. -/
def State.issueBuffered (s : State) (c : Conc) (reads : Reads) : State :=
  let w := (s.conc c).mc.buffered
  ((s.setMc c { (s.conc c).mc with buffered := [] }).each (List.range w.length) (fun s i =>
    let x := w.getD i (false, 0)
    s.bufferedUnit c x.1 x.2 i (reads.at_ i))).showWbuf c

/-- FREQ_CHANGE_DONE: step 5 of R297; the writes that waited are issued. A frozen controller has suspended the change (R310). -/
def State.freqChangeDone (s : State) (c : Conc) (reads : Reads) : State :=
  if s.dramBusy c && !s.dramFrozen c then
    let m := (s.conc c).mc
    let s := (s.put (pgDRAM c) Reg.DRAM.STAT_FREQ m.target).putB (pgDRAM c) Reg.DRAM.STAT_CHANGING false
    let s := (s.setMc c { m with postponed := [] }).putB (pgDTRAIN c) Reg.DTRAIN.TRAIN_STAT_BUSY false
    let s := (s.bump (pgDRAM c) Reg.DRAM.FREQ_CNT 0).event (pgDRAM c) 3
    (((s.trainAll c m.target).issueBuffered c reads).applyTemp c).pinPoint c
  else s

/-! ### Retraining and retirement (R305-R308) -/

/-- The result of a retraining: the setting found, or none that passes (R305). -/
def State.retrained (s : State) (c : Conc) (chan : Nat) (setting : Option (BitVec 24)) : State :=
  match setting with
  | some v => ((s.setPoint c (s.point c) chan v.toNat).setDegraded c chan false).trained c chan
  | none => s.trainFailed c chan

/-- A change that waited for a retraining begins once none is pending (R297, R313). -/
def State.waitedChange (s : State) (c : Conc) : State :=
  match (s.conc c).mc.waits with
  | some p => s.startChange c p
  | none => s

/-- RETRAIN_DUE: the channel is retrained; a change that waited for it follows. -/
def State.retrainDue (s : State) (c : Conc) (chan : Nat) (setting : Option (BitVec 24)) : State :=
  if (s.conc c).isLive chan && !s.dramFrozen c && !s.dramBusy c && s.retrainIsDue c chan then
    (s.retrained c chan setting).waitedChange c
  else s

/-- The condition of R306. -/
def State.mustRetire (s : State) (c : Conc) (chan : Nat) : Bool :=
  s.flag (pgDTRAIN c) Reg.DTRAIN.TR_CTRL_RETIRE_EN && s.flag (pgDTRAIN c) (Reg.DTRAIN.CH_TRAIN_DEGRADED.nth chan) &&
    s.bucketPassed (pgDINTG c) (8 + chan) && (s.conc c).isLive chan

/-- RETIRED, CH_TRAIN.RETIRED and the caps report the retirements on record (R306, R308). -/
def State.showRetired (s : State) (c : Conc) : State :=
  let cs := s.conc c
  let p := pgDRAM c
  let s := match cs.retR with
    | some k => (((s.putB p Reg.DRAM.RETIRED_R_RET true).put p Reg.DRAM.RETIRED_R_CHAN k).putB (pgDTRAIN c)
        (Reg.DTRAIN.CH_TRAIN_RETIRED.nth k) true).put p Reg.DRAM.REPLAY_CAP_MIB 0x35E0
    | none => s
  match cs.retS with
  | some k => (((s.putB p Reg.DRAM.RETIRED_S_RET true).put p Reg.DRAM.RETIRED_S_CHAN k).putB (pgDTRAIN c)
      (Reg.DTRAIN.CH_TRAIN_RETIRED.nth k) true).put p Reg.DRAM.SHADOW_CAP_MIB 0x1DF0
  | none => s

/-- Sheaves formed and not sent are passed over (R307, R501). -/
def State.skipUnsent (s : State) (c : Conc) (n : Nat) : State := s.bump (pgDRAM c) Reg.DRAM.RETIRE_SKIP_CNT 6 n

/-- Nothing before the sheaf of frame f is held any more (R289, R306, R277): REPLAY_VALID and REPLAY_OLDEST. -/
def State.showReplayFrom (s : State) (c : Conc) (f : Nat) : State :=
  (s.put (pgDRAM c) Reg.DRAM.REPLAY_VALID (sheafOf f)).put (pgDRAM c) Reg.DRAM.REPLAY_OLDEST (sheafOf f)
/-- The same of the shadow ring (R293). -/
def State.showShadowFrom (s : State) (c : Conc) (f : Nat) : State :=
  (s.put (pgDRAM c) Reg.DRAM.SHADOW_VALID (sheafOf f)).put (pgDRAM c) Reg.DRAM.SHADOW_OLDEST (sheafOf f)

/-- At a retirement in the replay group the output continues with the sheaf of the boundary (R307). -/
def State.skipToBoundary (s : State) (c : Conc) : State :=
  let cs := s.conc c
  let s := s.skipUnsent c (cs.nextForm - cs.oldestUnsent)
  let s := s.setConc c { cs with sendNext := s.frame, stream := none, queue := [], unsent := 0, validR := s.frame }
  ((s.showReplayFrom c s.frame).modeReturn c).showBacklog c

/-- A retired channel takes no command (R308): nothing of it waits. -/
def DramSt.drop (m : DramSt) (chan : Nat) : DramSt :=
  { m with postponed := m.postponed.filter (fun e => e.1 / 16 != chan), openRows := m.openRows.filter (fun e => e.1 / 16 != chan),
           trained := mapDel chan m.trained }

/-- A channel is retired at the boundary that began the frame in progress (R306). -/
def State.retire (s : State) (c : Conc) (chan : Nat) : State :=
  let s := s.setMc c ((s.conc c).mc.drop chan)
  let cs := s.conc c
  if chan < 10 then
    ((((s.setConc c { cs with retR := some chan }).showRetired c).skipToBoundary c).abortScrubOf c 1).event (pgDTRAIN c) 1
  else
    ((((s.setConc c { cs with retS := some chan, validS := s.frame }).showRetired c).showShadowFrom c s.frame).abortScrubOf c
      2).event (pgDTRAIN c) 1

/-- The group of a channel already holds a retired one. -/
def ConcSt.groupRetired (cs : ConcSt) (chan : Nat) : Bool := if chan < 10 then cs.retR.isSome else cs.retS.isSome

/-- A retirement decided: denied where the group holds a retired channel (R306). -/
def State.retireOrDeny (s : State) (c : Conc) (chan : Nat) : State :=
  if (s.conc c).groupRetired chan then s.event (pgDTRAIN c) 2 else s.retire c chan

/-- CHANNEL_RETIRE: at a frame boundary; while frozen, kept for the release (R306, R311). -/
def State.channelRetire (s : State) (c : Conc) (chan : Nat) : State :=
  let m := (s.conc c).mc
  if s.mustRetire c chan then
    (if s.dramFrozen c then
      s.setMc c { m with retireDue := if m.retireDue.contains chan then m.retireDue else m.retireDue ++ [chan] }
     else s.retireOrDeny c chan)
  else s

/-- A release takes effect at a boundary (R311): pending retirements first, then FROZEN clears and the concentrator
rejoins (R277). One that reaches a controller that is not frozen is ignored. -/
def State.releaseFreeze (s : State) (c : Conc) : State :=
  if s.dramFrozen c then
    let s := s.each (s.conc c).mc.retireDue (fun s k => s.retireOrDeny c k)
    let s := ((s.putB (pgDRAM c) Reg.DRAM.STAT_FROZEN false).putB (pgDRAM c) Reg.DRAM.STAT_CHANGING false).putB (pgDTRAIN c)
      Reg.DTRAIN.TRAIN_STAT_BUSY false
    (s.setConc c { s.conc c with run := .loading, loaded := false, mc := { (s.conc c).mc with retireDue := [] } }).checkSwap
  else s

/-! ### Host access (R312) -/

/-- A write of 1 to HOST_CTRL.READ (R312): ignored while a read is in progress. -/
def State.startHostRead (s : State) (c : Conc) : State :=
  if s.flag (pgDRAM c) Reg.DRAM.HOST_CTRL_BUSY then s
  else (s.setConc c { s.conc c with host := some { shadow := s.flag (pgDRAM c) Reg.DRAM.HOST_ADDR_GROUP,
                                                   unit := s.stored (pgDRAM c) Reg.DRAM.HOST_ADDR_UNIT, since := s.now } }).putB
    (pgDRAM c) Reg.DRAM.HOST_CTRL_BUSY true

/-- HOST_DATA and POISON of a host read that is complete (R312). -/
def State.hostResult (s : State) (c : Conc) (poison : Bool) (v : BitVec 256) : State :=
  let s := s.each (List.range 8) (fun s w =>
    s.put (pgDRAM c) (Reg.DRAM.HOST_DATA.nth w) (if poison then 0 else v.toNat / 2 ^ (32 * (7 - w))))
  (s.putB (pgDRAM c) Reg.DRAM.HOST_CTRL_POISON poison).putB (pgDRAM c) Reg.DRAM.HOST_CTRL_BUSY false

/-- The unit read by the host, as its decoder delivers it: an uncorrectable one is poisoned (R309, R312), a poisoned one that an
upset has struck too (R329). -/
def State.hostUnit (s : State) (c : Conc) (h : HostRead) (read : EccRead) : State :=
  let cs := (s.conc c).openPage h.shadow h.unit
  let s := s.setConc c cs
  let r := cs.unitRegion h.shadow h.unit
  if read = .uncorrectable then
    ((((s.uncorrectableRead (pgDINTG c) r).setConc c (cs.poisonU h.shadow h.unit)).poisoned (pgDINTG c)).bump (pgDRAM c)
      Reg.DRAM.UE_POISON_CNT 5).hostResult c true 0
  else if cs.isPoison h.shadow h.unit then s.hostResult c true 0
  else (s.countRead (pgDINTG c) r h.unit read).hostResult c false (cs.getU h.shadow h.unit)

/-- HOST_READ_DONE: the read completes once it is next in its group; not while the controller is frozen (R313) or changing. What a
unit outside the group's address space reads as is free. -/
def State.hostReadDone (s : State) (c : Conc) (read : EccRead) : State :=
  match (s.conc c).host with
  | some h =>
    if s.dramFrozen c || s.dramBusy c || !s.servesNow c h.shadow .host then s
    else
      let s := (s.setConc c { s.conc c with host := none }).served c .host
      if h.unit < s.groupUnits c h.shadow then s.hostUnit c h read
      else
        let (v, s) := s.draw
        s.hostResult c false (BitVec.ofNat 256 v)
  | none => s

end Sys2Proof.Machine
end

