-- ==== Sys2Proof/Machine/Trig.lean ====
section
/-!
DEFINITION. Trigger pins and timed triggers (R173-R178), gates and gate marks (R179-R182), and the delivery of
triggers, marks, glean and re-send requests to the concentrators (R176, R189, R193).
-/

namespace Sys2Proof.Machine

/-! ### Conversion of command times (R234) -/

/-- A time in ticks of the active domain as module time with the SPLICE now in force, rounded down to a multiple of `unit`
ticks. -/
def State.toModule (s : State) (t unit : Int) : Int := (t * 2 ^ 20 - s.spliceNow) / (2 ^ 20 * unit) * unit

/-- The time in T_ref of the active domain that a command's coarse count names: the nearest to its present time. -/
def State.domainTref (s : State) (coarse : Nat) : Int := trefOfCoarse ((s.now : Int) + s.spliceNow / trefUnits) coarse

/-! ### Trigger pins (R173) -/

/-- PIN_OFS[p] (R197). -/
def State.pinOfs (s : State) (p : Nat) : Int := signedOf 20 (s.fld pgTRIG (Reg.TRIG.PIN_OFS_OFS.nth p))
/-- A stamp with the pin's offset added. -/
def State.stamped (s : State) (p stamp : Nat) : Nat := ((stamp : Int) + s.pinOfs p).toNat

def State.trigEnabled (s : State) : Pin → Bool
  | .a => s.flag pgTRIG Reg.TRIG.TRIG_CTRL_A_EN
  | .b => s.flag pgTRIG Reg.TRIG.TRIG_CTRL_B_EN
/-- The polarity field: 0 rising, 1 falling. -/
def State.trigFalling (s : State) : Pin → Bool
  | .a => s.flag pgTRIG Reg.TRIG.TRIG_CTRL_A_EDGE
  | .b => s.flag pgTRIG Reg.TRIG.TRIG_CTRL_B_EDGE
def TrigSt.last (t : TrigSt) : Pin → Option Nat | .a => t.lastA | .b => t.lastB
def TrigSt.accept (t : TrigSt) (p : Pin) (raw time : Nat) : TrigSt :=
  match p with
  | .a => { t with lastA := some raw, pins := t.pins ++ [(0, time)] }
  | .b => { t with lastB := some raw, pins := t.pins ++ [(1, time)] }

/-- TRIG_PIN_EDGE: an edge of the selected polarity on an enabled pin is a trigger, unless it follows the pin's last
accepted edge by less than 32 T_ref. `stamp` is in ticks of module time. -/
def State.trigPinEdge (s : State) (p : Pin) (rising : Bool) (stamp : Nat) : State :=
  if s.trigEnabled p && (rising != s.trigFalling p) then
    let s := s.advance (stamp / 4096)
    match s.trig.last p with
    | some l => if stamp < l + 32 * 4096 then s.bump pgTRIG Reg.TRIG.CLOSE_CNT 3
                else { s with trig := s.trig.accept p stamp (s.stamped p.idx stamp) }
    | none => { s with trig := s.trig.accept p stamp (s.stamped p.idx stamp) }
  else s

/-! ### Timed triggers (R175) -/

/-- The PATH with the nibbles below LEVEL cleared (R187). -/
def maskPath (level path : Nat) : Nat := path / 16 ^ level * 16 ^ level

/-- A refused timed trigger (R175, R198). -/
def State.refuseTrigger (s : State) : State := (s.bump pgTRIG Reg.TRIG.TCMD_REJ_CNT 5).event pgTRIG 1

/-- R175: whether a timed trigger is accepted, and the state after. -/
def State.timedTrigger (s : State) (coarse fine : Nat) (g : Bool) (level pre post path : Nat) : Bool × State :=
  let t := s.domainTref coarse * 4096 + (fine : Int)
  let m := s.toModule t 1 / 4096
  let start : Int := (s.frame * frameTref : Nat)
  if start ≤ m ∧ m ≤ start + 640000000 ∧ level ≤ 4 ∧ pre ≤ 640000 ∧ post ≤ 640000 ∧
      s.trig.timed.length < 16 then
    (true, { s with trig := { s.trig with timed := s.trig.timed ++
      [{ time := t, glean := g, level := level, pre := pre, post := post, path := maskPath level path }] } })
  else (false, s.refuseTrigger)

/-- The pending timed triggers at the boundary that begins frame f (R175): those of the frame just ended are due,
those of an earlier frame are refused. -/
def State.convertTimed (s : State) (f : Nat) : State :=
  let at_ (x : TimedTrig) : Int := s.toModule x.time 1
  let fr (x : TimedTrig) : Int := at_ x / (4096 * 4096)
  let due := s.trig.timed.filter (fun x => decide (fr x + 1 = (f : Int)))
  let lost := s.trig.timed.filter (fun x => decide (fr x + 1 < (f : Int)))
  let s := { s with trig := { s.trig with
    timed := s.trig.timed.filter (fun x => decide ((f : Int) ≤ fr x)),
    due := s.trig.due ++ due.map (fun x => ((at_ x).toNat, x)) } }
  s.each lost (fun s _ => s.refuseTrigger)

/-! ### Gates (R179-R182) -/

def TrigSt.gate (t : TrigSt) : Pin → GatePin | .a => t.gateA | .b => t.gateB
def TrigSt.setGate (t : TrigSt) (p : Pin) (g : GatePin) : TrigSt :=
  match p with | .a => { t with gateA := g } | .b => { t with gateB := g }

/-- A level means open unless the pin's POL field inverts it (R179). -/
def State.gatePol (s : State) : Pin → Bool
  | .a => s.flag pgTRIG Reg.TRIG.GATE_CTRL_A_POL
  | .b => s.flag pgTRIG Reg.TRIG.GATE_CTRL_B_POL
def State.gateMarked (s : State) : Pin → Bool
  | .a => s.flag pgTRIG Reg.TRIG.GATE_CTRL_MARK_A
  | .b => s.flag pgTRIG Reg.TRIG.GATE_CTRL_MARK_B
def gateOpenReg : Pin → FieldRef | .a => Reg.TRIG.GATE_STATUS_A_OPEN | .b => Reg.TRIG.GATE_STATUS_B_OPEN

/-- AFE.GATE_DELAY of a tile in taps; below 96 T_ref it acts as 96 T_ref (R34). -/
def State.gateDelay (s : State) (t : Fin 16) : Nat :=
  let c := s.fld (pgAFE t) Reg.AFE.GATE_DELAY_COARSE
  if c < 96 then 96 * 64 else c * 64 + s.fld (pgAFE t) Reg.AFE.GATE_DELAY_TAP

/-- A gate pin edge stamped at `time` ticks: status, marks, and delivery to every tile with its delay (R34, R180,
R182). -/
def State.gateEdge (s : State) (p : Pin) (isOpen : Bool) (time : Nat) : State :=
  let s := s.putB pgTRIG (gateOpenReg p) isOpen
  let s := if s.gateMarked p then
      { s with trig := { s.trig with marks := s.trig.marks ++ [{ source := p.idx, isOpen := isOpen, time := time }] } }
    else s
  s.each allTiles (fun s t => s.setTile t { s.tile t with
    gateNext := insertGate { src := 1 + p.idx, tap := time / 64 + s.gateDelay t, isOpen := isOpen } (s.tile t).gateNext })

/-- GATE_PIN_CHANGE: the level on a gate pin changes. A change back before the new level was accepted is a pulse
shorter than MIN_T (R179). -/
def State.gatePinChange (s : State) (p : Pin) (high : Bool) (stamp : Nat) : State :=
  let g := s.trig.gate p
  if high = g.raw then s
  else
    let s := (s.advance (stamp / 4096))
    if g.since.isSome then
      ({ s with trig := s.trig.setGate p { g with raw := high, since := none } }).bump pgTRIG Reg.TRIG.GLITCH_CNT 6
    else { s with trig := s.trig.setGate p { g with raw := high, since := some stamp } }

/-- GATE_EDGE_ACCEPT: the new level has held for MIN_T at module time `at_` (R179). -/
def State.gateEdgeAccept (s : State) (p : Pin) (at_ : Nat) : State :=
  let g := s.trig.gate p
  match g.since with
  | some st =>
    if st + s.fld pgTRIG Reg.TRIG.GATE_CTRL_MIN_T * 4096 ≤ at_ * 4096 then
      (({ s with trig := s.trig.setGate p { g with level := g.raw, since := none } }).advance at_).gateEdge p
        (g.raw != s.gatePol p) (s.stamped (2 + p.idx) st)
    else s
  | none => s

/-- A change of A_POL or B_POL at the boundary that begins frame f (R179): where the pin's reading changes, it is an
accepted edge at the boundary, without PIN_OFS. -/
def State.gatePolChanged (s : State) (p : Pin) (f : Nat) : State :=
  let o := (s.trig.gate p).level != s.gatePol p
  if o != s.flag pgTRIG (gateOpenReg p) then s.gateEdge p o (f * frameTref * 4096) else s

/-- R181: whether a timed gate window is accepted, and the state after. Times are taps of the active domain. The close of the
last queued window is compared as it converts now, also where it was sent to the tiles with an earlier SPLICE (DESIGN CHOICE,
log 47). -/
def State.timedGate (s : State) (openC openT closeC closeT : Nat) : Bool × State :=
  let o := s.domainTref openC * 64 + (openT : Int)
  let c := s.domainTref closeC * 64 + (closeT : Int)
  let mo := s.toModule (o * 64) 64 / 64
  let mc := s.toModule (c * 64) 64 / 64
  let isAfter := match s.trig.windows.getLast? with
    | some w => decide (s.toModule (w.closes * 64) 64 / 64 < mo)
    | none => true
  if (((s.frame + 2) * frameTref * 64 : Nat) : Int) ≤ mo ∧ mo ≤ ((s.now : Int) + 640000000) * 64 ∧ mo + 1 ≤ mc ∧
      mc ≤ mo + 640000000 * 64 ∧
      isAfter = true ∧ s.trig.windows.length < 8 then
    (true, ({ s with trig := { s.trig with windows := s.trig.windows ++ [{ opens := o, closes := c, sent := none }] } } : State).put
      pgTRIG Reg.TRIG.GATE_STATUS_QUEUED (s.trig.windows.length + 1))
  else (false, (s.bump pgTRIG Reg.TRIG.GCMD_REJ_CNT 7).event pgTRIG 2)

/-- Sends a window's edges to every tile (R181); they are marked as they come (R182). -/
def State.sendWindow (s : State) (mo mc : Nat) : State :=
  let s := { s with trig := { s.trig with edges := s.trig.edges ++ [(mo, true), (mc, false)] } }
  s.each allTiles (fun s t => s.setTile t { s.tile t with
    gateNext := insertGate { src := 3, tap := mc, isOpen := false }
      (insertGate { src := 3, tap := mo, isOpen := true } (s.tile t).gateNext) })

/-- At a frame boundary the accepted windows not yet sent go to the tiles, converted with the SPLICE now in force
(R181, R234). -/
def State.sendWindows (s : State) : State :=
  let conv (w : GateWindow) : Nat × Nat :=
    ((s.toModule (w.opens * 64) 64 / 64).toNat, (s.toModule (w.closes * 64) 64 / 64).toNat)
  let new := (s.trig.windows.filter (fun (w : GateWindow) => w.sent.isNone)).map conv
  ({ s with trig := { s.trig with
    windows := s.trig.windows.map (fun (w : GateWindow) => if w.sent.isNone then { w with sent := some (conv w) } else w) } } : State).each new
      (fun s x => s.sendWindow x.1 x.2)

/-- At the boundary that begins frame f the opens and closes of the frame ended are marked, with MARK_TIMED as it was in force
in that frame (R182). -/
def State.markTimed (s : State) (f : Nat) : State :=
  let past (e : Nat × Bool) : Bool := decide (frameOfTap e.1 < f)
  let new := if s.flag pgTRIG Reg.TRIG.GATE_CTRL_MARK_TIMED then
      (s.trig.edges.filter past).map (fun e => ({ source := 2, isOpen := e.2, time := e.1 * 64 } : GateMark)) else []
  { s with trig := { s.trig with edges := s.trig.edges.filter (fun e => !past e), marks := s.trig.marks ++ new } }

/-- GATE_APPLY at a tile; the belfry's view of the timed windows follows the same edge: TIMED_OPEN, and a window
leaves the queue at its close time (R181). -/
def State.gateApplyCmd (s : State) (t : Fin 16) : State :=
  match (s.tile t).gateNext with
  | e :: _ =>
    let s := s.gateApply t
    if e.src = 3 then
      let ws := if e.isOpen then s.trig.windows else s.trig.windows.filter (fun w =>
        match w.sent with | some x => x.2 != e.tap | none => true)
      (({ s with trig := { s.trig with windows := ws } }).put pgTRIG Reg.TRIG.GATE_STATUS_QUEUED ws.length).putB pgTRIG
        Reg.TRIG.GATE_STATUS_TIMED_OPEN e.isOpen
    else s
  | [] => s

/-! ### Delivery (R176-R178, R182, R189, R193) -/

/-- Insert into a list in order of time and then source, after equals (R176, R182). -/
def insertTrig (g : Trigger) : List Trigger → List Trigger
  | [] => [g]
  | h :: r => if g.time < h.time ∨ (g.time = h.time ∧ g.source < h.source) then g :: h :: r else h :: insertTrig g r

def insertMark (m : GateMark) : List GateMark → List GateMark
  | [] => [m]
  | h :: r => if m.time < h.time ∨ (m.time = h.time ∧ m.source < h.source) then m :: h :: r else h :: insertMark m r

/-- A pin trigger with the settings in force at its delivery (R178). -/
def State.pinTrigger (s : State) (src time : Nat) : Trigger :=
  let f (a b : FieldRef) : Nat := s.fld pgTRIG (if src = 0 then a else b)
  let level := f Reg.TRIG.A_REGION_LEVEL Reg.TRIG.B_REGION_LEVEL
  { num := 0, source := src, time := time,
    glean := f Reg.TRIG.TRIG_CTRL_A_GLEAN Reg.TRIG.TRIG_CTRL_B_GLEAN != 0, level := level,
    path := maskPath level (f Reg.TRIG.A_REGION_PATH Reg.TRIG.B_REGION_PATH),
    pre := f Reg.TRIG.A_PRE_T_REF Reg.TRIG.B_PRE_T_REF, post := f Reg.TRIG.A_POST_T_REF Reg.TRIG.B_POST_T_REF }

/-- Frame of a time in ticks. -/
def frameOfTicks (t : Nat) : Nat := frameOfTref (t / 4096)

/-- The triggers of frame n in the order of R176. DESIGN CHOICE (log 59): an edge before the first frame is kept and delivered
with the first frame's triggers; a gate mark likewise. -/
def State.trigsOf (s : State) (n : Nat) : List Trigger :=
  let pins := (s.trig.pins.filter (fun x => decide (frameOfTicks x.2 ≤ n))).map (fun x => s.pinTrigger x.1 x.2)
  let cmds := (s.trig.due.filter (fun x => decide (frameOfTicks x.1 = n))).map (fun x =>
    ({ num := 0, source := 2, time := x.1, glean := x.2.glean, level := x.2.level, path := x.2.path, pre := x.2.pre,
       post := x.2.post } : Trigger))
  (pins ++ cmds).foldl (fun l g => insertTrig g l) []

/-- Trigger numbers from `first`, wrapping at 2^24 (R177). -/
def numberTrigs : Nat → List Trigger → List Trigger
  | _, [] => []
  | k, g :: r => { g with num := k % 2 ^ 24 } :: numberTrigs (k + 1) r

/-- A concentrator takes one glean request (R189): refused in full with 64 outstanding or the engine disabled. -/
def State.requestGlean (s : State) (c : Conc) (g : Trigger) : State :=
  let cs := s.conc c
  let n := (cs.gleans.filter (fun x => !x.refused)).length
  let ok := s.flag (pgGLEAN c) Reg.GLEAN.GLEAN_CTRL_ENABLE && decide (n < 64)
  let s := s.setConc c { cs with gleans := cs.gleans ++
    [{ trig := g, refused := !ok, formed := false,
       nextFrame := ((g.time / 4096 : Nat) - (if ok then (g.pre : Int) else 0)) / 4096, part := 0, hits := 0,
       delivered := 0, overwritten := 0, accepted := s.frame, since := s.now }] }
  if ok then (s.put (pgGLEAN c) Reg.GLEAN.QUEUE_STAT_OUTSTANDING (n + 1)).peak (pgGLEAN c) Reg.GLEAN.QUEUE_STAT_PEAK (n + 1)
  else (s.bump (pgGLEAN c) Reg.GLEAN.REFUSED_CNT 1).event (pgGLEAN c) 0

/-- The T_ref after a boundary at which its delivery is made (R176). -/
def State.deliveryWait (s : State) : Nat :=
  let late (p : Nat) : Nat := (max 0 (-(s.pinOfs p))).toNat
  let up (n : Nat) : Nat := (n + 4095) / 4096
  let hold := s.fld pgTRIG Reg.TRIG.GATE_CTRL_MIN_T
  32 + max (max (up (late 0)) (up (late 1))) (hold + max (up (late 2)) (up (late 3)))

/-- TRIGGER_DELIVERY: at the moment of R176 the belfry numbers the triggers of the frame that has ended and delivers them, with its gate
marks, to both concentrators; at most 64 of each. The concentrators take the glean requests. -/
def State.deliver (s : State) : State :=
  let n := s.trig.nextFrame
  match mapFind n s.frames with
  | none => s
  | some i =>
    if s.frame ≤ n then s
    else
      let s := s.advance ((n + 1) * frameTref + s.deliveryWait)
      let all := s.trigsOf n
      let trigs := numberTrigs (s.stored pgTRIG Reg.TRIG.TRIG_NEXT_NUM) (all.take 64)
      let marks := (s.trig.marks.filter (fun m => decide (frameOfTicks m.time ≤ n))).foldl (fun l m => insertMark m l) []
      let nOver := all.length - 64
      let mover := marks.length - 64
      let count (src : Nat) : Nat := (trigs.filter (fun g => g.source == src)).length
      let s := { s with
        frames := mapPut n { i with delivered := true, triggers := trigs, marks := marks.take 64 } s.frames
        trig := { s.trig with
          nextFrame := n + 1, pins := s.trig.pins.filter (fun x => decide (n < frameOfTicks x.2)),
          due := s.trig.due.filter (fun x => decide (frameOfTicks x.1 ≠ n)),
          marks := s.trig.marks.filter (fun m => decide (n < frameOfTicks m.time)) } }
      let s := s.bumpWrap pgTRIG Reg.TRIG.TRIG_NEXT_NUM trigs.length
      let s := ((s.bump pgTRIG Reg.TRIG.A_CNT 0 (count 0)).bump pgTRIG Reg.TRIG.B_CNT 1 (count 1)).bump pgTRIG
        Reg.TRIG.CMD_CNT 2 (count 2)
      let s := (s.bump pgTRIG Reg.TRIG.OVER_CNT 4 nOver).eventIf (decide (0 < nOver)) pgTRIG 0
      let s := (s.bump pgTRIG Reg.TRIG.MARK_OVER_CNT 8 mover).eventIf (decide (0 < mover)) pgTRIG 3
      s.each (trigs.filter (·.glean)) (fun s g => s.each concs (fun s c =>
        if (s.conc c).merging then s.requestGlean c g else s))

/-! ### Re-send requests (R193) -/

/-- A re-send request accepted by the belfry; COUNT 0 means 65 536. -/
def State.requestResend (s : State) (first count : Nat) : State :=
  { s with trig := { s.trig with resends := s.trig.resends ++ [(first, if count = 0 then 65536 else count)] } }

/-- A concentrator queues a re-send request, or refuses it with 16 queued. The request being served stays in the queue, and
counts, until its last sheaf is taken (DESIGN CHOICE, log 48). -/
def State.queueResend (s : State) (c : Conc) (r : Nat × Nat) : State :=
  let cs := s.conc c
  if !cs.merging then s
  else if cs.resends.length < 16 then
    ((s.setConc c { cs with resends := cs.resends ++ [{ next := r.1, left := r.2, started := false, since := s.now }] }).put (pgGLEAN c)
      Reg.GLEAN.RESEND_STAT_QUEUED (cs.resends.length + 1))
  else (s.bump (pgGLEAN c) Reg.GLEAN.RESEND_REJ_CNT 4).event (pgGLEAN c) 2

/-- At a frame boundary the requests go to both concentrators. -/
def State.deliverResends (s : State) : State :=
  ({ s with trig := { s.trig with resends := [] } }).each s.trig.resends (fun s r => s.each concs (·.queueResend · r))

end Sys2Proof.Machine
end

