-- ==== Sys2Proof/Machine/Glean.lean ====
section
/-!
DEFINITION. Reading back: sheaves from the replay partition with the substitution of poisoned data (R160, R290), shadow
data through the frame directory (R291-R293), the glean engine (R187-R192, R171) and re-sends (R193, R194, R170).
-/

namespace Sys2Proof.Machine

/-! ### Replay read-back (R160, R289, R290) -/

/-- The metadata of the sheaf of a frame, where formed and kept. -/
def ConcSt.metaOf (c : ConcSt) (frame : Nat) : Option SheafMeta := c.metas.find? (fun m => m.frame == frame)

/-- A sheaf is held (R194, R289): formed, in the valid part, its units and its directory entry not overwritten. -/
def State.held (s : State) (c : Conc) (frame : Nat) : Bool :=
  let cs := s.conc c
  decide (frame < cs.nextForm) && decide (cs.nextForm ≤ frame + 2 ^ 20) && decide (cs.validR ≤ frame) &&
    (match cs.metaOf frame with | some m => decide (cs.wpos ≤ m.pos + s.replayUnits c) | none => false)

/-- The units of a sheaf that are poisoned, by their index within it. -/
def ConcSt.badUnits (c : ConcSt) (size pos n : Nat) : List Nat :=
  (List.range n).filter (fun k => c.isPoison false (ringUnit size (pos + k)))

/-- The bytes of n units from a ring position on. -/
def ConcSt.ringBytes (c : ConcSt) (size pos n : Nat) : List Byte :=
  (List.range n).flatMap (fun k => toBytes 32 (c.getU false (ringUnit size (pos + k))).toNat)

/-- A substitute sheaf (R160, R311). -/
def substitute (frame unit : Nat) : List Byte :=
  sheafBytes
    { kind := 1, frame := frame, pealEpoch := 0, presence := 0, words := 1, domain := false, resume := false,
      dswitch := false, mixed := false, drop := false, poison := true, tq := 0, gleanTrig := 0, gleanPart := 0,
      records := 1 } [poisonWord 0 true unit] {}

/-- Body words of a sheaf whose units `bad` are poisoned: a word that overlaps one is replaced (R160). One that overlaps two names
the lower of them (DESIGN CHOICE, log 52). -/
def patchWords (unitAt : Nat → Nat) (bad : List Nat) : Nat → List (BitVec 56) → List (BitVec 56)
  | _, [] => []
  | j, w :: ws =>
    (match bad.find? (fun k => decide ((32 + 7 * j) / 32 ≤ k ∧ k ≤ (38 + 7 * j) / 32)) with
     | some k => poisonWord 0 false (unitAt k)
     | none => w) :: patchWords unitAt bad (j + 1) ws

/-- The 56-bit words of a byte string. -/
def bytes56 : Nat → List Byte → List (BitVec 56)
  | 0, _ => []
  | n + 1, l => BitVec.ofNat 56 (ofBytes (l.take 7)) :: bytes56 n (l.drop 7)

/-- A sheaf's bytes with poisoned units replaced (R160): the header takes POISON, and the CRC is computed anew. -/
def patchSheaf (raw : List Byte) (words : Nat) (unitAt : Nat → Nat) (bad : List Nat) : List Byte :=
  let head := toBytes 32 (Nat.lor (ofBytes (raw.take 32)) (2 ^ 82))
  let front := head ++ bodyBytes (patchWords unitAt bad 0 (bytes56 words (raw.drop 32)))
  front ++ ((raw.drop (32 + 7 * words)).take 12) ++ toBytes 4 (crc32c front).toNat

/-- The bytes of a held sheaf as read from the replay partition (R160, R170, R290). -/
def State.readSheaf (s : State) (c : Conc) (m : SheafMeta) : List Byte :=
  let cs := s.conc c
  let size := s.replayUnits c
  let dir := m.frame % 2 ^ 20 / 2
  let len := 48 + 7 * m.words
  let n := unitsOf len
  let raw := (cs.ringBytes size m.pos n).take len
  let bad := cs.badUnits size m.pos n
  if cs.isPoison false dir && cs.isPoison false (replayDirCopy + dir) then substitute m.frame dir
  else match bad with
    | [] => raw
    | k :: _ =>
      if bad.any (fun j => j == 0 || decide ((len - 16) / 32 ≤ j)) then substitute m.frame (ringUnit size (m.pos + k))
      else patchSheaf raw m.words (fun j => ringUnit size (m.pos + j)) bad

/-! ### Shadow data (R188, R291-R293) -/

/-- A channel lies in a region (R187). -/
def inRegion (level path chan : Nat) : Bool := chan / 16 ^ level == path / 16 ^ level
/-- A region includes channels of a tile. -/
def regionTile (level path : Nat) (t : Fin 16) : Bool := decide (4 ≤ level) || path / 4096 == t.val

/-- Bits of a tile's part of a frame directory entry (R292). -/
def State.dirOf (s : State) (c : Conc) (n : Nat) (t : Fin 16) : Nat :=
  let u := ((s.conc c).getU true (n % 65536 * 8 + t.val / 2)).toNat
  if t.val % 2 = 0 then u / 2 ^ 128 else u % 2 ^ 128

/-- Any of the eight units of a frame's directory entry is poisoned (R293). -/
def State.dirPoisoned (s : State) (c : Conc) (n : Nat) : Bool :=
  (List.range 8).any (fun k => (s.conc c).isPoison true (n % 65536 * 8 + k))

/-- Record i of an extent in the stack. -/
def ConcSt.extentRec (c : ConcSt) (base i : Nat) : BitVec 56 :=
  BitVec.ofNat 56 ((c.getU true (base + 1 + i / 4)).toNat / 2 ^ (200 - 56 * (i % 4)))

/-- A shadow record as a glean reads it: the index of its extent, the unit read for it (none where it comes from the on-die copy),
its place in the extent, and its word. -/
structure ShadowRec where
  extent : Nat
  unit : Option Nat
  place : Nat
  word : BitVec 56
  deriving DecidableEq, Repr

/-- Shadow records from record `i` of an extent on, `left` of them, through its successors (R291, R292); those in an unwritten
extent come from the on-die copy. A poisoned unit is one poisoned-span word
for the records it would have held (R160). Behind a poisoned header the extent is read as if it were full, and the header's own
word stands at its end (DESIGN CHOICE, log 52). -/
def ConcSt.readExtents (c : ConcSt) (onDie : Option Extent) (size : Nat) :
    Nat → Nat → Nat → Nat → List ShadowRec
  | 0, _, _, _ => []
  | fuel + 1, idx, i, left =>
    let base := shadowBase + idx * 64
    let head := (c.getU true base).toNat
    let bad := c.isPoison true base
    let count := if bad then 252 else bitsOf 203 196 head
    if left = 0 then []
    else if onDie.any (fun e => extentIndex size e.alloc == idx) then
      let l := ((onDie.map (·.recs)).getD []).drop i
      (List.range (min left l.length)).map (fun k => ⟨idx, none, i + k, l.getD k 0⟩)
    else if count ≤ i then
      (if bad then [⟨idx, some base, i, poisonWord 1 false base⟩]
       else c.readExtents onDie size fuel (bitsOf 255 224 head) 0 left)
    else if c.isPoison true (base + 1 + i / 4) then
      ⟨idx, some (base + 1 + i / 4), i, poisonWord 1 false (base + 1 + i / 4)⟩ ::
        c.readExtents onDie size fuel idx (4 * (i / 4) + 4) (left - min (4 - i % 4) (count - i))
    else ⟨idx, some (base + 1 + i / 4), i, c.extentRec base i⟩ :: c.readExtents onDie size fuel idx (i + 1) (left - 1)

/-- A tile's shadow records of frame n, and poisoned-span words (R292). -/
def State.shadowOf (s : State) (c : Conc) (n : Nat) (t : Fin 16) : List ShadowRec :=
  let d := s.dirOf c n t
  let cnt := bitsOf 87 64 d
  (s.conc c).readExtents (s.rx c t).ext (s.shadowExtents c) (2 * cnt + 2) (bitsOf 127 96 d)
    (4 * (bitsOf 95 90 d - 1) + bitsOf 89 88 d) cnt

/-- How many allocations ago the ring gave out the extent with an index, of `ring` extents. -/
def State.extentAge (s : State) (c : Conc) (idx : Nat) : Nat :=
  let ring := s.shadowExtents c
  (ring + (s.conc c).extents - 1 - idx) % ring

/-- Puts a record before the first that stands in a younger extent. -/
def ringInsert (age : Nat → Nat) (x : ShadowRec) : List ShadowRec → List ShadowRec
  | [] => [x]
  | y :: r => if age y.extent < age x.extent then x :: y :: r else y :: ringInsert age x r

/-- Records in shadow-ring order (R171): oldest extent first, as they stand within one. -/
def ringSort (age : Nat → Nat) (l : List ShadowRec) : List ShadowRec :=
  l.foldl (fun a x => ringInsert age x a) []

/-! ### The glean engine (R187-R192) -/

/-- Periods of the window in a frame. -/
def Glean.periods (g : Glean) (n : Int) : Nat :=
  (min (g.hi : Int) (n * 4096 + 4095) + 1 - max g.lo (n * 4096)).toNat

/-- A record word belongs to a glean: a poisoned span, or a hit in the region and window (R160, R188). The place of a record that
was discarded holds none (R328). -/
def Glean.takes (g : Glean) (n : Nat) (w : BitVec 56) : Bool :=
  let at_ := n * 4096 + bitsOf 37 26 w.toNat
  w != 0 && (bitsOf 55 54 w.toNat == 0 ||
    (inRegion g.trig.level g.trig.path (bitsOf 53 38 w.toNat) && decide (g.lo ≤ (at_ : Int)) && decide (at_ ≤ g.hi)))

/-- The frame that a sheaf's header and grains name, its coarse time taken modulo 2^48 (R144): before time 0 it wraps. -/
def wrappedFrame (n : Int) : Nat := if n < 0 then (n % 2 ^ 36).toNat else n.toNat

/-- Glean header (R152). -/
def Glean.headerWords (g : Glean) : List (BitVec 56) :=
  [ctrlWord 3 (packFields [(24, g.trig.num), (16, g.trig.path), (3, g.trig.level), (5, 0)]),
   ctrlWord 0x3F (coarseTicks g.trig.time),
   ctrlWord 0x3F (packFields [(20, g.trig.pre), (20, g.trig.post), (8, 0)]),
   ctrlWord 0x3F (packFields [(12, fineTicks g.trig.time), (16, g.part), (16, g.parts), (4, 0)])]

/-- Glean trailer (R152, R192). -/
def Glean.trailerWords (g : Glean) : List (BitVec 56) :=
  [ctrlWord 4 (packFields [(24, g.trig.num), (24, min g.hits (2 ^ 24 - 1))]),
   ctrlWord 0x3F (packFields [(24, g.delivered), (24, g.overwritten)]),
   ctrlWord 0x3F (packFields [(24, if g.refused then g.trig.pre + g.trig.post + 1 else 0), (24, 0)])]

/-- Frame n's shadow data counts as overwritten when read (R191, R293); a frame before time 0 lies before SHADOW_VALID. -/
def State.shadowLost (s : State) (c : Conc) : Int → Bool
  | .ofNat n =>
    (match (s.conc c).metaOf n with
     | some m => !s.shadowHeld c ((s.conc c).nextForm - 1) m
     | none => true)
  | .negSucc _ => true

/-- A record that comes from the on-die copy and cannot be read is discarded (R328). -/
def ShadowRec.readable (x : ShadowRec) (t : Fin 16) (onDie : Reads) : Bool :=
  x.unit.isSome || onDie.at_ (t.val * 256 + x.place) != .uncorrectable

/-- The records of a glean in frame n (R171, R191, R293), of those on the die the readable ones. -/
def State.gleanWords (s : State) (c : Conc) (g : Glean) (n : Nat) (onDie : Reads) : List (BitVec 56) :=
  if g.refused || s.shadowLost c (Int.ofNat n) then []
  else if s.dirPoisoned c n then [poisonWord 1 false (n % 65536 * 8)]
  else
    (ringSort (s.extentAge c) ((allTiles.filter (regionTile g.trig.level g.trig.path)).flatMap
      (fun t => (s.shadowOf c n t).filter (fun x => x.readable t onDie && g.takes n x.word)))).map (·.word)

/-- A glean sheaf's bytes (R145, R171). -/
def State.gleanBytes (s : State) (c : Conc) (g : Glean) (n : Nat) (body : List (BitVec 56)) : List Byte :=
  let cs := s.conc c
  let own := cs.metaOf n
  let m := (own.orElse (fun _ => cs.metas.getLast?)).getD
    { frame := n, pos := 0, words := 0, presence := 0, pealEpoch := 0, domain := false, tq := 0, mixed := false, dead := 0,
      extent := none }
  sheafBytes
    { kind := 2, frame := n, pealEpoch := m.pealEpoch, presence := if own.isSome then m.presence else 0,
      words := body.length, domain := m.domain, resume := false, dswitch := false, mixed := m.mixed, drop := false,
      poison := body.any (fun w => bitsOf 55 48 w.toNat == 0x0A), tq := m.tq, gleanTrig := g.trig.num,
      gleanPart := g.part, records := (body.filter startsRecord).length } body {}

/-- A glean after its sheaf of frame n with the given records (R191, R192). -/
def Glean.next (g : Glean) (n : Int) (lost : Bool) (ws : List (BitVec 56)) : Glean :=
  let k := g.periods n
  { g with
    part := g.part + 1, nextFrame := n + 1, formed := decide (g.part + 1 = g.parts),
    hits := g.hits + (ws.filter (fun w => bitsOf 55 54 w.toNat == 1)).length,
    delivered := if g.refused || lost then g.delivered else g.delivered + k,
    overwritten := if !g.refused && lost then g.overwritten + k else g.overwritten }

/-- The counters of a glean trailer formed (R186, R192). -/
def State.countGlean (s : State) (c : Conc) (g : Glean) : State :=
  let dead := if g.refused then g.trig.pre + g.trig.post + 1 else g.overwritten
  let s := (s.bump (pgGLEAN c) Reg.GLEAN.GLEAN_CNT 0).bump64 (pgGLEAN c) Reg.GLEAN.DEAD_GLEAN_LO
    Reg.GLEAN.DEAD_GLEAN_HI 6 dead
  if g.overwritten = 0 then s else (s.bump (pgGLEAN c) Reg.GLEAN.SHORT_CNT 2).event (pgGLEAN c) 1

/-- Forms the next sheaf of a glean. -/
def State.formGlean (s : State) (c : Conc) (g : Glean) (onDie : Reads) : State :=
  let n := wrappedFrame g.nextFrame
  let ws := if g.nextFrame < 0 then [] else s.gleanWords c g n onDie
  let g' := { g.next g.nextFrame (s.shadowLost c g.nextFrame) ws with since := s.now }
  let body := g.headerWords ++ ws ++ (if g'.formed then g'.trailerWords else [])
  let cs := s.conc c
  let s := s.setConc c { cs with
    gleans := cs.gleans.map (fun x => if x.trig.num = g.trig.num ∧ x.formed = false then g' else x)
    gleanQ := cs.gleanQ ++ [{ frame := n, bytes := s.gleanBytes c g n body,
                              ends := if g'.formed then some g.trig.num else none }] }
  let s := (s.put (pgGLEAN c) Reg.GLEAN.ACTIVE_TRIG_NUM g.trig.num).putB (pgGLEAN c) Reg.GLEAN.ACTIVE_BUSY (!g'.formed)
  if g'.formed then s.countGlean c g' else s

/-- What of a frame a glean reads: records of the tiles in its region. -/
def State.gleanRecs (s : State) (c : Conc) (g : Glean) (n : Nat) : List (Fin 16 × ShadowRec) :=
  (allTiles.filter (regionTile g.trig.level g.trig.path)).flatMap (fun t => (s.shadowOf c n t).map (fun x => (t, x)))

/-- The units that a glean reads for those records: each extent's header, then the units that hold them. -/
def gleanUnits (l : List (Fin 16 × ShadowRec)) : List Nat :=
  (l.flatMap (fun x => match x.2.unit with | some u => [shadowBase + x.2.extent * 64, u] | none => [])).dedup

/-- The reads of a glean's frame n (R188, R292): the frame directory entry, then the records' units, and those on the die. -/
def State.gleanReads (s : State) (c : Conc) (g : Glean) (n : Nat) (reads : GleanReads) : State :=
  let cls := (s.conc c).mc.clsOf .glean
  let s := s.readUnits c true cls reads.units ((List.range 8).map (fun k => n % 65536 * 8 + k))
  if s.dirPoisoned c n || s.shadowLost c (Int.ofNat n) then s
  else
    let l := s.gleanRecs c g n
    (s.readUnits c true cls reads.units (gleanUnits l)).each (l.filter (fun x => x.2.unit.isNone)) (fun s x =>
      s.countRead (pgDINTG c) 3 (x.1.val * 256 + x.2.place) (reads.onDie.at_ (x.1.val * 256 + x.2.place)))

/-- GLEAN_SHEAF_FORM: at a module time the engine reads one overlapped frame and forms one glean sheaf. An error that freezes the
controller ends it. -/
def State.gleanForm (s : State) (c : Conc) (reads : GleanReads) (at_ : Nat) : State :=
  let s := s.advance at_
  match (s.conc c).nextGlean with
  | some g =>
    if !(s.conc c).merging || s.dramBusy c || (!g.refused && !s.servesNow c true .glean) then s
    else
      let s := if g.refused || decide (g.nextFrame < 0) then s
        else (s.gleanReads c g g.nextFrame.toNat reads).served c .glean
      if (s.conc c).merging then s.formGlean c g reads.onDie else s
  | none => s

/-! ### Re-sends (R193, R194) -/

/-- RESEND_STAT (R199). -/
def State.showResend (s : State) (c : Conc) : State :=
  let cs := s.conc c
  (s.put (pgGLEAN c) Reg.GLEAN.RESEND_STAT_QUEUED cs.resends.length).putB (pgGLEAN c) Reg.GLEAN.RESEND_STAT_BUSY
    (cs.resendCur.isSome || cs.resends.any (·.started))

/-- The request being served after one sheaf (R194), at a module time. -/
def advanceResend (now : Nat) : List Resend → List Resend
  | [] => []
  | q :: r =>
    if q.left ≤ 1 then r else { next := (q.next + 1) % 2 ^ 32, left := q.left - 1, started := true, since := now } :: r

/-- The sheaf of a re-send request's number, where it is held (R194). -/
def State.heldSheaf (s : State) (c : Conc) (num : Nat) : Option SheafMeta :=
  match sheafNear (s.conc c).nextForm num with
  | .ofNat f => if s.held c f then (s.conc c).metaOf f else none
  | .negSucc _ => none

/-- RESEND_SHEAF: at a module time the next sheaf of the oldest request is read if held, else skipped and counted. -/
def State.resendSheaf (s : State) (c : Conc) (reads : Reads) (at_ : Nat) : State :=
  let s := s.advance at_
  let cs := s.conc c
  match cs.resends, cs.resendCur with
  | q :: _, none =>
    if !cs.merging || s.dramBusy c then s
    else match s.heldSheaf c q.next with
      | some m =>
        if !s.servesNow c false .resend then s
        else
          let s := (s.sheafRead c m.frame m.pos (unitsOf (48 + 7 * m.words)) (cs.mc.clsOf .resend) reads).served c .resend
          if (s.conc c).merging then
            (s.setConc c { s.conc c with
              resends := advanceResend s.now cs.resends
              resendCur := some { frame := m.frame, bytes := s.readSheaf c m, grain := 0 } }).showResend c
          else s
      | none =>
        ((s.setConc c { cs with resends := advanceResend s.now cs.resends }).bump (pgGLEAN c) Reg.GLEAN.RESEND_SKIP_CNT 3).showResend c
  | _, _ => s

end Sys2Proof.Machine
end

