-- ==== Sys2Proof/Machine/Lanes.lean ====
section
/-!
DEFINITION. The output lanes (R345-R360): line coding and FEC, exit and forced idle, readiness and faults, the lane mask,
and the lane test.
-/

namespace Sys2Proof.Machine

/-! ### Line coding (R346-R351) -/

/-- The bits of octets in transmission order: least significant bit first. -/
def octetBits (l : List Byte) : List Bool := l.flatMap (fun b => (toBits 8 b.toNat).reverse)

/-- The self-synchronising scrambler x^58 + x^39 + 1 over a bit string. -/
def scramble (st : BitVec 58) : List Bool → List Bool × BitVec 58
  | [] => ([], st)
  | b :: r =>
    let o := (b != st.getLsbD 38) != st.getLsbD 57
    let x := scramble ((st <<< 1) ||| BitVec.ofNat 58 o.toNat) r
    (o :: x.1, x.2)

/-- Multiplication in GF(2^10) with x^10 + x^3 + 1. -/
def gfMul (a b : Nat) : Nat :=
  (List.range 10).foldl (fun acc i =>
    if b.testBit i then
      Nat.xor acc ((List.range i).foldl (fun x _ => if 512 ≤ x then Nat.xor (x * 2) 0x409 else x * 2) a)
    else acc) 0

/-- The generator of RS(528,514), roots α^0 to α^13, without its leading 1, highest power first. -/
def rsGen : List Nat :=
  ((List.range 14).foldl (fun (g : List Nat × Nat) _ =>
    let up := g.1 ++ [0]
    let dn := 0 :: g.1.map (gfMul g.2)
    (List.zipWith Nat.xor up dn, gfMul g.2 2)) ([1], 1)).1.drop 1

/-- The 14 parity symbols of message symbols, first sent first. -/
def rsParity (msg : List Nat) : List Nat :=
  msg.foldl (fun st m =>
    let f := Nat.xor m (st.headD 0)
    List.zipWith Nat.xor (st.drop 1 ++ [0]) (rsGen.map (gfMul f))) (List.replicate 14 0)

/-- Ten-bit symbols of a bit string, the first bit of each being bit 0. -/
def symbols : Nat → List Bool → List Nat
  | 0, _ => []
  | n + 1, l => ofBits (l.take 10).reverse :: symbols n (l.drop 10)

/-- The codeword of 5140 message bits (R349). -/
def codeword (bits : List Bool) : BitVec 5280 :=
  BitVec.ofNat 5280 (ofBits (bits ++ (rsParity (symbols 514 bits)).flatMap (fun v => (toBits 10 v).reverse)))

/-- A block joins the bit stream of a lane; a full message completes a codeword while FEC is on. -/
def LaneTx.push (t : LaneTx) (b : List Bool) : LaneTx × Option (BitVec 5280) :=
  if t.fec then
    let p := t.pend ++ b
    if 5140 ≤ p.length then ({ t with pend := p.drop 5140, blocks := t.blocks + 1 }, some (codeword (p.take 5140)))
    else ({ t with pend := p, blocks := t.blocks + 1 }, none)
  else ({ t with blocks := t.blocks + 1 }, none)

/-- What a lane sends: blocks and the codewords they complete. -/
structure Sent where
  tx : LaneTx
  blocks : List (BitVec 66)
  words : List (BitVec 5280)
  deriving DecidableEq, Repr

/-- A block with its sync header leaves. -/
def Sent.block (x : Sent) (hdr : List Bool) (payload : List Bool) : Sent :=
  let b := hdr ++ payload
  let r := x.tx.push b
  { tx := r.1, blocks := x.blocks ++ [BitVec.ofNat 66 (ofBits b)], words := x.words ++ r.2.toList }

/-- An alignment block is due: the first block of every sixteenth cycle, that is one in 41 120 (R350, R351). -/
def LaneTx.alignDue (t : LaneTx) : Bool := t.blocks % 41120 == 0

/-- The alignment block of R350, where one is due. -/
def Sent.align (x : Sent) (c : Conc) (lane board : Nat) : Sent :=
  if x.tx.alignDue then
    let n := (x.tx.acnt + 1) % 65536
    let mid : List Byte := [0xA5, 0x5A, BitVec.ofNat 8 (c.idx * 128 + x.tx.fec.toNat * 64 + lane),
      BitVec.ofNat 8 (n / 256), BitVec.ofNat 8 n, BitVec.ofNat 8 board]
    ({ x with tx := { x.tx with acnt := n } } : Sent).block [true, false] (octetBits ((0x4B : Byte) :: mid ++ [crc8 mid]))
  else x

/-- A scrambled block, after an alignment block where one is due. -/
def Sent.scrambled (x : Sent) (c : Conc) (lane board : Nat) (hdr : List Bool) (octets : List Byte) : Sent :=
  let x := x.align c lane board
  let y := scramble x.tx.scrambler (octetBits octets)
  ({ x with tx := { x.tx with scrambler := y.2 } } : Sent).block hdr y.1

/-- The octets of an idle block. -/
def idleOctets : List Byte := 0x1E :: List.replicate 7 0

/-- An idle block leaves, which ends a run of data blocks (R348). -/
def Sent.idle (x : Sent) (c : Conc) (lane board : Nat) : Sent :=
  let y := x.scrambled c lane board [true, false] idleOctets
  { y with tx := { y.tx with run := 0 } }

/-- UI from the first after the training burst to the beginning of the next block, the parity of the codewords complete by then
included (R349, R351). -/
def LaneTx.ui (t : LaneTx) : Nat := 66 * t.blocks + (if t.fec then 140 * (66 * t.blocks / 5140) else 0)

/-- UI that a lane has sent since its training burst by a module time, 5625 in 128 T_ref (R345). -/
def LaneTx.uiAt (t : LaneTx) (now : Nat) : Nat := (now - t.start) * 5625 / 128

/-- While no grain has been dealt to it a lane sends idle blocks, and the alignment blocks that fall due (R348, R350): those that
begin before UI u, at most n of them. -/
def Sent.fill (x : Sent) (c : Conc) (lane board u : Nat) : Nat → Sent
  | 0 => x
  | n + 1 =>
    if x.tx.ui < u then (if x.tx.alignDue then x.align c lane board else x.idle c lane board).fill c lane board u n else x

/-- What a lane has sent by a module time, no further grain having been dealt to it. -/
def LaneTx.upTo (t : LaneTx) (c : Conc) (lane board now : Nat) : Sent :=
  ({ tx := t, blocks := [], words := [] } : Sent).fill c lane board (t.uiAt now) (t.uiAt now / 66 + 1)

/-- A grain of 256 bytes dealt at a module time leaves on a lane as 32 data blocks, after an idle block where a run begins and one
has not just left (R348). -/
def LaneTx.sendGrain (t : LaneTx) (c : Conc) (lane board now : Nat) (g : List Byte) : Sent :=
  let x := t.upTo c lane board now
  let x := if 1024 ≤ x.tx.run then x.idle c lane board else x
  let run := x.tx.run
  let x := (List.range 32).foldl (fun (x : Sent) i =>
    x.scrambled c lane board [false, true] ((g.drop (8 * i)).take 8)) x
  { x with tx := { x.tx with run := run + 1 } }

/-- The training burst of R354, first UI first. -/
def trainingBurst : List Bool :=
  (List.range 768).map (fun i => i % 2 == 0) ++ (List.replicate 4 (toBits 64 0x7E5BA3C10F96D248)).flatten

/-! ### Lane state -/

/-- A bit of a pair of lane words. -/
def State.laneBit (s : State) (c : Conc) (lo hi : FieldRef) (l : Nat) : Bool :=
  (s.stored (pgLANES c) (if l < 32 then lo else hi)).testBit (l % 32)
def State.putLaneBit (s : State) (c : Conc) (lo hi : FieldRef) (l : Nat) (b : Bool) : State :=
  s.putB (pgLANES c) ⟨(if l < 32 then lo else hi).off, l % 32, l % 32⟩ b
def State.inAct (s : State) (c : Conc) (l : Nat) : Bool := s.laneBit c Reg.LANES.ACT_LO Reg.LANES.ACT_HI l
def State.inMask (s : State) (c : Conc) (l : Nat) : Bool := s.laneBit c Reg.LANES.MASK_LO Reg.LANES.MASK_HI l
def allLanes : List Nat := List.range 64
def State.laneState (s : State) (c : Conc) (l : Nat) : Nat := s.stored (pgLANE c l) Reg.LANE.LANE_STAT_STATE
def State.putLaneState (s : State) (c : Conc) (l st : Nat) : State := s.put (pgLANE c l) Reg.LANE.LANE_STAT_STATE st

/-- READY and IN_MASK of a lane in both places (R356, R364, R366). -/
def State.showLane (s : State) (c : Conc) (l : Nat) : State :=
  let p := pgLANE c l
  let r := s.flag p Reg.LANE.LANE_STAT_PLL_LOCK && !s.flag p Reg.LANE.LANE_STAT_FAULT && !s.flag p Reg.LANE.TEST_GEN_EN
  ((s.putB p Reg.LANE.LANE_STAT_READY r).putLaneBit c Reg.LANES.READY_LO Reg.LANES.READY_HI l r).putB p
    Reg.LANE.LANE_STAT_IN_MASK (s.inAct c l)

/-- The lanes-up check of R266: the mask in effect is not empty and all its lanes are ready. -/
def State.lanesUp (s : State) (c : Conc) : Bool :=
  s.actMask c != 0 && allLanes.all (fun l => !s.inAct c l || s.laneBit c Reg.LANES.READY_LO Reg.LANES.READY_HI l)

/-- The arbiter asserts a concentrator's lane-enable line: for the holder only (R268, R272). -/
def State.driving (s : State) (c : Conc) : Bool := s.holder == some c

/-- STAT.DRIVING shows the line (R364). -/
def State.showDriving (s : State) (c : Conc) : State := s.putB (pgLANES c) Reg.LANES.STAT_DRIVING (s.driving c)

/-- A concentrator's lanes are in electrical idle at once (R268, R355): nothing is completed. A lane in test stays in test mode, but
nothing of it reaches the pins any more (R359). Its copy of the deadline is gone. -/
def State.forceIdle (s : State) (c : Conc) : State :=
  let s := s.each allLanes (fun s l =>
    if s.laneState c l = 0 then s
    else s.putLaneState c l (if s.flag (pgLANE c l) Reg.LANE.TEST_GEN_EN then 4 else 0))
  s.setConc c { s.conc c with
    sending := false, firstDue := false, deadline := none, outGrain := none, outBlocks := [], outWords := [], tx := [] }

/-- A concentrator may drive its pins: the module is ready, the line is asserted, and the concentrator's copy of the deadline has
not passed (R268, R470). -/
def State.mayDrive (s : State) (c : Conc) : Bool :=
  decide (12 ≤ s.step470) && s.driving c && (s.conc c).deadline.isSome

/-- A lane joins with a mask that has been delivered and is not loaded yet (R357). -/
def ConcSt.joins (cs : ConcSt) (l : Nat) : Bool := cs.maskDue.any (fun m => m.getLsbD l)

/-- A lane that a grant or a mask change brings out of idle. -/
def State.mayExit (s : State) (c : Conc) (l : Nat) : Bool :=
  s.mayDrive c && (s.inAct c l || (s.conc c).joins l) && s.flag (pgLANE c l) Reg.LANE.LANE_STAT_READY

/-- LANE_EXIT_IDLE: a lane of the holder goes on through the phases of R354: wake, training, data, which begins at the module time
of the event. It leaves idle with FEC_EN as it stands then (R351), and begins cycle 0 with its scrambler cleared. A lane in
test goes from wake to test (R359). -/
def State.laneExit (s : State) (c : Conc) (l at_ : Nat) : State :=
  let s := s.advance at_
  let st := s.laneState c l
  if st = 0 then
    (if s.mayExit c l then
      (s.putLaneState c l 1).setConc c { s.conc c with
        tx := mapPut l { fec := s.flag (pgLANES c) Reg.LANES.CTRL_FEC_EN } (s.conc c).tx } |>.bump (pgLANES c)
          Reg.LANES.EXIT_CNT 0
     else s)
  else if st = 1 ∧ s.flag (pgLANE c l) Reg.LANE.TEST_GEN_EN = true then s.putLaneState c l 4
  else if st = 2 then
    (s.putLaneState c l 3).setConc c { s.conc c with
      tx := mapPut l { mapGetD ({} : LaneTx) l (s.conc c).tx with start := s.now } (s.conc c).tx }
  else if st < 3 then s.putLaneState c l (st + 1)
  else s

/-- The lanes in the mask in effect carry data. -/
def State.lanesData (s : State) (c : Conc) : Bool :=
  s.actMask c != 0 && allLanes.all (fun l => !s.inAct c l || s.laneState c l == 3)

/-! ### Readiness, faults (R356) -/

/-- LANE_FAULT: a driver current outside its window, or a loss of PLL lock. -/
def State.laneFault (s : State) (c : Conc) (l : Nat) (pll : Bool) : State :=
  let p := pgLANE c l
  if (s.conc c).run = .reset then s
  else
    let was := s.flag p Reg.LANE.LANE_STAT_FAULT
    let s := s.putB p Reg.LANE.LANE_STAT_FAULT true
    let s := if pll then s.putB p Reg.LANE.LANE_STAT_PLL_LOCK false else s
    let s := (s.putLaneBit c Reg.LANES.FAULT_LO Reg.LANES.FAULT_HI l true).showLane c l
    if was then s
    else (((s.bump (pgLANES c) Reg.LANES.FAULT_CNT 1).event p 1).eventIf (s.inAct c l) (pgLANES c) 0)

/-- LANE_FAULT_END: the current is in its window and the PLL locked again. -/
def State.laneFaultEnd (s : State) (c : Conc) (l : Nat) : State :=
  let p := pgLANE c l
  if (s.conc c).run = .reset then s
  else (((s.putB p Reg.LANE.LANE_STAT_FAULT false).putB p Reg.LANE.LANE_STAT_PLL_LOCK true).putLaneBit c
    Reg.LANES.FAULT_LO Reg.LANES.FAULT_HI l false).showLane c l

/-- Lane settings at start-up or a reset (R352): BOARD_ID, the image's entry for each lane or the default; every PLL
locks. `table` holds EQ words by lane, where the image has an entry for the board. -/
def State.startLanes (s : State) (c : Conc) (board : Nat) (table : Option (List Word)) : State :=
  let s := (s.put (pgLANES c) Reg.LANES.STAT_BOARD_ID board).putB (pgLANES c) Reg.LANES.STAT_TABLE_DEFAULT table.isNone
  let s := s.eventIf table.isNone (pgLANES c) 1
  s.each allLanes (fun s l =>
    let w := loadedWord (pgLANE c l) Reg.LANE.EQ.off ((table.bind (fun t => t[l]?)).getD 0x08340804) &&& 0x7FFFFFFF
    ((s.put (pgLANE c l) Reg.LANE.EQ w.toNat).putB (pgLANE c l) Reg.LANE.LANE_STAT_PLL_LOCK true).showLane c l)

/-- The taps a lane uses (R353): PRE, MAIN, POST and SWING, MAIN reduced until the sum is 64. -/
def State.laneTaps (s : State) (c : Conc) (l : Nat) : Nat × Nat × Nat × Nat :=
  let p := pgLANE c l
  let f (a b : FieldRef) : Nat := if s.flag p Reg.LANE.EQ_OVR_EN then s.fld p b else s.stored p a
  let pre := f Reg.LANE.EQ_PRE Reg.LANE.EQ_OVR_PRE
  let post := f Reg.LANE.EQ_POST Reg.LANE.EQ_OVR_POST
  (pre, min (f Reg.LANE.EQ_MAIN Reg.LANE.EQ_OVR_MAIN) (64 - pre - post), post, f Reg.LANE.EQ_SWING Reg.LANE.EQ_OVR_SWING)

/-! ### Test (R358-R361) -/

/-- A pattern's polynomial (R359): the delays of its two terms, the longer first. -/
def prbsTerms (pattern : Nat) : Nat × Nat := if pattern = 0 then (7, 6) else if pattern = 1 then (15, 14) else (31, 28)

/-- The next bit of a sequence whose last bits are those of `reg`, the newest in bit 0. -/
def prbsNext (pattern reg : Nat) : Bool := reg.testBit ((prbsTerms pattern).1 - 1) != reg.testBit ((prbsTerms pattern).2 - 1)

/-- A bit joins the last bits of a sequence. -/
def prbsPush (pattern reg : Nat) (b : Bool) : Nat := (2 * reg + b.toNat) % 2 ^ (prbsTerms pattern).1

/-- The generator sends a bit (R359, R361): INJ_ONE inverts the next one, INJ_PER every 2^log-th, both of them once. -/
def LaneTest.send (x : LaneTest) (pattern : Nat) (per : Bool) (log : Nat) : Bool × LaneTest :=
  let b := prbsNext pattern x.gen
  let inv := x.injOne || (per && (x.sent + 1) % 2 ^ log == 0)
  (b != inv, { x with gen := prbsPush pattern x.gen b, sent := x.sent + 1, injOne := false })

/-- The checker's verdict on a received bit. -/
inductive CheckStep where
  | searching | locks | counted (wrong loses : Bool)
  deriving DecidableEq, Repr

/-- A searching checker takes a received bit (R360): it loads one polynomial length, then compares, and locks at the 64th
agreement in a row. -/
def LaneTest.search (x : LaneTest) (pattern : Nat) (b : Bool) : CheckStep × LaneTest :=
  if x.loaded < (prbsTerms pattern).1 then
    (.searching, { x with chk := prbsPush pattern x.chk b, loaded := x.loaded + 1, agree := 0 })
  else if prbsNext pattern x.chk != b then (.searching, { x with chk := 0, loaded := 0, agree := 0 })
  else if 64 ≤ x.agree + 1 then
    (.locks, { x with chk := prbsPush pattern x.chk b, agree := 0, seen := 0, wrong := [] })
  else (.searching, { x with chk := prbsPush pattern x.chk b, agree := x.agree + 1 })

/-- A locked checker takes a received bit (R360): its generator runs free; it loses lock at the 32nd wrong bit among 1024. -/
def LaneTest.count (x : LaneTest) (pattern : Nat) (b : Bool) : CheckStep × LaneTest :=
  let e := prbsNext pattern x.chk
  let bad := e != b
  let wrong := (if bad then [x.seen] else []) ++ x.wrong.filter (fun k => decide (x.seen < k + 1024))
  let loses := decide (32 ≤ wrong.length)
  (.counted bad loses,
   if loses then { x with chk := 0, loaded := 0, agree := 0, seen := 0, wrong := [] }
   else { x with chk := prbsPush pattern x.chk e, seen := x.seen + 1, wrong := wrong })

/-- What the checker's verdict does to its registers. -/
def State.checked (s : State) (c : Conc) (l : Nat) : CheckStep → State
  | .searching => s
  | .locks => s.putB (pgLANE c l) Reg.LANE.CHK_STAT_LOCKED true
  | .counted wrong loses =>
    let p := pgLANE c l
    let s := s.bump64 p Reg.LANE.BITS_LO Reg.LANE.BITS_HI 3 1
    let s := if wrong then s.bump p Reg.LANE.ERR_CNT 0 else s
    if loses then ((s.putB p Reg.LANE.CHK_STAT_LOCKED false).bump p Reg.LANE.LOCK_LOST_CNT 1).event p 0 else s

/-- One bit of a lane's test: the generator sends it, and the checker, where it is on, takes it as it arrives, wrong where `err`. -/
def State.testBit (s : State) (c : Conc) (l : Nat) (err : Bool) : State :=
  let p := pgLANE c l
  let k := s.fld p Reg.LANE.TEST_PATTERN
  let (b, x) := (mapGetD ({} : LaneTest) l (s.conc c).tests).send k (s.flag p Reg.LANE.TEST_INJ_PER) (s.fld p Reg.LANE.TEST_INJ_LOG)
  let y := if !s.flag p Reg.LANE.TEST_CHK_EN then (CheckStep.searching, x)
    else if s.flag p Reg.LANE.CHK_STAT_LOCKED then x.count k (b != err) else x.search k (b != err)
  (s.setConc c { s.conc c with tests := mapPut l y.2 (s.conc c).tests }).checked c l y.1

/-- CHECKER_LOCK and CHECKER_LOCK_LOST: a lane in test sends `bits` bits, of which those at the places `errs` arrive wrong at its
checker (R359-R361). Whether it locks or loses lock in them follows from the bits. -/
def State.testRun (s : State) (c : Conc) (l bits : Nat) (errs : List Nat) : State :=
  if s.flag (pgLANE c l) Reg.LANE.TEST_GEN_EN then s.each (List.range bits) (fun s i => s.testBit c l (errs.contains i)) else s

/-- What a lane's pins carry: common mode (electrical idle and wake), the training burst, the coded stream, or its test sequence. -/
inductive LanePins where
  | commonMode | training | coded | sequence
  deriving DecidableEq, Repr

/-- The pins of a lane (R354, R359): a test sequence reaches them with LOOPBACK 0, once awake, and only while the line is
asserted. -/
def State.lanePins (s : State) (c : Conc) (l : Nat) : LanePins :=
  let st := s.laneState c l
  if !s.mayDrive c then .commonMode
  else if st = 2 then .training
  else if st = 3 then .coded
  else if st = 4 ∧ s.flag (pgLANE c l) Reg.LANE.TEST_LOOPBACK = false then .sequence
  else .commonMode

/-- A lane's TEST register comes into force (R358, R359): the lane state follows GEN_EN, a lane that is to send the sequence at its
pins waking first; a checker switched off unlocks; a generator switched on begins anywhere in its sequence, which is free. -/
def State.testChanged (s : State) (c : Conc) (l : Nat) : State :=
  let p := pgLANE c l
  let gen := s.flag p Reg.LANE.TEST_GEN_EN
  let wakes := gen && !s.flag p Reg.LANE.TEST_LOOPBACK && s.mayDrive c && s.lanePins c l == .commonMode
  let s := if wakes then (s.putLaneState c l 1).bump (pgLANES c) Reg.LANES.EXIT_CNT 0
    else if gen then s.putLaneState c l 4
    else if s.laneState c l = 4 ∨ (s.laneState c l = 1 ∧ !s.inAct c l) then s.putLaneState c l 0 else s
  let k := s.fld p Reg.LANE.TEST_PATTERN
  let s := if gen && (mapGetD ({} : LaneTest) l (s.conc c).tests).gen % 2 ^ (prbsTerms k).1 == 0 then
      let (v, s) := s.draw
      s.setConc c { s.conc c with tests := mapPut l { gen := v % (2 ^ (prbsTerms k).1 - 1) + 1 } (s.conc c).tests }
    else if gen then s else s.setConc c { s.conc c with tests := mapDel l (s.conc c).tests }
  let s := if s.flag p Reg.LANE.TEST_CHK_EN then s else s.putB p Reg.LANE.CHK_STAT_LOCKED false
  s.showLane c l

/-- Ends a lane's test mode (R357), and the belfry's record of it. -/
def State.endTest (s : State) (c : Conc) (l : Nat) : State :=
  let p := pgLANE c l
  let s := { s with saved := mapDel (regKey p Reg.LANE.TEST.off) s.saved }
  if s.flag p Reg.LANE.TEST_GEN_EN || s.flag p Reg.LANE.TEST_CHK_EN || s.flag p Reg.LANE.TEST_LOOPBACK then
    (((s.putB p Reg.LANE.TEST_GEN_EN false).putB p Reg.LANE.TEST_CHK_EN false).putB p Reg.LANE.TEST_LOOPBACK
      false).testChanged c l
  else s

/-- INJ_ONE: the generator's next bit is inverted (R361). -/
def State.injOne (s : State) (c : Conc) (l : Nat) : State :=
  if s.flag (pgLANE c l) Reg.LANE.TEST_GEN_EN then
    s.setConc c { s.conc c with
      tests := mapPut l { mapGetD ({} : LaneTest) l (s.conc c).tests with injOne := true } (s.conc c).tests }
  else s

/-! ### The lane mask (R357) -/

/-- The written mask. -/
def State.writtenMask (s : State) (c : Conc) : BitVec 64 :=
  BitVec.ofNat 64 (s.stored (pgLANES c) Reg.LANES.MASK_HI * 2 ^ 32 + s.stored (pgLANES c) Reg.LANES.MASK_LO)

/-- The written mask is delivered at a boundary after a write of it: each lane of the holder that joins ends any test. -/
def State.deliverMask (s : State) (c : Conc) : State :=
  let s := s.setConc c { s.conc c with maskDue := some (s.writtenMask c) }
  s.each allLanes (fun s l => if s.inMask c l && !s.inAct c l then s.endTest c l else s)

/-- At a stream-class grain 0 the mask in effect is taken for dealing (R167); lanes that left it go idle, but not those that a mask
delivered brings in (R357, R363). -/
def State.takeMask (s : State) (c : Conc) : State :=
  let m := s.actMask c
  let s := s.setConc c { s.conc c with dealMask := m }
  s.each allLanes (fun s l =>
    if !m.getLsbD l && !(s.conc c).joins l && (s.laneState c l != 0) && !s.flag (pgLANE c l) Reg.LANE.TEST_GEN_EN then
      s.putLaneState c l 0
    else s)

/-- With an empty mask no grain is dealt (R167): its lanes rest once no stream sheaf is partly dealt. -/
def State.restMask (s : State) (c : Conc) : State :=
  if (s.conc c).stream.isNone && s.actMask c == 0 then s.takeMask c else s

/-- The mask in effect takes a value. -/
def State.loadMask (s : State) (c : Conc) (m : BitVec 64) : State :=
  let s := s.setConc c { s.conc c with maskDue := none }
  let s := (s.put (pgLANES c) Reg.LANES.ACT_LO m.toNat).put (pgLANES c) Reg.LANES.ACT_HI (m.toNat / 2 ^ 32)
  s.each allLanes (fun s l => s.showLane c l)

/-- MASK_LOAD: 128 T_ref after the boundary the mask in effect is loaded in both concentrators with the mask delivered there. -/
def State.maskLoad (s : State) : State :=
  s.each concs (fun s c =>
    match (s.conc c).maskDue with
    | some m => ((s.loadMask c m).event (pgLANES c) 2).restMask c
    | none => s)

/-- A concentrator whose settings were restored takes the restored mask at once, there being no frame before it forms sheaves
(DESIGN CHOICE, log 68), and its lanes outside it their tests; a lane inside it may be in none (R357, R358). -/
def State.restoreLanes (s : State) (c : Conc) : State :=
  let s := s.loadMask c (s.writtenMask c)
  s.each allLanes (fun s l => if s.inAct c l then s.endTest c l else s.testChanged c l)

end Sys2Proof.Machine
end

