-- ==== Sys2Proof/Machine/Output.lean ====
section
/-!
DEFINITION. The grain scheduler (R161-R168): the classes and their turns, direct mode, spill and read-back (R129-R132,
R501), and the start of a new holder's stream (R274).
-/

namespace Sys2Proof.Machine

/-- The classes of grain (R164). -/
inductive GrainClass where
  | stream | glean | resend
  deriving DecidableEq, Repr

/-- The output mode: 0 direct, 1 spill, 2 spill with drop (R129). -/
def State.outMode (s : State) (c : Conc) : Nat := s.stored (pgSHEAF c) Reg.SHEAF.SPILL_STAT_MODE

/-- The stream class may read the replay partition now (R294, R297). -/
def State.spillServed (s : State) (c : Conc) : Bool := !s.dramBusy c && s.servesNow c false .spill

/-- A grain of each class is ready. -/
def State.streamReady (s : State) (c : Conc) : Bool :=
  let cs := s.conc c
  match cs.stream with
  | some d => !d.reread || s.spillServed c
  | none => if s.outMode c = 0 then !cs.queue.isEmpty else decide (cs.sendNext < cs.nextForm) && s.spillServed c
def ConcSt.gleanReady (cs : ConcSt) : Bool := cs.gleanCur.isSome || !cs.gleanQ.isEmpty
def ConcSt.resendReady (cs : ConcSt) : Bool := cs.resendCur.isSome

/-- The class of the next grain (R165). How the turns count is the model's choice: the glean is itself the 31st grain, and the
re-send the 255th (DESIGN CHOICE, log 53). With no mask being dealt over, a stream sheaf's first grain has to take one (R167). -/
def State.nextClass (s : State) (c : Conc) : Option GrainClass :=
  let cs := s.conc c
  if cs.dealMask = 0 then (if s.streamReady c then some .stream else none)
  else if cs.gleanReady && decide (30 ≤ cs.gleanAge) then some .glean
  else if cs.resendReady && decide (254 ≤ cs.resendAge) then some .resend
  else if s.streamReady c then some .stream
  else if cs.gleanReady then some .glean
  else if cs.resendReady then some .resend
  else none

/-- The next lane over a mask (R166): the lowest above the last, else the lowest. -/
def nextLane (mask : BitVec 64) (last : Nat) : Option Nat :=
  ((List.range 64).find? (fun l => mask.getLsbD l && decide (last < l))).orElse
    (fun _ => (List.range 64).find? (fun l => mask.getLsbD l))

/-- A grain of R161 and R162. -/
def grainBytes (c : Conc) (k : GrainClass) (d : Dealing) (lane : Nat) : List Byte :=
  let n := min 248 d.bytes.length
  let h := toBytes 7 (packFields [(16, d.frame % 65536), (16, d.grain), (6, lane), (1, c.idx),
    (1, (decide (d.bytes.length ≤ 248)).toNat), (1, (k == .resend).toNat), (1, (k == .glean).toNat), (8, n), (6, 0)])
  h ++ [crc8 h] ++ (d.bytes.take 248 ++ List.replicate (248 - n) 0)

/-- A concentrator that sends drives this grain: the first it sends is a stream grain 0, whose sheaf TAKE_START names (R172,
R274). -/
def State.startsWith (s : State) (c : Conc) (k : GrainClass) (d : Dealing) : State :=
  let cs := s.conc c
  if cs.firstDue && k == .stream && d.grain == 0 then
    (s.setConc c { cs with firstDue := false }).put (pgSTEP c) Reg.STEP.TAKE_START (sheafOf d.frame)
  else s

/-- The grain just dealt leaves on its lane where the concentrator sends (R168, R346-R350). -/
def State.driveGrain (s : State) (c : Conc) (lane : Nat) (g : List Byte) : State :=
  let cs := s.conc c
  if cs.sending && !cs.firstDue && s.laneState c lane == 3 then
    let x := (mapGetD ({} : LaneTx) lane cs.tx).sendGrain c lane (s.stored (pgLANES c) Reg.LANES.STAT_BOARD_ID) s.now g
    (s.setConc c { cs with tx := mapPut lane x.tx cs.tx, outGrain := some (lane, g), outBlocks := x.blocks,
                           outWords := x.words }).bump64 (pgLANES c) Reg.LANES.SENT_LO Reg.LANES.SENT_HI 2 1
  else s

/-- Grains dealt since the last of a class, while one of it is ready. -/
def ageNext (dealt ready : Bool) (age : Nat) : Nat := if dealt then 0 else if ready then age + 1 else 0

/-- Counts a grain dealt for the turns of R165, and its lane. -/
def State.countGrain (s : State) (c : Conc) (k : GrainClass) (lane : Nat) : State :=
  let cs := s.conc c
  s.setConc c { cs with
    lastLane := lane, gleanAge := ageNext (k == .glean) cs.gleanReady cs.gleanAge,
    resendAge := ageNext (k == .resend) cs.resendReady cs.resendAge }

/-- What remains of a sheaf after a grain. -/
def Dealing.rest (d : Dealing) : Option Dealing :=
  if d.bytes.length ≤ 248 then none else some { d with bytes := d.bytes.drop 248, grain := d.grain + 1 }


/-! ### The stream class -/

/-- The on-die queue delivers the words of the grain to be dealt (R328): one that cannot be read passes the output into spill, and
the rest of the sheaf, from this grain on, comes from the replay partition. -/
def State.queueGrain (s : State) (c : Conc) (reads : Reads) : State :=
  let s := s.each reads (fun s x => s.countRead (pgDINTG c) 2 x.1 x.2)
  if reads.any (fun x => x.2 == .uncorrectable) then
    let s := s.enterSpill c 1
    s.setConc c { s.conc c with stream := (s.conc c).stream.map (fun d => { d with reread := true }) }
  else s

/-- Bytes of the sheaves formed from frame a up to but not including b. -/
def ConcSt.bytesFrom (cs : ConcSt) (a b : Nat) : Nat :=
  ((cs.metas.filter (fun m => decide (a ≤ m.frame) && decide (m.frame < b))).map (fun m => 48 + 7 * m.words)).sum

/-- Read-back passes over sheaves not held (R501) and takes the next that is held. -/
def State.passOver (s : State) (c : Conc) : State :=
  let cs := s.conc c
  let n := ((List.range (cs.nextForm - cs.sendNext)).find? (fun k => s.held c (cs.sendNext + k))).getD
    (cs.nextForm - cs.sendNext)
  if n = 0 then s
  else
    (((s.skipUnsent c n).setConc c { cs with
      sendNext := cs.sendNext + n, unsent := cs.unsent - cs.bytesFrom cs.sendNext (cs.sendNext + n) }).modeReturn c).showBacklog
        c

/-- A sheaf is read from the replay partition for the stream class, from grain k on; an error may freeze the controller. -/
def State.readStream (s : State) (c : Conc) (m : SheafMeta) (k : Nat) (units : Reads) : State :=
  let s := (s.sheafRead c m.frame m.pos (unitsOf (48 + 7 * m.words)) ((s.conc c).mc.clsOf .spill) units).served c .spill
  if (s.conc c).merging then
    s.setConc c { s.conc c with stream := some { frame := m.frame, bytes := (s.readSheaf c m).drop (248 * k), grain := k } }
  else s

/-- The next stream sheaf begins: from the queue in direct mode, else from the replay partition. -/
def State.beginStream (s : State) (c : Conc) (units : Reads) : State :=
  if s.outMode c = 0 then
    match (s.conc c).queue with
    | (n, b) :: r => s.setConc c { s.conc c with queue := r, stream := some { frame := n, bytes := b, grain := 0 } }
    | [] => s
  else
    let s := s.passOver c
    let cs := s.conc c
    match cs.metaOf cs.sendNext with
    | some m => if cs.sendNext < cs.nextForm then s.readStream c m 0 units else s
    | none => s

/-- The rest of a sheaf that the queue could not deliver is read from the replay partition, once its group serves it. -/
def State.rereadStream (s : State) (c : Conc) (units : Reads) : State :=
  match (s.conc c).stream with
  | some d =>
    if d.reread && s.spillServed c then
      (match (s.conc c).metaOf d.frame with | some m => s.readStream c m d.grain units | none => s)
    else s
  | none => s

/-- The stream sheaf being dealt, begun where none is, with the words of its next grain as they are read. -/
def State.streamSheaf (s : State) (c : Conc) (reads : GrainReads) : State :=
  let s := if (s.conc c).stream.isSome then s else s.beginStream c reads.units
  (if s.outMode c = 0 then s.queueGrain c reads.queue else s).rereadStream c reads.units

/-- A stream grain is sent, with its last a sheaf: NEXT_SEND, the backlog, less the sheaf's bytes as it was formed, and the
returns of R129. -/
def State.streamSent (s : State) (c : Conc) (d : Dealing) : State :=
  let cs := s.conc c
  let s := if d.rest.isNone then
      s.setConc c { cs with
        sendNext := d.frame + 1, unsent := cs.unsent - cs.bytesFrom d.frame (d.frame + 1), spillSince := s.now }
    else s
  (s.modeReturn c).showBacklog c

/-- Deals a grain of the stream class. -/
def State.dealStream (s : State) (c : Conc) (reads : GrainReads) : State :=
  let s := s.streamSheaf c reads
  match (s.conc c).stream with
  | some d =>
    if d.reread || !(s.conc c).merging then s else
    let s := if d.grain = 0 then s.takeMask c else s
    match nextLane (s.conc c).dealMask (s.conc c).lastLane with
    | some lane =>
      let s := s.setConc c { s.conc c with stream := d.rest }
      let s := ((s.countGrain c .stream lane).startsWith c .stream d).driveGrain c lane (grainBytes c .stream d lane)
      let s := s.streamSent c d
      if d.rest.isNone then s.restMask c else s
    | none => s
  | none => s

/-! ### Glean and re-send classes -/

/-- A glean stops being outstanding (R189). -/
def State.gleanDone (s : State) (c : Conc) (num : Nat) : State :=
  let cs := s.conc c
  let acc := cs.gleans.any (fun g => g.formed && g.trig.num == num && !g.refused)
  let s := s.setConc c { cs with gleans := cs.gleans.filter (fun g => !(g.formed && g.trig.num == num)) }
  if acc then s.put (pgGLEAN c) Reg.GLEAN.QUEUE_STAT_OUTSTANDING (s.stored (pgGLEAN c) Reg.GLEAN.QUEUE_STAT_OUTSTANDING - 1)
  else s

/-- The glean sheaf being dealt, or the next. -/
def ConcSt.gleanSheaf (cs : ConcSt) : Option (Dealing × Option Nat) × List GleanSheaf :=
  match cs.gleanCur, cs.gleanQ with
  | some x, q => (some x, q)
  | none, g :: q => (some ({ frame := g.frame, bytes := g.bytes, grain := 0 }, g.ends), q)
  | none, [] => (none, [])

/-- Deals a grain of the glean class. -/
def State.dealGlean (s : State) (c : Conc) : State :=
  match (s.conc c).gleanSheaf, nextLane (s.conc c).dealMask (s.conc c).lastLane with
  | (some (d, ends), q), some lane =>
    let s := s.setConc c { s.conc c with gleanQ := q, gleanCur := d.rest.map (fun r => (r, ends)) }
    let s := (s.countGrain c .glean lane).driveGrain c lane (grainBytes c .glean d lane)
    match d.rest, ends with
    | none, some n => s.gleanDone c n
    | _, _ => s
  | _, _ => s

/-- Deals a grain of the re-send class. -/
def State.dealResend (s : State) (c : Conc) : State :=
  match (s.conc c).resendCur, nextLane (s.conc c).dealMask (s.conc c).lastLane with
  | some d, some lane =>
    let s := s.setConc c { s.conc c with resendCur := d.rest }
    ((s.countGrain c .resend lane).driveGrain c lane (grainBytes c .resend d lane)).showResend c
  | _, _ => s

/-- DEAL_GRAIN: at a module time the scheduler deals the next grain, whether or not the concentrator drives its lanes (R132,
R165). -/
def State.dealGrain (s : State) (c : Conc) (reads : GrainReads) (at_ : Nat) : State :=
  let s := s.advance at_
  if (s.conc c).merging && !((s.conc c).stream.isNone && s.actMask c == 0) then
    match s.nextClass c with
    | some .stream => s.dealStream c reads
    | some .glean => s.dealGlean c
    | some .resend => s.dealResend c
    | none => s
  else s

/-- TAKE_START: the new holder's lanes are ready and no stream sheaf is partly dealt; the next is the first it sends
(R274). -/
def State.takeStart (s : State) (c : Conc) : State :=
  let cs := s.conc c
  if s.driving c && s.holder == some c && !cs.sending && cs.stream.isNone && s.lanesData c then
    ((s.setConc c { cs with sending := true, firstDue := true }).put (pgSTEP c) Reg.STEP.TAKE_START (sheafOf cs.sendNext)).event (pgSTEP c) 3
  else s

end Sys2Proof.Machine
end

