-- ==== Sys2Proof/Machine/InStep.lean ====
section
/-!
DEFINITION. In-step concentrators and the stick (R257-R281): digests and pair states, tolls and eligibility, the lease,
lapses and GUARD, host grants and revokes, rejoining.
-/

namespace Sys2Proof.Machine

/-! ### Digests and pair states (R260-R263, R278) -/

/-- A mismatch is counted and recorded (R261). -/
def State.recordMismatch (s : State) (c : Conc) (n : Nat) (own part : BitVec 64) : State :=
  let p := pgSTEP c
  let s := (s.bump p Reg.STEP.DIV_CNT 0).put p Reg.STEP.DIGEST_SHEAF (sheafOf n)
  (((s.put p Reg.STEP.OWN_DIG_LO (own.toNat % 2 ^ 32)).put p Reg.STEP.OWN_DIG_HI (own.toNat / 2 ^ 32)).put p
    Reg.STEP.PART_DIG_LO (part.toNat % 2 ^ 32)).put p Reg.STEP.PART_DIG_HI (part.toNat / 2 ^ 32)

/-- A divergence episode starts (R261); the belfry journals it once for the pair. -/
def State.startEpisode (s : State) (c : Conc) (n : Nat) : State :=
  let p := pgSTEP c
  let once := s.pair c.other != 3
  let s := (((s.setPair c 3).put p Reg.STEP.DIV_FIRST (sheafOf n)).bump p Reg.STEP.DIV_EP_CNT 1).event p 0
  let s := s.setConc c { s.conc c with matches_ := 0 }
  if once then s.journalEvent 0xE3 resOK 0x0108 0x054 0 0 else s

/-- The episode ends with RECOVER matches in a row; the belfry journals it once neither concentrator reports it. -/
def State.endEpisode (s : State) (c : Conc) : State :=
  let s := ((s.setPair c 2).event (pgSTEP c) 1).setConc c { s.conc c with matches_ := 0 }
  if s.pair c.other = 3 then s else s.journalEvent 0xE4 resOK 0x0108 0x054 0 0

/-- The join conditions of R278 in the message of the running concentrator. -/
def joinDone (j : Nat) (m : CrossMsg) : Bool :=
  m.mode == 0 && decide (0 < signedDiff 32 m.nextSend (sheafOf j)) && m.oldGleans == 0

/-- The join is complete at sheaf n (R278). -/
def State.completeJoin (s : State) (c : Conc) (n : Nat) (same : Bool) (own part : BitVec 64) : State :=
  let cs := s.conc c
  let s := (s.setConc c { cs with run := if cs.run = .joining then .running else cs.run, joinAt := none,
                                  matches_ := 0 }).event (pgSTEP c) 4
  if same then s.setPair c 2 else (s.recordMismatch c n own part).startEpisode c n

/-- Compares the two digests of a sheaf (R260, R261, R278). -/
def State.compareOne (s : State) (c : Conc) (o p : CrossMsg) : State :=
  let a := o.digest.getD 0
  let b := p.digest.getD 0
  let same := a == b
  if s.pair c = 2 then
    (if same then s else (s.recordMismatch c o.frame a b).startEpisode c o.frame)
  else if s.pair c = 3 then
    (if same then
      let k := (s.conc c).matches_ + 1
      let s := s.setConc c { s.conc c with matches_ := k }
      if s.fld (pgSTEP c) Reg.STEP.STEP_CTRL_RECOVER ≤ k then s.endEpisode c else s
     else (s.recordMismatch c o.frame a b).setConc c { s.conc c with matches_ := 0 })
  else if s.pair c = 1 then
    (let m := if (s.conc c).run = .joining then p else o
     match (s.conc c).joinAt with
     | some j => if joinDone j m then s.completeJoin c o.frame same a b
                 else if same then s else s.recordMismatch c o.frame a b
     | none => s)
  else s

/-- Every sheaf of which both messages are held is compared, and the messages are dropped. -/
def State.compareAll (s : State) (c : Conc) : State :=
  let cs := s.conc c
  let pairs := cs.own.filterMap (fun o => (cs.partner.find? (fun p => p.frame == o.frame)).map (fun p => (o, p)))
  let done := pairs.map (fun x => x.1.frame)
  (s.setConc c { cs with own := cs.own.filter (fun o => !done.contains o.frame),
                         partner := cs.partner.filter (fun p => !done.contains p.frame) }).each pairs
    (fun s x => s.compareOne c x.1 x.2)

/-- CROSSLINK_MESSAGE: a concentrator takes its partner's next message (R260, R262). In SOLO it is ignored; that the partner froze
or entered reset counts also while it forms no sheaves itself. -/
def State.takeMessage (s : State) (c : Conc) : State :=
  match (s.conc c).inbox with
  | m :: r =>
    let s := s.setConc c { s.conc c with inbox := r }
    if s.pair c = 0 then s
    else if m.run = .frozen ∨ m.run = .reset ∨ m.digest = none then s.partnerLost c
    else if !(s.conc c).merging then s
    else
      (s.setConc c { s.conc c with partner := (s.conc c).partner ++ [m], partnerNext := m.frame + 1 }).compareAll c
  | [] => s

/-! ### Tolls and eligibility (R266, R267) -/

/-- Merge progresses (R266). -/
def State.healthMerge (s : State) (c : Conc) : Bool :=
  decide (s.stored (pgMERGE c) Reg.MERGE.LAG_FRAMES ≤ s.fld (pgMERGE c) Reg.MERGE.HORIZON_FRAMES + 1)

/-- A concentrator's toll at a boundary (R266, R267). -/
def State.toll (s : State) (c : Conc) : State :=
  if (s.conc c).run = .reset then
    ((s.setConc c { s.conc c with tolledBefore := false }).putB pgSTICK (tollReg c) false).showElig c
  else
    let p := pgSTEP c
    let hm := s.healthMerge c
    let hf := !s.dramFrozen c
    let hl := s.lanesUp c
    let t := hm && hf && hl
    let s := ((s.putB p Reg.STEP.STEP_STAT_H_MERGE hm).putB p Reg.STEP.STEP_STAT_H_FREEZE hf).putB p
      Reg.STEP.STEP_STAT_H_LANES hl
    let s := s.setConc c { s.conc c with tolledBefore := s.tollBit c }
    let s := s.putB pgSTICK (tollReg c) t
    (if t then s else s.bump p Reg.STEP.TOLL_MISS_CNT 2).showElig c

/-! ### The lease (R265-R272) -/

def State.stickState (s : State) : Nat := s.stored pgSTICK Reg.STICK.STAT_STATE

/-- The arbiter's deadline, its registers and the holder's copy. -/
def State.setDeadline (s : State) (c : Conc) (d : Nat) : State :=
  let s := { s with stick := { s.stick with deadline := d } }
  let s := (s.put pgSTICK Reg.STICK.DEADLINE_LO (coarseOf d % 2 ^ 32)).put pgSTICK Reg.STICK.DEADLINE_HI (coarseOf d / 2 ^ 32)
  s.setConc c { s.conc c with deadline := some d }

/-- The lease of a grant or toll that names frame f (R265). -/
def State.leaseEnd (s : State) (f : Nat) : Nat := f * frameTref + s.fld pgSTICK Reg.STICK.LEASE_US * usTref

/-- The stick is granted (R265, R268, R272). -/
def State.grant (s : State) (c : Conc) : State :=
  let s := (s.put pgSTICK Reg.STICK.STAT_STATE 1).put pgSTICK Reg.STICK.STAT_HOLDER c.idx
  let s := (s.bump pgSTICK Reg.STICK.GRANT_CNT 0).event pgSTICK 0
  let s := { s with stick := { s.stick with target := none, noAuto := false } }
  ((s.setDeadline c (s.leaseEnd s.frame)).putB (pgSTEP c) Reg.STEP.STEP_STAT_HOLDER true).showDriving c

/-- The arbiter enters GUARD at module time t: the holder's lane-enable falls and its lanes go idle (R268, R269). -/
def State.enterGuard (s : State) (c : Conc) (t : Nat) : State :=
  let s := { s with stick := { s.stick with guardEnd := t + 3200, former := c } }
  (((s.put pgSTICK Reg.STICK.STAT_STATE 2).putB (pgSTEP c) Reg.STEP.STEP_STAT_HOLDER false).showDriving c).forceIdle c

/-- The lease lapses (R269). -/
def State.lapse (s : State) (c : Conc) : State :=
  let d := s.stick.deadline
  let s := { s with stick := { s.stick with target := none, noAuto := false } }
  let s := ((s.bump pgSTICK Reg.STICK.LAPSE_CNT 2).put pgSTICK Reg.STICK.LAST_LAPSE (sheafOf (frameOfTref d))).event pgSTICK 1
  (s.journalEvent 0xE1 resOK 0x0007 0x058 0 0).enterGuard c d

/-- LEASE_LAPSE: module time has reached the deadline. -/
def State.leaseLapse (s : State) (at_ : Nat) : State :=
  match s.holder with
  | some c => if s.stick.deadline ≤ at_ then (s.advance at_).lapse c else s
  | none => s

/-- A stick command's outcome is known: a STICK command is journaled and answered; a write of CMD that is refused has a
further entry (R270, R500). -/
def State.stickOutcome (s : State) (x : StickCmd) (r : Nat) : State :=
  let s := if r = resREFUSED then (s.bump pgSTICK Reg.STICK.REFUSE_CNT 4).event pgSTICK 3 else s
  if x.isWrite && r == resOK then s
  else
    let (n, s) := s.append { seq := 0, time := x.time, port := x.port, master := x.master, code := 0x30, result := r,
                             page := 0x0007, off := 0x048, digest := x.digest, aux := 0, poison := false }
    if x.isWrite then s
    else s.answerHeld (if x.port = 1 then .um1 else .um0) x.tag 0x30 r n

def concOfBit (b : Bool) : Conc := if b then .b else .a

/-- A grant that targets GUARD's end and is replaced there or by a revoke is refused. -/
def State.dropTarget (s : State) : State :=
  match s.stick.target with
  | some x => ({ s with stick := { s.stick with target := none } } : State).stickOutcome x resREFUSED
  | none => s

/-- A host grant at the boundary of its delivery (R270). -/
def State.hostGrant (s : State) (x : StickCmd) : State :=
  let c := concOfBit x.target
  if s.stickState = 2 then
    let s := s.dropTarget
    { s with stick := { s.stick with target := some x, noAuto := false } }
  else if !s.eligible c || s.holder == some c then s.stickOutcome x resREFUSED
  else match s.holder with
    | some h =>
      let s := (s.bump pgSTICK Reg.STICK.REVOKE_CNT 1).enterGuard h (s.frame * frameTref)
      { s with stick := { s.stick with target := some x, noAuto := false } }
    | none => (s.grant c).stickOutcome x resOK

/-- A host revoke (R270). -/
def State.hostRevoke (s : State) (x : StickCmd) : State :=
  if s.stickState = 0 then s.stickOutcome x resREFUSED
  else
    let s := s.bump pgSTICK Reg.STICK.REVOKE_CNT 1
    let s := match s.holder with
      | some h => s.enterGuard h (s.frame * frameTref)
      | none => s.dropTarget
    ({ s with stick := { s.stick with target := none, noAuto := true } } : State).stickOutcome x resOK

/-- A stick command at the boundary of its delivery; OP 0b00 and 0b11 do nothing. -/
def State.stickCommand (s : State) (x : StickCmd) : State :=
  if x.op = 1 then s.hostGrant x else if x.op = 2 then s.hostRevoke x else s.stickOutcome x resOK

/-- The automatic grant at GUARD's end (R269). -/
def State.autoGrant (s : State) : State :=
  let c := s.stick.former.other
  if s.flag pgSTICK Reg.STICK.CTRL_AUTO && s.eligible c then (s.bump pgSTICK Reg.STICK.AUTO_CNT 3).grant c
  else (s.put pgSTICK Reg.STICK.STAT_STATE 0).event pgSTICK 2

/-- The end of GUARD (R269, R270). -/
def State.endGuard (s : State) : State :=
  match s.stick.target with
  | some x =>
    let s := { s with stick := { s.stick with target := none } }
    if s.eligible (concOfBit x.target) then (s.grant (concOfBit x.target)).stickOutcome x resOK
    else (s.put pgSTICK Reg.STICK.STAT_STATE 0).stickOutcome x resREFUSED
  | none =>
    if s.stick.noAuto then
      ({ s with stick := { s.stick with noAuto := false } } : State).put pgSTICK Reg.STICK.STAT_STATE 0
    else s.autoGrant

/-- GUARD_END. -/
def State.guardEndAt (s : State) (at_ : Nat) : State :=
  if s.stickState = 2 ∧ s.stick.guardEnd ≤ at_ then (s.advance at_).endGuard else s

/-- DEADLINE_COPY_EXPIRY: a concentrator's own copy of the deadline has passed (R268). -/
def State.copyExpiry (s : State) (c : Conc) (at_ : Nat) : State :=
  match (s.conc c).deadline with
  | some d => if d ≤ at_ then (s.advance at_).forceIdle c else s
  | none => s

/-- The stick at the boundary that begins frame f (R266-R270): a deadline reached lapses before the tolls; the holder's toll
renews; then the accepted commands. -/
def State.stickBoundary (s : State) (f : Nat) : State :=
  let s := s.guardEndAt (f * frameTref)
  let s := s.leaseLapse (f * frameTref)
  let s := s.each concs (·.toll ·)
  let s := match s.holder with
    | some c => if s.tollBit c then s.setDeadline c (s.leaseEnd f) else s
    | none => s
  let cmds := s.stick.cmds
  ({ s with stick := { s.stick with cmds := [] } } : State).each cmds (·.stickCommand ·)

/-- The start grant at Ready (R273). -/
def State.startGrant (s : State) : State :=
  if s.flag pgSTICK Reg.STICK.CTRL_AUTO && s.stickState == 0 then
    (if s.eligible .a then s.grant .a else if s.eligible .b then s.grant .b else s)
  else s

/-! ### Reset and rejoin (R262, R277-R280) -/

/-- DIES (R415): what answers now. -/
def State.diesNow (s : State) : Nat :=
  let t (x : Fin 16) : Nat := if s.pwr (pgTILE x) = 0 then 0 else 2 ^ x.val
  let c (x : Conc) : Nat :=
    let k := s.conc x
    if k.run = .reset then 0
    else 2 ^ (16 + x.idx) + (if k.run = .loading ∧ k.loaded = false then 0 else 2 ^ (18 + x.idx))
  (allTiles.map t).sum + c .a + c .b + (if s.flag pgINTG Reg.INTG.ST_STAT_BELFRY then 2 ^ 20 else 0)

/-- DIES follows, and DIE_LOST is set when a bit falls (R416). -/
def State.showDies (s : State) : State :=
  let old := s.stored pgMOD Reg.MOD.DIES
  let new := s.diesNow
  if old = new then s
  else (s.put pgMOD Reg.MOD.DIES new).eventIf ((List.range 21).any (fun i => old.testBit i && !new.testBit i)) pgMOD 3

/-- A concentrator enters reset: its logic, memories and registers are lost but for what MRAM and the belfry keep, its tolls at
the last two boundaries among that (R267); its partner hears of it; its lanes are idle. -/
def State.resetConc (s : State) (c : Conc) : State :=
  let s := s.forgetFailure c
  if (s.conc c).run = .reset then s
  else
    let s := s.forceIdle c
    let cs := s.conc c
    let m : CrossMsg := { frame := cs.nextForm, digest := none, mode := 0, nextSend := 0, gleans := 0, oldGleans := 0,
                          run := .reset }
    let s := s.sendCross c m
    let ceil := s.stored (pgMERGE c) Reg.HDR.PWR_STATE_CEIL
    let keep := s.regs.filter (fun e => decide (e.1 / 4096 = pgDINTG c ∧ 0x400 ≤ e.1 % 4096))
    let s := (s.resetPages (pgConc c) (pgConc c + 0x100)).put (pgMERGE c) Reg.HDR.PWR_STATE_CEIL ceil
    let s := s.each keep (fun s e => s.wr (e.1 / 4096) (e.1 % 4096) e.2)
    let s := { s with scrubs := mapDel (pgDINTG c) s.scrubs }
    let s := s.setConc c { retR := cs.retR, retS := cs.retS, tolledBefore := cs.tolledBefore }
    ((s.putB pgSTICK (eligReg c) (s.eligible c)).showDies).checkSwap

/-- Pages on which an enabled event bit is set already as their settings are loaded are queued (R374, R455, R470). -/
def State.queuePending (s : State) (lo hi : Nat) : State :=
  s.each ((s.regs.filter (fun e => decide (lo ≤ e.1 / 4096) && decide (e.1 / 4096 < hi) &&
      e.1 % 4096 == Reg.HDR.EVT_PENDING.off)).map (fun e => e.1 / 4096)) (fun s p =>
    if s.rd p Reg.HDR.EVT_PENDING.off &&& s.rd p Reg.HDR.EVT_ENABLE.off = 0 then s else s.queueEvent p)

/-- Registers of a die's pages take the recorded settings (R277, R409, R471). -/
def State.loadSettings (s : State) (lo hi : Nat) : State :=
  s.each (s.saved.filter (fun e => decide (lo ≤ e.1 / 4096) && decide (e.1 / 4096 < hi))) (fun s e =>
    let page := e.1 / 4096
    let off := e.1 % 4096
    match regAt page off with
    | some d =>
      let m := d.mask Access.isSetting
      s.wr page off ((s.rd page off &&& ~~~m) ||| (e.2 &&& m))
    | none => s) |>.queuePending lo hi

/-- The correction entries in force as a concentrator that is filled takes them from MRAM (R277): those of tiles that have had
their swap since the start (R472). -/
def State.tablesInForce (s : State) : List (Nat × BitVec 128) := s.mramCorr.filter (fun e => s.tablesServe (e.1 / 4096))

/-- The memories of a concentrator and its stack are filled and loaded (R277, R325): settings, the tables in force from
MRAM, the staging of a running partner or the recorded writes. One that comes back within its lease reads HOLDER again. -/
def State.fillConc (s : State) (c : Conc) : State :=
  let cs := s.conc c
  let o := s.conc c.other
  let s := s.setConc c { run := .loading, loaded := true, retR := cs.retR, retS := cs.retS, corr := s.tablesInForce,
                         tolledBefore := cs.tolledBefore, deadline := cs.deadline, tx := cs.tx, tests := cs.tests,
                         mc := { trained := cs.mc.trained, timing := cs.mc.timing, settings := cs.mc.settings },
                         corrStaged := if o.merging then o.corrStaged else [],
                         stagedBad := if o.merging then o.stagedBad else [] }
  let s := if o.merging then s else s.each s.savedCorr (fun s e => s.stageEntry c e.1 e.2)
  let s := (s.putB (pgDRAM c) Reg.DRAM.HOST_CTRL_BUSY false).showWbuf c
  let s := ((s.loadClassK (pgConc c) (pgConc c + 0x100)).loadSettings (pgConc c) (pgConc c + 0x100)).showRetired c
  let s := s.each (List.range 24) (fun s r => s.put (pgDINTG c) (regionReg Reg.DINTG.BKT_LEVEL r) 0)
  let s := { s with lastCorr := s.lastCorr.filter (fun e => e.1 / 64 != pgDINTG c) }
  let s := s.put (pgCORR c) Reg.CORR.SWAP_EPOCH_EPOCH (s.stored pgJRNL Reg.JRNL.PEAL_STAT_EPOCH)
  let s := ((s.putB (pgSTEP c) Reg.STEP.STEP_STAT_HOLDER (s.holder == some c)).showDriving c).showElig c
  (((((s.govSettle c).showStaged c).showRemap (pgDINTG c)).restoreLanes c).showDies).checkSwap

/-- A concentrator is filled and its interface trained, and a pinned point taken (R298, R304, R308). -/
def State.trainFilled (s : State) (c : Conc) : State := ((s.fillConc c).trainStart c).pinPoint c

/-- A concentrator is held in reset: by PWR.CONC_HOLD (R475), by a latched converter fault (R467), until it or its stack
has recovered (R466), or by a start that has not come to it or a recovery loader (R457, R470). -/
def State.heldOff (s : State) (c : Conc) : Bool :=
  s.flag pgPWR (match c with | .a => Reg.PWR.CONC_HOLD_HOLD_A | .b => Reg.PWR.CONC_HOLD_HOLD_B) ||
    s.flag pgPWR (match c with | .a => Reg.PWR.CONV_FAULT_CONC_A | .b => Reg.PWR.CONV_FAULT_CONC_B) ||
    s.flag pgPWR (match c with | .a => Reg.PWR.CONV_FAULT_STACK_A | .b => Reg.PWR.CONV_FAULT_STACK_B) ||
    s.pow.hot.contains (.conc c) || s.pow.hot.contains (.stack c) || s.pow.mode != .on ||
    s.stored pgFWU Reg.FWU.STAT_C_STATE == 3

/-- What a die that is loaded reads of MRAM (R321): the class K image where it cannot be read serves no one (R455, R458). -/
def State.loadMram (s : State) (l : Reads) (classKOk : Bool) : State :=
  let s := s.readMram l
  if classKOk then s else s.classKUnread

/-- A concentrator that has passed its self-test is filled, trained, loaded and given its lane settings (R277, R304, R352). -/
def State.bringUp (s : State) (c : Conc) (board : Nat) : State :=
  let s := (s.setConc c { s.conc c with run := .loading }).trainFilled c
  (s.startLanes c board (s.laneTable board)).put (pgMERGE c) Reg.HDR.PWR_STATE_STATE (nextPower 0 (s.effCeil (pgMERGE c)))

/-- REJOIN: a concentrator that leaves reset runs its self-test and fill; one whose freeze was released fills; the belfry
loads it (R277, R324). A ceiling of OFF keeps it in reset (R16), and so does a failed self-test until its next reset. -/
def State.rejoin (s : State) (c : Conc) (start : ConcStart) (board : Nat) : State :=
  let cs := s.conc c
  if cs.run = .reset && !s.heldOff c && !s.integ.failed.contains c && decide (1 ≤ s.effCeil (pgMERGE c)) then
    let s := s.concChecked c start.pass
    if checkersPass start.pass then
      let s := s.loadMram start.mram start.classKOk
      if s.pow.mode = .on then s.bringUp c board else s
    else s
  else if cs.run = .loading && !cs.loaded then s.trainFilled c
  else s

/-- The first frame from n on whose number is a multiple of m. -/
def roundUp (n m : Nat) : Nat := (n + m - 1) / m * m

/-- The join sheaf of a concentrator whose loading has finished (R277). -/
def State.joinFrame (s : State) (c : Conc) : Nat :=
  let m := if s.flag (pgMERGE c) Reg.MERGE.SUMM_CTRL_ENABLE then 2 ^ s.fld (pgMERGE c) Reg.MERGE.SUMM_CTRL_K else 1
  let swap := match s.cal.swap with | some w => if w.committed then w.frame + 1 else 0 | none => 0
  roundUp (max (s.frame + 8) swap) m

/-- A concentrator waits to join. -/
def ConcSt.waitsJoin (cs : ConcSt) : Bool := cs.run == .loading && cs.loaded && cs.joinAt.isNone

/-- The running partner of a joiner enters JOINING with the join sheaf of frame j. -/
def State.joinPartner (s : State) (c : Conc) (j : Nat) : State :=
  let o := s.conc c.other
  if o.run = .running ∧ s.pair c.other ≠ 1 then
    (s.setConc c.other { o with joinAt := some j, own := [], partner := [], partnerNext := j, matches_ := 0 }).setPair c.other 1
  else s

/-- The belfry chooses the join sheaf of c; it and a running partner set PAIR to JOINING (R263). -/
def State.chooseJoin (s : State) (c : Conc) : State :=
  let j := s.joinFrame c
  let s := s.each concs (fun s k => s.put (pgSTEP k) Reg.STEP.JOIN_AT (sheafOf j))
  let s := (s.setConc c { s.conc c with joinAt := some j }).setPair c 1
  (s.joinPartner c j).checkSwap

/-- JOIN_SHEAF_CHOOSE, while frames run: a concentrator filled before the first frame begins with that (R472). -/
def State.joinSheafChoose (s : State) : State :=
  if !s.running then s
  else if s.concA.waitsJoin then s.chooseJoin .a else if s.concB.waitsJoin then s.chooseJoin .b else s

/-- The words in transfer at a concentrator's cut ports have been acknowledged (R277): the next boundary resumes them. -/
def State.ackCutPorts (s : State) (c : Conc) : State :=
  s.each allTiles (fun s t =>
    let p := s.port t c
    if p.cut then
      (s.setPort t c { p with lateAcked := true, late := none }).put (pgPORTS t) (portReg Reg.PORTS.PSTAT_FILL c) 0
    else s)

/-- In frame J − 1, before the boundary that begins frame f = J, a joiner acknowledges what its cut ports hold in transfer. -/
def State.ackJoiner (s : State) (f : Nat) (c : Conc) : State :=
  if (s.conc c).run = .loading && (s.conc c).joinAt == some f then s.ackCutPorts c else s

/-- Status of a joiner's empty queues: direct mode, nothing outstanding, no tile behind. -/
def State.freshStatus (s : State) (c : Conc) : State :=
  let s := (s.put (pgSHEAF c) Reg.SHEAF.SPILL_STAT_MODE 0).put (pgGLEAN c) Reg.GLEAN.QUEUE_STAT_OUTSTANDING 0
  let s := (s.putB (pgGLEAN c) Reg.GLEAN.ACTIVE_BUSY false).put (pgMERGE c) Reg.MERGE.PRESENT_BEHIND 0
  (((s.showResend c).showBacklog c).showLag c).showWbuf c

/-- What a joiner holds of a tile from frame f on (R210, R217, R277): a port that was never cut goes on, and the parity is the
tile's. -/
def State.joinRx (s : State) (c : Conc) (f : Nat) (t : Fin 16) : State :=
  let here := !(s.tile t).absent && !(s.port t c).cut
  s.setRx c t { s.rx c t with since := if here then some f else none, parity := (s.tile t).parity }

/-- At boundary J the joiner begins to form sheaves (R277): VALID_FROM and both rings begin at J. With no running partner nothing
is left to compare: it is SOLO from J (DESIGN CHOICE, log 54). -/
def State.joinBoundary (s : State) (f : Nat) (c : Conc) : State :=
  let cs := s.conc c
  if cs.run = .loading && cs.joinAt == some f then
    let both := decide ((s.conc c.other).run = .running)
    let s := (s.setConc c { cs with
      run := if both then .joining else .running, joinAt := if both then some f else none,
      nextForm := f, validR := f, validS := f, sendNext := f, partnerNext := f }).each allTiles (fun s t => s.joinRx c f t)
    let s := if both then (s.setPair c 1).joinPartner c f else s.setPair c 0
    (((s.freshStatus c).put (pgSTEP c) Reg.STEP.VALID_FROM (sheafOf f)).showReplayFrom c f).showShadowFrom c f
  else s

/-! ### What is powered (R477) -/

/-- Bit n of a register's field shown as a flag. -/
def State.bitAt (s : State) (page : Nat) (f : FieldRef) (n : Nat) : Bool := (s.stored page f).testBit n

/-- PG: the converters with their rails in range (R477). -/
def State.showPg (s : State) : State :=
  let tile (t : Fin 16) : Bool := (s.tile t).power != .off && !s.bitAt pgPWR Reg.PWR.CONV_FAULT_TILE t.val
  let mask := (allTiles.map (fun t => if tile t then 2 ^ t.val else 0)).sum
  let s := (s.put pgPWR Reg.PWR.PG_TILE mask).putB pgPWR Reg.PWR.PG_BELFRY s.powered
  let s := s.putB pgPWR Reg.PWR.PG_BUS s.powered
  let s := (s.putB pgPWR Reg.PWR.PG_CONC_A (s.pow.railA && !s.flag pgPWR Reg.PWR.CONV_FAULT_CONC_A)).putB pgPWR
    Reg.PWR.PG_CONC_B (s.pow.railB && !s.flag pgPWR Reg.PWR.CONV_FAULT_CONC_B)
  (s.putB pgPWR Reg.PWR.PG_STACK_A (s.pow.railA && !s.flag pgPWR Reg.PWR.CONV_FAULT_STACK_A)).putB pgPWR
    Reg.PWR.PG_STACK_B (s.pow.railB && !s.flag pgPWR Reg.PWR.CONV_FAULT_STACK_B)

/-- The rails of a concentrator and its stack. -/
def State.setRail (s : State) (c : Conc) (on : Bool) : State :=
  match c with
  | .a => { s with pow := { s.pow with railA := on } }
  | .b => { s with pow := { s.pow with railB := on } }

/-! ### CONC_HOLD (R475) -/

/-- A concentrator's hold as it comes into force at a boundary: held in reset without power, or powered and to rejoin. -/
def State.holdBoundary (s : State) (c : Conc) : State :=
  let h := s.flag pgPWR (match c with | .a => Reg.PWR.CONC_HOLD_HOLD_A | .b => Reg.PWR.CONC_HOLD_HOLD_B)
  let on := match c with | .a => s.pow.railA | .b => s.pow.railB
  if h && on then ((s.resetConc c).setRail c false).showPg
  else if !h && !on && s.pow.mode == .on && s.stored pgFWU Reg.FWU.STAT_C_STATE != 3 then (s.setRail c true).showPg
  else s

end Sys2Proof.Machine
end

