-- ==== Sys2Proof/Machine/Cals.lean ====
section
/-!
DEFINITION. Calibration on live traffic (R201-R227): histograms, change ringing, residuals and fits, staging, swaps,
withdrawals, warm-up and restoring swaps.
-/

namespace Sys2Proof.Machine

/-! ### Turns (R201-R204) -/

/-- No turn runs and none waits for its swap: the next tile that can be is taken in turn (R202), the search going on from the
tile that had the last turn (DESIGN CHOICE, log 61). -/
def State.turnIfNone (s : State) : State :=
  if s.running && !s.cal.turnOn && s.cal.results.isEmpty && s.cal.staged.isNone && s.cal.warm.isEmpty then
    s.beginTurn (s.turnTile.val)
  else s

/-! ### Side items (R203, R210) -/

/-- Adds 1 to a saturating bin. -/
def addBin (max k : Nat) (m : List (Nat × Nat)) : List (Nat × Nat) × Bool :=
  let v := mapGetD 0 k m
  if v < max then (mapPut k (v + 1) m, false) else (m, true)

/-- A physics side item of the tile in turn enters the histograms of a concentrator. -/
def State.addHist (s : State) (c : Conc) (t : Fin 16) (chan tap code : Nat) : State :=
  let cs := s.conc c
  let h := addBin 65535 (chan * 256 + code) cs.hist
  let k := addBin (2 ^ 32 - 1) (t.val * 64 + tap) cs.tapHist
  let s := s.setConc c { cs with hist := h.1, tapHist := k.1 }
  if h.2 || k.2 then s.overflow pgCALS 7 else s

/-- A side item is added to the histograms (R203). -/
def State.histAccepts (s : State) (c : Conc) (t : Fin 16) (kind : Nat) (gen : Bool) (chan : Nat) : Bool :=
  s.cal.turnOn && s.turnTile == t && s.flag pgCALS Reg.CALS.CTRL_CD_EN &&
    ((kind == 1 && s.flag pgCALS Reg.CALS.CTRL_CD_STREAM) || (kind == 3 && s.flag pgCALS Reg.CALS.CTRL_CD_SHADOW)) &&
    gen == (s.rx c t).parity && !s.isMasked chan && !s.isSelfMasked chan

/-! ### Change ringing (R208, R209) -/

/-- g of a frame's sheaf number, where it is a step frame. -/
def State.stepOf (s : State) (frame : Nat) : Option Nat :=
  let l := s.fld pgCALS Reg.CALS.RING_STEP_LOG
  if s.flag pgCALS Reg.CALS.CTRL_RING_EN && sheafOf frame % 2 ^ l == 0 then some (sheafOf frame / 2 ^ l) else none

/-- Step, round and launch tap of g. -/
def ringStep (g : Nat) : Nat := g % 16
def ringRound (g : Nat) : Nat := g / 16
def ringTap (g : Nat) : Nat := (29 * ringRound g + 5 * ringStep g) % 64
/-- The channel of cell j. -/
def ringChan (g j : Nat) : Nat := (5 * ringStep g + 3 * j + ringRound g) % 16

/-- Levels that NLEV selects, and the level index of a round. -/
def State.levels (s : State) : Nat := 2 ^ s.fld pgCALS Reg.CALS.RING_NLEV
def State.levelIndex (s : State) (g : Nat) : Nat := ringRound g % s.levels

/-- Launches into a list of channels of a tile at a tap-time (R43, R44, R208). -/
def State.launchAll (s : State) (chans : List Nat) (tap : Nat) : State :=
  s.each chans (fun s chan =>
    if s.canInject chan tap then
      let s := s.launch chan tap
      { s with cal := { s.cal with launches := s.cal.launches ++ [{ chan := chan, launch := tap, hit := none }] } }
    else s.bump pgCALS Reg.CALS.SKIP_CNT 2)

/-- The channels that a FIRE selects (R45). -/
def State.fireChans (s : State) (page base : Nat) : List Nat :=
  (List.range 256).filterMap (fun i =>
    if (s.fld page Reg.BLOCK.INJ_CTRL_CELLS).testBit (i / 16) && s.chFlag (base + i) Reg.BLOCK.CH_CFG_INJ_EN then
      some (base + i) else none)

/-- The schedule's injections of a step frame in a block whose MODE in force is 0 (R208). -/
def State.launchScheduled (s : State) (t b : Fin 16) : State :=
  let page := pgBLOCK t b
  let base := t.val * 4096 + b.val * 256
  match s.stepOf s.frame with
  | some g =>
    if s.flag page Reg.BLOCK.INJ_CTRL_MODE || s.pwr page < 2 || s.pwr (pgTILE t) < 2 then s
    else s.launchAll ((List.range 16).map (fun j => base + j * 16 + ringChan g j))
      (s.frame * 262144 + s.fld pgCALS Reg.CALS.RING_SLOT_COARSE * 64 + ringTap g)
  | none => s

/-- INJECTION_LAUNCH: a block launches the FIRE pending for this frame, or in a step frame the schedule's injections (R45, R208).
A FIRE accepted in this frame launches in the next. -/
def State.injectionLaunch (s : State) (t b : Fin 16) : State :=
  let page := pgBLOCK t b
  let base := t.val * 4096 + b.val * 256
  match mapFind page s.cal.fires with
  | some f =>
    if f ≤ s.frame then
      let s := ({ s with cal := { s.cal with fires := mapDel page s.cal.fires } } : State).putB page
        Reg.BLOCK.INJ_CTRL_BUSY false
      s.launchAll (s.fireChans page base)
        (f * 262144 + s.fld page Reg.BLOCK.INJ_TIME_COARSE * 64 + s.fld page Reg.BLOCK.INJ_TIME_TAP)
    else s.launchScheduled t b
  | none => s.launchScheduled t b

/-- INJ_CTRL.FIRE as a write of it is accepted: ignored unless MODE is 1, and while one is pending (R45, R499). -/
def State.fire (s : State) (page : Nat) : State :=
  if s.stored page Reg.BLOCK.INJ_CTRL_MODE = 1 ∧ (mapFind page s.cal.fires).isNone = true then
    ({ s with cal := { s.cal with fires := mapPut page (s.frame + 1) s.cal.fires } } : State).putB page
      Reg.BLOCK.INJ_CTRL_BUSY true
  else s

/-- INJ_BLIND_EXPIRY: no leading edge came within 32 T_ref of the launch (R44, R220). -/
def State.blindExpiry (s : State) (chan t : Nat) : State :=
  if s.blindOver chan t then
    match (s.chan chan).inj with
    | some i => ((s.advance (t / 64)).launchBlind chan i.launch).endInject chan
    | none => s
  else s

/-! ### Residuals (R210, R211) -/

/-- WB of an entry, T of a record: u. -/
def fitU (wb tot : Nat) : Rat := if 4 * tot + wb = 0 then 4 else 4 / ((4 * tot + wb : Nat) : Rat)

/-- Adds a record to a channel's sums. -/
def CalSums.add (a : CalSums) (u res : Rat) (tot code level : Nat) : CalSums :=
  let t : Rat := tot
  { n := a.n + 1, u := a.u + u, t := a.t + t, uu := a.uu + u * u, ut := a.ut + u * t, tt := a.tt + t * t, res := a.res + res,
    ures := a.ures + u * res, tres := a.tres + t * res, resres := a.resres + res * res, d := a.d + code,
    levels := mapPut level (mapGetD 0 level a.levels + 1) a.levels }

/-- RING as it was in force in a frame (R211). -/
def State.ringIn (s : State) (frame : Nat) : Word :=
  s.cal.ringOld.foldl (fun w x => if frame < x.1 then x.2 else w) (s.live pgCALS Reg.CALS.RING.off)

/-- SKEW of a channel (R211), of which an image of no sections gives none (R458). -/
def State.skew (s : State) (chan : Nat) : Rat := if s.kBody.isEmpty then 0 else Config.skew s.kBody chan

/-- The residual of a captured record in ticks (R211). -/
def State.residual (s : State) (k : Capture) (g : Nat) : Rat :=
  let tap := ringTap g
  let p : Rat := (s.fld (pgTDC (chTile k.chan)) (Reg.TDC.TAP_POS_POS.nth tap) : Rat) / 8
  let tl : Rat := (4096 * fieldGet Reg.CALS.RING_SLOT_COARSE (s.ringIn k.frame) : Nat) + p
  (k.tif : Rat) - tl - s.skew k.chan - (signedOf 24 (s.fld pgCALS Reg.CALS.CAL_REF_REF) : Rat) / 16

/-- A record paired with its side item enters the sums, unless R210 excludes it; the schedule is that of its frame. -/
def State.includeRecord (s : State) (c : Conc) (k : Capture) (code : Nat) (gen : Bool) : State :=
  if Nat.land k.flags 13 ≠ 0 ∨ gen ≠ (s.rx c (chTile k.chan)).parity then s
  else
    let ring := s.ringIn k.frame
    let g := sheafOf k.frame / 2 ^ fieldGet Reg.CALS.RING_STEP_LOG ring
    let level := ringRound g % 2 ^ fieldGet Reg.CALS.RING_NLEV ring
    let wb := entryFld (mapGetD 0 k.chan (s.conc c).corr) 37 30
    let a := (mapGetD ({} : CalSums) k.chan s.cal.sums).add (fitU wb k.tot) (s.residual k g) k.tot code level
    { s with cal := { s.cal with sums := mapPut k.chan a s.cal.sums } }

/-- Removes the first capture of a channel. -/
def dropCapture (chan : Nat) : List Capture → List Capture
  | [] => []
  | k :: r => if k.chan = chan then r else k :: dropCapture chan r

/-- A calibration side item pairs with the channel's earliest unpaired record (R210); the engine reads one
concentrator's. -/
def State.pairItem (s : State) (c : Conc) (chan code : Nat) (gen : Bool) : State :=
  match (s.conc c).captured.find? (fun k => k.chan == chan) with
  | some k =>
    let s := s.setConc c { s.conc c with captured := dropCapture chan (s.conc c).captured }
    if c = s.histConc then s.includeRecord c k code gen else s
  | none => s

/-- SIDE_ITEM: a concentrator takes the item at the head of a tile's side channel; `read` is what its histogram store
delivers, `port` what the tile's buffer does (R203, R210, R328). -/
def State.sideItemCmd (s : State) (c : Conc) (t : Fin 16) (read port : EccRead) : State :=
  match (s.port t c).side with
  | i :: r =>
    if (s.conc c).merging then
      let s := (s.setPort t c { s.port t c with side := r }).countAnywhere pgINTG (4 + t.val) port
      if port = .uncorrectable then s
      else
        let v := i.toNat
        let kind := bitsOf 31 30 v
        let chan := t.val * 4096 + bitsOf 25 14 v
        let gen := v.testBit 29
        let code := bitsOf 7 0 v
        let s := s.countAnywhere (pgDINTG c) 4 read
        if read = .uncorrectable then s.restartTurn true
        else if kind = 2 then s.pairItem c chan code gen
        else if s.histAccepts c t kind gen chan then s.addHist c t chan (bitsOf 13 8 v) code
        else s
    else s
  | [] => s

/-! ### Fits (R205-R213) -/

/-- round(x), half up. -/
def roundHalfUp (x : Rat) : Int := (x + 1 / 2).floor

/-- Tap counts of a tile, and the sum of the code bins of a channel. -/
def ConcSt.tapCounts (cs : ConcSt) (t : Fin 16) : List Nat := (List.range 64).map (fun j => mapGetD 0 (t.val * 64 + j) cs.tapHist)
def ConcSt.codes (cs : ConcSt) (chan : Nat) : List Nat := (List.range 256).map (fun d => mapGetD 0 (chan * 256 + d) cs.hist)

/-- Uniform within 0.70 and 1.30 of N/64 (R205). -/
def uniform (ns : List Nat) : Bool :=
  let n := ns.sum
  ns.all (fun k => decide (70 * n ≤ 6400 * k) && decide (6400 * k ≤ 130 * n))

/-- w[j] and P[k] of R205. -/
def tapWidth (ns : List Nat) (j : Nat) : Rat := 4096 * ((ns.getD (j % 64) 0 : Nat) : Rat) / ((ns.sum : Nat) : Rat)
def tapPoint (ns : List Nat) (k : Nat) : Rat := ((List.range k).map (tapWidth ns)).sum

/-- TAP_POS fields of a refit, by k (R205). -/
def tapFields (ns : List Nat) : List (Nat × Nat) :=
  (List.range 63).map (fun i => (i + 1, (roundHalfUp (8 * tapPoint ns (i + 1))).toNat))

/-- F(x) of R206. -/
def spanCdf (w : Nat → Rat) (x : Rat) : Rat :=
  ((List.range 64).map (fun k => w k / 4096 * min 1 (max 0 ((x - w (k + 1)) / w k)))).sum

/-- The solution of F(x) = q to 1/256 tick, half up, as a count of 1/256. -/
def spanSolve (w : Nat → Rat) (q : Rat) : Nat :=
  let n : Nat := ((List.range 65536).find? (fun (i : Nat) => decide (q ≤ spanCdf w ((i : Rat) / 256)))).getD 0
  if q < spanCdf w ((n : Rat) / 256 - 1 / 512) then n - 1 else n

/-- d_q of R206. -/
def codeQuantile (h : List Nat) (q : Rat) : Rat :=
  let qm := q * ((h.sum : Nat) : Rat)
  let d := ((List.range 256).find? (fun d => decide (qm ≤ (((h.take (d + 1)).sum : Nat) : Rat)))).getD 255
  (d : Rat) + (qm - (((h.take d).sum : Nat) : Rat)) / ((h.getD d 0 : Nat) : Rat) - 1 / 2

/-- A and B of R206 for a channel, given x05 and x95. -/
def tacFit (x05 x95 : Rat) (h : List Nat) : Rat × Rat :=
  let d05 := codeQuantile h (5 / 100)
  let b := (x95 - x05) / (codeQuantile h (95 / 100) - d05)
  (x05 - b * d05, b)

/-- R207: no bin saturated, and B in range. A bin that holds 65 535 counts as saturated (DESIGN CHOICE, log 62). -/
def tacAccepted (h : List Nat) (b : Rat) : Bool :=
  h.all (fun n => decide (n < 65535)) && decide (3 / 10 ≤ b) && decide (b ≤ 1 / 2)

/-- An integer in a field of n bits; a value that its rule does not fit there is left open (assumption 3). -/
def fitField (n : Nat) (signed : Bool) (free : Nat) (v : Int) : Nat :=
  if signed then (if -(2 : Int) ^ (n - 1) ≤ v ∧ v < 2 ^ (n - 1) then unsignedOf n v else free % 2 ^ n)
  else (if 0 ≤ v ∧ v < 2 ^ n then v.toNat else free % 2 ^ n)


/-- Determinant of three rows. -/
def det3 (a b c d e f g h i : Rat) : Rat := a * (e * i - f * h) - b * (d * i - f * g) + c * (d * h - e * g)

/-- O, WA and WC of R212, in ticks, and the sum of squared residuals; none where the sums determine no fit. `wa` and `wc`
are the values in force. -/
def CalSums.solve (a : CalSums) (levels : Nat) (wa wc : Rat) : Option (Rat × Rat × Rat × Rat) :=
  let n : Rat := a.n
  if levels = 4 then
    let d := det3 n a.u a.t a.u a.uu a.ut a.t a.ut a.tt
    if d = 0 then none
    else
      let o := det3 a.res a.u a.t a.ures a.uu a.ut a.tres a.ut a.tt / d
      let x := det3 n a.res a.t a.u a.ures a.ut a.t a.tres a.tt / d
      let y := det3 n a.u a.res a.u a.uu a.ures a.t a.ut a.tres / d
      some (o, x, y, a.resres - o * a.res - x * a.ures - y * a.tres)
  else if levels = 2 then
    let sy := a.res - wc * a.t
    let suy := a.ures - wc * a.ut
    let syy := a.resres - 2 * wc * a.tres + wc * wc * a.tt
    let d := n * a.uu - a.u * a.u
    if d = 0 then none
    else
      let o := (sy * a.uu - suy * a.u) / d
      let x := (n * suy - a.u * sy) / d
      some (o, x, wc, syy - o * sy - x * suy)
  else if a.n = 0 then none
  else
    let o := (a.res - wa * a.u - wc * a.t) / n
    let zz := a.resres + wa * wa * a.uu + wc * wc * a.tt - 2 * wa * a.ures - 2 * wc * a.tres + 2 * wa * wc * a.ut
    some (o, wa, wc, zz - n * o * o)

/-- WA and WC of an entry in ticks. -/
def entryWA (e : BitVec 128) : Rat := (entryFld e 55 38 : Rat)
def entryWC (e : BitVec 128) : Rat := (signedOf 12 (entryFld e 29 18) : Rat) / 256

/-- The conditions of R212 on a solved fit. -/
def State.offsetAccepted (s : State) (a : CalSums) (x : Rat × Rat × Rat × Rat) (moved : Bool) : Bool :=
  let f (r : FieldRef) : Nat := s.fld pgCALS r
  let lim : Rat := f Reg.CALS.FIT_LIM_RMS_LIM
  let full := (List.range s.levels).filter (fun i => decide (f Reg.CALS.FIT_LIM_LEV_MIN ≤ mapGetD 0 i a.levels))
  decide (f Reg.CALS.FIT_LIM_INJ_MIN ≤ a.n) && decide (min 3 s.levels ≤ full.length) && decide (0 ≤ x.2.1) &&
    decide (roundHalfUp x.2.1 < 262144) && decide (-2048 ≤ roundHalfUp (256 * x.2.2.1)) &&
    decide (roundHalfUp (256 * x.2.2.1) < 2048) && decide (256 * x.2.2.2 ≤ lim * lim * (a.n : Rat)) && !moved

/-- What a turn finds for one channel: its entry after the fits, fits made, and fits accepted. -/
structure ChanFit where
  entry : BitVec 128
  tacMade : Bool
  tacOk : Bool
  offMade : Bool
  offOk : Bool
  deriving DecidableEq, Repr

/-- The TAC fit of a channel (R206, R207). -/
def fitTac (free : Nat) (e : BitVec 128) (x05 x95 : Rat) (h : List Nat) : BitVec 128 × Bool :=
  let k := tacFit x05 x95 h
  if tacAccepted h k.2 then
    (entrySet (entrySet (entrySet e 127 127 1) 126 112 (fitField 15 false free (roundHalfUp (256 * k.1)))) 111 96
      (fitField 16 false free (roundHalfUp (65536 * k.2))), true)
  else (e, false)

/-- The offset and walk fit of a channel (R212); `e` is the entry in force, `m` that after the TAC fit. -/
def State.fitOffset (s : State) (chan : Nat) (e m : BitVec 128) (moved : Bool) : BitVec 128 × Bool :=
  let a := mapGetD ({} : CalSums) chan s.cal.sums
  match a.solve s.levels (entryWA e) (entryWC e) with
  | some x =>
    if s.offsetAccepted a x moved then
      let dA : Rat := ((entryFld m 126 112 : Rat) - (entryFld e 126 112 : Rat)) / 256
      let dB : Rat := ((entryFld m 111 96 : Rat) - (entryFld e 111 96 : Rat)) / 65536
      let o := roundHalfUp (16 * (x.1 - dA - dB * a.d / (a.n : Rat)))
      let m := entrySet m 95 72 (fitField 24 true (Config.freeValue s.freeCount) o)
      let m := entrySet m 55 38 (roundHalfUp x.2.1).toNat
      (entrySet m 29 18 (unsignedOf 12 (roundHalfUp (256 * x.2.2.1))), true)
    else (m, false)
  | none => (m, false)

/-- The fits of one channel at the end of its tile's turn. -/
def State.fitChan (s : State) (chan : Nat) (refit : Option (Rat × Rat)) (moved : Bool) : ChanFit :=
  let cs := s.conc s.histConc
  let e := mapGetD 0 chan cs.corr
  let h := cs.codes chan
  let t := match refit with
    | some x => if s.fld pgCALS Reg.CALS.CD_HITS_HITS ≤ h.sum then
        (let y := fitTac (Config.freeValue s.freeCount) e x.1 x.2 h; (y.1, true, y.2)) else (e, false, false)
    | none => (e, false, false)
  if s.flag pgCALS Reg.CALS.CTRL_FIT_EN then
    let o := s.fitOffset chan e t.1 moved
    { entry := o.1, tacMade := t.2.1, tacOk := t.2.2, offMade := true, offOk := o.2 }
  else { entry := t.1, tacMade := t.2.1, tacOk := t.2.2, offMade := false, offOk := false }

/-- CH_CAL of a channel after its tile's turn (R213). A turn that neither rejects a fit nor accepts both leaves FAILS as it is, so
that the turns counted may lie either side of it (DESIGN CHOICE, log 63). -/
def State.countFit (s : State) (chan : Nat) (k : ChanFit) : State :=
  let old := mapGetD (0 : Word) chan s.cal.chCal
  let fails := fieldGet Reg.CALS.CH_CAL_FAILS old
  let rej := (k.tacMade && !k.tacOk).toNat + (k.offMade && !k.offOk).toNat
  let fails := if 0 < rej then min 7 (fails + 1) else if k.tacOk && k.offOk then 0 else fails
  let bad := decide (0 < rej) && decide (4 ≤ fails)
  let was := old.getLsbD 31
  let new := fieldPut ⟨0, 31, 31⟩ (was || bad).toNat (fieldPut ⟨0, 30, 28⟩ fails old)
  let s := { s with cal := { s.cal with chCal := mapPutD 0 chan new s.cal.chCal } }
  let s := s.bump pgCALS Reg.CALS.REJ_CNT 4 rej
  if bad && !was then (s.put pgCALS Reg.CALS.BAD_CNT_COUNT (s.stored pgCALS Reg.CALS.BAD_CNT_COUNT + 1)).event pgCALS 2
  else s.eventIf bad pgCALS 2

/-- The channels of a tile. -/
def chansOf (t : Fin 16) : List Nat := (List.range 4096).map (fun i => t.val * 4096 + i)

/-- The end of the accumulation of a turn is due (R204). -/
def State.turnDue (s : State) : Bool :=
  let cs := s.conc s.histConc
  decide (s.cal.turnFrom + s.fld pgCALS Reg.CALS.CD_TIMEOUT_SEC * 1000 * msTref ≤ s.now) ||
    (chansOf s.turnTile).all (fun c => s.isMasked c || s.isSelfMasked c ||
      decide (s.fld pgCALS Reg.CALS.CD_HITS_HITS ≤ (cs.codes c).sum))

/-- The tap positions that a refit moves by more than 8 ticks (R212). -/
def State.tapsMove (s : State) (t : Fin 16) (taps : List (Nat × Nat)) : Bool :=
  taps.any (fun x =>
    let p := s.fld (pgTDC t) (Reg.TDC.TAP_POS_POS.nth x.1)
    decide (64 < (x.2 - p) + (p - x.2)))

/-- The results of a turn (R205-R213). -/
def State.fitTurn (s : State) (t : Fin 16) : State :=
  let cs := s.conc s.histConc
  let ns := cs.tapCounts t
  let enough := s.flag pgCALS Reg.CALS.CTRL_CD_EN && decide (64 * s.fld pgCALS Reg.CALS.CD_HITS_HITS ≤ ns.sum)
  let ok := enough && uniform ns
  let taps := if ok then tapFields ns else []
  let w := tapWidth ns
  let refit : Option (Rat × Rat) := if ok then
      some ((spanSolve w (5 / 100) : Rat) / 256, (spanSolve w (95 / 100) : Rat) / 256) else none
  let moved := s.tapsMove t taps
  let fits := (chansOf t).map (fun c => (c, s.fitChan c refit moved))
  let tac := fits.filterMap (fun x => if x.2.tacOk then some (x.1, entryWord x.2.entry 3) else none)
  let corr := fits.filterMap (fun x => if x.2.entry = mapGetD 0 x.1 cs.corr then none else some (x.1, x.2.entry))
  let acc := fits.filterMap (fun x => if x.2.tacOk || x.2.offOk then some x.1 else none)
  let r : CalResult := { tile := t, taps := taps, tac := tac, corr := corr, accepted := acc }
  let s := (s.eventIf (enough && !ok) pgCALS 3).each fits (fun s x => s.countFit x.1 x.2)
  { s with freeCount := s.freeCount + 1
           cal := { s.cal with turnOn := false, results := s.cal.results ++ [r] } }

/-- TURN_ACCUM_END. -/
def State.turnAccumEnd (s : State) : State :=
  if s.cal.turnOn && s.turnDue then s.fitTurn s.turnTile else s

/-! ### Requests (R214, R215) -/

/-- A swap is requested (R215), or refused. -/
def State.requestSwap (s : State) (t : Fin 16) (delay : Nat) (byHost restoring : Bool) : State :=
  if !restoring && (s.cal.swap.isSome || s.peal.isSome || !s.swapAdmitted) then
    (s.bump pgCALS Reg.CALS.ABORT_CNT 1).event pgCALS 1
  else
    let f := s.frame + delay
    let w : PendingSwap := { tile := t, frame := f, byHost := byHost, restoring := restoring, committed := false, quiet := false }
    ((({ s with cal := { s.cal with swap := some w } } : State).put pgCALS Reg.CALS.SWAP_AT (sheafOf f)).putB pgCALS
      Reg.CALS.SWAP_STAT_READY false).showSwap

/-- A host write of 1 to SWAP_CTRL.GO, as it is accepted (R215, R499). -/
def State.hostSwap (s : State) : State :=
  s.requestSwap ⟨s.stored pgCALS Reg.CALS.SWAP_CTRL_TILE % 16, Nat.mod_lt _ (by decide)⟩
    (s.stored pgCALS Reg.CALS.SWAP_CTRL_DELAY) true false

/-- Concentrators whose staging store takes what is staged: running ones, and a joiner that is loaded (R277). -/
def ConcSt.stages (cs : ConcSt) : Bool := cs.merging || (cs.run == .loading && cs.loaded)

/-- Stages results in every running concentrator and in the tile (R214). -/
def State.stageResult (s : State) (r : CalResult) : State :=
  let s := s.each concs (fun s c =>
    if (s.conc c).stages then s.each r.corr (fun s e => s.stageEntry c e.1 e.2) else s)
  { s with
    tacStaged := r.tac.foldl (fun m e => mapPut e.1 e.2 m) s.tacStaged
    rwsStaged := r.taps.foldl (fun m e => mapPut (regKey (pgTDC r.tile) (0x100 + 4 * e.1)) (BitVec.ofNat 32 e.2) m) s.rwsStaged
    cal := { s.cal with results := s.cal.results.tail, staged := some r } }

/-- The request for staged results, where the engine makes its own (R214). -/
def State.requestStaged (s : State) (r : CalResult) : State :=
  if s.flag pgCALS Reg.CALS.CTRL_AUTO_SWAP then s.requestSwap r.tile 4 false false
  else (s.putB pgCALS Reg.CALS.SWAP_STAT_READY true).eventIf (!s.flag pgCALS Reg.CALS.SWAP_STAT_READY) pgCALS 4

/-- The seed tables of a tile's class K image, whose entries hold no SET_EPOCH and no reserved bits (R5, R110, R222). -/
def seedTables (body : List Byte) (t : Fin 16) : CalResult :=
  { tile := t, accepted := [],
    taps := (List.range 63).map (fun i => (i + 1, Config.seedTap body t.val (i + 1))),
    tac := (chansOf t).map (fun c => (c, Config.seedTac body c)),
    corr := (chansOf t).map (fun c => (c, entrySet (Config.seedCorr body c) 17 0 0)) }

/-- What the stores of a tile hold after reset (R79, R110). -/
def resetTables (t : Fin 16) : CalResult :=
  { tile := t, accepted := [], taps := (List.range 63).map (fun i => (i + 1, 0x200 * (i + 1))),
    tac := (chansOf t).map (fun c => (c, 0)), corr := (chansOf t).map (fun c => (c, 0)) }

/-- MRAM holds tables of a tile that were written with the current settings schema (R222); what is in MRAM was written by this
unit. -/
def State.tablesKept (s : State) (t : Fin 16) : Bool := mapFind t.val s.fwu.tables == some s.fwu.schema

/-- The starting tables of a tile (R222): those in MRAM, else the seed tables of its class K image, which an image that is bad or
has no sections does not give: then the tile keeps its reset values (R458). -/
def State.startTables (s : State) (t : Fin 16) : CalResult :=
  if s.tablesKept t then
    { tile := t, accepted := [],
      taps := (List.range 63).map (fun i => (i + 1, mapGetD 0 (t.val * 64 + i + 1) s.mramTap)),
      tac := (chansOf t).map (fun c => (c, mapGetD 0 c s.mramTac)),
      corr := (chansOf t).map (fun c => (c, mapGetD 0 c s.mramCorr)) }
  else if s.kBody.isEmpty then resetTables t
  else seedTables s.kBody t

/-- Warm-up stages the starting tables of its next tile and requests its swap (R222), under the conditions of R214, CTRL.HOLD
among them (DESIGN CHOICE, log 23). -/
def State.stageWarm (s : State) (t : Fin 16) : State :=
  if s.cal.swap.isSome || !s.mayStage then s
  else
    let s := if s.tablesKept t || !s.kBody.isEmpty then s.stageResult (s.startTables t) else s
    ({ s with cal := { s.cal with staged := none } } : State).requestSwap t 4 false false

/-- Warm-up has dealt with a tile, or skips it (R476); after the last it ends and turns begin with tile 0 (R222). -/
def State.warmNext (s : State) (t : Fin 16) : State :=
  let s := { s with cal := { s.cal with warm := s.cal.warm.filter (· != t) } }
  if s.cal.warm.isEmpty then (s.putB pgCALS Reg.CALS.SWAP_STAT_WARM false).beginTurn 0 else s

/-- ENGINE_STAGE: the engine stages the results of an ended turn and requests their swap, or waits (R214); in warm-up it
stages starting tables. -/
def State.engineStage (s : State) : State :=
  match s.cal.warm with
  | t :: _ => if s.turnable t || s.cal.swap.isSome then s.stageWarm t else s.warmNext t
  | [] =>
    match s.cal.staged with
    | some r => if s.cal.swap.isNone && !s.flag pgCALS Reg.CALS.CTRL_HOLD then s.requestStaged r else s
    | none =>
      match s.cal.results with
      | r :: _ =>
        if s.mayStage then (s.stageResult r).requestStaged r else s
      | [] => s

/-- The journal entry of a core write (R387, R388). -/
def coreEntry (time page off : Nat) (v : Word) : JEntry :=
  { seq := 0, time := time, port := 3, master := 0, code := 0xF1, result := resOK, page := page, off := off,
    digest := digestOf v, aux := 0, poison := false }

/-- The core writes a word of an entry to the window of the CORR page, in both concentrators that stage (R116); the write is
journaled with its result (R387), REFUSED where a staging store is full, and noted on the pages that it changed (R390). -/
def State.restoreWord (s : State) (c : Conc) (chan w : Nat) (v : Word) : State :=
  let on := concs.filter (fun k => (s.conc k).stages)
  let taken := on.filter (fun k => !(s.conc k).stageFull chan)
  let s := s.each on (fun s k => (s.stageCorr k chan w v).2)
  let x := s.append { coreEntry s.now (pgCORR c) (0x400 + 16 * (chan % 64) + 4 * w) v with
    result := if taken = on then resOK else resREFUSED }
  x.2.each taken (fun s k => s.noteChange (pgCORR k) x.1)

/-- RESTORING_SWAP_REQUEST: a poisoned entry is restored from its MRAM copy, staged in both concentrators, and its swap
requested, once no peal is pending or committed and no swap pending (R215, R328). -/
def State.restoreEntry (s : State) (c : Conc) (chan : Nat) : State :=
  if (s.conc c).entryPoisoned chan && s.peal.isNone && s.cal.swap.isNone then
    let e := mapGetD 0 chan s.mramCorr
    (s.each (List.range 4) (fun s w => s.restoreWord c chan w (entryWord e w))).requestSwap (chTile chan) 4 false true
  else s

/-! ### Commit (R215, R216) -/

/-- SWAP_COMMIT: at the start of frame S − 2 (R215, R216). A tile in KEEP passes and installs (R215, R224); a restoring swap's that
is OFF, or absent otherwise, installs nothing. -/
def State.commitSwap (s : State) : State :=
  match s.cal.swap with
  | some w =>
    if w.committed || decide (s.frame + 2 ≠ w.frame) then s
    else
      let full := concs.any (fun c => (s.conc c).merging && s.flag (pgCORR c) Reg.CORR.STAGE_STATUS_FULL)
      let gone := s.pwr (pgTILE w.tile) == 0
      if full || (!w.restoring && (gone || !s.swapAdmitted)) then s.withdrawSwap
      else
        let quiet := w.restoring && (gone || ((s.tile w.tile).absent && decide (2 ≤ s.pwr (pgTILE w.tile))))
        ({ s with cal := { s.cal with swap := some { w with committed := true, quiet := quiet } } } : State).showSwap
  | none => s

/-! ### The swap (R116, R217, R219) -/

/-- P[k] of a tile as the staged positions would leave it, in 1/8 tick (R70). -/
def State.stagedTap (s : State) (t : Fin 16) (k : Nat) : Nat :=
  ((mapFind (regKey (pgTDC t) (0x100 + 4 * k)) s.rwsStaged).map (fun w => w.toNat % 65536)).getD
    (s.stored (pgTDC t) (Reg.TDC.TAP_POS_POS.nth k))

/-- 0 < P[1] < … < P[63] < 4096 ticks. -/
def State.tapsRise (s : State) (t : Fin 16) : Bool :=
  (List.range 63).all (fun i => decide ((if i = 0 then 0 else s.stagedTap t i) < s.stagedTap t (i + 1))) &&
    decide (s.stagedTap t 63 < 32768)

/-- A tile installs its staged positions and map entries (R70). -/
def State.installTile (s : State) (t : Fin 16) : State :=
  let pg := pgTDC t
  let mine (e : Nat × Word) : Bool := e.1 / 4096 == pg
  let new := s.rwsStaged.filter mine
  let s := if new.isEmpty then s
    else if s.tapsRise t then s.each new (fun s e => s.put pg ⟨e.1 % 4096, 15, 0⟩ (e.2.toNat % 65536))
    else s.event pg 2
  let maps := s.tacStaged.filter (fun e => e.1 / 4096 == t.val)
  { s with
    rwsStaged := s.rwsStaged.filter (fun e => !mine e)
    tac := maps.foldl (fun m e => mapPutD 0 e.1 e.2 m) s.tac
    tacPoison := s.tacPoison.filter (fun c => !maps.any (fun e => e.1 == c))
    tacStaged := s.tacStaged.filter (fun e => e.1 / 4096 != t.val) }

/-- Entries come into force in a concentrator at the boundary of frame f (R115, R116): the replaced values are kept, a
poisoned one as invalid. -/
def ConcSt.install (cs : ConcSt) (new : List (Nat × BitVec 128)) (f : Nat) : ConcSt :=
  let old := new.foldl (fun m e =>
    let v := mapGetD 0 e.1 cs.corr
    mapPut e.1 (if cs.entryPoisoned e.1 then entrySet v 127 127 0 else v) m) []
  { cs with
    corr := new.foldl (fun m e => mapPutD 0 e.1 e.2 m) cs.corr
    corrOld := if new.isEmpty then cs.corrOld else (f, old) :: cs.corrOld
    corrPoison := cs.corrPoison.filter (fun w => !new.any (fun e => e.1 == w / 4)) }

/-- The staged entries that a swap installs in a concentrator, with the new epoch: one found uncorrectable in the staging store
is not installed (R116, R217, R328). -/
def ConcSt.installs (cs : ConcSt) (epoch : Nat) : List (Nat × BitVec 128) :=
  if cs.stages then
    (cs.corrStaged.filter (fun e => !cs.stagedBad.contains e.1)).map (fun e => (e.1, entrySet e.2 15 0 epoch))
  else []

/-- A concentrator installs them (R217). -/
def State.installCorr (s : State) (c : Conc) (f epoch : Nat) : State :=
  let cs := s.conc c
  if cs.stages then
    let new := cs.installs epoch
    let s := s.setConc c { cs.install new f with corrStaged := [], stagedBad := [] }
    (((s.putB (pgCORR c) Reg.CORR.STAGE_STATUS_FULL false).showStaged c).put (pgCORR c) Reg.CORR.SWAP_EPOCH_EPOCH epoch).event
      (pgCORR c) 0
  else s

/-- The peal epoch steps from sheaf f onwards (R217, R385). -/
def State.stepEpoch (s : State) (f epoch : Nat) : State :=
  ({ s with savedEpoch := epoch,
            frames := s.frames.map (fun x => if f ≤ x.1 then (x.1, { x.2 with pealEpoch := epoch }) else x) } : State).put
    pgJRNL Reg.JRNL.PEAL_STAT_EPOCH epoch

/-- The tables of a tile and every entry just installed go to MRAM (R219). -/
def State.persistTables (s : State) (t : Fin 16) (tables : Bool) (new : List (Nat × BitVec 128)) : State :=
  let s := { s with mramCorr := new.foldl (fun m e => mapPut e.1 e.2 m) s.mramCorr }
  let src := concs.find? (fun c => (s.conc c).stages)
  let s := match src with
    | some c =>
      let held := (chansOf t).filter (fun k => !(s.conc c).entryPoisoned k)
      { s with mramCorr := held.foldl (fun m k => mapPut k (mapGetD 0 k (s.conc c).corr) m) s.mramCorr }
    | none => s
  if tables then
    { s with
      fwu := { s.fwu with tables := mapPut t.val s.fwu.schema s.fwu.tables }
      mramTac := (chansOf t).foldl (fun m k => mapPut k (mapGetD 0 k s.tac) m) s.mramTac
      mramTap := (List.range 63).foldl (fun m i => mapPut (t.val * 64 + i + 1)
        (s.stored (pgTDC t) (Reg.TDC.TAP_POS_POS.nth (i + 1))) m) s.mramTap }
  else s

/-- Parity toggles in a tile and in both concentrators' record of it (R217). -/
def State.toggleParity (s : State) (t : Fin 16) : State :=
  (s.setTile t { s.tile t with parity := !(s.tile t).parity }).each concs (fun s c =>
    s.setRx c t { s.rx c t with parity := !(s.rx c t).parity })

/-- FIT_EPOCH of accepted channels (R217). -/
def State.setFitEpoch (s : State) (l : List Nat) (epoch : Nat) : State :=
  { s with cal := { s.cal with chCal := l.foldl (fun m c =>
    mapPutD 0 c (fieldPut ⟨0, 15, 0⟩ epoch (mapGetD 0 c m)) m) s.cal.chCal } }

/-- After the swap of a tile: warm-up goes on to its next tile or ends (R222), or the next turn begins (R202). -/
def State.afterSwap (s : State) (t : Fin 16) : State :=
  if s.cal.warm.isEmpty then s.nextTurn t else s.warmNext t

/-- The pages a swap installs into, whose JOURNAL_SEQ its entry becomes (R390): the tile's TDC page where a map, or tap positions
that pass their check, wait there, and the CORR page of each concentrator that installs an entry. -/
def State.swapPages (s : State) (t : Fin 16) (on : Bool) (epoch : Nat) : List Nat :=
  let maps := s.tacStaged.any (fun e => e.1 / 4096 == t.val)
  let taps := s.rwsStaged.any (fun e => e.1 / 4096 == pgTDC t) && s.tapsRise t
  (if on && (maps || taps) then [pgTDC t] else []) ++
    (concs.filter (fun c => !((s.conc c).installs epoch).isEmpty)).map pgCORR

/-- What a swap that takes effect at the boundary of frame f reads of a staging store, by channel: an entry found uncorrectable
will not be installed (R217, R328). -/
def State.readStaged (s : State) (c : Conc) (f : Nat) (l : Reads) : State :=
  match s.cal.swap with
  | some w =>
    if w.committed && w.frame == f && (s.conc c).stages then
      s.each ((s.conc c).corrStaged.map (·.1)) (fun s chan =>
        let s := s.countAnywhere (pgDINTG c) 1 (l.at_ chan)
        if l.at_ chan = .uncorrectable then s.setConc c { s.conc c with stagedBad := insertNew chan (s.conc c).stagedBad } else s)
    else s
  | none => s

/-- SWAP_BOUNDARY: a committed swap takes effect at boundary S (R217). -/
def State.swapBoundary (s : State) : State :=
  match s.cal.swap with
  | some w =>
    if w.committed && decide (w.frame ≤ s.frame) then
      let f := w.frame
      let e := (s.epochNow + 1) % 65536
      let on := !w.quiet && s.pwr (pgTILE w.tile) != 0
      let pages := s.swapPages w.tile on e
      let s := if on then (s.installTile w.tile).toggleParity w.tile else s
      let new := (s.conc .a).installs e ++ (s.conc .b).installs e
      let s := (s.each concs (fun s c => s.installCorr c f e)).stepEpoch f e
      let s := (s.bump pgCALS Reg.CALS.SWAP_CNT 0).event pgCALS 0
      let (n, s) := s.journalSwap w.tile resOK e
      let s := s.each pages (fun s p => s.noteChange p n)
      let s := s.persistTables w.tile (on && !pages.isEmpty) new
      let s := match s.cal.staged with
        | some r => s.setFitEpoch r.accepted e
        | none => s
      let mine := match s.cal.staged with | some r => r.tile == w.tile | none => false
      let s := { s with
        savedCorr := []
        cal := { s.cal with
          swap := none, staged := if mine then none else s.cal.staged.map (fun (r : CalResult) => { r with accepted := [] }),
          sums := s.cal.sums.filter (fun x => x.1 / 4096 != w.tile.val) } }
      let s := s.showSwap
      if mine || !s.cal.warm.isEmpty then s.afterSwap w.tile else s
    else s
  | none => s

/-! ### A tile's return (R222, R471) -/

/-- The tables in force of a tile that returns from OFF are written back from MRAM, and the recorded writes are staged. -/
def State.reloadTile (s : State) (t : Fin 16) : State :=
  let inTile (k : Nat) : Bool := k / 4096 == t.val
  let s := { s with
    tac := (s.mramTac.filter (fun (e : Nat × Word) => inTile e.1 && s.tablesServe t.val)).foldl
      (fun m (e : Nat × Word) => mapPutD 0 e.1 e.2 m) s.tac
    tacStaged := (s.savedTac.filter (fun (e : Nat × Word) => inTile e.1)).foldl (fun m (e : Nat × Word) => mapPut e.1 e.2 m) s.tacStaged
    savedTac := s.savedTac.filter (fun (e : Nat × Word) => !inTile e.1)
    rwsStaged := (s.savedStaged.filter (fun (e : Nat × Word) => e.1 / 4096 == pgTDC t)).foldl (fun m (e : Nat × Word) => mapPut e.1 e.2 m) s.rwsStaged
    savedStaged := s.savedStaged.filter (fun (e : Nat × Word) => e.1 / 4096 != pgTDC t) }
  s.each (s.mramTap.filter (fun e => e.1 / 64 == t.val && s.tablesServe t.val)) (fun s e =>
    s.put (pgTDC t) (Reg.TDC.TAP_POS_POS.nth (e.1 % 64)) e.2)

end Sys2Proof.Machine
end

