-- ==== Sys2Proof/Machine/Time.lean ====
section
/-!
DEFINITION. Network time (R230-R256): port lock, acquisition, the start of frames, the accumulators, slews and the splice,
domain switches, holdover, time quality, and the snapshot.
-/

namespace Sys2Proof.Machine

/-! ### SPLICE -/


/-- SPLICE as its registers show it (R252): 48 bits in 2^-12 tick. -/
def State.showSplice (s : State) : State :=
  (s.put pgTIME Reg.TIME.SPLICE_LO (spliceWord s.time.splice false)).put pgTIME Reg.TIME.SPLICE_HI_HI
    (spliceWord s.time.splice true)

/-- SPLICE takes a value. -/
def State.setSplice (s : State) (v : Int) : State := ({ s with time := { s.time with splice := v } } : State).showSplice

/-! ### Time quality and holdover (R247, R248) -/

/-- The present time quality. -/
def State.tqNow (s : State) : Nat :=
  if s.time.byTimeout then 3
  else if !s.portLocked s.active then 2
  else if !s.portLocked s.active.other then 1 else 0

/-- TSTAT.TQ follows; a frame keeps the worst that held during it. -/
def State.noteTq (s : State) : State :=
  if s.running then
    let q := s.tqNow
    let s := s.put pgTIME Reg.TIME.TSTAT_TQ q
    match mapFind s.frame s.frames with
    | some i => { s with frames := mapPut s.frame { i with tq := max i.tq q } s.frames }
    | none => s
  else s

/-- Holdover is entered. -/
def State.enterHoldover (s : State) : State :=
  if s.running && !s.flag pgTIME Reg.TIME.TSTAT_HOLDOVER then
    let s := ((s.putB pgTIME Reg.TIME.TSTAT_HOLDOVER true).bump pgTIME Reg.TIME.HOLD_CNT 3).event pgTIME 2
    ({ s with time := { s.time with holdFrom := some s.now } } : State).put pgTIME Reg.TIME.HOLD_ELAPSED 0
  else s

/-- HOLD_ELAPSED at a time in T_ref. -/
def State.countHold (s : State) (now : Nat) : State :=
  match s.time.holdFrom with
  | some h =>
    let ms := (now - h) / msTref
    let s := s.put pgTIME Reg.TIME.HOLD_ELAPSED (min ms (2 ^ 32 - 1))
    if ms < 2 ^ 32 then s else s.overflow pgTIME 4
  | none => s

/-- Holdover ends; a withheld automatic switch is no longer checked (R243). -/
def State.exitHoldover (s : State) : State :=
  if s.flag pgTIME Reg.TIME.TSTAT_HOLDOVER then
    let s := ((s.countHold s.now).putB pgTIME Reg.TIME.TSTAT_HOLDOVER false).event pgTIME 3
    { s with time := { s.time with holdFrom := none, recheck := false } }
  else s

/-! ### Port lock (R232) -/

/-- An unregistered port begins discovery, or draws again with exponent b (R375): from step 9 on, or in the recovery loader
(R470). -/
def State.drawDiscovery (s : State) (u : Um) (b : Nat) : State :=
  let r := Config.noise s.freeCount % 2 ^ b
  let s := { s with freeCount := s.freeCount + 1 }
  let s := s.setUm u { s.um u with skip := some r, answered := none }
  (s.put (pgUM u) Reg.UM.PSTAT_BO b).put (pgUM u) Reg.UM.PSTAT_DSTATE 1
def State.startDiscovery (s : State) (u : Um) : State :=
  if (decide (9 ≤ s.step470) || s.stored pgFWU Reg.FWU.STAT_C_STATE == 3) && s.portLocked u && !s.flag (pgUM u) Reg.UM.ADDR_REG && (s.um u).skip.isNone &&
      (s.um u).answered.isNone then s.drawDiscovery u (s.fld (pgUM u) Reg.UM.DISC_BO_MIN)
  else s

/-- A step-9 start-up goes on to time acquisition once every locked port is registered (R470). -/
def State.leaveStep9 (s : State) : State :=
  if s.step470 = 9 ∧ ums.all (fun u => !s.portLocked u || s.flag (pgUM u) Reg.UM.ADDR_REG) = true then
    s.put pgPWR Reg.PWR.STARTUP_STEP 10 else s

/-- A port gains lock. -/
def State.gainLock (s : State) (u : Um) : State :=
  let s := ((s.putB (pgTIMED u) Reg.TIMED.DSTAT_PORT_LOCK true).putB (pgTIMED u) Reg.TIMED.DSTAT_AGEING false).event
    (pgTIMED u) 1
  let s := (s.putB (pgUM u) Reg.UM.PSTAT_LOCK true).setUm u { s.um u with lostFrom := none }
  let s := if u = s.active then s.exitHoldover else s
  (s.startDiscovery u).noteTq

/-- The cleaner holds its core (R241). -/
def State.cleanerHolds (s : State) : State :=
  let was := s.flag pgTIME Reg.TIME.CLEAN_STAT_LOCK
  ((s.putB pgTIME Reg.TIME.CLEAN_STAT_LOCK false).putB pgTIME Reg.TIME.TSTAT_CLEAN_LOCK false).eventIf was pgTIME 5

/-- An automatic switch is scheduled for the second boundary after the loss; a commanded one is cancelled (R243). -/
def State.scheduleAuto (s : State) : State :=
  if s.running && s.flag pgTIME Reg.TIME.CTRL_AUTO_SW && s.portLocked s.active.other then
    let s := match s.time.pendSwitch with
      | some p => if p.auto then s else s.bump pgTIME Reg.TIME.SW_REJ_CNT 2
      | none => s
    { s with time := { s.time with pendSwitch := some { target := s.active.other.isOne, frame := s.frame + 2, auto := true } } }
  else s

/-- A port loses lock. -/
def State.loseLock (s : State) (u : Um) : State :=
  if s.portLocked u then
    let s := ((s.putB (pgTIMED u) Reg.TIMED.DSTAT_PORT_LOCK false).putB (pgTIMED u) Reg.TIMED.DSTAT_AGEING true).bump
      (pgTIMED u) Reg.TIMED.LOSS_CNT 0
    let s := (s.event (pgTIMED u) 0).putB (pgUM u) Reg.UM.PSTAT_LOCK false
    let s := s.setUm u { s.um u with lostFrom := some s.now }
    let s := if u = s.active then (s.cleanerHolds.enterHoldover).scheduleAuto else s
    s.leaveStep9.noteTq
  else s

/-- CDR_UNLOCK: a port's clock recovery unlocks. -/
def State.cdrUnlock (s : State) (u : Um) : State :=
  ((({ s with time := s.time.setLock u {} } : State).putB (pgUM u) Reg.UM.PSTAT_SYNC false).loseLock u)

/-- A superframe without a good marker: its time is counted on; two in a row lose lock. -/
def State.badMarker (s : State) (u : Um) (last : Option Nat) : State :=
  let k := s.time.lock u
  let s := { s with time := s.time.setLock u { k with good := 0, bad := k.bad + 1, last := last } }
  let s := s.bump (pgTIMED u) Reg.TIMED.MARK_BAD_CNT 1
  if 2 ≤ k.bad + 1 then s.loseLock u else s

/-- The time the next superframe's marker would carry. -/
def PortLock.expected (k : PortLock) : Option Nat := k.last.map (fun l => (l + 16384) % 2 ^ 48)

/-- MARKER_MISSING. -/
def State.markerMissing (s : State) (u : Um) : State :=
  if (s.time.lock u).cdr then s.badMarker u (s.time.lock u).expected else s

/-! ### Acquisition and the start of frames (R238, R239, R472) -/

/-- What the frame sync says of frame f as it begins (R144). -/
def State.frameInfo (s : State) : FrameInfo :=
  { pealEpoch := s.epochNow, domain := s.active.isOne, tq := s.tqNow,
    mixed := s.flag pgJRNL Reg.JRNL.PEAL_STAT_MIXED, dswitch := none, delivered := false, triggers := [], marks := [] }

/-- MIXED is set from the frame that begins where one of its moments has come (R386). -/
def State.mixedBoundary (s : State) (f : Nat) : State :=
  if s.mixedFrom.any (fun x => decide (x ≤ f)) then
    let s := { s with mixedFrom := s.mixedFrom.filter (fun x => decide (f < x)) }
    if s.flag pgJRNL Reg.JRNL.PEAL_STAT_MIXED then s
    else (s.putB pgJRNL Reg.JRNL.PEAL_STAT_MIXED true).event pgJRNL 2
  else s

/-- A tile at the first frame: the frame sync loads its count; one that is settled and locked is present from it. -/
def State.tileStarts (s : State) (f : Nat) (t : Fin 16) : State :=
  let tl := s.tile t
  let here := tl.settled && s.flag (pgTDC t) Reg.TDC.LOCK_STATUS_LOCKED && decide (2 ≤ s.pwr (pgTILE t))
  let p (x : Port) : Port := { x with oldest := f, owes := 0, since := f }
  let s := s.setTile t { tl with
    count := BitVec.ofNat 48 (frameCoarse f), reload := false, absent := !here, halted := !here, nextClose := f,
    reasons := if here then 0 else tl.reasons, portA := p tl.portA, portB := p tl.portB }
  let s := (s.showPort t .a).showPort t .b
  s.each concs (fun s c => s.setRx c t { s.rx c t with since := if here then some f else none, left := none, parity := false })

/-- A concentrator that was filled before the first frame begins with it (R472). -/
def State.concReady (s : State) (c : Conc) : State :=
  let cs := s.conc c
  if cs.run = .loading ∧ cs.loaded = true then s.setConc c { cs with run := .running, joinAt := none } else s

/-- A concentrator at the first frame: both that passed their self-test start IN_STEP, one alone SOLO (R472). -/
def State.concStarts (s : State) (f : Nat) (c : Conc) : State :=
  let cs := s.conc c
  if cs.run = .running then
    let both := decide ((s.conc c.other).run = .running)
    let s := s.setConc c { cs with nextForm := f, validR := f, validS := f, sendNext := f, partnerNext := f }
    let n := sheafOf f
    let s := (s.setPair c (if both then 2 else 0)).put (pgSTEP c) Reg.STEP.VALID_FROM n
    ((s.put (pgDRAM c) Reg.DRAM.REPLAY_VALID n).put (pgDRAM c) Reg.DRAM.SHADOW_VALID n).put (pgSHEAF c) Reg.SHEAF.NEXT_SEND n
  else s

/-- The first frame begins, and with it the warm-up of the tiles present (R222). A FIRE accepted before launches in it (R45). -/
def State.startFrames (s : State) (f : Nat) : State :=
  let s := { s with running := true, mixedFrom := s.mixedFrom.map (fun x => max (frameOfSheaf f x) f), frame := f, now := f * frameTref, time := { s.time with first := f },
                    unlocks := s.unlocks.map (fun (x : Nat × Nat) => (x.1, f + (x.2 - s.frame) - 1)),
                    cal := { s.cal with fires := s.cal.fires.map (fun (x : Nat × Nat) => (x.1, f)) },
                    trig := { s.trig with nextFrame := f } }
  let s := (s.putB pgTIME Reg.TIME.EPOCH_INIT_FROZEN true).put pgTIME Reg.TIME.EPOCH_EPOCH (epochOf s.now)
  let s := ((s.each allTiles (·.tileStarts f ·)).each concs (·.concReady ·)).each concs (·.concStarts f ·)
  let s := s.mixedBoundary f
  let s := { s with frames := [(f, s.frameInfo)] }
  let here := allTiles.filter (fun t => !(s.tile t).absent)
  let s := ({ s with cal := { s.cal with warm := here } } : State).putB pgCALS Reg.CALS.SWAP_STAT_WARM (!here.isEmpty)
  (s.put pgPWR Reg.PWR.STARTUP_STEP 11).noteTq

/-- The first frame of a start begins at the first whole frame of MT; the active domain's accumulator stands there. -/
def State.startOn (s : State) (u : Um) (acc : Int) (byTimeout : Bool) : State :=
  let f := ((acc + frameUnits - 1) / frameUnits).toNat
  let s := { s with time := { (s.time.setAcc u ((f : Int) * frameUnits)) with byTimeout := byTimeout } }
  let s := s.setSplice 0
  let s := (s.putB pgTIME Reg.TIME.TSTAT_ACTIVE u.isOne).putB pgTIME Reg.TIME.CLEAN_STAT_INPUT u.isOne
  let s := if byTimeout then s else (s.putB pgTIME Reg.TIME.TSTAT_ACQ true).event pgTIME 4
  let s := (s.startFrames f).each ums (fun s d => s.putB (pgTIMED d) Reg.TIMED.DSTAT_AGEING (!s.portLocked d))
  if s.portLocked u && !byTimeout then s else s.enterHoldover.noteTq

/-- ACC_d as a marker sets it: the marker's time and DELAY, with the epoch of EPOCH_INIT (R238). -/
def State.markerAcc (s : State) (u : Um) (time : Nat) : Int :=
  ((s.stored pgTIME Reg.TIME.EPOCH_INIT_EPOCH * 2 ^ 48 + time : Nat) : Int) * trefUnits +
    signedOf 32 (s.fld (pgTIMED u) Reg.TIMED.DELAY) * 65536

/-- An instant in 2^-20 tick. -/
def instant (at_ sub : Nat) : Int := (at_ : Int) * trefUnits + (sub : Int) * 65536

/-- ACC_d at an instant of the frame in progress: the active domain's is MT + SPLICE, and the standby one has gained with it
since the last boundary, and `gained` by its own reference while its port is locked (R233). -/
def State.accAt (s : State) (u : Um) (i gained : Int) : Int :=
  let k := ((i / trefUnits).toNat - s.frame * frameTref)
  let accA := i + s.spliceAfter k
  if u = s.active then accA
  else s.time.acc u + s.standbyGain (accA - s.time.acc s.active) k + (if s.portLocked u then gained else 0)

/-- |SPLICE| has fallen below 1 tick after a start by timeout (R239). -/
def State.settleTimeout (s : State) : State :=
  if s.time.byTimeout && s.acquired s.active && decide (s.time.splice.natAbs < 2 ^ 20) then
    let s := { s with time := { s.time with byTimeout := false } }
    ((s.putB pgTIME Reg.TIME.TSTAT_ACQ true).event pgTIME 4).noteTq
  else s

/-- Domain 1 started the frames with an acquisition in the superframe in which domain 0 now acquires (R239). -/
def State.sameSuperframe (s : State) (u : Um) (time : Nat) : Bool :=
  u == .um0 && s.active == .um1 && !s.time.byTimeout && decide (s.frame < s.time.first + 3) &&
    (match s.time.lock1.last with | some l => decide ((signedDiff 48 time l).natAbs < 16384) | none => false)

/-- A domain's accumulator is loaded with `v` at an instant within the frame: it stands so much further at the boundary too. -/
def State.loadAcc (s : State) (u : Um) (v i gained : Int) : State :=
  { s with time := s.time.setAcc u (s.time.acc u + (v - s.accAt u i gained)) }

/-- A domain acquires at a marker (R238, R239). Before the first frame begins that is its start. Domain 0 that acquires later in
the superframe in which domain 1 did is made active without a step of MT, SPLICE taking the difference (R235; DESIGN CHOICE,
log 49). -/
def State.acquire (s : State) (u : Um) (time at_ sub : Nat) (gained : Int) : State :=
  let v := s.markerAcc u time
  let i := instant at_ sub
  let same := s.sameSuperframe u time
  let s := (s.putB (pgTIMED u) Reg.TIMED.DSTAT_ACQUIRED true).event (pgTIMED u) 3
  if !s.running || (same && decide (s.frame = s.time.first) && decide (at_ ≤ s.frame * frameTref)) then s.startOn u v false
  else
    let d := v - s.accAt u i gained
    let moved := s.loadAcc u v i gained
    if u = s.active then ((moved.setSplice (s.time.splice + d)).exitHoldover).settleTimeout
    else if same then
      let s := moved.setSplice (s.time.splice + (v - s.accAt s.active i 0))
      let s := (s.putB pgTIME Reg.TIME.TSTAT_ACTIVE u.isOne).putB pgTIME Reg.TIME.CLEAN_STAT_INPUT u.isOne
      { s with frames := s.frames.map (fun (x : Nat × FrameInfo) => (x.1, { x.2 with domain := u.isOne })) }
    else moved

/-- MARK_ERR of a locked port's marker (R240). -/
def State.markErr (s : State) (u : Um) (time at_ sub : Nat) (gained : Int) : State :=
  let d := signedOf 80 (unsignedOf 80 ((time : Int) * trefUnits + signedOf 32 (s.fld (pgTIMED u) Reg.TIMED.DELAY) * 65536 -
    s.accAt u (instant at_ sub) gained))
  s.put (pgTIMED u) Reg.TIMED.MARK_ERR (unsignedOf 32 (clampInt (-(2 ^ 31 - 1)) (2 ^ 31 - 1) (d / 65536)))

/-! ### Markers -/

/-- The port adopts the IDs of the first marker that passes its CRC while FIXED is 0 (R370); a write to TREE that waits for the
boundary replaces them there (R404). -/
def State.adopt (s : State) (u : Um) (m : Marker) : State :=
  if m.crcOk && s.fld (pgUM u) Reg.UM.TREE_FIXED == 0 then
    let w := BitVec.ofNat 32 (packFields [(1, 1), (7, 0), (8, m.partId.toNat), (16, m.treeId.toNat)])
    let key := regKey (pgUM u) Reg.UM.TREE.off
    if (mapFind key s.stale).isSome then { s with stale := mapPut key w s.stale }
    else { s.put (pgUM u) Reg.UM.TREE w.toNat with saved := mapPut key w s.saved }
  else s

/-- The marker carries the port's IDs, as they are in force (R404). -/
def State.ownMarker (s : State) (u : Um) (m : Marker) : Bool :=
  m.crcOk && s.fld (pgUM u) Reg.UM.TREE_TREE_ID == m.treeId.toNat &&
    s.fld (pgUM u) Reg.UM.TREE_PART_ID == m.partId.toNat

/-- A good marker counts towards lock; at a locked port it sets MARK_ERR, and the first one acquires the domain, which then stands
at the marker's own time: no error (R240). -/
def State.goodMarker (s : State) (u : Um) (time at_ sub : Nat) (gained : Int) : State :=
  let k := s.time.lock u
  let s := { s with time := s.time.setLock u { k with good := min 4 (k.good + 1), bad := 0, last := some time } }
  if s.portLocked u then
    (if s.acquired u || s.step470 < 10 then (if s.running then s.markErr u time at_ sub gained else s)
     else (s.acquire u time at_ sub gained).put (pgTIMED u) Reg.TIMED.MARK_ERR 0)
  else if 4 ≤ k.good + 1 then s.gainLock u else s

/-- A marker of the port's own that carries another time than its last led to expect: it is bad (R232), and a locked port's
MARK_ERR follows it as it follows every marker (R240). -/
def State.strayMarker (s : State) (u : Um) (time at_ sub : Nat) (gained : Int) : State :=
  (if s.portLocked u && s.running then s.markErr u time at_ sub gained else s).badMarker u (some time)

/-- SUPERFRAME_MARKER: the marker that opens a superframe, as a port receives it. -/
def State.superframeMarker (s : State) (u : Um) (m : Marker) (at_ sub : Nat) : State :=
  let s := ((if s.running then s.advance at_ else s).adopt u m).putB (pgUM u) Reg.UM.PSTAT_SYNC true
  let s := { s with time := s.time.setLock u { s.time.lock u with cdr := true } }
  let k := s.time.lock u
  let t := m.time.toNat
  if s.ownMarker u m && m.timeValid && m.frame == 0 then
    match k.expected with
    | none => { s with time := s.time.setLock u { k with good := 0, last := some t } }
    | some x => if t = x then s.goodMarker u t at_ sub m.gained else s.strayMarker u t at_ sub m.gained
  else s.badMarker u k.expected

/-- ACQ_TIMEOUT: no domain has acquired (R239): domain 0 runs on the cleaner core from coarse 0. -/
def State.acqTimeout (s : State) : State :=
  if !s.running && s.step470 == 10 && s.stored pgTIME Reg.TIME.CTRL_ACQ_TIMEOUT != 0 then
    s.startOn .um0 (((s.stored pgTIME Reg.TIME.EPOCH_INIT_EPOCH * 2 ^ 48 : Nat) : Int) * trefUnits) true
  else s

/-- CLEANER_LOCK: the cleaner has locked to its input (R241). The core's control value is not stated. -/
def State.cleanerLock (s : State) : State :=
  if s.portLocked s.active then
    let (v, s) := s.draw
    ((s.putB pgTIME Reg.TIME.CLEAN_STAT_LOCK true).putB pgTIME Reg.TIME.TSTAT_CLEAN_LOCK true).put pgTIME
      Reg.TIME.CLEAN_STAT_CTRL_VAL v
  else s

/-! ### Increments, slews and the splice (R233-R237, R246) -/

/-- A countdown register changes: its value in force, and the stored one unless a write waits. -/
def State.putCount (s : State) (page : Nat) (f : FieldRef) (v : Nat) : State :=
  match mapFind (regKey page f.off) s.stale with
  | some w => { s with stale := mapPut (regKey page f.off) (fieldPut f v w) s.stale }
  | none => s.put page f v

/-- A slew ends (R237). -/
def State.endSlew (s : State) (u : Um) : State :=
  ((s.putCount (pgTIMED u) Reg.TIMED.SLEW_CNT 0).putB (pgTIMED u) Reg.TIMED.DSTAT_SLEWING false).event (pgTIMED u) 2

/-- k periods of a slew pass. -/
def State.runSlew (s : State) (u : Um) (k : Nat) : State :=
  if k = 0 then s
  else if k < s.slewLeft u then s.putCount (pgTIMED u) Reg.TIMED.SLEW_CNT (s.slewLeft u - k) else s.endSlew u

/-- SLEW_DONE: the last periods of a slew have passed within the frame in progress. -/
def State.slewDone (s : State) (u : Um) : State :=
  let k := s.slewLeft u
  if 0 < k ∧ k ≤ 4097 then
    let o := s.active.other
    let s := { s with time := s.time.setAcc o (s.time.acc o + s.slewGain u k) }
    s.endSlew u
  else s

/-- A splice slew stops. -/
def State.endSplice (s : State) : State :=
  ({ s with time := { s.time with splRun := false } } : State).putCount pgTIME Reg.TIME.SPL_COUNT 0

/-- n periods pass for a running splice slew (R246). -/
def State.runSplice (s : State) (n : Nat) : State :=
  if s.time.splRun then
    let t := s.setSplice (s.spliceAfter n)
    if s.spliceRuns ≤ n then t.endSplice
    else t.putCount pgTIME Reg.TIME.SPL_COUNT (s.fld pgTIME Reg.TIME.SPL_COUNT - n)
  else s

/-- SPLICE_SLEW_END: the last periods of a splice slew have passed within the frame in progress. -/
def State.spliceSlewEnd (s : State) : State :=
  if s.time.splRun && decide (s.spliceRuns ≤ 4097) then (s.runSplice s.spliceRuns).settleTimeout else s

/-- The accumulators reach the boundary that begins frame f. MT is there by R234; the standby domain has advanced by its
increment for each period of the active one, with what its own reference gained, `drift`, while its port is locked (R233). -/
def State.advanceDomains (s : State) (f : Nat) (drift : Int) : State :=
  let a := s.active
  let o := a.other
  let kA := min 4096 (s.slewLeft a)
  let kO := min 4096 (s.slewLeft o)
  let accA : Int := (f : Int) * frameUnits + s.spliceAfter 4096
  let gain := s.standbyGain (accA - s.time.acc a) 4096 + (if s.portLocked o then drift else 0)
  let s := s.runSplice 4096
  let s := { s with time := (s.time.setAcc a accA).setAcc o (s.time.acc o + gain) }
  ((s.runSlew a kA).runSlew o kO)

/-! ### Domain switches (R242-R245) -/

/-- ACC_t − ACC_active of the last boundary, as two 80-bit values differ (R228, R233). -/
def State.accDiff (s : State) (t : Um) : Int := signedOf 80 (unsignedOf 80 (s.time.acc t - s.time.acc s.active))

/-- The two differ so at the present time, within a frame too. What the standby's own reference has gained in this frame, which no
request reports, is left out (DEDUCED, log 49). -/
def State.accDiffNow (s : State) (t : Um) : Int :=
  let i := instant s.now 0
  signedOf 80 (unsignedOf 80 (s.accAt t i 0 - s.accAt s.active i 0))

/-- The range conditions of R242, for a difference of the accumulators and the SPLICE that it is added to. -/
def switchInRange (diff splice : Int) : Bool :=
  decide (diff.natAbs < 2 ^ 55) && decide ((splice + diff / 256 * 256).natAbs < 2 ^ 55)

/-- The range conditions of R242 on a switch to domain t at the boundary. -/
def State.inRange (s : State) (t : Um) : Bool := switchInRange (s.accDiff t) s.time.splice

/-- A switch refused or cancelled. -/
def State.rejectSwitch (s : State) : State := (s.bump pgTIME Reg.TIME.SW_REJ_CNT 2).event pgTIME 1

/-- A host's request (R242): whether it is accepted, and the state after. -/
def State.requestSwitch (s : State) (target : Bool) (sheaf : Nat) : Bool × State :=
  let t := umOf target
  let f := frameOfSheaf s.frame sheaf
  if t ≠ s.active ∧ s.acquired t = true ∧ s.portLocked t = true ∧ 2 ≤ signedDiff 32 sheaf (sheafOf s.frame) ∧
      s.time.pendSwitch = none ∧ s.time.recheck = false ∧ switchInRange (s.accDiffNow t) s.spliceNow = true ∧
      s.running = true then
    (true, ({ s with time := { s.time with pendSwitch := some { target := target, frame := f, auto := false } } } : State).putB
      pgTIME Reg.TIME.TSTAT_SW_PENDING true)
  else (false, s.rejectSwitch)

/-- No switch is pending. -/
def State.dropSwitch (s : State) : State :=
  ({ s with time := { s.time with pendSwitch := none } } : State).putB pgTIME Reg.TIME.TSTAT_SW_PENDING false

/-- The switch of R245 at the boundary that begins frame f. -/
def State.takeSwitch (s : State) (t : Um) (auto : Bool) (f : Nat) : State :=
  let off := s.accDiff t / 256
  let s := { s with time := s.time.setAcc t (s.time.acc s.active + s.accDiff t) }
  let s := (if s.time.splRun then s.endSplice else s).setSplice (s.time.splice + off * 256)
  let s := (s.putB pgTIME Reg.TIME.TSTAT_ACTIVE t.isOne).putB pgTIME Reg.TIME.CLEAN_STAT_INPUT t.isOne
  let d : DSwitch := { target := t.isOne, auto := auto, offset := off }
  let s := { s with
    time := { s.time with recheck := false }
    frames := s.frames.map (fun (x : Nat × FrameInfo) => if f ≤ x.1 then
      (x.1, { x.2 with domain := t.isOne, dswitch := if x.1 = f then some d else x.2.dswitch }) else x) }
  let s := (s.bump pgTIME Reg.TIME.SW_CNT 0).bump pgTIME Reg.TIME.AUTO_SW_CNT 1 auto.toNat
  let s := (s.event pgTIME 0).journalEvent 0xE2 resOK 0x0002 0x044 0 t.idx
  let s := if s.portLocked t then s.exitHoldover else s.enterHoldover
  s.dropSwitch.settleTimeout

/-- The frame that has just begun at a switch takes the quality that holds from the switch on (R248). -/
def State.freshTq (s : State) : State :=
  match mapFind s.frame s.frames with
  | some i => ({ s with frames := mapPut s.frame { i with tq := s.tqNow } s.frames } : State).put pgTIME Reg.TIME.TSTAT_TQ s.tqNow
  | none => s

/-- A switch is pending for the boundary that begins frame f, or an earlier one. -/
def State.switchDue (s : State) (f : Nat) : Bool :=
  match s.time.pendSwitch with | some p => decide (p.frame ≤ f) | none => false

/-- The pending switch at its boundary (R243-R245); an automatic one is not taken while AUTO_SW is 0. -/
def State.decideSwitch (s : State) (p : PendSwitch) : State :=
  let t := umOf p.target
  if p.auto && !s.flag pgTIME Reg.TIME.CTRL_AUTO_SW then s.dropSwitch
  else if !s.portLocked t then
    (if p.auto then s.dropSwitch else s.dropSwitch.rejectSwitch)
  else if p.auto && !s.inRange t then
    let s := s.dropSwitch.rejectSwitch
    { s with time := { s.time with recheck := !s.portLocked s.active } }
  else (s.takeSwitch t p.auto p.frame).freshTq

/-- DOMAIN_SWITCH_BOUNDARY: the pending switch at its boundary. The commands' times that convert at this boundary convert after it
(R175, R196). -/
def State.domainSwitchBoundary (s : State) : State :=
  match s.time.pendSwitch with
  | some p => if s.frame < p.frame then s else ((s.decideSwitch p).convertTimed s.frame).sendWindows
  | none => s

/-- A withheld automatic switch is checked again at the boundary that begins frame f (R243). -/
def State.recheckSwitch (s : State) (f : Nat) : State :=
  if s.time.recheck then
    let o := s.active.other
    if s.portLocked s.active || !s.portLocked o || !s.flag pgTIME Reg.TIME.CTRL_AUTO_SW then { s with time := { s.time with recheck := false } }
    else if s.inRange o then (s.takeSwitch o true f).freshTq else s
  else s

/-! ### The boundary's share -/

/-- A write of SLEW_CNT or SPL_COUNT comes into force (R237, R246). A write of 0 that ends a running slew sets no SLEW_DONE
(DESIGN CHOICE, log 64). -/
def State.slewWritten (s : State) (u : Um) : State :=
  s.putB (pgTIMED u) Reg.TIMED.DSTAT_SLEWING (s.stored (pgTIMED u) Reg.TIMED.SLEW_CNT != 0)
def State.spliceWritten (s : State) : State :=
  { s with time := { s.time with splRun := s.stored pgTIME Reg.TIME.SPL_COUNT != 0 } }

/-- TSTAT.SW_PENDING: an automatic switch shows from the boundary before its own. -/
def State.showSwitch (s : State) (f : Nat) : State :=
  s.putB pgTIME Reg.TIME.TSTAT_SW_PENDING (match s.time.pendSwitch with
    | some p => !p.auto || decide (p.frame ≤ f + 1)
    | none => false)

/-- The timing core at the boundary that begins frame f, before writes come into force there. -/
def State.timeBoundary (s : State) (f : Nat) (drift : Int) : State :=
  let s := (s.countHold (f * frameTref)).advanceDomains f drift
  (s.put pgTIME Reg.TIME.EPOCH_EPOCH (epochOf (f * frameTref))).settleTimeout

/-- SNAP.GO: MT and both accumulators as they stand at the boundary that begins frame f. -/
def State.snap (s : State) (f : Nat) : State :=
  let t := f * frameTref
  let s := ((s.put pgTIME Reg.TIME.SNAP_EPOCH_EPOCH (epochOf t)).put pgTIME Reg.TIME.SNAP_COARSE_HI_COARSE
    (coarseOf t / 2 ^ 32)).put pgTIME Reg.TIME.SNAP_COARSE_LO (coarseOf t % 2 ^ 32)
  let s := s.put pgTIME Reg.TIME.SNAP_FINE 0
  s.each ums (fun s u =>
    let v := unsignedOf 96 (s.time.acc u)
    let p := pgTIMED u
    (((s.put p Reg.TIMED.ACC_EPOCH_EPOCH (v / 2 ^ 80)).put p Reg.TIMED.ACC_COARSE_HI_COARSE (v / 2 ^ 64 % 2 ^ 16)).put p
      Reg.TIMED.ACC_COARSE_LO (v / 2 ^ 32 % 2 ^ 32)).put p Reg.TIMED.ACC_FINE (v % 2 ^ 32))

end Sys2Proof.Machine
end

