-- ==== Sys2Proof/Machine/Monitor.lean ====
section
/-!
DEFINITION. The environmental monitor and the interlock outputs (R417-R445): the sequencer's visits, conversions and their
results, wire breaks, and the states of ILK_A and ILK_B.
-/

namespace Sys2Proof.Machine

/-! ### Entries (R417-R420, R423-R426) -/

/-- A field of an entry's registers in words taken at a visit. -/
def Visit.pos (v : Visit) : Nat := fieldGet Reg.MONX.XP_POS v.xp
def Visit.neg (v : Visit) : Nat := fieldGet Reg.MONX.XP_NEG v.xp
def Visit.excPin (v : Visit) : Nat := fieldGet Reg.MONX.XP_EXC_PIN v.xp
def Visit.biasPin (v : Visit) : Nat := fieldGet Reg.MONX.XP_BIAS_PIN v.xp
def Visit.mode (v : Visit) : Nat := fieldGet Reg.MONX.EXC_MODE v.exc
def Visit.gain (v : Visit) : Nat := fieldGet Reg.MADC.CONV_GAIN v.conv
def Visit.rate (v : Visit) : Nat := fieldGet Reg.MADC.CONV_RATE v.conv
def Visit.ref (v : Visit) : Nat := fieldGet Reg.MADC.CONV_REF v.conv

/-- A source that R418 lists. -/
def posValid (p : Nat) : Bool := decide (p < 0x45) || (decide (0x48 ≤ p) && decide (p < 0x4F)) ||
  (decide (0x50 ≤ p) && decide (p < 0x53))

/-- An internal temperature or rail source (R418): GAIN and REF are ignored. -/
def posInternal (p : Nat) : Bool := decide (0x10 ≤ p) && decide (p < 0x4F)

/-- NEG, EXC_PIN and BIAS_PIN are used: for a pin, the test DAC and the shorted input (R418). -/
def posUsesPins (p : Nat) : Bool := decide (p < 0x10) || p == 0x50 || p == 0x51

/-- The pins of the roles an entry gives. -/
def Visit.roles (v : Visit) : List Nat :=
  if posUsesPins v.pos then [v.pos, v.neg, v.excPin, v.biasPin].filter (· < 0x10) else []

/-- The pins that the window comparator watches (R428): those named as POS or NEG. -/
def Visit.watched (v : Visit) : List Nat :=
  if posUsesPins v.pos then [v.pos, v.neg].filter (· < 0x10) else []

/-- An entry is invalid (R419). -/
def Visit.invalid (v : Visit) : Bool :=
  !decide v.roles.Nodup || !posValid v.pos || (posUsesPins v.pos && decide (0x10 < v.neg)) || v.mode == 3 ||
    (!posInternal v.pos && v.ref == 2 && v.mode == 0) ||
    (posUsesPins v.pos && (v.mode == 1 || v.mode == 2) && decide (0x10 ≤ v.excPin))

/-- A sine entry demodulates (R425). -/
def Visit.sine (v : Visit) : Bool := posUsesPins v.pos && v.mode == 2

/-- LEVEL; values above 200 act as 200 (R420). -/
def Visit.level (v : Visit) : Nat := min 200 (fieldGet Reg.MONX.EXC_LEVEL v.exc)

/-- The excitation that a visit applies (R420). -/
def Visit.excitation (v : Visit) : Excitation :=
  if v.invalid || !posUsesPins v.pos then {}
  else if v.mode = 1 then { mode := 1, level := v.level, pin := v.excPin }
  else if v.mode = 2 then
    { mode := 2, level := v.level, freq := fieldGet Reg.MONX.EXC_FREQ v.exc, phase := fieldGet Reg.MONX.EXC_PHASE v.exc,
      pin := v.excPin }
  else {}

/-- The output rate of a code in tenths of a sample per second (R424). -/
def rateOf (code : Nat) : Nat :=
  ([40000, 20000, 10000, 5000, 2500, 1000, 500, 250, 100, 50, 25][code]?).getD 25

/-- The rate code at which an entry converts (R424, R425). -/
def Visit.rateCode (v : Visit) : Nat :=
  let r := min v.rate 10
  let lim := 100 * fieldGet Reg.MONX.EXC_FREQ v.exc
  if v.sine && decide (lim < rateOf r) then ((List.range 11).find? (fun c => decide (rateOf c ≤ lim))).getD 10 else r

/-- F, the periods the filter needs (R424). -/
def Visit.settle (v : Visit) : Nat := if 8 ≤ v.rateCode then 4 else 3

/-- The test DAC replaces the positive input (R426). -/
def Visit.tested (v : Visit) : Bool :=
  fieldGet Reg.MADC.CONV_TEST v.conv == 1 && decide (v.pos < 0x10) && !v.sine

/-- The settings whose difference flushes the filter (R431). -/
def Visit.settings (v : Visit) : Nat × Nat × Nat × Nat × Nat := (v.pos, v.neg, v.gain, v.rate, v.ref)

/-- The reference an entry converts against is settled (R423): sine and ratiometric entries use their excitation. -/
def State.refOk (s : State) (v : Visit) : Bool :=
  if v.sine then true
  else if posInternal v.pos || v.ref == 0 then s.flag pgMADC Reg.MADC.REF_STAT_INT_OK
  else if v.ref = 1 then s.flag pgMADC Reg.MADC.REF_STAT_EXT_OK
  else true

/-! ### Excitation, bias and the crosspoint (R417, R420, R421, R428) -/

/-- The voltage of a DC excitation against monitor ground, and the amplitude of a sine, in nV (R420). -/
def Visit.dcNv (v : Visit) : Int := 500000000 + 10000000 * (v.level : Nat)
def Visit.sineNv (v : Visit) : Int := 5000000 * (v.level : Nat)

/-- What the crosspoint connects a MON pin to (R417, R420, R421): nothing; the converter's positive or negative input; an excitation,
with its DC voltage or the amplitude of a sine about 1.25 V, in nV, its frequency in units of 100 Hz, its phase, and the limit of its
driver in µA; or the bias of 1.25 V behind 1 kΩ. -/
inductive PinRole where
  | highZ
  | positive
  | negative
  | dc (nv : Int) (limit : Nat)
  | sine (nv : Int) (freq phase limit : Nat)
  | bias
  deriving DecidableEq, Repr

/-- An entry's break is latched (R429). -/
def State.broken (s : State) (n : Nat) : Bool := (s.rd pgMONX Reg.MONX.BREAK.off).getLsbD n

/-- The limit of an entry's excitation driver in µA: 10 mA, or 100 µA while its break is latched (R420, R428, R429). -/
def State.driverLimit (s : State) (n : Nat) : Nat := if s.broken n then 100 else 10000

/-- The role that the converting entry gives a pin; a pin it does not name is held at high impedance (R417). While a visit
switches, and while none runs, every pin is. -/
def State.pinRole (s : State) (pin : Nat) : PinRole :=
  match s.mon.visit with
  | none => .highZ
  | some v =>
    if v.switching || v.invalid || !posUsesPins v.pos then .highZ
    else if pin = v.pos then .positive
    else if pin = v.neg then .negative
    else if v.mode = 1 ∧ pin = v.excPin then .dc v.dcNv (s.driverLimit v.entry)
    else if v.mode = 2 ∧ pin = v.excPin then
      .sine v.sineNv (fieldGet Reg.MONX.EXC_FREQ v.exc) (fieldGet Reg.MONX.EXC_PHASE v.exc) (s.driverLimit v.entry)
    else if pin = v.biasPin then .bias
    else .highZ

/-- V_ref of R423 in nV for a conversion: `ext` is MON_REFP − MON_REFN. A sine entry has its own amplitude for reference (R425), an
internal source the internal one. -/
def Visit.refNv (v : Visit) (ext : Int) : Int :=
  if v.sine then v.sineNv
  else if posInternal v.pos || v.ref == 0 then 1250000000
  else if v.ref = 1 then ext
  else v.dcNv

/-- An entry's registers as a visit would take them now (R434). -/
def State.entryNow (s : State) (n : Nat) (urgent : Bool) : Visit :=
  { entry := n, urgent := urgent, xp := s.rd pgMONX (0x100 + 4 * n), conv := s.rd pgMADC (0x100 + 4 * n),
    exc := s.rd pgMONX (0x180 + 4 * n), switching := true, flush := 0,
    left := if fieldGet Reg.MADC.CONV_NCONV (s.rd pgMADC (0x100 + 4 * n)) = 0 then 16
      else fieldGet Reg.MADC.CONV_NCONV (s.rd pgMADC (0x100 + 4 * n)),
    aged := 0, refLost := false }

/-- The words an entry took at its last visit, with what reached it since (R434); before its first, the reset values of its
registers. -/
def State.entryTaken (s : State) (n : Nat) : Visit :=
  let w := (mapFind n s.mon.taken).getD (0x51101F1F, 0x00000002, 0x00000A00)
  { s.entryNow n true with xp := w.1, conv := w.2.1, exc := w.2.2 }
def State.takeEntry (s : State) (v : Visit) : State :=
  { s with mon := { s.mon with taken := mapPut v.entry (v.xp, v.conv, v.exc) s.mon.taken } }

/-- A write to a MONX or MADC page has come into force: where it reaches an entry's EXC or CONV, the boundary takes it as a change
if that entry converts, be the value the same or not (R433; DEDUCED, log 73). -/
def State.touchEntry (s : State) (page off : Nat) : State :=
  if page = pgMONX ∧ 0x180 ≤ off ∧ off < 0x200 then
    { s with mon := { s.mon with touched := insertNew ((off - 0x180) / 4) s.mon.touched } }
  else if page = pgMADC ∧ 0x100 ≤ off ∧ off < 0x180 then
    { s with mon := { s.mon with touched := insertNew ((off - 0x100) / 4) s.mon.touched } }
  else s

/-- An entry's break bit. -/
def State.setBroken (s : State) (n : Nat) (b : Bool) : State :=
  let w := s.rd pgMONX Reg.MONX.BREAK.off
  let m := BitVec.ofNat 32 (2 ^ n)
  s.wr pgMONX Reg.MONX.BREAK.off (if b then w ||| m else w &&& ~~~m)

/-! ### Interlock outputs (R435, R436) -/

/-- The fields of an interlock output's registers. -/
def ilkField (p : Pin) (a b : FieldRef) : FieldRef := match p with | .a => a | .b => b
def ilkCtrl (p : Pin) (f : FieldRef) : FieldRef := { f with off := f.off + 0x0C * p.idx }
def State.ilkSources (s : State) : Pin → Option (List IlkSource) | .a => s.mon.ilkA | .b => s.mon.ilkB
def State.setIlkSources (s : State) (p : Pin) (l : Option (List IlkSource)) : State :=
  match p with | .a => { s with mon := { s.mon with ilkA := l } } | .b => { s with mon := { s.mon with ilkB := l } }

/-- The state of an output: 0 FAULT, 1 NORMAL, 2 HOLDING. -/
def State.ilkState (s : State) (p : Pin) : Nat :=
  s.stored pgILK (ilkField p Reg.ILK.STAT_A_STATE Reg.ILK.STAT_B_STATE)

/-- The entries that an output names (R432, R435), none while it is disabled. -/
def State.ilkEntries (s : State) (p : Pin) : Option (List Nat) :=
  if s.flag pgILK (ilkCtrl p Reg.ILK.A_CTRL_EN) then
    some ([s.fld pgILK (ilkCtrl p Reg.ILK.A_CTRL_SRC0)] ++
      (if s.fld pgILK (ilkCtrl p Reg.ILK.A_CTRL_COMB) = 0 then [] else [s.fld pgILK (ilkCtrl p Reg.ILK.A_CTRL_SRC1)]))
  else none

/-- An entry is urgent (R432). -/
def State.urgent (s : State) (n : Nat) : Bool :=
  [Pin.a, Pin.b].any (fun p => match s.ilkEntries p with | some l => l.contains n | none => false)

/-- An output enters FAULT with a cause, or shows another cause (R436, R445). -/
def State.ilkFault (s : State) (p : Pin) (cause : Nat) : State :=
  let enter := s.ilkState p ≠ 0
  let s := (s.put pgILK (ilkField p Reg.ILK.STAT_A_STATE Reg.ILK.STAT_B_STATE) 0).put pgILK
    (ilkField p Reg.ILK.STAT_A_CAUSE Reg.ILK.STAT_B_CAUSE) cause
  if enter then
    (s.bump pgILK (ilkField p Reg.ILK.A_FAULT_CNT Reg.ILK.B_FAULT_CNT) p.idx).event pgILK p.idx else s

/-- An output becomes NORMAL or HOLDING; leaving FAULT is an event (R436, R445). -/
def State.ilkGood (s : State) (p : Pin) (st : Nat) : State :=
  let leave := s.ilkState p = 0
  let s := (s.put pgILK (ilkField p Reg.ILK.STAT_A_STATE Reg.ILK.STAT_B_STATE) st).put pgILK
    (ilkField p Reg.ILK.STAT_A_CAUSE Reg.ILK.STAT_B_CAUSE) 0
  s.eventIf leave pgILK (2 + p.idx)

/-- HOLD and 2 × PERIOD in T_ref (R436). -/
def State.ilkHold (s : State) (p : Pin) : Nat := s.fld pgILK (ilkCtrl p Reg.ILK.A_CTRL_HOLD) * 10 * msTref
def State.ilkLate (s : State) (p : Pin) : Nat := 2 * s.fld pgILK (ilkCtrl p Reg.ILK.A_CTRL_PERIOD) * msTref

/-- LO and HI of an output. -/
def State.ilkLo (s : State) (p : Pin) : Int := signedOf 24 (s.fld pgILK (ilkCtrl p Reg.ILK.A_LO_VALUE))
def State.ilkHi (s : State) (p : Pin) : Int := signedOf 24 (s.fld pgILK (ilkCtrl p Reg.ILK.A_HI_VALUE))

/-- k of R435. -/
def ilkCode (v lo hi : Int) : Nat :=
  (clampInt 0 4095 ((4095 * ((v - lo : Int) : Rat) / ((hi - lo : Int) : Rat) + 1 / 2).floor)).toNat

/-- The value of an output from its sources' latest valid values (R435). -/
def combine (comb : Nat) (l : List Int) : Option Int :=
  match comb, l with
  | _, [] => none
  | 1, v :: r => some (r.foldl max v)
  | 2, v :: r => some (r.foldl min v)
  | _, v :: _ => some v

/-- A source is invalid by the values in effect for it, or HI equals LO (cause 0x6 of R436; R434). -/
def State.ilkBad (s : State) (p : Pin) : Bool :=
  s.ilkHi p == s.ilkLo p || ((s.ilkEntries p).getD []).any (fun n => (s.entryTaken n).invalid)

/-- What an interlock output's pin does (R435, R436): constant low, a square wave of a frequency in Hz, or a duty in percent on a
1 kHz carrier. -/
inductive IlkDrive where
  | low
  | frequency (hz : Rat)
  | duty (percent : Rat)
  deriving DecidableEq, Repr

/-- The frequency and the duty that stand for k (R435). -/
def ilkFrequency (k : Nat) : Rat := 2000 + 96000 * (k : Rat) / 4095
def ilkDuty (k : Nat) : Rat := 10 + 80 * (k : Rat) / 4095

/-- The pin of an output: low in FAULT, before the belfry runs and while RESET_N is low (R436, R437). -/
def State.ilkPin (s : State) (p : Pin) : IlkDrive :=
  let k := s.stored pgILK (ilkField p Reg.ILK.A_OUT_K Reg.ILK.B_OUT_K)
  if s.ilkState p = 0 ∨ s.pow.resetLow = true ∨ s.pow.mode ≠ .on then .low
  else if s.flag pgILK (ilkCtrl p Reg.ILK.A_CTRL_MODE) then .duty (ilkDuty k)
  else .frequency (ilkFrequency k)

/-- A result of an entry as an output that names it takes it (R433, R436): FAULT and OVR act at once, STALE holds, a valid
result is the source's latest value and recomputes k (R435). -/
def State.ilkResult (s : State) (p : Pin) (n : Nat) (value : Int) (fault stale ovr : Bool) (at_ : Nat) : State :=
  match s.ilkSources p with
  | none => s
  | some l =>
    if !l.any (fun x => x.entry == n) then s
    else if s.ilkBad p then s.ilkFault p 6
    else if fault then s.ilkFault p 4
    else if stale then (if s.ilkState p = 1 then s.ilkGood p 2 else s)
    else if ovr then s.ilkFault p 5
    else
      let l := l.map (fun x => if x.entry = n then { x with value := some value, since := at_ } else x)
      let s := s.setIlkSources p (some l)
      if l.any (fun x => x.value.isNone) then s
      else
        let s := match combine (s.fld pgILK (ilkCtrl p Reg.ILK.A_CTRL_COMB)) (l.filterMap (·.value)) with
          | some v => s.put pgILK (ilkField p Reg.ILK.A_OUT_K Reg.ILK.B_OUT_K) (ilkCode v (s.ilkLo p) (s.ilkHi p))
          | none => s
        if l.all (fun x => decide (at_ < x.since + s.ilkHold p)) then s.ilkGood p 1 else s

/-- An output's sources at a boundary at which they changed (R436, R439): an output disabled is in FAULT, one enabled has
no valid result yet; a new source counts from its first valid result. -/
def State.ilkBoundary (s : State) (p : Pin) : State :=
  match s.ilkSources p, s.ilkEntries p with
  | _, none => if (s.ilkSources p).isSome then (s.setIlkSources p none).ilkFault p 1 else s
  | none, some l =>
    (s.setIlkSources p (some (l.map (fun n => { entry := n, value := none, since := s.now })))).ilkFault p
      (if s.ilkBad p then 6 else 2)
  | some old, some l =>
    let new : List IlkSource := l.map (fun n => (old.find? (fun x => x.entry == n)).getD
      { entry := n, value := none, since := s.now })
    let s := s.setIlkSources p (some new)
    if s.ilkBad p then s.ilkFault p 6 else s

/-- ILK_HOLD_EXPIRY (R436): an output holds when a source has had no valid result for 2 × PERIOD, and is in FAULT when
HOLD has passed since a source's last one. -/
def State.ilkHoldExpiry (s : State) (p : Pin) (at_ : Nat) : State :=
  let s := s.advance at_
  match s.ilkSources p with
  | none => s
  | some l =>
    if s.ilkState p = 0 then s
    else if l.any (fun x => x.value.isSome && decide (x.since + s.ilkHold p ≤ at_)) then s.ilkFault p 3
    else if s.ilkState p = 1 && l.any (fun x => decide (x.since + s.ilkLate p ≤ at_)) then s.ilkGood p 2
    else s

/-! ### Visits (R430-R434) -/

/-- What the sequencer shows of the visit in progress (R442). -/
def State.showVisit (s : State) : State :=
  match s.mon.visit with
  | some v => ((s.putB pgMADC Reg.MADC.SEQ_STAT_BUSY true).putB pgMADC Reg.MADC.SEQ_STAT_URGENT v.urgent).put pgMADC
      Reg.MADC.SEQ_STAT_ENTRY v.entry
  | none => ((s.putB pgMADC Reg.MADC.SEQ_STAT_BUSY false).putB pgMADC Reg.MADC.SEQ_STAT_URGENT false).put pgMONX
      Reg.MONX.PIN_OUT_PIN 0

/-- A visit begins with its switching (R431). -/
def State.visitBegin (s : State) (n : Nat) (urgent : Bool) : State :=
  let v := s.entryNow n urgent
  ((({ s with mon := { s.mon with visit := some v } } : State).takeEntry v).put pgMONX Reg.MONX.PIN_OUT_PIN 0).showVisit

/-- The first entry from n to LAST that a pass visits (R430). -/
def State.passEntry (s : State) (n : Nat) : Option Nat :=
  (List.range (s.fld pgMADC Reg.MADC.SEQ_CTRL_LAST + 1)).find? (fun e =>
    decide (n ≤ e) && (s.rd pgMADC (0x100 + 4 * e)).getLsbD 31 && !s.urgent e)

/-- The pass has ended (R430). -/
def State.passEnd (s : State) : State :=
  let s := ((s.bumpWrap pgMADC Reg.MADC.SEQ_STAT_PASS).event pgMADC 0)
  let s : State := { s with mon := { s.mon with next := 0 } }
  if s.flag pgMADC Reg.MADC.SEQ_CTRL_REPEAT then s else s.putB pgMADC Reg.MADC.SEQ_CTRL_RUNNING false

/-- The pass goes on from `next`, or ends and with REPEAT begins again at once; a pass that finds no entry to visit waits
for the next boundary. -/
def State.passStep (s : State) : State :=
  if !s.flag pgMADC Reg.MADC.SEQ_CTRL_RUNNING then s
  else match s.passEntry s.mon.next with
    | some n => ({ s with mon := { s.mon with next := n + 1 } } : State).visitBegin n false
    | none =>
      let s := s.passEnd
      if !s.flag pgMADC Reg.MADC.SEQ_CTRL_RUNNING then s
      else match s.passEntry 0 with
        | some n => ({ s with mon := { s.mon with next := n + 1 } } : State).visitBegin n false
        | none => s

/-- With no visit in progress the next one begins (R432): due urgent entries in ascending order, then an aborted entry
from its beginning, then the pass. -/
def State.visitNext (s : State) : State :=
  match s.mon.due with
  | n :: r => ({ s with mon := { s.mon with due := r } } : State).visitBegin n true
  | [] => match s.mon.aborted with
    | some n => ({ s with mon := { s.mon with aborted := none } } : State).visitBegin n false
    | none => s.passStep

/-- The visit in progress is over; the periods that are still to be STALE after its last change are kept (R433). -/
def State.leaveVisit (s : State) : State :=
  { s with mon := { s.mon with visit := none, aged := match s.mon.visit with
    | some v => if v.switching then s.mon.aged else v.aged
    | none => s.mon.aged } }

/-- A visit ends (R431). An excitation exists only while its entry converts (R421). -/
def State.visitEnd (s : State) : State :=
  let s := (s.leaveVisit.showVisit).visitNext
  if s.mon.visit.isNone then { s with mon := { s.mon with applied := {} } } else s

/-- Inserts into a rising list without repeats. -/
def insertRising (n : Nat) : List Nat → List Nat
  | [] => [n]
  | m :: r => if n < m then n :: m :: r else if n = m then m :: r else m :: insertRising n r

/-- URGENT_DUE (R432). -/
def State.urgentDue (s : State) (n : Nat) : State :=
  if !s.urgent n then s
  else match s.mon.visit with
    | none => (({ s with mon := { s.mon with due := insertRising n s.mon.due } } : State)).visitNext
    | some v =>
      if v.urgent then
        (if v.entry = n then s else { s with mon := { s.mon with due := insertRising n s.mon.due } })
      else
        let s := (s.bump pgMADC Reg.MADC.ABORT_CNT 0).leaveVisit
        (({ s with mon := { s.mon with due := insertRising n s.mon.due, aborted := some v.entry } } : State)).visitNext

/-- A result is written (R431, R442): counts, and the interlock outputs that name the entry. -/
def State.writeResult (s : State) (n : Nat) (value : Int) (fault stale ovr tested : Bool) (at_ : Nat) : State :=
  let off := 0x180 + 4 * n
  let w := BitVec.ofNat 32 (packFields [(24, unsignedOf 24 value), (1, fault.toNat), (1, stale.toNat), (1, ovr.toNat),
    (1, tested.toNat), (4, fieldGet Reg.MADC.RESULT_COUNT (s.rd pgMADC off) + 1)])
  let s := s.wr pgMADC off w
  let s := if stale then s.bump pgMADC Reg.MADC.STALE_CNT 1 else s
  let s := if ovr then (s.bump pgMADC Reg.MADC.OVR_CNT 2).event pgMADC 1 else s
  let s := if fault then s.bump pgMADC Reg.MADC.FAULT_CNT 3 else s
  (s.ilkResult .a n value fault stale ovr at_).ilkResult .b n value fault stale ovr at_

/-- A visit of an invalid entry writes one result with FAULT and ends: it converts nothing (R419). -/
def State.visitInvalid (s : State) (v : Visit) : State := (s.writeResult v.entry 4 true false false false s.now).visitEnd

/-- VISIT_SWITCH_DONE (R431, R433): the visit applies its crosspoint and excitation; another setting flushes the filter, and so
does another excitation (R433, R439); another excitation or reference is a change. -/
def State.visitSwitchDone (s : State) : State :=
  match s.mon.visit with
  | none => s
  | some v =>
    if !v.switching then s
    else
      let flush := match s.mon.last with | some x => x != v.settings | none => true
      let change := s.mon.applied != v.excitation ||
        (match s.mon.last with | some x => x.2.2.2.2 != v.ref | none => false)
      let s : State := { s with mon := { s.mon with last := some v.settings, applied := v.excitation } }
      if v.invalid then s.visitInvalid v
      else
        { s with mon := { s.mon with visit := some { v with switching := false,
                                                            flush := if flush || change then v.settle else 0,
                                                            aged := if change then v.settle + 1 else s.mon.aged,
                                                            refLost := !s.refOk v } } }

/-- The window of R428 in nV: values of LO at or above HI act as HI − 1. -/
def State.cmHigh (s : State) : Int := 20000000 * (s.fld pgMONX Reg.MONX.CM_WIN_HI : Nat)
def State.cmLow (s : State) : Int :=
  let hi := s.fld pgMONX Reg.MONX.CM_WIN_HI
  let lo := s.fld pgMONX Reg.MONX.CM_WIN_LO
  20000000 * (if hi ≤ lo then (hi : Int) - 1 else (lo : Int))

/-- The watched pins outside the window (R428), from the voltages on POS and NEG. -/
def State.outside (s : State) (v : Visit) (low : Bool) (pos neg : Int) : List Nat :=
  (v.watched.zip (if v.pos < 0x10 then [pos, neg] else [neg])).filterMap (fun x =>
    if (if low then decide (x.2 < s.cmLow) else decide (s.cmHigh < x.2)) then some x.1 else none)

/-- The code of R422 and R425 for a voltage against a reference. -/
def monCode (gain : Nat) (v ref : Rat) : Int := roundHalfUp (2 ^ 23 * 2 ^ gain * v / ref)

/-- The figure of an internal source after the sensor calibration of the class K image (R418, R446), which one of no sections does not
give (R458). -/
def State.sensed (s : State) (src : Nat) (x : Int) : Int := if s.kBody.isEmpty then x else Config.sensorCal s.kBody src x

/-- The value of a conversion (R418, R422, R425, R426), and how it is drawn where the manual states none: against a
reference of zero, and for a sine result outside the field. -/
def State.convert (s : State) (v : Visit) (pos neg sine ext : Int) : Int × State :=
  let ref := v.refNv ext
  let lim (x : Int) : Int := clampInt (-8388608) 8388607 x
  let dac : Rat := 2500000000 * (s.fld pgMADC Reg.MADC.TDAC_CODE : Nat) / 4096
  let (x, s) := s.draw
  let free := signedOf 24 x
  if posInternal v.pos then (lim (s.sensed v.pos pos), s)
  else if ref = 0 then (free, s)
  else if v.sine then
    let c := monCode v.gain sine ref
    (if c < -8388608 ∨ 8388607 < c then free else c, s)
  else
    let p : Rat := if v.tested || v.pos == 0x50 then dac else if v.pos = 0x51 then 0 else pos
    let n : Rat := if posUsesPins v.pos && decide (v.neg < 0x10) then neg else 0
    (lim (monCode v.gain (p - n) ref), s)

/-- The present window state as VALUE (R428, R429): 1 below, 2 above, 1 inside; with pins on both sides the manual does
not say which. -/
def windowState (free : Nat) (below above : List Nat) : Int :=
  if above.isEmpty then 1 else if below.isEmpty then 2 else 1 + (free % 2 : Nat)

/-- CONVERSION_RESULT (R429, R431, R433): a conversion period of the visit completes. Voltages are in nV; for an internal
source `pos` is the measured figure in the unit of R418. -/
def State.conversionResult (s : State) (pos neg sine ref : Int) (ovr : Bool) (at_ : Nat) : State :=
  let s := s.advance at_
  match s.mon.visit with
  | none => s
  | some v =>
    if v.switching then s
    else
      let below := s.outside v true pos neg
      let above := s.outside v false pos neg
      let s := s.put pgMONX Reg.MONX.PIN_OUT_PIN ((below ++ above).dedup.foldl (fun a p => a + 2 ^ p) 0)
      let stale := decide (0 < v.aged) || v.refLost
      let next : Visit := { v with aged := v.aged - 1, refLost := !s.refOk v }
      if 0 < v.flush then { s with mon := { s.mon with visit := some { next with flush := v.flush - 1 } } }
      else
        let last : Bool := decide (v.left ≤ 1)
        let rearmed := s.broken v.entry && fieldGet Reg.MONX.XP_REARM v.xp == 1 && last && below.isEmpty && above.isEmpty
        let s := if rearmed then s.setBroken v.entry false else s
        let (value, s) := s.convert v pos neg sine ref
        let (x, s) := s.draw
        let s := if s.broken v.entry then s.writeResult v.entry (windowState x below above) true stale ovr v.tested at_
          else s.writeResult v.entry value false stale ovr v.tested at_
        let s : State := { s with mon := { s.mon with visit := some { next with left := v.left - 1 } } }
        if last then s.visitEnd else s

/-- The code of a break's result and the pins it names (R428): none where the converting entry does not watch the cause. -/
def State.breakCode (s : State) (v : Visit) (cause : BreakCause) : Option (Int × Nat) :=
  match cause with
  | .pinAt p nv =>
    if !v.watched.contains p.val then none
    else if nv < s.cmLow then some (1, 2 ^ p.val)
    else if s.cmHigh < nv then some (2, 2 ^ p.val)
    else none
  | .currentLimit => if v.excitation.mode = 0 ∨ s.driverLimit v.entry < 10000 then none else some (3, 0)

/-- WIRE_BREAK (R428): a break is latched, its result written, and the entry's excitation limited; the visit goes on with
its remaining results. -/
def State.wireBreak (s : State) (cause : BreakCause) (at_ : Nat) : State :=
  let s := s.advance at_
  match s.mon.visit with
  | none => s
  | some v =>
    match s.breakCode v cause with
    | none => s
    | some (k, pins) =>
      if v.switching || s.broken v.entry then s
      else
        let s := s.setBroken v.entry true
        let s := s.put pgMONX Reg.MONX.PIN_OUT_PIN (s.stored pgMONX Reg.MONX.PIN_OUT_PIN ||| pins)
        let s := (s.bump pgMONX Reg.MONX.BREAK_CNT 0).event pgMONX 0
        let s := if k = 3 then (s.bump pgMONX Reg.MONX.ILIM_CNT 1).event pgMONX 1 else s
        let s := s.writeResult v.entry k true false false false at_
        if v.left ≤ 1 then s.visitEnd
        else { s with mon := { s.mon with visit := some { v with left := v.left - 1 } } }

/-- EXT_OK_CHANGE (R423, R433, R439). -/
def State.extOkChange (s : State) (ok : Bool) : State :=
  let s := s.putB pgMADC Reg.MADC.REF_STAT_EXT_OK ok
  match s.mon.visit with
  | none => s
  | some v =>
    if v.switching || v.sine || posInternal v.pos || v.ref != 1 || ok then s
    else ({ s with mon := { s.mon with visit := some { v with refLost := true } } } : State).event pgMADC 2

/-! ### The frame boundary (R430, R433, R434) -/

/-- EXC and CONV.REF of the converting entry take effect, which is a change wherever the host has written them (R433, R434). An
entry that they make invalid converts no further (R419; DEDUCED, log 73). -/
def State.visitBoundary (s : State) : State :=
  let wrote := s.mon.touched
  let s : State := { s with mon := { s.mon with touched := [] } }
  match s.mon.visit with
  | none => s
  | some v =>
    let exc := s.rd pgMONX (0x180 + 4 * v.entry)
    let conv := fieldPut Reg.MADC.CONV_REF (fieldGet Reg.MADC.CONV_REF (s.rd pgMADC (0x100 + 4 * v.entry))) v.conv
    let w : Visit := { v with exc := exc, conv := conv }
    if !wrote.contains v.entry && w == v then s
    else if v.switching then ({ s with mon := { s.mon with visit := some w } } : State).takeEntry w
    else
      let s := ({ s with mon := { s.mon with
          last := some w.settings, applied := w.excitation,
          visit := some { w with aged := w.settle + 1, refLost := v.refLost || !s.refOk w } } } : State).takeEntry w
      if w.invalid then s.visitInvalid w else s

/-- START and STOP act at a boundary (R430): a pass begins unless one runs; STOP ends the pass and abandons the normal
entry converting without its result, and one that waits to restart. -/
def State.monStart (s : State) : State :=
  if s.flag pgMADC Reg.MADC.SEQ_CTRL_RUNNING then s
  else ({ s with mon := { s.mon with next := 0 } } : State).putB pgMADC Reg.MADC.SEQ_CTRL_RUNNING true
def State.monStop (s : State) : State :=
  if !s.flag pgMADC Reg.MADC.SEQ_CTRL_RUNNING then s
  else
    let s := ({ s with mon := { s.mon with aborted := none } } : State).putB pgMADC Reg.MADC.SEQ_CTRL_RUNNING false
    match s.mon.visit with
    | some v => if v.urgent then s else s.visitEnd
    | none => s

/-- The monitor at a boundary, once the writes are in force: due entries that are no longer urgent are dropped, and with
no visit in progress the next begins. -/
def State.monBoundary (s : State) : State :=
  let s := ((s.visitBoundary).ilkBoundary .a).ilkBoundary .b
  let s : State := { s with mon := { s.mon with due := s.mon.due.filter (fun n => s.urgent n) } }
  if s.mon.visit.isNone then s.visitNext else s

end Sys2Proof.Machine
end

