-- ==== Sys2Proof/Machine/Scrub.lean ====
section
/-!
DEFINITION. Scrub passes (R330-R332), the register vote (R322), bucket leaks and thresholds (R326, R327), and the
clearing of fault entries (R335).
-/

namespace Sys2Proof

/-- The page of a scrubber. -/
def IntPage.page : IntPage → Nat
  | .dintg c => Machine.pgDINTG c
  | .intg => Machine.pgINTG

end Sys2Proof

namespace Sys2Proof.Machine

/-- The tile that a memory code 0x10 + t of the INTG page names. -/
def memTile (mem : Nat) : Fin 16 := ⟨mem % 16, Nat.mod_lt _ (by decide)⟩

/-- Words of a memory that a scrubber can read, none for a reserved code (R330, R340, R343). -/
def State.scrubWords (s : State) (p : IntPage) (mem : Nat) : Option Nat :=
  match p with
  | .dintg c =>
    if mem = 0 then some 262144 else if mem = 1 then some (s.groupUnits c false)
    else if mem = 2 then some (s.groupUnits c true) else none
  | .intg =>
    if mem = 0 then some 4194304 else if mem = 1 then some 32768 else if mem = 2 then some Config.coreWords
    else if 16 ≤ mem then some 4096 else none

/-- The region of a word that a scrubber reads (R341, R343). -/
def State.scrubRegion (s : State) (p : IntPage) (mem addr : Nat) : Nat :=
  match p with
  | .dintg c => if mem = 0 then 0 else (s.conc c).unitRegion (mem == 2) addr
  | .intg => if 16 ≤ mem then 4 + mem % 16 else mem

/-- The memory code chosen in SCRUB_MEM. -/
def State.scrubMem (s : State) (p : IntPage) : Nat :=
  match p with
  | .dintg c => s.stored (pgDINTG c) Reg.DINTG.SCRUB_MEM_MEM
  | .intg => s.stored pgINTG Reg.INTG.SCRUB_MEM_MEM

/-- The controller behind a page is frozen. -/
def State.scrubFrozen (s : State) : IntPage → Bool
  | .dintg c => s.dramFrozen c
  | .intg => false

/-- A GO is accepted (R330). -/
def State.scrubAllowed (s : State) (p : IntPage) : Bool :=
  let first := s.stored p.page Reg.DINTG.SCRUB_FIRST_ADDR
  let last := s.stored p.page Reg.DINTG.SCRUB_LAST_ADDR
  (mapFind p.page s.scrubs).isNone && decide (first ≤ last) && !s.scrubFrozen p &&
    (match s.scrubWords p (s.scrubMem p) with | some n => decide (last < n) | none => false)

/-- The summary of a pass begins anew (R332, R340). -/
def State.clearSummary (s : State) (page : Nat) : State :=
  ((((((s.put page Reg.DINTG.SCRUB_WORDS 0).put page Reg.DINTG.SCRUB_CORR 0).put page Reg.DINTG.SCRUB_UE 0).put page
    Reg.DINTG.SCRUB_FIRST_FAIL 0).put page Reg.DINTG.SCRUB_LAST_FAIL 0).put page Reg.DINTG.SCRUB_STICKY 0)

/-- SCRUB_CTRL.GO: a pass starts, or REJ is set (R330). -/
def State.scrubGo (s : State) (p : IntPage) : State :=
  let q := p.page
  if s.scrubAllowed p then
    let r : ScrubRun := { mem := s.scrubMem p, next := s.stored q Reg.DINTG.SCRUB_FIRST_ADDR,
                          last := s.stored q Reg.DINTG.SCRUB_LAST_ADDR, since := s.now }
    let s := ({ s with scrubs := mapPut q r s.scrubs } : State).clearSummary q
    (((s.putB q Reg.DINTG.SCRUB_CTRL_BUSY true).putB q Reg.DINTG.SCRUB_CTRL_DONE false).putB q
      Reg.DINTG.SCRUB_CTRL_ABORTED false).putB q Reg.DINTG.SCRUB_CTRL_REJ false
  else s.putB q Reg.DINTG.SCRUB_CTRL_REJ true

/-- SCRUB_FIRST_FAIL and SCRUB_LAST_FAIL (R332): addresses come in ascending order. -/
def State.noteFail (s : State) (page addr : Nat) : State :=
  let s := if s.flag page Reg.DINTG.SCRUB_FIRST_FAIL_VALID then s
    else (s.put page Reg.DINTG.SCRUB_FIRST_FAIL_ADDR addr).putB page Reg.DINTG.SCRUB_FIRST_FAIL_VALID true
  (s.put page Reg.DINTG.SCRUB_LAST_FAIL_ADDR addr).putB page Reg.DINTG.SCRUB_LAST_FAIL_VALID true

/-- The scrubber remembers a write-back, its last 256 (R333). -/
def State.rememberWriteBack (s : State) (page r addr : Nat) : State :=
  let mine := (s.writeBacks.filter (fun w => w.page == page)).take 255
  { s with writeBacks := { page := page, region := r, addr := addr, time := s.now } ::
      (mine ++ s.writeBacks.filter (fun w => w.page != page)) }

/-- An uncorrectable word found by a scrubber is written as poison, with the effect of R328. -/
def State.scrubPoison (s : State) (p : IntPage) (mem addr : Nat) : State :=
  match p with
  | .dintg c =>
    if mem = 0 then s.poisonEntry c addr
    else (s.setConc c ((s.conc c).poisonU (mem == 2) addr)).poisoned (pgDINTG c)
  | .intg =>
    if 16 ≤ mem then s.poisonTac ((memTile mem).val * 4096 + addr)
    else if mem = 1 then (s.poisonJournal (addr / 8)).poisoned pgINTG
    else if mem = 2 then (s.poisoned pgINTG).restartCore
    else s.poisonMram addr

/-- A scrub read of the stack leaves its page open (R296). -/
def State.scrubOpens (s : State) (p : IntPage) (mem addr : Nat) : State :=
  match p with
  | .dintg c => if mem = 0 then s else s.setConc c ((s.conc c).openPage (mem == 2) addr)
  | .intg => s

/-- One word of a pass (R331): a corrected word is written back and verified; a second correction shows it sticky
(R333). The write-back, its verify read and a poisoning are cancelled where the normal writer has written the word since
(R331, R338). -/
def State.scrubRead (s : State) (p : IntPage) (mem addr : Nat) (x : ScrubRead) : State :=
  let q := p.page
  let r := s.scrubRegion p mem addr
  let s := s.scrubOpens p mem addr
  match x.read with
  | .clean => s
  | .corrected bit again =>
    let s := ((s.correctedRead q r addr bit).noteFail q addr).put q Reg.DINTG.SCRUB_CORR
      (s.stored q Reg.DINTG.SCRUB_CORR + 1)
    if x.rewritten then s
    else
      let s := s.rememberWriteBack q r addr
      if again then (s.countCorrected q r addr).markSticky q r addr bit else s
  | .uncorrectable =>
    let s := ((s.uncorrectableRead q r).noteFail q addr).put q Reg.DINTG.SCRUB_UE (s.stored q Reg.DINTG.SCRUB_UE + 1)
    if x.rewritten then s else s.scrubPoison p mem addr

/-- The end of a pass (R332). -/
def State.scrubEnd (s : State) (page : Nat) : State :=
  ((({ s with scrubs := mapDel page s.scrubs } : State).putB page Reg.DINTG.SCRUB_CTRL_BUSY false).putB page
    Reg.DINTG.SCRUB_CTRL_DONE true).event page 24

/-- A scrub read of the stack waits while another read of its group stands before it (R294), during a change of the frequency
point (R297), and while the stack is in self-refresh (R468). -/
def State.scrubWaits (s : State) (p : IntPage) (mem : Nat) : Bool :=
  match p with
  | .dintg c => mem != 0 && (!s.stackAwake c || s.dramBusy c || !s.servesNow c (mem == 2) .scrub)
  | .intg => false

/-- A scrub read of the stack has been served. -/
def State.scrubServed (s : State) (p : IntPage) (mem : Nat) : State :=
  match p with
  | .dintg c => if mem = 0 then s else s.served c .scrub
  | .intg => s

/-- SCRUB_WORD: the scrubber reads its next word; a restart of the module ends the pass. -/
def State.scrubWord (s : State) (p : IntPage) (read : ScrubRead) (at_ : Nat) : State :=
  match mapFind p.page s.scrubs with
  | some r =>
    if s.scrubWaits p r.mem then s.advance at_
    else
    let s := ((s.advance at_).scrubServed p r.mem).scrubRead p r.mem r.next read
    if (mapFind p.page s.scrubs).isNone then s
    else
    let s := s.put p.page Reg.DINTG.SCRUB_WORDS (s.stored p.page Reg.DINTG.SCRUB_WORDS + 1)
    let s := { s with scrubs := mapPut p.page { r with next := r.next + 1, since := s.now } s.scrubs }
    if r.last ≤ r.next then s.scrubEnd p.page else s
  | none => s

/-- A page has a bucket for a region; region 7 of DINTG is reserved (R341, R343). -/
def hasBucket (p : IntPage) (r : Nat) : Bool :=
  match p with
  | .dintg _ => decide (r < 24) && r != 7
  | .intg => decide (r < 36)

/-- BUCKET_LEAK: LEAK_US has passed since the region's bucket leaked last (R326). Before its first leak it counts from module time
0 (DESIGN CHOICE, log 69: the phase of the leaks is open). -/
def State.bucketLeak (s : State) (p : IntPage) (r at_ : Nat) : State :=
  let s := s.advance at_
  let key := p.page * 64 + r
  if hasBucket p r && decide (mapGetD 0 key s.integ.leaks + s.fld p.page (regionReg Reg.DINTG.BKT_LEAK_US r) * usTref ≤ s.now) then
    ({ s with integ := { s.integ with leaks := mapPut key s.now s.integ.leaks } } : State).put p.page (regionReg Reg.DINTG.BKT_LEVEL r)
      (s.stored p.page (regionReg Reg.DINTG.BKT_LEVEL r) - 1)
  else s

/-- A write of THRESH in force that leaves LEVEL above it is a pass (R327). -/
def State.threshChanged (s : State) (page r : Nat) : State := s.eventIf (s.bucketPassed page r) page (regionBit page r)

/-- TMR_REFRESH: the registers a die rewrites, each a corrected error of its register region (R322). -/
def State.tmrRefresh (s : State) (d : Die) (regs : List (BitVec 28)) : State :=
  let count (page r : Nat) : State := s.each regs (fun s k => s.countCorrected page r k.toNat)
  match d with
  | .tile t => if s.pwr (pgTILE t) = 0 then s else count pgINTG (20 + t.val)
  | .conc c => if (s.conc c).run = .reset then s else count (pgDINTG c) 6
  | .belfry => count pgINTG 3
  | .stack _ => s
  | .bus => s

/-- FAULT_CLR: entries with REMAPPED 0 are freed (R335). -/
def State.faultClr (s : State) (page : Nat) : State :=
  (s.each (List.range 64) (fun s n =>
    if s.flag page (Reg.DINTG.FAULT1_REMAPPED.nth n 8) then s
    else (s.put page (Reg.DINTG.FAULT0_ADDR.nth n 8) 0).put page ⟨Reg.DINTG.FAULT1_VALID.off + 8 * n, 31, 0⟩ 0)).showRemap
      page

end Sys2Proof.Machine
end

