-- ==== Sys2Proof/Machine/Access.lean ====
section
/-!
DEFINITION. Accesses as a whole (R258, R405, R408, R413): a write to every page it reaches with what acts at acceptance (R499), and
the reads and writes of the management core.
-/

namespace Sys2Proof.Machine

/-! ### Reads (R398, R412) -/

/-- A word that lies in a protected memory behind a window (R412). -/
def protectedWord (k : PageKind) (off : Nat) : Bool :=
  match k with
  | .corr => decide (0x400 ≤ off) && decide (off < 0x800)
  | .tdc => decide (0x400 ≤ off) && decide (off < 0x800)
  | .cals => decide (0x400 ≤ off) && decide (off < 0x700)
  | .jrnl => decide (0x800 ≤ off)
  | _ => false

/-- The sequence number that a word of the journal window names. -/
def State.windowSeq (s : State) (off : Nat) : Nat := (s.stored pgJRNL Reg.JRNL.SEL + (off - 0x800) / 32) % 2 ^ 32

/-- What the read of a window word does to the memory behind it (R326, R328, R412). -/
def State.readMemory (s : State) (k : PageKind) (page off : Nat) (ecc : EccRead) : State :=
  let bad := ecc == .uncorrectable
  match k with
  | .corr =>
    let c := concOf page
    let chan := s.corrChan page off
    if s.stored page Reg.CORR.CORR_SEL_VIEW = 1 ∧ (mapFind chan (s.conc c).corrStaged).isSome = true then
      let s := s.countAnywhere (pgDINTG c) 1 ecc
      if bad then s.setConc c { s.conc c with stagedBad := insertNew chan (s.conc c).stagedBad } else s
    else
      let a := 4 * chan + off / 4 % 4
      let s := s.countRead (pgDINTG c) 0 a ecc
      if bad then s.poisonEntry c a else s
  | .tdc =>
    let chan := s.tacChan page off
    let s := s.countRead pgINTG (4 + (tileOf page).val) (chInTile chan) ecc
    if bad then s.poisonTac chan else s
  | .cals =>
    let s := s.countAnywhere (pgDINTG s.histConc) 4 ecc
    if bad then s.restartTurn true else s
  | .jrnl =>
    let q := s.windowSeq off % 4096
    let s := s.countRead pgINTG 1 (q * 8 + off / 4 % 8) ecc
    if bad then (s.poisonJournal q).poisoned pgINTG else s
  | _ => s

/-- The word belongs to a poisoned journal entry (R328). -/
def State.readsPoison (s : State) (k : PageKind) (off : Nat) : Bool :=
  k == .jrnl && decide (0x800 ≤ off) && (match s.entryOf (s.windowSeq off) with | some e => e.poison | none => false)

/-- One register read: its value, REFUSED or POISONED or OK, and the state. -/
def State.fetchReg (s : State) (page off : Nat) (ecc : EccRead) : Word × Nat × State :=
  match pageKind page with
  | none => (0, resBAD_ADDR, s)
  | some k =>
    let s := if protectedWord k off && !s.dieOff page then s.readMemory k page off ecc else s
    let p := s.readsPoison k off
    let x := s.readOne page off
    (x.1, if x.2.1 then resOFF else if p then resPOISONED else resOK, x.2.2)

/-! ### Writes (R405, R408, R499) -/

/-- A stick command is accepted for the next boundary (R270). -/
def State.queueStick (s : State) (x : StickCmd) : State :=
  { s with stick := { s.stick with cmds := s.stick.cmds ++ [x] } }

/-- The written 1s that act at acceptance (R499), and the requests for the next boundary that a write of CMD.GO or
RESEND_CTRL.GO makes; `by_` says who writes. -/
def State.pulseNow (s : State) (k : PageKind) (by_ : StickCmd) (page off : Nat) (v : Word) (free : Bool) : State :=
  if off = 0x028 then (if v.getLsbD 0 then s.discardStaged page else s)
  else match k with
  | .corr => if off = 0x048 ∧ v.getLsbD 0 = true then s.stageClr (concOf page) else s
  | .cals => if off = 0x068 ∧ v.getLsbD 31 = true then s.hostSwap else s
  | .dram => if off = 0x0B0 ∧ v.getLsbD 0 = true then s.startHostRead (concOf page) else s
  | .dintg | .intg =>
    if off = 0x050 then
      let p : IntPage := if page = pgINTG then .intg else .dintg (concOf page)
      let s := if v.getLsbD 0 then s.scrubGo p else s
      if v.getLsbD 1 then s.abortScrub page else s
    else s
  | .block => if off = 0x050 ∧ v.getLsbD 16 = true then s.fire page else s
  | .trig => if off = 0x07C ∧ v.getLsbD 16 = true then
      s.requestResend (s.stored pgTRIG Reg.TRIG.RESEND_FIRST) (s.stored pgTRIG Reg.TRIG.RESEND_CTRL_COUNT) else s
  | .stick => if off = 0x048 ∧ v.getLsbD 31 = true ∧ free = true then
      s.queueStick { by_ with op := fieldGet Reg.STICK.CMD_OP v, target := fieldGet Reg.STICK.CMD_TARGET v == 1, isWrite := true }
      else s
  | _ => s

/-- A register write to every page it reaches, with what acts at acceptance: the pages with their results. -/
def State.writeAll (s : State) (by_ : StickCmd) (page off : Nat) (v : Word) (rwl : Bool) : List (Nat × Nat) × State :=
  (s.writePages page off).foldl (fun x p =>
    let free := rwl || x.2.unlocked p
    let y := x.2.writeOnePage p off v rwl
    let acts := (y.1 == resOK || y.1 == resLOCKED) && !y.2.dieOff p
    (x.1 ++ [(p, y.1)], match pageKind p with
      | some k => if acts then y.2.pulseNow k by_ p off v free else y.2
      | none => y.2)) ([], s)

/-! ### The management core (R387, R413) -/

/-- What a write by the core leaves in a stick command. -/
def State.coreStick (s : State) (v : Word) : StickCmd :=
  { op := 0, target := false, isWrite := true, port := 3, master := 0, tag := 0, digest := digestOf v, time := s.now }

/-- A write by the management core, mirrored like a host's and subject to no lock (R413): counted by its result, and journaled with
PORT 0b11 and CODE 0xF1. -/
def State.coreWrite (s : State) (page off : Nat) (v : Word) : State :=
  let x := s.writeAll (s.coreStick v) page off v true
  let r := joinResult (page / 256 = 0x20) (x.1.map (·.2))
  let y := (x.2.countResult r).append { seq := 0, time := s.now, port := 3, master := 0, code := 0xF1,
                                        result := if r = resOFF then resREFUSED else r, page := page, off := off,
                                        digest := digestOf v, aux := 0, poison := false }
  y.2.noteWrites x.1 off v y.1 true

/-- A read by the management core (R413): in an alias page, of tile 0's register. What R409 refuses counts (R416). -/
def State.coreRead (s : State) (page off : Nat) (ecc : EccRead := .clean) : Word × State :=
  let x := s.fetchReg (targetPage page) off ecc
  (x.1, x.2.2.countResult x.2.1)

/-- At a step frame with s = 0 the engine writes the round's level into every block in schedule mode (R209). -/
def State.ringLevels (s : State) (f : Nat) : State :=
  match s.stepOf f with
  | some g =>
    if ringStep g = 0 then
      let v := s.fld pgCALS (Reg.CALS.LEVEL_LEVEL.nth (s.levelIndex g))
      s.each allTiles (fun s t => s.each (List.range 16) (fun s b =>
        if s.setting (pgBLOCK t b) Reg.BLOCK.INJ_CTRL_MODE = 0 then
          let s := s.coreWrite (pgBLOCK t b) Reg.BLOCK.INJ_DAC.off (BitVec.ofNat 32 v)
          if s.dieOff (pgBLOCK t b) then s else s.put (pgBLOCK t b) Reg.BLOCK.INJ_DAC_LEVEL v
        else s))
    else s
  | none => s

end Sys2Proof.Machine
end

