-- ==== Sys2Proof/Machine/Fwu.lean ====
section
/-!
DEFINITION. Firmware and calibration images (R446-R461): the transfer commands with their checks, trials, commit, and what
the update engine does at each start.
-/

namespace Sys2Proof.Machine

/-! ### Refusals (R449, R453) -/

/-- An image command is refused with a detail: LAST_ERR, REJ_CNT, and the result of R453. -/
def State.imgRefuse (s : State) (cmd detail : Nat) : Nat × State :=
  let r := if detail = 0x01 then resBUSY else if detail = 0x05 ∨ detail = 0x0A then resMALFORMED else resREFUSED
  let s := ((s.put pgFWU Reg.FWU.LAST_ERR_CMD cmd).put pgFWU Reg.FWU.LAST_ERR_RESULT r).put pgFWU Reg.FWU.LAST_ERR_DETAIL detail
  (r, s.bump pgFWU Reg.FWU.REJ_CNT 1)

/-- The FWU state changes and the page follows. -/
def State.setFwu (s : State) (f : FwuSt) : State := ({ s with fwu := f } : State).showFwu

/-! ### Transfer (R450-R452) -/

/-- The first failing check of a header (R450); 0 where all pass. -/
def State.headerFault (s : State) (isK : Bool) (i : Image) : Nat :=
  let f := s.fwu
  if f.xfer.isSome || f.cStg.isSome || f.kStg.isSome || !f.trial.isEmpty then 0x01
  else if (crc32c (i.header.take 156)).toNat ≠ i.num 156 159 then 0x02
  else if i.num 0 3 ≠ 0x48455341 ∨ i.num 4 4 ≠ isK.toNat ∨ i.num 6 7 ≠ 0x4065 then 0x03
  else if !s.boundHere i || (!i.bind && (decide (i.num 8 15 ≠ 2 ^ 64 - 1) || i.key)) then 0x04
  else if i.length < 1 ∨ 4194144 < i.length then 0x05
  else if !isK && decide (i.version < s.stored pgFWU Reg.FWU.MIN_VER) then 0x06
  else if !Config.signatureOk i.header then 0x07
  else 0

/-- IMG_BEGIN (R450). -/
def State.imgBegin (s : State) (isK : Bool) (header : List Byte) (at_ : Nat) : Nat × State :=
  let i : Image := { header := header, body := [] }
  let d := s.headerFault isK i
  if d ≠ 0 then s.imgRefuse 0x50 d
  else
    let s := s.setFwu { s.fwu with xfer := some { isK := isK, image := i, last := at_ } }
    (resOK, (s.put pgFWU Reg.FWU.XFER_LEN_BYTES i.length).put pgFWU Reg.FWU.XFER_RCVD_BYTES 0)

/-- IMG_DATA (R451): appended at XFER_RCVD, or a repeat of bytes already stored. -/
def State.imgData (s : State) (off : Nat) (words : List Word) (at_ : Nat) : Nat × State :=
  match s.fwu.xfer with
  | none => s.imgRefuse 0x51 0x08
  | some x =>
    let s := s.setFwu { s.fwu with xfer := some { x with last := at_ } }
    let rcvd := x.image.body.length
    let b := (wordsBytes words).take (x.image.length - off)
    if words.isEmpty || decide (x.image.length ≤ off + 4 * (words.length - 1)) then s.imgRefuse 0x51 0x09
    else if off = rcvd then
      let i := { x.image with body := x.image.body ++ b }
      let s := s.setFwu { s.fwu with xfer := some { x with image := i, last := at_ } }
      (resOK, s.put pgFWU Reg.FWU.XFER_RCVD_BYTES i.body.length)
    else if off < rcvd ∧ (x.image.body.drop off).take b.length = b then (resOK, s)
    else s.imgRefuse 0x51 0x09

/-- The first failing check of a body (R452). -/
def Transfer.bodyFault (x : Transfer) : Nat :=
  if x.image.body.length ≠ x.image.length then 0x0A
  else if !x.image.digestOk then 0x0B
  else if x.isK && (!x.image.sectionsPass || Config.hasKey x.image.body != x.image.key) then 0x0C
  else 0

/-- IMG_END (R452): the slot is staged, or on a failed check erased. -/
def State.imgEnd (s : State) (isK : Bool) : Nat × State :=
  match s.fwu.xfer with
  | none => s.imgRefuse 0x52 0x08
  | some x =>
    if x.isK ≠ isK then s.imgRefuse 0x52 0x08
    else if x.bodyFault ≠ 0 then (s.setFwu { s.fwu with xfer := none }).imgRefuse 0x52 x.bodyFault
    else
      let f := { s.fwu with xfer := none }
      let s := s.setFwu (if isK then { f with kStg := some x.image } else { f with cStg := some x.image })
      (resOK, (s.bump pgFWU Reg.FWU.XFER_CNT 0).event pgFWU 0)

/-- IMG_CANCEL (R449, R459): during a trial, of whichever class, it is refused. -/
def State.imgCancel (s : State) (isK : Bool) : Nat × State :=
  let f := s.fwu
  if !f.trial.isEmpty then s.imgRefuse 0x53 0x0D
  else match f.xfer with
    | some x => if x.isK = isK then (resOK, s.setFwu { f with xfer := none }) else s.imgRefuse 0x53 0x08
    | none =>
      if (if isK then f.kStg else f.cStg).isSome then
        (resOK, s.setFwu (if isK then { f with kStg := none } else { f with cStg := none }))
      else s.imgRefuse 0x53 0x08

/-- TRANSFER_TIMEOUT: no command of the transfer for 10 s (R451). -/
def State.transferTimeout (s : State) : State :=
  if s.fwu.xfer.isSome then s.setFwu { s.fwu with xfer := none } else s

/-! ### Commit and rejection (R455, R456) -/

/-- The image in trial of a class. -/
def FwuSt.current (f : FwuSt) (isK : Bool) : Option Image := if isK then f.kCur else f.cCur

/-- IMG_COMMIT (R456). -/
def State.imgCommit (s : State) (isK : Bool) (version : Nat) : Nat × State :=
  let f := s.fwu
  if f.trial.contains isK = false ∨ f.failed.isSome = true ∨ s.flag pgFWU Reg.FWU.STAT_TRIAL_RUN = false ∨ slotVersion (f.current isK) ≠ version then
    s.imgRefuse 0x55 0x0D
  else
    let key := match f.kCur with
      | some i => if isK && i.key then some (Config.keyOf i.body) else f.authKey
      | none => f.authKey
    let left := f.trial.filter (· != isK)
    let f := { f with trial := left, starts := if left.isEmpty then 0 else f.starts, authKey := key }
    let f := if isK then { f with kPrev := none } else { f with cPrev := none, committed := none }
    let s := if isK then s else s.put pgFWU Reg.FWU.MIN_VER (max (s.stored pgFWU Reg.FWU.MIN_VER) version)
    let s := (s.putB pgFWU Reg.FWU.STAT_TRIAL_RUN (!left.isEmpty)).putB pgFWU Reg.FWU.STAT_K_BAD false
    let s := (s.putB pgFWU Reg.FWU.STAT_SET_BAD false).setFwu f
    (resOK, s.event pgFWU 2)

/-- IMG_REJECT (R455): whether the trial ends; the restart follows the entry and the result. -/
def State.imgReject (s : State) (isK : Bool) : Nat × State :=
  if s.fwu.trial.contains isK && s.fwu.failed.isNone then (resOK, s) else s.imgRefuse 0x56 0x0D

/-- TRIAL_TIMEOUT: 10 s after the core's release TRIAL_RUN is not set (R455). -/
def State.trialTimeout (s : State) : State :=
  if s.pow.mode == .on && !s.flag pgFWU Reg.FWU.STAT_TRIAL_RUN then s.failTrial s.fwu.judged 2 else s

/-- CORE_RESTART: an uncorrectable read of the management core's memory (R328). -/
def State.coreRestart (s : State) : State :=
  if s.pow.mode = .on then (s.uncorrectableRead pgINTG 2).restartCore else s

/-! ### Each start (R454, R455, R457, R458) -/

/-- The previous image of a failed trial is copied back (R455); what failed is recorded. -/
def State.revertTrial (s : State) : State :=
  match s.fwu.failed with
  | none => s
  | some (isK, cause) =>
    let f := s.fwu
    let v := slotVersion (f.current isK)
    let left := f.trial.filter (· != isK)
    let g := { f with failed := none, trial := left, starts := if left.isEmpty then 0 else f.starts }
    let g := if isK then { g with kCur := f.kPrev, kPrev := none } else { g with cCur := f.cPrev, cPrev := none }
    let s : State := { s with fwu := g }
    let s := match f.committed with
      | some c => if isK then s else ({ s with fwu := { g with committed := none } } : State).withSettings c
      | none => s
    let s := (s.put pgFWU Reg.FWU.LAST_FAIL_VER v).putB pgFWU Reg.FWU.LAST_FAIL_VALID true
    let s := (s.putB pgFWU Reg.FWU.LAST_FAIL_CLASS isK).put pgFWU Reg.FWU.LAST_FAIL_CAUSE cause
    (s.bump pgFWU Reg.FWU.TRIAL_FAIL_CNT 2).event pgFWU 3

/-- A staged image becomes the current one, in trial; the copy record lists the steps (R454). A copy that is interrupted is redone
whole: the model makes it in one step. -/
def State.installStaged (s : State) : State :=
  let f := s.fwu
  let done : List CopyStep := [.previous, .current, .emptied]
  if f.cStg.isSome then
    ({ s with fwu := { f with cPrev := f.cCur, cCur := f.cStg, cStg := none, trial := insertNew false f.trial, starts := 0,
                              committed := some s.settings, copied := some (false, done) } } : State).event pgFWU 1
  else if f.kStg.isSome then
    ({ s with fwu := { f with kPrev := f.kCur, kCur := f.kStg, kStg := none, trial := insertNew true f.trial, starts := 0,
                              copied := some (true, done) } } : State).event pgFWU 1
  else s

/-- A setting's word of one schema in another, by the migrations of the class K image in force; an image of no sections has none
(R446, R455). -/
def migrated (body : List Byte) (old new : Nat) (e : Nat × Word) : Nat × Word :=
  (e.1, if old = new ∨ body.isEmpty = true then e.2 else loadedWord (e.1 / 4096) (e.1 % 4096)
    (Config.migration body old new e.1 e.2))

/-- A class C trial works on a fresh copy of the committed settings, migrated to the image's schema (R455). -/
def State.migrate (s : State) : State :=
  match s.fwu.committed with
  | some c =>
    let n := (s.fwu.cCur.map Image.schema).getD c.schema
    s.withSettings { c with schema := n, regs := c.regs.map (migrated s.kBody c.schema n),
                            staged := c.staged.map (migrated s.kBody c.schema n) }
  | none => s

/-- The checks of R454 on the current class C image, and on the class K image: whether it is sound, and whether its sections
are. `read` and `env` say what of them can be read. -/
def State.soundC (s : State) (read : Bool) : Bool :=
  read && (match s.fwu.cCur with | some i => i.digestOk && s.boundHere i | none => false)
def State.soundK (s : State) (env : StartEnv) : Bool :=
  env.classKOk && (match s.fwu.kCur with | some i => i.digestOk && s.boundHere i | none => false)
def State.sectionsK (s : State) (env : StartEnv) : Bool :=
  env.classKLoads && (match s.fwu.kCur with | some i => i.sectionsPass | none => false)

/-- A damaged class C image outside a trial (R457): the previous one runs in trial, or the recovery loader. -/
def State.damagedC (s : State) : State :=
  let f := s.fwu
  match f.cPrev with
  | some i => ({ s with fwu := { f with cCur := some i, cPrev := none, trial := insertNew false f.trial,
                                        starts := if f.trial.isEmpty then 1 else f.starts,
                                        committed := some s.settings } } : State).event pgFWU 1
  | none => ((s.put pgFWU Reg.FWU.STAT_C_STATE 3).event pgFWU 4)

/-- Class K and settings damage outside a trial (R458). -/
def State.damagedK (s : State) (ok : Bool) : State :=
  if ok then s else (s.putB pgFWU Reg.FWU.STAT_K_BAD true).event pgFWU 5
def State.damagedSettings (s : State) (ok : Bool) : State :=
  if ok then s
  else
    let s := s.withSettings { regs := [], staged := [], tac := [], corr := [], jseq := [], epoch := 0, schema := s.fwu.schema }
    (s.putB pgFWU Reg.FWU.STAT_SET_BAD true).event pgFWU 6

/-- Why a trial fails at a start, if one does, and of which class (R455): a fourth start, a failed check of its image, class K
sections, or the report of its code. `cOk`: the class C image in trial passes its check. -/
def State.trialFault (s : State) (env : StartEnv) (cOk : Bool) : Option (Bool × Nat) :=
  let f := s.fwu
  let inC := f.trial.contains false
  let inK := f.trial.contains true
  if f.trial.isEmpty then none
  else if 4 ≤ f.starts then some (f.judged, 4)
  else if inC && !cOk then some (false, 7)
  else if inK && !s.soundK env then some (true, 7)
  else if inK && (!s.sectionsK env || decide (f.schema < (f.kCur.map Image.schema).getD 0)) then some (true, 6)
  else if env.trial == .reports || (inC && !env.settingsOk) then some (f.judged, 1)
  else none

/-- The image engine at a start (R454): the state after it, and the class and cause where a trial fails. -/
def State.imageEngine (s : State) (env : StartEnv) : State × Option (Bool × Nat) :=
  let s := s.revertTrial.installStaged
  let s : State := { s with fwu := { s.fwu with starts := if s.fwu.trial.isEmpty then 0 else s.fwu.starts + 1 } }
  let falls := !s.fwu.trial.contains false && !s.soundC env.classCOk
  let s := if falls then s.damagedC else s
  match s.trialFault env (s.soundC (if falls then env.prevCOk else env.classCOk)) with
  | some c => (s, some c)
  | none =>
    let s := s.damagedK (s.fwu.trial.contains true || (s.soundK env && s.sectionsK env))
    let s := if s.fwu.trial.contains false then s.migrate else s.damagedSettings env.settingsOk
    (s.showFwu, none)

end Sys2Proof.Machine
end

