-- ==== Sys2Proof/Machine/Power.lean ====
section
/-!
DEFINITION. Power and start-up (R462-R478): input power, RESET_N, the start sequence, tile groups, Ready, converter faults,
protective limits, and the hold of a concentrator.
-/

namespace Sys2Proof.Machine

/-! ### Tiles (R466, R471) -/

/-- A tile may be powered: its ceiling is above OFF, and no fault or limit keeps it off. -/
def State.tileMayPower (s : State) (t : Fin 16) : Bool :=
  (s.tile t).power == .off && decide (1 ≤ s.effCeil (pgTILE t)) && !s.bitAt pgPWR Reg.PWR.CONV_FAULT_TILE t.val &&
    !s.pow.hot.contains (.tile t) && s.pow.mode == .on && decide (7 ≤ s.step470)

/-- The buckets of a tile's regions after its fill (R326). -/
def State.clearTileBuckets (s : State) (t : Fin 16) : State :=
  let s := s.each [4 + t.val, 20 + t.val] (fun s r => s.put pgINTG (regionReg Reg.DINTG.BKT_LEVEL r) 0)
  { s with lastCorr := s.lastCorr.filter (fun e =>
      !(e.1 == pgINTG * 64 + 4 + t.val || e.1 == pgINTG * 64 + 20 + t.val)) }

/-- A tile powers up (R471): self-test, fill, KEEP, its tables, class K trims and settings; then its ceiling lets it rise,
unless a failed checker holds it in KEEP (R324). `why`: the REASON bits of its absence (R104). -/
def State.raiseTile (s : State) (t : Fin 16) (ok : Bool) (why : Nat) : State :=
  let ceil := s.stored (pgTILE t) Reg.HDR.PWR_STATE_CEIL
  let held := !ok && !s.bitAt pgINTG Reg.INTG.ST_CTRL_TILE_OVR t.val
  let s := s.setTile t { s.tile t with
    power := .on, testHeld := held, absent := true, halted := true, settled := false, acquiring := true, reload := true,
    reasons := Nat.lor (s.tile t).reasons why }
  let st := s.stored pgINTG Reg.INTG.ST_STAT_TILE
  let s := (s.put pgINTG Reg.INTG.ST_STAT_TILE
    (if ok then Nat.lor st (2 ^ t.val) else st - (if st.testBit t.val then 2 ^ t.val else 0))).eventIf (!ok) pgINTG 28
  let s := (s.clearTileBuckets t).loadClassK (pgTILE t) (pgTILE t + 0x100)
  let s := ((s.loadSettings (pgTILE t) (pgTILE t + 0x100)).reloadTile t).put (pgTILE t) Reg.HDR.PWR_STATE_CEIL ceil
  let s := s.putB (pgAFE t) Reg.AFE.GATE_STATUS_OPEN (s.gateOpen t (s.now * 64))
  let c := s.effCeil (pgTILE t)
  let s := s.put (pgTILE t) Reg.HDR.PWR_STATE_STATE (if held then min 1 c else nextPower 1 c)
  (((s.followBlocks t).showPort t .a).showPort t .b).showPg.showDies

/-- The MRAM words that a tile is loaded from are read first; where a trial fails by them, the module restarts (R455, R458). -/
def State.powerTile (s : State) (t : Fin 16) (start : TileStart) (why : Nat) : State :=
  let s := s.loadMram start.mram start.classKOk
  if s.pow.mode = .on then s.raiseTile t start.ok why else s

/-- TILE_POWER_UP: a tile returns from OFF (R471), which sets [45] and [43] of REASON (R104). -/
def State.tilePowerUp (s : State) (t : Fin 16) (start : TileStart) : State :=
  if s.tileMayPower t && decide (s.pow.groups = 4) then s.powerTile t start 10 else s

/-- A tile takes its persisted ceiling, or RUN, and powers up with its group where that is above OFF (R471). -/
def State.groupTile (s : State) (failing : BitVec 16) (t : Fin 16) : State :=
  let c := match mapFind (regKey (pgTILE t) 0x010) s.saved with
    | some w => fieldGet Reg.HDR.PWR_STATE_CEIL w
    | none => 3
  let s := s.put (pgTILE t) Reg.HDR.PWR_STATE_CEIL c
  if s.tileMayPower t then s.raiseTile t (!failing.getLsbD t.val) 8 else s

/-- TILE_GROUP_POWER: the next group of step 7; after the last, Umauf discovery begins on each locked port (R470). -/
def State.tileGroupPower (s : State) (g : Fin 4) (start : GroupStart) : State :=
  if s.pow.mode == .on && s.step470 == 7 && s.pow.groups == g.val then
    let s := s.loadMram start.mram start.classKOk
    if s.pow.mode = .on then
      let s := s.each (allTiles.filter (fun t => t.val / 4 == g.val)) (fun s t => s.groupTile start.failing t)
      let s : State := { s with pow := { s.pow with groups := g.val + 1 } }
      if g.val = 3 then ((s.put pgPWR Reg.PWR.STARTUP_STEP 9).each ums (·.startDiscovery ·)).leaveStep9 else s
    else s
  else s

/-- A tile falls to OFF at once, its timing as at a timing fault (R466). Its power goes once its ports are drained (R19);
before the first frame nothing is queued. -/
def State.tileStops (s : State) (t : Fin 16) : State :=
  if (s.tile t).power = .off then s
  else if !s.running then ((s.tileLost t .off).put (pgTILE t) Reg.HDR.PWR_STATE_STATE 0).showPg.showDies
  else
    let s := if (s.tile t).absent then s else s.stopRecording t s.frame 0
    let s := s.setTile t { s.tile t with
      halted := true, settled := false, acquiring := true, power := .leaving, reasons := Nat.lor (s.tile t).reasons 10 }
    let s := (s.dropHits t).disarmAll (fun c => c / 4096 == t.val)
    let s := (s.putB (pgTDC t) Reg.TDC.LOCK_STATUS_LOCKED false).put (pgTILE t) Reg.HDR.PWR_STATE_STATE 0
    (s.followBlocks t).showPg.showDies

/-! ### Stops and RESET_N (R462, R464, R474) -/

/-- POWER_GOOD: input power becomes good; the start waits while RESET_N is low. -/
def State.powerGood (s : State) : State :=
  if s.pow.mode = .off then
    ({ s with pow := { s.pow with mode := if s.pow.resetLow then .held else .starting } } : State).showPg
  else s

/-- POWER_FAIL: the converter stops; `under`: PWR_IN fell below 8.5 V. -/
def State.powerFail (s : State) (under : Bool) : State :=
  if s.pow.mode = .off then s
  else s.boot { mode := .off, resetLow := s.pow.resetLow, uvlo := under || s.pow.uvlo, busFault := s.pow.busFault,
                belfryFault := s.pow.belfryFault }

/-- RESET_ASSERT: RESET_N low for 1 µs. -/
def State.resetAssert (s : State) : State :=
  if s.pow.mode = .off ∨ s.pow.mode = .hot then { s with pow := { s.pow with resetLow := true } }
  else (s.boot { mode := .held, resetLow := true, cause := 1, uvlo := s.pow.uvlo, busFault := s.pow.busFault,
                 belfryFault := s.pow.belfryFault }).showPg

/-- RESET_RELEASE: RESET_N rises. -/
def State.resetRelease (s : State) : State :=
  let p := { s.pow with resetLow := false }
  if s.pow.mode = .held then ({ s with pow := { p with mode := .starting, cause := 1 } } : State).showPg
  else { s with pow := p }

/-! ### The start sequence (R470, R472) -/

/-- Step 1: the cause of the start, and what the last stop left to report (R477, R478). -/
def State.startStep1 (s : State) : State :=
  let p := s.pow
  let s := (s.put pgPWR Reg.PWR.STARTUP_CAUSE p.cause).putB pgMADC Reg.MADC.REF_STAT_INT_OK true
  let s := if p.uvlo then (s.bump pgPWR Reg.PWR.UVLO_CNT 0).eventIf (p.cause == 0) pgPWR 3 else s
  let s := if p.busFault then ((s.putB pgPWR Reg.PWR.CONV_FAULT_BUS true).bump pgPWR Reg.PWR.FAULT_CNT 2).event pgPWR 0 else s
  if p.belfryFault then ((s.putB pgPWR Reg.PWR.CONV_FAULT_BELFRY true).bump pgPWR Reg.PWR.FAULT_CNT 2).event pgPWR 0 else s

/-- A gate pin with its polarity as the settings give it: what the pin's level means is so for the tiles, and is no edge (R179). -/
def State.gateLoaded (s : State) (p : Pin) : State :=
  let o := (s.trig.gate p).level != s.gatePol p
  let s := s.putB pgTRIG (gateOpenReg p) o
  s.each allTiles (fun s t => s.setTile t { s.tile t with gateNow := mapPut (p.idx + 1) o (s.tile t).gateNow })

/-- Step 2, after the image engine: the control state of the belfry, the journal of MRAM, and the interlock outputs
(R386, R389, R437); the start is journaled. -/
def State.startStep2 (s : State) : State :=
  let s := ((s.loadClassK 0 0x100).loadSettings 0 0x100).each [Pin.a, Pin.b] (·.gateLoaded ·)
  let s := (s.put pgJRNL Reg.JRNL.PEAL_STAT_EPOCH s.savedEpoch).putB pgJRNL Reg.JRNL.PEAL_STAT_MIXED true
  let s := (s.showJournal.showRemap pgINTG).put pgMOD Reg.HDR.PWR_STATE_STATE (nextPower 2 (s.ceil pgMOD))
  let s := ((s.ilkBoundary .a).ilkBoundary .b).journalEvent 0xF0 resOK 0 0 0 0
  s.showFwu

/-- Steps 3 and 4 of a concentrator: self-test, training, fill, lane settings; one that fails stays in reset (R324). -/
def State.startConc (s : State) (pass : BitVec 24) (board : Nat) (c : Conc) : State :=
  let s := (s.setRail c true).concChecked c pass
  if checkersPass pass then
    let s := s.bringUp c board
    s.setConc c { s.conc c with run := .running }
  else s

/-- Steps 5 and 6: the core is released and boots; code in trial sets TRIAL_RUN, or leaves step 6 unfinished (R455). -/
def State.startCore (s : State) (trial : TrialStart) : State :=
  if !s.fwu.trial.isEmpty then
    (if trial = .runs then ((s.putB pgFWU Reg.FWU.STAT_TRIAL_RUN true).showFwu).put pgPWR Reg.PWR.STARTUP_STEP 7
     else s.put pgPWR Reg.PWR.STARTUP_STEP 6)
  else s.put pgPWR Reg.PWR.STARTUP_STEP 7

/-- START_SEQUENCE: steps 1 to 6 of R470. With no class C image that passes its check the recovery loader runs instead
(R457). -/
def State.startSequence (s : State) (env : StartEnv) : State :=
  if s.pow.mode ≠ .starting then s
  else
    let (s, fail) := (s.startStep1.readMram env.mram).imageEngine env
    match fail with
    | some (isK, cause) => s.failTrial isK cause
    | none =>
      let s := s.startStep2
      let s := (s.putB pgINTG Reg.INTG.ST_STAT_BELFRY env.belfryOk).eventIf (!env.belfryOk) pgINTG 28
      let s : State := { s with pow := { s.pow with
        mode := .on, groups := 0, uvlo := false, busFault := false, belfryFault := false } }
      if s.stored pgFWU Reg.FWU.STAT_C_STATE = 3 then
        ((s.put pgPWR Reg.PWR.STARTUP_STEP 5).each ums (·.startDiscovery ·)).showPg.showDies
      else
        let board := env.boardId.toNat
        let s := (s.startConc env.concA board .a).startConc env.concB board .b
        let s := s.putB pgINTG Reg.INTG.ST_STAT_DONE true
        (s.startCore env.trial).showPg.showDies

/-- READY: warm-up has ended and two frame boundaries have passed; the arbiter makes the start grant (R273, R473). -/
def State.ready (s : State) (ms : Nat) : State :=
  if s.step470 = 11 ∧ s.flag pgCALS Reg.CALS.SWAP_STAT_WARM = false ∧ s.running = true ∧ s.time.first + 2 ≤ s.frame then
    let s := (s.put pgPWR Reg.PWR.STARTUP_STEP 12).put pgPWR Reg.PWR.READY_MS_MS (min ms 0xFFFFF)
    (s.event pgPWR 2).startGrant
  else s

/-! ### Faults and limits (R465-R467) -/

/-- CONV_FAULT's bit of a die. -/
def dieBit : Die → Nat
  | .tile t => t.val
  | .conc c => 16 + c.idx
  | .stack c => 18 + c.idx
  | .belfry => 20
  | .bus => 21

/-- A die goes off: a tile falls, a concentrator or a concentrator of a stack enters reset. -/
def State.dieStops (s : State) : Die → State
  | .tile t => s.tileStops t
  | .conc c => (s.resetConc c).showPg
  | .stack c => (s.resetConc c).showPg
  | _ => s

/-- The die is powered. -/
def State.diePowered (s : State) : Die → Bool
  | .tile t => (s.tile t).power != .off
  | .conc c => (match c with | .a => s.pow.railA | .b => s.pow.railB)
  | .stack c => (match c with | .a => s.pow.railA | .b => s.pow.railB)
  | _ => s.pow.mode != .off

/-- The whole module stops for the belfry's sake, until it is below 90 °C (R466); what earlier stops left to report stays. -/
def State.belfryStops (s : State) (fault : Bool) : State :=
  s.boot { mode := .hot, resetLow := s.pow.resetLow, cause := 4, uvlo := s.pow.uvlo, busFault := s.pow.busFault,
           belfryFault := fault || s.pow.belfryFault }

/-- CONVERTER_FAULT: a rail has left its range for 50 µs (R465, R467). The belfry's own fault is shown by the next start, as that of
the bus is (DEDUCED, log 74). -/
def State.converterFault (s : State) (d : Die) : State :=
  if s.pow.mode = .off ∨ s.diePowered d = false then s
  else match d with
    | .bus => s.boot { mode := .off, resetLow := s.pow.resetLow, uvlo := s.pow.uvlo, busFault := true,
                       belfryFault := s.pow.belfryFault }
    | .belfry => s.belfryStops true
    | d =>
      let w := s.rd pgPWR Reg.PWR.CONV_FAULT.off
      let s := s.wr pgPWR Reg.PWR.CONV_FAULT.off (w ||| BitVec.ofNat 32 (2 ^ dieBit d))
      let s := (s.bump pgPWR Reg.PWR.FAULT_CNT 2).event pgPWR 0
      s.dieStops d

/-- CONV_FAULT_CLEAR at its boundary: the written faults end, and the dies may power up again (R467). -/
def State.convFaultClear (s : State) (v : Word) : State :=
  (s.wr pgPWR Reg.PWR.CONV_FAULT.off (s.rd pgPWR Reg.PWR.CONV_FAULT.off &&& ~~~v)).showPg

/-- OVER_LIMIT: a die is above its temperature or current limit (R466). -/
def State.overLimit (s : State) (d : Die) (current : Bool) : State :=
  if d = .belfry then (if s.pow.mode = .off ∨ s.pow.mode = .hot then s else s.belfryStops false)
  else if s.pow.mode ≠ .on ∨ s.diePowered d = false ∨ d = .bus then s
  else
    let s := if current then s.bump pgPWR Reg.PWR.FAULT_CNT 2 else (s.bump pgPWR Reg.PWR.OT_CNT 1).event pgPWR 1
    let s : State := { s with pow := { s.pow with hot := if s.pow.hot.contains d then s.pow.hot else d :: s.pow.hot } }
    s.dieStops d

/-- OVER_LIMIT_RECOVER: below 90 °C, or 1 s after a current fault (R466); the die may power up or rejoin. -/
def State.overLimitRecover (s : State) (d : Die) : State :=
  if s.pow.mode = .hot ∧ d = .belfry then
    ({ s with pow := { s.pow with mode := if s.pow.resetLow then .held else .starting } } : State).showPg
  else { s with pow := { s.pow with hot := s.pow.hot.filter (· != d) } }

end Sys2Proof.Machine
end

