-- ==== Sys2Proof/Machine/Tap.lean ====
section
/-!
DEFINITION. The test port (R491): an IEEE 1149.1 controller with a 4-bit instruction register, BYPASS and a boundary
register of 17 cells. The order of its states and edges is that of IEEE 1149.1, which R491 names (assumption 10).
-/

namespace Sys2Proof.Machine

/-- The controller's next state at a rising edge of TCK, by TMS. -/
def TapState.next : TapState → Bool → TapState
  | .testLogicReset, m => if m then .testLogicReset else .runTest
  | .runTest, m => if m then .selectDr else .runTest
  | .selectDr, m => if m then .selectIr else .captureDr
  | .captureDr, m => if m then .exit1Dr else .shiftDr
  | .shiftDr, m => if m then .exit1Dr else .shiftDr
  | .exit1Dr, m => if m then .updateDr else .pauseDr
  | .pauseDr, m => if m then .exit2Dr else .pauseDr
  | .exit2Dr, m => if m then .updateDr else .shiftDr
  | .updateDr, m => if m then .selectDr else .runTest
  | .selectIr, m => if m then .testLogicReset else .captureIr
  | .captureIr, m => if m then .exit1Ir else .shiftIr
  | .shiftIr, m => if m then .exit1Ir else .shiftIr
  | .exit1Ir, m => if m then .updateIr else .pauseIr
  | .pauseIr, m => if m then .exit2Ir else .pauseIr
  | .exit2Ir, m => if m then .updateIr else .shiftIr
  | .updateIr, m => if m then .selectDr else .runTest

/-- EXTEST and SAMPLE/PRELOAD select the boundary register; every other code acts as BYPASS. -/
def TapSt.boundary (t : TapSt) : Bool := t.ir == 0 || t.ir == 1
def TapSt.extest (t : TapSt) : Bool := t.ir == 0

/-- A shift register of n bits moves one place towards TDO and takes TDI at its far end. -/
def shiftIn {n : Nat} (r : BitVec n) (tdi : Bool) : BitVec n := (r >>> 1) ||| (BitVec.ofNat n (tdi.toNat * 2 ^ (n - 1)))

/-- A rising edge of TCK: what the present state captures or shifts, then the controller moves. `free` fills the bits of
the instruction capture that R491 does not give; its two low bits are 01. -/
def TapSt.rise (t : TapSt) (tms tdi : Bool) (pins : BitVec 17) (free : Nat) : TapSt :=
  let t := match t.state with
    | .captureIr => { t with irShift := BitVec.ofNat 4 (free * 4 + 1) }
    | .shiftIr => { t with irShift := shiftIn t.irShift tdi }
    | .captureDr => if t.boundary then { t with shift := pins } else { t with bypass := false }
    | .shiftDr => if t.boundary then { t with shift := shiftIn t.shift tdi } else { t with bypass := tdi }
    | _ => t
  { t with state := t.state.next tms }

/-- A falling edge of TCK: updates take effect, and TDO changes. -/
def TapSt.fall (t : TapSt) : TapSt :=
  let t := match t.state with
    | .testLogicReset => { t with ir := 0xF }
    | .updateIr => { t with ir := t.irShift }
    | .updateDr => if t.boundary then { t with latch := t.shift } else t
    | _ => t
  { t with tdo := match t.state with
    | .shiftIr => some (t.irShift.getLsbD 0)
    | .shiftDr => some (if t.boundary then t.shift.getLsbD 0 else t.bypass)
    | _ => none }

/-! ### UMn_BEN and UMn_UP (R372, R490) -/

/-- The UI of a burst from its guard to its tail (R372). -/
def UmSt.burstLength (m : UmSt) : Nat := 224 + 288 * m.burst.length

/-- UMn_BEN as the port drives it, in upstream UI from 2048 T_ref after the sync word of the frame that granted its last burst: high
from UI 0 of the guard to the tail (R490). -/
def UmSt.benAt (m : UmSt) (ui : Nat) : Bool :=
  !m.burst.isEmpty && decide (m.burstFrom ≤ ui) && decide (ui < m.burstFrom + m.burstLength)

/-- UMn_UP in the same UI (R372, R490): common mode outside a burst and in its guard; a preamble of 1, 0 alternating; the delimiter
0xB537_6C1D; and the blocks, most significant bit first. -/
def UmSt.upAt (m : UmSt) (ui : Nat) : Option Bool :=
  let k := ui - m.burstFrom
  if !m.benAt ui || decide (k < 32) then none
  else if k < 192 then some (k % 2 == 0)
  else if k < 224 then some ((0xB5376C1D : BitVec 32).getMsbD (k - 192))
  else some ((m.burst.flatten.getD ((k - 224) / 8) 0).getMsbD (k % 8))

/-- What scan drives on UMn_BEN: EXTEST drives them only while RESET_N is low (R491). Of a pin's two cells the lower is its
output and the upper its control. -/
def State.scanBen (s : State) (u : Um) : Option Bool :=
  if s.tap.extest && s.pow.resetLow && s.tap.latch.getLsbD (2 * u.idx + 1) then some (s.tap.latch.getLsbD (2 * u.idx)) else none

/-- The level of UMn_BEN. -/
def State.benPin (s : State) (u : Um) (ui : Nat) : Bool := (s.scanBen u).getD ((s.um u).benAt ui)

/-- What the 17 cells capture, cell 0 least significant (R491): the pins, an interlock output as it is driven, and a control cell as
its pin's function drives it. -/
def State.boundaryPins (s : State) (p : TestPins) : BitVec 17 :=
  let ilk (o : Pin) (level : Bool) : Bool := level && s.ilkPin o != .low
  let low : List Bool := [s.benPin .um0 p.ui0, true, s.benPin .um1 p.ui1, true, p.trigA, p.trigB, s.trig.gateA.raw, s.trig.gateB.raw,
    ilk .a p.ilkA, ilk .b p.ilkB, !s.pow.resetLow]
  BitVec.ofNat 17 (p.boardId.toNat * 2048 + (low.zipIdx.map (fun x => x.1.toNat * 2 ^ x.2)).sum)

/-! ### The test port's events -/

/-- TEST_LOGIC_RESET: TRST_N low. -/
def State.testLogicReset (s : State) : State :=
  { s with tap := { s.tap with state := .testLogicReset, ir := 0xF, tdo := none } }

/-- TEST_CLOCK_EDGE: an edge of TCK while the belfry's rails are up. While TRST_N is held low the controller stays in reset. -/
def State.testClockEdge (s : State) (rising tms tdi : Bool) (pins : TestPins) : State :=
  if s.pow.mode = .off ∨ s.pow.mode = .hot then s
  else if !pins.trst then s.testLogicReset
  else if rising then
    let (free, s) := s.draw
    { s with tap := s.tap.rise tms tdi (s.boundaryPins pins) free }
  else { s with tap := s.tap.fall }

end Sys2Proof.Machine
end

