-- ==== Sys2Proof/Machine/Frame.lean ====
section
/-!
DEFINITION. The frame boundary: writes that come into force there and what they do (R404), clears of counters (R336), and
what each unit does at a boundary.
-/

namespace Sys2Proof.Machine

/-! ### Counters by COUNTER_OVF bit (R336, and the rule of each page that assigns its bits) -/

/-- A whole register. -/
def wordAt (off : Nat) : FieldRef := ⟨off, 31, 0⟩

/-- Bit `bit` of n counters in address order. -/
def inOrder (base n bit : Nat) : List FieldRef := if bit < n then [wordAt (base + 4 * bit)] else []

/-- The corrected and uncorrectable counts of regions. -/
def regionCounts (l : List Nat) : List FieldRef := l.flatMap (fun r => [wordAt (0x108 + 16 * r), wordAt (0x10C + 16 * r)])

/-- The counters that a COUNTER_OVF bit of a page stands for. -/
def ovfFields (k : PageKind) (bit : Nat) : List FieldRef :=
  match k with
  | .block =>
    let f := if bit < 16 then Reg.BLOCK.CH_CNT_GATEHIGH_CNT else Reg.BLOCK.CH_CNT_PILEUP_CNT
    (List.range 16).map (fun i => f.nth (bit % 16 * 16 + i))
  | .tdc =>
    if bit = 0 then [Reg.TDC.FAULT_CNT_UNLOCK_CNT] else if bit = 1 then [Reg.TDC.FAULT_CNT_SLIP_CNT]
    else if bit = 2 then [Reg.TDC.CLAMP_CNT]
    else if bit = 3 then (List.range 256).map (fun i => Reg.TDC.BUSY_CNT_COUNT.nth i) else []
  | .tile => inOrder 0x048 8 bit
  | .ports => if bit % 8 < 5 ∧ bit < 16 then [wordAt (0x088 + 0x40 * (bit / 8) + 4 * (bit % 8))] else []
  | .merge => if 16 ≤ bit then [wordAt (0x080 + 4 * (bit - 16))] else inOrder 0x050 3 bit
  | .corr => inOrder 0x050 3 bit
  | .sheaf => inOrder 0x050 4 bit
  | .trig => inOrder 0x080 9 bit
  | .glean =>
    if bit = 5 then [Reg.GLEAN.DEAD_CAP_LO, Reg.GLEAN.DEAD_CAP_HI]
    else if bit = 6 then [Reg.GLEAN.DEAD_GLEAN_LO, Reg.GLEAN.DEAD_GLEAN_HI]
    else if bit = 7 then [Reg.GLEAN.FRAMES_LO, Reg.GLEAN.FRAMES_HI] else inOrder 0x04C 5 bit
  | .cals => if bit = 5 then [Reg.CALS.CDEAD_TOT_LO, Reg.CALS.CDEAD_TOT_HI] else inOrder 0x074 5 bit
  | .time => if bit = 4 then [Reg.TIME.HOLD_ELAPSED] else inOrder 0x088 4 bit
  | .timeD => inOrder 0x070 2 bit
  | .stick => inOrder 0x05C 5 bit
  | .step => inOrder 0x06C 4 bit
  | .dram => inOrder 0x078 7 bit
  | .dtrain => inOrder 0x048 2 bit
  | .dintg =>
    if bit < 24 then regionCounts [bit] else if bit = 24 then [Reg.DINTG.FAULT_LOST_CNT]
    else if bit = 25 then [Reg.DINTG.POISON_CNT] else []
  | .intg =>
    if bit < 4 then regionCounts [bit] else if bit < 20 then regionCounts [bit, bit + 16]
    else if bit = 20 then [Reg.INTG.FAULT_LOST_CNT] else if bit = 21 then [Reg.INTG.POISON_CNT] else []
  | .lanes =>
    if bit = 0 then [Reg.LANES.EXIT_CNT] else if bit = 1 then [Reg.LANES.FAULT_CNT]
    else if bit = 2 then [Reg.LANES.SENT_LO, Reg.LANES.SENT_HI] else []
  | .lane => if bit = 3 then [Reg.LANE.BITS_LO, Reg.LANE.BITS_HI] else inOrder 0x05C 3 bit
  | .um => inOrder 0x074 9 bit
  | .jrnl => inOrder 0x060 2 bit
  | .mod => inOrder 0x050 3 bit
  | .monx => inOrder 0x04C 2 bit
  | .madc => inOrder 0x050 4 bit
  | .ilk => inOrder 0x064 2 bit
  | .fwu => inOrder 0x078 3 bit
  | .pwr => inOrder 0x058 3 bit
  | .afe => []

/-- Fields return to zero. -/
def State.zero (s : State) (page : Nat) (l : List FieldRef) : State := s.each l (·.put page · 0)

/-- What a COUNTER_OVF bit stands for beside its fields: the CDEAD entries and the histograms of CALS, and the holdover that
HOLD_ELAPSED times (R225, R253). -/
def State.clearBeside (s : State) (k : PageKind) (bit : Nat) : State :=
  match k with
  | .cals =>
    if bit = 6 then { s with cal := { s.cal with cdead := [] } } else if bit = 7 then s.restartTurn false else s
  | .time =>
    if bit = 4 then { s with time := { s.time with holdFrom := s.time.holdFrom.map (fun _ => s.now) } } else s
  | _ => s

/-- A COUNTER_OVF bit and every counter assigned to it are cleared. -/
def State.clearCount (s : State) (k : PageKind) (page bit : Nat) : State :=
  let s := (s.zero page (ovfFields k bit)).clearBeside k bit
  s.wr page Reg.HDR.COUNTER_OVF.off (s.rd page Reg.HDR.COUNTER_OVF.off &&& ~~~(BitVec.ofNat 32 (2 ^ bit)))

/-- The numbers of the bits set in a word. -/
def bitsIn (v : Word) : List Nat := (List.range 32).filter (fun i => v.getLsbD i)

/-- The offset of a page's clear register. -/
def clearOff (k : PageKind) : Option Nat :=
  match k with
  | .block => some 0x058
  | .tile | .merge | .jrnl | .lane => some 0x068
  | .sheaf | .madc => some 0x060
  | .trig => some 0x0A4
  | .glean | .pwr => some 0x064
  | .cals | .time | .um => some 0x098
  | .timeD | .lanes => some 0x078
  | .stick => some 0x070
  | .step => some 0x07C
  | .dram => some 0x094
  | .dtrain => some 0x050
  | .dintg => some 0x080
  | .intg | .fwu => some 0x084
  | .mod => some 0x05C
  | .monx => some 0x054
  | .ilk => some 0x06C
  | .tdc | .corr | .ports | .afe => none

/-- The COUNTER_OVF bits whose counters a write to CNT_CLR clears. -/
def clearBits (k : PageKind) (v : Word) : List Nat :=
  match k with
  | .block => (bitsIn v).flatMap (fun c => [c, c + 16])
  | .glean => (if v.getLsbD 0 then [0, 1, 2, 3, 4] else []) ++ (if v.getLsbD 1 then [5, 6, 7] else [])
  | .cals => (if v.getLsbD 0 then [0, 1, 2, 3, 4] else []) ++ (if v.getLsbD 1 then [5, 6] else [])
  | _ => if v.getLsbD 0 then List.range 32 else []

/-- Peaks that CNT_CLR.ALL clears with the counters. -/
def clearPeaks (k : PageKind) (v : Word) : List FieldRef :=
  if v.getLsbD 0 then
    match k with
    | .glean => [Reg.GLEAN.QUEUE_STAT_PEAK]
    | .dram => [Reg.DRAM.WBUF_PEAK]
    | _ => []
  else []

/-- CNT_CLR. -/
def State.cntClr (s : State) (k : PageKind) (page : Nat) (v : Word) : State :=
  ((clearBits k v).foldl (fun s b => s.clearCount k page b) s).zero page (clearPeaks k v)

/-- PORT_CLR of port p: its five counters and its peak (R108, R109). -/
def State.portClr (s : State) (page p : Nat) : State :=
  ((List.range 5).foldl (fun s b => s.clearCount .ports page (8 * p + b)) s).zero page [Reg.PORTS.PEAK.nth p 0x40]

/-! ### Written 1s (R405) -/

/-- The channel index of entry i of a window of a block page. -/
def blockChan (page i : Nat) : Nat := page / 256 % 16 * 4096 + page % 16 * 256 + i % 256

/-- CH_CAL.BAD of a channel is cleared (R225). -/
def State.clearBad (s : State) (chan : Nat) : State :=
  let w := mapGetD 0 chan s.cal.chCal
  if w.getLsbD 31 then
    ({ s with cal := { s.cal with chCal := mapPutD 0 chan (w &&& 0x7FFFFFFF) s.cal.chCal } } : State).put pgCALS
      Reg.CALS.BAD_CNT_COUNT (s.stored pgCALS Reg.CALS.BAD_CNT_COUNT - 1)
  else s

/-- A write of 1 to DLL_CTRL.RELOCK, or of 0 to ENABLE, stops the running line: LOCKED falls (R57-R59). -/
def State.dllStops (s : State) (t : Fin 16) : State :=
  let s := s.setTile t { s.tile t with acquiring := true }
  if s.flag (pgTDC t) Reg.TDC.LOCK_STATUS_LOCKED then
    (if 2 ≤ s.pwr (pgTILE t) then s.lockLost t else s.putB (pgTDC t) Reg.TDC.LOCK_STATUS_LOCKED false)
  else s

/-- The written 1s of a register of the common header. -/
def State.headerPulse (s : State) (k : PageKind) (w : PendWrite) : State :=
  if w.off = 0x020 then (bitsIn w.value).foldl (fun s b => s.clearCount k w.page b) s
  else if w.off = 0x028 then s
  else s.wr w.page w.off (s.rd w.page w.off &&& ~~~w.value)

/-- The written 1s of a page's own register, but for its clear register. -/
def State.ownPulse (s : State) (k : PageKind) (f : Nat) (w : PendWrite) : State :=
  match k with
  | .block => if 0xC00 ≤ w.off then s.clearSelfMask (blockChan w.page ((w.off - 0xC00) / 4)) (f * 262144) else s
  | .tdc => if w.off = 0x040 then s.dllStops (tileOf w.page) else s
  | .ports => s.portClr w.page ((w.off - 0x0A0) / 0x40)
  | .cals => if 0xC00 ≤ w.off then s.clearBad w.chan else s
  | .time =>
    if w.off = 0x074 then s.snap f
    else if w.off = 0x050 then (s.requestSwitch (w.value.getLsbD 0) w.chan).2 else s
  | .dram => if w.off = 0x098 then s.releaseFreeze (concOf w.page) else s
  | .dintg => if w.off = 0x07C then s.faultClr w.page else s
  | .intg => if w.off = 0x080 then s.faultClr w.page else s
  | .lane => if w.off = 0x04C then s.injOne (concOf w.page) (w.page % 256 - 16) else s
  | .jrnl => if w.off = 0x058 then s.putB pgJRNL Reg.JRNL.PEAL_STAT_MIXED false else s
  | .monx => if w.off = 0x044 then (bitsIn w.value).foldl (fun s n => s.setBroken n false) s else s
  | .madc =>
    let s := if w.value.getLsbD 16 then s.monStart else s
    if w.value.getLsbD 17 then s.monStop else s
  | .pwr => if w.off = 0x050 then s.convFaultClear w.value else s
  | _ => s

/-- Written 1s act at the boundary that begins frame f. -/
def State.pulse (s : State) (f : Nat) (w : PendWrite) : State :=
  match pageKind w.page with
  | none => s
  | some k =>
    if w.off < 0x40 then s.headerPulse k w
    else if clearOff k = some w.off then s.cntClr k w.page w.value
    else s.ownPulse k f w

/-! ### Settings that come into force (R404) -/

/-- The fields of a register that differ between its old and its new value. -/
def changed (old new : Word) (l : List FieldRef) : Bool := l.any (fun f => fieldGet f old != fieldGet f new)

/-- A block's threshold, gain, polarity, trim step or hysteresis has changed: its channels are blanked (R47). -/
def State.blankBlock (s : State) (page f : Nat) : State :=
  s.each (List.range 256) (fun s i => s.blank (blockChan page i) (f * 262144))

/-- CH_CFG of a channel has changed: blanking (R47), and the stuck timer of a channel masked or unmasked (R38, R39). -/
def State.chCfgChanged (s : State) (chan f : Nat) (old new : Word) : State :=
  let s := if changed old new [Reg.BLOCK.CH_CFG_TRIM, Reg.BLOCK.CH_CFG_GAIN_OVR, Reg.BLOCK.CH_CFG_GAIN_OVR_EN] then
    s.blank chan (f * 262144) else s
  if changed old new [Reg.BLOCK.CH_CFG_MASK] then
    s.setChan chan { s.chan chan with
      stuckFrom := if fieldGet Reg.BLOCK.CH_CFG_MASK new = 0 ∧ s.isHigh chan = true ∧ s.isSelfMasked chan = false
        then some (f * 262144) else none }
  else s

/-- A register of a block page has come into force. -/
def State.blockChanged (s : State) (page off f : Nat) (old new : Word) : State :=
  if off = 0x040 then
    (if changed old new [Reg.BLOCK.BLK_AFE_HYST, Reg.BLOCK.BLK_AFE_TRIM_LSB, Reg.BLOCK.BLK_AFE_GAIN, Reg.BLOCK.BLK_AFE_POL] then
      s.blankBlock page f else s)
  else if off = 0x044 then (if changed old new [Reg.BLOCK.BLK_THR_THR_DAC] then s.blankBlock page f else s)
  else if 0x400 ≤ off ∧ off < 0x800 then s.chCfgChanged (blockChan page ((off - 0x400) / 4)) f old new
  else s

/-- The polarity of a gate pin (R179). -/
def polReg : Pin → FieldRef | .a => Reg.TRIG.GATE_CTRL_A_POL | .b => Reg.TRIG.GATE_CTRL_B_POL

/-- A header register has come into force: an enable bit that rises over a pending bit, or a 1 written to EVT_ON over an enabled
one, counts as a rise (R403). -/
def State.headerChanged (s : State) (page off : Nat) (old new : Word) : State :=
  let pend := s.rd page Reg.HDR.EVT_PENDING.off
  if off = 0x018 then (if new &&& ~~~old &&& pend = 0 then s else s.queueEvent page)
  else if off = 0x00C then
    (if fieldGet Reg.HDR.CTRL_EVT_ON new = 1 ∧ pend &&& s.live page Reg.HDR.EVT_ENABLE.off ≠ 0 then s.queueEvent page else s)
  else s

/-- Self-test overrides release tiles held in KEEP (R324). -/
def State.overrideTiles (s : State) : State :=
  s.each allTiles (fun s t =>
    if s.bitAt pgINTG Reg.INTG.ST_CTRL_TILE_OVR t.val then s.setTile t { s.tile t with testHeld := false } else s)

/-- A summary setting has been written: intervals in progress of the regions concerned are abandoned (R127). -/
def State.dropSummaries (s : State) (c : Conc) (off : Nat) : State :=
  let cs := s.conc c
  if off = 0x064 then s.setConc c { cs with summ := [] }
  else if 0x0C0 ≤ off then s.setConc c { cs with summ := mapDel ((off - 0x0C0) / 4) cs.summ }
  else s

/-- A register of a page has come into force at the boundary that begins frame f. -/
def State.ownChanged (s : State) (k : PageKind) (page off f : Nat) (old new : Word) : State :=
  match k with
  | .block => s.blockChanged page off f old new
  | .afe => if off = 0x040 ∧ changed old new [Reg.AFE.GATE_CTRL_SRC] = true then s.gateSourceChanged (tileOf page) (f * 262144) else s
  | .tdc => if off = 0x040 ∧ fieldGet Reg.TDC.DLL_CTRL_ENABLE new = 0 then s.dllStops (tileOf page) else s
  | .trig =>
    if off = 0x06C then
      s.each [Pin.a, Pin.b] (fun s p => if changed old new [polReg p] then s.gatePolChanged p f else s)
    else s
  | .timeD => if off = 0x050 then s.slewWritten (umOf (page == pgTIMED .um1)) else s
  | .time => if off = 0x064 then s.spliceWritten else s
  | .cals =>
    if off = Reg.CALS.RING.off then { s with cal := { s.cal with ringOld := (f, old) :: s.cal.ringOld } } else s
  | .merge => if off = Reg.MERGE.GOV_CTRL.off then s.govSettle (concOf page) else s.dropSummaries (concOf page) off
  | .dram => if off = 0x040 then s.pinPoint (concOf page) else s
  | .dintg => if 0x100 ≤ off ∧ off % 16 = 4 then s.threshChanged page ((off - 0x100) / 16) else s
  | .lanes => if off = Reg.LANES.MASK_LO.off ∨ off = Reg.LANES.MASK_HI.off then s.deliverMask (concOf page) else s
  | .lane => if off = 0x04C then s.testChanged (concOf page) (page % 256 - 16) else s
  | .monx | .madc => s.touchEntry page off
  | .intg =>
    if off = 0x07C then s.overrideTiles
    else if 0x100 ≤ off ∧ off % 16 = 4 then s.threshChanged page ((off - 0x100) / 16) else s
  | _ => s

/-- A register whose former value was `old` has come into force. -/
def State.cameInForce (s : State) (f : Nat) (e : Nat × Word) : State :=
  let page := e.1 / 4096
  let off := e.1 % 4096
  match pageKind page with
  | none => s
  | some k =>
    if off < 0x40 then s.headerChanged page off e.2 (s.rd page off) else s.ownChanged k page off f e.2 (s.rd page off)

/-- Every accepted write takes effect (R404): what it left in its registers is in force, its written 1s act in order, and
what follows from the changes happens. A LO word of INC or SLEW_INC written since its HI word waits on (R236). -/
def State.applyWrites (s : State) (f : Nat) : State :=
  let waits (e : Nat × Word) : Option (Nat × Word) := (mapFind e.1 s.time.lo).map (fun v => (e.1, v))
  let s' := { s with stale := s.stale.filterMap waits, pendW := [] }
  (s'.each s.pendW (·.pulse f ·)).each (s.stale.filter (fun e => (waits e).isNone)) (·.cameInForce f ·)

/-! ### The boundary -/

/-- What the frame sync says of the frame begun; what earlier frames no longer need is dropped. -/
def State.beginFrame (s : State) (f : Nat) : State :=
  let need := concs.foldl (fun n c => if (s.conc c).merging then min n (s.conc c).nextForm else n) (min f s.trig.nextFrame)
  let s := { s with frames := mapPut f s.frameInfo (s.frames.filter (fun x => decide (need ≤ x.1))) }
  s.each concs (fun s c => s.setConc c { s.conc c with
    corrOld := (s.conc c).corrOld.filter (fun x => decide ((s.conc c).nextForm < x.1)) })

/-- The module and the running concentrators follow their ceilings (R17, R18, R402). A concentrator that falls to OFF loses its
configuration (R16): it enters reset, and returns as one that rejoins (DESIGN CHOICE, log 43). -/
def State.followCeilings (s : State) : State :=
  let s := s.put pgMOD Reg.HDR.PWR_STATE_STATE (nextPower (s.pwr pgMOD) (s.ceil pgMOD))
  s.each concs (fun s c =>
    if (s.conc c).run = .reset then s
    else if s.effCeil (pgMERGE c) = 0 then s.resetConc c
    else
      let next := nextPower (s.pwr (pgMERGE c)) (s.effCeil (pgMERGE c))
      (if next < 2 then s.stackSleeps c else s).put (pgMERGE c) Reg.HDR.PWR_STATE_STATE next)

/-- The tiles compare their counts, follow their ceilings, leave and resume (R19, R41, R54, R59, R60). -/
def State.tilesBoundary (s : State) (f : Nat) (slips : List (Fin 16 × BitVec 48)) : State :=
  s.each allTiles (fun s t => s.tileBoundary t f (mapGetD 0 t.val (slips.map (fun x => (x.1.val, x.2)))))

/-- The concentrators at a boundary: holds, joins and their lag. -/
def State.concsBoundary (s : State) (f : Nat) : State :=
  s.each concs (fun s c => ((s.holdBoundary c).joinBoundary f c).showLag c)

/-- At the boundary that begins frame f the times of pending commands convert with the SPLICE then in force (R175, R181, R234), at a
domain switch after it. -/
def State.convertCommands (s : State) (f : Nat) : State :=
  if s.switchDue f then s else (s.convertTimed f).sendWindows

/-- FRAME_BOUNDARY: the frame in progress ends and the next begins. `slips` are the reference edges that tiles counted beside the
4096 of the frame. -/
def State.frameBoundary (s : State) (slips : List (Fin 16 × BitVec 48)) (env : BoundaryEnv) : State :=
  if s.running then
    let f := s.frame + 1
    let s := (s.timeBoundary f env.drift).markTimed f
    let s := ({ s with frame := f, now := f * frameTref } : State).applyWrites f
    let s := (s.readStaged .a f env.stagingA).readStaged .b f env.stagingB
    let s := (((s.mixedBoundary f).beginFrame f).recheckSwitch f).convertCommands f
    let s := s.followCeilings.each concs (fun s c => s.ackJoiner f c)
    let s := (s.tilesBoundary f slips).concsBoundary f
    let s := s.deliverResends.stickBoundary f
    let s := (((s.launchesUnread f).ringLevels f).turnIfNone).checkSwap
    ((s.monBoundary.showSwitch f).showDies).showPg.noteTq
  else s

/-- Before frames run there is no boundary to wait for: a write takes effect as it is accepted, a hold of a concentrator among
them (R475). -/
def State.settle (s : State) : State := if s.running then s else (s.applyWrites s.frame).each concs (·.holdBoundary ·)

end Sys2Proof.Machine
end

