-- ==== Sys2Proof/Machine/Peal.lean ====
section
/-!
DEFINITION. Peals (R382-R386): assembly, the checks of PEAL_END, acknowledgement and commitment, application.
-/

namespace Sys2Proof.Machine

/-! ### Assembly (R382) -/

/-- PEAL_STAT.STATE while no peal is pending or committed. -/
def State.showAssembly (s : State) : State :=
  if s.peal.isSome then s
  else s.put pgJRNL Reg.JRNL.PEAL_STAT_STATE (if s.um0.asm.isSome || s.um1.asm.isSome then 1 else 0)

/-- A port's assembly changes. -/
def State.setAssembly (s : State) (u : Um) (p : Option Peal) : State :=
  (s.setUm u { s.um u with asm := p }).showAssembly

/-- The write at the lowest INDEX filled; what stands for it in the journal where there is none is not stated, and free. -/
def State.firstWrite (s : State) (l : List PWrite) : PWrite × State :=
  match l with
  | w :: _ => (w, s)
  | [] =>
    let (v, s) := s.draw
    ({ page := BitVec.ofNat 16 v, off := BitVec.ofNat 16 (v / 65536), value := BitVec.ofNat 32 (v / 2 ^ 32) }, s)

/-- The writes in INDEX order. -/
def Peal.list (p : Peal) : List PWrite := p.writes.map (·.2)

/-- The journal entry of a peal's outcome (R387, R500). -/
def pealEntry (p : Peal) (code result aux : Nat) (w : PWrite) (time : Nat) : JEntry :=
  { seq := 0, time := time, port := p.port.idx, master := p.master.toNat, code := code, result := result,
    page := w.page.toNat, off := w.off.toNat % 4096, digest := digestOf w.value, aux := aux, poison := false }

/-- The frame from which a refused peal's boundary sets MIXED (R386); before the first frame, where no frame is in progress to count
from, the boundary's sheaf number. -/
def State.mixedAt (s : State) (sheaf : Nat) : Nat :=
  if s.running then max (frameOfSheaf s.frame sheaf) (s.frame + 1) else sheaf

/-- A peal is refused or aborted (R386, R387): counted, journaled, and MIXED from the later of its boundary and the next; a
duplicate sets no MIXED (R391). Answers the entry's number. -/
def State.pealFails (s : State) (p : Peal) (r time : Nat) : Nat × State :=
  let (w, s) := s.firstWrite p.list
  let (n, s) := s.append (pealEntry p 0x42 r p.count w time)
  let s := ((s.bump pgJRNL Reg.JRNL.PEAL_FAIL_CNT 1).event pgJRNL 1).put pgJRNL Reg.JRNL.PEAL_STAT_LAST_RESULT r
  (n, if r = resDUPLICATE then s
      else { s with mixedFrom := s.mixedAt p.frame :: s.mixedFrom })

/-- An assembly ends without its PEAL_END (R382). -/
def State.dropAssembly (s : State) (u : Um) : State :=
  match (s.um u).asm with
  | some p => ((s.setAssembly u none).pealFails p resMALFORMED s.now).2
  | none => s

/-- PEAL_BEGIN: a second one on a port ends the first assembly and starts another. -/
def State.pealBegin (s : State) (u : Um) (master : Byte) (epoch count sheaf : Nat) : State :=
  let s := s.dropAssembly u
  s.setAssembly u (some { port := u, master := master, epoch := epoch, count := count, frame := sheaf, writes := [],
                          time := s.now })

/-- The assembly that a master's command on a port joins. -/
def State.assembly (s : State) (u : Um) (master : Byte) : Option Peal :=
  match (s.um u).asm with
  | some p => if p.master = master then some p else none
  | none => none

/-- Writes from an INDEX on. -/
def indexed : Nat → List PWrite → List (Nat × PWrite)
  | _, [] => []
  | i, w :: r => (i, w) :: indexed (i + 1) r

/-- PEAL_WRITE into an assembly. -/
def State.pealWrite (s : State) (u : Um) (p : Peal) (index : Nat) (l : List PWrite) : State :=
  s.setAssembly u (some { p with writes := (indexed index l).foldl (fun m e => mapPut e.1 e.2 m) p.writes })

/-! ### The checks of R383 -/

/-- The kind of the page that a write names, alias pages by the page they stand for. -/
def targetKind (page : Nat) : Option PageKind := if page / 256 = 0x20 then aliasKind page else pageKind page

end Sys2Proof.Machine

namespace Sys2Proof

open Sys2Proof.Machine

/-- A peal may make this write. -/
def PWrite.allowed (w : PWrite) : Bool :=
  match targetKind w.page.toNat, regAt (targetPage w.page.toNat) w.off.toNat with
  | some _, some d => d.mask (fun a => a == .rw || a == .rws) != 0 && w.value &&& d.mask Access.isPulse == 0
  | _, _ => false

/-- The bytes that the CRC of PEAL_END covers. -/
def PWrite.bytes (w : PWrite) : List Byte := toBytes 2 w.page.toNat ++ toBytes 2 w.off.toNat ++ toBytes 4 w.value.toNat

end Sys2Proof

namespace Sys2Proof.Machine

/-- COUNT agrees, every INDEX is filled, and the CRC matches. -/
def Peal.formed (p : Peal) (count : Nat) (crc : BitVec 32) : Bool :=
  p.count == count && decide (1 ≤ count) && decide (count ≤ 64) && p.writes.map (·.1) == List.range count &&
    crc32c (p.list.flatMap PWrite.bytes) == crc

/-- The epoch that a peal must carry: a committed swap counts as applied (R218, R383). -/
def State.nextEpoch (s : State) : Nat :=
  (s.epochNow + 1 + (match s.cal.swap with | some w => w.committed.toNat | none => 0)) % 65536

/-- The boundary of a committed swap. -/
def State.committedSwapAt (s : State) : Option Nat :=
  match s.cal.swap with
  | some w => if w.committed then some w.frame else none
  | none => none

/-- The first failing check of R383; OK where all hold. Before frames run no sheaf lies in the future. -/
def State.pealCheck (s : State) (p : Peal) (count : Nat) (crc : BitVec 32) : Nat :=
  let d := signedDiff 32 p.frame (sheafOf s.frame)
  if !p.formed count crc then resMALFORMED
  else if p.list.any (fun w => !w.allowed) then resBAD_ADDR
  else if d ≤ 0 ∨ s.running = false then resPAST
  else if d < 3 ∨ 2 ^ 20 < d then resRANGE
  else if p.epoch ≠ s.nextEpoch then resEPOCH
  else if s.committedSwapAt = some (frameOfSheaf s.frame p.frame) then resREFUSED
  else match s.peal with
    | some q =>
      if q.port ≠ p.port ∧ q.epoch = p.epoch ∧ q.frame = frameOfSheaf s.frame p.frame then resDUPLICATE else resBUSY
    | none => resOK

/-- PEAL_END of an assembly: its result, the number of the entry of a refused peal, and the state. A peal that passes is
pending, and withdraws a swap not yet committed (R216, R383). -/
def State.pealEnd (s : State) (u : Um) (p : Peal) (count : Nat) (crc : BitVec 32) : Nat × Nat × State :=
  let s := s.setAssembly u none
  let r := s.pealCheck p count crc
  if r = resOK then
    let s := s.withdrawSwap
    let s := { s with peal := some { p with frame := frameOfSheaf s.frame p.frame, time := s.now } }
    (resOK, 0, (s.put pgJRNL Reg.JRNL.PEAL_STAT_STATE 2).put pgJRNL Reg.JRNL.PEAL_AT p.frame)
  else
    let x := s.pealFails p r s.now
    (r, x)

/-! ### Commitment (R384, R385) -/

/-- The pages that a write of a peal reaches. -/
def State.pealPages (s : State) (w : PWrite) : List Nat := s.writePages w.page.toNat w.off.toNat

/-- P[k] of a tile as a peal would leave it. -/
def State.pealTap (s : State) (p : Peal) (t : Fin 16) (k : Nat) : Nat :=
  let mine := p.list.filter (fun w => w.off.toNat == 0x100 + 4 * k && (s.pealPages w).contains (pgTDC t))
  match mine.getLast? with
  | some w => w.value.toNat % 65536
  | none => s.stored (pgTDC t) (Reg.TDC.TAP_POS_POS.nth k)

/-- A tile's tap positions would pass the check of R70. -/
def State.pealTapsRise (s : State) (p : Peal) (t : Fin 16) : Bool :=
  (List.range 63).all (fun i => decide ((if i = 0 then 0 else s.pealTap p t i) < s.pealTap p t (i + 1))) &&
    decide (s.pealTap p t 63 < 32768)

/-- A write to a tap position. -/
def isTapWrite (page off : Nat) : Bool := isTilePage page && page % 256 == 1 && decide (0x100 ≤ off) && decide (off < 0x200)
/-- A write to a TAC map entry. -/
def isTacWrite (page off : Nat) : Bool := isTilePage page && page % 256 == 1 && decide (0x400 ≤ off) && decide (off < 0x800)

/-- The unit behind a page holds its acknowledgement at the start of frame S − 2. -/
def State.pageAcks (s : State) (p : Peal) (page off : Nat) : Bool :=
  if isTilePage page then
    s.pwr (pgTILE (tileOf page)) != 0 && (!isTapWrite page off || s.pealTapsRise p (tileOf page))
  else if isConcPage page then (s.conc (concOf page)).run == .running
  else true

/-- Every unit that a peal reaches holds its acknowledgement. -/
def State.pealAcked (s : State) (p : Peal) : Bool :=
  p.list.all (fun w => (s.pealPages w).all (fun g => s.pageAcks p g w.off.toNat))

/-- No peal is pending. -/
def State.dropPeal (s : State) : State := ({ s with peal := none } : State).showAssembly

/-- PEAL_COMMIT: at the start of frame S − 2. -/
def State.pealCommit (s : State) : State :=
  match s.peal with
  | some p =>
    if s.stored pgJRNL Reg.JRNL.PEAL_STAT_STATE = 2 ∧ s.frame + 2 = p.frame then
      (if s.pealAcked p then s.put pgJRNL Reg.JRNL.PEAL_STAT_STATE 3
       else (s.dropPeal.pealFails { p with frame := sheafOf p.frame } resABORTED p.time).2)
    else s
  | none => s

/-! ### Application (R385) -/

/-- A tile's tables stand in MRAM, of the current settings schema (R222), before single entries of them change. -/
def State.keepTables (s : State) (t : Fin 16) : State :=
  if s.tablesKept t then s
  else
    let r := s.startTables t
    { s with
      mramTap := r.taps.foldl (fun m e => mapPut (t.val * 64 + e.1) e.2 m) s.mramTap
      mramTac := r.tac.foldl (fun m e => mapPut e.1 e.2 m) s.mramTac
      mramCorr := r.corr.foldl (fun m e => mapPut e.1 e.2 m) s.mramCorr
      fwu := { s.fwu with tables := mapPut t.val s.fwu.schema s.fwu.tables } }

/-- A tap position comes into force in a tile, or in the tables that it takes when it returns. -/
def State.pealTapWrite (s : State) (page off : Nat) (v : Word) : State :=
  let t := tileOf page
  let s := s.keepTables t
  let s := { s with mramTap := mapPut (t.val * 64 + (off - 0x100) / 4) (v.toNat % 65536) s.mramTap }
  if s.dieOff page then s else s.wr page off (v &&& 0xFFFF)

/-- A TAC map entry comes into force likewise. -/
def State.pealTacWrite (s : State) (page off : Nat) (v : Word) : State :=
  let k := s.tacChan page off
  let s := s.keepTables (tileOf page)
  let s := { s with mramTac := mapPut k v s.mramTac }
  if s.dieOff page then s else { s with tac := mapPutD 0 k v s.tac, tacPoison := s.tacPoison.filter (· != k) }

/-- The replaced entry of a channel is kept for frame f − 1, a poisoned one as invalid (R116, R385). -/
def ConcSt.keepOld (cs : ConcSt) (chan f : Nat) : ConcSt :=
  let v := mapGetD 0 chan cs.corr
  let v := if cs.entryPoisoned chan then entrySet v 127 127 0 else v
  match cs.corrOld with
  | (g, l) :: r =>
    if g = f then (if (mapFind chan l).isSome then cs else { cs with corrOld := (g, mapPut chan v l) :: r })
    else { cs with corrOld := (f, [(chan, v)]) :: cs.corrOld }
  | [] => { cs with corrOld := [(f, [(chan, v)])] }

/-- A word of a correction entry comes into force in a concentrator, and the entry's SET_EPOCH with it (R385). -/
def State.pealCorrWrite (s : State) (page off : Nat) (v : Word) (f epoch : Nat) : State :=
  let c := concOf page
  let chan := s.corrChan page off
  let w := off / 4 % 4
  let s := s.keepTables (chTile chan)
  let cs := s.conc c
  let old := if s.dieOff page then mapGetD 0 chan s.mramCorr else mapGetD 0 chan cs.corr
  let new := entrySet (entryPut old w v) 15 0 epoch
  let s := { s with mramCorr := mapPut chan new s.mramCorr }
  if s.dieOff page then s
  else
    let k := cs.keepOld chan f
    s.setConc c { k with corr := mapPutD 0 chan new k.corr, corrPoison := k.corrPoison.filter (· != 4 * chan + w) }

/-- The lower and the upper words of INC and SLEW_INC. -/
def isIncLow (k : PageKind) (off : Nat) : Bool := k == .timeD && (off == 0x040 || off == 0x048)
def isIncHigh (k : PageKind) (off : Nat) : Bool := k == .timeD && (off == 0x044 || off == 0x04C)

/-- A direct write's value in force gives way. -/
def State.unstale (s : State) (key : Nat) : State := { s with stale := mapDel key s.stale }

/-- The RW fields of a register take effect at boundary f; what a direct write would be refused is refused here too (R358,
R475). The lower word of INC or SLEW_INC waits for its upper one (R236). -/
def State.pealPlain (s : State) (k : PageKind) (page off : Nat) (d : RegDef) (v : Word) (f : Nat) : State :=
  let key := regKey page off
  let old := s.live page off
  let new := fixWord k off (d.take (· == .rw) (s.rd page off) v)
  if holdsBoth k off new then s
  else if s.testRefused k page off v then s.bump page Reg.LANE.TEST_REJ_CNT 2
  else if k = .time ∧ off = 0x048 then s.event pgTIME 6
  else if isIncLow k off then (s.storeLo page off new).record page off d
  else if isIncHigh k off then ((s.storeInc page off v).record page off d).unstale key |>.unstale (key - 4)
  else (((s.unstale key).wr page off new).record page off d).cameInForce f (key, old)

/-- One write of a peal at one page. -/
def State.pealPage (s : State) (page off : Nat) (v : Word) (f epoch : Nat) : State :=
  match pageKind page, regAt page off with
  | some k, some d =>
    if isTapWrite page off then s.pealTapWrite page off v
    else if isTacWrite page off then s.pealTacWrite page off v
    else if k = .corr ∧ 0x400 ≤ off then s.pealCorrWrite page off v f epoch
    else if s.dieOff page && off != 0x010 then (s.writeOff k page off d v false).2
    else s.pealPlain k page off d v f
  | _, _ => s

/-- A write of a peal takes effect and is journaled (R385, R387, R390). -/
def State.pealApplyWrite (s : State) (p : Peal) (i : Nat) (w : PWrite) : State :=
  let pages := s.pealPages w
  let s := s.each pages (fun s g => s.pealPage g w.off.toNat w.value p.frame p.epoch)
  let (n, s) := s.append (pealEntry p 0x41 resOK i w p.time)
  s.each pages (·.noteChange · n)

/-- The tiles whose tables a peal writes. -/
def State.pealTables (s : State) (p : Peal) : List (Fin 16) :=
  allTiles.filter (fun t => p.list.any (fun w =>
    (s.pealPages w).contains (pgTDC t) && (isTapWrite (pgTDC t) w.off.toNat || isTacWrite (pgTDC t) w.off.toNat)))

/-- A peal writes a register that some function holds of. -/
def Peal.writesSome (p : Peal) (h : Nat → Nat → Bool) : Bool := p.list.any (fun w => h w.page.toNat w.off.toNat)

/-- What a boundary does with settings, once more for those that a peal has set. -/
def State.pealFollow (s : State) (p : Peal) : State :=
  let s := if p.writesSome (fun _ o => o == 0x010) then
      s.followCeilings.each allTiles (fun s t => s.followTile t p.frame) else s
  let s := if p.writesSome (fun g o => g == pgPWR && o == Reg.PWR.CONC_HOLD.off) then s.each concs (·.holdBoundary ·) else s
  let s := if p.writesSome (fun g _ => g == pgMONX || g == pgMADC || g == pgILK) then s.monBoundary else s
  s.showPg.showDies

/-- PEAL_APPLY: a committed peal takes effect at boundary S, after the direct writes (R385, R386). -/
def State.pealApply (s : State) : State :=
  match s.peal with
  | some p =>
    if s.stored pgJRNL Reg.JRNL.PEAL_STAT_STATE = 3 ∧ p.frame ≤ s.frame then
      let tables := s.pealTables p
      let s := s.each p.writes (fun s e => s.pealApplyWrite p e.1 e.2)
      let s := s.each (tables.filter (fun (t : Fin 16) => s.pwr (pgTILE t) != 0)) (·.toggleParity ·)
      let s := s.each concs (fun s c =>
        if (s.conc c).run = .reset then s else s.put (pgCORR c) Reg.CORR.SWAP_EPOCH_EPOCH p.epoch)
      let s := (s.stepEpoch p.frame p.epoch).dropPeal
      let s := (s.put pgJRNL Reg.JRNL.PEAL_STAT_LAST_RESULT resOK).bump pgJRNL Reg.JRNL.PEAL_CNT 0
      (s.event pgJRNL 0).pealFollow p
    else s
  | none => s

end Sys2Proof.Machine
end

