-- ==== Sys2Proof/Machine/Command.lean ====
section
/-!
DEFINITION. Umauf commands (R376-R380): their body fields (R378), the checks of R379, and what each does; results, journal
entries and answers. Register access stands in Regs, peals in Peal, image commands in Fwu.
-/

namespace Sys2Proof.Machine

/-! ### The commands of R378 and R449 -/

/-- A command with its body fields; one whose CODE or LEN does not fit keeps its body. -/
inductive UCmd where
  | read (page off : Nat)
  | write (page off : Nat) (v : Word)
  | blockRead (page off count : Nat)
  | unlock (page frames : Nat)
  | lock (page : Nat)
  | authWrite (page off : Nat) (v : Word)
  | register (serial addr eqd : Nat)
  | deregister
  | timedTrigger (coarse fine : Nat) (glean : Bool) (level pre post path : Nat)
  | timedGate (opens openTap closes closeTap : Nat)
  | resend (first count : Nat)
  | freezeRelease (conc : Bool)
  | stick (op : Nat) (target : Bool)
  | domainSwitch (target : Bool) (sheaf : Nat)
  | pealBegin (epoch count sheaf : Nat)
  | pealWrite (index : Nat) (writes : List PWrite)
  | pealEnd (count : Nat) (crc : BitVec 32)
  | imgBegin (isK : Bool) (header : List Byte)
  | imgData (off : Nat) (words : List Word)
  | imgEnd (isK : Bool)
  | imgCancel (isK : Bool)
  | imgRestart
  | imgCommit (isK : Bool) (version : Nat)
  | imgReject (isK : Bool)
  | malformed (code : Nat)
  | unknown (code : Nat)
  deriving DecidableEq, Repr

/-- CODE. -/
def UCmd.code : UCmd → Nat
  | .read _ _ => 0x01
  | .write _ _ _ => 0x02
  | .blockRead _ _ _ => 0x03
  | .unlock _ _ => 0x04
  | .lock _ => 0x05
  | .authWrite _ _ _ => 0x06
  | .register _ _ _ => 0x10
  | .deregister => 0x11
  | .timedTrigger _ _ _ _ _ _ _ => 0x20
  | .timedGate _ _ _ _ => 0x21
  | .resend _ _ => 0x22
  | .freezeRelease _ => 0x23
  | .stick _ _ => 0x30
  | .domainSwitch _ _ => 0x31
  | .pealBegin _ _ _ => 0x40
  | .pealWrite _ _ => 0x41
  | .pealEnd _ _ => 0x42
  | .imgBegin _ _ => 0x50
  | .imgData _ _ => 0x51
  | .imgEnd _ => 0x52
  | .imgCancel _ => 0x53
  | .imgRestart => 0x54
  | .imgCommit _ _ => 0x55
  | .imgReject _ => 0x56
  | .malformed c => c
  | .unknown c => c

/-- The value that a write carries. -/
def UCmd.value : UCmd → Word
  | .write _ _ v => v
  | .authWrite _ _ v => v
  | _ => 0

/-- Privileged codes; 0x57 lies among them (R378). -/
def privCode (c : Nat) : Bool := c == 0x04 || c == 0x06 || c == 0x30 || c == 0x31 || (decide (0x50 ≤ c) && decide (c ≤ 0x57))

/-- DEST values that a code's Dest column lists: 0 addressed, 1 broadcast, 2 by serial. -/
def destAllowed (c d : Nat) : Bool :=
  if c = 0x10 then d == 2
  else if c = 0x02 ∨ c = 0x05 ∨ c = 0x11 ∨ c = 0x20 ∨ c = 0x21 ∨ c = 0x40 ∨ c = 0x41 ∨ c = 0x42 then d == 0 || d == 1
  else d == 0

/-- Fields packed into n words, most significant bit first (R377). -/
def packWords (n : Nat) (l : List (Nat × Nat)) : List Word :=
  let w := (l.map (·.1)).sum
  bytesWords n (toBytes (4 * n) (packFields l * 2 ^ (32 * n - w)))

/-- The body words of a command, before AUTH_SEQ and TAG64. -/
def UCmd.words : UCmd → List Word
  | .read p o => packWords 1 [(16, p), (16, o)]
  | .write p o v => packWords 2 [(16, p), (16, o), (32, v.toNat)]
  | .blockRead p o n => packWords 2 [(16, p), (16, o), (8, n)]
  | .unlock p f => packWords 1 [(16, p), (16, f)]
  | .lock p => packWords 1 [(16, p)]
  | .authWrite p o v => packWords 2 [(16, p), (16, o), (32, v.toNat)]
  | .register s a e => packWords 3 [(64, s), (12, a), (4, 0), (16, e)]
  | .deregister => []
  | .timedTrigger c f g l pre post path => packWords 4 [(48, c), (12, f), (1, g.toNat), (3, l), (20, pre), (20, post), (16, path)]
  | .timedGate o ot c ct => packWords 4 [(48, o), (6, ot), (48, c), (6, ct)]
  | .resend f n => packWords 2 [(32, f), (16, n)]
  | .freezeRelease c => packWords 1 [(1, c.toNat)]
  | .stick op t => packWords 1 [(2, op), (1, t.toNat)]
  | .domainSwitch t s => packWords 2 [(1, t.toNat), (31, 0), (32, s)]
  | .pealBegin e n s => packWords 2 [(16, e), (8, n), (8, 0), (32, s)]
  | .pealWrite i l => packWords 1 [(8, i), (8, l.length)] ++ l.flatMap (fun w => bytesWords 2 w.bytes)
  | .pealEnd n c => packWords 2 [(8, n), (24, 0), (32, c.toNat)]
  | .imgBegin k h => packWords 1 [(1, k.toNat)] ++ bytesWords 40 h
  | .imgData o l => BitVec.ofNat 32 o :: l
  | .imgEnd k => packWords 1 [(1, k.toNat)]
  | .imgCancel k => packWords 1 [(1, k.toNat)]
  | .imgRestart => [0]
  | .imgCommit k v => packWords 2 [(1, k.toNat), (31, 0), (32, v)]
  | .imgReject k => packWords 1 [(1, k.toNat)]
  | .malformed _ => []
  | .unknown _ => []

/-- The w bits of a body from bit o on, counted from the most significant (R377). -/
def bodyField (body : List Word) (o w : Nat) : Nat := ofBytes (wordsBytes body) / 2 ^ (32 * body.length - o - w) % 2 ^ w
def bodyFlag (body : List Word) (o : Nat) : Bool := bodyField body o 1 == 1

/-- The writes of a PEAL_WRITE from its second word on. -/
def parseWrites : List Word → List PWrite
  | a :: v :: r => { page := BitVec.ofNat 16 (a.toNat / 65536), off := BitVec.ofNat 16 a.toNat, value := v } :: parseWrites r
  | _ => []

/-- Body words of a code without AUTH_SEQ and TAG64; `n` is what the body holds, which some lengths depend on. None where
the code is not defined. -/
def bodyLength (code : Nat) (body : List Word) : Option Nat :=
  match code with
  | 0x01 => some 1
  | 0x02 => some 2
  | 0x03 => some 2
  | 0x04 => some 1
  | 0x05 => some 1
  | 0x06 => some 2
  | 0x10 => some 3
  | 0x11 => some 0
  | 0x20 => some 4
  | 0x21 => some 4
  | 0x22 => some 2
  | 0x23 => some 1
  | 0x30 => some 1
  | 0x31 => some 2
  | 0x40 => some 2
  | 0x41 => some (1 + 2 * bodyField (body.take 1) 8 8)
  | 0x42 => some 2
  | 0x50 => some 41
  | 0x51 => some (clampNat 2 97 body.length)
  | 0x52 => some 1
  | 0x53 => some 1
  | 0x54 => some 1
  | 0x55 => some 2
  | 0x56 => some 1
  | _ => none

/-- The fields of a body of the right length. -/
def parseFields (code : Nat) (b : List Word) : UCmd :=
  match code with
  | 0x01 => .read (bodyField b 0 16) (bodyField b 16 16)
  | 0x02 => .write (bodyField b 0 16) (bodyField b 16 16) (b.getD 1 0)
  | 0x03 => .blockRead (bodyField b 0 16) (bodyField b 16 16) (bodyField b 32 8)
  | 0x04 => .unlock (bodyField b 0 16) (bodyField b 16 16)
  | 0x05 => .lock (bodyField b 0 16)
  | 0x06 => .authWrite (bodyField b 0 16) (bodyField b 16 16) (b.getD 1 0)
  | 0x10 => .register (bodyField b 0 64) (bodyField b 64 12) (bodyField b 80 16)
  | 0x11 => .deregister
  | 0x20 => .timedTrigger (bodyField b 0 48) (bodyField b 48 12) (bodyFlag b 60) (bodyField b 61 3) (bodyField b 64 20)
      (bodyField b 84 20) (bodyField b 104 16)
  | 0x21 => .timedGate (bodyField b 0 48) (bodyField b 48 6) (bodyField b 54 48) (bodyField b 102 6)
  | 0x22 => .resend (bodyField b 0 32) (bodyField b 32 16)
  | 0x23 => .freezeRelease (bodyFlag b 0)
  | 0x30 => .stick (bodyField b 0 2) (bodyFlag b 2)
  | 0x31 => .domainSwitch (bodyFlag b 0) (bodyField b 32 32)
  | 0x40 => .pealBegin (bodyField b 0 16) (bodyField b 16 8) (bodyField b 32 32)
  | 0x41 => .pealWrite (bodyField b 0 8) (parseWrites b.tail)
  | 0x42 => .pealEnd (bodyField b 0 8) (b.getD 1 0)
  | 0x50 => .imgBegin (bodyFlag b 0) (wordsBytes b.tail)
  | 0x51 => .imgData (bodyField b 0 32) b.tail
  | 0x52 => .imgEnd (bodyFlag b 0)
  | 0x53 => .imgCancel (bodyFlag b 0)
  | 0x54 => .imgRestart
  | 0x55 => .imgCommit (bodyFlag b 0) (bodyField b 32 32)
  | 0x56 => .imgReject (bodyFlag b 0)
  | c => .unknown c

/-- A command from its code and body, without AUTH_SEQ and TAG64. -/
def parseCmd (code : Nat) (body : List Word) : UCmd :=
  match bodyLength code body with
  | none => .unknown code
  | some n => if body.length = n then parseFields code body else .malformed code

/-! ### The checks of R379 -/


/-- The module acts on the command (R376): broadcast; addressed to the registered port's address; or for its serial. -/
def State.forMe (s : State) (h : UHdr) (body : List Word) : Bool :=
  if h.dest = 0 then
    s.flag (pgUM h.port) Reg.UM.ADDR_REG && s.stored (pgUM h.port) Reg.UM.ADDR_ADDR == h.addr.toNat
  else if h.dest = 1 then true
  else decide (2 ≤ body.length) && ofBytes (wordsBytes (body.take 2)) == s.serial

/-- MASTER is in the port's trusted list; an empty list trusts every master. -/
def State.trusted (s : State) (h : UHdr) : Bool :=
  let en (n : Nat) : Bool := s.flag (pgUM h.port) (Reg.UM.TRUST_EN.nth n)
  let l := (List.range 8).filter en
  l.isEmpty || l.any (fun n => s.fld (pgUM h.port) (Reg.UM.TRUST_MASTER.nth n) == h.master.toNat)

/-- The form of a command: UNKNOWN, NOT_ALLOWED, MALFORMED, or OK. -/
def formResult (h : UHdr) (c : UCmd) (body : List Word) : Nat :=
  match c with
  | .unknown _ => resUNKNOWN
  | c =>
    if !destAllowed c.code h.dest.toNat then resNOT_ALLOWED
    else if bodyLength c.code body ≠ some body.length then resMALFORMED
    else if privCode c.code then (if h.auth.isSome ∧ h.len = body.length + 3 then resOK else resMALFORMED)
    else if h.len = body.length then resOK else resMALFORMED

/-- The header bytes of a command (R377), its reserved bits as they were sent. -/
def headerBytes (h : UHdr) (code : Nat) : List Byte :=
  toBytes 8 (packFields [(4, h.dest.toNat), (12, h.addr.toNat), (8, code), (8, h.tag.toNat), (8, h.len), (8, h.master.toNat),
    (16, h.reserved.toNat)])

/-- The authentication of a privileged command: AUTH_FAIL, STALE_SEQ, or OK. -/
def State.authResult (s : State) (h : UHdr) (code : Nat) (body : List Word) : Nat :=
  match h.auth with
  | some a =>
    let msg := toBytes 8 s.serial ++ headerBytes h code ++ wordsBytes body ++ toBytes 4 a.seq.toNat
    if cmac64 (toBytes 16 (s.fwu.authKey.getD Config.deliveredKey).toNat) msg ≠ a.tag then resAUTH_FAIL
    else if signedDiff 32 a.seq.toNat (s.stored pgJRNL Reg.JRNL.AUTH_SEQ) ≤ 0 then resSTALE_SEQ
    else resOK
  | none => resAUTH_FAIL

/-! ### Outcomes -/

/-- How a command is journaled: by its own fields (R500); by the fields of the write it carries; not here; or not here, an
entry with this number having been made. -/
inductive Log where
  | own
  | named (e : Nat × Nat × Nat × Nat)
  | none
  | made (seq : Nat)

/-- What a command leaves: its result, the data it answers with, how it is journaled, the pages it wrote with their results,
whether it writes RWL fields, and whether it is answered now. -/
structure Outcome where
  result : Nat
  state : State
  data : List Word := []
  log : Log := .own
  pages : List (Nat × Nat) := []
  rwl : Bool := false
  now : Bool := true

/-- DIGEST over a body (R388). -/
def bodyDigest (body : List Word) : Nat := (crc16 (wordsBytes body)).toNat

/-- PAGE, OFFSET, DIGEST and AUX of a command's journal entry (R388, R500). -/
def logOf (h : UHdr) (c : UCmd) (body : List Word) : Nat × Nat × Nat × Nat :=
  let d := bodyDigest body
  match c with
  | .write p o v => (p, o % 4096, digestOf v, 0)
  | .authWrite p o v => (p, o % 4096, digestOf v, 0)
  | .unlock p _ => (p, 0, d, 0)
  | .lock p => (p, 0, d, 0)
  | .register _ _ _ => (pgUM h.port, 0x044, d, 0)
  | .deregister => (pgUM h.port, 0x044, d, 0)
  | .timedTrigger _ _ _ _ _ _ _ => (pgTRIG, 0, d, 0)
  | .timedGate _ _ _ _ => (pgTRIG, 0, d, 0)
  | .resend _ _ => (pgTRIG, 0x07C, d, 0)
  | .freezeRelease k => (pgDRAM (concOfBit k), 0x098, d, 0)
  | .stick _ _ => (pgSTICK, 0x048, d, 0)
  | .domainSwitch t _ => (pgTIME, 0x050, d, t.toNat)
  | .pealEnd _ _ => (pgJRNL, 0, d, 0)
  | .imgBegin _ _ => (pgFWU, 0, d, 0)
  | .imgData _ _ => (pgFWU, 0, d, 0)
  | .imgEnd _ => (pgFWU, 0, d, 0)
  | .imgCancel _ => (pgFWU, 0, d, 0)
  | .imgRestart => (pgFWU, 0, d, 0)
  | .imgCommit _ _ => (pgFWU, 0, d, 0)
  | .imgReject _ => (pgFWU, 0, d, 0)
  | .read _ _ => (0, 0, d, 0)
  | .blockRead _ _ _ => (0, 0, d, 0)
  | .pealBegin _ _ _ => (0, 0, d, 0)
  | .pealWrite _ _ => (0, 0, d, 0)
  | .malformed _ => (0, 0, d, 0)
  | .unknown _ => (0, 0, d, 0)

/-! ### Reads (R398, R411, R412) -/

/-- The recovery loader answers reads of three pages only (R457). -/
def State.recovery (s : State) : Bool := s.stored pgFWU Reg.FWU.STAT_C_STATE == 3
def recoveryPage (page : Nat) : Bool := page == pgMOD || page == pgFWU || page == pgJRNL

/-- READ. -/
def State.cmdRead (s : State) (page off : Nat) (env : BlockEnv) : Outcome :=
  if (pageKind page).isNone ∨ off % 4 ≠ 0 ∨ 4096 ≤ off then { result := resBAD_ADDR, state := s, log := .none }
  else if s.recovery && !recoveryPage page then { result := resOFF, state := s, log := .none }
  else
    let x := s.fetchReg page off (env.reads.at_ off)
    { result := x.2.1, state := x.2.2, data := if x.2.1 = resOFF then [] else [x.1], log := .none }

/-- A die stops part-way through a block read, before the register of this index (R414, R466). -/
def State.stopsAt (s : State) (env : BlockEnv) (i : Nat) : State :=
  match env.stops with
  | some p => if p.after = i then s.overLimit p.die p.current else s
  | none => s

/-- n registers of a block read in ascending order, the first of which has index i: data and the first result that is not OK. -/
def State.readBlock (page : Nat) (env : BlockEnv) : Nat → Nat → Nat → State → List Word × Nat × State
  | 0, _, _, s => ([], resOK, s)
  | n + 1, i, off, s =>
    let x := (s.stopsAt env i).fetchReg page off (env.reads.at_ off)
    let y := State.readBlock page env n (i + 1) (off + 4) x.2.2
    (x.1 :: y.1, if x.2.1 = resOK then y.2.1 else x.2.1, y.2.2)

/-- BLOCK_READ (R411). -/
def State.cmdBlockRead (s : State) (page off count : Nat) (env : BlockEnv) : Outcome :=
  if (pageKind page).isNone ∨ off % 4 ≠ 0 ∨ 4096 ≤ off ∨ count < 1 ∨ 64 < count ∨ 0xFFC < off + 4 * (count - 1) then
    { result := resBAD_ADDR, state := s, log := .none }
  else if s.recovery && !recoveryPage page then
    { result := resOFF, state := s, data := List.replicate count 0, log := .none }
  else
    let x := State.readBlock page env count 0 off s
    { result := x.2.1, state := x.2.2, data := x.1, log := .none }

/-! ### Writes (R405-R410, R499) -/

/-- What a host's command leaves in a stick command that it or its write makes (R270). -/
def State.hostStick (s : State) (h : UHdr) (op : Nat) (target isWrite : Bool) (body : List Word) : StickCmd :=
  { op := op, target := target, isWrite := isWrite, port := h.port.idx, master := h.master.toNat, tag := h.tag,
    digest := bodyDigest body, time := s.now }

/-- A mirrored or alias write that some page ignored because it is locked counts although another page's result answers it
(R6, R258, R407). -/
def State.countLocked (s : State) (r : Nat) (l : List (Nat × Nat)) : State :=
  if r ≠ resLOCKED ∧ l.any (fun x => x.2 == resLOCKED) = true then s.countResult resLOCKED else s

/-- WRITE and AUTH_WRITE; the latter writes no alias (R408). -/
def State.cmdWrite (s : State) (h : UHdr) (page off : Nat) (v : Word) (rwl : Bool) (body : List Word) : Outcome :=
  if (targetKind page).isNone || (rwl && page / 256 == 0x20) then { result := resBAD_ADDR, state := s }
  else if s.recovery then { result := resOFF, state := s }
  else
    let x := s.writeAll (s.hostStick h 0 false true body) page off v rwl
    let r := joinResult (page / 256 = 0x20) (x.1.map (·.2))
    { result := r, state := x.2.countLocked r x.1, pages := x.1, rwl := rwl }

/-! ### Events that wait (R374) -/

/-- An event page waits to be sent on a port. -/
def waitsOn (u : Um) (e : Nat × Bool × Bool) : Bool := match u with | .um0 => !e.2.1 | .um1 => !e.2.2
def sentOn (u : Um) (e : Nat × Bool × Bool) : Nat × Bool × Bool :=
  match u with | .um0 => (e.1, true, e.2.2) | .um1 => (e.1, e.2.1, true)

/-- A page has been sent on every port that is registered; while none is, all wait. -/
def State.eventDone (s : State) (e : Nat × Bool × Bool) : Bool :=
  ums.any (fun u => s.flag (pgUM u) Reg.UM.ADDR_REG) && ums.all (fun u => !s.flag (pgUM u) Reg.UM.ADDR_REG || !waitsOn u e)

/-- Such pages leave the queue. -/
def State.dropSent (s : State) : State := { s with eventQ := s.eventQ.filter (fun e => !s.eventDone e) }

/-! ### Locks and registration -/

/-- UNLOCK; FRAMES 0 means 65 536. -/
def State.cmdUnlock (s : State) (page frames : Nat) : Outcome :=
  if (targetKind page).isNone then { result := resBAD_ADDR, state := s }
  else { result := resOK, state := s.each (s.lockPages page) (·.unlockPage · (if frames = 0 then 65536 else frames)) }

/-- LOCK. -/
def State.cmdLock (s : State) (page : Nat) : Outcome :=
  if (targetKind page).isNone then { result := resBAD_ADDR, state := s }
  else { result := resOK, state := s.each (s.lockPages page) (·.lockPage ·) }

/-- A port is registered under an address (R376). -/
def State.register (s : State) (u : Um) (addr eqd : Nat) : State :=
  let p := pgUM u
  let s := ((s.putB p Reg.UM.ADDR_REG true).put p Reg.UM.ADDR_ADDR addr).put p Reg.UM.EQD_UI eqd
  let s := (s.put p Reg.UM.PSTAT_BO (s.fld p Reg.UM.DISC_BO_MIN)).put p Reg.UM.PSTAT_DSTATE 2
  let s := s.setUm u { s.um u with skip := none, answered := none, statusDue := true }
  (s.dropSent.event p 0).leaveStep9

/-- A port loses its registration and, while its lock holds, starts discovery (R375). -/
def State.unregister (s : State) (u : Um) : State :=
  if s.flag (pgUM u) Reg.UM.ADDR_REG then
    ((((s.putB (pgUM u) Reg.UM.ADDR_REG false).put (pgUM u) Reg.UM.ADDR_ADDR 0).put (pgUM u)
      Reg.UM.PSTAT_DSTATE 0).dropSent.event (pgUM u) 1).startDiscovery u
  else s

/-! ### Requests -/

/-- A command that is accepted or refused. -/
def accepted (x : Bool × State) : Outcome := { result := if x.1 then resOK else resREFUSED, state := x.2 }

/-- FREEZE_RELEASE acts in the concentrator it names at the next boundary (R311). -/
def State.cmdFreezeRelease (s : State) (conc : Bool) : Outcome :=
  { result := resOK,
    state := { s with pendW := s.pendW ++ [{ page := pgDRAM (concOfBit conc), off := 0x098, value := 1, chan := 0 }] } }

/-- PEAL_WRITE: it joins the assembly of its port and master, or is MALFORMED (R382). -/
def State.cmdPealWrite (s : State) (h : UHdr) (index : Nat) (l : List PWrite) : Outcome :=
  match s.assembly h.port h.master with
  | some p => { result := resOK, state := s.pealWrite h.port p index l, log := .none }
  | none =>
    let (w, s) := s.firstWrite l
    { result := resMALFORMED, state := s, log := .named (w.page.toNat, w.off.toNat % 4096, digestOf w.value, 0) }

/-- PEAL_END likewise. -/
def State.cmdPealEnd (s : State) (h : UHdr) (count : Nat) (crc : BitVec 32) : Outcome :=
  match s.assembly h.port h.master with
  | some p =>
    let x := s.pealEnd h.port p count crc
    { result := x.1, state := x.2.2, log := .made x.2.1 }
  | none => { result := resMALFORMED, state := s }

/-- The outcome of an image command (R449). -/
def imgOutcome (x : Nat × State) : Outcome := { result := x.1, state := x.2 }

/-- Commands that the recovery loader executes: register access as far as R457 lets it, registration, image commands. -/
def recoveryCmd (c : Nat) : Bool :=
  c == 0x01 || c == 0x02 || c == 0x03 || c == 0x06 || c == 0x10 || c == 0x11 || decide (0x50 ≤ c)

/-- A command that has passed the checks of R379. -/
def State.runCmd (s : State) (h : UHdr) (c : UCmd) (body : List Word) (env : BlockEnv) : Outcome :=
  match c with
  | .read p o => s.cmdRead p o env
  | .write p o v => s.cmdWrite h p o v false body
  | .blockRead p o n => s.cmdBlockRead p o n env
  | .unlock p f => s.cmdUnlock p f
  | .lock p => s.cmdLock p
  | .authWrite p o v => s.cmdWrite h p o v true body
  | .register _ a e => { result := resOK, state := s.register h.port a e }
  | .deregister => { result := resOK, state := s.unregister h.port }
  | .timedTrigger co f g l pre post path => accepted (s.timedTrigger co f g l pre post path)
  | .timedGate o ot cl ct => accepted (s.timedGate o ot cl ct)
  | .resend f n => { result := resOK, state := s.requestResend f n }
  | .freezeRelease k => s.cmdFreezeRelease k
  | .stick op t => { result := resOK, state := s.queueStick (s.hostStick h op t false body), log := .none, now := false }
  | .domainSwitch t f => accepted (s.requestSwitch t f)
  | .pealBegin e n f => { result := resOK, state := s.pealBegin h.port h.master e n f, log := .none }
  | .pealWrite i l => s.cmdPealWrite h i l
  | .pealEnd n crc => s.cmdPealEnd h n crc
  | .imgBegin k hd => imgOutcome (s.imgBegin k hd h.at_)
  | .imgData o l => imgOutcome (s.imgData o l h.at_)
  | .imgEnd k => imgOutcome (s.imgEnd k)
  | .imgCancel k => imgOutcome (s.imgCancel k)
  | .imgRestart => imgOutcome (resOK, s)
  | .imgCommit k v => imgOutcome (s.imgCommit k v)
  | .imgReject k => imgOutcome (s.imgReject k)
  | .malformed _ => { result := resMALFORMED, state := s }
  | .unknown _ => { result := resUNKNOWN, state := s }

/-! ### Taking a command -/

/-- The journal entry of a command (R387, R388). -/
def cmdEntry (h : UHdr) (code result time : Nat) (l : Nat × Nat × Nat × Nat) : JEntry :=
  { seq := 0, time := time, port := h.port.idx, master := h.master.toNat, code := code, result := result, page := l.1,
    off := l.2.1, digest := l.2.2.1, aux := l.2.2.2, poison := false }

/-- The module restarts once the results queued on a port have been sent. -/
def State.restartAfter (s : State) (u : Um) : State :=
  { s with pow := { s.pow with restartOn := some (u, (s.um u).results.length) } }

/-- What an image command does once its result is queued (R449, R455): a rejected trial has failed, and the restart that follows it
waits for the result as that of IMG_RESTART does (R380; log 32). -/
def State.afterAnswer (s : State) (h : UHdr) (c : UCmd) (r : Nat) : State :=
  match c with
  | .imgRestart => s.restartAfter h.port
  | .imgReject k => if r = resOK then ({ s with fwu := { s.fwu with failed := some (k, 5) } } : State).restartAfter h.port else s
  | _ => s

/-- The fields of a command's journal entry; none where it makes none. -/
def logFields (h : UHdr) (c : UCmd) (body : List Word) : Log → Option (Nat × Nat × Nat × Nat)
  | .own => some (logOf h c body)
  | .named e => some e
  | .none => none
  | .made _ => none

/-- A command's outcome is counted, journaled and answered; only addressed commands are answered (R380). -/
def Outcome.finish (o : Outcome) (h : UHdr) (c : UCmd) (body : List Word) : State :=
  let s := o.state.countResult o.result
  let r := if o.result = resOFF then resREFUSED else o.result
  let x : Nat × State := match logFields h c body o.log with
    | some l => s.append (cmdEntry h c.code r s.now l)
    | none => (match o.log with | .made n => n | _ => 0, s)
  let s := x.2.noteWrites o.pages ((logOf h c body).2.1) c.value x.1 o.rwl
  let s := if h.dest = 0 then (if o.now then s.answer h.port h.tag c.code r x.1 o.data else s.holdAnswer h.port h.tag) else s
  s.settle.afterAnswer h c r

/-- A command that fails its form or its authentication: it is answered where it is addressed. -/
def State.turnAway (s : State) (h : UHdr) (c : UCmd) (r : Nat) : State :=
  if h.dest = 0 then s.answer h.port h.tag c.code r 0 [] else s

/-- The command is taken (R379): counted in CMD_CNT and executed, or refused for its form. -/
def State.take (s : State) (h : UHdr) (c : UCmd) (body : List Word) (form : Nat) (env : BlockEnv) : State :=
  let s := s.bump (pgUM h.port) Reg.UM.CMD_CNT 8
  let o : Outcome :=
    if form ≠ resOK then
      { result := form, state := s,
        log := if c.code = 0x01 ∨ c.code = 0x03 then .none else .named (0, 0, bodyDigest body, 0) }
    else if s.recovery && !recoveryCmd c.code then { result := resREFUSED, state := s }
    else s.runCmd h c body env
  o.finish h c body

/-- The checks of R379 in order, on a command that the module acts on. -/
def State.checkCmd (s : State) (h : UHdr) (c : UCmd) (body : List Word) (env : BlockEnv) : State :=
  let form := formResult h c body
  if !s.trusted h then s.bump (pgUM h.port) Reg.UM.UNTRUST_CNT 4
  else if privCode c.code then
    if form ≠ resOK then s.turnAway h c form
    else
      let a := s.authResult h c.code body
      if a = resOK then
        (s.put pgJRNL Reg.JRNL.AUTH_SEQ ((h.auth.map (·.seq.toNat)).getD 0)).take h c body form env
      else ((s.bump (pgUM h.port) Reg.UM.AUTH_FAIL_CNT 5).event (pgUM h.port) 2).turnAway h c a
  else s.take h c body form env

/-- Module time at a command; before frames run it stands. -/
def State.arrive (s : State) (at_ : Nat) : State := if s.running then s.advance at_ else s

/-- The module runs and the port's commands are acted on (R232, R370). -/
def State.hears (s : State) (u : Um) : Bool := s.pow.mode == .on && s.portLocked u

/-- A command arrives on a port. One whose DEST is reserved counts in CRC_CNT (R377). -/
def State.takeCmd (s : State) (h : UHdr) (c : UCmd) (body : List Word) (env : BlockEnv) : State :=
  if !s.hears h.port then s
  else if 3 ≤ h.dest.toNat then s.bump (pgUM h.port) Reg.UM.CRC_CNT 2
  else if s.forMe h body then (s.arrive h.at_).checkCmd h c body env
  else s

/-- A command given by its fields. -/
def State.command (s : State) (h : UHdr) (c : UCmd) (env : BlockEnv := {}) : State := s.takeCmd h c c.words env

end Sys2Proof.Machine
end

