-- ==== Sys2Proof/Machine/Umauf.lean ====
section
/-!
DEFINITION. Umauf frames and bursts (R368-R375): markers, grants and the command area of downstream frames; upstream blocks;
discovery; and the rows of time that end registrations, unlock windows and peal assemblies.
-/

namespace Sys2Proof.Machine

/-! ### Downstream frames (R369-R371) -/

/-- The marker of a payload, bytes 0-15. -/
def payloadMarker (l : List Byte) : Marker :=
  let n := ofBytes (l.take 16)
  { treeId := BitVec.ofNat 16 (n / 2 ^ 112), partId := BitVec.ofNat 8 (n / 2 ^ 104), frame := BitVec.ofNat 4 (n / 2 ^ 100),
    timeValid := n.testBit 99, time := BitVec.ofNat 48 (n / 2 ^ 48), master := BitVec.ofNat 8 (n / 2 ^ 40),
    crcOk := (crc16 (l.take 14)).toNat == n % 65536, gained := 0 }

/-- A grant that passed its CRC: START and BLOCKS must fit the upstream frame; it is kept where it is the port's own
(R371, R372, R375, R376). -/
def State.takeGrant (s : State) (u : Um) (addr kind start blocks : Nat) : State :=
  let reg := s.flag (pgUM u) Reg.UM.ADDR_REG
  if kind = 0 ∨ kind = 3 then s
  else if 2048 < start * 32 + 256 + 288 * blocks then s.bump (pgUM u) Reg.UM.GRANT_BAD_CNT 7
  else if blocks = 0 ∨ blocks = 7 then s
  else if kind = 1 then
    (if reg && s.stored (pgUM u) Reg.UM.ADDR_ADDR == addr then
      s.setUm u { s.um u with granted := (s.um u).granted ++ [(false, start, blocks)] } else s)
  else if reg then s
  else match (s.um u).skip with
    | some 0 => s.setUm u { s.um u with skip := none, granted := (s.um u).granted ++ [(true, start, 1)] }
    | some (k + 1) => s.setUm u { s.um u with skip := some k }
    | none => s

/-- A grant entry of 8 bytes. -/
def State.grantEntry (s : State) (u : Um) (l : List Byte) : State :=
  let n := ofBytes (l.take 8)
  if (crc16 (l.take 6)).toNat ≠ n % 65536 then s.bump (pgUM u) Reg.UM.CRC_CNT 2
  else s.takeGrant u (bitsOf 63 52 n) (bitsOf 51 50 n) (bitsOf 49 44 n) (bitsOf 43 41 n)

/-- The header of a command (R377); the authentication words of a privileged one end its body. -/
def cmdHeader (u : Um) (n : Nat) (body : List Word) (at_ : Nat) : UHdr × UCmd × List Word :=
  let code := bitsOf 47 40 n
  let len := bitsOf 31 24 n
  let priv := privCode code && decide (3 ≤ len)
  let b := if priv then body.take (len - 3) else body
  let auth : Option Auth := if priv then
      some { seq := body.getD (len - 3) 0, tag := body.getD (len - 2) 0 ++ body.getD (len - 1) 0 } else none
  ({ port := u, dest := BitVec.ofNat 4 (n / 2 ^ 60), addr := BitVec.ofNat 12 (n / 2 ^ 48), tag := BitVec.ofNat 8 (n / 2 ^ 32),
     len := len, master := BitVec.ofNat 8 (n / 2 ^ 16), reserved := BitVec.ofNat 16 n, auth := auth, at_ := at_ }, parseCmd code b, b)

/-- The command area (R377): commands back to back until a CODE of 0 or the end. One that would straddle the end counts as
failing its CRC. `reads`: what the decoders deliver to each reading command in turn, by offset. -/
def State.commandArea (u : Um) (at_ : Nat) : Nat → List Byte → List Reads → State → State
  | 0, _, _, s => s
  | fuel + 1, l, reads, s =>
    let n := ofBytes (l.take 8)
    let size := 8 + 4 * bitsOf 31 24 n
    if l.length < 8 ∨ bitsOf 47 40 n = 0 then s
    else if l.length < size + 4 then s.bump (pgUM u) Reg.UM.CRC_CNT 2
    else if (crc16 (l.take size)).toNat ≠ ofBytes ((l.drop size).take 2) then
      State.commandArea u at_ fuel (l.drop (size + 4)) reads (s.bump (pgUM u) Reg.UM.CRC_CNT 2)
    else
      let x := cmdHeader u n (bytesWords (bitsOf 31 24 n) ((l.take size).drop 8)) at_
      let reading := x.2.1.code == 0x01 || x.2.1.code == 0x03
      State.commandArea u at_ fuel (l.drop (size + 4)) (if reading then reads.tail else reads)
        (s.takeCmd x.1 x.2.1 x.2.2 { reads := if reading then reads.headD [] else [] })

/-- The sync word of a downstream frame (R368). -/
def syncWord : BitVec 32 := 0x7A3C95E1

/-- A frame's payload from its two codewords as received, with the number of bytes corrected; none where a codeword is
uncorrectable (R368). -/
def framePayload (word0 word1 : List Byte) : Option (List Byte × Nat) :=
  let plain := List.zipWith (· ^^^ ·) (word0 ++ word1) (scramble15 508)
  match decode254 (plain.take 254), decode254 (plain.drop 254) with
  | some x, some y => some (x.1 ++ y.1, x.2 + y.2)
  | _, _ => none

/-- A decoded frame, with its corrected bytes (R370). -/
def State.takeFrame (s : State) (u : Um) (payload : List Byte) (corrected at_ : Nat) (reads : List Reads) : State :=
  let p := pgUM u
  let m := payloadMarker payload
  let s := (s.bump p Reg.UM.FEC_CE_CNT 0 corrected).adopt u m
  if !m.crcOk then s.bump p Reg.UM.CRC_CNT 2
  else if !s.ownMarker u m then (s.bump p Reg.UM.FOREIGN_CNT 3).event p 3
  else if !s.portLocked u then s
  else
    let s := s.each (List.range 6) (fun s i => s.grantEntry u ((payload.drop (16 + 8 * i)).take 8))
    State.commandArea u at_ 52 ((payload.drop 64).take 412) reads s

/-- DOWNSTREAM_FRAME: a frame's 512 bytes as received (R368); where no sync word stands, no frame is received (DESIGN CHOICE,
log 72). -/
def State.downstreamFrame (s : State) (u : Um) (sync : BitVec 32) (word0 word1 : List Byte) (at_ : Nat) (reads : List Reads) :
    State :=
  if s.pow.mode ≠ .on ∨ sync ≠ syncWord then s
  else match framePayload word0 word1 with
    | some x => s.takeFrame u x.1 x.2 at_ reads
    | none => s.bump (pgUM u) Reg.UM.FEC_UE_CNT 1

/-! ### Upstream blocks (R372, R373) -/

/-- A block: ADDR, MSG, TAG, FRAG, LAST and seven words, with its check bytes. -/
def block (addr msg tag frag : Nat) (last : Bool) (words : List Word) : List Byte :=
  let d := toBytes 4 (packFields [(12, addr), (4, msg), (8, tag), (4, frag), (1, last.toNat), (3, 0)]) ++
    wordsBytes ((words ++ List.replicate 7 0).take 7)
  d ++ rsCheck d

/-- The port's address, as its blocks carry it. -/
def State.ownAddr (s : State) (u : Um) : Nat := s.stored (pgUM u) Reg.UM.ADDR_ADDR

/-- A status block. -/
def State.statusBlock (s : State) (u : Um) : List Byte :=
  block (s.ownAddr u) 0 0 0 true [BitVec.ofNat 32 (((s.um u).results.filter (fun f => !f.held)).length % 65536),
    BitVec.ofNat 32 ((s.eventQ.filter (waitsOn u)).length % 65536)]

/-- An event block: EVT_PENDING and the time at sending. -/
def State.eventBlock (s : State) (u : Um) (page : Nat) : List Byte :=
  let c := coarseOf s.now
  block (s.ownAddr u) 2 0 0 true [BitVec.ofNat 32 (page * 65536), s.rd page Reg.HDR.EVT_PENDING.off,
    BitVec.ofNat 32 (c / 65536), BitVec.ofNat 32 (c % 65536 * 65536 + epochOf s.now)]

/-- An event page is sent on a port. -/
def State.sendEvent (s : State) (u : Um) (e : Nat × Bool × Bool) : List Byte × State :=
  let q := s.eventQ.map (fun x => if x.1 = e.1 then sentOn u x else x)
  (s.eventBlock u e.1, ({ s.setUm u { s.um u with sinceEvent := 0 } with eventQ := q } : State).dropSent)

/-- A result fragment is sent; a restart counts those it waits for (R449). -/
def State.sendResult (s : State) (u : Um) (f : Frag) (events : Bool) : List Byte × State :=
  let m := s.um u
  let s := s.setUm u { m with results := m.results.tail, sinceEvent := if events then m.sinceEvent + 1 else 0 }
  let p := match s.pow.restartOn with
    | some (v, n) => if v = u then some (v, n - 1) else some (v, n)
    | none => none
  (block (s.ownAddr u) 1 f.tag.toNat f.frag f.last f.words, { s with pow := { s.pow with restartOn := p } })

/-- One granted block (R374, R376). A result not known yet holds back those behind it. -/
def State.sendBlock (s : State) (u : Um) : List Byte × State :=
  let m := s.um u
  let ev := s.eventQ.find? (waitsOn u)
  if m.statusDue then (s.statusBlock u, s.setUm u { m with statusDue := false })
  else match m.results.head?.filter (fun f => !f.held), ev with
    | some f, some e => if 4 ≤ m.sinceEvent then s.sendEvent u e else s.sendResult u f true
    | some f, none => s.sendResult u f false
    | none, some e => s.sendEvent u e
    | none, none => (s.statusBlock u, s)

/-- n blocks in turn. -/
def State.sendBlocks (u : Um) : Nat → State → List (List Byte) × State
  | 0, s => ([], s)
  | n + 1, s =>
    let x := s.sendBlock u
    let y := State.sendBlocks u n x.2
    (x.1 :: y.1, y.2)

/-- The module restarts once the result of IMG_RESTART, or of the IMG_REJECT of a trial, has been sent (R449, R455). -/
def State.restartIfSent (s : State) : State :=
  match s.pow.restartOn with
  | some (_, 0) => s.restart (if s.fwu.failed.isSome then 3 else 2)
  | _ => s

/-- The belfry lets the ports send: from step 9 on, and in the recovery loader (R470). -/
def State.maySend (s : State) : Bool := decide (9 ≤ s.step470) || s.recovery

/-- UPSTREAM_BURST: the registered port's next granted slot (R372, R374); before step 9 the port is silent. -/
def State.upstreamBurst (s : State) (u : Um) : State :=
  match (s.um u).granted with
  | (false, start, n) :: r =>
    let s := s.setUm u { s.um u with granted := r }
    if s.flag (pgUM u) Reg.UM.ADDR_REG && s.maySend then
      let x := State.sendBlocks u n s
      (x.2.setUm u { x.2.um u with burst := x.1,
                                   burstFrom := start * 32 + s.stored (pgUM u) Reg.UM.EQD_UI }).restartIfSent
    else s
  | _ => s

/-! ### Discovery (R375) -/

/-- DISCOVERY_ANSWER: the chosen discovery grant is answered, with EQD 0. -/
def State.discoveryAnswer (s : State) (u : Um) : State :=
  match (s.um u).granted with
  | (true, start, _) :: r =>
    let s := s.setUm u { s.um u with granted := r }
    if s.flag (pgUM u) Reg.UM.ADDR_REG || !s.maySend then s
    else
      let w2 := s.stored pgMOD Reg.MOD.HW_TYPE_TYPE * 65536 + s.stored (pgUM u) Reg.UM.PSTAT_BO
      let b := block 0xFFF 3 0 0 true [s.rd pgMOD Reg.MOD.SERIAL_HI.off, s.rd pgMOD Reg.MOD.SERIAL_LO.off, BitVec.ofNat 32 w2]
      s.setUm u { s.um u with skip := none, answered := some s.now, burst := [b], burstFrom := start * 32 }
  | _ => s

/-- DISCOVERY_RETRY: no REGISTER within 4 superframes of the answer. -/
def State.discoveryRetry (s : State) (u : Um) : State :=
  if (s.um u).answered.isSome && !s.flag (pgUM u) Reg.UM.ADDR_REG then
    let b := s.stored (pgUM u) Reg.UM.PSTAT_BO
    (s.bump (pgUM u) Reg.UM.DISC_TRY_CNT 6).drawDiscovery u (min (b + 1) (s.fld (pgUM u) Reg.UM.DISC_BO_MAX))
  else s

/-- REGISTRATION_LOSS: the lock has been lost for 1 s. -/
def State.registrationLoss (s : State) (u : Um) : State :=
  if !s.portLocked u && (s.um u).lostFrom.isSome then s.unregister u else s

/-! ### Ends of windows -/

/-- UNLOCK_EXPIRY: the page's unlock window ends at its boundary (R407). -/
def State.unlockExpiry (s : State) (page : Nat) : State :=
  { s with unlocks := s.unlocks.filter (fun u => !(u.1 == page && decide (u.2 ≤ s.frame))) }

/-- PEAL_ASSEMBLY_TIMEOUT: 16 Umauf frames without PEAL_END (R382). -/
def State.assemblyTimeout (s : State) (u : Um) : State := s.dropAssembly u

end Sys2Proof.Machine
end

