-- ==== Sys2Proof/Machine/ExecFront.lean ====
section
/-!
DEFINITION. The meanings of the rows of edges, conversions, gates, injections, tiles and ports: one definition per row.
-/

namespace Sys2Proof.Machine

/-- What happens to the module while the rails of the belfry are up; without power nothing does. -/
def whilePowered (s : State) (t : State) : Host.Outcome State Fault Refusal := .next (if s.powered then t else s)

/-- What a concentrator does in LISTEN or RUN while it forms sheaves (R16, R402); in KEEP merge is stopped. -/
def whileMerging (c : Conc) (s : State) (t : State) : Host.Outcome State Fault Refusal :=
  .next (if s.powered && (s.conc c).merging && decide (2 ≤ s.pwr (pgMERGE c)) then t else s)

/-- What happens in a concentrator that is out of reset. -/
def whileAwake (c : Conc) (s : State) (t : State) : Host.Outcome State Fault Refusal :=
  .next (if s.powered && (s.conc c).run != .reset then t else s)

/-- What the controller of a stack does while the stack is out of self-refresh (R468). -/
def whileDram (c : Conc) (s : State) (t : State) : Host.Outcome State Fault Refusal :=
  .next (if s.powered && (s.conc c).run != .reset && s.stackAwake c then t else s)

/-- What happens behind an integrity page whose die is out of reset. -/
def whilePage (p : IntPage) (s : State) (t : State) : Host.Outcome State Fault Refusal :=
  match p with
  | .dintg c => whileAwake c s t
  | .intg => whilePowered s t

/-- FRAME_BOUNDARY (R54): Every 4096 T_ref a frame boundary falls; each tile compares its coarse count with the frame sync,
and settings that take effect at the boundary are applied. -/
def execFrameBoundary (slips : List (Fin 16 × BitVec 48)) (drift : BoundaryEnv) (s : State) : Host.Outcome State Fault Refusal :=
  whilePowered s (s.frameBoundary slips drift)

/-- LEADING_EDGE (R35): A discriminator rise is recorded as a hit when the channel is armed and its tap-time lies inside the
gate, starting hold-off and a TAC charge. -/
def execLeadingEdge (chan : BitVec 16) (t : Crossing) (s : State) : Host.Outcome State Fault Refusal :=
  whilePowered s (s.leadingEdge chan.toNat t.tap t.signal)

/-- TRAILING_EDGE (R31): The first discriminator fall after a recorded leading edge is latched as the trailing edge, and a
channel high since gate-open or blanking rearms. -/
def execTrailingEdge (chan : BitVec 16) (t : Crossing) (took : Nat) (s : State) : Host.Outcome State Fault Refusal :=
  whilePowered s (s.trailingEdge chan.toNat t.tap t.signal took)

/-- HOLDOFF_EXPIRY (R32): When hold-off expires and the trailing edge and conversion are complete, the hit passes to read-
out. -/
def execHoldoffExpiry (chan : BitVec 16) (t took : Nat) (s : State) : Host.Outcome State Fault Refusal :=
  whilePowered s (s.holdoffExpiry chan.toNat t took)

/-- TOT_SATURATION (R72): With no trailing edge by tap L + 4096 the hit gets ToT 1023 and the saturated flag and passes to
read-out. -/
def execTotSaturation (chan : BitVec 16) (t took : Nat) (s : State) : Host.Outcome State Fault Refusal :=
  whilePowered s (s.totSaturation chan.toNat t took)

/-- ADC_CONVERSION_DONE (R62): The cell ADC completes a capacitor's conversion, freeing it and letting its hit pass once R32
holds. -/
def execAdcConversionDone (chan : BitVec 16) (code : Byte) (took : Nat) (read : EccRead) (s : State) : Host.Outcome
    State Fault Refusal :=
  whilePowered s (s.adcDone chan.toNat code took read)

/-- GATE_APPLY (R34): The tile opens or closes its gate at a stamped pin edge plus GATE_DELAY, or at a timed window edge. -/
def execGateApply (tile : Fin 16) (s : State) : Host.Outcome State Fault Refusal :=
  whilePowered s (s.gateApplyCmd tile)

/-- STUCK_TIMER_EXPIRY (R39): A channel high beyond its stuck limit self-masks and sets the block's STUCK event. -/
def execStuckTimerExpiry (chan : BitVec 16) (t : Nat) (s : State) : Host.Outcome State Fault Refusal :=
  whilePowered s (s.stuckExpiry chan.toNat t)

/-- SMASK_CLEAR (R40): Writing 1 to CH_STAT.SMASK clears a self-mask; the channel rearms from the next boundary. -/
def execSmaskClear (h : UHdr) (chan : BitVec 16) (s : State) : Host.Outcome State Fault Refusal :=
  whilePowered s (s.command h (.write (chPage chan.toNat) (0xC00 + 4 * (chan.toNat % 256)) (0x80000000)))

/-- BLANKING_END (R47): Blanking ends 2048 T_ref after its boundary, and a channel whose output is low is armed again. -/
def execBlankingEnd (chan : BitVec 16) (t : Nat) (s : State) : Host.Outcome State Fault Refusal :=
  whilePowered s (s.blankingEnd chan.toNat t)

/-- INJECTION_LAUNCH (R208): At the scheduled or manual slot an injection is launched into each selected channel unless R43
prevents it, which is counted as a skip. -/
def execInjectionLaunch (tile block : Fin 16) (s : State) : Host.Outcome State Fault Refusal :=
  whilePowered s (s.injectionLaunch tile block)

/-- INJ_BLIND_EXPIRY (R44): The 32 T_ref blind interval after a launch ends; the first edge in it was the calibration hit,
or no record is produced. -/
def execInjBlindExpiry (chan : BitVec 16) (t : Nat) (s : State) : Host.Outcome State Fault Refusal :=
  whilePowered s (s.blindExpiry chan.toNat t)

/-- INJ_FIRE (R45): A write of 1 to INJ_CTRL.FIRE with MODE 1 makes a manual launch pending and sets BUSY. -/
def execInjFire (h : UHdr) (tile block : Fin 16) (value : Word) (s : State) : Host.Outcome State Fault Refusal :=
  whilePowered s (s.command h (.write (pgBLOCK tile block) 0x050 (value ||| 0x10000)))

/-- IDLE_EXPIRY (R17): A tiller with no pending work for its idle interval returns from RUN to LISTEN. -/
def execIdleExpiry (page : BitVec 16) (s : State) : Host.Outcome State Fault Refusal :=
  whilePowered s (s.idleExpiry page.toNat)

/-- CEIL_WRITE (R402): A write to PWR_STATE.CEIL of a primary page sets a tiller's ceiling; descendants are lowered at most
to it. -/
def execCeilWrite (h : UHdr) (page : BitVec 16) (value : Word) (s : State) : Host.Outcome State Fault Refusal :=
  whilePowered s (s.command h (.write (page.toNat) 0x010 (value)))

/-- TILE_POWER_REMOVAL (R19): A tile falling to OFF loses power once each port has delivered its LEAVE token or been cut. -/
def execTilePowerRemoval (tile : Fin 16) (s : State) : Host.Outcome State Fault Refusal :=
  whilePowered s ((s.tilePowerRemoval tile).showPg)

/-- TILE_POWER_UP (R471): A tile returning from OFF soft-starts, self-tests, fills, enters KEEP, is loaded and has its
ceiling raised. -/
def execTilePowerUp (tile : Fin 16) (start : TileStart) (s : State) : Host.Outcome State Fault Refusal :=
  whilePowered s (s.tilePowerUp tile start)

/-- TILE_RESUME (R41): A returning tile arms its channels after settling and DLL lock and resumes at the next boundary with
a resume token. -/
def execTileResume (tile : Fin 16) (s : State) : Host.Outcome State Fault Refusal :=
  whilePowered s (s.tileResume tile)

/-- DLL_LOCK (R57): LOCKED rises when the phase error has stayed within the lock window for 4096 T_ref. -/
def execDllLock (tile : TileLine) (s : State) : Host.Outcome State Fault Refusal :=
  whilePowered s (s.dllLock tile.tile tile.report)

/-- DLL_UNLOCK (R59): LOCKED falls after 4 T_ref outside the window; the tile stops recording, discards unpassed hits,
closes its frame and goes absent. -/
def execDllUnlock (tile : TileLine) (s : State) : Host.Outcome State Fault Refusal :=
  whilePowered s (s.dllUnlock tile.tile tile.report)

/-- DLL_RELOCK (R56): A write to DLL_CTRL.RELOCK restarts acquisition from the shortest delay. -/
def execDllRelock (h : UHdr) (tile : Fin 16) (value : Word) (s : State) : Host.Outcome State Fault Refusal :=
  whilePowered s (s.command h (.write (pgTDC tile) 0x040 (value ||| 0x100)))

/-- PROMOTION_DECISION (R90): At L + W + 160 T_ref a candidate shadow hit is promoted if a stream hit of its cell lies
within W. -/
def execPromotionDecision (chan : BitVec 16) (t took : Nat) (s : State) : Host.Outcome State Fault Refusal :=
  whilePowered s (s.promotionDecision chan.toNat t took)

/-- EMIT_FRAME_CLOSED (R93): Once every hit of frame n is decided and its chaff counts are final, the tile emits the frame-
closed token on both ports. -/
def execEmitFrameClosed (tile : Fin 16) (s : State) : Host.Outcome State Fault Refusal :=
  whilePowered s (s.emitClosed tile)

/-- PORT_CUT (R101): After LAG_LIM frames without acknowledgement on a port holding data, the port is cut and its queue
discarded. -/
def execPortCut (tile : Fin 16) (port : Conc) (s : State) : Host.Outcome State Fault Refusal :=
  whilePowered s (s.portCut tile port)

/-- LATE_WORD_ACK (R103): The word in transfer at a cut is finally acknowledged, and the port resumes at the next boundary.
-/
def execLateWordAck (tile : Fin 16) (port : Conc) (s : State) : Host.Outcome State Fault Refusal :=
  whilePowered s (s.lateWordAck tile port)

end Sys2Proof.Machine
end

