-- ==== Sys2Proof/Machine/ExecMerge.lean ====
section
/-!
DEFINITION. The meanings of the rows of correction, sheaves, triggers, gates and gleaning, live calibration: one definition per row.
-/

namespace Sys2Proof.Machine

/-- CORRECT_RECORD (R112): A concentrator receives a tile record, corrects it from the channel's entry, and routes it to
merge, shadow ring, capture or late chaff. -/
def execCorrectRecord (conc : Conc) (tile : Fin 16) (read : Reads) (port : EccRead) (queued : Bool) (s : State) : Host.Outcome
    State Fault Refusal :=
  whileMerging conc s (s.correctRecordCmd conc tile read port queued)

/-- FRAME_CLOSED_TOKEN (R118): A concentrator receives a tile's frame-closed token, which may complete a frame or end the
tile's behind state. -/
def execFrameClosedToken (conc : TokenPort) (tile : Fin 16) (s : State) : Host.Outcome State Fault Refusal :=
  whileMerging conc.conc s (s.closedTokenCmd conc.conc tile conc.words)

/-- RESUME_TOKEN (R122): A concentrator receives a resume token and makes the tile present from its sheaf, with a resume
record and DISCARDED counted late. -/
def execResumeToken (conc : TokenPort) (tile : Fin 16) (s : State) : Host.Outcome State Fault Refusal :=
  whileMerging conc.conc s (s.resumeTokenCmd conc.conc tile conc.words)

/-- SIDE_ITEM (R203): A concentrator receives a side item and adds it to the histograms when the tile is in turn and the
conditions hold. -/
def execSideItem (conc : Conc) (tile : Fin 16) (read port : EccRead) (s : State) : Host.Outcome State Fault Refusal :=
  whileMerging conc s (s.sideItemCmd conc tile read port)

/-- HORIZON_EXPIRY (R119): At the boundary ending frame n + HORIZON, a tile that has not closed frame n turns behind and its
presence bit is clear. -/
def execHorizonExpiry (conc : Conc) (tile : Fin 16) (s : State) : Host.Outcome State Fault Refusal :=
  whileMerging conc s (s.horizonExpiry conc tile)

/-- SHEAF_FORM (R118): When all present tiles have closed frame n or reached the horizon, and the trigger delivery is in,
sheaf n is formed, written to replay and digested. -/
def execSheafForm (conc : Conc) (s : State) : Host.Outcome State Fault Refusal :=
  whileMerging conc s (((s.formNext conc).compareAll conc).checkSwap)

/-- EXTENT_TIMEOUT (R291): A shadow extent is written 64 frames after its first record if not yet full, and the tile's next
extent is allocated. -/
def execExtentTimeout (conc : Conc) (tile : TileReads) (s : State) : Host.Outcome State Fault Refusal :=
  whileMerging conc s (s.extentTimeout conc tile.tile tile.reads)

/-- GOV_RAISE_STEP (R133): Every 1 µs while a queue is over half full the governor raises the core rail one step, or to the
ceiling when over seven-eighths. -/
def execGovRaiseStep (conc : Conc) (fill : Nat) (s : State) : Host.Outcome State Fault Refusal :=
  whileMerging conc s (s.govRaise conc fill)

/-- GOV_LOWER_STEP (R133): After DOWN_MS with all queues below one-eighth, the governor lowers the rail one step. -/
def execGovLowerStep (conc : Conc) (fill : Nat) (s : State) : Host.Outcome State Fault Refusal :=
  whileMerging conc s (s.govLower conc fill)

/-- CORR_STAGE_WRITE (R116): A write to the CORR window stages the whole entry, or is refused when staging is full. -/
def execCorrStageWrite (h : UHdr) (conc : Conc) (off : BitVec 16) (value : Word) (s : State) : Host.Outcome State
    Fault Refusal :=
  whilePowered s (s.command h (.write (pgCORR conc) off.toNat (value)))

/-- STAGE_CLR (R137): A write to CORR.STAGE_CLR empties the staging store and clears FULL. -/
def execStageClr (h : UHdr) (conc : Conc) (s : State) : Host.Outcome State Fault Refusal :=
  whilePowered s (s.command h (.write (pgCORR conc) 0x048 (1)))

/-- SHADOW_DISCARD (R406): A write of 1 to SHADOW_CTRL.DISCARD drops the page's staged RWS values unless committed. -/
def execShadowDiscard (h : UHdr) (page : BitVec 16) (s : State) : Host.Outcome State Fault Refusal :=
  whilePowered s (s.command h (.write (page.toNat) 0x028 (1)))

/-- DEAL_GRAIN (R165): The grain scheduler deals the next grain by class priority and age limits to the next enabled lane.
-/
def execDealGrain (conc : Conc) (reads : GrainReads) (at_ : Nat) (s : State) : Host.Outcome State Fault Refusal :=
  whileMerging conc s (s.dealGrain conc reads at_)

/-- TRIG_PIN_EDGE (R173): An enabled trigger pin edge of the selected polarity is stamped, or ignored and counted when too
close to the previous one. -/
def execTrigPinEdge (pin : Pin) (rising : Bool) (stamp : Nat) (s : State) : Host.Outcome State Fault Refusal :=
  whilePowered s (s.trigPinEdge pin rising stamp)

/-- TIMED_TRIGGER (R175): Umauf command 0x20 requests a trigger at a given time, checked and held pending or refused. -/
def execTimedTrigger (h : UHdr) (coarse : BitVec 48) (fine : BitVec 12) (glean : Bool) (level : BitVec 3) (pre post :
    BitVec 20) (path : BitVec 16) (s : State) : Host.Outcome State Fault Refusal :=
  whilePowered s (s.command h (.timedTrigger coarse.toNat fine.toNat glean level.toNat pre.toNat post.toNat path.toNat))

/-- TRIGGER_DELIVERY (R176): After each boundary plus the stamping delay, the belfry numbers the frame's triggers and
delivers them and gate marks to both concentrators. -/
def execTriggerDelivery (s : State) : Host.Outcome State Fault Refusal :=
  whilePowered s s.deliver

/-- GATE_PIN_CHANGE (R179): A gate pin level change starts the MIN_T filter; a pulse shorter than MIN_T is counted as a
glitch. -/
def execGatePinChange (pin : Pin) (high : Bool) (stamp : Nat) (s : State) : Host.Outcome State Fault Refusal :=
  whilePowered s (s.gatePinChange pin high stamp)

/-- GATE_EDGE_ACCEPT (R179): A level held for MIN_T is accepted, stamped at its first crossing and delivered to every tile.
-/
def execGateEdgeAccept (pin : Pin) (at_ : Nat) (s : State) : Host.Outcome State Fault Refusal :=
  whilePowered s (s.gateEdgeAccept pin at_)

/-- TIMED_GATE (R181): Umauf command 0x21 queues a gate window, checked for lead time, length, order and queue space. -/
def execTimedGate (h : UHdr) (open_ : BitVec 48) (openTap : BitVec 6) (close : BitVec 48) (closeTap : BitVec 6) (s :
    State) : Host.Outcome State Fault Refusal :=
  whilePowered s (s.command h (.timedGate open_.toNat openTap.toNat close.toNat closeTap.toNat))

/-- GLEAN_SHEAF_FORM (R191): The glean engine reads one overlapped frame's shadow data for the region and forms one glean
sheaf. -/
def execGleanSheafForm (conc : Conc) (reads : GleanReads) (at_ : Nat) (s : State) : Host.Outcome State Fault Refusal :=
  whileMerging conc s (s.gleanForm conc reads at_)

/-- RESEND_GO (R193): A write of RESEND_CTRL with GO issues a re-send request delivered to both concentrators at the next
boundary. -/
def execResendGo (h : UHdr) (value : Word) (s : State) : Host.Outcome State Fault Refusal :=
  whilePowered s (s.command h (.write (pgTRIG) 0x07C (value ||| 0x10000)))

/-- RESEND (R193): Umauf command 0x22 requests a re-send range. -/
def execResend (h : UHdr) (first : BitVec 32) (count : BitVec 16) (s : State) : Host.Outcome State Fault Refusal :=
  whilePowered s (s.command h (.resend first.toNat count.toNat))

/-- RESEND_SHEAF (R194): The concentrator re-sends the next sheaf of a request if held, or skips and counts it. -/
def execResendSheaf (conc : Conc) (reads : Reads) (at_ : Nat) (s : State) : Host.Outcome State Fault Refusal :=
  whileMerging conc s (s.resendSheaf conc reads at_)

/-- LO_WORD_READ (R186): A read of the _LO word of a 64-bit pair latches the _HI word for the next read. -/
def execLoWordRead (h : UHdr) (page off : BitVec 16) (s : State) : Host.Outcome State Fault Refusal :=
  whilePowered s (s.command h (.read page.toNat off.toNat))

/-- TURN_ACCUM_END (R204): At the boundary at which every channel has CD_HITS items or the timeout has passed, the engine
fits tap positions, TAC maps and offsets. -/
def execTurnAccumEnd (s : State) : Host.Outcome State Fault Refusal :=
  whilePowered s s.turnAccumEnd

/-- ENGINE_STAGE (R214): When the staging conditions hold, the engine stages changed entries and tables and requests a swap
or sets READY. -/
def execEngineStage (s : State) : Host.Outcome State Fault Refusal :=
  whilePowered s s.engineStage

/-- SWAP_GO (R215): A write of 1 to SWAP_CTRL.GO requests a swap of the named tile, or is refused. -/
def execSwapGo (h : UHdr) (value : Word) (s : State) : Host.Outcome State Fault Refusal :=
  whilePowered s (s.command h (.write (pgCALS) 0x068 (value ||| 0x80000000)))

/-- SWAP_COMMIT (R215): At the start of frame S − 2 the belfry commits a pending swap if its checks pass, or withdraws it.
-/
def execSwapCommit (s : State) : Host.Outcome State Fault Refusal :=
  whilePowered s s.commitSwap

/-- SWAP_BOUNDARY (R217): At boundary S the swap installs staged tables in the tile and both concentrators, toggles parity
and advances the peal epoch. -/
def execSwapBoundary (s : State) : Host.Outcome State Fault Refusal :=
  whilePowered s s.swapBoundary

/-- RESTORING_SWAP_REQUEST (R328): After a poisoned correction entry the management core restores it from MRAM and requests
a swap once no peal or swap is pending. -/
def execRestoringSwapRequest (conc : Conc) (chan : BitVec 16) (s : State) : Host.Outcome State Fault Refusal :=
  whilePowered s (s.restoreEntry conc chan.toNat)

end Sys2Proof.Machine
end

