-- ==== Sys2Proof/Machine/ExecTime.lean ====
section
/-!
DEFINITION. The meanings of the rows of network time, the concentrator pair and the stick: one definition per row.
-/

namespace Sys2Proof.Machine

/-- EPOCH_INIT_WRITE (R231): A write to EPOCH_INIT sets the starting epoch before the first frame, or is ignored and flagged
afterwards. -/
def execEpochInitWrite (h : UHdr) (value : Word) (s : State) : Host.Outcome State Fault Refusal :=
  whilePowered s (s.command h (.write (pgTIME) 0x048 (value)))

/-- SUPERFRAME_MARKER (R240): A valid superframe marker updates port lock counting and the domain's MARK_ERR. -/
def execSuperframeMarker (port : Um) (marker : Marker) (at_ : Nat) (sub : BitVec 16) (s : State) : Host.Outcome State
    Fault Refusal :=
  whilePowered s (s.superframeMarker port marker at_ sub.toNat)

/-- ACQ_TIMEOUT (R239): With no acquisition after ACQ_TIMEOUT, frames start on the crystal in holdover with TQ 0x3. -/
def execAcqTimeout (s : State) : Host.Outcome State Fault Refusal :=
  whilePowered s s.acqTimeout

/-- CDR_UNLOCK (R232): A port's clock recovery unlocks; the port loses lock and its domain may enter holdover or schedule an
automatic switch. -/
def execCdrUnlock (port : Um) (s : State) : Host.Outcome State Fault Refusal :=
  whilePowered s (s.cdrUnlock port)

/-- MARKER_MISSING (R232): Two consecutive bad or missing superframe markers make the port lose lock. -/
def execMarkerMissing (port : Um) (s : State) : Host.Outcome State Fault Refusal :=
  whilePowered s (s.markerMissing port)

/-- DOMAIN_SWITCH (R242): Umauf command 0x31 requests a switch to a target domain at sheaf S, checked for lock, lead and
range. -/
def execDomainSwitch (h : UHdr) (target : Bool) (sheaf : BitVec 32) (s : State) : Host.Outcome State Fault Refusal :=
  whilePowered s (s.command h (.domainSwitch target sheaf.toNat))

/-- SW_CTRL_GO (R242): A write of SW_CTRL with GO while unlocked requests a domain switch at SW_AT. -/
def execSwCtrlGo (h : UHdr) (value : Word) (s : State) : Host.Outcome State Fault Refusal :=
  whilePowered s (s.command h (.write (pgTIME) 0x050 (value ||| 0x80000000)))

/-- DOMAIN_SWITCH_BOUNDARY (R245): At the switch boundary the belfry measures OFFSET, updates SPLICE, makes the target
active and emits a domain-switch record. -/
def execDomainSwitchBoundary (s : State) : Host.Outcome State Fault Refusal :=
  whilePowered s s.domainSwitchBoundary

/-- SLEW_START (R237): A nonzero write to SLEW_CNT starts a slew of the domain at the next boundary. -/
def execSlewStart (h : UHdr) (domain : Um) (count : Word) (s : State) : Host.Outcome State Fault Refusal :=
  whilePowered s (s.command h (.write (pgTIMED domain) 0x050 (count)))

/-- SLEW_DONE (R237): A slew's period count runs out and the domain returns to its standing increment. -/
def execSlewDone (domain : Um) (s : State) : Host.Outcome State Fault Refusal :=
  whilePowered s (s.slewDone domain)

/-- SPLICE_SLEW_START (R246): A nonzero write to SPL_COUNT starts a splice slew at the next boundary. -/
def execSpliceSlewStart (h : UHdr) (count : Word) (s : State) : Host.Outcome State Fault Refusal :=
  whilePowered s (s.command h (.write (pgTIME) 0x064 (count)))

/-- SPLICE_SLEW_END (R246): A splice slew ends when its count runs out or SPLICE would change sign, which sets SPLICE to 0.
-/
def execSpliceSlewEnd (s : State) : Host.Outcome State Fault Refusal :=
  whilePowered s s.spliceSlewEnd

/-- TIME_SNAP (R252): A write to SNAP.GO latches module time and both accumulators at the same period. -/
def execTimeSnap (h : UHdr) (s : State) : Host.Outcome State Fault Refusal :=
  whilePowered s (s.command h (.write (pgTIME) 0x074 (1)))

/-- CROSSLINK_MESSAGE (R260): A concentrator receives its partner's per-sheaf message and compares digests, updating
divergence, join and pair state. -/
def execCrosslinkMessage (conc : Conc) (s : State) : Host.Outcome State Fault Refusal :=
  whileAwake conc s ((s.takeMessage conc).checkSwap)

/-- LEASE_LAPSE (R269): Module time reaches the lease deadline; the arbiter revokes the stick, drops lane-enable and enters
GUARD. -/
def execLeaseLapse (at_ : Nat) (s : State) : Host.Outcome State Fault Refusal :=
  whilePowered s (s.leaseLapse at_)

/-- GUARD_END (R269): At the end of GUARD the arbiter grants the target or the eligible partner, or enters NONE. -/
def execGuardEnd (at_ : Nat) (s : State) : Host.Outcome State Fault Refusal :=
  whilePowered s (s.guardEndAt at_)

/-- STICK (R270): Umauf command 0x30 issues a grant or revoke, executed at the boundary of delivery. -/
def execStick (h : UHdr) (op : BitVec 2) (target : Bool) (s : State) : Host.Outcome State Fault Refusal :=
  whilePowered s (s.command h (.stick op.toNat target))

/-- STICK_CMD_WRITE (R270): A write of STICK.CMD with GO while unlocked issues a grant or revoke. -/
def execStickCmdWrite (h : UHdr) (value : Word) (s : State) : Host.Outcome State Fault Refusal :=
  whilePowered s (s.command h (.write (pgSTICK) 0x048 (value ||| 0x80000000)))

/-- TAKE_START (R274): A new holder's lanes become ready and it starts sending at the next stream-class grain 0, recording
TAKE_START. -/
def execTakeStart (conc : Conc) (s : State) : Host.Outcome State Fault Refusal :=
  whileMerging conc s (s.takeStart conc)

/-- LANE_EXIT_IDLE (R354): A lane leaves electrical idle with a 60 ns wake and a 1024-UI training burst. -/
def execLaneExitIdle (conc : Conc) (lane : LaneAt) (s : State) : Host.Outcome State Fault Refusal :=
  whileAwake conc s (s.laneExit conc lane.lane lane.at_)

/-- REJOIN (R277): A concentrator leaving reset or freeze fills its memories and is loaded by the belfry. -/
def execRejoin (conc : Conc) (start : ConcStart) (boardId : BitVec 6) (s : State) : Host.Outcome State Fault Refusal :=
  whilePowered s (s.rejoin conc start boardId.toNat)

/-- JOIN_SHEAF_CHOOSE (R277): When loading has finished the belfry chooses the join sheaf J and both concentrators enter
JOINING. -/
def execJoinSheafChoose (s : State) : Host.Outcome State Fault Refusal :=
  whilePowered s s.joinSheafChoose

end Sys2Proof.Machine
end

