-- ==== Sys2Proof/Machine/ExecMemory.lean ====
section
/-!
DEFINITION. The meanings of the rows of the lookback memory, data integrity and lanes: one definition per row.
-/

namespace Sys2Proof.Machine

/-- The management core's scrubs while INTG.CTRL.FW_SCRUB is 1 (R332): a correction table, the journal SRAM or the MRAM, in
full; a slot whose scrubber is busy is skipped. -/
def State.fwScrub (s : State) (p : IntPage) (mem : Nat) : State :=
  let known := match p with | .dintg _ => mem == 0 | .intg => mem == 0 || mem == 1
  let due := known && s.flag pgINTG Reg.INTG.CTRL_FW_SCRUB && s.pow.mode == .on && !s.recovery && !s.dieOff p.page
  if due then
    let x := s.coreRead p.page Reg.DINTG.SCRUB_CTRL_BUSY.off
    if fieldGet Reg.DINTG.SCRUB_CTRL_BUSY x.1 = 1 then x.2
    else
      let n := (x.2.scrubWords p mem).getD 1
      let s := ((x.2.coreWrite p.page 0x044 (BitVec.ofNat 32 mem)).coreWrite p.page 0x048 0).coreWrite p.page 0x04C
        (BitVec.ofNat 32 (n - 1))
      (s.coreWrite p.page 0x050 1).settle
  else s

/-- AGE_PROMOTION (R295): A DRAM request waiting beyond its class age limit moves to the head of the next higher class. -/
def execAgePromotion (conc : Conc) (shadow : Bool) (cls : ClassAt) (s : State) : Host.Outcome State Fault Refusal :=
  whileDram conc s (s.agePromotion conc shadow cls.cls cls.at_)

/-- PAGE_IDLE_CLOSE (R296): A bank page idle for PAGE_IDLE × 4 ns is closed. -/
def execPageIdleClose (conc : Conc) (chan bank : Fin 16) (s : State) : Host.Outcome State Fault Refusal :=
  whileDram conc s (s.pageIdleClose conc chan bank)

/-- DEMAND_WINDOW (R298): At the end of each 100 µs window the controller judges demand and may begin a frequency change. -/
def execDemandWindow (conc : Conc) (replayBytes shadowBytes : Nat) (s : State) : Host.Outcome State Fault Refusal :=
  whileDram conc s (s.demandWindow conc replayBytes shadowBytes)

/-- FREQ_CHANGE_DONE (R297): A frequency change completes after self-refresh, relock and training, and service resumes. -/
def execFreqChangeDone (conc : ConcReads) (s : State) : Host.Outcome State Fault Refusal :=
  whileAwake conc.conc s (s.freqChangeDone conc.conc conc.reads)

/-- REFRESH_DUE (R302): A bank's refresh falls due and is postponed, or issued refresh-urgent at the limit. -/
def execRefreshDue (conc : Conc) (chan bank : Fin 16) (s : State) : Host.Outcome State Fault Refusal :=
  whileDram conc s (s.refreshDue conc chan bank)

/-- POSTPONED_REFRESH (R302): A postponed refresh is issued when its bank has no class 2 or 3 request queued. -/
def execPostponedRefresh (conc : Conc) (chan bank : Fin 16) (s : State) : Host.Outcome State Fault Refusal :=
  whileDram conc s (s.postponedRefresh conc chan bank)

/-- TEMP_SAMPLE (R303): Every 32 µs the stack temperature is sampled, entering or leaving the hot state. -/
def execTempSample (conc : Conc) (temp : Int) (s : State) : Host.Outcome State Fault Refusal :=
  whileAwake conc s (s.tempSample conc temp)

/-- RETRAIN_DUE (R305): A channel is retrained after RETRAIN_MS or a temperature step, and marked degraded if no setting
passes. -/
def execRetrainDue (conc : Conc) (chan : Fin 16) (setting : Option (BitVec 24)) (s : State) : Host.Outcome State Fault
    Refusal :=
  whileDram conc s (s.retrainDue conc chan setting)

/-- CHANNEL_RETIRE (R306): A degraded channel whose bucket has passed is retired at the next boundary and the interleave
rebuilt. -/
def execChannelRetire (conc : Conc) (chan : Fin 16) (s : State) : Host.Outcome State Fault Refusal :=
  whileDram conc s (s.channelRetire conc chan)

/-- DRAM_FREEZE (R309): A command/address parity error, or an uncorrectable demand read with FREEZE_UE, freezes the
controller and stops merge. -/
def execDramFreeze (conc : Conc) (parity : Bool) (cmd cls : BitVec 3) (chan bank : Fin 16) (row : BitVec 16) (unit :
    BitVec 6) (synd : Word) (s : State) : Host.Outcome State Fault Refusal :=
  whileDram conc s (s.dramFreeze conc parity cmd.toNat cls.toNat chan bank row.toNat unit.toNat synd.toNat)

/-- FREEZE_RELEASE_WRITE (R311): A write to FREEZE_CTRL.RELEASE releases a freeze at the next boundary, and the concentrator
rejoins. -/
def execFreezeReleaseWrite (h : UHdr) (conc : Conc) (s : State) : Host.Outcome State Fault Refusal :=
  whilePowered s (s.command h (.write (pgDRAM conc) 0x098 (1)))

/-- FREEZE_RELEASE (R311): Umauf command 0x23 releases the freeze of the named concentrator. -/
def execFreezeRelease (h : UHdr) (conc : Conc) (s : State) : Host.Outcome State Fault Refusal :=
  whilePowered s (s.command h (.freezeRelease (conc == .b)))

/-- HOST_READ (R312): A write to HOST_CTRL.READ starts a class 5 read of one DRAM unit. -/
def execHostRead (h : UHdr) (conc : Conc) (s : State) : Host.Outcome State Fault Refusal :=
  whilePowered s (s.command h (.write (pgDRAM conc) 0x0B0 (1)))

/-- HOST_READ_DONE (R312): The host DRAM read completes, filling HOST_DATA and POISON and clearing BUSY. -/
def execHostReadDone (conc : Conc) (read : EccRead) (s : State) : Host.Outcome State Fault Refusal :=
  whileDram conc s (s.hostReadDone conc read)

/-- BUCKET_LEAK (R326): Every LEAK_US a bucket's level falls by 1. -/
def execBucketLeak (page : IntPage) (region : RegionAt) (s : State) : Host.Outcome State Fault Refusal :=
  whilePage page s (s.bucketLeak page region.region region.at_)

/-- THRESH_WRITE (R327): A write of THRESH below LEVEL counts as a bucket pass. -/
def execThreshWrite (h : UHdr) (page : IntPage) (region : Nat) (value : Word) (s : State) : Host.Outcome State Fault
    Refusal :=
  whilePowered s (s.command h (.write (page.page) (0x104 + 16 * region) (value)))

/-- TMR_REFRESH (R322): Every TMR_US each die rewrites register copies that disagree with the majority. -/
def execTmrRefresh (die : Die) (regs : List (BitVec 28)) (s : State) : Host.Outcome State Fault Refusal :=
  whilePowered s (s.tmrRefresh die regs)

/-- SCRUB_GO (R330): A write of SCRUB_CTRL.GO starts a scrub pass over a range, or is refused. -/
def execScrubGo (h : UHdr) (page : IntPage) (s : State) : Host.Outcome State Fault Refusal :=
  whilePowered s (s.command h (.write (page.page) 0x050 (1)))

/-- SCRUB_ABORT (R330): A write of SCRUB_CTRL.ABORT ends a pass early. -/
def execScrubAbort (h : UHdr) (page : IntPage) (s : State) : Host.Outcome State Fault Refusal :=
  whilePowered s (s.command h (.write (page.page) 0x050 (2)))

/-- SCRUB_WORD (R331): The scrubber reads the next word, writing back and verifying a corrected word or poisoning an
uncorrectable one. -/
def execScrubWord (page : IntPage) (read : ScrubRead) (at_ : Nat) (s : State) : Host.Outcome State Fault Refusal :=
  whilePage page s (s.scrubWord page read at_)

/-- FW_SCRUB_SLOT (R332): On schedule the management core starts scrubs of correction tables, journal SRAM and MRAM. -/
def execFwScrubSlot (page : IntPage) (mem : BitVec 5) (s : State) : Host.Outcome State Fault Refusal :=
  whilePowered s (s.fwScrub page mem.toNat)

/-- FAULT_CLR (R335): A write to FAULT_CLR frees fault entries that are not remapped. -/
def execFaultClr (h : UHdr) (page : IntPage) (s : State) : Host.Outcome State Fault Refusal :=
  whilePowered s (s.command h (.write (page.page) (if page = .intg then 0x080 else 0x07C) (1)))

/-- MASK_LOAD (R357): 128 T_ref after the boundary following a mask write, the mask in effect is loaded. -/
def execMaskLoad (s : State) : Host.Outcome State Fault Refusal :=
  whilePowered s s.maskLoad

/-- LANE_FAULT (R356): A driver current out of window or PLL loss sets the lane's FAULT and makes it not ready. -/
def execLaneFault (conc : Conc) (lane : Fin 64) (pllLost : Bool) (s : State) : Host.Outcome State Fault Refusal :=
  whileAwake conc s (s.laneFault conc lane pllLost)

/-- LANE_TEST_WRITE (R358): A write to a lane's TEST register starts or stops generator, checker and loopback, or is refused
for a lane in a mask. -/
def execLaneTestWrite (h : UHdr) (conc : Conc) (lane : Fin 64) (value : Word) (s : State) : Host.Outcome State Fault
    Refusal :=
  whilePowered s (s.command h (.write (pgLANE conc lane) 0x04C (value)))

/-- INJ_ONE (R361): A write to TEST.INJ_ONE inverts one generator bit. -/
def execInjOne (h : UHdr) (conc : Conc) (lane : Fin 64) (s : State) : Host.Outcome State Fault Refusal :=
  whilePowered s (s.command h (.write (pgLANE conc lane) 0x04C (s.rd (pgLANE conc lane) 0x04C ||| 0x200)))

/-- CHECKER_LOCK (R360): The PRBS checker locks after 64 agreements and starts counting. -/
def execCheckerLock (conc : Conc) (lane : LaneBits) (s : State) : Host.Outcome State Fault Refusal :=
  whileAwake conc s (s.testRun conc lane.lane lane.run.bits lane.run.errs)

/-- CHECKER_LOCK_LOST (R360): 32 wrong bits in 1024 make the checker lose lock and search again. -/
def execCheckerLockLost (conc : Conc) (lane : Fin 64) (bits : Nat) (errs : List Nat) (s : State) : Host.Outcome State
    Fault Refusal :=
  whileAwake conc s (s.testRun conc lane bits errs)

end Sys2Proof.Machine
end

