-- ==== Sys2Proof/Machine/ExecUmauf.lean ====
section
/-!
DEFINITION. The meanings of the rows of Umauf frames, commands and peals, register writes with rows of their own: one definition per row.
-/

namespace Sys2Proof.Machine

/-- DOWNSTREAM_FRAME (R370): A port receives a downstream frame, checks its marker and acts on its grants and commands. -/
def execDownstreamFrame (port : Um) (sync : BitVec 32) (word0 word1 : List Byte) (at_ : Nat) (ecc : List Reads) (s : State) :
    Host.Outcome State Fault Refusal :=
  whilePowered s (s.downstreamFrame port sync word0 word1 at_ ecc)

/-- UPSTREAM_BURST (R372): In a granted slot the port sends a burst of result, event or status blocks. -/
def execUpstreamBurst (port : Um) (s : State) : Host.Outcome State Fault Refusal :=
  whilePowered s (s.upstreamBurst port)

/-- DISCOVERY_ANSWER (R375): An unregistered port answers the chosen discovery grant with a discovery burst. -/
def execDiscoveryAnswer (port : Um) (s : State) : Host.Outcome State Fault Refusal :=
  whilePowered s (s.discoveryAnswer port)

/-- DISCOVERY_RETRY (R375): With no REGISTER within 4 superframes the port widens its backoff and draws again. -/
def execDiscoveryRetry (port : Um) (s : State) : Host.Outcome State Fault Refusal :=
  whilePowered s (s.discoveryRetry port)

/-- REGISTRATION_LOSS (R375): A port whose lock has been lost for 1 s becomes unregistered. -/
def execRegistrationLoss (port : Um) (s : State) : Host.Outcome State Fault Refusal :=
  whilePowered s (s.registrationLoss port)

/-- REGISTER (R376): Command 0x10 registers the port with the unit serial at ADDR and EQD. -/
def execRegister (h : UHdr) (serial : BitVec 64) (addr : BitVec 12) (eqd : BitVec 16) (s : State) : Host.Outcome State
    Fault Refusal :=
  whilePowered s (s.command h (.register serial.toNat addr.toNat eqd.toNat))

/-- DEREGISTER (R375): Command 0x11 unregisters the port. -/
def execDeregister (h : UHdr) (s : State) : Host.Outcome State Fault Refusal :=
  whilePowered s (s.command h .deregister)

/-- READ (R378): Command 0x01 returns one register. -/
def execRead (h : UHdr) (page off : BitVec 16) (ecc : EccRead) (s : State) : Host.Outcome State Fault Refusal :=
  whilePowered s (s.command h (.read page.toNat off.toNat) { reads := [(off.toNat, ecc)] })

/-- WRITE (R405): Command 0x02 writes one register field by field by access type. -/
def execWrite (h : UHdr) (page off : BitVec 16) (value : Word) (s : State) : Host.Outcome State Fault Refusal :=
  whilePowered s (s.command h (.write (page.toNat) off.toNat (value)))

/-- BLOCK_READ (R411): Command 0x03 returns up to 64 consecutive registers in one operation. -/
def execBlockRead (h : UHdr) (page off : BitVec 16) (count : Byte) (ecc : BlockEnv) (s : State) : Host.Outcome State
    Fault Refusal :=
  whilePowered s (s.command h (.blockRead page.toNat off.toNat count.toNat) ecc)

/-- UNLOCK (R407): Privileged command 0x04 unlocks a page's RWL fields for FRAMES frames. -/
def execUnlock (h : UHdr) (page frames : BitVec 16) (s : State) : Host.Outcome State Fault Refusal :=
  whilePowered s (s.command h (.unlock page.toNat frames.toNat))

/-- LOCK (R407): Command 0x05 locks a page at once. -/
def execLock (h : UHdr) (page : BitVec 16) (s : State) : Host.Outcome State Fault Refusal :=
  whilePowered s (s.command h (.lock page.toNat))

/-- AUTH_WRITE (R407): Privileged command 0x06 writes all writable fields of a register, RWL included. -/
def execAuthWrite (h : UHdr) (page off : BitVec 16) (value : Word) (s : State) : Host.Outcome State Fault Refusal :=
  whilePowered s (s.command h (.authWrite page.toNat off.toNat value))

/-- UNLOCK_EXPIRY (R407): The unlock window of a page ends at its frame boundary. -/
def execUnlockExpiry (page : BitVec 16) (s : State) : Host.Outcome State Fault Refusal :=
  whilePowered s (s.unlockExpiry page.toNat)

/-- PEAL_BEGIN (R382): Command 0x40 starts a port's peal assembly. -/
def execPealBegin (h : UHdr) (epoch : BitVec 16) (count : Byte) (sheaf : BitVec 32) (s : State) : Host.Outcome State
    Fault Refusal :=
  whilePowered s (s.command h (.pealBegin epoch.toNat count.toNat sheaf.toNat))

/-- PEAL_WRITE (R382): Command 0x41 adds writes by INDEX to the port's peal assembly. -/
def execPealWrite (h : UHdr) (index : Byte) (writes : List PWrite) (s : State) : Host.Outcome State Fault Refusal :=
  whilePowered s (s.command h (.pealWrite index.toNat writes))

/-- PEAL_END (R383): Command 0x42 completes the assembly; the peal is checked and made pending or refused. -/
def execPealEnd (h : UHdr) (count : Byte) (crc : BitVec 32) (s : State) : Host.Outcome State Fault Refusal :=
  whilePowered s (s.command h (.pealEnd count.toNat crc))

/-- PEAL_ASSEMBLY_TIMEOUT (R382): A peal assembly without PEAL_END within 16 Umauf frames ends as MALFORMED. -/
def execPealAssemblyTimeout (port : Um) (s : State) : Host.Outcome State Fault Refusal :=
  whilePowered s (s.assemblyTimeout port)

/-- PEAL_COMMIT (R385): At the start of frame S − 2 the peal commits if all units acknowledge, otherwise it aborts. -/
def execPealCommit (s : State) : Host.Outcome State Fault Refusal :=
  whilePowered s s.pealCommit

/-- PEAL_APPLY (R385): At boundary S every peal write takes effect in INDEX order and the peal epoch advances. -/
def execPealApply (s : State) : Host.Outcome State Fault Refusal :=
  whilePowered s s.pealApply

/-- MIXED_CLR (R386): A write of PEAL_CTRL.MIXED_CLR clears MIXED from the next boundary. -/
def execMixedClr (h : UHdr) (s : State) : Host.Outcome State Fault Refusal :=
  whilePowered s (s.command h (.write (pgJRNL) 0x058 (1)))

/-- EVT_ENABLE_WRITE (R403): A write setting an enable bit over a pending bit, or setting EVT_ON, queues the page for an
event. -/
def execEvtEnableWrite (h : UHdr) (page off : BitVec 16) (value : Word) (s : State) : Host.Outcome State Fault Refusal
    :=
  whilePowered s (s.command h (.write (page.toNat) off.toNat (value)))

/-- COUNTER_OVF_CLEAR (R336): Writing 1 to a COUNTER_OVF bit clears the bit and its counters. -/
def execCounterOvfClear (h : UHdr) (page : BitVec 16) (value : Word) (s : State) : Host.Outcome State Fault Refusal :=
  whilePowered s (s.command h (.write (page.toNat) 0x020 (value)))

/-- CNT_CLR (R336): A write to a page's counter clear register clears its counters and overflow bits. -/
def execCntClr (h : UHdr) (page off : BitVec 16) (value : Word) (s : State) : Host.Outcome State Fault Refusal :=
  whilePowered s (s.command h (.write (page.toNat) off.toNat (value)))

/-- REG_WRITE_OTHER (R404): A write to a register without its own row takes effect field by field at the time its chapter
states. -/
def execRegWriteOther (h : UHdr) (page off : BitVec 16) (value : Word) (s : State) : Host.Outcome State Fault Refusal
    :=
  whilePowered s (s.command h (.write (page.toNat) off.toNat (value)))

end Sys2Proof.Machine
end

