-- ==== Sys2Proof/Machine/ExecModule.lean ====
section
/-!
DEFINITION. The meanings of the rows of the environmental monitor, images, power and the test port: one definition per row.
-/

namespace Sys2Proof.Machine

/-- MONX_START (R430): A write of SEQ_CTRL.START begins a monitor pass at the next boundary. -/
def execMonxStart (h : UHdr) (value : Word) (s : State) : Host.Outcome State Fault Refusal :=
  whilePowered s (s.command h (.write (pgMADC) 0x040 (value ||| 0x10000)))

/-- MONX_STOP (R430): A write of SEQ_CTRL.STOP ends the pass at the next boundary, abandoning the normal entry converting.
-/
def execMonxStop (h : UHdr) (value : Word) (s : State) : Host.Outcome State Fault Refusal :=
  whilePowered s (s.command h (.write (pgMADC) 0x040 (value ||| 0x20000)))

/-- VISIT_SWITCH_DONE (R431): After 20 µs of switching a visit begins converting, flushing the filter if settings differ. -/
def execVisitSwitchDone (s : State) : Host.Outcome State Fault Refusal :=
  whilePowered s s.visitSwitchDone

/-- CONVERSION_RESULT (R431): A conversion period completes and its result is written, with STALE, OVR or TESTED as
applicable. -/
def execConversionResult (pos neg sine ref : Int) (ovr : Bool) (at_ : Nat) (s : State) : Host.Outcome State Fault
    Refusal :=
  whilePowered s (s.conversionResult pos neg sine ref ovr at_)

/-- URGENT_DUE (R432): An urgent entry falls due every PERIOD ms and aborts a converting normal entry. -/
def execUrgentDue (entry : Fin 32) (s : State) : Host.Outcome State Fault Refusal :=
  whilePowered s (s.urgentDue entry)

/-- WIRE_BREAK (R428): A watched pin outside the window or the excitation at its current limit for 20 µs latches a break and
writes a FAULT result. -/
def execWireBreak (cause : BreakCause) (at_ : Nat) (s : State) : Host.Outcome State Fault Refusal :=
  whilePowered s (s.wireBreak cause at_)

/-- BREAK_CLEAR (R429): Writing 1 to a MONX.BREAK bit clears the entry's latched break. -/
def execBreakClear (h : UHdr) (value : Word) (s : State) : Host.Outcome State Fault Refusal :=
  whilePowered s (s.command h (.write (pgMONX) 0x044 (value)))

/-- ILK_HOLD_EXPIRY (R436): With no valid source result for 2 × PERIOD or HOLD, an interlock output goes HOLDING or FAULT.
-/
def execIlkHoldExpiry (out : Pin) (at_ : Nat) (s : State) : Host.Outcome State Fault Refusal :=
  whilePowered s (s.ilkHoldExpiry out at_)

/-- IMG_BEGIN (R450): Command 0x50 checks an image header and begins a transfer into the staged slot. -/
def execImgBegin (h : UHdr) (cls : Bool) (header : List Byte) (s : State) : Host.Outcome State Fault Refusal :=
  whilePowered s (s.command h (.imgBegin cls (wordsBytes (bytesWords 40 header))))

/-- IMG_DATA (R451): Command 0x51 appends body bytes at OFFSET. -/
def execImgData (h : UHdr) (off : BitVec 32) (words : List Word) (s : State) : Host.Outcome State Fault Refusal :=
  whilePowered s (s.command h (.imgData off.toNat words))

/-- IMG_END (R452): Command 0x52 checks the body digest and stages the image. -/
def execImgEnd (h : UHdr) (cls : Bool) (s : State) : Host.Outcome State Fault Refusal :=
  whilePowered s (s.command h (.imgEnd cls))

/-- IMG_CANCEL (R449): Command 0x53 discards the transfer or staged image of a class. -/
def execImgCancel (h : UHdr) (cls : Bool) (s : State) : Host.Outcome State Fault Refusal :=
  whilePowered s (s.command h (.imgCancel cls))

/-- IMG_RESTART (R449): Command 0x54 restarts the module from step 1 once its result is sent. -/
def execImgRestart (h : UHdr) (s : State) : Host.Outcome State Fault Refusal :=
  whilePowered s (s.command h .imgRestart)

/-- IMG_COMMIT (R456): Command 0x55 makes a trial image permanent and raises MIN_VER. -/
def execImgCommit (h : UHdr) (cls : Bool) (version : BitVec 32) (s : State) : Host.Outcome State Fault Refusal :=
  whilePowered s (s.command h (.imgCommit cls version.toNat))

/-- IMG_REJECT (R455): Command 0x56 ends a trial as failed. -/
def execImgReject (h : UHdr) (cls : Bool) (s : State) : Host.Outcome State Fault Refusal :=
  whilePowered s (s.command h (.imgReject cls))

/-- TRANSFER_TIMEOUT (R451): A transfer idle for 10 s is abandoned and its slot erased. -/
def execTransferTimeout (s : State) : Host.Outcome State Fault Refusal :=
  whilePowered s s.transferTimeout

/-- TRIAL_TIMEOUT (R455): TRIAL_RUN not set within 10 s of the core's release fails the trial. -/
def execTrialTimeout (s : State) : Host.Outcome State Fault Refusal :=
  whilePowered s s.trialTimeout

/-- CORE_RESTART (R328): An uncorrectable management core memory read restarts the core from its current image. -/
def execCoreRestart (s : State) : Host.Outcome State Fault Refusal :=
  whilePowered s s.coreRestart

/-- POWER_GOOD (R462): The input converter starts after PWR_IN holds 8.8 V for 10 ms, and input power becomes good. -/
def execPowerGood (s : State) : Host.Outcome State Fault Refusal :=
  .next s.powerGood

/-- POWER_FAIL (R464): Input power stops being good; lanes idle, interlocks low, commands stop and MRAM writes complete. -/
def execPowerFail (under : Bool) (s : State) : Host.Outcome State Fault Refusal :=
  .next (s.powerFail under)

/-- START_SEQUENCE (R470): After power good, reset release or a restart, the module runs its start-up steps in order. -/
def execStartSequence (env : StartEnv) (s : State) : Host.Outcome State Fault Refusal :=
  .next (s.startSequence env)

/-- TILE_GROUP_POWER (R471): At step 7 tile groups are powered SPACING_MS apart. -/
def execTileGroupPower (group : Fin 4) (start : GroupStart) (s : State) : Host.Outcome State Fault Refusal :=
  whilePowered s (s.tileGroupPower group start)

/-- READY (R473): At step 12 the belfry marks Ready and lets the arbiter make the start grant. -/
def execReady (ms : BitVec 20) (s : State) : Host.Outcome State Fault Refusal :=
  whilePowered s (s.ready ms.toNat)

/-- CONVERTER_FAULT (R465): A rail out of range for 50 µs turns its converter off and acts on its die as R466. -/
def execConverterFault (die : Die) (s : State) : Host.Outcome State Fault Refusal :=
  .next (s.converterFault die)

/-- CONV_FAULT_CLEAR (R467): Writing 1 to a CONV_FAULT bit clears the latched fault and powers the die again. -/
def execConvFaultClear (h : UHdr) (value : Word) (s : State) : Host.Outcome State Fault Refusal :=
  whilePowered s (s.command h (.write (pgPWR) 0x050 (value)))

/-- OVER_LIMIT (R466): A die over its temperature or current limit is powered off, reset or stops the module. -/
def execOverLimit (die : Die) (current : Bool) (s : State) : Host.Outcome State Fault Refusal :=
  .next (s.overLimit die current)

/-- OVER_LIMIT_RECOVER (R466): A die back below 90 °C, or 1 s after a current fault, powers up again. -/
def execOverLimitRecover (die : Die) (s : State) : Host.Outcome State Fault Refusal :=
  .next (s.overLimitRecover die)

/-- RESET_ASSERT (R474): RESET_N low for 1 µs idles the lanes, drives interlocks low and resets every die. -/
def execResetAssert (s : State) : Host.Outcome State Fault Refusal :=
  .next s.resetAssert

/-- RESET_RELEASE (R474): RESET_N rising starts the sequence of R470 from step 1. -/
def execResetRelease (s : State) : Host.Outcome State Fault Refusal :=
  .next s.resetRelease

/-- CONC_HOLD_WRITE (R475): A write to CONC_HOLD holds or releases a concentrator in reset, refused if it would hold both.
-/
def execConcHoldWrite (h : UHdr) (value : Word) (s : State) : Host.Outcome State Fault Refusal :=
  whilePowered s (s.command h (.write (pgPWR) 0x054 (value)))

/-- CLEANER_LOCK (R241): The jitter cleaner's core pulls in on its input port's recovered reference and CLEAN_STAT.LOCK and
TSTAT.CLEAN_LOCK rise. -/
def execCleanerLock (s : State) : Host.Outcome State Fault Refusal :=
  whilePowered s s.cleanerLock

/-- LANE_FAULT_END (R356): A lane's driver current returns to its window or its PLL relocks, FAULT clears and the lane
becomes ready again. -/
def execLaneFaultEnd (conc : Conc) (lane : Fin 64) (s : State) : Host.Outcome State Fault Refusal :=
  whileAwake conc s (s.laneFaultEnd conc lane)

/-- EXT_OK_CHANGE (R423): MON_REFP − MON_REFN leaves or has held 0.5–2.5 V for 1 ms, so MADC.REF_STAT.EXT_OK falls or rises
and REF_LOST may be set. -/
def execExtOkChange (ok : Bool) (s : State) : Host.Outcome State Fault Refusal :=
  whilePowered s (s.extOkChange ok)

/-- DEADLINE_COPY_EXPIRY (R268): A concentrator's own copy of the lease deadline passes and it forces its lanes to
electrical idle within 2 µs. -/
def execDeadlineCopyExpiry (conc : Conc) (at_ : Nat) (s : State) : Host.Outcome State Fault Refusal :=
  whileAwake conc s (s.copyExpiry conc at_)

/-- TEST_CLOCK_EDGE (R491): A TCK edge advances the IEEE 1149.1 TAP with TMS and TDI, shifting or updating its instruction
and boundary registers. -/
def execTestClockEdge (rising tms tdi : Bool) (pins : TestPins) (s : State) : Host.Outcome State Fault Refusal :=
  .next (s.testClockEdge rising tms tdi pins)

/-- TEST_LOGIC_RESET (R491): TRST_N low resets the TAP to test-logic reset, which selects BYPASS. -/
def execTestLogicReset (s : State) : Host.Outcome State Fault Refusal :=
  .next s.testLogicReset

end Sys2Proof.Machine
end

