-- ==== Sys2Proof/Machine/Dispatch.lean ====
section
/-!
DEFINITION. The dispatch of commands to their meanings, one arm per row of the operation table.
-/

namespace Sys2Proof.Machine

/-- The effect of a command or event. -/
def exec (i : Instr) (s : State) : Host.Outcome State Fault Refusal :=
  match i with
  | .frameBoundary slips drift => Sys2Proof.Machine.execFrameBoundary slips drift s
  | .leadingEdge chan t => Sys2Proof.Machine.execLeadingEdge chan t s
  | .trailingEdge chan t took => Sys2Proof.Machine.execTrailingEdge chan t took s
  | .holdoffExpiry chan t took => Sys2Proof.Machine.execHoldoffExpiry chan t took s
  | .totSaturation chan t took => Sys2Proof.Machine.execTotSaturation chan t took s
  | .adcConversionDone chan code took read => Sys2Proof.Machine.execAdcConversionDone chan code took read s
  | .gateApply tile => Sys2Proof.Machine.execGateApply tile s
  | .stuckTimerExpiry chan t => Sys2Proof.Machine.execStuckTimerExpiry chan t s
  | .smaskClear h chan => Sys2Proof.Machine.execSmaskClear h chan s
  | .blankingEnd chan t => Sys2Proof.Machine.execBlankingEnd chan t s
  | .injectionLaunch tile block => Sys2Proof.Machine.execInjectionLaunch tile block s
  | .injBlindExpiry chan t => Sys2Proof.Machine.execInjBlindExpiry chan t s
  | .injFire h tile block value => Sys2Proof.Machine.execInjFire h tile block value s
  | .idleExpiry page => Sys2Proof.Machine.execIdleExpiry page s
  | .ceilWrite h page value => Sys2Proof.Machine.execCeilWrite h page value s
  | .tilePowerRemoval tile => Sys2Proof.Machine.execTilePowerRemoval tile s
  | .tilePowerUp tile selfTestOk => Sys2Proof.Machine.execTilePowerUp tile selfTestOk s
  | .tileResume tile => Sys2Proof.Machine.execTileResume tile s
  | .dllLock tile => Sys2Proof.Machine.execDllLock tile s
  | .dllUnlock tile => Sys2Proof.Machine.execDllUnlock tile s
  | .dllRelock h tile value => Sys2Proof.Machine.execDllRelock h tile value s
  | .promotionDecision chan t took => Sys2Proof.Machine.execPromotionDecision chan t took s
  | .emitFrameClosed tile => Sys2Proof.Machine.execEmitFrameClosed tile s
  | .portCut tile port => Sys2Proof.Machine.execPortCut tile port s
  | .lateWordAck tile port => Sys2Proof.Machine.execLateWordAck tile port s
  | .correctRecord conc tile read port queued => Sys2Proof.Machine.execCorrectRecord conc tile read port queued s
  | .frameClosedToken conc tile => Sys2Proof.Machine.execFrameClosedToken conc tile s
  | .resumeToken conc tile => Sys2Proof.Machine.execResumeToken conc tile s
  | .sideItem conc tile read port => Sys2Proof.Machine.execSideItem conc tile read port s
  | .horizonExpiry conc tile => Sys2Proof.Machine.execHorizonExpiry conc tile s
  | .sheafForm conc => Sys2Proof.Machine.execSheafForm conc s
  | .extentTimeout conc tile => Sys2Proof.Machine.execExtentTimeout conc tile s
  | .govRaiseStep conc fill => Sys2Proof.Machine.execGovRaiseStep conc fill s
  | .govLowerStep conc fill => Sys2Proof.Machine.execGovLowerStep conc fill s
  | .corrStageWrite h conc off value => Sys2Proof.Machine.execCorrStageWrite h conc off value s
  | .stageClr h conc => Sys2Proof.Machine.execStageClr h conc s
  | .shadowDiscard h page => Sys2Proof.Machine.execShadowDiscard h page s
  | .dealGrain conc read unit => Sys2Proof.Machine.execDealGrain conc read unit s
  | .trigPinEdge pin rising stamp => Sys2Proof.Machine.execTrigPinEdge pin rising stamp s
  | .timedTrigger h coarse fine glean level pre post path => Sys2Proof.Machine.execTimedTrigger h coarse fine glean level pre post path s
  | .triggerDelivery => Sys2Proof.Machine.execTriggerDelivery s
  | .gatePinChange pin high stamp => Sys2Proof.Machine.execGatePinChange pin high stamp s
  | .gateEdgeAccept pin at_ => Sys2Proof.Machine.execGateEdgeAccept pin at_ s
  | .timedGate h open_ openTap close closeTap => Sys2Proof.Machine.execTimedGate h open_ openTap close closeTap s
  | .gleanSheafForm conc read unit => Sys2Proof.Machine.execGleanSheafForm conc read unit s
  | .resendGo h value => Sys2Proof.Machine.execResendGo h value s
  | .resend h first count => Sys2Proof.Machine.execResend h first count s
  | .resendSheaf conc read unit => Sys2Proof.Machine.execResendSheaf conc read unit s
  | .loWordRead h page off => Sys2Proof.Machine.execLoWordRead h page off s
  | .turnAccumEnd => Sys2Proof.Machine.execTurnAccumEnd s
  | .engineStage => Sys2Proof.Machine.execEngineStage s
  | .swapGo h value => Sys2Proof.Machine.execSwapGo h value s
  | .swapCommit => Sys2Proof.Machine.execSwapCommit s
  | .swapBoundary => Sys2Proof.Machine.execSwapBoundary s
  | .restoringSwapRequest conc chan => Sys2Proof.Machine.execRestoringSwapRequest conc chan s
  | .epochInitWrite h value => Sys2Proof.Machine.execEpochInitWrite h value s
  | .superframeMarker port marker at_ sub => Sys2Proof.Machine.execSuperframeMarker port marker at_ sub s
  | .acqTimeout => Sys2Proof.Machine.execAcqTimeout s
  | .cdrUnlock port => Sys2Proof.Machine.execCdrUnlock port s
  | .markerMissing port => Sys2Proof.Machine.execMarkerMissing port s
  | .domainSwitch h target sheaf => Sys2Proof.Machine.execDomainSwitch h target sheaf s
  | .swCtrlGo h value => Sys2Proof.Machine.execSwCtrlGo h value s
  | .domainSwitchBoundary => Sys2Proof.Machine.execDomainSwitchBoundary s
  | .slewStart h domain count => Sys2Proof.Machine.execSlewStart h domain count s
  | .slewDone domain => Sys2Proof.Machine.execSlewDone domain s
  | .spliceSlewStart h count => Sys2Proof.Machine.execSpliceSlewStart h count s
  | .spliceSlewEnd => Sys2Proof.Machine.execSpliceSlewEnd s
  | .timeSnap h => Sys2Proof.Machine.execTimeSnap h s
  | .crosslinkMessage conc => Sys2Proof.Machine.execCrosslinkMessage conc s
  | .leaseLapse at_ => Sys2Proof.Machine.execLeaseLapse at_ s
  | .guardEnd at_ => Sys2Proof.Machine.execGuardEnd at_ s
  | .stick h op target => Sys2Proof.Machine.execStick h op target s
  | .stickCmdWrite h value => Sys2Proof.Machine.execStickCmdWrite h value s
  | .takeStart conc => Sys2Proof.Machine.execTakeStart conc s
  | .laneExitIdle conc lane => Sys2Proof.Machine.execLaneExitIdle conc lane s
  | .rejoin conc selfTestOk boardId => Sys2Proof.Machine.execRejoin conc selfTestOk boardId s
  | .joinSheafChoose => Sys2Proof.Machine.execJoinSheafChoose s
  | .agePromotion conc shadow cls => Sys2Proof.Machine.execAgePromotion conc shadow cls s
  | .pageIdleClose conc chan bank => Sys2Proof.Machine.execPageIdleClose conc chan bank s
  | .demandWindow conc replayBytes shadowBytes => Sys2Proof.Machine.execDemandWindow conc replayBytes shadowBytes s
  | .freqChangeDone conc => Sys2Proof.Machine.execFreqChangeDone conc s
  | .refreshDue conc chan bank => Sys2Proof.Machine.execRefreshDue conc chan bank s
  | .postponedRefresh conc chan bank => Sys2Proof.Machine.execPostponedRefresh conc chan bank s
  | .tempSample conc temp => Sys2Proof.Machine.execTempSample conc temp s
  | .retrainDue conc chan setting => Sys2Proof.Machine.execRetrainDue conc chan setting s
  | .channelRetire conc chan => Sys2Proof.Machine.execChannelRetire conc chan s
  | .dramFreeze conc parity cmd cls chan bank row unit synd => Sys2Proof.Machine.execDramFreeze conc parity cmd cls chan bank row unit synd s
  | .freezeReleaseWrite h conc => Sys2Proof.Machine.execFreezeReleaseWrite h conc s
  | .freezeRelease h conc => Sys2Proof.Machine.execFreezeRelease h conc s
  | .hostRead h conc => Sys2Proof.Machine.execHostRead h conc s
  | .hostReadDone conc read => Sys2Proof.Machine.execHostReadDone conc read s
  | .bucketLeak page region => Sys2Proof.Machine.execBucketLeak page region s
  | .threshWrite h page region value => Sys2Proof.Machine.execThreshWrite h page region value s
  | .tmrRefresh die regs => Sys2Proof.Machine.execTmrRefresh die regs s
  | .scrubGo h page => Sys2Proof.Machine.execScrubGo h page s
  | .scrubAbort h page => Sys2Proof.Machine.execScrubAbort h page s
  | .scrubWord page read at_ => Sys2Proof.Machine.execScrubWord page read at_ s
  | .fwScrubSlot page mem => Sys2Proof.Machine.execFwScrubSlot page mem s
  | .faultClr h page => Sys2Proof.Machine.execFaultClr h page s
  | .maskLoad => Sys2Proof.Machine.execMaskLoad s
  | .laneFault conc lane pllLost => Sys2Proof.Machine.execLaneFault conc lane pllLost s
  | .laneTestWrite h conc lane value => Sys2Proof.Machine.execLaneTestWrite h conc lane value s
  | .injOne h conc lane => Sys2Proof.Machine.execInjOne h conc lane s
  | .checkerLock conc lane => Sys2Proof.Machine.execCheckerLock conc lane s
  | .checkerLockLost conc lane bits wrong => Sys2Proof.Machine.execCheckerLockLost conc lane bits wrong s
  | .downstreamFrame port payload corrected uncorrectable at_ ecc => Sys2Proof.Machine.execDownstreamFrame port payload corrected uncorrectable at_ ecc s
  | .upstreamBurst port => Sys2Proof.Machine.execUpstreamBurst port s
  | .discoveryAnswer port => Sys2Proof.Machine.execDiscoveryAnswer port s
  | .discoveryRetry port => Sys2Proof.Machine.execDiscoveryRetry port s
  | .registrationLoss port => Sys2Proof.Machine.execRegistrationLoss port s
  | .register h serial addr eqd => Sys2Proof.Machine.execRegister h serial addr eqd s
  | .deregister h => Sys2Proof.Machine.execDeregister h s
  | .read h page off ecc => Sys2Proof.Machine.execRead h page off ecc s
  | .write h page off value => Sys2Proof.Machine.execWrite h page off value s
  | .blockRead h page off count ecc => Sys2Proof.Machine.execBlockRead h page off count ecc s
  | .unlock h page frames => Sys2Proof.Machine.execUnlock h page frames s
  | .lock h page => Sys2Proof.Machine.execLock h page s
  | .authWrite h page off value => Sys2Proof.Machine.execAuthWrite h page off value s
  | .unlockExpiry page => Sys2Proof.Machine.execUnlockExpiry page s
  | .pealBegin h epoch count sheaf => Sys2Proof.Machine.execPealBegin h epoch count sheaf s
  | .pealWrite h index writes => Sys2Proof.Machine.execPealWrite h index writes s
  | .pealEnd h count crc => Sys2Proof.Machine.execPealEnd h count crc s
  | .pealAssemblyTimeout port => Sys2Proof.Machine.execPealAssemblyTimeout port s
  | .pealCommit => Sys2Proof.Machine.execPealCommit s
  | .pealApply => Sys2Proof.Machine.execPealApply s
  | .mixedClr h => Sys2Proof.Machine.execMixedClr h s
  | .evtEnableWrite h page off value => Sys2Proof.Machine.execEvtEnableWrite h page off value s
  | .counterOvfClear h page value => Sys2Proof.Machine.execCounterOvfClear h page value s
  | .cntClr h page off value => Sys2Proof.Machine.execCntClr h page off value s
  | .regWriteOther h page off value => Sys2Proof.Machine.execRegWriteOther h page off value s
  | .monxStart h value => Sys2Proof.Machine.execMonxStart h value s
  | .monxStop h value => Sys2Proof.Machine.execMonxStop h value s
  | .visitSwitchDone => Sys2Proof.Machine.execVisitSwitchDone s
  | .conversionResult pos neg sine ref ovr at_ => Sys2Proof.Machine.execConversionResult pos neg sine ref ovr at_ s
  | .urgentDue entry => Sys2Proof.Machine.execUrgentDue entry s
  | .wireBreak cause at_ => Sys2Proof.Machine.execWireBreak cause at_ s
  | .breakClear h value => Sys2Proof.Machine.execBreakClear h value s
  | .ilkHoldExpiry out at_ => Sys2Proof.Machine.execIlkHoldExpiry out at_ s
  | .imgBegin h cls header => Sys2Proof.Machine.execImgBegin h cls header s
  | .imgData h off words => Sys2Proof.Machine.execImgData h off words s
  | .imgEnd h cls => Sys2Proof.Machine.execImgEnd h cls s
  | .imgCancel h cls => Sys2Proof.Machine.execImgCancel h cls s
  | .imgRestart h => Sys2Proof.Machine.execImgRestart h s
  | .imgCommit h cls version => Sys2Proof.Machine.execImgCommit h cls version s
  | .imgReject h cls => Sys2Proof.Machine.execImgReject h cls s
  | .transferTimeout => Sys2Proof.Machine.execTransferTimeout s
  | .trialTimeout => Sys2Proof.Machine.execTrialTimeout s
  | .coreRestart => Sys2Proof.Machine.execCoreRestart s
  | .powerGood => Sys2Proof.Machine.execPowerGood s
  | .powerFail under => Sys2Proof.Machine.execPowerFail under s
  | .startSequence env => Sys2Proof.Machine.execStartSequence env s
  | .tileGroupPower group failing => Sys2Proof.Machine.execTileGroupPower group failing s
  | .ready ms => Sys2Proof.Machine.execReady ms s
  | .converterFault die => Sys2Proof.Machine.execConverterFault die s
  | .convFaultClear h value => Sys2Proof.Machine.execConvFaultClear h value s
  | .overLimit die current => Sys2Proof.Machine.execOverLimit die current s
  | .overLimitRecover die => Sys2Proof.Machine.execOverLimitRecover die s
  | .resetAssert => Sys2Proof.Machine.execResetAssert s
  | .resetRelease => Sys2Proof.Machine.execResetRelease s
  | .concHoldWrite h value => Sys2Proof.Machine.execConcHoldWrite h value s
  | .cleanerLock => Sys2Proof.Machine.execCleanerLock s
  | .laneFaultEnd conc lane => Sys2Proof.Machine.execLaneFaultEnd conc lane s
  | .extOkChange ok => Sys2Proof.Machine.execExtOkChange ok s
  | .deadlineCopyExpiry conc at_ => Sys2Proof.Machine.execDeadlineCopyExpiry conc at_ s
  | .testClockEdge rising tms tdi pins => Sys2Proof.Machine.execTestClockEdge rising tms tdi pins s
  | .testLogicReset => Sys2Proof.Machine.execTestLogicReset s

end Sys2Proof.Machine
end

