-- ==== Sys2Proof/Machine/Step.lean ====
section
/-!
DEFINITION. A step of the block: the command at the front of the queue, run with the rest of the queue; on an empty queue
the block idles (assumption 1).
-/

namespace Sys2Proof.Machine

/-- One step. -/
def step (s : State) : Host.Outcome State Fault Refusal :=
  match s.pending with
  | [] => .next s
  | c :: r => exec c { s with pending := r }

/-- The command that a word spells by the table's bits, put at the front of the queue. No row of the table has bits. -/
def State.withFetchWord (s : State) (nbits w : Nat) : State :=
  match Sys2Proof.decodeTableWord nbits w with
  | some c => { s with pending := c :: s.pending }
  | none => s

end Sys2Proof.Machine
end

