-- ==== Sys2Proof/Safety.lean ====
section
/-!
DEFINITION. What a well-formed state of the module is, and when a port's command passes the checks of R379 and is taken:
the terms in which the statements speak.
-/

namespace Sys2Proof.Machine

/-- A well-formed state. The sparse maps are in canonical form, so that equal contents are equal data: keys rise, and no
register, channel or TAC map lists what an unlisted one reads as. The journal holds at most 4096 entries (R389), a page
waits at one place of the event queue (R374), and at most 16 timed triggers are pending (R175). -/
structure State.Wf (s : State) : Prop where
  regs : mapCanon regReset s.regs = true
  chans : mapCanon (fun _ => ({} : Chan)) s.chans = true
  tac : mapCanon (fun _ => (0 : Word)) s.tac = true
  stale : mapWf s.stale = true
  tacStaged : mapWf s.tacStaged = true
  rwsStaged : mapWf s.rwsStaged = true
  frames : mapWf s.frames = true
  lastCorr : mapWf s.lastCorr = true
  scrubs : mapWf s.scrubs = true
  mramCorr : mapWf s.mramCorr = true
  mramTac : mapWf s.mramTac = true
  mramTap : mapWf s.mramTap = true
  journal : s.journal.length ≤ 4096
  events : (s.eventQ.map (·.1)).Nodup
  timed : s.trig.timed.length ≤ 16

/-- Module time as a command finds it, and the port's CMD_CNT with the command counted (R379): the state in which a
command that is not privileged has its effect. -/
def State.counted (s : State) (h : UHdr) : State := (s.arrive h.at_).bump (pgUM h.port) Reg.UM.CMD_CNT 8

/-- AUTH_SEQ takes the sequence number of an accepted privileged command (R381), which then has its effect. -/
def State.authed (s : State) (h : UHdr) : State :=
  ((s.arrive h.at_).put pgJRNL Reg.JRNL.AUTH_SEQ ((h.auth.map (·.seq.toNat)).getD 0)).bump (pgUM h.port) Reg.UM.CMD_CNT 8

/-- The port acts on the command's frame, and DEST, TRUST and form are in order (R376, R377, R379): the command is not
privileged and is taken. -/
def State.takes (s : State) (h : UHdr) (c : UCmd) : Bool :=
  s.hears h.port && decide (h.dest.toNat < 3) && s.forMe h c.words && (s.arrive h.at_).trusted h && !privCode c.code &&
    formResult h c c.words == resOK && (!s.recovery || recoveryCmd c.code)

/-- The same of a privileged command, whose TAG64 and AUTH_SEQ are in order as well (R379, R381). -/
def State.takesAuth (s : State) (h : UHdr) (c : UCmd) : Bool :=
  s.hears h.port && decide (h.dest.toNat < 3) && s.forMe h c.words && (s.arrive h.at_).trusted h && privCode c.code &&
    formResult h c c.words == resOK && (s.arrive h.at_).authResult h c.code c.words == resOK && (!s.recovery || recoveryCmd c.code)

/-- A register that is no word of a window or of a table with staged values (R70, R77, R138). -/
def plainRegister (k : PageKind) (o : Nat) : Bool :=
  !decide (k = .corr ∧ 0x400 ≤ o) && !decide (k = .tdc ∧ 0x400 ≤ o ∧ o < 0x800) && !decide (k = .tdc ∧ 0x100 ≤ o ∧ o < 0x200)

/-- A register none of whose written 1s acts at acceptance (R499; R270 for CMD.GO). -/
def actsAtBoundary (k : PageKind) (o : Nat) : Bool := !immediatePulse k o && !decide (k = .stick ∧ o = 0x048)

/-- The stored value that a write leaves in a register (R405): its setting fields taken and limited, but for RWL fields while
the page is locked (R407). -/
def State.taken (s : State) (k : PageKind) (p o : Nat) (d : RegDef) (v : Word) (rwl : Bool) : Word :=
  fixWord k o (d.take (fun a => a == .rw || (a == .rwl && !(d.hasRwl && !rwl && !s.unlocked p))) (s.rd p o) v)

/-- The result of a command as it is answered and journaled: OFF is answered as REFUSED (R409). -/
def shownResult (r : Nat) : Nat := if r = resOFF then resREFUSED else r

/-- An addressed command gets a result message with its tag, code, result, the sequence number of its journal entry and its
data (R373, R380). -/
def State.answers (s t : State) (h : UHdr) (code result : Nat) (data : List Word) : Prop :=
  h.dest = 0 → ∃ seq, (t.um h.port).results = (s.um h.port).results ++ resultFrags h.tag code result seq data

/-- The place that a command keeps in the queue of its port until its result is known (R374). -/
def heldFrag (tag : Byte) : Frag := { tag := tag, frag := 0, last := true, words := [], held := true }

/-- A command is journaled (R387, R388): under the number that follows HEAD, with its port and master, its code and result,
the page and offset, digest and AUX given, at module time. -/
def State.journals (s t : State) (h : UHdr) (code result : Nat) (l : Nat × Nat × Nat × Nat) : Prop :=
  t.journal = ({ seq := (s.stored pgJRNL Reg.JRNL.HEAD + 1) % 2 ^ 32, time := s.now, port := h.port.idx,
                 master := h.master.toNat, code := code, result := result, page := l.1, off := l.2.1, digest := l.2.2.1,
                 aux := l.2.2.2, poison := false } :: s.journal).take 4096

/-- A register write that stores, as a command finds it while frames run: it reaches the page it names alone (no alias, no
mirroring), whose die answers, and a register there that can be written and is no window word and no word of INC or
SLEW_INC; and no rule of R227, R358, R457 or R475 refuses it. `rwl` says whether it is privileged. -/
structure State.Writes (s : State) (p o : Nat) (v : Word) (rwl : Bool) (k : PageKind) (d : RegDef) : Prop where
  running : s.running = true
  recovery : s.recovery = false
  alone : s.writePages p o = [p]
  kind : pageKind p = some k
  reg : regAt p o = some d
  can : d.canWrite = true
  on : s.dieOff p = false
  plain : plainRegister k o = true
  inc : ¬(k = .timeD ∧ (o = 0x044 ∨ o = 0x04C))
  held : holdsBoth k o (s.taken k p o d v rwl) = false
  frozen : ¬(k = .time ∧ o = 0x048 ∧ s.flag pgTIME Reg.TIME.EPOCH_INIT_FROZEN = true)
  tested : s.testRefused k p o v = false

/-- A write that is not privileged, is taken while frames run, and stores; none of its 1s acts at acceptance. -/
structure State.MayStore (s : State) (h : UHdr) (p o : Nat) (v : Word) (k : PageKind) (d : RegDef) : Prop where
  takes : s.takes h (.write p o v) = true
  writes : (s.counted h).Writes p o v false k d
  waits : actsAtBoundary k o = true

/-- The register is locked against the write: it has RWL fields and its page is not unlocked (R407). -/
def State.shuts (s : State) (p : Nat) (d : RegDef) (rwl : Bool) : Bool := d.hasRwl && !rwl && !s.unlocked p

/-- The lower word of INC or SLEW_INC, which waits for the upper one (R236). -/
def isLoWord (k : PageKind) (o : Nat) : Bool := k == .timeD && (o == 0x040 || o == 0x048)

/-! ### Parts of the state, and what a row may change -/

/-- The Umauf command that a row stands for, where it stands for one: its header, its fields, and what its reads
meet. The rows that write one register are register writes of it. -/
def State.commandOf (s : State) : Instr → Option (UHdr × UCmd × BlockEnv)
  | .smaskClear h chan => some (h, (.write (chPage chan.toNat) (0xC00 + 4 * (chan.toNat % 256)) 0x80000000), {})
  | .injFire h tile block value => some (h, (.write (pgBLOCK tile block) 0x050 (value ||| 0x10000)), {})
  | .ceilWrite h page value => some (h, (.write page.toNat 0x010 value), {})
  | .dllRelock h tile value => some (h, (.write (pgTDC tile) 0x040 (value ||| 0x100)), {})
  | .corrStageWrite h conc off value => some (h, (.write (pgCORR conc) off.toNat value), {})
  | .stageClr h conc => some (h, (.write (pgCORR conc) 0x048 1), {})
  | .shadowDiscard h page => some (h, (.write page.toNat 0x028 1), {})
  | .timedTrigger h coarse fine glean level pre post path =>
    some (h, (.timedTrigger coarse.toNat fine.toNat glean level.toNat pre.toNat post.toNat path.toNat), {})
  | .timedGate h open_ openTap close closeTap =>
    some (h, (.timedGate open_.toNat openTap.toNat close.toNat closeTap.toNat), {})
  | .resendGo h value => some (h, (.write pgTRIG 0x07C (value ||| 0x10000)), {})
  | .resend h first count => some (h, (.resend first.toNat count.toNat), {})
  | .loWordRead h page off => some (h, (.read page.toNat off.toNat), {})
  | .swapGo h value => some (h, (.write pgCALS 0x068 (value ||| 0x80000000)), {})
  | .epochInitWrite h value => some (h, (.write pgTIME 0x048 value), {})
  | .domainSwitch h target sheaf => some (h, (.domainSwitch target sheaf.toNat), {})
  | .swCtrlGo h value => some (h, (.write pgTIME 0x050 (value ||| 0x80000000)), {})
  | .slewStart h domain count => some (h, (.write (pgTIMED domain) 0x050 count), {})
  | .spliceSlewStart h count => some (h, (.write pgTIME 0x064 count), {})
  | .timeSnap h => some (h, (.write pgTIME 0x074 1), {})
  | .stick h op target => some (h, (.stick op.toNat target), {})
  | .stickCmdWrite h value => some (h, (.write pgSTICK 0x048 (value ||| 0x80000000)), {})
  | .freezeReleaseWrite h conc => some (h, (.write (pgDRAM conc) 0x098 1), {})
  | .freezeRelease h conc => some (h, (.freezeRelease (conc == .b)), {})
  | .hostRead h conc => some (h, (.write (pgDRAM conc) 0x0B0 1), {})
  | .threshWrite h page region value => some (h, (.write page.page (0x104 + 16 * region) value), {})
  | .scrubGo h page => some (h, (.write page.page 0x050 1), {})
  | .scrubAbort h page => some (h, (.write page.page 0x050 2), {})
  | .faultClr h page => some (h, (.write page.page (if page = .intg then 0x080 else 0x07C) 1), {})
  | .laneTestWrite h conc lane value => some (h, (.write (pgLANE conc lane) 0x04C value), {})
  | .injOne h conc lane =>
    some (h, (.write (pgLANE conc lane) 0x04C (s.rd (pgLANE conc lane) 0x04C ||| 0x200)), {})
  | .register h serial addr eqd => some (h, (.register serial.toNat addr.toNat eqd.toNat), {})
  | .deregister h => some (h, .deregister, {})
  | .read h page off ecc => some (h, (.read page.toNat off.toNat), { reads := [(off.toNat, ecc)] })
  | .write h page off value => some (h, (.write page.toNat off.toNat value), {})
  | .blockRead h page off count ecc => some (h, (.blockRead page.toNat off.toNat count.toNat), ecc)
  | .unlock h page frames => some (h, (.unlock page.toNat frames.toNat), {})
  | .lock h page => some (h, (.lock page.toNat), {})
  | .authWrite h page off value => some (h, (.authWrite page.toNat off.toNat value), {})
  | .pealBegin h epoch count sheaf => some (h, (.pealBegin epoch.toNat count.toNat sheaf.toNat), {})
  | .pealWrite h index writes => some (h, (.pealWrite index.toNat writes), {})
  | .pealEnd h count crc => some (h, (.pealEnd count.toNat crc), {})
  | .mixedClr h => some (h, (.write pgJRNL 0x058 1), {})
  | .evtEnableWrite h page off value => some (h, (.write page.toNat off.toNat value), {})
  | .counterOvfClear h page value => some (h, (.write page.toNat 0x020 value), {})
  | .cntClr h page off value => some (h, (.write page.toNat off.toNat value), {})
  | .regWriteOther h page off value => some (h, (.write page.toNat off.toNat value), {})
  | .monxStart h value => some (h, (.write pgMADC 0x040 (value ||| 0x10000)), {})
  | .monxStop h value => some (h, (.write pgMADC 0x040 (value ||| 0x20000)), {})
  | .breakClear h value => some (h, (.write pgMONX 0x044 value), {})
  | .imgBegin h cls header => some (h, (.imgBegin cls (wordsBytes (bytesWords 40 header))), {})
  | .imgData h off words => some (h, (.imgData off.toNat words), {})
  | .imgEnd h cls => some (h, (.imgEnd cls), {})
  | .imgCancel h cls => some (h, (.imgCancel cls), {})
  | .imgRestart h => some (h, .imgRestart, {})
  | .imgCommit h cls version => some (h, (.imgCommit cls version.toNat), {})
  | .imgReject h cls => some (h, (.imgReject cls), {})
  | .convFaultClear h value => some (h, (.write pgPWR 0x050 value), {})
  | .concHoldWrite h value => some (h, (.write pgPWR 0x054 value), {})
  | .frameBoundary .. | .leadingEdge .. | .trailingEdge .. | .holdoffExpiry .. | .totSaturation ..
  | .adcConversionDone .. | .gateApply .. | .stuckTimerExpiry .. | .blankingEnd .. | .injectionLaunch ..
  | .injBlindExpiry .. | .idleExpiry .. | .tilePowerRemoval .. | .tilePowerUp .. | .tileResume .. | .dllLock ..
  | .dllUnlock .. | .promotionDecision .. | .emitFrameClosed .. | .portCut .. | .lateWordAck .. | .correctRecord ..
  | .frameClosedToken .. | .resumeToken .. | .sideItem .. | .horizonExpiry .. | .sheafForm .. | .extentTimeout ..
  | .govRaiseStep .. | .govLowerStep .. | .dealGrain .. | .trigPinEdge .. | .triggerDelivery | .gatePinChange ..
  | .gateEdgeAccept .. | .gleanSheafForm .. | .resendSheaf .. | .turnAccumEnd | .engineStage | .swapCommit
  | .swapBoundary | .restoringSwapRequest .. | .superframeMarker .. | .acqTimeout | .cdrUnlock .. | .markerMissing ..
  | .domainSwitchBoundary | .slewDone .. | .spliceSlewEnd | .crosslinkMessage .. | .leaseLapse .. | .guardEnd ..
  | .takeStart .. | .laneExitIdle .. | .rejoin .. | .joinSheafChoose | .agePromotion .. | .pageIdleClose ..
  | .demandWindow .. | .freqChangeDone .. | .refreshDue .. | .postponedRefresh .. | .tempSample .. | .retrainDue ..
  | .channelRetire .. | .dramFreeze .. | .hostReadDone .. | .bucketLeak .. | .tmrRefresh .. | .scrubWord ..
  | .fwScrubSlot .. | .maskLoad | .laneFault .. | .checkerLock .. | .checkerLockLost .. | .downstreamFrame ..
  | .upstreamBurst .. | .discoveryAnswer .. | .discoveryRetry .. | .registrationLoss .. | .unlockExpiry ..
  | .pealAssemblyTimeout .. | .pealCommit | .pealApply | .visitSwitchDone | .conversionResult .. | .urgentDue ..
  | .wireBreak .. | .ilkHoldExpiry .. | .transferTimeout | .trialTimeout | .coreRestart | .powerGood | .powerFail ..
  | .startSequence .. | .tileGroupPower .. | .ready .. | .converterFault .. | .overLimit .. | .overLimitRecover ..
  | .resetAssert | .resetRelease | .cleanerLock | .laneFaultEnd .. | .extOkChange .. | .deadlineCopyExpiry ..
  | .testClockEdge .. | .testLogicReset => none

/-- The register write that a row stands for, where it stands for one: its header, page, offset and value. -/
def State.registerWrite (s : State) (c : Instr) : Option (UHdr × Nat × Nat × Word) :=
  match s.commandOf c with
  | some (h, .write p o v, _) => some (h, p, o, v)
  | _ => none

/-- The parts of the state, named as its fields are. -/
inductive Part where
  | now | frame | running | regs | stale | pendW | eventQ | chans | tiles | tac | tacStaged | tacPoison | rwsStaged
  | concA | concB | frames | trig | time | lastCorr | scrubs | writeBacks | integ | stick | cal | mon | fwu | pow | tap
  | um0 | um1 | peal | mixedFrom | unlocks | journal | saved | savedStaged | savedTac | jseq | savedEpoch
  | savedCorr | mramCorr | mramTac | mramTap | freeCount | pending
  deriving DecidableEq, Repr

/-- A part of the module is in `t` as it is in `s`. -/
def State.same (s t : State) : Part → Prop
  | .now => t.now = s.now
  | .frame => t.frame = s.frame
  | .running => t.running = s.running
  | .regs => t.regs = s.regs
  | .stale => t.stale = s.stale
  | .pendW => t.pendW = s.pendW
  | .eventQ => t.eventQ = s.eventQ
  | .chans => t.chans = s.chans
  | .tiles => t.tiles = s.tiles
  | .tac => t.tac = s.tac
  | .tacStaged => t.tacStaged = s.tacStaged
  | .tacPoison => t.tacPoison = s.tacPoison
  | .rwsStaged => t.rwsStaged = s.rwsStaged
  | .concA => t.concA = s.concA
  | .concB => t.concB = s.concB
  | .frames => t.frames = s.frames
  | .trig => t.trig = s.trig
  | .time => t.time = s.time
  | .lastCorr => t.lastCorr = s.lastCorr
  | .scrubs => t.scrubs = s.scrubs
  | .writeBacks => t.writeBacks = s.writeBacks
  | .integ => t.integ = s.integ
  | .stick => t.stick = s.stick
  | .cal => t.cal = s.cal
  | .mon => t.mon = s.mon
  | .fwu => t.fwu = s.fwu
  | .pow => t.pow = s.pow
  | .tap => t.tap = s.tap
  | .um0 => t.um0 = s.um0
  | .um1 => t.um1 = s.um1
  | .peal => t.peal = s.peal
  | .mixedFrom => t.mixedFrom = s.mixedFrom
  | .unlocks => t.unlocks = s.unlocks
  | .journal => t.journal = s.journal
  | .saved => t.saved = s.saved
  | .savedStaged => t.savedStaged = s.savedStaged
  | .savedTac => t.savedTac = s.savedTac
  | .jseq => t.jseq = s.jseq
  | .savedEpoch => t.savedEpoch = s.savedEpoch
  | .savedCorr => t.savedCorr = s.savedCorr
  | .mramCorr => t.mramCorr = s.mramCorr
  | .mramTac => t.mramTac = s.mramTac
  | .mramTap => t.mramTap = s.mramTap
  | .freeCount => t.freeCount = s.freeCount
  | .pending => t.pending = s.pending

/-- Nothing but the parts listed differs. -/
def State.changesOnly (l : List Part) (s t : State) : Prop := ∀ p : Part, p ∉ l → s.same t p

/-- Every part but those listed. -/
def allBut (l : List Part) : List Part :=
  [.now, .frame, .running, .regs, .stale, .pendW, .eventQ, .chans, .tiles, .tac, .tacStaged, .tacPoison,
   .rwsStaged, .concA, .concB, .frames, .trig, .time, .lastCorr, .scrubs, .writeBacks, .integ, .stick, .cal, .mon,
   .fwu, .pow, .tap, .um0, .um1, .peal, .mixedFrom, .unlocks, .journal, .saved, .savedStaged, .savedTac, .jseq,
   .savedEpoch, .savedCorr, .mramCorr, .mramTac, .mramTap, .freeCount, .pending].filter
    (fun p => !l.contains p)

/-- The parts that counting, journaling and answering a command changes: module time, registers, queued events and results,
and the journal. -/
def answering : List Part := [.now, .regs, .stale, .eventQ, .journal, .jseq, .um0, .um1]

/-- The parts of the state that a row may change; of a command, while frames run. -/
def touches : Instr → List Part
  | .frameBoundary .. =>
    allBut [.running, .tac, .tacPoison, .writeBacks, .fwu, .tap, .peal, .savedEpoch, .mramCorr, .mramTac,
      .mramTap, .pending]
  | .leadingEdge .. => [.now, .regs, .stale, .chans, .tiles]
  | .trailingEdge .. | .holdoffExpiry .. | .totSaturation .. => [.now, .regs, .stale, .eventQ, .chans, .tiles, .cal]
  | .adcConversionDone .. => [.regs, .stale, .eventQ, .chans, .tiles, .tacPoison, .lastCorr, .cal]
  | .gateApply .. => [.now, .regs, .stale, .chans, .tiles, .trig]
  | .stuckTimerExpiry .. => [.now, .regs, .stale, .eventQ, .chans]
  | .smaskClear .. | .injFire .. | .ceilWrite .. | .dllRelock .. | .corrStageWrite .. | .stageClr ..
  | .shadowDiscard .. | .resendGo .. | .swapGo .. | .epochInitWrite .. | .swCtrlGo .. | .slewStart ..
  | .spliceSlewStart .. | .timeSnap .. | .stickCmdWrite .. | .freezeReleaseWrite .. | .hostRead .. | .threshWrite ..
  | .scrubGo .. | .scrubAbort .. | .faultClr .. | .laneTestWrite .. | .injOne .. | .write .. | .authWrite ..
  | .mixedClr .. | .evtEnableWrite .. | .counterOvfClear .. | .cntClr .. | .regWriteOther .. | .monxStart ..
  | .monxStop .. | .breakClear .. | .convFaultClear .. | .concHoldWrite .. =>
    answering ++ [.pendW, .tacStaged, .rwsStaged, .concA, .concB, .trig, .time, .scrubs, .stick, .cal, .saved,
      .savedStaged, .savedTac, .savedCorr]
  | .blankingEnd .. => [.now, .regs, .stale, .chans]
  | .injectionLaunch .. => [.regs, .stale, .chans, .cal]
  | .injBlindExpiry .. => [.now, .regs, .stale, .chans, .cal]
  | .idleExpiry .. | .govLowerStep .. | .laneFaultEnd .. => [.regs, .stale]
  | .tilePowerRemoval .. =>
    [.regs, .stale, .pendW, .eventQ, .chans, .tiles, .tac, .tacStaged, .tacPoison, .rwsStaged, .unlocks]
  | .tilePowerUp .. =>
    allBut [.saved, .jseq, .savedEpoch, .savedCorr, .mramCorr, .mramTac, .mramTap, .freeCount, .pending]
  | .tileResume .. => [.tiles]
  | .dllLock .. => [.regs, .stale, .tiles]
  | .dllUnlock .. => [.regs, .stale, .eventQ, .chans, .tiles]
  | .promotionDecision .. => [.now, .regs, .stale, .eventQ, .tiles]
  | .emitFrameClosed .. | .portCut .. => [.regs, .stale, .eventQ, .tiles]
  | .lateWordAck .. => [.regs, .stale, .eventQ, .tiles, .concA, .concB]
  | .correctRecord .. | .sideItem .. => [.regs, .stale, .eventQ, .tiles, .concA, .concB, .lastCorr, .cal, .freeCount]
  | .frameClosedToken .. => [.regs, .stale, .tiles, .concA, .concB, .cal]
  | .resumeToken .. => [.regs, .stale, .eventQ, .tiles, .concA, .concB, .cal]
  | .horizonExpiry .. | .govRaiseStep .. | .laneFault .. => [.regs, .stale, .eventQ]
  | .sheafForm .. | .swapCommit | .crosslinkMessage .. | .joinSheafChoose =>
    [.regs, .stale, .eventQ, .tacStaged, .rwsStaged, .concA, .concB, .cal, .journal]
  | .extentTimeout .. => [.regs, .stale, .eventQ, .concA, .concB, .lastCorr]
  | .dealGrain .. | .gleanSheafForm .. | .resendSheaf .. =>
    [.now, .regs, .stale, .eventQ, .tacStaged, .rwsStaged, .concA, .concB, .lastCorr, .scrubs, .cal, .journal,
      .freeCount]
  | .trigPinEdge .. | .gatePinChange .. => [.now, .regs, .stale, .trig]
  | .timedTrigger .. | .timedGate .. | .resend .. => answering ++ [.trig]
  | .triggerDelivery => [.now, .regs, .stale, .eventQ, .concA, .concB, .frames, .trig]
  | .gateEdgeAccept .. => [.now, .regs, .stale, .tiles, .trig]
  | .loWordRead .. | .read .. => answering ++ [.tacPoison, .concA, .concB, .time, .lastCorr, .cal, .freeCount]
  | .turnAccumEnd => [.regs, .stale, .eventQ, .cal, .freeCount]
  | .engineStage => [.regs, .stale, .eventQ, .tacStaged, .rwsStaged, .concA, .concB, .cal]
  | .swapBoundary =>
    [.regs, .stale, .eventQ, .tiles, .tac, .tacStaged, .tacPoison, .rwsStaged, .concA, .concB, .frames, .cal,
      .fwu, .journal, .jseq, .savedEpoch, .savedCorr, .mramCorr, .mramTac, .mramTap]
  | .restoringSwapRequest .. => [.regs, .stale, .eventQ, .concA, .concB, .cal, .journal, .jseq]
  | .superframeMarker .. =>
    [.now, .frame, .running, .regs, .stale, .eventQ, .tiles, .concA, .concB, .frames, .trig, .time, .cal, .um0,
      .um1, .mixedFrom, .unlocks, .saved, .freeCount]
  | .acqTimeout =>
    [.now, .frame, .running, .regs, .stale, .eventQ, .tiles, .concA, .concB, .frames, .trig, .time, .cal,
      .mixedFrom, .unlocks]
  | .cdrUnlock .. | .markerMissing .. => [.regs, .stale, .eventQ, .frames, .time, .um0, .um1]
  | .domainSwitch .. => answering ++ [.time]
  | .domainSwitchBoundary => [.regs, .stale, .eventQ, .tiles, .frames, .trig, .time, .journal]
  | .slewDone .. => [.regs, .stale, .eventQ, .time]
  | .spliceSlewEnd => [.regs, .stale, .eventQ, .frames, .time]
  | .leaseLapse .. => [.now, .regs, .stale, .eventQ, .concA, .concB, .stick, .journal]
  | .guardEnd .. => [.now, .regs, .stale, .eventQ, .concA, .concB, .stick, .um0, .um1, .journal]
  | .stick .. => answering ++ [.stick]
  | .takeStart .. | .tempSample .. | .retrainDue .. | .maskLoad | .checkerLock .. | .checkerLockLost .. =>
    [.regs, .stale, .eventQ, .concA, .concB]
  | .laneExitIdle .. | .agePromotion .. | .deadlineCopyExpiry .. => [.now, .regs, .stale, .concA, .concB]
  | .rejoin .. =>
    allBut [.savedStaged, .savedTac, .jseq, .savedEpoch, .savedCorr, .mramCorr, .mramTac, .mramTap, .pending]
  | .pageIdleClose .. | .postponedRefresh .. => [.concA, .concB]
  | .demandWindow .. | .refreshDue .. => [.regs, .stale, .concA, .concB]
  | .freqChangeDone .. | .hostReadDone .. => [.regs, .stale, .eventQ, .concA, .concB, .lastCorr, .freeCount]
  | .channelRetire .. => [.regs, .stale, .eventQ, .concA, .concB, .scrubs]
  | .dramFreeze .. => [.regs, .stale, .eventQ, .tacStaged, .rwsStaged, .concA, .concB, .scrubs, .cal, .journal]
  | .freezeRelease .. => answering ++ [.pendW]
  | .bucketLeak .. => [.now, .regs, .stale, .integ]
  | .tmrRefresh .. => [.regs, .stale, .eventQ, .lastCorr]
  | .scrubWord .. | .upstreamBurst .. | .trialTimeout | .coreRestart | .powerFail .. | .converterFault ..
  | .overLimit .. | .resetAssert =>
    allBut [.saved, .savedStaged, .savedTac, .jseq, .savedEpoch, .savedCorr, .mramCorr, .mramTac, .mramTap,
      .freeCount, .pending]
  | .fwScrubSlot .. =>
    allBut [.now, .frame, .running, .tac, .frames, .writeBacks, .fwu, .tap, .um0, .um1, .peal, .mixedFrom,
      .savedEpoch, .mramCorr, .mramTac, .mramTap, .pending]
  | .downstreamFrame .. => allBut [.savedEpoch, .mramCorr, .mramTac, .mramTap, .pending]
  | .discoveryAnswer .. => [.um0, .um1]
  | .discoveryRetry .. => [.regs, .stale, .um0, .um1, .freeCount]
  | .registrationLoss .. => [.regs, .stale, .eventQ, .um0, .um1, .freeCount]
  | .register .. => answering
  | .deregister .. | .pealWrite .. => answering ++ [.freeCount]
  | .blockRead .. =>
    allBut [.saved, .savedStaged, .savedTac, .savedEpoch, .savedCorr, .mramCorr, .mramTac, .mramTap, .pending]
  | .unlock .. | .lock .. => answering ++ [.unlocks]
  | .unlockExpiry .. => [.unlocks]
  | .pealBegin .. => answering ++ [.mixedFrom, .freeCount]
  | .pealEnd .. => answering ++ [.tacStaged, .rwsStaged, .concA, .concB, .cal, .peal, .mixedFrom, .freeCount]
  | .pealAssemblyTimeout .. => [.regs, .stale, .eventQ, .um0, .um1, .mixedFrom, .journal, .freeCount]
  | .pealCommit => [.regs, .stale, .eventQ, .peal, .mixedFrom, .journal, .freeCount]
  | .pealApply =>
    allBut [.now, .frame, .running, .lastCorr, .writeBacks, .stick, .tap, .um0, .um1, .mixedFrom, .pending]
  | .visitSwitchDone | .urgentDue .. | .extOkChange .. => [.regs, .stale, .eventQ, .mon]
  | .conversionResult .. => [.now, .regs, .stale, .eventQ, .mon, .freeCount]
  | .wireBreak .. => [.now, .regs, .stale, .eventQ, .mon]
  | .ilkHoldExpiry .. => [.now, .regs, .stale, .eventQ]
  | .imgBegin .. | .imgData .. | .imgEnd .. | .imgCancel .. | .imgCommit .. => answering ++ [.fwu]
  | .imgRestart .. => answering ++ [.pow]
  | .imgReject .. => answering ++ [.fwu, .pow]
  | .transferTimeout => [.regs, .stale, .fwu]
  | .powerGood | .overLimitRecover .. | .resetRelease => [.regs, .stale, .pow]
  | .startSequence .. => allBut [.mramCorr, .mramTac, .mramTap, .pending]
  | .tileGroupPower .. => allBut [.saved, .jseq, .savedEpoch, .savedCorr, .mramCorr, .mramTac, .mramTap, .pending]
  | .ready .. => [.regs, .stale, .eventQ, .concA, .concB, .stick]
  | .cleanerLock => [.regs, .stale, .freeCount]
  | .testClockEdge .. => [.tap, .freeCount]
  | .testLogicReset => [.tap]

/-- The registers that counting and journaling a command's outcome writes. -/
def answerKeys : List (Nat × Nat) :=
  [(pgMOD, Reg.MOD.LOCK_REJ_CNT.off), (pgMOD, Reg.MOD.ADDR_ERR_CNT.off), (pgMOD, Reg.MOD.OFF_REJ_CNT.off),
   (pgMOD, Reg.HDR.COUNTER_OVF.off), (pgMOD, Reg.HDR.EVT_PENDING.off), (pgJRNL, Reg.JRNL.HEAD.off),
   (pgJRNL, Reg.JRNL.TAIL.off), (pgJRNL, Reg.JRNL.MIRROR_TAIL.off)]

/-- The stored value of a register, and its value in force, are those of before. -/
def State.SameReg (s t : State) (q o : Nat) : Prop := t.rd q o = s.rd q o ∧ t.live q o = s.live q o

/-- A command that found the module in state `v` is answered with a result, and journaled with it; it changes nothing but the
parts listed, and no register but those that count and journal commands. -/
structure State.Answering (v t : State) (h : UHdr) (u : UCmd) (result : Nat) (l : List Part) : Prop where
  answer : v.answers t h u.code result []
  entry : v.journals t h u.code result (logOf h u u.words)
  parts : v.changesOnly (answering ++ l) t
  regs : ∀ q o, o < 4096 → (q, o) ∉ answerKeys → v.SameReg t q o

/-- What a write leaves that found the module in state `v` (R404, R405, R407). The register holds the limited value of the
fields that may be written, while the value in force stays until the boundary; the written 1s wait for the boundary after
those that wait already; no other register differs but for those that count and journal commands and ERR_SUMMARY of the
page where RWL fields are locked. It is answered OK, or LOCKED where RWL fields are locked, and journaled with the value's digest. -/
structure State.StoredBy (v t : State) (h : UHdr) (code p o : Nat) (w : Word) (k : PageKind) (d : RegDef) (rwl : Bool) : Prop where
  value : o ∉ [Reg.HDR.COUNTER_OVF.off, Reg.HDR.EVT_PENDING.off, Reg.HDR.ERR_SUMMARY.off] →
    t.rd p o = v.taken k p o d w rwl ∧
    (immediateReg k o = false → v.taken k p o d w rwl ≠ v.rd p o → t.live p o = v.live p o)
  ones : t.pendW.map (fun x => (x.page, x.off, x.value)) = v.pendW.map (fun x => (x.page, x.off, x.value)) ++
    (if writtenOnes k o d w (v.shuts p d rwl) = 0 ∨ immediatePulse k o = true then []
      else [(p, o, writtenOnes k o d w (v.shuts p d rwl))])
  others : ∀ q u, u < 4096 → q ∉ [pgMOD, pgJRNL, pgFWU] →
    (q ≠ p ∨ u ≠ o ∧ (v.shuts p d rwl = true → u ≠ Reg.HDR.ERR_SUMMARY.off)) → v.SameReg t q u
  answer : v.answers t h code (if v.shuts p d rwl then resLOCKED else resOK) []
  entry : v.journals t h code (if v.shuts p d rwl then resLOCKED else resOK) (p, o, digestOf w, 0)
  parts : v.changesOnly (answering ++ .pendW :: .saved :: if isLoWord k o then [.time] else []) t

/-- A write of a register that is not privileged, is taken and stores whole: no RWL field of the register is locked. -/
structure State.Lands (s : State) (h : UHdr) (p o : Nat) (v : Word) (k : PageKind) (d : RegDef) : Prop where
  takes : s.takes h (.write p o v) = true
  writes : (s.counted h).Writes p o v false k d
  free : (d.hasRwl && !(s.counted h).unlocked p) = false

/-- A write that is answered OK and journaled, and changes nothing but the parts listed, what a command's answer changes and
the record of settings. -/
structure State.Written (s t : State) (h : UHdr) (p o : Nat) (v : Word) (l : List Part) : Prop where
  answer : s.answers t h 0x02 resOK []
  entry : (s.counted h).journals t h 0x02 resOK (p, o, digestOf v, 0)
  parts : s.changesOnly (answering ++ .saved :: l) t

/-- What the registers of a block read as in ascending order, each read latching as R186 says. -/
def State.readWords (p : Nat) : Nat → Nat → State → List Word
  | 0, _, _ => []
  | n + 1, o, s => s.readReg p o :: State.readWords p n (o + 4) (s.latchRead p o)

/-- No register but those listed differs, in its stored value or in force. -/
def State.keepsRegs (l : List (Nat × Nat)) (s t : State) : Prop := ∀ q o, o < 4096 → (q, o) ∉ l → s.SameReg t q o

/-- Registers of none but the pages listed differ. -/
def State.keepsPages (l : List Nat) (s t : State) : Prop := ∀ q o, o < 4096 → q ∉ l → s.SameReg t q o

/-- A record of a frame finds room: its cell queue holds fewer than 16 (R81), and each port of the tile is open for its side item,
cut by nothing (R102) and with space for it (R100). -/
def State.hasRoom (s : State) (tl : Fin 16) (r : BitVec 52) (lead : Nat) : Prop :=
  ((s.tile tl).waiting (recChan r / 16)).length < 16 ∧
    ∀ c : Conc, (s.port tl c).cut = false ∧ (s.port tl c).since ≤ frameOfTap lead ∧ (s.port tl c).side.length < 768

/-- A decided record has joined its cell queue (R81), and its side item what waits on each of the tile's two ports (R99); the
record has not reached a port buffer. -/
def State.sends (s t : State) (tl : Fin 16) (r : BitVec 52) (lead : Nat) (side : BitVec 32) : Prop :=
  (t.tile tl).waiting (recChan r / 16) = (s.tile tl).waiting (recChan r / 16) ++ [(r, lead)] ∧
    ∀ c : Conc, (t.port tl c).items = (s.port tl c).items ∧ (t.port tl c).side = (s.port tl c).side ++ [side]

/-- The registers of PWR_STATE on a channel's path (R17). -/
def wakeRegs (chan : Nat) : List (Nat × Nat) :=
  [pgMOD, pgTILE (chTile chan), chPage chan].map (fun p => (p, Reg.HDR.PWR_STATE.off))

/-- A concentrator corrects, merges and sends: powered, forming sheaves, and in LISTEN or RUN (R16, R22). -/
def State.mergeOn (s : State) (c : Conc) : Bool := s.powered && (s.conc c).merging && decide (2 ≤ s.pwr (pgMERGE c))

/-- An event of the belfry is journaled (R387, R388): under the number that follows HEAD, with PORT 0b10, MASTER 0, result OK,
digest and AUX 0, at a time. -/
def State.journalsEvent (s t : State) (code page off time : Nat) : Prop :=
  t.journal = ({ seq := (s.stored pgJRNL Reg.JRNL.HEAD + 1) % 2 ^ 32, time := time, port := 2, master := 0, code := code,
                 result := resOK, page := page, off := off, digest := 0, aux := 0, poison := false } :: s.journal).take 4096

/-- A concentrator's lanes are in electrical idle and nothing is sent (R268, R355): a lane in test stays in test mode, but nothing of
it reaches the pins (R359). -/
structure State.LanesIdle (t : State) (c : Conc) : Prop where
  states : ∀ l : Fin 64, t.laneState c l = 0 ∨ t.laneState c l = 4 ∧ t.flag (pgLANE c l) Reg.LANE.TEST_GEN_EN = true
  pins : t.mayDrive c = false
  sending : (t.conc c).sending = false
  deadline : (t.conc c).deadline = none

/-- Counters of a page that would not pass their 32-bit maximum by adding n (R336). -/
def State.below (s : State) (page : Nat) (l : List FieldRef) (n : Nat) : Prop := ∀ f ∈ l, s.stored page f + n < 2 ^ 32

end Sys2Proof.Machine
end

