-- ==== Sys2Proof/WellFormed.lean ====
section
/-!
DEFINITION. Which commands are well formed: the lengths, authentication words and destinations of R377, R378 and R449, and
the operand ranges that the types do not give.
-/

namespace Sys2Proof

/-- The header of a command with a body of `words` words: LEN counts them, and the three of AUTH_SEQ and TAG64 where it
is privileged; DEST is 0, by `dest` 1 also broadcast, or by `dest` 2 by serial alone (R377, R378). -/
def UHdr.carries (h : UHdr) (words : Nat) (privileged : Bool) (dest : Nat) : Bool :=
  h.len == words + (if privileged then 3 else 0) && decide (h.len ≤ 100) && h.auth.isSome == privileged &&
    (match dest with
     | 0 => h.dest == 0
     | 1 => h.dest == 0 || h.dest == 1
     | _ => h.dest == 2)

/-- A page's bucket table has the region: 24 of DINTG (R341), 36 of INTG (R343). -/
def IntPage.hasRegion : IntPage → Nat → Bool
  | .dintg _, r => decide (r < 24)
  | .intg, r => decide (r < 36)

/-- An offset in the CORR window (R138). -/
def windowOff (off : BitVec 16) : Bool := decide (0x400 ≤ off.toNat) && decide (off.toNat < 0x800) && off.toNat % 4 == 0

/-- The well-formed commands and events. -/
def Instr.wellFormed : Instr → Bool
  | .frameBoundary _ _ => true
  | .leadingEdge _ _ => true
  | .trailingEdge _ _ _ => true
  | .holdoffExpiry _ _ _ => true
  | .totSaturation _ _ _ => true
  | .adcConversionDone _ _ _ _ => true
  | .gateApply _ => true
  | .stuckTimerExpiry _ _ => true
  | .smaskClear h _ => h.carries 2 false 1
  | .blankingEnd _ _ => true
  | .injectionLaunch _ _ => true
  | .injBlindExpiry _ _ => true
  | .injFire h _ _ _ => h.carries 2 false 1
  | .idleExpiry _ => true
  | .ceilWrite h _ _ => h.carries 2 false 1
  | .tilePowerRemoval _ => true
  | .tilePowerUp _ _ => true
  | .tileResume _ => true
  | .dllLock _ => true
  | .dllUnlock _ => true
  | .dllRelock h _ _ => h.carries 2 false 1
  | .promotionDecision _ _ _ => true
  | .emitFrameClosed _ => true
  | .portCut _ _ => true
  | .lateWordAck _ _ => true
  | .correctRecord _ _ _ _ _ => true
  | .frameClosedToken _ _ => true
  | .resumeToken _ _ => true
  | .sideItem _ _ _ _ => true
  | .horizonExpiry _ _ => true
  | .sheafForm _ => true
  | .extentTimeout _ _ => true
  | .govRaiseStep _ _ => true
  | .govLowerStep _ _ => true
  | .corrStageWrite h _ off _ => h.carries 2 false 1 && windowOff off
  | .stageClr h _ => h.carries 2 false 1
  | .shadowDiscard h _ => h.carries 2 false 1
  | .dealGrain _ _ _ => true
  | .trigPinEdge _ _ _ => true
  | .timedTrigger h _ _ _ _ _ _ _ => h.carries 4 false 1
  | .triggerDelivery => true
  | .gatePinChange _ _ _ => true
  | .gateEdgeAccept _ _ => true
  | .timedGate h _ _ _ _ => h.carries 4 false 1
  | .gleanSheafForm _ _ _ => true
  | .resendGo h _ => h.carries 2 false 1
  | .resend h _ _ => h.carries 2 false 0
  | .resendSheaf _ _ _ => true
  | .loWordRead h _ _ => h.carries 1 false 0
  | .turnAccumEnd => true
  | .engineStage => true
  | .swapGo h _ => h.carries 2 false 1
  | .swapCommit => true
  | .swapBoundary => true
  | .restoringSwapRequest _ _ => true
  | .epochInitWrite h _ => h.carries 2 false 1
  | .superframeMarker _ _ _ _ => true
  | .acqTimeout => true
  | .cdrUnlock _ => true
  | .markerMissing _ => true
  | .domainSwitch h _ _ => h.carries 2 true 0
  | .swCtrlGo h _ => h.carries 2 false 1
  | .domainSwitchBoundary => true
  | .slewStart h _ _ => h.carries 2 false 1
  | .slewDone _ => true
  | .spliceSlewStart h _ => h.carries 2 false 1
  | .spliceSlewEnd => true
  | .timeSnap h => h.carries 2 false 1
  | .crosslinkMessage _ => true
  | .leaseLapse _ => true
  | .guardEnd _ => true
  | .stick h _ _ => h.carries 1 true 0
  | .stickCmdWrite h _ => h.carries 2 false 1
  | .takeStart _ => true
  | .laneExitIdle _ _ => true
  | .rejoin _ _ _ => true
  | .joinSheafChoose => true
  | .agePromotion _ _ cls => decide (3 ≤ cls.cls) && decide (cls.cls ≤ 5)
  | .pageIdleClose _ _ _ => true
  | .demandWindow _ _ _ => true
  | .freqChangeDone _ => true
  | .refreshDue _ _ _ => true
  | .postponedRefresh _ _ _ => true
  | .tempSample _ _ => true
  | .retrainDue _ _ _ => true
  | .channelRetire _ _ => true
  | .dramFreeze _ _ _ _ _ _ _ _ _ => true
  | .freezeReleaseWrite h _ => h.carries 2 false 1
  | .freezeRelease h _ => h.carries 1 false 0
  | .hostRead h _ => h.carries 2 false 1
  | .hostReadDone _ _ => true
  | .bucketLeak page region => page.hasRegion region.region
  | .threshWrite h page region _ => h.carries 2 false 1 && page.hasRegion region
  | .tmrRefresh _ _ => true
  | .scrubGo h _ => h.carries 2 false 1
  | .scrubAbort h _ => h.carries 2 false 1
  | .scrubWord _ _ _ => true
  | .fwScrubSlot _ _ => true
  | .faultClr h _ => h.carries 2 false 1
  | .maskLoad => true
  | .laneFault _ _ _ => true
  | .laneTestWrite h _ _ _ => h.carries 2 false 1
  | .injOne h _ _ => h.carries 2 false 1
  | .checkerLock _ _ => true
  | .checkerLockLost _ _ _ _ => true
  | .downstreamFrame _ _ word0 word1 _ _ => word0.length == 254 && word1.length == 254
  | .upstreamBurst _ => true
  | .discoveryAnswer _ => true
  | .discoveryRetry _ => true
  | .registrationLoss _ => true
  | .register h _ _ _ => h.carries 3 false 2
  | .deregister h => h.carries 0 false 1
  | .read h _ _ _ => h.carries 1 false 0
  | .write h _ _ _ => h.carries 2 false 1
  | .blockRead h _ _ _ _ => h.carries 2 false 0
  | .unlock h _ _ => h.carries 1 true 0
  | .lock h _ => h.carries 1 false 1
  | .authWrite h _ _ _ => h.carries 2 true 0
  | .unlockExpiry _ => true
  | .pealBegin h _ _ _ => h.carries 2 false 1
  | .pealWrite h _ writes => h.carries (1 + 2 * writes.length) false 1 && decide (writes.length ≤ 49)
  | .pealEnd h _ _ => h.carries 2 false 1
  | .pealAssemblyTimeout _ => true
  | .pealCommit => true
  | .pealApply => true
  | .mixedClr h => h.carries 2 false 1
  | .evtEnableWrite h _ _ _ => h.carries 2 false 1
  | .counterOvfClear h _ _ => h.carries 2 false 1
  | .cntClr h _ _ _ => h.carries 2 false 1
  | .regWriteOther h _ _ _ => h.carries 2 false 1
  | .monxStart h _ => h.carries 2 false 1
  | .monxStop h _ => h.carries 2 false 1
  | .visitSwitchDone => true
  | .conversionResult _ _ _ _ _ _ => true
  | .urgentDue _ => true
  | .wireBreak _ _ => true
  | .breakClear h _ => h.carries 2 false 1
  | .ilkHoldExpiry _ _ => true
  | .imgBegin h _ header => h.carries 41 true 0 && header.length == 160
  | .imgData h _ words => h.carries (1 + words.length) true 0 && decide (1 ≤ words.length) && decide (words.length ≤ 96)
  | .imgEnd h _ => h.carries 1 true 0
  | .imgCancel h _ => h.carries 1 true 0
  | .imgRestart h => h.carries 1 true 0
  | .imgCommit h _ _ => h.carries 2 true 0
  | .imgReject h _ => h.carries 1 true 0
  | .transferTimeout => true
  | .trialTimeout => true
  | .coreRestart => true
  | .powerGood => true
  | .powerFail _ => true
  | .startSequence _ => true
  | .tileGroupPower _ _ => true
  | .ready _ => true
  | .converterFault _ => true
  | .convFaultClear h _ => h.carries 2 false 1
  | .overLimit _ _ => true
  | .overLimitRecover _ => true
  | .resetAssert => true
  | .resetRelease => true
  | .concHoldWrite h _ => h.carries 2 false 1
  | .cleanerLock => true
  | .laneFaultEnd _ _ => true
  | .extOkChange _ => true
  | .deadlineCopyExpiry _ _ => true
  | .testClockEdge _ _ _ _ => true
  | .testLogicReset => true

end Sys2Proof
end

