-- ==== Sys2Proof/Certificates/Slice0/Obligations.lean ====
section
/-!
DEFINITION. The statements for the provers.
-/

open Sys2Proof Sys2Proof.Machine

/-! ### The queue of commands, and reset -/

/-- A step takes the command at the front of the queue: it is that command's effect on the state that holds the rest. -/
def Obligations.StepRunsTheFrontCommand : Prop :=
  ∀ (c : Instr) (rest : List Instr) (s : State),
    step { s with pending := c :: rest } = exec c { s with pending := rest }

/-- On an empty queue the block idles: the model's choice, log entry 1. -/
def Obligations.EmptyQueueIdles : Prop :=
  ∀ s : State, s.pending = [] → step s = .next s

/-- The state after reset is well formed, and no command waits in it. -/
def Obligations.ResetIsWellFormed : Prop :=
  State.reset.Wf ∧ State.reset.pending = []

/-- Every step keeps a state well formed: its maps stay in canonical form, the journal holds at most 4096 entries (R389), a
page waits at one place of the event queue (R374), at most 16 timed triggers are pending (R175). -/
def Obligations.EveryStepKeepsStatesWellFormed : Prop :=
  ∀ s t : State, s.Wf → step s = .next t → t.Wf

/-- No command touches the queue of those that wait: a step removes its own and nothing else. -/
def Obligations.CommandsLeaveTheQueueAlone : Prop :=
  (∀ (c : Instr) (s t : State), exec c s = .next t → t.pending = s.pending) ∧
  ∀ s t : State, step s = .next t → t.pending = s.pending.tail

/-- Registers after reset hold the values that the register tables give: on every page of a kind, the entries of each register
whose reset value is not zero (R49, R52, R77, R106, R108, R135, R140, R197, R199, R225, R251, R254, R282, R284, R314, R316, R339,
R343, R364, R392, R394, R415, R440, R442, R444, R477); TAP_POS[k] holds 0x200 × k (R77); and PAGE_ID and PAGE_REV name the page
(R399-R401), whose EVT_ON is 1 and whose PWR_STATE has IDLE_US 0x010, STATE OFF and CEIL RUN on the MOD, MERGE and block pages
alone (R400, R402). -/
def Obligations.ResetRegisters : Prop :=
  (∀ (p : Nat) (e : PageKind × Nat × Nat × Nat) (i : Nat), e ∈
    [(.mod, 0x048, 1, 0x4065C000), (.pwr, 0x048, 1, 0x00000005), (.time, 0x040, 1, 0x00010A01),
     (.time, 0x044, 1, 0x00000003), (.timeD, 0x044, 1, 0x00000001), (.timeD, 0x04C, 1, 0x00000001),
     (.um, 0x048, 1, 0x00000802), (.stick, 0x040, 1, 0x00000003), (.stick, 0x044, 1, 0x00002710),
     (.jrnl, 0x050, 1, 0x20000000), (.monx, 0x040, 1, 0x00008C05), (.monx, 0x100, 32, 0x51101F1F),
     (.monx, 0x180, 32, 0x00000A00), (.madc, 0x040, 1, 0x0000011F), (.madc, 0x100, 32, 0x00000002),
     (.ilk, 0x040, 1, 0x06400064), (.ilk, 0x048, 1, 0x007FFFFF), (.ilk, 0x04C, 1, 0x06400064),
     (.ilk, 0x054, 1, 0x007FFFFF), (.ilk, 0x058, 1, 0x00110000), (.trig, 0x05C, 1, 0x00040000),
     (.trig, 0x068, 1, 0x00040000), (.trig, 0x06C, 1, 0x00000807), (.trig, 0x070, 1, 0x00000003),
     (.cals, 0x040, 1, 0x0000006F), (.cals, 0x044, 1, 0x00082400), (.cals, 0x058, 1, 0x00010000),
     (.cals, 0x05C, 1, 0x0000000A), (.cals, 0x060, 1, 0x400800D0), (.cals, 0x068, 1, 0x00000004),
     (.merge, 0x040, 1, 0x00000004), (.merge, 0x05C, 1, 0x19000101), (.merge, 0x060, 1, 0x00000019),
     (.merge, 0x064, 1, 0x00080000), (.sheaf, 0x040, 1, 0x004B0600), (.glean, 0x040, 1, 0x00000001),
     (.dram, 0x040, 1, 0x00641001), (.dram, 0x044, 1, 0x00101010), (.dram, 0x048, 1, 0x00555348),
     (.dtrain, 0x040, 1, 0x00010564), (.dintg, 0x040, 1, 0x000003E8), (.lanes, 0x040, 1, 0xFFFFFFFF),
     (.lanes, 0x044, 1, 0xFFFFFFFF), (.lanes, 0x048, 1, 0xFFFFFFFF), (.lanes, 0x04C, 1, 0xFFFFFFFF),
     (.lanes, 0x050, 1, 0x00000001), (.step, 0x040, 1, 0x00001010), (.tile, 0x040, 1, 0x00000008),
     (.tdc, 0x040, 1, 0x00000041), (.tdc, 0x04C, 1, 0x2CCD6666), (.afe, 0x044, 1, 0x00001800),
     (.afe, 0x048, 1, 0x00000001), (.afe, 0x04C, 1, 0x00000001), (.ports, 0x040, 1, 0x0004C000),
     (.block, 0x040, 1, 0x00020726), (.block, 0x044, 1, 0x000003FF), (.block, 0x048, 1, 0x00002710),
     (.block, 0x400, 256, 0x00004000), (.intg, 0x040, 1, 0x83E803E8), (.cals, 0x048, 1, 0x064), (.cals, 0x04C, 1, 0x0C8),
     (.cals, 0x050, 1, 0x190), (.cals, 0x054, 1, 0x320)] → pageKind p = some e.1 → i < e.2.2.1 →
      State.reset.rd p (e.2.1 + 4 * i) = BitVec.ofNat 32 e.2.2.2) ∧
  (∀ (t : Fin 16) (k : Fin 64), State.reset.rd (pgTDC t) (0x100 + 4 * k.val) = BitVec.ofNat 32 (0x200 * k.val)) ∧
  ∀ (p : Nat) (k : PageKind), pageKind p = some k →
    State.reset.stored p Reg.HDR.PAGE_ID_PAGE = p ∧ State.reset.stored p Reg.HDR.PAGE_ID_TYPE = pageType k ∧
    State.reset.stored p Reg.HDR.PAGE_ID_INSTANCE = pageInstance k p ∧
    State.reset.rd p Reg.HDR.PAGE_REV.off = 0x01C00001 ∧ State.reset.rd p Reg.HDR.CTRL.off = 1 ∧
    State.reset.rd p Reg.HDR.PWR_STATE.off = (if k ∈ [PageKind.mod, .merge, .block] then 0x00100003 else 0x00100000)

/-! ### Register writes -/

/-- A write of a register with settings or with 1s to write (the rows of WRITE and REG_WRITE_OTHER, CEIL_WRITE,
EPOCH_INIT_WRITE, SLEW_START, SPLICE_SLEW_START, THRESH_WRITE, LANE_TEST_WRITE, EVT_ENABLE_WRITE, CONC_HOLD_WRITE,
SMASK_CLEAR, DLL_RELOCK, SW_CTRL_GO, TIME_SNAP, FREEZE_RELEASE_WRITE, FAULT_CLR, INJ_ONE, MIXED_CLR, COUNTER_OVF_CLEAR, CNT_CLR,
MONX_START, MONX_STOP, BREAK_CLEAR and CONV_FAULT_CLEAR) completes. The register holds the limited value of the fields that
may be written, while the value in force stays until the boundary; the written 1s wait for the boundary after those that
wait already. It is answered OK, or LOCKED where the page is locked and has RWL fields in the register, and journaled with
the value's digest. No other register differs, but for those that count and journal commands and ERR_SUMMARY of the page,
and nothing else of the module does; a LO word of INC or SLEW_INC waits for its HI word (R236). While no frames run, what
EPOCH_INIT takes is in force at once.

A write that reaches several pages is one command too. An alias page stands for the page of every tile (R408), and while MIRROR is 1
a write to a concentrator's page reaches both, but for the registers that are not mirrored (R258). Where the dies of all these
pages answer, each register takes the value, each leaves its 1s, in the order of the pages; the command has one answer and one
entry, that of the page addressed, and JOURNAL_SEQ of every page it changes takes that entry's number. Through the alias it is
LOCKED where any tile's page is; mirrored, where the page addressed is. -/
def Obligations.RegisterWritesStore : Prop :=
  let runs (c : Instr) (s : State) (h : UHdr) (p o : Nat) (v : Word) : Prop :=
    ∀ (k : PageKind) (d : RegDef), s.MayStore h p o v k d → ∃ t, exec c s = .next t ∧ (s.counted h).StoredBy t h 0x02 p o v k d false
  (∀ (c : Instr) (s : State) (h : UHdr) (p o : Nat) (v : Word), s.registerWrite c = some (h, p, o, v) → runs c s h p o v) ∧
  (∀ (s : State) (h : UHdr) (page off : BitVec 16) (v : Word),
    runs (.write h page off v) s h page.toNat off.toNat v ∧ runs (.regWriteOther h page off v) s h page.toNat off.toNat v ∧
    runs (.evtEnableWrite h page off v) s h page.toNat off.toNat v ∧ runs (.cntClr h page off v) s h page.toNat off.toNat v ∧
    runs (.ceilWrite h page v) s h page.toNat 0x010 v ∧ runs (.counterOvfClear h page v) s h page.toNat 0x020 v) ∧
  (∀ (s : State) (h : UHdr) (chan : BitVec 16),
    runs (.smaskClear h chan) s h (chPage chan.toNat) (0xC00 + 4 * (chan.toNat % 256)) 0x80000000) ∧
  (∀ (s : State) (h : UHdr) (tile : Fin 16) (v : Word),
    runs (.dllRelock h tile v) s h (pgTDC tile) 0x040 (v ||| 0x100)) ∧
  (∀ (s : State) (h : UHdr) (domain : Um) (v : Word),
    runs (.slewStart h domain v) s h (pgTIMED domain) 0x050 v ∧ runs (.spliceSlewStart h v) s h pgTIME 0x064 v ∧
    runs (.timeSnap h) s h pgTIME 0x074 1 ∧ runs (.epochInitWrite h v) s h pgTIME 0x048 v) ∧
  (∀ (s : State) (h : UHdr) (c : Conc), runs (.freezeReleaseWrite h c) s h (pgDRAM c) 0x098 1) ∧
  (∀ (s : State) (h : UHdr) (page : IntPage) (region : Nat) (v : Word),
    runs (.threshWrite h page region v) s h page.page (0x104 + 16 * region) v ∧
    runs (.faultClr h page) s h page.page (if page = .intg then 0x080 else 0x07C) 1) ∧
  (∀ (s : State) (h : UHdr) (c : Conc) (lane : Fin 64) (v : Word),
    runs (.laneTestWrite h c lane v) s h (pgLANE c lane) 0x04C v ∧
    runs (.injOne h c lane) s h (pgLANE c lane) 0x04C (s.rd (pgLANE c lane) 0x04C ||| 0x200)) ∧
  (∀ (s : State) (h : UHdr) (v : Word),
    runs (.mixedClr h) s h pgJRNL 0x058 1 ∧ runs (.monxStart h v) s h pgMADC 0x040 (v ||| 0x10000) ∧
    runs (.monxStop h v) s h pgMADC 0x040 (v ||| 0x20000) ∧ runs (.breakClear h v) s h pgMONX 0x044 v ∧
    runs (.convFaultClear h v) s h pgPWR 0x050 v ∧ runs (.concHoldWrite h v) s h pgPWR 0x054 v) ∧
  (∀ (s : State) (h : UHdr) (v : Word) (d : RegDef),
    s.running = false → s.pendW = [] → s.stale = [] → s.takes h (.write pgTIME 0x048 v) = true → s.recovery = false →
    regAt pgTIME 0x048 = some d → s.flag pgTIME Reg.TIME.EPOCH_INIT_FROZEN = false →
    ∃ t, exec (.epochInitWrite h v) s = .next t ∧ t.rd pgTIME 0x048 = (s.counted h).taken .time pgTIME 0x048 d v false ∧
      t.live pgTIME 0x048 = t.rd pgTIME 0x048 ∧ s.answers t h 0x02 resOK [] ∧
      (s.counted h).journals t h 0x02 resOK (pgTIME, 0x048, digestOf v, 0) ∧ s.changesOnly (answering ++ [.saved]) t) ∧
  (∀ (s : State) (page off : Nat),
    (page / 256 = 0x20 → s.writePages page off = allTiles.map (fun t => pgTILE t + page % 256)) ∧
    (isConcPage page = true → s.flag pgSTICK Reg.STICK.CTRL_MIRROR = true → unmirrored page off = false →
      s.writePages page off = [page, otherConcPage page]) ∧
    (isConcPage page = true → s.flag pgSTICK Reg.STICK.CTRL_MIRROR = false ∨ unmirrored page off = true →
      s.writePages page off = [page])) ∧
  ∀ (c : Instr) (s : State) (h : UHdr) (page off : Nat) (v : Word) (k : PageKind) (d : RegDef),
    let u := s.counted h
    let l := u.writePages page off
    let r := joinResult (page / 256 = 0x20) (l.map (fun p => if u.shuts p d false then resLOCKED else resOK))
    s.registerWrite c = some (h, page, off, v) → s.running = true → s.recovery = false → s.takes h (.write page off v) = true →
    2 ≤ l.length → (∀ p ∈ l, pageKind p = some k ∧ regAt p off = some d ∧ u.dieOff p = false) → d.canWrite = true →
    plainRegister k off = true → actsAtBoundary k off = true →
    ∃ t, exec c s = .next t ∧ s.answers t h 0x02 r [] ∧ u.journals t h 0x02 r (page, off, digestOf v, 0) ∧
      (∀ p ∈ l, off ∉ [Reg.HDR.COUNTER_OVF.off, Reg.HDR.EVT_PENDING.off, Reg.HDR.ERR_SUMMARY.off] →
        t.rd p off = u.taken k p off d v false ∧
        (immediateReg k off = false → u.taken k p off d v false ≠ u.rd p off → t.live p off = u.live p off)) ∧
      (∀ p ∈ l, d.mask (fun a => a == .rw || a == .rws || (a == .rwl && u.unlocked p)) ≠ 0 →
        mapFind p t.jseq = some ((u.stored pgJRNL Reg.JRNL.HEAD + 1) % 2 ^ 32)) ∧
      t.pendW.map (fun x => (x.page, x.off, x.value)) = u.pendW.map (fun x => (x.page, x.off, x.value)) ++
        l.flatMap (fun p => if writtenOnes k off d v (u.shuts p d false) = 0 ∨ immediatePulse k off = true then []
          else [(p, off, writtenOnes k off d v (u.shuts p d false))])


/-- What each row leaves alone: one that stands for no command, where it answers a next state, changes none of the parts of
the module but those that `touches` lists for it; so does one that stands for a command, while frames run. -/
def Obligations.RowsTouchOnlyTheirParts : Prop :=
  (∀ (c : Instr) (s t : State), s.commandOf c = none → exec c s = .next t → s.changesOnly (touches c) t) ∧
  ∀ (c : Instr) (s t : State) (h : UHdr) (u : UCmd) (e : BlockEnv),
    s.commandOf c = some (h, u, e) → s.running = true → exec c s = .next t → s.changesOnly (touches c) t


/-! ### Commands that ask for something -/

/-- TIMED_TRIGGER of a time in the next second, level 0 to 4, PRE and POST of at most 640 000 T_ref, with fewer than 16
pending (R175): it joins those pending with the nibbles of PATH below LEVEL cleared, and nothing else happens but the
command's answer OK and its entry. TIMED_GATE of a window that opens two frames from now at the earliest and one second from
now at the latest, after every queued window, and closes within a second of that, with fewer than 8 queued (R181): it is
queued, and GATE_STATUS.QUEUED counts it. -/
def Obligations.TimedRequestsAreKept : Prop :=
  (∀ (s : State) (h : UHdr) (coarse : BitVec 48) (fine : BitVec 12) (g : Bool) (level : BitVec 3) (pre post : BitVec 20)
     (path : BitVec 16),
     let u : UCmd := .timedTrigger coarse.toNat fine.toNat g level.toNat pre.toNat post.toNat path.toNat
     let v := s.counted h
     let time := v.domainTref coarse.toNat * 4096 + (fine.toNat : Int)
     s.running = true → s.takes h u = true → ((v.frame * 4096 : Nat) : Int) ≤ v.toModule time 1 / 4096 →
     v.toModule time 1 / 4096 ≤ ((v.frame * 4096 : Nat) : Int) + 640000000 → level.toNat ≤ 4 → pre.toNat ≤ 640000 → post.toNat ≤ 640000 →
     v.trig.timed.length < 16 →
     ∃ t, exec (.timedTrigger h coarse fine g level pre post path) s = .next t ∧ v.Answering t h u resOK [.trig] ∧
       t.trig = { v.trig with timed := v.trig.timed ++
         [{ time := time, glean := g, level := level.toNat, pre := pre.toNat, post := post.toNat,
            path := path.toNat / 16 ^ level.toNat * 16 ^ level.toNat }] }) ∧
  ∀ (s : State) (h : UHdr) (open_ : BitVec 48) (openTap : BitVec 6) (close : BitVec 48) (closeTap : BitVec 6),
    let u : UCmd := .timedGate open_.toNat openTap.toNat close.toNat closeTap.toNat
    let v := s.counted h
    let opens := v.domainTref open_.toNat * 64 + (openTap.toNat : Int)
    let closes := v.domainTref close.toNat * 64 + (closeTap.toNat : Int)
    let tap (x : Int) := v.toModule (x * 64) 64 / 64
    s.running = true → s.takes h u = true → (((v.frame + 2) * 4096 * 64 : Nat) : Int) ≤ tap opens →
    tap opens ≤ ((v.now : Int) + 640000000) * 64 →
    tap opens < tap closes → tap closes ≤ tap opens + 640000000 * 64 →
    (∀ w, v.trig.windows.getLast? = some w → tap w.closes < tap opens) → v.trig.windows.length < 8 →
    ∃ t, exec (.timedGate h open_ openTap close closeTap) s = .next t ∧
      t.trig = { v.trig with windows := v.trig.windows ++ [{ opens := opens, closes := closes, sent := none }] } ∧
      t.stored pgTRIG Reg.TRIG.GATE_STATUS_QUEUED = v.trig.windows.length + 1 ∧ v.answers t h u.code resOK [] ∧
      v.journals t h u.code resOK (logOf h u u.words) ∧ v.changesOnly (answering ++ [.trig]) t

/-- Requests that wait. RESEND (R193): sheaf numbers from `first` on, 65 536 of them where the count is 0, for the next
boundary. FREEZE_RELEASE (R311): a 1 written to FREEZE_CTRL.RELEASE of the concentrator it names, for the next boundary.
STICK (R270): kept for the next boundary, at which it is executed, answered and journaled; before that it is neither, but its
result keeps its place in the queue of its port (R374). -/
def Obligations.RequestsWait : Prop :=
  (∀ (s : State) (h : UHdr) (first : BitVec 32) (count : BitVec 16),
    s.running = true → s.takes h (.resend first.toNat count.toNat) = true →
    ∃ t, exec (.resend h first count) s = .next t ∧
      (s.counted h).Answering t h (.resend first.toNat count.toNat) resOK [.trig] ∧
      t.trig = { s.trig with resends := s.trig.resends ++ [(first.toNat, if count = 0 then 65536 else count.toNat)] }) ∧
  (∀ (s : State) (h : UHdr) (c : Conc),
    s.running = true → s.takes h (.freezeRelease (c == .b)) = true →
    ∃ t, exec (.freezeRelease h c) s = .next t ∧ (s.counted h).Answering t h (.freezeRelease (c == .b)) resOK [.pendW] ∧
      t.pendW = s.pendW ++ [{ page := pgDRAM c, off := 0x098, value := 1, chan := 0 }]) ∧
  ∀ (s : State) (h : UHdr) (op : BitVec 2) (target : Bool),
    s.running = true → s.takesAuth h (.stick op.toNat target) = true →
    ∃ t, exec (.stick h op target) s = .next t ∧ (h.dest = 0 → (t.um h.port).results = (s.um h.port).results ++ [heldFrag h.tag]) ∧
      t.journal = s.journal ∧
      s.changesOnly (answering ++ [.stick]) t ∧
      t.stick = { s.stick with cmds := s.stick.cmds ++
        [{ op := op.toNat, target := target, isWrite := false, port := h.port.idx, master := h.master.toNat, tag := h.tag,
           digest := bodyDigest (UCmd.stick op.toNat target).words, time := (s.arrive h.at_).now }] }

/-- DOMAIN_SWITCH to the domain that is not active, which has acquired and whose port is locked, at least two frames ahead,
with no switch pending and the range conditions met (R242): the switch is scheduled, and TSTAT.SW_PENDING shows it. SW_CTRL_GO
with the page unlocked (R242): the request, for the TARGET written and the sheaf number in SW_AT, waits for the next boundary
(R404), where it schedules the switch on the conditions of DOMAIN_SWITCH, and is refused and counted where they fail. -/
def Obligations.DomainSwitchesAreRequested : Prop :=
  (∀ (s : State) (h : UHdr) (target : Bool) (sheaf : BitVec 32),
     let u : UCmd := .domainSwitch target sheaf.toNat
     let v := s.authed h
     s.running = true → s.takesAuth h u = true → umOf target ≠ v.active → v.acquired (umOf target) = true →
     v.portLocked (umOf target) = true → 2 ≤ signedDiff 32 sheaf.toNat (sheafOf v.frame) → v.time.pendSwitch = none →
     v.time.recheck = false → switchInRange (v.accDiffNow (umOf target)) v.spliceNow = true →
     ∃ t, exec (.domainSwitch h target sheaf) s = .next t ∧
       t.time = { v.time with pendSwitch := some { target := target, frame := frameOfSheaf v.frame sheaf.toNat, auto := false } } ∧
       t.stored pgTIME Reg.TIME.TSTAT_SW_PENDING = 1 ∧ v.answers t h u.code resOK [] ∧
       v.journals t h u.code resOK (logOf h u u.words) ∧ v.changesOnly (answering ++ [.time]) t) ∧
  (∀ (s : State) (h : UHdr) (value : Word) (k : PageKind) (d : RegDef),
    let v := value ||| 0x80000000
    s.running = true → s.Lands h pgTIME 0x050 v k d → (s.counted h).unlocked pgTIME = true →
    ∃ t, exec (.swCtrlGo h value) s = .next t ∧ s.Written t h pgTIME 0x050 v [.pendW] ∧
      t.pendW = s.pendW ++
        [{ page := pgTIME, off := 0x050, value := v &&& 0x80000001, chan := s.stored pgTIME Reg.TIME.SW_AT }]) ∧
  (∀ (s : State) (f : Nat) (v : Word) (sheaf : Nat),
    let u := umOf (v.getLsbD 0)
    s.running = true → u ≠ s.active → s.acquired u = true → s.portLocked u = true →
    2 ≤ signedDiff 32 sheaf (sheafOf s.frame) → s.time.pendSwitch = none → s.time.recheck = false →
    switchInRange (s.accDiffNow u) s.spliceNow = true →
    let t := s.pulse f { page := pgTIME, off := 0x050, value := v, chan := sheaf }
    t.time = { s.time with
      pendSwitch := some { target := v.getLsbD 0, frame := frameOfSheaf s.frame sheaf, auto := false } } ∧
    t.stored pgTIME Reg.TIME.TSTAT_SW_PENDING = 1 ∧ s.changesOnly [.regs, .stale, .time] t) ∧
  ∀ (s : State) (f : Nat) (v : Word) (sheaf : Nat),
    let u := umOf (v.getLsbD 0)
    u = s.active ∨ s.acquired u = false ∨ s.portLocked u = false ∨ signedDiff 32 sheaf (sheafOf s.frame) < 2 ∨
      s.time.pendSwitch ≠ none ∨ switchInRange (s.accDiffNow u) s.spliceNow = false →
    s.stored pgTIME Reg.TIME.SW_REJ_CNT < 2 ^ 32 - 1 →
    let t := s.pulse f { page := pgTIME, off := 0x050, value := v, chan := sheaf }
    t.stored pgTIME Reg.TIME.SW_REJ_CNT = s.stored pgTIME Reg.TIME.SW_REJ_CNT + 1 ∧
    (t.rd pgTIME Reg.HDR.EVT_PENDING.off).getLsbD 1 = true ∧ s.changesOnly [.regs, .stale, .eventQ] t

/-- What is refused is answered REFUSED and counted with an event: a timed trigger outside R175 in TCMD_REJ_CNT, a timed gate
outside R181 in GCMD_REJ_CNT, a domain switch outside R242 in SW_REJ_CNT. No trigger, window or switch is kept. -/
def Obligations.RefusedRequestsAreCounted : Prop :=
  (∀ (s : State) (h : UHdr) (coarse : BitVec 48) (fine : BitVec 12) (g : Bool) (level : BitVec 3) (pre post : BitVec 20)
    (path : BitVec 16),
    let u : UCmd := .timedTrigger coarse.toNat fine.toNat g level.toNat pre.toNat post.toNat path.toNat
    s.running = true → s.takes h u = true →
    4 < level.toNat ∨ 640000 < pre.toNat ∨ 640000 < post.toNat ∨ 16 ≤ s.trig.timed.length →
    s.stored pgTRIG Reg.TRIG.TCMD_REJ_CNT < 2 ^ 32 - 1 →
    ∃ t, exec (.timedTrigger h coarse fine g level pre post path) s = .next t ∧ t.trig = s.trig ∧
      t.stored pgTRIG Reg.TRIG.TCMD_REJ_CNT = s.stored pgTRIG Reg.TRIG.TCMD_REJ_CNT + 1 ∧
      (t.rd pgTRIG Reg.HDR.EVT_PENDING.off).getLsbD 1 = true ∧ s.answers t h u.code resREFUSED []) ∧
  (∀ (s : State) (h : UHdr) (open_ : BitVec 48) (openTap : BitVec 6) (close : BitVec 48) (closeTap : BitVec 6),
    let u : UCmd := .timedGate open_.toNat openTap.toNat close.toNat closeTap.toNat
    s.running = true → s.takes h u = true → 8 ≤ s.trig.windows.length →
    s.stored pgTRIG Reg.TRIG.GCMD_REJ_CNT < 2 ^ 32 - 1 →
    ∃ t, exec (.timedGate h open_ openTap close closeTap) s = .next t ∧ t.trig = s.trig ∧
      t.stored pgTRIG Reg.TRIG.GCMD_REJ_CNT = s.stored pgTRIG Reg.TRIG.GCMD_REJ_CNT + 1 ∧
      (t.rd pgTRIG Reg.HDR.EVT_PENDING.off).getLsbD 2 = true ∧ s.answers t h u.code resREFUSED []) ∧
  ∀ (s : State) (h : UHdr) (target : Bool) (sheaf : BitVec 32),
    let u : UCmd := .domainSwitch target sheaf.toNat
    s.running = true → s.takesAuth h u = true →
    umOf target = s.active ∨ s.acquired (umOf target) = false ∨ signedDiff 32 sheaf.toNat (sheafOf s.frame) < 2 ∨
      s.time.pendSwitch ≠ none →
    s.stored pgTIME Reg.TIME.SW_REJ_CNT < 2 ^ 32 - 1 →
    ∃ t, exec (.domainSwitch h target sheaf) s = .next t ∧ t.time = s.time ∧
      t.stored pgTIME Reg.TIME.SW_REJ_CNT = s.stored pgTIME Reg.TIME.SW_REJ_CNT + 1 ∧
      (t.rd pgTIME Reg.HDR.EVT_PENDING.off).getLsbD 1 = true ∧ s.answers t h u.code resREFUSED []

/-- REGISTER for the unit's serial (R376): the port is registered under the address, with the equalization delay, its status
message is due, DSTATE says registered and event 0 pends. DEREGISTER: a registered port loses address and registration, and
event 1 pends. -/
def Obligations.RegistrationFollowsTheCommands : Prop :=
  (∀ (s : State) (h : UHdr) (serial : BitVec 64) (addr : BitVec 12) (eqd : BitVec 16),
    let u : UCmd := .register serial.toNat addr.toNat eqd.toNat
    s.running = true → s.takes h u = true →
    ∃ t, exec (.register h serial addr eqd) s = .next t ∧ t.stored (pgUM h.port) Reg.UM.ADDR_REG = 1 ∧
      t.stored (pgUM h.port) Reg.UM.ADDR_ADDR = addr.toNat ∧ t.stored (pgUM h.port) Reg.UM.EQD_UI = eqd.toNat ∧
      t.stored (pgUM h.port) Reg.UM.PSTAT_DSTATE = 2 ∧ (t.um h.port).statusDue = true ∧ (t.um h.port).skip = none ∧
      (t.um h.port).answered = none ∧ (t.rd (pgUM h.port) Reg.HDR.EVT_PENDING.off).getLsbD 0 = true ∧
      (s.counted h).journals t h u.code resOK (logOf h u u.words) ∧ s.changesOnly answering t) ∧
  ∀ (s : State) (h : UHdr),
    s.running = true → s.takes h .deregister = true → s.flag (pgUM h.port) Reg.UM.ADDR_REG = true →
    ∃ t, exec (.deregister h) s = .next t ∧ t.stored (pgUM h.port) Reg.UM.ADDR_REG = 0 ∧
      t.stored (pgUM h.port) Reg.UM.ADDR_ADDR = 0 ∧ (t.rd (pgUM h.port) Reg.HDR.EVT_PENDING.off).getLsbD 1 = true ∧
      s.answers t h 0x11 resOK [] ∧ s.changesOnly (answering ++ [.freeCount]) t

/-- UNLOCK of one page with RWL fields (R407): its RWL fields can be written from acceptance until FRAMES frames after the
next boundary, 0 meaning 65 536 of them. LOCK: they cannot. UNLOCK_EXPIRY at that boundary ends the window. The window of no
other page changes. -/
def Obligations.UnlockWindows : Prop :=
  (∀ (s : State) (h : UHdr) (page frames : BitVec 16),
    let u : UCmd := .unlock page.toNat frames.toNat
    s.running = true → s.takesAuth h u = true → (targetKind page.toNat).isSome = true → pageHasRwl page.toNat = true →
    (s.authed h).lockPages page.toNat = [page.toNat] →
    ∃ t, exec (.unlock h page frames) s = .next t ∧ (s.authed h).Answering t h u resOK [.unlocks] ∧
      (∀ f, (({ t with frame := f } : State).unlocked page.toNat = true ↔
        f ≤ s.frame + (if frames = 0 then 65536 else frames.toNat))) ∧
      ∀ q, q ≠ page.toNat → t.unlocked q = s.unlocked q) ∧
  (∀ (s : State) (h : UHdr) (page : BitVec 16),
    let u : UCmd := .lock page.toNat
    s.running = true → s.takes h u = true → (targetKind page.toNat).isSome = true →
    (s.counted h).lockPages page.toNat = [page.toNat] →
    ∃ t, exec (.lock h page) s = .next t ∧ (s.counted h).Answering t h u resOK [.unlocks] ∧
      t.unlocked page.toNat = false ∧ ∀ q, q ≠ page.toNat → t.unlocked q = s.unlocked q) ∧
  ∀ (s : State) (page : BitVec 16), s.powered = true →
    ∃ t, exec (.unlockExpiry page) s = .next t ∧ (∀ q, t.unlocked q = s.unlocked q) ∧
      t.unlocks.filter (fun u => u.1 == page.toNat && decide (u.2 ≤ s.frame)) = [] ∧ s.changesOnly [.unlocks] t

/-! ### Writes that act at acceptance -/

/-- Writes whose 1s act as they are accepted (R499). INJ_FIRE with MODE 1 and none pending (R45): the block fires in the next
frame and is BUSY. HOST_READ while none is in progress (R312): the read begins and is BUSY. RESEND_GO (R193): the request
for COUNT sheaf numbers from RESEND_FIRST, 65 536 where COUNT is 0, waits for the next boundary. STICK_CMD_WRITE with the page
unlocked (R270): OP and TARGET wait for the next boundary, the write being answered now. -/
def Obligations.WrittenRequestsAreMade : Prop :=
  (∀ (s : State) (h : UHdr) (tile block : Fin 16) (value : Word) (k : PageKind) (d : RegDef),
    let p := pgBLOCK tile block
    let v := value ||| 0x10000
    s.running = true → s.Lands h p 0x050 v k d →
    fieldGet Reg.BLOCK.INJ_CTRL_MODE ((s.counted h).taken k p 0x050 d v false) = 1 → mapFind p s.cal.fires = none →
    ∃ t, exec (.injFire h tile block value) s = .next t ∧ s.Written t h p 0x050 v [.cal] ∧
      t.cal = { s.cal with fires := mapPut p (s.frame + 1) s.cal.fires } ∧ t.stored p Reg.BLOCK.INJ_CTRL_BUSY = 1) ∧
  (∀ (s : State) (h : UHdr) (c : Conc) (k : PageKind) (d : RegDef),
    let p := pgDRAM c
    s.running = true → s.Lands h p 0x0B0 1 k d → s.flag p Reg.DRAM.HOST_CTRL_BUSY = false →
    ∃ t, exec (.hostRead h c) s = .next t ∧ s.Written t h p 0x0B0 1 [.concA, .concB] ∧ t.conc c.other = s.conc c.other ∧
      t.conc c = { s.conc c with host := some { shadow := s.flag p Reg.DRAM.HOST_ADDR_GROUP,
                                                unit := s.stored p Reg.DRAM.HOST_ADDR_UNIT, since := (s.arrive h.at_).now } } ∧
      t.stored p Reg.DRAM.HOST_CTRL_BUSY = 1) ∧
  (∀ (s : State) (h : UHdr) (value : Word) (k : PageKind) (d : RegDef),
    let v := value ||| 0x10000
    let count := fieldGet Reg.TRIG.RESEND_CTRL_COUNT ((s.counted h).taken k pgTRIG 0x07C d v false)
    s.running = true → s.Lands h pgTRIG 0x07C v k d →
    ∃ t, exec (.resendGo h value) s = .next t ∧ s.Written t h pgTRIG 0x07C v [.trig] ∧
      t.trig = { s.trig with resends := s.trig.resends ++
        [(s.stored pgTRIG Reg.TRIG.RESEND_FIRST, if count = 0 then 65536 else count)] }) ∧
  ∀ (s : State) (h : UHdr) (value : Word) (k : PageKind) (d : RegDef),
    let v := value ||| 0x80000000
    s.running = true → s.Lands h pgSTICK 0x048 v k d → (s.counted h).unlocked pgSTICK = true →
    ∃ t, exec (.stickCmdWrite h value) s = .next t ∧ s.Written t h pgSTICK 0x048 v [.stick] ∧
      t.stick = { s.stick with cmds := s.stick.cmds ++
        [{ op := fieldGet Reg.STICK.CMD_OP v, target := fieldGet Reg.STICK.CMD_TARGET v == 1, isWrite := true,
           port := h.port.idx, master := h.master.toNat, tag := h.tag,
           digest := bodyDigest (UCmd.write pgSTICK 0x048 v).words, time := (s.arrive h.at_).now }] }

/-- SWAP_GO with no swap and no peal pending, while both concentrators run IN_STEP or one is SOLO beside a partner in reset or
frozen (R214, R215): a swap by the host is pending for the tile and DELAY of SWAP_CTRL, SWAP_AT holds its frame's sheaf number
and SWAP_STAT shows it. With one pending it is refused: ABORT_CNT counts with event 1. -/
def Obligations.SwapsAreRequestedByTheHost : Prop :=
  (∀ (s : State) (h : UHdr) (value : Word) (k : PageKind) (d : RegDef),
    let v := value ||| 0x80000000
    let w := (s.counted h).taken k pgCALS 0x068 d v false
    let f := s.frame + fieldGet Reg.CALS.SWAP_CTRL_DELAY w
    s.running = true → s.Lands h pgCALS 0x068 v k d → s.cal.swap = none → s.peal = none → s.swapAdmitted = true →
    ∃ t, exec (.swapGo h value) s = .next t ∧ s.Written t h pgCALS 0x068 v [.cal] ∧
      t.cal = { s.cal with swap := some { tile := Fin.ofNat 16 (fieldGet Reg.CALS.SWAP_CTRL_TILE w), frame := f, byHost := true,
                                          restoring := false, committed := false, quiet := false } } ∧
      t.stored pgCALS Reg.CALS.SWAP_AT = sheafOf f ∧ t.stored pgCALS Reg.CALS.SWAP_STAT_PENDING = 1 ∧
      t.stored pgCALS Reg.CALS.SWAP_STAT_COMMITTED = 0 ∧ t.stored pgCALS Reg.CALS.SWAP_STAT_BY_HOST = 1 ∧
      t.stored pgCALS Reg.CALS.SWAP_STAT_READY = 0) ∧
  ∀ (s : State) (h : UHdr) (value : Word) (k : PageKind) (d : RegDef),
    let v := value ||| 0x80000000
    s.running = true → s.Lands h pgCALS 0x068 v k d → s.cal.swap.isSome = true ∨ s.peal.isSome = true →
    s.stored pgCALS Reg.CALS.ABORT_CNT < 2 ^ 32 - 1 →
    ∃ t, exec (.swapGo h value) s = .next t ∧ s.Written t h pgCALS 0x068 v [] ∧
      t.stored pgCALS Reg.CALS.ABORT_CNT = s.stored pgCALS Reg.CALS.ABORT_CNT + 1 ∧
      (t.rd pgCALS Reg.HDR.EVT_PENDING.off).getLsbD 1 = true

/-- A write of a word of the CORR window stages it (R137, R138): the channel's staged entry is the one staged or in force with
that word replaced, and STAGE_STATUS.COUNT counts the entries. STAGE_CLR drops what is staged and clears FULL (R137); so does
SHADOW_DISCARD of a tile's TDC page, where no swap or peal that installs it has committed (R406). -/
def Obligations.StagingFollowsWrites : Prop :=
  (∀ (s : State) (h : UHdr) (c : Conc) (off : BitVec 16) (value : Word),
    let p := pgCORR c
    let chan := s.corrChan p off.toNat
    let e := entryPut ((s.conc c).entryStaged chan) (off.toNat / 4 % 4) value
    s.running = true → s.takes h (.write p off.toNat value) = true → s.recovery = false →
    s.writePages p off.toNat = [p] → 0x400 ≤ off.toNat → off.toNat < 0x800 → off.toNat % 4 = 0 →
    (s.conc c).run ≠ .reset → (mapFind chan (s.conc c).corrStaged).isSome = true ∨ (s.conc c).corrStaged.length < 4096 →
    ∃ t, exec (.corrStageWrite h c off value) s = .next t ∧ s.Written t h p off.toNat value [.concA, .concB] ∧
      t.conc c.other = s.conc c.other ∧ t.conc c = { s.conc c with corrStaged := mapPut chan e (s.conc c).corrStaged,
                                                                        stagedBad := (s.conc c).stagedBad.filter (· != chan) } ∧
      t.stored p Reg.CORR.STAGE_STATUS_COUNT = (mapPut chan e (s.conc c).corrStaged).length % 2 ^ 13) ∧
  (∀ (s : State) (h : UHdr) (c : Conc) (k : PageKind) (d : RegDef),
    let p := pgCORR c
    s.running = true → s.Lands h p 0x048 1 k d →
    ∃ t, exec (.stageClr h c) s = .next t ∧ s.Written t h p 0x048 1 [.concA, .concB] ∧ t.conc c.other = s.conc c.other ∧
      t.conc c = { s.conc c with corrStaged := [], stagedBad := [] } ∧ t.stored p Reg.CORR.STAGE_STATUS_COUNT = 0 ∧
      t.stored p Reg.CORR.STAGE_STATUS_FULL = 0) ∧
  ∀ (s : State) (h : UHdr) (tile : Fin 16) (page : BitVec 16) (k : PageKind) (d : RegDef),
    let p := pgTDC tile
    page.toNat = p → s.running = true → s.Lands h p 0x028 1 k d → s.shadowCommitted p = false →
    ∃ t, exec (.shadowDiscard h page) s = .next t ∧ s.Written t h p 0x028 1 [.tacStaged, .rwsStaged] ∧
      t.tacStaged = s.tacStaged.filter (fun e => e.1 / 4096 != tile.val) ∧
      t.rwsStaged = s.rwsStaged.filter (fun e => e.1 / 4096 != p)

/-- SCRUB_GO with a defined memory code, FIRST not above LAST, LAST inside the memory, no pass running and no frozen
controller (R330): the pass starts at FIRST, is BUSY, and its summary begins at 0. Otherwise REJ is set and nothing starts.
SCRUB_ABORT: a running pass ends with ABORTED set. -/
def Obligations.ScrubPassesStartAndStop : Prop :=
  (∀ (s : State) (h : UHdr) (page : IntPage) (k : PageKind) (d : RegDef),
    let p := page.page
    s.running = true → s.Lands h p 0x050 1 k d → s.scrubAllowed page = true →
    ∃ t, exec (.scrubGo h page) s = .next t ∧ s.Written t h p 0x050 1 [.scrubs] ∧
      t.scrubs = mapPut p { mem := s.scrubMem page, next := s.stored p Reg.DINTG.SCRUB_FIRST_ADDR,
                            last := s.stored p Reg.DINTG.SCRUB_LAST_ADDR, since := (s.arrive h.at_).now } s.scrubs ∧
      t.stored p Reg.DINTG.SCRUB_CTRL_BUSY = 1 ∧ t.stored p Reg.DINTG.SCRUB_CTRL_DONE = 0 ∧
      t.stored p Reg.DINTG.SCRUB_CTRL_ABORTED = 0 ∧ t.stored p Reg.DINTG.SCRUB_CTRL_REJ = 0 ∧
      t.stored p Reg.DINTG.SCRUB_WORDS = 0 ∧ t.stored p Reg.DINTG.SCRUB_CORR = 0 ∧ t.stored p Reg.DINTG.SCRUB_UE = 0) ∧
  (∀ (s : State) (h : UHdr) (page : IntPage) (k : PageKind) (d : RegDef),
    let p := page.page
    s.running = true → s.Lands h p 0x050 1 k d → s.scrubAllowed page = false →
    ∃ t, exec (.scrubGo h page) s = .next t ∧ s.Written t h p 0x050 1 [] ∧ t.stored p Reg.DINTG.SCRUB_CTRL_REJ = 1) ∧
  ∀ (s : State) (h : UHdr) (page : IntPage) (k : PageKind) (d : RegDef),
    let p := page.page
    s.running = true → s.Lands h p 0x050 2 k d → (mapFind p s.scrubs).isSome = true →
    ∃ t, exec (.scrubAbort h page) s = .next t ∧ s.Written t h p 0x050 2 [.scrubs] ∧ t.scrubs = mapDel p s.scrubs ∧
      t.stored p Reg.DINTG.SCRUB_CTRL_BUSY = 0 ∧ t.stored p Reg.DINTG.SCRUB_CTRL_ABORTED = 1

/-! ### Reads, privileged writes and writes that are refused -/

/-- READ of a register whose die answers (R398, R412), where no memory behind a window delivers an error: the port answers
OK with what the register reads as, nothing is journaled (R387), and nothing else changes but the words latched: a LO word of a
pair latches its HI word (R186). BLOCK_READ of 1 to 64 registers that end inside their page (R411), likewise, while
no die stops part-way: it is answered OK with what they read as in ascending order. -/
def Obligations.ReadsAnswer : Prop :=
  (∀ (s : State) (h : UHdr) (page off : BitVec 16) (ecc : EccRead) (k : PageKind),
     let p := page.toNat
     let o := off.toNat
     let v := s.counted h
     let read (c : Instr) : Prop := ∃ t, exec c s = .next t ∧ v.answers t h 0x01 resOK [v.readReg p o] ∧
       t.journal = s.journal ∧
       t.time = { s.time with latched := match hiWord k o with
         | some hi => mapPut (regKey p hi) ((v.windowWord k p hi).getD (s.rd p hi)) s.time.latched
         | none => mapDel (regKey p o) s.time.latched } ∧
       s.changesOnly (answering ++ [.time]) t ∧ ∀ q a, a < 4096 → (q, a) ∉ answerKeys → v.SameReg t q a
     s.running = true → s.takes h (.read p o) = true → s.recovery = false → pageKind p = some k → o % 4 = 0 → o < 4096 →
     v.dieOff p = false → v.readsPoison k o = false →
     (protectedWord k o = false ∨ ecc = .clean → read (.read h page off ecc)) ∧ read (.loWordRead h page off)) ∧
  ∀ (s : State) (h : UHdr) (page off : BitVec 16) (count : BitVec 8) (env : BlockEnv) (k : PageKind),
    let p := page.toNat
    let o := off.toNat
    let n := count.toNat
    let v := s.counted h
    s.running = true → s.takes h (.blockRead p o n) = true → s.recovery = false → pageKind p = some k → o % 4 = 0 →
    1 ≤ n → n ≤ 64 → o + 4 * (n - 1) ≤ 0xFFC → v.dieOff p = false → (∀ i, i < n → v.readsPoison k (o + 4 * i) = false) →
    env.stops = none → (∀ i, i < n → protectedWord k (o + 4 * i) = true → env.reads.at_ (o + 4 * i) = .clean) →
    ∃ t, exec (.blockRead h page off count env) s = .next t ∧ v.answers t h 0x03 resOK (State.readWords p n o v) ∧
      t.journal = s.journal ∧ s.changesOnly (answering ++ [.time]) t

/-- AUTH_WRITE with TAG64 and sequence number in order (R381, R407): as a write, but that locks do not bind it, and AUTH_SEQ
takes the sequence number. -/
def Obligations.PrivilegedWritesStore : Prop :=
  ∀ (s : State) (h : UHdr) (page off : BitVec 16) (w : Word) (a : Auth) (k : PageKind) (d : RegDef),
    let p := page.toNat
    let o := off.toNat
    let v := s.authed h
    s.takesAuth h (.authWrite p o w) = true → h.auth = some a → v.Writes p o w true k d → actsAtBoundary k o = true →
    ∃ t, exec (.authWrite h page off w) s = .next t ∧ t.stored pgJRNL Reg.JRNL.AUTH_SEQ = a.seq.toNat ∧
      v.StoredBy t h 0x06 p o w k d true

/-- Register writes that store nothing. A register none of whose fields can be written is answered BAD_ADDR and counted in
ADDR_ERR_CNT (R405, R416). CONC_HOLD_WRITE that would hold both concentrators is answered REFUSED (R475). EPOCH_INIT_WRITE
once FROZEN leaves it, with event 6 (R227). LANE_TEST_WRITE that starts a test on a lane of the mask or in use counts in
TEST_REJ_CNT (R358). No register but those of the command's count and answer differs. A write to a register whose page is
locked and holds RWL fields in it is counted in LOCK_REJ_CNT with event 0 (R407). A write to a page whose die is off enters
the belfry's record and none of its registers (R409): the record holds the setting fields taken; with no 1 written to a field
that acts, it is answered OK, else REFUSED; but a TEST that R358 refuses by the mask on record is not recorded. -/
def Obligations.CommandsThatStoreNothing : Prop :=
  ((∀ (c : Instr) (s : State) (h : UHdr) (p o : Nat) (w : Word) (k : PageKind) (d : RegDef),
     s.registerWrite c = some (h, p, o, w) → s.running = true → s.takes h (.write p o w) = true → s.recovery = false →
     (s.counted h).writePages p o = [p] → pageKind p = some k → regAt p o = some d → d.canWrite = false →
     s.stored pgMOD Reg.MOD.ADDR_ERR_CNT < 2 ^ 32 - 1 →
     ∃ t, exec c s = .next t ∧ t.stored pgMOD Reg.MOD.ADDR_ERR_CNT = s.stored pgMOD Reg.MOD.ADDR_ERR_CNT + 1 ∧
       (t.rd pgMOD Reg.HDR.EVT_PENDING.off).getLsbD 1 = true ∧ (s.counted h).Answering t h (.write p o w) resBAD_ADDR []) ∧
   (∀ (s : State) (h : UHdr) (value : Word) (d : RegDef),
     s.running = true → s.takes h (.write pgPWR 0x054 value) = true → s.recovery = false →
     regAt pgPWR 0x054 = some d → holdsBoth .pwr 0x054 ((s.counted h).taken .pwr pgPWR 0x054 d value false) = true →
     ∃ t, exec (.concHoldWrite h value) s = .next t ∧
       (s.counted h).Answering t h (.write pgPWR 0x054 value) resREFUSED []) ∧
   (∀ (s : State) (h : UHdr) (value : Word),
     s.running = true → s.takes h (.write pgTIME 0x048 value) = true → s.recovery = false →
     s.flag pgTIME Reg.TIME.EPOCH_INIT_FROZEN = true →
     ∃ t, exec (.epochInitWrite h value) s = .next t ∧ t.rd pgTIME 0x048 = s.rd pgTIME 0x048 ∧
       (t.rd pgTIME Reg.HDR.EVT_PENDING.off).getLsbD 6 = true ∧ s.answers t h 0x02 resOK [] ∧
       s.changesOnly answering t) ∧
   ∀ (s : State) (h : UHdr) (c : Conc) (lane : Fin 64) (value : Word),
     let p := pgLANE c lane
     pageKind p = some .lane → s.running = true → s.takes h (.write p 0x04C value) = true → s.recovery = false →
     (s.conc c).run ≠ .reset → s.testRefused .lane p 0x04C value = true →
     s.stored p Reg.LANE.TEST_REJ_CNT < 2 ^ 32 - 1 →
     ∃ t, exec (.laneTestWrite h c lane value) s = .next t ∧ t.rd p 0x04C = s.rd p 0x04C ∧
       t.stored p Reg.LANE.TEST_REJ_CNT = s.stored p Reg.LANE.TEST_REJ_CNT + 1 ∧ s.answers t h 0x02 resOK [] ∧
       s.changesOnly answering t) ∧
  (∀ (c : Instr) (s : State) (h : UHdr) (p o : Nat) (v : Word) (k : PageKind) (d : RegDef),
     s.registerWrite c = some (h, p, o, v) → s.takes h (.write p o v) = true →
     (s.counted h).Writes p o v false k d → actsAtBoundary k o = true → d.hasRwl = true → s.unlocked p = false →
     p ≠ pgMOD → s.stored pgMOD Reg.MOD.LOCK_REJ_CNT < 2 ^ 32 - 1 →
     ∃ t, exec c s = .next t ∧ t.stored pgMOD Reg.MOD.LOCK_REJ_CNT = s.stored pgMOD Reg.MOD.LOCK_REJ_CNT + 1 ∧
       (t.rd pgMOD Reg.HDR.EVT_PENDING.off).getLsbD 0 = true ∧ (t.rd p Reg.HDR.ERR_SUMMARY.off).getLsbD 2 = true) ∧
  ∀ (c : Instr) (s : State) (h : UHdr) (p o : Nat) (w : Word) (k : PageKind) (d : RegDef),
    let v := s.counted h
    let base := (mapFind (regKey p o) s.saved).getD (v.rd p o)
    let new := fixWord k o (d.take (fun a => a == .rw) base w)
    s.registerWrite c = some (h, p, o, w) → s.running = true → s.takes h (.write p o w) = true → s.recovery = false →
    v.writePages p o = [p] → pageKind p = some k → regAt p o = some d → d.canWrite = true → d.hasRwl = false →
    v.dieOff p = true → o ≠ 0x010 → plainRegister k o = true → v.testRefusedOff k p o w = false → d.mask (fun a => a == .rw) ≠ 0 →
    ∃ t, exec c s = .next t ∧ t.saved = mapPut (regKey p o) (new &&& d.mask Access.isSetting) s.saved ∧
      v.answers t h 0x02 (if w &&& d.mask Access.isPulse = 0 then resOK else resREFUSED) [] ∧
      s.changesOnly (answering ++ [.saved]) t ∧ ∀ q a, a < 4096 → (q, a) ∉ answerKeys → v.SameReg t q a


/-! ### Peals -/

/-- Assembly (R382). PEAL_BEGIN on a port without one begins an assembly for its master, and PEAL_STAT.STATE shows it while
no peal is pending. PEAL_WRITE of that master puts its writes at INDEX and the numbers that follow. Both are answered OK and
not journaled (R387). PEAL_ASSEMBLY_TIMEOUT ends an assembly as MALFORMED: counted with event 1, journaled, and MIXED from
the later of its boundary and the next (R386). -/
def Obligations.PealsAreAssembled : Prop :=
  (∀ (s : State) (h : UHdr) (epoch : BitVec 16) (count : Byte) (sheaf : BitVec 32),
    let u : UCmd := .pealBegin epoch.toNat count.toNat sheaf.toNat
    s.running = true → s.takes h u = true → (s.um h.port).asm = none →
    ∃ t, exec (.pealBegin h epoch count sheaf) s = .next t ∧ (s.counted h).answers t h 0x40 resOK [] ∧
      t.journal = s.journal ∧ s.changesOnly answering t ∧
      (t.um h.port).asm = some { port := h.port, master := h.master, epoch := epoch.toNat, count := count.toNat,
                                 frame := sheaf.toNat, writes := [], time := (s.arrive h.at_).now } ∧
      (s.peal = none → t.stored pgJRNL Reg.JRNL.PEAL_STAT_STATE = 1)) ∧
  (∀ (s : State) (h : UHdr) (index : Byte) (writes : List PWrite) (p : Peal),
    let u : UCmd := .pealWrite index.toNat writes
    s.running = true → s.takes h u = true → (s.um h.port).asm = some p → p.master = h.master →
    ∃ t, exec (.pealWrite h index writes) s = .next t ∧ (s.counted h).answers t h 0x41 resOK [] ∧
      t.journal = s.journal ∧ s.changesOnly answering t ∧
      (t.um h.port).asm = some { p with
        writes := (indexed index.toNat writes).foldl (fun m e => mapPut e.1 e.2 m) p.writes }) ∧
  ∀ (s : State) (u : Um) (p : Peal) (i : Nat) (w : PWrite) (l : List (Nat × PWrite)),
    s.running = true → s.powered = true → (s.um u).asm = some p → p.writes = (i, w) :: l →
    s.stored pgJRNL Reg.JRNL.PEAL_FAIL_CNT < 2 ^ 32 - 1 →
    ∃ t, exec (.pealAssemblyTimeout u) s = .next t ∧ (t.um u).asm = none ∧
      t.stored pgJRNL Reg.JRNL.PEAL_FAIL_CNT = s.stored pgJRNL Reg.JRNL.PEAL_FAIL_CNT + 1 ∧
      (t.rd pgJRNL Reg.HDR.EVT_PENDING.off).getLsbD 1 = true ∧
      t.stored pgJRNL Reg.JRNL.PEAL_STAT_LAST_RESULT = resMALFORMED ∧
      t.mixedFrom = max (frameOfSheaf s.frame p.frame) (s.frame + 1) :: s.mixedFrom ∧
      t.journal = ({ pealEntry p 0x42 resMALFORMED p.count w s.now with
        seq := (s.stored pgJRNL Reg.JRNL.HEAD + 1) % 2 ^ 32 } :: s.journal).take 4096

/-- PEAL_END: the checks in the order of R383. Where they hold (COUNT and INDEX complete and the CRC right, every write allowed,
its boundary 3 to 2^20 frames ahead, the next epoch, no committed swap at that boundary and no other peal), the peal is pending
for its frame with PEAL_STAT.STATE and PEAL_AT, and answered OK; a swap that has not committed is withdrawn, and with none
nothing else happens. Where one fails, it is dropped with that check's result: answered, counted with event 1, and MIXED but for
a duplicate (R386, R391). With no assembly of its master it is answered MALFORMED (R382). -/
def Obligations.PealsAreCheckedAndPending : Prop :=
  (∀ (s : State) (p : Peal) (count : Nat) (crc : BitVec 32),
     let d := signedDiff 32 p.frame (sheafOf s.frame)
     let r := s.pealCheck p count crc
     let form := p.count = count ∧ 1 ≤ count ∧ count ≤ 64 ∧ p.writes.map (·.1) = List.range count ∧
       crc32c (p.list.flatMap PWrite.bytes) = crc
     s.running = true →
     (¬form → r = resMALFORMED) ∧
     (form → (∃ w ∈ p.list, w.allowed = false) → r = resBAD_ADDR) ∧
     (form → (∀ w ∈ p.list, w.allowed = true) →
       (d ≤ 0 → r = resPAST) ∧
       (0 < d → (d < 3 ∨ 2 ^ 20 < d) → r = resRANGE) ∧
       (3 ≤ d → d ≤ 2 ^ 20 →
         (p.epoch ≠ s.nextEpoch → r = resEPOCH) ∧
         (p.epoch = s.nextEpoch →
           (s.committedSwapAt = some (frameOfSheaf s.frame p.frame) → r = resREFUSED) ∧
           (s.committedSwapAt ≠ some (frameOfSheaf s.frame p.frame) →
             (s.peal = none → r = resOK) ∧
             ∀ q, s.peal = some q → r = resBUSY ∨
               (r = resDUPLICATE ∧ q.port ≠ p.port ∧ q.epoch = p.epoch ∧ q.frame = frameOfSheaf s.frame p.frame)))))) ∧
  (∀ (s : State) (h : UHdr) (count : Byte) (crc : BitVec 32) (p : Peal),
    let u : UCmd := .pealEnd count.toNat crc
    let d := signedDiff 32 p.frame (sheafOf s.frame)
    s.running = true → s.takes h u = true → (s.um h.port).asm = some p → p.master = h.master →
    p.count = count.toNat → 1 ≤ count.toNat → count.toNat ≤ 64 → p.writes.map (·.1) = List.range count.toNat →
    crc32c (p.list.flatMap PWrite.bytes) = crc → (∀ w ∈ p.list, w.allowed = true) → 3 ≤ d → d ≤ 2 ^ 20 →
    p.epoch = s.nextEpoch → s.committedSwapAt ≠ some (frameOfSheaf s.frame p.frame) → s.peal = none →
    ∃ t, exec (.pealEnd h count crc) s = .next t ∧ (t.um h.port).asm = none ∧
      t.peal = some { p with frame := frameOfSheaf s.frame p.frame, time := (s.arrive h.at_).now } ∧
      t.stored pgJRNL Reg.JRNL.PEAL_STAT_STATE = 2 ∧ t.stored pgJRNL Reg.JRNL.PEAL_AT = p.frame % 2 ^ 32 ∧
      (s.counted h).answers t h 0x42 resOK [] ∧
      (∀ w, s.cal.swap = some w → w.committed = false → t.cal.swap = none) ∧
      (s.cal.swap = none → t.journal = s.journal ∧ s.changesOnly (answering ++ [.peal]) t)) ∧
  (∀ (s : State) (h : UHdr) (count : Byte) (crc : BitVec 32),
    let u : UCmd := .pealEnd count.toNat crc
    s.running = true → s.takes h u = true → (∀ p, (s.um h.port).asm = some p → p.master ≠ h.master) →
    ∃ t, exec (.pealEnd h count crc) s = .next t ∧ (s.counted h).Answering t h u resMALFORMED []) ∧
  ∀ (s : State) (h : UHdr) (count : Byte) (crc : BitVec 32) (p : Peal) (i : Nat) (w : PWrite) (l : List (Nat × PWrite)),
    let u : UCmd := .pealEnd count.toNat crc
    let r := s.pealCheck p count.toNat crc
    s.running = true → s.takes h u = true → (s.um h.port).asm = some p → p.master = h.master → p.writes = (i, w) :: l →
    r ≠ resOK → s.stored pgJRNL Reg.JRNL.PEAL_FAIL_CNT < 2 ^ 32 - 1 →
    ∃ t, exec (.pealEnd h count crc) s = .next t ∧ (t.um h.port).asm = none ∧ t.peal = s.peal ∧
      t.stored pgJRNL Reg.JRNL.PEAL_FAIL_CNT = s.stored pgJRNL Reg.JRNL.PEAL_FAIL_CNT + 1 ∧
      (t.rd pgJRNL Reg.HDR.EVT_PENDING.off).getLsbD 1 = true ∧ t.stored pgJRNL Reg.JRNL.PEAL_STAT_LAST_RESULT = r ∧
      t.mixedFrom = (if r = resDUPLICATE then s.mixedFrom
        else max (frameOfSheaf s.frame p.frame) (s.frame + 1) :: s.mixedFrom) ∧
      (s.counted h).answers t h 0x42 r []

/-- PEAL_COMMIT at the start of frame S - 2 (R384): a pending peal whose units all acknowledge it, at every page that each of its
writes reaches, is committed; one that some unit does not acknowledge is aborted, counted with event 1, and MIXED from S; and
where no peal is pending nothing happens. PEAL_APPLY of a committed peal at S (R385), whatever it writes: no peal is pending any
more and the module's epoch, as MRAM keeps it, is the peal's; without a committed peal nothing happens. The last result is then
OK with event 0, and the epoch shows; where its one write is to an RW register of a SHEAF or GLEAN page of a concentrator that is not in reset, and MIRROR is 0, the
register holds the limited value, in force. -/
def Obligations.PealsCommitAndApply : Prop :=
  (∀ (s : State) (p : Peal),
    s.powered = true → s.peal = some p → s.stored pgJRNL Reg.JRNL.PEAL_STAT_STATE = 2 → s.frame + 2 = p.frame →
    (∀ w ∈ p.list, ∀ g ∈ s.pealPages w, s.pageAcks p g w.off.toNat = true) →
    ∃ t, exec .pealCommit s = .next t ∧ t.stored pgJRNL Reg.JRNL.PEAL_STAT_STATE = 3 ∧ s.changesOnly [.regs, .stale] t) ∧
  (∀ (s : State), s.peal = none → exec .pealCommit s = .next s ∧ exec .pealApply s = .next s) ∧
  (∀ (s : State) (p : Peal) (i : Nat) (w : PWrite) (l : List (Nat × PWrite)),
    s.powered = true → s.running = true → s.peal = some p → s.stored pgJRNL Reg.JRNL.PEAL_STAT_STATE = 2 →
    s.frame + 2 = p.frame → (∃ w ∈ p.list, ∃ g ∈ s.pealPages w, s.pageAcks p g w.off.toNat = false) → p.writes = (i, w) :: l →
    s.stored pgJRNL Reg.JRNL.PEAL_FAIL_CNT < 2 ^ 32 - 1 →
    ∃ t, exec .pealCommit s = .next t ∧ t.peal = none ∧
      t.stored pgJRNL Reg.JRNL.PEAL_FAIL_CNT = s.stored pgJRNL Reg.JRNL.PEAL_FAIL_CNT + 1 ∧
      (t.rd pgJRNL Reg.HDR.EVT_PENDING.off).getLsbD 1 = true ∧
      t.stored pgJRNL Reg.JRNL.PEAL_STAT_LAST_RESULT = resABORTED ∧ t.mixedFrom = p.frame :: s.mixedFrom) ∧
  (∀ (s : State) (p : Peal),
    s.powered = true → s.peal = some p → s.stored pgJRNL Reg.JRNL.PEAL_STAT_STATE = 3 → p.frame ≤ s.frame →
    ∃ t, exec .pealApply s = .next t ∧ t.peal = none ∧ t.savedEpoch = p.epoch) ∧
  ∀ (s : State) (p : Peal) (i : Nat) (w : PWrite) (c : Conc) (k : PageKind) (d : RegDef),
    let g := w.page.toNat
    let o := w.off.toNat
    s.powered = true → s.peal = some p → s.stored pgJRNL Reg.JRNL.PEAL_STAT_STATE = 3 → p.frame ≤ s.frame →
    p.writes = [(i, w)] → g = pgSHEAF c ∨ g = pgGLEAN c → s.flag pgSTICK Reg.STICK.CTRL_MIRROR = false →
    (s.conc c).run ≠ .reset → pageKind g = some k → regAt g o = some d → 0x40 ≤ o →
    ∃ t, exec .pealApply s = .next t ∧ t.peal = none ∧ t.stored pgJRNL Reg.JRNL.PEAL_STAT_LAST_RESULT = resOK ∧
      t.stored pgJRNL Reg.JRNL.PEAL_STAT_EPOCH = p.epoch % 65536 ∧ t.savedEpoch = p.epoch ∧
      (t.rd pgJRNL Reg.HDR.EVT_PENDING.off).getLsbD 0 = true ∧
      t.rd g o = fixWord k o (d.take (· == .rw) (s.rd g o) w.value) ∧ t.live g o = t.rd g o

/-! ### Images -/

/-- The transfer of an image (R449-R452). IMG_BEGIN of a header
that passes R450 begins one, with XFER_LEN and XFER_RCVD; where it passes but for its signature it is REFUSED with detail 7. IMG_DATA
at XFER_RCVD appends the bytes that fit the length. IMG_END of a body that passes R452 stages the image, with event 0.
IMG_CANCEL of the transfer's class, and TRANSFER_TIMEOUT, end it. -/
def Obligations.ImagesAreTransferred : Prop :=
  (∀ (s : State) (h : UHdr) (cls : Bool) (header : List Byte),
    let hd := wordsBytes (bytesWords 40 header)
    let u : UCmd := .imgBegin cls hd
    let i : Image := { header := hd, body := [] }
    s.running = true → s.takesAuth h u = true → s.fwu.xfer = none → s.fwu.cStg = none → s.fwu.kStg = none →
    s.fwu.trial = [] → (crc32c (hd.take 156)).toNat = i.num 156 159 → i.num 0 3 = 0x48455341 → i.num 4 4 = cls.toNat →
    i.num 6 7 = 0x4065 → (i.num 5 5).testBit 7 = false → i.num 8 15 = 2 ^ 64 - 1 → i.key = false → 1 ≤ i.length →
    i.length ≤ 4194144 → (cls = false → s.stored pgFWU Reg.FWU.MIN_VER ≤ i.version) →
    ∃ t, exec (.imgBegin h cls header) s = .next t ∧ s.changesOnly (answering ++ [.fwu]) t ∧
      if Config.signatureOk hd = true then
        t.fwu = { s.fwu with xfer := some { isK := cls, image := i, last := h.at_ } } ∧ s.answers t h 0x50 resOK [] ∧
          t.stored pgFWU Reg.FWU.STAT_XFER = 1 ∧ t.stored pgFWU Reg.FWU.XFER_LEN_BYTES = i.length ∧
          t.stored pgFWU Reg.FWU.XFER_RCVD_BYTES = 0
      else t.fwu = s.fwu ∧ s.answers t h 0x50 resREFUSED [] ∧ t.stored pgFWU Reg.FWU.LAST_ERR_DETAIL = 7) ∧
  (∀ (s : State) (h : UHdr) (off : BitVec 32) (words : List Word) (x : Transfer),
    let u : UCmd := .imgData off.toNat words
    let body := x.image.body ++ (wordsBytes words).take (x.image.length - off.toNat)
    s.running = true → s.takesAuth h u = true → s.fwu.xfer = some x → off.toNat = x.image.body.length → words ≠ [] →
    off.toNat + 4 * (words.length - 1) < x.image.length → x.image.length < 2 ^ 23 →
    ∃ t, exec (.imgData h off words) s = .next t ∧ t.stored pgFWU Reg.FWU.XFER_RCVD_BYTES = body.length ∧
      t.fwu = { s.fwu with xfer := some { x with image := { x.image with body := body }, last := h.at_ } } ∧
      s.answers t h 0x51 resOK [] ∧ s.changesOnly (answering ++ [.fwu]) t) ∧
  (∀ (s : State) (h : UHdr) (cls : Bool) (x : Transfer),
    s.running = true → s.takesAuth h (.imgEnd cls) = true → s.fwu.xfer = some x → x.isK = cls →
    x.image.body.length = x.image.length → toBytes 64 (sha512 x.image.body).toNat = x.image.digest →
    (cls = true → x.image.sectionsPass = true ∧ Config.hasKey x.image.body = x.image.key) →
    ∃ t, exec (.imgEnd h cls) s = .next t ∧ t.stored pgFWU Reg.FWU.STAT_XFER = 0 ∧
      t.fwu = { s.fwu with xfer := none, cStg := if cls then s.fwu.cStg else some x.image
                           kStg := if cls then some x.image else s.fwu.kStg } ∧
      (t.rd pgFWU Reg.HDR.EVT_PENDING.off).getLsbD 0 = true ∧ s.answers t h 0x52 resOK [] ∧
      s.changesOnly (answering ++ [.fwu]) t) ∧
  (∀ (s : State) (h : UHdr) (cls : Bool) (x : Transfer),
    s.running = true → s.takesAuth h (.imgCancel cls) = true → s.fwu.trial = [] → s.fwu.xfer = some x → x.isK = cls →
    ∃ t, exec (.imgCancel h cls) s = .next t ∧ t.stored pgFWU Reg.FWU.STAT_XFER = 0 ∧ t.fwu = { s.fwu with xfer := none } ∧
      s.answers t h 0x53 resOK [] ∧ s.changesOnly (answering ++ [.fwu]) t) ∧
  ∀ (s : State) (x : Transfer), s.powered = true → s.fwu.xfer = some x →
    ∃ t, exec .transferTimeout s = .next t ∧ t.stored pgFWU Reg.FWU.STAT_XFER = 0 ∧ t.fwu = { s.fwu with xfer := none } ∧
      s.changesOnly [.regs, .stale, .fwu] t

/-- Trials. IMG_COMMIT of a class and version in a trial that runs and has not failed (R456) makes the image permanent: its class is
in trial no more and its previous image is gone, MIN_VER is at least the version for class C, the key is that of a class K image that
brings one, event 2. TRIAL_TIMEOUT, and CORE_RESTART in a trial, fail it (R328, R455): the module restarts from step 1 with that
cause, every register that MRAM does not keep at its reset value; where both classes are in trial, class C's fails (log entry 70).
IMG_REJECT of a class in trial that has not failed is answered OK and fails it with cause 5; the restart waits for the answer to be
sent, as after IMG_RESTART (log entry 32). CORE_RESTART outside a trial is an entry 0xF0 and event 29.
IMG_RESTART (R449) restarts the module once the results queued on its port have been sent. -/
def Obligations.TrialsAndRestarts : Prop :=
  (∀ (s : State) (h : UHdr) (cls : Bool) (version : BitVec 32) (i : Image),
    let key := match s.fwu.kCur with
      | some j => if cls && j.key then some (Config.keyOf j.body) else s.fwu.authKey
      | none => s.fwu.authKey
    let left := s.fwu.trial.filter (· != cls)
    s.running = true → s.takesAuth h (.imgCommit cls version.toNat) = true → s.fwu.trial.contains cls = true →
    s.fwu.failed = none →
    s.flag pgFWU Reg.FWU.STAT_TRIAL_RUN = true → (if cls then s.fwu.kCur else s.fwu.cCur) = some i →
    i.version = version.toNat →
    ∃ t, exec (.imgCommit h cls version) s = .next t ∧
      t.fwu = { s.fwu with trial := left, starts := if left = [] then 0 else s.fwu.starts, authKey := key
                           committed := if cls then s.fwu.committed else none
                           cPrev := if cls then s.fwu.cPrev else none, kPrev := if cls then none else s.fwu.kPrev } ∧
      t.stored pgFWU Reg.FWU.MIN_VER = (if cls then s.stored pgFWU Reg.FWU.MIN_VER
        else max (s.stored pgFWU Reg.FWU.MIN_VER) version.toNat) ∧
      t.flag pgFWU Reg.FWU.STAT_TRIAL_RUN = (!left.isEmpty) ∧ (t.rd pgFWU Reg.HDR.EVT_PENDING.off).getLsbD 2 = true ∧
      s.answers t h 0x55 resOK [] ∧ s.changesOnly (answering ++ [.fwu]) t) ∧
  (∀ (s : State),
    let fails (c : Instr) (cause : Nat) : Prop := ∃ t, exec c s = .next t ∧
      t.fwu = { s.fwu with failed := some (s.fwu.failed.getD (!s.fwu.trial.contains false, cause)), xfer := none } ∧
      t.pow = { mode := .starting, resetLow := s.pow.resetLow, cause := 3 } ∧ t.running = false ∧
      (∀ p o, persistentReg (regKey p o) = false → t.rd p o = regReset (regKey p o)) ∧ t.pending = s.pending
    s.fwu.trial ≠ [] →
    (s.pow.mode = .on → s.flag pgFWU Reg.FWU.STAT_TRIAL_RUN = false → fails .trialTimeout 2) ∧
    (s.pow.mode = .on → fails .coreRestart 3)) ∧
  (∀ s : State, s.pow.mode = .on → s.fwu.trial = [] →
    ∃ t, exec .coreRestart s = .next t ∧ (t.rd pgINTG Reg.HDR.EVT_PENDING.off).getLsbD 29 = true ∧
      t.journal = ({ seq := (s.stored pgJRNL Reg.JRNL.HEAD + 1) % 2 ^ 32, time := s.now, port := 2, master := 0, code := 0xF0,
                     result := resOK, page := 0, off := 0, digest := 0, aux := 0, poison := false } :: s.journal).take 4096 ∧
      s.changesOnly [.regs, .stale, .eventQ, .journal] t) ∧
  (∀ (s : State) (h : UHdr) (k : Bool),
    s.running = true → s.takesAuth h (.imgReject k) = true → s.fwu.trial.contains k = true → s.fwu.failed = none →
    ∃ t, exec (.imgReject h k) s = .next t ∧ t.fwu = { s.fwu with failed := some (k, 5) } ∧
      t.pow = { s.pow with restartOn := some (h.port, (t.um h.port).results.length) } ∧ s.answers t h 0x56 resOK [] ∧
      s.changesOnly (answering ++ [.fwu, .pow]) t) ∧
  ∀ (s : State) (h : UHdr),
    s.running = true → s.takesAuth h .imgRestart = true →
    ∃ t, exec (.imgRestart h) s = .next t ∧
      t.pow = { s.pow with restartOn := some (h.port, (t.um h.port).results.length) } ∧ s.answers t h 0x54 resOK [] ∧
      s.changesOnly (answering ++ [.pow]) t

/-! ### Network time -/

/-- Port lock (R232). The marker that makes four good ones in a row, each with the time of the last plus a superframe, locks the
port, with event 1. The second superframe in a row without one, and the loss of its clock, lose the lock: counted with event
0, and the module in holdover, with event 2, where the port's domain is the active one (R247). -/
def Obligations.MarkersLockAndLosePorts : Prop :=
  (∀ (s : State) (u : Um) (m : Marker) (at_ l : Nat) (sub : BitVec 16),
    s.powered = true → s.portLocked u = false → (s.time.lock u).last = some l → 3 ≤ (s.time.lock u).good →
    m.crcOk = true → m.timeValid = true → m.frame = 0 → m.time.toNat = (l + 16384) % 2 ^ 48 →
    s.fld (pgUM u) Reg.UM.TREE_FIXED = 1 → s.fld (pgUM u) Reg.UM.TREE_TREE_ID = m.treeId.toNat →
    s.fld (pgUM u) Reg.UM.TREE_PART_ID = m.partId.toNat →
    ∃ t, exec (.superframeMarker u m at_ sub) s = .next t ∧ t.portLocked u = true ∧
      t.stored (pgUM u) Reg.UM.PSTAT_LOCK = 1 ∧ (t.rd (pgTIMED u) Reg.HDR.EVT_PENDING.off).getLsbD 1 = true ∧
      t.time.lock u = { cdr := true, good := 4, bad := 0, last := some m.time.toNat } ∧ (t.um u).lostFrom = none) ∧
  ∀ (s : State) (u : Um),
    let loses (c : Instr) : Prop := ∃ t, exec c s = .next t ∧ t.portLocked u = false ∧
      t.stored (pgUM u) Reg.UM.PSTAT_LOCK = 0 ∧
      t.stored (pgTIMED u) Reg.TIMED.LOSS_CNT = s.stored (pgTIMED u) Reg.TIMED.LOSS_CNT + 1 ∧
      (t.rd (pgTIMED u) Reg.HDR.EVT_PENDING.off).getLsbD 0 = true ∧ (t.um u).lostFrom = some s.now ∧
      (u = s.active → s.running = true → s.flag pgTIME Reg.TIME.TSTAT_HOLDOVER = false →
        t.flag pgTIME Reg.TIME.TSTAT_HOLDOVER = true ∧ t.time.holdFrom = some s.now ∧
        (t.rd pgTIME Reg.HDR.EVT_PENDING.off).getLsbD 2 = true)
    s.powered = true → s.portLocked u = true → s.stored (pgTIMED u) Reg.TIMED.LOSS_CNT < 2 ^ 32 - 1 →
    loses (.cdrUnlock u) ∧ ((s.time.lock u).cdr = true → (s.time.lock u).bad = 1 → loses (.markerMissing u))

/-- ACQ_TIMEOUT at step 10 with the timeout enabled (R239): frames run from coarse 0 of EPOCH_INIT on domain 0 with TQ 3, the
epoch frozen and the start-up at step 11. CLEANER_LOCK (R241) with the active port locked: CLEAN_STAT and TSTAT show it.
DOMAIN_SWITCH_BOUNDARY of a commanded switch whose target's port is locked (R244, R245): the target is active, SPLICE takes
the difference of the two accumulators in whole 2^-12 ticks, SW_CNT counts it with event 0, and none is pending. SLEW_DONE
(R237): the slew ends with event 2, and the standby domain's accumulator keeps what its periods gained it. SPLICE_SLEW_END
(R246): the splice slew stops, at 0 where it reached it. -/
def Obligations.FramesStartAndSwitchesEnd : Prop :=
  ((∀ s : State, s.powered = true → s.running = false → s.step470 = 10 → s.stored pgTIME Reg.TIME.CTRL_ACQ_TIMEOUT ≠ 0 →
     ∃ t, exec .acqTimeout s = .next t ∧ t.running = true ∧
       t.frame = s.stored pgTIME Reg.TIME.EPOCH_INIT_EPOCH * 2 ^ 36 ∧
       t.now = s.stored pgTIME Reg.TIME.EPOCH_INIT_EPOCH * 2 ^ 48 ∧ t.active = .um0 ∧ t.time.byTimeout = true ∧
       t.time.splice = 0 ∧ t.stored pgTIME Reg.TIME.TSTAT_TQ = 3 ∧ t.step470 = 11 ∧
       t.flag pgTIME Reg.TIME.EPOCH_INIT_FROZEN = true) ∧
   ∀ s : State, s.powered = true → s.portLocked s.active = true →
     ∃ t, exec .cleanerLock s = .next t ∧ t.stored pgTIME Reg.TIME.CLEAN_STAT_LOCK = 1 ∧
       t.stored pgTIME Reg.TIME.TSTAT_CLEAN_LOCK = 1 ∧ s.changesOnly [.regs, .stale, .freeCount] t) ∧
  (∀ (s : State) (p : PendSwitch),
    let t' := umOf p.target
    s.powered = true → s.time.pendSwitch = some p → p.auto = false → p.frame ≤ s.frame → s.portLocked t' = true →
    s.stored pgTIME Reg.TIME.SW_CNT < 2 ^ 32 - 1 →
    ∃ t, exec .domainSwitchBoundary s = .next t ∧ t.active = t' ∧ t.time.pendSwitch = none ∧
      t.stored pgTIME Reg.TIME.TSTAT_SW_PENDING = 0 ∧ t.stored pgTIME Reg.TIME.SW_CNT = s.stored pgTIME Reg.TIME.SW_CNT + 1 ∧
      t.time.splice = s.time.splice + s.accDiff t' / 256 * 256 ∧ t.time.splRun = false ∧
      (t.rd pgTIME Reg.HDR.EVT_PENDING.off).getLsbD 0 = true) ∧
  (∀ (s : State) (u : Um),
    s.powered = true → 0 < s.slewLeft u → s.slewLeft u ≤ 4097 →
    ∃ t, exec (.slewDone u) s = .next t ∧ t.slewLeft u = 0 ∧ t.fld (pgTIMED u) Reg.TIMED.SLEW_CNT = 0 ∧
      (t.rd (pgTIMED u) Reg.HDR.EVT_PENDING.off).getLsbD 2 = true ∧ s.changesOnly [.regs, .stale, .eventQ, .time] t ∧
      t.time.acc s.active.other = s.time.acc s.active.other + s.slewGain u (s.slewLeft u)) ∧
  ∀ s : State,
    let n := s.fld pgTIME Reg.TIME.SPL_COUNT
    s.powered = true → s.time.splRun = true → s.time.byTimeout = false → s.spliceRuns ≤ 4097 →
    ∃ t, exec .spliceSlewEnd s = .next t ∧ t.time.splRun = false ∧ t.fld pgTIME Reg.TIME.SPL_COUNT = 0 ∧
      t.time.splice = (match spliceZero s.time.splice s.splRate with
        | some z => if z ≤ n then 0 else s.time.splice + s.splRate * (n : Int)
        | none => s.time.splice + s.splRate * (n : Int)) ∧ s.changesOnly [.regs, .stale, .time] t


/-! ### The channel front end -/

/-- LEADING_EDGE of a signal above V_th (R29) with the front end on and the output low: HIGH is set and the stuck timer of an unmasked channel starts (R39).
With a capacitor free, the channel armed, out of hold-off and inside its gate, a hit is recorded with the tap-time, a free
capacitor and its hold-off (R30, R35, R61); the first edge within 32 T_ref of an injection is its calibration hit, whatever
the gate (R44). Outside the gate nothing is recorded or counted. Within hold-off (R31) or with both capacitors busy (R64) the
edge is counted and flags the last hit. At a masked or blanked channel it is masked chaff (R38, R47), at a self-masked one stuck
chaff (R39). -/
def Obligations.LeadingEdgesAreRecordedOrCounted : Prop :=
  ∀ (s : State) (chan : BitVec 16) (τ : Nat) (v : Int),
    let c := chan.toNat
    let tl := chTile c
    let free := s.isSelfMasked c = false ∧ s.isMasked c = false
    let armed := free ∧ s.isBlanked c = false ∧ s.recording c = true
    s.powered = true → s.frontEndOn c = true → s.isHigh c = false → (s.threshold c : Int) < s.excursion c v →
    ∃ t, exec (.leadingEdge chan ⟨τ, v⟩) s = .next t ∧ t.isHigh c = true ∧ t.now = max s.now (τ / 64) ∧
      (free → (t.chan c).stuckFrom = some τ) ∧ (∀ d, d ≠ c → t.chan d = s.chan d) ∧
      (∀ cal, armed → ((s.chan c).inj = none ∧ cal = none ∧ s.gateOpen tl τ = true) ∨
          (∃ i, (s.chan c).inj = some i ∧ i.hit = false ∧ τ < i.launch + 32 * 64 ∧ cal = some i.launch) →
        (s.chan c).holdEnd ≤ τ → (s.chan c).busy < 2 →
        ∃ h : Hit, (t.chan c).hits = (s.chan c).hits ++ [h] ∧ h.lead = τ ∧ h.cal = cal ∧ h.cap = (s.chan c).freeCap ∧
          h.hold = s.holdTaps c ∧ h.code = none ∧ h.tot = none ∧ h.holdDone = false ∧ h.gen = (s.tile tl).parity ∧
          (t.chan c).holdEnd = τ + s.holdTaps c ∧
          s.keepsRegs ((chPage c, (chReg Reg.BLOCK.CH_STAT_HIGH c).off) :: wakeRegs c) t ∧
          s.changesOnly [.now, .regs, .stale, .chans] t) ∧
      (armed → (s.chan c).inj = none → s.gateOpen tl τ = false → (s.chan c).holdEnd ≤ τ →
        (t.chan c).hits = (s.chan c).hits ∧
        s.keepsRegs ((chPage c, (chReg Reg.BLOCK.CH_STAT_HIGH c).off) :: wakeRegs c) t ∧
        s.changesOnly [.now, .regs, .stale, .chans] t) ∧
      (∀ busy, armed → (s.chan c).inj = none → (busy = false ∧ τ < (s.chan c).holdEnd) ∨
          (busy = true ∧ (s.chan c).holdEnd ≤ τ ∧ s.gateOpen tl τ = true ∧ 2 ≤ (s.chan c).busy) →
        s.stored (chPage c) (chReg Reg.BLOCK.CH_CNT_PILEUP_CNT c) < 65535 →
        s.stored (pgTDC tl) (Reg.TDC.BUSY_CNT_COUNT.nth (cellInTile c)) < 65535 →
        (t.chan c).hits = (s.chan c).hits.dropLast ++ ((s.chan c).hits.getLast?.map (fun h => { h with pile := true })).toList ∧
        t.stored (chPage c) (chReg Reg.BLOCK.CH_CNT_PILEUP_CNT c) =
          s.stored (chPage c) (chReg Reg.BLOCK.CH_CNT_PILEUP_CNT c) + 1 ∧
        t.stored (pgTDC tl) (Reg.TDC.BUSY_CNT_COUNT.nth (cellInTile c)) =
          s.stored (pgTDC tl) (Reg.TDC.BUSY_CNT_COUNT.nth (cellInTile c)) + busy.toNat) ∧
      (s.isSelfMasked c = false → s.isMasked c = true ∨ s.isBlanked c = true → s.gateOpen tl τ = true →
        s.stored (pgTILE tl) Reg.TILE.CHAFF_MASKED < 2 ^ 32 - 1 →
        (t.chan c).hits = (s.chan c).hits ∧
        t.stored (pgTILE tl) Reg.TILE.CHAFF_MASKED = s.stored (pgTILE tl) Reg.TILE.CHAFF_MASKED + 1) ∧
      (s.isSelfMasked c = true → s.gateOpen tl τ = true → s.stored (pgTILE tl) Reg.TILE.CHAFF_STUCK < 2 ^ 32 - 1 →
        (t.chan c).hits = (s.chan c).hits ∧
        t.stored (pgTILE tl) Reg.TILE.CHAFF_STUCK = s.stored (pgTILE tl) Reg.TILE.CHAFF_STUCK + 1)

/-- What a hit still waits for arrives. TRAILING_EDGE of a signal below the release level (R29, R31, R71): the output is low, the stuck timer ends, and the hit's ToT is
the time since its leading edge in units of 4 taps. TOT_SATURATION (R72): 1023 with the saturated flag. ADC_CONVERSION_DONE
(R62), where the cell converts the channel next: the hit holds its code, its capacitor is free, and CLAMP_CNT counts each of
the limits of R66 and R67 that its time meets (R68). HOLDOFF_EXPIRY (R32): its hold-off is over. With that, in a state `m`,
nothing else changes but that the tile collector takes the records of the cell that the row names (R81). -/
def Obligations.HitsAreMeasured : Prop :=
  (∀ (s : State) (chan : BitVec 16) (τ : Nat) (v : Int) (took : Nat) (h : Hit),
    let c := chan.toNat
    s.powered = true → s.frontEndOn c = true → s.isHigh c = true → s.excursion c v < s.release c →
    (s.chan c).hits = [h] → h.tot = none → h.holdDone = false ∨ h.code = none →
    ∃ m t, exec (.trailingEdge chan ⟨τ, v⟩ took) s = .next t ∧ m.isHigh c = false ∧ (m.chan c).stuckFrom = none ∧
      (m.chan c).rearm = false ∧ m.now = max s.now (τ / 64) ∧
      (m.chan c).hits = [if τ < h.lead + 4096 then { h with tot := some ((τ - h.lead) / 4) }
        else { h with tot := some 1023, sat := true }] ∧ (∀ d, d ≠ c → m.chan d = s.chan d) ∧
      s.keepsRegs [(chPage c, (chReg Reg.BLOCK.CH_STAT_HIGH c).off)] m ∧ s.changesOnly [.now, .regs, .stale, .chans] m ∧
      (∀ d, t.chan d = m.chan d) ∧ (m.collect c took).changesOnly [.chans] t) ∧
  (∀ (s : State) (chan : BitVec 16) (τ took : Nat) (h : Hit),
    let c := chan.toNat
    s.powered = true → (s.chan c).hits = [h] → h.tot = none → h.lead + 4096 ≤ τ → h.holdDone = false ∨ h.code = none →
    ∃ m t, exec (.totSaturation chan τ took) s = .next t ∧ m.now = max s.now (τ / 64) ∧
      m.chan c = { s.chan c with hits := [{ h with tot := some 1023, sat := true }] } ∧ (∀ d, d ≠ c → m.chan d = s.chan d) ∧
      s.changesOnly [.now, .chans] m ∧ (∀ d, t.chan d = m.chan d) ∧ (m.collect c took).changesOnly [.chans] t) ∧
  (∀ (s : State) (chan : BitVec 16) (code : Byte) (took : Nat) (h : Hit),
    let c := chan.toNat
    let tl := chTile c
    s.powered = true → (s.chan c).hits = [h] → h.code = none → h.holdDone = false ∨ h.tot = none →
    s.convertsNext c = true → s.below (pgTDC tl) [Reg.TDC.CLAMP_CNT] 2 →
    ∃ m t, exec (.adcConversionDone chan code took .clean) s = .next t ∧
      m.chan c = { s.chan c with hits := [{ h with code := some code.toNat }] } ∧ (m.chan c).busy = 0 ∧
      m.stored (pgTDC tl) Reg.TDC.CLAMP_CNT = s.stored (pgTDC tl) Reg.TDC.CLAMP_CNT +
        (h.time code.toNat).2.1.toNat + (h.time code.toNat).2.2.toNat ∧ (∀ d, d ≠ c → m.chan d = s.chan d) ∧
      s.keepsRegs [(pgTDC tl, Reg.TDC.CLAMP_CNT.off)] m ∧ s.changesOnly [.regs, .stale, .chans] m ∧
      (∀ d, t.chan d = m.chan d) ∧ (m.collect c took).changesOnly [.chans] t) ∧
  ∀ (s : State) (chan : BitVec 16) (τ took : Nat) (h : Hit),
    let c := chan.toNat
    s.powered = true → (s.chan c).hits = [h] → h.lead + h.hold ≤ τ → h.tot = none ∨ h.code = none →
    ∃ m t, exec (.holdoffExpiry chan τ took) s = .next t ∧ m.now = max s.now (τ / 64) ∧
      m.chan c = { s.chan c with hits := [{ h with holdDone := true }] } ∧ (∀ d, d ≠ c → m.chan d = s.chan d) ∧
      s.changesOnly [.now, .chans] m ∧ (∀ d, t.chan d = m.chan d) ∧ (m.collect c took).changesOnly [.chans] t

/-- HOLDOFF_EXPIRY of a hit with its ToT and its code (R32): it passes to read-out with the time of R66 and R67 and the record
of R83: as calibration (R44), as shadow where its channel is SHADOW_ONLY (R86), as stream at or above its TOT_CUT (R85), else
as a candidate. Once the collector has taken what the row names, the record waits in its cell queue, where that holds fewer than
16, and the side item on each port. The record that the collector takes from a cell queue enters both port buffers, each counting
it, where they have room (R81, R97, R98). -/
def Obligations.HitsPassToReadOut : Prop :=
  (∀ (s : State) (chan : BitVec 16) (τ took : Nat) (h : Hit) (tot code : Nat),
    let c := chan.toNat
    let tl := chTile c
    let g := s.collect c took
    let sp := spanOf h.mapA h.mapB h.p0 h.p1 h.p2 code
    let v := tifOf (h.lead / 64 % 4096) (fineOf h.p2 sp.1)
    let flags := 8 * h.sat.toNat + 4 * h.pile.toNat + (h.nominal || sp.2 || v.2).toNat
    let word (type : Nat) := tileRecord type (chInTile c) v.1 tot flags
    let side (kind : Nat) := sideItem kind h.gen (chInTile c) (h.lead % 64) code
    let type := if h.cal.isSome then 2 else if h.shadowOnly then 3 else 1
    let cnt := if h.cal.isSome then Reg.TILE.CALIB_CNT else if h.shadowOnly then Reg.TILE.SHADOW_CNT else Reg.TILE.STREAM_CNT
    s.powered = true → (s.chan c).hits = [h] → h.lead + h.hold ≤ τ → h.tot = some tot → h.code = some code →
    (h.cal.isSome = true ∨ h.shadowOnly = true ∨ h.cut ≤ tot →
      g.hasRoom tl (word type) h.lead → s.stored (pgTILE tl) cnt < 2 ^ 32 - 1 →
      ∃ t, exec (.holdoffExpiry chan τ took) s = .next t ∧ (t.chan c).hits = [] ∧ t.now = max s.now (τ / 64) ∧
        g.sends t tl (word type) h.lead (side type) ∧ t.stored (pgTILE tl) cnt = s.stored (pgTILE tl) cnt + 1 ∧
        (t.tile tl).cands = (s.tile tl).cands ∧ g.keepsRegs [(pgTILE tl, cnt.off)] t ∧
        (∀ d, d ≠ c → t.chan d = s.chan d) ∧ ∀ u, u ≠ tl → t.tile u = s.tile u) ∧
    (h.cal = none → h.shadowOnly = false → tot < h.cut →
      ∃ t, exec (.holdoffExpiry chan τ took) s = .next t ∧ (t.chan c).hits = [] ∧
        (t.tile tl).cands = (s.tile tl).cands ++
          [{ chan := c, lead := h.lead, word := word 3, side := side 3, window := h.window, promote := h.promote,
             shadowOnly := false }] ∧
        t.port tl .a = g.port tl .a ∧ t.port tl .b = g.port tl .b ∧ g.keepsRegs [] t ∧
        ∀ u, u ≠ tl → t.tile u = s.tile u)) ∧
  ∀ (s : State) (chan : BitVec 16) (τ lead : Nat) (r : BitVec 52) (q : List (BitVec 52 × Nat)),
    let tl := chTile chan.toNat
    let fill (c : Conc) := portReg Reg.PORTS.PSTAT_FILL c
    s.powered = true → (s.tile tl).cands = [] → (s.tile tl).waiting (cellInTile chan.toNat) = (r, lead) :: q →
    (∀ c : Conc, (s.port tl c).cut = false ∧ (s.port tl c).since ≤ frameOfTap lead ∧
      s.stored (pgPORTS tl) (fill c) <
        (if recType r = 3 then min 65536 (s.fld (pgPORTS tl) Reg.PORTS.PORT_CTRL_SHADOW_HWM) else 65536)) →
    ∃ t, exec (.promotionDecision chan τ 1) s = .next t ∧ (t.tile tl).waiting (cellInTile chan.toNat) = q ∧
      (∀ c : Conc, (t.port tl c).items = (s.port tl c).items ++ [.hit r (frameOfTap lead)] ∧
        (t.port tl c).side = (s.port tl c).side ∧
        t.stored (pgPORTS tl) (fill c) = s.stored (pgPORTS tl) (fill c) + 1) ∧
      s.keepsPages [pgPORTS tl] t ∧ s.changesOnly [.now, .regs, .stale, .tiles] t ∧ ∀ u, u ≠ tl → t.tile u = s.tile u

/-- PROMOTION_DECISION (R88, R90): a candidate that is due leaves as a stream record with flag [1], and PROMOTE_CNT counts it,
where promotion is on and a stream hit of another channel of its cell lies within W of it; else as a shadow record,
and SHADOW_CNT counts it. -/
def Obligations.CandidatesAreDecided : Prop :=
  ∀ (s : State) (chan : BitVec 16) (τ took : Nat) (p : Passed),
    let tl := chTile chan.toNat
    let g := s.collect chan.toNat took
    let up := p.promote && (s.tile tl).streams.any (fun x => x.1 != p.chan && x.1 / 16 == p.chan / 16 &&
      decide ((x.2 - p.lead) + (p.lead - x.2) ≤ p.window))
    let word := if up then recSetType p.word 1 ||| 2 else p.word
    let side := if up then BitVec.ofNat 32 (2 ^ 30 + p.side.toNat % 2 ^ 30) else p.side
    let cnt := if up then Reg.TILE.PROMOTE_CNT else Reg.TILE.SHADOW_CNT
    s.powered = true → (s.tile tl).cands = [p] → p.chan = chan.toNat → p.lead + p.window + 64 * 160 ≤ τ →
    g.hasRoom tl word p.lead → s.stored (pgTILE tl) cnt < 2 ^ 32 - 1 →
    ∃ t, exec (.promotionDecision chan τ took) s = .next t ∧ (t.tile tl).cands = [] ∧
      g.sends t tl word p.lead side ∧ t.stored (pgTILE tl) cnt = s.stored (pgTILE tl) cnt + 1 ∧
      g.keepsRegs [(pgTILE tl, cnt.off)] t ∧ ∀ u, u ≠ tl → t.tile u = s.tile u

/-- GATE_APPLY (R34): the tile's earliest waiting change sets the state of its source; where that is the source in force,
GATE_STATUS shows it, and a channel that is armed and high as the gate opens rearms at its fall (R36). STUCK_TIMER_EXPIRY
(R39): the channel is self-masked, with the block's event 0. BLANKING_END (R47): the channel is armed, at its fall where its
output is high. -/
def Obligations.GatesOpenAndChannelsRearm : Prop :=
  (∀ (s : State) (tl : Fin 16) (e : GateEdge) (r : List GateEdge),
    s.powered = true → (s.tile tl).gateNext = e :: r →
    ∃ t, exec (.gateApply tl) s = .next t ∧ (t.tile tl).gateNext = r ∧ t.now = max s.now (e.tap / 64) ∧
      (t.tile tl).gateNow = mapPut e.src e.isOpen (s.tile tl).gateNow ∧
      (e.src = s.fld (pgAFE tl) Reg.AFE.GATE_CTRL_SRC → t.stored (pgAFE tl) Reg.AFE.GATE_STATUS_OPEN = e.isOpen.toNat) ∧
      (e.src = s.fld (pgAFE tl) Reg.AFE.GATE_CTRL_SRC → e.isOpen = true → e.seen = false →
        s.gateOpen tl (e.tap - 1) = false →
        ∀ c, c ∈ s.tileChans tl → s.isHigh c = true → s.frontEndOn c = true → s.isMasked c = false →
          s.isSelfMasked c = false → s.isBlanked c = false → (t.chan c).rearm = true) ∧
      (e.src = 3 → t.stored pgTRIG Reg.TRIG.GATE_STATUS_TIMED_OPEN = e.isOpen.toNat) ∧
      ∀ u, u ≠ tl → t.tile u = s.tile u) ∧
  (∀ (s : State) (chan : BitVec 16) (τ u : Nat),
    let c := chan.toNat
    s.powered = true → (s.chan c).stuckFrom = some u → s.isHigh c = true → s.frontEndOn c = true →
    u + s.fld (chPage c) Reg.BLOCK.STUCK_LIM_LIMIT_US * 640 * 64 ≤ τ →
    ∃ t, exec (.stuckTimerExpiry chan τ) s = .next t ∧ t.isSelfMasked c = true ∧
      t.chan c = { s.chan c with stuckFrom := none } ∧ (t.rd (chPage c) Reg.HDR.EVT_PENDING.off).getLsbD 0 = true ∧
      s.keepsRegs [(chPage c, (chReg Reg.BLOCK.CH_STAT_SMASK c).off), (chPage c, Reg.HDR.EVT_PENDING.off)] t ∧
      s.changesOnly [.now, .regs, .stale, .eventQ, .chans] t) ∧
  ∀ (s : State) (chan : BitVec 16) (τ : Nat),
    let c := chan.toNat
    s.powered = true → s.isBlanked c = true → (s.chan c).blankEnd ≤ τ →
    ∃ t, exec (.blankingEnd chan τ) s = .next t ∧ t.isBlanked c = false ∧
      t.chan c = { s.chan c with blankEnd := 0, rearm := s.isHigh c } ∧
      s.keepsRegs [(chPage c, (chReg Reg.BLOCK.CH_STAT_BLANKED c).off)] t ∧ s.changesOnly [.now, .regs, .stale, .chans] t

/-- INJECTION_LAUNCH of a pending FIRE whose frame has begun (R45): none is pending and the block is not BUSY; each selected
channel that R43 allows is launched into at INJ_TIME with the charge of R42, and nothing is launched elsewhere. INJ_BLIND_EXPIRY without a hit (R44, R220): the
injection is over, and the missing record counts in MISS_CNT. -/
def Obligations.InjectionsAreLaunched : Prop :=
  (∀ (s : State) (tl b : Fin 16) (f c : Nat),
    let p := pgBLOCK tl b
    let tap := f * 262144 + s.fld p Reg.BLOCK.INJ_TIME_COARSE * 64 + s.fld p Reg.BLOCK.INJ_TIME_TAP
    let i := c % 256
    let chosen := c / 256 = tl.val * 16 + b.val ∧ (s.fld p Reg.BLOCK.INJ_CTRL_CELLS).testBit (i / 16) = true ∧
      s.canInject c tap = true
    s.powered = true → mapFind p s.cal.fires = some f → f ≤ s.frame →
    ∃ t, exec (.injectionLaunch tl b) s = .next t ∧ t.stored p Reg.BLOCK.INJ_CTRL_BUSY = 0 ∧
      t.cal.fires = mapDel p s.cal.fires ∧
      (chosen → (t.chan c).inj = some { launch := tap, charge := s.injCharge c, hit := false, fallen := false } ∧
        { chan := c, launch := tap, hit := none } ∈ t.cal.launches) ∧
      (¬chosen → t.chan c = s.chan c) ∧
      s.keepsRegs [(p, Reg.BLOCK.INJ_CTRL.off), (pgCALS, Reg.CALS.SKIP_CNT.off), (pgCALS, Reg.HDR.COUNTER_OVF.off)] t ∧
      s.changesOnly [.regs, .stale, .chans, .cal] t) ∧
  ∀ (s : State) (chan : BitVec 16) (τ : Nat) (i : Inject),
    let c := chan.toNat
    s.powered = true → (s.chan c).inj = some i → i.hit = false → i.launch + 32 * 64 ≤ τ →
    s.cal.launches = [{ chan := c, launch := i.launch, hit := none }] → s.stored pgCALS Reg.CALS.MISS_CNT < 2 ^ 32 - 1 →
    ∃ t, exec (.injBlindExpiry chan τ) s = .next t ∧ t.chan c = { s.chan c with inj := none } ∧ t.cal.launches = [] ∧
      t.stored pgCALS Reg.CALS.MISS_CNT = s.stored pgCALS Reg.CALS.MISS_CNT + 1 ∧
      t.cal.cdead = mapPutD 0 c (min (mapGetD 0 c s.cal.cdead + 32) (2 ^ 32 - 1)) s.cal.cdead ∧
      s.keepsPages [pgCALS] t ∧ s.changesOnly [.now, .regs, .stale, .chans, .cal] t

/-! ### Tiles and their ports -/

/-- Power states. IDLE_EXPIRY of a tiller in RUN with no work pending (R17): LISTEN, and those under it stand no higher (R18; the model's choice, log 44). TILE_POWER_UP with all four groups powered, where
neither a fault nor a limit nor its ceiling keeps the tile off (R471; the class K image lists no word of its pages here): it is
powered, absent, and in LISTEN at most as its ceiling allows, but in KEEP after a failed self-test without override (R324).
TILE_POWER_REMOVAL once each port has delivered its LEAVE token or been cut (R19, R41): the tile has no power, its content is
lost and its registers but for the ceiling are at their reset values. -/
def Obligations.TillersChangePower : Prop :=
  (∀ (s : State) (page : BitVec 16),
    s.powered = true → s.pwr page.toNat = 3 → s.pageIdle page.toNat = true →
    ∃ t, exec (.idleExpiry page) s = .next t ∧ t.pwr page.toNat = 2 ∧
      t.ceil page.toNat = s.ceil page.toNat ∧ (∀ q ∈ childPages page.toNat, t.pwr q = min 2 (s.pwr q)) ∧
      s.keepsRegs ((page.toNat :: childPages page.toNat).map (fun q => (q, Reg.HDR.PWR_STATE.off))) t ∧
      s.changesOnly [.regs, .stale] t) ∧
  (∀ (s : State) (tl : Fin 16) (ok : Bool),
    let held := !ok && !(s.stored pgINTG Reg.INTG.ST_CTRL_TILE_OVR).testBit tl.val
    s.pow.mode = .on → s.pow.groups = 4 → 7 ≤ s.step470 → (s.tile tl).power = .off → 1 ≤ s.effCeil (pgTILE tl) →
    s.ceil (pgTILE tl) = s.stored (pgTILE tl) Reg.HDR.PWR_STATE_CEIL →
    (s.stored pgPWR Reg.PWR.CONV_FAULT_TILE).testBit tl.val = false → s.pow.hot.contains (.tile tl) = false →
    (∀ w ∈ kWords s.kBody, w.1 < pgTILE tl ∨ pgTILE tl + 0x100 ≤ w.1) →
    ∃ t, exec (.tilePowerUp tl { ok := ok }) s = .next t ∧
      t.tile tl = { s.tile tl with power := .on, testHeld := held, absent := true, halted := true, settled := false,
                                   acquiring := true, reload := true, reasons := Nat.lor (s.tile tl).reasons 10 } ∧
      t.pwr (pgTILE tl) = (if held then 1 else min 2 (s.effCeil (pgTILE tl))) ∧
      t.stored (pgTILE tl) Reg.HDR.PWR_STATE_CEIL = s.stored (pgTILE tl) Reg.HDR.PWR_STATE_CEIL ∧
      (t.stored pgINTG Reg.INTG.ST_STAT_TILE).testBit tl.val = ok ∧
      (ok = false → (t.rd pgINTG Reg.HDR.EVT_PENDING.off).getLsbD 28 = true) ∧ ∀ u, u ≠ tl → t.tile u = s.tile u) ∧
  ∀ (s : State) (tl : Fin 16),
    let lost (p : Port) : Port := { oldest := p.oldest, owes := Nat.lor p.owes p.cut.toNat }
    s.powered = true → (s.tile tl).power = .leaving → (s.tile tl).leaveAt = none →
    (∀ c, (s.port tl c).cut = true ∨ (s.port tl c).items = []) →
    ∃ t, exec (.tilePowerRemoval tl) s = .next t ∧
      t.tile tl = { power := .off, reasons := Nat.lor (s.tile tl).reasons 8, gateNow := (s.tile tl).gateNow,
                    gateNext := (s.tile tl).gateNext, portA := lost (s.tile tl).portA, portB := lost (s.tile tl).portB } ∧
      (∀ c, c / 4096 = tl.val → t.chan c = {} ∧ mapGetD 0 c t.tac = 0) ∧
      (∀ c, c / 4096 ≠ tl.val → t.chan c = s.chan c ∧ mapGetD 0 c t.tac = mapGetD 0 c s.tac) ∧
      t.stored (pgTILE tl) Reg.HDR.PWR_STATE_CEIL = s.stored (pgTILE tl) Reg.HDR.PWR_STATE_CEIL ∧
      t.pwr (pgTILE tl) = 0 ∧
      (∀ q o, o < 4096 → pgTILE tl ≤ q → q < pgTILE tl + 0x100 → q ≠ pgTILE tl ∨ o ≠ Reg.HDR.PWR_STATE.off →
        t.rd q o = regReset (regKey q o)) ∧
      (∀ q o, o < 4096 → q ≠ pgPWR → q < pgTILE tl ∨ pgTILE tl + 0x100 ≤ q → s.SameReg t q o) ∧
      ∀ u, u ≠ tl → t.tile u = s.tile u

/-- Timing of a tile. DLL_LOCK with the line enabled in LISTEN or RUN (R57): LOCK_STATUS shows what the line reports of itself
(R78); where its phase error stayed within ±LOCK_WIN, and tap 32, while it acquires, within ±4 taps of half a period (R56),
LOCKED rises; otherwise LOCKED stays. TILE_RESUME of an absent tile that is locked (R41): its front end has settled. DLL_UNLOCK
with the phase error outside the window in each of 4 T_ref (R57, R59): LOCKED falls, counted with event 0; recording stops, hits that have not
passed are discarded, and the frame in progress is closed with LEAVE; a tile that is absent already shows ABSENT now (R60). -/
def Obligations.LinesLockAndTilesResume : Prop :=
  (∀ (s : State) (tl : Fin 16) (r : LineReport),
    let locks := r.bound ≤ s.fld (pgTDC tl) Reg.TDC.DLL_CTRL_LOCK_WIN ∧
      ((s.tile tl).acquiring = false ∨ (-4 ≤ r.tap32 ∧ r.tap32 ≤ 4))
    s.powered = true → s.flag (pgTDC tl) Reg.TDC.DLL_CTRL_ENABLE = true → 2 ≤ s.pwr (pgTILE tl) →
    ∃ t, exec (.dllLock ⟨tl, r⟩) s = .next t ∧
      (locks → t.stored (pgTDC tl) Reg.TDC.LOCK_STATUS_LOCKED = 1 ∧ t.tile tl = { s.tile tl with acquiring := false }) ∧
      (¬locks → t.stored (pgTDC tl) Reg.TDC.LOCK_STATUS_LOCKED = s.stored (pgTDC tl) Reg.TDC.LOCK_STATUS_LOCKED ∧
        t.tiles = s.tiles) ∧
      t.stored (pgTDC tl) Reg.TDC.LOCK_STATUS_PHASE_ERR = r.err.toNat ∧
      t.stored (pgTDC tl) Reg.TDC.LOCK_STATUS_CTRL_VAL = r.ctrl.toNat ∧
      t.stored (pgTDC tl) Reg.TDC.LOCK_STATUS_SAT = (if r.ctrl.toNat = 0 ∨ r.ctrl.toNat = 4095 then 1 else 0) ∧
      t.stored (pgTDC tl) Reg.TDC.LOCK_STATUS_ABSENT = s.stored (pgTDC tl) Reg.TDC.LOCK_STATUS_ABSENT ∧
      s.keepsRegs [(pgTDC tl, Reg.TDC.LOCK_STATUS.off)] t ∧ s.changesOnly [.regs, .stale, .tiles] t ∧
      ∀ u, u ≠ tl → t.tile u = s.tile u) ∧
  (∀ (s : State) (tl : Fin 16),
    s.powered = true → 2 ≤ s.pwr (pgTILE tl) → s.flag (pgTDC tl) Reg.TDC.LOCK_STATUS_LOCKED = true →
    (s.tile tl).absent = true →
    ∃ t, exec (.tileResume tl) s = .next t ∧ t.tile tl = { s.tile tl with settled := true } ∧
      (∀ u, u ≠ tl → t.tile u = s.tile u) ∧ s.changesOnly [.tiles] t) ∧
  ∀ (s : State) (tl : Fin 16) (r : LineReport),
    s.powered = true → s.flag (pgTDC tl) Reg.TDC.DLL_CTRL_ENABLE = true → 2 ≤ s.pwr (pgTILE tl) →
    s.flag (pgTDC tl) Reg.TDC.LOCK_STATUS_LOCKED = true → s.fld (pgTDC tl) Reg.TDC.DLL_CTRL_LOCK_WIN < r.least →
    (s.tile tl).cands = [] → s.stored (pgTDC tl) Reg.TDC.FAULT_CNT_UNLOCK_CNT < 65535 →
    ∃ t, exec (.dllUnlock ⟨tl, r⟩) s = .next t ∧ t.stored (pgTDC tl) Reg.TDC.LOCK_STATUS_LOCKED = 0 ∧
      t.stored (pgTDC tl) Reg.TDC.FAULT_CNT_UNLOCK_CNT = s.stored (pgTDC tl) Reg.TDC.FAULT_CNT_UNLOCK_CNT + 1 ∧
      (t.rd (pgTDC tl) Reg.HDR.EVT_PENDING.off).getLsbD 0 = true ∧
      t.tile tl = { s.tile tl with halted := true, reasons := Nat.lor (s.tile tl).reasons 4,
                                   leaveAt := if (s.tile tl).absent = true then (s.tile tl).leaveAt
                                     else some ((s.tile tl).leaveAt.getD s.frame) } ∧
      t.stored (pgTDC tl) Reg.TDC.LOCK_STATUS_ABSENT =
        (if (s.tile tl).absent = true then 1 else s.stored (pgTDC tl) Reg.TDC.LOCK_STATUS_ABSENT) ∧
      (∀ c ∈ s.tileChans tl, t.chan c = { s.chan c with hits := [] }) ∧
      (∀ c, c ∉ s.tileChans tl → t.chan c = s.chan c) ∧ s.keepsPages [pgTDC tl] t ∧
      s.changesOnly [.regs, .stale, .eventQ, .chans, .tiles] t

/-- EMIT_FRAME_CLOSED of the tile's next frame, once it has ended and its hits are decided (R93, R95): a token with its counts
joins what waits on each port, behind the records of the cell queues, which the collector takes first (R94), with LEAVE where it
is the last before an absence, and LAST_FRAME holds the frame's sheaf number.
PORT_CUT, at a boundary, of a port that has held data for LAG_LIM frames without an acknowledgement (R101): all it holds but the word in
transfer is discarded, counted with an event. LATE_WORD_ACK (R103): the port resumes at the next boundary; a record is late
chaff. -/
def Obligations.PortsCloseFramesAndAreCut : Prop :=
  (∀ (s : State) (tl : Fin 16) (c : Conc),
    let n := (s.tile tl).nextClose
    let g := s.collectAll tl
    s.powered = true → n < s.frame → s.frameDecided tl n = true →
    (s.tile tl).absent = false ∨ (s.tile tl).leaveAt.isSome = true →
    ∃ t, exec (.emitFrameClosed tl) s = .next t ∧ (t.tile tl).nextClose = n + 1 ∧
      t.stored (pgTILE tl) Reg.TILE.LAST_FRAME = sheafOf n ∧
      ((s.port tl c).cut = false → (s.port tl c).since ≤ n →
        (t.port tl c).items = (g.port tl c).items ++ [.closed (closedWords n (mapGetD {} n (s.tile tl).chaff)
          (mapGetD {} n (g.port tl c).frames) ((s.tile tl).leaveAt == some n)) n]) ∧
      ((s.port tl c).cut = true ∨ n < (s.port tl c).since → (t.port tl c).items = (g.port tl c).items) ∧
      (∀ cell, (t.tile tl).waiting cell = []) ∧
      (t.tile tl).leaveAt = (if (s.tile tl).leaveAt = some n then none else (s.tile tl).leaveAt) ∧
      g.keepsRegs [(pgTILE tl, Reg.TILE.LAST_FRAME.off)] t ∧ g.changesOnly [.regs, .stale, .tiles] t ∧
      ∀ u, u ≠ tl → t.tile u = s.tile u) ∧
  (∀ (s : State) (tl : Fin 16) (c : Conc) (i : PortItem) (r : List PortItem),
    let p := s.port tl c
    let n := (r.filter (·.isHit)).length
    let reg (f : FieldRef) := portReg f c
    s.powered = true → s.now = s.frame * frameTref → p.cut = false → p.acked = false → p.items = i :: r → s.fld (pgPORTS tl) Reg.PORTS.PORT_CTRL_LAG_LIM ≤ p.lag →
    s.stored (pgPORTS tl) (reg Reg.PORTS.CUT_CNT) < 2 ^ 32 - 1 →
    s.stored (pgPORTS tl) (reg Reg.PORTS.CUT_DISCARD_CNT) + n < 2 ^ 32 →
    ∃ t, exec (.portCut tl c) s = .next t ∧
      t.port tl c = { p with items := [], words := 0, side := [], cut := true, lag := 0, late := some (i.word p.words),
                             lateAcked := false, discarded := p.discarded + n } ∧
      t.port tl c.other = s.port tl c.other ∧ t.stored (pgPORTS tl) (reg Reg.PORTS.PSTAT_FILL) = i.isHit.toNat ∧
      t.stored (pgPORTS tl) (reg Reg.PORTS.PSTAT_STATE) = 1 ∧
      t.stored (pgPORTS tl) (reg Reg.PORTS.CUT_CNT) = s.stored (pgPORTS tl) (reg Reg.PORTS.CUT_CNT) + 1 ∧
      t.stored (pgPORTS tl) (reg Reg.PORTS.CUT_DISCARD_CNT) = s.stored (pgPORTS tl) (reg Reg.PORTS.CUT_DISCARD_CNT) + n ∧
      (t.rd (pgPORTS tl) Reg.HDR.EVT_PENDING.off).getLsbD (8 * c.idx) = true ∧ s.keepsPages [pgPORTS tl] t ∧
      s.changesOnly [.regs, .stale, .eventQ, .tiles] t ∧ ∀ u, u ≠ tl → t.tile u = s.tile u) ∧
  ∀ (s : State) (tl : Fin 16) (c : Conc) (w : BitVec 52),
    let p := s.port tl c
    s.powered = true → p.late = some w →
    ∃ t, exec (.lateWordAck tl c) s = .next t ∧ t.port tl c = { p with lateAcked := true, late := none } ∧
      t.stored (pgPORTS tl) (portReg Reg.PORTS.PSTAT_FILL c) = 0 ∧ t.port tl c.other = s.port tl c.other ∧
      (recType w = 0 ∨ (s.conc c).merging = false →
        s.keepsRegs [(pgPORTS tl, (portReg Reg.PORTS.PSTAT c).off)] t ∧ s.changesOnly [.regs, .stale, .tiles] t) ∧
      (recType w ≠ 0 → (s.conc c).merging = true → s.stored (pgMERGE c) Reg.MERGE.LATE_CNT < 2 ^ 32 - 1 →
        t.stored (pgMERGE c) Reg.MERGE.LATE_CNT = s.stored (pgMERGE c) Reg.MERGE.LATE_CNT + 1 ∧
        t.conc c = { s.conc c with late := (s.conc c).late + 1 } ∧
        (t.rd (pgMERGE c) Reg.HDR.EVT_PENDING.off).getLsbD 2 = true ∧ s.keepsPages [pgPORTS tl, pgMERGE c] t)

/-! ### Correction, merge and sheaves -/

/-- CORRECT_RECORD of a stream or calibration record at the head of a tile's port (R112, R119, R121): it leaves the port; the
corrected record, by the channel's entry in force in its frame, joins its frame's records, or is late where that sheaf is
formed; an entry not applied counts in UNCORR_CNT, a limit in CLAMP_CNT; a calibration record is captured (R210). A shadow
record waits, as TYPE 1 without flag [1] (R147), for its sheaf, with which it joins its tile's extent (R119, R291; that it waits on
the die is the model's choice, log 45). -/
def Obligations.RecordsAreCorrected : Prop :=
  (∀ (s : State) (c : Conc) (tl : Fin 16) (r : BitVec 52) (f : Nat) (rest : List PortItem) (queued : Bool),
    let chan := tl.val * 4096 + recChan r
    let valid := (s.conc c).entryApplied chan f
    let x := correctRecord ((s.conc c).entry chan f) valid tl r
    s.mergeOn c = true → (s.port tl c).items = .hit r f :: rest → recType r = 1 ∨ recType r = 2 →
    s.below (pgCORR c) [Reg.CORR.UNCORR_CNT, Reg.CORR.CLAMP_CNT] 2 → s.below (pgMERGE c) [Reg.MERGE.LATE_CNT] 1 →
    ∃ t, exec (.correctRecord c tl [] .clean queued) s = .next t ∧
      t.port tl c = { s.port tl c with items := rest, acked := true } ∧ t.port tl c.other = s.port tl c.other ∧
      t.stored (pgCORR c) Reg.CORR.UNCORR_CNT = s.stored (pgCORR c) Reg.CORR.UNCORR_CNT + (!valid).toNat ∧
      t.stored (pgCORR c) Reg.CORR.CLAMP_CNT = s.stored (pgCORR c) Reg.CORR.CLAMP_CNT + x.2 ∧
      ((s.conc c).nextForm ≤ f → mapGetD [] f (t.rx c tl).recs = mapGetD [] f (s.rx c tl).recs ++ [x.1] ∧
        t.stored (pgMERGE c) Reg.MERGE.LATE_CNT = s.stored (pgMERGE c) Reg.MERGE.LATE_CNT) ∧
      (f < (s.conc c).nextForm → t.rx c tl = s.rx c tl ∧ (t.conc c).late = (s.conc c).late + 1 ∧
        t.stored (pgMERGE c) Reg.MERGE.LATE_CNT = s.stored (pgMERGE c) Reg.MERGE.LATE_CNT + 1) ∧
      (recType r = 1 → (t.conc c).captured = (s.conc c).captured) ∧
      (recType r = 2 → (t.conc c).captured = (s.conc c).captured ++
        [{ chan := chan, tif := recTif r, tot := recTot r, flags := recFlags r, frame := f }]) ∧
      t.conc c.other = s.conc c.other ∧ s.keepsPages [pgMOD, pgPORTS tl, pgMERGE c, pgCORR c, pgCALS] t ∧
      ∀ u, u ≠ tl → t.tile u = s.tile u ∧ t.rx c u = s.rx c u) ∧
  ∀ (s : State) (c : Conc) (tl : Fin 16) (r : BitVec 52) (f : Nat) (rest : List PortItem) (queued : Bool),
    let chan := tl.val * 4096 + recChan r
    let x := correctRecord ((s.conc c).entry chan f) ((s.conc c).entryApplied chan f) tl r
    s.mergeOn c = true → (s.port tl c).items = .hit r f :: rest → recType r = 3 → s.wbufFull c true = false →
    (s.conc c).nextForm ≤ f →
    ∃ t, exec (.correctRecord c tl [] .clean queued) s = .next t ∧ (t.port tl c).items = rest ∧
      t.rx c tl = { s.rx c tl with
        shadow := mapPut f (mapGetD [] f (s.rx c tl).shadow ++
          [(BitVec.ofNat 56 (x.1.toNat % 2 ^ 54 + 2 ^ 54) &&& ~~~2, s.frame)]) (s.rx c tl).shadow }

/-- FRAME_CLOSED_TOKEN at the head of a tile's port (R118, R119, R123): its counts are kept for its frame, a tile that was behind is
present from it and behind no longer; the token of a frame whose sheaf is formed is discarded. RESUME_TOKEN (R122): the tile is
present from its frame with a resume record, behind with event 0 where that sheaf is formed, and DISCARDED counts as late; one of
a port that was cut, for the join sheaf itself, makes no resume record and no late one (R277). Of a token of which only some words
are acknowledged so far, the port keeps their number, and has had an acknowledgement in this frame (R101). HORIZON_EXPIRY of a
tile still waited for (R119): it is behind, counted with event 0. -/
def Obligations.TokensCloseFramesAndResumeTiles : Prop :=
  (∀ (s : State) (c : Conc) (tl : Fin 16) (ws : List (BitVec 52)) (n : Nat) (rest : List PortItem) (k : Nat),
    let i := tokenInfo ws
    s.mergeOn c = true → (s.port tl c).items = .closed ws n :: rest → ws.length ≤ k →
    ∃ t, exec (.frameClosedToken ⟨c, k⟩ tl) s = .next t ∧
      t.port tl c = { s.port tl c with items := rest, words := 0, acked := true, oldest := n + 1, discarded := 0 } ∧
      t.stored (pgPORTS tl) (portReg Reg.PORTS.LAST_TOKEN c) = sheafOf n ∧
      ((s.conc c).nextForm ≤ n → t.behind c tl = false ∧
        t.rx c tl = { s.rx c tl with tokens := mapPut n i (s.rx c tl).tokens,
                                     left := if i.leave then some n else (s.rx c tl).left,
                                     since := if s.behind c tl then some n else (s.rx c tl).since }) ∧
      (n < (s.conc c).nextForm → t.conc c = s.conc c ∧ t.behind c tl = s.behind c tl) ∧
      s.keepsRegs [(pgPORTS tl, (portReg Reg.PORTS.LAST_TOKEN c).off), (pgMERGE c, Reg.MERGE.PRESENT.off),
        (pgCALS, Reg.CALS.MISS_CNT.off), (pgCALS, Reg.CALS.CDEAD_TOT_LO.off), (pgCALS, Reg.CALS.CDEAD_TOT_HI.off),
        (pgCALS, Reg.HDR.COUNTER_OVF.off)] t ∧ ∀ u, u ≠ tl → t.tile u = s.tile u ∧ t.rx c u = s.rx c u) ∧
  (∀ (s : State) (c : Conc) (tl : Fin 16) (ws : List (BitVec 52)) (n : Nat) (rest : List PortItem) (k : Nat) (row : Instr),
    s.mergeOn c = true → k < ws.length → (s.port tl c).words < k →
    ((s.port tl c).items = .closed ws n :: rest ∧ row = .frameClosedToken ⟨c, k⟩ tl) ∨
      ((s.port tl c).items = .resume ws n :: rest ∧ row = .resumeToken ⟨c, k⟩ tl) →
    ∃ t, exec row s = .next t ∧ t.port tl c = { s.port tl c with words := k, acked := true } ∧
      t.port tl c.other = s.port tl c.other ∧ s.changesOnly [.tiles] t ∧ ∀ u, u ≠ tl → t.tile u = s.tile u) ∧
  (∀ (s : State) (c : Conc) (tl : Fin 16) (ws : List (BitVec 52)) (f : Nat) (rest : List PortItem) (k : Nat),
    let w1 := (ws.getD 1 0).toNat
    let r : Resumed := { frame := f, reason := bitsOf 45 42 w1, missed := bitsOf 39 0 w1,
                         discarded := bitsOf 31 0 (ws.getD 2 0).toNat }
    let joins := s.stored (pgSTEP c) Reg.STEP.VALID_FROM == sheafOf f && r.reason.testBit 0
    let late := if joins then 0 else r.discarded
    s.mergeOn c = true → (s.port tl c).items = .resume ws f :: rest → ws.length ≤ k →
    s.below (pgMERGE c) [Reg.MERGE.RESUME_CNT, Reg.MERGE.LATE_CNT] r.discarded → s.below (pgMERGE c) [Reg.MERGE.RESUME_CNT] 1 →
    ∃ t, exec (.resumeToken ⟨c, k⟩ tl) s = .next t ∧ (t.port tl c).items = rest ∧
      t.rx c tl = { s.rx c tl with since := some f, left := none,
                                   resumed := (s.rx c tl).resumed ++ (if joins then [] else [r]) } ∧
      t.stored (pgMERGE c) Reg.MERGE.RESUME_CNT = s.stored (pgMERGE c) Reg.MERGE.RESUME_CNT + 1 ∧
      t.behind c tl = (s.behind c tl || decide (f < (s.conc c).nextForm)) ∧
      t.stored (pgMERGE c) Reg.MERGE.LATE_CNT = s.stored (pgMERGE c) Reg.MERGE.LATE_CNT + late ∧
      (late ≠ 0 → (t.rd (pgMERGE c) Reg.HDR.EVT_PENDING.off).getLsbD 2 = true) ∧
      (f < (s.conc c).nextForm → s.behind c tl = false → (t.rd (pgMERGE c) Reg.HDR.EVT_PENDING.off).getLsbD 0 = true) ∧
      ∀ u, u ≠ tl → t.tile u = s.tile u ∧ t.rx c u = s.rx c u) ∧
  ∀ (s : State) (c : Conc) (tl : Fin 16),
    let n := (s.conc c).nextForm
    s.mergeOn c = true → s.waitsFor c tl n = true → n + s.fld (pgMERGE c) Reg.MERGE.HORIZON_FRAMES < s.frame →
    s.stored (pgMERGE c) Reg.MERGE.HORIZON_CNT < 2 ^ 32 - 1 →
    ∃ t, exec (.horizonExpiry c tl) s = .next t ∧ t.behind c tl = true ∧ t.waitsFor c tl n = false ∧
      t.stored (pgMERGE c) Reg.MERGE.HORIZON_CNT = s.stored (pgMERGE c) Reg.MERGE.HORIZON_CNT + 1 ∧
      (t.rd (pgMERGE c) Reg.HDR.EVT_PENDING.off).getLsbD 0 = true ∧
      (∀ u, u ≠ tl → t.behind c u = s.behind c u) ∧
      s.keepsRegs [(pgMERGE c, Reg.MERGE.PRESENT.off), (pgMERGE c, Reg.MERGE.HORIZON_CNT.off),
        (pgMERGE c, Reg.HDR.EVT_PENDING.off)] t ∧ s.changesOnly [.regs, .stale, .eventQ] t

/-- SHEAF_FORM where no tile is waited for, the frame's delivery is in, and R118 and R178 let the next sheaf be formed: here
of a concentrator alone in direct mode with room in its queue and its replay partition, none of the frame's records being late. The sheaf's bytes join the output
queue and its place in the replay ring is kept; LAST_SHEAF, PRESENT_MASK and SHEAF_CNT follow, and the next sheaf is that of
the next frame. EXTENT_TIMEOUT of an extent that began 64 frames ago (R291): it is written, its header and its records four to
a unit, and the next is allocated. -/
def Obligations.SheavesAreFormed : Prop :=
  (∀ (s : State) (c : Conc) (i : FrameInfo),
    let n := (s.conc c).nextForm
    let late := (s.conc c).late + ((s.resumesOf c n).map (fun x => x.2.discarded)).sum
    let bytes := (s.formBytes c n i late false).1
    s.mergeOn c = true → mapFind n s.frames = some i → i.delivered = true → n < s.frame →
    (∀ tl, s.waitsFor c tl n = false) → s.wbufFull c false = false → s.pair c = 0 → (s.conc c).own = [] →
    s.cal.swap = none → (∀ tl, s.lateOf c n tl = 0) → s.outMode c = 0 → s.wouldOverwrite c n (unitsOf bytes.length) = false →
    (s.conc c).queuedBytes + bytes.length ≤ s.fld (pgSHEAF c) Reg.SHEAF.SPILL_CTRL_ENTER_KB * 1024 →
    (s.conc c).sendNext ≤ n → s.stored (pgSHEAF c) Reg.SHEAF.SHEAF_CNT < 2 ^ 32 - 1 →
    ∃ t, exec (.sheafForm c) s = .next t ∧ (t.conc c).nextForm = n + 1 ∧ (t.conc c).late = 0 ∧
      (t.conc c).queue = (s.conc c).queue ++ [(n, bytes)] ∧ (t.conc c).wpos = (s.conc c).wpos + unitsOf bytes.length ∧
      ((t.conc c).metas.head?).map (fun m => (m.frame, m.pos, m.presence)) = some (n, (s.conc c).wpos, s.presence c n) ∧
      t.stored (pgMERGE c) Reg.MERGE.LAST_SHEAF = sheafOf n ∧
      t.stored (pgMERGE c) Reg.MERGE.PRESENT_MASK = s.presence c n ∧
      t.stored (pgSHEAF c) Reg.SHEAF.SHEAF_CNT = s.stored (pgSHEAF c) Reg.SHEAF.SHEAF_CNT + 1 ∧
      s.keepsPages [pgMERGE c, pgSHEAF c, pgGLEAN c, pgDRAM c] t) ∧
  ∀ (s : State) (c : Conc) (tl : Fin 16) (e : Extent),
    let ring := s.shadowExtents c
    let base := shadowBase + e.alloc % ring * 64
    let written := (List.range ((e.recs.length + 3) / 4)).foldl
      (fun cs i => ConcSt.putU cs true (base + 1 + i) (extentUnit e.recs (1 + i)))
      ((s.conc c).putU true base (extentHeader ((s.conc c).extents % ring) tl e))
    s.mergeOn c = true → (s.rx c tl).ext = some e → e.recs ≠ [] → e.arrived + 64 ≤ s.frame →
    ∃ t, exec (.extentTimeout c ⟨tl, []⟩) s = .next t ∧ (t.conc c).extents = (s.conc c).extents + 1 ∧
      (t.rx c tl).ext = some { alloc := (s.conc c).extents, first := 0, arrived := 0, recs := [] } ∧
      (t.conc c).dram = written.dram ∧ (t.conc c).poison = written.poison ∧ (∀ u, u ≠ tl → t.rx c u = s.rx c u) ∧
      t.conc c.other = s.conc c.other ∧ s.keepsPages [pgDRAM c] t ∧ s.changesOnly [.regs, .stale, .concA, .concB] t

/-- The governor (R133), `fill` being the fullest port correction queue in sixteenths. GOV_RAISE_STEP: one step up with such a
queue or the sheaf queue over half full, the ceiling with such a queue over seven-eighths, where FAST is set with event 3.
GOV_LOWER_STEP: one step down below one-eighth. Neither leaves FLOOR to CEIL, each limited to 25; while ENABLE is 0 the rail
stands at the ceiling, and FAST is 0. DEAL_GRAIN of the stream class (R162, R165, R166):
the next grain of the sheaf being dealt, or of the first of the queue, goes to the next lane of the mask; what remains of the
sheaf waits, and after its last grain the next sheaf follows. While the concentrator sends and that lane carries data, the
grain leaves on it (R168), the first of all being a stream grain 0 (R172). A glean or re-send sheaf likewise in its class's turn. -/
def Obligations.GovernorStepsAndGrainsAreDealt : Prop :=
  ((∀ (s : State) (c : Conc) (fill : Nat),
     let p := pgMERGE c
     let lo := min 25 (s.fld p Reg.MERGE.GOV_CTRL_FLOOR)
     let hi := max lo (min 25 (s.fld p Reg.MERGE.GOV_CTRL_CEIL))
     let rail := s.stored p Reg.MERGE.GOV_STAT_RAIL
     s.mergeOn c = true → s.flag p Reg.MERGE.GOV_CTRL_ENABLE = true →
     ∃ t, exec (.govRaiseStep c fill) s = .next t ∧
       t.stored p Reg.MERGE.GOV_STAT_RAIL = 
         (if 14 < fill then hi else clampNat lo hi (if 8 < fill ∨ (s.conc c).queueOverHalf = true then rail + 1 else rail)) ∧
       t.stored p Reg.MERGE.GOV_STAT_FAST = (decide (14 < fill)).toNat ∧
       (14 < fill → s.flag p Reg.MERGE.GOV_STAT_FAST = false → (t.rd p Reg.HDR.EVT_PENDING.off).getLsbD 3 = true) ∧
       s.keepsRegs [(p, Reg.MERGE.GOV_STAT.off), (p, Reg.HDR.EVT_PENDING.off)] t ∧ s.changesOnly [.regs, .stale, .eventQ] t) ∧
   (∀ (s : State) (c : Conc) (fill : Nat),
     let p := pgMERGE c
     let lo := min 25 (s.fld p Reg.MERGE.GOV_CTRL_FLOOR)
     let hi := max lo (min 25 (s.fld p Reg.MERGE.GOV_CTRL_CEIL))
     let rail := s.stored p Reg.MERGE.GOV_STAT_RAIL
     s.mergeOn c = true → s.flag p Reg.MERGE.GOV_CTRL_ENABLE = true →
     ∃ t, exec (.govLowerStep c fill) s = .next t ∧ t.stored p Reg.MERGE.GOV_STAT_FAST = 0 ∧
       t.stored p Reg.MERGE.GOV_STAT_RAIL = clampNat lo hi (if fill < 2 then rail - 1 else rail) ∧
       s.keepsRegs [(p, Reg.MERGE.GOV_STAT.off)] t ∧ s.changesOnly [.regs, .stale] t) ∧
   ∀ (s : State) (k : Conc) (fill : Nat),
     let p := pgMERGE k
     let lo := min 25 (s.fld p Reg.MERGE.GOV_CTRL_FLOOR)
     let settles (c : Instr) : Prop := ∃ t, exec c s = .next t ∧
       t.stored p Reg.MERGE.GOV_STAT_RAIL = max lo (min 25 (s.fld p Reg.MERGE.GOV_CTRL_CEIL)) ∧
       t.stored p Reg.MERGE.GOV_STAT_FAST = 0 ∧
       s.keepsRegs [(p, Reg.MERGE.GOV_STAT.off)] t ∧ s.changesOnly [.regs, .stale] t
     s.mergeOn k = true → s.flag p Reg.MERGE.GOV_CTRL_ENABLE = false →
     settles (.govRaiseStep k fill) ∧ settles (.govLowerStep k fill)) ∧
  (∀ (s : State) (c : Conc) (d : Dealing) (l unit : Nat),
    let cs := s.conc c
    let mask := if d.grain = 0 then s.actMask c else cs.dealMask
    s.mergeOn c = true → s.nextClass c = some .stream → s.outMode c = 0 → s.actMask c ≠ 0 →
    d.reread = false → cs.stream = some d ∨ (cs.stream = none ∧ ∃ n b r, cs.queue = (n, b) :: r ∧ d = { frame := n, bytes := b, grain := 0 }) →
    nextLane mask cs.lastLane = some l →
    ∃ t, exec (.dealGrain c {} unit) s = .next t ∧ (t.conc c).lastLane = l ∧ (t.conc c).stream = d.rest ∧
      (d.rest = none → (t.conc c).sendNext = d.frame + 1) ∧
      (cs.sending = true → cs.firstDue = false ∨ d.grain = 0 → s.laneState c l = 3 →
        (t.conc c).outGrain = some (l, grainBytes c .stream d l)) ∧
      (cs.sending = false → (t.conc c).outGrain = cs.outGrain) ∧ (t.conc c).nextForm = cs.nextForm ∧
      t.conc c.other = s.conc c.other) ∧
  (∀ (s : State) (c : Conc) (d : Dealing) (ends : Option Nat) (l unit : Nat),
    let cs := s.conc c
    s.mergeOn c = true → s.nextClass c = some .glean → s.actMask c ≠ 0 → cs.gleanCur = some (d, ends) →
    nextLane cs.dealMask cs.lastLane = some l →
    ∃ t, exec (.dealGrain c {} unit) s = .next t ∧ (t.conc c).lastLane = l ∧ (t.conc c).stream = cs.stream ∧
      (t.conc c).gleanCur = d.rest.map (fun r => (r, ends)) ∧ (t.conc c).gleanAge = 0 ∧
      (cs.sending = true → cs.firstDue = false → s.laneState c l = 3 →
        (t.conc c).outGrain = some (l, grainBytes c .glean d l))) ∧
  ∀ (s : State) (c : Conc) (d : Dealing) (l unit : Nat),
    let cs := s.conc c
    s.mergeOn c = true → s.nextClass c = some .resend → s.actMask c ≠ 0 → cs.resendCur = some d →
    nextLane cs.dealMask cs.lastLane = some l →
    ∃ t, exec (.dealGrain c {} unit) s = .next t ∧ (t.conc c).lastLane = l ∧ (t.conc c).stream = cs.stream ∧
      (t.conc c).resendCur = d.rest ∧ (t.conc c).resendAge = 0 ∧
      (cs.sending = true → cs.firstDue = false → s.laneState c l = 3 →
        (t.conc c).outGrain = some (l, grainBytes c .resend d l))

/-- GLEAN_SHEAF_FORM (R171, R190-R192): the engine's next glean gets one glean sheaf, of the frame in turn, with the records of
its region and window where it was not refused, none before time 0 (R191, R293), and its trailer in the last. RESEND_SHEAF (R194): the next sheaf of the oldest request is
read where it is held, and else skipped and counted. -/
def Obligations.GleansAndResendsAreServed : Prop :=
  (∀ (s : State) (c : Conc) (g : Glean) (at_ : Nat),
    let n := wrappedFrame g.nextFrame
    let ws := if g.nextFrame < 0 then [] else s.gleanWords c g n []
    let g' := { g.next g.nextFrame (s.shadowLost c g.nextFrame) ws with since := max s.now at_ }
    let body := g.headerWords ++ ws ++ (if g'.formed then g'.trailerWords else [])
    s.mergeOn c = true → (s.conc c).nextGlean = some g → s.dramBusy c = false →
    g.refused = true ∨ s.servesNow c true .glean = true → s.stored (pgGLEAN c) Reg.GLEAN.GLEAN_CNT < 2 ^ 32 - 1 →
    ∃ t, exec (.gleanSheafForm c {} at_) s = .next t ∧
      (t.conc c).gleanQ = (s.conc c).gleanQ ++
        [{ frame := n, bytes := s.gleanBytes c g n body, ends := if g'.formed then some g.trig.num else none }] ∧
      g' ∈ (t.conc c).gleans ∧ g'.part = g.part + 1 ∧ g'.nextFrame = g.nextFrame + 1 ∧
      t.stored (pgGLEAN c) Reg.GLEAN.ACTIVE_BUSY = (!g'.formed).toNat ∧
      t.stored (pgGLEAN c) Reg.GLEAN.GLEAN_CNT = s.stored (pgGLEAN c) Reg.GLEAN.GLEAN_CNT + g'.formed.toNat ∧
      s.keepsPages [pgGLEAN c] t ∧ t.conc c.other = s.conc c.other) ∧
  ∀ (s : State) (c : Conc) (q : Resend) (r : List Resend) (at_ : Nat),
    let cs := s.conc c
    s.mergeOn c = true → cs.resends = q :: r → cs.resendCur = none → s.dramBusy c = false →
    ((s.heldSheaf c q.next).isSome = true → s.servesNow c false .resend = true) → s.stored (pgGLEAN c) Reg.GLEAN.RESEND_SKIP_CNT < 2 ^ 32 - 1 →
    ∃ t, exec (.resendSheaf c [] at_) s = .next t ∧
      (t.conc c).resends = (if q.left ≤ 1 then r
        else { next := (q.next + 1) % 2 ^ 32, left := q.left - 1, started := true, since := max s.now at_ } :: r) ∧
      (∀ m, s.heldSheaf c q.next = some m →
        (t.conc c).resendCur = some { frame := m.frame, bytes := s.readSheaf c m, grain := 0 } ∧
        t.stored (pgGLEAN c) Reg.GLEAN.RESEND_SKIP_CNT = s.stored (pgGLEAN c) Reg.GLEAN.RESEND_SKIP_CNT) ∧
      (s.heldSheaf c q.next = none → (t.conc c).resendCur = none ∧
        t.stored (pgGLEAN c) Reg.GLEAN.RESEND_SKIP_CNT = s.stored (pgGLEAN c) Reg.GLEAN.RESEND_SKIP_CNT + 1) ∧
      s.keepsPages [pgGLEAN c] t ∧ t.conc c.other = s.conc c.other

/-! ### Triggers and gates -/

/-- TRIG_PIN_EDGE of the selected polarity on an enabled pin (R173): a trigger at the stamp plus PIN_OFS (R197), unless the pin's
last accepted edge lies less than 32 T_ref before it, which CLOSE_CNT counts. GATE_PIN_CHANGE (R179): the filter starts, or a change
back before MIN_T is a glitch. GATE_EDGE_ACCEPT after MIN_T (R34, R179, R180): the level is accepted and shown, and every tile
is to change its gate at the first crossing plus its delay; where the pin marks, a gate mark waits (R182). -/
def Obligations.PinsTriggerAndGate : Prop :=
  (∀ (s : State) (p : Pin) (rising : Bool) (stamp : Nat),
    let time := ((stamp : Int) + signedOf 20 (s.fld pgTRIG (Reg.TRIG.PIN_OFS_OFS.nth p.idx))).toNat
    let far := ∀ l, s.trig.last p = some l → l + 32 * 4096 ≤ stamp
    s.powered = true → s.trigEnabled p = true → rising ≠ s.trigFalling p → s.stored pgTRIG Reg.TRIG.CLOSE_CNT < 2 ^ 32 - 1 →
    ∃ t, exec (.trigPinEdge p rising stamp) s = .next t ∧ t.now = max s.now (stamp / 4096) ∧
      (far → t.trig.pins = s.trig.pins ++ [(p.idx, time)] ∧ t.trig.last p = some stamp ∧
        s.changesOnly [.now, .trig] t) ∧
      (¬far → t.trig = s.trig ∧ t.stored pgTRIG Reg.TRIG.CLOSE_CNT = s.stored pgTRIG Reg.TRIG.CLOSE_CNT + 1 ∧
        s.keepsRegs [(pgTRIG, Reg.TRIG.CLOSE_CNT.off)] t ∧ s.changesOnly [.now, .regs, .stale] t)) ∧
  (∀ (s : State) (p : Pin) (high : Bool) (stamp : Nat),
    let g := s.trig.gate p
    s.powered = true → high ≠ g.raw → s.stored pgTRIG Reg.TRIG.GLITCH_CNT < 2 ^ 32 - 1 →
    ∃ t, exec (.gatePinChange p high stamp) s = .next t ∧
      t.trig = s.trig.setGate p { g with raw := high, since := if g.since.isSome then none else some stamp } ∧
      t.stored pgTRIG Reg.TRIG.GLITCH_CNT = s.stored pgTRIG Reg.TRIG.GLITCH_CNT + g.since.isSome.toNat ∧
      s.keepsRegs [(pgTRIG, Reg.TRIG.GLITCH_CNT.off)] t ∧ s.changesOnly [.now, .regs, .stale, .trig] t) ∧
  ∀ (s : State) (p : Pin) (at_ st : Nat),
    let g := s.trig.gate p
    let isOpen := g.raw != s.gatePol p
    let time := ((st : Int) + signedOf 20 (s.fld pgTRIG (Reg.TRIG.PIN_OFS_OFS.nth (2 + p.idx)))).toNat
    s.powered = true → g.since = some st → st + s.fld pgTRIG Reg.TRIG.GATE_CTRL_MIN_T * 4096 ≤ at_ * 4096 →
    ∃ t, exec (.gateEdgeAccept p at_) s = .next t ∧ t.trig.gate p = { g with level := g.raw, since := none } ∧
      t.stored pgTRIG (gateOpenReg p) = isOpen.toNat ∧
      t.trig.marks = s.trig.marks ++
        (if s.gateMarked p then [{ source := p.idx, isOpen := isOpen, time := time }] else []) ∧
      (∀ u, let e : GateEdge := { src := 1 + p.idx, tap := time / 64 + s.gateDelay u, isOpen := isOpen }
        t.tile u = { s.tile u with gateNext := insertGate e (s.tile u).gateNext }) ∧
      s.keepsRegs [(pgTRIG, Reg.TRIG.GATE_STATUS.off)] t ∧ s.changesOnly [.now, .regs, .stale, .tiles, .trig] t

/-- TRIGGER_DELIVERY of a frame that has ended (R176, R177): its first 64 triggers, in order of time, are numbered on from
TRIG_NEXT and delivered with its gate marks; the next delivery is the next frame's. A single trigger that asks for a
glean is queued by each concentrator that forms sheaves, has its engine enabled and fewer than 64 outstanding (R189). -/
def Obligations.TriggersAreDelivered : Prop :=
  ∀ (s : State) (i : FrameInfo),
    let n := s.trig.nextFrame
    let new := numberTrigs (s.stored pgTRIG Reg.TRIG.TRIG_NEXT_NUM) ((s.trigsOf n).take 64)
    let marks := (s.trig.marks.filter (fun m => decide (frameOfTicks m.time ≤ n))).foldl (fun l m => insertMark m l) []
    s.powered = true → mapFind n s.frames = some i → n < s.frame →
    ∃ t, exec .triggerDelivery s = .next t ∧ t.trig.nextFrame = n + 1 ∧
      mapFind n t.frames = some { i with delivered := true, triggers := new, marks := marks.take 64 } ∧
      (∀ f, f ≠ n → mapFind f t.frames = mapFind f s.frames) ∧
      t.stored pgTRIG Reg.TRIG.TRIG_NEXT_NUM = (s.stored pgTRIG Reg.TRIG.TRIG_NEXT_NUM + new.length) % 2 ^ 24 ∧
      t.trig.pins = s.trig.pins.filter (fun x => decide (n < frameOfTicks x.2)) ∧
      (new.any (·.glean) = false → t.concA = s.concA ∧ t.concB = s.concB ∧ s.keepsPages [pgTRIG] t) ∧
      ∀ (c : Conc) (g : Trigger),
        let out := ((s.conc c).gleans.filter (fun x => !x.refused)).length
        new = [g] → g.glean = true → (s.conc c).merging = true → s.flag (pgGLEAN c) Reg.GLEAN.GLEAN_CTRL_ENABLE = true →
        out < 64 →
        (t.conc c).gleans = (s.conc c).gleans ++
          [{ trig := g, refused := false, formed := false, nextFrame := ((g.time / 4096 : Nat) - (g.pre : Int)) / 4096,
             part := 0, hits := 0, delivered := 0, overwritten := 0, accepted := s.frame,
             since := max s.now ((n + 1) * frameTref + s.deliveryWait) }] ∧
        t.stored (pgGLEAN c) Reg.GLEAN.QUEUE_STAT_OUTSTANDING = out + 1

/-! ### Calibration -/

/-- SIDE_ITEM of the tile in turn that the settings admit (R203): its code and its tap count one more. One of a calibration
hit pairs with its captured record and enters the channel's sums, where the engine reads that concentrator and R210 does not
exclude it. TURN_ACCUM_END at the timeout or once every unmasked channel has its items (R204, R205): the turn's results wait,
with refitted tap positions where its taps have items enough and are uniform. -/
def Obligations.TurnsAccumulateAndEnd : Prop :=
  (∀ (s : State) (c : Conc) (tl : Fin 16) (i : BitVec 32) (r : List (BitVec 32)),
    let v := i.toNat
    let kind := bitsOf 31 30 v
    let chan := tl.val * 4096 + bitsOf 25 14 v
    let bin := chan * 256 + bitsOf 7 0 v
    let tap := tl.val * 64 + bitsOf 13 8 v
    s.mergeOn c = true → (s.port tl c).side = i :: r → kind = 1 ∨ kind = 3 → s.cal.turnOn = true → s.turnTile = tl →
    s.flag pgCALS Reg.CALS.CTRL_CD_EN = true → (kind = 1 → s.flag pgCALS Reg.CALS.CTRL_CD_STREAM = true) →
    (kind = 3 → s.flag pgCALS Reg.CALS.CTRL_CD_SHADOW = true) → v.testBit 29 = (s.rx c tl).parity →
    s.isMasked chan = false → s.isSelfMasked chan = false → mapGetD 0 bin (s.conc c).hist < 65535 →
    mapGetD 0 tap (s.conc c).tapHist < 2 ^ 32 - 1 →
    ∃ t, exec (.sideItem c tl .clean .clean) s = .next t ∧ (t.port tl c).side = r ∧
      (t.conc c).hist = mapPut bin (mapGetD 0 bin (s.conc c).hist + 1) (s.conc c).hist ∧
      (t.conc c).tapHist = mapPut tap (mapGetD 0 tap (s.conc c).tapHist + 1) (s.conc c).tapHist ∧
      t.conc c.other = s.conc c.other ∧ s.changesOnly [.tiles, .concA, .concB] t) ∧
  (∀ (s : State) (c : Conc) (tl : Fin 16) (i : BitVec 32) (r : List (BitVec 32)) (k : Capture),
    let v := i.toNat
    let chan := tl.val * 4096 + bitsOf 25 14 v
    s.mergeOn c = true → (s.port tl c).side = i :: r → bitsOf 31 30 v = 2 → (s.conc c).captured = [k] → k.chan = chan →
    c = s.histConc → Nat.land k.flags 13 = 0 → v.testBit 29 = (s.rx c tl).parity →
    ∃ t, exec (.sideItem c tl .clean .clean) s = .next t ∧ (t.port tl c).side = r ∧ (t.conc c).captured = [] ∧
      (mapGetD {} chan t.cal.sums).n = (mapGetD {} chan s.cal.sums).n + 1 ∧
      (mapGetD {} chan t.cal.sums).d = (mapGetD {} chan s.cal.sums).d + (bitsOf 7 0 v : Rat) ∧
      (mapGetD {} chan t.cal.sums).t = (mapGetD {} chan s.cal.sums).t + (k.tot : Rat) ∧
      s.changesOnly [.tiles, .concA, .concB, .cal] t) ∧
  ∀ s : State,
    let ns := (s.conc s.histConc).tapCounts s.turnTile
    let enough := s.flag pgCALS Reg.CALS.CTRL_CD_EN && decide (64 * s.fld pgCALS Reg.CALS.CD_HITS_HITS ≤ ns.sum)
    s.powered = true → s.cal.turnOn = true →
    s.cal.turnFrom + s.fld pgCALS Reg.CALS.CD_TIMEOUT_SEC * 1000 * 640000 ≤ s.now ∨
      (∀ c ∈ chansOf s.turnTile, s.isMasked c = true ∨ s.isSelfMasked c = true ∨
        s.fld pgCALS Reg.CALS.CD_HITS_HITS ≤ ((s.conc s.histConc).codes c).sum) →
    ∃ t r, exec .turnAccumEnd s = .next t ∧ t.cal.turnOn = false ∧ t.cal.results = s.cal.results ++ [r] ∧
      r.tile = s.turnTile ∧ r.taps = (if enough && uniform ns then tapFields ns else []) ∧
      (enough = true → uniform ns = false → (t.rd pgCALS Reg.HDR.EVT_PENDING.off).getLsbD 3 = true) ∧
      (enough = false → r.tac = []) ∧ s.keepsPages [pgCALS] t ∧ s.changesOnly [.regs, .stale, .eventQ, .cal, .freeCount] t

/-- ENGINE_STAGE outside warm-up with results that wait (R214): where the staging stores are empty, the pair admits a swap and
neither a peal nor HOLD stands in the way, they are staged, and their swap is requested four frames ahead with AUTO_SWAP, or
READY is set with event 4; else the engine waits, and while frames run WAIT reads 1. RESTORING_SWAP_REQUEST (R328): the poisoned entry's MRAM copy, but for SET_EPOCH and the reserved bits, is staged in the
concentrators and a swap of its tile is requested. -/
def Obligations.ResultsAreStagedAndSwapsRequested : Prop :=
  (∀ (s : State) (r : CalResult) (rest : List CalResult),
    s.powered = true → s.cal.warm = [] → s.cal.staged = none → s.cal.results = r :: rest → s.cal.swap = none →
    ∃ t, exec .engineStage s = .next t ∧
      (s.mayStage = true → t.cal.staged = some r ∧ t.cal.results = rest ∧
        (∀ c, (s.conc c).stages = true → (s.conc c).corrStaged = [] → r.corr.length ≤ 4096 →
          (t.conc c).corrStaged = r.corr.foldl (fun m e => mapPut e.1 e.2 m) []) ∧
        t.tacStaged = r.tac.foldl (fun m e => mapPut e.1 e.2 m) s.tacStaged) ∧
      (s.mayStage = true → s.flag pgCALS Reg.CALS.CTRL_AUTO_SWAP = true →
        t.cal.swap = some { tile := r.tile, frame := s.frame + 4, byHost := false, restoring := false, committed := false,
                            quiet := false } ∧ t.stored pgCALS Reg.CALS.SWAP_AT = sheafOf (s.frame + 4)) ∧
      (s.mayStage = true → s.flag pgCALS Reg.CALS.CTRL_AUTO_SWAP = false →
        t.cal.swap = none ∧ t.stored pgCALS Reg.CALS.SWAP_STAT_READY = 1 ∧
        (s.flag pgCALS Reg.CALS.SWAP_STAT_READY = false → (t.rd pgCALS Reg.HDR.EVT_PENDING.off).getLsbD 4 = true)) ∧
      (s.mayStage = false → t = s ∧ (s.running = true →
        (t.windowWord .cals pgCALS Reg.CALS.SWAP_STAT.off).map (·.getLsbD 26) = some true))) ∧
  ∀ (s : State) (c : Conc) (chan : BitVec 16),
    let e := mapGetD 0 chan.toNat s.mramCorr
    s.powered = true → (s.conc c).entryPoisoned chan.toNat = true → s.peal = none → s.cal.swap = none →
    ∃ t, exec (.restoringSwapRequest c chan) s = .next t ∧
      t.cal = { s.cal with swap := some { tile := chTile chan.toNat, frame := s.frame + 4, byHost := false, restoring := true,
                                          committed := false, quiet := false } } ∧
      (∀ k, (s.conc k).stages = true → (s.conc k).stageFull chan.toNat = false →
        (t.conc k).corrStaged =
          mapPut chan.toNat (entrySet e 17 0 ((s.conc k).entryStaged chan.toNat).toNat) (s.conc k).corrStaged) ∧
      t.stored pgCALS Reg.CALS.SWAP_AT = sheafOf (s.frame + 4) ∧ t.stored pgCALS Reg.CALS.SWAP_STAT_PENDING = 1

/-- SWAP_COMMIT two frames before the swap (R215, R216): it is committed where its tile is not OFF, the pair admits it and no
staging store that will take part is full; else it is withdrawn, and ABORT_CNT counts it with event 1. SWAP_BOUNDARY of a committed swap (R116, R217):
parity toggles in the tile and in both concentrators, staged tables and entries are installed, the peal epoch advances, SWAP_CNT
counts it with event 0, and no swap is pending. -/
def Obligations.SwapsCommitAndTakeEffect : Prop :=
  (∀ (s : State) (w : PendingSwap),
    let bad := s.pwr (pgTILE w.tile) = 0 ∨ s.swapAdmitted = false ∨
      ∃ c, (s.conc c).merging = true ∧ s.flag (pgCORR c) Reg.CORR.STAGE_STATUS_FULL = true
    s.powered = true → s.cal.swap = some w → w.committed = false → w.restoring = false → w.quiet = false →
    s.frame + 2 = w.frame →
    s.stored pgCALS Reg.CALS.ABORT_CNT < 2 ^ 32 - 1 →
    ∃ t, exec .swapCommit s = .next t ∧
      (¬bad → t.cal = { s.cal with swap := some { w with committed := true } } ∧
        t.stored pgCALS Reg.CALS.SWAP_STAT_COMMITTED = 1 ∧ s.keepsRegs [(pgCALS, Reg.CALS.SWAP_STAT.off)] t ∧
        s.changesOnly [.regs, .stale, .cal] t) ∧
      (bad → t.cal.swap = none ∧ t.stored pgCALS Reg.CALS.SWAP_STAT_PENDING = 0 ∧
        t.stored pgCALS Reg.CALS.ABORT_CNT = s.stored pgCALS Reg.CALS.ABORT_CNT + 1 ∧
        (t.rd pgCALS Reg.HDR.EVT_PENDING.off).getLsbD 1 = true)) ∧
  ∀ (s : State) (w : PendingSwap),
    let e := (s.epochNow + 1) % 65536
    s.powered = true → s.cal.swap = some w → w.committed = true → w.quiet = false → w.frame ≤ s.frame →
    s.pwr (pgTILE w.tile) ≠ 0 → s.stored pgCALS Reg.CALS.SWAP_CNT < 2 ^ 32 - 1 →
    ∃ t, exec .swapBoundary s = .next t ∧ t.cal.swap = none ∧ t.stored pgCALS Reg.CALS.SWAP_STAT_PENDING = 0 ∧
      (t.tile w.tile).parity = !(s.tile w.tile).parity ∧
      (∀ c, (t.rx c w.tile).parity = !(s.rx c w.tile).parity) ∧ (∀ u, u ≠ w.tile → t.tile u = s.tile u) ∧
      t.stored pgJRNL Reg.JRNL.PEAL_STAT_EPOCH = e ∧ t.savedEpoch = e ∧
      (∀ x ∈ t.frames, w.frame ≤ x.1 → x.2.pealEpoch = e) ∧
      t.tac = (s.tacStaged.filter (fun x => x.1 / 4096 == w.tile.val)).foldl (fun m x => mapPutD 0 x.1 x.2 m) s.tac ∧
      (∀ c, (s.conc c).stages = true → (t.conc c).corrStaged = [] ∧
        t.stored (pgCORR c) Reg.CORR.SWAP_EPOCH_EPOCH = e ∧
        (t.conc c).corr = ((s.conc c).corrStaged.filter (fun x => !(s.conc c).stagedBad.contains x.1)).foldl
          (fun m x => mapPutD 0 x.1 (entrySet x.2 15 0 e) m) (s.conc c).corr) ∧
      t.stored pgCALS Reg.CALS.SWAP_CNT = s.stored pgCALS Reg.CALS.SWAP_CNT + 1 ∧
      (t.rd pgCALS Reg.HDR.EVT_PENDING.off).getLsbD 0 = true


/-! ### Umauf links -/

/-- The words of commands say what they are (R377, R378, R449): of every well-formed row that stands for a command, its body
words read back as its code and fields. -/
def Obligations.CommandWordsRoundTrip : Prop :=
  ∀ (c : Instr) (s : State) (h : UHdr) (u : UCmd) (e : BlockEnv),
    c.wellFormed = true → s.commandOf c = some (h, u, e) → parseCmd u.code u.words = u

/-- A downstream frame behind its sync word (R368), of which the two codewords as received decode to a payload with the port's own
marker, at a locked port (R370). One that carries the bytes of one command, with its
CRC, and grants without blocks, is that command, and FEC_CE_CNT counts what the decoder corrected (R319, R377). A data grant
for the port's address is kept where its slot fits the upstream frame, and else counted in GRANT_BAD_CNT (R371, R372, R376). An uncorrectable frame is counted in
FEC_UE_CNT, one with another port's IDs in FOREIGN_CNT with event 3, and neither does more. What a port sends. UPSTREAM_BURST
of a registered port (R372, R374), once the belfry lets the ports send (R470): as many blocks as granted; a single one is the status block that is
due, else the oldest result, where it is known, else the first event page that waits, but an event page after four results in a
row while one waits; with nothing to send, a status block. DISCOVERY_ANSWER of an unregistered port (R375): the chosen grant is answered with serial number,
hardware type and BO, from the broadcast address. DISCOVERY_RETRY: DISC_TRY_CNT counts, and the port draws again from a window
twice as wide, up to BO_MAX. REGISTRATION_LOSS: registration and address are lost, with event 1. -/
def Obligations.LinksCarryCommandsAndAnswers : Prop :=
  ((∀ (c : Instr) (s : State) (u : Um) (word0 word1 payload : List Byte) (corrected n : Nat) (h : UHdr) (x : UCmd) (e : BlockEnv),
     let v := s.bump (pgUM u) Reg.UM.FEC_CE_CNT 0 corrected
     let auth : List Word := match h.auth with | some a => [a.seq, a.tag.extractLsb' 32 32, a.tag.extractLsb' 0 32] | none => []
     let bytes := headerBytes h x.code ++ wordsBytes (x.words ++ auth)
     framePayload word0 word1 = some (payload, corrected) →
     s.pow.mode = .on → s.portLocked u = true → s.fld (pgUM u) Reg.UM.TREE_FIXED = 1 →
     s.ownMarker u (payloadMarker payload) = true →
     (∀ i, i < 6 → (crc16 ((payload.drop (16 + 8 * i)).take 6)).toNat = ofBytes ((payload.drop (16 + 8 * i)).take 8) % 65536 ∧
       bitsOf 43 41 (ofBytes ((payload.drop (16 + 8 * i)).take 8)) = 0) →
     c.wellFormed = true → v.commandOf c = some (h, x, e) → h.port = u → e.stops = none →
     payload.drop 64 = bytes ++ toBytes 2 (crc16 bytes).toNat ++ [0, 0] ++ List.replicate n 0 →
     exec (.downstreamFrame u syncWord word0 word1 h.at_ [e.reads]) s = exec c v) ∧
   (∀ (s : State) (u : Um) (word0 word1 payload : List Byte) (corrected at_ : Nat) (reads : List Reads),
     let g (i : Nat) := ofBytes ((payload.drop (16 + 8 * i)).take 8)
     let start := bitsOf 49 44 (g 0)
     let blocks := bitsOf 43 41 (g 0)
     let fits := start * 32 + 256 + 288 * blocks ≤ 2048
     framePayload word0 word1 = some (payload, corrected) →
     s.pow.mode = .on → s.portLocked u = true → s.fld (pgUM u) Reg.UM.TREE_FIXED = 1 →
     s.ownMarker u (payloadMarker payload) = true →
     (∀ i, i < 6 → (crc16 ((payload.drop (16 + 8 * i)).take 6)).toNat = g i % 65536) →
     (∀ i, i < 6 → 1 ≤ i → bitsOf 43 41 (g i) = 0) → bitsOf 47 40 (ofBytes ((payload.drop 64).take 8)) = 0 →
     s.flag (pgUM u) Reg.UM.ADDR_REG = true → s.stored (pgUM u) Reg.UM.ADDR_ADDR = bitsOf 63 52 (g 0) →
     bitsOf 51 50 (g 0) = 1 → 1 ≤ blocks → s.below (pgUM u) [Reg.UM.GRANT_BAD_CNT] 1 →
     s.stored (pgUM u) Reg.UM.FEC_CE_CNT + corrected < 2 ^ 32 →
     ∃ t, exec (.downstreamFrame u syncWord word0 word1 at_ reads) s = .next t ∧
       (fits → t.um u = { s.um u with granted := (s.um u).granted ++ [(false, start, blocks)] } ∧
         s.keepsRegs [(pgUM u, Reg.UM.FEC_CE_CNT.off)] t) ∧
       (¬fits → t.um u = s.um u ∧ t.stored (pgUM u) Reg.UM.GRANT_BAD_CNT = s.stored (pgUM u) Reg.UM.GRANT_BAD_CNT + 1 ∧
         s.keepsRegs [(pgUM u, Reg.UM.FEC_CE_CNT.off), (pgUM u, Reg.UM.GRANT_BAD_CNT.off)] t) ∧ t.um u.other = s.um u.other ∧
       t.stored (pgUM u) Reg.UM.FEC_CE_CNT = s.stored (pgUM u) Reg.UM.FEC_CE_CNT + corrected ∧
       s.changesOnly [.regs, .stale, .um0, .um1] t) ∧
   (∀ (s : State) (u : Um) (word0 word1 : List Byte) (at_ : Nat) (reads : List Reads),
     framePayload word0 word1 = none → s.pow.mode = .on → s.stored (pgUM u) Reg.UM.FEC_UE_CNT < 2 ^ 32 - 1 →
     ∃ t, exec (.downstreamFrame u syncWord word0 word1 at_ reads) s = .next t ∧
       t.stored (pgUM u) Reg.UM.FEC_UE_CNT = s.stored (pgUM u) Reg.UM.FEC_UE_CNT + 1 ∧
       s.keepsRegs [(pgUM u, Reg.UM.FEC_UE_CNT.off)] t ∧ s.changesOnly [.regs, .stale] t) ∧
   ∀ (s : State) (u : Um) (word0 word1 payload : List Byte) (corrected at_ : Nat) (reads : List Reads),
     framePayload word0 word1 = some (payload, corrected) → s.pow.mode = .on → s.fld (pgUM u) Reg.UM.TREE_FIXED = 1 → (payloadMarker payload).crcOk = true →
     s.ownMarker u (payloadMarker payload) = false → s.stored (pgUM u) Reg.UM.FOREIGN_CNT < 2 ^ 32 - 1 →
     ∃ t, exec (.downstreamFrame u syncWord word0 word1 at_ reads) s = .next t ∧
       t.stored (pgUM u) Reg.UM.FOREIGN_CNT = s.stored (pgUM u) Reg.UM.FOREIGN_CNT + 1 ∧
       (t.rd (pgUM u) Reg.HDR.EVT_PENDING.off).getLsbD 3 = true ∧ s.changesOnly [.regs, .stale, .eventQ] t) ∧
  (∀ (s : State) (u : Um) (start n : Nat) (r : List (Bool × Nat × Nat)),
    let m := s.um u
    let ev := s.eventQ.find? (waitsOn u)
    let next := m.results.head?.filter (fun f => !f.held)
    s.powered = true → m.granted = (false, start, n) :: r → s.flag (pgUM u) Reg.UM.ADDR_REG = true → s.maySend = true →
    s.pow.restartOn = none →
    ∃ t, exec (.upstreamBurst u) s = .next t ∧ (t.um u).granted = r ∧ (t.um u).burst.length = n ∧
      (t.um u).burstFrom = start * 32 + s.stored (pgUM u) Reg.UM.EQD_UI ∧ t.um u.other = s.um u.other ∧
      s.changesOnly [.um0, .um1, .eventQ] t ∧
      (n = 1 → m.statusDue = true ∨ (next = none ∧ ev = none) →
        (t.um u).burst = [s.statusBlock u] ∧ (t.um u).statusDue = false ∧ (t.um u).results = m.results ∧
        t.eventQ = s.eventQ) ∧
      (∀ f l, n = 1 → m.statusDue = false → m.results = f :: l → f.held = false → ev = none ∨ m.sinceEvent < 4 →
        (t.um u).burst = [block (s.ownAddr u) 1 f.tag.toNat f.frag f.last f.words] ∧ (t.um u).results = l ∧
        t.eventQ = s.eventQ) ∧
      (∀ e, n = 1 → m.statusDue = false → ev = some e → next = none ∨ 4 ≤ m.sinceEvent →
        (t.um u).burst = [s.eventBlock u e.1] ∧ (t.um u).results = m.results ∧
        (∀ x ∈ t.eventQ, x.1 = e.1 → waitsOn u x = false) ∧
        ∀ x ∈ s.eventQ, x.1 ≠ e.1 → s.eventDone x = false → x ∈ t.eventQ)) ∧
  (∀ (s : State) (u : Um) (start n : Nat) (r : List (Bool × Nat × Nat)),
    s.powered = true → (s.um u).granted = (true, start, n) :: r → s.flag (pgUM u) Reg.UM.ADDR_REG = false →
    s.maySend = true →
    ∃ t, exec (.discoveryAnswer u) s = .next t ∧
      t.um u = { s.um u with
        granted := r, skip := none, answered := some s.now, burstFrom := start * 32
        burst := [block 0xFFF 3 0 0 true [s.rd pgMOD 0x040, s.rd pgMOD 0x044,
          BitVec.ofNat 32 (s.stored pgMOD Reg.MOD.HW_TYPE_TYPE * 65536 + s.stored (pgUM u) Reg.UM.PSTAT_BO)]] } ∧
      s.changesOnly [.um0, .um1] t) ∧
  (∀ (s : State) (u : Um) (x : Nat),
    s.powered = true → (s.um u).answered = some x → s.flag (pgUM u) Reg.UM.ADDR_REG = false →
    s.stored (pgUM u) Reg.UM.DISC_TRY_CNT < 2 ^ 32 - 1 →
    ∃ t k, exec (.discoveryRetry u) s = .next t ∧
      t.stored (pgUM u) Reg.UM.DISC_TRY_CNT = s.stored (pgUM u) Reg.UM.DISC_TRY_CNT + 1 ∧
      t.stored (pgUM u) Reg.UM.PSTAT_BO = min (s.stored (pgUM u) Reg.UM.PSTAT_BO + 1) (s.fld (pgUM u) Reg.UM.DISC_BO_MAX) ∧
      t.stored (pgUM u) Reg.UM.PSTAT_DSTATE = 1 ∧ k < 2 ^ t.stored (pgUM u) Reg.UM.PSTAT_BO ∧
      t.um u = { s.um u with skip := some k, answered := none } ∧ t.um u.other = s.um u.other ∧
      s.keepsRegs [(pgUM u, Reg.UM.DISC_TRY_CNT.off), (pgUM u, Reg.UM.PSTAT.off)] t ∧
      s.changesOnly [.regs, .stale, .um0, .um1, .freeCount] t) ∧
  ∀ (s : State) (u : Um) (x : Nat),
    s.powered = true → s.portLocked u = false → (s.um u).lostFrom = some x → s.flag (pgUM u) Reg.UM.ADDR_REG = true →
    ∃ t, exec (.registrationLoss u) s = .next t ∧ t.flag (pgUM u) Reg.UM.ADDR_REG = false ∧
      t.stored (pgUM u) Reg.UM.ADDR_ADDR = 0 ∧ t.stored (pgUM u) Reg.UM.PSTAT_DSTATE = 0 ∧
      (t.rd (pgUM u) Reg.HDR.EVT_PENDING.off).getLsbD 1 = true ∧
      s.keepsRegs [(pgUM u, Reg.UM.ADDR.off), (pgUM u, Reg.UM.PSTAT.off), (pgUM u, Reg.HDR.EVT_PENDING.off)] t ∧
      s.changesOnly [.regs, .stale, .eventQ] t

/-- FRAME_BOUNDARY while frames run (R2, R3, R404): the next frame begins, 4096 T_ref after the last began; every write accepted
before it is in force, but for a lower word of INC or SLEW_INC that waits for its upper word (R236), and the level that the
schedule writes at the boundary is in force from it (R209); no written 1 waits any longer. While frames do not run nothing happens. -/
def Obligations.FramesAdvance : Prop :=
  (∀ (s : State) (slips : List (Fin 16 × BitVec 48)) (env : BoundaryEnv),
    s.powered = true → s.running = true →
    ∃ t, exec (.frameBoundary slips env) s = .next t ∧ t.frame = s.frame + 1 ∧ t.now = (s.frame + 1) * 4096 ∧
      t.running = true ∧ t.pendW = [] ∧
      (∀ p o, o < 4096 → mapFind (regKey p o) s.time.lo = none → pageKind p ≠ some .block ∨ o ≠ Reg.BLOCK.INJ_DAC.off →
        t.live p o = t.rd p o) ∧
      (∀ u b : Fin 16, t.fld (pgBLOCK u b) Reg.BLOCK.INJ_DAC_LEVEL = t.stored (pgBLOCK u b) Reg.BLOCK.INJ_DAC_LEVEL) ∧
      (∃ i, mapFind (s.frame + 1) t.frames = some i)) ∧
  ∀ (s : State) (slips : List (Fin 16 × BitVec 48)) (env : BoundaryEnv),
    s.running = false → exec (.frameBoundary slips env) s = .next s


/-! ### The pair of concentrators and the stick -/

/-- CROSSLINK_MESSAGE, with no swap pending (R260-R262). In step, the digests of a sheaf of
which both messages are held: equal ones leave it in step; a mismatch is counted with the sheaf number and both digests, the
concentrator is DIVERGED, its episode counted with event 0, and journaled as 0xE3 unless its partner is DIVERGED already.
DIVERGED, the last of RECOVER matches in a row brings it back in step, with event 1. A message that says the partner has
frozen or is in reset makes it SOLO, counted with event 2, also before its join sheaf. REJOIN (R277, R324). A concentrator that leaves reset and passes
its self-test is filled and loaded: it is loading, with the entries in force that MRAM keeps, empty queues and rings, its
retired channels, BOARD_ID and the power state that its ceiling allows; its test bit shows. One that fails stays in reset with
event 28 and ST_DETAIL, and is not tested again until its next reset. One whose freeze was released is filled likewise. JOIN_SHEAF_CHOOSE: the join sheaf lies at least 8 frames ahead,
both JOIN_AT show it, and it and a running partner are JOINING. -/
def Obligations.ThePairComparesAndRejoins : Prop :=
  ((∀ (s : State) (c : Conc) (m o : CrossMsg) (r : List CrossMsg) (a b : BitVec 64),
     let p := pgSTEP c
     s.powered = true → (s.conc c).merging = true → s.cal.swap = none → (s.conc c).inbox = m :: r → (s.conc c).own = [o] →
     (s.conc c).partner = [] → m.frame = o.frame → m.run ≠ .frozen → m.run ≠ .reset → o.digest = some a → m.digest = some b →
     s.below p [Reg.STEP.DIV_CNT, Reg.STEP.DIV_EP_CNT] 1 →
     ∃ t, exec (.crosslinkMessage c) s = .next t ∧ (t.conc c).inbox = r ∧ (t.conc c).own = [] ∧ (t.conc c).partner = [] ∧
       (t.conc c).partnerNext = m.frame + 1 ∧ t.conc c.other = s.conc c.other ∧
       (s.pair c = 2 → a = b → t.pair c = 2 ∧ s.keepsRegs [] t ∧ t.journal = s.journal) ∧
       (s.pair c = 2 → a ≠ b → t.pair c = 3 ∧ t.stored p Reg.STEP.DIV_CNT = s.stored p Reg.STEP.DIV_CNT + 1 ∧
         t.stored p Reg.STEP.DIV_EP_CNT = s.stored p Reg.STEP.DIV_EP_CNT + 1 ∧
         t.stored p Reg.STEP.DIGEST_SHEAF = sheafOf o.frame ∧ t.stored p Reg.STEP.DIV_FIRST = sheafOf o.frame ∧
         t.stored p Reg.STEP.OWN_DIG_HI * 2 ^ 32 + t.stored p Reg.STEP.OWN_DIG_LO = a.toNat ∧
         t.stored p Reg.STEP.PART_DIG_HI * 2 ^ 32 + t.stored p Reg.STEP.PART_DIG_LO = b.toNat ∧
         (t.rd p Reg.HDR.EVT_PENDING.off).getLsbD 0 = true ∧ (t.conc c).matches_ = 0 ∧
         (s.pair c.other ≠ 3 → s.journalsEvent t 0xE3 0x0108 0x054 s.now) ∧
         (s.pair c.other = 3 → t.journal = s.journal)) ∧
       (s.pair c = 3 → a = b → s.fld p Reg.STEP.STEP_CTRL_RECOVER ≤ (s.conc c).matches_ + 1 →
         t.pair c = 2 ∧ (t.rd p Reg.HDR.EVT_PENDING.off).getLsbD 1 = true ∧ (t.conc c).matches_ = 0 ∧
         (s.pair c.other ≠ 3 → s.journalsEvent t 0xE4 0x0108 0x054 s.now) ∧
         (s.pair c.other = 3 → t.journal = s.journal)) ∧
       (s.pair c = 3 → a = b → (s.conc c).matches_ + 1 < s.fld p Reg.STEP.STEP_CTRL_RECOVER →
         t.pair c = 3 ∧ (t.conc c).matches_ = (s.conc c).matches_ + 1)) ∧
   ∀ (s : State) (c : Conc) (m : CrossMsg) (r : List CrossMsg),
     let p := pgSTEP c
     s.powered = true → (s.conc c).run ≠ .reset → s.cal.swap = none → (s.conc c).inbox = m :: r →
     m.run = .frozen ∨ m.run = .reset → s.pair c ≠ 0 → s.below p [Reg.STEP.PARTNER_LOST_CNT] 1 →
     ∃ t, exec (.crosslinkMessage c) s = .next t ∧ (t.conc c).inbox = r ∧ t.pair c = 0 ∧
       (t.conc c).run = (if (s.conc c).run = .joining then .running else (s.conc c).run) ∧
       t.stored p Reg.STEP.PARTNER_LOST_CNT = s.stored p Reg.STEP.PARTNER_LOST_CNT + 1 ∧
       (t.rd p Reg.HDR.EVT_PENDING.off).getLsbD 2 = true ∧ (t.conc c).joinAt = (if (s.conc c).run = .loading then (s.conc c).joinAt else none) ∧ (t.conc c).own = [] ∧
       (t.conc c).partner = [] ∧ t.conc c.other = s.conc c.other) ∧
  (∀ (s : State) (c : Conc) (start : ConcStart) (board : BitVec 6),
    let st := match c with | .a => Reg.INTG.ST_STAT_CONC_A | .b => Reg.INTG.ST_STAT_CONC_B
    let ok := checkersPass start.pass
    s.powered = true → (s.conc c).run = .reset → s.heldOff c = false → s.integ.failed.contains c = false →
    1 ≤ s.effCeil (pgMERGE c) → s.cal.swap = none → start.mram = [] → start.classKOk = true →
    ∃ t, exec (.rejoin c start board) s = .next t ∧ t.stored pgINTG st = ok.toNat ∧ t.conc c.other = s.conc c.other ∧
      (ok = true → (t.conc c).run = .loading ∧ (t.conc c).loaded = true ∧ (t.conc c).corr = s.tablesInForce ∧
        (t.conc c).retR = (s.conc c).retR ∧ (t.conc c).retS = (s.conc c).retS ∧ (t.conc c).joinAt = none ∧
        (t.conc c).dram = [] ∧ (t.conc c).metas = [] ∧ (t.conc c).queue = [] ∧ (t.conc c).inbox = [] ∧
        ((s.conc c.other).merging = true → (t.conc c).corrStaged = (s.conc c.other).corrStaged) ∧
        ((s.conc c.other).merging = false → mapWf s.savedCorr = true → s.savedCorr.length ≤ 4096 →
          (t.conc c).corrStaged = s.savedCorr) ∧
        t.stored (pgLANES c) Reg.LANES.STAT_BOARD_ID = board.toNat ∧
        t.pwr (pgMERGE c) = nextPower 0 (t.effCeil (pgMERGE c)) ∧
        (∀ l : Fin 64, t.flag (pgLANE c l) Reg.LANE.LANE_STAT_PLL_LOCK = true)) ∧
      (ok = false → t.conc c = s.conc c ∧ t.integ.failed.contains c = true ∧
        t.stored (pgDINTG c) Reg.DINTG.ST_DETAIL_DONE = 1 ∧
        t.stored (pgDINTG c) Reg.DINTG.ST_DETAIL_PASS = (start.pass &&& 0xFFFF7F).toNat ∧
        (∀ p ∈ [pgINTG, pgDINTG c], (t.rd p Reg.HDR.EVT_PENDING.off).getLsbD 28 = true) ∧
        s.keepsRegs [(pgINTG, st.off), (pgINTG, Reg.HDR.EVT_PENDING.off), (pgDINTG c, Reg.DINTG.ST_DETAIL.off),
          (pgDINTG c, Reg.HDR.EVT_PENDING.off)] t ∧ s.changesOnly [.regs, .stale, .eventQ, .integ] t)) ∧
  (∀ (s : State) (c : Conc) (start : ConcStart) (board : BitVec 6),
    (s.conc c).run = .reset → s.integ.failed.contains c = true → exec (.rejoin c start board) s = .next s) ∧
  (∀ (s : State) (c : Conc) (start : ConcStart) (board : BitVec 6),
    s.powered = true → (s.conc c).run = .loading → (s.conc c).loaded = false → s.cal.swap = none →
    ∃ t, exec (.rejoin c start board) s = .next t ∧ (t.conc c).run = .loading ∧ (t.conc c).loaded = true ∧
      (t.conc c).corr = s.tablesInForce ∧ (t.conc c).mc.postponed = [] ∧ (t.conc c).joinAt = none ∧ (t.conc c).dram = [] ∧
      t.conc c.other = s.conc c.other) ∧
  ∀ (s : State) (c : Conc),
    let j := s.joinFrame c
    s.powered = true → s.running = true → (s.conc c).waitsJoin = true → (c = .b → s.concA.waitsJoin = false) →
    (∀ w, s.cal.swap = some w → w.committed = true) →
    ∃ t, exec .joinSheafChoose s = .next t ∧ (t.conc c).joinAt = some j ∧ s.frame + 8 ≤ j ∧
      (∀ k, t.stored (pgSTEP k) Reg.STEP.JOIN_AT = sheafOf j) ∧
      t.pair c = 1 ∧
      ((s.conc c.other).run = .running → t.pair c.other = 1 ∧ (s.pair c.other ≠ 1 → (t.conc c.other).joinAt = some j)) ∧
      ((s.conc c.other).run ≠ .running → t.pair c.other = s.pair c.other ∧ t.conc c.other = s.conc c.other) ∧
      s.changesOnly [.regs, .stale, .concA, .concB] t

/-- LEASE_LAPSE at the deadline (R268, R269): counted with the deadline's sheaf number and event 1, journaled as 0xE1; the arbiter is in
GUARD for 5 µs and the former holder's lanes are idle. GUARD_END (R269, R270): the grant to the command's target where it is
eligible, else to the former holder's partner where AUTO allows and it is eligible, else NONE, with event 2 where
nothing but the arbiter decided. DEADLINE_COPY_EXPIRY: the concentrator's lanes are idle. TAKE_START (R274): the holder whose
lanes carry data sends from the next stream sheaf on, with event 3. LANE_EXIT_IDLE (R354): a lane goes from idle to wake, training
and data, or one in test from wake to test (R359); its stream begins with data. -/
def Obligations.TheStickChangesHands : Prop :=
  (∀ (s : State) (c : Conc) (at_ : Nat),
    let d := s.stick.deadline
    s.powered = true → s.holder = some c → d ≤ at_ → s.below pgSTICK [Reg.STICK.LAPSE_CNT] 1 →
    ∃ t, exec (.leaseLapse at_) s = .next t ∧ t.stickState = 2 ∧ t.now = max s.now at_ ∧
      t.stick = { s.stick with target := none, noAuto := false, guardEnd := d + 3200, former := c } ∧
      t.stored pgSTICK Reg.STICK.LAPSE_CNT = s.stored pgSTICK Reg.STICK.LAPSE_CNT + 1 ∧
      t.stored pgSTICK Reg.STICK.LAST_LAPSE = sheafOf (d / 4096) ∧
      (t.rd pgSTICK Reg.HDR.EVT_PENDING.off).getLsbD 1 = true ∧ t.stored (pgSTEP c) Reg.STEP.STEP_STAT_HOLDER = 0 ∧
      t.LanesIdle c ∧ t.driving c = false ∧ s.journalsEvent t 0xE1 0x0007 0x058 (max s.now at_) ∧ t.conc c.other = s.conc c.other) ∧
  (∀ (s : State) (at_ : Nat),
    let c := s.stick.former.other
    s.powered = true → s.stickState = 2 → s.stick.guardEnd ≤ at_ → s.stick.target = none →
    s.below pgSTICK [Reg.STICK.GRANT_CNT, Reg.STICK.AUTO_CNT] 1 →
    ∃ t, exec (.guardEnd at_) s = .next t ∧ t.journal = s.journal ∧
      (s.stick.noAuto = false → s.flag pgSTICK Reg.STICK.CTRL_AUTO = true → s.eligible c = true →
        t.holder = some c ∧ t.stored pgSTICK Reg.STICK.GRANT_CNT = s.stored pgSTICK Reg.STICK.GRANT_CNT + 1 ∧
        t.stored pgSTICK Reg.STICK.AUTO_CNT = s.stored pgSTICK Reg.STICK.AUTO_CNT + 1 ∧
        (t.rd pgSTICK Reg.HDR.EVT_PENDING.off).getLsbD 0 = true ∧ t.stick.deadline = s.leaseEnd s.frame ∧
        (t.conc c).deadline = some (s.leaseEnd s.frame) ∧ t.stored (pgSTEP c) Reg.STEP.STEP_STAT_HOLDER = 1 ∧
        t.driving c = true) ∧
      (s.stick.noAuto = false → s.flag pgSTICK Reg.STICK.CTRL_AUTO = false ∨ s.eligible c = false →
        t.stickState = 0 ∧ (t.rd pgSTICK Reg.HDR.EVT_PENDING.off).getLsbD 2 = true ∧ t.stick = s.stick) ∧
      (s.stick.noAuto = true → t.stickState = 0 ∧ t.stick = { s.stick with noAuto := false } ∧
        s.keepsRegs [(pgSTICK, Reg.STICK.STAT.off)] t)) ∧
  (∀ (s : State) (at_ : Nat) (x : StickCmd),
    let c := concOfBit x.target
    s.powered = true → s.stickState = 2 → s.stick.guardEnd ≤ at_ → s.stick.target = some x → x.isWrite = false →
    s.below pgSTICK [Reg.STICK.GRANT_CNT, Reg.STICK.REFUSE_CNT] 1 →
    ∃ t, exec (.guardEnd at_) s = .next t ∧ t.stick.target = none ∧
      (s.eligible c = true → t.holder = some c ∧
        t.stored pgSTICK Reg.STICK.GRANT_CNT = s.stored pgSTICK Reg.STICK.GRANT_CNT + 1) ∧
      (s.eligible c = false → t.stickState = 0 ∧
        t.stored pgSTICK Reg.STICK.REFUSE_CNT = s.stored pgSTICK Reg.STICK.REFUSE_CNT + 1 ∧
        (t.rd pgSTICK Reg.HDR.EVT_PENDING.off).getLsbD 3 = true) ∧
      t.journal = ({ seq := (s.stored pgJRNL Reg.JRNL.HEAD + 1) % 2 ^ 32, time := x.time, port := x.port, master := x.master,
                     code := 0x30, result := if s.eligible c then resOK else resREFUSED, page := 0x0007, off := 0x048,
                     digest := x.digest, aux := 0, poison := false } :: s.journal).take 4096) ∧
  (∀ (s : State) (c : Conc) (at_ d : Nat),
    s.powered = true → (s.conc c).run ≠ .reset → (s.conc c).deadline = some d → d ≤ at_ →
    ∃ t, exec (.deadlineCopyExpiry c at_) s = .next t ∧ t.LanesIdle c ∧ t.now = max s.now at_ ∧
      t.conc c.other = s.conc c.other ∧ s.changesOnly [.now, .regs, .stale, .concA, .concB] t) ∧
  (∀ (s : State) (c : Conc),
    s.mergeOn c = true → s.driving c = true → s.holder = some c → (s.conc c).sending = false → (s.conc c).stream = none →
    s.lanesData c = true →
    ∃ t, exec (.takeStart c) s = .next t ∧ t.conc c = { s.conc c with sending := true, firstDue := true } ∧
      t.stored (pgSTEP c) Reg.STEP.TAKE_START = sheafOf (s.conc c).sendNext ∧
      (t.rd (pgSTEP c) Reg.HDR.EVT_PENDING.off).getLsbD 3 = true ∧
      s.keepsRegs [(pgSTEP c, Reg.STEP.TAKE_START.off), (pgSTEP c, Reg.HDR.EVT_PENDING.off)] t ∧
      s.changesOnly [.regs, .stale, .eventQ, .concA, .concB] t) ∧
  ∀ (s : State) (c : Conc) (l : Fin 64) (at_ : Nat),
    let st := s.laneState c l
    let test := st = 1 ∧ s.flag (pgLANE c l) Reg.LANE.TEST_GEN_EN = true
    s.powered = true → (s.conc c).run ≠ .reset → st < 3 → (st = 0 → s.mayExit c l = true) →
    s.below (pgLANES c) [Reg.LANES.EXIT_CNT] 1 →
    ∃ t, exec (.laneExitIdle c ⟨l, at_⟩) s = .next t ∧ t.now = max s.now at_ ∧ (test → t.laneState c l = 4) ∧
      (¬test → t.laneState c l = st + 1) ∧ t.conc c.other = s.conc c.other ∧
      (st = 0 → mapFind l.val (t.conc c).tx = some { fec := s.flag (pgLANES c) Reg.LANES.CTRL_FEC_EN } ∧
        t.stored (pgLANES c) Reg.LANES.EXIT_CNT = s.stored (pgLANES c) Reg.LANES.EXIT_CNT + 1) ∧
      (st = 1 → t.conc c = s.conc c) ∧
      (st = 2 → mapFind l.val (t.conc c).tx = some { mapGetD ({} : LaneTx) l.val (s.conc c).tx with start := max s.now at_ }) ∧
      s.keepsRegs [(pgLANE c l, Reg.LANE.LANE_STAT.off), (pgLANES c, Reg.LANES.EXIT_CNT.off)] t


/-! ### The lookback memory -/

/-- While the stack is out of self-refresh (R468), of a concentrator out of reset. AGE_PROMOTION (R295): the read of the class that has
waited longest beyond its limit moves to the head of the next higher one, and PROMO_CNT counts it. PAGE_IDLE_CLOSE (R296): the bank's page is closed. REFRESH_DUE of a live channel's bank (R302): below the limit it is postponed, at the limit issued
refresh-urgent, which closes the page and is counted; a frozen controller issues it (R310). POSTPONED_REFRESH: one is issued
and the page closed. TEMP_SAMPLE (R301, R303): TEMP holds it; at HOT_C the stack turns hot, with event 1 and HOT_CNT, no bank
keeping more than HOT_POSTPONE postponed; below COOL_C it turns cool, with event 2. DEMAND_WINDOW with no point pinned,
neither frozen nor changing (R298): above half of what a group carries at a point below the highest, a change to point 0
begins; below a quarter of what both would carry at the next lower point for DOWN_MS, a change to that; else nothing begins; a
change waits while a retraining is pending; with a point pinned, frozen or changing no window counts. FREQ_CHANGE_DONE (R297): the point is the target, counted with event 3, with its timing
set, and every live channel has been trained at it, or is degraded (which is the model's choice, log 66).
HOST_READ_DONE without an error, once it is next (R294, R312): HOST_DATA holds the unit, most significant word first. -/
def Obligations.TheMemoryFollowsDemandAndTemperature : Prop :=
  ((∀ (s : State) (c : Conc) (shadow : Bool) (cls at_ : Nat) (r : DramReq),
     let m := (s.conc c).mc
     let now := max s.now at_
     let past (x : DramReq) : Prop := s.waiting c shadow x = true ∧ m.clsOf x = cls ∧ s.agesFrom c x + 80 * s.ageLimit c cls < now
     s.powered = true → (s.conc c).run ≠ .reset → s.stackAwake c = true → s.ageLimit c cls ≠ 0 →
     past r → (∀ x, x ≠ r → past x → s.agesFrom c r < s.agesFrom c x) → s.below (pgDRAM c) [Reg.DRAM.PROMO_CNT] 1 →
     ∃ t, exec (.agePromotion c shadow ⟨cls, at_⟩) s = .next t ∧ t.now = now ∧
       t.conc c = { s.conc c with mc := { m with promo := (r, cls - 1, now) :: m.promo.filter (fun x => x.1 != r) } } ∧
       (t.conc c).mc.clsOf r = cls - 1 ∧ (t.conc c).mc.place r = 0 ∧
       (∀ x, x ≠ r → (t.conc c).mc.clsOf x = m.clsOf x) ∧
       t.stored (pgDRAM c) Reg.DRAM.PROMO_CNT = s.stored (pgDRAM c) Reg.DRAM.PROMO_CNT + 1 ∧
       s.keepsRegs [(pgDRAM c, Reg.DRAM.PROMO_CNT.off)] t ∧ s.changesOnly [.now, .regs, .stale, .concA, .concB] t) ∧
   (∀ (s : State) (c : Conc) (chan bank : Fin 16),
     s.powered = true → (s.conc c).run ≠ .reset → s.stackAwake c = true → s.fld (pgDRAM c) Reg.DRAM.CTRL_PAGE_IDLE ≠ 0 →
     s.dramFrozen c = false → s.dramBusy c = false → (s.conc c).isLive chan = true →
     ∃ t, exec (.pageIdleClose c chan bank) s = .next t ∧
       t.conc c = { s.conc c with mc := { (s.conc c).mc with
         openRows := mapDel (chan.val * 16 + bank.val) (s.conc c).mc.openRows } } ∧
       s.changesOnly [.concA, .concB] t ∧ t.conc c.other = s.conc c.other) ∧
   (∀ (s : State) (c : Conc) (chan bank : Fin 16),
     let m := (s.conc c).mc
     let b := chan.val * 16 + bank.val
     s.powered = true → (s.conc c).run ≠ .reset → s.stackAwake c = true → (s.conc c).isLive chan = true → s.dramBusy c = false →
     s.below (pgDRAM c) [Reg.DRAM.REF_URGENT_CNT] 1 →
     ∃ t, exec (.refreshDue c chan bank) s = .next t ∧ t.conc c.other = s.conc c.other ∧
       (s.dramFrozen c = false → m.count b < s.refreshLimit c →
         t.conc c = { s.conc c with mc := m.setCount b (m.count b + 1) } ∧ s.keepsRegs [] t) ∧
       (s.dramFrozen c = false → s.refreshLimit c ≤ m.count b →
         t.conc c = { s.conc c with mc := { m with openRows := mapDel b m.openRows } } ∧
         t.stored (pgDRAM c) Reg.DRAM.REF_URGENT_CNT = s.stored (pgDRAM c) Reg.DRAM.REF_URGENT_CNT + 1) ∧
       (s.dramFrozen c = true → t.conc c = { s.conc c with mc := { m with openRows := mapDel b m.openRows } } ∧
         s.keepsRegs [] t)) ∧
   (∀ (s : State) (c : Conc) (chan bank : Fin 16),
     let m := (s.conc c).mc
     let b := chan.val * 16 + bank.val
     s.powered = true → (s.conc c).run ≠ .reset → s.stackAwake c = true → 0 < m.count b → s.dramFrozen c = false → s.dramBusy c = false →
     (s.conc c).isLive chan = true →
     ∃ t, exec (.postponedRefresh c chan bank) s = .next t ∧ (t.conc c).mc.count b = m.count b - 1 ∧
       t.conc c = { s.conc c with mc := { m with openRows := mapDel b m.openRows, postponed := (t.conc c).mc.postponed } } ∧
       s.changesOnly [.concA, .concB] t ∧ t.conc c.other = s.conc c.other) ∧
   ∀ (s : State) (c : Conc) (temp : Int),
     let p := pgDRAM c
     let hot := s.flag p Reg.DRAM.STAT_HOT
     let lim := s.fld p Reg.DRAM.REF_CTRL_HOT_POSTPONE
     let extra := (s.conc c).mc.excess lim
     s.powered = true → (s.conc c).run ≠ .reset → s.dramBusy c = false ∨ s.dramFrozen c = true → -512 ≤ temp → temp < 512 →
     s.below p [Reg.DRAM.HOT_CNT] 1 → s.below p [Reg.DRAM.REF_URGENT_CNT] extra →
     ∃ t, exec (.tempSample c temp) s = .next t ∧ signedOf 10 (t.stored p Reg.DRAM.TEMP_TEMP) = temp ∧
       t.conc c.other = s.conc c.other ∧
       (hot = false → ((4 * s.fld p Reg.DRAM.REF_CTRL_HOT_C : Nat) : Int) ≤ temp →
         t.flag p Reg.DRAM.STAT_HOT = true ∧ (t.rd p Reg.HDR.EVT_PENDING.off).getLsbD 1 = true ∧
         t.stored p Reg.DRAM.HOT_CNT = s.stored p Reg.DRAM.HOT_CNT + 1 ∧
         t.stored p Reg.DRAM.REF_URGENT_CNT = s.stored p Reg.DRAM.REF_URGENT_CNT + extra ∧
         (∀ e ∈ (t.conc c).mc.postponed, e.2 ≤ lim) ∧
         ∀ e ∈ (t.conc c).mc.openRows, (s.conc c).mc.count e.1 ≤ lim) ∧
       (hot = true → temp < ((4 * s.fld p Reg.DRAM.REF_CTRL_COOL_C : Nat) : Int) →
         t.flag p Reg.DRAM.STAT_HOT = false ∧ (t.rd p Reg.HDR.EVT_PENDING.off).getLsbD 2 = true ∧ t.conc c = s.conc c) ∧
       (hot = false → temp < ((4 * s.fld p Reg.DRAM.REF_CTRL_HOT_C : Nat) : Int) → t.conc c = s.conc c ∧
         s.keepsRegs [(p, Reg.DRAM.TEMP.off)] t) ∧
       (hot = true → ((4 * s.fld p Reg.DRAM.REF_CTRL_COOL_C : Nat) : Int) ≤ temp → t.conc c = s.conc c ∧
         s.keepsRegs [(p, Reg.DRAM.TEMP.off)] t)) ∧
  (∀ (s : State) (c : Conc) (rb sb : Nat),
    let f := s.point c
    let m := (s.conc c).mc
    let high := f ≠ 0 ∧ (s.windowBytes c false f < 2 * rb ∨ s.windowBytes c true f < 2 * sb)
    let low := f < 2 ∧ 4 * rb < s.windowBytes c false (f + 1) ∧ 4 * sb < s.windowBytes c true (f + 1)
    let begins (t : State) (g : Nat) : Prop :=
      (s.retrainPending c = false → t.dramBusy c = true ∧ t.point c = f ∧
        t.conc c = { s.conc c with mc := { m with target := g, openRows := [], lowWindows := 0, waits := none } } ∧
        t.stored (pgDTRAIN c) Reg.DTRAIN.TRAIN_STAT_BUSY = 1 ∧
        s.keepsRegs [(pgDRAM c, Reg.DRAM.STAT.off), (pgDTRAIN c, Reg.DTRAIN.TRAIN_STAT.off)] t) ∧
      (s.retrainPending c = true → t.conc c = { s.conc c with mc := { m with waits := some g } } ∧ s.keepsRegs [] t)
    s.powered = true → (s.conc c).run ≠ .reset → s.stackAwake c = true → s.fld (pgDRAM c) Reg.DRAM.CTRL_FREQ_PIN = 0 →
    s.dramFrozen c = false → s.dramBusy c = false →
    ∃ t, exec (.demandWindow c rb sb) s = .next t ∧ t.conc c.other = s.conc c.other ∧
      s.changesOnly [.regs, .stale, .concA, .concB] t ∧ (high → begins t 0) ∧
      (¬high → low → 10 * s.fld (pgDRAM c) Reg.DRAM.CTRL_DOWN_MS ≤ m.lowWindows + 1 → begins t (f + 1)) ∧
      (¬high → low → m.lowWindows + 1 < 10 * s.fld (pgDRAM c) Reg.DRAM.CTRL_DOWN_MS →
        t.conc c = { s.conc c with mc := { m with lowWindows := m.lowWindows + 1 } } ∧ s.keepsRegs [] t) ∧
      (¬high → ¬low → t.conc c = { s.conc c with mc := { m with lowWindows := 0 } } ∧ s.keepsRegs [] t)) ∧
  (∀ (s : State) (c : Conc) (rb sb : Nat),
    s.powered = true → (s.conc c).run ≠ .reset → s.stackAwake c = true →
    s.fld (pgDRAM c) Reg.DRAM.CTRL_FREQ_PIN ≠ 0 ∨ s.dramFrozen c = true ∨ s.dramBusy c = true →
    ∃ t, exec (.demandWindow c rb sb) s = .next t ∧ t.conc c = { s.conc c with mc := { (s.conc c).mc with lowWindows := 0 } } ∧
      t.conc c.other = s.conc c.other ∧ s.changesOnly [.concA, .concB] t) ∧
  (∀ (s : State) (c : Conc),
    let cs := s.conc c
    let p := pgDRAM c
    s.powered = true → cs.run ≠ .reset → s.dramBusy c = true → s.dramFrozen c = false → cs.mc.target < 3 → s.fld p Reg.DRAM.CTRL_FREQ_PIN = 0 →
    s.below p [Reg.DRAM.FREQ_CNT] 1 → s.below (pgDTRAIN c) [Reg.DTRAIN.TRAIN_CNT] 16 →
    ∃ t, exec (.freqChangeDone ⟨c, []⟩) s = .next t ∧ t.point c = cs.mc.target ∧ t.dramBusy c = false ∧
      t.stored p Reg.DRAM.FREQ_CNT = s.stored p Reg.DRAM.FREQ_CNT + 1 ∧ (t.rd p Reg.HDR.EVT_PENDING.off).getLsbD 3 = true ∧
      (t.conc c).mc.timing = s.timingSet c cs.mc.target ∧ (t.conc c).mc.postponed = [] ∧ (t.conc c).mc.buffered = [] ∧
      t.stored (pgDTRAIN c) Reg.DTRAIN.TRAIN_STAT_BUSY = 0 ∧
      t.stored (pgDTRAIN c) Reg.DTRAIN.TRAIN_CNT = s.stored (pgDTRAIN c) Reg.DTRAIN.TRAIN_CNT +
        (cs.liveChans false ++ cs.liveChans true).length ∧
      (∀ k ∈ cs.liveChans false ++ cs.liveChans true,
        (t.flag (pgDTRAIN c) (Reg.DTRAIN.CH_TRAIN_DEGRADED.nth k) = true ∨
          (mapFind (cs.mc.target * 16 + k) (t.conc c).mc.settings).isSome = true) ∧ mapFind k (t.conc c).mc.trained = some (s.now, signedOf 10 (s.stored p Reg.DRAM.TEMP_TEMP))) ∧
      t.conc c.other = s.conc c.other) ∧
  ∀ (s : State) (c : Conc) (h : HostRead),
    let p := pgDRAM c
    s.powered = true → (s.conc c).run ≠ .reset → s.stackAwake c = true → (s.conc c).host = some h →
    s.dramFrozen c = false → s.dramBusy c = false →
    s.servesNow c h.shadow .host = true → h.unit < s.groupUnits c h.shadow →
    ∃ t, exec (.hostReadDone c .clean) s = .next t ∧ (t.conc c).host = none ∧ t.stored p Reg.DRAM.HOST_CTRL_BUSY = 0 ∧
      t.stored p Reg.DRAM.HOST_CTRL_POISON = ((s.conc c).isPoison h.shadow h.unit).toNat ∧
      (∀ w, w < 8 → t.rd p (Reg.DRAM.HOST_DATA.off + 4 * w) = if (s.conc c).isPoison h.shadow h.unit then 0 else
        BitVec.ofNat 32 (((s.conc c).getU h.shadow h.unit).toNat / 2 ^ (32 * (7 - w)))) ∧
      (t.conc c).dram = (s.conc c).dram ∧ (t.conc c).poison = (s.conc c).poison ∧ t.conc c.other = s.conc c.other ∧
      s.keepsPages [p] t ∧ s.changesOnly [.regs, .stale, .concA, .concB] t

/-- RETRAIN_DUE of a live channel that is due (R305): the setting found is in CH_TRAIN and the channel is not degraded; with none
that passes it is DEGRADED, with event 0 and TRAIN_FAIL_CNT; TRAIN_CNT counts both. CHANNEL_RETIRE where R306 asks it: the channel leaves its group, is reported
RETIRED with event 1, and the group's data begin at this frame; a group with a retired channel denies it with event 2; while
frozen it waits for the release (R311). DRAM_FREEZE (R309, R310): FROZEN with event 0 and FREEZE_CNT, the snapshot holds what failed,
and no more sheaves are formed. -/
def Obligations.ChannelsTrainRetireAndFreeze : Prop :=
  (∀ (s : State) (c : Conc) (chan : Fin 16) (v : Option (BitVec 24)),
    let p := pgDTRAIN c
    s.powered = true → (s.conc c).run ≠ .reset → s.stackAwake c = true → (s.conc c).isLive chan = true → s.dramFrozen c = false →
    s.dramBusy c = false → s.retrainIsDue c chan = true → s.below p [Reg.DTRAIN.TRAIN_CNT, Reg.DTRAIN.TRAIN_FAIL_CNT] 1 →
    ∃ t, exec (.retrainDue c chan v) s = .next t ∧
      t.stored p Reg.DTRAIN.TRAIN_CNT = s.stored p Reg.DTRAIN.TRAIN_CNT + 1 ∧
      t.stored p Reg.DTRAIN.TRAIN_STAT_CHAN = chan.val ∧
      mapFind chan.val (t.conc c).mc.trained = some (s.now, signedOf 10 (s.stored (pgDRAM c) Reg.DRAM.TEMP_TEMP)) ∧
      t.flag p (Reg.DTRAIN.CH_TRAIN_DEGRADED.nth chan) = v.isNone ∧ t.conc c.other = s.conc c.other ∧
      (∀ x, v = some x → mapFind (s.point c * 16 + chan.val) (t.conc c).mc.settings = some x.toNat ∧
        t.stored p (Reg.DTRAIN.CH_TRAIN_RD_DLY.nth chan) = x.toNat / 65536 ∧
        t.stored p (Reg.DTRAIN.CH_TRAIN_WR_DLY.nth chan) = x.toNat / 256 % 256 ∧
        t.stored p (Reg.DTRAIN.CH_TRAIN_VREF.nth chan) = x.toNat % 256) ∧
      (v = none → (t.rd p Reg.HDR.EVT_PENDING.off).getLsbD 0 = true ∧
        t.stored p Reg.DTRAIN.TRAIN_FAIL_CNT = s.stored p Reg.DTRAIN.TRAIN_FAIL_CNT + 1)) ∧
  (∀ (s : State) (c : Conc) (chan : Fin 16),
    let cs := s.conc c
    let p := pgDRAM c
    s.powered = true → cs.run ≠ .reset → s.stackAwake c = true → s.mustRetire c chan = true →
    ∃ t, exec (.channelRetire c chan) s = .next t ∧ t.conc c.other = s.conc c.other ∧
      (s.dramFrozen c = false → cs.groupRetired chan = true → (t.rd (pgDTRAIN c) Reg.HDR.EVT_PENDING.off).getLsbD 2 = true ∧
        t.conc c = cs) ∧
      (s.dramFrozen c = true → chan.val ∈ (t.conc c).mc.retireDue ∧ (t.conc c).retR = cs.retR ∧ (t.conc c).retS = cs.retS ∧
        s.keepsRegs [] t) ∧
      (s.dramFrozen c = false → cs.groupRetired chan = false →
        (t.rd (pgDTRAIN c) Reg.HDR.EVT_PENDING.off).getLsbD 1 = true ∧
        t.flag (pgDTRAIN c) (Reg.DTRAIN.CH_TRAIN_RETIRED.nth chan) = true ∧ (t.conc c).isLive chan = false ∧
        (t.conc c).mc = cs.mc.drop chan.val ∧
        if chan.val < 10 then
          (t.conc c).retR = some chan.val ∧ (t.conc c).retS = cs.retS ∧ (t.conc c).validR = s.frame ∧
          (t.conc c).sendNext = s.frame ∧ (t.conc c).queue = [] ∧ (t.conc c).unsent = 0 ∧
          t.stored p Reg.DRAM.RETIRED_R_CHAN = chan.val ∧ t.stored p Reg.DRAM.RETIRED_R_RET = 1 ∧
          t.stored p Reg.DRAM.REPLAY_CAP_MIB = 0x35E0 ∧ t.stored p Reg.DRAM.REPLAY_VALID = sheafOf s.frame ∧
          t.stored p Reg.DRAM.REPLAY_OLDEST = sheafOf s.frame
        else
          (t.conc c).retS = some chan.val ∧ (t.conc c).retR = cs.retR ∧ (t.conc c).validS = s.frame ∧
          t.stored p Reg.DRAM.RETIRED_S_CHAN = chan.val ∧ t.stored p Reg.DRAM.RETIRED_S_RET = 1 ∧
          t.stored p Reg.DRAM.SHADOW_CAP_MIB = 0x1DF0 ∧ t.stored p Reg.DRAM.SHADOW_VALID = sheafOf s.frame ∧
          t.stored p Reg.DRAM.SHADOW_OLDEST = sheafOf s.frame)) ∧
  ∀ (s : State) (c : Conc) (parity : Bool) (cmd cls : BitVec 3) (chan bank : Fin 16) (row : BitVec 16) (unit : BitVec 6)
    (synd : Word),
    let p := pgDRAM c
    s.powered = true → (s.conc c).run ≠ .reset → s.stackAwake c = true → s.dramFrozen c = false →
    parity = true ∨ (s.flag p Reg.DRAM.CTRL_FREEZE_UE = true ∧ (s.conc c).poisonAt chan bank row.toNat unit.toNat = false) → s.below p [Reg.DRAM.FREEZE_CNT] 1 →
    ∃ t, exec (.dramFreeze c parity cmd cls chan bank row unit synd) s = .next t ∧ t.dramFrozen c = true ∧
      (t.conc c).run = .frozen ∧ (t.rd p Reg.HDR.EVT_PENDING.off).getLsbD 0 = true ∧
      t.stored p Reg.DRAM.FREEZE_CNT = s.stored p Reg.DRAM.FREEZE_CNT + 1 ∧
      t.stored p Reg.DRAM.FRZ_CAUSE_CAUSE = (if parity then 1 else 2) ∧ t.stored p Reg.DRAM.FRZ_CAUSE_CMD = cmd.toNat ∧
      t.stored p Reg.DRAM.FRZ_CAUSE_CLASS = cls.toNat ∧ t.stored p Reg.DRAM.FRZ_CAUSE_CHANNEL = chan.val ∧
      t.stored p Reg.DRAM.FRZ_CAUSE_BANK = bank.val ∧ t.stored p Reg.DRAM.FRZ_ADDR_ROW = row.toNat ∧
      t.stored p Reg.DRAM.FRZ_ADDR_UNIT = unit.toNat ∧
      t.stored p Reg.DRAM.FRZ_SYND = (if parity then 0 else synd.toNat) ∧
      t.stored p Reg.DRAM.FRZ_SHEAF = sheafOf (s.conc c).nextForm ∧ mapFind (pgDINTG c) t.scrubs = none


/-! ### Integrity and lanes -/

/-- BUCKET_LEAK (R326): where LEAK_US has passed since the last leak, or since module time 0 where
it never leaked (the model's choice, log entry 69), the region's level falls by 1, and stays at 0. TMR_REFRESH of one register of a die out of reset (R322): a corrected error of its
register region, which raises the level unless its address repeats. SCRUB_WORD whose read is next in its group (R294, R331-R333): a word read cleanly or corrected is
counted in SCRUB_WORDS and the pass goes on, or ends after its last word with DONE and event 24; a corrected one is counted, reported
as a failing address and remembered as written back; an uncorrectable unit of the stack is counted and poisoned; where the normal
writer has written the word since, neither the write-back nor the poisoning happens (R338). FW_SCRUB_SLOT that is
due (R332): the core's writes start a pass over the whole memory. -/
def Obligations.ErrorsAreCountedAndScrubbed : Prop :=
  (∀ (s : State) (page : IntPage) (r at_ : Nat),
    let f := regionReg Reg.DINTG.BKT_LEVEL r
    let key := page.page * 64 + r
    let due := mapGetD 0 key s.integ.leaks + s.fld page.page (regionReg Reg.DINTG.BKT_LEAK_US r) * 640 ≤ max s.now at_
    s.powered = true → (∀ c, page = .dintg c → (s.conc c).run ≠ .reset) → hasBucket page r = true →
    ∃ t, exec (.bucketLeak page ⟨r, at_⟩) s = .next t ∧ t.now = max s.now at_ ∧
      (due → t.stored page.page f = s.stored page.page f - 1 ∧ s.keepsRegs [(page.page, f.off)] t ∧
        t.integ = { s.integ with leaks := mapPut key (max s.now at_) s.integ.leaks }) ∧
      (¬due → s.keepsRegs [] t ∧ t.integ = s.integ) ∧ s.changesOnly [.now, .regs, .stale, .integ] t) ∧
  (∀ (s : State) (d : Die) (k : BitVec 28) (p r : Nat),
    let level := regionReg Reg.DINTG.BKT_LEVEL r
    (d = .belfry ∧ p = pgINTG ∧ r = 3) ∨ (∃ c, d = .conc c ∧ (s.conc c).run ≠ .reset ∧ p = pgDINTG c ∧ r = 6) ∨
      (∃ tl, d = .tile tl ∧ s.pwr (pgTILE tl) ≠ 0 ∧ p = pgINTG ∧ r = 20 + tl.val) →
    s.powered = true → s.below p [regionReg Reg.DINTG.CE_CNT r] 1 →
    ∃ t, exec (.tmrRefresh d [k]) s = .next t ∧ s.changesOnly [.regs, .stale, .eventQ, .lastCorr] t ∧
      t.stored p (regionReg Reg.DINTG.CE_CNT r) = s.stored p (regionReg Reg.DINTG.CE_CNT r) + 1 ∧
      mapFind (p * 64 + r) t.lastCorr = some k.toNat ∧
      (mapFind (p * 64 + r) s.lastCorr = some k.toNat → t.stored p level = s.stored p level) ∧
      (mapFind (p * 64 + r) s.lastCorr ≠ some k.toNat → t.stored p level = min 65535 (s.stored p level + 1) ∧
        (s.bucketPassed p r = false → s.fld p (regionReg Reg.DINTG.BKT_THRESH r) < t.stored p level →
          (t.rd p Reg.HDR.EVT_PENDING.off).getLsbD (regionBit p r) = true))) ∧
  (∀ (s : State) (page : IntPage) (r : ScrubRun) (read : EccRead) (rewritten : Bool) (at_ : Nat),
    let p := page.page
    let reg := s.scrubRegion page r.mem r.next
    s.powered = true → (∀ c, page = .dintg c → (s.conc c).run ≠ .reset) → mapFind p s.scrubs = some r →
    s.scrubWaits page r.mem = false → page.hasRegion reg = true → r.next < 2 ^ 29 → (∀ w ∈ s.writeBacks, w.page ≠ p) →
    s.below p [Reg.DINTG.SCRUB_WORDS, Reg.DINTG.SCRUB_CORR, regionReg Reg.DINTG.CE_CNT reg] 1 →
    read = .clean ∨ (∃ bit, read = .corrected bit false) →
    ∃ t, exec (.scrubWord page ⟨read, rewritten⟩ at_) s = .next t ∧
      t.stored p Reg.DINTG.SCRUB_WORDS = s.stored p Reg.DINTG.SCRUB_WORDS + 1 ∧
      (r.next < r.last → t.scrubs = mapPut p { r with next := r.next + 1, since := max s.now at_ } s.scrubs) ∧
      (r.last ≤ r.next → mapFind p t.scrubs = none ∧ t.stored p Reg.DINTG.SCRUB_CTRL_BUSY = 0 ∧
        t.stored p Reg.DINTG.SCRUB_CTRL_DONE = 1 ∧ (t.rd p Reg.HDR.EVT_PENDING.off).getLsbD 24 = true) ∧
      (read = .clean → t.writeBacks = s.writeBacks ∧
        t.stored p Reg.DINTG.SCRUB_CORR = s.stored p Reg.DINTG.SCRUB_CORR) ∧
      (read ≠ .clean → t.stored p Reg.DINTG.SCRUB_CORR = s.stored p Reg.DINTG.SCRUB_CORR + 1 ∧
        t.stored p (regionReg Reg.DINTG.CE_CNT reg) = s.stored p (regionReg Reg.DINTG.CE_CNT reg) + 1 ∧
        t.stored p Reg.DINTG.SCRUB_LAST_FAIL_ADDR = r.next ∧ t.stored p Reg.DINTG.SCRUB_LAST_FAIL_VALID = 1 ∧
        (s.flag p Reg.DINTG.SCRUB_FIRST_FAIL_VALID = false → t.stored p Reg.DINTG.SCRUB_FIRST_FAIL_ADDR = r.next) ∧
        (rewritten = false → { page := p, region := reg, addr := r.next, time := max s.now at_ } ∈ t.writeBacks) ∧
        (rewritten = true → t.writeBacks = s.writeBacks))) ∧
  (∀ (s : State) (c : Conc) (r : ScrubRun) (rewritten : Bool) (at_ : Nat),
    let p := pgDINTG c
    let reg := s.scrubRegion (.dintg c) r.mem r.next
    s.powered = true → (s.conc c).run ≠ .reset → mapFind p s.scrubs = some r → r.mem = 1 ∨ r.mem = 2 →
    s.scrubWaits (.dintg c) r.mem = false →
    (IntPage.dintg c).hasRegion reg = true →
    s.below p [Reg.DINTG.SCRUB_WORDS, Reg.DINTG.SCRUB_UE, regionReg Reg.DINTG.UE_CNT reg, Reg.DINTG.POISON_CNT] 1 →
    ∃ t, exec (.scrubWord (.dintg c) ⟨.uncorrectable, rewritten⟩ at_) s = .next t ∧
      t.stored p (regionReg Reg.DINTG.UE_CNT reg) = s.stored p (regionReg Reg.DINTG.UE_CNT reg) + 1 ∧
      t.stored p Reg.DINTG.SCRUB_UE = s.stored p Reg.DINTG.SCRUB_UE + 1 ∧
      (rewritten = false → (t.conc c).isPoison (r.mem == 2) r.next = true ∧
        t.stored p Reg.DINTG.POISON_CNT = s.stored p Reg.DINTG.POISON_CNT + 1 ∧
        (t.rd p Reg.HDR.EVT_PENDING.off).getLsbD 26 = true) ∧
      (rewritten = true → (t.conc c).poison = (s.conc c).poison ∧ (t.conc c).dram = (s.conc c).dram ∧
        t.stored p Reg.DINTG.POISON_CNT = s.stored p Reg.DINTG.POISON_CNT) ∧ t.conc c.other = s.conc c.other) ∧
  ∀ (s : State) (page : IntPage) (mem : BitVec 5) (n : Nat),
    let p := page.page
    s.pow.mode = .on → s.running = true → s.recovery = false → s.flag pgINTG Reg.INTG.CTRL_FW_SCRUB = true →
    s.scrubWords page mem.toNat = some n → mem = 0 ∨ (page = .intg ∧ mem = 1) → s.dieOff p = false →
    s.flag p Reg.DINTG.SCRUB_CTRL_BUSY = false → mapFind p s.scrubs = none → s.scrubFrozen page = false →
    (∀ o, s.writePages p o = [p]) →
    ∃ t, exec (.fwScrubSlot page mem) s = .next t ∧
      mapFind p t.scrubs = some { mem := mem.toNat, next := 0, last := n - 1, since := s.now } ∧
      t.stored p Reg.DINTG.SCRUB_CTRL_BUSY = 1 ∧ t.stored p Reg.DINTG.SCRUB_CTRL_DONE = 0 ∧
      (t.journal.map (·.code)).take 4 = [0xF1, 0xF1, 0xF1, 0xF1]

/-- MASK_LOAD (R357): where a written mask was delivered, it is in effect, each lane's IN_MASK follows, and event 2 pends.
LANE_FAULT (R356): FAULT in both places, and the lane is not ready; a fault that was not there is counted, with event 1 of the lane
and event 0 of the lanes where it is in use; LANE_FAULT_END: no fault, PLL locked, and the lane ready unless it is in test.
CHECKER_LOCK and CHECKER_LOCK_LOST (R359-R361): bits of a lane in
test, of which some arrive wrong, one after another. Each is the sequence's next, inverted where an injection says so; a searching
checker loads one polynomial length, and locks at the 64th agreement in a row; a locked one counts bits and errors, and loses lock,
counted with event 0, at the 32nd wrong bit among 1024. No bit is sent where the generator is off. -/
def Obligations.LanesFollowMaskAndFaults : Prop :=
  (∀ s : State, s.powered = true →
    ∃ t, exec .maskLoad s = .next t ∧ ∀ c : Conc,
      (∀ m, (s.conc c).maskDue = some m →
        t.stored (pgLANES c) Reg.LANES.ACT_LO = m.toNat % 2 ^ 32 ∧ t.stored (pgLANES c) Reg.LANES.ACT_HI = m.toNat / 2 ^ 32 ∧
        (t.conc c).maskDue = none ∧
        (∀ l : Fin 64, t.stored (pgLANE c l) Reg.LANE.LANE_STAT_IN_MASK = (m.getLsbD l).toNat) ∧
        (t.rd (pgLANES c) Reg.HDR.EVT_PENDING.off).getLsbD 2 = true) ∧
      ((s.conc c).maskDue = none → t.conc c = s.conc c ∧
        ∀ l : Fin 64, t.inAct c l = s.inAct c l ∧ t.laneState c l = s.laneState c l)) ∧
  (∀ (s : State) (c : Conc) (l : Fin 64) (pll : Bool),
    let p := pgLANE c l
    s.powered = true → (s.conc c).run ≠ .reset → s.below (pgLANES c) [Reg.LANES.FAULT_CNT] 1 →
    ∃ t, exec (.laneFault c l pll) s = .next t ∧ t.flag p Reg.LANE.LANE_STAT_FAULT = true ∧
      t.flag p Reg.LANE.LANE_STAT_READY = false ∧ t.laneBit c Reg.LANES.FAULT_LO Reg.LANES.FAULT_HI l = true ∧
      t.laneBit c Reg.LANES.READY_LO Reg.LANES.READY_HI l = false ∧
      (pll = true → t.flag p Reg.LANE.LANE_STAT_PLL_LOCK = false) ∧
      (s.flag p Reg.LANE.LANE_STAT_FAULT = false →
        t.stored (pgLANES c) Reg.LANES.FAULT_CNT = s.stored (pgLANES c) Reg.LANES.FAULT_CNT + 1 ∧
        (t.rd p Reg.HDR.EVT_PENDING.off).getLsbD 1 = true ∧
        (s.inAct c l = true → (t.rd (pgLANES c) Reg.HDR.EVT_PENDING.off).getLsbD 0 = true)) ∧
      (s.flag p Reg.LANE.LANE_STAT_FAULT = true →
        t.stored (pgLANES c) Reg.LANES.FAULT_CNT = s.stored (pgLANES c) Reg.LANES.FAULT_CNT) ∧
      (∀ m : Fin 64, m ≠ l → t.laneBit c Reg.LANES.READY_LO Reg.LANES.READY_HI m =
        s.laneBit c Reg.LANES.READY_LO Reg.LANES.READY_HI m) ∧ s.keepsPages [p, pgLANES c] t) ∧
  (∀ (s : State) (c : Conc) (l : Fin 64),
    let p := pgLANE c l
    s.powered = true → (s.conc c).run ≠ .reset →
    ∃ t, exec (.laneFaultEnd c l) s = .next t ∧ t.flag p Reg.LANE.LANE_STAT_FAULT = false ∧
      t.flag p Reg.LANE.LANE_STAT_PLL_LOCK = true ∧
      t.flag p Reg.LANE.LANE_STAT_READY = !s.flag p Reg.LANE.TEST_GEN_EN ∧
      t.laneBit c Reg.LANES.FAULT_LO Reg.LANES.FAULT_HI l = false ∧
      t.laneBit c Reg.LANES.READY_LO Reg.LANES.READY_HI l = !s.flag p Reg.LANE.TEST_GEN_EN ∧
      s.keepsPages [p, pgLANES c] t ∧ s.changesOnly [.regs, .stale] t) ∧
  (∀ (s : State) (c : Conc) (l : Fin 64) (errs : List Nat) (row : Instr),
    let p := pgLANE c l
    let k := s.fld p Reg.LANE.TEST_PATTERN
    let terms := if k = 0 then (7, 6) else if k = 1 then (15, 14) else (31, 28)
    let next (reg : Nat) : Bool := reg.testBit (terms.1 - 1) != reg.testBit (terms.2 - 1)
    let push (reg : Nat) (b : Bool) : Nat := (2 * reg + b.toNat) % 2 ^ terms.1
    let x := mapGetD ({} : LaneTest) l.val (s.conc c).tests
    let inverted := x.injOne || (s.flag p Reg.LANE.TEST_INJ_PER && (x.sent + 1) % 2 ^ s.fld p Reg.LANE.TEST_INJ_LOG == 0)
    let bit := (next x.gen != inverted) != errs.contains 0
    let on := s.flag p Reg.LANE.TEST_CHK_EN
    let locked := s.flag p Reg.LANE.CHK_STAT_LOCKED
    let wrong := (if bit = next x.chk then [] else [x.seen]) ++ x.wrong.filter (fun w => decide (x.seen < w + 1024))
    let n := s.stored p Reg.LANE.BITS_HI * 2 ^ 32 + s.stored p Reg.LANE.BITS_LO + 1
    row = .checkerLock c ⟨l, ⟨1, errs⟩⟩ ∨ row = .checkerLockLost c l 1 errs →
    s.powered = true → (s.conc c).run ≠ .reset → s.flag p Reg.LANE.TEST_GEN_EN = true → n < 2 ^ 64 →
    s.below p [Reg.LANE.ERR_CNT, Reg.LANE.LOCK_LOST_CNT] 1 →
    ∃ t y, exec row s = .next t ∧ mapFind l.val (t.conc c).tests = some y ∧ y.gen = push x.gen (next x.gen) ∧
      y.sent = x.sent + 1 ∧ y.injOne = false ∧ t.conc c.other = s.conc c.other ∧
      (on = false → s.keepsRegs [] t) ∧
      (on = true → locked = false → x.loaded < terms.1 →
        y.chk = push x.chk bit ∧ y.loaded = x.loaded + 1 ∧ y.agree = 0 ∧ s.keepsRegs [] t) ∧
      (on = true → locked = false → terms.1 ≤ x.loaded → bit ≠ next x.chk → y.loaded = 0 ∧ y.agree = 0 ∧ s.keepsRegs [] t) ∧
      (on = true → locked = false → terms.1 ≤ x.loaded → bit = next x.chk → x.agree < 63 →
        y.chk = push x.chk bit ∧ y.agree = x.agree + 1 ∧ s.keepsRegs [] t) ∧
      (on = true → locked = false → terms.1 ≤ x.loaded → bit = next x.chk → 63 ≤ x.agree →
        t.flag p Reg.LANE.CHK_STAT_LOCKED = true ∧ y.wrong = [] ∧ s.keepsRegs [(p, Reg.LANE.CHK_STAT.off)] t) ∧
      (on = true → locked = true →
        t.stored p Reg.LANE.BITS_HI * 2 ^ 32 + t.stored p Reg.LANE.BITS_LO = n ∧
        t.stored p Reg.LANE.ERR_CNT = s.stored p Reg.LANE.ERR_CNT + (decide (bit ≠ next x.chk)).toNat ∧
        (wrong.length < 32 → y.chk = push x.chk (next x.chk) ∧ y.wrong = wrong ∧
          t.flag p Reg.LANE.CHK_STAT_LOCKED = true ∧ t.stored p Reg.LANE.LOCK_LOST_CNT = s.stored p Reg.LANE.LOCK_LOST_CNT) ∧
        (32 ≤ wrong.length → y.loaded = 0 ∧ t.flag p Reg.LANE.CHK_STAT_LOCKED = false ∧
          t.stored p Reg.LANE.LOCK_LOST_CNT = s.stored p Reg.LANE.LOCK_LOST_CNT + 1 ∧
          (t.rd p Reg.HDR.EVT_PENDING.off).getLsbD 0 = true) ∧
        s.keepsPages [p] t ∧ s.changesOnly [.regs, .stale, .eventQ, .concA, .concB] t)) ∧
  (∀ (s : State) (c : Conc) (l : Fin 64) (n : Nat) (errs : List Nat),
    s.powered = true → (s.conc c).run ≠ .reset →
    exec (.checkerLockLost c l n errs) s = exec (.checkerLock c ⟨l, ⟨n, errs⟩⟩) s ∧
    ∃ t, exec (.checkerLock c ⟨l, ⟨n, errs⟩⟩) s = .next t ∧
      exec (.checkerLock c ⟨l, ⟨n + 1, errs⟩⟩) s =
        exec (.checkerLock c ⟨l, ⟨1, if errs.contains n then [0] else []⟩⟩) t) ∧
  ∀ (s : State) (c : Conc) (l : Fin 64) (n : Nat) (errs : List Nat),
    s.powered = true → (s.conc c).run ≠ .reset → s.flag (pgLANE c l) Reg.LANE.TEST_GEN_EN = false →
    exec (.checkerLock c ⟨l, ⟨n, errs⟩⟩) s = .next s ∧ exec (.checkerLockLost c l n errs) s = .next s


/-! ### The monitor -/

/-- A visit converts. VISIT_SWITCH_DONE of a valid entry (R431, R433): the filter is flushed for its F periods where the entry's
settings or its excitation differ from what the visit before applied, and the next F + 1 periods are stale where excitation or
reference changed, beside those an earlier change left; an invalid entry's result is 4 with FAULT, and its visit ends (R419). CONVERSION_RESULT (R422, R431): a flushing filter delivers none; else the entry's
RESULT holds the value, its marks and the next COUNT, and the visit has one fewer to deliver; of a pin's entry the value is
the difference of its voltages against the reference that CONV.REF selects (R423), in 24 bits. WIRE_BREAK (R428): a watched pin below or above the window,
or the excitation at its limit, latches the break, counted with event 0, with result 1, 2 or 3 and FAULT, and from then on its driver's limit is 100 µA. URGENT_DUE of an
entry that an enabled interlock output names (R432): with no visit, or in place of a normal entry, which is aborted, counted
and waits to restart, its visit begins; during an urgent one it waits. ILK_HOLD_EXPIRY (R436): an output not in FAULT whose
source's last valid result is HOLD old enters FAULT with cause 3, counted with its event; a NORMAL one with a result 2 ×
PERIOD old holds. EXT_OK_CHANGE (R423, R433): EXT_OK follows; its fall during a conversion against the external reference is
the loss of the reference, with event 2. -/
def Obligations.TheMonitorConvertsAndInterlocksFail : Prop :=
  ((∀ (s : State) (v : Visit),
     let same := s.mon.applied = v.excitation ∧ ∀ x, s.mon.last = some x → x.2.2.2.2 = v.ref
     s.powered = true → s.mon.visit = some v → v.switching = true → v.invalid = false →
     ∃ t, exec .visitSwitchDone s = .next t ∧ s.changesOnly [.mon] t ∧
       t.mon = { s.mon with
         last := some v.settings, applied := v.excitation
         visit := some { v with
           switching := false, flush := if s.mon.last = some v.settings ∧ same then 0 else v.settle
           aged := if same then s.mon.aged else v.settle + 1
           refLost := !s.refOk v } }) ∧
   (∀ (s : State) (v : Visit),
     let r := 0x180 + 4 * v.entry
     s.powered = true → s.mon.visit = some v → v.switching = true → v.invalid = true → v.entry < 32 →
     s.mon.ilkA = none → s.mon.ilkB = none → s.below pgMADC [Reg.MADC.FAULT_CNT] 1 →
     (∀ n ∈ s.mon.due, n < 32) → (∀ n, s.mon.aborted = some n → n < 32) →
     ∃ t, exec .visitSwitchDone s = .next t ∧ (∀ w, t.mon.visit = some w → ∃ n u, w = t.entryNow n u) ∧
       (t.rd pgMADC r).toNat / 16 = 4 * 16 + 8 ∧
       t.stored pgMADC Reg.MADC.FAULT_CNT = s.stored pgMADC Reg.MADC.FAULT_CNT + 1) ∧
   (∀ (s : State) (v : Visit) (pos neg sine ext : Int) (ovr : Bool) (at_ : Nat),
     let r := 0x180 + 4 * v.entry
     let stale := decide (0 < v.aged) || v.refLost
     s.powered = true → s.mon.visit = some v → v.switching = false → v.entry < 32 → s.mon.ilkA = none → s.mon.ilkB = none →
     ∃ t, exec (.conversionResult pos neg sine ext ovr at_) s = .next t ∧ t.now = max s.now at_ ∧
       (0 < v.flush → t.rd pgMADC r = s.rd pgMADC r ∧
         t.mon = { s.mon with visit := some { v with flush := v.flush - 1, aged := v.aged - 1, refLost := !s.refOk v } }) ∧
       (v.flush = 0 → s.broken v.entry = false →
         (t.rd pgMADC r).getLsbD 7 = false ∧ (t.rd pgMADC r).getLsbD 6 = stale ∧ (t.rd pgMADC r).getLsbD 5 = ovr ∧
         (t.rd pgMADC r).getLsbD 4 = v.tested ∧
         (t.rd pgMADC r).toNat % 16 = ((s.rd pgMADC r).toNat + 1) % 16 ∧
         (v.pos < 16 → v.neg < 16 → v.sine = false → v.tested = false → v.refNv ext ≠ 0 →
           signedOf 24 ((t.rd pgMADC r).toNat / 256) =
             max (-8388608) (min 8388607 ⌊(2 ^ 23 * 2 ^ v.gain * ((pos - neg : Int) : Rat) / v.refNv ext : Rat) + 1 / 2⌋)) ∧
         (1 < v.left →
           t.mon = { s.mon with visit := some { v with left := v.left - 1, aged := v.aged - 1, refLost := !s.refOk v } }))) ∧
   ∀ (s : State) (v : Visit) (cause : BreakCause) (at_ k : Nat),
     let r := 0x180 + 4 * v.entry
     (∃ p nv, cause = .pinAt p nv ∧ p.val ∈ v.watched ∧ (k = 1 ∧ nv < s.cmLow ∨ k = 2 ∧ s.cmLow ≤ nv ∧ s.cmHigh < nv)) ∨
       (cause = .currentLimit ∧ v.excitation.mode ≠ 0 ∧ k = 3) →
     s.powered = true → s.mon.visit = some v → v.switching = false → v.entry < 32 → s.broken v.entry = false → 1 < v.left →
     s.mon.ilkA = none → s.mon.ilkB = none → s.below pgMONX [Reg.MONX.BREAK_CNT, Reg.MONX.ILIM_CNT] 1 →
     ∃ t, exec (.wireBreak cause at_) s = .next t ∧ t.broken v.entry = true ∧ t.driverLimit v.entry = 100 ∧
       t.stored pgMONX Reg.MONX.BREAK_CNT = s.stored pgMONX Reg.MONX.BREAK_CNT + 1 ∧
       (t.rd pgMONX Reg.HDR.EVT_PENDING.off).getLsbD 0 = true ∧ (t.rd pgMADC r).toNat / 16 = k * 16 + 8 ∧
       (k = 3 → (t.rd pgMONX Reg.HDR.EVT_PENDING.off).getLsbD 1 = true ∧
         t.stored pgMONX Reg.MONX.ILIM_CNT = s.stored pgMONX Reg.MONX.ILIM_CNT + 1) ∧
       t.mon = { s.mon with visit := some { v with left := v.left - 1 } } ∧ s.keepsPages [pgMONX, pgMADC] t) ∧
  (∀ (s : State) (n : Fin 32),
    let w := s.entryNow n true
    let begun : MonSt := { s.mon with visit := some w, taken := mapPut n.val (w.xp, w.conv, w.exc) s.mon.taken }
    s.powered = true → s.urgent n = true → s.mon.due = [] → s.below pgMADC [Reg.MADC.ABORT_CNT] 1 →
    ∃ t, exec (.urgentDue n) s = .next t ∧
      (s.mon.visit = none → t.mon = begun ∧
        t.stored pgMADC Reg.MADC.SEQ_STAT_BUSY = 1 ∧ t.stored pgMADC Reg.MADC.SEQ_STAT_URGENT = 1 ∧
        t.stored pgMADC Reg.MADC.SEQ_STAT_ENTRY = n.val) ∧
      (∀ v, s.mon.visit = some v → v.urgent = false →
        t.mon = { begun with aborted := some v.entry, aged := if v.switching then s.mon.aged else v.aged } ∧
        t.stored pgMADC Reg.MADC.ABORT_CNT = s.stored pgMADC Reg.MADC.ABORT_CNT + 1) ∧
      (∀ v, s.mon.visit = some v → v.urgent = true → v.entry ≠ n.val →
        t.mon = { s.mon with due := [n.val] } ∧ s.keepsRegs [] t) ∧
      (∀ v, s.mon.visit = some v → v.urgent = true → v.entry = n.val → t.mon = s.mon ∧ s.keepsRegs [] t)) ∧
  (∀ (s : State) (o : Pin) (at_ : Nat) (l : List IlkSource),
    let st := match o with | .a => Reg.ILK.STAT_A_STATE | .b => Reg.ILK.STAT_B_STATE
    let cause := match o with | .a => Reg.ILK.STAT_A_CAUSE | .b => Reg.ILK.STAT_B_CAUSE
    let cnt := match o with | .a => Reg.ILK.A_FAULT_CNT | .b => Reg.ILK.B_FAULT_CNT
    let gone := ∃ x ∈ l, x.value.isSome = true ∧ x.since + s.ilkHold o ≤ at_
    let late := ∃ x ∈ l, x.since + s.ilkLate o ≤ at_
    s.powered = true → s.ilkSources o = some l → s.ilkState o ≠ 0 → s.below pgILK [cnt] 1 →
    ∃ t, exec (.ilkHoldExpiry o at_) s = .next t ∧ t.mon = s.mon ∧
      (gone → t.stored pgILK st = 0 ∧ t.stored pgILK cause = 3 ∧ t.stored pgILK cnt = s.stored pgILK cnt + 1 ∧
        (t.rd pgILK Reg.HDR.EVT_PENDING.off).getLsbD o.idx = true) ∧
      (¬gone → s.ilkState o = 1 → late → t.stored pgILK st = 2 ∧ t.stored pgILK cause = 0 ∧
        s.keepsRegs [(pgILK, st.off)] t) ∧
      (¬gone → ¬(s.ilkState o = 1 ∧ late) → s.keepsRegs [] t) ∧ s.changesOnly [.now, .regs, .stale, .eventQ] t) ∧
  ∀ (s : State) (ok : Bool),
    let meets := ok = false ∧ ∃ v, s.mon.visit = some v ∧ v.switching = false ∧ v.sine = false ∧
      posInternal v.pos = false ∧ v.ref = 1
    s.powered = true →
    ∃ t, exec (.extOkChange ok) s = .next t ∧ t.flag pgMADC Reg.MADC.REF_STAT_EXT_OK = ok ∧
      (meets → (t.rd pgMADC Reg.HDR.EVT_PENDING.off).getLsbD 2 = true ∧
        t.mon = { s.mon with visit := s.mon.visit.map (fun v => { v with refLost := true }) }) ∧
      (¬meets → t.mon = s.mon ∧ s.keepsRegs [(pgMADC, Reg.MADC.REF_STAT.off)] t) ∧
      s.changesOnly [.regs, .stale, .eventQ, .mon] t



/-! ### Power, start-up and the test port -/

/-- POWER_GOOD, POWER_FAIL, RESET_ASSERT, RESET_RELEASE (R462, R464, R474): good input power starts the module, or holds it while
RESET_N is low; losing it, and RESET_N low, stop it: no frames run, every register that MRAM does not keep is at its reset value, and
the copies of the newest 256 journal entries in MRAM stay, unpoisoned, with the rest of MRAM; RESET_N rising starts it from step 1
with that cause. CONVERTER_FAULT and OVER_LIMIT of the belfry or the bus (R465-R467) stop it likewise: what the belfry did holds until it
has recovered, with cause 4, and a fault is left for the next start to show (the model's choice, log entry 74). -/
def Obligations.PowerComesAndGoes : Prop :=
  (∀ s : State, s.pow.mode = .off →
    ∃ t, exec .powerGood s = .next t ∧ s.changesOnly [.regs, .stale, .pow] t ∧
      t.pow = { s.pow with mode := if s.pow.resetLow then .held else .starting } ∧
      s.keepsRegs [(pgPWR, Reg.PWR.PG_TILE.off)] t) ∧
  (∀ (s : State) (under current : Bool),
    let stops (c : Instr) (p : PowSt) : Prop := ∃ t, exec c s = .next t ∧ t.pow = p ∧ t.running = false ∧ t.journal = (s.journal.take 256).map (fun e => { e with poison := false }) ∧
      t.integ.mramPoison = s.integ.mramPoison ∧
      (∀ q o, o < 4096 → t.rd q o = if persistentReg (regKey q o) then s.rd q o else regReset (regKey q o)) ∧
      (∀ k, t.conc k = { retR := (s.conc k).retR, retS := (s.conc k).retS }) ∧ t.fwu = { s.fwu with xfer := none } ∧
      (∀ tl, t.tile tl = State.reset.tile tl) ∧ t.um0 = {} ∧ t.um1 = {} ∧ t.pendW = [] ∧ t.unlocks = [] ∧
      ∀ x ∈ [Part.saved, .savedStaged, .savedTac, .jseq, .savedEpoch, .savedCorr, .mramCorr, .mramTac, .mramTap, .pending],
        s.same t x
    s.pow.mode ≠ .off →
    let kept : PowSt := { resetLow := s.pow.resetLow, uvlo := s.pow.uvlo, busFault := s.pow.busFault
                          belfryFault := s.pow.belfryFault }
    stops (.powerFail under) { kept with mode := .off, uvlo := under || s.pow.uvlo } ∧
    (s.pow.mode ≠ .hot → stops .resetAssert { kept with mode := .held, resetLow := true, cause := 1 }) ∧
    stops (.converterFault .bus) { kept with mode := .off, busFault := true } ∧
    stops (.converterFault .belfry) { kept with mode := .hot, cause := 4, belfryFault := true } ∧
    (s.pow.mode ≠ .hot → stops (.overLimit .belfry current) { kept with mode := .hot, cause := 4 })) ∧
  (∀ s : State, s.pow.mode = .held →
    ∃ t, exec .resetRelease s = .next t ∧ t.pow = { s.pow with mode := .starting, resetLow := false, cause := 1 } ∧
      s.changesOnly [.regs, .stale, .pow] t) ∧
  (∀ s : State, s.pow.mode = .off ∨ s.pow.mode = .hot →
    exec .resetAssert s = .next { s with pow := { s.pow with resetLow := true } }) ∧
  ∀ s : State, s.pow.mode ≠ .held →
    exec .resetRelease s = .next { s with pow := { s.pow with resetLow := false } }

/-- CONVERTER_FAULT of a powered tile, concentrator or stack (R465, R467): its bit of CONV_FAULT is latched, counted with event 0,
and the die stops. OVER_LIMIT of one (R466): a temperature counts in OT_CNT with event 1, a current in FAULT_CNT; the die stops and
stays off until OVER_LIMIT_RECOVER. START_SEQUENCE (R470) without images in trial or staged, the class K image sound:
the start is journaled, the peal epoch that of MRAM and MIXED set, and what earlier stops left is shown: an undervoltage in UVLO_CNT,
with event 3 after a loss of power, and a fault of the bus or the belfry in CONV_FAULT with event 0 (R467, R477; the belfry's is the
model's choice, log entry 74). With an image of class C that passes its check the module is on at step 7, and each concentrator
whose checkers pass runs with the tables that MRAM keeps of tiles past their warm-up swap (R472), ST_DETAIL showing the checkers
that pass (R323); without any, the recovery loader runs (R457). TILE_GROUP_POWER: the next group of four is
powered; after the last, discovery begins. READY at step 11 after warm-up and two frame boundaries (R273, R473): step 12, READY_MS, event 2 and the start grant. -/
def Obligations.DiesStopAndStart : Prop :=
  (∀ (s : State) (d : Die) (current : Bool),
    let stops (t : State) : Prop :=
      (∀ tl, d = .tile tl → t.pwr (pgTILE tl) = 0 ∧ (t.tile tl).power ≠ .on ∧ ∀ u, u ≠ tl → t.tile u = s.tile u) ∧
      (∀ k, d = .conc k ∨ d = .stack k → (t.conc k).run = .reset)
    d ≠ .belfry → d ≠ .bus → s.pow.mode = .on → s.diePowered d = true →
    s.below pgPWR [Reg.PWR.FAULT_CNT, Reg.PWR.OT_CNT] 1 →
    (∃ t, exec (.converterFault d) s = .next t ∧ stops t ∧ (t.rd pgPWR Reg.PWR.CONV_FAULT.off).getLsbD (dieBit d) = true ∧
      (t.rd pgPWR Reg.HDR.EVT_PENDING.off).getLsbD 0 = true ∧ t.pow.hot = s.pow.hot ∧
      t.stored pgPWR Reg.PWR.FAULT_CNT = s.stored pgPWR Reg.PWR.FAULT_CNT + 1) ∧
    ∃ t, exec (.overLimit d current) s = .next t ∧ stops t ∧ d ∈ t.pow.hot ∧
      (current = false → (t.rd pgPWR Reg.HDR.EVT_PENDING.off).getLsbD 1 = true ∧
        t.stored pgPWR Reg.PWR.OT_CNT = s.stored pgPWR Reg.PWR.OT_CNT + 1) ∧
      (current = true → t.stored pgPWR Reg.PWR.FAULT_CNT = s.stored pgPWR Reg.PWR.FAULT_CNT + 1)) ∧
  (∀ (s : State) (d : Die), ¬(s.pow.mode = .hot ∧ d = .belfry) →
    ∃ t, exec (.overLimitRecover d) s = .next t ∧ s.changesOnly [.pow] t ∧ d ∉ t.pow.hot ∧
      ∀ x, x ≠ d → (x ∈ t.pow.hot ↔ x ∈ s.pow.hot)) ∧
  (∀ s : State, s.pow.mode = .hot →
    ∃ t, exec (.overLimitRecover .belfry) s = .next t ∧
      t.pow = { s.pow with mode := if s.pow.resetLow then .held else .starting }) ∧
  (∀ (s : State) (env : StartEnv),
    s.pow.mode = .starting → s.fwu.trial = [] → s.fwu.failed = none → s.fwu.cStg = none → s.fwu.kStg = none →
    (∀ i, s.fwu.kCur = some i → i.body = []) → s.soundK env = true → s.sectionsK env = true → env.settingsOk = true →
    env.mram = [] → s.recovery = false → s.cal.swap = none → s.below pgPWR [Reg.PWR.FAULT_CNT] 2 →
    s.below pgPWR [Reg.PWR.UVLO_CNT] 1 →
    ∃ t, exec (.startSequence env) s = .next t ∧ t.pow.mode = .on ∧ t.pow.groups = 0 ∧
      t.stored pgPWR Reg.PWR.STARTUP_CAUSE = s.pow.cause % 16 ∧ (t.journal.map (·.code)).head? = some 0xF0 ∧
      t.stored pgJRNL Reg.JRNL.PEAL_STAT_EPOCH = s.savedEpoch % 65536 ∧ t.flag pgJRNL Reg.JRNL.PEAL_STAT_MIXED = true ∧
      t.stored pgINTG Reg.INTG.ST_STAT_BELFRY = env.belfryOk.toNat ∧
      t.stored pgPWR Reg.PWR.UVLO_CNT = s.stored pgPWR Reg.PWR.UVLO_CNT + s.pow.uvlo.toNat ∧
      t.stored pgPWR Reg.PWR.FAULT_CNT = s.stored pgPWR Reg.PWR.FAULT_CNT + s.pow.busFault.toNat + s.pow.belfryFault.toNat ∧
      (s.pow.uvlo = true → s.pow.cause = 0 → (t.rd pgPWR Reg.HDR.EVT_PENDING.off).getLsbD 3 = true) ∧
      (s.pow.busFault = true → t.flag pgPWR Reg.PWR.CONV_FAULT_BUS = true) ∧
      (s.pow.belfryFault = true → t.flag pgPWR Reg.PWR.CONV_FAULT_BELFRY = true) ∧
      (s.pow.busFault || s.pow.belfryFault → (t.rd pgPWR Reg.HDR.EVT_PENDING.off).getLsbD 0 = true) ∧
      (s.soundC env.classCOk = true → t.step470 = 7 ∧ t.recovery = false ∧ t.stored pgINTG Reg.INTG.ST_STAT_DONE = 1 ∧
        t.stored pgINTG Reg.INTG.ST_STAT_CONC_A = (checkersPass env.concA).toNat ∧
        t.stored pgINTG Reg.INTG.ST_STAT_CONC_B = (checkersPass env.concB).toNat ∧
        t.stored (pgDINTG .a) Reg.DINTG.ST_DETAIL_PASS = (env.concA &&& 0xFFFF7F).toNat ∧
        t.stored (pgDINTG .b) Reg.DINTG.ST_DETAIL_PASS = (env.concB &&& 0xFFFF7F).toNat ∧
        (checkersPass env.concA = true → t.concA.run = .running ∧ t.concA.corr = s.tablesInForce) ∧
        (checkersPass env.concB = true → t.concB.run = .running ∧ t.concB.corr = s.tablesInForce)) ∧
      (s.soundC env.classCOk = false → s.fwu.cPrev = none → t.recovery = true ∧ t.step470 = 5 ∧
        (t.rd pgFWU Reg.HDR.EVT_PENDING.off).getLsbD 4 = true ∧ t.concA.run = s.concA.run ∧ t.concB.run = s.concB.run)) ∧
  (∀ (s : State) (g : Fin 4) (failing : BitVec 16),
    s.pow.mode = .on → s.step470 = 7 → s.pow.groups = g.val → 1 ≤ s.ceil pgMOD →
    (∀ tl : Fin 16, tl.val / 4 = g.val → (s.tile tl).power = .off ∧ mapFind (regKey (pgTILE tl) 0x010) s.saved = none ∧
      (s.stored pgPWR Reg.PWR.CONV_FAULT_TILE).testBit tl.val = false ∧ s.pow.hot.contains (.tile tl) = false) →
    ∃ t, exec (.tileGroupPower g { failing := failing }) s = .next t ∧ t.pow = { s.pow with groups := g.val + 1 } ∧
      (∀ tl : Fin 16, tl.val / 4 = g.val → (t.tile tl).power = .on ∧
        (t.stored pgINTG Reg.INTG.ST_STAT_TILE).testBit tl.val = !failing.getLsbD tl.val) ∧
      (∀ tl : Fin 16, tl.val / 4 ≠ g.val → t.tile tl = s.tile tl) ∧
      (g.val = 3 → t.step470 = if ums.all (fun u => !s.portLocked u || s.flag (pgUM u) Reg.UM.ADDR_REG) then 10 else 9) ∧
      (g.val ≠ 3 → t.step470 = 7)) ∧
  ∀ (s : State) (ms : BitVec 20),
    s.powered = true → s.step470 = 11 → s.flag pgCALS Reg.CALS.SWAP_STAT_WARM = false → s.running = true →
    s.time.first + 2 ≤ s.frame →
    ∃ t, exec (.ready ms) s = .next t ∧ t.step470 = 12 ∧ t.stored pgPWR Reg.PWR.READY_MS_MS = ms.toNat ∧
      (t.rd pgPWR Reg.HDR.EVT_PENDING.off).getLsbD 2 = true ∧
      (s.flag pgSTICK Reg.STICK.CTRL_AUTO = true → s.stickState = 0 → s.eligible .a = true → t.holder = some .a) ∧
      (s.flag pgSTICK Reg.STICK.CTRL_AUTO = true → s.stickState = 0 → s.eligible .a = false → s.eligible .b = true →
        t.holder = some .b) ∧
      (s.flag pgSTICK Reg.STICK.CTRL_AUTO = false ∨ s.stickState ≠ 0 ∨ (s.eligible .a = false ∧ s.eligible .b = false) →
        t.holder = s.holder)

/-- The test port (R491; the controller's states and edges are the model's choice, log entry 10). At a rising edge of TCK the
controller moves as TMS says: five with TMS 1 reach Test-Logic-Reset from any state. Capture-IR gives the low bits 01; the instruction and
the selected data register shift towards TDO; Capture-DR takes the 17 cells where EXTEST or SAMPLE/PRELOAD is in force: UMn_BEN as its burst (R490), or under EXTEST with RESET_N
low as scan drives it, the observed pins, and an interlock output low where it is in FAULT (R436). At a falling edge
the updates take effect: Test-Logic-Reset selects BYPASS. TRST_N low does so at once, and holds the controller there. -/
def Obligations.TheTestPortScans : Prop :=
  (∀ (s : State) (tms tdi : Bool) (pins : TestPins),
    let a := s.tap
    let ben (u : Um) (ui : Nat) : Bool := if a.ir = 0 ∧ s.pow.resetLow = true ∧ a.latch.getLsbD (2 * u.idx + 1) = true
      then a.latch.getLsbD (2 * u.idx) else (s.um u).benAt ui
    let ilk (o : Pin) (level : Bool) : Bool := level && s.ilkPin o != .low
    let cells : List Bool := [ben .um0 pins.ui0, true, ben .um1 pins.ui1, true, pins.trigA, pins.trigB, s.trig.gateA.raw,
      s.trig.gateB.raw, ilk .a pins.ilkA, ilk .b pins.ilkB, !s.pow.resetLow] ++ (List.finRange 6).map (fun i => pins.boardId[i])
    s.pow.mode ≠ .off → s.pow.mode ≠ .hot → pins.trst = true →
    ∃ t, exec (.testClockEdge true tms tdi pins) s = .next t ∧ s.changesOnly [.tap, .freeCount] t ∧
      t.tap.state = a.state.next tms ∧ t.tap.ir = a.ir ∧ t.tap.latch = a.latch ∧ t.tap.tdo = a.tdo ∧
      (a.state = .captureIr → t.tap.irShift.getLsbD 0 = true ∧ t.tap.irShift.getLsbD 1 = false) ∧
      (a.state = .shiftIr → (∀ i, i < 3 → t.tap.irShift.getLsbD i = a.irShift.getLsbD (i + 1)) ∧ t.tap.irShift.getLsbD 3 = tdi) ∧
      (a.state ≠ .captureIr → a.state ≠ .shiftIr → t.tap.irShift = a.irShift) ∧
      (a.state = .captureDr → a.ir = 0 ∨ a.ir = 1 → (∀ i : Fin 17, some t.tap.shift[i] = cells[i.val]?) ∧ t.tap.bypass = a.bypass) ∧
      (a.state = .captureDr → a.ir ≠ 0 → a.ir ≠ 1 → t.tap.shift = a.shift ∧ t.tap.bypass = false) ∧
      (a.state = .shiftDr → a.ir = 0 ∨ a.ir = 1 →
        (∀ i, i < 16 → t.tap.shift.getLsbD i = a.shift.getLsbD (i + 1)) ∧ t.tap.shift.getLsbD 16 = tdi) ∧
      (a.state = .shiftDr → a.ir ≠ 0 → a.ir ≠ 1 → t.tap.shift = a.shift ∧ t.tap.bypass = tdi) ∧
      (a.state ≠ .captureDr → a.state ≠ .shiftDr → t.tap.shift = a.shift ∧ t.tap.bypass = a.bypass)) ∧
  (∀ (s : State) (tms tdi : Bool) (pins : TestPins),
    let a := s.tap
    s.pow.mode ≠ .off → s.pow.mode ≠ .hot → pins.trst = true →
    ∃ t, exec (.testClockEdge false tms tdi pins) s = .next t ∧ s.changesOnly [.tap] t ∧
      t.tap = { a with
        ir := if a.state = .testLogicReset then 0xF else if a.state = .updateIr then a.irShift else a.ir
        latch := if a.state = .updateDr ∧ (a.ir = 0 ∨ a.ir = 1) then a.shift else a.latch
        tdo := if a.state = .shiftIr then some (a.irShift.getLsbD 0)
          else if a.state = .shiftDr then some (if a.ir = 0 ∨ a.ir = 1 then a.shift.getLsbD 0 else a.bypass) else none }) ∧
  (∀ s : State, exec .testLogicReset s =
    .next { s with tap := { s.tap with state := .testLogicReset, ir := 0xF, tdo := none } }) ∧
  (∀ (s : State) (rising tms tdi : Bool) (pins : TestPins),
    s.pow.mode ≠ .off → s.pow.mode ≠ .hot → pins.trst = false →
    exec (.testClockEdge rising tms tdi pins) s = exec .testLogicReset s) ∧
  ∀ a : TapState, ((((a.next true).next true).next true).next true).next true = .testLogicReset
end

