-- ==== Sys2Proof/Laws/Bits.lean ====
section
/-!
SUPPORT. The laws of bit fields: a field read after it is written gives what was written, as far as it is wide, and a
write of a field leaves every field apart from it alone.
-/

namespace Sys2Proof.Machine

theorem testBit_fieldGet (f : FieldRef) (w : Word) (i : Nat) :
    (fieldGet f w).testBit i = (decide (i < f.hi - f.lo + 1) && w.getLsbD (f.lo + i)) := by
  simp [fieldGet, bitsOf, Nat.testBit_mod_two_pow, Nat.testBit_div_two_pow, BitVec.getLsbD, Nat.add_comm]

theorem getLsbD_maskOf {hi lo : Nat} (i : Nat) (hi32 : hi < 32) (h : lo ≤ hi) :
    (maskOf hi lo).getLsbD i = (decide (lo ≤ i) && decide (i ≤ hi)) := by
  simp only [maskOf, BitVec.getLsbD_ofNat, Nat.testBit_mul_two_pow, Nat.testBit_two_pow_sub_one]
  by_cases h1 : lo ≤ i <;> by_cases h2 : i ≤ hi <;> simp [h1, h2] <;> omega

theorem getLsbD_fieldPut (f : FieldRef) (v : Nat) (w : Word) (i : Nat) (h32 : f.hi < 32) (h : f.lo ≤ f.hi) (hi : i < 32) :
    (fieldPut f v w).getLsbD i =
      if f.lo ≤ i ∧ i ≤ f.hi then v.testBit (i - f.lo) else w.getLsbD i := by
  simp only [fieldPut, BitVec.getLsbD_or, BitVec.getLsbD_and, BitVec.getLsbD_not, getLsbD_maskOf i h32 h,
    BitVec.getLsbD_ofNat, Nat.testBit_mul_two_pow]
  by_cases h1 : f.lo ≤ i <;> by_cases h2 : i ≤ f.hi <;> simp [h1, h2, hi]

theorem fieldGet_fieldPut_same (f : FieldRef) (v : Nat) (w : Word) (h32 : f.hi < 32) (h : f.lo ≤ f.hi) :
    fieldGet f (fieldPut f v w) = v % 2 ^ (f.hi - f.lo + 1) := by
  refine Nat.eq_of_testBit_eq fun i => ?_
  rw [testBit_fieldGet, Nat.testBit_mod_two_pow]
  by_cases hi : i < f.hi - f.lo + 1
  · rw [getLsbD_fieldPut f v w _ h32 h (by omega), if_pos (by omega), Nat.add_sub_cancel_left]
  · simp [hi]

theorem fieldGet_fieldPut_apart (f g : FieldRef) (v : Nat) (w : Word) (h32 : f.hi < 32) (h : f.lo ≤ f.hi) (g32 : g.hi < 32)
    (hg : g.lo ≤ g.hi) (ha : f.hi < g.lo ∨ g.hi < f.lo) : fieldGet g (fieldPut f v w) = fieldGet g w := by
  refine Nat.eq_of_testBit_eq fun i => ?_
  rw [testBit_fieldGet, testBit_fieldGet]
  by_cases hi : i < g.hi - g.lo + 1
  · rw [getLsbD_fieldPut f v w _ h32 h (by omega), if_neg (by omega)]
  · simp [hi]

/-- A field of all 32 bits reads as the word. -/
theorem fieldGet_whole (off : Nat) (w : Word) : fieldGet ⟨off, 31, 0⟩ w = w.toNat := by
  simp [fieldGet, bitsOf, Nat.mod_eq_of_lt w.isLt]

theorem getLsbD_or_bit (w : Word) (i : Nat) (h : i < 32) : (w ||| BitVec.ofNat 32 (2 ^ i)).getLsbD i = true := by
  rw [BitVec.getLsbD_or, BitVec.getLsbD_ofNat, Nat.testBit_two_pow_self]; simp [h]

end Sys2Proof.Machine
end

