-- ==== Sys2Proof/Laws/Maps.lean ====
section
/-!
SUPPORT. The laws of sparse maps: a read after a write to the same key gives what was written, a write leaves every other
key alone, and every operation keeps the canonical form.
-/

namespace Sys2Proof.Machine

@[simp] theorem mapFind_mapPut_same {α : Type} (k : Nat) (v : α) (m : List (Nat × α)) :
    mapFind k (mapPut k v m) = some v := by
  induction m with
  | nil => simp [mapPut, mapFind]
  | cons e r ih => obtain ⟨j, w⟩ := e; simp only [mapPut]; split_ifs <;> simp_all [mapFind]

theorem mapFind_mapPut_ne {α : Type} {j k : Nat} (h : j ≠ k) (v : α) (m : List (Nat × α)) :
    mapFind j (mapPut k v m) = mapFind j m := by
  induction m with
  | nil => simp [mapPut, mapFind, h]
  | cons e r ih =>
    obtain ⟨i, w⟩ := e
    simp only [mapPut]
    split_ifs with h1 h2
    · subst h1; simp [mapFind, h]
    · simp [mapFind, h]
    · simp [mapFind, ih]

theorem mapFind_mapDel_ne {α : Type} {j k : Nat} (h : j ≠ k) (m : List (Nat × α)) :
    mapFind j (mapDel k m) = mapFind j m := by
  induction m with
  | nil => simp [mapDel, mapFind]
  | cons e r ih =>
    obtain ⟨i, w⟩ := e
    rw [mapDel] at ih ⊢
    rw [List.filter_cons]
    by_cases hi : i = k
    · subst hi; simp [mapFind, h, ih]
    · simp [hi, mapFind, ih]

@[simp] theorem mapFind_mapDel_same {α : Type} (k : Nat) (m : List (Nat × α)) : mapFind k (mapDel k m) = none := by
  induction m with
  | nil => simp [mapDel, mapFind]
  | cons e r ih =>
    obtain ⟨i, w⟩ := e
    rw [mapDel] at ih ⊢
    rw [List.filter_cons]
    by_cases hi : i = k
    · subst hi; simp [ih]
    · simp [hi, mapFind, ih, Ne.symm hi]

@[simp] theorem mapGetD_mapPut_same {α : Type} (d : α) (k : Nat) (v : α) (m : List (Nat × α)) :
    mapGetD d k (mapPut k v m) = v := by simp [mapGetD]

theorem mapGetD_mapPut_ne {α : Type} {j k : Nat} (h : j ≠ k) (d v : α) (m : List (Nat × α)) :
    mapGetD d j (mapPut k v m) = mapGetD d j m := by simp [mapGetD, mapFind_mapPut_ne h]

@[simp] theorem mapGetD_mapPutD_same {α : Type} [DecidableEq α] (d : α) (k : Nat) (v : α) (m : List (Nat × α)) :
    mapGetD d k (mapPutD d k v m) = v := by
  by_cases h : v = d <;> simp [mapPutD, mapGetD, h]

theorem mapGetD_mapPutD_ne {α : Type} [DecidableEq α] {j k : Nat} (h : j ≠ k) (d e v : α) (m : List (Nat × α)) :
    mapGetD e j (mapPutD d k v m) = mapGetD e j m := by
  by_cases hv : v = d <;> simp [mapPutD, mapGetD, hv, mapFind_mapDel_ne h, mapFind_mapPut_ne h]

/-! ### The canonical form -/

/-- The keys of a list rise strictly, as a proposition on lists. -/
theorem mapWf_iff {α : Type} (m : List (Nat × α)) : mapWf m = true ↔ m.Pairwise (fun a b => a.1 < b.1) := by
  induction m with
  | nil => simp [mapWf]
  | cons e r ih =>
    obtain ⟨a, v⟩ := e
    cases r with
    | nil => simp [mapWf]
    | cons e' r' =>
      obtain ⟨b, w⟩ := e'
      simp only [mapWf, Bool.and_eq_true, decide_eq_true_eq, ih, List.pairwise_cons]
      constructor
      · rintro ⟨h1, h2, h3⟩
        refine ⟨?_, h2, h3⟩
        intro x hx
        rcases List.mem_cons.1 hx with rfl | hx
        · exact h1
        · exact lt_trans h1 (h2 x hx)
      · rintro ⟨h1, h2, h3⟩
        exact ⟨h1 (b, w) (by simp), h2, h3⟩

theorem mapWf_mapDel {α : Type} {m : List (Nat × α)} (h : mapWf m = true) (k : Nat) : mapWf (mapDel k m) = true := by
  rw [mapWf_iff] at *; exact h.filter _

theorem mapWf_filter {α : Type} {m : List (Nat × α)} (h : mapWf m = true) (p : Nat × α → Bool) :
    mapWf (m.filter p) = true := by
  rw [mapWf_iff] at *; exact h.filter _

theorem mem_mapPut {α : Type} {k : Nat} {v : α} {m : List (Nat × α)} {x : Nat × α} (h : x ∈ mapPut k v m) :
    x = (k, v) ∨ x ∈ m := by
  induction m with
  | nil => simpa [mapPut] using h
  | cons e r ih =>
    obtain ⟨j, w⟩ := e
    simp only [mapPut] at h
    split_ifs at h
    · rcases List.mem_cons.1 h with rfl | h
      · exact .inl rfl
      · exact .inr (by simp [h])
    · rcases List.mem_cons.1 h with rfl | h
      · exact .inl rfl
      · exact .inr h
    · rcases List.mem_cons.1 h with rfl | h
      · exact .inr (by simp)
      · rcases ih h with h | h
        · exact .inl h
        · exact .inr (by simp [h])

theorem mapWf_mapPut {α : Type} {m : List (Nat × α)} (h : mapWf m = true) (k : Nat) (v : α) :
    mapWf (mapPut k v m) = true := by
  rw [mapWf_iff] at *
  induction m with
  | nil => simp [mapPut]
  | cons e r ih =>
    obtain ⟨j, w⟩ := e
    have ⟨h1, h2⟩ := List.pairwise_cons.1 h
    simp only [mapPut]
    split_ifs with hj hk
    · subst hj; exact List.pairwise_cons.2 ⟨h1, h2⟩
    · refine List.pairwise_cons.2 ⟨?_, h⟩
      intro x hx
      rcases List.mem_cons.1 hx with rfl | hx
      · exact hk
      · exact lt_trans hk (h1 x hx)
    · refine List.pairwise_cons.2 ⟨?_, ih h2⟩
      intro x hx
      rcases mem_mapPut hx with rfl | hx
      · show j < k; omega
      · exact h1 x hx

theorem mapWf_mapPutD {α : Type} [DecidableEq α] {m : List (Nat × α)} (h : mapWf m = true) (d : α) (k : Nat) (v : α) :
    mapWf (mapPutD d k v m) = true := by
  unfold mapPutD; split_ifs
  · exact mapWf_mapDel h k
  · exact mapWf_mapPut h k v

theorem mapCanon_mapPutD {α : Type} [DecidableEq α] {d : Nat → α} {m : List (Nat × α)} (h : mapCanon d m = true) (k : Nat)
    (v : α) : mapCanon d (mapPutD (d k) k v m) = true := by
  simp only [mapCanon, Bool.and_eq_true, List.all_eq_true, decide_eq_true_eq] at *
  refine ⟨mapWf_mapPutD h.1 _ _ _, fun x hx => ?_⟩
  unfold mapPutD at hx
  split_ifs at hx with hv
  · exact h.2 x (List.mem_of_mem_filter hx)
  · rcases mem_mapPut hx with rfl | hx
    · exact hv
    · exact h.2 x hx

theorem mapCanon_filter {α : Type} [DecidableEq α] {d : Nat → α} {m : List (Nat × α)} (h : mapCanon d m = true)
    (p : Nat × α → Bool) : mapCanon d (m.filter p) = true := by
  simp only [mapCanon, Bool.and_eq_true, List.all_eq_true, decide_eq_true_eq] at *
  exact ⟨mapWf_filter h.1 p, fun x hx => h.2 x (List.mem_of_mem_filter hx)⟩

end Sys2Proof.Machine
end

