-- ==== Sys2Proof/Laws/State.lean ====
section
/-!
SUPPORT. What the shared updates of the state leave alone: one lemma per field and update.
-/

namespace Sys2Proof.Machine


/-! The fields of a state written out. A proof that rewrites with these never asks the kernel to compare two states. -/

section

variable (now : Nat) (frame : Nat) (running : Bool) (regs : List (Nat × Word)) (stale : List (Nat × Word)) (pendW :
  List PendWrite) (eventQ : List (Nat × Bool × Bool)) (chans : List (Nat × Chan)) (tiles : Vector Tile 16) (tac :
  List (Nat × Word)) (tacStaged : List (Nat × Word)) (tacPoison : List Nat) (rwsStaged : List (Nat × Word)) (concA :
  ConcSt) (concB : ConcSt) (frames : List (Nat × FrameInfo)) (trig : TrigSt) (time : TimeSt) (lastCorr : List (Nat ×
  Nat)) (scrubs : List (Nat × ScrubRun)) (writeBacks : List WriteBack) (integ : IntegSt) (stick : StickSt) (cal : CalSt) (mon : MonSt)
  (fwu : FwuSt) (pow : PowSt) (tap : TapSt) (um0 : UmSt) (um1 : UmSt) (peal : Option Peal) (mixedFrom : List Nat)
  (unlocks : List (Nat × Nat)) (journal : List JEntry) (saved : List (Nat × Word)) (savedStaged : List (Nat × Word))
  (savedTac : List (Nat × Word)) (jseq : List (Nat × Nat)) (savedEpoch : Nat) (savedCorr : List (Nat × BitVec 128))
  (mramCorr : List (Nat × BitVec 128)) (mramTac : List (Nat × Word)) (mramTap : List (Nat × Nat)) (freeCount : Nat)
  (pending : List Instr)

@[simp ↓] theorem State.mk_now :
    (State.mk now frame running regs stale pendW eventQ chans tiles tac tacStaged tacPoison rwsStaged concA
      concB frames trig time lastCorr scrubs writeBacks integ stick cal mon fwu pow tap um0 um1 peal mixedFrom unlocks
      journal saved savedStaged savedTac jseq savedEpoch savedCorr mramCorr mramTac mramTap freeCount pending).now = now := Eq.trans rfl rfl
@[simp ↓] theorem State.mk_frame :
    (State.mk now frame running regs stale pendW eventQ chans tiles tac tacStaged tacPoison rwsStaged concA
      concB frames trig time lastCorr scrubs writeBacks integ stick cal mon fwu pow tap um0 um1 peal mixedFrom unlocks
      journal saved savedStaged savedTac jseq savedEpoch savedCorr mramCorr mramTac mramTap freeCount pending).frame = frame := Eq.trans rfl rfl
@[simp ↓] theorem State.mk_running :
    (State.mk now frame running regs stale pendW eventQ chans tiles tac tacStaged tacPoison rwsStaged concA
      concB frames trig time lastCorr scrubs writeBacks integ stick cal mon fwu pow tap um0 um1 peal mixedFrom unlocks
      journal saved savedStaged savedTac jseq savedEpoch savedCorr mramCorr mramTac mramTap freeCount pending).running = running := Eq.trans rfl rfl
@[simp ↓] theorem State.mk_regs :
    (State.mk now frame running regs stale pendW eventQ chans tiles tac tacStaged tacPoison rwsStaged concA
      concB frames trig time lastCorr scrubs writeBacks integ stick cal mon fwu pow tap um0 um1 peal mixedFrom unlocks
      journal saved savedStaged savedTac jseq savedEpoch savedCorr mramCorr mramTac mramTap freeCount pending).regs = regs := Eq.trans rfl rfl
@[simp ↓] theorem State.mk_stale :
    (State.mk now frame running regs stale pendW eventQ chans tiles tac tacStaged tacPoison rwsStaged concA
      concB frames trig time lastCorr scrubs writeBacks integ stick cal mon fwu pow tap um0 um1 peal mixedFrom unlocks
      journal saved savedStaged savedTac jseq savedEpoch savedCorr mramCorr mramTac mramTap freeCount pending).stale = stale := Eq.trans rfl rfl
@[simp ↓] theorem State.mk_pendW :
    (State.mk now frame running regs stale pendW eventQ chans tiles tac tacStaged tacPoison rwsStaged concA
      concB frames trig time lastCorr scrubs writeBacks integ stick cal mon fwu pow tap um0 um1 peal mixedFrom unlocks
      journal saved savedStaged savedTac jseq savedEpoch savedCorr mramCorr mramTac mramTap freeCount pending).pendW = pendW := Eq.trans rfl rfl
@[simp ↓] theorem State.mk_eventQ :
    (State.mk now frame running regs stale pendW eventQ chans tiles tac tacStaged tacPoison rwsStaged concA
      concB frames trig time lastCorr scrubs writeBacks integ stick cal mon fwu pow tap um0 um1 peal mixedFrom unlocks
      journal saved savedStaged savedTac jseq savedEpoch savedCorr mramCorr mramTac mramTap freeCount pending).eventQ = eventQ := Eq.trans rfl rfl
@[simp ↓] theorem State.mk_chans :
    (State.mk now frame running regs stale pendW eventQ chans tiles tac tacStaged tacPoison rwsStaged concA
      concB frames trig time lastCorr scrubs writeBacks integ stick cal mon fwu pow tap um0 um1 peal mixedFrom unlocks
      journal saved savedStaged savedTac jseq savedEpoch savedCorr mramCorr mramTac mramTap freeCount pending).chans = chans := Eq.trans rfl rfl
@[simp ↓] theorem State.mk_tiles :
    (State.mk now frame running regs stale pendW eventQ chans tiles tac tacStaged tacPoison rwsStaged concA
      concB frames trig time lastCorr scrubs writeBacks integ stick cal mon fwu pow tap um0 um1 peal mixedFrom unlocks
      journal saved savedStaged savedTac jseq savedEpoch savedCorr mramCorr mramTac mramTap freeCount pending).tiles = tiles := Eq.trans rfl rfl
@[simp ↓] theorem State.mk_tac :
    (State.mk now frame running regs stale pendW eventQ chans tiles tac tacStaged tacPoison rwsStaged concA
      concB frames trig time lastCorr scrubs writeBacks integ stick cal mon fwu pow tap um0 um1 peal mixedFrom unlocks
      journal saved savedStaged savedTac jseq savedEpoch savedCorr mramCorr mramTac mramTap freeCount pending).tac = tac := Eq.trans rfl rfl
@[simp ↓] theorem State.mk_tacStaged :
    (State.mk now frame running regs stale pendW eventQ chans tiles tac tacStaged tacPoison rwsStaged concA
      concB frames trig time lastCorr scrubs writeBacks integ stick cal mon fwu pow tap um0 um1 peal mixedFrom unlocks
      journal saved savedStaged savedTac jseq savedEpoch savedCorr mramCorr mramTac mramTap freeCount pending).tacStaged = tacStaged := Eq.trans rfl rfl
@[simp ↓] theorem State.mk_tacPoison :
    (State.mk now frame running regs stale pendW eventQ chans tiles tac tacStaged tacPoison rwsStaged concA
      concB frames trig time lastCorr scrubs writeBacks integ stick cal mon fwu pow tap um0 um1 peal mixedFrom unlocks
      journal saved savedStaged savedTac jseq savedEpoch savedCorr mramCorr mramTac mramTap freeCount pending).tacPoison = tacPoison := Eq.trans rfl rfl
@[simp ↓] theorem State.mk_rwsStaged :
    (State.mk now frame running regs stale pendW eventQ chans tiles tac tacStaged tacPoison rwsStaged concA
      concB frames trig time lastCorr scrubs writeBacks integ stick cal mon fwu pow tap um0 um1 peal mixedFrom unlocks
      journal saved savedStaged savedTac jseq savedEpoch savedCorr mramCorr mramTac mramTap freeCount pending).rwsStaged = rwsStaged := Eq.trans rfl rfl
@[simp ↓] theorem State.mk_concA :
    (State.mk now frame running regs stale pendW eventQ chans tiles tac tacStaged tacPoison rwsStaged concA
      concB frames trig time lastCorr scrubs writeBacks integ stick cal mon fwu pow tap um0 um1 peal mixedFrom unlocks
      journal saved savedStaged savedTac jseq savedEpoch savedCorr mramCorr mramTac mramTap freeCount pending).concA = concA := Eq.trans rfl rfl
@[simp ↓] theorem State.mk_concB :
    (State.mk now frame running regs stale pendW eventQ chans tiles tac tacStaged tacPoison rwsStaged concA
      concB frames trig time lastCorr scrubs writeBacks integ stick cal mon fwu pow tap um0 um1 peal mixedFrom unlocks
      journal saved savedStaged savedTac jseq savedEpoch savedCorr mramCorr mramTac mramTap freeCount pending).concB = concB := Eq.trans rfl rfl
@[simp ↓] theorem State.mk_frames :
    (State.mk now frame running regs stale pendW eventQ chans tiles tac tacStaged tacPoison rwsStaged concA
      concB frames trig time lastCorr scrubs writeBacks integ stick cal mon fwu pow tap um0 um1 peal mixedFrom unlocks
      journal saved savedStaged savedTac jseq savedEpoch savedCorr mramCorr mramTac mramTap freeCount pending).frames = frames := Eq.trans rfl rfl
@[simp ↓] theorem State.mk_trig :
    (State.mk now frame running regs stale pendW eventQ chans tiles tac tacStaged tacPoison rwsStaged concA
      concB frames trig time lastCorr scrubs writeBacks integ stick cal mon fwu pow tap um0 um1 peal mixedFrom unlocks
      journal saved savedStaged savedTac jseq savedEpoch savedCorr mramCorr mramTac mramTap freeCount pending).trig = trig := Eq.trans rfl rfl
@[simp ↓] theorem State.mk_time :
    (State.mk now frame running regs stale pendW eventQ chans tiles tac tacStaged tacPoison rwsStaged concA
      concB frames trig time lastCorr scrubs writeBacks integ stick cal mon fwu pow tap um0 um1 peal mixedFrom unlocks
      journal saved savedStaged savedTac jseq savedEpoch savedCorr mramCorr mramTac mramTap freeCount pending).time = time := Eq.trans rfl rfl
@[simp ↓] theorem State.mk_lastCorr :
    (State.mk now frame running regs stale pendW eventQ chans tiles tac tacStaged tacPoison rwsStaged concA
      concB frames trig time lastCorr scrubs writeBacks integ stick cal mon fwu pow tap um0 um1 peal mixedFrom unlocks
      journal saved savedStaged savedTac jseq savedEpoch savedCorr mramCorr mramTac mramTap freeCount pending).lastCorr = lastCorr := Eq.trans rfl rfl
@[simp ↓] theorem State.mk_scrubs :
    (State.mk now frame running regs stale pendW eventQ chans tiles tac tacStaged tacPoison rwsStaged concA
      concB frames trig time lastCorr scrubs writeBacks integ stick cal mon fwu pow tap um0 um1 peal mixedFrom unlocks
      journal saved savedStaged savedTac jseq savedEpoch savedCorr mramCorr mramTac mramTap freeCount pending).scrubs = scrubs := Eq.trans rfl rfl
@[simp ↓] theorem State.mk_writeBacks :
    (State.mk now frame running regs stale pendW eventQ chans tiles tac tacStaged tacPoison rwsStaged concA
      concB frames trig time lastCorr scrubs writeBacks integ stick cal mon fwu pow tap um0 um1 peal mixedFrom unlocks
      journal saved savedStaged savedTac jseq savedEpoch savedCorr mramCorr mramTac mramTap freeCount pending).writeBacks = writeBacks := Eq.trans rfl rfl
@[simp ↓] theorem State.mk_integ :
    (State.mk now frame running regs stale pendW eventQ chans tiles tac tacStaged tacPoison rwsStaged concA
      concB frames trig time lastCorr scrubs writeBacks integ stick cal mon fwu pow tap um0 um1 peal mixedFrom unlocks
      journal saved savedStaged savedTac jseq savedEpoch savedCorr mramCorr mramTac mramTap freeCount pending).integ = integ := Eq.trans rfl rfl
@[simp ↓] theorem State.mk_stick :
    (State.mk now frame running regs stale pendW eventQ chans tiles tac tacStaged tacPoison rwsStaged concA
      concB frames trig time lastCorr scrubs writeBacks integ stick cal mon fwu pow tap um0 um1 peal mixedFrom unlocks
      journal saved savedStaged savedTac jseq savedEpoch savedCorr mramCorr mramTac mramTap freeCount pending).stick = stick := Eq.trans rfl rfl
@[simp ↓] theorem State.mk_cal :
    (State.mk now frame running regs stale pendW eventQ chans tiles tac tacStaged tacPoison rwsStaged concA
      concB frames trig time lastCorr scrubs writeBacks integ stick cal mon fwu pow tap um0 um1 peal mixedFrom unlocks
      journal saved savedStaged savedTac jseq savedEpoch savedCorr mramCorr mramTac mramTap freeCount pending).cal = cal := Eq.trans rfl rfl
@[simp ↓] theorem State.mk_mon :
    (State.mk now frame running regs stale pendW eventQ chans tiles tac tacStaged tacPoison rwsStaged concA
      concB frames trig time lastCorr scrubs writeBacks integ stick cal mon fwu pow tap um0 um1 peal mixedFrom unlocks
      journal saved savedStaged savedTac jseq savedEpoch savedCorr mramCorr mramTac mramTap freeCount pending).mon = mon := Eq.trans rfl rfl
@[simp ↓] theorem State.mk_fwu :
    (State.mk now frame running regs stale pendW eventQ chans tiles tac tacStaged tacPoison rwsStaged concA
      concB frames trig time lastCorr scrubs writeBacks integ stick cal mon fwu pow tap um0 um1 peal mixedFrom unlocks
      journal saved savedStaged savedTac jseq savedEpoch savedCorr mramCorr mramTac mramTap freeCount pending).fwu = fwu := Eq.trans rfl rfl
@[simp ↓] theorem State.mk_pow :
    (State.mk now frame running regs stale pendW eventQ chans tiles tac tacStaged tacPoison rwsStaged concA
      concB frames trig time lastCorr scrubs writeBacks integ stick cal mon fwu pow tap um0 um1 peal mixedFrom unlocks
      journal saved savedStaged savedTac jseq savedEpoch savedCorr mramCorr mramTac mramTap freeCount pending).pow = pow := Eq.trans rfl rfl
@[simp ↓] theorem State.mk_tap :
    (State.mk now frame running regs stale pendW eventQ chans tiles tac tacStaged tacPoison rwsStaged concA
      concB frames trig time lastCorr scrubs writeBacks integ stick cal mon fwu pow tap um0 um1 peal mixedFrom unlocks
      journal saved savedStaged savedTac jseq savedEpoch savedCorr mramCorr mramTac mramTap freeCount pending).tap = tap := Eq.trans rfl rfl
@[simp ↓] theorem State.mk_um0 :
    (State.mk now frame running regs stale pendW eventQ chans tiles tac tacStaged tacPoison rwsStaged concA
      concB frames trig time lastCorr scrubs writeBacks integ stick cal mon fwu pow tap um0 um1 peal mixedFrom unlocks
      journal saved savedStaged savedTac jseq savedEpoch savedCorr mramCorr mramTac mramTap freeCount pending).um0 = um0 := Eq.trans rfl rfl
@[simp ↓] theorem State.mk_um1 :
    (State.mk now frame running regs stale pendW eventQ chans tiles tac tacStaged tacPoison rwsStaged concA
      concB frames trig time lastCorr scrubs writeBacks integ stick cal mon fwu pow tap um0 um1 peal mixedFrom unlocks
      journal saved savedStaged savedTac jseq savedEpoch savedCorr mramCorr mramTac mramTap freeCount pending).um1 = um1 := Eq.trans rfl rfl
@[simp ↓] theorem State.mk_peal :
    (State.mk now frame running regs stale pendW eventQ chans tiles tac tacStaged tacPoison rwsStaged concA
      concB frames trig time lastCorr scrubs writeBacks integ stick cal mon fwu pow tap um0 um1 peal mixedFrom unlocks
      journal saved savedStaged savedTac jseq savedEpoch savedCorr mramCorr mramTac mramTap freeCount pending).peal = peal := Eq.trans rfl rfl
@[simp ↓] theorem State.mk_mixedFrom :
    (State.mk now frame running regs stale pendW eventQ chans tiles tac tacStaged tacPoison rwsStaged concA
      concB frames trig time lastCorr scrubs writeBacks integ stick cal mon fwu pow tap um0 um1 peal mixedFrom unlocks
      journal saved savedStaged savedTac jseq savedEpoch savedCorr mramCorr mramTac mramTap freeCount pending).mixedFrom = mixedFrom := Eq.trans rfl rfl
@[simp ↓] theorem State.mk_unlocks :
    (State.mk now frame running regs stale pendW eventQ chans tiles tac tacStaged tacPoison rwsStaged concA
      concB frames trig time lastCorr scrubs writeBacks integ stick cal mon fwu pow tap um0 um1 peal mixedFrom unlocks
      journal saved savedStaged savedTac jseq savedEpoch savedCorr mramCorr mramTac mramTap freeCount pending).unlocks = unlocks := Eq.trans rfl rfl
@[simp ↓] theorem State.mk_journal :
    (State.mk now frame running regs stale pendW eventQ chans tiles tac tacStaged tacPoison rwsStaged concA
      concB frames trig time lastCorr scrubs writeBacks integ stick cal mon fwu pow tap um0 um1 peal mixedFrom unlocks
      journal saved savedStaged savedTac jseq savedEpoch savedCorr mramCorr mramTac mramTap freeCount pending).journal = journal := Eq.trans rfl rfl
@[simp ↓] theorem State.mk_saved :
    (State.mk now frame running regs stale pendW eventQ chans tiles tac tacStaged tacPoison rwsStaged concA
      concB frames trig time lastCorr scrubs writeBacks integ stick cal mon fwu pow tap um0 um1 peal mixedFrom unlocks
      journal saved savedStaged savedTac jseq savedEpoch savedCorr mramCorr mramTac mramTap freeCount pending).saved = saved := Eq.trans rfl rfl
@[simp ↓] theorem State.mk_savedStaged :
    (State.mk now frame running regs stale pendW eventQ chans tiles tac tacStaged tacPoison rwsStaged concA
      concB frames trig time lastCorr scrubs writeBacks integ stick cal mon fwu pow tap um0 um1 peal mixedFrom unlocks
      journal saved savedStaged savedTac jseq savedEpoch savedCorr mramCorr mramTac mramTap freeCount pending).savedStaged = savedStaged := Eq.trans rfl rfl
@[simp ↓] theorem State.mk_savedTac :
    (State.mk now frame running regs stale pendW eventQ chans tiles tac tacStaged tacPoison rwsStaged concA
      concB frames trig time lastCorr scrubs writeBacks integ stick cal mon fwu pow tap um0 um1 peal mixedFrom unlocks
      journal saved savedStaged savedTac jseq savedEpoch savedCorr mramCorr mramTac mramTap freeCount pending).savedTac = savedTac := Eq.trans rfl rfl
@[simp ↓] theorem State.mk_jseq :
    (State.mk now frame running regs stale pendW eventQ chans tiles tac tacStaged tacPoison rwsStaged concA
      concB frames trig time lastCorr scrubs writeBacks integ stick cal mon fwu pow tap um0 um1 peal mixedFrom unlocks
      journal saved savedStaged savedTac jseq savedEpoch savedCorr mramCorr mramTac mramTap freeCount pending).jseq = jseq := Eq.trans rfl rfl
@[simp ↓] theorem State.mk_savedEpoch :
    (State.mk now frame running regs stale pendW eventQ chans tiles tac tacStaged tacPoison rwsStaged concA
      concB frames trig time lastCorr scrubs writeBacks integ stick cal mon fwu pow tap um0 um1 peal mixedFrom unlocks
      journal saved savedStaged savedTac jseq savedEpoch savedCorr mramCorr mramTac mramTap freeCount pending).savedEpoch = savedEpoch := Eq.trans rfl rfl
@[simp ↓] theorem State.mk_savedCorr :
    (State.mk now frame running regs stale pendW eventQ chans tiles tac tacStaged tacPoison rwsStaged concA
      concB frames trig time lastCorr scrubs writeBacks integ stick cal mon fwu pow tap um0 um1 peal mixedFrom unlocks
      journal saved savedStaged savedTac jseq savedEpoch savedCorr mramCorr mramTac mramTap freeCount pending).savedCorr = savedCorr := Eq.trans rfl rfl
@[simp ↓] theorem State.mk_mramCorr :
    (State.mk now frame running regs stale pendW eventQ chans tiles tac tacStaged tacPoison rwsStaged concA
      concB frames trig time lastCorr scrubs writeBacks integ stick cal mon fwu pow tap um0 um1 peal mixedFrom unlocks
      journal saved savedStaged savedTac jseq savedEpoch savedCorr mramCorr mramTac mramTap freeCount pending).mramCorr = mramCorr := Eq.trans rfl rfl
@[simp ↓] theorem State.mk_mramTac :
    (State.mk now frame running regs stale pendW eventQ chans tiles tac tacStaged tacPoison rwsStaged concA
      concB frames trig time lastCorr scrubs writeBacks integ stick cal mon fwu pow tap um0 um1 peal mixedFrom unlocks
      journal saved savedStaged savedTac jseq savedEpoch savedCorr mramCorr mramTac mramTap freeCount pending).mramTac = mramTac := Eq.trans rfl rfl
@[simp ↓] theorem State.mk_mramTap :
    (State.mk now frame running regs stale pendW eventQ chans tiles tac tacStaged tacPoison rwsStaged concA
      concB frames trig time lastCorr scrubs writeBacks integ stick cal mon fwu pow tap um0 um1 peal mixedFrom unlocks
      journal saved savedStaged savedTac jseq savedEpoch savedCorr mramCorr mramTac mramTap freeCount pending).mramTap = mramTap := Eq.trans rfl rfl
@[simp ↓] theorem State.mk_freeCount :
    (State.mk now frame running regs stale pendW eventQ chans tiles tac tacStaged tacPoison rwsStaged concA
      concB frames trig time lastCorr scrubs writeBacks integ stick cal mon fwu pow tap um0 um1 peal mixedFrom unlocks
      journal saved savedStaged savedTac jseq savedEpoch savedCorr mramCorr mramTac mramTap freeCount pending).freeCount = freeCount := Eq.trans rfl rfl
@[simp ↓] theorem State.mk_pending :
    (State.mk now frame running regs stale pendW eventQ chans tiles tac tacStaged tacPoison rwsStaged concA
      concB frames trig time lastCorr scrubs writeBacks integ stick cal mon fwu pow tap um0 um1 peal mixedFrom unlocks
      journal saved savedStaged savedTac jseq savedEpoch savedCorr mramCorr mramTac mramTap freeCount pending).pending = pending := Eq.trans rfl rfl

end


/-! `wr` -/

@[simp] theorem State.wr_now (s : State) (p o : Nat) (v : Word) : (s.wr p o v).now = s.now := by simp only [State.wr]
@[simp] theorem State.wr_frame (s : State) (p o : Nat) (v : Word) : (s.wr p o v).frame = s.frame := by simp only [State.wr]
@[simp] theorem State.wr_running (s : State) (p o : Nat) (v : Word) : (s.wr p o v).running = s.running := by simp only [State.wr]
@[simp] theorem State.wr_stale (s : State) (p o : Nat) (v : Word) : (s.wr p o v).stale = s.stale := by simp only [State.wr]
@[simp] theorem State.wr_pendW (s : State) (p o : Nat) (v : Word) : (s.wr p o v).pendW = s.pendW := by simp only [State.wr]
@[simp] theorem State.wr_eventQ (s : State) (p o : Nat) (v : Word) : (s.wr p o v).eventQ = s.eventQ := by simp only [State.wr]
@[simp] theorem State.wr_chans (s : State) (p o : Nat) (v : Word) : (s.wr p o v).chans = s.chans := by simp only [State.wr]
@[simp] theorem State.wr_tiles (s : State) (p o : Nat) (v : Word) : (s.wr p o v).tiles = s.tiles := by simp only [State.wr]
@[simp] theorem State.wr_tac (s : State) (p o : Nat) (v : Word) : (s.wr p o v).tac = s.tac := by simp only [State.wr]
@[simp] theorem State.wr_tacStaged (s : State) (p o : Nat) (v : Word) : (s.wr p o v).tacStaged = s.tacStaged := by simp only [State.wr]
@[simp] theorem State.wr_tacPoison (s : State) (p o : Nat) (v : Word) : (s.wr p o v).tacPoison = s.tacPoison := by simp only [State.wr]
@[simp] theorem State.wr_rwsStaged (s : State) (p o : Nat) (v : Word) : (s.wr p o v).rwsStaged = s.rwsStaged := by simp only [State.wr]
@[simp] theorem State.wr_concA (s : State) (p o : Nat) (v : Word) : (s.wr p o v).concA = s.concA := by simp only [State.wr]
@[simp] theorem State.wr_concB (s : State) (p o : Nat) (v : Word) : (s.wr p o v).concB = s.concB := by simp only [State.wr]
@[simp] theorem State.wr_frames (s : State) (p o : Nat) (v : Word) : (s.wr p o v).frames = s.frames := by simp only [State.wr]
@[simp] theorem State.wr_trig (s : State) (p o : Nat) (v : Word) : (s.wr p o v).trig = s.trig := by simp only [State.wr]
@[simp] theorem State.wr_time (s : State) (p o : Nat) (v : Word) : (s.wr p o v).time = s.time := by simp only [State.wr]
@[simp] theorem State.wr_lastCorr (s : State) (p o : Nat) (v : Word) : (s.wr p o v).lastCorr = s.lastCorr := by simp only [State.wr]
@[simp] theorem State.wr_scrubs (s : State) (p o : Nat) (v : Word) : (s.wr p o v).scrubs = s.scrubs := by simp only [State.wr]
@[simp] theorem State.wr_writeBacks (s : State) (p o : Nat) (v : Word) : (s.wr p o v).writeBacks = s.writeBacks := by simp only [State.wr]
@[simp] theorem State.wr_integ (s : State) (p o : Nat) (v : Word) : (s.wr p o v).integ = s.integ := by simp only [State.wr]
@[simp] theorem State.wr_stick (s : State) (p o : Nat) (v : Word) : (s.wr p o v).stick = s.stick := by simp only [State.wr]
@[simp] theorem State.wr_cal (s : State) (p o : Nat) (v : Word) : (s.wr p o v).cal = s.cal := by simp only [State.wr]
@[simp] theorem State.wr_mon (s : State) (p o : Nat) (v : Word) : (s.wr p o v).mon = s.mon := by simp only [State.wr]
@[simp] theorem State.wr_fwu (s : State) (p o : Nat) (v : Word) : (s.wr p o v).fwu = s.fwu := by simp only [State.wr]
@[simp] theorem State.wr_pow (s : State) (p o : Nat) (v : Word) : (s.wr p o v).pow = s.pow := by simp only [State.wr]
@[simp] theorem State.wr_tap (s : State) (p o : Nat) (v : Word) : (s.wr p o v).tap = s.tap := by simp only [State.wr]
@[simp] theorem State.wr_um0 (s : State) (p o : Nat) (v : Word) : (s.wr p o v).um0 = s.um0 := by simp only [State.wr]
@[simp] theorem State.wr_um1 (s : State) (p o : Nat) (v : Word) : (s.wr p o v).um1 = s.um1 := by simp only [State.wr]
@[simp] theorem State.wr_peal (s : State) (p o : Nat) (v : Word) : (s.wr p o v).peal = s.peal := by simp only [State.wr]
@[simp] theorem State.wr_mixedFrom (s : State) (p o : Nat) (v : Word) : (s.wr p o v).mixedFrom = s.mixedFrom := by simp only [State.wr]
@[simp] theorem State.wr_unlocks (s : State) (p o : Nat) (v : Word) : (s.wr p o v).unlocks = s.unlocks := by simp only [State.wr]
@[simp] theorem State.wr_journal (s : State) (p o : Nat) (v : Word) : (s.wr p o v).journal = s.journal := by simp only [State.wr]
@[simp] theorem State.wr_saved (s : State) (p o : Nat) (v : Word) : (s.wr p o v).saved = s.saved := by simp only [State.wr]
@[simp] theorem State.wr_savedStaged (s : State) (p o : Nat) (v : Word) : (s.wr p o v).savedStaged = s.savedStaged := by simp only [State.wr]
@[simp] theorem State.wr_savedTac (s : State) (p o : Nat) (v : Word) : (s.wr p o v).savedTac = s.savedTac := by simp only [State.wr]
@[simp] theorem State.wr_jseq (s : State) (p o : Nat) (v : Word) : (s.wr p o v).jseq = s.jseq := by simp only [State.wr]
@[simp] theorem State.wr_savedEpoch (s : State) (p o : Nat) (v : Word) : (s.wr p o v).savedEpoch = s.savedEpoch := by simp only [State.wr]
@[simp] theorem State.wr_savedCorr (s : State) (p o : Nat) (v : Word) : (s.wr p o v).savedCorr = s.savedCorr := by simp only [State.wr]
@[simp] theorem State.wr_mramCorr (s : State) (p o : Nat) (v : Word) : (s.wr p o v).mramCorr = s.mramCorr := by simp only [State.wr]
@[simp] theorem State.wr_mramTac (s : State) (p o : Nat) (v : Word) : (s.wr p o v).mramTac = s.mramTac := by simp only [State.wr]
@[simp] theorem State.wr_mramTap (s : State) (p o : Nat) (v : Word) : (s.wr p o v).mramTap = s.mramTap := by simp only [State.wr]
@[simp] theorem State.wr_freeCount (s : State) (p o : Nat) (v : Word) : (s.wr p o v).freeCount = s.freeCount := by simp only [State.wr]
@[simp] theorem State.wr_pending (s : State) (p o : Nat) (v : Word) : (s.wr p o v).pending = s.pending := by simp only [State.wr]
@[simp] theorem State.wr_chan (s : State) (p o : Nat) (v : Word) (x : Nat) : (s.wr p o v).chan x = s.chan x := by simp [State.chan]
@[simp] theorem State.wr_tile (s : State) (p o : Nat) (v : Word) (x : Fin 16) : (s.wr p o v).tile x = s.tile x := by simp [State.tile]
@[simp] theorem State.wr_conc (s : State) (p o : Nat) (v : Word) (x : Conc) : (s.wr p o v).conc x = s.conc x := by cases x <;> simp [State.conc]
@[simp] theorem State.wr_um (s : State) (p o : Nat) (v : Word) (x : Um) : (s.wr p o v).um x = s.um x := by cases x <;> simp [State.um]
@[simp] theorem State.wr_port (s : State) (p o : Nat) (v : Word) (x : Fin 16) (y : Conc) : (s.wr p o v).port x y = s.port x y := by simp [State.port]
@[simp] theorem State.wr_rx (s : State) (p o : Nat) (v : Word) (x : Conc) (y : Fin 16) : (s.wr p o v).rx x y = s.rx x y := by simp [State.rx]

/-! The register operations touch the register file, the values in force and the event queue, nothing else. -/

/-- Nothing but the register file, the values in force and the event queue differs. -/
def State.RegsOnly (s t : State) : Prop := t = { s with regs := t.regs, stale := t.stale, eventQ := t.eventQ }

theorem State.RegsOnly.refl (s : State) : s.RegsOnly s := rfl
theorem State.RegsOnly.trans {s t u : State} (h : s.RegsOnly t) (k : t.RegsOnly u) : s.RegsOnly u := by
  unfold State.RegsOnly at *
  rw [k, h]
theorem State.RegsOnly.ite {s t u : State} {c : Prop} [Decidable c] (h : s.RegsOnly t) (k : s.RegsOnly u) :
    s.RegsOnly (if c then t else u) := by split <;> assumption
theorem State.RegsOnly.now {s t : State} (h : s.RegsOnly t) : t.now = s.now := by rw [h]
theorem State.RegsOnly.frame {s t : State} (h : s.RegsOnly t) : t.frame = s.frame := by rw [h]
theorem State.RegsOnly.running {s t : State} (h : s.RegsOnly t) : t.running = s.running := by rw [h]
theorem State.RegsOnly.pendW {s t : State} (h : s.RegsOnly t) : t.pendW = s.pendW := by rw [h]
theorem State.RegsOnly.chans {s t : State} (h : s.RegsOnly t) : t.chans = s.chans := by rw [h]
theorem State.RegsOnly.tiles {s t : State} (h : s.RegsOnly t) : t.tiles = s.tiles := by rw [h]
theorem State.RegsOnly.tac {s t : State} (h : s.RegsOnly t) : t.tac = s.tac := by rw [h]
theorem State.RegsOnly.tacStaged {s t : State} (h : s.RegsOnly t) : t.tacStaged = s.tacStaged := by rw [h]
theorem State.RegsOnly.tacPoison {s t : State} (h : s.RegsOnly t) : t.tacPoison = s.tacPoison := by rw [h]
theorem State.RegsOnly.rwsStaged {s t : State} (h : s.RegsOnly t) : t.rwsStaged = s.rwsStaged := by rw [h]
theorem State.RegsOnly.concA {s t : State} (h : s.RegsOnly t) : t.concA = s.concA := by rw [h]
theorem State.RegsOnly.concB {s t : State} (h : s.RegsOnly t) : t.concB = s.concB := by rw [h]
theorem State.RegsOnly.frames {s t : State} (h : s.RegsOnly t) : t.frames = s.frames := by rw [h]
theorem State.RegsOnly.trig {s t : State} (h : s.RegsOnly t) : t.trig = s.trig := by rw [h]
theorem State.RegsOnly.time {s t : State} (h : s.RegsOnly t) : t.time = s.time := by rw [h]
theorem State.RegsOnly.lastCorr {s t : State} (h : s.RegsOnly t) : t.lastCorr = s.lastCorr := by rw [h]
theorem State.RegsOnly.scrubs {s t : State} (h : s.RegsOnly t) : t.scrubs = s.scrubs := by rw [h]
theorem State.RegsOnly.writeBacks {s t : State} (h : s.RegsOnly t) : t.writeBacks = s.writeBacks := by rw [h]
theorem State.RegsOnly.integ {s t : State} (h : s.RegsOnly t) : t.integ = s.integ := by rw [h]
theorem State.RegsOnly.stick {s t : State} (h : s.RegsOnly t) : t.stick = s.stick := by rw [h]
theorem State.RegsOnly.cal {s t : State} (h : s.RegsOnly t) : t.cal = s.cal := by rw [h]
theorem State.RegsOnly.mon {s t : State} (h : s.RegsOnly t) : t.mon = s.mon := by rw [h]
theorem State.RegsOnly.fwu {s t : State} (h : s.RegsOnly t) : t.fwu = s.fwu := by rw [h]
theorem State.RegsOnly.pow {s t : State} (h : s.RegsOnly t) : t.pow = s.pow := by rw [h]
theorem State.RegsOnly.tap {s t : State} (h : s.RegsOnly t) : t.tap = s.tap := by rw [h]
theorem State.RegsOnly.um0 {s t : State} (h : s.RegsOnly t) : t.um0 = s.um0 := by rw [h]
theorem State.RegsOnly.um1 {s t : State} (h : s.RegsOnly t) : t.um1 = s.um1 := by rw [h]
theorem State.RegsOnly.peal {s t : State} (h : s.RegsOnly t) : t.peal = s.peal := by rw [h]
theorem State.RegsOnly.mixedFrom {s t : State} (h : s.RegsOnly t) : t.mixedFrom = s.mixedFrom := by rw [h]
theorem State.RegsOnly.unlocks {s t : State} (h : s.RegsOnly t) : t.unlocks = s.unlocks := by rw [h]
theorem State.RegsOnly.journal {s t : State} (h : s.RegsOnly t) : t.journal = s.journal := by rw [h]
theorem State.RegsOnly.saved {s t : State} (h : s.RegsOnly t) : t.saved = s.saved := by rw [h]
theorem State.RegsOnly.savedStaged {s t : State} (h : s.RegsOnly t) : t.savedStaged = s.savedStaged := by rw [h]
theorem State.RegsOnly.savedTac {s t : State} (h : s.RegsOnly t) : t.savedTac = s.savedTac := by rw [h]
theorem State.RegsOnly.jseq {s t : State} (h : s.RegsOnly t) : t.jseq = s.jseq := by rw [h]
theorem State.RegsOnly.savedEpoch {s t : State} (h : s.RegsOnly t) : t.savedEpoch = s.savedEpoch := by rw [h]
theorem State.RegsOnly.savedCorr {s t : State} (h : s.RegsOnly t) : t.savedCorr = s.savedCorr := by rw [h]
theorem State.RegsOnly.mramCorr {s t : State} (h : s.RegsOnly t) : t.mramCorr = s.mramCorr := by rw [h]
theorem State.RegsOnly.mramTac {s t : State} (h : s.RegsOnly t) : t.mramTac = s.mramTac := by rw [h]
theorem State.RegsOnly.mramTap {s t : State} (h : s.RegsOnly t) : t.mramTap = s.mramTap := by rw [h]
theorem State.RegsOnly.freeCount {s t : State} (h : s.RegsOnly t) : t.freeCount = s.freeCount := by rw [h]
theorem State.RegsOnly.pending {s t : State} (h : s.RegsOnly t) : t.pending = s.pending := by rw [h]
theorem State.RegsOnly.chan {s t : State} (h : s.RegsOnly t) (x : Nat) : t.chan x = s.chan x := by rw [State.chan, h.chans]; rfl
theorem State.RegsOnly.tile {s t : State} (h : s.RegsOnly t) (x : Fin 16) : t.tile x = s.tile x := by rw [State.tile, h.tiles]; rfl
theorem State.RegsOnly.conc {s t : State} (h : s.RegsOnly t) (x : Conc) : t.conc x = s.conc x := by
  cases x
  · exact h.concA
  · exact h.concB
theorem State.RegsOnly.um {s t : State} (h : s.RegsOnly t) (x : Um) : t.um x = s.um x := by
  cases x
  · exact h.um0
  · exact h.um1
theorem State.RegsOnly.port {s t : State} (h : s.RegsOnly t) (x : Fin 16) (y : Conc) : t.port x y = s.port x y := by
  rw [State.port, h.tile]; rfl
theorem State.RegsOnly.rx {s t : State} (h : s.RegsOnly t) (x : Conc) (y : Fin 16) : t.rx x y = s.rx x y := by
  rw [State.rx, h.conc]; rfl

theorem State.regsOnly_wr (s : State) (p o : Nat) (v : Word) : s.RegsOnly (s.wr p o v) := by
  simp only [State.RegsOnly, State.wr]
theorem State.regsOnly_put (s : State) (p : Nat) (f : FieldRef) (v : Nat) : s.RegsOnly (s.put p f v) := by
  simp only [State.RegsOnly, State.put]
theorem State.regsOnly_putB (s : State) (p : Nat) (f : FieldRef) (b : Bool) : s.RegsOnly (s.putB p f b) :=
  State.regsOnly_put ..
theorem State.regsOnly_overflow (s : State) (p k : Nat) : s.RegsOnly (s.overflow p k) := State.regsOnly_wr ..
theorem State.regsOnly_bump (s : State) (p : Nat) (f : FieldRef) (k n : Nat) : s.RegsOnly (s.bump p f k n) :=
  .ite (State.regsOnly_put ..) ((State.regsOnly_put ..).trans (State.regsOnly_overflow ..))
theorem State.regsOnly_bump64 (s : State) (p : Nat) (f g : FieldRef) (k n : Nat) : s.RegsOnly (s.bump64 p f g k n) :=
  .ite ((State.regsOnly_put ..).trans (State.regsOnly_put ..))
    (((State.regsOnly_put ..).trans (State.regsOnly_put ..)).trans (State.regsOnly_overflow ..))
theorem State.regsOnly_bumpWrap (s : State) (p : Nat) (f : FieldRef) (n : Nat) : s.RegsOnly (s.bumpWrap p f n) :=
  State.regsOnly_put ..
theorem State.regsOnly_peak (s : State) (p : Nat) (f : FieldRef) (n : Nat) : s.RegsOnly (s.peak p f n) :=
  .ite (State.regsOnly_put ..) (.refl s)
theorem State.regsOnly_queueEvent (s : State) (p : Nat) : s.RegsOnly (s.queueEvent p) := by
  unfold State.queueEvent
  refine .ite ?_ (.refl s)
  simp only [State.RegsOnly]
theorem State.regsOnly_event (s : State) (p k : Nat) : s.RegsOnly (s.event p k) :=
  .ite (.refl s) (.ite ((State.regsOnly_wr ..).trans (State.regsOnly_queueEvent ..)) (State.regsOnly_wr ..))
theorem State.regsOnly_eventIf (s : State) (c : Bool) (p k : Nat) : s.RegsOnly (s.eventIf c p k) :=
  .ite (State.regsOnly_event ..) (.refl s)


/-! `put` -/

@[simp] theorem State.put_now (s : State) (p : Nat) (f : FieldRef) (v : Nat) : (s.put p f v).now = s.now := (State.regsOnly_put s p f v).now
@[simp] theorem State.put_frame (s : State) (p : Nat) (f : FieldRef) (v : Nat) : (s.put p f v).frame = s.frame := (State.regsOnly_put s p f v).frame
@[simp] theorem State.put_running (s : State) (p : Nat) (f : FieldRef) (v : Nat) : (s.put p f v).running = s.running := (State.regsOnly_put s p f v).running
@[simp] theorem State.put_pendW (s : State) (p : Nat) (f : FieldRef) (v : Nat) : (s.put p f v).pendW = s.pendW := (State.regsOnly_put s p f v).pendW
@[simp] theorem State.put_chans (s : State) (p : Nat) (f : FieldRef) (v : Nat) : (s.put p f v).chans = s.chans := (State.regsOnly_put s p f v).chans
@[simp] theorem State.put_tiles (s : State) (p : Nat) (f : FieldRef) (v : Nat) : (s.put p f v).tiles = s.tiles := (State.regsOnly_put s p f v).tiles
@[simp] theorem State.put_tac (s : State) (p : Nat) (f : FieldRef) (v : Nat) : (s.put p f v).tac = s.tac := (State.regsOnly_put s p f v).tac
@[simp] theorem State.put_tacStaged (s : State) (p : Nat) (f : FieldRef) (v : Nat) : (s.put p f v).tacStaged = s.tacStaged := (State.regsOnly_put s p f v).tacStaged
@[simp] theorem State.put_tacPoison (s : State) (p : Nat) (f : FieldRef) (v : Nat) : (s.put p f v).tacPoison = s.tacPoison := (State.regsOnly_put s p f v).tacPoison
@[simp] theorem State.put_rwsStaged (s : State) (p : Nat) (f : FieldRef) (v : Nat) : (s.put p f v).rwsStaged = s.rwsStaged := (State.regsOnly_put s p f v).rwsStaged
@[simp] theorem State.put_concA (s : State) (p : Nat) (f : FieldRef) (v : Nat) : (s.put p f v).concA = s.concA := (State.regsOnly_put s p f v).concA
@[simp] theorem State.put_concB (s : State) (p : Nat) (f : FieldRef) (v : Nat) : (s.put p f v).concB = s.concB := (State.regsOnly_put s p f v).concB
@[simp] theorem State.put_frames (s : State) (p : Nat) (f : FieldRef) (v : Nat) : (s.put p f v).frames = s.frames := (State.regsOnly_put s p f v).frames
@[simp] theorem State.put_trig (s : State) (p : Nat) (f : FieldRef) (v : Nat) : (s.put p f v).trig = s.trig := (State.regsOnly_put s p f v).trig
@[simp] theorem State.put_time (s : State) (p : Nat) (f : FieldRef) (v : Nat) : (s.put p f v).time = s.time := (State.regsOnly_put s p f v).time
@[simp] theorem State.put_lastCorr (s : State) (p : Nat) (f : FieldRef) (v : Nat) : (s.put p f v).lastCorr = s.lastCorr := (State.regsOnly_put s p f v).lastCorr
@[simp] theorem State.put_scrubs (s : State) (p : Nat) (f : FieldRef) (v : Nat) : (s.put p f v).scrubs = s.scrubs := (State.regsOnly_put s p f v).scrubs
@[simp] theorem State.put_writeBacks (s : State) (p : Nat) (f : FieldRef) (v : Nat) : (s.put p f v).writeBacks = s.writeBacks := (State.regsOnly_put s p f v).writeBacks
@[simp] theorem State.put_integ (s : State) (p : Nat) (f : FieldRef) (v : Nat) : (s.put p f v).integ = s.integ := (State.regsOnly_put s p f v).integ
@[simp] theorem State.put_stick (s : State) (p : Nat) (f : FieldRef) (v : Nat) : (s.put p f v).stick = s.stick := (State.regsOnly_put s p f v).stick
@[simp] theorem State.put_cal (s : State) (p : Nat) (f : FieldRef) (v : Nat) : (s.put p f v).cal = s.cal := (State.regsOnly_put s p f v).cal
@[simp] theorem State.put_mon (s : State) (p : Nat) (f : FieldRef) (v : Nat) : (s.put p f v).mon = s.mon := (State.regsOnly_put s p f v).mon
@[simp] theorem State.put_fwu (s : State) (p : Nat) (f : FieldRef) (v : Nat) : (s.put p f v).fwu = s.fwu := (State.regsOnly_put s p f v).fwu
@[simp] theorem State.put_pow (s : State) (p : Nat) (f : FieldRef) (v : Nat) : (s.put p f v).pow = s.pow := (State.regsOnly_put s p f v).pow
@[simp] theorem State.put_tap (s : State) (p : Nat) (f : FieldRef) (v : Nat) : (s.put p f v).tap = s.tap := (State.regsOnly_put s p f v).tap
@[simp] theorem State.put_um0 (s : State) (p : Nat) (f : FieldRef) (v : Nat) : (s.put p f v).um0 = s.um0 := (State.regsOnly_put s p f v).um0
@[simp] theorem State.put_um1 (s : State) (p : Nat) (f : FieldRef) (v : Nat) : (s.put p f v).um1 = s.um1 := (State.regsOnly_put s p f v).um1
@[simp] theorem State.put_peal (s : State) (p : Nat) (f : FieldRef) (v : Nat) : (s.put p f v).peal = s.peal := (State.regsOnly_put s p f v).peal
@[simp] theorem State.put_mixedFrom (s : State) (p : Nat) (f : FieldRef) (v : Nat) : (s.put p f v).mixedFrom = s.mixedFrom := (State.regsOnly_put s p f v).mixedFrom
@[simp] theorem State.put_unlocks (s : State) (p : Nat) (f : FieldRef) (v : Nat) : (s.put p f v).unlocks = s.unlocks := (State.regsOnly_put s p f v).unlocks
@[simp] theorem State.put_journal (s : State) (p : Nat) (f : FieldRef) (v : Nat) : (s.put p f v).journal = s.journal := (State.regsOnly_put s p f v).journal
@[simp] theorem State.put_saved (s : State) (p : Nat) (f : FieldRef) (v : Nat) : (s.put p f v).saved = s.saved := (State.regsOnly_put s p f v).saved
@[simp] theorem State.put_savedStaged (s : State) (p : Nat) (f : FieldRef) (v : Nat) : (s.put p f v).savedStaged = s.savedStaged := (State.regsOnly_put s p f v).savedStaged
@[simp] theorem State.put_savedTac (s : State) (p : Nat) (f : FieldRef) (v : Nat) : (s.put p f v).savedTac = s.savedTac := (State.regsOnly_put s p f v).savedTac
@[simp] theorem State.put_jseq (s : State) (p : Nat) (f : FieldRef) (v : Nat) : (s.put p f v).jseq = s.jseq := (State.regsOnly_put s p f v).jseq
@[simp] theorem State.put_savedEpoch (s : State) (p : Nat) (f : FieldRef) (v : Nat) : (s.put p f v).savedEpoch = s.savedEpoch := (State.regsOnly_put s p f v).savedEpoch
@[simp] theorem State.put_savedCorr (s : State) (p : Nat) (f : FieldRef) (v : Nat) : (s.put p f v).savedCorr = s.savedCorr := (State.regsOnly_put s p f v).savedCorr
@[simp] theorem State.put_mramCorr (s : State) (p : Nat) (f : FieldRef) (v : Nat) : (s.put p f v).mramCorr = s.mramCorr := (State.regsOnly_put s p f v).mramCorr
@[simp] theorem State.put_mramTac (s : State) (p : Nat) (f : FieldRef) (v : Nat) : (s.put p f v).mramTac = s.mramTac := (State.regsOnly_put s p f v).mramTac
@[simp] theorem State.put_mramTap (s : State) (p : Nat) (f : FieldRef) (v : Nat) : (s.put p f v).mramTap = s.mramTap := (State.regsOnly_put s p f v).mramTap
@[simp] theorem State.put_freeCount (s : State) (p : Nat) (f : FieldRef) (v : Nat) : (s.put p f v).freeCount = s.freeCount := (State.regsOnly_put s p f v).freeCount
@[simp] theorem State.put_pending (s : State) (p : Nat) (f : FieldRef) (v : Nat) : (s.put p f v).pending = s.pending := (State.regsOnly_put s p f v).pending
@[simp] theorem State.put_chan (s : State) (p : Nat) (f : FieldRef) (v : Nat) (x : Nat) : (s.put p f v).chan x = s.chan x := (State.regsOnly_put s p f v).chan x
@[simp] theorem State.put_tile (s : State) (p : Nat) (f : FieldRef) (v : Nat) (x : Fin 16) : (s.put p f v).tile x = s.tile x := (State.regsOnly_put s p f v).tile x
@[simp] theorem State.put_conc (s : State) (p : Nat) (f : FieldRef) (v : Nat) (x : Conc) : (s.put p f v).conc x = s.conc x := (State.regsOnly_put s p f v).conc x
@[simp] theorem State.put_um (s : State) (p : Nat) (f : FieldRef) (v : Nat) (x : Um) : (s.put p f v).um x = s.um x := (State.regsOnly_put s p f v).um x
@[simp] theorem State.put_port (s : State) (p : Nat) (f : FieldRef) (v : Nat) (x : Fin 16) (y : Conc) : (s.put p f v).port x y = s.port x y := (State.regsOnly_put s p f v).port x y
@[simp] theorem State.put_rx (s : State) (p : Nat) (f : FieldRef) (v : Nat) (x : Conc) (y : Fin 16) : (s.put p f v).rx x y = s.rx x y := (State.regsOnly_put s p f v).rx x y

/-! `putB` -/

@[simp] theorem State.putB_now (s : State) (p : Nat) (f : FieldRef) (b : Bool) : (s.putB p f b).now = s.now := (State.regsOnly_putB s p f b).now
@[simp] theorem State.putB_frame (s : State) (p : Nat) (f : FieldRef) (b : Bool) : (s.putB p f b).frame = s.frame := (State.regsOnly_putB s p f b).frame
@[simp] theorem State.putB_running (s : State) (p : Nat) (f : FieldRef) (b : Bool) : (s.putB p f b).running = s.running := (State.regsOnly_putB s p f b).running
@[simp] theorem State.putB_pendW (s : State) (p : Nat) (f : FieldRef) (b : Bool) : (s.putB p f b).pendW = s.pendW := (State.regsOnly_putB s p f b).pendW
@[simp] theorem State.putB_chans (s : State) (p : Nat) (f : FieldRef) (b : Bool) : (s.putB p f b).chans = s.chans := (State.regsOnly_putB s p f b).chans
@[simp] theorem State.putB_tiles (s : State) (p : Nat) (f : FieldRef) (b : Bool) : (s.putB p f b).tiles = s.tiles := (State.regsOnly_putB s p f b).tiles
@[simp] theorem State.putB_tac (s : State) (p : Nat) (f : FieldRef) (b : Bool) : (s.putB p f b).tac = s.tac := (State.regsOnly_putB s p f b).tac
@[simp] theorem State.putB_tacStaged (s : State) (p : Nat) (f : FieldRef) (b : Bool) : (s.putB p f b).tacStaged = s.tacStaged := (State.regsOnly_putB s p f b).tacStaged
@[simp] theorem State.putB_tacPoison (s : State) (p : Nat) (f : FieldRef) (b : Bool) : (s.putB p f b).tacPoison = s.tacPoison := (State.regsOnly_putB s p f b).tacPoison
@[simp] theorem State.putB_rwsStaged (s : State) (p : Nat) (f : FieldRef) (b : Bool) : (s.putB p f b).rwsStaged = s.rwsStaged := (State.regsOnly_putB s p f b).rwsStaged
@[simp] theorem State.putB_concA (s : State) (p : Nat) (f : FieldRef) (b : Bool) : (s.putB p f b).concA = s.concA := (State.regsOnly_putB s p f b).concA
@[simp] theorem State.putB_concB (s : State) (p : Nat) (f : FieldRef) (b : Bool) : (s.putB p f b).concB = s.concB := (State.regsOnly_putB s p f b).concB
@[simp] theorem State.putB_frames (s : State) (p : Nat) (f : FieldRef) (b : Bool) : (s.putB p f b).frames = s.frames := (State.regsOnly_putB s p f b).frames
@[simp] theorem State.putB_trig (s : State) (p : Nat) (f : FieldRef) (b : Bool) : (s.putB p f b).trig = s.trig := (State.regsOnly_putB s p f b).trig
@[simp] theorem State.putB_time (s : State) (p : Nat) (f : FieldRef) (b : Bool) : (s.putB p f b).time = s.time := (State.regsOnly_putB s p f b).time
@[simp] theorem State.putB_lastCorr (s : State) (p : Nat) (f : FieldRef) (b : Bool) : (s.putB p f b).lastCorr = s.lastCorr := (State.regsOnly_putB s p f b).lastCorr
@[simp] theorem State.putB_scrubs (s : State) (p : Nat) (f : FieldRef) (b : Bool) : (s.putB p f b).scrubs = s.scrubs := (State.regsOnly_putB s p f b).scrubs
@[simp] theorem State.putB_writeBacks (s : State) (p : Nat) (f : FieldRef) (b : Bool) : (s.putB p f b).writeBacks = s.writeBacks := (State.regsOnly_putB s p f b).writeBacks
@[simp] theorem State.putB_integ (s : State) (p : Nat) (f : FieldRef) (b : Bool) : (s.putB p f b).integ = s.integ := (State.regsOnly_putB s p f b).integ
@[simp] theorem State.putB_stick (s : State) (p : Nat) (f : FieldRef) (b : Bool) : (s.putB p f b).stick = s.stick := (State.regsOnly_putB s p f b).stick
@[simp] theorem State.putB_cal (s : State) (p : Nat) (f : FieldRef) (b : Bool) : (s.putB p f b).cal = s.cal := (State.regsOnly_putB s p f b).cal
@[simp] theorem State.putB_mon (s : State) (p : Nat) (f : FieldRef) (b : Bool) : (s.putB p f b).mon = s.mon := (State.regsOnly_putB s p f b).mon
@[simp] theorem State.putB_fwu (s : State) (p : Nat) (f : FieldRef) (b : Bool) : (s.putB p f b).fwu = s.fwu := (State.regsOnly_putB s p f b).fwu
@[simp] theorem State.putB_pow (s : State) (p : Nat) (f : FieldRef) (b : Bool) : (s.putB p f b).pow = s.pow := (State.regsOnly_putB s p f b).pow
@[simp] theorem State.putB_tap (s : State) (p : Nat) (f : FieldRef) (b : Bool) : (s.putB p f b).tap = s.tap := (State.regsOnly_putB s p f b).tap
@[simp] theorem State.putB_um0 (s : State) (p : Nat) (f : FieldRef) (b : Bool) : (s.putB p f b).um0 = s.um0 := (State.regsOnly_putB s p f b).um0
@[simp] theorem State.putB_um1 (s : State) (p : Nat) (f : FieldRef) (b : Bool) : (s.putB p f b).um1 = s.um1 := (State.regsOnly_putB s p f b).um1
@[simp] theorem State.putB_peal (s : State) (p : Nat) (f : FieldRef) (b : Bool) : (s.putB p f b).peal = s.peal := (State.regsOnly_putB s p f b).peal
@[simp] theorem State.putB_mixedFrom (s : State) (p : Nat) (f : FieldRef) (b : Bool) : (s.putB p f b).mixedFrom = s.mixedFrom := (State.regsOnly_putB s p f b).mixedFrom
@[simp] theorem State.putB_unlocks (s : State) (p : Nat) (f : FieldRef) (b : Bool) : (s.putB p f b).unlocks = s.unlocks := (State.regsOnly_putB s p f b).unlocks
@[simp] theorem State.putB_journal (s : State) (p : Nat) (f : FieldRef) (b : Bool) : (s.putB p f b).journal = s.journal := (State.regsOnly_putB s p f b).journal
@[simp] theorem State.putB_saved (s : State) (p : Nat) (f : FieldRef) (b : Bool) : (s.putB p f b).saved = s.saved := (State.regsOnly_putB s p f b).saved
@[simp] theorem State.putB_savedStaged (s : State) (p : Nat) (f : FieldRef) (b : Bool) : (s.putB p f b).savedStaged = s.savedStaged := (State.regsOnly_putB s p f b).savedStaged
@[simp] theorem State.putB_savedTac (s : State) (p : Nat) (f : FieldRef) (b : Bool) : (s.putB p f b).savedTac = s.savedTac := (State.regsOnly_putB s p f b).savedTac
@[simp] theorem State.putB_jseq (s : State) (p : Nat) (f : FieldRef) (b : Bool) : (s.putB p f b).jseq = s.jseq := (State.regsOnly_putB s p f b).jseq
@[simp] theorem State.putB_savedEpoch (s : State) (p : Nat) (f : FieldRef) (b : Bool) : (s.putB p f b).savedEpoch = s.savedEpoch := (State.regsOnly_putB s p f b).savedEpoch
@[simp] theorem State.putB_savedCorr (s : State) (p : Nat) (f : FieldRef) (b : Bool) : (s.putB p f b).savedCorr = s.savedCorr := (State.regsOnly_putB s p f b).savedCorr
@[simp] theorem State.putB_mramCorr (s : State) (p : Nat) (f : FieldRef) (b : Bool) : (s.putB p f b).mramCorr = s.mramCorr := (State.regsOnly_putB s p f b).mramCorr
@[simp] theorem State.putB_mramTac (s : State) (p : Nat) (f : FieldRef) (b : Bool) : (s.putB p f b).mramTac = s.mramTac := (State.regsOnly_putB s p f b).mramTac
@[simp] theorem State.putB_mramTap (s : State) (p : Nat) (f : FieldRef) (b : Bool) : (s.putB p f b).mramTap = s.mramTap := (State.regsOnly_putB s p f b).mramTap
@[simp] theorem State.putB_freeCount (s : State) (p : Nat) (f : FieldRef) (b : Bool) : (s.putB p f b).freeCount = s.freeCount := (State.regsOnly_putB s p f b).freeCount
@[simp] theorem State.putB_pending (s : State) (p : Nat) (f : FieldRef) (b : Bool) : (s.putB p f b).pending = s.pending := (State.regsOnly_putB s p f b).pending
@[simp] theorem State.putB_chan (s : State) (p : Nat) (f : FieldRef) (b : Bool) (x : Nat) : (s.putB p f b).chan x = s.chan x := (State.regsOnly_putB s p f b).chan x
@[simp] theorem State.putB_tile (s : State) (p : Nat) (f : FieldRef) (b : Bool) (x : Fin 16) : (s.putB p f b).tile x = s.tile x := (State.regsOnly_putB s p f b).tile x
@[simp] theorem State.putB_conc (s : State) (p : Nat) (f : FieldRef) (b : Bool) (x : Conc) : (s.putB p f b).conc x = s.conc x := (State.regsOnly_putB s p f b).conc x
@[simp] theorem State.putB_um (s : State) (p : Nat) (f : FieldRef) (b : Bool) (x : Um) : (s.putB p f b).um x = s.um x := (State.regsOnly_putB s p f b).um x
@[simp] theorem State.putB_port (s : State) (p : Nat) (f : FieldRef) (b : Bool) (x : Fin 16) (y : Conc) : (s.putB p f b).port x y = s.port x y := (State.regsOnly_putB s p f b).port x y
@[simp] theorem State.putB_rx (s : State) (p : Nat) (f : FieldRef) (b : Bool) (x : Conc) (y : Fin 16) : (s.putB p f b).rx x y = s.rx x y := (State.regsOnly_putB s p f b).rx x y

/-! `overflow` -/

@[simp] theorem State.overflow_now (s : State) (p k : Nat) : (s.overflow p k).now = s.now := (State.regsOnly_overflow s p k).now
@[simp] theorem State.overflow_frame (s : State) (p k : Nat) : (s.overflow p k).frame = s.frame := (State.regsOnly_overflow s p k).frame
@[simp] theorem State.overflow_running (s : State) (p k : Nat) : (s.overflow p k).running = s.running := (State.regsOnly_overflow s p k).running
@[simp] theorem State.overflow_pendW (s : State) (p k : Nat) : (s.overflow p k).pendW = s.pendW := (State.regsOnly_overflow s p k).pendW
@[simp] theorem State.overflow_chans (s : State) (p k : Nat) : (s.overflow p k).chans = s.chans := (State.regsOnly_overflow s p k).chans
@[simp] theorem State.overflow_tiles (s : State) (p k : Nat) : (s.overflow p k).tiles = s.tiles := (State.regsOnly_overflow s p k).tiles
@[simp] theorem State.overflow_tac (s : State) (p k : Nat) : (s.overflow p k).tac = s.tac := (State.regsOnly_overflow s p k).tac
@[simp] theorem State.overflow_tacStaged (s : State) (p k : Nat) : (s.overflow p k).tacStaged = s.tacStaged := (State.regsOnly_overflow s p k).tacStaged
@[simp] theorem State.overflow_tacPoison (s : State) (p k : Nat) : (s.overflow p k).tacPoison = s.tacPoison := (State.regsOnly_overflow s p k).tacPoison
@[simp] theorem State.overflow_rwsStaged (s : State) (p k : Nat) : (s.overflow p k).rwsStaged = s.rwsStaged := (State.regsOnly_overflow s p k).rwsStaged
@[simp] theorem State.overflow_concA (s : State) (p k : Nat) : (s.overflow p k).concA = s.concA := (State.regsOnly_overflow s p k).concA
@[simp] theorem State.overflow_concB (s : State) (p k : Nat) : (s.overflow p k).concB = s.concB := (State.regsOnly_overflow s p k).concB
@[simp] theorem State.overflow_frames (s : State) (p k : Nat) : (s.overflow p k).frames = s.frames := (State.regsOnly_overflow s p k).frames
@[simp] theorem State.overflow_trig (s : State) (p k : Nat) : (s.overflow p k).trig = s.trig := (State.regsOnly_overflow s p k).trig
@[simp] theorem State.overflow_time (s : State) (p k : Nat) : (s.overflow p k).time = s.time := (State.regsOnly_overflow s p k).time
@[simp] theorem State.overflow_lastCorr (s : State) (p k : Nat) : (s.overflow p k).lastCorr = s.lastCorr := (State.regsOnly_overflow s p k).lastCorr
@[simp] theorem State.overflow_scrubs (s : State) (p k : Nat) : (s.overflow p k).scrubs = s.scrubs := (State.regsOnly_overflow s p k).scrubs
@[simp] theorem State.overflow_writeBacks (s : State) (p k : Nat) : (s.overflow p k).writeBacks = s.writeBacks := (State.regsOnly_overflow s p k).writeBacks
@[simp] theorem State.overflow_integ (s : State) (p k : Nat) : (s.overflow p k).integ = s.integ := (State.regsOnly_overflow s p k).integ
@[simp] theorem State.overflow_stick (s : State) (p k : Nat) : (s.overflow p k).stick = s.stick := (State.regsOnly_overflow s p k).stick
@[simp] theorem State.overflow_cal (s : State) (p k : Nat) : (s.overflow p k).cal = s.cal := (State.regsOnly_overflow s p k).cal
@[simp] theorem State.overflow_mon (s : State) (p k : Nat) : (s.overflow p k).mon = s.mon := (State.regsOnly_overflow s p k).mon
@[simp] theorem State.overflow_fwu (s : State) (p k : Nat) : (s.overflow p k).fwu = s.fwu := (State.regsOnly_overflow s p k).fwu
@[simp] theorem State.overflow_pow (s : State) (p k : Nat) : (s.overflow p k).pow = s.pow := (State.regsOnly_overflow s p k).pow
@[simp] theorem State.overflow_tap (s : State) (p k : Nat) : (s.overflow p k).tap = s.tap := (State.regsOnly_overflow s p k).tap
@[simp] theorem State.overflow_um0 (s : State) (p k : Nat) : (s.overflow p k).um0 = s.um0 := (State.regsOnly_overflow s p k).um0
@[simp] theorem State.overflow_um1 (s : State) (p k : Nat) : (s.overflow p k).um1 = s.um1 := (State.regsOnly_overflow s p k).um1
@[simp] theorem State.overflow_peal (s : State) (p k : Nat) : (s.overflow p k).peal = s.peal := (State.regsOnly_overflow s p k).peal
@[simp] theorem State.overflow_mixedFrom (s : State) (p k : Nat) : (s.overflow p k).mixedFrom = s.mixedFrom := (State.regsOnly_overflow s p k).mixedFrom
@[simp] theorem State.overflow_unlocks (s : State) (p k : Nat) : (s.overflow p k).unlocks = s.unlocks := (State.regsOnly_overflow s p k).unlocks
@[simp] theorem State.overflow_journal (s : State) (p k : Nat) : (s.overflow p k).journal = s.journal := (State.regsOnly_overflow s p k).journal
@[simp] theorem State.overflow_saved (s : State) (p k : Nat) : (s.overflow p k).saved = s.saved := (State.regsOnly_overflow s p k).saved
@[simp] theorem State.overflow_savedStaged (s : State) (p k : Nat) : (s.overflow p k).savedStaged = s.savedStaged := (State.regsOnly_overflow s p k).savedStaged
@[simp] theorem State.overflow_savedTac (s : State) (p k : Nat) : (s.overflow p k).savedTac = s.savedTac := (State.regsOnly_overflow s p k).savedTac
@[simp] theorem State.overflow_jseq (s : State) (p k : Nat) : (s.overflow p k).jseq = s.jseq := (State.regsOnly_overflow s p k).jseq
@[simp] theorem State.overflow_savedEpoch (s : State) (p k : Nat) : (s.overflow p k).savedEpoch = s.savedEpoch := (State.regsOnly_overflow s p k).savedEpoch
@[simp] theorem State.overflow_savedCorr (s : State) (p k : Nat) : (s.overflow p k).savedCorr = s.savedCorr := (State.regsOnly_overflow s p k).savedCorr
@[simp] theorem State.overflow_mramCorr (s : State) (p k : Nat) : (s.overflow p k).mramCorr = s.mramCorr := (State.regsOnly_overflow s p k).mramCorr
@[simp] theorem State.overflow_mramTac (s : State) (p k : Nat) : (s.overflow p k).mramTac = s.mramTac := (State.regsOnly_overflow s p k).mramTac
@[simp] theorem State.overflow_mramTap (s : State) (p k : Nat) : (s.overflow p k).mramTap = s.mramTap := (State.regsOnly_overflow s p k).mramTap
@[simp] theorem State.overflow_freeCount (s : State) (p k : Nat) : (s.overflow p k).freeCount = s.freeCount := (State.regsOnly_overflow s p k).freeCount
@[simp] theorem State.overflow_pending (s : State) (p k : Nat) : (s.overflow p k).pending = s.pending := (State.regsOnly_overflow s p k).pending
@[simp] theorem State.overflow_chan (s : State) (p k : Nat) (x : Nat) : (s.overflow p k).chan x = s.chan x := (State.regsOnly_overflow s p k).chan x
@[simp] theorem State.overflow_tile (s : State) (p k : Nat) (x : Fin 16) : (s.overflow p k).tile x = s.tile x := (State.regsOnly_overflow s p k).tile x
@[simp] theorem State.overflow_conc (s : State) (p k : Nat) (x : Conc) : (s.overflow p k).conc x = s.conc x := (State.regsOnly_overflow s p k).conc x
@[simp] theorem State.overflow_um (s : State) (p k : Nat) (x : Um) : (s.overflow p k).um x = s.um x := (State.regsOnly_overflow s p k).um x
@[simp] theorem State.overflow_port (s : State) (p k : Nat) (x : Fin 16) (y : Conc) : (s.overflow p k).port x y = s.port x y := (State.regsOnly_overflow s p k).port x y
@[simp] theorem State.overflow_rx (s : State) (p k : Nat) (x : Conc) (y : Fin 16) : (s.overflow p k).rx x y = s.rx x y := (State.regsOnly_overflow s p k).rx x y

/-! `bump` -/

@[simp] theorem State.bump_now (s : State) (p : Nat) (f : FieldRef) (k n : Nat) : (s.bump p f k n).now = s.now := (State.regsOnly_bump s p f k n).now
@[simp] theorem State.bump_frame (s : State) (p : Nat) (f : FieldRef) (k n : Nat) : (s.bump p f k n).frame = s.frame := (State.regsOnly_bump s p f k n).frame
@[simp] theorem State.bump_running (s : State) (p : Nat) (f : FieldRef) (k n : Nat) : (s.bump p f k n).running = s.running := (State.regsOnly_bump s p f k n).running
@[simp] theorem State.bump_pendW (s : State) (p : Nat) (f : FieldRef) (k n : Nat) : (s.bump p f k n).pendW = s.pendW := (State.regsOnly_bump s p f k n).pendW
@[simp] theorem State.bump_chans (s : State) (p : Nat) (f : FieldRef) (k n : Nat) : (s.bump p f k n).chans = s.chans := (State.regsOnly_bump s p f k n).chans
@[simp] theorem State.bump_tiles (s : State) (p : Nat) (f : FieldRef) (k n : Nat) : (s.bump p f k n).tiles = s.tiles := (State.regsOnly_bump s p f k n).tiles
@[simp] theorem State.bump_tac (s : State) (p : Nat) (f : FieldRef) (k n : Nat) : (s.bump p f k n).tac = s.tac := (State.regsOnly_bump s p f k n).tac
@[simp] theorem State.bump_tacStaged (s : State) (p : Nat) (f : FieldRef) (k n : Nat) : (s.bump p f k n).tacStaged = s.tacStaged := (State.regsOnly_bump s p f k n).tacStaged
@[simp] theorem State.bump_tacPoison (s : State) (p : Nat) (f : FieldRef) (k n : Nat) : (s.bump p f k n).tacPoison = s.tacPoison := (State.regsOnly_bump s p f k n).tacPoison
@[simp] theorem State.bump_rwsStaged (s : State) (p : Nat) (f : FieldRef) (k n : Nat) : (s.bump p f k n).rwsStaged = s.rwsStaged := (State.regsOnly_bump s p f k n).rwsStaged
@[simp] theorem State.bump_concA (s : State) (p : Nat) (f : FieldRef) (k n : Nat) : (s.bump p f k n).concA = s.concA := (State.regsOnly_bump s p f k n).concA
@[simp] theorem State.bump_concB (s : State) (p : Nat) (f : FieldRef) (k n : Nat) : (s.bump p f k n).concB = s.concB := (State.regsOnly_bump s p f k n).concB
@[simp] theorem State.bump_frames (s : State) (p : Nat) (f : FieldRef) (k n : Nat) : (s.bump p f k n).frames = s.frames := (State.regsOnly_bump s p f k n).frames
@[simp] theorem State.bump_trig (s : State) (p : Nat) (f : FieldRef) (k n : Nat) : (s.bump p f k n).trig = s.trig := (State.regsOnly_bump s p f k n).trig
@[simp] theorem State.bump_time (s : State) (p : Nat) (f : FieldRef) (k n : Nat) : (s.bump p f k n).time = s.time := (State.regsOnly_bump s p f k n).time
@[simp] theorem State.bump_lastCorr (s : State) (p : Nat) (f : FieldRef) (k n : Nat) : (s.bump p f k n).lastCorr = s.lastCorr := (State.regsOnly_bump s p f k n).lastCorr
@[simp] theorem State.bump_scrubs (s : State) (p : Nat) (f : FieldRef) (k n : Nat) : (s.bump p f k n).scrubs = s.scrubs := (State.regsOnly_bump s p f k n).scrubs
@[simp] theorem State.bump_writeBacks (s : State) (p : Nat) (f : FieldRef) (k n : Nat) : (s.bump p f k n).writeBacks = s.writeBacks := (State.regsOnly_bump s p f k n).writeBacks
@[simp] theorem State.bump_integ (s : State) (p : Nat) (f : FieldRef) (k n : Nat) : (s.bump p f k n).integ = s.integ := (State.regsOnly_bump s p f k n).integ
@[simp] theorem State.bump_stick (s : State) (p : Nat) (f : FieldRef) (k n : Nat) : (s.bump p f k n).stick = s.stick := (State.regsOnly_bump s p f k n).stick
@[simp] theorem State.bump_cal (s : State) (p : Nat) (f : FieldRef) (k n : Nat) : (s.bump p f k n).cal = s.cal := (State.regsOnly_bump s p f k n).cal
@[simp] theorem State.bump_mon (s : State) (p : Nat) (f : FieldRef) (k n : Nat) : (s.bump p f k n).mon = s.mon := (State.regsOnly_bump s p f k n).mon
@[simp] theorem State.bump_fwu (s : State) (p : Nat) (f : FieldRef) (k n : Nat) : (s.bump p f k n).fwu = s.fwu := (State.regsOnly_bump s p f k n).fwu
@[simp] theorem State.bump_pow (s : State) (p : Nat) (f : FieldRef) (k n : Nat) : (s.bump p f k n).pow = s.pow := (State.regsOnly_bump s p f k n).pow
@[simp] theorem State.bump_tap (s : State) (p : Nat) (f : FieldRef) (k n : Nat) : (s.bump p f k n).tap = s.tap := (State.regsOnly_bump s p f k n).tap
@[simp] theorem State.bump_um0 (s : State) (p : Nat) (f : FieldRef) (k n : Nat) : (s.bump p f k n).um0 = s.um0 := (State.regsOnly_bump s p f k n).um0
@[simp] theorem State.bump_um1 (s : State) (p : Nat) (f : FieldRef) (k n : Nat) : (s.bump p f k n).um1 = s.um1 := (State.regsOnly_bump s p f k n).um1
@[simp] theorem State.bump_peal (s : State) (p : Nat) (f : FieldRef) (k n : Nat) : (s.bump p f k n).peal = s.peal := (State.regsOnly_bump s p f k n).peal
@[simp] theorem State.bump_mixedFrom (s : State) (p : Nat) (f : FieldRef) (k n : Nat) : (s.bump p f k n).mixedFrom = s.mixedFrom := (State.regsOnly_bump s p f k n).mixedFrom
@[simp] theorem State.bump_unlocks (s : State) (p : Nat) (f : FieldRef) (k n : Nat) : (s.bump p f k n).unlocks = s.unlocks := (State.regsOnly_bump s p f k n).unlocks
@[simp] theorem State.bump_journal (s : State) (p : Nat) (f : FieldRef) (k n : Nat) : (s.bump p f k n).journal = s.journal := (State.regsOnly_bump s p f k n).journal
@[simp] theorem State.bump_saved (s : State) (p : Nat) (f : FieldRef) (k n : Nat) : (s.bump p f k n).saved = s.saved := (State.regsOnly_bump s p f k n).saved
@[simp] theorem State.bump_savedStaged (s : State) (p : Nat) (f : FieldRef) (k n : Nat) : (s.bump p f k n).savedStaged = s.savedStaged := (State.regsOnly_bump s p f k n).savedStaged
@[simp] theorem State.bump_savedTac (s : State) (p : Nat) (f : FieldRef) (k n : Nat) : (s.bump p f k n).savedTac = s.savedTac := (State.regsOnly_bump s p f k n).savedTac
@[simp] theorem State.bump_jseq (s : State) (p : Nat) (f : FieldRef) (k n : Nat) : (s.bump p f k n).jseq = s.jseq := (State.regsOnly_bump s p f k n).jseq
@[simp] theorem State.bump_savedEpoch (s : State) (p : Nat) (f : FieldRef) (k n : Nat) : (s.bump p f k n).savedEpoch = s.savedEpoch := (State.regsOnly_bump s p f k n).savedEpoch
@[simp] theorem State.bump_savedCorr (s : State) (p : Nat) (f : FieldRef) (k n : Nat) : (s.bump p f k n).savedCorr = s.savedCorr := (State.regsOnly_bump s p f k n).savedCorr
@[simp] theorem State.bump_mramCorr (s : State) (p : Nat) (f : FieldRef) (k n : Nat) : (s.bump p f k n).mramCorr = s.mramCorr := (State.regsOnly_bump s p f k n).mramCorr
@[simp] theorem State.bump_mramTac (s : State) (p : Nat) (f : FieldRef) (k n : Nat) : (s.bump p f k n).mramTac = s.mramTac := (State.regsOnly_bump s p f k n).mramTac
@[simp] theorem State.bump_mramTap (s : State) (p : Nat) (f : FieldRef) (k n : Nat) : (s.bump p f k n).mramTap = s.mramTap := (State.regsOnly_bump s p f k n).mramTap
@[simp] theorem State.bump_freeCount (s : State) (p : Nat) (f : FieldRef) (k n : Nat) : (s.bump p f k n).freeCount = s.freeCount := (State.regsOnly_bump s p f k n).freeCount
@[simp] theorem State.bump_pending (s : State) (p : Nat) (f : FieldRef) (k n : Nat) : (s.bump p f k n).pending = s.pending := (State.regsOnly_bump s p f k n).pending
@[simp] theorem State.bump_chan (s : State) (p : Nat) (f : FieldRef) (k n : Nat) (x : Nat) : (s.bump p f k n).chan x = s.chan x := (State.regsOnly_bump s p f k n).chan x
@[simp] theorem State.bump_tile (s : State) (p : Nat) (f : FieldRef) (k n : Nat) (x : Fin 16) : (s.bump p f k n).tile x = s.tile x := (State.regsOnly_bump s p f k n).tile x
@[simp] theorem State.bump_conc (s : State) (p : Nat) (f : FieldRef) (k n : Nat) (x : Conc) : (s.bump p f k n).conc x = s.conc x := (State.regsOnly_bump s p f k n).conc x
@[simp] theorem State.bump_um (s : State) (p : Nat) (f : FieldRef) (k n : Nat) (x : Um) : (s.bump p f k n).um x = s.um x := (State.regsOnly_bump s p f k n).um x
@[simp] theorem State.bump_port (s : State) (p : Nat) (f : FieldRef) (k n : Nat) (x : Fin 16) (y : Conc) : (s.bump p f k n).port x y = s.port x y := (State.regsOnly_bump s p f k n).port x y
@[simp] theorem State.bump_rx (s : State) (p : Nat) (f : FieldRef) (k n : Nat) (x : Conc) (y : Fin 16) : (s.bump p f k n).rx x y = s.rx x y := (State.regsOnly_bump s p f k n).rx x y

/-! `bump64` -/

@[simp] theorem State.bump64_now (s : State) (p : Nat) (f g : FieldRef) (k n : Nat) : (s.bump64 p f g k n).now = s.now := (State.regsOnly_bump64 s p f g k n).now
@[simp] theorem State.bump64_frame (s : State) (p : Nat) (f g : FieldRef) (k n : Nat) : (s.bump64 p f g k n).frame = s.frame := (State.regsOnly_bump64 s p f g k n).frame
@[simp] theorem State.bump64_running (s : State) (p : Nat) (f g : FieldRef) (k n : Nat) : (s.bump64 p f g k n).running = s.running := (State.regsOnly_bump64 s p f g k n).running
@[simp] theorem State.bump64_pendW (s : State) (p : Nat) (f g : FieldRef) (k n : Nat) : (s.bump64 p f g k n).pendW = s.pendW := (State.regsOnly_bump64 s p f g k n).pendW
@[simp] theorem State.bump64_chans (s : State) (p : Nat) (f g : FieldRef) (k n : Nat) : (s.bump64 p f g k n).chans = s.chans := (State.regsOnly_bump64 s p f g k n).chans
@[simp] theorem State.bump64_tiles (s : State) (p : Nat) (f g : FieldRef) (k n : Nat) : (s.bump64 p f g k n).tiles = s.tiles := (State.regsOnly_bump64 s p f g k n).tiles
@[simp] theorem State.bump64_tac (s : State) (p : Nat) (f g : FieldRef) (k n : Nat) : (s.bump64 p f g k n).tac = s.tac := (State.regsOnly_bump64 s p f g k n).tac
@[simp] theorem State.bump64_tacStaged (s : State) (p : Nat) (f g : FieldRef) (k n : Nat) : (s.bump64 p f g k n).tacStaged = s.tacStaged := (State.regsOnly_bump64 s p f g k n).tacStaged
@[simp] theorem State.bump64_tacPoison (s : State) (p : Nat) (f g : FieldRef) (k n : Nat) : (s.bump64 p f g k n).tacPoison = s.tacPoison := (State.regsOnly_bump64 s p f g k n).tacPoison
@[simp] theorem State.bump64_rwsStaged (s : State) (p : Nat) (f g : FieldRef) (k n : Nat) : (s.bump64 p f g k n).rwsStaged = s.rwsStaged := (State.regsOnly_bump64 s p f g k n).rwsStaged
@[simp] theorem State.bump64_concA (s : State) (p : Nat) (f g : FieldRef) (k n : Nat) : (s.bump64 p f g k n).concA = s.concA := (State.regsOnly_bump64 s p f g k n).concA
@[simp] theorem State.bump64_concB (s : State) (p : Nat) (f g : FieldRef) (k n : Nat) : (s.bump64 p f g k n).concB = s.concB := (State.regsOnly_bump64 s p f g k n).concB
@[simp] theorem State.bump64_frames (s : State) (p : Nat) (f g : FieldRef) (k n : Nat) : (s.bump64 p f g k n).frames = s.frames := (State.regsOnly_bump64 s p f g k n).frames
@[simp] theorem State.bump64_trig (s : State) (p : Nat) (f g : FieldRef) (k n : Nat) : (s.bump64 p f g k n).trig = s.trig := (State.regsOnly_bump64 s p f g k n).trig
@[simp] theorem State.bump64_time (s : State) (p : Nat) (f g : FieldRef) (k n : Nat) : (s.bump64 p f g k n).time = s.time := (State.regsOnly_bump64 s p f g k n).time
@[simp] theorem State.bump64_lastCorr (s : State) (p : Nat) (f g : FieldRef) (k n : Nat) : (s.bump64 p f g k n).lastCorr = s.lastCorr := (State.regsOnly_bump64 s p f g k n).lastCorr
@[simp] theorem State.bump64_scrubs (s : State) (p : Nat) (f g : FieldRef) (k n : Nat) : (s.bump64 p f g k n).scrubs = s.scrubs := (State.regsOnly_bump64 s p f g k n).scrubs
@[simp] theorem State.bump64_writeBacks (s : State) (p : Nat) (f g : FieldRef) (k n : Nat) : (s.bump64 p f g k n).writeBacks = s.writeBacks := (State.regsOnly_bump64 s p f g k n).writeBacks
@[simp] theorem State.bump64_integ (s : State) (p : Nat) (f g : FieldRef) (k n : Nat) : (s.bump64 p f g k n).integ = s.integ := (State.regsOnly_bump64 s p f g k n).integ
@[simp] theorem State.bump64_stick (s : State) (p : Nat) (f g : FieldRef) (k n : Nat) : (s.bump64 p f g k n).stick = s.stick := (State.regsOnly_bump64 s p f g k n).stick
@[simp] theorem State.bump64_cal (s : State) (p : Nat) (f g : FieldRef) (k n : Nat) : (s.bump64 p f g k n).cal = s.cal := (State.regsOnly_bump64 s p f g k n).cal
@[simp] theorem State.bump64_mon (s : State) (p : Nat) (f g : FieldRef) (k n : Nat) : (s.bump64 p f g k n).mon = s.mon := (State.regsOnly_bump64 s p f g k n).mon
@[simp] theorem State.bump64_fwu (s : State) (p : Nat) (f g : FieldRef) (k n : Nat) : (s.bump64 p f g k n).fwu = s.fwu := (State.regsOnly_bump64 s p f g k n).fwu
@[simp] theorem State.bump64_pow (s : State) (p : Nat) (f g : FieldRef) (k n : Nat) : (s.bump64 p f g k n).pow = s.pow := (State.regsOnly_bump64 s p f g k n).pow
@[simp] theorem State.bump64_tap (s : State) (p : Nat) (f g : FieldRef) (k n : Nat) : (s.bump64 p f g k n).tap = s.tap := (State.regsOnly_bump64 s p f g k n).tap
@[simp] theorem State.bump64_um0 (s : State) (p : Nat) (f g : FieldRef) (k n : Nat) : (s.bump64 p f g k n).um0 = s.um0 := (State.regsOnly_bump64 s p f g k n).um0
@[simp] theorem State.bump64_um1 (s : State) (p : Nat) (f g : FieldRef) (k n : Nat) : (s.bump64 p f g k n).um1 = s.um1 := (State.regsOnly_bump64 s p f g k n).um1
@[simp] theorem State.bump64_peal (s : State) (p : Nat) (f g : FieldRef) (k n : Nat) : (s.bump64 p f g k n).peal = s.peal := (State.regsOnly_bump64 s p f g k n).peal
@[simp] theorem State.bump64_mixedFrom (s : State) (p : Nat) (f g : FieldRef) (k n : Nat) : (s.bump64 p f g k n).mixedFrom = s.mixedFrom := (State.regsOnly_bump64 s p f g k n).mixedFrom
@[simp] theorem State.bump64_unlocks (s : State) (p : Nat) (f g : FieldRef) (k n : Nat) : (s.bump64 p f g k n).unlocks = s.unlocks := (State.regsOnly_bump64 s p f g k n).unlocks
@[simp] theorem State.bump64_journal (s : State) (p : Nat) (f g : FieldRef) (k n : Nat) : (s.bump64 p f g k n).journal = s.journal := (State.regsOnly_bump64 s p f g k n).journal
@[simp] theorem State.bump64_saved (s : State) (p : Nat) (f g : FieldRef) (k n : Nat) : (s.bump64 p f g k n).saved = s.saved := (State.regsOnly_bump64 s p f g k n).saved
@[simp] theorem State.bump64_savedStaged (s : State) (p : Nat) (f g : FieldRef) (k n : Nat) : (s.bump64 p f g k n).savedStaged = s.savedStaged := (State.regsOnly_bump64 s p f g k n).savedStaged
@[simp] theorem State.bump64_savedTac (s : State) (p : Nat) (f g : FieldRef) (k n : Nat) : (s.bump64 p f g k n).savedTac = s.savedTac := (State.regsOnly_bump64 s p f g k n).savedTac
@[simp] theorem State.bump64_jseq (s : State) (p : Nat) (f g : FieldRef) (k n : Nat) : (s.bump64 p f g k n).jseq = s.jseq := (State.regsOnly_bump64 s p f g k n).jseq
@[simp] theorem State.bump64_savedEpoch (s : State) (p : Nat) (f g : FieldRef) (k n : Nat) : (s.bump64 p f g k n).savedEpoch = s.savedEpoch := (State.regsOnly_bump64 s p f g k n).savedEpoch
@[simp] theorem State.bump64_savedCorr (s : State) (p : Nat) (f g : FieldRef) (k n : Nat) : (s.bump64 p f g k n).savedCorr = s.savedCorr := (State.regsOnly_bump64 s p f g k n).savedCorr
@[simp] theorem State.bump64_mramCorr (s : State) (p : Nat) (f g : FieldRef) (k n : Nat) : (s.bump64 p f g k n).mramCorr = s.mramCorr := (State.regsOnly_bump64 s p f g k n).mramCorr
@[simp] theorem State.bump64_mramTac (s : State) (p : Nat) (f g : FieldRef) (k n : Nat) : (s.bump64 p f g k n).mramTac = s.mramTac := (State.regsOnly_bump64 s p f g k n).mramTac
@[simp] theorem State.bump64_mramTap (s : State) (p : Nat) (f g : FieldRef) (k n : Nat) : (s.bump64 p f g k n).mramTap = s.mramTap := (State.regsOnly_bump64 s p f g k n).mramTap
@[simp] theorem State.bump64_freeCount (s : State) (p : Nat) (f g : FieldRef) (k n : Nat) : (s.bump64 p f g k n).freeCount = s.freeCount := (State.regsOnly_bump64 s p f g k n).freeCount
@[simp] theorem State.bump64_pending (s : State) (p : Nat) (f g : FieldRef) (k n : Nat) : (s.bump64 p f g k n).pending = s.pending := (State.regsOnly_bump64 s p f g k n).pending
@[simp] theorem State.bump64_chan (s : State) (p : Nat) (f g : FieldRef) (k n : Nat) (x : Nat) : (s.bump64 p f g k n).chan x = s.chan x := (State.regsOnly_bump64 s p f g k n).chan x
@[simp] theorem State.bump64_tile (s : State) (p : Nat) (f g : FieldRef) (k n : Nat) (x : Fin 16) : (s.bump64 p f g k n).tile x = s.tile x := (State.regsOnly_bump64 s p f g k n).tile x
@[simp] theorem State.bump64_conc (s : State) (p : Nat) (f g : FieldRef) (k n : Nat) (x : Conc) : (s.bump64 p f g k n).conc x = s.conc x := (State.regsOnly_bump64 s p f g k n).conc x
@[simp] theorem State.bump64_um (s : State) (p : Nat) (f g : FieldRef) (k n : Nat) (x : Um) : (s.bump64 p f g k n).um x = s.um x := (State.regsOnly_bump64 s p f g k n).um x
@[simp] theorem State.bump64_port (s : State) (p : Nat) (f g : FieldRef) (k n : Nat) (x : Fin 16) (y : Conc) : (s.bump64 p f g k n).port x y = s.port x y := (State.regsOnly_bump64 s p f g k n).port x y
@[simp] theorem State.bump64_rx (s : State) (p : Nat) (f g : FieldRef) (k n : Nat) (x : Conc) (y : Fin 16) : (s.bump64 p f g k n).rx x y = s.rx x y := (State.regsOnly_bump64 s p f g k n).rx x y

/-! `bumpWrap` -/

@[simp] theorem State.bumpWrap_now (s : State) (p : Nat) (f : FieldRef) (n : Nat) : (s.bumpWrap p f n).now = s.now := (State.regsOnly_bumpWrap s p f n).now
@[simp] theorem State.bumpWrap_frame (s : State) (p : Nat) (f : FieldRef) (n : Nat) : (s.bumpWrap p f n).frame = s.frame := (State.regsOnly_bumpWrap s p f n).frame
@[simp] theorem State.bumpWrap_running (s : State) (p : Nat) (f : FieldRef) (n : Nat) : (s.bumpWrap p f n).running = s.running := (State.regsOnly_bumpWrap s p f n).running
@[simp] theorem State.bumpWrap_pendW (s : State) (p : Nat) (f : FieldRef) (n : Nat) : (s.bumpWrap p f n).pendW = s.pendW := (State.regsOnly_bumpWrap s p f n).pendW
@[simp] theorem State.bumpWrap_chans (s : State) (p : Nat) (f : FieldRef) (n : Nat) : (s.bumpWrap p f n).chans = s.chans := (State.regsOnly_bumpWrap s p f n).chans
@[simp] theorem State.bumpWrap_tiles (s : State) (p : Nat) (f : FieldRef) (n : Nat) : (s.bumpWrap p f n).tiles = s.tiles := (State.regsOnly_bumpWrap s p f n).tiles
@[simp] theorem State.bumpWrap_tac (s : State) (p : Nat) (f : FieldRef) (n : Nat) : (s.bumpWrap p f n).tac = s.tac := (State.regsOnly_bumpWrap s p f n).tac
@[simp] theorem State.bumpWrap_tacStaged (s : State) (p : Nat) (f : FieldRef) (n : Nat) : (s.bumpWrap p f n).tacStaged = s.tacStaged := (State.regsOnly_bumpWrap s p f n).tacStaged
@[simp] theorem State.bumpWrap_tacPoison (s : State) (p : Nat) (f : FieldRef) (n : Nat) : (s.bumpWrap p f n).tacPoison = s.tacPoison := (State.regsOnly_bumpWrap s p f n).tacPoison
@[simp] theorem State.bumpWrap_rwsStaged (s : State) (p : Nat) (f : FieldRef) (n : Nat) : (s.bumpWrap p f n).rwsStaged = s.rwsStaged := (State.regsOnly_bumpWrap s p f n).rwsStaged
@[simp] theorem State.bumpWrap_concA (s : State) (p : Nat) (f : FieldRef) (n : Nat) : (s.bumpWrap p f n).concA = s.concA := (State.regsOnly_bumpWrap s p f n).concA
@[simp] theorem State.bumpWrap_concB (s : State) (p : Nat) (f : FieldRef) (n : Nat) : (s.bumpWrap p f n).concB = s.concB := (State.regsOnly_bumpWrap s p f n).concB
@[simp] theorem State.bumpWrap_frames (s : State) (p : Nat) (f : FieldRef) (n : Nat) : (s.bumpWrap p f n).frames = s.frames := (State.regsOnly_bumpWrap s p f n).frames
@[simp] theorem State.bumpWrap_trig (s : State) (p : Nat) (f : FieldRef) (n : Nat) : (s.bumpWrap p f n).trig = s.trig := (State.regsOnly_bumpWrap s p f n).trig
@[simp] theorem State.bumpWrap_time (s : State) (p : Nat) (f : FieldRef) (n : Nat) : (s.bumpWrap p f n).time = s.time := (State.regsOnly_bumpWrap s p f n).time
@[simp] theorem State.bumpWrap_lastCorr (s : State) (p : Nat) (f : FieldRef) (n : Nat) : (s.bumpWrap p f n).lastCorr = s.lastCorr := (State.regsOnly_bumpWrap s p f n).lastCorr
@[simp] theorem State.bumpWrap_scrubs (s : State) (p : Nat) (f : FieldRef) (n : Nat) : (s.bumpWrap p f n).scrubs = s.scrubs := (State.regsOnly_bumpWrap s p f n).scrubs
@[simp] theorem State.bumpWrap_writeBacks (s : State) (p : Nat) (f : FieldRef) (n : Nat) : (s.bumpWrap p f n).writeBacks = s.writeBacks := (State.regsOnly_bumpWrap s p f n).writeBacks
@[simp] theorem State.bumpWrap_integ (s : State) (p : Nat) (f : FieldRef) (n : Nat) : (s.bumpWrap p f n).integ = s.integ := (State.regsOnly_bumpWrap s p f n).integ
@[simp] theorem State.bumpWrap_stick (s : State) (p : Nat) (f : FieldRef) (n : Nat) : (s.bumpWrap p f n).stick = s.stick := (State.regsOnly_bumpWrap s p f n).stick
@[simp] theorem State.bumpWrap_cal (s : State) (p : Nat) (f : FieldRef) (n : Nat) : (s.bumpWrap p f n).cal = s.cal := (State.regsOnly_bumpWrap s p f n).cal
@[simp] theorem State.bumpWrap_mon (s : State) (p : Nat) (f : FieldRef) (n : Nat) : (s.bumpWrap p f n).mon = s.mon := (State.regsOnly_bumpWrap s p f n).mon
@[simp] theorem State.bumpWrap_fwu (s : State) (p : Nat) (f : FieldRef) (n : Nat) : (s.bumpWrap p f n).fwu = s.fwu := (State.regsOnly_bumpWrap s p f n).fwu
@[simp] theorem State.bumpWrap_pow (s : State) (p : Nat) (f : FieldRef) (n : Nat) : (s.bumpWrap p f n).pow = s.pow := (State.regsOnly_bumpWrap s p f n).pow
@[simp] theorem State.bumpWrap_tap (s : State) (p : Nat) (f : FieldRef) (n : Nat) : (s.bumpWrap p f n).tap = s.tap := (State.regsOnly_bumpWrap s p f n).tap
@[simp] theorem State.bumpWrap_um0 (s : State) (p : Nat) (f : FieldRef) (n : Nat) : (s.bumpWrap p f n).um0 = s.um0 := (State.regsOnly_bumpWrap s p f n).um0
@[simp] theorem State.bumpWrap_um1 (s : State) (p : Nat) (f : FieldRef) (n : Nat) : (s.bumpWrap p f n).um1 = s.um1 := (State.regsOnly_bumpWrap s p f n).um1
@[simp] theorem State.bumpWrap_peal (s : State) (p : Nat) (f : FieldRef) (n : Nat) : (s.bumpWrap p f n).peal = s.peal := (State.regsOnly_bumpWrap s p f n).peal
@[simp] theorem State.bumpWrap_mixedFrom (s : State) (p : Nat) (f : FieldRef) (n : Nat) : (s.bumpWrap p f n).mixedFrom = s.mixedFrom := (State.regsOnly_bumpWrap s p f n).mixedFrom
@[simp] theorem State.bumpWrap_unlocks (s : State) (p : Nat) (f : FieldRef) (n : Nat) : (s.bumpWrap p f n).unlocks = s.unlocks := (State.regsOnly_bumpWrap s p f n).unlocks
@[simp] theorem State.bumpWrap_journal (s : State) (p : Nat) (f : FieldRef) (n : Nat) : (s.bumpWrap p f n).journal = s.journal := (State.regsOnly_bumpWrap s p f n).journal
@[simp] theorem State.bumpWrap_saved (s : State) (p : Nat) (f : FieldRef) (n : Nat) : (s.bumpWrap p f n).saved = s.saved := (State.regsOnly_bumpWrap s p f n).saved
@[simp] theorem State.bumpWrap_savedStaged (s : State) (p : Nat) (f : FieldRef) (n : Nat) : (s.bumpWrap p f n).savedStaged = s.savedStaged := (State.regsOnly_bumpWrap s p f n).savedStaged
@[simp] theorem State.bumpWrap_savedTac (s : State) (p : Nat) (f : FieldRef) (n : Nat) : (s.bumpWrap p f n).savedTac = s.savedTac := (State.regsOnly_bumpWrap s p f n).savedTac
@[simp] theorem State.bumpWrap_jseq (s : State) (p : Nat) (f : FieldRef) (n : Nat) : (s.bumpWrap p f n).jseq = s.jseq := (State.regsOnly_bumpWrap s p f n).jseq
@[simp] theorem State.bumpWrap_savedEpoch (s : State) (p : Nat) (f : FieldRef) (n : Nat) : (s.bumpWrap p f n).savedEpoch = s.savedEpoch := (State.regsOnly_bumpWrap s p f n).savedEpoch
@[simp] theorem State.bumpWrap_savedCorr (s : State) (p : Nat) (f : FieldRef) (n : Nat) : (s.bumpWrap p f n).savedCorr = s.savedCorr := (State.regsOnly_bumpWrap s p f n).savedCorr
@[simp] theorem State.bumpWrap_mramCorr (s : State) (p : Nat) (f : FieldRef) (n : Nat) : (s.bumpWrap p f n).mramCorr = s.mramCorr := (State.regsOnly_bumpWrap s p f n).mramCorr
@[simp] theorem State.bumpWrap_mramTac (s : State) (p : Nat) (f : FieldRef) (n : Nat) : (s.bumpWrap p f n).mramTac = s.mramTac := (State.regsOnly_bumpWrap s p f n).mramTac
@[simp] theorem State.bumpWrap_mramTap (s : State) (p : Nat) (f : FieldRef) (n : Nat) : (s.bumpWrap p f n).mramTap = s.mramTap := (State.regsOnly_bumpWrap s p f n).mramTap
@[simp] theorem State.bumpWrap_freeCount (s : State) (p : Nat) (f : FieldRef) (n : Nat) : (s.bumpWrap p f n).freeCount = s.freeCount := (State.regsOnly_bumpWrap s p f n).freeCount
@[simp] theorem State.bumpWrap_pending (s : State) (p : Nat) (f : FieldRef) (n : Nat) : (s.bumpWrap p f n).pending = s.pending := (State.regsOnly_bumpWrap s p f n).pending
@[simp] theorem State.bumpWrap_chan (s : State) (p : Nat) (f : FieldRef) (n : Nat) (x : Nat) : (s.bumpWrap p f n).chan x = s.chan x := (State.regsOnly_bumpWrap s p f n).chan x
@[simp] theorem State.bumpWrap_tile (s : State) (p : Nat) (f : FieldRef) (n : Nat) (x : Fin 16) : (s.bumpWrap p f n).tile x = s.tile x := (State.regsOnly_bumpWrap s p f n).tile x
@[simp] theorem State.bumpWrap_conc (s : State) (p : Nat) (f : FieldRef) (n : Nat) (x : Conc) : (s.bumpWrap p f n).conc x = s.conc x := (State.regsOnly_bumpWrap s p f n).conc x
@[simp] theorem State.bumpWrap_um (s : State) (p : Nat) (f : FieldRef) (n : Nat) (x : Um) : (s.bumpWrap p f n).um x = s.um x := (State.regsOnly_bumpWrap s p f n).um x
@[simp] theorem State.bumpWrap_port (s : State) (p : Nat) (f : FieldRef) (n : Nat) (x : Fin 16) (y : Conc) : (s.bumpWrap p f n).port x y = s.port x y := (State.regsOnly_bumpWrap s p f n).port x y
@[simp] theorem State.bumpWrap_rx (s : State) (p : Nat) (f : FieldRef) (n : Nat) (x : Conc) (y : Fin 16) : (s.bumpWrap p f n).rx x y = s.rx x y := (State.regsOnly_bumpWrap s p f n).rx x y

/-! `peak` -/

@[simp] theorem State.peak_now (s : State) (p : Nat) (f : FieldRef) (n : Nat) : (s.peak p f n).now = s.now := (State.regsOnly_peak s p f n).now
@[simp] theorem State.peak_frame (s : State) (p : Nat) (f : FieldRef) (n : Nat) : (s.peak p f n).frame = s.frame := (State.regsOnly_peak s p f n).frame
@[simp] theorem State.peak_running (s : State) (p : Nat) (f : FieldRef) (n : Nat) : (s.peak p f n).running = s.running := (State.regsOnly_peak s p f n).running
@[simp] theorem State.peak_pendW (s : State) (p : Nat) (f : FieldRef) (n : Nat) : (s.peak p f n).pendW = s.pendW := (State.regsOnly_peak s p f n).pendW
@[simp] theorem State.peak_chans (s : State) (p : Nat) (f : FieldRef) (n : Nat) : (s.peak p f n).chans = s.chans := (State.regsOnly_peak s p f n).chans
@[simp] theorem State.peak_tiles (s : State) (p : Nat) (f : FieldRef) (n : Nat) : (s.peak p f n).tiles = s.tiles := (State.regsOnly_peak s p f n).tiles
@[simp] theorem State.peak_tac (s : State) (p : Nat) (f : FieldRef) (n : Nat) : (s.peak p f n).tac = s.tac := (State.regsOnly_peak s p f n).tac
@[simp] theorem State.peak_tacStaged (s : State) (p : Nat) (f : FieldRef) (n : Nat) : (s.peak p f n).tacStaged = s.tacStaged := (State.regsOnly_peak s p f n).tacStaged
@[simp] theorem State.peak_tacPoison (s : State) (p : Nat) (f : FieldRef) (n : Nat) : (s.peak p f n).tacPoison = s.tacPoison := (State.regsOnly_peak s p f n).tacPoison
@[simp] theorem State.peak_rwsStaged (s : State) (p : Nat) (f : FieldRef) (n : Nat) : (s.peak p f n).rwsStaged = s.rwsStaged := (State.regsOnly_peak s p f n).rwsStaged
@[simp] theorem State.peak_concA (s : State) (p : Nat) (f : FieldRef) (n : Nat) : (s.peak p f n).concA = s.concA := (State.regsOnly_peak s p f n).concA
@[simp] theorem State.peak_concB (s : State) (p : Nat) (f : FieldRef) (n : Nat) : (s.peak p f n).concB = s.concB := (State.regsOnly_peak s p f n).concB
@[simp] theorem State.peak_frames (s : State) (p : Nat) (f : FieldRef) (n : Nat) : (s.peak p f n).frames = s.frames := (State.regsOnly_peak s p f n).frames
@[simp] theorem State.peak_trig (s : State) (p : Nat) (f : FieldRef) (n : Nat) : (s.peak p f n).trig = s.trig := (State.regsOnly_peak s p f n).trig
@[simp] theorem State.peak_time (s : State) (p : Nat) (f : FieldRef) (n : Nat) : (s.peak p f n).time = s.time := (State.regsOnly_peak s p f n).time
@[simp] theorem State.peak_lastCorr (s : State) (p : Nat) (f : FieldRef) (n : Nat) : (s.peak p f n).lastCorr = s.lastCorr := (State.regsOnly_peak s p f n).lastCorr
@[simp] theorem State.peak_scrubs (s : State) (p : Nat) (f : FieldRef) (n : Nat) : (s.peak p f n).scrubs = s.scrubs := (State.regsOnly_peak s p f n).scrubs
@[simp] theorem State.peak_writeBacks (s : State) (p : Nat) (f : FieldRef) (n : Nat) : (s.peak p f n).writeBacks = s.writeBacks := (State.regsOnly_peak s p f n).writeBacks
@[simp] theorem State.peak_integ (s : State) (p : Nat) (f : FieldRef) (n : Nat) : (s.peak p f n).integ = s.integ := (State.regsOnly_peak s p f n).integ
@[simp] theorem State.peak_stick (s : State) (p : Nat) (f : FieldRef) (n : Nat) : (s.peak p f n).stick = s.stick := (State.regsOnly_peak s p f n).stick
@[simp] theorem State.peak_cal (s : State) (p : Nat) (f : FieldRef) (n : Nat) : (s.peak p f n).cal = s.cal := (State.regsOnly_peak s p f n).cal
@[simp] theorem State.peak_mon (s : State) (p : Nat) (f : FieldRef) (n : Nat) : (s.peak p f n).mon = s.mon := (State.regsOnly_peak s p f n).mon
@[simp] theorem State.peak_fwu (s : State) (p : Nat) (f : FieldRef) (n : Nat) : (s.peak p f n).fwu = s.fwu := (State.regsOnly_peak s p f n).fwu
@[simp] theorem State.peak_pow (s : State) (p : Nat) (f : FieldRef) (n : Nat) : (s.peak p f n).pow = s.pow := (State.regsOnly_peak s p f n).pow
@[simp] theorem State.peak_tap (s : State) (p : Nat) (f : FieldRef) (n : Nat) : (s.peak p f n).tap = s.tap := (State.regsOnly_peak s p f n).tap
@[simp] theorem State.peak_um0 (s : State) (p : Nat) (f : FieldRef) (n : Nat) : (s.peak p f n).um0 = s.um0 := (State.regsOnly_peak s p f n).um0
@[simp] theorem State.peak_um1 (s : State) (p : Nat) (f : FieldRef) (n : Nat) : (s.peak p f n).um1 = s.um1 := (State.regsOnly_peak s p f n).um1
@[simp] theorem State.peak_peal (s : State) (p : Nat) (f : FieldRef) (n : Nat) : (s.peak p f n).peal = s.peal := (State.regsOnly_peak s p f n).peal
@[simp] theorem State.peak_mixedFrom (s : State) (p : Nat) (f : FieldRef) (n : Nat) : (s.peak p f n).mixedFrom = s.mixedFrom := (State.regsOnly_peak s p f n).mixedFrom
@[simp] theorem State.peak_unlocks (s : State) (p : Nat) (f : FieldRef) (n : Nat) : (s.peak p f n).unlocks = s.unlocks := (State.regsOnly_peak s p f n).unlocks
@[simp] theorem State.peak_journal (s : State) (p : Nat) (f : FieldRef) (n : Nat) : (s.peak p f n).journal = s.journal := (State.regsOnly_peak s p f n).journal
@[simp] theorem State.peak_saved (s : State) (p : Nat) (f : FieldRef) (n : Nat) : (s.peak p f n).saved = s.saved := (State.regsOnly_peak s p f n).saved
@[simp] theorem State.peak_savedStaged (s : State) (p : Nat) (f : FieldRef) (n : Nat) : (s.peak p f n).savedStaged = s.savedStaged := (State.regsOnly_peak s p f n).savedStaged
@[simp] theorem State.peak_savedTac (s : State) (p : Nat) (f : FieldRef) (n : Nat) : (s.peak p f n).savedTac = s.savedTac := (State.regsOnly_peak s p f n).savedTac
@[simp] theorem State.peak_jseq (s : State) (p : Nat) (f : FieldRef) (n : Nat) : (s.peak p f n).jseq = s.jseq := (State.regsOnly_peak s p f n).jseq
@[simp] theorem State.peak_savedEpoch (s : State) (p : Nat) (f : FieldRef) (n : Nat) : (s.peak p f n).savedEpoch = s.savedEpoch := (State.regsOnly_peak s p f n).savedEpoch
@[simp] theorem State.peak_savedCorr (s : State) (p : Nat) (f : FieldRef) (n : Nat) : (s.peak p f n).savedCorr = s.savedCorr := (State.regsOnly_peak s p f n).savedCorr
@[simp] theorem State.peak_mramCorr (s : State) (p : Nat) (f : FieldRef) (n : Nat) : (s.peak p f n).mramCorr = s.mramCorr := (State.regsOnly_peak s p f n).mramCorr
@[simp] theorem State.peak_mramTac (s : State) (p : Nat) (f : FieldRef) (n : Nat) : (s.peak p f n).mramTac = s.mramTac := (State.regsOnly_peak s p f n).mramTac
@[simp] theorem State.peak_mramTap (s : State) (p : Nat) (f : FieldRef) (n : Nat) : (s.peak p f n).mramTap = s.mramTap := (State.regsOnly_peak s p f n).mramTap
@[simp] theorem State.peak_freeCount (s : State) (p : Nat) (f : FieldRef) (n : Nat) : (s.peak p f n).freeCount = s.freeCount := (State.regsOnly_peak s p f n).freeCount
@[simp] theorem State.peak_pending (s : State) (p : Nat) (f : FieldRef) (n : Nat) : (s.peak p f n).pending = s.pending := (State.regsOnly_peak s p f n).pending
@[simp] theorem State.peak_chan (s : State) (p : Nat) (f : FieldRef) (n : Nat) (x : Nat) : (s.peak p f n).chan x = s.chan x := (State.regsOnly_peak s p f n).chan x
@[simp] theorem State.peak_tile (s : State) (p : Nat) (f : FieldRef) (n : Nat) (x : Fin 16) : (s.peak p f n).tile x = s.tile x := (State.regsOnly_peak s p f n).tile x
@[simp] theorem State.peak_conc (s : State) (p : Nat) (f : FieldRef) (n : Nat) (x : Conc) : (s.peak p f n).conc x = s.conc x := (State.regsOnly_peak s p f n).conc x
@[simp] theorem State.peak_um (s : State) (p : Nat) (f : FieldRef) (n : Nat) (x : Um) : (s.peak p f n).um x = s.um x := (State.regsOnly_peak s p f n).um x
@[simp] theorem State.peak_port (s : State) (p : Nat) (f : FieldRef) (n : Nat) (x : Fin 16) (y : Conc) : (s.peak p f n).port x y = s.port x y := (State.regsOnly_peak s p f n).port x y
@[simp] theorem State.peak_rx (s : State) (p : Nat) (f : FieldRef) (n : Nat) (x : Conc) (y : Fin 16) : (s.peak p f n).rx x y = s.rx x y := (State.regsOnly_peak s p f n).rx x y

/-! `queueEvent` -/

@[simp] theorem State.queueEvent_now (s : State) (p : Nat) : (s.queueEvent p).now = s.now := (State.regsOnly_queueEvent s p).now
@[simp] theorem State.queueEvent_frame (s : State) (p : Nat) : (s.queueEvent p).frame = s.frame := (State.regsOnly_queueEvent s p).frame
@[simp] theorem State.queueEvent_running (s : State) (p : Nat) : (s.queueEvent p).running = s.running := (State.regsOnly_queueEvent s p).running
@[simp] theorem State.queueEvent_pendW (s : State) (p : Nat) : (s.queueEvent p).pendW = s.pendW := (State.regsOnly_queueEvent s p).pendW
@[simp] theorem State.queueEvent_chans (s : State) (p : Nat) : (s.queueEvent p).chans = s.chans := (State.regsOnly_queueEvent s p).chans
@[simp] theorem State.queueEvent_tiles (s : State) (p : Nat) : (s.queueEvent p).tiles = s.tiles := (State.regsOnly_queueEvent s p).tiles
@[simp] theorem State.queueEvent_tac (s : State) (p : Nat) : (s.queueEvent p).tac = s.tac := (State.regsOnly_queueEvent s p).tac
@[simp] theorem State.queueEvent_tacStaged (s : State) (p : Nat) : (s.queueEvent p).tacStaged = s.tacStaged := (State.regsOnly_queueEvent s p).tacStaged
@[simp] theorem State.queueEvent_tacPoison (s : State) (p : Nat) : (s.queueEvent p).tacPoison = s.tacPoison := (State.regsOnly_queueEvent s p).tacPoison
@[simp] theorem State.queueEvent_rwsStaged (s : State) (p : Nat) : (s.queueEvent p).rwsStaged = s.rwsStaged := (State.regsOnly_queueEvent s p).rwsStaged
@[simp] theorem State.queueEvent_concA (s : State) (p : Nat) : (s.queueEvent p).concA = s.concA := (State.regsOnly_queueEvent s p).concA
@[simp] theorem State.queueEvent_concB (s : State) (p : Nat) : (s.queueEvent p).concB = s.concB := (State.regsOnly_queueEvent s p).concB
@[simp] theorem State.queueEvent_frames (s : State) (p : Nat) : (s.queueEvent p).frames = s.frames := (State.regsOnly_queueEvent s p).frames
@[simp] theorem State.queueEvent_trig (s : State) (p : Nat) : (s.queueEvent p).trig = s.trig := (State.regsOnly_queueEvent s p).trig
@[simp] theorem State.queueEvent_time (s : State) (p : Nat) : (s.queueEvent p).time = s.time := (State.regsOnly_queueEvent s p).time
@[simp] theorem State.queueEvent_lastCorr (s : State) (p : Nat) : (s.queueEvent p).lastCorr = s.lastCorr := (State.regsOnly_queueEvent s p).lastCorr
@[simp] theorem State.queueEvent_scrubs (s : State) (p : Nat) : (s.queueEvent p).scrubs = s.scrubs := (State.regsOnly_queueEvent s p).scrubs
@[simp] theorem State.queueEvent_writeBacks (s : State) (p : Nat) : (s.queueEvent p).writeBacks = s.writeBacks := (State.regsOnly_queueEvent s p).writeBacks
@[simp] theorem State.queueEvent_integ (s : State) (p : Nat) : (s.queueEvent p).integ = s.integ := (State.regsOnly_queueEvent s p).integ
@[simp] theorem State.queueEvent_stick (s : State) (p : Nat) : (s.queueEvent p).stick = s.stick := (State.regsOnly_queueEvent s p).stick
@[simp] theorem State.queueEvent_cal (s : State) (p : Nat) : (s.queueEvent p).cal = s.cal := (State.regsOnly_queueEvent s p).cal
@[simp] theorem State.queueEvent_mon (s : State) (p : Nat) : (s.queueEvent p).mon = s.mon := (State.regsOnly_queueEvent s p).mon
@[simp] theorem State.queueEvent_fwu (s : State) (p : Nat) : (s.queueEvent p).fwu = s.fwu := (State.regsOnly_queueEvent s p).fwu
@[simp] theorem State.queueEvent_pow (s : State) (p : Nat) : (s.queueEvent p).pow = s.pow := (State.regsOnly_queueEvent s p).pow
@[simp] theorem State.queueEvent_tap (s : State) (p : Nat) : (s.queueEvent p).tap = s.tap := (State.regsOnly_queueEvent s p).tap
@[simp] theorem State.queueEvent_um0 (s : State) (p : Nat) : (s.queueEvent p).um0 = s.um0 := (State.regsOnly_queueEvent s p).um0
@[simp] theorem State.queueEvent_um1 (s : State) (p : Nat) : (s.queueEvent p).um1 = s.um1 := (State.regsOnly_queueEvent s p).um1
@[simp] theorem State.queueEvent_peal (s : State) (p : Nat) : (s.queueEvent p).peal = s.peal := (State.regsOnly_queueEvent s p).peal
@[simp] theorem State.queueEvent_mixedFrom (s : State) (p : Nat) : (s.queueEvent p).mixedFrom = s.mixedFrom := (State.regsOnly_queueEvent s p).mixedFrom
@[simp] theorem State.queueEvent_unlocks (s : State) (p : Nat) : (s.queueEvent p).unlocks = s.unlocks := (State.regsOnly_queueEvent s p).unlocks
@[simp] theorem State.queueEvent_journal (s : State) (p : Nat) : (s.queueEvent p).journal = s.journal := (State.regsOnly_queueEvent s p).journal
@[simp] theorem State.queueEvent_saved (s : State) (p : Nat) : (s.queueEvent p).saved = s.saved := (State.regsOnly_queueEvent s p).saved
@[simp] theorem State.queueEvent_savedStaged (s : State) (p : Nat) : (s.queueEvent p).savedStaged = s.savedStaged := (State.regsOnly_queueEvent s p).savedStaged
@[simp] theorem State.queueEvent_savedTac (s : State) (p : Nat) : (s.queueEvent p).savedTac = s.savedTac := (State.regsOnly_queueEvent s p).savedTac
@[simp] theorem State.queueEvent_jseq (s : State) (p : Nat) : (s.queueEvent p).jseq = s.jseq := (State.regsOnly_queueEvent s p).jseq
@[simp] theorem State.queueEvent_savedEpoch (s : State) (p : Nat) : (s.queueEvent p).savedEpoch = s.savedEpoch := (State.regsOnly_queueEvent s p).savedEpoch
@[simp] theorem State.queueEvent_savedCorr (s : State) (p : Nat) : (s.queueEvent p).savedCorr = s.savedCorr := (State.regsOnly_queueEvent s p).savedCorr
@[simp] theorem State.queueEvent_mramCorr (s : State) (p : Nat) : (s.queueEvent p).mramCorr = s.mramCorr := (State.regsOnly_queueEvent s p).mramCorr
@[simp] theorem State.queueEvent_mramTac (s : State) (p : Nat) : (s.queueEvent p).mramTac = s.mramTac := (State.regsOnly_queueEvent s p).mramTac
@[simp] theorem State.queueEvent_mramTap (s : State) (p : Nat) : (s.queueEvent p).mramTap = s.mramTap := (State.regsOnly_queueEvent s p).mramTap
@[simp] theorem State.queueEvent_freeCount (s : State) (p : Nat) : (s.queueEvent p).freeCount = s.freeCount := (State.regsOnly_queueEvent s p).freeCount
@[simp] theorem State.queueEvent_pending (s : State) (p : Nat) : (s.queueEvent p).pending = s.pending := (State.regsOnly_queueEvent s p).pending
@[simp] theorem State.queueEvent_chan (s : State) (p : Nat) (x : Nat) : (s.queueEvent p).chan x = s.chan x := (State.regsOnly_queueEvent s p).chan x
@[simp] theorem State.queueEvent_tile (s : State) (p : Nat) (x : Fin 16) : (s.queueEvent p).tile x = s.tile x := (State.regsOnly_queueEvent s p).tile x
@[simp] theorem State.queueEvent_conc (s : State) (p : Nat) (x : Conc) : (s.queueEvent p).conc x = s.conc x := (State.regsOnly_queueEvent s p).conc x
@[simp] theorem State.queueEvent_um (s : State) (p : Nat) (x : Um) : (s.queueEvent p).um x = s.um x := (State.regsOnly_queueEvent s p).um x
@[simp] theorem State.queueEvent_port (s : State) (p : Nat) (x : Fin 16) (y : Conc) : (s.queueEvent p).port x y = s.port x y := (State.regsOnly_queueEvent s p).port x y
@[simp] theorem State.queueEvent_rx (s : State) (p : Nat) (x : Conc) (y : Fin 16) : (s.queueEvent p).rx x y = s.rx x y := (State.regsOnly_queueEvent s p).rx x y

/-! `event` -/

@[simp] theorem State.event_now (s : State) (p k : Nat) : (s.event p k).now = s.now := (State.regsOnly_event s p k).now
@[simp] theorem State.event_frame (s : State) (p k : Nat) : (s.event p k).frame = s.frame := (State.regsOnly_event s p k).frame
@[simp] theorem State.event_running (s : State) (p k : Nat) : (s.event p k).running = s.running := (State.regsOnly_event s p k).running
@[simp] theorem State.event_pendW (s : State) (p k : Nat) : (s.event p k).pendW = s.pendW := (State.regsOnly_event s p k).pendW
@[simp] theorem State.event_chans (s : State) (p k : Nat) : (s.event p k).chans = s.chans := (State.regsOnly_event s p k).chans
@[simp] theorem State.event_tiles (s : State) (p k : Nat) : (s.event p k).tiles = s.tiles := (State.regsOnly_event s p k).tiles
@[simp] theorem State.event_tac (s : State) (p k : Nat) : (s.event p k).tac = s.tac := (State.regsOnly_event s p k).tac
@[simp] theorem State.event_tacStaged (s : State) (p k : Nat) : (s.event p k).tacStaged = s.tacStaged := (State.regsOnly_event s p k).tacStaged
@[simp] theorem State.event_tacPoison (s : State) (p k : Nat) : (s.event p k).tacPoison = s.tacPoison := (State.regsOnly_event s p k).tacPoison
@[simp] theorem State.event_rwsStaged (s : State) (p k : Nat) : (s.event p k).rwsStaged = s.rwsStaged := (State.regsOnly_event s p k).rwsStaged
@[simp] theorem State.event_concA (s : State) (p k : Nat) : (s.event p k).concA = s.concA := (State.regsOnly_event s p k).concA
@[simp] theorem State.event_concB (s : State) (p k : Nat) : (s.event p k).concB = s.concB := (State.regsOnly_event s p k).concB
@[simp] theorem State.event_frames (s : State) (p k : Nat) : (s.event p k).frames = s.frames := (State.regsOnly_event s p k).frames
@[simp] theorem State.event_trig (s : State) (p k : Nat) : (s.event p k).trig = s.trig := (State.regsOnly_event s p k).trig
@[simp] theorem State.event_time (s : State) (p k : Nat) : (s.event p k).time = s.time := (State.regsOnly_event s p k).time
@[simp] theorem State.event_lastCorr (s : State) (p k : Nat) : (s.event p k).lastCorr = s.lastCorr := (State.regsOnly_event s p k).lastCorr
@[simp] theorem State.event_scrubs (s : State) (p k : Nat) : (s.event p k).scrubs = s.scrubs := (State.regsOnly_event s p k).scrubs
@[simp] theorem State.event_writeBacks (s : State) (p k : Nat) : (s.event p k).writeBacks = s.writeBacks := (State.regsOnly_event s p k).writeBacks
@[simp] theorem State.event_integ (s : State) (p k : Nat) : (s.event p k).integ = s.integ := (State.regsOnly_event s p k).integ
@[simp] theorem State.event_stick (s : State) (p k : Nat) : (s.event p k).stick = s.stick := (State.regsOnly_event s p k).stick
@[simp] theorem State.event_cal (s : State) (p k : Nat) : (s.event p k).cal = s.cal := (State.regsOnly_event s p k).cal
@[simp] theorem State.event_mon (s : State) (p k : Nat) : (s.event p k).mon = s.mon := (State.regsOnly_event s p k).mon
@[simp] theorem State.event_fwu (s : State) (p k : Nat) : (s.event p k).fwu = s.fwu := (State.regsOnly_event s p k).fwu
@[simp] theorem State.event_pow (s : State) (p k : Nat) : (s.event p k).pow = s.pow := (State.regsOnly_event s p k).pow
@[simp] theorem State.event_tap (s : State) (p k : Nat) : (s.event p k).tap = s.tap := (State.regsOnly_event s p k).tap
@[simp] theorem State.event_um0 (s : State) (p k : Nat) : (s.event p k).um0 = s.um0 := (State.regsOnly_event s p k).um0
@[simp] theorem State.event_um1 (s : State) (p k : Nat) : (s.event p k).um1 = s.um1 := (State.regsOnly_event s p k).um1
@[simp] theorem State.event_peal (s : State) (p k : Nat) : (s.event p k).peal = s.peal := (State.regsOnly_event s p k).peal
@[simp] theorem State.event_mixedFrom (s : State) (p k : Nat) : (s.event p k).mixedFrom = s.mixedFrom := (State.regsOnly_event s p k).mixedFrom
@[simp] theorem State.event_unlocks (s : State) (p k : Nat) : (s.event p k).unlocks = s.unlocks := (State.regsOnly_event s p k).unlocks
@[simp] theorem State.event_journal (s : State) (p k : Nat) : (s.event p k).journal = s.journal := (State.regsOnly_event s p k).journal
@[simp] theorem State.event_saved (s : State) (p k : Nat) : (s.event p k).saved = s.saved := (State.regsOnly_event s p k).saved
@[simp] theorem State.event_savedStaged (s : State) (p k : Nat) : (s.event p k).savedStaged = s.savedStaged := (State.regsOnly_event s p k).savedStaged
@[simp] theorem State.event_savedTac (s : State) (p k : Nat) : (s.event p k).savedTac = s.savedTac := (State.regsOnly_event s p k).savedTac
@[simp] theorem State.event_jseq (s : State) (p k : Nat) : (s.event p k).jseq = s.jseq := (State.regsOnly_event s p k).jseq
@[simp] theorem State.event_savedEpoch (s : State) (p k : Nat) : (s.event p k).savedEpoch = s.savedEpoch := (State.regsOnly_event s p k).savedEpoch
@[simp] theorem State.event_savedCorr (s : State) (p k : Nat) : (s.event p k).savedCorr = s.savedCorr := (State.regsOnly_event s p k).savedCorr
@[simp] theorem State.event_mramCorr (s : State) (p k : Nat) : (s.event p k).mramCorr = s.mramCorr := (State.regsOnly_event s p k).mramCorr
@[simp] theorem State.event_mramTac (s : State) (p k : Nat) : (s.event p k).mramTac = s.mramTac := (State.regsOnly_event s p k).mramTac
@[simp] theorem State.event_mramTap (s : State) (p k : Nat) : (s.event p k).mramTap = s.mramTap := (State.regsOnly_event s p k).mramTap
@[simp] theorem State.event_freeCount (s : State) (p k : Nat) : (s.event p k).freeCount = s.freeCount := (State.regsOnly_event s p k).freeCount
@[simp] theorem State.event_pending (s : State) (p k : Nat) : (s.event p k).pending = s.pending := (State.regsOnly_event s p k).pending
@[simp] theorem State.event_chan (s : State) (p k : Nat) (x : Nat) : (s.event p k).chan x = s.chan x := (State.regsOnly_event s p k).chan x
@[simp] theorem State.event_tile (s : State) (p k : Nat) (x : Fin 16) : (s.event p k).tile x = s.tile x := (State.regsOnly_event s p k).tile x
@[simp] theorem State.event_conc (s : State) (p k : Nat) (x : Conc) : (s.event p k).conc x = s.conc x := (State.regsOnly_event s p k).conc x
@[simp] theorem State.event_um (s : State) (p k : Nat) (x : Um) : (s.event p k).um x = s.um x := (State.regsOnly_event s p k).um x
@[simp] theorem State.event_port (s : State) (p k : Nat) (x : Fin 16) (y : Conc) : (s.event p k).port x y = s.port x y := (State.regsOnly_event s p k).port x y
@[simp] theorem State.event_rx (s : State) (p k : Nat) (x : Conc) (y : Fin 16) : (s.event p k).rx x y = s.rx x y := (State.regsOnly_event s p k).rx x y

/-! `eventIf` -/

@[simp] theorem State.eventIf_now (s : State) (c : Bool) (p k : Nat) : (s.eventIf c p k).now = s.now := (State.regsOnly_eventIf s c p k).now
@[simp] theorem State.eventIf_frame (s : State) (c : Bool) (p k : Nat) : (s.eventIf c p k).frame = s.frame := (State.regsOnly_eventIf s c p k).frame
@[simp] theorem State.eventIf_running (s : State) (c : Bool) (p k : Nat) : (s.eventIf c p k).running = s.running := (State.regsOnly_eventIf s c p k).running
@[simp] theorem State.eventIf_pendW (s : State) (c : Bool) (p k : Nat) : (s.eventIf c p k).pendW = s.pendW := (State.regsOnly_eventIf s c p k).pendW
@[simp] theorem State.eventIf_chans (s : State) (c : Bool) (p k : Nat) : (s.eventIf c p k).chans = s.chans := (State.regsOnly_eventIf s c p k).chans
@[simp] theorem State.eventIf_tiles (s : State) (c : Bool) (p k : Nat) : (s.eventIf c p k).tiles = s.tiles := (State.regsOnly_eventIf s c p k).tiles
@[simp] theorem State.eventIf_tac (s : State) (c : Bool) (p k : Nat) : (s.eventIf c p k).tac = s.tac := (State.regsOnly_eventIf s c p k).tac
@[simp] theorem State.eventIf_tacStaged (s : State) (c : Bool) (p k : Nat) : (s.eventIf c p k).tacStaged = s.tacStaged := (State.regsOnly_eventIf s c p k).tacStaged
@[simp] theorem State.eventIf_tacPoison (s : State) (c : Bool) (p k : Nat) : (s.eventIf c p k).tacPoison = s.tacPoison := (State.regsOnly_eventIf s c p k).tacPoison
@[simp] theorem State.eventIf_rwsStaged (s : State) (c : Bool) (p k : Nat) : (s.eventIf c p k).rwsStaged = s.rwsStaged := (State.regsOnly_eventIf s c p k).rwsStaged
@[simp] theorem State.eventIf_concA (s : State) (c : Bool) (p k : Nat) : (s.eventIf c p k).concA = s.concA := (State.regsOnly_eventIf s c p k).concA
@[simp] theorem State.eventIf_concB (s : State) (c : Bool) (p k : Nat) : (s.eventIf c p k).concB = s.concB := (State.regsOnly_eventIf s c p k).concB
@[simp] theorem State.eventIf_frames (s : State) (c : Bool) (p k : Nat) : (s.eventIf c p k).frames = s.frames := (State.regsOnly_eventIf s c p k).frames
@[simp] theorem State.eventIf_trig (s : State) (c : Bool) (p k : Nat) : (s.eventIf c p k).trig = s.trig := (State.regsOnly_eventIf s c p k).trig
@[simp] theorem State.eventIf_time (s : State) (c : Bool) (p k : Nat) : (s.eventIf c p k).time = s.time := (State.regsOnly_eventIf s c p k).time
@[simp] theorem State.eventIf_lastCorr (s : State) (c : Bool) (p k : Nat) : (s.eventIf c p k).lastCorr = s.lastCorr := (State.regsOnly_eventIf s c p k).lastCorr
@[simp] theorem State.eventIf_scrubs (s : State) (c : Bool) (p k : Nat) : (s.eventIf c p k).scrubs = s.scrubs := (State.regsOnly_eventIf s c p k).scrubs
@[simp] theorem State.eventIf_writeBacks (s : State) (c : Bool) (p k : Nat) : (s.eventIf c p k).writeBacks = s.writeBacks := (State.regsOnly_eventIf s c p k).writeBacks
@[simp] theorem State.eventIf_integ (s : State) (c : Bool) (p k : Nat) : (s.eventIf c p k).integ = s.integ := (State.regsOnly_eventIf s c p k).integ
@[simp] theorem State.eventIf_stick (s : State) (c : Bool) (p k : Nat) : (s.eventIf c p k).stick = s.stick := (State.regsOnly_eventIf s c p k).stick
@[simp] theorem State.eventIf_cal (s : State) (c : Bool) (p k : Nat) : (s.eventIf c p k).cal = s.cal := (State.regsOnly_eventIf s c p k).cal
@[simp] theorem State.eventIf_mon (s : State) (c : Bool) (p k : Nat) : (s.eventIf c p k).mon = s.mon := (State.regsOnly_eventIf s c p k).mon
@[simp] theorem State.eventIf_fwu (s : State) (c : Bool) (p k : Nat) : (s.eventIf c p k).fwu = s.fwu := (State.regsOnly_eventIf s c p k).fwu
@[simp] theorem State.eventIf_pow (s : State) (c : Bool) (p k : Nat) : (s.eventIf c p k).pow = s.pow := (State.regsOnly_eventIf s c p k).pow
@[simp] theorem State.eventIf_tap (s : State) (c : Bool) (p k : Nat) : (s.eventIf c p k).tap = s.tap := (State.regsOnly_eventIf s c p k).tap
@[simp] theorem State.eventIf_um0 (s : State) (c : Bool) (p k : Nat) : (s.eventIf c p k).um0 = s.um0 := (State.regsOnly_eventIf s c p k).um0
@[simp] theorem State.eventIf_um1 (s : State) (c : Bool) (p k : Nat) : (s.eventIf c p k).um1 = s.um1 := (State.regsOnly_eventIf s c p k).um1
@[simp] theorem State.eventIf_peal (s : State) (c : Bool) (p k : Nat) : (s.eventIf c p k).peal = s.peal := (State.regsOnly_eventIf s c p k).peal
@[simp] theorem State.eventIf_mixedFrom (s : State) (c : Bool) (p k : Nat) : (s.eventIf c p k).mixedFrom = s.mixedFrom := (State.regsOnly_eventIf s c p k).mixedFrom
@[simp] theorem State.eventIf_unlocks (s : State) (c : Bool) (p k : Nat) : (s.eventIf c p k).unlocks = s.unlocks := (State.regsOnly_eventIf s c p k).unlocks
@[simp] theorem State.eventIf_journal (s : State) (c : Bool) (p k : Nat) : (s.eventIf c p k).journal = s.journal := (State.regsOnly_eventIf s c p k).journal
@[simp] theorem State.eventIf_saved (s : State) (c : Bool) (p k : Nat) : (s.eventIf c p k).saved = s.saved := (State.regsOnly_eventIf s c p k).saved
@[simp] theorem State.eventIf_savedStaged (s : State) (c : Bool) (p k : Nat) : (s.eventIf c p k).savedStaged = s.savedStaged := (State.regsOnly_eventIf s c p k).savedStaged
@[simp] theorem State.eventIf_savedTac (s : State) (c : Bool) (p k : Nat) : (s.eventIf c p k).savedTac = s.savedTac := (State.regsOnly_eventIf s c p k).savedTac
@[simp] theorem State.eventIf_jseq (s : State) (c : Bool) (p k : Nat) : (s.eventIf c p k).jseq = s.jseq := (State.regsOnly_eventIf s c p k).jseq
@[simp] theorem State.eventIf_savedEpoch (s : State) (c : Bool) (p k : Nat) : (s.eventIf c p k).savedEpoch = s.savedEpoch := (State.regsOnly_eventIf s c p k).savedEpoch
@[simp] theorem State.eventIf_savedCorr (s : State) (c : Bool) (p k : Nat) : (s.eventIf c p k).savedCorr = s.savedCorr := (State.regsOnly_eventIf s c p k).savedCorr
@[simp] theorem State.eventIf_mramCorr (s : State) (c : Bool) (p k : Nat) : (s.eventIf c p k).mramCorr = s.mramCorr := (State.regsOnly_eventIf s c p k).mramCorr
@[simp] theorem State.eventIf_mramTac (s : State) (c : Bool) (p k : Nat) : (s.eventIf c p k).mramTac = s.mramTac := (State.regsOnly_eventIf s c p k).mramTac
@[simp] theorem State.eventIf_mramTap (s : State) (c : Bool) (p k : Nat) : (s.eventIf c p k).mramTap = s.mramTap := (State.regsOnly_eventIf s c p k).mramTap
@[simp] theorem State.eventIf_freeCount (s : State) (c : Bool) (p k : Nat) : (s.eventIf c p k).freeCount = s.freeCount := (State.regsOnly_eventIf s c p k).freeCount
@[simp] theorem State.eventIf_pending (s : State) (c : Bool) (p k : Nat) : (s.eventIf c p k).pending = s.pending := (State.regsOnly_eventIf s c p k).pending
@[simp] theorem State.eventIf_chan (s : State) (c : Bool) (p k : Nat) (x : Nat) : (s.eventIf c p k).chan x = s.chan x := (State.regsOnly_eventIf s c p k).chan x
@[simp] theorem State.eventIf_tile (s : State) (c : Bool) (p k : Nat) (x : Fin 16) : (s.eventIf c p k).tile x = s.tile x := (State.regsOnly_eventIf s c p k).tile x
@[simp] theorem State.eventIf_conc (s : State) (c : Bool) (p k : Nat) (x : Conc) : (s.eventIf c p k).conc x = s.conc x := (State.regsOnly_eventIf s c p k).conc x
@[simp] theorem State.eventIf_um (s : State) (c : Bool) (p k : Nat) (x : Um) : (s.eventIf c p k).um x = s.um x := (State.regsOnly_eventIf s c p k).um x
@[simp] theorem State.eventIf_port (s : State) (c : Bool) (p k : Nat) (x : Fin 16) (y : Conc) : (s.eventIf c p k).port x y = s.port x y := (State.regsOnly_eventIf s c p k).port x y
@[simp] theorem State.eventIf_rx (s : State) (c : Bool) (p k : Nat) (x : Conc) (y : Fin 16) : (s.eventIf c p k).rx x y = s.rx x y := (State.regsOnly_eventIf s c p k).rx x y

/-! `advance` -/

@[simp] theorem State.advance_frame (s : State) (t : Nat) : (s.advance t).frame = s.frame := by simp only [State.advance]
@[simp] theorem State.advance_running (s : State) (t : Nat) : (s.advance t).running = s.running := by simp only [State.advance]
@[simp] theorem State.advance_regs (s : State) (t : Nat) : (s.advance t).regs = s.regs := by simp only [State.advance]
@[simp] theorem State.advance_stale (s : State) (t : Nat) : (s.advance t).stale = s.stale := by simp only [State.advance]
@[simp] theorem State.advance_pendW (s : State) (t : Nat) : (s.advance t).pendW = s.pendW := by simp only [State.advance]
@[simp] theorem State.advance_eventQ (s : State) (t : Nat) : (s.advance t).eventQ = s.eventQ := by simp only [State.advance]
@[simp] theorem State.advance_chans (s : State) (t : Nat) : (s.advance t).chans = s.chans := by simp only [State.advance]
@[simp] theorem State.advance_tiles (s : State) (t : Nat) : (s.advance t).tiles = s.tiles := by simp only [State.advance]
@[simp] theorem State.advance_tac (s : State) (t : Nat) : (s.advance t).tac = s.tac := by simp only [State.advance]
@[simp] theorem State.advance_tacStaged (s : State) (t : Nat) : (s.advance t).tacStaged = s.tacStaged := by simp only [State.advance]
@[simp] theorem State.advance_tacPoison (s : State) (t : Nat) : (s.advance t).tacPoison = s.tacPoison := by simp only [State.advance]
@[simp] theorem State.advance_rwsStaged (s : State) (t : Nat) : (s.advance t).rwsStaged = s.rwsStaged := by simp only [State.advance]
@[simp] theorem State.advance_concA (s : State) (t : Nat) : (s.advance t).concA = s.concA := by simp only [State.advance]
@[simp] theorem State.advance_concB (s : State) (t : Nat) : (s.advance t).concB = s.concB := by simp only [State.advance]
@[simp] theorem State.advance_frames (s : State) (t : Nat) : (s.advance t).frames = s.frames := by simp only [State.advance]
@[simp] theorem State.advance_trig (s : State) (t : Nat) : (s.advance t).trig = s.trig := by simp only [State.advance]
@[simp] theorem State.advance_time (s : State) (t : Nat) : (s.advance t).time = s.time := by simp only [State.advance]
@[simp] theorem State.advance_lastCorr (s : State) (t : Nat) : (s.advance t).lastCorr = s.lastCorr := by simp only [State.advance]
@[simp] theorem State.advance_scrubs (s : State) (t : Nat) : (s.advance t).scrubs = s.scrubs := by simp only [State.advance]
@[simp] theorem State.advance_writeBacks (s : State) (t : Nat) : (s.advance t).writeBacks = s.writeBacks := by simp only [State.advance]
@[simp] theorem State.advance_integ (s : State) (t : Nat) : (s.advance t).integ = s.integ := by simp only [State.advance]
@[simp] theorem State.advance_stick (s : State) (t : Nat) : (s.advance t).stick = s.stick := by simp only [State.advance]
@[simp] theorem State.advance_cal (s : State) (t : Nat) : (s.advance t).cal = s.cal := by simp only [State.advance]
@[simp] theorem State.advance_mon (s : State) (t : Nat) : (s.advance t).mon = s.mon := by simp only [State.advance]
@[simp] theorem State.advance_fwu (s : State) (t : Nat) : (s.advance t).fwu = s.fwu := by simp only [State.advance]
@[simp] theorem State.advance_pow (s : State) (t : Nat) : (s.advance t).pow = s.pow := by simp only [State.advance]
@[simp] theorem State.advance_tap (s : State) (t : Nat) : (s.advance t).tap = s.tap := by simp only [State.advance]
@[simp] theorem State.advance_um0 (s : State) (t : Nat) : (s.advance t).um0 = s.um0 := by simp only [State.advance]
@[simp] theorem State.advance_um1 (s : State) (t : Nat) : (s.advance t).um1 = s.um1 := by simp only [State.advance]
@[simp] theorem State.advance_peal (s : State) (t : Nat) : (s.advance t).peal = s.peal := by simp only [State.advance]
@[simp] theorem State.advance_mixedFrom (s : State) (t : Nat) : (s.advance t).mixedFrom = s.mixedFrom := by simp only [State.advance]
@[simp] theorem State.advance_unlocks (s : State) (t : Nat) : (s.advance t).unlocks = s.unlocks := by simp only [State.advance]
@[simp] theorem State.advance_journal (s : State) (t : Nat) : (s.advance t).journal = s.journal := by simp only [State.advance]
@[simp] theorem State.advance_saved (s : State) (t : Nat) : (s.advance t).saved = s.saved := by simp only [State.advance]
@[simp] theorem State.advance_savedStaged (s : State) (t : Nat) : (s.advance t).savedStaged = s.savedStaged := by simp only [State.advance]
@[simp] theorem State.advance_savedTac (s : State) (t : Nat) : (s.advance t).savedTac = s.savedTac := by simp only [State.advance]
@[simp] theorem State.advance_jseq (s : State) (t : Nat) : (s.advance t).jseq = s.jseq := by simp only [State.advance]
@[simp] theorem State.advance_savedEpoch (s : State) (t : Nat) : (s.advance t).savedEpoch = s.savedEpoch := by simp only [State.advance]
@[simp] theorem State.advance_savedCorr (s : State) (t : Nat) : (s.advance t).savedCorr = s.savedCorr := by simp only [State.advance]
@[simp] theorem State.advance_mramCorr (s : State) (t : Nat) : (s.advance t).mramCorr = s.mramCorr := by simp only [State.advance]
@[simp] theorem State.advance_mramTac (s : State) (t : Nat) : (s.advance t).mramTac = s.mramTac := by simp only [State.advance]
@[simp] theorem State.advance_mramTap (s : State) (t : Nat) : (s.advance t).mramTap = s.mramTap := by simp only [State.advance]
@[simp] theorem State.advance_freeCount (s : State) (t : Nat) : (s.advance t).freeCount = s.freeCount := by simp only [State.advance]
@[simp] theorem State.advance_pending (s : State) (t : Nat) : (s.advance t).pending = s.pending := by simp only [State.advance]
@[simp] theorem State.advance_chan (s : State) (t : Nat) (x : Nat) : (s.advance t).chan x = s.chan x := by simp [State.chan]
@[simp] theorem State.advance_tile (s : State) (t : Nat) (x : Fin 16) : (s.advance t).tile x = s.tile x := by simp [State.tile]
@[simp] theorem State.advance_conc (s : State) (t : Nat) (x : Conc) : (s.advance t).conc x = s.conc x := by cases x <;> simp [State.conc]
@[simp] theorem State.advance_um (s : State) (t : Nat) (x : Um) : (s.advance t).um x = s.um x := by cases x <;> simp [State.um]
@[simp] theorem State.advance_port (s : State) (t : Nat) (x : Fin 16) (y : Conc) : (s.advance t).port x y = s.port x y := by simp [State.port]
@[simp] theorem State.advance_rx (s : State) (t : Nat) (x : Conc) (y : Fin 16) : (s.advance t).rx x y = s.rx x y := by simp [State.rx]
@[simp] theorem State.advance_rd (s : State) (t : Nat) (x y : Nat) : (s.advance t).rd x y = s.rd x y := by simp [State.rd]
@[simp] theorem State.advance_live (s : State) (t : Nat) (x y : Nat) : (s.advance t).live x y = s.live x y := by simp [State.live]
@[simp] theorem State.advance_fld (s : State) (t : Nat) (x : Nat) (y : FieldRef) : (s.advance t).fld x y = s.fld x y := by simp [State.fld]
@[simp] theorem State.advance_stored (s : State) (t : Nat) (x : Nat) (y : FieldRef) : (s.advance t).stored x y = s.stored x y := by simp [State.stored]
@[simp] theorem State.advance_flag (s : State) (t : Nat) (x : Nat) (y : FieldRef) : (s.advance t).flag x y = s.flag x y := by simp [State.flag]

/-! `setChan` -/

@[simp] theorem State.setChan_now (s : State) (c : Nat) (v : Chan) : (s.setChan c v).now = s.now := by simp only [State.setChan]
@[simp] theorem State.setChan_frame (s : State) (c : Nat) (v : Chan) : (s.setChan c v).frame = s.frame := by simp only [State.setChan]
@[simp] theorem State.setChan_running (s : State) (c : Nat) (v : Chan) : (s.setChan c v).running = s.running := by simp only [State.setChan]
@[simp] theorem State.setChan_regs (s : State) (c : Nat) (v : Chan) : (s.setChan c v).regs = s.regs := by simp only [State.setChan]
@[simp] theorem State.setChan_stale (s : State) (c : Nat) (v : Chan) : (s.setChan c v).stale = s.stale := by simp only [State.setChan]
@[simp] theorem State.setChan_pendW (s : State) (c : Nat) (v : Chan) : (s.setChan c v).pendW = s.pendW := by simp only [State.setChan]
@[simp] theorem State.setChan_eventQ (s : State) (c : Nat) (v : Chan) : (s.setChan c v).eventQ = s.eventQ := by simp only [State.setChan]
@[simp] theorem State.setChan_tiles (s : State) (c : Nat) (v : Chan) : (s.setChan c v).tiles = s.tiles := by simp only [State.setChan]
@[simp] theorem State.setChan_tac (s : State) (c : Nat) (v : Chan) : (s.setChan c v).tac = s.tac := by simp only [State.setChan]
@[simp] theorem State.setChan_tacStaged (s : State) (c : Nat) (v : Chan) : (s.setChan c v).tacStaged = s.tacStaged := by simp only [State.setChan]
@[simp] theorem State.setChan_tacPoison (s : State) (c : Nat) (v : Chan) : (s.setChan c v).tacPoison = s.tacPoison := by simp only [State.setChan]
@[simp] theorem State.setChan_rwsStaged (s : State) (c : Nat) (v : Chan) : (s.setChan c v).rwsStaged = s.rwsStaged := by simp only [State.setChan]
@[simp] theorem State.setChan_concA (s : State) (c : Nat) (v : Chan) : (s.setChan c v).concA = s.concA := by simp only [State.setChan]
@[simp] theorem State.setChan_concB (s : State) (c : Nat) (v : Chan) : (s.setChan c v).concB = s.concB := by simp only [State.setChan]
@[simp] theorem State.setChan_frames (s : State) (c : Nat) (v : Chan) : (s.setChan c v).frames = s.frames := by simp only [State.setChan]
@[simp] theorem State.setChan_trig (s : State) (c : Nat) (v : Chan) : (s.setChan c v).trig = s.trig := by simp only [State.setChan]
@[simp] theorem State.setChan_time (s : State) (c : Nat) (v : Chan) : (s.setChan c v).time = s.time := by simp only [State.setChan]
@[simp] theorem State.setChan_lastCorr (s : State) (c : Nat) (v : Chan) : (s.setChan c v).lastCorr = s.lastCorr := by simp only [State.setChan]
@[simp] theorem State.setChan_scrubs (s : State) (c : Nat) (v : Chan) : (s.setChan c v).scrubs = s.scrubs := by simp only [State.setChan]
@[simp] theorem State.setChan_writeBacks (s : State) (c : Nat) (v : Chan) : (s.setChan c v).writeBacks = s.writeBacks := by simp only [State.setChan]
@[simp] theorem State.setChan_integ (s : State) (c : Nat) (v : Chan) : (s.setChan c v).integ = s.integ := by simp only [State.setChan]
@[simp] theorem State.setChan_stick (s : State) (c : Nat) (v : Chan) : (s.setChan c v).stick = s.stick := by simp only [State.setChan]
@[simp] theorem State.setChan_cal (s : State) (c : Nat) (v : Chan) : (s.setChan c v).cal = s.cal := by simp only [State.setChan]
@[simp] theorem State.setChan_mon (s : State) (c : Nat) (v : Chan) : (s.setChan c v).mon = s.mon := by simp only [State.setChan]
@[simp] theorem State.setChan_fwu (s : State) (c : Nat) (v : Chan) : (s.setChan c v).fwu = s.fwu := by simp only [State.setChan]
@[simp] theorem State.setChan_pow (s : State) (c : Nat) (v : Chan) : (s.setChan c v).pow = s.pow := by simp only [State.setChan]
@[simp] theorem State.setChan_tap (s : State) (c : Nat) (v : Chan) : (s.setChan c v).tap = s.tap := by simp only [State.setChan]
@[simp] theorem State.setChan_um0 (s : State) (c : Nat) (v : Chan) : (s.setChan c v).um0 = s.um0 := by simp only [State.setChan]
@[simp] theorem State.setChan_um1 (s : State) (c : Nat) (v : Chan) : (s.setChan c v).um1 = s.um1 := by simp only [State.setChan]
@[simp] theorem State.setChan_peal (s : State) (c : Nat) (v : Chan) : (s.setChan c v).peal = s.peal := by simp only [State.setChan]
@[simp] theorem State.setChan_mixedFrom (s : State) (c : Nat) (v : Chan) : (s.setChan c v).mixedFrom = s.mixedFrom := by simp only [State.setChan]
@[simp] theorem State.setChan_unlocks (s : State) (c : Nat) (v : Chan) : (s.setChan c v).unlocks = s.unlocks := by simp only [State.setChan]
@[simp] theorem State.setChan_journal (s : State) (c : Nat) (v : Chan) : (s.setChan c v).journal = s.journal := by simp only [State.setChan]
@[simp] theorem State.setChan_saved (s : State) (c : Nat) (v : Chan) : (s.setChan c v).saved = s.saved := by simp only [State.setChan]
@[simp] theorem State.setChan_savedStaged (s : State) (c : Nat) (v : Chan) : (s.setChan c v).savedStaged = s.savedStaged := by simp only [State.setChan]
@[simp] theorem State.setChan_savedTac (s : State) (c : Nat) (v : Chan) : (s.setChan c v).savedTac = s.savedTac := by simp only [State.setChan]
@[simp] theorem State.setChan_jseq (s : State) (c : Nat) (v : Chan) : (s.setChan c v).jseq = s.jseq := by simp only [State.setChan]
@[simp] theorem State.setChan_savedEpoch (s : State) (c : Nat) (v : Chan) : (s.setChan c v).savedEpoch = s.savedEpoch := by simp only [State.setChan]
@[simp] theorem State.setChan_savedCorr (s : State) (c : Nat) (v : Chan) : (s.setChan c v).savedCorr = s.savedCorr := by simp only [State.setChan]
@[simp] theorem State.setChan_mramCorr (s : State) (c : Nat) (v : Chan) : (s.setChan c v).mramCorr = s.mramCorr := by simp only [State.setChan]
@[simp] theorem State.setChan_mramTac (s : State) (c : Nat) (v : Chan) : (s.setChan c v).mramTac = s.mramTac := by simp only [State.setChan]
@[simp] theorem State.setChan_mramTap (s : State) (c : Nat) (v : Chan) : (s.setChan c v).mramTap = s.mramTap := by simp only [State.setChan]
@[simp] theorem State.setChan_freeCount (s : State) (c : Nat) (v : Chan) : (s.setChan c v).freeCount = s.freeCount := by simp only [State.setChan]
@[simp] theorem State.setChan_pending (s : State) (c : Nat) (v : Chan) : (s.setChan c v).pending = s.pending := by simp only [State.setChan]
@[simp] theorem State.setChan_tile (s : State) (c : Nat) (v : Chan) (x : Fin 16) : (s.setChan c v).tile x = s.tile x := by simp [State.tile]
@[simp] theorem State.setChan_conc (s : State) (c : Nat) (v : Chan) (x : Conc) : (s.setChan c v).conc x = s.conc x := by cases x <;> simp [State.conc]
@[simp] theorem State.setChan_um (s : State) (c : Nat) (v : Chan) (x : Um) : (s.setChan c v).um x = s.um x := by cases x <;> simp [State.um]
@[simp] theorem State.setChan_port (s : State) (c : Nat) (v : Chan) (x : Fin 16) (y : Conc) : (s.setChan c v).port x y = s.port x y := by simp [State.port]
@[simp] theorem State.setChan_rx (s : State) (c : Nat) (v : Chan) (x : Conc) (y : Fin 16) : (s.setChan c v).rx x y = s.rx x y := by simp [State.rx]
@[simp] theorem State.setChan_rd (s : State) (c : Nat) (v : Chan) (x y : Nat) : (s.setChan c v).rd x y = s.rd x y := by simp [State.rd]
@[simp] theorem State.setChan_live (s : State) (c : Nat) (v : Chan) (x y : Nat) : (s.setChan c v).live x y = s.live x y := by simp [State.live]
@[simp] theorem State.setChan_fld (s : State) (c : Nat) (v : Chan) (x : Nat) (y : FieldRef) : (s.setChan c v).fld x y = s.fld x y := by simp [State.fld]
@[simp] theorem State.setChan_stored (s : State) (c : Nat) (v : Chan) (x : Nat) (y : FieldRef) : (s.setChan c v).stored x y = s.stored x y := by simp [State.stored]
@[simp] theorem State.setChan_flag (s : State) (c : Nat) (v : Chan) (x : Nat) (y : FieldRef) : (s.setChan c v).flag x y = s.flag x y := by simp [State.flag]

/-! `setTile` -/

@[simp] theorem State.setTile_now (s : State) (t : Fin 16) (v : Tile) : (s.setTile t v).now = s.now := by simp only [State.setTile]
@[simp] theorem State.setTile_frame (s : State) (t : Fin 16) (v : Tile) : (s.setTile t v).frame = s.frame := by simp only [State.setTile]
@[simp] theorem State.setTile_running (s : State) (t : Fin 16) (v : Tile) : (s.setTile t v).running = s.running := by simp only [State.setTile]
@[simp] theorem State.setTile_regs (s : State) (t : Fin 16) (v : Tile) : (s.setTile t v).regs = s.regs := by simp only [State.setTile]
@[simp] theorem State.setTile_stale (s : State) (t : Fin 16) (v : Tile) : (s.setTile t v).stale = s.stale := by simp only [State.setTile]
@[simp] theorem State.setTile_pendW (s : State) (t : Fin 16) (v : Tile) : (s.setTile t v).pendW = s.pendW := by simp only [State.setTile]
@[simp] theorem State.setTile_eventQ (s : State) (t : Fin 16) (v : Tile) : (s.setTile t v).eventQ = s.eventQ := by simp only [State.setTile]
@[simp] theorem State.setTile_chans (s : State) (t : Fin 16) (v : Tile) : (s.setTile t v).chans = s.chans := by simp only [State.setTile]
@[simp] theorem State.setTile_tac (s : State) (t : Fin 16) (v : Tile) : (s.setTile t v).tac = s.tac := by simp only [State.setTile]
@[simp] theorem State.setTile_tacStaged (s : State) (t : Fin 16) (v : Tile) : (s.setTile t v).tacStaged = s.tacStaged := by simp only [State.setTile]
@[simp] theorem State.setTile_tacPoison (s : State) (t : Fin 16) (v : Tile) : (s.setTile t v).tacPoison = s.tacPoison := by simp only [State.setTile]
@[simp] theorem State.setTile_rwsStaged (s : State) (t : Fin 16) (v : Tile) : (s.setTile t v).rwsStaged = s.rwsStaged := by simp only [State.setTile]
@[simp] theorem State.setTile_concA (s : State) (t : Fin 16) (v : Tile) : (s.setTile t v).concA = s.concA := by simp only [State.setTile]
@[simp] theorem State.setTile_concB (s : State) (t : Fin 16) (v : Tile) : (s.setTile t v).concB = s.concB := by simp only [State.setTile]
@[simp] theorem State.setTile_frames (s : State) (t : Fin 16) (v : Tile) : (s.setTile t v).frames = s.frames := by simp only [State.setTile]
@[simp] theorem State.setTile_trig (s : State) (t : Fin 16) (v : Tile) : (s.setTile t v).trig = s.trig := by simp only [State.setTile]
@[simp] theorem State.setTile_time (s : State) (t : Fin 16) (v : Tile) : (s.setTile t v).time = s.time := by simp only [State.setTile]
@[simp] theorem State.setTile_lastCorr (s : State) (t : Fin 16) (v : Tile) : (s.setTile t v).lastCorr = s.lastCorr := by simp only [State.setTile]
@[simp] theorem State.setTile_scrubs (s : State) (t : Fin 16) (v : Tile) : (s.setTile t v).scrubs = s.scrubs := by simp only [State.setTile]
@[simp] theorem State.setTile_writeBacks (s : State) (t : Fin 16) (v : Tile) : (s.setTile t v).writeBacks = s.writeBacks := by simp only [State.setTile]
@[simp] theorem State.setTile_integ (s : State) (t : Fin 16) (v : Tile) : (s.setTile t v).integ = s.integ := by simp only [State.setTile]
@[simp] theorem State.setTile_stick (s : State) (t : Fin 16) (v : Tile) : (s.setTile t v).stick = s.stick := by simp only [State.setTile]
@[simp] theorem State.setTile_cal (s : State) (t : Fin 16) (v : Tile) : (s.setTile t v).cal = s.cal := by simp only [State.setTile]
@[simp] theorem State.setTile_mon (s : State) (t : Fin 16) (v : Tile) : (s.setTile t v).mon = s.mon := by simp only [State.setTile]
@[simp] theorem State.setTile_fwu (s : State) (t : Fin 16) (v : Tile) : (s.setTile t v).fwu = s.fwu := by simp only [State.setTile]
@[simp] theorem State.setTile_pow (s : State) (t : Fin 16) (v : Tile) : (s.setTile t v).pow = s.pow := by simp only [State.setTile]
@[simp] theorem State.setTile_tap (s : State) (t : Fin 16) (v : Tile) : (s.setTile t v).tap = s.tap := by simp only [State.setTile]
@[simp] theorem State.setTile_um0 (s : State) (t : Fin 16) (v : Tile) : (s.setTile t v).um0 = s.um0 := by simp only [State.setTile]
@[simp] theorem State.setTile_um1 (s : State) (t : Fin 16) (v : Tile) : (s.setTile t v).um1 = s.um1 := by simp only [State.setTile]
@[simp] theorem State.setTile_peal (s : State) (t : Fin 16) (v : Tile) : (s.setTile t v).peal = s.peal := by simp only [State.setTile]
@[simp] theorem State.setTile_mixedFrom (s : State) (t : Fin 16) (v : Tile) : (s.setTile t v).mixedFrom = s.mixedFrom := by simp only [State.setTile]
@[simp] theorem State.setTile_unlocks (s : State) (t : Fin 16) (v : Tile) : (s.setTile t v).unlocks = s.unlocks := by simp only [State.setTile]
@[simp] theorem State.setTile_journal (s : State) (t : Fin 16) (v : Tile) : (s.setTile t v).journal = s.journal := by simp only [State.setTile]
@[simp] theorem State.setTile_saved (s : State) (t : Fin 16) (v : Tile) : (s.setTile t v).saved = s.saved := by simp only [State.setTile]
@[simp] theorem State.setTile_savedStaged (s : State) (t : Fin 16) (v : Tile) : (s.setTile t v).savedStaged = s.savedStaged := by simp only [State.setTile]
@[simp] theorem State.setTile_savedTac (s : State) (t : Fin 16) (v : Tile) : (s.setTile t v).savedTac = s.savedTac := by simp only [State.setTile]
@[simp] theorem State.setTile_jseq (s : State) (t : Fin 16) (v : Tile) : (s.setTile t v).jseq = s.jseq := by simp only [State.setTile]
@[simp] theorem State.setTile_savedEpoch (s : State) (t : Fin 16) (v : Tile) : (s.setTile t v).savedEpoch = s.savedEpoch := by simp only [State.setTile]
@[simp] theorem State.setTile_savedCorr (s : State) (t : Fin 16) (v : Tile) : (s.setTile t v).savedCorr = s.savedCorr := by simp only [State.setTile]
@[simp] theorem State.setTile_mramCorr (s : State) (t : Fin 16) (v : Tile) : (s.setTile t v).mramCorr = s.mramCorr := by simp only [State.setTile]
@[simp] theorem State.setTile_mramTac (s : State) (t : Fin 16) (v : Tile) : (s.setTile t v).mramTac = s.mramTac := by simp only [State.setTile]
@[simp] theorem State.setTile_mramTap (s : State) (t : Fin 16) (v : Tile) : (s.setTile t v).mramTap = s.mramTap := by simp only [State.setTile]
@[simp] theorem State.setTile_freeCount (s : State) (t : Fin 16) (v : Tile) : (s.setTile t v).freeCount = s.freeCount := by simp only [State.setTile]
@[simp] theorem State.setTile_pending (s : State) (t : Fin 16) (v : Tile) : (s.setTile t v).pending = s.pending := by simp only [State.setTile]
@[simp] theorem State.setTile_chan (s : State) (t : Fin 16) (v : Tile) (x : Nat) : (s.setTile t v).chan x = s.chan x := by simp [State.chan]
@[simp] theorem State.setTile_conc (s : State) (t : Fin 16) (v : Tile) (x : Conc) : (s.setTile t v).conc x = s.conc x := by cases x <;> simp [State.conc]
@[simp] theorem State.setTile_um (s : State) (t : Fin 16) (v : Tile) (x : Um) : (s.setTile t v).um x = s.um x := by cases x <;> simp [State.um]
@[simp] theorem State.setTile_rx (s : State) (t : Fin 16) (v : Tile) (x : Conc) (y : Fin 16) : (s.setTile t v).rx x y = s.rx x y := by simp [State.rx]
@[simp] theorem State.setTile_rd (s : State) (t : Fin 16) (v : Tile) (x y : Nat) : (s.setTile t v).rd x y = s.rd x y := by simp [State.rd]
@[simp] theorem State.setTile_live (s : State) (t : Fin 16) (v : Tile) (x y : Nat) : (s.setTile t v).live x y = s.live x y := by simp [State.live]
@[simp] theorem State.setTile_fld (s : State) (t : Fin 16) (v : Tile) (x : Nat) (y : FieldRef) : (s.setTile t v).fld x y = s.fld x y := by simp [State.fld]
@[simp] theorem State.setTile_stored (s : State) (t : Fin 16) (v : Tile) (x : Nat) (y : FieldRef) : (s.setTile t v).stored x y = s.stored x y := by simp [State.stored]
@[simp] theorem State.setTile_flag (s : State) (t : Fin 16) (v : Tile) (x : Nat) (y : FieldRef) : (s.setTile t v).flag x y = s.flag x y := by simp [State.flag]

/-! `setPort` -/

@[simp] theorem State.setPort_now (s : State) (t : Fin 16) (c : Conc) (v : Port) : (s.setPort t c v).now = s.now := by simp [State.setPort]
@[simp] theorem State.setPort_frame (s : State) (t : Fin 16) (c : Conc) (v : Port) : (s.setPort t c v).frame = s.frame := by simp [State.setPort]
@[simp] theorem State.setPort_running (s : State) (t : Fin 16) (c : Conc) (v : Port) : (s.setPort t c v).running = s.running := by simp [State.setPort]
@[simp] theorem State.setPort_regs (s : State) (t : Fin 16) (c : Conc) (v : Port) : (s.setPort t c v).regs = s.regs := by simp [State.setPort]
@[simp] theorem State.setPort_stale (s : State) (t : Fin 16) (c : Conc) (v : Port) : (s.setPort t c v).stale = s.stale := by simp [State.setPort]
@[simp] theorem State.setPort_pendW (s : State) (t : Fin 16) (c : Conc) (v : Port) : (s.setPort t c v).pendW = s.pendW := by simp [State.setPort]
@[simp] theorem State.setPort_eventQ (s : State) (t : Fin 16) (c : Conc) (v : Port) : (s.setPort t c v).eventQ = s.eventQ := by simp [State.setPort]
@[simp] theorem State.setPort_chans (s : State) (t : Fin 16) (c : Conc) (v : Port) : (s.setPort t c v).chans = s.chans := by simp [State.setPort]
@[simp] theorem State.setPort_tac (s : State) (t : Fin 16) (c : Conc) (v : Port) : (s.setPort t c v).tac = s.tac := by simp [State.setPort]
@[simp] theorem State.setPort_tacStaged (s : State) (t : Fin 16) (c : Conc) (v : Port) : (s.setPort t c v).tacStaged = s.tacStaged := by simp [State.setPort]
@[simp] theorem State.setPort_tacPoison (s : State) (t : Fin 16) (c : Conc) (v : Port) : (s.setPort t c v).tacPoison = s.tacPoison := by simp [State.setPort]
@[simp] theorem State.setPort_rwsStaged (s : State) (t : Fin 16) (c : Conc) (v : Port) : (s.setPort t c v).rwsStaged = s.rwsStaged := by simp [State.setPort]
@[simp] theorem State.setPort_concA (s : State) (t : Fin 16) (c : Conc) (v : Port) : (s.setPort t c v).concA = s.concA := by simp [State.setPort]
@[simp] theorem State.setPort_concB (s : State) (t : Fin 16) (c : Conc) (v : Port) : (s.setPort t c v).concB = s.concB := by simp [State.setPort]
@[simp] theorem State.setPort_frames (s : State) (t : Fin 16) (c : Conc) (v : Port) : (s.setPort t c v).frames = s.frames := by simp [State.setPort]
@[simp] theorem State.setPort_trig (s : State) (t : Fin 16) (c : Conc) (v : Port) : (s.setPort t c v).trig = s.trig := by simp [State.setPort]
@[simp] theorem State.setPort_time (s : State) (t : Fin 16) (c : Conc) (v : Port) : (s.setPort t c v).time = s.time := by simp [State.setPort]
@[simp] theorem State.setPort_lastCorr (s : State) (t : Fin 16) (c : Conc) (v : Port) : (s.setPort t c v).lastCorr = s.lastCorr := by simp [State.setPort]
@[simp] theorem State.setPort_scrubs (s : State) (t : Fin 16) (c : Conc) (v : Port) : (s.setPort t c v).scrubs = s.scrubs := by simp [State.setPort]
@[simp] theorem State.setPort_writeBacks (s : State) (t : Fin 16) (c : Conc) (v : Port) : (s.setPort t c v).writeBacks = s.writeBacks := by simp [State.setPort]
@[simp] theorem State.setPort_integ (s : State) (t : Fin 16) (c : Conc) (v : Port) : (s.setPort t c v).integ = s.integ := by simp [State.setPort]
@[simp] theorem State.setPort_stick (s : State) (t : Fin 16) (c : Conc) (v : Port) : (s.setPort t c v).stick = s.stick := by simp [State.setPort]
@[simp] theorem State.setPort_cal (s : State) (t : Fin 16) (c : Conc) (v : Port) : (s.setPort t c v).cal = s.cal := by simp [State.setPort]
@[simp] theorem State.setPort_mon (s : State) (t : Fin 16) (c : Conc) (v : Port) : (s.setPort t c v).mon = s.mon := by simp [State.setPort]
@[simp] theorem State.setPort_fwu (s : State) (t : Fin 16) (c : Conc) (v : Port) : (s.setPort t c v).fwu = s.fwu := by simp [State.setPort]
@[simp] theorem State.setPort_pow (s : State) (t : Fin 16) (c : Conc) (v : Port) : (s.setPort t c v).pow = s.pow := by simp [State.setPort]
@[simp] theorem State.setPort_tap (s : State) (t : Fin 16) (c : Conc) (v : Port) : (s.setPort t c v).tap = s.tap := by simp [State.setPort]
@[simp] theorem State.setPort_um0 (s : State) (t : Fin 16) (c : Conc) (v : Port) : (s.setPort t c v).um0 = s.um0 := by simp [State.setPort]
@[simp] theorem State.setPort_um1 (s : State) (t : Fin 16) (c : Conc) (v : Port) : (s.setPort t c v).um1 = s.um1 := by simp [State.setPort]
@[simp] theorem State.setPort_peal (s : State) (t : Fin 16) (c : Conc) (v : Port) : (s.setPort t c v).peal = s.peal := by simp [State.setPort]
@[simp] theorem State.setPort_mixedFrom (s : State) (t : Fin 16) (c : Conc) (v : Port) : (s.setPort t c v).mixedFrom = s.mixedFrom := by simp [State.setPort]
@[simp] theorem State.setPort_unlocks (s : State) (t : Fin 16) (c : Conc) (v : Port) : (s.setPort t c v).unlocks = s.unlocks := by simp [State.setPort]
@[simp] theorem State.setPort_journal (s : State) (t : Fin 16) (c : Conc) (v : Port) : (s.setPort t c v).journal = s.journal := by simp [State.setPort]
@[simp] theorem State.setPort_saved (s : State) (t : Fin 16) (c : Conc) (v : Port) : (s.setPort t c v).saved = s.saved := by simp [State.setPort]
@[simp] theorem State.setPort_savedStaged (s : State) (t : Fin 16) (c : Conc) (v : Port) : (s.setPort t c v).savedStaged = s.savedStaged := by simp [State.setPort]
@[simp] theorem State.setPort_savedTac (s : State) (t : Fin 16) (c : Conc) (v : Port) : (s.setPort t c v).savedTac = s.savedTac := by simp [State.setPort]
@[simp] theorem State.setPort_jseq (s : State) (t : Fin 16) (c : Conc) (v : Port) : (s.setPort t c v).jseq = s.jseq := by simp [State.setPort]
@[simp] theorem State.setPort_savedEpoch (s : State) (t : Fin 16) (c : Conc) (v : Port) : (s.setPort t c v).savedEpoch = s.savedEpoch := by simp [State.setPort]
@[simp] theorem State.setPort_savedCorr (s : State) (t : Fin 16) (c : Conc) (v : Port) : (s.setPort t c v).savedCorr = s.savedCorr := by simp [State.setPort]
@[simp] theorem State.setPort_mramCorr (s : State) (t : Fin 16) (c : Conc) (v : Port) : (s.setPort t c v).mramCorr = s.mramCorr := by simp [State.setPort]
@[simp] theorem State.setPort_mramTac (s : State) (t : Fin 16) (c : Conc) (v : Port) : (s.setPort t c v).mramTac = s.mramTac := by simp [State.setPort]
@[simp] theorem State.setPort_mramTap (s : State) (t : Fin 16) (c : Conc) (v : Port) : (s.setPort t c v).mramTap = s.mramTap := by simp [State.setPort]
@[simp] theorem State.setPort_freeCount (s : State) (t : Fin 16) (c : Conc) (v : Port) : (s.setPort t c v).freeCount = s.freeCount := by simp [State.setPort]
@[simp] theorem State.setPort_pending (s : State) (t : Fin 16) (c : Conc) (v : Port) : (s.setPort t c v).pending = s.pending := by simp [State.setPort]
@[simp] theorem State.setPort_chan (s : State) (t : Fin 16) (c : Conc) (v : Port) (x : Nat) : (s.setPort t c v).chan x = s.chan x := by simp [State.chan]
@[simp] theorem State.setPort_conc (s : State) (t : Fin 16) (c : Conc) (v : Port) (x : Conc) : (s.setPort t c v).conc x = s.conc x := by cases x <;> simp [State.conc]
@[simp] theorem State.setPort_um (s : State) (t : Fin 16) (c : Conc) (v : Port) (x : Um) : (s.setPort t c v).um x = s.um x := by cases x <;> simp [State.um]
@[simp] theorem State.setPort_rx (s : State) (t : Fin 16) (c : Conc) (v : Port) (x : Conc) (y : Fin 16) : (s.setPort t c v).rx x y = s.rx x y := by simp [State.rx]
@[simp] theorem State.setPort_rd (s : State) (t : Fin 16) (c : Conc) (v : Port) (x y : Nat) : (s.setPort t c v).rd x y = s.rd x y := by simp [State.rd]
@[simp] theorem State.setPort_live (s : State) (t : Fin 16) (c : Conc) (v : Port) (x y : Nat) : (s.setPort t c v).live x y = s.live x y := by simp [State.live]
@[simp] theorem State.setPort_fld (s : State) (t : Fin 16) (c : Conc) (v : Port) (x : Nat) (y : FieldRef) : (s.setPort t c v).fld x y = s.fld x y := by simp [State.fld]
@[simp] theorem State.setPort_stored (s : State) (t : Fin 16) (c : Conc) (v : Port) (x : Nat) (y : FieldRef) : (s.setPort t c v).stored x y = s.stored x y := by simp [State.stored]
@[simp] theorem State.setPort_flag (s : State) (t : Fin 16) (c : Conc) (v : Port) (x : Nat) (y : FieldRef) : (s.setPort t c v).flag x y = s.flag x y := by simp [State.flag]

/-! `setConc` -/

@[simp] theorem State.setConc_now (s : State) (c : Conc) (v : ConcSt) : (s.setConc c v).now = s.now := by cases c <;> simp only [State.setConc]
@[simp] theorem State.setConc_frame (s : State) (c : Conc) (v : ConcSt) : (s.setConc c v).frame = s.frame := by cases c <;> simp only [State.setConc]
@[simp] theorem State.setConc_running (s : State) (c : Conc) (v : ConcSt) : (s.setConc c v).running = s.running := by cases c <;> simp only [State.setConc]
@[simp] theorem State.setConc_regs (s : State) (c : Conc) (v : ConcSt) : (s.setConc c v).regs = s.regs := by cases c <;> simp only [State.setConc]
@[simp] theorem State.setConc_stale (s : State) (c : Conc) (v : ConcSt) : (s.setConc c v).stale = s.stale := by cases c <;> simp only [State.setConc]
@[simp] theorem State.setConc_pendW (s : State) (c : Conc) (v : ConcSt) : (s.setConc c v).pendW = s.pendW := by cases c <;> simp only [State.setConc]
@[simp] theorem State.setConc_eventQ (s : State) (c : Conc) (v : ConcSt) : (s.setConc c v).eventQ = s.eventQ := by cases c <;> simp only [State.setConc]
@[simp] theorem State.setConc_chans (s : State) (c : Conc) (v : ConcSt) : (s.setConc c v).chans = s.chans := by cases c <;> simp only [State.setConc]
@[simp] theorem State.setConc_tiles (s : State) (c : Conc) (v : ConcSt) : (s.setConc c v).tiles = s.tiles := by cases c <;> simp only [State.setConc]
@[simp] theorem State.setConc_tac (s : State) (c : Conc) (v : ConcSt) : (s.setConc c v).tac = s.tac := by cases c <;> simp only [State.setConc]
@[simp] theorem State.setConc_tacStaged (s : State) (c : Conc) (v : ConcSt) : (s.setConc c v).tacStaged = s.tacStaged := by cases c <;> simp only [State.setConc]
@[simp] theorem State.setConc_tacPoison (s : State) (c : Conc) (v : ConcSt) : (s.setConc c v).tacPoison = s.tacPoison := by cases c <;> simp only [State.setConc]
@[simp] theorem State.setConc_rwsStaged (s : State) (c : Conc) (v : ConcSt) : (s.setConc c v).rwsStaged = s.rwsStaged := by cases c <;> simp only [State.setConc]
@[simp] theorem State.setConc_frames (s : State) (c : Conc) (v : ConcSt) : (s.setConc c v).frames = s.frames := by cases c <;> simp only [State.setConc]
@[simp] theorem State.setConc_trig (s : State) (c : Conc) (v : ConcSt) : (s.setConc c v).trig = s.trig := by cases c <;> simp only [State.setConc]
@[simp] theorem State.setConc_time (s : State) (c : Conc) (v : ConcSt) : (s.setConc c v).time = s.time := by cases c <;> simp only [State.setConc]
@[simp] theorem State.setConc_lastCorr (s : State) (c : Conc) (v : ConcSt) : (s.setConc c v).lastCorr = s.lastCorr := by cases c <;> simp only [State.setConc]
@[simp] theorem State.setConc_scrubs (s : State) (c : Conc) (v : ConcSt) : (s.setConc c v).scrubs = s.scrubs := by cases c <;> simp only [State.setConc]
@[simp] theorem State.setConc_writeBacks (s : State) (c : Conc) (v : ConcSt) : (s.setConc c v).writeBacks = s.writeBacks := by cases c <;> simp only [State.setConc]
@[simp] theorem State.setConc_integ (s : State) (c : Conc) (v : ConcSt) : (s.setConc c v).integ = s.integ := by cases c <;> simp only [State.setConc]
@[simp] theorem State.setConc_stick (s : State) (c : Conc) (v : ConcSt) : (s.setConc c v).stick = s.stick := by cases c <;> simp only [State.setConc]
@[simp] theorem State.setConc_cal (s : State) (c : Conc) (v : ConcSt) : (s.setConc c v).cal = s.cal := by cases c <;> simp only [State.setConc]
@[simp] theorem State.setConc_mon (s : State) (c : Conc) (v : ConcSt) : (s.setConc c v).mon = s.mon := by cases c <;> simp only [State.setConc]
@[simp] theorem State.setConc_fwu (s : State) (c : Conc) (v : ConcSt) : (s.setConc c v).fwu = s.fwu := by cases c <;> simp only [State.setConc]
@[simp] theorem State.setConc_pow (s : State) (c : Conc) (v : ConcSt) : (s.setConc c v).pow = s.pow := by cases c <;> simp only [State.setConc]
@[simp] theorem State.setConc_tap (s : State) (c : Conc) (v : ConcSt) : (s.setConc c v).tap = s.tap := by cases c <;> simp only [State.setConc]
@[simp] theorem State.setConc_um0 (s : State) (c : Conc) (v : ConcSt) : (s.setConc c v).um0 = s.um0 := by cases c <;> simp only [State.setConc]
@[simp] theorem State.setConc_um1 (s : State) (c : Conc) (v : ConcSt) : (s.setConc c v).um1 = s.um1 := by cases c <;> simp only [State.setConc]
@[simp] theorem State.setConc_peal (s : State) (c : Conc) (v : ConcSt) : (s.setConc c v).peal = s.peal := by cases c <;> simp only [State.setConc]
@[simp] theorem State.setConc_mixedFrom (s : State) (c : Conc) (v : ConcSt) : (s.setConc c v).mixedFrom = s.mixedFrom := by cases c <;> simp only [State.setConc]
@[simp] theorem State.setConc_unlocks (s : State) (c : Conc) (v : ConcSt) : (s.setConc c v).unlocks = s.unlocks := by cases c <;> simp only [State.setConc]
@[simp] theorem State.setConc_journal (s : State) (c : Conc) (v : ConcSt) : (s.setConc c v).journal = s.journal := by cases c <;> simp only [State.setConc]
@[simp] theorem State.setConc_saved (s : State) (c : Conc) (v : ConcSt) : (s.setConc c v).saved = s.saved := by cases c <;> simp only [State.setConc]
@[simp] theorem State.setConc_savedStaged (s : State) (c : Conc) (v : ConcSt) : (s.setConc c v).savedStaged = s.savedStaged := by cases c <;> simp only [State.setConc]
@[simp] theorem State.setConc_savedTac (s : State) (c : Conc) (v : ConcSt) : (s.setConc c v).savedTac = s.savedTac := by cases c <;> simp only [State.setConc]
@[simp] theorem State.setConc_jseq (s : State) (c : Conc) (v : ConcSt) : (s.setConc c v).jseq = s.jseq := by cases c <;> simp only [State.setConc]
@[simp] theorem State.setConc_savedEpoch (s : State) (c : Conc) (v : ConcSt) : (s.setConc c v).savedEpoch = s.savedEpoch := by cases c <;> simp only [State.setConc]
@[simp] theorem State.setConc_savedCorr (s : State) (c : Conc) (v : ConcSt) : (s.setConc c v).savedCorr = s.savedCorr := by cases c <;> simp only [State.setConc]
@[simp] theorem State.setConc_mramCorr (s : State) (c : Conc) (v : ConcSt) : (s.setConc c v).mramCorr = s.mramCorr := by cases c <;> simp only [State.setConc]
@[simp] theorem State.setConc_mramTac (s : State) (c : Conc) (v : ConcSt) : (s.setConc c v).mramTac = s.mramTac := by cases c <;> simp only [State.setConc]
@[simp] theorem State.setConc_mramTap (s : State) (c : Conc) (v : ConcSt) : (s.setConc c v).mramTap = s.mramTap := by cases c <;> simp only [State.setConc]
@[simp] theorem State.setConc_freeCount (s : State) (c : Conc) (v : ConcSt) : (s.setConc c v).freeCount = s.freeCount := by cases c <;> simp only [State.setConc]
@[simp] theorem State.setConc_pending (s : State) (c : Conc) (v : ConcSt) : (s.setConc c v).pending = s.pending := by cases c <;> simp only [State.setConc]
@[simp] theorem State.setConc_chan (s : State) (c : Conc) (v : ConcSt) (x : Nat) : (s.setConc c v).chan x = s.chan x := by simp [State.chan]
@[simp] theorem State.setConc_tile (s : State) (c : Conc) (v : ConcSt) (x : Fin 16) : (s.setConc c v).tile x = s.tile x := by simp [State.tile]
@[simp] theorem State.setConc_um (s : State) (c : Conc) (v : ConcSt) (x : Um) : (s.setConc c v).um x = s.um x := by cases x <;> simp [State.um]
@[simp] theorem State.setConc_port (s : State) (c : Conc) (v : ConcSt) (x : Fin 16) (y : Conc) : (s.setConc c v).port x y = s.port x y := by simp [State.port]
@[simp] theorem State.setConc_rd (s : State) (c : Conc) (v : ConcSt) (x y : Nat) : (s.setConc c v).rd x y = s.rd x y := by simp [State.rd]
@[simp] theorem State.setConc_live (s : State) (c : Conc) (v : ConcSt) (x y : Nat) : (s.setConc c v).live x y = s.live x y := by simp [State.live]
@[simp] theorem State.setConc_fld (s : State) (c : Conc) (v : ConcSt) (x : Nat) (y : FieldRef) : (s.setConc c v).fld x y = s.fld x y := by simp [State.fld]
@[simp] theorem State.setConc_stored (s : State) (c : Conc) (v : ConcSt) (x : Nat) (y : FieldRef) : (s.setConc c v).stored x y = s.stored x y := by simp [State.stored]
@[simp] theorem State.setConc_flag (s : State) (c : Conc) (v : ConcSt) (x : Nat) (y : FieldRef) : (s.setConc c v).flag x y = s.flag x y := by simp [State.flag]

/-! `setUm` -/

@[simp] theorem State.setUm_now (s : State) (u : Um) (v : UmSt) : (s.setUm u v).now = s.now := by cases u <;> simp only [State.setUm]
@[simp] theorem State.setUm_frame (s : State) (u : Um) (v : UmSt) : (s.setUm u v).frame = s.frame := by cases u <;> simp only [State.setUm]
@[simp] theorem State.setUm_running (s : State) (u : Um) (v : UmSt) : (s.setUm u v).running = s.running := by cases u <;> simp only [State.setUm]
@[simp] theorem State.setUm_regs (s : State) (u : Um) (v : UmSt) : (s.setUm u v).regs = s.regs := by cases u <;> simp only [State.setUm]
@[simp] theorem State.setUm_stale (s : State) (u : Um) (v : UmSt) : (s.setUm u v).stale = s.stale := by cases u <;> simp only [State.setUm]
@[simp] theorem State.setUm_pendW (s : State) (u : Um) (v : UmSt) : (s.setUm u v).pendW = s.pendW := by cases u <;> simp only [State.setUm]
@[simp] theorem State.setUm_eventQ (s : State) (u : Um) (v : UmSt) : (s.setUm u v).eventQ = s.eventQ := by cases u <;> simp only [State.setUm]
@[simp] theorem State.setUm_chans (s : State) (u : Um) (v : UmSt) : (s.setUm u v).chans = s.chans := by cases u <;> simp only [State.setUm]
@[simp] theorem State.setUm_tiles (s : State) (u : Um) (v : UmSt) : (s.setUm u v).tiles = s.tiles := by cases u <;> simp only [State.setUm]
@[simp] theorem State.setUm_tac (s : State) (u : Um) (v : UmSt) : (s.setUm u v).tac = s.tac := by cases u <;> simp only [State.setUm]
@[simp] theorem State.setUm_tacStaged (s : State) (u : Um) (v : UmSt) : (s.setUm u v).tacStaged = s.tacStaged := by cases u <;> simp only [State.setUm]
@[simp] theorem State.setUm_tacPoison (s : State) (u : Um) (v : UmSt) : (s.setUm u v).tacPoison = s.tacPoison := by cases u <;> simp only [State.setUm]
@[simp] theorem State.setUm_rwsStaged (s : State) (u : Um) (v : UmSt) : (s.setUm u v).rwsStaged = s.rwsStaged := by cases u <;> simp only [State.setUm]
@[simp] theorem State.setUm_concA (s : State) (u : Um) (v : UmSt) : (s.setUm u v).concA = s.concA := by cases u <;> simp only [State.setUm]
@[simp] theorem State.setUm_concB (s : State) (u : Um) (v : UmSt) : (s.setUm u v).concB = s.concB := by cases u <;> simp only [State.setUm]
@[simp] theorem State.setUm_frames (s : State) (u : Um) (v : UmSt) : (s.setUm u v).frames = s.frames := by cases u <;> simp only [State.setUm]
@[simp] theorem State.setUm_trig (s : State) (u : Um) (v : UmSt) : (s.setUm u v).trig = s.trig := by cases u <;> simp only [State.setUm]
@[simp] theorem State.setUm_time (s : State) (u : Um) (v : UmSt) : (s.setUm u v).time = s.time := by cases u <;> simp only [State.setUm]
@[simp] theorem State.setUm_lastCorr (s : State) (u : Um) (v : UmSt) : (s.setUm u v).lastCorr = s.lastCorr := by cases u <;> simp only [State.setUm]
@[simp] theorem State.setUm_scrubs (s : State) (u : Um) (v : UmSt) : (s.setUm u v).scrubs = s.scrubs := by cases u <;> simp only [State.setUm]
@[simp] theorem State.setUm_writeBacks (s : State) (u : Um) (v : UmSt) : (s.setUm u v).writeBacks = s.writeBacks := by cases u <;> simp only [State.setUm]
@[simp] theorem State.setUm_integ (s : State) (u : Um) (v : UmSt) : (s.setUm u v).integ = s.integ := by cases u <;> simp only [State.setUm]
@[simp] theorem State.setUm_stick (s : State) (u : Um) (v : UmSt) : (s.setUm u v).stick = s.stick := by cases u <;> simp only [State.setUm]
@[simp] theorem State.setUm_cal (s : State) (u : Um) (v : UmSt) : (s.setUm u v).cal = s.cal := by cases u <;> simp only [State.setUm]
@[simp] theorem State.setUm_mon (s : State) (u : Um) (v : UmSt) : (s.setUm u v).mon = s.mon := by cases u <;> simp only [State.setUm]
@[simp] theorem State.setUm_fwu (s : State) (u : Um) (v : UmSt) : (s.setUm u v).fwu = s.fwu := by cases u <;> simp only [State.setUm]
@[simp] theorem State.setUm_pow (s : State) (u : Um) (v : UmSt) : (s.setUm u v).pow = s.pow := by cases u <;> simp only [State.setUm]
@[simp] theorem State.setUm_tap (s : State) (u : Um) (v : UmSt) : (s.setUm u v).tap = s.tap := by cases u <;> simp only [State.setUm]
@[simp] theorem State.setUm_peal (s : State) (u : Um) (v : UmSt) : (s.setUm u v).peal = s.peal := by cases u <;> simp only [State.setUm]
@[simp] theorem State.setUm_mixedFrom (s : State) (u : Um) (v : UmSt) : (s.setUm u v).mixedFrom = s.mixedFrom := by cases u <;> simp only [State.setUm]
@[simp] theorem State.setUm_unlocks (s : State) (u : Um) (v : UmSt) : (s.setUm u v).unlocks = s.unlocks := by cases u <;> simp only [State.setUm]
@[simp] theorem State.setUm_journal (s : State) (u : Um) (v : UmSt) : (s.setUm u v).journal = s.journal := by cases u <;> simp only [State.setUm]
@[simp] theorem State.setUm_saved (s : State) (u : Um) (v : UmSt) : (s.setUm u v).saved = s.saved := by cases u <;> simp only [State.setUm]
@[simp] theorem State.setUm_savedStaged (s : State) (u : Um) (v : UmSt) : (s.setUm u v).savedStaged = s.savedStaged := by cases u <;> simp only [State.setUm]
@[simp] theorem State.setUm_savedTac (s : State) (u : Um) (v : UmSt) : (s.setUm u v).savedTac = s.savedTac := by cases u <;> simp only [State.setUm]
@[simp] theorem State.setUm_jseq (s : State) (u : Um) (v : UmSt) : (s.setUm u v).jseq = s.jseq := by cases u <;> simp only [State.setUm]
@[simp] theorem State.setUm_savedEpoch (s : State) (u : Um) (v : UmSt) : (s.setUm u v).savedEpoch = s.savedEpoch := by cases u <;> simp only [State.setUm]
@[simp] theorem State.setUm_savedCorr (s : State) (u : Um) (v : UmSt) : (s.setUm u v).savedCorr = s.savedCorr := by cases u <;> simp only [State.setUm]
@[simp] theorem State.setUm_mramCorr (s : State) (u : Um) (v : UmSt) : (s.setUm u v).mramCorr = s.mramCorr := by cases u <;> simp only [State.setUm]
@[simp] theorem State.setUm_mramTac (s : State) (u : Um) (v : UmSt) : (s.setUm u v).mramTac = s.mramTac := by cases u <;> simp only [State.setUm]
@[simp] theorem State.setUm_mramTap (s : State) (u : Um) (v : UmSt) : (s.setUm u v).mramTap = s.mramTap := by cases u <;> simp only [State.setUm]
@[simp] theorem State.setUm_freeCount (s : State) (u : Um) (v : UmSt) : (s.setUm u v).freeCount = s.freeCount := by cases u <;> simp only [State.setUm]
@[simp] theorem State.setUm_pending (s : State) (u : Um) (v : UmSt) : (s.setUm u v).pending = s.pending := by cases u <;> simp only [State.setUm]
@[simp] theorem State.setUm_chan (s : State) (u : Um) (v : UmSt) (x : Nat) : (s.setUm u v).chan x = s.chan x := by simp [State.chan]
@[simp] theorem State.setUm_tile (s : State) (u : Um) (v : UmSt) (x : Fin 16) : (s.setUm u v).tile x = s.tile x := by simp [State.tile]
@[simp] theorem State.setUm_conc (s : State) (u : Um) (v : UmSt) (x : Conc) : (s.setUm u v).conc x = s.conc x := by cases x <;> simp [State.conc]
@[simp] theorem State.setUm_port (s : State) (u : Um) (v : UmSt) (x : Fin 16) (y : Conc) : (s.setUm u v).port x y = s.port x y := by simp [State.port]
@[simp] theorem State.setUm_rx (s : State) (u : Um) (v : UmSt) (x : Conc) (y : Fin 16) : (s.setUm u v).rx x y = s.rx x y := by simp [State.rx]
@[simp] theorem State.setUm_rd (s : State) (u : Um) (v : UmSt) (x y : Nat) : (s.setUm u v).rd x y = s.rd x y := by simp [State.rd]
@[simp] theorem State.setUm_live (s : State) (u : Um) (v : UmSt) (x y : Nat) : (s.setUm u v).live x y = s.live x y := by simp [State.live]
@[simp] theorem State.setUm_fld (s : State) (u : Um) (v : UmSt) (x : Nat) (y : FieldRef) : (s.setUm u v).fld x y = s.fld x y := by simp [State.fld]
@[simp] theorem State.setUm_stored (s : State) (u : Um) (v : UmSt) (x : Nat) (y : FieldRef) : (s.setUm u v).stored x y = s.stored x y := by simp [State.stored]
@[simp] theorem State.setUm_flag (s : State) (u : Um) (v : UmSt) (x : Nat) (y : FieldRef) : (s.setUm u v).flag x y = s.flag x y := by simp [State.flag]

/-! `setRx` -/

@[simp] theorem State.setRx_now (s : State) (c : Conc) (t : Fin 16) (v : Rx) : (s.setRx c t v).now = s.now := by simp [State.setRx]
@[simp] theorem State.setRx_frame (s : State) (c : Conc) (t : Fin 16) (v : Rx) : (s.setRx c t v).frame = s.frame := by simp [State.setRx]
@[simp] theorem State.setRx_running (s : State) (c : Conc) (t : Fin 16) (v : Rx) : (s.setRx c t v).running = s.running := by simp [State.setRx]
@[simp] theorem State.setRx_regs (s : State) (c : Conc) (t : Fin 16) (v : Rx) : (s.setRx c t v).regs = s.regs := by simp [State.setRx]
@[simp] theorem State.setRx_stale (s : State) (c : Conc) (t : Fin 16) (v : Rx) : (s.setRx c t v).stale = s.stale := by simp [State.setRx]
@[simp] theorem State.setRx_pendW (s : State) (c : Conc) (t : Fin 16) (v : Rx) : (s.setRx c t v).pendW = s.pendW := by simp [State.setRx]
@[simp] theorem State.setRx_eventQ (s : State) (c : Conc) (t : Fin 16) (v : Rx) : (s.setRx c t v).eventQ = s.eventQ := by simp [State.setRx]
@[simp] theorem State.setRx_chans (s : State) (c : Conc) (t : Fin 16) (v : Rx) : (s.setRx c t v).chans = s.chans := by simp [State.setRx]
@[simp] theorem State.setRx_tiles (s : State) (c : Conc) (t : Fin 16) (v : Rx) : (s.setRx c t v).tiles = s.tiles := by simp [State.setRx]
@[simp] theorem State.setRx_tac (s : State) (c : Conc) (t : Fin 16) (v : Rx) : (s.setRx c t v).tac = s.tac := by simp [State.setRx]
@[simp] theorem State.setRx_tacStaged (s : State) (c : Conc) (t : Fin 16) (v : Rx) : (s.setRx c t v).tacStaged = s.tacStaged := by simp [State.setRx]
@[simp] theorem State.setRx_tacPoison (s : State) (c : Conc) (t : Fin 16) (v : Rx) : (s.setRx c t v).tacPoison = s.tacPoison := by simp [State.setRx]
@[simp] theorem State.setRx_rwsStaged (s : State) (c : Conc) (t : Fin 16) (v : Rx) : (s.setRx c t v).rwsStaged = s.rwsStaged := by simp [State.setRx]
@[simp] theorem State.setRx_frames (s : State) (c : Conc) (t : Fin 16) (v : Rx) : (s.setRx c t v).frames = s.frames := by simp [State.setRx]
@[simp] theorem State.setRx_trig (s : State) (c : Conc) (t : Fin 16) (v : Rx) : (s.setRx c t v).trig = s.trig := by simp [State.setRx]
@[simp] theorem State.setRx_time (s : State) (c : Conc) (t : Fin 16) (v : Rx) : (s.setRx c t v).time = s.time := by simp [State.setRx]
@[simp] theorem State.setRx_lastCorr (s : State) (c : Conc) (t : Fin 16) (v : Rx) : (s.setRx c t v).lastCorr = s.lastCorr := by simp [State.setRx]
@[simp] theorem State.setRx_scrubs (s : State) (c : Conc) (t : Fin 16) (v : Rx) : (s.setRx c t v).scrubs = s.scrubs := by simp [State.setRx]
@[simp] theorem State.setRx_writeBacks (s : State) (c : Conc) (t : Fin 16) (v : Rx) : (s.setRx c t v).writeBacks = s.writeBacks := by simp [State.setRx]
@[simp] theorem State.setRx_integ (s : State) (c : Conc) (t : Fin 16) (v : Rx) : (s.setRx c t v).integ = s.integ := by simp [State.setRx]
@[simp] theorem State.setRx_stick (s : State) (c : Conc) (t : Fin 16) (v : Rx) : (s.setRx c t v).stick = s.stick := by simp [State.setRx]
@[simp] theorem State.setRx_cal (s : State) (c : Conc) (t : Fin 16) (v : Rx) : (s.setRx c t v).cal = s.cal := by simp [State.setRx]
@[simp] theorem State.setRx_mon (s : State) (c : Conc) (t : Fin 16) (v : Rx) : (s.setRx c t v).mon = s.mon := by simp [State.setRx]
@[simp] theorem State.setRx_fwu (s : State) (c : Conc) (t : Fin 16) (v : Rx) : (s.setRx c t v).fwu = s.fwu := by simp [State.setRx]
@[simp] theorem State.setRx_pow (s : State) (c : Conc) (t : Fin 16) (v : Rx) : (s.setRx c t v).pow = s.pow := by simp [State.setRx]
@[simp] theorem State.setRx_tap (s : State) (c : Conc) (t : Fin 16) (v : Rx) : (s.setRx c t v).tap = s.tap := by simp [State.setRx]
@[simp] theorem State.setRx_um0 (s : State) (c : Conc) (t : Fin 16) (v : Rx) : (s.setRx c t v).um0 = s.um0 := by simp [State.setRx]
@[simp] theorem State.setRx_um1 (s : State) (c : Conc) (t : Fin 16) (v : Rx) : (s.setRx c t v).um1 = s.um1 := by simp [State.setRx]
@[simp] theorem State.setRx_peal (s : State) (c : Conc) (t : Fin 16) (v : Rx) : (s.setRx c t v).peal = s.peal := by simp [State.setRx]
@[simp] theorem State.setRx_mixedFrom (s : State) (c : Conc) (t : Fin 16) (v : Rx) : (s.setRx c t v).mixedFrom = s.mixedFrom := by simp [State.setRx]
@[simp] theorem State.setRx_unlocks (s : State) (c : Conc) (t : Fin 16) (v : Rx) : (s.setRx c t v).unlocks = s.unlocks := by simp [State.setRx]
@[simp] theorem State.setRx_journal (s : State) (c : Conc) (t : Fin 16) (v : Rx) : (s.setRx c t v).journal = s.journal := by simp [State.setRx]
@[simp] theorem State.setRx_saved (s : State) (c : Conc) (t : Fin 16) (v : Rx) : (s.setRx c t v).saved = s.saved := by simp [State.setRx]
@[simp] theorem State.setRx_savedStaged (s : State) (c : Conc) (t : Fin 16) (v : Rx) : (s.setRx c t v).savedStaged = s.savedStaged := by simp [State.setRx]
@[simp] theorem State.setRx_savedTac (s : State) (c : Conc) (t : Fin 16) (v : Rx) : (s.setRx c t v).savedTac = s.savedTac := by simp [State.setRx]
@[simp] theorem State.setRx_jseq (s : State) (c : Conc) (t : Fin 16) (v : Rx) : (s.setRx c t v).jseq = s.jseq := by simp [State.setRx]
@[simp] theorem State.setRx_savedEpoch (s : State) (c : Conc) (t : Fin 16) (v : Rx) : (s.setRx c t v).savedEpoch = s.savedEpoch := by simp [State.setRx]
@[simp] theorem State.setRx_savedCorr (s : State) (c : Conc) (t : Fin 16) (v : Rx) : (s.setRx c t v).savedCorr = s.savedCorr := by simp [State.setRx]
@[simp] theorem State.setRx_mramCorr (s : State) (c : Conc) (t : Fin 16) (v : Rx) : (s.setRx c t v).mramCorr = s.mramCorr := by simp [State.setRx]
@[simp] theorem State.setRx_mramTac (s : State) (c : Conc) (t : Fin 16) (v : Rx) : (s.setRx c t v).mramTac = s.mramTac := by simp [State.setRx]
@[simp] theorem State.setRx_mramTap (s : State) (c : Conc) (t : Fin 16) (v : Rx) : (s.setRx c t v).mramTap = s.mramTap := by simp [State.setRx]
@[simp] theorem State.setRx_freeCount (s : State) (c : Conc) (t : Fin 16) (v : Rx) : (s.setRx c t v).freeCount = s.freeCount := by simp [State.setRx]
@[simp] theorem State.setRx_pending (s : State) (c : Conc) (t : Fin 16) (v : Rx) : (s.setRx c t v).pending = s.pending := by simp [State.setRx]
@[simp] theorem State.setRx_chan (s : State) (c : Conc) (t : Fin 16) (v : Rx) (x : Nat) : (s.setRx c t v).chan x = s.chan x := by simp [State.chan]
@[simp] theorem State.setRx_tile (s : State) (c : Conc) (t : Fin 16) (v : Rx) (x : Fin 16) : (s.setRx c t v).tile x = s.tile x := by simp [State.tile]
@[simp] theorem State.setRx_um (s : State) (c : Conc) (t : Fin 16) (v : Rx) (x : Um) : (s.setRx c t v).um x = s.um x := by cases x <;> simp [State.um]
@[simp] theorem State.setRx_port (s : State) (c : Conc) (t : Fin 16) (v : Rx) (x : Fin 16) (y : Conc) : (s.setRx c t v).port x y = s.port x y := by simp [State.port]
@[simp] theorem State.setRx_rd (s : State) (c : Conc) (t : Fin 16) (v : Rx) (x y : Nat) : (s.setRx c t v).rd x y = s.rd x y := by simp [State.rd]
@[simp] theorem State.setRx_live (s : State) (c : Conc) (t : Fin 16) (v : Rx) (x y : Nat) : (s.setRx c t v).live x y = s.live x y := by simp [State.live]
@[simp] theorem State.setRx_fld (s : State) (c : Conc) (t : Fin 16) (v : Rx) (x : Nat) (y : FieldRef) : (s.setRx c t v).fld x y = s.fld x y := by simp [State.fld]
@[simp] theorem State.setRx_stored (s : State) (c : Conc) (t : Fin 16) (v : Rx) (x : Nat) (y : FieldRef) : (s.setRx c t v).stored x y = s.stored x y := by simp [State.stored]
@[simp] theorem State.setRx_flag (s : State) (c : Conc) (t : Fin 16) (v : Rx) (x : Nat) (y : FieldRef) : (s.setRx c t v).flag x y = s.flag x y := by simp [State.flag]

/-! What they set, and the event queue and the values in force -/

@[simp] theorem State.put_eventQ (s : State) (p : Nat) (f : FieldRef) (v : Nat) : (s.put p f v).eventQ = s.eventQ := by
  simp only [State.put]
@[simp] theorem State.queueEvent_regs (s : State) (p : Nat) : (s.queueEvent p).regs = s.regs := by
  unfold State.queueEvent; split <;> simp only
@[simp] theorem State.queueEvent_stale (s : State) (p : Nat) : (s.queueEvent p).stale = s.stale := by
  unfold State.queueEvent; split <;> simp only
@[simp] theorem State.event_stale (s : State) (p k : Nat) : (s.event p k).stale = s.stale := by
  unfold State.event; dsimp only; split_ifs <;> simp
@[simp] theorem State.overflow_stale (s : State) (p k : Nat) : (s.overflow p k).stale = s.stale := State.wr_stale ..

@[simp] theorem State.setConc_conc_same (s : State) (c : Conc) (v : ConcSt) : (s.setConc c v).conc c = v := by cases c <;> rfl
theorem State.setConc_conc_ne {c d : Conc} (h : d ≠ c) (s : State) (v : ConcSt) : (s.setConc c v).conc d = s.conc d := by
  cases c <;> cases d <;> first | rfl | exact absurd rfl h
@[simp] theorem State.setUm_um_same (s : State) (u : Um) (v : UmSt) : (s.setUm u v).um u = v := by cases u <;> rfl
@[simp] theorem State.setTile_tile_same (s : State) (t : Fin 16) (v : Tile) : (s.setTile t v).tile t = v := by
  simp [State.setTile, State.tile]
theorem State.setTile_tile_ne {t u : Fin 16} (h : u ≠ t) (s : State) (v : Tile) : (s.setTile t v).tile u = s.tile u := by
  simp only [State.setTile, State.tile, Fin.getElem_fin]
  exact Vector.getElem_set_ne _ _ (fun e => h (Fin.ext e.symm))
@[simp] theorem State.setPort_port_same (s : State) (t : Fin 16) (c : Conc) (v : Port) : (s.setPort t c v).port t c = v := by
  cases c <;> simp [State.setPort, State.port, Tile.setPort, Tile.port]
@[simp] theorem State.setChan_chan_same (s : State) (c : Nat) (v : Chan) : (s.setChan c v).chan c = v := by
  simp [State.setChan, State.chan]
@[simp] theorem State.setRx_rx_same (s : State) (c : Conc) (t : Fin 16) (v : Rx) : (s.setRx c t v).rx c t = v := by
  simp [State.setRx, State.rx]

end Sys2Proof.Machine
end

