-- ==== Sys2Proof/Laws/Regs.lean ====
section
/-!
SUPPORT. What the register operations do to stored values, values in force, event bits and counters.
-/

namespace Sys2Proof.Machine

theorem regKey_ne_off {p a b : Nat} (h : a ≠ b) : regKey p a ≠ regKey p b := by unfold regKey; omega
theorem regKey_ne_page {p q a b : Nat} (h : p ≠ q) (ha : a < 4096) (hb : b < 4096) : regKey p a ≠ regKey q b := by
  unfold regKey; omega

/-! ### Whole registers -/

theorem rd_of_regs {s t : State} (h : t.regs = s.regs) (p o : Nat) : t.rd p o = s.rd p o := by simp [State.rd, h]

@[simp] theorem State.rd_wr_same (s : State) (p o : Nat) (v : Word) : (s.wr p o v).rd p o = v := by
  simp [State.rd, State.wr, regsPut]

theorem State.rd_wr_ne {p q o u : Nat} (h : regKey q u ≠ regKey p o) (s : State) (v : Word) :
    (s.wr p o v).rd q u = s.rd q u := by
  simp only [State.rd, State.wr, regsPut]
  exact mapGetD_mapPutD_ne h ..

theorem State.rd_put_same (s : State) (p : Nat) (f : FieldRef) (v : Nat) :
    (s.put p f v).rd p f.off = fieldPut f v (s.rd p f.off) := by
  simp [State.rd, State.put, regsPut]

theorem State.rd_put_ne {p q u : Nat} {f : FieldRef} (h : regKey q u ≠ regKey p f.off) (s : State) (v : Nat) :
    (s.put p f v).rd q u = s.rd q u := by
  simp only [State.rd, State.put, regsPut]
  exact mapGetD_mapPutD_ne h ..

theorem State.find_stale_put_ne {p q u : Nat} {f : FieldRef} (h : regKey q u ≠ regKey p f.off) (s : State) (v : Nat) :
    mapFind (regKey q u) (s.put p f v).stale = mapFind (regKey q u) s.stale := by
  simp only [State.put]
  split
  · exact mapFind_mapPut_ne h ..
  · rfl

theorem State.live_put_ne {p q u : Nat} {f : FieldRef} (h : regKey q u ≠ regKey p f.off) (s : State) (v : Nat) :
    (s.put p f v).live q u = s.live q u := by
  simp only [State.live, State.find_stale_put_ne h, State.rd_put_ne h]

theorem State.live_put_same (s : State) (p : Nat) (f : FieldRef) (v : Nat) :
    (s.put p f v).live p f.off = fieldPut f v (s.live p f.off) := by
  unfold State.live
  rw [State.rd_put_same]
  simp only [State.put]
  cases h : mapFind (regKey p f.off) s.stale <;> simp [h]

theorem State.live_wr_ne {p q o u : Nat} (h : regKey q u ≠ regKey p o) (s : State) (v : Word) :
    (s.wr p o v).live q u = s.live q u := by simp only [State.live, State.wr_stale, State.rd_wr_ne h]

theorem live_of_regs {s t : State} (h : t.regs = s.regs) (k : t.stale = s.stale) (p o : Nat) : t.live p o = s.live p o := by
  simp only [State.live, k, rd_of_regs h]

/-! ### Fields -/

theorem State.stored_put_same {f : FieldRef} (h : f.lo ≤ f.hi) (k : f.hi < 32) (s : State) (p v : Nat) :
    (s.put p f v).stored p f = v % 2 ^ (f.hi - f.lo + 1) := by
  rw [State.stored, State.rd_put_same, fieldGet_fieldPut_same f v _ k h]

theorem State.fld_put_same {f : FieldRef} (h : f.lo ≤ f.hi) (k : f.hi < 32) (s : State) (p v : Nat) :
    (s.put p f v).fld p f = v % 2 ^ (f.hi - f.lo + 1) := by
  rw [State.fld, State.live_put_same, fieldGet_fieldPut_same f v _ k h]

theorem State.stored_put_ne {p q : Nat} {f g : FieldRef} (h : regKey q g.off ≠ regKey p f.off) (s : State) (v : Nat) :
    (s.put p f v).stored q g = s.stored q g := by simp only [State.stored, State.rd_put_ne h]

theorem State.fld_put_ne {p q : Nat} {f g : FieldRef} (h : regKey q g.off ≠ regKey p f.off) (s : State) (v : Nat) :
    (s.put p f v).fld q g = s.fld q g := by simp only [State.fld, State.live_put_ne h]

theorem State.flag_put_ne {p q : Nat} {f g : FieldRef} (h : regKey q g.off ≠ regKey p f.off) (s : State) (v : Nat) :
    (s.put p f v).flag q g = s.flag q g := by simp only [State.flag, State.fld_put_ne h]

/-- Two fields of one register that share no bit. -/
theorem State.stored_put_apart {f g : FieldRef} (e : g.off = f.off) (h : f.lo ≤ f.hi) (k : f.hi < 32) (hg : g.lo ≤ g.hi)
    (kg : g.hi < 32) (a : f.hi < g.lo ∨ g.hi < f.lo) (s : State) (p v : Nat) : (s.put p f v).stored p g = s.stored p g := by
  rw [State.stored, State.stored, e, State.rd_put_same, fieldGet_fieldPut_apart f g v _ k h kg hg a]

theorem State.fld_put_apart {f g : FieldRef} (e : g.off = f.off) (h : f.lo ≤ f.hi) (k : f.hi < 32) (hg : g.lo ≤ g.hi)
    (kg : g.hi < 32) (a : f.hi < g.lo ∨ g.hi < f.lo) (s : State) (p v : Nat) : (s.put p f v).fld p g = s.fld p g := by
  rw [State.fld, State.fld, e, State.live_put_same, fieldGet_fieldPut_apart f g v _ k h kg hg a]

theorem State.stored_putB_same {f : FieldRef} (h : f.lo ≤ f.hi) (k : f.hi < 32) (s : State) (p : Nat) (b : Bool) :
    (s.putB p f b).stored p f = b.toNat := by
  rw [State.putB, State.stored_put_same h k]
  cases b
  · simp
  · exact Nat.mod_eq_of_lt (Nat.one_lt_two_pow (by omega))

theorem State.flag_putB_same {f : FieldRef} (h : f.lo ≤ f.hi) (k : f.hi < 32) (s : State) (p : Nat) (b : Bool) :
    (s.putB p f b).flag p f = b := by
  rw [State.flag, State.putB, State.fld_put_same h k]
  cases b
  · simp
  · rw [show true.toNat = 1 from rfl, Nat.mod_eq_of_lt (Nat.one_lt_two_pow (by omega))]; rfl

/-! ### Events -/

/-- What an event leaves alone: every register but the page's EVT_PENDING. -/
theorem State.rd_event_ne {p q u : Nat} (h : regKey q u ≠ regKey p Reg.HDR.EVT_PENDING.off) (s : State) (k : Nat) :
    (s.event p k).rd q u = s.rd q u := by
  unfold State.event
  dsimp only
  split_ifs
  · rfl
  · rw [rd_of_regs (State.queueEvent_regs _ _), State.rd_wr_ne h]
  · rw [State.rd_wr_ne h]

theorem State.live_event_ne {p q u : Nat} (h : regKey q u ≠ regKey p Reg.HDR.EVT_PENDING.off) (s : State) (k : Nat) :
    (s.event p k).live q u = s.live q u := by simp only [State.live, State.event_stale, State.rd_event_ne h]

theorem State.stored_event_ne {p q : Nat} {f : FieldRef} (h : regKey q f.off ≠ regKey p Reg.HDR.EVT_PENDING.off) (s : State)
    (k : Nat) : (s.event p k).stored q f = s.stored q f := by simp only [State.stored, State.rd_event_ne h]

theorem State.fld_event_ne {p q : Nat} {f : FieldRef} (h : regKey q f.off ≠ regKey p Reg.HDR.EVT_PENDING.off) (s : State)
    (k : Nat) : (s.event p k).fld q f = s.fld q f := by simp only [State.fld, State.live_event_ne h]

/-- An event sets its bit of EVT_PENDING (R403). -/
theorem State.event_pends {k : Nat} (h : k < 32) (s : State) (p : Nat) :
    ((s.event p k).rd p Reg.HDR.EVT_PENDING.off).getLsbD k = true := by
  unfold State.event
  dsimp only
  split_ifs with a b
  · exact a
  · rw [rd_of_regs (State.queueEvent_regs _ _), State.rd_wr_same, getLsbD_or_bit _ _ h]
  · rw [State.rd_wr_same, getLsbD_or_bit _ _ h]

/-- An event whose bit rises while it is enabled, on a page that sends events, queues the page (R374, R403). -/
theorem State.event_queues {s : State} {p k : Nat} (h : (s.rd p Reg.HDR.EVT_PENDING.off).getLsbD k = false)
    (e : (s.live p Reg.HDR.EVT_ENABLE.off).getLsbD k = true) (c : s.flag p Reg.HDR.CTRL_EVT_ON = true) :
    (s.event p k).eventQ.any (fun x => x.1 == p) = true := by
  have cw (v : Word) : (s.wr p Reg.HDR.EVT_PENDING.off v).flag p Reg.HDR.CTRL_EVT_ON = true := by
    rw [← c, State.flag, State.flag, State.fld, State.fld, State.live_wr_ne (regKey_ne_off (by decide))]
  simp only [State.event, h, e, if_true, State.queueEvent, cw]
  by_cases q : s.eventQ.any (fun x => x.1 == p) = true
  · simp [q]
  · simp [q]

/-! ### Counters -/

theorem State.stored_bump_below {f : FieldRef} (h : f.lo ≤ f.hi) (k : f.hi < 32) {s : State} {p n : Nat}
    (l : s.stored p f + n < 2 ^ (f.hi - f.lo + 1)) (b : Nat) : (s.bump p f b n).stored p f = s.stored p f + n := by
  rw [State.bump, if_pos l, State.stored_put_same h k, Nat.mod_eq_of_lt l]

theorem State.rd_bump_ne {p q u : Nat} {f : FieldRef} (h : regKey q u ≠ regKey p f.off)
    (o : regKey q u ≠ regKey p Reg.HDR.COUNTER_OVF.off) (s : State) (b n : Nat) : (s.bump p f b n).rd q u = s.rd q u := by
  unfold State.bump
  split_ifs
  · rw [State.rd_put_ne h]
  · rw [State.overflow, State.rd_wr_ne o, State.rd_put_ne h]

theorem State.live_bump_ne {p q u : Nat} {f : FieldRef} (h : regKey q u ≠ regKey p f.off)
    (o : regKey q u ≠ regKey p Reg.HDR.COUNTER_OVF.off) (s : State) (b n : Nat) : (s.bump p f b n).live q u = s.live q u := by
  unfold State.bump
  split_ifs
  · rw [State.live_put_ne h]
  · rw [State.overflow, State.live_wr_ne o, State.live_put_ne h]

theorem State.stored_bump_ne {p q : Nat} {f g : FieldRef} (h : regKey q g.off ≠ regKey p f.off)
    (o : regKey q g.off ≠ regKey p Reg.HDR.COUNTER_OVF.off) (s : State) (b n : Nat) :
    (s.bump p f b n).stored q g = s.stored q g := by simp only [State.stored, State.rd_bump_ne h o]

theorem State.fld_bump_ne {p q : Nat} {f g : FieldRef} (h : regKey q g.off ≠ regKey p f.off)
    (o : regKey q g.off ≠ regKey p Reg.HDR.COUNTER_OVF.off) (s : State) (b n : Nat) :
    (s.bump p f b n).fld q g = s.fld q g := by simp only [State.fld, State.live_bump_ne h o]

/-! ### Lists of updates -/

@[simp] theorem State.each_nil {α : Type} (f : State → α → State) (s : State) : s.each [] f = s := rfl
@[simp] theorem State.each_cons {α : Type} (a : α) (l : List α) (f : State → α → State) (s : State) :
    s.each (a :: l) f = (f s a).each l f := rfl

/-- What every update of a list keeps, the whole list keeps. -/
theorem State.each_keeps {α : Type} {P : State → Prop} {l : List α} {f : State → α → State}
    (h : ∀ s a, a ∈ l → P s → P (f s a)) {s : State} (k : P s) : P (s.each l f) := by
  induction l generalizing s with
  | nil => exact k
  | cons a l ih => exact ih (fun s b hb => h s b (List.mem_cons_of_mem a hb)) (h s a List.mem_cons_self k)

theorem State.RegsOnly.each {α : Type} {l : List α} {f : State → α → State} (h : ∀ (s : State) (a : α), s.RegsOnly (f s a)) (s : State) :
    s.RegsOnly (s.each l f) :=
  State.each_keeps (P := fun t => s.RegsOnly t) (fun t a _ k => k.trans (h t a)) (.refl s)

end Sys2Proof.Machine
end

