-- ==== Sys2Proof/Laws/Clock.lean ====
section
/-!
SUPPORT. What happens at a frame boundary once the frame has begun leaves the frame's number, and whether frames run, alone.
-/

set_option Elab.async false
set_option linter.unusedTactic false
set_option linter.unreachableTactic false
set_option linter.unusedVariables false

namespace Sys2Proof.Machine

/-- `t` has the clock of `s`: the frame in progress, and whether frames run. -/
structure State.Clock (s t : State) : Prop where
  frame : t.frame = s.frame
  running : t.running = s.running

theorem State.Clock.refl (s : State) : s.Clock s := ⟨rfl, rfl⟩
theorem State.Clock.same {s t u : State} (a : t.frame = u.frame) (c : t.running = u.running) (h : s.Clock u) :
    s.Clock t := ⟨a.trans h.1, c.trans h.2⟩
theorem State.Clock.ite {s t u : State} {c : Prop} [Decidable c] (h : s.Clock t) (k : s.Clock u) :
    s.Clock (if c then t else u) := by split <;> assumption
theorem State.Clock.each {s t : State} {α : Type} {l : List α} {f : State → α → State}
    (h : ∀ (u : State) (a : α), s.Clock u → s.Clock (f u a)) (k : s.Clock t) : s.Clock (t.each l f) :=
  State.each_keeps (P := fun u => s.Clock u) (fun u a _ => h u a) k
theorem State.Clock.foldl {s t : State} {α : Type} {l : List α} {f : State → α → State}
    (h : ∀ (u : State) (a : α), s.Clock u → s.Clock (f u a)) (k : s.Clock t) : s.Clock (l.foldl f t) :=
        State.Clock.each h k
theorem State.Clock.foldlSnd {s : State} {α β : Type} {l : List α} {f : β × State → α → β × State} {x : β × State}
    (h : ∀ (x : β × State) (a : α), s.Clock x.2 → s.Clock (f x a).2) (k : s.Clock x.2) : s.Clock (l.foldl f x).2 := by
  induction l generalizing x with
  | nil => exact k
  | cons a l ih => exact ih (h x a k)
theorem State.wr_clock {s₀ s : State} (h : s₀.Clock s) (p o : Nat) (v : Word) : s₀.Clock (s.wr p o v) :=
  .same (State.wr_frame ..) (State.wr_running ..) h
theorem State.put_clock {s₀ s : State} (h : s₀.Clock s) (p : Nat) (f : FieldRef) (v : Nat) : s₀.Clock (s.put p f v) :=
  .same (State.put_frame ..) (State.put_running ..) h
theorem State.putB_clock {s₀ s : State} (h : s₀.Clock s) (p : Nat) (f : FieldRef) (b : Bool) : s₀.Clock (s.putB p f
    b) :=
  .same (State.putB_frame ..) (State.putB_running ..) h
theorem State.overflow_clock {s₀ s : State} (h : s₀.Clock s) (p k : Nat) : s₀.Clock (s.overflow p k) :=
  .same (State.overflow_frame ..) (State.overflow_running ..) h
theorem State.bump_clock {s₀ s : State} (h : s₀.Clock s) (p : Nat) (f : FieldRef) (k n : Nat) : s₀.Clock (s.bump p f
    k n) :=
  .same (State.bump_frame ..) (State.bump_running ..) h
theorem State.bump64_clock {s₀ s : State} (h : s₀.Clock s) (p : Nat) (f g : FieldRef) (k n : Nat) : s₀.Clock
    (s.bump64 p f g k n) :=
  .same (State.bump64_frame ..) (State.bump64_running ..) h
theorem State.bumpWrap_clock {s₀ s : State} (h : s₀.Clock s) (p : Nat) (f : FieldRef) (n : Nat) : s₀.Clock
    (s.bumpWrap p f n) :=
  .same (State.bumpWrap_frame ..) (State.bumpWrap_running ..) h
theorem State.peak_clock {s₀ s : State} (h : s₀.Clock s) (p : Nat) (f : FieldRef) (n : Nat) : s₀.Clock (s.peak p f
    n) :=
  .same (State.peak_frame ..) (State.peak_running ..) h
theorem State.queueEvent_clock {s₀ s : State} (h : s₀.Clock s) (p : Nat) : s₀.Clock (s.queueEvent p) :=
  .same (State.queueEvent_frame ..) (State.queueEvent_running ..) h
theorem State.event_clock {s₀ s : State} (h : s₀.Clock s) (p k : Nat) : s₀.Clock (s.event p k) :=
  .same (State.event_frame ..) (State.event_running ..) h
theorem State.eventIf_clock {s₀ s : State} (h : s₀.Clock s) (c : Bool) (p k : Nat) : s₀.Clock (s.eventIf c p k) :=
  .same (State.eventIf_frame ..) (State.eventIf_running ..) h
theorem State.advance_clock {s₀ s : State} (h : s₀.Clock s) (t : Nat) : s₀.Clock (s.advance t) :=
  .same (State.advance_frame ..) (State.advance_running ..) h
theorem State.setChan_clock {s₀ s : State} (h : s₀.Clock s) (c : Nat) (v : Chan) : s₀.Clock (s.setChan c v) :=
  .same (State.setChan_frame ..) (State.setChan_running ..) h
theorem State.setTile_clock {s₀ s : State} (h : s₀.Clock s) (t : Fin 16) (v : Tile) : s₀.Clock (s.setTile t v) :=
  .same (State.setTile_frame ..) (State.setTile_running ..) h
theorem State.setPort_clock {s₀ s : State} (h : s₀.Clock s) (t : Fin 16) (c : Conc) (v : Port) : s₀.Clock (s.setPort
    t c v) :=
  .same (State.setPort_frame ..) (State.setPort_running ..) h
theorem State.setConc_clock {s₀ s : State} (h : s₀.Clock s) (c : Conc) (v : ConcSt) : s₀.Clock (s.setConc c v) :=
  .same (State.setConc_frame ..) (State.setConc_running ..) h
theorem State.setRx_clock {s₀ s : State} (h : s₀.Clock s) (c : Conc) (t : Fin 16) (v : Rx) : s₀.Clock (s.setRx c t
    v) :=
  .same (State.setRx_frame ..) (State.setRx_running ..) h


/-! Ops.lean -/

theorem State.draw_clock {s₀ s : State} (hs₀ : s₀.Clock s) : s₀.Clock (State.draw s).2 := by
  unfold State.draw
  repeat (with_reducible first
    | split
    | exact hs₀
    | refine State.Clock.same (State.mk_frame ..) (State.mk_running ..) ?_)

/-! Dead.lean -/

theorem State.addCalDead_clock {s₀ s : State} (hs₀ : s₀.Clock s) (chan n : Nat) : s₀.Clock (State.addCalDead s chan
    n) := by
  unfold State.addCalDead
  repeat (with_reducible first
    | exact hs₀
    | apply State.overflow_clock
    | apply State.bump64_clock
    | apply State.Clock.ite
    | split
    | refine State.Clock.same (State.mk_frame ..) (State.mk_running ..) ?_
    | dsimp only)
theorem State.calMissed_clock {s₀ s : State} (hs₀ : s₀.Clock s) (chan : Nat) : s₀.Clock (State.calMissed s chan) := by
  unfold State.calMissed
  repeat (with_reducible first | exact hs₀ | apply State.addCalDead_clock | apply State.bump_clock)
theorem State.dropLaunches_clock {s₀ s : State} (hs₀ : s₀.Clock s) (p : Launch → Bool) : s₀.Clock
    (State.dropLaunches s p) := by
  unfold State.dropLaunches
  repeat (with_reducible first | exact hs₀ | refine State.Clock.same (State.mk_frame ..) (State.mk_running ..) ?_)
theorem State.missLaunches_clock {s₀ s : State} (hs₀ : s₀.Clock s) (p : Launch → Bool) : s₀.Clock
    (State.missLaunches s p) := by
  unfold State.missLaunches
  repeat (with_reducible first
    | exact hs₀
    | apply State.dropLaunches_clock
    | apply State.calMissed_clock
    | refine State.Clock.each ?_ ?_ <;> [(intro u x₁ hs₀; try dsimp only); skip])
theorem State.launchesUnread_clock {s₀ s : State} (hs₀ : s₀.Clock s) (f : Nat) : s₀.Clock (State.launchesUnread s
    f) := by
  unfold State.launchesUnread
  repeat (with_reducible first | exact hs₀ | apply State.missLaunches_clock | apply State.Clock.ite | split)

/-! Integrity.lean -/

theorem State.bucketPass_clock {s₀ s : State} (hs₀ : s₀.Clock s) (page r : Nat) (before : Bool) : s₀.Clock
    (State.bucketPass s page r before) := by
  unfold State.bucketPass
  repeat (with_reducible first | exact hs₀ | apply State.eventIf_clock)
theorem State.showRemap_clock {s₀ s : State} (hs₀ : s₀.Clock s) (page : Nat) : s₀.Clock (State.showRemap s page) := by
  unfold State.showRemap
  repeat (with_reducible first | exact hs₀ | apply State.put_clock | dsimp only)
theorem State.remapWord_clock {s₀ s : State} (hs₀ : s₀.Clock s) (page r addr : Nat) : s₀.Clock (State.remapWord s
    page r addr).2 := by
  unfold State.remapWord
  repeat (with_reducible first
    | dsimp only
    | split
    | exact hs₀
    | apply State.event_clock
    | apply State.putB_clock
    | apply State.put_clock)
theorem State.faultSpare_clock {s₀ s : State} (hs₀ : s₀.Clock s) (page n : Nat) (x0 : Option Nat) : s₀.Clock
    (State.faultSpare s page n x0) := by
  unfold State.faultSpare
  repeat (with_reducible first | exact hs₀ | apply State.putB_clock | apply State.put_clock | split)
theorem State.newFault_clock {s₀ s : State} (hs₀ : s₀.Clock s) (page r addr bit n : Nat) : s₀.Clock (State.newFault
    s page r addr bit n) := by
  unfold State.newFault
  repeat (with_reducible first
    | exact hs₀
    | apply State.put_clock
    | apply State.putB_clock
    | apply State.event_clock
    | apply State.Clock.ite
    | split
    | dsimp only)
theorem State.markSticky_clock {s₀ s : State} (hs₀ : s₀.Clock s) (page r addr bit : Nat) : s₀.Clock
    (State.markSticky s page r addr bit) := by
  unfold State.markSticky
  repeat (with_reducible first
    | exact hs₀
    | apply State.remapWord_clock
    | apply State.put_clock
    | apply State.faultSpare_clock
    | apply State.newFault_clock
    | apply State.bump_clock
    | apply State.showRemap_clock
    | split
    | dsimp only)
theorem State.countCorrected_clock {s₀ s : State} (hs₀ : s₀.Clock s) (page r addr : Nat) : s₀.Clock
    (State.countCorrected s page r addr) := by
  unfold State.countCorrected
  repeat (with_reducible first
    | exact hs₀
    | apply State.bump_clock
    | apply State.put_clock
    | apply State.bucketPass_clock
    | apply State.Clock.ite
    | split
    | refine State.Clock.same (State.mk_frame ..) (State.mk_running ..) ?_
    | dsimp only)
theorem State.correctedRead_clock {s₀ s : State} (hs₀ : s₀.Clock s) (page r addr bit : Nat) : s₀.Clock
    (State.correctedRead s page r addr bit) := by
  unfold State.correctedRead
  repeat (with_reducible first
    | exact hs₀
    | apply State.countCorrected_clock
    | apply State.markSticky_clock
    | apply State.Clock.ite
    | split
    | dsimp only)
theorem State.uncorrectableRead_clock {s₀ s : State} (hs₀ : s₀.Clock s) (page r : Nat) : s₀.Clock
    (State.uncorrectableRead s page r) := by
  unfold State.uncorrectableRead
  repeat (with_reducible first | exact hs₀ | apply State.bump_clock)
theorem State.countRead_clock {s₀ s : State} (hs₀ : s₀.Clock s) (page r addr : Nat) (x0 : EccRead) : s₀.Clock
    (State.countRead s page r addr x0) := by
  unfold State.countRead
  repeat (with_reducible first
    | exact hs₀
    | apply State.correctedRead_clock
    | apply State.uncorrectableRead_clock
    | split)
theorem State.forgetFailure_clock {s₀ s : State} (hs₀ : s₀.Clock s) (c : Conc) : s₀.Clock (State.forgetFailure s
    c) := by
  unfold State.forgetFailure
  repeat (with_reducible first | exact hs₀ | refine State.Clock.same (State.mk_frame ..) (State.mk_running ..) ?_)

/-! Journal.lean -/

theorem State.showJournal_clock {s₀ s : State} (hs₀ : s₀.Clock s) : s₀.Clock (State.showJournal s) := by
  unfold State.showJournal
  repeat (with_reducible first | exact hs₀ | apply State.put_clock | split | dsimp only)
theorem State.append_clock {s₀ s : State} (hs₀ : s₀.Clock s) (e : JEntry) : s₀.Clock (State.append s e).2 := by
  unfold State.append
  repeat (with_reducible first
    | dsimp only
    | split
    | exact hs₀
    | apply State.showJournal_clock
    | refine State.Clock.same (State.mk_frame ..) (State.mk_running ..) ?_)
theorem State.journalEvent_clock {s₀ s : State} (hs₀ : s₀.Clock s) (code result page off digest aux : Nat) :
    s₀.Clock (State.journalEvent s code result page off digest aux) := by
  unfold State.journalEvent
  repeat (with_reducible first | exact hs₀ | apply State.append_clock)
theorem State.noteChange_clock {s₀ s : State} (hs₀ : s₀.Clock s) (page seq : Nat) : s₀.Clock (State.noteChange s
    page seq) := by
  unfold State.noteChange
  repeat (with_reducible first | exact hs₀ | refine State.Clock.same (State.mk_frame ..) (State.mk_running ..) ?_)
theorem State.setUm_clock {s₀ s : State} (hs₀ : s₀.Clock s) (u : Um) (v : UmSt) : s₀.Clock (State.setUm s u v) := by
  unfold State.setUm
  repeat (with_reducible first
    | exact hs₀
    | split
    | refine State.Clock.same (State.mk_frame ..) (State.mk_running ..) ?_)
theorem State.answerHeld_clock {s₀ s : State} (hs₀ : s₀.Clock s) (u : Um) (tag : Byte) (code result seq : Nat) :
    s₀.Clock (State.answerHeld s u tag code result seq) := by
  unfold State.answerHeld
  repeat (with_reducible first
    | exact hs₀
    | apply State.setUm_clock
    | refine State.Clock.same (State.mk_frame ..) (State.mk_running ..) ?_
    | dsimp only)

/-! Channel.lean -/

theorem State.putCh_clock {s₀ s : State} (hs₀ : s₀.Clock s) (chan : Nat) (f : FieldRef) (b : Bool) : s₀.Clock
    (State.putCh s chan f b) := by
  unfold State.putCh
  repeat (with_reducible first | exact hs₀ | apply State.putB_clock)
theorem State.chaffGateHigh_clock {s₀ s : State} (hs₀ : s₀.Clock s) (t : Fin 16) (frame : Nat) : s₀.Clock
    (State.chaffGateHigh s t frame) := by
  unfold State.chaffGateHigh
  repeat (with_reducible first
    | exact hs₀
    | apply State.setTile_clock
    | apply State.bump_clock
    | refine State.Clock.same (State.mk_frame ..) (State.mk_running ..) ?_)
theorem State.bumpGateHigh_clock {s₀ s : State} (hs₀ : s₀.Clock s) (chan : Nat) : s₀.Clock (State.bumpGateHigh s
    chan) := by
  unfold State.bumpGateHigh
  repeat (with_reducible first | exact hs₀ | apply State.bump_clock)
theorem State.countRefused_clock {s₀ s : State} (hs₀ : s₀.Clock s) (t : Fin 16) (c : Conc) (r : BitVec 52) :
    s₀.Clock (State.countRefused s t c r) := by
  unfold State.countRefused
  repeat (with_reducible first | exact hs₀ | apply State.bump_clock | apply State.Clock.ite | split)
theorem State.refuseRecord_clock {s₀ s : State} (hs₀ : s₀.Clock s) (t : Fin 16) (c : Conc) (r : BitVec 52) (frame
    tref : Nat) : s₀.Clock (State.refuseRecord s t c r frame tref) := by
  unfold State.refuseRecord
  repeat (with_reducible first
    | exact hs₀
    | apply State.setPort_clock
    | apply State.countRefused_clock
    | apply State.event_clock)
theorem State.offerSide_clock {s₀ s : State} (hs₀ : s₀.Clock s) (t : Fin 16) (c : Conc) (i : BitVec 32) (frame :
    Nat) : s₀.Clock (State.offerSide s t c i frame) := by
  unfold State.offerSide
  repeat (with_reducible first
    | exact hs₀
    | apply State.setPort_clock
    | apply State.bump_clock
    | apply State.Clock.ite
    | split
    | refine State.Clock.same (State.mk_frame ..) (State.mk_running ..) ?_
    | dsimp only)
theorem State.sendRecord_clock {s₀ s : State} (hs₀ : s₀.Clock s) (t : Fin 16) (r : BitVec 52) (side : BitVec 32)
    (lead : Nat) : s₀.Clock (State.sendRecord s t r side lead) := by
  unfold State.sendRecord
  repeat (with_reducible first
    | exact hs₀
    | apply State.setTile_clock
    | apply State.bump_clock
    | apply State.refuseRecord_clock
    | apply State.offerSide_clock
    | apply State.Clock.ite
    | split
    | dsimp only)
theorem State.decideCand_clock {s₀ s : State} (hs₀ : s₀.Clock s) (t : Fin 16) (p : Passed) : s₀.Clock
    (State.decideCand s t p) := by
  unfold State.decideCand
  repeat (with_reducible first
    | exact hs₀
    | apply State.bump_clock
    | apply State.sendRecord_clock
    | apply State.Clock.ite
    | split)
theorem State.gateHighChan_clock {s₀ s : State} (hs₀ : s₀.Clock s) (frame : Nat) (chan : Nat) : s₀.Clock
    (State.gateHighChan s frame chan) := by
  unfold State.gateHighChan
  repeat (with_reducible first
    | exact hs₀
    | apply State.setChan_clock
    | apply State.bumpGateHigh_clock
    | apply State.chaffGateHigh_clock
    | apply State.Clock.ite
    | split
    | refine State.Clock.same (State.mk_frame ..) (State.mk_running ..) ?_)
theorem State.disarm_clock {s₀ s : State} (hs₀ : s₀.Clock s) (chan : Nat) : s₀.Clock (State.disarm s chan) := by
  unfold State.disarm
  repeat (with_reducible first
    | exact hs₀
    | apply State.setChan_clock
    | apply State.putCh_clock
    | refine State.Clock.same (State.mk_frame ..) (State.mk_running ..) ?_
    | dsimp only)
theorem State.disarmAll_clock {s₀ s : State} (hs₀ : s₀.Clock s) (p : Nat → Bool) : s₀.Clock (State.disarmAll s
    p) := by
  unfold State.disarmAll
  repeat (with_reducible first
    | exact hs₀
    | apply State.disarm_clock
    | refine State.Clock.each ?_ ?_ <;> [(intro u x₁ hs₀; try dsimp only); skip])
theorem State.gateHigh_clock {s₀ s : State} (hs₀ : s₀.Clock s) (t : Fin 16) (tap : Nat) : s₀.Clock (State.gateHigh s
    t tap) := by
  unfold State.gateHigh
  repeat (with_reducible first
    | exact hs₀
    | apply State.gateHighChan_clock
    | refine State.Clock.each ?_ ?_ <;> [(intro u x₁ hs₀; try dsimp only); skip])
theorem State.gateSourceChanged_clock {s₀ s : State} (hs₀ : s₀.Clock s) (t : Fin 16) (tap : Nat) : s₀.Clock
    (State.gateSourceChanged s t tap) := by
  unfold State.gateSourceChanged
  repeat (with_reducible first
    | exact hs₀
    | apply State.putB_clock
    | apply State.setTile_clock
    | apply State.gateHigh_clock
    | apply State.Clock.ite
    | split
    | refine State.Clock.same (State.mk_frame ..) (State.mk_running ..) ?_
    | dsimp only)
theorem State.clearSelfMask_clock {s₀ s : State} (hs₀ : s₀.Clock s) (chan tap : Nat) : s₀.Clock (State.clearSelfMask
    s chan tap) := by
  unfold State.clearSelfMask
  repeat (with_reducible first
    | exact hs₀
    | apply State.putCh_clock
    | apply State.setChan_clock
    | apply State.Clock.ite
    | split
    | refine State.Clock.same (State.mk_frame ..) (State.mk_running ..) ?_
    | dsimp only)
theorem State.blank_clock {s₀ s : State} (hs₀ : s₀.Clock s) (chan tap : Nat) : s₀.Clock (State.blank s chan tap) := by
  unfold State.blank
  repeat (with_reducible first
    | exact hs₀
    | apply State.setChan_clock
    | apply State.putCh_clock
    | refine State.Clock.same (State.mk_frame ..) (State.mk_running ..) ?_)

/-! Tile.lean -/

theorem State.showPort_clock {s₀ s : State} (hs₀ : s₀.Clock s) (t : Fin 16) (c : Conc) : s₀.Clock (State.showPort s
    t c) := by
  unfold State.showPort
  repeat (with_reducible first | exact hs₀ | apply State.put_clock | apply State.Clock.ite | split)
theorem State.portBoundary_clock {s₀ s : State} (hs₀ : s₀.Clock s) (t : Fin 16) (f : Nat) (c : Conc) : s₀.Clock
    (State.portBoundary s t f c) := by
  unfold State.portBoundary
  repeat (with_reducible first
    | exact hs₀
    | apply State.setPort_clock
    | apply State.showPort_clock
    | apply State.eventIf_clock
    | apply State.Clock.ite
    | split
    | refine State.Clock.same (State.mk_frame ..) (State.mk_running ..) ?_
    | dsimp only)
theorem State.dropHits_clock {s₀ s : State} (hs₀ : s₀.Clock s) (t : Fin 16) : s₀.Clock (State.dropHits s t) := by
  unfold State.dropHits
  repeat (with_reducible first
    | exact hs₀
    | apply State.setChan_clock
    | refine State.Clock.each ?_ ?_ <;> [(intro u x₁ hs₀; try dsimp only); skip]
    | refine State.Clock.same (State.mk_frame ..) (State.mk_running ..) ?_)
theorem State.decideAll_clock {s₀ s : State} (hs₀ : s₀.Clock s) (t : Fin 16) : s₀.Clock (State.decideAll s t) := by
  unfold State.decideAll
  repeat (with_reducible first
    | exact hs₀
    | apply State.setTile_clock
    | apply State.decideCand_clock
    | refine State.Clock.each ?_ ?_ <;> [(intro u x₁ hs₀; try dsimp only); skip]
    | refine State.Clock.same (State.mk_frame ..) (State.mk_running ..) ?_)
theorem State.stopRecording_clock {s₀ s : State} (hs₀ : s₀.Clock s) (t : Fin 16) (f reasons : Nat) : s₀.Clock
    (State.stopRecording s t f reasons) := by
  unfold State.stopRecording
  repeat (with_reducible first
    | exact hs₀
    | apply State.dropHits_clock
    | apply State.decideAll_clock
    | apply State.setTile_clock
    | apply State.Clock.ite
    | split
    | refine State.Clock.same (State.mk_frame ..) (State.mk_running ..) ?_
    | dsimp only)
theorem State.timingFault_clock {s₀ s : State} (hs₀ : s₀.Clock s) (t : Fin 16) (f : Nat) : s₀.Clock
    (State.timingFault s t f) := by
  unfold State.timingFault
  repeat (with_reducible first
    | exact hs₀
    | apply State.stopRecording_clock
    | apply State.putB_clock
    | apply State.Clock.ite
    | split
    | dsimp only)
theorem State.lockLost_clock {s₀ s : State} (hs₀ : s₀.Clock s) (t : Fin 16) : s₀.Clock (State.lockLost s t) := by
  unfold State.lockLost
  repeat (with_reducible first
    | exact hs₀
    | apply State.putB_clock
    | apply State.timingFault_clock
    | apply State.bump_clock
    | apply State.event_clock)
theorem State.coarseSlip_clock {s₀ s : State} (hs₀ : s₀.Clock s) (t : Fin 16) (f : Nat) : s₀.Clock (State.coarseSlip
    s t f) := by
  unfold State.coarseSlip
  repeat (with_reducible first
    | exact hs₀
    | apply State.timingFault_clock
    | apply State.setTile_clock
    | apply State.bump_clock
    | apply State.event_clock
    | refine State.Clock.same (State.mk_frame ..) (State.mk_running ..) ?_
    | dsimp only)
theorem State.resumeTile_clock {s₀ s : State} (hs₀ : s₀.Clock s) (t : Fin 16) (f : Nat) : s₀.Clock (State.resumeTile
    s t f) := by
  unfold State.resumeTile
  repeat (with_reducible first
    | exact hs₀
    | apply State.setTile_clock
    | apply State.setRx_clock
    | apply State.putB_clock
    | apply State.eventIf_clock
    | apply State.Clock.ite
    | refine State.Clock.each ?_ ?_ <;> [(intro u x₁ hs₀; try dsimp only); skip]
    | split
    | refine State.Clock.same (State.mk_frame ..) (State.mk_running ..) ?_
    | dsimp only)
theorem State.resetPages_clock {s₀ s : State} (hs₀ : s₀.Clock s) (lo hi : Nat) : s₀.Clock (State.resetPages s lo
    hi) := by
  unfold State.resetPages
  repeat (with_reducible first
    | exact hs₀
    | refine State.Clock.same (State.mk_frame ..) (State.mk_running ..) ?_
    | dsimp only)
theorem State.blockOff_clock {s₀ s : State} (hs₀ : s₀.Clock s) (t : Fin 16) (b : Nat) : s₀.Clock (State.blockOff s t
    b) := by
  unfold State.blockOff
  repeat (with_reducible first
    | exact hs₀
    | apply State.resetPages_clock
    | apply State.put_clock
    | refine State.Clock.same (State.mk_frame ..) (State.mk_running ..) ?_
    | dsimp only)
theorem State.blockTo_clock {s₀ s : State} (hs₀ : s₀.Clock s) (t : Fin 16) (b st : Nat) : s₀.Clock (State.blockTo s
    t b st) := by
  unfold State.blockTo
  repeat (with_reducible first
    | exact hs₀
    | apply State.disarmAll_clock
    | apply State.blockOff_clock
    | apply State.put_clock
    | apply State.Clock.ite
    | split
    | dsimp only)
theorem State.followBlocks_clock {s₀ s : State} (hs₀ : s₀.Clock s) (t : Fin 16) : s₀.Clock (State.followBlocks s
    t) := by
  unfold State.followBlocks
  repeat (with_reducible first
    | exact hs₀
    | apply State.blockTo_clock
    | refine State.Clock.each ?_ ?_ <;> [(intro u x₁ hs₀; try dsimp only); skip])
theorem State.tileFalls_clock {s₀ s : State} (hs₀ : s₀.Clock s) (t : Fin 16) (f st : Nat) : s₀.Clock
    (State.tileFalls s t f st) := by
  unfold State.tileFalls
  repeat (with_reducible first
    | exact hs₀
    | apply State.disarmAll_clock
    | apply State.setTile_clock
    | apply State.putB_clock
    | apply State.put_clock
    | apply State.Clock.ite
    | split
    | refine State.Clock.same (State.mk_frame ..) (State.mk_running ..) ?_
    | dsimp only)
theorem State.followTile_clock {s₀ s : State} (hs₀ : s₀.Clock s) (t : Fin 16) (f : Nat) : s₀.Clock (State.followTile
    s t f) := by
  unfold State.followTile
  repeat (with_reducible first
    | exact hs₀
    | apply State.tileFalls_clock
    | apply State.put_clock
    | apply State.followBlocks_clock
    | apply State.Clock.ite
    | split
    | dsimp only)
theorem State.tileLeaves_clock {s₀ s : State} (hs₀ : s₀.Clock s) (t : Fin 16) (f : Nat) : s₀.Clock (State.tileLeaves
    s t f) := by
  unfold State.tileLeaves
  repeat (with_reducible first
    | exact hs₀
    | apply State.setTile_clock
    | apply State.putB_clock
    | apply State.Clock.ite
    | split
    | refine State.Clock.same (State.mk_frame ..) (State.mk_running ..) ?_
    | dsimp only)
theorem State.tileBoundary_clock {s₀ s : State} (hs₀ : s₀.Clock s) (t : Fin 16) (f : Nat) (gained : BitVec 48) :
    s₀.Clock (State.tileBoundary s t f gained) := by
  unfold State.tileBoundary
  repeat (with_reducible first
    | exact hs₀
    | apply State.setTile_clock
    | apply State.coarseSlip_clock
    | apply State.followTile_clock
    | apply State.resumeTile_clock
    | apply State.tileLeaves_clock
    | apply State.portBoundary_clock
    | apply State.Clock.ite
    | split
    | refine State.Clock.same (State.mk_frame ..) (State.mk_running ..) ?_
    | dsimp only)

/-! Stack.lean -/

theorem State.stackSleeps_clock {s₀ s : State} (hs₀ : s₀.Clock s) (c : Conc) : s₀.Clock (State.stackSleeps s c) := by
  unfold State.stackSleeps
  repeat (with_reducible first
    | exact hs₀
    | apply State.setConc_clock
    | refine State.Clock.same (State.mk_frame ..) (State.mk_running ..) ?_
    | dsimp only)
theorem State.showWbuf_clock {s₀ s : State} (hs₀ : s₀.Clock s) (c : Conc) : s₀.Clock (State.showWbuf s c) := by
  unfold State.showWbuf
  repeat (with_reducible first | exact hs₀ | apply State.put_clock | apply State.peak_clock | dsimp only)

/-! Merge.lean -/

theorem State.countAnywhere_clock {s₀ s : State} (hs₀ : s₀.Clock s) (page r : Nat) (x0 : EccRead) : s₀.Clock
    (State.countAnywhere s page r x0) := by
  unfold State.countAnywhere
  repeat (with_reducible first
    | exact hs₀
    | apply State.draw_clock
    | apply State.countRead_clock
    | split
    | dsimp only)
theorem State.showLag_clock {s₀ s : State} (hs₀ : s₀.Clock s) (c : Conc) : s₀.Clock (State.showLag s c) := by
  unfold State.showLag
  repeat (with_reducible first | exact hs₀ | apply State.put_clock)
theorem State.showBacklog_clock {s₀ s : State} (hs₀ : s₀.Clock s) (c : Conc) : s₀.Clock (State.showBacklog s c) := by
  unfold State.showBacklog
  repeat (with_reducible first
    | exact hs₀
    | apply State.put_clock
    | apply State.peak_clock
    | apply State.overflow_clock
    | apply State.Clock.ite
    | split
    | dsimp only)
theorem State.modeReturn_clock {s₀ s : State} (hs₀ : s₀.Clock s) (c : Conc) : s₀.Clock (State.modeReturn s c) := by
  unfold State.modeReturn
  repeat (with_reducible first
    | exact hs₀
    | apply State.put_clock
    | apply State.event_clock
    | apply State.Clock.ite
    | split
    | dsimp only)
theorem State.sendCross_clock {s₀ s : State} (hs₀ : s₀.Clock s) (c : Conc) (m : CrossMsg) : s₀.Clock
    (State.sendCross s c m) := by
  unfold State.sendCross
  repeat (with_reducible first
    | exact hs₀
    | apply State.setConc_clock
    | apply State.Clock.ite
    | split
    | refine State.Clock.same (State.mk_frame ..) (State.mk_running ..) ?_
    | dsimp only)
theorem State.showElig_clock {s₀ s : State} (hs₀ : s₀.Clock s) (c : Conc) : s₀.Clock (State.showElig s c) := by
  unfold State.showElig
  repeat (with_reducible first | exact hs₀ | apply State.putB_clock)
theorem State.setPair_clock {s₀ s : State} (hs₀ : s₀.Clock s) (c : Conc) (v : Nat) : s₀.Clock (State.setPair s c
    v) := by
  unfold State.setPair
  repeat (with_reducible first
    | exact hs₀
    | apply State.put_clock
    | apply State.showElig_clock
    | refine State.Clock.same (State.mk_frame ..) (State.mk_running ..) ?_)
theorem State.govSettle_clock {s₀ s : State} (hs₀ : s₀.Clock s) (c : Conc) : s₀.Clock (State.govSettle s c) := by
  unfold State.govSettle
  repeat (with_reducible first
    | exact hs₀
    | apply State.put_clock
    | apply State.putB_clock
    | apply State.Clock.ite
    | split
    | dsimp only)

/-! Regs.lean -/

theorem State.showStaged_clock {s₀ s : State} (hs₀ : s₀.Clock s) (c : Conc) : s₀.Clock (State.showStaged s c) := by
  unfold State.showStaged
  repeat (with_reducible first | exact hs₀ | apply State.put_clock)
theorem State.stageEntry_clock {s₀ s : State} (hs₀ : s₀.Clock s) (c : Conc) (chan : Nat) (e : BitVec 128) : s₀.Clock
    (State.stageEntry s c chan e) := by
  unfold State.stageEntry
  extract_lets cs
  split
  · exact State.event_clock (State.putB_clock (State.bump_clock hs₀ ..) ..) ..
  · exact State.showStaged_clock (State.setConc_clock hs₀ ..) ..
theorem State.stageCorr_clock {s₀ s : State} (hs₀ : s₀.Clock s) (c : Conc) (chan w : Nat) (v : Word) : s₀.Clock
    (State.stageCorr s c chan w v).2 := State.stageEntry_clock hs₀ ..
theorem State.record_clock {s₀ s : State} (hs₀ : s₀.Clock s) (page off : Nat) (d : RegDef) : s₀.Clock (State.record
    s page off d) := by
  unfold State.record
  repeat (with_reducible first
    | exact hs₀
    | apply State.putB_clock
    | apply State.Clock.ite
    | split
    | refine State.Clock.same (State.mk_frame ..) (State.mk_running ..) ?_
    | dsimp only)
theorem State.store_clock {s₀ s : State} (hs₀ : s₀.Clock s) (k : PageKind) (page off : Nat) (new : Word) : s₀.Clock
    (State.store s k page off new) := by
  unfold State.store
  split
  · exact State.wr_clock hs₀ ..
  · exact .same (State.mk_frame ..) (State.mk_running ..) (State.wr_clock hs₀ ..)
theorem State.storeLo_clock {s₀ s : State} (hs₀ : s₀.Clock s) (page off : Nat) (new : Word) : s₀.Clock
    (State.storeLo s page off new) := State.store_clock (.ite hs₀ (.same (State.mk_frame ..) (State.mk_running ..)
    hs₀)) ..
theorem State.storeInc_clock {s₀ s : State} (hs₀ : s₀.Clock s) (page off : Nat) (v : Word) : s₀.Clock
    (State.storeInc s page off v) := by
  unfold State.storeInc
  extract_lets n keep st
  exact .same (State.mk_frame ..) (State.mk_running ..) (State.wr_clock (State.wr_clock hs₀ ..) ..)
theorem State.storeSetting_clock {s₀ s : State} (hs₀ : s₀.Clock s) (k : PageKind) (page off : Nat) (new v : Word) :
    s₀.Clock (State.storeSetting s k page off new v) := .ite (State.storeInc_clock hs₀ ..) (.ite
    (State.storeLo_clock hs₀ ..) (State.store_clock hs₀ ..))
theorem State.writePlain_clock {s₀ s : State} (hs₀ : s₀.Clock s) (k : PageKind) (page off : Nat) (d : RegDef) (v :
    Word) (rwl : Bool) : s₀.Clock (State.writePlain s k page off d v rwl).2 := by
  unfold State.writePlain
  extract_lets shut new u w ones x
  split
  · exact hs₀
  split
  · exact State.event_clock hs₀ ..
  split
  · exact State.bump_clock hs₀ ..
  have hu : s₀.Clock u := State.storeSetting_clock hs₀ ..
  have hw : s₀.Clock w := State.record_clock hu ..
  have hx : s₀.Clock x := .ite hw (.same (State.mk_frame ..) (State.mk_running ..) hw)
  split
  · exact State.wr_clock hx ..
  · exact hx
theorem State.writeLive_clock {s₀ s : State} (hs₀ : s₀.Clock s) (k : PageKind) (page off : Nat) (d : RegDef) (v :
    Word) (rwl : Bool) : s₀.Clock (State.writeLive s k page off d v rwl).2 := by
  unfold State.writeLive
  repeat (with_reducible first
    | split
    | exact hs₀
    | apply State.stageCorr_clock
    | apply State.writePlain_clock
    | refine State.Clock.same (State.mk_frame ..) (State.mk_running ..) ?_)
theorem State.writeOff_clock {s₀ s : State} (hs₀ : s₀.Clock s) (k : PageKind) (page off : Nat) (d : RegDef) (v :
    Word) (rwl : Bool) : s₀.Clock (State.writeOff s k page off d v rwl).2 := by
  unfold State.writeOff
  extract_lets shut key base c e m new u
  have hu : s₀.Clock u := by
    refine .ite ?_ (.ite ?_ (.ite ?_ ?_))
    · exact .same (State.mk_frame ..) (State.mk_running ..) hs₀
    · exact .same (State.mk_frame ..) (State.mk_running ..) hs₀
    · exact .same (State.mk_frame ..) (State.mk_running ..) hs₀
    · exact .ite hs₀ (.same (State.mk_frame ..) (State.mk_running ..) hs₀)
  split
  · exact hu
  split <;> exact hu
theorem State.writeOnePage_clock {s₀ s : State} (hs₀ : s₀.Clock s) (page off : Nat) (v : Word) (rwl : Bool) :
    s₀.Clock (State.writeOnePage s page off v rwl).2 := by
  unfold State.writeOnePage
  repeat (with_reducible first | split | exact hs₀ | apply State.writeOff_clock | apply State.writeLive_clock)
theorem State.countResult_clock {s₀ s : State} (hs₀ : s₀.Clock s) (r : Nat) : s₀.Clock (State.countResult s r) := by
  unfold State.countResult
  repeat (with_reducible first
    | exact hs₀
    | apply State.bump_clock
    | apply State.event_clock
    | apply State.Clock.ite
    | split)
theorem State.noteWrites_clock {s₀ s : State} (hs₀ : s₀.Clock s) (l : List (Nat × Nat)) (off : Nat) (v : Word) (n :
    Nat) (rwl : Bool) : s₀.Clock (State.noteWrites s l off v n rwl) := by
  unfold State.noteWrites
  repeat (with_reducible first
    | exact hs₀
    | apply State.noteChange_clock
    | apply State.Clock.ite
    | refine State.Clock.each ?_ ?_ <;> [(intro u x₁ hs₀; try dsimp only); skip]
    | split)
theorem State.stageClr_clock {s₀ s : State} (hs₀ : s₀.Clock s) (c : Conc) : s₀.Clock (State.stageClr s c) := by
  unfold State.stageClr
  repeat (with_reducible first
    | exact hs₀
    | apply State.setConc_clock
    | apply State.putB_clock
    | apply State.showStaged_clock
    | refine State.Clock.same (State.mk_frame ..) (State.mk_running ..) ?_)
theorem State.discardStaged_clock {s₀ s : State} (hs₀ : s₀.Clock s) (page : Nat) : s₀.Clock (State.discardStaged s
    page) := by
  unfold State.discardStaged
  repeat (with_reducible first
    | exact hs₀
    | apply State.stageClr_clock
    | apply State.Clock.ite
    | split
    | refine State.Clock.same (State.mk_frame ..) (State.mk_running ..) ?_)

/-! Swap.lean -/

theorem State.clearHist_clock {s₀ s : State} (hs₀ : s₀.Clock s) (c : Conc) (captures : Bool) : s₀.Clock
    (State.clearHist s c captures) := by
  unfold State.clearHist
  repeat (with_reducible first
    | exact hs₀
    | apply State.setConc_clock
    | apply State.Clock.ite
    | split
    | refine State.Clock.same (State.mk_frame ..) (State.mk_running ..) ?_)
theorem State.restartTurn_clock {s₀ s : State} (hs₀ : s₀.Clock s) (captures : Bool) : s₀.Clock (State.restartTurn s
    captures) := by
  unfold State.restartTurn
  repeat (with_reducible first
    | exact hs₀
    | apply State.clearHist_clock
    | refine State.Clock.each ?_ ?_ <;> [(intro u x₁ hs₀; try dsimp only); skip]
    | refine State.Clock.same (State.mk_frame ..) (State.mk_running ..) ?_
    | dsimp only)
theorem State.beginTurn_clock {s₀ s : State} (hs₀ : s₀.Clock s) (first : Nat) : s₀.Clock (State.beginTurn s
    first) := by
  unfold State.beginTurn
  repeat (with_reducible first
    | exact hs₀
    | apply State.restartTurn_clock
    | apply State.put_clock
    | split
    | refine State.Clock.same (State.mk_frame ..) (State.mk_running ..) ?_
    | dsimp only)
theorem State.showSwap_clock {s₀ s : State} (hs₀ : s₀.Clock s) : s₀.Clock (State.showSwap s) := by
  unfold State.showSwap
  repeat (with_reducible first | exact hs₀ | apply State.putB_clock | dsimp only)
theorem State.journalSwap_clock {s₀ s : State} (hs₀ : s₀.Clock s) (t : Fin 16) (result epoch : Nat) : s₀.Clock
    (State.journalSwap s t result epoch).2 := by
  unfold State.journalSwap
  repeat (with_reducible first | split | exact hs₀ | apply State.append_clock)
theorem State.nextTurn_clock {s₀ s : State} (hs₀ : s₀.Clock s) (t : Fin 16) : s₀.Clock (State.nextTurn s t) := by
  unfold State.nextTurn
  repeat (with_reducible first | exact hs₀ | apply State.beginTurn_clock | apply State.Clock.ite | split)
theorem State.withdrawSwap_clock {s₀ s : State} (hs₀ : s₀.Clock s) : s₀.Clock (State.withdrawSwap s) := by
  unfold State.withdrawSwap
  repeat (with_reducible first
    | exact hs₀
    | apply State.discardStaged_clock
    | apply State.bump_clock
    | apply State.event_clock
    | apply State.showSwap_clock
    | apply State.putB_clock
    | apply State.journalSwap_clock
    | apply State.nextTurn_clock
    | apply State.Clock.ite
    | refine State.Clock.each ?_ ?_ <;> [(intro u x₁ hs₀; try dsimp only); skip]
    | split
    | refine State.Clock.same (State.mk_frame ..) (State.mk_running ..) ?_
    | dsimp only)
theorem State.checkSwap_clock {s₀ s : State} (hs₀ : s₀.Clock s) : s₀.Clock (State.checkSwap s) := by
  unfold State.checkSwap
  repeat (with_reducible first | exact hs₀ | apply State.withdrawSwap_clock | apply State.Clock.ite | split)

/-! Trig.lean -/

theorem State.refuseTrigger_clock {s₀ s : State} (hs₀ : s₀.Clock s) : s₀.Clock (State.refuseTrigger s) := by
  unfold State.refuseTrigger
  repeat (with_reducible first | exact hs₀ | apply State.bump_clock | apply State.event_clock)
theorem State.convertTimed_clock {s₀ s : State} (hs₀ : s₀.Clock s) (f : Nat) : s₀.Clock (State.convertTimed s f) := by
  unfold State.convertTimed
  repeat (with_reducible first
    | exact hs₀
    | apply State.refuseTrigger_clock
    | refine State.Clock.each ?_ ?_ <;> [(intro u x₁ hs₀; try dsimp only); skip]
    | refine State.Clock.same (State.mk_frame ..) (State.mk_running ..) ?_
    | dsimp only)
theorem State.gateEdge_clock {s₀ s : State} (hs₀ : s₀.Clock s) (p : Pin) (isOpen : Bool) (time : Nat) : s₀.Clock
    (State.gateEdge s p isOpen time) := by
  unfold State.gateEdge
  repeat (with_reducible first
    | exact hs₀
    | apply State.putB_clock
    | apply State.setTile_clock
    | apply State.Clock.ite
    | refine State.Clock.each ?_ ?_ <;> [(intro u x₁ hs₀; try dsimp only); skip]
    | split
    | refine State.Clock.same (State.mk_frame ..) (State.mk_running ..) ?_
    | dsimp only)
theorem State.gatePolChanged_clock {s₀ s : State} (hs₀ : s₀.Clock s) (p : Pin) (f : Nat) : s₀.Clock
    (State.gatePolChanged s p f) := by
  unfold State.gatePolChanged
  repeat (with_reducible first | exact hs₀ | apply State.gateEdge_clock | apply State.Clock.ite | split | dsimp only)
theorem State.sendWindow_clock {s₀ s : State} (hs₀ : s₀.Clock s) (mo mc : Nat) : s₀.Clock (State.sendWindow s mo
    mc) := by
  unfold State.sendWindow
  repeat (with_reducible first
    | exact hs₀
    | apply State.setTile_clock
    | refine State.Clock.each ?_ ?_ <;> [(intro u x₁ hs₀; try dsimp only); skip]
    | refine State.Clock.same (State.mk_frame ..) (State.mk_running ..) ?_
    | dsimp only)
theorem State.sendWindows_clock {s₀ s : State} (hs₀ : s₀.Clock s) : s₀.Clock (State.sendWindows s) := by
  unfold State.sendWindows
  repeat (with_reducible first
    | exact hs₀
    | apply State.sendWindow_clock
    | apply State.Clock.ite
    | refine State.Clock.each ?_ ?_ <;> [(intro u x₁ hs₀; try dsimp only); skip]
    | split
    | refine State.Clock.same (State.mk_frame ..) (State.mk_running ..) ?_
    | dsimp only)
theorem State.markTimed_clock {s₀ s : State} (hs₀ : s₀.Clock s) (f : Nat) : s₀.Clock (State.markTimed s f) := by
  unfold State.markTimed
  repeat (with_reducible first
    | exact hs₀
    | apply State.Clock.ite
    | split
    | refine State.Clock.same (State.mk_frame ..) (State.mk_running ..) ?_
    | dsimp only)
theorem State.requestResend_clock {s₀ s : State} (hs₀ : s₀.Clock s) (first count : Nat) : s₀.Clock
    (State.requestResend s first count) := by
  unfold State.requestResend
  repeat (with_reducible first
    | exact hs₀
    | apply State.Clock.ite
    | split
    | refine State.Clock.same (State.mk_frame ..) (State.mk_running ..) ?_)
theorem State.queueResend_clock {s₀ s : State} (hs₀ : s₀.Clock s) (c : Conc) (r : Nat × Nat) : s₀.Clock
    (State.queueResend s c r) := by
  unfold State.queueResend
  repeat (with_reducible first
    | exact hs₀
    | apply State.setConc_clock
    | apply State.put_clock
    | apply State.bump_clock
    | apply State.event_clock
    | apply State.Clock.ite
    | split
    | refine State.Clock.same (State.mk_frame ..) (State.mk_running ..) ?_
    | dsimp only)
theorem State.deliverResends_clock {s₀ s : State} (hs₀ : s₀.Clock s) : s₀.Clock (State.deliverResends s) := by
  unfold State.deliverResends
  repeat (with_reducible first
    | exact hs₀
    | apply State.queueResend_clock
    | refine State.Clock.each ?_ ?_ <;> [(intro u x₁ hs₀; try dsimp only); skip]
    | refine State.Clock.same (State.mk_frame ..) (State.mk_running ..) ?_)

/-! Dram.lean -/

theorem State.abortScrub_clock {s₀ s : State} (hs₀ : s₀.Clock s) (page : Nat) : s₀.Clock (State.abortScrub s
    page) := by
  unfold State.abortScrub
  repeat (with_reducible first
    | exact hs₀
    | apply State.putB_clock
    | apply State.Clock.ite
    | split
    | refine State.Clock.same (State.mk_frame ..) (State.mk_running ..) ?_)
theorem State.abortScrubOf_clock {s₀ s : State} (hs₀ : s₀.Clock s) (c : Conc) (mem : Nat) : s₀.Clock
    (State.abortScrubOf s c mem) := by
  unfold State.abortScrubOf
  repeat (with_reducible first | exact hs₀ | apply State.abortScrub_clock | apply State.Clock.ite | split)
theorem State.setMc_clock {s₀ s : State} (hs₀ : s₀.Clock s) (c : Conc) (m : DramSt) : s₀.Clock (State.setMc s c
    m) := by
  unfold State.setMc
  repeat (with_reducible first
    | exact hs₀
    | apply State.setConc_clock
    | refine State.Clock.same (State.mk_frame ..) (State.mk_running ..) ?_)
theorem State.startChange_clock {s₀ s : State} (hs₀ : s₀.Clock s) (c : Conc) (p : Nat) : s₀.Clock (State.startChange
    s c p) := by
  unfold State.startChange
  repeat (with_reducible first
    | exact hs₀
    | apply State.setMc_clock
    | apply State.putB_clock
    | apply State.Clock.ite
    | split
    | refine State.Clock.same (State.mk_frame ..) (State.mk_running ..) ?_)
theorem State.pinPoint_clock {s₀ s : State} (hs₀ : s₀.Clock s) (c : Conc) : s₀.Clock (State.pinPoint s c) := by
  unfold State.pinPoint
  repeat (with_reducible first
    | exact hs₀
    | apply State.setMc_clock
    | apply State.startChange_clock
    | apply State.Clock.ite
    | split
    | refine State.Clock.same (State.mk_frame ..) (State.mk_running ..) ?_
    | dsimp only)
theorem State.showRetired_clock {s₀ s : State} (hs₀ : s₀.Clock s) (c : Conc) : s₀.Clock (State.showRetired s c) := by
  unfold State.showRetired
  repeat (with_reducible first | exact hs₀ | apply State.putB_clock | apply State.put_clock | split | dsimp only)
theorem State.skipUnsent_clock {s₀ s : State} (hs₀ : s₀.Clock s) (c : Conc) (n : Nat) : s₀.Clock (State.skipUnsent s
    c n) := by
  unfold State.skipUnsent
  repeat (with_reducible first | exact hs₀ | apply State.bump_clock)
theorem State.showReplayFrom_clock {s₀ s : State} (hs₀ : s₀.Clock s) (c : Conc) (f : Nat) : s₀.Clock
    (State.showReplayFrom s c f) := by
  unfold State.showReplayFrom
  repeat (with_reducible first | exact hs₀ | apply State.put_clock)
theorem State.showShadowFrom_clock {s₀ s : State} (hs₀ : s₀.Clock s) (c : Conc) (f : Nat) : s₀.Clock
    (State.showShadowFrom s c f) := by
  unfold State.showShadowFrom
  repeat (with_reducible first | exact hs₀ | apply State.put_clock)
theorem State.skipToBoundary_clock {s₀ s : State} (hs₀ : s₀.Clock s) (c : Conc) : s₀.Clock (State.skipToBoundary s
    c) := by
  unfold State.skipToBoundary
  repeat (with_reducible first
    | exact hs₀
    | apply State.skipUnsent_clock
    | apply State.setConc_clock
    | apply State.showReplayFrom_clock
    | apply State.modeReturn_clock
    | apply State.showBacklog_clock
    | refine State.Clock.same (State.mk_frame ..) (State.mk_running ..) ?_
    | dsimp only)
theorem State.retire_clock {s₀ s : State} (hs₀ : s₀.Clock s) (c : Conc) (chan : Nat) : s₀.Clock (State.retire s c
    chan) := by
  unfold State.retire
  repeat (with_reducible first
    | exact hs₀
    | apply State.setMc_clock
    | apply State.setConc_clock
    | apply State.showRetired_clock
    | apply State.skipToBoundary_clock
    | apply State.abortScrubOf_clock
    | apply State.event_clock
    | apply State.showShadowFrom_clock
    | apply State.Clock.ite
    | split
    | refine State.Clock.same (State.mk_frame ..) (State.mk_running ..) ?_
    | dsimp only)
theorem State.retireOrDeny_clock {s₀ s : State} (hs₀ : s₀.Clock s) (c : Conc) (chan : Nat) : s₀.Clock
    (State.retireOrDeny s c chan) := by
  unfold State.retireOrDeny
  repeat (with_reducible first
    | exact hs₀
    | apply State.event_clock
    | apply State.retire_clock
    | apply State.Clock.ite
    | split)
theorem State.releaseFreeze_clock {s₀ s : State} (hs₀ : s₀.Clock s) (c : Conc) : s₀.Clock (State.releaseFreeze s
    c) := by
  unfold State.releaseFreeze
  repeat (with_reducible first
    | exact hs₀
    | apply State.retireOrDeny_clock
    | apply State.putB_clock
    | apply State.setConc_clock
    | apply State.checkSwap_clock
    | apply State.Clock.ite
    | refine State.Clock.each ?_ ?_ <;> [(intro u x₁ hs₀; try dsimp only); skip]
    | split
    | refine State.Clock.same (State.mk_frame ..) (State.mk_running ..) ?_
    | dsimp only)
theorem State.startHostRead_clock {s₀ s : State} (hs₀ : s₀.Clock s) (c : Conc) : s₀.Clock (State.startHostRead s
    c) := by
  unfold State.startHostRead
  repeat (with_reducible first
    | exact hs₀
    | apply State.setConc_clock
    | apply State.putB_clock
    | apply State.Clock.ite
    | split
    | refine State.Clock.same (State.mk_frame ..) (State.mk_running ..) ?_)

/-! Glean.lean -/

theorem State.showResend_clock {s₀ s : State} (hs₀ : s₀.Clock s) (c : Conc) : s₀.Clock (State.showResend s c) := by
  unfold State.showResend
  repeat (with_reducible first | exact hs₀ | apply State.put_clock | apply State.putB_clock | split | dsimp only)

/-! Scrub.lean -/

theorem State.clearSummary_clock {s₀ s : State} (hs₀ : s₀.Clock s) (page : Nat) : s₀.Clock (State.clearSummary s
    page) := by
  unfold State.clearSummary
  repeat (with_reducible first | exact hs₀ | apply State.put_clock)
theorem State.scrubGo_clock {s₀ s : State} (hs₀ : s₀.Clock s) (p : IntPage) : s₀.Clock (State.scrubGo s p) := by
  unfold State.scrubGo
  repeat (with_reducible first
    | exact hs₀
    | apply State.clearSummary_clock
    | apply State.putB_clock
    | apply State.Clock.ite
    | split
    | refine State.Clock.same (State.mk_frame ..) (State.mk_running ..) ?_
    | dsimp only)
theorem State.threshChanged_clock {s₀ s : State} (hs₀ : s₀.Clock s) (page r : Nat) : s₀.Clock (State.threshChanged s
    page r) := by
  unfold State.threshChanged
  repeat (with_reducible first | exact hs₀ | apply State.eventIf_clock)
theorem State.faultClr_clock {s₀ s : State} (hs₀ : s₀.Clock s) (page : Nat) : s₀.Clock (State.faultClr s page) := by
  unfold State.faultClr
  repeat (with_reducible first
    | exact hs₀
    | apply State.put_clock
    | apply State.showRemap_clock
    | apply State.Clock.ite
    | refine State.Clock.each ?_ ?_ <;> [(intro u x₁ hs₀; try dsimp only); skip]
    | split)

/-! Lanes.lean -/

theorem State.putLaneBit_clock {s₀ s : State} (hs₀ : s₀.Clock s) (c : Conc) (lo hi : FieldRef) (l : Nat) (b : Bool)
    : s₀.Clock (State.putLaneBit s c lo hi l b) := by
  unfold State.putLaneBit
  repeat (with_reducible first | exact hs₀ | apply State.putB_clock | apply State.Clock.ite | split)
theorem State.putLaneState_clock {s₀ s : State} (hs₀ : s₀.Clock s) (c : Conc) (l st : Nat) : s₀.Clock
    (State.putLaneState s c l st) := by
  unfold State.putLaneState
  repeat (with_reducible first | exact hs₀ | apply State.put_clock)
theorem State.showLane_clock {s₀ s : State} (hs₀ : s₀.Clock s) (c : Conc) (l : Nat) : s₀.Clock (State.showLane s c
    l) := by
  unfold State.showLane
  repeat (with_reducible first | exact hs₀ | apply State.putB_clock | apply State.putLaneBit_clock | dsimp only)
theorem State.showDriving_clock {s₀ s : State} (hs₀ : s₀.Clock s) (c : Conc) : s₀.Clock (State.showDriving s c) := by
  unfold State.showDriving
  repeat (with_reducible first | exact hs₀ | apply State.putB_clock)
theorem State.forceIdle_clock {s₀ s : State} (hs₀ : s₀.Clock s) (c : Conc) : s₀.Clock (State.forceIdle s c) := by
  unfold State.forceIdle
  repeat (with_reducible first
    | exact hs₀
    | apply State.putLaneState_clock
    | apply State.setConc_clock
    | apply State.Clock.ite
    | refine State.Clock.each ?_ ?_ <;> [(intro u x₁ hs₀; try dsimp only); skip]
    | split
    | refine State.Clock.same (State.mk_frame ..) (State.mk_running ..) ?_
    | dsimp only)
theorem State.checked_clock {s₀ s : State} (hs₀ : s₀.Clock s) (c : Conc) (l : Nat) (x0 : CheckStep) : s₀.Clock
    (State.checked s c l x0) := by
  unfold State.checked
  repeat (with_reducible first
    | exact hs₀
    | apply State.putB_clock
    | apply State.bump64_clock
    | apply State.bump_clock
    | apply State.event_clock
    | apply State.Clock.ite
    | split
    | dsimp only)
theorem State.testBit_clock {s₀ s : State} (hs₀ : s₀.Clock s) (c : Conc) (l : Nat) (err : Bool) : s₀.Clock
    (State.testBit s c l err) := by
  unfold State.testBit
  repeat (with_reducible first
    | exact hs₀
    | apply State.setConc_clock
    | apply State.checked_clock
    | apply State.Clock.ite
    | split
    | refine State.Clock.same (State.mk_frame ..) (State.mk_running ..) ?_
    | dsimp only)
theorem State.testChanged_clock {s₀ s : State} (hs₀ : s₀.Clock s) (c : Conc) (l : Nat) : s₀.Clock (State.testChanged
    s c l) := by
  unfold State.testChanged
  repeat (with_reducible first
    | exact hs₀
    | apply State.putLaneState_clock
    | apply State.bump_clock
    | apply State.draw_clock
    | apply State.setConc_clock
    | apply State.putB_clock
    | apply State.showLane_clock
    | apply State.Clock.ite
    | split
    | refine State.Clock.same (State.mk_frame ..) (State.mk_running ..) ?_
    | dsimp only)
theorem State.endTest_clock {s₀ s : State} (hs₀ : s₀.Clock s) (c : Conc) (l : Nat) : s₀.Clock (State.endTest s c
    l) := by
  unfold State.endTest
  repeat (with_reducible first
    | exact hs₀
    | apply State.putB_clock
    | apply State.testChanged_clock
    | apply State.Clock.ite
    | split
    | refine State.Clock.same (State.mk_frame ..) (State.mk_running ..) ?_
    | dsimp only)
theorem State.injOne_clock {s₀ s : State} (hs₀ : s₀.Clock s) (c : Conc) (l : Nat) : s₀.Clock (State.injOne s c
    l) := by
  unfold State.injOne
  repeat (with_reducible first
    | exact hs₀
    | apply State.setConc_clock
    | apply State.Clock.ite
    | split
    | refine State.Clock.same (State.mk_frame ..) (State.mk_running ..) ?_)
theorem State.deliverMask_clock {s₀ s : State} (hs₀ : s₀.Clock s) (c : Conc) : s₀.Clock (State.deliverMask s c) := by
  unfold State.deliverMask
  repeat (with_reducible first
    | exact hs₀
    | apply State.setConc_clock
    | apply State.endTest_clock
    | apply State.Clock.ite
    | refine State.Clock.each ?_ ?_ <;> [(intro u x₁ hs₀; try dsimp only); skip]
    | split
    | refine State.Clock.same (State.mk_frame ..) (State.mk_running ..) ?_
    | dsimp only)

/-! InStep.lean -/

theorem State.toll_clock {s₀ s : State} (hs₀ : s₀.Clock s) (c : Conc) : s₀.Clock (State.toll s c) := by
  unfold State.toll
  repeat (with_reducible first
    | exact hs₀
    | apply State.setConc_clock
    | apply State.putB_clock
    | apply State.showElig_clock
    | apply State.bump_clock
    | apply State.Clock.ite
    | split
    | refine State.Clock.same (State.mk_frame ..) (State.mk_running ..) ?_
    | dsimp only)
theorem State.setDeadline_clock {s₀ s : State} (hs₀ : s₀.Clock s) (c : Conc) (d : Nat) : s₀.Clock (State.setDeadline
    s c d) := by
  unfold State.setDeadline
  repeat (with_reducible first
    | exact hs₀
    | apply State.put_clock
    | apply State.setConc_clock
    | refine State.Clock.same (State.mk_frame ..) (State.mk_running ..) ?_
    | dsimp only)
theorem State.grant_clock {s₀ s : State} (hs₀ : s₀.Clock s) (c : Conc) : s₀.Clock (State.grant s c) := by
  unfold State.grant
  repeat (with_reducible first
    | exact hs₀
    | apply State.put_clock
    | apply State.bump_clock
    | apply State.event_clock
    | apply State.setDeadline_clock
    | apply State.putB_clock
    | apply State.showDriving_clock
    | refine State.Clock.same (State.mk_frame ..) (State.mk_running ..) ?_
    | dsimp only)
theorem State.enterGuard_clock {s₀ s : State} (hs₀ : s₀.Clock s) (c : Conc) (t : Nat) : s₀.Clock (State.enterGuard s
    c t) := by
  unfold State.enterGuard
  repeat (with_reducible first
    | exact hs₀
    | apply State.put_clock
    | apply State.putB_clock
    | apply State.showDriving_clock
    | apply State.forceIdle_clock
    | refine State.Clock.same (State.mk_frame ..) (State.mk_running ..) ?_
    | dsimp only)
theorem State.lapse_clock {s₀ s : State} (hs₀ : s₀.Clock s) (c : Conc) : s₀.Clock (State.lapse s c) := by
  unfold State.lapse
  repeat (with_reducible first
    | exact hs₀
    | apply State.bump_clock
    | apply State.put_clock
    | apply State.event_clock
    | apply State.journalEvent_clock
    | apply State.enterGuard_clock
    | refine State.Clock.same (State.mk_frame ..) (State.mk_running ..) ?_
    | dsimp only)
theorem State.leaseLapse_clock {s₀ s : State} (hs₀ : s₀.Clock s) (at_ : Nat) : s₀.Clock (State.leaseLapse s at_) := by
  unfold State.leaseLapse
  repeat (with_reducible first
    | exact hs₀
    | apply State.advance_clock
    | apply State.lapse_clock
    | apply State.Clock.ite
    | split)
theorem State.stickOutcome_clock {s₀ s : State} (hs₀ : s₀.Clock s) (x : StickCmd) (r : Nat) : s₀.Clock
    (State.stickOutcome s x r) := by
  unfold State.stickOutcome
  repeat (with_reducible first
    | exact hs₀
    | apply State.bump_clock
    | apply State.event_clock
    | apply State.append_clock
    | apply State.answerHeld_clock
    | apply State.Clock.ite
    | split
    | dsimp only)
theorem State.dropTarget_clock {s₀ s : State} (hs₀ : s₀.Clock s) : s₀.Clock (State.dropTarget s) := by
  unfold State.dropTarget
  repeat (with_reducible first
    | exact hs₀
    | apply State.stickOutcome_clock
    | split
    | refine State.Clock.same (State.mk_frame ..) (State.mk_running ..) ?_)
theorem State.hostGrant_clock {s₀ s : State} (hs₀ : s₀.Clock s) (x : StickCmd) : s₀.Clock (State.hostGrant s x) := by
  unfold State.hostGrant
  repeat (with_reducible first
    | exact hs₀
    | apply State.dropTarget_clock
    | apply State.stickOutcome_clock
    | apply State.bump_clock
    | apply State.enterGuard_clock
    | apply State.grant_clock
    | apply State.Clock.ite
    | split
    | refine State.Clock.same (State.mk_frame ..) (State.mk_running ..) ?_
    | dsimp only)
theorem State.hostRevoke_clock {s₀ s : State} (hs₀ : s₀.Clock s) (x : StickCmd) : s₀.Clock (State.hostRevoke s
    x) := by
  unfold State.hostRevoke
  repeat (with_reducible first
    | exact hs₀
    | apply State.stickOutcome_clock
    | apply State.bump_clock
    | apply State.enterGuard_clock
    | apply State.dropTarget_clock
    | apply State.Clock.ite
    | split
    | refine State.Clock.same (State.mk_frame ..) (State.mk_running ..) ?_
    | dsimp only)
theorem State.stickCommand_clock {s₀ s : State} (hs₀ : s₀.Clock s) (x : StickCmd) : s₀.Clock (State.stickCommand s
    x) := by
  unfold State.stickCommand
  repeat (with_reducible first
    | exact hs₀
    | apply State.hostGrant_clock
    | apply State.hostRevoke_clock
    | apply State.stickOutcome_clock
    | apply State.Clock.ite
    | split)
theorem State.autoGrant_clock {s₀ s : State} (hs₀ : s₀.Clock s) : s₀.Clock (State.autoGrant s) := by
  unfold State.autoGrant
  repeat (with_reducible first
    | exact hs₀
    | apply State.bump_clock
    | apply State.grant_clock
    | apply State.put_clock
    | apply State.event_clock
    | apply State.Clock.ite
    | split
    | dsimp only)
theorem State.endGuard_clock {s₀ s : State} (hs₀ : s₀.Clock s) : s₀.Clock (State.endGuard s) := by
  unfold State.endGuard
  repeat (with_reducible first
    | exact hs₀
    | apply State.grant_clock
    | apply State.stickOutcome_clock
    | apply State.put_clock
    | apply State.autoGrant_clock
    | apply State.Clock.ite
    | split
    | refine State.Clock.same (State.mk_frame ..) (State.mk_running ..) ?_
    | dsimp only)
theorem State.guardEndAt_clock {s₀ s : State} (hs₀ : s₀.Clock s) (at_ : Nat) : s₀.Clock (State.guardEndAt s at_) := by
  unfold State.guardEndAt
  repeat (with_reducible first
    | exact hs₀
    | apply State.advance_clock
    | apply State.endGuard_clock
    | apply State.Clock.ite
    | split)
theorem State.stickBoundary_clock {s₀ s : State} (hs₀ : s₀.Clock s) (f : Nat) : s₀.Clock (State.stickBoundary s
    f) := by
  unfold State.stickBoundary
  repeat (with_reducible first
    | exact hs₀
    | apply State.guardEndAt_clock
    | apply State.leaseLapse_clock
    | apply State.toll_clock
    | apply State.setDeadline_clock
    | apply State.stickCommand_clock
    | apply State.Clock.ite
    | refine State.Clock.each ?_ ?_ <;> [(intro u x₁ hs₀; try dsimp only); skip]
    | split
    | refine State.Clock.same (State.mk_frame ..) (State.mk_running ..) ?_
    | dsimp only)
theorem State.showDies_clock {s₀ s : State} (hs₀ : s₀.Clock s) : s₀.Clock (State.showDies s) := by
  unfold State.showDies
  repeat (with_reducible first
    | exact hs₀
    | apply State.put_clock
    | apply State.eventIf_clock
    | apply State.testBit_clock
    | apply State.Clock.ite
    | split
    | dsimp only)
theorem State.resetConc_clock {s₀ s : State} (hs₀ : s₀.Clock s) (c : Conc) : s₀.Clock (State.resetConc s c) := by
  unfold State.resetConc
  repeat (with_reducible first
    | exact hs₀
    | apply State.forgetFailure_clock
    | apply State.forceIdle_clock
    | apply State.sendCross_clock
    | apply State.resetPages_clock
    | apply State.put_clock
    | apply State.wr_clock
    | apply State.setConc_clock
    | apply State.putB_clock
    | apply State.showDies_clock
    | apply State.checkSwap_clock
    | apply State.Clock.ite
    | refine State.Clock.each ?_ ?_ <;> [(intro u x₁ hs₀; try dsimp only); skip]
    | split
    | refine State.Clock.same (State.mk_frame ..) (State.mk_running ..) ?_
    | dsimp only)
theorem State.joinPartner_clock {s₀ s : State} (hs₀ : s₀.Clock s) (c : Conc) (j : Nat) : s₀.Clock (State.joinPartner
    s c j) := by
  unfold State.joinPartner
  repeat (with_reducible first
    | exact hs₀
    | apply State.setConc_clock
    | apply State.setPair_clock
    | apply State.Clock.ite
    | split
    | refine State.Clock.same (State.mk_frame ..) (State.mk_running ..) ?_
    | dsimp only)
theorem State.ackCutPorts_clock {s₀ s : State} (hs₀ : s₀.Clock s) (c : Conc) : s₀.Clock (State.ackCutPorts s c) := by
  unfold State.ackCutPorts
  repeat (with_reducible first
    | exact hs₀
    | apply State.setPort_clock
    | apply State.put_clock
    | apply State.Clock.ite
    | refine State.Clock.each ?_ ?_ <;> [(intro u x₁ hs₀; try dsimp only); skip]
    | split
    | refine State.Clock.same (State.mk_frame ..) (State.mk_running ..) ?_
    | dsimp only)
theorem State.ackJoiner_clock {s₀ s : State} (hs₀ : s₀.Clock s) (f : Nat) (c : Conc) : s₀.Clock (State.ackJoiner s f
    c) := by
  unfold State.ackJoiner
  repeat (with_reducible first | exact hs₀ | apply State.ackCutPorts_clock | apply State.Clock.ite | split)
theorem State.freshStatus_clock {s₀ s : State} (hs₀ : s₀.Clock s) (c : Conc) : s₀.Clock (State.freshStatus s c) := by
  unfold State.freshStatus
  repeat (with_reducible first
    | exact hs₀
    | apply State.put_clock
    | apply State.putB_clock
    | apply State.showResend_clock
    | apply State.showBacklog_clock
    | apply State.showLag_clock
    | apply State.showWbuf_clock
    | dsimp only)
theorem State.joinRx_clock {s₀ s : State} (hs₀ : s₀.Clock s) (c : Conc) (f : Nat) (t : Fin 16) : s₀.Clock
    (State.joinRx s c f t) := by
  unfold State.joinRx
  repeat (with_reducible first
    | exact hs₀
    | apply State.setRx_clock
    | apply State.Clock.ite
    | split
    | refine State.Clock.same (State.mk_frame ..) (State.mk_running ..) ?_
    | dsimp only)
theorem State.joinBoundary_clock {s₀ s : State} (hs₀ : s₀.Clock s) (f : Nat) (c : Conc) : s₀.Clock
    (State.joinBoundary s f c) := by
  unfold State.joinBoundary
  repeat (with_reducible first
    | exact hs₀
    | apply State.setConc_clock
    | apply State.joinRx_clock
    | apply State.setPair_clock
    | apply State.joinPartner_clock
    | apply State.freshStatus_clock
    | apply State.put_clock
    | apply State.showReplayFrom_clock
    | apply State.showShadowFrom_clock
    | apply State.Clock.ite
    | refine State.Clock.each ?_ ?_ <;> [(intro u x₁ hs₀; try dsimp only); skip]
    | split
    | refine State.Clock.same (State.mk_frame ..) (State.mk_running ..) ?_
    | dsimp only)
theorem State.showPg_clock {s₀ s : State} (hs₀ : s₀.Clock s) : s₀.Clock (State.showPg s) := by
  unfold State.showPg
  repeat (with_reducible first
    | exact hs₀
    | apply State.put_clock
    | apply State.putB_clock
    | apply State.Clock.ite
    | split
    | dsimp only)
theorem State.setRail_clock {s₀ s : State} (hs₀ : s₀.Clock s) (c : Conc) (on : Bool) : s₀.Clock (State.setRail s c
    on) := by
  unfold State.setRail
  repeat (with_reducible first
    | exact hs₀
    | split
    | refine State.Clock.same (State.mk_frame ..) (State.mk_running ..) ?_)
theorem State.holdBoundary_clock {s₀ s : State} (hs₀ : s₀.Clock s) (c : Conc) : s₀.Clock (State.holdBoundary s
    c) := by
  unfold State.holdBoundary
  repeat (with_reducible first
    | exact hs₀
    | apply State.resetConc_clock
    | apply State.setRail_clock
    | apply State.showPg_clock
    | apply State.Clock.ite
    | split
    | dsimp only)

/-! Cals.lean -/

theorem State.turnIfNone_clock {s₀ s : State} (hs₀ : s₀.Clock s) : s₀.Clock (State.turnIfNone s) := by
  unfold State.turnIfNone
  repeat (with_reducible first | exact hs₀ | apply State.beginTurn_clock | apply State.Clock.ite | split)
theorem State.fire_clock {s₀ s : State} (hs₀ : s₀.Clock s) (page : Nat) : s₀.Clock (State.fire s page) := by
  unfold State.fire
  repeat (with_reducible first
    | exact hs₀
    | apply State.putB_clock
    | apply State.Clock.ite
    | split
    | refine State.Clock.same (State.mk_frame ..) (State.mk_running ..) ?_)
theorem State.requestSwap_clock {s₀ s : State} (hs₀ : s₀.Clock s) (t : Fin 16) (delay : Nat) (byHost restoring :
    Bool) : s₀.Clock (State.requestSwap s t delay byHost restoring) := by
  unfold State.requestSwap
  repeat (with_reducible first
    | exact hs₀
    | apply State.bump_clock
    | apply State.event_clock
    | apply State.put_clock
    | apply State.putB_clock
    | apply State.showSwap_clock
    | apply State.Clock.ite
    | split
    | refine State.Clock.same (State.mk_frame ..) (State.mk_running ..) ?_
    | dsimp only)
theorem State.hostSwap_clock {s₀ s : State} (hs₀ : s₀.Clock s) : s₀.Clock (State.hostSwap s) := by
  unfold State.hostSwap
  repeat (with_reducible first | exact hs₀ | apply State.requestSwap_clock)
theorem State.readStaged_clock {s₀ s : State} (hs₀ : s₀.Clock s) (c : Conc) (f : Nat) (l : Reads) : s₀.Clock
    (State.readStaged s c f l) := by
  unfold State.readStaged
  repeat (with_reducible first
    | exact hs₀
    | apply State.countAnywhere_clock
    | apply State.setConc_clock
    | apply State.Clock.ite
    | refine State.Clock.each ?_ ?_ <;> [(intro u x₁ hs₀; try dsimp only); skip]
    | split
    | refine State.Clock.same (State.mk_frame ..) (State.mk_running ..) ?_
    | dsimp only)

/-! Time.lean -/

theorem State.showSplice_clock {s₀ s : State} (hs₀ : s₀.Clock s) : s₀.Clock (State.showSplice s) := by
  unfold State.showSplice
  repeat (with_reducible first | exact hs₀ | apply State.put_clock)
theorem State.setSplice_clock {s₀ s : State} (hs₀ : s₀.Clock s) (v : Int) : s₀.Clock (State.setSplice s v) := by
  unfold State.setSplice
  repeat (with_reducible first
    | exact hs₀
    | apply State.showSplice_clock
    | refine State.Clock.same (State.mk_frame ..) (State.mk_running ..) ?_)
theorem State.noteTq_clock {s₀ s : State} (hs₀ : s₀.Clock s) : s₀.Clock (State.noteTq s) := by
  unfold State.noteTq
  repeat (with_reducible first
    | exact hs₀
    | apply State.put_clock
    | apply State.Clock.ite
    | split
    | refine State.Clock.same (State.mk_frame ..) (State.mk_running ..) ?_
    | dsimp only)
theorem State.enterHoldover_clock {s₀ s : State} (hs₀ : s₀.Clock s) : s₀.Clock (State.enterHoldover s) := by
  unfold State.enterHoldover
  repeat (with_reducible first
    | exact hs₀
    | apply State.putB_clock
    | apply State.bump_clock
    | apply State.event_clock
    | apply State.put_clock
    | apply State.Clock.ite
    | split
    | refine State.Clock.same (State.mk_frame ..) (State.mk_running ..) ?_
    | dsimp only)
theorem State.countHold_clock {s₀ s : State} (hs₀ : s₀.Clock s) (now : Nat) : s₀.Clock (State.countHold s now) := by
  unfold State.countHold
  repeat (with_reducible first
    | exact hs₀
    | apply State.put_clock
    | apply State.overflow_clock
    | apply State.Clock.ite
    | split
    | dsimp only)
theorem State.exitHoldover_clock {s₀ s : State} (hs₀ : s₀.Clock s) : s₀.Clock (State.exitHoldover s) := by
  unfold State.exitHoldover
  repeat (with_reducible first
    | exact hs₀
    | apply State.countHold_clock
    | apply State.putB_clock
    | apply State.event_clock
    | apply State.Clock.ite
    | split
    | refine State.Clock.same (State.mk_frame ..) (State.mk_running ..) ?_
    | dsimp only)
theorem State.mixedBoundary_clock {s₀ s : State} (hs₀ : s₀.Clock s) (f : Nat) : s₀.Clock (State.mixedBoundary s
    f) := by
  unfold State.mixedBoundary
  repeat (with_reducible first
    | exact hs₀
    | apply State.putB_clock
    | apply State.event_clock
    | apply State.Clock.ite
    | split
    | refine State.Clock.same (State.mk_frame ..) (State.mk_running ..) ?_
    | dsimp only)
theorem State.settleTimeout_clock {s₀ s : State} (hs₀ : s₀.Clock s) : s₀.Clock (State.settleTimeout s) := by
  unfold State.settleTimeout
  repeat (with_reducible first
    | exact hs₀
    | apply State.putB_clock
    | apply State.event_clock
    | apply State.noteTq_clock
    | apply State.Clock.ite
    | split
    | refine State.Clock.same (State.mk_frame ..) (State.mk_running ..) ?_
    | dsimp only)
theorem State.putCount_clock {s₀ s : State} (hs₀ : s₀.Clock s) (page : Nat) (f : FieldRef) (v : Nat) : s₀.Clock
    (State.putCount s page f v) := by
  unfold State.putCount
  repeat (with_reducible first
    | exact hs₀
    | apply State.put_clock
    | split
    | refine State.Clock.same (State.mk_frame ..) (State.mk_running ..) ?_)
theorem State.endSlew_clock {s₀ s : State} (hs₀ : s₀.Clock s) (u : Um) : s₀.Clock (State.endSlew s u) := by
  unfold State.endSlew
  repeat (with_reducible first
    | exact hs₀
    | apply State.putCount_clock
    | apply State.putB_clock
    | apply State.event_clock)
theorem State.runSlew_clock {s₀ s : State} (hs₀ : s₀.Clock s) (u : Um) (k : Nat) : s₀.Clock (State.runSlew s u
    k) := by
  unfold State.runSlew
  repeat (with_reducible first
    | exact hs₀
    | apply State.putCount_clock
    | apply State.endSlew_clock
    | apply State.Clock.ite
    | split)
theorem State.endSplice_clock {s₀ s : State} (hs₀ : s₀.Clock s) : s₀.Clock (State.endSplice s) := by
  unfold State.endSplice
  repeat (with_reducible first
    | exact hs₀
    | apply State.putCount_clock
    | refine State.Clock.same (State.mk_frame ..) (State.mk_running ..) ?_)
theorem State.runSplice_clock {s₀ s : State} (hs₀ : s₀.Clock s) (n : Nat) : s₀.Clock (State.runSplice s n) := by
  unfold State.runSplice
  repeat (with_reducible first
    | exact hs₀
    | apply State.setSplice_clock
    | apply State.endSplice_clock
    | apply State.putCount_clock
    | apply State.Clock.ite
    | split
    | dsimp only)
theorem State.advanceDomains_clock {s₀ s : State} (hs₀ : s₀.Clock s) (f : Nat) (drift : Int) : s₀.Clock
    (State.advanceDomains s f drift) := by
  unfold State.advanceDomains
  repeat (with_reducible first
    | exact hs₀
    | apply State.runSplice_clock
    | apply State.runSlew_clock
    | apply State.Clock.ite
    | split
    | refine State.Clock.same (State.mk_frame ..) (State.mk_running ..) ?_
    | dsimp only)
theorem State.rejectSwitch_clock {s₀ s : State} (hs₀ : s₀.Clock s) : s₀.Clock (State.rejectSwitch s) := by
  unfold State.rejectSwitch
  repeat (with_reducible first | exact hs₀ | apply State.bump_clock | apply State.event_clock)
theorem State.requestSwitch_clock {s₀ s : State} (hs₀ : s₀.Clock s) (target : Bool) (sheaf : Nat) : s₀.Clock
    (State.requestSwitch s target sheaf).2 := by
  unfold State.requestSwitch
  repeat (with_reducible first
    | dsimp only
    | split
    | exact hs₀
    | apply State.putB_clock
    | apply State.rejectSwitch_clock
    | refine State.Clock.same (State.mk_frame ..) (State.mk_running ..) ?_)
theorem State.dropSwitch_clock {s₀ s : State} (hs₀ : s₀.Clock s) : s₀.Clock (State.dropSwitch s) := by
  unfold State.dropSwitch
  repeat (with_reducible first
    | exact hs₀
    | apply State.putB_clock
    | refine State.Clock.same (State.mk_frame ..) (State.mk_running ..) ?_)
theorem State.takeSwitch_clock {s₀ s : State} (hs₀ : s₀.Clock s) (t : Um) (auto : Bool) (f : Nat) : s₀.Clock
    (State.takeSwitch s t auto f) := by
  unfold State.takeSwitch
  repeat (with_reducible first
    | exact hs₀
    | apply State.endSplice_clock
    | apply State.setSplice_clock
    | apply State.putB_clock
    | apply State.bump_clock
    | apply State.event_clock
    | apply State.journalEvent_clock
    | apply State.exitHoldover_clock
    | apply State.enterHoldover_clock
    | apply State.dropSwitch_clock
    | apply State.settleTimeout_clock
    | apply State.Clock.ite
    | split
    | refine State.Clock.same (State.mk_frame ..) (State.mk_running ..) ?_
    | dsimp only)
theorem State.freshTq_clock {s₀ s : State} (hs₀ : s₀.Clock s) : s₀.Clock (State.freshTq s) := by
  unfold State.freshTq
  repeat (with_reducible first
    | exact hs₀
    | apply State.put_clock
    | split
    | refine State.Clock.same (State.mk_frame ..) (State.mk_running ..) ?_)
theorem State.recheckSwitch_clock {s₀ s : State} (hs₀ : s₀.Clock s) (f : Nat) : s₀.Clock (State.recheckSwitch s
    f) := by
  unfold State.recheckSwitch
  repeat (with_reducible first
    | exact hs₀
    | apply State.takeSwitch_clock
    | apply State.freshTq_clock
    | apply State.Clock.ite
    | split
    | refine State.Clock.same (State.mk_frame ..) (State.mk_running ..) ?_
    | dsimp only)
theorem State.slewWritten_clock {s₀ s : State} (hs₀ : s₀.Clock s) (u : Um) : s₀.Clock (State.slewWritten s u) := by
  unfold State.slewWritten
  repeat (with_reducible first | exact hs₀ | apply State.putB_clock)
theorem State.spliceWritten_clock {s₀ s : State} (hs₀ : s₀.Clock s) : s₀.Clock (State.spliceWritten s) := by
  unfold State.spliceWritten
  repeat (with_reducible first | exact hs₀ | refine State.Clock.same (State.mk_frame ..) (State.mk_running ..) ?_)
theorem State.showSwitch_clock {s₀ s : State} (hs₀ : s₀.Clock s) (f : Nat) : s₀.Clock (State.showSwitch s f) := by
  unfold State.showSwitch
  repeat (with_reducible first | exact hs₀ | apply State.putB_clock | split)
theorem State.timeBoundary_clock {s₀ s : State} (hs₀ : s₀.Clock s) (f : Nat) (drift : Int) : s₀.Clock
    (State.timeBoundary s f drift) := by
  unfold State.timeBoundary
  repeat (with_reducible first
    | exact hs₀
    | apply State.countHold_clock
    | apply State.advanceDomains_clock
    | apply State.put_clock
    | apply State.settleTimeout_clock
    | dsimp only)
theorem State.snap_clock {s₀ s : State} (hs₀ : s₀.Clock s) (f : Nat) : s₀.Clock (State.snap s f) := by
  unfold State.snap
  repeat (with_reducible first
    | exact hs₀
    | apply State.put_clock
    | refine State.Clock.each ?_ ?_ <;> [(intro u x₁ hs₀; try dsimp only); skip]
    | dsimp only)

/-! Monitor.lean -/

theorem State.takeEntry_clock {s₀ s : State} (hs₀ : s₀.Clock s) (v : Visit) : s₀.Clock (State.takeEntry s v) := by
  unfold State.takeEntry
  repeat (with_reducible first | exact hs₀ | refine State.Clock.same (State.mk_frame ..) (State.mk_running ..) ?_)
theorem State.touchEntry_clock {s₀ s : State} (hs₀ : s₀.Clock s) (page off : Nat) : s₀.Clock (State.touchEntry s
    page off) := by
  unfold State.touchEntry
  repeat (with_reducible first
    | exact hs₀
    | apply State.Clock.ite
    | split
    | refine State.Clock.same (State.mk_frame ..) (State.mk_running ..) ?_)
theorem State.setBroken_clock {s₀ s : State} (hs₀ : s₀.Clock s) (n : Nat) (b : Bool) : s₀.Clock (State.setBroken s n
    b) := by
  unfold State.setBroken
  repeat (with_reducible first
    | exact hs₀
    | apply State.wr_clock
    | apply State.Clock.ite
    | split
    | refine State.Clock.same (State.mk_frame ..) (State.mk_running ..) ?_
    | dsimp only)
theorem State.setIlkSources_clock {s₀ s : State} (hs₀ : s₀.Clock s) (p : Pin) (l : Option (List IlkSource)) :
    s₀.Clock (State.setIlkSources s p l) := by
  unfold State.setIlkSources
  repeat (with_reducible first
    | exact hs₀
    | split
    | refine State.Clock.same (State.mk_frame ..) (State.mk_running ..) ?_)
theorem State.ilkFault_clock {s₀ s : State} (hs₀ : s₀.Clock s) (p : Pin) (cause : Nat) : s₀.Clock (State.ilkFault s
    p cause) := by
  unfold State.ilkFault
  repeat (with_reducible first
    | exact hs₀
    | apply State.put_clock
    | apply State.bump_clock
    | apply State.event_clock
    | apply State.Clock.ite
    | split
    | dsimp only)
theorem State.ilkGood_clock {s₀ s : State} (hs₀ : s₀.Clock s) (p : Pin) (st : Nat) : s₀.Clock (State.ilkGood s p
    st) := by
  unfold State.ilkGood
  repeat (with_reducible first | exact hs₀ | apply State.put_clock | apply State.eventIf_clock | dsimp only)
theorem State.ilkResult_clock {s₀ s : State} (hs₀ : s₀.Clock s) (p : Pin) (n : Nat) (value : Int) (fault stale ovr :
    Bool) (at_ : Nat) : s₀.Clock (State.ilkResult s p n value fault stale ovr at_) := by
  unfold State.ilkResult
  repeat (with_reducible first
    | exact hs₀
    | apply State.ilkFault_clock
    | apply State.ilkGood_clock
    | apply State.setIlkSources_clock
    | apply State.put_clock
    | apply State.Clock.ite
    | split
    | refine State.Clock.same (State.mk_frame ..) (State.mk_running ..) ?_
    | dsimp only)
theorem State.ilkBoundary_clock {s₀ s : State} (hs₀ : s₀.Clock s) (p : Pin) : s₀.Clock (State.ilkBoundary s p) := by
  unfold State.ilkBoundary
  repeat (with_reducible first
    | exact hs₀
    | apply State.setIlkSources_clock
    | apply State.ilkFault_clock
    | apply State.Clock.ite
    | split
    | refine State.Clock.same (State.mk_frame ..) (State.mk_running ..) ?_
    | dsimp only)
theorem State.showVisit_clock {s₀ s : State} (hs₀ : s₀.Clock s) : s₀.Clock (State.showVisit s) := by
  unfold State.showVisit
  repeat (with_reducible first | exact hs₀ | apply State.putB_clock | apply State.put_clock | split)
theorem State.visitBegin_clock {s₀ s : State} (hs₀ : s₀.Clock s) (n : Nat) (urgent : Bool) : s₀.Clock
    (State.visitBegin s n urgent) := by
  unfold State.visitBegin
  repeat (with_reducible first
    | exact hs₀
    | apply State.takeEntry_clock
    | apply State.put_clock
    | apply State.showVisit_clock
    | refine State.Clock.same (State.mk_frame ..) (State.mk_running ..) ?_
    | dsimp only)
theorem State.passEnd_clock {s₀ s : State} (hs₀ : s₀.Clock s) : s₀.Clock (State.passEnd s) := by
  unfold State.passEnd
  repeat (with_reducible first
    | exact hs₀
    | apply State.bumpWrap_clock
    | apply State.event_clock
    | apply State.putB_clock
    | apply State.Clock.ite
    | split
    | refine State.Clock.same (State.mk_frame ..) (State.mk_running ..) ?_
    | dsimp only)
theorem State.passStep_clock {s₀ s : State} (hs₀ : s₀.Clock s) : s₀.Clock (State.passStep s) := by
  unfold State.passStep
  repeat (with_reducible first
    | exact hs₀
    | apply State.visitBegin_clock
    | apply State.passEnd_clock
    | apply State.Clock.ite
    | split
    | refine State.Clock.same (State.mk_frame ..) (State.mk_running ..) ?_
    | dsimp only)
theorem State.visitNext_clock {s₀ s : State} (hs₀ : s₀.Clock s) : s₀.Clock (State.visitNext s) := by
  unfold State.visitNext
  repeat (with_reducible first
    | exact hs₀
    | apply State.visitBegin_clock
    | apply State.passStep_clock
    | split
    | refine State.Clock.same (State.mk_frame ..) (State.mk_running ..) ?_)
theorem State.leaveVisit_clock {s₀ s : State} (hs₀ : s₀.Clock s) : s₀.Clock (State.leaveVisit s) := by
  unfold State.leaveVisit
  repeat (with_reducible first
    | exact hs₀
    | apply State.Clock.ite
    | split
    | refine State.Clock.same (State.mk_frame ..) (State.mk_running ..) ?_)
theorem State.visitEnd_clock {s₀ s : State} (hs₀ : s₀.Clock s) : s₀.Clock (State.visitEnd s) := by
  unfold State.visitEnd
  repeat (with_reducible first
    | exact hs₀
    | apply State.leaveVisit_clock
    | apply State.showVisit_clock
    | apply State.visitNext_clock
    | apply State.Clock.ite
    | split
    | refine State.Clock.same (State.mk_frame ..) (State.mk_running ..) ?_
    | dsimp only)
theorem State.writeResult_clock {s₀ s : State} (hs₀ : s₀.Clock s) (n : Nat) (value : Int) (fault stale ovr tested :
    Bool) (at_ : Nat) : s₀.Clock (State.writeResult s n value fault stale ovr tested at_) := by
  unfold State.writeResult
  repeat (with_reducible first
    | exact hs₀
    | apply State.wr_clock
    | apply State.bump_clock
    | apply State.event_clock
    | apply State.ilkResult_clock
    | apply State.Clock.ite
    | split
    | dsimp only)
theorem State.visitInvalid_clock {s₀ s : State} (hs₀ : s₀.Clock s) (v : Visit) : s₀.Clock (State.visitInvalid s
    v) := by
  unfold State.visitInvalid
  repeat (with_reducible first | exact hs₀ | apply State.writeResult_clock | apply State.visitEnd_clock)
theorem State.visitBoundary_clock {s₀ s : State} (hs₀ : s₀.Clock s) : s₀.Clock (State.visitBoundary s) := by
  unfold State.visitBoundary
  repeat (with_reducible first
    | exact hs₀
    | apply State.takeEntry_clock
    | apply State.visitInvalid_clock
    | apply State.Clock.ite
    | split
    | refine State.Clock.same (State.mk_frame ..) (State.mk_running ..) ?_
    | dsimp only)
theorem State.monStart_clock {s₀ s : State} (hs₀ : s₀.Clock s) : s₀.Clock (State.monStart s) := by
  unfold State.monStart
  repeat (with_reducible first
    | exact hs₀
    | apply State.putB_clock
    | apply State.Clock.ite
    | split
    | refine State.Clock.same (State.mk_frame ..) (State.mk_running ..) ?_)
theorem State.monStop_clock {s₀ s : State} (hs₀ : s₀.Clock s) : s₀.Clock (State.monStop s) := by
  unfold State.monStop
  repeat (with_reducible first
    | exact hs₀
    | apply State.putB_clock
    | apply State.visitEnd_clock
    | apply State.Clock.ite
    | split
    | refine State.Clock.same (State.mk_frame ..) (State.mk_running ..) ?_
    | dsimp only)
theorem State.monBoundary_clock {s₀ s : State} (hs₀ : s₀.Clock s) : s₀.Clock (State.monBoundary s) := by
  unfold State.monBoundary
  repeat (with_reducible first
    | exact hs₀
    | apply State.visitBoundary_clock
    | apply State.ilkBoundary_clock
    | apply State.visitNext_clock
    | apply State.Clock.ite
    | split
    | refine State.Clock.same (State.mk_frame ..) (State.mk_running ..) ?_
    | dsimp only)

/-! Power.lean -/

theorem State.convFaultClear_clock {s₀ s : State} (hs₀ : s₀.Clock s) (v : Word) : s₀.Clock (State.convFaultClear s
    v) := by
  unfold State.convFaultClear
  repeat (with_reducible first | exact hs₀ | apply State.wr_clock | apply State.showPg_clock)

/-! Access.lean -/

theorem State.queueStick_clock {s₀ s : State} (hs₀ : s₀.Clock s) (x : StickCmd) : s₀.Clock (State.queueStick s
    x) := by
  unfold State.queueStick
  repeat (with_reducible first | exact hs₀ | refine State.Clock.same (State.mk_frame ..) (State.mk_running ..) ?_)
theorem State.pulseNow_clock {s₀ s : State} (hs₀ : s₀.Clock s) (k : PageKind) (by_ : StickCmd) (page off : Nat) (v :
    Word) (free : Bool) : s₀.Clock (State.pulseNow s k by_ page off v free) := by
  unfold State.pulseNow
  repeat (with_reducible first
    | exact hs₀
    | apply State.discardStaged_clock
    | apply State.stageClr_clock
    | apply State.hostSwap_clock
    | apply State.startHostRead_clock
    | apply State.scrubGo_clock
    | apply State.abortScrub_clock
    | apply State.fire_clock
    | apply State.requestResend_clock
    | apply State.queueStick_clock
    | apply State.Clock.ite
    | split
    | refine State.Clock.same (State.mk_frame ..) (State.mk_running ..) ?_
    | dsimp only)
theorem State.writeAll_clock {s₀ s : State} (hs₀ : s₀.Clock s) (by_ : StickCmd) (page off : Nat) (v : Word) (rwl :
    Bool) : s₀.Clock (State.writeAll s by_ page off v rwl).2 := by
  unfold State.writeAll
  refine State.Clock.foldlSnd (fun x p k => ?_) hs₀
  have l := State.writeOnePage_clock k p off v rwl
  dsimp only
  split
  · exact .ite (State.pulseNow_clock l ..) l
  · exact l
theorem State.coreWrite_clock {s₀ s : State} (hs₀ : s₀.Clock s) (page off : Nat) (v : Word) : s₀.Clock
    (State.coreWrite s page off v) := by
  unfold State.coreWrite
  repeat (with_reducible first
    | exact hs₀
    | apply State.writeAll_clock
    | apply State.countResult_clock
    | apply State.append_clock
    | apply State.noteWrites_clock
    | apply State.Clock.ite
    | split
    | dsimp only)
theorem State.ringLevels_clock {s₀ s : State} (hs₀ : s₀.Clock s) (f : Nat) : s₀.Clock (State.ringLevels s f) := by
  unfold State.ringLevels
  repeat (with_reducible first
    | exact hs₀
    | apply State.coreWrite_clock
    | apply State.put_clock
    | apply State.Clock.ite
    | refine State.Clock.each ?_ ?_ <;> [(intro u x₁ hs₀; try dsimp only); skip]
    | split
    | dsimp only)

/-! Frame.lean -/

theorem State.zero_clock {s₀ s : State} (hs₀ : s₀.Clock s) (page : Nat) (l : List FieldRef) : s₀.Clock (State.zero s
    page l) := by
  unfold State.zero
  repeat (with_reducible first
    | exact hs₀
    | apply State.put_clock
    | refine State.Clock.each ?_ ?_ <;> [(intro u x₁ hs₀; try dsimp only); skip])
theorem State.clearBeside_clock {s₀ s : State} (hs₀ : s₀.Clock s) (k : PageKind) (bit : Nat) : s₀.Clock
    (State.clearBeside s k bit) := by
  unfold State.clearBeside
  repeat (with_reducible first
    | exact hs₀
    | apply State.restartTurn_clock
    | apply State.Clock.ite
    | split
    | refine State.Clock.same (State.mk_frame ..) (State.mk_running ..) ?_)
theorem State.clearCount_clock {s₀ s : State} (hs₀ : s₀.Clock s) (k : PageKind) (page bit : Nat) : s₀.Clock
    (State.clearCount s k page bit) := by
  unfold State.clearCount
  repeat (with_reducible first
    | exact hs₀
    | apply State.zero_clock
    | apply State.clearBeside_clock
    | apply State.wr_clock
    | dsimp only)
theorem State.cntClr_clock {s₀ s : State} (hs₀ : s₀.Clock s) (k : PageKind) (page : Nat) (v : Word) : s₀.Clock
    (State.cntClr s k page v) := by
  unfold State.cntClr
  repeat (with_reducible first
    | exact hs₀
    | apply State.clearCount_clock
    | apply State.zero_clock
    | refine State.Clock.foldlSnd ?_ ?_ <;> [(intro x₀ x₁ hs₀; try dsimp only); skip]
    | refine State.Clock.foldl ?_ ?_ <;> [(intro x₀ x₁ hs₀; try dsimp only); skip])
theorem State.portClr_clock {s₀ s : State} (hs₀ : s₀.Clock s) (page p : Nat) : s₀.Clock (State.portClr s page p) := by
  unfold State.portClr
  repeat (with_reducible first
    | exact hs₀
    | apply State.clearCount_clock
    | apply State.zero_clock
    | refine State.Clock.foldlSnd ?_ ?_ <;> [(intro x₀ x₁ hs₀; try dsimp only); skip]
    | refine State.Clock.foldl ?_ ?_ <;> [(intro x₀ x₁ hs₀; try dsimp only); skip])
theorem State.clearBad_clock {s₀ s : State} (hs₀ : s₀.Clock s) (chan : Nat) : s₀.Clock (State.clearBad s chan) := by
  unfold State.clearBad
  repeat (with_reducible first
    | exact hs₀
    | apply State.put_clock
    | apply State.Clock.ite
    | split
    | refine State.Clock.same (State.mk_frame ..) (State.mk_running ..) ?_
    | dsimp only)
theorem State.dllStops_clock {s₀ s : State} (hs₀ : s₀.Clock s) (t : Fin 16) : s₀.Clock (State.dllStops s t) := by
  unfold State.dllStops
  repeat (with_reducible first
    | exact hs₀
    | apply State.setTile_clock
    | apply State.lockLost_clock
    | apply State.putB_clock
    | apply State.Clock.ite
    | split
    | refine State.Clock.same (State.mk_frame ..) (State.mk_running ..) ?_
    | dsimp only)
theorem State.headerPulse_clock {s₀ s : State} (hs₀ : s₀.Clock s) (k : PageKind) (w : PendWrite) : s₀.Clock
    (State.headerPulse s k w) := by
  unfold State.headerPulse
  repeat (with_reducible first
    | exact hs₀
    | apply State.clearCount_clock
    | apply State.wr_clock
    | apply State.Clock.ite
    | refine State.Clock.foldlSnd ?_ ?_ <;> [(intro x₀ x₁ hs₀; try dsimp only); skip]
    | refine State.Clock.foldl ?_ ?_ <;> [(intro x₀ x₁ hs₀; try dsimp only); skip]
    | split)
theorem State.ownPulse_clock {s₀ s : State} (hs₀ : s₀.Clock s) (k : PageKind) (f : Nat) (w : PendWrite) : s₀.Clock
    (State.ownPulse s k f w) := by
  unfold State.ownPulse
  repeat (with_reducible first
    | exact hs₀
    | apply State.clearSelfMask_clock
    | apply State.dllStops_clock
    | apply State.portClr_clock
    | apply State.clearBad_clock
    | apply State.snap_clock
    | apply State.requestSwitch_clock
    | apply State.releaseFreeze_clock
    | apply State.faultClr_clock
    | apply State.injOne_clock
    | apply State.putB_clock
    | apply State.setBroken_clock
    | apply State.monStart_clock
    | apply State.monStop_clock
    | apply State.convFaultClear_clock
    | apply State.Clock.ite
    | refine State.Clock.foldlSnd ?_ ?_ <;> [(intro x₀ x₁ hs₀; try dsimp only); skip]
    | refine State.Clock.foldl ?_ ?_ <;> [(intro x₀ x₁ hs₀; try dsimp only); skip]
    | split
    | dsimp only)
theorem State.pulse_clock {s₀ s : State} (hs₀ : s₀.Clock s) (f : Nat) (w : PendWrite) : s₀.Clock (State.pulse s f
    w) := by
  unfold State.pulse
  repeat (with_reducible first
    | exact hs₀
    | apply State.headerPulse_clock
    | apply State.cntClr_clock
    | apply State.ownPulse_clock
    | apply State.Clock.ite
    | split)
theorem State.blankBlock_clock {s₀ s : State} (hs₀ : s₀.Clock s) (page f : Nat) : s₀.Clock (State.blankBlock s page
    f) := by
  unfold State.blankBlock
  repeat (with_reducible first
    | exact hs₀
    | apply State.blank_clock
    | refine State.Clock.each ?_ ?_ <;> [(intro u x₁ hs₀; try dsimp only); skip])
theorem State.chCfgChanged_clock {s₀ s : State} (hs₀ : s₀.Clock s) (chan f : Nat) (old new : Word) : s₀.Clock
    (State.chCfgChanged s chan f old new) := by
  unfold State.chCfgChanged
  repeat (with_reducible first
    | exact hs₀
    | apply State.blank_clock
    | apply State.setChan_clock
    | apply State.Clock.ite
    | split
    | refine State.Clock.same (State.mk_frame ..) (State.mk_running ..) ?_
    | dsimp only)
theorem State.blockChanged_clock {s₀ s : State} (hs₀ : s₀.Clock s) (page off f : Nat) (old new : Word) : s₀.Clock
    (State.blockChanged s page off f old new) := by
  unfold State.blockChanged
  repeat (with_reducible first
    | exact hs₀
    | apply State.blankBlock_clock
    | apply State.chCfgChanged_clock
    | apply State.Clock.ite
    | split)
theorem State.headerChanged_clock {s₀ s : State} (hs₀ : s₀.Clock s) (page off : Nat) (old new : Word) : s₀.Clock
    (State.headerChanged s page off old new) := by
  unfold State.headerChanged
  repeat (with_reducible first
    | exact hs₀
    | apply State.queueEvent_clock
    | apply State.Clock.ite
    | split
    | dsimp only)
theorem State.overrideTiles_clock {s₀ s : State} (hs₀ : s₀.Clock s) : s₀.Clock (State.overrideTiles s) := by
  unfold State.overrideTiles
  repeat (with_reducible first
    | exact hs₀
    | apply State.setTile_clock
    | apply State.Clock.ite
    | refine State.Clock.each ?_ ?_ <;> [(intro u x₁ hs₀; try dsimp only); skip]
    | split
    | refine State.Clock.same (State.mk_frame ..) (State.mk_running ..) ?_)
theorem State.dropSummaries_clock {s₀ s : State} (hs₀ : s₀.Clock s) (c : Conc) (off : Nat) : s₀.Clock
    (State.dropSummaries s c off) := by
  unfold State.dropSummaries
  repeat (with_reducible first
    | exact hs₀
    | apply State.setConc_clock
    | apply State.Clock.ite
    | split
    | refine State.Clock.same (State.mk_frame ..) (State.mk_running ..) ?_
    | dsimp only)
theorem State.ownChanged_clock {s₀ s : State} (hs₀ : s₀.Clock s) (k : PageKind) (page off f : Nat) (old new : Word)
    : s₀.Clock (State.ownChanged s k page off f old new) := by
  unfold State.ownChanged
  repeat (with_reducible first
    | exact hs₀
    | apply State.blockChanged_clock
    | apply State.gateSourceChanged_clock
    | apply State.dllStops_clock
    | apply State.gatePolChanged_clock
    | apply State.slewWritten_clock
    | apply State.spliceWritten_clock
    | apply State.govSettle_clock
    | apply State.dropSummaries_clock
    | apply State.pinPoint_clock
    | apply State.threshChanged_clock
    | apply State.deliverMask_clock
    | apply State.testChanged_clock
    | apply State.touchEntry_clock
    | apply State.overrideTiles_clock
    | apply State.Clock.ite
    | refine State.Clock.each ?_ ?_ <;> [(intro u x₁ hs₀; try dsimp only); skip]
    | split
    | refine State.Clock.same (State.mk_frame ..) (State.mk_running ..) ?_)
theorem State.cameInForce_clock {s₀ s : State} (hs₀ : s₀.Clock s) (f : Nat) (e : Nat × Word) : s₀.Clock
    (State.cameInForce s f e) := by
  unfold State.cameInForce
  repeat (with_reducible first
    | exact hs₀
    | apply State.headerChanged_clock
    | apply State.ownChanged_clock
    | apply State.Clock.ite
    | split
    | dsimp only)
theorem State.applyWrites_clock {s₀ s : State} (hs₀ : s₀.Clock s) (f : Nat) : s₀.Clock (State.applyWrites s f) := by
  unfold State.applyWrites
  repeat (with_reducible first
    | exact hs₀
    | apply State.pulse_clock
    | apply State.cameInForce_clock
    | refine State.Clock.each ?_ ?_ <;> [(intro u x₁ hs₀; try dsimp only); skip]
    | refine State.Clock.same (State.mk_frame ..) (State.mk_running ..) ?_
    | dsimp only)
theorem State.beginFrame_clock {s₀ s : State} (hs₀ : s₀.Clock s) (f : Nat) : s₀.Clock (State.beginFrame s f) := by
  unfold State.beginFrame
  repeat (with_reducible first
    | exact hs₀
    | apply State.setConc_clock
    | apply State.Clock.ite
    | refine State.Clock.each ?_ ?_ <;> [(intro u x₁ hs₀; try dsimp only); skip]
    | refine State.Clock.foldlSnd ?_ ?_ <;> [(intro x₀ x₁ hs₀; try dsimp only); skip]
    | refine State.Clock.foldl ?_ ?_ <;> [(intro x₀ x₁ hs₀; try dsimp only); skip]
    | split
    | refine State.Clock.same (State.mk_frame ..) (State.mk_running ..) ?_
    | dsimp only)
theorem State.followCeilings_clock {s₀ s : State} (hs₀ : s₀.Clock s) : s₀.Clock (State.followCeilings s) := by
  unfold State.followCeilings
  repeat (with_reducible first
    | exact hs₀
    | apply State.put_clock
    | apply State.resetConc_clock
    | apply State.stackSleeps_clock
    | apply State.Clock.ite
    | refine State.Clock.each ?_ ?_ <;> [(intro u x₁ hs₀; try dsimp only); skip]
    | split
    | dsimp only)
theorem State.tilesBoundary_clock {s₀ s : State} (hs₀ : s₀.Clock s) (f : Nat) (slips : List (Fin 16 × BitVec 48)) :
    s₀.Clock (State.tilesBoundary s f slips) := by
  unfold State.tilesBoundary
  repeat (with_reducible first
    | exact hs₀
    | apply State.tileBoundary_clock
    | refine State.Clock.each ?_ ?_ <;> [(intro u x₁ hs₀; try dsimp only); skip])
theorem State.concsBoundary_clock {s₀ s : State} (hs₀ : s₀.Clock s) (f : Nat) : s₀.Clock (State.concsBoundary s
    f) := by
  unfold State.concsBoundary
  repeat (with_reducible first
    | exact hs₀
    | apply State.holdBoundary_clock
    | apply State.joinBoundary_clock
    | apply State.showLag_clock
    | refine State.Clock.each ?_ ?_ <;> [(intro u x₁ hs₀; try dsimp only); skip])
theorem State.convertCommands_clock {s₀ s : State} (hs₀ : s₀.Clock s) (f : Nat) : s₀.Clock (State.convertCommands s
    f) := by
  unfold State.convertCommands
  repeat (with_reducible first
    | exact hs₀
    | apply State.convertTimed_clock
    | apply State.sendWindows_clock
    | apply State.Clock.ite
    | split)

end Sys2Proof.Machine
end

