-- ==== Sys2Proof/Laws/Commands.lean ====
section
/-!
SUPPORT. Commands: what the checks of R379 let through runs, and what counting, journaling and answering an outcome leaves
alone while frames run.
-/

namespace Sys2Proof.Machine

/-! ### What answering touches -/

/-- Nothing differs but module time, registers, the event queue, the journal with the numbers it gives pages, and the ports'
queues of results. -/
structure State.Answered (s t : State) : Prop where
  rest : t = { s with now := t.now, regs := t.regs, stale := t.stale, eventQ := t.eventQ, journal := t.journal, jseq := t.jseq,
                      um0 := t.um0, um1 := t.um1 }
  um (u : Um) : t.um u = { s.um u with results := (t.um u).results }

theorem State.Answered.refl (s : State) : s.Answered s := ⟨rfl, fun u => by cases u <;> rfl⟩

theorem State.Answered.trans {s t u : State} (h : s.Answered t) (k : t.Answered u) : s.Answered u :=
  ⟨by rw [k.rest, h.rest], fun v => by rw [k.um v, h.um v]⟩

theorem State.RegsOnly.answered {s t : State} (h : s.RegsOnly t) : s.Answered t :=
  ⟨by rw [h], fun u => by rw [h.um]⟩

theorem State.Answered.ite {s t u : State} {c : Prop} [Decidable c] (h : s.Answered t) (k : s.Answered u) :
    s.Answered (if c then t else u) := by split <;> assumption
theorem State.Answered.frame {s t : State} (h : s.Answered t) : t.frame = s.frame := by rw [h.rest]
theorem State.Answered.running {s t : State} (h : s.Answered t) : t.running = s.running := by rw [h.rest]
theorem State.Answered.pendW {s t : State} (h : s.Answered t) : t.pendW = s.pendW := by rw [h.rest]
theorem State.Answered.chans {s t : State} (h : s.Answered t) : t.chans = s.chans := by rw [h.rest]
theorem State.Answered.tiles {s t : State} (h : s.Answered t) : t.tiles = s.tiles := by rw [h.rest]
theorem State.Answered.tac {s t : State} (h : s.Answered t) : t.tac = s.tac := by rw [h.rest]
theorem State.Answered.tacStaged {s t : State} (h : s.Answered t) : t.tacStaged = s.tacStaged := by rw [h.rest]
theorem State.Answered.tacPoison {s t : State} (h : s.Answered t) : t.tacPoison = s.tacPoison := by rw [h.rest]
theorem State.Answered.rwsStaged {s t : State} (h : s.Answered t) : t.rwsStaged = s.rwsStaged := by rw [h.rest]
theorem State.Answered.concA {s t : State} (h : s.Answered t) : t.concA = s.concA := by rw [h.rest]
theorem State.Answered.concB {s t : State} (h : s.Answered t) : t.concB = s.concB := by rw [h.rest]
theorem State.Answered.frames {s t : State} (h : s.Answered t) : t.frames = s.frames := by rw [h.rest]
theorem State.Answered.trig {s t : State} (h : s.Answered t) : t.trig = s.trig := by rw [h.rest]
theorem State.Answered.time {s t : State} (h : s.Answered t) : t.time = s.time := by rw [h.rest]
theorem State.Answered.lastCorr {s t : State} (h : s.Answered t) : t.lastCorr = s.lastCorr := by rw [h.rest]
theorem State.Answered.scrubs {s t : State} (h : s.Answered t) : t.scrubs = s.scrubs := by rw [h.rest]
theorem State.Answered.writeBacks {s t : State} (h : s.Answered t) : t.writeBacks = s.writeBacks := by rw [h.rest]
theorem State.Answered.integ {s t : State} (h : s.Answered t) : t.integ = s.integ := by rw [h.rest]
theorem State.Answered.stick {s t : State} (h : s.Answered t) : t.stick = s.stick := by rw [h.rest]
theorem State.Answered.cal {s t : State} (h : s.Answered t) : t.cal = s.cal := by rw [h.rest]
theorem State.Answered.mon {s t : State} (h : s.Answered t) : t.mon = s.mon := by rw [h.rest]
theorem State.Answered.fwu {s t : State} (h : s.Answered t) : t.fwu = s.fwu := by rw [h.rest]
theorem State.Answered.pow {s t : State} (h : s.Answered t) : t.pow = s.pow := by rw [h.rest]
theorem State.Answered.tap {s t : State} (h : s.Answered t) : t.tap = s.tap := by rw [h.rest]
theorem State.Answered.peal {s t : State} (h : s.Answered t) : t.peal = s.peal := by rw [h.rest]
theorem State.Answered.mixedFrom {s t : State} (h : s.Answered t) : t.mixedFrom = s.mixedFrom := by rw [h.rest]
theorem State.Answered.unlocks {s t : State} (h : s.Answered t) : t.unlocks = s.unlocks := by rw [h.rest]
theorem State.Answered.saved {s t : State} (h : s.Answered t) : t.saved = s.saved := by rw [h.rest]
theorem State.Answered.savedStaged {s t : State} (h : s.Answered t) : t.savedStaged = s.savedStaged := by rw [h.rest]
theorem State.Answered.savedTac {s t : State} (h : s.Answered t) : t.savedTac = s.savedTac := by rw [h.rest]
theorem State.Answered.savedEpoch {s t : State} (h : s.Answered t) : t.savedEpoch = s.savedEpoch := by rw [h.rest]
theorem State.Answered.savedCorr {s t : State} (h : s.Answered t) : t.savedCorr = s.savedCorr := by rw [h.rest]
theorem State.Answered.mramCorr {s t : State} (h : s.Answered t) : t.mramCorr = s.mramCorr := by rw [h.rest]
theorem State.Answered.mramTac {s t : State} (h : s.Answered t) : t.mramTac = s.mramTac := by rw [h.rest]
theorem State.Answered.mramTap {s t : State} (h : s.Answered t) : t.mramTap = s.mramTap := by rw [h.rest]
theorem State.Answered.freeCount {s t : State} (h : s.Answered t) : t.freeCount = s.freeCount := by rw [h.rest]
theorem State.Answered.pending {s t : State} (h : s.Answered t) : t.pending = s.pending := by rw [h.rest]
theorem State.Answered.chan {s t : State} (h : s.Answered t) (x : Nat) : t.chan x = s.chan x := by rw [State.chan, h.chans]; rfl
theorem State.Answered.tile {s t : State} (h : s.Answered t) (x : Fin 16) : t.tile x = s.tile x := by rw [State.tile, h.tiles]; rfl
theorem State.Answered.conc {s t : State} (h : s.Answered t) (x : Conc) : t.conc x = s.conc x := by
  cases x
  · exact h.concA
  · exact h.concB
theorem State.Answered.asm {s t : State} (h : s.Answered t) (u : Um) : (t.um u).asm = (s.um u).asm := by rw [h.um u]

theorem State.answered_showJournal (s : State) : s.Answered s.showJournal := by
  unfold State.showJournal
  split
  · exact .refl s
  · exact (((State.regsOnly_put ..).trans (State.regsOnly_put ..)).trans (State.regsOnly_put ..)).answered

theorem State.answered_append (s : State) (e : JEntry) : s.Answered (s.append e).2 := by
  unfold State.append
  dsimp only
  refine State.Answered.trans ?_ (State.answered_showJournal _)
  exact ⟨rfl, fun u => by cases u <;> rfl⟩

theorem State.answered_noteWrites (s : State) (l : List (Nat × Nat)) (off : Nat) (w : Word) (n : Nat) (rwl : Bool) :
    s.Answered (s.noteWrites l off w n rwl) := by
  refine State.each_keeps (P := fun t => s.Answered t) (fun t x _ k => k.trans ?_) (.refl s)
  split
  · exact ⟨rfl, fun u => by cases u <;> rfl⟩
  · exact .refl t

theorem State.answered_answer (s : State) (u : Um) (tag : Byte) (code result seq : Nat) (data : List Word) :
    s.Answered (s.answer u tag code result seq data) := by
  refine ⟨?_, fun v => ?_⟩
  · cases u <;> rfl
  · cases u <;> cases v <;> rfl

theorem State.answered_holdAnswer (s : State) (u : Um) (tag : Byte) : s.Answered (s.holdAnswer u tag) := by
  refine ⟨?_, fun v => ?_⟩
  · cases u <;> rfl
  · cases u <;> cases v <;> rfl

theorem State.answered_countResult (s : State) (r : Nat) : s.Answered (s.countResult r) := by
  have k (f : FieldRef) (n : Nat) : s.Answered ((s.bump pgMOD f n).event pgMOD n) :=
    ((State.regsOnly_bump ..).trans (State.regsOnly_event ..)).answered
  exact .ite (k ..) (.ite (k ..) (.ite (k ..) (.refl s)))

/-- The commands after which nothing happens but their answer. -/
def endsPlain : UCmd → Bool
  | .imgRestart => false
  | .imgReject _ => false
  | _ => true

/-- Counting, journaling and answering an outcome while frames run, up to what an image command does then. -/
theorem Outcome.finish_after (o : Outcome) (h : UHdr) (c : UCmd) (body : List Word) (hr : o.state.running = true) :
    ∃ w : State, o.state.Answered w ∧
      o.finish h c body = w.afterAnswer h c (if o.result = resOFF then resREFUSED else o.result) := by
  unfold Outcome.finish
  extract_lets u r x v w
  have hu : o.state.Answered u := State.answered_countResult ..
  have hx : o.state.Answered x.2 := by
    simp only [x]
    split
    · exact hu.trans (State.answered_append ..)
    · exact hu
  have hv : o.state.Answered v := hx.trans (State.answered_noteWrites ..)
  have hw : o.state.Answered w :=
    .ite (.ite (hv.trans (State.answered_answer ..)) (hv.trans (State.answered_holdAnswer ..))) hv
  have hs : w.settle = w := if_pos (hw.running.trans hr)
  exact ⟨w, hw, by rw [hs]⟩

/-- Counting, journaling and answering an outcome while frames run. -/
theorem Outcome.finish_answered (o : Outcome) (h : UHdr) {c : UCmd} (body : List Word) (hr : o.state.running = true)
    (hc : endsPlain c = true) : o.state.Answered (o.finish h c body) := by
  obtain ⟨w, hw, e⟩ := o.finish_after h c body hr
  rw [e]
  cases c <;> first | exact hw | simp [endsPlain] at hc

/-- The registers of a page, as stored and in force, are those of before. -/
structure State.SamePage (s t : State) (p : Nat) : Prop where
  same : ∀ o, o < 4096 → t.rd p o = s.rd p o ∧ t.live p o = s.live p o

theorem State.SamePage.refl (s : State) (p : Nat) : s.SamePage s p := ⟨fun _ _ => ⟨rfl, rfl⟩⟩
theorem State.SamePage.trans {s t u : State} {p : Nat} (h : s.SamePage t p) (k : t.SamePage u p) : s.SamePage u p :=
  ⟨fun o l => ⟨(k.1 o l).1.trans (h.1 o l).1, (k.1 o l).2.trans (h.1 o l).2⟩⟩
theorem State.SamePage.ite {s t u : State} {p : Nat} {c : Prop} [Decidable c] (h : s.SamePage t p) (k : s.SamePage u p) :
    s.SamePage (if c then t else u) p := by split <;> assumption
theorem State.SamePage.of {s t : State} (h : t.regs = s.regs) (k : t.stale = s.stale) (p : Nat) : s.SamePage t p :=
  ⟨fun o _ => ⟨rd_of_regs h p o, live_of_regs h k p o⟩⟩
theorem State.samePage_put {p q : Nat} (h : q ≠ p) {f : FieldRef} (l : f.off < 4096) (s : State) (v : Nat) :
    s.SamePage (s.put p f v) q :=
  ⟨fun _ k => ⟨State.rd_put_ne (regKey_ne_page h k l) .., State.live_put_ne (regKey_ne_page h k l) ..⟩⟩
theorem State.samePage_bump {p q : Nat} (h : q ≠ p) {f : FieldRef} (l : f.off < 4096) (s : State) (b n : Nat) :
    s.SamePage (s.bump p f b n) q := ⟨fun _ k =>
  ⟨State.rd_bump_ne (regKey_ne_page h k l) (regKey_ne_page h k (by decide)) ..,
   State.live_bump_ne (regKey_ne_page h k l) (regKey_ne_page h k (by decide)) ..⟩⟩
theorem State.samePage_event {p q : Nat} (h : q ≠ p) (s : State) (b : Nat) : s.SamePage (s.event p b) q :=
  ⟨fun _ k => ⟨State.rd_event_ne (regKey_ne_page h k (by decide)) .., State.live_event_ne (regKey_ne_page h k (by decide)) ..⟩⟩

theorem regKey_ne {p q a b : Nat} (h : (p, a) ≠ (q, b)) (ha : a < 4096) (hb : b < 4096) : regKey p a ≠ regKey q b := by
  by_cases e : p = q
  · subst e
    exact regKey_ne_off (fun e => h (by rw [e]))
  · exact regKey_ne_page e ha hb

theorem State.SameReg.trans {s t u : State} {q o : Nat} (h : s.SameReg t q o) (k : t.SameReg u q o) : s.SameReg u q o :=
  ⟨k.1.trans h.1, k.2.trans h.2⟩
theorem State.SameReg.of {s t : State} (h : t.regs = s.regs) (k : t.stale = s.stale) (q o : Nat) : s.SameReg t q o :=
  ⟨rd_of_regs h q o, live_of_regs h k q o⟩
theorem State.SameReg.ite {s t u : State} {q o : Nat} {c : Prop} [Decidable c] (h : s.SameReg t q o) (k : s.SameReg u q o) :
    s.SameReg (if c then t else u) q o := by split <;> assumption
theorem State.sameReg_put {p q o : Nat} {f : FieldRef} (h : regKey q o ≠ regKey p f.off) (s : State) (v : Nat) :
    s.SameReg (s.put p f v) q o := ⟨State.rd_put_ne h .., State.live_put_ne h ..⟩
theorem State.sameReg_bump {p q o : Nat} {f : FieldRef} (h : regKey q o ≠ regKey p f.off)
    (k : regKey q o ≠ regKey p Reg.HDR.COUNTER_OVF.off) (s : State) (b n : Nat) : s.SameReg (s.bump p f b n) q o :=
  ⟨State.rd_bump_ne h k .., State.live_bump_ne h k ..⟩
theorem State.sameReg_event {p q o : Nat} (h : regKey q o ≠ regKey p Reg.HDR.EVT_PENDING.off) (s : State) (b : Nat) :
    s.SameReg (s.event p b) q o := ⟨State.rd_event_ne h .., State.live_event_ne h ..⟩

theorem State.sameReg_countResult {q a : Nat} (hq : q ≠ pgMOD) (ha : a < 4096) (s : State) (r : Nat) :
    s.SameReg (s.countResult r) q a := by
  have k (f : FieldRef) (l : f.off < 4096) (n : Nat) : s.SameReg ((s.bump pgMOD f n).event pgMOD n) q a :=
    (State.sameReg_bump (regKey_ne_page hq ha l) (regKey_ne_page hq ha (by decide)) ..).trans
      (State.sameReg_event (regKey_ne_page hq ha (by decide)) ..)
  exact .ite (k _ (by decide) _) (.ite (k _ (by decide) _) (.ite (k _ (by decide) _) ⟨rfl, rfl⟩))

/-- A register that an outcome leaves, when it is none of those that count and journal commands. -/
theorem Outcome.finish_sameReg (o : Outcome) (h : UHdr) {c : UCmd} (body : List Word) (hr : o.state.running = true)
    (hc : endsPlain c = true) {q a : Nat} (ha : a < 4096) (hq : (q, a) ∉ answerKeys) :
    o.state.SameReg (o.finish h c body) q a := by
  have ne {p b : Nat} (m : (p, b) ∈ answerKeys) (hb : b < 4096) : regKey q a ≠ regKey p b :=
    regKey_ne (fun e => hq (e ▸ m)) ha hb
  have kc (s : State) (r : Nat) : s.SameReg (s.countResult r) q a := by
    have k (f : FieldRef) (m : (pgMOD, f.off) ∈ answerKeys) (l : f.off < 4096) (n : Nat) :
        s.SameReg ((s.bump pgMOD f n).event pgMOD n) q a :=
      (State.sameReg_bump (ne m l) (ne (by decide) (by decide)) ..).trans (State.sameReg_event (ne (by decide) (by decide)) ..)
    exact .ite (k _ (by decide) (by decide) _) (.ite (k _ (by decide) (by decide) _)
      (.ite (k _ (by decide) (by decide) _) ⟨rfl, rfl⟩))
  have kj (s : State) (e : JEntry) : s.SameReg (s.append e).2 q a := by
    unfold State.append
    dsimp only
    refine State.SameReg.trans (t := { s with journal := _ }) (.of rfl rfl _ _) ?_
    unfold State.showJournal
    split
    · exact ⟨rfl, rfl⟩
    · exact ((State.sameReg_put (f := Reg.JRNL.HEAD) (ne (by decide) (by decide)) _ _).trans
        (State.sameReg_put (f := Reg.JRNL.TAIL) (ne (by decide) (by decide)) _ _)).trans
        (State.sameReg_put (f := Reg.JRNL.MIRROR_TAIL) (ne (by decide) (by decide)) _ _)
  have kn (s : State) (l : List (Nat × Nat)) (off : Nat) (w : Word) (n : Nat) (rwl : Bool) : s.SameReg (s.noteWrites l off w n rwl) q a := by
    refine State.each_keeps (P := fun t => s.SameReg t q a) (fun t x _ k => k.trans ?_) ⟨rfl, rfl⟩
    split
    · exact .of (s := t) (t := t.noteChange x.1 n) rfl rfl _ _
    · exact ⟨rfl, rfl⟩
  unfold Outcome.finish
  extract_lets u r x v w
  have au : o.state.Answered u := State.answered_countResult ..
  have hu : o.state.SameReg u q a := kc ..
  have ax : o.state.Answered x.2 := by
    simp only [x]
    split
    · exact au.trans (State.answered_append ..)
    · exact au
  have hx : o.state.SameReg x.2 q a := by
    simp only [x]
    split
    · exact hu.trans (kj ..)
    · exact hu
  have av : o.state.Answered v := ax.trans (State.answered_noteWrites ..)
  have hv : o.state.SameReg v q a := hx.trans (kn ..)
  have aw : o.state.Answered w :=
    .ite (.ite (av.trans (State.answered_answer ..)) (av.trans (State.answered_holdAnswer ..))) av
  have hw : o.state.SameReg w q a := by
    have st (x : UmSt) : v.SameReg (v.setUm h.port x) q a := .of (State.setUm_regs ..) (State.setUm_stale ..) _ _
    exact .ite (.ite (hv.trans (st _)) (hv.trans (st _))) hv
  have hs : w.settle = w := if_pos (aw.running.trans hr)
  rw [hs]
  cases c <;> first | exact hw | simp [endsPlain] at hc

/-- The registers of a page that an outcome leaves, when it is none of the two pages that count and journal commands. -/
theorem Outcome.finish_samePage (o : Outcome) (h : UHdr) {c : UCmd} (body : List Word) (hr : o.state.running = true)
    (hc : endsPlain c = true) {q : Nat} (hq : q ≠ pgMOD) (hj : q ≠ pgJRNL) : o.state.SamePage (o.finish h c body) q :=
  ⟨fun _ l => o.finish_sameReg h body hr hc l (by simp [answerKeys, hq, hj])⟩

/-- The registers of the MOD page after an outcome are those that counting its result leaves. -/
theorem Outcome.finish_mod (o : Outcome) (h : UHdr) {c : UCmd} (body : List Word) (hr : o.state.running = true)
    (hc : endsPlain c = true) {a : Nat} (ha : a < 4096) :
    (o.finish h c body).rd pgMOD a = (o.state.countResult o.result).rd pgMOD a := by
  have ne {b : Nat} (hb : b < 4096) : regKey pgMOD a ≠ regKey pgJRNL b := regKey_ne_page (by decide) ha hb
  have kj (s : State) (e : JEntry) : (s.append e).2.rd pgMOD a = s.rd pgMOD a := by
    unfold State.append
    dsimp only
    unfold State.showJournal
    split
    · exact rd_of_regs rfl ..
    · rw [State.rd_put_ne (ne (by decide)), State.rd_put_ne (ne (by decide)), State.rd_put_ne (ne (by decide))]
      exact rd_of_regs rfl ..
  have kn (s : State) (l : List (Nat × Nat)) (off : Nat) (w : Word) (n : Nat) (rwl : Bool) : (s.noteWrites l off w n rwl).rd pgMOD a = s.rd pgMOD a := by
    refine State.each_keeps (P := fun t => t.rd pgMOD a = s.rd pgMOD a) (fun t x _ k => ?_) rfl
    split
    · exact (rd_of_regs (s := t) (t := t.noteChange x.1 n) rfl ..).trans k
    · exact k
  unfold Outcome.finish
  extract_lets u r x v w
  have ax : o.state.Answered x.2 := by
    simp only [x]
    split
    · exact (State.answered_countResult ..).trans (State.answered_append ..)
    · exact State.answered_countResult ..
  have hx : x.2.rd pgMOD a = u.rd pgMOD a := by
    simp only [x]
    split
    · exact kj ..
    · rfl
  have av : o.state.Answered v := ax.trans (State.answered_noteWrites ..)
  have hv : v.rd pgMOD a = u.rd pgMOD a := (kn ..).trans hx
  have aw : o.state.Answered w :=
    .ite (.ite (av.trans (State.answered_answer ..)) (av.trans (State.answered_holdAnswer ..))) av
  have hw : w.rd pgMOD a = u.rd pgMOD a := by
    have st (x : UmSt) : (v.setUm h.port x).rd pgMOD a = u.rd pgMOD a := (rd_of_regs (State.setUm_regs ..) ..).trans hv
    simp only [w]
    split
    · split
      · exact st _
      · exact st _
    · exact hv
  have hs : w.settle = w := if_pos (aw.running.trans hr)
  rw [hs]
  cases c <;> first | exact hw | simp [endsPlain] at hc

/-! ### The checks of R379 -/

theorem State.answered_arrive_running (s : State) (n : Nat) : (s.arrive n).running = s.running := by
  unfold State.arrive; split <;> simp

theorem State.arrive_regs (s : State) (n : Nat) : (s.arrive n).regs = s.regs := by
  unfold State.arrive; split <;> simp

theorem State.arrive_stale (s : State) (n : Nat) : (s.arrive n).stale = s.stale := by
  unfold State.arrive; split <;> simp

/-- A command that the checks let through is counted, runs and is answered. -/
theorem State.command_takes {s : State} {h : UHdr} {c : UCmd} (k : s.takes h c = true) (env : BlockEnv) :
    s.command h c env = ((s.counted h).runCmd h c c.words env).finish h c c.words := by
  simp only [State.takes, Bool.and_eq_true, Bool.not_eq_true', decide_eq_true_eq, beq_iff_eq, Bool.or_eq_true] at k
  obtain ⟨⟨⟨⟨⟨⟨k1, k2⟩, k3⟩, k4⟩, k5⟩, k6⟩, k7⟩ := k
  have r : (s.counted h).recovery = s.recovery := by
    unfold State.recovery State.counted
    rw [State.stored_bump_ne (regKey_ne_page (by cases h.port <;> decide) (by decide) (by decide))
      (regKey_ne_page (by cases h.port <;> decide) (by decide) (by decide)), State.stored, rd_of_regs (State.arrive_regs ..)]
    rfl
  simp only [State.command, State.takeCmd, k1, Bool.not_true, Bool.false_eq_true, if_false, Nat.not_le.2 k2, k3, if_true,
    State.checkCmd, k4, k5, k6, State.take, ne_eq, not_true_eq_false, if_false]
  have q : ¬((s.recovery && !recoveryCmd c.code) = true) := by
    rcases k7 with k7 | k7 <;> simp [k7]
  rw [← r] at q
  rw [show (s.arrive h.at_).bump (pgUM h.port) Reg.UM.CMD_CNT 8 = s.counted h from rfl, if_neg q]

/-- The same of a privileged command. -/
theorem State.command_takesAuth {s : State} {h : UHdr} {c : UCmd} (k : s.takesAuth h c = true) (env : BlockEnv) :
    s.command h c env = ((s.authed h).runCmd h c c.words env).finish h c c.words := by
  simp only [State.takesAuth, Bool.and_eq_true, Bool.not_eq_true', decide_eq_true_eq, beq_iff_eq, Bool.or_eq_true] at k
  obtain ⟨⟨⟨⟨⟨⟨⟨k1, k2⟩, k3⟩, k4⟩, k5⟩, k6⟩, k7⟩, k8⟩ := k
  have r : (s.authed h).recovery = s.recovery := by
    unfold State.recovery State.authed
    rw [State.stored_bump_ne (regKey_ne_page (by cases h.port <;> decide) (by decide) (by decide))
      (regKey_ne_page (by cases h.port <;> decide) (by decide) (by decide)),
      State.stored_put_ne (regKey_ne_page (by decide) (by decide) (by decide)), State.stored,
      rd_of_regs (State.arrive_regs ..)]
    rfl
  simp only [State.command, State.takeCmd, k1, Bool.not_true, Bool.false_eq_true, if_false, Nat.not_le.2 k2, k3, if_true,
    State.checkCmd, k4, k5, k6, k7, State.take, ne_eq, not_true_eq_false, if_false]
  have q : ¬((s.recovery && !recoveryCmd c.code) = true) := by
    rcases k8 with k8 | k8 <;> simp [k8]
  rw [← r] at q
  rw [show ((s.arrive h.at_).put pgJRNL Reg.JRNL.AUTH_SEQ ((h.auth.map (·.seq.toNat)).getD 0)).bump (pgUM h.port)
    Reg.UM.CMD_CNT 8 = s.authed h from rfl, if_neg q]

/-- Arriving, being counted and, for a privileged command, taking AUTH_SEQ. -/
theorem State.answered_arrive (s : State) (n : Nat) : s.Answered (s.arrive n) := by
  unfold State.arrive
  split
  · exact ⟨rfl, fun u => by cases u <;> rfl⟩
  · exact .refl s

theorem State.answered_counted (s : State) (h : UHdr) : s.Answered (s.counted h) :=
  (State.answered_arrive ..).trans (State.regsOnly_bump ..).answered

theorem State.answered_authed (s : State) (h : UHdr) : s.Answered (s.authed h) :=
  (State.answered_arrive ..).trans ((State.regsOnly_put ..).trans (State.regsOnly_bump ..)).answered

/-! ### Results and journal entries -/

theorem State.showJournal_journal (s : State) : s.showJournal.journal = s.journal := by
  unfold State.showJournal
  split <;> simp
theorem State.append_journal (s : State) (e : JEntry) :
    (s.append e).2.journal = ({ e with seq := (s.append e).1, poison := false } :: s.journal).take 4096 := by
  unfold State.append
  dsimp only
  rw [State.showJournal_journal]
theorem State.append_seq (s : State) (e : JEntry) : (s.append e).1 = (s.stored pgJRNL Reg.JRNL.HEAD + 1) % 2 ^ 32 := rfl
theorem State.regsOnly_countResult (s : State) (r : Nat) : s.RegsOnly (s.countResult r) := by
  have k (f : FieldRef) (n : Nat) : s.RegsOnly ((s.bump pgMOD f n).event pgMOD n) :=
    (State.regsOnly_bump ..).trans (State.regsOnly_event ..)
  exact .ite (k ..) (.ite (k ..) (.ite (k ..) (.refl s)))
theorem State.noteWrites_journal (s : State) (l : List (Nat × Nat)) (off : Nat) (w : Word) (n : Nat) (rwl : Bool) :
    (s.noteWrites l off w n rwl).journal = s.journal := by
  refine State.each_keeps (P := fun t => t.journal = s.journal) (fun t x _ k => ?_) rfl
  split
  · exact k
  · exact k
theorem State.noteWrites_um (s : State) (l : List (Nat × Nat)) (off : Nat) (w : Word) (n : Nat) (rwl : Bool) (u : Um) :
    (s.noteWrites l off w n rwl).um u = s.um u := by
  refine State.each_keeps (P := fun t => t.um u = s.um u) (fun t x _ k => ?_) rfl
  split
  · cases u <;> exact k
  · exact k
theorem State.append_um (s : State) (e : JEntry) (u : Um) : (s.append e).2.um u = s.um u := by
  have h : ∀ t : State, t.showJournal.um u = t.um u := fun t => by
    unfold State.showJournal
    split
    · rfl
    · exact (((State.regsOnly_put ..).trans (State.regsOnly_put ..)).trans (State.regsOnly_put ..)).um u
  unfold State.append
  dsimp only
  rw [h]
  cases u <;> rfl
theorem State.answer_journal (s : State) (u : Um) (tag : Byte) (code result seq : Nat) (data : List Word) :
    (s.answer u tag code result seq data).journal = s.journal := State.setUm_journal ..
theorem State.holdAnswer_journal (s : State) (u : Um) (tag : Byte) : (s.holdAnswer u tag).journal = s.journal :=
  State.setUm_journal ..
theorem State.holdAnswer_results (s : State) (u : Um) (tag : Byte) :
    ((s.holdAnswer u tag).um u).results = (s.um u).results ++ [heldFrag tag] := by
  unfold State.holdAnswer heldFrag
  rw [State.setUm_um_same]
theorem State.answer_results (s : State) (u : Um) (tag : Byte) (code result seq : Nat) (data : List Word) :
    ((s.answer u tag code result seq data).um u).results = (s.um u).results ++ resultFrags tag code result seq data := by
  unfold State.answer
  rw [State.setUm_um_same]

/-- The result message and the journal entry that an outcome makes while frames run. -/
theorem Outcome.finish_full (o : Outcome) (h : UHdr) {c : UCmd} (body : List Word) (hr : o.state.running = true)
    (hc : endsPlain c = true) :
    (h.dest = 0 → o.now = true → ∃ n, ((o.finish h c body).um h.port).results =
      (o.state.um h.port).results ++ resultFrags h.tag c.code (shownResult o.result) n o.data) ∧
    (∀ l, logFields h c body o.log = some l → (o.finish h c body).journal =
      ({ cmdEntry h c.code (shownResult o.result) o.state.now l with
         seq := ((o.state.countResult o.result).stored pgJRNL Reg.JRNL.HEAD + 1) % 2 ^ 32 } :: o.state.journal).take 4096) ∧
    (logFields h c body o.log = none → (o.finish h c body).journal = o.state.journal) ∧
    (h.dest = 0 → o.now = false → ((o.finish h c body).um h.port).results = (o.state.um h.port).results ++ [heldFrag h.tag]) := by
  have fin : ∃ x : Nat × State, (∀ u, x.2.um u = o.state.um u) ∧
      (∀ l, logFields h c body o.log = some l → x.2.journal =
        ({ cmdEntry h c.code (shownResult o.result) o.state.now l with
           seq := ((o.state.countResult o.result).stored pgJRNL Reg.JRNL.HEAD + 1) % 2 ^ 32 } :: o.state.journal).take 4096) ∧
      (logFields h c body o.log = none → x.2.journal = o.state.journal) ∧
      ∃ v : State, v.journal = x.2.journal ∧ (∀ u, v.um u = x.2.um u) ∧
        o.finish h c body = (if h.dest = 0 then
          (if o.now = true then v.answer h.port h.tag c.code (shownResult o.result) x.1 o.data else v.holdAnswer h.port h.tag)
          else v) := by
    unfold Outcome.finish
    extract_lets u r x v w
    have ru := State.regsOnly_countResult o.state o.result
    have hu : o.state.Answered u := ru.answered
    have hx : o.state.Answered x.2 := by
      simp only [x]
      split
      · exact hu.trans (State.answered_append ..)
      · exact hu
    have hv : o.state.Answered v := hx.trans (State.answered_noteWrites ..)
    have hw : o.state.Answered w :=
    .ite (.ite (hv.trans (State.answered_answer ..)) (hv.trans (State.answered_holdAnswer ..))) hv
    have hs : w.settle = w := if_pos (hw.running.trans hr)
    refine ⟨x, fun p => ?_, fun l e => ?_, fun e => ?_, v, State.noteWrites_journal .., fun p => State.noteWrites_um .., ?_⟩
    · simp only [x]
      split
      · exact (State.append_um ..).trans (ru.um p)
      · exact ru.um p
    · simp only [x, e]
      rw [State.append_journal, State.append_seq]
      simp only [cmdEntry]
      rw [show u.journal = o.state.journal from ru.journal, show u.now = o.state.now from ru.now]
      rfl
    · simp only [x, e]
      exact ru.journal
    · rw [hs]
      cases c <;> first | rfl | simp [endsPlain] at hc
  obtain ⟨x, xu, xj, xn, v, vj, vu, e⟩ := fin
  have ej : (o.finish h c body).journal = x.2.journal := by
    rw [e]
    split
    · split
      · rw [State.answer_journal, vj]
      · rw [State.holdAnswer_journal, vj]
    · exact vj
  refine ⟨fun d n => ⟨x.1, ?_⟩, fun l el => ej.trans (xj l el), fun el => ej.trans (xn el), fun d n => ?_⟩
  · rw [e, if_pos d, if_pos n, State.answer_results, vu, xu]
  · rw [e, if_pos d, n, if_neg Bool.false_ne_true, State.holdAnswer_results, vu, xu]

/-! ### The rows of commands -/

/-- A row that stands for a command is that command. -/
theorem exec_command {c : Instr} {s : State} {h : UHdr} {u : UCmd} {env : BlockEnv} (hc : s.commandOf c = some (h, u, env))
    (hp : s.powered = true) : exec c s = .next (s.command h u env) := by
  have w (t : State) : whilePowered s t = .next t := by unfold whilePowered; rw [if_pos hp]
  cases c <;>
    first
    | cases hc; done
    | (obtain ⟨rfl, rfl, rfl⟩ : _ ∧ _ ∧ _ := by simpa only [State.commandOf, Option.some.injEq, Prod.mk.injEq] using hc
       exact w _)

theorem State.takes_powered {s : State} {h : UHdr} {u : UCmd} (k : s.takes h u = true) : s.powered = true := by
  simp only [State.takes, Bool.and_eq_true, State.hears] at k
  unfold State.powered
  simp [k.1.1.1.1.1.1.1]
theorem State.takesAuth_powered {s : State} {h : UHdr} {u : UCmd} (k : s.takesAuth h u = true) : s.powered = true := by
  simp only [State.takesAuth, Bool.and_eq_true, State.hears] at k
  unfold State.powered
  simp [k.1.1.1.1.1.1.1.1]

/-- What a command that ran while frames run leaves: its outcome with the registers that count and journal it, the journal
entry and the result message. `s` is the state the command found, `u` the state it ran in. -/
structure Outcome.Finished (o : Outcome) (u : State) (h : UHdr) (c : UCmd) (t : State) : Prop where
  answered : o.state.Answered t
  reg : ∀ q a, a < 4096 → (q, a) ∉ answerKeys → o.state.SameReg t q a
  mod : ∀ a, a < 4096 → t.rd pgMOD a = (o.state.countResult o.result).rd pgMOD a
  result : o.now = true → (o.state.um h.port).results = (u.um h.port).results →
    u.answers t h c.code (shownResult o.result) o.data
  log : ∀ l, logFields h c c.words o.log = some l → t.journal =
    ({ cmdEntry h c.code (shownResult o.result) o.state.now l with
       seq := ((o.state.countResult o.result).stored pgJRNL Reg.JRNL.HEAD + 1) % 2 ^ 32 } :: o.state.journal).take 4096
  noLog : logFields h c c.words o.log = none → t.journal = o.state.journal
  later : h.dest = 0 → o.now = false → (t.um h.port).results = (o.state.um h.port).results ++ [heldFrag h.tag]

theorem Outcome.finished (o : Outcome) (u : State) (h : UHdr) {c : UCmd} (hr : o.state.running = true)
    (hc : endsPlain c = true) : o.Finished u h c (o.finish h c c.words) :=
  have k := o.finish_full h c.words hr hc
  { answered := o.finish_answered h c.words hr hc
    reg := fun _ _ l k => o.finish_sameReg h c.words hr hc l k
    mod := fun _ l => o.finish_mod h c.words hr hc l
    result := fun n e d => by
      obtain ⟨x, hx⟩ := k.1 d n
      exact ⟨x, by rw [hx, e]⟩
    log := k.2.1
    noLog := k.2.2.1
    later := k.2.2.2 }

/-- A row that stands for a command which the checks let through. -/
theorem exec_takes {c : Instr} {s : State} {h : UHdr} {u : UCmd} {env : BlockEnv} (hc : s.commandOf c = some (h, u, env))
    (k : s.takes h u = true) (he : endsPlain u = true)
    (hr : ((s.counted h).runCmd h u u.words env).state.running = true) :
    ∃ t, exec c s = .next t ∧ ((s.counted h).runCmd h u u.words env).Finished (s.counted h) h u t :=
  ⟨_, (exec_command hc (State.takes_powered k)).trans (congrArg _ (State.command_takes k env)), Outcome.finished _ _ h hr he⟩

/-- The same of a privileged command. -/
theorem exec_takesAuth {c : Instr} {s : State} {h : UHdr} {u : UCmd} {env : BlockEnv} (hc : s.commandOf c = some (h, u, env))
    (k : s.takesAuth h u = true) (he : endsPlain u = true)
    (hr : ((s.authed h).runCmd h u u.words env).state.running = true) :
    ∃ t, exec c s = .next t ∧ ((s.authed h).runCmd h u u.words env).Finished (s.authed h) h u t :=
  ⟨_, (exec_command hc (State.takesAuth_powered k)).trans (congrArg _ (State.command_takesAuth k env)), Outcome.finished _ _ h hr he⟩

theorem State.counted_running (s : State) (h : UHdr) : (s.counted h).running = s.running := (State.answered_counted s h).running
theorem State.authed_running (s : State) (h : UHdr) : (s.authed h).running = s.running := (State.answered_authed s h).running

theorem State.answered_um (s : State) (n : Nat) (u : Um) : (s.arrive n).um u = s.um u := by
  unfold State.arrive State.advance
  split <;> cases u <;> rfl
theorem State.counted_um (s : State) (h : UHdr) (u : Um) : (s.counted h).um u = s.um u := by
  unfold State.counted
  rw [(State.regsOnly_bump ..).um, State.answered_um]
theorem State.authed_um (s : State) (h : UHdr) (u : Um) : (s.authed h).um u = s.um u := by
  unfold State.authed
  rw [(State.regsOnly_bump ..).um, (State.regsOnly_put ..).um, State.answered_um]
theorem State.counted_journal (s : State) (h : UHdr) : (s.counted h).journal = s.journal := by
  unfold State.counted State.arrive State.advance
  rw [(State.regsOnly_bump ..).journal]
  split <;> rfl
theorem State.authed_journal (s : State) (h : UHdr) : (s.authed h).journal = s.journal := by
  unfold State.authed State.arrive State.advance
  rw [(State.regsOnly_bump ..).journal, (State.regsOnly_put ..).journal]
  split <;> rfl
theorem State.counted_now (s : State) (h : UHdr) : (s.counted h).now = (s.arrive h.at_).now := (State.regsOnly_bump ..).now
theorem State.authed_now (s : State) (h : UHdr) : (s.authed h).now = (s.arrive h.at_).now :=
  ((State.regsOnly_put ..).trans (State.regsOnly_bump ..)).now

/-- Being counted touches CMD_CNT and COUNTER_OVF of the port's page alone. -/
theorem State.sameReg_counted {q a : Nat} (s : State) (h : UHdr) (ha : a < 4096)
    (hq : q ≠ pgUM h.port ∨ a ≠ Reg.UM.CMD_CNT.off ∧ a ≠ Reg.HDR.COUNTER_OVF.off) : s.SameReg (s.counted h) q a := by
  have ne {b : Nat} (l : b < 4096) (z : q ≠ pgUM h.port ∨ a ≠ b) : regKey q a ≠ regKey (pgUM h.port) b :=
    regKey_ne (fun e => by obtain ⟨e1, e2⟩ := Prod.mk.inj e; rcases z with z | z; exacts [z e1, z e2]) ha l
  refine State.SameReg.trans (t := s.arrive h.at_) (.of (State.arrive_regs ..) (State.arrive_stale ..) q a) ?_
  exact State.sameReg_bump (ne (by decide) (hq.imp id And.left)) (ne (by decide) (hq.imp id And.right)) ..
theorem State.sameReg_authed {q a : Nat} (s : State) (h : UHdr) (ha : a < 4096)
    (hq : q ≠ pgUM h.port ∨ a ≠ Reg.UM.CMD_CNT.off ∧ a ≠ Reg.HDR.COUNTER_OVF.off)
    (hj : q ≠ pgJRNL ∨ a ≠ Reg.JRNL.AUTH_SEQ.off) : s.SameReg (s.authed h) q a := by
  have ne {p b : Nat} (l : b < 4096) (z : q ≠ p ∨ a ≠ b) : regKey q a ≠ regKey p b :=
    regKey_ne (fun e => by obtain ⟨e1, e2⟩ := Prod.mk.inj e; rcases z with z | z; exacts [z e1, z e2]) ha l
  refine State.SameReg.trans (t := s.arrive h.at_) (.of (State.arrive_regs ..) (State.arrive_stale ..) q a) ?_
  exact (State.sameReg_put (ne (by decide) hj) ..).trans
    (State.sameReg_bump (ne (by decide) (hq.imp id And.left)) (ne (by decide) (hq.imp id And.right)) ..)

end Sys2Proof.Machine
end

