-- ==== Sys2Proof/Laws/Parts.lean ====
section
/-!
SUPPORT. The relation `Only` between a state and one that follows from it: nothing differs but the parts whose bits a mask
has. Here it is shown of the register operations and of updates of single fields.
-/

set_option linter.unusedTactic false
set_option linter.unreachableTactic false
set_option linter.unusedVariables false

namespace Sys2Proof.Machine

theorem State.putB_eventQ (s : State) (p : Nat) (f : FieldRef) (b : Bool) : (s.putB p f b).eventQ = s.eventQ :=
    State.put_eventQ ..
theorem State.bumpWrap_eventQ (s : State) (p : Nat) (f : FieldRef) (n : Nat) : (s.bumpWrap p f n).eventQ =
    s.eventQ := State.put_eventQ ..
theorem State.overflow_eventQ (s : State) (p k : Nat) : (s.overflow p k).eventQ = s.eventQ := State.wr_eventQ ..
theorem State.bump_eventQ (s : State) (p : Nat) (f : FieldRef) (k n : Nat) : (s.bump p f k n).eventQ = s.eventQ := by
  unfold State.bump
  split
  · exact State.put_eventQ ..
  · exact (State.overflow_eventQ ..).trans (State.put_eventQ ..)
theorem State.bump64_eventQ (s : State) (p : Nat) (f g : FieldRef) (k n : Nat) : (s.bump64 p f g k n).eventQ =
    s.eventQ := by
  unfold State.bump64
  extract_lets v
  split
  · exact (State.put_eventQ ..).trans (State.put_eventQ ..)
  · exact (State.overflow_eventQ ..).trans ((State.put_eventQ ..).trans (State.put_eventQ ..))
theorem State.peak_eventQ (s : State) (p : Nat) (f : FieldRef) (n : Nat) : (s.peak p f n).eventQ = s.eventQ := by
  unfold State.peak
  split
  · exact State.put_eventQ ..
  · rfl
theorem State.eventIf_stale (s : State) (c : Bool) (p k : Nat) : (s.eventIf c p k).stale = s.stale := by
  unfold State.eventIf
  split
  · exact State.event_stale ..
  · rfl
/-- Nothing differs but the parts whose bits the mask has. -/
structure State.Only (L : Nat) (s t : State) : Prop where
  now : L.testBit 0 = false → t.now = s.now
  frame : L.testBit 1 = false → t.frame = s.frame
  running : L.testBit 2 = false → t.running = s.running
  regs : L.testBit 3 = false → t.regs = s.regs
  stale : L.testBit 4 = false → t.stale = s.stale
  pendW : L.testBit 5 = false → t.pendW = s.pendW
  eventQ : L.testBit 6 = false → t.eventQ = s.eventQ
  chans : L.testBit 7 = false → t.chans = s.chans
  tiles : L.testBit 8 = false → t.tiles = s.tiles
  tac : L.testBit 9 = false → t.tac = s.tac
  tacStaged : L.testBit 10 = false → t.tacStaged = s.tacStaged
  tacPoison : L.testBit 11 = false → t.tacPoison = s.tacPoison
  rwsStaged : L.testBit 12 = false → t.rwsStaged = s.rwsStaged
  concA : L.testBit 13 = false → t.concA = s.concA
  concB : L.testBit 14 = false → t.concB = s.concB
  frames : L.testBit 15 = false → t.frames = s.frames
  trig : L.testBit 16 = false → t.trig = s.trig
  time : L.testBit 17 = false → t.time = s.time
  lastCorr : L.testBit 18 = false → t.lastCorr = s.lastCorr
  scrubs : L.testBit 19 = false → t.scrubs = s.scrubs
  writeBacks : L.testBit 20 = false → t.writeBacks = s.writeBacks
  integ : L.testBit 21 = false → t.integ = s.integ
  stick : L.testBit 22 = false → t.stick = s.stick
  cal : L.testBit 23 = false → t.cal = s.cal
  mon : L.testBit 24 = false → t.mon = s.mon
  fwu : L.testBit 25 = false → t.fwu = s.fwu
  pow : L.testBit 26 = false → t.pow = s.pow
  tap : L.testBit 27 = false → t.tap = s.tap
  um0 : L.testBit 28 = false → t.um0 = s.um0
  um1 : L.testBit 29 = false → t.um1 = s.um1
  peal : L.testBit 30 = false → t.peal = s.peal
  mixedFrom : L.testBit 31 = false → t.mixedFrom = s.mixedFrom
  unlocks : L.testBit 32 = false → t.unlocks = s.unlocks
  journal : L.testBit 33 = false → t.journal = s.journal
  saved : L.testBit 34 = false → t.saved = s.saved
  savedStaged : L.testBit 35 = false → t.savedStaged = s.savedStaged
  savedTac : L.testBit 36 = false → t.savedTac = s.savedTac
  jseq : L.testBit 37 = false → t.jseq = s.jseq
  savedEpoch : L.testBit 38 = false → t.savedEpoch = s.savedEpoch
  savedCorr : L.testBit 39 = false → t.savedCorr = s.savedCorr
  mramCorr : L.testBit 40 = false → t.mramCorr = s.mramCorr
  mramTac : L.testBit 41 = false → t.mramTac = s.mramTac
  mramTap : L.testBit 42 = false → t.mramTap = s.mramTap
  freeCount : L.testBit 43 = false → t.freeCount = s.freeCount
  pending : L.testBit 44 = false → t.pending = s.pending

theorem Only.sub {A B L : Nat} (h : A &&& L = A) (k : B &&& A = B) : B &&& L = B := by
  rw [← k, Nat.land_assoc, h]
theorem Only.bit {A L i : Nat} (h : A &&& L = A) (k : A.testBit i = true) : L.testBit i = true := by
  rw [← h, Nat.testBit_land] at k
  exact (Bool.and_eq_true_iff.1 k).2
theorem State.Only.refl {L : Nat} (s : State) : s.Only L s := by constructor <;> intro _ <;> rfl
theorem State.Only.of {L : Nat} {s₀ s t : State} (h : s₀.Only L s)
    (now : L.testBit 0 = true ∨ t.now = s.now := by exact .inr (State.mk_now ..))
    (frame : L.testBit 1 = true ∨ t.frame = s.frame := by exact .inr (State.mk_frame ..))
    (running : L.testBit 2 = true ∨ t.running = s.running := by exact .inr (State.mk_running ..))
    (regs : L.testBit 3 = true ∨ t.regs = s.regs := by exact .inr (State.mk_regs ..))
    (stale : L.testBit 4 = true ∨ t.stale = s.stale := by exact .inr (State.mk_stale ..))
    (pendW : L.testBit 5 = true ∨ t.pendW = s.pendW := by exact .inr (State.mk_pendW ..))
    (eventQ : L.testBit 6 = true ∨ t.eventQ = s.eventQ := by exact .inr (State.mk_eventQ ..))
    (chans : L.testBit 7 = true ∨ t.chans = s.chans := by exact .inr (State.mk_chans ..))
    (tiles : L.testBit 8 = true ∨ t.tiles = s.tiles := by exact .inr (State.mk_tiles ..))
    (tac : L.testBit 9 = true ∨ t.tac = s.tac := by exact .inr (State.mk_tac ..))
    (tacStaged : L.testBit 10 = true ∨ t.tacStaged = s.tacStaged := by exact .inr (State.mk_tacStaged ..))
    (tacPoison : L.testBit 11 = true ∨ t.tacPoison = s.tacPoison := by exact .inr (State.mk_tacPoison ..))
    (rwsStaged : L.testBit 12 = true ∨ t.rwsStaged = s.rwsStaged := by exact .inr (State.mk_rwsStaged ..))
    (concA : L.testBit 13 = true ∨ t.concA = s.concA := by exact .inr (State.mk_concA ..))
    (concB : L.testBit 14 = true ∨ t.concB = s.concB := by exact .inr (State.mk_concB ..))
    (frames : L.testBit 15 = true ∨ t.frames = s.frames := by exact .inr (State.mk_frames ..))
    (trig : L.testBit 16 = true ∨ t.trig = s.trig := by exact .inr (State.mk_trig ..))
    (time : L.testBit 17 = true ∨ t.time = s.time := by exact .inr (State.mk_time ..))
    (lastCorr : L.testBit 18 = true ∨ t.lastCorr = s.lastCorr := by exact .inr (State.mk_lastCorr ..))
    (scrubs : L.testBit 19 = true ∨ t.scrubs = s.scrubs := by exact .inr (State.mk_scrubs ..))
    (writeBacks : L.testBit 20 = true ∨ t.writeBacks = s.writeBacks := by exact .inr (State.mk_writeBacks ..))
    (integ : L.testBit 21 = true ∨ t.integ = s.integ := by exact .inr (State.mk_integ ..))
    (stick : L.testBit 22 = true ∨ t.stick = s.stick := by exact .inr (State.mk_stick ..))
    (cal : L.testBit 23 = true ∨ t.cal = s.cal := by exact .inr (State.mk_cal ..))
    (mon : L.testBit 24 = true ∨ t.mon = s.mon := by exact .inr (State.mk_mon ..))
    (fwu : L.testBit 25 = true ∨ t.fwu = s.fwu := by exact .inr (State.mk_fwu ..))
    (pow : L.testBit 26 = true ∨ t.pow = s.pow := by exact .inr (State.mk_pow ..))
    (tap : L.testBit 27 = true ∨ t.tap = s.tap := by exact .inr (State.mk_tap ..))
    (um0 : L.testBit 28 = true ∨ t.um0 = s.um0 := by exact .inr (State.mk_um0 ..))
    (um1 : L.testBit 29 = true ∨ t.um1 = s.um1 := by exact .inr (State.mk_um1 ..))
    (peal : L.testBit 30 = true ∨ t.peal = s.peal := by exact .inr (State.mk_peal ..))
    (mixedFrom : L.testBit 31 = true ∨ t.mixedFrom = s.mixedFrom := by exact .inr (State.mk_mixedFrom ..))
    (unlocks : L.testBit 32 = true ∨ t.unlocks = s.unlocks := by exact .inr (State.mk_unlocks ..))
    (journal : L.testBit 33 = true ∨ t.journal = s.journal := by exact .inr (State.mk_journal ..))
    (saved : L.testBit 34 = true ∨ t.saved = s.saved := by exact .inr (State.mk_saved ..))
    (savedStaged : L.testBit 35 = true ∨ t.savedStaged = s.savedStaged := by exact .inr (State.mk_savedStaged ..))
    (savedTac : L.testBit 36 = true ∨ t.savedTac = s.savedTac := by exact .inr (State.mk_savedTac ..))
    (jseq : L.testBit 37 = true ∨ t.jseq = s.jseq := by exact .inr (State.mk_jseq ..))
    (savedEpoch : L.testBit 38 = true ∨ t.savedEpoch = s.savedEpoch := by exact .inr (State.mk_savedEpoch ..))
    (savedCorr : L.testBit 39 = true ∨ t.savedCorr = s.savedCorr := by exact .inr (State.mk_savedCorr ..))
    (mramCorr : L.testBit 40 = true ∨ t.mramCorr = s.mramCorr := by exact .inr (State.mk_mramCorr ..))
    (mramTac : L.testBit 41 = true ∨ t.mramTac = s.mramTac := by exact .inr (State.mk_mramTac ..))
    (mramTap : L.testBit 42 = true ∨ t.mramTap = s.mramTap := by exact .inr (State.mk_mramTap ..))
    (freeCount : L.testBit 43 = true ∨ t.freeCount = s.freeCount := by exact .inr (State.mk_freeCount ..))
    (pending : L.testBit 44 = true ∨ t.pending = s.pending := by exact .inr (State.mk_pending ..)) : s₀.Only L t where
  now b := (now.resolve_left (by rw [b]; exact Bool.false_ne_true)).trans (h.now b)
  frame b := (frame.resolve_left (by rw [b]; exact Bool.false_ne_true)).trans (h.frame b)
  running b := (running.resolve_left (by rw [b]; exact Bool.false_ne_true)).trans (h.running b)
  regs b := (regs.resolve_left (by rw [b]; exact Bool.false_ne_true)).trans (h.regs b)
  stale b := (stale.resolve_left (by rw [b]; exact Bool.false_ne_true)).trans (h.stale b)
  pendW b := (pendW.resolve_left (by rw [b]; exact Bool.false_ne_true)).trans (h.pendW b)
  eventQ b := (eventQ.resolve_left (by rw [b]; exact Bool.false_ne_true)).trans (h.eventQ b)
  chans b := (chans.resolve_left (by rw [b]; exact Bool.false_ne_true)).trans (h.chans b)
  tiles b := (tiles.resolve_left (by rw [b]; exact Bool.false_ne_true)).trans (h.tiles b)
  tac b := (tac.resolve_left (by rw [b]; exact Bool.false_ne_true)).trans (h.tac b)
  tacStaged b := (tacStaged.resolve_left (by rw [b]; exact Bool.false_ne_true)).trans (h.tacStaged b)
  tacPoison b := (tacPoison.resolve_left (by rw [b]; exact Bool.false_ne_true)).trans (h.tacPoison b)
  rwsStaged b := (rwsStaged.resolve_left (by rw [b]; exact Bool.false_ne_true)).trans (h.rwsStaged b)
  concA b := (concA.resolve_left (by rw [b]; exact Bool.false_ne_true)).trans (h.concA b)
  concB b := (concB.resolve_left (by rw [b]; exact Bool.false_ne_true)).trans (h.concB b)
  frames b := (frames.resolve_left (by rw [b]; exact Bool.false_ne_true)).trans (h.frames b)
  trig b := (trig.resolve_left (by rw [b]; exact Bool.false_ne_true)).trans (h.trig b)
  time b := (time.resolve_left (by rw [b]; exact Bool.false_ne_true)).trans (h.time b)
  lastCorr b := (lastCorr.resolve_left (by rw [b]; exact Bool.false_ne_true)).trans (h.lastCorr b)
  scrubs b := (scrubs.resolve_left (by rw [b]; exact Bool.false_ne_true)).trans (h.scrubs b)
  writeBacks b := (writeBacks.resolve_left (by rw [b]; exact Bool.false_ne_true)).trans (h.writeBacks b)
  integ b := (integ.resolve_left (by rw [b]; exact Bool.false_ne_true)).trans (h.integ b)
  stick b := (stick.resolve_left (by rw [b]; exact Bool.false_ne_true)).trans (h.stick b)
  cal b := (cal.resolve_left (by rw [b]; exact Bool.false_ne_true)).trans (h.cal b)
  mon b := (mon.resolve_left (by rw [b]; exact Bool.false_ne_true)).trans (h.mon b)
  fwu b := (fwu.resolve_left (by rw [b]; exact Bool.false_ne_true)).trans (h.fwu b)
  pow b := (pow.resolve_left (by rw [b]; exact Bool.false_ne_true)).trans (h.pow b)
  tap b := (tap.resolve_left (by rw [b]; exact Bool.false_ne_true)).trans (h.tap b)
  um0 b := (um0.resolve_left (by rw [b]; exact Bool.false_ne_true)).trans (h.um0 b)
  um1 b := (um1.resolve_left (by rw [b]; exact Bool.false_ne_true)).trans (h.um1 b)
  peal b := (peal.resolve_left (by rw [b]; exact Bool.false_ne_true)).trans (h.peal b)
  mixedFrom b := (mixedFrom.resolve_left (by rw [b]; exact Bool.false_ne_true)).trans (h.mixedFrom b)
  unlocks b := (unlocks.resolve_left (by rw [b]; exact Bool.false_ne_true)).trans (h.unlocks b)
  journal b := (journal.resolve_left (by rw [b]; exact Bool.false_ne_true)).trans (h.journal b)
  saved b := (saved.resolve_left (by rw [b]; exact Bool.false_ne_true)).trans (h.saved b)
  savedStaged b := (savedStaged.resolve_left (by rw [b]; exact Bool.false_ne_true)).trans (h.savedStaged b)
  savedTac b := (savedTac.resolve_left (by rw [b]; exact Bool.false_ne_true)).trans (h.savedTac b)
  jseq b := (jseq.resolve_left (by rw [b]; exact Bool.false_ne_true)).trans (h.jseq b)
  savedEpoch b := (savedEpoch.resolve_left (by rw [b]; exact Bool.false_ne_true)).trans (h.savedEpoch b)
  savedCorr b := (savedCorr.resolve_left (by rw [b]; exact Bool.false_ne_true)).trans (h.savedCorr b)
  mramCorr b := (mramCorr.resolve_left (by rw [b]; exact Bool.false_ne_true)).trans (h.mramCorr b)
  mramTac b := (mramTac.resolve_left (by rw [b]; exact Bool.false_ne_true)).trans (h.mramTac b)
  mramTap b := (mramTap.resolve_left (by rw [b]; exact Bool.false_ne_true)).trans (h.mramTap b)
  freeCount b := (freeCount.resolve_left (by rw [b]; exact Bool.false_ne_true)).trans (h.freeCount b)
  pending b := (pending.resolve_left (by rw [b]; exact Bool.false_ne_true)).trans (h.pending b)
theorem State.Only.trans {L : Nat} {s t u : State} (h : s.Only L t) (k : t.Only L u) : s.Only L u where
  now b := (k.now b).trans (h.now b)
  frame b := (k.frame b).trans (h.frame b)
  running b := (k.running b).trans (h.running b)
  regs b := (k.regs b).trans (h.regs b)
  stale b := (k.stale b).trans (h.stale b)
  pendW b := (k.pendW b).trans (h.pendW b)
  eventQ b := (k.eventQ b).trans (h.eventQ b)
  chans b := (k.chans b).trans (h.chans b)
  tiles b := (k.tiles b).trans (h.tiles b)
  tac b := (k.tac b).trans (h.tac b)
  tacStaged b := (k.tacStaged b).trans (h.tacStaged b)
  tacPoison b := (k.tacPoison b).trans (h.tacPoison b)
  rwsStaged b := (k.rwsStaged b).trans (h.rwsStaged b)
  concA b := (k.concA b).trans (h.concA b)
  concB b := (k.concB b).trans (h.concB b)
  frames b := (k.frames b).trans (h.frames b)
  trig b := (k.trig b).trans (h.trig b)
  time b := (k.time b).trans (h.time b)
  lastCorr b := (k.lastCorr b).trans (h.lastCorr b)
  scrubs b := (k.scrubs b).trans (h.scrubs b)
  writeBacks b := (k.writeBacks b).trans (h.writeBacks b)
  integ b := (k.integ b).trans (h.integ b)
  stick b := (k.stick b).trans (h.stick b)
  cal b := (k.cal b).trans (h.cal b)
  mon b := (k.mon b).trans (h.mon b)
  fwu b := (k.fwu b).trans (h.fwu b)
  pow b := (k.pow b).trans (h.pow b)
  tap b := (k.tap b).trans (h.tap b)
  um0 b := (k.um0 b).trans (h.um0 b)
  um1 b := (k.um1 b).trans (h.um1 b)
  peal b := (k.peal b).trans (h.peal b)
  mixedFrom b := (k.mixedFrom b).trans (h.mixedFrom b)
  unlocks b := (k.unlocks b).trans (h.unlocks b)
  journal b := (k.journal b).trans (h.journal b)
  saved b := (k.saved b).trans (h.saved b)
  savedStaged b := (k.savedStaged b).trans (h.savedStaged b)
  savedTac b := (k.savedTac b).trans (h.savedTac b)
  jseq b := (k.jseq b).trans (h.jseq b)
  savedEpoch b := (k.savedEpoch b).trans (h.savedEpoch b)
  savedCorr b := (k.savedCorr b).trans (h.savedCorr b)
  mramCorr b := (k.mramCorr b).trans (h.mramCorr b)
  mramTac b := (k.mramTac b).trans (h.mramTac b)
  mramTap b := (k.mramTap b).trans (h.mramTap b)
  freeCount b := (k.freeCount b).trans (h.freeCount b)
  pending b := (k.pending b).trans (h.pending b)
theorem State.Only.mono {M A : Nat} {s t : State} (h : s.Only M t) : s.Only (M ||| A) t where
  now b := h.now (by rw [Nat.testBit_lor, Bool.or_eq_false_iff] at b; exact b.1)
  frame b := h.frame (by rw [Nat.testBit_lor, Bool.or_eq_false_iff] at b; exact b.1)
  running b := h.running (by rw [Nat.testBit_lor, Bool.or_eq_false_iff] at b; exact b.1)
  regs b := h.regs (by rw [Nat.testBit_lor, Bool.or_eq_false_iff] at b; exact b.1)
  stale b := h.stale (by rw [Nat.testBit_lor, Bool.or_eq_false_iff] at b; exact b.1)
  pendW b := h.pendW (by rw [Nat.testBit_lor, Bool.or_eq_false_iff] at b; exact b.1)
  eventQ b := h.eventQ (by rw [Nat.testBit_lor, Bool.or_eq_false_iff] at b; exact b.1)
  chans b := h.chans (by rw [Nat.testBit_lor, Bool.or_eq_false_iff] at b; exact b.1)
  tiles b := h.tiles (by rw [Nat.testBit_lor, Bool.or_eq_false_iff] at b; exact b.1)
  tac b := h.tac (by rw [Nat.testBit_lor, Bool.or_eq_false_iff] at b; exact b.1)
  tacStaged b := h.tacStaged (by rw [Nat.testBit_lor, Bool.or_eq_false_iff] at b; exact b.1)
  tacPoison b := h.tacPoison (by rw [Nat.testBit_lor, Bool.or_eq_false_iff] at b; exact b.1)
  rwsStaged b := h.rwsStaged (by rw [Nat.testBit_lor, Bool.or_eq_false_iff] at b; exact b.1)
  concA b := h.concA (by rw [Nat.testBit_lor, Bool.or_eq_false_iff] at b; exact b.1)
  concB b := h.concB (by rw [Nat.testBit_lor, Bool.or_eq_false_iff] at b; exact b.1)
  frames b := h.frames (by rw [Nat.testBit_lor, Bool.or_eq_false_iff] at b; exact b.1)
  trig b := h.trig (by rw [Nat.testBit_lor, Bool.or_eq_false_iff] at b; exact b.1)
  time b := h.time (by rw [Nat.testBit_lor, Bool.or_eq_false_iff] at b; exact b.1)
  lastCorr b := h.lastCorr (by rw [Nat.testBit_lor, Bool.or_eq_false_iff] at b; exact b.1)
  scrubs b := h.scrubs (by rw [Nat.testBit_lor, Bool.or_eq_false_iff] at b; exact b.1)
  writeBacks b := h.writeBacks (by rw [Nat.testBit_lor, Bool.or_eq_false_iff] at b; exact b.1)
  integ b := h.integ (by rw [Nat.testBit_lor, Bool.or_eq_false_iff] at b; exact b.1)
  stick b := h.stick (by rw [Nat.testBit_lor, Bool.or_eq_false_iff] at b; exact b.1)
  cal b := h.cal (by rw [Nat.testBit_lor, Bool.or_eq_false_iff] at b; exact b.1)
  mon b := h.mon (by rw [Nat.testBit_lor, Bool.or_eq_false_iff] at b; exact b.1)
  fwu b := h.fwu (by rw [Nat.testBit_lor, Bool.or_eq_false_iff] at b; exact b.1)
  pow b := h.pow (by rw [Nat.testBit_lor, Bool.or_eq_false_iff] at b; exact b.1)
  tap b := h.tap (by rw [Nat.testBit_lor, Bool.or_eq_false_iff] at b; exact b.1)
  um0 b := h.um0 (by rw [Nat.testBit_lor, Bool.or_eq_false_iff] at b; exact b.1)
  um1 b := h.um1 (by rw [Nat.testBit_lor, Bool.or_eq_false_iff] at b; exact b.1)
  peal b := h.peal (by rw [Nat.testBit_lor, Bool.or_eq_false_iff] at b; exact b.1)
  mixedFrom b := h.mixedFrom (by rw [Nat.testBit_lor, Bool.or_eq_false_iff] at b; exact b.1)
  unlocks b := h.unlocks (by rw [Nat.testBit_lor, Bool.or_eq_false_iff] at b; exact b.1)
  journal b := h.journal (by rw [Nat.testBit_lor, Bool.or_eq_false_iff] at b; exact b.1)
  saved b := h.saved (by rw [Nat.testBit_lor, Bool.or_eq_false_iff] at b; exact b.1)
  savedStaged b := h.savedStaged (by rw [Nat.testBit_lor, Bool.or_eq_false_iff] at b; exact b.1)
  savedTac b := h.savedTac (by rw [Nat.testBit_lor, Bool.or_eq_false_iff] at b; exact b.1)
  jseq b := h.jseq (by rw [Nat.testBit_lor, Bool.or_eq_false_iff] at b; exact b.1)
  savedEpoch b := h.savedEpoch (by rw [Nat.testBit_lor, Bool.or_eq_false_iff] at b; exact b.1)
  savedCorr b := h.savedCorr (by rw [Nat.testBit_lor, Bool.or_eq_false_iff] at b; exact b.1)
  mramCorr b := h.mramCorr (by rw [Nat.testBit_lor, Bool.or_eq_false_iff] at b; exact b.1)
  mramTac b := h.mramTac (by rw [Nat.testBit_lor, Bool.or_eq_false_iff] at b; exact b.1)
  mramTap b := h.mramTap (by rw [Nat.testBit_lor, Bool.or_eq_false_iff] at b; exact b.1)
  freeCount b := h.freeCount (by rw [Nat.testBit_lor, Bool.or_eq_false_iff] at b; exact b.1)
  pending b := h.pending (by rw [Nat.testBit_lor, Bool.or_eq_false_iff] at b; exact b.1)
theorem State.Only.ite {L : Nat} {s t u : State} {c : Prop} [Decidable c] (h : s.Only L t) (k : s.Only L u) :
    s.Only L (if c then t else u) := by split <;> assumption
theorem State.Only.each {L : Nat} {s t : State} {α : Type} {l : List α} {f : State → α → State}
    (h : ∀ (u : State) (a : α), s.Only L u → s.Only L (f u a)) (k : s.Only L t) : s.Only L (t.each l f) :=
  State.each_keeps (P := fun u => s.Only L u) (fun u a _ => h u a) k
theorem State.Only.foldl {L : Nat} {s t : State} {α : Type} {l : List α} {f : State → α → State}
    (h : ∀ (u : State) (a : α), s.Only L u → s.Only L (f u a)) (k : s.Only L t) : s.Only L (l.foldl f t) :=
        State.Only.each h k
theorem State.Only.foldlSnd {L : Nat} {s : State} {α β : Type} {l : List α} {f : β × State → α → β × State} {x : β ×
    State}
    (h : ∀ (x : β × State) (a : α), s.Only L x.2 → s.Only L (f x a).2) (k : s.Only L x.2) : s.Only L (l.foldl f
        x).2 := by
  induction l generalizing x with
  | nil => exact k
  | cons a l ih => exact ih (h x a k)
theorem State.wr_only {L : Nat} {s₀ s : State} (h : s₀.Only L s) (p o : Nat) (v : Word) (hL : 8 &&& L = 8) : s₀.Only
    L (s.wr p o v) :=
  .of h (now := .inr (State.wr_now ..)) (frame := .inr (State.wr_frame ..)) (running := .inr (State.wr_running ..))
      (regs := .inl (Only.bit hL (by decide))) (stale := .inr (State.wr_stale ..)) (pendW := .inr (State.wr_pendW
      ..)) (eventQ := .inr (State.wr_eventQ ..)) (chans := .inr (State.wr_chans ..)) (tiles := .inr (State.wr_tiles
      ..)) (tac := .inr (State.wr_tac ..)) (tacStaged := .inr (State.wr_tacStaged ..)) (tacPoison := .inr
      (State.wr_tacPoison ..)) (rwsStaged := .inr (State.wr_rwsStaged ..)) (concA := .inr (State.wr_concA ..))
      (concB := .inr (State.wr_concB ..)) (frames := .inr (State.wr_frames ..)) (trig := .inr (State.wr_trig ..))
      (time := .inr (State.wr_time ..)) (lastCorr := .inr (State.wr_lastCorr ..)) (scrubs := .inr (State.wr_scrubs
      ..)) (writeBacks := .inr (State.wr_writeBacks ..)) (integ := .inr (State.wr_integ ..)) (stick := .inr
      (State.wr_stick ..)) (cal := .inr (State.wr_cal ..)) (mon := .inr (State.wr_mon ..)) (fwu := .inr
      (State.wr_fwu ..)) (pow := .inr (State.wr_pow ..)) (tap := .inr (State.wr_tap ..)) (um0 := .inr (State.wr_um0
      ..)) (um1 := .inr (State.wr_um1 ..)) (peal := .inr (State.wr_peal ..)) (mixedFrom := .inr (State.wr_mixedFrom
      ..)) (unlocks := .inr (State.wr_unlocks ..)) (journal := .inr (State.wr_journal ..)) (saved := .inr
      (State.wr_saved ..)) (savedStaged := .inr (State.wr_savedStaged ..)) (savedTac := .inr (State.wr_savedTac ..))
      (jseq := .inr (State.wr_jseq ..)) (savedEpoch := .inr (State.wr_savedEpoch ..)) (savedCorr := .inr
      (State.wr_savedCorr ..)) (mramCorr := .inr (State.wr_mramCorr ..)) (mramTac := .inr (State.wr_mramTac ..))
      (mramTap := .inr (State.wr_mramTap ..)) (freeCount := .inr (State.wr_freeCount ..)) (pending := .inr
      (State.wr_pending ..))
theorem State.put_only {L : Nat} {s₀ s : State} (h : s₀.Only L s) (p : Nat) (f : FieldRef) (v : Nat) (hL : 24 &&& L
    = 24) : s₀.Only L (s.put p f v) :=
  .of h (now := .inr (State.put_now ..)) (frame := .inr (State.put_frame ..)) (running := .inr
      (State.put_running ..)) (regs := .inl (Only.bit hL (by decide))) (stale := .inl (Only.bit hL (by decide)))
      (pendW := .inr (State.put_pendW ..)) (eventQ := .inr (State.put_eventQ ..)) (chans := .inr (State.put_chans
      ..)) (tiles := .inr (State.put_tiles ..)) (tac := .inr (State.put_tac ..)) (tacStaged := .inr
      (State.put_tacStaged ..)) (tacPoison := .inr (State.put_tacPoison ..)) (rwsStaged := .inr (State.put_rwsStaged
      ..)) (concA := .inr (State.put_concA ..)) (concB := .inr (State.put_concB ..)) (frames := .inr
      (State.put_frames ..)) (trig := .inr (State.put_trig ..)) (time := .inr (State.put_time ..)) (lastCorr := .inr
      (State.put_lastCorr ..)) (scrubs := .inr (State.put_scrubs ..)) (writeBacks := .inr (State.put_writeBacks ..))
      (integ := .inr (State.put_integ ..)) (stick := .inr (State.put_stick ..)) (cal := .inr (State.put_cal ..))
      (mon := .inr (State.put_mon ..)) (fwu := .inr (State.put_fwu ..)) (pow := .inr (State.put_pow ..)) (tap :=
      .inr (State.put_tap ..)) (um0 := .inr (State.put_um0 ..)) (um1 := .inr (State.put_um1 ..)) (peal := .inr
      (State.put_peal ..)) (mixedFrom := .inr (State.put_mixedFrom ..)) (unlocks := .inr (State.put_unlocks ..))
      (journal := .inr (State.put_journal ..)) (saved := .inr (State.put_saved ..)) (savedStaged := .inr
      (State.put_savedStaged ..)) (savedTac := .inr (State.put_savedTac ..)) (jseq := .inr (State.put_jseq ..))
      (savedEpoch := .inr (State.put_savedEpoch ..)) (savedCorr := .inr (State.put_savedCorr ..)) (mramCorr := .inr
      (State.put_mramCorr ..)) (mramTac := .inr (State.put_mramTac ..)) (mramTap := .inr (State.put_mramTap ..))
      (freeCount := .inr (State.put_freeCount ..)) (pending := .inr (State.put_pending ..))
theorem State.putB_only {L : Nat} {s₀ s : State} (h : s₀.Only L s) (p : Nat) (f : FieldRef) (b : Bool) (hL : 24 &&&
    L = 24) : s₀.Only L (s.putB p f b) :=
  .of h (now := .inr (State.putB_now ..)) (frame := .inr (State.putB_frame ..)) (running := .inr
      (State.putB_running ..)) (regs := .inl (Only.bit hL (by decide))) (stale := .inl (Only.bit hL (by decide)))
      (pendW := .inr (State.putB_pendW ..)) (eventQ := .inr (State.putB_eventQ ..)) (chans := .inr (State.putB_chans
      ..)) (tiles := .inr (State.putB_tiles ..)) (tac := .inr (State.putB_tac ..)) (tacStaged := .inr
      (State.putB_tacStaged ..)) (tacPoison := .inr (State.putB_tacPoison ..)) (rwsStaged := .inr
      (State.putB_rwsStaged ..)) (concA := .inr (State.putB_concA ..)) (concB := .inr (State.putB_concB ..)) (frames
      := .inr (State.putB_frames ..)) (trig := .inr (State.putB_trig ..)) (time := .inr (State.putB_time ..))
      (lastCorr := .inr (State.putB_lastCorr ..)) (scrubs := .inr (State.putB_scrubs ..)) (writeBacks := .inr
      (State.putB_writeBacks ..)) (integ := .inr (State.putB_integ ..)) (stick := .inr (State.putB_stick ..)) (cal
      := .inr (State.putB_cal ..)) (mon := .inr (State.putB_mon ..)) (fwu := .inr (State.putB_fwu ..)) (pow := .inr
      (State.putB_pow ..)) (tap := .inr (State.putB_tap ..)) (um0 := .inr (State.putB_um0 ..)) (um1 := .inr
      (State.putB_um1 ..)) (peal := .inr (State.putB_peal ..)) (mixedFrom := .inr (State.putB_mixedFrom ..))
      (unlocks := .inr (State.putB_unlocks ..)) (journal := .inr (State.putB_journal ..)) (saved := .inr
      (State.putB_saved ..)) (savedStaged := .inr (State.putB_savedStaged ..)) (savedTac := .inr
      (State.putB_savedTac ..)) (jseq := .inr (State.putB_jseq ..)) (savedEpoch := .inr (State.putB_savedEpoch ..))
      (savedCorr := .inr (State.putB_savedCorr ..)) (mramCorr := .inr (State.putB_mramCorr ..)) (mramTac := .inr
      (State.putB_mramTac ..)) (mramTap := .inr (State.putB_mramTap ..)) (freeCount := .inr (State.putB_freeCount
      ..)) (pending := .inr (State.putB_pending ..))
theorem State.overflow_only {L : Nat} {s₀ s : State} (h : s₀.Only L s) (p k : Nat) (hL : 8 &&& L = 8) : s₀.Only L
    (s.overflow p k) :=
  .of h (now := .inr (State.overflow_now ..)) (frame := .inr (State.overflow_frame ..)) (running := .inr
      (State.overflow_running ..)) (regs := .inl (Only.bit hL (by decide))) (stale := .inr (State.overflow_stale
      ..)) (pendW := .inr (State.overflow_pendW ..)) (eventQ := .inr (State.overflow_eventQ ..)) (chans := .inr
      (State.overflow_chans ..)) (tiles := .inr (State.overflow_tiles ..)) (tac := .inr (State.overflow_tac ..))
      (tacStaged := .inr (State.overflow_tacStaged ..)) (tacPoison := .inr (State.overflow_tacPoison ..)) (rwsStaged
      := .inr (State.overflow_rwsStaged ..)) (concA := .inr (State.overflow_concA ..)) (concB := .inr
      (State.overflow_concB ..)) (frames := .inr (State.overflow_frames ..)) (trig := .inr (State.overflow_trig ..))
      (time := .inr (State.overflow_time ..)) (lastCorr := .inr (State.overflow_lastCorr ..)) (scrubs := .inr
      (State.overflow_scrubs ..)) (writeBacks := .inr (State.overflow_writeBacks ..)) (integ := .inr
      (State.overflow_integ ..)) (stick := .inr (State.overflow_stick ..)) (cal := .inr (State.overflow_cal ..))
      (mon := .inr (State.overflow_mon ..)) (fwu := .inr (State.overflow_fwu ..)) (pow := .inr (State.overflow_pow
      ..)) (tap := .inr (State.overflow_tap ..)) (um0 := .inr (State.overflow_um0 ..)) (um1 := .inr
      (State.overflow_um1 ..)) (peal := .inr (State.overflow_peal ..)) (mixedFrom := .inr (State.overflow_mixedFrom
      ..)) (unlocks := .inr (State.overflow_unlocks ..)) (journal := .inr (State.overflow_journal ..)) (saved :=
      .inr (State.overflow_saved ..)) (savedStaged := .inr (State.overflow_savedStaged ..)) (savedTac := .inr
      (State.overflow_savedTac ..)) (jseq := .inr (State.overflow_jseq ..)) (savedEpoch := .inr
      (State.overflow_savedEpoch ..)) (savedCorr := .inr (State.overflow_savedCorr ..)) (mramCorr := .inr
      (State.overflow_mramCorr ..)) (mramTac := .inr (State.overflow_mramTac ..)) (mramTap := .inr
      (State.overflow_mramTap ..)) (freeCount := .inr (State.overflow_freeCount ..)) (pending := .inr
      (State.overflow_pending ..))
theorem State.bump_only {L : Nat} {s₀ s : State} (h : s₀.Only L s) (p : Nat) (f : FieldRef) (k n : Nat) (hL : 24 &&&
    L = 24) : s₀.Only L (s.bump p f k n) :=
  .of h (now := .inr (State.bump_now ..)) (frame := .inr (State.bump_frame ..)) (running := .inr
      (State.bump_running ..)) (regs := .inl (Only.bit hL (by decide))) (stale := .inl (Only.bit hL (by decide)))
      (pendW := .inr (State.bump_pendW ..)) (eventQ := .inr (State.bump_eventQ ..)) (chans := .inr (State.bump_chans
      ..)) (tiles := .inr (State.bump_tiles ..)) (tac := .inr (State.bump_tac ..)) (tacStaged := .inr
      (State.bump_tacStaged ..)) (tacPoison := .inr (State.bump_tacPoison ..)) (rwsStaged := .inr
      (State.bump_rwsStaged ..)) (concA := .inr (State.bump_concA ..)) (concB := .inr (State.bump_concB ..)) (frames
      := .inr (State.bump_frames ..)) (trig := .inr (State.bump_trig ..)) (time := .inr (State.bump_time ..))
      (lastCorr := .inr (State.bump_lastCorr ..)) (scrubs := .inr (State.bump_scrubs ..)) (writeBacks := .inr
      (State.bump_writeBacks ..)) (integ := .inr (State.bump_integ ..)) (stick := .inr (State.bump_stick ..)) (cal
      := .inr (State.bump_cal ..)) (mon := .inr (State.bump_mon ..)) (fwu := .inr (State.bump_fwu ..)) (pow := .inr
      (State.bump_pow ..)) (tap := .inr (State.bump_tap ..)) (um0 := .inr (State.bump_um0 ..)) (um1 := .inr
      (State.bump_um1 ..)) (peal := .inr (State.bump_peal ..)) (mixedFrom := .inr (State.bump_mixedFrom ..))
      (unlocks := .inr (State.bump_unlocks ..)) (journal := .inr (State.bump_journal ..)) (saved := .inr
      (State.bump_saved ..)) (savedStaged := .inr (State.bump_savedStaged ..)) (savedTac := .inr
      (State.bump_savedTac ..)) (jseq := .inr (State.bump_jseq ..)) (savedEpoch := .inr (State.bump_savedEpoch ..))
      (savedCorr := .inr (State.bump_savedCorr ..)) (mramCorr := .inr (State.bump_mramCorr ..)) (mramTac := .inr
      (State.bump_mramTac ..)) (mramTap := .inr (State.bump_mramTap ..)) (freeCount := .inr (State.bump_freeCount
      ..)) (pending := .inr (State.bump_pending ..))
theorem State.bump64_only {L : Nat} {s₀ s : State} (h : s₀.Only L s) (p : Nat) (f g : FieldRef) (k n : Nat) (hL : 24
    &&& L = 24) : s₀.Only L (s.bump64 p f g k n) :=
  .of h (now := .inr (State.bump64_now ..)) (frame := .inr (State.bump64_frame ..)) (running := .inr
      (State.bump64_running ..)) (regs := .inl (Only.bit hL (by decide))) (stale := .inl (Only.bit hL (by decide)))
      (pendW := .inr (State.bump64_pendW ..)) (eventQ := .inr (State.bump64_eventQ ..)) (chans := .inr
      (State.bump64_chans ..)) (tiles := .inr (State.bump64_tiles ..)) (tac := .inr (State.bump64_tac ..))
      (tacStaged := .inr (State.bump64_tacStaged ..)) (tacPoison := .inr (State.bump64_tacPoison ..)) (rwsStaged :=
      .inr (State.bump64_rwsStaged ..)) (concA := .inr (State.bump64_concA ..)) (concB := .inr (State.bump64_concB
      ..)) (frames := .inr (State.bump64_frames ..)) (trig := .inr (State.bump64_trig ..)) (time := .inr
      (State.bump64_time ..)) (lastCorr := .inr (State.bump64_lastCorr ..)) (scrubs := .inr (State.bump64_scrubs
      ..)) (writeBacks := .inr (State.bump64_writeBacks ..)) (integ := .inr (State.bump64_integ ..)) (stick := .inr
      (State.bump64_stick ..)) (cal := .inr (State.bump64_cal ..)) (mon := .inr (State.bump64_mon ..)) (fwu := .inr
      (State.bump64_fwu ..)) (pow := .inr (State.bump64_pow ..)) (tap := .inr (State.bump64_tap ..)) (um0 := .inr
      (State.bump64_um0 ..)) (um1 := .inr (State.bump64_um1 ..)) (peal := .inr (State.bump64_peal ..)) (mixedFrom :=
      .inr (State.bump64_mixedFrom ..)) (unlocks := .inr (State.bump64_unlocks ..)) (journal := .inr
      (State.bump64_journal ..)) (saved := .inr (State.bump64_saved ..)) (savedStaged := .inr
      (State.bump64_savedStaged ..)) (savedTac := .inr (State.bump64_savedTac ..)) (jseq := .inr (State.bump64_jseq
      ..)) (savedEpoch := .inr (State.bump64_savedEpoch ..)) (savedCorr := .inr (State.bump64_savedCorr ..))
      (mramCorr := .inr (State.bump64_mramCorr ..)) (mramTac := .inr (State.bump64_mramTac ..)) (mramTap := .inr
      (State.bump64_mramTap ..)) (freeCount := .inr (State.bump64_freeCount ..)) (pending := .inr
      (State.bump64_pending ..))
theorem State.bumpWrap_only {L : Nat} {s₀ s : State} (h : s₀.Only L s) (p : Nat) (f : FieldRef) (n : Nat) (hL : 24
    &&& L = 24) : s₀.Only L (s.bumpWrap p f n) :=
  .of h (now := .inr (State.bumpWrap_now ..)) (frame := .inr (State.bumpWrap_frame ..)) (running := .inr
      (State.bumpWrap_running ..)) (regs := .inl (Only.bit hL (by decide))) (stale := .inl (Only.bit hL (by
      decide))) (pendW := .inr (State.bumpWrap_pendW ..)) (eventQ := .inr (State.bumpWrap_eventQ ..)) (chans := .inr
      (State.bumpWrap_chans ..)) (tiles := .inr (State.bumpWrap_tiles ..)) (tac := .inr (State.bumpWrap_tac ..))
      (tacStaged := .inr (State.bumpWrap_tacStaged ..)) (tacPoison := .inr (State.bumpWrap_tacPoison ..)) (rwsStaged
      := .inr (State.bumpWrap_rwsStaged ..)) (concA := .inr (State.bumpWrap_concA ..)) (concB := .inr
      (State.bumpWrap_concB ..)) (frames := .inr (State.bumpWrap_frames ..)) (trig := .inr (State.bumpWrap_trig ..))
      (time := .inr (State.bumpWrap_time ..)) (lastCorr := .inr (State.bumpWrap_lastCorr ..)) (scrubs := .inr
      (State.bumpWrap_scrubs ..)) (writeBacks := .inr (State.bumpWrap_writeBacks ..)) (integ := .inr
      (State.bumpWrap_integ ..)) (stick := .inr (State.bumpWrap_stick ..)) (cal := .inr (State.bumpWrap_cal ..))
      (mon := .inr (State.bumpWrap_mon ..)) (fwu := .inr (State.bumpWrap_fwu ..)) (pow := .inr (State.bumpWrap_pow
      ..)) (tap := .inr (State.bumpWrap_tap ..)) (um0 := .inr (State.bumpWrap_um0 ..)) (um1 := .inr
      (State.bumpWrap_um1 ..)) (peal := .inr (State.bumpWrap_peal ..)) (mixedFrom := .inr (State.bumpWrap_mixedFrom
      ..)) (unlocks := .inr (State.bumpWrap_unlocks ..)) (journal := .inr (State.bumpWrap_journal ..)) (saved :=
      .inr (State.bumpWrap_saved ..)) (savedStaged := .inr (State.bumpWrap_savedStaged ..)) (savedTac := .inr
      (State.bumpWrap_savedTac ..)) (jseq := .inr (State.bumpWrap_jseq ..)) (savedEpoch := .inr
      (State.bumpWrap_savedEpoch ..)) (savedCorr := .inr (State.bumpWrap_savedCorr ..)) (mramCorr := .inr
      (State.bumpWrap_mramCorr ..)) (mramTac := .inr (State.bumpWrap_mramTac ..)) (mramTap := .inr
      (State.bumpWrap_mramTap ..)) (freeCount := .inr (State.bumpWrap_freeCount ..)) (pending := .inr
      (State.bumpWrap_pending ..))
theorem State.peak_only {L : Nat} {s₀ s : State} (h : s₀.Only L s) (p : Nat) (f : FieldRef) (n : Nat) (hL : 24 &&& L
    = 24) : s₀.Only L (s.peak p f n) :=
  .of h (now := .inr (State.peak_now ..)) (frame := .inr (State.peak_frame ..)) (running := .inr
      (State.peak_running ..)) (regs := .inl (Only.bit hL (by decide))) (stale := .inl (Only.bit hL (by decide)))
      (pendW := .inr (State.peak_pendW ..)) (eventQ := .inr (State.peak_eventQ ..)) (chans := .inr (State.peak_chans
      ..)) (tiles := .inr (State.peak_tiles ..)) (tac := .inr (State.peak_tac ..)) (tacStaged := .inr
      (State.peak_tacStaged ..)) (tacPoison := .inr (State.peak_tacPoison ..)) (rwsStaged := .inr
      (State.peak_rwsStaged ..)) (concA := .inr (State.peak_concA ..)) (concB := .inr (State.peak_concB ..)) (frames
      := .inr (State.peak_frames ..)) (trig := .inr (State.peak_trig ..)) (time := .inr (State.peak_time ..))
      (lastCorr := .inr (State.peak_lastCorr ..)) (scrubs := .inr (State.peak_scrubs ..)) (writeBacks := .inr
      (State.peak_writeBacks ..)) (integ := .inr (State.peak_integ ..)) (stick := .inr (State.peak_stick ..)) (cal
      := .inr (State.peak_cal ..)) (mon := .inr (State.peak_mon ..)) (fwu := .inr (State.peak_fwu ..)) (pow := .inr
      (State.peak_pow ..)) (tap := .inr (State.peak_tap ..)) (um0 := .inr (State.peak_um0 ..)) (um1 := .inr
      (State.peak_um1 ..)) (peal := .inr (State.peak_peal ..)) (mixedFrom := .inr (State.peak_mixedFrom ..))
      (unlocks := .inr (State.peak_unlocks ..)) (journal := .inr (State.peak_journal ..)) (saved := .inr
      (State.peak_saved ..)) (savedStaged := .inr (State.peak_savedStaged ..)) (savedTac := .inr
      (State.peak_savedTac ..)) (jseq := .inr (State.peak_jseq ..)) (savedEpoch := .inr (State.peak_savedEpoch ..))
      (savedCorr := .inr (State.peak_savedCorr ..)) (mramCorr := .inr (State.peak_mramCorr ..)) (mramTac := .inr
      (State.peak_mramTac ..)) (mramTap := .inr (State.peak_mramTap ..)) (freeCount := .inr (State.peak_freeCount
      ..)) (pending := .inr (State.peak_pending ..))
theorem State.queueEvent_only {L : Nat} {s₀ s : State} (h : s₀.Only L s) (p : Nat) (hL : 64 &&& L = 64) : s₀.Only L
    (s.queueEvent p) :=
  .of h (now := .inr (State.queueEvent_now ..)) (frame := .inr (State.queueEvent_frame ..)) (running := .inr
      (State.queueEvent_running ..)) (regs := .inr (State.queueEvent_regs ..)) (stale := .inr
      (State.queueEvent_stale ..)) (pendW := .inr (State.queueEvent_pendW ..)) (eventQ := .inl (Only.bit hL (by
      decide))) (chans := .inr (State.queueEvent_chans ..)) (tiles := .inr (State.queueEvent_tiles ..)) (tac := .inr
      (State.queueEvent_tac ..)) (tacStaged := .inr (State.queueEvent_tacStaged ..)) (tacPoison := .inr
      (State.queueEvent_tacPoison ..)) (rwsStaged := .inr (State.queueEvent_rwsStaged ..)) (concA := .inr
      (State.queueEvent_concA ..)) (concB := .inr (State.queueEvent_concB ..)) (frames := .inr
      (State.queueEvent_frames ..)) (trig := .inr (State.queueEvent_trig ..)) (time := .inr (State.queueEvent_time
      ..)) (lastCorr := .inr (State.queueEvent_lastCorr ..)) (scrubs := .inr (State.queueEvent_scrubs ..))
      (writeBacks := .inr (State.queueEvent_writeBacks ..)) (integ := .inr (State.queueEvent_integ ..)) (stick :=
      .inr (State.queueEvent_stick ..)) (cal := .inr (State.queueEvent_cal ..)) (mon := .inr (State.queueEvent_mon
      ..)) (fwu := .inr (State.queueEvent_fwu ..)) (pow := .inr (State.queueEvent_pow ..)) (tap := .inr
      (State.queueEvent_tap ..)) (um0 := .inr (State.queueEvent_um0 ..)) (um1 := .inr (State.queueEvent_um1 ..))
      (peal := .inr (State.queueEvent_peal ..)) (mixedFrom := .inr (State.queueEvent_mixedFrom ..)) (unlocks := .inr
      (State.queueEvent_unlocks ..)) (journal := .inr (State.queueEvent_journal ..)) (saved := .inr
      (State.queueEvent_saved ..)) (savedStaged := .inr (State.queueEvent_savedStaged ..)) (savedTac := .inr
      (State.queueEvent_savedTac ..)) (jseq := .inr (State.queueEvent_jseq ..)) (savedEpoch := .inr
      (State.queueEvent_savedEpoch ..)) (savedCorr := .inr (State.queueEvent_savedCorr ..)) (mramCorr := .inr
      (State.queueEvent_mramCorr ..)) (mramTac := .inr (State.queueEvent_mramTac ..)) (mramTap := .inr
      (State.queueEvent_mramTap ..)) (freeCount := .inr (State.queueEvent_freeCount ..)) (pending := .inr
      (State.queueEvent_pending ..))
theorem State.event_only {L : Nat} {s₀ s : State} (h : s₀.Only L s) (p k : Nat) (hL : 72 &&& L = 72) : s₀.Only L
    (s.event p k) :=
  .of h (now := .inr (State.event_now ..)) (frame := .inr (State.event_frame ..)) (running := .inr
      (State.event_running ..)) (regs := .inl (Only.bit hL (by decide))) (stale := .inr (State.event_stale ..))
      (pendW := .inr (State.event_pendW ..)) (eventQ := .inl (Only.bit hL (by decide))) (chans := .inr
      (State.event_chans ..)) (tiles := .inr (State.event_tiles ..)) (tac := .inr (State.event_tac ..)) (tacStaged
      := .inr (State.event_tacStaged ..)) (tacPoison := .inr (State.event_tacPoison ..)) (rwsStaged := .inr
      (State.event_rwsStaged ..)) (concA := .inr (State.event_concA ..)) (concB := .inr (State.event_concB ..))
      (frames := .inr (State.event_frames ..)) (trig := .inr (State.event_trig ..)) (time := .inr (State.event_time
      ..)) (lastCorr := .inr (State.event_lastCorr ..)) (scrubs := .inr (State.event_scrubs ..)) (writeBacks := .inr
      (State.event_writeBacks ..)) (integ := .inr (State.event_integ ..)) (stick := .inr (State.event_stick ..))
      (cal := .inr (State.event_cal ..)) (mon := .inr (State.event_mon ..)) (fwu := .inr (State.event_fwu ..)) (pow
      := .inr (State.event_pow ..)) (tap := .inr (State.event_tap ..)) (um0 := .inr (State.event_um0 ..)) (um1 :=
      .inr (State.event_um1 ..)) (peal := .inr (State.event_peal ..)) (mixedFrom := .inr (State.event_mixedFrom ..))
      (unlocks := .inr (State.event_unlocks ..)) (journal := .inr (State.event_journal ..)) (saved := .inr
      (State.event_saved ..)) (savedStaged := .inr (State.event_savedStaged ..)) (savedTac := .inr
      (State.event_savedTac ..)) (jseq := .inr (State.event_jseq ..)) (savedEpoch := .inr (State.event_savedEpoch
      ..)) (savedCorr := .inr (State.event_savedCorr ..)) (mramCorr := .inr (State.event_mramCorr ..)) (mramTac :=
      .inr (State.event_mramTac ..)) (mramTap := .inr (State.event_mramTap ..)) (freeCount := .inr
      (State.event_freeCount ..)) (pending := .inr (State.event_pending ..))
theorem State.eventIf_only {L : Nat} {s₀ s : State} (h : s₀.Only L s) (c : Bool) (p k : Nat) (hL : 72 &&& L = 72) :
    s₀.Only L (s.eventIf c p k) :=
  .of h (now := .inr (State.eventIf_now ..)) (frame := .inr (State.eventIf_frame ..)) (running := .inr
      (State.eventIf_running ..)) (regs := .inl (Only.bit hL (by decide))) (stale := .inr (State.eventIf_stale ..))
      (pendW := .inr (State.eventIf_pendW ..)) (eventQ := .inl (Only.bit hL (by decide))) (chans := .inr
      (State.eventIf_chans ..)) (tiles := .inr (State.eventIf_tiles ..)) (tac := .inr (State.eventIf_tac ..))
      (tacStaged := .inr (State.eventIf_tacStaged ..)) (tacPoison := .inr (State.eventIf_tacPoison ..)) (rwsStaged
      := .inr (State.eventIf_rwsStaged ..)) (concA := .inr (State.eventIf_concA ..)) (concB := .inr
      (State.eventIf_concB ..)) (frames := .inr (State.eventIf_frames ..)) (trig := .inr (State.eventIf_trig ..))
      (time := .inr (State.eventIf_time ..)) (lastCorr := .inr (State.eventIf_lastCorr ..)) (scrubs := .inr
      (State.eventIf_scrubs ..)) (writeBacks := .inr (State.eventIf_writeBacks ..)) (integ := .inr
      (State.eventIf_integ ..)) (stick := .inr (State.eventIf_stick ..)) (cal := .inr (State.eventIf_cal ..)) (mon
      := .inr (State.eventIf_mon ..)) (fwu := .inr (State.eventIf_fwu ..)) (pow := .inr (State.eventIf_pow ..)) (tap
      := .inr (State.eventIf_tap ..)) (um0 := .inr (State.eventIf_um0 ..)) (um1 := .inr (State.eventIf_um1 ..))
      (peal := .inr (State.eventIf_peal ..)) (mixedFrom := .inr (State.eventIf_mixedFrom ..)) (unlocks := .inr
      (State.eventIf_unlocks ..)) (journal := .inr (State.eventIf_journal ..)) (saved := .inr (State.eventIf_saved
      ..)) (savedStaged := .inr (State.eventIf_savedStaged ..)) (savedTac := .inr (State.eventIf_savedTac ..)) (jseq
      := .inr (State.eventIf_jseq ..)) (savedEpoch := .inr (State.eventIf_savedEpoch ..)) (savedCorr := .inr
      (State.eventIf_savedCorr ..)) (mramCorr := .inr (State.eventIf_mramCorr ..)) (mramTac := .inr
      (State.eventIf_mramTac ..)) (mramTap := .inr (State.eventIf_mramTap ..)) (freeCount := .inr
      (State.eventIf_freeCount ..)) (pending := .inr (State.eventIf_pending ..))
theorem State.advance_only {L : Nat} {s₀ s : State} (h : s₀.Only L s) (t : Nat) (hL : 1 &&& L = 1) : s₀.Only L
    (s.advance t) :=
  .of h (now := .inl (Only.bit hL (by decide))) (frame := .inr (State.advance_frame ..)) (running := .inr
      (State.advance_running ..)) (regs := .inr (State.advance_regs ..)) (stale := .inr (State.advance_stale ..))
      (pendW := .inr (State.advance_pendW ..)) (eventQ := .inr (State.advance_eventQ ..)) (chans := .inr
      (State.advance_chans ..)) (tiles := .inr (State.advance_tiles ..)) (tac := .inr (State.advance_tac ..))
      (tacStaged := .inr (State.advance_tacStaged ..)) (tacPoison := .inr (State.advance_tacPoison ..)) (rwsStaged
      := .inr (State.advance_rwsStaged ..)) (concA := .inr (State.advance_concA ..)) (concB := .inr
      (State.advance_concB ..)) (frames := .inr (State.advance_frames ..)) (trig := .inr (State.advance_trig ..))
      (time := .inr (State.advance_time ..)) (lastCorr := .inr (State.advance_lastCorr ..)) (scrubs := .inr
      (State.advance_scrubs ..)) (writeBacks := .inr (State.advance_writeBacks ..)) (integ := .inr
      (State.advance_integ ..)) (stick := .inr (State.advance_stick ..)) (cal := .inr (State.advance_cal ..)) (mon
      := .inr (State.advance_mon ..)) (fwu := .inr (State.advance_fwu ..)) (pow := .inr (State.advance_pow ..)) (tap
      := .inr (State.advance_tap ..)) (um0 := .inr (State.advance_um0 ..)) (um1 := .inr (State.advance_um1 ..))
      (peal := .inr (State.advance_peal ..)) (mixedFrom := .inr (State.advance_mixedFrom ..)) (unlocks := .inr
      (State.advance_unlocks ..)) (journal := .inr (State.advance_journal ..)) (saved := .inr (State.advance_saved
      ..)) (savedStaged := .inr (State.advance_savedStaged ..)) (savedTac := .inr (State.advance_savedTac ..)) (jseq
      := .inr (State.advance_jseq ..)) (savedEpoch := .inr (State.advance_savedEpoch ..)) (savedCorr := .inr
      (State.advance_savedCorr ..)) (mramCorr := .inr (State.advance_mramCorr ..)) (mramTac := .inr
      (State.advance_mramTac ..)) (mramTap := .inr (State.advance_mramTap ..)) (freeCount := .inr
      (State.advance_freeCount ..)) (pending := .inr (State.advance_pending ..))
theorem State.setChan_only {L : Nat} {s₀ s : State} (h : s₀.Only L s) (c : Nat) (v : Chan) (hL : 128 &&& L = 128) :
    s₀.Only L (s.setChan c v) :=
  .of h (now := .inr (State.setChan_now ..)) (frame := .inr (State.setChan_frame ..)) (running := .inr
      (State.setChan_running ..)) (regs := .inr (State.setChan_regs ..)) (stale := .inr (State.setChan_stale ..))
      (pendW := .inr (State.setChan_pendW ..)) (eventQ := .inr (State.setChan_eventQ ..)) (chans := .inl (Only.bit
      hL (by decide))) (tiles := .inr (State.setChan_tiles ..)) (tac := .inr (State.setChan_tac ..)) (tacStaged :=
      .inr (State.setChan_tacStaged ..)) (tacPoison := .inr (State.setChan_tacPoison ..)) (rwsStaged := .inr
      (State.setChan_rwsStaged ..)) (concA := .inr (State.setChan_concA ..)) (concB := .inr (State.setChan_concB
      ..)) (frames := .inr (State.setChan_frames ..)) (trig := .inr (State.setChan_trig ..)) (time := .inr
      (State.setChan_time ..)) (lastCorr := .inr (State.setChan_lastCorr ..)) (scrubs := .inr (State.setChan_scrubs
      ..)) (writeBacks := .inr (State.setChan_writeBacks ..)) (integ := .inr (State.setChan_integ ..)) (stick :=
      .inr (State.setChan_stick ..)) (cal := .inr (State.setChan_cal ..)) (mon := .inr (State.setChan_mon ..)) (fwu
      := .inr (State.setChan_fwu ..)) (pow := .inr (State.setChan_pow ..)) (tap := .inr (State.setChan_tap ..)) (um0
      := .inr (State.setChan_um0 ..)) (um1 := .inr (State.setChan_um1 ..)) (peal := .inr (State.setChan_peal ..))
      (mixedFrom := .inr (State.setChan_mixedFrom ..)) (unlocks := .inr (State.setChan_unlocks ..)) (journal := .inr
      (State.setChan_journal ..)) (saved := .inr (State.setChan_saved ..)) (savedStaged := .inr
      (State.setChan_savedStaged ..)) (savedTac := .inr (State.setChan_savedTac ..)) (jseq := .inr
      (State.setChan_jseq ..)) (savedEpoch := .inr (State.setChan_savedEpoch ..)) (savedCorr := .inr
      (State.setChan_savedCorr ..)) (mramCorr := .inr (State.setChan_mramCorr ..)) (mramTac := .inr
      (State.setChan_mramTac ..)) (mramTap := .inr (State.setChan_mramTap ..)) (freeCount := .inr
      (State.setChan_freeCount ..)) (pending := .inr (State.setChan_pending ..))
theorem State.setTile_only {L : Nat} {s₀ s : State} (h : s₀.Only L s) (t : Fin 16) (v : Tile) (hL : 256 &&& L = 256)
    : s₀.Only L (s.setTile t v) :=
  .of h (now := .inr (State.setTile_now ..)) (frame := .inr (State.setTile_frame ..)) (running := .inr
      (State.setTile_running ..)) (regs := .inr (State.setTile_regs ..)) (stale := .inr (State.setTile_stale ..))
      (pendW := .inr (State.setTile_pendW ..)) (eventQ := .inr (State.setTile_eventQ ..)) (chans := .inr
      (State.setTile_chans ..)) (tiles := .inl (Only.bit hL (by decide))) (tac := .inr (State.setTile_tac ..))
      (tacStaged := .inr (State.setTile_tacStaged ..)) (tacPoison := .inr (State.setTile_tacPoison ..)) (rwsStaged
      := .inr (State.setTile_rwsStaged ..)) (concA := .inr (State.setTile_concA ..)) (concB := .inr
      (State.setTile_concB ..)) (frames := .inr (State.setTile_frames ..)) (trig := .inr (State.setTile_trig ..))
      (time := .inr (State.setTile_time ..)) (lastCorr := .inr (State.setTile_lastCorr ..)) (scrubs := .inr
      (State.setTile_scrubs ..)) (writeBacks := .inr (State.setTile_writeBacks ..)) (integ := .inr
      (State.setTile_integ ..)) (stick := .inr (State.setTile_stick ..)) (cal := .inr (State.setTile_cal ..)) (mon
      := .inr (State.setTile_mon ..)) (fwu := .inr (State.setTile_fwu ..)) (pow := .inr (State.setTile_pow ..)) (tap
      := .inr (State.setTile_tap ..)) (um0 := .inr (State.setTile_um0 ..)) (um1 := .inr (State.setTile_um1 ..))
      (peal := .inr (State.setTile_peal ..)) (mixedFrom := .inr (State.setTile_mixedFrom ..)) (unlocks := .inr
      (State.setTile_unlocks ..)) (journal := .inr (State.setTile_journal ..)) (saved := .inr (State.setTile_saved
      ..)) (savedStaged := .inr (State.setTile_savedStaged ..)) (savedTac := .inr (State.setTile_savedTac ..)) (jseq
      := .inr (State.setTile_jseq ..)) (savedEpoch := .inr (State.setTile_savedEpoch ..)) (savedCorr := .inr
      (State.setTile_savedCorr ..)) (mramCorr := .inr (State.setTile_mramCorr ..)) (mramTac := .inr
      (State.setTile_mramTac ..)) (mramTap := .inr (State.setTile_mramTap ..)) (freeCount := .inr
      (State.setTile_freeCount ..)) (pending := .inr (State.setTile_pending ..))
theorem State.setPort_only {L : Nat} {s₀ s : State} (h : s₀.Only L s) (t : Fin 16) (c : Conc) (v : Port) (hL : 256
    &&& L = 256) : s₀.Only L (s.setPort t c v) :=
  .of h (now := .inr (State.setPort_now ..)) (frame := .inr (State.setPort_frame ..)) (running := .inr
      (State.setPort_running ..)) (regs := .inr (State.setPort_regs ..)) (stale := .inr (State.setPort_stale ..))
      (pendW := .inr (State.setPort_pendW ..)) (eventQ := .inr (State.setPort_eventQ ..)) (chans := .inr
      (State.setPort_chans ..)) (tiles := .inl (Only.bit hL (by decide))) (tac := .inr (State.setPort_tac ..))
      (tacStaged := .inr (State.setPort_tacStaged ..)) (tacPoison := .inr (State.setPort_tacPoison ..)) (rwsStaged
      := .inr (State.setPort_rwsStaged ..)) (concA := .inr (State.setPort_concA ..)) (concB := .inr
      (State.setPort_concB ..)) (frames := .inr (State.setPort_frames ..)) (trig := .inr (State.setPort_trig ..))
      (time := .inr (State.setPort_time ..)) (lastCorr := .inr (State.setPort_lastCorr ..)) (scrubs := .inr
      (State.setPort_scrubs ..)) (writeBacks := .inr (State.setPort_writeBacks ..)) (integ := .inr
      (State.setPort_integ ..)) (stick := .inr (State.setPort_stick ..)) (cal := .inr (State.setPort_cal ..)) (mon
      := .inr (State.setPort_mon ..)) (fwu := .inr (State.setPort_fwu ..)) (pow := .inr (State.setPort_pow ..)) (tap
      := .inr (State.setPort_tap ..)) (um0 := .inr (State.setPort_um0 ..)) (um1 := .inr (State.setPort_um1 ..))
      (peal := .inr (State.setPort_peal ..)) (mixedFrom := .inr (State.setPort_mixedFrom ..)) (unlocks := .inr
      (State.setPort_unlocks ..)) (journal := .inr (State.setPort_journal ..)) (saved := .inr (State.setPort_saved
      ..)) (savedStaged := .inr (State.setPort_savedStaged ..)) (savedTac := .inr (State.setPort_savedTac ..)) (jseq
      := .inr (State.setPort_jseq ..)) (savedEpoch := .inr (State.setPort_savedEpoch ..)) (savedCorr := .inr
      (State.setPort_savedCorr ..)) (mramCorr := .inr (State.setPort_mramCorr ..)) (mramTac := .inr
      (State.setPort_mramTac ..)) (mramTap := .inr (State.setPort_mramTap ..)) (freeCount := .inr
      (State.setPort_freeCount ..)) (pending := .inr (State.setPort_pending ..))
theorem State.setConc_only {L : Nat} {s₀ s : State} (h : s₀.Only L s) (c : Conc) (v : ConcSt) (hL : 24576 &&& L =
    24576) : s₀.Only L (s.setConc c v) :=
  .of h (now := .inr (State.setConc_now ..)) (frame := .inr (State.setConc_frame ..)) (running := .inr
      (State.setConc_running ..)) (regs := .inr (State.setConc_regs ..)) (stale := .inr (State.setConc_stale ..))
      (pendW := .inr (State.setConc_pendW ..)) (eventQ := .inr (State.setConc_eventQ ..)) (chans := .inr
      (State.setConc_chans ..)) (tiles := .inr (State.setConc_tiles ..)) (tac := .inr (State.setConc_tac ..))
      (tacStaged := .inr (State.setConc_tacStaged ..)) (tacPoison := .inr (State.setConc_tacPoison ..)) (rwsStaged
      := .inr (State.setConc_rwsStaged ..)) (concA := .inl (Only.bit hL (by decide))) (concB := .inl (Only.bit hL
      (by decide))) (frames := .inr (State.setConc_frames ..)) (trig := .inr (State.setConc_trig ..)) (time := .inr
      (State.setConc_time ..)) (lastCorr := .inr (State.setConc_lastCorr ..)) (scrubs := .inr (State.setConc_scrubs
      ..)) (writeBacks := .inr (State.setConc_writeBacks ..)) (integ := .inr (State.setConc_integ ..)) (stick :=
      .inr (State.setConc_stick ..)) (cal := .inr (State.setConc_cal ..)) (mon := .inr (State.setConc_mon ..)) (fwu
      := .inr (State.setConc_fwu ..)) (pow := .inr (State.setConc_pow ..)) (tap := .inr (State.setConc_tap ..)) (um0
      := .inr (State.setConc_um0 ..)) (um1 := .inr (State.setConc_um1 ..)) (peal := .inr (State.setConc_peal ..))
      (mixedFrom := .inr (State.setConc_mixedFrom ..)) (unlocks := .inr (State.setConc_unlocks ..)) (journal := .inr
      (State.setConc_journal ..)) (saved := .inr (State.setConc_saved ..)) (savedStaged := .inr
      (State.setConc_savedStaged ..)) (savedTac := .inr (State.setConc_savedTac ..)) (jseq := .inr
      (State.setConc_jseq ..)) (savedEpoch := .inr (State.setConc_savedEpoch ..)) (savedCorr := .inr
      (State.setConc_savedCorr ..)) (mramCorr := .inr (State.setConc_mramCorr ..)) (mramTac := .inr
      (State.setConc_mramTac ..)) (mramTap := .inr (State.setConc_mramTap ..)) (freeCount := .inr
      (State.setConc_freeCount ..)) (pending := .inr (State.setConc_pending ..))
theorem State.setRx_only {L : Nat} {s₀ s : State} (h : s₀.Only L s) (c : Conc) (t : Fin 16) (v : Rx) (hL : 24576 &&&
    L = 24576) : s₀.Only L (s.setRx c t v) :=
  .of h (now := .inr (State.setRx_now ..)) (frame := .inr (State.setRx_frame ..)) (running := .inr
      (State.setRx_running ..)) (regs := .inr (State.setRx_regs ..)) (stale := .inr (State.setRx_stale ..)) (pendW
      := .inr (State.setRx_pendW ..)) (eventQ := .inr (State.setRx_eventQ ..)) (chans := .inr (State.setRx_chans
      ..)) (tiles := .inr (State.setRx_tiles ..)) (tac := .inr (State.setRx_tac ..)) (tacStaged := .inr
      (State.setRx_tacStaged ..)) (tacPoison := .inr (State.setRx_tacPoison ..)) (rwsStaged := .inr
      (State.setRx_rwsStaged ..)) (concA := .inl (Only.bit hL (by decide))) (concB := .inl (Only.bit hL (by
      decide))) (frames := .inr (State.setRx_frames ..)) (trig := .inr (State.setRx_trig ..)) (time := .inr
      (State.setRx_time ..)) (lastCorr := .inr (State.setRx_lastCorr ..)) (scrubs := .inr (State.setRx_scrubs ..))
      (writeBacks := .inr (State.setRx_writeBacks ..)) (integ := .inr (State.setRx_integ ..)) (stick := .inr
      (State.setRx_stick ..)) (cal := .inr (State.setRx_cal ..)) (mon := .inr (State.setRx_mon ..)) (fwu := .inr
      (State.setRx_fwu ..)) (pow := .inr (State.setRx_pow ..)) (tap := .inr (State.setRx_tap ..)) (um0 := .inr
      (State.setRx_um0 ..)) (um1 := .inr (State.setRx_um1 ..)) (peal := .inr (State.setRx_peal ..)) (mixedFrom :=
      .inr (State.setRx_mixedFrom ..)) (unlocks := .inr (State.setRx_unlocks ..)) (journal := .inr
      (State.setRx_journal ..)) (saved := .inr (State.setRx_saved ..)) (savedStaged := .inr (State.setRx_savedStaged
      ..)) (savedTac := .inr (State.setRx_savedTac ..)) (jseq := .inr (State.setRx_jseq ..)) (savedEpoch := .inr
      (State.setRx_savedEpoch ..)) (savedCorr := .inr (State.setRx_savedCorr ..)) (mramCorr := .inr
      (State.setRx_mramCorr ..)) (mramTac := .inr (State.setRx_mramTac ..)) (mramTap := .inr (State.setRx_mramTap
      ..)) (freeCount := .inr (State.setRx_freeCount ..)) (pending := .inr (State.setRx_pending ..))

/-- The number of a part: its bit of a mask. -/
def Part.bit : Part → Nat
  | .now => 0
  | .frame => 1
  | .running => 2
  | .regs => 3
  | .stale => 4
  | .pendW => 5
  | .eventQ => 6
  | .chans => 7
  | .tiles => 8
  | .tac => 9
  | .tacStaged => 10
  | .tacPoison => 11
  | .rwsStaged => 12
  | .concA => 13
  | .concB => 14
  | .frames => 15
  | .trig => 16
  | .time => 17
  | .lastCorr => 18
  | .scrubs => 19
  | .writeBacks => 20
  | .integ => 21
  | .stick => 22
  | .cal => 23
  | .mon => 24
  | .fwu => 25
  | .pow => 26
  | .tap => 27
  | .um0 => 28
  | .um1 => 29
  | .peal => 30
  | .mixedFrom => 31
  | .unlocks => 32
  | .journal => 33
  | .saved => 34
  | .savedStaged => 35
  | .savedTac => 36
  | .jseq => 37
  | .savedEpoch => 38
  | .savedCorr => 39
  | .mramCorr => 40
  | .mramTac => 41
  | .mramTap => 42
  | .freeCount => 43
  | .pending => 44

theorem State.Only.same {L : Nat} {s t : State} (h : s.Only L t) (p : Part) (k : L.testBit p.bit = false) : s.same t
    p := by
  cases p
  · exact h.now k
  · exact h.frame k
  · exact h.running k
  · exact h.regs k
  · exact h.stale k
  · exact h.pendW k
  · exact h.eventQ k
  · exact h.chans k
  · exact h.tiles k
  · exact h.tac k
  · exact h.tacStaged k
  · exact h.tacPoison k
  · exact h.rwsStaged k
  · exact h.concA k
  · exact h.concB k
  · exact h.frames k
  · exact h.trig k
  · exact h.time k
  · exact h.lastCorr k
  · exact h.scrubs k
  · exact h.writeBacks k
  · exact h.integ k
  · exact h.stick k
  · exact h.cal k
  · exact h.mon k
  · exact h.fwu k
  · exact h.pow k
  · exact h.tap k
  · exact h.um0 k
  · exact h.um1 k
  · exact h.peal k
  · exact h.mixedFrom k
  · exact h.unlocks k
  · exact h.journal k
  · exact h.saved k
  · exact h.savedStaged k
  · exact h.savedTac k
  · exact h.jseq k
  · exact h.savedEpoch k
  · exact h.savedCorr k
  · exact h.mramCorr k
  · exact h.mramTac k
  · exact h.mramTap k
  · exact h.freeCount k
  · exact h.pending k

theorem mem_allBut {l : List Part} {p : Part} (h : p ∉ l) : p ∈ allBut l := by
  refine List.mem_filter.2 ⟨?_, by simpa using h⟩
  cases p <;> decide

theorem State.Only.changes {L : Nat} {s t : State} {l : List Part} (h : s.Only L t)
    (k : (allBut l).all (fun p => !L.testBit p.bit) = true) : s.changesOnly l t := fun p hp =>
  h.same p (by simpa using List.all_eq_true.1 k p (mem_allBut hp))

end Sys2Proof.Machine
end

