-- ==== Sys2Proof/Laws/PartsUnits.lean ====
section
/-!
SUPPORT. What parts of the state each function of the machine may change: one lemma per function, in the order of the files
that define them.
-/

set_option Elab.async false
set_option linter.unusedTactic false
set_option linter.unreachableTactic false
set_option linter.unusedVariables false

namespace Sys2Proof.Machine
open State

/-! Ops.lean -/

theorem State.wake_only {L : Nat} {s₀ s : State} (hs₀ : s₀.Only L s) (page : Nat) (hL : 24 &&& L = 24) : s₀.Only L
    (State.wake s page) := by
  unfold State.wake
  repeat (with_reducible first
    | exact hs₀
    | exact Only.sub hL (by decide)
    | apply State.put_only
    | apply State.Only.ite
    | split)
theorem State.draw_only {L : Nat} {s₀ s : State} (hs₀ : s₀.Only L s) (hL : 8796093022208 &&& L = 8796093022208) :
    s₀.Only L (State.draw s).2 := by
  unfold State.draw
  repeat (with_reducible first
    | split
    | exact hs₀
    | exact Only.sub hL (by decide)
    | refine State.Only.of ?_ (freeCount := .inl (Only.bit hL (by decide))))

/-! Dead.lean -/

theorem State.addCalDead_only {L : Nat} {s₀ s : State} (hs₀ : s₀.Only L s) (chan n : Nat) (hL : 8388632 &&& L =
    8388632) : s₀.Only L (State.addCalDead s chan n) := by
  unfold State.addCalDead
  repeat (with_reducible first
    | exact hs₀
    | exact Only.sub hL (by decide)
    | apply State.overflow_only
    | apply State.bump64_only
    | apply State.Only.ite
    | split
    | refine State.Only.of ?_ (cal := .inl (Only.bit hL (by decide)))
    | dsimp only)
theorem State.calMissed_only {L : Nat} {s₀ s : State} (hs₀ : s₀.Only L s) (chan : Nat) (hL : 8388632 &&& L =
    8388632) : s₀.Only L (State.calMissed s chan) := by
  unfold State.calMissed
  repeat (with_reducible first
    | exact hs₀
    | exact Only.sub hL (by decide)
    | apply State.addCalDead_only
    | apply State.bump_only)
theorem State.dropLaunches_only {L : Nat} {s₀ s : State} (hs₀ : s₀.Only L s) (p : Launch → Bool) (hL : 8388608 &&& L
    = 8388608) : s₀.Only L (State.dropLaunches s p) := by
  unfold State.dropLaunches
  repeat (with_reducible first
    | exact hs₀
    | exact Only.sub hL (by decide)
    | refine State.Only.of ?_ (cal := .inl (Only.bit hL (by decide))))
theorem State.missLaunches_only {L : Nat} {s₀ s : State} (hs₀ : s₀.Only L s) (p : Launch → Bool) (hL : 8388632 &&& L
    = 8388632) : s₀.Only L (State.missLaunches s p) := by
  unfold State.missLaunches
  repeat (with_reducible first
    | exact hs₀
    | exact Only.sub hL (by decide)
    | apply State.dropLaunches_only
    | apply State.calMissed_only
    | refine State.Only.each ?_ ?_ <;> [(intro u x₁ hs₀; try dsimp only); skip])
theorem State.launchHit_only {L : Nat} {s₀ s : State} (hs₀ : s₀.Only L s) (chan launch lead hold : Nat) (hL :
    8388608 &&& L = 8388608) : s₀.Only L (State.launchHit s chan launch lead hold) := by
  unfold State.launchHit
  repeat (with_reducible first
    | exact hs₀
    | exact Only.sub hL (by decide)
    | apply State.Only.ite
    | split
    | refine State.Only.of ?_ (cal := .inl (Only.bit hL (by decide))))
theorem State.launchCaptured_only {L : Nat} {s₀ s : State} (hs₀ : s₀.Only L s) (chan tot : Nat) (hL : 8388632 &&& L
    = 8388632) : s₀.Only L (State.launchCaptured s chan tot) := by
  unfold State.launchCaptured
  repeat (with_reducible first
    | exact hs₀
    | exact Only.sub hL (by decide)
    | apply State.dropLaunches_only
    | apply State.addCalDead_only
    | split
    | dsimp only)
theorem State.launchesUnread_only {L : Nat} {s₀ s : State} (hs₀ : s₀.Only L s) (f : Nat) (hL : 8388632 &&& L =
    8388632) : s₀.Only L (State.launchesUnread s f) := by
  unfold State.launchesUnread
  repeat (with_reducible first
    | exact hs₀
    | exact Only.sub hL (by decide)
    | apply State.missLaunches_only
    | apply State.Only.ite
    | split)
theorem State.launchesClosed_only {L : Nat} {s₀ s : State} (hs₀ : s₀.Only L s) (c : Conc) (t : Fin 16) (n : Nat) (hL
    : 8388632 &&& L = 8388632) : s₀.Only L (State.launchesClosed s c t n) := by
  unfold State.launchesClosed
  repeat (with_reducible first
    | exact hs₀
    | exact Only.sub hL (by decide)
    | apply State.missLaunches_only
    | apply State.Only.ite
    | split)
theorem State.launchBlind_only {L : Nat} {s₀ s : State} (hs₀ : s₀.Only L s) (chan launch : Nat) (hL : 8388632 &&& L
    = 8388632) : s₀.Only L (State.launchBlind s chan launch) := by
  unfold State.launchBlind
  repeat (with_reducible first | exact hs₀ | exact Only.sub hL (by decide) | apply State.missLaunches_only)

/-! Integrity.lean -/

theorem State.bucketPass_only {L : Nat} {s₀ s : State} (hs₀ : s₀.Only L s) (page r : Nat) (before : Bool) (hL : 72
    &&& L = 72) : s₀.Only L (State.bucketPass s page r before) := by
  unfold State.bucketPass
  repeat (with_reducible first | exact hs₀ | exact Only.sub hL (by decide) | apply State.eventIf_only)
theorem State.showRemap_only {L : Nat} {s₀ s : State} (hs₀ : s₀.Only L s) (page : Nat) (hL : 24 &&& L = 24) :
    s₀.Only L (State.showRemap s page) := by
  unfold State.showRemap
  repeat (with_reducible first | exact hs₀ | exact Only.sub hL (by decide) | apply State.put_only | dsimp only)
theorem State.remapWord_only {L : Nat} {s₀ s : State} (hs₀ : s₀.Only L s) (page r addr : Nat) (hL : 88 &&& L = 88) :
    s₀.Only L (State.remapWord s page r addr).2 := by
  unfold State.remapWord
  repeat (with_reducible first
    | dsimp only
    | split
    | exact hs₀
    | exact Only.sub hL (by decide)
    | apply State.event_only
    | apply State.putB_only
    | apply State.put_only)
theorem State.faultSpare_only {L : Nat} {s₀ s : State} (hs₀ : s₀.Only L s) (page n : Nat) (x0 : Option Nat) (hL : 24
    &&& L = 24) : s₀.Only L (State.faultSpare s page n x0) := by
  unfold State.faultSpare
  repeat (with_reducible first
    | exact hs₀
    | exact Only.sub hL (by decide)
    | apply State.putB_only
    | apply State.put_only
    | split)
theorem State.newFault_only {L : Nat} {s₀ s : State} (hs₀ : s₀.Only L s) (page r addr bit n : Nat) (hL : 88 &&& L =
    88) : s₀.Only L (State.newFault s page r addr bit n) := by
  unfold State.newFault
  repeat (with_reducible first
    | exact hs₀
    | exact Only.sub hL (by decide)
    | apply State.put_only
    | apply State.putB_only
    | apply State.event_only
    | apply State.Only.ite
    | split
    | dsimp only)
theorem State.markSticky_only {L : Nat} {s₀ s : State} (hs₀ : s₀.Only L s) (page r addr bit : Nat) (hL : 88 &&& L =
    88) : s₀.Only L (State.markSticky s page r addr bit) := by
  unfold State.markSticky
  repeat (with_reducible first
    | exact hs₀
    | exact Only.sub hL (by decide)
    | apply State.remapWord_only
    | apply State.put_only
    | apply State.faultSpare_only
    | apply State.newFault_only
    | apply State.bump_only
    | apply State.showRemap_only
    | split
    | dsimp only)
theorem State.countCorrected_only {L : Nat} {s₀ s : State} (hs₀ : s₀.Only L s) (page r addr : Nat) (hL : 262232 &&&
    L = 262232) : s₀.Only L (State.countCorrected s page r addr) := by
  unfold State.countCorrected
  repeat (with_reducible first
    | exact hs₀
    | exact Only.sub hL (by decide)
    | apply State.bump_only
    | apply State.put_only
    | apply State.bucketPass_only
    | apply State.Only.ite
    | split
    | refine State.Only.of ?_ (lastCorr := .inl (Only.bit hL (by decide)))
    | dsimp only)
theorem State.correctedRead_only {L : Nat} {s₀ s : State} (hs₀ : s₀.Only L s) (page r addr bit : Nat) (hL : 262232
    &&& L = 262232) : s₀.Only L (State.correctedRead s page r addr bit) := by
  unfold State.correctedRead
  repeat (with_reducible first
    | exact hs₀
    | exact Only.sub hL (by decide)
    | apply State.countCorrected_only
    | apply State.markSticky_only
    | apply State.Only.ite
    | split
    | dsimp only)
theorem State.uncorrectableRead_only {L : Nat} {s₀ s : State} (hs₀ : s₀.Only L s) (page r : Nat) (hL : 24 &&& L =
    24) : s₀.Only L (State.uncorrectableRead s page r) := by
  unfold State.uncorrectableRead
  repeat (with_reducible first | exact hs₀ | exact Only.sub hL (by decide) | apply State.bump_only)
theorem State.poisoned_only {L : Nat} {s₀ s : State} (hs₀ : s₀.Only L s) (page : Nat) (hL : 88 &&& L = 88) : s₀.Only
    L (State.poisoned s page) := by
  unfold State.poisoned
  repeat (with_reducible first
    | exact hs₀
    | exact Only.sub hL (by decide)
    | apply State.bump_only
    | apply State.event_only)
theorem State.poisonTac_only {L : Nat} {s₀ s : State} (hs₀ : s₀.Only L s) (chan : Nat) (hL : 2136 &&& L = 2136) :
    s₀.Only L (State.poisonTac s chan) := by
  unfold State.poisonTac
  repeat (with_reducible first
    | exact hs₀
    | exact Only.sub hL (by decide)
    | apply State.poisoned_only
    | refine State.Only.of ?_ (tacPoison := .inl (Only.bit hL (by decide))))
theorem State.countRead_only {L : Nat} {s₀ s : State} (hs₀ : s₀.Only L s) (page r addr : Nat) (x0 : EccRead) (hL :
    262232 &&& L = 262232) : s₀.Only L (State.countRead s page r addr x0) := by
  unfold State.countRead
  repeat (with_reducible first
    | exact hs₀
    | exact Only.sub hL (by decide)
    | apply State.correctedRead_only
    | apply State.uncorrectableRead_only
    | split)
theorem State.readMram_only {L : Nat} {s₀ s : State} (hs₀ : s₀.Only L s) (l : Reads) (hL : 262232 &&& L = 262232) :
    s₀.Only L (State.readMram s l) := by
  unfold State.readMram
  repeat (with_reducible first
    | exact hs₀
    | exact Only.sub hL (by decide)
    | apply State.countRead_only
    | refine State.Only.each ?_ ?_ <;> [(intro u x₁ hs₀; try dsimp only); skip])
theorem State.poisonMram_only {L : Nat} {s₀ s : State} (hs₀ : s₀.Only L s) (addr : Nat) (hL : 2097240 &&& L =
    2097240) : s₀.Only L (State.poisonMram s addr) := by
  unfold State.poisonMram
  repeat (with_reducible first
    | exact hs₀
    | exact Only.sub hL (by decide)
    | apply State.poisoned_only
    | refine State.Only.of ?_ (integ := .inl (Only.bit hL (by decide))))
theorem State.concChecked_only {L : Nat} {s₀ s : State} (hs₀ : s₀.Only L s) (c : Conc) (pass : BitVec 24) (hL :
    2097240 &&& L = 2097240) : s₀.Only L (State.concChecked s c pass) := by
  unfold State.concChecked
  repeat (with_reducible first
    | exact hs₀
    | exact Only.sub hL (by decide)
    | apply State.putB_only
    | apply State.put_only
    | apply State.event_only
    | apply State.Only.ite
    | split
    | refine State.Only.of ?_ (integ := .inl (Only.bit hL (by decide)))
    | dsimp only)
theorem State.forgetFailure_only {L : Nat} {s₀ s : State} (hs₀ : s₀.Only L s) (c : Conc) (hL : 2097152 &&& L =
    2097152) : s₀.Only L (State.forgetFailure s c) := by
  unfold State.forgetFailure
  repeat (with_reducible first
    | exact hs₀
    | exact Only.sub hL (by decide)
    | refine State.Only.of ?_ (integ := .inl (Only.bit hL (by decide))))

/-! Journal.lean -/

theorem State.showJournal_only {L : Nat} {s₀ s : State} (hs₀ : s₀.Only L s) (hL : 24 &&& L = 24) : s₀.Only L
    (State.showJournal s) := by
  unfold State.showJournal
  repeat (with_reducible first
    | exact hs₀
    | exact Only.sub hL (by decide)
    | apply State.put_only
    | split
    | dsimp only)
theorem State.append_only {L : Nat} {s₀ s : State} (hs₀ : s₀.Only L s) (e : JEntry) (hL : 8589934616 &&& L =
    8589934616) : s₀.Only L (State.append s e).2 := by
  unfold State.append
  repeat (with_reducible first
    | dsimp only
    | split
    | exact hs₀
    | exact Only.sub hL (by decide)
    | apply State.showJournal_only
    | refine State.Only.of ?_ (journal := .inl (Only.bit hL (by decide))))
theorem State.journalEvent_only {L : Nat} {s₀ s : State} (hs₀ : s₀.Only L s) (code result page off digest aux : Nat)
    (hL : 8589934616 &&& L = 8589934616) : s₀.Only L (State.journalEvent s code result page off digest aux) := by
  unfold State.journalEvent
  repeat (with_reducible first | exact hs₀ | exact Only.sub hL (by decide) | apply State.append_only)
theorem State.noteChange_only {L : Nat} {s₀ s : State} (hs₀ : s₀.Only L s) (page seq : Nat) (hL : 137438953472 &&& L
    = 137438953472) : s₀.Only L (State.noteChange s page seq) := by
  unfold State.noteChange
  repeat (with_reducible first
    | exact hs₀
    | exact Only.sub hL (by decide)
    | refine State.Only.of ?_ (jseq := .inl (Only.bit hL (by decide))))
theorem State.poisonJournal_only {L : Nat} {s₀ s : State} (hs₀ : s₀.Only L s) (place : Nat) (hL : 8589934592 &&& L =
    8589934592) : s₀.Only L (State.poisonJournal s place) := by
  unfold State.poisonJournal
  repeat (with_reducible first
    | exact hs₀
    | exact Only.sub hL (by decide)
    | apply State.Only.ite
    | split
    | refine State.Only.of ?_ (journal := .inl (Only.bit hL (by decide))))
theorem State.setUm_only {L : Nat} {s₀ s : State} (hs₀ : s₀.Only L s) (u : Um) (v : UmSt) (hL : 805306368 &&& L =
    805306368) : s₀.Only L (State.setUm s u v) := by
  unfold State.setUm
  repeat (with_reducible first
    | exact hs₀
    | exact Only.sub hL (by decide)
    | split
    | refine State.Only.of ?_ (um0 := .inl (Only.bit hL (by decide))) (um1 := .inl (Only.bit hL (by decide))))
theorem State.holdAnswer_only {L : Nat} {s₀ s : State} (hs₀ : s₀.Only L s) (u : Um) (tag : Byte) (hL : 805306368 &&&
    L = 805306368) : s₀.Only L (State.holdAnswer s u tag) := by
  unfold State.holdAnswer
  repeat (with_reducible first | exact hs₀ | exact Only.sub hL (by decide) | apply State.setUm_only)
theorem State.answerHeld_only {L : Nat} {s₀ s : State} (hs₀ : s₀.Only L s) (u : Um) (tag : Byte) (code result seq :
    Nat) (hL : 805306368 &&& L = 805306368) : s₀.Only L (State.answerHeld s u tag code result seq) := by
  unfold State.answerHeld
  repeat (with_reducible first | exact hs₀ | exact Only.sub hL (by decide) | apply State.setUm_only | dsimp only)
theorem State.answer_only {L : Nat} {s₀ s : State} (hs₀ : s₀.Only L s) (u : Um) (tag : Byte) (code result seq : Nat)
    (data : List Word) (hL : 805306368 &&& L = 805306368) : s₀.Only L (State.answer s u tag code result seq data) :=
    by
  unfold State.answer
  repeat (with_reducible first | exact hs₀ | exact Only.sub hL (by decide) | apply State.setUm_only)

/-! Boot.lean -/

theorem State.loadClassK_only {L : Nat} {s₀ s : State} (hs₀ : s₀.Only L s) (lo hi : Nat) (hL : 8 &&& L = 8) :
    s₀.Only L (State.loadClassK s lo hi) := by
  unfold State.loadClassK
  repeat (with_reducible first
    | exact hs₀
    | exact Only.sub hL (by decide)
    | apply State.wr_only
    | refine State.Only.each ?_ ?_ <;> [(intro u x₁ hs₀; try dsimp only); skip])
theorem State.showFwu_only {L : Nat} {s₀ s : State} (hs₀ : s₀.Only L s) (hL : 24 &&& L = 24) : s₀.Only L
    (State.showFwu s) := by
  unfold State.showFwu
  repeat (with_reducible first
    | exact hs₀
    | exact Only.sub hL (by decide)
    | apply State.put_only
    | apply State.putB_only
    | apply State.Only.ite
    | split
    | dsimp only)
theorem State.withSettings_only {L : Nat} {s₀ s : State} (hs₀ : s₀.Only L s) (c : Settings) (hL : 1082365313024 &&&
    L = 1082365313024) : s₀.Only L (State.withSettings s c) := by
  unfold State.withSettings
  repeat (with_reducible first
    | exact hs₀
    | exact Only.sub hL (by decide)
    | refine State.Only.of ?_ (fwu := .inl (Only.bit hL (by decide))) (saved := .inl (Only.bit hL (by decide)))
        (savedStaged := .inl (Only.bit hL (by decide))) (savedTac := .inl (Only.bit hL (by decide))) (jseq := .inl
        (Only.bit hL (by decide))) (savedEpoch := .inl (Only.bit hL (by decide))) (savedCorr := .inl (Only.bit hL
        (by decide))))
theorem State.boot_only {L : Nat} {s₀ s : State} (hs₀ : s₀.Only L s) (p : PowSt) (hL : 17179869183 &&& L =
    17179869183) : s₀.Only L (State.boot s p) := by
  unfold State.boot
  exact State.Only.of hs₀ (now := .inl (Only.bit hL (by decide))) (frame := .inl (Only.bit hL (by decide)))
      (running := .inl (Only.bit hL (by decide))) (regs := .inl (Only.bit hL (by decide))) (stale := .inl (Only.bit
      hL (by decide))) (pendW := .inl (Only.bit hL (by decide))) (eventQ := .inl (Only.bit hL (by decide))) (chans
      := .inl (Only.bit hL (by decide))) (tiles := .inl (Only.bit hL (by decide))) (tac := .inl (Only.bit hL (by
      decide))) (tacStaged := .inl (Only.bit hL (by decide))) (tacPoison := .inl (Only.bit hL (by decide)))
      (rwsStaged := .inl (Only.bit hL (by decide))) (concA := .inl (Only.bit hL (by decide))) (concB := .inl
      (Only.bit hL (by decide))) (frames := .inl (Only.bit hL (by decide))) (trig := .inl (Only.bit hL (by decide)))
      (time := .inl (Only.bit hL (by decide))) (lastCorr := .inl (Only.bit hL (by decide))) (scrubs := .inl
      (Only.bit hL (by decide))) (writeBacks := .inl (Only.bit hL (by decide))) (integ := .inl (Only.bit hL (by
      decide))) (stick := .inl (Only.bit hL (by decide))) (cal := .inl (Only.bit hL (by decide))) (mon := .inl
      (Only.bit hL (by decide))) (fwu := .inl (Only.bit hL (by decide))) (pow := .inl (Only.bit hL (by decide)))
      (tap := .inl (Only.bit hL (by decide))) (um0 := .inl (Only.bit hL (by decide))) (um1 := .inl (Only.bit hL (by
      decide))) (peal := .inl (Only.bit hL (by decide))) (mixedFrom := .inl (Only.bit hL (by decide))) (unlocks :=
      .inl (Only.bit hL (by decide))) (journal := .inl (Only.bit hL (by decide)))
theorem State.restart_only {L : Nat} {s₀ s : State} (hs₀ : s₀.Only L s) (cause : Nat) (hL : 17179869183 &&& L =
    17179869183) : s₀.Only L (State.restart s cause) := by
  unfold State.restart
  repeat (with_reducible first | exact hs₀ | exact Only.sub hL (by decide) | apply State.boot_only)
theorem State.failTrial_only {L : Nat} {s₀ s : State} (hs₀ : s₀.Only L s) (isK : Bool) (cause : Nat) (hL :
    17179869183 &&& L = 17179869183) : s₀.Only L (State.failTrial s isK cause) := by
  unfold State.failTrial
  repeat (with_reducible first
    | exact hs₀
    | exact Only.sub hL (by decide)
    | apply State.restart_only
    | apply State.Only.ite
    | split
    | refine State.Only.of ?_ (fwu := .inl (Only.bit hL (by decide))))
theorem State.restartCore_only {L : Nat} {s₀ s : State} (hs₀ : s₀.Only L s) (hL : 17179869183 &&& L = 17179869183) :
    s₀.Only L (State.restartCore s) := by
  unfold State.restartCore
  repeat (with_reducible first
    | exact hs₀
    | exact Only.sub hL (by decide)
    | apply State.event_only
    | apply State.journalEvent_only
    | apply State.failTrial_only
    | dsimp only)
theorem State.classKUnread_only {L : Nat} {s₀ s : State} (hs₀ : s₀.Only L s) (hL : 17179869183 &&& L = 17179869183)
    : s₀.Only L (State.classKUnread s) := by
  unfold State.classKUnread
  repeat (with_reducible first
    | exact hs₀
    | exact Only.sub hL (by decide)
    | apply State.failTrial_only
    | apply State.putB_only
    | apply State.event_only
    | apply State.Only.ite
    | split)

/-! Channel.lean -/

theorem State.putCh_only {L : Nat} {s₀ s : State} (hs₀ : s₀.Only L s) (chan : Nat) (f : FieldRef) (b : Bool) (hL :
    24 &&& L = 24) : s₀.Only L (State.putCh s chan f b) := by
  unfold State.putCh
  repeat (with_reducible first | exact hs₀ | exact Only.sub hL (by decide) | apply State.putB_only)
theorem State.chaffMasked_only {L : Nat} {s₀ s : State} (hs₀ : s₀.Only L s) (t : Fin 16) (frame : Nat) (hL : 280 &&&
    L = 280) : s₀.Only L (State.chaffMasked s t frame) := by
  unfold State.chaffMasked
  repeat (with_reducible first
    | exact hs₀
    | exact Only.sub hL (by decide)
    | apply State.setTile_only
    | apply State.bump_only)
theorem State.chaffStuck_only {L : Nat} {s₀ s : State} (hs₀ : s₀.Only L s) (t : Fin 16) (frame : Nat) (hL : 280 &&&
    L = 280) : s₀.Only L (State.chaffStuck s t frame) := by
  unfold State.chaffStuck
  repeat (with_reducible first
    | exact hs₀
    | exact Only.sub hL (by decide)
    | apply State.setTile_only
    | apply State.bump_only)
theorem State.chaffGateHigh_only {L : Nat} {s₀ s : State} (hs₀ : s₀.Only L s) (t : Fin 16) (frame : Nat) (hL : 280
    &&& L = 280) : s₀.Only L (State.chaffGateHigh s t frame) := by
  unfold State.chaffGateHigh
  repeat (with_reducible first
    | exact hs₀
    | exact Only.sub hL (by decide)
    | apply State.setTile_only
    | apply State.bump_only)
theorem State.bumpPileup_only {L : Nat} {s₀ s : State} (hs₀ : s₀.Only L s) (chan : Nat) (hL : 24 &&& L = 24) :
    s₀.Only L (State.bumpPileup s chan) := by
  unfold State.bumpPileup
  repeat (with_reducible first | exact hs₀ | exact Only.sub hL (by decide) | apply State.bump_only)
theorem State.bumpGateHigh_only {L : Nat} {s₀ s : State} (hs₀ : s₀.Only L s) (chan : Nat) (hL : 24 &&& L = 24) :
    s₀.Only L (State.bumpGateHigh s chan) := by
  unfold State.bumpGateHigh
  repeat (with_reducible first | exact hs₀ | exact Only.sub hL (by decide) | apply State.bump_only)
theorem State.countRefused_only {L : Nat} {s₀ s : State} (hs₀ : s₀.Only L s) (t : Fin 16) (c : Conc) (r : BitVec 52)
    (hL : 24 &&& L = 24) : s₀.Only L (State.countRefused s t c r) := by
  unfold State.countRefused
  repeat (with_reducible first
    | exact hs₀
    | exact Only.sub hL (by decide)
    | apply State.bump_only
    | apply State.Only.ite
    | split)
theorem State.refuseRecord_only {L : Nat} {s₀ s : State} (hs₀ : s₀.Only L s) (t : Fin 16) (c : Conc) (r : BitVec 52)
    (frame tref : Nat) (hL : 344 &&& L = 344) : s₀.Only L (State.refuseRecord s t c r frame tref) := by
  unfold State.refuseRecord
  repeat (with_reducible first
    | exact hs₀
    | exact Only.sub hL (by decide)
    | apply State.setPort_only
    | apply State.countRefused_only
    | apply State.event_only)
theorem State.offerRecord_only {L : Nat} {s₀ s : State} (hs₀ : s₀.Only L s) (t : Fin 16) (c : Conc) (r : BitVec 52)
    (frame tref : Nat) (hL : 344 &&& L = 344) : s₀.Only L (State.offerRecord s t c r frame tref) := by
  unfold State.offerRecord
  repeat (with_reducible first
    | exact hs₀
    | exact Only.sub hL (by decide)
    | apply State.setPort_only
    | apply State.bump_only
    | apply State.put_only
    | apply State.peak_only
    | apply State.refuseRecord_only
    | apply State.Only.ite
    | split
    | dsimp only)
theorem State.offerSide_only {L : Nat} {s₀ s : State} (hs₀ : s₀.Only L s) (t : Fin 16) (c : Conc) (i : BitVec 32)
    (frame : Nat) (hL : 280 &&& L = 280) : s₀.Only L (State.offerSide s t c i frame) := by
  unfold State.offerSide
  repeat (with_reducible first
    | exact hs₀
    | exact Only.sub hL (by decide)
    | apply State.setPort_only
    | apply State.bump_only
    | apply State.Only.ite
    | split
    | dsimp only)
theorem State.acceptRecord_only {L : Nat} {s₀ s : State} (hs₀ : s₀.Only L s) (t : Fin 16) (x : BitVec 52 × Nat) (hL
    : 344 &&& L = 344) : s₀.Only L (State.acceptRecord s t x) := by
  unfold State.acceptRecord
  repeat (with_reducible first | exact hs₀ | exact Only.sub hL (by decide) | apply State.offerRecord_only)
theorem State.collectCell_only {L : Nat} {s₀ s : State} (hs₀ : s₀.Only L s) (t : Fin 16) (cell n : Nat) (hL : 344
    &&& L = 344) : s₀.Only L (State.collectCell s t cell n) := by
  unfold State.collectCell
  repeat (with_reducible first
    | exact hs₀
    | exact Only.sub hL (by decide)
    | apply State.setTile_only
    | apply State.acceptRecord_only
    | refine State.Only.each ?_ ?_ <;> [(intro u x₁ hs₀; try dsimp only); skip]
    | dsimp only)
theorem State.collect_only {L : Nat} {s₀ s : State} (hs₀ : s₀.Only L s) (chan took : Nat) (hL : 344 &&& L = 344) :
    s₀.Only L (State.collect s chan took) := by
  unfold State.collect
  repeat (with_reducible first | exact hs₀ | exact Only.sub hL (by decide) | apply State.collectCell_only)
theorem State.collectAll_only {L : Nat} {s₀ s : State} (hs₀ : s₀.Only L s) (t : Fin 16) (hL : 344 &&& L = 344) :
    s₀.Only L (State.collectAll s t) := by
  unfold State.collectAll
  repeat (with_reducible first
    | exact hs₀
    | exact Only.sub hL (by decide)
    | apply State.collectCell_only
    | refine State.Only.each ?_ ?_ <;> [(intro u x₁ hs₀; try dsimp only); skip])
theorem State.sendRecord_only {L : Nat} {s₀ s : State} (hs₀ : s₀.Only L s) (t : Fin 16) (r : BitVec 52) (side :
    BitVec 32) (lead : Nat) (hL : 344 &&& L = 344) : s₀.Only L (State.sendRecord s t r side lead) := by
  unfold State.sendRecord
  repeat (with_reducible first
    | exact hs₀
    | exact Only.sub hL (by decide)
    | apply State.setTile_only
    | apply State.bump_only
    | apply State.refuseRecord_only
    | apply State.offerSide_only
    | apply State.Only.ite
    | split
    | dsimp only)
theorem State.passHit_only {L : Nat} {s₀ s : State} (hs₀ : s₀.Only L s) (chan : Nat) (h : Hit) (hL : 8388952 &&& L =
    8388952) : s₀.Only L (State.passHit s chan h) := by
  unfold State.passHit
  repeat (with_reducible first
    | exact hs₀
    | exact Only.sub hL (by decide)
    | apply State.launchHit_only
    | apply State.bump_only
    | apply State.sendRecord_only
    | apply State.setTile_only
    | apply State.Only.ite
    | split
    | dsimp only)
theorem State.passReady_only {L : Nat} {s₀ s : State} (hs₀ : s₀.Only L s) (chan took : Nat) (hL : 8389080 &&& L =
    8389080) : s₀.Only L (State.passReady s chan took) := by
  unfold State.passReady
  repeat (with_reducible first
    | exact hs₀
    | exact Only.sub hL (by decide)
    | apply State.collect_only
    | apply State.setChan_only
    | apply State.passHit_only
    | refine State.Only.each ?_ ?_ <;> [(intro u x₁ hs₀; try dsimp only); skip]
    | dsimp only)
theorem State.decideCand_only {L : Nat} {s₀ s : State} (hs₀ : s₀.Only L s) (t : Fin 16) (p : Passed) (hL : 344 &&& L
    = 344) : s₀.Only L (State.decideCand s t p) := by
  unfold State.decideCand
  repeat (with_reducible first
    | exact hs₀
    | exact Only.sub hL (by decide)
    | apply State.bump_only
    | apply State.sendRecord_only
    | apply State.Only.ite
    | split)
theorem State.recordEdge_only {L : Nat} {s₀ s : State} (hs₀ : s₀.Only L s) (chan t : Nat) (cal : Option Nat) (hL :
    128 &&& L = 128) : s₀.Only L (State.recordEdge s chan t cal) := by
  unfold State.recordEdge
  repeat (with_reducible first
    | exact hs₀
    | exact Only.sub hL (by decide)
    | apply State.setChan_only
    | apply State.Only.ite
    | split
    | dsimp only)
theorem State.refuseEdge_only {L : Nat} {s₀ s : State} (hs₀ : s₀.Only L s) (chan : Nat) (busy : Bool) (hL : 152 &&&
    L = 152) : s₀.Only L (State.refuseEdge s chan busy) := by
  unfold State.refuseEdge
  repeat (with_reducible first
    | exact hs₀
    | exact Only.sub hL (by decide)
    | apply State.setChan_only
    | apply State.bumpPileup_only
    | apply State.bump_only
    | apply State.Only.ite
    | split
    | dsimp only)
theorem State.wakePath_only {L : Nat} {s₀ s : State} (hs₀ : s₀.Only L s) (chan : Nat) (hL : 24 &&& L = 24) : s₀.Only
    L (State.wakePath s chan) := by
  unfold State.wakePath
  repeat (with_reducible first | exact hs₀ | exact Only.sub hL (by decide) | apply State.wake_only | dsimp only)
theorem State.riseOutput_only {L : Nat} {s₀ s : State} (hs₀ : s₀.Only L s) (chan t : Nat) (hL : 152 &&& L = 152) :
    s₀.Only L (State.riseOutput s chan t) := by
  unfold State.riseOutput
  repeat (with_reducible first
    | exact hs₀
    | exact Only.sub hL (by decide)
    | apply State.putCh_only
    | apply State.wakePath_only
    | apply State.setChan_only
    | apply State.Only.ite
    | split
    | dsimp only)
theorem State.actEdge_only {L : Nat} {s₀ s : State} (hs₀ : s₀.Only L s) (chan t : Nat) (x0 : EdgeFate) (hL : 408 &&&
    L = 408) : s₀.Only L (State.actEdge s chan t x0) := by
  unfold State.actEdge
  repeat (with_reducible first
    | exact hs₀
    | exact Only.sub hL (by decide)
    | apply State.chaffStuck_only
    | apply State.chaffMasked_only
    | apply State.refuseEdge_only
    | apply State.recordEdge_only
    | split)
theorem State.leadingEdge_only {L : Nat} {s₀ s : State} (hs₀ : s₀.Only L s) (chan t : Nat) (v : Int) (hL : 409 &&& L
    = 409) : s₀.Only L (State.leadingEdge s chan t v) := by
  unfold State.leadingEdge
  repeat (with_reducible first
    | exact hs₀
    | exact Only.sub hL (by decide)
    | apply State.advance_only
    | apply State.riseOutput_only
    | apply State.actEdge_only
    | apply State.Only.ite
    | split)
theorem State.trailingEdge_only {L : Nat} {s₀ s : State} (hs₀ : s₀.Only L s) (chan t : Nat) (v : Int) (took : Nat)
    (hL : 8389081 &&& L = 8389081) : s₀.Only L (State.trailingEdge s chan t v took) := by
  unfold State.trailingEdge
  repeat (with_reducible first
    | exact hs₀
    | exact Only.sub hL (by decide)
    | apply State.advance_only
    | apply State.putCh_only
    | apply State.setChan_only
    | apply State.passReady_only
    | apply State.Only.ite
    | split
    | dsimp only)
theorem State.holdoffExpiry_only {L : Nat} {s₀ s : State} (hs₀ : s₀.Only L s) (chan t took : Nat) (hL : 8389081 &&&
    L = 8389081) : s₀.Only L (State.holdoffExpiry s chan t took) := by
  unfold State.holdoffExpiry
  repeat (with_reducible first
    | exact hs₀
    | exact Only.sub hL (by decide)
    | apply State.advance_only
    | apply State.setChan_only
    | apply State.passReady_only
    | apply State.Only.ite
    | split
    | dsimp only)
theorem State.totSaturation_only {L : Nat} {s₀ s : State} (hs₀ : s₀.Only L s) (chan t took : Nat) (hL : 8389081 &&&
    L = 8389081) : s₀.Only L (State.totSaturation s chan t took) := by
  unfold State.totSaturation
  repeat (with_reducible first
    | exact hs₀
    | exact Only.sub hL (by decide)
    | apply State.advance_only
    | apply State.setChan_only
    | apply State.passReady_only
    | apply State.Only.ite
    | split
    | dsimp only)
theorem State.adcDone_only {L : Nat} {s₀ s : State} (hs₀ : s₀.Only L s) (chan : Nat) (code : Byte) (took : Nat)
    (read : EccRead) (hL : 8653272 &&& L = 8653272) : s₀.Only L (State.adcDone s chan code took read) := by
  unfold State.adcDone
  repeat (with_reducible first
    | exact hs₀
    | exact Only.sub hL (by decide)
    | apply State.countRead_only
    | apply State.poisonTac_only
    | apply State.bump_only
    | apply State.setChan_only
    | apply State.passReady_only
    | apply State.Only.ite
    | split
    | dsimp only)
theorem State.promotionDecision_only {L : Nat} {s₀ s : State} (hs₀ : s₀.Only L s) (chan t took : Nat) (hL : 345 &&&
    L = 345) : s₀.Only L (State.promotionDecision s chan t took) := by
  unfold State.promotionDecision
  repeat (with_reducible first
    | exact hs₀
    | exact Only.sub hL (by decide)
    | apply State.advance_only
    | apply State.collect_only
    | apply State.setTile_only
    | apply State.decideCand_only
    | refine State.Only.each ?_ ?_ <;> [(intro u x₁ hs₀; try dsimp only); skip]
    | dsimp only)
theorem State.gateHighChan_only {L : Nat} {s₀ s : State} (hs₀ : s₀.Only L s) (frame : Nat) (chan : Nat) (hL : 408
    &&& L = 408) : s₀.Only L (State.gateHighChan s frame chan) := by
  unfold State.gateHighChan
  repeat (with_reducible first
    | exact hs₀
    | exact Only.sub hL (by decide)
    | apply State.setChan_only
    | apply State.bumpGateHigh_only
    | apply State.chaffGateHigh_only
    | apply State.Only.ite
    | split)
theorem State.disarm_only {L : Nat} {s₀ s : State} (hs₀ : s₀.Only L s) (chan : Nat) (hL : 152 &&& L = 152) : s₀.Only
    L (State.disarm s chan) := by
  unfold State.disarm
  repeat (with_reducible first
    | exact hs₀
    | exact Only.sub hL (by decide)
    | apply State.setChan_only
    | apply State.putCh_only
    | dsimp only)
theorem State.disarmAll_only {L : Nat} {s₀ s : State} (hs₀ : s₀.Only L s) (p : Nat → Bool) (hL : 152 &&& L = 152) :
    s₀.Only L (State.disarmAll s p) := by
  unfold State.disarmAll
  repeat (with_reducible first
    | exact hs₀
    | exact Only.sub hL (by decide)
    | apply State.disarm_only
    | refine State.Only.each ?_ ?_ <;> [(intro u x₁ hs₀; try dsimp only); skip])
theorem State.gateHigh_only {L : Nat} {s₀ s : State} (hs₀ : s₀.Only L s) (t : Fin 16) (tap : Nat) (hL : 408 &&& L =
    408) : s₀.Only L (State.gateHigh s t tap) := by
  unfold State.gateHigh
  repeat (with_reducible first
    | exact hs₀
    | exact Only.sub hL (by decide)
    | apply State.gateHighChan_only
    | refine State.Only.each ?_ ?_ <;> [(intro u x₁ hs₀; try dsimp only); skip])
theorem State.gateApply_only {L : Nat} {s₀ s : State} (hs₀ : s₀.Only L s) (t : Fin 16) (hL : 409 &&& L = 409) :
    s₀.Only L (State.gateApply s t) := by
  unfold State.gateApply
  repeat (with_reducible first
    | exact hs₀
    | exact Only.sub hL (by decide)
    | apply State.advance_only
    | apply State.setTile_only
    | apply State.putB_only
    | apply State.gateHigh_only
    | apply State.Only.ite
    | split
    | dsimp only)
theorem State.gateSourceChanged_only {L : Nat} {s₀ s : State} (hs₀ : s₀.Only L s) (t : Fin 16) (tap : Nat) (hL : 408
    &&& L = 408) : s₀.Only L (State.gateSourceChanged s t tap) := by
  unfold State.gateSourceChanged
  repeat (with_reducible first
    | exact hs₀
    | exact Only.sub hL (by decide)
    | apply State.putB_only
    | apply State.setTile_only
    | apply State.gateHigh_only
    | apply State.Only.ite
    | split
    | dsimp only)
theorem State.selfMask_only {L : Nat} {s₀ s : State} (hs₀ : s₀.Only L s) (chan : Nat) (hL : 216 &&& L = 216) :
    s₀.Only L (State.selfMask s chan) := by
  unfold State.selfMask
  repeat (with_reducible first
    | exact hs₀
    | exact Only.sub hL (by decide)
    | apply State.setChan_only
    | apply State.putCh_only
    | apply State.event_only)
theorem State.stuckExpiry_only {L : Nat} {s₀ s : State} (hs₀ : s₀.Only L s) (chan t : Nat) (hL : 217 &&& L = 217) :
    s₀.Only L (State.stuckExpiry s chan t) := by
  unfold State.stuckExpiry
  repeat (with_reducible first
    | exact hs₀
    | exact Only.sub hL (by decide)
    | apply State.advance_only
    | apply State.selfMask_only
    | apply State.Only.ite
    | split)
theorem State.clearSelfMask_only {L : Nat} {s₀ s : State} (hs₀ : s₀.Only L s) (chan tap : Nat) (hL : 152 &&& L =
    152) : s₀.Only L (State.clearSelfMask s chan tap) := by
  unfold State.clearSelfMask
  repeat (with_reducible first
    | exact hs₀
    | exact Only.sub hL (by decide)
    | apply State.putCh_only
    | apply State.setChan_only
    | apply State.Only.ite
    | split
    | dsimp only)
theorem State.blank_only {L : Nat} {s₀ s : State} (hs₀ : s₀.Only L s) (chan tap : Nat) (hL : 152 &&& L = 152) :
    s₀.Only L (State.blank s chan tap) := by
  unfold State.blank
  repeat (with_reducible first
    | exact hs₀
    | exact Only.sub hL (by decide)
    | apply State.setChan_only
    | apply State.putCh_only)
theorem State.blankingEnd_only {L : Nat} {s₀ s : State} (hs₀ : s₀.Only L s) (chan t : Nat) (hL : 153 &&& L = 153) :
    s₀.Only L (State.blankingEnd s chan t) := by
  unfold State.blankingEnd
  repeat (with_reducible first
    | exact hs₀
    | exact Only.sub hL (by decide)
    | apply State.advance_only
    | apply State.putCh_only
    | apply State.setChan_only
    | apply State.Only.ite
    | split)
theorem State.launch_only {L : Nat} {s₀ s : State} (hs₀ : s₀.Only L s) (chan tap : Nat) (hL : 128 &&& L = 128) :
    s₀.Only L (State.launch s chan tap) := by
  unfold State.launch
  repeat (with_reducible first | exact hs₀ | exact Only.sub hL (by decide) | apply State.setChan_only)
theorem State.endInject_only {L : Nat} {s₀ s : State} (hs₀ : s₀.Only L s) (chan : Nat) (hL : 128 &&& L = 128) :
    s₀.Only L (State.endInject s chan) := by
  unfold State.endInject
  repeat (with_reducible first | exact hs₀ | exact Only.sub hL (by decide) | apply State.setChan_only)

/-! Tile.lean -/

theorem State.showPort_only {L : Nat} {s₀ s : State} (hs₀ : s₀.Only L s) (t : Fin 16) (c : Conc) (hL : 24 &&& L =
    24) : s₀.Only L (State.showPort s t c) := by
  unfold State.showPort
  repeat (with_reducible first
    | exact hs₀
    | exact Only.sub hL (by decide)
    | apply State.put_only
    | apply State.Only.ite
    | split)
theorem State.offerToken_only {L : Nat} {s₀ s : State} (hs₀ : s₀.Only L s) (t : Fin 16) (c : Conc) (n : Nat) (leave
    : Bool) (hL : 256 &&& L = 256) : s₀.Only L (State.offerToken s t c n leave) := by
  unfold State.offerToken
  repeat (with_reducible first
    | exact hs₀
    | exact Only.sub hL (by decide)
    | apply State.setPort_only
    | apply State.Only.ite
    | split
    | dsimp only)
theorem State.emitClosed_only {L : Nat} {s₀ s : State} (hs₀ : s₀.Only L s) (t : Fin 16) (hL : 344 &&& L = 344) :
    s₀.Only L (State.emitClosed s t) := by
  unfold State.emitClosed
  repeat (with_reducible first
    | exact hs₀
    | exact Only.sub hL (by decide)
    | apply State.collectAll_only
    | apply State.offerToken_only
    | apply State.setTile_only
    | apply State.put_only
    | apply State.Only.ite
    | split
    | dsimp only)
theorem State.portCut_only {L : Nat} {s₀ s : State} (hs₀ : s₀.Only L s) (t : Fin 16) (c : Conc) (hL : 344 &&& L =
    344) : s₀.Only L (State.portCut s t c) := by
  unfold State.portCut
  repeat (with_reducible first
    | exact hs₀
    | exact Only.sub hL (by decide)
    | apply State.setPort_only
    | apply State.put_only
    | apply State.bump_only
    | apply State.showPort_only
    | apply State.event_only
    | apply State.Only.ite
    | split
    | dsimp only)
theorem State.portBoundary_only {L : Nat} {s₀ s : State} (hs₀ : s₀.Only L s) (t : Fin 16) (f : Nat) (c : Conc) (hL :
    344 &&& L = 344) : s₀.Only L (State.portBoundary s t f c) := by
  unfold State.portBoundary
  repeat (with_reducible first
    | exact hs₀
    | exact Only.sub hL (by decide)
    | apply State.setPort_only
    | apply State.showPort_only
    | apply State.eventIf_only
    | apply State.Only.ite
    | split
    | dsimp only)
theorem State.ackWords_only {L : Nat} {s₀ s : State} (hs₀ : s₀.Only L s) (t : Fin 16) (c : Conc) (n : Nat) (hL : 256
    &&& L = 256) : s₀.Only L (State.ackWords s t c n) := by
  unfold State.ackWords
  repeat (with_reducible first
    | exact hs₀
    | exact Only.sub hL (by decide)
    | apply State.setPort_only
    | apply State.Only.ite
    | split
    | dsimp only)
theorem State.ackItem_only {L : Nat} {s₀ s : State} (hs₀ : s₀.Only L s) (t : Fin 16) (c : Conc) (hL : 280 &&& L =
    280) : s₀.Only L (State.ackItem s t c) := by
  unfold State.ackItem
  repeat (with_reducible first
    | exact hs₀
    | exact Only.sub hL (by decide)
    | apply State.setPort_only
    | apply State.put_only
    | split
    | dsimp only)
theorem State.dropHits_only {L : Nat} {s₀ s : State} (hs₀ : s₀.Only L s) (t : Fin 16) (hL : 128 &&& L = 128) :
    s₀.Only L (State.dropHits s t) := by
  unfold State.dropHits
  repeat (with_reducible first
    | exact hs₀
    | exact Only.sub hL (by decide)
    | apply State.setChan_only
    | refine State.Only.each ?_ ?_ <;> [(intro u x₁ hs₀; try dsimp only); skip])
theorem State.decideAll_only {L : Nat} {s₀ s : State} (hs₀ : s₀.Only L s) (t : Fin 16) (hL : 344 &&& L = 344) :
    s₀.Only L (State.decideAll s t) := by
  unfold State.decideAll
  repeat (with_reducible first
    | exact hs₀
    | exact Only.sub hL (by decide)
    | apply State.setTile_only
    | apply State.decideCand_only
    | refine State.Only.each ?_ ?_ <;> [(intro u x₁ hs₀; try dsimp only); skip])
theorem State.stopRecording_only {L : Nat} {s₀ s : State} (hs₀ : s₀.Only L s) (t : Fin 16) (f reasons : Nat) (hL :
    472 &&& L = 472) : s₀.Only L (State.stopRecording s t f reasons) := by
  unfold State.stopRecording
  repeat (with_reducible first
    | exact hs₀
    | exact Only.sub hL (by decide)
    | apply State.dropHits_only
    | apply State.decideAll_only
    | apply State.setTile_only
    | apply State.Only.ite
    | split
    | dsimp only)
theorem State.timingFault_only {L : Nat} {s₀ s : State} (hs₀ : s₀.Only L s) (t : Fin 16) (f : Nat) (hL : 472 &&& L =
    472) : s₀.Only L (State.timingFault s t f) := by
  unfold State.timingFault
  repeat (with_reducible first
    | exact hs₀
    | exact Only.sub hL (by decide)
    | apply State.stopRecording_only
    | apply State.putB_only
    | apply State.Only.ite
    | split
    | dsimp only)
theorem State.showLine_only {L : Nat} {s₀ s : State} (hs₀ : s₀.Only L s) (t : Fin 16) (r : LineReport) (hL : 24 &&&
    L = 24) : s₀.Only L (State.showLine s t r) := by
  unfold State.showLine
  repeat (with_reducible first
    | exact hs₀
    | exact Only.sub hL (by decide)
    | apply State.put_only
    | apply State.putB_only)
theorem State.dllLock_only {L : Nat} {s₀ s : State} (hs₀ : s₀.Only L s) (t : Fin 16) (r : LineReport) (hL : 280 &&&
    L = 280) : s₀.Only L (State.dllLock s t r) := by
  unfold State.dllLock
  repeat (with_reducible first
    | exact hs₀
    | exact Only.sub hL (by decide)
    | apply State.showLine_only
    | apply State.setTile_only
    | apply State.putB_only
    | apply State.Only.ite
    | split
    | dsimp only)
theorem State.lockLost_only {L : Nat} {s₀ s : State} (hs₀ : s₀.Only L s) (t : Fin 16) (hL : 472 &&& L = 472) :
    s₀.Only L (State.lockLost s t) := by
  unfold State.lockLost
  repeat (with_reducible first
    | exact hs₀
    | exact Only.sub hL (by decide)
    | apply State.putB_only
    | apply State.timingFault_only
    | apply State.bump_only
    | apply State.event_only)
theorem State.dllUnlock_only {L : Nat} {s₀ s : State} (hs₀ : s₀.Only L s) (t : Fin 16) (r : LineReport) (hL : 472
    &&& L = 472) : s₀.Only L (State.dllUnlock s t r) := by
  unfold State.dllUnlock
  repeat (with_reducible first
    | exact hs₀
    | exact Only.sub hL (by decide)
    | apply State.showLine_only
    | apply State.lockLost_only
    | apply State.Only.ite
    | split
    | dsimp only)
theorem State.coarseSlip_only {L : Nat} {s₀ s : State} (hs₀ : s₀.Only L s) (t : Fin 16) (f : Nat) (hL : 472 &&& L =
    472) : s₀.Only L (State.coarseSlip s t f) := by
  unfold State.coarseSlip
  repeat (with_reducible first
    | exact hs₀
    | exact Only.sub hL (by decide)
    | apply State.timingFault_only
    | apply State.setTile_only
    | apply State.bump_only
    | apply State.event_only
    | dsimp only)
theorem State.resumeTile_only {L : Nat} {s₀ s : State} (hs₀ : s₀.Only L s) (t : Fin 16) (f : Nat) (hL : 24920 &&& L
    = 24920) : s₀.Only L (State.resumeTile s t f) := by
  unfold State.resumeTile
  repeat (with_reducible first
    | exact hs₀
    | exact Only.sub hL (by decide)
    | apply State.setTile_only
    | apply State.setRx_only
    | apply State.putB_only
    | apply State.eventIf_only
    | apply State.Only.ite
    | refine State.Only.each ?_ ?_ <;> [(intro u x₁ hs₀; try dsimp only); skip]
    | split
    | dsimp only)
theorem State.resetPages_only {L : Nat} {s₀ s : State} (hs₀ : s₀.Only L s) (lo hi : Nat) (hL : 4294971512 &&& L =
    4294971512) : s₀.Only L (State.resetPages s lo hi) := by
  unfold State.resetPages
  repeat (with_reducible first
    | exact hs₀
    | exact Only.sub hL (by decide)
    | refine State.Only.of ?_ (regs := .inl (Only.bit hL (by decide))) (stale := .inl (Only.bit hL (by decide)))
        (pendW := .inl (Only.bit hL (by decide))) (eventQ := .inl (Only.bit hL (by decide))) (rwsStaged := .inl
        (Only.bit hL (by decide))) (unlocks := .inl (Only.bit hL (by decide)))
    | dsimp only)
theorem State.blockOff_only {L : Nat} {s₀ s : State} (hs₀ : s₀.Only L s) (t : Fin 16) (b : Nat) (hL : 4294971640 &&&
    L = 4294971640) : s₀.Only L (State.blockOff s t b) := by
  unfold State.blockOff
  repeat (with_reducible first
    | exact hs₀
    | exact Only.sub hL (by decide)
    | apply State.resetPages_only
    | apply State.put_only
    | refine State.Only.of ?_ (chans := .inl (Only.bit hL (by decide)))
    | dsimp only)
theorem State.blockTo_only {L : Nat} {s₀ s : State} (hs₀ : s₀.Only L s) (t : Fin 16) (b st : Nat) (hL : 4294971640
    &&& L = 4294971640) : s₀.Only L (State.blockTo s t b st) := by
  unfold State.blockTo
  repeat (with_reducible first
    | exact hs₀
    | exact Only.sub hL (by decide)
    | apply State.disarmAll_only
    | apply State.blockOff_only
    | apply State.put_only
    | apply State.Only.ite
    | split
    | dsimp only)
theorem State.followBlocks_only {L : Nat} {s₀ s : State} (hs₀ : s₀.Only L s) (t : Fin 16) (hL : 4294971640 &&& L =
    4294971640) : s₀.Only L (State.followBlocks s t) := by
  unfold State.followBlocks
  repeat (with_reducible first
    | exact hs₀
    | exact Only.sub hL (by decide)
    | apply State.blockTo_only
    | refine State.Only.each ?_ ?_ <;> [(intro u x₁ hs₀; try dsimp only); skip])
theorem State.tileFalls_only {L : Nat} {s₀ s : State} (hs₀ : s₀.Only L s) (t : Fin 16) (f st : Nat) (hL : 408 &&& L
    = 408) : s₀.Only L (State.tileFalls s t f st) := by
  unfold State.tileFalls
  repeat (with_reducible first
    | exact hs₀
    | exact Only.sub hL (by decide)
    | apply State.disarmAll_only
    | apply State.setTile_only
    | apply State.putB_only
    | apply State.put_only
    | apply State.Only.ite
    | split
    | dsimp only)
theorem State.followTile_only {L : Nat} {s₀ s : State} (hs₀ : s₀.Only L s) (t : Fin 16) (f : Nat) (hL : 4294971896
    &&& L = 4294971896) : s₀.Only L (State.followTile s t f) := by
  unfold State.followTile
  repeat (with_reducible first
    | exact hs₀
    | exact Only.sub hL (by decide)
    | apply State.tileFalls_only
    | apply State.put_only
    | apply State.followBlocks_only
    | apply State.Only.ite
    | split
    | dsimp only)
theorem State.tileLeaves_only {L : Nat} {s₀ s : State} (hs₀ : s₀.Only L s) (t : Fin 16) (f : Nat) (hL : 280 &&& L =
    280) : s₀.Only L (State.tileLeaves s t f) := by
  unfold State.tileLeaves
  repeat (with_reducible first
    | exact hs₀
    | exact Only.sub hL (by decide)
    | apply State.setTile_only
    | apply State.putB_only
    | apply State.Only.ite
    | split
    | dsimp only)
theorem State.tileBoundary_only {L : Nat} {s₀ s : State} (hs₀ : s₀.Only L s) (t : Fin 16) (f : Nat) (gained : BitVec
    48) (hL : 4294996472 &&& L = 4294996472) : s₀.Only L (State.tileBoundary s t f gained) := by
  unfold State.tileBoundary
  repeat (with_reducible first
    | exact hs₀
    | exact Only.sub hL (by decide)
    | apply State.setTile_only
    | apply State.coarseSlip_only
    | apply State.followTile_only
    | apply State.resumeTile_only
    | apply State.tileLeaves_only
    | apply State.portBoundary_only
    | apply State.Only.ite
    | split
    | dsimp only)
theorem State.tileResume_only {L : Nat} {s₀ s : State} (hs₀ : s₀.Only L s) (t : Fin 16) (hL : 256 &&& L = 256) :
    s₀.Only L (State.tileResume s t) := by
  unfold State.tileResume
  repeat (with_reducible first
    | exact hs₀
    | exact Only.sub hL (by decide)
    | apply State.setTile_only
    | apply State.Only.ite
    | split)
theorem State.tileLost_only {L : Nat} {s₀ s : State} (hs₀ : s₀.Only L s) (t : Fin 16) (power : TilePower) (hL :
    4294975480 &&& L = 4294975480) : s₀.Only L (State.tileLost s t power) := by
  unfold State.tileLost
  repeat (with_reducible first
    | exact hs₀
    | exact Only.sub hL (by decide)
    | apply State.resetPages_only
    | apply State.put_only
    | refine State.Only.of ?_ (chans := .inl (Only.bit hL (by decide))) (tiles := .inl (Only.bit hL (by decide)))
        (tac := .inl (Only.bit hL (by decide))) (tacStaged := .inl (Only.bit hL (by decide))) (tacPoison := .inl
        (Only.bit hL (by decide)))
    | dsimp only)
theorem State.tilePowerRemoval_only {L : Nat} {s₀ s : State} (hs₀ : s₀.Only L s) (t : Fin 16) (hL : 4294975480 &&& L
    = 4294975480) : s₀.Only L (State.tilePowerRemoval s t) := by
  unfold State.tilePowerRemoval
  repeat (with_reducible first
    | exact hs₀
    | exact Only.sub hL (by decide)
    | apply State.tileLost_only
    | apply State.Only.ite
    | split
    | dsimp only)
theorem State.toListen_only {L : Nat} {s₀ s : State} (hs₀ : s₀.Only L s) (page : Nat) (hL : 24 &&& L = 24) : s₀.Only
    L (State.toListen s page) := by
  unfold State.toListen
  repeat (with_reducible first
    | exact hs₀
    | exact Only.sub hL (by decide)
    | apply State.put_only
    | apply State.Only.ite
    | split)
theorem State.idleExpiry_only {L : Nat} {s₀ s : State} (hs₀ : s₀.Only L s) (page : Nat) (hL : 24 &&& L = 24) :
    s₀.Only L (State.idleExpiry s page) := by
  unfold State.idleExpiry
  repeat (with_reducible first
    | exact hs₀
    | exact Only.sub hL (by decide)
    | apply State.toListen_only
    | apply State.Only.ite
    | refine State.Only.foldlSnd ?_ ?_ <;> [(intro x₀ x₁ hs₀; try dsimp only); skip]
    | refine State.Only.foldl ?_ ?_ <;> [(intro x₀ x₁ hs₀; try dsimp only); skip]
    | split)

/-! Stack.lean -/

theorem State.stackSleeps_only {L : Nat} {s₀ s : State} (hs₀ : s₀.Only L s) (c : Conc) (hL : 24576 &&& L = 24576) :
    s₀.Only L (State.stackSleeps s c) := by
  unfold State.stackSleeps
  repeat (with_reducible first | exact hs₀ | exact Only.sub hL (by decide) | apply State.setConc_only | dsimp only)
theorem State.showWbuf_only {L : Nat} {s₀ s : State} (hs₀ : s₀.Only L s) (c : Conc) (hL : 24 &&& L = 24) : s₀.Only L
    (State.showWbuf s c) := by
  unfold State.showWbuf
  repeat (with_reducible first
    | exact hs₀
    | exact Only.sub hL (by decide)
    | apply State.put_only
    | apply State.peak_only
    | dsimp only)
theorem State.issueWrites_only {L : Nat} {s₀ s : State} (hs₀ : s₀.Only L s) (c : Conc) (shadow : Bool) (units : List
    Nat) (hL : 24600 &&& L = 24600) : s₀.Only L (State.issueWrites s c shadow units) := by
  unfold State.issueWrites
  repeat (with_reducible first
    | exact hs₀
    | exact Only.sub hL (by decide)
    | apply State.setConc_only
    | apply State.showWbuf_only
    | apply State.Only.ite
    | refine State.Only.foldlSnd ?_ ?_ <;> [(intro x₀ x₁ hs₀; try dsimp only); skip]
    | refine State.Only.foldl ?_ ?_ <;> [(intro x₀ x₁ hs₀; try dsimp only); skip]
    | split
    | dsimp only)

/-! Merge.lean -/

theorem State.writeExtent_only {L : Nat} {s₀ s : State} (hs₀ : s₀.Only L s) (c : Conc) (t : Fin 16) (e : Extent) (hL
    : 24600 &&& L = 24600) : s₀.Only L (State.writeExtent s c t e) := by
  unfold State.writeExtent
  repeat (with_reducible first
    | exact hs₀
    | exact Only.sub hL (by decide)
    | apply State.setConc_only
    | apply State.issueWrites_only
    | apply State.setRx_only
    | refine State.Only.foldlSnd ?_ ?_ <;> [(intro x₀ x₁ hs₀; try dsimp only); skip]
    | refine State.Only.foldl ?_ ?_ <;> [(intro x₀ x₁ hs₀; try dsimp only); skip]
    | dsimp only)
theorem State.openExtent_only {L : Nat} {s₀ s : State} (hs₀ : s₀.Only L s) (c : Conc) (t : Fin 16) (hL : 24576 &&& L
    = 24576) : s₀.Only L (State.openExtent s c t).2 := by
  unfold State.openExtent
  repeat (with_reducible first
    | dsimp only
    | split
    | exact hs₀
    | exact Only.sub hL (by decide)
    | apply State.setConc_only
    | apply State.setRx_only)
theorem State.appendShadow_only {L : Nat} {s₀ s : State} (hs₀ : s₀.Only L s) (c : Conc) (t : Fin 16) (n : Nat) (r :
    BitVec 56) (arrived : Nat) (hL : 24600 &&& L = 24600) : s₀.Only L (State.appendShadow s c t n r arrived) := by
  unfold State.appendShadow
  repeat (with_reducible first
    | exact hs₀
    | exact Only.sub hL (by decide)
    | apply State.openExtent_only
    | apply State.setRx_only
    | apply State.writeExtent_only
    | apply State.Only.ite
    | split
    | dsimp only)
theorem State.appendShadows_only {L : Nat} {s₀ s : State} (hs₀ : s₀.Only L s) (c : Conc) (t : Fin 16) (n : Nat) (hL
    : 24600 &&& L = 24600) : s₀.Only L (State.appendShadows s c t n).2 := by
  unfold State.appendShadows
  repeat (with_reducible first
    | dsimp only
    | split
    | exact hs₀
    | exact Only.sub hL (by decide)
    | apply State.openExtent_only
    | apply State.appendShadow_only
    | refine State.Only.each ?_ ?_ <;> [(intro u x₁ hs₀; try dsimp only); skip])
theorem State.setBehind_only {L : Nat} {s₀ s : State} (hs₀ : s₀.Only L s) (c : Conc) (t : Fin 16) (b : Bool) (hL :
    24 &&& L = 24) : s₀.Only L (State.setBehind s c t b) := by
  unfold State.setBehind
  repeat (with_reducible first | exact hs₀ | exact Only.sub hL (by decide) | apply State.putB_only)
theorem State.countLate_only {L : Nat} {s₀ s : State} (hs₀ : s₀.Only L s) (c : Conc) (t : Fin 16) (n : Nat) (hL :
    24664 &&& L = 24664) : s₀.Only L (State.countLate s c t n) := by
  unfold State.countLate
  repeat (with_reducible first
    | exact hs₀
    | exact Only.sub hL (by decide)
    | apply State.bump_only
    | apply State.event_only
    | apply State.setConc_only
    | apply State.Only.ite
    | split
    | dsimp only)
theorem State.routeRecord_only {L : Nat} {s₀ s : State} (hs₀ : s₀.Only L s) (c : Conc) (t : Fin 16) (frame : Nat)
    (ty : Nat) (r : BitVec 56) (hL : 24664 &&& L = 24664) : s₀.Only L (State.routeRecord s c t frame ty r) := by
  unfold State.routeRecord
  repeat (with_reducible first
    | exact hs₀
    | exact Only.sub hL (by decide)
    | apply State.countLate_only
    | apply State.setRx_only
    | apply State.Only.ite
    | split
    | dsimp only)
theorem State.poisonEntry_only {L : Nat} {s₀ s : State} (hs₀ : s₀.Only L s) (c : Conc) (word : Nat) (hL : 24664 &&&
    L = 24664) : s₀.Only L (State.poisonEntry s c word) := by
  unfold State.poisonEntry
  repeat (with_reducible first
    | exact hs₀
    | exact Only.sub hL (by decide)
    | apply State.setConc_only
    | apply State.poisoned_only)
theorem State.readEntry_only {L : Nat} {s₀ s : State} (hs₀ : s₀.Only L s) (c : Conc) (chan : Nat) (l : Reads) (hL :
    286808 &&& L = 286808) : s₀.Only L (State.readEntry s c chan l) := by
  unfold State.readEntry
  repeat (with_reducible first
    | exact hs₀
    | exact Only.sub hL (by decide)
    | apply State.countRead_only
    | apply State.poisonEntry_only
    | apply State.Only.ite
    | refine State.Only.each ?_ ?_ <;> [(intro u x₁ hs₀; try dsimp only); skip]
    | split
    | dsimp only)
theorem State.capture_only {L : Nat} {s₀ s : State} (hs₀ : s₀.Only L s) (c : Conc) (k : Capture) (hL : 8413208 &&& L
    = 8413208) : s₀.Only L (State.capture s c k) := by
  unfold State.capture
  repeat (with_reducible first
    | exact hs₀
    | exact Only.sub hL (by decide)
    | apply State.launchCaptured_only
    | apply State.setConc_only
    | apply State.Only.ite
    | split
    | dsimp only)
theorem State.takeRecord_only {L : Nat} {s₀ s : State} (hs₀ : s₀.Only L s) (c : Conc) (t : Fin 16) (read : Reads) (r
    : BitVec 52) (frame : Nat) (hL : 8675672 &&& L = 8675672) : s₀.Only L (State.takeRecord s c t read r frame) := by
  unfold State.takeRecord
  repeat (with_reducible first
    | exact hs₀
    | exact Only.sub hL (by decide)
    | apply State.ackItem_only
    | apply State.wake_only
    | apply State.readEntry_only
    | apply State.capture_only
    | apply State.bump_only
    | apply State.routeRecord_only
    | apply State.Only.ite
    | split
    | dsimp only)
theorem State.countAnywhere_only {L : Nat} {s₀ s : State} (hs₀ : s₀.Only L s) (page r : Nat) (x0 : EccRead) (hL :
    8796093284440 &&& L = 8796093284440) : s₀.Only L (State.countAnywhere s page r x0) := by
  unfold State.countAnywhere
  repeat (with_reducible first
    | exact hs₀
    | exact Only.sub hL (by decide)
    | apply State.draw_only
    | apply State.countRead_only
    | split
    | dsimp only)
theorem State.readPort_only {L : Nat} {s₀ s : State} (hs₀ : s₀.Only L s) (c : Conc) (t : Fin 16) (port : EccRead)
    (queued : Bool) (hL : 8796093284440 &&& L = 8796093284440) : s₀.Only L (State.readPort s c t port queued) := by
  unfold State.readPort
  repeat (with_reducible first
    | exact hs₀
    | exact Only.sub hL (by decide)
    | apply State.countAnywhere_only
    | apply State.Only.ite
    | split)
theorem State.correctRecordCmd_only {L : Nat} {s₀ s : State} (hs₀ : s₀.Only L s) (c : Conc) (t : Fin 16) (read :
    Reads) (port : EccRead) (queued : Bool) (hL : 8796101697880 &&& L = 8796101697880) : s₀.Only L
    (State.correctRecordCmd s c t read port queued) := by
  unfold State.correctRecordCmd
  repeat (with_reducible first
    | exact hs₀
    | exact Only.sub hL (by decide)
    | apply State.event_only
    | apply State.readPort_only
    | apply State.ackItem_only
    | apply State.takeRecord_only
    | apply State.Only.ite
    | split
    | dsimp only)
theorem State.takeToken_only {L : Nat} {s₀ s : State} (hs₀ : s₀.Only L s) (c : Conc) (t : Fin 16) (ws : List (BitVec
    52)) (n : Nat) (hL : 8413464 &&& L = 8413464) : s₀.Only L (State.takeToken s c t ws n) := by
  unfold State.takeToken
  repeat (with_reducible first
    | exact hs₀
    | exact Only.sub hL (by decide)
    | apply State.ackItem_only
    | apply State.launchesClosed_only
    | apply State.setRx_only
    | apply State.setBehind_only
    | apply State.Only.ite
    | split
    | dsimp only)
theorem State.closedTokenCmd_only {L : Nat} {s₀ s : State} (hs₀ : s₀.Only L s) (c : Conc) (t : Fin 16) (k : Nat) (hL
    : 8413464 &&& L = 8413464) : s₀.Only L (State.closedTokenCmd s c t k) := by
  unfold State.closedTokenCmd
  repeat (with_reducible first
    | exact hs₀
    | exact Only.sub hL (by decide)
    | apply State.ackWords_only
    | apply State.takeToken_only
    | apply State.Only.ite
    | split)
theorem State.takeResume_only {L : Nat} {s₀ s : State} (hs₀ : s₀.Only L s) (c : Conc) (t : Fin 16) (ws : List
    (BitVec 52)) (f : Nat) (hL : 8413528 &&& L = 8413528) : s₀.Only L (State.takeResume s c t ws f) := by
  unfold State.takeResume
  repeat (with_reducible first
    | exact hs₀
    | exact Only.sub hL (by decide)
    | apply State.ackItem_only
    | apply State.launchesClosed_only
    | apply State.bump_only
    | apply State.setRx_only
    | apply State.setBehind_only
    | apply State.eventIf_only
    | apply State.event_only
    | apply State.Only.ite
    | split
    | dsimp only)
theorem State.resumeTokenCmd_only {L : Nat} {s₀ s : State} (hs₀ : s₀.Only L s) (c : Conc) (t : Fin 16) (k : Nat) (hL
    : 8413528 &&& L = 8413528) : s₀.Only L (State.resumeTokenCmd s c t k) := by
  unfold State.resumeTokenCmd
  repeat (with_reducible first
    | exact hs₀
    | exact Only.sub hL (by decide)
    | apply State.ackWords_only
    | apply State.takeResume_only
    | apply State.Only.ite
    | split)
theorem State.lateWordAck_only {L : Nat} {s₀ s : State} (hs₀ : s₀.Only L s) (t : Fin 16) (c : Conc) (hL : 24920 &&&
    L = 24920) : s₀.Only L (State.lateWordAck s t c) := by
  unfold State.lateWordAck
  repeat (with_reducible first
    | exact hs₀
    | exact Only.sub hL (by decide)
    | apply State.setPort_only
    | apply State.put_only
    | apply State.countLate_only
    | apply State.Only.ite
    | split
    | dsimp only)
theorem State.horizonExpiry_only {L : Nat} {s₀ s : State} (hs₀ : s₀.Only L s) (c : Conc) (t : Fin 16) (hL : 88 &&& L
    = 88) : s₀.Only L (State.horizonExpiry s c t) := by
  unfold State.horizonExpiry
  repeat (with_reducible first
    | exact hs₀
    | exact Only.sub hL (by decide)
    | apply State.setBehind_only
    | apply State.bump_only
    | apply State.event_only
    | apply State.Only.ite
    | split
    | dsimp only)
theorem State.writeShadow_only {L : Nat} {s₀ s : State} (hs₀ : s₀.Only L s) (c : Conc) (n : Nat) (t : Fin 16)
    (present : Bool) (hL : 24600 &&& L = 24600) : s₀.Only L (State.writeShadow s c n t present).2 := by
  unfold State.writeShadow
  repeat (with_reducible first
    | dsimp only
    | split
    | exact hs₀
    | exact Only.sub hL (by decide)
    | apply State.appendShadows_only
    | apply State.setConc_only
    | apply State.issueWrites_only)
theorem State.extentTimeout_only {L : Nat} {s₀ s : State} (hs₀ : s₀.Only L s) (c : Conc) (t : Fin 16) (reads :
    Reads) (hL : 286808 &&& L = 286808) : s₀.Only L (State.extentTimeout s c t reads) := by
  unfold State.extentTimeout
  repeat (with_reducible first
    | exact hs₀
    | exact Only.sub hL (by decide)
    | apply State.countRead_only
    | apply State.writeExtent_only
    | apply State.Only.ite
    | refine State.Only.each ?_ ?_ <;> [(intro u x₁ hs₀; try dsimp only); skip]
    | split)
theorem State.enterSpill_only {L : Nat} {s₀ s : State} (hs₀ : s₀.Only L s) (c : Conc) (mode : Nat) (hL : 24664 &&& L
    = 24664) : s₀.Only L (State.enterSpill s c mode) := by
  unfold State.enterSpill
  repeat (with_reducible first
    | exact hs₀
    | exact Only.sub hL (by decide)
    | apply State.bump_only
    | apply State.event_only
    | apply State.setConc_only
    | apply State.put_only
    | apply State.eventIf_only
    | apply State.Only.ite
    | split
    | dsimp only)
theorem State.decideMode_only {L : Nat} {s₀ s : State} (hs₀ : s₀.Only L s) (c : Conc) (n len : Nat) (hL : 24664 &&&
    L = 24664) : s₀.Only L (State.decideMode s c n len) := by
  unfold State.decideMode
  repeat (with_reducible first
    | exact hs₀
    | exact Only.sub hL (by decide)
    | apply State.enterSpill_only
    | apply State.Only.ite
    | split
    | dsimp only)
theorem State.showLag_only {L : Nat} {s₀ s : State} (hs₀ : s₀.Only L s) (c : Conc) (hL : 24 &&& L = 24) : s₀.Only L
    (State.showLag s c) := by
  unfold State.showLag
  repeat (with_reducible first | exact hs₀ | exact Only.sub hL (by decide) | apply State.put_only)
theorem State.writeReplay_only {L : Nat} {s₀ s : State} (hs₀ : s₀.Only L s) (c : Conc) (n : Nat) (bytes : List Byte)
    (m : SheafMeta) (hL : 24600 &&& L = 24600) : s₀.Only L (State.writeReplay s c n bytes m) := by
  unfold State.writeReplay
  repeat (with_reducible first
    | exact hs₀
    | exact Only.sub hL (by decide)
    | apply State.setConc_only
    | apply State.issueWrites_only
    | apply State.put_only
    | dsimp only)
theorem State.writeShadows_only {L : Nat} {s₀ s : State} (hs₀ : s₀.Only L s) (c : Conc) (n : Nat) (present : Fin 16
    → Bool) (hL : 24600 &&& L = 24600) : s₀.Only L (State.writeShadows s c n present).2 := by
  unfold State.writeShadows
  repeat (with_reducible first
    | dsimp only
    | split
    | exact hs₀
    | exact Only.sub hL (by decide)
    | apply State.writeShadow_only
    | refine State.Only.foldlSnd ?_ ?_ <;> [(intro x₀ x₁ hs₀; try dsimp only); skip]
    | refine State.Only.foldl ?_ ?_ <;> [(intro x₀ x₁ hs₀; try dsimp only); skip])
theorem State.showShadow_only {L : Nat} {s₀ s : State} (hs₀ : s₀.Only L s) (c : Conc) (n : Nat) (hL : 24 &&& L = 24)
    : s₀.Only L (State.showShadow s c n) := by
  unfold State.showShadow
  repeat (with_reducible first | exact hs₀ | exact Only.sub hL (by decide) | apply State.put_only)
theorem State.countFrameLate_only {L : Nat} {s₀ s : State} (hs₀ : s₀.Only L s) (c : Conc) (n : Nat) (hL : 24664 &&&
    L = 24664) : s₀.Only L (State.countFrameLate s c n) := by
  unfold State.countFrameLate
  repeat (with_reducible first
    | exact hs₀
    | exact Only.sub hL (by decide)
    | apply State.setRx_only
    | apply State.countLate_only
    | apply State.Only.ite
    | refine State.Only.each ?_ ?_ <;> [(intro u x₁ hs₀; try dsimp only); skip]
    | split
    | dsimp only)
theorem State.formRegs_only {L : Nat} {s₀ s : State} (hs₀ : s₀.Only L s) (c : Conc) (n presence dead resumes : Nat)
    (drop : Bool) (hL : 88 &&& L = 88) : s₀.Only L (State.formRegs s c n presence dead resumes drop) := by
  unfold State.formRegs
  repeat (with_reducible first
    | exact hs₀
    | exact Only.sub hL (by decide)
    | apply State.put_only
    | apply State.eventIf_only
    | apply State.bump_only
    | apply State.bump64_only
    | apply State.showLag_only
    | dsimp only)
theorem State.showBacklog_only {L : Nat} {s₀ s : State} (hs₀ : s₀.Only L s) (c : Conc) (hL : 24 &&& L = 24) :
    s₀.Only L (State.showBacklog s c) := by
  unfold State.showBacklog
  repeat (with_reducible first
    | exact hs₀
    | exact Only.sub hL (by decide)
    | apply State.put_only
    | apply State.peak_only
    | apply State.overflow_only
    | apply State.Only.ite
    | split
    | dsimp only)
theorem State.modeReturn_only {L : Nat} {s₀ s : State} (hs₀ : s₀.Only L s) (c : Conc) (hL : 88 &&& L = 88) : s₀.Only
    L (State.modeReturn s c) := by
  unfold State.modeReturn
  repeat (with_reducible first
    | exact hs₀
    | exact Only.sub hL (by decide)
    | apply State.put_only
    | apply State.event_only
    | apply State.Only.ite
    | split
    | dsimp only)
theorem State.sendCross_only {L : Nat} {s₀ s : State} (hs₀ : s₀.Only L s) (c : Conc) (m : CrossMsg) (hL : 24576 &&&
    L = 24576) : s₀.Only L (State.sendCross s c m) := by
  unfold State.sendCross
  repeat (with_reducible first
    | exact hs₀
    | exact Only.sub hL (by decide)
    | apply State.setConc_only
    | apply State.Only.ite
    | split
    | dsimp only)
theorem State.showElig_only {L : Nat} {s₀ s : State} (hs₀ : s₀.Only L s) (c : Conc) (hL : 24 &&& L = 24) : s₀.Only L
    (State.showElig s c) := by
  unfold State.showElig
  repeat (with_reducible first | exact hs₀ | exact Only.sub hL (by decide) | apply State.putB_only)
theorem State.setPair_only {L : Nat} {s₀ s : State} (hs₀ : s₀.Only L s) (c : Conc) (v : Nat) (hL : 24 &&& L = 24) :
    s₀.Only L (State.setPair s c v) := by
  unfold State.setPair
  repeat (with_reducible first
    | exact hs₀
    | exact Only.sub hL (by decide)
    | apply State.put_only
    | apply State.showElig_only)
theorem State.partnerLost_only {L : Nat} {s₀ s : State} (hs₀ : s₀.Only L s) (c : Conc) (hL : 24664 &&& L = 24664) :
    s₀.Only L (State.partnerLost s c) := by
  unfold State.partnerLost
  repeat (with_reducible first
    | exact hs₀
    | exact Only.sub hL (by decide)
    | apply State.setPair_only
    | apply State.bump_only
    | apply State.event_only
    | apply State.setConc_only
    | apply State.Only.ite
    | split
    | dsimp only)
theorem State.formSheaf_only {L : Nat} {s₀ s : State} (hs₀ : s₀.Only L s) (c : Conc) (n : Nat) (i : FrameInfo) (hL :
    24664 &&& L = 24664) : s₀.Only L (State.formSheaf s c n i) := by
  unfold State.formSheaf
  repeat (with_reducible first
    | exact hs₀
    | exact Only.sub hL (by decide)
    | apply State.countFrameLate_only
    | apply State.decideMode_only
    | apply State.writeShadows_only
    | apply State.writeReplay_only
    | apply State.setRx_only
    | apply State.setConc_only
    | apply State.formRegs_only
    | apply State.showShadow_only
    | apply State.showBacklog_only
    | apply State.sendCross_only
    | apply State.partnerLost_only
    | apply State.Only.ite
    | refine State.Only.each ?_ ?_ <;> [(intro u x₁ hs₀; try dsimp only); skip]
    | split
    | dsimp only)
theorem State.formNext_only {L : Nat} {s₀ s : State} (hs₀ : s₀.Only L s) (c : Conc) (hL : 24664 &&& L = 24664) :
    s₀.Only L (State.formNext s c) := by
  unfold State.formNext
  repeat (with_reducible first
    | exact hs₀
    | exact Only.sub hL (by decide)
    | apply State.event_only
    | apply State.formSheaf_only
    | apply State.Only.ite
    | split
    | dsimp only)
theorem State.govSettle_only {L : Nat} {s₀ s : State} (hs₀ : s₀.Only L s) (c : Conc) (hL : 24 &&& L = 24) : s₀.Only
    L (State.govSettle s c) := by
  unfold State.govSettle
  repeat (with_reducible first
    | exact hs₀
    | exact Only.sub hL (by decide)
    | apply State.put_only
    | apply State.putB_only
    | apply State.Only.ite
    | split
    | dsimp only)
theorem State.govRaise_only {L : Nat} {s₀ s : State} (hs₀ : s₀.Only L s) (c : Conc) (fill : Nat) (hL : 88 &&& L =
    88) : s₀.Only L (State.govRaise s c fill) := by
  unfold State.govRaise
  repeat (with_reducible first
    | exact hs₀
    | exact Only.sub hL (by decide)
    | apply State.eventIf_only
    | apply State.putB_only
    | apply State.put_only
    | apply State.govSettle_only
    | apply State.Only.ite
    | split
    | dsimp only)
theorem State.govLower_only {L : Nat} {s₀ s : State} (hs₀ : s₀.Only L s) (c : Conc) (fill : Nat) (hL : 24 &&& L =
    24) : s₀.Only L (State.govLower s c fill) := by
  unfold State.govLower
  repeat (with_reducible first
    | exact hs₀
    | exact Only.sub hL (by decide)
    | apply State.putB_only
    | apply State.put_only
    | apply State.govSettle_only
    | apply State.Only.ite
    | split
    | dsimp only)

/-! Regs.lean -/

theorem State.latchRead_only {L : Nat} {s₀ s : State} (hs₀ : s₀.Only L s) (page off : Nat) (hL : 131072 &&& L =
    131072) : s₀.Only L (State.latchRead s page off) := by
  unfold State.latchRead
  repeat (with_reducible first
    | exact hs₀
    | exact Only.sub hL (by decide)
    | split
    | refine State.Only.of ?_ (time := .inl (Only.bit hL (by decide))))
theorem State.readOne_only {L : Nat} {s₀ s : State} (hs₀ : s₀.Only L s) (page off : Nat) (hL : 131072 &&& L =
    131072) : s₀.Only L (State.readOne s page off).2.2 := by
  unfold State.readOne
  repeat (with_reducible first | split | exact hs₀ | exact Only.sub hL (by decide) | apply State.latchRead_only)
theorem State.showStaged_only {L : Nat} {s₀ s : State} (hs₀ : s₀.Only L s) (c : Conc) (hL : 24 &&& L = 24) : s₀.Only
    L (State.showStaged s c) := by
  unfold State.showStaged
  repeat (with_reducible first | exact hs₀ | exact Only.sub hL (by decide) | apply State.put_only)
theorem State.stageEntry_only {L : Nat} {s₀ s : State} (hs₀ : s₀.Only L s) (c : Conc) (chan : Nat) (e : BitVec 128)
    (hL : 24664 &&& L = 24664) : s₀.Only L (State.stageEntry s c chan e) := by
  unfold State.stageEntry
  repeat (with_reducible first
    | exact hs₀
    | exact Only.sub hL (by decide)
    | apply State.bump_only
    | apply State.putB_only
    | apply State.event_only
    | apply State.setConc_only
    | apply State.showStaged_only
    | apply State.Only.ite
    | split
    | dsimp only)
theorem State.stageCorr_only {L : Nat} {s₀ s : State} (hs₀ : s₀.Only L s) (c : Conc) (chan w : Nat) (v : Word) (hL :
    24664 &&& L = 24664) : s₀.Only L (State.stageCorr s c chan w v).2 := by
  unfold State.stageCorr
  repeat (with_reducible first
    | dsimp only
    | split
    | exact hs₀
    | exact Only.sub hL (by decide)
    | apply State.stageEntry_only)
theorem State.record_only {L : Nat} {s₀ s : State} (hs₀ : s₀.Only L s) (page off : Nat) (d : RegDef) (hL :
    17179869208 &&& L = 17179869208) : s₀.Only L (State.record s page off d) := by
  unfold State.record
  repeat (with_reducible first
    | exact hs₀
    | exact Only.sub hL (by decide)
    | apply State.putB_only
    | apply State.Only.ite
    | split
    | refine State.Only.of ?_ (saved := .inl (Only.bit hL (by decide)))
    | dsimp only)
theorem State.store_only {L : Nat} {s₀ s : State} (hs₀ : s₀.Only L s) (k : PageKind) (page off : Nat) (new : Word)
    (hL : 24 &&& L = 24) : s₀.Only L (State.store s k page off new) := by
  unfold State.store
  repeat (with_reducible first
    | exact hs₀
    | exact Only.sub hL (by decide)
    | apply State.wr_only
    | apply State.Only.ite
    | split
    | refine State.Only.of ?_ (stale := .inl (Only.bit hL (by decide)))
    | dsimp only)
theorem State.storeLo_only {L : Nat} {s₀ s : State} (hs₀ : s₀.Only L s) (page off : Nat) (new : Word) (hL : 131096
    &&& L = 131096) : s₀.Only L (State.storeLo s page off new) := by
  unfold State.storeLo
  repeat (with_reducible first
    | exact hs₀
    | exact Only.sub hL (by decide)
    | apply State.store_only
    | apply State.Only.ite
    | split
    | refine State.Only.of ?_ (time := .inl (Only.bit hL (by decide)))
    | dsimp only)
theorem State.storeInc_only {L : Nat} {s₀ s : State} (hs₀ : s₀.Only L s) (page off : Nat) (v : Word) (hL : 131096
    &&& L = 131096) : s₀.Only L (State.storeInc s page off v) := by
  unfold State.storeInc
  repeat (with_reducible first
    | exact hs₀
    | exact Only.sub hL (by decide)
    | apply State.wr_only
    | apply State.Only.ite
    | split
    | refine State.Only.of ?_ (stale := .inl (Only.bit hL (by decide))) (time := .inl (Only.bit hL (by decide)))
    | dsimp only)
theorem State.storeSetting_only {L : Nat} {s₀ s : State} (hs₀ : s₀.Only L s) (k : PageKind) (page off : Nat) (new v
    : Word) (hL : 131096 &&& L = 131096) : s₀.Only L (State.storeSetting s k page off new v) := by
  unfold State.storeSetting
  repeat (with_reducible first
    | exact hs₀
    | exact Only.sub hL (by decide)
    | apply State.storeInc_only
    | apply State.storeLo_only
    | apply State.store_only
    | apply State.Only.ite
    | split)
theorem State.writePlain_only {L : Nat} {s₀ s : State} (hs₀ : s₀.Only L s) (k : PageKind) (page off : Nat) (d :
    RegDef) (v : Word) (rwl : Bool) (hL : 17180000376 &&& L = 17180000376) : s₀.Only L (State.writePlain s k page
    off d v rwl).2 := by
  unfold State.writePlain
  repeat (with_reducible first
    | dsimp only
    | split
    | exact hs₀
    | exact Only.sub hL (by decide)
    | apply State.event_only
    | apply State.bump_only
    | apply State.storeSetting_only
    | apply State.record_only
    | apply State.wr_only
    | refine State.Only.of ?_ (pendW := .inl (Only.bit hL (by decide))))
theorem State.writeLive_only {L : Nat} {s₀ s : State} (hs₀ : s₀.Only L s) (k : PageKind) (page off : Nat) (d :
    RegDef) (v : Word) (rwl : Bool) (hL : 17180030072 &&& L = 17180030072) : s₀.Only L (State.writeLive s k page off
    d v rwl).2 := by
  unfold State.writeLive
  repeat (with_reducible first
    | split
    | exact hs₀
    | exact Only.sub hL (by decide)
    | apply State.stageCorr_only
    | apply State.writePlain_only
    | refine State.Only.of ?_ (tacStaged := .inl (Only.bit hL (by decide))) (rwsStaged := .inl (Only.bit hL (by
        decide))))
theorem State.writeOff_only {L : Nat} {s₀ s : State} (hs₀ : s₀.Only L s) (k : PageKind) (page off : Nat) (d :
    RegDef) (v : Word) (rwl : Bool) (hL : 670014898176 &&& L = 670014898176) : s₀.Only L (State.writeOff s k page
    off d v rwl).2 := by
  unfold State.writeOff
  repeat (with_reducible first
    | dsimp only
    | split
    | exact hs₀
    | exact Only.sub hL (by decide)
    | refine State.Only.of ?_ (saved := .inl (Only.bit hL (by decide))) (savedStaged := .inl (Only.bit hL (by
        decide))) (savedTac := .inl (Only.bit hL (by decide))) (savedCorr := .inl (Only.bit hL (by decide))))
theorem State.writeOnePage_only {L : Nat} {s₀ s : State} (hs₀ : s₀.Only L s) (page off : Nat) (v : Word) (rwl :
    Bool) (hL : 670015059064 &&& L = 670015059064) : s₀.Only L (State.writeOnePage s page off v rwl).2 := by
  unfold State.writeOnePage
  repeat (with_reducible first
    | split
    | exact hs₀
    | exact Only.sub hL (by decide)
    | apply State.writeOff_only
    | apply State.writeLive_only)
theorem State.countResult_only {L : Nat} {s₀ s : State} (hs₀ : s₀.Only L s) (r : Nat) (hL : 88 &&& L = 88) : s₀.Only
    L (State.countResult s r) := by
  unfold State.countResult
  repeat (with_reducible first
    | exact hs₀
    | exact Only.sub hL (by decide)
    | apply State.bump_only
    | apply State.event_only
    | apply State.Only.ite
    | split)
theorem State.noteWrites_only {L : Nat} {s₀ s : State} (hs₀ : s₀.Only L s) (l : List (Nat × Nat)) (off : Nat) (v :
    Word) (n : Nat) (rwl : Bool) (hL : 137438953472 &&& L = 137438953472) : s₀.Only L (State.noteWrites s l off v n
    rwl) := by
  unfold State.noteWrites
  repeat (with_reducible first
    | exact hs₀
    | exact Only.sub hL (by decide)
    | apply State.noteChange_only
    | apply State.Only.ite
    | refine State.Only.each ?_ ?_ <;> [(intro u x₁ hs₀; try dsimp only); skip]
    | split)
theorem State.unlockPage_only {L : Nat} {s₀ s : State} (hs₀ : s₀.Only L s) (page frames : Nat) (hL : 4294967296 &&&
    L = 4294967296) : s₀.Only L (State.unlockPage s page frames) := by
  unfold State.unlockPage
  repeat (with_reducible first
    | exact hs₀
    | exact Only.sub hL (by decide)
    | apply State.Only.ite
    | split
    | refine State.Only.of ?_ (unlocks := .inl (Only.bit hL (by decide))))
theorem State.lockPage_only {L : Nat} {s₀ s : State} (hs₀ : s₀.Only L s) (page : Nat) (hL : 4294967296 &&& L =
    4294967296) : s₀.Only L (State.lockPage s page) := by
  unfold State.lockPage
  repeat (with_reducible first
    | exact hs₀
    | exact Only.sub hL (by decide)
    | refine State.Only.of ?_ (unlocks := .inl (Only.bit hL (by decide))))
theorem State.stageClr_only {L : Nat} {s₀ s : State} (hs₀ : s₀.Only L s) (c : Conc) (hL : 24600 &&& L = 24600) :
    s₀.Only L (State.stageClr s c) := by
  unfold State.stageClr
  repeat (with_reducible first
    | exact hs₀
    | exact Only.sub hL (by decide)
    | apply State.setConc_only
    | apply State.putB_only
    | apply State.showStaged_only)
theorem State.discardStaged_only {L : Nat} {s₀ s : State} (hs₀ : s₀.Only L s) (page : Nat) (hL : 29720 &&& L =
    29720) : s₀.Only L (State.discardStaged s page) := by
  unfold State.discardStaged
  repeat (with_reducible first
    | exact hs₀
    | exact Only.sub hL (by decide)
    | apply State.stageClr_only
    | apply State.Only.ite
    | split
    | refine State.Only.of ?_ (tacStaged := .inl (Only.bit hL (by decide))) (rwsStaged := .inl (Only.bit hL (by
        decide))))

/-! Swap.lean -/

theorem State.clearHist_only {L : Nat} {s₀ s : State} (hs₀ : s₀.Only L s) (c : Conc) (captures : Bool) (hL : 24576
    &&& L = 24576) : s₀.Only L (State.clearHist s c captures) := by
  unfold State.clearHist
  repeat (with_reducible first
    | exact hs₀
    | exact Only.sub hL (by decide)
    | apply State.setConc_only
    | apply State.Only.ite
    | split)
theorem State.restartTurn_only {L : Nat} {s₀ s : State} (hs₀ : s₀.Only L s) (captures : Bool) (hL : 8413184 &&& L =
    8413184) : s₀.Only L (State.restartTurn s captures) := by
  unfold State.restartTurn
  repeat (with_reducible first
    | exact hs₀
    | exact Only.sub hL (by decide)
    | apply State.clearHist_only
    | refine State.Only.each ?_ ?_ <;> [(intro u x₁ hs₀; try dsimp only); skip]
    | refine State.Only.of ?_ (cal := .inl (Only.bit hL (by decide)))
    | dsimp only)
theorem State.beginTurn_only {L : Nat} {s₀ s : State} (hs₀ : s₀.Only L s) (first : Nat) (hL : 8413208 &&& L =
    8413208) : s₀.Only L (State.beginTurn s first) := by
  unfold State.beginTurn
  repeat (with_reducible first
    | exact hs₀
    | exact Only.sub hL (by decide)
    | apply State.restartTurn_only
    | apply State.put_only
    | split
    | refine State.Only.of ?_ (cal := .inl (Only.bit hL (by decide)))
    | dsimp only)
theorem State.showSwap_only {L : Nat} {s₀ s : State} (hs₀ : s₀.Only L s) (hL : 24 &&& L = 24) : s₀.Only L
    (State.showSwap s) := by
  unfold State.showSwap
  repeat (with_reducible first | exact hs₀ | exact Only.sub hL (by decide) | apply State.putB_only | dsimp only)
theorem State.journalSwap_only {L : Nat} {s₀ s : State} (hs₀ : s₀.Only L s) (t : Fin 16) (result epoch : Nat) (hL :
    8589934616 &&& L = 8589934616) : s₀.Only L (State.journalSwap s t result epoch).2 := by
  unfold State.journalSwap
  repeat (with_reducible first | split | exact hs₀ | exact Only.sub hL (by decide) | apply State.append_only)
theorem State.nextTurn_only {L : Nat} {s₀ s : State} (hs₀ : s₀.Only L s) (t : Fin 16) (hL : 8413208 &&& L = 8413208)
    : s₀.Only L (State.nextTurn s t) := by
  unfold State.nextTurn
  repeat (with_reducible first
    | exact hs₀
    | exact Only.sub hL (by decide)
    | apply State.beginTurn_only
    | apply State.Only.ite
    | split)
theorem State.withdrawSwap_only {L : Nat} {s₀ s : State} (hs₀ : s₀.Only L s) (hL : 8598352984 &&& L = 8598352984) :
    s₀.Only L (State.withdrawSwap s) := by
  unfold State.withdrawSwap
  repeat (with_reducible first
    | exact hs₀
    | exact Only.sub hL (by decide)
    | apply State.discardStaged_only
    | apply State.bump_only
    | apply State.event_only
    | apply State.showSwap_only
    | apply State.putB_only
    | apply State.journalSwap_only
    | apply State.nextTurn_only
    | apply State.Only.ite
    | refine State.Only.each ?_ ?_ <;> [(intro u x₁ hs₀; try dsimp only); skip]
    | split
    | refine State.Only.of ?_ (cal := .inl (Only.bit hL (by decide)))
    | dsimp only)
theorem State.checkSwap_only {L : Nat} {s₀ s : State} (hs₀ : s₀.Only L s) (hL : 8598352984 &&& L = 8598352984) :
    s₀.Only L (State.checkSwap s) := by
  unfold State.checkSwap
  repeat (with_reducible first
    | exact hs₀
    | exact Only.sub hL (by decide)
    | apply State.withdrawSwap_only
    | apply State.Only.ite
    | split)

/-! Trig.lean -/

theorem State.trigPinEdge_only {L : Nat} {s₀ s : State} (hs₀ : s₀.Only L s) (p : Pin) (rising : Bool) (stamp : Nat)
    (hL : 65561 &&& L = 65561) : s₀.Only L (State.trigPinEdge s p rising stamp) := by
  unfold State.trigPinEdge
  repeat (with_reducible first
    | exact hs₀
    | exact Only.sub hL (by decide)
    | apply State.advance_only
    | apply State.bump_only
    | apply State.Only.ite
    | split
    | refine State.Only.of ?_ (trig := .inl (Only.bit hL (by decide)))
    | dsimp only)
theorem State.refuseTrigger_only {L : Nat} {s₀ s : State} (hs₀ : s₀.Only L s) (hL : 88 &&& L = 88) : s₀.Only L
    (State.refuseTrigger s) := by
  unfold State.refuseTrigger
  repeat (with_reducible first
    | exact hs₀
    | exact Only.sub hL (by decide)
    | apply State.bump_only
    | apply State.event_only)
theorem State.timedTrigger_only {L : Nat} {s₀ s : State} (hs₀ : s₀.Only L s) (coarse fine : Nat) (g : Bool) (level
    pre post path : Nat) (hL : 65624 &&& L = 65624) : s₀.Only L (State.timedTrigger s coarse fine g level pre post
    path).2 := by
  unfold State.timedTrigger
  repeat (with_reducible first
    | dsimp only
    | split
    | exact hs₀
    | exact Only.sub hL (by decide)
    | apply State.refuseTrigger_only
    | refine State.Only.of ?_ (trig := .inl (Only.bit hL (by decide))))
theorem State.convertTimed_only {L : Nat} {s₀ s : State} (hs₀ : s₀.Only L s) (f : Nat) (hL : 65624 &&& L = 65624) :
    s₀.Only L (State.convertTimed s f) := by
  unfold State.convertTimed
  repeat (with_reducible first
    | exact hs₀
    | exact Only.sub hL (by decide)
    | apply State.refuseTrigger_only
    | refine State.Only.each ?_ ?_ <;> [(intro u x₁ hs₀; try dsimp only); skip]
    | refine State.Only.of ?_ (trig := .inl (Only.bit hL (by decide)))
    | dsimp only)
theorem State.gateEdge_only {L : Nat} {s₀ s : State} (hs₀ : s₀.Only L s) (p : Pin) (isOpen : Bool) (time : Nat) (hL
    : 65816 &&& L = 65816) : s₀.Only L (State.gateEdge s p isOpen time) := by
  unfold State.gateEdge
  repeat (with_reducible first
    | exact hs₀
    | exact Only.sub hL (by decide)
    | apply State.putB_only
    | apply State.setTile_only
    | apply State.Only.ite
    | refine State.Only.each ?_ ?_ <;> [(intro u x₁ hs₀; try dsimp only); skip]
    | split
    | refine State.Only.of ?_ (trig := .inl (Only.bit hL (by decide)))
    | dsimp only)
theorem State.gatePinChange_only {L : Nat} {s₀ s : State} (hs₀ : s₀.Only L s) (p : Pin) (high : Bool) (stamp : Nat)
    (hL : 65561 &&& L = 65561) : s₀.Only L (State.gatePinChange s p high stamp) := by
  unfold State.gatePinChange
  repeat (with_reducible first
    | exact hs₀
    | exact Only.sub hL (by decide)
    | apply State.advance_only
    | apply State.bump_only
    | apply State.Only.ite
    | split
    | refine State.Only.of ?_ (trig := .inl (Only.bit hL (by decide)))
    | dsimp only)
theorem State.gateEdgeAccept_only {L : Nat} {s₀ s : State} (hs₀ : s₀.Only L s) (p : Pin) (at_ : Nat) (hL : 65817 &&&
    L = 65817) : s₀.Only L (State.gateEdgeAccept s p at_) := by
  unfold State.gateEdgeAccept
  repeat (with_reducible first
    | exact hs₀
    | exact Only.sub hL (by decide)
    | apply State.advance_only
    | apply State.gateEdge_only
    | apply State.Only.ite
    | split
    | refine State.Only.of ?_ (trig := .inl (Only.bit hL (by decide)))
    | dsimp only)
theorem State.gatePolChanged_only {L : Nat} {s₀ s : State} (hs₀ : s₀.Only L s) (p : Pin) (f : Nat) (hL : 65816 &&& L
    = 65816) : s₀.Only L (State.gatePolChanged s p f) := by
  unfold State.gatePolChanged
  repeat (with_reducible first
    | exact hs₀
    | exact Only.sub hL (by decide)
    | apply State.gateEdge_only
    | apply State.Only.ite
    | split
    | dsimp only)
theorem State.timedGate_only {L : Nat} {s₀ s : State} (hs₀ : s₀.Only L s) (openC openT closeC closeT : Nat) (hL :
    65624 &&& L = 65624) : s₀.Only L (State.timedGate s openC openT closeC closeT).2 := by
  unfold State.timedGate
  repeat (with_reducible first
    | dsimp only
    | split
    | exact hs₀
    | exact Only.sub hL (by decide)
    | apply State.put_only
    | apply State.bump_only
    | apply State.event_only
    | refine State.Only.of ?_ (trig := .inl (Only.bit hL (by decide))))
theorem State.sendWindow_only {L : Nat} {s₀ s : State} (hs₀ : s₀.Only L s) (mo mc : Nat) (hL : 65792 &&& L = 65792)
    : s₀.Only L (State.sendWindow s mo mc) := by
  unfold State.sendWindow
  repeat (with_reducible first
    | exact hs₀
    | exact Only.sub hL (by decide)
    | apply State.setTile_only
    | refine State.Only.each ?_ ?_ <;> [(intro u x₁ hs₀; try dsimp only); skip]
    | refine State.Only.of ?_ (trig := .inl (Only.bit hL (by decide)))
    | dsimp only)
theorem State.sendWindows_only {L : Nat} {s₀ s : State} (hs₀ : s₀.Only L s) (hL : 65792 &&& L = 65792) : s₀.Only L
    (State.sendWindows s) := by
  unfold State.sendWindows
  repeat (with_reducible first
    | exact hs₀
    | exact Only.sub hL (by decide)
    | apply State.sendWindow_only
    | apply State.Only.ite
    | refine State.Only.each ?_ ?_ <;> [(intro u x₁ hs₀; try dsimp only); skip]
    | split
    | refine State.Only.of ?_ (trig := .inl (Only.bit hL (by decide)))
    | dsimp only)
theorem State.markTimed_only {L : Nat} {s₀ s : State} (hs₀ : s₀.Only L s) (f : Nat) (hL : 65536 &&& L = 65536) :
    s₀.Only L (State.markTimed s f) := by
  unfold State.markTimed
  repeat (with_reducible first
    | exact hs₀
    | exact Only.sub hL (by decide)
    | apply State.Only.ite
    | split
    | refine State.Only.of ?_ (trig := .inl (Only.bit hL (by decide)))
    | dsimp only)
theorem State.gateApplyCmd_only {L : Nat} {s₀ s : State} (hs₀ : s₀.Only L s) (t : Fin 16) (hL : 65945 &&& L = 65945)
    : s₀.Only L (State.gateApplyCmd s t) := by
  unfold State.gateApplyCmd
  repeat (with_reducible first
    | exact hs₀
    | exact Only.sub hL (by decide)
    | apply State.gateApply_only
    | apply State.put_only
    | apply State.putB_only
    | apply State.Only.ite
    | split
    | refine State.Only.of ?_ (trig := .inl (Only.bit hL (by decide)))
    | dsimp only)
theorem State.requestGlean_only {L : Nat} {s₀ s : State} (hs₀ : s₀.Only L s) (c : Conc) (g : Trigger) (hL : 24664
    &&& L = 24664) : s₀.Only L (State.requestGlean s c g) := by
  unfold State.requestGlean
  repeat (with_reducible first
    | exact hs₀
    | exact Only.sub hL (by decide)
    | apply State.setConc_only
    | apply State.put_only
    | apply State.peak_only
    | apply State.bump_only
    | apply State.event_only
    | apply State.Only.ite
    | split
    | dsimp only)
theorem State.deliver_only {L : Nat} {s₀ s : State} (hs₀ : s₀.Only L s) (hL : 122969 &&& L = 122969) : s₀.Only L
    (State.deliver s) := by
  unfold State.deliver
  repeat (with_reducible first
    | exact hs₀
    | exact Only.sub hL (by decide)
    | apply State.advance_only
    | apply State.bumpWrap_only
    | apply State.bump_only
    | apply State.eventIf_only
    | apply State.requestGlean_only
    | apply State.Only.ite
    | refine State.Only.each ?_ ?_ <;> [(intro u x₁ hs₀; try dsimp only); skip]
    | refine State.Only.foldlSnd ?_ ?_ <;> [(intro x₀ x₁ hs₀; try dsimp only); skip]
    | refine State.Only.foldl ?_ ?_ <;> [(intro x₀ x₁ hs₀; try dsimp only); skip]
    | split
    | refine State.Only.of ?_ (frames := .inl (Only.bit hL (by decide))) (trig := .inl (Only.bit hL (by decide)))
    | dsimp only)
theorem State.requestResend_only {L : Nat} {s₀ s : State} (hs₀ : s₀.Only L s) (first count : Nat) (hL : 65536 &&& L
    = 65536) : s₀.Only L (State.requestResend s first count) := by
  unfold State.requestResend
  repeat (with_reducible first
    | exact hs₀
    | exact Only.sub hL (by decide)
    | apply State.Only.ite
    | split
    | refine State.Only.of ?_ (trig := .inl (Only.bit hL (by decide))))
theorem State.queueResend_only {L : Nat} {s₀ s : State} (hs₀ : s₀.Only L s) (c : Conc) (r : Nat × Nat) (hL : 24664
    &&& L = 24664) : s₀.Only L (State.queueResend s c r) := by
  unfold State.queueResend
  repeat (with_reducible first
    | exact hs₀
    | exact Only.sub hL (by decide)
    | apply State.setConc_only
    | apply State.put_only
    | apply State.bump_only
    | apply State.event_only
    | apply State.Only.ite
    | split
    | dsimp only)
theorem State.deliverResends_only {L : Nat} {s₀ s : State} (hs₀ : s₀.Only L s) (hL : 90200 &&& L = 90200) : s₀.Only
    L (State.deliverResends s) := by
  unfold State.deliverResends
  repeat (with_reducible first
    | exact hs₀
    | exact Only.sub hL (by decide)
    | apply State.queueResend_only
    | refine State.Only.each ?_ ?_ <;> [(intro u x₁ hs₀; try dsimp only); skip]
    | refine State.Only.of ?_ (trig := .inl (Only.bit hL (by decide))))

/-! Dram.lean -/

theorem State.served_only {L : Nat} {s₀ s : State} (hs₀ : s₀.Only L s) (c : Conc) (r : DramReq) (hL : 24576 &&& L =
    24576) : s₀.Only L (State.served s c r) := by
  unfold State.served
  repeat (with_reducible first | exact hs₀ | exact Only.sub hL (by decide) | apply State.setConc_only | dsimp only)
theorem State.agePromotion_only {L : Nat} {s₀ s : State} (hs₀ : s₀.Only L s) (c : Conc) (shadow : Bool) (cls at_ :
    Nat) (hL : 24601 &&& L = 24601) : s₀.Only L (State.agePromotion s c shadow cls at_) := by
  unfold State.agePromotion
  repeat (with_reducible first
    | exact hs₀
    | exact Only.sub hL (by decide)
    | apply State.advance_only
    | apply State.setConc_only
    | apply State.bump_only
    | apply State.Only.ite
    | split
    | dsimp only)
theorem State.abortScrub_only {L : Nat} {s₀ s : State} (hs₀ : s₀.Only L s) (page : Nat) (hL : 524312 &&& L = 524312)
    : s₀.Only L (State.abortScrub s page) := by
  unfold State.abortScrub
  repeat (with_reducible first
    | exact hs₀
    | exact Only.sub hL (by decide)
    | apply State.putB_only
    | apply State.Only.ite
    | split
    | refine State.Only.of ?_ (scrubs := .inl (Only.bit hL (by decide))))
theorem State.abortScrubOf_only {L : Nat} {s₀ s : State} (hs₀ : s₀.Only L s) (c : Conc) (mem : Nat) (hL : 524312 &&&
    L = 524312) : s₀.Only L (State.abortScrubOf s c mem) := by
  unfold State.abortScrubOf
  repeat (with_reducible first
    | exact hs₀
    | exact Only.sub hL (by decide)
    | apply State.abortScrub_only
    | apply State.Only.ite
    | split)
theorem State.snapshot_only {L : Nat} {s₀ s : State} (hs₀ : s₀.Only L s) (c : Conc) (x : FreezeCause) (hL : 24 &&& L
    = 24) : s₀.Only L (State.snapshot s c x) := by
  unfold State.snapshot
  repeat (with_reducible first | exact hs₀ | exact Only.sub hL (by decide) | apply State.put_only | dsimp only)
theorem State.freeze_only {L : Nat} {s₀ s : State} (hs₀ : s₀.Only L s) (c : Conc) (x : FreezeCause) (hL : 8598877272
    &&& L = 8598877272) : s₀.Only L (State.freeze s c x) := by
  unfold State.freeze
  repeat (with_reducible first
    | exact hs₀
    | exact Only.sub hL (by decide)
    | apply State.snapshot_only
    | apply State.putB_only
    | apply State.event_only
    | apply State.bump_only
    | apply State.abortScrub_only
    | apply State.setConc_only
    | apply State.sendCross_only
    | apply State.checkSwap_only
    | apply State.Only.ite
    | split
    | dsimp only)
theorem State.demandError_only {L : Nat} {s₀ s : State} (hs₀ : s₀.Only L s) (c : Conc) (shadow : Bool) (unit cls :
    Nat) (hL : 8804691899480 &&& L = 8804691899480) : s₀.Only L (State.demandError s c shadow unit cls) := by
  unfold State.demandError
  repeat (with_reducible first
    | exact hs₀
    | exact Only.sub hL (by decide)
    | apply State.uncorrectableRead_only
    | apply State.draw_only
    | apply State.freeze_only
    | apply State.setConc_only
    | apply State.poisoned_only
    | apply State.bump_only
    | apply State.event_only
    | apply State.Only.ite
    | split
    | dsimp only)
theorem State.demandRead_only {L : Nat} {s₀ s : State} (hs₀ : s₀.Only L s) (c : Conc) (shadow : Bool) (unit cls :
    Nat) (read : EccRead) (hL : 8804692161624 &&& L = 8804692161624) : s₀.Only L (State.demandRead s c shadow unit
    cls read) := by
  unfold State.demandRead
  repeat (with_reducible first
    | exact hs₀
    | exact Only.sub hL (by decide)
    | apply State.setConc_only
    | apply State.correctedRead_only
    | apply State.demandError_only
    | split
    | dsimp only)
theorem State.dramFreeze_only {L : Nat} {s₀ s : State} (hs₀ : s₀.Only L s) (c : Conc) (parity : Bool) (cmd cls chan
    bank row unit synd : Nat) (hL : 8598877272 &&& L = 8598877272) : s₀.Only L (State.dramFreeze s c parity cmd cls
    chan bank row unit synd) := by
  unfold State.dramFreeze
  repeat (with_reducible first
    | exact hs₀
    | exact Only.sub hL (by decide)
    | apply State.freeze_only
    | apply State.uncorrectableRead_only
    | apply State.Only.ite
    | split)
theorem State.readUnits_only {L : Nat} {s₀ s : State} (hs₀ : s₀.Only L s) (c : Conc) (shadow : Bool) (cls : Nat)
    (reads : Reads) (units : List Nat) (hL : 8804692161624 &&& L = 8804692161624) : s₀.Only L (State.readUnits s c
    shadow cls reads units) := by
  unfold State.readUnits
  repeat (with_reducible first
    | exact hs₀
    | exact Only.sub hL (by decide)
    | apply State.demandRead_only
    | apply State.Only.ite
    | refine State.Only.each ?_ ?_ <;> [(intro u x₁ hs₀; try dsimp only); skip]
    | split)
theorem State.dirRead_only {L : Nat} {s₀ s : State} (hs₀ : s₀.Only L s) (c : Conc) (dir cls : Nat) (reads : Reads)
    (hL : 8804692161624 &&& L = 8804692161624) : s₀.Only L (State.dirRead s c dir cls reads) := by
  unfold State.dirRead
  repeat (with_reducible first
    | exact hs₀
    | exact Only.sub hL (by decide)
    | apply State.demandRead_only
    | apply State.setConc_only
    | apply State.uncorrectableRead_only
    | apply State.poisoned_only
    | apply State.Only.ite
    | split
    | dsimp only)
theorem State.sheafRead_only {L : Nat} {s₀ s : State} (hs₀ : s₀.Only L s) (c : Conc) (frame pos n cls : Nat) (reads
    : Reads) (hL : 8804692161624 &&& L = 8804692161624) : s₀.Only L (State.sheafRead s c frame pos n cls reads) := by
  unfold State.sheafRead
  repeat (with_reducible first
    | exact hs₀
    | exact Only.sub hL (by decide)
    | apply State.dirRead_only
    | apply State.readUnits_only)
theorem State.setMc_only {L : Nat} {s₀ s : State} (hs₀ : s₀.Only L s) (c : Conc) (m : DramSt) (hL : 24576 &&& L =
    24576) : s₀.Only L (State.setMc s c m) := by
  unfold State.setMc
  repeat (with_reducible first | exact hs₀ | exact Only.sub hL (by decide) | apply State.setConc_only)
theorem State.refreshDue_only {L : Nat} {s₀ s : State} (hs₀ : s₀.Only L s) (c : Conc) (chan bank : Nat) (hL : 24600
    &&& L = 24600) : s₀.Only L (State.refreshDue s c chan bank) := by
  unfold State.refreshDue
  repeat (with_reducible first
    | exact hs₀
    | exact Only.sub hL (by decide)
    | apply State.setMc_only
    | apply State.bump_only
    | apply State.Only.ite
    | split
    | dsimp only)
theorem State.postponedRefresh_only {L : Nat} {s₀ s : State} (hs₀ : s₀.Only L s) (c : Conc) (chan bank : Nat) (hL :
    24576 &&& L = 24576) : s₀.Only L (State.postponedRefresh s c chan bank) := by
  unfold State.postponedRefresh
  repeat (with_reducible first
    | exact hs₀
    | exact Only.sub hL (by decide)
    | apply State.setMc_only
    | apply State.Only.ite
    | split
    | dsimp only)
theorem State.pageIdleClose_only {L : Nat} {s₀ s : State} (hs₀ : s₀.Only L s) (c : Conc) (chan bank : Nat) (hL :
    24576 &&& L = 24576) : s₀.Only L (State.pageIdleClose s c chan bank) := by
  unfold State.pageIdleClose
  repeat (with_reducible first
    | exact hs₀
    | exact Only.sub hL (by decide)
    | apply State.setMc_only
    | apply State.Only.ite
    | split)
theorem State.turnHot_only {L : Nat} {s₀ s : State} (hs₀ : s₀.Only L s) (c : Conc) (hL : 24664 &&& L = 24664) :
    s₀.Only L (State.turnHot s c) := by
  unfold State.turnHot
  repeat (with_reducible first
    | exact hs₀
    | exact Only.sub hL (by decide)
    | apply State.setMc_only
    | apply State.putB_only
    | apply State.event_only
    | apply State.bump_only
    | dsimp only)
theorem State.applyTemp_only {L : Nat} {s₀ s : State} (hs₀ : s₀.Only L s) (c : Conc) (hL : 24664 &&& L = 24664) :
    s₀.Only L (State.applyTemp s c) := by
  unfold State.applyTemp
  repeat (with_reducible first
    | exact hs₀
    | exact Only.sub hL (by decide)
    | apply State.turnHot_only
    | apply State.putB_only
    | apply State.event_only
    | apply State.Only.ite
    | split
    | dsimp only)
theorem State.tempSample_only {L : Nat} {s₀ s : State} (hs₀ : s₀.Only L s) (c : Conc) (temp : Int) (hL : 24664 &&& L
    = 24664) : s₀.Only L (State.tempSample s c temp) := by
  unfold State.tempSample
  repeat (with_reducible first
    | exact hs₀
    | exact Only.sub hL (by decide)
    | apply State.put_only
    | apply State.applyTemp_only
    | apply State.Only.ite
    | split
    | dsimp only)
theorem State.startChange_only {L : Nat} {s₀ s : State} (hs₀ : s₀.Only L s) (c : Conc) (p : Nat) (hL : 24600 &&& L =
    24600) : s₀.Only L (State.startChange s c p) := by
  unfold State.startChange
  repeat (with_reducible first
    | exact hs₀
    | exact Only.sub hL (by decide)
    | apply State.setMc_only
    | apply State.putB_only
    | apply State.Only.ite
    | split)
theorem State.demandWindow_only {L : Nat} {s₀ s : State} (hs₀ : s₀.Only L s) (c : Conc) (rb sb : Nat) (hL : 24600
    &&& L = 24600) : s₀.Only L (State.demandWindow s c rb sb) := by
  unfold State.demandWindow
  repeat (with_reducible first
    | exact hs₀
    | exact Only.sub hL (by decide)
    | apply State.setMc_only
    | apply State.startChange_only
    | apply State.Only.ite
    | split
    | dsimp only)
theorem State.pinPoint_only {L : Nat} {s₀ s : State} (hs₀ : s₀.Only L s) (c : Conc) (hL : 24600 &&& L = 24600) :
    s₀.Only L (State.pinPoint s c) := by
  unfold State.pinPoint
  repeat (with_reducible first
    | exact hs₀
    | exact Only.sub hL (by decide)
    | apply State.setMc_only
    | apply State.startChange_only
    | apply State.Only.ite
    | split
    | dsimp only)
theorem State.setTrain_only {L : Nat} {s₀ s : State} (hs₀ : s₀.Only L s) (c : Conc) (chan v : Nat) (hL : 24 &&& L =
    24) : s₀.Only L (State.setTrain s c chan v) := by
  unfold State.setTrain
  repeat (with_reducible first | exact hs₀ | exact Only.sub hL (by decide) | apply State.put_only | dsimp only)
theorem State.trained_only {L : Nat} {s₀ s : State} (hs₀ : s₀.Only L s) (c : Conc) (chan : Nat) (hL : 24600 &&& L =
    24600) : s₀.Only L (State.trained s c chan) := by
  unfold State.trained
  repeat (with_reducible first
    | exact hs₀
    | exact Only.sub hL (by decide)
    | apply State.setMc_only
    | apply State.put_only
    | apply State.bump_only
    | dsimp only)
theorem State.setPoint_only {L : Nat} {s₀ s : State} (hs₀ : s₀.Only L s) (c : Conc) (p chan v : Nat) (hL : 24600 &&&
    L = 24600) : s₀.Only L (State.setPoint s c p chan v) := by
  unfold State.setPoint
  repeat (with_reducible first
    | exact hs₀
    | exact Only.sub hL (by decide)
    | apply State.setMc_only
    | apply State.setTrain_only)
theorem State.setDegraded_only {L : Nat} {s₀ s : State} (hs₀ : s₀.Only L s) (c : Conc) (chan : Nat) (b : Bool) (hL :
    24 &&& L = 24) : s₀.Only L (State.setDegraded s c chan b) := by
  unfold State.setDegraded
  repeat (with_reducible first | exact hs₀ | exact Only.sub hL (by decide) | apply State.putB_only)
theorem State.trainFailed_only {L : Nat} {s₀ s : State} (hs₀ : s₀.Only L s) (c : Conc) (chan : Nat) (hL : 24664 &&&
    L = 24664) : s₀.Only L (State.trainFailed s c chan) := by
  unfold State.trainFailed
  repeat (with_reducible first
    | exact hs₀
    | exact Only.sub hL (by decide)
    | apply State.setDegraded_only
    | apply State.event_only
    | apply State.bump_only
    | apply State.trained_only)
theorem State.trainAll_only {L : Nat} {s₀ s : State} (hs₀ : s₀.Only L s) (c : Conc) (p : Nat) (hL : 8796093046872
    &&& L = 8796093046872) : s₀.Only L (State.trainAll s c p) := by
  unfold State.trainAll
  repeat (with_reducible first
    | exact hs₀
    | exact Only.sub hL (by decide)
    | apply State.setMc_only
    | apply State.draw_only
    | apply State.setTrain_only
    | apply State.trainFailed_only
    | apply State.setPoint_only
    | apply State.trained_only
    | apply State.Only.ite
    | refine State.Only.each ?_ ?_ <;> [(intro u x₁ hs₀; try dsimp only); skip]
    | split
    | dsimp only)
theorem State.trainStart_only {L : Nat} {s₀ s : State} (hs₀ : s₀.Only L s) (c : Conc) (hL : 8796093046872 &&& L =
    8796093046872) : s₀.Only L (State.trainStart s c) := by
  unfold State.trainStart
  repeat (with_reducible first
    | exact hs₀
    | exact Only.sub hL (by decide)
    | apply State.trainAll_only
    | apply State.put_only
    | refine State.Only.foldlSnd ?_ ?_ <;> [(intro x₀ x₁ hs₀; try dsimp only); skip]
    | refine State.Only.foldl ?_ ?_ <;> [(intro x₀ x₁ hs₀; try dsimp only); skip])
theorem State.bufferedUnit_only {L : Nat} {s₀ s : State} (hs₀ : s₀.Only L s) (c : Conc) (shadow : Bool) (unit place
    : Nat) (read : EccRead) (hL : 286808 &&& L = 286808) : s₀.Only L (State.bufferedUnit s c shadow unit place read)
    := by
  unfold State.bufferedUnit
  repeat (with_reducible first
    | exact hs₀
    | exact Only.sub hL (by decide)
    | apply State.setConc_only
    | apply State.countRead_only
    | apply State.poisoned_only
    | apply State.Only.ite
    | split
    | dsimp only)
theorem State.issueBuffered_only {L : Nat} {s₀ s : State} (hs₀ : s₀.Only L s) (c : Conc) (reads : Reads) (hL :
    286808 &&& L = 286808) : s₀.Only L (State.issueBuffered s c reads) := by
  unfold State.issueBuffered
  repeat (with_reducible first
    | exact hs₀
    | exact Only.sub hL (by decide)
    | apply State.setMc_only
    | apply State.bufferedUnit_only
    | apply State.showWbuf_only
    | refine State.Only.each ?_ ?_ <;> [(intro u x₁ hs₀; try dsimp only); skip]
    | dsimp only)
theorem State.freqChangeDone_only {L : Nat} {s₀ s : State} (hs₀ : s₀.Only L s) (c : Conc) (reads : Reads) (hL :
    8796093309016 &&& L = 8796093309016) : s₀.Only L (State.freqChangeDone s c reads) := by
  unfold State.freqChangeDone
  repeat (with_reducible first
    | exact hs₀
    | exact Only.sub hL (by decide)
    | apply State.put_only
    | apply State.putB_only
    | apply State.setMc_only
    | apply State.bump_only
    | apply State.event_only
    | apply State.trainAll_only
    | apply State.issueBuffered_only
    | apply State.applyTemp_only
    | apply State.pinPoint_only
    | apply State.Only.ite
    | split
    | dsimp only)
theorem State.retrained_only {L : Nat} {s₀ s : State} (hs₀ : s₀.Only L s) (c : Conc) (chan : Nat) (setting : Option
    (BitVec 24)) (hL : 24664 &&& L = 24664) : s₀.Only L (State.retrained s c chan setting) := by
  unfold State.retrained
  repeat (with_reducible first
    | exact hs₀
    | exact Only.sub hL (by decide)
    | apply State.setPoint_only
    | apply State.setDegraded_only
    | apply State.trained_only
    | apply State.trainFailed_only
    | split)
theorem State.waitedChange_only {L : Nat} {s₀ s : State} (hs₀ : s₀.Only L s) (c : Conc) (hL : 24600 &&& L = 24600) :
    s₀.Only L (State.waitedChange s c) := by
  unfold State.waitedChange
  repeat (with_reducible first | exact hs₀ | exact Only.sub hL (by decide) | apply State.startChange_only | split)
theorem State.retrainDue_only {L : Nat} {s₀ s : State} (hs₀ : s₀.Only L s) (c : Conc) (chan : Nat) (setting : Option
    (BitVec 24)) (hL : 24664 &&& L = 24664) : s₀.Only L (State.retrainDue s c chan setting) := by
  unfold State.retrainDue
  repeat (with_reducible first
    | exact hs₀
    | exact Only.sub hL (by decide)
    | apply State.retrained_only
    | apply State.waitedChange_only
    | apply State.Only.ite
    | split)
theorem State.showRetired_only {L : Nat} {s₀ s : State} (hs₀ : s₀.Only L s) (c : Conc) (hL : 24 &&& L = 24) :
    s₀.Only L (State.showRetired s c) := by
  unfold State.showRetired
  repeat (with_reducible first
    | exact hs₀
    | exact Only.sub hL (by decide)
    | apply State.putB_only
    | apply State.put_only
    | split
    | dsimp only)
theorem State.skipUnsent_only {L : Nat} {s₀ s : State} (hs₀ : s₀.Only L s) (c : Conc) (n : Nat) (hL : 24 &&& L = 24)
    : s₀.Only L (State.skipUnsent s c n) := by
  unfold State.skipUnsent
  repeat (with_reducible first | exact hs₀ | exact Only.sub hL (by decide) | apply State.bump_only)
theorem State.showReplayFrom_only {L : Nat} {s₀ s : State} (hs₀ : s₀.Only L s) (c : Conc) (f : Nat) (hL : 24 &&& L =
    24) : s₀.Only L (State.showReplayFrom s c f) := by
  unfold State.showReplayFrom
  repeat (with_reducible first | exact hs₀ | exact Only.sub hL (by decide) | apply State.put_only)
theorem State.showShadowFrom_only {L : Nat} {s₀ s : State} (hs₀ : s₀.Only L s) (c : Conc) (f : Nat) (hL : 24 &&& L =
    24) : s₀.Only L (State.showShadowFrom s c f) := by
  unfold State.showShadowFrom
  repeat (with_reducible first | exact hs₀ | exact Only.sub hL (by decide) | apply State.put_only)
theorem State.skipToBoundary_only {L : Nat} {s₀ s : State} (hs₀ : s₀.Only L s) (c : Conc) (hL : 24664 &&& L = 24664)
    : s₀.Only L (State.skipToBoundary s c) := by
  unfold State.skipToBoundary
  repeat (with_reducible first
    | exact hs₀
    | exact Only.sub hL (by decide)
    | apply State.skipUnsent_only
    | apply State.setConc_only
    | apply State.showReplayFrom_only
    | apply State.modeReturn_only
    | apply State.showBacklog_only
    | dsimp only)
theorem State.retire_only {L : Nat} {s₀ s : State} (hs₀ : s₀.Only L s) (c : Conc) (chan : Nat) (hL : 548952 &&& L =
    548952) : s₀.Only L (State.retire s c chan) := by
  unfold State.retire
  repeat (with_reducible first
    | exact hs₀
    | exact Only.sub hL (by decide)
    | apply State.setMc_only
    | apply State.setConc_only
    | apply State.showRetired_only
    | apply State.skipToBoundary_only
    | apply State.abortScrubOf_only
    | apply State.event_only
    | apply State.showShadowFrom_only
    | apply State.Only.ite
    | split
    | dsimp only)
theorem State.retireOrDeny_only {L : Nat} {s₀ s : State} (hs₀ : s₀.Only L s) (c : Conc) (chan : Nat) (hL : 548952
    &&& L = 548952) : s₀.Only L (State.retireOrDeny s c chan) := by
  unfold State.retireOrDeny
  repeat (with_reducible first
    | exact hs₀
    | exact Only.sub hL (by decide)
    | apply State.event_only
    | apply State.retire_only
    | apply State.Only.ite
    | split)
theorem State.channelRetire_only {L : Nat} {s₀ s : State} (hs₀ : s₀.Only L s) (c : Conc) (chan : Nat) (hL : 548952
    &&& L = 548952) : s₀.Only L (State.channelRetire s c chan) := by
  unfold State.channelRetire
  repeat (with_reducible first
    | exact hs₀
    | exact Only.sub hL (by decide)
    | apply State.setMc_only
    | apply State.retireOrDeny_only
    | apply State.Only.ite
    | split
    | dsimp only)
theorem State.releaseFreeze_only {L : Nat} {s₀ s : State} (hs₀ : s₀.Only L s) (c : Conc) (hL : 8598877272 &&& L =
    8598877272) : s₀.Only L (State.releaseFreeze s c) := by
  unfold State.releaseFreeze
  repeat (with_reducible first
    | exact hs₀
    | exact Only.sub hL (by decide)
    | apply State.retireOrDeny_only
    | apply State.putB_only
    | apply State.setConc_only
    | apply State.checkSwap_only
    | apply State.Only.ite
    | refine State.Only.each ?_ ?_ <;> [(intro u x₁ hs₀; try dsimp only); skip]
    | split
    | dsimp only)
theorem State.startHostRead_only {L : Nat} {s₀ s : State} (hs₀ : s₀.Only L s) (c : Conc) (hL : 24600 &&& L = 24600)
    : s₀.Only L (State.startHostRead s c) := by
  unfold State.startHostRead
  repeat (with_reducible first
    | exact hs₀
    | exact Only.sub hL (by decide)
    | apply State.setConc_only
    | apply State.putB_only
    | apply State.Only.ite
    | split)
theorem State.hostResult_only {L : Nat} {s₀ s : State} (hs₀ : s₀.Only L s) (c : Conc) (poison : Bool) (v : BitVec
    256) (hL : 24 &&& L = 24) : s₀.Only L (State.hostResult s c poison v) := by
  unfold State.hostResult
  repeat (with_reducible first
    | exact hs₀
    | exact Only.sub hL (by decide)
    | apply State.put_only
    | apply State.putB_only
    | apply State.Only.ite
    | refine State.Only.each ?_ ?_ <;> [(intro u x₁ hs₀; try dsimp only); skip]
    | split
    | dsimp only)
theorem State.hostUnit_only {L : Nat} {s₀ s : State} (hs₀ : s₀.Only L s) (c : Conc) (h : HostRead) (read : EccRead)
    (hL : 286808 &&& L = 286808) : s₀.Only L (State.hostUnit s c h read) := by
  unfold State.hostUnit
  repeat (with_reducible first
    | exact hs₀
    | exact Only.sub hL (by decide)
    | apply State.setConc_only
    | apply State.uncorrectableRead_only
    | apply State.poisoned_only
    | apply State.bump_only
    | apply State.hostResult_only
    | apply State.countRead_only
    | apply State.Only.ite
    | split
    | dsimp only)
theorem State.hostReadDone_only {L : Nat} {s₀ s : State} (hs₀ : s₀.Only L s) (c : Conc) (read : EccRead) (hL :
    8796093309016 &&& L = 8796093309016) : s₀.Only L (State.hostReadDone s c read) := by
  unfold State.hostReadDone
  repeat (with_reducible first
    | exact hs₀
    | exact Only.sub hL (by decide)
    | apply State.setConc_only
    | apply State.served_only
    | apply State.hostUnit_only
    | apply State.draw_only
    | apply State.hostResult_only
    | apply State.Only.ite
    | split
    | dsimp only)

/-! Glean.lean -/

theorem State.countGlean_only {L : Nat} {s₀ s : State} (hs₀ : s₀.Only L s) (c : Conc) (g : Glean) (hL : 88 &&& L =
    88) : s₀.Only L (State.countGlean s c g) := by
  unfold State.countGlean
  repeat (with_reducible first
    | exact hs₀
    | exact Only.sub hL (by decide)
    | apply State.bump_only
    | apply State.bump64_only
    | apply State.event_only
    | apply State.Only.ite
    | split
    | dsimp only)
theorem State.formGlean_only {L : Nat} {s₀ s : State} (hs₀ : s₀.Only L s) (c : Conc) (g : Glean) (onDie : Reads) (hL
    : 24664 &&& L = 24664) : s₀.Only L (State.formGlean s c g onDie) := by
  unfold State.formGlean
  repeat (with_reducible first
    | exact hs₀
    | exact Only.sub hL (by decide)
    | apply State.setConc_only
    | apply State.put_only
    | apply State.putB_only
    | apply State.countGlean_only
    | apply State.Only.ite
    | split
    | dsimp only)
theorem State.gleanReads_only {L : Nat} {s₀ s : State} (hs₀ : s₀.Only L s) (c : Conc) (g : Glean) (n : Nat) (reads :
    GleanReads) (hL : 8804692161624 &&& L = 8804692161624) : s₀.Only L (State.gleanReads s c g n reads) := by
  unfold State.gleanReads
  repeat (with_reducible first
    | exact hs₀
    | exact Only.sub hL (by decide)
    | apply State.readUnits_only
    | apply State.countRead_only
    | apply State.Only.ite
    | refine State.Only.each ?_ ?_ <;> [(intro u x₁ hs₀; try dsimp only); skip]
    | split
    | dsimp only)
theorem State.gleanForm_only {L : Nat} {s₀ s : State} (hs₀ : s₀.Only L s) (c : Conc) (reads : GleanReads) (at_ :
    Nat) (hL : 8804692161625 &&& L = 8804692161625) : s₀.Only L (State.gleanForm s c reads at_) := by
  unfold State.gleanForm
  repeat (with_reducible first
    | exact hs₀
    | exact Only.sub hL (by decide)
    | apply State.advance_only
    | apply State.gleanReads_only
    | apply State.served_only
    | apply State.formGlean_only
    | apply State.Only.ite
    | split
    | dsimp only)
theorem State.showResend_only {L : Nat} {s₀ s : State} (hs₀ : s₀.Only L s) (c : Conc) (hL : 24 &&& L = 24) : s₀.Only
    L (State.showResend s c) := by
  unfold State.showResend
  repeat (with_reducible first
    | exact hs₀
    | exact Only.sub hL (by decide)
    | apply State.put_only
    | apply State.putB_only
    | split
    | dsimp only)
theorem State.resendSheaf_only {L : Nat} {s₀ s : State} (hs₀ : s₀.Only L s) (c : Conc) (reads : Reads) (at_ : Nat)
    (hL : 8804692161625 &&& L = 8804692161625) : s₀.Only L (State.resendSheaf s c reads at_) := by
  unfold State.resendSheaf
  repeat (with_reducible first
    | exact hs₀
    | exact Only.sub hL (by decide)
    | apply State.advance_only
    | apply State.sheafRead_only
    | apply State.served_only
    | apply State.setConc_only
    | apply State.showResend_only
    | apply State.bump_only
    | apply State.Only.ite
    | split
    | dsimp only)

/-! Scrub.lean -/

theorem State.clearSummary_only {L : Nat} {s₀ s : State} (hs₀ : s₀.Only L s) (page : Nat) (hL : 24 &&& L = 24) :
    s₀.Only L (State.clearSummary s page) := by
  unfold State.clearSummary
  repeat (with_reducible first | exact hs₀ | exact Only.sub hL (by decide) | apply State.put_only)
theorem State.scrubGo_only {L : Nat} {s₀ s : State} (hs₀ : s₀.Only L s) (p : IntPage) (hL : 524312 &&& L = 524312) :
    s₀.Only L (State.scrubGo s p) := by
  unfold State.scrubGo
  repeat (with_reducible first
    | exact hs₀
    | exact Only.sub hL (by decide)
    | apply State.clearSummary_only
    | apply State.putB_only
    | apply State.Only.ite
    | split
    | refine State.Only.of ?_ (scrubs := .inl (Only.bit hL (by decide)))
    | dsimp only)
theorem State.noteFail_only {L : Nat} {s₀ s : State} (hs₀ : s₀.Only L s) (page addr : Nat) (hL : 24 &&& L = 24) :
    s₀.Only L (State.noteFail s page addr) := by
  unfold State.noteFail
  repeat (with_reducible first
    | exact hs₀
    | exact Only.sub hL (by decide)
    | apply State.put_only
    | apply State.putB_only
    | apply State.Only.ite
    | split
    | dsimp only)
theorem State.rememberWriteBack_only {L : Nat} {s₀ s : State} (hs₀ : s₀.Only L s) (page r addr : Nat) (hL : 1048576
    &&& L = 1048576) : s₀.Only L (State.rememberWriteBack s page r addr) := by
  unfold State.rememberWriteBack
  repeat (with_reducible first
    | exact hs₀
    | exact Only.sub hL (by decide)
    | refine State.Only.of ?_ (writeBacks := .inl (Only.bit hL (by decide)))
    | dsimp only)
theorem State.scrubPoison_only {L : Nat} {s₀ s : State} (hs₀ : s₀.Only L s) (p : IntPage) (mem addr : Nat) (hL :
    17179869183 &&& L = 17179869183) : s₀.Only L (State.scrubPoison s p mem addr) := by
  unfold State.scrubPoison
  repeat (with_reducible first
    | exact hs₀
    | exact Only.sub hL (by decide)
    | apply State.poisonEntry_only
    | apply State.setConc_only
    | apply State.poisoned_only
    | apply State.poisonTac_only
    | apply State.poisonJournal_only
    | apply State.restartCore_only
    | apply State.poisonMram_only
    | apply State.Only.ite
    | split)
theorem State.scrubOpens_only {L : Nat} {s₀ s : State} (hs₀ : s₀.Only L s) (p : IntPage) (mem addr : Nat) (hL :
    24576 &&& L = 24576) : s₀.Only L (State.scrubOpens s p mem addr) := by
  unfold State.scrubOpens
  repeat (with_reducible first
    | exact hs₀
    | exact Only.sub hL (by decide)
    | apply State.setConc_only
    | apply State.Only.ite
    | split)
theorem State.scrubRead_only {L : Nat} {s₀ s : State} (hs₀ : s₀.Only L s) (p : IntPage) (mem addr : Nat) (x :
    ScrubRead) (hL : 17179869183 &&& L = 17179869183) : s₀.Only L (State.scrubRead s p mem addr x) := by
  unfold State.scrubRead
  repeat (with_reducible first
    | exact hs₀
    | exact Only.sub hL (by decide)
    | apply State.scrubOpens_only
    | apply State.correctedRead_only
    | apply State.noteFail_only
    | apply State.put_only
    | apply State.rememberWriteBack_only
    | apply State.countCorrected_only
    | apply State.markSticky_only
    | apply State.uncorrectableRead_only
    | apply State.scrubPoison_only
    | apply State.Only.ite
    | split
    | dsimp only)
theorem State.scrubEnd_only {L : Nat} {s₀ s : State} (hs₀ : s₀.Only L s) (page : Nat) (hL : 524376 &&& L = 524376) :
    s₀.Only L (State.scrubEnd s page) := by
  unfold State.scrubEnd
  repeat (with_reducible first
    | exact hs₀
    | exact Only.sub hL (by decide)
    | apply State.putB_only
    | apply State.event_only
    | refine State.Only.of ?_ (scrubs := .inl (Only.bit hL (by decide))))
theorem State.scrubServed_only {L : Nat} {s₀ s : State} (hs₀ : s₀.Only L s) (p : IntPage) (mem : Nat) (hL : 24576
    &&& L = 24576) : s₀.Only L (State.scrubServed s p mem) := by
  unfold State.scrubServed
  repeat (with_reducible first
    | exact hs₀
    | exact Only.sub hL (by decide)
    | apply State.served_only
    | apply State.Only.ite
    | split)
theorem State.scrubWord_only {L : Nat} {s₀ s : State} (hs₀ : s₀.Only L s) (p : IntPage) (read : ScrubRead) (at_ :
    Nat) (hL : 17179869183 &&& L = 17179869183) : s₀.Only L (State.scrubWord s p read at_) := by
  unfold State.scrubWord
  repeat (with_reducible first
    | exact hs₀
    | exact Only.sub hL (by decide)
    | apply State.advance_only
    | apply State.scrubServed_only
    | apply State.scrubRead_only
    | apply State.put_only
    | apply State.scrubEnd_only
    | apply State.Only.ite
    | split
    | refine State.Only.of ?_ (scrubs := .inl (Only.bit hL (by decide)))
    | dsimp only)
theorem State.bucketLeak_only {L : Nat} {s₀ s : State} (hs₀ : s₀.Only L s) (p : IntPage) (r at_ : Nat) (hL : 2097177
    &&& L = 2097177) : s₀.Only L (State.bucketLeak s p r at_) := by
  unfold State.bucketLeak
  repeat (with_reducible first
    | exact hs₀
    | exact Only.sub hL (by decide)
    | apply State.advance_only
    | apply State.put_only
    | apply State.Only.ite
    | split
    | refine State.Only.of ?_ (integ := .inl (Only.bit hL (by decide)))
    | dsimp only)
theorem State.threshChanged_only {L : Nat} {s₀ s : State} (hs₀ : s₀.Only L s) (page r : Nat) (hL : 72 &&& L = 72) :
    s₀.Only L (State.threshChanged s page r) := by
  unfold State.threshChanged
  repeat (with_reducible first | exact hs₀ | exact Only.sub hL (by decide) | apply State.eventIf_only)
theorem State.tmrRefresh_only {L : Nat} {s₀ s : State} (hs₀ : s₀.Only L s) (d : Die) (regs : List (BitVec 28)) (hL :
    262232 &&& L = 262232) : s₀.Only L (State.tmrRefresh s d regs) := by
  unfold State.tmrRefresh
  repeat (with_reducible first
    | exact hs₀
    | exact Only.sub hL (by decide)
    | apply State.countCorrected_only
    | apply State.Only.ite
    | refine State.Only.each ?_ ?_ <;> [(intro u x₁ hs₀; try dsimp only); skip]
    | split
    | dsimp only)
theorem State.faultClr_only {L : Nat} {s₀ s : State} (hs₀ : s₀.Only L s) (page : Nat) (hL : 24 &&& L = 24) : s₀.Only
    L (State.faultClr s page) := by
  unfold State.faultClr
  repeat (with_reducible first
    | exact hs₀
    | exact Only.sub hL (by decide)
    | apply State.put_only
    | apply State.showRemap_only
    | apply State.Only.ite
    | refine State.Only.each ?_ ?_ <;> [(intro u x₁ hs₀; try dsimp only); skip]
    | split)

/-! Lanes.lean -/

theorem State.putLaneBit_only {L : Nat} {s₀ s : State} (hs₀ : s₀.Only L s) (c : Conc) (lo hi : FieldRef) (l : Nat)
    (b : Bool) (hL : 24 &&& L = 24) : s₀.Only L (State.putLaneBit s c lo hi l b) := by
  unfold State.putLaneBit
  repeat (with_reducible first
    | exact hs₀
    | exact Only.sub hL (by decide)
    | apply State.putB_only
    | apply State.Only.ite
    | split)
theorem State.putLaneState_only {L : Nat} {s₀ s : State} (hs₀ : s₀.Only L s) (c : Conc) (l st : Nat) (hL : 24 &&& L
    = 24) : s₀.Only L (State.putLaneState s c l st) := by
  unfold State.putLaneState
  repeat (with_reducible first | exact hs₀ | exact Only.sub hL (by decide) | apply State.put_only)
theorem State.showLane_only {L : Nat} {s₀ s : State} (hs₀ : s₀.Only L s) (c : Conc) (l : Nat) (hL : 24 &&& L = 24) :
    s₀.Only L (State.showLane s c l) := by
  unfold State.showLane
  repeat (with_reducible first
    | exact hs₀
    | exact Only.sub hL (by decide)
    | apply State.putB_only
    | apply State.putLaneBit_only
    | dsimp only)
theorem State.showDriving_only {L : Nat} {s₀ s : State} (hs₀ : s₀.Only L s) (c : Conc) (hL : 24 &&& L = 24) :
    s₀.Only L (State.showDriving s c) := by
  unfold State.showDriving
  repeat (with_reducible first | exact hs₀ | exact Only.sub hL (by decide) | apply State.putB_only)
theorem State.forceIdle_only {L : Nat} {s₀ s : State} (hs₀ : s₀.Only L s) (c : Conc) (hL : 24600 &&& L = 24600) :
    s₀.Only L (State.forceIdle s c) := by
  unfold State.forceIdle
  repeat (with_reducible first
    | exact hs₀
    | exact Only.sub hL (by decide)
    | apply State.putLaneState_only
    | apply State.setConc_only
    | apply State.Only.ite
    | refine State.Only.each ?_ ?_ <;> [(intro u x₁ hs₀; try dsimp only); skip]
    | split
    | dsimp only)
theorem State.laneExit_only {L : Nat} {s₀ s : State} (hs₀ : s₀.Only L s) (c : Conc) (l at_ : Nat) (hL : 24601 &&& L
    = 24601) : s₀.Only L (State.laneExit s c l at_) := by
  unfold State.laneExit
  repeat (with_reducible first
    | exact hs₀
    | exact Only.sub hL (by decide)
    | apply State.advance_only
    | apply State.putLaneState_only
    | apply State.setConc_only
    | apply State.bump_only
    | apply State.Only.ite
    | split
    | dsimp only)
theorem State.laneFault_only {L : Nat} {s₀ s : State} (hs₀ : s₀.Only L s) (c : Conc) (l : Nat) (pll : Bool) (hL : 88
    &&& L = 88) : s₀.Only L (State.laneFault s c l pll) := by
  unfold State.laneFault
  repeat (with_reducible first
    | exact hs₀
    | exact Only.sub hL (by decide)
    | apply State.putB_only
    | apply State.putLaneBit_only
    | apply State.showLane_only
    | apply State.bump_only
    | apply State.event_only
    | apply State.eventIf_only
    | apply State.Only.ite
    | split
    | dsimp only)
theorem State.laneFaultEnd_only {L : Nat} {s₀ s : State} (hs₀ : s₀.Only L s) (c : Conc) (l : Nat) (hL : 24 &&& L =
    24) : s₀.Only L (State.laneFaultEnd s c l) := by
  unfold State.laneFaultEnd
  repeat (with_reducible first
    | exact hs₀
    | exact Only.sub hL (by decide)
    | apply State.putB_only
    | apply State.putLaneBit_only
    | apply State.showLane_only
    | apply State.Only.ite
    | split
    | dsimp only)
theorem State.startLanes_only {L : Nat} {s₀ s : State} (hs₀ : s₀.Only L s) (c : Conc) (board : Nat) (table : Option
    (List Word)) (hL : 88 &&& L = 88) : s₀.Only L (State.startLanes s c board table) := by
  unfold State.startLanes
  repeat (with_reducible first
    | exact hs₀
    | exact Only.sub hL (by decide)
    | apply State.put_only
    | apply State.putB_only
    | apply State.eventIf_only
    | apply State.showLane_only
    | refine State.Only.each ?_ ?_ <;> [(intro u x₁ hs₀; try dsimp only); skip]
    | dsimp only)
theorem State.checked_only {L : Nat} {s₀ s : State} (hs₀ : s₀.Only L s) (c : Conc) (l : Nat) (x0 : CheckStep) (hL :
    88 &&& L = 88) : s₀.Only L (State.checked s c l x0) := by
  unfold State.checked
  repeat (with_reducible first
    | exact hs₀
    | exact Only.sub hL (by decide)
    | apply State.putB_only
    | apply State.bump64_only
    | apply State.bump_only
    | apply State.event_only
    | apply State.Only.ite
    | split
    | dsimp only)
theorem State.testBit_only {L : Nat} {s₀ s : State} (hs₀ : s₀.Only L s) (c : Conc) (l : Nat) (err : Bool) (hL :
    24664 &&& L = 24664) : s₀.Only L (State.testBit s c l err) := by
  unfold State.testBit
  repeat (with_reducible first
    | exact hs₀
    | exact Only.sub hL (by decide)
    | apply State.setConc_only
    | apply State.checked_only
    | apply State.Only.ite
    | split
    | dsimp only)
theorem State.testRun_only {L : Nat} {s₀ s : State} (hs₀ : s₀.Only L s) (c : Conc) (l bits : Nat) (errs : List Nat)
    (hL : 24664 &&& L = 24664) : s₀.Only L (State.testRun s c l bits errs) := by
  unfold State.testRun
  repeat (with_reducible first
    | exact hs₀
    | exact Only.sub hL (by decide)
    | apply State.testBit_only
    | apply State.Only.ite
    | refine State.Only.each ?_ ?_ <;> [(intro u x₁ hs₀; try dsimp only); skip]
    | split)
theorem State.testChanged_only {L : Nat} {s₀ s : State} (hs₀ : s₀.Only L s) (c : Conc) (l : Nat) (hL : 8796093046808
    &&& L = 8796093046808) : s₀.Only L (State.testChanged s c l) := by
  unfold State.testChanged
  repeat (with_reducible first
    | exact hs₀
    | exact Only.sub hL (by decide)
    | apply State.putLaneState_only
    | apply State.bump_only
    | apply State.draw_only
    | apply State.setConc_only
    | apply State.putB_only
    | apply State.showLane_only
    | apply State.Only.ite
    | split
    | dsimp only)
theorem State.endTest_only {L : Nat} {s₀ s : State} (hs₀ : s₀.Only L s) (c : Conc) (l : Nat) (hL : 8813272915992 &&&
    L = 8813272915992) : s₀.Only L (State.endTest s c l) := by
  unfold State.endTest
  repeat (with_reducible first
    | exact hs₀
    | exact Only.sub hL (by decide)
    | apply State.putB_only
    | apply State.testChanged_only
    | apply State.Only.ite
    | split
    | refine State.Only.of ?_ (saved := .inl (Only.bit hL (by decide)))
    | dsimp only)
theorem State.injOne_only {L : Nat} {s₀ s : State} (hs₀ : s₀.Only L s) (c : Conc) (l : Nat) (hL : 24576 &&& L =
    24576) : s₀.Only L (State.injOne s c l) := by
  unfold State.injOne
  repeat (with_reducible first
    | exact hs₀
    | exact Only.sub hL (by decide)
    | apply State.setConc_only
    | apply State.Only.ite
    | split)
theorem State.deliverMask_only {L : Nat} {s₀ s : State} (hs₀ : s₀.Only L s) (c : Conc) (hL : 8813272915992 &&& L =
    8813272915992) : s₀.Only L (State.deliverMask s c) := by
  unfold State.deliverMask
  repeat (with_reducible first
    | exact hs₀
    | exact Only.sub hL (by decide)
    | apply State.setConc_only
    | apply State.endTest_only
    | apply State.Only.ite
    | refine State.Only.each ?_ ?_ <;> [(intro u x₁ hs₀; try dsimp only); skip]
    | split
    | dsimp only)
theorem State.takeMask_only {L : Nat} {s₀ s : State} (hs₀ : s₀.Only L s) (c : Conc) (hL : 24600 &&& L = 24600) :
    s₀.Only L (State.takeMask s c) := by
  unfold State.takeMask
  repeat (with_reducible first
    | exact hs₀
    | exact Only.sub hL (by decide)
    | apply State.setConc_only
    | apply State.putLaneState_only
    | apply State.Only.ite
    | refine State.Only.each ?_ ?_ <;> [(intro u x₁ hs₀; try dsimp only); skip]
    | split
    | dsimp only)
theorem State.restMask_only {L : Nat} {s₀ s : State} (hs₀ : s₀.Only L s) (c : Conc) (hL : 24600 &&& L = 24600) :
    s₀.Only L (State.restMask s c) := by
  unfold State.restMask
  repeat (with_reducible first
    | exact hs₀
    | exact Only.sub hL (by decide)
    | apply State.takeMask_only
    | apply State.Only.ite
    | split)
theorem State.loadMask_only {L : Nat} {s₀ s : State} (hs₀ : s₀.Only L s) (c : Conc) (m : BitVec 64) (hL : 24600 &&&
    L = 24600) : s₀.Only L (State.loadMask s c m) := by
  unfold State.loadMask
  repeat (with_reducible first
    | exact hs₀
    | exact Only.sub hL (by decide)
    | apply State.setConc_only
    | apply State.put_only
    | apply State.showLane_only
    | refine State.Only.each ?_ ?_ <;> [(intro u x₁ hs₀; try dsimp only); skip]
    | dsimp only)
theorem State.maskLoad_only {L : Nat} {s₀ s : State} (hs₀ : s₀.Only L s) (hL : 24664 &&& L = 24664) : s₀.Only L
    (State.maskLoad s) := by
  unfold State.maskLoad
  repeat (with_reducible first
    | exact hs₀
    | exact Only.sub hL (by decide)
    | apply State.loadMask_only
    | apply State.event_only
    | apply State.restMask_only
    | refine State.Only.each ?_ ?_ <;> [(intro u x₁ hs₀; try dsimp only); skip]
    | split)
theorem State.restoreLanes_only {L : Nat} {s₀ s : State} (hs₀ : s₀.Only L s) (c : Conc) (hL : 8813272915992 &&& L =
    8813272915992) : s₀.Only L (State.restoreLanes s c) := by
  unfold State.restoreLanes
  repeat (with_reducible first
    | exact hs₀
    | exact Only.sub hL (by decide)
    | apply State.loadMask_only
    | apply State.endTest_only
    | apply State.testChanged_only
    | apply State.Only.ite
    | refine State.Only.each ?_ ?_ <;> [(intro u x₁ hs₀; try dsimp only); skip]
    | split
    | dsimp only)

/-! Output.lean -/

theorem State.startsWith_only {L : Nat} {s₀ s : State} (hs₀ : s₀.Only L s) (c : Conc) (k : GrainClass) (d : Dealing)
    (hL : 24600 &&& L = 24600) : s₀.Only L (State.startsWith s c k d) := by
  unfold State.startsWith
  repeat (with_reducible first
    | exact hs₀
    | exact Only.sub hL (by decide)
    | apply State.setConc_only
    | apply State.put_only
    | apply State.Only.ite
    | split
    | dsimp only)
theorem State.driveGrain_only {L : Nat} {s₀ s : State} (hs₀ : s₀.Only L s) (c : Conc) (lane : Nat) (g : List Byte)
    (hL : 24600 &&& L = 24600) : s₀.Only L (State.driveGrain s c lane g) := by
  unfold State.driveGrain
  repeat (with_reducible first
    | exact hs₀
    | exact Only.sub hL (by decide)
    | apply State.setConc_only
    | apply State.bump64_only
    | apply State.Only.ite
    | split
    | dsimp only)
theorem State.countGrain_only {L : Nat} {s₀ s : State} (hs₀ : s₀.Only L s) (c : Conc) (k : GrainClass) (lane : Nat)
    (hL : 24576 &&& L = 24576) : s₀.Only L (State.countGrain s c k lane) := by
  unfold State.countGrain
  repeat (with_reducible first | exact hs₀ | exact Only.sub hL (by decide) | apply State.setConc_only | dsimp only)
theorem State.queueGrain_only {L : Nat} {s₀ s : State} (hs₀ : s₀.Only L s) (c : Conc) (reads : Reads) (hL : 286808
    &&& L = 286808) : s₀.Only L (State.queueGrain s c reads) := by
  unfold State.queueGrain
  repeat (with_reducible first
    | exact hs₀
    | exact Only.sub hL (by decide)
    | apply State.countRead_only
    | apply State.enterSpill_only
    | apply State.setConc_only
    | apply State.Only.ite
    | refine State.Only.each ?_ ?_ <;> [(intro u x₁ hs₀; try dsimp only); skip]
    | split
    | dsimp only)
theorem State.passOver_only {L : Nat} {s₀ s : State} (hs₀ : s₀.Only L s) (c : Conc) (hL : 24664 &&& L = 24664) :
    s₀.Only L (State.passOver s c) := by
  unfold State.passOver
  repeat (with_reducible first
    | exact hs₀
    | exact Only.sub hL (by decide)
    | apply State.skipUnsent_only
    | apply State.setConc_only
    | apply State.modeReturn_only
    | apply State.showBacklog_only
    | apply State.Only.ite
    | split
    | dsimp only)
theorem State.readStream_only {L : Nat} {s₀ s : State} (hs₀ : s₀.Only L s) (c : Conc) (m : SheafMeta) (k : Nat)
    (units : Reads) (hL : 8804692161624 &&& L = 8804692161624) : s₀.Only L (State.readStream s c m k units) := by
  unfold State.readStream
  repeat (with_reducible first
    | exact hs₀
    | exact Only.sub hL (by decide)
    | apply State.sheafRead_only
    | apply State.served_only
    | apply State.setConc_only
    | apply State.Only.ite
    | split
    | dsimp only)
theorem State.beginStream_only {L : Nat} {s₀ s : State} (hs₀ : s₀.Only L s) (c : Conc) (units : Reads) (hL :
    8804692161624 &&& L = 8804692161624) : s₀.Only L (State.beginStream s c units) := by
  unfold State.beginStream
  repeat (with_reducible first
    | exact hs₀
    | exact Only.sub hL (by decide)
    | apply State.setConc_only
    | apply State.passOver_only
    | apply State.readStream_only
    | apply State.Only.ite
    | split
    | dsimp only)
theorem State.rereadStream_only {L : Nat} {s₀ s : State} (hs₀ : s₀.Only L s) (c : Conc) (units : Reads) (hL :
    8804692161624 &&& L = 8804692161624) : s₀.Only L (State.rereadStream s c units) := by
  unfold State.rereadStream
  repeat (with_reducible first
    | exact hs₀
    | exact Only.sub hL (by decide)
    | apply State.readStream_only
    | apply State.Only.ite
    | split)
theorem State.streamSheaf_only {L : Nat} {s₀ s : State} (hs₀ : s₀.Only L s) (c : Conc) (reads : GrainReads) (hL :
    8804692161624 &&& L = 8804692161624) : s₀.Only L (State.streamSheaf s c reads) := by
  unfold State.streamSheaf
  repeat (with_reducible first
    | exact hs₀
    | exact Only.sub hL (by decide)
    | apply State.beginStream_only
    | apply State.queueGrain_only
    | apply State.rereadStream_only
    | apply State.Only.ite
    | split
    | dsimp only)
theorem State.streamSent_only {L : Nat} {s₀ s : State} (hs₀ : s₀.Only L s) (c : Conc) (d : Dealing) (hL : 24664 &&&
    L = 24664) : s₀.Only L (State.streamSent s c d) := by
  unfold State.streamSent
  repeat (with_reducible first
    | exact hs₀
    | exact Only.sub hL (by decide)
    | apply State.setConc_only
    | apply State.modeReturn_only
    | apply State.showBacklog_only
    | apply State.Only.ite
    | split
    | dsimp only)
theorem State.dealStream_only {L : Nat} {s₀ s : State} (hs₀ : s₀.Only L s) (c : Conc) (reads : GrainReads) (hL :
    8804692161624 &&& L = 8804692161624) : s₀.Only L (State.dealStream s c reads) := by
  unfold State.dealStream
  repeat (with_reducible first
    | exact hs₀
    | exact Only.sub hL (by decide)
    | apply State.streamSheaf_only
    | apply State.takeMask_only
    | apply State.setConc_only
    | apply State.countGrain_only
    | apply State.startsWith_only
    | apply State.driveGrain_only
    | apply State.streamSent_only
    | apply State.restMask_only
    | apply State.Only.ite
    | split
    | dsimp only)
theorem State.gleanDone_only {L : Nat} {s₀ s : State} (hs₀ : s₀.Only L s) (c : Conc) (num : Nat) (hL : 24600 &&& L =
    24600) : s₀.Only L (State.gleanDone s c num) := by
  unfold State.gleanDone
  repeat (with_reducible first
    | exact hs₀
    | exact Only.sub hL (by decide)
    | apply State.setConc_only
    | apply State.put_only
    | apply State.Only.ite
    | split
    | dsimp only)
theorem State.dealGlean_only {L : Nat} {s₀ s : State} (hs₀ : s₀.Only L s) (c : Conc) (hL : 24600 &&& L = 24600) :
    s₀.Only L (State.dealGlean s c) := by
  unfold State.dealGlean
  repeat (with_reducible first
    | exact hs₀
    | exact Only.sub hL (by decide)
    | apply State.setConc_only
    | apply State.countGrain_only
    | apply State.driveGrain_only
    | apply State.gleanDone_only
    | split
    | dsimp only)
theorem State.dealResend_only {L : Nat} {s₀ s : State} (hs₀ : s₀.Only L s) (c : Conc) (hL : 24600 &&& L = 24600) :
    s₀.Only L (State.dealResend s c) := by
  unfold State.dealResend
  repeat (with_reducible first
    | exact hs₀
    | exact Only.sub hL (by decide)
    | apply State.setConc_only
    | apply State.countGrain_only
    | apply State.driveGrain_only
    | apply State.showResend_only
    | split
    | dsimp only)
theorem State.dealGrain_only {L : Nat} {s₀ s : State} (hs₀ : s₀.Only L s) (c : Conc) (reads : GrainReads) (at_ :
    Nat) (hL : 8804692161625 &&& L = 8804692161625) : s₀.Only L (State.dealGrain s c reads at_) := by
  unfold State.dealGrain
  repeat (with_reducible first
    | exact hs₀
    | exact Only.sub hL (by decide)
    | apply State.advance_only
    | apply State.dealStream_only
    | apply State.dealGlean_only
    | apply State.dealResend_only
    | apply State.Only.ite
    | split
    | dsimp only)
theorem State.takeStart_only {L : Nat} {s₀ s : State} (hs₀ : s₀.Only L s) (c : Conc) (hL : 24664 &&& L = 24664) :
    s₀.Only L (State.takeStart s c) := by
  unfold State.takeStart
  repeat (with_reducible first
    | exact hs₀
    | exact Only.sub hL (by decide)
    | apply State.setConc_only
    | apply State.put_only
    | apply State.event_only
    | apply State.Only.ite
    | split
    | dsimp only)

/-! InStep.lean -/

theorem State.recordMismatch_only {L : Nat} {s₀ s : State} (hs₀ : s₀.Only L s) (c : Conc) (n : Nat) (own part :
    BitVec 64) (hL : 24 &&& L = 24) : s₀.Only L (State.recordMismatch s c n own part) := by
  unfold State.recordMismatch
  repeat (with_reducible first
    | exact hs₀
    | exact Only.sub hL (by decide)
    | apply State.bump_only
    | apply State.put_only
    | dsimp only)
theorem State.startEpisode_only {L : Nat} {s₀ s : State} (hs₀ : s₀.Only L s) (c : Conc) (n : Nat) (hL : 8589959256
    &&& L = 8589959256) : s₀.Only L (State.startEpisode s c n) := by
  unfold State.startEpisode
  repeat (with_reducible first
    | exact hs₀
    | exact Only.sub hL (by decide)
    | apply State.setPair_only
    | apply State.put_only
    | apply State.bump_only
    | apply State.event_only
    | apply State.setConc_only
    | apply State.journalEvent_only
    | apply State.Only.ite
    | split
    | dsimp only)
theorem State.endEpisode_only {L : Nat} {s₀ s : State} (hs₀ : s₀.Only L s) (c : Conc) (hL : 8589959256 &&& L =
    8589959256) : s₀.Only L (State.endEpisode s c) := by
  unfold State.endEpisode
  repeat (with_reducible first
    | exact hs₀
    | exact Only.sub hL (by decide)
    | apply State.setPair_only
    | apply State.event_only
    | apply State.setConc_only
    | apply State.journalEvent_only
    | apply State.Only.ite
    | split
    | dsimp only)
theorem State.completeJoin_only {L : Nat} {s₀ s : State} (hs₀ : s₀.Only L s) (c : Conc) (n : Nat) (same : Bool) (own
    part : BitVec 64) (hL : 8589959256 &&& L = 8589959256) : s₀.Only L (State.completeJoin s c n same own part) := by
  unfold State.completeJoin
  repeat (with_reducible first
    | exact hs₀
    | exact Only.sub hL (by decide)
    | apply State.setConc_only
    | apply State.event_only
    | apply State.setPair_only
    | apply State.recordMismatch_only
    | apply State.startEpisode_only
    | apply State.Only.ite
    | split
    | dsimp only)
theorem State.compareOne_only {L : Nat} {s₀ s : State} (hs₀ : s₀.Only L s) (c : Conc) (o p : CrossMsg) (hL :
    8589959256 &&& L = 8589959256) : s₀.Only L (State.compareOne s c o p) := by
  unfold State.compareOne
  repeat (with_reducible first
    | exact hs₀
    | exact Only.sub hL (by decide)
    | apply State.recordMismatch_only
    | apply State.startEpisode_only
    | apply State.setConc_only
    | apply State.endEpisode_only
    | apply State.completeJoin_only
    | apply State.Only.ite
    | split
    | dsimp only)
theorem State.compareAll_only {L : Nat} {s₀ s : State} (hs₀ : s₀.Only L s) (c : Conc) (hL : 8589959256 &&& L =
    8589959256) : s₀.Only L (State.compareAll s c) := by
  unfold State.compareAll
  repeat (with_reducible first
    | exact hs₀
    | exact Only.sub hL (by decide)
    | apply State.setConc_only
    | apply State.compareOne_only
    | refine State.Only.each ?_ ?_ <;> [(intro u x₁ hs₀; try dsimp only); skip]
    | dsimp only)
theorem State.takeMessage_only {L : Nat} {s₀ s : State} (hs₀ : s₀.Only L s) (c : Conc) (hL : 8589959256 &&& L =
    8589959256) : s₀.Only L (State.takeMessage s c) := by
  unfold State.takeMessage
  repeat (with_reducible first
    | exact hs₀
    | exact Only.sub hL (by decide)
    | apply State.setConc_only
    | apply State.partnerLost_only
    | apply State.compareAll_only
    | apply State.Only.ite
    | split
    | dsimp only)
theorem State.toll_only {L : Nat} {s₀ s : State} (hs₀ : s₀.Only L s) (c : Conc) (hL : 24600 &&& L = 24600) : s₀.Only
    L (State.toll s c) := by
  unfold State.toll
  repeat (with_reducible first
    | exact hs₀
    | exact Only.sub hL (by decide)
    | apply State.setConc_only
    | apply State.putB_only
    | apply State.showElig_only
    | apply State.bump_only
    | apply State.Only.ite
    | split
    | dsimp only)
theorem State.setDeadline_only {L : Nat} {s₀ s : State} (hs₀ : s₀.Only L s) (c : Conc) (d : Nat) (hL : 4218904 &&& L
    = 4218904) : s₀.Only L (State.setDeadline s c d) := by
  unfold State.setDeadline
  repeat (with_reducible first
    | exact hs₀
    | exact Only.sub hL (by decide)
    | apply State.put_only
    | apply State.setConc_only
    | refine State.Only.of ?_ (stick := .inl (Only.bit hL (by decide)))
    | dsimp only)
theorem State.grant_only {L : Nat} {s₀ s : State} (hs₀ : s₀.Only L s) (c : Conc) (hL : 4218968 &&& L = 4218968) :
    s₀.Only L (State.grant s c) := by
  unfold State.grant
  repeat (with_reducible first
    | exact hs₀
    | exact Only.sub hL (by decide)
    | apply State.put_only
    | apply State.bump_only
    | apply State.event_only
    | apply State.setDeadline_only
    | apply State.putB_only
    | apply State.showDriving_only
    | refine State.Only.of ?_ (stick := .inl (Only.bit hL (by decide)))
    | dsimp only)
theorem State.enterGuard_only {L : Nat} {s₀ s : State} (hs₀ : s₀.Only L s) (c : Conc) (t : Nat) (hL : 4218904 &&& L
    = 4218904) : s₀.Only L (State.enterGuard s c t) := by
  unfold State.enterGuard
  repeat (with_reducible first
    | exact hs₀
    | exact Only.sub hL (by decide)
    | apply State.put_only
    | apply State.putB_only
    | apply State.showDriving_only
    | apply State.forceIdle_only
    | refine State.Only.of ?_ (stick := .inl (Only.bit hL (by decide)))
    | dsimp only)
theorem State.lapse_only {L : Nat} {s₀ s : State} (hs₀ : s₀.Only L s) (c : Conc) (hL : 8594153560 &&& L =
    8594153560) : s₀.Only L (State.lapse s c) := by
  unfold State.lapse
  repeat (with_reducible first
    | exact hs₀
    | exact Only.sub hL (by decide)
    | apply State.bump_only
    | apply State.put_only
    | apply State.event_only
    | apply State.journalEvent_only
    | apply State.enterGuard_only
    | refine State.Only.of ?_ (stick := .inl (Only.bit hL (by decide)))
    | dsimp only)
theorem State.leaseLapse_only {L : Nat} {s₀ s : State} (hs₀ : s₀.Only L s) (at_ : Nat) (hL : 8594153561 &&& L =
    8594153561) : s₀.Only L (State.leaseLapse s at_) := by
  unfold State.leaseLapse
  repeat (with_reducible first
    | exact hs₀
    | exact Only.sub hL (by decide)
    | apply State.advance_only
    | apply State.lapse_only
    | apply State.Only.ite
    | split)
theorem State.stickOutcome_only {L : Nat} {s₀ s : State} (hs₀ : s₀.Only L s) (x : StickCmd) (r : Nat) (hL :
    9395241048 &&& L = 9395241048) : s₀.Only L (State.stickOutcome s x r) := by
  unfold State.stickOutcome
  repeat (with_reducible first
    | exact hs₀
    | exact Only.sub hL (by decide)
    | apply State.bump_only
    | apply State.event_only
    | apply State.append_only
    | apply State.answerHeld_only
    | apply State.Only.ite
    | split
    | dsimp only)
theorem State.dropTarget_only {L : Nat} {s₀ s : State} (hs₀ : s₀.Only L s) (hL : 9399435352 &&& L = 9399435352) :
    s₀.Only L (State.dropTarget s) := by
  unfold State.dropTarget
  repeat (with_reducible first
    | exact hs₀
    | exact Only.sub hL (by decide)
    | apply State.stickOutcome_only
    | split
    | refine State.Only.of ?_ (stick := .inl (Only.bit hL (by decide))))
theorem State.hostGrant_only {L : Nat} {s₀ s : State} (hs₀ : s₀.Only L s) (x : StickCmd) (hL : 9399459928 &&& L =
    9399459928) : s₀.Only L (State.hostGrant s x) := by
  unfold State.hostGrant
  repeat (with_reducible first
    | exact hs₀
    | exact Only.sub hL (by decide)
    | apply State.dropTarget_only
    | apply State.stickOutcome_only
    | apply State.bump_only
    | apply State.enterGuard_only
    | apply State.grant_only
    | apply State.Only.ite
    | split
    | refine State.Only.of ?_ (stick := .inl (Only.bit hL (by decide)))
    | dsimp only)
theorem State.hostRevoke_only {L : Nat} {s₀ s : State} (hs₀ : s₀.Only L s) (x : StickCmd) (hL : 9399459928 &&& L =
    9399459928) : s₀.Only L (State.hostRevoke s x) := by
  unfold State.hostRevoke
  repeat (with_reducible first
    | exact hs₀
    | exact Only.sub hL (by decide)
    | apply State.stickOutcome_only
    | apply State.bump_only
    | apply State.enterGuard_only
    | apply State.dropTarget_only
    | apply State.Only.ite
    | split
    | refine State.Only.of ?_ (stick := .inl (Only.bit hL (by decide)))
    | dsimp only)
theorem State.stickCommand_only {L : Nat} {s₀ s : State} (hs₀ : s₀.Only L s) (x : StickCmd) (hL : 9399459928 &&& L =
    9399459928) : s₀.Only L (State.stickCommand s x) := by
  unfold State.stickCommand
  repeat (with_reducible first
    | exact hs₀
    | exact Only.sub hL (by decide)
    | apply State.hostGrant_only
    | apply State.hostRevoke_only
    | apply State.stickOutcome_only
    | apply State.Only.ite
    | split)
theorem State.autoGrant_only {L : Nat} {s₀ s : State} (hs₀ : s₀.Only L s) (hL : 4218968 &&& L = 4218968) : s₀.Only L
    (State.autoGrant s) := by
  unfold State.autoGrant
  repeat (with_reducible first
    | exact hs₀
    | exact Only.sub hL (by decide)
    | apply State.bump_only
    | apply State.grant_only
    | apply State.put_only
    | apply State.event_only
    | apply State.Only.ite
    | split
    | dsimp only)
theorem State.endGuard_only {L : Nat} {s₀ s : State} (hs₀ : s₀.Only L s) (hL : 9399459928 &&& L = 9399459928) :
    s₀.Only L (State.endGuard s) := by
  unfold State.endGuard
  repeat (with_reducible first
    | exact hs₀
    | exact Only.sub hL (by decide)
    | apply State.grant_only
    | apply State.stickOutcome_only
    | apply State.put_only
    | apply State.autoGrant_only
    | apply State.Only.ite
    | split
    | refine State.Only.of ?_ (stick := .inl (Only.bit hL (by decide)))
    | dsimp only)
theorem State.guardEndAt_only {L : Nat} {s₀ s : State} (hs₀ : s₀.Only L s) (at_ : Nat) (hL : 9399459929 &&& L =
    9399459929) : s₀.Only L (State.guardEndAt s at_) := by
  unfold State.guardEndAt
  repeat (with_reducible first
    | exact hs₀
    | exact Only.sub hL (by decide)
    | apply State.advance_only
    | apply State.endGuard_only
    | apply State.Only.ite
    | split)
theorem State.copyExpiry_only {L : Nat} {s₀ s : State} (hs₀ : s₀.Only L s) (c : Conc) (at_ : Nat) (hL : 24601 &&& L
    = 24601) : s₀.Only L (State.copyExpiry s c at_) := by
  unfold State.copyExpiry
  repeat (with_reducible first
    | exact hs₀
    | exact Only.sub hL (by decide)
    | apply State.advance_only
    | apply State.forceIdle_only
    | apply State.Only.ite
    | split)
theorem State.stickBoundary_only {L : Nat} {s₀ s : State} (hs₀ : s₀.Only L s) (f : Nat) (hL : 9399459929 &&& L =
    9399459929) : s₀.Only L (State.stickBoundary s f) := by
  unfold State.stickBoundary
  repeat (with_reducible first
    | exact hs₀
    | exact Only.sub hL (by decide)
    | apply State.guardEndAt_only
    | apply State.leaseLapse_only
    | apply State.toll_only
    | apply State.setDeadline_only
    | apply State.stickCommand_only
    | apply State.Only.ite
    | refine State.Only.each ?_ ?_ <;> [(intro u x₁ hs₀; try dsimp only); skip]
    | split
    | refine State.Only.of ?_ (stick := .inl (Only.bit hL (by decide)))
    | dsimp only)
theorem State.startGrant_only {L : Nat} {s₀ s : State} (hs₀ : s₀.Only L s) (hL : 4218968 &&& L = 4218968) : s₀.Only
    L (State.startGrant s) := by
  unfold State.startGrant
  repeat (with_reducible first
    | exact hs₀
    | exact Only.sub hL (by decide)
    | apply State.grant_only
    | apply State.Only.ite
    | split)
theorem State.showDies_only {L : Nat} {s₀ s : State} (hs₀ : s₀.Only L s) (hL : 24664 &&& L = 24664) : s₀.Only L
    (State.showDies s) := by
  unfold State.showDies
  repeat (with_reducible first
    | exact hs₀
    | exact Only.sub hL (by decide)
    | apply State.put_only
    | apply State.eventIf_only
    | apply State.testBit_only
    | apply State.Only.ite
    | split
    | dsimp only)
theorem State.resetConc_only {L : Nat} {s₀ s : State} (hs₀ : s₀.Only L s) (c : Conc) (hL : 12895941752 &&& L =
    12895941752) : s₀.Only L (State.resetConc s c) := by
  unfold State.resetConc
  repeat (with_reducible first
    | exact hs₀
    | exact Only.sub hL (by decide)
    | apply State.forgetFailure_only
    | apply State.forceIdle_only
    | apply State.sendCross_only
    | apply State.resetPages_only
    | apply State.put_only
    | apply State.wr_only
    | apply State.setConc_only
    | apply State.putB_only
    | apply State.showDies_only
    | apply State.checkSwap_only
    | apply State.Only.ite
    | refine State.Only.each ?_ ?_ <;> [(intro u x₁ hs₀; try dsimp only); skip]
    | split
    | refine State.Only.of ?_ (scrubs := .inl (Only.bit hL (by decide)))
    | dsimp only)
theorem State.queuePending_only {L : Nat} {s₀ s : State} (hs₀ : s₀.Only L s) (lo hi : Nat) (hL : 64 &&& L = 64) :
    s₀.Only L (State.queuePending s lo hi) := by
  unfold State.queuePending
  repeat (with_reducible first
    | exact hs₀
    | exact Only.sub hL (by decide)
    | apply State.queueEvent_only
    | apply State.Only.ite
    | refine State.Only.each ?_ ?_ <;> [(intro u x₁ hs₀; try dsimp only); skip]
    | split)
theorem State.loadSettings_only {L : Nat} {s₀ s : State} (hs₀ : s₀.Only L s) (lo hi : Nat) (hL : 72 &&& L = 72) :
    s₀.Only L (State.loadSettings s lo hi) := by
  unfold State.loadSettings
  repeat (with_reducible first
    | exact hs₀
    | exact Only.sub hL (by decide)
    | apply State.wr_only
    | apply State.queuePending_only
    | refine State.Only.each ?_ ?_ <;> [(intro u x₁ hs₀; try dsimp only); skip]
    | split
    | dsimp only)
theorem State.fillConc_only {L : Nat} {s₀ s : State} (hs₀ : s₀.Only L s) (c : Conc) (hL : 8821871506520 &&& L =
    8821871506520) : s₀.Only L (State.fillConc s c) := by
  unfold State.fillConc
  repeat (with_reducible first
    | exact hs₀
    | exact Only.sub hL (by decide)
    | apply State.setConc_only
    | apply State.trained_only
    | apply State.stageEntry_only
    | apply State.putB_only
    | apply State.showWbuf_only
    | apply State.loadClassK_only
    | apply State.loadSettings_only
    | apply State.showRetired_only
    | apply State.put_only
    | apply State.showDriving_only
    | apply State.showElig_only
    | apply State.govSettle_only
    | apply State.showStaged_only
    | apply State.showRemap_only
    | apply State.restoreLanes_only
    | apply State.showDies_only
    | apply State.checkSwap_only
    | apply State.Only.ite
    | refine State.Only.each ?_ ?_ <;> [(intro u x₁ hs₀; try dsimp only); skip]
    | split
    | refine State.Only.of ?_ (lastCorr := .inl (Only.bit hL (by decide)))
    | dsimp only)
theorem State.trainFilled_only {L : Nat} {s₀ s : State} (hs₀ : s₀.Only L s) (c : Conc) (hL : 8821871506520 &&& L =
    8821871506520) : s₀.Only L (State.trainFilled s c) := by
  unfold State.trainFilled
  repeat (with_reducible first
    | exact hs₀
    | exact Only.sub hL (by decide)
    | apply State.fillConc_only
    | apply State.trainStart_only
    | apply State.pinPoint_only)
theorem State.loadMram_only {L : Nat} {s₀ s : State} (hs₀ : s₀.Only L s) (l : Reads) (classKOk : Bool) (hL :
    17179869183 &&& L = 17179869183) : s₀.Only L (State.loadMram s l classKOk) := by
  unfold State.loadMram
  repeat (with_reducible first
    | exact hs₀
    | exact Only.sub hL (by decide)
    | apply State.readMram_only
    | apply State.classKUnread_only
    | apply State.Only.ite
    | split
    | dsimp only)
theorem State.bringUp_only {L : Nat} {s₀ s : State} (hs₀ : s₀.Only L s) (c : Conc) (board : Nat) (hL : 8821871506520
    &&& L = 8821871506520) : s₀.Only L (State.bringUp s c board) := by
  unfold State.bringUp
  repeat (with_reducible first
    | exact hs₀
    | exact Only.sub hL (by decide)
    | apply State.setConc_only
    | apply State.trainFilled_only
    | apply State.startLanes_only
    | apply State.put_only
    | dsimp only)
theorem State.rejoin_only {L : Nat} {s₀ s : State} (hs₀ : s₀.Only L s) (c : Conc) (start : ConcStart) (board : Nat)
    (hL : 8830452760575 &&& L = 8830452760575) : s₀.Only L (State.rejoin s c start board) := by
  unfold State.rejoin
  repeat (with_reducible first
    | exact hs₀
    | exact Only.sub hL (by decide)
    | apply State.concChecked_only
    | apply State.loadMram_only
    | apply State.bringUp_only
    | apply State.trainFilled_only
    | apply State.Only.ite
    | split
    | dsimp only)
theorem State.joinPartner_only {L : Nat} {s₀ s : State} (hs₀ : s₀.Only L s) (c : Conc) (j : Nat) (hL : 24600 &&& L =
    24600) : s₀.Only L (State.joinPartner s c j) := by
  unfold State.joinPartner
  repeat (with_reducible first
    | exact hs₀
    | exact Only.sub hL (by decide)
    | apply State.setConc_only
    | apply State.setPair_only
    | apply State.Only.ite
    | split
    | dsimp only)
theorem State.chooseJoin_only {L : Nat} {s₀ s : State} (hs₀ : s₀.Only L s) (c : Conc) (hL : 8598352984 &&& L =
    8598352984) : s₀.Only L (State.chooseJoin s c) := by
  unfold State.chooseJoin
  repeat (with_reducible first
    | exact hs₀
    | exact Only.sub hL (by decide)
    | apply State.put_only
    | apply State.setConc_only
    | apply State.setPair_only
    | apply State.joinPartner_only
    | apply State.checkSwap_only
    | refine State.Only.each ?_ ?_ <;> [(intro u x₁ hs₀; try dsimp only); skip]
    | dsimp only)
theorem State.joinSheafChoose_only {L : Nat} {s₀ s : State} (hs₀ : s₀.Only L s) (hL : 8598352984 &&& L = 8598352984)
    : s₀.Only L (State.joinSheafChoose s) := by
  unfold State.joinSheafChoose
  repeat (with_reducible first
    | exact hs₀
    | exact Only.sub hL (by decide)
    | apply State.chooseJoin_only
    | apply State.Only.ite
    | split)
theorem State.ackCutPorts_only {L : Nat} {s₀ s : State} (hs₀ : s₀.Only L s) (c : Conc) (hL : 280 &&& L = 280) :
    s₀.Only L (State.ackCutPorts s c) := by
  unfold State.ackCutPorts
  repeat (with_reducible first
    | exact hs₀
    | exact Only.sub hL (by decide)
    | apply State.setPort_only
    | apply State.put_only
    | apply State.Only.ite
    | refine State.Only.each ?_ ?_ <;> [(intro u x₁ hs₀; try dsimp only); skip]
    | split
    | dsimp only)
theorem State.ackJoiner_only {L : Nat} {s₀ s : State} (hs₀ : s₀.Only L s) (f : Nat) (c : Conc) (hL : 280 &&& L =
    280) : s₀.Only L (State.ackJoiner s f c) := by
  unfold State.ackJoiner
  repeat (with_reducible first
    | exact hs₀
    | exact Only.sub hL (by decide)
    | apply State.ackCutPorts_only
    | apply State.Only.ite
    | split)
theorem State.freshStatus_only {L : Nat} {s₀ s : State} (hs₀ : s₀.Only L s) (c : Conc) (hL : 24 &&& L = 24) :
    s₀.Only L (State.freshStatus s c) := by
  unfold State.freshStatus
  repeat (with_reducible first
    | exact hs₀
    | exact Only.sub hL (by decide)
    | apply State.put_only
    | apply State.putB_only
    | apply State.showResend_only
    | apply State.showBacklog_only
    | apply State.showLag_only
    | apply State.showWbuf_only
    | dsimp only)
theorem State.joinRx_only {L : Nat} {s₀ s : State} (hs₀ : s₀.Only L s) (c : Conc) (f : Nat) (t : Fin 16) (hL : 24576
    &&& L = 24576) : s₀.Only L (State.joinRx s c f t) := by
  unfold State.joinRx
  repeat (with_reducible first
    | exact hs₀
    | exact Only.sub hL (by decide)
    | apply State.setRx_only
    | apply State.Only.ite
    | split
    | dsimp only)
theorem State.joinBoundary_only {L : Nat} {s₀ s : State} (hs₀ : s₀.Only L s) (f : Nat) (c : Conc) (hL : 24600 &&& L
    = 24600) : s₀.Only L (State.joinBoundary s f c) := by
  unfold State.joinBoundary
  repeat (with_reducible first
    | exact hs₀
    | exact Only.sub hL (by decide)
    | apply State.setConc_only
    | apply State.joinRx_only
    | apply State.setPair_only
    | apply State.joinPartner_only
    | apply State.freshStatus_only
    | apply State.put_only
    | apply State.showReplayFrom_only
    | apply State.showShadowFrom_only
    | apply State.Only.ite
    | refine State.Only.each ?_ ?_ <;> [(intro u x₁ hs₀; try dsimp only); skip]
    | split
    | dsimp only)
theorem State.showPg_only {L : Nat} {s₀ s : State} (hs₀ : s₀.Only L s) (hL : 24 &&& L = 24) : s₀.Only L
    (State.showPg s) := by
  unfold State.showPg
  repeat (with_reducible first
    | exact hs₀
    | exact Only.sub hL (by decide)
    | apply State.put_only
    | apply State.putB_only
    | apply State.Only.ite
    | split
    | dsimp only)
theorem State.setRail_only {L : Nat} {s₀ s : State} (hs₀ : s₀.Only L s) (c : Conc) (on : Bool) (hL : 67108864 &&& L
    = 67108864) : s₀.Only L (State.setRail s c on) := by
  unfold State.setRail
  repeat (with_reducible first
    | exact hs₀
    | exact Only.sub hL (by decide)
    | split
    | refine State.Only.of ?_ (pow := .inl (Only.bit hL (by decide))))
theorem State.holdBoundary_only {L : Nat} {s₀ s : State} (hs₀ : s₀.Only L s) (c : Conc) (hL : 12963050616 &&& L =
    12963050616) : s₀.Only L (State.holdBoundary s c) := by
  unfold State.holdBoundary
  repeat (with_reducible first
    | exact hs₀
    | exact Only.sub hL (by decide)
    | apply State.resetConc_only
    | apply State.setRail_only
    | apply State.showPg_only
    | apply State.Only.ite
    | split
    | dsimp only)

/-! Cals.lean -/

theorem State.turnIfNone_only {L : Nat} {s₀ s : State} (hs₀ : s₀.Only L s) (hL : 8413208 &&& L = 8413208) : s₀.Only
    L (State.turnIfNone s) := by
  unfold State.turnIfNone
  repeat (with_reducible first
    | exact hs₀
    | exact Only.sub hL (by decide)
    | apply State.beginTurn_only
    | apply State.Only.ite
    | split)
theorem State.addHist_only {L : Nat} {s₀ s : State} (hs₀ : s₀.Only L s) (c : Conc) (t : Fin 16) (chan tap code :
    Nat) (hL : 24584 &&& L = 24584) : s₀.Only L (State.addHist s c t chan tap code) := by
  unfold State.addHist
  repeat (with_reducible first
    | exact hs₀
    | exact Only.sub hL (by decide)
    | apply State.setConc_only
    | apply State.overflow_only
    | apply State.Only.ite
    | split
    | dsimp only)
theorem State.launchAll_only {L : Nat} {s₀ s : State} (hs₀ : s₀.Only L s) (chans : List Nat) (tap : Nat) (hL :
    8388760 &&& L = 8388760) : s₀.Only L (State.launchAll s chans tap) := by
  unfold State.launchAll
  repeat (with_reducible first
    | exact hs₀
    | exact Only.sub hL (by decide)
    | apply State.launch_only
    | apply State.bump_only
    | apply State.Only.ite
    | refine State.Only.each ?_ ?_ <;> [(intro u x₁ hs₀; try dsimp only); skip]
    | split
    | refine State.Only.of ?_ (cal := .inl (Only.bit hL (by decide)))
    | dsimp only)
theorem State.launchScheduled_only {L : Nat} {s₀ s : State} (hs₀ : s₀.Only L s) (t b : Fin 16) (hL : 8388760 &&& L =
    8388760) : s₀.Only L (State.launchScheduled s t b) := by
  unfold State.launchScheduled
  repeat (with_reducible first
    | exact hs₀
    | exact Only.sub hL (by decide)
    | apply State.launchAll_only
    | apply State.Only.ite
    | split
    | dsimp only)
theorem State.injectionLaunch_only {L : Nat} {s₀ s : State} (hs₀ : s₀.Only L s) (t b : Fin 16) (hL : 8388760 &&& L =
    8388760) : s₀.Only L (State.injectionLaunch s t b) := by
  unfold State.injectionLaunch
  repeat (with_reducible first
    | exact hs₀
    | exact Only.sub hL (by decide)
    | apply State.putB_only
    | apply State.launchAll_only
    | apply State.launchScheduled_only
    | apply State.Only.ite
    | split
    | refine State.Only.of ?_ (cal := .inl (Only.bit hL (by decide)))
    | dsimp only)
theorem State.fire_only {L : Nat} {s₀ s : State} (hs₀ : s₀.Only L s) (page : Nat) (hL : 8388632 &&& L = 8388632) :
    s₀.Only L (State.fire s page) := by
  unfold State.fire
  repeat (with_reducible first
    | exact hs₀
    | exact Only.sub hL (by decide)
    | apply State.putB_only
    | apply State.Only.ite
    | split
    | refine State.Only.of ?_ (cal := .inl (Only.bit hL (by decide))))
theorem State.blindExpiry_only {L : Nat} {s₀ s : State} (hs₀ : s₀.Only L s) (chan t : Nat) (hL : 8388761 &&& L =
    8388761) : s₀.Only L (State.blindExpiry s chan t) := by
  unfold State.blindExpiry
  repeat (with_reducible first
    | exact hs₀
    | exact Only.sub hL (by decide)
    | apply State.advance_only
    | apply State.launchBlind_only
    | apply State.launch_only
    | apply State.endInject_only
    | apply State.Only.ite
    | split)
theorem State.includeRecord_only {L : Nat} {s₀ s : State} (hs₀ : s₀.Only L s) (c : Conc) (k : Capture) (code : Nat)
    (gen : Bool) (hL : 8388608 &&& L = 8388608) : s₀.Only L (State.includeRecord s c k code gen) := by
  unfold State.includeRecord
  repeat (with_reducible first
    | exact hs₀
    | exact Only.sub hL (by decide)
    | apply State.Only.ite
    | split
    | refine State.Only.of ?_ (cal := .inl (Only.bit hL (by decide)))
    | dsimp only)
theorem State.pairItem_only {L : Nat} {s₀ s : State} (hs₀ : s₀.Only L s) (c : Conc) (chan code : Nat) (gen : Bool)
    (hL : 8413184 &&& L = 8413184) : s₀.Only L (State.pairItem s c chan code gen) := by
  unfold State.pairItem
  repeat (with_reducible first
    | exact hs₀
    | exact Only.sub hL (by decide)
    | apply State.setConc_only
    | apply State.includeRecord_only
    | apply State.Only.ite
    | split
    | dsimp only)
theorem State.sideItemCmd_only {L : Nat} {s₀ s : State} (hs₀ : s₀.Only L s) (c : Conc) (t : Fin 16) (read port :
    EccRead) (hL : 8796101697880 &&& L = 8796101697880) : s₀.Only L (State.sideItemCmd s c t read port) := by
  unfold State.sideItemCmd
  repeat (with_reducible first
    | exact hs₀
    | exact Only.sub hL (by decide)
    | apply State.setPort_only
    | apply State.countAnywhere_only
    | apply State.testBit_only
    | apply State.restartTurn_only
    | apply State.pairItem_only
    | apply State.addHist_only
    | apply State.Only.ite
    | split
    | dsimp only)
theorem State.countFit_only {L : Nat} {s₀ s : State} (hs₀ : s₀.Only L s) (chan : Nat) (k : ChanFit) (hL : 8388696
    &&& L = 8388696) : s₀.Only L (State.countFit s chan k) := by
  unfold State.countFit
  repeat (with_reducible first
    | exact hs₀
    | exact Only.sub hL (by decide)
    | apply State.bump_only
    | apply State.put_only
    | apply State.event_only
    | apply State.eventIf_only
    | apply State.Only.ite
    | split
    | refine State.Only.of ?_ (cal := .inl (Only.bit hL (by decide)))
    | dsimp only)
theorem State.fitTurn_only {L : Nat} {s₀ s : State} (hs₀ : s₀.Only L s) (t : Fin 16) (hL : 8796101410904 &&& L =
    8796101410904) : s₀.Only L (State.fitTurn s t) := by
  unfold State.fitTurn
  repeat (with_reducible first
    | exact hs₀
    | exact Only.sub hL (by decide)
    | apply State.eventIf_only
    | apply State.countFit_only
    | apply State.Only.ite
    | refine State.Only.each ?_ ?_ <;> [(intro u x₁ hs₀; try dsimp only); skip]
    | split
    | refine State.Only.of ?_ (cal := .inl (Only.bit hL (by decide))) (freeCount := .inl (Only.bit hL (by decide)))
    | dsimp only)
theorem State.turnAccumEnd_only {L : Nat} {s₀ s : State} (hs₀ : s₀.Only L s) (hL : 8796101410904 &&& L =
    8796101410904) : s₀.Only L (State.turnAccumEnd s) := by
  unfold State.turnAccumEnd
  repeat (with_reducible first
    | exact hs₀
    | exact Only.sub hL (by decide)
    | apply State.fitTurn_only
    | apply State.Only.ite
    | split)
theorem State.requestSwap_only {L : Nat} {s₀ s : State} (hs₀ : s₀.Only L s) (t : Fin 16) (delay : Nat) (byHost
    restoring : Bool) (hL : 8388696 &&& L = 8388696) : s₀.Only L (State.requestSwap s t delay byHost restoring) := by
  unfold State.requestSwap
  repeat (with_reducible first
    | exact hs₀
    | exact Only.sub hL (by decide)
    | apply State.bump_only
    | apply State.event_only
    | apply State.put_only
    | apply State.putB_only
    | apply State.showSwap_only
    | apply State.Only.ite
    | split
    | refine State.Only.of ?_ (cal := .inl (Only.bit hL (by decide)))
    | dsimp only)
theorem State.hostSwap_only {L : Nat} {s₀ s : State} (hs₀ : s₀.Only L s) (hL : 8388696 &&& L = 8388696) : s₀.Only L
    (State.hostSwap s) := by
  unfold State.hostSwap
  repeat (with_reducible first | exact hs₀ | exact Only.sub hL (by decide) | apply State.requestSwap_only)
theorem State.stageResult_only {L : Nat} {s₀ s : State} (hs₀ : s₀.Only L s) (r : CalResult) (hL : 8418392 &&& L =
    8418392) : s₀.Only L (State.stageResult s r) := by
  unfold State.stageResult
  repeat (with_reducible first
    | exact hs₀
    | exact Only.sub hL (by decide)
    | apply State.stageEntry_only
    | apply State.Only.ite
    | refine State.Only.each ?_ ?_ <;> [(intro u x₁ hs₀; try dsimp only); skip]
    | refine State.Only.foldlSnd ?_ ?_ <;> [(intro x₀ x₁ hs₀; try dsimp only); skip]
    | refine State.Only.foldl ?_ ?_ <;> [(intro x₀ x₁ hs₀; try dsimp only); skip]
    | split
    | refine State.Only.of ?_ (tacStaged := .inl (Only.bit hL (by decide))) (rwsStaged := .inl (Only.bit hL (by
        decide))) (cal := .inl (Only.bit hL (by decide)))
    | dsimp only)
theorem State.requestStaged_only {L : Nat} {s₀ s : State} (hs₀ : s₀.Only L s) (r : CalResult) (hL : 8388696 &&& L =
    8388696) : s₀.Only L (State.requestStaged s r) := by
  unfold State.requestStaged
  repeat (with_reducible first
    | exact hs₀
    | exact Only.sub hL (by decide)
    | apply State.requestSwap_only
    | apply State.putB_only
    | apply State.eventIf_only
    | apply State.Only.ite
    | split)
theorem State.stageWarm_only {L : Nat} {s₀ s : State} (hs₀ : s₀.Only L s) (t : Fin 16) (hL : 8418392 &&& L =
    8418392) : s₀.Only L (State.stageWarm s t) := by
  unfold State.stageWarm
  repeat (with_reducible first
    | exact hs₀
    | exact Only.sub hL (by decide)
    | apply State.stageResult_only
    | apply State.requestSwap_only
    | apply State.Only.ite
    | split
    | refine State.Only.of ?_ (cal := .inl (Only.bit hL (by decide)))
    | dsimp only)
theorem State.warmNext_only {L : Nat} {s₀ s : State} (hs₀ : s₀.Only L s) (t : Fin 16) (hL : 8413208 &&& L = 8413208)
    : s₀.Only L (State.warmNext s t) := by
  unfold State.warmNext
  repeat (with_reducible first
    | exact hs₀
    | exact Only.sub hL (by decide)
    | apply State.putB_only
    | apply State.beginTurn_only
    | apply State.Only.ite
    | split
    | refine State.Only.of ?_ (cal := .inl (Only.bit hL (by decide)))
    | dsimp only)
theorem State.engineStage_only {L : Nat} {s₀ s : State} (hs₀ : s₀.Only L s) (hL : 8418392 &&& L = 8418392) : s₀.Only
    L (State.engineStage s) := by
  unfold State.engineStage
  repeat (with_reducible first
    | exact hs₀
    | exact Only.sub hL (by decide)
    | apply State.stageWarm_only
    | apply State.warmNext_only
    | apply State.requestStaged_only
    | apply State.stageResult_only
    | apply State.Only.ite
    | split)
theorem State.restoreWord_only {L : Nat} {s₀ s : State} (hs₀ : s₀.Only L s) (c : Conc) (chan w : Nat) (v : Word) (hL
    : 146028912728 &&& L = 146028912728) : s₀.Only L (State.restoreWord s c chan w v) := by
  unfold State.restoreWord
  repeat (with_reducible first
    | exact hs₀
    | exact Only.sub hL (by decide)
    | apply State.stageCorr_only
    | apply State.append_only
    | apply State.noteChange_only
    | apply State.Only.ite
    | refine State.Only.each ?_ ?_ <;> [(intro u x₁ hs₀; try dsimp only); skip]
    | split
    | dsimp only)
theorem State.restoreEntry_only {L : Nat} {s₀ s : State} (hs₀ : s₀.Only L s) (c : Conc) (chan : Nat) (hL :
    146037301336 &&& L = 146037301336) : s₀.Only L (State.restoreEntry s c chan) := by
  unfold State.restoreEntry
  repeat (with_reducible first
    | exact hs₀
    | exact Only.sub hL (by decide)
    | apply State.restoreWord_only
    | apply State.requestSwap_only
    | apply State.Only.ite
    | refine State.Only.each ?_ ?_ <;> [(intro u x₁ hs₀; try dsimp only); skip]
    | split
    | dsimp only)
theorem State.commitSwap_only {L : Nat} {s₀ s : State} (hs₀ : s₀.Only L s) (hL : 8598352984 &&& L = 8598352984) :
    s₀.Only L (State.commitSwap s) := by
  unfold State.commitSwap
  repeat (with_reducible first
    | exact hs₀
    | exact Only.sub hL (by decide)
    | apply State.withdrawSwap_only
    | apply State.showSwap_only
    | apply State.Only.ite
    | split
    | refine State.Only.of ?_ (cal := .inl (Only.bit hL (by decide)))
    | dsimp only)
theorem State.installTile_only {L : Nat} {s₀ s : State} (hs₀ : s₀.Only L s) (t : Fin 16) (hL : 7768 &&& L = 7768) :
    s₀.Only L (State.installTile s t) := by
  unfold State.installTile
  repeat (with_reducible first
    | exact hs₀
    | exact Only.sub hL (by decide)
    | apply State.put_only
    | apply State.event_only
    | apply State.Only.ite
    | refine State.Only.each ?_ ?_ <;> [(intro u x₁ hs₀; try dsimp only); skip]
    | refine State.Only.foldlSnd ?_ ?_ <;> [(intro x₀ x₁ hs₀; try dsimp only); skip]
    | refine State.Only.foldl ?_ ?_ <;> [(intro x₀ x₁ hs₀; try dsimp only); skip]
    | split
    | refine State.Only.of ?_ (tac := .inl (Only.bit hL (by decide))) (tacStaged := .inl (Only.bit hL (by decide)))
        (tacPoison := .inl (Only.bit hL (by decide))) (rwsStaged := .inl (Only.bit hL (by decide)))
    | dsimp only)
theorem State.installCorr_only {L : Nat} {s₀ s : State} (hs₀ : s₀.Only L s) (c : Conc) (f epoch : Nat) (hL : 24664
    &&& L = 24664) : s₀.Only L (State.installCorr s c f epoch) := by
  unfold State.installCorr
  repeat (with_reducible first
    | exact hs₀
    | exact Only.sub hL (by decide)
    | apply State.setConc_only
    | apply State.putB_only
    | apply State.showStaged_only
    | apply State.put_only
    | apply State.event_only
    | apply State.Only.ite
    | split
    | dsimp only)
theorem State.stepEpoch_only {L : Nat} {s₀ s : State} (hs₀ : s₀.Only L s) (f epoch : Nat) (hL : 274877939736 &&& L =
    274877939736) : s₀.Only L (State.stepEpoch s f epoch) := by
  unfold State.stepEpoch
  repeat (with_reducible first
    | exact hs₀
    | exact Only.sub hL (by decide)
    | apply State.put_only
    | apply State.Only.ite
    | split
    | refine State.Only.of ?_ (frames := .inl (Only.bit hL (by decide))) (savedEpoch := .inl (Only.bit hL (by
        decide))))
theorem State.persistTables_only {L : Nat} {s₀ s : State} (hs₀ : s₀.Only L s) (t : Fin 16) (tables : Bool) (new :
    List (Nat × BitVec 128)) (hL : 7696614948864 &&& L = 7696614948864) : s₀.Only L (State.persistTables s t tables
    new) := by
  unfold State.persistTables
  repeat (with_reducible first
    | exact hs₀
    | exact Only.sub hL (by decide)
    | apply State.Only.ite
    | refine State.Only.foldlSnd ?_ ?_ <;> [(intro x₀ x₁ hs₀; try dsimp only); skip]
    | refine State.Only.foldl ?_ ?_ <;> [(intro x₀ x₁ hs₀; try dsimp only); skip]
    | split
    | refine State.Only.of ?_ (fwu := .inl (Only.bit hL (by decide))) (mramCorr := .inl (Only.bit hL (by decide)))
        (mramTac := .inl (Only.bit hL (by decide))) (mramTap := .inl (Only.bit hL (by decide)))
    | dsimp only)
theorem State.toggleParity_only {L : Nat} {s₀ s : State} (hs₀ : s₀.Only L s) (t : Fin 16) (hL : 24832 &&& L = 24832)
    : s₀.Only L (State.toggleParity s t) := by
  unfold State.toggleParity
  repeat (with_reducible first
    | exact hs₀
    | exact Only.sub hL (by decide)
    | apply State.setTile_only
    | apply State.setRx_only
    | refine State.Only.each ?_ ?_ <;> [(intro u x₁ hs₀; try dsimp only); skip])
theorem State.setFitEpoch_only {L : Nat} {s₀ s : State} (hs₀ : s₀.Only L s) (l : List Nat) (epoch : Nat) (hL :
    8388608 &&& L = 8388608) : s₀.Only L (State.setFitEpoch s l epoch) := by
  unfold State.setFitEpoch
  repeat (with_reducible first
    | exact hs₀
    | exact Only.sub hL (by decide)
    | refine State.Only.foldlSnd ?_ ?_ <;> [(intro x₀ x₁ hs₀; try dsimp only); skip]
    | refine State.Only.foldl ?_ ?_ <;> [(intro x₀ x₁ hs₀; try dsimp only); skip]
    | refine State.Only.of ?_ (cal := .inl (Only.bit hL (by decide))))
theorem State.afterSwap_only {L : Nat} {s₀ s : State} (hs₀ : s₀.Only L s) (t : Fin 16) (hL : 8413208 &&& L =
    8413208) : s₀.Only L (State.afterSwap s t) := by
  unfold State.afterSwap
  repeat (with_reducible first
    | exact hs₀
    | exact Only.sub hL (by decide)
    | apply State.nextTurn_only
    | apply State.warmNext_only
    | apply State.Only.ite
    | split)
theorem State.readStaged_only {L : Nat} {s₀ s : State} (hs₀ : s₀.Only L s) (c : Conc) (f : Nat) (l : Reads) (hL :
    8796093309016 &&& L = 8796093309016) : s₀.Only L (State.readStaged s c f l) := by
  unfold State.readStaged
  repeat (with_reducible first
    | exact hs₀
    | exact Only.sub hL (by decide)
    | apply State.countAnywhere_only
    | apply State.setConc_only
    | apply State.Only.ite
    | refine State.Only.each ?_ ?_ <;> [(intro u x₁ hs₀; try dsimp only); skip]
    | split
    | dsimp only)
theorem State.swapBoundary_only {L : Nat} {s₀ s : State} (hs₀ : s₀.Only L s) (hL : 8667286011736 &&& L =
    8667286011736) : s₀.Only L (State.swapBoundary s) := by
  unfold State.swapBoundary
  repeat (with_reducible first
    | exact hs₀
    | exact Only.sub hL (by decide)
    | apply State.installTile_only
    | apply State.toggleParity_only
    | apply State.installCorr_only
    | apply State.stepEpoch_only
    | apply State.bump_only
    | apply State.event_only
    | apply State.journalSwap_only
    | apply State.noteChange_only
    | apply State.persistTables_only
    | apply State.setFitEpoch_only
    | apply State.showSwap_only
    | apply State.afterSwap_only
    | apply State.Only.ite
    | refine State.Only.each ?_ ?_ <;> [(intro u x₁ hs₀; try dsimp only); skip]
    | split
    | refine State.Only.of ?_ (cal := .inl (Only.bit hL (by decide))) (savedCorr := .inl (Only.bit hL (by decide)))
    | dsimp only)
theorem State.reloadTile_only {L : Nat} {s₀ s : State} (hs₀ : s₀.Only L s) (t : Fin 16) (hL : 103079220760 &&& L =
    103079220760) : s₀.Only L (State.reloadTile s t) := by
  unfold State.reloadTile
  repeat (with_reducible first
    | exact hs₀
    | exact Only.sub hL (by decide)
    | apply State.put_only
    | refine State.Only.each ?_ ?_ <;> [(intro u x₁ hs₀; try dsimp only); skip]
    | refine State.Only.foldlSnd ?_ ?_ <;> [(intro x₀ x₁ hs₀; try dsimp only); skip]
    | refine State.Only.foldl ?_ ?_ <;> [(intro x₀ x₁ hs₀; try dsimp only); skip]
    | refine State.Only.of ?_ (tac := .inl (Only.bit hL (by decide))) (tacStaged := .inl (Only.bit hL (by decide)))
        (rwsStaged := .inl (Only.bit hL (by decide))) (savedStaged := .inl (Only.bit hL (by decide))) (savedTac :=
        .inl (Only.bit hL (by decide)))
    | dsimp only)

/-! Time.lean -/

theorem State.showSplice_only {L : Nat} {s₀ s : State} (hs₀ : s₀.Only L s) (hL : 24 &&& L = 24) : s₀.Only L
    (State.showSplice s) := by
  unfold State.showSplice
  repeat (with_reducible first | exact hs₀ | exact Only.sub hL (by decide) | apply State.put_only)
theorem State.setSplice_only {L : Nat} {s₀ s : State} (hs₀ : s₀.Only L s) (v : Int) (hL : 131096 &&& L = 131096) :
    s₀.Only L (State.setSplice s v) := by
  unfold State.setSplice
  repeat (with_reducible first
    | exact hs₀
    | exact Only.sub hL (by decide)
    | apply State.showSplice_only
    | refine State.Only.of ?_ (time := .inl (Only.bit hL (by decide))))
theorem State.noteTq_only {L : Nat} {s₀ s : State} (hs₀ : s₀.Only L s) (hL : 32792 &&& L = 32792) : s₀.Only L
    (State.noteTq s) := by
  unfold State.noteTq
  repeat (with_reducible first
    | exact hs₀
    | exact Only.sub hL (by decide)
    | apply State.put_only
    | apply State.Only.ite
    | split
    | refine State.Only.of ?_ (frames := .inl (Only.bit hL (by decide)))
    | dsimp only)
theorem State.enterHoldover_only {L : Nat} {s₀ s : State} (hs₀ : s₀.Only L s) (hL : 131160 &&& L = 131160) : s₀.Only
    L (State.enterHoldover s) := by
  unfold State.enterHoldover
  repeat (with_reducible first
    | exact hs₀
    | exact Only.sub hL (by decide)
    | apply State.putB_only
    | apply State.bump_only
    | apply State.event_only
    | apply State.put_only
    | apply State.Only.ite
    | split
    | refine State.Only.of ?_ (time := .inl (Only.bit hL (by decide)))
    | dsimp only)
theorem State.countHold_only {L : Nat} {s₀ s : State} (hs₀ : s₀.Only L s) (now : Nat) (hL : 24 &&& L = 24) : s₀.Only
    L (State.countHold s now) := by
  unfold State.countHold
  repeat (with_reducible first
    | exact hs₀
    | exact Only.sub hL (by decide)
    | apply State.put_only
    | apply State.overflow_only
    | apply State.Only.ite
    | split
    | dsimp only)
theorem State.exitHoldover_only {L : Nat} {s₀ s : State} (hs₀ : s₀.Only L s) (hL : 131160 &&& L = 131160) : s₀.Only
    L (State.exitHoldover s) := by
  unfold State.exitHoldover
  repeat (with_reducible first
    | exact hs₀
    | exact Only.sub hL (by decide)
    | apply State.countHold_only
    | apply State.putB_only
    | apply State.event_only
    | apply State.Only.ite
    | split
    | refine State.Only.of ?_ (time := .inl (Only.bit hL (by decide)))
    | dsimp only)
theorem State.drawDiscovery_only {L : Nat} {s₀ s : State} (hs₀ : s₀.Only L s) (u : Um) (b : Nat) (hL : 8796898328600
    &&& L = 8796898328600) : s₀.Only L (State.drawDiscovery s u b) := by
  unfold State.drawDiscovery
  repeat (with_reducible first
    | exact hs₀
    | exact Only.sub hL (by decide)
    | apply State.setUm_only
    | apply State.put_only
    | refine State.Only.of ?_ (freeCount := .inl (Only.bit hL (by decide)))
    | dsimp only)
theorem State.startDiscovery_only {L : Nat} {s₀ s : State} (hs₀ : s₀.Only L s) (u : Um) (hL : 8796898328600 &&& L =
    8796898328600) : s₀.Only L (State.startDiscovery s u) := by
  unfold State.startDiscovery
  repeat (with_reducible first
    | exact hs₀
    | exact Only.sub hL (by decide)
    | apply State.drawDiscovery_only
    | apply State.Only.ite
    | split)
theorem State.leaveStep9_only {L : Nat} {s₀ s : State} (hs₀ : s₀.Only L s) (hL : 24 &&& L = 24) : s₀.Only L
    (State.leaveStep9 s) := by
  unfold State.leaveStep9
  repeat (with_reducible first
    | exact hs₀
    | exact Only.sub hL (by decide)
    | apply State.put_only
    | apply State.Only.ite
    | split)
theorem State.gainLock_only {L : Nat} {s₀ s : State} (hs₀ : s₀.Only L s) (u : Um) (hL : 8796898492504 &&& L =
    8796898492504) : s₀.Only L (State.gainLock s u) := by
  unfold State.gainLock
  repeat (with_reducible first
    | exact hs₀
    | exact Only.sub hL (by decide)
    | apply State.putB_only
    | apply State.event_only
    | apply State.setUm_only
    | apply State.exitHoldover_only
    | apply State.startDiscovery_only
    | apply State.noteTq_only
    | apply State.Only.ite
    | split
    | dsimp only)
theorem State.cleanerHolds_only {L : Nat} {s₀ s : State} (hs₀ : s₀.Only L s) (hL : 88 &&& L = 88) : s₀.Only L
    (State.cleanerHolds s) := by
  unfold State.cleanerHolds
  repeat (with_reducible first
    | exact hs₀
    | exact Only.sub hL (by decide)
    | apply State.putB_only
    | apply State.eventIf_only
    | dsimp only)
theorem State.scheduleAuto_only {L : Nat} {s₀ s : State} (hs₀ : s₀.Only L s) (hL : 131096 &&& L = 131096) : s₀.Only
    L (State.scheduleAuto s) := by
  unfold State.scheduleAuto
  repeat (with_reducible first
    | exact hs₀
    | exact Only.sub hL (by decide)
    | apply State.bump_only
    | apply State.Only.ite
    | split
    | refine State.Only.of ?_ (time := .inl (Only.bit hL (by decide)))
    | dsimp only)
theorem State.loseLock_only {L : Nat} {s₀ s : State} (hs₀ : s₀.Only L s) (u : Um) (hL : 805470296 &&& L = 805470296)
    : s₀.Only L (State.loseLock s u) := by
  unfold State.loseLock
  repeat (with_reducible first
    | exact hs₀
    | exact Only.sub hL (by decide)
    | apply State.putB_only
    | apply State.bump_only
    | apply State.event_only
    | apply State.setUm_only
    | apply State.cleanerHolds_only
    | apply State.enterHoldover_only
    | apply State.scheduleAuto_only
    | apply State.leaveStep9_only
    | apply State.noteTq_only
    | apply State.Only.ite
    | split
    | dsimp only)
theorem State.cdrUnlock_only {L : Nat} {s₀ s : State} (hs₀ : s₀.Only L s) (u : Um) (hL : 805470296 &&& L =
    805470296) : s₀.Only L (State.cdrUnlock s u) := by
  unfold State.cdrUnlock
  repeat (with_reducible first
    | exact hs₀
    | exact Only.sub hL (by decide)
    | apply State.putB_only
    | apply State.loseLock_only
    | refine State.Only.of ?_ (time := .inl (Only.bit hL (by decide))))
theorem State.badMarker_only {L : Nat} {s₀ s : State} (hs₀ : s₀.Only L s) (u : Um) (last : Option Nat) (hL :
    805470296 &&& L = 805470296) : s₀.Only L (State.badMarker s u last) := by
  unfold State.badMarker
  repeat (with_reducible first
    | exact hs₀
    | exact Only.sub hL (by decide)
    | apply State.bump_only
    | apply State.loseLock_only
    | apply State.Only.ite
    | split
    | refine State.Only.of ?_ (time := .inl (Only.bit hL (by decide)))
    | dsimp only)
theorem State.markerMissing_only {L : Nat} {s₀ s : State} (hs₀ : s₀.Only L s) (u : Um) (hL : 805470296 &&& L =
    805470296) : s₀.Only L (State.markerMissing s u) := by
  unfold State.markerMissing
  repeat (with_reducible first
    | exact hs₀
    | exact Only.sub hL (by decide)
    | apply State.badMarker_only
    | apply State.Only.ite
    | split)
theorem State.mixedBoundary_only {L : Nat} {s₀ s : State} (hs₀ : s₀.Only L s) (f : Nat) (hL : 2147483736 &&& L =
    2147483736) : s₀.Only L (State.mixedBoundary s f) := by
  unfold State.mixedBoundary
  repeat (with_reducible first
    | exact hs₀
    | exact Only.sub hL (by decide)
    | apply State.putB_only
    | apply State.event_only
    | apply State.Only.ite
    | split
    | refine State.Only.of ?_ (mixedFrom := .inl (Only.bit hL (by decide)))
    | dsimp only)
theorem State.tileStarts_only {L : Nat} {s₀ s : State} (hs₀ : s₀.Only L s) (f : Nat) (t : Fin 16) (hL : 24856 &&& L
    = 24856) : s₀.Only L (State.tileStarts s f t) := by
  unfold State.tileStarts
  repeat (with_reducible first
    | exact hs₀
    | exact Only.sub hL (by decide)
    | apply State.setTile_only
    | apply State.showPort_only
    | apply State.setRx_only
    | apply State.Only.ite
    | refine State.Only.each ?_ ?_ <;> [(intro u x₁ hs₀; try dsimp only); skip]
    | split
    | dsimp only)
theorem State.concReady_only {L : Nat} {s₀ s : State} (hs₀ : s₀.Only L s) (c : Conc) (hL : 24576 &&& L = 24576) :
    s₀.Only L (State.concReady s c) := by
  unfold State.concReady
  repeat (with_reducible first
    | exact hs₀
    | exact Only.sub hL (by decide)
    | apply State.setConc_only
    | apply State.Only.ite
    | split
    | dsimp only)
theorem State.concStarts_only {L : Nat} {s₀ s : State} (hs₀ : s₀.Only L s) (f : Nat) (c : Conc) (hL : 24600 &&& L =
    24600) : s₀.Only L (State.concStarts s f c) := by
  unfold State.concStarts
  repeat (with_reducible first
    | exact hs₀
    | exact Only.sub hL (by decide)
    | apply State.setConc_only
    | apply State.setPair_only
    | apply State.put_only
    | apply State.Only.ite
    | split
    | dsimp only)
theorem State.startFrames_only {L : Nat} {s₀ s : State} (hs₀ : s₀.Only L s) (f : Nat) (hL : 6451093855 &&& L =
    6451093855) : s₀.Only L (State.startFrames s f) := by
  unfold State.startFrames
  repeat (with_reducible first
    | exact hs₀
    | exact Only.sub hL (by decide)
    | apply State.putB_only
    | apply State.put_only
    | apply State.tileStarts_only
    | apply State.concReady_only
    | apply State.concStarts_only
    | apply State.mixedBoundary_only
    | apply State.noteTq_only
    | refine State.Only.each ?_ ?_ <;> [(intro u x₁ hs₀; try dsimp only); skip]
    | refine State.Only.of ?_ (now := .inl (Only.bit hL (by decide))) (frame := .inl (Only.bit hL (by decide)))
        (running := .inl (Only.bit hL (by decide))) (frames := .inl (Only.bit hL (by decide))) (trig := .inl
        (Only.bit hL (by decide))) (time := .inl (Only.bit hL (by decide))) (cal := .inl (Only.bit hL (by decide)))
        (mixedFrom := .inl (Only.bit hL (by decide))) (unlocks := .inl (Only.bit hL (by decide)))
    | dsimp only)
theorem State.startOn_only {L : Nat} {s₀ s : State} (hs₀ : s₀.Only L s) (u : Um) (acc : Int) (byTimeout : Bool) (hL
    : 6451093855 &&& L = 6451093855) : s₀.Only L (State.startOn s u acc byTimeout) := by
  unfold State.startOn
  repeat (with_reducible first
    | exact hs₀
    | exact Only.sub hL (by decide)
    | apply State.setSplice_only
    | apply State.putB_only
    | apply State.event_only
    | apply State.startFrames_only
    | apply State.enterHoldover_only
    | apply State.noteTq_only
    | apply State.Only.ite
    | refine State.Only.each ?_ ?_ <;> [(intro u x₁ hs₀; try dsimp only); skip]
    | split
    | refine State.Only.of ?_ (time := .inl (Only.bit hL (by decide)))
    | dsimp only)
theorem State.settleTimeout_only {L : Nat} {s₀ s : State} (hs₀ : s₀.Only L s) (hL : 163928 &&& L = 163928) : s₀.Only
    L (State.settleTimeout s) := by
  unfold State.settleTimeout
  repeat (with_reducible first
    | exact hs₀
    | exact Only.sub hL (by decide)
    | apply State.putB_only
    | apply State.event_only
    | apply State.noteTq_only
    | apply State.Only.ite
    | split
    | refine State.Only.of ?_ (time := .inl (Only.bit hL (by decide)))
    | dsimp only)
theorem State.loadAcc_only {L : Nat} {s₀ s : State} (hs₀ : s₀.Only L s) (u : Um) (v i gained : Int) (hL : 131072 &&&
    L = 131072) : s₀.Only L (State.loadAcc s u v i gained) := by
  unfold State.loadAcc
  repeat (with_reducible first
    | exact hs₀
    | exact Only.sub hL (by decide)
    | refine State.Only.of ?_ (time := .inl (Only.bit hL (by decide))))
theorem State.acquire_only {L : Nat} {s₀ s : State} (hs₀ : s₀.Only L s) (u : Um) (time at_ sub : Nat) (gained : Int)
    (hL : 6451093855 &&& L = 6451093855) : s₀.Only L (State.acquire s u time at_ sub gained) := by
  unfold State.acquire
  repeat (with_reducible first
    | exact hs₀
    | exact Only.sub hL (by decide)
    | apply State.putB_only
    | apply State.event_only
    | apply State.startOn_only
    | apply State.loadAcc_only
    | apply State.setSplice_only
    | apply State.exitHoldover_only
    | apply State.settleTimeout_only
    | apply State.Only.ite
    | split
    | refine State.Only.of ?_ (frames := .inl (Only.bit hL (by decide)))
    | dsimp only)
theorem State.markErr_only {L : Nat} {s₀ s : State} (hs₀ : s₀.Only L s) (u : Um) (time at_ sub : Nat) (gained : Int)
    (hL : 24 &&& L = 24) : s₀.Only L (State.markErr s u time at_ sub gained) := by
  unfold State.markErr
  repeat (with_reducible first | exact hs₀ | exact Only.sub hL (by decide) | apply State.put_only | dsimp only)
theorem State.adopt_only {L : Nat} {s₀ s : State} (hs₀ : s₀.Only L s) (u : Um) (m : Marker) (hL : 17179869208 &&& L
    = 17179869208) : s₀.Only L (State.adopt s u m) := by
  unfold State.adopt
  repeat (with_reducible first
    | exact hs₀
    | exact Only.sub hL (by decide)
    | apply State.put_only
    | apply State.Only.ite
    | split
    | refine State.Only.of ?_ (stale := .inl (Only.bit hL (by decide))) (saved := .inl (Only.bit hL (by decide)))
    | dsimp only)
theorem State.goodMarker_only {L : Nat} {s₀ s : State} (hs₀ : s₀.Only L s) (u : Um) (time at_ sub : Nat) (gained :
    Int) (hL : 8803349422431 &&& L = 8803349422431) : s₀.Only L (State.goodMarker s u time at_ sub gained) := by
  unfold State.goodMarker
  repeat (with_reducible first
    | exact hs₀
    | exact Only.sub hL (by decide)
    | apply State.markErr_only
    | apply State.acquire_only
    | apply State.put_only
    | apply State.gainLock_only
    | apply State.Only.ite
    | split
    | refine State.Only.of ?_ (time := .inl (Only.bit hL (by decide)))
    | dsimp only)
theorem State.strayMarker_only {L : Nat} {s₀ s : State} (hs₀ : s₀.Only L s) (u : Um) (time at_ sub : Nat) (gained :
    Int) (hL : 805470296 &&& L = 805470296) : s₀.Only L (State.strayMarker s u time at_ sub gained) := by
  unfold State.strayMarker
  repeat (with_reducible first
    | exact hs₀
    | exact Only.sub hL (by decide)
    | apply State.markErr_only
    | apply State.badMarker_only
    | apply State.Only.ite
    | split)
theorem State.superframeMarker_only {L : Nat} {s₀ s : State} (hs₀ : s₀.Only L s) (u : Um) (m : Marker) (at_ sub :
    Nat) (hL : 8820529291615 &&& L = 8820529291615) : s₀.Only L (State.superframeMarker s u m at_ sub) := by
  unfold State.superframeMarker
  repeat (with_reducible first
    | exact hs₀
    | exact Only.sub hL (by decide)
    | apply State.advance_only
    | apply State.adopt_only
    | apply State.putB_only
    | apply State.goodMarker_only
    | apply State.strayMarker_only
    | apply State.badMarker_only
    | apply State.Only.ite
    | split
    | refine State.Only.of ?_ (time := .inl (Only.bit hL (by decide)))
    | dsimp only)
theorem State.acqTimeout_only {L : Nat} {s₀ s : State} (hs₀ : s₀.Only L s) (hL : 6451093855 &&& L = 6451093855) :
    s₀.Only L (State.acqTimeout s) := by
  unfold State.acqTimeout
  repeat (with_reducible first
    | exact hs₀
    | exact Only.sub hL (by decide)
    | apply State.startOn_only
    | apply State.Only.ite
    | split)
theorem State.cleanerLock_only {L : Nat} {s₀ s : State} (hs₀ : s₀.Only L s) (hL : 8796093022232 &&& L =
    8796093022232) : s₀.Only L (State.cleanerLock s) := by
  unfold State.cleanerLock
  repeat (with_reducible first
    | exact hs₀
    | exact Only.sub hL (by decide)
    | apply State.draw_only
    | apply State.putB_only
    | apply State.put_only
    | apply State.Only.ite
    | split
    | dsimp only)
theorem State.putCount_only {L : Nat} {s₀ s : State} (hs₀ : s₀.Only L s) (page : Nat) (f : FieldRef) (v : Nat) (hL :
    24 &&& L = 24) : s₀.Only L (State.putCount s page f v) := by
  unfold State.putCount
  repeat (with_reducible first
    | exact hs₀
    | exact Only.sub hL (by decide)
    | apply State.put_only
    | split
    | refine State.Only.of ?_ (stale := .inl (Only.bit hL (by decide))))
theorem State.endSlew_only {L : Nat} {s₀ s : State} (hs₀ : s₀.Only L s) (u : Um) (hL : 88 &&& L = 88) : s₀.Only L
    (State.endSlew s u) := by
  unfold State.endSlew
  repeat (with_reducible first
    | exact hs₀
    | exact Only.sub hL (by decide)
    | apply State.putCount_only
    | apply State.putB_only
    | apply State.event_only)
theorem State.runSlew_only {L : Nat} {s₀ s : State} (hs₀ : s₀.Only L s) (u : Um) (k : Nat) (hL : 88 &&& L = 88) :
    s₀.Only L (State.runSlew s u k) := by
  unfold State.runSlew
  repeat (with_reducible first
    | exact hs₀
    | exact Only.sub hL (by decide)
    | apply State.putCount_only
    | apply State.endSlew_only
    | apply State.Only.ite
    | split)
theorem State.slewDone_only {L : Nat} {s₀ s : State} (hs₀ : s₀.Only L s) (u : Um) (hL : 131160 &&& L = 131160) :
    s₀.Only L (State.slewDone s u) := by
  unfold State.slewDone
  repeat (with_reducible first
    | exact hs₀
    | exact Only.sub hL (by decide)
    | apply State.endSlew_only
    | apply State.Only.ite
    | split
    | refine State.Only.of ?_ (time := .inl (Only.bit hL (by decide)))
    | dsimp only)
theorem State.endSplice_only {L : Nat} {s₀ s : State} (hs₀ : s₀.Only L s) (hL : 131096 &&& L = 131096) : s₀.Only L
    (State.endSplice s) := by
  unfold State.endSplice
  repeat (with_reducible first
    | exact hs₀
    | exact Only.sub hL (by decide)
    | apply State.putCount_only
    | refine State.Only.of ?_ (time := .inl (Only.bit hL (by decide))))
theorem State.runSplice_only {L : Nat} {s₀ s : State} (hs₀ : s₀.Only L s) (n : Nat) (hL : 131096 &&& L = 131096) :
    s₀.Only L (State.runSplice s n) := by
  unfold State.runSplice
  repeat (with_reducible first
    | exact hs₀
    | exact Only.sub hL (by decide)
    | apply State.setSplice_only
    | apply State.endSplice_only
    | apply State.putCount_only
    | apply State.Only.ite
    | split
    | dsimp only)
theorem State.spliceSlewEnd_only {L : Nat} {s₀ s : State} (hs₀ : s₀.Only L s) (hL : 163928 &&& L = 163928) : s₀.Only
    L (State.spliceSlewEnd s) := by
  unfold State.spliceSlewEnd
  repeat (with_reducible first
    | exact hs₀
    | exact Only.sub hL (by decide)
    | apply State.runSplice_only
    | apply State.settleTimeout_only
    | apply State.Only.ite
    | split)
theorem State.advanceDomains_only {L : Nat} {s₀ s : State} (hs₀ : s₀.Only L s) (f : Nat) (drift : Int) (hL : 131160
    &&& L = 131160) : s₀.Only L (State.advanceDomains s f drift) := by
  unfold State.advanceDomains
  repeat (with_reducible first
    | exact hs₀
    | exact Only.sub hL (by decide)
    | apply State.runSplice_only
    | apply State.runSlew_only
    | apply State.Only.ite
    | split
    | refine State.Only.of ?_ (time := .inl (Only.bit hL (by decide)))
    | dsimp only)
theorem State.rejectSwitch_only {L : Nat} {s₀ s : State} (hs₀ : s₀.Only L s) (hL : 88 &&& L = 88) : s₀.Only L
    (State.rejectSwitch s) := by
  unfold State.rejectSwitch
  repeat (with_reducible first
    | exact hs₀
    | exact Only.sub hL (by decide)
    | apply State.bump_only
    | apply State.event_only)
theorem State.requestSwitch_only {L : Nat} {s₀ s : State} (hs₀ : s₀.Only L s) (target : Bool) (sheaf : Nat) (hL :
    131160 &&& L = 131160) : s₀.Only L (State.requestSwitch s target sheaf).2 := by
  unfold State.requestSwitch
  repeat (with_reducible first
    | dsimp only
    | split
    | exact hs₀
    | exact Only.sub hL (by decide)
    | apply State.putB_only
    | apply State.rejectSwitch_only
    | refine State.Only.of ?_ (time := .inl (Only.bit hL (by decide))))
theorem State.dropSwitch_only {L : Nat} {s₀ s : State} (hs₀ : s₀.Only L s) (hL : 131096 &&& L = 131096) : s₀.Only L
    (State.dropSwitch s) := by
  unfold State.dropSwitch
  repeat (with_reducible first
    | exact hs₀
    | exact Only.sub hL (by decide)
    | apply State.putB_only
    | refine State.Only.of ?_ (time := .inl (Only.bit hL (by decide))))
theorem State.takeSwitch_only {L : Nat} {s₀ s : State} (hs₀ : s₀.Only L s) (t : Um) (auto : Bool) (f : Nat) (hL :
    8590098520 &&& L = 8590098520) : s₀.Only L (State.takeSwitch s t auto f) := by
  unfold State.takeSwitch
  repeat (with_reducible first
    | exact hs₀
    | exact Only.sub hL (by decide)
    | apply State.endSplice_only
    | apply State.setSplice_only
    | apply State.putB_only
    | apply State.bump_only
    | apply State.event_only
    | apply State.journalEvent_only
    | apply State.exitHoldover_only
    | apply State.enterHoldover_only
    | apply State.dropSwitch_only
    | apply State.settleTimeout_only
    | apply State.Only.ite
    | split
    | refine State.Only.of ?_ (frames := .inl (Only.bit hL (by decide))) (time := .inl (Only.bit hL (by decide)))
    | dsimp only)
theorem State.freshTq_only {L : Nat} {s₀ s : State} (hs₀ : s₀.Only L s) (hL : 32792 &&& L = 32792) : s₀.Only L
    (State.freshTq s) := by
  unfold State.freshTq
  repeat (with_reducible first
    | exact hs₀
    | exact Only.sub hL (by decide)
    | apply State.put_only
    | split
    | refine State.Only.of ?_ (frames := .inl (Only.bit hL (by decide))))
theorem State.decideSwitch_only {L : Nat} {s₀ s : State} (hs₀ : s₀.Only L s) (p : PendSwitch) (hL : 8590098520 &&& L
    = 8590098520) : s₀.Only L (State.decideSwitch s p) := by
  unfold State.decideSwitch
  repeat (with_reducible first
    | exact hs₀
    | exact Only.sub hL (by decide)
    | apply State.dropSwitch_only
    | apply State.rejectSwitch_only
    | apply State.takeSwitch_only
    | apply State.freshTq_only
    | apply State.Only.ite
    | split
    | refine State.Only.of ?_ (time := .inl (Only.bit hL (by decide)))
    | dsimp only)
theorem State.domainSwitchBoundary_only {L : Nat} {s₀ s : State} (hs₀ : s₀.Only L s) (hL : 8590164312 &&& L =
    8590164312) : s₀.Only L (State.domainSwitchBoundary s) := by
  unfold State.domainSwitchBoundary
  repeat (with_reducible first
    | exact hs₀
    | exact Only.sub hL (by decide)
    | apply State.decideSwitch_only
    | apply State.convertTimed_only
    | apply State.sendWindows_only
    | apply State.Only.ite
    | split)
theorem State.recheckSwitch_only {L : Nat} {s₀ s : State} (hs₀ : s₀.Only L s) (f : Nat) (hL : 8590098520 &&& L =
    8590098520) : s₀.Only L (State.recheckSwitch s f) := by
  unfold State.recheckSwitch
  repeat (with_reducible first
    | exact hs₀
    | exact Only.sub hL (by decide)
    | apply State.takeSwitch_only
    | apply State.freshTq_only
    | apply State.Only.ite
    | split
    | refine State.Only.of ?_ (time := .inl (Only.bit hL (by decide)))
    | dsimp only)
theorem State.slewWritten_only {L : Nat} {s₀ s : State} (hs₀ : s₀.Only L s) (u : Um) (hL : 24 &&& L = 24) : s₀.Only
    L (State.slewWritten s u) := by
  unfold State.slewWritten
  repeat (with_reducible first | exact hs₀ | exact Only.sub hL (by decide) | apply State.putB_only)
theorem State.spliceWritten_only {L : Nat} {s₀ s : State} (hs₀ : s₀.Only L s) (hL : 131072 &&& L = 131072) : s₀.Only
    L (State.spliceWritten s) := by
  unfold State.spliceWritten
  repeat (with_reducible first
    | exact hs₀
    | exact Only.sub hL (by decide)
    | refine State.Only.of ?_ (time := .inl (Only.bit hL (by decide))))
theorem State.showSwitch_only {L : Nat} {s₀ s : State} (hs₀ : s₀.Only L s) (f : Nat) (hL : 24 &&& L = 24) : s₀.Only
    L (State.showSwitch s f) := by
  unfold State.showSwitch
  repeat (with_reducible first | exact hs₀ | exact Only.sub hL (by decide) | apply State.putB_only | split)
theorem State.timeBoundary_only {L : Nat} {s₀ s : State} (hs₀ : s₀.Only L s) (f : Nat) (drift : Int) (hL : 163928
    &&& L = 163928) : s₀.Only L (State.timeBoundary s f drift) := by
  unfold State.timeBoundary
  repeat (with_reducible first
    | exact hs₀
    | exact Only.sub hL (by decide)
    | apply State.countHold_only
    | apply State.advanceDomains_only
    | apply State.put_only
    | apply State.settleTimeout_only
    | dsimp only)
theorem State.snap_only {L : Nat} {s₀ s : State} (hs₀ : s₀.Only L s) (f : Nat) (hL : 24 &&& L = 24) : s₀.Only L
    (State.snap s f) := by
  unfold State.snap
  repeat (with_reducible first
    | exact hs₀
    | exact Only.sub hL (by decide)
    | apply State.put_only
    | refine State.Only.each ?_ ?_ <;> [(intro u x₁ hs₀; try dsimp only); skip]
    | dsimp only)

/-! Monitor.lean -/

theorem State.takeEntry_only {L : Nat} {s₀ s : State} (hs₀ : s₀.Only L s) (v : Visit) (hL : 16777216 &&& L =
    16777216) : s₀.Only L (State.takeEntry s v) := by
  unfold State.takeEntry
  repeat (with_reducible first
    | exact hs₀
    | exact Only.sub hL (by decide)
    | refine State.Only.of ?_ (mon := .inl (Only.bit hL (by decide))))
theorem State.touchEntry_only {L : Nat} {s₀ s : State} (hs₀ : s₀.Only L s) (page off : Nat) (hL : 16777216 &&& L =
    16777216) : s₀.Only L (State.touchEntry s page off) := by
  unfold State.touchEntry
  repeat (with_reducible first
    | exact hs₀
    | exact Only.sub hL (by decide)
    | apply State.Only.ite
    | split
    | refine State.Only.of ?_ (mon := .inl (Only.bit hL (by decide))))
theorem State.setBroken_only {L : Nat} {s₀ s : State} (hs₀ : s₀.Only L s) (n : Nat) (b : Bool) (hL : 8 &&& L = 8) :
    s₀.Only L (State.setBroken s n b) := by
  unfold State.setBroken
  repeat (with_reducible first
    | exact hs₀
    | exact Only.sub hL (by decide)
    | apply State.wr_only
    | apply State.Only.ite
    | split
    | dsimp only)
theorem State.setIlkSources_only {L : Nat} {s₀ s : State} (hs₀ : s₀.Only L s) (p : Pin) (l : Option (List
    IlkSource)) (hL : 16777216 &&& L = 16777216) : s₀.Only L (State.setIlkSources s p l) := by
  unfold State.setIlkSources
  repeat (with_reducible first
    | exact hs₀
    | exact Only.sub hL (by decide)
    | split
    | refine State.Only.of ?_ (mon := .inl (Only.bit hL (by decide))))
theorem State.ilkFault_only {L : Nat} {s₀ s : State} (hs₀ : s₀.Only L s) (p : Pin) (cause : Nat) (hL : 88 &&& L =
    88) : s₀.Only L (State.ilkFault s p cause) := by
  unfold State.ilkFault
  repeat (with_reducible first
    | exact hs₀
    | exact Only.sub hL (by decide)
    | apply State.put_only
    | apply State.bump_only
    | apply State.event_only
    | apply State.Only.ite
    | split
    | dsimp only)
theorem State.ilkGood_only {L : Nat} {s₀ s : State} (hs₀ : s₀.Only L s) (p : Pin) (st : Nat) (hL : 88 &&& L = 88) :
    s₀.Only L (State.ilkGood s p st) := by
  unfold State.ilkGood
  repeat (with_reducible first
    | exact hs₀
    | exact Only.sub hL (by decide)
    | apply State.put_only
    | apply State.eventIf_only
    | dsimp only)
theorem State.ilkResult_only {L : Nat} {s₀ s : State} (hs₀ : s₀.Only L s) (p : Pin) (n : Nat) (value : Int) (fault
    stale ovr : Bool) (at_ : Nat) (hL : 16777304 &&& L = 16777304) : s₀.Only L (State.ilkResult s p n value fault
    stale ovr at_) := by
  unfold State.ilkResult
  repeat (with_reducible first
    | exact hs₀
    | exact Only.sub hL (by decide)
    | apply State.ilkFault_only
    | apply State.ilkGood_only
    | apply State.setIlkSources_only
    | apply State.put_only
    | apply State.Only.ite
    | split
    | dsimp only)
theorem State.ilkBoundary_only {L : Nat} {s₀ s : State} (hs₀ : s₀.Only L s) (p : Pin) (hL : 16777304 &&& L =
    16777304) : s₀.Only L (State.ilkBoundary s p) := by
  unfold State.ilkBoundary
  repeat (with_reducible first
    | exact hs₀
    | exact Only.sub hL (by decide)
    | apply State.setIlkSources_only
    | apply State.ilkFault_only
    | apply State.Only.ite
    | split
    | dsimp only)
theorem State.ilkHoldExpiry_only {L : Nat} {s₀ s : State} (hs₀ : s₀.Only L s) (p : Pin) (at_ : Nat) (hL : 89 &&& L =
    89) : s₀.Only L (State.ilkHoldExpiry s p at_) := by
  unfold State.ilkHoldExpiry
  repeat (with_reducible first
    | exact hs₀
    | exact Only.sub hL (by decide)
    | apply State.advance_only
    | apply State.ilkFault_only
    | apply State.ilkGood_only
    | apply State.Only.ite
    | split
    | dsimp only)
theorem State.showVisit_only {L : Nat} {s₀ s : State} (hs₀ : s₀.Only L s) (hL : 24 &&& L = 24) : s₀.Only L
    (State.showVisit s) := by
  unfold State.showVisit
  repeat (with_reducible first
    | exact hs₀
    | exact Only.sub hL (by decide)
    | apply State.putB_only
    | apply State.put_only
    | split)
theorem State.visitBegin_only {L : Nat} {s₀ s : State} (hs₀ : s₀.Only L s) (n : Nat) (urgent : Bool) (hL : 16777240
    &&& L = 16777240) : s₀.Only L (State.visitBegin s n urgent) := by
  unfold State.visitBegin
  repeat (with_reducible first
    | exact hs₀
    | exact Only.sub hL (by decide)
    | apply State.takeEntry_only
    | apply State.put_only
    | apply State.showVisit_only
    | refine State.Only.of ?_ (mon := .inl (Only.bit hL (by decide)))
    | dsimp only)
theorem State.passEnd_only {L : Nat} {s₀ s : State} (hs₀ : s₀.Only L s) (hL : 16777304 &&& L = 16777304) : s₀.Only L
    (State.passEnd s) := by
  unfold State.passEnd
  repeat (with_reducible first
    | exact hs₀
    | exact Only.sub hL (by decide)
    | apply State.bumpWrap_only
    | apply State.event_only
    | apply State.putB_only
    | apply State.Only.ite
    | split
    | refine State.Only.of ?_ (mon := .inl (Only.bit hL (by decide)))
    | dsimp only)
theorem State.passStep_only {L : Nat} {s₀ s : State} (hs₀ : s₀.Only L s) (hL : 16777304 &&& L = 16777304) : s₀.Only
    L (State.passStep s) := by
  unfold State.passStep
  repeat (with_reducible first
    | exact hs₀
    | exact Only.sub hL (by decide)
    | apply State.visitBegin_only
    | apply State.passEnd_only
    | apply State.Only.ite
    | split
    | refine State.Only.of ?_ (mon := .inl (Only.bit hL (by decide)))
    | dsimp only)
theorem State.visitNext_only {L : Nat} {s₀ s : State} (hs₀ : s₀.Only L s) (hL : 16777304 &&& L = 16777304) : s₀.Only
    L (State.visitNext s) := by
  unfold State.visitNext
  repeat (with_reducible first
    | exact hs₀
    | exact Only.sub hL (by decide)
    | apply State.visitBegin_only
    | apply State.passStep_only
    | split
    | refine State.Only.of ?_ (mon := .inl (Only.bit hL (by decide))))
theorem State.leaveVisit_only {L : Nat} {s₀ s : State} (hs₀ : s₀.Only L s) (hL : 16777216 &&& L = 16777216) :
    s₀.Only L (State.leaveVisit s) := by
  unfold State.leaveVisit
  repeat (with_reducible first
    | exact hs₀
    | exact Only.sub hL (by decide)
    | apply State.Only.ite
    | split
    | refine State.Only.of ?_ (mon := .inl (Only.bit hL (by decide))))
theorem State.visitEnd_only {L : Nat} {s₀ s : State} (hs₀ : s₀.Only L s) (hL : 16777304 &&& L = 16777304) : s₀.Only
    L (State.visitEnd s) := by
  unfold State.visitEnd
  repeat (with_reducible first
    | exact hs₀
    | exact Only.sub hL (by decide)
    | apply State.leaveVisit_only
    | apply State.showVisit_only
    | apply State.visitNext_only
    | apply State.Only.ite
    | split
    | refine State.Only.of ?_ (mon := .inl (Only.bit hL (by decide)))
    | dsimp only)
theorem State.urgentDue_only {L : Nat} {s₀ s : State} (hs₀ : s₀.Only L s) (n : Nat) (hL : 16777304 &&& L = 16777304)
    : s₀.Only L (State.urgentDue s n) := by
  unfold State.urgentDue
  repeat (with_reducible first
    | exact hs₀
    | exact Only.sub hL (by decide)
    | apply State.visitNext_only
    | apply State.bump_only
    | apply State.leaveVisit_only
    | apply State.Only.ite
    | split
    | refine State.Only.of ?_ (mon := .inl (Only.bit hL (by decide)))
    | dsimp only)
theorem State.writeResult_only {L : Nat} {s₀ s : State} (hs₀ : s₀.Only L s) (n : Nat) (value : Int) (fault stale ovr
    tested : Bool) (at_ : Nat) (hL : 16777304 &&& L = 16777304) : s₀.Only L (State.writeResult s n value fault stale
    ovr tested at_) := by
  unfold State.writeResult
  repeat (with_reducible first
    | exact hs₀
    | exact Only.sub hL (by decide)
    | apply State.wr_only
    | apply State.bump_only
    | apply State.event_only
    | apply State.ilkResult_only
    | apply State.Only.ite
    | split
    | dsimp only)
theorem State.visitInvalid_only {L : Nat} {s₀ s : State} (hs₀ : s₀.Only L s) (v : Visit) (hL : 16777304 &&& L =
    16777304) : s₀.Only L (State.visitInvalid s v) := by
  unfold State.visitInvalid
  repeat (with_reducible first
    | exact hs₀
    | exact Only.sub hL (by decide)
    | apply State.writeResult_only
    | apply State.visitEnd_only)
theorem State.visitSwitchDone_only {L : Nat} {s₀ s : State} (hs₀ : s₀.Only L s) (hL : 16777304 &&& L = 16777304) :
    s₀.Only L (State.visitSwitchDone s) := by
  unfold State.visitSwitchDone
  repeat (with_reducible first
    | exact hs₀
    | exact Only.sub hL (by decide)
    | apply State.visitInvalid_only
    | apply State.Only.ite
    | split
    | refine State.Only.of ?_ (mon := .inl (Only.bit hL (by decide)))
    | dsimp only)
theorem State.convert_only {L : Nat} {s₀ s : State} (hs₀ : s₀.Only L s) (v : Visit) (pos neg sine ext : Int) (hL :
    8796093022208 &&& L = 8796093022208) : s₀.Only L (State.convert s v pos neg sine ext).2 := by
  unfold State.convert
  repeat (with_reducible first
    | dsimp only
    | split
    | exact hs₀
    | exact Only.sub hL (by decide)
    | apply State.draw_only)
theorem State.conversionResult_only {L : Nat} {s₀ s : State} (hs₀ : s₀.Only L s) (pos neg sine ref : Int) (ovr :
    Bool) (at_ : Nat) (hL : 8796109799513 &&& L = 8796109799513) : s₀.Only L (State.conversionResult s pos neg sine
    ref ovr at_) := by
  unfold State.conversionResult
  repeat (with_reducible first
    | exact hs₀
    | exact Only.sub hL (by decide)
    | apply State.advance_only
    | apply State.put_only
    | apply State.setBroken_only
    | apply State.convert_only
    | apply State.draw_only
    | apply State.writeResult_only
    | apply State.visitEnd_only
    | apply State.Only.ite
    | refine State.Only.foldlSnd ?_ ?_ <;> [(intro x₀ x₁ hs₀; try dsimp only); skip]
    | refine State.Only.foldl ?_ ?_ <;> [(intro x₀ x₁ hs₀; try dsimp only); skip]
    | split
    | refine State.Only.of ?_ (mon := .inl (Only.bit hL (by decide)))
    | dsimp only)
theorem State.wireBreak_only {L : Nat} {s₀ s : State} (hs₀ : s₀.Only L s) (cause : BreakCause) (at_ : Nat) (hL :
    16777305 &&& L = 16777305) : s₀.Only L (State.wireBreak s cause at_) := by
  unfold State.wireBreak
  repeat (with_reducible first
    | exact hs₀
    | exact Only.sub hL (by decide)
    | apply State.advance_only
    | apply State.setBroken_only
    | apply State.put_only
    | apply State.bump_only
    | apply State.event_only
    | apply State.writeResult_only
    | apply State.visitEnd_only
    | apply State.Only.ite
    | split
    | refine State.Only.of ?_ (mon := .inl (Only.bit hL (by decide)))
    | dsimp only)
theorem State.extOkChange_only {L : Nat} {s₀ s : State} (hs₀ : s₀.Only L s) (ok : Bool) (hL : 16777304 &&& L =
    16777304) : s₀.Only L (State.extOkChange s ok) := by
  unfold State.extOkChange
  repeat (with_reducible first
    | exact hs₀
    | exact Only.sub hL (by decide)
    | apply State.putB_only
    | apply State.event_only
    | apply State.Only.ite
    | split
    | refine State.Only.of ?_ (mon := .inl (Only.bit hL (by decide)))
    | dsimp only)
theorem State.visitBoundary_only {L : Nat} {s₀ s : State} (hs₀ : s₀.Only L s) (hL : 16777304 &&& L = 16777304) :
    s₀.Only L (State.visitBoundary s) := by
  unfold State.visitBoundary
  repeat (with_reducible first
    | exact hs₀
    | exact Only.sub hL (by decide)
    | apply State.takeEntry_only
    | apply State.visitInvalid_only
    | apply State.Only.ite
    | split
    | refine State.Only.of ?_ (mon := .inl (Only.bit hL (by decide)))
    | dsimp only)
theorem State.monStart_only {L : Nat} {s₀ s : State} (hs₀ : s₀.Only L s) (hL : 16777240 &&& L = 16777240) : s₀.Only
    L (State.monStart s) := by
  unfold State.monStart
  repeat (with_reducible first
    | exact hs₀
    | exact Only.sub hL (by decide)
    | apply State.putB_only
    | apply State.Only.ite
    | split
    | refine State.Only.of ?_ (mon := .inl (Only.bit hL (by decide))))
theorem State.monStop_only {L : Nat} {s₀ s : State} (hs₀ : s₀.Only L s) (hL : 16777304 &&& L = 16777304) : s₀.Only L
    (State.monStop s) := by
  unfold State.monStop
  repeat (with_reducible first
    | exact hs₀
    | exact Only.sub hL (by decide)
    | apply State.putB_only
    | apply State.visitEnd_only
    | apply State.Only.ite
    | split
    | refine State.Only.of ?_ (mon := .inl (Only.bit hL (by decide)))
    | dsimp only)
theorem State.monBoundary_only {L : Nat} {s₀ s : State} (hs₀ : s₀.Only L s) (hL : 16777304 &&& L = 16777304) :
    s₀.Only L (State.monBoundary s) := by
  unfold State.monBoundary
  repeat (with_reducible first
    | exact hs₀
    | exact Only.sub hL (by decide)
    | apply State.visitBoundary_only
    | apply State.ilkBoundary_only
    | apply State.visitNext_only
    | apply State.Only.ite
    | split
    | refine State.Only.of ?_ (mon := .inl (Only.bit hL (by decide)))
    | dsimp only)

/-! Fwu.lean -/

theorem State.imgRefuse_only {L : Nat} {s₀ s : State} (hs₀ : s₀.Only L s) (cmd detail : Nat) (hL : 24 &&& L = 24) :
    s₀.Only L (State.imgRefuse s cmd detail).2 := by
  unfold State.imgRefuse
  repeat (with_reducible first
    | dsimp only
    | split
    | exact hs₀
    | exact Only.sub hL (by decide)
    | apply State.put_only
    | apply State.bump_only)
theorem State.setFwu_only {L : Nat} {s₀ s : State} (hs₀ : s₀.Only L s) (f : FwuSt) (hL : 33554456 &&& L = 33554456)
    : s₀.Only L (State.setFwu s f) := by
  unfold State.setFwu
  repeat (with_reducible first
    | exact hs₀
    | exact Only.sub hL (by decide)
    | apply State.showFwu_only
    | refine State.Only.of ?_ (fwu := .inl (Only.bit hL (by decide))))
theorem State.imgBegin_only {L : Nat} {s₀ s : State} (hs₀ : s₀.Only L s) (isK : Bool) (header : List Byte) (at_ :
    Nat) (hL : 33554456 &&& L = 33554456) : s₀.Only L (State.imgBegin s isK header at_).2 := by
  unfold State.imgBegin
  repeat (with_reducible first
    | dsimp only
    | split
    | exact hs₀
    | exact Only.sub hL (by decide)
    | apply State.imgRefuse_only
    | apply State.setFwu_only
    | apply State.put_only)
theorem State.imgData_only {L : Nat} {s₀ s : State} (hs₀ : s₀.Only L s) (off : Nat) (words : List Word) (at_ : Nat)
    (hL : 33554456 &&& L = 33554456) : s₀.Only L (State.imgData s off words at_).2 := by
  unfold State.imgData
  repeat (with_reducible first
    | dsimp only
    | split
    | exact hs₀
    | exact Only.sub hL (by decide)
    | apply State.imgRefuse_only
    | apply State.setFwu_only
    | apply State.put_only)
theorem State.imgEnd_only {L : Nat} {s₀ s : State} (hs₀ : s₀.Only L s) (isK : Bool) (hL : 33554520 &&& L = 33554520)
    : s₀.Only L (State.imgEnd s isK).2 := by
  unfold State.imgEnd
  repeat (with_reducible first
    | dsimp only
    | split
    | exact hs₀
    | exact Only.sub hL (by decide)
    | apply State.imgRefuse_only
    | apply State.setFwu_only
    | apply State.bump_only
    | apply State.event_only)
theorem State.imgCancel_only {L : Nat} {s₀ s : State} (hs₀ : s₀.Only L s) (isK : Bool) (hL : 33554456 &&& L =
    33554456) : s₀.Only L (State.imgCancel s isK).2 := by
  unfold State.imgCancel
  repeat (with_reducible first
    | dsimp only
    | split
    | exact hs₀
    | exact Only.sub hL (by decide)
    | apply State.imgRefuse_only
    | apply State.setFwu_only)
theorem State.transferTimeout_only {L : Nat} {s₀ s : State} (hs₀ : s₀.Only L s) (hL : 33554456 &&& L = 33554456) :
    s₀.Only L (State.transferTimeout s) := by
  unfold State.transferTimeout
  repeat (with_reducible first
    | exact hs₀
    | exact Only.sub hL (by decide)
    | apply State.setFwu_only
    | apply State.Only.ite
    | split)
theorem State.imgCommit_only {L : Nat} {s₀ s : State} (hs₀ : s₀.Only L s) (isK : Bool) (version : Nat) (hL :
    33554520 &&& L = 33554520) : s₀.Only L (State.imgCommit s isK version).2 := by
  unfold State.imgCommit
  repeat (with_reducible first
    | dsimp only
    | split
    | exact hs₀
    | exact Only.sub hL (by decide)
    | apply State.imgRefuse_only
    | apply State.put_only
    | apply State.putB_only
    | apply State.setFwu_only
    | apply State.event_only)
theorem State.imgReject_only {L : Nat} {s₀ s : State} (hs₀ : s₀.Only L s) (isK : Bool) (hL : 24 &&& L = 24) :
    s₀.Only L (State.imgReject s isK).2 := by
  unfold State.imgReject
  repeat (with_reducible first | split | exact hs₀ | exact Only.sub hL (by decide) | apply State.imgRefuse_only)
theorem State.trialTimeout_only {L : Nat} {s₀ s : State} (hs₀ : s₀.Only L s) (hL : 17179869183 &&& L = 17179869183)
    : s₀.Only L (State.trialTimeout s) := by
  unfold State.trialTimeout
  repeat (with_reducible first
    | exact hs₀
    | exact Only.sub hL (by decide)
    | apply State.failTrial_only
    | apply State.Only.ite
    | split)
theorem State.coreRestart_only {L : Nat} {s₀ s : State} (hs₀ : s₀.Only L s) (hL : 17179869183 &&& L = 17179869183) :
    s₀.Only L (State.coreRestart s) := by
  unfold State.coreRestart
  repeat (with_reducible first
    | exact hs₀
    | exact Only.sub hL (by decide)
    | apply State.uncorrectableRead_only
    | apply State.restartCore_only
    | apply State.Only.ite
    | split)
theorem State.revertTrial_only {L : Nat} {s₀ s : State} (hs₀ : s₀.Only L s) (hL : 1082365313112 &&& L =
    1082365313112) : s₀.Only L (State.revertTrial s) := by
  unfold State.revertTrial
  repeat (with_reducible first
    | exact hs₀
    | exact Only.sub hL (by decide)
    | apply State.withSettings_only
    | apply State.put_only
    | apply State.putB_only
    | apply State.bump_only
    | apply State.event_only
    | apply State.Only.ite
    | split
    | refine State.Only.of ?_ (fwu := .inl (Only.bit hL (by decide)))
    | dsimp only)
theorem State.installStaged_only {L : Nat} {s₀ s : State} (hs₀ : s₀.Only L s) (hL : 33554504 &&& L = 33554504) :
    s₀.Only L (State.installStaged s) := by
  unfold State.installStaged
  repeat (with_reducible first
    | exact hs₀
    | exact Only.sub hL (by decide)
    | apply State.event_only
    | apply State.Only.ite
    | split
    | refine State.Only.of ?_ (fwu := .inl (Only.bit hL (by decide)))
    | dsimp only)
theorem State.migrate_only {L : Nat} {s₀ s : State} (hs₀ : s₀.Only L s) (hL : 1082365313024 &&& L = 1082365313024) :
    s₀.Only L (State.migrate s) := by
  unfold State.migrate
  repeat (with_reducible first
    | exact hs₀
    | exact Only.sub hL (by decide)
    | apply State.withSettings_only
    | split
    | dsimp only)
theorem State.damagedC_only {L : Nat} {s₀ s : State} (hs₀ : s₀.Only L s) (hL : 33554520 &&& L = 33554520) : s₀.Only
    L (State.damagedC s) := by
  unfold State.damagedC
  repeat (with_reducible first
    | exact hs₀
    | exact Only.sub hL (by decide)
    | apply State.event_only
    | apply State.put_only
    | apply State.Only.ite
    | split
    | refine State.Only.of ?_ (fwu := .inl (Only.bit hL (by decide)))
    | dsimp only)
theorem State.damagedK_only {L : Nat} {s₀ s : State} (hs₀ : s₀.Only L s) (ok : Bool) (hL : 88 &&& L = 88) : s₀.Only
    L (State.damagedK s ok) := by
  unfold State.damagedK
  repeat (with_reducible first
    | exact hs₀
    | exact Only.sub hL (by decide)
    | apply State.putB_only
    | apply State.event_only
    | apply State.Only.ite
    | split)
theorem State.damagedSettings_only {L : Nat} {s₀ s : State} (hs₀ : s₀.Only L s) (ok : Bool) (hL : 1082365313112 &&&
    L = 1082365313112) : s₀.Only L (State.damagedSettings s ok) := by
  unfold State.damagedSettings
  repeat (with_reducible first
    | exact hs₀
    | exact Only.sub hL (by decide)
    | apply State.withSettings_only
    | apply State.putB_only
    | apply State.event_only
    | apply State.Only.ite
    | split
    | dsimp only)
theorem State.imageEngine_only {L : Nat} {s₀ s : State} (hs₀ : s₀.Only L s) (env : StartEnv) (hL : 1082365313112 &&&
    L = 1082365313112) : s₀.Only L (State.imageEngine s env).1 := by
  unfold State.imageEngine
  repeat (with_reducible first
    | dsimp only
    | split
    | exact hs₀
    | exact Only.sub hL (by decide)
    | apply State.revertTrial_only
    | apply State.installStaged_only
    | apply State.damagedC_only
    | apply State.damagedK_only
    | apply State.migrate_only
    | apply State.damagedSettings_only
    | apply State.showFwu_only
    | refine State.Only.of ?_ (fwu := .inl (Only.bit hL (by decide))))

/-! Power.lean -/

theorem State.clearTileBuckets_only {L : Nat} {s₀ s : State} (hs₀ : s₀.Only L s) (t : Fin 16) (hL : 262168 &&& L =
    262168) : s₀.Only L (State.clearTileBuckets s t) := by
  unfold State.clearTileBuckets
  repeat (with_reducible first
    | exact hs₀
    | exact Only.sub hL (by decide)
    | apply State.put_only
    | refine State.Only.each ?_ ?_ <;> [(intro u x₁ hs₀; try dsimp only); skip]
    | split
    | refine State.Only.of ?_ (lastCorr := .inl (Only.bit hL (by decide)))
    | dsimp only)
theorem State.raiseTile_only {L : Nat} {s₀ s : State} (hs₀ : s₀.Only L s) (t : Fin 16) (ok : Bool) (why : Nat) (hL :
    107374475256 &&& L = 107374475256) : s₀.Only L (State.raiseTile s t ok why) := by
  unfold State.raiseTile
  repeat (with_reducible first
    | exact hs₀
    | exact Only.sub hL (by decide)
    | apply State.setTile_only
    | apply State.put_only
    | apply State.testBit_only
    | apply State.eventIf_only
    | apply State.clearTileBuckets_only
    | apply State.loadClassK_only
    | apply State.loadSettings_only
    | apply State.reloadTile_only
    | apply State.putB_only
    | apply State.followBlocks_only
    | apply State.showPort_only
    | apply State.showPg_only
    | apply State.showDies_only
    | apply State.Only.ite
    | split
    | dsimp only)
theorem State.powerTile_only {L : Nat} {s₀ s : State} (hs₀ : s₀.Only L s) (t : Fin 16) (start : TileStart) (why :
    Nat) (hL : 120259084287 &&& L = 120259084287) : s₀.Only L (State.powerTile s t start why) := by
  unfold State.powerTile
  repeat (with_reducible first
    | exact hs₀
    | exact Only.sub hL (by decide)
    | apply State.loadMram_only
    | apply State.raiseTile_only
    | apply State.Only.ite
    | split
    | dsimp only)
theorem State.tilePowerUp_only {L : Nat} {s₀ s : State} (hs₀ : s₀.Only L s) (t : Fin 16) (start : TileStart) (hL :
    120259084287 &&& L = 120259084287) : s₀.Only L (State.tilePowerUp s t start) := by
  unfold State.tilePowerUp
  repeat (with_reducible first
    | exact hs₀
    | exact Only.sub hL (by decide)
    | apply State.powerTile_only
    | apply State.Only.ite
    | split)
theorem State.groupTile_only {L : Nat} {s₀ s : State} (hs₀ : s₀.Only L s) (failing : BitVec 16) (t : Fin 16) (hL :
    107374475256 &&& L = 107374475256) : s₀.Only L (State.groupTile s failing t) := by
  unfold State.groupTile
  repeat (with_reducible first
    | exact hs₀
    | exact Only.sub hL (by decide)
    | apply State.put_only
    | apply State.raiseTile_only
    | apply State.Only.ite
    | split
    | dsimp only)
theorem State.tileGroupPower_only {L : Nat} {s₀ s : State} (hs₀ : s₀.Only L s) (g : Fin 4) (start : GroupStart) (hL
    : 8916352106495 &&& L = 8916352106495) : s₀.Only L (State.tileGroupPower s g start) := by
  unfold State.tileGroupPower
  repeat (with_reducible first
    | exact hs₀
    | exact Only.sub hL (by decide)
    | apply State.loadMram_only
    | apply State.groupTile_only
    | apply State.put_only
    | apply State.startDiscovery_only
    | apply State.leaveStep9_only
    | apply State.Only.ite
    | refine State.Only.each ?_ ?_ <;> [(intro u x₁ hs₀; try dsimp only); skip]
    | split
    | refine State.Only.of ?_ (pow := .inl (Only.bit hL (by decide)))
    | dsimp only)
theorem State.tileStops_only {L : Nat} {s₀ s : State} (hs₀ : s₀.Only L s) (t : Fin 16) (hL : 4295000056 &&& L =
    4295000056) : s₀.Only L (State.tileStops s t) := by
  unfold State.tileStops
  repeat (with_reducible first
    | exact hs₀
    | exact Only.sub hL (by decide)
    | apply State.tileLost_only
    | apply State.put_only
    | apply State.showPg_only
    | apply State.showDies_only
    | apply State.stopRecording_only
    | apply State.setTile_only
    | apply State.dropHits_only
    | apply State.disarmAll_only
    | apply State.putB_only
    | apply State.followBlocks_only
    | apply State.Only.ite
    | split
    | dsimp only)
theorem State.powerGood_only {L : Nat} {s₀ s : State} (hs₀ : s₀.Only L s) (hL : 67108888 &&& L = 67108888) : s₀.Only
    L (State.powerGood s) := by
  unfold State.powerGood
  repeat (with_reducible first
    | exact hs₀
    | exact Only.sub hL (by decide)
    | apply State.showPg_only
    | apply State.Only.ite
    | split
    | refine State.Only.of ?_ (pow := .inl (Only.bit hL (by decide))))
theorem State.powerFail_only {L : Nat} {s₀ s : State} (hs₀ : s₀.Only L s) (under : Bool) (hL : 17179869183 &&& L =
    17179869183) : s₀.Only L (State.powerFail s under) := by
  unfold State.powerFail
  repeat (with_reducible first
    | exact hs₀
    | exact Only.sub hL (by decide)
    | apply State.boot_only
    | apply State.Only.ite
    | split)
theorem State.resetAssert_only {L : Nat} {s₀ s : State} (hs₀ : s₀.Only L s) (hL : 17179869183 &&& L = 17179869183) :
    s₀.Only L (State.resetAssert s) := by
  unfold State.resetAssert
  repeat (with_reducible first
    | exact hs₀
    | exact Only.sub hL (by decide)
    | apply State.boot_only
    | apply State.showPg_only
    | apply State.Only.ite
    | split
    | refine State.Only.of ?_ (pow := .inl (Only.bit hL (by decide))))
theorem State.resetRelease_only {L : Nat} {s₀ s : State} (hs₀ : s₀.Only L s) (hL : 67108888 &&& L = 67108888) :
    s₀.Only L (State.resetRelease s) := by
  unfold State.resetRelease
  repeat (with_reducible first
    | exact hs₀
    | exact Only.sub hL (by decide)
    | apply State.showPg_only
    | apply State.Only.ite
    | split
    | refine State.Only.of ?_ (pow := .inl (Only.bit hL (by decide)))
    | dsimp only)
theorem State.startStep1_only {L : Nat} {s₀ s : State} (hs₀ : s₀.Only L s) (hL : 88 &&& L = 88) : s₀.Only L
    (State.startStep1 s) := by
  unfold State.startStep1
  repeat (with_reducible first
    | exact hs₀
    | exact Only.sub hL (by decide)
    | apply State.put_only
    | apply State.putB_only
    | apply State.bump_only
    | apply State.eventIf_only
    | apply State.event_only
    | apply State.Only.ite
    | split
    | dsimp only)
theorem State.gateLoaded_only {L : Nat} {s₀ s : State} (hs₀ : s₀.Only L s) (p : Pin) (hL : 280 &&& L = 280) :
    s₀.Only L (State.gateLoaded s p) := by
  unfold State.gateLoaded
  repeat (with_reducible first
    | exact hs₀
    | exact Only.sub hL (by decide)
    | apply State.putB_only
    | apply State.setTile_only
    | refine State.Only.each ?_ ?_ <;> [(intro u x₁ hs₀; try dsimp only); skip]
    | dsimp only)
theorem State.startStep2_only {L : Nat} {s₀ s : State} (hs₀ : s₀.Only L s) (hL : 8606712152 &&& L = 8606712152) :
    s₀.Only L (State.startStep2 s) := by
  unfold State.startStep2
  repeat (with_reducible first
    | exact hs₀
    | exact Only.sub hL (by decide)
    | apply State.loadClassK_only
    | apply State.loadSettings_only
    | apply State.gateLoaded_only
    | apply State.put_only
    | apply State.putB_only
    | apply State.showJournal_only
    | apply State.showRemap_only
    | apply State.ilkBoundary_only
    | apply State.journalEvent_only
    | apply State.showFwu_only
    | refine State.Only.each ?_ ?_ <;> [(intro u x₁ hs₀; try dsimp only); skip]
    | dsimp only)
theorem State.startConc_only {L : Nat} {s₀ s : State} (hs₀ : s₀.Only L s) (pass : BitVec 24) (board : Nat) (c :
    Conc) (hL : 8821940712536 &&& L = 8821940712536) : s₀.Only L (State.startConc s pass board c) := by
  unfold State.startConc
  repeat (with_reducible first
    | exact hs₀
    | exact Only.sub hL (by decide)
    | apply State.setRail_only
    | apply State.concChecked_only
    | apply State.bringUp_only
    | apply State.setConc_only
    | apply State.Only.ite
    | split
    | dsimp only)
theorem State.startCore_only {L : Nat} {s₀ s : State} (hs₀ : s₀.Only L s) (trial : TrialStart) (hL : 24 &&& L = 24)
    : s₀.Only L (State.startCore s trial) := by
  unfold State.startCore
  repeat (with_reducible first
    | exact hs₀
    | exact Only.sub hL (by decide)
    | apply State.putB_only
    | apply State.showFwu_only
    | apply State.put_only
    | apply State.Only.ite
    | split)
theorem State.startSequence_only {L : Nat} {s₀ s : State} (hs₀ : s₀.Only L s) (env : StartEnv) (hL : 9895604649983
    &&& L = 9895604649983) : s₀.Only L (State.startSequence s env) := by
  unfold State.startSequence
  split
  · exact hs₀
  have k := State.imageEngine_only (State.readMram_only (State.startStep1_only hs₀ (Only.sub hL (by decide)))
      env.mram (Only.sub hL (by decide))) env (Only.sub hL (by decide))
  revert k
  generalize (s.startStep1.readMram env.mram).imageEngine env = p
  obtain ⟨u, x⟩ := p
  intro k
  dsimp only at k ⊢
  split
  · exact State.failTrial_only k _ _ (Only.sub hL (by decide))
  have l := State.eventIf_only (State.putB_only (State.startStep2_only k (Only.sub hL (by decide))) pgINTG
      Reg.INTG.ST_STAT_BELFRY env.belfryOk (Only.sub hL (by decide)))
    (!env.belfryOk) pgINTG 28 (Only.sub hL (by decide))
  revert l
  generalize ((u.startStep2.putB pgINTG Reg.INTG.ST_STAT_BELFRY env.belfryOk).eventIf (!env.belfryOk) pgINTG 28) = v
  intro l
  have m : s₀.Only L { v with pow := { v.pow with
      mode := .on, groups := 0, uvlo := false, busFault := false, belfryFault := false } } :=
    State.Only.of l (pow := .inl (Only.bit hL (by decide)))
  revert m
  generalize ({ v with pow := { v.pow with
      mode := .on, groups := 0, uvlo := false, busFault := false, belfryFault := false } } : State) = w
  intro m
  refine .ite ?_ ?_
  · repeat (with_reducible first
      | exact m
      | exact Only.sub hL (by decide)
      | apply State.showDies_only
      | apply State.showPg_only
      | apply State.startDiscovery_only
      | apply State.put_only
      | refine State.Only.each ?_ ?_ <;> [(intro u x₁ m); skip])
  · repeat (with_reducible first
      | exact m
      | exact Only.sub hL (by decide)
      | apply State.showDies_only
      | apply State.showPg_only
      | apply State.startCore_only
      | apply State.startConc_only
      | apply State.putB_only)
theorem State.ready_only {L : Nat} {s₀ s : State} (hs₀ : s₀.Only L s) (ms : Nat) (hL : 4218968 &&& L = 4218968) :
    s₀.Only L (State.ready s ms) := by
  unfold State.ready
  repeat (with_reducible first
    | exact hs₀
    | exact Only.sub hL (by decide)
    | apply State.put_only
    | apply State.event_only
    | apply State.startGrant_only
    | apply State.Only.ite
    | split
    | dsimp only)
theorem State.dieStops_only {L : Nat} {s₀ s : State} (hs₀ : s₀.Only L s) (x0 : Die) (hL : 12895944696 &&& L =
    12895944696) : s₀.Only L (State.dieStops s x0) := by
  unfold State.dieStops
  repeat (with_reducible first
    | exact hs₀
    | exact Only.sub hL (by decide)
    | apply State.tileStops_only
    | apply State.resetConc_only
    | apply State.showPg_only
    | split)
theorem State.belfryStops_only {L : Nat} {s₀ s : State} (hs₀ : s₀.Only L s) (fault : Bool) (hL : 17179869183 &&& L =
    17179869183) : s₀.Only L (State.belfryStops s fault) := by
  unfold State.belfryStops
  repeat (with_reducible first | exact hs₀ | exact Only.sub hL (by decide) | apply State.boot_only | split)
theorem State.converterFault_only {L : Nat} {s₀ s : State} (hs₀ : s₀.Only L s) (d : Die) (hL : 17179869183 &&& L =
    17179869183) : s₀.Only L (State.converterFault s d) := by
  unfold State.converterFault
  repeat (with_reducible first
    | exact hs₀
    | exact Only.sub hL (by decide)
    | apply State.boot_only
    | apply State.belfryStops_only
    | apply State.wr_only
    | apply State.bump_only
    | apply State.event_only
    | apply State.dieStops_only
    | apply State.Only.ite
    | split
    | dsimp only)
theorem State.convFaultClear_only {L : Nat} {s₀ s : State} (hs₀ : s₀.Only L s) (v : Word) (hL : 24 &&& L = 24) :
    s₀.Only L (State.convFaultClear s v) := by
  unfold State.convFaultClear
  repeat (with_reducible first
    | exact hs₀
    | exact Only.sub hL (by decide)
    | apply State.wr_only
    | apply State.showPg_only)
theorem State.overLimit_only {L : Nat} {s₀ s : State} (hs₀ : s₀.Only L s) (d : Die) (current : Bool) (hL :
    17179869183 &&& L = 17179869183) : s₀.Only L (State.overLimit s d current) := by
  unfold State.overLimit
  repeat (with_reducible first
    | exact hs₀
    | exact Only.sub hL (by decide)
    | apply State.belfryStops_only
    | apply State.bump_only
    | apply State.event_only
    | apply State.dieStops_only
    | apply State.Only.ite
    | split
    | refine State.Only.of ?_ (pow := .inl (Only.bit hL (by decide)))
    | dsimp only)
theorem State.overLimitRecover_only {L : Nat} {s₀ s : State} (hs₀ : s₀.Only L s) (d : Die) (hL : 67108888 &&& L =
    67108888) : s₀.Only L (State.overLimitRecover s d) := by
  unfold State.overLimitRecover
  repeat (with_reducible first
    | exact hs₀
    | exact Only.sub hL (by decide)
    | apply State.showPg_only
    | apply State.Only.ite
    | split
    | refine State.Only.of ?_ (pow := .inl (Only.bit hL (by decide))))

/-! Tap.lean -/

theorem State.testLogicReset_only {L : Nat} {s₀ s : State} (hs₀ : s₀.Only L s) (hL : 134217728 &&& L = 134217728) :
    s₀.Only L (State.testLogicReset s) := by
  unfold State.testLogicReset
  repeat (with_reducible first
    | exact hs₀
    | exact Only.sub hL (by decide)
    | refine State.Only.of ?_ (tap := .inl (Only.bit hL (by decide))))
theorem State.testClockEdge_only {L : Nat} {s₀ s : State} (hs₀ : s₀.Only L s) (rising tms tdi : Bool) (pins :
    TestPins) (hL : 8796227239936 &&& L = 8796227239936) : s₀.Only L (State.testClockEdge s rising tms tdi pins) := by
  unfold State.testClockEdge
  split
  · exact hs₀
  split
  · exact State.testLogicReset_only hs₀ (Only.sub hL (by decide))
  split
  · have k := State.draw_only hs₀ (Only.sub hL (by decide))
    revert k
    generalize s.draw = p
    intro k
    exact State.Only.of k (tap := .inl (Only.bit hL (by decide)))
  · exact State.Only.of hs₀ (tap := .inl (Only.bit hL (by decide)))

/-! Access.lean -/

theorem State.readMemory_only {L : Nat} {s₀ s : State} (hs₀ : s₀.Only L s) (k : PageKind) (page off : Nat) (ecc :
    EccRead) (hL : 8804691634264 &&& L = 8804691634264) : s₀.Only L (State.readMemory s k page off ecc) := by
  unfold State.readMemory
  repeat (with_reducible first
    | exact hs₀
    | exact Only.sub hL (by decide)
    | apply State.countAnywhere_only
    | apply State.setConc_only
    | apply State.countRead_only
    | apply State.poisonEntry_only
    | apply State.poisonTac_only
    | apply State.restartTurn_only
    | apply State.poisonJournal_only
    | apply State.poisoned_only
    | apply State.Only.ite
    | split
    | dsimp only)
theorem State.fetchReg_only {L : Nat} {s₀ s : State} (hs₀ : s₀.Only L s) (page off : Nat) (ecc : EccRead) (hL :
    8804691765336 &&& L = 8804691765336) : s₀.Only L (State.fetchReg s page off ecc).2.2 := by
  unfold State.fetchReg
  repeat (with_reducible first
    | dsimp only
    | split
    | exact hs₀
    | exact Only.sub hL (by decide)
    | apply State.readMemory_only
    | apply State.readOne_only)
theorem State.queueStick_only {L : Nat} {s₀ s : State} (hs₀ : s₀.Only L s) (x : StickCmd) (hL : 4194304 &&& L =
    4194304) : s₀.Only L (State.queueStick s x) := by
  unfold State.queueStick
  repeat (with_reducible first
    | exact hs₀
    | exact Only.sub hL (by decide)
    | refine State.Only.of ?_ (stick := .inl (Only.bit hL (by decide))))
theorem State.pulseNow_only {L : Nat} {s₀ s : State} (hs₀ : s₀.Only L s) (k : PageKind) (by_ : StickCmd) (page off :
    Nat) (v : Word) (free : Bool) (hL : 13202520 &&& L = 13202520) : s₀.Only L (State.pulseNow s k by_ page off v
    free) := by
  unfold State.pulseNow
  repeat (with_reducible first
    | exact hs₀
    | exact Only.sub hL (by decide)
    | apply State.discardStaged_only
    | apply State.stageClr_only
    | apply State.hostSwap_only
    | apply State.startHostRead_only
    | apply State.scrubGo_only
    | apply State.abortScrub_only
    | apply State.fire_only
    | apply State.requestResend_only
    | apply State.queueStick_only
    | apply State.Only.ite
    | split
    | dsimp only)
theorem State.writeAll_only {L : Nat} {s₀ s : State} (hs₀ : s₀.Only L s) (by_ : StickCmd) (page off : Nat) (v :
    Word) (rwl : Bool) (hL : 670028231800 &&& L = 670028231800) : s₀.Only L (State.writeAll s by_ page off v rwl).2
    := by
  unfold State.writeAll
  repeat (with_reducible first
    | dsimp only
    | split
    | exact hs₀
    | exact Only.sub hL (by decide)
    | apply State.writeOnePage_only
    | apply State.pulseNow_only
    | refine State.Only.foldlSnd ?_ ?_ <;> [(intro x₀ x₁ hs₀; try dsimp only); skip]
    | refine State.Only.foldl ?_ ?_ <;> [(intro x₀ x₁ hs₀; try dsimp only); skip])
theorem State.coreWrite_only {L : Nat} {s₀ s : State} (hs₀ : s₀.Only L s) (page off : Nat) (v : Word) (hL :
    816057119864 &&& L = 816057119864) : s₀.Only L (State.coreWrite s page off v) := by
  unfold State.coreWrite
  repeat (with_reducible first
    | exact hs₀
    | exact Only.sub hL (by decide)
    | apply State.writeAll_only
    | apply State.countResult_only
    | apply State.append_only
    | apply State.noteWrites_only
    | apply State.Only.ite
    | split
    | dsimp only)
theorem State.coreRead_only {L : Nat} {s₀ s : State} (hs₀ : s₀.Only L s) (page off : Nat) (ecc : EccRead := .clean)
    (hL : 8804691765336 &&& L = 8804691765336) : s₀.Only L (State.coreRead s page off ecc).2 := by
  unfold State.coreRead
  repeat (with_reducible first
    | dsimp only
    | split
    | exact hs₀
    | exact Only.sub hL (by decide)
    | apply State.fetchReg_only
    | apply State.countResult_only)
theorem State.ringLevels_only {L : Nat} {s₀ s : State} (hs₀ : s₀.Only L s) (f : Nat) (hL : 816057119864 &&& L =
    816057119864) : s₀.Only L (State.ringLevels s f) := by
  unfold State.ringLevels
  repeat (with_reducible first
    | exact hs₀
    | exact Only.sub hL (by decide)
    | apply State.coreWrite_only
    | apply State.put_only
    | apply State.Only.ite
    | refine State.Only.each ?_ ?_ <;> [(intro u x₁ hs₀; try dsimp only); skip]
    | split
    | dsimp only)

/-! Frame.lean -/

theorem State.zero_only {L : Nat} {s₀ s : State} (hs₀ : s₀.Only L s) (page : Nat) (l : List FieldRef) (hL : 24 &&& L
    = 24) : s₀.Only L (State.zero s page l) := by
  unfold State.zero
  repeat (with_reducible first
    | exact hs₀
    | exact Only.sub hL (by decide)
    | apply State.put_only
    | refine State.Only.each ?_ ?_ <;> [(intro u x₁ hs₀; try dsimp only); skip])
theorem State.clearBeside_only {L : Nat} {s₀ s : State} (hs₀ : s₀.Only L s) (k : PageKind) (bit : Nat) (hL : 8544256
    &&& L = 8544256) : s₀.Only L (State.clearBeside s k bit) := by
  unfold State.clearBeside
  repeat (with_reducible first
    | exact hs₀
    | exact Only.sub hL (by decide)
    | apply State.restartTurn_only
    | apply State.Only.ite
    | split
    | refine State.Only.of ?_ (time := .inl (Only.bit hL (by decide))) (cal := .inl (Only.bit hL (by decide))))
theorem State.clearCount_only {L : Nat} {s₀ s : State} (hs₀ : s₀.Only L s) (k : PageKind) (page bit : Nat) (hL :
    8544280 &&& L = 8544280) : s₀.Only L (State.clearCount s k page bit) := by
  unfold State.clearCount
  repeat (with_reducible first
    | exact hs₀
    | exact Only.sub hL (by decide)
    | apply State.zero_only
    | apply State.clearBeside_only
    | apply State.wr_only
    | dsimp only)
theorem State.cntClr_only {L : Nat} {s₀ s : State} (hs₀ : s₀.Only L s) (k : PageKind) (page : Nat) (v : Word) (hL :
    8544280 &&& L = 8544280) : s₀.Only L (State.cntClr s k page v) := by
  unfold State.cntClr
  repeat (with_reducible first
    | exact hs₀
    | exact Only.sub hL (by decide)
    | apply State.clearCount_only
    | apply State.zero_only
    | refine State.Only.foldlSnd ?_ ?_ <;> [(intro x₀ x₁ hs₀; try dsimp only); skip]
    | refine State.Only.foldl ?_ ?_ <;> [(intro x₀ x₁ hs₀; try dsimp only); skip])
theorem State.portClr_only {L : Nat} {s₀ s : State} (hs₀ : s₀.Only L s) (page p : Nat) (hL : 8544280 &&& L =
    8544280) : s₀.Only L (State.portClr s page p) := by
  unfold State.portClr
  repeat (with_reducible first
    | exact hs₀
    | exact Only.sub hL (by decide)
    | apply State.clearCount_only
    | apply State.zero_only
    | refine State.Only.foldlSnd ?_ ?_ <;> [(intro x₀ x₁ hs₀; try dsimp only); skip]
    | refine State.Only.foldl ?_ ?_ <;> [(intro x₀ x₁ hs₀; try dsimp only); skip])
theorem State.clearBad_only {L : Nat} {s₀ s : State} (hs₀ : s₀.Only L s) (chan : Nat) (hL : 8388632 &&& L = 8388632)
    : s₀.Only L (State.clearBad s chan) := by
  unfold State.clearBad
  repeat (with_reducible first
    | exact hs₀
    | exact Only.sub hL (by decide)
    | apply State.put_only
    | apply State.Only.ite
    | split
    | refine State.Only.of ?_ (cal := .inl (Only.bit hL (by decide)))
    | dsimp only)
theorem State.dllStops_only {L : Nat} {s₀ s : State} (hs₀ : s₀.Only L s) (t : Fin 16) (hL : 472 &&& L = 472) :
    s₀.Only L (State.dllStops s t) := by
  unfold State.dllStops
  repeat (with_reducible first
    | exact hs₀
    | exact Only.sub hL (by decide)
    | apply State.setTile_only
    | apply State.lockLost_only
    | apply State.putB_only
    | apply State.Only.ite
    | split
    | dsimp only)
theorem State.headerPulse_only {L : Nat} {s₀ s : State} (hs₀ : s₀.Only L s) (k : PageKind) (w : PendWrite) (hL :
    8544280 &&& L = 8544280) : s₀.Only L (State.headerPulse s k w) := by
  unfold State.headerPulse
  repeat (with_reducible first
    | exact hs₀
    | exact Only.sub hL (by decide)
    | apply State.clearCount_only
    | apply State.wr_only
    | apply State.Only.ite
    | refine State.Only.foldlSnd ?_ ?_ <;> [(intro x₀ x₁ hs₀; try dsimp only); skip]
    | refine State.Only.foldl ?_ ?_ <;> [(intro x₀ x₁ hs₀; try dsimp only); skip]
    | split)
theorem State.ownPulse_only {L : Nat} {s₀ s : State} (hs₀ : s₀.Only L s) (k : PageKind) (f : Nat) (w : PendWrite)
    (hL : 8615785944 &&& L = 8615785944) : s₀.Only L (State.ownPulse s k f w) := by
  unfold State.ownPulse
  repeat (with_reducible first
    | exact hs₀
    | exact Only.sub hL (by decide)
    | apply State.clearSelfMask_only
    | apply State.dllStops_only
    | apply State.portClr_only
    | apply State.clearBad_only
    | apply State.snap_only
    | apply State.requestSwitch_only
    | apply State.releaseFreeze_only
    | apply State.faultClr_only
    | apply State.injOne_only
    | apply State.putB_only
    | apply State.setBroken_only
    | apply State.monStart_only
    | apply State.monStop_only
    | apply State.convFaultClear_only
    | apply State.Only.ite
    | refine State.Only.foldlSnd ?_ ?_ <;> [(intro x₀ x₁ hs₀; try dsimp only); skip]
    | refine State.Only.foldl ?_ ?_ <;> [(intro x₀ x₁ hs₀; try dsimp only); skip]
    | split
    | dsimp only)
theorem State.pulse_only {L : Nat} {s₀ s : State} (hs₀ : s₀.Only L s) (f : Nat) (w : PendWrite) (hL : 8615785944 &&&
    L = 8615785944) : s₀.Only L (State.pulse s f w) := by
  unfold State.pulse
  repeat (with_reducible first
    | exact hs₀
    | exact Only.sub hL (by decide)
    | apply State.headerPulse_only
    | apply State.cntClr_only
    | apply State.ownPulse_only
    | apply State.Only.ite
    | split)
theorem State.blankBlock_only {L : Nat} {s₀ s : State} (hs₀ : s₀.Only L s) (page f : Nat) (hL : 152 &&& L = 152) :
    s₀.Only L (State.blankBlock s page f) := by
  unfold State.blankBlock
  repeat (with_reducible first
    | exact hs₀
    | exact Only.sub hL (by decide)
    | apply State.blank_only
    | refine State.Only.each ?_ ?_ <;> [(intro u x₁ hs₀; try dsimp only); skip])
theorem State.chCfgChanged_only {L : Nat} {s₀ s : State} (hs₀ : s₀.Only L s) (chan f : Nat) (old new : Word) (hL :
    152 &&& L = 152) : s₀.Only L (State.chCfgChanged s chan f old new) := by
  unfold State.chCfgChanged
  repeat (with_reducible first
    | exact hs₀
    | exact Only.sub hL (by decide)
    | apply State.blank_only
    | apply State.setChan_only
    | apply State.Only.ite
    | split
    | dsimp only)
theorem State.blockChanged_only {L : Nat} {s₀ s : State} (hs₀ : s₀.Only L s) (page off f : Nat) (old new : Word) (hL
    : 152 &&& L = 152) : s₀.Only L (State.blockChanged s page off f old new) := by
  unfold State.blockChanged
  repeat (with_reducible first
    | exact hs₀
    | exact Only.sub hL (by decide)
    | apply State.blankBlock_only
    | apply State.chCfgChanged_only
    | apply State.Only.ite
    | split)
theorem State.headerChanged_only {L : Nat} {s₀ s : State} (hs₀ : s₀.Only L s) (page off : Nat) (old new : Word) (hL
    : 64 &&& L = 64) : s₀.Only L (State.headerChanged s page off old new) := by
  unfold State.headerChanged
  repeat (with_reducible first
    | exact hs₀
    | exact Only.sub hL (by decide)
    | apply State.queueEvent_only
    | apply State.Only.ite
    | split
    | dsimp only)
theorem State.overrideTiles_only {L : Nat} {s₀ s : State} (hs₀ : s₀.Only L s) (hL : 256 &&& L = 256) : s₀.Only L
    (State.overrideTiles s) := by
  unfold State.overrideTiles
  repeat (with_reducible first
    | exact hs₀
    | exact Only.sub hL (by decide)
    | apply State.setTile_only
    | apply State.Only.ite
    | refine State.Only.each ?_ ?_ <;> [(intro u x₁ hs₀; try dsimp only); skip]
    | split)
theorem State.dropSummaries_only {L : Nat} {s₀ s : State} (hs₀ : s₀.Only L s) (c : Conc) (off : Nat) (hL : 24576 &&&
    L = 24576) : s₀.Only L (State.dropSummaries s c off) := by
  unfold State.dropSummaries
  repeat (with_reducible first
    | exact hs₀
    | exact Only.sub hL (by decide)
    | apply State.setConc_only
    | apply State.Only.ite
    | split
    | dsimp only)
theorem State.ownChanged_only {L : Nat} {s₀ s : State} (hs₀ : s₀.Only L s) (k : PageKind) (page off f : Nat) (old
    new : Word) (hL : 8813298278872 &&& L = 8813298278872) : s₀.Only L (State.ownChanged s k page off f old new) := by
  unfold State.ownChanged
  repeat (with_reducible first
    | exact hs₀
    | exact Only.sub hL (by decide)
    | apply State.blockChanged_only
    | apply State.gateSourceChanged_only
    | apply State.dllStops_only
    | apply State.gatePolChanged_only
    | apply State.slewWritten_only
    | apply State.spliceWritten_only
    | apply State.govSettle_only
    | apply State.dropSummaries_only
    | apply State.pinPoint_only
    | apply State.threshChanged_only
    | apply State.deliverMask_only
    | apply State.testChanged_only
    | apply State.touchEntry_only
    | apply State.overrideTiles_only
    | apply State.Only.ite
    | refine State.Only.each ?_ ?_ <;> [(intro u x₁ hs₀; try dsimp only); skip]
    | split
    | refine State.Only.of ?_ (cal := .inl (Only.bit hL (by decide))))
theorem State.cameInForce_only {L : Nat} {s₀ s : State} (hs₀ : s₀.Only L s) (f : Nat) (e : Nat × Word) (hL :
    8813298278872 &&& L = 8813298278872) : s₀.Only L (State.cameInForce s f e) := by
  unfold State.cameInForce
  repeat (with_reducible first
    | exact hs₀
    | exact Only.sub hL (by decide)
    | apply State.headerChanged_only
    | apply State.ownChanged_only
    | apply State.Only.ite
    | split
    | dsimp only)
theorem State.applyWrites_only {L : Nat} {s₀ s : State} (hs₀ : s₀.Only L s) (f : Nat) (hL : 8821888742904 &&& L =
    8821888742904) : s₀.Only L (State.applyWrites s f) := by
  unfold State.applyWrites
  repeat (with_reducible first
    | exact hs₀
    | exact Only.sub hL (by decide)
    | apply State.pulse_only
    | apply State.cameInForce_only
    | refine State.Only.each ?_ ?_ <;> [(intro u x₁ hs₀; try dsimp only); skip]
    | refine State.Only.of ?_ (stale := .inl (Only.bit hL (by decide))) (pendW := .inl (Only.bit hL (by decide)))
    | dsimp only)
theorem State.beginFrame_only {L : Nat} {s₀ s : State} (hs₀ : s₀.Only L s) (f : Nat) (hL : 57344 &&& L = 57344) :
    s₀.Only L (State.beginFrame s f) := by
  unfold State.beginFrame
  repeat (with_reducible first
    | exact hs₀
    | exact Only.sub hL (by decide)
    | apply State.setConc_only
    | apply State.Only.ite
    | refine State.Only.each ?_ ?_ <;> [(intro u x₁ hs₀; try dsimp only); skip]
    | refine State.Only.foldlSnd ?_ ?_ <;> [(intro x₀ x₁ hs₀; try dsimp only); skip]
    | refine State.Only.foldl ?_ ?_ <;> [(intro x₀ x₁ hs₀; try dsimp only); skip]
    | split
    | refine State.Only.of ?_ (frames := .inl (Only.bit hL (by decide)))
    | dsimp only)
theorem State.followCeilings_only {L : Nat} {s₀ s : State} (hs₀ : s₀.Only L s) (hL : 12895941752 &&& L =
    12895941752) : s₀.Only L (State.followCeilings s) := by
  unfold State.followCeilings
  repeat (with_reducible first
    | exact hs₀
    | exact Only.sub hL (by decide)
    | apply State.put_only
    | apply State.resetConc_only
    | apply State.stackSleeps_only
    | apply State.Only.ite
    | refine State.Only.each ?_ ?_ <;> [(intro u x₁ hs₀; try dsimp only); skip]
    | split
    | dsimp only)
theorem State.tilesBoundary_only {L : Nat} {s₀ s : State} (hs₀ : s₀.Only L s) (f : Nat) (slips : List (Fin 16 ×
    BitVec 48)) (hL : 4294996472 &&& L = 4294996472) : s₀.Only L (State.tilesBoundary s f slips) := by
  unfold State.tilesBoundary
  repeat (with_reducible first
    | exact hs₀
    | exact Only.sub hL (by decide)
    | apply State.tileBoundary_only
    | refine State.Only.each ?_ ?_ <;> [(intro u x₁ hs₀; try dsimp only); skip])
theorem State.concsBoundary_only {L : Nat} {s₀ s : State} (hs₀ : s₀.Only L s) (f : Nat) (hL : 12963050616 &&& L =
    12963050616) : s₀.Only L (State.concsBoundary s f) := by
  unfold State.concsBoundary
  repeat (with_reducible first
    | exact hs₀
    | exact Only.sub hL (by decide)
    | apply State.holdBoundary_only
    | apply State.joinBoundary_only
    | apply State.showLag_only
    | refine State.Only.each ?_ ?_ <;> [(intro u x₁ hs₀; try dsimp only); skip])
theorem State.convertCommands_only {L : Nat} {s₀ s : State} (hs₀ : s₀.Only L s) (f : Nat) (hL : 65880 &&& L = 65880)
    : s₀.Only L (State.convertCommands s f) := by
  unfold State.convertCommands
  repeat (with_reducible first
    | exact hs₀
    | exact Only.sub hL (by decide)
    | apply State.convertTimed_only
    | apply State.sendWindows_only
    | apply State.Only.ite
    | split)
theorem State.frameBoundary_only {L : Nat} {s₀ s : State} (hs₀ : s₀.Only L s) (slips : List (Fin 16 × BitVec 48))
    (env : BoundaryEnv) (hL : 9619484177915 &&& L = 9619484177915) : s₀.Only L (State.frameBoundary s slips env) := by
  unfold State.frameBoundary
  repeat (with_reducible first
    | exact hs₀
    | exact Only.sub hL (by decide)
    | apply State.timeBoundary_only
    | apply State.markTimed_only
    | apply State.applyWrites_only
    | apply State.readStaged_only
    | apply State.mixedBoundary_only
    | apply State.beginFrame_only
    | apply State.recheckSwitch_only
    | apply State.convertCommands_only
    | apply State.followCeilings_only
    | apply State.ackJoiner_only
    | apply State.tilesBoundary_only
    | apply State.concsBoundary_only
    | apply State.deliverResends_only
    | apply State.stickBoundary_only
    | apply State.launchesUnread_only
    | apply State.ringLevels_only
    | apply State.turnIfNone_only
    | apply State.checkSwap_only
    | apply State.monBoundary_only
    | apply State.showSwitch_only
    | apply State.showDies_only
    | apply State.showPg_only
    | apply State.noteTq_only
    | apply State.Only.ite
    | refine State.Only.each ?_ ?_ <;> [(intro u x₁ hs₀; try dsimp only); skip]
    | split
    | refine State.Only.of ?_ (now := .inl (Only.bit hL (by decide))) (frame := .inl (Only.bit hL (by decide)))
    | dsimp only)
theorem State.settle_only {L : Nat} {s₀ s : State} (hs₀ : s₀.Only L s) (hL : 8826252916216 &&& L = 8826252916216) :
    s₀.Only L (State.settle s) := by
  unfold State.settle
  repeat (with_reducible first
    | exact hs₀
    | exact Only.sub hL (by decide)
    | apply State.applyWrites_only
    | apply State.holdBoundary_only
    | apply State.Only.ite
    | refine State.Only.each ?_ ?_ <;> [(intro u x₁ hs₀; try dsimp only); skip]
    | split)

/-! Peal.lean -/

theorem State.showAssembly_only {L : Nat} {s₀ s : State} (hs₀ : s₀.Only L s) (hL : 24 &&& L = 24) : s₀.Only L
    (State.showAssembly s) := by
  unfold State.showAssembly
  repeat (with_reducible first
    | exact hs₀
    | exact Only.sub hL (by decide)
    | apply State.put_only
    | apply State.Only.ite
    | split)
theorem State.setAssembly_only {L : Nat} {s₀ s : State} (hs₀ : s₀.Only L s) (u : Um) (p : Option Peal) (hL :
    805306392 &&& L = 805306392) : s₀.Only L (State.setAssembly s u p) := by
  unfold State.setAssembly
  repeat (with_reducible first
    | exact hs₀
    | exact Only.sub hL (by decide)
    | apply State.setUm_only
    | apply State.showAssembly_only)
theorem State.firstWrite_only {L : Nat} {s₀ s : State} (hs₀ : s₀.Only L s) (l : List PWrite) (hL : 8796093022208 &&&
    L = 8796093022208) : s₀.Only L (State.firstWrite s l).2 := by
  unfold State.firstWrite
  repeat (with_reducible first
    | dsimp only
    | split
    | exact hs₀
    | exact Only.sub hL (by decide)
    | apply State.draw_only)
theorem State.pealFails_only {L : Nat} {s₀ s : State} (hs₀ : s₀.Only L s) (p : Peal) (r time : Nat) (hL :
    8806830440536 &&& L = 8806830440536) : s₀.Only L (State.pealFails s p r time).2 := by
  unfold State.pealFails
  repeat (with_reducible first
    | dsimp only
    | split
    | exact hs₀
    | exact Only.sub hL (by decide)
    | apply State.firstWrite_only
    | apply State.append_only
    | apply State.bump_only
    | apply State.event_only
    | apply State.put_only
    | refine State.Only.of ?_ (mixedFrom := .inl (Only.bit hL (by decide))))
theorem State.dropAssembly_only {L : Nat} {s₀ s : State} (hs₀ : s₀.Only L s) (u : Um) (hL : 8807635746904 &&& L =
    8807635746904) : s₀.Only L (State.dropAssembly s u) := by
  unfold State.dropAssembly
  repeat (with_reducible first
    | exact hs₀
    | exact Only.sub hL (by decide)
    | apply State.setAssembly_only
    | apply State.pealFails_only
    | split)
theorem State.pealBegin_only {L : Nat} {s₀ s : State} (hs₀ : s₀.Only L s) (u : Um) (master : Byte) (epoch count
    sheaf : Nat) (hL : 8807635746904 &&& L = 8807635746904) : s₀.Only L (State.pealBegin s u master epoch count
    sheaf) := by
  unfold State.pealBegin
  repeat (with_reducible first
    | exact hs₀
    | exact Only.sub hL (by decide)
    | apply State.dropAssembly_only
    | apply State.setAssembly_only
    | dsimp only)
theorem State.pealWrite_only {L : Nat} {s₀ s : State} (hs₀ : s₀.Only L s) (u : Um) (p : Peal) (index : Nat) (l :
    List PWrite) (hL : 805306392 &&& L = 805306392) : s₀.Only L (State.pealWrite s u p index l) := by
  unfold State.pealWrite
  repeat (with_reducible first
    | exact hs₀
    | exact Only.sub hL (by decide)
    | apply State.setAssembly_only
    | refine State.Only.foldlSnd ?_ ?_ <;> [(intro x₀ x₁ hs₀; try dsimp only); skip]
    | refine State.Only.foldl ?_ ?_ <;> [(intro x₀ x₁ hs₀; try dsimp only); skip])
theorem State.pealEnd_only {L : Nat} {s₀ s : State} (hs₀ : s₀.Only L s) (u : Um) (p : Peal) (count : Nat) (crc :
    BitVec 32) (hL : 8808717907032 &&& L = 8808717907032) : s₀.Only L (State.pealEnd s u p count crc).2.2 := by
  unfold State.pealEnd
  repeat (with_reducible first
    | dsimp only
    | split
    | exact hs₀
    | exact Only.sub hL (by decide)
    | apply State.setAssembly_only
    | apply State.withdrawSwap_only
    | apply State.put_only
    | apply State.pealFails_only
    | refine State.Only.of ?_ (peal := .inl (Only.bit hL (by decide))))
theorem State.dropPeal_only {L : Nat} {s₀ s : State} (hs₀ : s₀.Only L s) (hL : 1073741848 &&& L = 1073741848) :
    s₀.Only L (State.dropPeal s) := by
  unfold State.dropPeal
  repeat (with_reducible first
    | exact hs₀
    | exact Only.sub hL (by decide)
    | apply State.showAssembly_only
    | refine State.Only.of ?_ (peal := .inl (Only.bit hL (by decide))))
theorem State.pealCommit_only {L : Nat} {s₀ s : State} (hs₀ : s₀.Only L s) (hL : 8807904182360 &&& L =
    8807904182360) : s₀.Only L (State.pealCommit s) := by
  unfold State.pealCommit
  repeat (with_reducible first
    | exact hs₀
    | exact Only.sub hL (by decide)
    | apply State.put_only
    | apply State.dropPeal_only
    | apply State.pealFails_only
    | apply State.Only.ite
    | split)
theorem State.keepTables_only {L : Nat} {s₀ s : State} (hs₀ : s₀.Only L s) (t : Fin 16) (hL : 7696614948864 &&& L =
    7696614948864) : s₀.Only L (State.keepTables s t) := by
  unfold State.keepTables
  repeat (with_reducible first
    | exact hs₀
    | exact Only.sub hL (by decide)
    | apply State.Only.ite
    | refine State.Only.foldlSnd ?_ ?_ <;> [(intro x₀ x₁ hs₀; try dsimp only); skip]
    | refine State.Only.foldl ?_ ?_ <;> [(intro x₀ x₁ hs₀; try dsimp only); skip]
    | split
    | refine State.Only.of ?_ (fwu := .inl (Only.bit hL (by decide))) (mramCorr := .inl (Only.bit hL (by decide)))
        (mramTac := .inl (Only.bit hL (by decide))) (mramTap := .inl (Only.bit hL (by decide)))
    | dsimp only)
theorem State.pealTapWrite_only {L : Nat} {s₀ s : State} (hs₀ : s₀.Only L s) (page off : Nat) (v : Word) (hL :
    7696614948872 &&& L = 7696614948872) : s₀.Only L (State.pealTapWrite s page off v) := by
  unfold State.pealTapWrite
  repeat (with_reducible first
    | exact hs₀
    | exact Only.sub hL (by decide)
    | apply State.keepTables_only
    | apply State.wr_only
    | apply State.Only.ite
    | split
    | refine State.Only.of ?_ (mramTap := .inl (Only.bit hL (by decide)))
    | dsimp only)
theorem State.pealTacWrite_only {L : Nat} {s₀ s : State} (hs₀ : s₀.Only L s) (page off : Nat) (v : Word) (hL :
    7696614951424 &&& L = 7696614951424) : s₀.Only L (State.pealTacWrite s page off v) := by
  unfold State.pealTacWrite
  repeat (with_reducible first
    | exact hs₀
    | exact Only.sub hL (by decide)
    | apply State.keepTables_only
    | apply State.Only.ite
    | split
    | refine State.Only.of ?_ (tac := .inl (Only.bit hL (by decide))) (tacPoison := .inl (Only.bit hL (by decide)))
        (mramTac := .inl (Only.bit hL (by decide)))
    | dsimp only)
theorem State.pealCorrWrite_only {L : Nat} {s₀ s : State} (hs₀ : s₀.Only L s) (page off : Nat) (v : Word) (f epoch :
    Nat) (hL : 7696614973440 &&& L = 7696614973440) : s₀.Only L (State.pealCorrWrite s page off v f epoch) := by
  unfold State.pealCorrWrite
  repeat (with_reducible first
    | exact hs₀
    | exact Only.sub hL (by decide)
    | apply State.keepTables_only
    | apply State.setConc_only
    | apply State.Only.ite
    | split
    | refine State.Only.of ?_ (mramCorr := .inl (Only.bit hL (by decide)))
    | dsimp only)
theorem State.unstale_only {L : Nat} {s₀ s : State} (hs₀ : s₀.Only L s) (key : Nat) (hL : 16 &&& L = 16) : s₀.Only L
    (State.unstale s key) := by
  unfold State.unstale
  repeat (with_reducible first
    | exact hs₀
    | exact Only.sub hL (by decide)
    | refine State.Only.of ?_ (stale := .inl (Only.bit hL (by decide))))
theorem State.pealPlain_only {L : Nat} {s₀ s : State} (hs₀ : s₀.Only L s) (k : PageKind) (page off : Nat) (d :
    RegDef) (v : Word) (f : Nat) (hL : 8813298278872 &&& L = 8813298278872) : s₀.Only L (State.pealPlain s k page
    off d v f) := by
  unfold State.pealPlain
  repeat (with_reducible first
    | exact hs₀
    | exact Only.sub hL (by decide)
    | apply State.bump_only
    | apply State.event_only
    | apply State.storeLo_only
    | apply State.record_only
    | apply State.storeInc_only
    | apply State.unstale_only
    | apply State.wr_only
    | apply State.cameInForce_only
    | apply State.Only.ite
    | split
    | dsimp only)
theorem State.pealPage_only {L : Nat} {s₀ s : State} (hs₀ : s₀.Only L s) (page off : Nat) (v : Word) (f epoch : Nat)
    (hL : 17162748259288 &&& L = 17162748259288) : s₀.Only L (State.pealPage s page off v f epoch) := by
  unfold State.pealPage
  repeat (with_reducible first
    | exact hs₀
    | exact Only.sub hL (by decide)
    | apply State.pealTapWrite_only
    | apply State.pealTacWrite_only
    | apply State.pealCorrWrite_only
    | apply State.writeOff_only
    | apply State.pealPlain_only
    | apply State.Only.ite
    | split)
theorem State.pealApplyWrite_only {L : Nat} {s₀ s : State} (hs₀ : s₀.Only L s) (p : Peal) (i : Nat) (w : PWrite) (hL
    : 17308777147352 &&& L = 17308777147352) : s₀.Only L (State.pealApplyWrite s p i w) := by
  unfold State.pealApplyWrite
  repeat (with_reducible first
    | exact hs₀
    | exact Only.sub hL (by decide)
    | apply State.pealPage_only
    | apply State.append_only
    | apply State.noteChange_only
    | refine State.Only.each ?_ ?_ <;> [(intro u x₁ hs₀; try dsimp only); skip]
    | split
    | dsimp only)
theorem State.pealFollow_only {L : Nat} {s₀ s : State} (hs₀ : s₀.Only L s) (p : Peal) (hL : 12979828216 &&& L =
    12979828216) : s₀.Only L (State.pealFollow s p) := by
  unfold State.pealFollow
  repeat (with_reducible first
    | exact hs₀
    | exact Only.sub hL (by decide)
    | apply State.followCeilings_only
    | apply State.followTile_only
    | apply State.holdBoundary_only
    | apply State.monBoundary_only
    | apply State.showPg_only
    | apply State.showDies_only
    | apply State.Only.ite
    | refine State.Only.each ?_ ?_ <;> [(intro u x₁ hs₀; try dsimp only); skip]
    | split
    | dsimp only)
theorem State.pealApply_only {L : Nat} {s₀ s : State} (hs₀ : s₀.Only L s) (hL : 17589093531640 &&& L =
    17589093531640) : s₀.Only L (State.pealApply s) := by
  unfold State.pealApply
  repeat (with_reducible first
    | exact hs₀
    | exact Only.sub hL (by decide)
    | apply State.pealApplyWrite_only
    | apply State.toggleParity_only
    | apply State.put_only
    | apply State.stepEpoch_only
    | apply State.dropPeal_only
    | apply State.bump_only
    | apply State.event_only
    | apply State.pealFollow_only
    | apply State.Only.ite
    | refine State.Only.each ?_ ?_ <;> [(intro u x₁ hs₀; try dsimp only); skip]
    | split
    | dsimp only)

/-! Command.lean -/

theorem State.cmdRead_only {L : Nat} {s₀ s : State} (hs₀ : s₀.Only L s) (page off : Nat) (env : BlockEnv) (hL :
    8804691765336 &&& L = 8804691765336) : s₀.Only L (State.cmdRead s page off env).state := by
  unfold State.cmdRead
  repeat (with_reducible first
    | dsimp only
    | split
    | exact hs₀
    | exact Only.sub hL (by decide)
    | apply State.fetchReg_only)
theorem State.stopsAt_only {L : Nat} {s₀ s : State} (hs₀ : s₀.Only L s) (env : BlockEnv) (i : Nat) (hL : 17179869183
    &&& L = 17179869183) : s₀.Only L (State.stopsAt s env i) := by
  unfold State.stopsAt
  repeat (with_reducible first
    | exact hs₀
    | exact Only.sub hL (by decide)
    | apply State.overLimit_only
    | apply State.Only.ite
    | split)
theorem State.readBlock_only {L : Nat} {s₀ x3 : State} (hs₀ : s₀.Only L x3) (page : Nat) (env : BlockEnv) (x0 : Nat)
    (x1 : Nat) (x2 : Nat) (hL : 8813272891391 &&& L = 8813272891391) : s₀.Only L (State.readBlock page env x0 x1 x2
    x3).2.2 := by
  induction x0 generalizing x1 x2 x3 with
  | zero => exact hs₀
  | succ n ih =>
    unfold State.readBlock
    exact ih (State.fetchReg_only (State.stopsAt_only hs₀ _ _ (Only.sub hL (by decide))) _ _ _ (Only.sub hL (by
        decide))) _ _
theorem State.cmdBlockRead_only {L : Nat} {s₀ s : State} (hs₀ : s₀.Only L s) (page off count : Nat) (env : BlockEnv)
    (hL : 8813272891391 &&& L = 8813272891391) : s₀.Only L (State.cmdBlockRead s page off count env).state := by
  unfold State.cmdBlockRead
  repeat (with_reducible first
    | dsimp only
    | split
    | exact hs₀
    | exact Only.sub hL (by decide)
    | apply State.readBlock_only)
theorem State.countLocked_only {L : Nat} {s₀ s : State} (hs₀ : s₀.Only L s) (r : Nat) (l : List (Nat × Nat)) (hL :
    88 &&& L = 88) : s₀.Only L (State.countLocked s r l) := by
  unfold State.countLocked
  repeat (with_reducible first
    | exact hs₀
    | exact Only.sub hL (by decide)
    | apply State.countResult_only
    | apply State.Only.ite
    | split)
theorem State.cmdWrite_only {L : Nat} {s₀ s : State} (hs₀ : s₀.Only L s) (h : UHdr) (page off : Nat) (v : Word) (rwl
    : Bool) (body : List Word) (hL : 670028231800 &&& L = 670028231800) : s₀.Only L (State.cmdWrite s h page off v
    rwl body).state := by
  unfold State.cmdWrite
  repeat (with_reducible first
    | dsimp only
    | split
    | exact hs₀
    | exact Only.sub hL (by decide)
    | apply State.writeAll_only
    | apply State.countLocked_only)
theorem State.dropSent_only {L : Nat} {s₀ s : State} (hs₀ : s₀.Only L s) (hL : 64 &&& L = 64) : s₀.Only L
    (State.dropSent s) := by
  unfold State.dropSent
  repeat (with_reducible first
    | exact hs₀
    | exact Only.sub hL (by decide)
    | refine State.Only.of ?_ (eventQ := .inl (Only.bit hL (by decide))))
theorem State.cmdUnlock_only {L : Nat} {s₀ s : State} (hs₀ : s₀.Only L s) (page frames : Nat) (hL : 4294967296 &&& L
    = 4294967296) : s₀.Only L (State.cmdUnlock s page frames).state := by
  unfold State.cmdUnlock
  repeat (with_reducible first
    | split
    | exact hs₀
    | exact Only.sub hL (by decide)
    | apply State.unlockPage_only
    | refine State.Only.each ?_ ?_ <;> [(intro u x₁ hs₀; try dsimp only); skip])
theorem State.cmdLock_only {L : Nat} {s₀ s : State} (hs₀ : s₀.Only L s) (page : Nat) (hL : 4294967296 &&& L =
    4294967296) : s₀.Only L (State.cmdLock s page).state := by
  unfold State.cmdLock
  repeat (with_reducible first
    | split
    | exact hs₀
    | exact Only.sub hL (by decide)
    | apply State.lockPage_only
    | refine State.Only.each ?_ ?_ <;> [(intro u x₁ hs₀; try dsimp only); skip])
theorem State.register_only {L : Nat} {s₀ s : State} (hs₀ : s₀.Only L s) (u : Um) (addr eqd : Nat) (hL : 805306456
    &&& L = 805306456) : s₀.Only L (State.register s u addr eqd) := by
  unfold State.register
  repeat (with_reducible first
    | exact hs₀
    | exact Only.sub hL (by decide)
    | apply State.putB_only
    | apply State.put_only
    | apply State.setUm_only
    | apply State.dropSent_only
    | apply State.event_only
    | apply State.leaveStep9_only
    | dsimp only)
theorem State.unregister_only {L : Nat} {s₀ s : State} (hs₀ : s₀.Only L s) (u : Um) (hL : 8796898328664 &&& L =
    8796898328664) : s₀.Only L (State.unregister s u) := by
  unfold State.unregister
  repeat (with_reducible first
    | exact hs₀
    | exact Only.sub hL (by decide)
    | apply State.putB_only
    | apply State.put_only
    | apply State.dropSent_only
    | apply State.event_only
    | apply State.startDiscovery_only
    | apply State.Only.ite
    | split)
theorem State.cmdFreezeRelease_only {L : Nat} {s₀ s : State} (hs₀ : s₀.Only L s) (conc : Bool) (hL : 32 &&& L = 32)
    : s₀.Only L (State.cmdFreezeRelease s conc).state := by
  unfold State.cmdFreezeRelease
  repeat (with_reducible first
    | split
    | exact hs₀
    | exact Only.sub hL (by decide)
    | refine State.Only.of ?_ (pendW := .inl (Only.bit hL (by decide))))
theorem State.cmdPealWrite_only {L : Nat} {s₀ s : State} (hs₀ : s₀.Only L s) (h : UHdr) (index : Nat) (l : List
    PWrite) (hL : 8796898328600 &&& L = 8796898328600) : s₀.Only L (State.cmdPealWrite s h index l).state := by
  unfold State.cmdPealWrite
  repeat (with_reducible first
    | dsimp only
    | split
    | exact hs₀
    | exact Only.sub hL (by decide)
    | apply State.pealWrite_only
    | apply State.firstWrite_only)
theorem State.cmdPealEnd_only {L : Nat} {s₀ s : State} (hs₀ : s₀.Only L s) (h : UHdr) (count : Nat) (crc : BitVec
    32) (hL : 8808717907032 &&& L = 8808717907032) : s₀.Only L (State.cmdPealEnd s h count crc).state := by
  unfold State.cmdPealEnd
  repeat (with_reducible first
    | dsimp only
    | split
    | exact hs₀
    | exact Only.sub hL (by decide)
    | apply State.pealEnd_only)
theorem State.runCmd_only {L : Nat} {s₀ s : State} (hs₀ : s₀.Only L s) (h : UHdr) (c : UCmd) (body : List Word) (env
    : BlockEnv) (hL : 9483287789567 &&& L = 9483287789567) : s₀.Only L (State.runCmd s h c body env).state := by
  have acc {x : Bool × State} (h : s₀.Only L x.2) : s₀.Only L (accepted x).state := h
  have img {x : Nat × State} (h : s₀.Only L x.2) : s₀.Only L (imgOutcome x).state := h
  unfold State.runCmd
  cases c <;> dsimp only <;> repeat (with_reducible first
      | exact hs₀
      | exact Only.sub hL (by decide)
      | apply State.cmdRead_only
      | apply State.cmdWrite_only
      | apply State.cmdBlockRead_only
      | apply State.cmdUnlock_only
      | apply State.cmdLock_only
      | apply State.register_only
      | apply State.unregister_only
      | apply State.timedTrigger_only
      | apply State.timedGate_only
      | apply State.requestResend_only
      | apply State.cmdFreezeRelease_only
      | apply State.queueStick_only
      | apply State.requestSwitch_only
      | apply State.pealBegin_only
      | apply State.pealWrite_only
      | apply State.cmdPealWrite_only
      | apply State.pealEnd_only
      | apply State.cmdPealEnd_only
      | apply State.imgBegin_only
      | apply State.imgData_only
      | apply State.imgEnd_only
      | apply State.imgCancel_only
      | apply State.imgCommit_only
      | apply State.imgReject_only
      | apply acc
      | apply img)
theorem State.restartAfter_only {L : Nat} {s₀ s : State} (hs₀ : s₀.Only L s) (u : Um) (hL : 67108864 &&& L =
    67108864) : s₀.Only L (State.restartAfter s u) := by
  unfold State.restartAfter
  repeat (with_reducible first
    | exact hs₀
    | exact Only.sub hL (by decide)
    | refine State.Only.of ?_ (pow := .inl (Only.bit hL (by decide))))
theorem State.afterAnswer_only {L : Nat} {s₀ s : State} (hs₀ : s₀.Only L s) (h : UHdr) (c : UCmd) (r : Nat) (hL :
    100663320 &&& L = 100663320) : s₀.Only L (State.afterAnswer s h c r) := by
  unfold State.afterAnswer
  repeat (with_reducible first
    | exact hs₀
    | exact Only.sub hL (by decide)
    | apply State.restartAfter_only
    | apply State.imgReject_only
    | apply State.Only.ite
    | split
    | refine State.Only.of ?_ (fwu := .inl (Only.bit hL (by decide))))
theorem Outcome.finish_only {L : Nat} {s₀ : State} {o : Outcome} (hs₀ : s₀.Only L o.state) (h : UHdr) (c : UCmd)
    (body : List Word)
    (hL : 8964530730488 &&& L = 8964530730488) : s₀.Only L (o.finish h c body) := by
  unfold Outcome.finish
  extract_lets u r x v w
  have hu : s₀.Only L u := State.countResult_only hs₀ _ (Only.sub hL (by decide))
  have hx : s₀.Only L x.2 := by
    simp only [x]
    split
    · exact State.append_only hu _ (Only.sub hL (by decide))
    · exact hu
  have hv : s₀.Only L v := State.noteWrites_only hx _ _ _ _ _ (Only.sub hL (by decide))
  have hw : s₀.Only L w := .ite (.ite (State.answer_only hv _ _ _ _ _ _ (Only.sub hL (by decide)))
    (State.holdAnswer_only hv _ _ (Only.sub hL (by decide)))) hv
  exact State.afterAnswer_only (State.settle_only hw (Only.sub hL (by decide))) _ _ _ (Only.sub hL (by decide))
theorem State.turnAway_only {L : Nat} {s₀ s : State} (hs₀ : s₀.Only L s) (h : UHdr) (c : UCmd) (r : Nat) (hL :
    805306368 &&& L = 805306368) : s₀.Only L (State.turnAway s h c r) := by
  unfold State.turnAway
  repeat (with_reducible first
    | exact hs₀
    | exact Only.sub hL (by decide)
    | apply State.answer_only
    | apply State.Only.ite
    | split)
theorem State.take_only {L : Nat} {s₀ s : State} (hs₀ : s₀.Only L s) (h : UHdr) (c : UCmd) (body : List Word) (form
    : Nat) (env : BlockEnv) (hL : 9620726743039 &&& L = 9620726743039) : s₀.Only L (State.take s h c body form env)
    := by
  unfold State.take
  extract_lets u o
  have hu : s₀.Only L u := State.bump_only hs₀ _ _ _ _ (Only.sub hL (by decide))
  refine Outcome.finish_only ?_ _ _ _ (Only.sub hL (by decide))
  simp only [o]
  split
  · exact hu
  split
  · exact hu
  · exact State.runCmd_only hu _ _ _ _ (Only.sub hL (by decide))
theorem State.checkCmd_only {L : Nat} {s₀ s : State} (hs₀ : s₀.Only L s) (h : UHdr) (c : UCmd) (body : List Word)
    (env : BlockEnv) (hL : 9620726743039 &&& L = 9620726743039) : s₀.Only L (State.checkCmd s h c body env) := by
  unfold State.checkCmd
  repeat (with_reducible first
    | exact hs₀
    | exact Only.sub hL (by decide)
    | apply State.bump_only
    | apply State.turnAway_only
    | apply State.put_only
    | apply State.take_only
    | apply State.event_only
    | apply State.Only.ite
    | split
    | dsimp only)
theorem State.arrive_only {L : Nat} {s₀ s : State} (hs₀ : s₀.Only L s) (at_ : Nat) (hL : 1 &&& L = 1) : s₀.Only L
    (State.arrive s at_) := by
  unfold State.arrive
  repeat (with_reducible first
    | exact hs₀
    | exact Only.sub hL (by decide)
    | apply State.advance_only
    | apply State.Only.ite
    | split)
theorem State.takeCmd_only {L : Nat} {s₀ s : State} (hs₀ : s₀.Only L s) (h : UHdr) (c : UCmd) (body : List Word)
    (env : BlockEnv) (hL : 9620726743039 &&& L = 9620726743039) : s₀.Only L (State.takeCmd s h c body env) := by
  unfold State.takeCmd
  repeat (with_reducible first
    | exact hs₀
    | exact Only.sub hL (by decide)
    | apply State.bump_only
    | apply State.arrive_only
    | apply State.checkCmd_only
    | apply State.Only.ite
    | split)
theorem State.command_only {L : Nat} {s₀ s : State} (hs₀ : s₀.Only L s) (h : UHdr) (c : UCmd) (env : BlockEnv := {})
    (hL : 9620726743039 &&& L = 9620726743039) : s₀.Only L (State.command s h c) := by
  unfold State.command
  repeat (with_reducible first | exact hs₀ | exact Only.sub hL (by decide) | apply State.takeCmd_only)

/-! Umauf.lean -/

theorem State.takeGrant_only {L : Nat} {s₀ s : State} (hs₀ : s₀.Only L s) (u : Um) (addr kind start blocks : Nat)
    (hL : 805306392 &&& L = 805306392) : s₀.Only L (State.takeGrant s u addr kind start blocks) := by
  unfold State.takeGrant
  repeat (with_reducible first
    | exact hs₀
    | exact Only.sub hL (by decide)
    | apply State.bump_only
    | apply State.setUm_only
    | apply State.Only.ite
    | split
    | dsimp only)
theorem State.grantEntry_only {L : Nat} {s₀ s : State} (hs₀ : s₀.Only L s) (u : Um) (l : List Byte) (hL :
    9620726743039 &&& L = 9620726743039) : s₀.Only L (State.grantEntry s u l) := by
  unfold State.grantEntry
  repeat (with_reducible first
    | exact hs₀
    | exact Only.sub hL (by decide)
    | apply State.take_only
    | apply State.bump_only
    | apply State.takeGrant_only
    | apply State.Only.ite
    | split
    | dsimp only)
theorem State.commandArea_only {L : Nat} {s₀ x3 : State} (hs₀ : s₀.Only L x3) (u : Um) (at_ : Nat) (x0 : Nat) (x1 :
    List Byte) (x2 : List Reads) (hL : 9620726743039 &&& L = 9620726743039) : s₀.Only L (State.commandArea u at_ x0
    x1 x2 x3) := by
  induction x0 generalizing x1 x2 x3 with
  | zero => exact hs₀
  | succ n ih =>
    unfold State.commandArea
    extract_lets
    refine .ite hs₀ (.ite (State.bump_only hs₀ _ _ _ _ (Only.sub hL (by decide))) (.ite ?_ ?_))
    · exact ih (State.bump_only hs₀ _ _ _ _ (Only.sub hL (by decide))) _ _
    · exact ih (State.takeCmd_only hs₀ _ _ _ _ (Only.sub hL (by decide))) _ _
theorem State.takeFrame_only {L : Nat} {s₀ s : State} (hs₀ : s₀.Only L s) (u : Um) (payload : List Byte) (corrected
    at_ : Nat) (reads : List Reads) (hL : 9620726743039 &&& L = 9620726743039) : s₀.Only L (State.takeFrame s u
    payload corrected at_ reads) := by
  unfold State.takeFrame
  repeat (with_reducible first
    | exact hs₀
    | exact Only.sub hL (by decide)
    | apply State.bump_only
    | apply State.adopt_only
    | apply State.event_only
    | apply State.grantEntry_only
    | apply State.take_only
    | apply State.commandArea_only
    | apply State.Only.ite
    | refine State.Only.each ?_ ?_ <;> [(intro u x₁ hs₀; try dsimp only); skip]
    | split
    | dsimp only)
theorem State.downstreamFrame_only {L : Nat} {s₀ s : State} (hs₀ : s₀.Only L s) (u : Um) (sync : BitVec 32) (word0
    word1 : List Byte) (at_ : Nat) (reads : List Reads) (hL : 9620726743039 &&& L = 9620726743039) : s₀.Only L
    (State.downstreamFrame s u sync word0 word1 at_ reads) := by
  unfold State.downstreamFrame
  repeat (with_reducible first
    | exact hs₀
    | exact Only.sub hL (by decide)
    | apply State.takeFrame_only
    | apply State.bump_only
    | apply State.Only.ite
    | split)
theorem State.sendEvent_only {L : Nat} {s₀ s : State} (hs₀ : s₀.Only L s) (u : Um) (e : Nat × Bool × Bool) (hL :
    805306432 &&& L = 805306432) : s₀.Only L (State.sendEvent s u e).2 := by
  unfold State.sendEvent
  repeat (with_reducible first
    | dsimp only
    | split
    | exact hs₀
    | exact Only.sub hL (by decide)
    | apply State.setUm_only
    | apply State.dropSent_only
    | refine State.Only.of ?_ (eventQ := .inl (Only.bit hL (by decide))))
theorem State.sendResult_only {L : Nat} {s₀ s : State} (hs₀ : s₀.Only L s) (u : Um) (f : Frag) (events : Bool) (hL :
    872415232 &&& L = 872415232) : s₀.Only L (State.sendResult s u f events).2 := by
  unfold State.sendResult
  repeat (with_reducible first
    | dsimp only
    | split
    | exact hs₀
    | exact Only.sub hL (by decide)
    | apply State.setUm_only
    | refine State.Only.of ?_ (pow := .inl (Only.bit hL (by decide))))
theorem State.sendBlock_only {L : Nat} {s₀ s : State} (hs₀ : s₀.Only L s) (u : Um) (hL : 872415296 &&& L =
    872415296) : s₀.Only L (State.sendBlock s u).2 := by
  unfold State.sendBlock
  repeat (with_reducible first
    | dsimp only
    | split
    | exact hs₀
    | exact Only.sub hL (by decide)
    | apply State.setUm_only
    | apply State.sendEvent_only
    | apply State.sendResult_only)
theorem State.sendBlocks_only {L : Nat} {s₀ x1 : State} (hs₀ : s₀.Only L x1) (u : Um) (x0 : Nat) (hL : 872415296 &&&
    L = 872415296) : s₀.Only L (State.sendBlocks u x0 x1).2 := by
  induction x0 generalizing x1 with
  | zero => exact hs₀
  | succ n ih =>
    unfold State.sendBlocks
    exact ih (State.sendBlock_only hs₀ _ (Only.sub hL (by decide)))
theorem State.restartIfSent_only {L : Nat} {s₀ s : State} (hs₀ : s₀.Only L s) (hL : 17179869183 &&& L = 17179869183)
    : s₀.Only L (State.restartIfSent s) := by
  unfold State.restartIfSent
  repeat (with_reducible first
    | exact hs₀
    | exact Only.sub hL (by decide)
    | apply State.restart_only
    | apply State.Only.ite
    | split)
theorem State.upstreamBurst_only {L : Nat} {s₀ s : State} (hs₀ : s₀.Only L s) (u : Um) (hL : 17179869183 &&& L =
    17179869183) : s₀.Only L (State.upstreamBurst s u) := by
  unfold State.upstreamBurst
  repeat (with_reducible first
    | exact hs₀
    | exact Only.sub hL (by decide)
    | apply State.setUm_only
    | apply State.sendBlocks_only
    | apply State.restartIfSent_only
    | apply State.Only.ite
    | split
    | dsimp only)
theorem State.discoveryAnswer_only {L : Nat} {s₀ s : State} (hs₀ : s₀.Only L s) (u : Um) (hL : 805306368 &&& L =
    805306368) : s₀.Only L (State.discoveryAnswer s u) := by
  unfold State.discoveryAnswer
  repeat (with_reducible first
    | exact hs₀
    | exact Only.sub hL (by decide)
    | apply State.setUm_only
    | apply State.Only.ite
    | split
    | dsimp only)
theorem State.discoveryRetry_only {L : Nat} {s₀ s : State} (hs₀ : s₀.Only L s) (u : Um) (hL : 8796898328600 &&& L =
    8796898328600) : s₀.Only L (State.discoveryRetry s u) := by
  unfold State.discoveryRetry
  repeat (with_reducible first
    | exact hs₀
    | exact Only.sub hL (by decide)
    | apply State.bump_only
    | apply State.drawDiscovery_only
    | apply State.Only.ite
    | split
    | dsimp only)
theorem State.registrationLoss_only {L : Nat} {s₀ s : State} (hs₀ : s₀.Only L s) (u : Um) (hL : 8796898328664 &&& L
    = 8796898328664) : s₀.Only L (State.registrationLoss s u) := by
  unfold State.registrationLoss
  repeat (with_reducible first
    | exact hs₀
    | exact Only.sub hL (by decide)
    | apply State.unregister_only
    | apply State.Only.ite
    | split)
theorem State.unlockExpiry_only {L : Nat} {s₀ s : State} (hs₀ : s₀.Only L s) (page : Nat) (hL : 4294967296 &&& L =
    4294967296) : s₀.Only L (State.unlockExpiry s page) := by
  unfold State.unlockExpiry
  repeat (with_reducible first
    | exact hs₀
    | exact Only.sub hL (by decide)
    | refine State.Only.of ?_ (unlocks := .inl (Only.bit hL (by decide))))
theorem State.assemblyTimeout_only {L : Nat} {s₀ s : State} (hs₀ : s₀.Only L s) (u : Um) (hL : 8807635746904 &&& L =
    8807635746904) : s₀.Only L (State.assemblyTimeout s u) := by
  unfold State.assemblyTimeout
  repeat (with_reducible first | exact hs₀ | exact Only.sub hL (by decide) | apply State.dropAssembly_only)

/-! ExecMemory.lean -/

theorem State.fwScrub_only {L : Nat} {s₀ s : State} (hs₀ : s₀.Only L s) (p : IntPage) (mem : Nat) (hL :
    9616531357176 &&& L = 9616531357176) : s₀.Only L (State.fwScrub s p mem) := by
  unfold State.fwScrub
  repeat (with_reducible first
    | exact hs₀
    | exact Only.sub hL (by decide)
    | apply State.coreRead_only
    | apply State.coreWrite_only
    | apply State.settle_only
    | apply State.Only.ite
    | split
    | dsimp only)

end Sys2Proof.Machine
end

