-- ==== Sys2Proof/Laws/CommandParts.lean ====
section
/-!
SUPPORT. What parts of the state a command may change while frames run.
-/

namespace Sys2Proof.Machine

theorem State.Answered.only {L : Nat} {s t : State} (h : s.Answered t) (hL : 146834194521 &&& L = 146834194521) :
    s.Only L t := by
  refine State.Only.of (s := s) (.refl s) (now := .inl (Only.bit hL (by decide))) (frame := .inr h.frame) (running
      := .inr h.running) (regs := .inl (Only.bit hL (by decide))) (stale := .inl (Only.bit hL (by decide))) (pendW
      := .inr h.pendW) (eventQ := .inl (Only.bit hL (by decide))) (chans := .inr h.chans) (tiles := .inr h.tiles)
      (tac := .inr h.tac) (tacStaged := .inr h.tacStaged) (tacPoison := .inr h.tacPoison) (rwsStaged := .inr
      h.rwsStaged) (concA := .inr h.concA) (concB := .inr h.concB) (frames := .inr h.frames) (trig := .inr h.trig)
      (time := .inr h.time) (lastCorr := .inr h.lastCorr) (scrubs := .inr h.scrubs) (writeBacks := .inr
      h.writeBacks) (integ := .inr h.integ) (stick := .inr h.stick) (cal := .inr h.cal) (mon := .inr h.mon) (fwu := .inr h.fwu) (pow := .inr
      h.pow) (tap := .inr h.tap) (um0 := .inl (Only.bit hL (by decide))) (um1 := .inl (Only.bit hL (by decide)))
      (peal := .inr h.peal) (mixedFrom := .inr h.mixedFrom) (unlocks := .inr h.unlocks) (journal := .inl (Only.bit
      hL (by decide))) (saved := .inr h.saved) (savedStaged := .inr h.savedStaged) (savedTac := .inr h.savedTac)
      (jseq := .inl (Only.bit hL (by decide))) (savedEpoch := .inr h.savedEpoch) (savedCorr := .inr h.savedCorr)
      (mramCorr := .inr h.mramCorr) (mramTac := .inr h.mramTac) (mramTap := .inr h.mramTap) (freeCount := .inr
      h.freeCount) (pending := .inr h.pending)
theorem Outcome.finish_only_running {M : Nat} {s : State} {o : Outcome} (ho : s.Only M o.state) (h : UHdr) (c : UCmd) (body : List
    Word)
    (hr : o.state.running = true) (hA : 146834194521 &&& M = 146834194521)
    (ha : ∀ (u : State) (h : UHdr) (r : Nat), s.Only M u → s.Only M (u.afterAnswer h c r)) : s.Only M (o.finish h c
        body) := by
  obtain ⟨w, hw, e⟩ := o.finish_after h c body hr
  rw [e]
  exact ha _ _ _ (ho.trans (hw.only hA))
/-- What a command changes while frames run: what its own effect changes, and what answers it. -/
theorem State.command_only_running {M : Nat} {s : State} (h : UHdr) (c : UCmd) (env : BlockEnv) (hr : s.running = true) (hA :
    146834194521 &&& M = 146834194521)
    (h2 : M.testBit 2 = false ∨ ∀ u : State, (u.runCmd h c c.words env).state.running = u.running)
    (hb : ∀ u : State, s.Only M u → s.Only M (u.runCmd h c c.words env).state)
    (ha : ∀ (u : State) (h : UHdr) (r : Nat), s.Only M u → s.Only M (u.afterAnswer h c r)) : s.Only M (s.command h c
        env) := by
  have hs₀ : s.Only M s := .refl s
  have hL := hA
  unfold State.command State.takeCmd
  refine .ite hs₀ (.ite (State.bump_only hs₀ _ _ _ _ (Only.sub hL (by decide))) (.ite ?_ hs₀))
  have k1 : s.Only M (s.arrive h.at_) := State.arrive_only hs₀ _ (Only.sub hL (by decide))
  have r1 : (s.arrive h.at_).running = true := (State.answered_arrive_running ..).trans hr
  revert k1 r1
  generalize s.arrive h.at_ = u
  intro k1 r1
  have tk (u : State) (k : s.Only M u) (r : u.running = true) (f : Nat) : s.Only M (u.take h c c.words f env) := by
    unfold State.take
    extract_lets v o
    have kv : s.Only M v := State.bump_only k _ _ _ _ (Only.sub hL (by decide))
    have rv : v.running = true := (State.bump_running ..).trans r
    have ko : s.Only M o.state := by
      simp only [o]; split
      · exact kv
      split
      · exact kv
      · exact hb _ kv
    have ro : o.state.running = true := by
      rcases h2 with h2 | h2
      · exact (ko.running h2).trans hr
      · simp only [o]; split
        · exact rv
        split
        · exact rv
        · exact (h2 _).trans rv
    exact Outcome.finish_only_running ko h c c.words ro hA ha
  have ta (u : State) (k : s.Only M u) (r : Nat) : s.Only M (u.turnAway h c r) := by
    unfold State.turnAway
    exact .ite (State.answer_only k _ _ _ _ _ _ (Only.sub hL (by decide))) k
  unfold State.checkCmd
  extract_lets f
  refine .ite (State.bump_only k1 _ _ _ _ (Only.sub hL (by decide))) (.ite (.ite (ta _ k1 _) ?_) (tk _ k1 r1 _))
  extract_lets a
  exact .ite (tk _ (State.put_only k1 _ _ _ (Only.sub hL (by decide))) ((State.put_running ..).trans r1) _)
    (ta _ (State.event_only (State.bump_only k1 _ _ _ _ (Only.sub hL (by decide))) _ _ (Only.sub hL (by decide))) _)


/-! ### The entry and the result of a command -/

theorem State.Only.um {L : Nat} {s t : State} (h : s.Only L t) (a : L.testBit 28 = false) (b : L.testBit 29 = false) (u : Um) :
    t.um u = s.um u := by
  cases u
  · exact h.um0 a
  · exact h.um1 b

/-- The result message of a command that leaves the ports' queues alone. -/
theorem Outcome.Finished.answers {o : Outcome} {v t : State} {h : UHdr} {u : UCmd} (f : o.Finished v h u t) (hn : o.now = true)
    (hu : o.state.um h.port = v.um h.port) : v.answers t h u.code (shownResult o.result) o.data :=
  f.result hn (by rw [hu])

/-- The journal entry of a command that makes one, changes neither the journal nor module time itself, and leaves HEAD. -/
theorem Outcome.Finished.entry {o : Outcome} {v t : State} {h : UHdr} {u : UCmd} (f : o.Finished v h u t)
    {l : Nat × Nat × Nat × Nat} (hl : logFields h u u.words o.log = some l) (hj : o.state.journal = v.journal)
    (hn : o.state.now = v.now) (hh : o.state.rd pgJRNL Reg.JRNL.HEAD.off = v.rd pgJRNL Reg.JRNL.HEAD.off) :
    v.journals t h u.code (shownResult o.result) l := by
  unfold State.journals
  rw [f.log l hl, hj]
  have c1 := State.sameReg_countResult (q := pgJRNL) (a := Reg.JRNL.HEAD.off) (by decide) (by decide) o.state o.result
  simp only [cmdEntry, State.stored, c1.1, hh, hn]

/-- A command whose own effect leaves alone what answering it changes. -/
theorem Outcome.Finished.answering {o : Outcome} {v t : State} {h : UHdr} {u : UCmd} (f : o.Finished v h u t) {M : Nat}
    {l : List Part} (ho : v.Only M o.state) (hM : M &&& 146834194521 = 0)
    (hk : (allBut (Machine.answering ++ l)).all (fun p => !(M ||| 146834194521).testBit p.bit) = true)
    (hl : logFields h u u.words o.log = some (logOf h u u.words)) (hn : o.now = true) (hd : o.data = []) :
    v.Answering t h u (shownResult o.result) l := by
  have bit (i : Nat) (hi : (146834194521 : Nat).testBit i = true) : M.testBit i = false := by
    have := congrArg (·.testBit i) hM
    simpa [Nat.testBit_land, hi] using this
  refine ⟨?_, ?_, State.Only.changes (L := M ||| 146834194521) (ho.mono.trans (f.answered.only ?_)) hk, fun q a l k => ?_⟩
  · rw [← hd]
    exact f.answers hn (ho.um (bit _ (by decide)) (bit _ (by decide)) _)
  · exact f.entry hl (ho.journal (bit _ (by decide))) (ho.now (bit _ (by decide)))
      (rd_of_regs (ho.regs (bit _ (by decide))) _ _)
  · apply Nat.eq_of_testBit_eq
    intro i
    rw [Nat.testBit_land, Nat.testBit_lor]
    cases (146834194521 : Nat).testBit i <;> simp
  · exact State.SameReg.trans (.of (ho.regs (bit _ (by decide))) (ho.stale (bit _ (by decide))) _ _) (f.reg q a l k)

end Sys2Proof.Machine
end

