-- ==== Sys2Proof/Laws/Keeps.lean ====
section
/-!
SUPPORT. The relation `Keeps` between a state and one that follows from it: the queue of commands is the same, and what is
well formed stays so. Here it is shown of the register operations and of updates of single fields.
-/

namespace Sys2Proof.Machine

/-- `t` follows from `s` without touching the queue of commands, and is well formed where `s` is. -/
structure State.Keeps (s t : State) : Prop where
  pending : t.pending = s.pending
  wf : s.Wf → t.Wf

theorem State.Keeps.refl (s : State) : s.Keeps s := ⟨rfl, id⟩
theorem State.Keeps.trans {s t u : State} (h : s.Keeps t) (k : t.Keeps u) : s.Keeps u :=
  ⟨k.1.trans h.1, fun c => k.2 (h.2 c)⟩

/-- What an update of some fields must show. -/
theorem State.Keeps.of {s t u : State} (h : s.Keeps u) (e : t.pending = u.pending)
    {x0 : List (Nat × Word)} (e0 : t.regs = x0) (w0 : mapCanon regReset u.regs = true → mapCanon regReset x0 = true)
    {x1 : List (Nat × Chan)} (e1 : t.chans = x1) (w1 : mapCanon (fun _ => ({} : Chan)) u.chans = true → mapCanon
        (fun _ => ({} : Chan)) x1 = true)
    {x2 : List (Nat × Word)} (e2 : t.tac = x2) (w2 : mapCanon (fun _ => (0 : Word)) u.tac = true → mapCanon (fun _
        => (0 : Word)) x2 = true)
    {x3 : List (Nat × Word)} (e3 : t.stale = x3) (w3 : mapWf u.stale = true → mapWf x3 = true)
    {x4 : List (Nat × Word)} (e4 : t.tacStaged = x4) (w4 : mapWf u.tacStaged = true → mapWf x4 = true)
    {x5 : List (Nat × Word)} (e5 : t.rwsStaged = x5) (w5 : mapWf u.rwsStaged = true → mapWf x5 = true)
    {x6 : List (Nat × FrameInfo)} (e6 : t.frames = x6) (w6 : mapWf u.frames = true → mapWf x6 = true)
    {x7 : List (Nat × Nat)} (e7 : t.lastCorr = x7) (w7 : mapWf u.lastCorr = true → mapWf x7 = true)
    {x8 : List (Nat × ScrubRun)} (e8 : t.scrubs = x8) (w8 : mapWf u.scrubs = true → mapWf x8 = true)
    {x9 : List (Nat × BitVec 128)} (e9 : t.mramCorr = x9) (w9 : mapWf u.mramCorr = true → mapWf x9 = true)
    {x10 : List (Nat × Word)} (e10 : t.mramTac = x10) (w10 : mapWf u.mramTac = true → mapWf x10 = true)
    {x11 : List (Nat × Nat)} (e11 : t.mramTap = x11) (w11 : mapWf u.mramTap = true → mapWf x11 = true)
    {x12 : List JEntry} (e12 : t.journal = x12) (w12 : u.journal.length ≤ 4096 → x12.length ≤ 4096)
    {x13 : List (Nat × Bool × Bool)} (e13 : t.eventQ = x13) (w13 : (u.eventQ.map (·.1)).Nodup → (x13.map (·.1)).Nodup)
    {x14 : TrigSt} (e14 : t.trig = x14) (w14 : u.trig.timed.length ≤ 16 → x14.timed.length ≤ 16) :
    s.Keeps t :=
  ⟨e.trans h.1, fun k =>
    have k := h.2 k
    ⟨e0 ▸ w0 k.regs, e1 ▸ w1 k.chans, e2 ▸ w2 k.tac, e3 ▸ w3 k.stale, e4 ▸ w4 k.tacStaged, e5 ▸ w5 k.rwsStaged, e6 ▸
        w6 k.frames, e7 ▸ w7 k.lastCorr, e8 ▸ w8 k.scrubs, e9 ▸ w9 k.mramCorr, e10 ▸ w10 k.mramTac, e11 ▸ w11
        k.mramTap, e12 ▸ w12 k.journal, e13 ▸ w13 k.events, e14 ▸ w14 k.timed⟩⟩

/-- An update of fields that the relation does not speak of. -/
theorem State.Keeps.same {s t u : State} (e : t.pending = u.pending) (e0 : t.regs = u.regs) (e1 : t.chans = u.chans)
    (e2 : t.tac = u.tac) (e3 : t.stale = u.stale) (e4 : t.tacStaged = u.tacStaged) (e5 : t.rwsStaged = u.rwsStaged)
    (e6 : t.frames = u.frames) (e7 : t.lastCorr = u.lastCorr) (e8 : t.scrubs = u.scrubs) (e9 : t.mramCorr =
    u.mramCorr) (e10 : t.mramTac = u.mramTac) (e11 : t.mramTap = u.mramTap) (e12 : t.journal = u.journal) (e13 :
    t.eventQ = u.eventQ) (e14 : t.trig = u.trig) (h : s.Keeps u) :
    s.Keeps t :=
  .of h e e0 id e1 id e2 id e3 id e4 id e5 id e6 id e7 id e8 id e9 id e10 id e11 id e12 id e13 id e14 id

theorem State.Keeps.ite {s t u : State} {c : Prop} [Decidable c] (h : s.Keeps t) (k : s.Keeps u) :
    s.Keeps (if c then t else u) := by split <;> assumption
theorem State.Keeps.each {s t : State} {α : Type} {l : List α} {f : State → α → State}
    (h : ∀ (u : State) (a : α), s.Keeps u → s.Keeps (f u a)) (k : s.Keeps t) : s.Keeps (t.each l f) :=
  State.each_keeps (P := fun u => s.Keeps u) (fun u a _ => h u a) k
theorem State.Keeps.foldl {s t : State} {α : Type} {l : List α} {f : State → α → State}
    (h : ∀ (u : State) (a : α), s.Keeps u → s.Keeps (f u a)) (k : s.Keeps t) : s.Keeps (l.foldl f t) :=
        State.Keeps.each h k
theorem State.Keeps.foldlSnd {s : State} {α β : Type} {l : List α} {f : β × State → α → β × State} {x : β × State}
    (h : ∀ (x : β × State) (a : α), s.Keeps x.2 → s.Keeps (f x a).2) (k : s.Keeps x.2) : s.Keeps (l.foldl f x).2 := by
  induction l generalizing x with
  | nil => exact k
  | cons a l ih => exact ih (h x a k)

/-! What updates do to one map or list -/

theorem mapWf_nil' {α : Type} {m : List (Nat × α)} : mapWf m = true → mapWf ([] : List (Nat × α)) = true := fun _ =>
    rfl
theorem mapWf_one {α : Type} {m : List (Nat × α)} {x : Nat × α} : mapWf m = true → mapWf [x] = true := fun _ => rfl
theorem mapWf_put' {α : Type} {m : List (Nat × α)} {k : Nat} {v : α} (h : mapWf m = true) : mapWf (mapPut k v m) =
    true :=
  mapWf_mapPut h ..
theorem mapWf_del' {α : Type} {m : List (Nat × α)} {k : Nat} (h : mapWf m = true) : mapWf (mapDel k m) = true :=
  mapWf_mapDel h ..
theorem mapWf_filter' {α : Type} {m : List (Nat × α)} {p : Nat × α → Bool} (h : mapWf m = true) :
    mapWf (m.filter p) = true := mapWf_filter h ..
theorem mapWf_putFilter {α : Type} {m : List (Nat × α)} {p : Nat × α → Bool} {k : Nat} {v : α} (h : mapWf m = true) :
    mapWf (mapPut k v (m.filter p)) = true := mapWf_mapPut (mapWf_filter h _) ..
theorem mapWf_filterMap {α β : Type} {m : List (Nat × α)} {g : Nat × α → Option β} (h : mapWf m = true) :
    mapWf (m.filterMap fun e => (g e).map fun v => (e.1, v)) = true := by
  rw [mapWf_iff] at *
  refine h.filterMap _ fun a b l x hx y hy => ?_
  obtain ⟨_, _, rfl⟩ := Option.map_eq_some_iff.1 hx
  obtain ⟨_, _, rfl⟩ := Option.map_eq_some_iff.1 hy
  exact l
theorem mapWf_fold {α β : Type} {k : β → Nat} {v : β → α} {l : List β} {m : List (Nat × α)} (h : mapWf m = true) :
    mapWf (l.foldl (fun m e => mapPut (k e) (v e) m) m) = true := by
  induction l generalizing m with
  | nil => exact h
  | cons a l ih => exact ih (mapWf_mapPut h ..)
theorem mapWf_keys {α β : Type} {m : List (Nat × α)} {n : List (Nat × β)} (e : n.map (·.1) = m.map (·.1)) (h : mapWf
    m = true) :
    mapWf n = true := by
  rw [mapWf_iff, ← List.pairwise_map (f := Prod.fst) (R := (· < ·))] at *
  rw [e]
  exact h
theorem mapWf_map' {α : Type} {m : List (Nat × α)} {g : Nat × α → Nat × α} (e : ∀ x, (g x).1 = x.1) (h : mapWf m =
    true) :
    mapWf (m.map g) = true := mapWf_keys (by simp [e]) h
theorem mapCanon_nil' {α : Type} [DecidableEq α] {d : Nat → α} {m : List (Nat × α)} :
    mapCanon d m = true → mapCanon d ([] : List (Nat × α)) = true := fun _ => rfl
theorem mapCanon_put' {α : Type} [DecidableEq α] {d : α} {m : List (Nat × α)} {k : Nat} {v : α}
    (h : mapCanon (fun _ => d) m = true) : mapCanon (fun _ => d) (mapPutD d k v m) = true :=
  mapCanon_mapPutD (d := fun _ => d) h ..
theorem mapCanon_filter' {α : Type} [DecidableEq α] {d : Nat → α} {m : List (Nat × α)} {p : Nat × α → Bool}
    (h : mapCanon d m = true) : mapCanon d (m.filter p) = true := mapCanon_filter h ..
theorem mapCanon_fold {α β : Type} [DecidableEq α] {d : α} {k : β → Nat} {v : β → α} {l : List β} {m : List (Nat × α)}
    (h : mapCanon (fun _ => d) m = true) :
    mapCanon (fun _ => d) (l.foldl (fun m e => mapPutD d (k e) (v e) m) m) = true := by
  induction l generalizing m with
  | nil => exact h
  | cons a l ih => exact ih (mapCanon_put' h)
theorem length_take_le' {α : Type} {n : Nat} {l m : List α} : m.length ≤ n → (l.take n).length ≤ n := fun _ => by simp
theorem length_map' {α β : Type} {f : α → β} {n : Nat} {l : List α} (h : l.length ≤ n) : (l.map f).length ≤ n := by
    simpa using h
theorem TrigSt.accept_timed {t : TrigSt} {p : Pin} {a b n : Nat} (h : t.timed.length ≤ n) : (t.accept p a
    b).timed.length ≤ n := by
  cases p <;> exact h
theorem TrigSt.setGate_timed {t : TrigSt} {p : Pin} {g : GatePin} {n : Nat} (h : t.timed.length ≤ n) :
    (t.setGate p g).timed.length ≤ n := by cases p <;> exact h
theorem length_filter_le' {α : Type} {p : α → Bool} {n : Nat} {l : List α} (h : l.length ≤ n) : (l.filter p).length
    ≤ n :=
  (List.length_filter_le ..).trans h
theorem nodup_filter' {α : Type} {l : List (Nat × α)} {p : Nat × α → Bool} (h : (l.map (·.1)).Nodup) :
    ((l.filter p).map (·.1)).Nodup := h.sublist (List.filter_sublist.map _)

/-! The register operations -/

theorem regsPut_canon {m : List (Nat × Word)} (p o : Nat) (v : Word) (h : mapCanon regReset m = true) :
    mapCanon regReset (regsPut m p o v) = true := mapCanon_mapPutD h ..

theorem State.wr_keeps {s₀ s : State} (h : s₀.Keeps s) (p o : Nat) (v : Word) : s₀.Keeps (s.wr p o v) :=
  .of h (State.wr_pending ..) rfl (regsPut_canon p o v) (State.wr_chans ..) id (State.wr_tac ..) id
      (State.wr_stale ..) id (State.wr_tacStaged ..) id (State.wr_rwsStaged ..) id (State.wr_frames ..) id
      (State.wr_lastCorr ..) id (State.wr_scrubs ..) id (State.wr_mramCorr ..) id (State.wr_mramTac ..) id
      (State.wr_mramTap ..) id (State.wr_journal ..) id (State.wr_eventQ ..) id (State.wr_trig ..) id
theorem State.put_keeps {s₀ s : State} (h : s₀.Keeps s) (p : Nat) (f : FieldRef) (v : Nat) : s₀.Keeps (s.put p f
    v) := by
  refine .of h (State.put_pending ..) rfl (regsPut_canon _ _ _) (State.put_chans ..) id (State.put_tac ..) id rfl ?_
      (State.put_tacStaged ..) id (State.put_rwsStaged ..) id (State.put_frames ..) id (State.put_lastCorr ..) id
      (State.put_scrubs ..) id (State.put_mramCorr ..) id (State.put_mramTac ..) id (State.put_mramTap ..) id
      (State.put_journal ..) id (State.put_eventQ ..) id (State.put_trig ..) id
  intro k
  dsimp only [State.put]
  split
  · exact mapWf_put' k
  · exact k
theorem State.putB_keeps {s₀ s : State} (h : s₀.Keeps s) (p : Nat) (f : FieldRef) (b : Bool) : s₀.Keeps (s.putB p f
    b) :=
  State.put_keeps h ..
theorem State.overflow_keeps {s₀ s : State} (h : s₀.Keeps s) (p k : Nat) : s₀.Keeps (s.overflow p k) :=
    State.wr_keeps h ..
theorem State.bump_keeps {s₀ s : State} (h : s₀.Keeps s) (p : Nat) (f : FieldRef) (k n : Nat) : s₀.Keeps (s.bump p f
    k n) :=
  .ite (State.put_keeps h ..) (State.overflow_keeps (State.put_keeps h ..) ..)
theorem State.bump64_keeps {s₀ s : State} (h : s₀.Keeps s) (p : Nat) (f g : FieldRef) (k n : Nat) :
    s₀.Keeps (s.bump64 p f g k n) :=
  .ite (State.put_keeps (State.put_keeps h ..) ..) (State.overflow_keeps (State.put_keeps (State.put_keeps
      h ..) ..) ..)
theorem State.bumpWrap_keeps {s₀ s : State} (h : s₀.Keeps s) (p : Nat) (f : FieldRef) (n : Nat) :
    s₀.Keeps (s.bumpWrap p f n) := State.put_keeps h ..
theorem State.peak_keeps {s₀ s : State} (h : s₀.Keeps s) (p : Nat) (f : FieldRef) (n : Nat) : s₀.Keeps (s.peak p f
    n) :=
  .ite (State.put_keeps h ..) h
theorem State.queueEvent_keeps {s₀ s : State} (h : s₀.Keeps s) (p : Nat) : s₀.Keeps (s.queueEvent p) := by
  unfold State.queueEvent
  split
  · rename_i c
    refine .of h (State.mk_pending ..) (State.mk_regs ..) ?_ (State.mk_chans ..) ?_ (State.mk_tac ..) ?_
        (State.mk_stale ..) ?_ (State.mk_tacStaged ..) ?_ (State.mk_rwsStaged ..) ?_ (State.mk_frames ..) ?_
        (State.mk_lastCorr ..) ?_ (State.mk_scrubs ..) ?_ (State.mk_mramCorr ..) ?_ (State.mk_mramTac ..) ?_
        (State.mk_mramTap ..) ?_ (State.mk_journal ..) ?_ (State.mk_eventQ ..) ?_ (State.mk_trig ..) ?_
    all_goals first
      | exact id
      | (intro k
         rw [List.map_append, List.nodup_append]
         refine ⟨k, by simp, ?_⟩
         simp only [Bool.and_eq_true, Bool.not_eq_true', List.any_eq_false, beq_iff_eq] at c
         intro a ha b hb e
         obtain ⟨x, hx, rfl⟩ := List.mem_map.1 ha
         simp only [List.map_cons, List.map_nil, List.mem_singleton] at hb
         exact c.2 x hx (e.trans hb))
  · exact h
theorem State.event_keeps {s₀ s : State} (h : s₀.Keeps s) (p k : Nat) : s₀.Keeps (s.event p k) :=
  .ite h (.ite (State.queueEvent_keeps (State.wr_keeps h ..) ..) (State.wr_keeps h ..))
theorem State.eventIf_keeps {s₀ s : State} (h : s₀.Keeps s) (c : Bool) (p k : Nat) : s₀.Keeps (s.eventIf c p k) :=
  .ite (State.event_keeps h ..) h

theorem State.advance_keeps {s₀ s : State} (h : s₀.Keeps s) (t : Nat) : s₀.Keeps (s.advance t) :=
  .of h (State.advance_pending ..) (State.advance_regs ..) id (State.advance_chans ..) id (State.advance_tac ..) id
      (State.advance_stale ..) id (State.advance_tacStaged ..) id (State.advance_rwsStaged ..) id
      (State.advance_frames ..) id (State.advance_lastCorr ..) id (State.advance_scrubs ..) id
      (State.advance_mramCorr ..) id (State.advance_mramTac ..) id (State.advance_mramTap ..) id
      (State.advance_journal ..) id (State.advance_eventQ ..) id (State.advance_trig ..) id
theorem State.setChan_keeps {s₀ s : State} (h : s₀.Keeps s) (c : Nat) (v : Chan) : s₀.Keeps (s.setChan c v) :=
  .of h (State.setChan_pending ..) (State.setChan_regs ..) id rfl mapCanon_put' (State.setChan_tac ..) id
      (State.setChan_stale ..) id (State.setChan_tacStaged ..) id (State.setChan_rwsStaged ..) id
      (State.setChan_frames ..) id (State.setChan_lastCorr ..) id (State.setChan_scrubs ..) id
      (State.setChan_mramCorr ..) id (State.setChan_mramTac ..) id (State.setChan_mramTap ..) id
      (State.setChan_journal ..) id (State.setChan_eventQ ..) id (State.setChan_trig ..) id
theorem State.setTile_keeps {s₀ s : State} (h : s₀.Keeps s) (t : Fin 16) (v : Tile) : s₀.Keeps (s.setTile t v) :=
  .of h (State.setTile_pending ..) (State.setTile_regs ..) id (State.setTile_chans ..) id (State.setTile_tac ..) id
      (State.setTile_stale ..) id (State.setTile_tacStaged ..) id (State.setTile_rwsStaged ..) id
      (State.setTile_frames ..) id (State.setTile_lastCorr ..) id (State.setTile_scrubs ..) id
      (State.setTile_mramCorr ..) id (State.setTile_mramTac ..) id (State.setTile_mramTap ..) id
      (State.setTile_journal ..) id (State.setTile_eventQ ..) id (State.setTile_trig ..) id
theorem State.setPort_keeps {s₀ s : State} (h : s₀.Keeps s) (t : Fin 16) (c : Conc) (v : Port) : s₀.Keeps (s.setPort
    t c v) :=
  .of h (State.setPort_pending ..) (State.setPort_regs ..) id (State.setPort_chans ..) id (State.setPort_tac ..) id
      (State.setPort_stale ..) id (State.setPort_tacStaged ..) id (State.setPort_rwsStaged ..) id
      (State.setPort_frames ..) id (State.setPort_lastCorr ..) id (State.setPort_scrubs ..) id
      (State.setPort_mramCorr ..) id (State.setPort_mramTac ..) id (State.setPort_mramTap ..) id
      (State.setPort_journal ..) id (State.setPort_eventQ ..) id (State.setPort_trig ..) id
theorem State.setConc_keeps {s₀ s : State} (h : s₀.Keeps s) (c : Conc) (v : ConcSt) : s₀.Keeps (s.setConc c v) :=
  .of h (State.setConc_pending ..) (State.setConc_regs ..) id (State.setConc_chans ..) id (State.setConc_tac ..) id
      (State.setConc_stale ..) id (State.setConc_tacStaged ..) id (State.setConc_rwsStaged ..) id
      (State.setConc_frames ..) id (State.setConc_lastCorr ..) id (State.setConc_scrubs ..) id
      (State.setConc_mramCorr ..) id (State.setConc_mramTac ..) id (State.setConc_mramTap ..) id
      (State.setConc_journal ..) id (State.setConc_eventQ ..) id (State.setConc_trig ..) id
theorem State.setRx_keeps {s₀ s : State} (h : s₀.Keeps s) (c : Conc) (t : Fin 16) (v : Rx) : s₀.Keeps (s.setRx c t
    v) :=
  .of h (State.setRx_pending ..) (State.setRx_regs ..) id (State.setRx_chans ..) id (State.setRx_tac ..) id
      (State.setRx_stale ..) id (State.setRx_tacStaged ..) id (State.setRx_rwsStaged ..) id (State.setRx_frames ..)
      id (State.setRx_lastCorr ..) id (State.setRx_scrubs ..) id (State.setRx_mramCorr ..) id (State.setRx_mramTac
      ..) id (State.setRx_mramTap ..) id (State.setRx_journal ..) id (State.setRx_eventQ ..) id (State.setRx_trig
      ..) id

end Sys2Proof.Machine
end

