-- ==== Sys2Proof/Laws/KeepsUnits.lean ====
section
/-!
SUPPORT. Every function of the machine keeps the queue of commands and the well-formedness of a state: one lemma per function,
in the order of the files that define them.
-/

set_option Elab.async false
set_option linter.unusedTactic false
set_option linter.unreachableTactic false
set_option linter.unusedVariables false

namespace Sys2Proof.Machine
open State

/-! Ops.lean -/

theorem State.wake_keeps {s₀ s : State} (hs₀ : s₀.Keeps s) (page : Nat) : s₀.Keeps (State.wake s page) := by
  unfold State.wake
  repeat (with_reducible first | exact hs₀ | apply State.put_keeps | apply State.Keeps.ite | split)
theorem State.draw_keeps {s₀ s : State} (hs₀ : s₀.Keeps s) : s₀.Keeps (State.draw s).2 := by
  unfold State.draw
  repeat (with_reducible first
    | split
    | exact hs₀
    | refine State.Keeps.same (mk_pending ..) (mk_regs ..) (mk_chans ..) (mk_tac ..) (mk_stale ..) (mk_tacStaged ..)
        (mk_rwsStaged ..) (mk_frames ..) (mk_lastCorr ..) (mk_scrubs ..) (mk_mramCorr ..) (mk_mramTac ..)
        (mk_mramTap ..) (mk_journal ..) (mk_eventQ ..) (mk_trig ..) ?_)

/-! Dead.lean -/

theorem State.addCalDead_keeps {s₀ s : State} (hs₀ : s₀.Keeps s) (chan n : Nat) : s₀.Keeps (State.addCalDead s chan
    n) := by
  unfold State.addCalDead
  repeat (with_reducible first
    | exact hs₀
    | apply State.overflow_keeps
    | apply State.bump64_keeps
    | apply State.Keeps.ite
    | split
    | refine State.Keeps.same (mk_pending ..) (mk_regs ..) (mk_chans ..) (mk_tac ..) (mk_stale ..) (mk_tacStaged ..)
        (mk_rwsStaged ..) (mk_frames ..) (mk_lastCorr ..) (mk_scrubs ..) (mk_mramCorr ..) (mk_mramTac ..)
        (mk_mramTap ..) (mk_journal ..) (mk_eventQ ..) (mk_trig ..) ?_
    | dsimp only)
theorem State.calMissed_keeps {s₀ s : State} (hs₀ : s₀.Keeps s) (chan : Nat) : s₀.Keeps (State.calMissed s chan) := by
  unfold State.calMissed
  repeat (with_reducible first | exact hs₀ | apply State.addCalDead_keeps | apply State.bump_keeps)
theorem State.dropLaunches_keeps {s₀ s : State} (hs₀ : s₀.Keeps s) (p : Launch → Bool) : s₀.Keeps
    (State.dropLaunches s p) := by
  unfold State.dropLaunches
  repeat (with_reducible first
    | exact hs₀
    | refine State.Keeps.same (mk_pending ..) (mk_regs ..) (mk_chans ..) (mk_tac ..) (mk_stale ..) (mk_tacStaged ..)
        (mk_rwsStaged ..) (mk_frames ..) (mk_lastCorr ..) (mk_scrubs ..) (mk_mramCorr ..) (mk_mramTac ..)
        (mk_mramTap ..) (mk_journal ..) (mk_eventQ ..) (mk_trig ..) ?_)
theorem State.missLaunches_keeps {s₀ s : State} (hs₀ : s₀.Keeps s) (p : Launch → Bool) : s₀.Keeps
    (State.missLaunches s p) := by
  unfold State.missLaunches
  repeat (with_reducible first
    | exact hs₀
    | apply State.dropLaunches_keeps
    | apply State.calMissed_keeps
    | refine State.Keeps.each ?_ ?_ <;> [(intro u x₁ hs₀; try dsimp only); skip])
theorem State.launchHit_keeps {s₀ s : State} (hs₀ : s₀.Keeps s) (chan launch lead hold : Nat) : s₀.Keeps
    (State.launchHit s chan launch lead hold) := by
  unfold State.launchHit
  repeat (with_reducible first
    | exact hs₀
    | apply State.Keeps.ite
    | split
    | refine State.Keeps.same (mk_pending ..) (mk_regs ..) (mk_chans ..) (mk_tac ..) (mk_stale ..) (mk_tacStaged ..)
        (mk_rwsStaged ..) (mk_frames ..) (mk_lastCorr ..) (mk_scrubs ..) (mk_mramCorr ..) (mk_mramTac ..)
        (mk_mramTap ..) (mk_journal ..) (mk_eventQ ..) (mk_trig ..) ?_)
theorem State.launchCaptured_keeps {s₀ s : State} (hs₀ : s₀.Keeps s) (chan tot : Nat) : s₀.Keeps
    (State.launchCaptured s chan tot) := by
  unfold State.launchCaptured
  repeat (with_reducible first
    | exact hs₀
    | apply State.dropLaunches_keeps
    | apply State.addCalDead_keeps
    | split
    | dsimp only)
theorem State.launchesUnread_keeps {s₀ s : State} (hs₀ : s₀.Keeps s) (f : Nat) : s₀.Keeps (State.launchesUnread s
    f) := by
  unfold State.launchesUnread
  repeat (with_reducible first | exact hs₀ | apply State.missLaunches_keeps | apply State.Keeps.ite | split)
theorem State.launchesClosed_keeps {s₀ s : State} (hs₀ : s₀.Keeps s) (c : Conc) (t : Fin 16) (n : Nat) : s₀.Keeps
    (State.launchesClosed s c t n) := by
  unfold State.launchesClosed
  repeat (with_reducible first | exact hs₀ | apply State.missLaunches_keeps | apply State.Keeps.ite | split)
theorem State.launchBlind_keeps {s₀ s : State} (hs₀ : s₀.Keeps s) (chan launch : Nat) : s₀.Keeps (State.launchBlind
    s chan launch) := by
  unfold State.launchBlind
  repeat (with_reducible first | exact hs₀ | apply State.missLaunches_keeps)

/-! Integrity.lean -/

theorem State.bucketPass_keeps {s₀ s : State} (hs₀ : s₀.Keeps s) (page r : Nat) (before : Bool) : s₀.Keeps
    (State.bucketPass s page r before) := by
  unfold State.bucketPass
  repeat (with_reducible first | exact hs₀ | apply State.eventIf_keeps)
theorem State.showRemap_keeps {s₀ s : State} (hs₀ : s₀.Keeps s) (page : Nat) : s₀.Keeps (State.showRemap s page) := by
  unfold State.showRemap
  repeat (with_reducible first | exact hs₀ | apply State.put_keeps | dsimp only)
theorem State.remapWord_keeps {s₀ s : State} (hs₀ : s₀.Keeps s) (page r addr : Nat) : s₀.Keeps (State.remapWord s
    page r addr).2 := by
  unfold State.remapWord
  repeat (with_reducible first
    | dsimp only
    | split
    | exact hs₀
    | apply State.event_keeps
    | apply State.putB_keeps
    | apply State.put_keeps)
theorem State.faultSpare_keeps {s₀ s : State} (hs₀ : s₀.Keeps s) (page n : Nat) (x0 : Option Nat) : s₀.Keeps
    (State.faultSpare s page n x0) := by
  unfold State.faultSpare
  repeat (with_reducible first | exact hs₀ | apply State.putB_keeps | apply State.put_keeps | split)
theorem State.newFault_keeps {s₀ s : State} (hs₀ : s₀.Keeps s) (page r addr bit n : Nat) : s₀.Keeps (State.newFault
    s page r addr bit n) := by
  unfold State.newFault
  repeat (with_reducible first
    | exact hs₀
    | apply State.put_keeps
    | apply State.putB_keeps
    | apply State.event_keeps
    | apply State.Keeps.ite
    | split
    | dsimp only)
theorem State.markSticky_keeps {s₀ s : State} (hs₀ : s₀.Keeps s) (page r addr bit : Nat) : s₀.Keeps
    (State.markSticky s page r addr bit) := by
  unfold State.markSticky
  repeat (with_reducible first
    | exact hs₀
    | apply State.remapWord_keeps
    | apply State.put_keeps
    | apply State.faultSpare_keeps
    | apply State.newFault_keeps
    | apply State.bump_keeps
    | apply State.showRemap_keeps
    | split
    | dsimp only)
theorem State.countCorrected_keeps {s₀ s : State} (hs₀ : s₀.Keeps s) (page r addr : Nat) : s₀.Keeps
    (State.countCorrected s page r addr) := by
  unfold State.countCorrected
  repeat (with_reducible first
    | exact hs₀
    | apply State.bump_keeps
    | apply State.put_keeps
    | apply State.bucketPass_keeps
    | apply State.Keeps.ite
    | split
    | refine State.Keeps.of ?_ (mk_pending ..) (mk_regs ..) ?_ (mk_chans ..) ?_ (mk_tac ..) ?_ (mk_stale ..) ?_
        (mk_tacStaged ..) ?_ (mk_rwsStaged ..) ?_ (mk_frames ..) ?_ (mk_lastCorr ..) ?_ (mk_scrubs ..) ?_
        (mk_mramCorr ..) ?_ (mk_mramTac ..) ?_ (mk_mramTap ..) ?_ (mk_journal ..) ?_ (mk_eventQ ..) ?_ (mk_trig ..)
        ?_
    | exact id
    | exact mapWf_put'
    | dsimp only)
theorem State.correctedRead_keeps {s₀ s : State} (hs₀ : s₀.Keeps s) (page r addr bit : Nat) : s₀.Keeps
    (State.correctedRead s page r addr bit) := by
  unfold State.correctedRead
  repeat (with_reducible first
    | exact hs₀
    | apply State.countCorrected_keeps
    | apply State.markSticky_keeps
    | apply State.Keeps.ite
    | split
    | dsimp only)
theorem State.uncorrectableRead_keeps {s₀ s : State} (hs₀ : s₀.Keeps s) (page r : Nat) : s₀.Keeps
    (State.uncorrectableRead s page r) := by
  unfold State.uncorrectableRead
  repeat (with_reducible first | exact hs₀ | apply State.bump_keeps)
theorem State.poisoned_keeps {s₀ s : State} (hs₀ : s₀.Keeps s) (page : Nat) : s₀.Keeps (State.poisoned s page) := by
  unfold State.poisoned
  repeat (with_reducible first | exact hs₀ | apply State.bump_keeps | apply State.event_keeps)
theorem State.poisonTac_keeps {s₀ s : State} (hs₀ : s₀.Keeps s) (chan : Nat) : s₀.Keeps (State.poisonTac s chan) := by
  unfold State.poisonTac
  repeat (with_reducible first
    | exact hs₀
    | apply State.poisoned_keeps
    | refine State.Keeps.same (mk_pending ..) (mk_regs ..) (mk_chans ..) (mk_tac ..) (mk_stale ..) (mk_tacStaged ..)
        (mk_rwsStaged ..) (mk_frames ..) (mk_lastCorr ..) (mk_scrubs ..) (mk_mramCorr ..) (mk_mramTac ..)
        (mk_mramTap ..) (mk_journal ..) (mk_eventQ ..) (mk_trig ..) ?_)
theorem State.countRead_keeps {s₀ s : State} (hs₀ : s₀.Keeps s) (page r addr : Nat) (x0 : EccRead) : s₀.Keeps
    (State.countRead s page r addr x0) := by
  unfold State.countRead
  repeat (with_reducible first
    | exact hs₀
    | apply State.correctedRead_keeps
    | apply State.uncorrectableRead_keeps
    | split)
theorem State.readMram_keeps {s₀ s : State} (hs₀ : s₀.Keeps s) (l : Reads) : s₀.Keeps (State.readMram s l) := by
  unfold State.readMram
  repeat (with_reducible first
    | exact hs₀
    | apply State.countRead_keeps
    | refine State.Keeps.each ?_ ?_ <;> [(intro u x₁ hs₀; try dsimp only); skip])
theorem State.poisonMram_keeps {s₀ s : State} (hs₀ : s₀.Keeps s) (addr : Nat) : s₀.Keeps (State.poisonMram s
    addr) := by
  unfold State.poisonMram
  repeat (with_reducible first
    | exact hs₀
    | apply State.poisoned_keeps
    | refine State.Keeps.same (mk_pending ..) (mk_regs ..) (mk_chans ..) (mk_tac ..) (mk_stale ..) (mk_tacStaged ..)
        (mk_rwsStaged ..) (mk_frames ..) (mk_lastCorr ..) (mk_scrubs ..) (mk_mramCorr ..) (mk_mramTac ..)
        (mk_mramTap ..) (mk_journal ..) (mk_eventQ ..) (mk_trig ..) ?_)
theorem State.concChecked_keeps {s₀ s : State} (hs₀ : s₀.Keeps s) (c : Conc) (pass : BitVec 24) : s₀.Keeps
    (State.concChecked s c pass) := by
  unfold State.concChecked
  repeat (with_reducible first
    | exact hs₀
    | apply State.putB_keeps
    | apply State.put_keeps
    | apply State.event_keeps
    | apply State.Keeps.ite
    | split
    | refine State.Keeps.same (mk_pending ..) (mk_regs ..) (mk_chans ..) (mk_tac ..) (mk_stale ..) (mk_tacStaged ..)
        (mk_rwsStaged ..) (mk_frames ..) (mk_lastCorr ..) (mk_scrubs ..) (mk_mramCorr ..) (mk_mramTac ..)
        (mk_mramTap ..) (mk_journal ..) (mk_eventQ ..) (mk_trig ..) ?_
    | dsimp only)
theorem State.forgetFailure_keeps {s₀ s : State} (hs₀ : s₀.Keeps s) (c : Conc) : s₀.Keeps (State.forgetFailure s
    c) := by
  unfold State.forgetFailure
  repeat (with_reducible first
    | exact hs₀
    | refine State.Keeps.same (mk_pending ..) (mk_regs ..) (mk_chans ..) (mk_tac ..) (mk_stale ..) (mk_tacStaged ..)
        (mk_rwsStaged ..) (mk_frames ..) (mk_lastCorr ..) (mk_scrubs ..) (mk_mramCorr ..) (mk_mramTac ..)
        (mk_mramTap ..) (mk_journal ..) (mk_eventQ ..) (mk_trig ..) ?_)

/-! Journal.lean -/

theorem State.showJournal_keeps {s₀ s : State} (hs₀ : s₀.Keeps s) : s₀.Keeps (State.showJournal s) := by
  unfold State.showJournal
  repeat (with_reducible first | exact hs₀ | apply State.put_keeps | split | dsimp only)
theorem State.append_keeps {s₀ s : State} (hs₀ : s₀.Keeps s) (e : JEntry) : s₀.Keeps (State.append s e).2 := by
  unfold State.append
  repeat (with_reducible first
    | dsimp only
    | split
    | exact hs₀
    | apply State.showJournal_keeps
    | refine State.Keeps.of ?_ (mk_pending ..) (mk_regs ..) ?_ (mk_chans ..) ?_ (mk_tac ..) ?_ (mk_stale ..) ?_
        (mk_tacStaged ..) ?_ (mk_rwsStaged ..) ?_ (mk_frames ..) ?_ (mk_lastCorr ..) ?_ (mk_scrubs ..) ?_
        (mk_mramCorr ..) ?_ (mk_mramTac ..) ?_ (mk_mramTap ..) ?_ (mk_journal ..) ?_ (mk_eventQ ..) ?_ (mk_trig ..)
        ?_
    | exact id
    | exact length_take_le')
theorem State.journalEvent_keeps {s₀ s : State} (hs₀ : s₀.Keeps s) (code result page off digest aux : Nat) :
    s₀.Keeps (State.journalEvent s code result page off digest aux) := by
  unfold State.journalEvent
  repeat (with_reducible first | exact hs₀ | apply State.append_keeps)
theorem State.noteChange_keeps {s₀ s : State} (hs₀ : s₀.Keeps s) (page seq : Nat) : s₀.Keeps (State.noteChange s
    page seq) := by
  unfold State.noteChange
  repeat (with_reducible first
    | exact hs₀
    | refine State.Keeps.same (mk_pending ..) (mk_regs ..) (mk_chans ..) (mk_tac ..) (mk_stale ..) (mk_tacStaged ..)
        (mk_rwsStaged ..) (mk_frames ..) (mk_lastCorr ..) (mk_scrubs ..) (mk_mramCorr ..) (mk_mramTac ..)
        (mk_mramTap ..) (mk_journal ..) (mk_eventQ ..) (mk_trig ..) ?_)
theorem State.poisonJournal_keeps {s₀ s : State} (hs₀ : s₀.Keeps s) (place : Nat) : s₀.Keeps (State.poisonJournal s
    place) := by
  unfold State.poisonJournal
  repeat (with_reducible first
    | exact hs₀
    | apply State.Keeps.ite
    | split
    | refine State.Keeps.of ?_ (mk_pending ..) (mk_regs ..) ?_ (mk_chans ..) ?_ (mk_tac ..) ?_ (mk_stale ..) ?_
        (mk_tacStaged ..) ?_ (mk_rwsStaged ..) ?_ (mk_frames ..) ?_ (mk_lastCorr ..) ?_ (mk_scrubs ..) ?_
        (mk_mramCorr ..) ?_ (mk_mramTac ..) ?_ (mk_mramTap ..) ?_ (mk_journal ..) ?_ (mk_eventQ ..) ?_ (mk_trig ..)
        ?_
    | exact id
    | exact length_map'
    | exact (mapWf_map' (fun x => rfl))
    | exact (mapWf_map' (fun x => by split <;> rfl)))
theorem State.setUm_keeps {s₀ s : State} (hs₀ : s₀.Keeps s) (u : Um) (v : UmSt) : s₀.Keeps (State.setUm s u v) := by
  unfold State.setUm
  repeat (with_reducible first
    | exact hs₀
    | split
    | refine State.Keeps.same (mk_pending ..) (mk_regs ..) (mk_chans ..) (mk_tac ..) (mk_stale ..) (mk_tacStaged ..)
        (mk_rwsStaged ..) (mk_frames ..) (mk_lastCorr ..) (mk_scrubs ..) (mk_mramCorr ..) (mk_mramTac ..)
        (mk_mramTap ..) (mk_journal ..) (mk_eventQ ..) (mk_trig ..) ?_)
theorem State.holdAnswer_keeps {s₀ s : State} (hs₀ : s₀.Keeps s) (u : Um) (tag : Byte) : s₀.Keeps (State.holdAnswer
    s u tag) := by
  unfold State.holdAnswer
  repeat (with_reducible first
    | exact hs₀
    | apply State.setUm_keeps
    | refine State.Keeps.same (mk_pending ..) (mk_regs ..) (mk_chans ..) (mk_tac ..) (mk_stale ..) (mk_tacStaged ..)
        (mk_rwsStaged ..) (mk_frames ..) (mk_lastCorr ..) (mk_scrubs ..) (mk_mramCorr ..) (mk_mramTac ..)
        (mk_mramTap ..) (mk_journal ..) (mk_eventQ ..) (mk_trig ..) ?_)
theorem State.answerHeld_keeps {s₀ s : State} (hs₀ : s₀.Keeps s) (u : Um) (tag : Byte) (code result seq : Nat) :
    s₀.Keeps (State.answerHeld s u tag code result seq) := by
  unfold State.answerHeld
  repeat (with_reducible first
    | exact hs₀
    | apply State.setUm_keeps
    | refine State.Keeps.same (mk_pending ..) (mk_regs ..) (mk_chans ..) (mk_tac ..) (mk_stale ..) (mk_tacStaged ..)
        (mk_rwsStaged ..) (mk_frames ..) (mk_lastCorr ..) (mk_scrubs ..) (mk_mramCorr ..) (mk_mramTac ..)
        (mk_mramTap ..) (mk_journal ..) (mk_eventQ ..) (mk_trig ..) ?_
    | dsimp only)
theorem State.answer_keeps {s₀ s : State} (hs₀ : s₀.Keeps s) (u : Um) (tag : Byte) (code result seq : Nat) (data :
    List Word) : s₀.Keeps (State.answer s u tag code result seq data) := by
  unfold State.answer
  repeat (with_reducible first
    | exact hs₀
    | apply State.setUm_keeps
    | refine State.Keeps.same (mk_pending ..) (mk_regs ..) (mk_chans ..) (mk_tac ..) (mk_stale ..) (mk_tacStaged ..)
        (mk_rwsStaged ..) (mk_frames ..) (mk_lastCorr ..) (mk_scrubs ..) (mk_mramCorr ..) (mk_mramTac ..)
        (mk_mramTap ..) (mk_journal ..) (mk_eventQ ..) (mk_trig ..) ?_)

/-! Boot.lean -/

theorem State.loadClassK_keeps {s₀ s : State} (hs₀ : s₀.Keeps s) (lo hi : Nat) : s₀.Keeps (State.loadClassK s lo
    hi) := by
  unfold State.loadClassK
  repeat (with_reducible first
    | exact hs₀
    | apply State.wr_keeps
    | refine State.Keeps.each ?_ ?_ <;> [(intro u x₁ hs₀; try dsimp only); skip])
theorem State.showFwu_keeps {s₀ s : State} (hs₀ : s₀.Keeps s) : s₀.Keeps (State.showFwu s) := by
  unfold State.showFwu
  repeat (with_reducible first
    | exact hs₀
    | apply State.put_keeps
    | apply State.putB_keeps
    | apply State.Keeps.ite
    | split
    | dsimp only)
theorem State.withSettings_keeps {s₀ s : State} (hs₀ : s₀.Keeps s) (c : Settings) : s₀.Keeps (State.withSettings s
    c) := by
  unfold State.withSettings
  repeat (with_reducible first
    | exact hs₀
    | refine State.Keeps.same (mk_pending ..) (mk_regs ..) (mk_chans ..) (mk_tac ..) (mk_stale ..) (mk_tacStaged ..)
        (mk_rwsStaged ..) (mk_frames ..) (mk_lastCorr ..) (mk_scrubs ..) (mk_mramCorr ..) (mk_mramTac ..)
        (mk_mramTap ..) (mk_journal ..) (mk_eventQ ..) (mk_trig ..) ?_)
theorem State.boot_keeps {s₀ s : State} (hs₀ : s₀.Keeps s) (p : PowSt) : s₀.Keeps (State.boot s p) := by
  unfold State.boot
  refine .of hs₀ (mk_pending ..) (mk_regs ..) ?_ (mk_chans ..) ?_ (mk_tac ..) ?_ (mk_stale ..) ?_ (mk_tacStaged ..)
      ?_ (mk_rwsStaged ..) ?_ (mk_frames ..) ?_ (mk_lastCorr ..) ?_ (mk_scrubs ..) ?_ (mk_mramCorr ..) ?_
      (mk_mramTac ..) ?_ (mk_mramTap ..) ?_ (mk_journal ..) ?_ (mk_eventQ ..) ?_ (mk_trig ..) ?_
  all_goals intro k
  all_goals first
    | exact k
    | exact mapCanon_filter' k
    | rfl
    | exact (List.length_take_le ..).trans (by decide)
    | exact (List.length_map ..).trans_le ((List.length_take_le ..).trans (by decide))
    | exact List.nodup_nil
    | exact Nat.zero_le _
theorem State.restart_keeps {s₀ s : State} (hs₀ : s₀.Keeps s) (cause : Nat) : s₀.Keeps (State.restart s cause) := by
  unfold State.restart
  repeat (with_reducible first | exact hs₀ | apply State.boot_keeps)
theorem State.failTrial_keeps {s₀ s : State} (hs₀ : s₀.Keeps s) (isK : Bool) (cause : Nat) : s₀.Keeps
    (State.failTrial s isK cause) := by
  unfold State.failTrial
  repeat (with_reducible first
    | exact hs₀
    | apply State.restart_keeps
    | apply State.Keeps.ite
    | split
    | refine State.Keeps.same (mk_pending ..) (mk_regs ..) (mk_chans ..) (mk_tac ..) (mk_stale ..) (mk_tacStaged ..)
        (mk_rwsStaged ..) (mk_frames ..) (mk_lastCorr ..) (mk_scrubs ..) (mk_mramCorr ..) (mk_mramTac ..)
        (mk_mramTap ..) (mk_journal ..) (mk_eventQ ..) (mk_trig ..) ?_)
theorem State.restartCore_keeps {s₀ s : State} (hs₀ : s₀.Keeps s) : s₀.Keeps (State.restartCore s) := by
  unfold State.restartCore
  repeat (with_reducible first
    | exact hs₀
    | apply State.event_keeps
    | apply State.journalEvent_keeps
    | apply State.failTrial_keeps
    | dsimp only)
theorem State.classKUnread_keeps {s₀ s : State} (hs₀ : s₀.Keeps s) : s₀.Keeps (State.classKUnread s) := by
  unfold State.classKUnread
  repeat (with_reducible first
    | exact hs₀
    | apply State.failTrial_keeps
    | apply State.putB_keeps
    | apply State.event_keeps
    | apply State.Keeps.ite
    | split)

/-! Channel.lean -/

theorem State.putCh_keeps {s₀ s : State} (hs₀ : s₀.Keeps s) (chan : Nat) (f : FieldRef) (b : Bool) : s₀.Keeps
    (State.putCh s chan f b) := by
  unfold State.putCh
  repeat (with_reducible first | exact hs₀ | apply State.putB_keeps)
theorem State.chaffMasked_keeps {s₀ s : State} (hs₀ : s₀.Keeps s) (t : Fin 16) (frame : Nat) : s₀.Keeps
    (State.chaffMasked s t frame) := by
  unfold State.chaffMasked
  repeat (with_reducible first
    | exact hs₀
    | apply State.setTile_keeps
    | apply State.bump_keeps
    | refine State.Keeps.same (mk_pending ..) (mk_regs ..) (mk_chans ..) (mk_tac ..) (mk_stale ..) (mk_tacStaged ..)
        (mk_rwsStaged ..) (mk_frames ..) (mk_lastCorr ..) (mk_scrubs ..) (mk_mramCorr ..) (mk_mramTac ..)
        (mk_mramTap ..) (mk_journal ..) (mk_eventQ ..) (mk_trig ..) ?_)
theorem State.chaffStuck_keeps {s₀ s : State} (hs₀ : s₀.Keeps s) (t : Fin 16) (frame : Nat) : s₀.Keeps
    (State.chaffStuck s t frame) := by
  unfold State.chaffStuck
  repeat (with_reducible first
    | exact hs₀
    | apply State.setTile_keeps
    | apply State.bump_keeps
    | refine State.Keeps.same (mk_pending ..) (mk_regs ..) (mk_chans ..) (mk_tac ..) (mk_stale ..) (mk_tacStaged ..)
        (mk_rwsStaged ..) (mk_frames ..) (mk_lastCorr ..) (mk_scrubs ..) (mk_mramCorr ..) (mk_mramTac ..)
        (mk_mramTap ..) (mk_journal ..) (mk_eventQ ..) (mk_trig ..) ?_)
theorem State.chaffGateHigh_keeps {s₀ s : State} (hs₀ : s₀.Keeps s) (t : Fin 16) (frame : Nat) : s₀.Keeps
    (State.chaffGateHigh s t frame) := by
  unfold State.chaffGateHigh
  repeat (with_reducible first
    | exact hs₀
    | apply State.setTile_keeps
    | apply State.bump_keeps
    | refine State.Keeps.same (mk_pending ..) (mk_regs ..) (mk_chans ..) (mk_tac ..) (mk_stale ..) (mk_tacStaged ..)
        (mk_rwsStaged ..) (mk_frames ..) (mk_lastCorr ..) (mk_scrubs ..) (mk_mramCorr ..) (mk_mramTac ..)
        (mk_mramTap ..) (mk_journal ..) (mk_eventQ ..) (mk_trig ..) ?_)
theorem State.bumpPileup_keeps {s₀ s : State} (hs₀ : s₀.Keeps s) (chan : Nat) : s₀.Keeps (State.bumpPileup s
    chan) := by
  unfold State.bumpPileup
  repeat (with_reducible first | exact hs₀ | apply State.bump_keeps)
theorem State.bumpGateHigh_keeps {s₀ s : State} (hs₀ : s₀.Keeps s) (chan : Nat) : s₀.Keeps (State.bumpGateHigh s
    chan) := by
  unfold State.bumpGateHigh
  repeat (with_reducible first | exact hs₀ | apply State.bump_keeps)
theorem State.countRefused_keeps {s₀ s : State} (hs₀ : s₀.Keeps s) (t : Fin 16) (c : Conc) (r : BitVec 52) :
    s₀.Keeps (State.countRefused s t c r) := by
  unfold State.countRefused
  repeat (with_reducible first | exact hs₀ | apply State.bump_keeps | apply State.Keeps.ite | split)
theorem State.refuseRecord_keeps {s₀ s : State} (hs₀ : s₀.Keeps s) (t : Fin 16) (c : Conc) (r : BitVec 52) (frame
    tref : Nat) : s₀.Keeps (State.refuseRecord s t c r frame tref) := by
  unfold State.refuseRecord
  repeat (with_reducible first
    | exact hs₀
    | apply State.setPort_keeps
    | apply State.countRefused_keeps
    | apply State.event_keeps)
theorem State.offerRecord_keeps {s₀ s : State} (hs₀ : s₀.Keeps s) (t : Fin 16) (c : Conc) (r : BitVec 52) (frame
    tref : Nat) : s₀.Keeps (State.offerRecord s t c r frame tref) := by
  unfold State.offerRecord
  repeat (with_reducible first
    | exact hs₀
    | apply State.setPort_keeps
    | apply State.bump_keeps
    | apply State.put_keeps
    | apply State.peak_keeps
    | apply State.refuseRecord_keeps
    | apply State.Keeps.ite
    | split
    | refine State.Keeps.same (mk_pending ..) (mk_regs ..) (mk_chans ..) (mk_tac ..) (mk_stale ..) (mk_tacStaged ..)
        (mk_rwsStaged ..) (mk_frames ..) (mk_lastCorr ..) (mk_scrubs ..) (mk_mramCorr ..) (mk_mramTac ..)
        (mk_mramTap ..) (mk_journal ..) (mk_eventQ ..) (mk_trig ..) ?_
    | dsimp only)
theorem State.offerSide_keeps {s₀ s : State} (hs₀ : s₀.Keeps s) (t : Fin 16) (c : Conc) (i : BitVec 32) (frame :
    Nat) : s₀.Keeps (State.offerSide s t c i frame) := by
  unfold State.offerSide
  repeat (with_reducible first
    | exact hs₀
    | apply State.setPort_keeps
    | apply State.bump_keeps
    | apply State.Keeps.ite
    | split
    | refine State.Keeps.same (mk_pending ..) (mk_regs ..) (mk_chans ..) (mk_tac ..) (mk_stale ..) (mk_tacStaged ..)
        (mk_rwsStaged ..) (mk_frames ..) (mk_lastCorr ..) (mk_scrubs ..) (mk_mramCorr ..) (mk_mramTac ..)
        (mk_mramTap ..) (mk_journal ..) (mk_eventQ ..) (mk_trig ..) ?_
    | dsimp only)
theorem State.acceptRecord_keeps {s₀ s : State} (hs₀ : s₀.Keeps s) (t : Fin 16) (x : BitVec 52 × Nat) : s₀.Keeps
    (State.acceptRecord s t x) := by
  unfold State.acceptRecord
  repeat (with_reducible first | exact hs₀ | apply State.offerRecord_keeps)
theorem State.collectCell_keeps {s₀ s : State} (hs₀ : s₀.Keeps s) (t : Fin 16) (cell n : Nat) : s₀.Keeps
    (State.collectCell s t cell n) := by
  unfold State.collectCell
  repeat (with_reducible first
    | exact hs₀
    | apply State.setTile_keeps
    | apply State.acceptRecord_keeps
    | refine State.Keeps.each ?_ ?_ <;> [(intro u x₁ hs₀; try dsimp only); skip]
    | dsimp only)
theorem State.collect_keeps {s₀ s : State} (hs₀ : s₀.Keeps s) (chan took : Nat) : s₀.Keeps (State.collect s chan
    took) := by
  unfold State.collect
  repeat (with_reducible first | exact hs₀ | apply State.collectCell_keeps)
theorem State.collectAll_keeps {s₀ s : State} (hs₀ : s₀.Keeps s) (t : Fin 16) : s₀.Keeps (State.collectAll s t) := by
  unfold State.collectAll
  repeat (with_reducible first
    | exact hs₀
    | apply State.collectCell_keeps
    | refine State.Keeps.each ?_ ?_ <;> [(intro u x₁ hs₀; try dsimp only); skip])
theorem State.sendRecord_keeps {s₀ s : State} (hs₀ : s₀.Keeps s) (t : Fin 16) (r : BitVec 52) (side : BitVec 32)
    (lead : Nat) : s₀.Keeps (State.sendRecord s t r side lead) := by
  unfold State.sendRecord
  repeat (with_reducible first
    | exact hs₀
    | apply State.setTile_keeps
    | apply State.bump_keeps
    | apply State.refuseRecord_keeps
    | apply State.offerSide_keeps
    | apply State.Keeps.ite
    | split
    | dsimp only)
theorem State.passHit_keeps {s₀ s : State} (hs₀ : s₀.Keeps s) (chan : Nat) (h : Hit) : s₀.Keeps (State.passHit s
    chan h) := by
  unfold State.passHit
  repeat (with_reducible first
    | exact hs₀
    | apply State.launchHit_keeps
    | apply State.bump_keeps
    | apply State.sendRecord_keeps
    | apply State.setTile_keeps
    | apply State.Keeps.ite
    | split
    | refine State.Keeps.same (mk_pending ..) (mk_regs ..) (mk_chans ..) (mk_tac ..) (mk_stale ..) (mk_tacStaged ..)
        (mk_rwsStaged ..) (mk_frames ..) (mk_lastCorr ..) (mk_scrubs ..) (mk_mramCorr ..) (mk_mramTac ..)
        (mk_mramTap ..) (mk_journal ..) (mk_eventQ ..) (mk_trig ..) ?_
    | dsimp only)
theorem State.passReady_keeps {s₀ s : State} (hs₀ : s₀.Keeps s) (chan took : Nat) : s₀.Keeps (State.passReady s chan
    took) := by
  unfold State.passReady
  repeat (with_reducible first
    | exact hs₀
    | apply State.collect_keeps
    | apply State.setChan_keeps
    | apply State.passHit_keeps
    | refine State.Keeps.each ?_ ?_ <;> [(intro u x₁ hs₀; try dsimp only); skip]
    | refine State.Keeps.same (mk_pending ..) (mk_regs ..) (mk_chans ..) (mk_tac ..) (mk_stale ..) (mk_tacStaged ..)
        (mk_rwsStaged ..) (mk_frames ..) (mk_lastCorr ..) (mk_scrubs ..) (mk_mramCorr ..) (mk_mramTac ..)
        (mk_mramTap ..) (mk_journal ..) (mk_eventQ ..) (mk_trig ..) ?_
    | dsimp only)
theorem State.decideCand_keeps {s₀ s : State} (hs₀ : s₀.Keeps s) (t : Fin 16) (p : Passed) : s₀.Keeps
    (State.decideCand s t p) := by
  unfold State.decideCand
  repeat (with_reducible first
    | exact hs₀
    | apply State.bump_keeps
    | apply State.sendRecord_keeps
    | apply State.Keeps.ite
    | split)
theorem State.recordEdge_keeps {s₀ s : State} (hs₀ : s₀.Keeps s) (chan t : Nat) (cal : Option Nat) : s₀.Keeps
    (State.recordEdge s chan t cal) := by
  unfold State.recordEdge
  repeat (with_reducible first
    | exact hs₀
    | apply State.setChan_keeps
    | apply State.Keeps.ite
    | split
    | refine State.Keeps.same (mk_pending ..) (mk_regs ..) (mk_chans ..) (mk_tac ..) (mk_stale ..) (mk_tacStaged ..)
        (mk_rwsStaged ..) (mk_frames ..) (mk_lastCorr ..) (mk_scrubs ..) (mk_mramCorr ..) (mk_mramTac ..)
        (mk_mramTap ..) (mk_journal ..) (mk_eventQ ..) (mk_trig ..) ?_
    | dsimp only)
theorem State.refuseEdge_keeps {s₀ s : State} (hs₀ : s₀.Keeps s) (chan : Nat) (busy : Bool) : s₀.Keeps
    (State.refuseEdge s chan busy) := by
  unfold State.refuseEdge
  repeat (with_reducible first
    | exact hs₀
    | apply State.setChan_keeps
    | apply State.bumpPileup_keeps
    | apply State.bump_keeps
    | apply State.Keeps.ite
    | split
    | dsimp only)
theorem State.wakePath_keeps {s₀ s : State} (hs₀ : s₀.Keeps s) (chan : Nat) : s₀.Keeps (State.wakePath s chan) := by
  unfold State.wakePath
  repeat (with_reducible first | exact hs₀ | apply State.wake_keeps | dsimp only)
theorem State.riseOutput_keeps {s₀ s : State} (hs₀ : s₀.Keeps s) (chan t : Nat) : s₀.Keeps (State.riseOutput s chan
    t) := by
  unfold State.riseOutput
  repeat (with_reducible first
    | exact hs₀
    | apply State.putCh_keeps
    | apply State.wakePath_keeps
    | apply State.setChan_keeps
    | apply State.Keeps.ite
    | split
    | refine State.Keeps.same (mk_pending ..) (mk_regs ..) (mk_chans ..) (mk_tac ..) (mk_stale ..) (mk_tacStaged ..)
        (mk_rwsStaged ..) (mk_frames ..) (mk_lastCorr ..) (mk_scrubs ..) (mk_mramCorr ..) (mk_mramTac ..)
        (mk_mramTap ..) (mk_journal ..) (mk_eventQ ..) (mk_trig ..) ?_
    | dsimp only)
theorem State.actEdge_keeps {s₀ s : State} (hs₀ : s₀.Keeps s) (chan t : Nat) (x0 : EdgeFate) : s₀.Keeps
    (State.actEdge s chan t x0) := by
  unfold State.actEdge
  repeat (with_reducible first
    | exact hs₀
    | apply State.chaffStuck_keeps
    | apply State.chaffMasked_keeps
    | apply State.refuseEdge_keeps
    | apply State.recordEdge_keeps
    | split)
theorem State.leadingEdge_keeps {s₀ s : State} (hs₀ : s₀.Keeps s) (chan t : Nat) (v : Int) : s₀.Keeps
    (State.leadingEdge s chan t v) := by
  unfold State.leadingEdge
  repeat (with_reducible first
    | exact hs₀
    | apply State.advance_keeps
    | apply State.riseOutput_keeps
    | apply State.actEdge_keeps
    | apply State.Keeps.ite
    | split)
theorem State.trailingEdge_keeps {s₀ s : State} (hs₀ : s₀.Keeps s) (chan t : Nat) (v : Int) (took : Nat) : s₀.Keeps
    (State.trailingEdge s chan t v took) := by
  unfold State.trailingEdge
  repeat (with_reducible first
    | exact hs₀
    | apply State.advance_keeps
    | apply State.putCh_keeps
    | apply State.setChan_keeps
    | apply State.passReady_keeps
    | apply State.Keeps.ite
    | split
    | refine State.Keeps.same (mk_pending ..) (mk_regs ..) (mk_chans ..) (mk_tac ..) (mk_stale ..) (mk_tacStaged ..)
        (mk_rwsStaged ..) (mk_frames ..) (mk_lastCorr ..) (mk_scrubs ..) (mk_mramCorr ..) (mk_mramTac ..)
        (mk_mramTap ..) (mk_journal ..) (mk_eventQ ..) (mk_trig ..) ?_
    | dsimp only)
theorem State.holdoffExpiry_keeps {s₀ s : State} (hs₀ : s₀.Keeps s) (chan t took : Nat) : s₀.Keeps
    (State.holdoffExpiry s chan t took) := by
  unfold State.holdoffExpiry
  repeat (with_reducible first
    | exact hs₀
    | apply State.advance_keeps
    | apply State.setChan_keeps
    | apply State.passReady_keeps
    | apply State.Keeps.ite
    | split
    | refine State.Keeps.same (mk_pending ..) (mk_regs ..) (mk_chans ..) (mk_tac ..) (mk_stale ..) (mk_tacStaged ..)
        (mk_rwsStaged ..) (mk_frames ..) (mk_lastCorr ..) (mk_scrubs ..) (mk_mramCorr ..) (mk_mramTac ..)
        (mk_mramTap ..) (mk_journal ..) (mk_eventQ ..) (mk_trig ..) ?_
    | dsimp only)
theorem State.totSaturation_keeps {s₀ s : State} (hs₀ : s₀.Keeps s) (chan t took : Nat) : s₀.Keeps
    (State.totSaturation s chan t took) := by
  unfold State.totSaturation
  repeat (with_reducible first
    | exact hs₀
    | apply State.advance_keeps
    | apply State.setChan_keeps
    | apply State.passReady_keeps
    | apply State.Keeps.ite
    | split
    | refine State.Keeps.same (mk_pending ..) (mk_regs ..) (mk_chans ..) (mk_tac ..) (mk_stale ..) (mk_tacStaged ..)
        (mk_rwsStaged ..) (mk_frames ..) (mk_lastCorr ..) (mk_scrubs ..) (mk_mramCorr ..) (mk_mramTac ..)
        (mk_mramTap ..) (mk_journal ..) (mk_eventQ ..) (mk_trig ..) ?_
    | dsimp only)
theorem State.adcDone_keeps {s₀ s : State} (hs₀ : s₀.Keeps s) (chan : Nat) (code : Byte) (took : Nat) (read :
    EccRead) : s₀.Keeps (State.adcDone s chan code took read) := by
  unfold State.adcDone
  repeat (with_reducible first
    | exact hs₀
    | apply State.countRead_keeps
    | apply State.poisonTac_keeps
    | apply State.bump_keeps
    | apply State.setChan_keeps
    | apply State.passReady_keeps
    | apply State.Keeps.ite
    | split
    | refine State.Keeps.same (mk_pending ..) (mk_regs ..) (mk_chans ..) (mk_tac ..) (mk_stale ..) (mk_tacStaged ..)
        (mk_rwsStaged ..) (mk_frames ..) (mk_lastCorr ..) (mk_scrubs ..) (mk_mramCorr ..) (mk_mramTac ..)
        (mk_mramTap ..) (mk_journal ..) (mk_eventQ ..) (mk_trig ..) ?_
    | dsimp only)
theorem State.promotionDecision_keeps {s₀ s : State} (hs₀ : s₀.Keeps s) (chan t took : Nat) : s₀.Keeps
    (State.promotionDecision s chan t took) := by
  unfold State.promotionDecision
  repeat (with_reducible first
    | exact hs₀
    | apply State.advance_keeps
    | apply State.collect_keeps
    | apply State.setTile_keeps
    | apply State.decideCand_keeps
    | refine State.Keeps.each ?_ ?_ <;> [(intro u x₁ hs₀; try dsimp only); skip]
    | refine State.Keeps.same (mk_pending ..) (mk_regs ..) (mk_chans ..) (mk_tac ..) (mk_stale ..) (mk_tacStaged ..)
        (mk_rwsStaged ..) (mk_frames ..) (mk_lastCorr ..) (mk_scrubs ..) (mk_mramCorr ..) (mk_mramTac ..)
        (mk_mramTap ..) (mk_journal ..) (mk_eventQ ..) (mk_trig ..) ?_
    | dsimp only)
theorem State.gateHighChan_keeps {s₀ s : State} (hs₀ : s₀.Keeps s) (frame : Nat) (chan : Nat) : s₀.Keeps
    (State.gateHighChan s frame chan) := by
  unfold State.gateHighChan
  repeat (with_reducible first
    | exact hs₀
    | apply State.setChan_keeps
    | apply State.bumpGateHigh_keeps
    | apply State.chaffGateHigh_keeps
    | apply State.Keeps.ite
    | split
    | refine State.Keeps.same (mk_pending ..) (mk_regs ..) (mk_chans ..) (mk_tac ..) (mk_stale ..) (mk_tacStaged ..)
        (mk_rwsStaged ..) (mk_frames ..) (mk_lastCorr ..) (mk_scrubs ..) (mk_mramCorr ..) (mk_mramTac ..)
        (mk_mramTap ..) (mk_journal ..) (mk_eventQ ..) (mk_trig ..) ?_)
theorem State.disarm_keeps {s₀ s : State} (hs₀ : s₀.Keeps s) (chan : Nat) : s₀.Keeps (State.disarm s chan) := by
  unfold State.disarm
  repeat (with_reducible first
    | exact hs₀
    | apply State.setChan_keeps
    | apply State.putCh_keeps
    | refine State.Keeps.same (mk_pending ..) (mk_regs ..) (mk_chans ..) (mk_tac ..) (mk_stale ..) (mk_tacStaged ..)
        (mk_rwsStaged ..) (mk_frames ..) (mk_lastCorr ..) (mk_scrubs ..) (mk_mramCorr ..) (mk_mramTac ..)
        (mk_mramTap ..) (mk_journal ..) (mk_eventQ ..) (mk_trig ..) ?_
    | dsimp only)
theorem State.disarmAll_keeps {s₀ s : State} (hs₀ : s₀.Keeps s) (p : Nat → Bool) : s₀.Keeps (State.disarmAll s
    p) := by
  unfold State.disarmAll
  repeat (with_reducible first
    | exact hs₀
    | apply State.disarm_keeps
    | refine State.Keeps.each ?_ ?_ <;> [(intro u x₁ hs₀; try dsimp only); skip])
theorem State.gateHigh_keeps {s₀ s : State} (hs₀ : s₀.Keeps s) (t : Fin 16) (tap : Nat) : s₀.Keeps (State.gateHigh s
    t tap) := by
  unfold State.gateHigh
  repeat (with_reducible first
    | exact hs₀
    | apply State.gateHighChan_keeps
    | refine State.Keeps.each ?_ ?_ <;> [(intro u x₁ hs₀; try dsimp only); skip])
theorem State.gateApply_keeps {s₀ s : State} (hs₀ : s₀.Keeps s) (t : Fin 16) : s₀.Keeps (State.gateApply s t) := by
  unfold State.gateApply
  repeat (with_reducible first
    | exact hs₀
    | apply State.advance_keeps
    | apply State.setTile_keeps
    | apply State.putB_keeps
    | apply State.gateHigh_keeps
    | apply State.Keeps.ite
    | split
    | refine State.Keeps.same (mk_pending ..) (mk_regs ..) (mk_chans ..) (mk_tac ..) (mk_stale ..) (mk_tacStaged ..)
        (mk_rwsStaged ..) (mk_frames ..) (mk_lastCorr ..) (mk_scrubs ..) (mk_mramCorr ..) (mk_mramTac ..)
        (mk_mramTap ..) (mk_journal ..) (mk_eventQ ..) (mk_trig ..) ?_
    | dsimp only)
theorem State.gateSourceChanged_keeps {s₀ s : State} (hs₀ : s₀.Keeps s) (t : Fin 16) (tap : Nat) : s₀.Keeps
    (State.gateSourceChanged s t tap) := by
  unfold State.gateSourceChanged
  repeat (with_reducible first
    | exact hs₀
    | apply State.putB_keeps
    | apply State.setTile_keeps
    | apply State.gateHigh_keeps
    | apply State.Keeps.ite
    | split
    | refine State.Keeps.same (mk_pending ..) (mk_regs ..) (mk_chans ..) (mk_tac ..) (mk_stale ..) (mk_tacStaged ..)
        (mk_rwsStaged ..) (mk_frames ..) (mk_lastCorr ..) (mk_scrubs ..) (mk_mramCorr ..) (mk_mramTac ..)
        (mk_mramTap ..) (mk_journal ..) (mk_eventQ ..) (mk_trig ..) ?_
    | dsimp only)
theorem State.selfMask_keeps {s₀ s : State} (hs₀ : s₀.Keeps s) (chan : Nat) : s₀.Keeps (State.selfMask s chan) := by
  unfold State.selfMask
  repeat (with_reducible first
    | exact hs₀
    | apply State.setChan_keeps
    | apply State.putCh_keeps
    | apply State.event_keeps
    | refine State.Keeps.same (mk_pending ..) (mk_regs ..) (mk_chans ..) (mk_tac ..) (mk_stale ..) (mk_tacStaged ..)
        (mk_rwsStaged ..) (mk_frames ..) (mk_lastCorr ..) (mk_scrubs ..) (mk_mramCorr ..) (mk_mramTac ..)
        (mk_mramTap ..) (mk_journal ..) (mk_eventQ ..) (mk_trig ..) ?_)
theorem State.stuckExpiry_keeps {s₀ s : State} (hs₀ : s₀.Keeps s) (chan t : Nat) : s₀.Keeps (State.stuckExpiry s
    chan t) := by
  unfold State.stuckExpiry
  repeat (with_reducible first
    | exact hs₀
    | apply State.advance_keeps
    | apply State.selfMask_keeps
    | apply State.Keeps.ite
    | split)
theorem State.clearSelfMask_keeps {s₀ s : State} (hs₀ : s₀.Keeps s) (chan tap : Nat) : s₀.Keeps (State.clearSelfMask
    s chan tap) := by
  unfold State.clearSelfMask
  repeat (with_reducible first
    | exact hs₀
    | apply State.putCh_keeps
    | apply State.setChan_keeps
    | apply State.Keeps.ite
    | split
    | refine State.Keeps.same (mk_pending ..) (mk_regs ..) (mk_chans ..) (mk_tac ..) (mk_stale ..) (mk_tacStaged ..)
        (mk_rwsStaged ..) (mk_frames ..) (mk_lastCorr ..) (mk_scrubs ..) (mk_mramCorr ..) (mk_mramTac ..)
        (mk_mramTap ..) (mk_journal ..) (mk_eventQ ..) (mk_trig ..) ?_
    | dsimp only)
theorem State.blank_keeps {s₀ s : State} (hs₀ : s₀.Keeps s) (chan tap : Nat) : s₀.Keeps (State.blank s chan tap) := by
  unfold State.blank
  repeat (with_reducible first
    | exact hs₀
    | apply State.setChan_keeps
    | apply State.putCh_keeps
    | refine State.Keeps.same (mk_pending ..) (mk_regs ..) (mk_chans ..) (mk_tac ..) (mk_stale ..) (mk_tacStaged ..)
        (mk_rwsStaged ..) (mk_frames ..) (mk_lastCorr ..) (mk_scrubs ..) (mk_mramCorr ..) (mk_mramTac ..)
        (mk_mramTap ..) (mk_journal ..) (mk_eventQ ..) (mk_trig ..) ?_)
theorem State.blankingEnd_keeps {s₀ s : State} (hs₀ : s₀.Keeps s) (chan t : Nat) : s₀.Keeps (State.blankingEnd s
    chan t) := by
  unfold State.blankingEnd
  repeat (with_reducible first
    | exact hs₀
    | apply State.advance_keeps
    | apply State.putCh_keeps
    | apply State.setChan_keeps
    | apply State.Keeps.ite
    | split
    | refine State.Keeps.same (mk_pending ..) (mk_regs ..) (mk_chans ..) (mk_tac ..) (mk_stale ..) (mk_tacStaged ..)
        (mk_rwsStaged ..) (mk_frames ..) (mk_lastCorr ..) (mk_scrubs ..) (mk_mramCorr ..) (mk_mramTac ..)
        (mk_mramTap ..) (mk_journal ..) (mk_eventQ ..) (mk_trig ..) ?_)
theorem State.launch_keeps {s₀ s : State} (hs₀ : s₀.Keeps s) (chan tap : Nat) : s₀.Keeps (State.launch s chan
    tap) := by
  unfold State.launch
  repeat (with_reducible first
    | exact hs₀
    | apply State.setChan_keeps
    | refine State.Keeps.same (mk_pending ..) (mk_regs ..) (mk_chans ..) (mk_tac ..) (mk_stale ..) (mk_tacStaged ..)
        (mk_rwsStaged ..) (mk_frames ..) (mk_lastCorr ..) (mk_scrubs ..) (mk_mramCorr ..) (mk_mramTac ..)
        (mk_mramTap ..) (mk_journal ..) (mk_eventQ ..) (mk_trig ..) ?_)
theorem State.endInject_keeps {s₀ s : State} (hs₀ : s₀.Keeps s) (chan : Nat) : s₀.Keeps (State.endInject s chan) := by
  unfold State.endInject
  repeat (with_reducible first
    | exact hs₀
    | apply State.setChan_keeps
    | refine State.Keeps.same (mk_pending ..) (mk_regs ..) (mk_chans ..) (mk_tac ..) (mk_stale ..) (mk_tacStaged ..)
        (mk_rwsStaged ..) (mk_frames ..) (mk_lastCorr ..) (mk_scrubs ..) (mk_mramCorr ..) (mk_mramTac ..)
        (mk_mramTap ..) (mk_journal ..) (mk_eventQ ..) (mk_trig ..) ?_)

/-! Tile.lean -/

theorem State.showPort_keeps {s₀ s : State} (hs₀ : s₀.Keeps s) (t : Fin 16) (c : Conc) : s₀.Keeps (State.showPort s
    t c) := by
  unfold State.showPort
  repeat (with_reducible first | exact hs₀ | apply State.put_keeps | apply State.Keeps.ite | split)
theorem State.offerToken_keeps {s₀ s : State} (hs₀ : s₀.Keeps s) (t : Fin 16) (c : Conc) (n : Nat) (leave : Bool) :
    s₀.Keeps (State.offerToken s t c n leave) := by
  unfold State.offerToken
  repeat (with_reducible first
    | exact hs₀
    | apply State.setPort_keeps
    | apply State.Keeps.ite
    | split
    | refine State.Keeps.of ?_ (mk_pending ..) (mk_regs ..) ?_ (mk_chans ..) ?_ (mk_tac ..) ?_ (mk_stale ..) ?_
        (mk_tacStaged ..) ?_ (mk_rwsStaged ..) ?_ (mk_frames ..) ?_ (mk_lastCorr ..) ?_ (mk_scrubs ..) ?_
        (mk_mramCorr ..) ?_ (mk_mramTac ..) ?_ (mk_mramTap ..) ?_ (mk_journal ..) ?_ (mk_eventQ ..) ?_ (mk_trig ..)
        ?_
    | exact id
    | exact mapWf_del'
    | exact mapWf_one
    | dsimp only)
theorem State.emitClosed_keeps {s₀ s : State} (hs₀ : s₀.Keeps s) (t : Fin 16) : s₀.Keeps (State.emitClosed s t) := by
  unfold State.emitClosed
  repeat (with_reducible first
    | exact hs₀
    | apply State.collectAll_keeps
    | apply State.offerToken_keeps
    | apply State.setTile_keeps
    | apply State.put_keeps
    | apply State.Keeps.ite
    | split
    | refine State.Keeps.same (mk_pending ..) (mk_regs ..) (mk_chans ..) (mk_tac ..) (mk_stale ..) (mk_tacStaged ..)
        (mk_rwsStaged ..) (mk_frames ..) (mk_lastCorr ..) (mk_scrubs ..) (mk_mramCorr ..) (mk_mramTac ..)
        (mk_mramTap ..) (mk_journal ..) (mk_eventQ ..) (mk_trig ..) ?_
    | dsimp only)
theorem State.portCut_keeps {s₀ s : State} (hs₀ : s₀.Keeps s) (t : Fin 16) (c : Conc) : s₀.Keeps (State.portCut s t
    c) := by
  unfold State.portCut
  repeat (with_reducible first
    | exact hs₀
    | apply State.setPort_keeps
    | apply State.put_keeps
    | apply State.bump_keeps
    | apply State.showPort_keeps
    | apply State.event_keeps
    | apply State.Keeps.ite
    | split
    | refine State.Keeps.same (mk_pending ..) (mk_regs ..) (mk_chans ..) (mk_tac ..) (mk_stale ..) (mk_tacStaged ..)
        (mk_rwsStaged ..) (mk_frames ..) (mk_lastCorr ..) (mk_scrubs ..) (mk_mramCorr ..) (mk_mramTac ..)
        (mk_mramTap ..) (mk_journal ..) (mk_eventQ ..) (mk_trig ..) ?_
    | dsimp only)
theorem State.portBoundary_keeps {s₀ s : State} (hs₀ : s₀.Keeps s) (t : Fin 16) (f : Nat) (c : Conc) : s₀.Keeps
    (State.portBoundary s t f c) := by
  unfold State.portBoundary
  repeat (with_reducible first
    | exact hs₀
    | apply State.setPort_keeps
    | apply State.showPort_keeps
    | apply State.eventIf_keeps
    | apply State.Keeps.ite
    | split
    | refine State.Keeps.same (mk_pending ..) (mk_regs ..) (mk_chans ..) (mk_tac ..) (mk_stale ..) (mk_tacStaged ..)
        (mk_rwsStaged ..) (mk_frames ..) (mk_lastCorr ..) (mk_scrubs ..) (mk_mramCorr ..) (mk_mramTac ..)
        (mk_mramTap ..) (mk_journal ..) (mk_eventQ ..) (mk_trig ..) ?_
    | dsimp only)
theorem State.ackWords_keeps {s₀ s : State} (hs₀ : s₀.Keeps s) (t : Fin 16) (c : Conc) (n : Nat) : s₀.Keeps
    (State.ackWords s t c n) := by
  unfold State.ackWords
  repeat (with_reducible first
    | exact hs₀
    | apply State.setPort_keeps
    | apply State.Keeps.ite
    | split
    | refine State.Keeps.same (mk_pending ..) (mk_regs ..) (mk_chans ..) (mk_tac ..) (mk_stale ..) (mk_tacStaged ..)
        (mk_rwsStaged ..) (mk_frames ..) (mk_lastCorr ..) (mk_scrubs ..) (mk_mramCorr ..) (mk_mramTac ..)
        (mk_mramTap ..) (mk_journal ..) (mk_eventQ ..) (mk_trig ..) ?_
    | dsimp only)
theorem State.ackItem_keeps {s₀ s : State} (hs₀ : s₀.Keeps s) (t : Fin 16) (c : Conc) : s₀.Keeps (State.ackItem s t
    c) := by
  unfold State.ackItem
  repeat (with_reducible first
    | exact hs₀
    | apply State.setPort_keeps
    | apply State.put_keeps
    | split
    | refine State.Keeps.same (mk_pending ..) (mk_regs ..) (mk_chans ..) (mk_tac ..) (mk_stale ..) (mk_tacStaged ..)
        (mk_rwsStaged ..) (mk_frames ..) (mk_lastCorr ..) (mk_scrubs ..) (mk_mramCorr ..) (mk_mramTac ..)
        (mk_mramTap ..) (mk_journal ..) (mk_eventQ ..) (mk_trig ..) ?_
    | dsimp only)
theorem State.dropHits_keeps {s₀ s : State} (hs₀ : s₀.Keeps s) (t : Fin 16) : s₀.Keeps (State.dropHits s t) := by
  unfold State.dropHits
  repeat (with_reducible first
    | exact hs₀
    | apply State.setChan_keeps
    | refine State.Keeps.each ?_ ?_ <;> [(intro u x₁ hs₀; try dsimp only); skip]
    | refine State.Keeps.same (mk_pending ..) (mk_regs ..) (mk_chans ..) (mk_tac ..) (mk_stale ..) (mk_tacStaged ..)
        (mk_rwsStaged ..) (mk_frames ..) (mk_lastCorr ..) (mk_scrubs ..) (mk_mramCorr ..) (mk_mramTac ..)
        (mk_mramTap ..) (mk_journal ..) (mk_eventQ ..) (mk_trig ..) ?_)
theorem State.decideAll_keeps {s₀ s : State} (hs₀ : s₀.Keeps s) (t : Fin 16) : s₀.Keeps (State.decideAll s t) := by
  unfold State.decideAll
  repeat (with_reducible first
    | exact hs₀
    | apply State.setTile_keeps
    | apply State.decideCand_keeps
    | refine State.Keeps.each ?_ ?_ <;> [(intro u x₁ hs₀; try dsimp only); skip]
    | refine State.Keeps.same (mk_pending ..) (mk_regs ..) (mk_chans ..) (mk_tac ..) (mk_stale ..) (mk_tacStaged ..)
        (mk_rwsStaged ..) (mk_frames ..) (mk_lastCorr ..) (mk_scrubs ..) (mk_mramCorr ..) (mk_mramTac ..)
        (mk_mramTap ..) (mk_journal ..) (mk_eventQ ..) (mk_trig ..) ?_)
theorem State.stopRecording_keeps {s₀ s : State} (hs₀ : s₀.Keeps s) (t : Fin 16) (f reasons : Nat) : s₀.Keeps
    (State.stopRecording s t f reasons) := by
  unfold State.stopRecording
  repeat (with_reducible first
    | exact hs₀
    | apply State.dropHits_keeps
    | apply State.decideAll_keeps
    | apply State.setTile_keeps
    | apply State.Keeps.ite
    | split
    | refine State.Keeps.same (mk_pending ..) (mk_regs ..) (mk_chans ..) (mk_tac ..) (mk_stale ..) (mk_tacStaged ..)
        (mk_rwsStaged ..) (mk_frames ..) (mk_lastCorr ..) (mk_scrubs ..) (mk_mramCorr ..) (mk_mramTac ..)
        (mk_mramTap ..) (mk_journal ..) (mk_eventQ ..) (mk_trig ..) ?_
    | dsimp only)
theorem State.timingFault_keeps {s₀ s : State} (hs₀ : s₀.Keeps s) (t : Fin 16) (f : Nat) : s₀.Keeps
    (State.timingFault s t f) := by
  unfold State.timingFault
  repeat (with_reducible first
    | exact hs₀
    | apply State.stopRecording_keeps
    | apply State.putB_keeps
    | apply State.Keeps.ite
    | split
    | dsimp only)
theorem State.showLine_keeps {s₀ s : State} (hs₀ : s₀.Keeps s) (t : Fin 16) (r : LineReport) : s₀.Keeps
    (State.showLine s t r) := by
  unfold State.showLine
  repeat (with_reducible first | exact hs₀ | apply State.put_keeps | apply State.putB_keeps)
theorem State.dllLock_keeps {s₀ s : State} (hs₀ : s₀.Keeps s) (t : Fin 16) (r : LineReport) : s₀.Keeps
    (State.dllLock s t r) := by
  unfold State.dllLock
  repeat (with_reducible first
    | exact hs₀
    | apply State.showLine_keeps
    | apply State.setTile_keeps
    | apply State.putB_keeps
    | apply State.Keeps.ite
    | split
    | refine State.Keeps.same (mk_pending ..) (mk_regs ..) (mk_chans ..) (mk_tac ..) (mk_stale ..) (mk_tacStaged ..)
        (mk_rwsStaged ..) (mk_frames ..) (mk_lastCorr ..) (mk_scrubs ..) (mk_mramCorr ..) (mk_mramTac ..)
        (mk_mramTap ..) (mk_journal ..) (mk_eventQ ..) (mk_trig ..) ?_
    | dsimp only)
theorem State.lockLost_keeps {s₀ s : State} (hs₀ : s₀.Keeps s) (t : Fin 16) : s₀.Keeps (State.lockLost s t) := by
  unfold State.lockLost
  repeat (with_reducible first
    | exact hs₀
    | apply State.putB_keeps
    | apply State.timingFault_keeps
    | apply State.bump_keeps
    | apply State.event_keeps)
theorem State.dllUnlock_keeps {s₀ s : State} (hs₀ : s₀.Keeps s) (t : Fin 16) (r : LineReport) : s₀.Keeps
    (State.dllUnlock s t r) := by
  unfold State.dllUnlock
  repeat (with_reducible first
    | exact hs₀
    | apply State.showLine_keeps
    | apply State.lockLost_keeps
    | apply State.Keeps.ite
    | split
    | dsimp only)
theorem State.coarseSlip_keeps {s₀ s : State} (hs₀ : s₀.Keeps s) (t : Fin 16) (f : Nat) : s₀.Keeps (State.coarseSlip
    s t f) := by
  unfold State.coarseSlip
  repeat (with_reducible first
    | exact hs₀
    | apply State.timingFault_keeps
    | apply State.setTile_keeps
    | apply State.bump_keeps
    | apply State.event_keeps
    | refine State.Keeps.same (mk_pending ..) (mk_regs ..) (mk_chans ..) (mk_tac ..) (mk_stale ..) (mk_tacStaged ..)
        (mk_rwsStaged ..) (mk_frames ..) (mk_lastCorr ..) (mk_scrubs ..) (mk_mramCorr ..) (mk_mramTac ..)
        (mk_mramTap ..) (mk_journal ..) (mk_eventQ ..) (mk_trig ..) ?_
    | dsimp only)
theorem State.resumeTile_keeps {s₀ s : State} (hs₀ : s₀.Keeps s) (t : Fin 16) (f : Nat) : s₀.Keeps (State.resumeTile
    s t f) := by
  unfold State.resumeTile
  repeat (with_reducible first
    | exact hs₀
    | apply State.setTile_keeps
    | apply State.setRx_keeps
    | apply State.putB_keeps
    | apply State.eventIf_keeps
    | apply State.Keeps.ite
    | refine State.Keeps.each ?_ ?_ <;> [(intro u x₁ hs₀; try dsimp only); skip]
    | split
    | refine State.Keeps.of ?_ (mk_pending ..) (mk_regs ..) ?_ (mk_chans ..) ?_ (mk_tac ..) ?_ (mk_stale ..) ?_
        (mk_tacStaged ..) ?_ (mk_rwsStaged ..) ?_ (mk_frames ..) ?_ (mk_lastCorr ..) ?_ (mk_scrubs ..) ?_
        (mk_mramCorr ..) ?_ (mk_mramTac ..) ?_ (mk_mramTap ..) ?_ (mk_journal ..) ?_ (mk_eventQ ..) ?_ (mk_trig ..)
        ?_
    | exact id
    | exact mapWf_nil'
    | exact mapWf_one
    | exact mapCanon_nil'
    | dsimp only)
theorem State.resetPages_keeps {s₀ s : State} (hs₀ : s₀.Keeps s) (lo hi : Nat) : s₀.Keeps (State.resetPages s lo
    hi) := by
  unfold State.resetPages
  repeat (with_reducible first
    | exact hs₀
    | refine State.Keeps.of ?_ (mk_pending ..) (mk_regs ..) ?_ (mk_chans ..) ?_ (mk_tac ..) ?_ (mk_stale ..) ?_
        (mk_tacStaged ..) ?_ (mk_rwsStaged ..) ?_ (mk_frames ..) ?_ (mk_lastCorr ..) ?_ (mk_scrubs ..) ?_
        (mk_mramCorr ..) ?_ (mk_mramTac ..) ?_ (mk_mramTap ..) ?_ (mk_journal ..) ?_ (mk_eventQ ..) ?_ (mk_trig ..)
        ?_
    | exact id
    | exact mapWf_filter'
    | exact mapWf_putFilter
    | exact mapCanon_filter'
    | exact length_filter_le'
    | exact nodup_filter'
    | dsimp only)
theorem State.blockOff_keeps {s₀ s : State} (hs₀ : s₀.Keeps s) (t : Fin 16) (b : Nat) : s₀.Keeps (State.blockOff s t
    b) := by
  unfold State.blockOff
  repeat (with_reducible first
    | exact hs₀
    | apply State.resetPages_keeps
    | apply State.put_keeps
    | refine State.Keeps.of ?_ (mk_pending ..) (mk_regs ..) ?_ (mk_chans ..) ?_ (mk_tac ..) ?_ (mk_stale ..) ?_
        (mk_tacStaged ..) ?_ (mk_rwsStaged ..) ?_ (mk_frames ..) ?_ (mk_lastCorr ..) ?_ (mk_scrubs ..) ?_
        (mk_mramCorr ..) ?_ (mk_mramTac ..) ?_ (mk_mramTap ..) ?_ (mk_journal ..) ?_ (mk_eventQ ..) ?_ (mk_trig ..)
        ?_
    | exact id
    | exact mapWf_filter'
    | exact mapWf_putFilter
    | exact mapCanon_filter'
    | exact length_filter_le'
    | exact nodup_filter'
    | dsimp only)
theorem State.blockTo_keeps {s₀ s : State} (hs₀ : s₀.Keeps s) (t : Fin 16) (b st : Nat) : s₀.Keeps (State.blockTo s
    t b st) := by
  unfold State.blockTo
  repeat (with_reducible first
    | exact hs₀
    | apply State.disarmAll_keeps
    | apply State.blockOff_keeps
    | apply State.put_keeps
    | apply State.Keeps.ite
    | split
    | dsimp only)
theorem State.followBlocks_keeps {s₀ s : State} (hs₀ : s₀.Keeps s) (t : Fin 16) : s₀.Keeps (State.followBlocks s
    t) := by
  unfold State.followBlocks
  repeat (with_reducible first
    | exact hs₀
    | apply State.blockTo_keeps
    | refine State.Keeps.each ?_ ?_ <;> [(intro u x₁ hs₀; try dsimp only); skip])
theorem State.tileFalls_keeps {s₀ s : State} (hs₀ : s₀.Keeps s) (t : Fin 16) (f st : Nat) : s₀.Keeps
    (State.tileFalls s t f st) := by
  unfold State.tileFalls
  repeat (with_reducible first
    | exact hs₀
    | apply State.disarmAll_keeps
    | apply State.setTile_keeps
    | apply State.putB_keeps
    | apply State.put_keeps
    | apply State.Keeps.ite
    | split
    | refine State.Keeps.same (mk_pending ..) (mk_regs ..) (mk_chans ..) (mk_tac ..) (mk_stale ..) (mk_tacStaged ..)
        (mk_rwsStaged ..) (mk_frames ..) (mk_lastCorr ..) (mk_scrubs ..) (mk_mramCorr ..) (mk_mramTac ..)
        (mk_mramTap ..) (mk_journal ..) (mk_eventQ ..) (mk_trig ..) ?_
    | dsimp only)
theorem State.followTile_keeps {s₀ s : State} (hs₀ : s₀.Keeps s) (t : Fin 16) (f : Nat) : s₀.Keeps (State.followTile
    s t f) := by
  unfold State.followTile
  repeat (with_reducible first
    | exact hs₀
    | apply State.tileFalls_keeps
    | apply State.put_keeps
    | apply State.followBlocks_keeps
    | apply State.Keeps.ite
    | split
    | dsimp only)
theorem State.tileLeaves_keeps {s₀ s : State} (hs₀ : s₀.Keeps s) (t : Fin 16) (f : Nat) : s₀.Keeps (State.tileLeaves
    s t f) := by
  unfold State.tileLeaves
  repeat (with_reducible first
    | exact hs₀
    | apply State.setTile_keeps
    | apply State.putB_keeps
    | apply State.Keeps.ite
    | split
    | refine State.Keeps.same (mk_pending ..) (mk_regs ..) (mk_chans ..) (mk_tac ..) (mk_stale ..) (mk_tacStaged ..)
        (mk_rwsStaged ..) (mk_frames ..) (mk_lastCorr ..) (mk_scrubs ..) (mk_mramCorr ..) (mk_mramTac ..)
        (mk_mramTap ..) (mk_journal ..) (mk_eventQ ..) (mk_trig ..) ?_
    | dsimp only)
theorem State.tileBoundary_keeps {s₀ s : State} (hs₀ : s₀.Keeps s) (t : Fin 16) (f : Nat) (gained : BitVec 48) :
    s₀.Keeps (State.tileBoundary s t f gained) := by
  unfold State.tileBoundary
  repeat (with_reducible first
    | exact hs₀
    | apply State.setTile_keeps
    | apply State.coarseSlip_keeps
    | apply State.followTile_keeps
    | apply State.resumeTile_keeps
    | apply State.tileLeaves_keeps
    | apply State.portBoundary_keeps
    | apply State.Keeps.ite
    | split
    | refine State.Keeps.same (mk_pending ..) (mk_regs ..) (mk_chans ..) (mk_tac ..) (mk_stale ..) (mk_tacStaged ..)
        (mk_rwsStaged ..) (mk_frames ..) (mk_lastCorr ..) (mk_scrubs ..) (mk_mramCorr ..) (mk_mramTac ..)
        (mk_mramTap ..) (mk_journal ..) (mk_eventQ ..) (mk_trig ..) ?_
    | dsimp only)
theorem State.tileResume_keeps {s₀ s : State} (hs₀ : s₀.Keeps s) (t : Fin 16) : s₀.Keeps (State.tileResume s t) := by
  unfold State.tileResume
  repeat (with_reducible first
    | exact hs₀
    | apply State.setTile_keeps
    | apply State.Keeps.ite
    | split
    | refine State.Keeps.same (mk_pending ..) (mk_regs ..) (mk_chans ..) (mk_tac ..) (mk_stale ..) (mk_tacStaged ..)
        (mk_rwsStaged ..) (mk_frames ..) (mk_lastCorr ..) (mk_scrubs ..) (mk_mramCorr ..) (mk_mramTac ..)
        (mk_mramTap ..) (mk_journal ..) (mk_eventQ ..) (mk_trig ..) ?_)
theorem State.tileLost_keeps {s₀ s : State} (hs₀ : s₀.Keeps s) (t : Fin 16) (power : TilePower) : s₀.Keeps
    (State.tileLost s t power) := by
  unfold State.tileLost
  repeat (with_reducible first
    | exact hs₀
    | apply State.resetPages_keeps
    | apply State.put_keeps
    | refine State.Keeps.of ?_ (mk_pending ..) (mk_regs ..) ?_ (mk_chans ..) ?_ (mk_tac ..) ?_ (mk_stale ..) ?_
        (mk_tacStaged ..) ?_ (mk_rwsStaged ..) ?_ (mk_frames ..) ?_ (mk_lastCorr ..) ?_ (mk_scrubs ..) ?_
        (mk_mramCorr ..) ?_ (mk_mramTac ..) ?_ (mk_mramTap ..) ?_ (mk_journal ..) ?_ (mk_eventQ ..) ?_ (mk_trig ..)
        ?_
    | exact id
    | exact mapWf_filter'
    | exact mapWf_putFilter
    | exact mapCanon_filter'
    | exact length_filter_le'
    | exact nodup_filter'
    | dsimp only)
theorem State.tilePowerRemoval_keeps {s₀ s : State} (hs₀ : s₀.Keeps s) (t : Fin 16) : s₀.Keeps
    (State.tilePowerRemoval s t) := by
  unfold State.tilePowerRemoval
  repeat (with_reducible first | exact hs₀ | apply State.tileLost_keeps | apply State.Keeps.ite | split | dsimp only)
theorem State.toListen_keeps {s₀ s : State} (hs₀ : s₀.Keeps s) (page : Nat) : s₀.Keeps (State.toListen s page) := by
  unfold State.toListen
  repeat (with_reducible first | exact hs₀ | apply State.put_keeps | apply State.Keeps.ite | split)
theorem State.idleExpiry_keeps {s₀ s : State} (hs₀ : s₀.Keeps s) (page : Nat) : s₀.Keeps (State.idleExpiry s
    page) := by
  unfold State.idleExpiry
  repeat (with_reducible first
    | exact hs₀
    | apply State.toListen_keeps
    | apply State.Keeps.ite
    | refine State.Keeps.foldlSnd ?_ ?_ <;> [(intro x₀ x₁ hs₀; try dsimp only); skip]
    | refine State.Keeps.foldl ?_ ?_ <;> [(intro x₀ x₁ hs₀; try dsimp only); skip]
    | split)

/-! Stack.lean -/

theorem State.stackSleeps_keeps {s₀ s : State} (hs₀ : s₀.Keeps s) (c : Conc) : s₀.Keeps (State.stackSleeps s c) := by
  unfold State.stackSleeps
  repeat (with_reducible first
    | exact hs₀
    | apply State.setConc_keeps
    | refine State.Keeps.same (mk_pending ..) (mk_regs ..) (mk_chans ..) (mk_tac ..) (mk_stale ..) (mk_tacStaged ..)
        (mk_rwsStaged ..) (mk_frames ..) (mk_lastCorr ..) (mk_scrubs ..) (mk_mramCorr ..) (mk_mramTac ..)
        (mk_mramTap ..) (mk_journal ..) (mk_eventQ ..) (mk_trig ..) ?_
    | dsimp only)
theorem State.showWbuf_keeps {s₀ s : State} (hs₀ : s₀.Keeps s) (c : Conc) : s₀.Keeps (State.showWbuf s c) := by
  unfold State.showWbuf
  repeat (with_reducible first | exact hs₀ | apply State.put_keeps | apply State.peak_keeps | dsimp only)
theorem State.issueWrites_keeps {s₀ s : State} (hs₀ : s₀.Keeps s) (c : Conc) (shadow : Bool) (units : List Nat) :
    s₀.Keeps (State.issueWrites s c shadow units) := by
  unfold State.issueWrites
  repeat (with_reducible first
    | exact hs₀
    | apply State.setConc_keeps
    | apply State.showWbuf_keeps
    | apply State.Keeps.ite
    | refine State.Keeps.foldlSnd ?_ ?_ <;> [(intro x₀ x₁ hs₀; try dsimp only); skip]
    | refine State.Keeps.foldl ?_ ?_ <;> [(intro x₀ x₁ hs₀; try dsimp only); skip]
    | split
    | refine State.Keeps.same (mk_pending ..) (mk_regs ..) (mk_chans ..) (mk_tac ..) (mk_stale ..) (mk_tacStaged ..)
        (mk_rwsStaged ..) (mk_frames ..) (mk_lastCorr ..) (mk_scrubs ..) (mk_mramCorr ..) (mk_mramTac ..)
        (mk_mramTap ..) (mk_journal ..) (mk_eventQ ..) (mk_trig ..) ?_
    | dsimp only)

/-! Merge.lean -/

theorem State.writeExtent_keeps {s₀ s : State} (hs₀ : s₀.Keeps s) (c : Conc) (t : Fin 16) (e : Extent) : s₀.Keeps
    (State.writeExtent s c t e) := by
  unfold State.writeExtent
  repeat (with_reducible first
    | exact hs₀
    | apply State.setConc_keeps
    | apply State.issueWrites_keeps
    | apply State.setRx_keeps
    | refine State.Keeps.foldlSnd ?_ ?_ <;> [(intro x₀ x₁ hs₀; try dsimp only); skip]
    | refine State.Keeps.foldl ?_ ?_ <;> [(intro x₀ x₁ hs₀; try dsimp only); skip]
    | refine State.Keeps.same (mk_pending ..) (mk_regs ..) (mk_chans ..) (mk_tac ..) (mk_stale ..) (mk_tacStaged ..)
        (mk_rwsStaged ..) (mk_frames ..) (mk_lastCorr ..) (mk_scrubs ..) (mk_mramCorr ..) (mk_mramTac ..)
        (mk_mramTap ..) (mk_journal ..) (mk_eventQ ..) (mk_trig ..) ?_
    | dsimp only)
theorem State.openExtent_keeps {s₀ s : State} (hs₀ : s₀.Keeps s) (c : Conc) (t : Fin 16) : s₀.Keeps
    (State.openExtent s c t).2 := by
  unfold State.openExtent
  repeat (with_reducible first
    | dsimp only
    | split
    | exact hs₀
    | apply State.setConc_keeps
    | apply State.setRx_keeps
    | refine State.Keeps.same (mk_pending ..) (mk_regs ..) (mk_chans ..) (mk_tac ..) (mk_stale ..) (mk_tacStaged ..)
        (mk_rwsStaged ..) (mk_frames ..) (mk_lastCorr ..) (mk_scrubs ..) (mk_mramCorr ..) (mk_mramTac ..)
        (mk_mramTap ..) (mk_journal ..) (mk_eventQ ..) (mk_trig ..) ?_)
theorem State.appendShadow_keeps {s₀ s : State} (hs₀ : s₀.Keeps s) (c : Conc) (t : Fin 16) (n : Nat) (r : BitVec 56)
    (arrived : Nat) : s₀.Keeps (State.appendShadow s c t n r arrived) := by
  unfold State.appendShadow
  repeat (with_reducible first
    | exact hs₀
    | apply State.openExtent_keeps
    | apply State.setRx_keeps
    | apply State.writeExtent_keeps
    | apply State.Keeps.ite
    | split
    | refine State.Keeps.same (mk_pending ..) (mk_regs ..) (mk_chans ..) (mk_tac ..) (mk_stale ..) (mk_tacStaged ..)
        (mk_rwsStaged ..) (mk_frames ..) (mk_lastCorr ..) (mk_scrubs ..) (mk_mramCorr ..) (mk_mramTac ..)
        (mk_mramTap ..) (mk_journal ..) (mk_eventQ ..) (mk_trig ..) ?_
    | dsimp only)
theorem State.appendShadows_keeps {s₀ s : State} (hs₀ : s₀.Keeps s) (c : Conc) (t : Fin 16) (n : Nat) : s₀.Keeps
    (State.appendShadows s c t n).2 := by
  unfold State.appendShadows
  repeat (with_reducible first
    | dsimp only
    | split
    | exact hs₀
    | apply State.openExtent_keeps
    | apply State.appendShadow_keeps
    | refine State.Keeps.each ?_ ?_ <;> [(intro u x₁ hs₀; try dsimp only); skip]
    | refine State.Keeps.same (mk_pending ..) (mk_regs ..) (mk_chans ..) (mk_tac ..) (mk_stale ..) (mk_tacStaged ..)
        (mk_rwsStaged ..) (mk_frames ..) (mk_lastCorr ..) (mk_scrubs ..) (mk_mramCorr ..) (mk_mramTac ..)
        (mk_mramTap ..) (mk_journal ..) (mk_eventQ ..) (mk_trig ..) ?_)
theorem State.setBehind_keeps {s₀ s : State} (hs₀ : s₀.Keeps s) (c : Conc) (t : Fin 16) (b : Bool) : s₀.Keeps
    (State.setBehind s c t b) := by
  unfold State.setBehind
  repeat (with_reducible first
    | exact hs₀
    | apply State.putB_keeps
    | refine State.Keeps.same (mk_pending ..) (mk_regs ..) (mk_chans ..) (mk_tac ..) (mk_stale ..) (mk_tacStaged ..)
        (mk_rwsStaged ..) (mk_frames ..) (mk_lastCorr ..) (mk_scrubs ..) (mk_mramCorr ..) (mk_mramTac ..)
        (mk_mramTap ..) (mk_journal ..) (mk_eventQ ..) (mk_trig ..) ?_)
theorem State.countLate_keeps {s₀ s : State} (hs₀ : s₀.Keeps s) (c : Conc) (t : Fin 16) (n : Nat) : s₀.Keeps
    (State.countLate s c t n) := by
  unfold State.countLate
  repeat (with_reducible first
    | exact hs₀
    | apply State.bump_keeps
    | apply State.event_keeps
    | apply State.setConc_keeps
    | apply State.Keeps.ite
    | split
    | refine State.Keeps.same (mk_pending ..) (mk_regs ..) (mk_chans ..) (mk_tac ..) (mk_stale ..) (mk_tacStaged ..)
        (mk_rwsStaged ..) (mk_frames ..) (mk_lastCorr ..) (mk_scrubs ..) (mk_mramCorr ..) (mk_mramTac ..)
        (mk_mramTap ..) (mk_journal ..) (mk_eventQ ..) (mk_trig ..) ?_
    | dsimp only)
theorem State.routeRecord_keeps {s₀ s : State} (hs₀ : s₀.Keeps s) (c : Conc) (t : Fin 16) (frame : Nat) (ty : Nat)
    (r : BitVec 56) : s₀.Keeps (State.routeRecord s c t frame ty r) := by
  unfold State.routeRecord
  repeat (with_reducible first
    | exact hs₀
    | apply State.countLate_keeps
    | apply State.setRx_keeps
    | apply State.Keeps.ite
    | split
    | refine State.Keeps.same (mk_pending ..) (mk_regs ..) (mk_chans ..) (mk_tac ..) (mk_stale ..) (mk_tacStaged ..)
        (mk_rwsStaged ..) (mk_frames ..) (mk_lastCorr ..) (mk_scrubs ..) (mk_mramCorr ..) (mk_mramTac ..)
        (mk_mramTap ..) (mk_journal ..) (mk_eventQ ..) (mk_trig ..) ?_
    | dsimp only)
theorem State.poisonEntry_keeps {s₀ s : State} (hs₀ : s₀.Keeps s) (c : Conc) (word : Nat) : s₀.Keeps
    (State.poisonEntry s c word) := by
  unfold State.poisonEntry
  repeat (with_reducible first
    | exact hs₀
    | apply State.setConc_keeps
    | apply State.poisoned_keeps
    | refine State.Keeps.same (mk_pending ..) (mk_regs ..) (mk_chans ..) (mk_tac ..) (mk_stale ..) (mk_tacStaged ..)
        (mk_rwsStaged ..) (mk_frames ..) (mk_lastCorr ..) (mk_scrubs ..) (mk_mramCorr ..) (mk_mramTac ..)
        (mk_mramTap ..) (mk_journal ..) (mk_eventQ ..) (mk_trig ..) ?_)
theorem State.readEntry_keeps {s₀ s : State} (hs₀ : s₀.Keeps s) (c : Conc) (chan : Nat) (l : Reads) : s₀.Keeps
    (State.readEntry s c chan l) := by
  unfold State.readEntry
  repeat (with_reducible first
    | exact hs₀
    | apply State.countRead_keeps
    | apply State.poisonEntry_keeps
    | apply State.Keeps.ite
    | refine State.Keeps.each ?_ ?_ <;> [(intro u x₁ hs₀; try dsimp only); skip]
    | split
    | dsimp only)
theorem State.capture_keeps {s₀ s : State} (hs₀ : s₀.Keeps s) (c : Conc) (k : Capture) : s₀.Keeps (State.capture s c
    k) := by
  unfold State.capture
  repeat (with_reducible first
    | exact hs₀
    | apply State.launchCaptured_keeps
    | apply State.setConc_keeps
    | apply State.Keeps.ite
    | split
    | refine State.Keeps.same (mk_pending ..) (mk_regs ..) (mk_chans ..) (mk_tac ..) (mk_stale ..) (mk_tacStaged ..)
        (mk_rwsStaged ..) (mk_frames ..) (mk_lastCorr ..) (mk_scrubs ..) (mk_mramCorr ..) (mk_mramTac ..)
        (mk_mramTap ..) (mk_journal ..) (mk_eventQ ..) (mk_trig ..) ?_
    | dsimp only)
theorem State.takeRecord_keeps {s₀ s : State} (hs₀ : s₀.Keeps s) (c : Conc) (t : Fin 16) (read : Reads) (r : BitVec
    52) (frame : Nat) : s₀.Keeps (State.takeRecord s c t read r frame) := by
  unfold State.takeRecord
  repeat (with_reducible first
    | exact hs₀
    | apply State.ackItem_keeps
    | apply State.wake_keeps
    | apply State.readEntry_keeps
    | apply State.capture_keeps
    | apply State.bump_keeps
    | apply State.routeRecord_keeps
    | apply State.Keeps.ite
    | split
    | dsimp only)
theorem State.countAnywhere_keeps {s₀ s : State} (hs₀ : s₀.Keeps s) (page r : Nat) (x0 : EccRead) : s₀.Keeps
    (State.countAnywhere s page r x0) := by
  unfold State.countAnywhere
  repeat (with_reducible first
    | exact hs₀
    | apply State.draw_keeps
    | apply State.countRead_keeps
    | split
    | dsimp only)
theorem State.readPort_keeps {s₀ s : State} (hs₀ : s₀.Keeps s) (c : Conc) (t : Fin 16) (port : EccRead) (queued :
    Bool) : s₀.Keeps (State.readPort s c t port queued) := by
  unfold State.readPort
  repeat (with_reducible first | exact hs₀ | apply State.countAnywhere_keeps | apply State.Keeps.ite | split)
theorem State.correctRecordCmd_keeps {s₀ s : State} (hs₀ : s₀.Keeps s) (c : Conc) (t : Fin 16) (read : Reads) (port
    : EccRead) (queued : Bool) : s₀.Keeps (State.correctRecordCmd s c t read port queued) := by
  unfold State.correctRecordCmd
  repeat (with_reducible first
    | exact hs₀
    | apply State.event_keeps
    | apply State.readPort_keeps
    | apply State.ackItem_keeps
    | apply State.takeRecord_keeps
    | apply State.Keeps.ite
    | split
    | dsimp only)
theorem State.takeToken_keeps {s₀ s : State} (hs₀ : s₀.Keeps s) (c : Conc) (t : Fin 16) (ws : List (BitVec 52)) (n :
    Nat) : s₀.Keeps (State.takeToken s c t ws n) := by
  unfold State.takeToken
  repeat (with_reducible first
    | exact hs₀
    | apply State.ackItem_keeps
    | apply State.launchesClosed_keeps
    | apply State.setRx_keeps
    | apply State.setBehind_keeps
    | apply State.Keeps.ite
    | split
    | refine State.Keeps.same (mk_pending ..) (mk_regs ..) (mk_chans ..) (mk_tac ..) (mk_stale ..) (mk_tacStaged ..)
        (mk_rwsStaged ..) (mk_frames ..) (mk_lastCorr ..) (mk_scrubs ..) (mk_mramCorr ..) (mk_mramTac ..)
        (mk_mramTap ..) (mk_journal ..) (mk_eventQ ..) (mk_trig ..) ?_
    | dsimp only)
theorem State.closedTokenCmd_keeps {s₀ s : State} (hs₀ : s₀.Keeps s) (c : Conc) (t : Fin 16) (k : Nat) : s₀.Keeps
    (State.closedTokenCmd s c t k) := by
  unfold State.closedTokenCmd
  repeat (with_reducible first
    | exact hs₀
    | apply State.ackWords_keeps
    | apply State.takeToken_keeps
    | apply State.Keeps.ite
    | split)
theorem State.takeResume_keeps {s₀ s : State} (hs₀ : s₀.Keeps s) (c : Conc) (t : Fin 16) (ws : List (BitVec 52)) (f
    : Nat) : s₀.Keeps (State.takeResume s c t ws f) := by
  unfold State.takeResume
  repeat (with_reducible first
    | exact hs₀
    | apply State.ackItem_keeps
    | apply State.launchesClosed_keeps
    | apply State.bump_keeps
    | apply State.setRx_keeps
    | apply State.setBehind_keeps
    | apply State.eventIf_keeps
    | apply State.event_keeps
    | apply State.Keeps.ite
    | split
    | refine State.Keeps.same (mk_pending ..) (mk_regs ..) (mk_chans ..) (mk_tac ..) (mk_stale ..) (mk_tacStaged ..)
        (mk_rwsStaged ..) (mk_frames ..) (mk_lastCorr ..) (mk_scrubs ..) (mk_mramCorr ..) (mk_mramTac ..)
        (mk_mramTap ..) (mk_journal ..) (mk_eventQ ..) (mk_trig ..) ?_
    | dsimp only)
theorem State.resumeTokenCmd_keeps {s₀ s : State} (hs₀ : s₀.Keeps s) (c : Conc) (t : Fin 16) (k : Nat) : s₀.Keeps
    (State.resumeTokenCmd s c t k) := by
  unfold State.resumeTokenCmd
  repeat (with_reducible first
    | exact hs₀
    | apply State.ackWords_keeps
    | apply State.takeResume_keeps
    | apply State.Keeps.ite
    | split)
theorem State.lateWordAck_keeps {s₀ s : State} (hs₀ : s₀.Keeps s) (t : Fin 16) (c : Conc) : s₀.Keeps
    (State.lateWordAck s t c) := by
  unfold State.lateWordAck
  repeat (with_reducible first
    | exact hs₀
    | apply State.setPort_keeps
    | apply State.put_keeps
    | apply State.countLate_keeps
    | apply State.Keeps.ite
    | split
    | refine State.Keeps.same (mk_pending ..) (mk_regs ..) (mk_chans ..) (mk_tac ..) (mk_stale ..) (mk_tacStaged ..)
        (mk_rwsStaged ..) (mk_frames ..) (mk_lastCorr ..) (mk_scrubs ..) (mk_mramCorr ..) (mk_mramTac ..)
        (mk_mramTap ..) (mk_journal ..) (mk_eventQ ..) (mk_trig ..) ?_
    | dsimp only)
theorem State.horizonExpiry_keeps {s₀ s : State} (hs₀ : s₀.Keeps s) (c : Conc) (t : Fin 16) : s₀.Keeps
    (State.horizonExpiry s c t) := by
  unfold State.horizonExpiry
  repeat (with_reducible first
    | exact hs₀
    | apply State.setBehind_keeps
    | apply State.bump_keeps
    | apply State.event_keeps
    | apply State.Keeps.ite
    | split
    | dsimp only)
theorem State.writeShadow_keeps {s₀ s : State} (hs₀ : s₀.Keeps s) (c : Conc) (n : Nat) (t : Fin 16) (present : Bool)
    : s₀.Keeps (State.writeShadow s c n t present).2 := by
  unfold State.writeShadow
  repeat (with_reducible first
    | dsimp only
    | split
    | exact hs₀
    | apply State.appendShadows_keeps
    | apply State.setConc_keeps
    | apply State.issueWrites_keeps)
theorem State.extentTimeout_keeps {s₀ s : State} (hs₀ : s₀.Keeps s) (c : Conc) (t : Fin 16) (reads : Reads) :
    s₀.Keeps (State.extentTimeout s c t reads) := by
  unfold State.extentTimeout
  repeat (with_reducible first
    | exact hs₀
    | apply State.countRead_keeps
    | apply State.writeExtent_keeps
    | apply State.Keeps.ite
    | refine State.Keeps.each ?_ ?_ <;> [(intro u x₁ hs₀; try dsimp only); skip]
    | split)
theorem State.enterSpill_keeps {s₀ s : State} (hs₀ : s₀.Keeps s) (c : Conc) (mode : Nat) : s₀.Keeps
    (State.enterSpill s c mode) := by
  unfold State.enterSpill
  repeat (with_reducible first
    | exact hs₀
    | apply State.bump_keeps
    | apply State.event_keeps
    | apply State.setConc_keeps
    | apply State.put_keeps
    | apply State.eventIf_keeps
    | apply State.Keeps.ite
    | split
    | refine State.Keeps.same (mk_pending ..) (mk_regs ..) (mk_chans ..) (mk_tac ..) (mk_stale ..) (mk_tacStaged ..)
        (mk_rwsStaged ..) (mk_frames ..) (mk_lastCorr ..) (mk_scrubs ..) (mk_mramCorr ..) (mk_mramTac ..)
        (mk_mramTap ..) (mk_journal ..) (mk_eventQ ..) (mk_trig ..) ?_
    | dsimp only)
theorem State.decideMode_keeps {s₀ s : State} (hs₀ : s₀.Keeps s) (c : Conc) (n len : Nat) : s₀.Keeps
    (State.decideMode s c n len) := by
  unfold State.decideMode
  repeat (with_reducible first
    | exact hs₀
    | apply State.enterSpill_keeps
    | apply State.Keeps.ite
    | split
    | dsimp only)
theorem State.showLag_keeps {s₀ s : State} (hs₀ : s₀.Keeps s) (c : Conc) : s₀.Keeps (State.showLag s c) := by
  unfold State.showLag
  repeat (with_reducible first | exact hs₀ | apply State.put_keeps)
theorem State.writeReplay_keeps {s₀ s : State} (hs₀ : s₀.Keeps s) (c : Conc) (n : Nat) (bytes : List Byte) (m :
    SheafMeta) : s₀.Keeps (State.writeReplay s c n bytes m) := by
  unfold State.writeReplay
  repeat (with_reducible first
    | exact hs₀
    | apply State.setConc_keeps
    | apply State.issueWrites_keeps
    | apply State.put_keeps
    | refine State.Keeps.same (mk_pending ..) (mk_regs ..) (mk_chans ..) (mk_tac ..) (mk_stale ..) (mk_tacStaged ..)
        (mk_rwsStaged ..) (mk_frames ..) (mk_lastCorr ..) (mk_scrubs ..) (mk_mramCorr ..) (mk_mramTac ..)
        (mk_mramTap ..) (mk_journal ..) (mk_eventQ ..) (mk_trig ..) ?_
    | dsimp only)
theorem State.writeShadows_keeps {s₀ s : State} (hs₀ : s₀.Keeps s) (c : Conc) (n : Nat) (present : Fin 16 → Bool) :
    s₀.Keeps (State.writeShadows s c n present).2 := by
  unfold State.writeShadows
  repeat (with_reducible first
    | dsimp only
    | split
    | exact hs₀
    | apply State.writeShadow_keeps
    | refine State.Keeps.foldlSnd ?_ ?_ <;> [(intro x₀ x₁ hs₀; try dsimp only); skip]
    | refine State.Keeps.foldl ?_ ?_ <;> [(intro x₀ x₁ hs₀; try dsimp only); skip])
theorem State.showShadow_keeps {s₀ s : State} (hs₀ : s₀.Keeps s) (c : Conc) (n : Nat) : s₀.Keeps (State.showShadow s
    c n) := by
  unfold State.showShadow
  repeat (with_reducible first | exact hs₀ | apply State.put_keeps)
theorem State.countFrameLate_keeps {s₀ s : State} (hs₀ : s₀.Keeps s) (c : Conc) (n : Nat) : s₀.Keeps
    (State.countFrameLate s c n) := by
  unfold State.countFrameLate
  repeat (with_reducible first
    | exact hs₀
    | apply State.setRx_keeps
    | apply State.countLate_keeps
    | apply State.Keeps.ite
    | refine State.Keeps.each ?_ ?_ <;> [(intro u x₁ hs₀; try dsimp only); skip]
    | split
    | refine State.Keeps.same (mk_pending ..) (mk_regs ..) (mk_chans ..) (mk_tac ..) (mk_stale ..) (mk_tacStaged ..)
        (mk_rwsStaged ..) (mk_frames ..) (mk_lastCorr ..) (mk_scrubs ..) (mk_mramCorr ..) (mk_mramTac ..)
        (mk_mramTap ..) (mk_journal ..) (mk_eventQ ..) (mk_trig ..) ?_
    | dsimp only)
theorem State.formRegs_keeps {s₀ s : State} (hs₀ : s₀.Keeps s) (c : Conc) (n presence dead resumes : Nat) (drop :
    Bool) : s₀.Keeps (State.formRegs s c n presence dead resumes drop) := by
  unfold State.formRegs
  repeat (with_reducible first
    | exact hs₀
    | apply State.put_keeps
    | apply State.eventIf_keeps
    | apply State.bump_keeps
    | apply State.bump64_keeps
    | apply State.showLag_keeps
    | dsimp only)
theorem State.showBacklog_keeps {s₀ s : State} (hs₀ : s₀.Keeps s) (c : Conc) : s₀.Keeps (State.showBacklog s c) := by
  unfold State.showBacklog
  repeat (with_reducible first
    | exact hs₀
    | apply State.put_keeps
    | apply State.peak_keeps
    | apply State.overflow_keeps
    | apply State.Keeps.ite
    | split
    | dsimp only)
theorem State.modeReturn_keeps {s₀ s : State} (hs₀ : s₀.Keeps s) (c : Conc) : s₀.Keeps (State.modeReturn s c) := by
  unfold State.modeReturn
  repeat (with_reducible first
    | exact hs₀
    | apply State.put_keeps
    | apply State.event_keeps
    | apply State.Keeps.ite
    | split
    | dsimp only)
theorem State.sendCross_keeps {s₀ s : State} (hs₀ : s₀.Keeps s) (c : Conc) (m : CrossMsg) : s₀.Keeps
    (State.sendCross s c m) := by
  unfold State.sendCross
  repeat (with_reducible first
    | exact hs₀
    | apply State.setConc_keeps
    | apply State.Keeps.ite
    | split
    | refine State.Keeps.same (mk_pending ..) (mk_regs ..) (mk_chans ..) (mk_tac ..) (mk_stale ..) (mk_tacStaged ..)
        (mk_rwsStaged ..) (mk_frames ..) (mk_lastCorr ..) (mk_scrubs ..) (mk_mramCorr ..) (mk_mramTac ..)
        (mk_mramTap ..) (mk_journal ..) (mk_eventQ ..) (mk_trig ..) ?_
    | dsimp only)
theorem State.showElig_keeps {s₀ s : State} (hs₀ : s₀.Keeps s) (c : Conc) : s₀.Keeps (State.showElig s c) := by
  unfold State.showElig
  repeat (with_reducible first | exact hs₀ | apply State.putB_keeps)
theorem State.setPair_keeps {s₀ s : State} (hs₀ : s₀.Keeps s) (c : Conc) (v : Nat) : s₀.Keeps (State.setPair s c
    v) := by
  unfold State.setPair
  repeat (with_reducible first
    | exact hs₀
    | apply State.put_keeps
    | apply State.showElig_keeps
    | refine State.Keeps.same (mk_pending ..) (mk_regs ..) (mk_chans ..) (mk_tac ..) (mk_stale ..) (mk_tacStaged ..)
        (mk_rwsStaged ..) (mk_frames ..) (mk_lastCorr ..) (mk_scrubs ..) (mk_mramCorr ..) (mk_mramTac ..)
        (mk_mramTap ..) (mk_journal ..) (mk_eventQ ..) (mk_trig ..) ?_)
theorem State.partnerLost_keeps {s₀ s : State} (hs₀ : s₀.Keeps s) (c : Conc) : s₀.Keeps (State.partnerLost s c) := by
  unfold State.partnerLost
  repeat (with_reducible first
    | exact hs₀
    | apply State.setPair_keeps
    | apply State.bump_keeps
    | apply State.event_keeps
    | apply State.setConc_keeps
    | apply State.Keeps.ite
    | split
    | refine State.Keeps.same (mk_pending ..) (mk_regs ..) (mk_chans ..) (mk_tac ..) (mk_stale ..) (mk_tacStaged ..)
        (mk_rwsStaged ..) (mk_frames ..) (mk_lastCorr ..) (mk_scrubs ..) (mk_mramCorr ..) (mk_mramTac ..)
        (mk_mramTap ..) (mk_journal ..) (mk_eventQ ..) (mk_trig ..) ?_
    | dsimp only)
theorem State.formSheaf_keeps {s₀ s : State} (hs₀ : s₀.Keeps s) (c : Conc) (n : Nat) (i : FrameInfo) : s₀.Keeps
    (State.formSheaf s c n i) := by
  unfold State.formSheaf
  repeat (with_reducible first
    | exact hs₀
    | apply State.countFrameLate_keeps
    | apply State.decideMode_keeps
    | apply State.writeShadows_keeps
    | apply State.writeReplay_keeps
    | apply State.setRx_keeps
    | apply State.setConc_keeps
    | apply State.formRegs_keeps
    | apply State.showShadow_keeps
    | apply State.showBacklog_keeps
    | apply State.sendCross_keeps
    | apply State.partnerLost_keeps
    | apply State.Keeps.ite
    | refine State.Keeps.each ?_ ?_ <;> [(intro u x₁ hs₀; try dsimp only); skip]
    | split
    | refine State.Keeps.same (mk_pending ..) (mk_regs ..) (mk_chans ..) (mk_tac ..) (mk_stale ..) (mk_tacStaged ..)
        (mk_rwsStaged ..) (mk_frames ..) (mk_lastCorr ..) (mk_scrubs ..) (mk_mramCorr ..) (mk_mramTac ..)
        (mk_mramTap ..) (mk_journal ..) (mk_eventQ ..) (mk_trig ..) ?_
    | dsimp only)
theorem State.formNext_keeps {s₀ s : State} (hs₀ : s₀.Keeps s) (c : Conc) : s₀.Keeps (State.formNext s c) := by
  unfold State.formNext
  repeat (with_reducible first
    | exact hs₀
    | apply State.event_keeps
    | apply State.formSheaf_keeps
    | apply State.Keeps.ite
    | split
    | dsimp only)
theorem State.govSettle_keeps {s₀ s : State} (hs₀ : s₀.Keeps s) (c : Conc) : s₀.Keeps (State.govSettle s c) := by
  unfold State.govSettle
  repeat (with_reducible first
    | exact hs₀
    | apply State.put_keeps
    | apply State.putB_keeps
    | apply State.Keeps.ite
    | split
    | dsimp only)
theorem State.govRaise_keeps {s₀ s : State} (hs₀ : s₀.Keeps s) (c : Conc) (fill : Nat) : s₀.Keeps (State.govRaise s
    c fill) := by
  unfold State.govRaise
  repeat (with_reducible first
    | exact hs₀
    | apply State.eventIf_keeps
    | apply State.putB_keeps
    | apply State.put_keeps
    | apply State.govSettle_keeps
    | apply State.Keeps.ite
    | split
    | dsimp only)
theorem State.govLower_keeps {s₀ s : State} (hs₀ : s₀.Keeps s) (c : Conc) (fill : Nat) : s₀.Keeps (State.govLower s
    c fill) := by
  unfold State.govLower
  repeat (with_reducible first
    | exact hs₀
    | apply State.putB_keeps
    | apply State.put_keeps
    | apply State.govSettle_keeps
    | apply State.Keeps.ite
    | split
    | dsimp only)

/-! Regs.lean -/

theorem State.latchRead_keeps {s₀ s : State} (hs₀ : s₀.Keeps s) (page off : Nat) : s₀.Keeps (State.latchRead s page
    off) := by
  unfold State.latchRead
  repeat (with_reducible first
    | exact hs₀
    | split
    | refine State.Keeps.same (mk_pending ..) (mk_regs ..) (mk_chans ..) (mk_tac ..) (mk_stale ..) (mk_tacStaged ..)
        (mk_rwsStaged ..) (mk_frames ..) (mk_lastCorr ..) (mk_scrubs ..) (mk_mramCorr ..) (mk_mramTac ..)
        (mk_mramTap ..) (mk_journal ..) (mk_eventQ ..) (mk_trig ..) ?_)
theorem State.readOne_keeps {s₀ s : State} (hs₀ : s₀.Keeps s) (page off : Nat) : s₀.Keeps (State.readOne s page
    off).2.2 := by
  unfold State.readOne
  repeat (with_reducible first | split | exact hs₀ | apply State.latchRead_keeps)
theorem State.showStaged_keeps {s₀ s : State} (hs₀ : s₀.Keeps s) (c : Conc) : s₀.Keeps (State.showStaged s c) := by
  unfold State.showStaged
  repeat (with_reducible first | exact hs₀ | apply State.put_keeps)
theorem State.stageEntry_keeps {s₀ s : State} (hs₀ : s₀.Keeps s) (c : Conc) (chan : Nat) (e : BitVec 128) : s₀.Keeps
    (State.stageEntry s c chan e) := by
  unfold State.stageEntry
  extract_lets cs
  split
  · exact State.event_keeps (State.putB_keeps (State.bump_keeps hs₀ ..) ..) ..
  · exact State.showStaged_keeps (State.setConc_keeps hs₀ ..) ..
theorem State.stageCorr_keeps {s₀ s : State} (hs₀ : s₀.Keeps s) (c : Conc) (chan w : Nat) (v : Word) : s₀.Keeps
    (State.stageCorr s c chan w v).2 := State.stageEntry_keeps hs₀ ..
theorem State.record_keeps {s₀ s : State} (hs₀ : s₀.Keeps s) (page off : Nat) (d : RegDef) : s₀.Keeps (State.record
    s page off d) := by
  unfold State.record
  repeat (with_reducible first
    | exact hs₀
    | apply State.putB_keeps
    | apply State.Keeps.ite
    | split
    | refine State.Keeps.same (mk_pending ..) (mk_regs ..) (mk_chans ..) (mk_tac ..) (mk_stale ..) (mk_tacStaged ..)
        (mk_rwsStaged ..) (mk_frames ..) (mk_lastCorr ..) (mk_scrubs ..) (mk_mramCorr ..) (mk_mramTac ..)
        (mk_mramTap ..) (mk_journal ..) (mk_eventQ ..) (mk_trig ..) ?_
    | dsimp only)
theorem State.store_keeps {s₀ s : State} (hs₀ : s₀.Keeps s) (k : PageKind) (page off : Nat) (new : Word) : s₀.Keeps
    (State.store s k page off new) := by
  unfold State.store
  split
  · exact State.wr_keeps hs₀ ..
  · refine .of (State.wr_keeps hs₀ page off new) (mk_pending ..) (mk_regs ..) ?_ (mk_chans ..) ?_ (mk_tac ..) ?_
      (mk_stale ..) ?_ (mk_tacStaged ..) ?_ (mk_rwsStaged ..) ?_ (mk_frames ..) ?_ (mk_lastCorr ..) ?_ (mk_scrubs
      ..) ?_ (mk_mramCorr ..) ?_ (mk_mramTac ..) ?_ (mk_mramTap ..) ?_ (mk_journal ..) ?_ (mk_eventQ ..) ?_ (mk_trig
      ..) ?_
    all_goals intro k
    all_goals first
      | exact k
      | (rw [State.wr_stale] at k; split <;> first | exact k | exact mapWf_put' k)
theorem State.storeLo_keeps {s₀ s : State} (hs₀ : s₀.Keeps s) (page off : Nat) (new : Word) : s₀.Keeps
    (State.storeLo s page off new) := State.store_keeps (.ite hs₀ (.same (mk_pending ..) (mk_regs ..) (mk_chans ..)
    (mk_tac ..) (mk_stale ..) (mk_tacStaged ..) (mk_rwsStaged ..) (mk_frames ..) (mk_lastCorr ..) (mk_scrubs ..)
    (mk_mramCorr ..) (mk_mramTac ..) (mk_mramTap ..) (mk_journal ..) (mk_eventQ ..) (mk_trig ..) hs₀)) ..
theorem State.storeInc_keeps {s₀ s : State} (hs₀ : s₀.Keeps s) (page off : Nat) (v : Word) : s₀.Keeps
    (State.storeInc s page off v) := by
  unfold State.storeInc
  extract_lets n keep st
  refine .of (State.wr_keeps (State.wr_keeps hs₀ page (off - 4) (BitVec.ofNat 32 n)) page off (BitVec.ofNat 32 (n /
      2 ^ 32))) (mk_pending ..) (mk_regs ..) ?_ (mk_chans ..) ?_ (mk_tac ..) ?_ (mk_stale ..) ?_ (mk_tacStaged ..)
      ?_ (mk_rwsStaged ..) ?_ (mk_frames ..) ?_ (mk_lastCorr ..) ?_ (mk_scrubs ..) ?_ (mk_mramCorr ..) ?_
      (mk_mramTac ..) ?_ (mk_mramTap ..) ?_ (mk_journal ..) ?_ (mk_eventQ ..) ?_ (mk_trig ..) ?_
  all_goals intro k
  all_goals first
    | exact k
    | (rw [State.wr_stale, State.wr_stale] at k
       have keeps (o : Nat) (m : List (Nat × Word)) (h : mapWf m = true) : mapWf (keep o m) = true := by
         simp only [keep]
         split
         · exact h
         · exact mapWf_put' h
       exact keeps _ _ (keeps _ _ k))
theorem State.storeSetting_keeps {s₀ s : State} (hs₀ : s₀.Keeps s) (k : PageKind) (page off : Nat) (new v : Word) :
    s₀.Keeps (State.storeSetting s k page off new v) := .ite (State.storeInc_keeps hs₀ ..) (.ite
    (State.storeLo_keeps hs₀ ..) (State.store_keeps hs₀ ..))
theorem State.writePlain_keeps {s₀ s : State} (hs₀ : s₀.Keeps s) (k : PageKind) (page off : Nat) (d : RegDef) (v :
    Word) (rwl : Bool) : s₀.Keeps (State.writePlain s k page off d v rwl).2 := by
  unfold State.writePlain
  extract_lets shut new u w ones x
  split
  · exact hs₀
  split
  · exact State.event_keeps hs₀ ..
  split
  · exact State.bump_keeps hs₀ ..
  have hu : s₀.Keeps u := State.storeSetting_keeps hs₀ ..
  have hw : s₀.Keeps w := State.record_keeps hu ..
  have hx : s₀.Keeps x := .ite hw (.same (mk_pending ..) (mk_regs ..) (mk_chans ..) (mk_tac ..) (mk_stale ..)
      (mk_tacStaged ..) (mk_rwsStaged ..) (mk_frames ..) (mk_lastCorr ..) (mk_scrubs ..) (mk_mramCorr ..)
      (mk_mramTac ..) (mk_mramTap ..) (mk_journal ..) (mk_eventQ ..) (mk_trig ..) hw)
  split
  · exact State.wr_keeps hx ..
  · exact hx
theorem State.writeLive_keeps {s₀ s : State} (hs₀ : s₀.Keeps s) (k : PageKind) (page off : Nat) (d : RegDef) (v :
    Word) (rwl : Bool) : s₀.Keeps (State.writeLive s k page off d v rwl).2 := by
  unfold State.writeLive
  repeat (with_reducible first
    | split
    | exact hs₀
    | apply State.stageCorr_keeps
    | apply State.writePlain_keeps
    | refine State.Keeps.of ?_ (mk_pending ..) (mk_regs ..) ?_ (mk_chans ..) ?_ (mk_tac ..) ?_ (mk_stale ..) ?_
        (mk_tacStaged ..) ?_ (mk_rwsStaged ..) ?_ (mk_frames ..) ?_ (mk_lastCorr ..) ?_ (mk_scrubs ..) ?_
        (mk_mramCorr ..) ?_ (mk_mramTac ..) ?_ (mk_mramTap ..) ?_ (mk_journal ..) ?_ (mk_eventQ ..) ?_ (mk_trig ..)
        ?_
    | exact id
    | exact mapWf_put')
theorem State.writeOff_keeps {s₀ s : State} (hs₀ : s₀.Keeps s) (k : PageKind) (page off : Nat) (d : RegDef) (v :
    Word) (rwl : Bool) : s₀.Keeps (State.writeOff s k page off d v rwl).2 := by
  unfold State.writeOff
  extract_lets shut key base c e m new u
  have hu : s₀.Keeps u := by
    refine .ite ?_ (.ite ?_ (.ite ?_ ?_))
    · exact .same (mk_pending ..) (mk_regs ..) (mk_chans ..) (mk_tac ..) (mk_stale ..) (mk_tacStaged ..)
        (mk_rwsStaged ..) (mk_frames ..) (mk_lastCorr ..) (mk_scrubs ..) (mk_mramCorr ..) (mk_mramTac ..)
        (mk_mramTap ..) (mk_journal ..) (mk_eventQ ..) (mk_trig ..) hs₀
    · exact .same (mk_pending ..) (mk_regs ..) (mk_chans ..) (mk_tac ..) (mk_stale ..) (mk_tacStaged ..)
        (mk_rwsStaged ..) (mk_frames ..) (mk_lastCorr ..) (mk_scrubs ..) (mk_mramCorr ..) (mk_mramTac ..)
        (mk_mramTap ..) (mk_journal ..) (mk_eventQ ..) (mk_trig ..) hs₀
    · exact .same (mk_pending ..) (mk_regs ..) (mk_chans ..) (mk_tac ..) (mk_stale ..) (mk_tacStaged ..)
        (mk_rwsStaged ..) (mk_frames ..) (mk_lastCorr ..) (mk_scrubs ..) (mk_mramCorr ..) (mk_mramTac ..)
        (mk_mramTap ..) (mk_journal ..) (mk_eventQ ..) (mk_trig ..) hs₀
    · exact .ite hs₀ (.same (mk_pending ..) (mk_regs ..) (mk_chans ..) (mk_tac ..) (mk_stale ..) (mk_tacStaged ..)
        (mk_rwsStaged ..) (mk_frames ..) (mk_lastCorr ..) (mk_scrubs ..) (mk_mramCorr ..) (mk_mramTac ..)
        (mk_mramTap ..) (mk_journal ..) (mk_eventQ ..) (mk_trig ..) hs₀)
  split
  · exact hu
  split <;> exact hu
theorem State.writeOnePage_keeps {s₀ s : State} (hs₀ : s₀.Keeps s) (page off : Nat) (v : Word) (rwl : Bool) :
    s₀.Keeps (State.writeOnePage s page off v rwl).2 := by
  unfold State.writeOnePage
  repeat (with_reducible first | split | exact hs₀ | apply State.writeOff_keeps | apply State.writeLive_keeps)
theorem State.countResult_keeps {s₀ s : State} (hs₀ : s₀.Keeps s) (r : Nat) : s₀.Keeps (State.countResult s r) := by
  unfold State.countResult
  repeat (with_reducible first
    | exact hs₀
    | apply State.bump_keeps
    | apply State.event_keeps
    | apply State.Keeps.ite
    | split)
theorem State.noteWrites_keeps {s₀ s : State} (hs₀ : s₀.Keeps s) (l : List (Nat × Nat)) (off : Nat) (v : Word) (n :
    Nat) (rwl : Bool) : s₀.Keeps (State.noteWrites s l off v n rwl) := by
  unfold State.noteWrites
  repeat (with_reducible first
    | exact hs₀
    | apply State.noteChange_keeps
    | apply State.Keeps.ite
    | refine State.Keeps.each ?_ ?_ <;> [(intro u x₁ hs₀; try dsimp only); skip]
    | split)
theorem State.unlockPage_keeps {s₀ s : State} (hs₀ : s₀.Keeps s) (page frames : Nat) : s₀.Keeps (State.unlockPage s
    page frames) := by
  unfold State.unlockPage
  repeat (with_reducible first
    | exact hs₀
    | apply State.Keeps.ite
    | split
    | refine State.Keeps.same (mk_pending ..) (mk_regs ..) (mk_chans ..) (mk_tac ..) (mk_stale ..) (mk_tacStaged ..)
        (mk_rwsStaged ..) (mk_frames ..) (mk_lastCorr ..) (mk_scrubs ..) (mk_mramCorr ..) (mk_mramTac ..)
        (mk_mramTap ..) (mk_journal ..) (mk_eventQ ..) (mk_trig ..) ?_)
theorem State.lockPage_keeps {s₀ s : State} (hs₀ : s₀.Keeps s) (page : Nat) : s₀.Keeps (State.lockPage s page) := by
  unfold State.lockPage
  repeat (with_reducible first
    | exact hs₀
    | refine State.Keeps.same (mk_pending ..) (mk_regs ..) (mk_chans ..) (mk_tac ..) (mk_stale ..) (mk_tacStaged ..)
        (mk_rwsStaged ..) (mk_frames ..) (mk_lastCorr ..) (mk_scrubs ..) (mk_mramCorr ..) (mk_mramTac ..)
        (mk_mramTap ..) (mk_journal ..) (mk_eventQ ..) (mk_trig ..) ?_)
theorem State.stageClr_keeps {s₀ s : State} (hs₀ : s₀.Keeps s) (c : Conc) : s₀.Keeps (State.stageClr s c) := by
  unfold State.stageClr
  repeat (with_reducible first
    | exact hs₀
    | apply State.setConc_keeps
    | apply State.putB_keeps
    | apply State.showStaged_keeps
    | refine State.Keeps.same (mk_pending ..) (mk_regs ..) (mk_chans ..) (mk_tac ..) (mk_stale ..) (mk_tacStaged ..)
        (mk_rwsStaged ..) (mk_frames ..) (mk_lastCorr ..) (mk_scrubs ..) (mk_mramCorr ..) (mk_mramTac ..)
        (mk_mramTap ..) (mk_journal ..) (mk_eventQ ..) (mk_trig ..) ?_)
theorem State.discardStaged_keeps {s₀ s : State} (hs₀ : s₀.Keeps s) (page : Nat) : s₀.Keeps (State.discardStaged s
    page) := by
  unfold State.discardStaged
  repeat (with_reducible first
    | exact hs₀
    | apply State.stageClr_keeps
    | apply State.Keeps.ite
    | split
    | refine State.Keeps.of ?_ (mk_pending ..) (mk_regs ..) ?_ (mk_chans ..) ?_ (mk_tac ..) ?_ (mk_stale ..) ?_
        (mk_tacStaged ..) ?_ (mk_rwsStaged ..) ?_ (mk_frames ..) ?_ (mk_lastCorr ..) ?_ (mk_scrubs ..) ?_
        (mk_mramCorr ..) ?_ (mk_mramTac ..) ?_ (mk_mramTap ..) ?_ (mk_journal ..) ?_ (mk_eventQ ..) ?_ (mk_trig ..)
        ?_
    | exact id
    | exact mapWf_filter'
    | exact mapWf_putFilter
    | exact mapCanon_filter'
    | exact length_filter_le'
    | exact nodup_filter')

/-! Swap.lean -/

theorem State.clearHist_keeps {s₀ s : State} (hs₀ : s₀.Keeps s) (c : Conc) (captures : Bool) : s₀.Keeps
    (State.clearHist s c captures) := by
  unfold State.clearHist
  repeat (with_reducible first
    | exact hs₀
    | apply State.setConc_keeps
    | apply State.Keeps.ite
    | split
    | refine State.Keeps.same (mk_pending ..) (mk_regs ..) (mk_chans ..) (mk_tac ..) (mk_stale ..) (mk_tacStaged ..)
        (mk_rwsStaged ..) (mk_frames ..) (mk_lastCorr ..) (mk_scrubs ..) (mk_mramCorr ..) (mk_mramTac ..)
        (mk_mramTap ..) (mk_journal ..) (mk_eventQ ..) (mk_trig ..) ?_)
theorem State.restartTurn_keeps {s₀ s : State} (hs₀ : s₀.Keeps s) (captures : Bool) : s₀.Keeps (State.restartTurn s
    captures) := by
  unfold State.restartTurn
  repeat (with_reducible first
    | exact hs₀
    | apply State.clearHist_keeps
    | refine State.Keeps.each ?_ ?_ <;> [(intro u x₁ hs₀; try dsimp only); skip]
    | refine State.Keeps.same (mk_pending ..) (mk_regs ..) (mk_chans ..) (mk_tac ..) (mk_stale ..) (mk_tacStaged ..)
        (mk_rwsStaged ..) (mk_frames ..) (mk_lastCorr ..) (mk_scrubs ..) (mk_mramCorr ..) (mk_mramTac ..)
        (mk_mramTap ..) (mk_journal ..) (mk_eventQ ..) (mk_trig ..) ?_
    | dsimp only)
theorem State.beginTurn_keeps {s₀ s : State} (hs₀ : s₀.Keeps s) (first : Nat) : s₀.Keeps (State.beginTurn s
    first) := by
  unfold State.beginTurn
  repeat (with_reducible first
    | exact hs₀
    | apply State.restartTurn_keeps
    | apply State.put_keeps
    | split
    | refine State.Keeps.same (mk_pending ..) (mk_regs ..) (mk_chans ..) (mk_tac ..) (mk_stale ..) (mk_tacStaged ..)
        (mk_rwsStaged ..) (mk_frames ..) (mk_lastCorr ..) (mk_scrubs ..) (mk_mramCorr ..) (mk_mramTac ..)
        (mk_mramTap ..) (mk_journal ..) (mk_eventQ ..) (mk_trig ..) ?_
    | dsimp only)
theorem State.showSwap_keeps {s₀ s : State} (hs₀ : s₀.Keeps s) : s₀.Keeps (State.showSwap s) := by
  unfold State.showSwap
  repeat (with_reducible first | exact hs₀ | apply State.putB_keeps | dsimp only)
theorem State.journalSwap_keeps {s₀ s : State} (hs₀ : s₀.Keeps s) (t : Fin 16) (result epoch : Nat) : s₀.Keeps
    (State.journalSwap s t result epoch).2 := by
  unfold State.journalSwap
  repeat (with_reducible first | split | exact hs₀ | apply State.append_keeps)
theorem State.nextTurn_keeps {s₀ s : State} (hs₀ : s₀.Keeps s) (t : Fin 16) : s₀.Keeps (State.nextTurn s t) := by
  unfold State.nextTurn
  repeat (with_reducible first | exact hs₀ | apply State.beginTurn_keeps | apply State.Keeps.ite | split)
theorem State.withdrawSwap_keeps {s₀ s : State} (hs₀ : s₀.Keeps s) : s₀.Keeps (State.withdrawSwap s) := by
  unfold State.withdrawSwap
  repeat (with_reducible first
    | exact hs₀
    | apply State.discardStaged_keeps
    | apply State.bump_keeps
    | apply State.event_keeps
    | apply State.showSwap_keeps
    | apply State.putB_keeps
    | apply State.journalSwap_keeps
    | apply State.nextTurn_keeps
    | apply State.Keeps.ite
    | refine State.Keeps.each ?_ ?_ <;> [(intro u x₁ hs₀; try dsimp only); skip]
    | split
    | refine State.Keeps.same (mk_pending ..) (mk_regs ..) (mk_chans ..) (mk_tac ..) (mk_stale ..) (mk_tacStaged ..)
        (mk_rwsStaged ..) (mk_frames ..) (mk_lastCorr ..) (mk_scrubs ..) (mk_mramCorr ..) (mk_mramTac ..)
        (mk_mramTap ..) (mk_journal ..) (mk_eventQ ..) (mk_trig ..) ?_
    | dsimp only)
theorem State.checkSwap_keeps {s₀ s : State} (hs₀ : s₀.Keeps s) : s₀.Keeps (State.checkSwap s) := by
  unfold State.checkSwap
  repeat (with_reducible first | exact hs₀ | apply State.withdrawSwap_keeps | apply State.Keeps.ite | split)

/-! Trig.lean -/

theorem State.trigPinEdge_keeps {s₀ s : State} (hs₀ : s₀.Keeps s) (p : Pin) (rising : Bool) (stamp : Nat) : s₀.Keeps
    (State.trigPinEdge s p rising stamp) := by
  unfold State.trigPinEdge
  repeat (with_reducible first
    | exact hs₀
    | apply State.advance_keeps
    | apply State.bump_keeps
    | apply State.Keeps.ite
    | split
    | refine State.Keeps.of ?_ (mk_pending ..) (mk_regs ..) ?_ (mk_chans ..) ?_ (mk_tac ..) ?_ (mk_stale ..) ?_
        (mk_tacStaged ..) ?_ (mk_rwsStaged ..) ?_ (mk_frames ..) ?_ (mk_lastCorr ..) ?_ (mk_scrubs ..) ?_
        (mk_mramCorr ..) ?_ (mk_mramTac ..) ?_ (mk_mramTap ..) ?_ (mk_journal ..) ?_ (mk_eventQ ..) ?_ (mk_trig ..)
        ?_
    | exact id
    | exact TrigSt.accept_timed
    | dsimp only)
theorem State.refuseTrigger_keeps {s₀ s : State} (hs₀ : s₀.Keeps s) : s₀.Keeps (State.refuseTrigger s) := by
  unfold State.refuseTrigger
  repeat (with_reducible first | exact hs₀ | apply State.bump_keeps | apply State.event_keeps)
theorem State.timedTrigger_keeps {s₀ s : State} (hs₀ : s₀.Keeps s) (coarse fine : Nat) (g : Bool) (level pre post
    path : Nat) : s₀.Keeps (State.timedTrigger s coarse fine g level pre post path).2 := by
  unfold State.timedTrigger
  extract_lets t m start
  split
  · rename_i c
    refine .of hs₀ (mk_pending ..) (mk_regs ..) ?_ (mk_chans ..) ?_ (mk_tac ..) ?_ (mk_stale ..) ?_
        (mk_tacStaged ..) ?_ (mk_rwsStaged ..) ?_ (mk_frames ..) ?_ (mk_lastCorr ..) ?_ (mk_scrubs ..) ?_
        (mk_mramCorr ..) ?_ (mk_mramTac ..) ?_ (mk_mramTap ..) ?_ (mk_journal ..) ?_ (mk_eventQ ..) ?_ (mk_trig ..)
        ?_
    all_goals intro k
    all_goals first
      | exact k
      | (rw [List.length_append]; exact Nat.succ_le_of_lt c.2.2.2.2.2)
  · exact State.refuseTrigger_keeps hs₀
theorem State.convertTimed_keeps {s₀ s : State} (hs₀ : s₀.Keeps s) (f : Nat) : s₀.Keeps (State.convertTimed s f) := by
  unfold State.convertTimed
  repeat (with_reducible first
    | exact hs₀
    | apply State.refuseTrigger_keeps
    | refine State.Keeps.each ?_ ?_ <;> [(intro u x₁ hs₀; try dsimp only); skip]
    | refine State.Keeps.of ?_ (mk_pending ..) (mk_regs ..) ?_ (mk_chans ..) ?_ (mk_tac ..) ?_ (mk_stale ..) ?_
        (mk_tacStaged ..) ?_ (mk_rwsStaged ..) ?_ (mk_frames ..) ?_ (mk_lastCorr ..) ?_ (mk_scrubs ..) ?_
        (mk_mramCorr ..) ?_ (mk_mramTac ..) ?_ (mk_mramTap ..) ?_ (mk_journal ..) ?_ (mk_eventQ ..) ?_ (mk_trig ..)
        ?_
    | exact id
    | exact mapWf_filter'
    | exact mapWf_putFilter
    | exact mapCanon_filter'
    | exact length_filter_le'
    | exact length_map'
    | exact nodup_filter'
    | exact (mapWf_map' (fun x => rfl))
    | exact (mapWf_map' (fun x => by split <;> rfl))
    | dsimp only)
theorem State.gateEdge_keeps {s₀ s : State} (hs₀ : s₀.Keeps s) (p : Pin) (isOpen : Bool) (time : Nat) : s₀.Keeps
    (State.gateEdge s p isOpen time) := by
  unfold State.gateEdge
  repeat (with_reducible first
    | exact hs₀
    | apply State.putB_keeps
    | apply State.setTile_keeps
    | apply State.Keeps.ite
    | refine State.Keeps.each ?_ ?_ <;> [(intro u x₁ hs₀; try dsimp only); skip]
    | split
    | refine State.Keeps.of ?_ (mk_pending ..) (mk_regs ..) ?_ (mk_chans ..) ?_ (mk_tac ..) ?_ (mk_stale ..) ?_
        (mk_tacStaged ..) ?_ (mk_rwsStaged ..) ?_ (mk_frames ..) ?_ (mk_lastCorr ..) ?_ (mk_scrubs ..) ?_
        (mk_mramCorr ..) ?_ (mk_mramTac ..) ?_ (mk_mramTap ..) ?_ (mk_journal ..) ?_ (mk_eventQ ..) ?_ (mk_trig ..)
        ?_
    | exact id
    | exact mapWf_one
    | dsimp only)
theorem State.gatePinChange_keeps {s₀ s : State} (hs₀ : s₀.Keeps s) (p : Pin) (high : Bool) (stamp : Nat) : s₀.Keeps
    (State.gatePinChange s p high stamp) := by
  unfold State.gatePinChange
  repeat (with_reducible first
    | exact hs₀
    | apply State.advance_keeps
    | apply State.bump_keeps
    | apply State.Keeps.ite
    | split
    | refine State.Keeps.of ?_ (mk_pending ..) (mk_regs ..) ?_ (mk_chans ..) ?_ (mk_tac ..) ?_ (mk_stale ..) ?_
        (mk_tacStaged ..) ?_ (mk_rwsStaged ..) ?_ (mk_frames ..) ?_ (mk_lastCorr ..) ?_ (mk_scrubs ..) ?_
        (mk_mramCorr ..) ?_ (mk_mramTac ..) ?_ (mk_mramTap ..) ?_ (mk_journal ..) ?_ (mk_eventQ ..) ?_ (mk_trig ..)
        ?_
    | exact id
    | exact TrigSt.setGate_timed
    | dsimp only)
theorem State.gateEdgeAccept_keeps {s₀ s : State} (hs₀ : s₀.Keeps s) (p : Pin) (at_ : Nat) : s₀.Keeps
    (State.gateEdgeAccept s p at_) := by
  unfold State.gateEdgeAccept
  repeat (with_reducible first
    | exact hs₀
    | apply State.advance_keeps
    | apply State.gateEdge_keeps
    | apply State.Keeps.ite
    | split
    | refine State.Keeps.of ?_ (mk_pending ..) (mk_regs ..) ?_ (mk_chans ..) ?_ (mk_tac ..) ?_ (mk_stale ..) ?_
        (mk_tacStaged ..) ?_ (mk_rwsStaged ..) ?_ (mk_frames ..) ?_ (mk_lastCorr ..) ?_ (mk_scrubs ..) ?_
        (mk_mramCorr ..) ?_ (mk_mramTac ..) ?_ (mk_mramTap ..) ?_ (mk_journal ..) ?_ (mk_eventQ ..) ?_ (mk_trig ..)
        ?_
    | exact id
    | exact TrigSt.setGate_timed
    | dsimp only)
theorem State.gatePolChanged_keeps {s₀ s : State} (hs₀ : s₀.Keeps s) (p : Pin) (f : Nat) : s₀.Keeps
    (State.gatePolChanged s p f) := by
  unfold State.gatePolChanged
  repeat (with_reducible first | exact hs₀ | apply State.gateEdge_keeps | apply State.Keeps.ite | split | dsimp only)
theorem State.timedGate_keeps {s₀ s : State} (hs₀ : s₀.Keeps s) (openC openT closeC closeT : Nat) : s₀.Keeps
    (State.timedGate s openC openT closeC closeT).2 := by
  unfold State.timedGate
  repeat (with_reducible first
    | dsimp only
    | split
    | exact hs₀
    | apply State.put_keeps
    | apply State.bump_keeps
    | apply State.event_keeps
    | refine State.Keeps.of ?_ (mk_pending ..) (mk_regs ..) ?_ (mk_chans ..) ?_ (mk_tac ..) ?_ (mk_stale ..) ?_
        (mk_tacStaged ..) ?_ (mk_rwsStaged ..) ?_ (mk_frames ..) ?_ (mk_lastCorr ..) ?_ (mk_scrubs ..) ?_
        (mk_mramCorr ..) ?_ (mk_mramTac ..) ?_ (mk_mramTap ..) ?_ (mk_journal ..) ?_ (mk_eventQ ..) ?_ (mk_trig ..)
        ?_
    | exact id
    | exact mapWf_one)
theorem State.sendWindow_keeps {s₀ s : State} (hs₀ : s₀.Keeps s) (mo mc : Nat) : s₀.Keeps (State.sendWindow s mo
    mc) := by
  unfold State.sendWindow
  repeat (with_reducible first
    | exact hs₀
    | apply State.setTile_keeps
    | refine State.Keeps.each ?_ ?_ <;> [(intro u x₁ hs₀; try dsimp only); skip]
    | refine State.Keeps.of ?_ (mk_pending ..) (mk_regs ..) ?_ (mk_chans ..) ?_ (mk_tac ..) ?_ (mk_stale ..) ?_
        (mk_tacStaged ..) ?_ (mk_rwsStaged ..) ?_ (mk_frames ..) ?_ (mk_lastCorr ..) ?_ (mk_scrubs ..) ?_
        (mk_mramCorr ..) ?_ (mk_mramTac ..) ?_ (mk_mramTap ..) ?_ (mk_journal ..) ?_ (mk_eventQ ..) ?_ (mk_trig ..)
        ?_
    | exact id
    | exact mapWf_one
    | dsimp only)
theorem State.sendWindows_keeps {s₀ s : State} (hs₀ : s₀.Keeps s) : s₀.Keeps (State.sendWindows s) := by
  unfold State.sendWindows
  repeat (with_reducible first
    | exact hs₀
    | apply State.sendWindow_keeps
    | apply State.Keeps.ite
    | refine State.Keeps.each ?_ ?_ <;> [(intro u x₁ hs₀; try dsimp only); skip]
    | split
    | refine State.Keeps.of ?_ (mk_pending ..) (mk_regs ..) ?_ (mk_chans ..) ?_ (mk_tac ..) ?_ (mk_stale ..) ?_
        (mk_tacStaged ..) ?_ (mk_rwsStaged ..) ?_ (mk_frames ..) ?_ (mk_lastCorr ..) ?_ (mk_scrubs ..) ?_
        (mk_mramCorr ..) ?_ (mk_mramTac ..) ?_ (mk_mramTap ..) ?_ (mk_journal ..) ?_ (mk_eventQ ..) ?_ (mk_trig ..)
        ?_
    | exact id
    | exact mapWf_filter'
    | exact mapWf_putFilter
    | exact mapCanon_filter'
    | exact length_filter_le'
    | exact length_map'
    | exact nodup_filter'
    | exact (mapWf_map' (fun x => rfl))
    | exact (mapWf_map' (fun x => by split <;> rfl))
    | dsimp only)
theorem State.markTimed_keeps {s₀ s : State} (hs₀ : s₀.Keeps s) (f : Nat) : s₀.Keeps (State.markTimed s f) := by
  unfold State.markTimed
  repeat (with_reducible first
    | exact hs₀
    | apply State.Keeps.ite
    | split
    | refine State.Keeps.of ?_ (mk_pending ..) (mk_regs ..) ?_ (mk_chans ..) ?_ (mk_tac ..) ?_ (mk_stale ..) ?_
        (mk_tacStaged ..) ?_ (mk_rwsStaged ..) ?_ (mk_frames ..) ?_ (mk_lastCorr ..) ?_ (mk_scrubs ..) ?_
        (mk_mramCorr ..) ?_ (mk_mramTac ..) ?_ (mk_mramTap ..) ?_ (mk_journal ..) ?_ (mk_eventQ ..) ?_ (mk_trig ..)
        ?_
    | exact id
    | exact mapWf_filter'
    | exact mapWf_putFilter
    | exact mapWf_nil'
    | exact mapWf_one
    | exact mapCanon_filter'
    | exact mapCanon_nil'
    | exact length_filter_le'
    | exact length_map'
    | exact nodup_filter'
    | exact (mapWf_map' (fun x => rfl))
    | exact (mapWf_map' (fun x => by split <;> rfl))
    | dsimp only)
theorem State.gateApplyCmd_keeps {s₀ s : State} (hs₀ : s₀.Keeps s) (t : Fin 16) : s₀.Keeps (State.gateApplyCmd s
    t) := by
  unfold State.gateApplyCmd
  repeat (with_reducible first
    | exact hs₀
    | apply State.gateApply_keeps
    | apply State.put_keeps
    | apply State.putB_keeps
    | apply State.Keeps.ite
    | split
    | refine State.Keeps.of ?_ (mk_pending ..) (mk_regs ..) ?_ (mk_chans ..) ?_ (mk_tac ..) ?_ (mk_stale ..) ?_
        (mk_tacStaged ..) ?_ (mk_rwsStaged ..) ?_ (mk_frames ..) ?_ (mk_lastCorr ..) ?_ (mk_scrubs ..) ?_
        (mk_mramCorr ..) ?_ (mk_mramTac ..) ?_ (mk_mramTap ..) ?_ (mk_journal ..) ?_ (mk_eventQ ..) ?_ (mk_trig ..)
        ?_
    | exact id
    | exact mapWf_filter'
    | exact mapWf_putFilter
    | exact mapWf_nil'
    | exact mapWf_one
    | exact mapCanon_filter'
    | exact mapCanon_nil'
    | exact length_filter_le'
    | exact nodup_filter'
    | dsimp only)
theorem State.requestGlean_keeps {s₀ s : State} (hs₀ : s₀.Keeps s) (c : Conc) (g : Trigger) : s₀.Keeps
    (State.requestGlean s c g) := by
  unfold State.requestGlean
  repeat (with_reducible first
    | exact hs₀
    | apply State.setConc_keeps
    | apply State.put_keeps
    | apply State.peak_keeps
    | apply State.bump_keeps
    | apply State.event_keeps
    | apply State.Keeps.ite
    | split
    | refine State.Keeps.of ?_ (mk_pending ..) (mk_regs ..) ?_ (mk_chans ..) ?_ (mk_tac ..) ?_ (mk_stale ..) ?_
        (mk_tacStaged ..) ?_ (mk_rwsStaged ..) ?_ (mk_frames ..) ?_ (mk_lastCorr ..) ?_ (mk_scrubs ..) ?_
        (mk_mramCorr ..) ?_ (mk_mramTac ..) ?_ (mk_mramTap ..) ?_ (mk_journal ..) ?_ (mk_eventQ ..) ?_ (mk_trig ..)
        ?_
    | exact id
    | exact mapWf_filter'
    | exact mapWf_putFilter
    | exact mapWf_one
    | exact mapCanon_filter'
    | exact length_filter_le'
    | exact nodup_filter'
    | exact TrigSt.accept_timed
    | dsimp only)
theorem State.deliver_keeps {s₀ s : State} (hs₀ : s₀.Keeps s) : s₀.Keeps (State.deliver s) := by
  unfold State.deliver
  repeat (with_reducible first
    | exact hs₀
    | apply State.advance_keeps
    | apply State.bumpWrap_keeps
    | apply State.bump_keeps
    | apply State.eventIf_keeps
    | apply State.requestGlean_keeps
    | apply State.Keeps.ite
    | refine State.Keeps.each ?_ ?_ <;> [(intro u x₁ hs₀; try dsimp only); skip]
    | refine State.Keeps.foldlSnd ?_ ?_ <;> [(intro x₀ x₁ hs₀; try dsimp only); skip]
    | refine State.Keeps.foldl ?_ ?_ <;> [(intro x₀ x₁ hs₀; try dsimp only); skip]
    | split
    | refine State.Keeps.of ?_ (mk_pending ..) (mk_regs ..) ?_ (mk_chans ..) ?_ (mk_tac ..) ?_ (mk_stale ..) ?_
        (mk_tacStaged ..) ?_ (mk_rwsStaged ..) ?_ (mk_frames ..) ?_ (mk_lastCorr ..) ?_ (mk_scrubs ..) ?_
        (mk_mramCorr ..) ?_ (mk_mramTac ..) ?_ (mk_mramTap ..) ?_ (mk_journal ..) ?_ (mk_eventQ ..) ?_ (mk_trig ..)
        ?_
    | exact id
    | exact mapWf_put'
    | exact mapWf_filter'
    | exact mapWf_putFilter
    | exact mapWf_fold
    | exact mapWf_nil'
    | exact mapWf_one
    | exact mapCanon_filter'
    | exact mapCanon_fold
    | exact mapCanon_nil'
    | exact length_filter_le'
    | exact length_take_le'
    | exact nodup_filter'
    | dsimp only)
theorem State.requestResend_keeps {s₀ s : State} (hs₀ : s₀.Keeps s) (first count : Nat) : s₀.Keeps
    (State.requestResend s first count) := by
  unfold State.requestResend
  repeat (with_reducible first
    | exact hs₀
    | apply State.Keeps.ite
    | split
    | refine State.Keeps.of ?_ (mk_pending ..) (mk_regs ..) ?_ (mk_chans ..) ?_ (mk_tac ..) ?_ (mk_stale ..) ?_
        (mk_tacStaged ..) ?_ (mk_rwsStaged ..) ?_ (mk_frames ..) ?_ (mk_lastCorr ..) ?_ (mk_scrubs ..) ?_
        (mk_mramCorr ..) ?_ (mk_mramTac ..) ?_ (mk_mramTap ..) ?_ (mk_journal ..) ?_ (mk_eventQ ..) ?_ (mk_trig ..)
        ?_
    | exact id
    | exact mapWf_one)
theorem State.queueResend_keeps {s₀ s : State} (hs₀ : s₀.Keeps s) (c : Conc) (r : Nat × Nat) : s₀.Keeps
    (State.queueResend s c r) := by
  unfold State.queueResend
  repeat (with_reducible first
    | exact hs₀
    | apply State.setConc_keeps
    | apply State.put_keeps
    | apply State.bump_keeps
    | apply State.event_keeps
    | apply State.Keeps.ite
    | split
    | refine State.Keeps.same (mk_pending ..) (mk_regs ..) (mk_chans ..) (mk_tac ..) (mk_stale ..) (mk_tacStaged ..)
        (mk_rwsStaged ..) (mk_frames ..) (mk_lastCorr ..) (mk_scrubs ..) (mk_mramCorr ..) (mk_mramTac ..)
        (mk_mramTap ..) (mk_journal ..) (mk_eventQ ..) (mk_trig ..) ?_
    | dsimp only)
theorem State.deliverResends_keeps {s₀ s : State} (hs₀ : s₀.Keeps s) : s₀.Keeps (State.deliverResends s) := by
  unfold State.deliverResends
  repeat (with_reducible first
    | exact hs₀
    | apply State.queueResend_keeps
    | refine State.Keeps.each ?_ ?_ <;> [(intro u x₁ hs₀; try dsimp only); skip]
    | refine State.Keeps.of ?_ (mk_pending ..) (mk_regs ..) ?_ (mk_chans ..) ?_ (mk_tac ..) ?_ (mk_stale ..) ?_
        (mk_tacStaged ..) ?_ (mk_rwsStaged ..) ?_ (mk_frames ..) ?_ (mk_lastCorr ..) ?_ (mk_scrubs ..) ?_
        (mk_mramCorr ..) ?_ (mk_mramTac ..) ?_ (mk_mramTap ..) ?_ (mk_journal ..) ?_ (mk_eventQ ..) ?_ (mk_trig ..)
        ?_
    | exact id
    | exact mapWf_nil'
    | exact mapWf_one
    | exact mapCanon_nil')

/-! Dram.lean -/

theorem State.served_keeps {s₀ s : State} (hs₀ : s₀.Keeps s) (c : Conc) (r : DramReq) : s₀.Keeps (State.served s c
    r) := by
  unfold State.served
  repeat (with_reducible first
    | exact hs₀
    | apply State.setConc_keeps
    | refine State.Keeps.same (mk_pending ..) (mk_regs ..) (mk_chans ..) (mk_tac ..) (mk_stale ..) (mk_tacStaged ..)
        (mk_rwsStaged ..) (mk_frames ..) (mk_lastCorr ..) (mk_scrubs ..) (mk_mramCorr ..) (mk_mramTac ..)
        (mk_mramTap ..) (mk_journal ..) (mk_eventQ ..) (mk_trig ..) ?_
    | dsimp only)
theorem State.agePromotion_keeps {s₀ s : State} (hs₀ : s₀.Keeps s) (c : Conc) (shadow : Bool) (cls at_ : Nat) :
    s₀.Keeps (State.agePromotion s c shadow cls at_) := by
  unfold State.agePromotion
  repeat (with_reducible first
    | exact hs₀
    | apply State.advance_keeps
    | apply State.setConc_keeps
    | apply State.bump_keeps
    | apply State.Keeps.ite
    | split
    | refine State.Keeps.same (mk_pending ..) (mk_regs ..) (mk_chans ..) (mk_tac ..) (mk_stale ..) (mk_tacStaged ..)
        (mk_rwsStaged ..) (mk_frames ..) (mk_lastCorr ..) (mk_scrubs ..) (mk_mramCorr ..) (mk_mramTac ..)
        (mk_mramTap ..) (mk_journal ..) (mk_eventQ ..) (mk_trig ..) ?_
    | dsimp only)
theorem State.abortScrub_keeps {s₀ s : State} (hs₀ : s₀.Keeps s) (page : Nat) : s₀.Keeps (State.abortScrub s
    page) := by
  unfold State.abortScrub
  repeat (with_reducible first
    | exact hs₀
    | apply State.putB_keeps
    | apply State.Keeps.ite
    | split
    | refine State.Keeps.of ?_ (mk_pending ..) (mk_regs ..) ?_ (mk_chans ..) ?_ (mk_tac ..) ?_ (mk_stale ..) ?_
        (mk_tacStaged ..) ?_ (mk_rwsStaged ..) ?_ (mk_frames ..) ?_ (mk_lastCorr ..) ?_ (mk_scrubs ..) ?_
        (mk_mramCorr ..) ?_ (mk_mramTac ..) ?_ (mk_mramTap ..) ?_ (mk_journal ..) ?_ (mk_eventQ ..) ?_ (mk_trig ..)
        ?_
    | exact id
    | exact mapWf_del')
theorem State.abortScrubOf_keeps {s₀ s : State} (hs₀ : s₀.Keeps s) (c : Conc) (mem : Nat) : s₀.Keeps
    (State.abortScrubOf s c mem) := by
  unfold State.abortScrubOf
  repeat (with_reducible first | exact hs₀ | apply State.abortScrub_keeps | apply State.Keeps.ite | split)
theorem State.snapshot_keeps {s₀ s : State} (hs₀ : s₀.Keeps s) (c : Conc) (x : FreezeCause) : s₀.Keeps
    (State.snapshot s c x) := by
  unfold State.snapshot
  repeat (with_reducible first | exact hs₀ | apply State.put_keeps | dsimp only)
theorem State.freeze_keeps {s₀ s : State} (hs₀ : s₀.Keeps s) (c : Conc) (x : FreezeCause) : s₀.Keeps (State.freeze s
    c x) := by
  unfold State.freeze
  repeat (with_reducible first
    | exact hs₀
    | apply State.snapshot_keeps
    | apply State.putB_keeps
    | apply State.event_keeps
    | apply State.bump_keeps
    | apply State.abortScrub_keeps
    | apply State.setConc_keeps
    | apply State.sendCross_keeps
    | apply State.checkSwap_keeps
    | apply State.Keeps.ite
    | split
    | refine State.Keeps.same (mk_pending ..) (mk_regs ..) (mk_chans ..) (mk_tac ..) (mk_stale ..) (mk_tacStaged ..)
        (mk_rwsStaged ..) (mk_frames ..) (mk_lastCorr ..) (mk_scrubs ..) (mk_mramCorr ..) (mk_mramTac ..)
        (mk_mramTap ..) (mk_journal ..) (mk_eventQ ..) (mk_trig ..) ?_
    | dsimp only)
theorem State.demandError_keeps {s₀ s : State} (hs₀ : s₀.Keeps s) (c : Conc) (shadow : Bool) (unit cls : Nat) :
    s₀.Keeps (State.demandError s c shadow unit cls) := by
  unfold State.demandError
  repeat (with_reducible first
    | exact hs₀
    | apply State.uncorrectableRead_keeps
    | apply State.draw_keeps
    | apply State.freeze_keeps
    | apply State.setConc_keeps
    | apply State.poisoned_keeps
    | apply State.bump_keeps
    | apply State.event_keeps
    | apply State.Keeps.ite
    | split
    | dsimp only)
theorem State.demandRead_keeps {s₀ s : State} (hs₀ : s₀.Keeps s) (c : Conc) (shadow : Bool) (unit cls : Nat) (read :
    EccRead) : s₀.Keeps (State.demandRead s c shadow unit cls read) := by
  unfold State.demandRead
  repeat (with_reducible first
    | exact hs₀
    | apply State.setConc_keeps
    | apply State.correctedRead_keeps
    | apply State.demandError_keeps
    | split
    | dsimp only)
theorem State.dramFreeze_keeps {s₀ s : State} (hs₀ : s₀.Keeps s) (c : Conc) (parity : Bool) (cmd cls chan bank row
    unit synd : Nat) : s₀.Keeps (State.dramFreeze s c parity cmd cls chan bank row unit synd) := by
  unfold State.dramFreeze
  repeat (with_reducible first
    | exact hs₀
    | apply State.freeze_keeps
    | apply State.uncorrectableRead_keeps
    | apply State.Keeps.ite
    | split)
theorem State.readUnits_keeps {s₀ s : State} (hs₀ : s₀.Keeps s) (c : Conc) (shadow : Bool) (cls : Nat) (reads :
    Reads) (units : List Nat) : s₀.Keeps (State.readUnits s c shadow cls reads units) := by
  unfold State.readUnits
  repeat (with_reducible first
    | exact hs₀
    | apply State.demandRead_keeps
    | apply State.Keeps.ite
    | refine State.Keeps.each ?_ ?_ <;> [(intro u x₁ hs₀; try dsimp only); skip]
    | split)
theorem State.dirRead_keeps {s₀ s : State} (hs₀ : s₀.Keeps s) (c : Conc) (dir cls : Nat) (reads : Reads) : s₀.Keeps
    (State.dirRead s c dir cls reads) := by
  unfold State.dirRead
  repeat (with_reducible first
    | exact hs₀
    | apply State.demandRead_keeps
    | apply State.setConc_keeps
    | apply State.uncorrectableRead_keeps
    | apply State.poisoned_keeps
    | apply State.Keeps.ite
    | split
    | dsimp only)
theorem State.sheafRead_keeps {s₀ s : State} (hs₀ : s₀.Keeps s) (c : Conc) (frame pos n cls : Nat) (reads : Reads) :
    s₀.Keeps (State.sheafRead s c frame pos n cls reads) := by
  unfold State.sheafRead
  repeat (with_reducible first | exact hs₀ | apply State.dirRead_keeps | apply State.readUnits_keeps)
theorem State.setMc_keeps {s₀ s : State} (hs₀ : s₀.Keeps s) (c : Conc) (m : DramSt) : s₀.Keeps (State.setMc s c
    m) := by
  unfold State.setMc
  repeat (with_reducible first
    | exact hs₀
    | apply State.setConc_keeps
    | refine State.Keeps.same (mk_pending ..) (mk_regs ..) (mk_chans ..) (mk_tac ..) (mk_stale ..) (mk_tacStaged ..)
        (mk_rwsStaged ..) (mk_frames ..) (mk_lastCorr ..) (mk_scrubs ..) (mk_mramCorr ..) (mk_mramTac ..)
        (mk_mramTap ..) (mk_journal ..) (mk_eventQ ..) (mk_trig ..) ?_)
theorem State.refreshDue_keeps {s₀ s : State} (hs₀ : s₀.Keeps s) (c : Conc) (chan bank : Nat) : s₀.Keeps
    (State.refreshDue s c chan bank) := by
  unfold State.refreshDue
  repeat (with_reducible first
    | exact hs₀
    | apply State.setMc_keeps
    | apply State.bump_keeps
    | apply State.Keeps.ite
    | split
    | dsimp only)
theorem State.postponedRefresh_keeps {s₀ s : State} (hs₀ : s₀.Keeps s) (c : Conc) (chan bank : Nat) : s₀.Keeps
    (State.postponedRefresh s c chan bank) := by
  unfold State.postponedRefresh
  repeat (with_reducible first | exact hs₀ | apply State.setMc_keeps | apply State.Keeps.ite | split | dsimp only)
theorem State.pageIdleClose_keeps {s₀ s : State} (hs₀ : s₀.Keeps s) (c : Conc) (chan bank : Nat) : s₀.Keeps
    (State.pageIdleClose s c chan bank) := by
  unfold State.pageIdleClose
  repeat (with_reducible first | exact hs₀ | apply State.setMc_keeps | apply State.Keeps.ite | split)
theorem State.turnHot_keeps {s₀ s : State} (hs₀ : s₀.Keeps s) (c : Conc) : s₀.Keeps (State.turnHot s c) := by
  unfold State.turnHot
  repeat (with_reducible first
    | exact hs₀
    | apply State.setMc_keeps
    | apply State.putB_keeps
    | apply State.event_keeps
    | apply State.bump_keeps
    | dsimp only)
theorem State.applyTemp_keeps {s₀ s : State} (hs₀ : s₀.Keeps s) (c : Conc) : s₀.Keeps (State.applyTemp s c) := by
  unfold State.applyTemp
  repeat (with_reducible first
    | exact hs₀
    | apply State.turnHot_keeps
    | apply State.putB_keeps
    | apply State.event_keeps
    | apply State.Keeps.ite
    | split
    | dsimp only)
theorem State.tempSample_keeps {s₀ s : State} (hs₀ : s₀.Keeps s) (c : Conc) (temp : Int) : s₀.Keeps
    (State.tempSample s c temp) := by
  unfold State.tempSample
  repeat (with_reducible first
    | exact hs₀
    | apply State.put_keeps
    | apply State.applyTemp_keeps
    | apply State.Keeps.ite
    | split
    | dsimp only)
theorem State.startChange_keeps {s₀ s : State} (hs₀ : s₀.Keeps s) (c : Conc) (p : Nat) : s₀.Keeps (State.startChange
    s c p) := by
  unfold State.startChange
  repeat (with_reducible first
    | exact hs₀
    | apply State.setMc_keeps
    | apply State.putB_keeps
    | apply State.Keeps.ite
    | split
    | refine State.Keeps.same (mk_pending ..) (mk_regs ..) (mk_chans ..) (mk_tac ..) (mk_stale ..) (mk_tacStaged ..)
        (mk_rwsStaged ..) (mk_frames ..) (mk_lastCorr ..) (mk_scrubs ..) (mk_mramCorr ..) (mk_mramTac ..)
        (mk_mramTap ..) (mk_journal ..) (mk_eventQ ..) (mk_trig ..) ?_)
theorem State.demandWindow_keeps {s₀ s : State} (hs₀ : s₀.Keeps s) (c : Conc) (rb sb : Nat) : s₀.Keeps
    (State.demandWindow s c rb sb) := by
  unfold State.demandWindow
  repeat (with_reducible first
    | exact hs₀
    | apply State.setMc_keeps
    | apply State.startChange_keeps
    | apply State.Keeps.ite
    | split
    | refine State.Keeps.same (mk_pending ..) (mk_regs ..) (mk_chans ..) (mk_tac ..) (mk_stale ..) (mk_tacStaged ..)
        (mk_rwsStaged ..) (mk_frames ..) (mk_lastCorr ..) (mk_scrubs ..) (mk_mramCorr ..) (mk_mramTac ..)
        (mk_mramTap ..) (mk_journal ..) (mk_eventQ ..) (mk_trig ..) ?_
    | dsimp only)
theorem State.pinPoint_keeps {s₀ s : State} (hs₀ : s₀.Keeps s) (c : Conc) : s₀.Keeps (State.pinPoint s c) := by
  unfold State.pinPoint
  repeat (with_reducible first
    | exact hs₀
    | apply State.setMc_keeps
    | apply State.startChange_keeps
    | apply State.Keeps.ite
    | split
    | refine State.Keeps.same (mk_pending ..) (mk_regs ..) (mk_chans ..) (mk_tac ..) (mk_stale ..) (mk_tacStaged ..)
        (mk_rwsStaged ..) (mk_frames ..) (mk_lastCorr ..) (mk_scrubs ..) (mk_mramCorr ..) (mk_mramTac ..)
        (mk_mramTap ..) (mk_journal ..) (mk_eventQ ..) (mk_trig ..) ?_
    | dsimp only)
theorem State.setTrain_keeps {s₀ s : State} (hs₀ : s₀.Keeps s) (c : Conc) (chan v : Nat) : s₀.Keeps (State.setTrain
    s c chan v) := by
  unfold State.setTrain
  repeat (with_reducible first
    | exact hs₀
    | apply State.put_keeps
    | refine State.Keeps.same (mk_pending ..) (mk_regs ..) (mk_chans ..) (mk_tac ..) (mk_stale ..) (mk_tacStaged ..)
        (mk_rwsStaged ..) (mk_frames ..) (mk_lastCorr ..) (mk_scrubs ..) (mk_mramCorr ..) (mk_mramTac ..)
        (mk_mramTap ..) (mk_journal ..) (mk_eventQ ..) (mk_trig ..) ?_
    | dsimp only)
theorem State.trained_keeps {s₀ s : State} (hs₀ : s₀.Keeps s) (c : Conc) (chan : Nat) : s₀.Keeps (State.trained s c
    chan) := by
  unfold State.trained
  repeat (with_reducible first
    | exact hs₀
    | apply State.setMc_keeps
    | apply State.put_keeps
    | apply State.bump_keeps
    | refine State.Keeps.same (mk_pending ..) (mk_regs ..) (mk_chans ..) (mk_tac ..) (mk_stale ..) (mk_tacStaged ..)
        (mk_rwsStaged ..) (mk_frames ..) (mk_lastCorr ..) (mk_scrubs ..) (mk_mramCorr ..) (mk_mramTac ..)
        (mk_mramTap ..) (mk_journal ..) (mk_eventQ ..) (mk_trig ..) ?_
    | dsimp only)
theorem State.setPoint_keeps {s₀ s : State} (hs₀ : s₀.Keeps s) (c : Conc) (p chan v : Nat) : s₀.Keeps
    (State.setPoint s c p chan v) := by
  unfold State.setPoint
  repeat (with_reducible first
    | exact hs₀
    | apply State.setMc_keeps
    | apply State.setTrain_keeps
    | refine State.Keeps.same (mk_pending ..) (mk_regs ..) (mk_chans ..) (mk_tac ..) (mk_stale ..) (mk_tacStaged ..)
        (mk_rwsStaged ..) (mk_frames ..) (mk_lastCorr ..) (mk_scrubs ..) (mk_mramCorr ..) (mk_mramTac ..)
        (mk_mramTap ..) (mk_journal ..) (mk_eventQ ..) (mk_trig ..) ?_)
theorem State.setDegraded_keeps {s₀ s : State} (hs₀ : s₀.Keeps s) (c : Conc) (chan : Nat) (b : Bool) : s₀.Keeps
    (State.setDegraded s c chan b) := by
  unfold State.setDegraded
  repeat (with_reducible first
    | exact hs₀
    | apply State.putB_keeps
    | refine State.Keeps.same (mk_pending ..) (mk_regs ..) (mk_chans ..) (mk_tac ..) (mk_stale ..) (mk_tacStaged ..)
        (mk_rwsStaged ..) (mk_frames ..) (mk_lastCorr ..) (mk_scrubs ..) (mk_mramCorr ..) (mk_mramTac ..)
        (mk_mramTap ..) (mk_journal ..) (mk_eventQ ..) (mk_trig ..) ?_)
theorem State.trainFailed_keeps {s₀ s : State} (hs₀ : s₀.Keeps s) (c : Conc) (chan : Nat) : s₀.Keeps
    (State.trainFailed s c chan) := by
  unfold State.trainFailed
  repeat (with_reducible first
    | exact hs₀
    | apply State.setDegraded_keeps
    | apply State.event_keeps
    | apply State.bump_keeps
    | apply State.trained_keeps)
theorem State.trainAll_keeps {s₀ s : State} (hs₀ : s₀.Keeps s) (c : Conc) (p : Nat) : s₀.Keeps (State.trainAll s c
    p) := by
  unfold State.trainAll
  repeat (with_reducible first
    | exact hs₀
    | apply State.setMc_keeps
    | apply State.draw_keeps
    | apply State.setTrain_keeps
    | apply State.trainFailed_keeps
    | apply State.setPoint_keeps
    | apply State.trained_keeps
    | apply State.Keeps.ite
    | refine State.Keeps.each ?_ ?_ <;> [(intro u x₁ hs₀; try dsimp only); skip]
    | split
    | refine State.Keeps.same (mk_pending ..) (mk_regs ..) (mk_chans ..) (mk_tac ..) (mk_stale ..) (mk_tacStaged ..)
        (mk_rwsStaged ..) (mk_frames ..) (mk_lastCorr ..) (mk_scrubs ..) (mk_mramCorr ..) (mk_mramTac ..)
        (mk_mramTap ..) (mk_journal ..) (mk_eventQ ..) (mk_trig ..) ?_
    | dsimp only)
theorem State.trainStart_keeps {s₀ s : State} (hs₀ : s₀.Keeps s) (c : Conc) : s₀.Keeps (State.trainStart s c) := by
  unfold State.trainStart
  repeat (with_reducible first
    | exact hs₀
    | apply State.trainAll_keeps
    | apply State.put_keeps
    | refine State.Keeps.foldlSnd ?_ ?_ <;> [(intro x₀ x₁ hs₀; try dsimp only); skip]
    | refine State.Keeps.foldl ?_ ?_ <;> [(intro x₀ x₁ hs₀; try dsimp only); skip])
theorem State.bufferedUnit_keeps {s₀ s : State} (hs₀ : s₀.Keeps s) (c : Conc) (shadow : Bool) (unit place : Nat)
    (read : EccRead) : s₀.Keeps (State.bufferedUnit s c shadow unit place read) := by
  unfold State.bufferedUnit
  repeat (with_reducible first
    | exact hs₀
    | apply State.setConc_keeps
    | apply State.countRead_keeps
    | apply State.poisoned_keeps
    | apply State.Keeps.ite
    | split
    | dsimp only)
theorem State.issueBuffered_keeps {s₀ s : State} (hs₀ : s₀.Keeps s) (c : Conc) (reads : Reads) : s₀.Keeps
    (State.issueBuffered s c reads) := by
  unfold State.issueBuffered
  repeat (with_reducible first
    | exact hs₀
    | apply State.setMc_keeps
    | apply State.bufferedUnit_keeps
    | apply State.showWbuf_keeps
    | refine State.Keeps.each ?_ ?_ <;> [(intro u x₁ hs₀; try dsimp only); skip]
    | refine State.Keeps.same (mk_pending ..) (mk_regs ..) (mk_chans ..) (mk_tac ..) (mk_stale ..) (mk_tacStaged ..)
        (mk_rwsStaged ..) (mk_frames ..) (mk_lastCorr ..) (mk_scrubs ..) (mk_mramCorr ..) (mk_mramTac ..)
        (mk_mramTap ..) (mk_journal ..) (mk_eventQ ..) (mk_trig ..) ?_
    | dsimp only)
theorem State.freqChangeDone_keeps {s₀ s : State} (hs₀ : s₀.Keeps s) (c : Conc) (reads : Reads) : s₀.Keeps
    (State.freqChangeDone s c reads) := by
  unfold State.freqChangeDone
  repeat (with_reducible first
    | exact hs₀
    | apply State.put_keeps
    | apply State.putB_keeps
    | apply State.setMc_keeps
    | apply State.bump_keeps
    | apply State.event_keeps
    | apply State.trainAll_keeps
    | apply State.issueBuffered_keeps
    | apply State.applyTemp_keeps
    | apply State.pinPoint_keeps
    | apply State.Keeps.ite
    | split
    | refine State.Keeps.same (mk_pending ..) (mk_regs ..) (mk_chans ..) (mk_tac ..) (mk_stale ..) (mk_tacStaged ..)
        (mk_rwsStaged ..) (mk_frames ..) (mk_lastCorr ..) (mk_scrubs ..) (mk_mramCorr ..) (mk_mramTac ..)
        (mk_mramTap ..) (mk_journal ..) (mk_eventQ ..) (mk_trig ..) ?_
    | dsimp only)
theorem State.retrained_keeps {s₀ s : State} (hs₀ : s₀.Keeps s) (c : Conc) (chan : Nat) (setting : Option (BitVec
    24)) : s₀.Keeps (State.retrained s c chan setting) := by
  unfold State.retrained
  repeat (with_reducible first
    | exact hs₀
    | apply State.setPoint_keeps
    | apply State.setDegraded_keeps
    | apply State.trained_keeps
    | apply State.trainFailed_keeps
    | split)
theorem State.waitedChange_keeps {s₀ s : State} (hs₀ : s₀.Keeps s) (c : Conc) : s₀.Keeps (State.waitedChange s
    c) := by
  unfold State.waitedChange
  repeat (with_reducible first | exact hs₀ | apply State.startChange_keeps | split)
theorem State.retrainDue_keeps {s₀ s : State} (hs₀ : s₀.Keeps s) (c : Conc) (chan : Nat) (setting : Option (BitVec
    24)) : s₀.Keeps (State.retrainDue s c chan setting) := by
  unfold State.retrainDue
  repeat (with_reducible first
    | exact hs₀
    | apply State.retrained_keeps
    | apply State.waitedChange_keeps
    | apply State.Keeps.ite
    | split)
theorem State.showRetired_keeps {s₀ s : State} (hs₀ : s₀.Keeps s) (c : Conc) : s₀.Keeps (State.showRetired s c) := by
  unfold State.showRetired
  repeat (with_reducible first | exact hs₀ | apply State.putB_keeps | apply State.put_keeps | split | dsimp only)
theorem State.skipUnsent_keeps {s₀ s : State} (hs₀ : s₀.Keeps s) (c : Conc) (n : Nat) : s₀.Keeps (State.skipUnsent s
    c n) := by
  unfold State.skipUnsent
  repeat (with_reducible first | exact hs₀ | apply State.bump_keeps)
theorem State.showReplayFrom_keeps {s₀ s : State} (hs₀ : s₀.Keeps s) (c : Conc) (f : Nat) : s₀.Keeps
    (State.showReplayFrom s c f) := by
  unfold State.showReplayFrom
  repeat (with_reducible first | exact hs₀ | apply State.put_keeps)
theorem State.showShadowFrom_keeps {s₀ s : State} (hs₀ : s₀.Keeps s) (c : Conc) (f : Nat) : s₀.Keeps
    (State.showShadowFrom s c f) := by
  unfold State.showShadowFrom
  repeat (with_reducible first | exact hs₀ | apply State.put_keeps)
theorem State.skipToBoundary_keeps {s₀ s : State} (hs₀ : s₀.Keeps s) (c : Conc) : s₀.Keeps (State.skipToBoundary s
    c) := by
  unfold State.skipToBoundary
  repeat (with_reducible first
    | exact hs₀
    | apply State.skipUnsent_keeps
    | apply State.setConc_keeps
    | apply State.showReplayFrom_keeps
    | apply State.modeReturn_keeps
    | apply State.showBacklog_keeps
    | refine State.Keeps.same (mk_pending ..) (mk_regs ..) (mk_chans ..) (mk_tac ..) (mk_stale ..) (mk_tacStaged ..)
        (mk_rwsStaged ..) (mk_frames ..) (mk_lastCorr ..) (mk_scrubs ..) (mk_mramCorr ..) (mk_mramTac ..)
        (mk_mramTap ..) (mk_journal ..) (mk_eventQ ..) (mk_trig ..) ?_
    | dsimp only)
theorem State.retire_keeps {s₀ s : State} (hs₀ : s₀.Keeps s) (c : Conc) (chan : Nat) : s₀.Keeps (State.retire s c
    chan) := by
  unfold State.retire
  repeat (with_reducible first
    | exact hs₀
    | apply State.setMc_keeps
    | apply State.setConc_keeps
    | apply State.showRetired_keeps
    | apply State.skipToBoundary_keeps
    | apply State.abortScrubOf_keeps
    | apply State.event_keeps
    | apply State.showShadowFrom_keeps
    | apply State.Keeps.ite
    | split
    | refine State.Keeps.same (mk_pending ..) (mk_regs ..) (mk_chans ..) (mk_tac ..) (mk_stale ..) (mk_tacStaged ..)
        (mk_rwsStaged ..) (mk_frames ..) (mk_lastCorr ..) (mk_scrubs ..) (mk_mramCorr ..) (mk_mramTac ..)
        (mk_mramTap ..) (mk_journal ..) (mk_eventQ ..) (mk_trig ..) ?_
    | dsimp only)
theorem State.retireOrDeny_keeps {s₀ s : State} (hs₀ : s₀.Keeps s) (c : Conc) (chan : Nat) : s₀.Keeps
    (State.retireOrDeny s c chan) := by
  unfold State.retireOrDeny
  repeat (with_reducible first
    | exact hs₀
    | apply State.event_keeps
    | apply State.retire_keeps
    | apply State.Keeps.ite
    | split)
theorem State.channelRetire_keeps {s₀ s : State} (hs₀ : s₀.Keeps s) (c : Conc) (chan : Nat) : s₀.Keeps
    (State.channelRetire s c chan) := by
  unfold State.channelRetire
  repeat (with_reducible first
    | exact hs₀
    | apply State.setMc_keeps
    | apply State.retireOrDeny_keeps
    | apply State.Keeps.ite
    | split
    | refine State.Keeps.same (mk_pending ..) (mk_regs ..) (mk_chans ..) (mk_tac ..) (mk_stale ..) (mk_tacStaged ..)
        (mk_rwsStaged ..) (mk_frames ..) (mk_lastCorr ..) (mk_scrubs ..) (mk_mramCorr ..) (mk_mramTac ..)
        (mk_mramTap ..) (mk_journal ..) (mk_eventQ ..) (mk_trig ..) ?_
    | dsimp only)
theorem State.releaseFreeze_keeps {s₀ s : State} (hs₀ : s₀.Keeps s) (c : Conc) : s₀.Keeps (State.releaseFreeze s
    c) := by
  unfold State.releaseFreeze
  repeat (with_reducible first
    | exact hs₀
    | apply State.retireOrDeny_keeps
    | apply State.putB_keeps
    | apply State.setConc_keeps
    | apply State.checkSwap_keeps
    | apply State.Keeps.ite
    | refine State.Keeps.each ?_ ?_ <;> [(intro u x₁ hs₀; try dsimp only); skip]
    | split
    | refine State.Keeps.same (mk_pending ..) (mk_regs ..) (mk_chans ..) (mk_tac ..) (mk_stale ..) (mk_tacStaged ..)
        (mk_rwsStaged ..) (mk_frames ..) (mk_lastCorr ..) (mk_scrubs ..) (mk_mramCorr ..) (mk_mramTac ..)
        (mk_mramTap ..) (mk_journal ..) (mk_eventQ ..) (mk_trig ..) ?_
    | dsimp only)
theorem State.startHostRead_keeps {s₀ s : State} (hs₀ : s₀.Keeps s) (c : Conc) : s₀.Keeps (State.startHostRead s
    c) := by
  unfold State.startHostRead
  repeat (with_reducible first
    | exact hs₀
    | apply State.setConc_keeps
    | apply State.putB_keeps
    | apply State.Keeps.ite
    | split
    | refine State.Keeps.same (mk_pending ..) (mk_regs ..) (mk_chans ..) (mk_tac ..) (mk_stale ..) (mk_tacStaged ..)
        (mk_rwsStaged ..) (mk_frames ..) (mk_lastCorr ..) (mk_scrubs ..) (mk_mramCorr ..) (mk_mramTac ..)
        (mk_mramTap ..) (mk_journal ..) (mk_eventQ ..) (mk_trig ..) ?_)
theorem State.hostResult_keeps {s₀ s : State} (hs₀ : s₀.Keeps s) (c : Conc) (poison : Bool) (v : BitVec 256) :
    s₀.Keeps (State.hostResult s c poison v) := by
  unfold State.hostResult
  repeat (with_reducible first
    | exact hs₀
    | apply State.put_keeps
    | apply State.putB_keeps
    | apply State.Keeps.ite
    | refine State.Keeps.each ?_ ?_ <;> [(intro u x₁ hs₀; try dsimp only); skip]
    | split
    | dsimp only)
theorem State.hostUnit_keeps {s₀ s : State} (hs₀ : s₀.Keeps s) (c : Conc) (h : HostRead) (read : EccRead) : s₀.Keeps
    (State.hostUnit s c h read) := by
  unfold State.hostUnit
  repeat (with_reducible first
    | exact hs₀
    | apply State.setConc_keeps
    | apply State.uncorrectableRead_keeps
    | apply State.poisoned_keeps
    | apply State.bump_keeps
    | apply State.hostResult_keeps
    | apply State.countRead_keeps
    | apply State.Keeps.ite
    | split
    | dsimp only)
theorem State.hostReadDone_keeps {s₀ s : State} (hs₀ : s₀.Keeps s) (c : Conc) (read : EccRead) : s₀.Keeps
    (State.hostReadDone s c read) := by
  unfold State.hostReadDone
  repeat (with_reducible first
    | exact hs₀
    | apply State.setConc_keeps
    | apply State.served_keeps
    | apply State.hostUnit_keeps
    | apply State.draw_keeps
    | apply State.hostResult_keeps
    | apply State.Keeps.ite
    | split
    | refine State.Keeps.same (mk_pending ..) (mk_regs ..) (mk_chans ..) (mk_tac ..) (mk_stale ..) (mk_tacStaged ..)
        (mk_rwsStaged ..) (mk_frames ..) (mk_lastCorr ..) (mk_scrubs ..) (mk_mramCorr ..) (mk_mramTac ..)
        (mk_mramTap ..) (mk_journal ..) (mk_eventQ ..) (mk_trig ..) ?_
    | dsimp only)

/-! Glean.lean -/

theorem State.countGlean_keeps {s₀ s : State} (hs₀ : s₀.Keeps s) (c : Conc) (g : Glean) : s₀.Keeps (State.countGlean
    s c g) := by
  unfold State.countGlean
  repeat (with_reducible first
    | exact hs₀
    | apply State.bump_keeps
    | apply State.bump64_keeps
    | apply State.event_keeps
    | apply State.Keeps.ite
    | split
    | dsimp only)
theorem State.formGlean_keeps {s₀ s : State} (hs₀ : s₀.Keeps s) (c : Conc) (g : Glean) (onDie : Reads) : s₀.Keeps
    (State.formGlean s c g onDie) := by
  unfold State.formGlean
  repeat (with_reducible first
    | exact hs₀
    | apply State.setConc_keeps
    | apply State.put_keeps
    | apply State.putB_keeps
    | apply State.countGlean_keeps
    | apply State.Keeps.ite
    | split
    | refine State.Keeps.same (mk_pending ..) (mk_regs ..) (mk_chans ..) (mk_tac ..) (mk_stale ..) (mk_tacStaged ..)
        (mk_rwsStaged ..) (mk_frames ..) (mk_lastCorr ..) (mk_scrubs ..) (mk_mramCorr ..) (mk_mramTac ..)
        (mk_mramTap ..) (mk_journal ..) (mk_eventQ ..) (mk_trig ..) ?_
    | dsimp only)
theorem State.gleanReads_keeps {s₀ s : State} (hs₀ : s₀.Keeps s) (c : Conc) (g : Glean) (n : Nat) (reads :
    GleanReads) : s₀.Keeps (State.gleanReads s c g n reads) := by
  unfold State.gleanReads
  repeat (with_reducible first
    | exact hs₀
    | apply State.readUnits_keeps
    | apply State.countRead_keeps
    | apply State.Keeps.ite
    | refine State.Keeps.each ?_ ?_ <;> [(intro u x₁ hs₀; try dsimp only); skip]
    | split
    | dsimp only)
theorem State.gleanForm_keeps {s₀ s : State} (hs₀ : s₀.Keeps s) (c : Conc) (reads : GleanReads) (at_ : Nat) :
    s₀.Keeps (State.gleanForm s c reads at_) := by
  unfold State.gleanForm
  repeat (with_reducible first
    | exact hs₀
    | apply State.advance_keeps
    | apply State.gleanReads_keeps
    | apply State.served_keeps
    | apply State.formGlean_keeps
    | apply State.Keeps.ite
    | split
    | dsimp only)
theorem State.showResend_keeps {s₀ s : State} (hs₀ : s₀.Keeps s) (c : Conc) : s₀.Keeps (State.showResend s c) := by
  unfold State.showResend
  repeat (with_reducible first | exact hs₀ | apply State.put_keeps | apply State.putB_keeps | split | dsimp only)
theorem State.resendSheaf_keeps {s₀ s : State} (hs₀ : s₀.Keeps s) (c : Conc) (reads : Reads) (at_ : Nat) : s₀.Keeps
    (State.resendSheaf s c reads at_) := by
  unfold State.resendSheaf
  repeat (with_reducible first
    | exact hs₀
    | apply State.advance_keeps
    | apply State.sheafRead_keeps
    | apply State.served_keeps
    | apply State.setConc_keeps
    | apply State.showResend_keeps
    | apply State.bump_keeps
    | apply State.Keeps.ite
    | split
    | refine State.Keeps.same (mk_pending ..) (mk_regs ..) (mk_chans ..) (mk_tac ..) (mk_stale ..) (mk_tacStaged ..)
        (mk_rwsStaged ..) (mk_frames ..) (mk_lastCorr ..) (mk_scrubs ..) (mk_mramCorr ..) (mk_mramTac ..)
        (mk_mramTap ..) (mk_journal ..) (mk_eventQ ..) (mk_trig ..) ?_
    | dsimp only)

/-! Scrub.lean -/

theorem State.clearSummary_keeps {s₀ s : State} (hs₀ : s₀.Keeps s) (page : Nat) : s₀.Keeps (State.clearSummary s
    page) := by
  unfold State.clearSummary
  repeat (with_reducible first | exact hs₀ | apply State.put_keeps)
theorem State.scrubGo_keeps {s₀ s : State} (hs₀ : s₀.Keeps s) (p : IntPage) : s₀.Keeps (State.scrubGo s p) := by
  unfold State.scrubGo
  repeat (with_reducible first
    | exact hs₀
    | apply State.clearSummary_keeps
    | apply State.putB_keeps
    | apply State.Keeps.ite
    | split
    | refine State.Keeps.of ?_ (mk_pending ..) (mk_regs ..) ?_ (mk_chans ..) ?_ (mk_tac ..) ?_ (mk_stale ..) ?_
        (mk_tacStaged ..) ?_ (mk_rwsStaged ..) ?_ (mk_frames ..) ?_ (mk_lastCorr ..) ?_ (mk_scrubs ..) ?_
        (mk_mramCorr ..) ?_ (mk_mramTac ..) ?_ (mk_mramTap ..) ?_ (mk_journal ..) ?_ (mk_eventQ ..) ?_ (mk_trig ..)
        ?_
    | exact id
    | exact mapWf_put'
    | dsimp only)
theorem State.noteFail_keeps {s₀ s : State} (hs₀ : s₀.Keeps s) (page addr : Nat) : s₀.Keeps (State.noteFail s page
    addr) := by
  unfold State.noteFail
  repeat (with_reducible first
    | exact hs₀
    | apply State.put_keeps
    | apply State.putB_keeps
    | apply State.Keeps.ite
    | split
    | dsimp only)
theorem State.rememberWriteBack_keeps {s₀ s : State} (hs₀ : s₀.Keeps s) (page r addr : Nat) : s₀.Keeps
    (State.rememberWriteBack s page r addr) := by
  unfold State.rememberWriteBack
  repeat (with_reducible first
    | exact hs₀
    | refine State.Keeps.same (mk_pending ..) (mk_regs ..) (mk_chans ..) (mk_tac ..) (mk_stale ..) (mk_tacStaged ..)
        (mk_rwsStaged ..) (mk_frames ..) (mk_lastCorr ..) (mk_scrubs ..) (mk_mramCorr ..) (mk_mramTac ..)
        (mk_mramTap ..) (mk_journal ..) (mk_eventQ ..) (mk_trig ..) ?_
    | dsimp only)
theorem State.scrubPoison_keeps {s₀ s : State} (hs₀ : s₀.Keeps s) (p : IntPage) (mem addr : Nat) : s₀.Keeps
    (State.scrubPoison s p mem addr) := by
  unfold State.scrubPoison
  repeat (with_reducible first
    | exact hs₀
    | apply State.poisonEntry_keeps
    | apply State.setConc_keeps
    | apply State.poisoned_keeps
    | apply State.poisonTac_keeps
    | apply State.poisonJournal_keeps
    | apply State.restartCore_keeps
    | apply State.poisonMram_keeps
    | apply State.Keeps.ite
    | split)
theorem State.scrubOpens_keeps {s₀ s : State} (hs₀ : s₀.Keeps s) (p : IntPage) (mem addr : Nat) : s₀.Keeps
    (State.scrubOpens s p mem addr) := by
  unfold State.scrubOpens
  repeat (with_reducible first | exact hs₀ | apply State.setConc_keeps | apply State.Keeps.ite | split)
theorem State.scrubRead_keeps {s₀ s : State} (hs₀ : s₀.Keeps s) (p : IntPage) (mem addr : Nat) (x : ScrubRead) :
    s₀.Keeps (State.scrubRead s p mem addr x) := by
  unfold State.scrubRead
  repeat (with_reducible first
    | exact hs₀
    | apply State.scrubOpens_keeps
    | apply State.correctedRead_keeps
    | apply State.noteFail_keeps
    | apply State.put_keeps
    | apply State.rememberWriteBack_keeps
    | apply State.countCorrected_keeps
    | apply State.markSticky_keeps
    | apply State.uncorrectableRead_keeps
    | apply State.scrubPoison_keeps
    | apply State.Keeps.ite
    | split
    | dsimp only)
theorem State.scrubEnd_keeps {s₀ s : State} (hs₀ : s₀.Keeps s) (page : Nat) : s₀.Keeps (State.scrubEnd s page) := by
  unfold State.scrubEnd
  repeat (with_reducible first
    | exact hs₀
    | apply State.putB_keeps
    | apply State.event_keeps
    | refine State.Keeps.of ?_ (mk_pending ..) (mk_regs ..) ?_ (mk_chans ..) ?_ (mk_tac ..) ?_ (mk_stale ..) ?_
        (mk_tacStaged ..) ?_ (mk_rwsStaged ..) ?_ (mk_frames ..) ?_ (mk_lastCorr ..) ?_ (mk_scrubs ..) ?_
        (mk_mramCorr ..) ?_ (mk_mramTac ..) ?_ (mk_mramTap ..) ?_ (mk_journal ..) ?_ (mk_eventQ ..) ?_ (mk_trig ..)
        ?_
    | exact id
    | exact mapWf_del')
theorem State.scrubServed_keeps {s₀ s : State} (hs₀ : s₀.Keeps s) (p : IntPage) (mem : Nat) : s₀.Keeps
    (State.scrubServed s p mem) := by
  unfold State.scrubServed
  repeat (with_reducible first | exact hs₀ | apply State.served_keeps | apply State.Keeps.ite | split)
theorem State.scrubWord_keeps {s₀ s : State} (hs₀ : s₀.Keeps s) (p : IntPage) (read : ScrubRead) (at_ : Nat) :
    s₀.Keeps (State.scrubWord s p read at_) := by
  unfold State.scrubWord
  repeat (with_reducible first
    | exact hs₀
    | apply State.advance_keeps
    | apply State.scrubServed_keeps
    | apply State.scrubRead_keeps
    | apply State.put_keeps
    | apply State.scrubEnd_keeps
    | apply State.Keeps.ite
    | split
    | refine State.Keeps.of ?_ (mk_pending ..) (mk_regs ..) ?_ (mk_chans ..) ?_ (mk_tac ..) ?_ (mk_stale ..) ?_
        (mk_tacStaged ..) ?_ (mk_rwsStaged ..) ?_ (mk_frames ..) ?_ (mk_lastCorr ..) ?_ (mk_scrubs ..) ?_
        (mk_mramCorr ..) ?_ (mk_mramTac ..) ?_ (mk_mramTap ..) ?_ (mk_journal ..) ?_ (mk_eventQ ..) ?_ (mk_trig ..)
        ?_
    | exact id
    | exact mapWf_put'
    | dsimp only)
theorem State.bucketLeak_keeps {s₀ s : State} (hs₀ : s₀.Keeps s) (p : IntPage) (r at_ : Nat) : s₀.Keeps
    (State.bucketLeak s p r at_) := by
  unfold State.bucketLeak
  repeat (with_reducible first
    | exact hs₀
    | apply State.advance_keeps
    | apply State.put_keeps
    | apply State.Keeps.ite
    | split
    | refine State.Keeps.same (mk_pending ..) (mk_regs ..) (mk_chans ..) (mk_tac ..) (mk_stale ..) (mk_tacStaged ..)
        (mk_rwsStaged ..) (mk_frames ..) (mk_lastCorr ..) (mk_scrubs ..) (mk_mramCorr ..) (mk_mramTac ..)
        (mk_mramTap ..) (mk_journal ..) (mk_eventQ ..) (mk_trig ..) ?_
    | dsimp only)
theorem State.threshChanged_keeps {s₀ s : State} (hs₀ : s₀.Keeps s) (page r : Nat) : s₀.Keeps (State.threshChanged s
    page r) := by
  unfold State.threshChanged
  repeat (with_reducible first | exact hs₀ | apply State.eventIf_keeps)
theorem State.tmrRefresh_keeps {s₀ s : State} (hs₀ : s₀.Keeps s) (d : Die) (regs : List (BitVec 28)) : s₀.Keeps
    (State.tmrRefresh s d regs) := by
  unfold State.tmrRefresh
  repeat (with_reducible first
    | exact hs₀
    | apply State.countCorrected_keeps
    | apply State.Keeps.ite
    | refine State.Keeps.each ?_ ?_ <;> [(intro u x₁ hs₀; try dsimp only); skip]
    | split
    | dsimp only)
theorem State.faultClr_keeps {s₀ s : State} (hs₀ : s₀.Keeps s) (page : Nat) : s₀.Keeps (State.faultClr s page) := by
  unfold State.faultClr
  repeat (with_reducible first
    | exact hs₀
    | apply State.put_keeps
    | apply State.showRemap_keeps
    | apply State.Keeps.ite
    | refine State.Keeps.each ?_ ?_ <;> [(intro u x₁ hs₀; try dsimp only); skip]
    | split)

/-! Lanes.lean -/

theorem State.putLaneBit_keeps {s₀ s : State} (hs₀ : s₀.Keeps s) (c : Conc) (lo hi : FieldRef) (l : Nat) (b : Bool)
    : s₀.Keeps (State.putLaneBit s c lo hi l b) := by
  unfold State.putLaneBit
  repeat (with_reducible first | exact hs₀ | apply State.putB_keeps | apply State.Keeps.ite | split)
theorem State.putLaneState_keeps {s₀ s : State} (hs₀ : s₀.Keeps s) (c : Conc) (l st : Nat) : s₀.Keeps
    (State.putLaneState s c l st) := by
  unfold State.putLaneState
  repeat (with_reducible first | exact hs₀ | apply State.put_keeps)
theorem State.showLane_keeps {s₀ s : State} (hs₀ : s₀.Keeps s) (c : Conc) (l : Nat) : s₀.Keeps (State.showLane s c
    l) := by
  unfold State.showLane
  repeat (with_reducible first | exact hs₀ | apply State.putB_keeps | apply State.putLaneBit_keeps | dsimp only)
theorem State.showDriving_keeps {s₀ s : State} (hs₀ : s₀.Keeps s) (c : Conc) : s₀.Keeps (State.showDriving s c) := by
  unfold State.showDriving
  repeat (with_reducible first | exact hs₀ | apply State.putB_keeps)
theorem State.forceIdle_keeps {s₀ s : State} (hs₀ : s₀.Keeps s) (c : Conc) : s₀.Keeps (State.forceIdle s c) := by
  unfold State.forceIdle
  repeat (with_reducible first
    | exact hs₀
    | apply State.putLaneState_keeps
    | apply State.setConc_keeps
    | apply State.Keeps.ite
    | refine State.Keeps.each ?_ ?_ <;> [(intro u x₁ hs₀; try dsimp only); skip]
    | split
    | refine State.Keeps.same (mk_pending ..) (mk_regs ..) (mk_chans ..) (mk_tac ..) (mk_stale ..) (mk_tacStaged ..)
        (mk_rwsStaged ..) (mk_frames ..) (mk_lastCorr ..) (mk_scrubs ..) (mk_mramCorr ..) (mk_mramTac ..)
        (mk_mramTap ..) (mk_journal ..) (mk_eventQ ..) (mk_trig ..) ?_
    | dsimp only)
theorem State.laneExit_keeps {s₀ s : State} (hs₀ : s₀.Keeps s) (c : Conc) (l at_ : Nat) : s₀.Keeps (State.laneExit s
    c l at_) := by
  unfold State.laneExit
  repeat (with_reducible first
    | exact hs₀
    | apply State.advance_keeps
    | apply State.putLaneState_keeps
    | apply State.setConc_keeps
    | apply State.bump_keeps
    | apply State.Keeps.ite
    | split
    | refine State.Keeps.same (mk_pending ..) (mk_regs ..) (mk_chans ..) (mk_tac ..) (mk_stale ..) (mk_tacStaged ..)
        (mk_rwsStaged ..) (mk_frames ..) (mk_lastCorr ..) (mk_scrubs ..) (mk_mramCorr ..) (mk_mramTac ..)
        (mk_mramTap ..) (mk_journal ..) (mk_eventQ ..) (mk_trig ..) ?_
    | dsimp only)
theorem State.laneFault_keeps {s₀ s : State} (hs₀ : s₀.Keeps s) (c : Conc) (l : Nat) (pll : Bool) : s₀.Keeps
    (State.laneFault s c l pll) := by
  unfold State.laneFault
  repeat (with_reducible first
    | exact hs₀
    | apply State.putB_keeps
    | apply State.putLaneBit_keeps
    | apply State.showLane_keeps
    | apply State.bump_keeps
    | apply State.event_keeps
    | apply State.eventIf_keeps
    | apply State.Keeps.ite
    | split
    | dsimp only)
theorem State.laneFaultEnd_keeps {s₀ s : State} (hs₀ : s₀.Keeps s) (c : Conc) (l : Nat) : s₀.Keeps
    (State.laneFaultEnd s c l) := by
  unfold State.laneFaultEnd
  repeat (with_reducible first
    | exact hs₀
    | apply State.putB_keeps
    | apply State.putLaneBit_keeps
    | apply State.showLane_keeps
    | apply State.Keeps.ite
    | split
    | dsimp only)
theorem State.startLanes_keeps {s₀ s : State} (hs₀ : s₀.Keeps s) (c : Conc) (board : Nat) (table : Option (List
    Word)) : s₀.Keeps (State.startLanes s c board table) := by
  unfold State.startLanes
  repeat (with_reducible first
    | exact hs₀
    | apply State.put_keeps
    | apply State.putB_keeps
    | apply State.eventIf_keeps
    | apply State.showLane_keeps
    | refine State.Keeps.each ?_ ?_ <;> [(intro u x₁ hs₀; try dsimp only); skip]
    | dsimp only)
theorem State.checked_keeps {s₀ s : State} (hs₀ : s₀.Keeps s) (c : Conc) (l : Nat) (x0 : CheckStep) : s₀.Keeps
    (State.checked s c l x0) := by
  unfold State.checked
  repeat (with_reducible first
    | exact hs₀
    | apply State.putB_keeps
    | apply State.bump64_keeps
    | apply State.bump_keeps
    | apply State.event_keeps
    | apply State.Keeps.ite
    | split
    | dsimp only)
theorem State.testBit_keeps {s₀ s : State} (hs₀ : s₀.Keeps s) (c : Conc) (l : Nat) (err : Bool) : s₀.Keeps
    (State.testBit s c l err) := by
  unfold State.testBit
  repeat (with_reducible first
    | exact hs₀
    | apply State.setConc_keeps
    | apply State.checked_keeps
    | apply State.Keeps.ite
    | split
    | refine State.Keeps.same (mk_pending ..) (mk_regs ..) (mk_chans ..) (mk_tac ..) (mk_stale ..) (mk_tacStaged ..)
        (mk_rwsStaged ..) (mk_frames ..) (mk_lastCorr ..) (mk_scrubs ..) (mk_mramCorr ..) (mk_mramTac ..)
        (mk_mramTap ..) (mk_journal ..) (mk_eventQ ..) (mk_trig ..) ?_
    | dsimp only)
theorem State.testRun_keeps {s₀ s : State} (hs₀ : s₀.Keeps s) (c : Conc) (l bits : Nat) (errs : List Nat) : s₀.Keeps
    (State.testRun s c l bits errs) := by
  unfold State.testRun
  repeat (with_reducible first
    | exact hs₀
    | apply State.testBit_keeps
    | apply State.Keeps.ite
    | refine State.Keeps.each ?_ ?_ <;> [(intro u x₁ hs₀; try dsimp only); skip]
    | split)
theorem State.testChanged_keeps {s₀ s : State} (hs₀ : s₀.Keeps s) (c : Conc) (l : Nat) : s₀.Keeps (State.testChanged
    s c l) := by
  unfold State.testChanged
  repeat (with_reducible first
    | exact hs₀
    | apply State.putLaneState_keeps
    | apply State.bump_keeps
    | apply State.draw_keeps
    | apply State.setConc_keeps
    | apply State.putB_keeps
    | apply State.showLane_keeps
    | apply State.Keeps.ite
    | split
    | refine State.Keeps.same (mk_pending ..) (mk_regs ..) (mk_chans ..) (mk_tac ..) (mk_stale ..) (mk_tacStaged ..)
        (mk_rwsStaged ..) (mk_frames ..) (mk_lastCorr ..) (mk_scrubs ..) (mk_mramCorr ..) (mk_mramTac ..)
        (mk_mramTap ..) (mk_journal ..) (mk_eventQ ..) (mk_trig ..) ?_
    | dsimp only)
theorem State.endTest_keeps {s₀ s : State} (hs₀ : s₀.Keeps s) (c : Conc) (l : Nat) : s₀.Keeps (State.endTest s c
    l) := by
  unfold State.endTest
  repeat (with_reducible first
    | exact hs₀
    | apply State.putB_keeps
    | apply State.testChanged_keeps
    | apply State.Keeps.ite
    | split
    | refine State.Keeps.same (mk_pending ..) (mk_regs ..) (mk_chans ..) (mk_tac ..) (mk_stale ..) (mk_tacStaged ..)
        (mk_rwsStaged ..) (mk_frames ..) (mk_lastCorr ..) (mk_scrubs ..) (mk_mramCorr ..) (mk_mramTac ..)
        (mk_mramTap ..) (mk_journal ..) (mk_eventQ ..) (mk_trig ..) ?_
    | dsimp only)
theorem State.injOne_keeps {s₀ s : State} (hs₀ : s₀.Keeps s) (c : Conc) (l : Nat) : s₀.Keeps (State.injOne s c
    l) := by
  unfold State.injOne
  repeat (with_reducible first
    | exact hs₀
    | apply State.setConc_keeps
    | apply State.Keeps.ite
    | split
    | refine State.Keeps.same (mk_pending ..) (mk_regs ..) (mk_chans ..) (mk_tac ..) (mk_stale ..) (mk_tacStaged ..)
        (mk_rwsStaged ..) (mk_frames ..) (mk_lastCorr ..) (mk_scrubs ..) (mk_mramCorr ..) (mk_mramTac ..)
        (mk_mramTap ..) (mk_journal ..) (mk_eventQ ..) (mk_trig ..) ?_)
theorem State.deliverMask_keeps {s₀ s : State} (hs₀ : s₀.Keeps s) (c : Conc) : s₀.Keeps (State.deliverMask s c) := by
  unfold State.deliverMask
  repeat (with_reducible first
    | exact hs₀
    | apply State.setConc_keeps
    | apply State.endTest_keeps
    | apply State.Keeps.ite
    | refine State.Keeps.each ?_ ?_ <;> [(intro u x₁ hs₀; try dsimp only); skip]
    | split
    | refine State.Keeps.same (mk_pending ..) (mk_regs ..) (mk_chans ..) (mk_tac ..) (mk_stale ..) (mk_tacStaged ..)
        (mk_rwsStaged ..) (mk_frames ..) (mk_lastCorr ..) (mk_scrubs ..) (mk_mramCorr ..) (mk_mramTac ..)
        (mk_mramTap ..) (mk_journal ..) (mk_eventQ ..) (mk_trig ..) ?_
    | dsimp only)
theorem State.takeMask_keeps {s₀ s : State} (hs₀ : s₀.Keeps s) (c : Conc) : s₀.Keeps (State.takeMask s c) := by
  unfold State.takeMask
  repeat (with_reducible first
    | exact hs₀
    | apply State.setConc_keeps
    | apply State.putLaneState_keeps
    | apply State.Keeps.ite
    | refine State.Keeps.each ?_ ?_ <;> [(intro u x₁ hs₀; try dsimp only); skip]
    | split
    | refine State.Keeps.same (mk_pending ..) (mk_regs ..) (mk_chans ..) (mk_tac ..) (mk_stale ..) (mk_tacStaged ..)
        (mk_rwsStaged ..) (mk_frames ..) (mk_lastCorr ..) (mk_scrubs ..) (mk_mramCorr ..) (mk_mramTac ..)
        (mk_mramTap ..) (mk_journal ..) (mk_eventQ ..) (mk_trig ..) ?_
    | dsimp only)
theorem State.restMask_keeps {s₀ s : State} (hs₀ : s₀.Keeps s) (c : Conc) : s₀.Keeps (State.restMask s c) := by
  unfold State.restMask
  repeat (with_reducible first | exact hs₀ | apply State.takeMask_keeps | apply State.Keeps.ite | split)
theorem State.loadMask_keeps {s₀ s : State} (hs₀ : s₀.Keeps s) (c : Conc) (m : BitVec 64) : s₀.Keeps (State.loadMask
    s c m) := by
  unfold State.loadMask
  repeat (with_reducible first
    | exact hs₀
    | apply State.setConc_keeps
    | apply State.put_keeps
    | apply State.showLane_keeps
    | refine State.Keeps.each ?_ ?_ <;> [(intro u x₁ hs₀; try dsimp only); skip]
    | refine State.Keeps.same (mk_pending ..) (mk_regs ..) (mk_chans ..) (mk_tac ..) (mk_stale ..) (mk_tacStaged ..)
        (mk_rwsStaged ..) (mk_frames ..) (mk_lastCorr ..) (mk_scrubs ..) (mk_mramCorr ..) (mk_mramTac ..)
        (mk_mramTap ..) (mk_journal ..) (mk_eventQ ..) (mk_trig ..) ?_
    | dsimp only)
theorem State.maskLoad_keeps {s₀ s : State} (hs₀ : s₀.Keeps s) : s₀.Keeps (State.maskLoad s) := by
  unfold State.maskLoad
  repeat (with_reducible first
    | exact hs₀
    | apply State.loadMask_keeps
    | apply State.event_keeps
    | apply State.restMask_keeps
    | refine State.Keeps.each ?_ ?_ <;> [(intro u x₁ hs₀; try dsimp only); skip]
    | split)
theorem State.restoreLanes_keeps {s₀ s : State} (hs₀ : s₀.Keeps s) (c : Conc) : s₀.Keeps (State.restoreLanes s
    c) := by
  unfold State.restoreLanes
  repeat (with_reducible first
    | exact hs₀
    | apply State.loadMask_keeps
    | apply State.endTest_keeps
    | apply State.testChanged_keeps
    | apply State.Keeps.ite
    | refine State.Keeps.each ?_ ?_ <;> [(intro u x₁ hs₀; try dsimp only); skip]
    | split
    | dsimp only)

/-! Output.lean -/

theorem State.startsWith_keeps {s₀ s : State} (hs₀ : s₀.Keeps s) (c : Conc) (k : GrainClass) (d : Dealing) :
    s₀.Keeps (State.startsWith s c k d) := by
  unfold State.startsWith
  repeat (with_reducible first
    | exact hs₀
    | apply State.setConc_keeps
    | apply State.put_keeps
    | apply State.Keeps.ite
    | split
    | refine State.Keeps.same (mk_pending ..) (mk_regs ..) (mk_chans ..) (mk_tac ..) (mk_stale ..) (mk_tacStaged ..)
        (mk_rwsStaged ..) (mk_frames ..) (mk_lastCorr ..) (mk_scrubs ..) (mk_mramCorr ..) (mk_mramTac ..)
        (mk_mramTap ..) (mk_journal ..) (mk_eventQ ..) (mk_trig ..) ?_
    | dsimp only)
theorem State.driveGrain_keeps {s₀ s : State} (hs₀ : s₀.Keeps s) (c : Conc) (lane : Nat) (g : List Byte) : s₀.Keeps
    (State.driveGrain s c lane g) := by
  unfold State.driveGrain
  repeat (with_reducible first
    | exact hs₀
    | apply State.setConc_keeps
    | apply State.bump64_keeps
    | apply State.Keeps.ite
    | split
    | refine State.Keeps.same (mk_pending ..) (mk_regs ..) (mk_chans ..) (mk_tac ..) (mk_stale ..) (mk_tacStaged ..)
        (mk_rwsStaged ..) (mk_frames ..) (mk_lastCorr ..) (mk_scrubs ..) (mk_mramCorr ..) (mk_mramTac ..)
        (mk_mramTap ..) (mk_journal ..) (mk_eventQ ..) (mk_trig ..) ?_
    | dsimp only)
theorem State.countGrain_keeps {s₀ s : State} (hs₀ : s₀.Keeps s) (c : Conc) (k : GrainClass) (lane : Nat) : s₀.Keeps
    (State.countGrain s c k lane) := by
  unfold State.countGrain
  repeat (with_reducible first
    | exact hs₀
    | apply State.setConc_keeps
    | refine State.Keeps.same (mk_pending ..) (mk_regs ..) (mk_chans ..) (mk_tac ..) (mk_stale ..) (mk_tacStaged ..)
        (mk_rwsStaged ..) (mk_frames ..) (mk_lastCorr ..) (mk_scrubs ..) (mk_mramCorr ..) (mk_mramTac ..)
        (mk_mramTap ..) (mk_journal ..) (mk_eventQ ..) (mk_trig ..) ?_
    | dsimp only)
theorem State.queueGrain_keeps {s₀ s : State} (hs₀ : s₀.Keeps s) (c : Conc) (reads : Reads) : s₀.Keeps
    (State.queueGrain s c reads) := by
  unfold State.queueGrain
  repeat (with_reducible first
    | exact hs₀
    | apply State.countRead_keeps
    | apply State.enterSpill_keeps
    | apply State.setConc_keeps
    | apply State.Keeps.ite
    | refine State.Keeps.each ?_ ?_ <;> [(intro u x₁ hs₀; try dsimp only); skip]
    | split
    | refine State.Keeps.same (mk_pending ..) (mk_regs ..) (mk_chans ..) (mk_tac ..) (mk_stale ..) (mk_tacStaged ..)
        (mk_rwsStaged ..) (mk_frames ..) (mk_lastCorr ..) (mk_scrubs ..) (mk_mramCorr ..) (mk_mramTac ..)
        (mk_mramTap ..) (mk_journal ..) (mk_eventQ ..) (mk_trig ..) ?_
    | dsimp only)
theorem State.passOver_keeps {s₀ s : State} (hs₀ : s₀.Keeps s) (c : Conc) : s₀.Keeps (State.passOver s c) := by
  unfold State.passOver
  repeat (with_reducible first
    | exact hs₀
    | apply State.skipUnsent_keeps
    | apply State.setConc_keeps
    | apply State.modeReturn_keeps
    | apply State.showBacklog_keeps
    | apply State.Keeps.ite
    | split
    | refine State.Keeps.same (mk_pending ..) (mk_regs ..) (mk_chans ..) (mk_tac ..) (mk_stale ..) (mk_tacStaged ..)
        (mk_rwsStaged ..) (mk_frames ..) (mk_lastCorr ..) (mk_scrubs ..) (mk_mramCorr ..) (mk_mramTac ..)
        (mk_mramTap ..) (mk_journal ..) (mk_eventQ ..) (mk_trig ..) ?_
    | dsimp only)
theorem State.readStream_keeps {s₀ s : State} (hs₀ : s₀.Keeps s) (c : Conc) (m : SheafMeta) (k : Nat) (units :
    Reads) : s₀.Keeps (State.readStream s c m k units) := by
  unfold State.readStream
  repeat (with_reducible first
    | exact hs₀
    | apply State.sheafRead_keeps
    | apply State.served_keeps
    | apply State.setConc_keeps
    | apply State.Keeps.ite
    | split
    | refine State.Keeps.same (mk_pending ..) (mk_regs ..) (mk_chans ..) (mk_tac ..) (mk_stale ..) (mk_tacStaged ..)
        (mk_rwsStaged ..) (mk_frames ..) (mk_lastCorr ..) (mk_scrubs ..) (mk_mramCorr ..) (mk_mramTac ..)
        (mk_mramTap ..) (mk_journal ..) (mk_eventQ ..) (mk_trig ..) ?_
    | dsimp only)
theorem State.beginStream_keeps {s₀ s : State} (hs₀ : s₀.Keeps s) (c : Conc) (units : Reads) : s₀.Keeps
    (State.beginStream s c units) := by
  unfold State.beginStream
  repeat (with_reducible first
    | exact hs₀
    | apply State.setConc_keeps
    | apply State.passOver_keeps
    | apply State.readStream_keeps
    | apply State.Keeps.ite
    | split
    | refine State.Keeps.same (mk_pending ..) (mk_regs ..) (mk_chans ..) (mk_tac ..) (mk_stale ..) (mk_tacStaged ..)
        (mk_rwsStaged ..) (mk_frames ..) (mk_lastCorr ..) (mk_scrubs ..) (mk_mramCorr ..) (mk_mramTac ..)
        (mk_mramTap ..) (mk_journal ..) (mk_eventQ ..) (mk_trig ..) ?_
    | dsimp only)
theorem State.rereadStream_keeps {s₀ s : State} (hs₀ : s₀.Keeps s) (c : Conc) (units : Reads) : s₀.Keeps
    (State.rereadStream s c units) := by
  unfold State.rereadStream
  repeat (with_reducible first | exact hs₀ | apply State.readStream_keeps | apply State.Keeps.ite | split)
theorem State.streamSheaf_keeps {s₀ s : State} (hs₀ : s₀.Keeps s) (c : Conc) (reads : GrainReads) : s₀.Keeps
    (State.streamSheaf s c reads) := by
  unfold State.streamSheaf
  repeat (with_reducible first
    | exact hs₀
    | apply State.beginStream_keeps
    | apply State.queueGrain_keeps
    | apply State.rereadStream_keeps
    | apply State.Keeps.ite
    | split
    | dsimp only)
theorem State.streamSent_keeps {s₀ s : State} (hs₀ : s₀.Keeps s) (c : Conc) (d : Dealing) : s₀.Keeps
    (State.streamSent s c d) := by
  unfold State.streamSent
  repeat (with_reducible first
    | exact hs₀
    | apply State.setConc_keeps
    | apply State.modeReturn_keeps
    | apply State.showBacklog_keeps
    | apply State.Keeps.ite
    | split
    | refine State.Keeps.same (mk_pending ..) (mk_regs ..) (mk_chans ..) (mk_tac ..) (mk_stale ..) (mk_tacStaged ..)
        (mk_rwsStaged ..) (mk_frames ..) (mk_lastCorr ..) (mk_scrubs ..) (mk_mramCorr ..) (mk_mramTac ..)
        (mk_mramTap ..) (mk_journal ..) (mk_eventQ ..) (mk_trig ..) ?_
    | dsimp only)
theorem State.dealStream_keeps {s₀ s : State} (hs₀ : s₀.Keeps s) (c : Conc) (reads : GrainReads) : s₀.Keeps
    (State.dealStream s c reads) := by
  unfold State.dealStream
  repeat (with_reducible first
    | exact hs₀
    | apply State.streamSheaf_keeps
    | apply State.takeMask_keeps
    | apply State.setConc_keeps
    | apply State.countGrain_keeps
    | apply State.startsWith_keeps
    | apply State.driveGrain_keeps
    | apply State.streamSent_keeps
    | apply State.restMask_keeps
    | apply State.Keeps.ite
    | split
    | refine State.Keeps.same (mk_pending ..) (mk_regs ..) (mk_chans ..) (mk_tac ..) (mk_stale ..) (mk_tacStaged ..)
        (mk_rwsStaged ..) (mk_frames ..) (mk_lastCorr ..) (mk_scrubs ..) (mk_mramCorr ..) (mk_mramTac ..)
        (mk_mramTap ..) (mk_journal ..) (mk_eventQ ..) (mk_trig ..) ?_
    | dsimp only)
theorem State.gleanDone_keeps {s₀ s : State} (hs₀ : s₀.Keeps s) (c : Conc) (num : Nat) : s₀.Keeps (State.gleanDone s
    c num) := by
  unfold State.gleanDone
  repeat (with_reducible first
    | exact hs₀
    | apply State.setConc_keeps
    | apply State.put_keeps
    | apply State.Keeps.ite
    | split
    | refine State.Keeps.same (mk_pending ..) (mk_regs ..) (mk_chans ..) (mk_tac ..) (mk_stale ..) (mk_tacStaged ..)
        (mk_rwsStaged ..) (mk_frames ..) (mk_lastCorr ..) (mk_scrubs ..) (mk_mramCorr ..) (mk_mramTac ..)
        (mk_mramTap ..) (mk_journal ..) (mk_eventQ ..) (mk_trig ..) ?_
    | dsimp only)
theorem State.dealGlean_keeps {s₀ s : State} (hs₀ : s₀.Keeps s) (c : Conc) : s₀.Keeps (State.dealGlean s c) := by
  unfold State.dealGlean
  repeat (with_reducible first
    | exact hs₀
    | apply State.setConc_keeps
    | apply State.countGrain_keeps
    | apply State.driveGrain_keeps
    | apply State.gleanDone_keeps
    | split
    | refine State.Keeps.same (mk_pending ..) (mk_regs ..) (mk_chans ..) (mk_tac ..) (mk_stale ..) (mk_tacStaged ..)
        (mk_rwsStaged ..) (mk_frames ..) (mk_lastCorr ..) (mk_scrubs ..) (mk_mramCorr ..) (mk_mramTac ..)
        (mk_mramTap ..) (mk_journal ..) (mk_eventQ ..) (mk_trig ..) ?_
    | dsimp only)
theorem State.dealResend_keeps {s₀ s : State} (hs₀ : s₀.Keeps s) (c : Conc) : s₀.Keeps (State.dealResend s c) := by
  unfold State.dealResend
  repeat (with_reducible first
    | exact hs₀
    | apply State.setConc_keeps
    | apply State.countGrain_keeps
    | apply State.driveGrain_keeps
    | apply State.showResend_keeps
    | split
    | refine State.Keeps.same (mk_pending ..) (mk_regs ..) (mk_chans ..) (mk_tac ..) (mk_stale ..) (mk_tacStaged ..)
        (mk_rwsStaged ..) (mk_frames ..) (mk_lastCorr ..) (mk_scrubs ..) (mk_mramCorr ..) (mk_mramTac ..)
        (mk_mramTap ..) (mk_journal ..) (mk_eventQ ..) (mk_trig ..) ?_
    | dsimp only)
theorem State.dealGrain_keeps {s₀ s : State} (hs₀ : s₀.Keeps s) (c : Conc) (reads : GrainReads) (at_ : Nat) :
    s₀.Keeps (State.dealGrain s c reads at_) := by
  unfold State.dealGrain
  repeat (with_reducible first
    | exact hs₀
    | apply State.advance_keeps
    | apply State.dealStream_keeps
    | apply State.dealGlean_keeps
    | apply State.dealResend_keeps
    | apply State.Keeps.ite
    | split
    | dsimp only)
theorem State.takeStart_keeps {s₀ s : State} (hs₀ : s₀.Keeps s) (c : Conc) : s₀.Keeps (State.takeStart s c) := by
  unfold State.takeStart
  repeat (with_reducible first
    | exact hs₀
    | apply State.setConc_keeps
    | apply State.put_keeps
    | apply State.event_keeps
    | apply State.Keeps.ite
    | split
    | refine State.Keeps.same (mk_pending ..) (mk_regs ..) (mk_chans ..) (mk_tac ..) (mk_stale ..) (mk_tacStaged ..)
        (mk_rwsStaged ..) (mk_frames ..) (mk_lastCorr ..) (mk_scrubs ..) (mk_mramCorr ..) (mk_mramTac ..)
        (mk_mramTap ..) (mk_journal ..) (mk_eventQ ..) (mk_trig ..) ?_
    | dsimp only)

/-! InStep.lean -/

theorem State.recordMismatch_keeps {s₀ s : State} (hs₀ : s₀.Keeps s) (c : Conc) (n : Nat) (own part : BitVec 64) :
    s₀.Keeps (State.recordMismatch s c n own part) := by
  unfold State.recordMismatch
  repeat (with_reducible first | exact hs₀ | apply State.bump_keeps | apply State.put_keeps | dsimp only)
theorem State.startEpisode_keeps {s₀ s : State} (hs₀ : s₀.Keeps s) (c : Conc) (n : Nat) : s₀.Keeps
    (State.startEpisode s c n) := by
  unfold State.startEpisode
  repeat (with_reducible first
    | exact hs₀
    | apply State.setPair_keeps
    | apply State.put_keeps
    | apply State.bump_keeps
    | apply State.event_keeps
    | apply State.setConc_keeps
    | apply State.journalEvent_keeps
    | apply State.Keeps.ite
    | split
    | refine State.Keeps.same (mk_pending ..) (mk_regs ..) (mk_chans ..) (mk_tac ..) (mk_stale ..) (mk_tacStaged ..)
        (mk_rwsStaged ..) (mk_frames ..) (mk_lastCorr ..) (mk_scrubs ..) (mk_mramCorr ..) (mk_mramTac ..)
        (mk_mramTap ..) (mk_journal ..) (mk_eventQ ..) (mk_trig ..) ?_
    | dsimp only)
theorem State.endEpisode_keeps {s₀ s : State} (hs₀ : s₀.Keeps s) (c : Conc) : s₀.Keeps (State.endEpisode s c) := by
  unfold State.endEpisode
  repeat (with_reducible first
    | exact hs₀
    | apply State.setPair_keeps
    | apply State.event_keeps
    | apply State.setConc_keeps
    | apply State.journalEvent_keeps
    | apply State.Keeps.ite
    | split
    | refine State.Keeps.same (mk_pending ..) (mk_regs ..) (mk_chans ..) (mk_tac ..) (mk_stale ..) (mk_tacStaged ..)
        (mk_rwsStaged ..) (mk_frames ..) (mk_lastCorr ..) (mk_scrubs ..) (mk_mramCorr ..) (mk_mramTac ..)
        (mk_mramTap ..) (mk_journal ..) (mk_eventQ ..) (mk_trig ..) ?_
    | dsimp only)
theorem State.completeJoin_keeps {s₀ s : State} (hs₀ : s₀.Keeps s) (c : Conc) (n : Nat) (same : Bool) (own part :
    BitVec 64) : s₀.Keeps (State.completeJoin s c n same own part) := by
  unfold State.completeJoin
  repeat (with_reducible first
    | exact hs₀
    | apply State.setConc_keeps
    | apply State.event_keeps
    | apply State.setPair_keeps
    | apply State.recordMismatch_keeps
    | apply State.startEpisode_keeps
    | apply State.Keeps.ite
    | split
    | refine State.Keeps.same (mk_pending ..) (mk_regs ..) (mk_chans ..) (mk_tac ..) (mk_stale ..) (mk_tacStaged ..)
        (mk_rwsStaged ..) (mk_frames ..) (mk_lastCorr ..) (mk_scrubs ..) (mk_mramCorr ..) (mk_mramTac ..)
        (mk_mramTap ..) (mk_journal ..) (mk_eventQ ..) (mk_trig ..) ?_
    | dsimp only)
theorem State.compareOne_keeps {s₀ s : State} (hs₀ : s₀.Keeps s) (c : Conc) (o p : CrossMsg) : s₀.Keeps
    (State.compareOne s c o p) := by
  unfold State.compareOne
  repeat (with_reducible first
    | exact hs₀
    | apply State.recordMismatch_keeps
    | apply State.startEpisode_keeps
    | apply State.setConc_keeps
    | apply State.endEpisode_keeps
    | apply State.completeJoin_keeps
    | apply State.Keeps.ite
    | split
    | refine State.Keeps.same (mk_pending ..) (mk_regs ..) (mk_chans ..) (mk_tac ..) (mk_stale ..) (mk_tacStaged ..)
        (mk_rwsStaged ..) (mk_frames ..) (mk_lastCorr ..) (mk_scrubs ..) (mk_mramCorr ..) (mk_mramTac ..)
        (mk_mramTap ..) (mk_journal ..) (mk_eventQ ..) (mk_trig ..) ?_
    | dsimp only)
theorem State.compareAll_keeps {s₀ s : State} (hs₀ : s₀.Keeps s) (c : Conc) : s₀.Keeps (State.compareAll s c) := by
  unfold State.compareAll
  repeat (with_reducible first
    | exact hs₀
    | apply State.setConc_keeps
    | apply State.compareOne_keeps
    | refine State.Keeps.each ?_ ?_ <;> [(intro u x₁ hs₀; try dsimp only); skip]
    | refine State.Keeps.same (mk_pending ..) (mk_regs ..) (mk_chans ..) (mk_tac ..) (mk_stale ..) (mk_tacStaged ..)
        (mk_rwsStaged ..) (mk_frames ..) (mk_lastCorr ..) (mk_scrubs ..) (mk_mramCorr ..) (mk_mramTac ..)
        (mk_mramTap ..) (mk_journal ..) (mk_eventQ ..) (mk_trig ..) ?_
    | dsimp only)
theorem State.takeMessage_keeps {s₀ s : State} (hs₀ : s₀.Keeps s) (c : Conc) : s₀.Keeps (State.takeMessage s c) := by
  unfold State.takeMessage
  repeat (with_reducible first
    | exact hs₀
    | apply State.setConc_keeps
    | apply State.partnerLost_keeps
    | apply State.compareAll_keeps
    | apply State.Keeps.ite
    | split
    | refine State.Keeps.same (mk_pending ..) (mk_regs ..) (mk_chans ..) (mk_tac ..) (mk_stale ..) (mk_tacStaged ..)
        (mk_rwsStaged ..) (mk_frames ..) (mk_lastCorr ..) (mk_scrubs ..) (mk_mramCorr ..) (mk_mramTac ..)
        (mk_mramTap ..) (mk_journal ..) (mk_eventQ ..) (mk_trig ..) ?_
    | dsimp only)
theorem State.toll_keeps {s₀ s : State} (hs₀ : s₀.Keeps s) (c : Conc) : s₀.Keeps (State.toll s c) := by
  unfold State.toll
  repeat (with_reducible first
    | exact hs₀
    | apply State.setConc_keeps
    | apply State.putB_keeps
    | apply State.showElig_keeps
    | apply State.bump_keeps
    | apply State.Keeps.ite
    | split
    | refine State.Keeps.same (mk_pending ..) (mk_regs ..) (mk_chans ..) (mk_tac ..) (mk_stale ..) (mk_tacStaged ..)
        (mk_rwsStaged ..) (mk_frames ..) (mk_lastCorr ..) (mk_scrubs ..) (mk_mramCorr ..) (mk_mramTac ..)
        (mk_mramTap ..) (mk_journal ..) (mk_eventQ ..) (mk_trig ..) ?_
    | dsimp only)
theorem State.setDeadline_keeps {s₀ s : State} (hs₀ : s₀.Keeps s) (c : Conc) (d : Nat) : s₀.Keeps (State.setDeadline
    s c d) := by
  unfold State.setDeadline
  repeat (with_reducible first
    | exact hs₀
    | apply State.put_keeps
    | apply State.setConc_keeps
    | refine State.Keeps.same (mk_pending ..) (mk_regs ..) (mk_chans ..) (mk_tac ..) (mk_stale ..) (mk_tacStaged ..)
        (mk_rwsStaged ..) (mk_frames ..) (mk_lastCorr ..) (mk_scrubs ..) (mk_mramCorr ..) (mk_mramTac ..)
        (mk_mramTap ..) (mk_journal ..) (mk_eventQ ..) (mk_trig ..) ?_
    | dsimp only)
theorem State.grant_keeps {s₀ s : State} (hs₀ : s₀.Keeps s) (c : Conc) : s₀.Keeps (State.grant s c) := by
  unfold State.grant
  repeat (with_reducible first
    | exact hs₀
    | apply State.put_keeps
    | apply State.bump_keeps
    | apply State.event_keeps
    | apply State.setDeadline_keeps
    | apply State.putB_keeps
    | apply State.showDriving_keeps
    | refine State.Keeps.same (mk_pending ..) (mk_regs ..) (mk_chans ..) (mk_tac ..) (mk_stale ..) (mk_tacStaged ..)
        (mk_rwsStaged ..) (mk_frames ..) (mk_lastCorr ..) (mk_scrubs ..) (mk_mramCorr ..) (mk_mramTac ..)
        (mk_mramTap ..) (mk_journal ..) (mk_eventQ ..) (mk_trig ..) ?_
    | dsimp only)
theorem State.enterGuard_keeps {s₀ s : State} (hs₀ : s₀.Keeps s) (c : Conc) (t : Nat) : s₀.Keeps (State.enterGuard s
    c t) := by
  unfold State.enterGuard
  repeat (with_reducible first
    | exact hs₀
    | apply State.put_keeps
    | apply State.putB_keeps
    | apply State.showDriving_keeps
    | apply State.forceIdle_keeps
    | refine State.Keeps.same (mk_pending ..) (mk_regs ..) (mk_chans ..) (mk_tac ..) (mk_stale ..) (mk_tacStaged ..)
        (mk_rwsStaged ..) (mk_frames ..) (mk_lastCorr ..) (mk_scrubs ..) (mk_mramCorr ..) (mk_mramTac ..)
        (mk_mramTap ..) (mk_journal ..) (mk_eventQ ..) (mk_trig ..) ?_
    | dsimp only)
theorem State.lapse_keeps {s₀ s : State} (hs₀ : s₀.Keeps s) (c : Conc) : s₀.Keeps (State.lapse s c) := by
  unfold State.lapse
  repeat (with_reducible first
    | exact hs₀
    | apply State.bump_keeps
    | apply State.put_keeps
    | apply State.event_keeps
    | apply State.journalEvent_keeps
    | apply State.enterGuard_keeps
    | refine State.Keeps.same (mk_pending ..) (mk_regs ..) (mk_chans ..) (mk_tac ..) (mk_stale ..) (mk_tacStaged ..)
        (mk_rwsStaged ..) (mk_frames ..) (mk_lastCorr ..) (mk_scrubs ..) (mk_mramCorr ..) (mk_mramTac ..)
        (mk_mramTap ..) (mk_journal ..) (mk_eventQ ..) (mk_trig ..) ?_
    | dsimp only)
theorem State.leaseLapse_keeps {s₀ s : State} (hs₀ : s₀.Keeps s) (at_ : Nat) : s₀.Keeps (State.leaseLapse s at_) := by
  unfold State.leaseLapse
  repeat (with_reducible first
    | exact hs₀
    | apply State.advance_keeps
    | apply State.lapse_keeps
    | apply State.Keeps.ite
    | split)
theorem State.stickOutcome_keeps {s₀ s : State} (hs₀ : s₀.Keeps s) (x : StickCmd) (r : Nat) : s₀.Keeps
    (State.stickOutcome s x r) := by
  unfold State.stickOutcome
  repeat (with_reducible first
    | exact hs₀
    | apply State.bump_keeps
    | apply State.event_keeps
    | apply State.append_keeps
    | apply State.answerHeld_keeps
    | apply State.Keeps.ite
    | split
    | dsimp only)
theorem State.dropTarget_keeps {s₀ s : State} (hs₀ : s₀.Keeps s) : s₀.Keeps (State.dropTarget s) := by
  unfold State.dropTarget
  repeat (with_reducible first
    | exact hs₀
    | apply State.stickOutcome_keeps
    | split
    | refine State.Keeps.same (mk_pending ..) (mk_regs ..) (mk_chans ..) (mk_tac ..) (mk_stale ..) (mk_tacStaged ..)
        (mk_rwsStaged ..) (mk_frames ..) (mk_lastCorr ..) (mk_scrubs ..) (mk_mramCorr ..) (mk_mramTac ..)
        (mk_mramTap ..) (mk_journal ..) (mk_eventQ ..) (mk_trig ..) ?_)
theorem State.hostGrant_keeps {s₀ s : State} (hs₀ : s₀.Keeps s) (x : StickCmd) : s₀.Keeps (State.hostGrant s x) := by
  unfold State.hostGrant
  repeat (with_reducible first
    | exact hs₀
    | apply State.dropTarget_keeps
    | apply State.stickOutcome_keeps
    | apply State.bump_keeps
    | apply State.enterGuard_keeps
    | apply State.grant_keeps
    | apply State.Keeps.ite
    | split
    | refine State.Keeps.same (mk_pending ..) (mk_regs ..) (mk_chans ..) (mk_tac ..) (mk_stale ..) (mk_tacStaged ..)
        (mk_rwsStaged ..) (mk_frames ..) (mk_lastCorr ..) (mk_scrubs ..) (mk_mramCorr ..) (mk_mramTac ..)
        (mk_mramTap ..) (mk_journal ..) (mk_eventQ ..) (mk_trig ..) ?_
    | dsimp only)
theorem State.hostRevoke_keeps {s₀ s : State} (hs₀ : s₀.Keeps s) (x : StickCmd) : s₀.Keeps (State.hostRevoke s
    x) := by
  unfold State.hostRevoke
  repeat (with_reducible first
    | exact hs₀
    | apply State.stickOutcome_keeps
    | apply State.bump_keeps
    | apply State.enterGuard_keeps
    | apply State.dropTarget_keeps
    | apply State.Keeps.ite
    | split
    | refine State.Keeps.same (mk_pending ..) (mk_regs ..) (mk_chans ..) (mk_tac ..) (mk_stale ..) (mk_tacStaged ..)
        (mk_rwsStaged ..) (mk_frames ..) (mk_lastCorr ..) (mk_scrubs ..) (mk_mramCorr ..) (mk_mramTac ..)
        (mk_mramTap ..) (mk_journal ..) (mk_eventQ ..) (mk_trig ..) ?_
    | dsimp only)
theorem State.stickCommand_keeps {s₀ s : State} (hs₀ : s₀.Keeps s) (x : StickCmd) : s₀.Keeps (State.stickCommand s
    x) := by
  unfold State.stickCommand
  repeat (with_reducible first
    | exact hs₀
    | apply State.hostGrant_keeps
    | apply State.hostRevoke_keeps
    | apply State.stickOutcome_keeps
    | apply State.Keeps.ite
    | split)
theorem State.autoGrant_keeps {s₀ s : State} (hs₀ : s₀.Keeps s) : s₀.Keeps (State.autoGrant s) := by
  unfold State.autoGrant
  repeat (with_reducible first
    | exact hs₀
    | apply State.bump_keeps
    | apply State.grant_keeps
    | apply State.put_keeps
    | apply State.event_keeps
    | apply State.Keeps.ite
    | split
    | dsimp only)
theorem State.endGuard_keeps {s₀ s : State} (hs₀ : s₀.Keeps s) : s₀.Keeps (State.endGuard s) := by
  unfold State.endGuard
  repeat (with_reducible first
    | exact hs₀
    | apply State.grant_keeps
    | apply State.stickOutcome_keeps
    | apply State.put_keeps
    | apply State.autoGrant_keeps
    | apply State.Keeps.ite
    | split
    | refine State.Keeps.same (mk_pending ..) (mk_regs ..) (mk_chans ..) (mk_tac ..) (mk_stale ..) (mk_tacStaged ..)
        (mk_rwsStaged ..) (mk_frames ..) (mk_lastCorr ..) (mk_scrubs ..) (mk_mramCorr ..) (mk_mramTac ..)
        (mk_mramTap ..) (mk_journal ..) (mk_eventQ ..) (mk_trig ..) ?_
    | dsimp only)
theorem State.guardEndAt_keeps {s₀ s : State} (hs₀ : s₀.Keeps s) (at_ : Nat) : s₀.Keeps (State.guardEndAt s at_) := by
  unfold State.guardEndAt
  repeat (with_reducible first
    | exact hs₀
    | apply State.advance_keeps
    | apply State.endGuard_keeps
    | apply State.Keeps.ite
    | split)
theorem State.copyExpiry_keeps {s₀ s : State} (hs₀ : s₀.Keeps s) (c : Conc) (at_ : Nat) : s₀.Keeps (State.copyExpiry
    s c at_) := by
  unfold State.copyExpiry
  repeat (with_reducible first
    | exact hs₀
    | apply State.advance_keeps
    | apply State.forceIdle_keeps
    | apply State.Keeps.ite
    | split)
theorem State.stickBoundary_keeps {s₀ s : State} (hs₀ : s₀.Keeps s) (f : Nat) : s₀.Keeps (State.stickBoundary s
    f) := by
  unfold State.stickBoundary
  repeat (with_reducible first
    | exact hs₀
    | apply State.guardEndAt_keeps
    | apply State.leaseLapse_keeps
    | apply State.toll_keeps
    | apply State.setDeadline_keeps
    | apply State.stickCommand_keeps
    | apply State.Keeps.ite
    | refine State.Keeps.each ?_ ?_ <;> [(intro u x₁ hs₀; try dsimp only); skip]
    | split
    | refine State.Keeps.same (mk_pending ..) (mk_regs ..) (mk_chans ..) (mk_tac ..) (mk_stale ..) (mk_tacStaged ..)
        (mk_rwsStaged ..) (mk_frames ..) (mk_lastCorr ..) (mk_scrubs ..) (mk_mramCorr ..) (mk_mramTac ..)
        (mk_mramTap ..) (mk_journal ..) (mk_eventQ ..) (mk_trig ..) ?_
    | dsimp only)
theorem State.startGrant_keeps {s₀ s : State} (hs₀ : s₀.Keeps s) : s₀.Keeps (State.startGrant s) := by
  unfold State.startGrant
  repeat (with_reducible first | exact hs₀ | apply State.grant_keeps | apply State.Keeps.ite | split)
theorem State.showDies_keeps {s₀ s : State} (hs₀ : s₀.Keeps s) : s₀.Keeps (State.showDies s) := by
  unfold State.showDies
  repeat (with_reducible first
    | exact hs₀
    | apply State.put_keeps
    | apply State.eventIf_keeps
    | apply State.testBit_keeps
    | apply State.Keeps.ite
    | split
    | dsimp only)
theorem State.resetConc_keeps {s₀ s : State} (hs₀ : s₀.Keeps s) (c : Conc) : s₀.Keeps (State.resetConc s c) := by
  unfold State.resetConc
  repeat (with_reducible first
    | exact hs₀
    | apply State.forgetFailure_keeps
    | apply State.forceIdle_keeps
    | apply State.sendCross_keeps
    | apply State.resetPages_keeps
    | apply State.put_keeps
    | apply State.wr_keeps
    | apply State.setConc_keeps
    | apply State.putB_keeps
    | apply State.showDies_keeps
    | apply State.checkSwap_keeps
    | apply State.Keeps.ite
    | refine State.Keeps.each ?_ ?_ <;> [(intro u x₁ hs₀; try dsimp only); skip]
    | split
    | refine State.Keeps.of ?_ (mk_pending ..) (mk_regs ..) ?_ (mk_chans ..) ?_ (mk_tac ..) ?_ (mk_stale ..) ?_
        (mk_tacStaged ..) ?_ (mk_rwsStaged ..) ?_ (mk_frames ..) ?_ (mk_lastCorr ..) ?_ (mk_scrubs ..) ?_
        (mk_mramCorr ..) ?_ (mk_mramTac ..) ?_ (mk_mramTap ..) ?_ (mk_journal ..) ?_ (mk_eventQ ..) ?_ (mk_trig ..)
        ?_
    | exact id
    | exact mapWf_del'
    | exact mapWf_filter'
    | exact mapWf_putFilter
    | exact mapCanon_filter'
    | exact length_filter_le'
    | exact nodup_filter'
    | dsimp only)
theorem State.queuePending_keeps {s₀ s : State} (hs₀ : s₀.Keeps s) (lo hi : Nat) : s₀.Keeps (State.queuePending s lo
    hi) := by
  unfold State.queuePending
  repeat (with_reducible first
    | exact hs₀
    | apply State.queueEvent_keeps
    | apply State.Keeps.ite
    | refine State.Keeps.each ?_ ?_ <;> [(intro u x₁ hs₀; try dsimp only); skip]
    | split)
theorem State.loadSettings_keeps {s₀ s : State} (hs₀ : s₀.Keeps s) (lo hi : Nat) : s₀.Keeps (State.loadSettings s lo
    hi) := by
  unfold State.loadSettings
  repeat (with_reducible first
    | exact hs₀
    | apply State.wr_keeps
    | apply State.queuePending_keeps
    | refine State.Keeps.each ?_ ?_ <;> [(intro u x₁ hs₀; try dsimp only); skip]
    | split
    | dsimp only)
theorem State.fillConc_keeps {s₀ s : State} (hs₀ : s₀.Keeps s) (c : Conc) : s₀.Keeps (State.fillConc s c) := by
  unfold State.fillConc
  repeat (with_reducible first
    | exact hs₀
    | apply State.setConc_keeps
    | apply State.trained_keeps
    | apply State.stageEntry_keeps
    | apply State.putB_keeps
    | apply State.showWbuf_keeps
    | apply State.loadClassK_keeps
    | apply State.loadSettings_keeps
    | apply State.showRetired_keeps
    | apply State.put_keeps
    | apply State.showDriving_keeps
    | apply State.showElig_keeps
    | apply State.govSettle_keeps
    | apply State.showStaged_keeps
    | apply State.showRemap_keeps
    | apply State.restoreLanes_keeps
    | apply State.showDies_keeps
    | apply State.checkSwap_keeps
    | apply State.Keeps.ite
    | refine State.Keeps.each ?_ ?_ <;> [(intro u x₁ hs₀; try dsimp only); skip]
    | split
    | refine State.Keeps.of ?_ (mk_pending ..) (mk_regs ..) ?_ (mk_chans ..) ?_ (mk_tac ..) ?_ (mk_stale ..) ?_
        (mk_tacStaged ..) ?_ (mk_rwsStaged ..) ?_ (mk_frames ..) ?_ (mk_lastCorr ..) ?_ (mk_scrubs ..) ?_
        (mk_mramCorr ..) ?_ (mk_mramTac ..) ?_ (mk_mramTap ..) ?_ (mk_journal ..) ?_ (mk_eventQ ..) ?_ (mk_trig ..)
        ?_
    | exact id
    | exact mapWf_filter'
    | exact mapWf_putFilter
    | exact mapWf_nil'
    | exact mapWf_one
    | exact mapCanon_filter'
    | exact mapCanon_nil'
    | exact length_filter_le'
    | exact nodup_filter'
    | dsimp only)
theorem State.trainFilled_keeps {s₀ s : State} (hs₀ : s₀.Keeps s) (c : Conc) : s₀.Keeps (State.trainFilled s c) := by
  unfold State.trainFilled
  repeat (with_reducible first
    | exact hs₀
    | apply State.fillConc_keeps
    | apply State.trainStart_keeps
    | apply State.pinPoint_keeps)
theorem State.loadMram_keeps {s₀ s : State} (hs₀ : s₀.Keeps s) (l : Reads) (classKOk : Bool) : s₀.Keeps
    (State.loadMram s l classKOk) := by
  unfold State.loadMram
  repeat (with_reducible first
    | exact hs₀
    | apply State.readMram_keeps
    | apply State.classKUnread_keeps
    | apply State.Keeps.ite
    | split
    | dsimp only)
theorem State.bringUp_keeps {s₀ s : State} (hs₀ : s₀.Keeps s) (c : Conc) (board : Nat) : s₀.Keeps (State.bringUp s c
    board) := by
  unfold State.bringUp
  repeat (with_reducible first
    | exact hs₀
    | apply State.setConc_keeps
    | apply State.trainFilled_keeps
    | apply State.startLanes_keeps
    | apply State.put_keeps
    | refine State.Keeps.same (mk_pending ..) (mk_regs ..) (mk_chans ..) (mk_tac ..) (mk_stale ..) (mk_tacStaged ..)
        (mk_rwsStaged ..) (mk_frames ..) (mk_lastCorr ..) (mk_scrubs ..) (mk_mramCorr ..) (mk_mramTac ..)
        (mk_mramTap ..) (mk_journal ..) (mk_eventQ ..) (mk_trig ..) ?_
    | dsimp only)
theorem State.rejoin_keeps {s₀ s : State} (hs₀ : s₀.Keeps s) (c : Conc) (start : ConcStart) (board : Nat) : s₀.Keeps
    (State.rejoin s c start board) := by
  unfold State.rejoin
  repeat (with_reducible first
    | exact hs₀
    | apply State.concChecked_keeps
    | apply State.loadMram_keeps
    | apply State.bringUp_keeps
    | apply State.trainFilled_keeps
    | apply State.Keeps.ite
    | split
    | dsimp only)
theorem State.joinPartner_keeps {s₀ s : State} (hs₀ : s₀.Keeps s) (c : Conc) (j : Nat) : s₀.Keeps (State.joinPartner
    s c j) := by
  unfold State.joinPartner
  repeat (with_reducible first
    | exact hs₀
    | apply State.setConc_keeps
    | apply State.setPair_keeps
    | apply State.Keeps.ite
    | split
    | refine State.Keeps.same (mk_pending ..) (mk_regs ..) (mk_chans ..) (mk_tac ..) (mk_stale ..) (mk_tacStaged ..)
        (mk_rwsStaged ..) (mk_frames ..) (mk_lastCorr ..) (mk_scrubs ..) (mk_mramCorr ..) (mk_mramTac ..)
        (mk_mramTap ..) (mk_journal ..) (mk_eventQ ..) (mk_trig ..) ?_
    | dsimp only)
theorem State.chooseJoin_keeps {s₀ s : State} (hs₀ : s₀.Keeps s) (c : Conc) : s₀.Keeps (State.chooseJoin s c) := by
  unfold State.chooseJoin
  repeat (with_reducible first
    | exact hs₀
    | apply State.put_keeps
    | apply State.setConc_keeps
    | apply State.setPair_keeps
    | apply State.joinPartner_keeps
    | apply State.checkSwap_keeps
    | refine State.Keeps.each ?_ ?_ <;> [(intro u x₁ hs₀; try dsimp only); skip]
    | refine State.Keeps.same (mk_pending ..) (mk_regs ..) (mk_chans ..) (mk_tac ..) (mk_stale ..) (mk_tacStaged ..)
        (mk_rwsStaged ..) (mk_frames ..) (mk_lastCorr ..) (mk_scrubs ..) (mk_mramCorr ..) (mk_mramTac ..)
        (mk_mramTap ..) (mk_journal ..) (mk_eventQ ..) (mk_trig ..) ?_
    | dsimp only)
theorem State.joinSheafChoose_keeps {s₀ s : State} (hs₀ : s₀.Keeps s) : s₀.Keeps (State.joinSheafChoose s) := by
  unfold State.joinSheafChoose
  repeat (with_reducible first | exact hs₀ | apply State.chooseJoin_keeps | apply State.Keeps.ite | split)
theorem State.ackCutPorts_keeps {s₀ s : State} (hs₀ : s₀.Keeps s) (c : Conc) : s₀.Keeps (State.ackCutPorts s c) := by
  unfold State.ackCutPorts
  repeat (with_reducible first
    | exact hs₀
    | apply State.setPort_keeps
    | apply State.put_keeps
    | apply State.Keeps.ite
    | refine State.Keeps.each ?_ ?_ <;> [(intro u x₁ hs₀; try dsimp only); skip]
    | split
    | refine State.Keeps.same (mk_pending ..) (mk_regs ..) (mk_chans ..) (mk_tac ..) (mk_stale ..) (mk_tacStaged ..)
        (mk_rwsStaged ..) (mk_frames ..) (mk_lastCorr ..) (mk_scrubs ..) (mk_mramCorr ..) (mk_mramTac ..)
        (mk_mramTap ..) (mk_journal ..) (mk_eventQ ..) (mk_trig ..) ?_
    | dsimp only)
theorem State.ackJoiner_keeps {s₀ s : State} (hs₀ : s₀.Keeps s) (f : Nat) (c : Conc) : s₀.Keeps (State.ackJoiner s f
    c) := by
  unfold State.ackJoiner
  repeat (with_reducible first | exact hs₀ | apply State.ackCutPorts_keeps | apply State.Keeps.ite | split)
theorem State.freshStatus_keeps {s₀ s : State} (hs₀ : s₀.Keeps s) (c : Conc) : s₀.Keeps (State.freshStatus s c) := by
  unfold State.freshStatus
  repeat (with_reducible first
    | exact hs₀
    | apply State.put_keeps
    | apply State.putB_keeps
    | apply State.showResend_keeps
    | apply State.showBacklog_keeps
    | apply State.showLag_keeps
    | apply State.showWbuf_keeps
    | dsimp only)
theorem State.joinRx_keeps {s₀ s : State} (hs₀ : s₀.Keeps s) (c : Conc) (f : Nat) (t : Fin 16) : s₀.Keeps
    (State.joinRx s c f t) := by
  unfold State.joinRx
  repeat (with_reducible first
    | exact hs₀
    | apply State.setRx_keeps
    | apply State.Keeps.ite
    | split
    | refine State.Keeps.same (mk_pending ..) (mk_regs ..) (mk_chans ..) (mk_tac ..) (mk_stale ..) (mk_tacStaged ..)
        (mk_rwsStaged ..) (mk_frames ..) (mk_lastCorr ..) (mk_scrubs ..) (mk_mramCorr ..) (mk_mramTac ..)
        (mk_mramTap ..) (mk_journal ..) (mk_eventQ ..) (mk_trig ..) ?_
    | dsimp only)
theorem State.joinBoundary_keeps {s₀ s : State} (hs₀ : s₀.Keeps s) (f : Nat) (c : Conc) : s₀.Keeps
    (State.joinBoundary s f c) := by
  unfold State.joinBoundary
  repeat (with_reducible first
    | exact hs₀
    | apply State.setConc_keeps
    | apply State.joinRx_keeps
    | apply State.setPair_keeps
    | apply State.joinPartner_keeps
    | apply State.freshStatus_keeps
    | apply State.put_keeps
    | apply State.showReplayFrom_keeps
    | apply State.showShadowFrom_keeps
    | apply State.Keeps.ite
    | refine State.Keeps.each ?_ ?_ <;> [(intro u x₁ hs₀; try dsimp only); skip]
    | split
    | refine State.Keeps.same (mk_pending ..) (mk_regs ..) (mk_chans ..) (mk_tac ..) (mk_stale ..) (mk_tacStaged ..)
        (mk_rwsStaged ..) (mk_frames ..) (mk_lastCorr ..) (mk_scrubs ..) (mk_mramCorr ..) (mk_mramTac ..)
        (mk_mramTap ..) (mk_journal ..) (mk_eventQ ..) (mk_trig ..) ?_
    | dsimp only)
theorem State.showPg_keeps {s₀ s : State} (hs₀ : s₀.Keeps s) : s₀.Keeps (State.showPg s) := by
  unfold State.showPg
  repeat (with_reducible first
    | exact hs₀
    | apply State.put_keeps
    | apply State.putB_keeps
    | apply State.Keeps.ite
    | split
    | dsimp only)
theorem State.setRail_keeps {s₀ s : State} (hs₀ : s₀.Keeps s) (c : Conc) (on : Bool) : s₀.Keeps (State.setRail s c
    on) := by
  unfold State.setRail
  repeat (with_reducible first
    | exact hs₀
    | split
    | refine State.Keeps.same (mk_pending ..) (mk_regs ..) (mk_chans ..) (mk_tac ..) (mk_stale ..) (mk_tacStaged ..)
        (mk_rwsStaged ..) (mk_frames ..) (mk_lastCorr ..) (mk_scrubs ..) (mk_mramCorr ..) (mk_mramTac ..)
        (mk_mramTap ..) (mk_journal ..) (mk_eventQ ..) (mk_trig ..) ?_)
theorem State.holdBoundary_keeps {s₀ s : State} (hs₀ : s₀.Keeps s) (c : Conc) : s₀.Keeps (State.holdBoundary s
    c) := by
  unfold State.holdBoundary
  repeat (with_reducible first
    | exact hs₀
    | apply State.resetConc_keeps
    | apply State.setRail_keeps
    | apply State.showPg_keeps
    | apply State.Keeps.ite
    | split
    | dsimp only)

/-! Cals.lean -/

theorem State.turnIfNone_keeps {s₀ s : State} (hs₀ : s₀.Keeps s) : s₀.Keeps (State.turnIfNone s) := by
  unfold State.turnIfNone
  repeat (with_reducible first | exact hs₀ | apply State.beginTurn_keeps | apply State.Keeps.ite | split)
theorem State.addHist_keeps {s₀ s : State} (hs₀ : s₀.Keeps s) (c : Conc) (t : Fin 16) (chan tap code : Nat) :
    s₀.Keeps (State.addHist s c t chan tap code) := by
  unfold State.addHist
  repeat (with_reducible first
    | exact hs₀
    | apply State.setConc_keeps
    | apply State.overflow_keeps
    | apply State.Keeps.ite
    | split
    | refine State.Keeps.same (mk_pending ..) (mk_regs ..) (mk_chans ..) (mk_tac ..) (mk_stale ..) (mk_tacStaged ..)
        (mk_rwsStaged ..) (mk_frames ..) (mk_lastCorr ..) (mk_scrubs ..) (mk_mramCorr ..) (mk_mramTac ..)
        (mk_mramTap ..) (mk_journal ..) (mk_eventQ ..) (mk_trig ..) ?_
    | dsimp only)
theorem State.launchAll_keeps {s₀ s : State} (hs₀ : s₀.Keeps s) (chans : List Nat) (tap : Nat) : s₀.Keeps
    (State.launchAll s chans tap) := by
  unfold State.launchAll
  repeat (with_reducible first
    | exact hs₀
    | apply State.launch_keeps
    | apply State.bump_keeps
    | apply State.Keeps.ite
    | refine State.Keeps.each ?_ ?_ <;> [(intro u x₁ hs₀; try dsimp only); skip]
    | split
    | refine State.Keeps.same (mk_pending ..) (mk_regs ..) (mk_chans ..) (mk_tac ..) (mk_stale ..) (mk_tacStaged ..)
        (mk_rwsStaged ..) (mk_frames ..) (mk_lastCorr ..) (mk_scrubs ..) (mk_mramCorr ..) (mk_mramTac ..)
        (mk_mramTap ..) (mk_journal ..) (mk_eventQ ..) (mk_trig ..) ?_
    | dsimp only)
theorem State.launchScheduled_keeps {s₀ s : State} (hs₀ : s₀.Keeps s) (t b : Fin 16) : s₀.Keeps
    (State.launchScheduled s t b) := by
  unfold State.launchScheduled
  repeat (with_reducible first | exact hs₀ | apply State.launchAll_keeps | apply State.Keeps.ite | split | dsimp only)
theorem State.injectionLaunch_keeps {s₀ s : State} (hs₀ : s₀.Keeps s) (t b : Fin 16) : s₀.Keeps
    (State.injectionLaunch s t b) := by
  unfold State.injectionLaunch
  repeat (with_reducible first
    | exact hs₀
    | apply State.putB_keeps
    | apply State.launchAll_keeps
    | apply State.launchScheduled_keeps
    | apply State.Keeps.ite
    | split
    | refine State.Keeps.same (mk_pending ..) (mk_regs ..) (mk_chans ..) (mk_tac ..) (mk_stale ..) (mk_tacStaged ..)
        (mk_rwsStaged ..) (mk_frames ..) (mk_lastCorr ..) (mk_scrubs ..) (mk_mramCorr ..) (mk_mramTac ..)
        (mk_mramTap ..) (mk_journal ..) (mk_eventQ ..) (mk_trig ..) ?_
    | dsimp only)
theorem State.fire_keeps {s₀ s : State} (hs₀ : s₀.Keeps s) (page : Nat) : s₀.Keeps (State.fire s page) := by
  unfold State.fire
  repeat (with_reducible first
    | exact hs₀
    | apply State.putB_keeps
    | apply State.Keeps.ite
    | split
    | refine State.Keeps.same (mk_pending ..) (mk_regs ..) (mk_chans ..) (mk_tac ..) (mk_stale ..) (mk_tacStaged ..)
        (mk_rwsStaged ..) (mk_frames ..) (mk_lastCorr ..) (mk_scrubs ..) (mk_mramCorr ..) (mk_mramTac ..)
        (mk_mramTap ..) (mk_journal ..) (mk_eventQ ..) (mk_trig ..) ?_)
theorem State.blindExpiry_keeps {s₀ s : State} (hs₀ : s₀.Keeps s) (chan t : Nat) : s₀.Keeps (State.blindExpiry s
    chan t) := by
  unfold State.blindExpiry
  repeat (with_reducible first
    | exact hs₀
    | apply State.advance_keeps
    | apply State.launchBlind_keeps
    | apply State.launch_keeps
    | apply State.endInject_keeps
    | apply State.Keeps.ite
    | split)
theorem State.includeRecord_keeps {s₀ s : State} (hs₀ : s₀.Keeps s) (c : Conc) (k : Capture) (code : Nat) (gen :
    Bool) : s₀.Keeps (State.includeRecord s c k code gen) := by
  unfold State.includeRecord
  repeat (with_reducible first
    | exact hs₀
    | apply State.Keeps.ite
    | split
    | refine State.Keeps.same (mk_pending ..) (mk_regs ..) (mk_chans ..) (mk_tac ..) (mk_stale ..) (mk_tacStaged ..)
        (mk_rwsStaged ..) (mk_frames ..) (mk_lastCorr ..) (mk_scrubs ..) (mk_mramCorr ..) (mk_mramTac ..)
        (mk_mramTap ..) (mk_journal ..) (mk_eventQ ..) (mk_trig ..) ?_
    | dsimp only)
theorem State.pairItem_keeps {s₀ s : State} (hs₀ : s₀.Keeps s) (c : Conc) (chan code : Nat) (gen : Bool) : s₀.Keeps
    (State.pairItem s c chan code gen) := by
  unfold State.pairItem
  repeat (with_reducible first
    | exact hs₀
    | apply State.setConc_keeps
    | apply State.includeRecord_keeps
    | apply State.Keeps.ite
    | split
    | refine State.Keeps.same (mk_pending ..) (mk_regs ..) (mk_chans ..) (mk_tac ..) (mk_stale ..) (mk_tacStaged ..)
        (mk_rwsStaged ..) (mk_frames ..) (mk_lastCorr ..) (mk_scrubs ..) (mk_mramCorr ..) (mk_mramTac ..)
        (mk_mramTap ..) (mk_journal ..) (mk_eventQ ..) (mk_trig ..) ?_
    | dsimp only)
theorem State.sideItemCmd_keeps {s₀ s : State} (hs₀ : s₀.Keeps s) (c : Conc) (t : Fin 16) (read port : EccRead) :
    s₀.Keeps (State.sideItemCmd s c t read port) := by
  unfold State.sideItemCmd
  repeat (with_reducible first
    | exact hs₀
    | apply State.setPort_keeps
    | apply State.countAnywhere_keeps
    | apply State.testBit_keeps
    | apply State.restartTurn_keeps
    | apply State.pairItem_keeps
    | apply State.addHist_keeps
    | apply State.Keeps.ite
    | split
    | refine State.Keeps.same (mk_pending ..) (mk_regs ..) (mk_chans ..) (mk_tac ..) (mk_stale ..) (mk_tacStaged ..)
        (mk_rwsStaged ..) (mk_frames ..) (mk_lastCorr ..) (mk_scrubs ..) (mk_mramCorr ..) (mk_mramTac ..)
        (mk_mramTap ..) (mk_journal ..) (mk_eventQ ..) (mk_trig ..) ?_
    | dsimp only)
theorem State.countFit_keeps {s₀ s : State} (hs₀ : s₀.Keeps s) (chan : Nat) (k : ChanFit) : s₀.Keeps (State.countFit
    s chan k) := by
  unfold State.countFit
  repeat (with_reducible first
    | exact hs₀
    | apply State.bump_keeps
    | apply State.put_keeps
    | apply State.event_keeps
    | apply State.eventIf_keeps
    | apply State.Keeps.ite
    | split
    | refine State.Keeps.same (mk_pending ..) (mk_regs ..) (mk_chans ..) (mk_tac ..) (mk_stale ..) (mk_tacStaged ..)
        (mk_rwsStaged ..) (mk_frames ..) (mk_lastCorr ..) (mk_scrubs ..) (mk_mramCorr ..) (mk_mramTac ..)
        (mk_mramTap ..) (mk_journal ..) (mk_eventQ ..) (mk_trig ..) ?_
    | dsimp only)
theorem State.fitTurn_keeps {s₀ s : State} (hs₀ : s₀.Keeps s) (t : Fin 16) : s₀.Keeps (State.fitTurn s t) := by
  unfold State.fitTurn
  repeat (with_reducible first
    | exact hs₀
    | apply State.eventIf_keeps
    | apply State.countFit_keeps
    | apply State.Keeps.ite
    | refine State.Keeps.each ?_ ?_ <;> [(intro u x₁ hs₀; try dsimp only); skip]
    | split
    | refine State.Keeps.of ?_ (mk_pending ..) (mk_regs ..) ?_ (mk_chans ..) ?_ (mk_tac ..) ?_ (mk_stale ..) ?_
        (mk_tacStaged ..) ?_ (mk_rwsStaged ..) ?_ (mk_frames ..) ?_ (mk_lastCorr ..) ?_ (mk_scrubs ..) ?_
        (mk_mramCorr ..) ?_ (mk_mramTac ..) ?_ (mk_mramTap ..) ?_ (mk_journal ..) ?_ (mk_eventQ ..) ?_ (mk_trig ..)
        ?_
    | exact id
    | exact mapWf_filterMap
    | exact mapWf_filter'
    | exact mapWf_putFilter
    | exact mapWf_nil'
    | exact mapWf_one
    | exact mapCanon_filter'
    | exact mapCanon_nil'
    | exact length_filter_le'
    | exact length_map'
    | exact nodup_filter'
    | exact TrigSt.accept_timed
    | exact (mapWf_map' (fun x => rfl))
    | exact (mapWf_map' (fun x => by split <;> rfl))
    | dsimp only)
theorem State.turnAccumEnd_keeps {s₀ s : State} (hs₀ : s₀.Keeps s) : s₀.Keeps (State.turnAccumEnd s) := by
  unfold State.turnAccumEnd
  repeat (with_reducible first | exact hs₀ | apply State.fitTurn_keeps | apply State.Keeps.ite | split)
theorem State.requestSwap_keeps {s₀ s : State} (hs₀ : s₀.Keeps s) (t : Fin 16) (delay : Nat) (byHost restoring :
    Bool) : s₀.Keeps (State.requestSwap s t delay byHost restoring) := by
  unfold State.requestSwap
  repeat (with_reducible first
    | exact hs₀
    | apply State.bump_keeps
    | apply State.event_keeps
    | apply State.put_keeps
    | apply State.putB_keeps
    | apply State.showSwap_keeps
    | apply State.Keeps.ite
    | split
    | refine State.Keeps.same (mk_pending ..) (mk_regs ..) (mk_chans ..) (mk_tac ..) (mk_stale ..) (mk_tacStaged ..)
        (mk_rwsStaged ..) (mk_frames ..) (mk_lastCorr ..) (mk_scrubs ..) (mk_mramCorr ..) (mk_mramTac ..)
        (mk_mramTap ..) (mk_journal ..) (mk_eventQ ..) (mk_trig ..) ?_
    | dsimp only)
theorem State.hostSwap_keeps {s₀ s : State} (hs₀ : s₀.Keeps s) : s₀.Keeps (State.hostSwap s) := by
  unfold State.hostSwap
  repeat (with_reducible first | exact hs₀ | apply State.requestSwap_keeps)
theorem State.stageResult_keeps {s₀ s : State} (hs₀ : s₀.Keeps s) (r : CalResult) : s₀.Keeps (State.stageResult s
    r) := by
  unfold State.stageResult
  repeat (with_reducible first
    | exact hs₀
    | apply State.stageEntry_keeps
    | apply State.Keeps.ite
    | refine State.Keeps.each ?_ ?_ <;> [(intro u x₁ hs₀; try dsimp only); skip]
    | refine State.Keeps.foldlSnd ?_ ?_ <;> [(intro x₀ x₁ hs₀; try dsimp only); skip]
    | refine State.Keeps.foldl ?_ ?_ <;> [(intro x₀ x₁ hs₀; try dsimp only); skip]
    | split
    | refine State.Keeps.of ?_ (mk_pending ..) (mk_regs ..) ?_ (mk_chans ..) ?_ (mk_tac ..) ?_ (mk_stale ..) ?_
        (mk_tacStaged ..) ?_ (mk_rwsStaged ..) ?_ (mk_frames ..) ?_ (mk_lastCorr ..) ?_ (mk_scrubs ..) ?_
        (mk_mramCorr ..) ?_ (mk_mramTac ..) ?_ (mk_mramTap ..) ?_ (mk_journal ..) ?_ (mk_eventQ ..) ?_ (mk_trig ..)
        ?_
    | exact id
    | exact mapWf_put'
    | exact mapWf_fold
    | exact mapCanon_fold
    | dsimp only)
theorem State.requestStaged_keeps {s₀ s : State} (hs₀ : s₀.Keeps s) (r : CalResult) : s₀.Keeps (State.requestStaged
    s r) := by
  unfold State.requestStaged
  repeat (with_reducible first
    | exact hs₀
    | apply State.requestSwap_keeps
    | apply State.putB_keeps
    | apply State.eventIf_keeps
    | apply State.Keeps.ite
    | split)
theorem State.stageWarm_keeps {s₀ s : State} (hs₀ : s₀.Keeps s) (t : Fin 16) : s₀.Keeps (State.stageWarm s t) := by
  unfold State.stageWarm
  repeat (with_reducible first
    | exact hs₀
    | apply State.stageResult_keeps
    | apply State.requestSwap_keeps
    | apply State.Keeps.ite
    | split
    | refine State.Keeps.same (mk_pending ..) (mk_regs ..) (mk_chans ..) (mk_tac ..) (mk_stale ..) (mk_tacStaged ..)
        (mk_rwsStaged ..) (mk_frames ..) (mk_lastCorr ..) (mk_scrubs ..) (mk_mramCorr ..) (mk_mramTac ..)
        (mk_mramTap ..) (mk_journal ..) (mk_eventQ ..) (mk_trig ..) ?_
    | dsimp only)
theorem State.warmNext_keeps {s₀ s : State} (hs₀ : s₀.Keeps s) (t : Fin 16) : s₀.Keeps (State.warmNext s t) := by
  unfold State.warmNext
  repeat (with_reducible first
    | exact hs₀
    | apply State.putB_keeps
    | apply State.beginTurn_keeps
    | apply State.Keeps.ite
    | split
    | refine State.Keeps.same (mk_pending ..) (mk_regs ..) (mk_chans ..) (mk_tac ..) (mk_stale ..) (mk_tacStaged ..)
        (mk_rwsStaged ..) (mk_frames ..) (mk_lastCorr ..) (mk_scrubs ..) (mk_mramCorr ..) (mk_mramTac ..)
        (mk_mramTap ..) (mk_journal ..) (mk_eventQ ..) (mk_trig ..) ?_
    | dsimp only)
theorem State.engineStage_keeps {s₀ s : State} (hs₀ : s₀.Keeps s) : s₀.Keeps (State.engineStage s) := by
  unfold State.engineStage
  repeat (with_reducible first
    | exact hs₀
    | apply State.stageWarm_keeps
    | apply State.warmNext_keeps
    | apply State.requestStaged_keeps
    | apply State.stageResult_keeps
    | apply State.Keeps.ite
    | split)
theorem State.restoreWord_keeps {s₀ s : State} (hs₀ : s₀.Keeps s) (c : Conc) (chan w : Nat) (v : Word) : s₀.Keeps
    (State.restoreWord s c chan w v) := by
  unfold State.restoreWord
  repeat (with_reducible first
    | exact hs₀
    | apply State.stageCorr_keeps
    | apply State.append_keeps
    | apply State.noteChange_keeps
    | apply State.Keeps.ite
    | refine State.Keeps.each ?_ ?_ <;> [(intro u x₁ hs₀; try dsimp only); skip]
    | split
    | refine State.Keeps.same (mk_pending ..) (mk_regs ..) (mk_chans ..) (mk_tac ..) (mk_stale ..) (mk_tacStaged ..)
        (mk_rwsStaged ..) (mk_frames ..) (mk_lastCorr ..) (mk_scrubs ..) (mk_mramCorr ..) (mk_mramTac ..)
        (mk_mramTap ..) (mk_journal ..) (mk_eventQ ..) (mk_trig ..) ?_
    | dsimp only)
theorem State.restoreEntry_keeps {s₀ s : State} (hs₀ : s₀.Keeps s) (c : Conc) (chan : Nat) : s₀.Keeps
    (State.restoreEntry s c chan) := by
  unfold State.restoreEntry
  repeat (with_reducible first
    | exact hs₀
    | apply State.restoreWord_keeps
    | apply State.requestSwap_keeps
    | apply State.Keeps.ite
    | refine State.Keeps.each ?_ ?_ <;> [(intro u x₁ hs₀; try dsimp only); skip]
    | split
    | dsimp only)
theorem State.commitSwap_keeps {s₀ s : State} (hs₀ : s₀.Keeps s) : s₀.Keeps (State.commitSwap s) := by
  unfold State.commitSwap
  repeat (with_reducible first
    | exact hs₀
    | apply State.withdrawSwap_keeps
    | apply State.showSwap_keeps
    | apply State.Keeps.ite
    | split
    | refine State.Keeps.same (mk_pending ..) (mk_regs ..) (mk_chans ..) (mk_tac ..) (mk_stale ..) (mk_tacStaged ..)
        (mk_rwsStaged ..) (mk_frames ..) (mk_lastCorr ..) (mk_scrubs ..) (mk_mramCorr ..) (mk_mramTac ..)
        (mk_mramTap ..) (mk_journal ..) (mk_eventQ ..) (mk_trig ..) ?_
    | dsimp only)
theorem State.installTile_keeps {s₀ s : State} (hs₀ : s₀.Keeps s) (t : Fin 16) : s₀.Keeps (State.installTile s
    t) := by
  unfold State.installTile
  repeat (with_reducible first
    | exact hs₀
    | apply State.put_keeps
    | apply State.event_keeps
    | apply State.Keeps.ite
    | refine State.Keeps.each ?_ ?_ <;> [(intro u x₁ hs₀; try dsimp only); skip]
    | refine State.Keeps.foldlSnd ?_ ?_ <;> [(intro x₀ x₁ hs₀; try dsimp only); skip]
    | refine State.Keeps.foldl ?_ ?_ <;> [(intro x₀ x₁ hs₀; try dsimp only); skip]
    | split
    | refine State.Keeps.of ?_ (mk_pending ..) (mk_regs ..) ?_ (mk_chans ..) ?_ (mk_tac ..) ?_ (mk_stale ..) ?_
        (mk_tacStaged ..) ?_ (mk_rwsStaged ..) ?_ (mk_frames ..) ?_ (mk_lastCorr ..) ?_ (mk_scrubs ..) ?_
        (mk_mramCorr ..) ?_ (mk_mramTac ..) ?_ (mk_mramTap ..) ?_ (mk_journal ..) ?_ (mk_eventQ ..) ?_ (mk_trig ..)
        ?_
    | exact id
    | exact mapWf_put'
    | exact mapWf_filter'
    | exact mapWf_putFilter
    | exact mapWf_fold
    | exact mapCanon_filter'
    | exact mapCanon_put'
    | exact mapCanon_fold
    | exact length_filter_le'
    | exact nodup_filter'
    | dsimp only)
theorem State.installCorr_keeps {s₀ s : State} (hs₀ : s₀.Keeps s) (c : Conc) (f epoch : Nat) : s₀.Keeps
    (State.installCorr s c f epoch) := by
  unfold State.installCorr
  repeat (with_reducible first
    | exact hs₀
    | apply State.setConc_keeps
    | apply State.putB_keeps
    | apply State.showStaged_keeps
    | apply State.put_keeps
    | apply State.event_keeps
    | apply State.Keeps.ite
    | split
    | refine State.Keeps.same (mk_pending ..) (mk_regs ..) (mk_chans ..) (mk_tac ..) (mk_stale ..) (mk_tacStaged ..)
        (mk_rwsStaged ..) (mk_frames ..) (mk_lastCorr ..) (mk_scrubs ..) (mk_mramCorr ..) (mk_mramTac ..)
        (mk_mramTap ..) (mk_journal ..) (mk_eventQ ..) (mk_trig ..) ?_
    | dsimp only)
theorem State.stepEpoch_keeps {s₀ s : State} (hs₀ : s₀.Keeps s) (f epoch : Nat) : s₀.Keeps (State.stepEpoch s f
    epoch) := by
  unfold State.stepEpoch
  repeat (with_reducible first
    | exact hs₀
    | apply State.put_keeps
    | apply State.Keeps.ite
    | split
    | refine State.Keeps.of ?_ (mk_pending ..) (mk_regs ..) ?_ (mk_chans ..) ?_ (mk_tac ..) ?_ (mk_stale ..) ?_
        (mk_tacStaged ..) ?_ (mk_rwsStaged ..) ?_ (mk_frames ..) ?_ (mk_lastCorr ..) ?_ (mk_scrubs ..) ?_
        (mk_mramCorr ..) ?_ (mk_mramTac ..) ?_ (mk_mramTap ..) ?_ (mk_journal ..) ?_ (mk_eventQ ..) ?_ (mk_trig ..)
        ?_
    | exact id
    | exact length_map'
    | exact (mapWf_map' (fun x => rfl))
    | exact (mapWf_map' (fun x => by split <;> rfl)))
theorem State.persistTables_keeps {s₀ s : State} (hs₀ : s₀.Keeps s) (t : Fin 16) (tables : Bool) (new : List (Nat ×
    BitVec 128)) : s₀.Keeps (State.persistTables s t tables new) := by
  unfold State.persistTables
  repeat (with_reducible first
    | exact hs₀
    | apply State.Keeps.ite
    | refine State.Keeps.foldlSnd ?_ ?_ <;> [(intro x₀ x₁ hs₀; try dsimp only); skip]
    | refine State.Keeps.foldl ?_ ?_ <;> [(intro x₀ x₁ hs₀; try dsimp only); skip]
    | split
    | refine State.Keeps.of ?_ (mk_pending ..) (mk_regs ..) ?_ (mk_chans ..) ?_ (mk_tac ..) ?_ (mk_stale ..) ?_
        (mk_tacStaged ..) ?_ (mk_rwsStaged ..) ?_ (mk_frames ..) ?_ (mk_lastCorr ..) ?_ (mk_scrubs ..) ?_
        (mk_mramCorr ..) ?_ (mk_mramTac ..) ?_ (mk_mramTap ..) ?_ (mk_journal ..) ?_ (mk_eventQ ..) ?_ (mk_trig ..)
        ?_
    | exact id
    | exact mapWf_put'
    | exact mapWf_filter'
    | exact mapWf_putFilter
    | exact mapWf_fold
    | exact mapCanon_filter'
    | exact mapCanon_fold
    | exact length_filter_le'
    | exact nodup_filter'
    | dsimp only)
theorem State.toggleParity_keeps {s₀ s : State} (hs₀ : s₀.Keeps s) (t : Fin 16) : s₀.Keeps (State.toggleParity s
    t) := by
  unfold State.toggleParity
  repeat (with_reducible first
    | exact hs₀
    | apply State.setTile_keeps
    | apply State.setRx_keeps
    | refine State.Keeps.each ?_ ?_ <;> [(intro u x₁ hs₀; try dsimp only); skip]
    | refine State.Keeps.same (mk_pending ..) (mk_regs ..) (mk_chans ..) (mk_tac ..) (mk_stale ..) (mk_tacStaged ..)
        (mk_rwsStaged ..) (mk_frames ..) (mk_lastCorr ..) (mk_scrubs ..) (mk_mramCorr ..) (mk_mramTac ..)
        (mk_mramTap ..) (mk_journal ..) (mk_eventQ ..) (mk_trig ..) ?_)
theorem State.setFitEpoch_keeps {s₀ s : State} (hs₀ : s₀.Keeps s) (l : List Nat) (epoch : Nat) : s₀.Keeps
    (State.setFitEpoch s l epoch) := by
  unfold State.setFitEpoch
  repeat (with_reducible first
    | exact hs₀
    | refine State.Keeps.foldlSnd ?_ ?_ <;> [(intro x₀ x₁ hs₀; try dsimp only); skip]
    | refine State.Keeps.foldl ?_ ?_ <;> [(intro x₀ x₁ hs₀; try dsimp only); skip]
    | refine State.Keeps.same (mk_pending ..) (mk_regs ..) (mk_chans ..) (mk_tac ..) (mk_stale ..) (mk_tacStaged ..)
        (mk_rwsStaged ..) (mk_frames ..) (mk_lastCorr ..) (mk_scrubs ..) (mk_mramCorr ..) (mk_mramTac ..)
        (mk_mramTap ..) (mk_journal ..) (mk_eventQ ..) (mk_trig ..) ?_)
theorem State.afterSwap_keeps {s₀ s : State} (hs₀ : s₀.Keeps s) (t : Fin 16) : s₀.Keeps (State.afterSwap s t) := by
  unfold State.afterSwap
  repeat (with_reducible first
    | exact hs₀
    | apply State.nextTurn_keeps
    | apply State.warmNext_keeps
    | apply State.Keeps.ite
    | split)
theorem State.readStaged_keeps {s₀ s : State} (hs₀ : s₀.Keeps s) (c : Conc) (f : Nat) (l : Reads) : s₀.Keeps
    (State.readStaged s c f l) := by
  unfold State.readStaged
  repeat (with_reducible first
    | exact hs₀
    | apply State.countAnywhere_keeps
    | apply State.setConc_keeps
    | apply State.Keeps.ite
    | refine State.Keeps.each ?_ ?_ <;> [(intro u x₁ hs₀; try dsimp only); skip]
    | split
    | refine State.Keeps.same (mk_pending ..) (mk_regs ..) (mk_chans ..) (mk_tac ..) (mk_stale ..) (mk_tacStaged ..)
        (mk_rwsStaged ..) (mk_frames ..) (mk_lastCorr ..) (mk_scrubs ..) (mk_mramCorr ..) (mk_mramTac ..)
        (mk_mramTap ..) (mk_journal ..) (mk_eventQ ..) (mk_trig ..) ?_
    | dsimp only)
theorem State.swapBoundary_keeps {s₀ s : State} (hs₀ : s₀.Keeps s) : s₀.Keeps (State.swapBoundary s) := by
  unfold State.swapBoundary
  repeat (with_reducible first
    | exact hs₀
    | apply State.installTile_keeps
    | apply State.toggleParity_keeps
    | apply State.installCorr_keeps
    | apply State.stepEpoch_keeps
    | apply State.bump_keeps
    | apply State.event_keeps
    | apply State.journalSwap_keeps
    | apply State.noteChange_keeps
    | apply State.persistTables_keeps
    | apply State.setFitEpoch_keeps
    | apply State.showSwap_keeps
    | apply State.afterSwap_keeps
    | apply State.Keeps.ite
    | refine State.Keeps.each ?_ ?_ <;> [(intro u x₁ hs₀; try dsimp only); skip]
    | split
    | refine State.Keeps.same (mk_pending ..) (mk_regs ..) (mk_chans ..) (mk_tac ..) (mk_stale ..) (mk_tacStaged ..)
        (mk_rwsStaged ..) (mk_frames ..) (mk_lastCorr ..) (mk_scrubs ..) (mk_mramCorr ..) (mk_mramTac ..)
        (mk_mramTap ..) (mk_journal ..) (mk_eventQ ..) (mk_trig ..) ?_
    | dsimp only)
theorem State.reloadTile_keeps {s₀ s : State} (hs₀ : s₀.Keeps s) (t : Fin 16) : s₀.Keeps (State.reloadTile s t) := by
  unfold State.reloadTile
  repeat (with_reducible first
    | exact hs₀
    | apply State.put_keeps
    | refine State.Keeps.each ?_ ?_ <;> [(intro u x₁ hs₀; try dsimp only); skip]
    | refine State.Keeps.foldlSnd ?_ ?_ <;> [(intro x₀ x₁ hs₀; try dsimp only); skip]
    | refine State.Keeps.foldl ?_ ?_ <;> [(intro x₀ x₁ hs₀; try dsimp only); skip]
    | refine State.Keeps.of ?_ (mk_pending ..) (mk_regs ..) ?_ (mk_chans ..) ?_ (mk_tac ..) ?_ (mk_stale ..) ?_
        (mk_tacStaged ..) ?_ (mk_rwsStaged ..) ?_ (mk_frames ..) ?_ (mk_lastCorr ..) ?_ (mk_scrubs ..) ?_
        (mk_mramCorr ..) ?_ (mk_mramTac ..) ?_ (mk_mramTap ..) ?_ (mk_journal ..) ?_ (mk_eventQ ..) ?_ (mk_trig ..)
        ?_
    | exact id
    | exact mapWf_put'
    | exact mapWf_filter'
    | exact mapWf_putFilter
    | exact mapWf_fold
    | exact mapCanon_filter'
    | exact mapCanon_put'
    | exact mapCanon_fold
    | exact length_filter_le'
    | exact nodup_filter'
    | dsimp only)

/-! Time.lean -/

theorem State.showSplice_keeps {s₀ s : State} (hs₀ : s₀.Keeps s) : s₀.Keeps (State.showSplice s) := by
  unfold State.showSplice
  repeat (with_reducible first | exact hs₀ | apply State.put_keeps)
theorem State.setSplice_keeps {s₀ s : State} (hs₀ : s₀.Keeps s) (v : Int) : s₀.Keeps (State.setSplice s v) := by
  unfold State.setSplice
  repeat (with_reducible first
    | exact hs₀
    | apply State.showSplice_keeps
    | refine State.Keeps.same (mk_pending ..) (mk_regs ..) (mk_chans ..) (mk_tac ..) (mk_stale ..) (mk_tacStaged ..)
        (mk_rwsStaged ..) (mk_frames ..) (mk_lastCorr ..) (mk_scrubs ..) (mk_mramCorr ..) (mk_mramTac ..)
        (mk_mramTap ..) (mk_journal ..) (mk_eventQ ..) (mk_trig ..) ?_)
theorem State.noteTq_keeps {s₀ s : State} (hs₀ : s₀.Keeps s) : s₀.Keeps (State.noteTq s) := by
  unfold State.noteTq
  repeat (with_reducible first
    | exact hs₀
    | apply State.put_keeps
    | apply State.Keeps.ite
    | split
    | refine State.Keeps.of ?_ (mk_pending ..) (mk_regs ..) ?_ (mk_chans ..) ?_ (mk_tac ..) ?_ (mk_stale ..) ?_
        (mk_tacStaged ..) ?_ (mk_rwsStaged ..) ?_ (mk_frames ..) ?_ (mk_lastCorr ..) ?_ (mk_scrubs ..) ?_
        (mk_mramCorr ..) ?_ (mk_mramTac ..) ?_ (mk_mramTap ..) ?_ (mk_journal ..) ?_ (mk_eventQ ..) ?_ (mk_trig ..)
        ?_
    | exact id
    | exact mapWf_put'
    | dsimp only)
theorem State.enterHoldover_keeps {s₀ s : State} (hs₀ : s₀.Keeps s) : s₀.Keeps (State.enterHoldover s) := by
  unfold State.enterHoldover
  repeat (with_reducible first
    | exact hs₀
    | apply State.putB_keeps
    | apply State.bump_keeps
    | apply State.event_keeps
    | apply State.put_keeps
    | apply State.Keeps.ite
    | split
    | refine State.Keeps.same (mk_pending ..) (mk_regs ..) (mk_chans ..) (mk_tac ..) (mk_stale ..) (mk_tacStaged ..)
        (mk_rwsStaged ..) (mk_frames ..) (mk_lastCorr ..) (mk_scrubs ..) (mk_mramCorr ..) (mk_mramTac ..)
        (mk_mramTap ..) (mk_journal ..) (mk_eventQ ..) (mk_trig ..) ?_
    | dsimp only)
theorem State.countHold_keeps {s₀ s : State} (hs₀ : s₀.Keeps s) (now : Nat) : s₀.Keeps (State.countHold s now) := by
  unfold State.countHold
  repeat (with_reducible first
    | exact hs₀
    | apply State.put_keeps
    | apply State.overflow_keeps
    | apply State.Keeps.ite
    | split
    | dsimp only)
theorem State.exitHoldover_keeps {s₀ s : State} (hs₀ : s₀.Keeps s) : s₀.Keeps (State.exitHoldover s) := by
  unfold State.exitHoldover
  repeat (with_reducible first
    | exact hs₀
    | apply State.countHold_keeps
    | apply State.putB_keeps
    | apply State.event_keeps
    | apply State.Keeps.ite
    | split
    | refine State.Keeps.same (mk_pending ..) (mk_regs ..) (mk_chans ..) (mk_tac ..) (mk_stale ..) (mk_tacStaged ..)
        (mk_rwsStaged ..) (mk_frames ..) (mk_lastCorr ..) (mk_scrubs ..) (mk_mramCorr ..) (mk_mramTac ..)
        (mk_mramTap ..) (mk_journal ..) (mk_eventQ ..) (mk_trig ..) ?_
    | dsimp only)
theorem State.drawDiscovery_keeps {s₀ s : State} (hs₀ : s₀.Keeps s) (u : Um) (b : Nat) : s₀.Keeps
    (State.drawDiscovery s u b) := by
  unfold State.drawDiscovery
  repeat (with_reducible first
    | exact hs₀
    | apply State.setUm_keeps
    | apply State.put_keeps
    | refine State.Keeps.same (mk_pending ..) (mk_regs ..) (mk_chans ..) (mk_tac ..) (mk_stale ..) (mk_tacStaged ..)
        (mk_rwsStaged ..) (mk_frames ..) (mk_lastCorr ..) (mk_scrubs ..) (mk_mramCorr ..) (mk_mramTac ..)
        (mk_mramTap ..) (mk_journal ..) (mk_eventQ ..) (mk_trig ..) ?_
    | dsimp only)
theorem State.startDiscovery_keeps {s₀ s : State} (hs₀ : s₀.Keeps s) (u : Um) : s₀.Keeps (State.startDiscovery s
    u) := by
  unfold State.startDiscovery
  repeat (with_reducible first | exact hs₀ | apply State.drawDiscovery_keeps | apply State.Keeps.ite | split)
theorem State.leaveStep9_keeps {s₀ s : State} (hs₀ : s₀.Keeps s) : s₀.Keeps (State.leaveStep9 s) := by
  unfold State.leaveStep9
  repeat (with_reducible first | exact hs₀ | apply State.put_keeps | apply State.Keeps.ite | split)
theorem State.gainLock_keeps {s₀ s : State} (hs₀ : s₀.Keeps s) (u : Um) : s₀.Keeps (State.gainLock s u) := by
  unfold State.gainLock
  repeat (with_reducible first
    | exact hs₀
    | apply State.putB_keeps
    | apply State.event_keeps
    | apply State.setUm_keeps
    | apply State.exitHoldover_keeps
    | apply State.startDiscovery_keeps
    | apply State.noteTq_keeps
    | apply State.Keeps.ite
    | split
    | refine State.Keeps.same (mk_pending ..) (mk_regs ..) (mk_chans ..) (mk_tac ..) (mk_stale ..) (mk_tacStaged ..)
        (mk_rwsStaged ..) (mk_frames ..) (mk_lastCorr ..) (mk_scrubs ..) (mk_mramCorr ..) (mk_mramTac ..)
        (mk_mramTap ..) (mk_journal ..) (mk_eventQ ..) (mk_trig ..) ?_
    | dsimp only)
theorem State.cleanerHolds_keeps {s₀ s : State} (hs₀ : s₀.Keeps s) : s₀.Keeps (State.cleanerHolds s) := by
  unfold State.cleanerHolds
  repeat (with_reducible first | exact hs₀ | apply State.putB_keeps | apply State.eventIf_keeps | dsimp only)
theorem State.scheduleAuto_keeps {s₀ s : State} (hs₀ : s₀.Keeps s) : s₀.Keeps (State.scheduleAuto s) := by
  unfold State.scheduleAuto
  repeat (with_reducible first
    | exact hs₀
    | apply State.bump_keeps
    | apply State.Keeps.ite
    | split
    | refine State.Keeps.same (mk_pending ..) (mk_regs ..) (mk_chans ..) (mk_tac ..) (mk_stale ..) (mk_tacStaged ..)
        (mk_rwsStaged ..) (mk_frames ..) (mk_lastCorr ..) (mk_scrubs ..) (mk_mramCorr ..) (mk_mramTac ..)
        (mk_mramTap ..) (mk_journal ..) (mk_eventQ ..) (mk_trig ..) ?_
    | dsimp only)
theorem State.loseLock_keeps {s₀ s : State} (hs₀ : s₀.Keeps s) (u : Um) : s₀.Keeps (State.loseLock s u) := by
  unfold State.loseLock
  repeat (with_reducible first
    | exact hs₀
    | apply State.putB_keeps
    | apply State.bump_keeps
    | apply State.event_keeps
    | apply State.setUm_keeps
    | apply State.cleanerHolds_keeps
    | apply State.enterHoldover_keeps
    | apply State.scheduleAuto_keeps
    | apply State.leaveStep9_keeps
    | apply State.noteTq_keeps
    | apply State.Keeps.ite
    | split
    | refine State.Keeps.same (mk_pending ..) (mk_regs ..) (mk_chans ..) (mk_tac ..) (mk_stale ..) (mk_tacStaged ..)
        (mk_rwsStaged ..) (mk_frames ..) (mk_lastCorr ..) (mk_scrubs ..) (mk_mramCorr ..) (mk_mramTac ..)
        (mk_mramTap ..) (mk_journal ..) (mk_eventQ ..) (mk_trig ..) ?_
    | dsimp only)
theorem State.cdrUnlock_keeps {s₀ s : State} (hs₀ : s₀.Keeps s) (u : Um) : s₀.Keeps (State.cdrUnlock s u) := by
  unfold State.cdrUnlock
  repeat (with_reducible first
    | exact hs₀
    | apply State.putB_keeps
    | apply State.loseLock_keeps
    | refine State.Keeps.same (mk_pending ..) (mk_regs ..) (mk_chans ..) (mk_tac ..) (mk_stale ..) (mk_tacStaged ..)
        (mk_rwsStaged ..) (mk_frames ..) (mk_lastCorr ..) (mk_scrubs ..) (mk_mramCorr ..) (mk_mramTac ..)
        (mk_mramTap ..) (mk_journal ..) (mk_eventQ ..) (mk_trig ..) ?_)
theorem State.badMarker_keeps {s₀ s : State} (hs₀ : s₀.Keeps s) (u : Um) (last : Option Nat) : s₀.Keeps
    (State.badMarker s u last) := by
  unfold State.badMarker
  repeat (with_reducible first
    | exact hs₀
    | apply State.bump_keeps
    | apply State.loseLock_keeps
    | apply State.Keeps.ite
    | split
    | refine State.Keeps.same (mk_pending ..) (mk_regs ..) (mk_chans ..) (mk_tac ..) (mk_stale ..) (mk_tacStaged ..)
        (mk_rwsStaged ..) (mk_frames ..) (mk_lastCorr ..) (mk_scrubs ..) (mk_mramCorr ..) (mk_mramTac ..)
        (mk_mramTap ..) (mk_journal ..) (mk_eventQ ..) (mk_trig ..) ?_
    | dsimp only)
theorem State.markerMissing_keeps {s₀ s : State} (hs₀ : s₀.Keeps s) (u : Um) : s₀.Keeps (State.markerMissing s
    u) := by
  unfold State.markerMissing
  repeat (with_reducible first | exact hs₀ | apply State.badMarker_keeps | apply State.Keeps.ite | split)
theorem State.mixedBoundary_keeps {s₀ s : State} (hs₀ : s₀.Keeps s) (f : Nat) : s₀.Keeps (State.mixedBoundary s
    f) := by
  unfold State.mixedBoundary
  repeat (with_reducible first
    | exact hs₀
    | apply State.putB_keeps
    | apply State.event_keeps
    | apply State.Keeps.ite
    | split
    | refine State.Keeps.same (mk_pending ..) (mk_regs ..) (mk_chans ..) (mk_tac ..) (mk_stale ..) (mk_tacStaged ..)
        (mk_rwsStaged ..) (mk_frames ..) (mk_lastCorr ..) (mk_scrubs ..) (mk_mramCorr ..) (mk_mramTac ..)
        (mk_mramTap ..) (mk_journal ..) (mk_eventQ ..) (mk_trig ..) ?_
    | dsimp only)
theorem State.tileStarts_keeps {s₀ s : State} (hs₀ : s₀.Keeps s) (f : Nat) (t : Fin 16) : s₀.Keeps (State.tileStarts
    s f t) := by
  unfold State.tileStarts
  repeat (with_reducible first
    | exact hs₀
    | apply State.setTile_keeps
    | apply State.showPort_keeps
    | apply State.setRx_keeps
    | apply State.Keeps.ite
    | refine State.Keeps.each ?_ ?_ <;> [(intro u x₁ hs₀; try dsimp only); skip]
    | split
    | refine State.Keeps.same (mk_pending ..) (mk_regs ..) (mk_chans ..) (mk_tac ..) (mk_stale ..) (mk_tacStaged ..)
        (mk_rwsStaged ..) (mk_frames ..) (mk_lastCorr ..) (mk_scrubs ..) (mk_mramCorr ..) (mk_mramTac ..)
        (mk_mramTap ..) (mk_journal ..) (mk_eventQ ..) (mk_trig ..) ?_
    | dsimp only)
theorem State.concReady_keeps {s₀ s : State} (hs₀ : s₀.Keeps s) (c : Conc) : s₀.Keeps (State.concReady s c) := by
  unfold State.concReady
  repeat (with_reducible first
    | exact hs₀
    | apply State.setConc_keeps
    | apply State.Keeps.ite
    | split
    | refine State.Keeps.same (mk_pending ..) (mk_regs ..) (mk_chans ..) (mk_tac ..) (mk_stale ..) (mk_tacStaged ..)
        (mk_rwsStaged ..) (mk_frames ..) (mk_lastCorr ..) (mk_scrubs ..) (mk_mramCorr ..) (mk_mramTac ..)
        (mk_mramTap ..) (mk_journal ..) (mk_eventQ ..) (mk_trig ..) ?_
    | dsimp only)
theorem State.concStarts_keeps {s₀ s : State} (hs₀ : s₀.Keeps s) (f : Nat) (c : Conc) : s₀.Keeps (State.concStarts s
    f c) := by
  unfold State.concStarts
  repeat (with_reducible first
    | exact hs₀
    | apply State.setConc_keeps
    | apply State.setPair_keeps
    | apply State.put_keeps
    | apply State.Keeps.ite
    | split
    | refine State.Keeps.same (mk_pending ..) (mk_regs ..) (mk_chans ..) (mk_tac ..) (mk_stale ..) (mk_tacStaged ..)
        (mk_rwsStaged ..) (mk_frames ..) (mk_lastCorr ..) (mk_scrubs ..) (mk_mramCorr ..) (mk_mramTac ..)
        (mk_mramTap ..) (mk_journal ..) (mk_eventQ ..) (mk_trig ..) ?_
    | dsimp only)
theorem State.startFrames_keeps {s₀ s : State} (hs₀ : s₀.Keeps s) (f : Nat) : s₀.Keeps (State.startFrames s f) := by
  unfold State.startFrames
  repeat (with_reducible first
    | exact hs₀
    | apply State.putB_keeps
    | apply State.put_keeps
    | apply State.tileStarts_keeps
    | apply State.concReady_keeps
    | apply State.concStarts_keeps
    | apply State.mixedBoundary_keeps
    | apply State.noteTq_keeps
    | refine State.Keeps.each ?_ ?_ <;> [(intro u x₁ hs₀; try dsimp only); skip]
    | refine State.Keeps.of ?_ (mk_pending ..) (mk_regs ..) ?_ (mk_chans ..) ?_ (mk_tac ..) ?_ (mk_stale ..) ?_
        (mk_tacStaged ..) ?_ (mk_rwsStaged ..) ?_ (mk_frames ..) ?_ (mk_lastCorr ..) ?_ (mk_scrubs ..) ?_
        (mk_mramCorr ..) ?_ (mk_mramTac ..) ?_ (mk_mramTap ..) ?_ (mk_journal ..) ?_ (mk_eventQ ..) ?_ (mk_trig ..)
        ?_
    | exact id
    | exact mapWf_filter'
    | exact mapWf_putFilter
    | exact mapWf_one
    | exact mapCanon_filter'
    | exact length_filter_le'
    | exact length_map'
    | exact nodup_filter'
    | exact (mapWf_map' (fun x => rfl))
    | exact (mapWf_map' (fun x => by split <;> rfl))
    | dsimp only)
theorem State.startOn_keeps {s₀ s : State} (hs₀ : s₀.Keeps s) (u : Um) (acc : Int) (byTimeout : Bool) : s₀.Keeps
    (State.startOn s u acc byTimeout) := by
  unfold State.startOn
  repeat (with_reducible first
    | exact hs₀
    | apply State.setSplice_keeps
    | apply State.putB_keeps
    | apply State.event_keeps
    | apply State.startFrames_keeps
    | apply State.enterHoldover_keeps
    | apply State.noteTq_keeps
    | apply State.Keeps.ite
    | refine State.Keeps.each ?_ ?_ <;> [(intro u x₁ hs₀; try dsimp only); skip]
    | split
    | refine State.Keeps.same (mk_pending ..) (mk_regs ..) (mk_chans ..) (mk_tac ..) (mk_stale ..) (mk_tacStaged ..)
        (mk_rwsStaged ..) (mk_frames ..) (mk_lastCorr ..) (mk_scrubs ..) (mk_mramCorr ..) (mk_mramTac ..)
        (mk_mramTap ..) (mk_journal ..) (mk_eventQ ..) (mk_trig ..) ?_
    | dsimp only)
theorem State.settleTimeout_keeps {s₀ s : State} (hs₀ : s₀.Keeps s) : s₀.Keeps (State.settleTimeout s) := by
  unfold State.settleTimeout
  repeat (with_reducible first
    | exact hs₀
    | apply State.putB_keeps
    | apply State.event_keeps
    | apply State.noteTq_keeps
    | apply State.Keeps.ite
    | split
    | refine State.Keeps.same (mk_pending ..) (mk_regs ..) (mk_chans ..) (mk_tac ..) (mk_stale ..) (mk_tacStaged ..)
        (mk_rwsStaged ..) (mk_frames ..) (mk_lastCorr ..) (mk_scrubs ..) (mk_mramCorr ..) (mk_mramTac ..)
        (mk_mramTap ..) (mk_journal ..) (mk_eventQ ..) (mk_trig ..) ?_
    | dsimp only)
theorem State.loadAcc_keeps {s₀ s : State} (hs₀ : s₀.Keeps s) (u : Um) (v i gained : Int) : s₀.Keeps (State.loadAcc
    s u v i gained) := by
  unfold State.loadAcc
  repeat (with_reducible first
    | exact hs₀
    | refine State.Keeps.same (mk_pending ..) (mk_regs ..) (mk_chans ..) (mk_tac ..) (mk_stale ..) (mk_tacStaged ..)
        (mk_rwsStaged ..) (mk_frames ..) (mk_lastCorr ..) (mk_scrubs ..) (mk_mramCorr ..) (mk_mramTac ..)
        (mk_mramTap ..) (mk_journal ..) (mk_eventQ ..) (mk_trig ..) ?_)
theorem State.acquire_keeps {s₀ s : State} (hs₀ : s₀.Keeps s) (u : Um) (time at_ sub : Nat) (gained : Int) :
    s₀.Keeps (State.acquire s u time at_ sub gained) := by
  unfold State.acquire
  repeat (with_reducible first
    | exact hs₀
    | apply State.putB_keeps
    | apply State.event_keeps
    | apply State.startOn_keeps
    | apply State.loadAcc_keeps
    | apply State.setSplice_keeps
    | apply State.exitHoldover_keeps
    | apply State.settleTimeout_keeps
    | apply State.Keeps.ite
    | split
    | refine State.Keeps.of ?_ (mk_pending ..) (mk_regs ..) ?_ (mk_chans ..) ?_ (mk_tac ..) ?_ (mk_stale ..) ?_
        (mk_tacStaged ..) ?_ (mk_rwsStaged ..) ?_ (mk_frames ..) ?_ (mk_lastCorr ..) ?_ (mk_scrubs ..) ?_
        (mk_mramCorr ..) ?_ (mk_mramTac ..) ?_ (mk_mramTap ..) ?_ (mk_journal ..) ?_ (mk_eventQ ..) ?_ (mk_trig ..)
        ?_
    | exact id
    | exact length_map'
    | exact (mapWf_map' (fun x => rfl))
    | exact (mapWf_map' (fun x => by split <;> rfl))
    | dsimp only)
theorem State.markErr_keeps {s₀ s : State} (hs₀ : s₀.Keeps s) (u : Um) (time at_ sub : Nat) (gained : Int) :
    s₀.Keeps (State.markErr s u time at_ sub gained) := by
  unfold State.markErr
  repeat (with_reducible first | exact hs₀ | apply State.put_keeps | dsimp only)
theorem State.adopt_keeps {s₀ s : State} (hs₀ : s₀.Keeps s) (u : Um) (m : Marker) : s₀.Keeps (State.adopt s u m) := by
  unfold State.adopt
  repeat (with_reducible first
    | exact hs₀
    | apply State.put_keeps
    | apply State.Keeps.ite
    | split
    | refine State.Keeps.of ?_ (mk_pending ..) (mk_regs ..) ?_ (mk_chans ..) ?_ (mk_tac ..) ?_ (mk_stale ..) ?_
        (mk_tacStaged ..) ?_ (mk_rwsStaged ..) ?_ (mk_frames ..) ?_ (mk_lastCorr ..) ?_ (mk_scrubs ..) ?_
        (mk_mramCorr ..) ?_ (mk_mramTac ..) ?_ (mk_mramTap ..) ?_ (mk_journal ..) ?_ (mk_eventQ ..) ?_ (mk_trig ..)
        ?_
    | exact id
    | exact mapWf_put'
    | exact mapWf_one
    | dsimp only)
theorem State.goodMarker_keeps {s₀ s : State} (hs₀ : s₀.Keeps s) (u : Um) (time at_ sub : Nat) (gained : Int) :
    s₀.Keeps (State.goodMarker s u time at_ sub gained) := by
  unfold State.goodMarker
  repeat (with_reducible first
    | exact hs₀
    | apply State.markErr_keeps
    | apply State.acquire_keeps
    | apply State.put_keeps
    | apply State.gainLock_keeps
    | apply State.Keeps.ite
    | split
    | refine State.Keeps.same (mk_pending ..) (mk_regs ..) (mk_chans ..) (mk_tac ..) (mk_stale ..) (mk_tacStaged ..)
        (mk_rwsStaged ..) (mk_frames ..) (mk_lastCorr ..) (mk_scrubs ..) (mk_mramCorr ..) (mk_mramTac ..)
        (mk_mramTap ..) (mk_journal ..) (mk_eventQ ..) (mk_trig ..) ?_
    | dsimp only)
theorem State.strayMarker_keeps {s₀ s : State} (hs₀ : s₀.Keeps s) (u : Um) (time at_ sub : Nat) (gained : Int) :
    s₀.Keeps (State.strayMarker s u time at_ sub gained) := by
  unfold State.strayMarker
  repeat (with_reducible first
    | exact hs₀
    | apply State.markErr_keeps
    | apply State.badMarker_keeps
    | apply State.Keeps.ite
    | split)
theorem State.superframeMarker_keeps {s₀ s : State} (hs₀ : s₀.Keeps s) (u : Um) (m : Marker) (at_ sub : Nat) :
    s₀.Keeps (State.superframeMarker s u m at_ sub) := by
  unfold State.superframeMarker
  repeat (with_reducible first
    | exact hs₀
    | apply State.advance_keeps
    | apply State.adopt_keeps
    | apply State.putB_keeps
    | apply State.goodMarker_keeps
    | apply State.strayMarker_keeps
    | apply State.badMarker_keeps
    | apply State.Keeps.ite
    | split
    | refine State.Keeps.same (mk_pending ..) (mk_regs ..) (mk_chans ..) (mk_tac ..) (mk_stale ..) (mk_tacStaged ..)
        (mk_rwsStaged ..) (mk_frames ..) (mk_lastCorr ..) (mk_scrubs ..) (mk_mramCorr ..) (mk_mramTac ..)
        (mk_mramTap ..) (mk_journal ..) (mk_eventQ ..) (mk_trig ..) ?_
    | dsimp only)
theorem State.acqTimeout_keeps {s₀ s : State} (hs₀ : s₀.Keeps s) : s₀.Keeps (State.acqTimeout s) := by
  unfold State.acqTimeout
  repeat (with_reducible first | exact hs₀ | apply State.startOn_keeps | apply State.Keeps.ite | split)
theorem State.cleanerLock_keeps {s₀ s : State} (hs₀ : s₀.Keeps s) : s₀.Keeps (State.cleanerLock s) := by
  unfold State.cleanerLock
  repeat (with_reducible first
    | exact hs₀
    | apply State.draw_keeps
    | apply State.putB_keeps
    | apply State.put_keeps
    | apply State.Keeps.ite
    | split
    | dsimp only)
theorem State.putCount_keeps {s₀ s : State} (hs₀ : s₀.Keeps s) (page : Nat) (f : FieldRef) (v : Nat) : s₀.Keeps
    (State.putCount s page f v) := by
  unfold State.putCount
  repeat (with_reducible first
    | exact hs₀
    | apply State.put_keeps
    | split
    | refine State.Keeps.of ?_ (mk_pending ..) (mk_regs ..) ?_ (mk_chans ..) ?_ (mk_tac ..) ?_ (mk_stale ..) ?_
        (mk_tacStaged ..) ?_ (mk_rwsStaged ..) ?_ (mk_frames ..) ?_ (mk_lastCorr ..) ?_ (mk_scrubs ..) ?_
        (mk_mramCorr ..) ?_ (mk_mramTac ..) ?_ (mk_mramTap ..) ?_ (mk_journal ..) ?_ (mk_eventQ ..) ?_ (mk_trig ..)
        ?_
    | exact id
    | exact mapWf_put')
theorem State.endSlew_keeps {s₀ s : State} (hs₀ : s₀.Keeps s) (u : Um) : s₀.Keeps (State.endSlew s u) := by
  unfold State.endSlew
  repeat (with_reducible first
    | exact hs₀
    | apply State.putCount_keeps
    | apply State.putB_keeps
    | apply State.event_keeps)
theorem State.runSlew_keeps {s₀ s : State} (hs₀ : s₀.Keeps s) (u : Um) (k : Nat) : s₀.Keeps (State.runSlew s u
    k) := by
  unfold State.runSlew
  repeat (with_reducible first
    | exact hs₀
    | apply State.putCount_keeps
    | apply State.endSlew_keeps
    | apply State.Keeps.ite
    | split)
theorem State.slewDone_keeps {s₀ s : State} (hs₀ : s₀.Keeps s) (u : Um) : s₀.Keeps (State.slewDone s u) := by
  unfold State.slewDone
  repeat (with_reducible first
    | exact hs₀
    | apply State.endSlew_keeps
    | apply State.Keeps.ite
    | split
    | refine State.Keeps.same (mk_pending ..) (mk_regs ..) (mk_chans ..) (mk_tac ..) (mk_stale ..) (mk_tacStaged ..)
        (mk_rwsStaged ..) (mk_frames ..) (mk_lastCorr ..) (mk_scrubs ..) (mk_mramCorr ..) (mk_mramTac ..)
        (mk_mramTap ..) (mk_journal ..) (mk_eventQ ..) (mk_trig ..) ?_
    | dsimp only)
theorem State.endSplice_keeps {s₀ s : State} (hs₀ : s₀.Keeps s) : s₀.Keeps (State.endSplice s) := by
  unfold State.endSplice
  repeat (with_reducible first
    | exact hs₀
    | apply State.putCount_keeps
    | refine State.Keeps.same (mk_pending ..) (mk_regs ..) (mk_chans ..) (mk_tac ..) (mk_stale ..) (mk_tacStaged ..)
        (mk_rwsStaged ..) (mk_frames ..) (mk_lastCorr ..) (mk_scrubs ..) (mk_mramCorr ..) (mk_mramTac ..)
        (mk_mramTap ..) (mk_journal ..) (mk_eventQ ..) (mk_trig ..) ?_)
theorem State.runSplice_keeps {s₀ s : State} (hs₀ : s₀.Keeps s) (n : Nat) : s₀.Keeps (State.runSplice s n) := by
  unfold State.runSplice
  repeat (with_reducible first
    | exact hs₀
    | apply State.setSplice_keeps
    | apply State.endSplice_keeps
    | apply State.putCount_keeps
    | apply State.Keeps.ite
    | split
    | dsimp only)
theorem State.spliceSlewEnd_keeps {s₀ s : State} (hs₀ : s₀.Keeps s) : s₀.Keeps (State.spliceSlewEnd s) := by
  unfold State.spliceSlewEnd
  repeat (with_reducible first
    | exact hs₀
    | apply State.runSplice_keeps
    | apply State.settleTimeout_keeps
    | apply State.Keeps.ite
    | split)
theorem State.advanceDomains_keeps {s₀ s : State} (hs₀ : s₀.Keeps s) (f : Nat) (drift : Int) : s₀.Keeps
    (State.advanceDomains s f drift) := by
  unfold State.advanceDomains
  repeat (with_reducible first
    | exact hs₀
    | apply State.runSplice_keeps
    | apply State.runSlew_keeps
    | apply State.Keeps.ite
    | split
    | refine State.Keeps.same (mk_pending ..) (mk_regs ..) (mk_chans ..) (mk_tac ..) (mk_stale ..) (mk_tacStaged ..)
        (mk_rwsStaged ..) (mk_frames ..) (mk_lastCorr ..) (mk_scrubs ..) (mk_mramCorr ..) (mk_mramTac ..)
        (mk_mramTap ..) (mk_journal ..) (mk_eventQ ..) (mk_trig ..) ?_
    | dsimp only)
theorem State.rejectSwitch_keeps {s₀ s : State} (hs₀ : s₀.Keeps s) : s₀.Keeps (State.rejectSwitch s) := by
  unfold State.rejectSwitch
  repeat (with_reducible first | exact hs₀ | apply State.bump_keeps | apply State.event_keeps)
theorem State.requestSwitch_keeps {s₀ s : State} (hs₀ : s₀.Keeps s) (target : Bool) (sheaf : Nat) : s₀.Keeps
    (State.requestSwitch s target sheaf).2 := by
  unfold State.requestSwitch
  repeat (with_reducible first
    | dsimp only
    | split
    | exact hs₀
    | apply State.putB_keeps
    | apply State.rejectSwitch_keeps
    | refine State.Keeps.same (mk_pending ..) (mk_regs ..) (mk_chans ..) (mk_tac ..) (mk_stale ..) (mk_tacStaged ..)
        (mk_rwsStaged ..) (mk_frames ..) (mk_lastCorr ..) (mk_scrubs ..) (mk_mramCorr ..) (mk_mramTac ..)
        (mk_mramTap ..) (mk_journal ..) (mk_eventQ ..) (mk_trig ..) ?_)
theorem State.dropSwitch_keeps {s₀ s : State} (hs₀ : s₀.Keeps s) : s₀.Keeps (State.dropSwitch s) := by
  unfold State.dropSwitch
  repeat (with_reducible first
    | exact hs₀
    | apply State.putB_keeps
    | refine State.Keeps.same (mk_pending ..) (mk_regs ..) (mk_chans ..) (mk_tac ..) (mk_stale ..) (mk_tacStaged ..)
        (mk_rwsStaged ..) (mk_frames ..) (mk_lastCorr ..) (mk_scrubs ..) (mk_mramCorr ..) (mk_mramTac ..)
        (mk_mramTap ..) (mk_journal ..) (mk_eventQ ..) (mk_trig ..) ?_)
theorem State.takeSwitch_keeps {s₀ s : State} (hs₀ : s₀.Keeps s) (t : Um) (auto : Bool) (f : Nat) : s₀.Keeps
    (State.takeSwitch s t auto f) := by
  unfold State.takeSwitch
  repeat (with_reducible first
    | exact hs₀
    | apply State.endSplice_keeps
    | apply State.setSplice_keeps
    | apply State.putB_keeps
    | apply State.bump_keeps
    | apply State.event_keeps
    | apply State.journalEvent_keeps
    | apply State.exitHoldover_keeps
    | apply State.enterHoldover_keeps
    | apply State.dropSwitch_keeps
    | apply State.settleTimeout_keeps
    | apply State.Keeps.ite
    | split
    | refine State.Keeps.of ?_ (mk_pending ..) (mk_regs ..) ?_ (mk_chans ..) ?_ (mk_tac ..) ?_ (mk_stale ..) ?_
        (mk_tacStaged ..) ?_ (mk_rwsStaged ..) ?_ (mk_frames ..) ?_ (mk_lastCorr ..) ?_ (mk_scrubs ..) ?_
        (mk_mramCorr ..) ?_ (mk_mramTac ..) ?_ (mk_mramTap ..) ?_ (mk_journal ..) ?_ (mk_eventQ ..) ?_ (mk_trig ..)
        ?_
    | exact id
    | exact length_map'
    | exact (mapWf_map' (fun x => rfl))
    | exact (mapWf_map' (fun x => by split <;> rfl))
    | dsimp only)
theorem State.freshTq_keeps {s₀ s : State} (hs₀ : s₀.Keeps s) : s₀.Keeps (State.freshTq s) := by
  unfold State.freshTq
  repeat (with_reducible first
    | exact hs₀
    | apply State.put_keeps
    | split
    | refine State.Keeps.of ?_ (mk_pending ..) (mk_regs ..) ?_ (mk_chans ..) ?_ (mk_tac ..) ?_ (mk_stale ..) ?_
        (mk_tacStaged ..) ?_ (mk_rwsStaged ..) ?_ (mk_frames ..) ?_ (mk_lastCorr ..) ?_ (mk_scrubs ..) ?_
        (mk_mramCorr ..) ?_ (mk_mramTac ..) ?_ (mk_mramTap ..) ?_ (mk_journal ..) ?_ (mk_eventQ ..) ?_ (mk_trig ..)
        ?_
    | exact id
    | exact mapWf_put')
theorem State.decideSwitch_keeps {s₀ s : State} (hs₀ : s₀.Keeps s) (p : PendSwitch) : s₀.Keeps (State.decideSwitch s
    p) := by
  unfold State.decideSwitch
  repeat (with_reducible first
    | exact hs₀
    | apply State.dropSwitch_keeps
    | apply State.rejectSwitch_keeps
    | apply State.takeSwitch_keeps
    | apply State.freshTq_keeps
    | apply State.Keeps.ite
    | split
    | refine State.Keeps.same (mk_pending ..) (mk_regs ..) (mk_chans ..) (mk_tac ..) (mk_stale ..) (mk_tacStaged ..)
        (mk_rwsStaged ..) (mk_frames ..) (mk_lastCorr ..) (mk_scrubs ..) (mk_mramCorr ..) (mk_mramTac ..)
        (mk_mramTap ..) (mk_journal ..) (mk_eventQ ..) (mk_trig ..) ?_
    | dsimp only)
theorem State.domainSwitchBoundary_keeps {s₀ s : State} (hs₀ : s₀.Keeps s) : s₀.Keeps (State.domainSwitchBoundary
    s) := by
  unfold State.domainSwitchBoundary
  repeat (with_reducible first
    | exact hs₀
    | apply State.decideSwitch_keeps
    | apply State.convertTimed_keeps
    | apply State.sendWindows_keeps
    | apply State.Keeps.ite
    | split)
theorem State.recheckSwitch_keeps {s₀ s : State} (hs₀ : s₀.Keeps s) (f : Nat) : s₀.Keeps (State.recheckSwitch s
    f) := by
  unfold State.recheckSwitch
  repeat (with_reducible first
    | exact hs₀
    | apply State.takeSwitch_keeps
    | apply State.freshTq_keeps
    | apply State.Keeps.ite
    | split
    | refine State.Keeps.same (mk_pending ..) (mk_regs ..) (mk_chans ..) (mk_tac ..) (mk_stale ..) (mk_tacStaged ..)
        (mk_rwsStaged ..) (mk_frames ..) (mk_lastCorr ..) (mk_scrubs ..) (mk_mramCorr ..) (mk_mramTac ..)
        (mk_mramTap ..) (mk_journal ..) (mk_eventQ ..) (mk_trig ..) ?_
    | dsimp only)
theorem State.slewWritten_keeps {s₀ s : State} (hs₀ : s₀.Keeps s) (u : Um) : s₀.Keeps (State.slewWritten s u) := by
  unfold State.slewWritten
  repeat (with_reducible first | exact hs₀ | apply State.putB_keeps)
theorem State.spliceWritten_keeps {s₀ s : State} (hs₀ : s₀.Keeps s) : s₀.Keeps (State.spliceWritten s) := by
  unfold State.spliceWritten
  repeat (with_reducible first
    | exact hs₀
    | refine State.Keeps.same (mk_pending ..) (mk_regs ..) (mk_chans ..) (mk_tac ..) (mk_stale ..) (mk_tacStaged ..)
        (mk_rwsStaged ..) (mk_frames ..) (mk_lastCorr ..) (mk_scrubs ..) (mk_mramCorr ..) (mk_mramTac ..)
        (mk_mramTap ..) (mk_journal ..) (mk_eventQ ..) (mk_trig ..) ?_)
theorem State.showSwitch_keeps {s₀ s : State} (hs₀ : s₀.Keeps s) (f : Nat) : s₀.Keeps (State.showSwitch s f) := by
  unfold State.showSwitch
  repeat (with_reducible first | exact hs₀ | apply State.putB_keeps | split)
theorem State.timeBoundary_keeps {s₀ s : State} (hs₀ : s₀.Keeps s) (f : Nat) (drift : Int) : s₀.Keeps
    (State.timeBoundary s f drift) := by
  unfold State.timeBoundary
  repeat (with_reducible first
    | exact hs₀
    | apply State.countHold_keeps
    | apply State.advanceDomains_keeps
    | apply State.put_keeps
    | apply State.settleTimeout_keeps
    | dsimp only)
theorem State.snap_keeps {s₀ s : State} (hs₀ : s₀.Keeps s) (f : Nat) : s₀.Keeps (State.snap s f) := by
  unfold State.snap
  repeat (with_reducible first
    | exact hs₀
    | apply State.put_keeps
    | refine State.Keeps.each ?_ ?_ <;> [(intro u x₁ hs₀; try dsimp only); skip]
    | dsimp only)

/-! Monitor.lean -/

theorem State.takeEntry_keeps {s₀ s : State} (hs₀ : s₀.Keeps s) (v : Visit) : s₀.Keeps (State.takeEntry s v) := by
  unfold State.takeEntry
  repeat (with_reducible first
    | exact hs₀
    | refine State.Keeps.same (mk_pending ..) (mk_regs ..) (mk_chans ..) (mk_tac ..) (mk_stale ..) (mk_tacStaged ..)
        (mk_rwsStaged ..) (mk_frames ..) (mk_lastCorr ..) (mk_scrubs ..) (mk_mramCorr ..) (mk_mramTac ..)
        (mk_mramTap ..) (mk_journal ..) (mk_eventQ ..) (mk_trig ..) ?_)
theorem State.touchEntry_keeps {s₀ s : State} (hs₀ : s₀.Keeps s) (page off : Nat) : s₀.Keeps (State.touchEntry s
    page off) := by
  unfold State.touchEntry
  repeat (with_reducible first
    | exact hs₀
    | apply State.Keeps.ite
    | split
    | refine State.Keeps.same (mk_pending ..) (mk_regs ..) (mk_chans ..) (mk_tac ..) (mk_stale ..) (mk_tacStaged ..)
        (mk_rwsStaged ..) (mk_frames ..) (mk_lastCorr ..) (mk_scrubs ..) (mk_mramCorr ..) (mk_mramTac ..)
        (mk_mramTap ..) (mk_journal ..) (mk_eventQ ..) (mk_trig ..) ?_)
theorem State.setBroken_keeps {s₀ s : State} (hs₀ : s₀.Keeps s) (n : Nat) (b : Bool) : s₀.Keeps (State.setBroken s n
    b) := by
  unfold State.setBroken
  repeat (with_reducible first
    | exact hs₀
    | apply State.wr_keeps
    | apply State.Keeps.ite
    | split
    | refine State.Keeps.same (mk_pending ..) (mk_regs ..) (mk_chans ..) (mk_tac ..) (mk_stale ..) (mk_tacStaged ..)
        (mk_rwsStaged ..) (mk_frames ..) (mk_lastCorr ..) (mk_scrubs ..) (mk_mramCorr ..) (mk_mramTac ..)
        (mk_mramTap ..) (mk_journal ..) (mk_eventQ ..) (mk_trig ..) ?_
    | dsimp only)
theorem State.setIlkSources_keeps {s₀ s : State} (hs₀ : s₀.Keeps s) (p : Pin) (l : Option (List IlkSource)) :
    s₀.Keeps (State.setIlkSources s p l) := by
  unfold State.setIlkSources
  repeat (with_reducible first
    | exact hs₀
    | split
    | refine State.Keeps.same (mk_pending ..) (mk_regs ..) (mk_chans ..) (mk_tac ..) (mk_stale ..) (mk_tacStaged ..)
        (mk_rwsStaged ..) (mk_frames ..) (mk_lastCorr ..) (mk_scrubs ..) (mk_mramCorr ..) (mk_mramTac ..)
        (mk_mramTap ..) (mk_journal ..) (mk_eventQ ..) (mk_trig ..) ?_)
theorem State.ilkFault_keeps {s₀ s : State} (hs₀ : s₀.Keeps s) (p : Pin) (cause : Nat) : s₀.Keeps (State.ilkFault s
    p cause) := by
  unfold State.ilkFault
  repeat (with_reducible first
    | exact hs₀
    | apply State.put_keeps
    | apply State.bump_keeps
    | apply State.event_keeps
    | apply State.Keeps.ite
    | split
    | dsimp only)
theorem State.ilkGood_keeps {s₀ s : State} (hs₀ : s₀.Keeps s) (p : Pin) (st : Nat) : s₀.Keeps (State.ilkGood s p
    st) := by
  unfold State.ilkGood
  repeat (with_reducible first | exact hs₀ | apply State.put_keeps | apply State.eventIf_keeps | dsimp only)
theorem State.ilkResult_keeps {s₀ s : State} (hs₀ : s₀.Keeps s) (p : Pin) (n : Nat) (value : Int) (fault stale ovr :
    Bool) (at_ : Nat) : s₀.Keeps (State.ilkResult s p n value fault stale ovr at_) := by
  unfold State.ilkResult
  repeat (with_reducible first
    | exact hs₀
    | apply State.ilkFault_keeps
    | apply State.ilkGood_keeps
    | apply State.setIlkSources_keeps
    | apply State.put_keeps
    | apply State.Keeps.ite
    | split
    | refine State.Keeps.same (mk_pending ..) (mk_regs ..) (mk_chans ..) (mk_tac ..) (mk_stale ..) (mk_tacStaged ..)
        (mk_rwsStaged ..) (mk_frames ..) (mk_lastCorr ..) (mk_scrubs ..) (mk_mramCorr ..) (mk_mramTac ..)
        (mk_mramTap ..) (mk_journal ..) (mk_eventQ ..) (mk_trig ..) ?_
    | dsimp only)
theorem State.ilkBoundary_keeps {s₀ s : State} (hs₀ : s₀.Keeps s) (p : Pin) : s₀.Keeps (State.ilkBoundary s p) := by
  unfold State.ilkBoundary
  repeat (with_reducible first
    | exact hs₀
    | apply State.setIlkSources_keeps
    | apply State.ilkFault_keeps
    | apply State.Keeps.ite
    | split
    | refine State.Keeps.same (mk_pending ..) (mk_regs ..) (mk_chans ..) (mk_tac ..) (mk_stale ..) (mk_tacStaged ..)
        (mk_rwsStaged ..) (mk_frames ..) (mk_lastCorr ..) (mk_scrubs ..) (mk_mramCorr ..) (mk_mramTac ..)
        (mk_mramTap ..) (mk_journal ..) (mk_eventQ ..) (mk_trig ..) ?_
    | dsimp only)
theorem State.ilkHoldExpiry_keeps {s₀ s : State} (hs₀ : s₀.Keeps s) (p : Pin) (at_ : Nat) : s₀.Keeps
    (State.ilkHoldExpiry s p at_) := by
  unfold State.ilkHoldExpiry
  repeat (with_reducible first
    | exact hs₀
    | apply State.advance_keeps
    | apply State.ilkFault_keeps
    | apply State.ilkGood_keeps
    | apply State.Keeps.ite
    | split
    | dsimp only)
theorem State.showVisit_keeps {s₀ s : State} (hs₀ : s₀.Keeps s) : s₀.Keeps (State.showVisit s) := by
  unfold State.showVisit
  repeat (with_reducible first | exact hs₀ | apply State.putB_keeps | apply State.put_keeps | split)
theorem State.visitBegin_keeps {s₀ s : State} (hs₀ : s₀.Keeps s) (n : Nat) (urgent : Bool) : s₀.Keeps
    (State.visitBegin s n urgent) := by
  unfold State.visitBegin
  repeat (with_reducible first
    | exact hs₀
    | apply State.takeEntry_keeps
    | apply State.put_keeps
    | apply State.showVisit_keeps
    | refine State.Keeps.same (mk_pending ..) (mk_regs ..) (mk_chans ..) (mk_tac ..) (mk_stale ..) (mk_tacStaged ..)
        (mk_rwsStaged ..) (mk_frames ..) (mk_lastCorr ..) (mk_scrubs ..) (mk_mramCorr ..) (mk_mramTac ..)
        (mk_mramTap ..) (mk_journal ..) (mk_eventQ ..) (mk_trig ..) ?_
    | dsimp only)
theorem State.passEnd_keeps {s₀ s : State} (hs₀ : s₀.Keeps s) : s₀.Keeps (State.passEnd s) := by
  unfold State.passEnd
  repeat (with_reducible first
    | exact hs₀
    | apply State.bumpWrap_keeps
    | apply State.event_keeps
    | apply State.putB_keeps
    | apply State.Keeps.ite
    | split
    | refine State.Keeps.same (mk_pending ..) (mk_regs ..) (mk_chans ..) (mk_tac ..) (mk_stale ..) (mk_tacStaged ..)
        (mk_rwsStaged ..) (mk_frames ..) (mk_lastCorr ..) (mk_scrubs ..) (mk_mramCorr ..) (mk_mramTac ..)
        (mk_mramTap ..) (mk_journal ..) (mk_eventQ ..) (mk_trig ..) ?_
    | dsimp only)
theorem State.passStep_keeps {s₀ s : State} (hs₀ : s₀.Keeps s) : s₀.Keeps (State.passStep s) := by
  unfold State.passStep
  repeat (with_reducible first
    | exact hs₀
    | apply State.visitBegin_keeps
    | apply State.passEnd_keeps
    | apply State.Keeps.ite
    | split
    | refine State.Keeps.same (mk_pending ..) (mk_regs ..) (mk_chans ..) (mk_tac ..) (mk_stale ..) (mk_tacStaged ..)
        (mk_rwsStaged ..) (mk_frames ..) (mk_lastCorr ..) (mk_scrubs ..) (mk_mramCorr ..) (mk_mramTac ..)
        (mk_mramTap ..) (mk_journal ..) (mk_eventQ ..) (mk_trig ..) ?_
    | dsimp only)
theorem State.visitNext_keeps {s₀ s : State} (hs₀ : s₀.Keeps s) : s₀.Keeps (State.visitNext s) := by
  unfold State.visitNext
  repeat (with_reducible first
    | exact hs₀
    | apply State.visitBegin_keeps
    | apply State.passStep_keeps
    | split
    | refine State.Keeps.same (mk_pending ..) (mk_regs ..) (mk_chans ..) (mk_tac ..) (mk_stale ..) (mk_tacStaged ..)
        (mk_rwsStaged ..) (mk_frames ..) (mk_lastCorr ..) (mk_scrubs ..) (mk_mramCorr ..) (mk_mramTac ..)
        (mk_mramTap ..) (mk_journal ..) (mk_eventQ ..) (mk_trig ..) ?_)
theorem State.leaveVisit_keeps {s₀ s : State} (hs₀ : s₀.Keeps s) : s₀.Keeps (State.leaveVisit s) := by
  unfold State.leaveVisit
  repeat (with_reducible first
    | exact hs₀
    | apply State.Keeps.ite
    | split
    | refine State.Keeps.same (mk_pending ..) (mk_regs ..) (mk_chans ..) (mk_tac ..) (mk_stale ..) (mk_tacStaged ..)
        (mk_rwsStaged ..) (mk_frames ..) (mk_lastCorr ..) (mk_scrubs ..) (mk_mramCorr ..) (mk_mramTac ..)
        (mk_mramTap ..) (mk_journal ..) (mk_eventQ ..) (mk_trig ..) ?_)
theorem State.visitEnd_keeps {s₀ s : State} (hs₀ : s₀.Keeps s) : s₀.Keeps (State.visitEnd s) := by
  unfold State.visitEnd
  repeat (with_reducible first
    | exact hs₀
    | apply State.leaveVisit_keeps
    | apply State.showVisit_keeps
    | apply State.visitNext_keeps
    | apply State.Keeps.ite
    | split
    | refine State.Keeps.same (mk_pending ..) (mk_regs ..) (mk_chans ..) (mk_tac ..) (mk_stale ..) (mk_tacStaged ..)
        (mk_rwsStaged ..) (mk_frames ..) (mk_lastCorr ..) (mk_scrubs ..) (mk_mramCorr ..) (mk_mramTac ..)
        (mk_mramTap ..) (mk_journal ..) (mk_eventQ ..) (mk_trig ..) ?_
    | dsimp only)
theorem State.urgentDue_keeps {s₀ s : State} (hs₀ : s₀.Keeps s) (n : Nat) : s₀.Keeps (State.urgentDue s n) := by
  unfold State.urgentDue
  repeat (with_reducible first
    | exact hs₀
    | apply State.visitNext_keeps
    | apply State.bump_keeps
    | apply State.leaveVisit_keeps
    | apply State.Keeps.ite
    | split
    | refine State.Keeps.same (mk_pending ..) (mk_regs ..) (mk_chans ..) (mk_tac ..) (mk_stale ..) (mk_tacStaged ..)
        (mk_rwsStaged ..) (mk_frames ..) (mk_lastCorr ..) (mk_scrubs ..) (mk_mramCorr ..) (mk_mramTac ..)
        (mk_mramTap ..) (mk_journal ..) (mk_eventQ ..) (mk_trig ..) ?_
    | dsimp only)
theorem State.writeResult_keeps {s₀ s : State} (hs₀ : s₀.Keeps s) (n : Nat) (value : Int) (fault stale ovr tested :
    Bool) (at_ : Nat) : s₀.Keeps (State.writeResult s n value fault stale ovr tested at_) := by
  unfold State.writeResult
  repeat (with_reducible first
    | exact hs₀
    | apply State.wr_keeps
    | apply State.bump_keeps
    | apply State.event_keeps
    | apply State.ilkResult_keeps
    | apply State.Keeps.ite
    | split
    | dsimp only)
theorem State.visitInvalid_keeps {s₀ s : State} (hs₀ : s₀.Keeps s) (v : Visit) : s₀.Keeps (State.visitInvalid s
    v) := by
  unfold State.visitInvalid
  repeat (with_reducible first | exact hs₀ | apply State.writeResult_keeps | apply State.visitEnd_keeps)
theorem State.visitSwitchDone_keeps {s₀ s : State} (hs₀ : s₀.Keeps s) : s₀.Keeps (State.visitSwitchDone s) := by
  unfold State.visitSwitchDone
  repeat (with_reducible first
    | exact hs₀
    | apply State.visitInvalid_keeps
    | apply State.Keeps.ite
    | split
    | refine State.Keeps.same (mk_pending ..) (mk_regs ..) (mk_chans ..) (mk_tac ..) (mk_stale ..) (mk_tacStaged ..)
        (mk_rwsStaged ..) (mk_frames ..) (mk_lastCorr ..) (mk_scrubs ..) (mk_mramCorr ..) (mk_mramTac ..)
        (mk_mramTap ..) (mk_journal ..) (mk_eventQ ..) (mk_trig ..) ?_
    | dsimp only)
theorem State.convert_keeps {s₀ s : State} (hs₀ : s₀.Keeps s) (v : Visit) (pos neg sine ext : Int) : s₀.Keeps
    (State.convert s v pos neg sine ext).2 := by
  unfold State.convert
  repeat (with_reducible first | dsimp only | split | exact hs₀ | apply State.draw_keeps)
theorem State.conversionResult_keeps {s₀ s : State} (hs₀ : s₀.Keeps s) (pos neg sine ref : Int) (ovr : Bool) (at_ :
    Nat) : s₀.Keeps (State.conversionResult s pos neg sine ref ovr at_) := by
  unfold State.conversionResult
  have k := State.advance_keeps hs₀ at_
  revert k
  generalize s.advance at_ = u
  intro k
  dsimp only
  split
  · exact k
  rename_i v e
  split
  · exact k
  have l := State.put_keeps k pgMONX Reg.MONX.PIN_OUT_PIN
    ((u.outside v true pos neg ++ u.outside v false pos neg).dedup.foldl (fun a p => a + 2 ^ p) 0)
  revert l
  generalize u.put pgMONX Reg.MONX.PIN_OUT_PIN
    ((u.outside v true pos neg ++ u.outside v false pos neg).dedup.foldl (fun a p => a + 2 ^ p) 0) = w
  intro l
  split
  · exact .same (mk_pending ..) (mk_regs ..) (mk_chans ..) (mk_tac ..) (mk_stale ..) (mk_tacStaged ..)
      (mk_rwsStaged ..) (mk_frames ..) (mk_lastCorr ..) (mk_scrubs ..) (mk_mramCorr ..) (mk_mramTac ..) (mk_mramTap
      ..) (mk_journal ..) (mk_eventQ ..) (mk_trig ..) l
  refine .ite (State.visitEnd_keeps (.same (mk_pending ..) (mk_regs ..) (mk_chans ..) (mk_tac ..) (mk_stale ..)
      (mk_tacStaged ..) (mk_rwsStaged ..) (mk_frames ..) (mk_lastCorr ..) (mk_scrubs ..) (mk_mramCorr ..)
      (mk_mramTac ..) (mk_mramTap ..) (mk_journal ..) (mk_eventQ ..) (mk_trig ..) ?_)) (.same (mk_pending ..)
      (mk_regs ..) (mk_chans ..) (mk_tac ..) (mk_stale ..) (mk_tacStaged ..) (mk_rwsStaged ..) (mk_frames ..)
      (mk_lastCorr ..) (mk_scrubs ..) (mk_mramCorr ..) (mk_mramTac ..) (mk_mramTap ..) (mk_journal ..) (mk_eventQ
      ..) (mk_trig ..) ?_)
  all_goals
    have m : s₀.Keeps ((if (w.broken v.entry && fieldGet Reg.MONX.XP_REARM v.xp == 1 && decide (v.left ≤ 1) &&
      (u.outside v true pos neg).isEmpty && (u.outside v false pos neg).isEmpty) = true then w.setBroken v.entry
          false else w).convert
        v pos neg sine ref).2 := State.convert_keeps (.ite (State.setBroken_keeps l ..) l) ..
    exact .ite (State.writeResult_keeps (State.draw_keeps m) ..) (State.writeResult_keeps (State.draw_keeps m) ..)
theorem State.wireBreak_keeps {s₀ s : State} (hs₀ : s₀.Keeps s) (cause : BreakCause) (at_ : Nat) : s₀.Keeps
    (State.wireBreak s cause at_) := by
  unfold State.wireBreak
  have k := State.advance_keeps hs₀ at_
  revert k
  generalize s.advance at_ = u
  intro k
  dsimp only
  cases u.mon.visit with
  | none => exact k
  | some v =>
    dsimp only
    generalize u.breakCode v cause = code
    cases code with
    | none => exact k
    | some x =>
      obtain ⟨n, pins⟩ := x
      dsimp only
      refine .ite k ?_
      have l := State.event_keeps (State.bump_keeps (State.put_keeps (State.setBroken_keeps k v.entry true) pgMONX
        Reg.MONX.PIN_OUT_PIN ((u.setBroken v.entry true).stored pgMONX Reg.MONX.PIN_OUT_PIN ||| pins)) pgMONX
        Reg.MONX.BREAK_CNT 0 1) pgMONX 0
      have m := State.writeResult_keeps (.ite (c := n = 3) (State.event_keeps (State.bump_keeps l pgMONX
          Reg.MONX.ILIM_CNT 1 1)
        pgMONX 1) l) v.entry n true false false false at_
      exact .ite (State.visitEnd_keeps m) (.same (mk_pending ..) (mk_regs ..) (mk_chans ..) (mk_tac ..)
          (mk_stale ..) (mk_tacStaged ..) (mk_rwsStaged ..) (mk_frames ..) (mk_lastCorr ..) (mk_scrubs ..)
          (mk_mramCorr ..) (mk_mramTac ..) (mk_mramTap ..) (mk_journal ..) (mk_eventQ ..) (mk_trig ..) m)
theorem State.extOkChange_keeps {s₀ s : State} (hs₀ : s₀.Keeps s) (ok : Bool) : s₀.Keeps (State.extOkChange s
    ok) := by
  unfold State.extOkChange
  repeat (with_reducible first
    | exact hs₀
    | apply State.putB_keeps
    | apply State.event_keeps
    | apply State.Keeps.ite
    | split
    | refine State.Keeps.same (mk_pending ..) (mk_regs ..) (mk_chans ..) (mk_tac ..) (mk_stale ..) (mk_tacStaged ..)
        (mk_rwsStaged ..) (mk_frames ..) (mk_lastCorr ..) (mk_scrubs ..) (mk_mramCorr ..) (mk_mramTac ..)
        (mk_mramTap ..) (mk_journal ..) (mk_eventQ ..) (mk_trig ..) ?_
    | dsimp only)
theorem State.visitBoundary_keeps {s₀ s : State} (hs₀ : s₀.Keeps s) : s₀.Keeps (State.visitBoundary s) := by
  unfold State.visitBoundary
  repeat (with_reducible first
    | exact hs₀
    | apply State.takeEntry_keeps
    | apply State.visitInvalid_keeps
    | apply State.Keeps.ite
    | split
    | refine State.Keeps.same (mk_pending ..) (mk_regs ..) (mk_chans ..) (mk_tac ..) (mk_stale ..) (mk_tacStaged ..)
        (mk_rwsStaged ..) (mk_frames ..) (mk_lastCorr ..) (mk_scrubs ..) (mk_mramCorr ..) (mk_mramTac ..)
        (mk_mramTap ..) (mk_journal ..) (mk_eventQ ..) (mk_trig ..) ?_
    | dsimp only)
theorem State.monStart_keeps {s₀ s : State} (hs₀ : s₀.Keeps s) : s₀.Keeps (State.monStart s) := by
  unfold State.monStart
  repeat (with_reducible first
    | exact hs₀
    | apply State.putB_keeps
    | apply State.Keeps.ite
    | split
    | refine State.Keeps.same (mk_pending ..) (mk_regs ..) (mk_chans ..) (mk_tac ..) (mk_stale ..) (mk_tacStaged ..)
        (mk_rwsStaged ..) (mk_frames ..) (mk_lastCorr ..) (mk_scrubs ..) (mk_mramCorr ..) (mk_mramTac ..)
        (mk_mramTap ..) (mk_journal ..) (mk_eventQ ..) (mk_trig ..) ?_)
theorem State.monStop_keeps {s₀ s : State} (hs₀ : s₀.Keeps s) : s₀.Keeps (State.monStop s) := by
  unfold State.monStop
  repeat (with_reducible first
    | exact hs₀
    | apply State.putB_keeps
    | apply State.visitEnd_keeps
    | apply State.Keeps.ite
    | split
    | refine State.Keeps.same (mk_pending ..) (mk_regs ..) (mk_chans ..) (mk_tac ..) (mk_stale ..) (mk_tacStaged ..)
        (mk_rwsStaged ..) (mk_frames ..) (mk_lastCorr ..) (mk_scrubs ..) (mk_mramCorr ..) (mk_mramTac ..)
        (mk_mramTap ..) (mk_journal ..) (mk_eventQ ..) (mk_trig ..) ?_
    | dsimp only)
theorem State.monBoundary_keeps {s₀ s : State} (hs₀ : s₀.Keeps s) : s₀.Keeps (State.monBoundary s) := by
  unfold State.monBoundary
  repeat (with_reducible first
    | exact hs₀
    | apply State.visitBoundary_keeps
    | apply State.ilkBoundary_keeps
    | apply State.visitNext_keeps
    | apply State.Keeps.ite
    | split
    | refine State.Keeps.same (mk_pending ..) (mk_regs ..) (mk_chans ..) (mk_tac ..) (mk_stale ..) (mk_tacStaged ..)
        (mk_rwsStaged ..) (mk_frames ..) (mk_lastCorr ..) (mk_scrubs ..) (mk_mramCorr ..) (mk_mramTac ..)
        (mk_mramTap ..) (mk_journal ..) (mk_eventQ ..) (mk_trig ..) ?_
    | dsimp only)

/-! Fwu.lean -/

theorem State.imgRefuse_keeps {s₀ s : State} (hs₀ : s₀.Keeps s) (cmd detail : Nat) : s₀.Keeps (State.imgRefuse s cmd
    detail).2 := by
  unfold State.imgRefuse
  repeat (with_reducible first | dsimp only | split | exact hs₀ | apply State.put_keeps | apply State.bump_keeps)
theorem State.setFwu_keeps {s₀ s : State} (hs₀ : s₀.Keeps s) (f : FwuSt) : s₀.Keeps (State.setFwu s f) := by
  unfold State.setFwu
  repeat (with_reducible first
    | exact hs₀
    | apply State.showFwu_keeps
    | refine State.Keeps.same (mk_pending ..) (mk_regs ..) (mk_chans ..) (mk_tac ..) (mk_stale ..) (mk_tacStaged ..)
        (mk_rwsStaged ..) (mk_frames ..) (mk_lastCorr ..) (mk_scrubs ..) (mk_mramCorr ..) (mk_mramTac ..)
        (mk_mramTap ..) (mk_journal ..) (mk_eventQ ..) (mk_trig ..) ?_)
theorem State.imgBegin_keeps {s₀ s : State} (hs₀ : s₀.Keeps s) (isK : Bool) (header : List Byte) (at_ : Nat) :
    s₀.Keeps (State.imgBegin s isK header at_).2 := by
  unfold State.imgBegin
  repeat (with_reducible first
    | dsimp only
    | split
    | exact hs₀
    | apply State.imgRefuse_keeps
    | apply State.setFwu_keeps
    | apply State.put_keeps
    | refine State.Keeps.same (mk_pending ..) (mk_regs ..) (mk_chans ..) (mk_tac ..) (mk_stale ..) (mk_tacStaged ..)
        (mk_rwsStaged ..) (mk_frames ..) (mk_lastCorr ..) (mk_scrubs ..) (mk_mramCorr ..) (mk_mramTac ..)
        (mk_mramTap ..) (mk_journal ..) (mk_eventQ ..) (mk_trig ..) ?_)
theorem State.imgData_keeps {s₀ s : State} (hs₀ : s₀.Keeps s) (off : Nat) (words : List Word) (at_ : Nat) : s₀.Keeps
    (State.imgData s off words at_).2 := by
  unfold State.imgData
  repeat (with_reducible first
    | dsimp only
    | split
    | exact hs₀
    | apply State.imgRefuse_keeps
    | apply State.setFwu_keeps
    | apply State.put_keeps
    | refine State.Keeps.same (mk_pending ..) (mk_regs ..) (mk_chans ..) (mk_tac ..) (mk_stale ..) (mk_tacStaged ..)
        (mk_rwsStaged ..) (mk_frames ..) (mk_lastCorr ..) (mk_scrubs ..) (mk_mramCorr ..) (mk_mramTac ..)
        (mk_mramTap ..) (mk_journal ..) (mk_eventQ ..) (mk_trig ..) ?_)
theorem State.imgEnd_keeps {s₀ s : State} (hs₀ : s₀.Keeps s) (isK : Bool) : s₀.Keeps (State.imgEnd s isK).2 := by
  unfold State.imgEnd
  repeat (with_reducible first
    | dsimp only
    | split
    | exact hs₀
    | apply State.imgRefuse_keeps
    | apply State.setFwu_keeps
    | apply State.bump_keeps
    | apply State.event_keeps
    | refine State.Keeps.same (mk_pending ..) (mk_regs ..) (mk_chans ..) (mk_tac ..) (mk_stale ..) (mk_tacStaged ..)
        (mk_rwsStaged ..) (mk_frames ..) (mk_lastCorr ..) (mk_scrubs ..) (mk_mramCorr ..) (mk_mramTac ..)
        (mk_mramTap ..) (mk_journal ..) (mk_eventQ ..) (mk_trig ..) ?_)
theorem State.imgCancel_keeps {s₀ s : State} (hs₀ : s₀.Keeps s) (isK : Bool) : s₀.Keeps (State.imgCancel s
    isK).2 := by
  unfold State.imgCancel
  repeat (with_reducible first
    | dsimp only
    | split
    | exact hs₀
    | apply State.imgRefuse_keeps
    | apply State.setFwu_keeps
    | refine State.Keeps.same (mk_pending ..) (mk_regs ..) (mk_chans ..) (mk_tac ..) (mk_stale ..) (mk_tacStaged ..)
        (mk_rwsStaged ..) (mk_frames ..) (mk_lastCorr ..) (mk_scrubs ..) (mk_mramCorr ..) (mk_mramTac ..)
        (mk_mramTap ..) (mk_journal ..) (mk_eventQ ..) (mk_trig ..) ?_)
theorem State.transferTimeout_keeps {s₀ s : State} (hs₀ : s₀.Keeps s) : s₀.Keeps (State.transferTimeout s) := by
  unfold State.transferTimeout
  repeat (with_reducible first
    | exact hs₀
    | apply State.setFwu_keeps
    | apply State.Keeps.ite
    | split
    | refine State.Keeps.same (mk_pending ..) (mk_regs ..) (mk_chans ..) (mk_tac ..) (mk_stale ..) (mk_tacStaged ..)
        (mk_rwsStaged ..) (mk_frames ..) (mk_lastCorr ..) (mk_scrubs ..) (mk_mramCorr ..) (mk_mramTac ..)
        (mk_mramTap ..) (mk_journal ..) (mk_eventQ ..) (mk_trig ..) ?_)
theorem State.imgCommit_keeps {s₀ s : State} (hs₀ : s₀.Keeps s) (isK : Bool) (version : Nat) : s₀.Keeps
    (State.imgCommit s isK version).2 := by
  unfold State.imgCommit
  repeat (with_reducible first
    | dsimp only
    | split
    | exact hs₀
    | apply State.imgRefuse_keeps
    | apply State.put_keeps
    | apply State.putB_keeps
    | apply State.setFwu_keeps
    | apply State.event_keeps
    | refine State.Keeps.same (mk_pending ..) (mk_regs ..) (mk_chans ..) (mk_tac ..) (mk_stale ..) (mk_tacStaged ..)
        (mk_rwsStaged ..) (mk_frames ..) (mk_lastCorr ..) (mk_scrubs ..) (mk_mramCorr ..) (mk_mramTac ..)
        (mk_mramTap ..) (mk_journal ..) (mk_eventQ ..) (mk_trig ..) ?_)
theorem State.imgReject_keeps {s₀ s : State} (hs₀ : s₀.Keeps s) (isK : Bool) : s₀.Keeps (State.imgReject s
    isK).2 := by
  unfold State.imgReject
  repeat (with_reducible first | split | exact hs₀ | apply State.imgRefuse_keeps)
theorem State.trialTimeout_keeps {s₀ s : State} (hs₀ : s₀.Keeps s) : s₀.Keeps (State.trialTimeout s) := by
  unfold State.trialTimeout
  repeat (with_reducible first | exact hs₀ | apply State.failTrial_keeps | apply State.Keeps.ite | split)
theorem State.coreRestart_keeps {s₀ s : State} (hs₀ : s₀.Keeps s) : s₀.Keeps (State.coreRestart s) := by
  unfold State.coreRestart
  repeat (with_reducible first
    | exact hs₀
    | apply State.uncorrectableRead_keeps
    | apply State.restartCore_keeps
    | apply State.Keeps.ite
    | split)
theorem State.revertTrial_keeps {s₀ s : State} (hs₀ : s₀.Keeps s) : s₀.Keeps (State.revertTrial s) := by
  unfold State.revertTrial
  repeat (with_reducible first
    | exact hs₀
    | apply State.withSettings_keeps
    | apply State.put_keeps
    | apply State.putB_keeps
    | apply State.bump_keeps
    | apply State.event_keeps
    | apply State.Keeps.ite
    | split
    | refine State.Keeps.same (mk_pending ..) (mk_regs ..) (mk_chans ..) (mk_tac ..) (mk_stale ..) (mk_tacStaged ..)
        (mk_rwsStaged ..) (mk_frames ..) (mk_lastCorr ..) (mk_scrubs ..) (mk_mramCorr ..) (mk_mramTac ..)
        (mk_mramTap ..) (mk_journal ..) (mk_eventQ ..) (mk_trig ..) ?_
    | dsimp only)
theorem State.installStaged_keeps {s₀ s : State} (hs₀ : s₀.Keeps s) : s₀.Keeps (State.installStaged s) := by
  unfold State.installStaged
  repeat (with_reducible first
    | exact hs₀
    | apply State.event_keeps
    | apply State.Keeps.ite
    | split
    | refine State.Keeps.same (mk_pending ..) (mk_regs ..) (mk_chans ..) (mk_tac ..) (mk_stale ..) (mk_tacStaged ..)
        (mk_rwsStaged ..) (mk_frames ..) (mk_lastCorr ..) (mk_scrubs ..) (mk_mramCorr ..) (mk_mramTac ..)
        (mk_mramTap ..) (mk_journal ..) (mk_eventQ ..) (mk_trig ..) ?_
    | dsimp only)
theorem State.migrate_keeps {s₀ s : State} (hs₀ : s₀.Keeps s) : s₀.Keeps (State.migrate s) := by
  unfold State.migrate
  repeat (with_reducible first
    | exact hs₀
    | apply State.withSettings_keeps
    | split
    | refine State.Keeps.of ?_ (mk_pending ..) (mk_regs ..) ?_ (mk_chans ..) ?_ (mk_tac ..) ?_ (mk_stale ..) ?_
        (mk_tacStaged ..) ?_ (mk_rwsStaged ..) ?_ (mk_frames ..) ?_ (mk_lastCorr ..) ?_ (mk_scrubs ..) ?_
        (mk_mramCorr ..) ?_ (mk_mramTac ..) ?_ (mk_mramTap ..) ?_ (mk_journal ..) ?_ (mk_eventQ ..) ?_ (mk_trig ..)
        ?_
    | exact id
    | exact length_map'
    | dsimp only)
theorem State.damagedC_keeps {s₀ s : State} (hs₀ : s₀.Keeps s) : s₀.Keeps (State.damagedC s) := by
  unfold State.damagedC
  repeat (with_reducible first
    | exact hs₀
    | apply State.event_keeps
    | apply State.put_keeps
    | apply State.Keeps.ite
    | split
    | refine State.Keeps.same (mk_pending ..) (mk_regs ..) (mk_chans ..) (mk_tac ..) (mk_stale ..) (mk_tacStaged ..)
        (mk_rwsStaged ..) (mk_frames ..) (mk_lastCorr ..) (mk_scrubs ..) (mk_mramCorr ..) (mk_mramTac ..)
        (mk_mramTap ..) (mk_journal ..) (mk_eventQ ..) (mk_trig ..) ?_
    | dsimp only)
theorem State.damagedK_keeps {s₀ s : State} (hs₀ : s₀.Keeps s) (ok : Bool) : s₀.Keeps (State.damagedK s ok) := by
  unfold State.damagedK
  repeat (with_reducible first
    | exact hs₀
    | apply State.putB_keeps
    | apply State.event_keeps
    | apply State.Keeps.ite
    | split)
theorem State.damagedSettings_keeps {s₀ s : State} (hs₀ : s₀.Keeps s) (ok : Bool) : s₀.Keeps (State.damagedSettings
    s ok) := by
  unfold State.damagedSettings
  repeat (with_reducible first
    | exact hs₀
    | apply State.withSettings_keeps
    | apply State.putB_keeps
    | apply State.event_keeps
    | apply State.Keeps.ite
    | split
    | refine State.Keeps.of ?_ (mk_pending ..) (mk_regs ..) ?_ (mk_chans ..) ?_ (mk_tac ..) ?_ (mk_stale ..) ?_
        (mk_tacStaged ..) ?_ (mk_rwsStaged ..) ?_ (mk_frames ..) ?_ (mk_lastCorr ..) ?_ (mk_scrubs ..) ?_
        (mk_mramCorr ..) ?_ (mk_mramTac ..) ?_ (mk_mramTap ..) ?_ (mk_journal ..) ?_ (mk_eventQ ..) ?_ (mk_trig ..)
        ?_
    | exact id
    | exact mapWf_nil'
    | exact mapWf_one
    | exact mapCanon_nil'
    | dsimp only)
theorem State.imageEngine_keeps {s₀ s : State} (hs₀ : s₀.Keeps s) (env : StartEnv) : s₀.Keeps (State.imageEngine s
    env).1 := by
  unfold State.imageEngine
  repeat (with_reducible first
    | dsimp only
    | split
    | exact hs₀
    | apply State.revertTrial_keeps
    | apply State.installStaged_keeps
    | apply State.damagedC_keeps
    | apply State.damagedK_keeps
    | apply State.migrate_keeps
    | apply State.damagedSettings_keeps
    | apply State.showFwu_keeps
    | refine State.Keeps.same (mk_pending ..) (mk_regs ..) (mk_chans ..) (mk_tac ..) (mk_stale ..) (mk_tacStaged ..)
        (mk_rwsStaged ..) (mk_frames ..) (mk_lastCorr ..) (mk_scrubs ..) (mk_mramCorr ..) (mk_mramTac ..)
        (mk_mramTap ..) (mk_journal ..) (mk_eventQ ..) (mk_trig ..) ?_)

/-! Power.lean -/

theorem State.clearTileBuckets_keeps {s₀ s : State} (hs₀ : s₀.Keeps s) (t : Fin 16) : s₀.Keeps
    (State.clearTileBuckets s t) := by
  unfold State.clearTileBuckets
  repeat (with_reducible first
    | exact hs₀
    | apply State.put_keeps
    | refine State.Keeps.each ?_ ?_ <;> [(intro u x₁ hs₀; try dsimp only); skip]
    | split
    | refine State.Keeps.of ?_ (mk_pending ..) (mk_regs ..) ?_ (mk_chans ..) ?_ (mk_tac ..) ?_ (mk_stale ..) ?_
        (mk_tacStaged ..) ?_ (mk_rwsStaged ..) ?_ (mk_frames ..) ?_ (mk_lastCorr ..) ?_ (mk_scrubs ..) ?_
        (mk_mramCorr ..) ?_ (mk_mramTac ..) ?_ (mk_mramTap ..) ?_ (mk_journal ..) ?_ (mk_eventQ ..) ?_ (mk_trig ..)
        ?_
    | exact id
    | exact mapWf_filter'
    | exact mapWf_putFilter
    | exact mapWf_one
    | exact mapCanon_filter'
    | exact length_filter_le'
    | exact nodup_filter'
    | dsimp only)
theorem State.raiseTile_keeps {s₀ s : State} (hs₀ : s₀.Keeps s) (t : Fin 16) (ok : Bool) (why : Nat) : s₀.Keeps
    (State.raiseTile s t ok why) := by
  unfold State.raiseTile
  repeat (with_reducible first
    | exact hs₀
    | apply State.setTile_keeps
    | apply State.put_keeps
    | apply State.testBit_keeps
    | apply State.eventIf_keeps
    | apply State.clearTileBuckets_keeps
    | apply State.loadClassK_keeps
    | apply State.loadSettings_keeps
    | apply State.reloadTile_keeps
    | apply State.putB_keeps
    | apply State.followBlocks_keeps
    | apply State.showPort_keeps
    | apply State.showPg_keeps
    | apply State.showDies_keeps
    | apply State.Keeps.ite
    | split
    | refine State.Keeps.same (mk_pending ..) (mk_regs ..) (mk_chans ..) (mk_tac ..) (mk_stale ..) (mk_tacStaged ..)
        (mk_rwsStaged ..) (mk_frames ..) (mk_lastCorr ..) (mk_scrubs ..) (mk_mramCorr ..) (mk_mramTac ..)
        (mk_mramTap ..) (mk_journal ..) (mk_eventQ ..) (mk_trig ..) ?_
    | dsimp only)
theorem State.powerTile_keeps {s₀ s : State} (hs₀ : s₀.Keeps s) (t : Fin 16) (start : TileStart) (why : Nat) :
    s₀.Keeps (State.powerTile s t start why) := by
  unfold State.powerTile
  repeat (with_reducible first
    | exact hs₀
    | apply State.loadMram_keeps
    | apply State.raiseTile_keeps
    | apply State.Keeps.ite
    | split
    | dsimp only)
theorem State.tilePowerUp_keeps {s₀ s : State} (hs₀ : s₀.Keeps s) (t : Fin 16) (start : TileStart) : s₀.Keeps
    (State.tilePowerUp s t start) := by
  unfold State.tilePowerUp
  repeat (with_reducible first | exact hs₀ | apply State.powerTile_keeps | apply State.Keeps.ite | split)
theorem State.groupTile_keeps {s₀ s : State} (hs₀ : s₀.Keeps s) (failing : BitVec 16) (t : Fin 16) : s₀.Keeps
    (State.groupTile s failing t) := by
  unfold State.groupTile
  repeat (with_reducible first
    | exact hs₀
    | apply State.put_keeps
    | apply State.raiseTile_keeps
    | apply State.Keeps.ite
    | split
    | dsimp only)
theorem State.tileGroupPower_keeps {s₀ s : State} (hs₀ : s₀.Keeps s) (g : Fin 4) (start : GroupStart) : s₀.Keeps
    (State.tileGroupPower s g start) := by
  unfold State.tileGroupPower
  repeat (with_reducible first
    | exact hs₀
    | apply State.loadMram_keeps
    | apply State.groupTile_keeps
    | apply State.put_keeps
    | apply State.startDiscovery_keeps
    | apply State.leaveStep9_keeps
    | apply State.Keeps.ite
    | refine State.Keeps.each ?_ ?_ <;> [(intro u x₁ hs₀; try dsimp only); skip]
    | split
    | refine State.Keeps.same (mk_pending ..) (mk_regs ..) (mk_chans ..) (mk_tac ..) (mk_stale ..) (mk_tacStaged ..)
        (mk_rwsStaged ..) (mk_frames ..) (mk_lastCorr ..) (mk_scrubs ..) (mk_mramCorr ..) (mk_mramTac ..)
        (mk_mramTap ..) (mk_journal ..) (mk_eventQ ..) (mk_trig ..) ?_
    | dsimp only)
theorem State.tileStops_keeps {s₀ s : State} (hs₀ : s₀.Keeps s) (t : Fin 16) : s₀.Keeps (State.tileStops s t) := by
  unfold State.tileStops
  repeat (with_reducible first
    | exact hs₀
    | apply State.tileLost_keeps
    | apply State.put_keeps
    | apply State.showPg_keeps
    | apply State.showDies_keeps
    | apply State.stopRecording_keeps
    | apply State.setTile_keeps
    | apply State.dropHits_keeps
    | apply State.disarmAll_keeps
    | apply State.putB_keeps
    | apply State.followBlocks_keeps
    | apply State.Keeps.ite
    | split
    | refine State.Keeps.same (mk_pending ..) (mk_regs ..) (mk_chans ..) (mk_tac ..) (mk_stale ..) (mk_tacStaged ..)
        (mk_rwsStaged ..) (mk_frames ..) (mk_lastCorr ..) (mk_scrubs ..) (mk_mramCorr ..) (mk_mramTac ..)
        (mk_mramTap ..) (mk_journal ..) (mk_eventQ ..) (mk_trig ..) ?_
    | dsimp only)
theorem State.powerGood_keeps {s₀ s : State} (hs₀ : s₀.Keeps s) : s₀.Keeps (State.powerGood s) := by
  unfold State.powerGood
  repeat (with_reducible first
    | exact hs₀
    | apply State.showPg_keeps
    | apply State.Keeps.ite
    | split
    | refine State.Keeps.same (mk_pending ..) (mk_regs ..) (mk_chans ..) (mk_tac ..) (mk_stale ..) (mk_tacStaged ..)
        (mk_rwsStaged ..) (mk_frames ..) (mk_lastCorr ..) (mk_scrubs ..) (mk_mramCorr ..) (mk_mramTac ..)
        (mk_mramTap ..) (mk_journal ..) (mk_eventQ ..) (mk_trig ..) ?_)
theorem State.powerFail_keeps {s₀ s : State} (hs₀ : s₀.Keeps s) (under : Bool) : s₀.Keeps (State.powerFail s
    under) := by
  unfold State.powerFail
  repeat (with_reducible first | exact hs₀ | apply State.boot_keeps | apply State.Keeps.ite | split)
theorem State.resetAssert_keeps {s₀ s : State} (hs₀ : s₀.Keeps s) : s₀.Keeps (State.resetAssert s) := by
  unfold State.resetAssert
  repeat (with_reducible first
    | exact hs₀
    | apply State.boot_keeps
    | apply State.showPg_keeps
    | apply State.Keeps.ite
    | split
    | refine State.Keeps.same (mk_pending ..) (mk_regs ..) (mk_chans ..) (mk_tac ..) (mk_stale ..) (mk_tacStaged ..)
        (mk_rwsStaged ..) (mk_frames ..) (mk_lastCorr ..) (mk_scrubs ..) (mk_mramCorr ..) (mk_mramTac ..)
        (mk_mramTap ..) (mk_journal ..) (mk_eventQ ..) (mk_trig ..) ?_)
theorem State.resetRelease_keeps {s₀ s : State} (hs₀ : s₀.Keeps s) : s₀.Keeps (State.resetRelease s) := by
  unfold State.resetRelease
  repeat (with_reducible first
    | exact hs₀
    | apply State.showPg_keeps
    | apply State.Keeps.ite
    | split
    | refine State.Keeps.same (mk_pending ..) (mk_regs ..) (mk_chans ..) (mk_tac ..) (mk_stale ..) (mk_tacStaged ..)
        (mk_rwsStaged ..) (mk_frames ..) (mk_lastCorr ..) (mk_scrubs ..) (mk_mramCorr ..) (mk_mramTac ..)
        (mk_mramTap ..) (mk_journal ..) (mk_eventQ ..) (mk_trig ..) ?_
    | dsimp only)
theorem State.startStep1_keeps {s₀ s : State} (hs₀ : s₀.Keeps s) : s₀.Keeps (State.startStep1 s) := by
  unfold State.startStep1
  repeat (with_reducible first
    | exact hs₀
    | apply State.put_keeps
    | apply State.putB_keeps
    | apply State.bump_keeps
    | apply State.eventIf_keeps
    | apply State.event_keeps
    | apply State.Keeps.ite
    | split
    | dsimp only)
theorem State.gateLoaded_keeps {s₀ s : State} (hs₀ : s₀.Keeps s) (p : Pin) : s₀.Keeps (State.gateLoaded s p) := by
  unfold State.gateLoaded
  repeat (with_reducible first
    | exact hs₀
    | apply State.putB_keeps
    | apply State.setTile_keeps
    | refine State.Keeps.each ?_ ?_ <;> [(intro u x₁ hs₀; try dsimp only); skip]
    | refine State.Keeps.same (mk_pending ..) (mk_regs ..) (mk_chans ..) (mk_tac ..) (mk_stale ..) (mk_tacStaged ..)
        (mk_rwsStaged ..) (mk_frames ..) (mk_lastCorr ..) (mk_scrubs ..) (mk_mramCorr ..) (mk_mramTac ..)
        (mk_mramTap ..) (mk_journal ..) (mk_eventQ ..) (mk_trig ..) ?_
    | dsimp only)
theorem State.startStep2_keeps {s₀ s : State} (hs₀ : s₀.Keeps s) : s₀.Keeps (State.startStep2 s) := by
  unfold State.startStep2
  repeat (with_reducible first
    | exact hs₀
    | apply State.loadClassK_keeps
    | apply State.loadSettings_keeps
    | apply State.gateLoaded_keeps
    | apply State.put_keeps
    | apply State.putB_keeps
    | apply State.showJournal_keeps
    | apply State.showRemap_keeps
    | apply State.ilkBoundary_keeps
    | apply State.journalEvent_keeps
    | apply State.showFwu_keeps
    | refine State.Keeps.each ?_ ?_ <;> [(intro u x₁ hs₀; try dsimp only); skip]
    | dsimp only)
theorem State.startConc_keeps {s₀ s : State} (hs₀ : s₀.Keeps s) (pass : BitVec 24) (board : Nat) (c : Conc) :
    s₀.Keeps (State.startConc s pass board c) := by
  unfold State.startConc
  repeat (with_reducible first
    | exact hs₀
    | apply State.setRail_keeps
    | apply State.concChecked_keeps
    | apply State.bringUp_keeps
    | apply State.setConc_keeps
    | apply State.Keeps.ite
    | split
    | refine State.Keeps.same (mk_pending ..) (mk_regs ..) (mk_chans ..) (mk_tac ..) (mk_stale ..) (mk_tacStaged ..)
        (mk_rwsStaged ..) (mk_frames ..) (mk_lastCorr ..) (mk_scrubs ..) (mk_mramCorr ..) (mk_mramTac ..)
        (mk_mramTap ..) (mk_journal ..) (mk_eventQ ..) (mk_trig ..) ?_
    | dsimp only)
theorem State.startCore_keeps {s₀ s : State} (hs₀ : s₀.Keeps s) (trial : TrialStart) : s₀.Keeps (State.startCore s
    trial) := by
  unfold State.startCore
  repeat (with_reducible first
    | exact hs₀
    | apply State.putB_keeps
    | apply State.showFwu_keeps
    | apply State.put_keeps
    | apply State.Keeps.ite
    | split)
theorem State.startSequence_keeps {s₀ s : State} (hs₀ : s₀.Keeps s) (env : StartEnv) : s₀.Keeps (State.startSequence
    s env) := by
  unfold State.startSequence
  split
  · exact hs₀
  have k := State.imageEngine_keeps (State.readMram_keeps (State.startStep1_keeps hs₀) env.mram) env
  revert k
  generalize (s.startStep1.readMram env.mram).imageEngine env = p
  obtain ⟨u, x⟩ := p
  intro k
  dsimp only at k ⊢
  split
  · exact State.failTrial_keeps k ..
  have l := State.eventIf_keeps (State.putB_keeps (State.startStep2_keeps k) pgINTG Reg.INTG.ST_STAT_BELFRY
      env.belfryOk)
    (!env.belfryOk) pgINTG 28
  revert l
  generalize ((u.startStep2.putB pgINTG Reg.INTG.ST_STAT_BELFRY env.belfryOk).eventIf (!env.belfryOk) pgINTG 28) = v
  intro l
  have m : s₀.Keeps { v with pow := { v.pow with
      mode := .on, groups := 0, uvlo := false, busFault := false, belfryFault := false } } :=
    .same (mk_pending ..) (mk_regs ..) (mk_chans ..) (mk_tac ..) (mk_stale ..) (mk_tacStaged ..) (mk_rwsStaged ..)
        (mk_frames ..) (mk_lastCorr ..) (mk_scrubs ..) (mk_mramCorr ..) (mk_mramTac ..) (mk_mramTap ..) (mk_journal
        ..) (mk_eventQ ..) (mk_trig ..) l
  revert m
  generalize ({ v with pow := { v.pow with
      mode := .on, groups := 0, uvlo := false, busFault := false, belfryFault := false } } : State) = w
  intro m
  refine .ite ?_ ?_
  · exact State.showDies_keeps (State.showPg_keeps (.each (fun _ _ h => State.startDiscovery_keeps h ..)
      (State.put_keeps m ..)))
  · exact State.showDies_keeps (State.showPg_keeps (State.startCore_keeps (State.putB_keeps (State.startConc_keeps
      (State.startConc_keeps m ..) ..) ..) ..))
theorem State.ready_keeps {s₀ s : State} (hs₀ : s₀.Keeps s) (ms : Nat) : s₀.Keeps (State.ready s ms) := by
  unfold State.ready
  repeat (with_reducible first
    | exact hs₀
    | apply State.put_keeps
    | apply State.event_keeps
    | apply State.startGrant_keeps
    | apply State.Keeps.ite
    | split
    | dsimp only)
theorem State.dieStops_keeps {s₀ s : State} (hs₀ : s₀.Keeps s) (x0 : Die) : s₀.Keeps (State.dieStops s x0) := by
  unfold State.dieStops
  repeat (with_reducible first
    | exact hs₀
    | apply State.tileStops_keeps
    | apply State.resetConc_keeps
    | apply State.showPg_keeps
    | split)
theorem State.belfryStops_keeps {s₀ s : State} (hs₀ : s₀.Keeps s) (fault : Bool) : s₀.Keeps (State.belfryStops s
    fault) := by
  unfold State.belfryStops
  repeat (with_reducible first | exact hs₀ | apply State.boot_keeps | split)
theorem State.converterFault_keeps {s₀ s : State} (hs₀ : s₀.Keeps s) (d : Die) : s₀.Keeps (State.converterFault s
    d) := by
  unfold State.converterFault
  repeat (with_reducible first
    | exact hs₀
    | apply State.boot_keeps
    | apply State.belfryStops_keeps
    | apply State.wr_keeps
    | apply State.bump_keeps
    | apply State.event_keeps
    | apply State.dieStops_keeps
    | apply State.Keeps.ite
    | split
    | refine State.Keeps.same (mk_pending ..) (mk_regs ..) (mk_chans ..) (mk_tac ..) (mk_stale ..) (mk_tacStaged ..)
        (mk_rwsStaged ..) (mk_frames ..) (mk_lastCorr ..) (mk_scrubs ..) (mk_mramCorr ..) (mk_mramTac ..)
        (mk_mramTap ..) (mk_journal ..) (mk_eventQ ..) (mk_trig ..) ?_
    | dsimp only)
theorem State.convFaultClear_keeps {s₀ s : State} (hs₀ : s₀.Keeps s) (v : Word) : s₀.Keeps (State.convFaultClear s
    v) := by
  unfold State.convFaultClear
  repeat (with_reducible first | exact hs₀ | apply State.wr_keeps | apply State.showPg_keeps)
theorem State.overLimit_keeps {s₀ s : State} (hs₀ : s₀.Keeps s) (d : Die) (current : Bool) : s₀.Keeps
    (State.overLimit s d current) := by
  unfold State.overLimit
  repeat (with_reducible first
    | exact hs₀
    | apply State.belfryStops_keeps
    | apply State.bump_keeps
    | apply State.event_keeps
    | apply State.dieStops_keeps
    | apply State.Keeps.ite
    | split
    | refine State.Keeps.same (mk_pending ..) (mk_regs ..) (mk_chans ..) (mk_tac ..) (mk_stale ..) (mk_tacStaged ..)
        (mk_rwsStaged ..) (mk_frames ..) (mk_lastCorr ..) (mk_scrubs ..) (mk_mramCorr ..) (mk_mramTac ..)
        (mk_mramTap ..) (mk_journal ..) (mk_eventQ ..) (mk_trig ..) ?_
    | dsimp only)
theorem State.overLimitRecover_keeps {s₀ s : State} (hs₀ : s₀.Keeps s) (d : Die) : s₀.Keeps (State.overLimitRecover
    s d) := by
  unfold State.overLimitRecover
  repeat (with_reducible first
    | exact hs₀
    | apply State.showPg_keeps
    | apply State.Keeps.ite
    | split
    | refine State.Keeps.same (mk_pending ..) (mk_regs ..) (mk_chans ..) (mk_tac ..) (mk_stale ..) (mk_tacStaged ..)
        (mk_rwsStaged ..) (mk_frames ..) (mk_lastCorr ..) (mk_scrubs ..) (mk_mramCorr ..) (mk_mramTac ..)
        (mk_mramTap ..) (mk_journal ..) (mk_eventQ ..) (mk_trig ..) ?_)

/-! Tap.lean -/

theorem State.testLogicReset_keeps {s₀ s : State} (hs₀ : s₀.Keeps s) : s₀.Keeps (State.testLogicReset s) := by
  unfold State.testLogicReset
  repeat (with_reducible first
    | exact hs₀
    | refine State.Keeps.same (mk_pending ..) (mk_regs ..) (mk_chans ..) (mk_tac ..) (mk_stale ..) (mk_tacStaged ..)
        (mk_rwsStaged ..) (mk_frames ..) (mk_lastCorr ..) (mk_scrubs ..) (mk_mramCorr ..) (mk_mramTac ..)
        (mk_mramTap ..) (mk_journal ..) (mk_eventQ ..) (mk_trig ..) ?_)
theorem State.testClockEdge_keeps {s₀ s : State} (hs₀ : s₀.Keeps s) (rising tms tdi : Bool) (pins : TestPins) :
    s₀.Keeps (State.testClockEdge s rising tms tdi pins) := by
  unfold State.testClockEdge
  split
  · exact hs₀
  split
  · exact State.testLogicReset_keeps hs₀
  split
  · have k := State.draw_keeps hs₀
    revert k
    generalize s.draw = p
    intro k
    exact .same (mk_pending ..) (mk_regs ..) (mk_chans ..) (mk_tac ..) (mk_stale ..) (mk_tacStaged ..)
        (mk_rwsStaged ..) (mk_frames ..) (mk_lastCorr ..) (mk_scrubs ..) (mk_mramCorr ..) (mk_mramTac ..)
        (mk_mramTap ..) (mk_journal ..) (mk_eventQ ..) (mk_trig ..) k
  · exact .same (mk_pending ..) (mk_regs ..) (mk_chans ..) (mk_tac ..) (mk_stale ..) (mk_tacStaged ..)
      (mk_rwsStaged ..) (mk_frames ..) (mk_lastCorr ..) (mk_scrubs ..) (mk_mramCorr ..) (mk_mramTac ..) (mk_mramTap
      ..) (mk_journal ..) (mk_eventQ ..) (mk_trig ..) hs₀

/-! Access.lean -/

theorem State.readMemory_keeps {s₀ s : State} (hs₀ : s₀.Keeps s) (k : PageKind) (page off : Nat) (ecc : EccRead) :
    s₀.Keeps (State.readMemory s k page off ecc) := by
  unfold State.readMemory
  repeat (with_reducible first
    | exact hs₀
    | apply State.countAnywhere_keeps
    | apply State.setConc_keeps
    | apply State.countRead_keeps
    | apply State.poisonEntry_keeps
    | apply State.poisonTac_keeps
    | apply State.restartTurn_keeps
    | apply State.poisonJournal_keeps
    | apply State.poisoned_keeps
    | apply State.Keeps.ite
    | split
    | refine State.Keeps.same (mk_pending ..) (mk_regs ..) (mk_chans ..) (mk_tac ..) (mk_stale ..) (mk_tacStaged ..)
        (mk_rwsStaged ..) (mk_frames ..) (mk_lastCorr ..) (mk_scrubs ..) (mk_mramCorr ..) (mk_mramTac ..)
        (mk_mramTap ..) (mk_journal ..) (mk_eventQ ..) (mk_trig ..) ?_
    | dsimp only)
theorem State.fetchReg_keeps {s₀ s : State} (hs₀ : s₀.Keeps s) (page off : Nat) (ecc : EccRead) : s₀.Keeps
    (State.fetchReg s page off ecc).2.2 := by
  unfold State.fetchReg
  repeat (with_reducible first
    | dsimp only
    | split
    | exact hs₀
    | apply State.readMemory_keeps
    | apply State.readOne_keeps)
theorem State.queueStick_keeps {s₀ s : State} (hs₀ : s₀.Keeps s) (x : StickCmd) : s₀.Keeps (State.queueStick s
    x) := by
  unfold State.queueStick
  repeat (with_reducible first
    | exact hs₀
    | refine State.Keeps.same (mk_pending ..) (mk_regs ..) (mk_chans ..) (mk_tac ..) (mk_stale ..) (mk_tacStaged ..)
        (mk_rwsStaged ..) (mk_frames ..) (mk_lastCorr ..) (mk_scrubs ..) (mk_mramCorr ..) (mk_mramTac ..)
        (mk_mramTap ..) (mk_journal ..) (mk_eventQ ..) (mk_trig ..) ?_)
theorem State.pulseNow_keeps {s₀ s : State} (hs₀ : s₀.Keeps s) (k : PageKind) (by_ : StickCmd) (page off : Nat) (v :
    Word) (free : Bool) : s₀.Keeps (State.pulseNow s k by_ page off v free) := by
  unfold State.pulseNow
  repeat (with_reducible first
    | exact hs₀
    | apply State.discardStaged_keeps
    | apply State.stageClr_keeps
    | apply State.hostSwap_keeps
    | apply State.startHostRead_keeps
    | apply State.scrubGo_keeps
    | apply State.abortScrub_keeps
    | apply State.fire_keeps
    | apply State.requestResend_keeps
    | apply State.queueStick_keeps
    | apply State.Keeps.ite
    | split
    | refine State.Keeps.same (mk_pending ..) (mk_regs ..) (mk_chans ..) (mk_tac ..) (mk_stale ..) (mk_tacStaged ..)
        (mk_rwsStaged ..) (mk_frames ..) (mk_lastCorr ..) (mk_scrubs ..) (mk_mramCorr ..) (mk_mramTac ..)
        (mk_mramTap ..) (mk_journal ..) (mk_eventQ ..) (mk_trig ..) ?_
    | dsimp only)
theorem State.writeAll_keeps {s₀ s : State} (hs₀ : s₀.Keeps s) (by_ : StickCmd) (page off : Nat) (v : Word) (rwl :
    Bool) : s₀.Keeps (State.writeAll s by_ page off v rwl).2 := by
  unfold State.writeAll
  refine State.Keeps.foldlSnd (fun x p k => ?_) hs₀
  have l := State.writeOnePage_keeps k p off v rwl
  dsimp only
  split
  · exact .ite (State.pulseNow_keeps l ..) l
  · exact l
theorem State.coreWrite_keeps {s₀ s : State} (hs₀ : s₀.Keeps s) (page off : Nat) (v : Word) : s₀.Keeps
    (State.coreWrite s page off v) := by
  unfold State.coreWrite
  repeat (with_reducible first
    | exact hs₀
    | apply State.writeAll_keeps
    | apply State.countResult_keeps
    | apply State.append_keeps
    | apply State.noteWrites_keeps
    | apply State.Keeps.ite
    | split
    | dsimp only)
theorem State.coreRead_keeps {s₀ s : State} (hs₀ : s₀.Keeps s) (page off : Nat) (ecc : EccRead := .clean) : s₀.Keeps
    (State.coreRead s page off ecc).2 := by
  unfold State.coreRead
  repeat (with_reducible first
    | dsimp only
    | split
    | exact hs₀
    | apply State.fetchReg_keeps
    | apply State.countResult_keeps)
theorem State.ringLevels_keeps {s₀ s : State} (hs₀ : s₀.Keeps s) (f : Nat) : s₀.Keeps (State.ringLevels s f) := by
  unfold State.ringLevels
  repeat (with_reducible first
    | exact hs₀
    | apply State.coreWrite_keeps
    | apply State.put_keeps
    | apply State.Keeps.ite
    | refine State.Keeps.each ?_ ?_ <;> [(intro u x₁ hs₀; try dsimp only); skip]
    | split
    | dsimp only)

/-! Frame.lean -/

theorem State.zero_keeps {s₀ s : State} (hs₀ : s₀.Keeps s) (page : Nat) (l : List FieldRef) : s₀.Keeps (State.zero s
    page l) := by
  unfold State.zero
  repeat (with_reducible first
    | exact hs₀
    | apply State.put_keeps
    | refine State.Keeps.each ?_ ?_ <;> [(intro u x₁ hs₀; try dsimp only); skip])
theorem State.clearBeside_keeps {s₀ s : State} (hs₀ : s₀.Keeps s) (k : PageKind) (bit : Nat) : s₀.Keeps
    (State.clearBeside s k bit) := by
  unfold State.clearBeside
  repeat (with_reducible first
    | exact hs₀
    | apply State.restartTurn_keeps
    | apply State.Keeps.ite
    | split
    | refine State.Keeps.same (mk_pending ..) (mk_regs ..) (mk_chans ..) (mk_tac ..) (mk_stale ..) (mk_tacStaged ..)
        (mk_rwsStaged ..) (mk_frames ..) (mk_lastCorr ..) (mk_scrubs ..) (mk_mramCorr ..) (mk_mramTac ..)
        (mk_mramTap ..) (mk_journal ..) (mk_eventQ ..) (mk_trig ..) ?_)
theorem State.clearCount_keeps {s₀ s : State} (hs₀ : s₀.Keeps s) (k : PageKind) (page bit : Nat) : s₀.Keeps
    (State.clearCount s k page bit) := by
  unfold State.clearCount
  repeat (with_reducible first
    | exact hs₀
    | apply State.zero_keeps
    | apply State.clearBeside_keeps
    | apply State.wr_keeps
    | dsimp only)
theorem State.cntClr_keeps {s₀ s : State} (hs₀ : s₀.Keeps s) (k : PageKind) (page : Nat) (v : Word) : s₀.Keeps
    (State.cntClr s k page v) := by
  unfold State.cntClr
  repeat (with_reducible first
    | exact hs₀
    | apply State.clearCount_keeps
    | apply State.zero_keeps
    | refine State.Keeps.foldlSnd ?_ ?_ <;> [(intro x₀ x₁ hs₀; try dsimp only); skip]
    | refine State.Keeps.foldl ?_ ?_ <;> [(intro x₀ x₁ hs₀; try dsimp only); skip])
theorem State.portClr_keeps {s₀ s : State} (hs₀ : s₀.Keeps s) (page p : Nat) : s₀.Keeps (State.portClr s page p) := by
  unfold State.portClr
  repeat (with_reducible first
    | exact hs₀
    | apply State.clearCount_keeps
    | apply State.zero_keeps
    | refine State.Keeps.foldlSnd ?_ ?_ <;> [(intro x₀ x₁ hs₀; try dsimp only); skip]
    | refine State.Keeps.foldl ?_ ?_ <;> [(intro x₀ x₁ hs₀; try dsimp only); skip])
theorem State.clearBad_keeps {s₀ s : State} (hs₀ : s₀.Keeps s) (chan : Nat) : s₀.Keeps (State.clearBad s chan) := by
  unfold State.clearBad
  repeat (with_reducible first
    | exact hs₀
    | apply State.put_keeps
    | apply State.Keeps.ite
    | split
    | refine State.Keeps.same (mk_pending ..) (mk_regs ..) (mk_chans ..) (mk_tac ..) (mk_stale ..) (mk_tacStaged ..)
        (mk_rwsStaged ..) (mk_frames ..) (mk_lastCorr ..) (mk_scrubs ..) (mk_mramCorr ..) (mk_mramTac ..)
        (mk_mramTap ..) (mk_journal ..) (mk_eventQ ..) (mk_trig ..) ?_
    | dsimp only)
theorem State.dllStops_keeps {s₀ s : State} (hs₀ : s₀.Keeps s) (t : Fin 16) : s₀.Keeps (State.dllStops s t) := by
  unfold State.dllStops
  repeat (with_reducible first
    | exact hs₀
    | apply State.setTile_keeps
    | apply State.lockLost_keeps
    | apply State.putB_keeps
    | apply State.Keeps.ite
    | split
    | refine State.Keeps.same (mk_pending ..) (mk_regs ..) (mk_chans ..) (mk_tac ..) (mk_stale ..) (mk_tacStaged ..)
        (mk_rwsStaged ..) (mk_frames ..) (mk_lastCorr ..) (mk_scrubs ..) (mk_mramCorr ..) (mk_mramTac ..)
        (mk_mramTap ..) (mk_journal ..) (mk_eventQ ..) (mk_trig ..) ?_
    | dsimp only)
theorem State.headerPulse_keeps {s₀ s : State} (hs₀ : s₀.Keeps s) (k : PageKind) (w : PendWrite) : s₀.Keeps
    (State.headerPulse s k w) := by
  unfold State.headerPulse
  repeat (with_reducible first
    | exact hs₀
    | apply State.clearCount_keeps
    | apply State.wr_keeps
    | apply State.Keeps.ite
    | refine State.Keeps.foldlSnd ?_ ?_ <;> [(intro x₀ x₁ hs₀; try dsimp only); skip]
    | refine State.Keeps.foldl ?_ ?_ <;> [(intro x₀ x₁ hs₀; try dsimp only); skip]
    | split)
theorem State.ownPulse_keeps {s₀ s : State} (hs₀ : s₀.Keeps s) (k : PageKind) (f : Nat) (w : PendWrite) : s₀.Keeps
    (State.ownPulse s k f w) := by
  unfold State.ownPulse
  repeat (with_reducible first
    | exact hs₀
    | apply State.clearSelfMask_keeps
    | apply State.dllStops_keeps
    | apply State.portClr_keeps
    | apply State.clearBad_keeps
    | apply State.snap_keeps
    | apply State.requestSwitch_keeps
    | apply State.releaseFreeze_keeps
    | apply State.faultClr_keeps
    | apply State.injOne_keeps
    | apply State.putB_keeps
    | apply State.setBroken_keeps
    | apply State.monStart_keeps
    | apply State.monStop_keeps
    | apply State.convFaultClear_keeps
    | apply State.Keeps.ite
    | refine State.Keeps.foldlSnd ?_ ?_ <;> [(intro x₀ x₁ hs₀; try dsimp only); skip]
    | refine State.Keeps.foldl ?_ ?_ <;> [(intro x₀ x₁ hs₀; try dsimp only); skip]
    | split
    | dsimp only)
theorem State.pulse_keeps {s₀ s : State} (hs₀ : s₀.Keeps s) (f : Nat) (w : PendWrite) : s₀.Keeps (State.pulse s f
    w) := by
  unfold State.pulse
  repeat (with_reducible first
    | exact hs₀
    | apply State.headerPulse_keeps
    | apply State.cntClr_keeps
    | apply State.ownPulse_keeps
    | apply State.Keeps.ite
    | split)
theorem State.blankBlock_keeps {s₀ s : State} (hs₀ : s₀.Keeps s) (page f : Nat) : s₀.Keeps (State.blankBlock s page
    f) := by
  unfold State.blankBlock
  repeat (with_reducible first
    | exact hs₀
    | apply State.blank_keeps
    | refine State.Keeps.each ?_ ?_ <;> [(intro u x₁ hs₀; try dsimp only); skip])
theorem State.chCfgChanged_keeps {s₀ s : State} (hs₀ : s₀.Keeps s) (chan f : Nat) (old new : Word) : s₀.Keeps
    (State.chCfgChanged s chan f old new) := by
  unfold State.chCfgChanged
  repeat (with_reducible first
    | exact hs₀
    | apply State.blank_keeps
    | apply State.setChan_keeps
    | apply State.Keeps.ite
    | split
    | refine State.Keeps.same (mk_pending ..) (mk_regs ..) (mk_chans ..) (mk_tac ..) (mk_stale ..) (mk_tacStaged ..)
        (mk_rwsStaged ..) (mk_frames ..) (mk_lastCorr ..) (mk_scrubs ..) (mk_mramCorr ..) (mk_mramTac ..)
        (mk_mramTap ..) (mk_journal ..) (mk_eventQ ..) (mk_trig ..) ?_
    | dsimp only)
theorem State.blockChanged_keeps {s₀ s : State} (hs₀ : s₀.Keeps s) (page off f : Nat) (old new : Word) : s₀.Keeps
    (State.blockChanged s page off f old new) := by
  unfold State.blockChanged
  repeat (with_reducible first
    | exact hs₀
    | apply State.blankBlock_keeps
    | apply State.chCfgChanged_keeps
    | apply State.Keeps.ite
    | split)
theorem State.headerChanged_keeps {s₀ s : State} (hs₀ : s₀.Keeps s) (page off : Nat) (old new : Word) : s₀.Keeps
    (State.headerChanged s page off old new) := by
  unfold State.headerChanged
  repeat (with_reducible first
    | exact hs₀
    | apply State.queueEvent_keeps
    | apply State.Keeps.ite
    | split
    | dsimp only)
theorem State.overrideTiles_keeps {s₀ s : State} (hs₀ : s₀.Keeps s) : s₀.Keeps (State.overrideTiles s) := by
  unfold State.overrideTiles
  repeat (with_reducible first
    | exact hs₀
    | apply State.setTile_keeps
    | apply State.Keeps.ite
    | refine State.Keeps.each ?_ ?_ <;> [(intro u x₁ hs₀; try dsimp only); skip]
    | split
    | refine State.Keeps.same (mk_pending ..) (mk_regs ..) (mk_chans ..) (mk_tac ..) (mk_stale ..) (mk_tacStaged ..)
        (mk_rwsStaged ..) (mk_frames ..) (mk_lastCorr ..) (mk_scrubs ..) (mk_mramCorr ..) (mk_mramTac ..)
        (mk_mramTap ..) (mk_journal ..) (mk_eventQ ..) (mk_trig ..) ?_)
theorem State.dropSummaries_keeps {s₀ s : State} (hs₀ : s₀.Keeps s) (c : Conc) (off : Nat) : s₀.Keeps
    (State.dropSummaries s c off) := by
  unfold State.dropSummaries
  repeat (with_reducible first
    | exact hs₀
    | apply State.setConc_keeps
    | apply State.Keeps.ite
    | split
    | refine State.Keeps.same (mk_pending ..) (mk_regs ..) (mk_chans ..) (mk_tac ..) (mk_stale ..) (mk_tacStaged ..)
        (mk_rwsStaged ..) (mk_frames ..) (mk_lastCorr ..) (mk_scrubs ..) (mk_mramCorr ..) (mk_mramTac ..)
        (mk_mramTap ..) (mk_journal ..) (mk_eventQ ..) (mk_trig ..) ?_
    | dsimp only)
theorem State.ownChanged_keeps {s₀ s : State} (hs₀ : s₀.Keeps s) (k : PageKind) (page off f : Nat) (old new : Word)
    : s₀.Keeps (State.ownChanged s k page off f old new) := by
  unfold State.ownChanged
  repeat (with_reducible first
    | exact hs₀
    | apply State.blockChanged_keeps
    | apply State.gateSourceChanged_keeps
    | apply State.dllStops_keeps
    | apply State.gatePolChanged_keeps
    | apply State.slewWritten_keeps
    | apply State.spliceWritten_keeps
    | apply State.govSettle_keeps
    | apply State.dropSummaries_keeps
    | apply State.pinPoint_keeps
    | apply State.threshChanged_keeps
    | apply State.deliverMask_keeps
    | apply State.testChanged_keeps
    | apply State.touchEntry_keeps
    | apply State.overrideTiles_keeps
    | apply State.Keeps.ite
    | refine State.Keeps.each ?_ ?_ <;> [(intro u x₁ hs₀; try dsimp only); skip]
    | split
    | refine State.Keeps.same (mk_pending ..) (mk_regs ..) (mk_chans ..) (mk_tac ..) (mk_stale ..) (mk_tacStaged ..)
        (mk_rwsStaged ..) (mk_frames ..) (mk_lastCorr ..) (mk_scrubs ..) (mk_mramCorr ..) (mk_mramTac ..)
        (mk_mramTap ..) (mk_journal ..) (mk_eventQ ..) (mk_trig ..) ?_)
theorem State.cameInForce_keeps {s₀ s : State} (hs₀ : s₀.Keeps s) (f : Nat) (e : Nat × Word) : s₀.Keeps
    (State.cameInForce s f e) := by
  unfold State.cameInForce
  repeat (with_reducible first
    | exact hs₀
    | apply State.headerChanged_keeps
    | apply State.ownChanged_keeps
    | apply State.Keeps.ite
    | split
    | dsimp only)
theorem State.applyWrites_keeps {s₀ s : State} (hs₀ : s₀.Keeps s) (f : Nat) : s₀.Keeps (State.applyWrites s f) := by
  unfold State.applyWrites
  repeat (with_reducible first
    | exact hs₀
    | apply State.pulse_keeps
    | apply State.cameInForce_keeps
    | refine State.Keeps.each ?_ ?_ <;> [(intro u x₁ hs₀; try dsimp only); skip]
    | refine State.Keeps.of ?_ (mk_pending ..) (mk_regs ..) ?_ (mk_chans ..) ?_ (mk_tac ..) ?_ (mk_stale ..) ?_
        (mk_tacStaged ..) ?_ (mk_rwsStaged ..) ?_ (mk_frames ..) ?_ (mk_lastCorr ..) ?_ (mk_scrubs ..) ?_
        (mk_mramCorr ..) ?_ (mk_mramTac ..) ?_ (mk_mramTap ..) ?_ (mk_journal ..) ?_ (mk_eventQ ..) ?_ (mk_trig ..)
        ?_
    | exact id
    | exact mapWf_filterMap
    | exact mapWf_filter'
    | exact mapWf_putFilter
    | exact mapWf_nil'
    | exact mapWf_one
    | exact mapCanon_filter'
    | exact mapCanon_nil'
    | exact length_filter_le'
    | exact length_map'
    | exact nodup_filter'
    | exact (mapWf_map' (fun x => rfl))
    | exact (mapWf_map' (fun x => by split <;> rfl))
    | dsimp only)
theorem State.beginFrame_keeps {s₀ s : State} (hs₀ : s₀.Keeps s) (f : Nat) : s₀.Keeps (State.beginFrame s f) := by
  unfold State.beginFrame
  repeat (with_reducible first
    | exact hs₀
    | apply State.setConc_keeps
    | apply State.Keeps.ite
    | refine State.Keeps.each ?_ ?_ <;> [(intro u x₁ hs₀; try dsimp only); skip]
    | refine State.Keeps.foldlSnd ?_ ?_ <;> [(intro x₀ x₁ hs₀; try dsimp only); skip]
    | refine State.Keeps.foldl ?_ ?_ <;> [(intro x₀ x₁ hs₀; try dsimp only); skip]
    | split
    | refine State.Keeps.of ?_ (mk_pending ..) (mk_regs ..) ?_ (mk_chans ..) ?_ (mk_tac ..) ?_ (mk_stale ..) ?_
        (mk_tacStaged ..) ?_ (mk_rwsStaged ..) ?_ (mk_frames ..) ?_ (mk_lastCorr ..) ?_ (mk_scrubs ..) ?_
        (mk_mramCorr ..) ?_ (mk_mramTac ..) ?_ (mk_mramTap ..) ?_ (mk_journal ..) ?_ (mk_eventQ ..) ?_ (mk_trig ..)
        ?_
    | exact id
    | exact mapWf_put'
    | exact mapWf_filter'
    | exact mapWf_putFilter
    | exact mapWf_fold
    | exact mapCanon_filter'
    | exact mapCanon_fold
    | exact length_filter_le'
    | exact nodup_filter'
    | dsimp only)
theorem State.followCeilings_keeps {s₀ s : State} (hs₀ : s₀.Keeps s) : s₀.Keeps (State.followCeilings s) := by
  unfold State.followCeilings
  repeat (with_reducible first
    | exact hs₀
    | apply State.put_keeps
    | apply State.resetConc_keeps
    | apply State.stackSleeps_keeps
    | apply State.Keeps.ite
    | refine State.Keeps.each ?_ ?_ <;> [(intro u x₁ hs₀; try dsimp only); skip]
    | split
    | dsimp only)
theorem State.tilesBoundary_keeps {s₀ s : State} (hs₀ : s₀.Keeps s) (f : Nat) (slips : List (Fin 16 × BitVec 48)) :
    s₀.Keeps (State.tilesBoundary s f slips) := by
  unfold State.tilesBoundary
  repeat (with_reducible first
    | exact hs₀
    | apply State.tileBoundary_keeps
    | refine State.Keeps.each ?_ ?_ <;> [(intro u x₁ hs₀; try dsimp only); skip])
theorem State.concsBoundary_keeps {s₀ s : State} (hs₀ : s₀.Keeps s) (f : Nat) : s₀.Keeps (State.concsBoundary s
    f) := by
  unfold State.concsBoundary
  repeat (with_reducible first
    | exact hs₀
    | apply State.holdBoundary_keeps
    | apply State.joinBoundary_keeps
    | apply State.showLag_keeps
    | refine State.Keeps.each ?_ ?_ <;> [(intro u x₁ hs₀; try dsimp only); skip])
theorem State.convertCommands_keeps {s₀ s : State} (hs₀ : s₀.Keeps s) (f : Nat) : s₀.Keeps (State.convertCommands s
    f) := by
  unfold State.convertCommands
  repeat (with_reducible first
    | exact hs₀
    | apply State.convertTimed_keeps
    | apply State.sendWindows_keeps
    | apply State.Keeps.ite
    | split)
theorem State.frameBoundary_keeps {s₀ s : State} (hs₀ : s₀.Keeps s) (slips : List (Fin 16 × BitVec 48)) (env :
    BoundaryEnv) : s₀.Keeps (State.frameBoundary s slips env) := by
  unfold State.frameBoundary
  repeat (with_reducible first
    | exact hs₀
    | apply State.timeBoundary_keeps
    | apply State.markTimed_keeps
    | apply State.applyWrites_keeps
    | apply State.readStaged_keeps
    | apply State.mixedBoundary_keeps
    | apply State.beginFrame_keeps
    | apply State.recheckSwitch_keeps
    | apply State.convertCommands_keeps
    | apply State.followCeilings_keeps
    | apply State.ackJoiner_keeps
    | apply State.tilesBoundary_keeps
    | apply State.concsBoundary_keeps
    | apply State.deliverResends_keeps
    | apply State.stickBoundary_keeps
    | apply State.launchesUnread_keeps
    | apply State.ringLevels_keeps
    | apply State.turnIfNone_keeps
    | apply State.checkSwap_keeps
    | apply State.monBoundary_keeps
    | apply State.showSwitch_keeps
    | apply State.showDies_keeps
    | apply State.showPg_keeps
    | apply State.noteTq_keeps
    | apply State.Keeps.ite
    | refine State.Keeps.each ?_ ?_ <;> [(intro u x₁ hs₀; try dsimp only); skip]
    | split
    | refine State.Keeps.same (mk_pending ..) (mk_regs ..) (mk_chans ..) (mk_tac ..) (mk_stale ..) (mk_tacStaged ..)
        (mk_rwsStaged ..) (mk_frames ..) (mk_lastCorr ..) (mk_scrubs ..) (mk_mramCorr ..) (mk_mramTac ..)
        (mk_mramTap ..) (mk_journal ..) (mk_eventQ ..) (mk_trig ..) ?_
    | dsimp only)
theorem State.settle_keeps {s₀ s : State} (hs₀ : s₀.Keeps s) : s₀.Keeps (State.settle s) := by
  unfold State.settle
  repeat (with_reducible first
    | exact hs₀
    | apply State.applyWrites_keeps
    | apply State.holdBoundary_keeps
    | apply State.Keeps.ite
    | refine State.Keeps.each ?_ ?_ <;> [(intro u x₁ hs₀; try dsimp only); skip]
    | split
    | refine State.Keeps.same (mk_pending ..) (mk_regs ..) (mk_chans ..) (mk_tac ..) (mk_stale ..) (mk_tacStaged ..)
        (mk_rwsStaged ..) (mk_frames ..) (mk_lastCorr ..) (mk_scrubs ..) (mk_mramCorr ..) (mk_mramTac ..)
        (mk_mramTap ..) (mk_journal ..) (mk_eventQ ..) (mk_trig ..) ?_)

/-! Peal.lean -/

theorem State.showAssembly_keeps {s₀ s : State} (hs₀ : s₀.Keeps s) : s₀.Keeps (State.showAssembly s) := by
  unfold State.showAssembly
  repeat (with_reducible first | exact hs₀ | apply State.put_keeps | apply State.Keeps.ite | split)
theorem State.setAssembly_keeps {s₀ s : State} (hs₀ : s₀.Keeps s) (u : Um) (p : Option Peal) : s₀.Keeps
    (State.setAssembly s u p) := by
  unfold State.setAssembly
  repeat (with_reducible first
    | exact hs₀
    | apply State.setUm_keeps
    | apply State.showAssembly_keeps
    | refine State.Keeps.same (mk_pending ..) (mk_regs ..) (mk_chans ..) (mk_tac ..) (mk_stale ..) (mk_tacStaged ..)
        (mk_rwsStaged ..) (mk_frames ..) (mk_lastCorr ..) (mk_scrubs ..) (mk_mramCorr ..) (mk_mramTac ..)
        (mk_mramTap ..) (mk_journal ..) (mk_eventQ ..) (mk_trig ..) ?_)
theorem State.firstWrite_keeps {s₀ s : State} (hs₀ : s₀.Keeps s) (l : List PWrite) : s₀.Keeps (State.firstWrite s
    l).2 := by
  unfold State.firstWrite
  repeat (with_reducible first
    | dsimp only
    | split
    | exact hs₀
    | apply State.draw_keeps
    | refine State.Keeps.same (mk_pending ..) (mk_regs ..) (mk_chans ..) (mk_tac ..) (mk_stale ..) (mk_tacStaged ..)
        (mk_rwsStaged ..) (mk_frames ..) (mk_lastCorr ..) (mk_scrubs ..) (mk_mramCorr ..) (mk_mramTac ..)
        (mk_mramTap ..) (mk_journal ..) (mk_eventQ ..) (mk_trig ..) ?_)
theorem State.pealFails_keeps {s₀ s : State} (hs₀ : s₀.Keeps s) (p : Peal) (r time : Nat) : s₀.Keeps
    (State.pealFails s p r time).2 := by
  unfold State.pealFails
  repeat (with_reducible first
    | dsimp only
    | split
    | exact hs₀
    | apply State.firstWrite_keeps
    | apply State.append_keeps
    | apply State.bump_keeps
    | apply State.event_keeps
    | apply State.put_keeps
    | refine State.Keeps.same (mk_pending ..) (mk_regs ..) (mk_chans ..) (mk_tac ..) (mk_stale ..) (mk_tacStaged ..)
        (mk_rwsStaged ..) (mk_frames ..) (mk_lastCorr ..) (mk_scrubs ..) (mk_mramCorr ..) (mk_mramTac ..)
        (mk_mramTap ..) (mk_journal ..) (mk_eventQ ..) (mk_trig ..) ?_)
theorem State.dropAssembly_keeps {s₀ s : State} (hs₀ : s₀.Keeps s) (u : Um) : s₀.Keeps (State.dropAssembly s u) := by
  unfold State.dropAssembly
  repeat (with_reducible first | exact hs₀ | apply State.setAssembly_keeps | apply State.pealFails_keeps | split)
theorem State.pealBegin_keeps {s₀ s : State} (hs₀ : s₀.Keeps s) (u : Um) (master : Byte) (epoch count sheaf : Nat) :
    s₀.Keeps (State.pealBegin s u master epoch count sheaf) := by
  unfold State.pealBegin
  repeat (with_reducible first
    | exact hs₀
    | apply State.dropAssembly_keeps
    | apply State.setAssembly_keeps
    | dsimp only)
theorem State.pealWrite_keeps {s₀ s : State} (hs₀ : s₀.Keeps s) (u : Um) (p : Peal) (index : Nat) (l : List PWrite)
    : s₀.Keeps (State.pealWrite s u p index l) := by
  unfold State.pealWrite
  repeat (with_reducible first
    | exact hs₀
    | apply State.setAssembly_keeps
    | refine State.Keeps.foldlSnd ?_ ?_ <;> [(intro x₀ x₁ hs₀; try dsimp only); skip]
    | refine State.Keeps.foldl ?_ ?_ <;> [(intro x₀ x₁ hs₀; try dsimp only); skip]
    | refine State.Keeps.same (mk_pending ..) (mk_regs ..) (mk_chans ..) (mk_tac ..) (mk_stale ..) (mk_tacStaged ..)
        (mk_rwsStaged ..) (mk_frames ..) (mk_lastCorr ..) (mk_scrubs ..) (mk_mramCorr ..) (mk_mramTac ..)
        (mk_mramTap ..) (mk_journal ..) (mk_eventQ ..) (mk_trig ..) ?_)
theorem State.pealEnd_keeps {s₀ s : State} (hs₀ : s₀.Keeps s) (u : Um) (p : Peal) (count : Nat) (crc : BitVec 32) :
    s₀.Keeps (State.pealEnd s u p count crc).2.2 := by
  unfold State.pealEnd
  repeat (with_reducible first
    | dsimp only
    | split
    | exact hs₀
    | apply State.setAssembly_keeps
    | apply State.withdrawSwap_keeps
    | apply State.put_keeps
    | apply State.pealFails_keeps
    | refine State.Keeps.same (mk_pending ..) (mk_regs ..) (mk_chans ..) (mk_tac ..) (mk_stale ..) (mk_tacStaged ..)
        (mk_rwsStaged ..) (mk_frames ..) (mk_lastCorr ..) (mk_scrubs ..) (mk_mramCorr ..) (mk_mramTac ..)
        (mk_mramTap ..) (mk_journal ..) (mk_eventQ ..) (mk_trig ..) ?_)
theorem State.dropPeal_keeps {s₀ s : State} (hs₀ : s₀.Keeps s) : s₀.Keeps (State.dropPeal s) := by
  unfold State.dropPeal
  repeat (with_reducible first
    | exact hs₀
    | apply State.showAssembly_keeps
    | refine State.Keeps.same (mk_pending ..) (mk_regs ..) (mk_chans ..) (mk_tac ..) (mk_stale ..) (mk_tacStaged ..)
        (mk_rwsStaged ..) (mk_frames ..) (mk_lastCorr ..) (mk_scrubs ..) (mk_mramCorr ..) (mk_mramTac ..)
        (mk_mramTap ..) (mk_journal ..) (mk_eventQ ..) (mk_trig ..) ?_)
theorem State.pealCommit_keeps {s₀ s : State} (hs₀ : s₀.Keeps s) : s₀.Keeps (State.pealCommit s) := by
  unfold State.pealCommit
  repeat (with_reducible first
    | exact hs₀
    | apply State.put_keeps
    | apply State.dropPeal_keeps
    | apply State.pealFails_keeps
    | apply State.Keeps.ite
    | split
    | refine State.Keeps.same (mk_pending ..) (mk_regs ..) (mk_chans ..) (mk_tac ..) (mk_stale ..) (mk_tacStaged ..)
        (mk_rwsStaged ..) (mk_frames ..) (mk_lastCorr ..) (mk_scrubs ..) (mk_mramCorr ..) (mk_mramTac ..)
        (mk_mramTap ..) (mk_journal ..) (mk_eventQ ..) (mk_trig ..) ?_)
theorem State.keepTables_keeps {s₀ s : State} (hs₀ : s₀.Keeps s) (t : Fin 16) : s₀.Keeps (State.keepTables s t) := by
  unfold State.keepTables
  repeat (with_reducible first
    | exact hs₀
    | apply State.Keeps.ite
    | refine State.Keeps.foldlSnd ?_ ?_ <;> [(intro x₀ x₁ hs₀; try dsimp only); skip]
    | refine State.Keeps.foldl ?_ ?_ <;> [(intro x₀ x₁ hs₀; try dsimp only); skip]
    | split
    | refine State.Keeps.of ?_ (mk_pending ..) (mk_regs ..) ?_ (mk_chans ..) ?_ (mk_tac ..) ?_ (mk_stale ..) ?_
        (mk_tacStaged ..) ?_ (mk_rwsStaged ..) ?_ (mk_frames ..) ?_ (mk_lastCorr ..) ?_ (mk_scrubs ..) ?_
        (mk_mramCorr ..) ?_ (mk_mramTac ..) ?_ (mk_mramTap ..) ?_ (mk_journal ..) ?_ (mk_eventQ ..) ?_ (mk_trig ..)
        ?_
    | exact id
    | exact mapWf_put'
    | exact mapWf_fold
    | exact mapCanon_fold
    | dsimp only)
theorem State.pealTapWrite_keeps {s₀ s : State} (hs₀ : s₀.Keeps s) (page off : Nat) (v : Word) : s₀.Keeps
    (State.pealTapWrite s page off v) := by
  unfold State.pealTapWrite
  repeat (with_reducible first
    | exact hs₀
    | apply State.keepTables_keeps
    | apply State.wr_keeps
    | apply State.Keeps.ite
    | split
    | refine State.Keeps.of ?_ (mk_pending ..) (mk_regs ..) ?_ (mk_chans ..) ?_ (mk_tac ..) ?_ (mk_stale ..) ?_
        (mk_tacStaged ..) ?_ (mk_rwsStaged ..) ?_ (mk_frames ..) ?_ (mk_lastCorr ..) ?_ (mk_scrubs ..) ?_
        (mk_mramCorr ..) ?_ (mk_mramTac ..) ?_ (mk_mramTap ..) ?_ (mk_journal ..) ?_ (mk_eventQ ..) ?_ (mk_trig ..)
        ?_
    | exact id
    | exact mapWf_put'
    | dsimp only)
theorem State.pealTacWrite_keeps {s₀ s : State} (hs₀ : s₀.Keeps s) (page off : Nat) (v : Word) : s₀.Keeps
    (State.pealTacWrite s page off v) := by
  unfold State.pealTacWrite
  repeat (with_reducible first
    | exact hs₀
    | apply State.keepTables_keeps
    | apply State.Keeps.ite
    | split
    | refine State.Keeps.of ?_ (mk_pending ..) (mk_regs ..) ?_ (mk_chans ..) ?_ (mk_tac ..) ?_ (mk_stale ..) ?_
        (mk_tacStaged ..) ?_ (mk_rwsStaged ..) ?_ (mk_frames ..) ?_ (mk_lastCorr ..) ?_ (mk_scrubs ..) ?_
        (mk_mramCorr ..) ?_ (mk_mramTac ..) ?_ (mk_mramTap ..) ?_ (mk_journal ..) ?_ (mk_eventQ ..) ?_ (mk_trig ..)
        ?_
    | exact id
    | exact mapWf_put'
    | exact mapWf_filter'
    | exact mapWf_putFilter
    | exact mapCanon_filter'
    | exact mapCanon_put'
    | exact length_filter_le'
    | exact nodup_filter'
    | dsimp only)
theorem State.pealCorrWrite_keeps {s₀ s : State} (hs₀ : s₀.Keeps s) (page off : Nat) (v : Word) (f epoch : Nat) :
    s₀.Keeps (State.pealCorrWrite s page off v f epoch) := by
  unfold State.pealCorrWrite
  repeat (with_reducible first
    | exact hs₀
    | apply State.keepTables_keeps
    | apply State.setConc_keeps
    | apply State.Keeps.ite
    | split
    | refine State.Keeps.of ?_ (mk_pending ..) (mk_regs ..) ?_ (mk_chans ..) ?_ (mk_tac ..) ?_ (mk_stale ..) ?_
        (mk_tacStaged ..) ?_ (mk_rwsStaged ..) ?_ (mk_frames ..) ?_ (mk_lastCorr ..) ?_ (mk_scrubs ..) ?_
        (mk_mramCorr ..) ?_ (mk_mramTac ..) ?_ (mk_mramTap ..) ?_ (mk_journal ..) ?_ (mk_eventQ ..) ?_ (mk_trig ..)
        ?_
    | exact id
    | exact mapWf_put'
    | exact mapWf_filter'
    | exact mapWf_putFilter
    | exact mapCanon_filter'
    | exact mapCanon_put'
    | exact length_filter_le'
    | exact nodup_filter'
    | dsimp only)
theorem State.unstale_keeps {s₀ s : State} (hs₀ : s₀.Keeps s) (key : Nat) : s₀.Keeps (State.unstale s key) := by
  unfold State.unstale
  repeat (with_reducible first
    | exact hs₀
    | refine State.Keeps.of ?_ (mk_pending ..) (mk_regs ..) ?_ (mk_chans ..) ?_ (mk_tac ..) ?_ (mk_stale ..) ?_
        (mk_tacStaged ..) ?_ (mk_rwsStaged ..) ?_ (mk_frames ..) ?_ (mk_lastCorr ..) ?_ (mk_scrubs ..) ?_
        (mk_mramCorr ..) ?_ (mk_mramTac ..) ?_ (mk_mramTap ..) ?_ (mk_journal ..) ?_ (mk_eventQ ..) ?_ (mk_trig ..)
        ?_
    | exact id
    | exact mapWf_del')
theorem State.pealPlain_keeps {s₀ s : State} (hs₀ : s₀.Keeps s) (k : PageKind) (page off : Nat) (d : RegDef) (v :
    Word) (f : Nat) : s₀.Keeps (State.pealPlain s k page off d v f) := by
  unfold State.pealPlain
  repeat (with_reducible first
    | exact hs₀
    | apply State.bump_keeps
    | apply State.event_keeps
    | apply State.storeLo_keeps
    | apply State.record_keeps
    | apply State.storeInc_keeps
    | apply State.unstale_keeps
    | apply State.wr_keeps
    | apply State.cameInForce_keeps
    | apply State.Keeps.ite
    | split
    | dsimp only)
theorem State.pealPage_keeps {s₀ s : State} (hs₀ : s₀.Keeps s) (page off : Nat) (v : Word) (f epoch : Nat) :
    s₀.Keeps (State.pealPage s page off v f epoch) := by
  unfold State.pealPage
  repeat (with_reducible first
    | exact hs₀
    | apply State.pealTapWrite_keeps
    | apply State.pealTacWrite_keeps
    | apply State.pealCorrWrite_keeps
    | apply State.writeOff_keeps
    | apply State.pealPlain_keeps
    | apply State.Keeps.ite
    | split)
theorem State.pealApplyWrite_keeps {s₀ s : State} (hs₀ : s₀.Keeps s) (p : Peal) (i : Nat) (w : PWrite) : s₀.Keeps
    (State.pealApplyWrite s p i w) := by
  unfold State.pealApplyWrite
  repeat (with_reducible first
    | exact hs₀
    | apply State.pealPage_keeps
    | apply State.append_keeps
    | apply State.noteChange_keeps
    | refine State.Keeps.each ?_ ?_ <;> [(intro u x₁ hs₀; try dsimp only); skip]
    | split
    | dsimp only)
theorem State.pealFollow_keeps {s₀ s : State} (hs₀ : s₀.Keeps s) (p : Peal) : s₀.Keeps (State.pealFollow s p) := by
  unfold State.pealFollow
  repeat (with_reducible first
    | exact hs₀
    | apply State.followCeilings_keeps
    | apply State.followTile_keeps
    | apply State.holdBoundary_keeps
    | apply State.monBoundary_keeps
    | apply State.showPg_keeps
    | apply State.showDies_keeps
    | apply State.Keeps.ite
    | refine State.Keeps.each ?_ ?_ <;> [(intro u x₁ hs₀; try dsimp only); skip]
    | split
    | dsimp only)
theorem State.pealApply_keeps {s₀ s : State} (hs₀ : s₀.Keeps s) : s₀.Keeps (State.pealApply s) := by
  unfold State.pealApply
  repeat (with_reducible first
    | exact hs₀
    | apply State.pealApplyWrite_keeps
    | apply State.toggleParity_keeps
    | apply State.put_keeps
    | apply State.stepEpoch_keeps
    | apply State.dropPeal_keeps
    | apply State.bump_keeps
    | apply State.event_keeps
    | apply State.pealFollow_keeps
    | apply State.Keeps.ite
    | refine State.Keeps.each ?_ ?_ <;> [(intro u x₁ hs₀; try dsimp only); skip]
    | split
    | dsimp only)

/-! Command.lean -/

theorem State.cmdRead_keeps {s₀ s : State} (hs₀ : s₀.Keeps s) (page off : Nat) (env : BlockEnv) : s₀.Keeps
    (State.cmdRead s page off env).state := by
  unfold State.cmdRead
  repeat (with_reducible first | dsimp only | split | exact hs₀ | apply State.fetchReg_keeps)
theorem State.stopsAt_keeps {s₀ s : State} (hs₀ : s₀.Keeps s) (env : BlockEnv) (i : Nat) : s₀.Keeps (State.stopsAt s
    env i) := by
  unfold State.stopsAt
  repeat (with_reducible first | exact hs₀ | apply State.overLimit_keeps | apply State.Keeps.ite | split)
theorem State.readBlock_keeps {s₀ x3 : State} (hs₀ : s₀.Keeps x3) (page : Nat) (env : BlockEnv) (x0 : Nat) (x1 :
    Nat) (x2 : Nat) : s₀.Keeps (State.readBlock page env x0 x1 x2 x3).2.2 := by
  induction x0 generalizing x1 x2 x3 with
  | zero => exact hs₀
  | succ n ih =>
    unfold State.readBlock
    exact ih (State.fetchReg_keeps (State.stopsAt_keeps hs₀ ..) ..) _ _
theorem State.cmdBlockRead_keeps {s₀ s : State} (hs₀ : s₀.Keeps s) (page off count : Nat) (env : BlockEnv) :
    s₀.Keeps (State.cmdBlockRead s page off count env).state := by
  unfold State.cmdBlockRead
  repeat (with_reducible first | dsimp only | split | exact hs₀ | apply State.readBlock_keeps)
theorem State.countLocked_keeps {s₀ s : State} (hs₀ : s₀.Keeps s) (r : Nat) (l : List (Nat × Nat)) : s₀.Keeps
    (State.countLocked s r l) := by
  unfold State.countLocked
  repeat (with_reducible first | exact hs₀ | apply State.countResult_keeps | apply State.Keeps.ite | split)
theorem State.cmdWrite_keeps {s₀ s : State} (hs₀ : s₀.Keeps s) (h : UHdr) (page off : Nat) (v : Word) (rwl : Bool)
    (body : List Word) : s₀.Keeps (State.cmdWrite s h page off v rwl body).state := by
  unfold State.cmdWrite
  repeat (with_reducible first
    | dsimp only
    | split
    | exact hs₀
    | apply State.writeAll_keeps
    | apply State.countLocked_keeps)
theorem State.dropSent_keeps {s₀ s : State} (hs₀ : s₀.Keeps s) : s₀.Keeps (State.dropSent s) := by
  unfold State.dropSent
  repeat (with_reducible first
    | exact hs₀
    | refine State.Keeps.of ?_ (mk_pending ..) (mk_regs ..) ?_ (mk_chans ..) ?_ (mk_tac ..) ?_ (mk_stale ..) ?_
        (mk_tacStaged ..) ?_ (mk_rwsStaged ..) ?_ (mk_frames ..) ?_ (mk_lastCorr ..) ?_ (mk_scrubs ..) ?_
        (mk_mramCorr ..) ?_ (mk_mramTac ..) ?_ (mk_mramTap ..) ?_ (mk_journal ..) ?_ (mk_eventQ ..) ?_ (mk_trig ..)
        ?_
    | exact id
    | exact mapWf_filter'
    | exact mapWf_putFilter
    | exact mapCanon_filter'
    | exact length_filter_le'
    | exact nodup_filter')
theorem State.cmdUnlock_keeps {s₀ s : State} (hs₀ : s₀.Keeps s) (page frames : Nat) : s₀.Keeps (State.cmdUnlock s
    page frames).state := by
  unfold State.cmdUnlock
  repeat (with_reducible first
    | split
    | exact hs₀
    | apply State.unlockPage_keeps
    | refine State.Keeps.each ?_ ?_ <;> [(intro u x₁ hs₀; try dsimp only); skip])
theorem State.cmdLock_keeps {s₀ s : State} (hs₀ : s₀.Keeps s) (page : Nat) : s₀.Keeps (State.cmdLock s
    page).state := by
  unfold State.cmdLock
  repeat (with_reducible first
    | split
    | exact hs₀
    | apply State.lockPage_keeps
    | refine State.Keeps.each ?_ ?_ <;> [(intro u x₁ hs₀; try dsimp only); skip])
theorem State.register_keeps {s₀ s : State} (hs₀ : s₀.Keeps s) (u : Um) (addr eqd : Nat) : s₀.Keeps (State.register
    s u addr eqd) := by
  unfold State.register
  repeat (with_reducible first
    | exact hs₀
    | apply State.putB_keeps
    | apply State.put_keeps
    | apply State.setUm_keeps
    | apply State.dropSent_keeps
    | apply State.event_keeps
    | apply State.leaveStep9_keeps
    | refine State.Keeps.same (mk_pending ..) (mk_regs ..) (mk_chans ..) (mk_tac ..) (mk_stale ..) (mk_tacStaged ..)
        (mk_rwsStaged ..) (mk_frames ..) (mk_lastCorr ..) (mk_scrubs ..) (mk_mramCorr ..) (mk_mramTac ..)
        (mk_mramTap ..) (mk_journal ..) (mk_eventQ ..) (mk_trig ..) ?_
    | dsimp only)
theorem State.unregister_keeps {s₀ s : State} (hs₀ : s₀.Keeps s) (u : Um) : s₀.Keeps (State.unregister s u) := by
  unfold State.unregister
  repeat (with_reducible first
    | exact hs₀
    | apply State.putB_keeps
    | apply State.put_keeps
    | apply State.dropSent_keeps
    | apply State.event_keeps
    | apply State.startDiscovery_keeps
    | apply State.Keeps.ite
    | split)
theorem accepted_keeps {s₀ : State} {x : Bool × State} (h : s₀.Keeps x.2) : s₀.Keeps (accepted x).state := h
theorem State.cmdFreezeRelease_keeps {s₀ s : State} (hs₀ : s₀.Keeps s) (conc : Bool) : s₀.Keeps
    (State.cmdFreezeRelease s conc).state := by
  unfold State.cmdFreezeRelease
  repeat (with_reducible first
    | split
    | exact hs₀
    | refine State.Keeps.same (mk_pending ..) (mk_regs ..) (mk_chans ..) (mk_tac ..) (mk_stale ..) (mk_tacStaged ..)
        (mk_rwsStaged ..) (mk_frames ..) (mk_lastCorr ..) (mk_scrubs ..) (mk_mramCorr ..) (mk_mramTac ..)
        (mk_mramTap ..) (mk_journal ..) (mk_eventQ ..) (mk_trig ..) ?_)
theorem State.cmdPealWrite_keeps {s₀ s : State} (hs₀ : s₀.Keeps s) (h : UHdr) (index : Nat) (l : List PWrite) :
    s₀.Keeps (State.cmdPealWrite s h index l).state := by
  unfold State.cmdPealWrite
  repeat (with_reducible first
    | dsimp only
    | split
    | exact hs₀
    | apply State.pealWrite_keeps
    | apply State.firstWrite_keeps
    | refine State.Keeps.same (mk_pending ..) (mk_regs ..) (mk_chans ..) (mk_tac ..) (mk_stale ..) (mk_tacStaged ..)
        (mk_rwsStaged ..) (mk_frames ..) (mk_lastCorr ..) (mk_scrubs ..) (mk_mramCorr ..) (mk_mramTac ..)
        (mk_mramTap ..) (mk_journal ..) (mk_eventQ ..) (mk_trig ..) ?_)
theorem State.cmdPealEnd_keeps {s₀ s : State} (hs₀ : s₀.Keeps s) (h : UHdr) (count : Nat) (crc : BitVec 32) :
    s₀.Keeps (State.cmdPealEnd s h count crc).state := by
  unfold State.cmdPealEnd
  repeat (with_reducible first
    | dsimp only
    | split
    | exact hs₀
    | apply State.pealEnd_keeps
    | refine State.Keeps.same (mk_pending ..) (mk_regs ..) (mk_chans ..) (mk_tac ..) (mk_stale ..) (mk_tacStaged ..)
        (mk_rwsStaged ..) (mk_frames ..) (mk_lastCorr ..) (mk_scrubs ..) (mk_mramCorr ..) (mk_mramTac ..)
        (mk_mramTap ..) (mk_journal ..) (mk_eventQ ..) (mk_trig ..) ?_)
theorem imgOutcome_keeps {s₀ : State} {x : Nat × State} (h : s₀.Keeps x.2) : s₀.Keeps (imgOutcome x).state := h
theorem State.runCmd_keeps {s₀ s : State} (hs₀ : s₀.Keeps s) (h : UHdr) (c : UCmd) (body : List Word) (env :
    BlockEnv) : s₀.Keeps (State.runCmd s h c body env).state := by
  unfold State.runCmd
  cases c <;> dsimp only <;> with_reducible first
    | exact State.cmdRead_keeps hs₀ ..
    | exact State.cmdWrite_keeps hs₀ ..
    | exact State.cmdBlockRead_keeps hs₀ ..
    | exact State.cmdUnlock_keeps hs₀ ..
    | exact State.cmdLock_keeps hs₀ ..
    | exact State.register_keeps hs₀ ..
    | exact State.unregister_keeps hs₀ ..
    | exact accepted_keeps (State.timedTrigger_keeps hs₀ ..)
    | exact accepted_keeps (State.timedGate_keeps hs₀ ..)
    | exact State.requestResend_keeps hs₀ ..
    | exact State.cmdFreezeRelease_keeps hs₀ ..
    | exact State.queueStick_keeps hs₀ ..
    | exact accepted_keeps (State.requestSwitch_keeps hs₀ ..)
    | exact State.pealBegin_keeps hs₀ ..
    | exact State.cmdPealWrite_keeps hs₀ ..
    | exact State.cmdPealEnd_keeps hs₀ ..
    | exact imgOutcome_keeps (State.imgBegin_keeps hs₀ ..)
    | exact imgOutcome_keeps (State.imgData_keeps hs₀ ..)
    | exact imgOutcome_keeps (State.imgEnd_keeps hs₀ ..)
    | exact imgOutcome_keeps (State.imgCancel_keeps hs₀ ..)
    | exact imgOutcome_keeps (State.imgCommit_keeps hs₀ ..)
    | exact imgOutcome_keeps (State.imgReject_keeps hs₀ ..)
    | exact imgOutcome_keeps hs₀
    | exact hs₀
theorem State.restartAfter_keeps {s₀ s : State} (hs₀ : s₀.Keeps s) (u : Um) : s₀.Keeps (State.restartAfter s u) := by
  unfold State.restartAfter
  repeat (with_reducible first
    | exact hs₀
    | refine State.Keeps.same (mk_pending ..) (mk_regs ..) (mk_chans ..) (mk_tac ..) (mk_stale ..) (mk_tacStaged ..)
        (mk_rwsStaged ..) (mk_frames ..) (mk_lastCorr ..) (mk_scrubs ..) (mk_mramCorr ..) (mk_mramTac ..)
        (mk_mramTap ..) (mk_journal ..) (mk_eventQ ..) (mk_trig ..) ?_)
theorem State.afterAnswer_keeps {s₀ s : State} (hs₀ : s₀.Keeps s) (h : UHdr) (c : UCmd) (r : Nat) : s₀.Keeps
    (State.afterAnswer s h c r) := by
  unfold State.afterAnswer
  repeat (with_reducible first
    | exact hs₀
    | apply State.restartAfter_keeps
    | apply State.imgReject_keeps
    | apply State.Keeps.ite
    | split
    | refine State.Keeps.same (mk_pending ..) (mk_regs ..) (mk_chans ..) (mk_tac ..) (mk_stale ..) (mk_tacStaged ..)
        (mk_rwsStaged ..) (mk_frames ..) (mk_lastCorr ..) (mk_scrubs ..) (mk_mramCorr ..) (mk_mramTac ..)
        (mk_mramTap ..) (mk_journal ..) (mk_eventQ ..) (mk_trig ..) ?_)
theorem Outcome.finish_keeps {s₀ : State} {o : Outcome} (hs₀ : s₀.Keeps o.state) (h : UHdr) (c : UCmd) (body : List
    Word) :
    s₀.Keeps (o.finish h c body) := by
  unfold Outcome.finish
  extract_lets u r x v w
  have hu : s₀.Keeps u := State.countResult_keeps hs₀ ..
  have hx : s₀.Keeps x.2 := by
    simp only [x]
    split
    · exact State.append_keeps hu ..
    · exact hu
  have hv : s₀.Keeps v := State.noteWrites_keeps hx ..
  have hw : s₀.Keeps w := .ite (.ite (State.answer_keeps hv ..) (State.holdAnswer_keeps hv ..)) hv
  exact State.afterAnswer_keeps (State.settle_keeps hw) ..
theorem State.turnAway_keeps {s₀ s : State} (hs₀ : s₀.Keeps s) (h : UHdr) (c : UCmd) (r : Nat) : s₀.Keeps
    (State.turnAway s h c r) := by
  unfold State.turnAway
  repeat (with_reducible first | exact hs₀ | apply State.answer_keeps | apply State.Keeps.ite | split)
theorem State.take_keeps {s₀ s : State} (hs₀ : s₀.Keeps s) (h : UHdr) (c : UCmd) (body : List Word) (form : Nat)
    (env : BlockEnv) : s₀.Keeps (State.take s h c body form env) := by
  unfold State.take
  extract_lets u o
  have hu : s₀.Keeps u := State.bump_keeps hs₀ ..
  refine Outcome.finish_keeps ?_ ..
  simp only [o]
  split
  · exact hu
  split
  · exact hu
  · exact State.runCmd_keeps hu ..
theorem State.checkCmd_keeps {s₀ s : State} (hs₀ : s₀.Keeps s) (h : UHdr) (c : UCmd) (body : List Word) (env :
    BlockEnv) : s₀.Keeps (State.checkCmd s h c body env) := by
  unfold State.checkCmd
  repeat (with_reducible first
    | exact hs₀
    | apply State.bump_keeps
    | apply State.turnAway_keeps
    | apply State.put_keeps
    | apply State.take_keeps
    | apply State.event_keeps
    | apply State.Keeps.ite
    | split
    | dsimp only)
theorem State.arrive_keeps {s₀ s : State} (hs₀ : s₀.Keeps s) (at_ : Nat) : s₀.Keeps (State.arrive s at_) := by
  unfold State.arrive
  repeat (with_reducible first | exact hs₀ | apply State.advance_keeps | apply State.Keeps.ite | split)
theorem State.takeCmd_keeps {s₀ s : State} (hs₀ : s₀.Keeps s) (h : UHdr) (c : UCmd) (body : List Word) (env :
    BlockEnv) : s₀.Keeps (State.takeCmd s h c body env) := by
  unfold State.takeCmd
  repeat (with_reducible first
    | exact hs₀
    | apply State.bump_keeps
    | apply State.arrive_keeps
    | apply State.checkCmd_keeps
    | apply State.Keeps.ite
    | split)
theorem State.command_keeps {s₀ s : State} (hs₀ : s₀.Keeps s) (h : UHdr) (c : UCmd) (env : BlockEnv := {}) :
    s₀.Keeps (State.command s h c) := by
  unfold State.command
  repeat (with_reducible first | exact hs₀ | apply State.takeCmd_keeps)

/-! Umauf.lean -/

theorem State.takeGrant_keeps {s₀ s : State} (hs₀ : s₀.Keeps s) (u : Um) (addr kind start blocks : Nat) : s₀.Keeps
    (State.takeGrant s u addr kind start blocks) := by
  unfold State.takeGrant
  repeat (with_reducible first
    | exact hs₀
    | apply State.bump_keeps
    | apply State.setUm_keeps
    | apply State.Keeps.ite
    | split
    | refine State.Keeps.same (mk_pending ..) (mk_regs ..) (mk_chans ..) (mk_tac ..) (mk_stale ..) (mk_tacStaged ..)
        (mk_rwsStaged ..) (mk_frames ..) (mk_lastCorr ..) (mk_scrubs ..) (mk_mramCorr ..) (mk_mramTac ..)
        (mk_mramTap ..) (mk_journal ..) (mk_eventQ ..) (mk_trig ..) ?_
    | dsimp only)
theorem State.grantEntry_keeps {s₀ s : State} (hs₀ : s₀.Keeps s) (u : Um) (l : List Byte) : s₀.Keeps
    (State.grantEntry s u l) := by
  unfold State.grantEntry
  repeat (with_reducible first
    | exact hs₀
    | apply State.take_keeps
    | apply State.bump_keeps
    | apply State.takeGrant_keeps
    | apply State.Keeps.ite
    | split
    | dsimp only)
theorem State.commandArea_keeps {s₀ x3 : State} (hs₀ : s₀.Keeps x3) (u : Um) (at_ : Nat) (x0 : Nat) (x1 : List Byte)
    (x2 : List Reads) : s₀.Keeps (State.commandArea u at_ x0 x1 x2 x3) := by
  induction x0 generalizing x1 x2 x3 with
  | zero => exact hs₀
  | succ n ih =>
    unfold State.commandArea
    extract_lets
    refine .ite hs₀ (.ite (State.bump_keeps hs₀ ..) (.ite ?_ ?_))
    · exact ih (State.bump_keeps hs₀ ..) _ _
    · exact ih (State.takeCmd_keeps hs₀ ..) _ _
theorem State.takeFrame_keeps {s₀ s : State} (hs₀ : s₀.Keeps s) (u : Um) (payload : List Byte) (corrected at_ : Nat)
    (reads : List Reads) : s₀.Keeps (State.takeFrame s u payload corrected at_ reads) := by
  unfold State.takeFrame
  repeat (with_reducible first
    | exact hs₀
    | apply State.bump_keeps
    | apply State.adopt_keeps
    | apply State.event_keeps
    | apply State.grantEntry_keeps
    | apply State.take_keeps
    | apply State.commandArea_keeps
    | apply State.Keeps.ite
    | refine State.Keeps.each ?_ ?_ <;> [(intro u x₁ hs₀; try dsimp only); skip]
    | split
    | dsimp only)
theorem State.downstreamFrame_keeps {s₀ s : State} (hs₀ : s₀.Keeps s) (u : Um) (sync : BitVec 32) (word0 word1 :
    List Byte) (at_ : Nat) (reads : List Reads) : s₀.Keeps (State.downstreamFrame s u sync word0 word1 at_ reads) :=
    by
  unfold State.downstreamFrame
  repeat (with_reducible first
    | exact hs₀
    | apply State.takeFrame_keeps
    | apply State.bump_keeps
    | apply State.Keeps.ite
    | split)
theorem State.sendEvent_keeps {s₀ s : State} (hs₀ : s₀.Keeps s) (u : Um) (e : Nat × Bool × Bool) : s₀.Keeps
    (State.sendEvent s u e).2 := by
  unfold State.sendEvent
  refine State.dropSent_keeps (.of (State.setUm_keeps hs₀ u { s.um u with sinceEvent := 0 }) (mk_pending ..)
      (mk_regs ..) ?_ (mk_chans ..) ?_ (mk_tac ..) ?_ (mk_stale ..) ?_ (mk_tacStaged ..) ?_ (mk_rwsStaged ..) ?_
      (mk_frames ..) ?_ (mk_lastCorr ..) ?_ (mk_scrubs ..) ?_ (mk_mramCorr ..) ?_ (mk_mramTac ..) ?_ (mk_mramTap ..)
      ?_ (mk_journal ..) ?_ (mk_eventQ ..) ?_ (mk_trig ..) ?_)
  all_goals intro k
  all_goals first
    | exact k
    | (rw [State.setUm_eventQ] at k
       have e1 : (s.eventQ.map (fun x => if x.1 = e.1 then sentOn u x else x)).map (·.1) = s.eventQ.map (·.1) := by
         rw [List.map_map]
         refine List.map_congr_left fun x _ => ?_
         simp only [Function.comp]
         split
         · cases u <;> rfl
         · rfl
       rw [e1]
       exact k)
theorem State.sendResult_keeps {s₀ s : State} (hs₀ : s₀.Keeps s) (u : Um) (f : Frag) (events : Bool) : s₀.Keeps
    (State.sendResult s u f events).2 := by
  unfold State.sendResult
  repeat (with_reducible first
    | dsimp only
    | split
    | exact hs₀
    | apply State.setUm_keeps
    | refine State.Keeps.same (mk_pending ..) (mk_regs ..) (mk_chans ..) (mk_tac ..) (mk_stale ..) (mk_tacStaged ..)
        (mk_rwsStaged ..) (mk_frames ..) (mk_lastCorr ..) (mk_scrubs ..) (mk_mramCorr ..) (mk_mramTac ..)
        (mk_mramTap ..) (mk_journal ..) (mk_eventQ ..) (mk_trig ..) ?_)
theorem State.sendBlock_keeps {s₀ s : State} (hs₀ : s₀.Keeps s) (u : Um) : s₀.Keeps (State.sendBlock s u).2 := by
  unfold State.sendBlock
  repeat (with_reducible first
    | dsimp only
    | split
    | exact hs₀
    | apply State.setUm_keeps
    | apply State.sendEvent_keeps
    | apply State.sendResult_keeps
    | refine State.Keeps.same (mk_pending ..) (mk_regs ..) (mk_chans ..) (mk_tac ..) (mk_stale ..) (mk_tacStaged ..)
        (mk_rwsStaged ..) (mk_frames ..) (mk_lastCorr ..) (mk_scrubs ..) (mk_mramCorr ..) (mk_mramTac ..)
        (mk_mramTap ..) (mk_journal ..) (mk_eventQ ..) (mk_trig ..) ?_)
theorem State.sendBlocks_keeps {s₀ x1 : State} (hs₀ : s₀.Keeps x1) (u : Um) (x0 : Nat) : s₀.Keeps (State.sendBlocks
    u x0 x1).2 := by
  induction x0 generalizing x1 with
  | zero => exact hs₀
  | succ n ih =>
    unfold State.sendBlocks
    exact ih (State.sendBlock_keeps hs₀ ..)
theorem State.restartIfSent_keeps {s₀ s : State} (hs₀ : s₀.Keeps s) : s₀.Keeps (State.restartIfSent s) := by
  unfold State.restartIfSent
  repeat (with_reducible first | exact hs₀ | apply State.restart_keeps | apply State.Keeps.ite | split)
theorem State.upstreamBurst_keeps {s₀ s : State} (hs₀ : s₀.Keeps s) (u : Um) : s₀.Keeps (State.upstreamBurst s
    u) := by
  unfold State.upstreamBurst
  repeat (with_reducible first
    | exact hs₀
    | apply State.setUm_keeps
    | apply State.sendBlocks_keeps
    | apply State.restartIfSent_keeps
    | apply State.Keeps.ite
    | split
    | refine State.Keeps.same (mk_pending ..) (mk_regs ..) (mk_chans ..) (mk_tac ..) (mk_stale ..) (mk_tacStaged ..)
        (mk_rwsStaged ..) (mk_frames ..) (mk_lastCorr ..) (mk_scrubs ..) (mk_mramCorr ..) (mk_mramTac ..)
        (mk_mramTap ..) (mk_journal ..) (mk_eventQ ..) (mk_trig ..) ?_
    | dsimp only)
theorem State.discoveryAnswer_keeps {s₀ s : State} (hs₀ : s₀.Keeps s) (u : Um) : s₀.Keeps (State.discoveryAnswer s
    u) := by
  unfold State.discoveryAnswer
  repeat (with_reducible first
    | exact hs₀
    | apply State.setUm_keeps
    | apply State.Keeps.ite
    | split
    | refine State.Keeps.same (mk_pending ..) (mk_regs ..) (mk_chans ..) (mk_tac ..) (mk_stale ..) (mk_tacStaged ..)
        (mk_rwsStaged ..) (mk_frames ..) (mk_lastCorr ..) (mk_scrubs ..) (mk_mramCorr ..) (mk_mramTac ..)
        (mk_mramTap ..) (mk_journal ..) (mk_eventQ ..) (mk_trig ..) ?_
    | dsimp only)
theorem State.discoveryRetry_keeps {s₀ s : State} (hs₀ : s₀.Keeps s) (u : Um) : s₀.Keeps (State.discoveryRetry s
    u) := by
  unfold State.discoveryRetry
  repeat (with_reducible first
    | exact hs₀
    | apply State.bump_keeps
    | apply State.drawDiscovery_keeps
    | apply State.Keeps.ite
    | split
    | dsimp only)
theorem State.registrationLoss_keeps {s₀ s : State} (hs₀ : s₀.Keeps s) (u : Um) : s₀.Keeps (State.registrationLoss s
    u) := by
  unfold State.registrationLoss
  repeat (with_reducible first | exact hs₀ | apply State.unregister_keeps | apply State.Keeps.ite | split)
theorem State.unlockExpiry_keeps {s₀ s : State} (hs₀ : s₀.Keeps s) (page : Nat) : s₀.Keeps (State.unlockExpiry s
    page) := by
  unfold State.unlockExpiry
  repeat (with_reducible first
    | exact hs₀
    | refine State.Keeps.same (mk_pending ..) (mk_regs ..) (mk_chans ..) (mk_tac ..) (mk_stale ..) (mk_tacStaged ..)
        (mk_rwsStaged ..) (mk_frames ..) (mk_lastCorr ..) (mk_scrubs ..) (mk_mramCorr ..) (mk_mramTac ..)
        (mk_mramTap ..) (mk_journal ..) (mk_eventQ ..) (mk_trig ..) ?_)
theorem State.assemblyTimeout_keeps {s₀ s : State} (hs₀ : s₀.Keeps s) (u : Um) : s₀.Keeps (State.assemblyTimeout s
    u) := by
  unfold State.assemblyTimeout
  repeat (with_reducible first | exact hs₀ | apply State.dropAssembly_keeps)

/-! ExecMemory.lean -/

theorem State.fwScrub_keeps {s₀ s : State} (hs₀ : s₀.Keeps s) (p : IntPage) (mem : Nat) : s₀.Keeps (State.fwScrub s
    p mem) := by
  unfold State.fwScrub
  repeat (with_reducible first
    | exact hs₀
    | apply State.coreRead_keeps
    | apply State.coreWrite_keeps
    | apply State.settle_keeps
    | apply State.Keeps.ite
    | split
    | dsimp only)

end Sys2Proof.Machine
end

