-- ==== Sys2Proof/Laws/Writes.lean ====
section
/-!
SUPPORT. A register write (R404, R405) to one page whose die answers: what it stores, what it leaves for the boundary.
-/

namespace Sys2Proof.Machine

/-- What writes and commands do at acceptance passes a register write by. -/
theorem State.pulseNow_plain {k : PageKind} {o : Nat} (hk : actsAtBoundary k o = true) (s : State) (by_ : StickCmd) (p : Nat)
    (v : Word) (free : Bool) : s.pulseNow k by_ p o v free = s := by
  cases k <;> simp_all [actsAtBoundary, immediatePulse, State.pulseNow]

/-- A write that reaches one page, of a register that is no window, and whose die answers. -/
theorem State.writeAll_one {s : State} {p o : Nat} {k : PageKind} {d : RegDef} (hp : s.writePages p o = [p])
    (hk : pageKind p = some k) (hd : regAt p o = some d) (hw : d.canWrite = true) (hon : s.dieOff p = false)
    (hx : plainRegister k o = true) (by_ : StickCmd) (v : Word) (rwl : Bool) :
    s.writeAll by_ p o v rwl =
      ([(p, (s.writePlain k p o d v rwl).1)],
       if (((s.writePlain k p o d v rwl).1 == resOK || (s.writePlain k p o d v rwl).1 == resLOCKED) &&
         !(s.writePlain k p o d v rwl).2.dieOff p) = true
       then (s.writePlain k p o d v rwl).2.pulseNow k by_ p o v (rwl || s.unlocked p) else (s.writePlain k p o d v rwl).2) := by
  have one : s.writeOnePage p o v rwl = s.writePlain k p o d v rwl := by
    simp only [State.writeOnePage, hk, hd, hw, hon, Bool.not_true, Bool.false_and, Bool.false_eq_true, if_false, State.writeLive]
    simp only [plainRegister, Bool.and_eq_true, Bool.not_eq_true', decide_eq_false_iff_not] at hx
    rw [if_neg hx.1.1, if_neg hx.1.2, if_neg hx.2]
  simp only [State.writeAll, hp, List.foldl_cons, List.foldl_nil, one, hk, List.nil_append]

/-- Such a write of a register none of whose written 1s acts at acceptance. -/
theorem State.writeAll_plain {s : State} {p o : Nat} {k : PageKind} {d : RegDef} (hp : s.writePages p o = [p])
    (hk : pageKind p = some k) (hd : regAt p o = some d) (hw : d.canWrite = true) (hon : s.dieOff p = false)
    (hx : plainRegister k o = true) (ha : actsAtBoundary k o = true) (by_ : StickCmd) (v : Word) (rwl : Bool) :
    s.writeAll by_ p o v rwl = ([(p, (s.writePlain k p o d v rwl).1)], (s.writePlain k p o d v rwl).2) := by
  rw [State.writeAll_one hp hk hd hw hon hx, State.pulseNow_plain ha, ite_self]

theorem State.rd_store (s : State) (k : PageKind) (p o : Nat) (v : Word) : (s.store k p o v).rd p o = v := by
  unfold State.store
  split
  · exact State.rd_wr_same ..
  · exact (rd_of_regs (State.mk_regs ..) p o).trans (State.rd_wr_same ..)

/-- A write leaves the value in force until the boundary (R404), but of a register of R499. -/
theorem State.live_store {k : PageKind} {o : Nat} (hk : immediateReg k o = false) (s : State) (p : Nat) (v : Word)
    (hv : v ≠ s.rd p o ∨ actsUnchanged k o = true) : (s.store k p o v).live p o = s.live p o := by
  have q : ¬((immediateReg k o || (v == s.rd p o && !actsUnchanged k o)) = true) := by
    rcases hv with hv | hv <;> simp [hk, hv]
  unfold State.store
  rw [if_neg q]
  dsimp only
  cases f : mapFind (regKey p o) s.stale with
  | none =>
    simp only [State.live, f, Option.isSome_none, Bool.false_eq_true, if_false, mapFind_mapPut_same, Option.getD_some,
      Option.getD_none]
  | some w => simp [State.live, f]

/-- A write of a register leaves every other as it is. -/
theorem State.sameReg_store {p q o u : Nat} (h : regKey q u ≠ regKey p o) (s : State) (k : PageKind) (v : Word) :
    s.SameReg (s.store k p o v) q u := by
  have w : s.SameReg (s.wr p o v) q u := ⟨State.rd_wr_ne h .., State.live_wr_ne h ..⟩
  unfold State.store
  split
  · exact w
  · refine ⟨(rd_of_regs (State.mk_regs ..) _ _).trans w.1, ?_⟩
    unfold State.live
    rw [State.mk_stale]
    refine congr (congrArg _ ?_) ((rd_of_regs (State.mk_regs ..) _ _).trans w.1)
    split
    · rfl
    · exact mapFind_mapPut_ne h ..

theorem State.record_regs (s : State) (p o : Nat) (d : RegDef) : ∀ q u, regKey q u ≠ regKey pgFWU Reg.FWU.STAT_SET_BAD.off →
    (s.record p o d).rd q u = s.rd q u ∧ (s.record p o d).live q u = s.live q u := by
  intro q u h
  unfold State.record
  dsimp only
  split
  · exact ⟨rfl, rfl⟩
  · split
    · exact ⟨State.rd_put_ne h .., State.live_put_ne h ..⟩
    · exact ⟨rfl, rfl⟩

theorem State.record_pendW (s : State) (p o : Nat) (d : RegDef) : (s.record p o d).pendW = s.pendW := by
  unfold State.record
  dsimp only
  split
  · rfl
  · split
    · exact (State.mk_pendW ..).trans (State.putB_pendW ..)
    · rfl

theorem State.store_pendW (s : State) (k : PageKind) (p o : Nat) (v : Word) : (s.store k p o v).pendW = s.pendW := by
  unfold State.store
  split
  · exact State.wr_pendW ..
  · exact (State.mk_pendW ..).trans (State.wr_pendW ..)

/-- What a write of INC's or SLEW_INC's lower word keeps for the boundary (R236) changes no register. -/
theorem State.store_time (s : State) (x : TimeSt) (k : PageKind) (p o : Nat) (v : Word) :
    ({ s with time := x } : State).store k p o v = { s.store k p o v with time := x } := by
  unfold State.store
  by_cases c : (immediateReg k o || (v == s.rd p o && !actsUnchanged k o)) = true
  · rw [if_pos c, if_pos (show (immediateReg k o || (v == State.rd { s with time := x } p o && !actsUnchanged k o)) = true from c)]
    rfl
  · rw [if_neg c, if_neg (show ¬(immediateReg k o || (v == State.rd { s with time := x } p o && !actsUnchanged k o)) = true from c)]
    rfl

theorem State.record_time (s : State) (x : TimeSt) (p o : Nat) (d : RegDef) :
    ({ s with time := x } : State).record p o d = { s.record p o d with time := x } := by
  unfold State.record
  dsimp only
  by_cases m : d.mask Access.isSetting = 0 ∨ (p = pgPWR ∧ o = Reg.PWR.CONC_HOLD.off)
  · rw [if_pos m, if_pos m]
  · rw [if_neg m, if_neg m]
    by_cases c : s.flag pgFWU Reg.FWU.STAT_SET_BAD = true
    · rw [if_pos c, if_pos (show State.flag { s with time := x } pgFWU Reg.FWU.STAT_SET_BAD = true from c)]
      rfl
    · rw [if_neg c, if_neg (show ¬State.flag { s with time := x } pgFWU Reg.FWU.STAT_SET_BAD = true from c)]
      rfl

/-- A register but an upper word of INC or SLEW_INC is stored and recorded as any other is. -/
theorem State.storeSetting_record {k : PageKind} {o : Nat} (h : ¬(k = .timeD ∧ (o = 0x044 ∨ o = 0x04C))) (s : State) (p : Nat)
    (new v : Word) (d : RegDef) :
    ∃ x : TimeSt, (s.storeSetting k p o new v).record p o d = { (s.store k p o new).record p o d with time := x } := by
  unfold State.storeSetting
  rw [if_neg h]
  split
  · rename_i c
    obtain ⟨rfl, -⟩ := c
    unfold State.storeLo
    dsimp only
    by_cases c : (mapFind (regKey p o) s.time.lo).isSome = true
    · rw [if_pos c]
      exact ⟨((s.store .timeD p o new).record p o d).time, rfl⟩
    · rw [if_neg c, State.store_time, State.record_time]
      exact ⟨_, rfl⟩
  · exact ⟨((s.store k p o new).record p o d).time, rfl⟩

/-- The state that a write of a register leaves before its written 1s and its lock are looked at. -/
theorem State.writePlain_eq {s : State} {p o : Nat} {k : PageKind} {d : RegDef} {v : Word} {rwl : Bool}
    (h1 : holdsBoth k o (s.taken k p o d v rwl) = false)
    (h2 : ¬(k = .time ∧ o = 0x048 ∧ s.flag pgTIME Reg.TIME.EPOCH_INIT_FROZEN = true)) (h3 : s.testRefused k p o v = false)
    (h4 : ¬(k = .timeD ∧ (o = 0x044 ∨ o = 0x04C))) :
    ∃ u : State, u.regs = ((s.store k p o (s.taken k p o d v rwl)).record p o d).regs ∧
      u.stale = ((s.store k p o (s.taken k p o d v rwl)).record p o d).stale ∧
      u.pendW = s.pendW ++ (if writtenOnes k o d v (d.hasRwl && !rwl && !s.unlocked p) = 0 ∨ immediatePulse k o = true then []
        else [{ page := p, off := o, value := writtenOnes k o d v (d.hasRwl && !rwl && !s.unlocked p),
                chan := ((s.store k p o (s.taken k p o d v rwl)).record p o d).writtenWith k o }]) ∧
      s.writePlain k p o d v rwl = (if (d.hasRwl && !rwl && !s.unlocked p) = true then
        (resLOCKED, u.wr p 0x014 (u.rd p 0x014 ||| 4)) else (resOK, u)) := by
  have e1 : ¬(holdsBoth k o (fixWord k o (d.take (fun a => a == .rw || (a == .rwl && !(d.hasRwl && !rwl && !s.unlocked p)))
      (s.rd p o) v)) = true) := by rw [show fixWord k o _ = s.taken k p o d v rwl from rfl, h1]; exact Bool.false_ne_true
  have e3 : ¬(s.testRefused k p o v = true) := by rw [h3]; exact Bool.false_ne_true
  obtain ⟨x, e⟩ := State.storeSetting_record h4 s p (s.taken k p o d v rwl) v d
  unfold State.writePlain
  extract_lets shut new s₁ s₂ ones s₃
  have es : s₂ = { (s.store k p o (s.taken k p o d v rwl)).record p o d with time := x } := e
  rw [if_neg (show ¬(holdsBoth k o new = true) from e1), if_neg h2, if_neg e3]
  have pw : ((s.store k p o (s.taken k p o d v rwl)).record p o d).pendW = s.pendW := by
    rw [State.record_pendW, State.store_pendW]
  refine ⟨s₃, ?_, ?_, ?_, rfl⟩
  · simp only [s₃, es]
    split <;> rfl
  · simp only [s₃, es]
    split <;> rfl
  · simp only [s₃, es]
    show _ = _ ++ (if ones = 0 ∨ immediatePulse k o = true then [] else _)
    split
    · exact pw.trans (List.append_nil _).symm
    · exact congrArg (· ++ _) pw

end Sys2Proof.Machine
end

