-- ==== Sys2Proof/Tests/Slice0.lean ====
section
/-!
SUPPORT. Tests: commands that are not well formed, the manual's worked examples, and for each statement states and operands
that meet its hypotheses.
-/

set_option Elab.async false
set_option linter.unusedVariables false

namespace Sys2Proof.Tests

open Sys2Proof Sys2Proof.Machine

/-! ### Commands that are not well formed -/

/-- A header of an addressed command of `len` words from port UM0. -/
def hd (len : Nat) (dest : BitVec 4 := 0) (auth : Option Auth := none) : UHdr :=
  { port := .um0, dest := dest, addr := 5, tag := 0x77, len := len, master := 0x21, auth := auth, at_ := 41100 }

/-- Authentication words. -/
def au : Option Auth := some { seq := 1, tag := 0 }

theorem test_wellFormed_read : (Instr.read (hd 1) 0 0 .clean).wellFormed = true := by decide
theorem test_illFormed_len : (Instr.read (hd 2) 0 0 .clean).wellFormed = false := by decide
theorem test_illFormed_longer_than_100 :
    (Instr.pealWrite (hd 101) 0 (List.replicate 50 { page := 0, off := 0, value := 0 })).wellFormed = false := by decide
theorem test_illFormed_auth_missing : (Instr.authWrite (hd 5) 0 0 0).wellFormed = false := by decide
theorem test_illFormed_auth_unasked : (Instr.write (hd 2 0 au) 0 0 0).wellFormed = false := by decide
theorem test_illFormed_broadcast_read : (Instr.read (hd 1 1) 0 0 .clean).wellFormed = false := by decide
theorem test_illFormed_write_by_serial : (Instr.write (hd 2 2) 0 0 0).wellFormed = false := by decide
theorem test_illFormed_register_addressed : (Instr.register (hd 3) 0 0 0).wellFormed = false := by decide
theorem test_illFormed_window_offset : (Instr.corrStageWrite (hd 2) .a 0x3FC 0).wellFormed = false := by decide
theorem test_illFormed_window_word : (Instr.corrStageWrite (hd 2) .a 0x402 0).wellFormed = false := by decide
theorem test_illFormed_dintg_region : (Instr.bucketLeak (.dintg .a) ⟨24, 0⟩).wellFormed = false := by decide
theorem test_illFormed_intg_region : (Instr.threshWrite (hd 2) .intg 36 0).wellFormed = false := by decide
theorem test_illFormed_class : (Instr.agePromotion .a false ⟨6, 0⟩).wellFormed = false := by decide
theorem test_illFormed_payload : (Instr.downstreamFrame .um0 0 [0] [] 0 []).wellFormed = false := by decide
theorem test_illFormed_image_header : (Instr.imgBegin (hd 44 0 au) false [0]).wellFormed = false := by decide
theorem test_illFormed_no_image_data : (Instr.imgData (hd 4 0 au) 0 []).wellFormed = false := by decide

/-- The table gives no row bits, so no word spells a command. -/
theorem test_no_word_spells_a_command : decodeTableWord 32 0x12345678 = none := by decide

/-! ### The manual's worked examples -/

/-- Chapter 3: fine = 1507 from D = 123 in tap 23 with OFS 44.5 ticks and GAIN 0x67AE. -/
theorem test_fine_time_of_chapter_3 :
    fineOf (0x320B * 8192) (spanOf (0x2C80 / 128 * 32768) 0x67AE (0x2DEA * 8192) (0x3008 * 8192) (0x320B * 8192) 123).1 = 1507 :=
  by decide

/-- Chapter 4: the record and the side item of that hit. -/
theorem test_record_of_chapter_4 : tileRecord 1 0xC37 0xABC5E3 36 0 = 0x70DEAF178C240 := by decide
theorem test_side_item_of_chapter_4 : sideItem 1 false 0xC37 23 123 = 0x430DD77B := by decide
theorem test_token_of_chapter_4 : (closedWords 0x12345 {} {} false).head? = some 0x0400000012345 := by decide

/-- Chapter 5: the record corrected by its entry, no limit being applied. -/
theorem test_corrected_record_of_chapter_5 :
    correctRecord 0xAC8067AE000D44012C03E8043E000031 true 9 0x70DEAF178C240 = (0x670DEAF12F4230, 0) := by decide

/-- Chapter 6: the headers of four grains. -/
theorem test_grain_0_of_chapter_6 :
    (grainBytes .a .stream { frame := 0x12345, bytes := List.replicate 769 0, grain := 0 } 0).take 8 =
      [0x23, 0x45, 0x00, 0x00, 0x00, 0x3E, 0x00, 0x13] := by decide +kernel
theorem test_last_grain_of_chapter_6 :
    (grainBytes .a .stream { frame := 0x12345, bytes := List.replicate 25 0, grain := 3 } 6).take 8 =
      [0x23, 0x45, 0x00, 0x03, 0x19, 0x06, 0x40, 0x27] := by decide +kernel
theorem test_resend_grain_of_chapter_6 :
    (grainBytes .a .resend { frame := 0x12301, bytes := List.replicate 300 0, grain := 7 } 4).take 8 =
      [0x23, 0x01, 0x00, 0x07, 0x10, 0xBE, 0x00, 0xB7] := by decide +kernel
theorem test_lane_after_31_of_chapter_6 : nextLane 0xFFFFFFF3 31 = some 0 := by decide +kernel
theorem test_lane_after_1_of_chapter_6 : nextLane 0xFFFFFFF3 1 = some 4 := by decide +kernel

/-- R379: the AES-128-CMAC of RFC 4493's empty message under its key, the first 8 of the 16 bytes. -/
theorem test_tag_of_rfc_4493 :
    cmac64 [0x2B, 0x7E, 0x15, 0x16, 0x28, 0xAE, 0xD2, 0xA6, 0xAB, 0xF7, 0x15, 0x88, 0x09, 0xCF, 0x4F, 0x3C] [] =
      0xBB1D6929E9593728 := by unfold cmac64; decide +kernel

/-! ### States that meet the statements' hypotheses -/

/-- The state with fields of registers written. -/
def puts (s : State) (l : List (Nat × FieldRef × Nat)) : State := l.foldl (fun s x => s.put x.1 x.2.1 x.2.2) s

/-- The register at an offset of a page. -/
def reg (p o : Nat) : RegDef := (regAt p o).getD { base := 0, count := 0, stride := 0, reset := 0, fields := [] }

def theRx : Rx := { since := some 0 }
def theConc : ConcSt := { run := .running, nextForm := 10, sendNext := 10, rx := (Vector.replicate 16 {}).set 0 theRx }
def theTile : Tile := { power := .on, absent := false, halted := false, settled := true, acquiring := false, nextClose := 10 }

/-- Frame 10 runs, port 0 is locked and registered, and both concentrators, tile 0 and its block 0 are in RUN. -/
def s0 : State :=
  puts { State.reset with pow := { mode := .on, groups := 4, railA := true, railB := true }, running := true,
                          frame := 10, now := 41100, concA := theConc, concB := theConc,
                          tiles := (Vector.replicate 16 {}).set 0 theTile }
    [(pgMOD, Reg.HDR.PWR_STATE, 0x303), (pgMERGE .a, Reg.HDR.PWR_STATE, 0x303), (pgMERGE .b, Reg.HDR.PWR_STATE, 0x303),
     (pgTILE 0, Reg.HDR.PWR_STATE, 0x303), (pgTILE 1, Reg.HDR.PWR_STATE_CEIL, 3), (pgBLOCK 0 0, Reg.HDR.PWR_STATE, 0x303),
     (pgTIMED .um0, Reg.TIMED.DSTAT_PORT_LOCK, 1),
     (pgTIMED .um0, Reg.TIMED.DSTAT_ACQUIRED, 1), (pgTIMED .um1, Reg.TIMED.DSTAT_PORT_LOCK, 1),
     (pgTIMED .um1, Reg.TIMED.DSTAT_ACQUIRED, 1), (pgUM .um0, Reg.UM.ADDR_REG, 1), (pgUM .um0, Reg.UM.ADDR_ADDR, 5),
     (pgUM .um0, Reg.UM.TREE_FIXED, 1), (pgSTEP .a, Reg.STEP.STEP_STAT_PAIR, 2), (pgSTEP .b, Reg.STEP.STEP_STAT_PAIR, 2),
     (pgPWR, Reg.PWR.STARTUP_STEP, 12), (pgSTICK, Reg.STICK.CTRL_MIRROR, 0)]

/-- The tag that the master of a privileged command computes, with sequence number 1 (R379). -/
def tagOf (s : State) (c : UCmd) : BitVec 64 :=
  let v := s.arrive 41100
  cmac64 (toBytes 16 (v.fwu.authKey.getD Config.deliveredKey).toNat)
    (toBytes 8 v.serial ++ headerBytes (hd (c.words.length + 3)) c.code ++ wordsBytes c.words ++ toBytes 4 (1 : BitVec 32).toNat)

/-- The header of a privileged command with its tag (R381). -/
def signed (s : State) (c : UCmd) : UHdr := hd (c.words.length + 3) 0 (some { seq := 1, tag := tagOf s c })

theorem signed_auth (s : State) (c : UCmd) : (signed s c).auth = some { seq := 1, tag := tagOf s c } := rfl
theorem signed_bytes (s : State) (c : UCmd) :
    headerBytes (signed s c) c.code = headerBytes (hd (c.words.length + 3)) c.code := rfl

theorem authResult_signed (s : State) (c : UCmd)
    (x : 0 < signedDiff 32 1 ((s.arrive 41100).stored pgJRNL Reg.JRNL.AUTH_SEQ)) :
    (s.arrive 41100).authResult (signed s c) c.code c.words = resOK := by
  have t : cmac64 (toBytes 16 ((s.arrive 41100).fwu.authKey.getD Config.deliveredKey).toNat)
      (toBytes 8 (s.arrive 41100).serial ++ headerBytes (hd (c.words.length + 3)) c.code ++ wordsBytes c.words ++
        toBytes 4 (1 : BitVec 32).toNat) = tagOf s c := by unfold tagOf; rfl
  unfold State.authResult
  rw [signed_auth]
  dsimp only
  rw [signed_bytes, t, if_neg (not_not.mpr rfl)]
  exact if_neg (Int.not_le.mpr x)

theorem formResult_tag (g : BitVec 64) (n : Nat) (c : UCmd) (w : List Word) :
    formResult (hd n 0 (some ⟨1, g⟩)) c w = formResult (hd n 0 (some ⟨1, 0⟩)) c w := by cases c <;> rfl
theorem forMe_tag (s : State) (g : BitVec 64) (n : Nat) (w : List Word) :
    s.forMe (hd n 0 (some ⟨1, g⟩)) w = s.forMe (hd 3) w := rfl
theorem trusted_tag (s : State) (g : BitVec 64) (n : Nat) : s.trusted (hd n 0 (some ⟨1, g⟩)) = s.trusted (hd 3) := rfl

theorem takesAuth_signed (s : State) (c : UCmd)
    (x : s.hears .um0 = true ∧ s.forMe (hd 3) c.words = true ∧ (s.arrive 41100).trusted (hd 3) = true ∧
      privCode c.code = true ∧ formResult (hd (c.words.length + 3) 0 (some ⟨1, 0⟩)) c c.words = resOK ∧
      0 < signedDiff 32 1 ((s.arrive 41100).stored pgJRNL Reg.JRNL.AUTH_SEQ) ∧ s.recovery = false) :
    s.takesAuth (signed s c) c = true := by
  obtain ⟨x, y, z, p, f, q, r⟩ := x
  have e : formResult (signed s c) c c.words = formResult (hd (c.words.length + 3) 0 (some ⟨1, 0⟩)) c c.words :=
    formResult_tag (tagOf s c) _ c _
  have e2 : s.forMe (signed s c) c.words = s.forMe (hd 3) c.words := forMe_tag s (tagOf s c) _ _
  have e3 : (s.arrive 41100).trusted (signed s c) = (s.arrive 41100).trusted (hd 3) := trusted_tag _ (tagOf s c) _
  have a : (signed s c).at_ = 41100 := rfl
  have b : (signed s c).port = .um0 := rfl
  have d : decide ((signed s c).dest.toNat < 3) = true := rfl
  unfold State.takesAuth
  rw [a, b, d, x, e, e2, e3, authResult_signed s c q, y, z, p, f, r]
  rfl

/-- The parts of `State.Writes`, as one condition. -/
def writesB (s : State) (p o : Nat) (v : Word) (rwl : Bool) : Bool :=
  match pageKind p, regAt p o with
  | some k, some d =>
    decide (s.running = true ∧ s.recovery = false ∧ s.writePages p o = [p] ∧ d.canWrite = true ∧ s.dieOff p = false ∧
      plainRegister k o = true ∧ ¬(k = .timeD ∧ (o = 0x044 ∨ o = 0x04C)) ∧ holdsBoth k o (s.taken k p o d v rwl) = false ∧
      ¬(k = .time ∧ o = 0x048 ∧ s.flag pgTIME Reg.TIME.EPOCH_INIT_FROZEN = true) ∧ s.testRefused k p o v = false)
  | _, _ => false

theorem writes {s : State} {p o : Nat} {v : Word} {rwl : Bool} {k : PageKind} {d : RegDef}
    (x : writesB s p o v rwl = true ∧ pageKind p = some k ∧ regAt p o = some d) : s.Writes p o v rwl k d := by
  obtain ⟨x, hk, hd⟩ := x
  simp only [writesB, hk, hd, decide_eq_true_eq] at x
  obtain ⟨a, b, c, e, f, g, i, j, l, m⟩ := x
  exact ⟨a, b, c, hk, hd, e, f, g, i, j, l, m⟩

theorem lands {s : State} {h : UHdr} {p o : Nat} {v : Word} {k : PageKind} {d : RegDef}
    (x : s.takes h (.write p o v) = true ∧ (writesB (s.counted h) p o v false = true ∧ pageKind p = some k ∧
      regAt p o = some d) ∧ (d.hasRwl && !(s.counted h).unlocked p) = false) : s.Lands h p o v k d :=
  ⟨x.1, writes x.2.1, x.2.2⟩

/-- The parts of `State.MayStore`, as one condition. -/
def mayStoreB (s : State) (h : UHdr) (p o : Nat) (v : Word) : Bool :=
  s.takes h (.write p o v) && writesB (s.counted h) p o v false && (pageKind p).all (fun k => actsAtBoundary k o)

theorem mayStore_of {s : State} {h : UHdr} {p o : Nat} {v : Word} (x : mayStoreB s h p o v = true) :
    ∃ k d, s.MayStore h p o v k d := by
  simp only [mayStoreB, Bool.and_eq_true] at x
  obtain ⟨⟨t, w⟩, a⟩ := x
  cases hk : pageKind p with
  | none => simp [writesB, hk] at w
  | some k =>
    cases hd : regAt p o with
    | none => simp [writesB, hk, hd] at w
    | some d => exact ⟨k, d, t, writes ⟨w, hk, hd⟩, by simpa [hk] using a⟩

/-- The state that a command answers. -/
def after (c : Instr) (s : State) : State := match exec c s with | .next t => t | _ => s

theorem next_after {c : Instr} {s : State} (x : (match exec c s with | .next _ => true | _ => false) = true) :
    exec c s = .next (after c s) := by
  unfold after
  split at x <;> simp_all

theorem storesAll :
    [(pgTRIG, 0x040, 0), (pgTRIG, 0x00C, 3), (pgTILE 0, 0x010, 1), (pgTILE 0, 0x020, 1), (pgBLOCK 0 0, 0xC00, 0x80000000),
      (pgTDC 0, 0x040, 0x143), (pgTIMED .um0, 0x050, 5), (pgTIME, 0x064, 5), (pgTIME, 0x074, 1), (pgTIME, 0x048, 7),
      (pgDRAM .b, 0x098, 1), (pgINTG, 0x104, 0), (pgDINTG .a, 0x07C, 1), (pgLANE .a 63, 0x04C, 0), (pgJRNL, 0x058, 1),
      (pgMADC, 0x040, 0x10000), (pgMONX, 0x044, 1), (pgPWR, 0x050, 1), (pgPWR, 0x054, 1)].all
      (fun x => mayStoreB s0 (hd 2) x.1 x.2.1 x.2.2) = true := by decide +kernel

theorem below_of {s : State} {p n : Nat} {l : List FieldRef} (x : (l.all fun f => decide (s.stored p f + n < 2 ^ 32)) = true) :
    s.below p l n := fun f m => of_decide_eq_true (List.all_eq_true.mp x f m)

theorem of_none {α : Type} {o : Option α} {P : α → Prop} (x : o = none) : ∀ w, o = some w → P w :=
  fun _ y => nomatch x.symm.trans y

/-- The canonical forms and bounds of `State.Wf`, as one condition. -/
def wfB (s : State) : Bool :=
  (mapCanon regReset s.regs && mapCanon (fun _ => ({} : Chan)) s.chans && mapCanon (fun _ => (0 : Word)) s.tac) &&
    (mapWf s.stale && mapWf s.tacStaged && mapWf s.rwsStaged && mapWf s.frames) && (mapWf s.lastCorr && mapWf s.scrubs) &&
    (mapWf s.mramCorr && mapWf s.mramTac && mapWf s.mramTap) &&
    decide (s.journal.length ≤ 4096 ∧ (s.eventQ.map (·.1)).Nodup ∧ s.trig.timed.length ≤ 16)

theorem wf_of {s : State} (x : wfB s = true) : s.Wf := by
  simp only [wfB, Bool.and_eq_true, decide_eq_true_eq] at x
  obtain ⟨⟨⟨⟨⟨⟨a, b⟩, c⟩, ⟨⟨d, e⟩, f⟩, g⟩, h, i⟩, ⟨j, k⟩, l⟩, m, n, o⟩ := x
  exact { regs := a, chans := b, tac := c, stale := d, tacStaged := e, rwsStaged := f, frames := g, lastCorr := h,
          scrubs := i, mramCorr := j, mramTac := k, mramTap := l, journal := m, events := n, timed := o }

/-- Bytes with their CRC16. -/
def checked (l : List Byte) : List Byte := l ++ toBytes 2 (crc16 l).toNat

/-- A payload of 476 bytes as two codewords, encoded and scrambled as R368 says. -/
def scrambled (payload : List Byte) : List Byte × List Byte :=
  let code (l : List Byte) : List Byte := l ++ rsCheckD (rsGenD 16) l
  let w := List.zipWith (· ^^^ ·) (code (payload.take 238) ++ code (payload.drop 238)) (scramble15 508)
  (w.take 254, w.drop 254)

def sQueue : State := { State.reset with pending := [.testLogicReset] }
def sWait : State := puts { State.reset with pow := s0.pow } [(pgTIMED .um0, Reg.TIMED.DSTAT_PORT_LOCK, 1), (pgUM .um0,
    Reg.UM.ADDR_REG, 1), (pgUM .um0, Reg.UM.ADDR_ADDR, 5)]
def sTiles : State := puts { s0 with tiles := Vector.replicate 16 theTile } (allTiles.map (fun t => (pgTILE t,
    Reg.HDR.PWR_STATE, 0x303)))
def sMirror : State := puts s0 [(pgSTICK, Reg.STICK.CTRL_MIRROR, 1)]
def sOpen : State := { s0 with unlocks := [(pgTIME, 100), (pgSTICK, 100), (pgPWR, 100)] }
def sWindows : State := { s0 with trig := { windows := List.replicate 8 { opens := 0, closes := 0, sent := none } } }
def aSwap : PendingSwap := { tile := 0, frame := 12, byHost := true, restoring := false, committed := false, quiet := false }
def sSwap : State := { s0 with cal := { s0.cal with swap := some aSwap } }
def sScrub : State := { s0 with scrubs := [(pgINTG, { mem := 0, next := 0, last := 5 })] }
def sFrozenInit : State := puts s0 [(pgTIME, Reg.TIME.EPOCH_INIT_FROZEN, 1)]
def aWrite : PWrite := { page := 0x102, off := 0x040, value := 0x004B0600 }
def aPeal : Peal := { port := .um0, master := 0x21, epoch := 1, count := 1, frame := 20, writes := [(0, aWrite)],
                        time := 41000 }
def sAsm : State := { s0 with um0 := { asm := some aPeal } }
def sPeal : State := puts { s0 with peal := some { aPeal with frame := 12 } } [(pgJRNL, Reg.JRNL.PEAL_STAT_STATE, 2)]
def sPealOff : State := puts { s0 with peal := some { aPeal with frame := 12, writes := [(0, { aWrite with
                                                                                                 page := 0x1100 })] } }
    [(pgJRNL, Reg.JRNL.PEAL_STAT_STATE, 2)]
def sPealDue : State := puts { s0 with peal := some { aPeal with frame := 10 } } [(pgJRNL, Reg.JRNL.PEAL_STAT_STATE, 3)]
def aBody : List Byte := [1, 2, 3, 4]
def anImage : Image :=
  let d := toBytes 64 (sha512 aBody).toNat
  { header := toBytes 4 0x48455341 ++ [0, 0] ++ toBytes 2 0x4065 ++ toBytes 8 (2 ^ 64 - 1) ++ toBytes 8 0x100010000 ++ toBytes 4
      4 ++ d, body := aBody }
def aHeader : List Byte :=
  let h := toBytes 4 0x48455341 ++ [0, 0] ++ toBytes 2 0x4065 ++ toBytes 8 (2 ^ 64 - 1) ++ toBytes 8 0x100010000 ++ toBytes 4 4
    ++ List.replicate 128 0
  h ++ toBytes 4 (crc32c h).toNat
def sXfer : State := { s0 with fwu := { s0.fwu with xfer := some { isK := false, image := { anImage with body := [1, 2] },
                                                                     last := 41000 } } }
def sXferAll : State := { s0 with fwu := { s0.fwu with xfer := some { isK := false, image := anImage, last := 41000 } } }
def sTrial : State := puts { s0 with fwu := { s0.fwu with trial := [false], starts := 1 } } [(pgFWU, Reg.FWU.STAT_TRIAL_RUN, 1)]
def sUnlocked : State := puts { s0 with time := { lock0 := { cdr := true, good := 3, last := some 0 } } } [(pgTIMED .um0,
    Reg.TIMED.DSTAT_PORT_LOCK, 0)]
def aMarker : Marker := { treeId := 0, partId := 0, frame := 0, timeValid := true, time := 16384, master := 0x21, crcOk := true,
                            gained := 0 }
def sNoFrames : State := puts { s0 with running := false, frame := 0, now := 0 } [(pgPWR, Reg.PWR.STARTUP_STEP, 10)]
def sSwitch : State := { s0 with time := { pendSwitch := some { target := true, frame := 10, auto := false } } }
def sSlew : State := puts s0 [(pgTIMED .um0, Reg.TIMED.DSTAT_SLEWING, 1), (pgTIMED .um0, Reg.TIMED.SLEW_CNT, 4097)]
def sSplice : State := puts { s0 with time := { splRun := true, splice := 5 } } [(pgTIME, Reg.TIME.SPL_COUNT, 4097)]
def aHit : Hit := { lead := 41000 * 64, cap := true, hold := 100, holdDone := false, code := none, tot := none, sat := false,
                      pile := false, cal := none, gen := false, cut := 0, shadowOnly := false, window := 4, promote := true,
                      mapA := 0x320000, mapB := 0x2C000000, nominal := false, nomA := 0, nomB := 0, p0 := 0x5BD40000,
                      p1 := 0x60100000, p2 := 0x64160000 }
def highHit : State := puts { s0 with chans := [(0, { hits := [aHit] })] } [(chPage 0, chReg Reg.BLOCK.CH_STAT_HIGH 0, 1)]
def sRanHit : State := { s0 with chans := [(0, { hits := [{ aHit with tot := some 50 }] })] }
def sWhole : State := { s0 with chans := [(0, { hits := [{ aHit with tot := some 50, code := some 123 }] })] }
def aCand : Passed := { chan := 0, lead := 41000 * 64, word := tileRecord 3 0 0xABC5E3 36 0, side := 0, window := 4,
                          promote := true, shadowOnly := true }
def sCand : State := s0.setTile 0 { theTile with cands := [aCand] }
def aRecord : BitVec 52 := tileRecord 1 0xC37 0xABC5E3 36 0
def sQueued : State := s0.setTile 0 { theTile with cellq := [(0, [(aRecord, 41000 * 64)])] }
def sGate : State := s0.setTile 0 { theTile with gateNext := [{ src := 3, tap := 41000 * 64, isOpen := false }] }
def sStuck : State := puts { s0 with chans := [(0, { stuckFrom := some 0 })] } [(chPage 0, chReg Reg.BLOCK.CH_STAT_HIGH 0, 1)]
def sBlank : State := puts s0 [(chPage 0, chReg Reg.BLOCK.CH_STAT_BLANKED 0, 1)]
def sFire : State := { s0 with cal := { s0.cal with fires := [(pgBLOCK 0 0, 10)] } }
def anInject : Inject := { launch := 41000 * 64, charge := 50, hit := false, fallen := false }
def sInject : State := { s0 with chans := [(0, { inj := some anInject })], cal := { s0.cal with launches := [{ chan := 0,
                                                                                                                 launch := 41000
                                                                                                                 * 64,
                                                                                                                 hit := none }] } }
def sLeaving : State := s0.setTile 0 { theTile with power := .leaving }
def aReport : LineReport := { err := 0, bound := 1, least := 0, tap32 := 0, ctrl := 100 }
def sAway : State := puts (s0.setTile 0 { theTile with absent := true }) [(pgTDC 0, Reg.TDC.LOCK_STATUS_LOCKED, 1)]
def sLine : State := puts s0 [(pgTDC 0, Reg.TDC.LOCK_STATUS_LOCKED, 1)]
def sClosing : State := s0.setTile 0 { theTile with nextClose := 9 }
def sLag : State := ({ s0 with now := 40960 } : State).setTile 0 { theTile with portA := { items := [.hit aRecord 10, .hit
                                                                                             aRecord 10], lag := 100000 } }
def sLate : State := s0.setTile 0 { theTile with portA := { cut := true, late := some aRecord } }
def sRecord : State := s0.setTile 0 { theTile with portA := { items := [.hit aRecord 10] } }
def aShadow : BitVec 52 := tileRecord 3 0xC37 0xABC5E3 36 0
def sShadow : State := s0.setTile 0 { theTile with portA := { items := [.hit aShadow 10] } }
def aToken : List (BitVec 52) := closedWords 10 {} {} false
def sToken : State := s0.setTile 0 { theTile with portA := { items := [.closed aToken 10] } }
def aResume : List (BitVec 52) := [0x0500000000000, 0, 7]
def sResume : State := s0.setTile 0 { theTile with portA := { items := [.resume aResume 10] } }
def sBehind : State := s0.setConc .a { theConc with nextForm := 2, sendNext := 2 }
def aFrame : FrameInfo := { pealEpoch := 0, domain := false, tq := 0, mixed := false, dswitch := none, delivered := true,
                              triggers := [], marks := [] }
def aloneConc : ConcSt := { run := .running, nextForm := 9, sendNext := 9 }
def sForm : State := puts { s0 with concA := aloneConc, frames := [(9, aFrame)] } [(pgSTEP .a, Reg.STEP.STEP_STAT_PAIR, 0)]
def anExtent : Extent := { alloc := 0, first := 10, arrived := 10, recs := [5] }
def sExtent : State := ({ s0 with frame := 100 } : State).setRx .a 0 { theRx with ext := some anExtent }
def sGov : State := puts s0 [(pgMERGE .a, Reg.MERGE.GOV_CTRL_ENABLE, 1)]
def sNoGov : State := puts s0 [(pgMERGE .a, Reg.MERGE.GOV_CTRL_ENABLE, 0)]
def aDealing : Dealing := { frame := 9, bytes := List.replicate 769 0, grain := 0 }
def sDeal : State := puts (s0.setConc .a { theConc with stream := some aDealing }) [(pgLANES .a, Reg.LANES.ACT_LO, 3)]
def sDealGlean : State := puts (s0.setConc .a { theConc with gleanCur := some (aDealing, none) }) [(pgLANES .a,
    Reg.LANES.ACT_LO, 3)]
def sDealResend : State := puts (s0.setConc .a { theConc with resendCur := some aDealing }) [(pgLANES .a, Reg.LANES.ACT_LO, 3)]
def aTrigger : Trigger := { num := 1, source := 0, time := 8 * 16777216, glean := true, level := 4, path := 0xFFFF, pre := 5,
                              post := 5 }
def aGlean : Glean := { trig := aTrigger, refused := false, formed := false, nextFrame := 8, part := 0, hits := 0,
                          delivered := 0, overwritten := 0, accepted := 9 }
def sGlean : State := s0.setConc .a { theConc with gleans := [aGlean] }
def sResend : State := s0.setConc .a { theConc with resends := [{ next := 5, left := 2, started := false }] }
def sPins : State := puts s0 [(pgTRIG, Reg.TRIG.TRIG_CTRL_A_EN, 1)]
def sGatePin : State := { s0 with trig := { gateA := { level := true, raw := false, since := some (41000 * 4096) } } }
def sDeliver : State := { s0 with trig := { nextFrame := 9 }, frames := [(9, { aFrame with delivered := false })] }
def sTurn : State := puts ({ s0.setTile 0 { theTile with portA := { side := [sideItem 1 false 0xC37 23 123] } } with cal := {
                                                                                                                                s0.cal with
                                                                                                                                turnOn := true } })
    [(pgCALS, Reg.CALS.CTRL_CD_EN, 1), (pgCALS, Reg.CALS.CTRL_CD_STREAM, 1)]
def aCapture : Capture := { chan := 0xC37, tif := 0, tot := 36, flags := 0, frame := 10 }
def sPairs : State := (s0.setTile 0 { theTile with portA := { side := [sideItem 2 false 0xC37 23 123] } }).setConc .a {
                                                                                                                          theConc with
                                                                                                                          captured := [aCapture] }
def sTurnEnds : State := { s0 with now := 10 ^ 12, cal := { s0.cal with turnOn := true } }
def aResult : CalResult := { tile := 0, taps := [], tac := [], corr := [], accepted := [] }
def sResults : State := { s0 with cal := { s0.cal with results := [aResult] } }
def sPoisoned : State := s0.setConc .a { theConc with corrPoison := [28] }
def sCommitted : State := { s0 with cal := { s0.cal with swap := some { aSwap with committed := true, frame := 10 } } }
def aMsg : CrossMsg := { frame := 9, digest := some 5, mode := 0, nextSend := 9, gleans := 0, oldGleans := 0, run := .running }
def sCompare : State := s0.setConc .a { theConc with inbox := [aMsg], own := [{ aMsg with digest := some 6 }] }
def sLost : State := s0.setConc .a { theConc with inbox := [{ aMsg with run := .frozen }] }
def sReset : State := s0.setConc .a {}
def sFailed : State := ({ s0 with integ := { failed := [.a] } } : State).setConc .a {}
def sLoading : State := s0.setConc .a { run := .loading }
def sLoaded : State := s0.setConc .a { run := .loading, loaded := true }
def sHeld : State := puts s0 [(pgSTICK, Reg.STICK.STAT_STATE, 1), (pgSTICK, Reg.STICK.STAT_HOLDER, 0), (pgLANES .a,
    Reg.LANES.STAT_DRIVING, 1), (pgLANES .a, Reg.LANES.ACT_LO, 1), (pgLANES .a, Reg.LANES.ACT_HI, 0), (pgLANE .a 0,
    Reg.LANE.LANE_STAT_STATE, 3)]
def sGuard : State := puts s0 [(pgSTICK, Reg.STICK.STAT_STATE, 2)]
def aStick : StickCmd := { op := 1, target := true, isWrite := false, port := 0, master := 0x21, tag := 7, digest := 0,
                             time := 41000 }
def sGuardFor : State := puts { s0 with stick := { target := some aStick } } [(pgSTICK, Reg.STICK.STAT_STATE, 2)]
def sDeadline : State := s0.setConc .a { theConc with deadline := some 41500 }
def sExit : State := puts (sHeld.setConc .a { theConc with deadline := some 50000 }) [(pgLANE .a 0, Reg.LANE.LANE_STAT_STATE,
    0), (pgLANE .a 0, Reg.LANE.LANE_STAT_READY, 1)]
def sHostWaits : State := s0.setConc .a { theConc with host := some { shadow := false, unit := 5 } }
def sPostponed : State := s0.setConc .a { theConc with mc := { postponed := [(3, 2)] } }
def sChanging : State := puts s0 [(pgDRAM .a, Reg.DRAM.STAT_CHANGING, 1)]
def sRetrain : State := { s0 with now := 10 ^ 12 }
def sDegraded : State := puts s0 [(pgDTRAIN .a, Reg.DTRAIN.TR_CTRL_RETIRE_EN, 1), (pgDTRAIN .a, Reg.DTRAIN.CH_TRAIN_DEGRADED,
    1), (pgDINTG .a, regionReg Reg.DINTG.BKT_LEVEL 8, 60000)]
def sScrubRing : State := { s0 with scrubs := [(pgDINTG .a, { mem := 1, next := 0, last := 5 })] }
def sFwScrub : State := puts s0 [(pgINTG, Reg.INTG.CTRL_FW_SCRUB, 1)]
def sTest : State := puts s0 [(pgLANE .a 63, Reg.LANE.TEST_GEN_EN, 1), (pgLANE .a 63, Reg.LANE.TEST_CHK_EN, 1)]
def aVisit : Visit := { entry := 5, urgent := false, xp := 0x51101F1F, conv := 0x00000002, exc := 0, switching := true,
                          flush := 0, left := 2, aged := 0, refLost := false }
def sVisit : State := { s0 with mon := { visit := some aVisit } }
def sInvalid : State := { s0 with mon := { visit := some { aVisit with exc := 0xC0000000 } } }
def sConv : State := { s0 with mon := { visit := some { aVisit with switching := false } } }
def excVisit : Visit := { aVisit with xp := 0x0001031F, exc := 0x40000000, switching := false }
def sExc : State := { s0 with mon := { visit := some excVisit } }
def sUrgent : State := puts s0 [(pgILK, Reg.ILK.A_CTRL_EN, 1), (pgILK, Reg.ILK.A_CTRL_SRC0, 5)]
def sHolds : State := puts { s0 with mon := { ilkA := some [{ entry := 5, value := none, since := 0 }] } } [(pgILK,
    Reg.ILK.STAT_A_STATE, 1)]
def sOff : State := { State.reset with pow := { mode := .off } }
def sHeldReset : State := { State.reset with pow := { mode := .held, resetLow := true } }
def sHot : State := { State.reset with pow := { mode := .hot, hot := [.belfry] } }
def anEnv : StartEnv := { belfryOk := true, concA := 0xFFFF7F, concB := 0xFFFF7F, classCOk := true, classKOk := true,
                            classKLoads := true, settingsOk := true, trial := .runs, boardId := 0 }
def sGroups : State := puts { s0 with tiles := Vector.replicate 16 {}, pow := { s0.pow with groups := 3 } } [(pgPWR,
    Reg.PWR.STARTUP_STEP, 7)]
def sStarted : State := puts { s0 with frame := 10 } [(pgPWR, Reg.PWR.STARTUP_STEP, 11)]
def somePins : TestPins := { trst := true, trigA := false, trigB := true, ilkA := false, ilkB := false, boardId := 3, ui0 := 0,
                               ui1 := 0 }
def frameStart : List Byte := checked (toBytes 14 0)
def noGrant : List Byte := checked (toBytes 6 0)
def lockFrame : List Byte :=
  let c := headerBytes (hd 1) 0x05 ++ wordsBytes [0x00020000]
  frameStart ++ (List.replicate 6 noGrant).flatten ++ checked c ++ [0, 0] ++ List.replicate 396 0
def grantFrame : List Byte :=
  let g := checked (toBytes 6 (5 * 2 ^ 36 + 2 ^ 34 + 2 ^ 25))
  frameStart ++ g ++ (List.replicate 5 noGrant).flatten ++ List.replicate 412 0
def foreignFrame : List Byte := checked (toBytes 14 (2 ^ 96)) ++ List.replicate 460 0
def sGranted : State := { s0 with um0 := { granted := [(false, 2, 1)] } }
def sDiscovery : State := { s0 with um1 := { granted := [(true, 2, 1)], answered := some 41000 } }
def sLostPort : State := puts { s0 with um0 := { lostFrom := some 1 } } [(pgTIMED .um0, Reg.TIMED.DSTAT_PORT_LOCK, 0)]

theorem wit_EmptyQueueIdles :
    ∃ s : State, s.pending = [] :=
  ⟨State.reset, by decide +kernel⟩

theorem wit_EveryStepKeepsStatesWellFormed :
    ∃ s t : State, s.Wf ∧ step s = .next t :=
  ⟨({ State.reset with now := 1 }), ({ State.reset with now := 1 }), (wf_of (by decide +kernel)), rfl⟩

theorem wit_CommandsLeaveTheQueueAlone :
    (∃ (c : Instr) (s t : State), exec c s = .next t) ∧
    (∃ s t : State, step s = .next t) :=
  ⟨⟨.testLogicReset, State.reset, State.reset, rfl⟩,
   ⟨sQueue, State.reset, rfl⟩⟩

theorem wit_ResetRegisters :
    (∃ (p : Nat) (e : PageKind × Nat × Nat × Nat) (i : Nat), e ∈ [(.stick, 0x044, 1, 0x00002710)] ∧ pageKind p = some e.1 ∧ i <
      e.2.2.1) ∧
    (∃ (p : Nat) (k : PageKind), pageKind p = some k) :=
  ⟨⟨pgSTICK, ((.stick, 0x044, 1, 0x00002710)), 0, (by decide +kernel), by decide +kernel⟩,
   ⟨pgTRIG, .trig, by decide +kernel⟩⟩

theorem wit_RegisterWritesStore :
    (∀ x ∈ [(pgTRIG, 0x040, 0), (pgTRIG, 0x00C, 3), (pgTILE 0, 0x010, 1), (pgTILE 0, 0x020, 1), (pgBLOCK 0 0, 0xC00,
      0x80000000), (pgTDC 0, 0x040, 0x143), (pgTIMED .um0, 0x050, 5), (pgTIME, 0x064, 5), (pgTIME, 0x074, 1), (pgTIME, 0x048,
      7), (pgDRAM .b, 0x098, 1), (pgINTG, 0x104, 0), (pgDINTG .a, 0x07C, 1), (pgLANE .a 63, 0x04C, 0), (pgJRNL, 0x058, 1),
      (pgMADC, 0x040, 0x10000), (pgMONX, 0x044, 1), (pgPWR, 0x050, 1), (pgPWR, 0x054, 1)], ∃ k d, s0.MayStore (hd 2) x.1 x.2.1
      x.2.2 k d) ∧ (∃ (s : State) (h : UHdr) (v : Word) (d : RegDef), s.running = false ∧ s.pendW = [] ∧ s.stale = [] ∧ s.takes
      h (.write pgTIME 0x048 v) = true ∧ s.recovery = false ∧ regAt pgTIME 0x048 = some d ∧ s.flag pgTIME
      Reg.TIME.EPOCH_INIT_FROZEN = false) ∧ (∃ (c : Instr) (s : State) (h : UHdr) (page off : Nat) (v : Word) (k : PageKind) (d
      : RegDef), s.registerWrite c = some (h, page, off, v) ∧ s.running = true ∧ s.recovery = false ∧ s.takes h (.write page off
      v) = true ∧ 2 ≤ ((s.counted h).writePages page off).length ∧ (∀ p ∈ (s.counted h).writePages page off, pageKind p = some k
      ∧ regAt p off = some d ∧ (s.counted h).dieOff p = false) ∧ d.canWrite = true ∧ plainRegister k off = true ∧ actsAtBoundary
      k off = true ∧ page / 256 = 0x20) ∧ (∃ (c : Instr) (s : State) (h : UHdr) (page off : Nat) (v : Word) (k : PageKind) (d :
      RegDef), s.registerWrite c = some (h, page, off, v) ∧ s.running = true ∧ s.recovery = false ∧ s.takes h (.write page off
      v) = true ∧ 2 ≤ ((s.counted h).writePages page off).length ∧ (∀ p ∈ (s.counted h).writePages page off, pageKind p = some k
      ∧ regAt p off = some d ∧ (s.counted h).dieOff p = false) ∧ d.canWrite = true ∧ plainRegister k off = true ∧ actsAtBoundary
      k off = true ∧ isConcPage page = true) :=
  ⟨fun x hx => mayStore_of (List.all_eq_true.mp storesAll x hx), ⟨sWait, hd 2, 7, reg pgTIME 0x048, by decide +kernel⟩,
      ⟨.write (hd 2) 0x2000 0x040 5, sTiles, hd 2, 0x2000, 0x040, 5, .tile, reg 0x1000 0x040, by decide +kernel⟩, .write (hd 2)
      0x102 0x040 0x004B0600, sMirror, hd 2, 0x102, 0x040, 0x004B0600, .sheaf, reg 0x102 0x040, by decide +kernel⟩

theorem wit_RowsTouchOnlyTheirParts :
    (∃ (c : Instr) (s t : State), s.commandOf c = none ∧ exec c s = .next t) ∧
    (∃ (c : Instr) (s t : State) (h : UHdr) (u : UCmd) (e : BlockEnv), exec c s = .next t ∧ s.commandOf c = some (h, u, e) ∧
      s.running = true) :=
  ⟨⟨.testLogicReset, State.reset, State.reset, rfl, rfl⟩,
   ⟨(.lock (hd 1) 2), s0, (after (.lock (hd 1) 2) s0), (hd 1), (.lock 2), {}, (next_after (by decide +kernel)),
      by decide +kernel⟩⟩

theorem wit_TimedRequestsAreKept :
    (∃ (s : State) (h : UHdr) (coarse : BitVec 48) (fine : BitVec 12) (g : Bool) (level : BitVec 3) (pre post : BitVec 20)
      (path : BitVec 16), s.running = true ∧ s.takes h (.timedTrigger coarse.toNat fine.toNat g level.toNat pre.toNat post.toNat
      path.toNat : UCmd) = true ∧ (((s.counted h).frame * 4096 : Nat) : Int) ≤ (s.counted h).toModule ((s.counted h).domainTref
      coarse.toNat * 4096 + (fine.toNat : Int)) 1 / 4096 ∧ (s.counted h).toModule ((s.counted h).domainTref coarse.toNat * 4096
      + (fine.toNat : Int)) 1 / 4096 ≤ (((s.counted h).frame * 4096 : Nat) : Int) + 640000000 ∧ level.toNat ≤ 4 ∧ pre.toNat ≤
      640000 ∧ post.toNat ≤ 640000 ∧ (s.counted h).trig.timed.length < 16) ∧
    (∃ (s : State) (h : UHdr) (open_ : BitVec 48) (openTap : BitVec 6) (close : BitVec 48) (closeTap : BitVec 6), (∀ w,
      (s.counted h).trig.windows.getLast? = some w → ((s.counted h).toModule (w.closes * 64) 64 / 64) < ((s.counted h).toModule
      (((s.counted h).domainTref open_.toNat * 64 + (openTap.toNat : Int)) * 64) 64 / 64)) ∧ s.running = true ∧ s.takes h
      (.timedGate open_.toNat openTap.toNat close.toNat closeTap.toNat : UCmd) = true ∧ ((((s.counted h).frame + 2) * 4096 * 64
      : Nat) : Int) ≤ ((s.counted h).toModule (((s.counted h).domainTref open_.toNat * 64 + (openTap.toNat : Int)) * 64) 64 /
      64) ∧ ((s.counted h).toModule (((s.counted h).domainTref open_.toNat * 64 + (openTap.toNat : Int)) * 64) 64 / 64) ≤
      (((s.counted h).now : Int) + 640000000) * 64 ∧ ((s.counted h).toModule (((s.counted h).domainTref open_.toNat * 64 +
      (openTap.toNat : Int)) * 64) 64 / 64) < ((s.counted h).toModule (((s.counted h).domainTref close.toNat * 64 +
      (closeTap.toNat : Int)) * 64) 64 / 64) ∧ ((s.counted h).toModule (((s.counted h).domainTref close.toNat * 64 +
      (closeTap.toNat : Int)) * 64) 64 / 64) ≤ ((s.counted h).toModule (((s.counted h).domainTref open_.toNat * 64 +
      (openTap.toNat : Int)) * 64) 64 / 64) + 640000000 * 64 ∧ (s.counted h).trig.windows.length < 8) :=
  ⟨⟨s0, (hd 4), 50000, 0, true, 1, 5, 5, 3, by decide +kernel⟩,
   ⟨s0, (hd 4), 60000, 0, 60001, 0, (of_none (by decide +kernel)), by decide +kernel⟩⟩

theorem wit_RequestsWait :
    (∃ (s : State) (h : UHdr) (first : BitVec 32) (count : BitVec 16), s.running = true ∧ s.takes h (.resend first.toNat
      count.toNat) = true) ∧
    (∃ (s : State) (h : UHdr) (c : Conc), s.running = true ∧ s.takes h (.freezeRelease (c == .b)) = true) ∧
    (∃ (s : State) (h : UHdr) (op : BitVec 2) (target : Bool), s.takesAuth h (.stick op.toNat target) = true ∧ s.running = true) :=
  ⟨⟨s0, (hd 2), 5, 3, by decide +kernel⟩,
   ⟨s0, (hd 1), .a, by decide +kernel⟩,
   ⟨s0, (signed s0 (.stick 1 true)), 1, true, (takesAuth_signed _ _ (by decide +kernel)), by decide +kernel⟩⟩

theorem wit_DomainSwitchesAreRequested :
    (∃ (s : State) (h : UHdr) (target : Bool) (sheaf : BitVec 32), s.takesAuth h (.domainSwitch target sheaf.toNat : UCmd) = true
      ∧ s.running = true ∧ umOf target ≠ (s.authed h).active ∧ (s.authed h).acquired (umOf target) = true ∧ (s.authed
      h).portLocked (umOf target) = true ∧ 2 ≤ signedDiff 32 sheaf.toNat (sheafOf (s.authed h).frame) ∧ (s.authed
      h).time.pendSwitch = none ∧ (s.authed h).time.recheck = false ∧ switchInRange ((s.authed h).accDiffNow (umOf target))
      (s.authed h).spliceNow = true) ∧
    (∃ (s : State) (h : UHdr) (value : Word) (k : PageKind) (d : RegDef), s.Lands h pgTIME 0x050 (value ||| 0x80000000) k d ∧
      s.running = true ∧ (s.counted h).unlocked pgTIME = true) ∧
    (∃ (s : State) (f : Nat) (v : Word) (sheaf : Nat), s.running = true ∧ (umOf (v.getLsbD 0)) ≠ s.active ∧ s.acquired (umOf
      (v.getLsbD 0)) = true ∧ s.portLocked (umOf (v.getLsbD 0)) = true ∧ 2 ≤ signedDiff 32 sheaf (sheafOf s.frame) ∧
      s.time.pendSwitch = none ∧ s.time.recheck = false ∧ switchInRange (s.accDiffNow (umOf (v.getLsbD 0))) s.spliceNow = true) ∧
    (∃ (s : State) (f : Nat) (v : Word) (sheaf : Nat), ((umOf (v.getLsbD 0)) = s.active ∨ s.acquired (umOf (v.getLsbD 0)) = false
      ∨ s.portLocked (umOf (v.getLsbD 0)) = false ∨ signedDiff 32 sheaf (sheafOf s.frame) < 2 ∨ s.time.pendSwitch ≠ none ∨
      switchInRange (s.accDiffNow (umOf (v.getLsbD 0))) s.spliceNow = false) ∧ s.stored pgTIME Reg.TIME.SW_REJ_CNT < 2 ^ 32 - 1) :=
  ⟨⟨s0, (signed s0 (.domainSwitch true 20)), true, 20, (takesAuth_signed _ _ (by decide +kernel)), by decide +kernel⟩,
   ⟨sOpen, (hd 2), 1, .time, (reg pgTIME 0x050), (lands (by decide +kernel)), by decide +kernel⟩,
   ⟨s0, 11, 1, 20, by decide +kernel⟩,
   ⟨s0, 11, 0, 20, (.inl (by decide +kernel)), by decide +kernel⟩⟩

theorem wit_RefusedRequestsAreCounted :
    (∃ (s : State) (h : UHdr) (coarse : BitVec 48) (fine : BitVec 12) (g : Bool) (level : BitVec 3) (pre post : BitVec 20)
      (path : BitVec 16), (4 < level.toNat ∨ 640000 < pre.toNat ∨ 640000 < post.toNat ∨ 16 ≤ s.trig.timed.length) ∧ s.running =
      true ∧ s.takes h (.timedTrigger coarse.toNat fine.toNat g level.toNat pre.toNat post.toNat path.toNat : UCmd) = true ∧
      s.stored pgTRIG Reg.TRIG.TCMD_REJ_CNT < 2 ^ 32 - 1) ∧
    (∃ (s : State) (h : UHdr) (open_ : BitVec 48) (openTap : BitVec 6) (close : BitVec 48) (closeTap : BitVec 6), s.running =
      true ∧ s.takes h (.timedGate open_.toNat openTap.toNat close.toNat closeTap.toNat : UCmd) = true ∧ 8 ≤
      s.trig.windows.length ∧ s.stored pgTRIG Reg.TRIG.GCMD_REJ_CNT < 2 ^ 32 - 1) ∧
    (∃ (s : State) (h : UHdr) (target : Bool) (sheaf : BitVec 32), s.takesAuth h (.domainSwitch target sheaf.toNat : UCmd) = true
      ∧ (umOf target = s.active ∨ s.acquired (umOf target) = false ∨ signedDiff 32 sheaf.toNat (sheafOf s.frame) < 2 ∨
      s.time.pendSwitch ≠ none) ∧ s.running = true ∧ s.stored pgTIME Reg.TIME.SW_REJ_CNT < 2 ^ 32 - 1) :=
  ⟨⟨s0, (hd 4), 50000, 0, true, 5, 5, 5, 3, (.inl (by decide +kernel)), by decide +kernel⟩,
   ⟨sWindows, (hd 4), 60000, 0, 60001, 0, by decide +kernel⟩,
   ⟨s0, (signed s0 (.domainSwitch false 20)), false, 20, (takesAuth_signed _ _ (by decide +kernel)),
      (.inl (by decide +kernel)), by decide +kernel⟩⟩

theorem wit_RegistrationFollowsTheCommands :
    (∃ (s : State) (h : UHdr) (serial : BitVec 64) (addr : BitVec 12) (eqd : BitVec 16), s.running = true ∧ s.takes h (.register
      serial.toNat addr.toNat eqd.toNat : UCmd) = true) ∧
    (∃ (s : State) (h : UHdr), s.running = true ∧ s.takes h .deregister = true ∧ s.flag (pgUM h.port) Reg.UM.ADDR_REG = true) :=
  ⟨⟨s0, (hd 3 2), 0, 7, 0, by decide +kernel⟩,
   ⟨s0, (hd 0), by decide +kernel⟩⟩

theorem wit_UnlockWindows :
    (∃ (s : State) (h : UHdr) (page frames : BitVec 16), s.takesAuth h (.unlock page.toNat frames.toNat : UCmd) = true ∧
      s.running = true ∧ (targetKind page.toNat).isSome = true ∧ pageHasRwl page.toNat = true ∧ (s.authed h).lockPages
      page.toNat = [page.toNat]) ∧
    (∃ (s : State) (h : UHdr) (page : BitVec 16), s.running = true ∧ s.takes h (.lock page.toNat : UCmd) = true ∧ (targetKind
      page.toNat).isSome = true ∧ (s.counted h).lockPages page.toNat = [page.toNat]) ∧
    (∃ (s : State) (page : BitVec 16), s.powered = true) :=
  ⟨⟨s0, (signed s0 (.unlock 2 100)), 2, 100, (takesAuth_signed _ _ (by decide +kernel)), by decide +kernel⟩,
   ⟨s0, (hd 1), 2, by decide +kernel⟩,
   ⟨s0, 2, by decide +kernel⟩⟩

theorem wit_WrittenRequestsAreMade :
    (∃ (s : State) (h : UHdr) (tile block : Fin 16) (value : Word) (k : PageKind) (d : RegDef), s.Lands h (pgBLOCK tile block)
      0x050 (value ||| 0x10000) k d ∧ s.running = true ∧ fieldGet Reg.BLOCK.INJ_CTRL_MODE ((s.counted h).taken k (pgBLOCK tile
      block) 0x050 d (value ||| 0x10000) false) = 1 ∧ mapFind (pgBLOCK tile block) s.cal.fires = none) ∧
    (∃ (s : State) (h : UHdr) (c : Conc) (k : PageKind) (d : RegDef), s.Lands h (pgDRAM c) 0x0B0 1 k d ∧ s.running = true ∧
      s.flag (pgDRAM c) Reg.DRAM.HOST_CTRL_BUSY = false) ∧
    (∃ (s : State) (h : UHdr) (value : Word) (k : PageKind) (d : RegDef), s.Lands h pgTRIG 0x07C (value ||| 0x10000) k d ∧
      s.running = true) ∧
    (∃ (s : State) (h : UHdr) (value : Word) (k : PageKind) (d : RegDef), s.Lands h pgSTICK 0x048 (value ||| 0x80000000) k d ∧
      s.running = true ∧ (s.counted h).unlocked pgSTICK = true) :=
  ⟨⟨s0, (hd 2), 0, 0, (fieldPut Reg.BLOCK.INJ_CTRL_MODE 1 0), .block, (reg (pgBLOCK 0 0) 0x050), (lands (by decide +kernel)),
      by decide +kernel⟩,
   ⟨s0, (hd 2), .a, .dram, (reg (pgDRAM .a) 0x0B0), (lands (by decide +kernel)), by decide +kernel⟩,
   ⟨s0, (hd 2), 5, .trig, (reg pgTRIG 0x07C), (lands (by decide +kernel)), by decide +kernel⟩,
   ⟨sOpen, (hd 2), 1, .stick, (reg pgSTICK 0x048), (lands (by decide +kernel)), by decide +kernel⟩⟩

theorem wit_SwapsAreRequestedByTheHost :
    (∃ (s : State) (h : UHdr) (value : Word) (k : PageKind) (d : RegDef), s.Lands h pgCALS 0x068 (value ||| 0x80000000) k d ∧
      s.running = true ∧ s.cal.swap = none ∧ s.peal = none ∧ s.swapAdmitted = true) ∧
    (∃ (s : State) (h : UHdr) (value : Word) (k : PageKind) (d : RegDef), s.Lands h pgCALS 0x068 (value ||| 0x80000000) k d ∧
      (s.cal.swap.isSome = true ∨ s.peal.isSome = true) ∧ s.running = true ∧ s.stored pgCALS Reg.CALS.ABORT_CNT < 2 ^ 32 - 1) :=
  ⟨⟨s0, (hd 2), 0, .cals, (reg pgCALS 0x068), (lands (by decide +kernel)), by decide +kernel⟩,
   ⟨sSwap, (hd 2), 0, .cals, (reg pgCALS 0x068), (lands (by decide +kernel)), (.inl (by decide +kernel)), by decide +kernel⟩⟩

theorem wit_StagingFollowsWrites :
    (∃ (s : State) (h : UHdr) (c : Conc) (off : BitVec 16) (value : Word), ((mapFind (s.corrChan (pgCORR c) off.toNat) (s.conc
      c).corrStaged).isSome = true ∨ (s.conc c).corrStaged.length < 4096) ∧ s.running = true ∧ s.takes h (.write (pgCORR c)
      off.toNat value) = true ∧ s.recovery = false ∧ s.writePages (pgCORR c) off.toNat = [(pgCORR c)] ∧ 0x400 ≤ off.toNat ∧
      off.toNat < 0x800 ∧ off.toNat % 4 = 0 ∧ (s.conc c).run ≠ .reset) ∧
    (∃ (s : State) (h : UHdr) (c : Conc) (k : PageKind) (d : RegDef), s.Lands h (pgCORR c) 0x048 1 k d ∧ s.running = true) ∧
    (∃ (s : State) (h : UHdr) (tile : Fin 16) (page : BitVec 16) (k : PageKind) (d : RegDef), s.Lands h (pgTDC tile) 0x028 1 k d
      ∧ page.toNat = (pgTDC tile) ∧ s.running = true ∧ s.shadowCommitted (pgTDC tile) = false) :=
  ⟨⟨s0, (hd 2), .a, 0x400, 5, (.inr (by decide +kernel)), by decide +kernel⟩,
   ⟨s0, (hd 2), .a, .corr, (reg (pgCORR .a) 0x048), (lands (by decide +kernel)), by decide +kernel⟩,
   ⟨s0, (hd 2), 0, 0x1001, .tdc, (reg (pgTDC 0) 0x028), (lands (by decide +kernel)), by decide +kernel⟩⟩

theorem wit_ScrubPassesStartAndStop :
    (∃ (s : State) (h : UHdr) (page : IntPage) (k : PageKind) (d : RegDef), s.Lands h (page.page) 0x050 1 k d ∧ s.running = true
      ∧ s.scrubAllowed page = true) ∧
    (∃ (s : State) (h : UHdr) (page : IntPage) (k : PageKind) (d : RegDef), s.Lands h (page.page) 0x050 1 k d ∧ s.running = true
      ∧ s.scrubAllowed page = false) ∧
    (∃ (s : State) (h : UHdr) (page : IntPage) (k : PageKind) (d : RegDef), s.Lands h (page.page) 0x050 2 k d ∧ s.running = true
      ∧ (mapFind (page.page) s.scrubs).isSome = true) :=
  ⟨⟨s0, (hd 2), .intg, .intg, (reg pgINTG 0x050), (lands (by decide +kernel)), by decide +kernel⟩,
   ⟨sScrub, (hd 2), .intg, .intg, (reg pgINTG 0x050), (lands (by decide +kernel)), by decide +kernel⟩,
   ⟨sScrub, (hd 2), .intg, .intg, (reg pgINTG 0x050), (lands (by decide +kernel)), by decide +kernel⟩⟩

theorem wit_ReadsAnswer :
    (∃ (s : State) (h : UHdr) (page off : BitVec 16) (ecc : EccRead) (k : PageKind), s.running = true ∧ s.takes h (.read
      (page.toNat) (off.toNat)) = true ∧ s.recovery = false ∧ pageKind (page.toNat) = some k ∧ (off.toNat) % 4 = 0 ∧ (off.toNat)
      < 4096 ∧ (s.counted h).dieOff (page.toNat) = false ∧ (s.counted h).readsPoison k (off.toNat) = false) ∧
    (∃ (s : State) (h : UHdr) (page off : BitVec 16) (count : BitVec 8) (env : BlockEnv) (k : PageKind), s.running = true ∧
      s.takes h (.blockRead (page.toNat) (off.toNat) (count.toNat)) = true ∧ s.recovery = false ∧ pageKind (page.toNat) = some k
      ∧ (off.toNat) % 4 = 0 ∧ 1 ≤ (count.toNat) ∧ (count.toNat) ≤ 64 ∧ (off.toNat) + 4 * ((count.toNat) - 1) ≤ 0xFFC ∧
      (s.counted h).dieOff (page.toNat) = false ∧ (∀ i, i < (count.toNat) → (s.counted h).readsPoison k ((off.toNat) + 4 * i) =
      false) ∧ env.stops = none ∧ (∀ i, i < (count.toNat) → protectedWord k ((off.toNat) + 4 * i) = true → env.reads.at_
      ((off.toNat) + 4 * i) = .clean)) :=
  ⟨⟨s0, (hd 1), 0, 0x048, .clean, .mod, by decide +kernel⟩,
   ⟨s0, (hd 2), 2, 0x040, 4, {}, .time, by decide +kernel⟩⟩

theorem wit_PrivilegedWritesStore :
    ∃ (s : State) (h : UHdr) (page off : BitVec 16) (w : Word) (a : Auth) (k : PageKind) (d : RegDef), s.takesAuth h (.authWrite
      (page.toNat) (off.toNat) w) = true ∧ h.auth = some a ∧ (s.authed h).Writes (page.toNat) (off.toNat) w true k d ∧
      actsAtBoundary k (off.toNat) = true :=
  ⟨s0, (signed s0 (.authWrite 2 0x040 0)), 2, 0x040, 0, (((signed s0 (.authWrite 2 0x040 0)).auth.getD ⟨1, 0⟩)), .time, (reg
      pgTIME 0x040), (takesAuth_signed _ _ (by decide +kernel)), rfl, (writes (by decide +kernel)), by decide +kernel⟩

theorem wit_CommandsThatStoreNothing :
    (∃ (c : Instr) (s : State) (h : UHdr) (p o : Nat) (w : Word) (k : PageKind) (d : RegDef), s.registerWrite c = some (h, p, o,
      w) ∧ s.running = true ∧ s.takes h (.write p o w) = true ∧ s.recovery = false ∧ (s.counted h).writePages p o = [p] ∧
      pageKind p = some k ∧ regAt p o = some d ∧ d.canWrite = false ∧ s.stored pgMOD Reg.MOD.ADDR_ERR_CNT < 2 ^ 32 - 1) ∧
    (∃ (s : State) (h : UHdr) (value : Word) (d : RegDef), s.running = true ∧ s.takes h (.write pgPWR 0x054 value) = true ∧
      s.recovery = false ∧ regAt pgPWR 0x054 = some d ∧ holdsBoth .pwr 0x054 ((s.counted h).taken .pwr pgPWR 0x054 d value
      false) = true) ∧
    (∃ (s : State) (h : UHdr) (value : Word), s.running = true ∧ s.takes h (.write pgTIME 0x048 value) = true ∧ s.recovery =
      false ∧ s.flag pgTIME Reg.TIME.EPOCH_INIT_FROZEN = true) ∧
    (∃ (s : State) (h : UHdr) (c : Conc) (lane : Fin 64) (value : Word), pageKind (pgLANE c lane) = some .lane ∧ s.running = true
      ∧ s.takes h (.write (pgLANE c lane) 0x04C value) = true ∧ s.recovery = false ∧ (s.conc c).run ≠ .reset ∧ s.testRefused
      .lane (pgLANE c lane) 0x04C value = true ∧ s.stored (pgLANE c lane) Reg.LANE.TEST_REJ_CNT < 2 ^ 32 - 1) ∧
    (∃ (c : Instr) (s : State) (h : UHdr) (p o : Nat) (v : Word) (k : PageKind) (d : RegDef), (s.counted h).Writes p o v false k
      d ∧ s.registerWrite c = some (h, p, o, v) ∧ s.takes h (.write p o v) = true ∧ actsAtBoundary k o = true ∧ d.hasRwl = true
      ∧ s.unlocked p = false ∧ p ≠ pgMOD ∧ s.stored pgMOD Reg.MOD.LOCK_REJ_CNT < 2 ^ 32 - 1) ∧
    (∃ (c : Instr) (s : State) (h : UHdr) (p o : Nat) (w : Word) (k : PageKind) (d : RegDef), s.registerWrite c = some (h, p, o,
      w) ∧ s.running = true ∧ s.takes h (.write p o w) = true ∧ s.recovery = false ∧ (s.counted h).writePages p o = [p] ∧
      pageKind p = some k ∧ regAt p o = some d ∧ d.canWrite = true ∧ d.hasRwl = false ∧ (s.counted h).dieOff p = true ∧ o ≠
      0x010 ∧ plainRegister k o = true ∧ (s.counted h).testRefusedOff k p o w = false ∧ d.mask (fun a => a == .rw) ≠ 0) :=
  ⟨⟨(.write (hd 2) 0 0 5), s0, (hd 2), 0, 0, 5, .mod, (reg 0 0), by decide +kernel⟩,
   ⟨sOpen, (hd 2), 3, (reg pgPWR 0x054), by decide +kernel⟩,
   ⟨sFrozenInit, (hd 2), 7, by decide +kernel⟩,
   ⟨s0, (hd 2), .a, 0, 1, by decide +kernel⟩,
   ⟨(.write (hd 2) 2 0x050 5), s0, (hd 2), 2, 0x050, 5, .time, (reg pgTIME 0x050), (writes (by decide +kernel)),
      by decide +kernel⟩,
   ⟨(.write (hd 2) 0x1100 0x040 5), s0, (hd 2), 0x1100, 0x040, 5, .tile, (reg 0x1100 0x040), by decide +kernel⟩⟩

theorem wit_PealsAreAssembled :
    (∃ (s : State) (h : UHdr) (epoch : BitVec 16) (count : Byte) (sheaf : BitVec 32), s.running = true ∧ s.takes h (.pealBegin
      epoch.toNat count.toNat sheaf.toNat : UCmd) = true ∧ (s.um h.port).asm = none) ∧
    (∃ (s : State) (h : UHdr) (index : Byte) (writes : List PWrite) (p : Peal), s.running = true ∧ s.takes h (.pealWrite
      index.toNat writes : UCmd) = true ∧ (s.um h.port).asm = some p ∧ p.master = h.master) ∧
    (∃ (s : State) (u : Um) (p : Peal) (i : Nat) (w : PWrite) (l : List (Nat × PWrite)), s.running = true ∧ s.powered = true ∧
      (s.um u).asm = some p ∧ p.writes = (i, w) :: l ∧ s.stored pgJRNL Reg.JRNL.PEAL_FAIL_CNT < 2 ^ 32 - 1) :=
  ⟨⟨s0, (hd 2), 1, 1, 20, by decide +kernel⟩,
   ⟨sAsm, (hd 3), 0, [aWrite], aPeal, by decide +kernel⟩,
   ⟨sAsm, .um0, aPeal, 0, aWrite, [], by decide +kernel⟩⟩

theorem wit_PealsAreCheckedAndPending :
    (∃ (s : State) (p : Peal) (count : Nat) (crc : BitVec 32), s.running = true) ∧
    (∃ (s : State) (h : UHdr) (count : Byte) (crc : BitVec 32) (p : Peal), s.running = true ∧ s.takes h (.pealEnd count.toNat crc
      : UCmd) = true ∧ (s.um h.port).asm = some p ∧ p.master = h.master ∧ p.count = count.toNat ∧ 1 ≤ count.toNat ∧ count.toNat
      ≤ 64 ∧ p.writes.map (·.1) = List.range count.toNat ∧ crc32c (p.list.flatMap PWrite.bytes) = crc ∧ (∀ w ∈ p.list, w.allowed
      = true) ∧ 3 ≤ (signedDiff 32 p.frame (sheafOf s.frame)) ∧ (signedDiff 32 p.frame (sheafOf s.frame)) ≤ 2 ^ 20 ∧ p.epoch =
      s.nextEpoch ∧ s.committedSwapAt ≠ some (frameOfSheaf s.frame p.frame) ∧ s.peal = none) ∧
    (∃ (s : State) (h : UHdr) (count : Byte) (crc : BitVec 32), (∀ p, (s.um h.port).asm = some p → p.master ≠ h.master) ∧
      s.running = true ∧ s.takes h (.pealEnd count.toNat crc : UCmd) = true) ∧
    (∃ (s : State) (h : UHdr) (count : Byte) (crc : BitVec 32) (p : Peal) (i : Nat) (w : PWrite) (l : List (Nat × PWrite)),
      s.running = true ∧ s.takes h (.pealEnd count.toNat crc : UCmd) = true ∧ (s.um h.port).asm = some p ∧ p.master = h.master ∧
      p.writes = (i, w) :: l ∧ (s.pealCheck p count.toNat crc) ≠ resOK ∧ s.stored pgJRNL Reg.JRNL.PEAL_FAIL_CNT < 2 ^ 32 - 1) :=
  ⟨⟨s0, aPeal, 1, (crc32c aWrite.bytes), by decide +kernel⟩,
   ⟨sAsm, (hd 2), 1, (crc32c aWrite.bytes), aPeal, by decide +kernel⟩,
   ⟨s0, (hd 2), 1, (crc32c aWrite.bytes), (of_none (by decide +kernel)), by decide +kernel⟩,
   ⟨sAsm, (hd 2), 2, (crc32c aWrite.bytes), aPeal, 0, aWrite, [], by decide +kernel⟩⟩

theorem wit_PealsCommitAndApply :
    (∃ (s : State) (p : Peal), s.powered = true ∧ s.peal = some p ∧ s.stored pgJRNL Reg.JRNL.PEAL_STAT_STATE = 2 ∧ s.frame + 2 =
      p.frame ∧ (∀ w ∈ p.list, ∀ g ∈ s.pealPages w, s.pageAcks p g w.off.toNat = true)) ∧
    (∃ (s : State), s.peal = none) ∧
    (∃ (s : State) (p : Peal) (i : Nat) (w : PWrite) (l : List (Nat × PWrite)), s.powered = true ∧ s.running = true ∧ s.peal =
      some p ∧ s.stored pgJRNL Reg.JRNL.PEAL_STAT_STATE = 2 ∧ s.frame + 2 = p.frame ∧ (∃ w ∈ p.list, ∃ g ∈ s.pealPages w,
      s.pageAcks p g w.off.toNat = false) ∧ p.writes = (i, w) :: l ∧ s.stored pgJRNL Reg.JRNL.PEAL_FAIL_CNT < 2 ^ 32 - 1) ∧
    (∃ (s : State) (p : Peal), s.powered = true ∧ s.peal = some p ∧ s.stored pgJRNL Reg.JRNL.PEAL_STAT_STATE = 3 ∧ p.frame ≤
      s.frame) ∧
    (∃ (s : State) (p : Peal) (i : Nat) (w : PWrite) (c : Conc) (k : PageKind) (d : RegDef), ((w.page.toNat) = pgSHEAF c ∨
      (w.page.toNat) = pgGLEAN c) ∧ s.powered = true ∧ s.peal = some p ∧ s.stored pgJRNL Reg.JRNL.PEAL_STAT_STATE = 3 ∧ p.frame
      ≤ s.frame ∧ p.writes = [(i, w)] ∧ s.flag pgSTICK Reg.STICK.CTRL_MIRROR = false ∧ (s.conc c).run ≠ .reset ∧ pageKind
      (w.page.toNat) = some k ∧ regAt (w.page.toNat) (w.off.toNat) = some d ∧ 0x40 ≤ (w.off.toNat)) :=
  ⟨⟨sPeal, ({ aPeal with frame := 12 }), by decide +kernel⟩,
   ⟨s0, by decide +kernel⟩,
   ⟨sPealOff, ({ aPeal with frame := 12, writes := [(0, { aWrite with page := 0x1100 })] }), 0,
      ({ aWrite with page := 0x1100 }), [], by decide +kernel⟩,
   ⟨sPealDue, ({ aPeal with frame := 10 }), by decide +kernel⟩,
   ⟨sPealDue, ({ aPeal with frame := 10 }), 0, aWrite, .a, .sheaf, (reg 0x102 0x040), (.inl rfl), by decide +kernel⟩⟩

set_option maxRecDepth 20000 in
theorem wit_ImagesAreTransferred :
    (∃ (s : State) (h : UHdr) (cls : Bool) (header : List Byte), s.takesAuth h (.imgBegin cls (wordsBytes (bytesWords 40 header))
      : UCmd) = true ∧ s.running = true ∧ s.fwu.xfer = none ∧ s.fwu.cStg = none ∧ s.fwu.kStg = none ∧ s.fwu.trial = [] ∧ (crc32c
      ((wordsBytes (bytesWords 40 header)).take 156)).toNat = ({ header := (wordsBytes (bytesWords 40 header)), body := [] } :
      Image).num 156 159 ∧ ({ header := (wordsBytes (bytesWords 40 header)), body := [] } : Image).num 0 3 = 0x48455341 ∧
      ({ header := (wordsBytes (bytesWords 40 header)), body := [] } : Image).num 4 4 = cls.toNat ∧
      ({ header := (wordsBytes (bytesWords 40 header)), body := [] } : Image).num 6 7 = 0x4065 ∧
      (({ header := (wordsBytes (bytesWords 40 header)), body := [] } : Image).num 5 5).testBit 7 = false ∧
      ({ header := (wordsBytes (bytesWords 40 header)), body := [] } : Image).num 8 15 = 2 ^ 64 - 1 ∧
      ({ header := (wordsBytes (bytesWords 40 header)), body := [] } : Image).key = false ∧ 1 ≤
      ({ header := (wordsBytes (bytesWords 40 header)), body := [] } : Image).length ∧
      ({ header := (wordsBytes (bytesWords 40 header)), body := [] } : Image).length ≤ 4194144 ∧ (cls = false → s.stored pgFWU
      Reg.FWU.MIN_VER ≤ ({ header := (wordsBytes (bytesWords 40 header)), body := [] } : Image).version)) ∧
    (∃ (s : State) (h : UHdr) (off : BitVec 32) (words : List Word) (x : Transfer), s.takesAuth h (.imgData off.toNat words :
      UCmd) = true ∧ s.fwu.xfer = some x ∧ s.running = true ∧ off.toNat = x.image.body.length ∧ words ≠ [] ∧ off.toNat + 4 *
      (words.length - 1) < x.image.length ∧ x.image.length < 2 ^ 23) ∧
    (∃ (s : State) (h : UHdr) (cls : Bool) (x : Transfer), s.takesAuth h (.imgEnd cls) = true ∧ s.fwu.xfer = some x ∧ toBytes 64
      (sha512 x.image.body).toNat = x.image.digest ∧ (cls = true → x.image.sectionsPass = true ∧ Config.hasKey x.image.body =
      x.image.key) ∧ s.running = true ∧ x.isK = cls ∧ x.image.body.length = x.image.length) ∧
    (∃ (s : State) (h : UHdr) (cls : Bool) (x : Transfer), s.takesAuth h (.imgCancel cls) = true ∧ s.fwu.xfer = some x ∧
      s.running = true ∧ s.fwu.trial = [] ∧ x.isK = cls) ∧
    (∃ (s : State) (x : Transfer), s.fwu.xfer = some x ∧ s.powered = true) :=
  ⟨⟨s0, (signed s0 (.imgBegin false (wordsBytes (bytesWords 40 aHeader)))), false, aHeader,
      (takesAuth_signed _ _ (by decide +kernel)), by decide +kernel⟩,
   ⟨sXfer, (signed sXfer (.imgData 2 [0x03040000])), 2, [0x03040000],
      ({ isK := false, image := { anImage with body := [1, 2] }, last := 41000 }), (takesAuth_signed _ _ (by decide +kernel)),
      rfl, by decide +kernel⟩,
   ⟨sXferAll, (signed sXferAll (.imgEnd false)), false, ({ isK := false, image := anImage, last := 41000 }),
      (takesAuth_signed _ _ (by decide +kernel)), rfl, rfl, (fun x => nomatch x), by decide +kernel⟩,
   ⟨sXferAll, (signed sXferAll (.imgCancel false)), false, ({ isK := false, image := anImage, last := 41000 }),
      (takesAuth_signed _ _ (by decide +kernel)), rfl, by decide +kernel⟩,
   ⟨sXferAll, ({ isK := false, image := anImage, last := 41000 }), rfl, by decide +kernel⟩⟩

theorem wit_TrialsAndRestarts :
    (∃ (s : State) (h : UHdr) (cls : Bool) (version : BitVec 32) (i : Image), s.takesAuth h (.imgCommit cls version.toNat) = true
      ∧ s.running = true ∧ s.fwu.trial.contains cls = true ∧ s.fwu.failed = none ∧ s.flag pgFWU Reg.FWU.STAT_TRIAL_RUN = true ∧
      (if cls then s.fwu.kCur else s.fwu.cCur) = some i ∧ i.version = version.toNat) ∧
    (∃ (s : State), s.fwu.trial ≠ []) ∧
    (∃ s : State, s.pow.mode = .on ∧ s.fwu.trial = []) ∧
    (∃ (s : State) (h : UHdr) (k : Bool), s.takesAuth h (.imgReject k) = true ∧ s.running = true ∧ s.fwu.trial.contains k = true
      ∧ s.fwu.failed = none) ∧
    (∃ (s : State) (h : UHdr), s.takesAuth h .imgRestart = true ∧ s.running = true) :=
  ⟨⟨sTrial, (signed sTrial (.imgCommit false 1)), false, 1, ({ header := factoryHeader, body := [] }),
      (takesAuth_signed _ _ (by decide +kernel)), by decide +kernel⟩,
   ⟨sTrial, by decide +kernel⟩,
   ⟨s0, by decide +kernel⟩,
   ⟨sTrial, (signed sTrial (.imgReject false)), false, (takesAuth_signed _ _ (by decide +kernel)), by decide +kernel⟩,
   ⟨s0, (signed s0 .imgRestart), (takesAuth_signed _ _ (by decide +kernel)), by decide +kernel⟩⟩

theorem wit_MarkersLockAndLosePorts :
    (∃ (s : State) (u : Um) (m : Marker) (at_ l : Nat) (sub : BitVec 16), s.powered = true ∧ s.portLocked u = false ∧
      (s.time.lock u).last = some l ∧ 3 ≤ (s.time.lock u).good ∧ m.crcOk = true ∧ m.timeValid = true ∧ m.frame = 0 ∧
      m.time.toNat = (l + 16384) % 2 ^ 48 ∧ s.fld (pgUM u) Reg.UM.TREE_FIXED = 1 ∧ s.fld (pgUM u) Reg.UM.TREE_TREE_ID =
      m.treeId.toNat ∧ s.fld (pgUM u) Reg.UM.TREE_PART_ID = m.partId.toNat) ∧
    (∃ (s : State) (u : Um), s.powered = true ∧ s.portLocked u = true ∧ s.stored (pgTIMED u) Reg.TIMED.LOSS_CNT < 2 ^ 32 - 1) :=
  ⟨⟨sUnlocked, .um0, aMarker, 41100, 0, 0, by decide +kernel⟩,
   ⟨s0, .um0, by decide +kernel⟩⟩

theorem wit_FramesStartAndSwitchesEnd :
    (∃ s : State, s.powered = true ∧ s.running = false ∧ s.step470 = 10 ∧ s.stored pgTIME Reg.TIME.CTRL_ACQ_TIMEOUT ≠ 0) ∧
    (∃ s : State, s.powered = true ∧ s.portLocked s.active = true) ∧
    (∃ (s : State) (p : PendSwitch), s.powered = true ∧ s.time.pendSwitch = some p ∧ p.auto = false ∧ p.frame ≤ s.frame ∧
      s.portLocked (umOf p.target) = true ∧ s.stored pgTIME Reg.TIME.SW_CNT < 2 ^ 32 - 1) ∧
    (∃ (s : State) (u : Um), s.powered = true ∧ 0 < s.slewLeft u ∧ s.slewLeft u ≤ 4097) ∧
    (∃ s : State, s.powered = true ∧ s.time.splRun = true ∧ s.time.byTimeout = false ∧ s.spliceRuns ≤ 4097) :=
  ⟨⟨sNoFrames, by decide +kernel⟩,
   ⟨s0, by decide +kernel⟩,
   ⟨sSwitch, ({ target := true, frame := 10, auto := false }), by decide +kernel⟩,
   ⟨sSlew, .um0, by decide +kernel⟩,
   ⟨sSplice, by decide +kernel⟩⟩

theorem wit_LeadingEdgesAreRecordedOrCounted :
    ∃ (s : State) (chan : BitVec 16) (τ : Nat) (v : Int), s.powered = true ∧ s.frontEndOn (chan.toNat) = true ∧ s.isHigh
      (chan.toNat) = false ∧ (s.threshold (chan.toNat) : Int) < s.excursion (chan.toNat) v :=
  ⟨s0, 0, (41100 * 64), -1000000, by decide +kernel⟩

theorem wit_HitsAreMeasured :
    (∃ (s : State) (chan : BitVec 16) (τ : Nat) (v : Int) (took : Nat) (h : Hit), (h.holdDone = false ∨ h.code = none) ∧
      s.powered = true ∧ s.frontEndOn (chan.toNat) = true ∧ s.isHigh (chan.toNat) = true ∧ s.excursion (chan.toNat) v <
      s.release (chan.toNat) ∧ (s.chan (chan.toNat)).hits = [h] ∧ h.tot = none) ∧
    (∃ (s : State) (chan : BitVec 16) (τ took : Nat) (h : Hit), (h.holdDone = false ∨ h.code = none) ∧ s.powered = true ∧ (s.chan
      (chan.toNat)).hits = [h] ∧ h.tot = none ∧ h.lead + 4096 ≤ τ) ∧
    (∃ (s : State) (chan : BitVec 16) (code : Byte) (took : Nat) (h : Hit), (h.holdDone = false ∨ h.tot = none) ∧ s.below (pgTDC
      (chTile (chan.toNat))) [Reg.TDC.CLAMP_CNT] 2 ∧ s.powered = true ∧ (s.chan (chan.toNat)).hits = [h] ∧ h.code = none ∧
      s.convertsNext (chan.toNat) = true) ∧
    (∃ (s : State) (chan : BitVec 16) (τ took : Nat) (h : Hit), (h.tot = none ∨ h.code = none) ∧ s.powered = true ∧ (s.chan
      (chan.toNat)).hits = [h] ∧ h.lead + h.hold ≤ τ) :=
  ⟨⟨highHit, 0, (41100 * 64), 1000000, 3, aHit, (.inl (by decide +kernel)), by decide +kernel⟩,
   ⟨highHit, 0, (41000 * 64 + 4096), 3, aHit, (.inl (by decide +kernel)), by decide +kernel⟩,
   ⟨sRanHit, 0, 123, 3, ({ aHit with tot := some 50 }), (.inl (by decide +kernel)), (below_of (by decide +kernel)),
      by decide +kernel⟩,
   ⟨highHit, 0, (41000 * 64 + 100), 3, aHit, (.inl (by decide +kernel)), by decide +kernel⟩⟩

theorem wit_HitsPassToReadOut :
    (∃ (s : State) (chan : BitVec 16) (τ took : Nat) (h : Hit) (tot code : Nat), s.powered = true ∧ (s.chan (chan.toNat)).hits =
      [h] ∧ h.lead + h.hold ≤ τ ∧ h.tot = some tot ∧ h.code = some code) ∧
    (∃ (s : State) (chan : BitVec 16) (τ lead : Nat) (r : BitVec 52) (q : List (BitVec 52 × Nat)), (∀ c : Conc, (s.port (chTile
      chan.toNat) c).cut = false ∧ (s.port (chTile chan.toNat) c).since ≤ frameOfTap lead ∧ s.stored (pgPORTS (chTile
      chan.toNat)) ((portReg Reg.PORTS.PSTAT_FILL c)) < (if recType r = 3 then min 65536 (s.fld (pgPORTS (chTile chan.toNat))
      Reg.PORTS.PORT_CTRL_SHADOW_HWM) else 65536)) ∧ s.powered = true ∧ (s.tile (chTile chan.toNat)).cands = [] ∧ (s.tile
      (chTile chan.toNat)).waiting (cellInTile chan.toNat) = (r, lead) :: q) :=
  ⟨⟨sWhole, 0, (41000 * 64 + 100), 3, ({ aHit with tot := some 50, code := some 123 }), 50, 123, by decide +kernel⟩,
   ⟨sQueued, 0, (41200 * 64), (41000 * 64), aRecord, [], (fun c => by cases c <;> decide +kernel), by decide +kernel⟩⟩

theorem wit_CandidatesAreDecided :
    ∃ (s : State) (chan : BitVec 16) (τ took : Nat) (p : Passed), (s.collect chan.toNat took).hasRoom (chTile chan.toNat) (if
      (p.promote && (s.tile (chTile chan.toNat)).streams.any (fun x => x.1 != p.chan && x.1 / 16 == p.chan / 16 && decide ((x.2
      - p.lead) + (p.lead - x.2) ≤ p.window))) then recSetType p.word 1 ||| 2 else p.word) p.lead ∧ s.powered = true ∧ (s.tile
      (chTile chan.toNat)).cands = [p] ∧ p.chan = chan.toNat ∧ p.lead + p.window + 64 * 160 ≤ τ ∧ s.stored (pgTILE (chTile
      chan.toNat)) (if (p.promote && (s.tile (chTile chan.toNat)).streams.any (fun x => x.1 != p.chan && x.1 / 16 == p.chan / 16
      && decide ((x.2 - p.lead) + (p.lead - x.2) ≤ p.window))) then Reg.TILE.PROMOTE_CNT else Reg.TILE.SHADOW_CNT) < 2 ^ 32 - 1 :=
  ⟨sCand, 0, (41200 * 64), 3, aCand, (⟨by decide +kernel, fun c => by cases c <;> decide +kernel⟩), by decide +kernel⟩

theorem wit_GatesOpenAndChannelsRearm :
    (∃ (s : State) (tl : Fin 16) (e : GateEdge) (r : List GateEdge), s.powered = true ∧ (s.tile tl).gateNext = e :: r) ∧
    (∃ (s : State) (chan : BitVec 16) (τ u : Nat), s.powered = true ∧ (s.chan (chan.toNat)).stuckFrom = some u ∧ s.isHigh
      (chan.toNat) = true ∧ s.frontEndOn (chan.toNat) = true ∧ u + s.fld (chPage (chan.toNat)) Reg.BLOCK.STUCK_LIM_LIMIT_US *
      640 * 64 ≤ τ) ∧
    (∃ (s : State) (chan : BitVec 16) (τ : Nat), s.powered = true ∧ s.isBlanked (chan.toNat) = true ∧ (s.chan
      (chan.toNat)).blankEnd ≤ τ) :=
  ⟨⟨sGate, 0, ({ src := 3, tap := 41000 * 64, isOpen := false }), [], by decide +kernel⟩,
   ⟨sStuck, 0, (10000 * 640 * 64), 0, by decide +kernel⟩,
   ⟨sBlank, 0, (41100 * 64), by decide +kernel⟩⟩

theorem wit_InjectionsAreLaunched :
    (∃ (s : State) (tl b : Fin 16) (f c : Nat), s.powered = true ∧ mapFind (pgBLOCK tl b) s.cal.fires = some f ∧ f ≤ s.frame) ∧
    (∃ (s : State) (chan : BitVec 16) (τ : Nat) (i : Inject), s.powered = true ∧ (s.chan (chan.toNat)).inj = some i ∧ i.hit =
      false ∧ i.launch + 32 * 64 ≤ τ ∧ s.cal.launches = [{ chan := (chan.toNat), launch := i.launch, hit := none }] ∧ s.stored
      pgCALS Reg.CALS.MISS_CNT < 2 ^ 32 - 1) :=
  ⟨⟨sFire, 0, 0, 10, 0, by decide +kernel⟩,
   ⟨sInject, 0, (41032 * 64), anInject, by decide +kernel⟩⟩

theorem wit_TillersChangePower :
    (∃ (s : State) (page : BitVec 16), s.powered = true ∧ s.pwr page.toNat = 3 ∧ s.pageIdle page.toNat = true) ∧
    (∃ (s : State) (tl : Fin 16) (ok : Bool), s.pow.mode = .on ∧ s.pow.groups = 4 ∧ 7 ≤ s.step470 ∧ (s.tile tl).power = .off ∧ 1
      ≤ s.effCeil (pgTILE tl) ∧ s.ceil (pgTILE tl) = s.stored (pgTILE tl) Reg.HDR.PWR_STATE_CEIL ∧ (s.stored pgPWR
      Reg.PWR.CONV_FAULT_TILE).testBit tl.val = false ∧ s.pow.hot.contains (.tile tl) = false ∧ (∀ w ∈ kWords s.kBody, w.1 <
      pgTILE tl ∨ pgTILE tl + 0x100 ≤ w.1)) ∧
    (∃ (s : State) (tl : Fin 16), (∀ c, (s.port tl c).cut = true ∨ (s.port tl c).items = []) ∧ s.powered = true ∧ (s.tile
      tl).power = .leaving ∧ (s.tile tl).leaveAt = none) :=
  ⟨⟨s0, 0x1000, by decide +kernel⟩,
   ⟨s0, 1, true, by decide +kernel⟩,
   ⟨sLeaving, 0, (fun c => by cases c <;> exact .inr (by decide +kernel)), by decide +kernel⟩⟩

theorem wit_LinesLockAndTilesResume :
    (∃ (s : State) (tl : Fin 16) (r : LineReport), s.powered = true ∧ s.flag (pgTDC tl) Reg.TDC.DLL_CTRL_ENABLE = true ∧ 2 ≤
      s.pwr (pgTILE tl)) ∧
    (∃ (s : State) (tl : Fin 16), s.powered = true ∧ 2 ≤ s.pwr (pgTILE tl) ∧ s.flag (pgTDC tl) Reg.TDC.LOCK_STATUS_LOCKED = true
      ∧ (s.tile tl).absent = true) ∧
    (∃ (s : State) (tl : Fin 16) (r : LineReport), s.powered = true ∧ s.flag (pgTDC tl) Reg.TDC.DLL_CTRL_ENABLE = true ∧ 2 ≤
      s.pwr (pgTILE tl) ∧ s.flag (pgTDC tl) Reg.TDC.LOCK_STATUS_LOCKED = true ∧ s.fld (pgTDC tl) Reg.TDC.DLL_CTRL_LOCK_WIN <
      r.least ∧ (s.tile tl).cands = [] ∧ s.stored (pgTDC tl) Reg.TDC.FAULT_CNT_UNLOCK_CNT < 65535) :=
  ⟨⟨s0, 0, aReport, by decide +kernel⟩,
   ⟨sAway, 0, by decide +kernel⟩,
   ⟨sLine, 0, ({ aReport with bound := 100, least := 100 }), by decide +kernel⟩⟩

theorem wit_PortsCloseFramesAndAreCut :
    (∃ (s : State) (tl : Fin 16) (c : Conc), ((s.tile tl).absent = false ∨ (s.tile tl).leaveAt.isSome = true) ∧ s.powered = true
      ∧ ((s.tile tl).nextClose) < s.frame ∧ s.frameDecided tl ((s.tile tl).nextClose) = true) ∧
    (∃ (s : State) (tl : Fin 16) (c : Conc) (i : PortItem) (r : List PortItem), s.powered = true ∧ s.now = s.frame * frameTref ∧
      (s.port tl c).cut = false ∧ (s.port tl c).acked = false ∧ (s.port tl c).items = i :: r ∧ s.fld (pgPORTS tl)
      Reg.PORTS.PORT_CTRL_LAG_LIM ≤ (s.port tl c).lag ∧ s.stored (pgPORTS tl) ((portReg Reg.PORTS.CUT_CNT c)) < 2 ^ 32 - 1 ∧
      s.stored (pgPORTS tl) ((portReg Reg.PORTS.CUT_DISCARD_CNT c)) + ((r.filter (·.isHit)).length) < 2 ^ 32) ∧
    (∃ (s : State) (tl : Fin 16) (c : Conc) (w : BitVec 52), s.powered = true ∧ (s.port tl c).late = some w) :=
  ⟨⟨sClosing, 0, .a, (.inl (by decide +kernel)), by decide +kernel⟩,
   ⟨sLag, 0, .a, (.hit aRecord 10), ([.hit aRecord 10]), by decide +kernel⟩,
   ⟨sLate, 0, .a, aRecord, by decide +kernel⟩⟩

theorem wit_RecordsAreCorrected :
    (∃ (s : State) (c : Conc) (tl : Fin 16) (r : BitVec 52) (f : Nat) (rest : List PortItem) (queued : Bool), (recType r = 1 ∨
      recType r = 2) ∧ s.below (pgCORR c) [Reg.CORR.UNCORR_CNT, Reg.CORR.CLAMP_CNT] 2 ∧ s.below (pgMERGE c) [Reg.MERGE.LATE_CNT]
      1 ∧ s.mergeOn c = true ∧ (s.port tl c).items = .hit r f :: rest) ∧
    (∃ (s : State) (c : Conc) (tl : Fin 16) (r : BitVec 52) (f : Nat) (rest : List PortItem) (queued : Bool), s.mergeOn c = true
      ∧ (s.port tl c).items = .hit r f :: rest ∧ recType r = 3 ∧ s.wbufFull c true = false ∧ (s.conc c).nextForm ≤ f) :=
  ⟨⟨sRecord, .a, 0, aRecord, 10, [], false, (.inl (by decide +kernel)), (below_of (by decide +kernel)),
      (below_of (by decide +kernel)), by decide +kernel⟩,
   ⟨sShadow, .a, 0, aShadow, 10, [], false, by decide +kernel⟩⟩

theorem wit_TokensCloseFramesAndResumeTiles :
    (∃ (s : State) (c : Conc) (tl : Fin 16) (ws : List (BitVec 52)) (n : Nat) (rest : List PortItem) (k : Nat), s.mergeOn c =
      true ∧ (s.port tl c).items = .closed ws n :: rest ∧ ws.length ≤ k) ∧
    (∃ (s : State) (c : Conc) (tl : Fin 16) (ws : List (BitVec 52)) (n : Nat) (rest : List PortItem) (k : Nat) (row : Instr),
      (((s.port tl c).items = .closed ws n :: rest ∧ row = .frameClosedToken ⟨c, k⟩ tl) ∨ ((s.port tl c).items = .resume ws n ::
      rest ∧ row = .resumeToken ⟨c, k⟩ tl)) ∧ s.mergeOn c = true ∧ k < ws.length ∧ (s.port tl c).words < k) ∧
    (∃ (s : State) (c : Conc) (tl : Fin 16) (ws : List (BitVec 52)) (f : Nat) (rest : List PortItem) (k : Nat), s.below (pgMERGE
      c) [Reg.MERGE.RESUME_CNT, Reg.MERGE.LATE_CNT]
      ({ frame := f, reason := bitsOf 45 42 ((ws.getD 1 0).toNat), missed := bitsOf 39 0 ((ws.getD 1 0).toNat), discarded := bitsOf 31 0 (ws.getD 2 0).toNat }
      : Resumed).discarded ∧ s.below (pgMERGE c) [Reg.MERGE.RESUME_CNT] 1 ∧ s.mergeOn c = true ∧ (s.port tl c).items = .resume
      ws f :: rest ∧ ws.length ≤ k) ∧
    (∃ (s : State) (c : Conc) (tl : Fin 16), s.mergeOn c = true ∧ s.waitsFor c tl ((s.conc c).nextForm) = true ∧ ((s.conc
      c).nextForm) + s.fld (pgMERGE c) Reg.MERGE.HORIZON_FRAMES < s.frame ∧ s.stored (pgMERGE c) Reg.MERGE.HORIZON_CNT < 2 ^ 32
      - 1) :=
  ⟨⟨sToken, .a, 0, aToken, 10, [], 5, by decide +kernel⟩,
   ⟨sToken, .a, 0, aToken, 10, [], 1, (.frameClosedToken ⟨.a, 1⟩ 0), (.inl ⟨by decide +kernel, rfl⟩), by decide +kernel⟩,
   ⟨sResume, .a, 0, aResume, 10, [], 3, (below_of (by decide +kernel)), (below_of (by decide +kernel)), by decide +kernel⟩,
   ⟨sBehind, .a, 0, by decide +kernel⟩⟩

theorem wit_SheavesAreFormed :
    (∃ (s : State) (c : Conc) (i : FrameInfo), s.mergeOn c = true ∧ mapFind ((s.conc c).nextForm) s.frames = some i ∧ i.delivered
      = true ∧ ((s.conc c).nextForm) < s.frame ∧ (∀ tl, s.waitsFor c tl ((s.conc c).nextForm) = false) ∧ s.wbufFull c false =
      false ∧ s.pair c = 0 ∧ (s.conc c).own = [] ∧ s.cal.swap = none ∧ (∀ tl, s.lateOf c ((s.conc c).nextForm) tl = 0) ∧
      s.outMode c = 0 ∧ s.wouldOverwrite c ((s.conc c).nextForm) (unitsOf ((s.formBytes c ((s.conc c).nextForm) i ((s.conc
      c).late + ((s.resumesOf c ((s.conc c).nextForm)).map (fun x => x.2.discarded)).sum) false).1).length) = false ∧ (s.conc
      c).queuedBytes + ((s.formBytes c ((s.conc c).nextForm) i ((s.conc c).late + ((s.resumesOf c ((s.conc c).nextForm)).map
      (fun x => x.2.discarded)).sum) false).1).length ≤ s.fld (pgSHEAF c) Reg.SHEAF.SPILL_CTRL_ENTER_KB * 1024 ∧ (s.conc
      c).sendNext ≤ ((s.conc c).nextForm) ∧ s.stored (pgSHEAF c) Reg.SHEAF.SHEAF_CNT < 2 ^ 32 - 1) ∧
    (∃ (s : State) (c : Conc) (tl : Fin 16) (e : Extent), s.mergeOn c = true ∧ (s.rx c tl).ext = some e ∧ e.recs ≠ [] ∧ e.arrived
      + 64 ≤ s.frame) :=
  ⟨⟨sForm, .a, aFrame, by decide +kernel⟩,
   ⟨sExtent, .a, 0, anExtent, by decide +kernel⟩⟩

theorem wit_GovernorStepsAndGrainsAreDealt :
    (∃ (s : State) (c : Conc) (fill : Nat), s.mergeOn c = true ∧ s.flag (pgMERGE c) Reg.MERGE.GOV_CTRL_ENABLE = true) ∧
    (∃ (s : State) (c : Conc) (fill : Nat), s.mergeOn c = true ∧ s.flag (pgMERGE c) Reg.MERGE.GOV_CTRL_ENABLE = true) ∧
    (∃ (s : State) (k : Conc) (fill : Nat), s.mergeOn k = true ∧ s.flag (pgMERGE k) Reg.MERGE.GOV_CTRL_ENABLE = false) ∧
    (∃ (s : State) (c : Conc) (d : Dealing) (l unit : Nat), ((s.conc c).stream = some d ∨ ((s.conc c).stream = none ∧ ∃ n b r,
      (s.conc c).queue = (n, b) :: r ∧ d = { frame := n, bytes := b, grain := 0 })) ∧ s.mergeOn c = true ∧ s.nextClass c = some
      .stream ∧ s.outMode c = 0 ∧ s.actMask c ≠ 0 ∧ d.reread = false ∧ nextLane (if d.grain = 0 then s.actMask c else (s.conc
      c).dealMask) (s.conc c).lastLane = some l) ∧
    (∃ (s : State) (c : Conc) (d : Dealing) (ends : Option Nat) (l unit : Nat), s.mergeOn c = true ∧ s.nextClass c = some .glean
      ∧ s.actMask c ≠ 0 ∧ (s.conc c).gleanCur = some (d, ends) ∧ nextLane (s.conc c).dealMask (s.conc c).lastLane = some l) ∧
    (∃ (s : State) (c : Conc) (d : Dealing) (l unit : Nat), s.mergeOn c = true ∧ s.nextClass c = some .resend ∧ s.actMask c ≠ 0 ∧
      (s.conc c).resendCur = some d ∧ nextLane (s.conc c).dealMask (s.conc c).lastLane = some l) :=
  ⟨⟨sGov, .a, 1000, by decide +kernel⟩,
   ⟨sGov, .a, 0, by decide +kernel⟩,
   ⟨sNoGov, .a, 0, by decide +kernel⟩,
   ⟨sDeal, .a, aDealing, 0, 0, (.inl (by decide +kernel)), by decide +kernel⟩,
   ⟨sDealGlean, .a, aDealing, none, 0, 0, by decide +kernel⟩,
   ⟨sDealResend, .a, aDealing, 0, 0, by decide +kernel⟩⟩

theorem wit_GleansAndResendsAreServed :
    (∃ (s : State) (c : Conc) (g : Glean) (at_ : Nat), (g.refused = true ∨ s.servesNow c true .glean = true) ∧ s.mergeOn c = true
      ∧ (s.conc c).nextGlean = some g ∧ s.dramBusy c = false ∧ s.stored (pgGLEAN c) Reg.GLEAN.GLEAN_CNT < 2 ^ 32 - 1) ∧
    (∃ (s : State) (c : Conc) (q : Resend) (r : List Resend) (at_ : Nat), s.mergeOn c = true ∧ (s.conc c).resends = q :: r ∧
      (s.conc c).resendCur = none ∧ s.dramBusy c = false ∧ ((s.heldSheaf c q.next).isSome = true → s.servesNow c false .resend =
      true) ∧ s.stored (pgGLEAN c) Reg.GLEAN.RESEND_SKIP_CNT < 2 ^ 32 - 1) :=
  ⟨⟨sGlean, .a, aGlean, 0, (.inr (by decide +kernel)), by decide +kernel⟩,
   ⟨sResend, .a, ({ next := 5, left := 2, started := false }), [], 0, by decide +kernel⟩⟩

theorem wit_PinsTriggerAndGate :
    (∃ (s : State) (p : Pin) (rising : Bool) (stamp : Nat), s.powered = true ∧ s.trigEnabled p = true ∧ rising ≠ s.trigFalling p
      ∧ s.stored pgTRIG Reg.TRIG.CLOSE_CNT < 2 ^ 32 - 1) ∧
    (∃ (s : State) (p : Pin) (high : Bool) (stamp : Nat), s.powered = true ∧ high ≠ (s.trig.gate p).raw ∧ s.stored pgTRIG
      Reg.TRIG.GLITCH_CNT < 2 ^ 32 - 1) ∧
    (∃ (s : State) (p : Pin) (at_ st : Nat), s.powered = true ∧ (s.trig.gate p).since = some st ∧ st + s.fld pgTRIG
      Reg.TRIG.GATE_CTRL_MIN_T * 4096 ≤ at_ * 4096) :=
  ⟨⟨sPins, .a, true, (41000 * 4096), by decide +kernel⟩,
   ⟨s0, .a, false, (41000 * 4096), by decide +kernel⟩,
   ⟨sGatePin, .a, 42000, (41000 * 4096), by decide +kernel⟩⟩

theorem wit_TriggersAreDelivered :
    ∃ (s : State) (i : FrameInfo), s.powered = true ∧ mapFind (s.trig.nextFrame) s.frames = some i ∧ (s.trig.nextFrame) <
      s.frame :=
  ⟨sDeliver, ({ aFrame with delivered := false }), by decide +kernel⟩

theorem wit_TurnsAccumulateAndEnd :
    (∃ (s : State) (c : Conc) (tl : Fin 16) (i : BitVec 32) (r : List (BitVec 32)), ((bitsOf 31 30 (i.toNat)) = 1 ∨ (bitsOf 31 30
      (i.toNat)) = 3) ∧ s.mergeOn c = true ∧ (s.port tl c).side = i :: r ∧ s.cal.turnOn = true ∧ s.turnTile = tl ∧ s.flag pgCALS
      Reg.CALS.CTRL_CD_EN = true ∧ ((bitsOf 31 30 (i.toNat)) = 1 → s.flag pgCALS Reg.CALS.CTRL_CD_STREAM = true) ∧ ((bitsOf 31
      30 (i.toNat)) = 3 → s.flag pgCALS Reg.CALS.CTRL_CD_SHADOW = true) ∧ (i.toNat).testBit 29 = (s.rx c tl).parity ∧ s.isMasked
      (tl.val * 4096 + bitsOf 25 14 (i.toNat)) = false ∧ s.isSelfMasked (tl.val * 4096 + bitsOf 25 14 (i.toNat)) = false ∧
      mapGetD 0 ((tl.val * 4096 + bitsOf 25 14 (i.toNat)) * 256 + bitsOf 7 0 (i.toNat)) (s.conc c).hist < 65535 ∧ mapGetD 0
      (tl.val * 64 + bitsOf 13 8 (i.toNat)) (s.conc c).tapHist < 2 ^ 32 - 1) ∧
    (∃ (s : State) (c : Conc) (tl : Fin 16) (i : BitVec 32) (r : List (BitVec 32)) (k : Capture), s.mergeOn c = true ∧ (s.port tl
      c).side = i :: r ∧ bitsOf 31 30 (i.toNat) = 2 ∧ (s.conc c).captured = [k] ∧ k.chan = (tl.val * 4096 + bitsOf 25 14
      (i.toNat)) ∧ c = s.histConc ∧ Nat.land k.flags 13 = 0 ∧ (i.toNat).testBit 29 = (s.rx c tl).parity) ∧
    (∃ s : State, (s.cal.turnFrom + s.fld pgCALS Reg.CALS.CD_TIMEOUT_SEC * 1000 * 640000 ≤ s.now ∨ (∀ c ∈ chansOf s.turnTile,
      s.isMasked c = true ∨ s.isSelfMasked c = true ∨ s.fld pgCALS Reg.CALS.CD_HITS_HITS ≤ ((s.conc s.histConc).codes c).sum)) ∧
      s.powered = true ∧ s.cal.turnOn = true) :=
  ⟨⟨sTurn, .a, 0, (sideItem 1 false 0xC37 23 123), [], (.inl (by decide +kernel)), by decide +kernel⟩,
   ⟨sPairs, .a, 0, (sideItem 2 false 0xC37 23 123), [], aCapture, by decide +kernel⟩,
   ⟨sTurnEnds, (.inl (by decide +kernel)), by decide +kernel⟩⟩

theorem wit_ResultsAreStagedAndSwapsRequested :
    (∃ (s : State) (r : CalResult) (rest : List CalResult), s.powered = true ∧ s.cal.warm = [] ∧ s.cal.staged = none ∧
      s.cal.results = r :: rest ∧ s.cal.swap = none) ∧
    (∃ (s : State) (c : Conc) (chan : BitVec 16), s.powered = true ∧ (s.conc c).entryPoisoned chan.toNat = true ∧ s.peal = none ∧
      s.cal.swap = none) :=
  ⟨⟨sResults, aResult, [], by decide +kernel⟩,
   ⟨sPoisoned, .a, 7, by decide +kernel⟩⟩

theorem wit_SwapsCommitAndTakeEffect :
    (∃ (s : State) (w : PendingSwap), s.powered = true ∧ s.cal.swap = some w ∧ w.committed = false ∧ w.restoring = false ∧
      w.quiet = false ∧ s.frame + 2 = w.frame ∧ s.stored pgCALS Reg.CALS.ABORT_CNT < 2 ^ 32 - 1) ∧
    (∃ (s : State) (w : PendingSwap), s.powered = true ∧ s.cal.swap = some w ∧ w.committed = true ∧ w.quiet = false ∧ w.frame ≤
      s.frame ∧ s.pwr (pgTILE w.tile) ≠ 0 ∧ s.stored pgCALS Reg.CALS.SWAP_CNT < 2 ^ 32 - 1) :=
  ⟨⟨sSwap, aSwap, by decide +kernel⟩,
   ⟨sCommitted, ({ aSwap with committed := true, frame := 10 }), by decide +kernel⟩⟩

theorem wit_CommandWordsRoundTrip :
    ∃ (c : Instr) (s : State) (h : UHdr) (u : UCmd) (e : BlockEnv), c.wellFormed = true ∧ s.commandOf c = some (h, u, e) :=
  ⟨(.lock (hd 1) 2), s0, (hd 1), (.lock 2), {}, by decide +kernel⟩

set_option maxRecDepth 100000 in
theorem lockFrame_decodes : framePayload (scrambled lockFrame).1 (scrambled lockFrame).2 = some (lockFrame, 0) := by decide +kernel

set_option maxRecDepth 100000 in
theorem grantFrame_decodes : framePayload (scrambled grantFrame).1 (scrambled grantFrame).2 = some (grantFrame, 0) := by decide +kernel

set_option maxRecDepth 100000 in
theorem foreignFrame_decodes : framePayload (scrambled foreignFrame).1 (scrambled foreignFrame).2 = some (foreignFrame, 0) := by decide +kernel

set_option maxRecDepth 100000 in
theorem zeros_do_not_decode : framePayload (List.replicate 254 0) (List.replicate 254 0) = none := by decide +kernel

theorem wit_LinksCarryCommandsAndAnswers :
    (∃ (c : Instr) (s : State) (u : Um) (word0 word1 payload : List Byte) (corrected n : Nat) (h : UHdr) (x : UCmd) (e :
      BlockEnv), framePayload word0 word1 = some (payload, corrected) ∧ s.pow.mode = .on ∧ s.portLocked u = true ∧ s.fld (pgUM
      u) Reg.UM.TREE_FIXED = 1 ∧ s.ownMarker u (payloadMarker payload) = true ∧ (∀ i, i < 6 → (crc16 ((payload.drop (16 + 8 *
      i)).take 6)).toNat = ofBytes ((payload.drop (16 + 8 * i)).take 8) % 65536 ∧ bitsOf 43 41 (ofBytes ((payload.drop (16 + 8 *
      i)).take 8)) = 0) ∧ c.wellFormed = true ∧ (s.bump (pgUM u) Reg.UM.FEC_CE_CNT 0 corrected).commandOf c = some (h, x, e) ∧
      h.port = u ∧ e.stops = none ∧ payload.drop 64 = (headerBytes h x.code ++ wordsBytes (x.words ++
      (match h.auth with | some a => [a.seq, a.tag.extractLsb' 32 32, a.tag.extractLsb' 0 32] | none => [] : List Word))) ++
      toBytes 2 (crc16 (headerBytes h x.code ++ wordsBytes (x.words ++
      (match h.auth with | some a => [a.seq, a.tag.extractLsb' 32 32, a.tag.extractLsb' 0 32] | none => [] : List Word)))).toNat
      ++ [0, 0] ++ List.replicate n 0) ∧
    (∃ (s : State) (u : Um) (word0 word1 payload : List Byte) (corrected at_ : Nat) (reads : List Reads), framePayload word0
      word1 = some (payload, corrected) ∧ s.below (pgUM u) [Reg.UM.GRANT_BAD_CNT] 1 ∧ s.pow.mode = .on ∧ s.portLocked u = true ∧
      s.fld (pgUM u) Reg.UM.TREE_FIXED = 1 ∧ s.ownMarker u (payloadMarker payload) = true ∧ (∀ i, i < 6 → (crc16 ((payload.drop
      (16 + 8 * i)).take 6)).toNat = (ofBytes ((payload.drop (16 + 8 * i)).take 8)) % 65536) ∧ (∀ i, i < 6 → 1 ≤ i → bitsOf 43
      41 ((ofBytes ((payload.drop (16 + 8 * i)).take 8))) = 0) ∧ bitsOf 47 40 (ofBytes ((payload.drop 64).take 8)) = 0 ∧ s.flag
      (pgUM u) Reg.UM.ADDR_REG = true ∧ s.stored (pgUM u) Reg.UM.ADDR_ADDR = bitsOf 63 52 ((ofBytes ((payload.drop (16 + 8 *
      0)).take 8))) ∧ bitsOf 51 50 ((ofBytes ((payload.drop (16 + 8 * 0)).take 8))) = 1 ∧ 1 ≤ (bitsOf 43 41 ((ofBytes
      ((payload.drop (16 + 8 * 0)).take 8)))) ∧ s.stored (pgUM u) Reg.UM.FEC_CE_CNT + corrected < 2 ^ 32) ∧
    (∃ (s : State) (u : Um) (word0 word1 : List Byte) (at_ : Nat) (reads : List Reads), framePayload word0 word1 = none ∧
      s.pow.mode = .on ∧ s.stored (pgUM u) Reg.UM.FEC_UE_CNT < 2 ^ 32 - 1) ∧
    (∃ (s : State) (u : Um) (word0 word1 payload : List Byte) (corrected at_ : Nat) (reads : List Reads), framePayload word0
      word1 = some (payload, corrected) ∧ s.pow.mode = .on ∧ s.fld (pgUM u) Reg.UM.TREE_FIXED = 1 ∧ (payloadMarker
      payload).crcOk = true ∧ s.ownMarker u (payloadMarker payload) = false ∧ s.stored (pgUM u) Reg.UM.FOREIGN_CNT < 2 ^ 32 - 1) ∧
    (∃ (s : State) (u : Um) (start n : Nat) (r : List (Bool × Nat × Nat)), s.powered = true ∧ (s.um u).granted = (false, start,
      n) :: r ∧ s.flag (pgUM u) Reg.UM.ADDR_REG = true ∧ s.maySend = true ∧ s.pow.restartOn = none) ∧
    (∃ (s : State) (u : Um) (start n : Nat) (r : List (Bool × Nat × Nat)), s.powered = true ∧ (s.um u).granted = (true, start, n)
      :: r ∧ s.flag (pgUM u) Reg.UM.ADDR_REG = false ∧ s.maySend = true) ∧
    (∃ (s : State) (u : Um) (x : Nat), s.powered = true ∧ (s.um u).answered = some x ∧ s.flag (pgUM u) Reg.UM.ADDR_REG = false ∧
      s.stored (pgUM u) Reg.UM.DISC_TRY_CNT < 2 ^ 32 - 1) ∧
    (∃ (s : State) (u : Um) (x : Nat), s.powered = true ∧ s.portLocked u = false ∧ (s.um u).lostFrom = some x ∧ s.flag (pgUM u)
      Reg.UM.ADDR_REG = true) :=
  ⟨⟨(.lock (hd 1) 2), s0, .um0, ((scrambled lockFrame).1), ((scrambled lockFrame).2), lockFrame, 0, 396, (hd 1), (.lock 2), {},
      lockFrame_decodes, by decide +kernel⟩,
   ⟨s0, .um0, ((scrambled grantFrame).1), ((scrambled grantFrame).2), grantFrame, 0, 41100, [], grantFrame_decodes,
      (below_of (by decide +kernel)), by decide +kernel⟩,
   ⟨s0, .um0, (List.replicate 254 0), (List.replicate 254 0), 41100, [], zeros_do_not_decode, by decide +kernel⟩,
   ⟨s0, .um0, ((scrambled foreignFrame).1), ((scrambled foreignFrame).2), foreignFrame, 0, 41100, [], foreignFrame_decodes,
      by decide +kernel⟩,
   ⟨sGranted, .um0, 2, 1, [], by decide +kernel⟩,
   ⟨sDiscovery, .um1, 2, 1, [], by decide +kernel⟩,
   ⟨sDiscovery, .um1, 41000, by decide +kernel⟩,
   ⟨sLostPort, .um0, 1, by decide +kernel⟩⟩

theorem wit_FramesAdvance :
    (∃ (s : State) (slips : List (Fin 16 × BitVec 48)) (env : BoundaryEnv), s.powered = true ∧ s.running = true) ∧
    (∃ (s : State) (slips : List (Fin 16 × BitVec 48)) (env : BoundaryEnv), s.running = false) :=
  ⟨⟨s0, ([(3, 5)]), ({ drift := -7 }), by decide +kernel⟩,
   ⟨State.reset, [], ({ drift := 0 }), by decide +kernel⟩⟩

theorem wit_ThePairComparesAndRejoins :
    (∃ (s : State) (c : Conc) (m o : CrossMsg) (r : List CrossMsg) (a b : BitVec 64), s.below (pgSTEP c) [Reg.STEP.DIV_CNT,
      Reg.STEP.DIV_EP_CNT] 1 ∧ s.powered = true ∧ (s.conc c).merging = true ∧ s.cal.swap = none ∧ (s.conc c).inbox = m :: r ∧
      (s.conc c).own = [o] ∧ (s.conc c).partner = [] ∧ m.frame = o.frame ∧ m.run ≠ .frozen ∧ m.run ≠ .reset ∧ o.digest = some a
      ∧ m.digest = some b) ∧
    (∃ (s : State) (c : Conc) (m : CrossMsg) (r : List CrossMsg), (m.run = .frozen ∨ m.run = .reset) ∧ s.below (pgSTEP c)
      [Reg.STEP.PARTNER_LOST_CNT] 1 ∧ s.powered = true ∧ (s.conc c).run ≠ .reset ∧ s.cal.swap = none ∧ (s.conc c).inbox = m :: r
      ∧ s.pair c ≠ 0) ∧
    (∃ (s : State) (c : Conc) (start : ConcStart) (board : BitVec 6), s.powered = true ∧ (s.conc c).run = .reset ∧ s.heldOff c =
      false ∧ s.integ.failed.contains c = false ∧ 1 ≤ s.effCeil (pgMERGE c) ∧ s.cal.swap = none ∧ start.mram = [] ∧
      start.classKOk = true) ∧
    (∃ (s : State) (c : Conc) (start : ConcStart) (board : BitVec 6), (s.conc c).run = .reset ∧ s.integ.failed.contains c = true) ∧
    (∃ (s : State) (c : Conc) (start : ConcStart) (board : BitVec 6), s.powered = true ∧ (s.conc c).run = .loading ∧ (s.conc
      c).loaded = false ∧ s.cal.swap = none) ∧
    (∃ (s : State) (c : Conc), (c = .b → s.concA.waitsJoin = false) ∧ (∀ w, s.cal.swap = some w → w.committed = true) ∧ s.powered
      = true ∧ s.running = true ∧ (s.conc c).waitsJoin = true) :=
  ⟨⟨sCompare, .a, aMsg, ({ aMsg with digest := some 6 }), [], 6, 5, (below_of (by decide +kernel)), by decide +kernel⟩,
   ⟨sLost, .a, ({ aMsg with run := .frozen }), [], (.inl (by decide +kernel)), (below_of (by decide +kernel)),
      by decide +kernel⟩,
   ⟨sReset, .a, ({ pass := 0xFFFF7F }), 0, by decide +kernel⟩,
   ⟨sFailed, .a, ({ pass := 0xFFFF7F }), 0, by decide +kernel⟩,
   ⟨sLoading, .a, ({ pass := 0xFFFF7F }), 0, by decide +kernel⟩,
   ⟨sLoaded, .a, (fun x => nomatch x), (of_none (by decide +kernel)), by decide +kernel⟩⟩

theorem wit_TheStickChangesHands :
    (∃ (s : State) (c : Conc) (at_ : Nat), s.below pgSTICK [Reg.STICK.LAPSE_CNT] 1 ∧ s.powered = true ∧ s.holder = some c ∧
      (s.stick.deadline) ≤ at_) ∧
    (∃ (s : State) (at_ : Nat), s.below pgSTICK [Reg.STICK.GRANT_CNT, Reg.STICK.AUTO_CNT] 1 ∧ s.powered = true ∧ s.stickState = 2
      ∧ s.stick.guardEnd ≤ at_ ∧ s.stick.target = none) ∧
    (∃ (s : State) (at_ : Nat) (x : StickCmd), s.below pgSTICK [Reg.STICK.GRANT_CNT, Reg.STICK.REFUSE_CNT] 1 ∧ s.powered = true ∧
      s.stickState = 2 ∧ s.stick.guardEnd ≤ at_ ∧ s.stick.target = some x ∧ x.isWrite = false) ∧
    (∃ (s : State) (c : Conc) (at_ d : Nat), s.powered = true ∧ (s.conc c).run ≠ .reset ∧ (s.conc c).deadline = some d ∧ d ≤ at_) ∧
    (∃ (s : State) (c : Conc), s.mergeOn c = true ∧ s.driving c = true ∧ s.holder = some c ∧ (s.conc c).sending = false ∧ (s.conc
      c).stream = none ∧ s.lanesData c = true) ∧
    (∃ (s : State) (c : Conc) (l : Fin 64) (at_ : Nat), s.below (pgLANES c) [Reg.LANES.EXIT_CNT] 1 ∧ s.powered = true ∧ (s.conc
      c).run ≠ .reset ∧ (s.laneState c l) < 3 ∧ ((s.laneState c l) = 0 → s.mayExit c l = true)) :=
  ⟨⟨sHeld, .a, 42000, (below_of (by decide +kernel)), by decide +kernel⟩,
   ⟨sGuard, 42000, (below_of (by decide +kernel)), by decide +kernel⟩,
   ⟨sGuardFor, 42000, aStick, (below_of (by decide +kernel)), by decide +kernel⟩,
   ⟨sDeadline, .a, 42000, 41500, by decide +kernel⟩,
   ⟨sHeld, .a, by decide +kernel⟩,
   ⟨sExit, .a, 0, 42000, (below_of (by decide +kernel)), by decide +kernel⟩⟩

theorem wit_TheMemoryFollowsDemandAndTemperature :
    (∃ (s : State) (c : Conc) (shadow : Bool) (cls at_ : Nat) (r : DramReq), (∀ x, x ≠ r → (s.waiting c shadow x = true ∧
      ((s.conc c).mc).clsOf x = cls ∧ s.agesFrom c x + 80 * s.ageLimit c cls < (max s.now at_)) → s.agesFrom c r < s.agesFrom c
      x) ∧ s.below (pgDRAM c) [Reg.DRAM.PROMO_CNT] 1 ∧ s.powered = true ∧ (s.conc c).run ≠ .reset ∧ s.stackAwake c = true ∧
      s.ageLimit c cls ≠ 0 ∧ (s.waiting c shadow r = true ∧ ((s.conc c).mc).clsOf r = cls ∧ s.agesFrom c r + 80 * s.ageLimit c
      cls < (max s.now at_))) ∧
    (∃ (s : State) (c : Conc) (chan bank : Fin 16), s.powered = true ∧ (s.conc c).run ≠ .reset ∧ s.stackAwake c = true ∧ s.fld
      (pgDRAM c) Reg.DRAM.CTRL_PAGE_IDLE ≠ 0 ∧ s.dramFrozen c = false ∧ s.dramBusy c = false ∧ (s.conc c).isLive chan = true) ∧
    (∃ (s : State) (c : Conc) (chan bank : Fin 16), s.below (pgDRAM c) [Reg.DRAM.REF_URGENT_CNT] 1 ∧ s.powered = true ∧ (s.conc
      c).run ≠ .reset ∧ s.stackAwake c = true ∧ (s.conc c).isLive chan = true ∧ s.dramBusy c = false) ∧
    (∃ (s : State) (c : Conc) (chan bank : Fin 16), s.powered = true ∧ (s.conc c).run ≠ .reset ∧ s.stackAwake c = true ∧ 0 <
      ((s.conc c).mc).count (chan.val * 16 + bank.val) ∧ s.dramFrozen c = false ∧ s.dramBusy c = false ∧ (s.conc c).isLive chan
      = true) ∧
    (∃ (s : State) (c : Conc) (temp : Int), (s.dramBusy c = false ∨ s.dramFrozen c = true) ∧ s.below (pgDRAM c)
      [Reg.DRAM.HOT_CNT] 1 ∧ s.below (pgDRAM c) [Reg.DRAM.REF_URGENT_CNT] ((s.conc c).mc.excess (s.fld (pgDRAM c)
      Reg.DRAM.REF_CTRL_HOT_POSTPONE)) ∧ s.powered = true ∧ (s.conc c).run ≠ .reset ∧ -512 ≤ temp ∧ temp < 512) ∧
    (∃ (s : State) (c : Conc) (rb sb : Nat), s.powered = true ∧ (s.conc c).run ≠ .reset ∧ s.stackAwake c = true ∧ s.fld (pgDRAM
      c) Reg.DRAM.CTRL_FREQ_PIN = 0 ∧ s.dramFrozen c = false ∧ s.dramBusy c = false) ∧
    (∃ (s : State) (c : Conc) (rb sb : Nat), (s.fld (pgDRAM c) Reg.DRAM.CTRL_FREQ_PIN ≠ 0 ∨ s.dramFrozen c = true ∨ s.dramBusy c
      = true) ∧ s.powered = true ∧ (s.conc c).run ≠ .reset ∧ s.stackAwake c = true) ∧
    (∃ (s : State) (c : Conc), s.below (pgDRAM c) [Reg.DRAM.FREQ_CNT] 1 ∧ s.below (pgDTRAIN c) [Reg.DTRAIN.TRAIN_CNT] 16 ∧
      s.powered = true ∧ (s.conc c).run ≠ .reset ∧ s.dramBusy c = true ∧ s.dramFrozen c = false ∧ (s.conc c).mc.target < 3 ∧
      s.fld (pgDRAM c) Reg.DRAM.CTRL_FREQ_PIN = 0) ∧
    (∃ (s : State) (c : Conc) (h : HostRead), s.powered = true ∧ (s.conc c).run ≠ .reset ∧ s.stackAwake c = true ∧ (s.conc
      c).host = some h ∧ s.dramFrozen c = false ∧ s.dramBusy c = false ∧ s.servesNow c h.shadow .host = true ∧ h.unit <
      s.groupUnits c h.shadow) :=
  ⟨⟨sHostWaits, .a, false, 5, (10 ^ 9), .host, (fun x => by cases x <;> decide +kernel), (below_of (by decide +kernel)),
      by decide +kernel⟩,
   ⟨s0, .a, 0, 3, by decide +kernel⟩,
   ⟨s0, .a, 0, 3, (below_of (by decide +kernel)), by decide +kernel⟩,
   ⟨sPostponed, .a, 0, 3, by decide +kernel⟩,
   ⟨sPostponed, .a, 400, (.inl (by decide +kernel)), (below_of (by decide +kernel)), (below_of (by decide +kernel)),
      by decide +kernel⟩,
   ⟨s0, .a, 1000, 1000, by decide +kernel⟩,
   ⟨sChanging, .a, 1000, 1000, (.inr (.inr (by decide +kernel))), by decide +kernel⟩,
   ⟨sChanging, .a, (below_of (by decide +kernel)), (below_of (by decide +kernel)), by decide +kernel⟩,
   ⟨sHostWaits, .a, ({ shadow := false, unit := 5 }), by decide +kernel⟩⟩

theorem wit_ChannelsTrainRetireAndFreeze :
    (∃ (s : State) (c : Conc) (chan : Fin 16) (v : Option (BitVec 24)), s.below (pgDTRAIN c) [Reg.DTRAIN.TRAIN_CNT,
      Reg.DTRAIN.TRAIN_FAIL_CNT] 1 ∧ s.powered = true ∧ (s.conc c).run ≠ .reset ∧ s.stackAwake c = true ∧ (s.conc c).isLive chan
      = true ∧ s.dramFrozen c = false ∧ s.dramBusy c = false ∧ s.retrainIsDue c chan = true) ∧
    (∃ (s : State) (c : Conc) (chan : Fin 16), s.powered = true ∧ (s.conc c).run ≠ .reset ∧ s.stackAwake c = true ∧ s.mustRetire
      c chan = true) ∧
    (∃ (s : State) (c : Conc) (parity : Bool) (cmd cls : BitVec 3) (chan bank : Fin 16) (row : BitVec 16) (unit : BitVec 6)
      (synd : Word), (parity = true ∨ (s.flag (pgDRAM c) Reg.DRAM.CTRL_FREEZE_UE = true ∧ (s.conc c).poisonAt chan bank
      row.toNat unit.toNat = false)) ∧ s.below (pgDRAM c) [Reg.DRAM.FREEZE_CNT] 1 ∧ s.powered = true ∧ (s.conc c).run ≠ .reset ∧
      s.stackAwake c = true ∧ s.dramFrozen c = false) :=
  ⟨⟨sRetrain, .a, 0, (some 0x10), (below_of (by decide +kernel)), by decide +kernel⟩,
   ⟨sDegraded, .a, 0, by decide +kernel⟩,
   ⟨s0, .a, true, 1, 2, 0, 3, 7, 0, 0, (.inl (by decide +kernel)), (below_of (by decide +kernel)), by decide +kernel⟩⟩

theorem wit_ErrorsAreCountedAndScrubbed :
    (∃ (s : State) (page : IntPage) (r at_ : Nat), (∀ c, page = .dintg c → (s.conc c).run ≠ .reset) ∧ s.powered = true ∧
      hasBucket page r = true) ∧
    (∃ (s : State) (d : Die) (k : BitVec 28) (p r : Nat), ((d = .belfry ∧ p = pgINTG ∧ r = 3) ∨ (∃ c, d = .conc c ∧ (s.conc
      c).run ≠ .reset ∧ p = pgDINTG c ∧ r = 6) ∨ (∃ tl, d = .tile tl ∧ s.pwr (pgTILE tl) ≠ 0 ∧ p = pgINTG ∧ r = 20 + tl.val)) ∧
      s.below p [regionReg Reg.DINTG.CE_CNT r] 1 ∧ s.powered = true) ∧
    (∃ (s : State) (page : IntPage) (r : ScrubRun) (read : EccRead) (rewritten : Bool) (at_ : Nat), (∀ c, page = .dintg c →
      (s.conc c).run ≠ .reset) ∧ s.below (page.page) [Reg.DINTG.SCRUB_WORDS, Reg.DINTG.SCRUB_CORR, regionReg Reg.DINTG.CE_CNT
      (s.scrubRegion page r.mem r.next)] 1 ∧ (read = .clean ∨ (∃ bit, read = .corrected bit false)) ∧ s.powered = true ∧ mapFind
      (page.page) s.scrubs = some r ∧ s.scrubWaits page r.mem = false ∧ page.hasRegion (s.scrubRegion page r.mem r.next) = true
      ∧ r.next < 2 ^ 29 ∧ (∀ w ∈ s.writeBacks, w.page ≠ (page.page))) ∧
    (∃ (s : State) (c : Conc) (r : ScrubRun) (rewritten : Bool) (at_ : Nat), (r.mem = 1 ∨ r.mem = 2) ∧ s.below (pgDINTG c)
      [Reg.DINTG.SCRUB_WORDS, Reg.DINTG.SCRUB_UE, regionReg Reg.DINTG.UE_CNT (s.scrubRegion (.dintg c) r.mem r.next),
      Reg.DINTG.POISON_CNT] 1 ∧ s.powered = true ∧ (s.conc c).run ≠ .reset ∧ mapFind (pgDINTG c) s.scrubs = some r ∧
      s.scrubWaits (.dintg c) r.mem = false ∧ (IntPage.dintg c).hasRegion (s.scrubRegion (.dintg c) r.mem r.next) = true) ∧
    (∃ (s : State) (page : IntPage) (mem : BitVec 5) (n : Nat), (mem = 0 ∨ (page = .intg ∧ mem = 1)) ∧ (∀ o, s.writePages
      (page.page) o = [(page.page)]) ∧ s.pow.mode = .on ∧ s.running = true ∧ s.recovery = false ∧ s.flag pgINTG
      Reg.INTG.CTRL_FW_SCRUB = true ∧ s.scrubWords page mem.toNat = some n ∧ s.dieOff (page.page) = false ∧ s.flag (page.page)
      Reg.DINTG.SCRUB_CTRL_BUSY = false ∧ mapFind (page.page) s.scrubs = none ∧ s.scrubFrozen page = false) :=
  ⟨⟨s0, .intg, 3, (10 ^ 9), (fun _ x => nomatch x), by decide +kernel⟩,
   ⟨s0, .belfry, 5, pgINTG, 3, (.inl (by decide +kernel)), (below_of (by decide +kernel)), by decide +kernel⟩,
   ⟨sScrub, .intg, ({ mem := 0, next := 0, last := 5 }), .clean, false, 42000, (fun _ x => nomatch x),
      (below_of (by decide +kernel)), (.inl rfl), by decide +kernel⟩,
   ⟨sScrubRing, .a, ({ mem := 1, next := 0, last := 5 }), false, 42000, (.inl rfl), (below_of (by decide +kernel)),
      by decide +kernel⟩,
   ⟨sFwScrub, .intg, 0, 4194304, (.inl rfl), (fun _ => rfl), by decide +kernel⟩⟩

theorem wit_LanesFollowMaskAndFaults :
    (∃ s : State, s.powered = true) ∧
    (∃ (s : State) (c : Conc) (l : Fin 64) (pll : Bool), s.below (pgLANES c) [Reg.LANES.FAULT_CNT] 1 ∧ s.powered = true ∧ (s.conc
      c).run ≠ .reset) ∧
    (∃ (s : State) (c : Conc) (l : Fin 64), s.powered = true ∧ (s.conc c).run ≠ .reset) ∧
    (∃ (s : State) (c : Conc) (l : Fin 64) (errs : List Nat) (row : Instr), (row = .checkerLock c ⟨l, ⟨1, errs⟩⟩ ∨ row =
      .checkerLockLost c l 1 errs) ∧ s.below (pgLANE c l) [Reg.LANE.ERR_CNT, Reg.LANE.LOCK_LOST_CNT] 1 ∧ s.powered = true ∧
      (s.conc c).run ≠ .reset ∧ s.flag (pgLANE c l) Reg.LANE.TEST_GEN_EN = true ∧ (s.stored (pgLANE c l) Reg.LANE.BITS_HI * 2 ^
      32 + s.stored (pgLANE c l) Reg.LANE.BITS_LO + 1) < 2 ^ 64) ∧
    (∃ (s : State) (c : Conc) (l : Fin 64) (n : Nat) (errs : List Nat), s.powered = true ∧ (s.conc c).run ≠ .reset) ∧
    (∃ (s : State) (c : Conc) (l : Fin 64) (n : Nat) (errs : List Nat), s.powered = true ∧ (s.conc c).run ≠ .reset ∧ s.flag
      (pgLANE c l) Reg.LANE.TEST_GEN_EN = false) :=
  ⟨⟨s0, by decide +kernel⟩,
   ⟨s0, .a, 63, true, (below_of (by decide +kernel)), by decide +kernel⟩,
   ⟨s0, .a, 63, by decide +kernel⟩,
   ⟨sTest, .a, 63, [], (.checkerLock .a ⟨63, ⟨1, []⟩⟩), (.inl rfl), (below_of (by decide +kernel)), by decide +kernel⟩,
   ⟨sTest, .a, 63, 3, [1], by decide +kernel⟩,
   ⟨s0, .a, 63, 3, [], by decide +kernel⟩⟩

theorem wit_TheMonitorConvertsAndInterlocksFail :
    (∃ (s : State) (v : Visit), s.powered = true ∧ s.mon.visit = some v ∧ v.switching = true ∧ v.invalid = false) ∧
    (∃ (s : State) (v : Visit), s.below pgMADC [Reg.MADC.FAULT_CNT] 1 ∧ (∀ n, s.mon.aborted = some n → n < 32) ∧ s.powered = true
      ∧ s.mon.visit = some v ∧ v.switching = true ∧ v.invalid = true ∧ v.entry < 32 ∧ s.mon.ilkA = none ∧ s.mon.ilkB = none ∧ (∀
      n ∈ s.mon.due, n < 32)) ∧
    (∃ (s : State) (v : Visit) (pos neg sine ext : Int) (ovr : Bool) (at_ : Nat), s.powered = true ∧ s.mon.visit = some v ∧
      v.switching = false ∧ v.entry < 32 ∧ s.mon.ilkA = none ∧ s.mon.ilkB = none) ∧
    (∃ (s : State) (v : Visit) (cause : BreakCause) (at_ k : Nat), ((∃ p nv, cause = .pinAt p nv ∧ p.val ∈ v.watched ∧ (k = 1 ∧
      nv < s.cmLow ∨ k = 2 ∧ s.cmLow ≤ nv ∧ s.cmHigh < nv)) ∨ (cause = .currentLimit ∧ v.excitation.mode ≠ 0 ∧ k = 3)) ∧ s.below
      pgMONX [Reg.MONX.BREAK_CNT, Reg.MONX.ILIM_CNT] 1 ∧ s.powered = true ∧ s.mon.visit = some v ∧ v.switching = false ∧ v.entry
      < 32 ∧ s.broken v.entry = false ∧ 1 < v.left ∧ s.mon.ilkA = none ∧ s.mon.ilkB = none) ∧
    (∃ (s : State) (n : Fin 32), s.below pgMADC [Reg.MADC.ABORT_CNT] 1 ∧ s.powered = true ∧ s.urgent n = true ∧ s.mon.due = []) ∧
    (∃ (s : State) (o : Pin) (at_ : Nat) (l : List IlkSource), s.below pgILK
      [(match o with | .a => Reg.ILK.A_FAULT_CNT | .b => Reg.ILK.B_FAULT_CNT)] 1 ∧ s.powered = true ∧ s.ilkSources o = some l ∧
      s.ilkState o ≠ 0) ∧
    (∃ (s : State) (ok : Bool), s.powered = true) :=
  ⟨⟨sVisit, aVisit, by decide +kernel⟩,
   ⟨sInvalid, ({ aVisit with exc := 0xC0000000 }), (below_of (by decide +kernel)), (of_none (by decide +kernel)),
      by decide +kernel⟩,
   ⟨sConv, ({ aVisit with switching := false }), 1000, 0, 0, 2500, false, 42000, by decide +kernel⟩,
   ⟨sExc, excVisit, .currentLimit, 42000, 3, (.inr (by decide +kernel)), (below_of (by decide +kernel)), by decide +kernel⟩,
   ⟨sUrgent, 5, (below_of (by decide +kernel)), by decide +kernel⟩,
   ⟨sHolds, .a, 42000, ([{ entry := 5, value := none, since := 0 }]), (below_of (by decide +kernel)), by decide +kernel⟩,
   ⟨s0, true, by decide +kernel⟩⟩

theorem wit_PowerComesAndGoes :
    (∃ s : State, s.pow.mode = .off) ∧
    (∃ (s : State) (under current : Bool), s.pow.mode ≠ .off) ∧
    (∃ s : State, s.pow.mode = .held) ∧
    (∃ s : State, (s.pow.mode = .off ∨ s.pow.mode = .hot)) ∧
    (∃ s : State, s.pow.mode ≠ .held) :=
  ⟨⟨sOff, by decide +kernel⟩,
   ⟨s0, true, false, by decide +kernel⟩,
   ⟨sHeldReset, by decide +kernel⟩,
   ⟨sOff, (.inl (by decide +kernel))⟩,
   ⟨s0, by decide +kernel⟩⟩

theorem wit_DiesStopAndStart :
    (∃ (s : State) (d : Die) (current : Bool), s.below pgPWR [Reg.PWR.FAULT_CNT, Reg.PWR.OT_CNT] 1 ∧ d ≠ .belfry ∧ d ≠ .bus ∧
      s.pow.mode = .on ∧ s.diePowered d = true) ∧
    (∃ (s : State) (d : Die), ¬(s.pow.mode = .hot ∧ d = .belfry)) ∧
    (∃ s : State, s.pow.mode = .hot) ∧
    (∃ (s : State) (env : StartEnv), (∀ i, s.fwu.kCur = some i → i.body = []) ∧ s.below pgPWR [Reg.PWR.FAULT_CNT] 2 ∧ s.below
      pgPWR [Reg.PWR.UVLO_CNT] 1 ∧ s.pow.mode = .starting ∧ s.fwu.trial = [] ∧ s.fwu.failed = none ∧ s.fwu.cStg = none ∧
      s.fwu.kStg = none ∧ s.soundK env = true ∧ s.sectionsK env = true ∧ env.settingsOk = true ∧ env.mram = [] ∧ s.recovery =
      false ∧ s.cal.swap = none) ∧
    (∃ (s : State) (g : Fin 4) (failing : BitVec 16), s.pow.mode = .on ∧ s.step470 = 7 ∧ s.pow.groups = g.val ∧ 1 ≤ s.ceil pgMOD
      ∧ (∀ tl : Fin 16, tl.val / 4 = g.val → (s.tile tl).power = .off ∧ mapFind (regKey (pgTILE tl) 0x010) s.saved = none ∧
      (s.stored pgPWR Reg.PWR.CONV_FAULT_TILE).testBit tl.val = false ∧ s.pow.hot.contains (.tile tl) = false)) ∧
    (∃ (s : State) (ms : BitVec 20), s.powered = true ∧ s.step470 = 11 ∧ s.flag pgCALS Reg.CALS.SWAP_STAT_WARM = false ∧
      s.running = true ∧ s.time.first + 2 ≤ s.frame) :=
  ⟨⟨s0, (.tile 0), true, (below_of (by decide +kernel)), by decide +kernel⟩,
   ⟨s0, (.tile 0), by decide +kernel⟩,
   ⟨sHot, by decide +kernel⟩,
   ⟨State.reset, anEnv, (fun _ x => by cases x; rfl), (below_of (by decide +kernel)), (below_of (by decide +kernel)),
      by decide +kernel⟩,
   ⟨sGroups, 3, 0, by decide +kernel⟩,
   ⟨sStarted, 900, by decide +kernel⟩⟩

theorem wit_TheTestPortScans :
    (∃ (s : State) (tms tdi : Bool) (pins : TestPins), s.pow.mode ≠ .off ∧ s.pow.mode ≠ .hot ∧ pins.trst = true) ∧
    (∃ (s : State) (tms tdi : Bool) (pins : TestPins), s.pow.mode ≠ .off ∧ s.pow.mode ≠ .hot ∧ pins.trst = true) ∧
    (∃ (s : State) (rising tms tdi : Bool) (pins : TestPins), s.pow.mode ≠ .off ∧ s.pow.mode ≠ .hot ∧ pins.trst = false) :=
  ⟨⟨s0, true, false, somePins, by decide +kernel⟩,
   ⟨s0, true, false, somePins, by decide +kernel⟩,
   ⟨s0, true, true, false, ({ somePins with trst := false }), by decide +kernel⟩⟩

end Sys2Proof.Tests
end

section
/-!
PROOFS. The family of scope: what a frame boundary leaves in force (R236, R404).
-/

namespace Sys2Proof.Machine

/-- FRAME_BOUNDARY with the module powered is the boundary itself. -/
theorem exec_frameBoundary {s : State} (h : s.powered = true) (slips : List (Fin 16 × BitVec 48)) (env : BoundaryEnv) :
    exec (.frameBoundary slips env) s = .next (s.frameBoundary slips env) :=
  congrArg Host.Outcome.next (if_pos h)

/-- INJ_DAC of block 0 of tile 0, as a key of the register file. -/
def injDacKey : Nat := regKey (pgBLOCK 0 0) Reg.BLOCK.INJ_DAC.off

/-- Frames run, INJ_DAC of a block has a write waiting, and the list of lower words that wait for their upper words (R236) names
that register with level 1. Writes put registers of the TIMED pages only into that list, but the state's type does not say so. -/
def injDacAsLowerWord : State :=
  { State.reset with
    running := true
    pow := { State.reset.pow with mode := .on }
    stale := [(injDacKey, 0)]
    time := { State.reset.time with lo := [(injDacKey, 1)] } }

/-- The state of the counterexample is well formed: `State.Wf` bounds no key of `time.lo`. -/
theorem injDacAsLowerWord_wf : injDacAsLowerWord.Wf := by constructor <;> decide

/-- The boundary keeps the level of the list in force, as it keeps a lower word of INC. -/
theorem injDacAsLowerWord_fld : (injDacAsLowerWord.frameBoundary [] { drift := 0 }).fld
    (pgBLOCK (0 : Fin 16) (0 : Fin 16)) Reg.BLOCK.INJ_DAC_LEVEL = 1 := by decide +kernel

/-- What the register stores is still its reset value. -/
theorem injDacAsLowerWord_stored : (injDacAsLowerWord.frameBoundary [] { drift := 0 }).stored
    (pgBLOCK (0 : Fin 16) (0 : Fin 16)) Reg.BLOCK.INJ_DAC_LEVEL = 0 := by decide +kernel

/-- Refutes O50: its clause on INJ_DAC has no premise on `time.lo`, which its clause on the other registers has. Where that list
names INJ_DAC of a block in a frame without a step of the ring, the boundary leaves level 1 in force while 0 is stored. No write
leads to such a state; a premise that `time.lo` names no register of a block page would exclude it. -/
theorem not_framesAdvance : ¬ Obligations.FramesAdvance := by
  unfold Obligations.FramesAdvance
  rintro ⟨advances, -⟩
  obtain ⟨t, ht, -, -, -, -, -, hlevel, -⟩ := advances injDacAsLowerWord [] { drift := 0 } rfl rfl
  rw [exec_frameBoundary rfl] at ht
  obtain rfl := Host.Outcome.next.inj ht
  have level : 1 = 0 := injDacAsLowerWord_fld.symm.trans ((hlevel 0 0).trans injDacAsLowerWord_stored)
  exact absurd level (by decide)

end Sys2Proof.Machine
end

section
/-!
PROOFS. The family of architecture: tillers idle, and tiles gain and lose power (R16-R19, R41, R324, R471).
-/

namespace Sys2Proof.Machine

/-! ### The rows with the module powered -/

theorem exec_idleExpiry {s : State} (h : s.powered = true) (page : BitVec 16) :
    exec (.idleExpiry page) s = .next (s.idleExpiry page.toNat) := congrArg Host.Outcome.next (if_pos h)

theorem exec_tilePowerUp {s : State} (h : s.powered = true) (t : Fin 16) (start : TileStart) :
    exec (.tilePowerUp t start) s = .next (s.tilePowerUp t start) := congrArg Host.Outcome.next (if_pos h)

theorem exec_tilePowerRemoval {s : State} (h : s.powered = true) (t : Fin 16) :
    exec (.tilePowerRemoval t) s = .next (s.tilePowerRemoval t).showPg := congrArg Host.Outcome.next (if_pos h)

/-! ### Sparse maps of which entries are dropped by their keys -/

theorem mapFind_filter_keep {α : Type} {p : Nat × α → Bool} {k : Nat} (h : ∀ v, p (k, v) = true) (m : List (Nat × α)) :
    mapFind k (m.filter p) = mapFind k m := by
  induction m with
  | nil => rfl
  | cons e r ih =>
    obtain ⟨j, w⟩ := e
    by_cases hj : k = j
    · subst hj; simp [h, mapFind]
    · by_cases hp : p (j, w) = true <;> simp [hp, mapFind, hj, ih]

theorem mapFind_filter_drop {α : Type} {p : Nat × α → Bool} {k : Nat} (h : ∀ v, p (k, v) = false) (m : List (Nat × α)) :
    mapFind k (m.filter p) = none := by
  induction m with
  | nil => rfl
  | cons e r ih =>
    obtain ⟨j, w⟩ := e
    by_cases hj : k = j
    · subst hj; simp [h, ih]
    · by_cases hp : p (j, w) = true <;> simp [hp, mapFind, hj, ih]

/-! ### Registers that shared updates leave as they are -/

theorem State.SameReg.refl (s : State) (q o : Nat) : s.SameReg s q o := ⟨rfl, rfl⟩

theorem State.SameReg.stored {s t : State} {q : Nat} {f : FieldRef} (h : s.SameReg t q f.off) :
    t.stored q f = s.stored q f := congrArg (fieldGet f) h.1

theorem State.SameReg.fld {s t : State} {q : Nat} {f : FieldRef} (h : s.SameReg t q f.off) : t.fld q f = s.fld q f :=
  congrArg (fieldGet f) h.2

theorem State.SameReg.each {α : Type} {l : List α} {f : State → α → State} {q o : Nat}
    (h : ∀ (s : State) (a : α), a ∈ l → s.SameReg (f s a) q o) (s : State) : s.SameReg (s.each l f) q o :=
  State.each_keeps (P := fun t => s.SameReg t q o) (fun t a ha k => k.trans (h t a ha)) (.refl s q o)

theorem State.sameReg_wr {p q o u : Nat} (h : regKey q u ≠ regKey p o) (s : State) (v : Word) : s.SameReg (s.wr p o v) q u :=
  ⟨State.rd_wr_ne h .., State.live_wr_ne h ..⟩

theorem State.sameReg_put_page {p q o : Nat} {f : FieldRef} (h : q ≠ p) (ho : o < 4096) (hf : f.off < 4096) (s : State)
    (v : Nat) : s.SameReg (s.put p f v) q o := State.sameReg_put (regKey_ne_page h ho hf) s v

theorem State.sameReg_eventIf {p q o : Nat} (h : regKey q o ≠ regKey p Reg.HDR.EVT_PENDING.off) (s : State) (c : Bool) (b : Nat) :
    s.SameReg (s.eventIf c p b) q o := .ite (State.sameReg_event h s b) (.refl s q o)

theorem regKey_div {q o : Nat} (h : o < 4096) : regKey q o / 4096 = q := by unfold regKey; omega

/-- Registers of other pages than those that return to reset. -/
theorem State.sameReg_resetPages {q o lo hi : Nat} (ho : o < 4096) (h : q < lo ∨ hi ≤ q) (s : State) :
    s.SameReg (s.resetPages lo hi) q o := by
  have out : (!(decide (lo ≤ regKey q o / 4096) && decide (regKey q o / 4096 < hi))) = true := by
    rw [regKey_div ho]; simp; omega
  have hrd : (s.resetPages lo hi).rd q o = s.rd q o :=
    congrArg (Option.getD · _) (mapFind_filter_keep (fun _ => out) s.regs)
  refine ⟨hrd, ?_⟩
  rw [State.live, State.live, hrd]
  exact congrArg (Option.getD · _) (mapFind_filter_keep (fun _ => out) s.stale)

/-- A register of pages that return to reset holds its reset value. -/
theorem State.rd_resetPages {q o lo hi : Nat} (ho : o < 4096) (hl : lo ≤ q) (hh : q < hi) (s : State) :
    (s.resetPages lo hi).rd q o = regReset (regKey q o) := by
  have inside : (!(decide (lo ≤ regKey q o / 4096) && decide (regKey q o / 4096 < hi))) = false := by
    rw [regKey_div ho]; simp [hl, hh]
  exact congrArg (Option.getD · _) (mapFind_filter_drop (fun _ => inside) s.regs)

theorem State.sameReg_showPg {q o : Nat} (h : q ≠ pgPWR) (ho : o < 4096) (s : State) : s.SameReg s.showPg q o := by
  have put (t : State) (f : FieldRef) (hf : f.off < 4096) (v : Nat) : t.SameReg (t.put pgPWR f v) q o :=
    State.sameReg_put_page h ho hf t v
  unfold State.showPg
  extract_lets _ _ a b
  exact (((((((put _ _ (by decide) _).trans (put _ _ (by decide) _)).trans (put _ _ (by decide) _)).trans
    (put _ _ (by decide) _)).trans (put _ _ (by decide) _)).trans (put _ _ (by decide) _)).trans (put _ _ (by decide) _))

/-- Showing PG changes registers and values in force only. -/
theorem State.showPg_only_regs (s : State) : s.Only 24 s.showPg := State.showPg_only (.refl s) (by decide)

theorem State.showPg_tile (s : State) (u : Fin 16) : s.showPg.tile u = s.tile u :=
  congrArg (fun v : Vector Tile 16 => v[u]) (s.showPg_only_regs.tiles (by decide))

theorem State.showPg_chan (s : State) (c : Nat) : s.showPg.chan c = s.chan c :=
  congrArg (mapGetD ({} : Chan) c) (s.showPg_only_regs.chans (by decide))

theorem State.showPg_tac (s : State) : s.showPg.tac = s.tac := s.showPg_only_regs.tac (by decide)

theorem State.sameReg_showDies {q o : Nat} (h : q ≠ pgMOD) (ho : o < 4096) (s : State) : s.SameReg s.showDies q o :=
  .ite (.refl s q o) ((State.sameReg_put_page h ho (by decide) s _).trans
    (State.sameReg_eventIf (regKey_ne_page h ho (by decide)) _ _ _))

/-! ### PWR_STATE -/

theorem State.pwr_lt (s : State) (p : Nat) : s.pwr p < 4 := Nat.mod_lt _ (by decide)

theorem State.pwr_put_same (s : State) (p v : Nat) : (s.put p Reg.HDR.PWR_STATE_STATE v).pwr p = v % 4 :=
  State.stored_put_same (by decide) (by decide) s p v

theorem State.pwr_put_ne {p q : Nat} (h : q ≠ p) (s : State) (v : Nat) :
    (s.put p Reg.HDR.PWR_STATE_STATE v).pwr q = s.pwr q :=
  State.stored_put_ne (regKey_ne_page h (by decide) (by decide)) s v

/-- The ceilings are not touched where a power state is. -/
theorem State.ceil_put_state (s : State) (p q v : Nat) : (s.put p Reg.HDR.PWR_STATE_STATE v).ceil q = s.ceil q := by
  by_cases h : q = p
  · subst h
    exact State.fld_put_apart (f := Reg.HDR.PWR_STATE_STATE) (g := Reg.HDR.PWR_STATE_CEIL) rfl (by decide) (by decide)
      (by decide) (by decide) (by decide) s q v
  · exact State.fld_put_ne (regKey_ne_page h (by decide) (by decide)) s v

theorem State.storedCeil_put_state (s : State) (p v : Nat) :
    (s.put p Reg.HDR.PWR_STATE_STATE v).stored p Reg.HDR.PWR_STATE_CEIL = s.stored p Reg.HDR.PWR_STATE_CEIL :=
  State.stored_put_apart (f := Reg.HDR.PWR_STATE_STATE) (g := Reg.HDR.PWR_STATE_CEIL) rfl (by decide) (by decide) (by decide)
    (by decide) (by decide) s p v

theorem State.pwr_put_ceil (s : State) (p v : Nat) : (s.put p Reg.HDR.PWR_STATE_CEIL v).pwr p = s.pwr p :=
  State.stored_put_apart (f := Reg.HDR.PWR_STATE_CEIL) (g := Reg.HDR.PWR_STATE_STATE) rfl (by decide) (by decide) (by decide)
    (by decide) (by decide) s p v

theorem State.storedCeil_lt (s : State) (p : Nat) : s.stored p Reg.HDR.PWR_STATE_CEIL < 4 := Nat.mod_lt _ (by decide)

/-- The ceiling of a tile's tiller and that of the module bound the tile (R18). -/
theorem State.effCeil_tile (s : State) (t : Fin 16) : s.effCeil (pgTILE t) = min (s.ceil (pgTILE t)) (s.ceil pgMOD) := by
  have parent : ∀ t : Fin 16, parentPage (pgTILE t) = some pgMOD := by decide
  have top : parentPage pgMOD = none := by decide
  simp only [State.effCeil, parent, top]

/-! ### Idle -/

theorem State.pwr_toListen (s : State) (p q : Nat) :
    (s.toListen p).pwr q = if q = p then min 2 (s.pwr q) else s.pwr q := by
  have := s.pwr_lt q
  unfold State.toListen
  split_ifs with run same same
  · subst same; rw [State.pwr_put_same]; omega
  · exact State.pwr_put_ne same s 2
  · subst same; omega
  · rfl

theorem State.ceil_toListen (s : State) (p q : Nat) : (s.toListen p).ceil q = s.ceil q := by
  unfold State.toListen
  split_ifs
  · exact s.ceil_put_state p q 2
  · rfl

theorem State.sameReg_toListen {p q o : Nat} (h : (q, o) ≠ (p, Reg.HDR.PWR_STATE.off)) (ho : o < 4096) (s : State) :
    s.SameReg (s.toListen p) q o :=
  .ite (State.sameReg_put (f := Reg.HDR.PWR_STATE_STATE) (regKey_ne h ho (by decide)) s 2) (.refl s q o)

/-- Of tillers that go idle together each stands in LISTEN at most, and no other moves. -/
theorem State.pwr_each_toListen (l : List Nat) (s : State) (q : Nat) :
    (s.each l State.toListen).pwr q = if q ∈ l then min 2 (s.pwr q) else s.pwr q := by
  induction l generalizing s with
  | nil => rfl
  | cons p l ih =>
    rw [State.each_cons, ih, State.pwr_toListen]
    by_cases hp : q = p <;> by_cases hl : q ∈ l <;> simp [hp, hl]

theorem State.ceil_each_toListen (l : List Nat) (s : State) (q : Nat) : (s.each l State.toListen).ceil q = s.ceil q :=
  State.each_keeps (P := fun t => t.ceil q = s.ceil q) (fun t p _ k => (t.ceil_toListen p q).trans k) rfl

theorem State.idleExpiry_eq {s : State} {page : Nat} (h : s.pwr page = 3) (k : s.pageIdle page = true) :
    s.idleExpiry page = s.each (page :: childPages page) State.toListen := by
  rw [State.idleExpiry, h, k]; rfl

/-! ### A tile loses power -/

theorem State.resetPages_tile (s : State) (lo hi : Nat) (u : Fin 16) : (s.resetPages lo hi).tile u = s.tile u := rfl

/-- The pages of a tile that is lost: at reset but for the ceiling. The rest of its content is in other parts of the state. -/
def State.tilePagesLost (s : State) (t : Fin 16) : State :=
  (s.resetPages (pgTILE t) (pgTILE t + 0x100)).put (pgTILE t) Reg.HDR.PWR_STATE_CEIL
    (s.stored (pgTILE t) Reg.HDR.PWR_STATE_CEIL)

theorem State.sameReg_tileLost (s : State) (t : Fin 16) (power : TilePower) (q o : Nat) :
    (s.tilePagesLost t).SameReg (s.tileLost t power) q o := .of rfl rfl q o

theorem State.tileLost_tile (s : State) (t : Fin 16) (power : TilePower) :
    (s.tileLost t power).tile t =
      { power := power, reasons := Nat.lor (s.tile t).reasons 8, gateNow := (s.tile t).gateNow,
        gateNext := (s.tile t).gateNext,
        portA := { oldest := (s.tile t).portA.oldest, owes := Nat.lor (s.tile t).portA.owes (s.tile t).portA.cut.toNat },
        portB := { oldest := (s.tile t).portB.oldest, owes := Nat.lor (s.tile t).portB.owes (s.tile t).portB.cut.toNat } } := by
  have same : (s.tilePagesLost t).tile t = s.tile t := by
    rw [State.tilePagesLost, State.put_tile, State.resetPages_tile]
  rw [← same]
  exact Vector.getElem_set_self _

theorem State.tileLost_tile_ne {t u : Fin 16} (h : u ≠ t) (s : State) (power : TilePower) :
    (s.tileLost t power).tile u = s.tile u := by
  have same : (s.tilePagesLost t).tile u = s.tile u := by
    rw [State.tilePagesLost, State.put_tile, State.resetPages_tile]
  rw [← same]
  exact State.setTile_tile_ne h (s.tilePagesLost t) _

theorem State.tileLost_chan {t : Fin 16} {c : Nat} (h : c / 4096 = t.val) (s : State) (power : TilePower) :
    (s.tileLost t power).chan c = {} ∧ mapGetD 0 c (s.tileLost t power).tac = 0 := by
  constructor <;> exact congrArg (Option.getD · _) (mapFind_filter_drop (fun _ => by simp [h]) _)

theorem State.tileLost_chan_ne {t : Fin 16} {c : Nat} (h : c / 4096 ≠ t.val) (s : State) (power : TilePower) :
    (s.tileLost t power).chan c = s.chan c ∧ mapGetD 0 c (s.tileLost t power).tac = mapGetD 0 c s.tac := by
  have chans : (s.tilePagesLost t).chans = s.chans := State.put_chans ..
  have tac : (s.tilePagesLost t).tac = s.tac := State.put_tac ..
  constructor
  · rw [State.chan, State.chan, ← chans]
    exact congrArg (Option.getD · _) (mapFind_filter_keep (fun _ => by simp [h]) _)
  · rw [← tac]
    exact congrArg (Option.getD · _) (mapFind_filter_keep (fun _ => by simp [h]) _)

theorem State.tilePowerRemoval_eq {s : State} {t : Fin 16} (hp : (s.tile t).power = .leaving) (hl : (s.tile t).leaveAt = none)
    (hd : ∀ c, (s.port t c).cut = true ∨ (s.port t c).items = []) : s.tilePowerRemoval t = s.tileLost t .off := by
  have drained (c : Conc) : (s.port t c).drained = true := by
    rcases hd c with h | h <;> simp [Port.drained, h]
  have a : (s.tile t).portA.drained = true := drained .a
  have b : (s.tile t).portB.drained = true := drained .b
  simp [State.tilePowerRemoval, hp, hl, a, b]

/-- The reset value of a tile's PWR_STATE says OFF. -/
theorem pwr_regReset_tile : ∀ t : Fin 16,
    fieldGet Reg.HDR.PWR_STATE_STATE (regReset (regKey (pgTILE t) Reg.HDR.PWR_STATE.off)) = 0 := by decide

theorem pgPWR_lt_pgTILE (t : Fin 16) : pgPWR < pgTILE t := by unfold pgPWR pgTILE; omega

theorem State.tilePagesLost_pwr (s : State) (t : Fin 16) : (s.tilePagesLost t).pwr (pgTILE t) = 0 := by
  have reset : (s.resetPages (pgTILE t) (pgTILE t + 0x100)).pwr (pgTILE t) = 0 := by
    rw [State.pwr, State.stored, State.rd_resetPages (by decide) le_rfl (by omega)]
    exact pwr_regReset_tile t
  exact (State.pwr_put_ceil ..).trans reset

theorem State.tilePagesLost_ceil (s : State) (t : Fin 16) :
    (s.tilePagesLost t).stored (pgTILE t) Reg.HDR.PWR_STATE_CEIL = s.stored (pgTILE t) Reg.HDR.PWR_STATE_CEIL :=
  (State.stored_put_same (by decide) (by decide) _ _ _).trans (Nat.mod_eq_of_lt (s.storedCeil_lt _))

theorem State.tilePagesLost_rd {t : Fin 16} {q o : Nat} (ho : o < 4096) (hl : pgTILE t ≤ q) (hh : q < pgTILE t + 0x100)
    (h : q ≠ pgTILE t ∨ o ≠ Reg.HDR.PWR_STATE.off) (s : State) : (s.tilePagesLost t).rd q o = regReset (regKey q o) := by
  rw [State.tilePagesLost, State.rd_put_ne (regKey_ne (by rintro ⟨⟩; exact h.elim (· rfl) (· rfl)) ho (by decide)),
    State.rd_resetPages ho hl hh]

theorem State.sameReg_tilePagesLost {t : Fin 16} {q o : Nat} (ho : o < 4096) (h : q < pgTILE t ∨ pgTILE t + 0x100 ≤ q)
    (s : State) : s.SameReg (s.tilePagesLost t) q o :=
  (State.sameReg_resetPages ho h s).trans (State.sameReg_put_page (by omega) ho (by decide) _ _)

/-- Power is removed of a drained tile that leaves (R19), and its content is lost but for the ceiling (R41). -/
theorem exec_tilePowerRemoval_drained {s : State} {tl : Fin 16} (hp : s.powered = true)
    (hl : (s.tile tl).power = .leaving) (hn : (s.tile tl).leaveAt = none)
    (hd : ∀ c, (s.port tl c).cut = true ∨ (s.port tl c).items = []) :
    exec (.tilePowerRemoval tl) s = .next (s.tileLost tl .off).showPg := by
  rw [exec_tilePowerRemoval hp, State.tilePowerRemoval_eq hl hn hd]

/-- PG, which shows the removal, stands on its own page; every other register is that of the tile's lost pages. -/
theorem State.sameReg_powerRemoved {q o : Nat} (hq : q ≠ pgPWR) (ho : o < 4096) (s : State) (tl : Fin 16) :
    (s.tilePagesLost tl).SameReg (s.tileLost tl .off).showPg q o :=
  (s.sameReg_tileLost tl .off q o).trans (State.sameReg_showPg hq ho _)

/-! ### A tile gains power -/

theorem State.sameReg_clearTileBuckets {t : Fin 16} {q o : Nat} (ho : o < 4096) (h : q ≠ pgINTG ∨ o < 0x100) (s : State) :
    s.SameReg (s.clearTileBuckets t) q o := by
  have level (r : Nat) (hr : r < 36) : regKey q o ≠ regKey pgINTG (regionReg Reg.DINTG.BKT_LEVEL r).off := by
    have off : (regionReg Reg.DINTG.BKT_LEVEL r).off = 0x104 + r * 16 := rfl
    refine regKey_ne ?_ ho (by omega)
    rintro ⟨⟩
    omega
  refine (State.SameReg.each (fun u r hr => State.sameReg_put (level r ?_) u 0) s).trans (.of rfl rfl q o)
  simp only [List.mem_cons, List.not_mem_nil, or_false] at hr
  omega

theorem classKReg_off {p o : Nat} (h : classKReg p o = true) : o < 4096 := by
  unfold classKReg at h
  split at h
  · simp at h; omega
  · simp at h; rw [h]; decide
  · simp at h; omega
  · simp at h; rw [h]; decide
  · simp at h; rw [h]; decide
  · exact absurd h (by decide)

/-- A class K image loads registers of its own only (R446). -/
theorem State.sameReg_loadClassK {q o : Nat} (ho : o < 4096) (h : classKReg q o = false) (s : State) (lo hi : Nat) :
    s.SameReg (s.loadClassK lo hi) q o := by
  refine .each (fun u w hw => State.sameReg_wr (regKey_ne ?_ ho ?_) u _) s
  all_goals
    have loads : classKReg w.1 w.2.1 = true := by
      have := (List.mem_filter.1 hw).2
      simp only [Bool.and_eq_true] at this
      exact this.2
  · intro e
    rw [← (Prod.mk.inj e).1, ← (Prod.mk.inj e).2, h] at loads
    exact absurd loads (by decide)
  · exact classKReg_off loads

/-- The settings of a range of pages are loaded into no other. -/
theorem State.sameReg_loadSettings {q o lo hi : Nat} (ho : o < 4096) (h : q < lo ∨ hi ≤ q) (s : State) :
    s.SameReg (s.loadSettings lo hi) q o := by
  have queue (u : State) : u.SameReg (u.queuePending lo hi) q o :=
    have only : u.Only 64 (u.queuePending lo hi) := State.queuePending_only (.refl u) lo hi (by decide)
    .of (only.regs (by decide)) (only.stale (by decide)) q o
  refine .trans (.each (fun u e he => ?_) s) (queue _)
  have page : q ≠ e.1 / 4096 := by
    have := (List.mem_filter.1 he).2
    simp only [Bool.and_eq_true, decide_eq_true_eq] at this
    omega
  dsimp only
  split
  · exact State.sameReg_wr (regKey_ne_page page ho (Nat.mod_lt _ (by decide))) u _
  · exact .refl u q o

theorem State.sameReg_reloadTile {t : Fin 16} {q o : Nat} (ho : o < 4096) (h : q ≠ pgTDC t) (s : State) :
    s.SameReg (s.reloadTile t) q o := by
  unfold State.reloadTile
  extract_lets _ r
  refine State.SameReg.trans (t := r) (.of rfl rfl q o) (.each (fun u e _ => State.sameReg_put_page h ho ?_ u _) r)
  have off : (Reg.TDC.TAP_POS_POS.nth (e.1 % 64)).off = 0x100 + e.1 % 64 * 4 := rfl
  omega

/-! What a tile's blocks do is seen on the blocks' pages alone. -/

theorem chPage_block {t : Fin 16} {b c : Nat} (hb : b < 16) (h : c / 256 = t.val * 16 + b) : chPage c = pgBLOCK t b := by
  have tile : c / 4096 % 16 = t := by omega
  have block : c / 256 % 16 = b := by omega
  rw [chPage, chBlock, tile, block]

theorem State.sameReg_disarm {q o c : Nat} (ho : o < 4096) (h : q ≠ chPage c) (s : State) : s.SameReg (s.disarm c) q o := by
  have off : (chReg Reg.BLOCK.CH_STAT_HIGH c).off = 0xC00 + c % 256 * 4 := rfl
  exact State.SameReg.trans (t := s.setChan c _) (.of rfl rfl q o) (State.sameReg_put_page h ho (by omega) _ _)

theorem State.sameReg_blockTo {t : Fin 16} {b q o : Nat} (ho : o < 4096) (hb : b < 16) (h : q ≠ pgBLOCK t b) (s : State)
    (st : Nat) : s.SameReg (s.blockTo t b st) q o := by
  have disarms (u : State) : u.SameReg (u.disarmAll (fun c => c / 256 == t.val * 16 + b)) q o := by
    refine .each (fun v c hc => State.sameReg_disarm ho ?_ v) u
    rwa [chPage_block hb (by simpa using (List.mem_filter.1 hc).2)]
  have off (u : State) : u.SameReg (u.blockOff t b) q o :=
    ((State.sameReg_resetPages ho (by omega) u).trans (State.sameReg_put_page h ho (by decide) _ _)).trans (.of rfl rfl q o)
  unfold State.blockTo
  extract_lets now v w
  have hv : s.SameReg v q o := .ite (disarms s) (.refl s q o)
  have hw : v.SameReg w q o := .ite (off v) (.refl v q o)
  exact (hv.trans hw).trans (State.sameReg_put_page h ho (by decide) w st)

theorem State.sameReg_followBlocks {t : Fin 16} {q o : Nat} (ho : o < 4096) (h : ∀ b < 16, q ≠ pgBLOCK t b) (s : State) :
    s.SameReg (s.followBlocks t) q o :=
  .each (fun u b hb => State.sameReg_blockTo ho (List.mem_range.1 hb) (h b (List.mem_range.1 hb)) u _) s

theorem State.sameReg_showPort {t : Fin 16} {q o : Nat} (ho : o < 4096) (h : q ≠ pgPORTS t) (s : State) (c : Conc) :
    s.SameReg (s.showPort t c) q o := State.sameReg_put_page h ho (by cases c <;> decide) s _

/-! The power-up of R471 in three steps: the self-test, the fill and load, and what follows the tile's new state. -/

/-- The tile is powered and self-tested (R323, R340). -/
def State.tileTested (s : State) (t : Fin 16) (ok : Bool) (why : Nat) : State :=
  let s := s.setTile t { s.tile t with
    power := .on, testHeld := !ok && !s.bitAt pgINTG Reg.INTG.ST_CTRL_TILE_OVR t.val, absent := true, halted := true,
    settled := false, acquiring := true, reload := true, reasons := Nat.lor (s.tile t).reasons why }
  let st := s.stored pgINTG Reg.INTG.ST_STAT_TILE
  (s.put pgINTG Reg.INTG.ST_STAT_TILE
    (if ok then Nat.lor st (2 ^ t.val) else st - (if st.testBit t.val then 2 ^ t.val else 0))).eventIf (!ok) pgINTG 28

/-- The tile is filled and loaded, with a ceiling. -/
def State.tileFilled (s : State) (t : Fin 16) (ceil : Nat) : State :=
  let s := (((s.clearTileBuckets t).loadClassK (pgTILE t) (pgTILE t + 0x100)).loadSettings (pgTILE t)
    (pgTILE t + 0x100)).reloadTile t
  let s := s.put (pgTILE t) Reg.HDR.PWR_STATE_CEIL ceil
  s.putB (pgAFE t) Reg.AFE.GATE_STATUS_OPEN (s.gateOpen t (s.now * 64))

/-- The blocks follow the tile, and the registers that show it. -/
def State.tileFollowed (s : State) (t : Fin 16) : State :=
  (((s.followBlocks t).showPort t .a).showPort t .b).showPg.showDies

theorem State.raiseTile_eq (s : State) (t : Fin 16) (ok : Bool) (why : Nat) :
    s.raiseTile t ok why =
      let u := (s.tileTested t ok why).tileFilled t (s.stored (pgTILE t) Reg.HDR.PWR_STATE_CEIL)
      (u.put (pgTILE t) Reg.HDR.PWR_STATE_STATE
        (if !ok && !s.bitAt pgINTG Reg.INTG.ST_CTRL_TILE_OVR t.val then min 1 (u.effCeil (pgTILE t))
         else nextPower 1 (u.effCeil (pgTILE t)))).tileFollowed t := rfl

/-! The self-test. -/

theorem State.tileTested_tile (s : State) (t : Fin 16) (ok : Bool) (why : Nat) :
    (s.tileTested t ok why).tile t =
      { s.tile t with power := .on, testHeld := !ok && !s.bitAt pgINTG Reg.INTG.ST_CTRL_TILE_OVR t.val, absent := true,
                      halted := true, settled := false, acquiring := true, reload := true,
                      reasons := Nat.lor (s.tile t).reasons why } := by
  simp only [State.tileTested, State.eventIf_tile, State.put_tile, State.setTile_tile_same]

theorem State.tileTested_tile_ne {t u : Fin 16} (h : u ≠ t) (s : State) (ok : Bool) (why : Nat) :
    (s.tileTested t ok why).tile u = s.tile u := by
  simp only [State.tileTested, State.eventIf_tile, State.put_tile, State.setTile_tile_ne h]

theorem State.sameReg_tileTested {q o : Nat} (ho : o < 4096) (h : q ≠ pgINTG) (s : State) (t : Fin 16) (ok : Bool) (why : Nat) :
    s.SameReg (s.tileTested t ok why) q o :=
  (State.SameReg.of (State.setTile_regs s t _) (State.setTile_stale s t _) q o).trans
    ((State.sameReg_put_page h ho (by decide) _ _).trans (State.sameReg_eventIf (regKey_ne_page h ho (by decide)) _ _ _))

/-- A bit of a number set, or cleared where it is set. -/
theorem testBit_setOrClear (n i : Nat) (b : Bool) :
    (if b then Nat.lor n (2 ^ i) else n - (if n.testBit i then 2 ^ i else 0)).testBit i = b := by
  cases b
  · by_cases h : n.testBit i = true
    · have odd : n / 2 ^ i % 2 = 1 := by simpa [Nat.testBit_eq_decide_div_mod_eq] using h
      have less : (n - 2 ^ i) / 2 ^ i = n / 2 ^ i - 1 := by simpa using Nat.sub_mul_div n (2 ^ i) 1
      simp [h, Nat.testBit_eq_decide_div_mod_eq, less]
      omega
    · simp [h]
  · exact (Nat.testBit_lor n (2 ^ i) i).trans (by simp)

theorem State.tileTested_passes (s : State) (t : Fin 16) (ok : Bool) (why : Nat) :
    ((s.tileTested t ok why).stored pgINTG Reg.INTG.ST_STAT_TILE).testBit t.val = ok := by
  have event : regKey pgINTG Reg.INTG.ST_STAT_TILE.off ≠ regKey pgINTG Reg.HDR.EVT_PENDING.off := by decide
  unfold State.tileTested
  extract_lets _ u st
  have width : t.val < Reg.INTG.ST_STAT_TILE.hi - Reg.INTG.ST_STAT_TILE.lo + 1 := t.isLt
  rw [(State.sameReg_eventIf event _ _ _).stored, State.stored_put_same (by decide) (by decide), Nat.testBit_mod_two_pow,
    testBit_setOrClear, decide_eq_true width, Bool.true_and]

theorem State.tileTested_event (s : State) (t : Fin 16) (why : Nat) :
    ((s.tileTested t false why).rd pgINTG Reg.HDR.EVT_PENDING.off).getLsbD 28 = true := State.event_pends (by decide) _ _

/-! The fill, and what follows. -/

/-- Every part of the state but the tiles, as a mask of `State.Only`. -/
def notTiles : Nat := 2 ^ 45 - 1 - 2 ^ 8

theorem State.Only.tile {s t : State} (h : s.Only notTiles t) (u : Fin 16) : t.tile u = s.tile u :=
  congrArg (fun v : Vector Tile 16 => v[u]) (h.tiles (by decide))

theorem State.tileFilled_tile (s : State) (t u : Fin 16) (ceil : Nat) : (s.tileFilled t ceil).tile u = s.tile u :=
  State.Only.tile (State.putB_only (State.put_only (State.reloadTile_only (State.loadSettings_only (State.loadClassK_only
    (State.clearTileBuckets_only (.refl s) t (by decide)) _ _ (by decide)) _ _ (by decide)) t (by decide))
    _ _ _ (by decide)) _ _ _ (by decide)) u

theorem State.tileFollowed_tile (s : State) (t u : Fin 16) : (s.tileFollowed t).tile u = s.tile u :=
  State.Only.tile (State.showDies_only (State.showPg_only (State.showPort_only (State.showPort_only
    (State.followBlocks_only (.refl s) t (by decide)) t .a (by decide)) t .b (by decide)) (by decide)) (by decide)) u

/-- The fill changes no register of the belfry but the levels of the tile's buckets. -/
theorem State.sameReg_tileFilled {q o : Nat} (hq : q < 0x100) (ho : o < 0x100) (hk : classKReg q o = false) (s : State)
    (t : Fin 16) (ceil : Nat) : s.SameReg (s.tileFilled t ceil) q o := by
  have o4 : o < 4096 := by omega
  have below : q < pgTILE t := by unfold pgTILE; omega
  exact ((((State.sameReg_clearTileBuckets o4 (.inr ho) s).trans (State.sameReg_loadClassK o4 hk _ _ _)).trans
    (State.sameReg_loadSettings o4 (.inl below) _)).trans (State.sameReg_reloadTile o4 (by unfold pgTDC; omega) _)).trans
    ((State.sameReg_put_page (by omega) o4 (by decide) _ _).trans
      (State.sameReg_put_page (by unfold pgAFE; omega) o4 (by decide) _ _))

/-- The tile comes back with the ceiling it was given, stored and in force. -/
theorem State.tileFilled_ceil (s : State) (t : Fin 16) {ceil : Nat} (h : ceil < 4) :
    (s.tileFilled t ceil).stored (pgTILE t) Reg.HDR.PWR_STATE_CEIL = ceil ∧ (s.tileFilled t ceil).ceil (pgTILE t) = ceil := by
  have gate (u : State) (b : Bool) : u.SameReg (u.putB (pgAFE t) Reg.AFE.GATE_STATUS_OPEN b) (pgTILE t) Reg.HDR.PWR_STATE_CEIL.off :=
    State.sameReg_put_page (by unfold pgAFE; omega) (by decide) (by decide) u _
  constructor
  · exact (gate _ _).stored.trans
      ((State.stored_put_same (by decide) (by decide) _ _ _).trans (Nat.mod_eq_of_lt h))
  · exact (gate _ _).fld.trans
      ((State.fld_put_same (by decide) (by decide) _ _ _).trans (Nat.mod_eq_of_lt h))

theorem State.sameReg_tileFollowed {t : Fin 16} {q o : Nat} (ho : o < 4096) (h : q = pgTILE t ∨ q = pgINTG) (s : State) :
    s.SameReg (s.tileFollowed t) q o := by
  have pages : (∀ b < 16, q ≠ pgBLOCK t b) ∧ q ≠ pgPORTS t ∧ q ≠ pgPWR ∧ q ≠ pgMOD := by
    simp only [pgBLOCK, pgPORTS, pgTILE, pgPWR, pgMOD, pgINTG] at h ⊢
    exact ⟨fun b hb => by omega, by omega⟩
  obtain ⟨block, ports, pwr, mod⟩ := pages
  exact ((((State.sameReg_followBlocks ho block s).trans (State.sameReg_showPort ho ports _ .a)).trans
    (State.sameReg_showPort ho ports _ .b)).trans (State.sameReg_showPg pwr ho _)).trans (State.sameReg_showDies mod ho _)

/-- What TILE_POWER_UP leaves of the tile, of its tiller and of the belfry's record of its self-test. -/
structure State.TileRaised (s t : State) (tl : Fin 16) (ok : Bool) (why : Nat) (held : Bool) : Prop where
  tile : t.tile tl = { s.tile tl with power := .on, testHeld := held, absent := true, halted := true, settled := false,
                                      acquiring := true, reload := true, reasons := Nat.lor (s.tile tl).reasons why }
  pwr : t.pwr (pgTILE tl) = (if held then 1 else min 2 (s.effCeil (pgTILE tl)))
  ceil : t.stored (pgTILE tl) Reg.HDR.PWR_STATE_CEIL = s.stored (pgTILE tl) Reg.HDR.PWR_STATE_CEIL
  passes : (t.stored pgINTG Reg.INTG.ST_STAT_TILE).testBit tl.val = ok
  event : ok = false → (t.rd pgINTG Reg.HDR.EVT_PENDING.off).getLsbD 28 = true
  others : ∀ u, u ≠ tl → t.tile u = s.tile u

theorem nextPower_keep {c : Nat} (h : 1 ≤ c) : nextPower 1 c = min 2 c := by
  unfold nextPower
  split_ifs <;> omega

theorem State.raiseTile_raised {s : State} {t : Fin 16} (h1 : 1 ≤ s.effCeil (pgTILE t))
    (hc : s.ceil (pgTILE t) = s.stored (pgTILE t) Reg.HDR.PWR_STATE_CEIL) (ok : Bool) (why : Nat) :
    s.TileRaised (s.raiseTile t ok why) t ok why (!ok && !s.bitAt pgINTG Reg.INTG.ST_CTRL_TILE_OVR t.val) := by
  rw [State.raiseTile_eq]
  extract_lets u
  generalize hheld : (!ok && !s.bitAt pgINTG Reg.INTG.ST_CTRL_TILE_OVR t.val) = held
  have intg (n o : Nat) (ho : o < 0x100) (hk : classKReg pgINTG o = false) :
      (s.tileTested t ok why).SameReg ((u.put (pgTILE t) Reg.HDR.PWR_STATE_STATE n).tileFollowed t) pgINTG o :=
    ((State.sameReg_tileFilled (by decide) ho hk _ t _).trans
      (State.sameReg_put_page (by unfold pgINTG pgTILE; omega) (by omega) (by decide) u n)).trans
      (State.sameReg_tileFollowed (by omega) (.inr rfl) _)
  have tiles (n : Nat) (v : Fin 16) : ((u.put (pgTILE t) Reg.HDR.PWR_STATE_STATE n).tileFollowed t).tile v =
      (s.tileTested t ok why).tile v := by
    rw [State.tileFollowed_tile, State.put_tile, State.tileFilled_tile]
  obtain ⟨stored, inForce⟩ : u.stored (pgTILE t) Reg.HDR.PWR_STATE_CEIL = s.stored (pgTILE t) Reg.HDR.PWR_STATE_CEIL ∧
      u.ceil (pgTILE t) = s.stored (pgTILE t) Reg.HDR.PWR_STATE_CEIL :=
    (s.tileTested t ok why).tileFilled_ceil t (s.storedCeil_lt (pgTILE t))
  have module : s.SameReg u pgMOD Reg.HDR.PWR_STATE_CEIL.off :=
    (State.sameReg_tileTested (by decide) (by decide) s t ok why).trans
      (State.sameReg_tileFilled (by decide) (by decide) (by decide) _ t _)
  have eff : u.effCeil (pgTILE t) = s.effCeil (pgTILE t) := by
    have same : u.ceil pgMOD = s.ceil pgMOD := module.fld
    rw [State.effCeil_tile, State.effCeil_tile, hc, inForce, same]
  have follows (n : Nat) (f : FieldRef) (hf : f.off < 4096) :=
    (State.sameReg_tileFollowed (t := t) hf (.inl rfl) (u.put (pgTILE t) Reg.HDR.PWR_STATE_STATE n)).stored
  refine ⟨?_, ?_, ?_, ?_, ?_, ?_⟩
  · rw [tiles, State.tileTested_tile, hheld]
  · rw [State.pwr, follows _ Reg.HDR.PWR_STATE_STATE (by decide)]
    refine (State.pwr_put_same ..).trans ?_
    rw [eff, nextPower_keep h1]
    split_ifs <;> omega
  · rw [follows _ Reg.HDR.PWR_STATE_CEIL (by decide), State.storedCeil_put_state, stored]
  · rw [(intg _ Reg.INTG.ST_STAT_TILE.off (by decide) (by decide)).stored, State.tileTested_passes]
  · rintro rfl
    rw [(intg _ Reg.HDR.EVT_PENDING.off (by decide) (by decide)).1, State.tileTested_event]
  · intro v hv
    rw [tiles, State.tileTested_tile_ne hv]

/-- A tile that may be powered is, once all four groups are, where every word it is loaded from can be read. -/
theorem State.tilePowerUp_eq {s : State} {t : Fin 16} (hm : s.tileMayPower t = true) (hg : s.pow.groups = 4) (ok : Bool) :
    s.tilePowerUp t { ok := ok } = s.raiseTile t ok 10 := by
  have on : s.pow.mode = .on := by
    simp only [State.tileMayPower, Bool.and_eq_true, beq_iff_eq] at hm
    exact hm.1.2
  simp [State.tilePowerUp, hm, hg, State.powerTile, State.loadMram, State.readMram, on]

/-- Settles O35. A tiller's idle expiry moves it and those under it one by one; the power-up goes through the self-test, the fill
and what follows; the power removal returns the tile's pages to reset and drops the rest of its content. The premise on the words
of the class K image is not needed: such an image loads no register that the clause speaks of (`State.sameReg_loadClassK`). -/
theorem tillersChangePower : Obligations.TillersChangePower := by
  unfold Obligations.TillersChangePower
  refine ⟨?_, ?_, ?_⟩
  · intro s page hp h k
    have only : s.Only 24 (s.idleExpiry page.toNat) := State.idleExpiry_only (.refl s) page.toNat (by decide)
    refine ⟨_, exec_idleExpiry hp page, ?_, ?_, fun q hq => ?_, fun q o ho hqo => ?_, only.changes (by decide)⟩
    all_goals rw [State.idleExpiry_eq h k]
    · rw [State.pwr_each_toListen, if_pos List.mem_cons_self, h]; rfl
    · exact State.ceil_each_toListen ..
    · rw [State.pwr_each_toListen, if_pos (List.mem_cons_of_mem _ hq)]
    · exact .each (fun u p hpl => State.sameReg_toListen (fun e => hqo (List.mem_map.2 ⟨p, hpl, e.symm⟩)) ho u) s
  · intro s tl ok held hon hg h7 hoff h1 hc hfault hhot _
    have powered : s.powered = true := by simp [State.powered, hon]
    have may : s.tileMayPower tl = true := by
      simp only [State.tileMayPower, State.bitAt, hoff, hfault, hhot, hon, h1, h7]
      decide
    have raised := State.raiseTile_raised h1 hc ok 10
    refine ⟨_, exec_tilePowerUp powered tl _, ?_⟩
    rw [State.tilePowerUp_eq may hg]
    exact ⟨raised.tile, raised.pwr, raised.ceil, raised.passes, raised.event, raised.others⟩
  · intro s tl lost hp hl hn hd
    have page : pgTILE tl ≠ pgPWR := (pgPWR_lt_pgTILE tl).ne'
    refine ⟨_, exec_tilePowerRemoval_drained hp hl hn hd, ?_, ?_, ?_, ?_, ?_, ?_, ?_, ?_⟩
    · rw [State.showPg_tile, State.tileLost_tile]
    · intro c hc
      rw [State.showPg_chan, State.showPg_tac]
      exact State.tileLost_chan hc s .off
    · intro c hc
      rw [State.showPg_chan, State.showPg_tac]
      exact State.tileLost_chan_ne hc s .off
    · exact (State.sameReg_powerRemoved page (by decide) s tl).stored.trans (s.tilePagesLost_ceil tl)
    · exact (State.sameReg_powerRemoved page (by decide) s tl).stored.trans (s.tilePagesLost_pwr tl)
    · intro q o ho hql hqh hne
      have inside : q ≠ pgPWR := by have := pgPWR_lt_pgTILE tl; omega
      exact (State.sameReg_powerRemoved inside ho s tl).1.trans (State.tilePagesLost_rd ho hql hqh hne s)
    · intro q o ho hpwr hout
      exact (State.sameReg_tilePagesLost ho hout s).trans (State.sameReg_powerRemoved hpwr ho s tl)
    · intro u hu
      rw [State.showPg_tile, State.tileLost_tile_ne hu]

end Sys2Proof.Machine
end

section
/-!
PROOFS. The family of the channel front end, its ground: registers that an update leaves as they are, and what the updates of a
channel, of a tile and of a tiller's state leave.
-/

namespace Sys2Proof.Machine

/-! ### Registers that updates leave as they are -/

/-- The registers of which `P` does not hold are as before, stored and in force. -/
structure State.RegsBut (P : Nat → Nat → Prop) (s t : State) : Prop where
  same : ∀ q o, o < 4096 → ¬P q o → s.SameReg t q o

section

variable {P Q : Nat → Nat → Prop} {s t u : State}

theorem State.RegsBut.refl (s : State) : s.RegsBut P s := ⟨fun q o _ _ => .refl s q o⟩

theorem State.RegsBut.trans (h : s.RegsBut P t) (k : t.RegsBut P u) : s.RegsBut P u :=
  ⟨fun q o ho hp => (h.same q o ho hp).trans (k.same q o ho hp)⟩

theorem State.RegsBut.mono (h : s.RegsBut P t) (k : ∀ q o, P q o → Q q o) : s.RegsBut Q t :=
  ⟨fun q o ho hq => h.same q o ho (hq ∘ k q o)⟩

theorem State.RegsBut.of (h : t.regs = s.regs) (k : t.stale = s.stale) : s.RegsBut P t := ⟨fun q o _ _ => .of h k q o⟩

theorem State.RegsBut.ite {c : Prop} [Decidable c] (h : s.RegsBut P t) (k : s.RegsBut P u) :
    s.RegsBut P (if c then t else u) := by split <;> assumption

theorem State.RegsBut.each {α : Type} {l : List α} {f : State → α → State}
    (h : ∀ (u : State) (a : α), a ∈ l → u.RegsBut P (f u a)) (s : State) : s.RegsBut P (s.each l f) :=
  State.each_keeps (P := fun t => s.RegsBut P t) (fun t a ha k => k.trans (h t a ha)) (.refl s)

/-- A register of which `P` holds is not one of which it does not. -/
theorem regKey_ne_of {p q a o : Nat} (h : P p a) (hp : ¬P q o) (ha : a < 4096) (ho : o < 4096) : regKey q o ≠ regKey p a :=
  regKey_ne (by rintro ⟨⟩; exact hp h) ho ha

theorem State.regsBut_put {p : Nat} {f : FieldRef} (h : P p f.off) (hf : f.off < 4096) (s : State) (v : Nat) :
    s.RegsBut P (s.put p f v) := ⟨fun _ _ ho hp => State.sameReg_put (regKey_ne_of h hp hf ho) s v⟩

theorem State.regsBut_putB {p : Nat} {f : FieldRef} (h : P p f.off) (hf : f.off < 4096) (s : State) (b : Bool) :
    s.RegsBut P (s.putB p f b) := State.regsBut_put h hf s b.toNat

theorem State.regsBut_bump {p : Nat} {f : FieldRef} (h : P p f.off) (k : P p Reg.HDR.COUNTER_OVF.off) (hf : f.off < 4096)
    (s : State) (b n : Nat) : s.RegsBut P (s.bump p f b n) :=
  ⟨fun _ _ ho hp => State.sameReg_bump (regKey_ne_of h hp hf ho) (regKey_ne_of k hp (by decide) ho) s b n⟩

theorem State.regsBut_event {p : Nat} (h : P p Reg.HDR.EVT_PENDING.off) (s : State) (b : Nat) : s.RegsBut P (s.event p b) :=
  ⟨fun _ _ ho hp => State.sameReg_event (regKey_ne_of h hp (by decide) ho) s b⟩

theorem State.regsBut_wake {p : Nat} (h : P p Reg.HDR.PWR_STATE_STATE.off) (s : State) : s.RegsBut P (s.wake p) :=
  .ite (State.regsBut_put h (by decide) s 3) (.refl s)

theorem State.regsBut_setChan (s : State) (c : Nat) (v : Chan) : s.RegsBut P (s.setChan c v) :=
  .of (State.setChan_regs ..) (State.setChan_stale ..)

theorem State.regsBut_setTile (s : State) (t : Fin 16) (v : Tile) : s.RegsBut P (s.setTile t v) :=
  .of (State.setTile_regs ..) (State.setTile_stale ..)

theorem State.regsBut_setPort (s : State) (t : Fin 16) (c : Conc) (v : Port) : s.RegsBut P (s.setPort t c v) :=
  .of (State.setPort_regs ..) (State.setPort_stale ..)

theorem State.regsBut_advance (s : State) (n : Nat) : s.RegsBut P (s.advance n) :=
  .of (State.advance_regs ..) (State.advance_stale ..)

theorem State.RegsBut.stored {q : Nat} {f : FieldRef} (h : s.RegsBut P t) (hp : ¬P q f.off) (hf : f.off < 4096) :
    t.stored q f = s.stored q f := (h.same q f.off hf hp).stored

theorem State.RegsBut.fld {q : Nat} {f : FieldRef} (h : s.RegsBut P t) (hp : ¬P q f.off) (hf : f.off < 4096) :
    t.fld q f = s.fld q f := (h.same q f.off hf hp).fld

theorem State.RegsBut.flag {q : Nat} {f : FieldRef} (h : s.RegsBut P t) (hp : ¬P q f.off) (hf : f.off < 4096) :
    t.flag q f = s.flag q f := congrArg (· != 0) (h.fld hp hf)

end

/-! ### Counters, channels and tiles -/

/-- A counter that stays below its maximum is written, and nothing overflows. -/
theorem State.bump_eq_put {s : State} {p n : Nat} {f : FieldRef} (h : s.stored p f + n < 2 ^ (f.hi - f.lo + 1)) (b : Nat) :
    s.bump p f b n = s.put p f (s.stored p f + n) := if_pos h

/-- A counter of an array, below its maximum. -/
theorem State.stored_bump_nth {f : FieldRef} (h : f.lo ≤ f.hi) (k : f.hi < 32) {s : State} {p i n : Nat}
    (l : s.stored p (f.nth i) + n < 2 ^ (f.hi - f.lo + 1)) (b : Nat) :
    (s.bump p (f.nth i) b n).stored p (f.nth i) = s.stored p (f.nth i) + n := State.stored_bump_below (f := f.nth i) h k l b

theorem State.setChan_chan_ne {c d : Nat} (h : d ≠ c) (s : State) (v : Chan) : (s.setChan c v).chan d = s.chan d :=
  mapGetD_mapPutD_ne h ..

theorem State.setTile_setTile (s : State) (t : Fin 16) (v w : Tile) : (s.setTile t v).setTile t w = s.setTile t w := by
  simp [State.setTile]

theorem State.Only.chan {L : Nat} {s t : State} (h : s.Only L t) (c : Nat) (k : L.testBit 7 = false := by decide) :
    t.chan c = s.chan c := congrArg (mapGetD ({} : Chan) c) (h.chans k)

theorem State.Only.sameTile {L : Nat} {s t : State} (h : s.Only L t) (u : Fin 16) (k : L.testBit 8 = false := by decide) :
    t.tile u = s.tile u := congrArg (fun v : Vector Tile 16 => v[u]) (h.tiles k)

theorem State.flag_put_apart {f g : FieldRef} (e : g.off = f.off) (h : f.lo ≤ f.hi) (k : f.hi < 32) (hg : g.lo ≤ g.hi)
    (kg : g.hi < 32) (a : f.hi < g.lo ∨ g.hi < f.lo) (s : State) (p v : Nat) : (s.put p f v).flag p g = s.flag p g :=
  congrArg (· != 0) (State.fld_put_apart e h k hg kg a s p v)

/-! ### A channel's registers -/

theorem chReg_off (f : FieldRef) (c : Nat) : (chReg f c).off = f.off + c % 256 * 4 := rfl

theorem chReg_off_lt {f : FieldRef} (h : f.off ≤ 0xC00 := by decide) (c : Nat) : (chReg f c).off < 4096 := by
  rw [chReg_off]; omega

theorem State.chFlag_putCh_same {f : FieldRef} (h : f.lo ≤ f.hi) (k : f.hi < 32) (s : State) (c : Nat) (b : Bool) :
    (s.putCh c f b).chFlag c f = b := State.flag_putB_same (f := chReg f c) h k s (chPage c) b

theorem State.chFlag_putCh_apart {f g : FieldRef} (e : g.off = f.off) (h : f.lo ≤ f.hi) (k : f.hi < 32) (hg : g.lo ≤ g.hi)
    (kg : g.hi < 32) (a : f.hi < g.lo ∨ g.hi < f.lo) (s : State) (c : Nat) (b : Bool) :
    (s.putCh c f b).chFlag c g = s.chFlag c g :=
  State.flag_put_apart (f := chReg f c) (g := chReg g c) (congrArg (· + c % 256 * 4) e) h k hg kg a s (chPage c) b.toNat

theorem pgAFE_ne_pgTRIG : ∀ t : Fin 16, pgAFE t ≠ pgTRIG := by decide

theorem chPage_eq (c : Nat) : chPage c = pgTILE (chTile c) + 0x10 + c / 256 % 16 := rfl

end Sys2Proof.Machine
end

section
/-!
PROOFS. The family of the channel front end: leading edges (R29-R31, R35, R38, R39, R44, R47, R61, R64).
-/

namespace Sys2Proof.Machine

theorem exec_leadingEdge {s : State} (h : s.powered = true) (chan : BitVec 16) (x : Crossing) :
    exec (.leadingEdge chan x) s = .next (s.leadingEdge chan.toNat x.tap x.signal) := congrArg Host.Outcome.next (if_pos h)

/-! ### The output rises -/

/-- The registers that the rise of a channel's output writes: its HIGH bit, and PWR_STATE on its path (R17). -/
def riseRegs (c : Nat) : List (Nat × Nat) := (chPage c, (chReg Reg.BLOCK.CH_STAT_HIGH c).off) :: wakeRegs c

theorem not_mem_wakeRegs {q o c : Nat} (h : 0x40 ≤ o) : (q, o) ∉ wakeRegs c := by
  intro m
  obtain ⟨p, -, e⟩ := List.mem_map.1 m
  have : 0x010 = o := congrArg Prod.snd e
  omega

theorem not_mem_riseRegs {q o c : Nat} (h : 0x40 ≤ o) (k : o < 0xC00 ∨ q ≠ chPage c) : (q, o) ∉ riseRegs c := by
  intro m
  rcases List.mem_cons.1 m with e | m
  · obtain ⟨page, off⟩ := Prod.mk.inj e
    exact k.elim (fun k => by rw [off, chReg_off] at k; exact absurd k (by simp [Reg.BLOCK.CH_STAT_HIGH])) (· page)
  · exact not_mem_wakeRegs h m

theorem State.regsBut_wakePath (s : State) (c : Nat) : s.RegsBut (fun q o => (q, o) ∈ wakeRegs c) (s.wakePath c) :=
  ((State.regsBut_wake List.mem_cons_self s).trans
    (State.regsBut_wake (List.mem_cons_of_mem _ List.mem_cons_self) _)).trans
    (State.regsBut_wake (List.mem_cons_of_mem _ (List.mem_cons_of_mem _ List.mem_cons_self)) _)

/-- HIGH is set and the tillers on the channel's path move on: the other bits of CH_STAT stay. -/
def State.outputHigh (s : State) (c : Nat) : State := (s.putCh c Reg.BLOCK.CH_STAT_HIGH true).wakePath c

theorem State.regsBut_outputHigh (s : State) (c : Nat) : s.RegsBut (fun q o => (q, o) ∈ riseRegs c) (s.outputHigh c) :=
  (State.regsBut_putB List.mem_cons_self (chReg_off_lt (by decide) c) s true).trans
    ((State.regsBut_wakePath _ c).mono fun _ _ => List.mem_cons_of_mem _)

theorem State.outputHigh_only (s : State) (c : Nat) : s.Only 24 (s.outputHigh c) :=
  State.wakePath_only (State.putCh_only (.refl s) c _ true (by decide)) c (by decide)

theorem State.outputHigh_chan (s : State) (c d : Nat) : (s.outputHigh c).chan d = s.chan d :=
  (s.outputHigh_only c).chan d

theorem State.outputHigh_isMasked (s : State) (c : Nat) : (s.outputHigh c).isMasked c = s.isMasked c := by
  have off : (chReg Reg.BLOCK.CH_CFG_MASK c).off = 0x400 + c % 256 * 4 := rfl
  exact (s.regsBut_outputHigh c).flag (not_mem_riseRegs (by omega) (.inl (by omega))) (by omega)

theorem State.wakePath_chFlag {f : FieldRef} (h : 0x40 ≤ f.off) (k : f.off ≤ 0xC00) (s : State) (c : Nat) :
    (s.wakePath c).chFlag c f = s.chFlag c f :=
  (State.regsBut_wakePath s c).flag (not_mem_wakeRegs (by rw [chReg_off]; omega)) (chReg_off_lt k c)

theorem State.outputHigh_isSelfMasked (s : State) (c : Nat) : (s.outputHigh c).isSelfMasked c = s.isSelfMasked c :=
  (State.wakePath_chFlag (by decide) (by decide) _ c).trans
    (State.chFlag_putCh_apart (f := Reg.BLOCK.CH_STAT_HIGH) (g := Reg.BLOCK.CH_STAT_SMASK) rfl
      (by decide) (by decide) (by decide) (by decide) (by decide) s c true)

theorem State.outputHigh_isHigh (s : State) (c : Nat) : (s.outputHigh c).isHigh c = true :=
  (State.wakePath_chFlag (by decide) (by decide) _ c).trans (State.chFlag_putCh_same (by decide) (by decide) s c true)

/-- The stuck timer of an unmasked channel starts as its output rises (R39). -/
theorem State.riseOutput_eq (s : State) (c t : Nat) :
    s.riseOutput c t = if (s.isMasked c || s.isSelfMasked c) = true then s.outputHigh c
      else (s.outputHigh c).setChan c { s.chan c with stuckFrom := some t } := by
  rw [← s.outputHigh_isMasked, ← s.outputHigh_isSelfMasked, ← s.outputHigh_chan c c]
  rfl

/-- What the rise of channel `c`'s output at tap-time `t` leaves. -/
structure State.Risen (s r : State) (c t : Nat) : Prop where
  now : r.now = max s.now (t / 64)
  parts : s.Only 153 r
  regs : s.RegsBut (fun q o => (q, o) ∈ riseRegs c) r
  high : r.isHigh c = true
  timer : s.isSelfMasked c = false → s.isMasked c = false → (r.chan c).stuckFrom = some t
  same : ∃ x, r.chan c = { s.chan c with stuckFrom := x }
  others : ∀ d, d ≠ c → r.chan d = s.chan d

theorem State.risen (s : State) (c t : Nat) : s.Risen ((s.advance (t / 64)).riseOutput c t) c t := by
  have adv : s.RegsBut (fun q o => (q, o) ∈ riseRegs c) (s.advance (t / 64)) := State.regsBut_advance s _
  have self : (s.advance (t / 64)).isSelfMasked c = s.isSelfMasked c := by simp [State.isSelfMasked, State.chFlag, State.chFld]
  have mask : (s.advance (t / 64)).isMasked c = s.isMasked c := by simp [State.isMasked, State.chFlag, State.chFld]
  have only : s.Only 153 ((s.advance (t / 64)).riseOutput c t) :=
    State.riseOutput_only (State.advance_only (.refl s) _ (by decide)) c t (by decide)
  have chan : (s.advance (t / 64)).chan c = s.chan c := State.advance_chan ..
  rw [State.riseOutput_eq, self, mask, chan] at only ⊢
  split_ifs at only ⊢ with masked
  · refine ⟨((State.outputHigh_only _ c).now (by decide)), only, adv.trans (State.regsBut_outputHigh _ c),
      State.outputHigh_isHigh _ c, fun h k => ?_, ⟨(s.chan c).stuckFrom, State.outputHigh_chan _ c c⟩,
      fun d _ => State.outputHigh_chan _ c d⟩
    rw [h, k] at masked
    exact absurd masked (by decide)
  · refine ⟨(State.setChan_now ..).trans ((State.outputHigh_only _ c).now (by decide)), only,
      (adv.trans (State.regsBut_outputHigh _ c)).trans (State.regsBut_setChan ..), ?_, fun _ _ => ?_, ⟨some t, ?_⟩, fun d hd => ?_⟩
    · exact (State.setChan_flag ..).trans (State.outputHigh_isHigh _ c)
    · rw [State.setChan_chan_same]
    · rw [State.setChan_chan_same]
    · exact (State.setChan_chan_ne hd _ _).trans (State.outputHigh_chan _ c d)

theorem State.Risen.stored {s r : State} {c t q : Nat} {f : FieldRef} (h : s.Risen r c t) (hl : 0x40 ≤ f.off)
    (hf : f.off < 4096) (k : f.off < 0xC00 ∨ q ≠ chPage c) : r.stored q f = s.stored q f :=
  h.regs.stored (not_mem_riseRegs hl k) hf

theorem State.Risen.fld {s r : State} {c t q : Nat} {f : FieldRef} (h : s.Risen r c t) (hl : 0x40 ≤ f.off)
    (hf : f.off < 0xC00) : r.fld q f = s.fld q f := h.regs.fld (not_mem_riseRegs hl (.inl hf)) (by omega)

theorem State.Risen.hits {s r : State} {c t : Nat} (h : s.Risen r c t) : (r.chan c).hits = (s.chan c).hits := by
  obtain ⟨x, same⟩ := h.same
  rw [same]

theorem State.Risen.tile {s r : State} {c t : Nat} (h : s.Risen r c t) (u : Fin 16) : r.tile u = s.tile u :=
  h.parts.sameTile u

theorem State.Risen.holdTaps {s r : State} {c t : Nat} (h : s.Risen r c t) : r.holdTaps c = s.holdTaps c := by
  have settings (f : FieldRef) (e : f.off = 0x400) : r.chFld c f = s.chFld c f := by
    have off : (chReg f c).off = 0x400 + c % 256 * 4 := congrArg (· + c % 256 * 4) e
    exact h.fld (by omega) (by omega)
  have block : r.fld (chPage c) Reg.BLOCK.BLK_AFE_HOLDOFF = s.fld (chPage c) Reg.BLOCK.BLK_AFE_HOLDOFF :=
    h.fld (by decide) (by decide)
  have override : r.chFlag c Reg.BLOCK.CH_CFG_HO_OVR_EN = s.chFlag c Reg.BLOCK.CH_CFG_HO_OVR_EN :=
    congrArg (· != 0) (settings _ rfl)
  rw [State.holdTaps, State.holdTaps, override, settings Reg.BLOCK.CH_CFG_HO_OVR rfl, block]

/-! ### The fates of an edge -/

theorem plainFate_recorded {c : Chan} {t : Nat} {gate : Bool} {cal : Option Nat} (hold : c.holdEnd ≤ t) (busy : c.busy < 2)
    (h : gate = true ∨ cal.isSome = true) : plainFate c t gate cal = .recorded cal := by
  have out : ¬(!gate && cal.isNone) = true := by
    rcases h with h | h
    · simp [h]
    · simp [Option.isSome_iff_ne_none.1 h]
  rw [plainFate, if_neg (by omega), if_neg out, if_neg (by omega)]

theorem plainFate_closed {c : Chan} {t : Nat} (hold : c.holdEnd ≤ t) : plainFate c t false none = .ignored := by
  rw [plainFate, if_neg (by omega)]; rfl

theorem plainFate_holdoff {c : Chan} {t : Nat} (hold : t < c.holdEnd) (gate : Bool) (cal : Option Nat) :
    plainFate c t gate cal = .pileUp false := if_pos hold

theorem plainFate_busy {c : Chan} {t : Nat} (hold : c.holdEnd ≤ t) (busy : 2 ≤ c.busy) :
    plainFate c t true none = .pileUp true := by
  rw [plainFate, if_neg (by omega), if_neg (by decide), if_pos busy]

/-- The channel records the edges that its gate lets through: unmasked, not blanked, on a tile that records (R35). -/
structure State.Armed (s : State) (c : Nat) : Prop where
  self : s.isSelfMasked c = false
  mask : s.isMasked c = false
  blank : s.isBlanked c = false
  records : s.recording c = true

/-- The fate of an edge at an armed channel is a matter of its injection, if one is in flight. -/
theorem State.Armed.fate {s : State} {c : Nat} (h : s.Armed c) (t : Nat) :
    s.edgeFate c t = match (s.chan c).inj with
      | some i =>
        if !i.hit then
          (if t < i.launch + 32 * 64 then plainFate (s.chan c) t (s.gateOpen (chTile c) t) (some i.launch)
           else plainFate (s.chan c) t (s.gateOpen (chTile c) t) none)
        else if !i.fallen || t < (s.chan c).holdEnd then .ignored
        else plainFate (s.chan c) t (s.gateOpen (chTile c) t) none
      | none => plainFate (s.chan c) t (s.gateOpen (chTile c) t) none := by
  simp only [State.edgeFate, h.self, h.mask, h.blank, h.records]
  rfl

theorem State.Armed.fate_quiet {s : State} {c : Nat} (h : s.Armed c) (hi : (s.chan c).inj = none) (t : Nat) :
    s.edgeFate c t = plainFate (s.chan c) t (s.gateOpen (chTile c) t) none := by rw [h.fate, hi]

/-- The first edge within 32 T_ref of an injection is its calibration hit, whatever the gate (R44). -/
theorem State.Armed.fate_injected {s : State} {c t : Nat} {i : Inject} (h : s.Armed c) (hi : (s.chan c).inj = some i)
    (hh : i.hit = false) (ht : t < i.launch + 32 * 64) :
    s.edgeFate c t = plainFate (s.chan c) t (s.gateOpen (chTile c) t) (some i.launch) := by
  simp only [h.fate, hi, hh, ht, Bool.not_false, if_true]

theorem State.edgeFate_masked {s : State} {c t : Nat} (hs : s.isSelfMasked c = false)
    (h : s.isMasked c = true ∨ s.isBlanked c = true) (hg : s.gateOpen (chTile c) t = true) : s.edgeFate c t = .maskedChaff := by
  have masked : (s.isMasked c || s.isBlanked c) = true := by rcases h with h | h <;> simp [h]
  simp only [State.edgeFate, hs, masked, hg]
  rfl

theorem State.edgeFate_stuck {s : State} {c t : Nat} (hs : s.isSelfMasked c = true) (hg : s.gateOpen (chTile c) t = true) :
    s.edgeFate c t = .stuckChaff := by
  simp only [State.edgeFate, hs, hg]
  rfl

/-! ### What becomes of an edge -/

/-- The register that counts refused edges of a channel for busy capacitors (R64). -/
def busyReg (c : Nat) : FieldRef := Reg.TDC.BUSY_CNT_COUNT.nth (cellInTile c)

theorem busyReg_off (c : Nat) : (busyReg c).off = 0xC00 + c / 16 % 256 * 4 := rfl

theorem chPage_ne_TDC (c : Nat) : chPage c ≠ pgTDC (chTile c) := by
  have page : chPage c = pgTILE (chTile c) + 0x10 + c / 256 % 16 := rfl
  have tdc : pgTDC (chTile c) = pgTILE (chTile c) + 1 := rfl
  omega

theorem chPage_ne_TILE (c : Nat) : chPage c ≠ pgTILE (chTile c) := by
  have page : chPage c = pgTILE (chTile c) + 0x10 + c / 256 % 16 := rfl
  omega

/-- Acting on an edge leaves module time, the other channels, the stuck timer, and CH_STAT of the channel's block. -/
structure State.Acted (r t : State) (c : Nat) : Prop where
  now : t.now = r.now
  stat : r.RegsBut (fun q o => o < 0xC00 ∨ q ≠ chPage c) t
  timer : (t.chan c).stuckFrom = (r.chan c).stuckFrom
  others : ∀ d, d ≠ c → t.chan d = r.chan d

theorem State.acted (r : State) (c t : Nat) (f : EdgeFate) : r.Acted (r.actEdge c t f) c := by
  have chaff (u : Tile) (f : FieldRef) (hf : f.off < 0xC00) (b : Nat) :
      r.Acted ((r.setTile (chTile c) u).bump (pgTILE (chTile c)) f b 1) c :=
    ⟨by simp, (State.regsBut_setTile ..).trans (State.regsBut_bump (.inl hf) (.inl (by decide)) (by omega) ..), by simp, by simp⟩
  have count (u : State) (k : r.Acted u c) : r.Acted (u.bump (pgTDC (chTile c)) (busyReg c) 3 1) c :=
    ⟨(State.bump_now ..).trans k.now, k.stat.trans (State.regsBut_bump (.inr (chPage_ne_TDC c).symm) (.inl (by decide))
      (by rw [busyReg_off]; omega) ..), by rw [State.bump_chan, k.timer], fun d hd => by rw [State.bump_chan, k.others d hd]⟩
  cases f with
  | stuckChaff => exact chaff _ _ (by decide) 1
  | maskedChaff => exact chaff _ _ (by decide) 0
  | ignored => exact ⟨rfl, .refl r, rfl, fun _ _ => rfl⟩
  | recorded cal =>
    refine ⟨State.setChan_now .., State.regsBut_setChan .., ?_, fun d hd => State.setChan_chan_ne hd _ _⟩
    simp only [State.actEdge, State.recordEdge, State.setChan_chan_same]
  | pileUp busy =>
    have piled : r.Acted ((r.setChan c (r.chan c).flagPile).bumpPileup c) c := by
      have off : (chReg Reg.BLOCK.CH_CNT_PILEUP_CNT c).off = 0x800 + c % 256 * 4 := rfl
      refine ⟨by simp [State.bumpPileup], (State.regsBut_setChan ..).trans (State.regsBut_bump (.inl (by omega))
        (.inl (by decide)) (by omega) _ _ _), ?_, fun d hd => ?_⟩
      · simp only [State.bumpPileup, State.bump_chan, State.setChan_chan_same, Chan.flagPile]
      · simp only [State.bumpPileup, State.bump_chan, State.setChan_chan_ne hd]
    cases busy with
    | false => exact piled
    | true => exact count _ piled

theorem State.Acted.isHigh {r t : State} {c : Nat} (h : r.Acted t c) : t.isHigh c = r.isHigh c := by
  have off : (chReg Reg.BLOCK.CH_STAT_HIGH c).off = 0xC00 + c % 256 * 4 := rfl
  exact h.stat.flag (by rw [off]; omega) (by rw [off]; omega)

/-- A hit is recorded with the tap-time, a free capacitor and its hold-off (R30, R61). -/
theorem State.Risen.records {s r : State} {c t : Nat} (h : s.Risen r c t) (cal : Option Nat) :
    ((r.recordEdge c t cal).chan c).hits = (s.chan c).hits ++ [r.newHit c t cal] ∧
      (r.newHit c t cal).cap = (s.chan c).freeCap ∧ (r.newHit c t cal).hold = s.holdTaps c ∧
      (r.newHit c t cal).gen = (s.tile (chTile c)).parity ∧
      ((r.recordEdge c t cal).chan c).holdEnd = t + s.holdTaps c := by
  have hold : (r.newHit c t cal).hold = s.holdTaps c := h.holdTaps
  refine ⟨?_, ?_, hold, congrArg Tile.parity (h.tile _), ?_⟩
  · rw [State.recordEdge, State.setChan_chan_same, h.hits]
  · obtain ⟨x, same⟩ := h.same
    show (r.chan c).freeCap = _
    rw [same]
    rfl
  · rw [State.recordEdge, State.setChan_chan_same, hold]

/-- A refused edge is counted and flags the last hit (R31). -/
theorem State.Risen.piles {s r : State} {c t : Nat} (h : s.Risen r c t)
    (hp : s.stored (chPage c) (chReg Reg.BLOCK.CH_CNT_PILEUP_CNT c) < 65535) :
    (((r.setChan c (r.chan c).flagPile).bumpPileup c).chan c).hits = (s.chan c).flagPile.hits ∧
      ((r.setChan c (r.chan c).flagPile).bumpPileup c).stored (chPage c) (chReg Reg.BLOCK.CH_CNT_PILEUP_CNT c) =
        s.stored (chPage c) (chReg Reg.BLOCK.CH_CNT_PILEUP_CNT c) + 1 ∧
      ((r.setChan c (r.chan c).flagPile).bumpPileup c).stored (pgTDC (chTile c)) (busyReg c) =
        s.stored (pgTDC (chTile c)) (busyReg c) := by
  have off : (chReg Reg.BLOCK.CH_CNT_PILEUP_CNT c).off = 0x800 + c % 256 * 4 := rfl
  have boff := busyReg_off c
  have pile : (r.setChan c (r.chan c).flagPile).stored (chPage c) (chReg Reg.BLOCK.CH_CNT_PILEUP_CNT c) = _ :=
    (State.setChan_stored ..).trans (h.stored (by omega) (by omega) (.inl (by omega)))
  have tdc : (r.setChan c (r.chan c).flagPile).stored (pgTDC (chTile c)) (busyReg c) = _ :=
    (State.setChan_stored ..).trans (h.stored (by omega) (by omega) (.inr (chPage_ne_TDC c).symm))
  refine ⟨?_, ?_, ?_⟩
  · rw [State.bumpPileup, State.bump_chan, State.setChan_chan_same, Chan.flagPile, Chan.flagPile, h.hits]
  · refine (State.stored_bump_nth (f := Reg.BLOCK.CH_CNT_PILEUP_CNT) (by decide) (by decide) ?_ _).trans (congrArg (· + 1) pile)
    show State.stored _ _ (chReg _ _) + 1 < 2 ^ 16
    omega
  · rw [State.bumpPileup, State.stored_bump_ne (regKey_ne_page (chPage_ne_TDC c).symm (by omega) (by omega))
      (regKey_ne_page (chPage_ne_TDC c).symm (by omega) (by decide)), tdc]

/-- With both capacitors busy it counts in BUSY_CNT too (R64). -/
theorem State.Risen.refuses {s r : State} {c t : Nat} (h : s.Risen r c t)
    (hp : s.stored (chPage c) (chReg Reg.BLOCK.CH_CNT_PILEUP_CNT c) < 65535)
    (hb : s.stored (pgTDC (chTile c)) (busyReg c) < 65535) (busy : Bool) :
    ((r.refuseEdge c busy).chan c).hits = (s.chan c).flagPile.hits ∧
      (r.refuseEdge c busy).stored (chPage c) (chReg Reg.BLOCK.CH_CNT_PILEUP_CNT c) =
        s.stored (chPage c) (chReg Reg.BLOCK.CH_CNT_PILEUP_CNT c) + 1 ∧
      (r.refuseEdge c busy).stored (pgTDC (chTile c)) (busyReg c) =
        s.stored (pgTDC (chTile c)) (busyReg c) + busy.toNat := by
  have off : (chReg Reg.BLOCK.CH_CNT_PILEUP_CNT c).off = 0x800 + c % 256 * 4 := rfl
  have boff := busyReg_off c
  obtain ⟨hits, pile, tdc⟩ := h.piles hp
  cases busy with
  | false => exact ⟨hits, pile, tdc⟩
  | true =>
    refine ⟨(congrArg Chan.hits (State.bump_chan ..)).trans hits, ?_, ?_⟩
    · exact (State.stored_bump_ne (f := busyReg c) (regKey_ne_page (chPage_ne_TDC c) (by omega) (by omega))
        (regKey_ne_page (chPage_ne_TDC c) (by omega) (by decide)) ..).trans pile
    · refine (State.stored_bump_nth (f := Reg.TDC.BUSY_CNT_COUNT) (by decide) (by decide) ?_ _).trans (congrArg (· + 1) tdc)
      show State.stored _ _ (busyReg c) + 1 < 2 ^ 16
      omega

/-- Chaff is counted, and no hit recorded (R91). -/
theorem State.Risen.chaff {s r : State} {c t : Nat} (h : s.Risen r c t) {f : FieldRef} (hl : 0x40 ≤ f.off) (hf : f.off < 0xC00)
    (hw : f.lo = 0 ∧ f.hi = 31) (hb : s.stored (pgTILE (chTile c)) f < 2 ^ 32 - 1) (u : Tile) (b : Nat) :
    (((r.setTile (chTile c) u).bump (pgTILE (chTile c)) f b).chan c).hits = (s.chan c).hits ∧
      ((r.setTile (chTile c) u).bump (pgTILE (chTile c)) f b).stored (pgTILE (chTile c)) f =
        s.stored (pgTILE (chTile c)) f + 1 := by
  obtain ⟨lo, hi⟩ := hw
  have before : (r.setTile (chTile c) u).stored (pgTILE (chTile c)) f = s.stored (pgTILE (chTile c)) f :=
    (State.setTile_stored ..).trans (h.stored hl (by omega) (.inl hf))
  constructor
  · rw [State.bump_chan, State.setTile_chan, h.hits]
  · rw [State.stored_bump_below (by omega) (by omega) (by rw [before, lo, hi]; omega), before]

theorem State.leadingEdge_eq {s : State} {c : Nat} {v : Int} (on : s.frontEndOn c = true) (low : s.isHigh c = false)
    (above : (s.threshold c : Int) < s.excursion c v) (t : Nat) :
    s.leadingEdge c t v = ((s.advance (t / 64)).riseOutput c t).actEdge c t (s.edgeFate c t) := by
  simp [State.leadingEdge, on, low, above]

/-- Settles O29. The output rises, which leaves all that decides an edge's fate (`State.risen`); then the fate that the channel's
state gives is acted on. -/
theorem leadingEdgesAreRecordedOrCounted : Obligations.LeadingEdgesAreRecordedOrCounted := by
  unfold Obligations.LeadingEdgesAreRecordedOrCounted
  intro s chan t v c tl free armed hp on low above
  have rise := s.risen c t
  have row := (exec_leadingEdge hp chan ⟨t, v⟩).trans (congrArg _ (State.leadingEdge_eq on low above t))
  generalize (s.advance (t / 64)).riseOutput c t = r at rise row
  have acted := r.acted c t (s.edgeFate c t)
  have isArmed (h : armed) : s.Armed c := ⟨h.1.1, h.1.2, h.2.1, h.2.2⟩
  refine ⟨_, row, acted.isHigh.trans rise.high, acted.now.trans rise.now, fun h => acted.timer.trans (rise.timer h.1 h.2),
    fun d hd => (acted.others d hd).trans (rise.others d hd), ?_, ?_, ?_, ?_, ?_⟩
  · intro cal ha hc hold busy
    have fate : s.edgeFate c t = .recorded cal := by
      rcases hc with ⟨hi, rfl, gate⟩ | ⟨i, hi, hit, blind, rfl⟩
      · exact ((isArmed ha).fate_quiet hi t).trans (plainFate_recorded hold busy (.inl gate))
      · exact ((isArmed ha).fate_injected hi hit blind).trans (plainFate_recorded hold busy (.inr rfl))
    rw [fate]
    obtain ⟨hits, cap, taps, gen, holdEnd⟩ := rise.records cal
    exact ⟨r.newHit c t cal, hits, rfl, rfl, cap, taps, rfl, rfl, rfl, gen, holdEnd,
      (rise.regs.trans (State.regsBut_setChan ..)).same,
      (State.recordEdge_only rise.parts c t cal (by decide)).changes (by decide)⟩
  · intro ha hi shut hold
    have fate : s.edgeFate c t = .ignored := by rw [(isArmed ha).fate_quiet hi, shut, plainFate_closed hold]
    rw [fate]
    exact ⟨rise.hits, rise.regs.same, rise.parts.changes (by decide)⟩
  · intro busy ha hi hb pile count
    have fate : s.edgeFate c t = .pileUp busy := by
      rcases hb with ⟨rfl, hold⟩ | ⟨rfl, hold, gate, full⟩
      · exact ((isArmed ha).fate_quiet hi t).trans (plainFate_holdoff hold _ _)
      · rw [(isArmed ha).fate_quiet hi, gate, plainFate_busy hold full]
    rw [fate]
    exact rise.refuses pile count busy
  · intro self masked gate below
    rw [State.edgeFate_masked self masked gate]
    exact rise.chaff (by decide) (by decide) ⟨rfl, rfl⟩ below _ 0
  · intro self gate below
    rw [State.edgeFate_stuck self gate]
    exact rise.chaff (by decide) (by decide) ⟨rfl, rfl⟩ below _ 1

end Sys2Proof.Machine
end

section
/-!
PROOFS. The family of the channel front end: what a hit still waits for arrives (R31, R32, R62, R66-R68, R71, R72, R81).
-/

namespace Sys2Proof.Machine

/-! ### The rows with the module powered -/

theorem exec_trailingEdge {s : State} (h : s.powered = true) (chan : BitVec 16) (x : Crossing) (took : Nat) :
    exec (.trailingEdge chan x took) s = .next (s.trailingEdge chan.toNat x.tap x.signal took) :=
  congrArg Host.Outcome.next (if_pos h)

theorem exec_totSaturation {s : State} (h : s.powered = true) (chan : BitVec 16) (t took : Nat) :
    exec (.totSaturation chan t took) s = .next (s.totSaturation chan.toNat t took) := congrArg Host.Outcome.next (if_pos h)

theorem exec_adcConversionDone {s : State} (h : s.powered = true) (chan : BitVec 16) (code : Byte) (took : Nat) (read : EccRead) :
    exec (.adcConversionDone chan code took read) s = .next (s.adcDone chan.toNat code took read) :=
  congrArg Host.Outcome.next (if_pos h)

theorem exec_holdoffExpiry {s : State} (h : s.powered = true) (chan : BitVec 16) (t took : Nat) :
    exec (.holdoffExpiry chan t took) s = .next (s.holdoffExpiry chan.toNat t took) := congrArg Host.Outcome.next (if_pos h)

/-! ### A hit that still waits stays -/

/-- The tile collector takes the records of a cell: channels' states are no matter of it. -/
theorem State.collect_chan (s : State) (chan took d : Nat) : (s.collect chan took).chan d = s.chan d :=
  (State.collect_only (L := 344) (.refl s) chan took (by decide)).chan d

/-- Where no hit of the channel is ready, all that happens is that the tile collector takes records of the cell (R81). -/
theorem State.passReady_waits {s : State} {c : Nat} (h : ∀ x ∈ (s.chan c).hits, x.ready = false) (took : Nat) :
    s.passReady c took = (s.collect c took).setChan c (s.chan c) := by
  have keep : (s.chan c).hits.filter (fun x => !x.ready) = (s.chan c).hits :=
    List.filter_eq_self.2 fun x hx => by rw [h x hx]; rfl
  have pass : (s.chan c).hits.filter (fun x => x.ready) = [] :=
    List.filter_eq_nil_iff.2 fun x hx => by rw [h x hx]; exact Bool.false_ne_true
  rw [State.passReady]
  simp only [keep, pass, State.each_nil]

/-- What follows such a step: the channels as they are, and the rest as the collector leaves it. -/
theorem State.passReady_waits_frame {s : State} {c : Nat} (h : ∀ x ∈ (s.chan c).hits, x.ready = false) (took : Nat) :
    (∀ d, (s.passReady c took).chan d = s.chan d) ∧ (s.collect c took).changesOnly [.chans] (s.passReady c took) := by
  rw [State.passReady_waits h]
  refine ⟨fun d => ?_, (State.setChan_only (L := 128) (.refl _) c _ (by decide)).changes (by decide)⟩
  by_cases hd : d = c
  · rw [hd, State.setChan_chan_same]
  · rw [State.setChan_chan_ne hd, State.collect_chan]

/-- One hit of the channel, that waits for its hold-off, its trailing edge or its conversion. -/
theorem State.passReady_waits_one {s : State} {c : Nat} {h : Hit} (hh : (s.chan c).hits = [h]) (hr : h.ready = false) (took : Nat) :
    (∀ d, (s.passReady c took).chan d = s.chan d) ∧ (s.collect c took).changesOnly [.chans] (s.passReady c took) :=
  State.passReady_waits_frame (by rw [hh]; simpa using hr) took

theorem Hit.not_ready {h : Hit} (k : h.holdDone = false ∨ h.tot = none ∨ h.code = none) : h.ready = false := by
  rcases k with k | k | k <;> simp [Hit.ready, k]

/-! ### The trailing edge -/

/-- The state of TRAILING_EDGE before hits pass: the output is low, and the hit that waits for its trailing edge has it. -/
def State.outputLow (s : State) (c t : Nat) : State :=
  ((s.advance (t / 64)).putCh c Reg.BLOCK.CH_STAT_HIGH false).setChan c
    { s.chan c with rearm := false, stuckFrom := none, hits := (s.chan c).hits.map (·.trail t),
                    inj := (s.chan c).inj.map (fun i => { i with fallen := i.hit }) }

theorem State.putCh_chan (s : State) (c d : Nat) (f : FieldRef) (b : Bool) : (s.putCh c f b).chan d = s.chan d :=
  State.putB_chan ..

theorem State.trailingEdge_eq {s : State} {c : Nat} {v : Int} (on : s.frontEndOn c = true) (high : s.isHigh c = true)
    (under : s.excursion c v < s.release c) (t took : Nat) : s.trailingEdge c t v took = (s.outputLow c t).passReady c took := by
  have chan : ((s.advance (t / 64)).putCh c Reg.BLOCK.CH_STAT_HIGH false).chan c = s.chan c :=
    (State.putCh_chan ..).trans (State.advance_chan ..)
  simp only [State.trailingEdge, on, high, under, chan]
  rfl

theorem State.outputLow_chan (s : State) (c t : Nat) : (s.outputLow c t).chan c =
    { s.chan c with rearm := false, stuckFrom := none, hits := (s.chan c).hits.map (·.trail t),
                    inj := (s.chan c).inj.map (fun i => { i with fallen := i.hit }) } := State.setChan_chan_same ..

theorem State.outputLow_chan_ne {c d : Nat} (h : d ≠ c) (s : State) (t : Nat) : (s.outputLow c t).chan d = s.chan d :=
  ((State.setChan_chan_ne h ..).trans (State.putCh_chan ..)).trans (State.advance_chan ..)

theorem State.outputLow_isHigh (s : State) (c t : Nat) : (s.outputLow c t).isHigh c = false :=
  (State.setChan_flag ..).trans (State.chFlag_putCh_same (by decide) (by decide) _ c false)

theorem State.outputLow_only (s : State) (c t : Nat) : s.Only 153 (s.outputLow c t) :=
  State.setChan_only (State.putCh_only (State.advance_only (.refl s) _ (by decide)) c _ _ (by decide)) c _ (by decide)

theorem State.outputLow_now (s : State) (c t : Nat) : (s.outputLow c t).now = max s.now (t / 64) :=
  (State.setChan_now ..).trans (State.putB_now ..)

theorem State.regsBut_outputLow (s : State) (c t : Nat) :
    s.RegsBut (fun q o => (q, o) ∈ [(chPage c, (chReg Reg.BLOCK.CH_STAT_HIGH c).off)]) (s.outputLow c t) :=
  ((State.regsBut_advance s _).trans (State.regsBut_putB List.mem_cons_self (chReg_off_lt (by decide) c) _ false)).trans
    (State.regsBut_setChan ..)

/-- A hit's trailing edge is sampled within 4095 taps of its leading edge, or its ToT has saturated (R71, R72). -/
theorem Hit.trail_eq {h : Hit} (k : h.tot = none) (t : Nat) :
    h.trail t = if t < h.lead + 4096 then { h with tot := some ((t - h.lead) / 4) }
      else { h with tot := some 1023, sat := true } := by
  rw [Hit.trail, k]; rfl

theorem Hit.trail_waits {h : Hit} (t : Nat) (k : h.holdDone = false ∨ h.code = none) : (h.trail t).ready = false := by
  have same : (h.trail t).holdDone = h.holdDone ∧ (h.trail t).code = h.code := by
    unfold Hit.trail
    split_ifs <;> exact ⟨rfl, rfl⟩
  exact Hit.not_ready (k.imp same.1.trans fun k => .inr (same.2.trans k))

/-! ### Time passes for the hits of a channel -/

/-- Time moves forward, and the hits of a channel change. -/
def State.hitsAt (s : State) (c t : Nat) (l : List Hit) : State :=
  (s.advance (t / 64)).setChan c { s.chan c with hits := l }

theorem State.hitsAt_chan (s : State) (c t : Nat) (l : List Hit) : (s.hitsAt c t l).chan c = { s.chan c with hits := l } :=
  State.setChan_chan_same ..

theorem State.hitsAt_chan_ne {c d : Nat} (h : d ≠ c) (s : State) (t : Nat) (l : List Hit) :
    (s.hitsAt c t l).chan d = s.chan d := (State.setChan_chan_ne h ..).trans (State.advance_chan ..)

theorem State.hitsAt_now (s : State) (c t : Nat) (l : List Hit) : (s.hitsAt c t l).now = max s.now (t / 64) :=
  State.setChan_now ..

theorem State.hitsAt_only (s : State) (c t : Nat) (l : List Hit) : s.Only 129 (s.hitsAt c t l) :=
  State.setChan_only (State.advance_only (.refl s) _ (by decide)) c _ (by decide)

/-- Time has passed for the one hit of a channel, which still waits: what the statement says of it. -/
theorem State.hitsAt_waits {s : State} {c : Nat} (t : Nat) {x : Hit} (hx : x.ready = false) (took : Nat) :
    (s.hitsAt c t [x]).now = max s.now (t / 64) ∧ (s.hitsAt c t [x]).chan c = { s.chan c with hits := [x] } ∧
      (∀ d, d ≠ c → (s.hitsAt c t [x]).chan d = s.chan d) ∧ s.changesOnly [.now, .chans] (s.hitsAt c t [x]) ∧
      (∀ d, ((s.hitsAt c t [x]).passReady c took).chan d = (s.hitsAt c t [x]).chan d) ∧
      ((s.hitsAt c t [x]).collect c took).changesOnly [.chans] ((s.hitsAt c t [x]).passReady c took) :=
  ⟨s.hitsAt_now .., s.hitsAt_chan .., fun _ hd => State.hitsAt_chan_ne hd .., (s.hitsAt_only ..).changes (by decide),
    State.passReady_waits_one (congrArg Chan.hits (s.hitsAt_chan ..)) hx took⟩

theorem State.totSaturation_eq {s : State} {c t : Nat} {h : Hit} (hh : (s.chan c).hits = [h]) (ht : h.tot = none)
    (hl : h.lead + 4096 ≤ t) (took : Nat) :
    s.totSaturation c t took = (s.hitsAt c t [{ h with tot := some 1023, sat := true }]).passReady c took := by
  have sat : h.tot.isNone = true ∧ h.lead + 4096 ≤ t := ⟨by rw [ht]; rfl, hl⟩
  simp only [State.totSaturation, hh, List.map_cons, List.map_nil, if_pos sat]
  rfl

theorem State.holdoffExpiry_eq {s : State} {c t : Nat} {h : Hit} (hh : (s.chan c).hits = [h]) (hl : h.lead + h.hold ≤ t)
    (took : Nat) : s.holdoffExpiry c t took = (s.hitsAt c t [{ h with holdDone := true }]).passReady c took := by
  simp only [State.holdoffExpiry, hh, List.map_cons, List.map_nil, if_pos hl]
  rfl

/-! ### The conversion -/

/-- The state of ADC_CONVERSION_DONE before hits pass: the limits of R66 and R67 that the hit's time meets are counted (R68). -/
def State.converted (s : State) (c : Nat) (code : Byte) (h : Hit) : State :=
  (s.bump (pgTDC (chTile c)) Reg.TDC.CLAMP_CNT 2 ((h.time code.toNat).2.1.toNat + (h.time code.toNat).2.2.toNat)).setChan c
    { s.chan c with hits := [{ h with code := some code.toNat }] }

theorem State.adcDone_eq {s : State} {c : Nat} {h : Hit} (hh : (s.chan c).hits = [h]) (hc : h.code = none)
    (next : s.convertsNext c = true) (code : Byte) (took : Nat) :
    s.adcDone c code took .clean = (s.converted c code h).passReady c took := by
  have clean : s.countRead pgINTG (4 + (chTile c).val) (chInTile c) .clean = s := rfl
  have readable : decide (EccRead.clean = .uncorrectable) = false := rfl
  have clamps : clampsOf code.toNat [h] = (h.time code.toNat).2.1.toNat + (h.time code.toNat).2.2.toNat := by
    simp [clampsOf, hc]
  have oldest : convertOldest code.toNat [h] = [{ h with code := some code.toNat }] := by simp [convertOldest, hc]
  simp only [State.adcDone, next, if_true, hh, clean, readable, Bool.false_eq_true, if_false, clamps, oldest]
  rfl

theorem State.converted_bump {s : State} {c : Nat} {code : Byte} {h : Hit} (below : s.below (pgTDC (chTile c)) [Reg.TDC.CLAMP_CNT] 2) :
    s.stored (pgTDC (chTile c)) Reg.TDC.CLAMP_CNT + ((h.time code.toNat).2.1.toNat + (h.time code.toNat).2.2.toNat) < 2 ^ 32 := by
  have := below Reg.TDC.CLAMP_CNT List.mem_cons_self
  have := (h.time code.toNat).2.1.toNat_le
  have := (h.time code.toNat).2.2.toNat_le
  omega

theorem State.converted_chan (s : State) (c : Nat) (code : Byte) (h : Hit) :
    (s.converted c code h).chan c = { s.chan c with hits := [{ h with code := some code.toNat }] } := State.setChan_chan_same ..

theorem State.converted_chan_ne {c d : Nat} (hd : d ≠ c) (s : State) (code : Byte) (h : Hit) :
    (s.converted c code h).chan d = s.chan d := (State.setChan_chan_ne hd ..).trans (State.bump_chan ..)

/-- Settles O30. In each row the state `m` before hits pass is named (`outputLow`, `hitsAt`, `converted`), and a hit that is not
ready stays (`State.passReady_waits`). -/
theorem hitsAreMeasured : Obligations.HitsAreMeasured := by
  unfold Obligations.HitsAreMeasured
  refine ⟨?_, ?_, ?_, ?_⟩
  · intro s chan t v took h c hp on high under hh ht wait
    have hits : ((s.outputLow c t).chan c).hits = [h.trail t] := by rw [State.outputLow_chan, hh]; rfl
    refine ⟨s.outputLow c t, _, (exec_trailingEdge hp chan ⟨t, v⟩ took).trans
      (congrArg _ (State.trailingEdge_eq on high under t took)),
      s.outputLow_isHigh c t, ?_, ?_, s.outputLow_now c t, hits.trans ?_, fun d hd => State.outputLow_chan_ne hd s t,
      (s.regsBut_outputLow c t).same, (s.outputLow_only c t).changes (by decide),
      State.passReady_waits_one hits (Hit.trail_waits t wait) took⟩
    · rw [State.outputLow_chan]
    · rw [State.outputLow_chan]
    · rw [Hit.trail_eq ht]
  · intro s chan t took h c hp hh ht hl wait
    have waits : ({ h with tot := some 1023, sat := true } : Hit).ready = false := Hit.not_ready (wait.imp id .inr)
    exact ⟨_, _, (exec_totSaturation hp chan t took).trans (congrArg _ (State.totSaturation_eq hh ht hl took)),
      State.hitsAt_waits t waits took⟩
  · intro s chan code took h c tl hp hh hc wait next below
    have hits := congrArg Chan.hits (s.converted_chan c code h)
    have put := State.bump_eq_put (f := Reg.TDC.CLAMP_CNT) (s.converted_bump (code := code) (h := h) below) 2
    refine ⟨s.converted c code h, _, (exec_adcConversionDone hp chan code took .clean).trans
      (congrArg _ (State.adcDone_eq hh hc next code took)), s.converted_chan c code h, ?_, ?_,
      fun d hd => State.converted_chan_ne hd s code h, ?_, ?_,
      State.passReady_waits_one hits (Hit.not_ready (wait.imp id .inl)) took⟩
    · rw [Chan.busy, hits]; rfl
    · rw [State.converted, State.setChan_stored, State.stored_bump_below (by decide) (by decide) (State.converted_bump below),
        Nat.add_assoc]
    · rw [State.converted, put]
      exact ((State.regsBut_put List.mem_cons_self (by decide) s _).trans (State.regsBut_setChan ..)).same
    · exact (State.setChan_only (L := 152) (State.bump_only (.refl s) _ _ _ _ (by decide)) c _ (by decide)).changes (by decide)
  · intro s chan t took h c hp hh hl wait
    have waits : ({ h with holdDone := true } : Hit).ready = false := Hit.not_ready (.inr wait)
    exact ⟨_, _, (exec_holdoffExpiry hp chan t took).trans (congrArg _ (State.holdoffExpiry_eq hh hl took)),
      State.hitsAt_waits t waits took⟩

end Sys2Proof.Machine
end

section
/-!
PROOFS. The family of the channel front end: a complete hit passes to read-out, and the collector takes records (R32, R44, R66,
R67, R81, R83, R85, R86, R97, R98).
-/

namespace Sys2Proof.Machine

theorem exec_promotionDecision {s : State} (h : s.powered = true) (chan : BitVec 16) (t took : Nat) :
    exec (.promotionDecision chan t took) s = .next (s.promotionDecision chan.toNat t took) :=
  congrArg Host.Outcome.next (if_pos h)

/-! ### The collector reads neither module time nor the channels -/

/-- The state with another module time and other channels. -/
def State.restamp (s : State) (n : Nat) (m : List (Nat × Chan)) : State := { s with now := n, chans := m }

section

variable (s : State) (n : Nat) (m : List (Nat × Chan)) (p o v b k : Nat) (f : FieldRef) (t : Fin 16) (c : Conc) (r : BitVec 52)

theorem State.restamp_rd : (s.restamp n m).rd p o = s.rd p o := rfl
theorem State.restamp_live : (s.restamp n m).live p o = s.live p o := rfl
theorem State.restamp_stored : (s.restamp n m).stored p f = s.stored p f := rfl
theorem State.restamp_fld : (s.restamp n m).fld p f = s.fld p f := rfl
theorem State.restamp_flag : (s.restamp n m).flag p f = s.flag p f := rfl
theorem State.restamp_port : (s.restamp n m).port t c = s.port t c := rfl
theorem State.restamp_wr (w : Word) : (s.restamp n m).wr p o w = (s.wr p o w).restamp n m := rfl
theorem State.restamp_put : (s.restamp n m).put p f v = (s.put p f v).restamp n m := rfl
theorem State.restamp_setPort (x : Port) : (s.restamp n m).setPort t c x = (s.setPort t c x).restamp n m := rfl

theorem State.restamp_overflow : (s.restamp n m).overflow p b = (s.overflow p b).restamp n m := rfl

theorem State.restamp_bump : (s.restamp n m).bump p f b k = (s.bump p f b k).restamp n m := by
  simp only [State.bump, apply_ite (State.restamp · n m), State.restamp_stored]
  rfl

theorem State.restamp_peak : (s.restamp n m).peak p f v = (s.peak p f v).restamp n m := by
  simp only [State.peak, apply_ite (State.restamp · n m), State.restamp_stored]
  rfl

theorem State.restamp_queueEvent : (s.restamp n m).queueEvent p = (s.queueEvent p).restamp n m := by
  simp only [State.queueEvent, apply_ite (State.restamp · n m), State.restamp_flag,
    show (s.restamp n m).eventQ = s.eventQ from rfl]
  rfl

theorem State.restamp_event : (s.restamp n m).event p b = (s.event p b).restamp n m := by
  simp only [State.event, apply_ite (State.restamp · n m), State.restamp_rd, State.restamp_live, State.restamp_wr,
    State.restamp_queueEvent]

theorem State.restamp_countRefused : (s.restamp n m).countRefused t c r = (s.countRefused t c r).restamp n m := by
  simp only [State.countRefused, apply_ite (State.restamp · n m), State.restamp_bump]

theorem State.restamp_refuseRecord (d i : Nat) :
    (s.restamp n m).refuseRecord t c r d i = (s.refuseRecord t c r d i).restamp n m := by
  simp only [State.refuseRecord, State.restamp_port, State.restamp_setPort, State.restamp_countRefused, State.restamp_event]

theorem State.restamp_offerRecord (d i : Nat) :
    (s.restamp n m).offerRecord t c r d i = (s.offerRecord t c r d i).restamp n m := by
  simp only [State.offerRecord, apply_ite (State.restamp · n m), State.restamp_port, State.restamp_stored, State.restamp_fld,
    State.restamp_setPort,
    State.restamp_bump, State.restamp_put, State.restamp_peak, State.restamp_refuseRecord]
  rfl

theorem State.restamp_acceptRecord (x : BitVec 52 × Nat) :
    (s.restamp n m).acceptRecord t x = (s.acceptRecord t x).restamp n m := by
  simp only [State.acceptRecord, State.restamp_offerRecord]

end

theorem State.restamp_each {α : Type} {f : State → α → State} {n : Nat} {m : List (Nat × Chan)}
    (h : ∀ s a, f (s.restamp n m) a = (f s a).restamp n m) (l : List α) (s : State) :
    (s.restamp n m).each l f = (s.each l f).restamp n m := by
  induction l generalizing s with
  | nil => rfl
  | cons a l ih => rw [State.each_cons, State.each_cons, h, ih]

theorem State.restamp_collect (s : State) (n : Nat) (m : List (Nat × Chan)) (chan took : Nat) :
    (s.restamp n m).collect chan took = (s.collect chan took).restamp n m :=
  State.restamp_each (fun s x => s.restamp_acceptRecord n m _ x) _ (s.setTile _ _)

/-! ### What the collector leaves (R81) -/

theorem Tile.setPort_cands (x : Tile) (c : Conc) (p : Port) : (x.setPort c p).cands = x.cands := by cases c <;> rfl
theorem Tile.setPort_waiting (x : Tile) (c : Conc) (p : Port) (k : Nat) : (x.setPort c p).waiting k = x.waiting k := by
  cases c <;> rfl
theorem Tile.setPort_port_same (x : Tile) (c : Conc) (p : Port) : (x.setPort c p).port c = p := by cases c <;> rfl
theorem Tile.setPort_port_ne {c d : Conc} (h : d ≠ c) (x : Tile) (p : Port) : (x.setPort c p).port d = x.port d := by
  cases c <;> cases d <;> simp_all [Tile.setPort, Tile.port]

/-- The records of tile `tl` move on: the candidates, the other tiles and the registers but the port page's stay. -/
structure State.RecordsMove (s t : State) (tl : Fin 16) : Prop where
  cands : (t.tile tl).cands = (s.tile tl).cands
  others : ∀ u, u ≠ tl → t.tile u = s.tile u
  regs : s.RegsBut (fun q _ => q ∈ [pgPORTS tl]) t

section

variable {s t u : State} {tl : Fin 16}

theorem State.RecordsMove.trans (h : s.RecordsMove t tl) (k : t.RecordsMove u tl) : s.RecordsMove u tl :=
  ⟨k.cands.trans h.cands, fun v hv => (k.others v hv).trans (h.others v hv), h.regs.trans k.regs⟩

theorem State.RecordsMove.of_setTile (x : Tile) (h : x.cands = (s.tile tl).cands) : s.RecordsMove (s.setTile tl x) tl :=
  ⟨by rw [State.setTile_tile_same, h], fun _ hu => State.setTile_tile_ne hu .., State.regsBut_setTile ..⟩

theorem State.RecordsMove.of_setPort (c : Conc) (p : Port) : s.RecordsMove (s.setPort tl c p) tl :=
  .of_setTile _ (Tile.setPort_cands ..)

theorem State.RecordsMove.of_only (h : s.Only 88 t) (k : s.RegsBut (fun q _ => q ∈ [pgPORTS tl]) t) : s.RecordsMove t tl :=
  ⟨by rw [h.sameTile tl], fun u _ => h.sameTile u, k⟩

end

theorem portReg_off_lt {f : FieldRef} (h : f.off < 0x100) (c : Conc) : (portReg f c).off < 4096 := by
  have off : (portReg f c).off = f.off + c.idx * 0x40 := rfl
  cases c <;> simp [off, Conc.idx] <;> omega

/-- A counter of a port page counts. -/
theorem State.RecordsMove.of_bump {f : FieldRef} (h : f.off < 0x100) (s : State) (tl : Fin 16) (c : Conc) (b : Nat) :
    s.RecordsMove (s.bump (pgPORTS tl) (portReg f c) b) tl :=
  .of_only (State.bump_only (.refl s) _ _ _ _ (by decide))
    (State.regsBut_bump List.mem_cons_self List.mem_cons_self (portReg_off_lt h c) s b 1)

theorem State.RecordsMove.of_put {f : FieldRef} (h : f.off < 0x100) (s : State) (tl : Fin 16) (c : Conc) (v : Nat) :
    s.RecordsMove (s.put (pgPORTS tl) (portReg f c) v) tl :=
  .of_only (State.put_only (.refl s) _ _ _ (by decide)) (State.regsBut_put List.mem_cons_self (portReg_off_lt h c) s v)

theorem State.RecordsMove.of_peak {f : FieldRef} (h : f.off < 0x100) (s : State) (tl : Fin 16) (c : Conc) (v : Nat) :
    s.RecordsMove (s.peak (pgPORTS tl) (portReg f c) v) tl :=
  .of_only (State.peak_only (.refl s) _ _ _ (by decide))
    (.ite (State.regsBut_put List.mem_cons_self (portReg_off_lt h c) s _) (.refl s))

theorem State.RecordsMove.of_event (s : State) (tl : Fin 16) (b : Nat) : s.RecordsMove (s.event (pgPORTS tl) b) tl :=
  .of_only (State.event_only (.refl s) _ _ (by decide)) (State.regsBut_event List.mem_cons_self s b)

theorem State.countRefused_moves (s : State) (tl : Fin 16) (c : Conc) (r : BitVec 52) :
    s.RecordsMove (s.countRefused tl c r) tl := by
  unfold State.countRefused
  split <;> exact .of_bump (by decide) ..

theorem State.refuseRecord_moves (s : State) (tl : Fin 16) (c : Conc) (r : BitVec 52) (f k : Nat) :
    s.RecordsMove (s.refuseRecord tl c r f k) tl :=
  ((State.RecordsMove.of_setPort ..).trans (State.countRefused_moves _ tl c r)).trans (.of_event _ tl (8 * c.idx + 2))

/-- The port takes the record, and its counts follow (R98). -/
def State.portTakes (s : State) (tl : Fin 16) (c : Conc) (r : BitVec 52) (f : Nat) : State :=
  let fill := s.stored (pgPORTS tl) (portReg Reg.PORTS.PSTAT_FILL c)
  ((s.setPort tl c ({ s.port tl c with items := (s.port tl c).items ++ [PortItem.hit r f] }.onFrame f (fun f =>
      { f with records := f.records + 1, crc := crc16Bits f.crc (toBits 52 r.toNat) }))).put (pgPORTS tl)
    (portReg Reg.PORTS.PSTAT_FILL c) (fill + 1)).peak (pgPORTS tl) (portReg Reg.PORTS.PEAK_PEAK c) (fill + 1)

theorem State.portTakes_moves (s : State) (tl : Fin 16) (c : Conc) (r : BitVec 52) (f : Nat) :
    s.RecordsMove (s.portTakes tl c r f) tl :=
  ((State.RecordsMove.of_setPort ..).trans (.of_put (f := Reg.PORTS.PSTAT_FILL) (by decide) _ tl c _)).trans
    (.of_peak (f := Reg.PORTS.PEAK_PEAK) (by decide) _ tl c _)

/-- How many records a port holds of a type (R98). -/
def State.portLimit (s : State) (tl : Fin 16) (r : BitVec 52) : Nat :=
  if recType r = 3 then min 65536 (s.fld (pgPORTS tl) Reg.PORTS.PORT_CTRL_SHADOW_HWM) else 65536

theorem State.offerRecord_eq (s : State) (tl : Fin 16) (c : Conc) (r : BitVec 52) (f k : Nat) :
    s.offerRecord tl c r f k =
      if (s.port tl c).cut || decide (f < (s.port tl c).since) then
        (s.setPort tl c { s.port tl c with discarded := (s.port tl c).discarded + 1 }).bump (pgPORTS tl)
          (portReg Reg.PORTS.CUT_DISCARD_CNT c) (8 * c.idx + 4)
      else if s.stored (pgPORTS tl) (portReg Reg.PORTS.PSTAT_FILL c) < s.portLimit tl r then s.portTakes tl c r f
      else s.refuseRecord tl c r f k := rfl

theorem State.offerRecord_moves (s : State) (tl : Fin 16) (c : Conc) (r : BitVec 52) (f k : Nat) :
    s.RecordsMove (s.offerRecord tl c r f k) tl := by
  rw [State.offerRecord_eq]
  split_ifs
  · exact (State.RecordsMove.of_setPort ..).trans (.of_bump (f := Reg.PORTS.CUT_DISCARD_CNT) (by decide) _ tl c _)
  · exact s.portTakes_moves tl c r f
  · exact s.refuseRecord_moves tl c r f k

theorem State.collect_moves (s : State) (chan took : Nat) : s.RecordsMove (s.collect chan took) (chTile chan) := by
  have left := State.RecordsMove.of_setTile (s := s) (tl := chTile chan)
    ((s.tile (chTile chan)).setWaiting (cellInTile chan) (((s.tile (chTile chan)).waiting (cellInTile chan)).drop took)) rfl
  exact State.each_keeps (P := fun u => s.RecordsMove u (chTile chan))
    (fun u x _ h => h.trans ((State.offerRecord_moves ..).trans (State.offerRecord_moves ..))) left

/-! ### A decided record is sent (R81, R99) -/

/-- What waits in the tile's cells and on its ports. -/
structure State.SameQueues (s t : State) (tl : Fin 16) : Prop where
  cells : (t.tile tl).cellq = (s.tile tl).cellq
  ports : ∀ c, t.port tl c = s.port tl c

theorem State.SameQueues.waiting {s t : State} {tl : Fin 16} (h : s.SameQueues t tl) (k : Nat) :
    (t.tile tl).waiting k = (s.tile tl).waiting k := congrArg (mapGetD [] k) h.cells

theorem State.SameQueues.hasRoom {s t : State} {tl : Fin 16} (h : s.SameQueues t tl) {r : BitVec 52} {lead : Nat}
    (k : s.hasRoom tl r lead) : t.hasRoom tl r lead := by
  obtain ⟨cell, ports⟩ := k
  exact ⟨by rwa [h.waiting], fun c => by rw [h.ports]; exact ports c⟩

theorem State.SameQueues.sends {s t u : State} {tl : Fin 16} (h : s.SameQueues t tl) {r : BitVec 52} {lead : Nat} {i : BitVec 32}
    (k : t.sends u tl r lead i) : s.sends u tl r lead i := by
  obtain ⟨cell, ports⟩ := k
  exact ⟨by rw [cell, h.waiting], fun c => by rw [← h.ports]; exact ports c⟩

/-- A port with room takes the side item (R99). -/
theorem State.offerSide_eq {s : State} {tl : Fin 16} {c : Conc} {f : Nat} (opens : (s.port tl c).cut = false)
    (since : (s.port tl c).since ≤ f) (room : (s.port tl c).side.length < 768) (i : BitVec 32) :
    s.offerSide tl c i f = s.setPort tl c { s.port tl c with side := (s.port tl c).side ++ [i] } := by
  have takes : ¬((s.port tl c).cut || decide (f < (s.port tl c).since)) = true := by simp [opens, since]
  have fits : (s.port tl c).side.length < if bitsOf 31 30 i.toNat = 2 then 1024 else 768 := by split <;> omega
  simp only [State.offerSide, if_neg takes, if_pos fits]

theorem State.port_setPort_ne {c d : Conc} (h : d ≠ c) (s : State) (tl : Fin 16) (p : Port) :
    (s.setPort tl c p).port tl d = s.port tl d := by
  rw [State.port, State.setPort, State.setTile_tile_same, Tile.setPort_port_ne h, State.port]

theorem State.tile_setPort (s : State) (tl : Fin 16) (c : Conc) (p : Port) :
    (s.setPort tl c p).tile tl = (s.tile tl).setPort c p := State.setTile_tile_same ..

/-- The tile with a record in its cell queue (R81). -/
def State.cellTile (s : State) (tl : Fin 16) (r : BitVec 52) (lead : Nat) : Tile :=
  (s.tile tl).setWaiting (recChan r / 16) ((s.tile tl).waiting (recChan r / 16) ++ [(r, lead)])

/-- The tile with the side item on each port as well (R99). -/
def State.sentTile (s : State) (tl : Fin 16) (r : BitVec 52) (i : BitVec 32) (lead : Nat) : Tile :=
  { s.cellTile tl r lead with portA := { s.port tl .a with side := (s.port tl .a).side ++ [i] },
                              portB := { s.port tl .b with side := (s.port tl .b).side ++ [i] } }

/-- A record that has room joins its cell queue, and its side item each port: nothing else of the tile changes. -/
theorem State.sendRecord_leaves {s : State} {tl : Fin 16} {r : BitVec 52} {lead : Nat} (h : s.hasRoom tl r lead) (i : BitVec 32) :
    s.sends (s.sendRecord tl r i lead) tl r lead i ∧ ((s.sendRecord tl r i lead).tile tl).cands = (s.tile tl).cands ∧
      s.Only 256 (s.sendRecord tl r i lead) ∧ ∀ u, u ≠ tl → (s.sendRecord tl r i lead).tile u = s.tile u := by
  obtain ⟨cell, ports⟩ := h
  obtain ⟨openA, sinceA, roomA⟩ := ports .a
  obtain ⟨openB, sinceB, roomB⟩ := ports .b
  have first : (s.setTile tl (s.cellTile tl r lead)).port tl .a = s.port tl .a := by rw [State.port, State.setTile_tile_same]; rfl
  have eq : s.sendRecord tl r i lead = s.setTile tl (s.sentTile tl r i lead) := by
    have queue : s.sendRecord tl r i lead =
        ((s.setTile tl (s.cellTile tl r lead)).offerSide tl .a i (frameOfTap lead)).offerSide tl .b i (frameOfTap lead) := by
      simp only [State.sendRecord, if_pos cell]
      rfl
    have a := State.offerSide_eq (s := s.setTile tl (s.cellTile tl r lead)) (tl := tl) (c := .a) (f := frameOfTap lead)
      (by rw [first]; exact openA) (by rw [first]; exact sinceA) (by rw [first]; exact roomA) i
    rw [queue, a, first, State.setPort, State.setTile_tile_same, State.setTile_setTile]
    generalize hx : (s.cellTile tl r lead).setPort .a _ = x
    have second : (s.setTile tl x).port tl .b = s.port tl .b := by rw [State.port, State.setTile_tile_same, ← hx]; rfl
    rw [State.offerSide_eq (by rw [second]; exact openB) (by rw [second]; exact sinceB) (by rw [second]; exact roomB), second,
      State.setPort, State.setTile_tile_same, State.setTile_setTile, ← hx]
    rfl
  rw [eq]
  refine ⟨⟨?_, fun c => ?_⟩, ?_, ?_, fun u hu => ?_⟩
  · rw [State.setTile_tile_same]
    exact mapGetD_mapPutD_same ..
  · rw [State.port, State.setTile_tile_same]
    cases c <;> exact ⟨rfl, rfl⟩
  · rw [State.setTile_tile_same]; rfl
  · exact State.setTile_only (.refl s) _ _ (by decide)
  · exact State.setTile_tile_ne hu ..

/-! ### A ready hit passes (R32, R85, R86) -/

/-- HOLDOFF_EXPIRY of the one hit of a channel that has its ToT and its code: the hit passes, in the state that the collector leaves
but for module time and the channels. -/
theorem State.holdoffExpiry_ready {s : State} {c t : Nat} {h : Hit} (hh : (s.chan c).hits = [h]) (hl : h.lead + h.hold ≤ t)
    (ready : Hit.ready { h with holdDone := true } = true) (took : Nat) :
    ∃ m, s.holdoffExpiry c t took = ((s.collect c took).restamp (max s.now (t / 64)) m).passHit c { h with holdDone := true } ∧
      mapGetD {} c m = { s.chan c with hits := [] } ∧ ∀ d, d ≠ c → mapGetD {} d m = s.chan d := by
  have stamp : s.hitsAt c t [{ h with holdDone := true }] =
      s.restamp (max s.now (t / 64)) (s.hitsAt c t [{ h with holdDone := true }]).chans := rfl
  have hits : ((s.hitsAt c t [{ h with holdDone := true }]).chan c) = { s.chan c with hits := [{ h with holdDone := true }] } :=
    s.hitsAt_chan ..
  rw [State.holdoffExpiry_eq hh hl, State.passReady, hits]
  simp only [List.filter_cons, ready, Bool.not_true, Bool.false_eq_true, if_false, if_true, List.filter_nil,
    State.each_cons, State.each_nil]
  rw [stamp, State.restamp_collect]
  refine ⟨_, rfl, ?_, fun d hd => ?_⟩
  · exact mapGetD_mapPutD_same ..
  · exact (mapGetD_mapPutD_ne hd ..).trans (State.hitsAt_chan_ne hd ..)

/-- The record of R83 and the side item of R99 for a hit of channel `c` with its ToT and its code. -/
def Hit.word (h : Hit) (c tot code type : Nat) : BitVec 52 :=
  let v := h.time code
  tileRecord type (chInTile c) v.1 tot (8 * h.sat.toNat + 4 * h.pile.toNat + (h.nominal || v.2.1 || v.2.2).toNat)

def Hit.item (h : Hit) (c code kind : Nat) : BitVec 32 := sideItem kind h.gen (chInTile c) (h.lead % 64) code

section

variable {s : State} {c tot code : Nat} {h : Hit}

theorem State.passHit_cal (ht : h.tot = some tot) (hc : h.code = some code) (k : h.cal.isSome = true) : s.passHit c h =
    ((s.launchHit c (h.cal.getD 0) h.lead h.hold).bump (pgTILE (chTile c)) Reg.TILE.CALIB_CNT 7).sendRecord (chTile c)
      (h.word c tot code 2) (h.item c code 2) h.lead := by
  simp only [State.passHit, ht, hc, if_pos k]
  rfl

theorem State.passHit_shadow (ht : h.tot = some tot) (hc : h.code = some code) (k : h.cal.isSome = false)
    (sh : h.shadowOnly = true) : s.passHit c h =
    (s.bump (pgTILE (chTile c)) Reg.TILE.SHADOW_CNT 5).sendRecord (chTile c) (h.word c tot code 3) (h.item c code 3) h.lead := by
  simp only [State.passHit, ht, hc, k, sh, Bool.false_eq_true, if_false, if_true]
  rfl

/-- The tile remembers the stream hits of its channels (R88). -/
def State.streamed (s : State) (c lead : Nat) : State :=
  s.setTile (chTile c) { s.tile (chTile c) with streams := (s.tile (chTile c)).streams ++ [(c, lead)] }

theorem State.passHit_stream (ht : h.tot = some tot) (hc : h.code = some code) (k : h.cal.isSome = false)
    (sh : h.shadowOnly = false) (cut : h.cut ≤ tot) : s.passHit c h =
    ((s.streamed c h.lead).bump (pgTILE (chTile c)) Reg.TILE.STREAM_CNT 4).sendRecord (chTile c)
      (h.word c tot code 1) (h.item c code 1) h.lead := by
  simp only [State.passHit, ht, hc, k, sh, Bool.false_eq_true, if_false, Option.getD_some, if_pos cut]
  rfl

/-- A candidate joins those of the tile that wait for their decision (R90). -/
def State.candAdded (s : State) (tl : Fin 16) (p : Passed) : State :=
  s.setTile tl { s.tile tl with cands := (s.tile tl).cands ++ [p] }

theorem State.candAdded_leaves (s : State) (tl : Fin 16) (p : Passed) :
    ((s.candAdded tl p).tile tl).cands = (s.tile tl).cands ++ [p] ∧ (∀ d, (s.candAdded tl p).port tl d = s.port tl d) ∧
      ∀ v, v ≠ tl → (s.candAdded tl p).tile v = s.tile v := by
  refine ⟨by rw [State.candAdded, State.setTile_tile_same], fun d => ?_, fun v hv => State.setTile_tile_ne hv ..⟩
  rw [State.port, State.candAdded, State.setTile_tile_same]
  cases d <;> rfl

/-- The candidate that a hit of channel `c` is. -/
def Hit.candidate (h : Hit) (c tot code : Nat) : Passed :=
  { chan := c, lead := h.lead, word := h.word c tot code 3, side := h.item c code 3, window := h.window, promote := h.promote,
    shadowOnly := false }

theorem State.passHit_candidate (ht : h.tot = some tot) (hc : h.code = some code) (k : h.cal.isSome = false)
    (sh : h.shadowOnly = false) (cut : tot < h.cut) : s.passHit c h = s.candAdded (chTile c) (h.candidate c tot code) := by
  simp only [State.passHit, ht, hc, k, sh, Bool.false_eq_true, if_false, Option.getD_some, if_neg (Nat.not_le.2 cut)]
  rfl

end

/-- A state that has the records and registers of `g`. -/
structure State.SameRecords (g u : State) (tl : Fin 16) : Prop where
  queues : g.SameQueues u tl
  cands : (u.tile tl).cands = (g.tile tl).cands
  others : ∀ v, v ≠ tl → u.tile v = g.tile v
  regs : u.regs = g.regs
  stale : u.stale = g.stale

theorem State.restamp_sameRecords (g : State) (n : Nat) (m : List (Nat × Chan)) (tl : Fin 16) :
    g.SameRecords (g.restamp n m) tl := ⟨⟨rfl, fun _ => rfl⟩, rfl, fun _ _ => rfl, rfl, rfl⟩

theorem State.streamed_sameRecords {g u : State} {c : Nat} (h : g.SameRecords u (chTile c)) (lead : Nat) :
    g.SameRecords (u.streamed c lead) (chTile c) := by
  have tile : (u.streamed c lead).tile (chTile c) =
      { u.tile (chTile c) with streams := (u.tile (chTile c)).streams ++ [(c, lead)] } := State.setTile_tile_same ..
  refine ⟨⟨?_, fun d => ?_⟩, ?_, fun v hv => (State.setTile_tile_ne hv ..).trans (h.others v hv), h.regs, h.stale⟩
  · rw [tile]; exact h.queues.cells
  · rw [← h.queues.ports d, State.port, tile]
    cases d <;> rfl
  · rw [tile]; exact h.cands

/-- A hit is counted, and its record sent. -/
theorem State.SameRecords.sends {g u : State} {tl : Fin 16} {cnt : FieldRef} (h : g.SameRecords u tl)
    (hf : cnt.lo = 0 ∧ cnt.hi = 31 ∧ cnt.off < 4096) {r : BitVec 52} {lead : Nat} (room : g.hasRoom tl r lead)
    (below : g.stored (pgTILE tl) cnt < 2 ^ 32 - 1) (b : Nat) (i : BitVec 32) :
    let t := (u.bump (pgTILE tl) cnt b).sendRecord tl r i lead
    g.sends t tl r lead i ∧ t.stored (pgTILE tl) cnt = g.stored (pgTILE tl) cnt + 1 ∧ (t.tile tl).cands = (g.tile tl).cands ∧
      g.keepsRegs [(pgTILE tl, cnt.off)] t ∧ (∀ v, v ≠ tl → t.tile v = g.tile v) ∧ u.Only 280 t := by
  obtain ⟨lo, hi, off⟩ := hf
  have count : u.stored (pgTILE tl) cnt = g.stored (pgTILE tl) cnt :=
    (State.RegsBut.of (P := fun _ _ => False) h.regs h.stale).stored id off
  have fits : u.stored (pgTILE tl) cnt + 1 < 2 ^ (cnt.hi - cnt.lo + 1) := by rw [count, lo, hi]; omega
  have bumped := State.bump_only (L := 24) (.refl u) (pgTILE tl) cnt b 1 (by decide)
  have queues : g.SameQueues (u.bump (pgTILE tl) cnt b) tl :=
    ⟨by rw [bumped.sameTile tl]; exact h.queues.cells, fun d => by rw [State.port, bumped.sameTile tl]; exact h.queues.ports d⟩
  obtain ⟨sent, cands, only, others⟩ := State.sendRecord_leaves (queues.hasRoom room) i
  have put : u.RegsBut (fun q o => (q, o) ∈ [(pgTILE tl, cnt.off)]) (u.bump (pgTILE tl) cnt b) := by
    rw [State.bump_eq_put fits]
    exact State.regsBut_put List.mem_cons_self off u _
  have kept : (u.bump (pgTILE tl) cnt b).RegsBut (fun _ _ => False) _ := .of (only.regs (by decide)) (only.stale (by decide))
  refine ⟨queues.sends sent, (kept.stored id off).trans ?_, cands.trans ?_,
    (((State.RegsBut.of h.regs h.stale).trans put).trans (kept.mono fun _ _ => False.elim)).same,
    fun v hv => ((others v hv).trans (bumped.sameTile v)).trans (h.others v hv),
    (bumped.mono (A := 256)).trans (only.mono (A := 24))⟩
  · rw [State.stored_bump_below (by omega) (by omega) fits, count]
  · rw [bumped.sameTile tl]; exact h.cands

/-- What the statement says of a hit whose record is sent, of the state `g` that the collector leaves. -/
theorem State.SameRecords.passes {s g w u : State} {c : Nat} {tl : Fin 16} {cnt : FieldRef} (h : g.SameRecords u tl)
    (move : s.RecordsMove g tl) (hw : w.Only 8388864 u) (hc : (w.chan c).hits = []) (hd : ∀ d, d ≠ c → w.chan d = s.chan d)
    (hf : cnt.lo = 0 ∧ cnt.hi = 31 ∧ cnt.off < 4096) {r : BitVec 52} {lead : Nat} (room : g.hasRoom tl r lead)
    (below : s.stored (pgTILE tl) cnt < 2 ^ 32 - 1) (b : Nat) (i : BitVec 32) :
    let t := (u.bump (pgTILE tl) cnt b).sendRecord tl r i lead
    (t.chan c).hits = [] ∧ t.now = w.now ∧ g.sends t tl r lead i ∧ t.stored (pgTILE tl) cnt = s.stored (pgTILE tl) cnt + 1 ∧
      (t.tile tl).cands = (s.tile tl).cands ∧ g.keepsRegs [(pgTILE tl, cnt.off)] t ∧
      (∀ d, d ≠ c → t.chan d = s.chan d) ∧ ∀ v, v ≠ tl → t.tile v = s.tile v := by
  have page : pgTILE tl ∉ [pgPORTS tl] := by simp [pgPORTS]
  have count : g.stored (pgTILE tl) cnt = s.stored (pgTILE tl) cnt := move.regs.stored page hf.2.2
  obtain ⟨sent, stored, cands, regs, others, only⟩ := h.sends hf room (count.symm ▸ below) b i
  have chan (d : Nat) := (only.chan d).trans (hw.chan d)
  exact ⟨by rw [chan, hc], (only.now (by decide)).trans (hw.now (by decide)), sent, stored.trans (congrArg (· + 1) count),
    cands.trans move.cands, regs, fun d k => (chan d).trans (hd d k), fun v k => (others v k).trans (move.others v k)⟩

/-- The TYPE of a hit's record, where it is not a candidate, and the counter of its kind (R85, R86). -/
def Hit.kind (h : Hit) : Nat := if h.cal.isSome then 2 else if h.shadowOnly then 3 else 1
def Hit.counter (h : Hit) : FieldRef :=
  if h.cal.isSome then Reg.TILE.CALIB_CNT else if h.shadowOnly then Reg.TILE.SHADOW_CNT else Reg.TILE.STREAM_CNT

theorem Hit.counter_width (h : Hit) : h.counter.lo = 0 ∧ h.counter.hi = 31 ∧ h.counter.off < 4096 := by
  unfold Hit.counter
  split_ifs <;> decide

/-- Each kind of hit that is no candidate is counted and sent. -/
theorem State.passHit_sent {g w : State} {c tot code : Nat} {h : Hit} (ht : h.tot = some tot) (hc : h.code = some code)
    (k : h.cal.isSome = true ∨ h.shadowOnly = true ∨ h.cut ≤ tot) (same : g.SameRecords w (chTile c)) :
    ∃ u b, g.SameRecords u (chTile c) ∧ w.Only 8388864 u ∧ w.passHit c h =
      (u.bump (pgTILE (chTile c)) h.counter b).sendRecord (chTile c) (h.word c tot code h.kind) (h.item c code h.kind) h.lead := by
  unfold Hit.counter Hit.kind
  by_cases cal : h.cal.isSome = true
  · simp only [if_pos cal]
    exact ⟨w.launchHit c (h.cal.getD 0) h.lead h.hold, 7, ⟨⟨same.queues.cells, same.queues.ports⟩,
      same.cands, same.others, same.regs, same.stale⟩,
      State.launchHit_only (.refl w) c _ _ _ (by decide), State.passHit_cal ht hc cal⟩
  · have nocal := Bool.eq_false_iff.2 cal
    simp only [if_neg cal]
    by_cases sh : h.shadowOnly = true
    · simp only [if_pos sh]
      exact ⟨w, 5, same, .refl w, State.passHit_shadow ht hc nocal sh⟩
    · simp only [if_neg sh]
      have cut : h.cut ≤ tot := (k.resolve_left cal).resolve_left sh
      exact ⟨w.streamed c h.lead, 4, State.streamed_sameRecords same h.lead, State.setTile_only (.refl w) _ _ (by decide),
        State.passHit_stream ht hc nocal (Bool.eq_false_iff.2 sh) cut⟩

/-! ### A record leaves its cell queue (R81, R97, R98) -/

theorem State.setTile_self (s : State) (tl : Fin 16) : s.setTile tl (s.tile tl) = s := by
  simp [State.setTile, State.tile]

/-- A tile with no candidate waiting: PROMOTION_DECISION is what the collector takes. -/
theorem State.promotionDecision_none {s : State} {c : Nat} (h : (s.tile (chTile c)).cands = []) (t took : Nat) :
    s.promotionDecision c t took = (s.advance (t / 64)).collect c took := by
  have left : (((s.advance (t / 64)).collect c took).tile (chTile c)).cands = [] :=
    ((s.advance (t / 64)).collect_moves c took).cands.trans h
  simp only [State.promotionDecision, h, List.filter_nil, State.each_nil, left]
  rw [← left, State.setTile_self]

/-- A record is taken into the buffer of port `c`, with its count (R97, R98). -/
structure State.PortTook (s t : State) (tl : Fin 16) (c : Conc) (r : BitVec 52) (f : Nat) : Prop where
  items : (t.port tl c).items = (s.port tl c).items ++ [.hit r f]
  side : (t.port tl c).side = (s.port tl c).side
  others : ∀ d, d ≠ c → t.port tl d = s.port tl d
  waiting : ∀ k, (t.tile tl).waiting k = (s.tile tl).waiting k
  fill : t.stored (pgPORTS tl) (portReg Reg.PORTS.PSTAT_FILL c) = s.stored (pgPORTS tl) (portReg Reg.PORTS.PSTAT_FILL c) + 1
  regs : s.RegsBut (fun q o => q = pgPORTS tl ∧ (o = 0x080 + c.idx * 0x40 ∨ o = 0x084 + c.idx * 0x40)) t
  only : s.Only 280 t

theorem State.portTakes_took {s : State} {tl : Fin 16} {c : Conc}
    (h : s.stored (pgPORTS tl) (portReg Reg.PORTS.PSTAT_FILL c) < 65536) (r : BitVec 52) (f : Nat) :
    s.PortTook (s.portTakes tl c r f) tl c r f := by
  have fillOff : (portReg Reg.PORTS.PSTAT_FILL c).off = 0x080 + c.idx * 0x40 := rfl
  have peakOff : (portReg Reg.PORTS.PEAK_PEAK c).off = 0x084 + c.idx * 0x40 := rfl
  obtain ⟨p, hp⟩ : ∃ p, p = { s.port tl c with items := (s.port tl c).items ++ [PortItem.hit r f] }.onFrame f (fun f =>
      { f with records := f.records + 1, crc := crc16Bits f.crc (toBits 52 r.toNat) }) := ⟨_, rfl⟩
  obtain ⟨u, hu⟩ : ∃ u, u = (s.setPort tl c p).put (pgPORTS tl) (portReg Reg.PORTS.PSTAT_FILL c)
      (s.stored (pgPORTS tl) (portReg Reg.PORTS.PSTAT_FILL c) + 1) := ⟨_, rfl⟩
  have eq : s.portTakes tl c r f = u.peak (pgPORTS tl) (portReg Reg.PORTS.PEAK_PEAK c)
      (s.stored (pgPORTS tl) (portReg Reg.PORTS.PSTAT_FILL c) + 1) := by rw [hu, hp]; rfl
  have tile : u.tile tl = (s.tile tl).setPort c p := by rw [hu, State.put_tile, State.tile_setPort]
  have parts := State.peak_only (L := 24) (.refl u) (pgPORTS tl) (portReg Reg.PORTS.PEAK_PEAK c)
    (s.stored (pgPORTS tl) (portReg Reg.PORTS.PSTAT_FILL c) + 1) (by decide)
  have peak : u.RegsBut (fun q o => q = pgPORTS tl ∧ o = 0x084 + c.idx * 0x40) (s.portTakes tl c r f) := by
    rw [eq]
    exact .ite (State.regsBut_put ⟨rfl, peakOff⟩ (portReg_off_lt (by decide) c) u _) (.refl u)
  rw [← eq] at parts
  have port (d : Conc) : (s.portTakes tl c r f).port tl d = ((s.tile tl).setPort c p).port d := by
    rw [State.port, parts.sameTile tl, tile]
  refine ⟨?_, ?_, fun d hd => ?_, fun k => ?_, ?_, ?_, ?_⟩
  · rw [port, Tile.setPort_port_same, hp]; rfl
  · rw [port, Tile.setPort_port_same, hp]; rfl
  · rw [port, Tile.setPort_port_ne hd]; rfl
  · rw [parts.sameTile tl, tile, Tile.setPort_waiting]
  · rw [peak.stored (by rw [fillOff]; omega) (portReg_off_lt (by decide) c), hu,
      State.stored_put_same (f := portReg Reg.PORTS.PSTAT_FILL c) (Nat.zero_le 16) (by show 16 < 32; decide)]
    exact Nat.mod_eq_of_lt (by show _ + 1 < 2 ^ 17; omega)
  · refine State.RegsBut.trans ?_ (peak.mono fun q o m => ⟨m.1, .inr m.2⟩)
    rw [hu]
    exact (State.regsBut_setPort ..).trans (State.regsBut_put ⟨rfl, .inl fillOff⟩ (portReg_off_lt (by decide) c) _ _)
  · refine State.Only.trans ?_ (parts.mono (A := 256))
    rw [hu]
    exact State.put_only (State.setTile_only (.refl s) _ _ (by decide)) _ _ _ (by decide)

theorem State.offerRecord_took {s : State} {tl : Fin 16} {c : Conc} {r : BitVec 52} {f : Nat}
    (opens : (s.port tl c).cut = false) (since : (s.port tl c).since ≤ f)
    (room : s.stored (pgPORTS tl) (portReg Reg.PORTS.PSTAT_FILL c) < s.portLimit tl r) (k : Nat) :
    s.PortTook (s.offerRecord tl c r f k) tl c r f := by
  have takes : ¬((s.port tl c).cut || decide (f < (s.port tl c).since)) = true := by simp [opens, since]
  have limit : s.portLimit tl r ≤ 65536 := by unfold State.portLimit; split <;> omega
  rw [State.offerRecord_eq, if_neg takes, if_pos room]
  exact State.portTakes_took (by omega) r f

/-- Another port's fill, and what limits it, stay. -/
theorem State.PortTook.other {s t : State} {tl : Fin 16} {c d : Conc} {r : BitVec 52} {f : Nat} (h : s.PortTook t tl c r f)
    (hd : d ≠ c) (x : BitVec 52) :
    t.stored (pgPORTS tl) (portReg Reg.PORTS.PSTAT_FILL d) = s.stored (pgPORTS tl) (portReg Reg.PORTS.PSTAT_FILL d) ∧
      t.portLimit tl x = s.portLimit tl x := by
  have off : (portReg Reg.PORTS.PSTAT_FILL d).off = 0x080 + d.idx * 0x40 := rfl
  have hwm : Reg.PORTS.PORT_CTRL_SHADOW_HWM.off = 0x040 := rfl
  have apart : d.idx ≠ c.idx := by cases c <;> cases d <;> simp_all [Conc.idx]
  constructor
  · exact h.regs.stored (by rw [off]; omega) (portReg_off_lt (by decide) d)
  · rw [State.portLimit, State.portLimit, h.regs.fld (by rw [hwm]; omega) (by decide)]

/-- Port `c` takes records of a frame (R98, R102). -/
def State.portRoom (s : State) (tl : Fin 16) (c : Conc) (r : BitVec 52) (f : Nat) : Prop :=
  (s.port tl c).cut = false ∧ (s.port tl c).since ≤ f ∧
    s.stored (pgPORTS tl) (portReg Reg.PORTS.PSTAT_FILL c) < s.portLimit tl r

/-- A record that both ports have room for enters both (R97). -/
theorem State.acceptRecord_leaves {s : State} {tl : Fin 16} {r : BitVec 52} {lead : Nat}
    (room : ∀ c, s.portRoom tl c r (frameOfTap lead)) :
    let t := s.acceptRecord tl (r, lead)
    (∀ c, (t.port tl c).items = (s.port tl c).items ++ [.hit r (frameOfTap lead)] ∧ (t.port tl c).side = (s.port tl c).side ∧
      t.stored (pgPORTS tl) (portReg Reg.PORTS.PSTAT_FILL c) = s.stored (pgPORTS tl) (portReg Reg.PORTS.PSTAT_FILL c) + 1) ∧
      (∀ k, (t.tile tl).waiting k = (s.tile tl).waiting k) ∧ s.RegsBut (fun q _ => q ∈ [pgPORTS tl]) t ∧ s.Only 280 t := by
  obtain ⟨openA, sinceA, limitA⟩ := room .a
  obtain ⟨openB, sinceB, limitB⟩ := room .b
  have first := State.offerRecord_took openA sinceA limitA (lead / trefTaps)
  have apart : Conc.b ≠ Conc.a := by decide
  have portB := first.others .b apart
  obtain ⟨fillB, boundB⟩ := first.other apart r
  have second := State.offerRecord_took (s := s.offerRecord tl .a r (frameOfTap lead) (lead / trefTaps)) (c := .b)
    (f := frameOfTap lead) (by rw [portB, openB]) (by rw [portB]; exact sinceB) (by rw [fillB, boundB]; exact limitB) (lead / trefTaps)
  have portA := second.others .a apart.symm
  obtain ⟨fillA, -⟩ := second.other apart.symm r
  refine ⟨fun c => ?_, fun k => (second.waiting k).trans (first.waiting k),
    (first.regs.mono fun q _ h => by simp [h.1]).trans (second.regs.mono fun q _ h => by simp [h.1]),
    first.only.trans second.only⟩
  cases c with
  | a =>
    exact ⟨(congrArg Port.items portA).trans first.items, (congrArg Port.side portA).trans first.side, fillA.trans first.fill⟩
  | b =>
    exact ⟨second.items.trans (by rw [portB]), second.side.trans (by rw [portB]), second.fill.trans (by rw [fillB])⟩

/-- The oldest record of a cell is taken by both ports. -/
theorem State.collect_one {s : State} {c lead : Nat} {r : BitVec 52} {q : List (BitVec 52 × Nat)}
    (h : (s.tile (chTile c)).waiting (cellInTile c) = (r, lead) :: q) :
    s.collect c 1 = (s.setTile (chTile c) ((s.tile (chTile c)).setWaiting (cellInTile c) q)).acceptRecord (chTile c) (r, lead) := by
  simp only [State.collect, State.collectCell, h]
  rfl

/-- Settles O31. A ready hit passes in the state that the collector leaves (`State.holdoffExpiry_ready`), counted and sent
(`State.passHit_sent`, `State.SameRecords.passes`) or as a candidate; a record taken enters both
ports (`State.acceptRecord_leaves`). -/
theorem hitsPassToReadOut : Obligations.HitsPassToReadOut := by
  unfold Obligations.HitsPassToReadOut
  refine ⟨?_, ?_⟩
  · intro s chan t took h tot code c tl g sp v flags word side type cnt hp hh hl htot hcode
    have ready : Hit.ready { h with holdDone := true } = true := by simp [Hit.ready, htot, hcode]
    obtain ⟨m, expiry, own, apart⟩ := State.holdoffExpiry_ready hh hl ready took
    have row := (exec_holdoffExpiry hp chan t took).trans (congrArg _ expiry)
    have move := s.collect_moves c took
    have records := g.restamp_sameRecords (max s.now (t / 64)) m tl
    refine ⟨fun kinds room below => ?_, fun nocal noshadow cut => ?_⟩
    · obtain ⟨u, b, same, only, sent⟩ := State.passHit_sent (h := { h with holdDone := true }) htot hcode kinds records
      exact ⟨_, row.trans (congrArg _ sent),
        same.passes move only (congrArg Chan.hits own) apart (Hit.counter_width _) room below b _⟩
    · have candidate := State.passHit_candidate (s := g.restamp (max s.now (t / 64)) m) (c := c)
        (h := { h with holdDone := true }) htot hcode (by rw [nocal]; rfl) noshadow cut
      obtain ⟨cands, ports, others⟩ := (g.restamp (max s.now (t / 64)) m).candAdded_leaves tl
        (Hit.candidate { h with holdDone := true } c tot code)
      have kept : g.RegsBut (fun q o => (q, o) ∈ ([] : List (Nat × Nat))) ((g.restamp (max s.now (t / 64)) m).candAdded tl
        (Hit.candidate { h with holdDone := true } c tot code)) := .of rfl rfl
      exact ⟨_, row.trans (congrArg _ candidate), congrArg Chan.hits own,
        cands.trans (congrArg (· ++ _) move.cands), ports .a, ports .b,
        kept.same, fun v hv => (others v hv).trans (move.others v hv)⟩
  · intro s chan t lead r q tl fill hp none waits room
    have taken := State.collect_one (s := s.advance (t / 64)) waits
    have row := (exec_promotionDecision hp chan t 1).trans (congrArg _ (State.promotionDecision_none none t 1))
    have move := ((s.advance (t / 64)).collect_moves chan.toNat 1).others
    rw [taken] at row move
    obtain ⟨u, hu⟩ : ∃ u, u = (s.advance (t / 64)).setTile tl
        (((s.advance (t / 64)).tile tl).setWaiting (cellInTile chan.toNat) q) :=
      ⟨_, rfl⟩
    have tile : u.tile tl = (s.tile tl).setWaiting (cellInTile chan.toNat) q := by rw [hu, State.setTile_tile_same]; rfl
    have port (c : Conc) : u.port tl c = s.port tl c := by rw [State.port, tile]; cases c <;> rfl
    have same : s.RegsBut (fun _ _ => False) u := by rw [hu]; exact .of rfl rfl
    have only : s.Only 281 u := hu ▸ State.setTile_only (State.advance_only (.refl s) _ (by decide)) _ _ (by decide)
    have stored (c : Conc) : u.stored (pgPORTS tl) (fill c) = s.stored (pgPORTS tl) (fill c) := by
      rw [same.stored id (portReg_off_lt (by decide) c)]
    have room (c : Conc) : u.portRoom tl c r (frameOfTap lead) := by
      obtain ⟨opens, since, limit⟩ := room c
      refine ⟨by rw [port, opens], by rw [port]; exact since, ?_⟩
      rw [stored, State.portLimit, same.fld id (by decide)]
      exact limit
    rw [← hu] at row move
    obtain ⟨ports, waiting, regs, parts⟩ := State.acceptRecord_leaves room
    refine ⟨_, row, (waiting _).trans ?_, fun c => ?_, ((same.mono fun _ _ => False.elim).trans regs).same,
      (only.trans (parts.mono (A := 1))).changes (by decide), fun v hv => ?_⟩
    · rw [tile]; exact mapGetD_mapPutD_same ..
    · obtain ⟨items, side, count⟩ := ports c
      exact ⟨by rw [items, port], by rw [side, port], by rw [count, stored]⟩
    · exact (move v hv).trans (State.advance_tile ..)

end Sys2Proof.Machine
end

section
/-!
PROOFS. The family of the channel front end: gate changes, the stuck timer and the end of blanking (R34, R36, R39, R47).
-/

namespace Sys2Proof.Machine

theorem exec_gateApply {s : State} (h : s.powered = true) (t : Fin 16) : exec (.gateApply t) s = .next (s.gateApplyCmd t) :=
  congrArg Host.Outcome.next (if_pos h)

theorem exec_stuckTimerExpiry {s : State} (h : s.powered = true) (chan : BitVec 16) (t : Nat) :
    exec (.stuckTimerExpiry chan t) s = .next (s.stuckExpiry chan.toNat t) := congrArg Host.Outcome.next (if_pos h)

theorem exec_blankingEnd {s : State} (h : s.powered = true) (chan : BitVec 16) (t : Nat) :
    exec (.blankingEnd chan t) s = .next (s.blankingEnd chan.toNat t) := congrArg Host.Outcome.next (if_pos h)

/-! ### The gate opens while outputs are high (R36) -/

/-- Where the registers lie that count the outputs that are high as a gate opens (R36, R51, R91). -/
def GateHighReg (_ o : Nat) : Prop := o = Reg.HDR.COUNTER_OVF.off ∨ o = Reg.TILE.CHAFF_GATEHIGH.off ∨ 0x800 ≤ o ∧ o < 0xC00

theorem not_gateHighReg {q o : Nat} (h : o = 0x010 ∨ o = 0x048 ∨ o = 0x070 ∨ 0x400 ≤ o ∧ o < 0x800 ∨ 0xC00 ≤ o) :
    ¬GateHighReg q o := by
  have ovf : Reg.HDR.COUNTER_OVF.off = 0x020 := rfl
  have chaff : Reg.TILE.CHAFF_GATEHIGH.off = 0x050 := rfl
  unfold GateHighReg
  omega

/-- What R36 leaves, channel by channel of tile `tl`: nothing of a tile changes but its chaff, and no channel loses its rearming. -/
structure State.GateRaised (s t : State) (tl : Fin 16) : Prop where
  now : t.now = s.now
  regs : s.RegsBut GateHighReg t
  next : (t.tile tl).gateNext = (s.tile tl).gateNext
  gates : (t.tile tl).gateNow = (s.tile tl).gateNow
  others : ∀ u, u ≠ tl → t.tile u = s.tile u
  rearm : ∀ c, (s.chan c).rearm = true → (t.chan c).rearm = true

theorem State.GateRaised.refl (s : State) (tl : Fin 16) : s.GateRaised s tl := ⟨rfl, .refl s, rfl, rfl, fun _ _ => rfl, fun _ => id⟩

theorem State.GateRaised.trans {s t u : State} {tl : Fin 16} (h : s.GateRaised t tl) (k : t.GateRaised u tl) : s.GateRaised u tl :=
  ⟨k.now.trans h.now, h.regs.trans k.regs, k.next.trans h.next, k.gates.trans h.gates,
    fun v hv => (k.others v hv).trans (h.others v hv), fun c hc => k.rearm c (h.rearm c hc)⟩

/-- The channel is armed, and its output is high. -/
def State.armedHigh (s : State) (c : Nat) : Bool :=
  s.isHigh c && s.frontEndOn c && !s.isMasked c && !s.isSelfMasked c && !s.isBlanked c

theorem State.armedHigh_of {c : Nat} (s : State) (high : s.isHigh c = true) (on : s.frontEndOn c = true) (mask : s.isMasked c = false)
    (self : s.isSelfMasked c = false) (blank : s.isBlanked c = false) : s.armedHigh c = true := by
  simp [State.armedHigh, high, on, mask, self, blank]

/-- Power states, the channels' settings and their state decide it, no other register. -/
theorem State.RegsBut.armedHigh {P : Nat → Nat → Prop} {s t : State} (h : s.RegsBut P t)
    (k : ∀ q o, o = 0x010 ∨ 0x400 ≤ o ∧ o < 0x800 ∨ 0xC00 ≤ o → ¬P q o) (c : Nat) : t.armedHigh c = s.armedHigh c := by
  have stat (f : FieldRef) (hf : f.off = 0xC00) : t.chFlag c f = s.chFlag c f := by
    have off : (chReg f c).off = 0xC00 + c % 256 * 4 := congrArg (· + c % 256 * 4) hf
    exact h.flag (k _ _ (by omega)) (by omega)
  have cfg (f : FieldRef) (hf : f.off = 0x400) : t.chFlag c f = s.chFlag c f := by
    have off : (chReg f c).off = 0x400 + c % 256 * 4 := congrArg (· + c % 256 * 4) hf
    exact h.flag (k _ _ (by omega)) (by omega)
  have pwr (q : Nat) : t.pwr q = s.pwr q := h.stored (k _ _ (.inl rfl)) (by decide)
  simp only [State.armedHigh, State.isHigh, State.isMasked, State.isSelfMasked, State.isBlanked, State.frontEndOn, pwr,
    stat Reg.BLOCK.CH_STAT_HIGH rfl, stat Reg.BLOCK.CH_STAT_SMASK rfl, stat Reg.BLOCK.CH_STAT_BLANKED rfl,
    cfg Reg.BLOCK.CH_CFG_MASK rfl]

theorem State.GateRaised.armedHigh {s t : State} {tl : Fin 16} (h : s.GateRaised t tl) (c : Nat) :
    t.armedHigh c = s.armedHigh c := h.regs.armedHigh (fun _ _ k => not_gateHighReg (by omega)) c

theorem State.gateHighChan_leaves {tl : Fin 16} {c : Nat} (hc : chTile c = tl) (s : State) (f : Nat) :
    s.GateRaised (s.gateHighChan f c) tl ∧ (s.armedHigh c = true → ((s.gateHighChan f c).chan c).rearm = true) := by
  by_cases h : s.armedHigh c = true
  · have off : (chReg Reg.BLOCK.CH_CNT_GATEHIGH_CNT c).off = 0x800 + c % 256 * 4 := rfl
    have block (u : State) (b : Nat) : u.RegsBut GateHighReg (u.bump (chPage c) (chReg Reg.BLOCK.CH_CNT_GATEHIGH_CNT c) b) :=
      State.regsBut_bump (.inr (.inr (by omega))) (.inl rfl) (by omega) u b 1
    have tile (u : State) : u.RegsBut GateHighReg (u.bump (pgTILE tl) Reg.TILE.CHAFF_GATEHIGH 2) :=
      State.regsBut_bump (.inr (.inl rfl)) (.inl rfl) (by decide) u 2 1
    have eq : s.gateHighChan f c =
        ((s.setChan c { s.chan c with rearm := true }).bumpGateHigh c).chaffGateHigh tl f := hc ▸ if_pos h
    rw [eq]
    refine ⟨⟨?_, ?_, ?_, ?_, fun u hu => ?_, fun d hd => ?_⟩, fun _ => ?_⟩
    · simp [State.chaffGateHigh, State.bumpGateHigh]
    · exact (((State.regsBut_setChan ..).trans (block _ _)).trans (State.regsBut_setTile ..)).trans (tile _)
    · simp [State.chaffGateHigh, State.bumpGateHigh, Tile.addChaff]
    · simp [State.chaffGateHigh, State.bumpGateHigh, Tile.addChaff]
    · simp [State.chaffGateHigh, State.bumpGateHigh, State.setTile_tile_ne hu]
    · by_cases e : d = c
      · simp [State.chaffGateHigh, State.bumpGateHigh, e]
      · simpa [State.chaffGateHigh, State.bumpGateHigh, State.setChan_chan_ne e] using hd
    · simp [State.chaffGateHigh, State.bumpGateHigh]
  · rw [show s.gateHighChan f c = s from if_neg h]
    exact ⟨.refl s tl, fun k => absurd k h⟩

theorem State.each_gateHigh {tl : Fin 16} {f : Nat} {l : List Nat} (hl : ∀ c ∈ l, chTile c = tl) (s : State) :
    s.GateRaised (s.each l (·.gateHighChan f)) tl ∧
      ∀ c ∈ l, s.armedHigh c = true → ((s.each l (·.gateHighChan f)).chan c).rearm = true := by
  induction l generalizing s with
  | nil => exact ⟨.refl s tl, fun _ h => absurd h List.not_mem_nil⟩
  | cons d l ih =>
    obtain ⟨first, done⟩ := State.gateHighChan_leaves (hl d List.mem_cons_self) s f
    obtain ⟨rest, all⟩ := ih (fun c hc => hl c (List.mem_cons_of_mem _ hc)) (s.gateHighChan f d)
    refine ⟨first.trans rest, fun c hc armed => ?_⟩
    rcases List.mem_cons.1 hc with rfl | hc
    · exact rest.rearm c (done armed)
    · exact all c hc ((first.armedHigh c).trans armed)

theorem State.chTile_of_mem_tileChans {s : State} {tl : Fin 16} {c : Nat} (h : c ∈ s.tileChans tl) : chTile c = tl := by
  have tile : c / 4096 = tl.val := by simpa using (List.mem_filter.1 h).2
  exact Fin.ext ((congrArg (· % 16) tile).trans (Nat.mod_eq_of_lt tl.isLt))

theorem State.gateHigh_leaves (s : State) (tl : Fin 16) (tap : Nat) : s.GateRaised (s.gateHigh tl tap) tl ∧
    ∀ c ∈ s.tileChans tl, s.armedHigh c = true → ((s.gateHigh tl tap).chan c).rearm = true :=
  State.each_gateHigh (fun _ => State.chTile_of_mem_tileChans) s

/-! ### A gate change is applied (R34) -/

/-- The state of the change's source is set. -/
def State.gateTaken (s : State) (tl : Fin 16) (e : GateEdge) (r : List GateEdge) : State :=
  (s.advance (e.tap / 64)).setTile tl
    { s.tile tl with gateNext := r, gateNow := mapPut e.src e.isOpen (s.tile tl).gateNow }

/-- GATE_STATUS shows the source in force, and R36 applies as it opens. -/
def State.gateServed (s : State) (tl : Fin 16) (e : GateEdge) (was : Bool) : State :=
  if e.src = s.fld (pgAFE tl) Reg.AFE.GATE_CTRL_SRC then
    if e.isOpen && !was && !e.seen then (s.putB (pgAFE tl) Reg.AFE.GATE_STATUS_OPEN e.isOpen).gateHigh tl e.tap
    else s.putB (pgAFE tl) Reg.AFE.GATE_STATUS_OPEN e.isOpen
  else s

/-- The windows that stay queued: one leaves as it closes (R181). -/
def State.windowsLeft (s : State) (e : GateEdge) : List GateWindow :=
  if e.isOpen then s.trig.windows else s.trig.windows.filter (fun w =>
    match w.sent with | some x => x.2 != e.tap | none => true)

def State.windowsKept (s : State) (e : GateEdge) : State := { s with trig := { s.trig with windows := s.windowsLeft e } }

/-- The belfry's view of its windows follows (R181). -/
def State.gateFollowed (s : State) (e : GateEdge) : State :=
  if e.src = 3 then
    ((s.windowsKept e).put pgTRIG Reg.TRIG.GATE_STATUS_QUEUED (s.windowsLeft e).length).putB pgTRIG
      Reg.TRIG.GATE_STATUS_TIMED_OPEN e.isOpen
  else s

theorem State.gateApplyCmd_eq {s : State} {tl : Fin 16} {e : GateEdge} {r : List GateEdge} (h : (s.tile tl).gateNext = e :: r) :
    s.gateApplyCmd tl = ((s.gateTaken tl e r).gateServed tl e (s.gateOpen tl (e.tap - 1))).gateFollowed e := by
  unfold State.gateApplyCmd State.gateApply
  rw [h]
  rfl

theorem State.gateFollowed_leaves (s : State) (e : GateEdge) : s.Only 65560 (s.gateFollowed e) ∧
    s.RegsBut (fun q o => (q, o) ∈ [(pgTRIG, Reg.TRIG.GATE_STATUS.off)]) (s.gateFollowed e) ∧
    (e.src = 3 → (s.gateFollowed e).stored pgTRIG Reg.TRIG.GATE_STATUS_TIMED_OPEN = e.isOpen.toNat) := by
  have kept : s.Only 65560 (s.windowsKept e) := State.Only.of (.refl s) (trig := .inl (by decide))
  by_cases timed : e.src = 3
  · rw [State.gateFollowed, if_pos timed]
    refine ⟨?_, ?_, fun _ => State.stored_putB_same (by decide) (by decide) ..⟩
    · exact State.putB_only (State.put_only kept _ _ _ (by decide)) _ _ _ (by decide)
    · exact ((State.RegsBut.of (s := s) (t := s.windowsKept e) rfl rfl).trans (State.regsBut_put List.mem_cons_self (by decide) _ _)).trans
        (State.regsBut_putB List.mem_cons_self (by decide) _ _)
  · rw [State.gateFollowed, if_neg timed]
    exact ⟨.refl s, .refl s, fun h => absurd h timed⟩

/-- What the tile and its channels hold after a gate change of the source in force. -/
theorem State.gateServed_leaves {s : State} {tl : Fin 16} {e : GateEdge} (h : e.src = s.fld (pgAFE tl) Reg.AFE.GATE_CTRL_SRC)
    (was : Bool) :
    (s.gateServed tl e was).stored (pgAFE tl) Reg.AFE.GATE_STATUS_OPEN = e.isOpen.toNat ∧
      (e.isOpen = true → e.seen = false → was = false →
        ∀ c ∈ s.tileChans tl, s.armedHigh c = true → ((s.gateServed tl e was).chan c).rearm = true) := by
  obtain ⟨raised, rearms⟩ := (s.putB (pgAFE tl) Reg.AFE.GATE_STATUS_OPEN e.isOpen).gateHigh_leaves tl e.tap
  have put : s.RegsBut (fun _ o => o = 0x048) (s.putB (pgAFE tl) Reg.AFE.GATE_STATUS_OPEN e.isOpen) :=
    State.regsBut_putB (P := fun _ o => o = 0x048) (f := Reg.AFE.GATE_STATUS_OPEN) rfl (by decide) s e.isOpen
  have shown := State.stored_putB_same (f := Reg.AFE.GATE_STATUS_OPEN) (by decide) (by decide) s (pgAFE tl) e.isOpen
  rw [State.gateServed, if_pos h]
  split_ifs with opens
  · refine ⟨(raised.regs.stored (not_gateHighReg (.inr (.inl rfl))) (by decide)).trans shown, fun _ _ _ c hc armed => ?_⟩
    exact rearms c hc ((put.armedHigh (fun _ _ k => by omega) c).trans armed)
  · refine ⟨shown, fun o k w => absurd ?_ opens⟩
    rw [o, k, w]; rfl

theorem State.gateServed_tiles (s : State) (tl : Fin 16) (e : GateEdge) (was : Bool) :
    (s.gateServed tl e was).now = s.now ∧ ((s.gateServed tl e was).tile tl).gateNext = (s.tile tl).gateNext ∧
      ((s.gateServed tl e was).tile tl).gateNow = (s.tile tl).gateNow ∧
      ∀ u, u ≠ tl → (s.gateServed tl e was).tile u = s.tile u := by
  have put := State.putB_only (L := 24) (.refl s) (pgAFE tl) Reg.AFE.GATE_STATUS_OPEN e.isOpen (by decide)
  unfold State.gateServed
  split_ifs
  · obtain ⟨raised, -⟩ := (s.putB (pgAFE tl) Reg.AFE.GATE_STATUS_OPEN e.isOpen).gateHigh_leaves tl e.tap
    exact ⟨raised.now.trans (put.now (by decide)), raised.next.trans (by rw [put.sameTile tl]),
      raised.gates.trans (by rw [put.sameTile tl]), fun u hu => (raised.others u hu).trans (put.sameTile u)⟩
  · exact ⟨put.now (by decide), by rw [put.sameTile tl], by rw [put.sameTile tl], fun u _ => put.sameTile u⟩
  · exact ⟨rfl, rfl, rfl, fun _ _ => rfl⟩

/-! ### Stuck timer and blanking -/

theorem State.stuckExpiry_eq {s : State} {c t u : Nat} (timer : (s.chan c).stuckFrom = some u) (high : s.isHigh c = true)
    (on : s.frontEndOn c = true) (limit : u + s.fld (chPage c) Reg.BLOCK.STUCK_LIM_LIMIT_US * 640 * 64 ≤ t) :
    s.stuckExpiry c t = (s.advance (t / 64)).selfMask c := by
  have past : u + s.stuckTaps c ≤ t := limit
  simp [State.stuckExpiry, timer, high, on, past]

theorem State.blankingEnd_eq {s : State} {c t : Nat} (blank : s.isBlanked c = true) (ended : (s.chan c).blankEnd ≤ t) :
    s.blankingEnd c t = ((s.advance (t / 64)).putCh c Reg.BLOCK.CH_STAT_BLANKED false).setChan c
      { s.chan c with blankEnd := 0, rearm := s.isHigh c } := by
  rw [State.blankingEnd, blank, decide_eq_true ended]
  rfl

/-- Settles O33. A gate change is taken, served with R36 (`State.gateServed_leaves`) and followed by the belfry; a stuck timer
ends in `selfMask`. -/
theorem gatesOpenAndChannelsRearm : Obligations.GatesOpenAndChannelsRearm := by
  unfold Obligations.GatesOpenAndChannelsRearm
  refine ⟨?_, ?_, ?_⟩
  · intro s tl e r hp next
    refine ⟨_, (exec_gateApply hp tl).trans (congrArg _ (State.gateApplyCmd_eq next)), ?_⟩
    have taken : (s.gateTaken tl e r).tile tl = { s.tile tl with gateNext := r, gateNow := mapPut e.src e.isOpen (s.tile tl).gateNow } :=
      State.setTile_tile_same ..
    obtain ⟨now, gateNext, gateNow, others⟩ := (s.gateTaken tl e r).gateServed_tiles tl e (s.gateOpen tl (e.tap - 1))
    have served (h : e.src = s.fld (pgAFE tl) Reg.AFE.GATE_CTRL_SRC) :=
      State.gateServed_leaves (s := s.gateTaken tl e r) h (s.gateOpen tl (e.tap - 1))
    generalize (s.gateTaken tl e r).gateServed tl e (s.gateOpen tl (e.tap - 1)) = u at now gateNext gateNow others served ⊢
    obtain ⟨parts, regs, timed⟩ := u.gateFollowed_leaves e
    refine ⟨?_, ?_, ?_, fun h => ?_, fun h isOpen seen was c hc high on mask self blank => ?_, timed, fun v hv => ?_⟩
    · rw [parts.sameTile tl, gateNext, taken]
    · rw [parts.now (by decide), now]; rfl
    · rw [parts.sameTile tl, gateNow, taken]
    · exact (regs.stored (by simp [pgAFE_ne_pgTRIG]) (by decide)).trans (served h).1
    · rw [parts.chan c]
      refine (served h).2 isOpen seen was c hc (Eq.trans ?_ (s.armedHigh_of high on mask self blank))
      rfl
    · rw [parts.sameTile v, others v hv]
      exact State.setTile_tile_ne hv ..
  · intro s chan t u c hp timer high on limit
    refine ⟨_, (exec_stuckTimerExpiry hp chan t).trans (congrArg _ (State.stuckExpiry_eq timer high on limit)), ?_⟩
    have chan : (s.advance (t / 64)).chan c = s.chan c := State.advance_chan ..
    have off : (chReg Reg.BLOCK.CH_STAT_SMASK c).off = 0xC00 + c % 256 * 4 := rfl
    have apart : regKey (chPage c) (chReg Reg.BLOCK.CH_STAT_SMASK c).off ≠ regKey (chPage c) Reg.HDR.EVT_PENDING.off :=
      regKey_ne_off (by rw [off, show Reg.HDR.EVT_PENDING.off = 0x01C from rfl]; omega)
    refine ⟨?_, ?_, State.event_pends (by decide) .., ?_, ?_⟩
    · exact (congrArg (· != 0) (State.fld_event_ne apart ..)).trans (State.chFlag_putCh_same (by decide) (by decide) _ c true)
    · rw [State.selfMask, State.event_chan, State.putCh, State.putB_chan, State.setChan_chan_same, chan]
    · exact ((((State.regsBut_advance s _).trans (State.regsBut_setChan ..)).trans
        (State.regsBut_putB List.mem_cons_self (chReg_off_lt (by decide) c) _ true)).trans
        (State.regsBut_event (List.mem_cons_of_mem _ List.mem_cons_self) _ 0)).same
    · exact (State.selfMask_only (L := 217) (State.advance_only (.refl s) _ (by decide)) c (by decide)).changes (by decide)
  · intro s chan t c hp blank ended
    have put := State.chFlag_putCh_same (f := Reg.BLOCK.CH_STAT_BLANKED) (by decide) (by decide) (s.advance (t / 64)) c false
    refine ⟨_, (exec_blankingEnd hp chan t).trans (congrArg _ (State.blankingEnd_eq blank ended)),
      (State.setChan_flag ..).trans put, State.setChan_chan_same .., ?_, ?_⟩
    · exact (((State.regsBut_advance s _).trans (State.regsBut_putB List.mem_cons_self (chReg_off_lt (by decide) c) _ false)).trans
        (State.regsBut_setChan ..)).same
    · exact (State.setChan_only (L := 153) (State.putCh_only (State.advance_only (.refl s) _ (by decide)) c _ _ (by decide)) c _
        (by decide)).changes (by decide)

end Sys2Proof.Machine
end

section
/-!
PROOFS. The family of the channel front end: injections are launched, and end without a hit (R42-R45, R220).
-/

namespace Sys2Proof.Machine

theorem exec_injectionLaunch {s : State} (h : s.powered = true) (t b : Fin 16) :
    exec (.injectionLaunch t b) s = .next (s.injectionLaunch t b) := congrArg Host.Outcome.next (if_pos h)

theorem exec_injBlindExpiry {s : State} (h : s.powered = true) (chan : BitVec 16) (t : Nat) :
    exec (.injBlindExpiry chan t) s = .next (s.blindExpiry chan.toNat t) := congrArg Host.Outcome.next (if_pos h)

/-! ### What decides a launch -/

theorem chPage_ne_CALS (c : Nat) : chPage c ≠ pgCALS := by
  have page : chPage c = 0x1000 + 0x100 * (c / 4096 % 16) + 0x10 + c / 256 % 16 := rfl
  have cals : pgCALS = 0xF := rfl
  omega

theorem pgTILE_ne_CALS (t : Nat) : pgTILE t ≠ pgCALS := by
  have tile : pgTILE t = 0x1000 + 0x100 * t := rfl
  have cals : pgCALS = 0xF := rfl
  omega

/-- The registers that a launch writes: the CALS page's, and INJ_CTRL of a block, which decide no launch. -/
def LaunchReg (q o : Nat) : Prop := q = pgCALS ∨ o = Reg.BLOCK.INJ_CTRL.off

theorem not_launchReg {q o : Nat} (h : q ≠ pgCALS) (k : o ≠ 0x050) : ¬LaunchReg q o := fun l => l.elim h k

theorem State.RegsBut.canInject {s t : State} {c : Nat} (h : s.RegsBut LaunchReg t) (hc : t.chan c = s.chan c) (tap : Nat) :
    t.canInject c tap = s.canInject c tap := by
  have flag (f : FieldRef) (hf : f.off = 0xC00 ∨ f.off = 0x400) : t.chFlag c f = s.chFlag c f := by
    have off : (chReg f c).off = f.off + c % 256 * 4 := rfl
    exact h.flag (not_launchReg (chPage_ne_CALS c) (by omega)) (by omega)
  have pwr (q : Nat) (hq : q ≠ pgCALS) : t.pwr q = s.pwr q := h.stored (not_launchReg hq (by decide)) (by decide)
  simp only [State.canInject, State.frontEndOn, State.isMasked, State.isSelfMasked, State.isHigh, hc,
    pwr _ (chPage_ne_CALS c), pwr _ (pgTILE_ne_CALS _), flag Reg.BLOCK.CH_CFG_INJ_EN (.inr rfl), flag Reg.BLOCK.CH_CFG_MASK (.inr rfl),
    flag Reg.BLOCK.CH_STAT_SMASK (.inl rfl), flag Reg.BLOCK.CH_STAT_HIGH (.inl rfl)]

theorem State.RegsBut.injCharge {s t : State} (h : s.RegsBut LaunchReg t) (c : Nat) : t.injCharge c = s.injCharge c := by
  have level : t.fld (chPage c) Reg.BLOCK.INJ_DAC_LEVEL = s.fld (chPage c) Reg.BLOCK.INJ_DAC_LEVEL :=
    h.fld (not_launchReg (chPage_ne_CALS c) (by decide)) (by decide)
  have sign : t.positive c = s.positive c := h.flag (not_launchReg (chPage_ne_CALS c) (by decide)) (by decide)
  rw [State.injCharge, State.injCharge, level, sign]

/-! ### Launches into channels -/

/-- The injection that a launch at tap-time `tap` puts into channel `c`. -/
def State.injection (s : State) (c tap : Nat) : Inject := { launch := tap, charge := s.injCharge c, hit := false, fallen := false }

/-- One channel of a FIRE: a launch where R43 allows it, else it counts as skipped. -/
def State.launchOne (s : State) (c tap : Nat) : State :=
  if s.canInject c tap then
    { s.launch c tap with cal := { s.cal with launches := s.cal.launches ++ [{ chan := c, launch := tap, hit := none }] } }
  else s.bump pgCALS Reg.CALS.SKIP_CNT 2

/-- Where launches that are not made count (R43). -/
abbrev SkipReg (q o : Nat) : Prop := (q, o) ∈ [(pgCALS, Reg.CALS.SKIP_CNT.off), (pgCALS, Reg.HDR.COUNTER_OVF.off)]

theorem launchReg_of_skipReg {q o : Nat} (h : SkipReg q o) : LaunchReg q o := by
  refine .inl ?_
  simp only [List.mem_cons, Prod.mk.injEq, List.not_mem_nil, or_false] at h
  exact h.elim And.left And.left

/-- What launches leave: the FIREs pending, the registers but the counts, the launches already made. -/
structure State.Launching (s t : State) : Prop where
  fires : t.cal.fires = s.cal.fires
  regs : s.RegsBut SkipReg t
  made : ∀ x ∈ s.cal.launches, x ∈ t.cal.launches

theorem State.launchOne_leaves (s : State) (c tap : Nat) :
    s.Launching (s.launchOne c tap) ∧ (∀ d, d ≠ c → (s.launchOne c tap).chan d = s.chan d) ∧
      (s.canInject c tap = false → (s.launchOne c tap).chan c = s.chan c) ∧
      (s.canInject c tap = true → (s.launchOne c tap).chan c = { s.chan c with inj := some (s.injection c tap) } ∧
        { chan := c, launch := tap, hit := none } ∈ (s.launchOne c tap).cal.launches) := by
  by_cases can : s.canInject c tap = true
  · rw [State.launchOne, if_pos can]
    refine ⟨⟨rfl, .of rfl rfl, fun x hx => List.mem_append_left _ hx⟩, fun d hd => State.setChan_chan_ne hd s _, fun h => ?_,
      fun _ => ⟨State.setChan_chan_same s c _, List.mem_append_right _ List.mem_cons_self⟩⟩
    rw [can] at h
    exact absurd h (by decide)
  · rw [State.launchOne, if_neg can]
    exact ⟨⟨by rw [State.bump_cal], State.regsBut_bump List.mem_cons_self (List.mem_cons_of_mem _ List.mem_cons_self) (by decide) s 2 1,
      fun x hx => by rwa [State.bump_cal]⟩, fun d _ => State.bump_chan .., fun _ => State.bump_chan .., fun h => absurd h can⟩

/-- Each channel of a list is launched into or left, as it stands before the launches. -/
theorem State.launchAll_leaves {l : List Nat} (nodup : l.Nodup) (s : State) (tap : Nat) :
    s.Launching (s.launchAll l tap) ∧
      (∀ c, ¬(c ∈ l ∧ s.canInject c tap = true) → (s.launchAll l tap).chan c = s.chan c) ∧
      ∀ c ∈ l, s.canInject c tap = true →
        (s.launchAll l tap).chan c = { s.chan c with inj := some (s.injection c tap) } ∧
          { chan := c, launch := tap, hit := none } ∈ (s.launchAll l tap).cal.launches := by
  induction l generalizing s with
  | nil => exact ⟨⟨rfl, .refl s, fun _ => id⟩, fun _ _ => rfl, fun _ h => absurd h List.not_mem_nil⟩
  | cons d l ih =>
    obtain ⟨hd, nodup⟩ := List.nodup_cons.1 nodup
    obtain ⟨first, apart, left, made⟩ := s.launchOne_leaves d tap
    obtain ⟨rest, skip, all⟩ := ih nodup (s.launchOne d tap)
    have regs := first.regs.mono fun _ _ => launchReg_of_skipReg
    rw [show s.launchAll (d :: l) tap = (s.launchOne d tap).launchAll l tap from rfl]
    refine ⟨⟨rest.fires.trans first.fires, first.regs.trans rest.regs, fun x hx => rest.made x (first.made x hx)⟩,
      fun c hc => ?_, fun c hc can => ?_⟩
    · by_cases e : c = d
      · subst e
        rw [skip c fun k => hd k.1]
        exact left (by simpa using hc)
      · rw [skip c fun k => hc ⟨List.mem_cons_of_mem _ k.1, by rw [← regs.canInject (apart c e), k.2]⟩, apart c e]
    · rcases List.mem_cons.1 hc with rfl | hc
      · obtain ⟨chan, mem⟩ := made can
        exact ⟨(skip c fun k => hd k.1).trans chan, rest.made _ mem⟩
      · have e : c ≠ d := fun e => hd (e ▸ hc)
        obtain ⟨chan, mem⟩ := all c hc ((regs.canInject (apart c e) tap).trans can)
        refine ⟨chan.trans ?_, mem⟩
        rw [apart c e, State.injection, regs.injCharge]
        rfl

/-! ### A FIRE -/

/-- The FIRE of a block is no longer pending. -/
def State.fireOff (s : State) (page : Nat) : State := { s with cal := { s.cal with fires := mapDel page s.cal.fires } }

/-- The FIRE pending is taken, and the block is no longer BUSY (R45). -/
def State.fireTaken (s : State) (page : Nat) : State := (s.fireOff page).putB page Reg.BLOCK.INJ_CTRL_BUSY false

theorem State.injectionLaunch_eq {s : State} {t b : Fin 16} {f : Nat} (h : mapFind (pgBLOCK t b) s.cal.fires = some f) (k : f ≤ s.frame) :
    s.injectionLaunch t b = (s.fireTaken (pgBLOCK t b)).launchAll
      ((s.fireTaken (pgBLOCK t b)).fireChans (pgBLOCK t b) (t.val * 4096 + b.val * 256))
      (f * 262144 + (s.fireTaken (pgBLOCK t b)).fld (pgBLOCK t b) Reg.BLOCK.INJ_TIME_COARSE * 64 +
        (s.fireTaken (pgBLOCK t b)).fld (pgBLOCK t b) Reg.BLOCK.INJ_TIME_TAP) := by
  simp only [State.injectionLaunch, h, if_pos k]
  rfl

theorem State.regsBut_fireTaken (s : State) (p : Nat) :
    s.RegsBut (fun q o => (q, o) ∈ [(p, Reg.BLOCK.INJ_CTRL.off)]) (s.fireTaken p) :=
  (State.RegsBut.of (s := s) (t := s.fireOff p) rfl rfl).trans (State.regsBut_putB List.mem_cons_self (by decide) _ _)

/-- The channels that a FIRE selects, by their number (R45). -/
theorem State.mem_fireChans {s : State} {p base c : Nat} (hb : base % 256 = 0) :
    c ∈ s.fireChans p base ↔ c / 256 = base / 256 ∧ (s.fld p Reg.BLOCK.INJ_CTRL_CELLS).testBit (c % 256 / 16) = true ∧
      s.chFlag c Reg.BLOCK.CH_CFG_INJ_EN = true := by
  have range (i : Nat) (h : i < 256) : (base + i) / 256 = base / 256 ∧ (base + i) % 256 = i := by omega
  simp only [State.fireChans, List.mem_filterMap, List.mem_range, Option.ite_none_right_eq_some, Bool.and_eq_true,
    Option.some.injEq]
  constructor
  · rintro ⟨i, hi, sel, rfl⟩
    rw [(range i hi).1, (range i hi).2]
    exact ⟨rfl, sel⟩
  · rintro ⟨block, sel⟩
    have split : base + c % 256 = c := by omega
    exact ⟨c % 256, Nat.mod_lt _ (by decide), by rwa [split], split⟩

theorem State.fireChans_nodup (s : State) (p base : Nat) : (s.fireChans p base).Nodup := by
  refine List.Nodup.filterMap (fun i j c hi hj => ?_) List.nodup_range
  simp only [Option.mem_def, Option.ite_none_right_eq_some, Option.some.injEq] at hi hj
  omega

/-- The block's setting of the FIRE stays as it was. -/
theorem State.fireTaken_fld {f : FieldRef} (h : (Reg.BLOCK.INJ_CTRL_BUSY.off ≠ f.off ∧ f.off < 4096) ∨ f = Reg.BLOCK.INJ_CTRL_CELLS)
    (s : State) (p : Nat) : (s.fireTaken p).fld p f = s.fld p f := by
  rcases h with ⟨h, k⟩ | rfl
  · exact (s.regsBut_fireTaken p).fld (by simpa using fun e => h e.symm) k
  · exact State.fld_put_apart (f := Reg.BLOCK.INJ_CTRL_BUSY) (g := Reg.BLOCK.INJ_CTRL_CELLS) rfl (by decide) (by decide)
      (by decide) (by decide) (by decide) (s.fireOff p) p 0

theorem State.fireTaken_launchReg (s : State) (p : Nat) : s.RegsBut LaunchReg (s.fireTaken p) :=
  (s.regsBut_fireTaken p).mono fun _ _ m => .inr (by simp_all)

/-- The FIRE's channels, in the state before it: those of R45 that R43 allows. -/
theorem State.fire_selects (s : State) (t b : Fin 16) (c tap : Nat) :
    (c ∈ (s.fireTaken (pgBLOCK t b)).fireChans (pgBLOCK t b) (t.val * 4096 + b.val * 256) ∧
      (s.fireTaken (pgBLOCK t b)).canInject c tap = true) ↔
    c / 256 = t.val * 16 + b.val ∧ (s.fld (pgBLOCK t b) Reg.BLOCK.INJ_CTRL_CELLS).testBit (c % 256 / 16) = true ∧
      s.canInject c tap = true := by
  have can := (s.fireTaken_launchReg (pgBLOCK t b)).canInject (c := c) rfl tap
  have base : (t.val * 4096 + b.val * 256) / 256 = t.val * 16 + b.val := by omega
  have enabled : (s.fireTaken (pgBLOCK t b)).canInject c tap = true →
      (s.fireTaken (pgBLOCK t b)).chFlag c Reg.BLOCK.CH_CFG_INJ_EN = true := fun h => by
    simp only [State.canInject, Bool.and_eq_true] at h
    tauto
  rw [State.mem_fireChans (by omega), base, State.fireTaken_fld (.inr rfl), ← can]
  tauto

/-! ### The blind interval ends without a hit -/

theorem State.regsBut_overflow {P : Nat → Nat → Prop} {p : Nat} (h : P p Reg.HDR.COUNTER_OVF.off) (s : State) (b : Nat) :
    s.RegsBut P (s.overflow p b) := ⟨fun _ _ ho hp => State.sameReg_wr (regKey_ne_of h hp (by decide) ho) s _⟩

theorem State.regsBut_bump64 {P : Nat → Nat → Prop} {p : Nat} {f g : FieldRef} (hf : P p f.off) (hg : P p g.off)
    (ho : P p Reg.HDR.COUNTER_OVF.off) (kf : f.off < 4096) (kg : g.off < 4096) (s : State) (b n : Nat) :
    s.RegsBut P (s.bump64 p f g b n) :=
  .ite ((State.regsBut_put hf kf s _).trans (State.regsBut_put hg kg _ _))
    (((State.regsBut_put hf kf s _).trans (State.regsBut_put hg kg _ _)).trans (State.regsBut_overflow ho _ b))

/-- The channel's dead time of calibration (R220). -/
def State.deadAdded (s : State) (c n : Nat) : State :=
  { s with cal := { s.cal with cdead := mapPutD 0 c (min (mapGetD 0 c s.cal.cdead + n) (2 ^ 32 - 1)) s.cal.cdead } }

/-- The registers that count it. -/
def CalDeadReg (q o : Nat) : Prop := q = pgCALS ∧ o ≠ Reg.CALS.MISS_CNT.off

theorem State.addCalDead_leaves (s : State) (c n : Nat) :
    (s.addCalDead c n).cal = (s.deadAdded c n).cal ∧ s.RegsBut CalDeadReg (s.addCalDead c n) := by
  have field (o : Nat) (h : o ≠ Reg.CALS.MISS_CNT.off) : CalDeadReg pgCALS o := ⟨rfl, h⟩
  have eq : s.addCalDead c n = State.bump64 (if mapGetD 0 c s.cal.cdead + n < 2 ^ 32 then s.deadAdded c n
      else (s.deadAdded c n).overflow pgCALS 6) pgCALS Reg.CALS.CDEAD_TOT_LO Reg.CALS.CDEAD_TOT_HI 5 n := rfl
  have first : s.RegsBut CalDeadReg (s.deadAdded c n) := .of rfl rfl
  rw [eq]
  constructor
  · rw [State.bump64_cal]
    split_ifs
    · rfl
    · rw [State.overflow_cal]
  · refine State.RegsBut.trans ?_ (State.regsBut_bump64 (field _ (by decide)) (field _ (by decide)) (field _ (by decide))
      (by decide) (by decide) _ 5 n)
    exact .ite first (first.trans (State.regsBut_overflow (field _ (by decide)) _ 6))

theorem State.calMissed_leaves {s : State} {c : Nat} (below : s.stored pgCALS Reg.CALS.MISS_CNT < 2 ^ 32 - 1) :
    (s.calMissed c).cal = (s.deadAdded c 32).cal ∧
      (s.calMissed c).stored pgCALS Reg.CALS.MISS_CNT = s.stored pgCALS Reg.CALS.MISS_CNT + 1 ∧
      s.RegsBut (fun q _ => q ∈ [pgCALS]) (s.calMissed c) := by
  obtain ⟨cal, regs⟩ := s.addCalDead_leaves c 32
  have count : (s.addCalDead c 32).stored pgCALS Reg.CALS.MISS_CNT = s.stored pgCALS Reg.CALS.MISS_CNT :=
    regs.stored (fun h => h.2 rfl) (by decide)
  have room : (s.addCalDead c 32).stored pgCALS Reg.CALS.MISS_CNT + 1 < 2 ^ 32 := by omega
  refine ⟨(State.bump_cal ..).trans cal, ?_, (regs.mono fun q o h => by rw [h.1]; exact List.mem_cons_self).trans
    (State.regsBut_bump List.mem_cons_self List.mem_cons_self (by decide) _ 3 1)⟩
  exact (State.stored_bump_below (f := Reg.CALS.MISS_CNT) (by decide) (by decide) room 3).trans (congrArg (· + 1) count)

/-- The launches are forgotten. -/
def State.launchesOver (s : State) : State := { s with cal := { s.cal with launches := [] } }

theorem State.blindExpiry_eq {s : State} {c t : Nat} {i : Inject} (hi : (s.chan c).inj = some i) (hit : i.hit = false)
    (blind : i.launch + 32 * 64 ≤ t) : s.blindExpiry c t = ((s.advance (t / 64)).launchBlind c i.launch).endInject c := by
  have ended : s.blindOver c t = true := by simp [State.blindOver, hi, hit, blind]
  rw [State.blindExpiry, if_pos ended, hi]

theorem State.launchBlind_eq {s : State} {c launch : Nat} (h : s.cal.launches = [{ chan := c, launch := launch, hit := none }]) :
    s.launchBlind c launch = s.launchesOver.calMissed c := by
  have ended : s.cal.launches.filter (fun l => l.chan == c && l.launch == launch) = s.cal.launches := by rw [h]; simp
  have left : s.cal.launches.filter (fun l => !(l.chan == c && l.launch == launch)) = [] := by rw [h]; simp
  rw [State.launchBlind, State.missLaunches, State.dropLaunches, ended, left, h, State.each_cons, State.each_nil,
    State.launchesOver]

/-- Settles O34. The channels of a FIRE are launched into as they stand (`State.launchAll_leaves`, `State.fire_selects`). -/
theorem injectionsAreLaunched : Obligations.InjectionsAreLaunched := by
  unfold Obligations.InjectionsAreLaunched
  refine ⟨?_, ?_⟩
  · intro s tl b f c p tap i chosen hp fires begun
    have coarse : (s.fireTaken p).fld p Reg.BLOCK.INJ_TIME_COARSE = s.fld p Reg.BLOCK.INJ_TIME_COARSE :=
      State.fireTaken_fld (.inl (by decide)) s p
    have fine : (s.fireTaken p).fld p Reg.BLOCK.INJ_TIME_TAP = s.fld p Reg.BLOCK.INJ_TIME_TAP :=
      State.fireTaken_fld (.inl (by decide)) s p
    have row := (exec_injectionLaunch hp tl b).trans (congrArg _ (State.injectionLaunch_eq fires begun))
    rw [coarse, fine] at row
    obtain ⟨launching, skip, made⟩ := (s.fireTaken p).launchAll_leaves
      ((s.fireTaken p).fireChans_nodup p (tl.val * 4096 + b.val * 256)) tap
    have selects := s.fire_selects tl b c tap
    refine ⟨_, row, ?_, launching.fires.trans ?_, fun h => ?_, fun h => (skip c (h ∘ selects.1)).trans rfl, ?_, ?_⟩
    · rw [launching.regs.stored (by simp [Reg.BLOCK.INJ_CTRL_BUSY, Reg.CALS.SKIP_CNT, Reg.HDR.COUNTER_OVF]) (by decide)]
      exact State.stored_putB_same (by decide) (by decide) (s.fireOff p) p false
    · exact congrArg CalSt.fires (State.putB_cal (s.fireOff p) ..)
    · obtain ⟨chan, mem⟩ := made c (selects.2 h).1 (selects.2 h).2
      rw [chan, State.injection, (s.fireTaken_launchReg p).injCharge]
      exact ⟨rfl, mem⟩
    · exact (((s.regsBut_fireTaken p).mono fun q o m => by simp_all).trans
        (launching.regs.mono fun q o m => List.mem_cons_of_mem _ m)).same
    · have parts := State.injectionLaunch_only (L := 8388760) (.refl s) tl b (by decide)
      rw [State.injectionLaunch_eq fires begun, coarse, fine] at parts
      exact parts.changes (by decide)
  · intro s chan t i c hp hi hit blind one below
    have row := (exec_injBlindExpiry hp chan t).trans (congrArg _ (State.blindExpiry_eq hi hit blind))
    have parts := State.blindExpiry_only (L := 8388761) (.refl s) c t (by decide)
    rw [State.blindExpiry_eq hi hit blind] at parts
    rw [State.launchBlind_eq (s := s.advance (t / 64)) one] at row parts
    have before : (s.advance (t / 64)).launchesOver.stored pgCALS Reg.CALS.MISS_CNT = s.stored pgCALS Reg.CALS.MISS_CNT := rfl
    obtain ⟨cal, count, regs⟩ := State.calMissed_leaves (s := (s.advance (t / 64)).launchesOver) (c := c) (before.symm ▸ below)
    have chan : (((s.advance (t / 64)).launchesOver).calMissed c).chan c = s.chan c :=
      (State.calMissed_only (L := 8388632) (.refl _) c (by decide)).chan c
    refine ⟨_, row, ?_, ?_, ?_, ?_, ?_, parts.changes (by decide)⟩
    · rw [State.endInject, chan]
      exact State.setChan_chan_same ..
    · rw [State.endInject, State.setChan_cal, cal]
      rfl
    · rw [State.endInject, State.setChan_stored, count, before]
    · rw [State.endInject, State.setChan_cal, cal]
      rfl
    · exact (((State.RegsBut.of rfl rfl).trans regs).trans (State.regsBut_setChan ..)).same

end Sys2Proof.Machine
end

section
/-!
PROOFS. The family of the channel front end: a tile's line locks and unlocks, and its front end settles (R41, R56, R57, R59, R60, R78).
-/

namespace Sys2Proof.Machine

theorem exec_dllLock {s : State} (h : s.powered = true) (t : Fin 16) (r : LineReport) :
    exec (.dllLock ⟨t, r⟩) s = .next (s.dllLock t r) := congrArg Host.Outcome.next (if_pos h)

theorem exec_dllUnlock {s : State} (h : s.powered = true) (t : Fin 16) (r : LineReport) :
    exec (.dllUnlock ⟨t, r⟩) s = .next (s.dllUnlock t r) := congrArg Host.Outcome.next (if_pos h)

theorem exec_tileResume {s : State} (h : s.powered = true) (t : Fin 16) : exec (.tileResume t) s = .next (s.tileResume t) :=
  congrArg Host.Outcome.next (if_pos h)

theorem State.tileResume_eq {s : State} {t : Fin 16} (power : 2 ≤ s.pwr (pgTILE t))
    (locked : s.flag (pgTDC t) Reg.TDC.LOCK_STATUS_LOCKED = true) (absent : (s.tile t).absent = true) :
    s.tileResume t = s.setTile t { s.tile t with settled := true } := by simp [State.tileResume, power, locked, absent]

/-! ### The line's report -/

/-- Nothing differs but the tile's LOCK_STATUS. -/
abbrev State.LineRegs (s t : State) (tl : Fin 16) : Prop :=
  s.RegsBut (fun q o => (q, o) ∈ [(pgTDC tl, Reg.TDC.LOCK_STATUS.off)]) t

theorem State.regsBut_showLine (s : State) (t : Fin 16) (r : LineReport) : s.LineRegs (s.showLine t r) t :=
  ((State.regsBut_put List.mem_cons_self (by decide) s _).trans (State.regsBut_put List.mem_cons_self (by decide) _ _)).trans
    (State.regsBut_putB List.mem_cons_self (by decide) _ _)

/-- What LOCK_STATUS holds of the line's report `r` and of its two states. -/
structure State.ShowsLine (t : State) (tl : Fin 16) (r : LineReport) (locked absent : Nat) : Prop where
  locked : t.stored (pgTDC tl) Reg.TDC.LOCK_STATUS_LOCKED = locked
  err : t.stored (pgTDC tl) Reg.TDC.LOCK_STATUS_PHASE_ERR = r.err.toNat
  ctrl : t.stored (pgTDC tl) Reg.TDC.LOCK_STATUS_CTRL_VAL = r.ctrl.toNat
  sat : t.stored (pgTDC tl) Reg.TDC.LOCK_STATUS_SAT = if r.ctrl.toNat = 0 ∨ r.ctrl.toNat = 4095 then 1 else 0
  absent : t.stored (pgTDC tl) Reg.TDC.LOCK_STATUS_ABSENT = absent

theorem State.showLine_shows (s : State) (t : Fin 16) (r : LineReport) : (s.showLine t r).ShowsLine t r
    (s.stored (pgTDC t) Reg.TDC.LOCK_STATUS_LOCKED) (s.stored (pgTDC t) Reg.TDC.LOCK_STATUS_ABSENT) := by
  constructor
  case sat => rw [State.showLine, State.stored_putB_same (by decide) (by decide)]; split_ifs <;> simp [*]
  all_goals simp (disch := decide) only [State.showLine, State.putB, State.stored_put_apart, State.stored_put_same]
  case err => exact Nat.mod_eq_of_lt r.err.isLt
  case ctrl => exact Nat.mod_eq_of_lt r.ctrl.isLt

/-- LOCKED rises or falls: the rest of LOCK_STATUS stays. -/
theorem State.ShowsLine.putLocked {t : State} {tl : Fin 16} {r : LineReport} {n m : Nat} (h : t.ShowsLine tl r n m) (b : Bool) :
    (t.putB (pgTDC tl) Reg.TDC.LOCK_STATUS_LOCKED b).ShowsLine tl r b.toNat m := by
  constructor
  case locked => exact State.stored_putB_same (by decide) (by decide) ..
  all_goals simp (disch := decide) only [State.putB, State.stored_put_apart, h.err, h.ctrl, h.sat, h.absent]

theorem State.lineRuns_of {s : State} {t : Fin 16} (on : s.flag (pgTDC t) Reg.TDC.DLL_CTRL_ENABLE = true)
    (h : 2 ≤ s.pwr (pgTILE t)) : s.lineRuns t = true := by simp [State.lineRuns, on, h]

theorem State.showLine_tile (s : State) (t : Fin 16) (r : LineReport) (u : Fin 16) : (s.showLine t r).tile u = s.tile u :=
  (State.showLine_only (L := 24) (.refl s) t r (by decide)).sameTile u

theorem State.showLine_window (s : State) (t : Fin 16) (r : LineReport) :
    (s.showLine t r).fld (pgTDC t) Reg.TDC.DLL_CTRL_LOCK_WIN = s.fld (pgTDC t) Reg.TDC.DLL_CTRL_LOCK_WIN :=
  (s.regsBut_showLine t r).fld (by simp [Reg.TDC.DLL_CTRL_LOCK_WIN, Reg.TDC.LOCK_STATUS]) (by decide)

/-- The line locks: its phase error stayed within the window, and tap 32 is right where it acquires (R56, R57). -/
def State.locks (s : State) (t : Fin 16) (r : LineReport) : Prop :=
  r.bound ≤ s.fld (pgTDC t) Reg.TDC.DLL_CTRL_LOCK_WIN ∧ ((s.tile t).acquiring = false ∨ (-4 ≤ r.tap32 ∧ r.tap32 ≤ 4))

/-- LOCKED rises, and the line acquires no more. -/
def State.lockRises (s : State) (t : Fin 16) : State :=
  (s.setTile t { s.tile t with acquiring := false }).putB (pgTDC t) Reg.TDC.LOCK_STATUS_LOCKED true

theorem State.lockCheck_iff (s : State) (t : Fin 16) (r : LineReport) : ((s.showLine t r).inWindow t r &&
    (!((s.showLine t r).tile t).acquiring || decide (-4 ≤ r.tap32 ∧ r.tap32 ≤ 4))) = true ↔ s.locks t r := by
  simp [State.inWindow, State.locks, State.showLine_window, State.showLine_tile]

theorem State.dllLock_locks {s : State} {t : Fin 16} {r : LineReport} (h : s.lineRuns t = true) (k : s.locks t r) :
    s.dllLock t r = (s.showLine t r).lockRises t := by
  rw [State.dllLock, if_pos h]
  exact if_pos ((s.lockCheck_iff t r).2 k)

theorem State.dllLock_stays {s : State} {t : Fin 16} {r : LineReport} (h : s.lineRuns t = true) (k : ¬s.locks t r) :
    s.dllLock t r = s.showLine t r := by
  rw [State.dllLock, if_pos h]
  exact if_neg (k ∘ (s.lockCheck_iff t r).1)

/-- What LOCKED, the tile's state and the parts of the module are where the line locks. -/
theorem State.lockRises_leaves (s : State) (t : Fin 16) :
    (s.lockRises t).tile t = { s.tile t with acquiring := false } ∧ (∀ u, u ≠ t → (s.lockRises t).tile u = s.tile u) ∧
      s.LineRegs (s.lockRises t) t ∧ s.Only 280 (s.lockRises t) := by
  refine ⟨?_, fun u hu => ?_, (State.regsBut_setTile ..).trans (State.regsBut_putB List.mem_cons_self (by decide) _ _),
    State.putB_only (State.setTile_only (.refl s) _ _ (by decide)) _ _ _ (by decide)⟩
  · exact (State.putB_tile ..).trans (State.setTile_tile_same ..)
  · exact (State.putB_tile ..).trans (State.setTile_tile_ne hu ..)

theorem State.ShowsLine.lockRises {s : State} {t : Fin 16} {r : LineReport} {n m : Nat} (h : s.ShowsLine t r n m) :
    (s.lockRises t).ShowsLine t r 1 m :=
  State.ShowsLine.putLocked (t := s.setTile t _) ⟨h.locked, h.err, h.ctrl, h.sat, h.absent⟩ true

/-! ### A timing fault -/

/-- Each channel of a list loses its hits; the others stay. -/
theorem State.each_setChan_hits (l : List Nat) (s : State) (c : Nat) :
    (s.each l (fun s c => s.setChan c { s.chan c with hits := [] })).chan c =
      if c ∈ l then { s.chan c with hits := [] } else s.chan c := by
  induction l generalizing s with
  | nil => rfl
  | cons d l ih =>
    rw [State.each_cons, ih]
    by_cases hc : c = d
    · simp [hc]
    · simp [hc, State.setChan_chan_ne hc]

/-- A tile with no candidate waiting stops: its hits are discarded, and its frame is to be closed with LEAVE (R59). -/
theorem State.stopRecording_eq {s : State} {t : Fin 16} (h : (s.tile t).cands = []) (f reasons : Nat) :
    s.stopRecording t f reasons = (s.dropHits t).setTile t { s.tile t with
      halted := true, reasons := Nat.lor (s.tile t).reasons reasons,
      leaveAt := if (s.tile t).absent then (s.tile t).leaveAt else some ((s.tile t).leaveAt.getD f) } := by
  have tile : (s.dropHits t).tile t = s.tile t := (State.dropHits_only (L := 128) (.refl s) t (by decide)).sameTile t
  have none : (s.dropHits t).decideAll t = (s.dropHits t).setTile t (s.tile t) := by
    rw [State.decideAll, tile, h, State.each_nil, ← h]
  simp only [State.stopRecording, none, State.setTile_tile_same, State.setTile_setTile]

theorem State.timingFault_eq {s : State} {t : Fin 16} (h : (s.tile t).cands = []) (f : Nat) :
    s.timingFault t f = if (s.tile t).absent then (s.stopRecording t f 4).putB (pgTDC t) Reg.TDC.LOCK_STATUS_ABSENT true
      else s.stopRecording t f 4 := by
  rw [State.timingFault, State.stopRecording_eq h, State.setTile_tile_same]

/-- What a timing fault leaves of a tile with no candidate waiting (R59, R60). -/
theorem State.timingFault_leaves {s : State} {t : Fin 16} (h : (s.tile t).cands = []) (f : Nat) :
    (s.timingFault t f).tile t = { s.tile t with
      halted := true, reasons := Nat.lor (s.tile t).reasons 4,
      leaveAt := if (s.tile t).absent then (s.tile t).leaveAt else some ((s.tile t).leaveAt.getD f) } ∧
      (s.timingFault t f).stored (pgTDC t) Reg.TDC.LOCK_STATUS_ABSENT =
        (if (s.tile t).absent then 1 else s.stored (pgTDC t) Reg.TDC.LOCK_STATUS_ABSENT) ∧
      (∀ c, (s.timingFault t f).chan c = if c ∈ s.tileChans t then { s.chan c with hits := [] } else s.chan c) ∧
      s.LineRegs (s.timingFault t f) t ∧
      (s.timingFault t f).stored (pgTDC t) Reg.TDC.LOCK_STATUS_LOCKED = s.stored (pgTDC t) Reg.TDC.LOCK_STATUS_LOCKED := by
  have drop := State.dropHits_only (L := 128) (.refl s) t (by decide)
  have stop : s.LineRegs (s.stopRecording t f 4) t := by
    rw [State.stopRecording_eq h]
    exact (State.RegsBut.of (drop.regs (by decide)) (drop.stale (by decide))).trans (State.regsBut_setTile ..)
  have all (g : FieldRef) : (s.stopRecording t f 4).stored (pgTDC t) g = s.stored (pgTDC t) g := by
    rw [State.stopRecording_eq h, State.setTile_stored, State.stored, State.rd, drop.regs (by decide)]
    rfl
  have chans (c : Nat) : (s.stopRecording t f 4).chan c = if c ∈ s.tileChans t then { s.chan c with hits := [] } else s.chan c := by
    rw [State.stopRecording_eq h, State.setTile_chan]
    exact State.each_setChan_hits ..
  have tile := congrArg (·.tile t) (State.stopRecording_eq h f 4)
  simp only [State.setTile_tile_same] at tile
  rw [State.timingFault_eq h]
  by_cases absent : (s.tile t).absent = true
  · simp only [if_pos absent] at tile ⊢
    refine ⟨(State.putB_tile ..).trans tile, State.stored_putB_same (by decide) (by decide) ..,
      fun c => (State.putB_chan ..).trans (chans c),
      stop.trans (State.regsBut_putB List.mem_cons_self (by decide) _ _), ?_⟩
    simp (disch := decide) only [State.putB, State.stored_put_apart, all]
  · simp only [if_neg absent] at tile ⊢
    exact ⟨tile, all _, chans, stop, all _⟩

/-- The state in which LOCKED has fallen and the fault is in force, before it is counted. -/
def State.lockFallen (s : State) (t : Fin 16) : State :=
  (s.putB (pgTDC t) Reg.TDC.LOCK_STATUS_LOCKED false).timingFault t s.frame

theorem State.lockFallen_leaves {s : State} {t : Fin 16} (h : (s.tile t).cands = []) :
    (s.lockFallen t).tile t = { s.tile t with
      halted := true, reasons := Nat.lor (s.tile t).reasons 4,
      leaveAt := if (s.tile t).absent then (s.tile t).leaveAt else some ((s.tile t).leaveAt.getD s.frame) } ∧
      (s.lockFallen t).stored (pgTDC t) Reg.TDC.LOCK_STATUS_ABSENT =
        (if (s.tile t).absent then 1 else s.stored (pgTDC t) Reg.TDC.LOCK_STATUS_ABSENT) ∧
      (∀ c, (s.lockFallen t).chan c = if c ∈ s.tileChans t then { s.chan c with hits := [] } else s.chan c) ∧
      s.LineRegs (s.lockFallen t) t ∧ (s.lockFallen t).stored (pgTDC t) Reg.TDC.LOCK_STATUS_LOCKED = 0 := by
  have tile : (s.putB (pgTDC t) Reg.TDC.LOCK_STATUS_LOCKED false).tile t = s.tile t := State.putB_tile ..
  have chan (c : Nat) : (s.putB (pgTDC t) Reg.TDC.LOCK_STATUS_LOCKED false).chan c = s.chan c := State.putB_chan ..
  have chans : (s.putB (pgTDC t) Reg.TDC.LOCK_STATUS_LOCKED false).tileChans t = s.tileChans t := rfl
  have other : (s.putB (pgTDC t) Reg.TDC.LOCK_STATUS_LOCKED false).stored (pgTDC t) Reg.TDC.LOCK_STATUS_ABSENT =
      s.stored (pgTDC t) Reg.TDC.LOCK_STATUS_ABSENT := by simp (disch := decide) only [State.putB, State.stored_put_apart]
  have fault := State.timingFault_leaves (tile.symm ▸ h) s.frame
  simp only [tile, chan, chans, other] at fault
  obtain ⟨after, absent, dropped, regs, locked⟩ := fault
  exact ⟨after, absent, dropped, (State.regsBut_putB List.mem_cons_self (by decide) s false).trans regs,
    locked.trans (State.stored_putB_same (by decide) (by decide) ..)⟩

theorem State.dllUnlock_eq {s : State} {t : Fin 16} {r : LineReport} (h : s.lineRuns t = true)
    (locked : s.flag (pgTDC t) Reg.TDC.LOCK_STATUS_LOCKED = true) (out : s.fld (pgTDC t) Reg.TDC.DLL_CTRL_LOCK_WIN < r.least) :
    s.dllUnlock t r = (s.showLine t r).lockLost t := by
  have shown : (s.showLine t r).flag (pgTDC t) Reg.TDC.LOCK_STATUS_LOCKED = true := by
    simp (disch := decide) only [State.showLine, State.putB, State.flag_put_apart, locked]
  have falls : ((s.showLine t r).flag (pgTDC t) Reg.TDC.LOCK_STATUS_LOCKED && (s.showLine t r).outOfWindow t r) = true := by
    simp [State.outOfWindow, State.showLine_window, shown, out]
  rw [State.dllUnlock, if_pos h]
  exact if_pos falls

/-- The fall is counted, with event 0 (R59). -/
theorem State.lockCount_leaves {s : State} {t : Fin 16} (below : s.stored (pgTDC t) Reg.TDC.FAULT_CNT_UNLOCK_CNT < 65535) :
    let u := (s.bump (pgTDC t) Reg.TDC.FAULT_CNT_UNLOCK_CNT 0).event (pgTDC t) 0
    u.stored (pgTDC t) Reg.TDC.FAULT_CNT_UNLOCK_CNT = s.stored (pgTDC t) Reg.TDC.FAULT_CNT_UNLOCK_CNT + 1 ∧
      (∀ g : FieldRef, g.off = Reg.TDC.LOCK_STATUS.off → u.stored (pgTDC t) g = s.stored (pgTDC t) g) ∧
      s.RegsBut (fun q _ => q ∈ [pgTDC t]) u ∧ s.Only 88 u := by
  have room : s.stored (pgTDC t) Reg.TDC.FAULT_CNT_UNLOCK_CNT + 1 < 2 ^ 16 := by omega
  refine ⟨?_, fun g hg => ?_, (State.regsBut_bump List.mem_cons_self List.mem_cons_self (by decide) s 0 1).trans
    (State.regsBut_event List.mem_cons_self _ 0),
    State.event_only (State.bump_only (.refl s) _ _ _ _ (by decide)) _ _ (by decide)⟩
  · rw [State.stored_event_ne (regKey_ne_off (by decide)),
      State.stored_bump_below (f := Reg.TDC.FAULT_CNT_UNLOCK_CNT) (by decide) (by decide) room]
  · rw [State.stored_event_ne, State.bump_eq_put (f := Reg.TDC.FAULT_CNT_UNLOCK_CNT) room, State.stored_put_ne] <;> rw [hg]
    · exact regKey_ne_off (by decide)
    · exact regKey_ne_off (by decide)

/-- Settles O36. DLL_LOCK ends in `showLine` or `lockRises`; DLL_UNLOCK in the fault (`State.lockFallen_leaves`) and its count. -/
theorem linesLockAndTilesResume : Obligations.LinesLockAndTilesResume := by
  unfold Obligations.LinesLockAndTilesResume
  refine ⟨?_, ?_, ?_⟩
  · intro s t r locks hp on power
    have runs := State.lineRuns_of on power
    have shows := s.showLine_shows t r
    have only := State.showLine_only (L := 280) (.refl s) t r (by decide)
    have regs := s.regsBut_showLine t r
    by_cases h : s.locks t r
    · obtain ⟨tile, others, rise, parts⟩ := (s.showLine t r).lockRises_leaves t
      have after := shows.lockRises
      refine ⟨_, (exec_dllLock hp t r).trans (congrArg _ (State.dllLock_locks runs h)), fun _ => ⟨after.locked, tile.trans ?_⟩,
        fun k => absurd h k, after.err, after.ctrl, after.sat, after.absent, (regs.trans rise).same, ?_, fun u hu =>
        (others u hu).trans (s.showLine_tile t r u)⟩
      · rw [State.showLine_tile]
      · exact (only.trans parts).changes (by decide)
    · exact ⟨_, (exec_dllLock hp t r).trans (congrArg _ (State.dllLock_stays runs h)), fun k => absurd k h,
        fun _ => ⟨shows.locked, (State.showLine_only (L := 24) (.refl s) t r (by decide)).tiles (by decide)⟩, shows.err,
        shows.ctrl, shows.sat, shows.absent, regs.same, only.changes (by decide), fun u _ => s.showLine_tile t r u⟩
  · intro s t hp power locked absent
    exact ⟨_, (exec_tileResume hp t).trans (congrArg _ (State.tileResume_eq power locked absent)), State.setTile_tile_same ..,
      fun u hu => State.setTile_tile_ne hu .., (State.setTile_only (L := 256) (.refl s) _ _ (by decide)).changes (by decide)⟩
  · intro s t r hp on power locked out none below
    refine ⟨_, (exec_dllUnlock hp t r).trans (congrArg _ (State.dllUnlock_eq (State.lineRuns_of on power) locked out)), ?_⟩
    have report := State.showLine_only (L := 24) (.refl s) t r (by decide)
    have frame : (s.showLine t r).frame = s.frame := report.frame (by decide)
    have chan (c : Nat) : (s.showLine t r).chan c = s.chan c := report.chan c
    have list : (s.showLine t r).tileChans t = s.tileChans t := rfl
    have fault := State.lockFallen_leaves (s := s.showLine t r) (t := t) ((s.showLine_tile t r t).symm ▸ none)
    simp only [s.showLine_tile, (s.showLine_shows t r).absent, frame, chan, list] at fault
    obtain ⟨tile, absent, chans, regs, fallen⟩ := fault
    have count : ((s.showLine t r).lockFallen t).stored (pgTDC t) Reg.TDC.FAULT_CNT_UNLOCK_CNT = _ :=
      ((s.regsBut_showLine t r).trans regs).stored (by simp [Reg.TDC.FAULT_CNT_UNLOCK_CNT, Reg.TDC.LOCK_STATUS]) (by decide)
    obtain ⟨counted, same, page, parts⟩ := State.lockCount_leaves (count.symm ▸ below)
    have all (c : Nat) := (parts.chan c).trans (chans c)
    refine ⟨(same Reg.TDC.LOCK_STATUS_LOCKED rfl).trans fallen, counted.trans (congrArg (· + 1) count),
      State.event_pends (by decide) .., (parts.sameTile t).trans tile,
      (same Reg.TDC.LOCK_STATUS_ABSENT rfl).trans absent, fun c hc => (all c).trans (if_pos hc),
      fun c hc => (all c).trans (if_neg hc), ?_, ?_⟩
    · exact ((((s.regsBut_showLine t r).trans regs).mono fun _ _ m => by simp_all).trans page).same
    · exact (State.lockLost_only (L := 472) (State.showLine_only (.refl s) t r (by decide)) t (by decide)).changes (by decide)

end Sys2Proof.Machine
end

section
/-!
PROOFS. The family of the channel front end: trigger pin edges and gate pin changes (R34, R173, R179, R180, R182, R197).
-/

namespace Sys2Proof.Machine

theorem exec_trigPinEdge {s : State} (h : s.powered = true) (p : Pin) (rising : Bool) (stamp : Nat) :
    exec (.trigPinEdge p rising stamp) s = .next (s.trigPinEdge p rising stamp) := congrArg Host.Outcome.next (if_pos h)

theorem exec_gatePinChange {s : State} (h : s.powered = true) (p : Pin) (high : Bool) (stamp : Nat) :
    exec (.gatePinChange p high stamp) s = .next (s.gatePinChange p high stamp) := congrArg Host.Outcome.next (if_pos h)

theorem exec_gateEdgeAccept {s : State} (h : s.powered = true) (p : Pin) (at_ : Nat) :
    exec (.gateEdgeAccept p at_) s = .next (s.gateEdgeAccept p at_) := congrArg Host.Outcome.next (if_pos h)

/-! ### Trigger pins -/

/-- The pin's last accepted edge lies 32 T_ref or more before the stamp (R173). -/
def State.pinFar (s : State) (p : Pin) (stamp : Nat) : Prop := ∀ l, s.trig.last p = some l → l + 32 * 4096 ≤ stamp

theorem State.trigPinEdge_accepts {s : State} {p : Pin} {rising : Bool} {stamp : Nat} (on : s.trigEnabled p = true)
    (selected : rising ≠ s.trigFalling p) (far : s.pinFar p stamp) :
    s.trigPinEdge p rising stamp =
      { s.advance (stamp / 4096) with trig := s.trig.accept p stamp (s.stamped p.idx stamp) } := by
  have edge : (s.trigEnabled p && (rising != s.trigFalling p)) = true := by rw [on, bne_iff_ne.2 selected]; rfl
  have last : (s.advance (stamp / 4096)).trig.last p = s.trig.last p := rfl
  simp only [State.trigPinEdge, if_pos edge, last]
  split
  case h_1 l hl => rw [if_neg (Nat.not_lt.2 (far l hl))]; rfl
  case h_2 => rfl

theorem State.trigPinEdge_close {s : State} {p : Pin} {rising : Bool} {stamp : Nat} (on : s.trigEnabled p = true)
    (selected : rising ≠ s.trigFalling p) (close : ¬s.pinFar p stamp) :
    s.trigPinEdge p rising stamp = (s.advance (stamp / 4096)).bump pgTRIG Reg.TRIG.CLOSE_CNT 3 := by
  have edge : (s.trigEnabled p && (rising != s.trigFalling p)) = true := by rw [on, bne_iff_ne.2 selected]; rfl
  obtain ⟨l, hl, near⟩ : ∃ l, s.trig.last p = some l ∧ stamp < l + 32 * 4096 := by simpa [State.pinFar] using close
  have last : (s.advance (stamp / 4096)).trig.last p = some l := hl
  simp only [State.trigPinEdge, if_pos edge, last, if_pos near]

theorem TrigSt.accept_pins (t : TrigSt) (p : Pin) (raw time : Nat) :
    (t.accept p raw time).pins = t.pins ++ [(p.idx, time)] ∧ (t.accept p raw time).last p = some raw := by
  cases p <;> exact ⟨rfl, rfl⟩

/-! ### Gate pins -/

/-- The filter of pin `p`, and what else the change of a gate pin leaves of the trigger state. -/
def State.gateRaw (s : State) (p : Pin) (high : Bool) (stamp : Nat) : State :=
  let g := s.trig.gate p
  { s.advance (stamp / 4096) with
    trig := s.trig.setGate p { g with raw := high, since := if g.since.isSome then none else some stamp } }

theorem State.gateRaw_only (s : State) (p : Pin) (high : Bool) (stamp : Nat) : s.Only 65561 (s.gateRaw p high stamp) :=
  State.Only.of (State.advance_only (.refl s) _ (by decide)) (trig := .inl (by decide))

theorem State.gatePinChange_eq {s : State} {p : Pin} {high : Bool} (h : high ≠ (s.trig.gate p).raw) (stamp : Nat) :
    s.gatePinChange p high stamp =
      if (s.trig.gate p).since.isSome then (s.gateRaw p high stamp).bump pgTRIG Reg.TRIG.GLITCH_CNT 6
      else s.gateRaw p high stamp := by
  simp only [State.gatePinChange, if_neg h, State.gateRaw]
  split_ifs <;> rfl

theorem TrigSt.gate_setGate (t : TrigSt) (p : Pin) (g : GatePin) : (t.setGate p g).gate p = g := by cases p <;> rfl

theorem TrigSt.marks_setGate (t : TrigSt) (p : Pin) (g : GatePin) : (t.setGate p g).marks = t.marks := by cases p <;> rfl

/-- Each tile of a list is set to what `g` makes of it, where setting the others does not change that. -/
theorem State.each_setTile {g : State → Fin 16 → Tile}
    (hg : ∀ (s : State) (t u : Fin 16) (v : Tile), u ≠ t → g (s.setTile t v) u = g s u)
    {l : List (Fin 16)} (nodup : l.Nodup) (s : State) (u : Fin 16) :
    (s.each l (fun s t => s.setTile t (g s t))).tile u = if u ∈ l then g s u else s.tile u := by
  induction l generalizing s with
  | nil => rfl
  | cons t l ih =>
    obtain ⟨ht, nodup⟩ := List.nodup_cons.1 nodup
    rw [State.each_cons, ih nodup]
    by_cases hu : u = t
    · simp [hu, ht]
    · simp [hu, hg s t u _ hu, State.setTile_tile_ne hu]

/-- The tile's own delay puts the edge of pin `p` at tile `u` (R34). -/
def State.gateArrival (s : State) (p : Pin) (isOpen : Bool) (time : Nat) (u : Fin 16) : Tile :=
  { s.tile u with
    gateNext := insertGate { src := 1 + p.idx, tap := time / 64 + s.gateDelay u, isOpen := isOpen } (s.tile u).gateNext }

theorem State.setTile_gateDelay (s : State) (t u : Fin 16) (v : Tile) : (s.setTile t v).gateDelay u = s.gateDelay u := by
  simp only [State.gateDelay, State.setTile_fld]

/-- What the pin's status and marks hold before the tiles take the edge. -/
def State.gateShown (s : State) (p : Pin) (isOpen : Bool) (time : Nat) : State :=
  { s.putB pgTRIG (gateOpenReg p) isOpen with trig := { s.trig with marks := s.trig.marks ++
      (if s.gateMarked p then [{ source := p.idx, isOpen := isOpen, time := time }] else []) } }

theorem gateOpenReg_facts (p : Pin) : (gateOpenReg p).off = Reg.TRIG.GATE_STATUS.off ∧ (gateOpenReg p).lo = (gateOpenReg p).hi ∧
    (gateOpenReg p).hi < 32 := by cases p <;> decide

theorem State.regsBut_gateOpen (s : State) (p : Pin) (isOpen : Bool) :
    s.RegsBut (fun q o => (q, o) ∈ [(pgTRIG, Reg.TRIG.GATE_STATUS.off)]) (s.putB pgTRIG (gateOpenReg p) isOpen) :=
  State.regsBut_putB (by rw [(gateOpenReg_facts p).1]; exact List.mem_cons_self) (by rw [(gateOpenReg_facts p).1]; decide) s isOpen

theorem State.gateShown_gateMarked (s : State) (p : Pin) (isOpen : Bool) :
    (s.putB pgTRIG (gateOpenReg p) isOpen).gateMarked p = s.gateMarked p := by
  cases p <;> exact (State.regsBut_gateOpen s _ isOpen).flag (by decide) (by decide)

theorem State.gateEdge_eq (s : State) (p : Pin) (isOpen : Bool) (time : Nat) :
    s.gateEdge p isOpen time =
      (s.gateShown p isOpen time).each allTiles (fun s t => s.setTile t (s.gateArrival p isOpen time t)) := by
  have shown : (if (s.putB pgTRIG (gateOpenReg p) isOpen).gateMarked p then
      { s.putB pgTRIG (gateOpenReg p) isOpen with trig := { s.trig with
        marks := s.trig.marks ++ [{ source := p.idx, isOpen := isOpen, time := time }] } }
      else s.putB pgTRIG (gateOpenReg p) isOpen) = s.gateShown p isOpen time := by
    rw [State.gateShown_gateMarked, State.gateShown]
    split_ifs
    · rfl
    · rw [List.append_nil]; rfl
  exact congrArg (State.each allTiles _) shown

theorem State.gateShown_gateDelay (s : State) (p : Pin) (isOpen : Bool) (time : Nat) (u : Fin 16) :
    (s.gateShown p isOpen time).gateDelay u = s.gateDelay u := by
  have apart (o : Nat) : (pgAFE u, o) ∉ [(pgTRIG, Reg.TRIG.GATE_STATUS.off)] := by simp [pgAFE_ne_pgTRIG u]
  have same (f : FieldRef) (hf : f.off < 4096) : (s.gateShown p isOpen time).fld (pgAFE u) f = s.fld (pgAFE u) f :=
    (State.regsBut_gateOpen s p isOpen).fld (apart _) hf
  simp only [State.gateDelay, same Reg.AFE.GATE_DELAY_COARSE (by decide), same Reg.AFE.GATE_DELAY_TAP (by decide)]

/-- An accepted edge of a gate pin: shown, marked, and on its way to every tile. -/
theorem State.gateEdge_leaves (s : State) (p : Pin) (isOpen : Bool) (time : Nat) :
    (s.gateEdge p isOpen time).trig = (s.gateShown p isOpen time).trig ∧
      (s.gateEdge p isOpen time).stored pgTRIG (gateOpenReg p) = isOpen.toNat ∧
      (∀ u, (s.gateEdge p isOpen time).tile u = s.gateArrival p isOpen time u) ∧
      s.RegsBut (fun q o => (q, o) ∈ [(pgTRIG, Reg.TRIG.GATE_STATUS.off)]) (s.gateEdge p isOpen time) := by
  rw [State.gateEdge_eq]
  have tiles : (s.gateShown p isOpen time).Only 256
      ((s.gateShown p isOpen time).each allTiles (fun s t => s.setTile t (s.gateArrival p isOpen time t))) :=
    State.each_keeps (P := State.Only 256 _) (fun _ _ _ h => State.setTile_only h _ _ (by decide)) (.refl _)
  obtain ⟨-, bit, hi⟩ := gateOpenReg_facts p
  refine ⟨tiles.trig (by decide), ?_, fun u => ?_, ?_⟩
  · exact (State.RegsBut.of (P := fun _ _ => False) (tiles.regs (by decide)) (tiles.stale (by decide))).stored id
      (by rw [(gateOpenReg_facts p).1]; decide) |>.trans (State.stored_putB_same bit.le hi s pgTRIG isOpen)
  · refine (State.each_setTile (g := fun s t => s.gateArrival p isOpen time t) (fun s t u v hu => ?_)
      (List.nodup_finRange 16) _ u).trans ?_
    · simp only [State.gateArrival, State.setTile_tile_ne hu, State.setTile_gateDelay]
    · rw [if_pos (List.mem_finRange u), State.gateArrival, State.gateShown_gateDelay]
      rfl
  · exact (State.regsBut_gateOpen s p isOpen).trans (.of (tiles.regs (by decide)) (tiles.stale (by decide)))

/-- The level is accepted: what the pin's filter holds before the edge is delivered. -/
def State.gateLevel (s : State) (p : Pin) (at_ : Nat) : State :=
  State.advance { s with trig := s.trig.setGate p { s.trig.gate p with level := (s.trig.gate p).raw, since := none } } at_

theorem State.gateLevel_only (s : State) (p : Pin) (at_ : Nat) : s.Only 65817 (s.gateLevel p at_) :=
  State.advance_only (State.Only.of (.refl s) (trig := .inl (by decide))) _ (by decide)

theorem State.gateEdgeAccept_eq {s : State} {p : Pin} {at_ st : Nat} (h : (s.trig.gate p).since = some st)
    (held : st + s.fld pgTRIG Reg.TRIG.GATE_CTRL_MIN_T * 4096 ≤ at_ * 4096) :
    s.gateEdgeAccept p at_ =
      (s.gateLevel p at_).gateEdge p ((s.trig.gate p).raw != s.gatePol p) (s.stamped (2 + p.idx) st) := by
  simp only [State.gateEdgeAccept, h, if_pos held]
  rfl

/-- Settles O43, a row at a time: `State.trigPinEdge_accepts` and `_close`, `State.gatePinChange_eq`, `State.gateEdge_leaves`. -/
theorem pinsTriggerAndGate : Obligations.PinsTriggerAndGate := by
  unfold Obligations.PinsTriggerAndGate
  refine ⟨?_, ?_, ?_⟩
  · intro s p rising stamp time far hp on selected below
    refine ⟨_, exec_trigPinEdge hp p rising stamp, ?_, fun h => ?_, fun h => ?_⟩
    · by_cases h : s.pinFar p stamp
      · rw [State.trigPinEdge_accepts on selected h]; rfl
      · rw [State.trigPinEdge_close on selected h, State.bump_now]; rfl
    · rw [State.trigPinEdge_accepts on selected h]
      obtain ⟨pins, last⟩ := s.trig.accept_pins p stamp (s.stamped p.idx stamp)
      refine ⟨pins, last, ?_⟩
      exact (State.Only.of (L := 65537) (State.advance_only (.refl s) _ (by decide)) (trig := .inl (by decide))).changes (by decide)
    · rw [State.trigPinEdge_close on selected h]
      have count : (s.advance (stamp / 4096)).stored pgTRIG Reg.TRIG.CLOSE_CNT = s.stored pgTRIG Reg.TRIG.CLOSE_CNT :=
        State.advance_stored ..
      have room : (s.advance (stamp / 4096)).stored pgTRIG Reg.TRIG.CLOSE_CNT + 1 < 2 ^ 32 := by omega
      refine ⟨State.bump_trig .., ?_, ?_, ?_⟩
      · rw [State.stored_bump_below (by decide) (by decide) room, count]
      · rw [State.bump_eq_put (f := Reg.TRIG.CLOSE_CNT) room]
        exact ((State.regsBut_advance s _).trans (State.regsBut_put List.mem_cons_self (by decide) _ _)).same
      · exact (State.bump_only (L := 25) (State.advance_only (.refl s) _ (by decide)) _ _ _ _ (by decide)).changes (by decide)
  · intro s p high stamp g hp moved below
    refine ⟨_, exec_gatePinChange hp p high stamp, ?_⟩
    rw [State.gatePinChange_eq moved]
    have trig : (s.gateRaw p high stamp).trig =
      s.trig.setGate p { g with raw := high, since := if g.since.isSome then none else some stamp } := rfl
    rw [← trig]
    have room : (s.gateRaw p high stamp).stored pgTRIG Reg.TRIG.GLITCH_CNT + 1 < 2 ^ 32 := by
      show s.stored pgTRIG Reg.TRIG.GLITCH_CNT + 1 < 2 ^ 32
      omega
    split_ifs with glitch
    · refine ⟨State.bump_trig .., ?_, ?_, ?_⟩
      · rw [State.stored_bump_below (by decide) (by decide) room, glitch]; rfl
      · rw [State.bump_eq_put (f := Reg.TRIG.GLITCH_CNT) room]
        exact ((State.RegsBut.of rfl rfl).trans (State.regsBut_put List.mem_cons_self (by decide) _ _)).same
      · exact (State.bump_only (s.gateRaw_only p high stamp) _ _ _ _ (by decide)).changes (by decide)
    · refine ⟨rfl, ?_, (State.RegsBut.of (s := s) (t := s.gateRaw p high stamp) rfl rfl).same, ?_⟩
      · rw [Bool.eq_false_iff.2 glitch]; rfl
      · exact (s.gateRaw_only p high stamp).changes (by decide)
  · intro s p at_ st g isOpen time hp since held
    refine ⟨_, exec_gateEdgeAccept hp p at_, ?_⟩
    rw [State.gateEdgeAccept_eq since held]
    obtain ⟨trig, shown, tiles, regs⟩ := (s.gateLevel p at_).gateEdge_leaves p isOpen time
    have before : (s.gateLevel p at_).trig.marks = s.trig.marks := TrigSt.marks_setGate ..
    refine ⟨?_, shown, ?_, fun u => tiles u, ((State.RegsBut.of rfl rfl).trans regs).same, ?_⟩
    · refine (congrArg (·.gate p) trig).trans (Eq.trans ?_ (s.trig.gate_setGate p _))
      cases p <;> rfl
    · exact (congrArg TrigSt.marks trig).trans (congrArg (· ++ _) before)
    · exact (State.gateEdge_only (s.gateLevel_only p at_) _ _ _ (by decide)).changes (by decide)

end Sys2Proof.Machine
end

section
/-!
PROOFS. The family of the channel front end: written 1s that make their request as the write is accepted (R45, R193, R270, R312,
R499).
-/

namespace Sys2Proof.Machine

/-! ### A write of one register -/

/-- The register stored and recorded, before its written 1s are looked at. -/
def State.wrote (s : State) (k : PageKind) (p o : Nat) (d : RegDef) (v : Word) : State :=
  (s.store k p o (s.taken k p o d v false)).record p o d

/-- The registers that a write of one may change: that, and the mark of the record of settings. -/
def WroteReg (p o q u : Nat) : Prop := (q, u) = (p, o) ∨ (q, u) = (pgFWU, Reg.FWU.STAT_SET_BAD.off)

section

variable {s : State} {p o : Nat} {k : PageKind} {d : RegDef} {v : Word}

theorem State.wrote_only {L : Nat} (hL : 17179869208 &&& L = 17179869208) : s.Only L (s.wrote k p o d v) :=
  State.record_only (State.store_only (.refl s) _ _ _ _ (Only.sub hL (by decide))) _ _ _ hL

theorem State.regsBut_wrote (ho : o < 4096) : s.RegsBut (WroteReg p o) (s.wrote k p o d v) :=
  ⟨fun q u hu h => .trans (State.sameReg_store (regKey_ne (fun e => h (.inl e)) hu ho) s k _)
    (State.record_regs _ p o d q u (regKey_ne (fun e => h (.inr e)) hu (by decide)))⟩

/-- The register holds what the write leaves of it (R405). -/
theorem State.wrote_rd (ho : o < 4096) (hp : p ≠ pgFWU) : (s.wrote k p o d v).rd p o = s.taken k p o d v false :=
  (State.record_regs _ p o d p o (regKey_ne_page hp ho (by decide))).1.trans (State.rd_store ..)

/-- What is in force stays until the boundary (R404). -/
theorem State.wrote_live (ho : o < 4096) (hp : p ≠ pgFWU) (hk : immediateReg k o = false) :
    (s.wrote k p o d v).live p o = s.live p o := by
  refine (State.record_regs _ p o d p o (regKey_ne_page hp ho (by decide))).2.trans ?_
  generalize s.taken k p o d v false = w
  by_cases h : w ≠ s.rd p o ∨ actsUnchanged k o = true
  · exact State.live_store hk s p w h
  · obtain ⟨same, act⟩ := not_or.1 h
    have unchanged : w = s.rd p o := not_not.1 same
    rw [State.store, if_pos (by simp [unchanged, act]), unchanged]
    simp only [State.live, State.rd_wr_same, State.wr_stale]

/-- The die answers after the write as before it. -/
theorem State.wrote_dieOff (ho : o < 4096) (h : o ≠ 0x010) (q : Nat) : (s.wrote k p o d v).dieOff q = s.dieOff q := by
  have apart (u : Fin 16) : ¬WroteReg p o (pgTILE u) Reg.HDR.PWR_STATE_STATE.off := by
    have pwr : Reg.HDR.PWR_STATE_STATE.off = 0x010 := rfl
    have tile : pgTILE u = 0x1000 + 0x100 * u := rfl
    have fwu : pgFWU = 0xC := rfl
    simp only [WroteReg, Prod.mk.injEq]
    omega
  have pwr (u : Fin 16) : (s.wrote k p o d v).pwr (pgTILE u) = s.pwr (pgTILE u) :=
    (State.regsBut_wrote ho).stored (apart u) (by decide)
  have conc (c : Conc) : (s.wrote k p o d v).conc c = s.conc c := by
    cases c
    · exact (State.wrote_only (L := 17179869208) (by decide)).concA (by decide)
    · exact (State.wrote_only (L := 17179869208) (by decide)).concB (by decide)
  rw [State.dieOff, State.dieOff, pwr, conc]

/-- A write that no rule refuses, of a register whose written 1s do not wait for the boundary. -/
theorem State.writePlain_wrote (w : s.Writes p o v false k d) (free : (d.hasRwl && !s.unlocked p) = false) (hk : k ≠ .timeD)
    (now : writtenOnes k o d v false = 0 ∨ immediatePulse k o = true) :
    s.writePlain k p o d v false = (resOK, s.wrote k p o d v) := by
  have unshut : (d.hasRwl && !false && !s.unlocked p) = false := by simpa using free
  unfold State.writePlain
  extract_lets shut new s₁ s₂ ones s₃
  have held : ¬holdsBoth k o new = true := Bool.eq_false_iff.1 w.held
  have opens : ¬shut = true := Bool.eq_false_iff.1 unshut
  have pulses : ones = 0 ∨ immediatePulse k o = true := by
    have : ones = writtenOnes k o d v false := congrArg (writtenOnes k o d v) unshut
    rwa [this]
  have plain : s₁ = s.store k p o new := by
    simp only [s₁, State.storeSetting, hk, false_and, if_false]
  have done : s₃ = s.wrote k p o d v := by
    simp only [s₃, if_pos pulses, s₂, plain]
    rfl
  rw [if_neg held, if_neg w.frozen, if_neg (Bool.eq_false_iff.1 w.tested), if_neg opens, done]

/-- The write as a command: answered OK, its written 1s made at once. -/
theorem State.cmdWrite_wrote (h : UHdr) (w : s.Writes p o v false k d) (free : (d.hasRwl && !s.unlocked p) = false) (hk : k ≠ .timeD)
    (now : writtenOnes k o d v false = 0 ∨ immediatePulse k o = true) (hp : p / 256 ≠ 0x20) (ho : o < 4096) (hs : o ≠ 0x010)
    (body : List Word) :
    s.cmdWrite h p o v false body =
      { result := resOK, state := (s.wrote k p o d v).pulseNow k (s.hostStick h 0 false true body) p o v (s.unlocked p),
        pages := [(p, resOK)], rwl := false } := by
  have all := State.writeAll_one w.alone w.kind w.reg w.can w.on w.plain (s.hostStick h 0 false true body) v false
  rw [State.writePlain_wrote w free hk now] at all
  simp only [State.wrote_dieOff ho hs, w.on, beq_self_eq_true, Bool.true_or, Bool.not_false, Bool.and_self, if_true,
    Bool.false_or] at all
  have target : (targetKind p).isNone = false := by rw [targetKind, if_neg hp, w.kind]; rfl
  have one : joinResult (decide (p / 256 = 0x20)) [resOK] = resOK := by rw [decide_eq_false hp]; rfl
  have none (t : State) : t.countLocked resOK [(p, resOK)] = t := if_neg (by simp [resOK, resLOCKED])
  simp only [State.cmdWrite, target, w.recovery, all, Bool.false_and, Bool.or_false, Bool.false_eq_true, if_false, List.map_cons,
    List.map_nil, one, none]

end

/-- A write that lands, with what its written 1s make of the state: `z` is the state in which it is answered. -/
structure State.Lands.Acts (s t z : State) (h : UHdr) (p o : Nat) (v : Word) (l : List Part) : Prop where
  written : s.Written t h p o v l
  answered : z.Answered t
  reg : ∀ f : FieldRef, f.off < 4096 → p ≠ pgMOD → p ≠ pgJRNL → t.stored p f = z.stored p f

/-- The row of a write that lands on a register whose written 1s act at acceptance: `M` has the parts that they change. -/
theorem State.Lands.exec {c : Instr} {s : State} {h : UHdr} {p o : Nat} {v : Word} {k : PageKind} {d : RegDef}
    (lands : s.Lands h p o v k d) (row : s.commandOf c = some (h, .write p o v, {})) (hk : k ≠ .timeD)
    (now : writtenOnes k o d v false = 0 ∨ immediatePulse k o = true) (hp : p / 256 ≠ 0x20) (hj : p ≠ pgJRNL) (ho : o < 4096)
    (hs : o ≠ 0x010) {z : State}
    (hz : z = ((s.counted h).wrote k p o d v).pulseNow k ((s.counted h).hostStick h 0 false true (UCmd.write p o v).words) p o v
      ((s.counted h).unlocked p))
    {M : Nat} (only : ((s.counted h).wrote k p o d v).Only M z)
    (regs : ((s.counted h).wrote k p o d v).RegsBut (fun q _ => q = p) z) (hM : M &&& 146834194501 = 0) {l : List Part}
    (hl : (allBut (answering ++ .saved :: l)).all (fun p => !(164014063705 ||| M).testBit p.bit) = true) :
    ∃ t, Sys2Proof.Machine.exec c s = .next t ∧ State.Lands.Acts s t z h p o v l := by
  have bit (i : Nat) (hi : (146834194501 : Nat).testBit i = true) : M.testBit i = false := by
    have := congrArg (·.testBit i) hM
    simpa [Nat.testBit_land, hi] using this
  have run := State.cmdWrite_wrote h lands.writes lands.free hk now hp ho hs (UCmd.write p o v).words
  rw [← hz] at run
  obtain ⟨t, step, fin⟩ := exec_takes row lands.takes rfl (by
    show ((s.counted h).cmdWrite h p o v false _).state.running = true
    rw [run]
    exact ((only.running (bit 2 (by decide))).trans ((State.wrote_only (L := 17179869208) (by decide)).running (by decide))).trans
      lands.writes.running)
  rw [show (s.counted h).runCmd h (.write p o v) _ {} = _ from run] at fin
  have wrote := State.wrote_only (s := s.counted h) (k := k) (p := p) (o := o) (d := d) (v := v) (L := 17179869208) (by decide)
  have whole : s.Only (164014063705 ||| M) t :=
    ((((State.answered_counted s h).only (L := 164014063705) (by decide)).trans (State.wrote_only (k := k) (p := p) (o := o) (d := d)
      (v := v) (by decide))).mono.trans (Nat.lor_comm M 164014063705 ▸ only.mono)).trans
      (fin.answered.only (L := 164014063705) (by decide)).mono
  have um : z.um h.port = (s.counted h).um h.port :=
    (only.um (bit 28 (by decide)) (bit 29 (by decide)) _).trans (wrote.um (by decide) (by decide) _)
  have answer := fin.answers rfl um
  have head : z.rd pgJRNL Reg.JRNL.HEAD.off = (s.counted h).rd pgJRNL Reg.JRNL.HEAD.off := by
    refine (regs.same pgJRNL _ (by decide) hj.symm).1.trans ((State.regsBut_wrote ho).same pgJRNL _ (by decide) ?_).1
    rintro (e | e)
    · exact hj (Prod.mk.inj e).1.symm
    · exact absurd e (by decide)
  have entry := fin.entry (l := (p, o, digestOf v, 0)) (congrArg (fun o => some (p, o, digestOf v, 0)) (Nat.mod_eq_of_lt ho))
    ((only.journal (bit 33 (by decide))).trans (wrote.journal (by decide)))
    ((only.now (bit 0 (by decide))).trans (wrote.now (by decide))) head
  refine ⟨t, step, ⟨fun dest => ?_, entry, whole.changes hl⟩, fin.answered, fun f hf hm hn => ?_⟩
  · rw [← State.counted_um s h]
    exact answer dest
  · exact (fin.reg p f.off hf (by simp [answerKeys, hm, hn])).stored

/-! ### The written 1s that act at once (R499) -/

/-- Pages but those that a port's commands count in. -/
theorem State.counted_stored {p : Nat} (hp : p ≠ 5 ∧ p ≠ 6) (s : State) (h : UHdr) {f : FieldRef} (hf : f.off < 4096) :
    (s.counted h).stored p f = s.stored p f ∧ (s.counted h).flag p f = s.flag p f := by
  have page : p ≠ pgUM h.port := by cases h.port <;> simp [pgUM, hp.1, hp.2]
  have same := State.sameReg_counted (q := p) (a := f.off) s h hf (.inl page)
  exact ⟨same.stored, congrArg (· != 0) same.fld⟩

/-- The block fires in the next frame (R45). -/
def State.firePending (s : State) (p : Nat) : State :=
  { s with cal := { s.cal with fires := mapPut p (s.frame + 1) s.cal.fires } }

theorem State.fire_eq {s : State} {p : Nat} (mode : s.stored p Reg.BLOCK.INJ_CTRL_MODE = 1) (none : mapFind p s.cal.fires = none) :
    s.fire p = (s.firePending p).putB p Reg.BLOCK.INJ_CTRL_BUSY true := if_pos ⟨mode, by rw [none]; rfl⟩

theorem State.regsBut_fire (s : State) (p : Nat) : s.RegsBut (fun q _ => q = p) (s.fire p) :=
  .ite ((State.RegsBut.of (s := s) (t := s.firePending p) rfl rfl).trans
    (State.regsBut_putB (P := fun q _ => q = p) (f := Reg.BLOCK.INJ_CTRL_BUSY) rfl (by decide) _ true)) (.refl s)

/-- The host read that the page's address names (R312). -/
def State.hostReadOf (s : State) (c : Conc) : HostRead :=
  { shadow := s.flag (pgDRAM c) Reg.DRAM.HOST_ADDR_GROUP, unit := s.stored (pgDRAM c) Reg.DRAM.HOST_ADDR_UNIT, since := s.now }

theorem State.startHostRead_eq {s : State} {c : Conc} (idle : s.flag (pgDRAM c) Reg.DRAM.HOST_CTRL_BUSY = false) :
    s.startHostRead c = (s.setConc c { s.conc c with host := some (s.hostReadOf c) }).putB (pgDRAM c) Reg.DRAM.HOST_CTRL_BUSY true :=
  if_neg (by rw [idle]; exact Bool.false_ne_true)

theorem State.regsBut_startHostRead (s : State) (c : Conc) : s.RegsBut (fun q _ => q = pgDRAM c) (s.startHostRead c) :=
  .ite (.refl s) ((State.RegsBut.of (State.setConc_regs ..) (State.setConc_stale ..)).trans
    (State.regsBut_putB (P := fun q _ => q = pgDRAM c) (f := Reg.DRAM.HOST_CTRL_BUSY) rfl (by decide) _ true))

section

variable {s : State} {by_ : StickCmd} {p : Nat} {v : Word} {free : Bool}

theorem State.pulseNow_fire (hv : v.getLsbD 16 = true) : s.pulseNow .block by_ p 0x050 v free = s.fire p := by
  simp [State.pulseNow, hv]

theorem State.pulseNow_hostRead : s.pulseNow .dram by_ p 0x0B0 1 free = s.startHostRead (concOf p) := by
  simp [State.pulseNow]

theorem State.pulseNow_resend (hv : v.getLsbD 16 = true) : s.pulseNow .trig by_ p 0x07C v free =
    s.requestResend (s.stored pgTRIG Reg.TRIG.RESEND_FIRST) (s.stored pgTRIG Reg.TRIG.RESEND_CTRL_COUNT) := by
  simp [State.pulseNow, hv]

theorem State.pulseNow_stick (hv : v.getLsbD 31 = true) : s.pulseNow .stick by_ p 0x048 v true =
    s.queueStick { by_ with op := fieldGet Reg.STICK.CMD_OP v, target := fieldGet Reg.STICK.CMD_TARGET v == 1, isWrite := true } := by
  simp [State.pulseNow, hv]

end

/-- The stick command that a write of CMD with GO makes (R270). -/
def State.stickWrite (s : State) (h : UHdr) (v : Word) : StickCmd :=
  { (s.counted h).hostStick h 0 false true (UCmd.write pgSTICK 0x048 v).words with
    op := fieldGet Reg.STICK.CMD_OP v, target := fieldGet Reg.STICK.CMD_TARGET v == 1, isWrite := true }

/-- The kind of a page that a write lands on. -/
theorem State.Lands.kind {s : State} {h : UHdr} {p o : Nat} {v : Word} {k x : PageKind} {d : RegDef} (lands : s.Lands h p o v k d)
    (hx : pageKind p = some x) : k = x := Option.some.inj (lands.writes.kind.symm.trans hx)

theorem pageKind_pgBLOCK : ∀ t b : Fin 16, pageKind (pgBLOCK t b) = some .block := by decide
theorem pageKind_pgDRAM : ∀ c, pageKind (pgDRAM c) = some .dram := by rintro ⟨⟩ <;> decide

theorem pgDRAM_page : ∀ c, pgDRAM c / 256 ≠ 0x20 ∧ pgDRAM c ≠ pgJRNL ∧ pgDRAM c ≠ pgMOD ∧ pgDRAM c ≠ pgFWU ∧ pgDRAM c ≠ 5 ∧
    pgDRAM c ≠ 6 := by rintro ⟨⟩ <;> decide
theorem concOf_pgDRAM : ∀ c, concOf (pgDRAM c) = c := by rintro ⟨⟩ <;> decide

/-- Settles O15. Each write is stored and answered (`State.Lands.exec`) in the state that its written 1 makes: `fire`,
`startHostRead`, `requestResend`, `queueStick`. -/
theorem writtenRequestsAreMade : Obligations.WrittenRequestsAreMade := by
  unfold Obligations.WrittenRequestsAreMade
  refine ⟨?_, ?_, ?_, ?_⟩
  · intro s h tile block value k d p v hr lands mode none
    obtain rfl := lands.kind (pageKind_pgBLOCK tile block)
    have page : p = 0x1000 + 0x100 * tile.val + 0x10 + block.val := rfl
    have fwu : pgFWU = 0xC := rfl
    have jrnl : pgJRNL = 8 := rfl
    have mod : pgMOD = 0 := rfl
    have wrote := State.wrote_only (s := s.counted h) (k := .block) (p := p) (o := 0x050) (d := d) (v := v)
      (L := 17179869208) (by decide)
    have wmode : ((s.counted h).wrote .block p 0x050 d v).stored p Reg.BLOCK.INJ_CTRL_MODE = 1 :=
      (congrArg (fieldGet Reg.BLOCK.INJ_CTRL_MODE) (State.wrote_rd (by decide) (by omega))).trans mode
    have wcal : ((s.counted h).wrote .block p 0x050 d v).cal = s.cal := (wrote.cal (by decide)).trans (s.answered_counted h).cal
    have wframe : ((s.counted h).wrote .block p 0x050 d v).frame = s.frame := (wrote.frame (by decide)).trans (s.answered_counted h).frame
    generalize hw : (s.counted h).wrote .block p 0x050 d v = w at wmode wcal wframe
    have fire := State.fire_eq wmode (by rw [wcal]; exact none)
    obtain ⟨t, row, acts⟩ := lands.exec (c := .injFire h tile block value) (z := w.fire p) (M := 8388632) (l := [.cal]) rfl (by decide)
      (.inr rfl) (by omega) (by omega) (by decide) (by decide) (by rw [hw, State.pulseNow_fire (by simp [v])])
      (hw ▸ State.fire_only (.refl _) p (by decide)) (hw ▸ State.regsBut_fire _ p) (by decide) (by decide)
    refine ⟨t, row, acts.written, ?_, ?_⟩
    · rw [acts.answered.cal, fire, State.putB_cal, State.firePending, wcal, wframe]
    · rw [acts.reg _ (by decide) (by omega) (by omega), fire]
      exact State.stored_putB_same (by decide) (by decide) ..
  · intro s h c k d p hr lands idle
    obtain rfl := lands.kind (pageKind_pgDRAM c)
    obtain ⟨mirrored, journal, mod, fwu, um⟩ := pgDRAM_page c
    have wrote := State.wrote_only (s := s.counted h) (k := .dram) (p := p) (o := 0x0B0) (d := d) (v := 1)
      (L := 17179869208) (by decide)
    generalize hw : (s.counted h).wrote .dram p 0x0B0 d 1 = w at wrote
    have kept (c : Conc) : w.conc c = s.conc c := by
      refine Eq.trans ?_ ((s.answered_counted h).conc c)
      cases c
      exacts [wrote.concA (by decide), wrote.concB (by decide)]
    have now : w.now = (s.arrive h.at_).now := (wrote.now (by decide)).trans (s.counted_now h)
    have widle : w.flag p Reg.DRAM.HOST_CTRL_BUSY = false := by
      have live : w.live p 0x0B0 = (s.counted h).live p 0x0B0 := hw ▸ State.wrote_live (by decide) fwu rfl
      have same : w.flag p Reg.DRAM.HOST_CTRL_BUSY = (s.counted h).flag p Reg.DRAM.HOST_CTRL_BUSY :=
        congrArg (fieldGet Reg.DRAM.HOST_CTRL_BUSY · != 0) live
      rw [same, (State.counted_stored um s h (by decide)).2, idle]
    have address (f : FieldRef) (hf : f.off = 0x0AC) : w.stored p f = s.stored p f ∧ w.flag p f = s.flag p f := by
      have apart : ¬WroteReg p 0x0B0 p f.off := by
        simp only [WroteReg, hf, Prod.mk.injEq]
        exact fun e => e.elim (fun e => absurd e.2 (by decide)) (fun e => fwu e.1)
      have regs : (s.counted h).RegsBut (WroteReg p 0x0B0) w := hw ▸ State.regsBut_wrote (by decide)
      obtain ⟨stored, flag⟩ := State.counted_stored um s h (f := f) (by omega)
      exact ⟨(regs.stored apart (by omega)).trans stored, (regs.flag apart (by omega)).trans flag⟩
    have start := State.startHostRead_eq widle
    obtain ⟨t, row, acts⟩ := lands.exec (c := .hostRead h c) (z := w.startHostRead c) (M := 24600) (l := [.concA, .concB]) rfl
      (by decide) (.inr rfl) mirrored journal (by decide) (by decide) (by rw [hw, State.pulseNow_hostRead, concOf_pgDRAM])
      (hw ▸ State.startHostRead_only (.refl _) c (by decide)) (hw ▸ State.regsBut_startHostRead _ c) (by decide) (by decide)
    refine ⟨t, row, acts.written, ?_, ?_, ?_⟩
    · rw [acts.answered.conc, start, State.putB_conc, State.setConc_conc_ne (by cases c <;> decide), kept]
    · rw [acts.answered.conc, start, State.putB_conc, State.setConc_conc_same, State.hostReadOf, kept, now,
        (address Reg.DRAM.HOST_ADDR_GROUP rfl).2, (address Reg.DRAM.HOST_ADDR_UNIT rfl).1]
    · rw [acts.reg _ (by decide) mod journal, start]
      exact State.stored_putB_same (by decide) (by decide) ..
  · intro s h value k d v count hr lands
    obtain rfl := lands.kind (x := .trig) (by decide)
    have wrote := State.wrote_only (s := s.counted h) (k := .trig) (p := pgTRIG) (o := 0x07C) (d := d) (v := v)
      (L := 17179869208) (by decide)
    have number : ((s.counted h).wrote .trig pgTRIG 0x07C d v).stored pgTRIG Reg.TRIG.RESEND_CTRL_COUNT = count :=
      congrArg (fieldGet Reg.TRIG.RESEND_CTRL_COUNT) (State.wrote_rd (by decide) (by decide))
    have first : ((s.counted h).wrote .trig pgTRIG 0x07C d v).stored pgTRIG Reg.TRIG.RESEND_FIRST = s.stored pgTRIG Reg.TRIG.RESEND_FIRST :=
      ((State.regsBut_wrote (by decide)).stored (by simp [WroteReg]; decide) (by decide)).trans
        (State.counted_stored (by decide) s h (by decide)).1
    generalize hw : (s.counted h).wrote .trig pgTRIG 0x07C d v = w at wrote number first
    obtain ⟨t, row, acts⟩ := lands.exec (c := .resendGo h value) (z := w.requestResend (s.stored pgTRIG Reg.TRIG.RESEND_FIRST) count)
      (M := 65536) (l := [.trig]) rfl (by decide) (.inr rfl) (by decide) (by decide) (by decide) (by decide)
      (by rw [hw, State.pulseNow_resend (by simp [v]), number, first]) (hw ▸ State.requestResend_only (.refl _) _ _ (by decide))
      (hw ▸ .of rfl rfl) (by decide) (by decide)
    refine ⟨t, row, acts.written, acts.answered.trig.trans ?_⟩
    rw [State.requestResend, wrote.trig (by decide), (s.answered_counted h).trig]
  · intro s h value k d v hr lands unlocked
    obtain rfl := lands.kind (x := .stick) (by decide)
    have wrote := State.wrote_only (s := s.counted h) (k := .stick) (p := pgSTICK) (o := 0x048) (d := d) (v := v)
      (L := 17179869208) (by decide)
    have nopulse : d.mask Access.isPulse = 0 := by
      have : (regAt pgSTICK 0x048).map (·.mask Access.isPulse) = some 0 := by decide
      rw [lands.writes.reg] at this
      exact Option.some.inj this
    generalize hw : (s.counted h).wrote .stick pgSTICK 0x048 d v = w at wrote
    obtain ⟨t, row, acts⟩ := lands.exec (c := .stickCmdWrite h value) (z := w.queueStick (s.stickWrite h v)) (M := 4194304) (l := [.stick])
      rfl (by decide) (.inl (by simp [writtenOnes, nopulse])) (by decide) (by decide) (by decide) (by decide)
      (by rw [hw, unlocked, State.pulseNow_stick (by simp [v])]; rfl) (hw ▸ State.queueStick_only (.refl _) _ (by decide))
      (hw ▸ .of rfl rfl) (by decide) (by decide)
    refine ⟨t, row, acts.written, acts.answered.stick.trans ?_⟩
    rw [State.queueStick, wrote.stick (by decide), (s.answered_counted h).stick, State.stickWrite, State.hostStick, s.counted_now h]

end Sys2Proof.Machine
end

section
/-!
PROOFS. The family of tile read-out: what the collector leaves of a tile (R81, R94), and the decision of a candidate (R88, R90).
-/

namespace Sys2Proof.Machine

/-! ### What the collector leaves of a tile but its queues -/

/-- A tile apart from its two ports. -/
def Tile.noPorts (x : Tile) : Tile := { x with portA := {}, portB := {} }

theorem Tile.port_setWaiting (x : Tile) (cell : Nat) (q : List (BitVec 52 × Nat)) (c : Conc) :
    (x.setWaiting cell q).port c = x.port c := by cases c <;> rfl

theorem Tile.noPorts_setPort (x : Tile) (c : Conc) (p : Port) : (x.setPort c p).noPorts = x.noPorts := by cases c <;> rfl

/-- Tile `tl` is `x` but for what its ports hold; each is cut, and has resumed, where those of `x` are and have. -/
structure State.Serves (t : State) (tl : Fin 16) (x : Tile) : Prop where
  tile : (t.tile tl).noPorts = x.noPorts
  cut : ∀ c, (t.port tl c).cut = (x.port c).cut
  since : ∀ c, (t.port tl c).since = (x.port c).since

section

variable {s t : State} {tl : Fin 16} {x : Tile}

theorem State.Serves.refl (s : State) (tl : Fin 16) : s.Serves tl (s.tile tl) := ⟨rfl, fun _ => rfl, fun _ => rfl⟩

/-- Registers and events are no part of a tile. -/
theorem State.Serves.of_only (h : s.Serves tl x) (only : s.Only 88 t) : t.Serves tl x := by
  obtain ⟨tile, cut, since⟩ := h
  have same := only.sameTile tl
  exact ⟨by rw [same, tile], fun c => by rw [State.port, same]; exact cut c, fun c => by rw [State.port, same]; exact since c⟩

theorem State.Serves.setPort (h : s.Serves tl x) {c : Conc} {p : Port} (cut : p.cut = (s.port tl c).cut)
    (since : p.since = (s.port tl c).since) : (s.setPort tl c p).Serves tl x := by
  refine ⟨?_, fun d => ?_, fun d => ?_⟩
  · rw [State.tile_setPort, Tile.noPorts_setPort, h.tile]
  · by_cases e : d = c
    · rw [e, State.setPort_port_same, cut, h.cut]
    · rw [State.port_setPort_ne e, h.cut]
  · by_cases e : d = c
    · rw [e, State.setPort_port_same, since, h.since]
    · rw [State.port_setPort_ne e, h.since]

theorem State.Serves.offerRecord (h : s.Serves tl x) (c : Conc) (r : BitVec 52) (f k : Nat) :
    (s.offerRecord tl c r f k).Serves tl x := by
  rw [State.offerRecord_eq]
  split_ifs
  · exact (h.setPort (by rfl) (by rfl)).of_only (State.bump_only (L := 88) (.refl _) _ _ _ _ (by decide))
  · exact (h.setPort (by rfl) (by rfl)).of_only (State.peak_only (L := 88) (State.put_only (.refl _) _ _ _
      (by decide)) _ _ _ (by decide))
  · exact (h.setPort (by rfl) (by rfl)).of_only
      (State.event_only (L := 88) (State.countRefused_only (.refl _) tl c r (by decide)) _ _ (by decide))

/-- The oldest records of a cell leave its queue. -/
theorem State.Serves.collectCell (h : s.Serves tl x) (cell n : Nat) :
    (s.collectCell tl cell n).Serves tl (x.setWaiting cell ((x.waiting cell).drop n)) := by
  obtain ⟨tile, cut, since⟩ := h
  have waits : (s.tile tl).waiting cell = x.waiting cell := (congrArg (Tile.waiting · cell) tile :)
  have left : (s.setTile tl ((s.tile tl).setWaiting cell ((x.waiting cell).drop n))).Serves tl
      (x.setWaiting cell ((x.waiting cell).drop n)) := by
    refine ⟨?_, fun c => ?_, fun c => ?_⟩
    · rw [State.setTile_tile_same]
      exact (congrArg (Tile.setWaiting · cell ((x.waiting cell).drop n)) tile :)
    · rw [State.port, State.setTile_tile_same, Tile.port_setWaiting, Tile.port_setWaiting]
      exact cut c
    · rw [State.port, State.setTile_tile_same, Tile.port_setWaiting, Tile.port_setWaiting]
      exact since c
  rw [State.collectCell, waits]
  exact State.each_keeps (P := (State.Serves · tl (x.setWaiting cell ((x.waiting cell).drop n))))
    (fun u r _ k => (k.offerRecord .a r.1 _ _).offerRecord .b r.1 _ _) left

end

/-! ### The decision of a candidate (R88, R90) -/

theorem State.collect_streams (s : State) (chan took : Nat) :
    ((s.collect chan took).tile (chTile chan)).streams = (s.tile (chTile chan)).streams :=
  (congrArg Tile.streams ((State.Serves.refl s (chTile chan)).collectCell (cellInTile chan) took).tile :)

theorem State.SameRecords.refl (s : State) (tl : Fin 16) : s.SameRecords s tl :=
  ⟨⟨rfl, fun _ => rfl⟩, rfl, fun _ _ => rfl, rfl, rfl⟩

/-- No candidate of the tile waits any more. -/
def State.candsTaken (s : State) (tl : Fin 16) : State := s.setTile tl { s.tile tl with cands := [] }

theorem State.candsTaken_tile (s : State) (tl : Fin 16) : (s.candsTaken tl).tile tl = { s.tile tl with cands := [] } :=
  State.setTile_tile_same ..

theorem State.candsTaken_queues (s : State) (tl : Fin 16) : s.SameQueues (s.candsTaken tl) tl := by
  refine ⟨by rw [State.candsTaken_tile], fun c => ?_⟩
  rw [State.port, State.candsTaken_tile]
  cases c <;> rfl

/-- The tile's only candidate, once due, is decided in the state that the collector leaves. -/
theorem State.promotionDecision_due {s : State} {c t : Nat} {p : Passed} (only : (s.tile (chTile c)).cands = [p])
    (chan : p.chan = c) (due : p.due ≤ t) (took : Nat) : s.promotionDecision c t took =
      (((s.collect c took).restamp (max s.now (t / 64)) s.chans).candsTaken (chTile c)).decideCand (chTile c) p := by
  have collected : (s.advance (t / 64)).collect c took = (s.collect c took).restamp (max s.now (t / 64)) s.chans :=
    s.restamp_collect ..
  have cands : (((s.collect c took).restamp (max s.now (t / 64)) s.chans).tile (chTile c)).cands = [p] :=
    (s.collect_moves c took).cands.trans only
  have now : (p.chan == c && decide (p.due ≤ t)) = true := by simp [chan, due]
  simp only [State.promotionDecision, collected, only, cands, List.filter_cons, now, Bool.not_true, Bool.false_eq_true,
    if_true, if_false, List.filter_nil, State.each_cons, State.each_nil]
  rfl

/-- A decision counts the candidate, and sends its record and its side item. -/
theorem State.decideCand_eq {s : State} {tl : Fin 16} {p : Passed} {up : Bool} (h : (s.tile tl).promoted p = up) :
    s.decideCand tl p = (s.bump (pgTILE tl) (if up then Reg.TILE.PROMOTE_CNT else Reg.TILE.SHADOW_CNT)
      (if up then 6 else 5)).sendRecord tl (if up then recSetType p.word 1 ||| 2 else p.word)
        (if up then BitVec.ofNat 32 (2 ^ 30 + p.side.toNat % 2 ^ 30) else p.side) p.lead := by
  cases up <;> simp [State.decideCand, h]

/-- Settles O32. The candidate is decided in the state that the collector leaves (`State.promotionDecision_due`), by the stream
hits that its tile remembers; it is counted and its record is sent (`State.SameRecords.sends`). -/
theorem candidatesAreDecided : Obligations.CandidatesAreDecided := by
  unfold Obligations.CandidatesAreDecided
  intro s chan t took p tl g up word side cnt hp only hchan due room below
  obtain ⟨u, hu⟩ : ∃ u, u = (g.restamp (max s.now (t / 64)) s.chans).candsTaken tl := ⟨_, rfl⟩
  have tile : u.tile tl = { g.tile tl with cands := [] } := hu ▸ State.candsTaken_tile ..
  obtain ⟨cells, ports⟩ := (g.restamp (max s.now (t / 64)) s.chans).candsTaken_queues tl
  have queues : g.SameQueues u tl := hu ▸ ⟨cells, ports⟩
  have regs : g.RegsBut (fun _ _ => False) u := hu ▸ .of rfl rfl
  have promoted : (u.tile tl).promoted p = up := by
    rw [tile]
    exact congrArg (fun l => Tile.promoted { s.tile tl with streams := l } p) (s.collect_streams chan.toNat took)
  have width : cnt.lo = 0 ∧ cnt.hi = 31 ∧ cnt.off < 4096 := by
    unfold cnt
    split <;> decide
  have move := s.collect_moves chan.toNat took
  have count : u.stored (pgTILE tl) cnt = s.stored (pgTILE tl) cnt :=
    (regs.stored id width.2.2).trans (move.regs.stored (by simp [pgPORTS, tl]) width.2.2)
  have row := (exec_promotionDecision hp chan t took).trans (congrArg _ (State.promotionDecision_due only hchan due took))
  rw [← hu, State.decideCand_eq promoted] at row
  obtain ⟨sent, counted, cands, kept, others, -⟩ := (State.SameRecords.refl u tl).sends width (queues.hasRoom room)
    (count.symm ▸ below) (if up then 6 else 5) side
  refine ⟨_, row, cands.trans (congrArg Tile.cands tile), queues.sends sent, counted.trans (congrArg (· + 1) count),
    fun q o ho hq => (regs.same q o ho id).trans (kept q o ho hq), fun v hv => (others v hv).trans ?_⟩
  rw [hu]
  exact (State.setTile_tile_ne hv ..).trans (move.others v hv)

end Sys2Proof.Machine
end

section
/-!
PROOFS. The family of tile read-out: frame-closed tokens (R93-R95), port cuts (R101) and late words (R103).
-/

namespace Sys2Proof.Machine

theorem exec_emitFrameClosed {s : State} (h : s.powered = true) (t : Fin 16) :
    exec (.emitFrameClosed t) s = .next (s.emitClosed t) := congrArg Host.Outcome.next (if_pos h)

theorem exec_portCut {s : State} (h : s.powered = true) (t : Fin 16) (c : Conc) :
    exec (.portCut t c) s = .next (s.portCut t c) := congrArg Host.Outcome.next (if_pos h)

theorem exec_lateWordAck {s : State} (h : s.powered = true) (t : Fin 16) (c : Conc) :
    exec (.lateWordAck t c) s = .next (s.lateWordAck t c) := congrArg Host.Outcome.next (if_pos h)

/-! ### The collector takes every record of a tile (R94) -/

/-- Cell by cell, the queues empty: what is still listed of them is to come. -/
theorem State.Serves.collectEach {s : State} {tl : Fin 16} {x : Tile} {q l : List (Nat × List (BitVec 52 × Nat))}
    (h : s.Serves tl { x with cellq := q }) (hq : ∀ k, mapGetD [] k q = [] ∨ mapGetD [] k q = mapGetD [] k l) :
    ∃ r, (s.each l (fun s e => s.collectCell tl e.1 e.2.length)).Serves tl { x with cellq := r } ∧
      ∀ k, mapGetD [] k r = [] := by
  induction l generalizing s q with
  | nil => exact ⟨q, h, fun k => (hq k).elim id id⟩
  | cons e l ih =>
    obtain ⟨j, v⟩ := e
    refine ih (h.collectCell j v.length) fun k => ?_
    by_cases hk : k = j
    · subst hk
      have emptied : (mapGetD [] k q).drop v.length = [] := by
        rcases hq k with none | all
        · rw [none, List.drop_nil]
        · rw [all]
          simp [mapGetD, mapFind]
      exact .inl ((mapGetD_mapPutD_same ..).trans emptied)
    · have later : mapGetD [] k ((j, v) :: l) = mapGetD [] k l := by simp [mapGetD, mapFind, hk]
      rw [mapGetD_mapPutD_ne hk, ← later]
      exact hq k

theorem State.collectAll_serves (s : State) (tl : Fin 16) :
    ∃ q, (s.collectAll tl).Serves tl { s.tile tl with cellq := q } ∧ ∀ k, mapGetD [] k q = [] :=
  (State.Serves.refl s tl).collectEach (x := s.tile tl) fun _ => .inr rfl

theorem State.collectCell_moves (s : State) (tl : Fin 16) (cell n : Nat) : s.RecordsMove (s.collectCell tl cell n) tl := by
  have left := State.RecordsMove.of_setTile (s := s) (tl := tl)
    ((s.tile tl).setWaiting cell (((s.tile tl).waiting cell).drop n)) rfl
  exact State.each_keeps (P := (s.RecordsMove · tl))
    (fun u x _ h => h.trans ((State.offerRecord_moves ..).trans (State.offerRecord_moves ..))) left

theorem State.collectAll_others {tl u : Fin 16} (h : u ≠ tl) (s : State) : (s.collectAll tl).tile u = s.tile u :=
  State.each_keeps (P := fun v => v.tile u = s.tile u) (fun v e _ k => ((v.collectCell_moves tl e.1 _).others u h).trans k) rfl

/-! ### The token joins what waits on the ports (R93, R95, R102) -/

/-- A port that a frame has closed on: the token waits there, unless the port is cut or resumed after the frame. -/
def State.closedPort (s : State) (tl : Fin 16) (n : Nat) (leave : Bool) (c : Conc) : Port :=
  { s.port tl c with
    frames := mapDel n (s.port tl c).frames
    items := if (s.port tl c).cut || decide (n < (s.port tl c).since) then (s.port tl c).items else (s.port tl c).items ++
      [.closed (closedWords n (mapGetD {} n (s.tile tl).chaff) (mapGetD {} n (s.port tl c).frames) leave) n] }

theorem State.offerToken_eq (s : State) (tl : Fin 16) (c : Conc) (n : Nat) (leave : Bool) :
    s.offerToken tl c n leave = s.setPort tl c (s.closedPort tl n leave c) := by
  simp only [State.offerToken, State.closedPort]
  split_ifs <;> rfl

/-- The tile that has closed its frame `n`. -/
def State.closedTile (s : State) (tl : Fin 16) (n : Nat) (leave : Bool) : Tile :=
  { s.tile tl with
    portA := s.closedPort tl n leave .a, portB := s.closedPort tl n leave .b, nextClose := n + 1,
    chaff := mapDel n (s.tile tl).chaff, leaveAt := if leave then none else (s.tile tl).leaveAt }

theorem State.closedTile_port (s : State) (tl : Fin 16) (n : Nat) (leave : Bool) (c : Conc) :
    (s.closedTile tl n leave).port c = s.closedPort tl n leave c := by cases c <;> rfl

/-- Both ports are offered the token of the state that the collector leaves. -/
theorem State.emitClosed_eq {s : State} {tl : Fin 16} {n : Nat} (h : s.canClose tl n = true) (hn : (s.tile tl).nextClose = n) :
    s.emitClosed tl = ((s.collectAll tl).setTile tl ((s.collectAll tl).closedTile tl n ((s.tile tl).leaveAt == some n))).put
      (pgTILE tl) Reg.TILE.LAST_FRAME (sheafOf n) := by
  subst hn
  have second (g : State) (p : Port) (leave : Bool) : (g.setPort tl .a p).closedPort tl (s.tile tl).nextClose leave .b =
      g.closedPort tl (s.tile tl).nextClose leave .b := by
    rw [State.closedPort, State.tile_setPort, State.port_setPort_ne (by decide)]
    rfl
  simp only [State.emitClosed, if_pos h, State.offerToken_eq, second]
  simp only [State.setPort, State.setTile_tile_same, State.setTile_setTile]
  rfl

/-! ### The registers of a port -/

section

variable {f g : FieldRef} {s : State} {p : Nat} {c : Conc} {v : Nat}

theorem portReg_off (f : FieldRef) (c : Conc) : (portReg f c).off = f.off + c.idx * 0x40 := rfl

/-- Two registers of one port, and a port's register and one of the page's header. -/
theorem portReg_key_ne (h : f.off ≠ g.off) : regKey p (portReg f c).off ≠ regKey p (portReg g c).off :=
  regKey_ne_off (by rw [portReg_off, portReg_off]; omega)

theorem portReg_key_ne_low {o : Nat} (h : o < f.off) : regKey p (portReg f c).off ≠ regKey p o :=
  regKey_ne_off (by rw [portReg_off]; omega)

theorem State.stored_put_portReg (h : f.lo ≤ f.hi) (k : f.hi < 32) :
    (s.put p (portReg f c) v).stored p (portReg f c) = v % 2 ^ (f.hi - f.lo + 1) :=
  State.stored_put_same (f := portReg f c) h k s p v

theorem State.stored_put_portReg_ne (h : g.off ≠ f.off) :
    (s.put p (portReg f c) v).stored p (portReg g c) = s.stored p (portReg g c) :=
  State.stored_put_ne (portReg_key_ne h) s v

theorem State.stored_bump_portReg (h : f.lo ≤ f.hi) (k : f.hi < 32) {b n : Nat}
    (l : s.stored p (portReg f c) + n < 2 ^ (f.hi - f.lo + 1)) :
    (s.bump p (portReg f c) b n).stored p (portReg f c) = s.stored p (portReg f c) + n :=
  State.stored_bump_below (f := portReg f c) h k l b

theorem State.stored_bump_portReg_ne (h : g.off ≠ f.off) (k : 0x020 < g.off) {b n : Nat} :
    (s.bump p (portReg f c) b n).stored p (portReg g c) = s.stored p (portReg g c) :=
  State.stored_bump_ne (portReg_key_ne h) (portReg_key_ne_low k) s b n

theorem State.stored_put_portReg_apart (e : g.off = f.off) (h : f.lo ≤ f.hi) (k : f.hi < 32) (hg : g.lo ≤ g.hi)
    (kg : g.hi < 32) (a : f.hi < g.lo ∨ g.hi < f.lo) :
    (s.put p (portReg f c) v).stored p (portReg g c) = s.stored p (portReg g c) :=
  State.stored_put_apart (f := portReg f c) (g := portReg g c) (congrArg (· + c.idx * 0x40) e) h k hg kg a s p v

end

/-! ### A port is cut (R101) -/

/-- A port that is cut while item `i` is in transfer and `r` waits behind it. -/
def Port.cutAt (p : Port) (i : PortItem) (r : List PortItem) : Port :=
  { p with items := [], words := 0, side := [], cut := true, lag := 0, late := some (i.word p.words), lateAcked := false,
           discarded := p.discarded + (r.filter (·.isHit)).length }

/-- The cut with its counts, before its event. -/
def State.cutCounted (s : State) (tl : Fin 16) (c : Conc) (i : PortItem) (r : List PortItem) : State :=
  ((((s.setPort tl c ((s.port tl c).cutAt i r)).put (pgPORTS tl) (portReg Reg.PORTS.PSTAT_FILL c) i.isHit.toNat).bump
    (pgPORTS tl) (portReg Reg.PORTS.CUT_CNT c) (8 * c.idx + 3)).bump (pgPORTS tl) (portReg Reg.PORTS.CUT_DISCARD_CNT c)
      (8 * c.idx + 4) (r.filter (·.isHit)).length).put (pgPORTS tl) (portReg Reg.PORTS.PSTAT_STATE c) 1

section

variable {s : State} {tl : Fin 16} {c : Conc} {i : PortItem} {r : List PortItem}

/-- PSTAT of a port that is cut says so (R108). -/
theorem State.showPort_cut (h : (s.port tl c).cut = true) :
    s.showPort tl c = s.put (pgPORTS tl) (portReg Reg.PORTS.PSTAT_STATE c) 1 := by rw [State.showPort, if_pos h]

/-- The run of R101 has reached its limit at a boundary: the port is cut. -/
theorem State.portCut_eq (boundary : s.now = s.frame * frameTref) (opens : (s.port tl c).cut = false)
    (acked : (s.port tl c).acked = false) (items : (s.port tl c).items = i :: r)
    (lag : s.fld (pgPORTS tl) Reg.PORTS.PORT_CTRL_LAG_LIM ≤ (s.port tl c).lag) :
    s.portCut tl c = (s.cutCounted tl c i r).event (pgPORTS tl) (8 * c.idx) := by
  have now : (!(s.port tl c).cut && decide (s.now = s.frame * frameTref) && !(s.port tl c).acked &&
      decide (s.fld (pgPORTS tl) Reg.PORTS.PORT_CTRL_LAG_LIM ≤ (s.port tl c).lag) && !(s.port tl c).items.isEmpty) = true := by
    simp [opens, boundary, acked, lag, items]
  simp only [State.portCut, if_pos now]
  simp only [items, List.tail_cons, List.head?_cons, Option.map_some]
  rw [State.showPort_cut]
  · rfl
  · rw [State.bump_port, State.bump_port, State.put_port, State.setPort_port_same]

/-- What the cut's counts say, and what the cut leaves. -/
theorem State.cutCounted_leaves (cuts : s.stored (pgPORTS tl) (portReg Reg.PORTS.CUT_CNT c) < 2 ^ 32 - 1)
    (discards : s.stored (pgPORTS tl) (portReg Reg.PORTS.CUT_DISCARD_CNT c) + (r.filter (·.isHit)).length < 2 ^ 32) :
    let t := s.cutCounted tl c i r
    t.tile tl = (s.tile tl).setPort c ((s.port tl c).cutAt i r) ∧
      t.stored (pgPORTS tl) (portReg Reg.PORTS.PSTAT_FILL c) = i.isHit.toNat ∧
      t.stored (pgPORTS tl) (portReg Reg.PORTS.PSTAT_STATE c) = 1 ∧
      t.stored (pgPORTS tl) (portReg Reg.PORTS.CUT_CNT c) = s.stored (pgPORTS tl) (portReg Reg.PORTS.CUT_CNT c) + 1 ∧
      t.stored (pgPORTS tl) (portReg Reg.PORTS.CUT_DISCARD_CNT c) =
        s.stored (pgPORTS tl) (portReg Reg.PORTS.CUT_DISCARD_CNT c) + (r.filter (·.isHit)).length ∧
      s.RegsBut (fun q _ => q ∈ [pgPORTS tl]) t ∧ s.Only 280 t ∧ ∀ u, u ≠ tl → t.tile u = s.tile u := by
  refine ⟨?_, ?_, State.stored_put_portReg (by decide) (by decide), ?_, ?_, ?_, ?_, fun u hu => ?_⟩
  · simp only [State.cutCounted, State.put_tile, State.bump_tile, State.tile_setPort]
  · rw [State.cutCounted, State.stored_put_portReg_apart (by decide) (by decide) (by decide) (by decide) (by decide) (by decide),
      State.stored_bump_portReg_ne (by decide) (by decide), State.stored_bump_portReg_ne (by decide) (by decide),
      State.stored_put_portReg (by decide) (by decide)]
    cases i.isHit <;> rfl
  · rw [State.cutCounted, State.stored_put_portReg_ne (by decide), State.stored_bump_portReg_ne (by decide) (by decide),
      State.stored_bump_portReg (by decide) (by decide), State.stored_put_portReg_ne (by decide), State.setPort_stored]
    rw [State.stored_put_portReg_ne (by decide), State.setPort_stored]
    show _ < 2 ^ 32
    omega
  · rw [State.cutCounted, State.stored_put_portReg_ne (by decide), State.stored_bump_portReg (by decide) (by decide),
      State.stored_bump_portReg_ne (by decide) (by decide), State.stored_put_portReg_ne (by decide), State.setPort_stored]
    rw [State.stored_bump_portReg_ne (by decide) (by decide), State.stored_put_portReg_ne (by decide), State.setPort_stored]
    exact discards
  · have put {f : FieldRef} (hf : f.off < 0x100) (u : State) (v : Nat) :
        u.RegsBut (fun q _ => q ∈ [pgPORTS tl]) (u.put (pgPORTS tl) (portReg f c) v) :=
      (State.RecordsMove.of_put hf u tl c v).regs
    have bump {f : FieldRef} (hf : f.off < 0x100) (u : State) (b n : Nat) :
        u.RegsBut (fun q _ => q ∈ [pgPORTS tl]) (u.bump (pgPORTS tl) (portReg f c) b n) :=
      State.regsBut_bump List.mem_cons_self List.mem_cons_self (portReg_off_lt hf c) u b n
    exact ((((State.regsBut_setPort ..).trans (put (by decide) ..)).trans (bump (by decide) ..)).trans (bump (by decide) ..)).trans
      (put (by decide) ..)
  · exact State.put_only (State.bump_only (State.bump_only (State.put_only (State.setPort_only (.refl s) tl c _ (by decide))
      _ _ _ (by decide)) _ _ _ _ (by decide)) _ _ _ _ (by decide)) _ _ _ (by decide)
  · simp only [State.cutCounted, State.put_tile, State.bump_tile]
    exact State.setTile_tile_ne hu ..

end

theorem conc_other_ne (c : Conc) : c.other ≠ c := by cases c <;> decide

/-! ### A late word (R103) -/

/-- The late word of a port is acknowledged: the port holds nothing. -/
def State.lateTaken (s : State) (tl : Fin 16) (c : Conc) : State :=
  (s.setPort tl c { s.port tl c with lateAcked := true, late := none }).put (pgPORTS tl) (portReg Reg.PORTS.PSTAT_FILL c) 0

section

variable {s : State} {tl : Fin 16} {c : Conc}

theorem State.lateWordAck_eq {w : BitVec 52} (h : (s.port tl c).late = some w) : s.lateWordAck tl c =
    if recType w = 0 ∨ (s.conc c).merging = false then s.lateTaken tl c else (s.lateTaken tl c).countLate c tl 1 := by
  have merging : (s.lateTaken tl c).conc c = s.conc c := (State.put_conc ..).trans (State.setPort_conc ..)
  simp only [State.lateWordAck, h, ← merging]
  refine if_congr ?_ rfl rfl
  rw [Bool.or_eq_true, decide_eq_true_iff, Bool.not_eq_true']
  rfl

theorem State.lateTaken_leaves (s : State) (tl : Fin 16) (c : Conc) :
    let t := s.lateTaken tl c
    t.tile tl = (s.tile tl).setPort c { s.port tl c with lateAcked := true, late := none } ∧
      t.stored (pgPORTS tl) (portReg Reg.PORTS.PSTAT_FILL c) = 0 ∧
      s.RegsBut (fun q o => (q, o) ∈ [(pgPORTS tl, (portReg Reg.PORTS.PSTAT c).off)]) t ∧ s.Only 280 t := by
  refine ⟨?_, ?_, ?_, ?_⟩
  · simp only [State.lateTaken, State.put_tile, State.tile_setPort]
  · exact State.stored_put_portReg (by decide) (by decide)
  · exact (State.regsBut_setPort ..).trans (State.regsBut_put List.mem_cons_self (portReg_off_lt (by decide) c) ..)
  · exact State.put_only (State.setPort_only (.refl s) tl c _ (by decide)) _ _ _ (by decide)

/-- One record of late chaff is counted (R103, R119). -/
theorem State.countLate_leaves (s : State) (c : Conc) (tl : Fin 16) :
    let t := s.countLate c tl 1
    (s.stored (pgMERGE c) Reg.MERGE.LATE_CNT < 2 ^ 32 - 1 →
      t.stored (pgMERGE c) Reg.MERGE.LATE_CNT = s.stored (pgMERGE c) Reg.MERGE.LATE_CNT + 1) ∧
      t.conc c = { s.conc c with late := (s.conc c).late + 1 } ∧
      (t.rd (pgMERGE c) Reg.HDR.EVT_PENDING.off).getLsbD 2 = true ∧
      s.RegsBut (fun q _ => q ∈ [pgMERGE c]) t ∧ s.Only 24664 t := by
  obtain ⟨u, hu⟩ : ∃ u, u = s.bump (pgMERGE c) (Reg.MERGE.TILE_LATE.nth tl.val) (16 + tl.val) := ⟨_, rfl⟩
  obtain ⟨w, hw⟩ : ∃ w, w = (u.bump (pgMERGE c) Reg.MERGE.LATE_CNT 0).event (pgMERGE c) 2 := ⟨_, rfl⟩
  have eq : s.countLate c tl 1 = w.setConc c { w.conc c with late := (w.conc c).late + 1 } := by rw [hw, hu]; rfl
  have off : (Reg.MERGE.TILE_LATE.nth tl.val).off = 0x080 + tl.val * 4 := rfl
  have conc : w.conc c = s.conc c := by rw [hw, hu, State.event_conc, State.bump_conc, State.bump_conc]
  refine ⟨fun below => ?_, ?_, ?_, ?_, State.countLate_only (.refl s) c tl 1 (by decide)⟩
  · have count : u.stored (pgMERGE c) Reg.MERGE.LATE_CNT = s.stored (pgMERGE c) Reg.MERGE.LATE_CNT := by
      rw [hu, State.stored_bump_ne _ (regKey_ne_off (by decide))]
      exact regKey_ne_off (by rw [off, show Reg.MERGE.LATE_CNT.off = 0x050 from rfl]; omega)
    rw [eq, State.setConc_stored, hw, State.stored_event_ne (regKey_ne_off (by decide)),
      State.stored_bump_below (by decide) (by decide) (by rw [count]; show _ < 2 ^ 32; omega), count]
  · rw [eq, State.setConc_conc_same, conc]
  · rw [eq, State.setConc_rd, hw]
    exact State.event_pends (by decide) ..
  · have regs : u.RegsBut (fun q _ => q ∈ [pgMERGE c]) w := hw ▸
      (State.regsBut_bump List.mem_cons_self List.mem_cons_self (by decide) u 0 1).trans
        (State.regsBut_event List.mem_cons_self _ 2)
    have first : s.RegsBut (fun q _ => q ∈ [pgMERGE c]) u := hu ▸
      State.regsBut_bump List.mem_cons_self List.mem_cons_self (by rw [off]; omega) s (16 + tl.val) 1
    rw [eq]
    exact (first.trans regs).trans (.of (State.setConc_regs ..) (State.setConc_stale ..))

end

theorem pgPORTS_ne_pgMERGE : ∀ (tl : Fin 16) (c : Conc), pgPORTS tl ≠ pgMERGE c := by
  intro tl c
  cases c <;> revert tl <;> decide

/-- Settles O37. The frame closes in the state that the collector leaves (`State.emitClosed_eq`, `State.collectAll_serves`); a cut
and a late word leave what `State.cutCounted_leaves`, `State.lateTaken_leaves` and `State.countLate_leaves` say. -/
theorem portsCloseFramesAndAreCut : Obligations.PortsCloseFramesAndAreCut := by
  unfold Obligations.PortsCloseFramesAndAreCut
  refine ⟨?_, ?_, ?_⟩
  · intro s tl c n g hp ended decided present
    have closes : s.canClose tl n = true := by
      rcases present with here | leaves
      · simp [State.canClose, n, ended, decided, here]
      · simp [State.canClose, n, ended, decided, leaves]
    have row := (exec_emitFrameClosed hp tl).trans (congrArg _ (State.emitClosed_eq closes rfl))
    obtain ⟨q, ⟨rest, cut, since⟩, empty⟩ := s.collectAll_serves tl
    have chaff : (g.tile tl).chaff = (s.tile tl).chaff := (congrArg Tile.chaff rest :)
    have leave : (g.tile tl).leaveAt = (s.tile tl).leaveAt := (congrArg Tile.leaveAt rest :)
    have queue : (g.tile tl).cellq = q := (congrArg Tile.cellq rest :)
    have gcut : (g.port tl c).cut = (s.port tl c).cut := (cut c).trans (by cases c <;> rfl)
    have gsince : (g.port tl c).since = (s.port tl c).since := (since c).trans (by cases c <;> rfl)
    obtain ⟨t, ht⟩ : ∃ t, t = (g.setTile tl (g.closedTile tl n ((s.tile tl).leaveAt == some n))).put (pgTILE tl)
        Reg.TILE.LAST_FRAME (sheafOf n) := ⟨_, rfl⟩
    have tile : t.tile tl = g.closedTile tl n ((s.tile tl).leaveAt == some n) := by
      rw [ht, State.put_tile, State.setTile_tile_same]
    have port : (t.port tl c) = g.closedPort tl n ((s.tile tl).leaveAt == some n) c := by
      rw [State.port, tile, State.closedTile_port]
    refine ⟨t, row.trans (congrArg _ ht.symm), congrArg Tile.nextClose tile, ?_, fun opens resumed => ?_, fun shut => ?_,
      fun cell => ?_, ?_, ?_, ?_, fun u hu => ?_⟩
    · rw [ht, State.stored_put_same (by decide) (by decide)]
      exact Nat.mod_mod ..
    · have takes : ¬((g.port tl c).cut || decide (n < (g.port tl c).since)) = true := by simp [gcut, gsince, opens, resumed]
      simp only [port, State.closedPort, if_neg takes, chaff]
    · have drops : ((g.port tl c).cut || decide (n < (g.port tl c).since)) = true := by simpa [gcut, gsince] using shut
      simp only [port, State.closedPort, if_pos drops]
    · rw [tile]
      exact (congrArg (mapGetD [] cell) queue).trans (empty cell)
    · rw [tile]
      simp only [State.closedTile, leave, beq_iff_eq]
    · rw [ht]
      exact ((State.regsBut_setTile ..).trans (State.regsBut_put List.mem_cons_self (by decide) _ _)).same
    · rw [ht]
      exact (State.put_only (L := 280) (State.setTile_only (.refl g) _ _ (by decide)) _ _ _ (by decide)).changes (by decide)
    · rw [ht, State.put_tile, State.setTile_tile_ne hu]
      exact State.collectAll_others hu s
  · intro s tl c i r p n reg hp boundary opens acked items lag cuts discards
    have row := (exec_portCut hp tl c).trans (congrArg _ (State.portCut_eq boundary opens acked items lag))
    obtain ⟨tile, fill, state, cutCnt, discCnt, regs, only, others⟩ := State.cutCounted_leaves (i := i) cuts discards
    have event := State.event_only (L := 88) (.refl (s.cutCounted tl c i r)) (pgPORTS tl) (8 * c.idx) (by decide)
    have port (d : Conc) : ((s.cutCounted tl c i r).event (pgPORTS tl) (8 * c.idx)).port tl d =
        ((s.tile tl).setPort c (p.cutAt i r)).port d := by rw [State.port, event.sameTile tl, tile]
    have kept {f : FieldRef} (hf : 0x01C < f.off) : ((s.cutCounted tl c i r).event (pgPORTS tl) (8 * c.idx)).stored (pgPORTS tl)
        (reg f) = (s.cutCounted tl c i r).stored (pgPORTS tl) (reg f) := State.stored_event_ne (portReg_key_ne_low hf) ..
    refine ⟨_, row, (port c).trans (Tile.setPort_port_same ..), (port c.other).trans (Tile.setPort_port_ne (conc_other_ne c) ..),
      (kept (by decide)).trans fill, (kept (by decide)).trans state, (kept (by decide)).trans cutCnt,
      (kept (by decide)).trans discCnt, State.event_pends (by cases c <;> decide) .., ?_, ?_,
      fun u hu => (event.sameTile u).trans (others u hu)⟩
    · exact (regs.trans (State.regsBut_event List.mem_cons_self ..)).same
    · exact ((only.mono (A := 64)).trans (event.mono (A := 256))).changes (by decide)
  · intro s tl c w p hp late
    have row := (exec_lateWordAck hp tl c).trans (congrArg _ (State.lateWordAck_eq late))
    obtain ⟨tile, fill, regs, only⟩ := s.lateTaken_leaves tl c
    have port (d : Conc) : (s.lateTaken tl c).port tl d =
        ((s.tile tl).setPort c { p with lateAcked := true, late := none }).port d := congrArg (Tile.port · d) tile
    have own := (port c).trans (Tile.setPort_port_same ..)
    have other := (port c.other).trans (Tile.setPort_port_ne (conc_other_ne c) ..)
    by_cases uncounted : recType w = 0 ∨ (s.conc c).merging = false
    · rw [if_pos uncounted] at row
      refine ⟨_, row, own, fill, other, fun _ => ⟨regs.same, only.changes (by decide)⟩, fun word merging => ?_⟩
      rcases uncounted with none | away
      · exact absurd none word
      · rw [merging] at away
        exact absurd away (by decide)
    · rw [if_neg uncounted] at row
      obtain ⟨count, conc, event, page, parts⟩ := (s.lateTaken tl c).countLate_leaves c tl
      have apart : pgPORTS tl ∉ [pgMERGE c] := by simp [pgPORTS_ne_pgMERGE]
      have before : (s.lateTaken tl c).stored (pgMERGE c) Reg.MERGE.LATE_CNT = s.stored (pgMERGE c) Reg.MERGE.LATE_CNT :=
        regs.stored (by simp [(pgPORTS_ne_pgMERGE tl c).symm]) (by decide)
      have same : (s.lateTaken tl c).conc c = s.conc c := (State.put_conc ..).trans (State.setPort_conc ..)
      have after (d : Conc) : ((s.lateTaken tl c).countLate c tl 1).port tl d = (s.lateTaken tl c).port tl d :=
        congrArg (Tile.port · d) (parts.sameTile tl)
      rw [before] at count
      rw [same] at conc
      refine ⟨_, row, (after c).trans own, (page.stored apart (portReg_off_lt (by decide) c)).trans fill,
        (after c.other).trans other, fun h => absurd h uncounted, fun _ _ below => ⟨count below, conc, event, ?_⟩⟩
      exact ((regs.mono fun q o m => by simp_all).trans (page.mono fun q o m => by simp_all)).same

end Sys2Proof.Machine
end

section
/-!
PROOFS. The family of merge and correction: what the concentrators keep, and what an event leaves (R4, R118).
-/

namespace Sys2Proof.Machine

/-! ### The concentrators -/

theorem State.Only.conc {L : Nat} {s t : State} (h : s.Only L t) (c : Conc) (a : L.testBit 13 = false := by decide)
    (b : L.testBit 14 = false := by decide) : t.conc c = s.conc c := by
  cases c
  · exact h.concA a
  · exact h.concB b

/-- Concentrator `c` is left in state `v`, the other as it was. -/
structure State.ConcMoves (s t : State) (c : Conc) (v : ConcSt) : Prop where
  own : t.conc c = v
  other : t.conc c.other = s.conc c.other

section

variable {s t u : State} {c : Conc} {v w : ConcSt}

theorem State.ConcMoves.refl (s : State) (c : Conc) : s.ConcMoves s c (s.conc c) := ⟨rfl, rfl⟩

theorem State.ConcMoves.trans (h : s.ConcMoves t c v) (k : t.ConcMoves u c w) : s.ConcMoves u c w :=
  ⟨k.own, k.other.trans h.other⟩

theorem State.concMoves_setConc (s : State) (c : Conc) (v : ConcSt) : s.ConcMoves (s.setConc c v) c v :=
  ⟨State.setConc_conc_same .., State.setConc_conc_ne (conc_other_ne c) ..⟩

/-- An update that leaves the concentrators alone. -/
theorem State.ConcMoves.then (h : s.ConcMoves t c v) (k : ∀ d, u.conc d = t.conc d) : s.ConcMoves u c v :=
  ⟨(k c).trans h.own, (k c.other).trans h.other⟩

theorem State.ConcMoves.of_conc (k : ∀ d, t.conc d = s.conc d) : s.ConcMoves t c (s.conc c) := (State.ConcMoves.refl s c).then k

end

theorem State.regsBut_setConc {P : Nat → Nat → Prop} (s : State) (c : Conc) (v : ConcSt) : s.RegsBut P (s.setConc c v) :=
  .of (State.setConc_regs ..) (State.setConc_stale ..)

theorem State.regsBut_setRx {P : Nat → Nat → Prop} (s : State) (c : Conc) (t : Fin 16) (x : Rx) : s.RegsBut P (s.setRx c t x) :=
  .of (State.setRx_regs ..) (State.setRx_stale ..)

theorem State.setRx_rx_ne {t u : Fin 16} (h : u ≠ t) (s : State) (c : Conc) (x : Rx) : (s.setRx c t x).rx c u = s.rx c u := by
  simp only [State.rx, State.setRx, State.setConc_conc_same, Fin.getElem_fin]
  exact Vector.getElem_set_ne _ _ fun e => h (Fin.ext e.symm)

/-- An event leaves the bits that are set. -/
theorem State.event_keeps_bit {s : State} {p i : Nat} (h : (s.rd p Reg.HDR.EVT_PENDING.off).getLsbD i = true) (k : Nat) :
    ((s.event p k).rd p Reg.HDR.EVT_PENDING.off).getLsbD i = true := by
  unfold State.event
  dsimp only
  split_ifs
  · exact h
  · rw [rd_of_regs (State.queueEvent_regs _ _), State.rd_wr_same, BitVec.getLsbD_or, h, Bool.true_or]
  · rw [State.rd_wr_same, BitVec.getLsbD_or, h, Bool.true_or]

end Sys2Proof.Machine
end

section
/-!
PROOFS. The family of merge and correction: the governor (R133).
-/

namespace Sys2Proof.Machine

theorem exec_govRaiseStep {s : State} {c : Conc} (h : s.mergeOn c = true) (fill : Nat) :
    exec (.govRaiseStep c fill) s = .next (s.govRaise c fill) := congrArg Host.Outcome.next (if_pos h)

theorem exec_govLowerStep {s : State} {c : Conc} (h : s.mergeOn c = true) (fill : Nat) :
    exec (.govLowerStep c fill) s = .next (s.govLower c fill) := congrArg Host.Outcome.next (if_pos h)

theorem State.govSettle_enabled {s : State} {c : Conc} (h : s.flag (pgMERGE c) Reg.MERGE.GOV_CTRL_ENABLE = true) :
    s.govSettle c = s.put (pgMERGE c) Reg.MERGE.GOV_STAT_RAIL
      (clampNat (s.govLimits c).1 (s.govLimits c).2 (s.stored (pgMERGE c) Reg.MERGE.GOV_STAT_RAIL)) := if_pos h

theorem State.govSettle_disabled {s : State} {c : Conc} (h : s.flag (pgMERGE c) Reg.MERGE.GOV_CTRL_ENABLE = false) :
    s.govSettle c = (s.putB (pgMERGE c) Reg.MERGE.GOV_STAT_FAST false).put (pgMERGE c) Reg.MERGE.GOV_STAT_RAIL (s.govLimits c).2 :=
  if_neg (by rw [h]; exact Bool.false_ne_true)

/-- The rails lie below 26 (R133). -/
theorem State.govLimits_le (s : State) (c : Conc) : (s.govLimits c).1 ≤ (s.govLimits c).2 ∧ (s.govLimits c).2 ≤ 25 :=
  ⟨le_max_left .., max_le (min_le_left ..) (min_le_left ..)⟩

theorem clampNat_le {lo hi : Nat} (h : lo ≤ hi) (v : Nat) : clampNat lo hi v ≤ hi := by
  unfold clampNat
  split_ifs <;> omega

/-- A step of the governor, before the rail is brought within its limits. -/
def State.govStep (s : State) (c : Conc) (fast : Bool) (rail : Nat) : State :=
  (s.putB (pgMERGE c) Reg.MERGE.GOV_STAT_FAST fast).put (pgMERGE c) Reg.MERGE.GOV_STAT_RAIL rail

/-- The governor changes no register but GOV_STAT. -/
theorem State.regsBut_govStep (s : State) (c : Conc) (fast : Bool) (rail : Nat) :
    s.RegsBut (fun q o => (q, o) ∈ [(pgMERGE c, Reg.MERGE.GOV_STAT.off)]) (s.govStep c fast rail) :=
  (State.regsBut_putB (f := Reg.MERGE.GOV_STAT_FAST) List.mem_cons_self (by decide) s fast).trans
    (State.regsBut_put (f := Reg.MERGE.GOV_STAT_RAIL) List.mem_cons_self (by decide) _ rail)

theorem State.govStep_fast (s : State) (c : Conc) (fast : Bool) (rail : Nat) :
    (s.govStep c fast rail).stored (pgMERGE c) Reg.MERGE.GOV_STAT_FAST = fast.toNat :=
  (State.stored_put_apart (f := Reg.MERGE.GOV_STAT_RAIL) (g := Reg.MERGE.GOV_STAT_FAST) rfl (by decide) (by decide) (by decide)
    (by decide) (by decide) ..).trans (State.stored_putB_same (by decide) (by decide) ..)

theorem State.govStep_rail {rail : Nat} (h : rail < 32) (s : State) (c : Conc) (fast : Bool) :
    (s.govStep c fast rail).stored (pgMERGE c) Reg.MERGE.GOV_STAT_RAIL = rail :=
  (State.stored_put_same (by decide) (by decide) ..).trans (Nat.mod_eq_of_lt h)

theorem State.govStep_only (s : State) (c : Conc) (fast : Bool) (rail : Nat) : s.Only 24 (s.govStep c fast rail) :=
  State.put_only (State.putB_only (.refl s) _ _ _ (by decide)) _ _ _ (by decide)

/-- What the settings of the governor are does not change with its state. -/
theorem State.RegsBut.gov {s t : State} {c : Conc} {P : Nat → Nat → Prop} (h : s.RegsBut P t) (hp : ¬P (pgMERGE c) 0x05C) :
    t.govLimits c = s.govLimits c ∧
      t.flag (pgMERGE c) Reg.MERGE.GOV_CTRL_ENABLE = s.flag (pgMERGE c) Reg.MERGE.GOV_CTRL_ENABLE := by
  have floor : t.fld (pgMERGE c) Reg.MERGE.GOV_CTRL_FLOOR = s.fld (pgMERGE c) Reg.MERGE.GOV_CTRL_FLOOR := h.fld hp (by decide)
  have ceil : t.fld (pgMERGE c) Reg.MERGE.GOV_CTRL_CEIL = s.fld (pgMERGE c) Reg.MERGE.GOV_CTRL_CEIL := h.fld hp (by decide)
  exact ⟨by rw [State.govLimits, floor, ceil]; rfl, h.flag hp (by decide)⟩


/-- What a step of the governor leaves once the rail is within its limits. -/
structure State.GovStepped (s t : State) (c : Conc) (fast : Bool) (rail : Nat) : Prop where
  rail : t.stored (pgMERGE c) Reg.MERGE.GOV_STAT_RAIL = rail
  fast : t.stored (pgMERGE c) Reg.MERGE.GOV_STAT_FAST = fast.toNat
  regs : s.RegsBut (fun q o => (q, o) ∈ [(pgMERGE c, Reg.MERGE.GOV_STAT.off)]) t
  parts : s.Only 24 t

section

variable {s : State} {c : Conc} {fast : Bool} {rail : Nat}

theorem State.govStep_settles (on : s.flag (pgMERGE c) Reg.MERGE.GOV_CTRL_ENABLE = true) (h : rail < 32) :
    s.GovStepped ((s.govStep c fast rail).govSettle c) c fast (clampNat (s.govLimits c).1 (s.govLimits c).2 rail) := by
  obtain ⟨limits, enable⟩ := (s.regsBut_govStep c fast rail).gov (c := c) (by simp; decide)
  obtain ⟨ordered, top⟩ := s.govLimits_le c
  have below : clampNat (s.govLimits c).1 (s.govLimits c).2 rail < 32 := by
    have := clampNat_le ordered rail
    omega
  rw [State.govSettle_enabled (enable.trans on), limits, State.govStep_rail h]
  refine ⟨?_, ?_, ?_, ?_⟩
  · exact (State.stored_put_same (f := Reg.MERGE.GOV_STAT_RAIL) (by decide) (by decide) ..).trans (Nat.mod_eq_of_lt below)
  · exact (State.stored_put_apart (f := Reg.MERGE.GOV_STAT_RAIL) (g := Reg.MERGE.GOV_STAT_FAST) rfl (by decide) (by decide)
      (by decide) (by decide) (by decide) ..).trans (State.govStep_fast ..)
  · exact (s.regsBut_govStep c fast rail).trans (State.regsBut_put (f := Reg.MERGE.GOV_STAT_RAIL) List.mem_cons_self (by decide) ..)
  · exact State.put_only (State.govStep_only ..) _ _ _ (by decide)

/-- While ENABLE is 0 the rail stands at the ceiling (R133). -/
theorem State.govSettle_stands (off : s.flag (pgMERGE c) Reg.MERGE.GOV_CTRL_ENABLE = false) :
    s.GovStepped (s.govSettle c) c false (s.govLimits c).2 := by
  obtain ⟨-, top⟩ := s.govLimits_le c
  rw [State.govSettle_disabled off]
  exact ⟨State.govStep_rail (by omega) s c false, State.govStep_fast .., State.regsBut_govStep .., State.govStep_only ..⟩

theorem State.govLower_eq (on : s.flag (pgMERGE c) Reg.MERGE.GOV_CTRL_ENABLE = true) (fill : Nat) :
    s.govLower c fill = (s.govStep c false (if fill < 2 then s.stored (pgMERGE c) Reg.MERGE.GOV_STAT_RAIL - 1
      else s.stored (pgMERGE c) Reg.MERGE.GOV_STAT_RAIL)).govSettle c := if_pos on

/-- The state in which the governor raises the rail: event 3 is set where FAST rises. -/
def State.govAlarmed (s : State) (c : Conc) (fill : Nat) : State :=
  s.eventIf (decide (14 < fill) && !s.flag (pgMERGE c) Reg.MERGE.GOV_STAT_FAST) (pgMERGE c) 3

/-- The rail that GOV_RAISE_STEP asks for. -/
def State.govRaised (s : State) (c : Conc) (fill : Nat) : Nat :=
  if 14 < fill then (s.govLimits c).2
  else if 8 < fill ∨ (s.conc c).queueOverHalf = true then min 25 (s.stored (pgMERGE c) Reg.MERGE.GOV_STAT_RAIL + 1)
  else s.stored (pgMERGE c) Reg.MERGE.GOV_STAT_RAIL

theorem State.regsBut_govAlarmed (s : State) (c : Conc) (fill : Nat) :
    s.RegsBut (fun q o => (q, o) ∈ [(pgMERGE c, Reg.HDR.EVT_PENDING.off)]) (s.govAlarmed c fill) :=
  .ite (State.regsBut_event List.mem_cons_self ..) (.refl s)

theorem State.govRaise_eq (on : s.flag (pgMERGE c) Reg.MERGE.GOV_CTRL_ENABLE = true) (fill : Nat) :
    s.govRaise c fill = ((s.govAlarmed c fill).govStep c (decide (14 < fill)) (s.govRaised c fill)).govSettle c := by
  have limits : (((s.govAlarmed c fill).putB (pgMERGE c) Reg.MERGE.GOV_STAT_FAST (decide (14 < fill))).govLimits c) = s.govLimits c :=
    (((s.regsBut_govAlarmed c fill).mono fun _ _ => List.mem_cons_of_mem (pgMERGE c, Reg.MERGE.GOV_STAT.off)).trans
      (State.regsBut_putB (f := Reg.MERGE.GOV_STAT_FAST) List.mem_cons_self (by decide) _ _)).gov
      (by simp; decide) |>.1
  have conc : ((s.govAlarmed c fill).putB (pgMERGE c) Reg.MERGE.GOV_STAT_FAST (decide (14 < fill))).conc c = s.conc c := by
    rw [State.putB_conc, State.govAlarmed, State.eventIf_conc]
  simp only [State.govRaise, if_pos on]
  rw [← State.govAlarmed, limits, conc]
  simp only [State.govStep, State.govRaised, decide_eq_true_eq, Bool.or_eq_true]

end

section

variable {s : State} {c : Conc}

theorem State.govRail_lt (s : State) (c : Conc) : s.stored (pgMERGE c) Reg.MERGE.GOV_STAT_RAIL < 32 := by
  unfold State.stored fieldGet bitsOf
  exact Nat.mod_lt _ (by decide)

/-- Within limits of at most 25 a rail is limited alike before and after it is limited to 25. -/
theorem clampNat_min {lo hi : Nat} (ordered : lo ≤ hi) (h : hi ≤ 25) (v : Nat) : clampNat lo hi (min 25 v) = clampNat lo hi v := by
  unfold clampNat
  split_ifs <;> omega

/-- GOV_RAISE_STEP while ENABLE is 1 (R133). -/
theorem State.govRaise_raises (on : s.flag (pgMERGE c) Reg.MERGE.GOV_CTRL_ENABLE = true) (fill : Nat) :
    (s.govAlarmed c fill).GovStepped (s.govRaise c fill) c (decide (14 < fill))
      (clampNat (s.govLimits c).1 (s.govLimits c).2 (s.govRaised c fill)) := by
  obtain ⟨limits, enable⟩ := (s.regsBut_govAlarmed c fill).gov (c := c) (by simp; decide)
  have low : s.govRaised c fill < 32 := by
    have top := s.govLimits_le c
    have rail := s.govRail_lt c
    unfold State.govRaised
    split_ifs <;> omega
  rw [State.govRaise_eq on, ← limits]
  exact State.govStep_settles (enable.trans on) low

theorem State.govRaised_limited (s : State) (c : Conc) (fill : Nat) :
    clampNat (s.govLimits c).1 (s.govLimits c).2 (s.govRaised c fill) = if 14 < fill then (s.govLimits c).2
      else clampNat (s.govLimits c).1 (s.govLimits c).2 (if 8 < fill ∨ (s.conc c).queueOverHalf = true then
        s.stored (pgMERGE c) Reg.MERGE.GOV_STAT_RAIL + 1 else s.stored (pgMERGE c) Reg.MERGE.GOV_STAT_RAIL) := by
  obtain ⟨ordered, top⟩ := s.govLimits_le c
  unfold State.govRaised
  split_ifs
  · unfold clampNat
    split_ifs <;> omega
  · exact clampNat_min ordered top _
  · rfl

/-- The alarm: event 3 where FAST rises. -/
theorem State.govAlarmed_pends {fill : Nat} (full : 14 < fill) (h : s.flag (pgMERGE c) Reg.MERGE.GOV_STAT_FAST = false) :
    ((s.govAlarmed c fill).rd (pgMERGE c) Reg.HDR.EVT_PENDING.off).getLsbD 3 = true := by
  have rises : (decide (14 < fill) && !s.flag (pgMERGE c) Reg.MERGE.GOV_STAT_FAST) = true := by simp [full, h]
  rw [State.govAlarmed, rises]
  exact State.event_pends (by decide) ..

theorem State.govLower_lowers (on : s.flag (pgMERGE c) Reg.MERGE.GOV_CTRL_ENABLE = true) (fill : Nat) :
    s.GovStepped (s.govLower c fill) c false (clampNat (s.govLimits c).1 (s.govLimits c).2
      (if fill < 2 then s.stored (pgMERGE c) Reg.MERGE.GOV_STAT_RAIL - 1 else s.stored (pgMERGE c) Reg.MERGE.GOV_STAT_RAIL)) := by
  have rail := s.govRail_lt c
  rw [State.govLower_eq on]
  exact State.govStep_settles on (by split_ifs <;> omega)

end

end Sys2Proof.Machine
end

section
/-!
PROOFS. The family of merge and correction: grains are dealt (R162, R165-R168, R172).
-/

namespace Sys2Proof.Machine

theorem exec_dealGrain {s : State} {c : Conc} (h : s.mergeOn c = true) (reads : GrainReads) (at_ : Nat) :
    exec (.dealGrain c reads at_) s = .next (s.dealGrain c reads at_) := congrArg Host.Outcome.next (if_pos h)

/-- The next lane over a mask is one of its lanes (R166). -/
theorem nextLane_mem {mask : BitVec 64} {last l : Nat} (h : nextLane mask last = some l) : mask.getLsbD l = true := by
  unfold nextLane at h
  cases above : (List.range 64).find? (fun l => mask.getLsbD l && decide (last < l)) with
  | none =>
    rw [above] at h
    exact List.find?_some (p := fun l => mask.getLsbD l) h
  | some k =>
    rw [above] at h
    obtain rfl : k = l := Option.some.inj h
    have found := List.find?_some above
    exact (Bool.and_eq_true_iff.1 found).1

/-! ### What dealing a grain leaves of the concentrator (R165-R168) -/

section

variable {s : State} {c : Conc}

/-- The mask being dealt over becomes the mask in effect; a lane of it goes on as it was (R167). -/
theorem State.takeMask_moves (s : State) (c : Conc) :
    s.ConcMoves (s.takeMask c) c { s.conc c with dealMask := s.actMask c } ∧
      ∀ l, (s.actMask c).getLsbD l = true → (s.takeMask c).laneState c l = s.laneState c l := by
  constructor
  · refine (State.concMoves_setConc s c _).then fun d => State.RegsOnly.conc ?_ d
    exact .each (fun u a => .ite (State.regsOnly_put ..) (.refl u)) _
  · intro l hl
    refine State.each_keeps (P := fun t => t.laneState c l = s.laneState c l) (fun t a _ same => ?_) (State.setConc_stored ..)
    split
    · rename_i leaves
      have page : pgLANE c l ≠ pgLANE c a := by
        rintro e
        obtain rfl : l = a := by simpa [pgLANE] using e
        simp [hl] at leaves
      exact (State.stored_put_ne (regKey_ne_page page (by decide) (by decide)) ..).trans same
    · exact same

/-- The mask rests: of the concentrator nothing but the mask being dealt over changes. -/
theorem State.restMask_moves (s : State) (c : Conc) :
    ∃ m, s.ConcMoves (s.restMask c) c { s.conc c with dealMask := m } := by
  unfold State.restMask
  split
  · exact ⟨_, (s.takeMask_moves c).1⟩
  · exact ⟨(s.conc c).dealMask, .refl s c⟩

theorem State.restMask_if_moves (s : State) (c : Conc) (p : Prop) [Decidable p] :
    ∃ m, s.ConcMoves (if p then s.restMask c else s) c { s.conc c with dealMask := m } := by
  split
  · exact s.restMask_moves c
  · exact ⟨(s.conc c).dealMask, .refl s c⟩

theorem State.countGrain_moves (s : State) (c : Conc) (k : GrainClass) (lane : Nat) :
    s.ConcMoves (s.countGrain c k lane) c { s.conc c with
      lastLane := lane, gleanAge := ageNext (k == .glean) (s.conc c).gleanReady (s.conc c).gleanAge,
      resendAge := ageNext (k == .resend) (s.conc c).resendReady (s.conc c).resendAge } := State.concMoves_setConc ..

/-- The first grain that a concentrator sends is a stream grain 0 (R172, R274). -/
theorem State.startsWith_moves (s : State) (c : Conc) (d : Dealing) :
    s.ConcMoves (s.startsWith c .stream d) c { s.conc c with firstDue := (s.conc c).firstDue && d.grain != 0 } ∧
      ∀ l, (s.startsWith c .stream d).laneState c l = s.laneState c l := by
  unfold State.startsWith
  extract_lets cs
  split
  · rename_i starts
    have now : ((s.conc c).firstDue && d.grain != 0) = false := by simp_all
    rw [now]
    refine ⟨(State.concMoves_setConc ..).then fun d => State.put_conc .., fun l => ?_⟩
    have page : pgLANE c l ≠ pgSTEP c := by simp only [pgLANE, pgSTEP]; omega
    exact (State.stored_put_ne (regKey_ne_page page (by decide) (by decide)) ..).trans (State.setConc_stored ..)
  · rename_i waits
    have same : ((s.conc c).firstDue && d.grain != 0) = (s.conc c).firstDue := by
      cases h : (s.conc c).firstDue
      · rfl
      · have := waits
        simp_all [cs]
    rw [same]
    exact ⟨.refl s c, fun _ => rfl⟩

/-- The grain leaves on its lane where the concentrator sends and the lane carries data (R168). -/
theorem State.driveGrain_moves (s : State) (c : Conc) (lane : Nat) (g : List Byte) :
    ∃ tx out blocks words,
      s.ConcMoves (s.driveGrain c lane g) c { s.conc c with tx := tx, outGrain := out, outBlocks := blocks, outWords := words } ∧
      ((s.conc c).sending = true → (s.conc c).firstDue = false → s.laneState c lane = 3 → out = some (lane, g)) ∧
      ((s.conc c).sending = false → out = (s.conc c).outGrain) := by
  unfold State.driveGrain
  extract_lets cs x
  split
  · rename_i sends
    refine ⟨_, _, _, _, (State.concMoves_setConc ..).then fun d => State.bump64_conc .., fun _ _ _ => rfl, fun off => ?_⟩
    simp [cs, off] at sends
  · rename_i keeps
    exact ⟨_, _, _, _, .refl s c, fun on first data => absurd (by simp [cs, on, first, data]) keeps, fun _ => rfl⟩

/-- With its last grain a sheaf is sent, and the next follows. -/
theorem State.streamSent_moves (s : State) (c : Conc) (d : Dealing) :
    ∃ next unsent since, s.ConcMoves (s.streamSent c d) c { s.conc c with sendNext := next, unsent := unsent, spillSince := since } ∧
      (d.rest = none → next = d.frame + 1) := by
  unfold State.streamSent
  have shown (u : State) (e : Conc) : ((u.modeReturn c).showBacklog c).conc e = u.conc e :=
    (State.showBacklog_only (L := 88) (State.modeReturn_only (.refl u) c (by decide)) c (by decide)).conc e
  split
  · exact ⟨_, _, _, (State.concMoves_setConc ..).then fun e => shown _ e, fun _ => rfl⟩
  · rename_i more
    exact ⟨_, _, _, .of_conc fun e => shown _ e, fun done => absurd (by simp [done]) more⟩

/-! ### The stream class -/

/-- In direct mode the sheaf being dealt goes on, or the first of the queue begins; nothing is read. -/
theorem State.streamSheaf_direct {d : Dealing} (mode : s.outMode c = 0) (read : d.reread = false)
    (next : (s.conc c).stream = some d ∨
      ((s.conc c).stream = none ∧ ∃ n b r, (s.conc c).queue = (n, b) :: r ∧ d = { frame := n, bytes := b, grain := 0 })) :
    ∃ q, s.streamSheaf c {} = s.setConc c { s.conc c with queue := q, stream := some d } := by
  have direct (u : State) (hm : u.outMode c = 0) (hd : (u.conc c).stream = some d) :
      ((if u.outMode c = 0 then u.queueGrain c [] else u).rereadStream c []) = u := by
    have same : u.queueGrain c [] = u := rfl
    simp only [if_pos hm, same, State.rereadStream, hd, read, Bool.false_and, Bool.false_eq_true, if_false]
  rcases next with dealt | ⟨none, n, b, r, queue, rfl⟩
  · refine ⟨(s.conc c).queue, ?_⟩
    have same : s.setConc c { s.conc c with queue := (s.conc c).queue, stream := some d } = s := by
      rw [← dealt]
      cases c <;> rfl
    simp only [State.streamSheaf, dealt, Option.isSome_some, if_true]
    rw [direct s mode dealt, same]
  · refine ⟨r, ?_⟩
    have begins : s.beginStream c [] = s.setConc c { s.conc c with queue := r, stream := some { frame := n, bytes := b, grain := 0 } } := by
      simp only [State.beginStream, if_pos mode, queue]
    simp only [State.streamSheaf, none, Option.isSome_none, Bool.false_eq_true, if_false, begins]
    exact direct _ ((State.setConc_stored ..).trans mode) (by rw [State.setConc_conc_same])



/-- A stream grain leaves on lane `l`: of its sheaf's place nothing changes but what follows (R166, R168, R172). -/
def State.streamLeaves (s : State) (c : Conc) (d : Dealing) (l : Nat) : State :=
  let s := (((s.countGrain c .stream l).startsWith c .stream d).driveGrain c l (grainBytes c .stream d l)).streamSent c d
  if d.rest.isNone then s.restMask c else s

/-- What a dealt grain leaves of the concentrator: its lane, and the grain where the concentrator sends on it. -/
structure State.GrainLeft (s t : State) (c : Conc) (l : Nat) (first : Bool) (g : List Byte) : Prop where
  lane : (t.conc c).lastLane = l
  sent : (s.conc c).sending = true → first = false → s.laneState c l = 3 → (t.conc c).outGrain = some (l, g)
  held : (s.conc c).sending = false → (t.conc c).outGrain = (s.conc c).outGrain
  form : (t.conc c).nextForm = (s.conc c).nextForm
  stream : (t.conc c).stream = (s.conc c).stream
  other : t.conc c.other = s.conc c.other

theorem State.streamLeaves_left (s : State) (c : Conc) (d : Dealing) (l : Nat) :
    s.GrainLeft (s.streamLeaves c d l) c l ((s.conc c).firstDue && d.grain != 0) (grainBytes c .stream d l) ∧
      (d.rest = none → ((s.streamLeaves c d l).conc c).sendNext = d.frame + 1) := by
  have count := State.countGrain_moves s c .stream l
  have countData : (s.countGrain c .stream l).laneState c l = s.laneState c l := State.setConc_stored ..
  obtain ⟨start, startData⟩ := State.startsWith_moves (s.countGrain c .stream l) c d
  obtain ⟨tx, out, blocks, words, drive, sent, held⟩ := State.driveGrain_moves ((s.countGrain c .stream l).startsWith c .stream d)
    c l (grainBytes c .stream d l)
  obtain ⟨after, unsent, since, finish, last⟩ := State.streamSent_moves
    (((s.countGrain c .stream l).startsWith c .stream d).driveGrain c l (grainBytes c .stream d l)) c d
  obtain ⟨m, rests⟩ := State.restMask_if_moves ((((s.countGrain c .stream l).startsWith c .stream d).driveGrain c l
    (grainBytes c .stream d l)).streamSent c d) c (d.rest.isNone = true)
  rw [startData, countData] at sent
  simp only [start.own, count.own] at sent held
  unfold State.streamLeaves
  refine ⟨⟨?_, fun on first data => ?_, fun off => ?_, ?_, ?_, ?_⟩, fun done => ?_⟩
  · simp only [rests.own, finish.own, drive.own, start.own, count.own]
  · simp only [rests.own, finish.own, drive.own, sent on first data]
  · simp only [rests.own, finish.own, drive.own, held off]
  · simp only [rests.own, finish.own, drive.own, start.own, count.own]
  · simp only [rests.own, finish.own, drive.own, start.own, count.own]
  · rw [rests.other, finish.other, drive.other, start.other, count.other]
  · simp only [rests.own, finish.own, last done]

/-- The state from which a grain of the begun stream sheaf is dealt: grain 0 takes the mask in effect (R167). -/
def State.dealsOver (s : State) (c : Conc) (d : Dealing) : State := if d.grain = 0 then s.takeMask c else s

/-- What a stream grain finds when it is dealt to lane `l`. -/
structure State.GrainFound (s u : State) (c : Conc) (d : Dealing) (l : Nat) : Prop where
  lane : nextLane (u.conc c).dealMask (u.conc c).lastLane = some l
  data : u.laneState c l = s.laneState c l
  stream : (u.conc c).stream = (s.conc c).stream
  merging : (u.conc c).merging = (s.conc c).merging
  sending : (u.conc c).sending = (s.conc c).sending
  first : (u.conc c).firstDue = (s.conc c).firstDue
  out : (u.conc c).outGrain = (s.conc c).outGrain
  form : (u.conc c).nextForm = (s.conc c).nextForm
  other : u.conc c.other = s.conc c.other

theorem State.dealsOver_found {d : Dealing} {l : Nat}
    (lane : nextLane (if d.grain = 0 then s.actMask c else (s.conc c).dealMask) (s.conc c).lastLane = some l) :
    s.GrainFound (s.dealsOver c d) c d l := by
  by_cases first : d.grain = 0
  · rw [if_pos first] at lane
    obtain ⟨moves, data⟩ := s.takeMask_moves c
    rw [State.dealsOver, if_pos first]
    refine ⟨?_, data l (nextLane_mem lane), ?_, ?_, ?_, ?_, ?_, ?_, moves.other⟩
    · simp only [moves.own, lane]
    all_goals simp only [moves.own, ConcSt.merging]
  · rw [if_neg first] at lane
    rw [State.dealsOver, if_neg first]
    exact ⟨lane, rfl, rfl, rfl, rfl, rfl, rfl, rfl, rfl⟩

theorem State.dealStream_eq {s' : State} {d : Dealing} {l : Nat} (sheaf : s.streamSheaf c {} = s') (stream : (s'.conc c).stream = some d)
    (read : d.reread = false) (merging : (s'.conc c).merging = true)
    (lane : nextLane ((s'.dealsOver c d).conc c).dealMask ((s'.dealsOver c d).conc c).lastLane = some l) :
    s.dealStream c {} =
      ((s'.dealsOver c d).setConc c { (s'.dealsOver c d).conc c with stream := d.rest }).streamLeaves c d l := by
  rw [State.dealsOver] at *
  simp only [State.dealStream, sheaf, stream, read, merging, Bool.not_true, Bool.or_self, Bool.false_eq_true, if_false, lane]
  rfl

/-- A stream grain dealt to lane `l` in direct mode (R162, R166, R168, R172). -/
theorem State.dealStream_left {d : Dealing} {l : Nat} (merging : (s.conc c).merging = true) (mode : s.outMode c = 0)
    (read : d.reread = false)
    (next : (s.conc c).stream = some d ∨
      ((s.conc c).stream = none ∧ ∃ n b r, (s.conc c).queue = (n, b) :: r ∧ d = { frame := n, bytes := b, grain := 0 }))
    (lane : nextLane (if d.grain = 0 then s.actMask c else (s.conc c).dealMask) (s.conc c).lastLane = some l) :
    (((s.dealStream c {}).conc c).lastLane = l ∧ ((s.dealStream c {}).conc c).stream = d.rest ∧
      (d.rest = none → ((s.dealStream c {}).conc c).sendNext = d.frame + 1) ∧
      ((s.conc c).sending = true → (s.conc c).firstDue = false ∨ d.grain = 0 → s.laneState c l = 3 →
        ((s.dealStream c {}).conc c).outGrain = some (l, grainBytes c .stream d l)) ∧
      ((s.conc c).sending = false → ((s.dealStream c {}).conc c).outGrain = (s.conc c).outGrain) ∧
      ((s.dealStream c {}).conc c).nextForm = (s.conc c).nextForm ∧ (s.dealStream c {}).conc c.other = s.conc c.other) := by
  obtain ⟨q, sheaf⟩ := State.streamSheaf_direct mode read next
  have begun := State.concMoves_setConc s c { s.conc c with queue := q, stream := some d }
  have act (v : ConcSt) : (s.setConc c v).actMask c = s.actMask c := by simp only [State.actMask, State.setConc_stored]
  have found := State.dealsOver_found (s := s.setConc c { s.conc c with queue := q, stream := some d }) (c := c) (d := d) (l := l)
    (by rw [act, begun.own]; exact lane)
  rw [State.dealStream_eq sheaf (by rw [begun.own]) read (by rw [begun.own]; exact merging) found.lane]
  have ready := State.concMoves_setConc ((s.setConc c { s.conc c with queue := q, stream := some d }).dealsOver c d) c
    { ((s.setConc c { s.conc c with queue := q, stream := some d }).dealsOver c d).conc c with stream := d.rest }
  have data (v : ConcSt) (w : State) : (w.setConc c v).laneState c l = w.laneState c l := State.setConc_stored ..
  have up := data { ((s.setConc c { s.conc c with queue := q, stream := some d }).dealsOver c d).conc c with stream := d.rest }
    ((s.setConc c { s.conc c with queue := q, stream := some d }).dealsOver c d)
  generalize (s.setConc c { s.conc c with queue := q, stream := some d }).dealsOver c d = u at found ready up ⊢
  generalize u.setConc c { u.conc c with stream := d.rest } = w at ready up ⊢
  obtain ⟨left, last⟩ := State.streamLeaves_left w c d l
  have sent := left.sent
  have held := left.held
  rw [up, found.data, data] at sent
  simp only [ready.own, found.sending, found.first, found.out, begun.own] at sent held
  refine ⟨left.lane, ?_, last, fun on first => ?_, held, ?_, ?_⟩
  · rw [left.stream, ready.own]
  · refine sent on ?_
    rcases first with none | zero
    · rw [none, Bool.false_and]
    · rw [zero, bne_self_eq_false, Bool.and_false]
  · simp only [left.form, ready.own, found.form, begun.own]
  · rw [left.other, ready.other, found.other, begun.other]

/-! ### The glean and re-send classes -/

theorem State.gleanDone_moves (s : State) (c : Conc) (num : Nat) :
    ∃ gs, s.ConcMoves (s.gleanDone c num) c { s.conc c with gleans := gs } := by
  unfold State.gleanDone
  extract_lets cs acc u
  have done : s.ConcMoves u c { s.conc c with gleans := cs.gleans.filter (fun g => !(g.formed && g.trig.num == num)) } :=
    State.concMoves_setConc ..
  split
  · exact ⟨_, done.then fun e => State.put_conc ..⟩
  · exact ⟨_, done⟩

/-- A glean grain leaves on lane `l`. -/
def State.gleanLeaves (s : State) (c : Conc) (d : Dealing) (ends : Option Nat) (l : Nat) : State :=
  ((s.setConc c { s.conc c with gleanCur := d.rest.map (fun r => (r, ends)) }).countGrain c .glean l).driveGrain c l
    (grainBytes c .glean d l)

/-- After the last grain of a glean's last sheaf the glean is outstanding no longer (R189). -/
theorem State.dealGlean_moves {d : Dealing} {ends : Option Nat} {l : Nat} (cur : (s.conc c).gleanCur = some (d, ends))
    (lane : nextLane (s.conc c).dealMask (s.conc c).lastLane = some l) :
    ∃ gs, (s.gleanLeaves c d ends l).ConcMoves (s.dealGlean c) c { (s.gleanLeaves c d ends l).conc c with gleans := gs } := by
  simp only [State.dealGlean, ConcSt.gleanSheaf, cur, lane]
  split
  · exact (s.gleanLeaves c d (some _) l).gleanDone_moves c _
  · exact ⟨_, .refl ..⟩

theorem State.dealGlean_left {d : Dealing} {ends : Option Nat} {l : Nat} (cur : (s.conc c).gleanCur = some (d, ends))
    (lane : nextLane (s.conc c).dealMask (s.conc c).lastLane = some l) :
    ((s.dealGlean c).conc c).lastLane = l ∧ ((s.dealGlean c).conc c).stream = (s.conc c).stream ∧
      ((s.dealGlean c).conc c).gleanCur = d.rest.map (fun r => (r, ends)) ∧ ((s.dealGlean c).conc c).gleanAge = 0 ∧
      ((s.conc c).sending = true → (s.conc c).firstDue = false → s.laneState c l = 3 →
        ((s.dealGlean c).conc c).outGrain = some (l, grainBytes c .glean d l)) := by
  obtain ⟨gs, done⟩ := State.dealGlean_moves cur lane
  have rest := State.concMoves_setConc s c { s.conc c with gleanCur := d.rest.map (fun r => (r, ends)) }
  have count := State.countGrain_moves (s.setConc c { s.conc c with gleanCur := d.rest.map (fun r => (r, ends)) }) c .glean l
  have up : ((s.setConc c { s.conc c with gleanCur := d.rest.map (fun r => (r, ends)) }).countGrain c .glean l).laneState c l =
      s.laneState c l := (State.setConc_stored ..).trans (State.setConc_stored ..)
  obtain ⟨tx, out, blocks, words, drive, sent, -⟩ := State.driveGrain_moves
    ((s.setConc c { s.conc c with gleanCur := d.rest.map (fun r => (r, ends)) }).countGrain c .glean l) c l (grainBytes c .glean d l)
  rw [up] at sent
  simp only [count.own, rest.own] at sent
  rw [State.gleanLeaves] at done
  simp only [done.own, drive.own, count.own, rest.own]
  exact ⟨trivial, trivial, trivial, rfl, sent⟩

theorem State.dealResend_left {d : Dealing} {l : Nat} (cur : (s.conc c).resendCur = some d)
    (lane : nextLane (s.conc c).dealMask (s.conc c).lastLane = some l) :
    ((s.dealResend c).conc c).lastLane = l ∧ ((s.dealResend c).conc c).stream = (s.conc c).stream ∧
      ((s.dealResend c).conc c).resendCur = d.rest ∧ ((s.dealResend c).conc c).resendAge = 0 ∧
      ((s.conc c).sending = true → (s.conc c).firstDue = false → s.laneState c l = 3 →
        ((s.dealResend c).conc c).outGrain = some (l, grainBytes c .resend d l)) := by
  have rest := State.concMoves_setConc s c { s.conc c with resendCur := d.rest }
  have up : ((s.setConc c { s.conc c with resendCur := d.rest }).countGrain c .resend l).laneState c l = s.laneState c l :=
    (State.setConc_stored ..).trans (State.setConc_stored ..)
  have count := State.countGrain_moves (s.setConc c { s.conc c with resendCur := d.rest }) c .resend l
  obtain ⟨tx, out, blocks, words, drive, sent, -⟩ := State.driveGrain_moves
    ((s.setConc c { s.conc c with resendCur := d.rest }).countGrain c .resend l) c l (grainBytes c .resend d l)
  rw [up] at sent
  simp only [count.own, rest.own] at sent
  have shown (u : State) : (u.showResend c).conc c = u.conc c := (State.showResend_only (L := 24) (.refl u) c (by decide)).conc c
  have dealt : s.dealResend c = (((s.setConc c { s.conc c with resendCur := d.rest }).countGrain c .resend l).driveGrain c l
      (grainBytes c .resend d l)).showResend c := by
    simp only [State.dealResend, cur, lane]
  rw [dealt, shown]
  simp only [drive.own, count.own, rest.own]
  exact ⟨trivial, trivial, trivial, rfl, sent⟩

end

theorem State.merging_of_mergeOn {s : State} {c : Conc} (h : s.mergeOn c = true) : (s.conc c).merging = true := by
  simp only [State.mergeOn, Bool.and_eq_true] at h
  exact h.1.2

/-- DEAL_GRAIN where a class has a grain and a lane is in the mask in effect. -/
theorem State.dealGrain_eq {s : State} {c : Conc} (on : s.mergeOn c = true) (mask : s.actMask c ≠ 0) {k : GrainClass}
    (next : s.nextClass c = some k) (at_ : Nat) :
    s.dealGrain c {} at_ = match k with
      | .stream => (s.advance at_).dealStream c {}
      | .glean => (s.advance at_).dealGlean c
      | .resend => (s.advance at_).dealResend c := by
  have conc : (s.advance at_).conc c = s.conc c := State.advance_conc ..
  have act : (s.advance at_).actMask c = s.actMask c := by simp only [State.actMask, State.advance_stored]
  have cls : (s.advance at_).nextClass c = s.nextClass c := by
    rfl
  simp only [State.dealGrain, conc, act, cls, next, State.merging_of_mergeOn on, beq_eq_false_iff_ne.2 mask, Bool.and_false, Bool.not_false, Bool.and_true, if_true]
  cases k <;> rfl

/-- Settles O41: the governor's step is one write of GOV_STAT, brought within its limits after it; a grain of each class passes
through the same chain of updates, each of which moves its own part of the concentrator. -/
theorem governorStepsAndGrainsAreDealt : Obligations.GovernorStepsAndGrainsAreDealt := by
  unfold Obligations.GovernorStepsAndGrainsAreDealt
  refine ⟨⟨fun s c fill => ?_, fun s c fill => ?_, fun s c fill => ?_⟩, fun s c d l unit => ?_, fun s c d ends l unit => ?_,
    fun s c d l unit => ?_⟩
  · intro p lo hi rail on enabled
    have raised := State.govRaise_raises enabled fill
    refine ⟨_, exec_govRaiseStep on fill, raised.rail.trans (State.govRaised_limited s c fill), raised.fast, fun full fast => ?_,
      fun q o ho hp => ?_, (State.Only.trans (L := 88) ?_ (raised.parts.mono (A := 64))).changes (by decide)⟩
    · have kept := raised.regs.same (pgMERGE c) Reg.HDR.EVT_PENDING.off (by decide) (by simp; decide)
      rw [kept.1]
      exact State.govAlarmed_pends full fast
    · rw [List.mem_cons, List.mem_singleton, not_or] at hp
      exact ((s.regsBut_govAlarmed c fill).same q o ho (mt List.mem_singleton.1 hp.2)).trans
        (raised.regs.same q o ho (mt List.mem_singleton.1 hp.1))
    · exact State.eventIf_only (.refl s) _ _ _ (by decide)
  · intro p lo hi rail on enabled
    have lowered := State.govLower_lowers enabled fill
    exact ⟨_, exec_govLowerStep on fill, lowered.fast, lowered.rail, lowered.regs.same, lowered.parts.changes (by decide)⟩
  · intro p lo settles on disabled
    have stands := State.govSettle_stands disabled
    have off : ¬s.flag (pgMERGE c) Reg.MERGE.GOV_CTRL_ENABLE = true := by
      rw [show s.flag (pgMERGE c) Reg.MERGE.GOV_CTRL_ENABLE = false from disabled]
      exact Bool.false_ne_true
    have keeps : (s.govRaise c fill) = s.govSettle c ∧ (s.govLower c fill) = s.govSettle c := ⟨if_neg off, if_neg off⟩
    exact ⟨⟨_, (exec_govRaiseStep on fill).trans (congrArg _ keeps.1), stands.rail, stands.fast, stands.regs.same, stands.parts.changes (by decide)⟩,
      ⟨_, (exec_govLowerStep on fill).trans (congrArg _ keeps.2), stands.rail, stands.fast, stands.regs.same, stands.parts.changes (by decide)⟩⟩
  · intro cs mask on cls mode lanes read next lane
    refine ⟨_, (exec_dealGrain on {} unit).trans (congrArg _ (State.dealGrain_eq on lanes cls unit)), ?_⟩
    have left := State.dealStream_left (s := s.advance unit) (c := c) (d := d) (l := l)
    simp only [State.advance_conc, State.outMode, State.actMask, State.laneState, State.advance_stored] at left
    exact left (State.merging_of_mergeOn on) mode read next lane
  · intro cs on cls lanes cur lane
    refine ⟨_, (exec_dealGrain on {} unit).trans (congrArg _ (State.dealGrain_eq on lanes cls unit)), ?_⟩
    have left := State.dealGlean_left (s := s.advance unit) (c := c) (d := d) (ends := ends) (l := l)
    simp only [State.advance_conc, State.laneState, State.advance_stored] at left
    exact left cur lane
  · intro cs on cls lanes cur lane
    refine ⟨_, (exec_dealGrain on {} unit).trans (congrArg _ (State.dealGrain_eq on lanes cls unit)), ?_⟩
    have left := State.dealResend_left (s := s.advance unit) (c := c) (d := d) (l := l)
    simp only [State.advance_conc, State.laneState, State.advance_stored] at left
    exact left cur lane

end Sys2Proof.Machine
end

section
/-!
PROOFS. The family of merge and correction: tokens, tiles that are behind, and the merge horizon (R101, R118-R123, R277).
-/

namespace Sys2Proof.Machine

/-! ### Tiles that are behind (R119) -/

section

variable {s t : State} {c : Conc} {P : Nat → Nat → Prop}

theorem State.behind_eq (s : State) (c : Conc) (tl : Fin 16) :
    s.behind c tl = (s.rd (pgMERGE c) Reg.MERGE.PRESENT.off).getLsbD (16 + tl.val) := by
  unfold State.behind
  rw [State.stored, testBit_fieldGet, show Reg.MERGE.PRESENT_BEHIND.hi - Reg.MERGE.PRESENT_BEHIND.lo + 1 = 16 from rfl,
    decide_eq_true tl.isLt, Bool.true_and]
  rfl

theorem State.behind_setBehind_eq (s : State) (c : Conc) (tl u : Fin 16) (b : Bool) :
    (s.setBehind c tl b).behind c u = if u = tl then b else s.behind c u := by
  have put : (s.setBehind c tl b).rd (pgMERGE c) Reg.MERGE.PRESENT.off =
      fieldPut ⟨Reg.MERGE.PRESENT.off, 16 + tl.val, 16 + tl.val⟩ b.toNat (s.rd (pgMERGE c) Reg.MERGE.PRESENT.off) :=
    State.rd_put_same ..
  rw [State.behind_eq, put, getLsbD_fieldPut _ _ _ _ (by dsimp only; omega) (le_refl _) (by omega), State.behind_eq]
  by_cases same : u = tl
  · subst same
    cases b <;> simp
  · have apart : u.val ≠ tl.val := fun e => same (Fin.ext e)
    rw [if_neg (by dsimp only; omega), if_neg same]

theorem State.behind_setBehind (s : State) (c : Conc) (tl : Fin 16) (b : Bool) : (s.setBehind c tl b).behind c tl = b :=
  (s.behind_setBehind_eq c tl tl b).trans (if_pos rfl)

theorem State.behind_setBehind_ne {tl u : Fin 16} (h : u ≠ tl) (s : State) (c : Conc) (b : Bool) :
    (s.setBehind c tl b).behind c u = s.behind c u := (s.behind_setBehind_eq c tl u b).trans (if_neg h)

theorem State.regsBut_setBehind (h : P (pgMERGE c) Reg.MERGE.PRESENT.off) (s : State) (tl : Fin 16) (b : Bool) :
    s.RegsBut P (s.setBehind c tl b) := State.regsBut_putB (f := ⟨Reg.MERGE.PRESENT.off, 16 + tl.val, 16 + tl.val⟩) h
    (show Reg.MERGE.PRESENT.off < 4096 by decide) s b

theorem State.RegsBut.behind (h : s.RegsBut P t) (hp : ¬P (pgMERGE c) Reg.MERGE.PRESENT.off) (tl : Fin 16) :
    t.behind c tl = s.behind c tl := by
  rw [State.behind_eq, State.behind_eq, (h.same (pgMERGE c) Reg.MERGE.PRESENT.off (by decide) hp).1]

end

/-! ### The dead time of launches whose records were refused or discarded (R220) -/

theorem pgPORTS_ne_pgCALS : ∀ tl : Fin 16, pgPORTS tl ≠ pgCALS := by decide

/-- The registers that count calibration dead time. -/
def calDeadRegs : List (Nat × Nat) :=
  [(pgCALS, Reg.CALS.MISS_CNT.off), (pgCALS, Reg.CALS.CDEAD_TOT_LO.off), (pgCALS, Reg.CALS.CDEAD_TOT_HI.off),
    (pgCALS, Reg.HDR.COUNTER_OVF.off)]

theorem pgMERGE_ne_pgCALS (c : Conc) : pgMERGE c ≠ pgCALS := by cases c <;> decide

theorem not_mem_calDeadRegs (c : Conc) (o : Nat) : (pgMERGE c, o) ∉ calDeadRegs := by
  simp [calDeadRegs, pgMERGE_ne_pgCALS]

section

variable {P : Nat → Nat → Prop} (dead : ∀ q o, (q, o) ∈ calDeadRegs → P q o)

include dead

theorem State.regsBut_addCalDead (s : State) (chan n : Nat) : s.RegsBut P (s.addCalDead chan n) := by
  have eq : s.addCalDead chan n = State.bump64 (if mapGetD 0 chan s.cal.cdead + n < 2 ^ 32 then s.deadAdded chan n
      else (s.deadAdded chan n).overflow pgCALS 6) pgCALS Reg.CALS.CDEAD_TOT_LO Reg.CALS.CDEAD_TOT_HI 5 n := rfl
  have added : s.RegsBut P (s.deadAdded chan n) := .of rfl rfl
  rw [eq]
  exact State.RegsBut.trans (.ite added (added.trans (State.regsBut_overflow (dead _ _ (by decide)) _ 6)))
    (State.regsBut_bump64 (dead _ _ (by decide)) (dead _ _ (by decide)) (dead _ _ (by decide)) (by decide) (by decide) _ 5 n)

theorem State.regsBut_calMissed (s : State) (chan : Nat) : s.RegsBut P (s.calMissed chan) :=
  (State.regsBut_addCalDead dead s chan 32).trans
    (State.regsBut_bump (dead _ _ (by decide)) (dead _ _ (by decide)) (by decide) _ 3 1)

theorem State.regsBut_missLaunches (s : State) (p : Launch → Bool) : s.RegsBut P (s.missLaunches p) :=
  (State.RegsBut.of rfl rfl : s.RegsBut P (s.dropLaunches p)).trans
    (.each (fun (u : State) (l : Launch) _ => State.regsBut_calMissed dead u l.chan) _)

theorem State.regsBut_launchesClosed (s : State) (c : Conc) (tl : Fin 16) (n : Nat) : s.RegsBut P (s.launchesClosed c tl n) :=
  .ite (State.regsBut_missLaunches dead s _) (.refl s)

end

/-! ### Tokens at the head of a port (R101, R118-R123) -/

theorem exec_frameClosedToken {s : State} {c : Conc} (h : s.mergeOn c = true) (k : Nat) (tl : Fin 16) :
    exec (.frameClosedToken ⟨c, k⟩ tl) s = .next (s.closedTokenCmd c tl k) := congrArg Host.Outcome.next (if_pos h)

theorem exec_resumeToken {s : State} {c : Conc} (h : s.mergeOn c = true) (k : Nat) (tl : Fin 16) :
    exec (.resumeToken ⟨c, k⟩ tl) s = .next (s.resumeTokenCmd c tl k) := congrArg Host.Outcome.next (if_pos h)

theorem exec_horizonExpiry {s : State} {c : Conc} (h : s.mergeOn c = true) (tl : Fin 16) :
    exec (.horizonExpiry c tl) s = .next (s.horizonExpiry c tl) := congrArg Host.Outcome.next (if_pos h)

section

variable {s : State} {c : Conc} {tl : Fin 16} {ws : List (BitVec 52)} {n k : Nat} {rest : List PortItem}

theorem State.closedTokenCmd_partly (on : (s.conc c).merging = true) (items : (s.port tl c).items = .closed ws n :: rest)
    (h : k < ws.length) : s.closedTokenCmd c tl k = s.ackWords tl c k := by
  simp only [State.closedTokenCmd, items, on, Bool.not_true, Bool.false_eq_true, if_false, if_pos h]

theorem State.closedTokenCmd_last (on : (s.conc c).merging = true) (items : (s.port tl c).items = .closed ws n :: rest)
    (h : ws.length ≤ k) : s.closedTokenCmd c tl k = s.takeToken c tl ws n := by
  simp only [State.closedTokenCmd, items, on, Bool.not_true, Bool.false_eq_true, if_false, if_neg (Nat.not_lt.2 h)]

theorem State.resumeTokenCmd_partly (on : (s.conc c).merging = true) (items : (s.port tl c).items = .resume ws n :: rest)
    (h : k < ws.length) : s.resumeTokenCmd c tl k = s.ackWords tl c k := by
  simp only [State.resumeTokenCmd, items, on, Bool.not_true, Bool.false_eq_true, if_false, if_pos h]

theorem State.resumeTokenCmd_last (on : (s.conc c).merging = true) (items : (s.port tl c).items = .resume ws n :: rest)
    (h : ws.length ≤ k) : s.resumeTokenCmd c tl k = s.takeResume c tl ws n := by
  simp only [State.resumeTokenCmd, items, on, Bool.not_true, Bool.false_eq_true, if_false, if_neg (Nat.not_lt.2 h)]

/-- Where some of a token's words are acknowledged, the port alone says so. -/
theorem State.ackWords_leaves (h : (s.port tl c).words < k) :
    (s.ackWords tl c k).port tl c = { s.port tl c with words := k, acked := true } ∧
      (s.ackWords tl c k).port tl c.other = s.port tl c.other ∧ s.Only 256 (s.ackWords tl c k) ∧
      ∀ u, u ≠ tl → (s.ackWords tl c k).tile u = s.tile u := by
  have eq : s.ackWords tl c k = s.setPort tl c { s.port tl c with words := k, acked := true } := if_pos h
  rw [eq]
  exact ⟨State.setPort_port_same .., State.port_setPort_ne (conc_other_ne c) .., State.setPort_only (.refl s) _ _ _ (by decide),
    fun u hu => State.setTile_tile_ne hu ..⟩

/-- What taking the item at the head of a tile's port leaves: the port is `p`, and only registers of the list change. -/
structure State.ItemGone (s t : State) (tl : Fin 16) (c : Conc) (p : Port) (l : List (Nat × Nat)) : Prop where
  tile : t.tile tl = (s.tile tl).setPort c p
  tiles : ∀ u, u ≠ tl → t.tile u = s.tile u
  conc : ∀ d, t.conc d = s.conc d
  regs : s.RegsBut (fun q o => (q, o) ∈ l) t

theorem State.ItemGone.port {t : State} {p : Port} {l : List (Nat × Nat)} (h : s.ItemGone t tl c p l) : t.port tl c = p := by
  rw [State.port, h.tile, Tile.setPort_port_same]

theorem State.ItemGone.otherPort {t : State} {p : Port} {l : List (Nat × Nat)} (h : s.ItemGone t tl c p l) :
    t.port tl c.other = s.port tl c.other := by
  rw [State.port, h.tile, Tile.setPort_port_ne (conc_other_ne c), State.port]

/-- A frame-closed token leaves its port; LAST_TOKEN names its frame (R108). -/
theorem State.closedTaken (items : (s.port tl c).items = .closed ws n :: rest) :
    s.ItemGone ((s.ackItem tl c).launchesClosed c tl n) tl c
      { s.port tl c with items := rest, words := 0, acked := true, oldest := n + 1, discarded := 0 }
      ((pgPORTS tl, (portReg Reg.PORTS.LAST_TOKEN c).off) :: calDeadRegs) ∧
      ((s.ackItem tl c).launchesClosed c tl n).stored (pgPORTS tl) (portReg Reg.PORTS.LAST_TOKEN c) = sheafOf n := by
  have eq : s.ackItem tl c = (s.setPort tl c { s.port tl c with
      items := rest, words := 0, acked := true, oldest := n + 1, discarded := 0 }).put (pgPORTS tl)
      (portReg Reg.PORTS.LAST_TOKEN c) (sheafOf n) := by
    simp only [State.ackItem, items]
  have parts := State.launchesClosed_only (L := 8388632) (.refl (s.ackItem tl c)) c tl n (by decide)
  refine ⟨⟨?_, fun u hu => ?_, fun d => ?_, ?_⟩, ?_⟩
  · rw [parts.sameTile, eq, State.put_tile, State.tile_setPort]
  · rw [parts.sameTile, eq, State.put_tile]
    exact State.setTile_tile_ne hu ..
  · rw [parts.conc, eq, State.put_conc, State.setPort_conc]
  · refine State.RegsBut.trans ?_ (State.regsBut_launchesClosed (fun q o h => List.mem_cons_of_mem _ h) _ c tl n)
    rw [eq]
    exact (State.regsBut_setPort ..).trans (State.regsBut_put List.mem_cons_self (portReg_off_lt (by decide) c) ..)
  · rw [(State.regsBut_launchesClosed (P := fun q o => (q, o) ∈ calDeadRegs) (fun q o h => h) _ c tl n).stored ?_
      (portReg_off_lt (by decide) c), eq]
    · refine (State.stored_put_portReg (by decide) (by decide)).trans ?_
      exact Nat.mod_mod ..
    · simp [calDeadRegs, pgPORTS_ne_pgCALS]

end

section

variable {s : State} {c : Conc} {tl : Fin 16} {ws : List (BitVec 52)} {n k : Nat} {rest : List PortItem}

/-- The counts of an unformed frame's token are kept (R119, R123). -/
def State.tokenKept (s : State) (c : Conc) (tl : Fin 16) (i : TokenInfo) (n : Nat) : State :=
  (s.setRx c tl { s.rx c tl with
    tokens := mapPut n i (s.rx c tl).tokens, left := if i.leave then some n else (s.rx c tl).left,
    since := if s.behind c tl then some n else (s.rx c tl).since }).setBehind c tl false

theorem State.takeToken_eq (s : State) (c : Conc) (tl : Fin 16) (ws : List (BitVec 52)) (n : Nat) :
    s.takeToken c tl ws n = if n < (((s.ackItem tl c).launchesClosed c tl n).conc c).nextForm then
        (s.ackItem tl c).launchesClosed c tl n
      else ((s.ackItem tl c).launchesClosed c tl n).tokenKept c tl (tokenInfo ws) n := rfl

/-- Keeping a token's counts changes what the concentrator holds of the tile, and that it is behind. -/
theorem State.tokenKept_leaves (s : State) (c : Conc) (tl : Fin 16) (i : TokenInfo) (n : Nat) :
    let t := s.tokenKept c tl i n
    t.behind c tl = false ∧
      t.rx c tl = { s.rx c tl with tokens := mapPut n i (s.rx c tl).tokens, left := if i.leave then some n else (s.rx c tl).left,
                                   since := if s.behind c tl then some n else (s.rx c tl).since } ∧
      (∀ u, u ≠ tl → t.rx c u = s.rx c u) ∧ (∀ u, t.tile u = s.tile u) ∧
      s.RegsBut (fun q o => (q, o) ∈ [(pgMERGE c, Reg.MERGE.PRESENT.off)]) t := by
  refine ⟨State.behind_setBehind .., ?_, fun u hu => ?_, fun u => ?_, ?_⟩
  · exact (State.putB_rx ..).trans (State.setRx_rx_same ..)
  · exact (State.putB_rx ..).trans (State.setRx_rx_ne hu ..)
  · exact (State.putB_tile ..).trans (State.setRx_tile ..)
  · exact (State.regsBut_setRx ..).trans (State.regsBut_setBehind List.mem_cons_self ..)

theorem State.setBehind_rx (s : State) (c : Conc) (tl : Fin 16) (b : Bool) (d : Conc) (u : Fin 16) :
    (s.setBehind c tl b).rx d u = s.rx d u := State.putB_rx ..

theorem State.ItemGone.rx {t : State} {p : Port} {l : List (Nat × Nat)} (h : s.ItemGone t tl c p l) (d : Conc) (u : Fin 16) :
    t.rx d u = s.rx d u := congrArg (fun v : ConcSt => v.rx[u]) (h.conc d)

/-! ### Resume tokens (R122) -/

/-- What a resume token says. -/
def resumedOf (ws : List (BitVec 52)) (f : Nat) : Resumed :=
  { frame := f, reason := bitsOf 45 42 (ws.getD 1 0).toNat, missed := bitsOf 39 0 (ws.getD 1 0).toNat,
    discarded := bitsOf 31 0 (ws.getD 2 0).toNat }

/-- A resume token leaves its port. -/
theorem State.resumeTaken (items : (s.port tl c).items = .resume ws n :: rest) :
    s.ItemGone ((s.ackItem tl c).launchesClosed c tl (n - 1)) tl c { s.port tl c with items := rest, words := 0, acked := true }
      calDeadRegs := by
  have eq : s.ackItem tl c = s.setPort tl c { s.port tl c with items := rest, words := 0, acked := true } := by
    simp only [State.ackItem, items]
  have parts := State.launchesClosed_only (L := 8388632) (.refl (s.ackItem tl c)) c tl (n - 1) (by decide)
  refine ⟨?_, fun u hu => ?_, fun d => ?_, ?_⟩
  · rw [parts.sameTile, eq, State.tile_setPort]
  · rw [parts.sameTile, eq]
    exact State.setTile_tile_ne hu ..
  · rw [parts.conc, eq, State.setPort_conc]
  · rw [eq]
    exact (State.regsBut_setPort ..).trans (State.regsBut_launchesClosed (fun q o h => h) _ c tl (n - 1))

/-- The tile is present from the resume's frame, with its record where the port was not cut for the join sheaf (R122, R277). -/
def State.resumeKept (s : State) (c : Conc) (tl : Fin 16) (r : Resumed) (joins : Bool) : State :=
  s.setRx c tl { s.rx c tl with
    since := some r.frame, left := none, resumed := if joins then (s.rx c tl).resumed else (s.rx c tl).resumed ++ [r] }

/-- A resume of a frame whose sheaf is formed leaves the tile behind, with event 0. -/
def State.resumeLate (s : State) (c : Conc) (tl : Fin 16) (late : Bool) : State :=
  if late then (s.setBehind c tl true).eventIf (!s.behind c tl) (pgMERGE c) 0 else s

theorem State.resumeLate_leaves (s : State) (c : Conc) (tl : Fin 16) (late : Bool) :
    let t := s.resumeLate c tl late
    t.behind c tl = (s.behind c tl || late) ∧
      (late = true → s.behind c tl = false → (t.rd (pgMERGE c) Reg.HDR.EVT_PENDING.off).getLsbD 0 = true) ∧
      s.RegsBut (fun q o => (q, o) ∈ [(pgMERGE c, Reg.MERGE.PRESENT.off), (pgMERGE c, Reg.HDR.EVT_PENDING.off)]) t ∧ s.Only 88 t := by
  cases late with
  | false => exact ⟨(Bool.or_false _).symm, fun h => absurd h (by decide), .refl s, .refl s⟩
  | true =>
    have eq : s.resumeLate c tl true = (s.setBehind c tl true).eventIf (!s.behind c tl) (pgMERGE c) 0 := rfl
    have event : (s.setBehind c tl true).RegsBut (fun q o => (q, o) ∈ [(pgMERGE c, Reg.HDR.EVT_PENDING.off)])
        ((s.setBehind c tl true).eventIf (!s.behind c tl) (pgMERGE c) 0) :=
      .ite (State.regsBut_event List.mem_cons_self ..) (.refl _)
    rw [eq]
    refine ⟨?_, fun _ new => ?_, ?_, ?_⟩
    · rw [event.behind (by simp; decide), State.behind_setBehind, Bool.or_true]
    · rw [new]
      exact State.event_pends (by decide) ..
    · exact (State.regsBut_setBehind List.mem_cons_self ..).trans (event.mono fun q o h => List.mem_cons_of_mem _ h)
    · exact State.eventIf_only (State.setBehind_only (.refl s) c tl true (by decide)) _ _ _ (by decide)

/-- Late records of a resume are counted. -/
def State.lateCounted (s : State) (c : Conc) (tl : Fin 16) (n : Nat) : State :=
  ((s.bump (pgMERGE c) (Reg.MERGE.TILE_LATE.nth tl.val) (16 + tl.val) n).bump (pgMERGE c) Reg.MERGE.LATE_CNT 0 n).event (pgMERGE c) 2

/-- The registers that count late records, of the concentrator's and of the tile's. -/
def lateRegs (c : Conc) (tl : Fin 16) : List (Nat × Nat) :=
  [(pgMERGE c, (Reg.MERGE.TILE_LATE.nth tl.val).off), (pgMERGE c, Reg.HDR.COUNTER_OVF.off), (pgMERGE c, Reg.MERGE.LATE_CNT.off),
    (pgMERGE c, Reg.HDR.EVT_PENDING.off)]

theorem tileLate_off (tl : Fin 16) : (Reg.MERGE.TILE_LATE.nth tl.val).off = 0x080 + tl.val * 4 := rfl

theorem not_mem_lateRegs {c : Conc} {tl : Fin 16} {o : Nat} (h : o < 0x080) (h₁ : o ≠ 0x050) (h₂ : 0x020 < o) :
    (pgMERGE c, o) ∉ lateRegs c tl := by
  have ovf : Reg.HDR.COUNTER_OVF.off ≤ 0x020 := by decide
  have evt : Reg.HDR.EVT_PENDING.off ≤ 0x020 := by decide
  have cnt : Reg.MERGE.LATE_CNT.off = 0x050 := rfl
  have tile := tileLate_off tl
  simp only [lateRegs, List.mem_cons, Prod.mk.injEq, true_and, List.not_mem_nil, or_false]
  omega

theorem State.lateCounted_leaves {s : State} {c : Conc} {n : Nat} (h : s.stored (pgMERGE c) Reg.MERGE.LATE_CNT + n < 2 ^ 32) (tl : Fin 16) :
    let t := s.lateCounted c tl n
    t.stored (pgMERGE c) Reg.MERGE.LATE_CNT = s.stored (pgMERGE c) Reg.MERGE.LATE_CNT + n ∧
      (t.rd (pgMERGE c) Reg.HDR.EVT_PENDING.off).getLsbD 2 = true ∧
      ((s.rd (pgMERGE c) Reg.HDR.EVT_PENDING.off).getLsbD 0 = true → (t.rd (pgMERGE c) Reg.HDR.EVT_PENDING.off).getLsbD 0 = true) ∧
      s.RegsBut (fun q o => (q, o) ∈ lateRegs c tl) t ∧ s.Only 88 t := by
  have tile := tileLate_off tl
  have small : (Reg.MERGE.TILE_LATE.nth tl.val).off < 4096 := by omega
  have mem : ∀ o ∈ [(Reg.MERGE.TILE_LATE.nth tl.val).off, Reg.HDR.COUNTER_OVF.off, Reg.MERGE.LATE_CNT.off, Reg.HDR.EVT_PENDING.off],
      (pgMERGE c, o) ∈ lateRegs c tl := fun o h => List.mem_map_of_mem (f := (pgMERGE c, ·)) h
  have tileCount : s.RegsBut (fun q o => (q, o) ∈ lateRegs c tl) (s.bump (pgMERGE c) (Reg.MERGE.TILE_LATE.nth tl.val) (16 + tl.val) n) :=
    State.regsBut_bump (mem _ (by simp)) (mem _ (by simp)) small s _ n
  have count (u : State) : u.RegsBut (fun q o => (q, o) ∈ lateRegs c tl) (u.bump (pgMERGE c) Reg.MERGE.LATE_CNT 0 n) :=
    State.regsBut_bump (mem _ (by simp)) (mem _ (by simp)) (by decide) u 0 n
  have pends : (((s.bump (pgMERGE c) (Reg.MERGE.TILE_LATE.nth tl.val) (16 + tl.val) n).bump (pgMERGE c) Reg.MERGE.LATE_CNT 0 n).rd (pgMERGE c)
      Reg.HDR.EVT_PENDING.off) = s.rd (pgMERGE c) Reg.HDR.EVT_PENDING.off :=
    ((State.sameReg_bump (regKey_ne_off (by rw [tile, show Reg.HDR.EVT_PENDING.off = 0x01C from rfl]; omega)) (regKey_ne_off (by decide)) s _ n).trans
      (State.sameReg_bump (regKey_ne_off (by decide)) (regKey_ne_off (by decide)) _ 0 n)).1
  have same : (s.bump (pgMERGE c) (Reg.MERGE.TILE_LATE.nth tl.val) (16 + tl.val) n).stored (pgMERGE c) Reg.MERGE.LATE_CNT =
      s.stored (pgMERGE c) Reg.MERGE.LATE_CNT :=
    (State.sameReg_bump (regKey_ne_off (by rw [tile]; show (0x050 : Nat) ≠ _; omega)) (regKey_ne_off (by decide)) s _ n).stored
  refine ⟨?_, State.event_pends (by decide) .., fun set => State.event_keeps_bit ?_ 2, ?_, ?_⟩
  · rw [State.lateCounted, State.stored_event_ne (regKey_ne_off (by decide)),
      State.stored_bump_below (by decide) (by decide) (by rw [same]; exact h), same]
  · rw [pends]
    exact set
  · exact (tileCount.trans (count _)).trans (State.regsBut_event (mem _ (by simp)) ..)
  · exact State.event_only (State.bump_only (State.bump_only (.refl s) _ _ _ _ (by decide)) _ _ _ _ (by decide)) _ _ (by decide)

end

section

variable {s : State} {c : Conc} {tl : Fin 16} {ws : List (BitVec 52)} {n k : Nat} {rest : List PortItem}

/-- Late records of a resume are counted but for those of a port cut for the join sheaf (R122, R277). -/
def State.resumeCounted (s : State) (c : Conc) (tl : Fin 16) (n : Nat) (joins : Bool) : State :=
  if n = 0 || joins then s else s.lateCounted c tl n

theorem State.resumeCounted_leaves {joins : Bool} (h : s.stored (pgMERGE c) Reg.MERGE.LATE_CNT + n < 2 ^ 32) (tl : Fin 16) :
    let t := s.resumeCounted c tl n joins
    let late := if joins then 0 else n
    t.stored (pgMERGE c) Reg.MERGE.LATE_CNT = s.stored (pgMERGE c) Reg.MERGE.LATE_CNT + late ∧
      (late ≠ 0 → (t.rd (pgMERGE c) Reg.HDR.EVT_PENDING.off).getLsbD 2 = true) ∧
      ((s.rd (pgMERGE c) Reg.HDR.EVT_PENDING.off).getLsbD 0 = true → (t.rd (pgMERGE c) Reg.HDR.EVT_PENDING.off).getLsbD 0 = true) ∧
      s.RegsBut (fun q o => (q, o) ∈ lateRegs c tl) t ∧ s.Only 88 t := by
  intro t late
  by_cases none : (n = 0 || joins) = true
  · have zero : late = 0 := by
      rcases Bool.or_eq_true_iff.1 none with zero | joined
      · simp [late, of_decide_eq_true zero]
      · exact if_pos joined
    have same : t = s := if_pos none
    rw [same, zero]
    exact ⟨rfl, fun h => absurd rfl h, id, .refl s, .refl s⟩
  · have all : late = n := if_neg fun joined => none (by simp [joined])
    have counted : t = s.lateCounted c tl n := if_neg none
    obtain ⟨count, event, keeps, regs, parts⟩ := State.lateCounted_leaves h tl
    rw [counted, all]
    exact ⟨count, fun _ => event, keeps, regs, parts⟩

/-- A resume token's frame is present, its late records are counted. -/
theorem State.takeResume_eq {f : Nat} {g : State} {joins : Bool}
    (hg : g = ((s.ackItem tl c).launchesClosed c tl (f - 1)).bump (pgMERGE c) Reg.MERGE.RESUME_CNT 2)
    (hj : joins = (g.stored (pgSTEP c) Reg.STEP.VALID_FROM == sheafOf f && (resumedOf ws f).reason.testBit 0)) :
    s.takeResume c tl ws f = ((g.resumeKept c tl (resumedOf ws f) joins).resumeLate c tl (decide (f < (g.conc c).nextForm))).resumeCounted
      c tl (resumedOf ws f).discarded joins := by
  subst hj hg
  rfl

/-- The registers that a resume's token changes before its late records are counted. -/
theorem State.resumeCount_leaves {w : State} {p : Port} (gone : s.ItemGone w tl c p calDeadRegs)
    (h : s.stored (pgMERGE c) Reg.MERGE.RESUME_CNT < 2 ^ 32 - 1) :
    let g := w.bump (pgMERGE c) Reg.MERGE.RESUME_CNT 2
    s.ItemGone g tl c p ((pgMERGE c, Reg.MERGE.RESUME_CNT.off) :: calDeadRegs) ∧
      g.stored (pgMERGE c) Reg.MERGE.RESUME_CNT = s.stored (pgMERGE c) Reg.MERGE.RESUME_CNT + 1 := by
  have same : w.stored (pgMERGE c) Reg.MERGE.RESUME_CNT = s.stored (pgMERGE c) Reg.MERGE.RESUME_CNT :=
    gone.regs.stored (not_mem_calDeadRegs c _) (by decide)
  have room : w.stored (pgMERGE c) Reg.MERGE.RESUME_CNT + 1 < 2 ^ 32 := by omega
  refine ⟨⟨?_, fun u hu => ?_, fun d => ?_, ?_⟩, ?_⟩
  · exact (State.bump_tile ..).trans gone.tile
  · exact (State.bump_tile ..).trans (gone.tiles u hu)
  · exact (State.bump_conc ..).trans (gone.conc d)
  · refine (gone.regs.mono fun q o h => List.mem_cons_of_mem _ h).trans ?_
    rw [State.bump_eq_put room]
    exact State.regsBut_put List.mem_cons_self (by decide) ..
  · exact (State.stored_bump_below (by decide) (by decide) room 2).trans (congrArg (· + 1) same)

end

/-- Settles O39: a token leaves its port (`State.closedTaken`, `State.resumeTaken`), and what is kept of it, the tile that is behind and
the late records are updates of their own after it. -/
theorem tokensCloseFramesAndResumeTiles : Obligations.TokensCloseFramesAndResumeTiles := by
  unfold Obligations.TokensCloseFramesAndResumeTiles
  refine ⟨?_, ?_, ?_, ?_⟩
  · intro s c tl ws n rest k i on items whole
    have row := (exec_frameClosedToken on k tl).trans
      (congrArg _ ((State.closedTokenCmd_last (State.merging_of_mergeOn on) items whole).trans (s.takeToken_eq c tl ws n)))
    obtain ⟨gone, last⟩ := State.closedTaken items
    generalize (s.ackItem tl c).launchesClosed c tl n = g at row gone last
    have present : (pgMERGE c, Reg.MERGE.PRESENT.off) ∉ (pgPORTS tl, (portReg Reg.PORTS.LAST_TOKEN c).off) :: calDeadRegs := by
      simp [(pgPORTS_ne_pgMERGE tl c).symm, not_mem_calDeadRegs]
    have taken (q o : Nat) (h : (q, o) ∈ (pgPORTS tl, (portReg Reg.PORTS.LAST_TOKEN c).off) :: calDeadRegs) :
        (q, o) ∈ (pgPORTS tl, (portReg Reg.PORTS.LAST_TOKEN c).off) :: (pgMERGE c, Reg.MERGE.PRESENT.off) :: calDeadRegs := by
      rw [List.mem_cons] at h
      exact List.mem_cons.2 (h.imp_right (List.mem_cons_of_mem _))
    by_cases late : n < (s.conc c).nextForm
    · rw [gone.conc, if_pos late] at row
      refine ⟨g, row, gone.port, last, fun formed => absurd formed (Nat.not_le.2 late), fun _ => ⟨gone.conc c, ?_⟩, ?_,
        fun u hu => ⟨gone.tiles u hu, gone.rx c u⟩⟩
      · exact gone.regs.behind present tl
      · exact (gone.regs.mono taken).same
    · rw [gone.conc, if_neg late] at row
      obtain ⟨behind, rx, others, tiles, regs⟩ := g.tokenKept_leaves c tl (tokenInfo ws) n
      refine ⟨_, row, ?_, ?_, fun _ => ⟨behind, ?_⟩, fun formed => absurd formed late, ?_, fun u hu => ⟨?_, ?_⟩⟩
      · rw [State.port, tiles]
        exact gone.port
      · exact (regs.stored (by simp [pgPORTS_ne_pgMERGE]) (portReg_off_lt (by decide) c)).trans last
      · rw [rx, gone.rx, gone.regs.behind present]
      · exact ((gone.regs.mono taken).trans (regs.mono fun q o h => List.mem_cons_of_mem _ (List.mem_cons.2 (.inl (List.mem_singleton.1 h))))).same
      · exact (tiles u).trans (gone.tiles u hu)
      · exact (others u hu).trans (gone.rx c u)
  · intro s c tl ws n rest k row on part few item
    have on' := State.merging_of_mergeOn on
    have acked : exec row s = .next (s.ackWords tl c k) := by
      rcases item with ⟨items, rfl⟩ | ⟨items, rfl⟩
      · exact (exec_frameClosedToken on k tl).trans (congrArg _ (State.closedTokenCmd_partly on' items part))
      · exact (exec_resumeToken on k tl).trans (congrArg _ (State.resumeTokenCmd_partly on' items part))
    obtain ⟨own, other, parts, tiles⟩ := State.ackWords_leaves few
    exact ⟨_, acked, own, other, parts.changes (by decide), tiles⟩
  · intro s c tl ws f rest k w1 r joins late on items whole below counted
    have row := (exec_resumeToken on k tl).trans (congrArg _ (State.resumeTokenCmd_last (State.merging_of_mergeOn on) items whole))
    obtain ⟨g, hg⟩ : ∃ g, g = ((s.ackItem tl c).launchesClosed c tl (f - 1)).bump (pgMERGE c) Reg.MERGE.RESUME_CNT 2 := ⟨_, rfl⟩
    have gone := State.resumeTaken items
    have resumes : s.stored (pgMERGE c) Reg.MERGE.RESUME_CNT < 2 ^ 32 - 1 := by
      have := counted Reg.MERGE.RESUME_CNT List.mem_cons_self
      omega
    obtain ⟨gone, count⟩ := State.resumeCount_leaves gone resumes
    rw [← hg] at gone count
    have kept {q o : Nat} (h : q ≠ pgMERGE c ∨ o ≠ Reg.MERGE.RESUME_CNT.off) (h' : (q, o) ∉ calDeadRegs) :
        (q, o) ∉ (pgMERGE c, Reg.MERGE.RESUME_CNT.off) :: calDeadRegs := by
      simp only [List.mem_cons, Prod.mk.injEq, not_or]
      exact ⟨by tauto, h'⟩
    have hj : joins = (g.stored (pgSTEP c) Reg.STEP.VALID_FROM == sheafOf f && (resumedOf ws f).reason.testBit 0) := by
      rw [gone.regs.stored (kept (.inl (by cases c <;> decide)) (by cases c <;> decide)) (by decide)]
      rfl
    rw [State.takeResume_eq hg hj] at row
    change exec _ s = .next (((g.resumeKept c tl r joins).resumeLate c tl _).resumeCounted c tl r.discarded joins) at row
    have rx₁ : (g.resumeKept c tl r joins).rx c tl = { g.rx c tl with
      since := some f, left := none, resumed := if joins then (g.rx c tl).resumed else (g.rx c tl).resumed ++ [r] } := State.setRx_rx_same ..
    have other₁ (u : Fin 16) (hu : u ≠ tl) : (g.resumeKept c tl r joins).rx c u = g.rx c u := State.setRx_rx_ne hu ..
    have tile₁ (u : Fin 16) : (g.resumeKept c tl r joins).tile u = g.tile u := State.setRx_tile ..
    have regs₁ {P : Nat → Nat → Prop} : g.RegsBut P (g.resumeKept c tl r joins) := State.regsBut_setRx ..
    generalize g.resumeKept c tl r joins = x at row rx₁ other₁ tile₁ regs₁
    obtain ⟨behind, event, regs₂, parts₂⟩ := x.resumeLate_leaves c tl (decide (f < (g.conc c).nextForm))
    generalize x.resumeLate c tl (decide (f < (g.conc c).nextForm)) = v at row behind event regs₂ parts₂
    have lateCount : v.stored (pgMERGE c) Reg.MERGE.LATE_CNT = s.stored (pgMERGE c) Reg.MERGE.LATE_CNT := by
      rw [regs₂.stored (by simp; decide) (by decide), (regs₁ (P := fun _ _ => False)).stored id (by decide),
        gone.regs.stored (kept (.inr (by decide)) (not_mem_calDeadRegs c _)) (by decide)]
    obtain ⟨lates, chaff, keeps, regs₃, parts₃⟩ := State.resumeCounted_leaves (s := v) (c := c) (n := r.discarded) (joins := joins) (by rw [lateCount]; exact below _ (by simp)) tl
    have tile (u : Fin 16) := (parts₃.sameTile u).trans ((parts₂.sameTile u).trans (tile₁ u))
    have rx (u : Fin 16) : (v.resumeCounted c tl r.discarded joins).rx c u = x.rx c u :=
      congrArg (fun w : ConcSt => w.rx[u]) ((parts₃.conc c).trans (parts₂.conc c))
    have before : x.behind c tl = s.behind c tl := by
      rw [(regs₁ (P := fun _ _ => False)).behind id, gone.regs.behind (kept (.inr (by decide)) (not_mem_calDeadRegs c _))]
    have after : (v.resumeCounted c tl r.discarded joins).behind c tl = v.behind c tl :=
      regs₃.behind (not_mem_lateRegs (by decide) (by decide) (by decide)) tl
    rw [before, gone.conc] at behind event
    refine ⟨_, row, ?_, ?_, ?_, after.trans behind, lates.trans (congrArg (· + late) lateCount), chaff,
      fun formed ahead => keeps (event (decide_eq_true formed) ahead), fun u hu => ⟨?_, ?_⟩⟩
    · rw [State.port, tile]
      exact congrArg Port.items gone.port
    · rw [rx, rx₁, gone.rx]
      cases joins <;> simp
    · rw [regs₃.stored (not_mem_lateRegs (by decide) (by decide) (by decide)) (by decide), regs₂.stored (by simp; decide) (by decide),
        (regs₁ (P := fun _ _ => False)).stored id (by decide), count]
    · exact (tile u).trans (gone.tiles u hu)
    · rw [rx, other₁ u hu, gone.rx]
  · intro s c tl n on waits past below
    have due : ((s.conc c).merging && s.waitsFor c tl n && decide (n + s.fld (pgMERGE c) Reg.MERGE.HORIZON_FRAMES < s.frame)) = true := by
      rw [State.merging_of_mergeOn on, waits, decide_eq_true past]
      rfl
    have row := (exec_horizonExpiry on tl).trans (congrArg _ (if_pos due))
    have set : s.RegsBut (fun q o => (q, o) ∈ [(pgMERGE c, Reg.MERGE.PRESENT.off)]) (s.setBehind c tl true) :=
      State.regsBut_setBehind List.mem_cons_self ..
    have room : (s.setBehind c tl true).stored (pgMERGE c) Reg.MERGE.HORIZON_CNT =
        s.stored (pgMERGE c) Reg.MERGE.HORIZON_CNT := set.stored (by simp; decide) (by decide)
    rw [State.bump_eq_put (by rw [room]; show _ < 2 ^ 32; omega), room] at row
    have count : (s.setBehind c tl true).RegsBut (fun q o => (q, o) ∈ [(pgMERGE c, Reg.MERGE.HORIZON_CNT.off)])
        ((s.setBehind c tl true).put (pgMERGE c) Reg.MERGE.HORIZON_CNT (s.stored (pgMERGE c) Reg.MERGE.HORIZON_CNT + 1)) :=
      State.regsBut_put List.mem_cons_self (by decide) ..
    have event (u : State) : u.RegsBut (fun q o => (q, o) ∈ [(pgMERGE c, Reg.HDR.EVT_PENDING.off)]) (u.event (pgMERGE c) 0) :=
      State.regsBut_event List.mem_cons_self ..
    have behind (u : Fin 16) : (((s.setBehind c tl true).put (pgMERGE c) Reg.MERGE.HORIZON_CNT
        (s.stored (pgMERGE c) Reg.MERGE.HORIZON_CNT + 1)).event (pgMERGE c) 0).behind c u = (s.setBehind c tl true).behind c u :=
      ((event _).behind (by simp; decide) u).trans (count.behind (by simp; decide) u)
    have parts : s.Only 88 (((s.setBehind c tl true).put (pgMERGE c) Reg.MERGE.HORIZON_CNT
        (s.stored (pgMERGE c) Reg.MERGE.HORIZON_CNT + 1)).event (pgMERGE c) 0) :=
      State.event_only (State.put_only (State.setBehind_only (.refl s) c tl true (by decide)) _ _ _ (by decide)) _ _ (by decide)
    refine ⟨_, row, (behind tl).trans (State.behind_setBehind ..), ?_, ?_, State.event_pends (by decide) ..,
      fun u hu => (behind u).trans (State.behind_setBehind_ne hu ..), ?_, parts.changes (by decide)⟩
    · simp only [State.waitsFor, (behind tl).trans (State.behind_setBehind ..), Bool.not_true, Bool.and_false, Bool.false_and]
    · refine ((event _).stored (by simp; decide) (by decide)).trans ?_
      refine (State.stored_put_same (f := Reg.MERGE.HORIZON_CNT) (by decide) (by decide) ..).trans (Nat.mod_eq_of_lt ?_)
      show _ < 2 ^ 32
      omega
    · exact (((set.mono fun q o h => by simp_all).trans (count.mono fun q o h => by simp_all)).trans
        ((event _).mono fun q o h => by simp_all)).same

end Sys2Proof.Machine
end

section
/-!
PROOFS. The family of merge and correction: records are taken, corrected and routed (R112-R114, R119, R121, R210).
-/

namespace Sys2Proof.Machine

theorem exec_correctRecord {s : State} {c : Conc} (h : s.mergeOn c = true) (tl : Fin 16) (read : Reads) (port : EccRead) (queued : Bool) :
    exec (.correctRecord c tl read port queued) s = .next (s.correctRecordCmd c tl read port queued) :=
  congrArg Host.Outcome.next (if_pos h)

/-! ### The corrected record (R112-R114) -/

/-- A record meets at most two limits (R113). -/
theorem correctRecord_limits (e : BitVec 128) (valid : Bool) (tl : Fin 16) (r : BitVec 52) : (correctRecord e valid tl r).2 ≤ 2 := by
  unfold correctRecord
  split
  · exact Nat.add_le_add (Bool.toNat_le _) (Bool.toNat_le _)
  · exact Nat.zero_le 2

section

variable {s : State} {c : Conc} {tl : Fin 16} {r : BitVec 52} {f : Nat} {rest : List PortItem}

/-- A channel's entry that the decoders deliver leaves nothing. -/
theorem State.readEntry_delivered (s : State) (c : Conc) (chan : Nat) : s.readEntry c chan [] = s :=
  State.each_keeps (P := fun t => t = s) (fun _ _ _ h => h) rfl

theorem State.readPort_delivered (s : State) (c : Conc) (tl : Fin 16) (queued : Bool) : s.readPort c tl .clean queued = s := by
  cases queued <;> rfl

/-- The head of a tile's port is a record: it is taken, its page and the concentrator's wake. -/
def State.recordAcked (s : State) (c : Conc) (tl : Fin 16) : State := ((s.ackItem tl c).wake pgMOD).wake (pgMERGE c)

/-- A calibration record is captured (R210). -/
def State.capturedIf (s : State) (c : Conc) (calibration : Bool) (k : Capture) : State := if calibration then s.capture c k else s

/-- The counts of a correction (R110, R113). -/
def State.correctionCounted (s : State) (c : Conc) (uncorrected limits : Nat) : State :=
  (s.bump (pgCORR c) Reg.CORR.UNCORR_CNT 0 uncorrected).bump (pgCORR c) Reg.CORR.CLAMP_CNT 1 limits

/-- What a record is captured as. -/
def captureOf (tl : Fin 16) (r : BitVec 52) (f : Nat) : Capture :=
  { chan := tl.val * 4096 + recChan r, tif := recTif r, tot := recTot r, flags := recFlags r, frame := f }

/-- CORRECT_RECORD of a delivered record whose entry is delivered. -/
theorem State.correctRecordCmd_eq {g : State} {v : Bool} {x : BitVec 56 × Nat} (on : (s.conc c).merging = true)
    (items : (s.port tl c).items = .hit r f :: rest) (room : recType r ≠ 3 ∨ s.wbufFull c true = false) (queued : Bool)
    (hg : g = (s.recordAcked c tl).capturedIf c (decide (recType r = 2)) (captureOf tl r f))
    (hv : v = (g.conc c).entryApplied (tl.val * 4096 + recChan r) f)
    (hx : x = correctRecord ((g.conc c).entry (tl.val * 4096 + recChan r) f) v tl r) :
    s.correctRecordCmd c tl [] .clean queued = (g.correctionCounted c (!v).toNat x.2).routeRecord c tl f (recType r) x.1 := by
  have takes : ¬(recType r = 3 && s.wbufFull c true) = true := by
    rcases room with other | space
    · simp [other]
    · simp [space]
  subst hx hv hg
  simp only [State.correctRecordCmd, items, on, if_true, if_neg takes, State.readPort_delivered, reduceCtorEq, if_false]
  have read : (((s.ackItem tl c).wake pgMOD).wake (pgMERGE c)).readEntry c (tl.val * 4096 + recChan r) [] = s.recordAcked c tl :=
    State.readEntry_delivered ..
  simp only [State.takeRecord, read]
  by_cases cal : recType r = 2
  · simp only [State.capturedIf, decide_eq_true cal, if_pos cal, if_true]
    rfl
  · simp only [State.capturedIf, decide_eq_false cal, if_neg cal, Bool.false_eq_true, if_false]
    rfl

theorem State.recordAcked_leaves (items : (s.port tl c).items = .hit r f :: rest) :
    s.ItemGone (s.recordAcked c tl) tl c { s.port tl c with items := rest, acked := true }
      [(pgPORTS tl, (portReg Reg.PORTS.PSTAT_FILL c).off), (pgMOD, Reg.HDR.PWR_STATE_STATE.off), (pgMERGE c, Reg.HDR.PWR_STATE_STATE.off)] ∧
      (s.recordAcked c tl).frame = s.frame := by
  have eq : s.ackItem tl c = (s.setPort tl c { s.port tl c with items := rest, acked := true }).put (pgPORTS tl)
      (portReg Reg.PORTS.PSTAT_FILL c) (s.stored (pgPORTS tl) (portReg Reg.PORTS.PSTAT_FILL c) - 1) := by
    simp only [State.ackItem, items]
  have parts : (s.ackItem tl c).Only 24 (s.recordAcked c tl) :=
    State.wake_only (State.wake_only (.refl _) _ (by decide)) _ (by decide)
  refine ⟨⟨?_, fun u hu => ?_, fun d => ?_, ?_⟩, ?_⟩
  · rw [parts.sameTile, eq, State.put_tile, State.tile_setPort]
  · rw [parts.sameTile, eq, State.put_tile]
    exact State.setTile_tile_ne hu ..
  · rw [parts.conc, eq, State.put_conc, State.setPort_conc]
  · refine State.RegsBut.trans ?_ ((State.regsBut_wake (by simp) (s.ackItem tl c)).trans (State.regsBut_wake (by simp) _))
    rw [eq]
    exact (State.regsBut_setPort ..).trans (State.regsBut_put List.mem_cons_self (portReg_off_lt (by decide) c) ..)
  · rw [parts.frame rfl, eq, State.put_frame, State.setPort_frame]

theorem State.capturedIf_leaves (s : State) (c : Conc) (cal : Bool) (k : Capture) :
    s.ConcMoves (s.capturedIf c cal k) c
        { s.conc c with captured := if cal then (s.conc c).captured ++ [k] else (s.conc c).captured } ∧
      (∀ u, (s.capturedIf c cal k).tile u = s.tile u) ∧ s.RegsBut (fun q o => (q, o) ∈ calDeadRegs) (s.capturedIf c cal k) ∧
      (s.capturedIf c cal k).frame = s.frame := by
  cases cal with
  | false => exact ⟨.refl s c, fun _ => rfl, .refl s, rfl⟩
  | true =>
    obtain ⟨g, hg⟩ : ∃ g, g = if c = s.histConc then s.launchCaptured k.chan k.tot else s := ⟨_, rfl⟩
    have eq : s.capturedIf c true k = g.setConc c { g.conc c with captured := (g.conc c).captured ++ [k] } := by
      rw [hg]
      rfl
    have parts : s.Only 8388632 g := by
      rw [hg]
      exact .ite (State.launchCaptured_only (.refl s) _ _ (by decide)) (.refl s)
    have regs : s.RegsBut (fun q o => (q, o) ∈ calDeadRegs) g := by
      rw [hg]
      refine .ite ?_ (.refl s)
      unfold State.launchCaptured
      split
      · exact (State.RegsBut.of rfl rfl : s.RegsBut _ (s.dropLaunches _)).trans (State.regsBut_addCalDead (fun _ _ h => h) _ _ _)
      · exact .refl s
    rw [eq]
    refine ⟨?_, fun u => ?_, regs.trans (State.regsBut_setConc ..), ?_⟩
    · rw [parts.conc c]
      exact ⟨State.setConc_conc_same .., (State.setConc_conc_ne (conc_other_ne c) ..).trans (parts.conc _)⟩
    · exact (State.setConc_tile ..).trans (parts.sameTile u)
    · exact (State.setConc_frame ..).trans (parts.frame rfl)

end

theorem pgPORTS_ne_pgCORR (tl : Fin 16) (c : Conc) : pgPORTS tl ≠ pgCORR c := by
  cases c <;> revert tl <;> decide

section

variable {s : State} {c : Conc} {tl : Fin 16} {r : BitVec 52} {f : Nat} {rest : List PortItem}

theorem State.correctionCounted_leaves {u l : Nat} (hu : u ≤ 2) (hl : l ≤ 2)
    (h : s.below (pgCORR c) [Reg.CORR.UNCORR_CNT, Reg.CORR.CLAMP_CNT] 2) :
    let t := s.correctionCounted c u l
    t.stored (pgCORR c) Reg.CORR.UNCORR_CNT = s.stored (pgCORR c) Reg.CORR.UNCORR_CNT + u ∧
      t.stored (pgCORR c) Reg.CORR.CLAMP_CNT = s.stored (pgCORR c) Reg.CORR.CLAMP_CNT + l := by
  have uncorr := h Reg.CORR.UNCORR_CNT (by simp)
  have clamp := h Reg.CORR.CLAMP_CNT (by simp)
  have first : (s.bump (pgCORR c) Reg.CORR.UNCORR_CNT 0 u).stored (pgCORR c) Reg.CORR.CLAMP_CNT =
      s.stored (pgCORR c) Reg.CORR.CLAMP_CNT :=
    (State.sameReg_bump (regKey_ne_off (by decide)) (regKey_ne_off (by decide)) s 0 u).stored
  constructor
  · refine (State.sameReg_bump (o := Reg.CORR.UNCORR_CNT.off) (regKey_ne_off (by decide)) (regKey_ne_off (by decide)) _ 1 l).stored.trans ?_
    exact State.stored_bump_below (by decide) (by decide) (by show _ < 2 ^ 32; omega) 0
  · rw [State.correctionCounted, State.stored_bump_below (by decide) (by decide) (by rw [first]; show _ < 2 ^ 32; omega), first]

theorem State.regsBut_correctionCounted (s : State) (c : Conc) (u l : Nat) :
    s.RegsBut (fun q _ => q ∈ [pgCORR c]) (s.correctionCounted c u l) :=
  (State.regsBut_bump (f := Reg.CORR.UNCORR_CNT) List.mem_cons_self List.mem_cons_self (by decide) s 0 u).trans
    (State.regsBut_bump (f := Reg.CORR.CLAMP_CNT) List.mem_cons_self List.mem_cons_self (by decide) _ 1 l)

theorem State.correctionCounted_only (s : State) (c : Conc) (u l : Nat) : s.Only 24 (s.correctionCounted c u l) :=
  State.bump_only (State.bump_only (.refl s) _ _ _ _ (by decide)) _ _ _ _ (by decide)

/-- The other concentrator counts nothing of late records. -/
theorem State.countLate_other (s : State) (c : Conc) (tl : Fin 16) (n : Nat) : (s.countLate c tl n).conc c.other = s.conc c.other := by
  unfold State.countLate
  split
  · rfl
  · rw [State.setConc_conc_ne (conc_other_ne c), State.event_conc, State.bump_conc, State.bump_conc]

theorem State.routeRecord_late {ty : Nat} {x : BitVec 56} (h : f < (s.conc c).nextForm) :
    s.routeRecord c tl f ty x = s.countLate c tl 1 := if_pos h

theorem State.routeRecord_stream {ty : Nat} {x : BitVec 56} (h : (s.conc c).nextForm ≤ f) (hty : ty ≠ 3) :
    s.routeRecord c tl f ty x = s.setRx c tl { s.rx c tl with recs := addAt f x (s.rx c tl).recs } :=
  (if_neg (Nat.not_lt.2 h)).trans (if_neg hty)

theorem State.routeRecord_shadow {x : BitVec 56} (h : (s.conc c).nextForm ≤ f) :
    s.routeRecord c tl f 3 x = s.setRx c tl { s.rx c tl with
      shadow := addAt f (BitVec.ofNat 56 (x.toNat % 2 ^ 54 + 2 ^ 54) &&& ~~~2, s.frame) (s.rx c tl).shadow } :=
  (if_neg (Nat.not_lt.2 h)).trans (if_pos rfl)

/-- Where a stream record goes: to its frame's records, or to the late ones. -/
theorem State.routeRecord_leaves {ty : Nat} {x : BitVec 56} (hty : ty ≠ 3) (below : s.below (pgMERGE c) [Reg.MERGE.LATE_CNT] 1) :
    let t := s.routeRecord c tl f ty x
    (∀ u, t.tile u = s.tile u) ∧ t.conc c.other = s.conc c.other ∧ (t.conc c).captured = (s.conc c).captured ∧
      s.RegsBut (fun q _ => q ∈ [pgMERGE c]) t ∧ (∀ u, u ≠ tl → t.rx c u = s.rx c u) ∧
      ((s.conc c).nextForm ≤ f → mapGetD [] f (t.rx c tl).recs = mapGetD [] f (s.rx c tl).recs ++ [x] ∧
        t.stored (pgMERGE c) Reg.MERGE.LATE_CNT = s.stored (pgMERGE c) Reg.MERGE.LATE_CNT) ∧
      (f < (s.conc c).nextForm → t.rx c tl = s.rx c tl ∧ (t.conc c).late = (s.conc c).late + 1 ∧
        t.stored (pgMERGE c) Reg.MERGE.LATE_CNT = s.stored (pgMERGE c) Reg.MERGE.LATE_CNT + 1) := by
  by_cases late : f < (s.conc c).nextForm
  · have room := below Reg.MERGE.LATE_CNT (by simp)
    obtain ⟨count, conc, -, regs, parts⟩ := s.countLate_leaves c tl
    have rx (u : Fin 16) : (s.countLate c tl 1).rx c u = s.rx c u := by
      rw [State.rx, conc]
      rfl
    rw [State.routeRecord_late late]
    exact ⟨parts.sameTile, s.countLate_other c tl 1, by rw [conc], regs, fun u _ => rx u,
      fun unformed => absurd late (Nat.not_lt.2 unformed), fun _ => ⟨rx tl, by rw [conc], count (by omega)⟩⟩
  · rw [State.routeRecord_stream (Nat.not_lt.1 late) hty]
    refine ⟨fun u => State.setRx_tile .., State.setConc_conc_ne (conc_other_ne c) .., ?_, State.regsBut_setRx ..,
      fun u hu => State.setRx_rx_ne hu .., fun _ => ⟨?_, State.setRx_stored ..⟩, fun formed => absurd formed late⟩
    · rw [State.setRx, State.setConc_conc_same]
    · rw [State.setRx_rx_same]
      exact mapGetD_mapPut_same ..

/-- The registers that taking a record changes. -/
def recordRegs (c : Conc) (tl : Fin 16) : List (Nat × Nat) :=
  (pgPORTS tl, (portReg Reg.PORTS.PSTAT_FILL c).off) :: (pgMOD, Reg.HDR.PWR_STATE_STATE.off) ::
    (pgMERGE c, Reg.HDR.PWR_STATE_STATE.off) :: calDeadRegs

/-- A record that has been taken from the head of its port and, of a calibration, captured. -/
structure State.RecordTaken (s t : State) (tl : Fin 16) (c : Conc) (p : Port) (l : List Capture) : Prop where
  tile : t.tile tl = (s.tile tl).setPort c p
  tiles : ∀ u, u ≠ tl → t.tile u = s.tile u
  conc : s.ConcMoves t c { s.conc c with captured := l }
  frame : t.frame = s.frame
  regs : s.RegsBut (fun q o => (q, o) ∈ recordRegs c tl) t

/-- CORRECT_RECORD as its three steps: the record is taken, its correction counted, and it is routed. -/
theorem State.correctRecordCmd_steps (on : (s.conc c).merging = true) (items : (s.port tl c).items = .hit r f :: rest)
    (room : recType r ≠ 3 ∨ s.wbufFull c true = false) (queued : Bool) :
    let valid := (s.conc c).entryApplied (tl.val * 4096 + recChan r) f
    let x := correctRecord ((s.conc c).entry (tl.val * 4096 + recChan r) f) valid tl r
    ∃ g, s.correctRecordCmd c tl [] .clean queued = (g.correctionCounted c (!valid).toNat x.2).routeRecord c tl f (recType r) x.1 ∧
      s.RecordTaken g tl c { s.port tl c with items := rest, acked := true }
        (if recType r = 2 then (s.conc c).captured ++ [captureOf tl r f] else (s.conc c).captured) := by
  intro valid x
  obtain ⟨gone, frame⟩ := State.recordAcked_leaves items
  obtain ⟨moves, tiles, dead, frame'⟩ := (s.recordAcked c tl).capturedIf_leaves c (decide (recType r = 2)) (captureOf tl r f)
  obtain ⟨g, hg⟩ : ∃ g, g = (s.recordAcked c tl).capturedIf c (decide (recType r = 2)) (captureOf tl r f) := ⟨_, rfl⟩
  rw [gone.conc, ← hg] at moves
  rw [← hg] at tiles dead frame'
  simp only [decide_eq_true_eq] at moves
  refine ⟨g, State.correctRecordCmd_eq on items room queued hg ?_ ?_, ⟨(tiles tl).trans gone.tile,
    fun u hu => (tiles u).trans (gone.tiles u hu), ⟨moves.own, moves.other.trans (gone.conc _)⟩, frame'.trans frame, ?_⟩⟩
  · rw [moves.own]
    rfl
  · rw [moves.own]
    rfl
  · refine (gone.regs.mono fun q o h => ?_).trans (dead.mono fun q o h => ?_)
    · exact List.mem_append_left calDeadRegs h
    · exact List.mem_append_right [_, _, _] h

end

theorem not_mem_recordRegs_corr (c : Conc) (tl : Fin 16) (o : Nat) : (pgCORR c, o) ∉ recordRegs c tl := by
  have mod : pgCORR c ≠ pgMOD := by cases c <;> decide
  have cals : pgCORR c ≠ pgCALS := by cases c <;> decide
  have merge : pgCORR c ≠ pgMERGE c := by cases c <;> decide
  simp [recordRegs, calDeadRegs, (pgPORTS_ne_pgCORR tl c).symm, mod, cals, merge]

theorem not_mem_recordRegs_late (c : Conc) (tl : Fin 16) : (pgMERGE c, Reg.MERGE.LATE_CNT.off) ∉ recordRegs c tl := by
  have mod : pgMERGE c ≠ pgMOD := by cases c <;> decide
  have off : Reg.MERGE.LATE_CNT.off ≠ Reg.HDR.PWR_STATE_STATE.off := by decide
  simp [recordRegs, calDeadRegs, (pgPORTS_ne_pgMERGE tl c).symm, mod, pgMERGE_ne_pgCALS, off]

theorem recordRegs_pages {c : Conc} {tl : Fin 16} {q o : Nat} (h : (q, o) ∈ recordRegs c tl) :
    q ∈ [pgMOD, pgPORTS tl, pgMERGE c, pgCORR c, pgCALS] := by
  simp only [recordRegs, calDeadRegs, List.mem_cons, Prod.mk.injEq, List.not_mem_nil, or_false] at h ⊢
  tauto

/-- Settles O38: CORRECT_RECORD takes the record from its port, counts its correction and routes it
(`State.correctRecordCmd_steps`); each step changes its own part. -/
theorem recordsAreCorrected : Obligations.RecordsAreCorrected := by
  unfold Obligations.RecordsAreCorrected
  constructor
  · intro s c tl r f rest queued chan valid x on items kind below lates
    have notShadow : recType r ≠ 3 := by omega
    obtain ⟨g, steps, taken⟩ := State.correctRecordCmd_steps (State.merging_of_mergeOn on) items (.inl notShadow) queued
    have row := (exec_correctRecord on tl [] .clean queued).trans (congrArg _ steps)
    have limits : x.2 ≤ 2 := correctRecord_limits ..
    have fields (f : FieldRef) (h : f.off = Reg.CORR.UNCORR_CNT.off ∨ f.off = Reg.CORR.CLAMP_CNT.off) :
        g.stored (pgCORR c) f = s.stored (pgCORR c) f :=
      taken.regs.stored (fun m => not_mem_recordRegs_corr c tl _ m) (by rcases h with h | h <;> rw [h] <;> decide)
    obtain ⟨uncorr, clamp⟩ := State.correctionCounted_leaves (s := g) (c := c) (le_trans (Bool.toNat_le (!valid)) (by decide)) limits
      fun f hf => by
        rw [fields f (by simp at hf; rcases hf with rfl | rfl <;> simp)]
        exact below f hf
    rw [fields _ (.inl rfl)] at uncorr
    rw [fields _ (.inr rfl)] at clamp
    have parts := g.correctionCounted_only c (!valid).toNat x.2
    have counted := g.regsBut_correctionCounted c (!valid).toNat x.2
    generalize g.correctionCounted c (!valid).toNat x.2 = w at row uncorr clamp parts counted
    have conc := (parts.conc c).trans taken.conc.own
    have other := (parts.conc c.other).trans taken.conc.other
    have rx (u : Fin 16) : w.rx c u = s.rx c u := by
      rw [State.rx, conc]
      rfl
    have late : w.stored (pgMERGE c) Reg.MERGE.LATE_CNT = s.stored (pgMERGE c) Reg.MERGE.LATE_CNT := by
      rw [counted.stored (by cases c <;> decide) (by decide), taken.regs.stored (not_mem_recordRegs_late c tl) (by decide)]
    obtain ⟨tiles, other', captured, regs, others, joins, lateOnes⟩ := State.routeRecord_leaves (s := w) (c := c) (tl := tl) (f := f)
      (x := x.1) notShadow fun f hf => by
        rw [List.mem_singleton.1 hf, late]
        exact lates _ List.mem_cons_self
    rw [rx, late, conc] at joins lateOnes
    rw [conc] at captured
    have pages : s.RegsBut (fun q _ => q ∈ [pgMOD, pgPORTS tl, pgMERGE c, pgCORR c, pgCALS]) (w.routeRecord c tl f (recType r) x.1) :=
      ((taken.regs.mono fun q o h => recordRegs_pages h).trans (counted.mono fun q o h => by simp_all)).trans
        (regs.mono fun q o h => by simp_all)
    refine ⟨_, row, ?_, ?_, ?_, ?_, joins, lateOnes, fun stream => ?_, fun calibration => ?_, other'.trans other, pages.same,
      fun u hu => ⟨?_, ?_⟩⟩
    · rw [State.port, tiles, parts.sameTile, taken.tile, Tile.setPort_port_same]
    · rw [State.port, tiles, parts.sameTile, taken.tile, Tile.setPort_port_ne (conc_other_ne c), State.port]
    · rw [regs.stored (by cases c <;> decide) (by decide), uncorr]
    · rw [regs.stored (by cases c <;> decide) (by decide), clamp]
    · rw [captured, if_neg (by omega)]
    · rw [captured, if_pos calibration]
      rfl
    · rw [tiles, parts.sameTile, taken.tiles u hu]
    · rw [others u hu, rx]
  · intro s c tl r f rest queued chan x on items kind space unformed
    obtain ⟨g, steps, taken⟩ := State.correctRecordCmd_steps (State.merging_of_mergeOn on) items (.inr space) queued
    have parts := g.correctionCounted_only c (!(s.conc c).entryApplied chan f).toNat x.2
    have conc := (parts.conc c).trans taken.conc.own
    have rx : (g.correctionCounted c (!(s.conc c).entryApplied chan f).toNat x.2).rx c tl = s.rx c tl := by
      rw [State.rx, conc]
      rfl
    have row := (exec_correctRecord on tl [] .clean queued).trans (congrArg _ steps)
    rw [kind, State.routeRecord_shadow (by rw [conc]; exact unformed)] at row
    refine ⟨_, row, ?_, ?_⟩
    · rw [State.setRx_port, State.port, parts.sameTile, taken.tile, Tile.setPort_port_same]
    · rw [State.setRx_rx_same, rx, parts.frame rfl, taken.frame]
      rfl

end Sys2Proof.Machine
end

section
/-!
PROOFS. The family of merge and correction: what a sheaf is formed of, and what is written of it (R118, R119, R124, R288, R291).
-/

namespace Sys2Proof.Machine

/-! ### Writing to the stack (R287-R292, R296, R300) -/

/-- Of a concentrator nothing differs but what it keeps of its stack and of its tiles. -/
def ConcSt.StackOnly (v w : ConcSt) : Prop :=
  ∃ dram poison mc extents rx, w = { v with dram := dram, poison := poison, mc := mc, extents := extents, rx := rx }

theorem ConcSt.StackOnly.refl (v : ConcSt) : v.StackOnly v := ⟨_, _, _, _, _, rfl⟩

theorem ConcSt.StackOnly.trans {u v w : ConcSt} (h : u.StackOnly v) (k : v.StackOnly w) : u.StackOnly w := by
  obtain ⟨_, _, _, _, _, rfl⟩ := h
  obtain ⟨_, _, _, _, _, rfl⟩ := k
  exact ⟨_, _, _, _, _, rfl⟩

/-- Concentrator `c` has written to its stack, and only the registers of its memory controller differ. -/
structure State.StackWritten (s t : State) (c : Conc) : Prop where
  conc : (s.conc c).StackOnly (t.conc c)
  other : t.conc c.other = s.conc c.other
  regs : s.RegsBut (fun q _ => q ∈ [pgDRAM c]) t

section

variable {s t u : State} {c : Conc}

theorem State.StackWritten.refl (s : State) (c : Conc) : s.StackWritten s c := ⟨.refl _, rfl, .refl s⟩

theorem State.StackWritten.trans (h : s.StackWritten t c) (k : t.StackWritten u c) : s.StackWritten u c :=
  ⟨h.conc.trans k.conc, k.other.trans h.other, h.regs.trans k.regs⟩

theorem State.StackWritten.ite {p : Prop} [Decidable p] (h : s.StackWritten t c) (k : s.StackWritten u c) :
    s.StackWritten (if p then t else u) c := by split <;> assumption

theorem State.stackWritten_setConc {v : ConcSt} (h : (s.conc c).StackOnly v) : s.StackWritten (s.setConc c v) c :=
  ⟨by rw [State.setConc_conc_same]; exact h, State.setConc_conc_ne (conc_other_ne c) .., State.regsBut_setConc ..⟩

theorem State.stackWritten_setRx (s : State) (c : Conc) (tl : Fin 16) (x : Rx) : s.StackWritten (s.setRx c tl x) c :=
  State.stackWritten_setConc ⟨_, _, _, _, _, rfl⟩

/-- Opening the pages of units changes the memory controller alone. -/
theorem ConcSt.foldl_openPage (shadow : Bool) (units : List Nat) (v : ConcSt) :
    ∃ mc, units.foldl (fun cs u => cs.openPage shadow u) v = { v with mc := mc } := by
  induction units generalizing v with
  | nil => exact ⟨_, rfl⟩
  | cons u us ih => exact ih (v.openPage shadow u)

theorem State.regsBut_showWbuf (s : State) (c : Conc) : s.RegsBut (fun q _ => q ∈ [pgDRAM c]) (s.showWbuf c) := by
  unfold State.showWbuf
  extract_lets m kib u
  have levels : s.RegsBut (fun q _ => q ∈ [pgDRAM c]) u :=
    (State.regsBut_put (f := Reg.DRAM.WBUF_R_KIB) List.mem_cons_self (by decide) s _).trans
      (State.regsBut_put (f := Reg.DRAM.WBUF_S_KIB) List.mem_cons_self (by decide) _ _)
  have peaks : u.RegsBut (fun q _ => q ∈ [pgDRAM c]) (u.peak (pgDRAM c) Reg.DRAM.WBUF_PEAK_R_KIB (kib (m.wbuf false))) :=
    .ite (State.regsBut_put List.mem_cons_self (by decide) ..) (.refl u)
  exact (levels.trans peaks).trans (.ite (State.regsBut_put List.mem_cons_self (by decide) ..) (.refl _))

/-- Units that are issued, or wait, change the memory controller alone. -/
theorem State.issueWrites_moves (s : State) (c : Conc) (shadow : Bool) (units : List Nat) :
    (∃ mc, s.ConcMoves (s.issueWrites c shadow units) c { s.conc c with mc := mc }) ∧
      s.RegsBut (fun q _ => q ∈ [pgDRAM c]) (s.issueWrites c shadow units) := by
  unfold State.issueWrites
  extract_lets cs
  split
  · refine ⟨⟨{ cs.mc with buffered := cs.mc.buffered ++ units.map (fun u => (shadow, u)) },
      (State.concMoves_setConc ..).then fun d => ?_⟩, (State.regsBut_setConc ..).trans (State.regsBut_showWbuf ..)⟩
    exact (State.showWbuf_only (L := 24) (.refl _) c (by decide)).conc d
  · obtain ⟨mc, opened⟩ := ConcSt.foldl_openPage shadow units cs
    rw [opened]
    exact ⟨⟨mc, State.concMoves_setConc ..⟩, State.regsBut_setConc ..⟩

theorem State.stackWritten_issueWrites (s : State) (c : Conc) (shadow : Bool) (units : List Nat) :
    s.StackWritten (s.issueWrites c shadow units) c := by
  obtain ⟨⟨mc, moves⟩, regs⟩ := s.issueWrites_moves c shadow units
  exact ⟨⟨_, _, _, _, _, moves.own⟩, moves.other, regs⟩

theorem ConcSt.stackOnly_foldl {α : Type} {l : List α} {f : ConcSt → α → ConcSt} (h : ∀ (v : ConcSt) (a : α), v.StackOnly (f v a)) (v : ConcSt) :
    v.StackOnly (l.foldl f v) := by
  induction l generalizing v with
  | nil => exact .refl v
  | cons a l ih => exact (h v a).trans (ih (f v a))

theorem ConcSt.stackOnly_putU (v : ConcSt) (shadow : Bool) (unit : Nat) (x : BitVec 256) : v.StackOnly (v.putU shadow unit x) :=
  ⟨_, _, _, _, _, rfl⟩

theorem State.stackWritten_writeExtent (s : State) (c : Conc) (tl : Fin 16) (e : Extent) : s.StackWritten (s.writeExtent c tl e) c := by
  unfold State.writeExtent
  extract_lets n cs base cs' u
  have units : (s.conc c).StackOnly cs' :=
    (ConcSt.stackOnly_putU cs true base _).trans (ConcSt.stackOnly_foldl (fun v i => v.stackOnly_putU true _ _) _)
  have allocated : (s.conc c).StackOnly { cs' with extents := cs'.extents + 1 } := units.trans ⟨_, _, _, _, _, rfl⟩
  exact ((State.stackWritten_setConc allocated).trans (State.stackWritten_issueWrites ..)).trans (State.stackWritten_setRx ..)

theorem State.stackWritten_openExtent (s : State) (c : Conc) (tl : Fin 16) : s.StackWritten (s.openExtent c tl).2 c := by
  unfold State.openExtent
  split
  · exact .refl s c
  · exact (State.stackWritten_setConc ⟨_, _, _, _, _, rfl⟩).trans (State.stackWritten_setRx ..)

theorem State.stackWritten_appendShadow (s : State) (c : Conc) (tl : Fin 16) (n : Nat) (r : BitVec 56) (arrived : Nat) :
    s.StackWritten (s.appendShadow c tl n r arrived) c := by
  have opened := s.stackWritten_openExtent c tl
  unfold State.appendShadow
  generalize s.openExtent c tl = opening at opened
  obtain ⟨e, u⟩ := opening
  have kept (x : Rx) : s.StackWritten (u.setRx c tl x) c := opened.trans (State.stackWritten_setRx ..)
  exact .ite ((kept _).trans (State.stackWritten_writeExtent ..)) (kept _)

theorem State.stackWritten_each {α : Type} {l : List α} {f : State → α → State} (h : ∀ (v : State) (a : α), v.StackWritten (f v a) c) (s : State) :
    s.StackWritten (s.each l f) c := State.each_keeps (P := fun t => s.StackWritten t c) (fun t a _ k => k.trans (h t a)) (.refl s c)

theorem State.stackWritten_appendShadows (s : State) (c : Conc) (tl : Fin 16) (n : Nat) :
    s.StackWritten (s.appendShadows c tl n).2 c := by
  unfold State.appendShadows
  split
  · exact .refl s c
  · exact (s.stackWritten_openExtent c tl).trans (State.stackWritten_each (fun (v : State) (x : BitVec 56 × Nat) => v.stackWritten_appendShadow c tl n x.1 x.2) _)

theorem State.stackWritten_writeShadow (s : State) (c : Conc) (n : Nat) (tl : Fin 16) (present : Bool) :
    s.StackWritten (s.writeShadow c n tl present).2 c :=
  ((s.stackWritten_appendShadows c tl n).trans (State.stackWritten_setConc (ConcSt.stackOnly_putU ..))).trans
    (State.stackWritten_issueWrites ..)

theorem State.stackWritten_writeShadows (s : State) (c : Conc) (n : Nat) (present : Fin 16 → Bool) :
    s.StackWritten (s.writeShadows c n present).2 c := by
  unfold State.writeShadows
  generalize (none : Option Nat) = first
  induction allTiles generalizing s first with
  | nil => exact .refl s c
  | cons tl l ih => exact (s.stackWritten_writeShadow c n tl (present tl)).trans (ih ..)

end

/-! ### What a sheaf is formed of (R118, R119, R124) -/

/-- Only what concentrator `c` holds of its tiles differs, and nothing of what sheaf n is formed of. -/
structure State.SheafSame (s u : State) (c : Conc) (n : Nat) : Prop where
  conc : ∃ v, u = s.setConc c { s.conc c with rx := v }
  tokens : ∀ tl, mapFind n (u.rx c tl).tokens = mapFind n (s.rx c tl).tokens
  resumed : ∀ tl, (u.rx c tl).resumed = (s.rx c tl).resumed
  recs : ∀ tl, s.inSheaf c n tl = true → mapGetD [] n (u.rx c tl).recs = mapGetD [] n (s.rx c tl).recs

section

variable {s u w : State} {c : Conc} {n : Nat}

theorem State.SheafSame.refl (s : State) (c : Conc) (n : Nat) : s.SheafSame s c n :=
  ⟨⟨(s.conc c).rx, by cases c <;> rfl⟩, fun _ => rfl, fun _ => rfl, fun _ _ => rfl⟩

theorem State.SheafSame.inSheaf (h : s.SheafSame u c n) (tl : Fin 16) : u.inSheaf c n tl = s.inSheaf c n tl :=
  congrArg Option.isSome (h.tokens tl)

/-- The tile's records are replaced, those of frame n but where the tile is not in its sheaf. -/
theorem State.SheafSame.setRx (h : s.SheafSame u c n) (tl : Fin 16) (x : Rx) (tokens : x.tokens = (u.rx c tl).tokens)
    (resumed : x.resumed = (u.rx c tl).resumed) (recs : u.inSheaf c n tl = true → x.recs = (u.rx c tl).recs) :
    s.SheafSame (u.setRx c tl x) c n := by
  have own : (u.setRx c tl x).rx c tl = x := State.setRx_rx_same ..
  have other (t : Fin 16) (ht : t ≠ tl) : (u.setRx c tl x).rx c t = u.rx c t := State.setRx_rx_ne ht ..
  obtain ⟨v, hv⟩ := h.conc
  refine ⟨⟨(u.conc c).rx.set tl x, ?_⟩, fun t => ?_, fun t => ?_, fun t ht => ?_⟩
  · rw [hv]
    cases c <;> rfl
  · by_cases same : t = tl
    · rw [same, own, tokens, h.tokens]
    · rw [other t same, h.tokens]
  · by_cases same : t = tl
    · rw [same, own, resumed, h.resumed]
    · rw [other t same, h.resumed]
  · by_cases same : t = tl
    · subst same
      rw [own, recs ((h.inSheaf t).trans ht), h.recs t ht]
    · rw [other t same, h.recs t ht]

theorem State.SheafSame.presence (h : s.SheafSame u c n) : u.presence c n = s.presence c n := by
  simp only [State.presence, h.inSheaf]

theorem State.SheafSame.sumTokens (h : s.SheafSame u c n) (f : TokenInfo → Nat) : u.sumTokens c n f = s.sumTokens c n f := by
  simp only [State.sumTokens, h.tokens]

theorem State.SheafSame.resumesOf (h : s.SheafSame u c n) : u.resumesOf c n = s.resumesOf c n := by
  simp only [State.resumesOf, h.inSheaf, h.resumed]

theorem State.SheafSame.recordsOf (h : s.SheafSame u c n) : u.recordsOf c n = s.recordsOf c n := by
  have each (tl : Fin 16) : (if u.inSheaf c n tl then mapGetD [] n (u.rx c tl).recs else []) =
      if s.inSheaf c n tl then mapGetD [] n (s.rx c tl).recs else [] := by
    rw [h.inSheaf]
    split
    · exact h.recs tl ‹_›
    · rfl
  simp only [State.recordsOf, each]

theorem State.SheafSame.deadOf (h : s.SheafSame u c n) (drop : Bool) : u.deadOf c n drop = s.deadOf c n drop := by
  simp only [State.deadOf, h.sumTokens]

theorem State.SheafSame.summDue (h : s.SheafSame u c n) : u.summDue c n = s.summDue c n := by
  obtain ⟨v, rfl⟩ := h.conc
  cases c <;> rfl

theorem State.SheafSame.rimshotDead (h : s.SheafSame u c n) (dead : Nat) (g : Trigger) :
    u.rimshotDead c n dead g = s.rimshotDead c n dead g := by
  obtain ⟨v, rfl⟩ := h.conc
  cases c <;> rfl

theorem State.SheafSame.controlOf (h : s.SheafSame u c n) (i : FrameInfo) (drop : Bool) :
    u.controlOf c n i drop = s.controlOf c n i drop := by
  simp only [State.controlOf, h.deadOf, h.resumesOf, h.recordsOf, h.rimshotDead, h.summDue]

theorem State.SheafSame.formBytes (h : s.SheafSame u c n) (i : FrameInfo) (late : Nat) (drop : Bool) :
    u.formBytes c n i late drop = s.formBytes c n i late drop := by
  simp only [State.formBytes, h.recordsOf, h.controlOf, h.presence, h.resumesOf, h.sumTokens, h.deadOf]

/-- The tile's records of frame n are dropped where it is not in the sheaf. -/
def State.dropLate (s : State) (c : Conc) (n : Nat) (tl : Fin 16) : State :=
  s.setRx c tl { s.rx c tl with
    shadow := if s.inSheaf c n tl then (s.rx c tl).shadow else mapDel n (s.rx c tl).shadow,
    recs := if s.inSheaf c n tl then (s.rx c tl).recs else mapDel n (s.rx c tl).recs }

theorem State.dropLate_lateOf {tl t : Fin 16} (h : s.lateOf c n t = 0) : (s.dropLate c n tl).lateOf c n t = 0 := by
  by_cases same : t = tl
  · subst same
    have own : (s.dropLate c n t).rx c t = { s.rx c t with
      shadow := if s.inSheaf c n t then (s.rx c t).shadow else mapDel n (s.rx c t).shadow,
      recs := if s.inSheaf c n t then (s.rx c t).recs else mapDel n (s.rx c t).recs } := State.setRx_rx_same ..
    have inSheaf : (s.dropLate c n t).inSheaf c n t = s.inSheaf c n t := by rw [State.inSheaf, own, State.inSheaf]
    rw [State.lateOf, inSheaf]
    by_cases present : s.inSheaf c n t = true
    · exact if_pos present
    · rw [if_neg present, own, if_neg present, if_neg present, mapGetD, mapGetD, mapFind_mapDel_same, mapFind_mapDel_same]
      rfl
  · have other : (s.dropLate c n tl).rx c t = s.rx c t := State.setRx_rx_ne same ..
    rw [State.lateOf, State.inSheaf, other]
    exact h

/-- Where no record of frame n is late nothing is counted, and the sheaf is formed of the same (R119). -/
theorem State.countFrameLate_same (h : ∀ tl, s.lateOf c n tl = 0) : s.SheafSame (s.countFrameLate c n) c n := by
  refine (State.each_keeps (P := fun u => s.SheafSame u c n ∧ ∀ tl, u.lateOf c n tl = 0) (fun u tl _ ⟨same, zero⟩ => ?_)
    ⟨.refl s c n, h⟩).1
  have dropped : s.SheafSame (u.dropLate c n tl) c n := same.setRx tl _ rfl rfl fun present => if_pos present
  have uncounted : (u.dropLate c n tl).countLate c tl (u.lateOf c n tl) = u.dropLate c n tl := by
    rw [zero tl]
    rfl
  exact uncounted ▸ ⟨dropped, fun t => State.dropLate_lateOf (zero t)⟩

end

/-! ### Forming a sheaf in direct mode (R118, R129, R288) -/

theorem exec_sheafForm {s : State} {c : Conc} (h : s.mergeOn c = true) :
    exec (.sheafForm c) s = .next (((s.formNext c).compareAll c).checkSwap) := congrArg Host.Outcome.next (if_pos h)

theorem bytesUnits_length (n : Nat) (l : List Byte) : (bytesUnits n l).length = n := by
  induction n generalizing l with
  | zero => rfl
  | succ n ih => exact congrArg (· + 1) (ih _)

/-- The sheaf's bytes and its tiles' shadow records are written (R288, R291), and what the tiles delivered of it is dropped. -/
def State.sheafWritten (s : State) (c : Conc) (n : Nat) (i : FrameInfo) (bytes : List Byte) (words : Nat) : State :=
  let x := s.writeShadows c n (fun t => s.inSheaf c n t)
  (x.2.writeReplay c n bytes
    { frame := n, pos := (x.2.conc c).wpos, words := words, presence := s.presence c n, pealEpoch := i.pealEpoch,
      domain := i.domain, tq := i.tq, mixed := i.mixed, dead := s.deadOf c n false, extent := x.1 }).each
    allTiles (fun u t => u.setRx c t ((u.rx c t).formed n (s.inSheaf c n t)))

/-- The sheaf joins the output queue of a concentrator in direct mode. -/
def State.sheafQueued (s : State) (c : Conc) (n : Nat) (bytes : List Byte) (summ : List (Nat × Summary)) : State :=
  let cs := s.conc c
  s.setConc c { cs with
    nextForm := n + 1, late := 0, summ := summ,
    spillSince := if cs.sendNext = n then s.now else cs.spillSince,
    gleans := cs.gleans.map (fun g => if g.needs = n then { g with since := s.now } else g),
    unsent := if cs.sendNext ≤ n then cs.unsent + bytes.length else cs.unsent,
    queue := if decide (s.stored (pgSHEAF c) Reg.SHEAF.SPILL_STAT_MODE = 0) && decide (cs.sendNext ≤ n) then cs.queue ++ [(n, bytes)]
      else cs.queue }

/-- The registers of a formed sheaf. -/
def State.sheafShown (s : State) (c : Conc) (n presence dead resumes : Nat) : State :=
  ((s.formRegs c n presence dead resumes false).showShadow c n).showBacklog c

/-- The partner is told. -/
def State.sheafTold (s : State) (c : Conc) (n : Nat) (bytes : List Byte) : State :=
  let m := s.crossMsg c n (some (crc64 bytes))
  let s := if s.pair c = 0 then s else s.setConc c { s.conc c with own := (s.conc c).own ++ [m] }
  let s := s.sendCross c m
  if s.partnerLate c n then s.partnerLost c else s

section

variable {s u : State} {c : Conc} {n : Nat} {i : FrameInfo}

theorem State.formSheaf_eq {bytes : List Byte} {words : Nat} (hu : s.countFrameLate c n = u)
    (full : u.formBytes c n i ((u.conc c).late + ((u.resumesOf c n).map (fun x => x.2.discarded)).sum) false = (bytes, words))
    (direct : u.decideMode c n bytes.length = u) (mode : u.stored (pgSHEAF c) Reg.SHEAF.SPILL_STAT_MODE = 0) :
    s.formSheaf c n i = (((u.sheafWritten c n i bytes words).sheafQueued c n bytes (u.summNext c n (u.recordsOf c n))).sheafShown c n
      (u.presence c n) (u.deadOf c n false) (u.resumesOf c n).length).sheafTold c n bytes := by
  unfold State.formSheaf
  rw [hu]
  extract_lets s₁ resumes late all s₂ drop
  have hall : all = (bytes, words) := full
  have hs : s₂ = u := by
    simp only [s₂, hall]
    exact direct
  have keeps : drop = false := by
    simp only [drop, hs, mode]
    rfl
  clear_value drop s₂ all
  subst keeps hs hall
  rfl

end

end Sys2Proof.Machine
end

section
/-!
PROOFS. The family of merge and correction: sheaves are formed, and extents written (R118, R129, R178, R262, R291).
-/

namespace Sys2Proof.Machine

section

variable {s t u : State} {c : Conc} {n : Nat} {i : FrameInfo}

theorem ConcSt.stackOnly_putRing (size p : Nat) (us : List (BitVec 256)) (v : ConcSt) : v.StackOnly (v.putRing size p us) := by
  induction us generalizing p v with
  | nil => exact .refl v
  | cons x us ih => exact (v.stackOnly_putU false _ x).trans (ih ..)

theorem ConcSt.stackOnly_putDir (v : ConcSt) (frame x : Nat) : v.StackOnly (v.putDir frame x) :=
  (v.stackOnly_putU false _ _).trans (ConcSt.stackOnly_putU ..)

/-- A sheaf takes its place in the replay ring (R288). -/
theorem State.writeReplay_leaves (s : State) (c : Conc) (n : Nat) (bytes : List Byte) (m : SheafMeta) :
    let t := s.writeReplay c n bytes m
    ({ s.conc c with wpos := (s.conc c).wpos + unitsOf bytes.length,
                     metas := (m :: (s.conc c).metas).take (2 ^ 20) } : ConcSt).StackOnly (t.conc c) ∧
      t.conc c.other = s.conc c.other ∧ s.RegsBut (fun q _ => q ∈ [pgDRAM c]) t := by
  unfold State.writeReplay
  extract_lets size cs us cs' metas wpos held w
  have units : cs.StackOnly cs' := (ConcSt.stackOnly_putRing ..).trans (ConcSt.stackOnly_putDir ..)
  obtain ⟨dram, poison, mc, extents, rx, hcs⟩ := units
  have placed := State.concMoves_setConc s c { cs' with wpos := wpos, metas := metas }
  have issued := (s.setConc c { cs' with wpos := wpos, metas := metas }).stackWritten_issueWrites c false
    ((List.range us.length).map (fun i => ringUnit size (cs'.wpos + i)) ++ [n % 2 ^ 20 / 2, replayDirCopy + n % 2 ^ 20 / 2])
  have shown (d : Conc) : (w.put (pgDRAM c) Reg.DRAM.REPLAY_OLDEST (sheafOf ((held.getLast?.map (·.frame)).getD (max n cs'.validR)))).conc d =
      w.conc d := State.put_conc ..
  refine ⟨?_, (shown _).trans (issued.other.trans placed.other), ?_⟩
  · rw [shown]
    refine ConcSt.StackOnly.trans ?_ issued.conc
    rw [placed.own]
    have len : us.length = unitsOf bytes.length := bytesUnits_length ..
    simp only [wpos, metas, hcs, len]
    exact ⟨_, _, _, _, _, rfl⟩
  · exact ((State.regsBut_setConc ..).trans issued.regs).trans (State.regsBut_put (f := Reg.DRAM.REPLAY_OLDEST) List.mem_cons_self (by decide) ..)

/-- What the formed sheaf leaves of the concentrator once it is written. -/
structure State.SheafKept (s t : State) (c : Conc) (n len : Nat) : Prop where
  wpos : (t.conc c).wpos = (s.conc c).wpos + unitsOf len
  newest : ((t.conc c).metas.head?).map (fun m => (m.frame, m.pos, m.presence)) = some (n, (s.conc c).wpos, s.presence c n)
  queue : (t.conc c).queue = (s.conc c).queue
  sendNext : (t.conc c).sendNext = (s.conc c).sendNext
  own : (t.conc c).own = (s.conc c).own
  regs : s.RegsBut (fun q _ => q ∈ [pgDRAM c]) t

theorem State.sheafWritten_kept (s : State) (c : Conc) (n : Nat) (i : FrameInfo) (bytes : List Byte) (words : Nat) :
    s.SheafKept (s.sheafWritten c n i bytes words) c n bytes.length := by
  unfold State.sheafWritten
  extract_lets x
  have shadows : s.StackWritten x.2 c := s.stackWritten_writeShadows c n _
  obtain ⟨placed, -, regs⟩ := x.2.writeReplay_leaves c n bytes
    { frame := n, pos := (x.2.conc c).wpos, words := words, presence := s.presence c n, pealEpoch := i.pealEpoch,
      domain := i.domain, tq := i.tq, mixed := i.mixed, dead := s.deadOf c n false, extent := x.1 }
  generalize x.2.writeReplay c n bytes
    { frame := n, pos := (x.2.conc c).wpos, words := words, presence := s.presence c n, pealEpoch := i.pealEpoch,
      domain := i.domain, tq := i.tq, mixed := i.mixed, dead := s.deadOf c n false, extent := x.1 } = w at placed regs ⊢
  have dropped : w.StackWritten (w.each allTiles (fun u t => u.setRx c t ((u.rx c t).formed n (s.inSheaf c n t)))) c :=
    State.stackWritten_each (fun (u : State) (t : Fin 16) => u.stackWritten_setRx c t _) w
  have all := placed.trans dropped.conc
  obtain ⟨_, _, _, _, _, before⟩ := shadows.conc
  rw [before] at all
  obtain ⟨_, _, _, _, _, after⟩ := all
  have regs' := (shadows.regs.trans regs).trans dropped.regs
  generalize w.each allTiles (fun u t => u.setRx c t ((u.rx c t).formed n (s.inSheaf c n t))) = v at after regs' ⊢
  refine ⟨?_, ?_, ?_, ?_, ?_, regs'⟩
  · rw [after]
  · rw [after]
    rfl
  · rw [after]
  · rw [after]
  · rw [after]

/-! ### The registers of a formed sheaf -/

/-- The registers that follow a sheaf's LAST_SHEAF, PRESENT_MASK and SHEAF_CNT. -/
def FormedReg (c : Conc) (q o : Nat) : Prop :=
  q ∈ [pgGLEAN c, pgDRAM c] ∨ q = pgMERGE c ∧ o = Reg.MERGE.LAG.off ∨ q = pgSHEAF c ∧ o ≠ Reg.SHEAF.SHEAF_CNT.off

theorem not_formedReg_merge {c : Conc} {o : Nat} (h : o ≠ Reg.MERGE.LAG.off) : ¬FormedReg c (pgMERGE c) o := by
  have pages : pgMERGE c ∉ [pgGLEAN c, pgDRAM c] ∧ pgMERGE c ≠ pgSHEAF c := by cases c <;> decide
  rintro (page | ⟨-, off⟩ | ⟨page, -⟩)
  · exact pages.1 page
  · exact h off
  · exact pages.2 page

theorem not_formedReg_count (c : Conc) : ¬FormedReg c (pgSHEAF c) Reg.SHEAF.SHEAF_CNT.off := by
  have pages : pgSHEAF c ∉ [pgGLEAN c, pgDRAM c] ∧ pgSHEAF c ≠ pgMERGE c := by cases c <;> decide
  rintro (page | ⟨page, -⟩ | ⟨-, off⟩)
  · exact pages.1 page
  · exact pages.2 page
  · exact off rfl

theorem formedReg_page {c : Conc} {q o : Nat} (h : FormedReg c q o) : q ∈ [pgMERGE c, pgSHEAF c, pgGLEAN c, pgDRAM c] := by
  rcases h with page | ⟨page, -⟩ | ⟨page, -⟩ <;> simp_all

theorem State.regsBut_showBacklog (s : State) (c : Conc) : s.RegsBut (FormedReg c) (s.showBacklog c) := by
  have reg (o : Nat) (h : o ≠ Reg.SHEAF.SHEAF_CNT.off := by decide) : FormedReg c (pgSHEAF c) o := .inr (.inr ⟨rfl, h⟩)
  unfold State.showBacklog
  extract_lets cs ahead v w
  have shown : s.RegsBut (FormedReg c) v :=
    (State.regsBut_put (f := Reg.SHEAF.BACKLOG_KIB) (reg _) (by decide) s _).trans
      (State.regsBut_put (f := Reg.SHEAF.NEXT_SEND) (reg _) (by decide) _ _)
  have peak : v.RegsBut (FormedReg c) w :=
    .ite (State.regsBut_put (f := Reg.SHEAF.LATENCY_MAX_FRAMES) (reg _) (by decide) ..) (.refl v)
  exact (shown.trans peak).trans (.ite (State.regsBut_overflow (reg _) w 3) (.refl w))

/-- The counts of a formed sheaf after SHEAF_CNT, and what is shown of it. -/
theorem State.regsBut_formCounts (s : State) (c : Conc) (n dead : Nat) :
    s.RegsBut (FormedReg c) (((((s.bump (pgSHEAF c) Reg.SHEAF.DROP_FRAMES 2 0).bump64 (pgGLEAN c) Reg.GLEAN.DEAD_CAP_LO Reg.GLEAN.DEAD_CAP_HI 5
      dead).bump64 (pgGLEAN c) Reg.GLEAN.FRAMES_LO Reg.GLEAN.FRAMES_HI 7 1).showLag c).showShadow c n) := by
  have glean (o : Nat) : FormedReg c (pgGLEAN c) o := .inl (by simp)
  have drops := State.regsBut_bump (P := FormedReg c) (f := Reg.SHEAF.DROP_FRAMES) (.inr (.inr ⟨rfl, by decide⟩)) (.inr (.inr ⟨rfl, by decide⟩))
    (by decide) s 2 0
  have gleans (v : State) (f g : FieldRef) (hf : f.off < 4096) (hg : g.off < 4096) (b k : Nat) :
      v.RegsBut (FormedReg c) (v.bump64 (pgGLEAN c) f g b k) := State.regsBut_bump64 (glean _) (glean _) (glean _) hf hg v b k
  have lag (v : State) : v.RegsBut (FormedReg c) (v.showLag c) :=
    State.regsBut_put (f := Reg.MERGE.LAG_FRAMES) (.inr (.inl ⟨rfl, rfl⟩)) (by decide) v _
  have shadow (v : State) : v.RegsBut (FormedReg c) (v.showShadow c n) :=
    State.regsBut_put (f := Reg.DRAM.SHADOW_OLDEST) (.inl (by simp)) (by decide) v _
  exact (((drops.trans (gleans _ _ _ (by decide) (by decide) 5 dead)).trans (gleans _ _ _ (by decide) (by decide) 7 1)).trans (lag _)).trans
    (shadow _)

theorem State.sheafShown_leaves {presence : Nat} (h : presence < 2 ^ 16) (below : s.stored (pgSHEAF c) Reg.SHEAF.SHEAF_CNT < 2 ^ 32 - 1)
    (dead resumes : Nat) :
    let t := s.sheafShown c n presence dead resumes
    t.stored (pgMERGE c) Reg.MERGE.LAST_SHEAF = sheafOf n ∧ t.stored (pgMERGE c) Reg.MERGE.PRESENT_MASK = presence ∧
      t.stored (pgSHEAF c) Reg.SHEAF.SHEAF_CNT = s.stored (pgSHEAF c) Reg.SHEAF.SHEAF_CNT + 1 ∧
      s.RegsBut (fun q _ => q ∈ [pgMERGE c, pgSHEAF c, pgGLEAN c, pgDRAM c]) t ∧ s.Only 88 t := by
  obtain ⟨v, hv⟩ : ∃ v, v = (s.put (pgMERGE c) Reg.MERGE.LAST_SHEAF (sheafOf n)).put (pgMERGE c) Reg.MERGE.PRESENT_MASK presence := ⟨_, rfl⟩
  obtain ⟨w, hw⟩ : ∃ w, w = v.eventIf (decide (0 < resumes)) (pgMERGE c) 1 := ⟨_, rfl⟩
  obtain ⟨x, hx⟩ : ∃ x, x = w.bump (pgSHEAF c) Reg.SHEAF.SHEAF_CNT 0 := ⟨_, rfl⟩
  have rest : x.RegsBut (FormedReg c) (s.sheafShown c n presence dead resumes) := by
    rw [hx, hw, hv]
    exact (State.regsBut_formCounts ..).trans (State.regsBut_showBacklog ..)
  have puts : s.RegsBut (fun q _ => q ∈ [pgMERGE c]) v := by
    rw [hv]
    exact (State.regsBut_put (f := Reg.MERGE.LAST_SHEAF) List.mem_cons_self (by decide) s _).trans
      (State.regsBut_put (f := Reg.MERGE.PRESENT_MASK) List.mem_cons_self (by decide) _ _)
  have event : v.RegsBut (fun q o => (q, o) ∈ [(pgMERGE c, Reg.HDR.EVT_PENDING.off)]) w := by
    rw [hw]
    exact .ite (State.regsBut_event List.mem_cons_self ..) (.refl v)
  have count : w.RegsBut (fun q _ => q ∈ [pgSHEAF c]) x := by
    rw [hx]
    exact State.regsBut_bump List.mem_cons_self List.mem_cons_self (by decide) w 0 1
  have early {f : FieldRef} (h : f.off ≠ Reg.MERGE.LAG.off) (h' : f.off ≠ Reg.HDR.EVT_PENDING.off) (small : f.off < 4096) :
      (s.sheafShown c n presence dead resumes).stored (pgMERGE c) f = v.stored (pgMERGE c) f := by
    rw [rest.stored (not_formedReg_merge h) small, count.stored (by cases c <;> decide) small, event.stored (by simp [h']) small]
  have counted : w.stored (pgSHEAF c) Reg.SHEAF.SHEAF_CNT = s.stored (pgSHEAF c) Reg.SHEAF.SHEAF_CNT := by
    rw [event.stored (by cases c <;> decide) (by decide), puts.stored (by cases c <;> decide) (by decide)]
  refine ⟨?_, ?_, ?_, ?_, ?_⟩
  · rw [early (by decide) (by decide) (by decide), hv, State.stored_put_ne (regKey_ne_off (by decide)), State.stored_put_same (by decide) (by decide)]
    exact Nat.mod_mod ..
  · rw [early (by decide) (by decide) (by decide), hv, State.stored_put_same (by decide) (by decide)]
    exact Nat.mod_eq_of_lt h
  · rw [rest.stored (not_formedReg_count c) (by decide), hx,
      State.stored_bump_below (by decide) (by decide) (by rw [counted]; show _ < 2 ^ 32; omega), counted]
  · exact (((puts.mono fun q o h => by simp_all).trans (event.mono fun q o h => by simp_all)).trans
      (count.mono fun q o h => by simp_all)).trans (rest.mono fun q o h => formedReg_page h)
  · exact State.showBacklog_only (State.showShadow_only (State.formRegs_only (.refl s) c n presence dead resumes false (by decide)) c n
      (by decide)) c (by decide)

/-! ### The partner, and the comparison with it, where the concentrator is alone (R260, R262, R263) -/

/-- A message to the partner stays with the partner. -/
theorem State.sendCross_leaves (s : State) (c : Conc) (m : CrossMsg) :
    (s.sendCross c m).conc c = s.conc c ∧ ∀ P, s.RegsBut P (s.sendCross c m) := by
  unfold State.sendCross
  extract_lets o
  split
  · exact ⟨rfl, fun P => .refl s⟩
  · exact ⟨State.setConc_conc_ne (conc_other_ne c).symm .., fun P => State.regsBut_setConc ..⟩

/-- A concentrator that is alone loses no partner. -/
theorem State.partnerLost_alone (alone : s.pair c = 0) : s.partnerLost c = s := if_pos alone

theorem State.sheafTold_eq (alone : s.pair c = 0) (bytes : List Byte) :
    s.sheafTold c n bytes = s.sendCross c (s.crossMsg c n (some (crc64 bytes))) := by
  have still : (s.sendCross c (s.crossMsg c n (some (crc64 bytes)))).pair c = 0 :=
    (((s.sendCross_leaves c _).2 (fun _ _ => False)).stored id (by decide)).trans alone
  simp only [State.sheafTold, if_pos alone, State.partnerLost_alone still, ite_self]

/-- A concentrator that holds no messages of its own compares nothing. -/
theorem State.compareAll_none (h : (s.conc c).own = []) :
    ∃ partner, s.compareAll c = s.setConc c { s.conc c with own := [], partner := partner } := by
  unfold State.compareAll
  extract_lets cs pairs done
  have none : pairs = [] := by
    simp only [pairs, cs, h]
    rfl
  have own : cs.own = [] := h
  rw [none, own]
  exact ⟨_, rfl⟩

/-- No swap is pending, so none is withdrawn. -/
theorem State.checkSwap_none (h : s.cal.swap = none) : s.checkSwap = s := by
  rw [State.checkSwap, h]

end

section

variable {s u : State} {c : Conc} {n : Nat} {i : FrameInfo}

/-- The presence mask has a bit for each of the 16 tiles (R119). -/
theorem State.presence_lt (s : State) (c : Conc) (n : Nat) : s.presence c n < 2 ^ 16 := by
  have bits : (allTiles.map fun t : Fin 16 => 2 ^ t.val).sum < 2 ^ 16 := by decide
  refine lt_of_le_of_lt (List.sum_le_sum fun t _ => ?_) bits
  split
  · exact le_refl _
  · exact Nat.zero_le _

theorem State.formNext_eq (on : (s.conc c).merging = true) (info : mapFind (s.conc c).nextForm s.frames = some i)
    (delivered : i.delivered = true) (ended : (s.conc c).nextForm < s.frame) (waits : ∀ tl, s.waitsFor c tl (s.conc c).nextForm = false)
    (room : s.wbufFull c false = false) : s.formNext c = s.formSheaf c (s.conc c).nextForm i := by
  have can : s.canForm c (s.conc c).nextForm = true := by
    simp [State.canForm, on, ended, info, delivered, waits]
  simp only [State.formNext, info, can, room, if_true, Bool.false_eq_true, if_false]

/-- A sheaf that finds room in the queue and in the replay partition leaves the output mode (R129). -/
theorem State.decideMode_stays {len : Nat} (free : s.wouldOverwrite c n (unitsOf len) = false)
    (fits : (s.conc c).queuedBytes + len ≤ s.fld (pgSHEAF c) Reg.SHEAF.SPILL_CTRL_ENTER_KB * 1024) : s.decideMode c n len = s := by
  have full : ¬(s.stored (pgSHEAF c) Reg.SHEAF.SPILL_STAT_MODE = 0 ∧
      s.fld (pgSHEAF c) Reg.SHEAF.SPILL_CTRL_ENTER_KB * 1024 < (s.conc c).queuedBytes + len) := fun h => absurd h.2 (Nat.not_lt.2 fits)
  simp only [State.decideMode, free, Bool.and_false, Bool.false_eq_true, if_false, if_neg full]

/-- What is decided of a sheaf does not depend on what is held of the tiles. -/
theorem State.SheafSame.deciding (h : s.SheafSame u c n) :
    u.outMode c = s.outMode c ∧ (∀ len, u.wouldOverwrite c n len = s.wouldOverwrite c n len) ∧
      (u.conc c).queuedBytes = (s.conc c).queuedBytes ∧
      u.fld (pgSHEAF c) Reg.SHEAF.SPILL_CTRL_ENTER_KB = s.fld (pgSHEAF c) Reg.SHEAF.SPILL_CTRL_ENTER_KB ∧
      (∀ P, s.RegsBut P u) := by
  obtain ⟨v, rfl⟩ := h.conc
  refine ⟨State.setConc_stored .., fun len => ?_, ?_, State.setConc_fld .., fun P => State.regsBut_setConc ..⟩
  · cases c <;> rfl
  · rw [State.setConc_conc_same]
    rfl

/-- Sheaf n has been formed of a concentrator alone in direct mode. -/
structure State.SheafFormed (s t : State) (c : Conc) (n : Nat) (bytes : List Byte) : Prop where
  nextForm : (t.conc c).nextForm = n + 1
  late : (t.conc c).late = 0
  queue : (t.conc c).queue = (s.conc c).queue ++ [(n, bytes)]
  wpos : (t.conc c).wpos = (s.conc c).wpos + unitsOf bytes.length
  newest : ((t.conc c).metas.head?).map (fun m => (m.frame, m.pos, m.presence)) = some (n, (s.conc c).wpos, s.presence c n)
  own : (t.conc c).own = []
  last : t.stored (pgMERGE c) Reg.MERGE.LAST_SHEAF = sheafOf n
  mask : t.stored (pgMERGE c) Reg.MERGE.PRESENT_MASK = s.presence c n
  count : t.stored (pgSHEAF c) Reg.SHEAF.SHEAF_CNT = s.stored (pgSHEAF c) Reg.SHEAF.SHEAF_CNT + 1
  regs : s.RegsBut (fun q _ => q ∈ [pgMERGE c, pgSHEAF c, pgGLEAN c, pgDRAM c]) t

/-- What a sheaf that is written and queued leaves, its registers shown and the partner told. -/
theorem State.sheafTold_formed {bytes : List Byte} {words dead resumes : Nat} {summ : List (Nat × Summary)}
    (alone : s.pair c = 0) (mode : s.outMode c = 0) (next : (s.conc c).sendNext ≤ n)
    (below : s.stored (pgSHEAF c) Reg.SHEAF.SHEAF_CNT < 2 ^ 32 - 1) (own : (s.conc c).own = []) :
    s.SheafFormed ((((s.sheafWritten c n i bytes words).sheafQueued c n bytes summ).sheafShown c n (s.presence c n) dead resumes).sheafTold
      c n bytes) c n bytes := by
  have kept := s.sheafWritten_kept c n i bytes words
  have direct : (s.sheafWritten c n i bytes words).stored (pgSHEAF c) Reg.SHEAF.SPILL_STAT_MODE = 0 := by
    rw [kept.regs.stored (by cases c <;> decide) (by decide)]
    exact mode
  have count : (s.sheafWritten c n i bytes words).stored (pgSHEAF c) Reg.SHEAF.SHEAF_CNT = s.stored (pgSHEAF c) Reg.SHEAF.SHEAF_CNT :=
    kept.regs.stored (by cases c <;> decide) (by decide)
  generalize s.sheafWritten c n i bytes words = e at kept direct count ⊢
  have joins : (decide (e.stored (pgSHEAF c) Reg.SHEAF.SPILL_STAT_MODE = 0) && decide ((e.conc c).sendNext ≤ n)) = true := by
    rw [direct, kept.sendNext, decide_eq_true next]
    rfl
  have conc : (e.sheafQueued c n bytes summ).conc c = _ := State.setConc_conc_same ..
  have regs₁ : ∀ P, e.RegsBut P (e.sheafQueued c n bytes summ) := fun P => State.regsBut_setConc ..
  rw [if_pos joins] at conc
  generalize e.sheafQueued c n bytes summ = q at conc regs₁ ⊢
  have count₁ : q.stored (pgSHEAF c) Reg.SHEAF.SHEAF_CNT = s.stored (pgSHEAF c) Reg.SHEAF.SHEAF_CNT :=
    ((regs₁ fun _ _ => False).stored id (by decide)).trans count
  obtain ⟨last, mask, cnt, regs₂, parts⟩ := State.sheafShown_leaves (s := q) (c := c) (n := n) (s.presence_lt c n) (by rw [count₁]; exact below) dead resumes
  have all := (kept.regs.mono fun q o h => by simp_all).trans ((regs₁ _).trans regs₂)
  have conc₂ := (parts.conc c).trans conc
  have still : (q.sheafShown c n (s.presence c n) dead resumes).pair c = 0 := (all.stored (by cases c <;> decide) (by decide)).trans alone
  generalize q.sheafShown c n (s.presence c n) dead resumes = w at last mask cnt all conc₂ still ⊢
  rw [State.sheafTold_eq still]
  obtain ⟨same, regs₃⟩ := w.sendCross_leaves c (w.crossMsg c n (some (crc64 bytes)))
  have reg {p : Nat} {f : FieldRef} (h : f.off < 4096) : (w.sendCross c (w.crossMsg c n (some (crc64 bytes)))).stored p f = w.stored p f :=
    (regs₃ fun _ _ => False).stored id h
  refine ⟨?_, ?_, ?_, ?_, ?_, ?_, (reg (by decide)).trans last, (reg (by decide)).trans mask, ?_, all.trans (regs₃ _)⟩
  · rw [same, conc₂]
  · rw [same, conc₂]
  · rw [same, conc₂, kept.queue]
  · rw [same, conc₂, kept.wpos]
  · rw [same, conc₂, kept.newest]
  · rw [same, conc₂, kept.own, own]
  · rw [reg (by decide), cnt, count₁]

/-- The comparison with a partner's messages leaves a sheaf formed as it is. -/
theorem State.SheafFormed.compared {t : State} {bytes : List Byte} (h : s.SheafFormed t c n bytes) :
    s.SheafFormed (t.compareAll c) c n bytes ∧ (t.compareAll c).cal = t.cal := by
  obtain ⟨partner, eq⟩ := State.compareAll_none h.own
  have conc : (t.compareAll c).conc c = { t.conc c with own := [], partner := partner } := by rw [eq, State.setConc_conc_same]
  have regs : ∀ P, t.RegsBut P (t.compareAll c) := fun P => eq ▸ State.regsBut_setConc ..
  have reg {p : Nat} {f : FieldRef} (k : f.off < 4096) : (t.compareAll c).stored p f = t.stored p f :=
    (regs fun _ _ => False).stored id k
  refine ⟨⟨?_, ?_, ?_, ?_, ?_, ?_, (reg (by decide)).trans h.last, (reg (by decide)).trans h.mask, (reg (by decide)).trans h.count,
    h.regs.trans (regs _)⟩, by rw [eq, State.setConc_cal]⟩
  · rw [conc, h.nextForm]
  · rw [conc, h.late]
  · rw [conc, h.queue]
  · rw [conc, h.wpos]
  · rw [conc, h.newest]
  · rw [conc]

end

/-! ### Writing an extent (R291) -/

theorem exec_extentTimeout {s : State} {c : Conc} (h : s.mergeOn c = true) (tl : Fin 16) (reads : Reads) :
    exec (.extentTimeout c ⟨tl, reads⟩) s = .next (s.extentTimeout c tl reads) := congrArg Host.Outcome.next (if_pos h)

/-- The units of an extent, its header first. -/
def ConcSt.putExtent (v : ConcSt) (ring : Nat) (tl : Fin 16) (e : Extent) : ConcSt :=
  (List.range ((e.recs.length + 3) / 4)).foldl
    (fun cs i => cs.putU true (shadowBase + e.alloc % ring * 64 + 1 + i) (extentUnit e.recs (1 + i)))
    (v.putU true (shadowBase + e.alloc % ring * 64) (extentHeader (v.extents % ring) tl e))

theorem ConcSt.putU_eq (v : ConcSt) (shadow : Bool) (unit : Nat) (x : BitVec 256) :
    ∃ dram poison, v.putU shadow unit x = { v with dram := dram, poison := poison } := ⟨_, _, rfl⟩

theorem ConcSt.foldl_putU {α : Type} (shadow : Bool) (place : α → Nat) (data : α → BitVec 256) (l : List α) (v : ConcSt) :
    ∃ dram poison, l.foldl (fun cs a => cs.putU shadow (place a) (data a)) v = { v with dram := dram, poison := poison } := by
  induction l generalizing v with
  | nil => exact ⟨_, _, rfl⟩
  | cons a l ih =>
    obtain ⟨d, p, first⟩ := v.putU_eq shadow (place a) (data a)
    obtain ⟨dram, poison, rest⟩ := ih { v with dram := d, poison := p }
    exact ⟨dram, poison, by rw [List.foldl_cons, first, rest]⟩

theorem ConcSt.putExtent_eq (v : ConcSt) (ring : Nat) (tl : Fin 16) (e : Extent) :
    ∃ dram poison, v.putExtent ring tl e = { v with dram := dram, poison := poison } := by
  obtain ⟨d, p, header⟩ := v.putU_eq true (shadowBase + e.alloc % ring * 64) (extentHeader (v.extents % ring) tl e)
  obtain ⟨dram, poison, units⟩ := ConcSt.foldl_putU true (fun i => shadowBase + e.alloc % ring * 64 + 1 + i)
    (fun i => extentUnit e.recs (1 + i)) (List.range ((e.recs.length + 3) / 4)) { v with dram := d, poison := p }
  exact ⟨dram, poison, by rw [ConcSt.putExtent, header, units]⟩

/-- An extent that the decoder delivers is the extent (R328). -/
theorem Extent.asRead_delivered (e : Extent) : e.asRead (fun _ => false) = e := by
  have recs : (List.range e.recs.length).map (fun i => e.recs.getD i 0) = e.recs := by
    refine List.ext_getElem (by simp) fun i h k => ?_
    simp [k]
  simp only [Extent.asRead, Bool.false_eq_true, if_false, recs]

section

variable {s : State} {c : Conc} {tl : Fin 16} {e : Extent}

theorem State.extentTimeout_eq (ext : (s.rx c tl).ext = some e) (some : e.recs ≠ []) (old : e.arrived + 64 ≤ s.frame) :
    s.extentTimeout c tl [] = s.writeExtent c tl e := by
  have due : (!e.recs.isEmpty && decide (e.arrived + 64 ≤ s.frame)) = true := by simp [some, old]
  have delivered : s.each (List.range e.recs.length) (fun s i => s.countRead (pgDINTG c) 3 (tl.val * 256 + i) (Reads.at_ [] i)) = s :=
    State.each_keeps (P := fun t => t = s) (fun _ _ _ h => h) rfl
  have read : e.asRead (fun i => Reads.at_ [] i == .uncorrectable) = e := e.asRead_delivered
  simp only [State.extentTimeout, ext, due, if_true, delivered, read]

/-- An extent is written, and its tile's next allocated. -/
theorem State.writeExtent_leaves (s : State) (c : Conc) (tl : Fin 16) (e : Extent) :
    let t := s.writeExtent c tl e
    let written := (s.conc c).putExtent (s.shadowExtents c) tl e
    (t.conc c).extents = (s.conc c).extents + 1 ∧
      (t.rx c tl).ext = some { alloc := (s.conc c).extents, first := 0, arrived := 0, recs := [] } ∧
      (t.conc c).dram = written.dram ∧ (t.conc c).poison = written.poison ∧ (∀ u, u ≠ tl → t.rx c u = s.rx c u) := by
  obtain ⟨dram, poison, put⟩ := (s.conc c).putExtent_eq (s.shadowExtents c) tl e
  intro t written
  obtain ⟨t', ht⟩ : ∃ t', t' = t := ⟨_, rfl⟩
  have eq : t' = s.writeExtent c tl e := ht
  rw [← ht]
  clear_value t
  unfold State.writeExtent at eq
  extract_lets n cs base cs' w at eq
  have hcs : cs' = written := rfl
  have put : cs' = { s.conc c with dram := dram, poison := poison } := put
  clear_value cs' written
  subst hcs
  have placed := State.concMoves_setConc s c { cs' with extents := cs'.extents + 1 }
  obtain ⟨⟨mc, issued⟩, -⟩ := (s.setConc c { cs' with extents := cs'.extents + 1 }).issueWrites_moves c true
      ((List.range (1 + (e.recs.length + 3) / 4)).map (base + ·))
  have own : w.conc c = _ := issued.own
  clear_value w
  simp only [placed.own] at own
  have same (u : Fin 16) : w.rx c u = s.rx c u := by
    simp only [State.rx, own, put]
  have conc : t'.conc c = { w.conc c with rx := (w.conc c).rx.set tl { w.rx c tl with
      ext := some { alloc := cs'.extents, first := 0, arrived := 0, recs := [] } } } := by
    rw [eq, State.setRx, State.setConc_conc_same]
  refine ⟨?_, ?_, ?_, ?_, fun u hu => ?_⟩
  · simp only [conc, own, put]
  · rw [eq, State.setRx_rx_same, put]
  · simp only [conc, own]
  · simp only [conc, own]
  · rw [eq, State.setRx_rx_ne hu, same]

end

/-- Settles O40: a sheaf that finds no late record is formed of what its tiles delivered (`State.countFrameLate_same`), in the order
written, queued, shown and told (`State.sheafTold_formed`); an extent's timeout is one write of the extent. -/
theorem sheavesAreFormed : Obligations.SheavesAreFormed := by
  unfold Obligations.SheavesAreFormed
  constructor
  · intro s c i n late bytes on info delivered ended waits room alone own noSwap none mode free fits next below
    have same := State.countFrameLate_same none
    obtain ⟨u, hu⟩ : ∃ u, s.countFrameLate c n = u := ⟨_, rfl⟩
    rw [hu] at same
    obtain ⟨mode', free', queued, limit, regs⟩ := same.deciding
    have conc : ∃ v, u.conc c = { s.conc c with rx := v } := by
      obtain ⟨v, hv⟩ := same.conc
      exact ⟨v, by rw [hv, State.setConc_conc_same]⟩
    obtain ⟨v, conc⟩ := conc
    have full : u.formBytes c n i ((u.conc c).late + ((u.resumesOf c n).map (fun x => x.2.discarded)).sum) false =
        (bytes, (s.formBytes c n i late false).2) := by
      rw [same.formBytes, same.resumesOf, conc]
    have stays : u.decideMode c n bytes.length = u :=
      State.decideMode_stays ((free' _).trans free) (by rw [queued, limit]; exact fits)
    have formed := (State.formNext_eq (State.merging_of_mergeOn on) info delivered ended waits room).trans
      (State.formSheaf_eq hu full stays (mode'.trans mode))
    have reg {p : Nat} {f : FieldRef} (h : f.off < 4096) : u.stored p f = s.stored p f := (regs fun _ _ => False).stored id h
    have told := State.sheafTold_formed (s := u) (c := c) (n := n) (i := i) (bytes := bytes) (words := (s.formBytes c n i late false).2)
      (dead := u.deadOf c n false) (resumes := (u.resumesOf c n).length) (summ := u.summNext c n (u.recordsOf c n))
      ((reg (by decide)).trans alone) (mode'.trans mode) (by rw [conc]; exact next) (by rw [reg (by decide)]; exact below) (by rw [conc]; exact own)
    rw [← formed] at told
    obtain ⟨done, cal⟩ := told.compared
    have swap : ((s.formNext c).compareAll c).cal.swap = Option.none :=
      (congrArg CalSt.swap (cal.trans ((State.formNext_only (L := 24664) (.refl s) c (by decide)).cal rfl))).trans noSwap
    have row := (exec_sheafForm on).trans (congrArg _ (State.checkSwap_none swap))
    have newest := done.newest
    have mask := done.mask
    rw [same.presence] at newest mask
    refine ⟨_, row, done.nextForm, done.late, ?_, ?_, ?_, done.last, mask, ?_, ((regs _).trans done.regs).same⟩
    · rw [done.queue, conc]
    · rw [done.wpos, conc]
    · rw [newest, conc]
    · rw [done.count, reg (by decide)]
  · intro s c tl e ring base written on ext some old
    obtain ⟨extents, next, dram, poison, others⟩ := s.writeExtent_leaves c tl e
    have stack := s.stackWritten_writeExtent c tl e
    exact ⟨_, (exec_extentTimeout on tl []).trans (congrArg _ (State.extentTimeout_eq ext some old)), extents, next, dram, poison, others,
      stack.other, stack.regs.same, (State.writeExtent_only (L := 24600) (.refl s) c tl e (by decide)).changes (by decide)⟩

end Sys2Proof.Machine
end

section
/-!
PROOFS. The family of merge and correction: swaps commit and are withdrawn (R202, R215, R216).
-/

namespace Sys2Proof.Machine

/-! ### Turns (R202) -/

/-- The registers that an entry of the journal changes. -/
def JournalReg (q o : Nat) : Prop := q = pgJRNL ∧ o ∈ [Reg.JRNL.HEAD.off, Reg.JRNL.TAIL.off, Reg.JRNL.MIRROR_TAIL.off]

/-- The registers that a swap's end changes: SWAP_STAT, and the journal's. -/
def PassReg (q o : Nat) : Prop := q = pgCALS ∧ o = Reg.CALS.SWAP_STAT.off ∨ JournalReg q o

/-- What passes on after a swap or its withdrawal: the engine's turns, the journal and the copies in MRAM leave the tables in force, what
is staged, and the registers but SWAP_STAT's and the journal's. -/
structure State.SwapPassed (s t : State) : Prop where
  tiles : t.tiles = s.tiles
  tac : t.tac = s.tac
  frames : t.frames = s.frames
  epoch : t.savedEpoch = s.savedEpoch
  corr : ∀ c, (t.conc c).corr = (s.conc c).corr
  staged : ∀ c, (t.conc c).corrStaged = (s.conc c).corrStaged
  rx : ∀ c, (t.conc c).rx = (s.conc c).rx
  regs : s.RegsBut PassReg t

section

variable {s t u : State}

theorem State.SwapPassed.refl (s : State) : s.SwapPassed s :=
  ⟨rfl, rfl, rfl, rfl, fun _ => rfl, fun _ => rfl, fun _ => rfl, .refl s⟩

theorem State.SwapPassed.trans (h : s.SwapPassed t) (k : t.SwapPassed u) : s.SwapPassed u :=
  ⟨k.tiles.trans h.tiles, k.tac.trans h.tac, k.frames.trans h.frames, k.epoch.trans h.epoch, fun c => (k.corr c).trans (h.corr c),
    fun c => (k.staged c).trans (h.staged c), fun c => (k.rx c).trans (h.rx c), h.regs.trans k.regs⟩

/-- An update of no part that a swap concerns. -/
theorem State.SwapPassed.of_only {L : Nat} (h : s.Only L t) (regs : s.RegsBut PassReg t) (h8 : L.testBit 8 = false := by decide)
    (h9 : L.testBit 9 = false := by decide) (h13 : L.testBit 13 = false := by decide) (h14 : L.testBit 14 = false := by decide)
    (h15 : L.testBit 15 = false := by decide) (h38 : L.testBit 38 = false := by decide) : s.SwapPassed t :=
  ⟨h.tiles h8, h.tac h9, h.frames h15, h.savedEpoch h38, fun c => congrArg ConcSt.corr (h.conc c h13 h14),
    fun c => congrArg ConcSt.corrStaged (h.conc c h13 h14), fun c => congrArg ConcSt.rx (h.conc c h13 h14), regs⟩

theorem State.regsBut_swapStat {f : FieldRef} (h : f.off = Reg.CALS.SWAP_STAT.off) (s : State) (v : Nat) :
    s.RegsBut PassReg (s.put pgCALS f v) := State.regsBut_put (.inl ⟨rfl, h⟩) (by rw [h]; decide) s v

theorem State.regsBut_showJournal (s : State) : s.RegsBut JournalReg s.showJournal := by
  unfold State.showJournal
  split
  · exact .refl s
  · exact ((State.regsBut_put (f := Reg.JRNL.HEAD) ⟨rfl, by decide⟩ (by decide) s _).trans
      (State.regsBut_put (f := Reg.JRNL.TAIL) ⟨rfl, by decide⟩ (by decide) _ _)).trans
        (State.regsBut_put (f := Reg.JRNL.MIRROR_TAIL) ⟨rfl, by decide⟩ (by decide) _ _)

theorem State.regsBut_append (s : State) (e : JEntry) : s.RegsBut JournalReg (s.append e).2 := by
  have eq : (s.append e).2 =
      State.showJournal { s with journal := ({ e with seq := (s.append e).1, poison := false } :: s.journal).take 4096 } := rfl
  rw [eq]
  refine State.RegsBut.trans ?_ (State.regsBut_showJournal _)
  exact .of rfl rfl

/-- A turn's end and the next's beginning leave the pending swap, and the bits of SWAP_STAT that show it. -/
structure State.TurnPassed (s t : State) : Prop where
  passed : s.SwapPassed t
  swap : t.cal.swap = s.cal.swap
  pending : t.stored pgCALS Reg.CALS.SWAP_STAT_PENDING = s.stored pgCALS Reg.CALS.SWAP_STAT_PENDING

theorem State.TurnPassed.refl (s : State) : s.TurnPassed s := ⟨.refl s, rfl, rfl⟩

theorem State.TurnPassed.trans (h : s.TurnPassed t) (k : t.TurnPassed u) : s.TurnPassed u :=
  ⟨h.passed.trans k.passed, k.swap.trans h.swap, k.pending.trans h.pending⟩

theorem State.turnPassed_put {f : FieldRef} (h : f.off = Reg.CALS.SWAP_STAT.off) (lo : f.lo ≤ f.hi) (hi : f.hi < 31) (s : State) (v : Nat) :
    s.TurnPassed (s.put pgCALS f v) :=
  ⟨.of_only (State.put_only (L := 24) (.refl s) _ _ _ (by decide)) (State.regsBut_swapStat h s v), congrArg CalSt.swap (State.put_cal ..),
    State.stored_put_apart (f := f) (g := Reg.CALS.SWAP_STAT_PENDING) h.symm lo (by omega) (by decide) (by decide) (.inl hi) s pgCALS v⟩

theorem State.turnPassed_journalSwap (s : State) (tl : Fin 16) (result epoch : Nat) :
    s.TurnPassed (s.journalSwap tl result epoch).2 := by
  have parts := State.journalSwap_only (L := 8589934616) (.refl s) tl result epoch (by decide)
  have regs : s.RegsBut JournalReg (s.journalSwap tl result epoch).2 := State.regsBut_append ..
  exact ⟨.of_only parts (regs.mono fun _ _ => .inr), congrArg CalSt.swap (parts.cal rfl),
    regs.stored (fun h => absurd h.1 (by decide)) (by decide)⟩

theorem State.turnPassed_clearHist (s : State) (c : Conc) (captures : Bool) : s.TurnPassed (s.clearHist c captures) := by
  have moves := State.concMoves_setConc s c
    { s.conc c with hist := [], tapHist := [], captured := if captures then [] else (s.conc c).captured }
  have conc {α : Type} (f : ConcSt → α)
      (h : f { s.conc c with hist := [], tapHist := [], captured := if captures then [] else (s.conc c).captured } = f (s.conc c))
      (d : Conc) : f ((s.clearHist c captures).conc d) = f (s.conc d) := by
    by_cases same : d = c
    · rw [same, State.clearHist, moves.own, h]
    · rw [State.clearHist, State.setConc_conc_ne same]
  exact ⟨⟨State.setConc_tiles .., State.setConc_tac .., State.setConc_frames .., State.setConc_savedEpoch .., conc ConcSt.corr rfl,
    conc ConcSt.corrStaged rfl, conc ConcSt.rx rfl, State.regsBut_setConc ..⟩, congrArg CalSt.swap (State.setConc_cal ..),
    State.setConc_stored ..⟩

theorem State.turnPassed_restartTurn (s : State) (captures : Bool) : s.TurnPassed (s.restartTurn captures) := by
  have cleared : s.TurnPassed (s.each concs (fun s c => s.clearHist c captures)) :=
    State.each_keeps (P := fun t => s.TurnPassed t) (fun t c _ k => k.trans (t.turnPassed_clearHist c captures)) (.refl s)
  exact cleared.trans ⟨⟨rfl, rfl, rfl, rfl, fun _ => rfl, fun _ => rfl, fun _ => rfl, .of rfl rfl⟩, rfl, rfl⟩

theorem State.turnPassed_cal (s : State) (v : CalSt) (h : v.swap = s.cal.swap) : s.TurnPassed { s with cal := v } :=
  ⟨⟨rfl, rfl, rfl, rfl, fun c => by cases c <;> rfl, fun c => by cases c <;> rfl, fun c => by cases c <;> rfl, .of rfl rfl⟩, h, rfl⟩

theorem State.turnPassed_beginTurn (s : State) (first : Nat) : s.TurnPassed (s.beginTurn first) := by
  unfold State.beginTurn
  split
  · exact ((s.turnPassed_restartTurn false).trans (State.turnPassed_cal (s.restartTurn false) { (s.restartTurn false).cal with turnOn := true } rfl)).trans
      (State.turnPassed_put (f := Reg.CALS.SWAP_STAT_TILE) rfl (by decide) (by decide) ..)
  · exact State.turnPassed_cal s { s.cal with turnOn := false } rfl

theorem State.turnPassed_nextTurn (s : State) (tl : Fin 16) : s.TurnPassed (s.nextTurn tl) := by
  unfold State.nextTurn
  split
  · exact s.turnPassed_beginTurn _
  · exact .refl s

theorem State.turnPassed_afterSwap (s : State) (tl : Fin 16) : s.TurnPassed (s.afterSwap tl) := by
  unfold State.afterSwap State.warmNext
  split
  · exact s.turnPassed_nextTurn tl
  · have less := State.turnPassed_cal s { s.cal with warm := s.cal.warm.filter (· != tl) } rfl
    dsimp only
    split
    · exact (less.trans (State.turnPassed_put (f := Reg.CALS.SWAP_STAT_WARM) rfl (by decide) (by decide) _ false.toNat)).trans
        (State.turnPassed_beginTurn ..)
    · exact less

/-- Where no swap is pending SWAP_STAT shows none. -/
theorem State.showSwap_none (h : s.cal.swap = none) : s.SwapPassed s.showSwap ∧ s.showSwap.cal = s.cal ∧
    s.showSwap.stored pgCALS Reg.CALS.SWAP_STAT_PENDING = 0 := by
  have eq : s.showSwap = ((s.putB pgCALS Reg.CALS.SWAP_STAT_PENDING false).putB pgCALS Reg.CALS.SWAP_STAT_COMMITTED false).putB pgCALS
      Reg.CALS.SWAP_STAT_BY_HOST false := by
    unfold State.showSwap
    rw [h]
    rfl
  refine ⟨.of_only (State.showSwap_only (L := 24) (.refl s) (by decide)) ?_, (State.showSwap_only (L := 24) (.refl s) (by decide)).cal rfl, ?_⟩
  · rw [eq]
    exact ((State.regsBut_swapStat (f := Reg.CALS.SWAP_STAT_PENDING) rfl s _).trans
      (State.regsBut_swapStat (f := Reg.CALS.SWAP_STAT_COMMITTED) rfl _ _)).trans
        (State.regsBut_swapStat (f := Reg.CALS.SWAP_STAT_BY_HOST) rfl _ _)
  · rw [eq]
    refine (State.stored_put_apart (f := Reg.CALS.SWAP_STAT_BY_HOST) (g := Reg.CALS.SWAP_STAT_PENDING) rfl (by decide) (by decide)
      (by decide) (by decide) (by decide) ..).trans ?_
    refine (State.stored_put_apart (f := Reg.CALS.SWAP_STAT_COMMITTED) (g := Reg.CALS.SWAP_STAT_PENDING) rfl (by decide) (by decide)
      (by decide) (by decide) (by decide) ..).trans ?_
    exact State.stored_putB_same (f := Reg.CALS.SWAP_STAT_PENDING) (by decide) (by decide) s pgCALS false


end

theorem exec_swapCommit {s : State} (h : s.powered = true) : exec .swapCommit s = .next s.commitSwap :=
  congrArg Host.Outcome.next (if_pos h)

theorem exec_swapBoundary {s : State} (h : s.powered = true) : exec .swapBoundary s = .next s.swapBoundary :=
  congrArg Host.Outcome.next (if_pos h)

/-! ### Commit and withdrawal (R215, R216) -/

section

variable {s : State} {w : PendingSwap}

theorem State.regsBut_stageClr (s : State) (c : Conc) : s.RegsBut (fun q _ => q ∈ [pgCORR c]) (s.stageClr c) :=
  ((State.regsBut_setConc ..).trans (State.regsBut_putB (f := Reg.CORR.STAGE_STATUS_FULL) List.mem_cons_self (by decide) _ false)).trans
    (State.regsBut_put (f := Reg.CORR.STAGE_STATUS_COUNT) List.mem_cons_self (by decide) _ _)

/-- Discards of staged values change registers of the CORR pages alone. -/
theorem State.regsBut_discardStaged (s : State) (page : Nat) :
    s.RegsBut (fun q _ => q ∈ [pgCORR .a, pgCORR .b]) (s.discardStaged page) := by
  have cleared (c : Conc) : s.RegsBut (fun q _ => q ∈ [pgCORR .a, pgCORR .b]) (s.stageClr c) :=
    (s.regsBut_stageClr c).mono fun q _ h => by cases c <;> simp_all
  unfold State.discardStaged
  exact .ite (.refl s) (.ite (.ite (cleared _) (.refl s)) (.ite (.of rfl rfl) (.refl s)))

/-- The staged values of the swap's tile and of both concentrators are discarded. -/
def State.swapDiscarded (s : State) (w : PendingSwap) : State :=
  (s.discardStaged (pgTDC w.tile)).each concs (fun s c => s.discardStaged (pgCORR c))

theorem State.swapDiscarded_leaves (s : State) (w : PendingSwap) :
    s.RegsBut (fun q _ => q ∈ [pgCORR .a, pgCORR .b]) (s.swapDiscarded w) ∧ s.Only 29720 (s.swapDiscarded w) :=
  ⟨(s.regsBut_discardStaged _).trans (.each (fun (u : State) (c : Conc) _ => u.regsBut_discardStaged (pgCORR c)) _),
    State.each_keeps (P := fun t => s.Only 29720 t) (fun t c _ k => State.discardStaged_only k _ (by decide))
      (State.discardStaged_only (.refl s) _ (by decide))⟩

/-- The swap is no longer pending, and the engine keeps its results; ABORT_CNT counts it. -/
def State.swapAborted (s : State) (w : PendingSwap) : State :=
  let d := s.swapDiscarded w
  let s := { d with cal := { d.cal with swap := none, results := d.cal.staged.toList ++ d.cal.results, staged := none } }
  (s.bump pgCALS Reg.CALS.ABORT_CNT 1).event pgCALS 1

/-- Once it is withdrawn, SWAP_STAT shows it, the journal keeps it, and the next turn begins. -/
theorem State.withdrawSwap_passed (swap : s.cal.swap = some w) (open_ : w.committed = false) :
    (s.swapAborted w).showSwap.TurnPassed s.withdrawSwap := by
  obtain ⟨u, hu⟩ : ∃ u, u = (s.swapAborted w).showSwap.putB pgCALS Reg.CALS.SWAP_STAT_READY false := ⟨_, rfl⟩
  obtain ⟨v, hv⟩ : ∃ v, v = (u.journalSwap w.tile resABORTED (u.epochNow + 1)).2 := ⟨_, rfl⟩
  have eq : s.withdrawSwap = if (s.swapDiscarded w).cal.staged.toList.isEmpty then v else v.nextTurn w.tile := by
    rw [hv, hu]
    simp only [State.withdrawSwap, swap, open_, Bool.false_eq_true, if_false]
    rfl
  have ready : (s.swapAborted w).showSwap.TurnPassed u :=
    hu ▸ State.turnPassed_put (f := Reg.CALS.SWAP_STAT_READY) rfl (by decide) (by decide) _ false.toNat
  have journaled : u.TurnPassed v := hv ▸ u.turnPassed_journalSwap ..
  rw [eq]
  split
  · exact ready.trans journaled
  · exact (ready.trans journaled).trans (v.turnPassed_nextTurn _)

theorem State.swapAborted_leaves (below : s.stored pgCALS Reg.CALS.ABORT_CNT < 2 ^ 32 - 1) :
    let t := s.swapAborted w
    t.cal.swap = none ∧ t.stored pgCALS Reg.CALS.ABORT_CNT = s.stored pgCALS Reg.CALS.ABORT_CNT + 1 ∧
      (t.rd pgCALS Reg.HDR.EVT_PENDING.off).getLsbD 1 = true := by
  obtain ⟨discards, -⟩ := s.swapDiscarded_leaves w
  have count : (s.swapDiscarded w).stored pgCALS Reg.CALS.ABORT_CNT = s.stored pgCALS Reg.CALS.ABORT_CNT :=
    discards.stored (by decide) (by decide)
  refine ⟨?_, ?_, State.event_pends (by decide) ..⟩
  · exact congrArg CalSt.swap ((State.event_cal ..).trans (State.bump_cal ..))
  · refine (State.stored_event_ne (regKey_ne_off (by decide)) ..).trans ?_
    refine (State.stored_bump_below (f := Reg.CALS.ABORT_CNT) (by decide) (by decide) ?_ 1).trans (congrArg (· + 1) count)
    exact (congrArg (· + 1) count).trans_lt (by show _ < 2 ^ 32; omega)

/-- A swap not committed is withdrawn (R216). -/
theorem State.withdrawSwap_leaves (swap : s.cal.swap = some w) (open_ : w.committed = false)
    (below : s.stored pgCALS Reg.CALS.ABORT_CNT < 2 ^ 32 - 1) :
    let t := s.withdrawSwap
    t.cal.swap = none ∧ t.stored pgCALS Reg.CALS.SWAP_STAT_PENDING = 0 ∧
      t.stored pgCALS Reg.CALS.ABORT_CNT = s.stored pgCALS Reg.CALS.ABORT_CNT + 1 ∧
      (t.rd pgCALS Reg.HDR.EVT_PENDING.off).getLsbD 1 = true := by
  obtain ⟨none, count, event⟩ := State.swapAborted_leaves (w := w) below
  obtain ⟨shown, cal, pending⟩ := State.showSwap_none none
  obtain ⟨passed, swap', pending'⟩ := State.withdrawSwap_passed swap open_
  have regs := shown.regs.trans passed.regs
  have kept {o : Nat} (h : o ≠ Reg.CALS.SWAP_STAT.off) : ¬PassReg pgCALS o := by
    rintro (⟨-, off⟩ | ⟨page, -⟩)
    · exact h off
    · exact absurd page (by decide)
  refine ⟨swap'.trans ((congrArg CalSt.swap cal).trans none), pending'.trans pending,
    (regs.stored (kept (by decide)) (by decide)).trans count, ?_⟩
  rw [(regs.same pgCALS Reg.HDR.EVT_PENDING.off (by decide) (kept (by decide))).1]
  exact event

/-- Where it commits, SWAP_STAT alone shows it (R215). -/
theorem State.commitSwap_commits (swap : s.cal.swap = some w) (open_ : w.committed = false) (restores : w.restoring = false)
    (quiet : w.quiet = false) (due : s.frame + 2 = w.frame) (present : s.pwr (pgTILE w.tile) ≠ 0) (admitted : s.swapAdmitted = true)
    (space : ∀ c, (s.conc c).merging = true → s.flag (pgCORR c) Reg.CORR.STAGE_STATUS_FULL = false) :
    s.commitSwap = ({ s with cal := { s.cal with swap := some { w with committed := true } } } : State).showSwap := by
  have full : (concs.any fun c => (s.conc c).merging && s.flag (pgCORR c) Reg.CORR.STAGE_STATUS_FULL) = false := by
    simp only [List.any_eq_false, Bool.and_eq_true, not_and]
    exact fun c _ merging => by rw [space c merging]; exact Bool.false_ne_true
  simp only [State.commitSwap, swap, open_, restores, due, full, beq_eq_false_iff_ne.2 present, admitted, ne_eq, not_true, decide_false,
    Bool.or_self, Bool.false_eq_true, if_false, Bool.not_true, Bool.not_false, Bool.and_false, Bool.false_and, quiet]

theorem State.commitSwap_withdraws (swap : s.cal.swap = some w) (open_ : w.committed = false) (restores : w.restoring = false)
    (due : s.frame + 2 = w.frame) (bad : s.pwr (pgTILE w.tile) = 0 ∨ s.swapAdmitted = false ∨
      ∃ c, (s.conc c).merging = true ∧ s.flag (pgCORR c) Reg.CORR.STAGE_STATUS_FULL = true) : s.commitSwap = s.withdrawSwap := by
  have fails : ((concs.any fun c => (s.conc c).merging && s.flag (pgCORR c) Reg.CORR.STAGE_STATUS_FULL) ||
      (!w.restoring && (s.pwr (pgTILE w.tile) == 0 || !s.swapAdmitted))) = true := by
    rcases bad with gone | denied | ⟨c, merging, full⟩
    · simp [gone, restores]
    · simp [denied, restores]
    · have any : (concs.any fun c => (s.conc c).merging && s.flag (pgCORR c) Reg.CORR.STAGE_STATUS_FULL) = true :=
        List.any_eq_true.2 ⟨c, by cases c <;> decide, by rw [merging, full]; rfl⟩
      rw [any, Bool.true_or]
  simp only [State.commitSwap, swap, open_, due, ne_eq, not_true, decide_false, Bool.or_self, Bool.false_eq_true, if_false, fails, if_true]

/-- A committed swap is shown as such. -/
theorem State.showSwap_committed {v : PendingSwap} (swap : s.cal.swap = some v) (committed : v.committed = true) :
    s.showSwap.stored pgCALS Reg.CALS.SWAP_STAT_COMMITTED = 1 ∧
      s.RegsBut (fun q o => (q, o) ∈ [(pgCALS, Reg.CALS.SWAP_STAT.off)]) s.showSwap := by
  have eq : s.showSwap = ((s.putB pgCALS Reg.CALS.SWAP_STAT_PENDING true).putB pgCALS Reg.CALS.SWAP_STAT_COMMITTED true).putB pgCALS
      Reg.CALS.SWAP_STAT_BY_HOST v.byHost := by
    simp only [State.showSwap, swap, Option.isSome_some, Option.map_some, Option.getD_some, committed]
  rw [eq]
  constructor
  · refine (State.stored_put_apart (f := Reg.CALS.SWAP_STAT_BY_HOST) (g := Reg.CALS.SWAP_STAT_COMMITTED) rfl (by decide) (by decide)
      (by decide) (by decide) (by decide) ..).trans ?_
    exact State.stored_putB_same (f := Reg.CALS.SWAP_STAT_COMMITTED) (by decide) (by decide) _ pgCALS true
  · exact ((State.regsBut_putB (f := Reg.CALS.SWAP_STAT_PENDING) List.mem_cons_self (by decide) s _).trans
      (State.regsBut_putB (f := Reg.CALS.SWAP_STAT_COMMITTED) List.mem_cons_self (by decide) _ _)).trans
        (State.regsBut_putB (f := Reg.CALS.SWAP_STAT_BY_HOST) List.mem_cons_self (by decide) _ _)

end

end Sys2Proof.Machine
end

section
/-!
PROOFS. The family of merge and correction: swaps take effect (R116, R217, R219).
-/

namespace Sys2Proof.Machine

/-! ### The swap takes effect (R116, R217) -/

section

variable {s : State} {w : PendingSwap}

/-- The swap's tile installs its staged tables and parity toggles. -/
def State.swapTile (s : State) (w : PendingSwap) : State := (s.installTile w.tile).toggleParity w.tile

/-- The concentrators install their staged entries, and the peal epoch steps. -/
def State.swapCorr (s : State) (f e : Nat) : State := (s.each concs (fun s c => s.installCorr c f e)).stepEpoch f e

/-- The swap is counted. -/
def State.swapCounted (s : State) (w : PendingSwap) (e : Nat) : State :=
  (((s.swapTile w).swapCorr w.frame e).bump pgCALS Reg.CALS.SWAP_CNT 0).event pgCALS 0

theorem State.swapBoundary_passed {e : Nat} (swap : s.cal.swap = some w) (committed : w.committed = true) (due : w.frame ≤ s.frame)
    (quiet : w.quiet = false) (present : s.pwr (pgTILE w.tile) ≠ 0) (he : e = (s.epochNow + 1) % 65536) :
    ∃ u, (s.swapCounted w e).SwapPassed u ∧ u.cal.swap = none ∧ u.showSwap.TurnPassed s.swapBoundary := by
  have on : (!w.quiet && s.pwr (pgTILE w.tile) != 0) = true := by simp [quiet, present]
  have now : (w.committed && decide (w.frame ≤ s.frame)) = true := by simp [committed, due]
  obtain ⟨t, ht⟩ : ∃ t, t = s.swapBoundary := ⟨_, rfl⟩
  rw [← ht]
  unfold State.swapBoundary at ht
  rw [swap] at ht
  dsimp -zeta only at ht
  rw [if_pos now] at ht
  extract_lets f e' on' pages inst new corr counted noted kept fitted mine src ended shown at ht
  have installed : inst = s.swapTile w := if_pos on
  have count : counted = s.swapCounted w e := by
    rw [he, State.swapCounted, ← installed]
    rfl
  have note (u : State) (p n : Nat) : u.SwapPassed (u.noteChange p n) :=
    .of_only (State.noteChange_only (L := 137438953472) (.refl u) p n (by decide)) (.of rfl rfl)
  have h₁ : counted.SwapPassed noted := State.each_keeps (P := fun t => counted.SwapPassed t) (fun u p _ k => k.trans (note u p _))
    (counted.turnPassed_journalSwap ..).passed
  have h₂ : noted.SwapPassed kept := by
    have parts := State.persistTables_only (L := 7696614948864) (.refl noted) w.tile (on' && !pages.isEmpty) new (by decide)
    exact .of_only parts (.of (parts.regs rfl) (parts.stale rfl))
  have h₃ : kept.SwapPassed fitted := by
    have fit (r : CalResult) : kept.SwapPassed (kept.setFitEpoch r.accepted e') := (State.turnPassed_cal kept (kept.setFitEpoch r.accepted e').cal rfl).passed
    simp only [fitted]
    split
    · exact fit _
    · exact .refl kept
  have h₄ : fitted.SwapPassed ended :=
    ⟨rfl, rfl, rfl, rfl, fun c => by cases c <;> rfl, fun c => by cases c <;> rfl, fun c => by cases c <;> rfl, .of rfl rfl⟩
  refine ⟨ended, count ▸ ((h₁.trans h₂).trans h₃).trans h₄, rfl, ?_⟩
  rw [ht]
  split
  · exact State.turnPassed_afterSwap ..
  · exact .refl _

end

section

variable {s : State} {w : PendingSwap}

/-- A tile installs its maps; its concentrators are as they were (R70). -/
theorem State.installTile_leaves (s : State) (tl : Fin 16) :
    (s.installTile tl).tac = (s.tacStaged.filter (fun x => x.1 / 4096 == tl.val)).foldl (fun m x => mapPutD 0 x.1 x.2 m) s.tac ∧
      s.RegsBut (fun q _ => q ∈ [pgTDC tl]) (s.installTile tl) := by
  unfold State.installTile
  extract_lets pg mine new u maps
  have event (v : State) : v.RegsBut (fun q _ => q ∈ [pgTDC tl]) (v.event pg 2) := State.regsBut_event List.mem_cons_self v 2
  have put (v : State) (x : Nat × Word) : v.RegsBut (fun q _ => q ∈ [pgTDC tl]) (v.put pg ⟨x.1 % 4096, 15, 0⟩ (x.2.toNat % 65536)) :=
    State.regsBut_put (f := ⟨x.1 % 4096, 15, 0⟩) List.mem_cons_self (Nat.mod_lt _ (by decide)) v _
  have taps : s.RegsBut (fun q _ => q ∈ [pgTDC tl]) u := .ite (.refl s) (.ite (.each (fun v x _ => put v x) s) (event s))
  have parts : s.Only 88 u := by
    refine .ite (.refl s) (.ite ?_ (State.event_only (.refl s) _ _ (by decide)))
    exact State.each_keeps (P := fun t => s.Only 88 t) (fun t x _ k => State.put_only k _ _ _ (by decide)) (.refl s)
  have staged : u.tacStaged = s.tacStaged := parts.tacStaged rfl
  refine ⟨?_, taps.trans (.of rfl rfl)⟩
  simp only [maps, staged, parts.tac rfl]

/-- Parity toggles in the tile and in both concentrators (R217). -/
theorem State.toggleParity_leaves (s : State) (tl : Fin 16) :
    let t := s.toggleParity tl
    (t.tile tl).parity = !(s.tile tl).parity ∧ (∀ u, u ≠ tl → t.tile u = s.tile u) ∧
      (∀ c, t.conc c = { s.conc c with rx := (s.conc c).rx.set tl { s.rx c tl with parity := !(s.rx c tl).parity } }) ∧
      ∀ P, s.RegsBut P t := by
  obtain ⟨v, hv⟩ : ∃ v, v = s.setTile tl { s.tile tl with parity := !(s.tile tl).parity } := ⟨_, rfl⟩
  have eq : s.toggleParity tl = (v.setRx .a tl { v.rx .a tl with parity := !(v.rx .a tl).parity }).setRx .b tl
      { v.rx .b tl with parity := !(v.rx .b tl).parity } := by
    rw [hv]
    rfl
  have conc (c : Conc) : v.conc c = s.conc c := by rw [hv, State.setTile_conc]
  intro t
  rw [show t = _ from eq]
  refine ⟨?_, fun u hu => ?_, fun c => ?_, fun P => ?_⟩
  · rw [State.setRx_tile, State.setRx_tile, hv, State.setTile_tile_same]
  · rw [State.setRx_tile, State.setRx_tile, hv, State.setTile_tile_ne hu]
  · rw [← conc c, show s.rx c tl = v.rx c tl by rw [State.rx, State.rx, conc]]
    cases c <;> rfl
  · exact ((hv ▸ State.regsBut_setTile ..).trans (State.regsBut_setRx ..)).trans (State.regsBut_setRx ..)

/-- A concentrator that stages installs what is staged there (R116, R217). -/
def ConcSt.swapped (cs : ConcSt) (f e : Nat) : ConcSt :=
  if cs.stages then { cs.install (cs.installs e) f with corrStaged := [], stagedBad := [] } else cs

theorem State.installCorr_leaves (s : State) (c : Conc) (f e : Nat) :
    s.ConcMoves (s.installCorr c f e) c ((s.conc c).swapped f e) ∧ s.RegsBut (fun q _ => q ∈ [pgCORR c]) (s.installCorr c f e) ∧
      ((s.conc c).stages = true → e < 2 ^ 16 → (s.installCorr c f e).stored (pgCORR c) Reg.CORR.SWAP_EPOCH_EPOCH = e) := by
  unfold State.installCorr ConcSt.swapped
  extract_lets cs new src u
  split
  · have moves : s.ConcMoves u c { cs.install new f with corrStaged := [], stagedBad := [] } := State.concMoves_setConc ..
    have full := State.regsBut_putB (P := fun q _ => q ∈ [pgCORR c]) (f := Reg.CORR.STAGE_STATUS_FULL) List.mem_cons_self (by decide) u false
    have count (v : State) : v.RegsBut (fun q _ => q ∈ [pgCORR c]) (v.showStaged c) :=
      State.regsBut_put (f := Reg.CORR.STAGE_STATUS_COUNT) List.mem_cons_self (by decide) v _
    have epoch (v : State) : v.RegsBut (fun q _ => q ∈ [pgCORR c]) (v.put (pgCORR c) Reg.CORR.SWAP_EPOCH_EPOCH e) :=
      State.regsBut_put List.mem_cons_self (by decide) v e
    have event (v : State) : v.RegsBut (fun q _ => q ∈ [pgCORR c]) (v.event (pgCORR c) 0) := State.regsBut_event List.mem_cons_self v 0
    refine ⟨moves.then fun d => ?_, ((((State.regsBut_setConc ..).trans full).trans (count _)).trans (epoch _)).trans (event _),
      fun _ small => ?_⟩
    · rw [State.event_conc, State.put_conc, State.showStaged, State.put_conc, State.putB_conc]
    · rw [State.stored_event_ne (regKey_ne_off (by decide)), State.stored_put_same (by decide) (by decide)]
      exact Nat.mod_eq_of_lt small
  · exact ⟨.refl s c, .refl s, fun stages => absurd stages ‹_›⟩

end

theorem pgTDC_ne_pgCALS : ∀ tl : Fin 16, pgTDC tl ≠ pgCALS := by decide

section

variable {s : State} {w : PendingSwap}

/-- Both concentrators install, and the peal epoch steps from the swap's frame on (R217, R385). -/
theorem State.swapCorr_leaves (s : State) (f : Nat) {e : Nat} (small : e < 2 ^ 16) :
    let t := s.swapCorr f e
    (∀ c, t.conc c = (s.conc c).swapped f e) ∧
      (∀ c, (s.conc c).stages = true → t.stored (pgCORR c) Reg.CORR.SWAP_EPOCH_EPOCH = e) ∧
      t.stored pgJRNL Reg.JRNL.PEAL_STAT_EPOCH = e ∧ t.savedEpoch = e ∧ (∀ x ∈ t.frames, f ≤ x.1 → x.2.pealEpoch = e) ∧
      t.tiles = s.tiles ∧ t.tac = s.tac ∧
      s.RegsBut (fun q o => q ∈ [pgCORR .a, pgCORR .b] ∨ (q, o) ∈ [(pgJRNL, Reg.JRNL.PEAL_STAT.off)]) t := by
  obtain ⟨movesA, regsA, epochA⟩ := s.installCorr_leaves .a f e
  obtain ⟨movesB, regsB, epochB⟩ := (s.installCorr .a f e).installCorr_leaves .b f e
  have partsA := State.installCorr_only (L := 24664) (.refl s) .a f e (by decide)
  have partsB := State.installCorr_only (L := 24664) (.refl (s.installCorr .a f e)) .b f e (by decide)
  have beforeB : (s.installCorr .a f e).conc .b = s.conc .b := movesA.other
  have afterA : ((s.installCorr .a f e).installCorr .b f e).conc .a = (s.installCorr .a f e).conc .a := movesB.other
  rw [beforeB] at movesB epochB
  obtain ⟨u, hu⟩ : ∃ u, u = (s.installCorr .a f e).installCorr .b f e := ⟨_, rfl⟩
  have eq : s.swapCorr f e = u.stepEpoch f e := by rw [hu]; rfl
  have stepped : u.RegsBut (fun q o => (q, o) ∈ [(pgJRNL, Reg.JRNL.PEAL_STAT.off)]) (u.stepEpoch f e) := by
    refine State.RegsBut.trans ?_ (State.regsBut_put (f := Reg.JRNL.PEAL_STAT_EPOCH) List.mem_cons_self (by decide) _ e)
    exact .of rfl rfl
  have conc (c : Conc) : (u.stepEpoch f e).conc c = u.conc c := (State.put_conc ..).trans (by cases c <;> rfl)
  rw [← hu] at movesB epochB regsB partsB afterA
  intro t
  rw [show t = _ from eq]
  refine ⟨fun c => ?_, fun c stages => ?_, ?_, ?_, fun x hx hf => ?_, ?_, ?_, ?_⟩
  · rw [conc]
    cases c
    · exact afterA.trans movesA.own
    · exact movesB.own
  · rw [stepped.stored (by cases c <;> decide) (by decide)]
    cases c
    · exact (regsB.stored (by decide) (by decide)).trans (epochA stages small)
    · exact epochB stages small
  · exact (State.stored_put_same (by decide) (by decide) ..).trans (Nat.mod_eq_of_lt small)
  · exact State.put_savedEpoch ..
  · have frames : (u.stepEpoch f e).frames = u.frames.map (fun x => if f ≤ x.1 then (x.1, { x.2 with pealEpoch := e }) else x) :=
      State.put_frames ..
    rw [frames] at hx
    obtain ⟨y, -, rfl⟩ := List.mem_map.1 hx
    by_cases new : f ≤ y.1
    · rw [if_pos new]
    · rw [if_neg new] at hf
      exact absurd hf new
  · exact (State.put_tiles ..).trans ((partsB.tiles rfl).trans (partsA.tiles rfl))
  · exact (State.put_tac ..).trans ((partsB.tac rfl).trans (partsA.tac rfl))
  · exact ((regsA.mono fun q o h => .inl (by simp_all)).trans (regsB.mono fun q o h => .inl (by simp_all))).trans
      (stepped.mono fun q o h => .inr h)

/-- What a concentrator that stages has in force after the swap. -/
theorem ConcSt.swapped_corr {cs : ConcSt} (stages : cs.stages = true) (f e : Nat) :
    (cs.swapped f e).corrStaged = [] ∧
      (cs.swapped f e).corr = (cs.corrStaged.filter (fun x => !cs.stagedBad.contains x.1)).foldl
        (fun m x => mapPutD 0 x.1 (entrySet x.2 15 0 e) m) cs.corr := by
  have eq : cs.swapped f e = { cs.install (cs.installs e) f with corrStaged := [], stagedBad := [] } := if_pos stages
  have new : cs.installs e = (cs.corrStaged.filter (fun x => !cs.stagedBad.contains x.1)).map (fun x => (x.1, entrySet x.2 15 0 e)) :=
    if_pos stages
  rw [eq]
  refine ⟨rfl, ?_⟩
  simp only [ConcSt.install, new, List.foldl_map]

theorem ConcSt.swapped_rx (cs : ConcSt) (f e : Nat) : (cs.swapped f e).rx = cs.rx := by
  unfold ConcSt.swapped
  split <;> rfl

/-- The swap is counted with its event, and nothing that it has installed changes. -/
theorem State.swapCounted_leaves {e : Nat} (small : e < 2 ^ 16) (below : s.stored pgCALS Reg.CALS.SWAP_CNT < 2 ^ 32 - 1) :
    let t := s.swapCounted w e
    (t.tile w.tile).parity = !(s.tile w.tile).parity ∧ (∀ u, u ≠ w.tile → t.tile u = s.tile u) ∧
      (∀ c, (t.rx c w.tile).parity = !(s.rx c w.tile).parity) ∧
      t.stored pgJRNL Reg.JRNL.PEAL_STAT_EPOCH = e ∧ t.savedEpoch = e ∧ (∀ x ∈ t.frames, w.frame ≤ x.1 → x.2.pealEpoch = e) ∧
      t.tac = (s.tacStaged.filter (fun x => x.1 / 4096 == w.tile.val)).foldl (fun m x => mapPutD 0 x.1 x.2 m) s.tac ∧
      (∀ c, (s.conc c).stages = true → (t.conc c).corrStaged = [] ∧ t.stored (pgCORR c) Reg.CORR.SWAP_EPOCH_EPOCH = e ∧
        (t.conc c).corr = ((s.conc c).corrStaged.filter (fun x => !(s.conc c).stagedBad.contains x.1)).foldl
          (fun m x => mapPutD 0 x.1 (entrySet x.2 15 0 e) m) (s.conc c).corr) ∧
      t.stored pgCALS Reg.CALS.SWAP_CNT = s.stored pgCALS Reg.CALS.SWAP_CNT + 1 ∧
      (t.rd pgCALS Reg.HDR.EVT_PENDING.off).getLsbD 0 = true := by
  obtain ⟨tac, tdc⟩ := s.installTile_leaves w.tile
  have installed := State.installTile_only (L := 7768) (.refl s) w.tile (by decide)
  obtain ⟨parity, others, conc, toggled⟩ := (s.installTile w.tile).toggleParity_leaves w.tile
  have tac' : (s.swapTile w).tac = (s.installTile w.tile).tac :=
    (State.toggleParity_only (L := 24832) (.refl (s.installTile w.tile)) w.tile (by decide)).tac rfl
  obtain ⟨swapped, epochs, epoch, saved, frames, tiles, tacs, regs⟩ := (s.swapTile w).swapCorr_leaves w.frame small
  rw [installed.sameTile] at parity
  have conc' (c : Conc) : (s.swapTile w).conc c = { s.conc c with
      rx := (s.conc c).rx.set w.tile { s.rx c w.tile with parity := !(s.rx c w.tile).parity } } := by
    rw [← installed.conc c, show s.rx c w.tile = (s.installTile w.tile).rx c w.tile by rw [State.rx, State.rx, installed.conc c]]
    exact conc c
  have count : ((s.swapTile w).swapCorr w.frame e).stored pgCALS Reg.CALS.SWAP_CNT = s.stored pgCALS Reg.CALS.SWAP_CNT := by
    have apart : pgCALS ∉ [pgTDC w.tile] := by simp [(pgTDC_ne_pgCALS w.tile).symm]
    rw [regs.stored (by decide) (by decide)]
    exact (tdc.trans (toggled _)).stored apart (by decide)
  obtain ⟨t, ht⟩ : ∃ t, t = s.swapCounted w e := ⟨_, rfl⟩
  have parts : ((s.swapTile w).swapCorr w.frame e).Only 88 t := by
    rw [ht]
    exact State.event_only (State.bump_only (.refl _) _ _ _ _ (by decide)) _ _ (by decide)
  have counted : ((s.swapTile w).swapCorr w.frame e).RegsBut (fun q _ => q ∈ [pgCALS]) t := by
    rw [ht]
    exact (State.regsBut_bump List.mem_cons_self List.mem_cons_self (by decide) _ 0 1).trans (State.regsBut_event List.mem_cons_self ..)
  have cnt : t.stored pgCALS Reg.CALS.SWAP_CNT = s.stored pgCALS Reg.CALS.SWAP_CNT + 1 := by
    rw [ht, State.swapCounted, State.stored_event_ne (regKey_ne_off (by decide)),
      State.stored_bump_below (by decide) (by decide) (by rw [count]; show _ < 2 ^ 32; omega), count]
  have event : (t.rd pgCALS Reg.HDR.EVT_PENDING.off).getLsbD 0 = true := by
    rw [ht]
    exact State.event_pends (by decide) ..
  have tile (u : Fin 16) : t.tile u = (s.swapTile w).tile u :=
    (parts.sameTile u).trans (congrArg (fun v : Vector Tile 16 => v[u]) tiles)
  have after (c : Conc) := (parts.conc c).trans (swapped c)
  intro t'
  rw [show t' = t from ht.symm]
  refine ⟨?_, fun u hu => ?_, fun c => ?_, ?_, (parts.savedEpoch rfl).trans saved, ?_, ?_, fun c stages => ?_, cnt, event⟩
  · rw [tile]
    exact parity
  · rw [tile]
    exact (others u hu).trans (installed.sameTile u)
  · rw [State.rx, after, ConcSt.swapped_rx, conc']
    exact congrArg Rx.parity (Vector.getElem_set_self ..)
  · rw [counted.stored (by decide) (by decide), epoch]
  · rw [parts.frames rfl]
    exact frames
  · rw [parts.tac rfl, tacs, tac', tac]
  · have stages' : ((s.swapTile w).conc c).stages = true := by
      rw [conc']
      exact stages
    obtain ⟨staged, entries⟩ := ConcSt.swapped_corr stages' w.frame e
    refine ⟨(congrArg ConcSt.corrStaged (after c)).trans staged, ?_, ?_⟩
    · rw [counted.stored (by cases c <;> decide) (by decide)]
      exact epochs c stages'
    · rw [after, entries, conc']

end

/-- Settles O47: a swap that commits changes SWAP_STAT, one that does not is withdrawn (`State.withdrawSwap_leaves`); one that takes effect
installs in the tile and in both concentrators, and what follows leaves that as it is (`State.swapBoundary_passed`). -/
theorem swapsCommitAndTakeEffect : Obligations.SwapsCommitAndTakeEffect := by
  unfold Obligations.SwapsCommitAndTakeEffect
  constructor
  · intro s w bad on swap open_ restores quiet due below
    by_cases fails : bad
    · have row := (exec_swapCommit on).trans (congrArg _ (State.commitSwap_withdraws swap open_ restores due fails))
      exact ⟨_, row, fun good => absurd fails good, fun _ => State.withdrawSwap_leaves swap open_ below⟩
    · have space (c : Conc) (merging : (s.conc c).merging = true) : s.flag (pgCORR c) Reg.CORR.STAGE_STATUS_FULL = false :=
        Bool.eq_false_iff.2 fun full => fails (.inr (.inr ⟨c, merging, full⟩))
      have row := (exec_swapCommit on).trans (congrArg _ (State.commitSwap_commits swap open_ restores quiet due
        (fun gone => fails (.inl gone)) (Bool.not_eq_false _ ▸ fun denied => fails (.inr (.inl denied))) space))
      obtain ⟨shown, regs⟩ := State.showSwap_committed (s := { s with cal := { s.cal with swap := some { w with committed := true } } })
        rfl rfl
      have parts : s.Only 8388632 ({ s with cal := { s.cal with swap := some { w with committed := true } } } : State).showSwap :=
        State.showSwap_only (State.Only.of (.refl s) (cal := .inl (by decide))) (by decide)
      have cal := (State.showSwap_only (L := 24) (.refl { s with cal := { s.cal with swap := some { w with committed := true } } })
        (by decide)).cal rfl
      exact ⟨_, row, fun _ => ⟨cal, shown, regs.same, parts.changes (by decide)⟩, fun bads => absurd bads fails⟩
  · intro s w e on swap committed quiet due present below
    have small : e < 2 ^ 16 := Nat.mod_lt _ (by decide)
    obtain ⟨u, passed, none, turn⟩ := State.swapBoundary_passed swap committed due quiet present rfl
    obtain ⟨shown, cal, pending⟩ := State.showSwap_none none
    have all := (passed.trans shown).trans turn.passed
    obtain ⟨parity, others, rx, epoch, saved, frames, tac, corr, count, event⟩ := State.swapCounted_leaves (w := w) small below
    have reg {q o : Nat} (h : q ≠ pgJRNL ∨ o ∉ [Reg.JRNL.HEAD.off, Reg.JRNL.TAIL.off, Reg.JRNL.MIRROR_TAIL.off])
        (h' : q ≠ pgCALS ∨ o ≠ Reg.CALS.SWAP_STAT.off) : ¬PassReg q o := by
      rintro (⟨page, off⟩ | ⟨page, off⟩)
      · exact h'.elim (· page) (· off)
      · exact h.elim (· page) (· off)
    have tile (u : Fin 16) : s.swapBoundary.tile u = (s.swapCounted w e).tile u := congrArg (fun v : Vector Tile 16 => v[u]) all.tiles
    refine ⟨_, exec_swapBoundary on, turn.swap.trans ((congrArg CalSt.swap cal).trans none), turn.pending.trans pending, ?_, fun c => ?_,
      fun v hv => (tile v).trans (others v hv), ?_, all.epoch.trans saved, ?_, all.tac.trans tac, fun c stages => ?_, ?_, ?_⟩
    · rw [tile, parity]
    · rw [State.rx, all.rx]
      exact rx c
    · rw [all.regs.stored (reg (.inr (by decide)) (.inr (by decide))) (by decide), epoch]
    · rw [all.frames]
      exact frames
    · obtain ⟨staged, swapEpoch, entries⟩ := corr c stages
      refine ⟨(all.staged c).trans staged, ?_, (all.corr c).trans entries⟩
      rw [all.regs.stored (reg (.inl (by cases c <;> decide)) (.inl (by cases c <;> decide))) (by decide), swapEpoch]
    · rw [all.regs.stored (reg (.inl (by decide)) (.inr (by decide))) (by decide), count]
    · rw [(all.regs.same pgCALS Reg.HDR.EVT_PENDING.off (by decide) (reg (.inl (by decide)) (.inr (by decide)))).1]
      exact event

end Sys2Proof.Machine
end

section
/-!
PROOFS. The family of merge and correction: the CORR window is staged, and staged values are discarded (R137, R138, R406).
-/

namespace Sys2Proof.Machine

/-! ### A write that is answered OK -/

/-- The row of a write that is taken and answered OK in state `z`: `M` has the parts that the write changes. -/
theorem exec_write_ok {c : Instr} {s z : State} {h : UHdr} {p o : Nat} {v : Word} (row : s.commandOf c = some (h, .write p o v, {}))
    (takes : s.takes h (.write p o v) = true) (running : s.running = true) (hj : p ≠ pgJRNL) (ho : o < 4096)
    (run : (s.counted h).cmdWrite h p o v false (UCmd.write p o v).words =
      { result := resOK, state := z, pages := [(p, resOK)], rwl := false })
    {M : Nat} (only : (s.counted h).Only M z) (regs : (s.counted h).RegsBut (fun q _ => q = p) z) (hM : M &&& 146834194501 = 0)
    {l : List Part} (hl : (allBut (answering ++ .saved :: l)).all (fun p => !(146834194521 ||| M).testBit p.bit) = true) :
    ∃ t, exec c s = .next t ∧ State.Lands.Acts s t z h p o v l := by
  have bit (i : Nat) (hi : (146834194501 : Nat).testBit i = true) : M.testBit i = false := by
    have := congrArg (·.testBit i) hM
    simpa [Nat.testBit_land, hi] using this
  obtain ⟨t, step, fin⟩ := exec_takes row takes rfl (by
    show ((s.counted h).cmdWrite h p o v false _).state.running = true
    rw [run]
    exact (only.running (bit 2 (by decide))).trans ((s.counted_running h).trans running))
  rw [show (s.counted h).runCmd h (.write p o v) _ {} = _ from run] at fin
  have whole : s.Only (146834194521 ||| M) t :=
    (((State.answered_counted s h).only (L := 146834194521) (by decide)).mono.trans
      (Nat.lor_comm M 146834194521 ▸ only.mono)).trans (fin.answered.only (L := 146834194521) (by decide)).mono
  have answer := fin.answers rfl (only.um (bit 28 (by decide)) (bit 29 (by decide)) _)
  have head : z.rd pgJRNL Reg.JRNL.HEAD.off = (s.counted h).rd pgJRNL Reg.JRNL.HEAD.off :=
    (regs.same pgJRNL _ (by decide) hj.symm).1
  have entry := fin.entry (l := (p, o, digestOf v, 0)) (congrArg (fun o => some (p, o, digestOf v, 0)) (Nat.mod_eq_of_lt ho))
    (only.journal (bit 33 (by decide))) (only.now (bit 0 (by decide))) head
  refine ⟨t, step, ⟨fun dest => ?_, entry, whole.changes hl⟩, fin.answered, fun f hf hm hn => ?_⟩
  · rw [← State.counted_um s h]
    exact answer dest
  · exact (fin.reg p f.off hf (by simp [answerKeys, hm, hn])).stored

/-! ### The CORR window (R137, R138) -/

theorem pageKind_pgCORR : ∀ c, pageKind (pgCORR c) = some .corr := by rintro ⟨⟩ <;> decide
theorem concOf_pgCORR : ∀ c, concOf (pgCORR c) = c := by rintro ⟨⟩ <;> decide
theorem pgCORR_page : ∀ c, pgCORR c / 256 ≠ 0x20 ∧ pgCORR c ≠ pgJRNL ∧ pgCORR c ≠ pgMOD ∧ pgCORR c ≠ pgFWU ∧ pgCORR c ≠ 5 ∧
    pgCORR c ≠ 6 := by rintro ⟨⟩ <;> decide

/-- Each word of the window can be written. -/
theorem regAt_corrWindow (c : Conc) {o : Nat} (lo : 0x400 ≤ o) (hi : o < 0x800) (aligned : o % 4 = 0) :
    ∃ d, regAt (pgCORR c) o = some d ∧ d.canWrite = true := by
  refine ⟨⟨0x400, 256, 4, 0, [⟨31, 0, .rws, .none⟩]⟩, ?_, rfl⟩
  have covered : RegDef.covers ⟨0x400, 256, 4, 0, [⟨31, 0, .rws, .none⟩]⟩ o = true := by
    simp only [RegDef.covers, Bool.and_eq_true, decide_eq_true_eq, beq_iff_eq]
    omega
  have below (x : RegDef) (h : x.base + x.count * x.stride ≤ 0x400) : x.covers o = false := by
    simp only [RegDef.covers, Bool.and_eq_false_iff, decide_eq_false_iff_not]
    omega
  have found : regDefAt .corr o = some ⟨0x400, 256, 4, 0, [⟨31, 0, .rws, .none⟩]⟩ := by
    rw [regDefAt, if_neg (by omega)]
    simp (disch := decide) only [kindRegs, regs_corr, List.find?, below, covered]
  simp only [regAt, pageKind_pgCORR, aligned, found, show ¬4096 ≤ o by omega, show o ≠ 0x010 by omega, ne_eq, not_true, or_self, if_false,
    decide_false, Bool.false_and, Bool.false_eq_true, reduceCtorEq, false_and]

theorem State.pulseNow_corrWindow {s : State} {by_ : StickCmd} {p o : Nat} {v : Word} {free : Bool} (h : 0x400 ≤ o) :
    s.pulseNow .corr by_ p o v free = s := by
  have low : o ≠ 0x028 ∧ o ≠ 0x048 := by omega
  simp [State.pulseNow, low]

section

variable {s : State} {c : Conc} {chan : Nat} {e : BitVec 128}

/-- The concentrator with an entry staged. -/
def ConcSt.staged (x : ConcSt) (chan : Nat) (e : BitVec 128) : ConcSt :=
  { x with corrStaged := mapPut chan e x.corrStaged, stagedBad := x.stagedBad.filter (· != chan) }

theorem State.stageEntry_eq (room : (s.conc c).stageFull chan = false) :
    s.stageEntry c chan e = (s.setConc c ((s.conc c).staged chan e)).showStaged c := if_neg (by rw [room]; exact Bool.false_ne_true)

theorem State.showStaged_leaves (s : State) (c : Conc) :
    s.RegsBut (fun q _ => q = pgCORR c) (s.showStaged c) ∧ (∀ d, (s.showStaged c).conc d = s.conc d) ∧ s.Only 24 (s.showStaged c) ∧
      (s.showStaged c).stored (pgCORR c) Reg.CORR.STAGE_STATUS_COUNT = (s.conc c).corrStaged.length % 2 ^ 13 :=
  ⟨State.regsBut_put (P := fun q _ => q = pgCORR c) (f := Reg.CORR.STAGE_STATUS_COUNT) rfl (by decide) .., fun d => State.put_conc ..,
    State.showStaged_only (.refl s) c (by decide),
    State.stored_put_same (f := Reg.CORR.STAGE_STATUS_COUNT) (by decide) (by decide) ..⟩

/-- STAGE_CLR empties the staging store and clears FULL. -/
theorem State.stageClr_leaves (s : State) (c : Conc) :
    let t := s.stageClr c
    t.conc c = { s.conc c with corrStaged := [], stagedBad := [] } ∧ t.conc c.other = s.conc c.other ∧
      t.stored (pgCORR c) Reg.CORR.STAGE_STATUS_COUNT = 0 ∧ t.stored (pgCORR c) Reg.CORR.STAGE_STATUS_FULL = 0 := by
  obtain ⟨u, hu⟩ : ∃ u, u = (s.setConc c { s.conc c with corrStaged := [], stagedBad := [] }).putB (pgCORR c)
    Reg.CORR.STAGE_STATUS_FULL false := ⟨_, rfl⟩
  have eq : s.stageClr c = u.showStaged c := by rw [hu]; rfl
  have moves : s.ConcMoves u c { s.conc c with corrStaged := [], stagedBad := [] } :=
    hu ▸ (s.concMoves_setConc c _).then fun d => State.putB_conc ..
  obtain ⟨-, shown, -, count⟩ := u.showStaged_leaves c
  have full : u.stored (pgCORR c) Reg.CORR.STAGE_STATUS_FULL = 0 := hu ▸ State.stored_putB_same (by decide) (by decide) ..
  rw [eq]
  refine ⟨(shown c).trans moves.own, (shown c.other).trans moves.other, ?_, ?_⟩
  · rw [count, moves.own]
    rfl
  · exact (State.stored_put_apart (f := Reg.CORR.STAGE_STATUS_COUNT) (g := Reg.CORR.STAGE_STATUS_FULL) rfl (by decide) (by decide)
      (by decide) (by decide) (by decide) ..).trans full

/-- A write of a word of the window, as a command, stages its channel's entry. -/
theorem State.cmdWrite_stages {h : UHdr} {p o : Nat} {v : Word} {body : List Word} {d : RegDef} (recovery : s.recovery = false)
    (alone : s.writePages p o = [p]) (hp : p / 256 ≠ 0x20) (kind : pageKind p = some .corr) (reg : regAt p o = some d)
    (can : d.canWrite = true) (on : s.dieOff p = false) (window : 0x400 ≤ o)
    (room : (s.conc (concOf p)).stageFull (s.corrChan p o) = false) :
    s.cmdWrite h p o v false body =
      { result := resOK, pages := [(p, resOK)], rwl := false, state := s.stageEntry (concOf p) (s.corrChan p o)
          (entryPut ((s.conc (concOf p)).entryStaged (s.corrChan p o)) (o / 4 % 4) v) } := by
  have target : (targetKind p).isNone = false := by rw [targetKind, if_neg hp, kind]; rfl
  have one : joinResult (decide (p / 256 = 0x20)) [resOK] = resOK := by rw [decide_eq_false hp]; rfl
  have none (t : State) : t.countLocked resOK [(p, resOK)] = t := if_neg (by simp [resOK, resLOCKED])
  have page : s.writeOnePage p o v false = s.stageCorr (concOf p) (s.corrChan p o) (o / 4 % 4) v := by
    simp only [State.writeOnePage, kind, reg, can, on, Bool.not_true, Bool.false_and, Bool.false_eq_true, if_false, State.writeLive,
      window, and_self, if_true]
  have all : s.writeAll (s.hostStick h 0 false true body) p o v false =
      ([(p, (s.stageCorr (concOf p) (s.corrChan p o) (o / 4 % 4) v).1)],
        (s.stageCorr (concOf p) (s.corrChan p o) (o / 4 % 4) v).2) := by
    simp only [State.writeAll, alone, List.foldl_cons, List.foldl_nil, page, kind, List.nil_append, State.pulseNow_corrWindow window,
      ite_self]
  simp only [State.cmdWrite, target, recovery, all, State.stageCorr, room, Bool.false_and, Bool.or_false, Bool.false_eq_true, if_false,
    List.map_cons, List.map_nil, one, none]

end

/-! ### What a command finds as the state had it -/

section

variable (s : State) (h : UHdr)

theorem State.counted_recovery : (s.counted h).recovery = s.recovery :=
  congrArg (· == 3) (State.counted_stored (p := pgFWU) (by decide) s h (f := Reg.FWU.STAT_C_STATE) (by decide)).1

theorem State.counted_writePages (p o : Nat) : (s.counted h).writePages p o = s.writePages p o := by
  have mirror := (State.counted_stored (p := pgSTICK) (by decide) s h (f := Reg.STICK.CTRL_MIRROR) (by decide)).2
  rw [State.writePages, State.writePages, mirror]

theorem State.counted_conc (c : Conc) : (s.counted h).conc c = s.conc c := (s.answered_counted h).conc c

end

/-- A concentrator out of reset answers for its CORR page (R409). -/
theorem State.dieOff_pgCORR {s : State} {c : Conc} (run : (s.conc c).run ≠ .reset) : s.dieOff (pgCORR c) = false := by
  have page : isTilePage (pgCORR c) = false ∧ isConcPage (pgCORR c) = true := by cases c <;> decide
  simp only [State.dieOff, page, concOf_pgCORR, beq_eq_false_iff_ne.2 run, Bool.false_eq_true, if_false, if_true]

theorem State.corrChan_on {s : State} {p : Nat} (on : s.dieOff p = false) (o : Nat) :
    s.corrChan p o = s.stored p Reg.CORR.CORR_SEL_GROUP * 64 + (o - 0x400) / 16 := by
  simp only [State.corrChan, State.setting, on, Bool.false_eq_true, if_false]

/-! ### DISCARD of a tile's TDC page (R406) -/

theorem pageKind_pgTDC : ∀ t : Fin 16, pageKind (pgTDC t) = some .tdc := by decide

theorem pgTDC_page : ∀ t : Fin 16, pgTDC t / 256 ≠ 0x20 ∧ pgTDC t ≠ pgJRNL ∧ isConcPage (pgTDC t) = false ∧
    isTilePage (pgTDC t) = true ∧ pgTDC t % 256 = 1 ∧ tileOf (pgTDC t) = t := by decide

/-- What a discard of a page's staged values leaves staged. -/
def State.staysStaged (s : State) (tile : Fin 16) : State :=
  { s with tacStaged := s.tacStaged.filter (fun e => e.1 / 4096 != tile.val),
           rwsStaged := s.rwsStaged.filter (fun e => e.1 / 4096 != pgTDC tile) }

theorem State.discardStaged_pgTDC {s : State} {tile : Fin 16} (open_ : s.shadowCommitted (pgTDC tile) = false) :
    s.discardStaged (pgTDC tile) = s.staysStaged tile := by
  obtain ⟨-, -, conc, tilePage, tdc, own⟩ := pgTDC_page tile
  simp only [State.discardStaged, open_, conc, tilePage, tdc, own, Bool.false_eq_true, if_false, beq_self_eq_true, Bool.and_self, if_true,
    State.staysStaged]

/-- Whether what installs a page's staged values has committed depends on the swap and the peal, PEAL_STAT and MIRROR alone. -/
theorem State.shadowCommitted_congr {s t : State} (cal : t.cal = s.cal) (peal : t.peal = s.peal)
    (state : t.stored pgJRNL Reg.JRNL.PEAL_STAT_STATE = s.stored pgJRNL Reg.JRNL.PEAL_STAT_STATE)
    (mirror : t.flag pgSTICK Reg.STICK.CTRL_MIRROR = s.flag pgSTICK Reg.STICK.CTRL_MIRROR) (p : Nat) :
    t.shadowCommitted p = s.shadowCommitted p := by
  have pages (q o : Nat) : t.writePages q o = s.writePages q o := by rw [State.writePages, State.writePages, mirror]
  simp only [State.shadowCommitted, cal, peal, state, pages]

/-- A write of SHADOW_CTRL finds the page as open as it was. -/
theorem State.shadowCommitted_wrote (s : State) (h : UHdr) (k : PageKind) (p : Nat) (d : RegDef) (v : Word) (q : Nat) :
    ((s.counted h).wrote k p 0x028 d v).shadowCommitted q = s.shadowCommitted q := by
  have wrote := State.wrote_only (s := s.counted h) (k := k) (p := p) (o := 0x028) (d := d) (v := v) (L := 17179869208) (by decide)
  have regs := State.regsBut_wrote (s := s.counted h) (k := k) (p := p) (o := 0x028) (d := d) (v := v) (by decide)
  have apart {r u : Nat} (hr : r ≠ pgFWU) (hu : u ≠ 0x028) : ¬WroteReg p 0x028 r u := by
    simp only [WroteReg, Prod.mk.injEq]
    exact fun e => e.elim (fun e => hu e.2) (fun e => hr e.1)
  refine State.shadowCommitted_congr ((wrote.cal (by decide)).trans (s.answered_counted h).cal)
    ((wrote.peal (by decide)).trans (s.answered_counted h).peal) ?_ ?_ q
  · exact (regs.stored (apart (by decide) (by decide)) (by decide)).trans (State.counted_stored (by decide) s h (by decide)).1
  · exact (regs.flag (apart (by decide) (by decide)) (by decide)).trans (State.counted_stored (by decide) s h (by decide)).2

theorem State.pulseNow_discard {s : State} {k : PageKind} {by_ : StickCmd} {p : Nat} {free : Bool} :
    s.pulseNow k by_ p 0x028 1 free = s.discardStaged p := by simp [State.pulseNow]

theorem State.pulseNow_stageClr {s : State} {by_ : StickCmd} {p : Nat} {free : Bool} :
    s.pulseNow .corr by_ p 0x048 1 free = s.stageClr (concOf p) := by simp [State.pulseNow]

/-- Settles O17. A word of the window is answered (`exec_write_ok`) in the state that `stageEntry` leaves; STAGE_CLR and
SHADOW_DISCARD are writes that land (`State.Lands.exec`), their written 1s made at once by `stageClr` and `discardStaged`. -/
theorem stagingFollowsWrites : Obligations.StagingFollowsWrites := by
  unfold Obligations.StagingFollowsWrites
  refine ⟨?_, ?_, ?_⟩
  · intro s h c off value p chan e running takes recovery alone lo hi aligned run space
    obtain ⟨mirrored, journal, mod, -, um⟩ := pgCORR_page c
    obtain ⟨d, reg, can⟩ := regAt_corrWindow c lo hi aligned
    have conc (x : Conc) := s.counted_conc h x
    have on : (s.counted h).dieOff p = false := State.dieOff_pgCORR (by rw [conc]; exact run)
    have same : (s.counted h).corrChan p off.toNat = chan := by
      rw [State.corrChan_on on, (State.counted_stored um s h (by decide)).1]
      exact (State.corrChan_on (State.dieOff_pgCORR run) _).symm
    have room : ((s.counted h).conc c).stageFull chan = false := by
      rw [conc]
      simp only [ConcSt.stageFull, Bool.and_eq_false_iff, Option.isNone_eq_false_iff, decide_eq_false_iff_not, Nat.not_le]
      exact space
    have runs := State.cmdWrite_stages (h := h) (v := value) (body := (UCmd.write p off.toNat value).words)
      ((s.counted_recovery h).trans recovery) ((s.counted_writePages h ..).trans alone) mirrored (pageKind_pgCORR c) reg can on lo
      (by rw [concOf_pgCORR, same]; exact room)
    rw [concOf_pgCORR, same, conc] at runs
    have eq := State.stageEntry_eq (e := e) room
    obtain ⟨shown, shownConc, -, count⟩ := ((s.counted h).setConc c (((s.counted h).conc c).staged chan e)).showStaged_leaves c
    obtain ⟨t, row, acts⟩ := exec_write_ok (c := .corrStageWrite h c off value) (M := 24600) (l := [.concA, .concB]) rfl takes running
      journal (by omega) runs (eq ▸ State.showStaged_only (State.setConc_only (.refl _) c _ (by decide)) c (by decide))
      (eq ▸ (State.regsBut_setConc ..).trans shown) (by decide) (by decide)
    have moves := (State.concMoves_setConc (s.counted h) c (((s.counted h).conc c).staged chan e)).then shownConc
    rw [← eq] at moves count
    refine ⟨t, row, acts.written, ?_, ?_, ?_⟩
    · rw [acts.answered.conc, moves.other, conc]
    · rw [acts.answered.conc, moves.own, conc, ConcSt.staged]
    · rw [acts.reg _ (by decide) mod journal, count, State.setConc_conc_same, conc, ConcSt.staged]
  · intro s h c k d p running lands
    obtain rfl := lands.kind (pageKind_pgCORR c)
    obtain ⟨mirrored, journal, mod, fwu, um⟩ := pgCORR_page c
    have wrote := State.wrote_only (s := s.counted h) (k := .corr) (p := p) (o := 0x048) (d := d) (v := 1)
      (L := 17179869208) (by decide)
    generalize hw : (s.counted h).wrote .corr p 0x048 d 1 = w at wrote
    have kept (x : Conc) : w.conc x = s.conc x := (wrote.conc x).trans (s.counted_conc h x)
    obtain ⟨t, row, acts⟩ := lands.exec (c := .stageClr h c) (z := w.stageClr c) (M := 24600) (l := [.concA, .concB]) rfl
      (by decide) (.inr rfl) mirrored journal (by decide) (by decide) (by rw [hw, State.pulseNow_stageClr, concOf_pgCORR])
      (hw ▸ State.stageClr_only (.refl _) c (by decide))
      (hw ▸ (State.regsBut_stageClr _ c).mono fun q _ => List.mem_singleton.1) (by decide) (by decide)
    obtain ⟨own, other, count, full⟩ := w.stageClr_leaves c
    refine ⟨t, row, acts.written, ?_, ?_, ?_, ?_⟩
    · rw [acts.answered.conc, other, kept]
    · rw [acts.answered.conc, own, kept]
    · rw [acts.reg _ (by decide) mod journal, count]
    · rw [acts.reg _ (by decide) mod journal, full]
  · intro s h tile page k d p hpage running lands open_
    obtain rfl := lands.kind (pageKind_pgTDC tile)
    obtain ⟨mirrored, journal, -⟩ := pgTDC_page tile
    have wrote := State.wrote_only (s := s.counted h) (k := .tdc) (p := p) (o := 0x028) (d := d) (v := 1)
      (L := 17179869208) (by decide)
    have openW := (State.shadowCommitted_wrote s h .tdc p d 1 p).trans open_
    generalize hw : (s.counted h).wrote .tdc p 0x028 d 1 = w at wrote openW
    have only : w.Only 5120 (w.staysStaged tile) :=
      .of (.refl w) (tacStaged := .inl (by decide)) (rwsStaged := .inl (by decide))
    obtain ⟨t, row, acts⟩ := lands.exec (c := .shadowDiscard h page) (z := w.staysStaged tile) (M := 5120)
      (l := [.tacStaged, .rwsStaged]) (by rw [State.commandOf, hpage]) (by decide) (.inr rfl) mirrored journal (by decide) (by decide)
      (by rw [hw, State.pulseNow_discard, State.discardStaged_pgTDC openW])
      (hw ▸ only) (hw ▸ .of rfl rfl) (by decide) (by decide)
    refine ⟨t, row, acts.written, ?_, ?_⟩
    · rw [acts.answered.tacStaged, State.staysStaged, wrote.tacStaged (by decide), (s.answered_counted h).tacStaged]
    · rw [acts.answered.rwsStaged, State.staysStaged, wrote.rwsStaged (by decide), (s.answered_counted h).rwsStaged]

end Sys2Proof.Machine
end

section
/-!
PROOFS. The family of the stream format: what reads that come back clean leave of a concentrator (R288, R292, R294, R296).
-/

namespace Sys2Proof.Machine

/-! ### Clean reads change the memory controller alone -/

/-- Of the state nothing differs but the memory controller of `c`. -/
def State.McOnly (s t : State) (c : Conc) : Prop := ∃ m, t = s.setMc c m

section

variable {s t u : State} {c : Conc}

theorem State.McOnly.refl (s : State) (c : Conc) : s.McOnly s c := ⟨(s.conc c).mc, by cases c <;> rfl⟩

theorem State.McOnly.trans (h : s.McOnly t c) (k : t.McOnly u c) : s.McOnly u c := by
  obtain ⟨_, rfl⟩ := h
  obtain ⟨m, rfl⟩ := k
  exact ⟨m, by cases c <;> rfl⟩

theorem State.McOnly.each {α : Type} {l : List α} {f : State → α → State}
    (h : ∀ (v : State) (a : α), v.McOnly (f v a) c) (s : State) : s.McOnly (s.each l f) c :=
  State.each_keeps (P := fun t => s.McOnly t c) (fun t a _ k => k.trans (h t a)) (.refl s c)

/-- A clean read leaves its page open (R296). -/
theorem State.mcOnly_demandRead (s : State) (c : Conc) (shadow : Bool) (unit cls : Nat) :
    s.McOnly (s.demandRead c shadow unit cls .clean) c := ⟨_, rfl⟩

theorem State.mcOnly_served (s : State) (c : Conc) (r : DramReq) : s.McOnly (s.served c r) c := ⟨_, rfl⟩

theorem State.mcOnly_readUnits (s : State) (c : Conc) (shadow : Bool) (cls : Nat) (units : List Nat) :
    s.McOnly (s.readUnits c shadow cls [] units) c := by
  refine .each (fun v u => ?_) s
  split
  · exact .refl v c
  · exact v.mcOnly_demandRead c shadow u cls

/-- Of a directory unit copy 0 is read, or copy 1 where copy 0 is poisoned (R290). -/
theorem State.mcOnly_dirRead (s : State) (c : Conc) (dir cls : Nat) : s.McOnly (s.dirRead c dir cls []) c := by
  cases poisoned : (s.conc c).isPoison false dir with
  | true =>
    rw [State.dirRead, if_pos poisoned]
    exact s.mcOnly_demandRead c false _ cls
  | false =>
    rw [State.dirRead, if_neg (by simp [poisoned]), if_neg nofun]
    exact s.mcOnly_demandRead c false dir cls

theorem State.mcOnly_sheafRead (s : State) (c : Conc) (frame pos n cls : Nat) :
    s.McOnly (s.sheafRead c frame pos n cls []) c := (s.mcOnly_dirRead c _ cls).trans (State.mcOnly_readUnits ..)

/-- A glean's reads: the frame directory, then, where its data stands, the records (R188, R292). -/
theorem State.mcOnly_gleanReads (s : State) (c : Conc) (g : Glean) (n : Nat) : s.McOnly (s.gleanReads c g n {}) c := by
  unfold State.gleanReads
  extract_lets cls u l
  have directory : s.McOnly u c := s.mcOnly_readUnits c true cls _
  split
  · exact directory
  · exact (directory.trans (State.mcOnly_readUnits ..)).trans (.each (fun v _ => .refl v c) _)

/-! ### What is read depends on neither module time nor the memory controller -/

/-- The state at a module time, with another memory controller. -/
def State.readAt (s : State) (c : Conc) (at_ : Nat) (m : DramSt) : State := (s.advance at_).setMc c m

variable (s c) (at_ : Nat) (m : DramSt)

theorem ConcSt.readExtents_withMc (v : ConcSt) (onDie : Option Extent) (size fuel idx i left : Nat) :
    ConcSt.readExtents { v with mc := m } onDie size fuel idx i left = v.readExtents onDie size fuel idx i left := by
  induction fuel generalizing idx i left with
  | zero => rfl
  | succ fuel ih =>
    simp only [ConcSt.readExtents, ih]
    rfl

theorem State.readAt_shadowOf (n : Nat) (t : Fin 16) : (s.readAt c at_ m).shadowOf c n t = s.shadowOf c n t := by
  cases c <;> exact ConcSt.readExtents_withMc ..

theorem State.readAt_shadowLost (n : Int) : (s.readAt c at_ m).shadowLost c n = s.shadowLost c n := by cases c <;> rfl

theorem State.readAt_dirPoisoned (n : Nat) : (s.readAt c at_ m).dirPoisoned c n = s.dirPoisoned c n := by cases c <;> rfl

theorem State.readAt_extentAge : (s.readAt c at_ m).extentAge c = s.extentAge c := by cases c <;> rfl

theorem State.readAt_gleanWords (g : Glean) (n : Nat) (onDie : Reads) :
    (s.readAt c at_ m).gleanWords c g n onDie = s.gleanWords c g n onDie := by
  simp only [State.gleanWords, State.readAt_shadowLost, State.readAt_dirPoisoned, State.readAt_extentAge,
    State.readAt_shadowOf]

theorem State.readAt_gleanBytes (g : Glean) (n : Nat) (body : List (BitVec 56)) :
    (s.readAt c at_ m).gleanBytes c g n body = s.gleanBytes c g n body := by cases c <;> rfl

theorem State.readAt_readSheaf (x : SheafMeta) : (s.readAt c at_ m).readSheaf c x = s.readSheaf c x := by cases c <;> rfl

theorem State.readAt_moves : s.ConcMoves (s.readAt c at_ m) c { s.conc c with mc := m } := by
  have moves := State.concMoves_setConc (s.advance at_) c { (s.advance at_).conc c with mc := m }
  rw [State.advance_conc] at moves
  exact ⟨moves.own, moves.other.trans (State.advance_conc ..)⟩

theorem State.readAt_now : (s.readAt c at_ m).now = max s.now at_ := by cases c <;> rfl

theorem State.regsBut_readAt {P : Nat → Nat → Prop} : s.RegsBut P (s.readAt c at_ m) :=
  (State.regsBut_advance s at_).trans (State.regsBut_setConc ..)

end

end Sys2Proof.Machine
end

section
/-!
PROOFS. The family of the stream format: a glean's next sheaf (R171, R190-R192).
-/

namespace Sys2Proof.Machine

/-! ### The engine's next glean (R190) -/

/-- The engine's next glean is one of its gleans, with sheaves still to be formed. -/
theorem ConcSt.nextGlean_mem {v : ConcSt} {g : Glean} (h : v.nextGlean = some g) : g ∈ v.gleans ∧ g.formed = false := by
  have ready : g ∈ v.gleans.filter (fun g => !g.formed && decide (g.needs < v.nextForm)) := by
    unfold ConcSt.nextGlean at h
    extract_lets ready at h
    cases begun : ready.find? (fun g => decide (0 < g.part)) with
    | some x =>
      rw [begun] at h
      exact Option.some.inj h ▸ List.mem_of_find?_eq_some begun
    | none =>
      rw [begun] at h
      refine List.foldlRecOn (motive := fun b => ∀ x, b = some x → x ∈ ready) (b := none) ready _ nofun
        (fun b kept y mem x e => ?_) g h
      rcases b with _ | z
      · exact Option.some.inj e ▸ mem
      · dsimp only at e
        split at e
        · exact Option.some.inj e ▸ mem
        · exact kept x e
  simp only [List.mem_filter, Bool.and_eq_true, Bool.not_eq_true'] at ready
  exact ⟨ready.1, ready.2.1⟩

/-! ### The sheaf -/

/-- The records of the frame in turn: none of one before time 0 (R191, R293). -/
def State.partWords (s : State) (c : Conc) (g : Glean) : List (BitVec 56) :=
  if g.nextFrame < 0 then [] else s.gleanWords c g (wrappedFrame g.nextFrame) []

/-- The glean after its sheaf, formed at a module time. -/
def State.afterPart (s : State) (c : Conc) (g : Glean) (since : Nat) : Glean :=
  { g.next g.nextFrame (s.shadowLost c g.nextFrame) (s.partWords c g) with since := since }

/-- The sheaf: header, records, and the trailer in the glean's last (R171, R192). -/
def State.partSheaf (s : State) (c : Conc) (g g' : Glean) : GleanSheaf :=
  { frame := wrappedFrame g.nextFrame
    bytes := s.gleanBytes c g (wrappedFrame g.nextFrame)
      (g.headerWords ++ s.partWords c g ++ if g'.formed then g'.trailerWords else [])
    ends := if g'.formed then some g.trig.num else none }

/-- The gleans with one replaced by what it is after its sheaf. -/
def replaceGlean (g g' : Glean) (l : List Glean) : List Glean :=
  l.map (fun x => if x.trig.num = g.trig.num ∧ x.formed = false then g' else x)

theorem mem_replaceGlean {g : Glean} {l : List Glean} (h : g ∈ l) (unformed : g.formed = false) (g' : Glean) :
    g' ∈ replaceGlean g g' l := List.mem_map.2 ⟨g, h, if_pos ⟨rfl, unformed⟩⟩

/-- ACTIVE: the glean of the last sheaf formed, and whether it goes on (R199). -/
def State.showActive (s : State) (c : Conc) (num : Nat) (busy : Bool) : State :=
  (s.put (pgGLEAN c) Reg.GLEAN.ACTIVE_TRIG_NUM num).putB (pgGLEAN c) Reg.GLEAN.ACTIVE_BUSY busy

section

variable {s : State} {c : Conc} {g g' : Glean}

theorem State.formGlean_eq (e : s.afterPart c g s.now = g') :
    s.formGlean c g [] =
      let u := (s.setConc c { s.conc c with
        gleans := replaceGlean g g' (s.conc c).gleans
        gleanQ := (s.conc c).gleanQ ++ [s.partSheaf c g g'] }).showActive c g.trig.num (!g'.formed)
      if g'.formed then u.countGlean c g' else u := by
  subst e
  rfl

/-- A trailer's counters: GLEAN_CNT, and others of the page, ACTIVE not among them (R186, R192). -/
theorem State.countGlean_counts (s : State) (c : Conc) (g : Glean) :
    (s.bump (pgGLEAN c) Reg.GLEAN.GLEAN_CNT 0).RegsBut
      (fun q o => q = pgGLEAN c ∧ o ≠ Reg.GLEAN.GLEAN_CNT.off ∧ o ≠ Reg.GLEAN.ACTIVE.off) (s.countGlean c g) := by
  unfold State.countGlean
  extract_lets dead u
  have added : (s.bump (pgGLEAN c) Reg.GLEAN.GLEAN_CNT 0).RegsBut
      (fun q o => q = pgGLEAN c ∧ o ≠ Reg.GLEAN.GLEAN_CNT.off ∧ o ≠ Reg.GLEAN.ACTIVE.off) u :=
    State.regsBut_bump64 ⟨rfl, by decide⟩ ⟨rfl, by decide⟩ ⟨rfl, by decide⟩ (by decide) (by decide) ..
  split
  · exact added
  · exact (added.trans (State.regsBut_bump ⟨rfl, by decide⟩ ⟨rfl, by decide⟩ (by decide) ..)).trans
      (State.regsBut_event ⟨rfl, by decide⟩ ..)

/-- What a glean's sheaf leaves of the page. -/
structure State.GleanShown (s t : State) (c : Conc) (formed : Bool) : Prop where
  busy : t.stored (pgGLEAN c) Reg.GLEAN.ACTIVE_BUSY = (!formed).toNat
  count : t.stored (pgGLEAN c) Reg.GLEAN.GLEAN_CNT = s.stored (pgGLEAN c) Reg.GLEAN.GLEAN_CNT + formed.toNat
  regs : s.RegsBut (fun q _ => q ∈ [pgGLEAN c]) t

theorem State.showActive_shown (s : State) (c : Conc) (num : Nat) (busy : Bool) :
    (s.showActive c num busy).stored (pgGLEAN c) Reg.GLEAN.ACTIVE_BUSY = busy.toNat ∧
      s.RegsBut (fun q o => q = pgGLEAN c ∧ o = Reg.GLEAN.ACTIVE.off) (s.showActive c num busy) :=
  ⟨State.stored_putB_same (by decide) (by decide) ..,
    (State.regsBut_put (f := Reg.GLEAN.ACTIVE_TRIG_NUM) ⟨rfl, rfl⟩ (by decide) ..).trans
      (State.regsBut_putB (f := Reg.GLEAN.ACTIVE_BUSY) ⟨rfl, rfl⟩ (by decide) ..)⟩

theorem State.gleanShown_of (below : s.stored (pgGLEAN c) Reg.GLEAN.GLEAN_CNT < 2 ^ 32 - 1) (num : Nat) (g : Glean) :
    s.GleanShown (if g.formed then (s.showActive c num (!g.formed)).countGlean c g else s.showActive c num (!g.formed)) c
      g.formed := by
  obtain ⟨busy, active⟩ := s.showActive_shown c num (!g.formed)
  have same : (s.showActive c num (!g.formed)).stored (pgGLEAN c) Reg.GLEAN.GLEAN_CNT =
      s.stored (pgGLEAN c) Reg.GLEAN.GLEAN_CNT := active.stored (by simp; decide) (by decide)
  have page : s.RegsBut (fun q _ => q ∈ [pgGLEAN c]) (s.showActive c num (!g.formed)) :=
    active.mono fun _ _ h => List.mem_singleton.2 h.1
  generalize s.showActive c num (!g.formed) = u at busy same page
  have room : u.stored (pgGLEAN c) Reg.GLEAN.GLEAN_CNT + 1 < 2 ^ 32 := by omega
  cases last : g.formed with
  | false =>
    rw [if_neg Bool.false_ne_true]
    exact ⟨by rw [busy, last], by rw [same, Bool.toNat_false, Nat.add_zero], page⟩
  | true =>
    have counted := u.countGlean_counts c g
    rw [if_pos rfl]
    refine ⟨?_, ?_, ?_⟩
    · rw [counted.stored (by simp; decide) (by decide),
        State.stored_bump_ne (regKey_ne_off (by decide)) (regKey_ne_off (by decide)), busy, last]
    · rw [counted.stored (by simp) (by decide), State.stored_bump_below (by decide) (by decide) room, same, Bool.toNat_true]
    · exact (page.trans (State.regsBut_bump List.mem_cons_self List.mem_cons_self (by decide) ..)).trans
        (counted.mono fun _ _ h => List.mem_singleton.2 h.1)

theorem State.showActive_conc (s : State) (c d : Conc) (num : Nat) (busy : Bool) :
    (s.showActive c num busy).conc d = s.conc d := (State.putB_conc ..).trans (State.put_conc ..)

theorem State.countGlean_conc (s : State) (c d : Conc) (g : Glean) : (s.countGlean c g).conc d = s.conc d :=
  (State.countGlean_only (L := 88) (.refl s) c g (by decide)).conc d

/-- The next sheaf of a glean joins its queue, the glean goes on to the next frame, and the page shows both (R190-R192). -/
theorem State.formGlean_leaves (below : s.stored (pgGLEAN c) Reg.GLEAN.GLEAN_CNT < 2 ^ 32 - 1)
    (e : s.afterPart c g s.now = g') :
    s.ConcMoves (s.formGlean c g []) c { s.conc c with
      gleans := replaceGlean g g' (s.conc c).gleans
      gleanQ := (s.conc c).gleanQ ++ [s.partSheaf c g g'] } ∧ s.GleanShown (s.formGlean c g []) c g'.formed := by
  rw [State.formGlean_eq e]
  extract_lets u
  constructor
  · refine (State.concMoves_setConc ..).then fun d => ?_
    split
    · rw [State.countGlean_conc, State.showActive_conc]
    · rw [State.showActive_conc]
  · obtain ⟨busy, count, regs⟩ := State.gleanShown_of (s := s.setConc c { s.conc c with
      gleans := replaceGlean g g' (s.conc c).gleans
      gleanQ := (s.conc c).gleanQ ++ [s.partSheaf c g g'] }) (c := c)
      (by rw [State.setConc_stored]; exact below) g.trig.num g'
    exact ⟨busy, by rw [count, State.setConc_stored], (State.regsBut_setConc ..).trans regs⟩

end

/-! ### GLEAN_SHEAF_FORM -/

theorem exec_gleanSheafForm {s : State} {c : Conc} (h : s.mergeOn c = true) (reads : GleanReads) (at_ : Nat) :
    exec (.gleanSheafForm c reads at_) s = .next (s.gleanForm c reads at_) := congrArg Host.Outcome.next (if_pos h)

section

variable {s : State} {c : Conc} {g : Glean} (at_ : Nat) (m : DramSt)

theorem State.readAt_afterPart (n : Nat) : (s.readAt c at_ m).afterPart c g n = s.afterPart c g n := by
  simp only [State.afterPart, State.partWords, State.readAt_shadowLost, State.readAt_gleanWords]

theorem State.readAt_partSheaf (g' : Glean) : (s.readAt c at_ m).partSheaf c g g' = s.partSheaf c g g' := by
  simp only [State.partSheaf, State.partWords, State.readAt_gleanBytes, State.readAt_gleanWords]

/-- The glean's frame is read, unless it is refused or its frame lies before time 0, and its sheaf is formed. -/
theorem State.gleanForm_eq (merging : (s.conc c).merging = true) (next : (s.conc c).nextGlean = some g)
    (idle : s.dramBusy c = false) (turn : g.refused = true ∨ s.servesNow c true .glean = true) :
    ∃ m, s.gleanForm c {} at_ = (s.readAt c at_ m).formGlean c g [] := by
  have conc : (s.advance at_).conc c = s.conc c := State.advance_conc ..
  have busy : (s.advance at_).dramBusy c = false := idle
  have serves : (!g.refused && !(s.advance at_).servesNow c true .glean) = false := by
    rcases turn with refused | serves
    · rw [refused]
      rfl
    · rw [show (s.advance at_).servesNow c true .glean = true from serves, Bool.not_true, Bool.and_false]
  have read : (s.advance at_).McOnly (if g.refused || decide (g.nextFrame < 0) then s.advance at_
      else ((s.advance at_).gleanReads c g g.nextFrame.toNat {}).served c .glean) c := by
    split
    · exact .refl ..
    · exact (State.mcOnly_gleanReads ..).trans (State.mcOnly_served ..)
  obtain ⟨m, read⟩ := read
  have same : (((s.advance at_).setMc c m).conc c).merging = true := by
    rw [State.setMc, State.setConc_conc_same, conc]
    exact merging
  refine ⟨m, ?_⟩
  simp only [State.gleanForm, conc, next, merging, busy, serves, Bool.not_true, Bool.or_self, Bool.false_eq_true, if_false,
    read, same, if_true]
  rfl

end

end Sys2Proof.Machine
end

section
/-!
PROOFS. The family of the stream format: a re-send's next sheaf (R193, R194).
-/

namespace Sys2Proof.Machine

theorem exec_resendSheaf {s : State} {c : Conc} (h : s.mergeOn c = true) (reads : Reads) (at_ : Nat) :
    exec (.resendSheaf c reads at_) s = .next (s.resendSheaf c reads at_) := congrArg Host.Outcome.next (if_pos h)

section

variable {s : State} {c : Conc} {q : Resend} {r : List Resend} (at_ : Nat)

theorem State.showResend_conc (s : State) (c d : Conc) : (s.showResend c).conc d = s.conc d :=
  (State.showResend_only (L := 24) (.refl s) c (by decide)).conc d

/-- RESEND_STAT alone shows the requests (R199). -/
theorem State.regsBut_showResend (s : State) (c : Conc) :
    s.RegsBut (fun q o => q = pgGLEAN c ∧ o = Reg.GLEAN.RESEND_STAT.off) (s.showResend c) :=
  (State.regsBut_put (f := Reg.GLEAN.RESEND_STAT_QUEUED) ⟨rfl, rfl⟩ (by decide) ..).trans
    (State.regsBut_putB (f := Reg.GLEAN.RESEND_STAT_BUSY) ⟨rfl, rfl⟩ (by decide) ..)

/-- The requests and the sheaf being re-sent become `l` and `cur`. -/
def State.setResends (s : State) (c : Conc) (l : List Resend) (cur : Option Dealing) : State :=
  s.setConc c { s.conc c with resends := l, resendCur := cur }

theorem State.setResends_moves (s : State) (c : Conc) (l : List Resend) (cur : Option Dealing) :
    s.ConcMoves (s.setResends c l cur) c { s.conc c with resends := l, resendCur := cur } := State.concMoves_setConc ..

theorem State.regsBut_setResends {P : Nat → Nat → Prop} (s : State) (c : Conc) (l : List Resend) (cur : Option Dealing) :
    s.RegsBut P (s.setResends c l cur) := State.regsBut_setConc ..

/-- A sheaf that is held is read, and is the one being dealt (R194). -/
theorem State.resendSheaf_held {x : SheafMeta} (merging : (s.conc c).merging = true) (requests : (s.conc c).resends = q :: r)
    (free : (s.conc c).resendCur = none) (idle : s.dramBusy c = false) (held : s.heldSheaf c q.next = some x)
    (turn : s.servesNow c false .resend = true) :
    ∃ m, s.resendSheaf c [] at_ = ((s.readAt c at_ m).setResends c (advanceResend (max s.now at_) (q :: r))
      (some { frame := x.frame, bytes := s.readSheaf c x, grain := 0 })).showResend c := by
  have conc : (s.advance at_).conc c = s.conc c := State.advance_conc ..
  have busy : (s.advance at_).dramBusy c = false := idle
  have found : (s.advance at_).heldSheaf c q.next = some x := held
  have serves : (s.advance at_).servesNow c false .resend = true := turn
  obtain ⟨m, read⟩ := ((s.advance at_).mcOnly_sheafRead c x.frame x.pos (unitsOf (48 + 7 * x.words))
    ((s.conc c).mc.clsOf .resend)).trans (State.mcOnly_served _ c .resend)
  rw [← State.readAt] at read
  have same : ((s.readAt c at_ m).conc c).merging = true := by
    rw [(s.readAt_moves c at_ m).own]
    exact merging
  refine ⟨m, ?_⟩
  simp only [State.resendSheaf, conc, requests, free, merging, busy, found, serves, read, same, Bool.not_true, Bool.or_self,
    Bool.false_eq_true, if_false, if_true, State.readAt_readSheaf, State.readAt_now]
  rfl

/-- A sheaf that is not held is skipped and counted (R194). -/
theorem State.resendSheaf_skips (merging : (s.conc c).merging = true) (requests : (s.conc c).resends = q :: r)
    (free : (s.conc c).resendCur = none) (idle : s.dramBusy c = false) (lost : s.heldSheaf c q.next = none) :
    s.resendSheaf c [] at_ = (((s.advance at_).setResends c (advanceResend (max s.now at_) (q :: r)) none).bump (pgGLEAN c)
      Reg.GLEAN.RESEND_SKIP_CNT 3).showResend c := by
  have conc : (s.advance at_).conc c = s.conc c := State.advance_conc ..
  have busy : (s.advance at_).dramBusy c = false := idle
  have missing : (s.advance at_).heldSheaf c q.next = none := lost
  simp only [State.resendSheaf, State.setResends, conc, requests, free, merging, busy, missing, Bool.not_true, Bool.or_self,
    Bool.false_eq_true, if_false]
  rw [← free]
  rfl

/-- What RESEND_SHEAF leaves: the requests, the sheaf being re-sent, and the skipped sheaves counted. -/
structure State.Resent (s t : State) (c : Conc) (l : List Resend) (cur : Option Dealing) (skipped : Nat) : Prop where
  requests : (t.conc c).resends = l
  current : (t.conc c).resendCur = cur
  other : t.conc c.other = s.conc c.other
  count : t.stored (pgGLEAN c) Reg.GLEAN.RESEND_SKIP_CNT = s.stored (pgGLEAN c) Reg.GLEAN.RESEND_SKIP_CNT + skipped
  regs : s.RegsBut (fun q _ => q ∈ [pgGLEAN c]) t

theorem State.resent_held (s : State) (c : Conc) (l : List Resend) (d : Dealing) (m : DramSt) :
    s.Resent (((s.readAt c at_ m).setResends c l (some d)).showResend c) c l (some d) 0 := by
  have moves := ((s.readAt c at_ m).setResends_moves c l (some d)).then (State.showResend_conc _ c)
  have regs := ((s.regsBut_readAt c at_ m).trans (State.regsBut_setResends _ c l (some d))).trans (State.regsBut_showResend _ c)
  refine ⟨?_, ?_, ?_, regs.stored (by simp; decide) (by decide), regs.mono fun _ _ h => List.mem_singleton.2 h.1⟩
  · rw [moves.own]
  · rw [moves.own]
  · rw [moves.other, (s.readAt_moves c at_ m).other]

theorem State.resent_skipped (below : s.stored (pgGLEAN c) Reg.GLEAN.RESEND_SKIP_CNT < 2 ^ 32 - 1) (l : List Resend) :
    s.Resent ((((s.advance at_).setResends c l none).bump (pgGLEAN c) Reg.GLEAN.RESEND_SKIP_CNT 3).showResend c) c l none 1 := by
  have moves := (s.advance at_).setResends_moves c l none
  have kept {P : Nat → Nat → Prop} : s.RegsBut P ((s.advance at_).setResends c l none) :=
    (s.regsBut_advance at_).trans (State.regsBut_setResends ..)
  have same : ((s.advance at_).setResends c l none).stored (pgGLEAN c) Reg.GLEAN.RESEND_SKIP_CNT =
      s.stored (pgGLEAN c) Reg.GLEAN.RESEND_SKIP_CNT := (State.setConc_stored ..).trans (State.advance_stored ..)
  generalize (s.advance at_).setResends c l none = u at moves kept same
  have room : u.stored (pgGLEAN c) Reg.GLEAN.RESEND_SKIP_CNT + 1 < 2 ^ 32 := by omega
  have shown := State.regsBut_showResend (u.bump (pgGLEAN c) Reg.GLEAN.RESEND_SKIP_CNT 3) c
  have conc (d : Conc) : ((u.bump (pgGLEAN c) Reg.GLEAN.RESEND_SKIP_CNT 3).showResend c).conc d = u.conc d :=
    (State.showResend_conc ..).trans (State.bump_conc ..)
  refine ⟨?_, ?_, ?_, ?_, ?_⟩
  · rw [conc, moves.own]
  · rw [conc, moves.own]
  · rw [conc, moves.other, State.advance_conc]
  · rw [shown.stored (by simp; decide) (by decide), State.stored_bump_below (by decide) (by decide) room, same]
  · exact (kept.trans (State.regsBut_bump List.mem_cons_self List.mem_cons_self (by decide) ..)).trans
      (shown.mono fun _ _ h => List.mem_singleton.2 h.1)

end

/-- Settles O42. Clean reads change the memory controller alone (`State.McOnly`), and what is read does not depend on it
(`State.readAt`): the sheaf of a glean is formed of what `s` holds (`State.formGlean_leaves`), and so is a re-send's
(`State.resendSheaf_held`, `State.resendSheaf_skips`). -/
theorem gleansAndResendsAreServed : Obligations.GleansAndResendsAreServed := by
  unfold Obligations.GleansAndResendsAreServed
  refine ⟨fun s c g at_ => ?_, fun s c q r at_ => ?_⟩
  · intro n ws g' body on next idle turn below
    obtain ⟨m, formed⟩ := State.gleanForm_eq at_ (State.merging_of_mergeOn on) next idle turn
    obtain ⟨mem, unformed⟩ := ConcSt.nextGlean_mem next
    have kept := s.regsBut_readAt c at_ m (P := fun q _ => q ∈ [])
    have cnt : (s.readAt c at_ m).stored (pgGLEAN c) Reg.GLEAN.GLEAN_CNT = s.stored (pgGLEAN c) Reg.GLEAN.GLEAN_CNT :=
      kept.stored List.not_mem_nil (by decide)
    have after : (s.readAt c at_ m).afterPart c g (s.readAt c at_ m).now = g' := by
      rw [State.readAt_afterPart, State.readAt_now]
      rfl
    have read := s.readAt_moves c at_ m
    obtain ⟨moves, shown⟩ := State.formGlean_leaves (cnt ▸ below) after
    rw [State.readAt_partSheaf] at moves
    refine ⟨_, (exec_gleanSheafForm on {} at_).trans (congrArg _ formed), ?_, ?_, rfl, rfl, shown.busy, ?_, ?_, ?_⟩
    · rw [moves.own, read.own]
      rfl
    · rw [moves.own, read.own]
      exact mem_replaceGlean mem unformed g'
    · rw [shown.count, cnt]
    · exact ((s.regsBut_readAt c at_ m).trans shown.regs).same
    · rw [moves.other, read.other]
  · intro cs on requests free idle turn below
    have merging := State.merging_of_mergeOn on
    cases held : s.heldSheaf c q.next with
    | some x =>
      obtain ⟨m, served⟩ := State.resendSheaf_held at_ merging requests free idle held (turn (by rw [held]; rfl))
      have left := s.resent_held at_ c (advanceResend (max s.now at_) (q :: r))
        { frame := x.frame, bytes := s.readSheaf c x, grain := 0 } m
      refine ⟨_, (exec_resendSheaf on [] at_).trans (congrArg _ served), left.requests, ?_, nofun, left.regs.same, left.other⟩
      rintro y ⟨⟩
      exact ⟨left.current, left.count⟩
    | none =>
      have skipped := State.resendSheaf_skips at_ merging requests free idle held
      have left := State.resent_skipped at_ below (advanceResend (max s.now at_) (q :: r))
      exact ⟨_, (exec_resendSheaf on [] at_).trans (congrArg _ skipped), left.requests, nofun,
        fun _ => ⟨left.current, left.count⟩, left.regs.same, left.other⟩

end Sys2Proof.Machine
end

section
/-!
PROOFS. The family of triggers and gleaning: commands whose request is kept (R175, R181, R193, R270, R311, R374).
-/

namespace Sys2Proof.Machine

/-! ### A command that is accepted -/

/-- A command that found the module in state `v` and made it `z` is answered OK and journaled, which leaves `t`: the parts listed
differ between `v` and `t`, and between `z` and `t` only what answers and journals a command. -/
structure State.Accepted (v t z : State) (h : UHdr) (u : UCmd) (l : List Part) : Prop where
  answer : v.answers t h u.code resOK []
  entry : v.journals t h u.code resOK (logOf h u u.words)
  parts : v.changesOnly (answering ++ l) t
  answered : z.Answered t
  reg : ∀ q o, o < 4096 → (q, o) ∉ answerKeys → z.SameReg t q o

/-- One whose effect leaves the registers alone. -/
theorem State.Accepted.answering {v t z : State} {h : UHdr} {u : UCmd} {l : List Part} (a : v.Accepted t z h u l)
    (regs : z.regs = v.regs) (stale : z.stale = v.stale) : v.Answering t h u resOK l :=
  ⟨a.answer, a.entry, a.parts, fun q o ho k => (State.SameReg.of regs stale q o).trans (a.reg q o ho k)⟩

/-- The row of a command that is taken, not privileged, and accepted: `M` has the parts that its own effect changes, none of
which answers or journals it but for registers. -/
theorem exec_accepts {c : Instr} {s z : State} {h : UHdr} {u : UCmd} {M : Nat} {l : List Part}
    (row : s.commandOf c = some (h, u, {})) (takes : s.takes h u = true) (plain : endsPlain u = true)
    (running : s.running = true) (run : (s.counted h).runCmd h u u.words {} = { result := resOK, state := z })
    (only : (s.counted h).Only M z)
    (head : z.rd pgJRNL Reg.JRNL.HEAD.off = (s.counted h).rd pgJRNL Reg.JRNL.HEAD.off) (hM : M &&& 146834194501 = 0)
    (hl : (allBut (answering ++ l)).all (fun p => !(M ||| 146834194521).testBit p.bit) = true) :
    ∃ t, exec c s = .next t ∧ (s.counted h).Accepted t z h u l := by
  have bit (i : Nat) (hi : (146834194501 : Nat).testBit i = true) : M.testBit i = false := by
    have := congrArg (·.testBit i) hM
    simpa [Nat.testBit_land, hi] using this
  have on : z.running = true := (only.running (bit 2 (by decide))).trans ((s.counted_running h).trans running)
  obtain ⟨t, step, fin⟩ := exec_takes row takes plain (by rw [run]; exact on)
  rw [run] at fin
  refine ⟨t, step, ?_, ?_, State.Only.changes (L := M ||| 146834194521) (only.mono.trans ?_) hl, fin.answered, fin.reg⟩
  · exact fin.answers rfl (only.um (bit 28 (by decide)) (bit 29 (by decide)) _)
  · exact fin.entry rfl (only.journal (bit 33 (by decide))) (only.now (bit 0 (by decide))) head
  · rw [Nat.lor_comm]
    exact (fin.answered.only (L := 146834194521) (by decide)).mono

/-! ### Timed triggers and gate windows -/

/-- A timed trigger that R175 allows joins those pending. -/
theorem State.timedTrigger_joins {s : State} {coarse fine level pre post : Nat} {time : Int}
    (ht : time = s.domainTref coarse * 4096 + (fine : Int))
    (began : ((s.frame * 4096 : Nat) : Int) ≤ s.toModule time 1 / 4096)
    (near : s.toModule time 1 / 4096 ≤ ((s.frame * 4096 : Nat) : Int) + 640000000) (hl : level ≤ 4) (hpre : pre ≤ 640000)
    (hpost : post ≤ 640000) (room : s.trig.timed.length < 16) (g : Bool) (path : Nat) :
    s.timedTrigger coarse fine g level pre post path =
      (true, { s with trig := { s.trig with timed := s.trig.timed ++
        [{ time := time, glean := g, level := level, pre := pre, post := post, path := maskPath level path }] } }) := by
  subst ht
  exact if_pos ⟨began, near, hl, hpre, hpost, room⟩

/-- The state with a window queued that is not sent yet. -/
def State.queueWindow (s : State) (opens closes : Int) : State :=
  State.put { s with trig := { s.trig with windows := s.trig.windows ++ [{ opens := opens, closes := closes, sent := none }] } }
    pgTRIG Reg.TRIG.GATE_STATUS_QUEUED (s.trig.windows.length + 1)

/-- A time in taps of the active domain as a time in taps of the module. -/
def State.moduleTap (s : State) (x : Int) : Int := s.toModule (x * 64) 64 / 64

/-- A window that R181 allows is queued. -/
theorem State.timedGate_queues {s : State} {openC openT closeC closeT : Nat} {opens closes : Int}
    (ho : opens = s.domainTref openC * 64 + (openT : Int)) (hc : closes = s.domainTref closeC * 64 + (closeT : Int))
    (began : (((s.frame + 2) * 4096 * 64 : Nat) : Int) ≤ s.moduleTap opens)
    (near : s.moduleTap opens ≤ ((s.now : Int) + 640000000) * 64) (order : s.moduleTap opens < s.moduleTap closes)
    (short : s.moduleTap closes ≤ s.moduleTap opens + 640000000 * 64)
    (last : ∀ w, s.trig.windows.getLast? = some w → s.moduleTap w.closes < s.moduleTap opens)
    (room : s.trig.windows.length < 8) :
    s.timedGate openC openT closeC closeT = (true, s.queueWindow opens closes) := by
  subst ho hc
  refine if_pos ⟨began, near, Int.add_one_le_of_lt order, short, ?_, room⟩
  split
  case h_1 w hw => exact decide_eq_true (last w hw)
  case h_2 => rfl

theorem State.queueWindow_only (s : State) (opens closes : Int) : s.Only 65560 (s.queueWindow opens closes) :=
  State.put_only (State.Only.of (.refl s) (trig := .inl (by decide))) _ _ _ (by decide)

theorem State.regsBut_queueWindow (s : State) (opens closes : Int) :
    s.RegsBut (fun q o => q = pgTRIG ∧ o = Reg.TRIG.GATE_STATUS.off) (s.queueWindow opens closes) :=
  ⟨(State.regsBut_put (P := fun q o => q = pgTRIG ∧ o = Reg.TRIG.GATE_STATUS.off) (f := Reg.TRIG.GATE_STATUS_QUEUED)
    ⟨rfl, rfl⟩ (by decide) ..).same⟩

/-- Settles O9: what R175 and R181 allow is kept (`State.timedTrigger_joins`, `State.timedGate_queues`), and its command is
accepted (`exec_accepts`). -/
theorem timedRequestsAreKept : Obligations.TimedRequestsAreKept := by
  unfold Obligations.TimedRequestsAreKept
  refine ⟨?_, ?_⟩
  · intro s h coarse fine g level pre post path u v time running takes began near hl hpre hpost room
    have joins := State.timedTrigger_joins (s := v) rfl began near hl hpre hpost room g path.toNat
    obtain ⟨t, row, done⟩ := exec_accepts (M := 65536) (l := [.trig]) (c := .timedTrigger h coarse fine g level pre post path)
      rfl takes rfl running (congrArg accepted joins) (.of (.refl v) (trig := .inl (by decide))) rfl (by decide) (by decide)
    exact ⟨t, row, done.answering rfl rfl, done.answered.trig⟩
  · intro s h open_ openTap close closeTap u v opens closes tap running takes began near order short last room
    have queues := State.timedGate_queues (s := v) rfl rfl began near order short last room
    have regs := v.regsBut_queueWindow opens closes
    obtain ⟨t, row, done⟩ := exec_accepts (M := 65560) (l := [.trig]) (c := .timedGate h open_ openTap close closeTap)
      rfl takes rfl running (congrArg accepted queues) (v.queueWindow_only opens closes)
      (regs.same _ _ (by decide) (by decide)).1 (by decide) (by decide)
    refine ⟨t, row, done.answered.trig.trans (State.put_trig ..), ?_, done.answer, done.entry, done.parts⟩
    rw [(done.reg pgTRIG Reg.TRIG.GATE_STATUS_QUEUED.off (by decide) (by decide)).stored]
    have fits : v.trig.windows.length + 1 < 2 ^ 4 := by omega
    exact (State.stored_put_same (by decide) (by decide) ..).trans (Nat.mod_eq_of_lt fits)

/-! ### Requests for the next boundary -/

theorem concOfBit_eq (c : Conc) : concOfBit (c == .b) = c := by cases c <;> rfl

theorem resendCount_eq (count : BitVec 16) :
    (if count.toNat = 0 then 65536 else count.toNat) = if count = 0 then 65536 else count.toNat := by
  simp only [BitVec.toNat_eq]
  rfl

/-- Settles O10: RESEND and FREEZE_RELEASE are accepted (`exec_accepts`) and their requests wait; a STICK command waits itself,
and neither answer nor entry is made yet (`Outcome.Finished.later`, `Outcome.Finished.noLog`). -/
theorem requestsWait : Obligations.RequestsWait := by
  unfold Obligations.RequestsWait
  refine ⟨?_, ?_, ?_⟩
  · intro s h first count running takes
    obtain ⟨t, row, done⟩ := exec_accepts (M := 65536) (l := [.trig]) (c := .resend h first count) rfl takes rfl running rfl
      (State.requestResend_only (.refl _) _ _ (by decide)) rfl (by decide) (by decide)
    refine ⟨t, row, done.answering rfl rfl, done.answered.trig.trans ?_⟩
    rw [State.requestResend, (s.answered_counted h).trig, resendCount_eq]
  · intro s h c running takes
    obtain ⟨t, row, done⟩ := exec_accepts (M := 32) (l := [.pendW]) (c := .freezeRelease h c) rfl takes rfl running rfl
      (State.cmdFreezeRelease_only (.refl _) _ (by decide)) rfl (by decide) (by decide)
    refine ⟨t, row, done.answering rfl rfl, done.answered.pendW.trans ?_⟩
    show (s.counted h).pendW ++ _ = _
    rw [(s.answered_counted h).pendW, concOfBit_eq]
  · intro s h op target running takes
    obtain ⟨t, row, fin⟩ := exec_takesAuth (c := .stick h op target) rfl takes rfl ((s.authed_running h).trans running)
    let x := (s.authed h).hostStick h op.toNat target false (UCmd.stick op.toNat target).words
    have queued : ((s.authed h).queueStick x).Answered t := fin.answered
    have only : s.Only 146838388825 t := ((s.answered_authed h).only (by decide)).trans
      ((State.queueStick_only (.refl _) x (by decide)).trans (queued.only (by decide)))
    refine ⟨t, row, fun dest => ?_, (fin.noLog rfl).trans (s.authed_journal h), only.changes (by decide), ?_⟩
    · exact (fin.later dest rfl).trans (congrArg (·.results ++ [heldFrag h.tag]) (s.authed_um h h.port))
    · rw [queued.stick, State.queueStick, (s.answered_authed h).stick]
      simp only [x, State.hostStick, s.authed_now h]

end Sys2Proof.Machine
end

section
/-!
PROOFS. The family of triggers and gleaning: the delivery of a frame's triggers (R176, R177, R182, R189).
-/

namespace Sys2Proof.Machine

theorem exec_triggerDelivery {s : State} (h : s.powered = true) : exec .triggerDelivery s = .next s.deliver :=
  congrArg Host.Outcome.next (if_pos h)

/-! ### A delivery in its parts -/

/-- The triggers of the next delivery, numbered (R177). -/
def State.newTrigs (s : State) : List Trigger :=
  numberTrigs (s.stored pgTRIG Reg.TRIG.TRIG_NEXT_NUM) ((s.trigsOf s.trig.nextFrame).take 64)

/-- The gate marks that wait for it, in order (R182). -/
def State.newMarks (s : State) : List GateMark :=
  (s.trig.marks.filter (fun m => decide (frameOfTicks m.time ≤ s.trig.nextFrame))).foldl (fun l m => insertMark m l) []

/-- The frame has its triggers and marks, which wait no longer. -/
def State.handOver (s : State) (i : FrameInfo) : State :=
  let n := s.trig.nextFrame
  { s.advance ((n + 1) * frameTref + s.deliveryWait) with
    frames := mapPut n { i with delivered := true, triggers := s.newTrigs, marks := s.newMarks.take 64 } s.frames
    trig := { s.trig with
      nextFrame := n + 1, pins := s.trig.pins.filter (fun x => decide (n < frameOfTicks x.2)),
      due := s.trig.due.filter (fun x => decide (frameOfTicks x.1 ≠ n)),
      marks := s.trig.marks.filter (fun m => decide (n < frameOfTicks m.time)) } }

/-- The triggers of a source. -/
def countFrom (src : Nat) (l : List Trigger) : Nat := (l.filter (fun g => g.source == src)).length

/-- TRIG_NEXT moves on and the triggers are counted by their source (R177, R197). -/
def State.countTrigs (s : State) (l : List Trigger) : State :=
  (((s.bumpWrap pgTRIG Reg.TRIG.TRIG_NEXT_NUM l.length).bump pgTRIG Reg.TRIG.A_CNT 0 (countFrom 0 l)).bump pgTRIG
    Reg.TRIG.B_CNT 1 (countFrom 1 l)).bump pgTRIG Reg.TRIG.CMD_CNT 2 (countFrom 2 l)

/-- The triggers and marks past 64 are counted (R176, R182). -/
def State.countOver (s : State) (trigs marks : Nat) : State :=
  let s := (s.bump pgTRIG Reg.TRIG.OVER_CNT 4 trigs).eventIf (decide (0 < trigs)) pgTRIG 0
  (s.bump pgTRIG Reg.TRIG.MARK_OVER_CNT 8 marks).eventIf (decide (0 < marks)) pgTRIG 3

/-- A concentrator that forms sheaves takes the request of a glean. -/
def State.askConc (s : State) (g : Trigger) (c : Conc) : State := if (s.conc c).merging then s.requestGlean c g else s

/-- A trigger asks both concentrators for its glean. -/
def State.askGlean (s : State) (g : Trigger) : State := (s.askConc g .a).askConc g .b

/-- What the delivery shows before the concentrators are asked. -/
def State.numbered (s : State) (i : FrameInfo) : State :=
  ((s.handOver i).countTrigs s.newTrigs).countOver ((s.trigsOf s.trig.nextFrame).length - 64) (s.newMarks.length - 64)

theorem State.deliver_eq {s : State} {i : FrameInfo} (found : mapFind s.trig.nextFrame s.frames = some i)
    (ended : s.trig.nextFrame < s.frame) :
    s.deliver = (s.numbered i).each (s.newTrigs.filter (·.glean)) State.askGlean := by
  simp only [State.deliver, found, if_neg (Nat.not_le.2 ended)]
  rfl

/-! ### The belfry's part -/

theorem State.regsBut_countTrigs (s : State) (l : List Trigger) : s.RegsBut (fun q _ => q ∈ [pgTRIG]) (s.countTrigs l) :=
  (((State.regsBut_put (f := Reg.TRIG.TRIG_NEXT_NUM) List.mem_cons_self (by decide) ..).trans
    (State.regsBut_bump List.mem_cons_self List.mem_cons_self (by decide) ..)).trans
    (State.regsBut_bump List.mem_cons_self List.mem_cons_self (by decide) ..)).trans
    (State.regsBut_bump List.mem_cons_self List.mem_cons_self (by decide) ..)

/-- TRIG_NEXT wraps at 2^24 (R177). -/
theorem State.stored_countTrigs (s : State) (l : List Trigger) : (s.countTrigs l).stored pgTRIG Reg.TRIG.TRIG_NEXT_NUM =
    (s.stored pgTRIG Reg.TRIG.TRIG_NEXT_NUM + l.length) % 2 ^ 24 := by
  have apart {o : Nat} (h : Reg.TRIG.TRIG_NEXT_NUM.off ≠ o) := regKey_ne_off (p := pgTRIG) h
  rw [State.countTrigs, State.stored_bump_ne (apart (by decide)) (apart (by decide)),
    State.stored_bump_ne (apart (by decide)) (apart (by decide)), State.stored_bump_ne (apart (by decide)) (apart (by decide))]
  exact State.stored_put_same (by decide) (by decide) ..

/-- The registers of TRIG in which triggers and marks past 64 show. -/
def OverReg (q o : Nat) : Prop := q = pgTRIG ∧ o ∈ [Reg.TRIG.OVER_CNT.off, Reg.TRIG.MARK_OVER_CNT.off,
  Reg.HDR.COUNTER_OVF.off, Reg.HDR.EVT_PENDING.off]

theorem State.regsBut_countOver (s : State) (trigs marks : Nat) : s.RegsBut OverReg (s.countOver trigs marks) := by
  have event (u : State) (on : Bool) (b : Nat) : u.RegsBut OverReg (u.eventIf on pgTRIG b) :=
    .ite (State.regsBut_event ⟨rfl, by decide⟩ u b) (.refl u)
  exact (((State.regsBut_bump ⟨rfl, by decide⟩ ⟨rfl, by decide⟩ (by decide) ..).trans (event ..)).trans
    (State.regsBut_bump ⟨rfl, by decide⟩ ⟨rfl, by decide⟩ (by decide) ..)).trans (event ..)

theorem State.regsOnly_countTrigs (s : State) (l : List Trigger) : s.RegsOnly (s.countTrigs l) :=
  (((State.regsOnly_bumpWrap ..).trans (State.regsOnly_bump ..)).trans (State.regsOnly_bump ..)).trans (State.regsOnly_bump ..)

theorem State.regsOnly_countOver (s : State) (trigs marks : Nat) : s.RegsOnly (s.countOver trigs marks) :=
  (((State.regsOnly_bump ..).trans (State.regsOnly_eventIf ..)).trans (State.regsOnly_bump ..)).trans (State.regsOnly_eventIf ..)

/-- The belfry's part writes registers of TRIG alone, besides what it hands over. -/
theorem State.regsOnly_numbered (s : State) (i : FrameInfo) : (s.handOver i).RegsOnly (s.numbered i) :=
  (State.regsOnly_countTrigs ..).trans (State.regsOnly_countOver ..)

theorem State.regsBut_numbered (s : State) (i : FrameInfo) : s.RegsBut (fun q _ => q ∈ [pgTRIG]) (s.numbered i) :=
  have handed : s.RegsBut (fun q _ => q ∈ [pgTRIG]) (s.handOver i) := .of rfl rfl
  (handed.trans (State.regsBut_countTrigs ..)).trans ((State.regsBut_countOver ..).mono fun _ _ h => List.mem_singleton.2 h.1)

theorem State.stored_numbered (s : State) (i : FrameInfo) : (s.numbered i).stored pgTRIG Reg.TRIG.TRIG_NEXT_NUM =
    (s.stored pgTRIG Reg.TRIG.TRIG_NEXT_NUM + s.newTrigs.length) % 2 ^ 24 :=
  ((State.regsBut_countOver ..).stored (by simp [OverReg]; decide) (by decide)).trans (State.stored_countTrigs ..)

/-! ### The concentrators' part (R189) -/

/-- The gleans of a concentrator that are outstanding. -/
def ConcSt.outstanding (v : ConcSt) : Nat := (v.gleans.filter (fun x => !x.refused)).length

/-- PEAK and OUTSTANDING stand in one register, apart (R199). -/
theorem State.stored_peak_outstanding (s : State) (p n : Nat) : (s.peak p Reg.GLEAN.QUEUE_STAT_PEAK n).stored p
    Reg.GLEAN.QUEUE_STAT_OUTSTANDING = s.stored p Reg.GLEAN.QUEUE_STAT_OUTSTANDING := by
  unfold State.peak
  split
  · exact State.stored_put_apart (f := Reg.GLEAN.QUEUE_STAT_PEAK) (g := Reg.GLEAN.QUEUE_STAT_OUTSTANDING) rfl (by decide)
      (by decide) (by decide) (by decide) (.inr (by decide)) ..
  · rfl

/-- A glean as a concentrator accepts it. -/
def State.acceptedGlean (s : State) (g : Trigger) : Glean :=
  { trig := g, refused := false, formed := false, nextFrame := ((g.time / 4096 : Nat) - (g.pre : Int)) / 4096,
    part := 0, hits := 0, delivered := 0, overwritten := 0, accepted := s.frame, since := s.now }

section

variable {s : State} {c : Conc} {g : Trigger}

/-- With the engine enabled and fewer than 64 outstanding, the glean is queued and counted. -/
theorem State.requestGlean_accepts (enabled : s.flag (pgGLEAN c) Reg.GLEAN.GLEAN_CTRL_ENABLE = true)
    (room : (s.conc c).outstanding < 64) :
    s.requestGlean c g = ((s.setConc c { s.conc c with gleans := (s.conc c).gleans ++ [s.acceptedGlean g] }).put (pgGLEAN c)
      Reg.GLEAN.QUEUE_STAT_OUTSTANDING ((s.conc c).outstanding + 1)).peak (pgGLEAN c) Reg.GLEAN.QUEUE_STAT_PEAK
        ((s.conc c).outstanding + 1) := by
  have ok : (s.flag (pgGLEAN c) Reg.GLEAN.GLEAN_CTRL_ENABLE &&
      decide (((s.conc c).gleans.filter (fun x => !x.refused)).length < 64)) = true :=
    Bool.and_eq_true_iff.2 ⟨enabled, decide_eq_true room⟩
  simp only [State.requestGlean, ok]
  rfl

theorem State.askConc_accepts (merging : (s.conc c).merging = true)
    (enabled : s.flag (pgGLEAN c) Reg.GLEAN.GLEAN_CTRL_ENABLE = true) (room : (s.conc c).outstanding < 64) :
    ((s.askConc g c).conc c).gleans = (s.conc c).gleans ++ [s.acceptedGlean g] ∧
      (s.askConc g c).stored (pgGLEAN c) Reg.GLEAN.QUEUE_STAT_OUTSTANDING = (s.conc c).outstanding + 1 := by
  rw [State.askConc, if_pos merging, State.requestGlean_accepts enabled room]
  constructor
  · rw [State.peak_conc, State.put_conc, State.setConc_conc_same]
  · have fits : (s.conc c).outstanding + 1 < 2 ^ 7 := by omega
    rw [State.stored_peak_outstanding]
    exact (State.stored_put_same (by decide) (by decide) ..).trans (Nat.mod_eq_of_lt fits)

variable (s c g)

/-- The other concentrator is left alone, and every page but this one's GLEAN. -/
theorem State.requestGlean_apart : (s.requestGlean c g).conc c.other = s.conc c.other ∧
    s.RegsBut (fun q _ => q ∈ [pgGLEAN c]) (s.requestGlean c g) := by
  unfold State.requestGlean
  extract_lets cs n ok u
  have other : u.conc c.other = s.conc c.other := State.setConc_conc_ne (conc_other_ne c) ..
  have regs : s.RegsBut (fun q _ => q ∈ [pgGLEAN c]) u := State.regsBut_setConc ..
  split
  · exact ⟨((State.peak_conc ..).trans (State.put_conc ..)).trans other,
      (regs.trans (State.regsBut_put (f := Reg.GLEAN.QUEUE_STAT_OUTSTANDING) List.mem_cons_self (by decide) ..)).trans
        (.ite (State.regsBut_put (f := Reg.GLEAN.QUEUE_STAT_PEAK) List.mem_cons_self (by decide) ..) (.refl _))⟩
  · exact ⟨((State.event_conc ..).trans (State.bump_conc ..)).trans other,
      (regs.trans (State.regsBut_bump List.mem_cons_self List.mem_cons_self (by decide) ..)).trans
        (State.regsBut_event List.mem_cons_self ..)⟩

theorem State.askConc_apart : (s.askConc g c).conc c.other = s.conc c.other ∧
    s.RegsBut (fun q _ => q ∈ [pgGLEAN c]) (s.askConc g c) := by
  unfold State.askConc
  split
  · exact s.requestGlean_apart c g
  · exact ⟨rfl, .refl s⟩

theorem State.askConc_only : s.Only 24664 (s.askConc g c) := .ite (State.requestGlean_only (.refl s) c g (by decide)) (.refl s)

theorem State.askGlean_only : s.Only 24664 (s.askGlean g) := (s.askConc_only .a g).trans (State.askConc_only _ .b g)

theorem State.regsBut_askGlean : s.RegsBut (fun q _ => q ∈ [pgGLEAN .a, pgGLEAN .b]) (s.askGlean g) :=
  ((s.askConc_apart .a g).2.mono (by simp)).trans ((State.askConc_apart _ .b g).2.mono (by simp))

variable {s c g}

/-- Each concentrator queues the glean whatever the other does. -/
theorem State.askGlean_accepts (merging : (s.conc c).merging = true)
    (enabled : s.flag (pgGLEAN c) Reg.GLEAN.GLEAN_CTRL_ENABLE = true) (room : (s.conc c).outstanding < 64) :
    ((s.askGlean g).conc c).gleans = (s.conc c).gleans ++ [s.acceptedGlean g] ∧
      (s.askGlean g).stored (pgGLEAN c) Reg.GLEAN.QUEUE_STAT_OUTSTANDING = (s.conc c).outstanding + 1 := by
  cases c with
  | a =>
    obtain ⟨gleans, shown⟩ := State.askConc_accepts (g := g) merging enabled room
    obtain ⟨conc, regs⟩ := (s.askConc g .a).askConc_apart .b g
    exact ⟨(congrArg ConcSt.gleans conc).trans gleans, (regs.stored (by decide) (by decide)).trans shown⟩
  | b =>
    obtain ⟨conc, regs⟩ := s.askConc_apart .a g
    have only := s.askConc_only .a g
    have conc : (s.askConc g .a).conc .b = s.conc .b := conc
    obtain ⟨gleans, shown⟩ := State.askConc_accepts (s := s.askConc g .a) (c := .b) (g := g) (by rw [conc]; exact merging)
      ((regs.flag (by decide) (by decide)).trans enabled) (by rw [conc]; exact room)
    have accepted : (s.askConc g .a).acceptedGlean g = s.acceptedGlean g := by
      simp only [State.acceptedGlean, only.frame (by decide), only.now (by decide)]
    rw [conc] at gleans shown
    exact ⟨accepted ▸ gleans, shown⟩

end

/-! ### The delivery -/

/-- Whatever the concentrators are asked, the belfry's part stays. -/
theorem State.asked_keeps (s : State) (l : List Trigger) :
    s.Only 24664 (s.each l State.askGlean) ∧
      s.RegsBut (fun q _ => q ∈ [pgGLEAN .a, pgGLEAN .b]) (s.each l State.askGlean) :=
  State.each_keeps (P := fun t => s.Only 24664 t ∧ s.RegsBut (fun q _ => q ∈ [pgGLEAN .a, pgGLEAN .b]) t)
    (fun t g _ h => ⟨h.1.trans (t.askGlean_only g), h.2.trans (t.regsBut_askGlean g)⟩) ⟨.refl s, .refl s⟩

/-- Settles O44: the belfry's part (`State.numbered`), which the concentrators leave (`State.asked_keeps`), and what each of them
makes of a glean (`State.askGlean_accepts`). -/
theorem triggersAreDelivered : Obligations.TriggersAreDelivered := by
  unfold Obligations.TriggersAreDelivered
  intro s i n new marks powered found ended
  have page := s.regsBut_numbered i
  have regs := s.regsOnly_numbered i
  obtain ⟨only, asked⟩ := (s.numbered i).asked_keeps (s.newTrigs.filter (·.glean))
  have trig := (only.trig (by decide)).trans regs.trig
  have frames := (only.frames (by decide)).trans regs.frames
  have conc (c : Conc) : (s.numbered i).conc c = s.conc c := regs.conc c
  refine ⟨_, (exec_triggerDelivery powered).trans (congrArg _ (State.deliver_eq found ended)), ?_, ?_, fun f hf => ?_, ?_, ?_,
    fun none => ?_, ?_⟩
  · rw [trig]; rfl
  · rw [frames]; exact mapFind_mapPut_same ..
  · rw [frames]; exact mapFind_mapPut_ne hf ..
  · exact (asked.stored (by decide) (by decide)).trans (s.stored_numbered i)
  · rw [trig]; rfl
  · have quiet : s.newTrigs.filter (·.glean) = [] := List.filter_eq_nil_iff.2 (List.any_eq_false.1 none)
    rw [quiet, State.each_nil]
    exact ⟨regs.concA, regs.concB, page.same⟩
  · intro c g out single glean merging enabled room
    have asks : s.newTrigs.filter (·.glean) = [g] := (congrArg _ single).trans (List.filter_cons_of_pos glean)
    obtain ⟨gleans, shown⟩ := State.askGlean_accepts (s := s.numbered i) (c := c) (g := g) (by rw [conc]; exact merging)
      ((page.flag (by cases c <;> decide) (by decide)).trans enabled) (by rw [conc]; exact room)
    rw [asks, State.each_cons, State.each_nil, gleans, shown, conc, State.acceptedGlean, regs.frame, regs.now]
    exact ⟨rfl, rfl⟩

end Sys2Proof.Machine
end

section
/-!
PROOFS. The family of live calibration: swaps are requested (R214, R215).
-/

namespace Sys2Proof.Machine

/-! ### A swap as it is requested -/

/-- What SWAP_AT and SWAP_STAT show of a swap that becomes pending. -/
def State.swapAsked (s : State) (w : PendingSwap) : State :=
  ((({ s with cal := { s.cal with swap := some w } } : State).put pgCALS Reg.CALS.SWAP_AT (sheafOf w.frame)).putB pgCALS
    Reg.CALS.SWAP_STAT_READY false).showSwap

/-- ABORT_CNT counts what is refused, with event 1. -/
def State.abortCounted (s : State) : State := (s.bump pgCALS Reg.CALS.ABORT_CNT 1).event pgCALS 1

section

variable {s : State} {w : PendingSwap}

/-- SWAP_STAT shows the swap that is pending, and changes in nothing else. -/
theorem State.showSwap_shows (swap : s.cal.swap = some w) :
    let t := s.showSwap
    t.stored pgCALS Reg.CALS.SWAP_STAT_PENDING = 1 ∧ t.stored pgCALS Reg.CALS.SWAP_STAT_COMMITTED = w.committed.toNat ∧
      t.stored pgCALS Reg.CALS.SWAP_STAT_BY_HOST = w.byHost.toNat ∧
      t.stored pgCALS Reg.CALS.SWAP_STAT_READY = s.stored pgCALS Reg.CALS.SWAP_STAT_READY ∧
      s.RegsBut (fun q o => q = pgCALS ∧ o = Reg.CALS.SWAP_STAT.off) t := by
  have eq : s.showSwap = ((s.putB pgCALS Reg.CALS.SWAP_STAT_PENDING true).putB pgCALS Reg.CALS.SWAP_STAT_COMMITTED w.committed).putB
      pgCALS Reg.CALS.SWAP_STAT_BY_HOST w.byHost := by
    simp only [State.showSwap, swap, Option.isSome_some, Option.map_some, Option.getD_some]
  have apart {f g : FieldRef} (h : g.off = f.off ∧ f.lo ≤ f.hi ∧ f.hi < 32 ∧ g.lo ≤ g.hi ∧ g.hi < 32 ∧ (f.hi < g.lo ∨ g.hi < f.lo))
      (u : State) (b : Bool) : (u.putB pgCALS f b).stored pgCALS g = u.stored pgCALS g := by
    obtain ⟨off, hf, kf, hg, kg, bits⟩ := h
    exact State.stored_put_apart off hf kf hg kg bits u pgCALS b.toNat
  intro t
  rw [show t = _ from eq]
  refine ⟨?_, ?_, ?_, ?_, ?_⟩
  · rw [apart (by decide), apart (by decide)]
    exact State.stored_putB_same (by decide) (by decide) s pgCALS true
  · rw [apart (by decide)]
    exact State.stored_putB_same (by decide) (by decide) ..
  · exact State.stored_putB_same (by decide) (by decide) ..
  · rw [apart (by decide), apart (by decide), apart (by decide)]
  · exact ((State.regsBut_putB (f := Reg.CALS.SWAP_STAT_PENDING) ⟨rfl, rfl⟩ (by decide) ..).trans
      (State.regsBut_putB (f := Reg.CALS.SWAP_STAT_COMMITTED) ⟨rfl, rfl⟩ (by decide) ..)).trans
        (State.regsBut_putB (f := Reg.CALS.SWAP_STAT_BY_HOST) ⟨rfl, rfl⟩ (by decide) ..)

/-- A swap that is requested is pending, and CALS shows it (R215). -/
structure State.SwapAsked (s t : State) (w : PendingSwap) : Prop where
  cal : t.cal = { s.cal with swap := some w }
  swapAt : t.stored pgCALS Reg.CALS.SWAP_AT = sheafOf w.frame
  pending : t.stored pgCALS Reg.CALS.SWAP_STAT_PENDING = 1
  committed : t.stored pgCALS Reg.CALS.SWAP_STAT_COMMITTED = w.committed.toNat
  byHost : t.stored pgCALS Reg.CALS.SWAP_STAT_BY_HOST = w.byHost.toNat
  ready : t.stored pgCALS Reg.CALS.SWAP_STAT_READY = 0
  regs : s.RegsBut (fun q _ => q = pgCALS) t
  parts : s.Only 8388632 t

theorem State.swapAsked_asked (s : State) (w : PendingSwap) : s.SwapAsked (s.swapAsked w) w := by
  obtain ⟨u, hu⟩ : ∃ u : State, u = { s with cal := { s.cal with swap := some w } } := ⟨_, rfl⟩
  obtain ⟨v, hv⟩ : ∃ v, v = (u.put pgCALS Reg.CALS.SWAP_AT (sheafOf w.frame)).putB pgCALS Reg.CALS.SWAP_STAT_READY false := ⟨_, rfl⟩
  have eq : s.swapAsked w = v.showSwap := by rw [hv, hu]; rfl
  have cal : v.cal = u.cal := by rw [hv, State.putB_cal, State.put_cal]
  have wrote : u.RegsBut (fun q _ => q = pgCALS) v := by
    rw [hv]
    exact (State.regsBut_put (P := fun q _ => q = pgCALS) (f := Reg.CALS.SWAP_AT) rfl (by decide) ..).trans
      (State.regsBut_putB (P := fun q _ => q = pgCALS) (f := Reg.CALS.SWAP_STAT_READY) rfl (by decide) ..)
  have parts : s.Only 8388632 u := by rw [hu]; exact .of (.refl s) (cal := .inl (by decide))
  have parts' : u.Only 8388632 v := by
    rw [hv]
    exact State.putB_only (State.put_only (.refl u) _ _ _ (by decide)) _ _ _ (by decide)
  have at_ : v.stored pgCALS Reg.CALS.SWAP_AT = sheafOf w.frame := by
    rw [hv, State.putB, State.stored_put_ne (regKey_ne_off (by decide)), State.stored_put_same (by decide) (by decide)]
    exact Nat.mod_eq_of_lt (Nat.mod_lt _ (by decide))
  have ready : v.stored pgCALS Reg.CALS.SWAP_STAT_READY = 0 := hv ▸ State.stored_putB_same (by decide) (by decide) ..
  obtain ⟨pending, committed, byHost, ready', shown⟩ := State.showSwap_shows (s := v) (w := w) (by rw [cal, hu])
  have kept : v.showSwap.cal = v.cal := (State.showSwap_only (L := 24) (.refl v) (by decide)).cal rfl
  rw [eq]
  refine ⟨?_, ?_, pending, committed, byHost, ready'.trans ready, ?_, ?_⟩
  · rw [kept, cal, hu]
  · rw [shown.stored (by decide) (by decide), at_]
  · exact ((State.RegsBut.of (by rw [hu]) (by rw [hu])).trans wrote).trans (shown.mono fun _ _ h => h.1)
  · exact State.showSwap_only (parts.trans parts') (by decide)

/-- A restoring swap needs no condition (R215, R328); any other none pending, no peal, and the pair's admission (R214). -/
theorem State.requestSwap_asked {restoring : Bool} (open_ : restoring = true ∨
    s.cal.swap = none ∧ s.peal = none ∧ s.swapAdmitted = true) (tl : Fin 16) (delay : Nat) (byHost : Bool) :
    s.SwapAsked (s.requestSwap tl delay byHost restoring)
      { tile := tl, frame := s.frame + delay, byHost := byHost, restoring := restoring, committed := false, quiet := false } := by
  have asks : ¬(!restoring && (s.cal.swap.isSome || s.peal.isSome || !s.swapAdmitted)) = true := by
    rcases open_ with rfl | ⟨swap, peal, admitted⟩
    · simp
    · simp [swap, peal, admitted]
  rw [State.requestSwap, if_neg asks]
  exact s.swapAsked_asked _

theorem State.hostSwap_asked (swap : s.cal.swap = none) (peal : s.peal = none) (admitted : s.swapAdmitted = true) :
    s.SwapAsked s.hostSwap
      { tile := Fin.ofNat 16 (s.stored pgCALS Reg.CALS.SWAP_CTRL_TILE), frame := s.frame + s.stored pgCALS Reg.CALS.SWAP_CTRL_DELAY,
        byHost := true, restoring := false, committed := false, quiet := false } :=
  State.requestSwap_asked (.inr ⟨swap, peal, admitted⟩) ..

theorem State.requestSwap_refuses (taken : s.cal.swap.isSome = true ∨ s.peal.isSome = true) (tl : Fin 16) (delay : Nat)
    (byHost : Bool) : s.requestSwap tl delay byHost false = s.abortCounted := by
  refine if_pos ?_
  rcases taken with swap | peal
  · simp [swap]
  · simp [peal]

theorem State.abortCounted_leaves (s : State) (below : s.stored pgCALS Reg.CALS.ABORT_CNT < 2 ^ 32 - 1) :
    let t := s.abortCounted
    t.stored pgCALS Reg.CALS.ABORT_CNT = s.stored pgCALS Reg.CALS.ABORT_CNT + 1 ∧
      (t.rd pgCALS Reg.HDR.EVT_PENDING.off).getLsbD 1 = true ∧ s.RegsBut (fun q _ => q = pgCALS) t ∧ s.Only 88 t := by
  refine ⟨?_, State.event_pends (by decide) .., ?_, ?_⟩
  · refine (State.stored_event_ne (regKey_ne_off (by decide)) ..).trans ?_
    exact State.stored_bump_below (f := Reg.CALS.ABORT_CNT) (by decide) (by decide) (by show _ < 2 ^ 32; omega) 1
  · exact (State.regsBut_bump (P := fun q _ => q = pgCALS) (f := Reg.CALS.ABORT_CNT) rfl rfl (by decide) ..).trans
      (State.regsBut_event (P := fun q _ => q = pgCALS) rfl ..)
  · exact State.event_only (State.bump_only (.refl s) _ _ _ _ (by decide)) _ _ (by decide)

end

/-- Whether a swap is admitted depends on what runs and on STEP_STAT alone (R214). -/
theorem State.swapAdmitted_congr {s t : State} (run : ∀ c, (t.conc c).run = (s.conc c).run) (pair : ∀ c, t.pair c = s.pair c) :
    t.swapAdmitted = s.swapAdmitted := by simp only [State.swapAdmitted, run, pair]

/-! ### GO of SWAP_CTRL (R215, R499) -/

/-- The row of a write that is taken and answered OK in state `z`. Unlike in `exec_write_ok`, what the write makes of the state may queue
events and change registers of any page but the journal's. -/
theorem exec_write_done {c : Instr} {s z : State} {h : UHdr} {p o : Nat} {v : Word} (row : s.commandOf c = some (h, .write p o v, {}))
    (takes : s.takes h (.write p o v) = true) (running : s.running = true) (ho : o < 4096)
    (run : (s.counted h).cmdWrite h p o v false (UCmd.write p o v).words =
      { result := resOK, state := z, pages := [(p, resOK)], rwl := false })
    {M : Nat} (only : (s.counted h).Only M z) (regs : (s.counted h).RegsBut (fun q _ => q ≠ pgJRNL) z) (hM : M &&& 146834194437 = 0)
    {l : List Part} (hl : (allBut (answering ++ .saved :: l)).all (fun p => !(146834194521 ||| M).testBit p.bit) = true) :
    ∃ t, exec c s = .next t ∧ s.Written t h p o v l ∧ z.Answered t ∧
      ∀ q a, a < 4096 → q ≠ pgMOD → q ≠ pgJRNL → t.rd q a = z.rd q a := by
  have bit (i : Nat) (hi : (146834194437 : Nat).testBit i = true) : M.testBit i = false := by
    simpa [Nat.testBit_land, hi] using congrArg (·.testBit i) hM
  obtain ⟨t, step, fin⟩ := exec_takes row takes rfl (by
    show ((s.counted h).cmdWrite h p o v false _).state.running = true
    rw [run]
    exact (only.running (bit 2 (by decide))).trans ((s.counted_running h).trans running))
  rw [show (s.counted h).runCmd h (.write p o v) _ {} = _ from run] at fin
  have whole : s.Only (146834194521 ||| M) t :=
    (((State.answered_counted s h).only (L := 146834194521) (by decide)).mono.trans (Nat.lor_comm M 146834194521 ▸ only.mono)).trans
      (fin.answered.only (L := 146834194521) (by decide)).mono
  have head := (regs.same pgJRNL Reg.JRNL.HEAD.off (by decide) (not_not.2 rfl)).1
  have entry := fin.entry (l := (p, o, digestOf v, 0)) (congrArg (fun o => some (p, o, digestOf v, 0)) (Nat.mod_eq_of_lt ho))
    (only.journal (bit 33 (by decide))) (only.now (bit 0 (by decide))) head
  refine ⟨t, step, ⟨fun dest => ?_, entry, whole.changes hl⟩, fin.answered, fun q a ha hm hj => ?_⟩
  · rw [← State.counted_um s h]
    exact fin.answers rfl (only.um (bit 28 (by decide)) (bit 29 (by decide)) _) dest
  · exact (fin.reg q a ha (by simp [answerKeys, hm, hj])).1

/-- SWAP_CTRL as a write of it leaves it, before its GO is looked at. -/
def State.swapCtrl (s : State) (h : UHdr) (d : RegDef) (v : Word) : State := (s.counted h).wrote .cals pgCALS 0x068 d v

section

variable (s : State) (h : UHdr) (d : RegDef) (v : Word)

/-- Of what a swap's request looks at the write changes SWAP_CTRL alone. -/
theorem State.swapCtrl_leaves :
    let w := s.swapCtrl h d v
    w.cal = s.cal ∧ w.peal = s.peal ∧ w.frame = s.frame ∧ w.swapAdmitted = s.swapAdmitted ∧
      w.stored pgCALS Reg.CALS.ABORT_CNT = s.stored pgCALS Reg.CALS.ABORT_CNT ∧
      (∀ f : FieldRef, f.off = 0x068 → w.stored pgCALS f = fieldGet f ((s.counted h).taken .cals pgCALS 0x068 d v false)) ∧
      (s.counted h).Only 17179869208 w ∧ (s.counted h).RegsBut (fun q _ => q ≠ pgJRNL) w := by
  have parts : (s.counted h).Only 17179869208 (s.swapCtrl h d v) := State.wrote_only (by decide)
  have regs : (s.counted h).RegsBut (WroteReg pgCALS 0x068) (s.swapCtrl h d v) := State.regsBut_wrote (by decide)
  have kept {p : Nat} (f : FieldRef) (um : p ≠ 5 ∧ p ≠ 6) (apart : ¬WroteReg pgCALS 0x068 p f.off) (hf : f.off < 4096) :
      (s.swapCtrl h d v).stored p f = s.stored p f := (regs.stored apart hf).trans (State.counted_stored um s h hf).1
  have counted := s.answered_counted h
  refine ⟨(parts.cal rfl).trans counted.cal, (parts.peal rfl).trans counted.peal, (parts.frame rfl).trans counted.frame, ?_, ?_, ?_, parts,
    regs.mono fun q o wrote => ?_⟩
  · refine State.swapAdmitted_congr (fun c => ?_) fun c => ?_
    · rw [parts.conc, s.counted_conc]
    · cases c
      · exact kept Reg.STEP.STEP_STAT_PAIR (by decide) (by simp [WroteReg]; decide) (by decide)
      · exact kept Reg.STEP.STEP_STAT_PAIR (by decide) (by simp [WroteReg]; decide) (by decide)
  · exact kept Reg.CALS.ABORT_CNT (by decide) (by simp [WroteReg]; decide) (by decide)
  · intro f off
    rw [State.stored, off]
    exact congrArg (fieldGet f) (State.wrote_rd (by decide) (by decide))
  · rcases wrote with e | e
    · rw [(Prod.mk.inj e).1]; decide
    · rw [(Prod.mk.inj e).1]; decide

variable {s h d}

/-- The row in which a GO lands, where `z` is what the request makes of the state. -/
theorem exec_swapGo_lands {value : Word} {z : State} (lands : s.Lands h pgCALS 0x068 (value ||| 0x80000000) .cals d)
    (running : s.running = true)
    (hz : z = (s.swapCtrl h d (value ||| 0x80000000)).hostSwap) {M : Nat} (only : (s.swapCtrl h d (value ||| 0x80000000)).Only M z)
    (regs : (s.swapCtrl h d (value ||| 0x80000000)).RegsBut (fun q _ => q = pgCALS) z) (hM : M &&& 146834194437 = 0) {l : List Part}
    (hl : (allBut (answering ++ .saved :: l)).all (fun p => !(146834194521 ||| (17179869208 ||| M)).testBit p.bit) = true) :
    ∃ t, exec (.swapGo h value) s = .next t ∧ s.Written t h pgCALS 0x068 (value ||| 0x80000000) l ∧ z.Answered t ∧
      ∀ a, a < 4096 → t.rd pgCALS a = z.rd pgCALS a := by
  obtain ⟨-, -, -, -, -, -, wrote, wroteRegs⟩ := s.swapCtrl_leaves h d (value ||| 0x80000000)
  have run := State.cmdWrite_wrote h lands.writes lands.free (by decide) (.inr rfl) (by decide) (by decide) (by decide)
    (UCmd.write pgCALS 0x068 (value ||| 0x80000000)).words
  have go : z = ((s.counted h).wrote .cals pgCALS 0x068 d (value ||| 0x80000000)).pulseNow .cals
      ((s.counted h).hostStick h 0 false true (UCmd.write pgCALS 0x068 (value ||| 0x80000000)).words) pgCALS 0x068
      (value ||| 0x80000000) ((s.counted h).unlocked pgCALS) := by
    rw [hz]
    simp [State.pulseNow, State.swapCtrl]
  rw [← go] at run
  have both : (17179869208 ||| M) &&& 146834194437 = 0 := by
    rw [Nat.and_or_distrib_right, hM]
    rfl
  obtain ⟨t, row, written, answered, reg⟩ := exec_write_done (c := .swapGo h value) rfl lands.takes running (by decide) run
    (wrote.mono.trans (Nat.lor_comm M 17179869208 ▸ only.mono)) (wroteRegs.trans (regs.mono fun q _ e => e ▸ by decide)) both hl
  exact ⟨t, row, written, answered, fun a ha => reg pgCALS a ha (by decide) (by decide)⟩

end

/-- Settles O16: GO is stored and answered (`exec_swapGo_lands`), and its request asks for the swap (`State.hostSwap_asked`) or is
refused (`State.requestSwap_refuses`). -/
theorem swapsAreRequestedByTheHost : Obligations.SwapsAreRequestedByTheHost := by
  unfold Obligations.SwapsAreRequestedByTheHost
  constructor
  · intro s h value k d v w f running lands swap peal admitted
    obtain rfl := lands.kind (x := .cals) (by decide)
    obtain ⟨cal, peal', frame, admitted', -, field, -⟩ := s.swapCtrl_leaves h d v
    have asked := State.hostSwap_asked (s := s.swapCtrl h d v) (by rw [cal, swap]) (peal'.trans peal) (admitted'.trans admitted)
    rw [field _ rfl, field _ rfl, frame] at asked
    obtain ⟨t, row, written, answered, reg⟩ := exec_swapGo_lands (l := [.cal]) lands running rfl asked.parts asked.regs (by decide) (by decide)
    have stored (g : FieldRef) (hg : g.off < 4096) : t.stored pgCALS g = (s.swapCtrl h d v).hostSwap.stored pgCALS g :=
      congrArg (fieldGet g) (reg g.off hg)
    refine ⟨t, row, written, ?_, ?_, ?_, ?_, ?_, ?_⟩
    · rw [answered.cal, asked.cal, cal]
    · rw [stored _ (by decide), asked.swapAt]
    · rw [stored _ (by decide), asked.pending]
    · rw [stored _ (by decide), asked.committed]; rfl
    · rw [stored _ (by decide), asked.byHost]; rfl
    · rw [stored _ (by decide), asked.ready]
  · intro s h value k d v running lands taken below
    obtain rfl := lands.kind (x := .cals) (by decide)
    obtain ⟨cal, peal', -, -, count, -⟩ := s.swapCtrl_leaves h d v
    have host : (s.swapCtrl h d v).hostSwap = (s.swapCtrl h d v).abortCounted :=
      State.requestSwap_refuses (by rw [cal, peal']; exact taken) ..
    obtain ⟨counts, event, regs, parts⟩ := (s.swapCtrl h d v).abortCounted_leaves (by rw [count]; exact below)
    obtain ⟨t, row, written, -, reg⟩ := exec_swapGo_lands (l := []) lands running host.symm parts regs (by decide) (by decide)
    refine ⟨t, row, written, ?_, ?_⟩
    · rw [State.stored, reg _ (by decide)]
      exact counts.trans (congrArg (· + 1) count)
    · rw [reg _ (by decide)]
      exact event

end Sys2Proof.Machine
end

section
/-!
PROOFS. The family of live calibration: results and restored entries are staged (R116, R138, R214, R328).
-/

namespace Sys2Proof.Machine

/-! ### A concentrator's staging store (R116, R137) -/

theorem length_mapPut_le {α : Type} (k : Nat) (v : α) (m : List (Nat × α)) : (mapPut k v m).length ≤ m.length + 1 := by
  induction m with
  | nil => exact Nat.le_refl 1
  | cons e r ih =>
    obtain ⟨j, w⟩ := e
    simp only [mapPut]
    split_ifs <;> simp only [List.length_cons] <;> omega

theorem mapPut_mapPut {α : Type} (k : Nat) (v w : α) (m : List (Nat × α)) : mapPut k w (mapPut k v m) = mapPut k w m := by
  induction m with
  | nil => simp [mapPut]
  | cons e r ih =>
    obtain ⟨j, x⟩ := e
    by_cases same : k = j
    · simp [mapPut, same]
    · by_cases below : k < j
      · simp [mapPut, same, below]
      · simp [mapPut, same, below, ih]

/-- The concentrator with an entry staged, unless that would be the 4097th. -/
def ConcSt.stagedIf (x : ConcSt) (chan : Nat) (e : BitVec 128) : ConcSt := if x.stageFull chan then x else x.staged chan e

/-- The same of the entries of a list in turn. -/
def ConcSt.stagedAll (x : ConcSt) (l : List (Nat × BitVec 128)) : ConcSt := l.foldl (fun x e => x.stagedIf e.1 e.2) x

section

variable {x : ConcSt} {chan : Nat} {e : BitVec 128}

theorem ConcSt.stagedIf_room (room : x.stageFull chan = false) : x.stagedIf chan e = x.staged chan e :=
  if_neg (by rw [room]; exact Bool.false_ne_true)

theorem ConcSt.stageFull_of_length (space : x.corrStaged.length < 4096) : x.stageFull chan = false := by
  rw [ConcSt.stageFull, decide_eq_false (Nat.not_le.2 space), Bool.and_false]

theorem ConcSt.run_stagedIf (x : ConcSt) (chan : Nat) (e : BitVec 128) : (x.stagedIf chan e).run = x.run := by
  unfold ConcSt.stagedIf
  split <;> rfl

theorem ConcSt.run_stagedAll (l : List (Nat × BitVec 128)) (x : ConcSt) : (x.stagedAll l).run = x.run := by
  induction l generalizing x with
  | nil => rfl
  | cons e l ih => exact (ih (x.stagedIf e.1 e.2)).trans (x.run_stagedIf ..)

/-- No more than 4096 entries meet a full store. -/
theorem ConcSt.corrStaged_stagedAll (l : List (Nat × BitVec 128)) (x : ConcSt) (space : x.corrStaged.length + l.length ≤ 4096) :
    (x.stagedAll l).corrStaged = l.foldl (fun m e => mapPut e.1 e.2 m) x.corrStaged := by
  induction l generalizing x with
  | nil => rfl
  | cons e l ih =>
    rw [List.length_cons] at space
    have eq : x.stagedIf e.1 e.2 = x.staged e.1 e.2 := ConcSt.stagedIf_room (ConcSt.stageFull_of_length (by omega))
    have grows := length_mapPut_le e.1 e.2 x.corrStaged
    have rest := ih (x.staged e.1 e.2) (by simp only [ConcSt.staged]; omega)
    rw [← eq] at rest
    exact rest.trans (by rw [eq]; rfl)

/-- What is staged anew takes the place of what was staged of the channel. -/
theorem ConcSt.staged_staged (d : BitVec 128) : (x.staged chan d).staged chan e = x.staged chan e := by
  simp only [ConcSt.staged, mapPut_mapPut, List.filter_filter, Bool.and_self]

theorem ConcSt.entryStaged_staged : (x.staged chan e).entryStaged chan = e := by
  have good : (x.staged chan e).stagedBad.contains chan = false := by simp [ConcSt.staged]
  rw [ConcSt.entryStaged, good]
  simp [ConcSt.staged]

theorem ConcSt.stageFull_staged : (x.staged chan e).stageFull chan = false := by
  simp only [ConcSt.stageFull, ConcSt.staged, mapFind_mapPut_same, Option.isNone_some, Bool.false_and]

end

/-! ### Entries are staged in one concentrator, and in both -/

theorem State.stageEntry_leaves (s : State) (c : Conc) (chan : Nat) (e : BitVec 128) :
    s.ConcMoves (s.stageEntry c chan e) c ((s.conc c).stagedIf chan e) ∧
      s.RegsBut (fun q _ => q = pgCORR c) (s.stageEntry c chan e) := by
  by_cases full : (s.conc c).stageFull chan = true
  · obtain ⟨u, hu⟩ : ∃ u, u = (s.bump (pgCORR c) Reg.CORR.STAGE_REJ_CNT 2).putB (pgCORR c) Reg.CORR.STAGE_STATUS_FULL true := ⟨_, rfl⟩
    have eq : s.stageEntry c chan e = u.event (pgCORR c) 1 := hu ▸ if_pos full
    have same : (s.conc c).stagedIf chan e = s.conc c := if_pos full
    rw [eq, same]
    constructor
    · exact .of_conc fun d => by rw [State.event_conc, hu, State.putB_conc, State.bump_conc]
    · rw [hu]
      exact ((State.regsBut_bump (P := fun q _ => q = pgCORR c) (f := Reg.CORR.STAGE_REJ_CNT) rfl rfl (by decide) ..).trans
        (State.regsBut_putB (P := fun q _ => q = pgCORR c) (f := Reg.CORR.STAGE_STATUS_FULL) rfl (by decide) ..)).trans
          (State.regsBut_event (P := fun q _ => q = pgCORR c) rfl ..)
  · have room : (s.conc c).stageFull chan = false := Bool.eq_false_iff.2 full
    obtain ⟨shown, conc, -⟩ := (s.setConc c ((s.conc c).staged chan e)).showStaged_leaves c
    rw [State.stageEntry_eq room, ConcSt.stagedIf_room room]
    exact ⟨(s.concMoves_setConc c _).then conc, (State.regsBut_setConc ..).trans shown⟩

/-- The entries of a list are staged where the concentrator stages. -/
def State.stageCorrAll (s : State) (c : Conc) (l : List (Nat × BitVec 128)) : State :=
  if (s.conc c).stages then s.each l (fun s e => s.stageEntry c e.1 e.2) else s

def ConcSt.takesAll (x : ConcSt) (l : List (Nat × BitVec 128)) : ConcSt := if x.stages then x.stagedAll l else x

theorem ConcSt.run_takesAll (x : ConcSt) (l : List (Nat × BitVec 128)) : (x.takesAll l).run = x.run := by
  unfold ConcSt.takesAll
  split
  · exact ConcSt.run_stagedAll l x
  · rfl

theorem State.each_stageEntry_leaves (c : Conc) (l : List (Nat × BitVec 128)) (s : State) :
    let t := s.each l (fun s e => s.stageEntry c e.1 e.2)
    s.ConcMoves t c ((s.conc c).stagedAll l) ∧ s.RegsBut (fun q _ => q = pgCORR c) t := by
  induction l generalizing s with
  | nil => exact ⟨.refl s c, .refl s⟩
  | cons e l ih =>
    obtain ⟨moves, regs⟩ := s.stageEntry_leaves c e.1 e.2
    obtain ⟨moves', regs'⟩ := ih (s.stageEntry c e.1 e.2)
    rw [moves.own] at moves'
    exact ⟨moves.trans moves', regs.trans regs'⟩

theorem State.stageCorrAll_leaves (s : State) (c : Conc) (l : List (Nat × BitVec 128)) :
    s.ConcMoves (s.stageCorrAll c l) c ((s.conc c).takesAll l) ∧ s.RegsBut (fun q _ => q = pgCORR c) (s.stageCorrAll c l) := by
  unfold State.stageCorrAll ConcSt.takesAll
  split
  · exact s.each_stageEntry_leaves c l
  · exact ⟨.refl s c, .refl s⟩

theorem conc_eq_other {k c : Conc} (h : k ≠ c) : k = c.other := by revert h; cases k <;> cases c <;> decide

/-- Where each update moves its own concentrator, a list of them moves those that it names. -/
theorem State.each_conc {f : State → Conc → State} {g : Conc → ConcSt → ConcSt}
    (moves : ∀ (s : State) (c : Conc), s.ConcMoves (f s c) c (g c (s.conc c))) {l : List Conc} (nodup : l.Nodup) (s : State) (k : Conc) :
    (s.each l f).conc k = if k ∈ l then g k (s.conc k) else s.conc k := by
  induction l generalizing s with
  | nil => rfl
  | cons c l ih =>
    obtain ⟨new, nodup'⟩ := List.nodup_cons.1 nodup
    obtain ⟨own, other⟩ := moves s c
    rw [State.each_cons, ih nodup']
    by_cases same : k = c
    · rw [same, if_neg new, if_pos List.mem_cons_self, own]
    · have apart : k = c.other := conc_eq_other same
      rw [apart, other]
      simp only [List.mem_cons, conc_other_ne c, false_or]

theorem mem_concs (c : Conc) : c ∈ concs := by cases c <;> decide

/-! ### Results are staged (R214) -/

/-- A result is staged in the concentrators that stage and in its tile, and waits no longer. -/
structure State.ResultStaged (s t : State) (r : CalResult) : Prop where
  cal : t.cal = { s.cal with results := s.cal.results.tail, staged := some r }
  tac : t.tacStaged = r.tac.foldl (fun m e => mapPut e.1 e.2 m) s.tacStaged
  conc : ∀ c, t.conc c = (s.conc c).takesAll r.corr
  regs : s.RegsBut (fun q _ => q ∈ [pgCORR .a, pgCORR .b]) t
  parts : s.Only 8418392 t

theorem State.stageResult_staged (s : State) (r : CalResult) : s.ResultStaged (s.stageResult r) r := by
  obtain ⟨u, hu⟩ : ∃ u, u = s.each concs (fun s c => s.stageCorrAll c r.corr) := ⟨_, rfl⟩
  have eq : s.stageResult r = { u with
      tacStaged := r.tac.foldl (fun m e => mapPut e.1 e.2 m) u.tacStaged
      rwsStaged := r.taps.foldl (fun m e => mapPut (regKey (pgTDC r.tile) (0x100 + 4 * e.1)) (BitVec.ofNat 32 e.2) m) u.rwsStaged
      cal := { u.cal with results := u.cal.results.tail, staged := some r } } := by rw [hu]; rfl
  have parts : s.Only 24664 u := by
    rw [hu]
    refine .each (fun v c h => .ite ?_ h) (.refl s)
    exact .each (fun w e h => State.stageEntry_only h c e.1 e.2 (by decide)) h
  have conc (c : Conc) : u.conc c = (s.conc c).takesAll r.corr := by
    have both := State.each_conc (g := fun _ x => x.takesAll r.corr) (fun s c => (s.stageCorrAll_leaves c r.corr).1)
      (l := concs) (by decide) s c
    rw [hu, both, if_pos (mem_concs c)]
  have regs : s.RegsBut (fun q _ => q ∈ [pgCORR .a, pgCORR .b]) u := by
    rw [hu]
    refine .each (fun v c _ => (v.stageCorrAll_leaves c r.corr).2.mono fun q _ h => ?_) s
    cases c <;> simp [h]
  refine ⟨?_, ?_, fun c => ?_, ?_, State.stageResult_only (.refl s) r (by decide)⟩
  · rw [eq, ← parts.cal rfl]
  · rw [eq, ← parts.tacStaged rfl]
  · rw [← conc c, eq]
    cases c <;> rfl
  · rw [eq]
    exact regs.trans (.of rfl rfl)

section

variable {s t : State} {r : CalResult}

theorem State.ResultStaged.flag (h : s.ResultStaged t r) (f : FieldRef) (hf : f.off < 4096) : t.flag pgCALS f = s.flag pgCALS f :=
  h.regs.flag (by decide) hf

/-- Staging leaves the pair as it is. -/
theorem State.ResultStaged.admitted (h : s.ResultStaged t r) : t.swapAdmitted = s.swapAdmitted :=
  State.swapAdmitted_congr (fun c => by rw [h.conc, ConcSt.run_takesAll])
    fun c => h.regs.stored (by cases c <;> decide) (by decide)

/-- An empty store that stages takes every entry of the result. -/
theorem State.ResultStaged.corrStaged (h : s.ResultStaged t r) {c : Conc} (stages : (s.conc c).stages = true)
    (empty : (s.conc c).corrStaged = []) (space : r.corr.length ≤ 4096) :
    (t.conc c).corrStaged = r.corr.foldl (fun m e => mapPut e.1 e.2 m) [] := by
  have all := ConcSt.corrStaged_stagedAll r.corr (s.conc c) (by rw [empty, List.length_nil, Nat.zero_add]; exact space)
  rw [h.conc, ConcSt.takesAll, if_pos stages, all, empty]

/-- Without AUTO_SWAP the results are READY, with event 4 where they were not (R214). -/
theorem State.requestStaged_ready (auto : s.flag pgCALS Reg.CALS.CTRL_AUTO_SWAP = false) :
    let t := s.requestStaged r
    s.Only 88 t ∧ t.stored pgCALS Reg.CALS.SWAP_STAT_READY = 1 ∧
      (s.flag pgCALS Reg.CALS.SWAP_STAT_READY = false → (t.rd pgCALS Reg.HDR.EVT_PENDING.off).getLsbD 4 = true) := by
  obtain ⟨u, hu⟩ : ∃ u, u = s.putB pgCALS Reg.CALS.SWAP_STAT_READY true := ⟨_, rfl⟩
  have eq : s.requestStaged r = u.eventIf (!s.flag pgCALS Reg.CALS.SWAP_STAT_READY) pgCALS 4 :=
    hu ▸ if_neg (by rw [auto]; exact Bool.false_ne_true)
  have shown : u.stored pgCALS Reg.CALS.SWAP_STAT_READY = 1 := hu ▸ State.stored_putB_same (by decide) (by decide) ..
  intro t
  rw [show t = _ from eq]
  refine ⟨State.eventIf_only (hu ▸ State.putB_only (.refl s) _ _ _ (by decide)) _ _ _ (by decide), ?_, fun was => ?_⟩
  · exact (State.sameReg_eventIf (regKey_ne_off (by decide)) ..).stored.trans shown
  · rw [was]
    exact State.event_pends (by decide) ..

/-- With AUTO_SWAP their swap is requested four frames ahead (R214). -/
theorem State.requestStaged_asked (auto : s.flag pgCALS Reg.CALS.CTRL_AUTO_SWAP = true) (swap : s.cal.swap = none)
    (peal : s.peal = none) (admitted : s.swapAdmitted = true) :
    s.SwapAsked (s.requestStaged r)
      { tile := r.tile, frame := s.frame + 4, byHost := false, restoring := false, committed := false, quiet := false } := by
  rw [State.requestStaged, if_pos auto]
  exact State.requestSwap_asked (.inr ⟨swap, peal, admitted⟩) ..

/-- Either way the engine keeps what is staged and what waits. -/
theorem State.requestStaged_cal (swap : s.cal.swap = none) (peal : s.peal = none) (admitted : s.swapAdmitted = true) (r : CalResult) :
    ∃ w, (s.requestStaged r).cal = { s.cal with swap := w } := by
  cases auto : s.flag pgCALS Reg.CALS.CTRL_AUTO_SWAP with
  | true => exact ⟨_, (State.requestStaged_asked auto swap peal admitted).cal⟩
  | false => exact ⟨s.cal.swap, (State.requestStaged_ready auto).1.cal rfl⟩

end

/-! ### The engine (R214) -/

theorem exec_engineStage {s : State} (h : s.powered = true) : exec .engineStage s = .next s.engineStage :=
  congrArg Host.Outcome.next (if_pos h)

theorem State.engineStage_waiting {s : State} {r : CalResult} {rest : List CalResult} (warm : s.cal.warm = [])
    (staged : s.cal.staged = none) (results : s.cal.results = r :: rest) :
    s.engineStage = if s.mayStage then (s.stageResult r).requestStaged r else s := by
  simp only [State.engineStage, warm, staged, results]

/-- While frames run WAIT shows that a condition of R214 fails. -/
theorem State.windowWord_wait {s : State} (running : s.running = true) (waits : s.mayStage = false) :
    (s.windowWord .cals pgCALS Reg.CALS.SWAP_STAT.off).map (·.getLsbD 26) = some true := by
  have eq : s.windowWord .cals pgCALS Reg.CALS.SWAP_STAT.off =
      some (fieldPut Reg.CALS.SWAP_STAT_WAIT (s.running && !s.mayStage).toNat (s.rd pgCALS Reg.CALS.SWAP_STAT.off)) := by
    unfold State.windowWord
    exact if_pos rfl
  rw [eq, running, waits, Option.map_some, getLsbD_fieldPut _ _ _ _ (by decide) (by decide) (by decide)]
  rfl

theorem State.mayStage_admits {s : State} (may : s.mayStage = true) : s.swapAdmitted = true ∧ s.peal = none := by
  simp only [State.mayStage, Bool.and_eq_true, Option.isNone_iff_eq_none] at may
  exact ⟨may.1.1.2, may.1.2⟩

/-! ### A restored entry (R328) -/

/-- The bits of a word that the window writes (R138). -/
theorem testBit_windowMask (w j : Nat) :
    (if w = 0 then 0xFFFC0000 else 0xFFFFFFFF).testBit j = decide (j < 32 ∧ (w = 0 → 18 ≤ j)) := by
  by_cases zero : w = 0
  · have mask : (0xFFFC0000 : Nat) = (2 ^ 14 - 1) * 2 ^ 18 := rfl
    rw [if_pos zero, mask, Nat.testBit_mul_two_pow, Nat.testBit_two_pow_sub_one, ← Bool.decide_and]
    exact decide_eq_decide.2 (by omega)
  · have mask : (0xFFFFFFFF : Nat) = 2 ^ 32 - 1 := rfl
    rw [if_neg zero, mask, Nat.testBit_two_pow_sub_one]
    exact decide_eq_decide.2 (by omega)

/-- A bit of an entry with a word of it replaced. -/
theorem getLsbD_entryPut (e : BitVec 128) (w : Nat) (v : Word) {i : Nat} (hi : i < 128) :
    (entryPut e w v).getLsbD i = if i / 32 = w ∧ 18 ≤ i then v.getLsbD (i % 32) else e.getLsbD i := by
  simp only [entryPut, BitVec.getLsbD_or, BitVec.getLsbD_and, BitVec.getLsbD_not, BitVec.getLsbD_ofNat, Nat.testBit_mul_two_pow,
    testBit_windowMask, hi, decide_true, Bool.true_and]
  by_cases here : i / 32 = w ∧ 18 ≤ i
  · have above : 32 * w ≤ i := by omega
    have place : i - 32 * w = i % 32 := by omega
    have written : i % 32 < 32 ∧ (w = 0 → 18 ≤ i % 32) := by omega
    rw [if_pos here, place, decide_eq_true above, decide_eq_true written]
    simp [BitVec.getLsbD]
  · have off : ¬(32 * w ≤ i ∧ i - 32 * w < 32 ∧ (w = 0 → 18 ≤ i - 32 * w)) := by omega
    rw [if_neg here, ← Bool.decide_and, decide_eq_false off]
    simp

theorem getLsbD_entryWord (e : BitVec 128) (w : Nat) {j : Nat} (hj : j < 32) : (entryWord e w).getLsbD j = e.getLsbD (32 * w + j) := by
  rw [entryWord, BitVec.getLsbD_ofNat, Nat.testBit_div_two_pow, decide_eq_true hj, Bool.true_and, Nat.add_comm, BitVec.getLsbD]

/-- A bit of an entry of which SET_EPOCH and the reserved bits are replaced (R110). -/
theorem getLsbD_entrySet_low (e : BitVec 128) (v : Nat) {i : Nat} (hi : i < 128) :
    (entrySet e 17 0 v).getLsbD i = if i < 18 then v.testBit i else e.getLsbD i := by
  have mask : ((2 ^ (17 - 0 + 1) - 1) * 2 ^ 0 : Nat).testBit i = decide (i < 18) := Nat.testBit_two_pow_sub_one 18 i
  simp only [entrySet, BitVec.getLsbD_or, BitVec.getLsbD_and, BitVec.getLsbD_not, BitVec.getLsbD_ofNat, mask, hi, decide_true,
    Bool.true_and]
  by_cases low : i < 18
  · simp [low]
  · simp [low]

/-- Written word by word over another entry, an entry keeps of that what the window cannot write: SET_EPOCH and the reserved bits. -/
theorem entryPut_words (e x : BitVec 128) :
    (List.range 4).foldl (fun y w => entryPut y w (entryWord e w)) x = entrySet e 17 0 x.toNat := by
  refine BitVec.eq_of_getLsbD_eq fun i hi => ?_
  have bit (y : BitVec 128) (w : Nat) : (entryPut y w (entryWord e w)).getLsbD i =
      if i / 32 = w ∧ 18 ≤ i then e.getLsbD i else y.getLsbD i := by
    rw [getLsbD_entryPut _ _ _ hi, getLsbD_entryWord _ _ (Nat.mod_lt _ (by decide))]
    refine ite_congr rfl (fun here => ?_) fun _ => rfl
    rw [← here.1, Nat.div_add_mod]
  have words : List.range 4 = [0, 1, 2, 3] := rfl
  simp only [words, List.foldl_cons, List.foldl_nil, bit, getLsbD_entrySet_low _ _ hi]
  by_cases low : i < 18
  · rw [if_neg (by omega), if_neg (by omega), if_neg (by omega), if_neg (by omega), if_pos low]
    rfl
  · have some_ : i / 32 = 3 ∨ i / 32 = 2 ∨ i / 32 = 1 ∨ i / 32 = 0 := by omega
    simp only [low, Nat.not_lt.1 low, and_true, if_false]
    rcases some_ with h | h | h | h <;> simp [h]

/-- The concentrator with word `w` of a channel's entry written to its window. -/
def ConcSt.restored (x : ConcSt) (chan w : Nat) (v : Word) : ConcSt :=
  if x.stages then x.stagedIf chan (entryPut (x.entryStaged chan) w v) else x

/-- A word that the core restores is staged in both concentrators, where they stage (R116). -/
theorem State.restoreWord_conc (s : State) (c : Conc) (chan w : Nat) (v : Word) (k : Conc) :
    (s.restoreWord c chan w v).conc k = (s.conc k).restored chan w v := by
  unfold State.restoreWord
  extract_lets on taken staged entry x
  have noted : staged.Only 146028888088 (x.2.each taken (fun s k => s.noteChange (pgCORR k) x.1)) :=
    .each (fun v k h => State.noteChange_only h _ _ (by decide)) (State.append_only (.refl staged) _ (by decide))
  have both := State.each_conc (g := fun _ x => x.stagedIf chan (entryPut (x.entryStaged chan) w v))
    (fun s k => (s.stageEntry_leaves k chan _).1) (l := on) ((by decide : concs.Nodup).filter _) s k
  rw [noted.conc k]
  refine both.trans (ite_congr (propext ?_) (fun _ => rfl) fun _ => rfl)
  simp only [on, List.mem_filter, mem_concs, true_and]

theorem State.each_restoreWord_conc (c : Conc) (chan : Nat) (f : Nat → Word) (l : List Nat) (s : State) (k : Conc) :
    (s.each l (fun s w => s.restoreWord c chan w (f w))).conc k = l.foldl (fun x w => x.restored chan w (f w)) (s.conc k) := by
  induction l generalizing s with
  | nil => rfl
  | cons w l ih =>
    rw [State.each_cons, ih, State.restoreWord_conc]
    rfl

/-- Words written one after the other stage one entry. -/
theorem ConcSt.foldl_restored {x : ConcSt} (stages : x.stages = true) (chan : Nat) (f : Nat → Word) (l : List Nat) (e : BitVec 128) :
    l.foldl (fun x w => x.restored chan w (f w)) (x.staged chan e) =
      x.staged chan (l.foldl (fun y w => entryPut y w (f w)) e) := by
  induction l generalizing e with
  | nil => rfl
  | cons w l ih =>
    have word : (x.staged chan e).restored chan w (f w) = x.staged chan (entryPut e w (f w)) := by
      have stages' : (x.staged chan e).stages = true := stages
      rw [ConcSt.restored, if_pos stages', ConcSt.stagedIf_room ConcSt.stageFull_staged, ConcSt.entryStaged_staged, ConcSt.staged_staged]
    rw [List.foldl_cons, List.foldl_cons, word, ih]

/-- A channel for which there is room has its entry restored, but for SET_EPOCH and the reserved bits. -/
theorem ConcSt.restored_words {x : ConcSt} {chan : Nat} (stages : x.stages = true) (room : x.stageFull chan = false) (e : BitVec 128) :
    (List.range 4).foldl (fun x w => x.restored chan w (entryWord e w)) x =
      x.staged chan (entrySet e 17 0 (x.entryStaged chan).toNat) := by
  have words : List.range 4 = 0 :: [1, 2, 3] := rfl
  have start : x.restored chan 0 (entryWord e 0) = x.staged chan (entryPut (x.entryStaged chan) 0 (entryWord e 0)) := by
    rw [ConcSt.restored, if_pos stages, ConcSt.stagedIf_room room]
  refine Eq.trans ?_ (congrArg (x.staged chan) (entryPut_words e (x.entryStaged chan)))
  rw [words, List.foldl_cons, start, ConcSt.foldl_restored stages]
  rfl

theorem exec_restoringSwapRequest {s : State} (h : s.powered = true) (c : Conc) (chan : BitVec 16) :
    exec (.restoringSwapRequest c chan) s = .next (s.restoreEntry c chan.toNat) := congrArg Host.Outcome.next (if_pos h)

/-- The words of a channel's copy in MRAM, staged. -/
def State.entryRestored (s : State) (c : Conc) (chan : Nat) : State :=
  s.each (List.range 4) (fun u w => u.restoreWord c chan w (entryWord (mapGetD 0 chan s.mramCorr) w))

theorem State.entryRestored_only (s : State) (c : Conc) (chan : Nat) : s.Only 146028912728 (s.entryRestored c chan) :=
  .each (fun _ w h => State.restoreWord_only h c chan w _ (by decide)) (.refl s)

theorem State.restoreEntry_eq {s : State} {c : Conc} {chan : Nat} (poisoned : (s.conc c).entryPoisoned chan = true)
    (peal : s.peal = none) (swap : s.cal.swap = none) :
    s.restoreEntry c chan = (s.entryRestored c chan).requestSwap (chTile chan) 4 false true :=
  if_pos (by simp [poisoned, peal, swap])

/-- Settles O46: results are staged (`State.stageResult_staged`) and their swap requested (`State.requestSwap_asked`) or shown READY; a
poisoned entry is staged from its copy word by word (`ConcSt.restored_words`). -/
theorem resultsAreStagedAndSwapsRequested : Obligations.ResultsAreStagedAndSwapsRequested := by
  unfold Obligations.ResultsAreStagedAndSwapsRequested
  constructor
  · intro s r rest on warm staged results swap
    have engine := State.engineStage_waiting warm staged results
    cases may : s.mayStage with
    | true =>
      obtain ⟨admitted, peal⟩ := State.mayStage_admits may
      obtain ⟨u, hu⟩ : ∃ u, u = s.stageResult r := ⟨_, rfl⟩
      have done : s.ResultStaged u r := hu ▸ s.stageResult_staged r
      rw [if_pos may, ← hu] at engine
      have swap' : u.cal.swap = none := (congrArg CalSt.swap done.cal).trans swap
      have peal' : u.peal = none := (done.parts.peal rfl).trans peal
      have admitted' : u.swapAdmitted = true := done.admitted.trans admitted
      have auto_ := done.flag Reg.CALS.CTRL_AUTO_SWAP (by decide)
      have parts : u.Only 8388696 (u.requestStaged r) := State.requestStaged_only (.refl u) r (by decide)
      obtain ⟨w, cal⟩ := State.requestStaged_cal swap' peal' admitted' r
      rw [done.cal, results] at cal
      refine ⟨_, (exec_engineStage on).trans (congrArg _ engine), fun _ => ⟨by rw [cal], by rw [cal]; rfl, fun c stages empty space => ?_,
        (parts.tacStaged rfl).trans done.tac⟩, fun _ auto => ?_, fun _ auto => ?_, nofun⟩
      · rw [parts.conc, done.corrStaged stages empty space]
      · have asked := State.requestStaged_asked (r := r) (auto_.trans auto) swap' peal' admitted'
        rw [done.parts.frame rfl] at asked
        exact ⟨congrArg CalSt.swap asked.cal, asked.swapAt⟩
      · obtain ⟨same, shown, event⟩ := State.requestStaged_ready (r := r) (auto_.trans auto)
        exact ⟨(congrArg CalSt.swap (same.cal rfl)).trans swap', shown,
          fun was => event ((done.flag Reg.CALS.SWAP_STAT_READY (by decide)).trans was)⟩
    | false =>
      rw [if_neg (by rw [may]; exact Bool.false_ne_true)] at engine
      exact ⟨s, (exec_engineStage on).trans (congrArg _ engine), nofun, nofun, nofun,
        fun _ => ⟨rfl, fun running => State.windowWord_wait running may⟩⟩
  · intro s c chan e on poisoned peal swap
    have asked := State.requestSwap_asked (s := s.entryRestored c chan.toNat) (restoring := true) (.inl rfl) (chTile chan.toNat) 4 false
    have parts := s.entryRestored_only c chan.toNat
    rw [← State.restoreEntry_eq poisoned peal swap, parts.frame rfl] at asked
    refine ⟨_, exec_restoringSwapRequest on c chan, by rw [asked.cal, parts.cal rfl], fun k stages room => ?_, asked.swapAt, asked.pending⟩
    rw [asked.parts.conc, State.entryRestored, State.each_restoreWord_conc, ConcSt.restored_words stages room, ConcSt.staged]

end Sys2Proof.Machine
end

section
/-!
PROOFS. The family of live calibration: side items, and the end of a turn (R203-R213).
-/

namespace Sys2Proof.Machine

/-! ### Side items (R203, R210) -/

theorem exec_sideItem {s : State} {c : Conc} (h : s.mergeOn c = true) (tl : Fin 16) (read port : EccRead) :
    exec (.sideItem c tl read port) s = .next (s.sideItemCmd c tl read port) := congrArg Host.Outcome.next (if_pos h)

/-- The item at the head of a side channel is taken from it. -/
def State.sideTaken (s : State) (c : Conc) (tl : Fin 16) (r : List (BitVec 32)) : State := s.setPort tl c { s.port tl c with side := r }

section

variable {s : State} {c : Conc} {tl : Fin 16} {i : BitVec 32} {r : List (BitVec 32)}

/-- An item that reads clean is a calibration hit's, enters the histograms, or is dropped. -/
theorem State.sideItemCmd_clean (side : (s.port tl c).side = i :: r) (merging : (s.conc c).merging = true) :
    s.sideItemCmd c tl .clean .clean =
      let u := s.sideTaken c tl r
      let chan := tl.val * 4096 + bitsOf 25 14 i.toNat
      if bitsOf 31 30 i.toNat = 2 then u.pairItem c chan (bitsOf 7 0 i.toNat) (i.toNat.testBit 29)
      else if u.histAccepts c tl (bitsOf 31 30 i.toNat) (i.toNat.testBit 29) chan then
        u.addHist c tl chan (bitsOf 13 8 i.toNat) (bitsOf 7 0 i.toNat)
      else u := by
  simp only [State.sideItemCmd, side, merging, if_true]
  rfl

/-- Taking an item leaves what the histograms and the pairing look at. -/
theorem State.sideTaken_histAccepts (kind : Nat) (gen : Bool) (chan : Nat) :
    (s.sideTaken c tl r).histAccepts c tl kind gen chan = s.histAccepts c tl kind gen chan := by
  simp [State.histAccepts, State.sideTaken, State.turnTile, State.isMasked, State.isSelfMasked, State.chFlag, State.chFld]

theorem State.sideTaken_histConc : (s.sideTaken c tl r).histConc = s.histConc := by
  simp [State.histConc, State.holder, State.sideTaken]

/-- The concentrator with a code and a tap counted. -/
def ConcSt.counted (x : ConcSt) (bin tap : Nat) : ConcSt :=
  { x with hist := mapPut bin (mapGetD 0 bin x.hist + 1) x.hist, tapHist := mapPut tap (mapGetD 0 tap x.tapHist + 1) x.tapHist }

/-- Bins below their maximum count one more, and none overflows (R203). -/
theorem State.addHist_counts {chan tap code : Nat} (bin : mapGetD 0 (chan * 256 + code) (s.conc c).hist < 65535)
    (taps : mapGetD 0 (tl.val * 64 + tap) (s.conc c).tapHist < 2 ^ 32 - 1) :
    s.addHist c tl chan tap code = s.setConc c ((s.conc c).counted (chan * 256 + code) (tl.val * 64 + tap)) := by
  simp only [State.addHist, addBin, bin, taps, if_true, Bool.or_self, Bool.false_eq_true, if_false]
  rfl

/-- A record that R210 does not exclude, of the concentrator the engine reads, enters its channel's sums as its item pairs with it. -/
theorem State.pairItem_pairs {k : Capture} {code : Nat} {gen : Bool} (only : (s.conc c).captured = [k]) (engine : c = s.histConc)
    (flags : Nat.land k.flags 13 = 0) (parity : gen = (s.rx c (chTile k.chan)).parity) :
    let t := s.pairItem c k.chan code gen
    (t.conc c).captured = [] ∧
      (mapGetD {} k.chan t.cal.sums).n = (mapGetD {} k.chan s.cal.sums).n + 1 ∧
      (mapGetD {} k.chan t.cal.sums).d = (mapGetD {} k.chan s.cal.sums).d + (code : Rat) ∧
      (mapGetD {} k.chan t.cal.sums).t = (mapGetD {} k.chan s.cal.sums).t + (k.tot : Rat) ∧ t.tiles = s.tiles := by
  obtain ⟨u, hu⟩ : ∃ u, u = s.setConc c { s.conc c with captured := [] } := ⟨_, rfl⟩
  have engine' : c = u.histConc := by
    rw [hu]
    simpa [State.histConc, State.holder] using engine
  have included : ¬(Nat.land k.flags 13 ≠ 0 ∨ gen ≠ (u.rx c (chTile k.chan)).parity) := by
    have rx : u.rx c (chTile k.chan) = s.rx c (chTile k.chan) := by rw [State.rx, hu, State.setConc_conc_same]; rfl
    rw [rx, flags, parity]
    simp
  have eq : s.pairItem c k.chan code gen = u.includeRecord c k code gen := by
    simp only [State.pairItem, only, List.find?_cons, beq_self_eq_true, dropCapture, if_true]
    rw [← hu, if_pos engine']
  intro t
  rw [show t = _ from eq, State.includeRecord, if_neg included]
  have cal : u.cal = s.cal := by rw [hu, State.setConc_cal]
  refine ⟨?_, ?_, ?_, ?_, ?_⟩
  · show (u.conc c).captured = []
    rw [hu, State.setConc_conc_same]
  · rw [← cal]; simp [CalSums.add]
  · rw [← cal]; simp [CalSums.add]
  · rw [← cal]; simp [CalSums.add]
  · show u.tiles = s.tiles
    rw [hu, State.setConc_tiles]

end

theorem chTile_of_tile (tl : Fin 16) {n : Nat} (h : n < 4096) : chTile (tl.val * 4096 + n) = tl := by
  apply Fin.ext
  show (tl.val * 4096 + n) / 4096 % 16 = tl.val
  omega

/-! ### The end of a turn (R204-R213) -/

theorem exec_turnAccumEnd {s : State} (h : s.powered = true) : exec .turnAccumEnd s = .next s.turnAccumEnd :=
  congrArg Host.Outcome.next (if_pos h)

/-- What CH_CAL's counting of a fit leaves: the results that wait, the events that are pending, and every page but CALS. -/
structure State.FitCounted (s t : State) : Prop where
  results : t.cal.results = s.cal.results
  event : ∀ i, (s.rd pgCALS Reg.HDR.EVT_PENDING.off).getLsbD i = true → (t.rd pgCALS Reg.HDR.EVT_PENDING.off).getLsbD i = true
  regs : s.RegsBut (fun q _ => q ∈ [pgCALS]) t

section

variable {s t u : State}

theorem State.FitCounted.refl (s : State) : s.FitCounted s := ⟨rfl, fun _ => id, .refl s⟩

theorem State.FitCounted.trans (h : s.FitCounted t) (k : t.FitCounted u) : s.FitCounted u :=
  ⟨k.results.trans h.results, fun i b => k.event i (h.event i b), h.regs.trans k.regs⟩

theorem State.fitCounted_event (s : State) (b : Nat) : s.FitCounted (s.event pgCALS b) :=
  ⟨congrArg CalSt.results (State.event_cal ..), fun _ h => State.event_keeps_bit h b, State.regsBut_event List.mem_cons_self ..⟩

theorem State.fitCounted_eventIf (s : State) (c : Bool) (b : Nat) : s.FitCounted (s.eventIf c pgCALS b) := by
  unfold State.eventIf
  split
  · exact s.fitCounted_event b
  · exact .refl s

/-- A counter's update leaves EVT_PENDING. -/
theorem State.fitCounted_regs (cal : t.cal = s.cal) (regs : s.RegsBut (fun q o => q = pgCALS ∧ o ≠ Reg.HDR.EVT_PENDING.off) t) :
    s.FitCounted t :=
  ⟨congrArg CalSt.results cal, fun _ h => by rw [(regs.same pgCALS Reg.HDR.EVT_PENDING.off (by decide) (by simp)).1]; exact h,
    regs.mono fun _ _ h => List.mem_singleton.2 h.1⟩

theorem State.fitCounted_put {f : FieldRef} (hf : f.off < 4096) (apart : f.off ≠ Reg.HDR.EVT_PENDING.off) (s : State) (v : Nat) :
    s.FitCounted (s.put pgCALS f v) := State.fitCounted_regs (State.put_cal ..) (State.regsBut_put ⟨rfl, apart⟩ hf s v)

theorem State.fitCounted_countFit (s : State) (chan : Nat) (k : ChanFit) : s.FitCounted (s.countFit chan k) := by
  unfold State.countFit
  extract_lets old fails₀ rej fails bad was new cal u v
  have count : s.FitCounted v := .trans (t := u) ⟨rfl, fun _ => id, .of rfl rfl⟩
    (State.fitCounted_regs (State.bump_cal ..) (State.regsBut_bump (f := Reg.CALS.REJ_CNT) ⟨rfl, by decide⟩ ⟨rfl, by decide⟩ (by decide) u 4 rej))
  split
  · exact (count.trans (v.fitCounted_put (by decide) (by decide) _)).trans (State.fitCounted_event ..)
  · exact count.trans (v.fitCounted_eventIf ..)

theorem State.fitCounted_each (l : List (Nat × ChanFit)) (s : State) : s.FitCounted (s.each l (fun s x => s.countFit x.1 x.2)) :=
  State.each_keeps (P := fun t => s.FitCounted t) (fun t x _ k => k.trans (t.fitCounted_countFit x.1 x.2)) (.refl s)

/-- Without a refit no TAC map is fitted (R206). -/
theorem State.fitChan_tacOk (s : State) (chan : Nat) (moved : Bool) : (s.fitChan chan none moved).tacOk = false := by
  unfold State.fitChan
  dsimp only
  split <;> rfl

theorem State.noTac_of_noRefit (s : State) (l : List Nat) {refit : Option (Rat × Rat)} (none : refit = none) (moved : Bool) :
    (l.map (fun c => (c, s.fitChan c refit moved))).filterMap
      (fun x => if x.2.tacOk then some (x.1, entryWord x.2.entry 3) else .none) = [] := by
  simp [none, List.filterMap_map, State.fitChan_tacOk]

end

/-- The tile's taps have items enough for a refit (R205). -/
def State.tapsEnough (s : State) (tl : Fin 16) : Bool :=
  s.flag pgCALS Reg.CALS.CTRL_CD_EN &&
    decide (64 * s.fld pgCALS Reg.CALS.CD_HITS_HITS ≤ ((s.conc s.histConc).tapCounts tl).sum)

/-- A turn's end, of what it fitted: the fits are counted, and the result waits. -/
def State.turnEnded (s : State) (uneven : Bool) (fits : List (Nat × ChanFit)) (r : CalResult) : State :=
  let u := (s.eventIf uneven pgCALS 3).each fits (fun s x => s.countFit x.1 x.2)
  { u with freeCount := u.freeCount + 1, cal := { u.cal with turnOn := false, results := u.cal.results ++ [r] } }

theorem State.turnEnded_leaves (s : State) (uneven : Bool) (fits : List (Nat × ChanFit)) (r : CalResult) :
    let t := s.turnEnded uneven fits r
    t.cal.turnOn = false ∧ t.cal.results = s.cal.results ++ [r] ∧
      (uneven = true → (t.rd pgCALS Reg.HDR.EVT_PENDING.off).getLsbD 3 = true) ∧ s.RegsBut (fun q _ => q ∈ [pgCALS]) t := by
  have counted := State.fitCounted_each fits (s.eventIf uneven pgCALS 3)
  have ended := (s.fitCounted_eventIf uneven 3).trans counted
  refine ⟨rfl, congrArg (· ++ [r]) ended.results, fun rejected => counted.event 3 ?_, ended.regs.trans (.of rfl rfl)⟩
  rw [rejected]
  exact State.event_pends (by decide) ..

/-- The result of a turn: positions of the taps where they have items enough and are uniform, and no TAC map where they have not
(R205, R206). -/
theorem State.fitTurn_ends (s : State) (tl : Fin 16) :
    let ns := (s.conc s.histConc).tapCounts tl
    ∃ fits r, s.fitTurn tl = s.turnEnded (s.tapsEnough tl && !(s.tapsEnough tl && uniform ns)) fits r ∧ r.tile = tl ∧
      r.taps = (if s.tapsEnough tl && uniform ns then tapFields ns else []) ∧ (s.tapsEnough tl = false → r.tac = []) := by
  unfold State.fitTurn
  generalize chansOf tl = l
  refine ⟨_, _, rfl, rfl, rfl, fun few => ?_⟩
  have rejected : (s.tapsEnough tl && uniform ((s.conc s.histConc).tapCounts tl)) = false := by rw [few]; rfl
  exact s.noTac_of_noRefit l (if_neg (ne_true_of_eq_false rejected)) _

/-- A turn ends at the timeout, or once every channel that is not masked has its items (R204). -/
theorem State.turnDue_of {s : State} (due : s.cal.turnFrom + s.fld pgCALS Reg.CALS.CD_TIMEOUT_SEC * 1000 * 640000 ≤ s.now ∨
    (∀ c ∈ chansOf s.turnTile, s.isMasked c = true ∨ s.isSelfMasked c = true ∨
      s.fld pgCALS Reg.CALS.CD_HITS_HITS ≤ ((s.conc s.histConc).codes c).sum)) : s.turnDue = true := by
  rcases due with timeout | full
  · exact Bool.or_eq_true_iff.2 (.inl (decide_eq_true timeout))
  · refine Bool.or_eq_true_iff.2 (.inr (List.all_eq_true.2 fun c hc => ?_))
    simpa [or_assoc] using full c hc

/-- Settles O45: an item that the settings admit is counted (`State.addHist_counts`), one of a calibration hit pairs with its record
(`State.pairItem_pairs`); a turn that is due leaves its result (`State.fitTurn_ends`). -/
theorem turnsAccumulateAndEnd : Obligations.TurnsAccumulateAndEnd := by
  unfold Obligations.TurnsAccumulateAndEnd
  refine ⟨?_, ?_, ?_⟩
  · intro s c tl i r v kind chan bin tap on side physics turn inTurn cd stream shadow gen mask smask below belowTap
    have merging : (s.conc c).merging = true := by
      simp only [State.mergeOn, Bool.and_eq_true] at on
      exact on.1.2
    have admits : (s.sideTaken c tl r).histAccepts c tl kind (v.testBit 29) chan = true := by
      rw [State.sideTaken_histAccepts]
      rcases physics with one | three
      · simp [State.histAccepts, turn, inTurn, cd, gen, mask, smask, one, stream one]
      · simp [State.histAccepts, turn, inTurn, cd, gen, mask, smask, three, shadow three]
    have notCal : kind ≠ 2 := by omega
    have conc (d : Conc) : (s.sideTaken c tl r).conc d = s.conc d := State.setPort_conc ..
    have counts := State.addHist_counts (s := s.sideTaken c tl r) (c := c) (tl := tl) (chan := chan) (tap := bitsOf 13 8 v)
      (code := bitsOf 7 0 v) (by rw [conc]; exact below) (by rw [conc]; exact belowTap)
    rw [conc] at counts
    have row := (exec_sideItem on tl .clean .clean).trans (congrArg _ ((State.sideItemCmd_clean side merging).trans
      ((if_neg notCal).trans ((if_pos admits).trans counts))))
    have moves := State.concMoves_setConc (s.sideTaken c tl r) c ((s.conc c).counted bin tap)
    have parts : s.Only 24832 ((s.sideTaken c tl r).setConc c ((s.conc c).counted bin tap)) :=
      State.setConc_only (State.setPort_only (.refl s) tl c _ (by decide)) c _ (by decide)
    refine ⟨_, row, ?_, ?_, ?_, moves.other.trans (conc _), parts.changes (by decide)⟩
    · rw [State.setConc_port, State.sideTaken, State.setPort_port_same]
    · rw [moves.own, ConcSt.counted]
    · rw [moves.own, ConcSt.counted]
  · intro s c tl i r k v chan on side cal captured same engine flags gen
    have merging : (s.conc c).merging = true := by
      simp only [State.mergeOn, Bool.and_eq_true] at on
      exact on.1.2
    have conc (d : Conc) : (s.sideTaken c tl r).conc d = s.conc d := State.setPort_conc ..
    have tile : chTile k.chan = tl := by
      rw [same]
      exact chTile_of_tile tl (Nat.mod_lt _ (by decide))
    have parity : v.testBit 29 = ((s.sideTaken c tl r).rx c (chTile k.chan)).parity := by
      rw [tile, gen, State.sideTaken, State.setPort_rx]
    obtain ⟨none, n, d, t, tiles⟩ := State.pairItem_pairs (s := s.sideTaken c tl r) (code := bitsOf 7 0 v) (by rw [conc, captured])
      (engine.trans State.sideTaken_histConc.symm) flags parity
    have row := (exec_sideItem on tl .clean .clean).trans (congrArg _ ((State.sideItemCmd_clean side merging).trans (if_pos cal)))
    have parts : s.Only 8413440 ((s.sideTaken c tl r).pairItem c chan (bitsOf 7 0 v) (v.testBit 29)) :=
      State.pairItem_only (State.setPort_only (.refl s) tl c _ (by decide)) c chan _ _ (by decide)
    have sums : (s.sideTaken c tl r).cal = s.cal := State.setPort_cal ..
    rw [same] at none n d t tiles
    rw [sums] at n d t
    refine ⟨_, row, ?_, none, n, d, t, parts.changes (by decide)⟩
    have port : ((s.sideTaken c tl r).pairItem c chan (bitsOf 7 0 v) (v.testBit 29)).port tl c = (s.sideTaken c tl r).port tl c :=
      congrArg (fun x : Vector Tile 16 => x[tl].port c) tiles
    rw [port, State.sideTaken, State.setPort_port_same]
  · intro s ns enough on turn due
    obtain ⟨fits, r, fit, tile, taps, tac⟩ := s.fitTurn_ends s.turnTile
    obtain ⟨off, results, event, regs⟩ := s.turnEnded_leaves (s.tapsEnough s.turnTile && !(s.tapsEnough s.turnTile && uniform ns)) fits r
    rw [← fit] at off results event regs
    have ends : s.turnAccumEnd = s.fitTurn s.turnTile := if_pos (by rw [turn, State.turnDue_of due]; rfl)
    have rejected (many : s.tapsEnough s.turnTile = true) (uneven : uniform ns = false) := event (by rw [many, uneven]; rfl)
    have parts : s.Only 8796101410904 (s.fitTurn s.turnTile) := State.fitTurn_only (.refl s) _ (by decide)
    exact ⟨_, r, (exec_turnAccumEnd on).trans (congrArg _ ends), off, results, tile, taps, rejected, tac, regs.same, parts.changes (by decide)⟩

end Sys2Proof.Machine
end

section
/-!
PROOFS. The family of network time: which fields of the belfry's pages an update leaves, and what holdover and time quality
leave (R247, R248). The family's theorems are elaborated one at a time, for the memory that the whole text takes.
-/

set_option Elab.async false

namespace Sys2Proof.Machine

/-! ### Fields of the belfry's pages that an update leaves -/

/-- The bits of a field lie in its register, and the register in its page. -/
def FieldRef.fits (f : FieldRef) : Bool := decide (f.lo ≤ f.hi ∧ f.hi < 32 ∧ f.off < 4096)

/-- Field `f` of page `p` and field `g` of page `q` share no bit. -/
def fieldsApart (p : Nat) (f : FieldRef) (q : Nat) (g : FieldRef) : Bool :=
  decide (p ≠ q ∨ f.off ≠ g.off ∨ f.hi < g.lo ∨ g.hi < f.lo)

/-- A field in `t` is as in `s`, stored and in force. -/
structure State.SameField (s t : State) (q : Nat) (g : FieldRef) : Prop where
  stored : t.stored q g = s.stored q g
  fld : t.fld q g = s.fld q g

theorem State.SameField.flag {s t : State} {q : Nat} {g : FieldRef} (h : s.SameField t q g) : t.flag q g = s.flag q g :=
  congrArg (· != 0) h.fld

theorem State.SameField.trans {s t u : State} {q : Nat} {g : FieldRef} (h : s.SameField t q g) (k : t.SameField u q g) :
    s.SameField u q g := ⟨k.stored.trans h.stored, k.fld.trans h.fld⟩

theorem State.SameReg.sameField {s t : State} {q : Nat} {g : FieldRef} (h : s.SameReg t q g.off) : s.SameField t q g :=
  ⟨h.stored, h.fld⟩

/-- A field is updated, and every field that shares no bit with it stays. -/
theorem State.sameField_put {p q : Nat} {f g : FieldRef} (hf : f.fits = true) (hg : g.fits = true)
    (h : fieldsApart p f q g = true) (s : State) (v : Nat) : s.SameField (s.put p f v) q g := by
  simp only [FieldRef.fits, fieldsApart, decide_eq_true_eq] at hf hg h
  obtain ⟨fl, fh, fo⟩ := hf
  obtain ⟨gl, gh, go⟩ := hg
  by_cases page : q = p
  · subst page
    by_cases off : g.off = f.off
    · have bits : f.hi < g.lo ∨ g.hi < f.lo := by simpa [off] using h
      exact ⟨State.stored_put_apart off fl fh gl gh bits s q v, State.fld_put_apart off fl fh gl gh bits s q v⟩
    · exact (State.sameReg_put (regKey_ne_off off) s v).sameField
  · exact (State.sameReg_put_page page go fo s v).sameField

/-- A whole register is apart from a field of another. -/
theorem fieldsApart_key {p q o : Nat} {g : FieldRef} (ho : o < 4096) (hg : g.fits = true)
    (h : fieldsApart p ⟨o, 31, 0⟩ q g = true) : regKey q g.off ≠ regKey p o := by
  simp only [FieldRef.fits, fieldsApart, decide_eq_true_eq] at hg h
  exact regKey_ne (fun e => by simp only [Prod.mk.injEq] at e; omega) hg.2.2 ho

/-- Of the belfry's pages, which lie below 0x100, no field differs but those listed, and no pending event is lost. -/
structure State.BelfryBut (l : List (Nat × FieldRef)) (s t : State) : Prop where
  field : ∀ q g, q < 0x100 → g.fits = true → (∀ x ∈ l, fieldsApart x.1 x.2 q g = true) → s.SameField t q g
  event : ∀ q i, q < 0x100 → (s.rd q Reg.HDR.EVT_PENDING.off).getLsbD i = true →
    (t.rd q Reg.HDR.EVT_PENDING.off).getLsbD i = true

/-- A field that lies in no EVT_PENDING. -/
def FieldRef.noEvent (f : FieldRef) : Bool := f.fits && decide (f.off ≠ Reg.HDR.EVT_PENDING.off)

section

variable {s t u : State} {l m : List (Nat × FieldRef)} {p : Nat} {f : FieldRef}

theorem State.BelfryBut.refl (s : State) : s.BelfryBut l s := ⟨fun _ _ _ _ _ => ⟨rfl, rfl⟩, fun _ _ _ => id⟩

theorem State.BelfryBut.trans (h : s.BelfryBut l t) (k : t.BelfryBut m u) : s.BelfryBut (l ++ m) u :=
  ⟨fun q g hq hg ha => (h.field q g hq hg (fun x hx => ha x (List.mem_append_left m hx))).trans
    (k.field q g hq hg (fun x hx => ha x (List.mem_append_right l hx))), fun q i hq => k.event q i hq ∘ h.event q i hq⟩

theorem State.BelfryBut.mono (h : s.BelfryBut l t) (k : l ⊆ m) : s.BelfryBut m t :=
  ⟨fun q g hq hg ha => h.field q g hq hg (fun x hx => ha x (k hx)), h.event⟩

theorem State.BelfryBut.when {c : Prop} [Decidable c] (h : s.BelfryBut l t) : s.BelfryBut l (if c then t else s) := by
  split
  exacts [h, .refl s]

theorem State.BelfryBut.of (h : t.regs = s.regs) (k : t.stale = s.stale) : s.BelfryBut l t :=
  ⟨fun q g _ _ _ => (State.SameReg.of h k q g.off).sameField, fun q i _ b => by rwa [rd_of_regs h]⟩

/-- An update of other pages' registers. -/
theorem State.BelfryBut.far (h : ∀ q o, q < 0x100 → o < 4096 → s.SameReg t q o) : s.BelfryBut l t := by
  refine ⟨fun q g hq hg _ => (h q g.off hq ?_).sameField, fun q i hq b => by rwa [(h q _ hq (by decide)).1]⟩
  simp only [FieldRef.fits, decide_eq_true_eq] at hg
  exact hg.2.2

theorem State.BelfryBut.each {α : Type} {as : List α} {f : State → α → State}
    (h : ∀ (u : State) (a : α), a ∈ as → u.BelfryBut l (f u a)) (s : State) : s.BelfryBut l (s.each as f) :=
  State.each_keeps (P := fun t => s.BelfryBut l t) (fun t a ha k => (k.trans (h t a ha)).mono (by simp)) (.refl s)

theorem State.BelfryBut.same {q : Nat} {g : FieldRef} (h : s.BelfryBut l t) (hq : q < 0x100 := by decide)
    (hg : g.fits = true := by decide) (ha : ∀ x ∈ l, fieldsApart x.1 x.2 q g = true := by decide) : s.SameField t q g :=
  h.field q g hq hg ha

theorem State.belfryBut_put (s : State) (v : Nat) (hf : f.noEvent = true := by decide) : s.BelfryBut [(p, f)] (s.put p f v) := by
  simp only [FieldRef.noEvent, Bool.and_eq_true, decide_eq_true_eq] at hf
  obtain ⟨fits, off⟩ := hf
  refine ⟨fun q g _ hg ha => State.sameField_put fits hg (ha _ List.mem_cons_self) s v, fun q i _ b => ?_⟩
  have within : f.off < 4096 := by simp only [FieldRef.fits, decide_eq_true_eq] at fits; exact fits.2.2
  rwa [State.rd_put_ne (regKey_ne (fun e => off (Prod.mk.inj e).2.symm) (by decide) within)]

theorem State.belfryBut_putB (s : State) (b : Bool) (hf : f.noEvent = true := by decide) : s.BelfryBut [(p, f)] (s.putB p f b) :=
  State.belfryBut_put s b.toNat hf

theorem State.belfryBut_overflow (s : State) (b : Nat) : s.BelfryBut [(p, Reg.HDR.COUNTER_OVF)] (s.overflow p b) := by
  refine ⟨fun q g _ hg ha =>
    (State.sameReg_wr (fieldsApart_key (by decide) hg (ha _ List.mem_cons_self)) s _).sameField, fun q i _ h => ?_⟩
  have other : regKey q Reg.HDR.EVT_PENDING.off ≠ regKey p Reg.HDR.COUNTER_OVF.off :=
    regKey_ne (fun e => absurd (Prod.mk.inj e).2 (by decide)) (by decide) (by decide)
  exact (congrArg (BitVec.getLsbD · i) (State.rd_wr_ne other s _)).trans h

theorem State.belfryBut_bump (s : State) (b n : Nat) (hf : f.noEvent = true := by decide) :
    s.BelfryBut [(p, f), (p, Reg.HDR.COUNTER_OVF)] (s.bump p f b n) := by
  unfold State.bump
  split
  · exact (State.belfryBut_put s _ hf).mono (by simp)
  · exact (State.belfryBut_put s _ hf).trans (State.belfryBut_overflow _ b)

theorem State.belfryBut_event (s : State) (b : Nat) : s.BelfryBut [(p, Reg.HDR.EVT_PENDING)] (s.event p b) := by
  refine ⟨fun q g _ hg ha =>
    (State.sameReg_event (fieldsApart_key (by decide) hg (ha _ List.mem_cons_self)) s b).sameField, fun q i _ h => ?_⟩
  by_cases page : q = p
  · subst page
    exact State.event_keeps_bit h b
  · rwa [(State.sameReg_event (regKey_ne_page page (by decide) (by decide)) s b).1]

theorem State.belfryBut_time (s : State) (x : TimeSt) : s.BelfryBut [] { s with time := x } := .of rfl rfl

theorem State.belfryBut_put_far (hp : 0x100 ≤ p) (hf : f.off < 4096) (s : State) (v : Nat) : s.BelfryBut l (s.put p f v) :=
  .far fun _ _ hq ho => State.sameReg_put_page (by omega) ho hf s v

end

/-! ### Holdover and time quality -/

/-- Network time but for what the beginning and the end of holdover change: its moment, and whether a switch is checked again. -/
def TimeSt.SameButHold (x y : TimeSt) : Prop := y = { x with holdFrom := y.holdFrom, recheck := y.recheck }

theorem TimeSt.SameButHold.refl (x : TimeSt) : x.SameButHold x := rfl

theorem State.belfryBut_noteTq (s : State) : s.BelfryBut [(pgTIME, Reg.TIME.TSTAT_TQ)] s.noteTq := by
  unfold State.noteTq
  refine .when ?_
  dsimp only
  split
  · exact (State.belfryBut_put s _).trans (m := []) (.of rfl rfl)
  · exact State.belfryBut_put s _

theorem State.noteTq_time (s : State) : s.noteTq.time = s.time :=
  (State.noteTq_only (L := 32792) (.refl s) (by decide)).time (by decide)

theorem State.tqNow_le (s : State) : s.tqNow ≤ 3 := by
  unfold State.tqNow
  split_ifs <;> decide

/-- The time quality shows at once while frames run (R248). -/
theorem State.noteTq_stored {s : State} (on : s.running = true) : s.noteTq.stored pgTIME Reg.TIME.TSTAT_TQ = s.tqNow := by
  have shown : (s.put pgTIME Reg.TIME.TSTAT_TQ s.tqNow).stored pgTIME Reg.TIME.TSTAT_TQ = s.tqNow :=
    (State.stored_put_same (by decide) (by decide) ..).trans (Nat.mod_eq_of_lt (lt_of_le_of_lt s.tqNow_le (by decide)))
  rw [State.noteTq, if_pos on]
  dsimp only
  split
  exacts [shown, shown]

/-- The registers that entering and leaving holdover change (R247). -/
def holdFields : List (Nat × FieldRef) :=
  [Reg.TIME.TSTAT_HOLDOVER, Reg.TIME.HOLD_CNT, Reg.TIME.HOLD_ELAPSED, Reg.HDR.COUNTER_OVF, Reg.HDR.EVT_PENDING].map (pgTIME, ·)

/-- The state in holdover, before its moment is kept. -/
def State.heldOver (s : State) : State :=
  ((s.putB pgTIME Reg.TIME.TSTAT_HOLDOVER true).bump pgTIME Reg.TIME.HOLD_CNT 3).event pgTIME 2

theorem State.enterHoldover_eq {s : State} (on : s.running = true) (free : s.flag pgTIME Reg.TIME.TSTAT_HOLDOVER = false) :
    s.enterHoldover = State.put { s.heldOver with time := { s.heldOver.time with holdFrom := some s.heldOver.now } } pgTIME
      Reg.TIME.HOLD_ELAPSED 0 := if_pos (by rw [on, free]; rfl)

theorem State.belfryBut_heldOver (s : State) : s.BelfryBut holdFields s.heldOver :=
  (((State.belfryBut_putB s true).trans (State.belfryBut_bump _ 3 1)).trans (State.belfryBut_event _ 2)).mono (by decide)

theorem State.belfryBut_enterHoldover (s : State) : s.BelfryBut holdFields s.enterHoldover := by
  unfold State.enterHoldover
  refine .when ((s.belfryBut_heldOver.trans ((State.belfryBut_time _ _).trans
    (State.belfryBut_put (p := pgTIME) (f := Reg.TIME.HOLD_ELAPSED) _ 0))).mono ?_)
  decide

theorem State.heldOver_time (s : State) : s.heldOver.time = s.time ∧ s.heldOver.now = s.now :=
  ⟨(State.event_time ..).trans ((State.bump_time ..).trans (State.putB_time ..)),
   (State.event_now ..).trans ((State.bump_now ..).trans (State.putB_now ..))⟩

theorem State.enterHoldover_time (s : State) : s.time.SameButHold s.enterHoldover.time := by
  by_cases h : s.running = true ∧ s.flag pgTIME Reg.TIME.TSTAT_HOLDOVER = false
  · rw [State.enterHoldover_eq h.1 h.2, State.put_time, s.heldOver_time.1]
    rfl
  · rw [State.enterHoldover, if_neg (by simpa using h)]
    rfl

theorem State.belfryBut_countHold (s : State) (n : Nat) :
    s.BelfryBut [(pgTIME, Reg.TIME.HOLD_ELAPSED), (pgTIME, Reg.HDR.COUNTER_OVF)] (s.countHold n) := by
  unfold State.countHold
  split
  · dsimp only
    split
    · exact (State.belfryBut_put s _).mono (by simp)
    · exact (State.belfryBut_put s _).trans (State.belfryBut_overflow _ 4)
  · exact .refl s

theorem State.countHold_time (s : State) (n : Nat) : (s.countHold n).time = s.time :=
  (State.countHold_only (L := 24) (.refl s) n (by decide)).time (by decide)

theorem State.belfryBut_exitHoldover (s : State) : s.BelfryBut holdFields s.exitHoldover := by
  unfold State.exitHoldover
  refine .when (.mono ((((s.belfryBut_countHold _).trans (State.belfryBut_putB _ false)).trans (State.belfryBut_event _ 3)).trans
    (.of (l := []) rfl rfl)) ?_)
  decide

theorem State.exitHoldover_time (s : State) : s.time.SameButHold s.exitHoldover.time := by
  unfold State.exitHoldover
  split
  · dsimp only
    rw [State.event_time, State.putB_time, State.countHold_time]
    rfl
  · rfl

end Sys2Proof.Machine
end

section
/-!
PROOFS. The family of network time: a port gains and loses its lock (R232, R247, R375).
-/

set_option Elab.async false

namespace Sys2Proof.Machine

/-! ### The lock of a port's clock recovery and markers -/

theorem TimeSt.setLock_lock (x : TimeSt) (u : Um) (k : PortLock) : (x.setLock u k).lock u = k := by cases u <;> rfl

theorem TimeSt.setLock_setLock (x : TimeSt) (u : Um) (k j : PortLock) : (x.setLock u k).setLock u j = x.setLock u j := by
  cases u <;> rfl

theorem TimeSt.SameButHold.lock {x y : TimeSt} (h : x.SameButHold y) (u : Um) : y.lock u = x.lock u := by
  rw [h]
  cases u <;> rfl

theorem State.BelfryBut.active {s t : State} {l : List (Nat × FieldRef)} (h : s.BelfryBut l t)
    (ha : ∀ x ∈ l, fieldsApart x.1 x.2 pgTIME Reg.TIME.TSTAT_ACTIVE = true) : t.active = s.active := by
  rw [State.active, State.active, (h.same (ha := ha)).stored]

/-! ### A port gains lock -/

/-- The lock as the registers of the port's pages show it, with its event. -/
def State.lockShown (s : State) (u : Um) : State :=
  (((s.putB (pgTIMED u) Reg.TIMED.DSTAT_PORT_LOCK true).putB (pgTIMED u) Reg.TIMED.DSTAT_AGEING false).event
    (pgTIMED u) 1).putB (pgUM u) Reg.UM.PSTAT_LOCK true

/-- The port is no longer lost. -/
def State.lockFound (s : State) (u : Um) : State := (s.lockShown u).setUm u { (s.lockShown u).um u with lostFrom := none }

theorem State.gainLock_eq (s : State) (u : Um) : s.gainLock u =
    (State.startDiscovery (if u = (s.lockFound u).active then (s.lockFound u).exitHoldover else s.lockFound u) u).noteTq := rfl

/-- What discovery changes of a port's page (R375). -/
theorem State.belfryBut_startDiscovery (s : State) (u : Um) :
    s.BelfryBut [(pgUM u, Reg.UM.PSTAT_BO), (pgUM u, Reg.UM.PSTAT_DSTATE)] (s.startDiscovery u) := by
  unfold State.startDiscovery State.drawDiscovery
  refine .when ?_
  extract_lets r a src b
  have drawn : s.BelfryBut [] b := .of (State.setUm_regs a ..) (State.setUm_stale a ..)
  exact (drawn.trans (State.belfryBut_put (f := Reg.UM.PSTAT_BO) b _)).trans (State.belfryBut_put (f := Reg.UM.PSTAT_DSTATE) _ _)

theorem State.startDiscovery_time (s : State) (u : Um) : (s.startDiscovery u).time = s.time :=
  (State.startDiscovery_only (L := 8796898328600) (.refl s) u (by decide)).time (by decide)

theorem State.startDiscovery_lostFrom (s : State) (u : Um) : ((s.startDiscovery u).um u).lostFrom = (s.um u).lostFrom := by
  unfold State.startDiscovery State.drawDiscovery
  split
  · dsimp only
    rw [State.put_um, State.put_um, State.setUm_um_same]
    cases u <;> rfl
  · rfl

theorem State.noteTq_um (s : State) (u : Um) : s.noteTq.um u = s.um u :=
  (State.noteTq_only (L := 32792) (.refl s) (by decide)).um (by decide) (by decide) u

/-- The registers that follow a port's lock. -/
def lockFields (u : Um) : List (Nat × FieldRef) :=
  holdFields ++ [(pgUM u, Reg.UM.PSTAT_BO), (pgUM u, Reg.UM.PSTAT_DSTATE)] ++ [(pgTIME, Reg.TIME.TSTAT_TQ)]

theorem State.gainLock_leaves (s : State) (u : Um) :
    (s.lockShown u).BelfryBut (lockFields u) (s.gainLock u) ∧ s.time.SameButHold (s.gainLock u).time ∧
      ((s.gainLock u).um u).lostFrom = none := by
  rw [State.gainLock_eq]
  have found : (s.lockShown u).BelfryBut [] (s.lockFound u) := .of (State.setUm_regs ..) (State.setUm_stale ..)
  have cleared : ((s.lockFound u).um u).lostFrom = none := by rw [State.lockFound, State.setUm_um_same]
  have time : (s.lockFound u).time = s.time := by
    rw [State.lockFound, State.setUm_time, State.lockShown, State.putB_time, State.event_time, State.putB_time, State.putB_time]
  generalize s.lockFound u = v at found cleared time
  have exits := (v.belfryBut_exitHoldover).when (c := u = v.active)
  have held : v.time.SameButHold (if u = v.active then v.exitHoldover else v).time := by
    split
    exacts [v.exitHoldover_time, .refl _]
  have um : ((if u = v.active then v.exitHoldover else v).um u).lostFrom = none := by
    rw [← cleared]
    split
    · rw [(State.exitHoldover_only (L := 131160) (.refl v) (by decide)).um (by decide) (by decide)]
    · rfl
  generalize (if u = v.active then v.exitHoldover else v) = w at exits held um
  refine ⟨((found.trans exits).trans (w.belfryBut_startDiscovery u)).trans (State.belfryBut_noteTq _), ?_, ?_⟩
  · rwa [State.noteTq_time, State.startDiscovery_time, ← time]
  · rw [State.noteTq_um, State.startDiscovery_lostFrom, um]

/-- The lock stays as it is shown. -/
theorem State.gainLock_locks (s : State) (u : Um) :
    (s.gainLock u).portLocked u = true ∧ (s.gainLock u).stored (pgUM u) Reg.UM.PSTAT_LOCK = 1 ∧
      ((s.gainLock u).rd (pgTIMED u) Reg.HDR.EVT_PENDING.off).getLsbD 1 = true := by
  have after := (s.gainLock_leaves u).1
  let a := s.putB (pgTIMED u) Reg.TIMED.DSTAT_PORT_LOCK true
  let b := a.putB (pgTIMED u) Reg.TIMED.DSTAT_AGEING false
  have rest : a.BelfryBut _ (s.gainLock u) := (((State.belfryBut_putB a false).trans (State.belfryBut_event b 1)).trans
    (State.belfryBut_putB (b.event (pgTIMED u) 1) true)).trans after
  have locked : (s.gainLock u).stored (pgTIMED u) Reg.TIMED.DSTAT_PORT_LOCK = 1 :=
    (rest.same (hq := by cases u <;> decide) (ha := by cases u <;> decide)).stored.trans
      (State.stored_putB_same (by decide) (by decide) ..)
  refine ⟨by rw [State.portLocked, locked]; rfl, ?_, ?_⟩
  · exact (after.same (hq := by cases u <;> decide) (ha := by cases u <;> decide)).stored.trans
      (State.stored_putB_same (by decide) (by decide) ..)
  · refine after.event _ 1 (by cases u <;> decide) ((State.belfryBut_putB _ true).event _ 1 (by cases u <;> decide) ?_)
    exact State.event_pends (by decide) ..

/-! ### The fourth good marker -/

theorem State.goodMarker_gains {s : State} {u : Um} (unlocked : s.portLocked u = false) (good : 3 ≤ (s.time.lock u).good)
    (time at_ sub : Nat) (gained : Int) : s.goodMarker u time at_ sub gained =
      State.gainLock { s with time := s.time.setLock u { s.time.lock u with good := 4, bad := 0, last := some time } } u := by
  have four : min 4 ((s.time.lock u).good + 1) = 4 := by omega
  unfold State.goodMarker
  extract_lets k t
  have same : t = { s with time := s.time.setLock u { s.time.lock u with good := 4, bad := 0, last := some time } } := by
    simp only [t, k, four]
  have shut : ¬t.portLocked u = true := Bool.eq_false_iff.1 unlocked
  rw [if_neg shut, if_pos (show 4 ≤ k.good + 1 from Nat.succ_le_succ good), same]

/-- A marker has come, its time is kept, and it is the fourth good one. -/
def State.fourthMarker (s : State) (u : Um) (time at_ : Nat) : State :=
  let v := (if s.running then s.advance at_ else s).putB (pgUM u) Reg.UM.PSTAT_SYNC true
  { v with time := v.time.setLock u { cdr := true, good := 4, bad := 0, last := some time } }

theorem State.superframeMarker_locks {s : State} {u : Um} {m : Marker} {at_ l sub : Nat} (unlocked : s.portLocked u = false)
    (last : (s.time.lock u).last = some l) (good : 3 ≤ (s.time.lock u).good) (crc : m.crcOk = true) (valid : m.timeValid = true)
    (frame : m.frame = 0) (next : m.time.toNat = (l + 16384) % 2 ^ 48) (fixed : s.fld (pgUM u) Reg.UM.TREE_FIXED = 1)
    (tree : s.fld (pgUM u) Reg.UM.TREE_TREE_ID = m.treeId.toNat) (part : s.fld (pgUM u) Reg.UM.TREE_PART_ID = m.partId.toNat) :
    s.superframeMarker u m at_ sub = (s.fourthMarker u m.time.toNat at_).gainLock u := by
  have came : s.BelfryBut [] (if s.running then s.advance at_ else s) :=
    .when (c := s.running = true) (.of (State.advance_regs ..) (State.advance_stale ..))
  have time : (if s.running then s.advance at_ else s).time = s.time := by
    split
    exacts [State.advance_time .., rfl]
  unfold State.superframeMarker State.fourthMarker
  generalize (if s.running then s.advance at_ else s) = v at came time
  have adopted : v.adopt u m = v := by
    have : v.fld (pgUM u) Reg.UM.TREE_FIXED = 1 :=
      (came.same (hq := by cases u <;> decide) (ha := by simp)).fld.trans fixed
    rw [State.adopt, this, crc]
    rfl
  have sync := came.trans (State.belfryBut_putB (p := pgUM u) (f := Reg.UM.PSTAT_SYNC) v true)
  have kept : (v.putB (pgUM u) Reg.UM.PSTAT_SYNC true).time.lock u = s.time.lock u := by rw [State.putB_time, time]
  rw [adopted]
  generalize v.putB (pgUM u) Reg.UM.PSTAT_SYNC true = w at sync kept
  extract_lets y j x k time
  have held : k = { s.time.lock u with cdr := true } := by
    simp only [k, x, j, y, TimeSt.setLock_lock, kept]
  have regs : s.BelfryBut _ x := sync.trans (w.belfryBut_time _)
  have own : x.ownMarker u m = true := by
    have hq : pgUM u < 0x100 := by cases u <;> decide
    rw [State.ownMarker, crc, (regs.same (q := pgUM u) (hq := hq) (ha := by cases u <;> decide)).fld, tree,
      (regs.same (q := pgUM u) (hq := hq) (ha := by cases u <;> decide)).fld, part]
    simp
  have expects : k.expected = some m.time.toNat := by
    rw [held, PortLock.expected, last, next]
    rfl
  have shut : x.portLocked u = false := by
    rw [State.portLocked, (regs.same (q := pgTIMED u) (hq := by cases u <;> decide) (ha := by cases u <;> decide)).stored]
    exact unlocked
  rw [if_pos (by rw [own, valid, frame]; rfl), expects]
  dsimp only
  rw [if_pos rfl, State.goodMarker_gains shut (show 3 ≤ k.good by rw [held]; exact good)]
  change State.gainLock { w with time := (w.time.setLock u _).setLock u { k with good := 4, bad := 0, last := _ } } u = _
  rw [TimeSt.setLock_setLock, held]

/-! ### A port loses lock -/

/-- The loss as the registers of the port's pages show it, counted with its event. -/
def State.lossCounted (s : State) (u : Um) : State :=
  State.event (((s.putB (pgTIMED u) Reg.TIMED.DSTAT_PORT_LOCK false).putB (pgTIMED u) Reg.TIMED.DSTAT_AGEING true).bump
    (pgTIMED u) Reg.TIMED.LOSS_CNT 0) (pgTIMED u) 0

/-- PSTAT shows it as well. -/
def State.lossShown (s : State) (u : Um) : State := (s.lossCounted u).putB (pgUM u) Reg.UM.PSTAT_LOCK false

/-- The port is lost from now on. -/
def State.portLost (s : State) (u : Um) : State :=
  (s.lossShown u).setUm u { (s.lossShown u).um u with lostFrom := some (s.lossShown u).now }

/-- What the loss of the active domain's port leads to (R241, R243, R247). -/
def State.activeLost (s : State) : State := s.cleanerHolds.enterHoldover.scheduleAuto

theorem State.loseLock_eq {s : State} {u : Um} (locked : s.portLocked u = true) : s.loseLock u =
    (State.leaveStep9 (if u = (s.portLost u).active then (s.portLost u).activeLost else s.portLost u)).noteTq := if_pos locked

theorem State.belfryBut_cleanerHolds (s : State) : s.BelfryBut
    ([Reg.TIME.CLEAN_STAT_LOCK, Reg.TIME.TSTAT_CLEAN_LOCK, Reg.HDR.EVT_PENDING].map (pgTIME, ·)) s.cleanerHolds :=
  ((State.belfryBut_putB s false).trans (State.belfryBut_putB _ false)).trans (.when (State.belfryBut_event _ 5))

theorem State.belfryBut_scheduleAuto (s : State) : s.BelfryBut
    [(pgTIME, Reg.TIME.SW_REJ_CNT), (pgTIME, Reg.HDR.COUNTER_OVF)] s.scheduleAuto := by
  unfold State.scheduleAuto
  refine .when ?_
  extract_lets v
  have cancels : s.BelfryBut [(pgTIME, Reg.TIME.SW_REJ_CNT), (pgTIME, Reg.HDR.COUNTER_OVF)] v := by
    simp only [v]
    split
    · split
      exacts [.refl s, State.belfryBut_bump s 2 1]
    · exact .refl s
  exact cancels.trans (v.belfryBut_time _)

theorem State.scheduleAuto_holdFrom (s : State) : s.scheduleAuto.time.holdFrom = s.time.holdFrom := by
  unfold State.scheduleAuto
  split
  · dsimp only
    split
    · split
      · rfl
      · rw [State.bump_time]
    · rfl
  · rfl

/-- A step-9 start-up may go on (R470), and the time quality follows. -/
theorem State.belfryBut_lossNoted (s : State) :
    s.BelfryBut [(pgPWR, Reg.PWR.STARTUP_STEP), (pgTIME, Reg.TIME.TSTAT_TQ)] s.leaveStep9.noteTq :=
  State.BelfryBut.trans (.when (State.belfryBut_put s 10)) (State.belfryBut_noteTq _)

theorem State.lossNoted_time (s : State) : s.leaveStep9.noteTq.time = s.time :=
  (State.noteTq_time _).trans ((State.leaveStep9_only (L := 24) (.refl s) (by decide)).time (by decide))

theorem State.lossNoted_um (s : State) (u : Um) : s.leaveStep9.noteTq.um u = s.um u :=
  (State.noteTq_um _ u).trans ((State.leaveStep9_only (L := 24) (.refl s) (by decide)).um (by decide) (by decide) u)

theorem State.activeLost_um (s : State) (u : Um) : s.activeLost.um u = s.um u := by
  have only : s.Only 131160 s.activeLost := State.scheduleAuto_only (State.enterHoldover_only
    (State.cleanerHolds_only (.refl s) (by decide)) (by decide)) (by decide)
  exact only.um (by decide) (by decide) u

/-- The registers that follow the loss. -/
def lossFields : List (Nat × FieldRef) :=
  ([Reg.TIME.CLEAN_STAT_LOCK, Reg.TIME.TSTAT_CLEAN_LOCK, Reg.HDR.EVT_PENDING].map (pgTIME, ·) ++ holdFields ++
    [(pgTIME, Reg.TIME.SW_REJ_CNT), (pgTIME, Reg.HDR.COUNTER_OVF)]) ++ [(pgPWR, Reg.PWR.STARTUP_STEP), (pgTIME, Reg.TIME.TSTAT_TQ)]

theorem State.loseLock_leaves {s : State} {u : Um} (locked : s.portLocked u = true) :
    (s.lossShown u).BelfryBut lossFields (s.loseLock u) ∧ ((s.loseLock u).um u).lostFrom = some s.now := by
  rw [State.loseLock_eq locked]
  have lost : (s.lossShown u).BelfryBut [] (s.portLost u) := .of (State.setUm_regs ..) (State.setUm_stale ..)
  have since : ((s.portLost u).um u).lostFrom = some s.now := by
    rw [State.portLost, State.setUm_um_same]
    simp only [State.lossShown, State.lossCounted, State.putB_now, State.event_now, State.bump_now]
  generalize s.portLost u = v at lost since
  have active : v.BelfryBut _ (if u = v.active then v.activeLost else v) :=
    .when ((v.belfryBut_cleanerHolds.trans (State.belfryBut_enterHoldover _)).trans (State.belfryBut_scheduleAuto _))
  have um : (if u = v.active then v.activeLost else v).um u = v.um u := by
    split
    exacts [v.activeLost_um u, rfl]
  refine ⟨(lost.trans active).trans (State.belfryBut_lossNoted _), ?_⟩
  rw [State.lossNoted_um, um, since]

/-- A lost port as its registers show it, counted. -/
theorem State.loseLock_shows {s : State} {u : Um} (locked : s.portLocked u = true)
    (below : s.stored (pgTIMED u) Reg.TIMED.LOSS_CNT < 2 ^ 32 - 1) :
    (s.loseLock u).portLocked u = false ∧ (s.loseLock u).stored (pgUM u) Reg.UM.PSTAT_LOCK = 0 ∧
      (s.loseLock u).stored (pgTIMED u) Reg.TIMED.LOSS_CNT = s.stored (pgTIMED u) Reg.TIMED.LOSS_CNT + 1 ∧
      ((s.loseLock u).rd (pgTIMED u) Reg.HDR.EVT_PENDING.off).getLsbD 0 = true := by
  have after := (State.loseLock_leaves locked).1
  have page : pgTIMED u < 0x100 ∧ pgUM u < 0x100 := by cases u <;> decide
  let a := s.putB (pgTIMED u) Reg.TIMED.DSTAT_PORT_LOCK false
  let b := a.putB (pgTIMED u) Reg.TIMED.DSTAT_AGEING true
  let c := b.bump (pgTIMED u) Reg.TIMED.LOSS_CNT 0
  have ab : s.BelfryBut _ b := (State.belfryBut_putB s false).trans (State.belfryBut_putB a true)
  have fromCount : c.BelfryBut _ (s.loseLock u) :=
    ((State.belfryBut_event c 0).trans (State.belfryBut_putB (s.lossCounted u) false)).trans after
  have fromLock : a.BelfryBut _ (s.loseLock u) :=
    ((State.belfryBut_putB a true).trans (State.belfryBut_bump b 0 1)).trans fromCount
  have count : b.stored (pgTIMED u) Reg.TIMED.LOSS_CNT = s.stored (pgTIMED u) Reg.TIMED.LOSS_CNT :=
    (ab.same (hq := page.1) (ha := by cases u <;> decide)).stored
  refine ⟨?_, ?_, ?_, ?_⟩
  · rw [State.portLocked, (fromLock.same (hq := page.1) (ha := by cases u <;> decide)).stored,
      State.stored_putB_same (by decide) (by decide)]
    rfl
  · rw [(after.same (hq := page.2) (ha := by cases u <;> decide)).stored, State.lossShown,
      State.stored_putB_same (by decide) (by decide)]
    rfl
  · rw [(fromCount.same (hq := page.1) (ha := by cases u <;> decide)).stored]
    exact (State.stored_bump_below (by decide) (by decide) (by rw [count]; simp only [Reg.TIMED.LOSS_CNT] at below ⊢; omega) 0).trans
      (congrArg (· + 1) count)
  · exact after.event _ 0 page.1 ((State.belfryBut_putB _ false).event _ 0 page.1 (State.event_pends (by decide) ..))

/-- The module is in holdover where the port's domain is the active one (R247). -/
theorem State.loseLock_holdover {s : State} {u : Um} (locked : s.portLocked u = true) (active : u = s.active)
    (running : s.running = true) (free : s.flag pgTIME Reg.TIME.TSTAT_HOLDOVER = false) :
    (s.loseLock u).flag pgTIME Reg.TIME.TSTAT_HOLDOVER = true ∧ (s.loseLock u).time.holdFrom = some s.now ∧
      ((s.loseLock u).rd pgTIME Reg.HDR.EVT_PENDING.off).getLsbD 2 = true := by
  rw [State.loseLock_eq locked]
  have lost : s.BelfryBut _ (s.portLost u) := ((((((State.belfryBut_putB s false).trans (State.belfryBut_putB _ true)).trans
    (State.belfryBut_bump _ 0 1)).trans (State.belfryBut_event _ 0)).trans (State.belfryBut_putB _ false))).trans
      (.of (l := []) (State.setUm_regs ..) (State.setUm_stale ..))
  have same : (s.portLost u).now = s.now ∧ (s.portLost u).running = s.running := by
    simp only [State.portLost, State.setUm_now, State.setUm_running, State.lossShown, State.lossCounted, State.putB_now,
      State.event_now, State.bump_now, State.putB_running, State.event_running, State.bump_running, and_self]
  have still : (s.portLost u).active = s.active := lost.active (by cases u <;> decide)
  rw [if_pos (active.trans still.symm)]
  have holds := lost.trans (State.belfryBut_cleanerHolds (s.portLost u))
  have parts := State.cleanerHolds_only (L := 88) (.refl (s.portLost u)) (by decide)
  rw [State.activeLost]
  generalize (s.portLost u).cleanerHolds = v at holds parts
  have enters : v.enterHoldover = _ := State.enterHoldover_eq ((parts.running (by decide)).trans (same.2.trans running))
    ((holds.same (ha := by cases u <;> decide)).flag.trans free)
  have now : v.now = s.now := (parts.now (by decide)).trans same.1
  have kept : v.heldOver.BelfryBut _ v.enterHoldover :=
    enters ▸ (State.belfryBut_time _ _).trans (State.belfryBut_put (p := pgTIME) (f := Reg.TIME.HOLD_ELAPSED) _ 0)
  have rest := (kept.trans (State.belfryBut_scheduleAuto _)).trans (State.belfryBut_lossNoted _)
  refine ⟨?_, ?_, ?_⟩
  · rw [(rest.same).flag]
    exact ((((State.belfryBut_bump _ 3 1).trans (State.belfryBut_event _ 2)).same).flag).trans
      (State.flag_putB_same (by decide) (by decide) ..)
  · rw [State.lossNoted_time, State.scheduleAuto_holdFrom, enters, State.put_time, v.heldOver_time.2, now]
  · exact rest.event _ 2 (by decide) (State.event_pends (by decide) ..)

/-! ### The rows -/

theorem exec_superframeMarker {s : State} (h : s.powered = true) (u : Um) (m : Marker) (at_ : Nat) (sub : BitVec 16) :
    exec (.superframeMarker u m at_ sub) s = .next (s.superframeMarker u m at_ sub.toNat) :=
  congrArg Host.Outcome.next (if_pos h)

theorem exec_cdrUnlock {s : State} (h : s.powered = true) (u : Um) : exec (.cdrUnlock u) s = .next (s.cdrUnlock u) :=
  congrArg Host.Outcome.next (if_pos h)

theorem exec_markerMissing {s : State} (h : s.powered = true) (u : Um) : exec (.markerMissing u) s = .next (s.markerMissing u) :=
  congrArg Host.Outcome.next (if_pos h)

/-- The second superframe in a row without a good marker loses the lock. -/
theorem State.markerMissing_loses {s : State} {u : Um} (cdr : (s.time.lock u).cdr = true) (bad : (s.time.lock u).bad = 1) :
    ∃ x : TimeSt, s.markerMissing u =
      (State.bump { s with time := x } (pgTIMED u) Reg.TIMED.MARK_BAD_CNT 1).loseLock u := by
  unfold State.markerMissing State.badMarker
  rw [if_pos cdr]
  extract_lets k v
  exact ⟨v.time, if_pos (show 2 ≤ k.bad + 1 by simp only [k]; omega)⟩

/-- The registers that change before a lock is lost. -/
def missFields (u : Um) : List (Nat × FieldRef) :=
  [(pgUM u, Reg.UM.PSTAT_SYNC), (pgTIMED u, Reg.TIMED.MARK_BAD_CNT), (pgTIMED u, Reg.HDR.COUNTER_OVF)]

/-- A loss as it is seen from the state before the row. -/
theorem State.loseLock_after {s v : State} {u : Um} (regs : s.BelfryBut (missFields u) v) (now : v.now = s.now)
    (running : v.running = s.running) (locked : s.portLocked u = true)
    (below : s.stored (pgTIMED u) Reg.TIMED.LOSS_CNT < 2 ^ 32 - 1) :
    (v.loseLock u).portLocked u = false ∧ (v.loseLock u).stored (pgUM u) Reg.UM.PSTAT_LOCK = 0 ∧
      (v.loseLock u).stored (pgTIMED u) Reg.TIMED.LOSS_CNT = s.stored (pgTIMED u) Reg.TIMED.LOSS_CNT + 1 ∧
      ((v.loseLock u).rd (pgTIMED u) Reg.HDR.EVT_PENDING.off).getLsbD 0 = true ∧
      ((v.loseLock u).um u).lostFrom = some s.now ∧
      (u = s.active → s.running = true → s.flag pgTIME Reg.TIME.TSTAT_HOLDOVER = false →
        (v.loseLock u).flag pgTIME Reg.TIME.TSTAT_HOLDOVER = true ∧ (v.loseLock u).time.holdFrom = some s.now ∧
        ((v.loseLock u).rd pgTIME Reg.HDR.EVT_PENDING.off).getLsbD 2 = true) := by
  have page : pgTIMED u < 0x100 := by cases u <;> decide
  have lock : v.portLocked u = true := by
    rw [State.portLocked, (regs.same (hq := page) (ha := by cases u <;> decide)).stored]
    exact locked
  have count : v.stored (pgTIMED u) Reg.TIMED.LOSS_CNT = s.stored (pgTIMED u) Reg.TIMED.LOSS_CNT :=
    (regs.same (hq := page) (ha := by cases u <;> decide)).stored
  obtain ⟨unlocked, shown, counted, event⟩ := State.loseLock_shows lock (by rw [count]; exact below)
  refine ⟨unlocked, shown, counted.trans (congrArg (· + 1) count), event, ?_, fun active on free => ?_⟩
  · rw [(State.loseLock_leaves lock).2, now]
  · have held := State.loseLock_holdover lock (active.trans (regs.active (by cases u <;> decide)).symm) (running.trans on)
      ((regs.same (ha := by cases u <;> decide)).flag.trans free)
    rwa [now] at held

/-- Settles O27: the marker is the fourth good one (`State.superframeMarker_locks`), which locks the port (`State.gainLock_locks`); a
loss is shown, counted and leads to holdover as `State.loseLock_after` says. -/
theorem markersLockAndLosePorts : Obligations.MarkersLockAndLosePorts := by
  unfold Obligations.MarkersLockAndLosePorts
  refine ⟨?_, ?_⟩
  · intro s u m at_ l sub on unlocked last good crc valid frame next fixed tree part
    have row := (exec_superframeMarker on u m at_ sub).trans
      (congrArg _ (State.superframeMarker_locks unlocked last good crc valid frame next fixed tree part))
    obtain ⟨locked, shown, event⟩ := (s.fourthMarker u m.time.toNat at_).gainLock_locks u
    obtain ⟨-, time, found⟩ := (s.fourthMarker u m.time.toNat at_).gainLock_leaves u
    exact ⟨_, row, locked, shown, event, (time.lock u).trans (TimeSt.setLock_lock ..), found⟩
  · intro s u loses on locked below
    refine ⟨⟨_, exec_cdrUnlock on u, ?_⟩, fun cdr bad => ?_⟩
    · exact State.loseLock_after (((s.belfryBut_time _).trans (State.belfryBut_putB _ false)).mono (by simp [missFields]))
        (State.putB_now ..) (State.putB_running ..) locked below
    · obtain ⟨x, row⟩ := State.markerMissing_loses cdr bad
      refine ⟨_, (exec_markerMissing on u).trans (congrArg _ row), ?_⟩
      exact State.loseLock_after (((s.belfryBut_time x).trans (State.belfryBut_bump _ 1 1)).mono (by simp [missFields]))
        (State.bump_now ..) (State.bump_running ..) locked below

end Sys2Proof.Machine
end

section
/-!
PROOFS. The family of network time: domain switches are asked for, by command and by a write of SW_CTRL (R242, R404).
-/

set_option Elab.async false

namespace Sys2Proof.Machine

/-! ### A request for a switch -/

/-- A switch pending, as TSTAT shows it. -/
def State.switchScheduled (s : State) (p : PendSwitch) : State :=
  State.putB { s with time := { s.time with pendSwitch := some p } } pgTIME Reg.TIME.TSTAT_SW_PENDING true

/-- A request that R242 allows schedules its switch. -/
theorem State.requestSwitch_schedules {s : State} {target : Bool} {sheaf : Nat} (running : s.running = true)
    (standby : umOf target ≠ s.active) (acquired : s.acquired (umOf target) = true) (locked : s.portLocked (umOf target) = true)
    (ahead : 2 ≤ signedDiff 32 sheaf (sheafOf s.frame)) (none : s.time.pendSwitch = none) (fresh : s.time.recheck = false)
    (range : switchInRange (s.accDiffNow (umOf target)) s.spliceNow = true) : s.requestSwitch target sheaf =
      (true, s.switchScheduled { target := target, frame := frameOfSheaf s.frame sheaf, auto := false }) :=
  if_pos ⟨standby, acquired, locked, ahead, none, fresh, range, running⟩

/-- One that it does not allow is refused. -/
theorem State.requestSwitch_refuses {s : State} {target : Bool} {sheaf : Nat}
    (h : umOf target = s.active ∨ s.acquired (umOf target) = false ∨ s.portLocked (umOf target) = false ∨
      signedDiff 32 sheaf (sheafOf s.frame) < 2 ∨ s.time.pendSwitch ≠ none ∨
      switchInRange (s.accDiffNow (umOf target)) s.spliceNow = false) : s.requestSwitch target sheaf = (false, s.rejectSwitch) := by
  refine if_neg ?_
  rintro ⟨standby, acquired, locked, ahead, none, -, range, -⟩
  rcases h with h | h | h | h | h | h
  · exact standby h
  · exact absurd (acquired.symm.trans h) (by decide)
  · exact absurd (locked.symm.trans h) (by decide)
  · exact absurd ahead (not_le.2 h)
  · exact h none
  · exact absurd (range.symm.trans h) (by decide)

section

variable (s : State) (p : PendSwitch)

theorem State.switchScheduled_time : (s.switchScheduled p).time = { s.time with pendSwitch := some p } := State.putB_time ..

theorem State.switchScheduled_shows : (s.switchScheduled p).stored pgTIME Reg.TIME.TSTAT_SW_PENDING = 1 :=
  State.stored_putB_same (by decide) (by decide) ..

theorem State.switchScheduled_only : s.Only 131096 (s.switchScheduled p) :=
  State.putB_only (State.Only.of (.refl s) (time := .inl (by decide))) _ _ _ (by decide)

theorem State.regsBut_switchScheduled : s.RegsBut (fun q _ => q = pgTIME) (s.switchScheduled p) :=
  State.RegsBut.trans (t := { s with time := { s.time with pendSwitch := some p } }) (.of rfl rfl)
    (State.regsBut_putB (P := fun q _ => q = pgTIME) (f := Reg.TIME.TSTAT_SW_PENDING) rfl (by decide) _ true)

end

/-! ### A privileged command that is accepted -/

/-- What is finished of a command that was found in state `v` and accepted in state `z`. -/
theorem accepted_of_finished {v z t : State} {h : UHdr} {u : UCmd} {M : Nat} {l : List Part}
    (fin : ({ result := resOK, state := z } : Outcome).Finished v h u t) (only : v.Only M z)
    (head : z.rd pgJRNL Reg.JRNL.HEAD.off = v.rd pgJRNL Reg.JRNL.HEAD.off) (hM : M &&& 146834194501 = 0)
    (hl : (allBut (answering ++ l)).all (fun p => !(M ||| 146834194521).testBit p.bit) = true) : v.Accepted t z h u l := by
  have bit (i : Nat) (hi : (146834194501 : Nat).testBit i = true) : M.testBit i = false := by
    simpa [Nat.testBit_land, hi] using congrArg (·.testBit i) hM
  have parts : v.Only (M ||| 146834194521) t :=
    only.mono.trans (Nat.lor_comm M 146834194521 ▸ (fin.answered.only (L := 146834194521) (by decide)).mono)
  exact ⟨fin.answers rfl (only.um (bit 28 (by decide)) (bit 29 (by decide)) _),
    fin.entry rfl (only.journal (bit 33 (by decide))) (only.now (bit 0 (by decide))) head, parts.changes hl, fin.answered, fin.reg⟩

/-- The row of a privileged command that is taken and accepted, as `exec_accepts` has it of the others. -/
theorem exec_acceptsAuth {c : Instr} {s z : State} {h : UHdr} {u : UCmd} {M : Nat} {l : List Part}
    (row : s.commandOf c = some (h, u, {})) (takes : s.takesAuth h u = true) (plain : endsPlain u = true)
    (run : (s.authed h).runCmd h u u.words {} = { result := resOK, state := z }) (running : z.running = true)
    (only : (s.authed h).Only M z) (head : z.rd pgJRNL Reg.JRNL.HEAD.off = (s.authed h).rd pgJRNL Reg.JRNL.HEAD.off)
    (hM : M &&& 146834194501 = 0) (hl : (allBut (answering ++ l)).all (fun p => !(M ||| 146834194521).testBit p.bit) = true) :
    ∃ t, exec c s = .next t ∧ (s.authed h).Accepted t z h u l := by
  obtain ⟨t, step, fin⟩ := exec_takesAuth row takes plain (by rw [run]; exact running)
  rw [run] at fin
  exact ⟨t, step, accepted_of_finished fin only head hM hl⟩

/-! ### A write of which the written 1s wait for the boundary (R404) -/

/-- The register stored and recorded, with its written 1s in the queue for the boundary. -/
def State.wroteWaits (s : State) (k : PageKind) (p o : Nat) (d : RegDef) (v : Word) : State :=
  { s.wrote k p o d v with pendW := (s.wrote k p o d v).pendW ++
      [{ page := p, off := o, value := writtenOnes k o d v false, chan := (s.wrote k p o d v).writtenWith k o }] }

section

variable {s : State} {p o : Nat} {k : PageKind} {d : RegDef} {v : Word}

theorem State.wroteWaits_only : s.Only 17179869240 (s.wroteWaits k p o d v) :=
  State.Only.of (State.wrote_only (by decide)) (pendW := .inl (by decide))

theorem State.regsBut_wroteWaits (ho : o < 4096) : s.RegsBut (WroteReg p o) (s.wroteWaits k p o d v) :=
  (State.regsBut_wrote ho).trans (.of rfl rfl)

theorem State.writePlain_waits (w : s.Writes p o v false k d) (free : (d.hasRwl && !s.unlocked p) = false) (hk : k ≠ .timeD)
    (ones : writtenOnes k o d v false ≠ 0) (later : immediatePulse k o = false) :
    s.writePlain k p o d v false = (resOK, s.wroteWaits k p o d v) := by
  have unshut : (d.hasRwl && !false && !s.unlocked p) = false := by simpa using free
  unfold State.writePlain
  extract_lets shut new s₁ s₂ made s₃
  have held : ¬holdsBoth k o new = true := Bool.eq_false_iff.1 w.held
  have opens : ¬shut = true := Bool.eq_false_iff.1 unshut
  have same : made = writtenOnes k o d v false := congrArg (writtenOnes k o d v) unshut
  have wrote : s₂ = s.wrote k p o d v := by
    simp only [s₂, s₁, State.storeSetting, hk, false_and, if_false]
    rfl
  have done : s₃ = s.wroteWaits k p o d v := by
    simp only [s₃, wrote, same, ones, later, Bool.false_eq_true, or_self, if_false]
    rfl
  rw [if_neg held, if_neg w.frozen, if_neg (Bool.eq_false_iff.1 w.tested), if_neg opens, done]

theorem State.cmdWrite_waits (h : UHdr) (w : s.Writes p o v false k d) (free : (d.hasRwl && !s.unlocked p) = false) (hk : k ≠ .timeD)
    (ones : writtenOnes k o d v false ≠ 0) (waits : actsAtBoundary k o = true) (hp : p / 256 ≠ 0x20) (body : List Word) :
    s.cmdWrite h p o v false body =
      { result := resOK, state := s.wroteWaits k p o d v, pages := [(p, resOK)], rwl := false } := by
  have later : immediatePulse k o = false := by
    simp only [actsAtBoundary, Bool.and_eq_true, Bool.not_eq_true'] at waits
    exact waits.1
  have all := State.writeAll_plain w.alone w.kind w.reg w.can w.on w.plain waits (s.hostStick h 0 false true body) v false
  rw [State.writePlain_waits w free hk ones later] at all
  have target : (targetKind p).isNone = false := by rw [targetKind, if_neg hp, w.kind]; rfl
  have one : joinResult (decide (p / 256 = 0x20)) [resOK] = resOK := by rw [decide_eq_false hp]; rfl
  have none (t : State) : t.countLocked resOK [(p, resOK)] = t := if_neg (by simp [resOK, resLOCKED])
  simp only [State.cmdWrite, target, w.recovery, all, Bool.false_and, Bool.or_false, Bool.false_eq_true, if_false, List.map_cons,
    List.map_nil, one, none]

end

/-! ### GO of SW_CTRL (R242) -/

/-- What a write of SW_CTRL with GO leaves for the boundary: GO with its TARGET. -/
theorem writtenOnes_swCtrl {d : RegDef} (reg : regAt pgTIME 0x050 = some d) (value : Word) :
    writtenOnes .time 0x050 d (value ||| 0x80000000) false = (value ||| 0x80000000) &&& 0x80000001 := by
  have pulses : d.mask Access.isPulse = 0 := by
    have : (regAt pgTIME 0x050).map (·.mask Access.isPulse) = some 0 := by decide
    rw [reg] at this
    exact Option.some.inj this
  simp [writtenOnes, pulses]

/-- At the boundary the request is made (R404). -/
theorem State.pulse_swCtrl (s : State) (f : Nat) (v : Word) (sheaf : Nat) :
    s.pulse f { page := pgTIME, off := 0x050, value := v, chan := sheaf } = (s.requestSwitch (v.getLsbD 0) sheaf).2 := rfl

theorem State.rejectSwitch_counts {s : State} (below : s.stored pgTIME Reg.TIME.SW_REJ_CNT < 2 ^ 32 - 1) :
    s.rejectSwitch.stored pgTIME Reg.TIME.SW_REJ_CNT = s.stored pgTIME Reg.TIME.SW_REJ_CNT + 1 := by
  rw [State.rejectSwitch, State.stored_event_ne (regKey_ne_off (by decide))]
  exact State.stored_bump_below (by decide) (by decide) (by simp only [Reg.TIME.SW_REJ_CNT] at below ⊢; omega) 2

/-- Settles O11: an allowed request schedules its switch (`State.requestSwitch_schedules`), and its command is accepted
(`exec_acceptsAuth`); a write of SW_CTRL waits (`State.cmdWrite_waits`) and makes its request at the boundary. -/
theorem domainSwitchesAreRequested : Obligations.DomainSwitchesAreRequested := by
  unfold Obligations.DomainSwitchesAreRequested
  refine ⟨?_, ?_, ?_, ?_⟩
  · intro s h target sheaf u v running takes standby acquired locked ahead none fresh range
    have on : v.running = true := (s.authed_running h).trans running
    have schedules := State.requestSwitch_schedules on standby acquired locked ahead none fresh range
    let p : PendSwitch := { target := target, frame := frameOfSheaf v.frame sheaf.toNat, auto := false }
    have parts := v.switchScheduled_only p
    obtain ⟨t, row, done⟩ := exec_acceptsAuth (M := 131096) (l := [.time]) (c := .domainSwitch h target sheaf) rfl takes rfl
      (congrArg accepted schedules) ((parts.running (by decide)).trans on) parts
      ((v.regsBut_switchScheduled p).same _ _ (by decide) (by decide)).1 (by decide) (by decide)
    refine ⟨t, row, done.answered.time.trans (v.switchScheduled_time p), ?_, done.answer, done.entry, done.parts⟩
    rw [(done.reg pgTIME Reg.TIME.TSTAT_SW_PENDING.off (by decide) (by decide)).stored]
    exact v.switchScheduled_shows p
  · intro s h value k d v running lands unlocked
    obtain rfl := lands.kind (x := .time) (by decide)
    have ones : writtenOnes .time 0x050 d v false = v &&& 0x80000001 := writtenOnes_swCtrl lands.writes.reg value
    have some : writtenOnes .time 0x050 d v false ≠ 0 := by
      intro zero
      have bit : (v &&& 0x80000001).getLsbD 31 = true := by simp [v]
      rw [← ones, zero] at bit
      exact absurd bit (by decide)
    have run := State.cmdWrite_waits h lands.writes lands.free (by decide) some rfl (by decide) (UCmd.write pgTIME 0x050 v).words
    have others : (s.counted h).RegsBut (fun q _ => q ≠ pgJRNL) ((s.counted h).wroteWaits .time pgTIME 0x050 d v) := by
      refine (State.regsBut_wroteWaits (by decide)).mono fun q o wrote => ?_
      rcases wrote with e | e
      · rw [(Prod.mk.inj e).1]; decide
      · rw [(Prod.mk.inj e).1]; decide
    obtain ⟨t, row, written, answered, -⟩ := exec_write_done (c := .swCtrlGo h value) (l := [.pendW]) rfl lands.takes running
      (by decide) run State.wroteWaits_only others (by decide) (by decide)
    refine ⟨t, row, written, answered.pendW.trans ?_⟩
    have queue : ((s.counted h).wrote .time pgTIME 0x050 d v).pendW = s.pendW :=
      ((State.wrote_only (L := 17179869208) (by decide)).pendW (by decide)).trans (s.answered_counted h).pendW
    have at_ : ((s.counted h).wrote .time pgTIME 0x050 d v).stored pgTIME Reg.TIME.SW_AT = s.stored pgTIME Reg.TIME.SW_AT :=
      ((State.regsBut_wrote (by decide)).stored (by simp [WroteReg]; decide) (by decide)).trans
        (State.counted_stored (by decide) s h (by decide)).1
    rw [State.wroteWaits, ones, queue, State.writtenWith, if_pos rfl, at_]
  · intro s f v sheaf u running standby acquired locked ahead none fresh range
    simp only [State.pulse_swCtrl, State.requestSwitch_schedules running standby acquired locked ahead none fresh range]
    exact ⟨State.switchScheduled_time .., State.switchScheduled_shows .., (State.switchScheduled_only ..).changes (by decide)⟩
  · intro s f v sheaf u refused below
    simp only [State.pulse_swCtrl, State.requestSwitch_refuses refused]
    exact ⟨State.rejectSwitch_counts below, State.event_pends (by decide) ..,
      (State.rejectSwitch_only (L := 88) (.refl s) (by decide)).changes (by decide)⟩

end Sys2Proof.Machine
end

section
/-!
PROOFS. The family of network time: frames start by the acquisition timeout, and the cleaner locks (R239, R241, R472).
-/

set_option Elab.async false

namespace Sys2Proof.Machine

/-! ### The rows -/

theorem exec_acqTimeout {s : State} (h : s.powered = true) : exec .acqTimeout s = .next s.acqTimeout :=
  congrArg Host.Outcome.next (if_pos h)

theorem exec_cleanerLock {s : State} (h : s.powered = true) : exec .cleanerLock s = .next s.cleanerLock :=
  congrArg Host.Outcome.next (if_pos h)

/-! ### The first frame (R472) -/

theorem State.belfryBut_frames (s : State) (x : List (Nat × FrameInfo)) : s.BelfryBut [] { s with frames := x } := .of rfl rfl

theorem State.belfryBut_cal (s : State) (x : CalSt) : s.BelfryBut [] { s with cal := x } := .of rfl rfl

theorem State.belfryBut_tileStarts (s : State) (f : Nat) (t : Fin 16) : s.BelfryBut [] (s.tileStarts f t) := by
  have port (v : State) (c : Conc) : v.BelfryBut [] (v.showPort t c) :=
    State.belfryBut_put_far (by unfold pgPORTS pgTILE; omega) (by cases c <;> decide) v _
  have rx (v : State) (c : Conc) (x : Rx) : v.BelfryBut [] (v.setRx c t x) := .of (State.setRx_regs ..) (State.setRx_stale ..)
  unfold State.tileStarts
  extract_lets tl here p a b
  have tile : s.BelfryBut [] a := .of (State.setTile_regs ..) (State.setTile_stale ..)
  exact ((tile.trans (port a .a)).trans (port _ .b)).trans (.each (fun v c _ => rx v c _) b)

theorem State.belfryBut_concReady (s : State) (c : Conc) : s.BelfryBut [] (s.concReady c) :=
  .when (.of (State.setConc_regs ..) (State.setConc_stale ..))

/-- Eligibility as the belfry's STICK page shows it. -/
def eligFields : List (Nat × FieldRef) := [(pgSTICK, eligReg .a), (pgSTICK, eligReg .b)]

theorem State.belfryBut_concStarts (s : State) (f : Nat) (c : Conc) : s.BelfryBut eligFields (s.concStarts f c) := by
  have far (v : State) (q : Nat) (g : FieldRef) (n : Nat) (hq : 0x100 ≤ q) (hg : g.off < 4096) : v.BelfryBut [] (v.put q g n) :=
    State.belfryBut_put_far hq hg v n
  have elig (v : State) (b : Bool) : v.BelfryBut eligFields (v.putB pgSTICK (eligReg c) b) := by
    cases c
    · exact (State.belfryBut_putB v b).mono (by decide)
    · exact (State.belfryBut_putB v b).mono (by decide)
  have page : 0x100 ≤ pgSTEP c ∧ 0x100 ≤ pgDRAM c ∧ 0x100 ≤ pgSHEAF c := by cases c <;> decide
  unfold State.concStarts
  refine .when ?_
  extract_lets both v n w
  have conc : s.BelfryBut [] v := .of (State.setConc_regs ..) (State.setConc_stale ..)
  have pair : v.BelfryBut eligFields w := (((far v _ _ _ page.1 (by decide)).trans (elig _ _)).trans
    (far _ _ _ _ page.1 (by decide))).trans (far _ _ Reg.STEP.VALID_FROM n page.1 (by decide))
  exact (((conc.trans pair).trans (far _ _ _ _ page.2.1 (by decide))).trans (far _ _ _ _ page.2.1 (by decide))).trans
    (far _ _ _ _ page.2.2 (by decide))

theorem State.belfryBut_mixedBoundary (s : State) (f : Nat) :
    s.BelfryBut [(pgJRNL, Reg.JRNL.PEAL_STAT_MIXED), (pgJRNL, Reg.HDR.EVT_PENDING)] (s.mixedBoundary f) := by
  unfold State.mixedBoundary
  refine .when ?_
  extract_lets v
  have passed : s.BelfryBut [] v := .of rfl rfl
  split
  · exact passed.mono (by simp)
  · exact passed.trans ((State.belfryBut_putB v true).trans (State.belfryBut_event _ 2))

/-- The registers of the belfry that the first frame changes. -/
def startFields : List (Nat × FieldRef) :=
  [(pgTIME, Reg.TIME.EPOCH_INIT_FROZEN), (pgTIME, Reg.TIME.EPOCH_EPOCH)] ++ eligFields ++
    [(pgJRNL, Reg.JRNL.PEAL_STAT_MIXED), (pgJRNL, Reg.HDR.EVT_PENDING), (pgCALS, Reg.CALS.SWAP_STAT_WARM),
     (pgPWR, Reg.PWR.STARTUP_STEP), (pgTIME, Reg.TIME.TSTAT_TQ)]

/-- The first frame: the clock stands at its beginning, EPOCH_INIT is frozen, and the start-up is at step 11. -/
structure State.FramesStarted (s t : State) (f : Nat) : Prop where
  running : t.running = true
  frame : t.frame = f
  now : t.now = f * frameTref
  time : t.time = { s.time with first := f }
  frozen : t.flag pgTIME Reg.TIME.EPOCH_INIT_FROZEN = true
  step : t.step470 = 11
  regs : s.BelfryBut startFields t

theorem State.startFrames_starts (s : State) (f : Nat) : s.FramesStarted (s.startFrames f) f := by
  unfold State.startFrames
  extract_lets _ _ _ a b c d e here _ g
  let frozen := a.putB pgTIME Reg.TIME.EPOCH_INIT_FROZEN true
  let stepped := g.put pgPWR Reg.PWR.STARTUP_STEP 11
  have regs : frozen.BelfryBut startFields.tail stepped.noteTq := by
    have epoch : frozen.BelfryBut [(pgTIME, Reg.TIME.EPOCH_EPOCH)] b := State.belfryBut_put frozen _
    have tiles : b.BelfryBut [] (b.each allTiles (·.tileStarts f ·)) := .each (fun v t _ => v.belfryBut_tileStarts f t) b
    have ready (v : State) : v.BelfryBut [] (v.each concs (·.concReady ·)) := .each (fun w x _ => w.belfryBut_concReady x) v
    have start (v : State) : v.BelfryBut eligFields (v.each concs (·.concStarts f ·)) :=
      .each (fun w x _ => w.belfryBut_concStarts f x) v
    have units : b.BelfryBut eligFields c := (tiles.trans (ready _)).trans (start _)
    have mixed : c.BelfryBut _ e := (c.belfryBut_mixedBoundary f).trans (d.belfryBut_frames _)
    have warm : e.BelfryBut [(pgCALS, Reg.CALS.SWAP_STAT_WARM)] g :=
      (e.belfryBut_cal _).trans (State.belfryBut_putB _ _)
    have last : g.BelfryBut [(pgPWR, Reg.PWR.STARTUP_STEP), (pgTIME, Reg.TIME.TSTAT_TQ)] stepped.noteTq :=
      (State.belfryBut_put g 11).trans stepped.belfryBut_noteTq
    exact (((epoch.trans units).trans mixed).trans warm).trans last
  have parts : a.Only 2155929944 stepped.noteTq := by
    have units : a.Only 2155929944 c := .each (fun v x k => State.concStarts_only k f x (by decide))
      (.each (fun v x k => State.concReady_only k x (by decide)) (.each (fun v t k => State.tileStarts_only k f t (by decide))
        (State.put_only (State.putB_only (.refl a) _ _ _ (by decide)) _ _ _ (by decide))))
    have opened : a.Only 2155929944 e := .of (State.mixedBoundary_only units f (by decide)) (frames := .inl (by decide))
    have warm : a.Only 2155929944 g := State.putB_only (.of opened (cal := .inl (by decide))) _ _ _ (by decide)
    exact State.noteTq_only (State.put_only warm _ _ _ (by decide)) (by decide)
  have step : stepped.stored pgPWR Reg.PWR.STARTUP_STEP = 11 := State.stored_put_same (by decide) (by decide) ..
  refine ⟨parts.running (by decide), parts.frame (by decide), parts.now (by decide), parts.time (by decide), ?_, ?_, ?_⟩
  · exact regs.same.flag.trans (State.flag_putB_same (by decide) (by decide) ..)
  · exact (State.belfryBut_noteTq stepped).same.stored.trans step
  · have begun : s.BelfryBut [(pgTIME, Reg.TIME.EPOCH_INIT_FROZEN)] frozen :=
      State.BelfryBut.trans (l := []) (t := a) (.of rfl rfl) (State.belfryBut_putB a true)
    exact begun.trans regs

/-! ### A start by timeout (R239) -/

theorem State.belfryBut_setSplice (s : State) (v : Int) :
    s.BelfryBut [(pgTIME, Reg.TIME.SPLICE_LO), (pgTIME, Reg.TIME.SPLICE_HI_HI)] (s.setSplice v) :=
  (s.belfryBut_time _).trans ((State.belfryBut_put (p := pgTIME) (f := Reg.TIME.SPLICE_LO) _ _).trans
    (State.belfryBut_put (p := pgTIME) (f := Reg.TIME.SPLICE_HI_HI) _ _))

theorem State.setSplice_time (s : State) (v : Int) : (s.setSplice v).time = { s.time with splice := v } :=
  (State.put_time ..).trans (State.put_time ..)

/-- What a start by timeout leaves, at frame `f` with domain 0 active. -/
structure State.TimedOut (t : State) (f : Nat) : Prop where
  running : t.running = true
  frame : t.frame = f
  now : t.now = f * frameTref
  active : t.active = .um0
  byTimeout : t.time.byTimeout = true
  splice : t.time.splice = 0
  quality : t.stored pgTIME Reg.TIME.TSTAT_TQ = 3
  step : t.step470 = 11
  frozen : t.flag pgTIME Reg.TIME.EPOCH_INIT_FROZEN = true

theorem State.startOn_timedOut (s : State) (acc : Int) :
    (s.startOn .um0 acc true).TimedOut ((acc + frameUnits - 1) / frameUnits).toNat := by
  unfold State.startOn
  extract_lets f _ a b c d e
  rw [if_neg (by simp)]
  obtain ⟨running, frame, now, time, frozen, step, regs⟩ := d.startFrames_starts f
  have ageing : (d.startFrames f).BelfryBut [(pgTIMED .um0, Reg.TIMED.DSTAT_AGEING), (pgTIMED .um1, Reg.TIMED.DSTAT_AGEING)] e :=
    .each (fun v u _ => (State.belfryBut_putB v _).mono (by cases u <;> decide)) _
  have after : (d.startFrames f).BelfryBut _ e.enterHoldover.noteTq :=
    (ageing.trans e.belfryBut_enterHoldover).trans (State.belfryBut_noteTq _)
  have aged : (d.startFrames f).Only 163928 e := .each (fun v u k => State.putB_only k _ _ _ (by decide)) (.refl _)
  have parts : (d.startFrames f).Only 163928 e.enterHoldover := State.enterHoldover_only aged (by decide)
  have noted : (d.startFrames f).Only 163928 e.enterHoldover.noteTq := State.noteTq_only parts (by decide)
  have begun : d.time = { s.time.setAcc .um0 ((f : Int) * frameUnits) with byTimeout := true, splice := 0 } :=
    (State.putB_time ..).trans ((State.putB_time ..).trans (a.setSplice_time 0))
  have kept : e.time = { d.time with first := f } :=
    (State.Only.time (L := 24) (.each (fun v u k => State.putB_only k _ _ _ (by decide)) (.refl _)) (by decide)).trans time
  have moved := e.enterHoldover_time
  have byTimeout : e.enterHoldover.time.byTimeout = true := by rw [moved, kept, begun]
  have on : e.enterHoldover.running = true := (parts.running (by decide)).trans running
  refine ⟨(noted.running (by decide)).trans running, (noted.frame (by decide)).trans frame, (noted.now (by decide)).trans now, ?_, ?_, ?_, ?_,
    after.same.stored.trans step, after.same.flag.trans frozen⟩
  · have active : d.active = .um0 := by
      have shown : d.stored pgTIME Reg.TIME.TSTAT_ACTIVE = 0 :=
        (State.belfryBut_putB (b.putB pgTIME Reg.TIME.TSTAT_ACTIVE false) false).same.stored.trans
          (State.stored_putB_same (by decide) (by decide) ..)
      rw [State.active, shown]
      rfl
    exact ((regs.trans after).active (by decide)).trans active
  · rw [State.noteTq_time, byTimeout]
  · rw [State.noteTq_time, moved, kept, begun]
  · rw [State.noteTq_stored on, State.tqNow, if_pos byTimeout]

theorem State.acqTimeout_starts {s : State} (off : s.running = false) (step : s.step470 = 10)
    (timeout : s.stored pgTIME Reg.TIME.CTRL_ACQ_TIMEOUT ≠ 0) :
    s.acqTimeout.TimedOut (s.stored pgTIME Reg.TIME.EPOCH_INIT_EPOCH * 2 ^ 36) := by
  have first (e : Nat) : ((((e * 2 ^ 48 : Nat) : Int) * trefUnits + frameUnits - 1) / frameUnits).toNat = e * 2 ^ 36 := by
    simp only [trefUnits, frameUnits]
    omega
  have starts := s.startOn_timedOut (((s.stored pgTIME Reg.TIME.EPOCH_INIT_EPOCH * 2 ^ 48 : Nat) : Int) * trefUnits)
  rw [first] at starts
  rwa [State.acqTimeout, if_pos (by rw [off, step, bne_iff_ne.2 timeout]; rfl)]

/-! ### The cleaner locks (R241) -/

/-- CLEAN_STAT and TSTAT show the lock. -/
def State.cleanShown (s : State) : State :=
  (s.draw.2.putB pgTIME Reg.TIME.CLEAN_STAT_LOCK true).putB pgTIME Reg.TIME.TSTAT_CLEAN_LOCK true

theorem State.cleanerLock_eq {s : State} (locked : s.portLocked s.active = true) :
    s.cleanerLock = s.cleanShown.put pgTIME Reg.TIME.CLEAN_STAT_CTRL_VAL s.draw.1 := if_pos locked

theorem State.cleanerLock_shows {s : State} (locked : s.portLocked s.active = true) :
    s.cleanerLock.stored pgTIME Reg.TIME.CLEAN_STAT_LOCK = 1 ∧ s.cleanerLock.stored pgTIME Reg.TIME.TSTAT_CLEAN_LOCK = 1 := by
  rw [State.cleanerLock_eq locked]
  have value := State.belfryBut_put (p := pgTIME) (f := Reg.TIME.CLEAN_STAT_CTRL_VAL) s.cleanShown s.draw.1
  have lock := State.belfryBut_putB (p := pgTIME) (f := Reg.TIME.TSTAT_CLEAN_LOCK)
    (s.draw.2.putB pgTIME Reg.TIME.CLEAN_STAT_LOCK true) true
  exact ⟨(lock.trans value).same.stored.trans (State.stored_putB_same (by decide) (by decide) ..),
    value.same.stored.trans (State.stored_putB_same (by decide) (by decide) ..)⟩

end Sys2Proof.Machine
end

section
/-!
PROOFS. The family of network time: slews and the splice slew end, and a switch of the domain is taken at its boundary (R237,
R244-R246).
-/

set_option Elab.async false

namespace Sys2Proof.Machine

/-! ### The rows -/

theorem exec_slewDone {s : State} (h : s.powered = true) (u : Um) : exec (.slewDone u) s = .next (s.slewDone u) :=
  congrArg Host.Outcome.next (if_pos h)

theorem exec_spliceSlewEnd {s : State} (h : s.powered = true) : exec .spliceSlewEnd s = .next s.spliceSlewEnd :=
  congrArg Host.Outcome.next (if_pos h)

theorem exec_domainSwitchBoundary {s : State} (h : s.powered = true) :
    exec .domainSwitchBoundary s = .next s.domainSwitchBoundary := congrArg Host.Outcome.next (if_pos h)

/-! ### Countdown registers -/

/-- A countdown that changes is in force at once, whether a write of it waits or not. -/
theorem State.putCount_fld {f : FieldRef} (h : f.lo ≤ f.hi) (k : f.hi < 32) (s : State) (p v : Nat) :
    (s.putCount p f v).fld p f = v % 2 ^ (f.hi - f.lo + 1) := by
  unfold State.putCount
  split
  case h_1 w waits =>
    simp only [State.fld, State.live, mapFind_mapPut_same, Option.getD_some]
    exact fieldGet_fieldPut_same f v w k h
  case h_2 => exact State.fld_put_same h k s p v

/-- It leaves every other register. -/
theorem State.sameReg_putCount {p q o : Nat} {f : FieldRef} (h : regKey q o ≠ regKey p f.off) (s : State) (v : Nat) :
    s.SameReg (s.putCount p f v) q o := by
  unfold State.putCount
  split
  case h_1 w waits =>
    refine ⟨rfl, ?_⟩
    simp only [State.live, mapFind_mapPut_ne h]
    rfl
  case h_2 => exact State.sameReg_put h s v

theorem State.belfryBut_putCount {p o : Nat} (ho : o ≠ Reg.HDR.EVT_PENDING.off ∧ o < 4096) (s : State) (v : Nat) :
    s.BelfryBut [(p, ⟨o, 31, 0⟩)] (s.putCount p ⟨o, 31, 0⟩ v) := by
  refine ⟨fun q g _ hg ha => (State.sameReg_putCount (fieldsApart_key ho.2 hg (ha _ List.mem_cons_self)) s v).sameField,
    fun q i _ h => ?_⟩
  have other : regKey q Reg.HDR.EVT_PENDING.off ≠ regKey p o :=
    regKey_ne (fun e => ho.1 (Prod.mk.inj e).2.symm) (by decide) ho.2
  rwa [(State.sameReg_putCount (f := ⟨o, 31, 0⟩) other s v).1]

/-! ### A slew ends (R237) -/

theorem State.endSlew_ends (s : State) (u : Um) : (s.endSlew u).slewLeft u = 0 ∧
    (s.endSlew u).fld (pgTIMED u) Reg.TIMED.SLEW_CNT = 0 ∧
    ((s.endSlew u).rd (pgTIMED u) Reg.HDR.EVT_PENDING.off).getLsbD 2 = true := by
  have page : pgTIMED u < 0x100 := by cases u <;> decide
  let counted := s.putCount (pgTIMED u) Reg.TIMED.SLEW_CNT 0
  let ended := counted.putB (pgTIMED u) Reg.TIMED.DSTAT_SLEWING false
  have event : ended.BelfryBut _ (s.endSlew u) := State.belfryBut_event ended 2
  have rest : counted.BelfryBut _ (s.endSlew u) := (State.belfryBut_putB counted false).trans event
  have slewing : (s.endSlew u).flag (pgTIMED u) Reg.TIMED.DSTAT_SLEWING = false :=
    (event.same (hq := page) (ha := by cases u <;> decide)).flag.trans (State.flag_putB_same (by decide) (by decide) ..)
  refine ⟨?_, ?_, State.event_pends (by decide) ..⟩
  · rw [State.slewLeft, if_neg (Bool.eq_false_iff.1 slewing)]
  · exact (rest.same (hq := page) (ha := by cases u <;> decide)).fld.trans (State.putCount_fld (by decide) (by decide) ..)

/-- The standby domain's accumulator with what a slew's periods gained it. -/
def State.slewKept (s : State) (u : Um) : State :=
  { s with time := s.time.setAcc s.active.other (s.time.acc s.active.other + s.slewGain u (s.slewLeft u)) }

theorem State.slewDone_eq {s : State} {u : Um} (runs : 0 < s.slewLeft u) (within : s.slewLeft u ≤ 4097) :
    s.slewDone u = (s.slewKept u).endSlew u := if_pos ⟨runs, within⟩

theorem TimeSt.setAcc_acc (x : TimeSt) (u : Um) (v : Int) : (x.setAcc u v).acc u = v := by cases u <;> rfl

/-! ### The splice slew stops (R246) -/

theorem State.endSplice_time (s : State) : s.endSplice.time = { s.time with splRun := false } :=
  (State.putCount_only (L := 24) (.refl _) pgTIME Reg.TIME.SPL_COUNT 0 (by decide)).time (by decide)

theorem State.belfryBut_endSplice (s : State) : s.BelfryBut [(pgTIME, Reg.TIME.SPL_COUNT)] s.endSplice :=
  (s.belfryBut_time _).trans (State.belfryBut_putCount (by decide) _ 0)

/-- A splice slew that has run all its periods. -/
theorem State.spliceSlewEnd_eq {s : State} (runs : s.time.splRun = true) (acquired : s.time.byTimeout = false)
    (within : s.spliceRuns ≤ 4097) : s.spliceSlewEnd = (s.setSplice (s.spliceAfter s.spliceRuns)).endSplice := by
  have ends : s.runSplice s.spliceRuns = (s.setSplice (s.spliceAfter s.spliceRuns)).endSplice := by
    rw [State.runSplice, if_pos runs]
    exact if_pos (le_refl _)
  have settled : ¬((s.setSplice (s.spliceAfter s.spliceRuns)).endSplice.time.byTimeout = true) := by
    rw [State.endSplice_time, State.setSplice_time, acquired]
    exact Bool.false_ne_true
  rw [State.spliceSlewEnd, if_pos (by simp [runs, within]), ends, State.settleTimeout, if_neg (by simp [settled])]

/-- SPLICE at the end of a splice slew: 0 where it reached it. -/
theorem State.spliceAfter_runs {s : State} (runs : s.time.splRun = true) :
    s.spliceAfter s.spliceRuns = (match spliceZero s.time.splice s.splRate with
      | some z => if z ≤ s.fld pgTIME Reg.TIME.SPL_COUNT then 0
        else s.time.splice + s.splRate * ((s.fld pgTIME Reg.TIME.SPL_COUNT : Nat) : Int)
      | none => s.time.splice + s.splRate * ((s.fld pgTIME Reg.TIME.SPL_COUNT : Nat) : Int)) := by
  have left : s.spliceRuns = (match spliceZero s.time.splice s.splRate with
      | some z => min z (s.fld pgTIME Reg.TIME.SPL_COUNT)
      | none => s.fld pgTIME Reg.TIME.SPL_COUNT) := if_pos runs
  rw [State.spliceAfter, Nat.min_self, left]
  cases spliceZero s.time.splice s.splRate with
  | none => rfl
  | some z =>
    by_cases reached : z ≤ s.fld pgTIME Reg.TIME.SPL_COUNT
    · simp [reached]
    · have short : min z (s.fld pgTIME Reg.TIME.SPL_COUNT) = s.fld pgTIME Reg.TIME.SPL_COUNT := by omega
      have other : z ≠ s.fld pgTIME Reg.TIME.SPL_COUNT := by omega
      simp [short, other, reached]

/-! ### A start by timeout is settled (R239), and the time quality of a frame that begins with a switch (R248) -/

theorem State.settleTimeout_time (s : State) :
    s.settleTimeout.time = { s.time with byTimeout := s.settleTimeout.time.byTimeout } := by
  unfold State.settleTimeout
  split
  · dsimp only
    rw [State.noteTq_time, State.event_time, State.putB_time]
  · rfl

theorem State.belfryBut_settleTimeout (s : State) : s.BelfryBut
    [(pgTIME, Reg.TIME.TSTAT_ACQ), (pgTIME, Reg.HDR.EVT_PENDING), (pgTIME, Reg.TIME.TSTAT_TQ)] s.settleTimeout := by
  unfold State.settleTimeout
  refine .when ?_
  exact (((s.belfryBut_time _).trans (State.belfryBut_putB (p := pgTIME) (f := Reg.TIME.TSTAT_ACQ) _ true)).trans
    (State.belfryBut_event _ 4)).trans (State.belfryBut_noteTq _)

theorem State.belfryBut_freshTq (s : State) : s.BelfryBut [(pgTIME, Reg.TIME.TSTAT_TQ)] s.freshTq := by
  unfold State.freshTq
  split
  · exact (s.belfryBut_frames _).trans (State.belfryBut_put (p := pgTIME) (f := Reg.TIME.TSTAT_TQ) _ _)
  · exact .refl s

theorem State.freshTq_time (s : State) : s.freshTq.time = s.time :=
  (State.freshTq_only (L := 32792) (.refl s) (by decide)).time (by decide)

/-! ### The commands' times convert after the switch (R175, R181) -/

theorem State.belfryBut_convertTimed (s : State) (f : Nat) : s.BelfryBut
    [(pgTRIG, Reg.TRIG.TCMD_REJ_CNT), (pgTRIG, Reg.HDR.COUNTER_OVF), (pgTRIG, Reg.HDR.EVT_PENDING)] (s.convertTimed f) := by
  unfold State.convertTimed
  extract_lets _ _ _ lost _ v
  have kept : s.BelfryBut [] v := .of rfl rfl
  exact kept.trans (.each (fun w _ _ => (State.belfryBut_bump w 5 1).trans (State.belfryBut_event _ 1)) v)

theorem State.belfryBut_sendWindows (s : State) : s.BelfryBut [] s.sendWindows := by
  have only := State.sendWindows_only (L := 65792) (.refl s) (by decide)
  exact .of (only.regs (by decide)) (only.stale (by decide))

/-- What follows a switch at its boundary. -/
theorem State.switchFollowed_leaves (s : State) (f : Nat) :
    s.BelfryBut ([(pgTIME, Reg.TIME.TSTAT_TQ)] ++
      [(pgTRIG, Reg.TRIG.TCMD_REJ_CNT), (pgTRIG, Reg.HDR.COUNTER_OVF), (pgTRIG, Reg.HDR.EVT_PENDING)])
        ((s.freshTq.convertTimed f).sendWindows) ∧ ((s.freshTq.convertTimed f).sendWindows).time = s.time := by
  refine ⟨(s.belfryBut_freshTq.trans (State.belfryBut_convertTimed _ f)).trans (State.belfryBut_sendWindows _), ?_⟩
  have only : s.freshTq.Only 65880 ((s.freshTq.convertTimed f).sendWindows) :=
    State.sendWindows_only (State.convertTimed_only (.refl _) f (by decide)) (by decide)
  exact (only.time (by decide)).trans s.freshTq_time

/-! ### A switch is taken (R245) -/

theorem State.belfryBut_journalEvent (s : State) (code result page off digest aux : Nat) : s.BelfryBut
    [(pgJRNL, Reg.JRNL.HEAD), (pgJRNL, Reg.JRNL.TAIL), (pgJRNL, Reg.JRNL.MIRROR_TAIL)] (s.journalEvent code result page off digest aux) := by
  have shown (v : State) : v.BelfryBut [(pgJRNL, Reg.JRNL.HEAD), (pgJRNL, Reg.JRNL.TAIL), (pgJRNL, Reg.JRNL.MIRROR_TAIL)] v.showJournal := by
    unfold State.showJournal
    split
    · exact .refl v
    · exact ((State.belfryBut_put v _).trans (State.belfryBut_put _ _)).trans (State.belfryBut_put _ _)
  let e : JEntry := { seq := (s.stored pgJRNL Reg.JRNL.HEAD + 1) % 2 ^ 32, time := s.now, port := 2, master := 0, code := code,
                      result := result, page := page, off := off, digest := digest, aux := aux, poison := false }
  have entered : s.BelfryBut [] { s with journal := (e :: s.journal).take 4096 } := .of rfl rfl
  exact entered.trans (shown _)

theorem State.dropSwitch_time (s : State) : s.dropSwitch.time = { s.time with pendSwitch := none } := State.putB_time ..

theorem State.belfryBut_dropSwitch (s : State) : s.BelfryBut [(pgTIME, Reg.TIME.TSTAT_SW_PENDING)] s.dropSwitch :=
  (s.belfryBut_time _).trans (State.belfryBut_putB (p := pgTIME) (f := Reg.TIME.TSTAT_SW_PENDING) _ false)

/-- What a commanded switch leaves of the state that it was taken in. -/
structure State.SwitchTaken (s t : State) (target : Um) : Prop where
  active : t.active = target
  done : t.time.pendSwitch = none
  shown : t.stored pgTIME Reg.TIME.TSTAT_SW_PENDING = 0
  count : t.stored pgTIME Reg.TIME.SW_CNT = s.stored pgTIME Reg.TIME.SW_CNT + 1
  splice : t.time.splice = s.time.splice + s.accDiff target / 256 * 256
  stopped : t.time.splRun = false
  event : (t.rd pgTIME Reg.HDR.EVT_PENDING.off).getLsbD 0 = true

/-- SPLICE takes a value, and a splice slew stops. -/
def State.spliced (s : State) (v : Int) : State := (if s.time.splRun then s.endSplice else s).setSplice v

theorem State.belfryBut_spliced (s : State) (v : Int) : s.BelfryBut
    [(pgTIME, Reg.TIME.SPL_COUNT), (pgTIME, Reg.TIME.SPLICE_LO), (pgTIME, Reg.TIME.SPLICE_HI_HI)] (s.spliced v) :=
  State.BelfryBut.trans (.when s.belfryBut_endSplice) (State.belfryBut_setSplice _ v)

theorem State.spliced_time (s : State) (v : Int) : (s.spliced v).time.splice = v ∧ (s.spliced v).time.splRun = false := by
  rw [State.spliced, State.setSplice_time]
  refine ⟨rfl, ?_⟩
  split
  case isTrue => rw [State.endSplice_time]
  case isFalse stands => exact Bool.eq_false_iff.2 stands

/-- A switch counted, with its event and its entry in the journal. -/
def State.switchCounted (s : State) (t : Um) (auto : Bool) : State :=
  State.journalEvent (((s.bump pgTIME Reg.TIME.SW_CNT 0).bump pgTIME Reg.TIME.AUTO_SW_CNT 1 auto.toNat).event pgTIME 0)
    0xE2 resOK 0x0002 0x044 0 t.idx

theorem State.switchCounted_leaves {s : State} (below : s.stored pgTIME Reg.TIME.SW_CNT < 2 ^ 32 - 1) (t : Um) (auto : Bool) :
    (s.switchCounted t auto).stored pgTIME Reg.TIME.SW_CNT = s.stored pgTIME Reg.TIME.SW_CNT + 1 ∧
      ((s.switchCounted t auto).rd pgTIME Reg.HDR.EVT_PENDING.off).getLsbD 0 = true ∧
      s.BelfryBut ([Reg.TIME.SW_CNT, Reg.TIME.AUTO_SW_CNT, Reg.HDR.COUNTER_OVF, Reg.HDR.EVT_PENDING].map (pgTIME, ·) ++
        [(pgJRNL, Reg.JRNL.HEAD), (pgJRNL, Reg.JRNL.TAIL), (pgJRNL, Reg.JRNL.MIRROR_TAIL)]) (s.switchCounted t auto) ∧
      (s.switchCounted t auto).time = s.time := by
  let counted := s.bump pgTIME Reg.TIME.SW_CNT 0
  let event := (counted.bump pgTIME Reg.TIME.AUTO_SW_CNT 1 auto.toNat).event pgTIME 0
  have entered : event.BelfryBut _ (s.switchCounted t auto) := event.belfryBut_journalEvent _ _ _ _ _ _
  have rest : counted.BelfryBut _ (s.switchCounted t auto) :=
    ((State.belfryBut_bump (f := Reg.TIME.AUTO_SW_CNT) counted 1 _).trans (State.belfryBut_event _ 0)).trans entered
  have time : (s.switchCounted t auto).time = event.time :=
    (State.journalEvent_only (L := 8589934616) (.refl event) _ _ _ _ _ _ (by decide)).time (by decide)
  refine ⟨rest.same.stored.trans ?_, entered.event _ 0 (by decide) (State.event_pends (by decide) ..),
    ((State.belfryBut_bump s 0 1).trans rest).mono (by decide), ?_⟩
  · exact State.stored_bump_below (by decide) (by decide) (by simp only [Reg.TIME.SW_CNT] at below ⊢; omega) 0
  · rw [time, State.event_time, State.bump_time, State.bump_time]

/-- No switch is pending after one: holdover follows the lock of the domain that is active now (R247), and a start by timeout may be
settled (R239). -/
def State.switchSettled (s : State) (t : Um) : State :=
  (if s.portLocked t then s.exitHoldover else s.enterHoldover).dropSwitch.settleTimeout

theorem State.switchSettled_leaves (s : State) (t : Um) :
    s.BelfryBut (holdFields ++ [(pgTIME, Reg.TIME.TSTAT_SW_PENDING)] ++
      [(pgTIME, Reg.TIME.TSTAT_ACQ), (pgTIME, Reg.HDR.EVT_PENDING), (pgTIME, Reg.TIME.TSTAT_TQ)]) (s.switchSettled t) ∧
      (s.switchSettled t).stored pgTIME Reg.TIME.TSTAT_SW_PENDING = 0 ∧ (s.switchSettled t).time.pendSwitch = none ∧
      (s.switchSettled t).time.splice = s.time.splice ∧ (s.switchSettled t).time.splRun = s.time.splRun := by
  unfold State.switchSettled
  have held : s.BelfryBut holdFields (if s.portLocked t then s.exitHoldover else s.enterHoldover) ∧
      s.time.SameButHold (if s.portLocked t then s.exitHoldover else s.enterHoldover).time := by
    split
    exacts [⟨s.belfryBut_exitHoldover, s.exitHoldover_time⟩, ⟨s.belfryBut_enterHoldover, s.enterHoldover_time⟩]
  obtain ⟨regs, same⟩ := held
  generalize (if s.portLocked t then s.exitHoldover else s.enterHoldover) = v at regs same
  have settles := v.dropSwitch.belfryBut_settleTimeout
  have time := v.dropSwitch.settleTimeout_time
  rw [v.dropSwitch_time, same] at time
  refine ⟨(regs.trans v.belfryBut_dropSwitch).trans settles, ?_, ?_, ?_, ?_⟩
  · exact settles.same.stored.trans (State.stored_putB_same (by decide) (by decide) ..)
  · rw [time]
  · rw [time]
  · rw [time]

theorem State.takeSwitch_takes {s : State} (below : s.stored pgTIME Reg.TIME.SW_CNT < 2 ^ 32 - 1) (t : Um) (f : Nat) :
    s.SwitchTaken (s.takeSwitch t false f) t := by
  unfold State.takeSwitch
  extract_lets off a b c _ _ e g h i
  have moved : s.BelfryBut [] a ∧ a.time.splice = s.time.splice := ⟨s.belfryBut_time _, by cases t <;> rfl⟩
  clear_value a
  have splice : b.time.splice = s.time.splice + off * 256 := moved.2 ▸ (a.spliced_time _).1
  have stopped : b.time.splRun = false := (a.spliced_time _).2
  have toSplice : s.BelfryBut _ b := moved.1.trans (a.belfryBut_spliced _)
  clear_value b
  let shown := b.putB pgTIME Reg.TIME.TSTAT_ACTIVE t.isOne
  have isShown : shown.stored pgTIME Reg.TIME.TSTAT_ACTIVE = t.isOne.toNat := State.stored_putB_same (by decide) (by decide) ..
  have toShown : b.BelfryBut [(pgTIME, Reg.TIME.TSTAT_ACTIVE)] shown := State.belfryBut_putB b _
  have marked : shown.BelfryBut [(pgTIME, Reg.TIME.CLEAN_STAT_INPUT)] e :=
    State.BelfryBut.trans (t := c) (m := []) (State.belfryBut_putB shown _) (.of rfl rfl)
  have timeE : e.time = { b.time with recheck := false } := by
    rw [← (State.putB_time .. : shown.time = b.time), ← (State.putB_time .. : c.time = shown.time)]
  clear_value shown e
  have count : e.stored pgTIME Reg.TIME.SW_CNT = s.stored pgTIME Reg.TIME.SW_CNT :=
    ((toSplice.trans toShown).trans marked).same.stored
  obtain ⟨counted, event, toCounted, timeC⟩ := State.switchCounted_leaves (count ▸ below) t false
  obtain ⟨settles, none, done, spliceI, splRunI⟩ := (e.switchCounted t false).switchSettled_leaves t
  change s.SwitchTaken ((e.switchCounted t false).switchSettled t) t
  refine ⟨?_, done, none, settles.same.stored.trans (counted.trans (congrArg (· + 1) count)), ?_, ?_,
    settles.event _ 0 (by decide) event⟩
  · rw [State.active, ((marked.trans toCounted).trans settles).same.stored, isShown]
    cases t <;> rfl
  · rw [spliceI, timeC, timeE, ← splice]
  · rw [splRunI, timeC, timeE, ← stopped]

/-- The switch at its boundary, with what follows. -/
theorem State.domainSwitchBoundary_takes {s : State} {p : PendSwitch} (pending : s.time.pendSwitch = some p) (host : p.auto = false)
    (due : p.frame ≤ s.frame) (locked : s.portLocked (umOf p.target) = true)
    (below : s.stored pgTIME Reg.TIME.SW_CNT < 2 ^ 32 - 1) : s.SwitchTaken s.domainSwitchBoundary (umOf p.target) := by
  have decides : s.decideSwitch p = (s.takeSwitch (umOf p.target) false p.frame).freshTq := by
    simp only [State.decideSwitch, host, locked, Bool.false_and, Bool.not_true, Bool.false_eq_true, if_false]
  have boundary : s.domainSwitchBoundary = ((s.decideSwitch p).convertTimed s.frame).sendWindows := by
    unfold State.domainSwitchBoundary
    rw [pending]
    exact if_neg (not_lt.2 due)
  obtain ⟨active, done, shown, count, splice, stopped, event⟩ := State.takeSwitch_takes below (umOf p.target) p.frame
  rw [boundary, decides]
  generalize s.takeSwitch (umOf p.target) false p.frame = v at active done shown count splice stopped event
  obtain ⟨regs, time⟩ := v.switchFollowed_leaves s.frame
  refine ⟨(regs.active (by decide)).trans active, ?_, regs.same.stored.trans shown, regs.same.stored.trans count, ?_, ?_,
    regs.event _ 0 (by decide) event⟩
  · rw [time, done]
  · rw [time, splice]
  · rw [time, stopped]

/-- Settles O28: a start by timeout (`State.acqTimeout_starts`), the cleaner's lock (`State.cleanerLock_shows`), a switch
(`State.domainSwitchBoundary_takes`), the end of a slew (`State.endSlew_ends`) and of the splice slew (`State.spliceAfter_runs`). -/
theorem framesStartAndSwitchesEnd : Obligations.FramesStartAndSwitchesEnd := by
  unfold Obligations.FramesStartAndSwitchesEnd
  refine ⟨⟨?_, ?_⟩, ?_, ?_, ?_⟩
  · intro s on off step timeout
    obtain ⟨running, frame, now, active, byTimeout, splice, quality, step, frozen⟩ := State.acqTimeout_starts off step timeout
    refine ⟨_, exec_acqTimeout on, running, frame, ?_, active, byTimeout, splice, quality, step, frozen⟩
    rw [now, frameTref]
    omega
  · intro s on locked
    obtain ⟨clean, shown⟩ := State.cleanerLock_shows locked
    exact ⟨_, exec_cleanerLock on, clean, shown, (State.cleanerLock_only (L := 8796093022232) (.refl s) (by decide)).changes (by decide)⟩
  · intro s p t' on pending host due locked below
    obtain ⟨active, done, shown, count, splice, stopped, event⟩ := State.domainSwitchBoundary_takes pending host due locked below
    exact ⟨_, exec_domainSwitchBoundary on, active, done, shown, count, splice, stopped, event⟩
  · intro s u on runs within
    obtain ⟨left, count, event⟩ := (s.slewKept u).endSlew_ends u
    have parts : s.Only 131160 ((s.slewKept u).endSlew u) :=
      State.endSlew_only (State.Only.of (.refl s) (time := .inl (by decide))) u (by decide)
    have time : ((s.slewKept u).endSlew u).time = (s.slewKept u).time :=
      (State.endSlew_only (L := 88) (.refl _) u (by decide)).time (by decide)
    refine ⟨_, (exec_slewDone on u).trans (congrArg _ (State.slewDone_eq runs within)), left, count, event, parts.changes (by decide), ?_⟩
    rw [time, State.slewKept, TimeSt.setAcc_acc]
  · intro s n on runs acquired within
    have parts : s.Only 131096 ((s.setSplice (s.spliceAfter s.spliceRuns)).endSplice) :=
      State.endSplice_only (State.setSplice_only (.refl s) _ (by decide)) (by decide)
    refine ⟨_, (exec_spliceSlewEnd on).trans (congrArg _ (State.spliceSlewEnd_eq runs acquired within)), ?_, ?_, ?_, parts.changes (by decide)⟩
    · rw [State.endSplice_time]
    · exact State.putCount_fld (by decide) (by decide) ..
    · rw [State.endSplice_time, State.setSplice_time]
      exact State.spliceAfter_runs runs

end Sys2Proof.Machine
end

section
/-!
PROOFS. The family of dual concentrators: the lease lapses, the stick is granted, and lanes leave idle (R265-R274, R354, R355).
-/

namespace Sys2Proof.Machine

/-! ### The rows with the module powered -/

theorem exec_leaseLapse {s : State} (h : s.powered = true) (at_ : Nat) : exec (.leaseLapse at_) s = .next (s.leaseLapse at_) :=
  congrArg Host.Outcome.next (if_pos h)

theorem exec_guardEnd {s : State} (h : s.powered = true) (at_ : Nat) : exec (.guardEnd at_) s = .next (s.guardEndAt at_) :=
  congrArg Host.Outcome.next (if_pos h)

/-- A concentrator out of reset, in a powered module. -/
theorem State.awake_of {s : State} {c : Conc} (h : s.powered = true) (k : (s.conc c).run ≠ .reset) :
    (s.powered && (s.conc c).run != .reset) = true := by simp [h, k]

theorem exec_deadlineCopyExpiry {s : State} {c : Conc} (h : s.powered = true) (k : (s.conc c).run ≠ .reset) (at_ : Nat) :
    exec (.deadlineCopyExpiry c at_) s = .next (s.copyExpiry c at_) := congrArg Host.Outcome.next (if_pos (State.awake_of h k))

theorem exec_laneExitIdle {s : State} {c : Conc} (h : s.powered = true) (k : (s.conc c).run ≠ .reset) (l : Fin 64) (at_ : Nat) :
    exec (.laneExitIdle c ⟨l, at_⟩) s = .next (s.laneExit c l at_) := congrArg Host.Outcome.next (if_pos (State.awake_of h k))

theorem exec_takeStart {s : State} {c : Conc} (h : s.mergeOn c = true) : exec (.takeStart c) s = .next (s.takeStart c) :=
  congrArg Host.Outcome.next (if_pos h)

/-! ### What an update of a concentrator's own pages leaves -/

/-- A register of one of a concentrator's own pages (R397). -/
def ConcReg (c : Conc) (q _o : Nat) : Prop := pgConc c ≤ q ∧ q < pgConc c + 0x100

theorem concReg_pgSTEP (c : Conc) (o : Nat) : ConcReg c (pgSTEP c) o := by unfold ConcReg pgSTEP; omega
theorem concReg_pgLANES (c : Conc) (o : Nat) : ConcReg c (pgLANES c) o := by unfold ConcReg pgLANES; omega
theorem concReg_pgLANE (c : Conc) {l : Nat} (h : l < 64) (o : Nat) : ConcReg c (pgLANE c l) o := by
  unfold ConcReg pgLANE; omega
theorem not_concReg_belfry {c : Conc} {q o : Nat} (h : q < 0x100) : ¬ConcReg c q o := by
  cases c <;> simp only [ConcReg, pgConc] <;> omega

theorem pgLANE_ne {c : Conc} {l k : Nat} (h : l ≠ k) : pgLANE c l ≠ pgLANE c k := by unfold pgLANE; omega

/-- The holder is read from STAT alone. -/
theorem State.RegsBut.holder {P : Nat → Nat → Prop} {s t : State} (h : s.RegsBut P t) (hp : ¬P pgSTICK Reg.STICK.STAT.off) :
    t.holder = s.holder := by
  simp only [State.holder, h.stored (f := Reg.STICK.STAT_STATE) hp (by decide), h.stored (f := Reg.STICK.STAT_HOLDER) hp (by decide)]

theorem State.RegsBut.driving {P : Nat → Nat → Prop} {s t : State} {c : Conc} (h : s.RegsBut P t)
    (hp : ¬P pgSTICK Reg.STICK.STAT.off) : t.driving c = s.driving c := congrArg (· == some c) (h.holder hp)

theorem State.holder_of_state {s : State} (h : s.stickState ≠ 1) : s.holder = none := if_neg h

theorem State.stickState_put (s : State) {v : Nat} (h : v < 4) : (s.put pgSTICK Reg.STICK.STAT_STATE v).stickState = v :=
  (State.stored_put_same (by decide) (by decide) ..).trans (Nat.mod_eq_of_lt h)

theorem State.regsBut_stick {P : Nat → Nat → Prop} (s : State) (x : StickSt) : s.RegsBut P { s with stick := x } := .of rfl rfl

/-- What the update for one element of a list reaches, and every update keeps, holds after the whole list. -/
theorem State.each_reaches {α : Type} {P : State → Prop} {f : State → α → State} {a : α} (sets : ∀ s, P (f s a))
    (keeps : ∀ s b, P s → P (f s b)) {l : List α} (mem : a ∈ l) (s : State) : P (s.each l f) := by
  induction l generalizing s with
  | nil => exact absurd mem List.not_mem_nil
  | cons b l ih =>
    rw [State.each_cons]
    rcases List.mem_cons.1 mem with rfl | mem
    · exact State.each_keeps (fun s b _ => keeps s b) (sets s)
    · exact ih mem (f s b)

theorem mem_allLanes (l : Fin 64) : l.val ∈ allLanes := List.mem_range.2 l.isLt

/-! ### Lanes are forced idle (R268, R355) -/

theorem State.putLaneState_same {v : Nat} (h : v < 8) (s : State) (c : Conc) (l : Nat) : (s.putLaneState c l v).laneState c l = v :=
  (State.stored_put_same (by decide) (by decide) ..).trans (Nat.mod_eq_of_lt h)

theorem State.putLaneState_ne {l k : Nat} (h : l ≠ k) (s : State) (c : Conc) (v : Nat) :
    (s.putLaneState c k v).laneState c l = s.laneState c l :=
  State.stored_put_ne (regKey_ne_page (pgLANE_ne h) (by decide) (by decide)) ..

theorem State.putLaneState_test (s : State) (c : Conc) (l k v : Nat) :
    (s.putLaneState c k v).flag (pgLANE c l) Reg.LANE.TEST_GEN_EN = s.flag (pgLANE c l) Reg.LANE.TEST_GEN_EN :=
  State.flag_put_ne (regKey_ne (fun e => absurd (Prod.mk.inj e).2 (by decide)) (by decide) (by decide)) ..

theorem State.regsBut_putLaneState {c : Conc} {l : Nat} (h : l < 64) (s : State) (v : Nat) :
    s.RegsBut (ConcReg c) (s.putLaneState c l v) := State.regsBut_put (concReg_pgLANE c h _) (by decide) s v

/-- A lane rests in electrical idle, or in test mode. -/
def State.laneRests (s : State) (c : Conc) (l : Nat) : Prop :=
  s.laneState c l = 0 ∨ s.laneState c l = 4 ∧ s.flag (pgLANE c l) Reg.LANE.TEST_GEN_EN = true

/-- A lane goes idle, one in test stays in test mode (R359). -/
def State.laneIdled (s : State) (c : Conc) (l : Nat) : State :=
  if s.laneState c l = 0 then s
  else s.putLaneState c l (if s.flag (pgLANE c l) Reg.LANE.TEST_GEN_EN then 4 else 0)

theorem State.laneIdled_rests (s : State) (c : Conc) (l : Nat) : (s.laneIdled c l).laneRests c l := by
  unfold State.laneIdled
  split
  case isTrue idle => exact .inl idle
  case isFalse =>
    split
    case isTrue test => exact .inr ⟨State.putLaneState_same (by decide) .., (State.putLaneState_test ..).trans test⟩
    case isFalse => exact .inl (State.putLaneState_same (by decide) ..)

theorem State.laneIdled_keeps {s : State} {c : Conc} {l : Nat} (h : s.laneRests c l) (k : Nat) : (s.laneIdled c k).laneRests c l := by
  by_cases e : l = k
  · exact e ▸ State.laneIdled_rests ..
  · unfold State.laneIdled
    split
    · exact h
    · rwa [State.laneRests, State.putLaneState_ne e, State.putLaneState_test]

/-- What a concentrator whose lanes are forced idle keeps. -/
def ConcSt.idled (x : ConcSt) : ConcSt :=
  { x with sending := false, firstDue := false, deadline := none, outGrain := none, outBlocks := [], outWords := [], tx := [] }

theorem State.forceIdle_leaves (s : State) (c : Conc) : (∀ l : Fin 64, (s.forceIdle c).laneRests c l) ∧
    s.ConcMoves (s.forceIdle c) c (s.conc c).idled ∧ s.RegsBut (ConcReg c) (s.forceIdle c) := by
  have lanes : s.Only 24 (s.each allLanes (fun s l => s.laneIdled c l)) :=
    State.each_keeps (P := s.Only 24) (fun t l _ h => by
      unfold State.laneIdled
      split
      exacts [h, State.put_only h _ _ _ (by decide)]) (.refl s)
  have pages : s.RegsBut (ConcReg c) (s.each allLanes (fun s l => s.laneIdled c l)) := .each (fun t l mem => by
    unfold State.laneIdled
    split
    exacts [.refl t, State.regsBut_putLaneState (List.mem_range.1 mem) ..]) s
  have same : (s.forceIdle c) = (s.each allLanes (fun s l => s.laneIdled c l)).setConc c
      ((s.each allLanes (fun s l => s.laneIdled c l)).conc c).idled := rfl
  have eq : (s.each allLanes (fun s l => s.laneIdled c l)).conc c = s.conc c := lanes.conc c
  rw [same, eq]
  refine ⟨fun l => ?_, ⟨State.setConc_conc_same .., (State.setConc_conc_ne (conc_other_ne c) ..).trans (lanes.conc _)⟩,
    pages.trans (State.regsBut_setConc ..)⟩
  have rests := State.each_reaches (P := fun t => t.laneRests c l) (f := fun s l => s.laneIdled c l) (a := l.val)
    (fun t => t.laneIdled_rests c l) (fun t k h => State.laneIdled_keeps h k) (mem_allLanes l) s
  have moved := State.regsBut_setConc (P := fun _ _ => False) (s.each allLanes (fun s l => s.laneIdled c l)) c (s.conc c).idled
  rwa [State.laneRests, State.laneState, moved.stored id (by decide), moved.flag id (by decide)]

theorem State.lanesIdle_forceIdle {s : State} {c : Conc} : (s.forceIdle c).LanesIdle c := by
  obtain ⟨rests, ⟨own, -⟩, -⟩ := s.forceIdle_leaves c
  refine ⟨rests, ?_, congrArg ConcSt.sending own, congrArg ConcSt.deadline own⟩
  simp [State.mayDrive, own, ConcSt.idled]

/-! ### The arbiter enters GUARD, and grants (R265, R268, R269) -/

/-- The belfry registers of the stick that a grant writes, or a register of the concentrator's own pages. -/
def GrantReg (c : Conc) (q o : Nat) : Prop :=
  q = pgSTICK ∧ o ∈ [Reg.STICK.STAT.off, Reg.STICK.GRANT_CNT.off, Reg.STICK.DEADLINE_LO.off, Reg.STICK.DEADLINE_HI.off,
    Reg.HDR.COUNTER_OVF.off, Reg.HDR.EVT_PENDING.off] ∨ ConcReg c q o

/-- STAT of the stick, or a register of the concentrator's own pages. -/
def StatReg (c : Conc) (q o : Nat) : Prop := q = pgSTICK ∧ o = Reg.STICK.STAT.off ∨ ConcReg c q o

theorem not_statReg {c : Conc} {q o : Nat} (h : q < 0x100) (k : q = pgSTICK → o ≠ Reg.STICK.STAT.off) : ¬StatReg c q o := by
  rintro (⟨rfl, rfl⟩ | mem)
  exacts [k rfl rfl, not_concReg_belfry h mem]

/-- GUARD begins: the former holder's lane-enable has fallen and its lanes are idle. -/
structure State.GuardEntered (s t : State) (c : Conc) (at_ : Nat) : Prop where
  state : t.stickState = 2
  stick : t.stick = { s.stick with guardEnd := at_ + 3200, former := c }
  shown : t.stored (pgSTEP c) Reg.STEP.STEP_STAT_HOLDER = 0
  idle : t.LanesIdle c
  other : t.conc c.other = s.conc c.other
  regs : s.RegsBut (StatReg c) t

theorem State.showDriving_leaves (s : State) (c : Conc) : (s.showDriving c).stored (pgSTEP c) Reg.STEP.STEP_STAT_HOLDER =
    s.stored (pgSTEP c) Reg.STEP.STEP_STAT_HOLDER ∧ s.RegsBut (ConcReg c) (s.showDriving c) :=
  ⟨State.stored_put_ne (regKey_ne_page (by unfold pgSTEP pgLANES; omega) (by decide) (by decide)) ..,
    State.regsBut_putB (concReg_pgLANES c _) (by decide) ..⟩

theorem State.forceIdle_holderShown (s : State) (c : Conc) : (s.forceIdle c).stored (pgSTEP c) Reg.STEP.STEP_STAT_HOLDER =
    s.stored (pgSTEP c) Reg.STEP.STEP_STAT_HOLDER := by
  have lanes : s.RegsBut (fun q _ => pgConc c + 0x10 ≤ q) (s.forceIdle c) := by
    refine (State.RegsBut.each (fun t l _ => ?_) s).trans (State.regsBut_setConc ..)
    exact .ite (.refl t) (State.regsBut_put (by unfold pgLANE; omega) (by decide) ..)
  exact lanes.stored (by unfold pgSTEP; omega) (by decide)

theorem State.enterGuard_entered (s : State) (c : Conc) (at_ : Nat) : s.GuardEntered (s.enterGuard c at_) c at_ := by
  obtain ⟨u, hu⟩ : ∃ u, u = (({ s with stick := { s.stick with guardEnd := at_ + 3200, former := c } } : State).put pgSTICK
    Reg.STICK.STAT_STATE 2).putB (pgSTEP c) Reg.STEP.STEP_STAT_HOLDER false := ⟨_, rfl⟩
  have eq : s.enterGuard c at_ = (u.showDriving c).forceIdle c := by rw [hu]; rfl
  obtain ⟨shown, line⟩ := u.showDriving_leaves c
  obtain ⟨-, moves, lanes⟩ := (u.showDriving c).forceIdle_leaves c
  have pages : u.RegsBut (ConcReg c) (s.enterGuard c at_) := eq ▸ line.trans lanes
  have only : u.Only 24600 (s.enterGuard c at_) := eq ▸ State.forceIdle_only (State.showDriving_only (.refl u) c (by decide)) c (by decide)
  have state : u.stickState = 2 := by
    have apart : regKey pgSTICK Reg.STICK.STAT_STATE.off ≠ regKey (pgSTEP c) Reg.STEP.STEP_STAT_HOLDER.off :=
      regKey_ne_page (by cases c <;> decide) (by decide) (by decide)
    rw [hu]
    exact (State.stored_put_ne apart ..).trans (State.stickState_put _ (by decide))
  have conc (k : Conc) : (u.showDriving c).conc k = s.conc k := by
    rw [State.showDriving, hu, State.putB_conc, State.putB_conc, State.put_conc]; rfl
  have begun : s.RegsBut (StatReg c) u := by
    rw [hu]
    exact ((s.regsBut_stick _).trans (State.regsBut_put (f := Reg.STICK.STAT_STATE) (.inl ⟨rfl, rfl⟩) (by decide) _ 2)).trans
      (State.regsBut_putB (f := Reg.STEP.STEP_STAT_HOLDER) (.inr (concReg_pgSTEP c _)) (by decide) ..)
  refine ⟨?_, ?_, ?_, eq ▸ State.lanesIdle_forceIdle, ?_, begun.trans (pages.mono fun _ _ => .inr)⟩
  · exact (pages.stored (not_concReg_belfry (by decide)) (by decide)).trans state
  · rw [only.stick (by decide), hu]; simp
  · rw [eq, State.forceIdle_holderShown, shown, hu, State.stored_putB_same (by decide) (by decide)]; rfl
  · rw [eq, moves.other, conc]

/-- The stick is granted to a concentrator: its lease runs from the frame, and its lane-enable line is up. -/
structure State.Granted (s t : State) (c : Conc) : Prop where
  holder : t.holder = some c
  count : s.stored pgSTICK Reg.STICK.GRANT_CNT + 1 < 2 ^ 32 →
    t.stored pgSTICK Reg.STICK.GRANT_CNT = s.stored pgSTICK Reg.STICK.GRANT_CNT + 1
  event : (t.rd pgSTICK Reg.HDR.EVT_PENDING.off).getLsbD 0 = true
  stick : t.stick = { s.stick with target := none, noAuto := false, deadline := s.leaseEnd s.frame }
  conc : s.ConcMoves t c { s.conc c with deadline := some (s.leaseEnd s.frame) }
  shown : t.stored (pgSTEP c) Reg.STEP.STEP_STAT_HOLDER = 1

theorem State.Granted.driving {s t : State} {c : Conc} (h : s.Granted t c) : t.driving c = true := by
  rw [State.driving, h.holder, beq_self_eq_true]

/-- STAT names the holder. -/
def State.holds (s : State) (c : Conc) : State := (s.put pgSTICK Reg.STICK.STAT_STATE 1).put pgSTICK Reg.STICK.STAT_HOLDER c.idx

theorem State.holds_holder (s : State) (c : Conc) : (s.holds c).holder = some c := by
  have state : (s.holds c).stored pgSTICK Reg.STICK.STAT_STATE = 1 := by
    have apart := State.stored_put_apart (f := Reg.STICK.STAT_HOLDER) (g := Reg.STICK.STAT_STATE) rfl (by decide) (by decide)
      (by decide) (by decide) (by decide) (s.put pgSTICK Reg.STICK.STAT_STATE 1) pgSTICK c.idx
    exact apart.trans (s.stickState_put (v := 1) (by decide))
  have who : (s.holds c).stored pgSTICK Reg.STICK.STAT_HOLDER = c.idx := by
    rw [State.holds, State.stored_put_same (by decide) (by decide)]
    cases c <;> rfl
  rw [State.holder, if_pos state, who]
  cases c <;> rfl

/-- The deadline's registers, and a register of the concentrator's own pages. -/
def DeadlineReg (c : Conc) (q o : Nat) : Prop :=
  q = pgSTICK ∧ o ∈ [Reg.STICK.DEADLINE_LO.off, Reg.STICK.DEADLINE_HI.off] ∨ ConcReg c q o

theorem State.setDeadline_leaves (s : State) (c : Conc) (d : Nat) : (s.setDeadline c d).stick = { s.stick with deadline := d } ∧
    s.ConcMoves (s.setDeadline c d) c { s.conc c with deadline := some d } ∧ s.RegsBut (DeadlineReg c) (s.setDeadline c d) := by
  obtain ⟨u, hu⟩ : ∃ u, u = (({ s with stick := { s.stick with deadline := d } } : State).put pgSTICK Reg.STICK.DEADLINE_LO
    (coarseOf d % 2 ^ 32)).put pgSTICK Reg.STICK.DEADLINE_HI (coarseOf d / 2 ^ 32) := ⟨_, rfl⟩
  have eq : s.setDeadline c d = u.setConc c { u.conc c with deadline := some d } := by rw [hu]; rfl
  have conc (k : Conc) : u.conc k = s.conc k := by rw [hu, State.put_conc, State.put_conc]; rfl
  rw [eq]
  refine ⟨by rw [State.setConc_stick, hu]; simp, ⟨?_, ?_⟩, State.RegsBut.trans ?_ (State.regsBut_setConc ..)⟩
  · rw [State.setConc_conc_same, conc]
  · rw [State.setConc_conc_ne (conc_other_ne c), conc]
  · rw [hu]
    exact ((s.regsBut_stick _).trans (State.regsBut_put (f := Reg.STICK.DEADLINE_LO) (.inl ⟨rfl, by decide⟩) (by decide) ..)).trans
      (State.regsBut_put (f := Reg.STICK.DEADLINE_HI) (.inl ⟨rfl, by decide⟩) (by decide) ..)

theorem State.grant_granted (s : State) (c : Conc) : s.Granted (s.grant c) c ∧ s.RegsBut (GrantReg c) (s.grant c) := by
  obtain ⟨u, hu⟩ : ∃ u, u = ((s.holds c).bump pgSTICK Reg.STICK.GRANT_CNT 0).event pgSTICK 0 := ⟨_, rfl⟩
  obtain ⟨v, hv⟩ : ∃ v : State, v = { u with stick := { u.stick with target := none, noAuto := false } } := ⟨_, rfl⟩
  have eq : s.grant c = ((v.setDeadline c (v.leaseEnd v.frame)).putB (pgSTEP c) Reg.STEP.STEP_STAT_HOLDER true).showDriving c := by
    rw [hv, hu]; rfl
  have named : s.RegsBut (fun q o => q = pgSTICK ∧ o = Reg.STICK.STAT.off) (s.holds c) :=
    (State.regsBut_put ⟨rfl, rfl⟩ (by decide) ..).trans (State.regsBut_put ⟨rfl, rfl⟩ (by decide) ..)
  have counted : (s.holds c).RegsBut (fun q o => q = pgSTICK ∧
      o ∈ [Reg.STICK.GRANT_CNT.off, Reg.HDR.COUNTER_OVF.off, Reg.HDR.EVT_PENDING.off]) v := by
    rw [hv, hu]
    exact ((State.regsBut_bump ⟨rfl, by decide⟩ ⟨rfl, by decide⟩ (by decide) ..).trans
      (State.regsBut_event ⟨rfl, by decide⟩ ..)).trans (.of rfl rfl)
  have only : s.Only 4194392 v := by
    rw [hv, hu]
    have u := State.event_only (L := 4194392) (State.bump_only (State.put_only (State.put_only (.refl s) pgSTICK Reg.STICK.STAT_STATE 1
      (by decide)) pgSTICK Reg.STICK.STAT_HOLDER c.idx (by decide)) pgSTICK Reg.STICK.GRANT_CNT 0 1 (by decide)) pgSTICK 0 (by decide)
    exact .of u (stick := .inl (by decide))
  obtain ⟨stick, moves, dead⟩ := v.setDeadline_leaves c (v.leaseEnd v.frame)
  have lease : v.leaseEnd v.frame = s.leaseEnd s.frame := by
    have us : v.fld pgSTICK Reg.STICK.LEASE_US = s.fld pgSTICK Reg.STICK.LEASE_US :=
      (counted.fld (by decide) (by decide)).trans (named.fld (by decide) (by decide))
    rw [State.leaseEnd, State.leaseEnd, us, only.frame (by decide)]
  have line : (v.setDeadline c (v.leaseEnd v.frame)).RegsBut (ConcReg c) (s.grant c) := by
    rw [eq]
    exact (State.regsBut_putB (concReg_pgSTEP c _) (by decide) ..).trans (State.showDriving_leaves _ c).2
  have after : v.RegsBut (DeadlineReg c) (s.grant c) := dead.trans (line.mono fun _ _ => .inr)
  have belfry {o : Nat} (h : o ∉ [Reg.STICK.DEADLINE_LO.off, Reg.STICK.DEADLINE_HI.off]) : ¬DeadlineReg c pgSTICK o := by
    rintro (⟨-, mem⟩ | mem)
    exacts [h mem, not_concReg_belfry (by decide) mem]
  have conc (k : Conc) : (s.grant c).conc k = (v.setDeadline c (v.leaseEnd v.frame)).conc k := by
    rw [eq, State.showDriving, State.putB_conc, State.putB_conc]
  refine ⟨⟨?_, fun below => ?_, ?_, ?_, ?_, ?_⟩, ?_⟩
  · rw [after.holder (belfry (by decide)), counted.holder (by decide), State.holds_holder]
  · have was : (s.holds c).stored pgSTICK Reg.STICK.GRANT_CNT = s.stored pgSTICK Reg.STICK.GRANT_CNT := named.stored (by decide) (by decide)
    have kept : v.stored pgSTICK Reg.STICK.GRANT_CNT = ((s.holds c).bump pgSTICK Reg.STICK.GRANT_CNT 0).stored pgSTICK Reg.STICK.GRANT_CNT := by
      rw [hv, hu]
      exact State.stored_event_ne (regKey_ne_off (by decide)) ..
    rw [after.stored (belfry (by decide)) (by decide), kept, ← was]
    exact State.stored_bump_below (by decide) (by decide) (by rw [was]; exact below) 0
  · rw [(after.same _ _ (by decide) (belfry (by decide))).1, hv]
    exact hu ▸ State.event_pends (by decide) ..
  · rw [← lease, eq, State.showDriving, State.putB_stick, State.putB_stick, stick, hv, hu]
    simp [State.holds]
  · rw [← lease]
    have own : v.conc c = s.conc c := only.conc c
    refine ⟨(conc c).trans (own ▸ moves.own), (conc c.other).trans (moves.other.trans (only.conc c.other))⟩
  · rw [eq, (State.showDriving_leaves _ c).1, State.stored_putB_same (by decide) (by decide)]
    rfl
  · refine (named.mono ?_).trans ((counted.mono ?_).trans (after.mono ?_))
    · rintro q o ⟨rfl, rfl⟩
      exact .inl ⟨rfl, by decide⟩
    · rintro q o ⟨rfl, mem⟩
      refine .inl ⟨rfl, ?_⟩
      simp only [List.mem_cons, List.not_mem_nil, or_false] at mem ⊢
      omega
    · rintro q o (⟨rfl, mem⟩ | mem)
      · refine .inl ⟨rfl, ?_⟩
        simp only [List.mem_cons, List.not_mem_nil, or_false] at mem ⊢
        omega
      · exact .inr mem

/-! ### The lease lapses (R269) -/

/-- An event is journaled after updates that leave the journal. -/
theorem State.journalEvent_journals {s u : State} (head : u.stored pgJRNL Reg.JRNL.HEAD = s.stored pgJRNL Reg.JRNL.HEAD)
    (same : u.journal = s.journal) (code page off : Nat) :
    s.journalsEvent (u.journalEvent code resOK page off 0 0) code page off u.now := by
  rw [State.journalsEvent, State.journalEvent, State.append_journal, State.append_seq, head, same]

theorem State.journalEvent_leaves (s : State) (code result page off digest aux : Nat) :
    s.RegsBut JournalReg (s.journalEvent code result page off digest aux) := State.regsBut_append ..

theorem not_journalReg {q o : Nat} (h : q ≠ pgJRNL) : ¬JournalReg q o := fun k => h k.1

/-- The lapse is counted at its deadline, with event 1. -/
def State.lapseCounted (s : State) : State :=
  ((({ s with stick := { s.stick with target := none, noAuto := false } } : State).bump pgSTICK Reg.STICK.LAPSE_CNT 2).put pgSTICK
    Reg.STICK.LAST_LAPSE (sheafOf (frameOfTref s.stick.deadline))).event pgSTICK 1

theorem State.lapse_eq (s : State) (c : Conc) :
    s.lapse c = (s.lapseCounted.journalEvent 0xE1 resOK 0x0007 0x058 0 0).enterGuard c s.stick.deadline := rfl

theorem State.lapseCounted_leaves {s : State} (below : s.stored pgSTICK Reg.STICK.LAPSE_CNT + 1 < 2 ^ 32) :
    s.lapseCounted.stored pgSTICK Reg.STICK.LAPSE_CNT = s.stored pgSTICK Reg.STICK.LAPSE_CNT + 1 ∧
    s.lapseCounted.stored pgSTICK Reg.STICK.LAST_LAPSE = sheafOf (s.stick.deadline / 4096) ∧
    (s.lapseCounted.rd pgSTICK Reg.HDR.EVT_PENDING.off).getLsbD 1 = true ∧
    s.lapseCounted.stick = { s.stick with target := none, noAuto := false } ∧
    s.lapseCounted.stored pgJRNL Reg.JRNL.HEAD = s.stored pgJRNL Reg.JRNL.HEAD := by
  obtain ⟨u, hu⟩ : ∃ u : State, u = { s with stick := { s.stick with target := none, noAuto := false } } := ⟨_, rfl⟩
  have eq : s.lapseCounted = ((u.bump pgSTICK Reg.STICK.LAPSE_CNT 2).put pgSTICK Reg.STICK.LAST_LAPSE
    (sheafOf (frameOfTref s.stick.deadline))).event pgSTICK 1 := by rw [hu]; rfl
  have same : s.RegsBut (fun _ _ => False) u := hu ▸ .of rfl rfl
  have was : u.stored pgSTICK Reg.STICK.LAPSE_CNT = s.stored pgSTICK Reg.STICK.LAPSE_CNT := same.stored id (by decide)
  rw [eq]
  refine ⟨?_, ?_, State.event_pends (by decide) .., ?_, ?_⟩
  · rw [State.stored_event_ne (regKey_ne_off (by decide)), State.stored_put_ne (regKey_ne_off (by decide)), ← was]
    exact State.stored_bump_below (by decide) (by decide) (by rw [was]; exact below) 2
  · rw [State.stored_event_ne (regKey_ne_off (by decide)), State.stored_put_same (by decide) (by decide)]
    exact Nat.mod_mod ..
  · rw [State.event_stick, State.put_stick, State.bump_stick, hu]
  · have page : u.RegsBut (fun q _ => q = pgSTICK) (((u.bump pgSTICK Reg.STICK.LAPSE_CNT 2).put pgSTICK Reg.STICK.LAST_LAPSE
        (sheafOf (frameOfTref s.stick.deadline))).event pgSTICK 1) :=
      ((State.regsBut_bump (P := fun q _ => q = pgSTICK) rfl rfl (by decide) ..).trans
        (State.regsBut_put (P := fun q _ => q = pgSTICK) rfl (by decide) ..)).trans (State.regsBut_event (P := fun q _ => q = pgSTICK) rfl ..)
    exact (page.stored (by decide) (by decide)).trans (same.stored id (by decide))

/-! ### GUARD ends (R269, R270) -/

theorem State.guardEndAt_due {s : State} {at_ : Nat} (h : s.stickState = 2) (k : s.stick.guardEnd ≤ at_) :
    s.guardEndAt at_ = (s.advance at_).endGuard := if_pos ⟨h, k⟩

/-- The counters of the stick, and COUNTER_OVF, EVT_PENDING and the journal's registers. -/
def OutcomeReg (q o : Nat) : Prop :=
  q = pgSTICK ∧ o ∈ [Reg.STICK.REFUSE_CNT.off, Reg.HDR.COUNTER_OVF.off, Reg.HDR.EVT_PENDING.off] ∨ JournalReg q o

/-- A command's outcome, refused where it is: counted with event 3. -/
def State.refusalCounted (s : State) (r : Nat) : State :=
  if r = resREFUSED then (s.bump pgSTICK Reg.STICK.REFUSE_CNT 4).event pgSTICK 3 else s

/-- The journal's entry of a STICK command (R500). -/
def StickCmd.entry (x : StickCmd) (r : Nat) : JEntry :=
  { seq := 0, time := x.time, port := x.port, master := x.master, code := 0x30, result := r, page := 0x0007, off := 0x048,
    digest := x.digest, aux := 0, poison := false }

theorem State.stickOutcome_eq {x : StickCmd} (h : x.isWrite = false) (s : State) (r : Nat) : s.stickOutcome x r =
    ((s.refusalCounted r).append (x.entry r)).2.answerHeld (if x.port = 1 then .um1 else .um0) x.tag 0x30 r
      ((s.refusalCounted r).append (x.entry r)).1 := by
  unfold State.stickOutcome
  dsimp only
  rw [if_neg (by simp [h]), if_neg (by simp [h])]
  rfl

theorem State.regsBut_answerHeld {P : Nat → Nat → Prop} (s : State) (u : Um) (tag : Byte) (code result seq : Nat) :
    s.RegsBut P (s.answerHeld u tag code result seq) := by
  have only := State.answerHeld_only (L := 805306368) (.refl s) u tag code result seq (by decide)
  exact .of (only.regs (by decide)) (only.stale (by decide))

/-- What the outcome of a STICK command leaves: the refusal counted, the journal's entry, and the answer. -/
theorem State.stickOutcome_leaves {x : StickCmd} (h : x.isWrite = false) (s : State) (r : Nat) :
    (s.stickOutcome x r).journal =
      ({ x.entry r with seq := (s.stored pgJRNL Reg.JRNL.HEAD + 1) % 2 ^ 32 } :: s.journal).take 4096 ∧
    s.RegsBut OutcomeReg (s.stickOutcome x r) ∧ (s.refusalCounted r).RegsBut JournalReg (s.stickOutcome x r) := by
  have counted : s.RegsBut (fun q o => q = pgSTICK ∧ o ∈ [Reg.STICK.REFUSE_CNT.off, Reg.HDR.COUNTER_OVF.off, Reg.HDR.EVT_PENDING.off])
      (s.refusalCounted r) :=
    .ite ((State.regsBut_bump ⟨rfl, by decide⟩ ⟨rfl, by decide⟩ (by decide) ..).trans (State.regsBut_event ⟨rfl, by decide⟩ ..))
      (.refl s)
  have journal : (s.refusalCounted r).journal = s.journal := by
    unfold State.refusalCounted
    split
    · rw [State.event_journal, State.bump_journal]
    · rfl
  have head : (s.refusalCounted r).stored pgJRNL Reg.JRNL.HEAD = s.stored pgJRNL Reg.JRNL.HEAD :=
    counted.stored (by decide) (by decide)
  have later : (s.refusalCounted r).RegsBut JournalReg (s.stickOutcome x r) := by
    rw [State.stickOutcome_eq h]
    exact (State.regsBut_append ..).trans (State.regsBut_answerHeld ..)
  refine ⟨?_, (counted.mono fun _ _ => .inl).trans (later.mono fun _ _ => .inr), later⟩
  have kept := State.answerHeld_only (L := 805306368) (.refl ((s.refusalCounted r).append (x.entry r)).2)
    (if x.port = 1 then .um1 else .um0) x.tag 0x30 r ((s.refusalCounted r).append (x.entry r)).1 (by decide)
  rw [State.stickOutcome_eq h, kept.journal (by decide), State.append_journal, State.append_seq, head, journal]
  rfl

theorem State.stickOutcome_stick (s : State) (x : StickCmd) (r : Nat) : (s.stickOutcome x r).stick = s.stick :=
  (State.stickOutcome_only (L := 9395241048) (.refl s) x r (by decide)).stick (by decide)

theorem State.endGuard_auto {s : State} (target : s.stick.target = none) (auto : s.stick.noAuto = false) :
    s.endGuard = s.autoGrant := by
  unfold State.endGuard
  rw [target]
  exact if_neg (by rw [auto]; decide)

/-- The automatic grant: the former holder's partner is eligible, and AUTO allows. -/
theorem State.autoGrant_granted {v : State} {c : Conc} (former : v.stick.former.other = c)
    (able : v.flag pgSTICK Reg.STICK.CTRL_AUTO = true) (fit : v.eligible c = true)
    (below : v.stored pgSTICK Reg.STICK.AUTO_CNT + 1 < 2 ^ 32) : v.Granted v.autoGrant c ∧
    v.autoGrant.stored pgSTICK Reg.STICK.AUTO_CNT = v.stored pgSTICK Reg.STICK.AUTO_CNT + 1 ∧ v.autoGrant.journal = v.journal := by
  obtain ⟨w, hw⟩ : ∃ w, w = v.bump pgSTICK Reg.STICK.AUTO_CNT 3 := ⟨_, rfl⟩
  have eq : v.autoGrant = w.grant c := by
    rw [State.autoGrant, former, hw]
    exact if_pos (by rw [able, fit]; rfl)
  have bumped : v.RegsBut (fun q o => q = pgSTICK ∧ o ∈ [Reg.STICK.AUTO_CNT.off, Reg.HDR.COUNTER_OVF.off]) w :=
    hw ▸ State.regsBut_bump ⟨rfl, by decide⟩ ⟨rfl, by decide⟩ (by decide) ..
  obtain ⟨⟨holder, count, event, stick, conc, shown⟩, regs⟩ := w.grant_granted c
  have grants : w.stored pgSTICK Reg.STICK.GRANT_CNT = v.stored pgSTICK Reg.STICK.GRANT_CNT := bumped.stored (by decide) (by decide)
  have lease : w.leaseEnd w.frame = v.leaseEnd v.frame := by
    rw [State.leaseEnd, State.leaseEnd, bumped.fld (by decide) (by decide), hw, State.bump_frame]
  have sameStick : w.stick = v.stick := by rw [hw, State.bump_stick]
  have sameConc (k : Conc) : w.conc k = v.conc k := by rw [hw, State.bump_conc]
  rw [grants] at count
  rw [lease, sameStick] at stick
  rw [lease, sameConc] at conc
  rw [eq]
  refine ⟨⟨holder, count, event, stick, ⟨conc.own, conc.other.trans (sameConc _)⟩, shown⟩, ?_, ?_⟩
  · have kept : ¬GrantReg c pgSTICK Reg.STICK.AUTO_CNT.off := by
      rintro (⟨-, mem⟩ | mem)
      exacts [absurd mem (by decide), not_concReg_belfry (by decide) mem]
    rw [regs.stored kept (by decide), hw]
    exact State.stored_bump_below (by decide) (by decide) below 3
  · rw [(State.grant_only (L := 4218968) (.refl w) c (by decide)).journal (by decide), hw, State.bump_journal]

theorem State.endGuard_none {s : State} (target : s.stick.target = none) (auto : s.stick.noAuto = true) :
    s.endGuard = ({ s with stick := { s.stick with noAuto := false } } : State).put pgSTICK Reg.STICK.STAT_STATE 0 := by
  unfold State.endGuard
  rw [target]
  exact if_pos auto

theorem State.endGuard_target {s : State} {x : StickCmd} (target : s.stick.target = some x) :
    s.endGuard = if s.eligible (concOfBit x.target) then
      (({ s with stick := { s.stick with target := none } } : State).grant (concOfBit x.target)).stickOutcome x resOK
    else (({ s with stick := { s.stick with target := none } } : State).put pgSTICK Reg.STICK.STAT_STATE 0).stickOutcome x resREFUSED := by
  unfold State.endGuard
  rw [target]
  rfl

/-! ### A lane leaves idle (R354, R359) -/

theorem State.laneExit_idle {s : State} {c : Conc} {l : Nat} (h : s.laneState c l = 0) (k : s.mayExit c l = true) (at_ : Nat) :
    s.laneExit c l at_ = ((((s.advance at_).putLaneState c l 1).setConc c { s.conc c with
      tx := mapPut l { fec := s.flag (pgLANES c) Reg.LANES.CTRL_FEC_EN } (s.conc c).tx }).bump (pgLANES c) Reg.LANES.EXIT_CNT 0) :=
  (if_pos h).trans (if_pos k)

/-- What a lane leaves that goes from idle to wake: its transmitter begins, and EXIT_CNT counts it. -/
theorem State.laneExit_idle_leaves {s : State} {c : Conc} {l : Nat} (h : s.laneState c l = 0) (k : s.mayExit c l = true) (at_ : Nat)
    (below : s.stored (pgLANES c) Reg.LANES.EXIT_CNT + 1 < 2 ^ 32) : (s.laneExit c l at_).now = max s.now at_ ∧
    (s.laneExit c l at_).laneState c l = 1 ∧ s.ConcMoves (s.laneExit c l at_) c { s.conc c with
      tx := mapPut l { fec := s.flag (pgLANES c) Reg.LANES.CTRL_FEC_EN } (s.conc c).tx } ∧
    (s.laneExit c l at_).stored (pgLANES c) Reg.LANES.EXIT_CNT = s.stored (pgLANES c) Reg.LANES.EXIT_CNT + 1 ∧
    s.RegsBut (fun q o => (q, o) ∈ [(pgLANE c l, Reg.LANE.LANE_STAT.off), (pgLANES c, Reg.LANES.EXIT_CNT.off)]) (s.laneExit c l at_) := by
  obtain ⟨u, hu⟩ : ∃ u, u = ((s.advance at_).putLaneState c l 1).setConc c { s.conc c with
    tx := mapPut l { fec := s.flag (pgLANES c) Reg.LANES.CTRL_FEC_EN } (s.conc c).tx } := ⟨_, rfl⟩
  rw [State.laneExit_idle h k, ← hu]
  have begun : s.RegsBut (fun q o => (q, o) ∈ [(pgLANE c l, Reg.LANE.LANE_STAT.off), (pgLANES c, Reg.LANES.EXIT_CNT.off)]) u := by
    rw [hu]
    exact ((State.regsBut_advance ..).trans (State.regsBut_put List.mem_cons_self (by decide) ..)).trans (State.regsBut_setConc ..)
  have apart : regKey (pgLANES c) Reg.LANES.EXIT_CNT.off ≠ regKey (pgLANE c l) Reg.LANE.LANE_STAT.off :=
    regKey_ne_page (by unfold pgLANES pgLANE; omega) (by decide) (by decide)
  have was : u.stored (pgLANES c) Reg.LANES.EXIT_CNT = s.stored (pgLANES c) Reg.LANES.EXIT_CNT := by
    rw [hu, (State.regsBut_setConc (P := fun _ _ => False) ..).stored id (by decide), State.putLaneState,
      State.stored_put_ne (f := Reg.LANE.LANE_STAT_STATE) apart]
    rfl
  have room : u.stored (pgLANES c) Reg.LANES.EXIT_CNT + 1 < 2 ^ 32 := was ▸ below
  have eq := State.bump_eq_put (f := Reg.LANES.EXIT_CNT) room 0
  refine ⟨?_, ?_, ⟨?_, ?_⟩, ?_, ?_⟩
  · rw [State.bump_now, hu, State.setConc_now, State.putLaneState, State.put_now]; rfl
  · rw [eq, State.laneState, State.stored_put_ne (f := Reg.LANES.EXIT_CNT) (g := Reg.LANE.LANE_STAT_STATE) apart.symm, hu,
      (State.regsBut_setConc (P := fun _ _ => False) ..).stored id (by decide)]
    exact State.putLaneState_same (by decide) ..
  · rw [State.bump_conc, hu, State.setConc_conc_same]
  · rw [State.bump_conc, hu, State.setConc_conc_ne (conc_other_ne c), State.putLaneState, State.put_conc]; rfl
  · rw [State.stored_bump_below (by decide) (by decide) room, was]
  · rw [eq]
    exact begun.trans (State.regsBut_put (List.mem_cons_of_mem _ List.mem_cons_self) (by decide) ..)

theorem State.laneExit_test {s : State} {c : Conc} {l : Nat} (h : s.laneState c l = 1)
    (k : s.flag (pgLANE c l) Reg.LANE.TEST_GEN_EN = true) (at_ : Nat) : s.laneExit c l at_ = (s.advance at_).putLaneState c l 4 :=
  (if_neg (by rw [show (s.advance at_).laneState c l = 1 from h]; decide)).trans (if_pos ⟨h, k⟩)

theorem State.laneExit_wake {s : State} {c : Conc} {l : Nat} (h : s.laneState c l = 1)
    (k : s.flag (pgLANE c l) Reg.LANE.TEST_GEN_EN ≠ true) (at_ : Nat) : s.laneExit c l at_ = (s.advance at_).putLaneState c l 2 := by
  have st : (s.advance at_).laneState c l = 1 := h
  have no : ¬(s.advance at_).flag (pgLANE c l) Reg.LANE.TEST_GEN_EN = true := k
  simp only [State.laneExit, st, no]
  rfl

theorem State.laneExit_training {s : State} {c : Conc} {l : Nat} (h : s.laneState c l = 2) (at_ : Nat) :
    s.laneExit c l at_ = ((s.advance at_).putLaneState c l 3).setConc c { s.conc c with
      tx := mapPut l { mapGetD ({} : LaneTx) l (s.conc c).tx with start := max s.now at_ } (s.conc c).tx } := by
  have st : (s.advance at_).laneState c l = 2 := h
  simp only [State.laneExit, st]
  rfl

theorem State.regsBut_laneStat {c : Conc} {l : Nat} (s : State) (v : Nat) : s.RegsBut (fun q o => (q, o) ∈
    [(pgLANE c l, Reg.LANE.LANE_STAT.off), (pgLANES c, Reg.LANES.EXIT_CNT.off)]) (s.putLaneState c l v) :=
  State.regsBut_put List.mem_cons_self (by decide) ..

end Sys2Proof.Machine
end

section
/-!
PROOFS. The family of dual concentrators: the stick changes hands (R268-R270, R274, R354, R359).
-/

namespace Sys2Proof.Machine

/-- Settles O52: each row is unfolded to the updates it makes, and each clause is read off what the lapse, the grant, the forced
idle and a lane's step leave. -/
theorem theStickChangesHands : Obligations.TheStickChangesHands := by
  refine ⟨?_, ?_, ?_, ?_, ?_, ?_⟩
  · intro s c at_ d on holds due below
    have row : exec (.leaseLapse at_) s = .next ((s.advance at_).lapse c) := by
      rw [exec_leaseLapse on, State.leaseLapse, holds]
      exact congrArg _ (if_pos due)
    obtain ⟨count, last, event, stick, head⟩ := State.lapseCounted_leaves (s := s.advance at_) (below _ List.mem_cons_self)
    obtain ⟨u, hu⟩ : ∃ u, u = (s.advance at_).lapseCounted := ⟨_, rfl⟩
    obtain ⟨v, hv⟩ : ∃ v, v = u.journalEvent 0xE1 resOK 0x0007 0x058 0 0 := ⟨_, rfl⟩
    have eq : (s.advance at_).lapse c = v.enterGuard c d := by rw [hv, hu]; rfl
    rw [← hu] at count last event stick head
    have counted : (s.advance at_).Only 4194392 u := by
      rw [hu]
      exact State.event_only (State.put_only (State.bump_only (.of (.refl _) (stick := .inl (by decide))) _ _ _ _ (by decide)) _ _ _
        (by decide)) _ _ (by decide)
    have logged : u.Only 8589934616 v := hv ▸ State.journalEvent_only (.refl u) _ _ _ _ _ _ (by decide)
    have pages : u.RegsBut JournalReg v := hv ▸ State.journalEvent_leaves ..
    obtain ⟨state, stick', shown, idle, other, regs⟩ := v.enterGuard_entered c d
    have only := State.enterGuard_only (L := 4218904) (.refl v) c d (by decide)
    have kept {f : FieldRef} (hf : f.off < 4096) (k : f.off ≠ Reg.STICK.STAT.off) :
        (v.enterGuard c d).stored pgSTICK f = u.stored pgSTICK f :=
      (regs.stored (not_statReg (by decide) fun _ => k) hf).trans (pages.stored (not_journalReg (by decide)) hf)
    have line : (v.enterGuard c d).driving c = false := by
      rw [State.driving, State.holder_of_state (by rw [state]; decide)]
      rfl
    refine ⟨v.enterGuard c d, row.trans (congrArg _ eq), state, ?_, ?_, (kept (by decide) (by decide)).trans count,
      (kept (by decide) (by decide)).trans last, ?_, shown, idle, line, ?_, ?_⟩
    · rw [only.now (by decide), logged.now (by decide), counted.now (by decide)]
      rfl
    · rw [stick', logged.stick (by decide), stick]
      rfl
    · rwa [(regs.same _ _ (by decide) (not_statReg (by decide) fun _ => by decide)).1,
        (pages.same _ _ (by decide) (not_journalReg (by decide))).1]
    · have entry := State.journalEvent_journals (s := s) head (counted.journal (by decide)) 0xE1 0x0007 0x058
      rw [counted.now (by decide), ← hv] at entry
      exact (only.journal (by decide)).trans entry
    · rw [other, logged.conc, counted.conc]
      rfl
  · intro s at_ c on guard due target below
    have row := (exec_guardEnd on at_).trans (congrArg _ (State.guardEndAt_due guard due))
    obtain ⟨v, hv⟩ : ∃ v, v = s.advance at_ := ⟨_, rfl⟩
    rw [← hv] at row
    have eligible : v.eligible c = s.eligible c := by rw [hv]; rfl
    have auto : v.flag pgSTICK Reg.STICK.CTRL_AUTO = s.flag pgSTICK Reg.STICK.CTRL_AUTO := by rw [hv]; rfl
    have stick : v.stick = s.stick := by rw [hv]; rfl
    have journal : v.journal = s.journal := by rw [hv]; rfl
    have regs : s.RegsBut (fun _ _ => False) v := hv ▸ State.regsBut_advance ..
    by_cases given : s.stick.noAuto = true
    · rw [State.endGuard_none (stick ▸ target) (stick ▸ given)] at row
      refine ⟨_, row, ?_, fun no => absurd given (by rw [no]; decide), fun no => absurd given (by rw [no]; decide), fun _ => ⟨?_, ?_, ?_⟩⟩
      · rw [State.put_journal]; exact journal
      · exact State.stickState_put _ (by decide)
      · rw [State.put_stick, ← stick]
      · exact ((regs.mono fun _ _ => False.elim).trans (State.RegsBut.trans (.of rfl rfl)
          (State.regsBut_put List.mem_cons_self (by decide) ..))).same
    rw [State.endGuard_auto (stick ▸ target) (by rw [stick]; exact Bool.not_eq_true _ ▸ given)] at row
    have former : v.stick.former.other = c := by rw [stick]
    by_cases grants : s.flag pgSTICK Reg.STICK.CTRL_AUTO = true ∧ s.eligible c = true
    · obtain ⟨able, fit⟩ := grants
      have count {f : FieldRef} : v.stored pgSTICK f = s.stored pgSTICK f := by rw [hv]; rfl
      obtain ⟨granted, autos, log⟩ := State.autoGrant_granted former (auto.trans able) (eligible.trans fit)
        (by rw [count]; exact below _ (by simp))
      have lease : v.leaseEnd v.frame = s.leaseEnd s.frame := by rw [hv]; rfl
      refine ⟨_, row, log.trans journal, fun _ _ _ => ⟨granted.holder, ?_, autos.trans (by rw [count]), granted.event, ?_, ?_,
        granted.shown, granted.driving⟩, fun _ no => ?_, fun no => absurd no given⟩
      · rw [granted.count (by rw [count]; exact below _ (by simp)), count]
      · rw [granted.stick]; exact lease
      · rw [granted.conc.own]; exact congrArg some lease
      · rcases no with no | no
        · exact absurd able (by rw [no]; decide)
        · exact absurd fit (by rw [no]; decide)
    · have eq : v.autoGrant = (v.put pgSTICK Reg.STICK.STAT_STATE 0).event pgSTICK 2 := by
        rw [State.autoGrant, former]
        exact if_neg (by rw [auto, eligible, Bool.and_eq_true]; exact grants)
      rw [eq] at row
      refine ⟨_, row, ?_, fun _ able fit => absurd ⟨able, fit⟩ grants, fun _ _ => ⟨?_, State.event_pends (by decide) .., ?_⟩,
        fun no => absurd no given⟩
      · rw [State.event_journal, State.put_journal, journal]
      · exact (State.stored_event_ne (regKey_ne_off (by decide)) ..).trans (State.stickState_put _ (by decide))
      · rw [State.event_stick, State.put_stick, stick]
  · intro s at_ x c on guard due target written below
    have row := (exec_guardEnd on at_).trans (congrArg _ (State.guardEndAt_due guard due))
    rw [State.endGuard_target (show (s.advance at_).stick.target = some x from target)] at row
    obtain ⟨v, hv⟩ : ∃ v : State, v = { s.advance at_ with stick := { s.stick with target := none } } := ⟨_, rfl⟩
    have elig : (s.advance at_).eligible c = s.eligible c := rfl
    have same {q : Nat} {f : FieldRef} : v.stored q f = s.stored q f := by rw [hv]; rfl
    have stick : v.stick.target = none := by rw [hv]
    have journal : v.journal = s.journal := by rw [hv]; rfl
    change _ = Host.Outcome.next (if (s.advance at_).eligible c = true then
      (State.grant { s.advance at_ with stick := { s.stick with target := none } } c).stickOutcome x resOK
      else (State.put { s.advance at_ with stick := { s.stick with target := none } } pgSTICK Reg.STICK.STAT_STATE 0).stickOutcome x
        resREFUSED) at row
    rw [← hv, elig] at row
    by_cases fit : s.eligible c = true
    · rw [if_pos fit] at row
      obtain ⟨granted, regs⟩ := v.grant_granted c
      obtain ⟨entry, -, later⟩ := State.stickOutcome_leaves written (v.grant c) resOK
      rw [show (v.grant c).refusalCounted resOK = v.grant c from if_neg (by decide)] at later
      have head : (v.grant c).stored pgJRNL Reg.JRNL.HEAD = s.stored pgJRNL Reg.JRNL.HEAD := (regs.stored (by
        rintro (⟨page, -⟩ | mem)
        exacts [absurd page (by decide), not_concReg_belfry (by decide) mem]) (by decide)).trans same
      have log : (v.grant c).journal = s.journal :=
        ((State.grant_only (L := 4218968) (.refl v) c (by decide)).journal (by decide)).trans journal
      refine ⟨_, row, ?_, fun _ => ⟨?_, ?_⟩, fun no => absurd fit (by rw [no]; decide), ?_⟩
      · rw [State.stickOutcome_stick, granted.stick]
      · exact (later.holder (not_journalReg (by decide))).trans granted.holder
      · rw [later.stored (not_journalReg (by decide)) (by decide), granted.count (by rw [same]; exact below _ (by simp)), same]
      · rw [entry, head, log, if_pos fit]
        rfl
    · rw [if_neg fit] at row
      obtain ⟨w, hw⟩ : ∃ w, w = v.put pgSTICK Reg.STICK.STAT_STATE 0 := ⟨_, rfl⟩
      rw [← hw] at row
      obtain ⟨entry, regs, later⟩ := State.stickOutcome_leaves written w resREFUSED
      have counted : w.refusalCounted resREFUSED = (w.bump pgSTICK Reg.STICK.REFUSE_CNT 4).event pgSTICK 3 := if_pos rfl
      have set {q : Nat} {f : FieldRef} (k : regKey q f.off ≠ regKey pgSTICK Reg.STICK.STAT.off) : w.stored q f = s.stored q f := by
        rw [hw, State.stored_put_ne (f := Reg.STICK.STAT_STATE) k, same]
      have refused : w.stored pgSTICK Reg.STICK.REFUSE_CNT = s.stored pgSTICK Reg.STICK.REFUSE_CNT := set (regKey_ne_off (by decide))
      refine ⟨_, row, ?_, fun yes => absurd yes fit, fun _ => ⟨?_, ?_, ?_⟩, ?_⟩
      · rw [State.stickOutcome_stick, hw, State.put_stick, stick]
      · refine (regs.stored ?_ (by decide)).trans (hw ▸ State.stickState_put _ (by decide))
        rintro (⟨-, mem⟩ | mem)
        exacts [absurd mem (by decide), not_journalReg (by decide) mem]
      · rw [later.stored (not_journalReg (by decide)) (by decide), counted, State.stored_event_ne (regKey_ne_off (by decide)), ← refused]
        exact State.stored_bump_below (by decide) (by decide) (by rw [refused]; exact below _ (by simp)) 4
      · rw [(later.same _ _ (by decide) (not_journalReg (by decide))).1, counted]
        exact State.event_pends (by decide) ..
      · rw [entry, set (regKey_ne_page (by decide) (by decide) (by decide)), hw, State.put_journal, journal, if_neg fit]
        rfl
  · intro s c at_ d on awake copy due
    have eq : s.copyExpiry c at_ = (s.advance at_).forceIdle c := by
      rw [State.copyExpiry, copy]
      exact if_pos due
    have row := (exec_deadlineCopyExpiry on awake at_).trans (congrArg _ eq)
    have only := State.forceIdle_only (L := 24600) (.refl (s.advance at_)) c (by decide)
    refine ⟨_, row, State.lanesIdle_forceIdle, only.now (by decide), ((s.advance at_).forceIdle_leaves c).2.1.other, ?_⟩
    rw [← eq]
    exact (State.copyExpiry_only (L := 24601) (.refl s) c at_ (by decide)).changes (by decide)
  · intro s c on line holds idle whole ready
    have eq : s.takeStart c = ((s.setConc c { s.conc c with sending := true, firstDue := true }).put (pgSTEP c)
        Reg.STEP.TAKE_START (sheafOf (s.conc c).sendNext)).event (pgSTEP c) 3 := if_pos (by simp [line, holds, idle, whole, ready])
    have row := (exec_takeStart on).trans (congrArg _ eq)
    refine ⟨_, row, ?_, ?_, State.event_pends (by decide) .., ?_, ?_⟩
    · rw [State.event_conc, State.put_conc, State.setConc_conc_same]
    · rw [State.stored_event_ne (regKey_ne_off (by decide)), State.stored_put_same (by decide) (by decide)]
      exact Nat.mod_mod ..
    · exact (((State.regsBut_setConc ..).trans (State.regsBut_put List.mem_cons_self (by decide) ..)).trans
        (State.regsBut_event (List.mem_cons_of_mem _ List.mem_cons_self) ..)).same
    · rw [← eq]
      exact (State.takeStart_only (L := 24664) (.refl s) c (by decide)).changes (by decide)
  · intro s c l at_ st test on awake early joins below
    have row := exec_laneExitIdle on awake l at_
    have phase : st = 0 ∨ st = 1 ∨ st = 2 := by omega
    rcases phase with idle | wake | training
    · obtain ⟨time, lane, moves, count, regs⟩ := State.laneExit_idle_leaves idle (joins idle) at_ (below _ List.mem_cons_self)
      refine ⟨_, row, time, fun no => absurd (idle.symm.trans no.1) (by decide), fun _ => lane.trans (by rw [idle]), moves.other,
        fun _ => ⟨?_, count⟩, fun no => absurd (idle.symm.trans no) (by decide), fun no => absurd (idle.symm.trans no) (by decide), regs.same⟩
      rw [moves.own]
      exact mapFind_mapPut_same ..
    · have conc (v : Nat) (k : Conc) : ((s.advance at_).putLaneState c l v).conc k = s.conc k := State.put_conc ..
      have regs (v : Nat) := ((State.regsBut_advance s at_).trans (State.regsBut_laneStat (c := c) (l := l.val) _ v)).same
      have time (v : Nat) : ((s.advance at_).putLaneState c l v).now = max s.now at_ := State.put_now ..
      by_cases gen : s.flag (pgLANE c l) Reg.LANE.TEST_GEN_EN = true
      · rw [State.laneExit_test wake gen] at row
        exact ⟨_, row, time 4, fun _ => State.putLaneState_same (by decide) .., fun no => absurd ⟨wake, gen⟩ no, conc 4 _,
          fun no => absurd (wake.symm.trans no) (by decide), fun _ => conc 4 _, fun no => absurd (wake.symm.trans no) (by decide), regs 4⟩
      · rw [State.laneExit_wake wake gen] at row
        exact ⟨_, row, time 2, fun yes => absurd yes.2 gen, fun _ => (State.putLaneState_same (by decide) ..).trans (by rw [wake]), conc 2 _,
          fun no => absurd (wake.symm.trans no) (by decide), fun _ => conc 2 _, fun no => absurd (wake.symm.trans no) (by decide), regs 2⟩
    · rw [State.laneExit_training training] at row
      refine ⟨_, row, ?_, fun no => absurd (training.symm.trans no.1) (by decide), fun _ => ?_, ?_,
        fun no => absurd (training.symm.trans no) (by decide), fun no => absurd (training.symm.trans no) (by decide), fun _ => ?_, ?_⟩
      · rw [State.setConc_now, State.putLaneState, State.put_now]; rfl
      · rw [training, State.laneState, (State.regsBut_setConc (P := fun _ _ => False) ..).stored id (by decide)]
        exact State.putLaneState_same (by decide) ..
      · rw [State.setConc_conc_ne (conc_other_ne c), State.putLaneState, State.put_conc]; rfl
      · rw [State.setConc_conc_same]
        exact mapFind_mapPut_same ..
      · exact (((State.regsBut_advance ..).trans (State.regsBut_laneStat ..)).trans (State.regsBut_setConc ..)).same

end Sys2Proof.Machine
end

section
/-!
PROOFS. The family of dual concentrators: the pair compares digests (R260-R263).
-/

namespace Sys2Proof.Machine

/-- A message of a sheaf with its digest. -/
def soloMsg : CrossMsg :=
  { frame := 9, digest := some 5, mode := 0, nextSend := 9, gleans := 0, oldGleans := 0, run := .running }

/-- Concentrator A forms sheaves and is SOLO, as PAIR at reset says; it holds a message of its own and its partner's for one sheaf. -/
def soloHoldsMessage : State :=
  { State.reset with
    pow := { State.reset.pow with mode := .on }
    concA := { State.reset.concA with run := .running, inbox := [soloMsg], own := [soloMsg] } }

/-- The state of the counterexample is well formed: `State.Wf` says nothing of the messages held. -/
theorem soloHoldsMessage_wf : soloHoldsMessage.Wf := by constructor <;> decide

theorem soloHoldsMessage_pair : soloHoldsMessage.pair .a = 0 := by decide +kernel

/-- The row, for a concentrator out of reset in a powered module. -/
theorem exec_crosslinkMessage {s : State} {c : Conc} (h : s.powered = true) (k : (s.conc c).run ≠ .reset) :
    exec (.crosslinkMessage c) s = .next ((s.takeMessage c).checkSwap) := congrArg Host.Outcome.next (if_pos (State.awake_of h k))

/-- In SOLO a message is taken and ignored (R262). -/
theorem State.takeMessage_solo {s : State} {c : Conc} {m : CrossMsg} {r : List CrossMsg} (h : (s.conc c).inbox = m :: r)
    (k : s.pair c = 0) : s.takeMessage c = s.setConc c { s.conc c with inbox := r } := by
  have solo : (s.setConc c { s.conc c with inbox := r }).pair c = 0 :=
    ((State.regsBut_setConc (P := fun _ _ => False) s c _).stored id (by decide)).trans k
  unfold State.takeMessage
  rw [h]
  exact if_pos solo

/-- Refutes O51: its clause on a sheaf of which both messages are held asks of every pair state that both messages are dropped, and
has no premise on PAIR. A concentrator in SOLO ignores its partner's message (R262): its own stays held. A
premise that PAIR is not SOLO would exclude the case. -/
theorem not_thePairComparesAndRejoins : ¬ Obligations.ThePairComparesAndRejoins := by
  unfold Obligations.ThePairComparesAndRejoins
  rintro ⟨⟨compares, -⟩, -⟩
  have below : soloHoldsMessage.below (pgSTEP .a) [Reg.STEP.DIV_CNT, Reg.STEP.DIV_EP_CNT] 1 := by
    unfold State.below
    decide +kernel
  obtain ⟨t, row, -, dropped, -⟩ := compares soloHoldsMessage .a soloMsg soloMsg [] 5 5 rfl rfl rfl rfl rfl rfl rfl
    (by decide) (by decide) rfl rfl below
  have stays := State.takeMessage_solo (s := soloHoldsMessage) (c := .a) rfl soloHoldsMessage_pair
  rw [exec_crosslinkMessage rfl (by decide), stays, State.checkSwap_none (by rfl)] at row
  rw [← Host.Outcome.next.inj row, State.setConc_conc_same] at dropped
  exact absurd dropped (List.cons_ne_nil soloMsg [])

end Sys2Proof.Machine
end

section
/-!
PROOFS. The family of dual concentrators: the start sequence (R454-R457, R470).
-/

namespace Sys2Proof.Machine

/-- The start finds neither the current nor the previous image of class C readable; class K, settings and checkers are in order. -/
def startWithoutC : StartEnv :=
  { belfryOk := true, concA := 0xFFFF7F, concB := 0xFFFF7F, classCOk := false, prevCOk := false, classKOk := true, classKLoads := true,
    settingsOk := true, trial := .silent, boardId := 0 }

/-- A module at step 1, no image in trial or staged, with a previous image of class C. -/
def startsWithPrevious : State :=
  { State.reset with
    pow := { State.reset.pow with mode := .starting }
    fwu := { State.reset.fwu with cPrev := some Image.factory } }

/-- The state of the counterexample is well formed. -/
theorem startsWithPrevious_wf : startsWithPrevious.Wf := by constructor <;> decide

/-- The class K image is sound and its sections pass. -/
theorem startsWithPrevious_soundK :
    startsWithPrevious.soundK startWithoutC = true ∧ startsWithPrevious.sectionsK startWithoutC = true := by decide +kernel

theorem exec_startSequence (s : State) (env : StartEnv) : exec (.startSequence env) s = .next (s.startSequence env) := rfl

/-- The previous image is put in trial, fails its check, and the module restarts (R455, R457). -/
theorem startsWithPrevious_restarts : (startsWithPrevious.startSequence startWithoutC).pow.mode = .starting := by decide +kernel

/-- Refutes O59: its clause on START_SEQUENCE says of every start that the module is on after it, and has no premise on the previous
image of class C. Where the current one fails its check and a previous one is held, that one is put in trial (R457); if it
fails its check too, the trial fails and the module restarts from step 1 (R455). A premise that no previous image of class C is held
would exclude the case. -/
theorem not_diesStopAndStart : ¬ Obligations.DiesStopAndStart := by
  unfold Obligations.DiesStopAndStart
  rintro ⟨-, -, -, starts, -⟩
  have bodies : ∀ i, startsWithPrevious.fwu.kCur = some i → i.body = [] := by
    rintro i ⟨⟩
    rfl
  have faults : startsWithPrevious.below pgPWR [Reg.PWR.FAULT_CNT] 2 := by
    unfold State.below
    decide +kernel
  have unders : startsWithPrevious.below pgPWR [Reg.PWR.UVLO_CNT] 1 := by
    unfold State.below
    decide +kernel
  obtain ⟨soundK, sectionsK⟩ := startsWithPrevious_soundK
  obtain ⟨t, row, on, -⟩ := starts startsWithPrevious startWithoutC rfl rfl rfl rfl rfl bodies soundK sectionsK rfl rfl
    (by decide +kernel) rfl faults unders
  rw [exec_startSequence] at row
  rw [← Host.Outcome.next.inj row, startsWithPrevious_restarts] at on
  exact absurd on (by decide)

end Sys2Proof.Machine
end

section
/-!
PROOFS. The family of the lookback memory: which fields an update leaves, and the rows of a concentrator out of reset, its stack out
of self-refresh (R468).
-/

set_option Elab.async false

namespace Sys2Proof.Machine

/-! ### Fields that an update leaves -/

/-- No field differs but those of which `F` holds, and those that share a bit with one of them. -/
structure State.FieldsBut (F : Nat × FieldRef → Prop) (s t : State) : Prop where
  field : ∀ q g, g.fits = true → (∀ x, F x → fieldsApart x.1 x.2 q g = true) → s.SameField t q g

/-- Fields of two registers are apart. -/
theorem fieldsApart_of_off {p q : Nat} {f g : FieldRef} (h : (q, g.off) ≠ (p, f.off)) : fieldsApart p f q g = true := by
  simp only [ne_eq, Prod.mk.injEq, not_and] at h
  simp only [fieldsApart, decide_eq_true_eq]
  by_cases page : p = q
  · exact .inr (.inl fun off => h page.symm off.symm)
  · exact .inl page

section

variable {F G : Nat × FieldRef → Prop} {s t u : State} {p : Nat} {f : FieldRef}

theorem State.FieldsBut.refl (s : State) : s.FieldsBut F s := ⟨fun _ _ _ _ => ⟨rfl, rfl⟩⟩

theorem State.FieldsBut.trans (h : s.FieldsBut F t) (k : t.FieldsBut F u) : s.FieldsBut F u :=
  ⟨fun q g hg ha => (h.field q g hg ha).trans (k.field q g hg ha)⟩

theorem State.FieldsBut.mono (h : s.FieldsBut F t) (k : ∀ x, F x → G x) : s.FieldsBut G t :=
  ⟨fun q g hg ha => h.field q g hg fun x hx => ha x (k x hx)⟩

theorem State.FieldsBut.ite {c : Prop} [Decidable c] (h : s.FieldsBut F t) (k : s.FieldsBut F u) :
    s.FieldsBut F (if c then t else u) := by split <;> assumption

theorem State.FieldsBut.of (h : t.regs = s.regs) (k : t.stale = s.stale) : s.FieldsBut F t :=
  ⟨fun q g _ _ => (State.SameReg.of h k q g.off).sameField⟩

theorem State.FieldsBut.each {α : Type} {l : List α} {f : State → α → State}
    (h : ∀ (u : State) (a : α), a ∈ l → u.FieldsBut F (f u a)) (s : State) : s.FieldsBut F (s.each l f) :=
  State.each_keeps (P := fun t => s.FieldsBut F t) (fun t a ha k => k.trans (h t a ha)) (.refl s)

theorem State.fieldsBut_put (h : F (p, f)) (s : State) (v : Nat) (hf : f.fits = true := by decide) : s.FieldsBut F (s.put p f v) :=
  ⟨fun _ _ hg ha => State.sameField_put hf hg (ha _ h) s v⟩

theorem State.fieldsBut_putB (h : F (p, f)) (s : State) (b : Bool) (hf : f.fits = true := by decide) : s.FieldsBut F (s.putB p f b) :=
  State.fieldsBut_put h s b.toNat hf

theorem State.fieldsBut_overflow (h : F (p, Reg.HDR.COUNTER_OVF)) (s : State) (b : Nat) : s.FieldsBut F (s.overflow p b) :=
  ⟨fun _ _ hg ha => (State.sameReg_wr (fieldsApart_key (by decide) hg (ha _ h)) s _).sameField⟩

theorem State.fieldsBut_bump (h : F (p, f)) (k : F (p, Reg.HDR.COUNTER_OVF)) (s : State) (b n : Nat) (hf : f.fits = true := by decide) :
    s.FieldsBut F (s.bump p f b n) :=
  .ite (State.fieldsBut_put h s _ hf) ((State.fieldsBut_put h s _ hf).trans (State.fieldsBut_overflow k _ b))

theorem State.fieldsBut_peak (h : F (p, f)) (s : State) (v : Nat) (hf : f.fits = true := by decide) : s.FieldsBut F (s.peak p f v) :=
  .ite (State.fieldsBut_put h s _ hf) (.refl s)

theorem State.fieldsBut_event (h : F (p, Reg.HDR.EVT_PENDING)) (s : State) (b : Nat) : s.FieldsBut F (s.event p b) :=
  ⟨fun _ _ hg ha => (State.sameReg_event (fieldsApart_key (by decide) hg (ha _ h)) s b).sameField⟩

theorem State.fieldsBut_setConc (s : State) (c : Conc) (v : ConcSt) : s.FieldsBut F (s.setConc c v) :=
  .of (State.setConc_regs ..) (State.setConc_stale ..)

theorem State.fieldsBut_setMc (s : State) (c : Conc) (m : DramSt) : s.FieldsBut F (s.setMc c m) := State.fieldsBut_setConc s c _

/-- Registers that share no bit with a field of which `F` holds are as before. -/
theorem State.FieldsBut.sameReg (h : s.FieldsBut F t) {q o : Nat} (ho : o < 4096)
    (ha : ∀ x, F x → fieldsApart x.1 x.2 q ⟨o, 31, 0⟩ = true) : s.SameReg t q o := by
  have whole := h.field q ⟨o, 31, 0⟩ (by simpa [FieldRef.fits] using ho) ha
  exact ⟨BitVec.eq_of_toNat_eq (by simpa only [State.stored, fieldGet_whole] using whole.stored),
    BitVec.eq_of_toNat_eq (by simpa only [State.fld, fieldGet_whole] using whole.fld)⟩

theorem State.FieldsBut.keepsRegs (h : s.FieldsBut F t) {l : List (Nat × Nat)} (k : ∀ x, F x → (x.1, x.2.off) ∈ l) :
    s.keepsRegs l t :=
  fun _ _ ho out => h.sameReg ho fun x hx => fieldsApart_of_off fun e => out (e ▸ k x hx)

/-- A field of all 32 bits is its register. -/
theorem State.SameField.reg {q o : Nat} (h : s.SameField t q ⟨o, 31, 0⟩) : t.rd q o = s.rd q o :=
  BitVec.eq_of_toNat_eq (by simpa only [State.stored, fieldGet_whole] using h.stored)

/-- One of the fields listed of a page. -/
def onPage (p : Nat) (l : List FieldRef) (x : Nat × FieldRef) : Prop := x.1 = p ∧ x.2 ∈ l

theorem onPage.sub {l m : List FieldRef} (h : l ⊆ m) (x : Nat × FieldRef) (k : onPage p l x) : onPage p m x := ⟨k.1, h k.2⟩

theorem onPage.mem {p : Nat} {l : List FieldRef} {f : FieldRef} (h : f ∈ l := by decide) : onPage p l (p, f) := ⟨rfl, h⟩

/-- Two fields share no bit. -/
def bitsApart (f g : FieldRef) : Bool := decide (f.off ≠ g.off ∨ f.hi < g.lo ∨ g.hi < f.lo)

theorem fieldsApart_of_bits {p q : Nat} {f g : FieldRef} (h : bitsApart f g = true) : fieldsApart p f q g = true := by
  simp only [bitsApart, fieldsApart, decide_eq_true_eq] at h ⊢
  exact .inr h

/-- A field of the page that shares no bit with those listed. -/
theorem State.FieldsBut.own {l : List FieldRef} {g : FieldRef} (h : s.FieldsBut (onPage p l) t) (hg : g.fits = true := by decide)
    (ha : ∀ f ∈ l, bitsApart f g = true := by decide) : s.SameField t p g := by
  refine h.field p g hg ?_
  rintro ⟨q, f⟩ ⟨-, mem⟩
  exact fieldsApart_of_bits (ha f mem)

/-- The pending events of the page. -/
theorem State.FieldsBut.pending {l : List FieldRef} (h : s.FieldsBut (onPage p l) t)
    (ha : ∀ f ∈ l, bitsApart f Reg.HDR.EVT_PENDING = true := by decide) :
    t.rd p Reg.HDR.EVT_PENDING.off = s.rd p Reg.HDR.EVT_PENDING.off := (h.own (g := Reg.HDR.EVT_PENDING) (by decide) ha).reg

/-- A field of another page. -/
theorem State.FieldsBut.far {l : List FieldRef} {g : FieldRef} {q : Nat} (h : s.FieldsBut (onPage p l) t) (hq : q ≠ p)
    (hg : g.fits = true := by decide) : s.SameField t q g :=
  h.field q g hg fun _ hx => fieldsApart_of_off fun e => hq ((Prod.mk.inj e).1.trans hx.1)

end

/-! ### The memory controller -/

theorem State.concMoves_setMc (s : State) (c : Conc) (m : DramSt) : s.ConcMoves (s.setMc c m) c { s.conc c with mc := m } :=
  State.concMoves_setConc ..

theorem State.dramOn_of {s : State} {c : Conc} (h : s.powered = true) (k : (s.conc c).run ≠ .reset) (awake : s.stackAwake c = true) :
    (s.powered && (s.conc c).run != .reset && s.stackAwake c) = true := by simp [h, k, awake]

section

variable {s : State} {c : Conc}

/-- A row of the memory, its stack out of self-refresh, is the controller's update. -/
theorem exec_whileDram (h : s.powered = true) (k : (s.conc c).run ≠ .reset) (awake : s.stackAwake c = true) (t : State) :
    whileDram c s t = .next t := congrArg Host.Outcome.next (if_pos (State.dramOn_of h k awake))

theorem exec_tempSample (h : s.powered = true) (k : (s.conc c).run ≠ .reset) (temp : Int) :
    exec (.tempSample c temp) s = .next (s.tempSample c temp) := congrArg Host.Outcome.next (if_pos (State.awake_of h k))

theorem exec_freqChangeDone (h : s.powered = true) (k : (s.conc c).run ≠ .reset) (reads : Reads) :
    exec (.freqChangeDone ⟨c, reads⟩) s = .next (s.freqChangeDone c reads) := congrArg Host.Outcome.next (if_pos (State.awake_of h k))

end

end Sys2Proof.Machine
end

section
/-!
PROOFS. The family of the lookback memory: promotion, page closing, refresh and temperature (R295, R296, R301-R303).
-/

set_option Elab.async false

namespace Sys2Proof.Machine

/-! ### Promotion (R295) -/

/-- Of two reads the one whose wait counts from earlier, the first of equal ones. -/
def earlier (f : DramReq → Nat) (b : Option DramReq) (r : DramReq) : Option DramReq :=
  match b with
  | some x => if f r < f x then some r else some x
  | none => some r

theorem earlier_self (f : DramReq → Nat) (r : DramReq) {b : Option DramReq} (h : ∀ x, b = some x → x ≠ r → f r < f x) :
    earlier f b r = some r := by
  cases b with
  | none => rfl
  | some x =>
    by_cases same : x = r
    · simp [earlier, same]
    · simp [earlier, h x rfl same]

theorem earlier_stays {f : DramReq → Nat} {r x : DramReq} (h : x ≠ r → f r < f x) : earlier f (some r) x = some r := by
  by_cases same : x = r
  · simp [earlier, same]
  · simp [earlier, (h same).le]

/-- The one read whose wait counts from earliest is found. -/
theorem foldl_earlier {f : DramReq → Nat} {r : DramReq} {l : List DramReq} {b : Option DramReq} (mem : r ∈ l ∨ b = some r)
    (first : ∀ x ∈ l, x ≠ r → f r < f x) (start : ∀ x, b = some x → x ≠ r → f r < f x) : l.foldl (earlier f) b = some r := by
  induction l generalizing b with
  | nil => exact mem.resolve_left List.not_mem_nil
  | cons x l ih =>
    have later : ∀ y ∈ l, y ≠ r → f r < f y := fun y hy => first y (List.mem_cons_of_mem x hy)
    have next : ∀ y, earlier f b x = some y → y ≠ r → f r < f y := by
      intro y hy other
      rcases b with _ | z
      · exact first y (by cases hy; exact List.mem_cons_self) other
      · simp only [earlier] at hy
        split at hy <;> cases hy
        exacts [first _ List.mem_cons_self other, start _ rfl other]
    refine ih ?_ later next
    by_cases same : x = r
    · exact .inr (same ▸ earlier_self f x (by rwa [same]))
    · rcases mem with mem | rfl
      · exact .inl ((List.mem_cons.1 mem).resolve_left (Ne.symm same))
      · exact .inr (earlier_stays (first x List.mem_cons_self))

section

variable {s t : State} {c : Conc}

theorem DramReq.mem_all (r : DramReq) : r ∈ DramReq.all := by cases r <;> decide

/-- The read that has waited longest beyond its limit is found (R295). -/
theorem State.overAge_longest {shadow : Bool} {cls now : Nat} {r : DramReq}
    (past : s.waiting c shadow r = true ∧ (s.conc c).mc.clsOf r = cls ∧ s.agesFrom c r + 80 * s.ageLimit c cls < now)
    (first : ∀ x, x ≠ r → s.waiting c shadow x = true ∧ (s.conc c).mc.clsOf x = cls ∧ s.agesFrom c x + 80 * s.ageLimit c cls < now →
      s.agesFrom c r < s.agesFrom c x) : s.overAge c shadow cls now = some r := by
  refine foldl_earlier (f := s.agesFrom c) (.inl (List.mem_filter.2 ⟨r.mem_all, ?_⟩)) (fun x hx other => ?_) nofun
  · obtain ⟨waits, reached, late⟩ := past
    simp [waits, reached, late]
  · obtain ⟨-, hx⟩ := List.mem_filter.1 hx
    simp only [Bool.and_eq_true, beq_iff_eq, decide_eq_true_eq, and_assoc] at hx
    exact first x other hx

/-- The memory controller with a read at the head of a class. -/
def DramSt.promoted (m : DramSt) (r : DramReq) (cls now : Nat) : DramSt :=
  { m with promo := (r, cls, now) :: m.promo.filter (fun x => x.1 != r) }

theorem DramSt.promoted_clsOf (m : DramSt) (r : DramReq) (cls now : Nat) : (m.promoted r cls now).clsOf r = cls := by
  simp [DramSt.promoted, DramSt.clsOf]

theorem DramSt.promoted_place (m : DramSt) (r : DramReq) (cls now : Nat) : (m.promoted r cls now).place r = 0 := by
  simp [DramSt.promoted, DramSt.place, List.findIdx_cons]

theorem DramSt.promoted_clsOf_ne {m : DramSt} {r x : DramReq} (h : x ≠ r) (cls now : Nat) :
    (m.promoted r cls now).clsOf x = m.clsOf x := by
  have found : (m.promo.filter (fun y => y.1 != r)).find? (fun y => y.1 == x) = m.promo.find? (fun y => y.1 == x) := by
    rw [List.find?_filter]
    congr 1
    funext y
    by_cases same : y.1 = x <;> simp [same, h]
  simp only [DramSt.promoted, DramSt.clsOf, List.find?_cons, beq_eq_false_iff_ne.2 (Ne.symm h), found]

theorem State.agePromotion_eq {shadow : Bool} {cls at_ : Nat} {r : DramReq} (limit : s.ageLimit c cls ≠ 0)
    (found : s.overAge c shadow cls (max s.now at_) = some r) :
    s.agePromotion c shadow cls at_ = ((s.advance at_).setMc c ((s.conc c).mc.promoted r (cls - 1) (max s.now at_))).bump (pgDRAM c)
      Reg.DRAM.PROMO_CNT 3 := by
  have limit' : (s.advance at_).ageLimit c cls ≠ 0 := limit
  have found' : (s.advance at_).overAge c shadow cls (max s.now at_) = some r := found
  simp only [State.agePromotion, if_neg limit', show (s.advance at_).now = max s.now at_ from rfl, found']
  rw [State.advance_conc]
  rfl

/-! ### Pages and refresh (R296, R302) -/

theorem DramSt.count_setCount (m : DramSt) (b n : Nat) : (m.setCount b n).count b = n := mapGetD_mapPutD_same ..

theorem State.pageIdleClose_eq {chan bank : Nat} (timer : s.fld (pgDRAM c) Reg.DRAM.CTRL_PAGE_IDLE ≠ 0) (frozen : s.dramFrozen c = false)
    (busy : s.dramBusy c = false) (live : (s.conc c).isLive chan = true) :
    s.pageIdleClose c chan bank = s.setMc c ((s.conc c).mc.closePage (chan * 16 + bank)) :=
  if_neg (by simp [timer, frozen, busy, live])

theorem State.postponedRefresh_eq {chan bank : Nat} (some : 0 < (s.conc c).mc.count (chan * 16 + bank)) (frozen : s.dramFrozen c = false)
    (busy : s.dramBusy c = false) (live : (s.conc c).isLive chan = true) :
    s.postponedRefresh c chan bank = s.setMc c (((s.conc c).mc.closePage (chan * 16 + bank)).setCount (chan * 16 + bank)
      ((s.conc c).mc.count (chan * 16 + bank) - 1)) :=
  if_pos ⟨some, live, by simp [frozen], by simp [busy]⟩

section

variable {chan bank : Nat} (busy : s.dramBusy c = false) (live : (s.conc c).isLive chan = true)

include busy live

theorem State.refreshDue_postponed (frozen : s.dramFrozen c = false) (room : (s.conc c).mc.count (chan * 16 + bank) < s.refreshLimit c) :
    s.refreshDue c chan bank = s.setMc c ((s.conc c).mc.setCount (chan * 16 + bank) ((s.conc c).mc.count (chan * 16 + bank) + 1)) := by
  simp [State.refreshDue, busy, live, frozen, room]

theorem State.refreshDue_urgent (frozen : s.dramFrozen c = false) (full : s.refreshLimit c ≤ (s.conc c).mc.count (chan * 16 + bank)) :
    s.refreshDue c chan bank = (s.setMc c ((s.conc c).mc.closePage (chan * 16 + bank))).bump (pgDRAM c) Reg.DRAM.REF_URGENT_CNT 1 := by
  simp [State.refreshDue, busy, live, frozen, Nat.not_lt.2 full]

theorem State.refreshDue_frozen (frozen : s.dramFrozen c = true) :
    s.refreshDue c chan bank = s.setMc c ((s.conc c).mc.closePage (chan * 16 + bank)) := by
  simp [State.refreshDue, busy, live, frozen]

end

/-! ### Temperature (R301, R303) -/

/-- A temperature within ten bits is held as it is. -/
theorem signedOf_unsignedOf {v : Int} (low : -512 ≤ v) (high : v < 512) : signedOf 10 (unsignedOf 10 v % 2 ^ 10) = v := by
  unfold signedOf unsignedOf
  omega

/-- The fields that turning hot or cool writes. -/
def heatFields : List FieldRef :=
  [Reg.DRAM.STAT_HOT, Reg.HDR.EVT_PENDING, Reg.HDR.COUNTER_OVF, Reg.DRAM.HOT_CNT, Reg.DRAM.REF_URGENT_CNT]

/-- The excess of every bank over HOT_POSTPONE (R303). -/
def State.hotExcess (s : State) (c : Conc) : Nat := (s.conc c).mc.excess (s.fld (pgDRAM c) Reg.DRAM.REF_CTRL_HOT_POSTPONE)

/-- No bank keeps more than the limit postponed, and the pages of those that had more are closed. -/
theorem DramSt.cap_limits (m : DramSt) (lim : Nat) :
    (∀ e ∈ (m.cap lim).postponed, e.2 ≤ lim) ∧ ∀ e ∈ (m.cap lim).openRows, m.count e.1 ≤ lim := by
  constructor
  · intro e he
    obtain ⟨d, -, rfl⟩ := List.mem_map.1 (List.mem_filter.1 he).1
    exact min_le_right ..
  · intro e he
    simpa using (List.mem_filter.1 he).2

/-- What the turn to hot leaves. -/
structure State.TurnedHot (s t : State) (c : Conc) : Prop where
  hot : t.flag (pgDRAM c) Reg.DRAM.STAT_HOT = true
  event : (t.rd (pgDRAM c) Reg.HDR.EVT_PENDING.off).getLsbD 1 = true
  pends : ∀ i, (s.rd (pgDRAM c) Reg.HDR.EVT_PENDING.off).getLsbD i = true → (t.rd (pgDRAM c) Reg.HDR.EVT_PENDING.off).getLsbD i = true
  conc : s.ConcMoves t c { s.conc c with mc := (s.conc c).mc.cap (s.fld (pgDRAM c) Reg.DRAM.REF_CTRL_HOT_POSTPONE) }
  hots : s.below (pgDRAM c) [Reg.DRAM.HOT_CNT] 1 →
    t.stored (pgDRAM c) Reg.DRAM.HOT_CNT = s.stored (pgDRAM c) Reg.DRAM.HOT_CNT + 1
  urgent : s.below (pgDRAM c) [Reg.DRAM.REF_URGENT_CNT] (s.hotExcess c) →
    t.stored (pgDRAM c) Reg.DRAM.REF_URGENT_CNT = s.stored (pgDRAM c) Reg.DRAM.REF_URGENT_CNT + s.hotExcess c

/-- A counter of a page, below its maximum, counts. -/
theorem State.below.bumped {p n : Nat} {f : FieldRef} (h : s.below p [f] n) (same : t.stored p f = s.stored p f)
    (whole : f.lo = 0 ∧ f.hi = 31) (b : Nat) : (t.bump p f b n).stored p f = s.stored p f + n := by
  rw [← same]
  refine State.stored_bump_below (by omega) (by omega) ?_ b
  rw [same, whole.1, whole.2]
  exact h f List.mem_cons_self

theorem State.turnHot_turned (s : State) (c : Conc) :
    s.TurnedHot (s.turnHot c) c ∧ s.FieldsBut (onPage (pgDRAM c) heatFields) (s.turnHot c) := by
  obtain ⟨u, hu⟩ : ∃ u, u = (s.setMc c ((s.conc c).mc.cap (s.fld (pgDRAM c) Reg.DRAM.REF_CTRL_HOT_POSTPONE))).putB (pgDRAM c)
      Reg.DRAM.STAT_HOT true := ⟨_, rfl⟩
  obtain ⟨v, hv⟩ : ∃ v, v = u.event (pgDRAM c) 1 := ⟨_, rfl⟩
  obtain ⟨w, hw⟩ : ∃ w, w = v.bump (pgDRAM c) Reg.DRAM.HOT_CNT 2 := ⟨_, rfl⟩
  obtain ⟨t, ht⟩ : ∃ t, t = w.bump (pgDRAM c) Reg.DRAM.REF_URGENT_CNT 1 (s.hotExcess c) := ⟨_, rfl⟩
  have eq : s.turnHot c = t := by rw [ht, hw, hv, hu]; rfl
  have marked : s.FieldsBut (onPage (pgDRAM c) [Reg.DRAM.STAT_HOT]) u :=
    hu ▸ (State.fieldsBut_setMc ..).trans (State.fieldsBut_putB .mem ..)
  have told : u.FieldsBut (onPage (pgDRAM c) [Reg.HDR.EVT_PENDING]) v := hv ▸ State.fieldsBut_event .mem ..
  have counted : v.FieldsBut (onPage (pgDRAM c) [Reg.DRAM.HOT_CNT, Reg.HDR.COUNTER_OVF]) w :=
    hw ▸ State.fieldsBut_bump .mem .mem ..
  have urged : w.FieldsBut (onPage (pgDRAM c) [Reg.DRAM.REF_URGENT_CNT, Reg.HDR.COUNTER_OVF]) t :=
    ht ▸ State.fieldsBut_bump .mem .mem ..
  have moves : s.ConcMoves t c { s.conc c with mc := (s.conc c).mc.cap (s.fld (pgDRAM c) Reg.DRAM.REF_CTRL_HOT_POSTPONE) } :=
    (s.concMoves_setMc c _).then fun d => by rw [ht, hw, hv, hu]; simp
  have pending : t.rd (pgDRAM c) Reg.HDR.EVT_PENDING.off = v.rd (pgDRAM c) Reg.HDR.EVT_PENDING.off :=
    urged.pending.trans counted.pending
  rw [eq]
  refine ⟨⟨?_, ?_, fun i pends => ?_, moves, fun below => ?_, fun below => ?_⟩, ?_⟩
  · rw [urged.own.flag, counted.own.flag, told.own.flag, hu]
    exact State.flag_putB_same (f := Reg.DRAM.STAT_HOT) (by decide) (by decide) ..
  · rw [pending, hv]
    exact State.event_pends (by decide) ..
  · rw [pending, hv]
    refine State.event_keeps_bit ?_ 1
    rwa [marked.pending]
  · rw [urged.own.stored, hw]
    exact below.bumped (told.own.stored.trans marked.own.stored) ⟨rfl, rfl⟩ 2
  · rw [ht]
    exact below.bumped (counted.own.stored.trans (told.own.stored.trans marked.own.stored)) ⟨rfl, rfl⟩ 1
  · exact (((marked.mono (onPage.sub (by decide))).trans (told.mono (onPage.sub (by decide)))).trans
      (counted.mono (onPage.sub (by decide)))).trans (urged.mono (onPage.sub (by decide)))

/-- What turning cool leaves. -/
theorem State.turnCool_turned (s : State) (c : Conc) :
    let t := (s.putB (pgDRAM c) Reg.DRAM.STAT_HOT false).event (pgDRAM c) 2
    t.flag (pgDRAM c) Reg.DRAM.STAT_HOT = false ∧ (t.rd (pgDRAM c) Reg.HDR.EVT_PENDING.off).getLsbD 2 = true ∧
      (∀ d, t.conc d = s.conc d) ∧ s.FieldsBut (onPage (pgDRAM c) heatFields) t := by
  obtain ⟨u, hu⟩ : ∃ u, u = s.putB (pgDRAM c) Reg.DRAM.STAT_HOT false := ⟨_, rfl⟩
  have told : u.FieldsBut (onPage (pgDRAM c) [Reg.HDR.EVT_PENDING]) (u.event (pgDRAM c) 2) :=
    State.fieldsBut_event .mem ..
  rw [← hu]
  refine ⟨?_, State.event_pends (by decide) .., fun d => by rw [hu]; simp, ?_⟩
  · rw [told.own.flag, hu]
    exact State.flag_putB_same (f := Reg.DRAM.STAT_HOT) (by decide) (by decide) ..
  · rw [hu] at told ⊢
    exact (State.fieldsBut_putB .mem ..).trans (told.mono (onPage.sub (by decide)))

section

variable (hot : Bool) (is : s.flag (pgDRAM c) Reg.DRAM.STAT_HOT = hot)

include is

theorem State.applyTemp_hot (h : hot = false) (above : ((4 * s.fld (pgDRAM c) Reg.DRAM.REF_CTRL_HOT_C : Nat) : Int) ≤
    signedOf 10 (s.stored (pgDRAM c) Reg.DRAM.TEMP_TEMP)) : s.applyTemp c = s.turnHot c := by
  simp only [State.applyTemp, is, h, above, Bool.not_false, decide_true, Bool.and_self, if_true]

theorem State.applyTemp_cool (h : hot = true) (below : signedOf 10 (s.stored (pgDRAM c) Reg.DRAM.TEMP_TEMP) <
    ((4 * s.fld (pgDRAM c) Reg.DRAM.REF_CTRL_COOL_C : Nat) : Int)) :
    s.applyTemp c = (s.putB (pgDRAM c) Reg.DRAM.STAT_HOT false).event (pgDRAM c) 2 := by
  simp only [State.applyTemp, is, h, below, Bool.not_true, Bool.false_and, Bool.false_eq_true, if_false, decide_true, Bool.and_self, if_true]

theorem State.applyTemp_stays (h : if hot then ((4 * s.fld (pgDRAM c) Reg.DRAM.REF_CTRL_COOL_C : Nat) : Int) ≤
      signedOf 10 (s.stored (pgDRAM c) Reg.DRAM.TEMP_TEMP)
    else signedOf 10 (s.stored (pgDRAM c) Reg.DRAM.TEMP_TEMP) < ((4 * s.fld (pgDRAM c) Reg.DRAM.REF_CTRL_HOT_C : Nat) : Int)) :
    s.applyTemp c = s := by
  cases hot
  · simp only [Bool.false_eq_true, if_false] at h
    simp only [State.applyTemp, is, decide_eq_false (not_le.2 h), Bool.and_false, Bool.false_and, Bool.false_eq_true, if_false]
  · simp only [if_true] at h
    simp only [State.applyTemp, is, decide_eq_false (not_lt.2 h), Bool.and_false, Bool.not_true, Bool.false_and, Bool.false_eq_true, if_false]

end

/-- The temperature is held, then it acts (R301). -/
theorem State.tempSample_eq (h : s.dramBusy c = false ∨ s.dramFrozen c = true) (temp : Int) :
    s.tempSample c temp = (s.put (pgDRAM c) Reg.DRAM.TEMP_TEMP (unsignedOf 10 temp)).applyTemp c := by
  have held : s.FieldsBut (onPage (pgDRAM c) [Reg.DRAM.TEMP_TEMP]) (s.put (pgDRAM c) Reg.DRAM.TEMP_TEMP (unsignedOf 10 temp)) :=
    State.fieldsBut_put .mem ..
  have busy := held.own (g := Reg.DRAM.STAT_CHANGING) |>.flag
  have frozen := held.own (g := Reg.DRAM.STAT_FROZEN) |>.flag
  refine if_neg ?_
  rw [State.dramBusy, State.dramFrozen, busy, frozen, ← State.dramBusy, ← State.dramFrozen]
  rcases h with h | h <;> simp [h]

end

end Sys2Proof.Machine
end

section
/-!
PROOFS. The family of the lookback memory: changes of the frequency point, and training (R297, R298, R304, R305).
-/

set_option Elab.async false

namespace Sys2Proof.Machine

/-! ### Fields of a concentrator's DRAM and DTRAIN pages -/

theorem pgDRAM_ne_pgDTRAIN (c : Conc) : pgDRAM c ≠ pgDTRAIN c := by unfold pgDRAM pgDTRAIN; omega

/-- One of the fields listed of the DRAM page, or of those of the DTRAIN page. -/
def onDram (c : Conc) (l m : List FieldRef) (x : Nat × FieldRef) : Prop := onPage (pgDRAM c) l x ∨ onPage (pgDTRAIN c) m x

section

variable {s t : State} {c : Conc} {l m : List FieldRef} {g : FieldRef}

theorem State.FieldsBut.dram (h : s.FieldsBut (onDram c l m) t) (hg : g.fits = true := by decide)
    (ha : ∀ f ∈ l, bitsApart f g = true := by decide) : s.SameField t (pgDRAM c) g := by
  refine h.field _ g hg ?_
  rintro ⟨q, f⟩ (⟨-, mem⟩ | ⟨page, -⟩)
  · exact fieldsApart_of_bits (ha f mem)
  · exact fieldsApart_of_off fun e => pgDRAM_ne_pgDTRAIN c ((Prod.mk.inj e).1.trans page)

theorem State.FieldsBut.dtrain (h : s.FieldsBut (onDram c l m) t) (hg : g.fits = true := by decide)
    (ha : ∀ f ∈ m, bitsApart f g = true := by decide) : s.SameField t (pgDTRAIN c) g := by
  refine h.field _ g hg ?_
  rintro ⟨q, f⟩ (⟨page, -⟩ | ⟨-, mem⟩)
  · exact fieldsApart_of_off fun e => pgDRAM_ne_pgDTRAIN c (page.symm.trans (Prod.mk.inj e).1.symm)
  · exact fieldsApart_of_bits (ha f mem)

end

/-! ### A change of the point begins (R297, R313) -/

/-- The controller at the beginning of a change: its pages are closed. -/
def DramSt.changing (m : DramSt) (p : Nat) : DramSt := { m with target := p, openRows := [], lowWindows := 0, waits := none }

section

variable {s t : State} {c : Conc} {p : Nat}

/-- What the beginning of a change writes. -/
structure State.ChangeBegun (s t : State) (c : Conc) (p : Nat) : Prop where
  conc : s.ConcMoves t c { s.conc c with mc := (s.conc c).mc.changing p }
  busy : t.dramBusy c = true
  training : t.stored (pgDTRAIN c) Reg.DTRAIN.TRAIN_STAT_BUSY = 1
  fields : s.FieldsBut (onDram c [Reg.DRAM.STAT_CHANGING] [Reg.DTRAIN.TRAIN_STAT_BUSY]) t

/-- A change begins: the pages are closed, and the DRAM and DTRAIN pages show it. -/
def State.changeBegins (s : State) (c : Conc) (p : Nat) : State :=
  ((s.setMc c ((s.conc c).mc.changing p)).putB (pgDRAM c) Reg.DRAM.STAT_CHANGING true).putB (pgDTRAIN c) Reg.DTRAIN.TRAIN_STAT_BUSY true

theorem State.changeBegins_begun (s : State) (c : Conc) (p : Nat) : s.ChangeBegun (s.changeBegins c p) c p := by
  obtain ⟨u, hu⟩ : ∃ u, u = (s.setMc c ((s.conc c).mc.changing p)).putB (pgDRAM c) Reg.DRAM.STAT_CHANGING true := ⟨_, rfl⟩
  have eq : s.changeBegins c p = u.putB (pgDTRAIN c) Reg.DTRAIN.TRAIN_STAT_BUSY true := by rw [hu]; rfl
  have trains : u.FieldsBut (onPage (pgDTRAIN c) [Reg.DTRAIN.TRAIN_STAT_BUSY]) (s.changeBegins c p) :=
    eq ▸ State.fieldsBut_putB .mem ..
  refine ⟨(s.concMoves_setMc c _).then fun d => by rw [eq, hu]; simp, ?_, ?_, ?_⟩
  · rw [State.dramBusy, (trains.far (pgDRAM_ne_pgDTRAIN c)).flag, hu]
    exact State.flag_putB_same (f := Reg.DRAM.STAT_CHANGING) (by decide) (by decide) ..
  · rw [eq]
    exact State.stored_putB_same (f := Reg.DTRAIN.TRAIN_STAT_BUSY) (by decide) (by decide) ..
  · refine .trans ?_ (trains.mono fun _ => .inr)
    rw [hu]
    exact (State.fieldsBut_setMc ..).trans (State.fieldsBut_putB (.inl .mem) ..)

/-- While a retraining is pending a change waits; otherwise it begins. -/
theorem State.startChange_eq (frozen : s.dramFrozen c = false) (busy : s.dramBusy c = false) (other : s.point c ≠ p) :
    s.startChange c p = if s.retrainPending c then s.setMc c { (s.conc c).mc with waits := some p } else s.changeBegins c p := by
  rw [State.startChange, if_neg (by simp [frozen, busy, other])]
  rfl

/-- Whether it begins, waits or is ignored, what training has found stays. -/
theorem State.startChange_leaves (s : State) (c : Conc) (p : Nat) :
    s.FieldsBut (onDram c [Reg.DRAM.STAT_CHANGING] [Reg.DTRAIN.TRAIN_STAT_BUSY]) (s.startChange c p) ∧
      ∃ m, s.ConcMoves (s.startChange c p) c { s.conc c with mc := m } ∧ m.trained = (s.conc c).mc.trained ∧
        m.settings = (s.conc c).mc.settings := by
  by_cases free : (s.dramFrozen c || s.dramBusy c || s.point c == p) = true
  · rw [State.startChange, if_pos free]
    exact ⟨.refl s, _, .refl s c, rfl, rfl⟩
  · simp only [Bool.or_eq_true, beq_iff_eq, not_or, Bool.not_eq_true] at free
    obtain ⟨⟨frozen, busy⟩, other⟩ := free
    rw [State.startChange_eq frozen busy other]
    split
    · exact ⟨State.fieldsBut_setMc .., _, s.concMoves_setMc c _, rfl, rfl⟩
    · obtain ⟨conc, -, -, fields⟩ := s.changeBegins_begun c p
      exact ⟨fields, _, conc, rfl, rfl⟩

end

/-! ### Training of a channel (R304, R305) -/

section

variable {s t : State} {c : Conc} {k : Nat}

theorem chTrain_fits {f : FieldRef} (h : k < 16) (off : f.off = 0x080 := by decide) (lo : f.lo ≤ f.hi := by decide)
    (hi : f.hi < 32 := by decide) : (f.nth k).fits = true := by
  simp only [FieldRef.fits, FieldRef.nth, decide_eq_true_eq, off]
  omega

/-- When a channel was trained, and the temperature then (R305). -/
def State.stamp (s : State) (c : Conc) : Nat × Int := (s.now, signedOf 10 (s.stored (pgDRAM c) Reg.DRAM.TEMP_TEMP))

/-- What the end of a channel's training leaves. -/
structure State.TrainingEnded (s t : State) (c : Conc) (k : Nat) : Prop where
  conc : s.ConcMoves t c { s.conc c with mc := { (s.conc c).mc with trained := mapPut k (s.stamp c) (s.conc c).mc.trained } }
  chan : t.stored (pgDTRAIN c) Reg.DTRAIN.TRAIN_STAT_CHAN = k
  count : s.stored (pgDTRAIN c) Reg.DTRAIN.TRAIN_CNT + 1 < 2 ^ 32 →
    t.stored (pgDTRAIN c) Reg.DTRAIN.TRAIN_CNT = s.stored (pgDTRAIN c) Reg.DTRAIN.TRAIN_CNT + 1

theorem State.trained_ended (h : k < 16) (s : State) (c : Conc) : s.TrainingEnded (s.trained c k) c k ∧
    s.FieldsBut (onPage (pgDTRAIN c) [Reg.DTRAIN.TRAIN_STAT_CHAN, Reg.DTRAIN.TRAIN_CNT, Reg.HDR.COUNTER_OVF]) (s.trained c k) := by
  obtain ⟨u, hu⟩ : ∃ u, u = (s.setMc c { (s.conc c).mc with trained := mapPut k (s.stamp c) (s.conc c).mc.trained }).put (pgDTRAIN c)
      Reg.DTRAIN.TRAIN_STAT_CHAN k := ⟨_, rfl⟩
  have eq : s.trained c k = u.bump (pgDTRAIN c) Reg.DTRAIN.TRAIN_CNT 0 := by rw [hu]; rfl
  have shown : s.FieldsBut (onPage (pgDTRAIN c) [Reg.DTRAIN.TRAIN_STAT_CHAN]) u :=
    hu ▸ (State.fieldsBut_setMc ..).trans (State.fieldsBut_put .mem ..)
  have counted : u.FieldsBut (onPage (pgDTRAIN c) [Reg.DTRAIN.TRAIN_CNT, Reg.HDR.COUNTER_OVF]) (s.trained c k) :=
    eq ▸ State.fieldsBut_bump .mem .mem ..
  have before : u.stored (pgDTRAIN c) Reg.DTRAIN.TRAIN_CNT = s.stored (pgDTRAIN c) Reg.DTRAIN.TRAIN_CNT := shown.own.stored
  refine ⟨⟨(s.concMoves_setMc c _).then fun d => by rw [eq, hu]; simp, ?_, fun below => ?_⟩,
    (shown.mono (onPage.sub (by decide))).trans (counted.mono (onPage.sub (by decide)))⟩
  · rw [counted.own.stored, hu]
    exact (State.stored_put_same (f := Reg.DTRAIN.TRAIN_STAT_CHAN) (by decide) (by decide) ..).trans (Nat.mod_eq_of_lt h)
  · rw [eq, ← before]
    exact State.stored_bump_below (f := Reg.DTRAIN.TRAIN_CNT) (by decide) (by decide) (before ▸ below) 0

/-- The settings of a channel in CH_TRAIN. -/
def settingFields (k : Nat) : List FieldRef :=
  [Reg.DTRAIN.CH_TRAIN_RD_DLY.nth k, Reg.DTRAIN.CH_TRAIN_WR_DLY.nth k, Reg.DTRAIN.CH_TRAIN_VREF.nth k]

theorem State.setTrain_leaves (h : k < 16) (s : State) (c : Conc) (v : Nat) :
    let t := s.setTrain c k v
    t.stored (pgDTRAIN c) (Reg.DTRAIN.CH_TRAIN_RD_DLY.nth k) = v / 65536 % 256 ∧
      t.stored (pgDTRAIN c) (Reg.DTRAIN.CH_TRAIN_WR_DLY.nth k) = v / 256 % 256 ∧
      t.stored (pgDTRAIN c) (Reg.DTRAIN.CH_TRAIN_VREF.nth k) = v % 256 ∧ (∀ d, t.conc d = s.conc d) ∧ t.now = s.now ∧
      s.FieldsBut (onPage (pgDTRAIN c) (settingFields k)) t := by
  obtain ⟨u, hu⟩ : ∃ u, u = s.put (pgDTRAIN c) (Reg.DTRAIN.CH_TRAIN_RD_DLY.nth k) (bitsOf 23 16 v) := ⟨_, rfl⟩
  obtain ⟨w, hw⟩ : ∃ w, w = u.put (pgDTRAIN c) (Reg.DTRAIN.CH_TRAIN_WR_DLY.nth k) (bitsOf 15 8 v) := ⟨_, rfl⟩
  obtain ⟨t, ht⟩ : ∃ t, t = w.put (pgDTRAIN c) (Reg.DTRAIN.CH_TRAIN_VREF.nth k) (bitsOf 7 0 v) := ⟨_, rfl⟩
  have eq : s.setTrain c k v = t := by rw [ht, hw, hu]; rfl
  have reads : s.FieldsBut (onPage (pgDTRAIN c) (settingFields k)) u :=
    hu ▸ State.fieldsBut_put (.mem List.mem_cons_self) s _ (chTrain_fits h)
  have writes : u.FieldsBut (onPage (pgDTRAIN c) [Reg.DTRAIN.CH_TRAIN_WR_DLY.nth k]) w :=
    hw ▸ State.fieldsBut_put (.mem List.mem_cons_self) u _ (chTrain_fits h)
  have levels : w.FieldsBut (onPage (pgDTRAIN c) [Reg.DTRAIN.CH_TRAIN_VREF.nth k]) t :=
    ht ▸ State.fieldsBut_put (.mem List.mem_cons_self) w _ (chTrain_fits h)
  have apart {f g : FieldRef} (bits : f.hi < g.lo ∨ g.hi < f.lo) : ∀ x ∈ [f.nth k], bitsApart x (g.nth k) = true := by
    simp [bitsApart, FieldRef.nth, bits]
  have put {a : State} {f : FieldRef} {n : Nat} (lo : f.lo ≤ f.hi) (hi : f.hi < 32) (small : n < 2 ^ (f.hi - f.lo + 1)) :
      (a.put (pgDTRAIN c) (f.nth k) n).stored (pgDTRAIN c) (f.nth k) = n :=
    (State.stored_put_same (f := f.nth k) lo hi ..).trans (Nat.mod_eq_of_lt small)
  rw [eq]
  refine ⟨?_, ?_, ?_, fun d => by rw [ht, hw, hu]; simp, by rw [ht, hw, hu]; simp, ?_⟩
  · rw [(levels.own (chTrain_fits h) (apart (by decide))).stored, (writes.own (chTrain_fits h) (apart (by decide))).stored, hu]
    exact put (f := Reg.DTRAIN.CH_TRAIN_RD_DLY) (by decide) (by decide) (Nat.mod_lt _ (by decide))
  · rw [(levels.own (chTrain_fits h) (apart (by decide))).stored, hw]
    exact put (f := Reg.DTRAIN.CH_TRAIN_WR_DLY) (by decide) (by decide) (Nat.mod_lt _ (by decide))
  · rw [ht]
    exact (put (f := Reg.DTRAIN.CH_TRAIN_VREF) (by decide) (by decide) (Nat.mod_lt _ (by decide))).trans
      (congrArg (· % 256) (Nat.div_one v))
  · exact (reads.trans (writes.mono (onPage.sub (by simp [settingFields])))).trans (levels.mono (onPage.sub (by simp [settingFields])))

/-- The places of DEGRADED of a channel (R316). -/
def degradedFields (k : Nat) : List FieldRef := [Reg.DTRAIN.CH_TRAIN_DEGRADED.nth k, ⟨Reg.DTRAIN.TRAIN_STAT.off, k, k⟩]

theorem State.setDegraded_leaves (h : k < 16) (s : State) (c : Conc) (b : Bool) :
    (s.setDegraded c k b).flag (pgDTRAIN c) (Reg.DTRAIN.CH_TRAIN_DEGRADED.nth k) = b ∧
      s.FieldsBut (onPage (pgDTRAIN c) (degradedFields k)) (s.setDegraded c k b) := by
  obtain ⟨u, hu⟩ : ∃ u, u = s.putB (pgDTRAIN c) (Reg.DTRAIN.CH_TRAIN_DEGRADED.nth k) b := ⟨_, rfl⟩
  have eq : s.setDegraded c k b = u.putB (pgDTRAIN c) ⟨Reg.DTRAIN.TRAIN_STAT.off, k, k⟩ b := by rw [hu]; rfl
  have fits : (⟨Reg.DTRAIN.TRAIN_STAT.off, k, k⟩ : FieldRef).fits = true := by
    simp only [FieldRef.fits, show Reg.DTRAIN.TRAIN_STAT.off = 0x044 from rfl, decide_eq_true_eq]
    omega
  have listed : u.FieldsBut (onPage (pgDTRAIN c) [⟨Reg.DTRAIN.TRAIN_STAT.off, k, k⟩]) (s.setDegraded c k b) :=
    eq ▸ State.fieldsBut_putB (.mem List.mem_cons_self) u b fits
  constructor
  · rw [(listed.own (g := Reg.DTRAIN.CH_TRAIN_DEGRADED.nth k) (chTrain_fits h) ?_).flag, hu]
    · exact State.flag_putB_same (f := Reg.DTRAIN.CH_TRAIN_DEGRADED.nth k) (by decide : 31 ≤ 31) (by decide : 31 < 32) ..
    · simp [bitsApart, FieldRef.nth, Reg.DTRAIN.TRAIN_STAT, Reg.DTRAIN.CH_TRAIN_DEGRADED]
      omega
  · refine .trans (t := u) ?_ (listed.mono (onPage.sub (by simp [degradedFields])))
    exact hu ▸ State.fieldsBut_putB (.mem List.mem_cons_self) s b (chTrain_fits h)

/-- What a failed training writes, and the end of a training. -/
def failFields (k : Nat) : List FieldRef :=
  [Reg.HDR.EVT_PENDING, Reg.DTRAIN.TRAIN_FAIL_CNT, Reg.DTRAIN.TRAIN_STAT_CHAN, Reg.DTRAIN.TRAIN_CNT, Reg.HDR.COUNTER_OVF] ++ degradedFields k

/-- A training that finds no setting leaves the channel degraded, with event 0 and its count. -/
theorem State.trainFailed_leaves (h : k < 16) (s : State) (c : Conc) :
    let t := s.trainFailed c k
    s.TrainingEnded t c k ∧ t.flag (pgDTRAIN c) (Reg.DTRAIN.CH_TRAIN_DEGRADED.nth k) = true ∧
      (t.rd (pgDTRAIN c) Reg.HDR.EVT_PENDING.off).getLsbD 0 = true ∧
      (s.stored (pgDTRAIN c) Reg.DTRAIN.TRAIN_FAIL_CNT + 1 < 2 ^ 32 →
        t.stored (pgDTRAIN c) Reg.DTRAIN.TRAIN_FAIL_CNT = s.stored (pgDTRAIN c) Reg.DTRAIN.TRAIN_FAIL_CNT + 1) ∧
      s.FieldsBut (onPage (pgDTRAIN c) (failFields k)) t := by
  obtain ⟨degraded, marks⟩ := State.setDegraded_leaves h s c true
  obtain ⟨u, hu⟩ : ∃ u, u = (s.setDegraded c k true).event (pgDTRAIN c) 0 := ⟨_, rfl⟩
  obtain ⟨w, hw⟩ : ∃ w, w = u.bump (pgDTRAIN c) Reg.DTRAIN.TRAIN_FAIL_CNT 1 := ⟨_, rfl⟩
  have eq : s.trainFailed c k = w.trained c k := by rw [hw, hu]; rfl
  have told : (s.setDegraded c k true).FieldsBut (onPage (pgDTRAIN c) [Reg.HDR.EVT_PENDING]) u :=
    hu ▸ State.fieldsBut_event .mem ..
  have counted : u.FieldsBut (onPage (pgDTRAIN c) [Reg.DTRAIN.TRAIN_FAIL_CNT, Reg.HDR.COUNTER_OVF]) w :=
    hw ▸ State.fieldsBut_bump .mem .mem ..
  obtain ⟨⟨conc, chan, count⟩, ends⟩ := State.trained_ended h w c
  have parts : s.Only 88 w := by
    rw [hw, hu]
    exact State.bump_only (State.event_only (State.setDegraded_only (.refl s) c k true (by decide)) _ _ (by decide)) _ _ _ _ (by decide)
  have kept {g : FieldRef} (hg : g.fits = true) (ha : ∀ f ∈ degradedFields k, bitsApart f g = true)
      (hb : ∀ f ∈ [Reg.HDR.EVT_PENDING, Reg.DTRAIN.TRAIN_FAIL_CNT, Reg.HDR.COUNTER_OVF], bitsApart f g = true) :
      s.SameField w (pgDTRAIN c) g :=
    ((marks.own hg ha).trans (told.own hg (by simp_all))).trans (counted.own hg (by simp_all))
  have temp : w.stamp c = s.stamp c := by
    have far {a b : State} {l : List FieldRef} (r : a.FieldsBut (onPage (pgDTRAIN c) l) b) :
        b.stored (pgDRAM c) Reg.DRAM.TEMP_TEMP = a.stored (pgDRAM c) Reg.DRAM.TEMP_TEMP := (r.far (pgDRAM_ne_pgDTRAIN c)).stored
    rw [State.stamp, State.stamp, parts.now rfl, far counted, far told, far marks]
  have places {g : FieldRef} (off : g.off ≠ 0x044 := by decide) (low : g.off < 0x080 := by decide) :
      ∀ f ∈ degradedFields k, bitsApart f g = true := by
    simp [degradedFields, bitsApart, FieldRef.nth, Reg.DTRAIN.TRAIN_STAT, Reg.DTRAIN.CH_TRAIN_DEGRADED]
    omega
  rw [parts.conc, temp] at conc
  dsimp only
  rw [eq]
  refine ⟨⟨⟨conc.own, conc.other.trans (parts.conc _)⟩, chan, fun below => ?_⟩, ?_, ?_, fun below => ?_, ?_⟩
  · have same : w.stored (pgDTRAIN c) Reg.DTRAIN.TRAIN_CNT = s.stored (pgDTRAIN c) Reg.DTRAIN.TRAIN_CNT :=
      (kept (by decide) places (by decide)).stored
    rw [count (by omega), same]
  · have bits : ∀ f ∈ [Reg.HDR.EVT_PENDING, Reg.DTRAIN.TRAIN_FAIL_CNT, Reg.DTRAIN.TRAIN_STAT_CHAN, Reg.DTRAIN.TRAIN_CNT,
        Reg.HDR.COUNTER_OVF], bitsApart f (Reg.DTRAIN.CH_TRAIN_DEGRADED.nth k) = true := by
      simp [bitsApart, FieldRef.nth, Reg.HDR.EVT_PENDING, Reg.DTRAIN.TRAIN_FAIL_CNT, Reg.DTRAIN.TRAIN_STAT_CHAN, Reg.DTRAIN.TRAIN_CNT,
        Reg.HDR.COUNTER_OVF, Reg.DTRAIN.CH_TRAIN_DEGRADED]
      omega
    rw [(ends.own (chTrain_fits h) (by simp_all)).flag, (counted.own (chTrain_fits h) (by simp_all)).flag,
      (told.own (chTrain_fits h) (by simp_all)).flag, degraded]
  · rw [ends.pending, counted.pending, hu]
    exact State.event_pends (by decide) ..
  · have before : u.stored (pgDTRAIN c) Reg.DTRAIN.TRAIN_FAIL_CNT = s.stored (pgDTRAIN c) Reg.DTRAIN.TRAIN_FAIL_CNT :=
      told.own.stored.trans (marks.own (by decide) places).stored
    rw [ends.own.stored, hw, ← before]
    exact State.stored_bump_below (f := Reg.DTRAIN.TRAIN_FAIL_CNT) (by decide) (by decide) (before ▸ below) 1
  · exact (((marks.mono (onPage.sub (List.subset_append_right _ _))).trans (told.mono (onPage.sub (by simp)))).trans
      (counted.mono (onPage.sub (by simp)))).trans (ends.mono (onPage.sub (by simp)))

/-- A channel takes the settings found at a point. -/
theorem State.setPoint_leaves (h : k < 16) (s : State) (c : Conc) (p v : Nat) :
    let t := s.setPoint c p k v
    s.ConcMoves t c { s.conc c with mc := { (s.conc c).mc with settings := mapPut (p * 16 + k) v (s.conc c).mc.settings } } ∧
      t.stored (pgDTRAIN c) (Reg.DTRAIN.CH_TRAIN_RD_DLY.nth k) = v / 65536 % 256 ∧
      t.stored (pgDTRAIN c) (Reg.DTRAIN.CH_TRAIN_WR_DLY.nth k) = v / 256 % 256 ∧
      t.stored (pgDTRAIN c) (Reg.DTRAIN.CH_TRAIN_VREF.nth k) = v % 256 ∧ t.stamp c = s.stamp c ∧
      s.FieldsBut (onPage (pgDTRAIN c) (settingFields k)) t := by
  obtain ⟨u, hu⟩ : ∃ u, u = s.setMc c { (s.conc c).mc with settings := mapPut (p * 16 + k) v (s.conc c).mc.settings } := ⟨_, rfl⟩
  have eq : s.setPoint c p k v = u.setTrain c k v := by rw [hu]; rfl
  obtain ⟨reads, writes, levels, conc, now, fields⟩ := State.setTrain_leaves h u c v
  have moved := s.concMoves_setMc c { (s.conc c).mc with settings := mapPut (p * 16 + k) v (s.conc c).mc.settings }
  have kept : s.FieldsBut (onPage (pgDTRAIN c) (settingFields k)) (u.setTrain c k v) := by
    refine .trans ?_ fields
    rw [hu]
    exact State.fieldsBut_setMc ..
  dsimp only
  rw [eq]
  rw [← hu] at moved
  refine ⟨moved.then conc, reads, writes, levels, ?_, kept⟩
  have start : u.now = s.now := by rw [hu]; exact State.setConc_now ..
  rw [State.stamp, State.stamp, now, start, (kept.far (pgDRAM_ne_pgDTRAIN c)).stored]

end

end Sys2Proof.Machine
end

section
/-!
PROOFS. The family of the lookback memory: the end of a change of the frequency point (R297, R300, R304).
-/

set_option Elab.async false

namespace Sys2Proof.Machine

/-! ### Every live channel is trained (R304) -/

section

variable {s t u : State} {c : Conc} {p k : Nat}

/-- One channel's full training at a point, with the settings that are drawn. -/
def State.trainOne (s : State) (c : Conc) (p k : Nat) : State :=
  let (v, s) := s.draw
  if v.testBit 24 then (s.setTrain c k (mapGetD 0 (p * 16 + k) (s.conc c).mc.settings)).trainFailed c k
  else (s.setPoint c p k (v % 2 ^ 24)).trained c k

/-- A channel has been trained at the point, now: it has settings for it, or is degraded. -/
def State.channelDone (s : State) (c : Conc) (p k : Nat) : Prop :=
  (s.flag (pgDTRAIN c) (Reg.DTRAIN.CH_TRAIN_DEGRADED.nth k) = true ∨ (mapFind (p * 16 + k) (s.conc c).mc.settings).isSome = true) ∧
    mapFind k (s.conc c).mc.trained = some (s.stamp c)

/-- What the training of a channel may write on the DTRAIN page. -/
def TrainField (c : Conc) (x : Nat × FieldRef) : Prop := ∃ k < 16, onPage (pgDTRAIN c) (failFields k ++ settingFields k) x

/-- What the training of the channels listed leaves. -/
structure State.ChannelsTrained (s t : State) (c : Conc) (p : Nat) (l : List Nat) : Prop where
  conc : ∃ x y, s.ConcMoves t c { s.conc c with mc := { (s.conc c).mc with settings := x, trained := y } }
  fields : s.FieldsBut (TrainField c) t
  stamp : t.stamp c = s.stamp c
  count : s.stored (pgDTRAIN c) Reg.DTRAIN.TRAIN_CNT + l.length < 2 ^ 32 →
    t.stored (pgDTRAIN c) Reg.DTRAIN.TRAIN_CNT = s.stored (pgDTRAIN c) Reg.DTRAIN.TRAIN_CNT + l.length
  keeps : ∀ j < 16, s.channelDone c p j → t.channelDone c p j
  done : ∀ j ∈ l, t.channelDone c p j

theorem State.ChannelsTrained.nil (s : State) (c : Conc) (p : Nat) : s.ChannelsTrained s c p [] :=
  ⟨⟨_, _, .refl s c⟩, .refl s, rfl, fun _ => rfl, fun _ _ => id, nofun⟩

theorem State.ChannelsTrained.cons {l : List Nat} (h : k < 16) (one : s.ChannelsTrained t c p [k]) (rest : t.ChannelsTrained u c p l) :
    s.ChannelsTrained u c p (k :: l) := by
  obtain ⟨x, y, first⟩ := one.conc
  obtain ⟨x', y', second⟩ := rest.conc
  refine ⟨⟨x', y', ?_⟩, one.fields.trans rest.fields, rest.stamp.trans one.stamp, fun below => ?_,
    fun j hj done => rest.keeps j hj (one.keeps j hj done), fun j mem => ?_⟩
  · rw [first.own] at second
    exact first.trans second
  · simp only [List.length_cons] at below ⊢
    have counted := one.count (by simp only [List.length_cons, List.length_nil]; omega)
    simp only [List.length_cons, List.length_nil] at counted
    rw [rest.count (by omega), counted]
    omega
  · rcases List.mem_cons.1 mem with rfl | mem
    · exact rest.keeps j h (one.done j List.mem_cons_self)
    · exact rest.done j mem

/-- A training that has ended leaves what the others' has left. -/
theorem State.TrainingEnded.channels {b : State} {x : List (Nat × Nat)} (h : k < 16) (ended : b.TrainingEnded t c k)
    (ready : s.ConcMoves b c { s.conc c with mc := { (s.conc c).mc with settings := x } }) (stamp : b.stamp c = s.stamp c)
    (now : t.now = s.now) (fields : s.FieldsBut (onPage (pgDTRAIN c) (failFields k ++ settingFields k)) t)
    (count : b.stored (pgDTRAIN c) Reg.DTRAIN.TRAIN_CNT = s.stored (pgDTRAIN c) Reg.DTRAIN.TRAIN_CNT)
    (kept : ∀ i, (mapFind i (s.conc c).mc.settings).isSome = true → (mapFind i x).isSome = true)
    (found : t.flag (pgDTRAIN c) (Reg.DTRAIN.CH_TRAIN_DEGRADED.nth k) = true ∨ (mapFind (p * 16 + k) x).isSome = true) :
    s.ChannelsTrained t c p [k] := by
  obtain ⟨conc, -, counted⟩ := ended
  rw [ready.own, stamp] at conc
  have moved := ready.trans conc
  have same : t.stamp c = s.stamp c := by
    rw [State.stamp, State.stamp, now, (fields.far (pgDRAM_ne_pgDTRAIN c)).stored]
  have done : t.channelDone c p k := ⟨by rwa [moved.own], by rw [moved.own, same]; exact mapFind_mapPut_same ..⟩
  refine ⟨⟨_, _, moved⟩, fields.mono fun y hy => ⟨k, h, hy⟩, same, fun below => ?_, fun j hj before => ?_, fun j mem => ?_⟩
  · simp only [List.length_cons, List.length_nil] at below ⊢
    rw [counted (by omega), count]
  · by_cases e : j = k
    · exact e ▸ done
    · obtain ⟨settings, trained⟩ := before
      have flag : t.flag (pgDTRAIN c) (Reg.DTRAIN.CH_TRAIN_DEGRADED.nth j) = s.flag (pgDTRAIN c) (Reg.DTRAIN.CH_TRAIN_DEGRADED.nth j) := by
        refine (fields.own (chTrain_fits hj) ?_).flag
        simp [failFields, degradedFields, settingFields, bitsApart, FieldRef.nth, Reg.HDR.EVT_PENDING, Reg.DTRAIN.TRAIN_FAIL_CNT,
          Reg.DTRAIN.TRAIN_STAT_CHAN, Reg.DTRAIN.TRAIN_CNT, Reg.HDR.COUNTER_OVF, Reg.DTRAIN.CH_TRAIN_DEGRADED, Reg.DTRAIN.TRAIN_STAT,
          Reg.DTRAIN.CH_TRAIN_RD_DLY, Reg.DTRAIN.CH_TRAIN_WR_DLY, Reg.DTRAIN.CH_TRAIN_VREF]
        omega
      refine ⟨?_, ?_⟩
      · rw [flag, moved.own]
        exact settings.imp id (kept _)
      · rw [moved.own, same]
        exact (mapFind_mapPut_ne e ..).trans trained
  · exact List.mem_singleton.1 mem ▸ done

/-- A channel's training leaves what the others' has left. -/
theorem State.trainOne_trained (h : k < 16) (s : State) (c : Conc) (p : Nat) : s.ChannelsTrained (s.trainOne c p k) c p [k] := by
  obtain ⟨v, hv⟩ : ∃ v, v = Config.freeValue s.freeCount := ⟨_, rfl⟩
  obtain ⟨d, hd⟩ : ∃ d : State, d = { s with freeCount := s.freeCount + 1 } := ⟨_, rfl⟩
  have eq : s.trainOne c p k = if v.testBit 24 then (d.setTrain c k (mapGetD 0 (p * 16 + k) (d.conc c).mc.settings)).trainFailed c k
      else (d.setPoint c p k (v % 2 ^ 24)).trained c k := by rw [hd, hv]; rfl
  have drawn (F : Nat × FieldRef → Prop) : s.FieldsBut F d := hd ▸ .of rfl rfl
  have conc (x : Conc) : d.conc x = s.conc x := by rw [hd]; cases x <;> rfl
  have now : d.now = s.now := by rw [hd]
  have apart : ∀ f ∈ settingFields k, bitsApart f Reg.DTRAIN.TRAIN_CNT = true := by
    simp [settingFields, bitsApart, FieldRef.nth, Reg.DTRAIN.TRAIN_CNT, Reg.DTRAIN.CH_TRAIN_RD_DLY, Reg.DTRAIN.CH_TRAIN_WR_DLY,
      Reg.DTRAIN.CH_TRAIN_VREF]
    omega
  have stamp : d.stamp c = s.stamp c := by rw [hd]; rfl
  rw [eq]
  split
  · obtain ⟨b, hb⟩ : ∃ b, b = d.setTrain c k (mapGetD 0 (p * 16 + k) (d.conc c).mc.settings) := ⟨_, rfl⟩
    obtain ⟨-, -, -, concs, time, set⟩ := State.setTrain_leaves h d c (mapGetD 0 (p * 16 + k) (d.conc c).mc.settings)
    rw [← hb] at concs time set ⊢
    obtain ⟨ended, degraded, -, -, fails⟩ := State.trainFailed_leaves h b c
    refine ended.channels (x := (s.conc c).mc.settings) h (.of_conc fun x => (concs x).trans (conc x)) ?_ ?_ ?_ ?_ (fun _ => id) (.inl degraded)
    · rw [← stamp, State.stamp, State.stamp, time, (set.far (pgDRAM_ne_pgDTRAIN c)).stored]
    · exact ((State.trainFailed_only (L := 24664) (.refl b) c k (by decide)).now rfl).trans (time.trans now)
    · exact ((drawn _).trans (set.mono (onPage.sub (List.subset_append_right _ _)))).trans
        (fails.mono (onPage.sub (List.subset_append_left _ _)))
    · exact ((drawn _).trans set |>.own (by decide) apart).stored
  · obtain ⟨b, hb⟩ : ∃ b, b = d.setPoint c p k (v % 2 ^ 24) := ⟨_, rfl⟩
    obtain ⟨moved, -, -, -, time, set⟩ := State.setPoint_leaves h d c p (v % 2 ^ 24)
    rw [← hb] at moved time set ⊢
    obtain ⟨ended, ends⟩ := State.trained_ended h b c
    rw [conc] at moved
    refine ended.channels h ⟨moved.own, moved.other.trans (conc _)⟩ (time.trans stamp) ?_ ?_ ?_ (fun i found => ?_) (.inr ?_)
    · exact ((State.trained_only (L := 24600) (.refl b) c k (by decide)).now rfl).trans (hb ▸
        ((State.setPoint_only (L := 24600) (.refl d) c p k _ (by decide)).now rfl).trans now)
    · exact ((drawn _).trans (set.mono (onPage.sub (List.subset_append_right _ _)))).trans
        (ends.mono (onPage.sub (by simp [failFields])))
    · exact ((drawn _).trans set |>.own (by decide) apart).stored
    · by_cases e : i = p * 16 + k
      · rw [e, mapFind_mapPut_same]
        rfl
      · rwa [mapFind_mapPut_ne e]
    · rw [mapFind_mapPut_same]
      rfl

theorem State.each_trainOne (l : List Nat) (h : ∀ k ∈ l, k < 16) (s : State) (c : Conc) (p : Nat) :
    s.ChannelsTrained (s.each l fun s k => s.trainOne c p k) c p l := by
  induction l generalizing s with
  | nil => exact .nil s c p
  | cons k l ih =>
    have small := h k List.mem_cons_self
    exact .cons small (State.trainOne_trained small s c p) (ih (fun j mem => h j (List.mem_cons_of_mem k mem)) _)

theorem ConcSt.allLive_lt {cs : ConcSt} {k : Nat} (h : k ∈ cs.allLive) : k < 16 := by
  simp only [ConcSt.allLive, ConcSt.liveChans, Bool.false_eq_true, if_false, if_true, List.mem_append, List.mem_filter, List.mem_range,
    List.mem_map] at h
  omega

theorem ConcSt.allLive_length (cs : ConcSt) : cs.allLive.length ≤ 16 := by
  have replay := List.length_filter_le (fun k => cs.retR != some k) (List.range 10)
  have shadow := List.length_filter_le (fun k => cs.retS != some k) ((List.range 6).map (· + 10))
  simp only [ConcSt.allLive, ConcSt.liveChans, Bool.false_eq_true, if_false, if_true, List.length_append]
  simp only [List.length_range, List.length_map] at replay shadow
  omega

/-! ### The writes that waited are issued (R300) -/

/-- Nothing differs but which pages of the stack are open. -/
def State.PagesOpened (s t : State) (c : Conc) : Prop := ∃ rows, t = s.setMc c { (s.conc c).mc with openRows := rows }

theorem State.PagesOpened.refl (s : State) (c : Conc) : s.PagesOpened s c := ⟨(s.conc c).mc.openRows, by cases c <;> rfl⟩

theorem State.PagesOpened.trans (h : s.PagesOpened t c) (k : t.PagesOpened u c) : s.PagesOpened u c := by
  obtain ⟨_, rfl⟩ := h
  obtain ⟨rows, rfl⟩ := k
  exact ⟨rows, by cases c <;> rfl⟩

/-- What fills the buffers' fields (R314). -/
def wbufFields : List FieldRef := [Reg.DRAM.WBUF_R_KIB, Reg.DRAM.WBUF_S_KIB, Reg.DRAM.WBUF_PEAK_R_KIB, Reg.DRAM.WBUF_PEAK_S_KIB]

theorem State.showWbuf_leaves (s : State) (c : Conc) :
    (∀ d, (s.showWbuf c).conc d = s.conc d) ∧ s.FieldsBut (onPage (pgDRAM c) wbufFields) (s.showWbuf c) := by
  refine ⟨fun d => (State.showWbuf_only (L := 24) (.refl s) c (by decide)).conc d, ?_⟩
  exact (((State.fieldsBut_put (f := Reg.DRAM.WBUF_R_KIB) .mem s _).trans
    (State.fieldsBut_put (f := Reg.DRAM.WBUF_S_KIB) .mem _ _)).trans
    (State.fieldsBut_peak (f := Reg.DRAM.WBUF_PEAK_R_KIB) .mem _ _)).trans
    (State.fieldsBut_peak (f := Reg.DRAM.WBUF_PEAK_S_KIB) .mem _ _)

theorem State.issueBuffered_leaves (s : State) (c : Conc) :
    (∃ rows, s.ConcMoves (s.issueBuffered c []) c { s.conc c with mc := { (s.conc c).mc with buffered := [], openRows := rows } }) ∧
      s.FieldsBut (onPage (pgDRAM c) wbufFields) (s.issueBuffered c []) := by
  have opened (l : List Nat) (w : List (Bool × Nat)) (a : State) : a.PagesOpened (a.each l fun a i =>
      a.bufferedUnit c (w.getD i (false, 0)).1 (w.getD i (false, 0)).2 i (Reads.at_ [] i)) c :=
    State.each_keeps (P := fun t => a.PagesOpened t c) (fun t i _ h => h.trans ⟨_, rfl⟩) (.refl a c)
  obtain ⟨rows, eq⟩ := opened (List.range (s.conc c).mc.buffered.length) (s.conc c).mc.buffered
    (s.setMc c { (s.conc c).mc with buffered := [] })
  have issued : s.issueBuffered c [] = (State.setMc (s.setMc c { (s.conc c).mc with buffered := [] }) c
      { ((s.setMc c { (s.conc c).mc with buffered := [] }).conc c).mc with openRows := rows }).showWbuf c := by
    rw [← eq]
    rfl
  obtain ⟨conc, fields⟩ := State.showWbuf_leaves (State.setMc (s.setMc c { (s.conc c).mc with buffered := [] }) c
      { ((s.setMc c { (s.conc c).mc with buffered := [] }).conc c).mc with openRows := rows }) c
  rw [issued]
  refine ⟨⟨rows, State.ConcMoves.then ?_ conc⟩, ((State.fieldsBut_setMc ..).trans (State.fieldsBut_setMc ..)).trans fields⟩
  have emptied := s.concMoves_setMc c { (s.conc c).mc with buffered := [] }
  have moved := (s.setMc c { (s.conc c).mc with buffered := [] }).concMoves_setMc c
    { ((s.setMc c { (s.conc c).mc with buffered := [] }).conc c).mc with openRows := rows }
  rw [emptied.own] at moved
  rw [emptied.own]
  exact emptied.trans moved

/-! ### The change is over (R297) -/

/-- The temperature that is held acts on what is postponed and open alone. -/
theorem State.applyTemp_leaves (s : State) (c : Conc) : s.FieldsBut (onPage (pgDRAM c) heatFields) (s.applyTemp c) ∧
    (∀ i, (s.rd (pgDRAM c) Reg.HDR.EVT_PENDING.off).getLsbD i = true →
      ((s.applyTemp c).rd (pgDRAM c) Reg.HDR.EVT_PENDING.off).getLsbD i = true) ∧
    ∃ m, s.ConcMoves (s.applyTemp c) c { s.conc c with mc := m } ∧
      (m = (s.conc c).mc ∨ m = (s.conc c).mc.cap (s.fld (pgDRAM c) Reg.DRAM.REF_CTRL_HOT_POSTPONE)) := by
  unfold State.applyTemp
  extract_lets temp hot
  split_ifs
  · obtain ⟨turned, fields⟩ := s.turnHot_turned c
    exact ⟨fields, turned.pends, _, turned.conc, .inr rfl⟩
  · obtain ⟨-, -, conc, fields⟩ := s.turnCool_turned c
    refine ⟨fields, fun i pends => ?_, _, .of_conc conc, .inl rfl⟩
    refine State.event_keeps_bit ?_ 2
    rwa [State.putB, State.rd_put_ne (regKey_ne_off (by decide))]
  · exact ⟨.refl s, fun _ => id, _, .refl s c, .inl rfl⟩

/-- A change ends: the point is its target, service resumes with no refresh postponed, and the change is counted. -/
def State.changeEnds (s : State) (c : Conc) : State :=
  let m := (s.conc c).mc
  let s := (s.put (pgDRAM c) Reg.DRAM.STAT_FREQ m.target).putB (pgDRAM c) Reg.DRAM.STAT_CHANGING false
  let s := (s.setMc c { m with postponed := [] }).putB (pgDTRAIN c) Reg.DTRAIN.TRAIN_STAT_BUSY false
  (s.bump (pgDRAM c) Reg.DRAM.FREQ_CNT 0).event (pgDRAM c) 3

/-- The fields that the end of a change writes on the DRAM page. -/
def changeFields : List FieldRef :=
  [Reg.DRAM.STAT_FREQ, Reg.DRAM.STAT_CHANGING, Reg.DRAM.FREQ_CNT, Reg.HDR.COUNTER_OVF, Reg.HDR.EVT_PENDING]

structure State.ChangeEnded (s t : State) (c : Conc) : Prop where
  point : (s.conc c).mc.target < 3 → t.point c = (s.conc c).mc.target
  busy : t.dramBusy c = false
  count : s.below (pgDRAM c) [Reg.DRAM.FREQ_CNT] 1 →
    t.stored (pgDRAM c) Reg.DRAM.FREQ_CNT = s.stored (pgDRAM c) Reg.DRAM.FREQ_CNT + 1
  event : (t.rd (pgDRAM c) Reg.HDR.EVT_PENDING.off).getLsbD 3 = true
  training : t.stored (pgDTRAIN c) Reg.DTRAIN.TRAIN_STAT_BUSY = 0
  conc : s.ConcMoves t c { s.conc c with mc := { (s.conc c).mc with postponed := [] } }
  stamp : t.stamp c = s.stamp c
  fields : s.FieldsBut (onDram c changeFields [Reg.DTRAIN.TRAIN_STAT_BUSY]) t

theorem State.changeEnds_ended (s : State) (c : Conc) : s.ChangeEnded (s.changeEnds c) c := by
  obtain ⟨m, hm⟩ : ∃ m, m = (s.conc c).mc := ⟨_, rfl⟩
  obtain ⟨a, ha⟩ : ∃ a, a = s.put (pgDRAM c) Reg.DRAM.STAT_FREQ m.target := ⟨_, rfl⟩
  obtain ⟨b, hb⟩ : ∃ b, b = (a.putB (pgDRAM c) Reg.DRAM.STAT_CHANGING false).setMc c { m with postponed := [] } := ⟨_, rfl⟩
  obtain ⟨d, hd⟩ : ∃ d, d = b.putB (pgDTRAIN c) Reg.DTRAIN.TRAIN_STAT_BUSY false := ⟨_, rfl⟩
  obtain ⟨e, he⟩ : ∃ e, e = d.bump (pgDRAM c) Reg.DRAM.FREQ_CNT 0 := ⟨_, rfl⟩
  obtain ⟨t, ht⟩ : ∃ t, t = e.event (pgDRAM c) 3 := ⟨_, rfl⟩
  have eq : s.changeEnds c = t := by rw [ht, he, hd, hb, ha, hm]; rfl
  have first : s.FieldsBut (onPage (pgDRAM c) [Reg.DRAM.STAT_FREQ]) a := ha ▸ State.fieldsBut_put .mem ..
  have second : a.FieldsBut (onPage (pgDRAM c) [Reg.DRAM.STAT_CHANGING]) b :=
    hb ▸ (State.fieldsBut_putB .mem ..).trans (State.fieldsBut_setMc ..)
  have third : b.FieldsBut (onPage (pgDTRAIN c) [Reg.DTRAIN.TRAIN_STAT_BUSY]) d := hd ▸ State.fieldsBut_putB .mem ..
  have fourth : d.FieldsBut (onPage (pgDRAM c) [Reg.DRAM.FREQ_CNT, Reg.HDR.COUNTER_OVF]) e := he ▸ State.fieldsBut_bump .mem .mem ..
  have fifth : e.FieldsBut (onPage (pgDRAM c) [Reg.HDR.EVT_PENDING]) t := ht ▸ State.fieldsBut_event .mem ..
  have page := pgDRAM_ne_pgDTRAIN c
  have fields : s.FieldsBut (onDram c changeFields [Reg.DTRAIN.TRAIN_STAT_BUSY]) t :=
    ((((first.mono fun x h => .inl (onPage.sub (by decide) x h)).trans (second.mono fun x h => .inl (onPage.sub (by decide) x h))).trans
      (third.mono fun _ => .inr)).trans (fourth.mono fun x h => .inl (onPage.sub (by decide) x h))).trans
      (fifth.mono fun x h => .inl (onPage.sub (by decide) x h))
  have moved : s.ConcMoves t c { s.conc c with mc := { (s.conc c).mc with postponed := [] } } := by
    have start (x : Conc) : (a.putB (pgDRAM c) Reg.DRAM.STAT_CHANGING false).conc x = s.conc x := by rw [ha]; simp
    have set := (a.putB (pgDRAM c) Reg.DRAM.STAT_CHANGING false).concMoves_setMc c { m with postponed := [] }
    rw [start, ← hb, hm] at set
    refine State.ConcMoves.then ⟨set.own, set.other.trans (start _)⟩ fun x => ?_
    rw [ht, he, hd]
    simp
  have now : t.now = s.now := by
    rw [ht, he, hd, hb, ha]
    simp [State.setMc]
  rw [eq]
  refine ⟨fun small => ?_, ?_, fun below => ?_, ?_, ?_, moved, ?_, fields⟩
  · rw [State.point, fifth.own.stored, fourth.own.stored, (third.far page).stored, second.own.stored, ha, hm]
    exact (State.stored_put_same (f := Reg.DRAM.STAT_FREQ) (by decide) (by decide) ..).trans (Nat.mod_eq_of_lt (by
      show _ < 2 ^ 2
      omega))
  · rw [State.dramBusy, fifth.own.flag, fourth.own.flag, (third.far page).flag, hb]
    refine ((State.fieldsBut_setMc (F := fun _ => False) ..).field _ _ (by decide) nofun).flag.trans ?_
    exact State.flag_putB_same (f := Reg.DRAM.STAT_CHANGING) (by decide) (by decide) ..
  · rw [fifth.own.stored, he]
    exact below.bumped ((third.far page).stored.trans (second.own.stored.trans first.own.stored)) ⟨rfl, rfl⟩ 0
  · rw [ht]
    exact State.event_pends (by decide) ..
  · rw [(fifth.far page.symm).stored, (fourth.far page.symm).stored, hd]
    exact State.stored_putB_same (f := Reg.DTRAIN.TRAIN_STAT_BUSY) (by decide) (by decide) ..
  · rw [State.stamp, State.stamp, now, (fields.dram (g := Reg.DRAM.TEMP_TEMP)).stored]

/-- A timing set is read from DTRAIN alone. -/
theorem State.timingSet_congr (h : ∀ o, 0x100 ≤ o → o < 0x1C0 → s.SameReg t (pgDTRAIN c) o) (p : Nat) :
    t.timingSet c p = s.timingSet c p := by
  refine List.map_congr_left fun i hi => (h _ ?_ ?_).2 <;>
  · have := List.mem_range.1 hi
    unfold tsetReg
    split_ifs <;> simp only [FieldRef.nth, Reg.DTRAIN.TSET_F0, Reg.DTRAIN.TSET_F1, Reg.DTRAIN.TSET_F2] <;> omega

theorem State.freqChangeDone_eq (busy : s.dramBusy c = true) (frozen : s.dramFrozen c = false) :
    s.freqChangeDone c [] = (((((s.changeEnds c).trainAll c (s.conc c).mc.target).issueBuffered c []).applyTemp c).pinPoint c) :=
  if_pos (by simp [busy, frozen])

/-- What the training of all channels, the writes that waited, the temperature and a point that is not pinned leave, once a change is
over. -/
structure State.ServiceResumed (s t : State) (c : Conc) (p : Nat) : Prop where
  dram : ∀ g : FieldRef, g.fits = true → (∀ f ∈ wbufFields ++ heatFields, bitsApart f g = true) → s.SameField t (pgDRAM c) g
  pends : ∀ i, (s.rd (pgDRAM c) Reg.HDR.EVT_PENDING.off).getLsbD i = true → (t.rd (pgDRAM c) Reg.HDR.EVT_PENDING.off).getLsbD i = true
  timing : (t.conc c).mc.timing = s.timingSet c p
  postponed : (s.conc c).mc.postponed = [] → (t.conc c).mc.postponed = []
  buffered : (t.conc c).mc.buffered = []
  training : t.stored (pgDTRAIN c) Reg.DTRAIN.TRAIN_STAT_BUSY = s.stored (pgDTRAIN c) Reg.DTRAIN.TRAIN_STAT_BUSY
  count : s.stored (pgDTRAIN c) Reg.DTRAIN.TRAIN_CNT + 16 < 2 ^ 32 →
    t.stored (pgDTRAIN c) Reg.DTRAIN.TRAIN_CNT = s.stored (pgDTRAIN c) Reg.DTRAIN.TRAIN_CNT + (s.conc c).allLive.length
  done : ∀ k ∈ (s.conc c).allLive, (t.flag (pgDTRAIN c) (Reg.DTRAIN.CH_TRAIN_DEGRADED.nth k) = true ∨
    (mapFind (p * 16 + k) (t.conc c).mc.settings).isSome = true) ∧ mapFind k (t.conc c).mc.trained = some (s.stamp c)
  other : t.conc c.other = s.conc c.other

/-- TRAIN_STAT.BUSY shares no bit with what the training of a channel writes. -/
theorem busy_apart (h : k < 16) : ∀ f ∈ failFields k ++ settingFields k, bitsApart f Reg.DTRAIN.TRAIN_STAT_BUSY = true := by
  simp [failFields, degradedFields, settingFields, bitsApart, FieldRef.nth, Reg.HDR.EVT_PENDING, Reg.DTRAIN.TRAIN_FAIL_CNT,
    Reg.DTRAIN.TRAIN_STAT_CHAN, Reg.DTRAIN.TRAIN_CNT, Reg.HDR.COUNTER_OVF, Reg.DTRAIN.CH_TRAIN_DEGRADED, Reg.DTRAIN.TRAIN_STAT,
    Reg.DTRAIN.CH_TRAIN_RD_DLY, Reg.DTRAIN.CH_TRAIN_WR_DLY, Reg.DTRAIN.CH_TRAIN_VREF, Reg.DTRAIN.TRAIN_STAT_BUSY]
  omega

theorem State.trainAll_resumed (s : State) (c : Conc) (p : Nat) :
    s.ServiceResumed (((s.trainAll c p).issueBuffered c []).applyTemp c) c p := by
  obtain ⟨a, ha⟩ : ∃ a, a = s.setMc c { (s.conc c).mc with timing := s.timingSet c p } := ⟨_, rfl⟩
  obtain ⟨e, he⟩ : ∃ e, e = s.trainAll c p := ⟨_, rfl⟩
  obtain ⟨f, hf⟩ : ∃ f, f = e.issueBuffered c [] := ⟨_, rfl⟩
  have loaded := s.concMoves_setMc c { (s.conc c).mc with timing := s.timingSet c p }
  have timed (F : Nat × FieldRef → Prop) : s.FieldsBut F a := ha ▸ State.fieldsBut_setMc ..
  obtain ⟨⟨x, y, trains⟩, fields, stamp, count, -, done⟩ :=
    State.each_trainOne (s.conc c).allLive (fun k mem => ConcSt.allLive_lt mem) a c p
  rw [← ha] at loaded
  have eq : a.each (s.conc c).allLive (fun s k => s.trainOne c p k) = e := by rw [ha, he]; rfl
  rw [eq] at trains fields stamp count done
  obtain ⟨⟨rows, issues⟩, shown⟩ := State.issueBuffered_leaves e c
  rw [← hf] at issues shown
  obtain ⟨heated, pends, m, temps, capped⟩ := f.applyTemp_leaves c
  rw [← he, ← hf]
  have page := pgDRAM_ne_pgDTRAIN c
  have training (g : FieldRef) (hg : g.fits = true) : s.SameField e (pgDRAM c) g := by
    refine ((timed _).trans fields).field _ g hg ?_
    rintro ⟨q, z⟩ ⟨k, -, page', -⟩
    exact fieldsApart_of_off fun e => page ((Prod.mk.inj e).1.trans page')
  have dtrain (g : FieldRef) (hg : g.fits = true) : e.SameField (f.applyTemp c) (pgDTRAIN c) g :=
    (shown.far page.symm hg).trans (heated.far page.symm hg)
  have final : m.timing = s.timingSet c p ∧ ((s.conc c).mc.postponed = [] → m.postponed = []) ∧ m.buffered = [] ∧ m.settings = x ∧
      m.trained = y := by
    rw [issues.own, trains.own, loaded.own] at capped
    rcases capped with rfl | rfl
    · exact ⟨rfl, id, rfl, rfl, rfl⟩
    · exact ⟨rfl, fun none => by simp [DramSt.cap, none], rfl, rfl, rfl⟩
  obtain ⟨hTiming, hPostponed, hBuffered, hSettings, hTrained⟩ := final
  have start : a.stamp c = s.stamp c := by rw [ha]; cases c <;> rfl
  refine ⟨fun g hg apart => ?_, fun i pending => ?_, ?_, ?_, ?_, ?_, fun below => ?_, fun k mem => ?_, ?_⟩
  · exact ((training g hg).trans (shown.own hg fun f mem => apart f (List.mem_append_left _ mem))).trans
      (heated.own hg fun f mem => apart f (List.mem_append_right _ mem))
  · refine pends i ?_
    rw [shown.pending]
    exact (congrArg (BitVec.getLsbD · i) (training Reg.HDR.EVT_PENDING (by decide)).reg).trans pending
  · rw [temps.own]
    exact hTiming
  · rw [temps.own]
    exact hPostponed
  · rw [temps.own]
    exact hBuffered
  · rw [(dtrain Reg.DTRAIN.TRAIN_STAT_BUSY (by decide)).stored]
    refine (((timed _).trans fields).field _ _ (by decide) ?_).stored
    rintro ⟨q, z⟩ ⟨k, small, -, mem⟩
    exact fieldsApart_of_bits (busy_apart small z mem)
  · have live := (s.conc c).allLive_length
    have same := ((timed (fun _ => False)).field (pgDTRAIN c) Reg.DTRAIN.TRAIN_CNT (by decide) nofun).stored
    rw [(dtrain Reg.DTRAIN.TRAIN_CNT (by decide)).stored, count (by omega), same]
  · obtain ⟨found, when_⟩ := done k mem
    have flag := (dtrain (Reg.DTRAIN.CH_TRAIN_DEGRADED.nth k) (chTrain_fits (ConcSt.allLive_lt mem))).flag
    rw [trains.own] at found when_
    rw [flag, temps.own]
    dsimp only
    rw [hSettings, hTrained, ← start, ← stamp]
    exact ⟨found, when_⟩
  · exact (temps.other.trans issues.other).trans (trains.other.trans loaded.other)

end

end Sys2Proof.Machine
end

section
/-!
PROOFS. The family of the lookback memory: host reads (R312), and the memory follows demand and temperature (R294-R303).
-/

set_option Elab.async false

namespace Sys2Proof.Machine

/-! ### Host reads (R294, R312) -/

section

variable {s t : State} {c : Conc}

theorem fieldPut_whole (off v : Nat) (w : Word) : fieldPut ⟨off, 31, 0⟩ v w = BitVec.ofNat 32 v :=
  BitVec.eq_of_toNat_eq ((fieldGet_whole off _).symm.trans
    ((fieldGet_fieldPut_same ⟨off, 31, 0⟩ v w (by decide : 31 < 32) (by decide : 0 ≤ 31)).trans (BitVec.toNat_ofNat ..).symm))

/-- The fields that the end of a host read writes. -/
def HostField (c : Conc) (x : Nat × FieldRef) : Prop :=
  x.1 = pgDRAM c ∧ (x.2 ∈ [Reg.DRAM.HOST_CTRL_BUSY, Reg.DRAM.HOST_CTRL_POISON] ∨ ∃ w < 8, x.2 = Reg.DRAM.HOST_DATA.nth w)

theorem hostData_fits {w : Nat} (h : w < 8) : (Reg.DRAM.HOST_DATA.nth w).fits = true := by
  simp [FieldRef.fits, FieldRef.nth, Reg.DRAM.HOST_DATA]
  omega

/-- The words of HOST_DATA, each with its value. -/
theorem State.putHostData_rd {w : Nat} (h : w < 8) (s : State) (c : Conc) (v : Nat → Nat) :
    (s.each (List.range 8) fun s w => s.put (pgDRAM c) (Reg.DRAM.HOST_DATA.nth w) (v w)).rd (pgDRAM c)
      (Reg.DRAM.HOST_DATA.off + 4 * w) = BitVec.ofNat 32 (v w) := by
  have place : Reg.DRAM.HOST_DATA.off + 4 * w = (Reg.DRAM.HOST_DATA.nth w).off := congrArg (Reg.DRAM.HOST_DATA.off + ·) (Nat.mul_comm 4 w)
  have own (s : State) : (s.put (pgDRAM c) (Reg.DRAM.HOST_DATA.nth w) (v w)).rd (pgDRAM c) (Reg.DRAM.HOST_DATA.nth w).off =
      BitVec.ofNat 32 (v w) := (State.rd_put_same ..).trans (fieldPut_whole ..)
  rw [place]
  refine State.each_reaches (P := fun t => t.rd (pgDRAM c) (Reg.DRAM.HOST_DATA.nth w).off = BitVec.ofNat 32 (v w))
    (f := fun s w => s.put (pgDRAM c) (Reg.DRAM.HOST_DATA.nth w) (v w)) own (fun s b kept => ?_) (List.mem_range.2 h) s
  by_cases same : b = w
  · exact same ▸ own s
  · rwa [State.rd_put_ne (regKey_ne_off (by simp only [FieldRef.nth]; omega))]

theorem State.hostResult_leaves (s : State) (c : Conc) (poison : Bool) (v : BitVec 256) :
    let t := s.hostResult c poison v
    t.stored (pgDRAM c) Reg.DRAM.HOST_CTRL_BUSY = 0 ∧ t.stored (pgDRAM c) Reg.DRAM.HOST_CTRL_POISON = poison.toNat ∧
      (∀ w < 8, t.rd (pgDRAM c) (Reg.DRAM.HOST_DATA.off + 4 * w) =
        BitVec.ofNat 32 (if poison then 0 else v.toNat / 2 ^ (32 * (7 - w)))) ∧ s.FieldsBut (HostField c) t := by
  obtain ⟨u, hu⟩ : ∃ u, u = s.each (List.range 8) fun s w =>
      s.put (pgDRAM c) (Reg.DRAM.HOST_DATA.nth w) (if poison then 0 else v.toNat / 2 ^ (32 * (7 - w))) := ⟨_, rfl⟩
  obtain ⟨w, hw⟩ : ∃ w, w = u.putB (pgDRAM c) Reg.DRAM.HOST_CTRL_POISON poison := ⟨_, rfl⟩
  obtain ⟨t, ht⟩ : ∃ t, t = w.putB (pgDRAM c) Reg.DRAM.HOST_CTRL_BUSY false := ⟨_, rfl⟩
  have eq : s.hostResult c poison v = t := by rw [ht, hw, hu]; rfl
  have filled : s.FieldsBut (HostField c) u := hu ▸ .each (fun a i mem =>
    State.fieldsBut_put ⟨rfl, .inr ⟨i, List.mem_range.1 mem, rfl⟩⟩ a _ (hostData_fits (List.mem_range.1 mem))) s
  have marked : u.FieldsBut (onPage (pgDRAM c) [Reg.DRAM.HOST_CTRL_POISON]) w := hw ▸ State.fieldsBut_putB .mem ..
  have ended : w.FieldsBut (onPage (pgDRAM c) [Reg.DRAM.HOST_CTRL_BUSY]) t := ht ▸ State.fieldsBut_putB .mem ..
  dsimp only
  rw [eq]
  refine ⟨?_, ?_, fun i hi => ?_, ?_⟩
  · rw [ht]
    exact State.stored_putB_same (f := Reg.DRAM.HOST_CTRL_BUSY) (by decide) (by decide) ..
  · rw [ended.own.stored, hw]
    exact State.stored_putB_same (f := Reg.DRAM.HOST_CTRL_POISON) (by decide) (by decide) ..
  · have data : t.rd (pgDRAM c) (Reg.DRAM.HOST_DATA.off + 4 * i) = u.rd (pgDRAM c) (Reg.DRAM.HOST_DATA.off + 4 * i) := by
      have apart {f : FieldRef} (off : f.off = 0x0B0) : ∀ x ∈ [f], bitsApart x ⟨Reg.DRAM.HOST_DATA.off + 4 * i, 31, 0⟩ = true := by
        simp only [List.mem_singleton, forall_eq, bitsApart, off, Reg.DRAM.HOST_DATA, decide_eq_true_eq]
        omega
      have fits : (⟨Reg.DRAM.HOST_DATA.off + 4 * i, 31, 0⟩ : FieldRef).fits = true := by
        simp [FieldRef.fits, Reg.DRAM.HOST_DATA]
        omega
      exact (ended.own fits (apart rfl)).reg.trans (marked.own fits (apart rfl)).reg
    rw [data, hu]
    exact State.putHostData_rd hi s c fun w => if poison then 0 else v.toNat / 2 ^ (32 * (7 - w))
  · exact (filled.trans (marked.mono fun x h => ⟨h.1, .inl (by simp_all [onPage])⟩)).trans
      (ended.mono fun x h => ⟨h.1, .inl (by simp_all [onPage])⟩)

/-- A concentrator that has served the host's read of a unit (R296). -/
def ConcSt.hostServed (v : ConcSt) (h : HostRead) : ConcSt :=
  ConcSt.openPage { v with host := none, mc := { v.mc with promo := v.mc.promo.filter (fun x => x.1 != .host) } } h.shadow h.unit

/-- A read of the host that is next completes with the unit, poisoned or delivered clean. -/
theorem State.hostReadDone_clean {h : HostRead} (host : (s.conc c).host = some h) (frozen : s.dramFrozen c = false)
    (busy : s.dramBusy c = false) (next : s.servesNow c h.shadow .host = true) (within : h.unit < s.groupUnits c h.shadow) :
    s.hostReadDone c .clean = (s.setConc c ((s.conc c).hostServed h)).hostResult c ((s.conc c).isPoison h.shadow h.unit)
      (if (s.conc c).isPoison h.shadow h.unit then 0 else (s.conc c).getU h.shadow h.unit) := by
  obtain ⟨u, hu⟩ : ∃ u, u = (s.setConc c { s.conc c with host := none }).served c .host := ⟨_, rfl⟩
  obtain ⟨v, hv⟩ : ∃ v : ConcSt, v =
      { s.conc c with host := none, mc := { (s.conc c).mc with promo := (s.conc c).mc.promo.filter (fun x => x.1 != .host) } } := ⟨_, rfl⟩
  have eq : u = s.setConc c v := by rw [hu, hv]; cases c <;> rfl
  have conc : u.conc c = v := by rw [eq, State.setConc_conc_same]
  have same : u.groupUnits c h.shadow = s.groupUnits c h.shadow := by rw [eq]; cases c <;> rfl
  have poison : (v.openPage h.shadow h.unit).isPoison h.shadow h.unit = (s.conc c).isPoison h.shadow h.unit := by rw [hv]; rfl
  have unit : (v.openPage h.shadow h.unit).getU h.shadow h.unit = (s.conc c).getU h.shadow h.unit := by rw [hv]; rfl
  have opened : u.setConc c (v.openPage h.shadow h.unit) = s.setConc c ((s.conc c).hostServed h) := by
    rw [eq, hv]
    cases c <;> rfl
  have read : u.hostUnit c h .clean = (s.setConc c ((s.conc c).hostServed h)).hostResult c ((s.conc c).isPoison h.shadow h.unit)
      (if (s.conc c).isPoison h.shadow h.unit then 0 else (s.conc c).getU h.shadow h.unit) := by
    rw [State.hostUnit, if_neg nofun, conc, poison, unit, opened]
    cases (s.conc c).isPoison h.shadow h.unit <;> rfl
  rw [State.hostReadDone, host]
  dsimp only
  rw [if_neg (by simp [frozen, busy, next]), ← hu, if_pos (by rwa [same]), read]

/-! ### Promotion and temperature (R295, R301) -/

/-- A promotion that finds a read. -/
theorem State.agePromotion_leaves {shadow : Bool} {cls at_ : Nat} {r : DramReq} (limit : s.ageLimit c cls ≠ 0)
    (found : s.overAge c shadow cls (max s.now at_) = some r) (below : s.below (pgDRAM c) [Reg.DRAM.PROMO_CNT] 1) :
    let t := s.agePromotion c shadow cls at_
    t.conc c = { s.conc c with mc := (s.conc c).mc.promoted r (cls - 1) (max s.now at_) } ∧ t.now = max s.now at_ ∧
      t.stored (pgDRAM c) Reg.DRAM.PROMO_CNT = s.stored (pgDRAM c) Reg.DRAM.PROMO_CNT + 1 ∧
      s.keepsRegs [(pgDRAM c, Reg.DRAM.PROMO_CNT.off)] t := by
  obtain ⟨u, hu⟩ : ∃ u, u = (s.advance at_).setMc c ((s.conc c).mc.promoted r (cls - 1) (max s.now at_)) := ⟨_, rfl⟩
  have moved : u.conc c = { s.conc c with mc := (s.conc c).mc.promoted r (cls - 1) (max s.now at_) } := by
    rw [hu, ((s.advance at_).concMoves_setMc c _).own, State.advance_conc]
  have fields : s.FieldsBut (onPage (pgDRAM c) [Reg.DRAM.PROMO_CNT]) u := hu ▸ .trans (t := s.advance at_) (.of rfl rfl) (State.fieldsBut_setMc ..)
  have same : u.stored (pgDRAM c) Reg.DRAM.PROMO_CNT = s.stored (pgDRAM c) Reg.DRAM.PROMO_CNT := by
    rw [hu]
    cases c <;> rfl
  have room : u.stored (pgDRAM c) Reg.DRAM.PROMO_CNT + 1 < 2 ^ 32 := same ▸ below _ List.mem_cons_self
  dsimp only
  rw [State.agePromotion_eq limit found, ← hu]
  refine ⟨(State.bump_conc ..).trans moved, ?_, below.bumped same ⟨rfl, rfl⟩ 3, ?_⟩
  · rw [State.bump_now, hu]
    exact State.setConc_now ..
  · rw [State.bump_eq_put (f := Reg.DRAM.PROMO_CNT) room]
    refine (fields.trans (State.fieldsBut_put .mem ..)).keepsRegs ?_
    rintro ⟨q, f⟩ ⟨rfl, mem⟩
    exact List.mem_singleton.1 mem ▸ List.mem_cons_self

/-- TEMP holds the temperature, and nothing else differs. -/
theorem State.heldTemp_leaves (s : State) (c : Conc) {temp : Int} (low : -512 ≤ temp) (high : temp < 512) :
    let t := s.put (pgDRAM c) Reg.DRAM.TEMP_TEMP (unsignedOf 10 temp)
    s.FieldsBut (onPage (pgDRAM c) [Reg.DRAM.TEMP_TEMP]) t ∧ signedOf 10 (t.stored (pgDRAM c) Reg.DRAM.TEMP_TEMP) = temp ∧
      ∀ d, t.conc d = s.conc d := by
  refine ⟨State.fieldsBut_put .mem .., ?_, fun d => State.put_conc ..⟩
  rw [State.stored_put_same (f := Reg.DRAM.TEMP_TEMP) (by decide) (by decide)]
  exact signedOf_unsignedOf low high

/-! ### Demand (R298) -/

/-- What a change leaves that is asked for while none runs: it begins, or waits for a retraining (R297, R313). -/
theorem State.startChange_begins {g : Nat} (frozen : s.dramFrozen c = false) (busy : s.dramBusy c = false) (ne : s.point c ≠ g) :
    let t := s.startChange c g
    let m := (s.conc c).mc
    t.conc c.other = s.conc c.other ∧
      (s.retrainPending c = false → t.dramBusy c = true ∧ t.point c = s.point c ∧
        t.conc c = { s.conc c with mc := { m with target := g, openRows := [], lowWindows := 0, waits := none } } ∧
        t.stored (pgDTRAIN c) Reg.DTRAIN.TRAIN_STAT_BUSY = 1 ∧
        s.keepsRegs [(pgDRAM c, Reg.DRAM.STAT.off), (pgDTRAIN c, Reg.DTRAIN.TRAIN_STAT.off)] t) ∧
      (s.retrainPending c = true → t.conc c = { s.conc c with mc := { m with waits := some g } } ∧ s.keepsRegs [] t) := by
  dsimp only
  rw [State.startChange_eq frozen busy ne]
  cases s.retrainPending c with
  | true =>
    have moved := s.concMoves_setMc c { (s.conc c).mc with waits := some g }
    exact ⟨moved.other, nofun, fun _ => ⟨moved.own, (State.fieldsBut_setMc (F := fun _ => False) ..).keepsRegs nofun⟩⟩
  | false =>
    obtain ⟨moved, changing, training, fields⟩ := s.changeBegins_begun c g
    refine ⟨moved.other, fun _ => ⟨changing, (fields.dram (g := Reg.DRAM.STAT_FREQ)).stored, moved.own, training,
      fields.keepsRegs ?_⟩, nofun⟩
    rintro ⟨q, f⟩ (⟨rfl, mem⟩ | ⟨rfl, mem⟩)
    · exact List.mem_singleton.1 mem ▸ List.mem_cons_self
    · exact List.mem_singleton.1 mem ▸ List.mem_cons_of_mem _ List.mem_cons_self

/-- The controller's own state is no register. -/
theorem State.setMc_keeps_regs (s : State) (c : Conc) (m : DramSt) : s.keepsRegs [] (s.setMc c m) :=
  (State.fieldsBut_setMc (F := fun _ => False) ..).keepsRegs nofun

section

variable {rb sb : Nat}

theorem State.demandWindow_idle (h : s.fld (pgDRAM c) Reg.DRAM.CTRL_FREQ_PIN ≠ 0 ∨ s.dramFrozen c = true ∨ s.dramBusy c = true) :
    s.demandWindow c rb sb = s.setMc c { (s.conc c).mc with lowWindows := 0 } := if_pos h

variable (pin : s.fld (pgDRAM c) Reg.DRAM.CTRL_FREQ_PIN = 0) (frozen : s.dramFrozen c = false) (busy : s.dramBusy c = false)

include pin frozen busy

/-- A window that counts judges demand against what the groups carry at the present point and the next lower one. -/
theorem State.demandWindow_judges : s.demandWindow c rb sb =
    if s.point c ≠ 0 ∧ (s.windowBytes c false (s.point c) < 2 * rb ∨ s.windowBytes c true (s.point c) < 2 * sb) then s.startChange c 0
    else if s.point c < 2 ∧ 4 * rb < s.windowBytes c false (s.point c + 1) ∧ 4 * sb < s.windowBytes c true (s.point c + 1) then
      (if 10 * s.fld (pgDRAM c) Reg.DRAM.CTRL_DOWN_MS ≤ (s.conc c).mc.lowWindows + 1 then s.startChange c (s.point c + 1)
       else s.setMc c { (s.conc c).mc with lowWindows := (s.conc c).mc.lowWindows + 1 })
    else s.setMc c { (s.conc c).mc with lowWindows := 0 } := if_neg (by simp [pin, frozen, busy])

end

end

/-! ### The obligation -/

/-- Settles O53: each event is one update of the controller (`State.agePromotion_eq`, `State.refreshDue_postponed`, `State.tempSample_eq`,
`State.demandWindow_judges`, `State.hostReadDone_clean`); the end of a change is followed through the training of every live channel
(`State.trainAll_resumed`). -/
theorem theMemoryFollowsDemandAndTemperature : Obligations.TheMemoryFollowsDemandAndTemperature := by
  unfold Obligations.TheMemoryFollowsDemandAndTemperature
  refine ⟨⟨?_, ?_, ?_, ?_, ?_⟩, ?_, ?_, ?_, ?_⟩
  · intro s c shadow cls at_ r m now past powered run awake limit due first below
    obtain ⟨conc, time, count, regs⟩ := State.agePromotion_leaves limit (State.overAge_longest due first) below
    refine ⟨_, exec_whileDram powered run awake _, time, conc, ?_, ?_, fun x other => ?_, count, regs,
      (State.agePromotion_only (L := 24601) (.refl s) c shadow cls at_ (by decide)).changes (by decide)⟩
    · exact conc ▸ DramSt.promoted_clsOf ..
    · exact conc ▸ DramSt.promoted_place ..
    · exact conc ▸ DramSt.promoted_clsOf_ne other ..
  · intro s c chan bank powered run awake timer frozen busy live
    have moved := s.concMoves_setMc c ((s.conc c).mc.closePage (chan.val * 16 + bank.val))
    refine ⟨_, exec_whileDram powered run awake _, ?_⟩
    rw [State.pageIdleClose_eq timer frozen busy live]
    exact ⟨moved.own, (State.setMc_only (L := 24576) (.refl s) c _ (by decide)).changes (by decide), moved.other⟩
  · intro s c chan bank m b powered run awake live busy below
    refine ⟨_, exec_whileDram powered run awake _, ?_⟩
    cases frozen : s.dramFrozen c with
    | true =>
      have moved := s.concMoves_setMc c (m.closePage b)
      rw [State.refreshDue_frozen busy live frozen]
      exact ⟨moved.other, nofun, nofun, fun _ => ⟨moved.own, s.setMc_keeps_regs c _⟩⟩
    | false =>
      by_cases room : m.count b < s.refreshLimit c
      · have moved := s.concMoves_setMc c (m.setCount b (m.count b + 1))
        rw [State.refreshDue_postponed busy live frozen room]
        exact ⟨moved.other, fun _ _ => ⟨moved.own, s.setMc_keeps_regs c _⟩, fun _ full => absurd room (Nat.not_lt.2 full), nofun⟩
      · have moved := s.concMoves_setMc c (m.closePage b)
        rw [State.refreshDue_urgent busy live frozen (Nat.le_of_not_lt room)]
        have left := moved.then (u := (s.setMc c (m.closePage b)).bump (pgDRAM c) Reg.DRAM.REF_URGENT_CNT 1) fun d => State.bump_conc ..
        exact ⟨left.other, fun _ less => absurd less room, fun _ _ => ⟨left.own, below.bumped (State.setConc_stored ..) ⟨rfl, rfl⟩ 1⟩,
          nofun⟩
  · intro s c chan bank m b powered run awake some frozen busy live
    have moved := s.concMoves_setMc c ((m.closePage b).setCount b (m.count b - 1))
    refine ⟨_, exec_whileDram powered run awake _, ?_⟩
    rw [State.postponedRefresh_eq some frozen busy live]
    refine ⟨?_, ?_, (State.setMc_only (L := 24576) (.refl s) c _ (by decide)).changes (by decide), moved.other⟩
    · rw [moved.own]
      exact DramSt.count_setCount ..
    · rw [moved.own]
      rfl
  · intro s c temp p hot lim extra powered run idle low high hots urgent
    refine ⟨_, exec_tempSample powered run temp, ?_⟩
    rw [State.tempSample_eq idle]
    obtain ⟨held, value, parts⟩ := s.heldTemp_leaves c low high
    generalize s.put p Reg.DRAM.TEMP_TEMP (unsignedOf 10 temp) = u at held value parts
    have is : u.flag p Reg.DRAM.STAT_HOT = hot := held.own.flag
    have hotAt : u.fld p Reg.DRAM.REF_CTRL_HOT_C = s.fld p Reg.DRAM.REF_CTRL_HOT_C := held.own.fld
    have coolAt : u.fld p Reg.DRAM.REF_CTRL_COOL_C = s.fld p Reg.DRAM.REF_CTRL_COOL_C := held.own.fld
    have limit : u.fld p Reg.DRAM.REF_CTRL_HOT_POSTPONE = lim := held.own.fld
    have excess : u.hotExcess c = extra := by rw [State.hotExcess, limit, parts]
    have same : s.keepsRegs [(p, Reg.DRAM.TEMP.off)] u := held.keepsRegs (by
      rintro ⟨q, f⟩ ⟨rfl, mem⟩
      exact List.mem_singleton.1 mem ▸ List.mem_cons_self)
    obtain ⟨fields, -, m, moved, -⟩ := u.applyTemp_leaves c
    refine ⟨by rw [fields.own.stored, value], moved.other.trans (parts _), fun cold above => ?_, fun warm under => ?_,
      fun cold under => ?_, fun warm above => ?_⟩
    · rw [State.applyTemp_hot hot is cold (by rwa [hotAt, value])]
      obtain ⟨turned, -⟩ := u.turnHot_turned c
      have limits := ((u.conc c).mc.cap_limits lim)
      rw [parts] at limits
      have own := turned.conc.own
      rw [limit, parts] at own
      have counter (f : FieldRef) (n : Nat) (room : s.below p [f] n) (here : u.stored p f = s.stored p f) : u.below p [f] n :=
        fun g mem => List.mem_singleton.1 mem ▸ here ▸ room f List.mem_cons_self
      have hotCount : u.stored p Reg.DRAM.HOT_CNT = s.stored p Reg.DRAM.HOT_CNT := held.own.stored
      have urgentCount : u.stored p Reg.DRAM.REF_URGENT_CNT = s.stored p Reg.DRAM.REF_URGENT_CNT := held.own.stored
      refine ⟨turned.hot, turned.event, ?_, ?_, ?_⟩
      · rw [turned.hots (counter _ _ hots hotCount), hotCount]
      · rw [turned.urgent (excess ▸ counter _ _ urgent urgentCount), urgentCount, excess]
      · rw [own]
        exact limits
    · rw [State.applyTemp_cool hot is warm (by rwa [coolAt, value])]
      obtain ⟨cool, event, conc, -⟩ := u.turnCool_turned c
      exact ⟨cool, event, (conc c).trans (parts c)⟩
    · rw [State.applyTemp_stays hot is (by rw [cold, hotAt, value]; exact under)]
      exact ⟨parts c, same⟩
    · rw [State.applyTemp_stays hot is (by rw [warm, coolAt, value]; exact above)]
      exact ⟨parts c, same⟩
  · intro s c rb sb f m high low begins powered run awake pin frozen busy
    refine ⟨_, exec_whileDram powered run awake _, ?_⟩
    have parts := (State.demandWindow_only (L := 24600) (.refl s) c rb sb (by decide)).changes
      (l := [.regs, .stale, .concA, .concB]) (by decide)
    rw [State.demandWindow_judges pin frozen busy] at parts ⊢
    by_cases above : high
    · rw [if_pos above] at parts ⊢
      obtain ⟨other, begun⟩ := State.startChange_begins frozen busy above.1
      exact ⟨other, parts, fun _ => begun, (absurd above ·), (absurd above ·), (absurd above ·)⟩
    · rw [if_neg above] at parts ⊢
      by_cases under : low
      · rw [if_pos under] at parts ⊢
        by_cases long : 10 * s.fld (pgDRAM c) Reg.DRAM.CTRL_DOWN_MS ≤ (s.conc c).mc.lowWindows + 1
        · rw [if_pos long] at parts ⊢
          obtain ⟨other, begun⟩ := State.startChange_begins (g := s.point c + 1) frozen busy (Nat.ne_of_lt (Nat.lt_succ_self _))
          exact ⟨other, parts, (absurd · above), fun _ _ _ => begun, fun _ _ short => absurd long (Nat.not_le.2 short),
            fun _ none => absurd under none⟩
        · rw [if_neg long] at parts ⊢
          have moved := s.concMoves_setMc c { (s.conc c).mc with lowWindows := (s.conc c).mc.lowWindows + 1 }
          exact ⟨moved.other, parts, (absurd · above), fun _ _ enough => absurd enough long,
            fun _ _ _ => ⟨moved.own, s.setMc_keeps_regs c _⟩, fun _ none => absurd under none⟩
      · rw [if_neg under] at parts ⊢
        have moved := s.concMoves_setMc c { (s.conc c).mc with lowWindows := 0 }
        exact ⟨moved.other, parts, (absurd · above), fun _ some => absurd some under, fun _ some => absurd some under,
          fun _ _ => ⟨moved.own, s.setMc_keeps_regs c _⟩⟩
  · intro s c rb sb powered run awake idle
    have moved := s.concMoves_setMc c { (s.conc c).mc with lowWindows := 0 }
    refine ⟨_, exec_whileDram powered run awake _, ?_⟩
    rw [State.demandWindow_idle idle]
    exact ⟨moved.own, moved.other, (State.setMc_only (L := 24576) (.refl s) c _ (by decide)).changes (by decide)⟩
  · intro s c cs p powered run busy frozen small pin below counts
    obtain ⟨e, he⟩ : ∃ e, e = s.changeEnds c := ⟨_, rfl⟩
    obtain ⟨t, ht⟩ : ∃ t, t = ((e.trainAll c cs.mc.target).issueBuffered c []).applyTemp c := ⟨_, rfl⟩
    obtain ⟨point, still, counted, event, training, conc, stamp, fields⟩ := s.changeEnds_ended c
    rw [← he] at point still counted event training conc stamp fields
    obtain ⟨dram, pends, timing, postponed, buffered, trains, trainings, done, other⟩ := e.trainAll_resumed c cs.mc.target
    rw [← ht] at dram pends timing postponed buffered trains trainings done other
    have live : (e.conc c).allLive = cs.liveChans false ++ cs.liveChans true := by rw [conc.own]; rfl
    have unpinned : t.pinPoint c = t := if_pos (by
      rw [(dram Reg.DRAM.CTRL_FREQ_PIN (by decide) (by decide)).fld, (fields.dram (g := Reg.DRAM.CTRL_FREQ_PIN)).fld, pin])
    have sets : e.timingSet c cs.mc.target = s.timingSet c cs.mc.target := State.timingSet_congr (fun o low high => by
      refine fields.sameReg (by omega) ?_
      rintro ⟨q, f⟩ (⟨rfl, mem⟩ | ⟨rfl, mem⟩)
      · exact fieldsApart_of_off fun e => pgDRAM_ne_pgDTRAIN c (Prod.mk.inj e).1.symm
      · rw [List.mem_singleton.1 mem]
        exact fieldsApart_of_off fun e => Nat.ne_of_gt (Nat.lt_of_lt_of_le (by decide) low) (Prod.mk.inj e).2) _
    have before : e.stored (pgDTRAIN c) Reg.DTRAIN.TRAIN_CNT = s.stored (pgDTRAIN c) Reg.DTRAIN.TRAIN_CNT := fields.dtrain.stored
    refine ⟨t, (exec_freqChangeDone powered run []).trans (congrArg Host.Outcome.next ?_), ?_, ?_, ?_, pends 3 event, timing.trans sets,
      postponed ?_, buffered, trains.trans training, ?_, fun k mem => ?_, other.trans conc.other⟩
    · rw [State.freqChangeDone_eq busy frozen, ← he, ← ht, unpinned]
    · rw [State.point, (dram Reg.DRAM.STAT_FREQ (by decide) (by decide)).stored]
      exact point small
    · rw [State.dramBusy, (dram Reg.DRAM.STAT_CHANGING (by decide) (by decide)).flag]
      exact still
    · rw [(dram Reg.DRAM.FREQ_CNT (by decide) (by decide)).stored]
      exact counted below
    · rw [conc.own]
    · have room := counts Reg.DTRAIN.TRAIN_CNT List.mem_cons_self
      rw [trainings (by rwa [before]), before, live]
    · have trained := done k (live ▸ mem)
      rwa [stamp] at trained
  · intro s c h p powered run awake host frozen busy next within
    obtain ⟨idle, poison, data, fields⟩ := (s.setConc c ((s.conc c).hostServed h)).hostResult_leaves c ((s.conc c).isPoison h.shadow h.unit)
      (if (s.conc c).isPoison h.shadow h.unit then 0 else (s.conc c).getU h.shadow h.unit)
    refine ⟨_, exec_whileDram powered run awake _, ?_⟩
    rw [State.hostReadDone_clean host frozen busy next within]
    have moved := s.concMoves_setConc c ((s.conc c).hostServed h)
    have conc (d : Conc) := (State.hostResult_only (L := 24) (.refl (s.setConc c ((s.conc c).hostServed h))) c
      ((s.conc c).isPoison h.shadow h.unit) (if (s.conc c).isPoison h.shadow h.unit then 0 else (s.conc c).getU h.shadow h.unit)
      (by decide)).conc d
    have served := (moved.then conc).own
    refine ⟨by rw [served]; rfl, idle, poison, fun w small => ?_, by rw [served]; rfl, by rw [served]; rfl, (moved.then conc).other, ?_,
      (State.hostResult_only (L := 24600) (State.setConc_only (.refl s) _ _ (by decide)) _ _ _ (by decide)).changes (by decide)⟩
    · rw [data w small]
      cases (s.conc c).isPoison h.shadow h.unit <;> rfl
    · intro q o ho out
      exact ((State.fieldsBut_setConc ..).trans fields).sameReg ho fun x hx =>
        fieldsApart_of_off fun e => out (List.mem_singleton.2 ((Prod.mk.inj e).1.trans hx.1))

end Sys2Proof.Machine
end

section
/-!
PROOFS. The family of the lookback memory: channels are retrained and retired, a controller freezes (R305-R311).
-/

set_option Elab.async false

namespace Sys2Proof.Machine

section

variable {s t u : State} {c : Conc} {k : Nat}

/-! ### Retraining (R305) -/

/-- What a retraining's result leaves. -/
structure State.Retrained (s t : State) (c : Conc) (k : Nat) (v : Option (BitVec 24)) : Prop where
  count : s.stored (pgDTRAIN c) Reg.DTRAIN.TRAIN_CNT + 1 < 2 ^ 32 →
    t.stored (pgDTRAIN c) Reg.DTRAIN.TRAIN_CNT = s.stored (pgDTRAIN c) Reg.DTRAIN.TRAIN_CNT + 1
  chan : t.stored (pgDTRAIN c) Reg.DTRAIN.TRAIN_STAT_CHAN = k
  trained : mapFind k (t.conc c).mc.trained = some (s.stamp c)
  degraded : t.flag (pgDTRAIN c) (Reg.DTRAIN.CH_TRAIN_DEGRADED.nth k) = v.isNone
  other : t.conc c.other = s.conc c.other
  found : ∀ x, v = some x → mapFind (s.point c * 16 + k) (t.conc c).mc.settings = some x.toNat ∧
    t.stored (pgDTRAIN c) (Reg.DTRAIN.CH_TRAIN_RD_DLY.nth k) = x.toNat / 65536 ∧
    t.stored (pgDTRAIN c) (Reg.DTRAIN.CH_TRAIN_WR_DLY.nth k) = x.toNat / 256 % 256 ∧
    t.stored (pgDTRAIN c) (Reg.DTRAIN.CH_TRAIN_VREF.nth k) = x.toNat % 256
  failed : v = none → (t.rd (pgDTRAIN c) Reg.HDR.EVT_PENDING.off).getLsbD 0 = true ∧
    (s.stored (pgDTRAIN c) Reg.DTRAIN.TRAIN_FAIL_CNT + 1 < 2 ^ 32 →
      t.stored (pgDTRAIN c) Reg.DTRAIN.TRAIN_FAIL_CNT = s.stored (pgDTRAIN c) Reg.DTRAIN.TRAIN_FAIL_CNT + 1)

/-- A field of CH_TRAIN shares no bit with a register below it. -/
theorem chTrain_apart {l : List FieldRef} {g : FieldRef} (off : g.off = 0x080) (h : ∀ f ∈ l, f.off < 0x080) :
    ∀ f ∈ l, bitsApart f (g.nth k) = true := by
  intro f mem
  have low := h f mem
  simp only [bitsApart, FieldRef.nth, off, decide_eq_true_eq]
  omega

/-- The places of DEGRADED share no bit with another register below CH_TRAIN. -/
theorem degraded_apart {g : FieldRef} (low : g.off < 0x080) (off : g.off ≠ Reg.DTRAIN.TRAIN_STAT.off) :
    ∀ f ∈ degradedFields k, bitsApart f g = true := by
  simp only [degradedFields, List.mem_cons, List.not_mem_nil, or_false, bitsApart, decide_eq_true_eq]
  rintro f (rfl | rfl)
  · simp only [FieldRef.nth, Reg.DTRAIN.CH_TRAIN_DEGRADED]
    omega
  · exact .inl (Ne.symm off)

/-- The settings share no bit with a register below CH_TRAIN. -/
theorem setting_apart {g : FieldRef} (low : g.off < 0x080) : ∀ f ∈ settingFields k, bitsApart f g = true := by
  simp only [settingFields, List.mem_cons, List.not_mem_nil, or_false, bitsApart, decide_eq_true_eq]
  rintro f (rfl | rfl | rfl) <;>
  · simp only [FieldRef.nth, Reg.DTRAIN.CH_TRAIN_RD_DLY, Reg.DTRAIN.CH_TRAIN_WR_DLY, Reg.DTRAIN.CH_TRAIN_VREF]
    omega

/-- A setting that is found: the channel takes it, and is not degraded. -/
theorem State.retrained_found (h : k < 16) (s : State) (c : Conc) (x : BitVec 24) : s.Retrained (s.retrained c k (some x)) c k (some x) := by
  obtain ⟨moved, reads, writes, levels, stamp, set⟩ := s.setPoint_leaves h c (s.point c) x.toNat
  obtain ⟨a, ha⟩ : ∃ a, a = s.setPoint c (s.point c) k x.toNat := ⟨_, rfl⟩
  rw [← ha] at moved reads writes levels stamp set
  obtain ⟨degraded, marks⟩ := State.setDegraded_leaves h a c false
  obtain ⟨b, hb⟩ : ∃ b, b = a.setDegraded c k false := ⟨_, rfl⟩
  rw [← hb] at degraded marks
  obtain ⟨⟨conc, chan, count⟩, ends⟩ := b.trained_ended h c
  have eq : s.retrained c k (some x) = b.trained c k := by rw [hb, ha]; rfl
  have ended : ∀ f ∈ [Reg.DTRAIN.TRAIN_STAT_CHAN, Reg.DTRAIN.TRAIN_CNT, Reg.HDR.COUNTER_OVF], f.off < 0x080 := by decide
  have setting {g : FieldRef} (off : g.off = 0x080) (bits : g.hi < 31) (fits : (g.nth k).fits = true) :
      ((b.trained c k).stored (pgDTRAIN c) (g.nth k)) = a.stored (pgDTRAIN c) (g.nth k) := by
    refine (ends.own fits (chTrain_apart off ended)).stored.trans (marks.own fits fun f mem => ?_).stored
    simp only [degradedFields, List.mem_cons, List.not_mem_nil, or_false] at mem
    rcases mem with rfl | rfl
    · exact decide_eq_true (.inr (.inr bits))
    · exact chTrain_apart (l := [⟨Reg.DTRAIN.TRAIN_STAT.off, k, k⟩]) off (by simp [Reg.DTRAIN.TRAIN_STAT]) _ List.mem_cons_self
  have kept : b.stored (pgDTRAIN c) Reg.DTRAIN.TRAIN_CNT = s.stored (pgDTRAIN c) Reg.DTRAIN.TRAIN_CNT := by
    rw [(marks.own (by decide) (degraded_apart (by decide) (by decide))).stored, (set.own (by decide) (setting_apart (by decide))).stored]
  have same (d : Conc) : b.conc d = a.conc d := hb ▸ (State.setDegraded_only (L := 24) (.refl a) c k false (by decide)).conc d
  have now : b.stamp c = s.stamp c := by
    rw [← stamp, State.stamp, State.stamp, (marks.far (pgDRAM_ne_pgDTRAIN c)).stored, hb,
      (State.setDegraded_only (L := 24) (.refl a) c k false (by decide)).now rfl]
  rw [eq]
  refine ⟨fun room => ?_, chan, ?_, ?_, ?_, ?_, nofun⟩
  · rw [count (by rwa [kept]), kept]
  · rw [conc.own, ← now]
    exact mapFind_mapPut_same ..
  · rw [(ends.own (chTrain_fits h) (chTrain_apart rfl ended)).flag]
    exact degraded
  · exact conc.other.trans ((same _).trans moved.other)
  · rintro _ ⟨⟩
    have small : x.toNat / 65536 < 256 := Nat.div_lt_of_lt_mul x.isLt
    rw [conc.own, same, moved.own, setting rfl (by decide) (chTrain_fits h), setting rfl (by decide) (chTrain_fits h),
      setting rfl (by decide) (chTrain_fits h)]
    exact ⟨mapFind_mapPut_same .., reads.trans (Nat.mod_eq_of_lt small), writes, levels⟩

/-- No setting passes: the channel is degraded. -/
theorem State.retrained_none (h : k < 16) (s : State) (c : Conc) : s.Retrained (s.retrained c k none) c k none := by
  obtain ⟨⟨conc, chan, count⟩, degraded, event, fails, -⟩ := s.trainFailed_leaves h c
  refine ⟨count, chan, ?_, degraded, conc.other, nofun, fun _ => ⟨event, fails⟩⟩
  exact (congrArg (fun v => mapFind k v.mc.trained) conc.own).trans (mapFind_mapPut_same ..)

theorem State.retrained_retrained (h : k < 16) (s : State) (c : Conc) (v : Option (BitVec 24)) :
    s.Retrained (s.retrained c k v) c k v := by
  cases v with
  | none => exact s.retrained_none h c
  | some x => exact s.retrained_found h c x

/-- A change that has waited leaves the result of the retraining. -/
theorem State.Retrained.waited {v : Option (BitVec 24)} (h : k < 16) (r : s.Retrained t c k v) : s.Retrained (t.waitedChange c) c k v := by
  unfold State.waitedChange
  split
  next p _ =>
    obtain ⟨fields, m, moved, trained, settings⟩ := t.startChange_leaves c p
    have busy : ∀ f ∈ [Reg.DTRAIN.TRAIN_STAT_BUSY], f.off < 0x080 := by decide
    have places {g : FieldRef} (off : g.off = 0x080) (fits : (g.nth k).fits = true) :
        t.SameField (t.startChange c p) (pgDTRAIN c) (g.nth k) := fields.dtrain fits (chTrain_apart off busy)
    refine ⟨fun room => ?_, ?_, ?_, ?_, moved.other.trans r.other, fun x is => ?_, fun is => ?_⟩
    · rw [(fields.dtrain (g := Reg.DTRAIN.TRAIN_CNT)).stored, r.count room]
    · rw [(fields.dtrain (g := Reg.DTRAIN.TRAIN_STAT_CHAN)).stored, r.chan]
    · rw [moved.own]
      exact trained ▸ r.trained
    · rw [(places rfl (chTrain_fits h)).flag, r.degraded]
    · rw [(places rfl (chTrain_fits h)).stored, (places rfl (chTrain_fits h)).stored, (places rfl (chTrain_fits h)).stored, moved.own]
      exact settings ▸ r.found x is
    · obtain ⟨event, count⟩ := r.failed is
      have pending : (t.startChange c p).rd (pgDTRAIN c) Reg.HDR.EVT_PENDING.off = t.rd (pgDTRAIN c) Reg.HDR.EVT_PENDING.off :=
        (fields.dtrain (g := Reg.HDR.EVT_PENDING)).reg
      rw [pending, (fields.dtrain (g := Reg.DTRAIN.TRAIN_FAIL_CNT)).stored]
      exact ⟨event, count⟩
  · exact r

/-! ### A retired channel is shown (R306, R308) -/

/-- A field of a page that an update leaves alone. -/
theorem State.FieldsBut.page {F : Nat × FieldRef → Prop} {q : Nat} {g : FieldRef} (h : s.FieldsBut F t) (out : ∀ x, F x → x.1 ≠ q)
    (hg : g.fits = true := by decide) : s.SameField t q g :=
  h.field q g hg fun x hx => fieldsApart_of_off fun e => out x hx (Prod.mk.inj e).1.symm

/-- The flag of a group that has a retired channel. -/
def retReg (shadow : Bool) : FieldRef := if shadow then Reg.DRAM.RETIRED_S_RET else Reg.DRAM.RETIRED_R_RET
/-- Which channel of a group is retired. -/
def retChanReg (shadow : Bool) : FieldRef := if shadow then Reg.DRAM.RETIRED_S_CHAN else Reg.DRAM.RETIRED_R_CHAN
/-- A group's capacity, shown. -/
def retCapReg (shadow : Bool) : FieldRef := if shadow then Reg.DRAM.SHADOW_CAP_MIB else Reg.DRAM.REPLAY_CAP_MIB
/-- The capacity of a group with a retired channel, in MiB (R306, R308). -/
def retCap (shadow : Bool) : Nat := if shadow then 0x1DF0 else 0x35E0
/-- The fields of RETIRED, and of the capacity, of a group. -/
def retFields (shadow : Bool) : List FieldRef := [retReg shadow, retChanReg shadow, retCapReg shadow]

/-- The retirement in a group is shown. -/
def State.retShown (s : State) (c : Conc) (shadow : Bool) (k : Nat) : State :=
  (((s.putB (pgDRAM c) (retReg shadow) true).put (pgDRAM c) (retChanReg shadow) k).putB (pgDTRAIN c) (Reg.DTRAIN.CH_TRAIN_RETIRED.nth k)
    true).put (pgDRAM c) (retCapReg shadow) (retCap shadow)

/-- A group that holds a retired channel shows it. -/
def State.groupShown (s : State) (c : Conc) (shadow : Bool) (x : Option Nat) : State := x.elim s (s.retShown c shadow)

theorem State.showRetired_eq (s : State) (c : Conc) :
    s.showRetired c = (s.groupShown c false (s.conc c).retR).groupShown c true (s.conc c).retS := by
  unfold State.showRetired
  dsimp only
  cases (s.conc c).retR <;> cases (s.conc c).retS <;> rfl

/-- The channel is shown as retired. -/
structure State.RetShown (s : State) (c : Conc) (shadow : Bool) (k : Nat) : Prop where
  ret : s.stored (pgDRAM c) (retReg shadow) = 1
  chan : s.stored (pgDRAM c) (retChanReg shadow) = k
  cap : s.stored (pgDRAM c) (retCapReg shadow) = retCap shadow
  flag : s.flag (pgDTRAIN c) (Reg.DTRAIN.CH_TRAIN_RETIRED.nth k) = true

theorem State.retShown_shown (h : k < 16) (s : State) (c : Conc) (shadow : Bool) : (s.retShown c shadow k).RetShown c shadow k := by
  obtain ⟨a, ha⟩ : ∃ a, a = s.putB (pgDRAM c) (retReg shadow) true := ⟨_, rfl⟩
  obtain ⟨b, hb⟩ : ∃ b, b = a.put (pgDRAM c) (retChanReg shadow) k := ⟨_, rfl⟩
  obtain ⟨d, hd⟩ : ∃ d, d = b.putB (pgDTRAIN c) (Reg.DTRAIN.CH_TRAIN_RETIRED.nth k) true := ⟨_, rfl⟩
  obtain ⟨t, ht⟩ : ∃ t, t = d.put (pgDRAM c) (retCapReg shadow) (retCap shadow) := ⟨_, rfl⟩
  have eq : s.retShown c shadow k = t := by rw [ht, hd, hb, ha]; rfl
  have second : a.FieldsBut (onPage (pgDRAM c) [retChanReg shadow]) b :=
    hb ▸ State.fieldsBut_put (.mem List.mem_cons_self) a k (by cases shadow <;> decide)
  have third : b.FieldsBut (onPage (pgDTRAIN c) [Reg.DTRAIN.CH_TRAIN_RETIRED.nth k]) d :=
    hd ▸ State.fieldsBut_putB (.mem List.mem_cons_self) b true (chTrain_fits h)
  have fourth : d.FieldsBut (onPage (pgDRAM c) [retCapReg shadow]) t :=
    ht ▸ State.fieldsBut_put (.mem List.mem_cons_self) d _ (by cases shadow <;> decide)
  have page := pgDRAM_ne_pgDTRAIN c
  rw [eq]
  constructor
  · rw [(fourth.own (by cases shadow <;> decide) (by cases shadow <;> decide)).stored, (third.far page (by cases shadow <;> decide)).stored,
      (second.own (by cases shadow <;> decide) (by cases shadow <;> decide)).stored, ha]
    cases shadow
    · exact State.stored_putB_same (f := Reg.DRAM.RETIRED_R_RET) (by decide) (by decide) ..
    · exact State.stored_putB_same (f := Reg.DRAM.RETIRED_S_RET) (by decide) (by decide) ..
  · rw [(fourth.own (by cases shadow <;> decide) (by cases shadow <;> decide)).stored, (third.far page (by cases shadow <;> decide)).stored, hb]
    cases shadow
    · exact (State.stored_put_same (f := Reg.DRAM.RETIRED_R_CHAN) (by decide) (by decide) ..).trans (Nat.mod_eq_of_lt h)
    · exact (State.stored_put_same (f := Reg.DRAM.RETIRED_S_CHAN) (by decide) (by decide) ..).trans (Nat.mod_eq_of_lt h)
  · rw [ht]
    cases shadow
    · exact State.stored_put_same (f := Reg.DRAM.REPLAY_CAP_MIB) (by decide) (by decide) ..
    · exact State.stored_put_same (f := Reg.DRAM.SHADOW_CAP_MIB) (by decide) (by decide) ..
  · rw [(fourth.far page.symm (chTrain_fits h)).flag, hd]
    exact State.flag_putB_same (f := Reg.DTRAIN.CH_TRAIN_RETIRED.nth k) (by decide : 30 ≤ 30) (by decide : 30 < 32) ..

/-- What the other group shows leaves the fields of the DRAM page that are not its own, whatever channel it holds: CH_TRAIN lies past
them. -/
theorem State.retShown_dram {shadow : Bool} {g : FieldRef} {j : Nat} (hg : g.fits = true)
    (ha : ∀ f ∈ retFields shadow, bitsApart f g = true) (s : State) (c : Conc) : s.SameField (s.retShown c shadow j) (pgDRAM c) g := by
  have apart (f : FieldRef) (mem : f ∈ retFields shadow) : fieldsApart (pgDRAM c) f (pgDRAM c) g = true := fieldsApart_of_bits (ha f mem)
  have past : regKey (pgDRAM c) g.off ≠ regKey (pgDTRAIN c) (Reg.DTRAIN.CH_TRAIN_RETIRED.nth j).off := by
    simp only [FieldRef.fits, decide_eq_true_eq] at hg
    simp only [regKey, pgDRAM, pgDTRAIN, FieldRef.nth, Reg.DTRAIN.CH_TRAIN_RETIRED]
    omega
  refine ((State.sameField_put ?_ hg (apart (retReg shadow) (by simp [retFields])) s _).trans
    (State.sameField_put ?_ hg (apart (retChanReg shadow) (by simp [retFields])) _ _)).trans
    ((State.sameReg_put past _ _).sameField.trans (State.sameField_put ?_ hg (apart (retCapReg shadow) (by simp [retFields])) _ _))
  all_goals cases shadow <;> decide

/-- A channel that is shown as retired stays so. -/
theorem State.retShown_flag {shadow : Bool} {j : Nat} (h : s.flag (pgDTRAIN c) (Reg.DTRAIN.CH_TRAIN_RETIRED.nth k) = true) (hk : k < 16) :
    (s.retShown c shadow j).flag (pgDTRAIN c) (Reg.DTRAIN.CH_TRAIN_RETIRED.nth k) = true := by
  have fits : (Reg.DTRAIN.CH_TRAIN_RETIRED.nth k).fits = true := chTrain_fits hk
  have dram (f : FieldRef) (a : State) (v : Nat) (hf : f.fits = true) :
      a.SameField (a.put (pgDRAM c) f v) (pgDTRAIN c) (Reg.DTRAIN.CH_TRAIN_RETIRED.nth k) :=
    State.sameField_put hf fits (fieldsApart_of_off fun e => pgDRAM_ne_pgDTRAIN c (Prod.mk.inj e).1.symm) a v
  have first : ((s.putB (pgDRAM c) (retReg shadow) true).put (pgDRAM c) (retChanReg shadow) j).flag (pgDTRAIN c)
      (Reg.DTRAIN.CH_TRAIN_RETIRED.nth k) = true := by
    rw [(dram _ _ _ (by cases shadow <;> decide)).flag, State.putB, (dram _ _ _ (by cases shadow <;> decide)).flag, h]
  rw [State.retShown, (dram _ _ _ (by cases shadow <;> decide)).flag]
  by_cases same : k = j
  · rw [same]
    exact State.flag_putB_same (f := Reg.DTRAIN.CH_TRAIN_RETIRED.nth j) (by decide : 30 ≤ 30) (by decide : 30 < 32) ..
  · rw [State.putB, (State.sameReg_put (regKey_ne_off ?_) ..).sameField.flag, first]
    simp only [FieldRef.nth, Reg.DTRAIN.CH_TRAIN_RETIRED]
    omega

/-- What is shown of a group is kept while the other's is shown. -/
theorem State.RetShown.kept (h : s.RetShown c false k) (hk : k < 16) (x : Option Nat) : (s.groupShown c true x).RetShown c false k := by
  cases x with
  | none => exact h
  | some j =>
    have same {g : FieldRef} (hg : g.fits = true) (ha : ∀ f ∈ retFields true, bitsApart f g = true) :
        (s.retShown c true j).stored (pgDRAM c) g = s.stored (pgDRAM c) g := (State.retShown_dram hg ha s c).stored
    exact ⟨(same (by decide) (by decide)).trans h.ret, (same (by decide) (by decide)).trans h.chan,
      (same (by decide) (by decide)).trans h.cap, State.retShown_flag h.flag hk⟩

/-- The retirements on record are shown. -/
theorem State.showRetired_shown {shadow : Bool} (h : k < 16) (holds : (if shadow then (s.conc c).retS else (s.conc c).retR) = some k) :
    (s.showRetired c).RetShown c shadow k := by
  rw [State.showRetired_eq]
  cases shadow with
  | true =>
    rw [show (s.conc c).retS = some k from holds]
    exact State.retShown_shown h ..
  | false =>
    rw [show (s.conc c).retR = some k from holds]
    exact (State.retShown_shown h s c false).kept h _

/-! ### The group's data begin at the boundary (R293, R306, R307) -/

/-- Where a group's data begin, and what is passed over. -/
def heldFields : List FieldRef :=
  [Reg.DRAM.RETIRE_SKIP_CNT, Reg.HDR.COUNTER_OVF, Reg.DRAM.REPLAY_VALID, Reg.DRAM.REPLAY_OLDEST, Reg.DRAM.SHADOW_VALID,
    Reg.DRAM.SHADOW_OLDEST]

/-- What the end of a retirement writes: the fields above, the SHEAF page, the pass over the group, and event 1. -/
def RetireField (c : Conc) (x : Nat × FieldRef) : Prop :=
  onDram c heldFields [Reg.HDR.EVT_PENDING] x ∨ x.1 = pgSHEAF c ∨ x.1 = pgDINTG c

theorem pgSHEAF_apart (c : Conc) : pgSHEAF c ≠ pgDRAM c ∧ pgSHEAF c ≠ pgDTRAIN c := by cases c <;> decide

theorem pgDINTG_apart (c : Conc) : pgDINTG c ≠ pgDRAM c ∧ pgDINTG c ≠ pgDTRAIN c := by cases c <;> decide

theorem State.FieldsBut.retireDram {g : FieldRef} (r : s.FieldsBut (RetireField c) t) (hg : g.fits = true)
    (ha : ∀ f ∈ heldFields, bitsApart f g = true) : s.SameField t (pgDRAM c) g := by
  refine r.field _ g hg ?_
  rintro ⟨q, f⟩ ((⟨-, mem⟩ | ⟨page, -⟩) | page | page)
  · exact fieldsApart_of_bits (ha f mem)
  · exact fieldsApart_of_off fun e => pgDRAM_ne_pgDTRAIN c ((Prod.mk.inj e).1.trans page)
  · exact fieldsApart_of_off fun e => (pgSHEAF_apart c).1 (page.symm.trans (Prod.mk.inj e).1.symm)
  · exact fieldsApart_of_off fun e => (pgDINTG_apart c).1 (page.symm.trans (Prod.mk.inj e).1.symm)

theorem State.FieldsBut.retireDtrain {g : FieldRef} (r : s.FieldsBut (RetireField c) t) (hg : g.fits = true)
    (ha : g.off ≠ Reg.HDR.EVT_PENDING.off) : s.SameField t (pgDTRAIN c) g := by
  refine r.field _ g hg ?_
  rintro ⟨q, f⟩ ((⟨page, -⟩ | ⟨-, mem⟩) | page | page)
  · exact fieldsApart_of_off fun e => pgDRAM_ne_pgDTRAIN c (page.symm.trans (Prod.mk.inj e).1.symm)
  · exact fieldsApart_of_off fun e => ha ((Prod.mk.inj e).2.trans (congrArg FieldRef.off (List.mem_singleton.1 mem)))
  · exact fieldsApart_of_off fun e => (pgSHEAF_apart c).2 (page.symm.trans (Prod.mk.inj e).1.symm)
  · exact fieldsApart_of_off fun e => (pgDINTG_apart c).2 (page.symm.trans (Prod.mk.inj e).1.symm)

/-- What is shown of the retired channel stays. -/
theorem State.RetShown.retired {shadow : Bool} (h : s.RetShown c shadow k) (hk : k < 16) (r : s.FieldsBut (RetireField c) t) :
    t.RetShown c shadow k := by
  have dram {g : FieldRef} (hg : g.fits = true) (ha : ∀ f ∈ heldFields, bitsApart f g = true) :
      t.stored (pgDRAM c) g = s.stored (pgDRAM c) g := (r.retireDram hg ha).stored
  have flag : t.flag (pgDTRAIN c) (Reg.DTRAIN.CH_TRAIN_RETIRED.nth k) = s.flag (pgDTRAIN c) (Reg.DTRAIN.CH_TRAIN_RETIRED.nth k) := by
    refine (r.retireDtrain (chTrain_fits hk) ?_).flag
    simp only [FieldRef.nth, Reg.DTRAIN.CH_TRAIN_RETIRED, Reg.HDR.EVT_PENDING]
    omega
  exact ⟨(dram (by cases shadow <;> decide) (by cases shadow <;> decide)).trans h.ret,
    (dram (by cases shadow <;> decide) (by cases shadow <;> decide)).trans h.chan,
    (dram (by cases shadow <;> decide) (by cases shadow <;> decide)).trans h.cap, flag.trans h.flag⟩

/-- A field of the page. -/
def ofPage (p : Nat) (x : Nat × FieldRef) : Prop := x.1 = p

theorem ofPage.mem {p : Nat} {f : FieldRef} : ofPage p (p, f) := rfl

/-- A pass over a group that ends changes the DINTG page alone, and no concentrator. -/
theorem State.abortScrub_leaves (s : State) (page : Nat) :
    (∀ d, (s.abortScrub page).conc d = s.conc d) ∧ s.FieldsBut (ofPage page) (s.abortScrub page) ∧
      mapFind page (s.abortScrub page).scrubs = none := by
  refine ⟨fun d => (State.abortScrub_only (L := 524312) (.refl s) page (by decide)).conc d, ?_, ?_⟩
  · have cut : s.FieldsBut (ofPage page) { s with scrubs := mapDel page s.scrubs } := .of rfl rfl
    exact .ite ((cut.trans (State.fieldsBut_putB (f := Reg.DINTG.SCRUB_CTRL_BUSY) .mem _ false)).trans
      (State.fieldsBut_putB (f := Reg.DINTG.SCRUB_CTRL_ABORTED) .mem _ true)) (.refl s)
  · unfold State.abortScrub
    split
    · rw [State.putB_scrubs, State.putB_scrubs]
      exact mapFind_mapDel_same ..
    next idle => exact Option.not_isSome_iff_eq_none.1 idle

theorem State.abortScrubOf_leaves (s : State) (c : Conc) (mem : Nat) :
    (∀ d, (s.abortScrubOf c mem).conc d = s.conc d) ∧ s.FieldsBut (ofPage (pgDINTG c)) (s.abortScrubOf c mem) := by
  obtain ⟨concs, fields, -⟩ := s.abortScrub_leaves (pgDINTG c)
  unfold State.abortScrubOf
  split
  · split_ifs
    exacts [⟨concs, fields⟩, ⟨fun _ => rfl, .refl s⟩]
  · exact ⟨fun _ => rfl, .refl s⟩

/-- A retirement's end: the pass over the group ends, and event 1 tells; the DRAM page stays. -/
theorem State.retireEnd_leaves (s : State) (c : Conc) (mem : Nat) :
    let t := (s.abortScrubOf c mem).event (pgDTRAIN c) 1
    (∀ d, t.conc d = s.conc d) ∧ (t.rd (pgDTRAIN c) Reg.HDR.EVT_PENDING.off).getLsbD 1 = true ∧ s.FieldsBut (RetireField c) t ∧
      ∀ g : FieldRef, g.fits = true → s.SameField t (pgDRAM c) g := by
  obtain ⟨concs, fields⟩ := s.abortScrubOf_leaves c mem
  have told : (s.abortScrubOf c mem).FieldsBut (onPage (pgDTRAIN c) [Reg.HDR.EVT_PENDING]) ((s.abortScrubOf c mem).event (pgDTRAIN c) 1) :=
    State.fieldsBut_event .mem ..
  exact ⟨fun d => (State.event_conc ..).trans (concs d), State.event_pends (by decide) ..,
    (fields.mono fun _ h => .inr (.inr h)).trans (told.mono fun _ h => .inl (.inr h)),
    fun g hg => (fields.page (fun x h e => (pgDINTG_apart c).1 (h.symm.trans e)) hg).trans (told.far (pgDRAM_ne_pgDTRAIN c) hg)⟩

/-- The backlog is shown on the SHEAF page alone. -/
theorem State.showBacklog_leaves (s : State) (c : Conc) :
    (∀ d, (s.showBacklog c).conc d = s.conc d) ∧ s.FieldsBut (ofPage (pgSHEAF c)) (s.showBacklog c) := by
  refine ⟨fun d => (State.showBacklog_only (L := 24) (.refl s) c (by decide)).conc d, ?_⟩
  unfold State.showBacklog
  extract_lets cs ahead v w
  have shown : s.FieldsBut (ofPage (pgSHEAF c)) v :=
    (State.fieldsBut_put (f := Reg.SHEAF.BACKLOG_KIB) .mem s _).trans (State.fieldsBut_put (f := Reg.SHEAF.NEXT_SEND) .mem _ _)
  have peak : v.FieldsBut (ofPage (pgSHEAF c)) w := State.fieldsBut_peak (f := Reg.SHEAF.LATENCY_MAX_FRAMES) .mem ..
  exact (shown.trans peak).trans (.ite (State.fieldsBut_overflow .mem w 3) (.refl w))

theorem State.modeReturn_leaves (s : State) (c : Conc) :
    (∀ d, (s.modeReturn c).conc d = s.conc d) ∧ s.FieldsBut (ofPage (pgSHEAF c)) (s.modeReturn c) := by
  refine ⟨fun d => (State.modeReturn_only (L := 88) (.refl s) c (by decide)).conc d, ?_⟩
  have mode (v : Nat) := State.fieldsBut_put (F := ofPage (pgSHEAF c)) (f := Reg.SHEAF.SPILL_STAT_MODE) .mem s v
  exact .ite (.refl s) (.ite ((mode 0).trans (State.fieldsBut_event .mem ..)) (.ite (mode 1) (.refl s)))

/-- A group's data begin at a frame: VALID and OLDEST hold its sheaf. -/
theorem State.putHeld_leaves (s : State) (c : Conc) (f g : FieldRef) (n : Nat)
    (whole : (f.lo = 0 ∧ f.hi = 31) ∧ g.lo = 0 ∧ g.hi = 31 := by decide) (fits : f.fits = true ∧ g.fits = true := by decide)
    (apart : bitsApart g f = true := by decide) :
    let t := (s.put (pgDRAM c) f (sheafOf n)).put (pgDRAM c) g (sheafOf n)
    t.stored (pgDRAM c) f = sheafOf n ∧ t.stored (pgDRAM c) g = sheafOf n ∧ s.FieldsBut (onPage (pgDRAM c) [f, g]) t := by
  obtain ⟨⟨fl, fh⟩, gl, gh⟩ := whole
  have small : sheafOf n % 2 ^ 32 = sheafOf n := Nat.mod_mod ..
  have second : (s.put (pgDRAM c) f (sheafOf n)).FieldsBut (onPage (pgDRAM c) [g]) ((s.put (pgDRAM c) f (sheafOf n)).put (pgDRAM c) g (sheafOf n)) :=
    State.fieldsBut_put (.mem List.mem_cons_self) _ _ fits.2
  refine ⟨?_, ?_, (State.fieldsBut_put (.mem List.mem_cons_self) s _ fits.1).trans (second.mono (onPage.sub (List.subset_cons_self ..)))⟩
  · rw [(second.own fits.1 (by simpa using apart)).stored, State.stored_put_same (by omega) (by omega), fl, fh]
    exact small
  · rw [State.stored_put_same (by omega) (by omega), gl, gh]
    exact small

/-- The output continues with the sheaf of the boundary. -/
theorem State.skipToBoundary_leaves (s : State) (c : Conc) :
    let t := s.skipToBoundary c
    s.ConcMoves t c { s.conc c with sendNext := s.frame, stream := none, queue := [], unsent := 0, validR := s.frame } ∧
      t.stored (pgDRAM c) Reg.DRAM.REPLAY_VALID = sheafOf s.frame ∧ t.stored (pgDRAM c) Reg.DRAM.REPLAY_OLDEST = sheafOf s.frame ∧
      s.FieldsBut (RetireField c) t := by
  obtain ⟨n, hn⟩ : ∃ n, n = (s.conc c).nextForm - (s.conc c).oldestUnsent := ⟨_, rfl⟩
  obtain ⟨v, hv⟩ : ∃ v : ConcSt,
      v = { s.conc c with sendNext := s.frame, stream := none, queue := [], unsent := 0, validR := s.frame } := ⟨_, rfl⟩
  obtain ⟨a, ha⟩ : ∃ a, a = s.skipUnsent c n := ⟨_, rfl⟩
  obtain ⟨b, hb⟩ : ∃ b, b = a.setConc c v := ⟨_, rfl⟩
  obtain ⟨d, hd⟩ : ∃ d, d = b.showReplayFrom c s.frame := ⟨_, rfl⟩
  obtain ⟨e, he⟩ : ∃ e, e = d.modeReturn c := ⟨_, rfl⟩
  have frame : a.frame = s.frame := ha ▸ State.bump_frame ..
  have eq : s.skipToBoundary c = e.showBacklog c := by
    have bframe : b.frame = s.frame := by rw [hb, State.setConc_frame, frame]
    rw [he, hd, ← bframe, hb, hv, ← frame, ha, hn]
    rfl
  have skips : s.FieldsBut (onPage (pgDRAM c) [Reg.DRAM.RETIRE_SKIP_CNT, Reg.HDR.COUNTER_OVF]) b := by
    rw [hb, ha]
    exact (State.fieldsBut_bump (f := Reg.DRAM.RETIRE_SKIP_CNT) .mem .mem s 6 n).trans (State.fieldsBut_setConc ..)
  obtain ⟨valid, oldest, held⟩ := b.putHeld_leaves c Reg.DRAM.REPLAY_VALID Reg.DRAM.REPLAY_OLDEST s.frame
  obtain ⟨modes, moded⟩ := d.modeReturn_leaves c
  obtain ⟨shows, shown⟩ := e.showBacklog_leaves c
  rw [← he] at modes moded
  have held' : b.FieldsBut (onPage (pgDRAM c) [Reg.DRAM.REPLAY_VALID, Reg.DRAM.REPLAY_OLDEST]) d := hd ▸ held
  have sheaf : d.FieldsBut (ofPage (pgSHEAF c)) (e.showBacklog c) := moded.trans shown
  have far (x : Nat × FieldRef) (h : ofPage (pgSHEAF c) x) : x.1 ≠ pgDRAM c := fun e => (pgSHEAF_apart c).1 (h.symm.trans e)
  rw [eq]
  refine ⟨?_, ?_, ?_, ((skips.mono fun x h => .inl (.inl (onPage.sub (by decide) x h))).trans
    (held'.mono fun x h => .inl (.inl (onPage.sub (by decide) x h)))).trans (sheaf.mono fun _ h => .inr (.inl h))⟩
  · have start (x : Conc) : a.conc x = s.conc x := ha ▸ State.bump_conc ..
    have set := a.concMoves_setConc c v
    rw [← hb, hv] at set
    refine State.ConcMoves.then ⟨set.own, set.other.trans (start _)⟩ fun x => ?_
    rw [shows, modes, hd]
    exact (State.put_conc ..).trans (State.put_conc ..)
  · rw [(sheaf.page far).stored, hd]
    exact valid
  · rw [(sheaf.page far).stored, hd]
    exact oldest

/-! ### A channel leaves its group (R306) -/

/-- A concentrator whose replay group has lost a channel: its output goes on with the frame at the boundary. -/
def ConcSt.replayRetired (v : ConcSt) (k n : Nat) : ConcSt :=
  { v with mc := v.mc.drop k, retR := some k, sendNext := n, stream := none, queue := [], unsent := 0, validR := n }

/-- A concentrator whose shadow group has lost a channel. -/
def ConcSt.shadowRetired (v : ConcSt) (k n : Nat) : ConcSt := { v with mc := v.mc.drop k, retS := some k, validS := n }

/-- Retirement in the replay group. -/
theorem State.retire_replay (h : k < 10) (s : State) (c : Conc) :
    let t := s.retire c k
    s.ConcMoves t c ((s.conc c).replayRetired k s.frame) ∧ t.RetShown c false k ∧
      (t.rd (pgDTRAIN c) Reg.HDR.EVT_PENDING.off).getLsbD 1 = true ∧
      t.stored (pgDRAM c) Reg.DRAM.REPLAY_VALID = sheafOf s.frame ∧ t.stored (pgDRAM c) Reg.DRAM.REPLAY_OLDEST = sheafOf s.frame := by
  obtain ⟨b, hb⟩ : ∃ b, b = s.setConc c { s.conc c with mc := (s.conc c).mc.drop k, retR := some k } := ⟨_, rfl⟩
  obtain ⟨d, hd⟩ : ∃ d, d = b.showRetired c := ⟨_, rfl⟩
  obtain ⟨moved, valid, oldest, fields⟩ := d.skipToBoundary_leaves c
  obtain ⟨ends, event, ended, dram⟩ := (d.skipToBoundary c).retireEnd_leaves c 1
  have eq : s.retire c k = ((d.skipToBoundary c).abortScrubOf c 1).event (pgDTRAIN c) 1 := by
    rw [State.retire, if_pos h, hd, hb]
    cases c <;> rfl
  have left := s.concMoves_setConc c { s.conc c with mc := (s.conc c).mc.drop k, retR := some k }
  rw [← hb] at left
  have shows (x : Conc) : d.conc x = b.conc x := hd ▸ (State.showRetired_only (L := 24) (.refl b) c (by decide)).conc x
  have frame : d.frame = s.frame := by
    rw [hd, (State.showRetired_only (L := 24) (.refl b) c (by decide)).frame rfl, hb, State.setConc_frame]
  have shown : d.RetShown c false k := hd ▸ State.showRetired_shown (by omega) (by rw [left.own]; rfl)
  rw [frame] at moved valid oldest
  rw [(left.then shows).own] at moved
  dsimp only
  rw [eq]
  refine ⟨((left.then shows).trans moved).then ends, shown.retired (by omega) (fields.trans ended), event, ?_, ?_⟩
  · rw [(dram Reg.DRAM.REPLAY_VALID (by decide)).stored, valid]
  · rw [(dram Reg.DRAM.REPLAY_OLDEST (by decide)).stored, oldest]

/-- Retirement in the shadow group. -/
theorem State.retire_shadow (h : 10 ≤ k) (small : k < 16) (s : State) (c : Conc) :
    let t := s.retire c k
    s.ConcMoves t c ((s.conc c).shadowRetired k s.frame) ∧ t.RetShown c true k ∧
      (t.rd (pgDTRAIN c) Reg.HDR.EVT_PENDING.off).getLsbD 1 = true ∧ t.stored (pgDRAM c) Reg.DRAM.SHADOW_VALID = sheafOf s.frame ∧
      t.stored (pgDRAM c) Reg.DRAM.SHADOW_OLDEST = sheafOf s.frame := by
  obtain ⟨b, hb⟩ : ∃ b, b = s.setConc c ((s.conc c).shadowRetired k s.frame) := ⟨_, rfl⟩
  obtain ⟨d, hd⟩ : ∃ d, d = b.showRetired c := ⟨_, rfl⟩
  obtain ⟨e, he⟩ : ∃ e, e = d.showShadowFrom c s.frame := ⟨_, rfl⟩
  obtain ⟨valid, oldest, fields⟩ := d.putHeld_leaves c Reg.DRAM.SHADOW_VALID Reg.DRAM.SHADOW_OLDEST s.frame
  obtain ⟨ends, event, ended, dram⟩ := e.retireEnd_leaves c 2
  rw [← State.showShadowFrom, ← he] at fields
  have held : d.FieldsBut (RetireField c) e := fields.mono fun x h => .inl (.inl (onPage.sub (by decide) x h))
  have eq : s.retire c k = (e.abortScrubOf c 2).event (pgDTRAIN c) 1 := by
    rw [State.retire, if_neg (Nat.not_lt.2 h), he, hd, hb]
    cases c <;> rfl
  have left := s.concMoves_setConc c ((s.conc c).shadowRetired k s.frame)
  rw [← hb] at left
  have shows (x : Conc) : e.conc x = b.conc x := by
    rw [he, hd]
    exact (State.put_conc ..).trans ((State.put_conc ..).trans ((State.showRetired_only (L := 24) (.refl b) c (by decide)).conc x))
  have shown : d.RetShown c true k := hd ▸ State.showRetired_shown small (by rw [left.own]; rfl)
  dsimp only
  rw [eq]
  refine ⟨(left.then shows).then ends, shown.retired small (held.trans ended), event, ?_, ?_⟩
  · rw [(dram Reg.DRAM.SHADOW_VALID (by decide)).stored, he]
    exact valid
  · rw [(dram Reg.DRAM.SHADOW_OLDEST (by decide)).stored, he]
    exact oldest

/-- A controller that keeps a retirement for the release (R311). -/
def DramSt.awaitRetire (m : DramSt) (k : Nat) : DramSt :=
  { m with retireDue := if m.retireDue.contains k then m.retireDue else m.retireDue ++ [k] }

theorem DramSt.mem_awaitRetire (m : DramSt) (k : Nat) : k ∈ (m.awaitRetire k).retireDue := by
  unfold DramSt.awaitRetire
  dsimp only
  split
  next held => exact List.contains_iff_mem.1 held
  · exact List.mem_append_right _ List.mem_cons_self

section

variable (must : s.mustRetire c k = true)

include must

theorem State.channelRetire_frozen (frozen : s.dramFrozen c = true) :
    s.channelRetire c k = s.setMc c ((s.conc c).mc.awaitRetire k) := by
  rw [State.channelRetire, if_pos must, if_pos frozen]
  rfl

theorem State.channelRetire_denied (free : s.dramFrozen c = false) (taken : (s.conc c).groupRetired k = true) :
    s.channelRetire c k = s.event (pgDTRAIN c) 2 := by
  rw [State.channelRetire, if_pos must, if_neg (by simp [free]), State.retireOrDeny, if_pos taken]

theorem State.channelRetire_retires (free : s.dramFrozen c = false) (room : (s.conc c).groupRetired k = false) :
    s.channelRetire c k = s.retire c k := by
  rw [State.channelRetire, if_pos must, if_neg (by simp [free]), State.retireOrDeny, if_neg (by simp [room])]

end

/-- A retired channel is not live. -/
theorem ConcSt.isLive_retired {v : ConcSt} (h : (if 10 ≤ k then v.retS else v.retR) = some k) : v.isLive k = false := by
  unfold ConcSt.isLive ConcSt.liveChans
  split_ifs at h with shadow
  · simp [shadow, h]
  · simp [shadow, h]

end

end Sys2Proof.Machine
end

section
/-!
PROOFS. The family of the lookback memory: a controller freezes (R309, R310), and the obligation on training, retirement and freezing.
-/

set_option Elab.async false

namespace Sys2Proof.Machine

section

variable {s t : State} {c : Conc}

/-! ### A swap that is withdrawn stops no concentrator (R216) -/

/-- Every concentrator's RUN_STATE is as before. -/
def State.SameRun (s t : State) : Prop := ∀ d, (t.conc d).run = (s.conc d).run

theorem State.SameRun.trans {u : State} (h : s.SameRun t) (k : t.SameRun u) : s.SameRun u := fun d => (k d).trans (h d)

theorem State.SameRun.of_conc (h : ∀ d, t.conc d = s.conc d) : s.SameRun t := fun d => congrArg ConcSt.run (h d)

theorem State.sameRun_setConc (s : State) {d : Conc} {v : ConcSt} (h : v.run = (s.conc d).run) : s.SameRun (s.setConc d v) := by
  intro x
  by_cases same : x = d
  · rw [same, State.setConc_conc_same, h]
  · rw [State.setConc_conc_ne same]

theorem State.sameRun_each {α : Type} {l : List α} {f : State → α → State} (h : ∀ u a, State.SameRun u (f u a)) (s : State) :
    s.SameRun (s.each l f) := State.each_keeps (P := fun t => s.SameRun t) (fun t a _ k => k.trans (h t a)) (fun _ => rfl)

theorem State.sameRun_discardStaged (s : State) (page : Nat) : s.SameRun (s.discardStaged page) := by
  unfold State.discardStaged
  split_ifs
  · exact fun _ => rfl
  · refine (s.sameRun_setConc (d := concOf page) (v := { s.conc (concOf page) with corrStaged := [], stagedBad := [] }) rfl).trans
      (.of_conc fun d => ?_)
    exact (State.put_conc ..).trans (State.put_conc ..)
  · exact fun _ => rfl
  · exact .of_conc fun d => by cases d <;> rfl
  · exact fun _ => rfl

theorem State.sameRun_nextTurn (s : State) (tl : Fin 16) : s.SameRun (s.nextTurn tl) := by
  have cleared : s.SameRun (s.each concs fun u d => u.clearHist d false) :=
    State.sameRun_each (fun u d => u.sameRun_setConc (v := { u.conc d with hist := [], tapHist := [], captured := (u.conc d).captured }) rfl) s
  unfold State.nextTurn
  split
  · unfold State.beginTurn
    split
    · refine cleared.trans (.of_conc fun d => (State.put_conc ..).trans ?_)
      cases d <;> rfl
    · exact .of_conc fun d => by cases d <;> rfl
  · exact fun _ => rfl

theorem State.sameRun_swapAborted (s : State) (w : PendingSwap) : s.SameRun (s.swapAborted w) := by
  have discarded : s.SameRun (s.swapDiscarded w) :=
    (s.sameRun_discardStaged _).trans (State.sameRun_each (fun u d => u.sameRun_discardStaged (pgCORR d)) _)
  refine discarded.trans (.of_conc fun d => (State.event_conc ..).trans ((State.bump_conc ..).trans ?_))
  cases d <;> rfl

theorem State.sameRun_withdrawSwap {w : PendingSwap} (swap : s.cal.swap = some w) (open_ : w.committed = false) :
    s.SameRun s.withdrawSwap := by
  obtain ⟨u, hu⟩ : ∃ u, u = (s.swapAborted w).showSwap.putB pgCALS Reg.CALS.SWAP_STAT_READY false := ⟨_, rfl⟩
  obtain ⟨v, hv⟩ : ∃ v, v = (u.journalSwap w.tile resABORTED (u.epochNow + 1)).2 := ⟨_, rfl⟩
  have eq : s.withdrawSwap = if (s.swapDiscarded w).cal.staged.toList.isEmpty then v else v.nextTurn w.tile := by
    rw [hv, hu]
    simp only [State.withdrawSwap, swap, open_, Bool.false_eq_true, if_false]
    rfl
  have aborted : s.SameRun u := by
    refine (s.sameRun_swapAborted w).trans (.of_conc fun d => ?_)
    rw [hu]
    exact (State.put_conc ..).trans ((State.showSwap_only (L := 24) (.refl (s.swapAborted w)) (by decide)).conc d)
  have journaled : u.SameRun v := .of_conc fun d => by
    rw [hv]
    exact (State.journalSwap_only (L := 8589934616) (.refl u) w.tile resABORTED (u.epochNow + 1) (by decide)).conc d
  rw [eq]
  split
  · exact aborted.trans journaled
  · exact (aborted.trans journaled).trans (v.sameRun_nextTurn w.tile)

/-- The pages that a withdrawn swap writes. -/
def withdrawnPages : List Nat := [pgCALS, pgJRNL, pgCORR .a, pgCORR .b]

theorem State.regsBut_withdrawSwap {w : PendingSwap} (swap : s.cal.swap = some w) (open_ : w.committed = false) :
    s.RegsBut (fun q _ => q ∈ withdrawnPages) s.withdrawSwap := by
  have passes (q o : Nat) (h : PassReg q o) : q ∈ withdrawnPages := by
    rcases h with ⟨page, -⟩ | ⟨page, -⟩ <;> simp [withdrawnPages, page]
  have calendar : pgCALS ∈ withdrawnPages := List.mem_cons_self
  obtain ⟨e, he⟩ : ∃ e, e = s.swapDiscarded w := ⟨_, rfl⟩
  obtain ⟨d, hd⟩ : ∃ d : State, d = { e with cal := { e.cal with swap := none, results := e.cal.staged.toList ++ e.cal.results, staged := none } } :=
    ⟨_, rfl⟩
  have aborted : s.RegsBut (fun q _ => q ∈ withdrawnPages) (s.swapAborted w) := by
    have discarded : s.RegsBut (fun q _ => q ∈ withdrawnPages) d := by
      refine (s.swapDiscarded_leaves w).1.mono (fun q _ mem => ?_) |>.trans (hd ▸ he ▸ .of rfl rfl)
      exact List.mem_cons_of_mem _ (List.mem_cons_of_mem _ mem)
    have told : d.RegsBut (fun q _ => q ∈ withdrawnPages) (s.swapAborted w) := by
      rw [State.swapAborted, ← he, ← hd]
      exact (State.regsBut_bump (f := Reg.CALS.ABORT_CNT) calendar calendar (by decide) ..).trans (State.regsBut_event calendar ..)
    exact discarded.trans told
  have shown : (s.swapAborted w).RegsBut PassReg (s.swapAborted w).showSwap :=
    ((State.regsBut_swapStat (f := Reg.CALS.SWAP_STAT_PENDING) rfl ..).trans
      (State.regsBut_swapStat (f := Reg.CALS.SWAP_STAT_COMMITTED) rfl ..)).trans
        (State.regsBut_swapStat (f := Reg.CALS.SWAP_STAT_BY_HOST) rfl ..)
  exact aborted.trans ((shown.trans (State.withdrawSwap_passed swap open_).passed.regs).mono passes)

/-- What the check of a pending swap leaves. -/
theorem State.checkSwap_leaves (s : State) : s.SameRun s.checkSwap ∧ s.RegsBut (fun q _ => q ∈ withdrawnPages) s.checkSwap ∧
    s.checkSwap.scrubs = s.scrubs := by
  have scrubs : s.checkSwap.scrubs = s.scrubs := (State.checkSwap_only (L := 8598352984) (.refl s) (by decide)).scrubs rfl
  obtain none | ⟨w, swap⟩ := Option.eq_none_or_eq_some s.cal.swap
  · rw [State.checkSwap_none none]
    exact ⟨fun _ => rfl, .refl s, rfl⟩
  · have eq : s.checkSwap = if !w.committed && !w.restoring && !s.swapAdmitted then s.withdrawSwap else s := by
      rw [State.checkSwap, swap]
    rw [eq] at scrubs ⊢
    split_ifs at scrubs ⊢ with bad
    · have open_ : w.committed = false := by simp_all
      exact ⟨State.sameRun_withdrawSwap swap open_, State.regsBut_withdrawSwap swap open_, scrubs⟩
    · exact ⟨fun _ => rfl, .refl s, rfl⟩

/-! ### The snapshot (R310, R314) -/

/-- Fields of a page, each with its value. -/
def State.putAll (s : State) (p : Nat) (l : List (FieldRef × Nat)) : State := s.each l fun s x => s.put p x.1 x.2

section

variable {p : Nat} {l : List (FieldRef × Nat)}

theorem State.fieldsBut_putAll (fits : ∀ x ∈ l, x.1.fits = true) (s : State) :
    s.FieldsBut (onPage p (l.map (·.1))) (s.putAll p l) :=
  .each (fun u x mem => State.fieldsBut_put (.mem (List.mem_map_of_mem mem)) u _ (fits x mem)) s

/-- Fields that share no bit hold their values. -/
theorem State.putAll_stored (fits : ∀ x ∈ l, x.1.fits = true) (apart : l.Pairwise fun x y => bitsApart y.1 x.1 = true) {f : FieldRef}
    {v : Nat} (mem : (f, v) ∈ l) (small : v < 2 ^ (f.hi - f.lo + 1)) (s : State) : (s.putAll p l).stored p f = v := by
  induction l generalizing s with
  | nil => exact absurd mem List.not_mem_nil
  | cons x l ih =>
    obtain ⟨first, rest⟩ := List.pairwise_cons.1 apart
    have fits' : ∀ y ∈ l, y.1.fits = true := fun y hy => fits y (List.mem_cons_of_mem x hy)
    rcases List.mem_cons.1 mem with rfl | mem
    · have fit := fits (f, v) List.mem_cons_self
      have kept := (State.fieldsBut_putAll (p := p) fits' (s.put p f v)).own fit fun g hg => by
        obtain ⟨y, hy, rfl⟩ := List.mem_map.1 hg
        exact first y hy
      simp only [FieldRef.fits, decide_eq_true_eq] at fit
      exact kept.stored.trans ((State.stored_put_same fit.1 fit.2.1 s p v).trans (Nat.mod_eq_of_lt small))
    · exact ih fits' rest mem _

end

/-- What a snapshot holds. -/
def snapshotFields (x : FreezeCause) (n : Nat) : List (FieldRef × Nat) :=
  [(Reg.DRAM.FRZ_CAUSE_CAUSE, x.cause), (Reg.DRAM.FRZ_CAUSE_CLASS, x.cls), (Reg.DRAM.FRZ_CAUSE_CMD, x.cmd),
    (Reg.DRAM.FRZ_CAUSE_CHANNEL, x.chan), (Reg.DRAM.FRZ_CAUSE_BANK, x.bank), (Reg.DRAM.FRZ_ADDR_ROW, x.row),
    (Reg.DRAM.FRZ_ADDR_UNIT, x.unit), (Reg.DRAM.FRZ_SYND, x.synd), (Reg.DRAM.FRZ_SHEAF, sheafOf n)]

theorem State.snapshot_eq (s : State) (c : Conc) (x : FreezeCause) :
    s.snapshot c x = s.putAll (pgDRAM c) (snapshotFields x (s.conc c).nextForm) := by
  have same (a : State) (p : Nat) (f : FieldRef) (v : Nat) : (a.put p f v).conc c = a.conc c := State.put_conc ..
  simp only [State.snapshot, same]
  rfl

/-- The fields of a snapshot. -/
def frzFields : List FieldRef :=
  [Reg.DRAM.FRZ_CAUSE_CAUSE, Reg.DRAM.FRZ_CAUSE_CLASS, Reg.DRAM.FRZ_CAUSE_CMD, Reg.DRAM.FRZ_CAUSE_CHANNEL, Reg.DRAM.FRZ_CAUSE_BANK,
    Reg.DRAM.FRZ_ADDR_ROW, Reg.DRAM.FRZ_ADDR_UNIT, Reg.DRAM.FRZ_SYND, Reg.DRAM.FRZ_SHEAF]

section

variable {x : FreezeCause} {n : Nat}

theorem snapshotFields_map : (snapshotFields x n).map (·.1) = frzFields := rfl

theorem mem_frzFields {y : FieldRef × Nat} (h : y ∈ snapshotFields x n) : y.1 ∈ frzFields := List.mem_map_of_mem (f := (·.1)) h

theorem snapshotFields_fits : ∀ y ∈ snapshotFields x n, y.1.fits = true := by
  have fits : ∀ f ∈ frzFields, f.fits = true := by decide
  exact fun y mem => fits y.1 (mem_frzFields mem)

theorem snapshotFields_apart : (snapshotFields x n).Pairwise fun y z => bitsApart z.1 y.1 = true := by
  have apart : frzFields.Pairwise fun f g => bitsApart g f = true := by decide
  exact List.pairwise_map.1 (snapshotFields_map (x := x) (n := n) ▸ apart)

end

/-! ### The controller freezes (R309, R310) -/

/-- What a freeze leaves. -/
structure State.Froze (s t : State) (c : Conc) (x : FreezeCause) : Prop where
  frozen : t.dramFrozen c = true
  run : (t.conc c).run = .frozen
  event : (t.rd (pgDRAM c) Reg.HDR.EVT_PENDING.off).getLsbD 0 = true
  count : s.below (pgDRAM c) [Reg.DRAM.FREEZE_CNT] 1 →
    t.stored (pgDRAM c) Reg.DRAM.FREEZE_CNT = s.stored (pgDRAM c) Reg.DRAM.FREEZE_CNT + 1
  snapshot : ∀ f v, (f, v) ∈ snapshotFields x (s.conc c).nextForm → v < 2 ^ (f.hi - f.lo + 1) → t.stored (pgDRAM c) f = v
  scrubs : mapFind (pgDINTG c) t.scrubs = none

/-- A freeze's end: the pass is over, merge stops, the partner is told, and a swap may be withdrawn. -/
def State.freezeEnds (s : State) (c : Conc) : State :=
  let s := s.abortScrub (pgDINTG c)
  let s := s.setConc c { s.conc c with run := .frozen }
  (s.sendCross c (s.crossMsg c (s.conc c).nextForm none)).checkSwap

theorem State.freezeEnds_leaves (s : State) (c : Conc) :
    let t := s.freezeEnds c
    (t.conc c).run = .frozen ∧ mapFind (pgDINTG c) t.scrubs = none ∧ ∀ g : FieldRef, g.fits = true → s.SameField t (pgDRAM c) g := by
  obtain ⟨a, ha⟩ : ∃ a, a = s.abortScrub (pgDINTG c) := ⟨_, rfl⟩
  obtain ⟨b, hb⟩ : ∃ b, b = a.setConc c { a.conc c with run := .frozen } := ⟨_, rfl⟩
  obtain ⟨d, hd⟩ : ∃ d, d = b.sendCross c (b.crossMsg c (b.conc c).nextForm none) := ⟨_, rfl⟩
  have eq : s.freezeEnds c = d.checkSwap := by rw [hd, hb, ha]; rfl
  obtain ⟨-, aborted, ended⟩ := s.abortScrub_leaves (pgDINTG c)
  rw [← ha] at aborted ended
  obtain ⟨told, sent⟩ := b.sendCross_leaves c (b.crossMsg c (b.conc c).nextForm none)
  rw [← hd] at told sent
  obtain ⟨runs, regs, scrubs⟩ := d.checkSwap_leaves
  have stopped : (b.conc c).run = .frozen := by rw [hb, State.setConc_conc_same]
  have kept : d.scrubs = a.scrubs := by
    rw [hd, (State.sendCross_only (L := 24576) (.refl b) c _ (by decide)).scrubs rfl, hb, State.setConc_scrubs]
  have far : pgDRAM c ∉ withdrawnPages := by cases c <;> decide
  dsimp only
  rw [eq]
  refine ⟨?_, ?_, fun g hg => ?_⟩
  · rw [runs c, told, stopped]
  · rw [scrubs, kept, ended]
  · have off : g.off < 4096 := by
      simp only [FieldRef.fits, decide_eq_true_eq] at hg
      exact hg.2.2
    have first : s.SameField b (pgDRAM c) g := (aborted.page (fun x h e => (pgDINTG_apart c).1 (h.symm.trans e)) hg).trans
      (hb ▸ (State.fieldsBut_setConc (F := fun _ => False) ..).field _ g hg nofun)
    exact (first.trans ((sent fun _ _ => False).same _ _ off id).sameField).trans (regs.same _ _ off far).sameField

theorem State.freeze_froze (free : s.dramFrozen c = false) (x : FreezeCause) : s.Froze (s.freeze c x) c x := by
  obtain ⟨a, ha⟩ : ∃ a, a = s.snapshot c x := ⟨_, rfl⟩
  obtain ⟨b, hb⟩ : ∃ b, b = a.putB (pgDRAM c) Reg.DRAM.STAT_FROZEN true := ⟨_, rfl⟩
  obtain ⟨d, hd⟩ : ∃ d, d = b.event (pgDRAM c) 0 := ⟨_, rfl⟩
  obtain ⟨e, he⟩ : ∃ e, e = d.bump (pgDRAM c) Reg.DRAM.FREEZE_CNT 4 := ⟨_, rfl⟩
  have eq : s.freeze c x = e.freezeEnds c := by
    rw [State.freeze, free, he, hd, hb, ha]
    rfl
  have taken : s.FieldsBut (onPage (pgDRAM c) frzFields) a := by
    rw [ha, State.snapshot_eq]
    exact State.fieldsBut_putAll snapshotFields_fits s
  have marked : a.FieldsBut (onPage (pgDRAM c) [Reg.DRAM.STAT_FROZEN]) b := hb ▸ State.fieldsBut_putB .mem ..
  have noted : b.FieldsBut (onPage (pgDRAM c) [Reg.HDR.EVT_PENDING]) d := hd ▸ State.fieldsBut_event .mem ..
  have counted : d.FieldsBut (onPage (pgDRAM c) [Reg.DRAM.FREEZE_CNT, Reg.HDR.COUNTER_OVF]) e :=
    he ▸ State.fieldsBut_bump .mem .mem ..
  obtain ⟨run, scrubs, dram⟩ := e.freezeEnds_leaves c
  rw [eq]
  refine ⟨?_, run, ?_, fun below => ?_, fun f v mem small => ?_, scrubs⟩
  · rw [State.dramFrozen, (dram Reg.DRAM.STAT_FROZEN (by decide)).flag, counted.own.flag, noted.own.flag, hb]
    exact State.flag_putB_same (f := Reg.DRAM.STAT_FROZEN) (by decide) (by decide) ..
  · have pending : (e.freezeEnds c).rd (pgDRAM c) Reg.HDR.EVT_PENDING.off = e.rd (pgDRAM c) Reg.HDR.EVT_PENDING.off :=
      (dram Reg.HDR.EVT_PENDING (by decide)).reg
    rw [pending, counted.pending, hd]
    exact State.event_pends (by decide) ..
  · rw [(dram Reg.DRAM.FREEZE_CNT (by decide)).stored, he]
    exact below.bumped (noted.own.stored.trans (marked.own.stored.trans taken.own.stored)) ⟨rfl, rfl⟩ 4
  · have own := snapshotFields_fits _ mem
    have apart : ∀ g ∈ frzFields, ∀ y ∈ [Reg.DRAM.FREEZE_CNT, Reg.HDR.COUNTER_OVF, Reg.HDR.EVT_PENDING, Reg.DRAM.STAT_FROZEN],
        bitsApart y g = true := by decide
    have here {l : List FieldRef} (sub : l ⊆ [Reg.DRAM.FREEZE_CNT, Reg.HDR.COUNTER_OVF, Reg.HDR.EVT_PENDING, Reg.DRAM.STAT_FROZEN])
        (y : FieldRef) (hy : y ∈ l) : bitsApart y f = true := apart f (mem_frzFields mem) y (sub hy)
    rw [(dram f own).stored, (counted.own own (here (by decide))).stored, (noted.own own (here (by decide))).stored,
      (marked.own own (here (by decide))).stored, ha, State.snapshot_eq]
    exact State.putAll_stored snapshotFields_fits snapshotFields_apart mem small s

/-- What DRAM_FREEZE finds. -/
def freezeCause (parity : Bool) (cmd cls chan bank row unit synd : Nat) : FreezeCause :=
  { cause := if parity then 1 else 2, cmd, cls, chan, bank, row, unit, synd := if parity then 0 else synd }

/-- A parity error, and an uncorrectable read of a unit not yet poisoned where FREEZE_UE is set, freeze a controller. -/
theorem State.dramFreeze_froze {parity : Bool} {cmd cls chan bank row unit synd : Nat} (free : s.dramFrozen c = false) (hk : chan < 16)
    (cause : parity = true ∨ (s.flag (pgDRAM c) Reg.DRAM.CTRL_FREEZE_UE = true ∧ (s.conc c).poisonAt chan bank row unit = false)) :
    s.Froze (s.dramFreeze c parity cmd cls chan bank row unit synd) c (freezeCause parity cmd cls chan bank row unit synd) := by
  cases parity with
  | true => exact State.freeze_froze free _
  | false =>
    obtain ⟨enabled, fresh⟩ := cause.resolve_left Bool.false_ne_true
    obtain ⟨u, hu⟩ : ∃ u, u = s.uncorrectableRead (pgDINTG c) (8 + chan) := ⟨_, rfl⟩
    have fits : (regionReg Reg.DINTG.UE_CNT (8 + chan)).fits = true := by
      simp [regionReg, FieldRef.nth, Reg.DINTG.UE_CNT, FieldRef.fits]
      omega
    have counted : s.FieldsBut (ofPage (pgDINTG c)) u := hu ▸ State.fieldsBut_bump .mem .mem s _ 1 fits
    have same {g : FieldRef} (hg : g.fits = true) : s.SameField u (pgDRAM c) g :=
      counted.page (fun x h e => (pgDINTG_apart c).1 (h.symm.trans e)) hg
    have conc : u.conc c = s.conc c := hu ▸ State.bump_conc ..
    have eq : s.dramFreeze c false cmd cls chan bank row unit synd = u.freeze c (freezeCause false cmd cls chan bank row unit synd) := by
      simp only [State.dramFreeze, enabled, fresh, free, hu, freezeCause, Bool.false_eq_true, if_false, Bool.not_false, Bool.and_self, if_true]
    obtain ⟨frozen, run, event, count, snapshot, scrubs⟩ := State.freeze_froze
      (((same (g := Reg.DRAM.STAT_FROZEN) (by decide)).flag).trans free) (freezeCause false cmd cls chan bank row unit synd)
    have cnt : u.stored (pgDRAM c) Reg.DRAM.FREEZE_CNT = s.stored (pgDRAM c) Reg.DRAM.FREEZE_CNT := (same (by decide)).stored
    rw [eq]
    refine ⟨frozen, run, event, fun below => ?_, conc ▸ snapshot, scrubs⟩
    rw [count fun g mem => List.mem_singleton.1 mem ▸ cnt ▸ below _ List.mem_cons_self, cnt]

end

/-! ### The obligation -/

/-- Settles O54: the result of a retraining is kept by a change that waited for it (`State.Retrained.waited`); a retirement's end writes
none of what shows the retired channel (`State.RetShown.retired`); a withdrawn swap leaves what a freeze has set (`State.freeze_froze`). -/
theorem channelsTrainRetireAndFreeze : Obligations.ChannelsTrainRetireAndFreeze := by
  unfold Obligations.ChannelsTrainRetireAndFreeze
  refine ⟨?_, ?_, ?_⟩
  · intro s c chan v p powered run awake live frozen busy due below
    have eq : s.retrainDue c chan v = (s.retrained c chan v).waitedChange c := if_pos (by simp [live, frozen, busy, due])
    obtain ⟨count, last, trained, degraded, other, found, failed⟩ := (State.retrained_retrained chan.isLt s c v).waited chan.isLt
    refine ⟨_, exec_whileDram powered run awake _, ?_⟩
    rw [eq]
    refine ⟨count (below _ List.mem_cons_self), last, trained, degraded, other, found, fun none => ?_⟩
    exact (failed none).imp id fun fails => fails (below _ (List.mem_cons_of_mem _ List.mem_cons_self))
  · intro s c chan cs p powered run awake must
    refine ⟨_, exec_whileDram powered run awake _, ?_⟩
    cases frozen : s.dramFrozen c with
    | true =>
      have moved := s.concMoves_setMc c ((s.conc c).mc.awaitRetire chan.val)
      rw [State.channelRetire_frozen must frozen]
      refine ⟨moved.other, nofun, fun _ => ?_, nofun⟩
      rw [moved.own]
      exact ⟨DramSt.mem_awaitRetire .., rfl, rfl, s.setMc_keeps_regs c _⟩
    | false =>
      cases taken : (s.conc c).groupRetired chan.val with
      | true =>
        rw [State.channelRetire_denied must frozen taken]
        exact ⟨State.event_conc .., fun _ _ => ⟨State.event_pends (by decide) .., State.event_conc ..⟩, nofun,
          fun _ => nofun⟩
      | false =>
        rw [State.channelRetire_retires must frozen taken]
        by_cases replay : chan.val < 10
        · obtain ⟨moved, shown, event, valid, oldest⟩ := s.retire_replay replay c
          refine ⟨moved.other, fun _ => nofun, nofun, fun _ _ => ?_⟩
          rw [if_pos replay, moved.own]
          exact ⟨event, shown.flag, ConcSt.isLive_retired (if_neg (Nat.not_le.2 replay)), rfl, rfl, rfl, rfl, rfl, rfl, rfl, shown.chan,
            shown.ret, shown.cap, valid, oldest⟩
        · obtain ⟨moved, shown, event, valid, oldest⟩ := s.retire_shadow (Nat.le_of_not_lt replay) chan.isLt c
          refine ⟨moved.other, fun _ => nofun, nofun, fun _ _ => ?_⟩
          rw [if_neg replay, moved.own]
          exact ⟨event, shown.flag, ConcSt.isLive_retired (if_pos (Nat.le_of_not_lt replay)), rfl, rfl, rfl, rfl, shown.chan, shown.ret,
            shown.cap, valid, oldest⟩
  · intro s c parity cmd cls chan bank row unit synd p powered run awake free cause below
    obtain ⟨frozen, stopped, event, count, snapshot, scrubs⟩ := State.dramFreeze_froze (cmd := cmd.toNat) (cls := cls.toNat)
      (synd := synd.toNat) free chan.isLt cause
    refine ⟨_, exec_whileDram powered run awake _, frozen, stopped, event, count below, ?_⟩
    have held := fun y (mem : y ∈ snapshotFields _ _) => snapshot y.1 y.2 mem
    simp only [snapshotFields, List.forall_mem_cons] at held
    obtain ⟨why, priority, command, channel, place, line, word, syndrome, sheaf, -⟩ := held
    have code : (if parity then 1 else 2) < 2 ^ 2 := by cases parity <;> decide
    have bits : (if parity then 0 else synd.toNat) < 2 ^ 32 := by
      split
      exacts [by decide, synd.isLt]
    exact ⟨why code, command cmd.isLt, priority cls.isLt, channel chan.isLt, place bank.isLt, line row.isLt, word unit.isLt, syndrome bits,
      sheaf (Nat.mod_lt _ (by decide)), scrubs⟩

end Sys2Proof.Machine
end
